-- ==== Sys2Proof/Word.lean ====
section
/-! DEFINITION. The word types of the block (R5, R6, R7, R41, R43) and their plainest arithmetic. -/
namespace Sys2Proof

/-- A register is 32 bits wide (R6). -/
abbrev Reg32 := BitVec 32

/-- The native word, an angle or a tick count is 48 bits wide (R12, R41). -/
abbrev Word48 := BitVec 48

/-- The signed reading of a 48-bit word. -/
abbrev Word48.int (w : Word48) : Int := w.toInt

/-- An instant: a tick count and a fine step of 78.125 ps, 0 to 31 (R14, R43). -/
structure Instant where
  tick : Word48
  fine : Nat
deriving DecidableEq, Repr

end Sys2Proof
end

