-- ==== Sys2Proof/Syntax.lean ====
section
/-! DEFINITION. The commands of the block: opcode_table.json, one constructor per row, with the row's operands. -/
namespace Sys2Proof

/-- Who writes a register: the host through BAR0, a stake's manager (or the package manager), or a TUNE descriptor
(R15, R377). -/
inductive Src where
  | host | manager | tune
deriving DecidableEq, Repr

/-- The two ports of a stake on the ring (R19): ascending faces stake n+1, descending faces stake n-1. -/
inductive Dir where
  | asc | dsc
deriving DecidableEq, Repr

/-- A wale cell as a sender holds it (R21); the link fields are added as it is sent. -/
structure Cell where
  dest : Nat
  src : Nat
  cls : Nat
  kind : Nat
  tag : Nat
  tickLo : Nat
  payload : List Nat
  hops : Nat := 0
deriving DecidableEq, Repr

/-- The link fields of a cell received intact from the other end (R21): its sequence number, its `ACK`, the credits it
returns for one class, and its content, none for an idle cell. -/
structure LinkIn where
  seq : Nat
  ack : Nat
  crClass : Nat
  crCount : Nat
  cell : Option Cell
deriving DecidableEq, Repr

/-- What a plait core puts out in one cycle (R313): address, write data, byte enables and transaction kind at each bus port, register
number and value at each write port of its register file. -/
structure CoreOut where
  bus : List (Nat × Nat × Nat × Nat) := []
  regs : List (Nat × Nat) := []
deriving DecidableEq, Repr

/-- What the host writes to the configuration space once the link is up (R339), reset values PCI Express's: the bases of BAR0 and BAR2,
Memory Space and Bus Master Enable, D3hot, the sizes of Device Control as 128 × 2^c bytes, the completion timeout of Device Control 2 in ticks,
MSI-X Enable and Function Mask; and the bits of the uncorrectable error status of Advanced Error Reporting that it clears. -/
structure PcieCfg where
  bar0 : Reg32 := 0
  bar2 : Reg32 := 0
  memEn : Bool := false
  busMaster : Bool := false
  d3 : Bool := false
  payload : Nat := 0
  readReq : Nat := 2
  timeout : Nat := 400000
  msixEn : Bool := false
  msixMask : Bool := false
  aerClear : Reg32 := 0
deriving DecidableEq, Repr

/-- The configuration a driver leaves that maps BAR0, lets the device read and write host memory and enables MSI-X. -/
def PcieCfg.enumerated : PcieCfg := { memEn := true, busMaster := true, msixEn := true }

/-- A frame on a CAN bus that has passed its end of frame (R380, R382, R387): its start-of-frame edge lies `ago` ticks back; `own` for a frame
this controller sent; `res` for a recessive res bit. -/
structure CanFrame where
  ide : Bool
  id : Nat
  fdf : Bool
  brs : Bool
  esi : Bool
  rtr : Bool
  dlc : Nat
  data : List Nat
  ago : Nat
  own : Bool
  res : Bool := false
deriving DecidableEq, Repr

/-- A message of network time (R395 to R399), as the package manager's protocol reads it. An `edge` is the tick at which the first dibit after
its SFD is sampled; times of the network are in 2^-16 ns. A Sync with its sequence number, the logarithm of its interval in seconds and, of one
step, the time it carries; the time a Follow_Up carries; a Pdelay_Req with the edge at which its answer is driven and its correction; a
Pdelay_Resp with, of one step, the time its sender took to answer, and the follow-up that carries it; an Announce with the grandmaster's
identity, none for the loss of the grandmaster; any other message. -/
inductive EthMsg where
  | sync (edge : Word48) (seq : Nat) (interval : Int) (origin : Option Int)
  | followUp (seq : Nat) (origin : Int)
  | pdelayReq (edge egress : Word48) (seq : Nat) (corr : Int)
  | pdelayResp (edge : Word48) (seq : Nat) (turn : Option Int)
  | pdelayFollowUp (seq : Nat) (turn : Int)
  | announce (gm : Option (BitVec 64))
  | other
deriving DecidableEq, Repr

/-- A frame that reaches the MAC (R395): its destination address, its EtherType, whether its FCS fits, and what it says. -/
structure EthFrame where
  dest : Word48
  etherType : Nat
  fcsOk : Bool
  msg : EthMsg
deriving DecidableEq, Repr

/-- What the upsett phase finds on one stake (R330, R331): failed PLLs, failed cores as a mask, failing SRAM rows of the eight banks,
failed decimators of 18 and multiplier slices of 14 as masks, edge-lane drivers failed by port (main and spare), failed lanes of the four
lane maps, the first delay-line measurement, and the length of the phase in microseconds. -/
structure UpsettRes where
  pllMain : Bool
  pllSpare : Bool
  cores : Nat
  sramRows : List Nat
  decimators : Nat
  slices : Nat
  edgeMain : Nat
  edgeSpare : Nat
  ascTx : Nat
  ascRx : Nat
  dscTx : Nat
  dscRx : Nat
  cells : Nat
  duration : Nat
deriving DecidableEq, Repr

/-- What a temperature sensor measures (R413, R415): a diode's voltage difference in nanovolts with the pin voltages in millivolts at 10 and
at 100 microamperes; a thermistor's and VSUP's voltage in microvolts; the on-die sensor's reading in 1/16 °C; the module telemetry the
stake already holds. -/
inductive ThmRaw where
  | diode (dv v10 v100 : Nat)
  | ntc (v vsup : Nat)
  | die (t : Int)
  | module
deriving DecidableEq, Repr

/-- What comes in at a data ball: the changes of its level with their ticks, oldest first; before the first it is low (R75). -/
abbrev Wave := List (Word48 × Bool)

/-- The commands of the block: one constructor per row of opcode_table.json, with the row's operands. An operand with a default is a
measurement the row's summary leaves unsaid; left out, it is one that lets the event happen (a filter passed, a ball that stays low, equal
cores). -/
inductive Instr where
  /-- SETUP_REGISTER_WRITE (R15): A host, stake-manager or TUNE write to a register that has no row of its own; it is checked against range and lock, then stored or discarded. -/
  | setupRegisterWrite (src : Src) (addr : Nat) (w : Reg32)
  /-- BAD_WIDTH_ACCESS (R6): A host register access of the wrong width or alignment reads all-ones or is discarded. -/
  | badWidthAccess (write : Bool) (addr : Nat) (bytes : Nat)
  /-- LOW_WORD_READ_LATCH (R7): A read of the low word of a 48-bit value latches the high word and the associated registers into a snapshot. -/
  | lowWordReadLatch (addr : Nat)
  /-- HIGH_WORD_WRITE_COMMIT (R7): A write of the high word of a 48-bit value commits it together with the low word last written. -/
  | highWordWriteCommit (src : Src) (addr : Nat) (w : Reg32)
  /-- W1C_CLEAR (R9): Writing 1 to a W1C bit clears it, unless the device sets the bit in the same tick. -/
  | w1cClear (addr : Nat) (w : Reg32) (setNow : Reg32)
  /-- SAT_CLEAR (R69): Writing 1 to a saturating counter's SAT bit zeroes both SAT and the count; an increment in the same tick follows the clear. -/
  | satClear (addr : Nat) (incs : Nat)
  /-- ABSENT_STAKE_ACCESS (R16): An access to the window of a stake that is absent or lost reads all-ones, or the write is discarded. -/
  | absentStakeAccess (write : Bool) (addr : Nat)
  /-- RESERVED_PACKAGE_ACCESS (R36): An access to the reserved package range reads all-ones or is discarded, and posts HIF_BAD_ACCESS. -/
  | reservedPackageAccess (write : Bool) (addr : Nat)
  /-- BAR2_RESERVED_WRITE (R38): A write to BAR2 0x800–0xFFF is discarded and posts HIF_BAD_ACCESS. -/
  | bar2ReservedWrite (addr : Nat) (w : Reg32)
  /-- WALE_CELL_SLOT (R23): At each 8 ns cell slot of a direction, the sender picks a replay, class or idle cell by priority and budget. -/
  | waleCellSlot (n : Nat) (d : Dir) (link : Option LinkIn)
  /-- WALE_CELL_CRC_FAIL (R22): A received cell whose CRC fails is discarded, counted and left for the sender to replay. -/
  | waleCellCrcFail (n : Nat) (d : Dir)
  /-- WALE_RESERVED_KIND (R22): A received cell of a reserved KIND is discarded and counted in WAL_CRC_ERR. -/
  | waleReservedKind (n : Nat) (kind : Nat)
  /-- REG_READ_REQUEST_CELL (R37): A KIND 0 register read request arrives at a stake over the wale and is answered. -/
  | regReadRequestCell (n tag off : Nat)
  /-- REG_WRITE_CELL (R37): A KIND 1 register write arrives at a stake over the wale, including a retrain request to a WAL block. -/
  | regWriteCell (n : Nat) (src : Src) (off : Nat) (w : Reg32) (retrain : Option (Dir × List Nat))
  /-- REG_READ_RETURN_CELL (R37): A KIND 2 read return reaches the anchor and completes the host read. -/
  | regReadReturnCell (tag : Nat)
  /-- STREAM_PACKET_CELL (R26): KIND 5 stream data cells reach the anchor's DMA engine in answer to a packet request. -/
  | streamPacketCell (n : Nat)
  /-- FORWARDED_DESCRIPTOR_CELL (R353): A descriptor forwarded from the anchor (KIND 6) is ejected at its stake, and the descriptor reaches the stake. -/
  | forwardedDescriptorCell (n : Nat)
  /-- FALLBACK_COMMAND_RECEIVED (R302): A fallback command cell from stake 1 restarts freshness while fallback is in force, and is discarded otherwise. -/
  | fallbackCommandReceived (n : Nat) (act : Bool) (rpm16 : Int)
  /-- COMPLETION_CELL (R363): A KIND 7 completion returned to the anchor is written as a CQ entry. -/
  | completionCell (n : Nat)
  /-- FIRMWARE_BLOCK_CELL (R434): A KIND 8 firmware cell is written into the receiving stake's SRAM and counted. -/
  | firmwareBlockCell (n : Nat)
  /-- STAKE_EVENT_RECORD (R316): A KIND 9 event record from a stake reaches the anchor, or a partner, and is posted or applied. -/
  | stakeEventRecord (n : Nat) (limit : Option Nat)
  /-- HEARTBEAT_SEND (R30): Every 50 µs the ring master sends a heartbeat cell to every stake. -/
  | heartbeatSend (n : Nat)
  /-- HEARTBEAT_RECEIVED (R30): A heartbeat cell restarts the receiving stake's anchor-loss timer. -/
  | heartbeatReceived (n : Nat)
  /-- ANCHOR_LOST (R30): 200 µs without a heartbeat declares the anchor lost, and stake 1 becomes ring master. -/
  | anchorLost (n : Nat)
  /-- RING_MASTER_HEARTBEAT_LOSS (R30): A stake that misses four heartbeats of the ring master follows stake 1. -/
  | ringMasterHeartbeatLoss (n : Nat)
  /-- ANCHORS_UNREACHABLE (R31): A stake that reaches neither stake 0 nor stake 1 takes its axis to SAFE as an F3 reaction. -/
  | anchorsUnreachable (n : Nat)
  /-- STAKE_LOST (R31): A stake becomes unreachable; the ring reroutes, its descriptors complete STAKE_LOST and WAL_STAKE_LOST is posted. -/
  | stakeLost (n : Nat)
  /-- WALE_LANE_FAIL (R31): A wale lane fails; it is spliced if a spare remains, and otherwise the direction goes down. -/
  | waleLaneFail (n : Nat) (d : Dir) (lane : Nat)
  /-- WALE_CRC_BURST (R27): CRC errors reaching CRC_BURST within 100 µs call for a retrain of the direction. -/
  | waleCrcBurst (n : Nat) (d : Dir)
  /-- RETRAIN_START (R29): A retrain begins, on a pairing direction deferred to just after the update set. -/
  | retrainStart (n : Nat) (d : Dir)
  /-- RETRAIN_DONE (R27): A retrain ends within 2 µs, and the direction resumes with its queued cells. -/
  | retrainDone (n : Nat) (d : Dir)
  /-- WALE_MARGIN_MEASURE (R334): Every 1 ms each receiver measures its lane margins and splices low lanes to spares. -/
  | waleMarginMeasure (n : Nat) (d : Dir) (margins : List Nat)
  /-- TICK_ALIGNMENT_CELL (R32): A KIND 11 cell loads the tick counter once after upsett, and afterwards is compared against it. -/
  | tickAlignmentCell (n : Nat) (sent : Word48) (latency : Nat) (epoch : Word48) (valid : Bool) (fine : Nat := 0)
  /-- ALIGNMENT_CELL_SEND (R400): Every 1 ms the anchor sends each stake an alignment cell carrying the next epoch. -/
  | alignmentCellSend
  /-- ANG_TICK_WRAP (R42): ANG_TICK wraps; WRAP is set, WRAP_COUNT steps and ANG_TICK_WRAP is posted. -/
  | angTickWrap (n : Nat)
  /-- MEASUREMENT_PROCESS (R48): An angle clock processes a source measurement: it forms the error, takes the speed and direction, and slews or steps. -/
  | measurementProcess (n : Nat) (c : Nat)
  /-- ANG_EXTRAP_LIMIT (R51): A scheduled source silent for EXTRAP_MAX makes the clock INVALID and posts ANG_EXTRAP_LIMIT. -/
  | angExtrapLimit (n : Nat) (c : Nat)
  /-- ANGLE_ENTRY_DUE (R58): A qualifying look-ahead crossing of an armed ANGLE entry makes it due and spent. -/
  | angleEntryDue (n : Nat) (k : Nat)
  /-- ENTRY_REARM (R59): A spent ANGLE entry whose angle enters the re-arm band re-arms. -/
  | entryRearm (n : Nat) (k : Nat)
  /-- DIRECTION_REARM (R60): In the tick after the direction flag toggles, spent entries of the opposite sense re-arm. -/
  | directionRearm (n : Nat) (c : Nat)
  /-- TICK_ENTRY_DUE (R55): A TICK entry reaches its dispatch tick, fires once and clears its EN. -/
  | tickEntryDue (n : Nat) (k : Nat)
  /-- PERIODIC_ENTRY_DUE (R54): A PERIODIC entry reaches the dispatch tick of its next instant. -/
  | periodicEntryDue (n : Nat) (k : Nat)
  /-- BOUNDARY_ENTRY_DUE (R54): A BOUNDARY entry falls due at offset O after the period's transfer boundary. -/
  | boundaryEntryDue (n : Nat) (k : Nat)
  /-- DEFERRED_DISPATCH (R63): Entries carried over for lack of a dispatch slot are dispatched first in the next tick. -/
  | deferredDispatch (n : Nat)
  /-- ENTRY_COMMIT (R72): A write of ANG_ENT_k_CTRL commits the staged target, interval and control from the next tick and arms the entry. -/
  | entryCommit (n : Nat) (src : Src) (k : Nat) (w : Reg32)
  /-- SCHED_ENABLE (R62): Setting ANG_SCHED_CTRL.EN arms every entry and lets entries fall due. -/
  | schedEnable (n : Nat) (src : Src) (w : Reg32)
  /-- ACTION_NONE (R67): A NONE action takes effect: it is counted and sets SPENT. -/
  | actionNone (n : Nat) (k : Nat)
  /-- ACTION_CAPTURE (R77): A CAPTURE action centres sampling windows for its groups and latches the angle clocks. -/
  | actionCapture (n : Nat) (k : Nat)
  /-- ACTION_PATTERN (R190): A PATTERN action requests a slot change, replacing any pending request. -/
  | actionPattern (n : Nat) (k : Nat)
  /-- ACTION_COMPARE (R125): A COMPARE action starts a pulse on the named compare output, or extends one already active. -/
  | actionCompare (n : Nat) (k : Nat)
  /-- ACTION_PLAIT_IRQ (R67): A PLAIT_IRQ action raises an interrupt vector at the plait. -/
  | actionPlaitIrq (n : Nat) (k : Nat)
  /-- ACTION_SNAPSHOT (R67): A SNAPSHOT action offers an instant, θ, ω and direction record to a stream. -/
  | actionSnapshot (n : Nat) (k : Nat)
  /-- ACTION_ARM (R67): An ARM action sets EN and clears SPENT of the named entry from the next tick. -/
  | actionArm (n : Nat) (k : Nat)
  /-- ACTION_DISARM (R67): A DISARM action clears EN of the named entry from the next tick. -/
  | actionDisarm (n : Nat) (k : Nat)
  /-- CAPTURE_COMPLETE (R77): A group's window completes, and its sample set is handed to FLD, the plait and STR 4 ticks later. -/
  | captureComplete (n g : Nat) (waves : List Wave)
  /-- DECIMATOR_OUTPUT (R76): A main decimator delivers an output every OSR modulator clocks, feeding streams, the resolver and the DC-link ladder. -/
  | decimatorOutput (n c : Nat) (wave : Wave)
  /-- FAST_PATH_TRIP (R88): A fast comparator condition held for FAST_N clocks trips, signals the sequencer and posts SNS_FAST_TRIP. -/
  | fastPathTrip (n c : Nat) (hi : Bool) (wave : Wave)
  /-- CHANNEL_STUCK (R89): 64 modulator clocks without a transition declare the channel stuck and post SNS_STUCK. -/
  | channelStuck (n c : Nat) (wave : Wave := [])
  /-- CHANNEL_UNSTUCK (R89): The next transition clears STUCK. -/
  | channelUnstuck (n c : Nat) (wave : Wave := [])
  /-- FILTER_FILLED (R80): After 3 × OSR bits a channel's filter is filled, and FILLING clears. -/
  | filterFilled (n c : Nat)
  /-- CORR_COMMIT (R83): A write to CORR_COMMIT makes the staged gain and offset take effect together. -/
  | corrCommit (n : Nat) (src : Src) (c : Nat) (w : Reg32)
  /-- SNS_APPLY (R94): SNS_CTRL.APPLY applies the staged clocks, groups and channel settings, or refuses. -/
  | snsApply (n : Nat) (src : Src) (w : Reg32)
  /-- POS_SOURCE_ENABLE (R101): Setting a source enable bit starts the source from its reset state. -/
  | posSourceEnable (n : Nat) (src : Src) (w : Reg32) (levels : Nat)
  /-- POS_SOURCE_DISABLE (R101): Clearing a source enable bit stops the source and ends its faulted state. -/
  | posSourceDisable (n : Nat) (src : Src) (w : Reg32)
  /-- ENCODER_EDGE (R108): An accepted A or B edge is decoded: the count, qualifier, direction and speed are updated and a measurement is made. -/
  | encoderEdge (n : Nat) (a b : Bool) (held : Nat := 4000)
  /-- ENCODER_PULSE_REJECTED (R107): A pulse shorter than EDGE_MIN is rejected and counted. -/
  | encoderPulseRejected (n : Nat) (hall : Bool) (width : Nat := 1)
  /-- ENCODER_INDEX (R110): A gated Z rising edge loads or corrects the count and checks Z_TOL. -/
  | encoderIndex (n : Nat) (held : Nat := 4000)
  /-- ENC_ALIGN_LOAD (R112): A write of POS_ENC_ALIGN with LOAD loads the count and sets ALIGNED. -/
  | encAlignLoad (n : Nat) (src : Src) (w : Reg32)
  /-- HALL_TRANSITION (R114): A filtered Hall state change yields a boundary measurement, or counts a Hall fault. -/
  | hallTransition (n levels : Nat) (held : Nat := 4000)
  /-- HALL_ILLEGAL_TIMEOUT (R115): An illegal Hall state held for 100 µs faults the source with KIND 5. -/
  | hallIllegalTimeout (n : Nat)
  /-- SSP_REQUEST (R116): At each PERIOD tick a serial frame request starts, or is skipped if the previous frame is still running. -/
  | sspRequest (n : Nat)
  /-- SSP_START_TIMEOUT (R116): No start bit within START_TO bit times makes the frame bad. -/
  | sspStartTimeout (n : Nat) (wave : Wave := [])
  /-- SSP_FRAME_RECEIVED (R117): A complete serial frame is CRC-checked and yields a measurement or a bad-frame count. -/
  | sspFrameReceived (n : Nat) (wave : Wave)
  /-- STANDSTILL_TIMEOUT (R120): No accepted edge for T_STAND puts an edge-driven source in STANDSTILL with speed 0. -/
  | standstillTimeout (n src : Nat)
  /-- DECAY_MEASUREMENT (R122): Every 256 ticks without an edge, a VALID source delivers a measurement with a decayed speed. -/
  | decayMeasurement (n src : Nat)
  /-- COMPARE_PULSE_END (R125): A compare pulse ends WIDTH ticks after its leading edge. -/
  | comparePulseEnd (n o : Nat)
  /-- EMU_PASS_THROUGH_EDGE (R127): In pass-through mode an encoder input edge is copied to the EMU output within 8 ticks. -/
  | emuPassThroughEdge (n : Nat) (a b z : Bool)
  /-- EMU_STEP (R128): The emulated encoder output steps one count toward its target, at most every MIN_SP ticks. -/
  | emuStep (n : Nat)
  /-- PASS (R134): A PASS action starts a field pass that runs its stages, closes its set at +336 and writes its frame at +480. -/
  | pass (n k : Nat)
  /-- PARAM_COMMIT (R165): A write of PARAM_COMMIT range-checks and copies the staged parameters for the next pass. -/
  | paramCommit (n : Nat) (src : Src) (w : Reg32)
  /-- FLD_TABLE_SWAP (R166): A SWAP bit makes a table's inactive bank active at the next pass start. -/
  | fldTableSwap (n : Nat) (src : Src) (w : Reg32) (copyOk : Bool)
  /-- FLD_APPLY (R167): FLD_CTRL.APPLY applies the bases, MACHINE, SLIP_ADD and FLD_MAP, or is refused. -/
  | fldApply (n : Nat) (src : Src) (w : Reg32)
  /-- FALLBACK_TICK (R160): Every 1 ms stake 1 evaluates its curve and sends a fallback command to each target. -/
  | fallbackTick
  /-- FB_INPUT_TIMEOUT (R160): A CAN input not refreshed for FB_TIMEOUT is lost, and FLD_FB_INPUT_LOSS is posted. -/
  | fbInputTimeout
  /-- CATCH_LEGS_OFF_END (R162): After 2 ms with the legs off, CATCH judges the back-EMF and moves to tracking or to pulses. -/
  | catchLegsOffEnd (n : Nat)
  /-- CATCH_PLL_LOCK (R162): The back-EMF PLL locks, and the CATCH result is loaded into source 4. -/
  | catchPllLock (n : Nat)
  /-- CATCH_TIMEOUT (R162): No lock within T_CATCH fails the sequence with NO_LOCK. -/
  | catchTimeout (n : Nat)
  /-- CATCH_ZV_PULSE (R162): Every ZV_GAP a zero-vector pulse is applied, and a capture is centred at its end. -/
  | catchZvPulse (n : Nat)
  /-- TRANSFER_BOUNDARY (R180): At a boundary the modulation unit settles seizure, cut, seam and set, and publishes the next period values. -/
  | transferBoundary (n : Nat)
  /-- CARRIER_START (R464): The first valley after a set carrying PERIOD starts the carrier. -/
  | carrierStart (n : Nat)
  /-- CARRIER_STOP (R464): Writing 0 to MOD_CTRL.EN stops the carrier, discards records and turns switches off. -/
  | carrierStop (n : Nat) (src : Src) (w : Reg32)
  /-- MOD_SET_OPEN (R175): OPEN copies the set in force into the register-path bank and clears the mask. -/
  | modSetOpen (n : Nat) (src : Src) (w : Reg32)
  /-- MOD_SET_CLOSE (R175): CLOSE hands the bank over as one set, or discards it if it mixes forms. -/
  | modSetClose (n : Nat) (src : Src) (w : Reg32)
  /-- MOD_SET_ABORT (R175): ABORT discards the register-path bank. -/
  | modSetAbort (n : Nat) (src : Src) (w : Reg32)
  /-- PATTERN_RECOMPUTE (R187): Every 400 ticks the pattern engine recomputes and commits edges and the tracker shifts them. -/
  | patternRecompute (n : Nat)
  /-- MODE_SEAM (R191): A seam found for a pending slot request changes the mode at that instant. -/
  | modeSeam (n : Nat)
  /-- SEAM_SEARCH_FAIL (R191): No seam within one revolution drops the request and posts MOD_SEAM_FAIL. -/
  | seamSearchFail (n : Nat)
  /-- MOD_PAT_SWAP (R194): MOD_PAT_CTRL.SWAP makes the inactive pattern bank active at the next carrier boundary. -/
  | modPatSwap (n : Nat) (src : Src) (w : Reg32)
  /-- EDGE_SYMBOL_SEND (R233): A record reaches its instant, and LEG drives the symbol pulse on both edge lanes. -/
  | edgeSymbolSend (n p : Nat)
  /-- DELAY_LINE_CALIBRATE (R196): Every 1 ms the replica line is measured and the cell map updated, or MOD_DL_FAULT is posted. -/
  | delayLineCalibrate (n nc : Nat)
  /-- AUX_PULSE_START (R201): In CONST_ON the AUX switch turns on when requested and off for at least T_OFF. -/
  | auxPulseStart (n : Nat)
  /-- AUX_PULSE_END (R201): The AUX switch turns off T_ON after its turn-on. -/
  | auxPulseEnd (n : Nat)
  /-- CUT_END (R204): At E_cut a period cut ends, and the port may resume under the MIN_PULSE rule. -/
  | cutEnd (n p : Nat)
  /-- CUT_CLEAR (R204): A write to MOD_CUT_CLR ends a latched cut on the port. -/
  | cutClear (n : Nat) (src : Src) (w : Reg32)
  /-- TRIGGER_FIRE (R205): A converter-trigger unit fires its action at its carrier point plus OFFSET. -/
  | triggerFire (n u : Nat)
  /-- EPOCH_TIMEOUT (R206): 3 ms without an epoch puts the carrier in HOLDOVER. -/
  | epochTimeout (n : Nat)
  /-- MOD_APPLY (R207): MOD_CTRL.APPLY applies the staged MOD settings, or is refused. -/
  | modApply (n : Nat) (src : Src) (w : Reg32)
  /-- PAIR_SAMPLE_FRAME (R217): The leader receives a follower sample frame and matches it by centre tick. -/
  | pairSampleFrame (n : Nat) (ws : List Nat)
  /-- PAIR_UPDATE_SET (R220): The follower receives the leader's three set cells and takes the set at its target boundary. -/
  | pairUpdateSet (n : Nat) (c0 c1 c2 : List Nat)
  /-- PAIR_CLOCK_MEASUREMENT (R218): A lone cell 0 gives the follower a source-5 clock measurement. -/
  | pairClockMeasurement (n : Nat) (c0 : List Nat)
  /-- PAIR_CLOCK_CELL_SEND (R218): Every 4,000 ticks the leader sends cell 0 alone as a clock measurement. -/
  | pairClockCellSend (n : Nat)
  /-- PAIR_START (R227): START on the leader checks the pairing conditions and enters STARTING, or refuses. -/
  | pairStart (n : Nat) (src : Src) (w : Reg32)
  /-- PAIR_STOP (R226): STOP on the leader with both axes in OFF or SAFE makes both stakes UNPAIRED. -/
  | pairStop (n : Nat) (src : Src) (w : Reg32)
  /-- PAIR_BREAK_RECORD (R223): A partner's break record makes this stake take its own break outcome. -/
  | pairBreakRecord (n cause : Nat)
  /-- PAIR_CONFIRM_RECORD (R225): A yielding stake's confirmation lets a PARALLEL survivor resume in HALF. -/
  | pairConfirmRecord (n : Nat)
  /-- PAIR_CONFIRM_TIMEOUT (R225): No confirmation within T_CONFIRM takes the survivor to SAFE. -/
  | pairConfirmTimeout (n : Nat)
  /-- KEEP_ALIVE_SEND (R234): After 800 ticks without a pulse and none pending, a keep-alive pulse is sent. -/
  | keepAliveSend (n p : Nat)
  /-- WORD_LANE_FRAME_SEND (R244): When word lane out is free, the next pending frame is sent by priority, or a HEARTBEAT. -/
  | wordLaneFrameSend (n p : Nat)
  /-- LEG_HELLO (R246): A HELLO records L and BOOT and starts configuration, or makes a READY port LOST. -/
  | legHello (n p : Nat) (f : Reg32)
  /-- LEG_DEFERRED_HELLO (R246): A waiting HELLO restarts configuration once the axis is in OFF or SAFE. -/
  | legDeferredHello (n p : Nat)
  /-- LEG_STATUS (R263): A STATUS frame updates port status and is checked for gate mismatch and lane change. -/
  | legStatus (n p : Nat) (f : Reg32)
  /-- LEG_EVENT (R199): An EVENT frame matches a sent symbol, updates the wait filter and counts DEF or REJ. -/
  | legEvent (n p : Nat) (f : Reg32)
  /-- LEG_FAULT (R261): A FAULT frame is dated and acted on: desaturation, undervoltage or over-temperature. -/
  | legFault (n p : Nat) (f : Reg32)
  /-- LEG_TELEMETRY (R242): A telemetry item updates supplies, temperatures or margins, possibly splicing the lane. -/
  | legTelemetry (n p : Nat) (f : Reg32)
  /-- LEG_SUM (R247): A SUM frame is compared with the device's sum, leading to ARM, a retry or FAILED. -/
  | legSum (n p : Nat) (f : Reg32)
  /-- LEG_TEST_RESULT (R268): A TEST_RESULT advances or fails the self-test. -/
  | legTestResult (n p : Nat) (f : Reg32)
  /-- LEG_BAD_FRAME (R240): A word-lane frame with a bad CRC, a code error or a reserved TYPE is discarded and counted. -/
  | legBadFrame (n p : Nat)
  /-- WORD_LANE_TIMEOUT (R245): 20 µs without a good frame makes the link LOST. -/
  | wordLaneTimeout (n p : Nat)
  /-- LEG_HELLO_TIMEOUT (R246): No HELLO within T_LINK fails the port with CAUSE 1. -/
  | legHelloTimeout (n p : Nat)
  /-- EVENT_MISS (R263): No EVENT within 4 µs of a symbol counts a miss; three in a row make the link LOST. -/
  | eventMiss (n p : Nat)
  /-- LEG_ENABLE (R246): Setting LEG_CTRL.EN starts every present port. -/
  | legEnable (n : Nat) (src : Src) (w : Reg32)
  /-- LEG_DISABLE (R246): Clearing LEG_CTRL.EN in OFF or SAFE stops every port. -/
  | legDisable (n : Nat) (src : Src) (w : Reg32)
  /-- LEG_RESTART (R246): RESTART restarts the port's link, or is refused. -/
  | legRestart (n : Nat) (src : Src) (p : Nat) (w : Reg32)
  /-- LEG_CLEAR (R262): CLEAR sends a CLEAR frame to the leg head in OFF or SAFE, or is refused. -/
  | legClear (n : Nat) (src : Src) (p : Nat) (w : Reg32)
  /-- LEG_SELFTEST (R268): SELFTEST starts the seven-step self-test of a READY port in TEST. -/
  | legSelftest (n : Nat) (src : Src) (p : Nat) (w : Reg32)
  /-- SELFTEST_STEP_TIMEOUT (R268): 20 µs after a step's last frame or symbol the step is judged, and the test advances or fails. -/
  | selftestStepTimeout (n p : Nat)
  /-- LEG_SUM_REQUEST (R253): The SUM command sends SUM_REQ to the leg head. -/
  | legSumRequest (n : Nat) (src : Src) (p : Nat) (w : Reg32)
  /-- LEG_SPLICE (R269): SPLICE moves the port to its spare edge lane. -/
  | legSplice (n : Nat) (src : Src) (p : Nat) (w : Reg32)
  /-- LEG_PROFILE_WRITE (R253): A profile table write is sent to a READY leg head with SUM_REQ, or is refused. -/
  | legProfileWrite (n : Nat) (src : Src) (p q st : Nat) (w : Reg32)
  /-- LEG_APPLY (R271): LEG_CTRL.APPLY applies the staged port settings and sends MODE and DEFAULTS, or is refused. -/
  | legApply (n : Nat) (src : Src) (w : Reg32)
  /-- REFRESH_DUE (R265): A bootstrap refresh falls due, and one is inserted at the next suitable valley. -/
  | refreshDue (n p : Nat)
  /-- REFRESH_LATEST_START (R265): With no refresh by t_L, the four refresh symbols are inserted from t_L. -/
  | refreshLatestStart (n p : Nat)
  /-- SEQUENCER_TRIP (R278): A trip signal reaches the protection sequencer, which seizes the ports in the resolved safe state. -/
  | sequencerTrip (n : Nat)
  /-- ASC_DELAY_EXPIRE (R280): ASC_DELAY after the last off symbol, the ASC turn-on symbols are sent. -/
  | ascDelayExpire (n : Nat)
  /-- SAFE_STATE_REQUEST (R282): The plait's F3 request with its chosen sub-state reaches the sequencer and is applied. -/
  | safeStateRequest (n : Nat)
  /-- BAND_LATCH_REFRESH (R283): With no pass start for 100 µs, the plait writes the speed-band latch. -/
  | bandLatchRefresh (n : Nat)
  /-- LATCH_STALE (R283): LATCH_MAX without a latch write makes the latch stale and posts PS_LATCH_STALE. -/
  | latchStale (n : Nat)
  /-- PLAIT_SILENT (R283): 4 × LATCH_MAX unwritten in an active state seizes with cause 9. -/
  | plaitSilent (n : Nat)
  /-- WINDOW_CLOSE (R296): The 1 µs coincidence window closes and the remaining phase ports are turned off in order. -/
  | windowClose (n : Nat) (bits : List (List Bool))
  /-- SC_DECIDE (R297): T_SC_DECIDE after window close, the resolver runs with the SHORT flags. -/
  | scDecide (n : Nat)
  /-- AXIS_ARM (R288): ARM moves OFF to ARMED, or is refused. -/
  | axisArm (n r c : Nat)
  /-- AXIS_DISARM (R288): DISARM moves ARMED to OFF. -/
  | axisDisarm (n r c : Nat)
  /-- AXIS_RUN (R288): RUN enters RUN with a VALID clock, or CATCH, or is refused. -/
  | axisRun (n r c : Nat)
  /-- AXIS_STOP (R288): STOP ramps torque to zero toward ARMED, ends TEST or CATCH, or ends a commanded discharge while
  `DISCH_REQ`, whose level is `ball`, is not asserted. -/
  | axisStop (n r c : Nat) (ball : Bool := false)
  /-- AXIS_TEST (R288): TEST moves OFF to TEST in fixed-dead-time mode. -/
  | axisTest (n r c : Nat)
  /-- AXIS_CATCH (R162): CATCH starts the catch sequence with the legs off. -/
  | axisCatch (n r c : Nat)
  /-- AXIS_DISCHARGE (R304): DISCHARGE starts an active discharge in resistor or injection mode, or is refused. -/
  | axisDischarge (n r c : Nat)
  /-- AXIS_CLEAR (R307): CLEAR removes faults whose cause has ended and may move the axis from SAFE to OFF. `faultin` is the level of the
  stake's `FAULTIN` ball. -/
  | axisClear (n r c : Nat) (faultin : Bool := false)
  /-- AXIS_RECOVER (R308): RECOVER clears and returns the axis from SAFE to RUN, or is refused. -/
  | axisRecover (n r c : Nat) (faultin : Bool := false)
  /-- STOP_COMPLETE (R288): With STOP pending, |T*| = 0 and the band LOW, the axis enters ARMED. -/
  | stopComplete (n : Nat)
  /-- CHOPPER_CHECK_TIMEOUT (R292): The chopper check not passed by T_CHK posts CHOPPER_FAULT and masks AUX. -/
  | chopperCheckTimeout (n : Nat)
  /-- TMON_WINDOW_TIMEOUT (R300): A torque window not updated for T_WIN posts TMON_WIN_STALE. -/
  | tmonWindowTimeout (n : Nat)
  /-- HOST_FRESH_TIMEOUT (R301): T_FRESH without a DRIVE descriptor posts HOST_STALE and ramps torque. -/
  | hostFreshTimeout (n : Nat)
  /-- HOST_LOSS_TIMEOUT (R301): T_LOSS without a command puts fallback in force or takes the axis to SAFE. -/
  | hostLossTimeout (n : Nat)
  /-- DISCH_REQ_ASSERT (R303): DISCH_REQ has been asserted for `held` ticks; held for 10 µs, 4,000 ticks, with REQ_EN it starts a discharge on every stake. -/
  | dischReqAssert (held : Nat := 4000)
  /-- DISCHARGE_TIME_LIMIT (R305): A discharge not complete within T_DIS_MAX posts DISCHARGE_INCOMPLETE. -/
  | dischargeTimeLimit (n : Nat)
  /-- FAULTIN_ASSERT (R279): Sn_FAULTIN has been asserted for `held` ticks; asserted for FI_FILT RC cycles of 25 ns it raises an F3 or F4 fault. -/
  | faultinAssert (n : Nat) (held : Nat := 2550)
  /-- PLT_APPLY (R310): PLT_PR_CTRL.APPLY applies the staged protection settings, or refuses with a cause. -/
  | pltApply (n : Nat) (src : Src) (w : Reg32)
  /-- VOTER_DISSENT (R314): Core outputs differ in a cycle, and the voter fences a core or declares a stake fault. The operands are the
  outputs of cores A, B and C in that cycle. -/
  | voterDissent (n : Nat) (a b : CoreOut) (c : CoreOut := a)
  /-- PLAIT_READ_UE (R335): A plait read of an uncorrectable SRAM line is a stake fault. -/
  | plaitReadUe (n : Nat)
  /-- RESYNC_START (R317): At a quiet point a fenced core is resynchronised from the source core. -/
  | resyncStart (n : Nat)
  /-- RESYNC_DONE (R318): The digest comparison passes or fails the resync. The operands are the register-file digests of cores A, B and C. -/
  | resyncDone (n a : Nat) (b : Nat := a) (c : Nat := a)
  /-- PLAIT_TO_SPLIT (R321): TO_SPLIT requests a hand-over to split mode, or is refused. -/
  | plaitToSplit (n : Nat) (src : Src) (w : Reg32)
  /-- PLAIT_TO_VOTED (R321): TO_VOTED requests a hand-over to voted mode, or is refused. -/
  | plaitToVoted (n : Nat) (src : Src) (w : Reg32)
  /-- HANDOVER_DONE (R322): A mode hand-over ends and posts PLT_MODE_CHANGE. The operands are the register-file digests of cores A, B and C. -/
  | handoverDone (n a : Nat) (b : Nat := a) (c : Nat := a)
  /-- SCRUB_LINE (R335): The scrubber reads and corrects a line, or posts SPL_SRAM_UE. -/
  | scrubLine (n addr result : Nat) (last : Bool)
  /-- WEAR_MEASURE (R336): Every 10 ms the ageing monitors are measured. -/
  | wearMeasure (n : Nat) (ppm : List Nat)
  /-- CONFIG_LOAD (R326): At start the package manager judges the three copies and applies a configuration or CFG_SPLIT. -/
  | configLoad (splitMask : Nat) (writes : List (Nat × Reg32))
  /-- CONFIG_REWRITE (R328): After READY, with VSUP above inhibit, minority copies are rewritten one by one. -/
  | configRewrite
  /-- CFG_WRITE_DONE (R327): The three copies are read back VALID and the CFG_WRITE completes. -/
  | cfgWriteDone (splitMask : Nat) (writes : List (Nat × Reg32))
  /-- DOORBELL_SQ_TAIL (R345): A write of an SQ tail doorbell makes descriptors available. -/
  | doorbellSqTail (r : Nat) (w : Reg32)
  /-- DOORBELL_CQ_HEAD (R345): A write of a CQ head doorbell releases completion entries. -/
  | doorbellCqHead (r : Nat) (w : Reg32)
  /-- DESCRIPTOR_FETCH (R347): With a descriptor available and a free CQ entry, the DMA engine issues its fetch read. -/
  | descriptorFetch
  /-- DESCRIPTOR_ARRIVAL (R350): Fetched descriptor data arrives and is checked before it is acted on. -/
  | descriptorArrival (r : Nat) (bytes : List Nat)
  /-- RING_FETCH_ERROR (R348): A fetch read error puts the pair in ERROR and posts HIF_RING_ERROR. -/
  | ringFetchError (r status : Nat)
  /-- HOST_DATA_ERROR (R348): A data read or write error completes its descriptor HOST_FAULT. -/
  | hostDataError (r cid : Nat)
  /-- SETPOINT (R353): A SETPOINT reaches its stake and waits for the next pass start, or is refused. -/
  | setpoint (r : Nat)
  /-- SET (R355): A SET opens, writes and closes the register-path bank in one step. -/
  | setDescriptor (r : Nat)
  /-- REG_WRITE (R356): A REG_WRITE checks and queues 1 to 6 register writes. -/
  | regWrite (r : Nat)
  /-- TABLE_WRITE (R357): A TABLE_WRITE copies host data into a table's inactive bank, with an optional post-write. -/
  | tableWrite (r : Nat) (data : List Nat)
  /-- TUNE_APPLY (R358): A waiting TUNE descriptor takes effect in a free field-engine slot and completes OK or DELAYED. -/
  | tuneApply (n : Nat)
  /-- STREAM_BUF (R359): A STREAM_BUF posts a host buffer to its stream. -/
  | streamBuf (r : Nat)
  /-- STREAM_BUF_TIMEOUT (R359): TIMEOUT after a buffer's first packet, the buffer closes. -/
  | streamBufTimeout (r : Nat)
  /-- CFG_WRITE (R327): A CFG_WRITE starts writing a new configuration generation into the three copies. -/
  | cfgWrite (r : Nat) (data : List Nat) (progress : Nat := 0)
  /-- FW_STAGE (R432): FW_STAGE erases, programs and reads back part of a flash slot. -/
  | fwStage (r : Nat) (data : List Nat)
  /-- FW_COMMIT (R433): FW_COMMIT verifies a slot and writes the boot record to prefer it. -/
  | fwCommit (r : Nat)
  /-- RING_CREATE (R362): RING_CREATE binds and enables a ring pair. -/
  | ringCreate (r : Nat)
  /-- RING_DELETE (R362): RING_DELETE stops fetching, aborts unstarted work and closes buffers. -/
  | ringDelete (r : Nat)
  /-- GET_FAULTS (R362): GET_FAULTS copies the active-fault snapshots to host memory. -/
  | getFaults (r : Nat)
  /-- GET_SNAPSHOT (R362): GET_SNAPSHOT copies one snapshot, or reports SNAPSHOT_GONE. -/
  | getSnapshot (r : Nat)
  /-- PLAIT_MODE (R321): The admin PLAIT_MODE command requests a plait mode change for a stake. -/
  | plaitMode (r : Nat)
  /-- ATTEST (R439): ATTEST queues a signed attestation report for the seal unit. -/
  | attest (r : Nat)
  /-- RESERVED_OPCODE (R351): A reserved opcode completes INVALID_OPCODE at once. -/
  | reservedOpcode (r : Nat)
  /-- MSIX_MODERATION_TIMEOUT (R368): T µs after the first unsignalled entry, an MSI-X vector fires. -/
  | msixModerationTimeout (v : Nat)
  /-- EVENT_QUEUE_DRAIN (R370): When the admin CQ has room, queued events and a lost-events entry are written. -/
  | eventQueueDrain
  /-- STREAM_ITEM (R371): A source offers an item to the packer, which stores it or drops it whole. -/
  | streamItem (n : Nat)
  /-- PKT_TIMEOUT (R372): PKT_TIMEOUT after a packet's first item, the packet closes. -/
  | pktTimeout (n i : Nat)
  /-- STREAM_FLUSH (R374): FLUSH discards stored words other than a packet in transfer. -/
  | streamFlush (n : Nat) (src : Src) (i : Nat) (w : Reg32)
  /-- STR_APPLY (R376): STR_CTRL.APPLY applies the stream settings, or refuses on the FIFO sum. -/
  | strApply (n : Nat) (src : Src) (w : Reg32)
  /-- STREAM_PACKET_REQUEST (R373): The DMA engine requests a whole packet when a posted buffer has room. -/
  | streamPacketRequest (r : Nat)
  /-- HIF_LINK_RESET (R341): Link down, hot reset or D3hot resets the host interface only and posts HIF_LINK_RESET. -/
  | hifLinkReset (d3 : Bool := false)
  /-- ADMIN_ENABLE (R344): Setting HIF_ADMIN_CFG.EN starts the admin pair afresh. -/
  | adminEnable (src : Src) (w : Reg32)
  /-- ADMIN_DISABLE (R344): Clearing HIF_ADMIN_CFG.EN removes the admin pair at once. -/
  | adminDisable (src : Src) (w : Reg32)
  /-- SETUP_LOCK (R377): Writing LOCK locks the set-up registers of every block until reset. -/
  | setupLock (src : Src) (w : Reg32)
  /-- CAN_FRAME_RECEIVED (R383): A received CAN frame is stored in an HP or general buffer, or is dropped. -/
  | canFrameReceived (c : Nat) (f : CanFrame)
  /-- CAN_CTRL_READ_LATCH (R384): A read of a buffer's CTRL latches the buffer into a read shadow. -/
  | canCtrlReadLatch (c i : Nat)
  /-- CAN_RELEASE (R384): RELEASE with a matching REL_SEQ empties the buffer. -/
  | canRelease (src : Src) (c i : Nat) (w : Reg32)
  /-- CAN_TX_REQUEST (R386): Setting TX_REQ queues a transmit buffer for arbitration. -/
  | canTxRequest (src : Src) (c i : Nat) (w : Reg32)
  /-- CAN_CANCEL (R386): CANCEL withdraws a transmission not yet begun. -/
  | canCancel (src : Src) (c i : Nat) (w : Reg32) (begun : Bool)
  /-- CAN_TX_DONE (R386): A successful transmission clears TX_REQ, sets TX_DONE and records its stamp. -/
  | canTxDone (c b ago : Nat)
  /-- CAN_TX_ERROR (R386): A frame that loses arbitration or meets an error is retried, and the error counters move. -/
  | canTxError (c b ago : Nat) (arbitration : Bool) (kind : Nat)
  /-- CAN_BUS_OFF_RECOVERY (R393): After 128 × 11 recessive bits, a bus-off controller rejoins. -/
  | canBusOffRecovery (c : Nat)
  /-- CAN_US_WRAP (R387): CAN_US wraps and sets WRAP. -/
  | canUsWrap
  /-- CAN_REF_SEND (R389): Every CYCLE_US a time master sends the reference frame. -/
  | canRefSend (c : Nat)
  /-- CAN_TT_REF_TIMEOUT (R389): A missing reference frame suspends the schedule and posts CAN_TT_LOSS. -/
  | canTtRefTimeout (c : Nat)
  /-- CAN_TT_COLUMN_START (R390): A schedule column starts and applies its EXCLUSIVE, FREE or SILENT rule. -/
  | canTtColumnStart (c col : Nat)
  /-- CAN_STATUS_FRAME_SEND (R392): Stake 1 sends a status frame every STAT_PERIOD, or within 1 ms of a change. -/
  | canStatusFrameSend
  /-- ETH_FRAME_RECEIVED (R395): A gPTP frame is stamped and handled, or another frame is dropped. -/
  | ethFrameReceived (f : EthFrame)
  /-- PDELAY_REQ_SEND (R395): A Pdelay_Req is sent at each interval. -/
  | pdelayReqSend
  /-- PHY_LINK_POLL (R395): Every 10 ms the PHY link status is read over MDIO. -/
  | phyLinkPoll (up : Bool)
  /-- MAP_COMMIT (R398): A new network-time map takes effect at its TICK_BASE, possibly as a step. -/
  | mapCommit (tick nt ms : Word48) (rate : Int)
  /-- ETH_SYNC_TIMEOUT (R399): syncReceiptTimeout in LOCKED enters HOLDOVER. -/
  | ethSyncTimeout
  /-- HOLDOVER_TIMEOUT (R399): HOLDOVER longer than HOLD_MAX enters NONE and posts ETH_TIME_LOST. -/
  | holdoverTimeout
  /-- SUP_OVERVOLT (R403): VSUP above 3.70 V for 10 µs posts SUP_OVERVOLT. -/
  | supOvervolt (n mv : Nat)
  /-- SUP_INHIBIT_ENTER (R405): VSUP falling below 3.05 V inhibits new eNVM operations. -/
  | supInhibitEnter (n mv progress : Nat)
  /-- SUP_INHIBIT_EXIT (R405): VSUP rising above 3.10 V ends the inhibit and releases waiting rewrites and advances. -/
  | supInhibitExit (n mv : Nat)
  /-- BROWN_OUT (R406): A brown-out resets every stake at once. -/
  | brownOut (n mv progress : Nat)
  /-- RAIL_FAULT (R404): VCORE or VAUX outside its window for 10 µs resets the package. -/
  | railFault (n vaux vcore progress : Nat)
  /-- SUP_VANA (R404): VANA outside its window for 10 µs posts SUP_VANA (F3). -/
  | supVana (n vana : Nat)
  /-- CORE_CLOCK_LOST (R410): A monitor window count out of range seizes with cause 7 and stops the stake. -/
  | coreClockLost (n count : Nat)
  /-- CLK_REF_LOSS (R411): A lost reference holds the PLL and takes the axis to SAFE. -/
  | clkRefLoss (n : Nat) (count : Nat := 0) (lock : Bool := false)
  /-- CLK_MCLK_FAULT (R412): Two missing readback edges mark a modulator clock output faulty. -/
  | clkMclkFault (n m : Nat)
  /-- MCLK_FAULT_END (R412): The first readback edge ends the fault, and fill restarts. -/
  | mclkFaultEnd (n m : Nat)
  /-- THM_SAMPLE (R416): An enabled sensor is sampled and its threshold levels evaluated. -/
  | thmSample (n k : Nat) (raw : ThmRaw)
  /-- THM_GRACE_EXPIRE (R418): The grace timer ends, the thermal current limit is enforced and THM_LIMIT is posted. -/
  | thmGraceExpire (n k : Nat)
  /-- THM_DIE_175 (R420): The 175 °C comparator trips and seizes SAFE_OFF with cause 8. -/
  | thmDie175 (n : Nat)
  /-- DIE175_RELEASE (R420): The comparator releases at 165 °C. -/
  | die175Release (n : Nat)
  /-- POWER_ON (R423): VSUP rising past 2.90 V starts the package. -/
  | powerOn (n mv : Nat)
  /-- PERST_ASSERT (R423): PERST# low for 1 µs or more holds the whole package in reset. -/
  | perstAssert (low : Nat) (progress : Nat := 0)
  /-- SEC_RESET (R423): A keyed SEC_RESET write resets the package 10 µs later, or is refused. -/
  | secReset (src : Src) (w : Reg32)
  /-- RESET_RELEASE (R424): At release the straps and TESTEN are sampled and the upsett phase starts. -/
  | resetRelease (testen : Bool) (straps : Nat) (locks : List Nat := [])
  /-- UPSETT_COMPLETE (R330): The upsett phase ends with the splice map built and the ALIVE bits set. -/
  | upsettComplete (results : List UpsettRes)
  /-- SLOT_VERIFY_DONE (R430): A firmware slot's verification ends with pass or a cause, leading to fallback, distribution or RECOVERY. -/
  | slotVerifyDone (answers : Bool)
  /-- DISTRIBUTION_TIMEOUT (R434): A stake with no completion 10 ms after its last cell is treated as lost. -/
  | distributionTimeout (n : Nat)
  /-- SEC_ENROLL (R437): A keyed SEC_ENROLL write enrols the customer key in OTP, or is refused. -/
  | secEnroll (src : Src) (w : Reg32)
  /-- SEAL_OPERATION_DONE (R440): The seal unit finishes one operation and takes the next from its queue. -/
  | sealOperationDone (answers : Bool := true)
  /-- UNLOCK_SUBMIT (R442): SUBMIT checks a test unlock, rejecting it or starting the eNVM erase. -/
  | unlockSubmit (src : Src) (w : Reg32)
  /-- UNLOCK_ERASE_DONE (R442): The eNVM erase ends and the private test modes are entered. -/
  | unlockEraseDone
  /-- PCIE_LINK_UP (R342): The PCI Express link finishes training, configuration space starts to answer, and HIF_STATUS.LINK_UP, SPEED and WIDTH are set. -/
  | pcieLinkUp (speed width : Nat) (cfg : PcieCfg := PcieCfg.enumerated)
  /-- CAN_RX_ERROR (R393): A frame being received meets a bus error, so the receive error count rises and the controller may enter error-passive. -/
  | canRxError (c kind : Nat)
  /-- CAN_CONTROLLER_ENABLE (R393): Setting or clearing CANn_CTRL.EN joins the controller to the bus or removes it, releases it from a bus-off held without AUTO_RECOVER, and opens or closes its configuration to writes. -/
  | canControllerEnable (src : Src) (c : Nat) (w : Reg32)
  /-- FW_STAGE_DONE (R432): The erase, page programming and read-back of a FW_STAGE end, and the descriptor completes OK or HOST_FAULT, which frees the xSPI target for other BULK work. -/
  | fwStageDone (ok : Bool)
  /-- CONFIG_REWRITE_DONE (R328): The last minority copy has been rewritten and read back, and NVM_CFG_STATUS.REWRITE_PENDING clears. -/
  | configRewriteDone
  /-- SUP_OVERVOLT_END (R403): VSUP returns below the overvoltage warning level, and SUP_STATUS.OV clears. -/
  | supOvervoltEnd (n mv : Nat)
  /-- REFERENCE_RETURN (R411): The 25 MHz reference counts within 85 to 115 again, and CLK_STATUS.REF_OK is set, although the held PLL does not re-lock. -/
  | referenceReturn (n : Nat) (count : Nat := 100)
  /-- CAN_TT_EXCLUSIVE_MISS (R390): An exclusive frame that has not started within TX_EN_US of its column start counts in CANn_TT_MISS_CNT and sets TX_FAIL. -/
  | canTtExclusiveMiss (c : Nat)
deriving DecidableEq, Repr

end Sys2Proof
end

