-- ==== Sys2Proof/Decode.lean ====
section
/-! DEFINITION. The commands that a word spells by the bits of opcode_table.json. The block has no instruction decoder: its commands
come over BAR0, BAR2, the wale, the networks and its pins, and the table gives none of its rows bits. -/
namespace Sys2Proof

/-- The command that a word spells: none, since no row of the table has bits. -/
def decodeTableWord (_nbits _w : Nat) : Option Instr := none

end Sys2Proof
end

