-- ==== Sys2Proof/Machine/Events.lean ====
section
/-! DEFINITION. The events of the device, one name per row of the event tables R369 points to, and the code each carries. -/
namespace Sys2Proof.Machine

/-- Every event the tables of R73, R96, R129, R169, R209, R230, R273, R312, R338, R369, R379, R402, R422 and R444 name. -/
inductive Ev where
  | walSplice
  | walLinkDown
  | walStakeLost
  | canLost
  | walTickSkew
  | angTickWrap
  | angTargetPast
  | angBurstOverrun
  | angJump
  | angExtrapLimit
  | snsFastTrip
  | snsStuck
  | snsSetAFault
  | snsSetBFault
  | snsAbMismatch
  | snsUdcMismatch
  | snsCaptureOverrun
  | snsCfgRefused
  | posResFault
  | posEncFault
  | posHallFault
  | posSspFault
  | posIndexErr
  | posDirChange
  | posCfgRefused
  | fldPassOverrun
  | fldPassLoss
  | fldSampleLoss
  | fldUdcLoss
  | motorMismatch
  | catchDone
  | catchFailed
  | fldFbInputLoss
  | fldCfgRefused
  | dutyClamp
  | updateSkew
  | modSeamFail
  | modSyncAbort
  | modDlFault
  | modCut
  | modEpochLock
  | modEpochUnlock
  | modCfgRefused
  | pairUp
  | pairStartRefused
  | pairBreak
  | pairConfirmTimeout
  | legLinkUp
  | legLinkFail
  | legCfgMismatch
  | legLinkLoss
  | legDesat
  | legSupplyUv
  | bootUv
  | legBootFault
  | refreshInserted
  | legIlTimeout
  | legHeadOt
  | legGateMismatch
  | legSeqReject
  | legWlLost
  | legLaneSplice
  | legLaneLow
  | legSelftest
  | legCfgRefused
  | psSafeState
  | psLatchStale
  | psPlaitSilent
  | faultinAssert
  | bridgeShort
  | udcChopOn
  | chopperFault
  | regenClamp
  | udcAscTrip
  | udcAbsTrip
  | torqueMon
  | tmonUnavail
  | tmonWinStale
  | tmonTable
  | hostStale
  | hostLoss
  | dischargeDone
  | dischargeIncomplete
  | axisState
  | pltCfgRefused
  | pltCoreFenced
  | pltResync
  | pltCoreLeftOut
  | pltStakeFault
  | pltModeChange
  | pltModeRefused
  | cfgMinority
  | cfgDegraded
  | cfgSplit
  | walMarginLow
  | splSramUe
  | hifBadAccess
  | hifRange
  | hifBadDoorbell
  | hifRingError
  | hifLinkReset
  | hifLockedWrite
  | strCfgRefused
  | canCfgRefused
  | canRxOverrun
  | canErrPassive
  | canBusOff
  | canTtLoss
  | ethTimeLock
  | ethTimeUnlock
  | ethTimeHoldover
  | ethTimeLost
  | ethTimeStep
  | supInhibit
  | supOvervolt
  | supVana
  | clkLost
  | clkRefLoss
  | clkMclkFault
  | thmSensorBroken
  | thmWarn
  | thermalRequest
  | thmLimit
  | thmRelease
  | thmShutdown
  | thmDie175
  | secSlotFallback
  | secBootFail
  | secDistFail
  | secRollbackAdvance
  | secRollbackDefer
  | secEnrolled
  | secCfgRefused
deriving DecidableEq, Repr

/-- The event code of R369: block in bits 15:8, row of the block's table, counted from 1, in bits 7:0. -/
def Ev.code : Ev → Nat
  | .walSplice => 0x0A01
  | .walLinkDown => 0x0A02
  | .walStakeLost => 0x0A03
  | .canLost => 0x0A04
  | .walTickSkew => 0x0A05
  | .angTickWrap => 0x0301
  | .angTargetPast => 0x0302
  | .angBurstOverrun => 0x0303
  | .angJump => 0x0304
  | .angExtrapLimit => 0x0305
  | .snsFastTrip => 0x0101
  | .snsStuck => 0x0102
  | .snsSetAFault => 0x0103
  | .snsSetBFault => 0x0104
  | .snsAbMismatch => 0x0105
  | .snsUdcMismatch => 0x0106
  | .snsCaptureOverrun => 0x0107
  | .snsCfgRefused => 0x0108
  | .posResFault => 0x0201
  | .posEncFault => 0x0202
  | .posHallFault => 0x0203
  | .posSspFault => 0x0204
  | .posIndexErr => 0x0205
  | .posDirChange => 0x0206
  | .posCfgRefused => 0x0207
  | .fldPassOverrun => 0x0401
  | .fldPassLoss => 0x0402
  | .fldSampleLoss => 0x0403
  | .fldUdcLoss => 0x0404
  | .motorMismatch => 0x0405
  | .catchDone => 0x0406
  | .catchFailed => 0x0407
  | .fldFbInputLoss => 0x0408
  | .fldCfgRefused => 0x0409
  | .dutyClamp => 0x0601
  | .updateSkew => 0x0602
  | .modSeamFail => 0x0603
  | .modSyncAbort => 0x0604
  | .modDlFault => 0x0605
  | .modCut => 0x0606
  | .modEpochLock => 0x0607
  | .modEpochUnlock => 0x0608
  | .modCfgRefused => 0x0609
  | .pairUp => 0x0501
  | .pairStartRefused => 0x0502
  | .pairBreak => 0x0503
  | .pairConfirmTimeout => 0x0504
  | .legLinkUp => 0x0701
  | .legLinkFail => 0x0702
  | .legCfgMismatch => 0x0703
  | .legLinkLoss => 0x0704
  | .legDesat => 0x0705
  | .legSupplyUv => 0x0706
  | .bootUv => 0x0707
  | .legBootFault => 0x0708
  | .refreshInserted => 0x0709
  | .legIlTimeout => 0x070A
  | .legHeadOt => 0x070B
  | .legGateMismatch => 0x070C
  | .legSeqReject => 0x070D
  | .legWlLost => 0x070E
  | .legLaneSplice => 0x070F
  | .legLaneLow => 0x0710
  | .legSelftest => 0x0711
  | .legCfgRefused => 0x0712
  | .psSafeState => 0x0801
  | .psLatchStale => 0x0802
  | .psPlaitSilent => 0x0803
  | .faultinAssert => 0x0804
  | .bridgeShort => 0x0805
  | .udcChopOn => 0x0806
  | .chopperFault => 0x0807
  | .regenClamp => 0x0808
  | .udcAscTrip => 0x0809
  | .udcAbsTrip => 0x080A
  | .torqueMon => 0x080B
  | .tmonUnavail => 0x080C
  | .tmonWinStale => 0x080D
  | .tmonTable => 0x080E
  | .hostStale => 0x080F
  | .hostLoss => 0x0810
  | .dischargeDone => 0x0811
  | .dischargeIncomplete => 0x0812
  | .axisState => 0x0813
  | .pltCfgRefused => 0x0814
  | .pltCoreFenced => 0x0901
  | .pltResync => 0x0902
  | .pltCoreLeftOut => 0x0903
  | .pltStakeFault => 0x0904
  | .pltModeChange => 0x0905
  | .pltModeRefused => 0x0906
  | .cfgMinority => 0x0907
  | .cfgDegraded => 0x0908
  | .cfgSplit => 0x0909
  | .walMarginLow => 0x090A
  | .splSramUe => 0x090B
  | .hifBadAccess => 0x0B01
  | .hifRange => 0x0B02
  | .hifBadDoorbell => 0x0B03
  | .hifRingError => 0x0B04
  | .hifLinkReset => 0x0B05
  | .hifLockedWrite => 0x0B06
  | .strCfgRefused => 0x0B07
  | .canCfgRefused => 0x0C01
  | .canRxOverrun => 0x0C02
  | .canErrPassive => 0x0C03
  | .canBusOff => 0x0C04
  | .canTtLoss => 0x0C05
  | .ethTimeLock => 0x0C06
  | .ethTimeUnlock => 0x0C07
  | .ethTimeHoldover => 0x0C08
  | .ethTimeLost => 0x0C09
  | .ethTimeStep => 0x0C0A
  | .supInhibit => 0x0D01
  | .supOvervolt => 0x0D02
  | .supVana => 0x0D03
  | .clkLost => 0x0D04
  | .clkRefLoss => 0x0D05
  | .clkMclkFault => 0x0D06
  | .thmSensorBroken => 0x0D07
  | .thmWarn => 0x0D08
  | .thermalRequest => 0x0D09
  | .thmLimit => 0x0D0A
  | .thmRelease => 0x0D0B
  | .thmShutdown => 0x0D0C
  | .thmDie175 => 0x0D0D
  | .secSlotFallback => 0x0E01
  | .secBootFail => 0x0E02
  | .secDistFail => 0x0E03
  | .secRollbackAdvance => 0x0E04
  | .secRollbackDefer => 0x0E05
  | .secEnrolled => 0x0E06
  | .secCfgRefused => 0x0E07

end Sys2Proof.Machine
end

