-- ==== Sys2Proof/Config.lean ====
section
/-! DEFINITION. What an implementation fixes and the spec leaves open: constants without a body, so that no proof can see a
value. Each is named in the assumption log. -/
namespace Sys2Proof.Config

/-- An unstated value: applied to the plain counter `Stake.fresh`, which every use advances. -/
opaque freeNat : Nat → Nat

/-- An unstated value of the package, applied to the package's own counter. -/
opaque freePkg : Nat → Nat

/-- R427: the fitted flash holds the command sequence that enters 8D-8D-8D. -/
opaque flashEntry : Bool

/-- R339: Damhore's Vendor ID; and the words of the function's header that the spec does not give, by offset. -/
opaque pcieVendor : Nat
opaque pcieHeader : Nat → Nat

/-- An unstated signed value, used the same way. -/
opaque freeInt : Nat → Int

/-- What R21 leaves open of the CRC-32 of a cell: its initial and final values, which for cells of one length come to one constant. -/
opaque cellCrc : Nat

/-- The speed a clock takes where a source's estimate does not fit the signed 48 bits of R45: a function of the estimate. -/
opaque speedOver : Int → Int

/-- The SHAKE256 digest of 256 bits over a byte string (R324, R430, R437): the function is named by the spec and not
written out in it. -/
opaque shake256 : List Nat → List Nat

/-- The digest by which the plait compares its copy of the flux table (R298): no rule names the function. -/
opaque tableDigest : List (Nat × BitVec 32) → Nat

/-- Whether a Falcon-1024 signature verifies under a key (R430, R442): key, message, signature. -/
opaque falconVerify : List Nat → List Nat → List Nat → Bool

/-- The Falcon-1024 signature the seal unit makes with the identity key, which it unseals, over a message (R438, R439): sealed key,
message. -/
opaque falconSign : List Nat → List Nat → List Nat

/-- What a supply voltage of a stake measures in millivolts, of which the spec gives the window (R403, R404): stake, rail, time. -/
opaque supplyMv : Nat → Nat → Nat → Nat

/-- The frame check sequence of IEEE 802.3 over a frame the MAC sends (R397), given by its fields. -/
opaque ethFcs : List Int → BitVec 32

/-- The error, in units of 2^-44, that the sine, cosine, division and square root of the field engine add to the exact
value rounded down: which function, and its operands. The use site confines it to the bound the spec states (R131). -/
opaque roundOff : Nat → Int → Int → Int

/-- Angle and speed of a phase-locked loop whose bandwidth alone the spec states (R155, R162): bandwidth, interval in ticks, angle and
speed before, angle tracked. -/
opaque pllTheta : Int → Nat → Int → Int → Int → Int

/-- The speed of the same loop, in counts per tick. -/
opaque pllOmega : Int → Nat → Int → Int → Int → Int

/-- R138: the currents of a prediction where no pass has run yet, of which the spec states no value. -/
opaque noPass : Nat → Int

/-- The Damhore firmware key held in the boot ROM (R430). -/
opaque damhoreKey : List Nat

/-- The Damhore test key held in the boot ROM (R442). -/
opaque testKey : List Nat

/-- The curve by which overmodulation maps the modulation index beyond the hexagon (R183), between the points the spec's
table states. -/
opaque ovmCurve : Int → Int

/-- The hold angle α_h of overmodulation above 1.0494 (R183), in counts of an angle, between the points of the unit's table. -/
opaque ovmHold : Int → Nat

end Sys2Proof.Config
end

