-- ==== Sys2Proof/Machine/Store.lean ====
section
/-! DEFINITION. A store of 32-bit words by offset, in one canonical form: offsets strictly rising, and no word equal to
what an unlisted offset reads as. The reset contents are a function of the offset, given to every operation. -/
namespace Sys2Proof.Machine

/-- Words by offset. -/
abbrev Store := List (Nat × BitVec 32)

/-- The word at an offset; `d` gives the words not listed. -/
def Store.get (d : Nat → BitVec 32) : Store → Nat → BitVec 32
  | [], k => d k
  | (a, v) :: t, k => if k = a then v else Store.get d t k

/-- Puts an entry before the first one with a greater offset. -/
def Store.ins : Store → Nat → BitVec 32 → Store
  | [], k, v => [(k, v)]
  | (a, w) :: t, k, v => if k < a then (k, v) :: (a, w) :: t else (a, w) :: Store.ins t k v

/-- Writes one word and keeps the canonical form: the old entry goes, and a new one comes unless the word is what an unlisted offset
reads as. -/
def Store.set (d : Nat → BitVec 32) (s : Store) (k : Nat) (v : BitVec 32) : Store :=
  let t := s.filter fun p => p.1 ≠ k
  if v = d k then t else Store.ins t k v

/-- Every offset of the store is above a bound. -/
def Store.above (b : Nat) (s : Store) : Bool := s.all fun p => b < p.1

/-- The canonical form. -/
def Store.wf (d : Nat → BitVec 32) : Store → Bool
  | [] => true
  | (a, v) :: t => (v ≠ d a) && Store.above a t && Store.wf d t

/-- The words of `src` at offsets in [lo, hi) take the place of those of `dst`; both stores read unlisted offsets alike. -/
def Store.copyRange (lo hi : Nat) (src dst : Store) : Store :=
  dst.filter (fun p => p.1 < lo) ++ src.filter (fun p => lo ≤ p.1 && p.1 < hi) ++ dst.filter (fun p => hi ≤ p.1)

/-- A field of a register: offset, low bit, width. -/
structure Fld where
  off : Nat
  lo : Nat
  w : Nat
deriving DecidableEq, Repr

/-- The bits of a word that belong to a field. -/
def Fld.mask (f : Fld) : BitVec 32 := BitVec.ofNat 32 (2 ^ f.w - 1) <<< f.lo

/-- The value of a field in its word. -/
def Fld.of (f : Fld) (x : BitVec 32) : Nat := (x >>> f.lo).toNat % 2 ^ f.w

/-- A word with one field replaced; the value is taken modulo the field's width. -/
def Fld.put (f : Fld) (x : BitVec 32) (v : Nat) : BitVec 32 :=
  (x &&& ~~~ f.mask) ||| (BitVec.ofNat 32 (v % 2 ^ f.w) <<< f.lo)

/-- The signed reading of a w-bit value. -/
def signOf (w v : Nat) : Int := if v < 2 ^ (w - 1) then (v : Int) else (v : Int) - 2 ^ w

end Sys2Proof.Machine
end

