-- ==== Sys2Proof/Machine/RegMap.lean ====
section
/-! DEFINITION. The register map: every register the spec draws a field map for or describes in words (R8, R15, R35 and
the register sections of chapters 01 to 14), as rows of plain data, and one name for every register and every field.
Offsets below 0x10_0000 lie in a stake's set-up window; offsets from 0x80_0000 are BAR0 offsets of the package region.
A row is: offset of element 0, number of elements, stride, whether the set-up lock of R377 covers it, its fields.
A field is: high bit, low bit, access code of R8, reset value, least and greatest value R15 lets a write carry. -/
namespace Sys2Proof.Machine

/-- The access codes of R8 that carry state or act; a reserved bit has no row. -/
inductive Acc where
  | rw | ro | w1c | wo
deriving DecidableEq, Repr

/-- One field of a field map (R8), with the range R15 holds a written value to. -/
structure FieldD where
  hi : Nat
  lo : Nat
  acc : Acc
  reset : Nat
  rmin : Nat
  rmax : Nat
deriving DecidableEq, Repr

/-- One register, or an array of equal registers. -/
structure RegD where
  base : Nat
  count : Nat
  stride : Nat
  lock : Bool
  fields : List FieldD
deriving DecidableEq, Repr

/-- Registers of block ID: HIF_PKG_ID to HIF_PKG_ALIVE. -/
def mapId : List RegD := [
  ⟨0x850000, 1, 0, false, [⟨23, 16, .ro, 177, 0, 255⟩, ⟨7, 0, .ro, 8, 0, 255⟩]⟩,
  ⟨0x850004, 1, 0, false, [⟨7, 0, .ro, 0, 0, 255⟩]⟩]

/-- Registers of block WAL: WAL_CTRL to WAL_RETRAIN_CNT. -/
def mapWal : List RegD := [
  ⟨0x80000, 1, 0, true, [⟨23, 16, .rw, 16, 0, 255⟩, ⟨15, 8, .rw, 32, 0, 255⟩, ⟨1, 1, .rw, 1, 0, 1⟩, ⟨0, 0, .rw, 1, 0, 1⟩]⟩,
  ⟨0x80004, 1, 0, false, [⟨23, 16, .ro, 0, 0, 255⟩, ⟨10, 10, .w1c, 0, 0, 1⟩, ⟨9, 9, .ro, 0, 0, 1⟩, ⟨8, 8, .ro, 0, 0, 1⟩, ⟨5, 5, .ro, 0, 0, 1⟩, ⟨4, 4, .ro, 0, 0, 1⟩, ⟨1, 1, .ro, 0, 0, 1⟩, ⟨0, 0, .ro, 0, 0, 1⟩]⟩,
  ⟨0x80008, 1, 0, true, [⟨31, 24, .rw, 16, 0, 125⟩, ⟨23, 16, .rw, 100, 0, 125⟩, ⟨15, 8, .rw, 32, 0, 125⟩, ⟨7, 0, .rw, 125, 0, 125⟩]⟩,
  ⟨0x80020, 1, 0, false, [⟨29, 28, .ro, 0, 0, 3⟩, ⟨17, 0, .ro, 0, 0, 0x3FFFF⟩]⟩,
  ⟨0x80024, 1, 0, false, [⟨29, 28, .ro, 0, 0, 3⟩, ⟨17, 0, .ro, 0, 0, 0x3FFFF⟩]⟩,
  ⟨0x80028, 1, 0, false, [⟨29, 28, .ro, 0, 0, 3⟩, ⟨17, 0, .ro, 0, 0, 0x3FFFF⟩]⟩,
  ⟨0x8002C, 1, 0, false, [⟨29, 28, .ro, 0, 0, 3⟩, ⟨17, 0, .ro, 0, 0, 0x3FFFF⟩]⟩,
  ⟨0x80030, 1, 0, false, [⟨12, 8, .ro, 0, 0, 31⟩, ⟨7, 0, .ro, 0, 0, 255⟩]⟩,
  ⟨0x80034, 1, 0, false, [⟨12, 8, .ro, 0, 0, 31⟩, ⟨7, 0, .ro, 0, 0, 255⟩]⟩,
  ⟨0x80040, 1, 0, false, [⟨31, 31, .w1c, 0, 0, 1⟩, ⟨30, 0, .ro, 0, 0, 0x7FFFFFFF⟩]⟩,
  ⟨0x80044, 1, 0, false, [⟨31, 31, .w1c, 0, 0, 1⟩, ⟨15, 0, .ro, 0, 0, 0xFFFF⟩]⟩]

/-- Registers of block ANG: ANG_TICK_LO to ANG_CLK_STALE_CNT. -/
def mapAng0 : List RegD := [
  ⟨0x30000, 1, 0, false, [⟨31, 0, .ro, 0, 0, 0xFFFFFFFF⟩]⟩,
  ⟨0x30004, 1, 0, false, [⟨15, 0, .ro, 0, 0, 0xFFFF⟩]⟩,
  ⟨0x30008, 1, 0, false, [⟨16, 16, .w1c, 0, 0, 1⟩, ⟨8, 8, .w1c, 0, 0, 1⟩, ⟨7, 0, .ro, 0, 0, 255⟩]⟩,
  ⟨0x3000C, 1, 0, true, [⟨31, 31, .rw, 0, 0, 1⟩, ⟨15, 0, .rw, 182, 1, 0x4000⟩]⟩,
  ⟨0x30010, 1, 0, false, [⟨31, 31, .w1c, 0, 0, 1⟩, ⟨15, 0, .ro, 0, 0, 0xFFFF⟩]⟩,
  ⟨0x30014, 1, 0, false, [⟨31, 31, .w1c, 0, 0, 1⟩, ⟨15, 0, .ro, 0, 0, 0xFFFF⟩]⟩,
  ⟨0x30018, 1, 0, false, [⟨31, 31, .w1c, 0, 0, 1⟩, ⟨15, 0, .ro, 0, 0, 0xFFFF⟩]⟩,
  ⟨0x3001C, 1, 0, false, [⟨31, 31, .w1c, 0, 0, 1⟩, ⟨15, 0, .ro, 0, 0, 0xFFFF⟩]⟩,
  ⟨0x30020, 1, 0, false, [⟨31, 31, .w1c, 0, 0, 1⟩, ⟨15, 0, .ro, 0, 0, 0xFFFF⟩]⟩,
  ⟨0x30030, 4, 4, false, [⟨31, 0, .ro, 0, 0, 0xFFFFFFFF⟩]⟩,
  ⟨0x30040, 2, 64, true, [⟨31, 31, .rw, 0, 0, 1⟩, ⟨26, 24, .rw, 0, 0, 5⟩, ⟨19, 16, .rw, 6, 3, 12⟩, ⟨11, 10, .rw, 2, 0, 3⟩, ⟨9, 8, .rw, 3, 0, 3⟩]⟩,
  ⟨0x30044, 2, 64, true, [⟨31, 16, .rw, 0x1555, 1, 0x7FFF⟩, ⟨15, 0, .rw, 46, 1, 0x7FFF⟩]⟩,
  ⟨0x30048, 2, 64, true, [⟨15, 0, .rw, 100, 1, 0xFFFF⟩]⟩,
  ⟨0x30050, 2, 64, false, [⟨31, 0, .ro, 0, 0, 0xFFFFFFFF⟩]⟩,
  ⟨0x30054, 2, 64, false, [⟨15, 0, .ro, 0, 0, 0xFFFF⟩]⟩,
  ⟨0x30058, 2, 64, false, [⟨31, 0, .ro, 0, 0, 0xFFFFFFFF⟩]⟩,
  ⟨0x3005C, 2, 64, false, [⟨15, 0, .ro, 0, 0, 0xFFFF⟩]⟩,
  ⟨0x30060, 2, 64, false, [⟨11, 11, .w1c, 0, 0, 1⟩, ⟨10, 10, .w1c, 0, 0, 1⟩, ⟨9, 9, .w1c, 0, 0, 1⟩, ⟨8, 8, .ro, 0, 0, 1⟩, ⟨0, 0, .ro, 0, 0, 1⟩]⟩,
  ⟨0x30064, 2, 64, false, [⟨31, 31, .w1c, 0, 0, 1⟩, ⟨15, 0, .ro, 0, 0, 0xFFFF⟩]⟩,
  ⟨0x30068, 2, 64, false, [⟨31, 31, .w1c, 0, 0, 1⟩, ⟨15, 0, .ro, 0, 0, 0xFFFF⟩]⟩]

/-- Registers of block ANG: ANG_ENT_TGT_LO to ANG_ENT_CTRL. -/
def mapAng1 : List RegD := [
  ⟨0x30400, 127, 32, true, [⟨31, 0, .rw, 0, 0, 0xFFFFFFFF⟩]⟩,
  ⟨0x30404, 127, 32, true, [⟨15, 0, .rw, 0, 0, 0xFFFF⟩]⟩,
  ⟨0x30408, 127, 32, true, [⟨31, 0, .rw, 0, 0, 0xFFFFFFFF⟩]⟩,
  ⟨0x3040C, 127, 32, true, [⟨31, 31, .rw, 0, 0, 1⟩, ⟨30, 30, .ro, 0, 0, 1⟩, ⟨29, 29, .rw, 0, 0, 1⟩, ⟨28, 28, .rw, 0, 0, 1⟩, ⟨27, 26, .rw, 0, 0, 2⟩, ⟨25, 23, .rw, 0, 0, 3⟩, ⟨20, 16, .rw, 0, 0, 31⟩, ⟨15, 12, .rw, 0, 0, 8⟩, ⟨7, 0, .rw, 0, 0, 255⟩]⟩]

/-- All registers of block ANG. -/
def mapAng : List RegD := mapAng0 ++ mapAng1

/-- Registers of block SNS: SNS_CTRL to SNS_CH_FAST_OFS. -/
def mapSns0 : List RegD := [
  ⟨0x10000, 1, 0, true, [⟨31, 31, .rw, 0, 0, 1⟩, ⟨0, 0, .wo, 0, 0, 1⟩]⟩,
  ⟨0x10004, 1, 0, false, [⟨17, 17, .w1c, 0, 0, 1⟩, ⟨16, 16, .ro, 0, 0, 1⟩, ⟨15, 0, .ro, 0, 0, 0xFFFF⟩]⟩,
  ⟨0x10010, 4, 4, true, [⟨31, 31, .rw, 0, 0, 1⟩, ⟨22, 16, .rw, 10, 0, 127⟩, ⟨14, 8, .rw, 0, 0, 127⟩, ⟨6, 0, .rw, 20, 16, 80⟩]⟩,
  ⟨0x10020, 4, 4, true, [⟨27, 16, .rw, 160, 0, 0xFFF⟩, ⟨15, 12, .rw, 15, 0, 15⟩, ⟨8, 0, .rw, 32, 4, 256⟩]⟩,
  ⟨0x10030, 1, 0, true, [⟨31, 31, .rw, 0, 0, 1⟩, ⟨27, 24, .rw, 3, 1, 15⟩, ⟨23, 22, .rw, 2, 0, 3⟩, ⟨21, 20, .rw, 1, 0, 3⟩, ⟨19, 18, .rw, 2, 0, 3⟩, ⟨17, 16, .rw, 2, 0, 3⟩]⟩,
  ⟨0x10034, 1, 0, true, [⟨31, 16, .rw, 246, 0, 0xFFFF⟩, ⟨15, 0, .rw, 410, 0, 0xFFFF⟩]⟩,
  ⟨0x10038, 1, 0, true, [⟨15, 0, .rw, 400, 0, 0xFFFF⟩]⟩,
  ⟨0x1003C, 1, 0, true, [⟨15, 12, .rw, 7, 0, 15⟩, ⟨11, 8, .rw, 6, 0, 15⟩, ⟨7, 4, .rw, 3, 0, 13⟩, ⟨3, 0, .rw, 0, 0, 13⟩]⟩,
  ⟨0x10040, 1, 0, false, [⟨31, 16, .ro, 0, 0, 0xFFFF⟩, ⟨12, 8, .ro, 31, 0, 31⟩, ⟨4, 0, .ro, 31, 0, 31⟩]⟩,
  ⟨0x10050, 1, 0, false, [⟨31, 31, .w1c, 0, 0, 1⟩, ⟨15, 0, .ro, 0, 0, 0xFFFF⟩]⟩,
  ⟨0x10054, 1, 0, false, [⟨31, 31, .w1c, 0, 0, 1⟩, ⟨15, 0, .ro, 0, 0, 0xFFFF⟩]⟩,
  ⟨0x10058, 1, 0, false, [⟨31, 31, .w1c, 0, 0, 1⟩, ⟨15, 0, .ro, 0, 0, 0xFFFF⟩]⟩,
  ⟨0x10100, 16, 64, true, [⟨31, 31, .rw, 0, 0, 1⟩, ⟨30, 30, .rw, 1, 0, 1⟩, ⟨29, 28, .rw, 0, 0, 3⟩, ⟨27, 26, .rw, 0, 0, 3⟩, ⟨25, 24, .rw, 0, 0, 3⟩, ⟨23, 20, .rw, 0, 0, 15⟩, ⟨19, 18, .rw, 3, 0, 3⟩, ⟨17, 16, .rw, 0, 0, 2⟩, ⟨13, 8, .rw, 8, 4, 32⟩, ⟨2, 0, .rw, 1, 1, 7⟩]⟩,
  ⟨0x10108, 16, 64, true, [⟨31, 0, .rw, 0, 0, 0xFFFFFFFF⟩]⟩,
  ⟨0x1010C, 16, 64, true, [⟨15, 0, .rw, 0x1000, 0, 0xFFFF⟩]⟩,
  ⟨0x10110, 16, 64, true, [⟨31, 0, .rw, 0, 0, 0xFFFFFFFF⟩]⟩,
  ⟨0x10114, 16, 64, true, [⟨15, 0, .rw, 0, 0, 0xFFFF⟩]⟩,
  ⟨0x10118, 16, 64, true, [⟨0, 0, .wo, 0, 0, 1⟩]⟩,
  ⟨0x1011C, 16, 64, true, [⟨31, 16, .rw, 0x7FFF, 0, 0xFFFF⟩, ⟨15, 0, .rw, 0x8000, 0, 0xFFFF⟩]⟩,
  ⟨0x10120, 16, 64, true, [⟨15, 0, .rw, 0, 0, 0xFFFF⟩]⟩]

/-- Registers of block SNS: SNS_CH_VOLT_SCALE to SNS_CH_CENTRE. -/
def mapSns1 : List RegD := [
  ⟨0x10124, 16, 64, true, [⟨15, 0, .rw, 0, 0, 0xFFFF⟩]⟩,
  ⟨0x10128, 16, 64, false, [⟨9, 9, .ro, 0, 0, 1⟩, ⟨8, 8, .ro, 0, 0, 1⟩, ⟨7, 7, .ro, 1, 0, 1⟩, ⟨6, 6, .ro, 0, 0, 1⟩, ⟨5, 5, .ro, 0, 0, 1⟩, ⟨3, 3, .w1c, 0, 0, 1⟩, ⟨2, 2, .w1c, 0, 0, 1⟩, ⟨1, 1, .w1c, 0, 0, 1⟩]⟩,
  ⟨0x1012C, 16, 64, false, [⟨15, 0, .ro, 0, 0, 0xFFFF⟩]⟩,
  ⟨0x10130, 16, 64, false, [⟨31, 0, .ro, 0, 0, 0xFFFFFFFF⟩]⟩,
  ⟨0x10134, 16, 64, false, [⟨15, 0, .ro, 0, 0, 0xFFFF⟩]⟩,
  ⟨0x10138, 16, 64, false, [⟨31, 0, .ro, 0, 0, 0xFFFFFFFF⟩]⟩]

/-- All registers of block SNS. -/
def mapSns : List RegD := mapSns0 ++ mapSns1

/-- Registers of block POS: POS_CTRL to POS_SSP_CFG. -/
def mapPos0 : List RegD := [
  ⟨0x20000, 1, 0, true, [⟨29, 24, .rw, 4, 1, 32⟩, ⟨21, 20, .rw, 0, 0, 3⟩, ⟨17, 16, .rw, 0, 0, 2⟩, ⟨9, 9, .rw, 0, 0, 1⟩, ⟨8, 8, .rw, 0, 0, 1⟩, ⟨4, 4, .rw, 0, 0, 1⟩, ⟨3, 3, .rw, 0, 0, 1⟩, ⟨2, 2, .rw, 0, 0, 1⟩, ⟨1, 1, .rw, 0, 0, 1⟩, ⟨0, 0, .rw, 0, 0, 1⟩]⟩,
  ⟨0x20004, 1, 0, false, [⟨0, 0, .w1c, 0, 0, 1⟩]⟩,
  ⟨0x20008, 1, 0, true, [⟨31, 16, .rw, 0xFA0, 1, 0xFFFF⟩, ⟨9, 0, .rw, 50, 1, 0x3E8⟩]⟩,
  ⟨0x2000C, 1, 0, true, [⟨25, 24, .rw, 1, 0, 3⟩, ⟨23, 22, .rw, 3, 0, 3⟩, ⟨21, 20, .rw, 3, 0, 3⟩, ⟨19, 18, .rw, 3, 0, 3⟩, ⟨17, 16, .rw, 3, 0, 3⟩, ⟨7, 0, .rw, 8, 1, 255⟩]⟩,
  ⟨0x20010, 1, 0, true, [⟨31, 0, .rw, 0xABCC7, 0, 0xFFFFFFFF⟩]⟩,
  ⟨0x20020, 4, 32, false, [⟨31, 0, .ro, 0, 0, 0xFFFFFFFF⟩]⟩,
  ⟨0x20024, 4, 32, false, [⟨15, 0, .ro, 0, 0, 0xFFFF⟩]⟩,
  ⟨0x20028, 4, 32, false, [⟨31, 0, .ro, 0, 0, 0xFFFFFFFF⟩]⟩,
  ⟨0x2002C, 4, 32, false, [⟨15, 0, .ro, 0, 0, 0xFFFF⟩]⟩,
  ⟨0x20030, 4, 32, false, [⟨12, 12, .ro, 0, 0, 1⟩, ⟨11, 11, .w1c, 0, 0, 1⟩, ⟨10, 10, .ro, 0, 0, 1⟩, ⟨9, 9, .ro, 0, 0, 1⟩, ⟨8, 8, .ro, 0, 0, 1⟩, ⟨6, 4, .ro, 0, 0, 7⟩, ⟨3, 1, .ro, 0, 0, 7⟩, ⟨0, 0, .ro, 0, 0, 1⟩]⟩,
  ⟨0x20034, 4, 32, true, [⟨15, 0, .rw, 0, 0, 0xFFFF⟩]⟩,
  ⟨0x200A0, 1, 0, true, [⟨31, 24, .rw, 192, 0, 255⟩, ⟨17, 0, .rw, 0x9C40, 0x4E20, 0x30D40⟩]⟩,
  ⟨0x200A4, 1, 0, true, [⟨31, 28, .rw, 1, 1, 8⟩, ⟨27, 24, .rw, 12, 0, 15⟩, ⟨23, 20, .rw, 13, 0, 15⟩, ⟨19, 8, .rw, 0x3E8, 100, 0x7D0⟩, ⟨7, 0, .rw, 16, 1, 255⟩]⟩,
  ⟨0x200A8, 1, 0, true, [⟨17, 0, .rw, 0, 0, 0x3FFFF⟩]⟩,
  ⟨0x200AC, 1, 0, true, [⟨31, 24, .rw, 243, 0, 255⟩, ⟨23, 16, .rw, 64, 0, 255⟩, ⟨15, 8, .rw, 57, 0, 255⟩, ⟨7, 0, .rw, 11, 0, 255⟩]⟩,
  ⟨0x200B0, 1, 0, true, [⟨31, 31, .rw, 0, 0, 1⟩, ⟨30, 30, .rw, 0, 0, 1⟩, ⟨29, 28, .rw, 3, 0, 3⟩, ⟨27, 16, .rw, 8, 4, 0xFA0⟩, ⟨15, 0, .rw, 0x7FF, 0, 0xFFFF⟩]⟩,
  ⟨0x200B4, 1, 0, true, [⟨31, 24, .rw, 4, 0, 255⟩, ⟨17, 0, .rw, 0, 0, 0x3FFFF⟩]⟩,
  ⟨0x200B8, 1, 0, true, [⟨31, 31, .wo, 0, 0, 1⟩, ⟨17, 0, .rw, 0, 0, 0x3FFFF⟩]⟩,
  ⟨0x200C0, 1, 0, true, [⟨2, 0, .rw, 0, 0, 7⟩]⟩,
  ⟨0x200D0, 1, 0, true, [⟨31, 31, .rw, 0, 0, 1⟩, ⟨30, 30, .rw, 0, 0, 1⟩, ⟨29, 24, .rw, 24, 8, 48⟩, ⟨23, 18, .rw, 36, 8, 48⟩, ⟨11, 0, .rw, 20, 20, 0x7D0⟩]⟩]

/-- Registers of block POS: POS_SSP_TIMING to POS_EMU_LAG_CNT. -/
def mapPos1 : List RegD := [
  ⟨0x200D4, 1, 0, true, [⟨31, 24, .rw, 16, 1, 255⟩, ⟨23, 16, .rw, 8, 0, 255⟩, ⟨15, 8, .rw, 0, 0, 255⟩, ⟨7, 0, .rw, 20, 1, 255⟩]⟩,
  ⟨0x200D8, 1, 0, true, [⟨16, 16, .rw, 1, 0, 1⟩, ⟨15, 8, .rw, 0, 0, 255⟩, ⟨7, 0, .rw, 3, 0, 255⟩]⟩,
  ⟨0x200DC, 1, 0, true, [⟨23, 0, .rw, 0xFA0, 400, 0xFFFFFF⟩]⟩,
  ⟨0x200E0, 1, 0, false, [⟨31, 0, .ro, 0, 0, 0xFFFFFFFF⟩]⟩,
  ⟨0x200E4, 1, 0, false, [⟨15, 0, .ro, 0, 0, 0xFFFF⟩]⟩,
  ⟨0x200F0, 1, 0, false, [⟨31, 0, .ro, 0, 0, 0xFFFFFFFF⟩]⟩,
  ⟨0x200F4, 1, 0, false, [⟨0, 0, .w1c, 0, 0, 1⟩]⟩,
  ⟨0x20100, 1, 0, true, [⟨31, 31, .rw, 0, 0, 1⟩, ⟨30, 30, .rw, 0, 0, 1⟩, ⟨27, 16, .rw, 40, 4, 0xFA0⟩, ⟨13, 0, .rw, 511, 0, 0x3FFF⟩]⟩,
  ⟨0x20120, 8, 4, true, [⟨31, 31, .rw, 0, 0, 1⟩, ⟨16, 16, .rw, 0, 0, 1⟩, ⟨15, 0, .rw, 40, 4, 0xFFFF⟩]⟩,
  ⟨0x20140, 1, 0, false, [⟨31, 31, .w1c, 0, 0, 1⟩, ⟨15, 0, .ro, 0, 0, 0xFFFF⟩]⟩,
  ⟨0x20144, 1, 0, false, [⟨31, 31, .w1c, 0, 0, 1⟩, ⟨15, 0, .ro, 0, 0, 0xFFFF⟩]⟩,
  ⟨0x20148, 1, 0, false, [⟨31, 31, .w1c, 0, 0, 1⟩, ⟨15, 0, .ro, 0, 0, 0xFFFF⟩]⟩,
  ⟨0x2014C, 1, 0, false, [⟨31, 31, .w1c, 0, 0, 1⟩, ⟨15, 0, .ro, 0, 0, 0xFFFF⟩]⟩,
  ⟨0x20150, 1, 0, false, [⟨31, 31, .w1c, 0, 0, 1⟩, ⟨15, 0, .ro, 0, 0, 0xFFFF⟩]⟩,
  ⟨0x20154, 1, 0, false, [⟨31, 31, .w1c, 0, 0, 1⟩, ⟨15, 0, .ro, 0, 0, 0xFFFF⟩]⟩,
  ⟨0x20158, 1, 0, false, [⟨31, 31, .w1c, 0, 0, 1⟩, ⟨15, 0, .ro, 0, 0, 0xFFFF⟩]⟩]

/-- All registers of block POS. -/
def mapPos : List RegD := mapPos0 ++ mapPos1

/-- Registers of block FLD: FLD_CTRL to FLD_PASS_SKIP_CNT. -/
def mapFld0 : List RegD := [
  ⟨0x40000, 1, 0, true, [⟨31, 31, .rw, 0, 0, 1⟩, ⟨27, 27, .rw, 0, 0, 1⟩, ⟨26, 23, .rw, 0, 0, 15⟩, ⟨22, 22, .rw, 1, 0, 1⟩, ⟨21, 21, .rw, 0, 0, 1⟩, ⟨20, 20, .rw, 0, 0, 1⟩, ⟨19, 18, .rw, 2, 0, 3⟩, ⟨17, 17, .rw, 1, 0, 1⟩, ⟨16, 16, .rw, 1, 0, 1⟩, ⟨15, 15, .rw, 1, 0, 1⟩, ⟨11, 8, .rw, 3, 0, 15⟩, ⟨1, 1, .wo, 0, 0, 1⟩, ⟨0, 0, .wo, 0, 0, 1⟩]⟩,
  ⟨0x40004, 1, 0, false, [⟨19, 16, .ro, 0, 0, 15⟩, ⟨11, 11, .w1c, 0, 0, 1⟩, ⟨10, 10, .ro, 0, 0, 1⟩, ⟨9, 9, .ro, 0, 0, 1⟩, ⟨4, 4, .ro, 0, 0, 1⟩, ⟨3, 3, .ro, 0, 0, 1⟩, ⟨2, 2, .ro, 0, 0, 1⟩, ⟨0, 0, .ro, 0, 0, 1⟩]⟩,
  ⟨0x40010, 1, 0, true, [⟨23, 0, .rw, 0x3E80, 16, 0xFFFFFF⟩]⟩,
  ⟨0x40014, 1, 0, true, [⟨23, 0, .rw, 0x1F40, 16, 0xFFFFFF⟩]⟩,
  ⟨0x40018, 1, 0, true, [⟨19, 0, .rw, 0x19000, 256, 0xBB800⟩]⟩,
  ⟨0x4001C, 1, 0, true, [⟨17, 16, .rw, 0, 0, 3⟩, ⟨15, 12, .rw, 8, 0, 13⟩, ⟨11, 8, .rw, 7, 0, 15⟩, ⟨7, 4, .rw, 6, 0, 15⟩, ⟨3, 0, .rw, 0, 0, 13⟩]⟩,
  ⟨0x40020, 1, 0, true, [⟨31, 16, .rw, 0, 0, 0xFFFF⟩]⟩,
  ⟨0x40024, 1, 0, true, [⟨31, 30, .rw, 2, 0, 3⟩, ⟨29, 29, .rw, 1, 0, 1⟩, ⟨26, 24, .rw, 0, 0, 5⟩, ⟨15, 0, .rw, 200, 1, 0xFFFF⟩]⟩,
  ⟨0x40028, 1, 0, true, [⟨31, 16, .rw, 0x47E, 1, 0xFA0⟩, ⟨15, 0, .rw, 850, 1, 0xFA0⟩]⟩,
  ⟨0x4002C, 1, 0, true, [⟨15, 0, .rw, 320, 0, 0xFFFF⟩]⟩,
  ⟨0x40030, 1, 0, true, [⟨31, 24, .rw, 20, 1, 20⟩, ⟨23, 20, .rw, 4, 3, 15⟩, ⟨12, 0, .rw, 800, 200, 0x1F40⟩]⟩,
  ⟨0x40034, 1, 0, true, [⟨31, 31, .rw, 0, 0, 1⟩, ⟨15, 0, .rw, 200, 50, 0x7D0⟩]⟩,
  ⟨0x40040, 1, 0, false, [⟨31, 0, .ro, 0, 0, 0xFFFFFFFF⟩]⟩,
  ⟨0x40044, 1, 0, false, [⟨15, 0, .ro, 0, 0, 0xFFFF⟩]⟩,
  ⟨0x40048, 1, 0, false, [⟨31, 0, .ro, 0, 0, 0xFFFFFFFF⟩]⟩,
  ⟨0x4004C, 1, 0, false, [⟨15, 0, .ro, 0, 0, 0xFFFF⟩]⟩,
  ⟨0x40050, 1, 0, false, [⟨31, 0, .ro, 0, 0, 0xFFFFFFFF⟩]⟩,
  ⟨0x40054, 1, 0, false, [⟨15, 0, .ro, 0, 0, 0xFFFF⟩]⟩,
  ⟨0x40058, 1, 0, false, [⟨8, 8, .ro, 0, 0, 1⟩, ⟨7, 7, .ro, 0, 0, 1⟩, ⟨3, 0, .ro, 0, 0, 15⟩]⟩,
  ⟨0x40060, 1, 0, false, [⟨31, 31, .w1c, 0, 0, 1⟩, ⟨15, 0, .ro, 0, 0, 0xFFFF⟩]⟩]

/-- Registers of block FLD: FLD_PRED_CNT to FLD_P_LD. -/
def mapFld1 : List RegD := [
  ⟨0x40064, 1, 0, false, [⟨31, 31, .w1c, 0, 0, 1⟩, ⟨15, 0, .ro, 0, 0, 0xFFFF⟩]⟩,
  ⟨0x40068, 1, 0, false, [⟨31, 31, .w1c, 0, 0, 1⟩, ⟨15, 0, .ro, 0, 0, 0xFFFF⟩]⟩,
  ⟨0x4006C, 1, 0, false, [⟨31, 31, .w1c, 0, 0, 1⟩, ⟨15, 0, .ro, 0, 0, 0xFFFF⟩]⟩,
  ⟨0x40070, 1, 0, false, [⟨8, 0, .w1c, 0, 0, 511⟩]⟩,
  ⟨0x40074, 1, 0, true, [⟨18, 16, .ro, 0, 0, 7⟩, ⟨10, 8, .ro, 0, 0, 7⟩, ⟨2, 0, .wo, 0, 0, 7⟩]⟩,
  ⟨0x40100, 1, 0, true, [⟨31, 0, .rw, 0, 0, 0xFFFFFFFF⟩]⟩,
  ⟨0x40104, 1, 0, true, [⟨15, 0, .rw, 0, 0, 0xFFFF⟩]⟩,
  ⟨0x40108, 1, 0, true, [⟨31, 0, .rw, 0, 0, 0xFFFFFFFF⟩]⟩,
  ⟨0x4010C, 1, 0, true, [⟨15, 0, .rw, 0, 0, 0xFFFF⟩]⟩,
  ⟨0x40110, 1, 0, true, [⟨31, 0, .rw, 0, 0, 0xFFFFFFFF⟩]⟩,
  ⟨0x40114, 1, 0, true, [⟨15, 0, .rw, 0, 0, 0xFFFF⟩]⟩,
  ⟨0x40118, 1, 0, true, [⟨31, 0, .rw, 0, 0, 0xFFFFFFFF⟩]⟩,
  ⟨0x4011C, 1, 0, true, [⟨15, 0, .rw, 0, 0, 0xFFFF⟩]⟩,
  ⟨0x40120, 1, 0, true, [⟨31, 0, .rw, 0, 0, 0xFFFFFFFF⟩]⟩,
  ⟨0x40124, 1, 0, true, [⟨15, 0, .rw, 0x1000, 0, 0xFFFF⟩]⟩,
  ⟨0x40128, 1, 0, true, [⟨31, 0, .rw, 0, 0, 0xFFFFFFFF⟩]⟩,
  ⟨0x4012C, 1, 0, true, [⟨15, 0, .rw, 0x1000, 0, 0xFFFF⟩]⟩,
  ⟨0x40130, 1, 0, true, [⟨31, 0, .rw, 0, 0, 0xFFFFFFFF⟩]⟩,
  ⟨0x40134, 1, 0, true, [⟨15, 0, .rw, 0, 0, 0xFFFF⟩]⟩,
  ⟨0x40138, 1, 0, true, [⟨31, 0, .rw, 0, 0, 0xFFFFFFFF⟩]⟩]

/-- Registers of block FLD: FLD_P_LD_H to FLD_P_T_TAB. -/
def mapFld2 : List RegD := [
  ⟨0x4013C, 1, 0, true, [⟨15, 0, .rw, 0x1000, 0, 0xFFFF⟩]⟩,
  ⟨0x40140, 1, 0, true, [⟨31, 0, .rw, 0, 0, 0xFFFFFFFF⟩]⟩,
  ⟨0x40144, 1, 0, true, [⟨15, 0, .rw, 0x1000, 0, 0xFFFF⟩]⟩,
  ⟨0x40148, 1, 0, true, [⟨31, 0, .rw, 0, 0, 0xFFFFFFFF⟩]⟩,
  ⟨0x4014C, 1, 0, true, [⟨15, 0, .rw, 0, 0, 0xFFFF⟩]⟩,
  ⟨0x40150, 1, 0, true, [⟨31, 0, .rw, 0, 0, 0xFFFFFFFF⟩]⟩,
  ⟨0x40154, 1, 0, true, [⟨15, 0, .rw, 0, 0, 0xFFFF⟩]⟩,
  ⟨0x40158, 1, 0, true, [⟨31, 0, .rw, 0, 0, 0xFFFFFFFF⟩]⟩,
  ⟨0x4015C, 1, 0, true, [⟨15, 0, .rw, 0x1000, 0, 0xFFFF⟩]⟩,
  ⟨0x40160, 1, 0, true, [⟨31, 0, .rw, 0x33333333, 0, 0xFFFFFFFF⟩]⟩,
  ⟨0x40164, 1, 0, true, [⟨15, 0, .rw, 0xF33, 0, 0xFFFF⟩]⟩,
  ⟨0x40168, 1, 0, true, [⟨31, 0, .rw, 0, 0, 0xFFFFFFFF⟩]⟩,
  ⟨0x4016C, 1, 0, true, [⟨15, 0, .rw, 0, 0, 0xFFFF⟩]⟩,
  ⟨0x40170, 1, 0, true, [⟨31, 0, .rw, 0, 0, 0xFFFFFFFF⟩]⟩,
  ⟨0x40174, 1, 0, true, [⟨15, 0, .rw, 0, 0, 0xFFFF⟩]⟩,
  ⟨0x40178, 1, 0, true, [⟨31, 0, .rw, 0, 0, 0xFFFFFFFF⟩]⟩,
  ⟨0x4017C, 1, 0, true, [⟨15, 0, .rw, 512, 0, 0xFFFF⟩]⟩,
  ⟨0x40180, 1, 0, true, [⟨31, 0, .rw, 0, 0, 0xFFFFFFFF⟩]⟩,
  ⟨0x40184, 1, 0, true, [⟨15, 0, .rw, 0x2000, 0, 0xFFFF⟩]⟩,
  ⟨0x40188, 1, 0, true, [⟨31, 0, .rw, 0, 0, 0xFFFFFFFF⟩]⟩]

/-- Registers of block FLD: FLD_P_T_TAB_H to FLD_P_OBS_PLL_BW. -/
def mapFld3 : List RegD := [
  ⟨0x4018C, 1, 0, true, [⟨15, 0, .rw, 0x1000, 0, 0xFFFF⟩]⟩,
  ⟨0x40190, 1, 0, true, [⟨31, 0, .rw, 0, 0, 0xFFFFFFFF⟩]⟩,
  ⟨0x40194, 1, 0, true, [⟨15, 0, .rw, 0x1000, 0, 0xFFFF⟩]⟩,
  ⟨0x40198, 1, 0, true, [⟨31, 0, .rw, 0, 0, 0xFFFFFFFF⟩]⟩,
  ⟨0x4019C, 1, 0, true, [⟨15, 0, .rw, 0, 0, 0xFFFF⟩]⟩,
  ⟨0x401A0, 1, 0, true, [⟨31, 0, .rw, 0, 0, 0xFFFFFFFF⟩]⟩,
  ⟨0x401A4, 1, 0, true, [⟨15, 0, .rw, 0, 0, 0xFFFF⟩]⟩,
  ⟨0x401A8, 1, 0, true, [⟨31, 0, .rw, 0xEB851EB8, 0, 0xFFFFFFFF⟩]⟩,
  ⟨0x401AC, 1, 0, true, [⟨15, 0, .rw, 81, 0, 0xFFFF⟩]⟩,
  ⟨0x401B0, 1, 0, true, [⟨31, 0, .rw, 0xCCCCCCCD, 0, 0xFFFFFFFF⟩]⟩,
  ⟨0x401B4, 1, 0, true, [⟨15, 0, .rw, 204, 0, 0xFFFF⟩]⟩,
  ⟨0x401B8, 1, 0, true, [⟨31, 0, .rw, 0, 0, 0xFFFFFFFF⟩]⟩,
  ⟨0x401BC, 1, 0, true, [⟨15, 0, .rw, 0, 0, 0xFFFF⟩]⟩,
  ⟨0x401C0, 1, 0, true, [⟨31, 0, .rw, 0, 0, 0xFFFFFFFF⟩]⟩,
  ⟨0x401C4, 1, 0, true, [⟨15, 0, .rw, 0, 0, 0xFFFF⟩]⟩,
  ⟨0x401C8, 1, 0, true, [⟨31, 0, .rw, 0x189374BC, 0, 0xFFFFFFFF⟩]⟩,
  ⟨0x401CC, 1, 0, true, [⟨15, 0, .rw, 4, 0, 0xFFFF⟩]⟩,
  ⟨0x401D0, 1, 0, true, [⟨31, 0, .rw, 0xCCCCCCCD, 0, 0xFFFFFFFF⟩]⟩,
  ⟨0x401D4, 1, 0, true, [⟨15, 0, .rw, 204, 0, 0xFFFF⟩]⟩,
  ⟨0x401D8, 1, 0, true, [⟨31, 0, .rw, 0x9999999A, 0, 0xFFFFFFFF⟩]⟩]

/-- Registers of block FLD: FLD_P_OBS_PLL_BW_H to FLD_P_I_MAP. -/
def mapFld4 : List RegD := [
  ⟨0x401DC, 1, 0, true, [⟨15, 0, .rw, 409, 0, 0xFFFF⟩]⟩,
  ⟨0x401E0, 1, 0, true, [⟨31, 0, .rw, 0x9999999A, 0, 0xFFFFFFFF⟩]⟩,
  ⟨0x401E4, 1, 0, true, [⟨15, 0, .rw, 409, 0, 0xFFFF⟩]⟩,
  ⟨0x401E8, 1, 0, true, [⟨31, 0, .rw, 0, 0, 0xFFFFFFFF⟩]⟩,
  ⟨0x401EC, 1, 0, true, [⟨15, 0, .rw, 0, 0, 0xFFFF⟩]⟩,
  ⟨0x401F0, 1, 0, true, [⟨31, 0, .rw, 0, 0, 0xFFFFFFFF⟩]⟩,
  ⟨0x401F4, 1, 0, true, [⟨15, 0, .rw, 0, 0, 0xFFFF⟩]⟩,
  ⟨0x401F8, 1, 0, true, [⟨31, 0, .rw, 0, 0, 0xFFFFFFFF⟩]⟩,
  ⟨0x401FC, 1, 0, true, [⟨15, 0, .rw, 0, 0, 0xFFFF⟩]⟩,
  ⟨0x40200, 1, 0, true, [⟨31, 0, .rw, 0, 0, 0xFFFFFFFF⟩]⟩,
  ⟨0x40204, 1, 0, true, [⟨15, 0, .rw, 0, 0, 0xFFFF⟩]⟩,
  ⟨0x40208, 1, 0, true, [⟨31, 0, .rw, 0xEB851EB8, 0, 0xFFFFFFFF⟩]⟩,
  ⟨0x4020C, 1, 0, true, [⟨15, 0, .rw, 81, 0, 0xFFFF⟩]⟩,
  ⟨0x40210, 1, 0, true, [⟨31, 0, .rw, 0xEB851EB8, 0, 0xFFFFFFFF⟩]⟩,
  ⟨0x40214, 1, 0, true, [⟨15, 0, .rw, 81, 0, 0xFFFF⟩]⟩,
  ⟨0x40218, 1, 0, true, [⟨31, 0, .rw, 0x33333333, 0, 0xFFFFFFFF⟩]⟩,
  ⟨0x4021C, 1, 0, true, [⟨15, 0, .rw, 819, 0, 0xFFFF⟩]⟩,
  ⟨0x40220, 1, 0, true, [⟨31, 0, .rw, 0, 0, 0xFFFFFFFF⟩]⟩,
  ⟨0x40224, 1, 0, true, [⟨15, 0, .rw, 0, 0, 0xFFFF⟩]⟩,
  ⟨0x40228, 1, 0, true, [⟨31, 0, .rw, 0, 0, 0xFFFFFFFF⟩]⟩]

/-- Registers of block FLD: FLD_P_I_MAP_H to FLD_PAIR_STATUS. -/
def mapFld5 : List RegD := [
  ⟨0x4022C, 1, 0, true, [⟨15, 0, .rw, 0x1800, 0, 0xFFFF⟩]⟩,
  ⟨0x40230, 1, 0, true, [⟨31, 0, .rw, 0, 0, 0xFFFFFFFF⟩]⟩,
  ⟨0x40234, 1, 0, true, [⟨15, 0, .rw, 0, 0, 0xFFFF⟩]⟩,
  ⟨0x40238, 1, 0, true, [⟨31, 0, .rw, 0, 0, 0xFFFFFFFF⟩]⟩,
  ⟨0x4023C, 1, 0, true, [⟨15, 0, .rw, 0, 0, 0xFFFF⟩]⟩,
  ⟨0x40240, 1, 0, true, [⟨31, 0, .rw, 0x9999999A, 0, 0xFFFFFFFF⟩]⟩,
  ⟨0x40244, 1, 0, true, [⟨15, 0, .rw, 409, 0, 0xFFFF⟩]⟩,
  ⟨0x40248, 1, 0, true, [⟨31, 0, .rw, 0xCCCCCCCD, 0, 0xFFFFFFFF⟩]⟩,
  ⟨0x4024C, 1, 0, true, [⟨15, 0, .rw, 204, 0, 0xFFFF⟩]⟩,
  ⟨0x40300, 1, 0, true, [⟨31, 31, .rw, 0, 0, 1⟩, ⟨27, 26, .rw, 0, 0, 2⟩, ⟨23, 16, .rw, 0, 0, 255⟩, ⟨9, 0, .rw, 100, 1, 0x3E8⟩]⟩,
  ⟨0x40308, 1, 0, true, [⟨31, 0, .rw, 0, 0, 0xFFFFFFFF⟩]⟩,
  ⟨0x4030C, 1, 0, true, [⟨15, 0, .rw, 0x400, 0, 0xFFFF⟩]⟩,
  ⟨0x40310, 1, 0, true, [⟨31, 0, .rw, 0, 0, 0xFFFFFFFF⟩]⟩,
  ⟨0x40314, 1, 0, true, [⟨15, 0, .rw, 512, 0, 0xFFFF⟩]⟩,
  ⟨0x40318, 1, 0, false, [⟨2, 2, .w1c, 0, 0, 1⟩, ⟨1, 1, .ro, 0, 0, 1⟩, ⟨0, 0, .ro, 0, 0, 1⟩]⟩,
  ⟨0x40320, 1, 0, false, [⟨31, 0, .ro, 0, 0, 0xFFFFFFFF⟩]⟩,
  ⟨0x40324, 1, 0, false, [⟨15, 0, .ro, 0, 0, 0xFFFF⟩]⟩,
  ⟨0x40380, 1, 0, true, [⟨29, 28, .rw, 0, 0, 2⟩, ⟨27, 27, .ro, 0, 0, 1⟩, ⟨26, 26, .rw, 0, 0, 1⟩, ⟨25, 23, .rw, 0, 0, 4⟩, ⟨20, 19, .rw, 3, 0, 3⟩, ⟨1, 1, .wo, 0, 0, 1⟩, ⟨0, 0, .wo, 0, 0, 1⟩]⟩,
  ⟨0x40384, 1, 0, true, [⟨31, 24, .rw, 128, 1, 255⟩, ⟨23, 16, .rw, 128, 1, 255⟩, ⟨15, 0, .rw, 100, 10, 0x2710⟩]⟩,
  ⟨0x40388, 1, 0, false, [⟨18, 18, .w1c, 0, 0, 1⟩, ⟨17, 17, .w1c, 0, 0, 1⟩, ⟨16, 16, .w1c, 0, 0, 1⟩, ⟨11, 8, .ro, 0, 0, 15⟩, ⟨7, 5, .ro, 0, 0, 7⟩, ⟨4, 3, .ro, 0, 0, 3⟩, ⟨2, 0, .ro, 0, 0, 7⟩]⟩]

/-- Registers of block FLD: FLD_PAIR_LATE_CNT to FLD_PAIR_MISS_CNT. -/
def mapFld6 : List RegD := [
  ⟨0x40390, 1, 0, false, [⟨31, 31, .w1c, 0, 0, 1⟩, ⟨15, 0, .ro, 0, 0, 0xFFFF⟩]⟩,
  ⟨0x40394, 1, 0, false, [⟨31, 31, .w1c, 0, 0, 1⟩, ⟨15, 0, .ro, 0, 0, 0xFFFF⟩]⟩]

/-- All registers of block FLD. -/
def mapFld : List RegD := mapFld0 ++ mapFld1 ++ mapFld2 ++ mapFld3 ++ mapFld4 ++ mapFld5 ++ mapFld6

/-- Registers of block MOD: MOD_CTRL to MOD_TRACK. -/
def mapMod0 : List RegD := [
  ⟨0x50000, 1, 0, true, [⟨31, 31, .rw, 0, 0, 1⟩, ⟨30, 30, .rw, 1, 0, 1⟩, ⟨27, 24, .rw, 0, 0, 15⟩, ⟨23, 16, .rw, 16, 0, 255⟩, ⟨0, 0, .wo, 0, 0, 1⟩]⟩,
  ⟨0x50004, 1, 0, false, [⟨31, 28, .ro, 0, 0, 15⟩, ⟨27, 26, .ro, 0, 0, 3⟩, ⟨25, 25, .ro, 0, 0, 1⟩, ⟨24, 24, .ro, 1, 0, 1⟩, ⟨23, 22, .ro, 0, 0, 3⟩, ⟨9, 9, .w1c, 0, 0, 1⟩, ⟨8, 8, .w1c, 0, 0, 1⟩, ⟨3, 0, .ro, 0, 0, 15⟩]⟩,
  ⟨0x50008, 1, 0, false, [⟨20, 0, .ro, 0, 0, 0x1FFFFF⟩]⟩,
  ⟨0x5000C, 1, 0, false, [⟨15, 0, .ro, 0, 0, 0xFFFF⟩]⟩,
  ⟨0x50010, 1, 0, true, [⟨31, 31, .rw, 0, 0, 1⟩, ⟨30, 30, .rw, 0, 0, 1⟩, ⟨15, 0, .rw, 0x460, 0, 0xFFFF⟩]⟩,
  ⟨0x50014, 1, 0, true, [⟨13, 0, .rw, 400, 144, 0x1F40⟩]⟩,
  ⟨0x50018, 1, 0, true, [⟨7, 0, .rw, 16, 0, 255⟩]⟩,
  ⟨0x5001C, 1, 0, true, [⟨3, 0, .wo, 0, 0, 15⟩]⟩,
  ⟨0x50040, 4, 32, true, [⟨31, 31, .rw, 1, 0, 1⟩, ⟨30, 30, .rw, 0, 0, 1⟩, ⟨29, 28, .rw, 1, 1, 2⟩, ⟨27, 24, .rw, 11, 0, 15⟩, ⟨22, 20, .rw, 0, 0, 3⟩, ⟨19, 19, .rw, 0, 0, 1⟩, ⟨15, 0, .rw, 82, 1, 0x7FFF⟩]⟩,
  ⟨0x50044, 4, 32, true, [⟨31, 16, .rw, 200, 48, 0xFA0⟩, ⟨15, 0, .rw, 48, 48, 400⟩]⟩,
  ⟨0x50048, 4, 32, true, [⟨31, 16, .rw, 0, 0, 0xFFFF⟩, ⟨15, 0, .rw, 0, 0, 0xFFFF⟩]⟩,
  ⟨0x5004C, 4, 32, false, [⟨31, 16, .ro, 0, 0, 0xFFFF⟩, ⟨15, 0, .ro, 0, 0, 0xFFFF⟩]⟩,
  ⟨0x500C0, 4, 8, true, [⟨31, 31, .rw, 0, 0, 1⟩, ⟨30, 29, .rw, 0, 0, 2⟩, ⟨28, 24, .rw, 0, 0, 31⟩, ⟨23, 20, .rw, 0, 0, 15⟩, ⟨7, 0, .rw, 0, 0, 255⟩]⟩,
  ⟨0x500C4, 4, 8, true, [⟨31, 0, .rw, 0, 0, 0xFFFFFFFF⟩]⟩,
  ⟨0x500E0, 1, 0, true, [⟨31, 31, .rw, 0, 0, 1⟩, ⟨23, 16, .rw, 16, 0, 255⟩, ⟨15, 0, .rw, 100, 0, 0xFFFF⟩]⟩,
  ⟨0x500E4, 1, 0, false, [⟨31, 0, .ro, 0, 0, 0xFFFFFFFF⟩]⟩,
  ⟨0x50100, 16, 8, true, [⟨31, 30, .rw, 0, 0, 2⟩, ⟨29, 28, .rw, 0, 0, 3⟩, ⟨27, 27, .rw, 0, 0, 1⟩, ⟨24, 21, .rw, 0, 0, 15⟩, ⟨20, 17, .rw, 0, 0, 15⟩, ⟨16, 8, .rw, 0, 0, 511⟩]⟩,
  ⟨0x50104, 16, 8, true, [⟨31, 16, .rw, 0, 0, 0xFFFF⟩, ⟨15, 0, .rw, 0, 0, 0xFFFF⟩]⟩,
  ⟨0x50180, 1, 0, true, [⟨31, 16, .rw, 0x640, 0, 0xFFFF⟩, ⟨15, 0, .rw, 400, 48, 0xFFFF⟩]⟩,
  ⟨0x50184, 1, 0, true, [⟨31, 24, .rw, 128, 0, 255⟩, ⟨23, 16, .rw, 64, 0, 255⟩]⟩]

/-- Registers of block MOD: MOD_DL_STATUS to MOD_SH_ID. -/
def mapMod1 : List RegD := [
  ⟨0x50190, 1, 0, false, [⟨7, 7, .ro, 0, 0, 1⟩, ⟨6, 0, .ro, 0, 0, 127⟩]⟩,
  ⟨0x50194, 1, 0, true, [⟨9, 9, .ro, 0, 0, 1⟩, ⟨8, 8, .ro, 0, 0, 1⟩, ⟨0, 0, .wo, 0, 0, 1⟩]⟩,
  ⟨0x50200, 1, 0, true, [⟨22, 16, .ro, 0, 0, 127⟩, ⟨8, 8, .ro, 0, 0, 1⟩, ⟨2, 2, .wo, 0, 0, 1⟩, ⟨1, 1, .wo, 0, 0, 1⟩, ⟨0, 0, .wo, 0, 0, 1⟩]⟩,
  ⟨0x50208, 1, 0, true, [⟨31, 0, .rw, 0, 0, 0xFFFFFFFF⟩]⟩,
  ⟨0x5020C, 1, 0, true, [⟨15, 0, .rw, 0, 0, 0xFFFF⟩]⟩,
  ⟨0x50210, 1, 0, true, [⟨31, 0, .rw, 0, 0, 0xFFFFFFFF⟩]⟩,
  ⟨0x50214, 1, 0, true, [⟨15, 0, .rw, 0, 0, 0xFFFF⟩]⟩,
  ⟨0x50218, 1, 0, true, [⟨31, 0, .rw, 0, 0, 0xFFFFFFFF⟩]⟩,
  ⟨0x5021C, 1, 0, true, [⟨15, 0, .rw, 0, 0, 0xFFFF⟩]⟩,
  ⟨0x50220, 1, 0, true, [⟨31, 0, .rw, 0, 0, 0xFFFFFFFF⟩]⟩,
  ⟨0x50224, 1, 0, true, [⟨15, 0, .rw, 0, 0, 0xFFFF⟩]⟩,
  ⟨0x50228, 1, 0, true, [⟨31, 0, .rw, 0, 0, 0xFFFFFFFF⟩]⟩,
  ⟨0x5022C, 1, 0, true, [⟨15, 0, .rw, 0, 0, 0xFFFF⟩]⟩,
  ⟨0x50230, 1, 0, true, [⟨31, 0, .rw, 0, 0, 0xFFFFFFFF⟩]⟩,
  ⟨0x50234, 1, 0, true, [⟨15, 0, .rw, 0, 0, 0xFFFF⟩]⟩,
  ⟨0x50238, 1, 0, true, [⟨31, 0, .rw, 0, 0, 0xFFFFFFFF⟩]⟩,
  ⟨0x5023C, 1, 0, true, [⟨15, 0, .rw, 0, 0, 0xFFFF⟩]⟩,
  ⟨0x50240, 1, 0, true, [⟨31, 0, .rw, 0, 0, 0xFFFFFFFF⟩]⟩,
  ⟨0x50244, 1, 0, true, [⟨15, 0, .rw, 0, 0, 0xFFFF⟩]⟩,
  ⟨0x50248, 1, 0, true, [⟨31, 0, .rw, 0, 0, 0xFFFFFFFF⟩]⟩]

/-- Registers of block MOD: MOD_SH_ID_H to MOD_CUT_CNT. -/
def mapMod2 : List RegD := [
  ⟨0x5024C, 1, 0, true, [⟨15, 0, .rw, 0, 0, 0xFFFF⟩]⟩,
  ⟨0x50250, 1, 0, true, [⟨31, 0, .rw, 0, 0, 0xFFFFFFFF⟩]⟩,
  ⟨0x50254, 1, 0, true, [⟨15, 0, .rw, 0, 0, 0xFFFF⟩]⟩,
  ⟨0x50258, 1, 0, true, [⟨31, 0, .rw, 0, 0, 0xFFFFFFFF⟩]⟩,
  ⟨0x5025C, 1, 0, true, [⟨15, 0, .rw, 0, 0, 0xFFFF⟩]⟩,
  ⟨0x50260, 1, 0, true, [⟨31, 0, .rw, 0, 0, 0xFFFFFFFF⟩]⟩,
  ⟨0x50264, 1, 0, true, [⟨15, 0, .rw, 0, 0, 0xFFFF⟩]⟩,
  ⟨0x50268, 1, 0, true, [⟨31, 0, .rw, 0, 0, 0xFFFFFFFF⟩]⟩,
  ⟨0x5026C, 1, 0, true, [⟨15, 0, .rw, 0, 0, 0xFFFF⟩]⟩,
  ⟨0x50270, 1, 0, true, [⟨31, 0, .rw, 0, 0, 0xFFFFFFFF⟩]⟩,
  ⟨0x50274, 1, 0, true, [⟨15, 0, .rw, 0, 0, 0xFFFF⟩]⟩,
  ⟨0x50278, 1, 0, true, [⟨31, 0, .rw, 0, 0, 0xFFFFFFFF⟩]⟩,
  ⟨0x5027C, 1, 0, true, [⟨15, 0, .rw, 0, 0, 0xFFFF⟩]⟩,
  ⟨0x50300, 1, 0, false, [⟨31, 31, .w1c, 0, 0, 1⟩, ⟨15, 0, .ro, 0, 0, 0xFFFF⟩]⟩,
  ⟨0x50304, 1, 0, false, [⟨31, 31, .w1c, 0, 0, 1⟩, ⟨15, 0, .ro, 0, 0, 0xFFFF⟩]⟩,
  ⟨0x50308, 1, 0, false, [⟨31, 31, .w1c, 0, 0, 1⟩, ⟨15, 0, .ro, 0, 0, 0xFFFF⟩]⟩,
  ⟨0x5030C, 1, 0, false, [⟨31, 31, .w1c, 0, 0, 1⟩, ⟨15, 0, .ro, 0, 0, 0xFFFF⟩]⟩,
  ⟨0x50310, 1, 0, false, [⟨31, 31, .w1c, 0, 0, 1⟩, ⟨15, 0, .ro, 0, 0, 0xFFFF⟩]⟩,
  ⟨0x50314, 1, 0, false, [⟨31, 31, .w1c, 0, 0, 1⟩, ⟨15, 0, .ro, 0, 0, 0xFFFF⟩]⟩,
  ⟨0x50318, 1, 0, false, [⟨31, 31, .w1c, 0, 0, 1⟩, ⟨15, 0, .ro, 0, 0, 0xFFFF⟩]⟩]

/-- Registers of block MOD: MOD_TRIG_SKIP_CNT to MOD_PAT_RANGE_CNT. -/
def mapMod3 : List RegD := [
  ⟨0x5031C, 1, 0, false, [⟨31, 31, .w1c, 0, 0, 1⟩, ⟨15, 0, .ro, 0, 0, 0xFFFF⟩]⟩,
  ⟨0x50320, 1, 0, false, [⟨31, 31, .w1c, 0, 0, 1⟩, ⟨15, 0, .ro, 0, 0, 0xFFFF⟩]⟩,
  ⟨0x50324, 1, 0, false, [⟨31, 31, .w1c, 0, 0, 1⟩, ⟨15, 0, .ro, 0, 0, 0xFFFF⟩]⟩,
  ⟨0x50328, 1, 0, false, [⟨31, 31, .w1c, 0, 0, 1⟩, ⟨15, 0, .ro, 0, 0, 0xFFFF⟩]⟩,
  ⟨0x5032C, 1, 0, false, [⟨31, 31, .w1c, 0, 0, 1⟩, ⟨15, 0, .ro, 0, 0, 0xFFFF⟩]⟩]

/-- All registers of block MOD. -/
def mapMod : List RegD := mapMod0 ++ mapMod1 ++ mapMod2 ++ mapMod3

/-- Registers of block LEG: LEG_CTRL to LEG_PORT_TEST. -/
def mapLeg0 : List RegD := [
  ⟨0x60000, 1, 0, true, [⟨31, 31, .rw, 0, 0, 1⟩, ⟨23, 16, .rw, 5, 1, 255⟩, ⟨13, 8, .rw, 8, 0, 63⟩, ⟨0, 0, .wo, 0, 0, 1⟩]⟩,
  ⟨0x60004, 1, 0, false, [⟨16, 16, .w1c, 0, 0, 1⟩, ⟨15, 12, .ro, 0, 0, 15⟩, ⟨11, 8, .ro, 0, 0, 15⟩, ⟨7, 4, .ro, 0, 0, 15⟩, ⟨3, 0, .ro, 0, 0, 15⟩]⟩,
  ⟨0x60100, 4, 128, true, [⟨31, 31, .rw, 0, 0, 1⟩, ⟨30, 30, .rw, 0, 0, 1⟩, ⟨27, 26, .rw, 3, 0, 3⟩, ⟨25, 24, .rw, 3, 0, 3⟩, ⟨23, 22, .rw, 3, 0, 3⟩, ⟨21, 20, .rw, 3, 0, 3⟩, ⟨16, 7, .rw, 300, 100, 0x3E8⟩, ⟨6, 0, .rw, 40, 4, 127⟩]⟩,
  ⟨0x60104, 4, 128, true, [⟨31, 16, .rw, 0x7D0, 100, 0x2710⟩, ⟨11, 0, .rw, 400, 80, 0xFA0⟩]⟩,
  ⟨0x60108, 4, 128, false, [⟨31, 16, .rw, 819, 1, 0x7FFF⟩, ⟨15, 0, .rw, 205, 1, 0x7FFF⟩]⟩,
  ⟨0x6010C, 4, 128, false, [⟨15, 0, .rw, 0x800, 1, 0x7FFF⟩]⟩,
  ⟨0x60110, 4, 128, false, [⟨31, 16, .rw, 0x5A0, 0, 0xFFFF⟩, ⟨15, 0, .rw, 960, 0, 0xFFFF⟩]⟩,
  ⟨0x60114, 4, 128, false, [⟨15, 0, .rw, 0x6E0, 0, 0xFFFF⟩]⟩,
  ⟨0x60118, 4, 128, false, [⟨31, 28, .rw, 0, 0, 15⟩, ⟨27, 24, .rw, 0, 0, 15⟩, ⟨23, 20, .rw, 0, 0, 15⟩, ⟨19, 16, .rw, 0, 0, 15⟩, ⟨15, 12, .rw, 0, 0, 15⟩, ⟨11, 8, .rw, 0, 0, 15⟩, ⟨7, 4, .rw, 0, 0, 15⟩, ⟨3, 0, .rw, 0, 0, 15⟩]⟩,
  ⟨0x6011C, 4, 128, false, [⟨31, 28, .rw, 0, 0, 15⟩, ⟨27, 24, .rw, 0, 0, 15⟩, ⟨23, 20, .rw, 0, 0, 15⟩, ⟨19, 16, .rw, 0, 0, 15⟩, ⟨15, 12, .rw, 0, 0, 15⟩, ⟨11, 8, .rw, 0, 0, 15⟩, ⟨7, 4, .rw, 0, 0, 15⟩, ⟨3, 0, .rw, 0, 0, 15⟩]⟩,
  ⟨0x60120, 4, 128, false, [⟨31, 28, .rw, 0, 0, 15⟩, ⟨27, 24, .rw, 0, 0, 15⟩, ⟨23, 20, .rw, 0, 0, 15⟩, ⟨19, 16, .rw, 0, 0, 15⟩, ⟨15, 12, .rw, 0, 0, 15⟩, ⟨11, 8, .rw, 0, 0, 15⟩, ⟨7, 4, .rw, 0, 0, 15⟩, ⟨3, 0, .rw, 0, 0, 15⟩]⟩,
  ⟨0x60124, 4, 128, false, [⟨31, 28, .rw, 0, 0, 15⟩, ⟨27, 24, .rw, 0, 0, 15⟩, ⟨23, 20, .rw, 0, 0, 15⟩, ⟨19, 16, .rw, 0, 0, 15⟩, ⟨15, 12, .rw, 0, 0, 15⟩, ⟨11, 8, .rw, 0, 0, 15⟩, ⟨7, 4, .rw, 0, 0, 15⟩, ⟨3, 0, .rw, 0, 0, 15⟩]⟩,
  ⟨0x60128, 4, 128, true, [⟨7, 4, .rw, 0, 0, 14⟩, ⟨3, 0, .rw, 0, 0, 14⟩]⟩,
  ⟨0x6012C, 4, 128, false, [⟨4, 4, .wo, 0, 0, 1⟩, ⟨3, 3, .wo, 0, 0, 1⟩, ⟨2, 2, .wo, 0, 0, 1⟩, ⟨1, 1, .wo, 0, 0, 1⟩, ⟨0, 0, .wo, 0, 0, 1⟩]⟩,
  ⟨0x60130, 4, 128, false, [⟨31, 29, .ro, 0, 0, 7⟩, ⟨28, 26, .ro, 0, 0, 7⟩, ⟨25, 25, .ro, 0, 0, 1⟩, ⟨24, 24, .ro, 0, 0, 1⟩, ⟨23, 23, .ro, 0, 0, 1⟩, ⟨22, 22, .ro, 0, 0, 1⟩, ⟨21, 21, .ro, 0, 0, 1⟩, ⟨20, 20, .ro, 0, 0, 1⟩, ⟨19, 19, .ro, 0, 0, 1⟩, ⟨18, 18, .ro, 0, 0, 1⟩, ⟨17, 17, .ro, 0, 0, 1⟩, ⟨16, 16, .ro, 0, 0, 1⟩, ⟨15, 15, .ro, 0, 0, 1⟩, ⟨14, 14, .ro, 0, 0, 1⟩, ⟨13, 13, .w1c, 0, 0, 1⟩, ⟨12, 12, .w1c, 0, 0, 1⟩, ⟨11, 11, .w1c, 0, 0, 1⟩, ⟨10, 10, .w1c, 0, 0, 1⟩, ⟨9, 9, .ro, 0, 0, 1⟩, ⟨8, 8, .ro, 0, 0, 1⟩, ⟨7, 6, .ro, 0, 0, 3⟩]⟩,
  ⟨0x60134, 4, 128, false, [⟨15, 12, .ro, 0, 0, 15⟩, ⟨8, 8, .ro, 0, 0, 1⟩, ⟨7, 0, .ro, 0, 0, 255⟩]⟩,
  ⟨0x60138, 4, 128, false, [⟨31, 16, .ro, 0, 0, 0xFFFF⟩, ⟨15, 0, .ro, 0, 0, 0xFFFF⟩]⟩,
  ⟨0x6013C, 4, 128, false, [⟨31, 16, .ro, 0, 0, 0xFFFF⟩, ⟨15, 0, .ro, 0, 0, 0xFFFF⟩]⟩,
  ⟨0x60140, 4, 128, false, [⟨31, 16, .ro, 0, 0, 0xFFFF⟩, ⟨15, 8, .ro, 0, 0, 255⟩, ⟨7, 0, .ro, 0, 0, 255⟩]⟩,
  ⟨0x60144, 4, 128, false, [⟨15, 12, .ro, 0, 0, 15⟩, ⟨6, 0, .ro, 0, 0, 127⟩]⟩]

/-- Registers of block LEG: LEG_PORT_LANE to LEG_PORT_SPLICE_CNT. -/
def mapLeg1 : List RegD := [
  ⟨0x60148, 4, 128, true, [⟨31, 31, .rw, 1, 0, 1⟩, ⟨7, 0, .rw, 64, 1, 255⟩]⟩,
  ⟨0x60150, 4, 128, false, [⟨31, 31, .w1c, 0, 0, 1⟩, ⟨15, 0, .ro, 0, 0, 0xFFFF⟩]⟩,
  ⟨0x60154, 4, 128, false, [⟨31, 31, .w1c, 0, 0, 1⟩, ⟨15, 0, .ro, 0, 0, 0xFFFF⟩]⟩,
  ⟨0x60158, 4, 128, false, [⟨31, 31, .w1c, 0, 0, 1⟩, ⟨15, 0, .ro, 0, 0, 0xFFFF⟩]⟩,
  ⟨0x6015C, 4, 128, false, [⟨31, 31, .w1c, 0, 0, 1⟩, ⟨15, 0, .ro, 0, 0, 0xFFFF⟩]⟩,
  ⟨0x60160, 4, 128, false, [⟨31, 31, .w1c, 0, 0, 1⟩, ⟨15, 0, .ro, 0, 0, 0xFFFF⟩]⟩,
  ⟨0x60164, 4, 128, false, [⟨31, 31, .w1c, 0, 0, 1⟩, ⟨15, 0, .ro, 0, 0, 0xFFFF⟩]⟩,
  ⟨0x60168, 4, 128, false, [⟨31, 31, .w1c, 0, 0, 1⟩, ⟨15, 0, .ro, 0, 0, 0xFFFF⟩]⟩,
  ⟨0x6016C, 4, 128, false, [⟨31, 31, .w1c, 0, 0, 1⟩, ⟨15, 0, .ro, 0, 0, 0xFFFF⟩]⟩,
  ⟨0x60170, 4, 128, false, [⟨31, 31, .w1c, 0, 0, 1⟩, ⟨15, 0, .ro, 0, 0, 0xFFFF⟩]⟩]

/-- All registers of block LEG. -/
def mapLeg : List RegD := mapLeg0 ++ mapLeg1

/-- Registers of block PROF: LEG_PROFILE to LEG_PROFILE. -/
def mapProf : List RegD := [
  ⟨0xC0000, 256, 4, false, [⟨15, 10, .rw, 0, 0, 63⟩, ⟨9, 0, .rw, 0, 0, 0x3FF⟩]⟩]

/-- Registers of block PLT: PLT_VOTE_STATUS to PLT_SPEED_BAND. -/
def mapPlt0 : List RegD := [
  ⟨0x70000, 1, 0, false, [⟨27, 26, .ro, 0, 0, 3⟩, ⟨18, 16, .ro, 0, 0, 7⟩, ⟨10, 8, .ro, 0, 0, 7⟩, ⟨3, 0, .ro, 0, 0, 15⟩]⟩,
  ⟨0x70004, 1, 0, true, [⟨31, 31, .rw, 1, 0, 1⟩, ⟨27, 16, .rw, 0x3E8, 1, 0xFFF⟩, ⟨3, 0, .rw, 3, 1, 15⟩]⟩,
  ⟨0x70008, 1, 0, true, [⟨8, 8, .ro, 0, 0, 1⟩, ⟨7, 4, .ro, 0, 0, 15⟩, ⟨2, 2, .w1c, 0, 0, 1⟩, ⟨1, 1, .wo, 0, 0, 1⟩, ⟨0, 0, .wo, 0, 0, 1⟩]⟩,
  ⟨0x7000C, 1, 0, false, [⟨31, 30, .ro, 0, 0, 3⟩, ⟨29, 27, .ro, 0, 0, 7⟩, ⟨23, 0, .ro, 0, 0, 0xFFFFFF⟩]⟩,
  ⟨0x70010, 1, 0, false, [⟨31, 31, .w1c, 0, 0, 1⟩, ⟨15, 0, .ro, 0, 0, 0xFFFF⟩]⟩,
  ⟨0x70014, 1, 0, false, [⟨31, 31, .w1c, 0, 0, 1⟩, ⟨15, 0, .ro, 0, 0, 0xFFFF⟩]⟩,
  ⟨0x70018, 1, 0, false, [⟨31, 31, .w1c, 0, 0, 1⟩, ⟨15, 0, .ro, 0, 0, 0xFFFF⟩]⟩,
  ⟨0x70400, 1, 0, false, [⟨30, 30, .ro, 0, 0, 1⟩, ⟨29, 27, .ro, 0, 0, 7⟩, ⟨26, 25, .ro, 0, 0, 3⟩, ⟨24, 23, .ro, 0, 0, 3⟩, ⟨19, 16, .ro, 0, 0, 15⟩, ⟨15, 8, .ro, 0, 0, 255⟩, ⟨7, 0, .ro, 0, 0, 255⟩]⟩,
  ⟨0x70404, 1, 0, false, [⟨31, 31, .ro, 0, 0, 1⟩, ⟨15, 0, .ro, 0, 0, 0xFFFF⟩]⟩,
  ⟨0x70410, 8, 4, false, [⟨5, 0, .ro, 0, 0, 63⟩]⟩,
  ⟨0x70430, 1, 0, false, [⟨17, 16, .ro, 0, 0, 3⟩, ⟨13, 0, .ro, 0, 0, 0x3FFF⟩]⟩,
  ⟨0x70434, 1, 0, false, [⟨9, 9, .ro, 0, 0, 1⟩, ⟨8, 8, .ro, 0, 0, 1⟩, ⟨2, 0, .ro, 0, 0, 7⟩]⟩,
  ⟨0x70440, 1, 0, false, [⟨17, 16, .ro, 0, 0, 3⟩, ⟨15, 0, .ro, 0, 0, 0xFFFF⟩]⟩,
  ⟨0x70444, 1, 0, false, [⟨31, 31, .w1c, 0, 0, 1⟩, ⟨15, 0, .ro, 0, 0, 0xFFFF⟩]⟩,
  ⟨0x70448, 1, 0, false, [⟨15, 0, .ro, 0, 0, 0xFFFF⟩]⟩,
  ⟨0x7044C, 1, 0, false, [⟨31, 31, .w1c, 0, 0, 1⟩, ⟨15, 0, .ro, 0, 0, 0xFFFF⟩]⟩,
  ⟨0x70800, 1, 0, true, [⟨9, 8, .rw, 1, 1, 3⟩, ⟨7, 7, .rw, 0, 0, 1⟩, ⟨6, 6, .rw, 0, 0, 1⟩, ⟨0, 0, .wo, 0, 0, 1⟩]⟩,
  ⟨0x70804, 1, 0, true, [⟨31, 24, .rw, 30, 10, 255⟩, ⟨23, 16, .rw, 10, 0, 100⟩, ⟨15, 8, .rw, 10, 2, 100⟩]⟩,
  ⟨0x70808, 1, 0, true, [⟨31, 16, .rw, 200, 10, 0x2710⟩]⟩,
  ⟨0x7080C, 1, 0, true, [⟨31, 16, .rw, 160, 0, 0xFFFF⟩, ⟨15, 0, .rw, 0xC80, 1, 0xFFFF⟩]⟩]

/-- Registers of block PLT: PLT_PS_SRC to PLT_SEIZE_CNT. -/
def mapPlt1 : List RegD := [
  ⟨0x70810, 1, 0, true, [⟨31, 31, .rw, 0, 0, 1⟩, ⟨30, 30, .rw, 1, 0, 1⟩, ⟨23, 16, .rw, 40, 1, 255⟩, ⟨5, 4, .rw, 0, 0, 3⟩, ⟨3, 2, .rw, 0, 0, 3⟩, ⟨1, 0, .rw, 0, 0, 3⟩]⟩,
  ⟨0x70814, 1, 0, false, [⟨27, 24, .ro, 0, 0, 15⟩, ⟨21, 20, .ro, 0, 0, 3⟩, ⟨19, 19, .ro, 0, 0, 1⟩, ⟨18, 18, .ro, 0, 0, 1⟩, ⟨17, 16, .ro, 2, 0, 3⟩, ⟨15, 15, .ro, 1, 0, 1⟩, ⟨13, 8, .ro, 0, 0, 63⟩, ⟨3, 0, .ro, 0, 0, 15⟩]⟩,
  ⟨0x70820, 1, 0, true, [⟨31, 16, .rw, 0x6180, 0, 0xFFFF⟩, ⟨15, 0, .rw, 0x6040, 0, 0xFFFF⟩]⟩,
  ⟨0x70824, 1, 0, true, [⟨31, 16, .rw, 0x6540, 0, 0xFFFF⟩, ⟨15, 0, .rw, 0x62C0, 0, 0xFFFF⟩]⟩,
  ⟨0x70828, 1, 0, true, [⟨31, 16, .rw, 0x6CC0, 0, 0xFFFF⟩, ⟨15, 0, .rw, 0x6900, 0, 0xFFFF⟩]⟩,
  ⟨0x7082C, 1, 0, true, [⟨31, 31, .rw, 0, 0, 1⟩, ⟨29, 26, .rw, 11, 0, 15⟩, ⟨25, 16, .rw, 100, 20, 500⟩, ⟨15, 0, .rw, 41, 1, 0x7FFF⟩]⟩,
  ⟨0x70840, 1, 0, true, [⟨31, 31, .rw, 0, 0, 1⟩, ⟨30, 30, .rw, 1, 0, 1⟩, ⟨29, 29, .rw, 1, 0, 1⟩, ⟨23, 16, .rw, 8, 1, 255⟩, ⟨15, 0, .rw, 50, 1, 0x3E8⟩]⟩,
  ⟨0x70844, 1, 0, true, [⟨31, 16, .rw, 82, 0, 0xFFFF⟩, ⟨15, 0, .rw, 410, 0, 0xFFFF⟩]⟩,
  ⟨0x70848, 1, 0, false, [⟨31, 0, .ro, 0, 0, 0xFFFFFFFF⟩]⟩,
  ⟨0x7084C, 1, 0, false, [⟨15, 0, .ro, 0, 0, 0xFFFF⟩]⟩,
  ⟨0x70850, 1, 0, false, [⟨31, 16, .ro, 0, 0, 0xFFFF⟩, ⟨15, 0, .ro, 0, 0, 0xFFFF⟩]⟩,
  ⟨0x70860, 1, 0, true, [⟨31, 31, .rw, 0, 0, 1⟩, ⟨30, 16, .rw, 200, 2, 0x2710⟩, ⟨7, 0, .rw, 20, 1, 100⟩]⟩,
  ⟨0x70870, 1, 0, true, [⟨31, 30, .rw, 0, 0, 2⟩, ⟨29, 29, .rw, 0, 0, 1⟩, ⟨15, 0, .rw, 960, 0, 0xFFFF⟩]⟩,
  ⟨0x70874, 1, 0, true, [⟨31, 16, .rw, 16, 0, 0xFFFF⟩, ⟨15, 0, .rw, 0x7D0, 100, 0xEA60⟩]⟩,
  ⟨0x70878, 1, 0, true, [⟨15, 0, .rw, 0, 0, 0xFFFF⟩]⟩,
  ⟨0x70880, 1, 0, false, [⟨31, 28, .ro, 0, 0, 15⟩, ⟨23, 23, .ro, 0, 0, 1⟩, ⟨22, 22, .ro, 0, 0, 1⟩, ⟨21, 20, .ro, 0, 0, 3⟩, ⟨19, 19, .ro, 0, 0, 1⟩, ⟨18, 18, .ro, 0, 0, 1⟩, ⟨17, 17, .ro, 0, 0, 1⟩, ⟨16, 16, .ro, 0, 0, 1⟩, ⟨5, 4, .ro, 0, 0, 3⟩, ⟨3, 0, .ro, 15, 0, 15⟩]⟩,
  ⟨0x70884, 1, 0, true, [⟨7, 0, .rw, 192, 1, 255⟩]⟩,
  ⟨0x70888, 1, 0, false, [⟨31, 24, .ro, 0, 0, 255⟩, ⟨23, 16, .ro, 0, 0, 255⟩, ⟨15, 8, .ro, 0, 0, 255⟩, ⟨7, 0, .ro, 0, 0, 255⟩]⟩,
  ⟨0x7088C, 1, 0, false, [⟨7, 4, .ro, 0, 0, 15⟩, ⟨0, 0, .w1c, 0, 0, 1⟩]⟩,
  ⟨0x708C0, 1, 0, false, [⟨31, 31, .w1c, 0, 0, 1⟩, ⟨15, 0, .ro, 0, 0, 0xFFFF⟩]⟩]

/-- Registers of block PLT: PLT_LATCH_STALE_CNT to PLT_FRESH_CNT. -/
def mapPlt2 : List RegD := [
  ⟨0x708C4, 1, 0, false, [⟨31, 31, .w1c, 0, 0, 1⟩, ⟨15, 0, .ro, 0, 0, 0xFFFF⟩]⟩,
  ⟨0x708C8, 1, 0, false, [⟨31, 31, .w1c, 0, 0, 1⟩, ⟨15, 0, .ro, 0, 0, 0xFFFF⟩]⟩,
  ⟨0x708CC, 1, 0, false, [⟨31, 31, .w1c, 0, 0, 1⟩, ⟨15, 0, .ro, 0, 0, 0xFFFF⟩]⟩]

/-- All registers of block PLT. -/
def mapPlt : List RegD := mapPlt0 ++ mapPlt1 ++ mapPlt2

/-- Registers of block NVM: NVM_CFG_STATUS to NVM_CFG_GEN_H. -/
def mapNvm : List RegD := [
  ⟨0x840100, 1, 0, false, [⟨23, 20, .ro, 0, 0, 15⟩, ⟨9, 9, .ro, 0, 0, 1⟩, ⟨8, 8, .ro, 0, 0, 1⟩, ⟨5, 4, .ro, 0, 0, 3⟩, ⟨3, 2, .ro, 0, 0, 3⟩, ⟨1, 0, .ro, 0, 0, 3⟩]⟩,
  ⟨0x840108, 1, 0, false, [⟨31, 0, .ro, 0, 0, 0xFFFFFFFF⟩]⟩,
  ⟨0x84010C, 1, 0, false, [⟨15, 0, .ro, 0, 0, 0xFFFF⟩]⟩]

/-- Registers of block HIF: HIF_STATUS to HIF_MSIX_TABLE. -/
def mapHif0 : List RegD := [
  ⟨0x800000, 1, 0, false, [⟨31, 31, .ro, 0, 0, 1⟩, ⟨30, 30, .ro, 0, 0, 1⟩, ⟨29, 29, .ro, 0, 0, 1⟩, ⟨19, 16, .ro, 0, 0, 15⟩, ⟨13, 8, .ro, 0, 0, 63⟩]⟩,
  ⟨0x800004, 1, 0, false, [⟨0, 0, .rw, 0, 0, 1⟩]⟩,
  ⟨0x800010, 1, 0, true, [⟨31, 0, .rw, 0, 0, 0xFFFFFFFF⟩]⟩,
  ⟨0x800014, 1, 0, true, [⟨31, 0, .rw, 0, 0, 0xFFFFFFFF⟩]⟩,
  ⟨0x800018, 1, 0, true, [⟨31, 0, .rw, 0, 0, 0xFFFFFFFF⟩]⟩,
  ⟨0x80001C, 1, 0, true, [⟨31, 0, .rw, 0, 0, 0xFFFFFFFF⟩]⟩,
  ⟨0x800020, 1, 0, true, [⟨31, 31, .rw, 0, 0, 1⟩, ⟨21, 16, .rw, 0, 0, 63⟩, ⟨11, 8, .rw, 6, 4, 12⟩, ⟨3, 0, .rw, 4, 4, 12⟩]⟩,
  ⟨0x800030, 1, 0, true, [⟨31, 24, .rw, 8, 0, 255⟩, ⟨23, 16, .rw, 255, 0, 255⟩, ⟨15, 8, .rw, 32, 0, 255⟩, ⟨7, 0, .rw, 255, 0, 255⟩]⟩,
  ⟨0x800034, 1, 0, true, [⟨5, 0, .rw, 8, 1, 63⟩]⟩,
  ⟨0x800040, 1, 0, false, [⟨31, 31, .w1c, 0, 0, 1⟩, ⟨15, 0, .ro, 0, 0, 0xFFFF⟩]⟩,
  ⟨0x800044, 1, 0, false, [⟨31, 31, .w1c, 0, 0, 1⟩, ⟨15, 0, .ro, 0, 0, 0xFFFF⟩]⟩,
  ⟨0x800048, 1, 0, false, [⟨31, 31, .w1c, 0, 0, 1⟩, ⟨15, 0, .ro, 0, 0, 0xFFFF⟩]⟩,
  ⟨0x80004C, 1, 0, false, [⟨31, 31, .w1c, 0, 0, 1⟩, ⟨15, 0, .ro, 0, 0, 0xFFFF⟩]⟩,
  ⟨0x800050, 1, 0, false, [⟨31, 31, .w1c, 0, 0, 1⟩, ⟨15, 0, .ro, 0, 0, 0xFFFF⟩]⟩,
  ⟨0x800054, 1, 0, false, [⟨31, 31, .w1c, 0, 0, 1⟩, ⟨15, 0, .ro, 0, 0, 0xFFFF⟩]⟩,
  ⟨0x800058, 1, 0, false, [⟨31, 31, .w1c, 0, 0, 1⟩, ⟨15, 0, .ro, 0, 0, 0xFFFF⟩]⟩,
  ⟨0x800400, 64, 4, false, [⟨25, 16, .rw, 0, 0, 0x3FF⟩, ⟨7, 0, .rw, 1, 1, 255⟩]⟩,
  ⟨0x801000, 256, 16, false, [⟨31, 31, .ro, 0, 0, 1⟩, ⟨30, 30, .ro, 0, 0, 1⟩, ⟨29, 28, .ro, 0, 0, 3⟩, ⟨27, 24, .ro, 0, 0, 15⟩, ⟨23, 20, .ro, 0, 0, 15⟩, ⟨13, 8, .ro, 0, 0, 63⟩, ⟨7, 4, .ro, 0, 0, 15⟩, ⟨3, 0, .ro, 0, 0, 15⟩]⟩,
  ⟨0x801004, 256, 16, false, [⟨27, 16, .ro, 0, 0, 0xFFF⟩, ⟨11, 0, .ro, 0, 0, 0xFFF⟩]⟩,
  ⟨0x808000, 256, 4, false, [⟨31, 0, .rw, 0, 0, 0xFFFFFFFF⟩]⟩]

/-- Registers of block HIF: HIF_MSIX_PBA to HIF_MSIX_PBA. -/
def mapHif1 : List RegD := [
  ⟨0x809000, 2, 4, false, [⟨31, 0, .ro, 0, 0, 0xFFFFFFFF⟩]⟩]

/-- All registers of block HIF. -/
def mapHif : List RegD := mapHif0 ++ mapHif1

/-- Registers of block STR: STR_CTRL to STR_STREAM_DROP_CNT. -/
def mapStr : List RegD := [
  ⟨0x90000, 1, 0, true, [⟨1, 1, .w1c, 0, 0, 1⟩, ⟨0, 0, .wo, 0, 0, 1⟩]⟩,
  ⟨0x90100, 16, 32, true, [⟨31, 31, .rw, 0, 0, 1⟩, ⟨30, 24, .rw, 16, 4, 64⟩, ⟨23, 16, .rw, 240, 16, 240⟩, ⟨15, 0, .rw, 100, 1, 0xFFFF⟩]⟩,
  ⟨0x90104, 16, 32, false, [⟨31, 31, .ro, 0, 0, 1⟩, ⟨29, 16, .ro, 0, 0, 0x3FFF⟩, ⟨8, 0, .ro, 0, 0, 511⟩]⟩,
  ⟨0x90108, 16, 32, false, [⟨15, 0, .ro, 0, 0, 0xFFFF⟩]⟩,
  ⟨0x9010C, 16, 32, false, [⟨0, 0, .wo, 0, 0, 1⟩]⟩,
  ⟨0x90110, 16, 32, false, [⟨31, 31, .w1c, 0, 0, 1⟩, ⟨30, 0, .ro, 0, 0, 0x7FFFFFFF⟩]⟩]

/-- Registers of block CAN: CAN_CTRL to CAN0_HP_DATA2. -/
def mapCan0 : List RegD := [
  ⟨0x810000, 2, 16384, true, [⟨31, 31, .rw, 0, 0, 1⟩, ⟨30, 29, .rw, 0, 0, 2⟩, ⟨28, 28, .rw, 1, 0, 1⟩, ⟨27, 27, .rw, 1, 0, 1⟩, ⟨26, 26, .rw, 1, 0, 1⟩, ⟨25, 25, .rw, 0, 0, 1⟩, ⟨24, 24, .rw, 1, 0, 1⟩, ⟨6, 0, .rw, 8, 0, 127⟩]⟩,
  ⟨0x810004, 2, 16384, false, [⟨31, 30, .ro, 0, 0, 3⟩, ⟨29, 29, .w1c, 0, 0, 1⟩, ⟨28, 28, .ro, 0, 0, 1⟩, ⟨27, 22, .ro, 0, 0, 63⟩, ⟨16, 8, .ro, 0, 0, 511⟩, ⟨7, 0, .ro, 0, 0, 255⟩]⟩,
  ⟨0x810008, 2, 16384, true, [⟨31, 27, .rw, 0, 0, 31⟩, ⟨26, 19, .rw, 126, 0, 255⟩, ⟨18, 12, .rw, 31, 0, 127⟩, ⟨11, 5, .rw, 31, 0, 127⟩]⟩,
  ⟨0x81000C, 2, 16384, true, [⟨31, 27, .rw, 0, 0, 31⟩, ⟨20, 16, .rw, 30, 0, 31⟩, ⟨11, 8, .rw, 7, 0, 15⟩, ⟨3, 0, .rw, 7, 0, 15⟩]⟩,
  ⟨0x810010, 2, 16384, true, [⟨31, 29, .rw, 0, 0, 6⟩, ⟨28, 24, .rw, 0, 0, 31⟩, ⟨23, 16, .rw, 16, 1, 255⟩, ⟨15, 0, .rw, 0x2710, 100, 0xFFFF⟩]⟩,
  ⟨0x810014, 2, 16384, true, [⟨29, 29, .rw, 0, 0, 1⟩, ⟨28, 0, .rw, 0, 0, 0x1FFFFFFF⟩]⟩,
  ⟨0x810018, 2, 16384, true, [⟨31, 16, .rw, 100, 0, 0xFFFF⟩, ⟨15, 0, .rw, 300, 0, 0xFFFF⟩]⟩,
  ⟨0x810020, 2, 16384, false, [⟨31, 31, .w1c, 0, 0, 1⟩, ⟨15, 0, .ro, 0, 0, 0xFFFF⟩]⟩,
  ⟨0x810024, 2, 16384, false, [⟨31, 31, .w1c, 0, 0, 1⟩, ⟨15, 0, .ro, 0, 0, 0xFFFF⟩]⟩,
  ⟨0x810028, 2, 16384, false, [⟨31, 31, .w1c, 0, 0, 1⟩, ⟨15, 0, .ro, 0, 0, 0xFFFF⟩]⟩,
  ⟨0x81002C, 2, 16384, false, [⟨31, 31, .w1c, 0, 0, 1⟩, ⟨15, 0, .ro, 0, 0, 0xFFFF⟩]⟩,
  ⟨0x810200, 4, 96, true, [⟨31, 31, .rw, 0, 0, 1⟩, ⟨29, 29, .rw, 0, 0, 1⟩, ⟨28, 0, .rw, 0, 0, 0x1FFFFFFF⟩]⟩,
  ⟨0x810204, 4, 96, true, [⟨28, 0, .rw, 0, 0, 0x1FFFFFFF⟩]⟩,
  ⟨0x810208, 4, 96, true, [⟨31, 31, .ro, 0, 0, 1⟩, ⟨30, 30, .w1c, 0, 0, 1⟩, ⟨29, 29, .w1c, 0, 0, 1⟩, ⟨28, 28, .rw, 0, 0, 1⟩, ⟨27, 27, .wo, 0, 0, 1⟩, ⟨26, 26, .wo, 0, 0, 1⟩, ⟨25, 25, .w1c, 0, 0, 1⟩, ⟨24, 24, .w1c, 0, 0, 1⟩, ⟨23, 20, .ro, 0, 0, 15⟩, ⟨19, 16, .wo, 0, 0, 15⟩, ⟨5, 0, .rw, 0, 0, 63⟩]⟩,
  ⟨0x81020C, 4, 96, true, [⟨31, 0, .ro, 0, 0, 0xFFFFFFFF⟩]⟩,
  ⟨0x810210, 4, 96, true, [⟨28, 28, .ro, 0, 0, 1⟩, ⟨27, 27, .ro, 0, 0, 1⟩, ⟨26, 26, .ro, 0, 0, 1⟩, ⟨25, 25, .ro, 0, 0, 1⟩, ⟨24, 24, .ro, 0, 0, 1⟩, ⟨23, 20, .ro, 0, 0, 15⟩]⟩,
  ⟨0x810214, 4, 96, true, [⟨28, 0, .ro, 0, 0, 0x1FFFFFFF⟩]⟩,
  ⟨0x810220, 4, 96, true, [⟨31, 0, .ro, 0, 0, 0xFFFFFFFF⟩]⟩,
  ⟨0x810224, 4, 96, true, [⟨31, 0, .ro, 0, 0, 0xFFFFFFFF⟩]⟩,
  ⟨0x810228, 4, 96, true, [⟨31, 0, .ro, 0, 0, 0xFFFFFFFF⟩]⟩]

/-- Registers of block CAN: CAN0_HP_DATA3 to CAN0_BUF_DATA0. -/
def mapCan1 : List RegD := [
  ⟨0x81022C, 4, 96, true, [⟨31, 0, .ro, 0, 0, 0xFFFFFFFF⟩]⟩,
  ⟨0x810230, 4, 96, true, [⟨31, 0, .ro, 0, 0, 0xFFFFFFFF⟩]⟩,
  ⟨0x810234, 4, 96, true, [⟨31, 0, .ro, 0, 0, 0xFFFFFFFF⟩]⟩,
  ⟨0x810238, 4, 96, true, [⟨31, 0, .ro, 0, 0, 0xFFFFFFFF⟩]⟩,
  ⟨0x81023C, 4, 96, true, [⟨31, 0, .ro, 0, 0, 0xFFFFFFFF⟩]⟩,
  ⟨0x810240, 4, 96, true, [⟨31, 0, .ro, 0, 0, 0xFFFFFFFF⟩]⟩,
  ⟨0x810244, 4, 96, true, [⟨31, 0, .ro, 0, 0, 0xFFFFFFFF⟩]⟩,
  ⟨0x810248, 4, 96, true, [⟨31, 0, .ro, 0, 0, 0xFFFFFFFF⟩]⟩,
  ⟨0x81024C, 4, 96, true, [⟨31, 0, .ro, 0, 0, 0xFFFFFFFF⟩]⟩,
  ⟨0x810250, 4, 96, true, [⟨31, 0, .ro, 0, 0, 0xFFFFFFFF⟩]⟩,
  ⟨0x810254, 4, 96, true, [⟨31, 0, .ro, 0, 0, 0xFFFFFFFF⟩]⟩,
  ⟨0x810258, 4, 96, true, [⟨31, 0, .ro, 0, 0, 0xFFFFFFFF⟩]⟩,
  ⟨0x81025C, 4, 96, true, [⟨31, 0, .ro, 0, 0, 0xFFFFFFFF⟩]⟩,
  ⟨0x810400, 64, 96, true, [⟨31, 31, .rw, 0, 0, 1⟩, ⟨30, 30, .rw, 0, 0, 1⟩, ⟨29, 29, .rw, 0, 0, 1⟩, ⟨28, 0, .rw, 0, 0, 0x1FFFFFFF⟩]⟩,
  ⟨0x810404, 64, 96, true, [⟨28, 0, .rw, 0, 0, 0x1FFFFFFF⟩]⟩,
  ⟨0x810408, 64, 96, true, [⟨31, 31, .ro, 0, 0, 1⟩, ⟨30, 30, .w1c, 0, 0, 1⟩, ⟨29, 29, .w1c, 0, 0, 1⟩, ⟨28, 28, .rw, 0, 0, 1⟩, ⟨27, 27, .wo, 0, 0, 1⟩, ⟨26, 26, .wo, 0, 0, 1⟩, ⟨25, 25, .w1c, 0, 0, 1⟩, ⟨24, 24, .w1c, 0, 0, 1⟩, ⟨23, 20, .ro, 0, 0, 15⟩, ⟨19, 16, .wo, 0, 0, 15⟩]⟩,
  ⟨0x81040C, 64, 96, true, [⟨31, 0, .ro, 0, 0, 0xFFFFFFFF⟩]⟩,
  ⟨0x810410, 64, 96, true, [⟨28, 28, .rw, 0, 0, 1⟩, ⟨27, 27, .rw, 0, 0, 1⟩, ⟨26, 26, .ro, 0, 0, 1⟩, ⟨25, 25, .rw, 0, 0, 1⟩, ⟨24, 24, .rw, 0, 0, 1⟩, ⟨23, 20, .rw, 0, 0, 15⟩]⟩,
  ⟨0x810414, 64, 96, true, [⟨28, 0, .ro, 0, 0, 0x1FFFFFFF⟩]⟩,
  ⟨0x810420, 64, 96, true, [⟨31, 0, .rw, 0, 0, 0xFFFFFFFF⟩]⟩]

/-- Registers of block CAN: CAN0_BUF_DATA1 to CAN1_HP_CTRL. -/
def mapCan2 : List RegD := [
  ⟨0x810424, 64, 96, true, [⟨31, 0, .rw, 0, 0, 0xFFFFFFFF⟩]⟩,
  ⟨0x810428, 64, 96, true, [⟨31, 0, .rw, 0, 0, 0xFFFFFFFF⟩]⟩,
  ⟨0x81042C, 64, 96, true, [⟨31, 0, .rw, 0, 0, 0xFFFFFFFF⟩]⟩,
  ⟨0x810430, 64, 96, true, [⟨31, 0, .rw, 0, 0, 0xFFFFFFFF⟩]⟩,
  ⟨0x810434, 64, 96, true, [⟨31, 0, .rw, 0, 0, 0xFFFFFFFF⟩]⟩,
  ⟨0x810438, 64, 96, true, [⟨31, 0, .rw, 0, 0, 0xFFFFFFFF⟩]⟩,
  ⟨0x81043C, 64, 96, true, [⟨31, 0, .rw, 0, 0, 0xFFFFFFFF⟩]⟩,
  ⟨0x810440, 64, 96, true, [⟨31, 0, .rw, 0, 0, 0xFFFFFFFF⟩]⟩,
  ⟨0x810444, 64, 96, true, [⟨31, 0, .rw, 0, 0, 0xFFFFFFFF⟩]⟩,
  ⟨0x810448, 64, 96, true, [⟨31, 0, .rw, 0, 0, 0xFFFFFFFF⟩]⟩,
  ⟨0x81044C, 64, 96, true, [⟨31, 0, .rw, 0, 0, 0xFFFFFFFF⟩]⟩,
  ⟨0x810450, 64, 96, true, [⟨31, 0, .rw, 0, 0, 0xFFFFFFFF⟩]⟩,
  ⟨0x810454, 64, 96, true, [⟨31, 0, .rw, 0, 0, 0xFFFFFFFF⟩]⟩,
  ⟨0x810458, 64, 96, true, [⟨31, 0, .rw, 0, 0, 0xFFFFFFFF⟩]⟩,
  ⟨0x81045C, 64, 96, true, [⟨31, 0, .rw, 0, 0, 0xFFFFFFFF⟩]⟩,
  ⟨0x811C00, 32, 4, true, [⟨15, 0, .rw, 0, 0, 0xFFFF⟩]⟩,
  ⟨0x812000, 512, 4, true, [⟨31, 0, .rw, 0, 0, 0xFFFFFFFF⟩]⟩,
  ⟨0x814200, 4, 96, true, [⟨31, 31, .rw, 0, 0, 1⟩, ⟨29, 29, .rw, 0, 0, 1⟩, ⟨28, 0, .rw, 0, 0, 0x1FFFFFFF⟩]⟩,
  ⟨0x814204, 4, 96, true, [⟨28, 0, .rw, 0, 0, 0x1FFFFFFF⟩]⟩,
  ⟨0x814208, 4, 96, true, [⟨31, 31, .ro, 0, 0, 1⟩, ⟨30, 30, .w1c, 0, 0, 1⟩, ⟨29, 29, .w1c, 0, 0, 1⟩, ⟨28, 28, .rw, 0, 0, 1⟩, ⟨27, 27, .wo, 0, 0, 1⟩, ⟨26, 26, .wo, 0, 0, 1⟩, ⟨25, 25, .w1c, 0, 0, 1⟩, ⟨24, 24, .w1c, 0, 0, 1⟩, ⟨23, 20, .ro, 0, 0, 15⟩, ⟨19, 16, .wo, 0, 0, 15⟩, ⟨5, 0, .rw, 0, 0, 63⟩]⟩]

/-- Registers of block CAN: CAN1_HP_STAMP to CAN1_BUF_CFG. -/
def mapCan3 : List RegD := [
  ⟨0x81420C, 4, 96, true, [⟨31, 0, .ro, 0, 0, 0xFFFFFFFF⟩]⟩,
  ⟨0x814210, 4, 96, true, [⟨28, 28, .ro, 0, 0, 1⟩, ⟨27, 27, .ro, 0, 0, 1⟩, ⟨26, 26, .ro, 0, 0, 1⟩, ⟨25, 25, .ro, 0, 0, 1⟩, ⟨24, 24, .ro, 0, 0, 1⟩, ⟨23, 20, .ro, 0, 0, 15⟩]⟩,
  ⟨0x814214, 4, 96, true, [⟨28, 0, .ro, 0, 0, 0x1FFFFFFF⟩]⟩,
  ⟨0x814220, 4, 96, true, [⟨31, 0, .ro, 0, 0, 0xFFFFFFFF⟩]⟩,
  ⟨0x814224, 4, 96, true, [⟨31, 0, .ro, 0, 0, 0xFFFFFFFF⟩]⟩,
  ⟨0x814228, 4, 96, true, [⟨31, 0, .ro, 0, 0, 0xFFFFFFFF⟩]⟩,
  ⟨0x81422C, 4, 96, true, [⟨31, 0, .ro, 0, 0, 0xFFFFFFFF⟩]⟩,
  ⟨0x814230, 4, 96, true, [⟨31, 0, .ro, 0, 0, 0xFFFFFFFF⟩]⟩,
  ⟨0x814234, 4, 96, true, [⟨31, 0, .ro, 0, 0, 0xFFFFFFFF⟩]⟩,
  ⟨0x814238, 4, 96, true, [⟨31, 0, .ro, 0, 0, 0xFFFFFFFF⟩]⟩,
  ⟨0x81423C, 4, 96, true, [⟨31, 0, .ro, 0, 0, 0xFFFFFFFF⟩]⟩,
  ⟨0x814240, 4, 96, true, [⟨31, 0, .ro, 0, 0, 0xFFFFFFFF⟩]⟩,
  ⟨0x814244, 4, 96, true, [⟨31, 0, .ro, 0, 0, 0xFFFFFFFF⟩]⟩,
  ⟨0x814248, 4, 96, true, [⟨31, 0, .ro, 0, 0, 0xFFFFFFFF⟩]⟩,
  ⟨0x81424C, 4, 96, true, [⟨31, 0, .ro, 0, 0, 0xFFFFFFFF⟩]⟩,
  ⟨0x814250, 4, 96, true, [⟨31, 0, .ro, 0, 0, 0xFFFFFFFF⟩]⟩,
  ⟨0x814254, 4, 96, true, [⟨31, 0, .ro, 0, 0, 0xFFFFFFFF⟩]⟩,
  ⟨0x814258, 4, 96, true, [⟨31, 0, .ro, 0, 0, 0xFFFFFFFF⟩]⟩,
  ⟨0x81425C, 4, 96, true, [⟨31, 0, .ro, 0, 0, 0xFFFFFFFF⟩]⟩,
  ⟨0x814400, 64, 96, true, [⟨31, 31, .rw, 0, 0, 1⟩, ⟨30, 30, .rw, 0, 0, 1⟩, ⟨29, 29, .rw, 0, 0, 1⟩, ⟨28, 0, .rw, 0, 0, 0x1FFFFFFF⟩]⟩]

/-- Registers of block CAN: CAN1_BUF_MASK to CAN1_BUF_DATA14. -/
def mapCan4 : List RegD := [
  ⟨0x814404, 64, 96, true, [⟨28, 0, .rw, 0, 0, 0x1FFFFFFF⟩]⟩,
  ⟨0x814408, 64, 96, true, [⟨31, 31, .ro, 0, 0, 1⟩, ⟨30, 30, .w1c, 0, 0, 1⟩, ⟨29, 29, .w1c, 0, 0, 1⟩, ⟨28, 28, .rw, 0, 0, 1⟩, ⟨27, 27, .wo, 0, 0, 1⟩, ⟨26, 26, .wo, 0, 0, 1⟩, ⟨25, 25, .w1c, 0, 0, 1⟩, ⟨24, 24, .w1c, 0, 0, 1⟩, ⟨23, 20, .ro, 0, 0, 15⟩, ⟨19, 16, .wo, 0, 0, 15⟩]⟩,
  ⟨0x81440C, 64, 96, true, [⟨31, 0, .ro, 0, 0, 0xFFFFFFFF⟩]⟩,
  ⟨0x814410, 64, 96, true, [⟨28, 28, .rw, 0, 0, 1⟩, ⟨27, 27, .rw, 0, 0, 1⟩, ⟨26, 26, .ro, 0, 0, 1⟩, ⟨25, 25, .rw, 0, 0, 1⟩, ⟨24, 24, .rw, 0, 0, 1⟩, ⟨23, 20, .rw, 0, 0, 15⟩]⟩,
  ⟨0x814414, 64, 96, true, [⟨28, 0, .ro, 0, 0, 0x1FFFFFFF⟩]⟩,
  ⟨0x814420, 64, 96, true, [⟨31, 0, .rw, 0, 0, 0xFFFFFFFF⟩]⟩,
  ⟨0x814424, 64, 96, true, [⟨31, 0, .rw, 0, 0, 0xFFFFFFFF⟩]⟩,
  ⟨0x814428, 64, 96, true, [⟨31, 0, .rw, 0, 0, 0xFFFFFFFF⟩]⟩,
  ⟨0x81442C, 64, 96, true, [⟨31, 0, .rw, 0, 0, 0xFFFFFFFF⟩]⟩,
  ⟨0x814430, 64, 96, true, [⟨31, 0, .rw, 0, 0, 0xFFFFFFFF⟩]⟩,
  ⟨0x814434, 64, 96, true, [⟨31, 0, .rw, 0, 0, 0xFFFFFFFF⟩]⟩,
  ⟨0x814438, 64, 96, true, [⟨31, 0, .rw, 0, 0, 0xFFFFFFFF⟩]⟩,
  ⟨0x81443C, 64, 96, true, [⟨31, 0, .rw, 0, 0, 0xFFFFFFFF⟩]⟩,
  ⟨0x814440, 64, 96, true, [⟨31, 0, .rw, 0, 0, 0xFFFFFFFF⟩]⟩,
  ⟨0x814444, 64, 96, true, [⟨31, 0, .rw, 0, 0, 0xFFFFFFFF⟩]⟩,
  ⟨0x814448, 64, 96, true, [⟨31, 0, .rw, 0, 0, 0xFFFFFFFF⟩]⟩,
  ⟨0x81444C, 64, 96, true, [⟨31, 0, .rw, 0, 0, 0xFFFFFFFF⟩]⟩,
  ⟨0x814450, 64, 96, true, [⟨31, 0, .rw, 0, 0, 0xFFFFFFFF⟩]⟩,
  ⟨0x814454, 64, 96, true, [⟨31, 0, .rw, 0, 0, 0xFFFFFFFF⟩]⟩,
  ⟨0x814458, 64, 96, true, [⟨31, 0, .rw, 0, 0, 0xFFFFFFFF⟩]⟩]

/-- Registers of block CAN: CAN1_BUF_DATA15 to CAN_FB_STALE_CNT. -/
def mapCan5 : List RegD := [
  ⟨0x81445C, 64, 96, true, [⟨31, 0, .rw, 0, 0, 0xFFFFFFFF⟩]⟩,
  ⟨0x815C00, 32, 4, true, [⟨15, 0, .rw, 0, 0, 0xFFFF⟩]⟩,
  ⟨0x816000, 512, 4, true, [⟨31, 0, .rw, 0, 0, 0xFFFFFFFF⟩]⟩,
  ⟨0x818000, 1, 0, false, [⟨31, 0, .ro, 0, 0, 0xFFFFFFFF⟩]⟩,
  ⟨0x818004, 1, 0, false, [⟨0, 0, .w1c, 0, 0, 1⟩]⟩,
  ⟨0x818008, 1, 0, false, [⟨7, 0, .w1c, 0, 0, 255⟩]⟩,
  ⟨0x818010, 1, 0, true, [⟨31, 31, .rw, 0, 0, 1⟩, ⟨30, 30, .rw, 0, 0, 1⟩, ⟨29, 29, .rw, 0, 0, 1⟩, ⟨28, 0, .rw, 0, 0, 0x1FFFFFFF⟩]⟩,
  ⟨0x818014, 1, 0, true, [⟨15, 0, .rw, 100, 10, 0x3E8⟩]⟩,
  ⟨0x818020, 1, 0, true, [⟨31, 31, .rw, 0, 0, 1⟩, ⟨30, 29, .rw, 0, 0, 3⟩, ⟨28, 28, .rw, 1, 0, 1⟩, ⟨27, 27, .rw, 0, 0, 1⟩, ⟨26, 17, .rw, 0, 0, 508⟩, ⟨16, 7, .rw, 0, 0, 511⟩, ⟨6, 2, .rw, 15, 0, 31⟩]⟩,
  ⟨0x818024, 1, 0, false, [⟨31, 31, .w1c, 0, 0, 1⟩, ⟨15, 0, .ro, 0, 0, 0xFFFF⟩]⟩]

/-- All registers of block CAN. -/
def mapCan : List RegD := mapCan0 ++ mapCan1 ++ mapCan2 ++ mapCan3 ++ mapCan4 ++ mapCan5

/-- Registers of block ETH: ETH_CTRL to ETH_SYNC_TO_CNT. -/
def mapEth0 : List RegD := [
  ⟨0x820000, 1, 0, true, [⟨31, 31, .rw, 0, 0, 1⟩, ⟨30, 30, .rw, 0, 0, 1⟩, ⟨22, 20, .rw, 3, 0, 6⟩]⟩,
  ⟨0x820004, 1, 0, false, [⟨31, 31, .ro, 0, 0, 1⟩, ⟨30, 30, .ro, 0, 0, 1⟩, ⟨25, 24, .ro, 0, 0, 3⟩]⟩,
  ⟨0x820008, 1, 0, true, [⟨31, 16, .rw, 0, 0, 0xFFFF⟩, ⟨15, 0, .rw, 0, 0, 0xFFFF⟩]⟩,
  ⟨0x82000C, 1, 0, true, [⟨31, 16, .rw, 200, 0, 0xFFFF⟩, ⟨15, 0, .rw, 60, 0, 0xFFFF⟩]⟩,
  ⟨0x820010, 1, 0, true, [⟨19, 0, .rw, 0, 0, 0xF423F⟩]⟩,
  ⟨0x820014, 1, 0, true, [⟨15, 0, .rw, 800, 0, 0xFFFF⟩]⟩,
  ⟨0x820020, 1, 0, false, [⟨31, 0, .ro, 0, 0, 0xFFFFFFFF⟩]⟩,
  ⟨0x820030, 1, 0, false, [⟨31, 0, .ro, 0, 0, 0xFFFFFFFF⟩]⟩,
  ⟨0x820034, 1, 0, false, [⟨15, 0, .ro, 0, 0, 0xFFFF⟩]⟩,
  ⟨0x820038, 1, 0, false, [⟨31, 0, .ro, 0, 0, 0xFFFFFFFF⟩]⟩,
  ⟨0x82003C, 1, 0, false, [⟨15, 0, .ro, 0, 0, 0xFFFF⟩]⟩,
  ⟨0x820040, 1, 0, false, [⟨31, 0, .ro, 0, 0, 0xFFFFFFFF⟩]⟩,
  ⟨0x820044, 1, 0, false, [⟨15, 0, .ro, 0, 0, 0xFFFF⟩]⟩,
  ⟨0x820048, 1, 0, false, [⟨31, 0, .ro, 0, 0, 0xFFFFFFFF⟩]⟩,
  ⟨0x820050, 1, 0, false, [⟨31, 0, .ro, 0, 0, 0xFFFFFFFF⟩]⟩,
  ⟨0x820054, 1, 0, false, [⟨31, 0, .ro, 0, 0, 0xFFFFFFFF⟩]⟩,
  ⟨0x820058, 1, 0, false, [⟨31, 0, .ro, 0, 0, 0xFFFFFFFF⟩]⟩,
  ⟨0x82005C, 1, 0, false, [⟨31, 0, .ro, 0, 0, 0xFFFFFFFF⟩]⟩,
  ⟨0x820080, 1, 0, false, [⟨31, 31, .w1c, 0, 0, 1⟩, ⟨15, 0, .ro, 0, 0, 0xFFFF⟩]⟩,
  ⟨0x820084, 1, 0, false, [⟨31, 31, .w1c, 0, 0, 1⟩, ⟨15, 0, .ro, 0, 0, 0xFFFF⟩]⟩]

/-- Registers of block ETH: ETH_STEP_CNT to ETH_STEP_CNT. -/
def mapEth1 : List RegD := [
  ⟨0x820088, 1, 0, false, [⟨31, 31, .w1c, 0, 0, 1⟩, ⟨15, 0, .ro, 0, 0, 0xFFFF⟩]⟩]

/-- All registers of block ETH. -/
def mapEth : List RegD := mapEth0 ++ mapEth1

/-- Registers of block SUP: SUP_STATUS to THM_SENS_READ. -/
def mapSup : List RegD := [
  ⟨0x0, 1, 0, false, [⟨31, 16, .ro, 0, 0, 0xFFFF⟩, ⟨3, 3, .ro, 0, 0, 1⟩, ⟨2, 2, .ro, 0, 0, 1⟩, ⟨1, 1, .w1c, 0, 0, 1⟩, ⟨0, 0, .w1c, 0, 0, 1⟩]⟩,
  ⟨0x4, 1, 0, false, [⟨31, 21, .ro, 0, 0, 0x7FF⟩, ⟨20, 10, .ro, 0, 0, 0x7FF⟩, ⟨9, 0, .ro, 0, 0, 0x3FF⟩]⟩,
  ⟨0x10, 1, 0, false, [⟨31, 31, .w1c, 0, 0, 1⟩, ⟨15, 0, .ro, 0, 0, 0xFFFF⟩]⟩,
  ⟨0x100, 1, 0, false, [⟨31, 31, .ro, 0, 0, 1⟩, ⟨30, 30, .ro, 0, 0, 1⟩, ⟨29, 29, .ro, 0, 0, 1⟩, ⟨28, 28, .w1c, 0, 0, 1⟩, ⟨19, 16, .ro, 0, 0, 15⟩, ⟨8, 0, .ro, 0, 0, 511⟩]⟩,
  ⟨0x104, 1, 0, true, [⟨31, 30, .rw, 3, 0, 3⟩]⟩,
  ⟨0x110, 1, 0, false, [⟨31, 31, .w1c, 0, 0, 1⟩, ⟨15, 0, .ro, 0, 0, 0xFFFF⟩]⟩,
  ⟨0x200, 1, 0, true, [⟨31, 31, .rw, 1, 0, 1⟩]⟩,
  ⟨0x204, 1, 0, false, [⟨31, 31, .ro, 0, 0, 1⟩, ⟨21, 16, .ro, 0, 0, 63⟩, ⟨15, 0, .ro, 0, 0, 0xFFFF⟩]⟩,
  ⟨0x210, 6, 32, true, [⟨31, 31, .rw, 0, 0, 1⟩, ⟨30, 29, .rw, 0, 0, 1⟩, ⟨25, 16, .rw, 100, 0, 0x3E8⟩, ⟨15, 0, .rw, 0x800, 1, 0x7FFF⟩]⟩,
  ⟨0x214, 6, 32, true, [⟨31, 16, .rw, 0x8C0, 0, 0xFFFF⟩, ⟨15, 0, .rw, 0x7D0, 0, 0xFFFF⟩]⟩,
  ⟨0x218, 6, 32, true, [⟨31, 16, .rw, 80, 16, 800⟩, ⟨15, 0, .rw, 0x960, 0, 0xFFFF⟩]⟩,
  ⟨0x21C, 6, 32, true, [⟨31, 16, .rw, 0xF6E, 0x3E8, 0x2710⟩, ⟨15, 0, .rw, 0x3E8, 0, 0xFFFF⟩]⟩,
  ⟨0x220, 6, 32, true, [⟨31, 16, .rw, 0x4083, 0, 0xFFFF⟩, ⟨15, 0, .rw, 0x3E8, 0, 0xFFFF⟩]⟩,
  ⟨0x224, 6, 32, false, [⟨19, 19, .ro, 0, 0, 1⟩, ⟨18, 18, .ro, 0, 0, 1⟩, ⟨17, 16, .ro, 0, 0, 3⟩, ⟨15, 0, .ro, 0, 0, 0xFFFF⟩]⟩]

/-- Registers of block SEC: SEC_BOOT_STATUS to SEC_CERT. -/
def mapSec : List RegD := [
  ⟨0x830000, 1, 0, false, [⟨31, 28, .ro, 0, 0, 15⟩, ⟨25, 24, .ro, 3, 0, 3⟩, ⟨23, 23, .ro, 0, 0, 1⟩, ⟨22, 22, .ro, 0, 0, 1⟩, ⟨19, 16, .ro, 0, 0, 15⟩, ⟨15, 12, .ro, 0, 0, 15⟩, ⟨6, 0, .ro, 0, 0, 127⟩]⟩,
  ⟨0x830004, 1, 0, false, [⟨7, 7, .ro, 0, 0, 1⟩, ⟨6, 0, .ro, 0, 0, 127⟩]⟩,
  ⟨0x830008, 1, 0, false, [⟨0, 0, .ro, 0, 0, 1⟩]⟩,
  ⟨0x830040, 8, 4, true, [⟨31, 0, .rw, 0, 0, 0xFFFFFFFF⟩]⟩,
  ⟨0x830060, 1, 0, true, [⟨15, 0, .wo, 0, 0, 0xFFFF⟩]⟩,
  ⟨0x830064, 1, 0, false, [⟨8, 8, .w1c, 0, 0, 1⟩, ⟨3, 0, .ro, 0, 0, 15⟩]⟩,
  ⟨0x830068, 1, 0, false, [⟨15, 0, .wo, 0, 0, 0xFFFF⟩]⟩,
  ⟨0x830080, 8, 4, false, [⟨31, 0, .ro, 0, 0, 0xFFFFFFFF⟩]⟩,
  ⟨0x8300A0, 4, 4, false, [⟨31, 0, .ro, 0, 0, 0xFFFFFFFF⟩]⟩,
  ⟨0x830100, 1, 0, false, [⟨9, 8, .ro, 0, 0, 3⟩, ⟨0, 0, .wo, 0, 0, 1⟩]⟩,
  ⟨0x830800, 320, 4, false, [⟨31, 0, .rw, 0, 0, 0xFFFFFFFF⟩]⟩,
  ⟨0x831000, 512, 4, false, [⟨31, 0, .ro, 0, 0, 0xFFFFFFFF⟩]⟩,
  ⟨0x831800, 320, 4, false, [⟨31, 0, .ro, 0, 0, 0xFFFFFFFF⟩]⟩]

/-- The rows of the 64 KiB sub-window an offset lies in (R35). -/
def regRows (off : Nat) : List RegD :=
  match off / 0x10000 with
  | 0 => mapSup | 1 => mapSns | 2 => mapPos | 3 => mapAng | 4 => mapFld
  | 5 => mapMod | 6 => mapLeg | 7 => mapPlt | 8 => mapWal | 9 => mapStr | 0xC => mapProf
  | 0x80 => mapHif | 0x81 => mapCan | 0x82 => mapEth | 0x83 => mapSec | 0x84 => mapNvm | 0x85 => mapId
  | _ => []

/-- Whether a row covers an offset. -/
def RegD.covers (r : RegD) (off : Nat) : Bool :=
  r.base ≤ off && (if r.stride = 0 then off = r.base
    else (off - r.base) % r.stride = 0 && (off - r.base) / r.stride < r.count)

/-- The row of a register offset, if the spec gives the word a meaning; other words are reserved. -/
def regAt (off : Nat) : Option RegD := (regRows off).find? (·.covers off)

/-- The word the reset column of a field map spells. -/
def RegD.resetWord (r : RegD) : BitVec 32 :=
  r.fields.foldl (fun a f => a ||| BitVec.ofNat 32 (f.reset <<< f.lo)) 0

/-- The bits of a row that have one access code. -/
def RegD.mask (r : RegD) (a : Acc) : BitVec 32 :=
  r.fields.foldl (fun m f => if f.acc = a then m ||| BitVec.ofNat 32 ((2 ^ (f.hi + 1 - f.lo) - 1) <<< f.lo) else m) 0

/-- R15: every written field lies in the range stated for it. -/
def RegD.inRange (r : RegD) (w : BitVec 32) : Bool :=
  r.fields.all fun f =>
    f.acc ≠ .rw || (let v := (w.toNat >>> f.lo) % 2 ^ (f.hi + 1 - f.lo); f.rmin ≤ v && v ≤ f.rmax)

/-- The value a register of stake `id` holds at reset: the reset column, with the five resets that depend on the place:
`SNS_CHk_CFG.FAST_CLASS` (2 for channels 0 to 7), `FLD_PAIR_CTRL.ROLE` (bit 0 of the stake's number), `THM_SENSk_CFG.EN` (1 for the
on-die sensor), `THM_SENS5_READ.TEMP` (0x8000, no reading, R415) and the mask bit of an MSI-X table entry (PRESUMED 1, as the PCI Express rules R368 names have it). A word with no row
reads as zero. -/
def winReset (id off : Nat) : BitVec 32 :=
  match regAt off with
  | none => 0
  | some r =>
    if r.base = 0x10100 && off < 0x10100 + 8 * 64 then r.resetWord ||| 0x20000
    else if off = 0x40380 && id % 2 = 1 then r.resetWord ||| 0x8000000
    else if off = 0x290 then r.resetWord ||| 0x80000000
    else if off = 0x2C4 then 0x8000
    else if r.base = 0x808000 && off % 16 = 12 then 1
    else r.resetWord

/-! One name for every register (its offset) and every field (offset, low bit, width). -/
namespace Reg
def HIF_PKG_ID : Nat := 0x850000
def HIF_PKG_ID_STEPPING : Fld := ⟨0x850000, 16, 8⟩
def HIF_PKG_ID_STAKES : Fld := ⟨0x850000, 0, 8⟩
def HIF_PKG_ALIVE : Nat := 0x850004
def HIF_PKG_ALIVE_ALIVE : Fld := ⟨0x850004, 0, 8⟩
def WAL_CTRL : Nat := 0x80000
def WAL_CTRL_CRC_BURST : Fld := ⟨0x80000, 16, 8⟩
def WAL_CTRL_MARGIN_THR : Fld := ⟨0x80000, 8, 8⟩
def WAL_CTRL_CRC_RETRAIN_EN : Fld := ⟨0x80000, 1, 1⟩
def WAL_CTRL_SPLICE_EN : Fld := ⟨0x80000, 0, 1⟩
def WAL_STATUS : Nat := 0x80004
def WAL_STATUS_STAKES_UP : Fld := ⟨0x80004, 16, 8⟩
def WAL_STATUS_TICK_SKEW : Fld := ⟨0x80004, 10, 1⟩
def WAL_STATUS_MASTER : Fld := ⟨0x80004, 9, 1⟩
def WAL_STATUS_RING_OPEN : Fld := ⟨0x80004, 8, 1⟩
def WAL_STATUS_DSC_RETRAIN : Fld := ⟨0x80004, 5, 1⟩
def WAL_STATUS_ASC_RETRAIN : Fld := ⟨0x80004, 4, 1⟩
def WAL_STATUS_DSC_UP : Fld := ⟨0x80004, 1, 1⟩
def WAL_STATUS_ASC_UP : Fld := ⟨0x80004, 0, 1⟩
def WAL_BUDGET : Nat := 0x80008
def WAL_BUDGET_BULK : Fld := ⟨0x80008, 24, 8⟩
def WAL_BUDGET_STREAM : Fld := ⟨0x80008, 16, 8⟩
def WAL_BUDGET_TUNE : Fld := ⟨0x80008, 8, 8⟩
def WAL_BUDGET_DRIVE : Fld := ⟨0x80008, 0, 8⟩
def WAL_LANE_ASC_TX : Nat := 0x80020
def WAL_LANE_ASC_TX_SPARES_LEFT : Fld := ⟨0x80020, 28, 2⟩
def WAL_LANE_ASC_TX_FAILED : Fld := ⟨0x80020, 0, 18⟩
def WAL_LANE_ASC_RX : Nat := 0x80024
def WAL_LANE_ASC_RX_SPARES_LEFT : Fld := ⟨0x80024, 28, 2⟩
def WAL_LANE_ASC_RX_FAILED : Fld := ⟨0x80024, 0, 18⟩
def WAL_LANE_DSC_TX : Nat := 0x80028
def WAL_LANE_DSC_TX_SPARES_LEFT : Fld := ⟨0x80028, 28, 2⟩
def WAL_LANE_DSC_TX_FAILED : Fld := ⟨0x80028, 0, 18⟩
def WAL_LANE_DSC_RX : Nat := 0x8002C
def WAL_LANE_DSC_RX_SPARES_LEFT : Fld := ⟨0x8002C, 28, 2⟩
def WAL_LANE_DSC_RX_FAILED : Fld := ⟨0x8002C, 0, 18⟩
def WAL_MARGIN_ASC : Nat := 0x80030
def WAL_MARGIN_ASC_WORST_LANE : Fld := ⟨0x80030, 8, 5⟩
def WAL_MARGIN_ASC_WORST_MARGIN : Fld := ⟨0x80030, 0, 8⟩
def WAL_MARGIN_DSC : Nat := 0x80034
def WAL_MARGIN_DSC_WORST_LANE : Fld := ⟨0x80034, 8, 5⟩
def WAL_MARGIN_DSC_WORST_MARGIN : Fld := ⟨0x80034, 0, 8⟩
def WAL_CRC_ERR : Nat := 0x80040
def WAL_CRC_ERR_SAT : Fld := ⟨0x80040, 31, 1⟩
def WAL_CRC_ERR_COUNT : Fld := ⟨0x80040, 0, 31⟩
def WAL_RETRAIN_CNT : Nat := 0x80044
def WAL_RETRAIN_CNT_SAT : Fld := ⟨0x80044, 31, 1⟩
def WAL_RETRAIN_CNT_COUNT : Fld := ⟨0x80044, 0, 16⟩
def ANG_TICK_LO : Nat := 0x30000
def ANG_TICK_LO_TICK_LO : Fld := ⟨0x30000, 0, 32⟩
def ANG_TICK_HI : Nat := 0x30004
def ANG_TICK_HI_TICK_HI : Fld := ⟨0x30004, 0, 16⟩
def ANG_TICK_STATUS : Nat := 0x30008
def ANG_TICK_STATUS_WRAP_SAT : Fld := ⟨0x30008, 16, 1⟩
def ANG_TICK_STATUS_WRAP : Fld := ⟨0x30008, 8, 1⟩
def ANG_TICK_STATUS_WRAP_COUNT : Fld := ⟨0x30008, 0, 8⟩
def ANG_SCHED_CTRL : Nat := 0x3000C
def ANG_SCHED_CTRL_EN : Fld := ⟨0x3000C, 31, 1⟩
def ANG_SCHED_CTRL_REARM_BAND : Fld := ⟨0x3000C, 0, 16⟩
def ANG_DEFER_CNT : Nat := 0x30010
def ANG_DEFER_CNT_SAT : Fld := ⟨0x30010, 31, 1⟩
def ANG_DEFER_CNT_COUNT : Fld := ⟨0x30010, 0, 16⟩
def ANG_OVERRUN_CNT : Nat := 0x30014
def ANG_OVERRUN_CNT_SAT : Fld := ⟨0x30014, 31, 1⟩
def ANG_OVERRUN_CNT_COUNT : Fld := ⟨0x30014, 0, 16⟩
def ANG_LATE_CNT : Nat := 0x30018
def ANG_LATE_CNT_SAT : Fld := ⟨0x30018, 31, 1⟩
def ANG_LATE_CNT_COUNT : Fld := ⟨0x30018, 0, 16⟩
def ANG_BACK_REARM_CNT : Nat := 0x3001C
def ANG_BACK_REARM_CNT_SAT : Fld := ⟨0x3001C, 31, 1⟩
def ANG_BACK_REARM_CNT_COUNT : Fld := ⟨0x3001C, 0, 16⟩
def ANG_SKIP_CNT : Nat := 0x30020
def ANG_SKIP_CNT_SAT : Fld := ⟨0x30020, 31, 1⟩
def ANG_SKIP_CNT_COUNT : Fld := ⟨0x30020, 0, 16⟩
def ANG_SPENT (i : Nat) : Nat := 0x30030 + 4 * i
def ANG_SPENT_SPENT (i : Nat) : Fld := ⟨0x30030 + 4 * i, 0, 32⟩
def ANG_CLK_CTRL (i : Nat) : Nat := 0x30040 + 64 * i
def ANG_CLK_CTRL_EN (i : Nat) : Fld := ⟨0x30040 + 64 * i, 31, 1⟩
def ANG_CLK_CTRL_SRC (i : Nat) : Fld := ⟨0x30040 + 64 * i, 24, 3⟩
def ANG_CLK_CTRL_SLEW_LOG2 (i : Nat) : Fld := ⟨0x30040 + 64 * i, 16, 4⟩
def ANG_CLK_CTRL_JUMP_CLASS (i : Nat) : Fld := ⟨0x30040 + 64 * i, 10, 2⟩
def ANG_CLK_CTRL_EXTRAP_CLASS (i : Nat) : Fld := ⟨0x30040 + 64 * i, 8, 2⟩
def ANG_CLK_LIMITS (i : Nat) : Nat := 0x30044 + 64 * i
def ANG_CLK_LIMITS_JUMP_LIMIT (i : Nat) : Fld := ⟨0x30044 + 64 * i, 16, 16⟩
def ANG_CLK_LIMITS_SLEW_LIMIT (i : Nat) : Fld := ⟨0x30044 + 64 * i, 0, 16⟩
def ANG_CLK_EXTRAP (i : Nat) : Nat := 0x30048 + 64 * i
def ANG_CLK_EXTRAP_EXTRAP_MAX (i : Nat) : Fld := ⟨0x30048 + 64 * i, 0, 16⟩
def ANG_CLK_ANGLE (i : Nat) : Nat := 0x30050 + 64 * i
def ANG_CLK_SPEED (i : Nat) : Nat := 0x30058 + 64 * i
def ANG_CLK_STATUS (i : Nat) : Nat := 0x30060 + 64 * i
def ANG_CLK_STATUS_BACK_STEP (i : Nat) : Fld := ⟨0x30060 + 64 * i, 11, 1⟩
def ANG_CLK_STATUS_JUMP (i : Nat) : Fld := ⟨0x30060 + 64 * i, 10, 1⟩
def ANG_CLK_STATUS_RELOAD (i : Nat) : Fld := ⟨0x30060 + 64 * i, 9, 1⟩
def ANG_CLK_STATUS_DIR (i : Nat) : Fld := ⟨0x30060 + 64 * i, 8, 1⟩
def ANG_CLK_STATUS_VALID (i : Nat) : Fld := ⟨0x30060 + 64 * i, 0, 1⟩
def ANG_CLK_STEP_CNT (i : Nat) : Nat := 0x30064 + 64 * i
def ANG_CLK_STEP_CNT_SAT (i : Nat) : Fld := ⟨0x30064 + 64 * i, 31, 1⟩
def ANG_CLK_STEP_CNT_COUNT (i : Nat) : Fld := ⟨0x30064 + 64 * i, 0, 16⟩
def ANG_CLK_STALE_CNT (i : Nat) : Nat := 0x30068 + 64 * i
def ANG_CLK_STALE_CNT_SAT (i : Nat) : Fld := ⟨0x30068 + 64 * i, 31, 1⟩
def ANG_CLK_STALE_CNT_COUNT (i : Nat) : Fld := ⟨0x30068 + 64 * i, 0, 16⟩
def ANG_ENT_TGT_LO (i : Nat) : Nat := 0x30400 + 32 * i
def ANG_ENT_TGT_LO_TGT (i : Nat) : Fld := ⟨0x30400 + 32 * i, 0, 32⟩
def ANG_ENT_TGT_HI (i : Nat) : Nat := 0x30404 + 32 * i
def ANG_ENT_TGT_HI_TGT (i : Nat) : Fld := ⟨0x30404 + 32 * i, 0, 16⟩
def ANG_ENT_IVL (i : Nat) : Nat := 0x30408 + 32 * i
def ANG_ENT_IVL_IVL (i : Nat) : Fld := ⟨0x30408 + 32 * i, 0, 32⟩
def ANG_ENT_CTRL (i : Nat) : Nat := 0x3040C + 32 * i
def ANG_ENT_CTRL_EN (i : Nat) : Fld := ⟨0x3040C + 32 * i, 31, 1⟩
def ANG_ENT_CTRL_SPENT (i : Nat) : Fld := ⟨0x3040C + 32 * i, 30, 1⟩
def ANG_ENT_CTRL_ONESHOT (i : Nat) : Fld := ⟨0x3040C + 32 * i, 29, 1⟩
def ANG_ENT_CTRL_SRC (i : Nat) : Fld := ⟨0x3040C + 32 * i, 28, 1⟩
def ANG_ENT_CTRL_DIR (i : Nat) : Fld := ⟨0x3040C + 32 * i, 26, 2⟩
def ANG_ENT_CTRL_TRIG (i : Nat) : Fld := ⟨0x3040C + 32 * i, 23, 3⟩
def ANG_ENT_CTRL_FINE (i : Nat) : Fld := ⟨0x3040C + 32 * i, 16, 5⟩
def ANG_ENT_CTRL_ACTION (i : Nat) : Fld := ⟨0x3040C + 32 * i, 12, 4⟩
def ANG_ENT_CTRL_ARG (i : Nat) : Fld := ⟨0x3040C + 32 * i, 0, 8⟩
def SNS_CTRL : Nat := 0x10000
def SNS_CTRL_EN : Fld := ⟨0x10000, 31, 1⟩
def SNS_CTRL_APPLY : Fld := ⟨0x10000, 0, 1⟩
def SNS_STATUS : Nat := 0x10004
def SNS_STATUS_CFG_REFUSED : Fld := ⟨0x10004, 17, 1⟩
def SNS_STATUS_STAGED : Fld := ⟨0x10004, 16, 1⟩
def SNS_STATUS_FILLED : Fld := ⟨0x10004, 0, 16⟩
def SNS_MCLK (i : Nat) : Nat := 0x10010 + 4 * i
def SNS_MCLK_EN (i : Nat) : Fld := ⟨0x10010 + 4 * i, 31, 1⟩
def SNS_MCLK_SAMPLE_DLY (i : Nat) : Fld := ⟨0x10010 + 4 * i, 16, 7⟩
def SNS_MCLK_PHASE (i : Nat) : Fld := ⟨0x10010 + 4 * i, 8, 7⟩
def SNS_MCLK_DIV (i : Nat) : Fld := ⟨0x10010 + 4 * i, 0, 7⟩
def SNS_GRP (i : Nat) : Nat := 0x10020 + 4 * i
def SNS_GRP_SETTLE (i : Nat) : Fld := ⟨0x10020 + 4 * i, 16, 12⟩
def SNS_GRP_TAINT_PORTS (i : Nat) : Fld := ⟨0x10020 + 4 * i, 12, 4⟩
def SNS_GRP_OSR (i : Nat) : Fld := ⟨0x10020 + 4 * i, 0, 9⟩
def SNS_PLAUS_CTRL : Nat := 0x10030
def SNS_PLAUS_CTRL_EN : Fld := ⟨0x10030, 31, 1⟩
def SNS_PLAUS_CTRL_PLAUS_N : Fld := ⟨0x10030, 24, 4⟩
def SNS_PLAUS_CTRL_SET_A_CLASS : Fld := ⟨0x10030, 22, 2⟩
def SNS_PLAUS_CTRL_SET_B_CLASS : Fld := ⟨0x10030, 20, 2⟩
def SNS_PLAUS_CTRL_AB_CLASS : Fld := ⟨0x10030, 18, 2⟩
def SNS_PLAUS_CTRL_UDC_CLASS : Fld := ⟨0x10030, 16, 2⟩
def SNS_PLAUS_THR : Nat := 0x10034
def SNS_PLAUS_THR_AB_THR : Fld := ⟨0x10034, 16, 16⟩
def SNS_PLAUS_THR_SUM_THR : Fld := ⟨0x10034, 0, 16⟩
def SNS_UDC_THR : Nat := 0x10038
def SNS_UDC_THR_UDC_THR : Fld := ⟨0x10038, 0, 16⟩
def SNS_PLAUS_MAP : Nat := 0x1003C
def SNS_PLAUS_MAP_UDC_B : Fld := ⟨0x1003C, 12, 4⟩
def SNS_PLAUS_MAP_UDC_A : Fld := ⟨0x1003C, 8, 4⟩
def SNS_PLAUS_MAP_SET_B : Fld := ⟨0x1003C, 4, 4⟩
def SNS_PLAUS_MAP_SET_A : Fld := ⟨0x1003C, 0, 4⟩
def SNS_SPLICE : Nat := 0x10040
def SNS_SPLICE_UNAVAIL : Fld := ⟨0x10040, 16, 16⟩
def SNS_SPLICE_SPARE1_CH : Fld := ⟨0x10040, 8, 5⟩
def SNS_SPLICE_SPARE0_CH : Fld := ⟨0x10040, 0, 5⟩
def SNS_CAP_OVR_CNT : Nat := 0x10050
def SNS_CAP_OVR_CNT_SAT : Fld := ⟨0x10050, 31, 1⟩
def SNS_CAP_OVR_CNT_COUNT : Fld := ⟨0x10050, 0, 16⟩
def SNS_TAINT_CNT : Nat := 0x10054
def SNS_TAINT_CNT_SAT : Fld := ⟨0x10054, 31, 1⟩
def SNS_TAINT_CNT_COUNT : Fld := ⟨0x10054, 0, 16⟩
def SNS_PLAUS_SKIP_CNT : Nat := 0x10058
def SNS_PLAUS_SKIP_CNT_SAT : Fld := ⟨0x10058, 31, 1⟩
def SNS_PLAUS_SKIP_CNT_COUNT : Fld := ⟨0x10058, 0, 16⟩
def SNS_CH_CFG (i : Nat) : Nat := 0x10100 + 64 * i
def SNS_CH_CFG_EN (i : Nat) : Fld := ⟨0x10100 + 64 * i, 31, 1⟩
def SNS_CH_CFG_FAST_EN (i : Nat) : Fld := ⟨0x10100 + 64 * i, 30, 1⟩
def SNS_CH_CFG_MCLK (i : Nat) : Fld := ⟨0x10100 + 64 * i, 28, 2⟩
def SNS_CH_CFG_GROUP (i : Nat) : Fld := ⟨0x10100 + 64 * i, 26, 2⟩
def SNS_CH_CFG_STREAM_MODE (i : Nat) : Fld := ⟨0x10100 + 64 * i, 24, 2⟩
def SNS_CH_CFG_STREAM (i : Nat) : Fld := ⟨0x10100 + 64 * i, 20, 4⟩
def SNS_CH_CFG_STUCK_CLASS (i : Nat) : Fld := ⟨0x10100 + 64 * i, 18, 2⟩
def SNS_CH_CFG_FAST_CLASS (i : Nat) : Fld := ⟨0x10100 + 64 * i, 16, 2⟩
def SNS_CH_CFG_FAST_OSR (i : Nat) : Fld := ⟨0x10100 + 64 * i, 8, 6⟩
def SNS_CH_CFG_FAST_N (i : Nat) : Fld := ⟨0x10100 + 64 * i, 0, 3⟩
def SNS_CH_GAIN (i : Nat) : Nat := 0x10108 + 64 * i
def SNS_CH_OFFSET (i : Nat) : Nat := 0x10110 + 64 * i
def SNS_CH_CORR_COMMIT (i : Nat) : Nat := 0x10118 + 64 * i
def SNS_CH_CORR_COMMIT_COMMIT (i : Nat) : Fld := ⟨0x10118 + 64 * i, 0, 1⟩
def SNS_CH_FAST_THR (i : Nat) : Nat := 0x1011C + 64 * i
def SNS_CH_FAST_THR_HI (i : Nat) : Fld := ⟨0x1011C + 64 * i, 16, 16⟩
def SNS_CH_FAST_THR_LO (i : Nat) : Fld := ⟨0x1011C + 64 * i, 0, 16⟩
def SNS_CH_FAST_OFS (i : Nat) : Nat := 0x10120 + 64 * i
def SNS_CH_FAST_OFS_FAST_OFS (i : Nat) : Fld := ⟨0x10120 + 64 * i, 0, 16⟩
def SNS_CH_VOLT_SCALE (i : Nat) : Nat := 0x10124 + 64 * i
def SNS_CH_VOLT_SCALE_VOLT_SCALE (i : Nat) : Fld := ⟨0x10124 + 64 * i, 0, 16⟩
def SNS_CH_STATUS (i : Nat) : Nat := 0x10128 + 64 * i
def SNS_CH_STATUS_UNAVAIL (i : Nat) : Fld := ⟨0x10128 + 64 * i, 9, 1⟩
def SNS_CH_STATUS_SPLICED (i : Nat) : Fld := ⟨0x10128 + 64 * i, 8, 1⟩
def SNS_CH_STATUS_FILLING (i : Nat) : Fld := ⟨0x10128 + 64 * i, 7, 1⟩
def SNS_CH_STATUS_OVERRANGE (i : Nat) : Fld := ⟨0x10128 + 64 * i, 6, 1⟩
def SNS_CH_STATUS_STUCK (i : Nat) : Fld := ⟨0x10128 + 64 * i, 5, 1⟩
def SNS_CH_STATUS_FAST_HI (i : Nat) : Fld := ⟨0x10128 + 64 * i, 3, 1⟩
def SNS_CH_STATUS_FAST_LO (i : Nat) : Fld := ⟨0x10128 + 64 * i, 2, 1⟩
def SNS_CH_STATUS_STUCK_SEEN (i : Nat) : Fld := ⟨0x10128 + 64 * i, 1, 1⟩
def SNS_CH_VOLTS (i : Nat) : Nat := 0x1012C + 64 * i
def SNS_CH_VOLTS_VOLTS (i : Nat) : Fld := ⟨0x1012C + 64 * i, 0, 16⟩
def SNS_CH_SAMPLE (i : Nat) : Nat := 0x10130 + 64 * i
def SNS_CH_CENTRE (i : Nat) : Nat := 0x10138 + 64 * i
def SNS_CH_CENTRE_CENTRE (i : Nat) : Fld := ⟨0x10138 + 64 * i, 0, 32⟩
def POS_CTRL : Nat := 0x20000
def POS_CTRL_POLE_PAIRS : Fld := ⟨0x20000, 24, 6⟩
def POS_CTRL_TURN_SRC : Fld := ⟨0x20000, 20, 2⟩
def POS_CTRL_EMU_MODE : Fld := ⟨0x20000, 16, 2⟩
def POS_CTRL_CMP1_POL : Fld := ⟨0x20000, 9, 1⟩
def POS_CTRL_CMP0_POL : Fld := ⟨0x20000, 8, 1⟩
def POS_CTRL_CMP_EN : Fld := ⟨0x20000, 4, 1⟩
def POS_CTRL_SSP_EN : Fld := ⟨0x20000, 3, 1⟩
def POS_CTRL_HALL_EN : Fld := ⟨0x20000, 2, 1⟩
def POS_CTRL_ENC_EN : Fld := ⟨0x20000, 1, 1⟩
def POS_CTRL_RES_EN : Fld := ⟨0x20000, 0, 1⟩
def POS_STATUS : Nat := 0x20004
def POS_STATUS_CFG_REFUSED : Fld := ⟨0x20004, 0, 1⟩
def POS_TIMING : Nat := 0x20008
def POS_TIMING_SPD_WIN : Fld := ⟨0x20008, 16, 16⟩
def POS_TIMING_T_STAND : Fld := ⟨0x20008, 0, 10⟩
def POS_FAULT : Nat := 0x2000C
def POS_FAULT_INDEX_CLASS : Fld := ⟨0x2000C, 24, 2⟩
def POS_FAULT_SSP_CLASS : Fld := ⟨0x2000C, 22, 2⟩
def POS_FAULT_HALL_CLASS : Fld := ⟨0x2000C, 20, 2⟩
def POS_FAULT_ENC_CLASS : Fld := ⟨0x2000C, 18, 2⟩
def POS_FAULT_RES_CLASS : Fld := ⟨0x2000C, 16, 2⟩
def POS_FAULT_FAULT_N : Fld := ⟨0x2000C, 0, 8⟩
def POS_DIR_HYST : Nat := 0x20010
def POS_DIR_HYST_DIR_HYST : Fld := ⟨0x20010, 0, 32⟩
def POS_SRC_ANGLE (i : Nat) : Nat := 0x20020 + 32 * i
def POS_SRC_SPEED (i : Nat) : Nat := 0x20028 + 32 * i
def POS_SRC_STATUS (i : Nat) : Nat := 0x20030 + 32 * i
def POS_SRC_STATUS_ALIGNED (i : Nat) : Fld := ⟨0x20030 + 32 * i, 12, 1⟩
def POS_SRC_STATUS_DIR_CHG (i : Nat) : Fld := ⟨0x20030 + 32 * i, 11, 1⟩
def POS_SRC_STATUS_FAULTED (i : Nat) : Fld := ⟨0x20030 + 32 * i, 10, 1⟩
def POS_SRC_STATUS_COARSE (i : Nat) : Fld := ⟨0x20030 + 32 * i, 9, 1⟩
def POS_SRC_STATUS_DIR (i : Nat) : Fld := ⟨0x20030 + 32 * i, 8, 1⟩
def POS_SRC_STATUS_QUAL (i : Nat) : Fld := ⟨0x20030 + 32 * i, 4, 3⟩
def POS_SRC_STATUS_KIND (i : Nat) : Fld := ⟨0x20030 + 32 * i, 1, 3⟩
def POS_SRC_STATUS_VALID (i : Nat) : Fld := ⟨0x20030 + 32 * i, 0, 1⟩
def POS_SRC_OFFSET (i : Nat) : Nat := 0x20034 + 32 * i
def POS_SRC_OFFSET_OFFSET (i : Nat) : Fld := ⟨0x20034 + 32 * i, 0, 16⟩
def POS_RES_EXC : Nat := 0x200A0
def POS_RES_EXC_AMP : Fld := ⟨0x200A0, 24, 8⟩
def POS_RES_EXC_EXC_DIV : Fld := ⟨0x200A0, 0, 18⟩
def POS_RES_LOOP : Nat := 0x200A4
def POS_RES_LOOP_PP_RATIO : Fld := ⟨0x200A4, 28, 4⟩
def POS_RES_LOOP_SIN_CH : Fld := ⟨0x200A4, 24, 4⟩
def POS_RES_LOOP_COS_CH : Fld := ⟨0x200A4, 20, 4⟩
def POS_RES_LOOP_LOOP_BW : Fld := ⟨0x200A4, 8, 12⟩
def POS_RES_LOOP_LOCK_N : Fld := ⟨0x200A4, 0, 8⟩
def POS_RES_PHASE : Nat := 0x200A8
def POS_RES_PHASE_EXC_PHASE : Fld := ⟨0x200A8, 0, 18⟩
def POS_RES_LIMITS : Nat := 0x200AC
def POS_RES_LIMITS_AMP_HI : Fld := ⟨0x200AC, 24, 8⟩
def POS_RES_LIMITS_AMP_LO : Fld := ⟨0x200AC, 16, 8⟩
def POS_RES_LIMITS_LOT_THR : Fld := ⟨0x200AC, 8, 8⟩
def POS_RES_LIMITS_LOCK_THR : Fld := ⟨0x200AC, 0, 8⟩
def POS_ENC_CFG : Nat := 0x200B0
def POS_ENC_CFG_SWAP : Fld := ⟨0x200B0, 31, 1⟩
def POS_ENC_CFG_Z_EN : Fld := ⟨0x200B0, 30, 1⟩
def POS_ENC_CFG_Z_GATE : Fld := ⟨0x200B0, 28, 2⟩
def POS_ENC_CFG_EDGE_MIN : Fld := ⟨0x200B0, 16, 12⟩
def POS_ENC_CFG_LINES_M1 : Fld := ⟨0x200B0, 0, 16⟩
def POS_ENC_INDEX : Nat := 0x200B4
def POS_ENC_INDEX_Z_TOL : Fld := ⟨0x200B4, 24, 8⟩
def POS_ENC_INDEX_Z_COUNT : Fld := ⟨0x200B4, 0, 18⟩
def POS_ENC_ALIGN : Nat := 0x200B8
def POS_ENC_ALIGN_LOAD : Fld := ⟨0x200B8, 31, 1⟩
def POS_ENC_ALIGN_COUNT : Fld := ⟨0x200B8, 0, 18⟩
def POS_HALL_CFG : Nat := 0x200C0
def POS_HALL_CFG_INV : Fld := ⟨0x200C0, 0, 3⟩
def POS_SSP_CFG : Nat := 0x200D0
def POS_SSP_CFG_ERR_POL : Fld := ⟨0x200D0, 31, 1⟩
def POS_SSP_CFG_CRC8 : Fld := ⟨0x200D0, 30, 1⟩
def POS_SSP_CFG_ST_BITS : Fld := ⟨0x200D0, 24, 6⟩
def POS_SSP_CFG_PAY_BITS : Fld := ⟨0x200D0, 18, 6⟩
def POS_SSP_CFG_HALF_DIV : Fld := ⟨0x200D0, 0, 12⟩
def POS_SSP_TIMING : Nat := 0x200D4
def POS_SSP_TIMING_START_TO : Fld := ⟨0x200D4, 24, 8⟩
def POS_SSP_TIMING_SDLY : Fld := ⟨0x200D4, 16, 8⟩
def POS_SSP_TIMING_LAT : Fld := ⟨0x200D4, 8, 8⟩
def POS_SSP_TIMING_RECOV : Fld := ⟨0x200D4, 0, 8⟩
def POS_SSP_CRC : Nat := 0x200D8
def POS_SSP_CRC_INV : Fld := ⟨0x200D8, 16, 1⟩
def POS_SSP_CRC_INIT : Fld := ⟨0x200D8, 8, 8⟩
def POS_SSP_CRC_POLY : Fld := ⟨0x200D8, 0, 8⟩
def POS_SSP_PERIOD : Nat := 0x200DC
def POS_SSP_PERIOD_PERIOD : Fld := ⟨0x200DC, 0, 24⟩
def POS_SSP_RAW : Nat := 0x200E0
def POS_TURNS : Nat := 0x200F0
def POS_TURNS_TURNS : Fld := ⟨0x200F0, 0, 32⟩
def POS_TURN_STATUS : Nat := 0x200F4
def POS_TURN_STATUS_WRAP : Fld := ⟨0x200F4, 0, 1⟩
def POS_EMU_CFG : Nat := 0x20100
def POS_EMU_CFG_SRC : Fld := ⟨0x20100, 31, 1⟩
def POS_EMU_CFG_Z_EN : Fld := ⟨0x20100, 30, 1⟩
def POS_EMU_CFG_MIN_SP : Fld := ⟨0x20100, 16, 12⟩
def POS_EMU_CFG_LINES_E_M1 : Fld := ⟨0x20100, 0, 14⟩
def POS_CMP (i : Nat) : Nat := 0x20120 + 4 * i
def POS_CMP_EN (i : Nat) : Fld := ⟨0x20120 + 4 * i, 31, 1⟩
def POS_CMP_OUT (i : Nat) : Fld := ⟨0x20120 + 4 * i, 16, 1⟩
def POS_CMP_WIDTH (i : Nat) : Fld := ⟨0x20120 + 4 * i, 0, 16⟩
def POS_EDGE_FAULT_CNT : Nat := 0x20140
def POS_EDGE_FAULT_CNT_SAT : Fld := ⟨0x20140, 31, 1⟩
def POS_EDGE_FAULT_CNT_COUNT : Fld := ⟨0x20140, 0, 16⟩
def POS_QUAD_ERR_CNT : Nat := 0x20144
def POS_QUAD_ERR_CNT_SAT : Fld := ⟨0x20144, 31, 1⟩
def POS_QUAD_ERR_CNT_COUNT : Fld := ⟨0x20144, 0, 16⟩
def POS_HALL_ERR_CNT : Nat := 0x20148
def POS_HALL_ERR_CNT_SAT : Fld := ⟨0x20148, 31, 1⟩
def POS_HALL_ERR_CNT_COUNT : Fld := ⟨0x20148, 0, 16⟩
def POS_SSP_ERR_CNT : Nat := 0x2014C
def POS_SSP_ERR_CNT_SAT : Fld := ⟨0x2014C, 31, 1⟩
def POS_SSP_ERR_CNT_COUNT : Fld := ⟨0x2014C, 0, 16⟩
def POS_INDEX_ERR_CNT : Nat := 0x20150
def POS_INDEX_ERR_CNT_SAT : Fld := ⟨0x20150, 31, 1⟩
def POS_INDEX_ERR_CNT_COUNT : Fld := ⟨0x20150, 0, 16⟩
def POS_CMP_OVERLAP_CNT : Nat := 0x20154
def POS_CMP_OVERLAP_CNT_SAT : Fld := ⟨0x20154, 31, 1⟩
def POS_CMP_OVERLAP_CNT_COUNT : Fld := ⟨0x20154, 0, 16⟩
def POS_EMU_LAG_CNT : Nat := 0x20158
def POS_EMU_LAG_CNT_SAT : Fld := ⟨0x20158, 31, 1⟩
def POS_EMU_LAG_CNT_COUNT : Fld := ⟨0x20158, 0, 16⟩
def FLD_CTRL : Nat := 0x40000
def FLD_CTRL_EN : Fld := ⟨0x40000, 31, 1⟩
def FLD_CTRL_FRAME_EN : Fld := ⟨0x40000, 27, 1⟩
def FLD_CTRL_FRAME_STREAM : Fld := ⟨0x40000, 23, 4⟩
def FLD_CTRL_SINC_COMP : Fld := ⟨0x40000, 22, 1⟩
def FLD_CTRL_SLIP_ADD : Fld := ⟨0x40000, 21, 1⟩
def FLD_CTRL_MACHINE : Fld := ⟨0x40000, 20, 1⟩
def FLD_CTRL_DEC_MODE : Fld := ⟨0x40000, 18, 2⟩
def FLD_CTRL_FF_EN : Fld := ⟨0x40000, 17, 1⟩
def FLD_CTRL_VLIM_MODE : Fld := ⟨0x40000, 16, 1⟩
def FLD_CTRL_TAINT_USE : Fld := ⟨0x40000, 15, 1⟩
def FLD_CTRL_PRED_MAX : Fld := ⟨0x40000, 8, 4⟩
def FLD_CTRL_PARAM_COMMIT : Fld := ⟨0x40000, 1, 1⟩
def FLD_CTRL_APPLY : Fld := ⟨0x40000, 0, 1⟩
def FLD_STATUS : Nat := 0x40004
def FLD_STATUS_CATCH_STEP : Fld := ⟨0x40004, 16, 4⟩
def FLD_STATUS_CFG_REFUSED : Fld := ⟨0x40004, 11, 1⟩
def FLD_STATUS_STAGED : Fld := ⟨0x40004, 10, 1⟩
def FLD_STATUS_MM_ACTIVE : Fld := ⟨0x40004, 9, 1⟩
def FLD_STATUS_FORM : Fld := ⟨0x40004, 4, 1⟩
def FLD_STATUS_VLIM : Fld := ⟨0x40004, 3, 1⟩
def FLD_STATUS_PRED : Fld := ⟨0x40004, 2, 1⟩
def FLD_STATUS_BUSY : Fld := ⟨0x40004, 0, 1⟩
def FLD_BASE_I : Nat := 0x40010
def FLD_BASE_I_I_BASE : Fld := ⟨0x40010, 0, 24⟩
def FLD_BASE_U : Nat := 0x40014
def FLD_BASE_U_U_BASE : Fld := ⟨0x40014, 0, 24⟩
def FLD_BASE_F : Nat := 0x40018
def FLD_BASE_F_F_BASE : Fld := ⟨0x40018, 0, 20⟩
def FLD_MAP : Nat := 0x4001C
def FLD_MAP_GROUP_A : Fld := ⟨0x4001C, 16, 2⟩
def FLD_MAP_TERM : Fld := ⟨0x4001C, 12, 4⟩
def FLD_MAP_UDC_B : Fld := ⟨0x4001C, 8, 4⟩
def FLD_MAP_UDC_A : Fld := ⟨0x4001C, 4, 4⟩
def FLD_MAP_SET_A : Fld := ⟨0x4001C, 0, 4⟩
def FLD_TIMING : Nat := 0x40020
def FLD_TIMING_DELAY_TRIM : Fld := ⟨0x40020, 16, 16⟩
def FLD_MM_CFG : Nat := 0x40024
def FLD_MM_CFG_MM_CLASS : Fld := ⟨0x40024, 30, 2⟩
def FLD_MM_CFG_MM_EN : Fld := ⟨0x40024, 29, 1⟩
def FLD_MM_CFG_MAG_TEMP_SRC : Fld := ⟨0x40024, 24, 3⟩
def FLD_MM_CFG_MM_TIME : Fld := ⟨0x40024, 0, 16⟩
def FLD_MM_RATIO : Nat := 0x40028
def FLD_MM_RATIO_MM_HI : Fld := ⟨0x40028, 16, 16⟩
def FLD_MM_RATIO_MM_LO : Fld := ⟨0x40028, 0, 16⟩
def FLD_MAG_TEMP : Nat := 0x4002C
def FLD_MAG_TEMP_MAG_TEMP : Fld := ⟨0x4002C, 0, 16⟩
def FLD_CATCH_CFG : Nat := 0x40030
def FLD_CATCH_CFG_T_CATCH : Fld := ⟨0x40030, 24, 8⟩
def FLD_CATCH_CFG_ZV_N : Fld := ⟨0x40030, 20, 4⟩
def FLD_CATCH_CFG_ZV_TIME : Fld := ⟨0x40030, 0, 13⟩
def FLD_CATCH_GAP : Nat := 0x40034
def FLD_CATCH_GAP_CATCH_AUTO : Fld := ⟨0x40034, 31, 1⟩
def FLD_CATCH_GAP_ZV_GAP : Fld := ⟨0x40034, 0, 16⟩
def FLD_CATCH_ANGLE : Nat := 0x40040
def FLD_CATCH_SPEED : Nat := 0x40048
def FLD_CATCH_TICK : Nat := 0x40050
def FLD_CATCH_STATUS : Nat := 0x40058
def FLD_CATCH_STATUS_ANGLE_VALID : Fld := ⟨0x40058, 8, 1⟩
def FLD_CATCH_STATUS_DIR : Fld := ⟨0x40058, 7, 1⟩
def FLD_CATCH_STATUS_OUTCOME : Fld := ⟨0x40058, 0, 4⟩
def FLD_PASS_SKIP_CNT : Nat := 0x40060
def FLD_PASS_SKIP_CNT_SAT : Fld := ⟨0x40060, 31, 1⟩
def FLD_PASS_SKIP_CNT_COUNT : Fld := ⟨0x40060, 0, 16⟩
def FLD_PRED_CNT : Nat := 0x40064
def FLD_PRED_CNT_SAT : Fld := ⟨0x40064, 31, 1⟩
def FLD_PRED_CNT_COUNT : Fld := ⟨0x40064, 0, 16⟩
def FLD_SAT_CNT : Nat := 0x40068
def FLD_SAT_CNT_SAT : Fld := ⟨0x40068, 31, 1⟩
def FLD_SAT_CNT_COUNT : Fld := ⟨0x40068, 0, 16⟩
def FLD_VLIM_CNT : Nat := 0x4006C
def FLD_VLIM_CNT_SAT : Fld := ⟨0x4006C, 31, 1⟩
def FLD_VLIM_CNT_COUNT : Fld := ⟨0x4006C, 0, 16⟩
def FLD_SAT_FLAGS : Nat := 0x40070
def FLD_SAT_FLAGS_STAGE : Fld := ⟨0x40070, 0, 9⟩
def FLD_TBL_CTRL : Nat := 0x40074
def FLD_TBL_CTRL_ACTIVE : Fld := ⟨0x40074, 16, 3⟩
def FLD_TBL_CTRL_PENDING : Fld := ⟨0x40074, 8, 3⟩
def FLD_TBL_CTRL_SWAP : Fld := ⟨0x40074, 0, 3⟩
def FLD_P_KP_D : Nat := 0x40100
def FLD_P_KP_Q : Nat := 0x40108
def FLD_P_KI_D : Nat := 0x40110
def FLD_P_KI_Q : Nat := 0x40118
def FLD_P_INT_MAX : Nat := 0x40120
def FLD_P_AW_GAIN : Nat := 0x40128
def FLD_P_RS : Nat := 0x40130
def FLD_P_LD : Nat := 0x40138
def FLD_P_LQ : Nat := 0x40140
def FLD_P_PSI_PM20 : Nat := 0x40148
def FLD_P_ALPHA_PM : Nat := 0x40150
def FLD_P_MI_MAX : Nat := 0x40158
def FLD_P_FW_MARGIN : Nat := 0x40160
def FLD_P_FW_KP : Nat := 0x40168
def FLD_P_FW_KI : Nat := 0x40170
def FLD_P_PSI_MIN : Nat := 0x40178
def FLD_P_PSI_MAX : Nat := 0x40180
def FLD_P_T_TAB : Nat := 0x40188
def FLD_P_I_LIMIT : Nat := 0x40190
def FLD_P_T_MAX : Nat := 0x40198
def FLD_P_T_MIN : Nat := 0x401A0
def FLD_P_T_SLEW : Nat := 0x401A8
def FLD_P_RAMP_F2 : Nat := 0x401B0
def FLD_P_SPD_KP : Nat := 0x401B8
def FLD_P_SPD_KI : Nat := 0x401C0
def FLD_P_SPD_RAMP : Nat := 0x401C8
def FLD_P_OBS_XOVER : Nat := 0x401D0
def FLD_P_OBS_PLL_BW : Nat := 0x401D8
def FLD_P_OBS_MIN_SPEED : Nat := 0x401E0
def FLD_P_LM : Nat := 0x401E8
def FLD_P_LR : Nat := 0x401F0
def FLD_P_RR : Nat := 0x401F8
def FLD_P_LSIG : Nat := 0x40200
def FLD_P_CATCH_EMF_MIN : Nat := 0x40208
def FLD_P_ZV_I_MIN : Nat := 0x40210
def FLD_P_MM_SPEED_MIN : Nat := 0x40218
def FLD_P_MAG_ID : Nat := 0x40220
def FLD_P_I_MAP : Nat := 0x40228
def FLD_FB_CTRL : Nat := 0x40300
def FLD_FB_CTRL_EN : Fld := ⟨0x40300, 31, 1⟩
def FLD_FB_CTRL_FB_SRC : Fld := ⟨0x40300, 26, 2⟩
def FLD_FB_CTRL_TARGETS : Fld := ⟨0x40300, 16, 8⟩
def FLD_FB_CTRL_FB_TIMEOUT : Fld := ⟨0x40300, 0, 10⟩
def FLD_FB_XON : Nat := 0x40308
def FLD_FB_XOFF : Nat := 0x40310
def FLD_FB_X : Nat := 0x40320
def FLD_FB_STATUS : Nat := 0x40318
def FLD_FB_STATUS_INPUT_LOSS : Fld := ⟨0x40318, 2, 1⟩
def FLD_FB_STATUS_ACTIVE : Fld := ⟨0x40318, 1, 1⟩
def FLD_FB_STATUS_INPUT_OK : Fld := ⟨0x40318, 0, 1⟩
def MOD_CTRL : Nat := 0x50000
def MOD_CTRL_EN : Fld := ⟨0x50000, 31, 1⟩
def MOD_CTRL_DOUBLE : Fld := ⟨0x50000, 30, 1⟩
def MOD_CTRL_FALLBACK_SLOT : Fld := ⟨0x50000, 24, 4⟩
def MOD_CTRL_FDT_PERIODS : Fld := ⟨0x50000, 16, 8⟩
def MOD_CTRL_APPLY : Fld := ⟨0x50000, 0, 1⟩
def MOD_STATUS : Nat := 0x50004
def MOD_STATUS_SLOT : Fld := ⟨0x50004, 28, 4⟩
def MOD_STATUS_KIND : Fld := ⟨0x50004, 26, 2⟩
def MOD_STATUS_SEAM_PENDING : Fld := ⟨0x50004, 25, 1⟩
def MOD_STATUS_FDT : Fld := ⟨0x50004, 24, 1⟩
def MOD_STATUS_EPOCH_STATE : Fld := ⟨0x50004, 22, 2⟩
def MOD_STATUS_SET_ERR : Fld := ⟨0x50004, 9, 1⟩
def MOD_STATUS_CFG_REFUSED : Fld := ⟨0x50004, 8, 1⟩
def MOD_STATUS_CUT : Fld := ⟨0x50004, 0, 4⟩
def MOD_NEXT : Nat := 0x50008
def MOD_NEXT_P_NEXT : Fld := ⟨0x50008, 0, 21⟩
def MOD_DEPTH : Nat := 0x5000C
def MOD_DEPTH_M_LIM : Fld := ⟨0x5000C, 0, 16⟩
def MOD_KEEPOUT : Nat := 0x50010
def MOD_KEEPOUT_KO_VALLEY : Fld := ⟨0x50010, 31, 1⟩
def MOD_KEEPOUT_KO_PEAK : Fld := ⟨0x50010, 30, 1⟩
def MOD_KEEPOUT_KO_HALF : Fld := ⟨0x50010, 0, 16⟩
def MOD_MINPULSE : Nat := 0x50014
def MOD_MINPULSE_MIN_PULSE : Fld := ⟨0x50014, 0, 14⟩
def MOD_SKEW : Nat := 0x50018
def MOD_SKEW_SKEW_LIM : Fld := ⟨0x50018, 0, 8⟩
def MOD_CUT_CLR : Nat := 0x5001C
def MOD_CUT_CLR_CLR : Fld := ⟨0x5001C, 0, 4⟩
def MOD_PORT_CFG (i : Nat) : Nat := 0x50040 + 32 * i
def MOD_PORT_CFG_COMP_EN (i : Nat) : Fld := ⟨0x50040 + 32 * i, 31, 1⟩
def MOD_PORT_CFG_CUT_EN (i : Nat) : Fld := ⟨0x50040 + 32 * i, 30, 1⟩
def MOD_PORT_CFG_CUT_MODE (i : Nat) : Fld := ⟨0x50040 + 32 * i, 28, 2⟩
def MOD_PORT_CFG_CUT_CH (i : Nat) : Fld := ⟨0x50040 + 32 * i, 24, 4⟩
def MOD_PORT_CFG_AUX_MODE (i : Nat) : Fld := ⟨0x50040 + 32 * i, 20, 3⟩
def MOD_PORT_CFG_AUX_SW (i : Nat) : Fld := ⟨0x50040 + 32 * i, 19, 1⟩
def MOD_PORT_CFG_I_BAND (i : Nat) : Fld := ⟨0x50040 + 32 * i, 0, 16⟩
def MOD_PORT_DT (i : Nat) : Nat := 0x50044 + 32 * i
def MOD_PORT_DT_DT_FIXED (i : Nat) : Fld := ⟨0x50044 + 32 * i, 16, 16⟩
def MOD_PORT_DT_DT_IL (i : Nat) : Fld := ⟨0x50044 + 32 * i, 0, 16⟩
def MOD_PORT_TD (i : Nat) : Nat := 0x50048 + 32 * i
def MOD_PORT_TD_TD_ON (i : Nat) : Fld := ⟨0x50048 + 32 * i, 16, 16⟩
def MOD_PORT_TD_TD_OFF (i : Nat) : Fld := ⟨0x50048 + 32 * i, 0, 16⟩
def MOD_PORT_WAIT (i : Nat) : Nat := 0x5004C + 32 * i
def MOD_PORT_WAIT_W_HS (i : Nat) : Fld := ⟨0x5004C + 32 * i, 16, 16⟩
def MOD_PORT_WAIT_W_LS (i : Nat) : Fld := ⟨0x5004C + 32 * i, 0, 16⟩
def MOD_TRIG (i : Nat) : Nat := 0x500C0 + 8 * i
def MOD_TRIG_EN (i : Nat) : Fld := ⟨0x500C0 + 8 * i, 31, 1⟩
def MOD_TRIG_REF (i : Nat) : Fld := ⟨0x500C0 + 8 * i, 29, 2⟩
def MOD_TRIG_FINE (i : Nat) : Fld := ⟨0x500C0 + 8 * i, 24, 5⟩
def MOD_TRIG_ACTION (i : Nat) : Fld := ⟨0x500C0 + 8 * i, 20, 4⟩
def MOD_TRIG_ARG (i : Nat) : Fld := ⟨0x500C0 + 8 * i, 0, 8⟩
def MOD_TRIG_OFS (i : Nat) : Nat := 0x500C4 + 8 * i
def MOD_TRIG_OFS_OFFSET (i : Nat) : Fld := ⟨0x500C4 + 8 * i, 0, 32⟩
def MOD_EPOCH_CTRL : Nat := 0x500E0
def MOD_EPOCH_CTRL_EN : Fld := ⟨0x500E0, 31, 1⟩
def MOD_EPOCH_CTRL_EPOCH_STEP : Fld := ⟨0x500E0, 16, 8⟩
def MOD_EPOCH_CTRL_EPOCH_TOL : Fld := ⟨0x500E0, 0, 16⟩
def MOD_EPOCH_ERR : Nat := 0x500E4
def MOD_EPOCH_ERR_E : Fld := ⟨0x500E4, 0, 32⟩
def MOD_SLOT (i : Nat) : Nat := 0x50100 + 8 * i
def MOD_SLOT_KIND (i : Nat) : Fld := ⟨0x50100 + 8 * i, 30, 2⟩
def MOD_SLOT_VARIANT (i : Nat) : Fld := ⟨0x50100 + 8 * i, 28, 2⟩
def MOD_SLOT_OVM (i : Nat) : Fld := ⟨0x50100 + 8 * i, 27, 1⟩
def MOD_SLOT_N (i : Nat) : Fld := ⟨0x50100 + 8 * i, 21, 4⟩
def MOD_SLOT_M_M1 (i : Nat) : Fld := ⟨0x50100 + 8 * i, 17, 4⟩
def MOD_SLOT_BASE (i : Nat) : Fld := ⟨0x50100 + 8 * i, 8, 9⟩
def MOD_SLOT_M (i : Nat) : Nat := 0x50104 + 8 * i
def MOD_SLOT_M_M_HI (i : Nat) : Fld := ⟨0x50104 + 8 * i, 16, 16⟩
def MOD_SLOT_M_M_LO (i : Nat) : Fld := ⟨0x50104 + 8 * i, 0, 16⟩
def MOD_SYNC : Nat := 0x50180
def MOD_SYNC_SYNC_MIN : Fld := ⟨0x50180, 16, 16⟩
def MOD_SYNC_SEAM_MIN : Fld := ⟨0x50180, 0, 16⟩
def MOD_TRACK : Nat := 0x50184
def MOD_TRACK_TRACK_GAIN : Fld := ⟨0x50184, 24, 8⟩
def MOD_TRACK_SHIFT_MAX : Fld := ⟨0x50184, 16, 8⟩
def MOD_DL_STATUS : Nat := 0x50190
def MOD_DL_STATUS_FAULT : Fld := ⟨0x50190, 7, 1⟩
def MOD_DL_STATUS_N_C : Fld := ⟨0x50190, 0, 7⟩
def MOD_PAT_CTRL : Nat := 0x50194
def MOD_PAT_CTRL_PENDING : Fld := ⟨0x50194, 9, 1⟩
def MOD_PAT_CTRL_ACTIVE : Fld := ⟨0x50194, 8, 1⟩
def MOD_PAT_CTRL_SWAP : Fld := ⟨0x50194, 0, 1⟩
def MOD_SET_CTRL : Nat := 0x50200
def MOD_SET_CTRL_WRITTEN : Fld := ⟨0x50200, 16, 7⟩
def MOD_SET_CTRL_IS_OPEN : Fld := ⟨0x50200, 8, 1⟩
def MOD_SET_CTRL_ABORT : Fld := ⟨0x50200, 2, 1⟩
def MOD_SET_CTRL_CLOSE : Fld := ⟨0x50200, 1, 1⟩
def MOD_SET_CTRL_OPEN : Fld := ⟨0x50200, 0, 1⟩
def MOD_SH_PERIOD : Nat := 0x50208
def MOD_SH_VA : Nat := 0x50210
def MOD_SH_VB : Nat := 0x50218
def MOD_SH_UDC : Nat := 0x50220
def MOD_SH_DUTY_U : Nat := 0x50228
def MOD_SH_DUTY_V : Nat := 0x50230
def MOD_SH_DUTY_W : Nat := 0x50238
def MOD_SH_DUTY_FMT : Nat := 0x50240
def MOD_SH_ID : Nat := 0x50248
def MOD_SH_IQ : Nat := 0x50250
def MOD_SH_THETA : Nat := 0x50258
def MOD_SH_AUX_DUTY : Nat := 0x50260
def MOD_SH_AUX_TON : Nat := 0x50268
def MOD_SH_AUX_TOFF : Nat := 0x50270
def MOD_SH_SLOT : Nat := 0x50278
def MOD_LATE_SETS : Nat := 0x50300
def MOD_LATE_SETS_SAT : Fld := ⟨0x50300, 31, 1⟩
def MOD_LATE_SETS_COUNT : Fld := ⟨0x50300, 0, 16⟩
def MOD_SUPERSEDED_CNT : Nat := 0x50304
def MOD_SUPERSEDED_CNT_SAT : Fld := ⟨0x50304, 31, 1⟩
def MOD_SUPERSEDED_CNT_COUNT : Fld := ⟨0x50304, 0, 16⟩
def MOD_DUTY_CLAMP_CNT : Nat := 0x50308
def MOD_DUTY_CLAMP_CNT_SAT : Fld := ⟨0x50308, 31, 1⟩
def MOD_DUTY_CLAMP_CNT_COUNT : Fld := ⟨0x50308, 0, 16⟩
def MOD_DEPTH_CLIP_CNT : Nat := 0x5030C
def MOD_DEPTH_CLIP_CNT_SAT : Fld := ⟨0x5030C, 31, 1⟩
def MOD_DEPTH_CLIP_CNT_COUNT : Fld := ⟨0x5030C, 0, 16⟩
def MOD_MINPULSE_CNT : Nat := 0x50310
def MOD_MINPULSE_CNT_SAT : Fld := ⟨0x50310, 31, 1⟩
def MOD_MINPULSE_CNT_COUNT : Fld := ⟨0x50310, 0, 16⟩
def MOD_SPACING_CNT : Nat := 0x50314
def MOD_SPACING_CNT_SAT : Fld := ⟨0x50314, 31, 1⟩
def MOD_SPACING_CNT_COUNT : Fld := ⟨0x50314, 0, 16⟩
def MOD_CUT_CNT : Nat := 0x50318
def MOD_CUT_CNT_SAT : Fld := ⟨0x50318, 31, 1⟩
def MOD_CUT_CNT_COUNT : Fld := ⟨0x50318, 0, 16⟩
def MOD_TRIG_SKIP_CNT : Nat := 0x5031C
def MOD_TRIG_SKIP_CNT_SAT : Fld := ⟨0x5031C, 31, 1⟩
def MOD_TRIG_SKIP_CNT_COUNT : Fld := ⟨0x5031C, 0, 16⟩
def MOD_SYNC_LATE_CNT : Nat := 0x50320
def MOD_SYNC_LATE_CNT_SAT : Fld := ⟨0x50320, 31, 1⟩
def MOD_SYNC_LATE_CNT_COUNT : Fld := ⟨0x50320, 0, 16⟩
def MOD_SYNC_SKIP_CNT : Nat := 0x50324
def MOD_SYNC_SKIP_CNT_SAT : Fld := ⟨0x50324, 31, 1⟩
def MOD_SYNC_SKIP_CNT_COUNT : Fld := ⟨0x50324, 0, 16⟩
def MOD_FORM_MISMATCH_CNT : Nat := 0x50328
def MOD_FORM_MISMATCH_CNT_SAT : Fld := ⟨0x50328, 31, 1⟩
def MOD_FORM_MISMATCH_CNT_COUNT : Fld := ⟨0x50328, 0, 16⟩
def MOD_PAT_RANGE_CNT : Nat := 0x5032C
def MOD_PAT_RANGE_CNT_SAT : Fld := ⟨0x5032C, 31, 1⟩
def MOD_PAT_RANGE_CNT_COUNT : Fld := ⟨0x5032C, 0, 16⟩
def FLD_PAIR_CTRL : Nat := 0x40380
def FLD_PAIR_CTRL_MODE : Fld := ⟨0x40380, 28, 2⟩
def FLD_PAIR_CTRL_ROLE : Fld := ⟨0x40380, 27, 1⟩
def FLD_PAIR_CTRL_TAKEOVER : Fld := ⟨0x40380, 26, 1⟩
def FLD_PAIR_CTRL_ALT_SRC : Fld := ⟨0x40380, 23, 3⟩
def FLD_PAIR_CTRL_HALF_SAFE : Fld := ⟨0x40380, 19, 2⟩
def FLD_PAIR_CTRL_STOP : Fld := ⟨0x40380, 1, 1⟩
def FLD_PAIR_CTRL_START : Fld := ⟨0x40380, 0, 1⟩
def FLD_PAIR_LIMITS : Nat := 0x40384
def FLD_PAIR_LIMITS_HALF_T : Fld := ⟨0x40384, 24, 8⟩
def FLD_PAIR_LIMITS_HALF_I : Fld := ⟨0x40384, 16, 8⟩
def FLD_PAIR_LIMITS_T_CONFIRM : Fld := ⟨0x40384, 0, 16⟩
def FLD_PAIR_STATUS : Nat := 0x40388
def FLD_PAIR_STATUS_CFG_REFUSED : Fld := ⟨0x40388, 18, 1⟩
def FLD_PAIR_STATUS_START_REFUSED : Fld := ⟨0x40388, 17, 1⟩
def FLD_PAIR_STATUS_BROKEN : Fld := ⟨0x40388, 16, 1⟩
def FLD_PAIR_STATUS_REFUSE_CAUSE : Fld := ⟨0x40388, 8, 4⟩
def FLD_PAIR_STATUS_BREAK_CAUSE : Fld := ⟨0x40388, 5, 3⟩
def FLD_PAIR_STATUS_CONSEC : Fld := ⟨0x40388, 3, 2⟩
def FLD_PAIR_STATUS_STATE : Fld := ⟨0x40388, 0, 3⟩
def FLD_PAIR_LATE_CNT : Nat := 0x40390
def FLD_PAIR_LATE_CNT_SAT : Fld := ⟨0x40390, 31, 1⟩
def FLD_PAIR_LATE_CNT_COUNT : Fld := ⟨0x40390, 0, 16⟩
def FLD_PAIR_MISS_CNT : Nat := 0x40394
def FLD_PAIR_MISS_CNT_SAT : Fld := ⟨0x40394, 31, 1⟩
def FLD_PAIR_MISS_CNT_COUNT : Fld := ⟨0x40394, 0, 16⟩
def FLD_P_HL_KP : Nat := 0x40230
def FLD_P_HL_KI : Nat := 0x40238
def FLD_P_HL_INT_MAX : Nat := 0x40240
def FLD_P_HL_VMAX : Nat := 0x40248
def LEG_CTRL : Nat := 0x60000
def LEG_CTRL_EN : Fld := ⟨0x60000, 31, 1⟩
def LEG_CTRL_T_LINK : Fld := ⟨0x60000, 16, 8⟩
def LEG_CTRL_WL_SKEW : Fld := ⟨0x60000, 8, 6⟩
def LEG_CTRL_APPLY : Fld := ⟨0x60000, 0, 1⟩
def LEG_STATUS : Nat := 0x60004
def LEG_STATUS_CFG_REFUSED : Fld := ⟨0x60004, 16, 1⟩
def LEG_STATUS_READY : Fld := ⟨0x60004, 12, 4⟩
def LEG_STATUS_IL_CONF : Fld := ⟨0x60004, 8, 4⟩
def LEG_STATUS_SEIZED : Fld := ⟨0x60004, 4, 4⟩
def LEG_STATUS_PRESENT : Fld := ⟨0x60004, 0, 4⟩
def LEG_PORT_CFG (i : Nat) : Nat := 0x60100 + 128 * i
def LEG_PORT_CFG_PRESENT (i : Nat) : Fld := ⟨0x60100 + 128 * i, 31, 1⟩
def LEG_PORT_CFG_SUPPLY (i : Nat) : Fld := ⟨0x60100 + 128 * i, 30, 1⟩
def LEG_PORT_CFG_LOSS_CLASS (i : Nat) : Fld := ⟨0x60100 + 128 * i, 26, 2⟩
def LEG_PORT_CFG_UV_CLASS (i : Nat) : Fld := ⟨0x60100 + 128 * i, 24, 2⟩
def LEG_PORT_CFG_BOOT_CLASS (i : Nat) : Fld := ⟨0x60100 + 128 * i, 22, 2⟩
def LEG_PORT_CFG_IL_CLASS (i : Nat) : Fld := ⟨0x60100 + 128 * i, 20, 2⟩
def LEG_PORT_CFG_T_BLANK (i : Nat) : Fld := ⟨0x60100 + 128 * i, 7, 10⟩
def LEG_PORT_CFG_IL_MAX (i : Nat) : Fld := ⟨0x60100 + 128 * i, 0, 7⟩
def LEG_PORT_BOOT (i : Nat) : Nat := 0x60104 + 128 * i
def LEG_PORT_BOOT_T_HOLD (i : Nat) : Fld := ⟨0x60104 + 128 * i, 16, 16⟩
def LEG_PORT_BOOT_T_REFRESH (i : Nat) : Fld := ⟨0x60104 + 128 * i, 0, 12⟩
def LEG_PORT_IBAND0 (i : Nat) : Nat := 0x60108 + 128 * i
def LEG_PORT_IBAND0_I_B2 (i : Nat) : Fld := ⟨0x60108 + 128 * i, 16, 16⟩
def LEG_PORT_IBAND0_I_B1 (i : Nat) : Fld := ⟨0x60108 + 128 * i, 0, 16⟩
def LEG_PORT_IBAND1 (i : Nat) : Nat := 0x6010C + 128 * i
def LEG_PORT_IBAND1_I_B3 (i : Nat) : Fld := ⟨0x6010C + 128 * i, 0, 16⟩
def LEG_PORT_TBAND0 (i : Nat) : Nat := 0x60110 + 128 * i
def LEG_PORT_TBAND0_T_B2 (i : Nat) : Fld := ⟨0x60110 + 128 * i, 16, 16⟩
def LEG_PORT_TBAND0_T_B1 (i : Nat) : Fld := ⟨0x60110 + 128 * i, 0, 16⟩
def LEG_PORT_TBAND1 (i : Nat) : Nat := 0x60114 + 128 * i
def LEG_PORT_TBAND1_T_B3 (i : Nat) : Fld := ⟨0x60114 + 128 * i, 0, 16⟩
def LEG_PORT_SEL_ON_LO (i : Nat) : Nat := 0x60118 + 128 * i
def LEG_PORT_SEL_ON_LO_E7 (i : Nat) : Fld := ⟨0x60118 + 128 * i, 28, 4⟩
def LEG_PORT_SEL_ON_LO_E6 (i : Nat) : Fld := ⟨0x60118 + 128 * i, 24, 4⟩
def LEG_PORT_SEL_ON_LO_E5 (i : Nat) : Fld := ⟨0x60118 + 128 * i, 20, 4⟩
def LEG_PORT_SEL_ON_LO_E4 (i : Nat) : Fld := ⟨0x60118 + 128 * i, 16, 4⟩
def LEG_PORT_SEL_ON_LO_E3 (i : Nat) : Fld := ⟨0x60118 + 128 * i, 12, 4⟩
def LEG_PORT_SEL_ON_LO_E2 (i : Nat) : Fld := ⟨0x60118 + 128 * i, 8, 4⟩
def LEG_PORT_SEL_ON_LO_E1 (i : Nat) : Fld := ⟨0x60118 + 128 * i, 4, 4⟩
def LEG_PORT_SEL_ON_LO_E0 (i : Nat) : Fld := ⟨0x60118 + 128 * i, 0, 4⟩
def LEG_PORT_SEL_ON_HI (i : Nat) : Nat := 0x6011C + 128 * i
def LEG_PORT_SEL_ON_HI_E15 (i : Nat) : Fld := ⟨0x6011C + 128 * i, 28, 4⟩
def LEG_PORT_SEL_ON_HI_E14 (i : Nat) : Fld := ⟨0x6011C + 128 * i, 24, 4⟩
def LEG_PORT_SEL_ON_HI_E13 (i : Nat) : Fld := ⟨0x6011C + 128 * i, 20, 4⟩
def LEG_PORT_SEL_ON_HI_E12 (i : Nat) : Fld := ⟨0x6011C + 128 * i, 16, 4⟩
def LEG_PORT_SEL_ON_HI_E11 (i : Nat) : Fld := ⟨0x6011C + 128 * i, 12, 4⟩
def LEG_PORT_SEL_ON_HI_E10 (i : Nat) : Fld := ⟨0x6011C + 128 * i, 8, 4⟩
def LEG_PORT_SEL_ON_HI_E9 (i : Nat) : Fld := ⟨0x6011C + 128 * i, 4, 4⟩
def LEG_PORT_SEL_ON_HI_E8 (i : Nat) : Fld := ⟨0x6011C + 128 * i, 0, 4⟩
def LEG_PORT_SEL_OFF_LO (i : Nat) : Nat := 0x60120 + 128 * i
def LEG_PORT_SEL_OFF_LO_E7 (i : Nat) : Fld := ⟨0x60120 + 128 * i, 28, 4⟩
def LEG_PORT_SEL_OFF_LO_E6 (i : Nat) : Fld := ⟨0x60120 + 128 * i, 24, 4⟩
def LEG_PORT_SEL_OFF_LO_E5 (i : Nat) : Fld := ⟨0x60120 + 128 * i, 20, 4⟩
def LEG_PORT_SEL_OFF_LO_E4 (i : Nat) : Fld := ⟨0x60120 + 128 * i, 16, 4⟩
def LEG_PORT_SEL_OFF_LO_E3 (i : Nat) : Fld := ⟨0x60120 + 128 * i, 12, 4⟩
def LEG_PORT_SEL_OFF_LO_E2 (i : Nat) : Fld := ⟨0x60120 + 128 * i, 8, 4⟩
def LEG_PORT_SEL_OFF_LO_E1 (i : Nat) : Fld := ⟨0x60120 + 128 * i, 4, 4⟩
def LEG_PORT_SEL_OFF_LO_E0 (i : Nat) : Fld := ⟨0x60120 + 128 * i, 0, 4⟩
def LEG_PORT_SEL_OFF_HI (i : Nat) : Nat := 0x60124 + 128 * i
def LEG_PORT_SEL_OFF_HI_E15 (i : Nat) : Fld := ⟨0x60124 + 128 * i, 28, 4⟩
def LEG_PORT_SEL_OFF_HI_E14 (i : Nat) : Fld := ⟨0x60124 + 128 * i, 24, 4⟩
def LEG_PORT_SEL_OFF_HI_E13 (i : Nat) : Fld := ⟨0x60124 + 128 * i, 20, 4⟩
def LEG_PORT_SEL_OFF_HI_E12 (i : Nat) : Fld := ⟨0x60124 + 128 * i, 16, 4⟩
def LEG_PORT_SEL_OFF_HI_E11 (i : Nat) : Fld := ⟨0x60124 + 128 * i, 12, 4⟩
def LEG_PORT_SEL_OFF_HI_E10 (i : Nat) : Fld := ⟨0x60124 + 128 * i, 8, 4⟩
def LEG_PORT_SEL_OFF_HI_E9 (i : Nat) : Fld := ⟨0x60124 + 128 * i, 4, 4⟩
def LEG_PORT_SEL_OFF_HI_E8 (i : Nat) : Fld := ⟨0x60124 + 128 * i, 0, 4⟩
def LEG_PORT_DEF (i : Nat) : Nat := 0x60128 + 128 * i
def LEG_PORT_DEF_DEF_OFF (i : Nat) : Fld := ⟨0x60128 + 128 * i, 4, 4⟩
def LEG_PORT_DEF_DEF_ON (i : Nat) : Fld := ⟨0x60128 + 128 * i, 0, 4⟩
def LEG_PORT_CMD (i : Nat) : Nat := 0x6012C + 128 * i
def LEG_PORT_CMD_SPLICE (i : Nat) : Fld := ⟨0x6012C + 128 * i, 4, 1⟩
def LEG_PORT_CMD_SELFTEST (i : Nat) : Fld := ⟨0x6012C + 128 * i, 3, 1⟩
def LEG_PORT_CMD_SUM (i : Nat) : Fld := ⟨0x6012C + 128 * i, 2, 1⟩
def LEG_PORT_CMD_CLEAR (i : Nat) : Fld := ⟨0x6012C + 128 * i, 1, 1⟩
def LEG_PORT_CMD_RESTART (i : Nat) : Fld := ⟨0x6012C + 128 * i, 0, 1⟩
def LEG_PORT_STATUS (i : Nat) : Nat := 0x60130 + 128 * i
def LEG_PORT_STATUS_LINK (i : Nat) : Fld := ⟨0x60130 + 128 * i, 29, 3⟩
def LEG_PORT_STATUS_CAUSE (i : Nat) : Fld := ⟨0x60130 + 128 * i, 26, 3⟩
def LEG_PORT_STATUS_SPARE (i : Nat) : Fld := ⟨0x60130 + 128 * i, 25, 1⟩
def LEG_PORT_STATUS_FDT (i : Nat) : Fld := ⟨0x60130 + 128 * i, 24, 1⟩
def LEG_PORT_STATUS_G_HS (i : Nat) : Fld := ⟨0x60130 + 128 * i, 23, 1⟩
def LEG_PORT_STATUS_G_LS (i : Nat) : Fld := ⟨0x60130 + 128 * i, 22, 1⟩
def LEG_PORT_STATUS_C_HS (i : Nat) : Fld := ⟨0x60130 + 128 * i, 21, 1⟩
def LEG_PORT_STATUS_C_LS (i : Nat) : Fld := ⟨0x60130 + 128 * i, 20, 1⟩
def LEG_PORT_STATUS_LATCH (i : Nat) : Fld := ⟨0x60130 + 128 * i, 19, 1⟩
def LEG_PORT_STATUS_KA_LOST (i : Nat) : Fld := ⟨0x60130 + 128 * i, 18, 1⟩
def LEG_PORT_STATUS_UV_HS (i : Nat) : Fld := ⟨0x60130 + 128 * i, 17, 1⟩
def LEG_PORT_STATUS_UV_LS (i : Nat) : Fld := ⟨0x60130 + 128 * i, 16, 1⟩
def LEG_PORT_STATUS_OT (i : Nat) : Fld := ⟨0x60130 + 128 * i, 15, 1⟩
def LEG_PORT_STATUS_WL_LOST (i : Nat) : Fld := ⟨0x60130 + 128 * i, 14, 1⟩
def LEG_PORT_STATUS_DESAT_HS (i : Nat) : Fld := ⟨0x60130 + 128 * i, 13, 1⟩
def LEG_PORT_STATUS_DESAT_LS (i : Nat) : Fld := ⟨0x60130 + 128 * i, 12, 1⟩
def LEG_PORT_STATUS_SHORT_HS (i : Nat) : Fld := ⟨0x60130 + 128 * i, 11, 1⟩
def LEG_PORT_STATUS_SHORT_LS (i : Nat) : Fld := ⟨0x60130 + 128 * i, 10, 1⟩
def LEG_PORT_STATUS_REFRESH_DUE (i : Nat) : Fld := ⟨0x60130 + 128 * i, 9, 1⟩
def LEG_PORT_STATUS_TEST_FAIL (i : Nat) : Fld := ⟨0x60130 + 128 * i, 8, 1⟩
def LEG_PORT_STATUS_BOOT_CONSEC (i : Nat) : Fld := ⟨0x60130 + 128 * i, 6, 2⟩
def LEG_PORT_HEAD (i : Nat) : Nat := 0x60134 + 128 * i
def LEG_PORT_HEAD_VERSION (i : Nat) : Fld := ⟨0x60134 + 128 * i, 12, 4⟩
def LEG_PORT_HEAD_BOOT (i : Nat) : Fld := ⟨0x60134 + 128 * i, 8, 1⟩
def LEG_PORT_HEAD_LATENCY (i : Nat) : Fld := ⟨0x60134 + 128 * i, 0, 8⟩
def LEG_PORT_SUPPLY (i : Nat) : Nat := 0x60138 + 128 * i
def LEG_PORT_SUPPLY_HS (i : Nat) : Fld := ⟨0x60138 + 128 * i, 16, 16⟩
def LEG_PORT_SUPPLY_LS (i : Nat) : Fld := ⟨0x60138 + 128 * i, 0, 16⟩
def LEG_PORT_TEMP (i : Nat) : Nat := 0x6013C + 128 * i
def LEG_PORT_TEMP_HEAD (i : Nat) : Fld := ⟨0x6013C + 128 * i, 16, 16⟩
def LEG_PORT_TEMP_MODULE (i : Nat) : Fld := ⟨0x6013C + 128 * i, 0, 16⟩
def LEG_PORT_MARGIN (i : Nat) : Nat := 0x60140 + 128 * i
def LEG_PORT_MARGIN_HEAD_ERR (i : Nat) : Fld := ⟨0x60140 + 128 * i, 16, 16⟩
def LEG_PORT_MARGIN_SPARE_M (i : Nat) : Fld := ⟨0x60140 + 128 * i, 8, 8⟩
def LEG_PORT_MARGIN_MAIN_M (i : Nat) : Fld := ⟨0x60140 + 128 * i, 0, 8⟩
def LEG_PORT_TEST (i : Nat) : Nat := 0x60144 + 128 * i
def LEG_PORT_TEST_STEP (i : Nat) : Fld := ⟨0x60144 + 128 * i, 12, 4⟩
def LEG_PORT_TEST_PASS (i : Nat) : Fld := ⟨0x60144 + 128 * i, 0, 7⟩
def LEG_PORT_LANE (i : Nat) : Nat := 0x60148 + 128 * i
def LEG_PORT_LANE_SPLICE_EN (i : Nat) : Fld := ⟨0x60148 + 128 * i, 31, 1⟩
def LEG_PORT_LANE_EMARGIN_THR (i : Nat) : Fld := ⟨0x60148 + 128 * i, 0, 8⟩
def LEG_PORT_CRC_CNT (i : Nat) : Nat := 0x60150 + 128 * i
def LEG_PORT_CRC_CNT_SAT (i : Nat) : Fld := ⟨0x60150 + 128 * i, 31, 1⟩
def LEG_PORT_CRC_CNT_COUNT (i : Nat) : Fld := ⟨0x60150 + 128 * i, 0, 16⟩
def LEG_PORT_DEF_CNT (i : Nat) : Nat := 0x60154 + 128 * i
def LEG_PORT_DEF_CNT_SAT (i : Nat) : Fld := ⟨0x60154 + 128 * i, 31, 1⟩
def LEG_PORT_DEF_CNT_COUNT (i : Nat) : Fld := ⟨0x60154 + 128 * i, 0, 16⟩
def LEG_PORT_REFRESH_CNT (i : Nat) : Nat := 0x60158 + 128 * i
def LEG_PORT_REFRESH_CNT_SAT (i : Nat) : Fld := ⟨0x60158 + 128 * i, 31, 1⟩
def LEG_PORT_REFRESH_CNT_COUNT (i : Nat) : Fld := ⟨0x60158 + 128 * i, 0, 16⟩
def LEG_PORT_BOOT_UV_CNT (i : Nat) : Nat := 0x6015C + 128 * i
def LEG_PORT_BOOT_UV_CNT_SAT (i : Nat) : Fld := ⟨0x6015C + 128 * i, 31, 1⟩
def LEG_PORT_BOOT_UV_CNT_COUNT (i : Nat) : Fld := ⟨0x6015C + 128 * i, 0, 16⟩
def LEG_PORT_IL_TMO_CNT (i : Nat) : Nat := 0x60160 + 128 * i
def LEG_PORT_IL_TMO_CNT_SAT (i : Nat) : Fld := ⟨0x60160 + 128 * i, 31, 1⟩
def LEG_PORT_IL_TMO_CNT_COUNT (i : Nat) : Fld := ⟨0x60160 + 128 * i, 0, 16⟩
def LEG_PORT_EVT_MISS_CNT (i : Nat) : Nat := 0x60164 + 128 * i
def LEG_PORT_EVT_MISS_CNT_SAT (i : Nat) : Fld := ⟨0x60164 + 128 * i, 31, 1⟩
def LEG_PORT_EVT_MISS_CNT_COUNT (i : Nat) : Fld := ⟨0x60164 + 128 * i, 0, 16⟩
def LEG_PORT_REJ_CNT (i : Nat) : Nat := 0x60168 + 128 * i
def LEG_PORT_REJ_CNT_SAT (i : Nat) : Fld := ⟨0x60168 + 128 * i, 31, 1⟩
def LEG_PORT_REJ_CNT_COUNT (i : Nat) : Fld := ⟨0x60168 + 128 * i, 0, 16⟩
def LEG_PORT_MODE_WAIT_CNT (i : Nat) : Nat := 0x6016C + 128 * i
def LEG_PORT_MODE_WAIT_CNT_SAT (i : Nat) : Fld := ⟨0x6016C + 128 * i, 31, 1⟩
def LEG_PORT_MODE_WAIT_CNT_COUNT (i : Nat) : Fld := ⟨0x6016C + 128 * i, 0, 16⟩
def LEG_PORT_SPLICE_CNT (i : Nat) : Nat := 0x60170 + 128 * i
def LEG_PORT_SPLICE_CNT_SAT (i : Nat) : Fld := ⟨0x60170 + 128 * i, 31, 1⟩
def LEG_PORT_SPLICE_CNT_COUNT (i : Nat) : Fld := ⟨0x60170 + 128 * i, 0, 16⟩
def LEG_PROFILE (i : Nat) : Nat := 0xC0000 + 4 * i
def LEG_PROFILE_CURRENT (i : Nat) : Fld := ⟨0xC0000 + 4 * i, 10, 6⟩
def LEG_PROFILE_DURATION (i : Nat) : Fld := ⟨0xC0000 + 4 * i, 0, 10⟩
def PLT_PR_CTRL : Nat := 0x70800
def PLT_PR_CTRL_STALE_DEFAULT : Fld := ⟨0x70800, 8, 2⟩
def PLT_PR_CTRL_ASC_SIDE : Fld := ⟨0x70800, 7, 1⟩
def PLT_PR_CTRL_AUX_KEEP : Fld := ⟨0x70800, 6, 1⟩
def PLT_PR_CTRL_APPLY : Fld := ⟨0x70800, 0, 1⟩
def PLT_PS_TIMING : Nat := 0x70804
def PLT_PS_TIMING_ASC_DELAY : Fld := ⟨0x70804, 24, 8⟩
def PLT_PS_TIMING_T_STAGGER : Fld := ⟨0x70804, 16, 8⟩
def PLT_PS_TIMING_T_SC_DECIDE : Fld := ⟨0x70804, 8, 8⟩
def PLT_PS_LATCH_CFG : Nat := 0x70808
def PLT_PS_LATCH_CFG_LATCH_MAX : Fld := ⟨0x70808, 16, 16⟩
def PLT_SPEED_BAND : Nat := 0x7080C
def PLT_SPEED_BAND_N_HYST : Fld := ⟨0x7080C, 16, 16⟩
def PLT_SPEED_BAND_N_ASC : Fld := ⟨0x7080C, 0, 16⟩
def PLT_PS_SRC : Nat := 0x70810
def PLT_PS_SRC_FI_EN : Fld := ⟨0x70810, 31, 1⟩
def PLT_PS_SRC_FI_CLASS : Fld := ⟨0x70810, 30, 1⟩
def PLT_PS_SRC_FI_FILT : Fld := ⟨0x70810, 16, 8⟩
def PLT_PS_SRC_FI_STATE : Fld := ⟨0x70810, 4, 2⟩
def PLT_PS_SRC_SF_STATE : Fld := ⟨0x70810, 2, 2⟩
def PLT_PS_SRC_CLK_STATE : Fld := ⟨0x70810, 0, 2⟩
def PLT_PS_STATUS : Nat := 0x70814
def PLT_PS_STATUS_CAUSE : Fld := ⟨0x70814, 24, 4⟩
def PLT_PS_STATUS_SUBSTATE : Fld := ⟨0x70814, 20, 2⟩
def PLT_PS_STATUS_SEIZED : Fld := ⟨0x70814, 19, 1⟩
def PLT_PS_STATUS_WINDOW : Fld := ⟨0x70814, 18, 1⟩
def PLT_PS_STATUS_BAND : Fld := ⟨0x70814, 16, 2⟩
def PLT_PS_STATUS_STALE : Fld := ⟨0x70814, 15, 1⟩
def PLT_PS_STATUS_IDENT : Fld := ⟨0x70814, 8, 6⟩
def PLT_PS_STATUS_LEG_FAULT : Fld := ⟨0x70814, 0, 4⟩
def PLT_UDC_CHOP : Nat := 0x70820
def PLT_UDC_CHOP_CHOP_ON : Fld := ⟨0x70820, 16, 16⟩
def PLT_UDC_CHOP_CHOP_OFF : Fld := ⟨0x70820, 0, 16⟩
def PLT_UDC_REGEN : Nat := 0x70824
def PLT_UDC_REGEN_REGEN_LIMIT : Fld := ⟨0x70824, 16, 16⟩
def PLT_UDC_REGEN_REGEN_REL : Fld := ⟨0x70824, 0, 16⟩
def PLT_UDC_TRIP : Nat := 0x70828
def PLT_UDC_TRIP_UDC_ABS : Fld := ⟨0x70828, 16, 16⟩
def PLT_UDC_TRIP_UDC_ASC : Fld := ⟨0x70828, 0, 16⟩
def PLT_CHOP_CFG : Nat := 0x7082C
def PLT_CHOP_CFG_CHOP_EN : Fld := ⟨0x7082C, 31, 1⟩
def PLT_CHOP_CFG_CHOP_CH : Fld := ⟨0x7082C, 26, 4⟩
def PLT_CHOP_CFG_T_CHK : Fld := ⟨0x7082C, 16, 10⟩
def PLT_CHOP_CFG_I_CHK : Fld := ⟨0x7082C, 0, 16⟩
def PLT_TMON_CTRL : Nat := 0x70840
def PLT_TMON_CTRL_EN : Fld := ⟨0x70840, 31, 1⟩
def PLT_TMON_CTRL_CLASS : Fld := ⟨0x70840, 30, 1⟩
def PLT_TMON_CTRL_UNAVAIL_CLASS : Fld := ⟨0x70840, 29, 1⟩
def PLT_TMON_CTRL_MON_N : Fld := ⟨0x70840, 16, 8⟩
def PLT_TMON_CTRL_T_WIN : Fld := ⟨0x70840, 0, 16⟩
def PLT_TMON_MARGIN : Nat := 0x70844
def PLT_TMON_MARGIN_ZERO_BAND : Fld := ⟨0x70844, 16, 16⟩
def PLT_TMON_MARGIN_MARGIN : Fld := ⟨0x70844, 0, 16⟩
def PLT_TMON_EST : Nat := 0x70848
def PLT_TMON_WIN : Nat := 0x70850
def PLT_TMON_WIN_T_HI : Fld := ⟨0x70850, 16, 16⟩
def PLT_TMON_WIN_T_LO : Fld := ⟨0x70850, 0, 16⟩
def PLT_FRESH : Nat := 0x70860
def PLT_FRESH_FB_PERMIT : Fld := ⟨0x70860, 31, 1⟩
def PLT_FRESH_T_LOSS : Fld := ⟨0x70860, 16, 15⟩
def PLT_FRESH_T_FRESH : Fld := ⟨0x70860, 0, 8⟩
def PLT_DIS_CFG : Nat := 0x70870
def PLT_DIS_CFG_DIS_MODE : Fld := ⟨0x70870, 30, 2⟩
def PLT_DIS_CFG_REQ_EN : Fld := ⟨0x70870, 29, 1⟩
def PLT_DIS_CFG_DIS_TARGET : Fld := ⟨0x70870, 0, 16⟩
def PLT_DIS_TIME : Nat := 0x70874
def PLT_DIS_TIME_DIS_SPEED : Fld := ⟨0x70874, 16, 16⟩
def PLT_DIS_TIME_T_DIS_MAX : Fld := ⟨0x70874, 0, 16⟩
def PLT_DIS_ID : Nat := 0x70878
def PLT_DIS_ID_DIS_ID : Fld := ⟨0x70878, 0, 16⟩
def PLT_AXIS_STATE : Nat := 0x70880
def PLT_AXIS_STATE_REFUSE : Fld := ⟨0x70880, 28, 4⟩
def PLT_AXIS_STATE_STOP_PENDING : Fld := ⟨0x70880, 23, 1⟩
def PLT_AXIS_STATE_FALLBACK : Fld := ⟨0x70880, 22, 1⟩
def PLT_AXIS_STATE_FRESH : Fld := ⟨0x70880, 20, 2⟩
def PLT_AXIS_STATE_REGEN_CLAMP : Fld := ⟨0x70880, 19, 1⟩
def PLT_AXIS_STATE_CHOP_FAULT : Fld := ⟨0x70880, 18, 1⟩
def PLT_AXIS_STATE_F2_RAMP : Fld := ⟨0x70880, 17, 1⟩
def PLT_AXIS_STATE_DERATE_F1 : Fld := ⟨0x70880, 16, 1⟩
def PLT_AXIS_STATE_SUB : Fld := ⟨0x70880, 4, 2⟩
def PLT_AXIS_STATE_STATE : Fld := ⟨0x70880, 0, 4⟩
def PLT_F1_FACTOR : Nat := 0x70884
def PLT_F1_FACTOR_F1_FACTOR : Fld := ⟨0x70884, 0, 8⟩
def PLT_ACTIVE : Nat := 0x70888
def PLT_ACTIVE_F4 : Fld := ⟨0x70888, 24, 8⟩
def PLT_ACTIVE_F3 : Fld := ⟨0x70888, 16, 8⟩
def PLT_ACTIVE_F2 : Fld := ⟨0x70888, 8, 8⟩
def PLT_ACTIVE_F1 : Fld := ⟨0x70888, 0, 8⟩
def PLT_PR_STATUS : Nat := 0x7088C
def PLT_PR_STATUS_CFG_CAUSE : Fld := ⟨0x7088C, 4, 4⟩
def PLT_PR_STATUS_CFG_REFUSED : Fld := ⟨0x7088C, 0, 1⟩
def PLT_SEIZE_CNT : Nat := 0x708C0
def PLT_SEIZE_CNT_SAT : Fld := ⟨0x708C0, 31, 1⟩
def PLT_SEIZE_CNT_COUNT : Fld := ⟨0x708C0, 0, 16⟩
def PLT_LATCH_STALE_CNT : Nat := 0x708C4
def PLT_LATCH_STALE_CNT_SAT : Fld := ⟨0x708C4, 31, 1⟩
def PLT_LATCH_STALE_CNT_COUNT : Fld := ⟨0x708C4, 0, 16⟩
def PLT_TMON_FAIL_CNT : Nat := 0x708C8
def PLT_TMON_FAIL_CNT_SAT : Fld := ⟨0x708C8, 31, 1⟩
def PLT_TMON_FAIL_CNT_COUNT : Fld := ⟨0x708C8, 0, 16⟩
def PLT_FRESH_CNT : Nat := 0x708CC
def PLT_FRESH_CNT_SAT : Fld := ⟨0x708CC, 31, 1⟩
def PLT_FRESH_CNT_COUNT : Fld := ⟨0x708CC, 0, 16⟩
def PLT_VOTE_STATUS : Nat := 0x70000
def PLT_VOTE_STATUS_MODE : Fld := ⟨0x70000, 26, 2⟩
def PLT_VOTE_STATUS_LEFT_OUT : Fld := ⟨0x70000, 16, 3⟩
def PLT_VOTE_STATUS_FENCED : Fld := ⟨0x70000, 8, 3⟩
def PLT_VOTE_STATUS_TRIES : Fld := ⟨0x70000, 0, 4⟩
def PLT_VOTE_CFG : Nat := 0x70004
def PLT_VOTE_CFG_RESYNC_EN : Fld := ⟨0x70004, 31, 1⟩
def PLT_VOTE_CFG_RESYNC_HOLD : Fld := ⟨0x70004, 16, 12⟩
def PLT_VOTE_CFG_RESYNC_TRIES : Fld := ⟨0x70004, 0, 4⟩
def PLT_MODE : Nat := 0x70008
def PLT_MODE_SPLIT_BOOT : Fld := ⟨0x70008, 8, 1⟩
def PLT_MODE_MODE_REFUSE : Fld := ⟨0x70008, 4, 4⟩
def PLT_MODE_MODE_REFUSED : Fld := ⟨0x70008, 2, 1⟩
def PLT_MODE_TO_VOTED : Fld := ⟨0x70008, 1, 1⟩
def PLT_MODE_TO_SPLIT : Fld := ⟨0x70008, 0, 1⟩
def PLT_LAST_DIV : Nat := 0x7000C
def PLT_LAST_DIV_KIND : Fld := ⟨0x7000C, 30, 2⟩
def PLT_LAST_DIV_DISSENT : Fld := ⟨0x7000C, 27, 3⟩
def PLT_LAST_DIV_TICK : Fld := ⟨0x7000C, 0, 24⟩
def PLT_DIVERGE_CNT : Nat := 0x70010
def PLT_DIVERGE_CNT_SAT : Fld := ⟨0x70010, 31, 1⟩
def PLT_DIVERGE_CNT_COUNT : Fld := ⟨0x70010, 0, 16⟩
def PLT_RESYNC_CNT : Nat := 0x70014
def PLT_RESYNC_CNT_SAT : Fld := ⟨0x70014, 31, 1⟩
def PLT_RESYNC_CNT_COUNT : Fld := ⟨0x70014, 0, 16⟩
def PLT_RESYNC_FAIL_CNT : Nat := 0x70018
def PLT_RESYNC_FAIL_CNT_SAT : Fld := ⟨0x70018, 31, 1⟩
def PLT_RESYNC_FAIL_CNT_COUNT : Fld := ⟨0x70018, 0, 16⟩
def SPL_SUMMARY : Nat := 0x70400
def SPL_SUMMARY_PLL : Fld := ⟨0x70400, 30, 1⟩
def SPL_SUMMARY_CORES_OUT : Fld := ⟨0x70400, 27, 3⟩
def SPL_SUMMARY_MUL : Fld := ⟨0x70400, 25, 2⟩
def SPL_SUMMARY_DEC : Fld := ⟨0x70400, 23, 2⟩
def SPL_SUMMARY_EDGE : Fld := ⟨0x70400, 16, 4⟩
def SPL_SUMMARY_WALE : Fld := ⟨0x70400, 8, 8⟩
def SPL_SUMMARY_SRAM_ROWS : Fld := ⟨0x70400, 0, 8⟩
def SPL_UPSETT : Nat := 0x70404
def SPL_UPSETT_DONE : Fld := ⟨0x70404, 31, 1⟩
def SPL_UPSETT_DURATION : Fld := ⟨0x70404, 0, 16⟩
def SPL_SRAM_BANK (i : Nat) : Nat := 0x70410 + 4 * i
def SPL_SRAM_BANK_SPARES_USED (i : Nat) : Fld := ⟨0x70410 + 4 * i, 0, 6⟩
def SPL_MUL : Nat := 0x70430
def SPL_MUL_SPARES_USED : Fld := ⟨0x70430, 16, 2⟩
def SPL_MUL_FAILED : Fld := ⟨0x70430, 0, 14⟩
def SPL_CORE_PLL : Nat := 0x70434
def SPL_CORE_PLL_SPARE_PLL : Fld := ⟨0x70434, 9, 1⟩
def SPL_CORE_PLL_MAIN_PLL_FAIL : Fld := ⟨0x70434, 8, 1⟩
def SPL_CORE_PLL_CORE_FAIL : Fld := ⟨0x70434, 0, 3⟩
def SPL_WEAR_AGE : Nat := 0x70440
def SPL_WEAR_AGE_MONITOR : Fld := ⟨0x70440, 16, 2⟩
def SPL_WEAR_AGE_AGE_PPM : Fld := ⟨0x70440, 0, 16⟩
def SPL_SCRUB_RATE : Nat := 0x70448
def SPL_SCRUB_RATE_RATE : Fld := ⟨0x70448, 0, 16⟩
def SPL_SCRUB_CORR : Nat := 0x70444
def SPL_SCRUB_CORR_SAT : Fld := ⟨0x70444, 31, 1⟩
def SPL_SCRUB_CORR_COUNT : Fld := ⟨0x70444, 0, 16⟩
def SPL_SCRUB_UE_CNT : Nat := 0x7044C
def SPL_SCRUB_UE_CNT_SAT : Fld := ⟨0x7044C, 31, 1⟩
def SPL_SCRUB_UE_CNT_COUNT : Fld := ⟨0x7044C, 0, 16⟩
def NVM_CFG_STATUS : Nat := 0x840100
def NVM_CFG_STATUS_OUTCOME : Fld := ⟨0x840100, 20, 4⟩
def NVM_CFG_STATUS_REWRITE_PENDING : Fld := ⟨0x840100, 9, 1⟩
def NVM_CFG_STATUS_IN_FORCE : Fld := ⟨0x840100, 8, 1⟩
def NVM_CFG_STATUS_COPY2 : Fld := ⟨0x840100, 4, 2⟩
def NVM_CFG_STATUS_COPY1 : Fld := ⟨0x840100, 2, 2⟩
def NVM_CFG_STATUS_COPY0 : Fld := ⟨0x840100, 0, 2⟩
def NVM_CFG_GEN : Nat := 0x840108
def HIF_STATUS : Nat := 0x800000
def HIF_STATUS_READY : Fld := ⟨0x800000, 31, 1⟩
def HIF_STATUS_LINK_UP : Fld := ⟨0x800000, 30, 1⟩
def HIF_STATUS_LOCKED : Fld := ⟨0x800000, 29, 1⟩
def HIF_STATUS_SPEED : Fld := ⟨0x800000, 16, 4⟩
def HIF_STATUS_WIDTH : Fld := ⟨0x800000, 8, 6⟩
def HIF_SETUP_LOCK : Nat := 0x800004
def HIF_SETUP_LOCK_LOCK : Fld := ⟨0x800004, 0, 1⟩
def HIF_ADMIN_SQ_LO : Nat := 0x800010
def HIF_ADMIN_SQ_LO_BASE : Fld := ⟨0x800010, 0, 32⟩
def HIF_ADMIN_SQ_HI : Nat := 0x800014
def HIF_ADMIN_SQ_HI_BASE : Fld := ⟨0x800014, 0, 32⟩
def HIF_ADMIN_CQ_LO : Nat := 0x800018
def HIF_ADMIN_CQ_LO_BASE : Fld := ⟨0x800018, 0, 32⟩
def HIF_ADMIN_CQ_HI : Nat := 0x80001C
def HIF_ADMIN_CQ_HI_BASE : Fld := ⟨0x80001C, 0, 32⟩
def HIF_ADMIN_CFG : Nat := 0x800020
def HIF_ADMIN_CFG_EN : Fld := ⟨0x800020, 31, 1⟩
def HIF_ADMIN_CFG_VECTOR : Fld := ⟨0x800020, 16, 6⟩
def HIF_ADMIN_CFG_CQ_LOG2 : Fld := ⟨0x800020, 8, 4⟩
def HIF_ADMIN_CFG_SQ_LOG2 : Fld := ⟨0x800020, 0, 4⟩
def HIF_BUDGET : Nat := 0x800030
def HIF_BUDGET_BULK : Fld := ⟨0x800030, 24, 8⟩
def HIF_BUDGET_STREAM : Fld := ⟨0x800030, 16, 8⟩
def HIF_BUDGET_TUNE : Fld := ⟨0x800030, 8, 8⟩
def HIF_BUDGET_DRIVE : Fld := ⟨0x800030, 0, 8⟩
def HIF_TUNE_CFG : Nat := 0x800034
def HIF_TUNE_CFG_SLOTS : Fld := ⟨0x800034, 0, 6⟩
def HIF_EVT_LOST_CNT : Nat := 0x800040
def HIF_EVT_LOST_CNT_SAT : Fld := ⟨0x800040, 31, 1⟩
def HIF_EVT_LOST_CNT_COUNT : Fld := ⟨0x800040, 0, 16⟩
def HIF_DMA_ERR_CNT : Nat := 0x800044
def HIF_DMA_ERR_CNT_SAT : Fld := ⟨0x800044, 31, 1⟩
def HIF_DMA_ERR_CNT_COUNT : Fld := ⟨0x800044, 0, 16⟩
def HIF_DOORBELL_ERR_CNT : Nat := 0x800048
def HIF_DOORBELL_ERR_CNT_SAT : Fld := ⟨0x800048, 31, 1⟩
def HIF_DOORBELL_ERR_CNT_COUNT : Fld := ⟨0x800048, 0, 16⟩
def HIF_LOCK_DROP_CNT : Nat := 0x80004C
def HIF_LOCK_DROP_CNT_SAT : Fld := ⟨0x80004C, 31, 1⟩
def HIF_LOCK_DROP_CNT_COUNT : Fld := ⟨0x80004C, 0, 16⟩
def HIF_SUPERSEDED_CNT : Nat := 0x800050
def HIF_SUPERSEDED_CNT_SAT : Fld := ⟨0x800050, 31, 1⟩
def HIF_SUPERSEDED_CNT_COUNT : Fld := ⟨0x800050, 0, 16⟩
def HIF_DELAYED_CNT : Nat := 0x800054
def HIF_DELAYED_CNT_SAT : Fld := ⟨0x800054, 31, 1⟩
def HIF_DELAYED_CNT_COUNT : Fld := ⟨0x800054, 0, 16⟩
def HIF_BAD_ACCESS_CNT : Nat := 0x800058
def HIF_BAD_ACCESS_CNT_SAT : Fld := ⟨0x800058, 31, 1⟩
def HIF_BAD_ACCESS_CNT_COUNT : Fld := ⟨0x800058, 0, 16⟩
def HIF_MSIX_MOD (i : Nat) : Nat := 0x800400 + 4 * i
def HIF_MSIX_MOD_TIME (i : Nat) : Fld := ⟨0x800400 + 4 * i, 16, 10⟩
def HIF_MSIX_MOD_COUNT (i : Nat) : Fld := ⟨0x800400 + 4 * i, 0, 8⟩
def HIF_RING (i : Nat) : Nat := 0x801000 + 16 * i
def HIF_RING_EN (i : Nat) : Fld := ⟨0x801000 + 16 * i, 31, 1⟩
def HIF_RING_ERROR (i : Nat) : Fld := ⟨0x801000 + 16 * i, 30, 1⟩
def HIF_RING_CLASS (i : Nat) : Fld := ⟨0x801000 + 16 * i, 28, 2⟩
def HIF_RING_STAKE (i : Nat) : Fld := ⟨0x801000 + 16 * i, 24, 4⟩
def HIF_RING_STREAM (i : Nat) : Fld := ⟨0x801000 + 16 * i, 20, 4⟩
def HIF_RING_VECTOR (i : Nat) : Fld := ⟨0x801000 + 16 * i, 8, 6⟩
def HIF_RING_CQ_LOG2 (i : Nat) : Fld := ⟨0x801000 + 16 * i, 4, 4⟩
def HIF_RING_SQ_LOG2 (i : Nat) : Fld := ⟨0x801000 + 16 * i, 0, 4⟩
def HIF_RING_PTR (i : Nat) : Nat := 0x801004 + 16 * i
def HIF_RING_PTR_SQ_HEAD (i : Nat) : Fld := ⟨0x801004 + 16 * i, 16, 12⟩
def HIF_RING_PTR_CQ_TAIL (i : Nat) : Fld := ⟨0x801004 + 16 * i, 0, 12⟩
def HIF_MSIX_TABLE (i : Nat) : Nat := 0x808000 + 4 * i
def HIF_MSIX_TABLE_WORD (i : Nat) : Fld := ⟨0x808000 + 4 * i, 0, 32⟩
def HIF_MSIX_PBA (i : Nat) : Nat := 0x809000 + 4 * i
def HIF_MSIX_PBA_PEND (i : Nat) : Fld := ⟨0x809000 + 4 * i, 0, 32⟩
def STR_CTRL : Nat := 0x90000
def STR_CTRL_CFG_REFUSED : Fld := ⟨0x90000, 1, 1⟩
def STR_CTRL_APPLY : Fld := ⟨0x90000, 0, 1⟩
def STR_STREAM_CFG (i : Nat) : Nat := 0x90100 + 32 * i
def STR_STREAM_CFG_EN (i : Nat) : Fld := ⟨0x90100 + 32 * i, 31, 1⟩
def STR_STREAM_CFG_FIFO_KIB (i : Nat) : Fld := ⟨0x90100 + 32 * i, 24, 7⟩
def STR_STREAM_CFG_PKT_WORDS (i : Nat) : Fld := ⟨0x90100 + 32 * i, 16, 8⟩
def STR_STREAM_CFG_PKT_TIMEOUT (i : Nat) : Fld := ⟨0x90100 + 32 * i, 0, 16⟩
def STR_STREAM_STATUS (i : Nat) : Nat := 0x90104 + 32 * i
def STR_STREAM_STATUS_FULL (i : Nat) : Fld := ⟨0x90104 + 32 * i, 31, 1⟩
def STR_STREAM_STATUS_WORDS (i : Nat) : Fld := ⟨0x90104 + 32 * i, 16, 14⟩
def STR_STREAM_STATUS_PACKETS (i : Nat) : Fld := ⟨0x90104 + 32 * i, 0, 9⟩
def STR_STREAM_SEQ (i : Nat) : Nat := 0x90108 + 32 * i
def STR_STREAM_SEQ_SEQ (i : Nat) : Fld := ⟨0x90108 + 32 * i, 0, 16⟩
def STR_STREAM_CMD (i : Nat) : Nat := 0x9010C + 32 * i
def STR_STREAM_CMD_FLUSH (i : Nat) : Fld := ⟨0x9010C + 32 * i, 0, 1⟩
def STR_STREAM_DROP_CNT (i : Nat) : Nat := 0x90110 + 32 * i
def STR_STREAM_DROP_CNT_SAT (i : Nat) : Fld := ⟨0x90110 + 32 * i, 31, 1⟩
def STR_STREAM_DROP_CNT_COUNT (i : Nat) : Fld := ⟨0x90110 + 32 * i, 0, 31⟩
def CAN_CTRL (i : Nat) : Nat := 0x810000 + 16384 * i
def CAN_CTRL_EN (i : Nat) : Fld := ⟨0x810000 + 16384 * i, 31, 1⟩
def CAN_CTRL_MODE (i : Nat) : Fld := ⟨0x810000 + 16384 * i, 29, 2⟩
def CAN_CTRL_FD_EN (i : Nat) : Fld := ⟨0x810000 + 16384 * i, 28, 1⟩
def CAN_CTRL_AUTO_RECOVER (i : Nat) : Fld := ⟨0x810000 + 16384 * i, 27, 1⟩
def CAN_CTRL_TDC_EN (i : Nat) : Fld := ⟨0x810000 + 16384 * i, 26, 1⟩
def CAN_CTRL_TT_EN (i : Nat) : Fld := ⟨0x810000 + 16384 * i, 25, 1⟩
def CAN_CTRL_TT_ROLE (i : Nat) : Fld := ⟨0x810000 + 16384 * i, 24, 1⟩
def CAN_CTRL_TDCO (i : Nat) : Fld := ⟨0x810000 + 16384 * i, 0, 7⟩
def CAN_STATUS (i : Nat) : Nat := 0x810004 + 16384 * i
def CAN_STATUS_STATE (i : Nat) : Fld := ⟨0x810004 + 16384 * i, 30, 2⟩
def CAN_STATUS_CFG_REFUSED (i : Nat) : Fld := ⟨0x810004 + 16384 * i, 29, 1⟩
def CAN_STATUS_TT_RUN (i : Nat) : Fld := ⟨0x810004 + 16384 * i, 28, 1⟩
def CAN_STATUS_CYCLE (i : Nat) : Fld := ⟨0x810004 + 16384 * i, 22, 6⟩
def CAN_STATUS_TEC (i : Nat) : Fld := ⟨0x810004 + 16384 * i, 8, 9⟩
def CAN_STATUS_REC (i : Nat) : Fld := ⟨0x810004 + 16384 * i, 0, 8⟩
def CAN_NBT (i : Nat) : Nat := 0x810008 + 16384 * i
def CAN_NBT_NBRP_M1 (i : Nat) : Fld := ⟨0x810008 + 16384 * i, 27, 5⟩
def CAN_NBT_NTSEG1_M1 (i : Nat) : Fld := ⟨0x810008 + 16384 * i, 19, 8⟩
def CAN_NBT_NTSEG2_M1 (i : Nat) : Fld := ⟨0x810008 + 16384 * i, 12, 7⟩
def CAN_NBT_NSJW_M1 (i : Nat) : Fld := ⟨0x810008 + 16384 * i, 5, 7⟩
def CAN_DBT (i : Nat) : Nat := 0x81000C + 16384 * i
def CAN_DBT_DBRP_M1 (i : Nat) : Fld := ⟨0x81000C + 16384 * i, 27, 5⟩
def CAN_DBT_DTSEG1_M1 (i : Nat) : Fld := ⟨0x81000C + 16384 * i, 16, 5⟩
def CAN_DBT_DTSEG2_M1 (i : Nat) : Fld := ⟨0x81000C + 16384 * i, 8, 4⟩
def CAN_DBT_DSJW_M1 (i : Nat) : Fld := ⟨0x81000C + 16384 * i, 0, 4⟩
def CAN_TT_CFG (i : Nat) : Nat := 0x810010 + 16384 * i
def CAN_TT_CFG_CYC_LOG2 (i : Nat) : Fld := ⟨0x810010 + 16384 * i, 29, 3⟩
def CAN_TT_CFG_COLS (i : Nat) : Fld := ⟨0x810010 + 16384 * i, 24, 5⟩
def CAN_TT_CFG_TX_EN_US (i : Nat) : Fld := ⟨0x810010 + 16384 * i, 16, 8⟩
def CAN_TT_CFG_CYCLE_US (i : Nat) : Fld := ⟨0x810010 + 16384 * i, 0, 16⟩
def CAN_TT_REF (i : Nat) : Nat := 0x810014 + 16384 * i
def CAN_TT_REF_IDE (i : Nat) : Fld := ⟨0x810014 + 16384 * i, 29, 1⟩
def CAN_TT_REF_REF_ID (i : Nat) : Fld := ⟨0x810014 + 16384 * i, 0, 29⟩
def CAN_TT_GUARD (i : Nat) : Nat := 0x810018 + 16384 * i
def CAN_TT_GUARD_REF_TOL (i : Nat) : Fld := ⟨0x810018 + 16384 * i, 16, 16⟩
def CAN_TT_GUARD_GUARD_US (i : Nat) : Fld := ⟨0x810018 + 16384 * i, 0, 16⟩
def CAN_RX_DROP_CNT (i : Nat) : Nat := 0x810020 + 16384 * i
def CAN_RX_DROP_CNT_SAT (i : Nat) : Fld := ⟨0x810020 + 16384 * i, 31, 1⟩
def CAN_RX_DROP_CNT_COUNT (i : Nat) : Fld := ⟨0x810020 + 16384 * i, 0, 16⟩
def CAN_OVERRUN_CNT (i : Nat) : Nat := 0x810024 + 16384 * i
def CAN_OVERRUN_CNT_SAT (i : Nat) : Fld := ⟨0x810024 + 16384 * i, 31, 1⟩
def CAN_OVERRUN_CNT_COUNT (i : Nat) : Fld := ⟨0x810024 + 16384 * i, 0, 16⟩
def CAN_TT_MISS_CNT (i : Nat) : Nat := 0x810028 + 16384 * i
def CAN_TT_MISS_CNT_SAT (i : Nat) : Fld := ⟨0x810028 + 16384 * i, 31, 1⟩
def CAN_TT_MISS_CNT_COUNT (i : Nat) : Fld := ⟨0x810028 + 16384 * i, 0, 16⟩
def CAN_BUSOFF_CNT (i : Nat) : Nat := 0x81002C + 16384 * i
def CAN_BUSOFF_CNT_SAT (i : Nat) : Fld := ⟨0x81002C + 16384 * i, 31, 1⟩
def CAN_BUSOFF_CNT_COUNT (i : Nat) : Fld := ⟨0x81002C + 16384 * i, 0, 16⟩
def CAN0_HP_CFG (i : Nat) : Nat := 0x810200 + 96 * i
def CAN0_HP_CFG_EN (i : Nat) : Fld := ⟨0x810200 + 96 * i, 31, 1⟩
def CAN0_HP_CFG_IDE (i : Nat) : Fld := ⟨0x810200 + 96 * i, 29, 1⟩
def CAN0_HP_CFG_ID (i : Nat) : Fld := ⟨0x810200 + 96 * i, 0, 29⟩
def CAN0_HP_MASK (i : Nat) : Nat := 0x810204 + 96 * i
def CAN0_HP_MASK_MASK (i : Nat) : Fld := ⟨0x810204 + 96 * i, 0, 29⟩
def CAN0_HP_CTRL (i : Nat) : Nat := 0x810208 + 96 * i
def CAN0_HP_CTRL_FULL (i : Nat) : Fld := ⟨0x810208 + 96 * i, 31, 1⟩
def CAN0_HP_CTRL_OVERRUN (i : Nat) : Fld := ⟨0x810208 + 96 * i, 30, 1⟩
def CAN0_HP_CTRL_WR_ERR (i : Nat) : Fld := ⟨0x810208 + 96 * i, 29, 1⟩
def CAN0_HP_CTRL_TX_REQ (i : Nat) : Fld := ⟨0x810208 + 96 * i, 28, 1⟩
def CAN0_HP_CTRL_CANCEL (i : Nat) : Fld := ⟨0x810208 + 96 * i, 27, 1⟩
def CAN0_HP_CTRL_RELEASE (i : Nat) : Fld := ⟨0x810208 + 96 * i, 26, 1⟩
def CAN0_HP_CTRL_TX_DONE (i : Nat) : Fld := ⟨0x810208 + 96 * i, 25, 1⟩
def CAN0_HP_CTRL_TX_FAIL (i : Nat) : Fld := ⟨0x810208 + 96 * i, 24, 1⟩
def CAN0_HP_CTRL_RXSEQ (i : Nat) : Fld := ⟨0x810208 + 96 * i, 20, 4⟩
def CAN0_HP_CTRL_REL_SEQ (i : Nat) : Fld := ⟨0x810208 + 96 * i, 16, 4⟩
def CAN0_HP_CTRL_VECTOR (i : Nat) : Fld := ⟨0x810208 + 96 * i, 0, 6⟩
def CAN0_HP_STAMP (i : Nat) : Nat := 0x81020C + 96 * i
def CAN0_HP_STAMP_STAMP (i : Nat) : Fld := ⟨0x81020C + 96 * i, 0, 32⟩
def CAN0_HP_FRAME (i : Nat) : Nat := 0x810210 + 96 * i
def CAN0_HP_FRAME_FDF (i : Nat) : Fld := ⟨0x810210 + 96 * i, 28, 1⟩
def CAN0_HP_FRAME_BRS (i : Nat) : Fld := ⟨0x810210 + 96 * i, 27, 1⟩
def CAN0_HP_FRAME_ESI (i : Nat) : Fld := ⟨0x810210 + 96 * i, 26, 1⟩
def CAN0_HP_FRAME_RTR (i : Nat) : Fld := ⟨0x810210 + 96 * i, 25, 1⟩
def CAN0_HP_FRAME_IDE (i : Nat) : Fld := ⟨0x810210 + 96 * i, 24, 1⟩
def CAN0_HP_FRAME_DLC (i : Nat) : Fld := ⟨0x810210 + 96 * i, 20, 4⟩
def CAN0_HP_FRAME_ID (i : Nat) : Nat := 0x810214 + 96 * i
def CAN0_HP_FRAME_ID_FRAME_ID (i : Nat) : Fld := ⟨0x810214 + 96 * i, 0, 29⟩
def CAN0_HP_DATA0 (i : Nat) : Nat := 0x810220 + 96 * i
def CAN0_HP_DATA0_DATA (i : Nat) : Fld := ⟨0x810220 + 96 * i, 0, 32⟩
def CAN0_HP_DATA1 (i : Nat) : Nat := 0x810224 + 96 * i
def CAN0_HP_DATA1_DATA (i : Nat) : Fld := ⟨0x810224 + 96 * i, 0, 32⟩
def CAN0_HP_DATA2 (i : Nat) : Nat := 0x810228 + 96 * i
def CAN0_HP_DATA2_DATA (i : Nat) : Fld := ⟨0x810228 + 96 * i, 0, 32⟩
def CAN0_HP_DATA3 (i : Nat) : Nat := 0x81022C + 96 * i
def CAN0_HP_DATA3_DATA (i : Nat) : Fld := ⟨0x81022C + 96 * i, 0, 32⟩
def CAN0_HP_DATA4 (i : Nat) : Nat := 0x810230 + 96 * i
def CAN0_HP_DATA4_DATA (i : Nat) : Fld := ⟨0x810230 + 96 * i, 0, 32⟩
def CAN0_HP_DATA5 (i : Nat) : Nat := 0x810234 + 96 * i
def CAN0_HP_DATA5_DATA (i : Nat) : Fld := ⟨0x810234 + 96 * i, 0, 32⟩
def CAN0_HP_DATA6 (i : Nat) : Nat := 0x810238 + 96 * i
def CAN0_HP_DATA6_DATA (i : Nat) : Fld := ⟨0x810238 + 96 * i, 0, 32⟩
def CAN0_HP_DATA7 (i : Nat) : Nat := 0x81023C + 96 * i
def CAN0_HP_DATA7_DATA (i : Nat) : Fld := ⟨0x81023C + 96 * i, 0, 32⟩
def CAN0_HP_DATA8 (i : Nat) : Nat := 0x810240 + 96 * i
def CAN0_HP_DATA8_DATA (i : Nat) : Fld := ⟨0x810240 + 96 * i, 0, 32⟩
def CAN0_HP_DATA9 (i : Nat) : Nat := 0x810244 + 96 * i
def CAN0_HP_DATA9_DATA (i : Nat) : Fld := ⟨0x810244 + 96 * i, 0, 32⟩
def CAN0_HP_DATA10 (i : Nat) : Nat := 0x810248 + 96 * i
def CAN0_HP_DATA10_DATA (i : Nat) : Fld := ⟨0x810248 + 96 * i, 0, 32⟩
def CAN0_HP_DATA11 (i : Nat) : Nat := 0x81024C + 96 * i
def CAN0_HP_DATA11_DATA (i : Nat) : Fld := ⟨0x81024C + 96 * i, 0, 32⟩
def CAN0_HP_DATA12 (i : Nat) : Nat := 0x810250 + 96 * i
def CAN0_HP_DATA12_DATA (i : Nat) : Fld := ⟨0x810250 + 96 * i, 0, 32⟩
def CAN0_HP_DATA13 (i : Nat) : Nat := 0x810254 + 96 * i
def CAN0_HP_DATA13_DATA (i : Nat) : Fld := ⟨0x810254 + 96 * i, 0, 32⟩
def CAN0_HP_DATA14 (i : Nat) : Nat := 0x810258 + 96 * i
def CAN0_HP_DATA14_DATA (i : Nat) : Fld := ⟨0x810258 + 96 * i, 0, 32⟩
def CAN0_HP_DATA15 (i : Nat) : Nat := 0x81025C + 96 * i
def CAN0_HP_DATA15_DATA (i : Nat) : Fld := ⟨0x81025C + 96 * i, 0, 32⟩
def CAN1_HP_CFG (i : Nat) : Nat := 0x814200 + 96 * i
def CAN1_HP_CFG_EN (i : Nat) : Fld := ⟨0x814200 + 96 * i, 31, 1⟩
def CAN1_HP_CFG_IDE (i : Nat) : Fld := ⟨0x814200 + 96 * i, 29, 1⟩
def CAN1_HP_CFG_ID (i : Nat) : Fld := ⟨0x814200 + 96 * i, 0, 29⟩
def CAN1_HP_MASK (i : Nat) : Nat := 0x814204 + 96 * i
def CAN1_HP_MASK_MASK (i : Nat) : Fld := ⟨0x814204 + 96 * i, 0, 29⟩
def CAN1_HP_CTRL (i : Nat) : Nat := 0x814208 + 96 * i
def CAN1_HP_CTRL_FULL (i : Nat) : Fld := ⟨0x814208 + 96 * i, 31, 1⟩
def CAN1_HP_CTRL_OVERRUN (i : Nat) : Fld := ⟨0x814208 + 96 * i, 30, 1⟩
def CAN1_HP_CTRL_WR_ERR (i : Nat) : Fld := ⟨0x814208 + 96 * i, 29, 1⟩
def CAN1_HP_CTRL_TX_REQ (i : Nat) : Fld := ⟨0x814208 + 96 * i, 28, 1⟩
def CAN1_HP_CTRL_CANCEL (i : Nat) : Fld := ⟨0x814208 + 96 * i, 27, 1⟩
def CAN1_HP_CTRL_RELEASE (i : Nat) : Fld := ⟨0x814208 + 96 * i, 26, 1⟩
def CAN1_HP_CTRL_TX_DONE (i : Nat) : Fld := ⟨0x814208 + 96 * i, 25, 1⟩
def CAN1_HP_CTRL_TX_FAIL (i : Nat) : Fld := ⟨0x814208 + 96 * i, 24, 1⟩
def CAN1_HP_CTRL_RXSEQ (i : Nat) : Fld := ⟨0x814208 + 96 * i, 20, 4⟩
def CAN1_HP_CTRL_REL_SEQ (i : Nat) : Fld := ⟨0x814208 + 96 * i, 16, 4⟩
def CAN1_HP_CTRL_VECTOR (i : Nat) : Fld := ⟨0x814208 + 96 * i, 0, 6⟩
def CAN1_HP_STAMP (i : Nat) : Nat := 0x81420C + 96 * i
def CAN1_HP_STAMP_STAMP (i : Nat) : Fld := ⟨0x81420C + 96 * i, 0, 32⟩
def CAN1_HP_FRAME (i : Nat) : Nat := 0x814210 + 96 * i
def CAN1_HP_FRAME_FDF (i : Nat) : Fld := ⟨0x814210 + 96 * i, 28, 1⟩
def CAN1_HP_FRAME_BRS (i : Nat) : Fld := ⟨0x814210 + 96 * i, 27, 1⟩
def CAN1_HP_FRAME_ESI (i : Nat) : Fld := ⟨0x814210 + 96 * i, 26, 1⟩
def CAN1_HP_FRAME_RTR (i : Nat) : Fld := ⟨0x814210 + 96 * i, 25, 1⟩
def CAN1_HP_FRAME_IDE (i : Nat) : Fld := ⟨0x814210 + 96 * i, 24, 1⟩
def CAN1_HP_FRAME_DLC (i : Nat) : Fld := ⟨0x814210 + 96 * i, 20, 4⟩
def CAN1_HP_FRAME_ID (i : Nat) : Nat := 0x814214 + 96 * i
def CAN1_HP_FRAME_ID_FRAME_ID (i : Nat) : Fld := ⟨0x814214 + 96 * i, 0, 29⟩
def CAN1_HP_DATA0 (i : Nat) : Nat := 0x814220 + 96 * i
def CAN1_HP_DATA0_DATA (i : Nat) : Fld := ⟨0x814220 + 96 * i, 0, 32⟩
def CAN1_HP_DATA1 (i : Nat) : Nat := 0x814224 + 96 * i
def CAN1_HP_DATA1_DATA (i : Nat) : Fld := ⟨0x814224 + 96 * i, 0, 32⟩
def CAN1_HP_DATA2 (i : Nat) : Nat := 0x814228 + 96 * i
def CAN1_HP_DATA2_DATA (i : Nat) : Fld := ⟨0x814228 + 96 * i, 0, 32⟩
def CAN1_HP_DATA3 (i : Nat) : Nat := 0x81422C + 96 * i
def CAN1_HP_DATA3_DATA (i : Nat) : Fld := ⟨0x81422C + 96 * i, 0, 32⟩
def CAN1_HP_DATA4 (i : Nat) : Nat := 0x814230 + 96 * i
def CAN1_HP_DATA4_DATA (i : Nat) : Fld := ⟨0x814230 + 96 * i, 0, 32⟩
def CAN1_HP_DATA5 (i : Nat) : Nat := 0x814234 + 96 * i
def CAN1_HP_DATA5_DATA (i : Nat) : Fld := ⟨0x814234 + 96 * i, 0, 32⟩
def CAN1_HP_DATA6 (i : Nat) : Nat := 0x814238 + 96 * i
def CAN1_HP_DATA6_DATA (i : Nat) : Fld := ⟨0x814238 + 96 * i, 0, 32⟩
def CAN1_HP_DATA7 (i : Nat) : Nat := 0x81423C + 96 * i
def CAN1_HP_DATA7_DATA (i : Nat) : Fld := ⟨0x81423C + 96 * i, 0, 32⟩
def CAN1_HP_DATA8 (i : Nat) : Nat := 0x814240 + 96 * i
def CAN1_HP_DATA8_DATA (i : Nat) : Fld := ⟨0x814240 + 96 * i, 0, 32⟩
def CAN1_HP_DATA9 (i : Nat) : Nat := 0x814244 + 96 * i
def CAN1_HP_DATA9_DATA (i : Nat) : Fld := ⟨0x814244 + 96 * i, 0, 32⟩
def CAN1_HP_DATA10 (i : Nat) : Nat := 0x814248 + 96 * i
def CAN1_HP_DATA10_DATA (i : Nat) : Fld := ⟨0x814248 + 96 * i, 0, 32⟩
def CAN1_HP_DATA11 (i : Nat) : Nat := 0x81424C + 96 * i
def CAN1_HP_DATA11_DATA (i : Nat) : Fld := ⟨0x81424C + 96 * i, 0, 32⟩
def CAN1_HP_DATA12 (i : Nat) : Nat := 0x814250 + 96 * i
def CAN1_HP_DATA12_DATA (i : Nat) : Fld := ⟨0x814250 + 96 * i, 0, 32⟩
def CAN1_HP_DATA13 (i : Nat) : Nat := 0x814254 + 96 * i
def CAN1_HP_DATA13_DATA (i : Nat) : Fld := ⟨0x814254 + 96 * i, 0, 32⟩
def CAN1_HP_DATA14 (i : Nat) : Nat := 0x814258 + 96 * i
def CAN1_HP_DATA14_DATA (i : Nat) : Fld := ⟨0x814258 + 96 * i, 0, 32⟩
def CAN1_HP_DATA15 (i : Nat) : Nat := 0x81425C + 96 * i
def CAN1_HP_DATA15_DATA (i : Nat) : Fld := ⟨0x81425C + 96 * i, 0, 32⟩
def CAN0_BUF_CFG (i : Nat) : Nat := 0x810400 + 96 * i
def CAN0_BUF_CFG_EN (i : Nat) : Fld := ⟨0x810400 + 96 * i, 31, 1⟩
def CAN0_BUF_CFG_DIR (i : Nat) : Fld := ⟨0x810400 + 96 * i, 30, 1⟩
def CAN0_BUF_CFG_IDE (i : Nat) : Fld := ⟨0x810400 + 96 * i, 29, 1⟩
def CAN0_BUF_CFG_ID (i : Nat) : Fld := ⟨0x810400 + 96 * i, 0, 29⟩
def CAN0_BUF_MASK (i : Nat) : Nat := 0x810404 + 96 * i
def CAN0_BUF_MASK_MASK (i : Nat) : Fld := ⟨0x810404 + 96 * i, 0, 29⟩
def CAN0_BUF_CTRL (i : Nat) : Nat := 0x810408 + 96 * i
def CAN0_BUF_CTRL_FULL (i : Nat) : Fld := ⟨0x810408 + 96 * i, 31, 1⟩
def CAN0_BUF_CTRL_OVERRUN (i : Nat) : Fld := ⟨0x810408 + 96 * i, 30, 1⟩
def CAN0_BUF_CTRL_WR_ERR (i : Nat) : Fld := ⟨0x810408 + 96 * i, 29, 1⟩
def CAN0_BUF_CTRL_TX_REQ (i : Nat) : Fld := ⟨0x810408 + 96 * i, 28, 1⟩
def CAN0_BUF_CTRL_CANCEL (i : Nat) : Fld := ⟨0x810408 + 96 * i, 27, 1⟩
def CAN0_BUF_CTRL_RELEASE (i : Nat) : Fld := ⟨0x810408 + 96 * i, 26, 1⟩
def CAN0_BUF_CTRL_TX_DONE (i : Nat) : Fld := ⟨0x810408 + 96 * i, 25, 1⟩
def CAN0_BUF_CTRL_TX_FAIL (i : Nat) : Fld := ⟨0x810408 + 96 * i, 24, 1⟩
def CAN0_BUF_CTRL_RXSEQ (i : Nat) : Fld := ⟨0x810408 + 96 * i, 20, 4⟩
def CAN0_BUF_CTRL_REL_SEQ (i : Nat) : Fld := ⟨0x810408 + 96 * i, 16, 4⟩
def CAN0_BUF_STAMP (i : Nat) : Nat := 0x81040C + 96 * i
def CAN0_BUF_STAMP_STAMP (i : Nat) : Fld := ⟨0x81040C + 96 * i, 0, 32⟩
def CAN0_BUF_FRAME (i : Nat) : Nat := 0x810410 + 96 * i
def CAN0_BUF_FRAME_FDF (i : Nat) : Fld := ⟨0x810410 + 96 * i, 28, 1⟩
def CAN0_BUF_FRAME_BRS (i : Nat) : Fld := ⟨0x810410 + 96 * i, 27, 1⟩
def CAN0_BUF_FRAME_ESI (i : Nat) : Fld := ⟨0x810410 + 96 * i, 26, 1⟩
def CAN0_BUF_FRAME_RTR (i : Nat) : Fld := ⟨0x810410 + 96 * i, 25, 1⟩
def CAN0_BUF_FRAME_IDE (i : Nat) : Fld := ⟨0x810410 + 96 * i, 24, 1⟩
def CAN0_BUF_FRAME_DLC (i : Nat) : Fld := ⟨0x810410 + 96 * i, 20, 4⟩
def CAN0_BUF_FRAME_ID (i : Nat) : Nat := 0x810414 + 96 * i
def CAN0_BUF_FRAME_ID_FRAME_ID (i : Nat) : Fld := ⟨0x810414 + 96 * i, 0, 29⟩
def CAN0_BUF_DATA0 (i : Nat) : Nat := 0x810420 + 96 * i
def CAN0_BUF_DATA0_DATA (i : Nat) : Fld := ⟨0x810420 + 96 * i, 0, 32⟩
def CAN0_BUF_DATA1 (i : Nat) : Nat := 0x810424 + 96 * i
def CAN0_BUF_DATA1_DATA (i : Nat) : Fld := ⟨0x810424 + 96 * i, 0, 32⟩
def CAN0_BUF_DATA2 (i : Nat) : Nat := 0x810428 + 96 * i
def CAN0_BUF_DATA2_DATA (i : Nat) : Fld := ⟨0x810428 + 96 * i, 0, 32⟩
def CAN0_BUF_DATA3 (i : Nat) : Nat := 0x81042C + 96 * i
def CAN0_BUF_DATA3_DATA (i : Nat) : Fld := ⟨0x81042C + 96 * i, 0, 32⟩
def CAN0_BUF_DATA4 (i : Nat) : Nat := 0x810430 + 96 * i
def CAN0_BUF_DATA4_DATA (i : Nat) : Fld := ⟨0x810430 + 96 * i, 0, 32⟩
def CAN0_BUF_DATA5 (i : Nat) : Nat := 0x810434 + 96 * i
def CAN0_BUF_DATA5_DATA (i : Nat) : Fld := ⟨0x810434 + 96 * i, 0, 32⟩
def CAN0_BUF_DATA6 (i : Nat) : Nat := 0x810438 + 96 * i
def CAN0_BUF_DATA6_DATA (i : Nat) : Fld := ⟨0x810438 + 96 * i, 0, 32⟩
def CAN0_BUF_DATA7 (i : Nat) : Nat := 0x81043C + 96 * i
def CAN0_BUF_DATA7_DATA (i : Nat) : Fld := ⟨0x81043C + 96 * i, 0, 32⟩
def CAN0_BUF_DATA8 (i : Nat) : Nat := 0x810440 + 96 * i
def CAN0_BUF_DATA8_DATA (i : Nat) : Fld := ⟨0x810440 + 96 * i, 0, 32⟩
def CAN0_BUF_DATA9 (i : Nat) : Nat := 0x810444 + 96 * i
def CAN0_BUF_DATA9_DATA (i : Nat) : Fld := ⟨0x810444 + 96 * i, 0, 32⟩
def CAN0_BUF_DATA10 (i : Nat) : Nat := 0x810448 + 96 * i
def CAN0_BUF_DATA10_DATA (i : Nat) : Fld := ⟨0x810448 + 96 * i, 0, 32⟩
def CAN0_BUF_DATA11 (i : Nat) : Nat := 0x81044C + 96 * i
def CAN0_BUF_DATA11_DATA (i : Nat) : Fld := ⟨0x81044C + 96 * i, 0, 32⟩
def CAN0_BUF_DATA12 (i : Nat) : Nat := 0x810450 + 96 * i
def CAN0_BUF_DATA12_DATA (i : Nat) : Fld := ⟨0x810450 + 96 * i, 0, 32⟩
def CAN0_BUF_DATA13 (i : Nat) : Nat := 0x810454 + 96 * i
def CAN0_BUF_DATA13_DATA (i : Nat) : Fld := ⟨0x810454 + 96 * i, 0, 32⟩
def CAN0_BUF_DATA14 (i : Nat) : Nat := 0x810458 + 96 * i
def CAN0_BUF_DATA14_DATA (i : Nat) : Fld := ⟨0x810458 + 96 * i, 0, 32⟩
def CAN0_BUF_DATA15 (i : Nat) : Nat := 0x81045C + 96 * i
def CAN0_BUF_DATA15_DATA (i : Nat) : Fld := ⟨0x81045C + 96 * i, 0, 32⟩
def CAN1_BUF_CFG (i : Nat) : Nat := 0x814400 + 96 * i
def CAN1_BUF_CFG_EN (i : Nat) : Fld := ⟨0x814400 + 96 * i, 31, 1⟩
def CAN1_BUF_CFG_DIR (i : Nat) : Fld := ⟨0x814400 + 96 * i, 30, 1⟩
def CAN1_BUF_CFG_IDE (i : Nat) : Fld := ⟨0x814400 + 96 * i, 29, 1⟩
def CAN1_BUF_CFG_ID (i : Nat) : Fld := ⟨0x814400 + 96 * i, 0, 29⟩
def CAN1_BUF_MASK (i : Nat) : Nat := 0x814404 + 96 * i
def CAN1_BUF_MASK_MASK (i : Nat) : Fld := ⟨0x814404 + 96 * i, 0, 29⟩
def CAN1_BUF_CTRL (i : Nat) : Nat := 0x814408 + 96 * i
def CAN1_BUF_CTRL_FULL (i : Nat) : Fld := ⟨0x814408 + 96 * i, 31, 1⟩
def CAN1_BUF_CTRL_OVERRUN (i : Nat) : Fld := ⟨0x814408 + 96 * i, 30, 1⟩
def CAN1_BUF_CTRL_WR_ERR (i : Nat) : Fld := ⟨0x814408 + 96 * i, 29, 1⟩
def CAN1_BUF_CTRL_TX_REQ (i : Nat) : Fld := ⟨0x814408 + 96 * i, 28, 1⟩
def CAN1_BUF_CTRL_CANCEL (i : Nat) : Fld := ⟨0x814408 + 96 * i, 27, 1⟩
def CAN1_BUF_CTRL_RELEASE (i : Nat) : Fld := ⟨0x814408 + 96 * i, 26, 1⟩
def CAN1_BUF_CTRL_TX_DONE (i : Nat) : Fld := ⟨0x814408 + 96 * i, 25, 1⟩
def CAN1_BUF_CTRL_TX_FAIL (i : Nat) : Fld := ⟨0x814408 + 96 * i, 24, 1⟩
def CAN1_BUF_CTRL_RXSEQ (i : Nat) : Fld := ⟨0x814408 + 96 * i, 20, 4⟩
def CAN1_BUF_CTRL_REL_SEQ (i : Nat) : Fld := ⟨0x814408 + 96 * i, 16, 4⟩
def CAN1_BUF_STAMP (i : Nat) : Nat := 0x81440C + 96 * i
def CAN1_BUF_STAMP_STAMP (i : Nat) : Fld := ⟨0x81440C + 96 * i, 0, 32⟩
def CAN1_BUF_FRAME (i : Nat) : Nat := 0x814410 + 96 * i
def CAN1_BUF_FRAME_FDF (i : Nat) : Fld := ⟨0x814410 + 96 * i, 28, 1⟩
def CAN1_BUF_FRAME_BRS (i : Nat) : Fld := ⟨0x814410 + 96 * i, 27, 1⟩
def CAN1_BUF_FRAME_ESI (i : Nat) : Fld := ⟨0x814410 + 96 * i, 26, 1⟩
def CAN1_BUF_FRAME_RTR (i : Nat) : Fld := ⟨0x814410 + 96 * i, 25, 1⟩
def CAN1_BUF_FRAME_IDE (i : Nat) : Fld := ⟨0x814410 + 96 * i, 24, 1⟩
def CAN1_BUF_FRAME_DLC (i : Nat) : Fld := ⟨0x814410 + 96 * i, 20, 4⟩
def CAN1_BUF_FRAME_ID (i : Nat) : Nat := 0x814414 + 96 * i
def CAN1_BUF_FRAME_ID_FRAME_ID (i : Nat) : Fld := ⟨0x814414 + 96 * i, 0, 29⟩
def CAN1_BUF_DATA0 (i : Nat) : Nat := 0x814420 + 96 * i
def CAN1_BUF_DATA0_DATA (i : Nat) : Fld := ⟨0x814420 + 96 * i, 0, 32⟩
def CAN1_BUF_DATA1 (i : Nat) : Nat := 0x814424 + 96 * i
def CAN1_BUF_DATA1_DATA (i : Nat) : Fld := ⟨0x814424 + 96 * i, 0, 32⟩
def CAN1_BUF_DATA2 (i : Nat) : Nat := 0x814428 + 96 * i
def CAN1_BUF_DATA2_DATA (i : Nat) : Fld := ⟨0x814428 + 96 * i, 0, 32⟩
def CAN1_BUF_DATA3 (i : Nat) : Nat := 0x81442C + 96 * i
def CAN1_BUF_DATA3_DATA (i : Nat) : Fld := ⟨0x81442C + 96 * i, 0, 32⟩
def CAN1_BUF_DATA4 (i : Nat) : Nat := 0x814430 + 96 * i
def CAN1_BUF_DATA4_DATA (i : Nat) : Fld := ⟨0x814430 + 96 * i, 0, 32⟩
def CAN1_BUF_DATA5 (i : Nat) : Nat := 0x814434 + 96 * i
def CAN1_BUF_DATA5_DATA (i : Nat) : Fld := ⟨0x814434 + 96 * i, 0, 32⟩
def CAN1_BUF_DATA6 (i : Nat) : Nat := 0x814438 + 96 * i
def CAN1_BUF_DATA6_DATA (i : Nat) : Fld := ⟨0x814438 + 96 * i, 0, 32⟩
def CAN1_BUF_DATA7 (i : Nat) : Nat := 0x81443C + 96 * i
def CAN1_BUF_DATA7_DATA (i : Nat) : Fld := ⟨0x81443C + 96 * i, 0, 32⟩
def CAN1_BUF_DATA8 (i : Nat) : Nat := 0x814440 + 96 * i
def CAN1_BUF_DATA8_DATA (i : Nat) : Fld := ⟨0x814440 + 96 * i, 0, 32⟩
def CAN1_BUF_DATA9 (i : Nat) : Nat := 0x814444 + 96 * i
def CAN1_BUF_DATA9_DATA (i : Nat) : Fld := ⟨0x814444 + 96 * i, 0, 32⟩
def CAN1_BUF_DATA10 (i : Nat) : Nat := 0x814448 + 96 * i
def CAN1_BUF_DATA10_DATA (i : Nat) : Fld := ⟨0x814448 + 96 * i, 0, 32⟩
def CAN1_BUF_DATA11 (i : Nat) : Nat := 0x81444C + 96 * i
def CAN1_BUF_DATA11_DATA (i : Nat) : Fld := ⟨0x81444C + 96 * i, 0, 32⟩
def CAN1_BUF_DATA12 (i : Nat) : Nat := 0x814450 + 96 * i
def CAN1_BUF_DATA12_DATA (i : Nat) : Fld := ⟨0x814450 + 96 * i, 0, 32⟩
def CAN1_BUF_DATA13 (i : Nat) : Nat := 0x814454 + 96 * i
def CAN1_BUF_DATA13_DATA (i : Nat) : Fld := ⟨0x814454 + 96 * i, 0, 32⟩
def CAN1_BUF_DATA14 (i : Nat) : Nat := 0x814458 + 96 * i
def CAN1_BUF_DATA14_DATA (i : Nat) : Fld := ⟨0x814458 + 96 * i, 0, 32⟩
def CAN1_BUF_DATA15 (i : Nat) : Nat := 0x81445C + 96 * i
def CAN1_BUF_DATA15_DATA (i : Nat) : Fld := ⟨0x81445C + 96 * i, 0, 32⟩
def CAN0_COL_START (i : Nat) : Nat := 0x811C00 + 4 * i
def CAN0_COL_START_US (i : Nat) : Fld := ⟨0x811C00 + 4 * i, 0, 16⟩
def CAN0_MATRIX (i : Nat) : Nat := 0x812000 + 4 * i
def CAN0_MATRIX_CELLS (i : Nat) : Fld := ⟨0x812000 + 4 * i, 0, 32⟩
def CAN1_COL_START (i : Nat) : Nat := 0x815C00 + 4 * i
def CAN1_COL_START_US (i : Nat) : Fld := ⟨0x815C00 + 4 * i, 0, 16⟩
def CAN1_MATRIX (i : Nat) : Nat := 0x816000 + 4 * i
def CAN1_MATRIX_CELLS (i : Nat) : Fld := ⟨0x816000 + 4 * i, 0, 32⟩
def CAN_US : Nat := 0x818000
def CAN_US_US : Fld := ⟨0x818000, 0, 32⟩
def CAN_US_STATUS : Nat := 0x818004
def CAN_US_STATUS_WRAP : Fld := ⟨0x818004, 0, 1⟩
def CAN_HP_PENDING : Nat := 0x818008
def CAN_HP_PENDING_PEND : Fld := ⟨0x818008, 0, 8⟩
def CAN_STAT_CFG : Nat := 0x818010
def CAN_STAT_CFG_STAT_EN : Fld := ⟨0x818010, 31, 1⟩
def CAN_STAT_CFG_STAT_CTRL : Fld := ⟨0x818010, 30, 1⟩
def CAN_STAT_CFG_IDE : Fld := ⟨0x818010, 29, 1⟩
def CAN_STAT_CFG_STAT_ID : Fld := ⟨0x818010, 0, 29⟩
def CAN_STAT_PERIOD : Nat := 0x818014
def CAN_STAT_PERIOD_MS : Fld := ⟨0x818014, 0, 16⟩
def CAN_FB_SIG : Nat := 0x818020
def CAN_FB_SIG_FB_CTRL : Fld := ⟨0x818020, 31, 1⟩
def CAN_FB_SIG_FB_HP : Fld := ⟨0x818020, 29, 2⟩
def CAN_FB_SIG_FB_INV_ALL1 : Fld := ⟨0x818020, 28, 1⟩
def CAN_FB_SIG_FB_ALIVE_EN : Fld := ⟨0x818020, 27, 1⟩
def CAN_FB_SIG_FB_ALIVE_START : Fld := ⟨0x818020, 17, 10⟩
def CAN_FB_SIG_FB_START : Fld := ⟨0x818020, 7, 10⟩
def CAN_FB_SIG_FB_LEN_M1 : Fld := ⟨0x818020, 2, 5⟩
def CAN_FB_STALE_CNT : Nat := 0x818024
def CAN_FB_STALE_CNT_SAT : Fld := ⟨0x818024, 31, 1⟩
def CAN_FB_STALE_CNT_COUNT : Fld := ⟨0x818024, 0, 16⟩
def ETH_CTRL : Nat := 0x820000
def ETH_CTRL_EN : Fld := ⟨0x820000, 31, 1⟩
def ETH_CTRL_ONE_STEP : Fld := ⟨0x820000, 30, 1⟩
def ETH_CTRL_PDELAY_LOG : Fld := ⟨0x820000, 20, 3⟩
def ETH_STATUS : Nat := 0x820004
def ETH_STATUS_LINK : Fld := ⟨0x820004, 31, 1⟩
def ETH_STATUS_AS_CAPABLE : Fld := ⟨0x820004, 30, 1⟩
def ETH_STATUS_TIME_STATE : Fld := ⟨0x820004, 24, 2⟩
def ETH_CORR : Nat := 0x820008
def ETH_CORR_EGRESS : Fld := ⟨0x820008, 16, 16⟩
def ETH_CORR_INGRESS : Fld := ⟨0x820008, 0, 16⟩
def ETH_SERVO : Nat := 0x82000C
def ETH_SERVO_LOCK_TOL : Fld := ⟨0x82000C, 16, 16⟩
def ETH_SERVO_HOLD_MAX : Fld := ⟨0x82000C, 0, 16⟩
def ETH_EPOCH_OFFSET : Nat := 0x820010
def ETH_EPOCH_OFFSET_NS : Fld := ⟨0x820010, 0, 20⟩
def ETH_NPD : Nat := 0x820014
def ETH_NPD_NPD_THR : Fld := ⟨0x820014, 0, 16⟩
def ETH_NT_NS : Nat := 0x820020
def ETH_NT_NS_NS : Fld := ⟨0x820020, 0, 32⟩
def ETH_MAP_TICK : Nat := 0x820030
def ETH_MAP_NT : Nat := 0x820038
def ETH_MAP_MS : Nat := 0x820040
def ETH_MAP_RATE : Nat := 0x820048
def ETH_MAP_RATE_RATE : Fld := ⟨0x820048, 0, 32⟩
def ETH_OFFSET_EST : Nat := 0x820050
def ETH_OFFSET_EST_NS : Fld := ⟨0x820050, 0, 32⟩
def ETH_LINK_DELAY : Nat := 0x820054
def ETH_LINK_DELAY_NS : Fld := ⟨0x820054, 0, 32⟩
def ETH_GM_ID_LO : Nat := 0x820058
def ETH_GM_ID_LO_ID : Fld := ⟨0x820058, 0, 32⟩
def ETH_GM_ID_HI : Nat := 0x82005C
def ETH_GM_ID_HI_ID : Fld := ⟨0x82005C, 0, 32⟩
def ETH_DROP_CNT : Nat := 0x820080
def ETH_DROP_CNT_SAT : Fld := ⟨0x820080, 31, 1⟩
def ETH_DROP_CNT_COUNT : Fld := ⟨0x820080, 0, 16⟩
def ETH_SYNC_TO_CNT : Nat := 0x820084
def ETH_SYNC_TO_CNT_SAT : Fld := ⟨0x820084, 31, 1⟩
def ETH_SYNC_TO_CNT_COUNT : Fld := ⟨0x820084, 0, 16⟩
def ETH_STEP_CNT : Nat := 0x820088
def ETH_STEP_CNT_SAT : Fld := ⟨0x820088, 31, 1⟩
def ETH_STEP_CNT_COUNT : Fld := ⟨0x820088, 0, 16⟩
def SUP_STATUS : Nat := 0x0
def SUP_STATUS_VSUP_MV : Fld := ⟨0x0, 16, 16⟩
def SUP_STATUS_OV : Fld := ⟨0x0, 3, 1⟩
def SUP_STATUS_INHIBIT : Fld := ⟨0x0, 2, 1⟩
def SUP_STATUS_OV_SEEN : Fld := ⟨0x0, 1, 1⟩
def SUP_STATUS_INHIBIT_SEEN : Fld := ⟨0x0, 0, 1⟩
def SUP_RAILS : Nat := 0x4
def SUP_RAILS_VAUX_MV : Fld := ⟨0x4, 21, 11⟩
def SUP_RAILS_VANA_MV : Fld := ⟨0x4, 10, 11⟩
def SUP_RAILS_VCORE_MV : Fld := ⟨0x4, 0, 10⟩
def SUP_INHIBIT_CNT : Nat := 0x10
def SUP_INHIBIT_CNT_SAT : Fld := ⟨0x10, 31, 1⟩
def SUP_INHIBIT_CNT_COUNT : Fld := ⟨0x10, 0, 16⟩
def CLK_STATUS : Nat := 0x100
def CLK_STATUS_PLL_LOCK : Fld := ⟨0x100, 31, 1⟩
def CLK_STATUS_SPARE : Fld := ⟨0x100, 30, 1⟩
def CLK_STATUS_REF_OK : Fld := ⟨0x100, 29, 1⟩
def CLK_STATUS_REF_LOST : Fld := ⟨0x100, 28, 1⟩
def CLK_STATUS_MCLK_FAULT : Fld := ⟨0x100, 16, 4⟩
def CLK_STATUS_CORE_COUNT : Fld := ⟨0x100, 0, 9⟩
def CLK_CFG : Nat := 0x104
def CLK_CFG_MCLK_CLASS : Fld := ⟨0x104, 30, 2⟩
def CLK_MCLK_FAULT_CNT : Nat := 0x110
def CLK_MCLK_FAULT_CNT_SAT : Fld := ⟨0x110, 31, 1⟩
def CLK_MCLK_FAULT_CNT_COUNT : Fld := ⟨0x110, 0, 16⟩
def THM_CTRL : Nat := 0x200
def THM_CTRL_EN : Fld := ⟨0x200, 31, 1⟩
def THM_STATUS : Nat := 0x204
def THM_STATUS_DIE175 : Fld := ⟨0x204, 31, 1⟩
def THM_STATUS_ENFORCED : Fld := ⟨0x204, 16, 6⟩
def THM_STATUS_I_THERM : Fld := ⟨0x204, 0, 16⟩
def THM_SENS_CFG (i : Nat) : Nat := 0x210 + 32 * i
def THM_SENS_CFG_EN (i : Nat) : Fld := ⟨0x210 + 32 * i, 31, 1⟩
def THM_SENS_CFG_TYPE (i : Nat) : Fld := ⟨0x210 + 32 * i, 29, 2⟩
def THM_SENS_CFG_GRACE (i : Nat) : Fld := ⟨0x210 + 32 * i, 16, 10⟩
def THM_SENS_CFG_I_THR (i : Nat) : Fld := ⟨0x210 + 32 * i, 0, 16⟩
def THM_SENS_THR (i : Nat) : Nat := 0x214 + 32 * i
def THM_SENS_THR_THROTTLE (i : Nat) : Fld := ⟨0x214 + 32 * i, 16, 16⟩
def THM_SENS_THR_WARN (i : Nat) : Fld := ⟨0x214 + 32 * i, 0, 16⟩
def THM_SENS_SHUT (i : Nat) : Nat := 0x218 + 32 * i
def THM_SENS_SHUT_HYST (i : Nat) : Fld := ⟨0x218 + 32 * i, 16, 16⟩
def THM_SENS_SHUT_SHUTDOWN (i : Nat) : Fld := ⟨0x218 + 32 * i, 0, 16⟩
def THM_SENS_NTC (i : Nat) : Nat := 0x21C + 32 * i
def THM_SENS_NTC_B (i : Nat) : Fld := ⟨0x21C + 32 * i, 16, 16⟩
def THM_SENS_NTC_R25 (i : Nat) : Fld := ⟨0x21C + 32 * i, 0, 16⟩
def THM_SENS_BIAS (i : Nat) : Nat := 0x220 + 32 * i
def THM_SENS_BIAS_ETA (i : Nat) : Fld := ⟨0x220 + 32 * i, 16, 16⟩
def THM_SENS_BIAS_RBIAS (i : Nat) : Fld := ⟨0x220 + 32 * i, 0, 16⟩
def THM_SENS_READ (i : Nat) : Nat := 0x224 + 32 * i
def THM_SENS_READ_FAST (i : Nat) : Fld := ⟨0x224 + 32 * i, 19, 1⟩
def THM_SENS_READ_BROKEN (i : Nat) : Fld := ⟨0x224 + 32 * i, 18, 1⟩
def THM_SENS_READ_LEVEL (i : Nat) : Fld := ⟨0x224 + 32 * i, 16, 2⟩
def THM_SENS_READ_TEMP (i : Nat) : Fld := ⟨0x224 + 32 * i, 0, 16⟩
def SEC_BOOT_STATUS : Nat := 0x830000
def SEC_BOOT_STATUS_STATE : Fld := ⟨0x830000, 28, 4⟩
def SEC_BOOT_STATUS_SLOT : Fld := ⟨0x830000, 24, 2⟩
def SEC_BOOT_STATUS_FALLBACK : Fld := ⟨0x830000, 23, 1⟩
def SEC_BOOT_STATUS_ENROLLED : Fld := ⟨0x830000, 22, 1⟩
def SEC_BOOT_STATUS_CAUSE_B : Fld := ⟨0x830000, 16, 4⟩
def SEC_BOOT_STATUS_CAUSE_A : Fld := ⟨0x830000, 12, 4⟩
def SEC_BOOT_STATUS_SVN : Fld := ⟨0x830000, 0, 7⟩
def SEC_ROLLBACK : Nat := 0x830004
def SEC_ROLLBACK_DEFERRED : Fld := ⟨0x830004, 7, 1⟩
def SEC_ROLLBACK_COUNTER : Fld := ⟨0x830004, 0, 7⟩
def SEC_PREFER : Nat := 0x830008
def SEC_PREFER_PREFER : Fld := ⟨0x830008, 0, 1⟩
def SEC_ENROLL_DIGEST (i : Nat) : Nat := 0x830040 + 4 * i
def SEC_ENROLL_DIGEST_DIGEST (i : Nat) : Fld := ⟨0x830040 + 4 * i, 0, 32⟩
def SEC_ENROLL : Nat := 0x830060
def SEC_ENROLL_KEY : Fld := ⟨0x830060, 0, 16⟩
def SEC_RESET : Nat := 0x830068
def SEC_RESET_KEY : Fld := ⟨0x830068, 0, 16⟩
def SEC_CMD_STATUS : Nat := 0x830064
def SEC_CMD_STATUS_CFG_REFUSED : Fld := ⟨0x830064, 8, 1⟩
def SEC_CMD_STATUS_CAUSE : Fld := ⟨0x830064, 0, 4⟩
def SEC_CHALLENGE (i : Nat) : Nat := 0x830080 + 4 * i
def SEC_CHALLENGE_WORD (i : Nat) : Fld := ⟨0x830080 + 4 * i, 0, 32⟩
def SEC_SERIAL (i : Nat) : Nat := 0x8300A0 + 4 * i
def SEC_SERIAL_WORD (i : Nat) : Fld := ⟨0x8300A0 + 4 * i, 0, 32⟩
def SEC_UNLOCK_CTRL : Nat := 0x830100
def SEC_UNLOCK_CTRL_RESULT : Fld := ⟨0x830100, 8, 2⟩
def SEC_UNLOCK_CTRL_SUBMIT : Fld := ⟨0x830100, 0, 1⟩
def SEC_UNLOCK_SIG (i : Nat) : Nat := 0x830800 + 4 * i
def SEC_UNLOCK_SIG_WORD (i : Nat) : Fld := ⟨0x830800 + 4 * i, 0, 32⟩
def SEC_PUBKEY (i : Nat) : Nat := 0x831000 + 4 * i
def SEC_PUBKEY_WORD (i : Nat) : Fld := ⟨0x831000 + 4 * i, 0, 32⟩
def SEC_CERT (i : Nat) : Nat := 0x831800 + 4 * i
def SEC_CERT_WORD (i : Nat) : Fld := ⟨0x831800 + 4 * i, 0, 32⟩
end Reg

/-- The parameter slots of R165 and R215, in slot order: name aside, least and greatest value in 2^-44. -/
def fldParamRange : List (Int × Int) := [
  (0, 140737488355327),
  (0, 140737488355327),
  (0, 140737488355327),
  (0, 140737488355327),
  (0, 35184372088832),
  (0, 17592186044416),
  (0, 17592186044416),
  (268435456, 140737488355327),
  (268435456, 140737488355327),
  (0, 35184372088832),
  (-175921860444, 0),
  (8796093022208, 19398164679364),
  (14073748835533, 17592186044416),
  (0, 140737488355327),
  (0, 140737488355327),
  (0, 70368744177664),
  (0, 70368744177664),
  (68719476736, 70368744177664),
  (0, 70368744177664),
  (0, 70368744177664),
  (-70368744177664, 0),
  (16777216, 140737488355327),
  (16777216, 140737488355327),
  (0, 140737488355327),
  (0, 140737488355327),
  (16384, 17592186044416),
  (0, 17592186044416),
  (4294967296, 17592186044416),
  (0, 17592186044416),
  (0, 140737488355327),
  (0, 140737488355327),
  (0, 140737488355327),
  (0, 140737488355327),
  (0, 17592186044416),
  (0, 17592186044416),
  (0, 17592186044416),
  (0, 35184372088832),
  (68719476736, 70368744177664),
  (0, 140737488355327),
  (0, 140737488355327),
  (0, 17592186044416),
  (0, 4398046511104)]

/-- The offset of parameter slot `k` (R165: 0x4_0100 + 8k for the 38 slots of the field engine; R215: the half-loop's
four follow at 0x4_0230). -/
def fldParamOff (k : Nat) : Nat := if k < 38 then 0x40100 + 8 * k else 0x40230 + 8 * (k - 38)

end Sys2Proof.Machine
end

