-- ==== Sys2Proof/Machine/State.lean ====
section
/-! DEFINITION. The state of the block: plain data, everything the spec gives the machine. Registers live in one store per
window; what the spec describes behind the registers has a field of its own, whose comment names the rule. -/
namespace Sys2Proof.Machine

/-- Why a run stops with a fault. No command of this block raises one: the spec gives every command an effect. Safe. -/
inductive Fault where
  /-- Raised by nothing; the type is not empty so that a fault can be named. Safe. -/
  | none
deriving DecidableEq, Repr

/-- Why a command is refused by the model. -/
inductive Refusal where
  /-- Raised by a command whose meaning the model does not have; no arm of exec answers it when the model is whole. Safe. -/
  | notModelled (mnemonic : String)
deriving DecidableEq, Repr

/-- The three orderable parts (00_scope.md). -/
inductive Part where
  | trn2 | trn4 | trn8
deriving DecidableEq, Repr

/-- Stakes in the package (R1). -/
def Part.stakes : Part → Nat
  | .trn2 => 2
  | .trn4 => 4
  | .trn8 => 8

/-- A posted event (R369, R370): class, tick of posting, source stake (255 for the package), the values of its snapshot,
and the flags of `EFLAGS`. -/
structure EvRec where
  ev : Ev
  cls : Nat
  stake : Nat
  tick : Word48
  vals : List Nat
  eflags : Nat
deriving DecidableEq, Repr

/-- A fault of the active set (R275), with the record of its latest posting. `pkg` marks one posted for the package (R276). `cls` is
the class it acts in: the highest it was posted in. -/
structure ActiveFault where
  post : EvRec
  pkg : Bool
  cls : Nat
deriving DecidableEq, Repr

/-! ### The wale (chapter 01) -/

/-- A cell on the wire (R21): its link fields, and its content, none for an idle cell. -/
structure WireCell where
  seq : Nat
  ack : Nat
  crClass : Nat
  crCount : Nat
  cell : Option Cell
deriving DecidableEq, Repr

/-- One direction of a stake's wale port. -/
structure WalDir where
  /-- R21: `SEQ` of the next cell, 10 bits, modular. -/
  seq : Nat := 0
  /-- R21: `SEQ` of the last cell received intact, sent back as `ACK`, 10 bits. -/
  ack : Nat := 0
  /-- R23: send credits held per class, 32 buffers at the receiver each. -/
  credits : List Nat := [32, 32, 32, 32]
  /-- R23: credits still to return per class. -/
  owed : List Nat := [0, 0, 0, 0]
  /-- R27: the class queues, oldest first, 256 cells together. -/
  queues : List (List Cell) := [[], [], [], []]
  /-- R27: STREAM cells that wait at the source FIFO for room in the queues. -/
  held : List Cell := []
  /-- R23: cells sent and not acknowledged, oldest first, with their sequence numbers. -/
  replay : List (Nat × Cell) := []
  /-- R23: cells of the replay buffer still to be sent again (go-back-N). -/
  toReplay : List (Nat × Cell) := []
  /-- R23: cells of each class sent in the present 1 µs window. -/
  used : List Nat := [0, 0, 0, 0]
  /-- R23: tick at which the present window began. -/
  winStart : Nat := 0
  /-- R23: what the last cell slot put on the wire; none while the direction is down or retrains. -/
  wire : Option WireCell := none
  /-- R27: times of the CRC errors of the last 100 µs. -/
  crcAt : List Nat := []
  /-- R27: time the retrain in progress began. -/
  retrainFrom : Option Nat := none
  /-- R27 to R29: a retrain is called for and has not begun. -/
  retrainWant : Bool := false
  /-- R29: the update set of the period has been received, and no sample frame has been sent since. -/
  pairGap : Bool := true
  /-- R29: time that set was received. -/
  gapAt : Option Nat := none
  /-- R40, R334: the margins of the 18 lanes this port receives, in 1/256 UI, as they are now. -/
  margins : List Nat := List.replicate 18 0
  /-- R334: runs of measurements below `MARGIN_THR`, per physical lane. -/
  lowRun : List Nat := List.replicate 18 0
  /-- R334: `WAL_MARGIN_LOW` has been posted for this direction. -/
  lowPosted : Bool := false
  /-- R334: the lanes a wanted retrain maps out. -/
  mapOut : List Nat := []
  /-- R334: the lanes this port has asked its neighbour to map out of the direction it receives. -/
  asked : List Nat := []
deriving DecidableEq, Repr

/-- The wale block of a stake. -/
structure WalState where
  /-- The ascending port's sending direction. -/
  asc : WalDir := {}
  /-- The descending port's sending direction. -/
  dsc : WalDir := {}
  /-- R30: time of the last heartbeat received. -/
  hbLast : Nat := 0
  /-- R30: ring master this stake follows, 0 or 1. -/
  master : Nat := 0
  /-- R30: this stake has declared the anchor lost. -/
  anchorLost : Bool := false
  /-- R31: this stake reaches neither stake 0 nor stake 1. -/
  cutOff : Bool := false
  /-- R31: bit n set while stake n is unreachable from this stake. -/
  lostMask : Nat := 0
  /-- R19: the links of the ring that are down, link i being that at the ascending port of stake i. -/
  down : List Nat := []
  /-- R22: how many of the event records and completions that wait in this stake have been put into their class queue. -/
  evSent : Nat := 0
  cmpSent : Nat := 0
  /-- R434: firmware bytes written by the distribution. -/
  fwBytes : Nat := 0
  /-- R434: when the last body cell was sent to the stake. -/
  fwAt : Nat := 0
  /-- R434: the stake's plait runs the distributed image. -/
  started : Bool := false
deriving DecidableEq, Repr

/-! ### Ticks, angle clocks and the scheduler (chapter 02) -/

/-- What a processed measurement brings into effect in the next tick (R48, R49, R52). -/
structure ClkNext where
  omega : Int
  rev : Bool
  /-- The angle loaded on return to VALID (R52). -/
  load : Option Word48
  /-- An error applied whole (R49). -/
  step : Option Int
  /-- An error spread over the slew (R49). -/
  slew : Option Int
deriving DecidableEq, Repr

/-- A measurement on its way to a clock (R47, R48): angle, tick at which it held, speed, direction flag. -/
structure Meas where
  m : Word48
  tm : Word48
  speed : Int
  rev : Bool
deriving DecidableEq, Repr

/-- An angle clock (R45, R51). -/
structure Clock where
  /-- R45: θ, 48 bits modular. -/
  theta : Word48 := 0
  /-- R45: ω in counts per tick, signed 48 bits. -/
  omega : Int := 0
  /-- R49: the slew error being spread. -/
  slewE : Int := 0
  /-- R49: ticks of slew still to come. -/
  slewLeft : Nat := 0
  /-- R48: what takes effect in the next tick. -/
  next : Option ClkNext := none
  /-- R47: the direction flag, true for reverse. -/
  rev : Bool := false
  /-- R60: the flag toggled in this tick. -/
  toggled : Bool := false
  /-- R60: the flag toggled in the tick before. -/
  toggledPrev : Bool := false
  /-- R51: the clock is VALID. -/
  valid : Bool := false
  /-- R51: time of the last processed measurement. -/
  lastMeas : Nat := 0
  /-- R57: the look-ahead angle of the tick before. -/
  prevL : Word48 := 0
  /-- R58: a step of R49 is applied in this tick. -/
  stepNow : Bool := false
  /-- R48: measurements delivered and not yet processed, oldest first. -/
  mail : List Meas := []
deriving DecidableEq, Repr

/-- An entry of the angle scheduler as committed (R54, R59, R72). -/
structure Entry where
  /-- R72: target in force, 48 bits. -/
  tgt : Word48 := 0
  /-- R72: interval in force, 32 bits. -/
  ivl : Nat := 0
  /-- R72: control word in force, 32 bits. -/
  ctrl : BitVec 32 := 0
  /-- R59, R63: `SPENT`. -/
  spent : Bool := false
  /-- R59: the fire sense was reverse. -/
  sigmaRev : Bool := false
  /-- R55: tick in which the entry took effect. -/
  since : Word48 := 0
  /-- R55: a PERIODIC entry has fired since then. -/
  begun : Bool := false
  /-- R54: next instant of a PERIODIC entry. -/
  next : Word48 := 0
deriving DecidableEq, Repr

/-- A write of an entry that takes effect in the next tick (R62, R72). -/
inductive PendEntry where
  | commit (k : Nat) (tgt : Word48) (ivl : Nat) (ctrl : BitVec 32)
  | arm (k : Nat)
  | disarm (k : Nat)
deriving DecidableEq, Repr

/-- A firing on its way to its effect (R63, R67). -/
structure Act where
  entry : Nat
  action : Nat
  arg : Nat
  at_ : Instant
  src : Nat
deriving DecidableEq, Repr

/-- The ticks, the clocks and the scheduler of a stake. -/
structure AngState where
  /-- R41: `ANG_TICK`, 48 bits, reset 0. -/
  tick : Word48 := 0
  /-- R32, R41: the tick counter has been loaded from the first alignment cell. -/
  loaded : Bool := false
  /-- R45: the two angle clocks, main and auxiliary. -/
  clk : List Clock := [{}, {}]
  /-- R54: the 127 entries. -/
  ent : List Entry := List.replicate 127 {}
  /-- R62: writes and ARM and DISARM actions of this tick. -/
  pend : List PendEntry := []
  /-- R63: firings dispatched in this tick. -/
  dispatched : Nat := 0
  /-- R63: firings carried to the next tick, in order; the flag marks one already carried a tick. -/
  carried : List (Act × Bool) := []
  /-- R63, R65: firings carried from the tick before, not yet dispatched. -/
  carriedPrev : List (Act × Bool) := []
  /-- R67: dispatched actions waiting for their instant. -/
  acts : List Act := []
  /-- R67: interrupt vectors raised at the plait by PLAIT_IRQ. -/
  irqs : List Nat := []
  /-- R106, R120: the plait's direction-change interrupts, by source, oldest first. -/
  dirIrqs : List Nat := []
  /-- R54, R56: the transfer boundary of the present period and its length in ticks. -/
  period : Word48 × Nat := (0, 0)
  /-- R54: BOUNDARY entries that have fallen due or been skipped in the present period. -/
  bndDone : List (Nat × Word48) := []
  /-- R59: ANGLE entries that fell due in this tick. -/
  firedNow : List Nat := []
  /-- R42: the counter has passed from all-ones to zero and the wrap has not been reported. -/
  wrapPend : Bool := false
deriving DecidableEq, Repr
/-! ### Sensing (chapter 03) -/

/-- A group's sample set (R79): capture sequence number, centre tick, corrected values in Q4.44 and qualifier bits of R81, by
channel; a channel that is not enabled in the group holds 0. -/
structure SampleSet where
  seq : Nat
  centre : Word48
  y : List Int
  qual : List Nat
  /-- The channels that have a sample in the set. -/
  chans : List Nat := []
deriving DecidableEq, Repr

/-- A capture in flight (R77, R80, R85). -/
structure Capture where
  centre : Word48
  seq : Nat
  /-- R85: the taint zone: first and last tick. -/
  zone : Word48 × Word48
  tainted : Bool
  /-- R298: the auxiliary clock's angle at the capture tick. -/
  aux : Word48 := 0
deriving DecidableEq, Repr

/-- A capture group. -/
structure SnsGroup where
  inFlight : List Capture := []
  /-- R79: the sequence number of the next capture, 16 bits modular. -/
  nextSeq : Nat := 0
  latest : Option SampleSet := none
deriving DecidableEq, Repr

/-- A channel behind its registers. -/
structure SnsChan where
  /-- R80: the time from which its filter takes bits. -/
  fillFrom : Nat := 0
  /-- R81, R89: the time it was last declared stuck, and the time that ended. -/
  stuckAt : Option Nat := none
  stuckEnd : Option Nat := none
  /-- R86: the last fast value, in 2^-15. -/
  rf : Int := 0
  /-- R76, R82: the last main-decimator output, corrected, and its qualifiers. -/
  y : Int := 0
  qual : Nat := 0
  /-- R412: its modulator clock is faulty. -/
  clkFault : Bool := false
  /-- R94: raw values waiting for a whole item of three (`STREAM_MODE` 3). -/
  raw : List Nat := []
deriving DecidableEq, Repr

/-- The sensing block of a stake. -/
structure SnsState where
  groups : List SnsGroup := [{}, {}, {}, {}]
  chans : List SnsChan := List.replicate 16 {}
  /-- R94: the time from which each clock output has edges. -/
  mclkFrom : List Nat := [0, 0, 0, 0]
  /-- R91: samples of set A that wait for set B's capture at the same centre, and samples of set B kept for set A's. -/
  waitA : List SampleSet := []
  waitB : List SampleSet := []
  /-- R92: the rows posted since the verdict began. -/
  rowsPosted : List Nat := []
  /-- R83: corrections committed in this tick: channel, gain, offset. -/
  corrNext : List (Nat × Word48 × Word48) := []
  /-- R94: fast thresholds and offsets written in this tick, by offset, with the word still in force. -/
  fastOld : List (Nat × BitVec 32) := []
  /-- R92: per check: successive failures, successive passes, verdict in force. -/
  verdicts : List (Nat × Nat × Bool) := List.replicate 5 (0, 0, false)
  /-- R85: leading edges of symbols sent lately, with their port. -/
  edges : List (Nat × Word48) := []
deriving DecidableEq, Repr
/-! ### Position and speed (chapter 04) -/

/-- The edge times of an encoder or Hall source (R120 to R122). -/
structure EdgeState where
  /-- R121: stamps of the edge that last put the source in ACQUIRING or REVERSAL and of those in the flag's direction since, newest
  first, at most 65. -/
  stamps : List Word48 := []
  /-- R120: time of the last accepted edge, or of enable. -/
  lastAt : Nat := 0
  /-- R123: the tick in which an edge was last accepted. -/
  edgeAt : Option Nat := none
  /-- R111, R115: times of the faults of the last millisecond. -/
  faults : List Nat := []
  /-- R122: angle of the last edge, before `OFFSET`. -/
  angle : Word48 := 0
  /-- R122: the speed in force. -/
  speed : Int := 0
  /-- R122: a decay measurement has been delivered since the last edge. -/
  decaying : Bool := false
deriving DecidableEq, Repr

/-- A compare output (R125, R126). -/
structure CmpOut where
  active : Bool := false
  startAt : Instant := ⟨0, 0⟩
  endAt : Instant := ⟨0, 0⟩
  /-- A pulse has been started. -/
  ran : Bool := false
  /-- R196: the cells of the output's own delay line its last leading and trailing edge took. -/
  cells : Nat × Nat := (0, 0)
deriving DecidableEq, Repr

/-- The encoder output (R127, R128). -/
structure EmuState where
  /-- Levels of `Sn_EMU_A`, `Sn_EMU_B` and `Sn_EMU_Z`. -/
  a : Bool := false
  b : Bool := false
  z : Bool := false
  count : Nat := 0
  /-- Time of the last step. -/
  lastStep : Nat := 0
  /-- An episode of more than 4 counts is running. -/
  lag : Bool := false
  /-- The count has reached 0 since the start. -/
  zSeen : Bool := false
deriving DecidableEq, Repr

/-- The position interface of a stake. -/
structure PosState where
  /-- R127: levels of the balls `Sn_ENC_A`, `Sn_ENC_B` and `Sn_ENC_Z`, pulled up (R450). -/
  inA : Bool := true
  inB : Bool := true
  inZ : Bool := true
  /-- R107, R114: accepted levels of A and B and of U, V, W (bit 2 U, bit 1 V, bit 0 W, before `INV`). -/
  a : Bool := true
  b : Bool := true
  hall : Nat := 7
  /-- R110: an index has been accepted since enable. -/
  indexed : Bool := false
  enc : EdgeState := {}
  hal : EdgeState := {}
  /-- R115: the last legal sector. -/
  sector : Option Nat := none
  /-- R115: time since when the state is illegal. -/
  illegal : Option Nat := none
  /-- R116: request tick of the frame that runs. -/
  sspFrame : Option Word48 := none
  /-- R116: time the recovery ends. -/
  sspFree : Nat := 0
  /-- R117, R118: bad and good frames in succession. -/
  sspBad : Nat := 0
  sspGood : Nat := 0
  /-- R118: angle before `OFFSET` and t_m of the last good frame. -/
  sspLast : Option (Word48 × Word48) := none
  /-- R103: outputs of the sine and cosine channels in their last tick. -/
  resSin : Option (Word48 × Int) := none
  resCos : Option (Word48 × Int) := none
  /-- R103: products of the last `EXC_DIV` ticks, newest first: tick, sine, cosine. -/
  resHist : List (Word48 × Int × Int) := []
  /-- R104: φ, ω_r, and the tick of the last update. -/
  resPhi : Word48 := 0
  resOmega : Int := 0
  resAt : Option Word48 := none
  /-- R105: updates in succession within the lock threshold, and with each fault. -/
  resLock : Nat := 0
  resHold : List Nat := [0, 0, 0]
  /-- R100, R123: per source, the tick in which a measurement was last delivered. -/
  sentAt : List (Option Nat) := [none, none, none, none]
  /-- R124: the turn source's last measurement. -/
  turnLast : Option Word48 := none
  /-- R123, R124: that measurement, the count and its wrap before the measurement delivered in the present tick. -/
  turnWas : Option Word48 × Reg32 × Bool := (none, 0, false)
  /-- R112, R123: the tick of the last alignment load and its count. -/
  loadAt : Option (Nat × Nat) := none
  cmp : List CmpOut := [{}, {}]
  emu : EmuState := {}
deriving DecidableEq, Repr
/-! ### Descriptors, completions and stream items (chapter 11) -/

/-- A SETPOINT that waits for the next pass start (R352, R353): its command is held as kind, values, angle source. -/
structure Setpoint where
  ring : Nat
  cid : Nat
  kind : Nat
  a : Int
  b : Int
  angSrc : Nat
  win : Option (Int × Int)
  period : Option Nat
  takeback : Bool
  /-- R34, R353: the tick it reached its stake. -/
  fetched : Nat := 0
deriving DecidableEq, Repr

/-- A completion on its way to the anchor (R363): ring, `CID`, opcode, status, `INFO`, the sixteen `RESULT` bytes. -/
structure Completion where
  ring : Nat
  cid : Nat
  op : Nat
  status : Nat
  info : Nat := 0
  result : List Nat := List.replicate 16 0
deriving DecidableEq, Repr

/-- An item offered to the stream packer (R371): stream, `SOURCE`, `CONTENT`, words. -/
structure Offer where
  stream : Nat
  source : Nat
  content : Nat
  words : List Nat
deriving DecidableEq, Repr

/-! ### Streams and rings (chapter 11) -/

/-- A packet of a stream (R371, R372, R375). -/
structure Packet where
  seq : Nat
  drop : Nat
  dropSat : Bool
  flushed : Bool
  first : Bool
  source : Nat
  content : Nat
  tick : Word48
  words : List Nat
deriving DecidableEq, Repr

/-- A stream behind its registers. -/
structure Strm where
  /-- R372: the packet being built, and the time of its first item. -/
  packing : Option (Packet × Nat) := none
  /-- R373: the whole packets in the FIFO, oldest first. -/
  whole : List Packet := []
  /-- R373, R374: the packet whose transfer to the anchor has begun; its words are still stored. -/
  moving : Option Packet := none
  /-- R371: items dropped since the last packet was closed. -/
  drops : Nat := 0
  /-- R374: the next packet carries `FLUSHED`. -/
  flushNext : Bool := false
  /-- R375: the next packet carries `FIRST`. -/
  firstNext : Bool := true
deriving DecidableEq, Repr

/-- A host buffer posted to a stream (R359). -/
structure Buf where
  cid : Nat
  addr : Nat
  len : Nat
  timeout : Nat
  used : Nat := 0
  packets : Nat := 0
  firstSeq : Nat := 0
  drops : Nat := 0
  flushed : Bool := false
  firstAt : Option Nat := none
deriving DecidableEq, Repr

/-- A ring pair behind its registers (R343 to R348). -/
structure RingSt where
  sqBase : Nat := 0
  cqBase : Nat := 0
  sqTail : Nat := 0
  cqHead : Nat := 0
  /-- R346: the `PHASE` of the next entry. -/
  phase : Bool := true
  /-- R347: entries the host has released that nothing has reserved. -/
  cqFree : Nat := 0
  /-- R347: descriptor fetches under way. -/
  fetching : Nat := 0
  /-- R339: when those fetches were issued, oldest first. -/
  fetchAt : List Nat := []
  /-- R362: `CID`s of the RING_DELETEs that wait for the pair's end. -/
  deleting : List Nat := []
  /-- R359: posted buffers, oldest first. -/
  bufs : List Buf := []
deriving DecidableEq, Repr

/-- A fetched descriptor whose completion is not yet written: ring, `CID`, opcode, the SQ head after it, `URGENT`. -/
structure Flight where
  ring : Nat
  cid : Nat
  op : Nat
  sqHead : Nat
  urgent : Bool
deriving DecidableEq, Repr

/-- A checked descriptor (R350): its 64 bytes, and the transfer boundaries of its target at its arrival (R358). -/
structure Desc where
  ring : Nat
  cid : Nat
  op : Nat
  body : List Nat
  at_ : Nat := 0
  /-- R34, R353: the time at which it reached its stake. -/
  fetched : Nat := 0
  /-- R353: it has reached its stake; a descriptor the anchor itself serves is there at once. -/
  there : Bool := true
deriving DecidableEq, Repr

/-- A TUNE descriptor that waits or runs (R356 to R358): the stake it acts on, 8 for the package region, and its writes, offset and value. -/
structure Tune where
  ring : Nat
  cid : Nat
  op : Nat
  target : Nat
  writes : List (Nat × Nat)
  at_ : Nat
  /-- R357: the words of table data, landed together. -/
  table : List (Nat × Nat) := []
  /-- R358: the `DELAY` once it has started. -/
  delay : Nat := 0
deriving DecidableEq, Repr

/-- The reads of the host data of a descriptor (R340, R357, R360, R365): its pair, `CID` and class; the units of 64 bytes left to ask for; a
read of it has been issued, with its tag. -/
structure DataRead where
  ring : Nat
  cid : Nat
  cls : Nat
  left : Nat
  out : Bool := false
deriving DecidableEq, Repr

/-- The host interface of the package. -/
structure HostSt where
  rings : List RingSt := List.replicate 256 {}
  flying : List Flight := []
  descs : List Desc := []
  /-- R26: pairs whose DMA engine has asked for a packet, oldest first. -/
  inbound : List Nat := []
  /-- R358: TUNE descriptors waiting, in arrival order, and those whose writes are taking effect. -/
  tune : List Tune := []
  tuneRun : List Tune := []
  /-- R358: TUNE descriptors the package region has taken in the present period of stake 0. -/
  tuneUsed : Nat := 0
  /-- R368: per vector: entries since it last fired, and the time of the first. -/
  msix : List (Nat × Option Nat) := List.replicate 64 (0, none)
  /-- R341: the admin registers take writes whatever the lock. -/
  adminOpen : Bool := false
  /-- R365: per class the pair served last. -/
  served : List Nat := [0, 0, 0, 0]
  /-- R365: the 10 µs window and the units of 64 bytes each class has used in it. -/
  window : Nat := 0
  used : List Nat := [0, 0, 0, 0]
  /-- R339, R342: the configuration space, and the uncorrectable error status of Advanced Error Reporting. -/
  pcie : PcieCfg := {}
  aer : BitVec 32 := 0
  /-- R340, R365: the data reads of the descriptors that need host data. -/
  reads : List DataRead := []
  /-- What the device has written to host memory, oldest first: address and bytes; an MSI-X message is such a write. -/
  writes : List (Nat × List Nat) := []
deriving DecidableEq, Repr

/-! ### CAN FD and network time (chapter 12) -/

/-- A CAN controller behind its registers. Buffers are numbered 0 to 3 for the HP buffers and 4 + b for general buffer b. -/
structure CanSt where
  /-- R384: the read shadow: buffer and its words. -/
  shadow : List (Nat × List (BitVec 32)) := []
  /-- R386: buffers whose begun transmission is not to be retried. -/
  cancelled : List Nat := []
  /-- R388: `CAN_US` at the start of the basic cycle. -/
  cycleAt : BitVec 32 := 0
  /-- R389: time of the last reference frame received, and of the last one sent; cycles begun. -/
  refAt : Nat := 0
  sentAt : Option Nat := none
  nextCycle : Nat := 0
  /-- R386: when the buffers' transmissions were asked for. -/
  reqAt : List (Nat × Nat) := []
  /-- R390: an exclusive frame that has not started: general buffer, time of the column start. -/
  excl : Option (Nat × Nat) := none
deriving DecidableEq, Repr

/-- What the MAC sends (R395 to R397): a request with its egress stamp; an answer with its sequence number, the ingress stamp it reports (of
two steps), correction in 2^-16 ns and twoStepFlag; a follow-up with the egress stamp. -/
inductive EthOut where
  | pdelayReq (seq : Nat) (egress : Instant)
  | pdelayResp (seq : Nat) (receipt : Option Instant) (corr : Int) (twoStep : Bool)
  | pdelayFollowUp (seq : Nat) (egress : Instant)
deriving DecidableEq, Repr

/-- A network-time map (R398). -/
structure NetMap where
  tick : Word48
  nt : Word48
  ms : Word48
  rate : Int
deriving DecidableEq, Repr

/-- The networks of the package. -/
structure NetSt where
  can : List CanSt := [{}, {}]
  /-- R387: the counter has wrapped and the wrap is not yet reported. -/
  usWrap : Bool := false
  /-- R391: the counter of the last refreshing frame. -/
  alive : Option Nat := none
  /-- R392: time of the last status frame, its bytes 0 and 1, the frame counter. -/
  statAt : Option Nat := none
  statLast : Nat × Nat := (0, 0)
  statCnt : Nat := 0
  /-- R398: the map that takes effect at its `TICK_BASE`. -/
  mapNext : Option NetMap := none
  /-- R399: successive Syncs within `LOCK_TOL`, time of the last Sync, time HOLDOVER began, a step already made in ACQUIRE. -/
  syncOk : Nat := 0
  syncAt : Nat := 0
  holdAt : Nat := 0
  stepped : Bool := false
  /-- R395: times of the last Pdelay_Req and of the last poll of the PHY. -/
  pdelayAt : Option Nat := none
  pollAt : Option Nat := none
  /-- R399: ticks between Syncs, as the last one said; a Sync of two steps that waits for its Follow_Up: sequence number, ingress stamp. -/
  syncEvery : Nat := 50000000
  syncWait : Option (Nat × Instant) := none
  /-- R395, R396: the last Pdelay_Req: sequence number, egress stamp; an answer of two steps that waits for its follow-up: sequence number,
  time from request to answer in 2^-46 ns. -/
  pdReq : Nat × Option Instant := (0, none)
  pdWait : Option (Nat × Int) := none
  /-- R400: when the anchor last sent its alignment cells. -/
  alignAt : Option Nat := none
  /-- What the MAC has sent, oldest first, each with its FCS. -/
  ethTx : List (EthOut × BitVec 32) := []
deriving DecidableEq, Repr

/-! ### Start-up, firmware and security (chapters 10 and 14) -/

/-- A configuration copy as it reads (R324): its header line, its body, and whether a line of it reads with an uncorrectable error. -/
structure CfgCopy where
  header : List Nat := List.replicate 48 255
  body : List Nat := []
  bad : Bool := false
deriving DecidableEq, Repr

/-- A copy of the boot record as it reads (R431). -/
structure BootRec where
  bytes : List Nat := List.replicate 48 255
  bad : Bool := false
deriving DecidableEq, Repr

/-- What persists across every reset: the flash, the eNVM and the OTP (R428, R431, R438, R441). -/
structure NvState where
  /-- R428: words of the flash by byte offset; an erased word reads all-ones. -/
  flash : Store := []
  /-- R441: words of each stake's eNVM by byte offset; an erased word reads all-ones. -/
  envm : List Store := List.replicate 8 []
  /-- R325, R431: offsets of the 48-byte lines of stake 0's eNVM that read with an uncorrectable error. -/
  badLines : List Nat := []
  /-- R438: words of each stake's OTP by byte offset; a bit that is not blown reads 0. -/
  otp : List Store := List.replicate 8 []
deriving DecidableEq, Repr

/-- What asks the seal unit for a configuration digest (R324 to R328): a CFG_WRITE, a rewrite, the load at a start; or what asked has
ended. -/
inductive CfgWork where
  | write | rewrite | load | ended
deriving DecidableEq, Repr

/-- An operation of the seal unit (R440). -/
inductive SealOp where
  | boot
  | cfg (work : CfgWork)
  | commit (ring cid slot : Nat)
  | attest (ring cid addr : Nat) (nonce : List Nat)
deriving DecidableEq, Repr

/-- A CFG_WRITE in progress (R327): its descriptor and what it writes. -/
structure CfgOp where
  ring : Nat
  cid : Nat
  copy : CfgCopy
  /-- R327, R440: how many copies' digests the seal unit has formed. -/
  digests : Nat := 0
deriving DecidableEq, Repr

/-- Bits of stake 0's OTP that are being blown (R436, R437): those left, the one under way first; when it is done, none while the blowing
waits for supply; whether it is an enrolment, and the counter before an advance. -/
structure OtpJob where
  bits : List Nat
  due : Option Nat
  enrol : Bool
  old : Nat
deriving DecidableEq, Repr

/-- The supply of a stake in millivolts, as its last supply command gave it (R403, R404). -/
structure SupSt where
  vsup : Option Nat := none
  vana : Option Nat := none
deriving DecidableEq, Repr

/-- A FW_STAGE in progress (R432). -/
structure FwOp where
  ring : Nat
  cid : Nat
  slot : Nat
  off : Nat
  data : List Nat
deriving DecidableEq, Repr

/-- The phases of a start (R425, R435, R442). -/
inductive Phase where
  | held | upsett | imagePreferred | imageOther | distribution | configuration | ready | recovery | testWait | test | dead
deriving DecidableEq, Repr

/-- The start-up of the package. -/
structure BootSt where
  phase : Phase := .held
  /-- R403, R423: VSUP is above the power-on level; `PERST#` is low. -/
  vsupUp : Bool := true
  perstLow : Bool := false
  /-- R424: `TESTEN` and the straps as sampled at the release. -/
  testen : Bool := false
  straps : Nat := 0
  /-- R41, R330: time of the release, and per stake the ticks from it to the lock of its PLL. -/
  releasedAt : Nat := 0
  locks : List Nat := []
  /-- R423: time at which a `SEC_RESET` acts. -/
  resetDue : Option Nat := none
  /-- R430, R439: the header of the running image. -/
  running : List Nat := []
  /-- R39: bit n set while stake n has passed upsett. -/
  passed : Nat := 0
  /-- R31: bit n set once stake n has been reported lost. -/
  lost : Nat := 0
  /-- R440: the operation of the seal unit, with the bytes it signs, and those that wait. -/
  sealOp : Option (SealOp × List Nat) := none
  sealQ : List SealOp := []
  cfgOp : Option CfgOp := none
  fwOp : Option FwOp := none
  /-- R328: copies still to be rewritten, and the copy they take. -/
  rewrite : List Nat := []
  chosen : CfgCopy := {}
  /-- R328: the copy that is being rewritten. -/
  rwOp : Option Nat := none
  /-- R436, R437: what is being blown into the OTP, oldest first; whether this start has said that an advance waits. -/
  otpJobs : List OtpJob := []
  deferSaid : Bool := false
  /-- R437: a customer key was enrolled at the start. -/
  coSign : Bool := false
  /-- R326: the configuration in force. -/
  inForce : Option CfgCopy := none
  /-- R434: the stakes whose completion of the distribution has come. -/
  distDone : List Nat := []
  /-- R432: slots staged since the start or the last FW_COMMIT. -/
  staged : List Nat := []
  /-- R442: the eNVM is being erased. -/
  erasing : Bool := false
deriving DecidableEq, Repr

/-! ### Temperature (chapter 13) -/

/-- A temperature sensor behind its registers (R417, R418, R421): levels in force, the time its grace timer ends, and `I_THR` as its last
sample took it. -/
structure ThmSt where
  warn : Bool := false
  throttle : Bool := false
  shut : Bool := false
  grace : Option Nat := none
  limit : Nat := 0
  seen : Bool := false
deriving DecidableEq, Repr
/-! ### The field engine (chapter 05) -/

/-- A command to the field engine (R142): kind 0 TORQUE, 1 SPEED, 2 CURRENT, 3 VOLTAGE; its one or two values in Q4.44; the angle source
of a VOLTAGE command; the low byte of the `CID` that carried it. -/
structure DriveCmd where
  kind : Nat := 0
  a : Int := 0
  b : Int := 0
  angSrc : Nat := 0
  cid : Nat := 0
deriving DecidableEq, Repr

/-- The latch of R136: main angle, speed, tick, auxiliary angle and speed. -/
structure CapLatch where
  theta : Word48
  omega : Int
  tick : Word48
  auxTheta : Word48
  auxOmega : Int
deriving DecidableEq, Repr

/-- What a pass leaves for the next (R138, R147, R153). -/
structure PrevPass where
  id : Int
  iq : Int
  vd : Int
  vq : Int
  omega : Int
  start : Word48
  seq : Option Nat
deriving DecidableEq, Repr

/-- A CATCH sequence in progress (R162). -/
structure Catch where
  /-- 1 legs off, 2 tracking, 3 pulses. -/
  step : Nat := 1
  start : Nat
  /-- Sum of |e| and number of readings over the legs-off step. -/
  emfSum : Int := 0
  emfN : Nat := 0
  /-- The loop on arg e: angle, speed in counts per tick, time since when its error has been small. -/
  pllTheta : Word48 := 0
  pllOmega : Int := 0
  /-- R162: the readings' instant, tick and angle of e. -/
  lastTick : Word48 := 0
  smallSince : Option Nat := none
  /-- Angles found at the pulses, and whether every one was below `ZV_I_MIN`. -/
  phi : List Word48 := []
  allSmall : Bool := true
  pulses : Nat := 0
  nextPulse : Nat := 0
  lastCentre : Word48 := 0
  /-- RUN was requested. -/
  run : Bool
  /-- The descriptor that waits for the outcome: ring and `CID`. -/
  desc : Option (Nat × Nat) := none
  /-- R162: arg e of the last pass. -/
  argE : Word48 := 0
deriving DecidableEq, Repr

/-- An update set (R174). -/
structure USet where
  /-- R174: written mask, 7 bits. -/
  mask : Nat := 0
  /-- R176: close tick. -/
  closeAt : Word48 := 0
  /-- R177: closed by the pass, not by the register path. -/
  pass : Bool := false
  /-- R176, R219: ticks before a boundary the close must lie. -/
  guard : Nat := 9
  /-- R220: the boundary the leader names for a returned set. -/
  target : Option Word48 := none
  /-- R174 group 0: carrier period C in ticks. -/
  period : Nat := 0
  /-- R174 group 1: v_α, v_β, u_dc in Q4.44. -/
  va : Int := 0
  vb : Int := 0
  udc : Int := 0
  /-- R153, R213: the main-plane part of that voltage, without a pairing's loop voltage. -/
  mainA : Int := 0
  mainB : Int := 0
  /-- R174 group 2: ψ*_α, ψ*_β, ψ̂_α, ψ̂_β in Q4.44, ω_c in counts per tick, m in Q4.44, t_c. -/
  psiA : Int := 0
  psiB : Int := 0
  hatA : Int := 0
  hatB : Int := 0
  omegaC : Int := 0
  m : Int := 0
  tc : Word48 := 0
  /-- R174 group 3: duties of U, V, W and `DUTY_FMT`. -/
  duty : List Nat := [0, 0, 0]
  dutyFmt : Nat := 0
  /-- R174 group 4: i*_d, i*_q in Q4.44 and θ_out. -/
  id : Int := 0
  iq : Int := 0
  theta : Word48 := 0
  /-- R179, R187: in the set in force, the θ_out that came with its voltage or flux. -/
  thOut : Word48 := 0
  /-- R174 group 5: AUX duty and the format it was written in, `T_ON`, `T_OFF`. -/
  auxDuty : Nat := 0
  auxFmt : Nat := 0
  ton : Nat := 0
  toff : Nat := 0
  /-- R174 group 6: slot request. -/
  slot : Nat := 0
  /-- R174: the form in force: 0 voltage, 1 duty, 2 flux. -/
  form : Nat := 0
deriving DecidableEq, Repr

/-- What the sample assembly and the transforms hand to the later stages. -/
structure PassIn where
  ts : Word48
  /-- Ticks since the previous pass start, and the same as per-unit time. -/
  n : Nat
  dt : Int
  theta : Word48
  /-- R136: the main clock's own angle, without a slip angle. -/
  thClk : Word48
  omega : Int
  tc : Word48
  auxTheta : Word48
  auxOmega : Int
  wpu : Int
  i : Int × Int
  iab : Int × Int
  /-- R213, R214: harmonic or circulating current. -/
  loopI : Int × Int
  /-- R215: the follower's loop output. -/
  loopV : Int × Int
  row : Nat
  pred : Bool
  seq : Option Nat
  udc : Int
  udcB : Bool
  sat0 : Bool
  sat1 : Bool
deriving DecidableEq, Repr

/-- R134: what the first stages of a pass hand to its output transform, 304 ticks after the pass start. -/
structure PassMid where
  x : PassIn
  /-- The pass forms a set. -/
  withSet : Bool
  /-- It started as a paired follower's. -/
  follower : Bool
  /-- R161: it is the first of RUN. -/
  first : Bool
  /-- R142: its command is a VOLTAGE command, and by its `ANG_SRC` turned by the auxiliary clock. -/
  volt : Bool
  aux : Bool
  /-- R142, R164: the command's source, kind and `CID`, and the limit code. -/
  src : Nat
  kind : Nat
  cid : Nat
  code : Nat
  /-- R148: the current references; R151: the limited voltage and whether it was limited. -/
  iref : Int × Int
  v : Int × Int
  lim : Bool
  /-- R132: saturation of the stages with bits 0 to 8. -/
  sat : List Bool
deriving DecidableEq, Repr

/-- The field engine of a stake. -/
structure FldState where
  /-- R134: time the running pass started. -/
  busyFrom : Option Nat := none
  latch : Option CapLatch := none
  /-- R136: a latch has been taken since the previous pass. -/
  latchNew : Bool := false
  /-- R165: the committed copy that waits for the next pass. -/
  copy : Option Store := none
  /-- R165: time of that commit. -/
  copyAt : Nat := 0
  prev : Option PrevPass := none
  /-- R138: a pass has run since the axis left OFF, ARMED or SAFE. -/
  history : Bool := false
  predRun : Nat := 0
  udcRun : Nat := 0
  /-- R137, R139: capture sequence numbers of the sets from which the previous pass had the samples of `UDC_A` and `UDC_B`. -/
  udcSeq : List (Option Nat) := [none, none]
  /-- R134: the running pass before its output transform at t_s + 304. -/
  midway : Option PassMid := none
  /-- R134, R218: the update set and the pairing's cells that the running pass will close at t_s + 336. -/
  closing : Option (USet × List Cell) := none
  /-- R134, R164: the period frame that the running pass will write at its end. -/
  framing : Option (List Nat) := none
  /-- R139: the last good DC-link voltage, per-unit. -/
  udc : Int := 0
  /-- R149: integrators. -/
  xd : Int := 0
  xq : Int := 0
  /-- R143: speed integrator and ramped reference, while the speed loop runs. -/
  xw : Int := 0
  spdRef : Option Int := none
  /-- R147: field-weakening integrator, output, and the previous pass's error. -/
  xfw : Int := 0
  dpsi : Int := 0
  efw : Int := 0
  /-- R144: the final T* of the last pass. -/
  tStar : Int := 0
  /-- R153: stator flux estimate; its current-model flux for R154. -/
  psi : Int × Int := (0, 0)
  /-- R154: rotor flux and slip angle. -/
  psiR : Int := 0
  thetaSl : Word48 := 0
  /-- R155: the observer's loop; the measurement of source 4 last delivered, its angle, tick and speed, and whether the source reports
  valid position. -/
  obsPll : Word48 := 0
  obsTheta : Word48 := 0
  obsTm : Word48 := 0
  obsOmega : Int := 0
  obsLow : Nat := 0
  obsValid : Bool := false
  /-- R47: the observer's direction flag. -/
  obsRev : Bool := false
  /-- R156. -/
  tHat : Int := 0
  /-- R157: the filtered estimate, `none` where the next evaluation presets it. -/
  mmY : Option Int := none
  rho : Int := 17592186044416
  /-- R158: times since when ρ has been outside, and inside, its bounds. -/
  mmOut : Option Nat := none
  mmIn : Option Nat := none
  /-- R142: the commands: host, fallback, internal. -/
  host : DriveCmd := {}
  fb : Option DriveCmd := none
  internal : Option DriveCmd := none
  /-- R161: the next pass is the first of RUN. -/
  flying : Bool := false
  /-- R353: SETPOINTs that wait for the next pass start, in order of arrival. -/
  waiting : List Setpoint := []
  /-- R353: carrier period carried by the SETPOINT this pass applies. -/
  newPeriod : Option Nat := none
  /-- R164: the last period frame. -/
  frame : List Nat := []
  /-- R163. -/
  catching : Option Catch := none
  /-- R160: time the CAN signal was last refreshed, its value in Q4.44. -/
  canX : Int := 0
  canAt : Option Nat := none
  /-- R160: the loss of the input has been posted; the centre tick of the sample the last evaluation used. -/
  fbLost : Bool := false
  fbCentre : Option (BitVec 32) := none
  /-- R135: t_s of the last pass. -/
  lastStart : Word48 := 0
deriving DecidableEq, Repr
/-! ### Modulation (chapter 06) -/

/-- The symbols of the edge lane (R233). -/
inductive Symb where
  | hsOn | hsOff | lsOn | lsOff | softOff
deriving DecidableEq, Repr

/-- R233: the width in ticks of a pulse: a keep-alive, or a symbol. -/
def pulseWidth : Option Symb → Nat
  | none => 4
  | some .hsOn => 8
  | some .hsOff => 12
  | some .lsOn => 16
  | some .lsOff => 20
  | some .softOff => 28

/-- A record handed to the leg link: symbol, instant, edge current (R195). -/
structure Record where
  sym : Symb
  at_ : Instant
  ie : Int
  /-- R252, R265: inserted by the LEG block, so that no NEXT serves it. -/
  ins : Bool := false
deriving DecidableEq, Repr

/-- A fault cut in force on a port (R203, R204). -/
structure Cut where
  /-- R204: the cut instant. -/
  at_ : Instant
  /-- R204: latched until cleared. -/
  latched : Bool
  /-- R204: E_cut where it is a time (AUX); `none` for the next transfer boundary. -/
  endAt : Option Word48
deriving DecidableEq, Repr

/-- What the modulation unit keeps of a leg port. -/
structure ModPort where
  /-- R203: the high side is commanded on. -/
  hs : Bool := false
  /-- R203: the low side is commanded on. -/
  ls : Bool := false
  /-- R172: the leg's state in the schedule, true for high. -/
  level : Bool := false
  /-- R465: that state has been set up by a record since the axis entered switching. -/
  known : Bool := false
  /-- R204: a turn-on of the high or low side has been discarded, and its matching turn-off is to go with it. -/
  dropHs : Bool := false
  dropLs : Bool := false
  /-- R195: records handed and not yet sent, in order of instant. -/
  recs : List Record := []
  /-- R195: leading edge of the last symbol sent. -/
  lastSym : Option Instant := none
  /-- R203: the cut in force. -/
  cut : Option Cut := none
  /-- R204: earliest instant of the next turn-on under the resumption rule. -/
  resume : Option Instant := none
  /-- R265, R266: the window about a refresh in which the records are replaced, the instant at which the leg returns to the state they
  give, and whether a low state is brought back too. -/
  skip : Option (Instant × Instant × Instant × Bool) := none
  /-- R184: the absolute on-time and the carrier period whose rounding was counted last. -/
  judged : Option (Nat × Nat) := none
  /-- R238: the port is seized by the protection sequencer. -/
  seized : Bool := false
deriving DecidableEq, Repr

/-- The pattern engine (R186 to R189). -/
structure PatState where
  /-- R187: the seam that began the mode. -/
  tSeam : Word48 := 0
  /-- R188: pattern angle of the last edge committed, per phase. -/
  ptr : List Word48 := [0, 0, 0]
  /-- R189: shift of the next edge in fine steps, per phase. -/
  shift : List Int := [0, 0, 0]
  /-- R189: the stator flux estimate and the tick it holds at. -/
  psi : Int × Int := (0, 0)
  psiAt : Word48 := 0
  /-- R189: the latest commutations of the phases by the instant of their voltage: instant, phase, state. -/
  edges : List (Instant × Nat × Bool) := []
deriving DecidableEq, Repr

/-- The modulation unit of a stake. -/
structure ModState where
  /-- R464: a carrier runs. -/
  run : Bool := false
  /-- R464: tick of the first valley, and C, once the set that starts the carrier has closed. -/
  start : Option (Word48 × Nat) := none
  /-- R171: tick of the next transfer boundary, while the carrier or a pattern runs. -/
  nextB : Word48 := 0
  /-- R170: the next carrier point is a valley. -/
  nextValley : Bool := true
  /-- R170: ticks of the half that begins at the next carrier point, and of the half after. -/
  half : Nat := 0
  /-- R206: epoch trim per half, of the present carrier and of the next one. -/
  trim : Int := 0
  trimNext : Int := 0
  /-- R206: epoch error still to be absorbed, in fine steps. -/
  err : Int := 0
  /-- R174: the set in force. -/
  set : USet := {}
  /-- R176: closed sets waiting for a boundary, in order of closing; the flag marks one counted late. -/
  waiting : List (USet × Bool) := []
  /-- R190: the pending slot request: slot, time, and whether a speed abort made it. -/
  req : Option (Nat × Nat × Bool) := none
  /-- R197: boundaries still to be placed in fixed-dead-time mode. -/
  fdtLeft : Nat := 0
  /-- R197: the axis has entered switching and the mode follows at the next boundary. -/
  fdtEnter : Bool := false
  /-- R257: MODE with `FDT` 0 has been sent for the coming switch. -/
  fdtAsked : Bool := false
  /-- R196: N_c in force on each lane, and the one measured last. -/
  ncMap : List Nat := [0, 0, 0, 0]
  ports : List ModPort := [{}, {}, {}, {}]
  /-- R205: the peak of a single-update carrier, at which the triggers of the next valley are computed. -/
  peakAt : Option Word48 := none
  /-- R205: trigger firings computed: unit and instant. -/
  trig : List (Nat × Instant) := []
  /-- R206: successive instants with |e| at most one tick. -/
  lockRun : Nat := 0
  /-- R206: time of the last epoch. -/
  epochAt : Nat := 0
  pat : PatState := {}
  /-- R200: protection requests the AUX switch. -/
  auxReq : Bool := false
  /-- R201: tick the AUX switch turns off, while a pulse of CONST_ON is on. -/
  auxEnd : Option Word48 := none
  /-- R201: tick of the last AUX turn-off. -/
  auxOffAt : Option Word48 := none
  /-- R135: boundaries since this field engine's last set was taken. -/
  lossRun : Nat := 0
  /-- R153: the main-plane voltage applied in the period that runs, and in the one before. -/
  volt : Int × Int := (0, 0)
  voltWas : Int × Int := (0, 0)
deriving DecidableEq, Repr
/-! ### The leg link (chapter 08) -/

/-- A frame of word lane out (R241). -/
inductive LegFrame where
  | next (tag offProf onProf : Nat)
  | mode (fdt lane : Bool) (tBlank ilMax : Nat)
  | defaults (defOff defOn : Nat)
  | psel (prof step : Nat)
  | pstep (cur dur : Nat)
  | test (code : Nat)
  | clear
  | sumReq
  | arm
  | heartbeat (seq : Nat)
deriving DecidableEq, Repr

/-- A self-test in progress (R268): its step, and what has been seen in it. -/
structure LegTest where
  step : Nat
  /-- Time of the step's last frame or symbol; a TEST frame that still waits has none. -/
  since : Option Nat := none
  /-- The EVENT of the step's turn-on symbol, and of its off symbol: whether each carries `REJ`. -/
  on : Option Bool := none
  off : Option Bool := none
  /-- A STATUS between the two EVENTs, or in step 7 any STATUS, shows the gate on. -/
  gateOn : Bool := false
  /-- A STATUS after the EVENT of the off symbol shows it off. -/
  gateOff : Bool := false
deriving DecidableEq, Repr

/-- The state of a leg port behind its registers. -/
structure LegPort where
  /-- R269: the main edge-lane driver failed in upsett; neither driver passed. -/
  mainBad : Bool := false
  noDriver : Bool := false
  /-- R244: frames waiting for word lane out, in the order in which they fell due. -/
  out : List LegFrame := []
  /-- R244: time the last frame began. -/
  lastOut : Nat := 0
  /-- R239: the last frame put on word lane out. -/
  word : BitVec 32 := 0
  /-- R241: heartbeat sequence, 8 bits modular. -/
  hb : Nat := 0
  /-- R245: time of the last good frame on word lane in. -/
  lastIn : Nat := 0
  /-- R246: time the start began. -/
  started : Nat := 0
  /-- R246: the HELLO that waits for OFF or SAFE. -/
  hello : Option (BitVec 32) := none
  /-- R246, R253: attempts at an equal sum. -/
  attempts : Nat := 0
  /-- R248: off symbols sent since ARM, modulo 16. -/
  kOff : Nat := 0
  /-- R251: instant of the off symbol a NEXT has been sent for. -/
  nextFor : Option Instant := none
  /-- R241: the last MODE frame sent: fdt, lane, T_BLANK, IL_MAX. -/
  mode : LegFrame := .mode true false 300 40
  /-- R241, R247: the profile steps, their pointer, and the defaults `DEF_OFF` and `DEF_ON`, as the frames sent have set them. -/
  steps : List Nat := List.replicate 64 0
  ptr : Nat := 0
  defs : Nat × Nat := (0, 0)
  /-- R246, R253: the sums expected for the SUM_REQ frames sent and not yet answered. -/
  sums : List Nat := []
  /-- R239: the running disparity of word lane out is positive before the last frame. -/
  rd : Bool := false
  /-- R263: symbols whose EVENT has not come, with the time of each. -/
  expect : List (Symb × Nat) := []
  /-- R263: successive misses. -/
  miss : Nat := 0
  /-- R196, R233: the last pulse driven on both edge lanes: keep-alive or symbol, its leading edge and its delay-line cell. -/
  pulse : Option (Option Symb × Instant × Nat) := none
  /-- R251: time at which the trailing edge of the last off symbol has left the ball. -/
  offEnd : Nat := 0
  /-- R263: time of the last symbol. -/
  lastSymAt : Nat := 0
  /-- R263: successive STATUS frames with a gate difference. -/
  gateRun : Nat := 0
  /-- R234: time of the last pulse of any kind. -/
  lastPulse : Nat := 0
  /-- R269: successive item 4 reports below threshold. -/
  marginRun : Nat := 0
  /-- R270: LEG_LANE_LOW has been posted. -/
  lowPosted : Bool := false
  /-- R266: a BOOT_UV came in the present period. -/
  bootUv : Bool := false
  /-- R266: a refresh is to follow the cut. -/
  bootRefresh : Bool := false
  /-- R265: end of the last refresh. -/
  refEnd : Nat := 0
  /-- R265: time the low side went on, in fine steps, while it is on. -/
  lsSince : Option Nat := none
  /-- R265: time since when both switches are off. -/
  offSince : Option Nat := some 0
  /-- R265: since both switches were off for longer than `T_HOLD` the high side has not been on, and no precharge has been sent. -/
  cold : Bool := false
  /-- R415: item 2 has come since the port last became READY. -/
  tempSeen : Bool := false
  /-- R250: item 2 has come since reset. -/
  tempEver : Bool := false
  /-- R268: the self-test in progress. -/
  test : Option LegTest := none
  /-- R258: LEG_DESAT has been posted for the present latch and the high side, the low side. -/
  desat : Bool × Bool := (false, false)
  /-- R261: the tick the last FAULT frame dates its fault at. -/
  faultAt : Option Word48 := none
deriving DecidableEq, Repr

/-- The leg link of a stake. -/
structure LegState where
  ports : List LegPort := [{}, {}, {}, {}]
deriving DecidableEq, Repr
/-! ### Pairing (chapter 07) -/

/-- A follower's sample frame as the leader holds it (R216). -/
structure PairFrame where
  tc : Word48
  seq : Nat
  /-- Qualifier bits of R81, OR over the three channels. -/
  qual : Nat
  unavail : Bool
  hlValid : Bool
  late : Bool
  i : List Int
  loop : Int × Int
deriving DecidableEq, Repr

/-- What a follower keeps of the latest returned set for its loop (R215): angle at t_c, θ_out, the returned loop current. -/
structure Returned where
  thetaC : Word48
  thetaOut : Word48
  cur : Int × Int
  tag : Nat
deriving DecidableEq, Repr

/-- The pairing unit of a stake. -/
structure PairState where
  /-- R217: frames received and not yet matched or discarded. -/
  frames : List PairFrame := []
  /-- R228: matched frames in succession since START, at most 3. -/
  matched : Nat := 0
  /-- R217: the centre of set A that the last pass start matched or missed. -/
  judged : Option Word48 := none
  /-- R223: what this stake knows of its partner at the start of the tick: its `CONSEC`, and whether it could survive a leader fault. -/
  seen : Nat × Bool := (0, false)
  /-- R215: the set returned since the last pass. -/
  returned : Option Returned := none
  /-- R215: integrator and output of the loop, Q4.44. -/
  x : Int × Int := (0, 0)
  y : Int × Int := (0, 0)
  /-- R215, R216: the loop output is fit to send. -/
  hlValid : Bool := false
  /-- R221: the follower held at its last boundary. -/
  held : Bool := false
  /-- R225: time HOLD was entered. -/
  holdAt : Option Nat := none
  /-- R225: this stake has sent its confirmation. -/
  confirmed : Bool := false
  /-- R225: bit p: the leg head of port p has reported both gates off since this stake yielded. -/
  offSeen : Nat := 0
  /-- R223: cause and states of the last break, and the consecutive count it found. -/
  lastBreak : Nat := 0
  /-- R212, R287: the leader's axis state and requested sub-state, as cell 0 last carried them. -/
  mirror : Nat × Nat := (0, 0)
  /-- R218: the leader's clock is VALID. -/
  clockValid : Bool := false
  /-- R418: the thermal current limit the follower has reported, in 2^-12. -/
  therm : Option Nat := none
  /-- R218: tick of the next clock cell. -/
  nextCell : Nat := 0
deriving DecidableEq, Repr
/-! ### The plait (chapter 10) -/

/-- A hand-over between voted and split mode (R322): its direction, and the admin descriptor that asked for it (ring and `CID`). -/
structure Handover where
  toSplit : Bool
  desc : Option (Nat × Nat)
deriving DecidableEq, Repr

/-- R317: work of the plait that waits for its restart: an interrupt of PLAIT_IRQ, a direction-change interrupt of a source, a write of
the speed-band latch, an evaluation of the torque monitor. -/
inductive PlaitTask where
  | irq (vector : Nat)
  | direction (source : Nat)
  | latch
  | monitor (group : Nat) (theta : Word48) (set : SampleSet)
deriving DecidableEq, Repr

/-- The plait of a stake behind its registers. -/
structure VoteState where
  /-- R317: what comes to the plait while a resynchronisation holds it, in order of arrival. -/
  tasks : List PlaitTask := []
  /-- R316: halted by a stake fault until the next package reset. -/
  halted : Bool := false
  /-- R317: a resynchronisation is in progress. -/
  resync : Bool := false
  /-- R318: of each core, the time of its last resynchronisation that passed. -/
  passed : List (Option Nat) := [none, none, none]
  /-- R318: time of the last failure. -/
  failedAt : Option Nat := none
  /-- R322: the hand-over in progress. -/
  handover : Option Handover := none
  /-- R323: `DISCH_REQ` waits for the return to voting. -/
  dischDue : Bool := false
  /-- R336: corrections in the present scrub round. -/
  roundCorr : Nat := 0
deriving DecidableEq, Repr
/-! ### Protection (chapter 09) -/

/-- A trip signal on its way to the protection sequencer (R279): cause code, the phase port whose own leg faulted, and
the tick of detection. -/
structure Trip where
  cause : Nat
  port : Option Nat
  at_ : Nat
deriving DecidableEq, Repr

/-- An F3 reaction the plait is to choose and request (R282): the event, and the fixed state its cause names (R285 item 6),
with 0 for none and the resolver's other items. -/
structure F3Req where
  ev : Ev
  fixed : Nat
  at_ : Nat
  /-- R323: the plait was split or handing over: the request names SAFE_OFF. -/
  off : Bool := false
deriving DecidableEq, Repr

/-- A symbol the sequencer's own generator has still to place (R238, R280, R296): port, symbol, earliest time. -/
structure GenSym where
  port : Nat
  sym : Symb
  at_ : Nat
deriving DecidableEq, Repr

/-- A short-circuit episode (R295 to R297). -/
structure Episode where
  /-- Time the window opened. -/
  start : Nat
  cause : Nat
  /-- Ports that faulted within the window. -/
  faulted : List Nat
  /-- Ports sent a SOFT_OFF, with its time. -/
  soft : List (Nat × Nat)
  /-- R296: |r_f| of each phase port at window close, in 2^-15. -/
  rf : List Nat := []
  /-- R296: time the window closed. -/
  closed : Option Nat := none
  /-- R297: the resolver has run. -/
  decided : Bool := false
  /-- The die shutdown came during the episode (R285 item 1). -/
  die : Bool := false
deriving DecidableEq, Repr

/-- An active discharge (R303 to R305). -/
structure Discharge where
  /-- 1 resistor, 2 injection. -/
  mode : Nat
  start : Nat
  /-- Started by `DISCH_REQ`. -/
  byReq : Bool
  /-- R303: T* is still being ramped to zero before the discharge acts. -/
  ramping : Bool := false
  /-- R305: successive values of u_dc below `DIS_TARGET`. -/
  below : Nat := 0
  /-- R305: `DISCHARGE_INCOMPLETE` has been posted. -/
  late : Bool := false
  /-- R304, R305: the discharge itself holds the phase ports. -/
  holding : Bool := false
  /-- R304: the injection has been released to the field engine. -/
  injecting : Bool := false
  /-- R305: the injection is complete: 1 the next pass runs with zero current, 2 that pass has run. -/
  ending : Nat := 0
  /-- R323: a split stake of a TRN2 or TRN4 does not serve the request; only its time runs. -/
  unserved : Bool := false
deriving DecidableEq, Repr

/-- The protection state of a stake. -/
structure PrtState where
  /-- R275: the active fault set, in order of first posting. -/
  active : List ActiveFault := []
  /-- R282: F3 reactions not yet applied, oldest first. -/
  f3 : List F3Req := []
  /-- R279: trips not yet taken, oldest first. -/
  trips : List Trip := []
  /-- R238: symbols the generator has still to place, in order. -/
  gen : List GenSym := []
  /-- R280: time of the last off symbol on a phase port. -/
  lastOff : Nat := 0
  /-- R280: an ASC turn-on waits for `ASC_DELAY`; its time. -/
  ascDue : Option Nat := none
  /-- R282: the seizure is to be released at the next transfer boundary. -/
  releasing : Bool := false
  /-- R283: the plait's live band: 0 LOW, 1 HIGH, 2 UNKNOWN. -/
  band : Nat := 2
  /-- R283: time of the last write of the latch. -/
  latchAt : Nat := 0
  /-- R283: time of the last pass start or other writing of the latch by the plait. -/
  bandAt : Nat := 0
  episode : Option Episode := none
  /-- R291: u_dc in 1/16 V, and the value before it. -/
  udc : Int := 0
  udcPrev : Int := 0
  /-- R291: the DC-link channel whose output waits for the other one's of the same tick. -/
  udcWait : Option Nat := none
  /-- R291: the chopper request. -/
  chopReq : Bool := false
  /-- R291: time of the last tick with a chopper request. -/
  chopLast : Option Nat := none
  /-- R292: start of the check in progress, once the episode's first HS_ON has gone out, and successive falls. -/
  check : Option (Option Nat × Nat) := none
  /-- R293: causes of the regeneration clamp: bit 0 CHOPPER_FAULT, bit 1 limit. -/
  clamp : Nat := 0
  /-- R291: u_dc was at or above `UDC_ASC`. -/
  ascLatched : Bool := false
  /-- R299: the torque window, Q4.44, and the time of its last update. -/
  tLo : Int := 0
  tHi : Int := 0
  winAt : Option Nat := none
  /-- R299: the widened windows of the last 16 passes, newest first. -/
  wide : List (Int × Int) := []
  /-- R299, R300: successive failures and successive impossible evaluations. -/
  monFails : Nat := 0
  monUnavail : Nat := 0
  /-- R300: `TMON_WIN_STALE` has been posted for the present window. -/
  winStale : Bool := false
  /-- R298: the plait's copy of the flux table, and the one its digest was compared with. -/
  tmonTable : Store := []
  /-- R298: the copy to be made at the swap compares unequal. -/
  copyBad : Bool := false
  /-- R298: the copy in use compared unequal. -/
  tableBad : Bool := false
  /-- R301: time of the last restart of the freshness timer. -/
  freshAt : Nat := 0
  discharge : Option Discharge := none
  /-- R144, R277: the ramp bound of link 5: where it began, in Q4.44, and when. -/
  ramp : Option (Int × Nat) := none
  /-- R288: the `AUX` request of the discharge. -/
  disAux : Bool := false
deriving DecidableEq, Repr
/-! ### A stake, the package, the block -/

/-- One stake. -/
structure Stake where
  /-- R1: the stake's number, 0 to 7. -/
  id : Nat := 0
  /-- R1: stakes in the package, which R19 needs. -/
  ringN : Nat := 8
  /-- R35: the registers of the set-up window by offset. -/
  regs : Store := []
  /-- R94, R207, R271, R310, R376: the staged registers' values in force, by the same offsets. -/
  act : Store := []
  /-- R166, R194, R253: the table memories, by offset within a bank and 0x100_0000 times the bank. -/
  tbl : Store := []
  /-- R429, R434: the words of the firmware body at the bottom of the SRAM, by byte offset; those not listed are 0. -/
  sram : Store := []
  /-- R7: low words last written, by slot offset. -/
  lowStage : List (Nat × BitVec 32) := []
  /-- R7: words latched by the last read of a low word. -/
  snap : List (Nat × BitVec 32) := []
  /-- The model's clock: ticks of this stake since the model's start, for durations. -/
  now : Nat := 0
  /-- The model's counter for free values. -/
  fresh : Nat := 0
  /-- R369: events posted and not yet at the anchor, oldest first. -/
  out : List EvRec := []
  /-- R363: completions on their way to the anchor, oldest first. -/
  done : List Completion := []
  /-- R371: items offered to the packer and not yet taken, oldest first. -/
  offers : List Offer := []
  /-- R371: the sixteen streams. -/
  str : List Strm := List.replicate 16 {}
  /-- R358: transfer boundaries so far, and TUNE descriptors taken in the present period. -/
  bounds : Nat := 0
  tuneUsed : Nat := 0
  wal : WalState := {}
  ang : AngState := {}
  sns : SnsState := {}
  pos : PosState := {}
  fe : FldState := {}
  modu : ModState := {}
  leg : LegState := {}
  prt : PrtState := {}
  pair : PairState := {}
  vote : VoteState := {}
  /-- R417, R418: the six temperature sensors. -/
  thm : List ThmSt := List.replicate 6 {}
  /-- R410: the core clock is lost and the stake has stopped. -/
  stopped : Bool := false
deriving DecidableEq, Repr

/-- An event in the on-chip queue (R370): its record, `ESEQ`, snapshot index. -/
structure QEvent where
  post : EvRec
  eseq : Nat
  snap : Nat
deriving DecidableEq, Repr

/-- The package-level state. -/
structure Pkg where
  /-- R35: the registers of the package region by BAR0 offset. -/
  regs : Store := []
  /-- R7: low words last written in the package region. -/
  lowStage : List (Nat × BitVec 32) := []
  /-- R7: words latched in the package region by the last read of a low word. -/
  snap : List (Nat × BitVec 32) := []
  /-- What host reads returned, newest last: address and value. -/
  hostReads : List (Nat × BitVec 32) := []
  /-- R370: events waiting for the admin CQ, oldest first, at most 512. -/
  evq : List QEvent := []
  /-- R370: the snapshot slots in use, oldest first, at most 256. -/
  snaps : List QEvent := []
  /-- R369: `ESEQ` of the next event, 16 bits modular. -/
  eseq : Nat := 0
  /-- R370: index of the next snapshot, 16 bits, below 0xFFFF. -/
  snapNext : Nat := 0
  /-- R370: events lost since the last entry of TYPE 2, and the `ESEQ` of the first. -/
  lost : Nat × Nat := (0, 0)
  host : HostSt := {}
  net : NetSt := {}
  nv : NvState := {}
  boot : BootSt := {}
  /-- R403, R404: what the supply of each stake is known to be; a reset does not change it. -/
  sup : List SupSt := List.replicate 8 {}
  /-- R37: reads that have been answered by a stake: tag, BAR0 address, value on its way to the anchor. -/
  reads : List (Nat × Nat × BitVec 32) := []
  /-- The model's counter for free values. -/
  fresh : Nat := 0
deriving DecidableEq, Repr

/-- The whole block, with its queue of waiting commands. -/
structure State where
  /-- The commands that wait, first in first out. -/
  pending : List Instr := []
  /-- Which part it is (00_scope.md). -/
  part : Part := .trn8
  /-- R1: eight places; a place at or above N is empty and never touched. -/
  stakes : List Stake := []
  pkg : Pkg := {}
deriving DecidableEq, Repr

/-- A stake right after reset. -/
def Stake.reset (id : Nat) : Stake := { id := id }

/-- The block right after reset, as the spec says; what it leaves open is named in the log. -/
def State.reset : State := { stakes := (List.range 8).map Stake.reset }

end Sys2Proof.Machine
end

