-- ==== Sys2Proof/Machine/Operands.lean ====
section
/-! DEFINITION. The forms of number the block computes with: per-unit Q4.44 (R11), angles (R12), speeds (R13), tick counts
compared modulo 2^48 (R44), and the modular differences the rules use. -/
namespace Sys2Proof.Machine

/-- Replaces one element of a list. -/
def updAt {α : Type} (l : List α) (i : Nat) (f : α → α) : List α := l.modify i f

/-- One per-unit, 2^44 (R11). -/
def one44 : Int := 17592186044416

/-- One electrical revolution, 2^48 (R12). -/
def rev48 : Int := 281474976710656

/-- Saturation to the 48-bit signed range (R131). -/
def sat48 (x : Int) : Int := max (-140737488355328) (min 140737488355327 x)

/-- Whether a value leaves the 48-bit signed range (R131). -/
def over48 (x : Int) : Bool := x < -140737488355328 || 140737488355327 < x

/-- Division by a positive number, rounded to nearest, ties away from zero (R131). -/
def divNear (x : Int) (d : Nat) : Int :=
  if 0 ≤ x then (2 * x + d) / (2 * d) else -((2 * -x + d) / (2 * d))

/-- The exact product of two Q4.44 numbers rounded to Q4.44; the caller saturates (R131). -/
def mul44 (a b : Int) : Int := divNear (a * b) 17592186044416

/-- A signed 48-bit word from an integer, modulo 2^48. -/
def w48 (x : Int) : Word48 := BitVec.ofInt 48 x

/-- The signed reading of an integer modulo 2^48, in [-2^47, 2^47). -/
def wrap48 (x : Int) : Int := (BitVec.ofInt 48 x).toInt

/-- R44: a is later than b, modulo 2^48. -/
def laterTick (a b : Word48) : Bool := a ≠ b && (a - b).toNat < 140737488355328

/-- R44: tick b has been reached when the present tick is a. -/
def reached (a b : Word48) : Bool := (a - b).toNat < 140737488355328

/-- R44: instant x is later than instant y. -/
def laterInstant (x y : Instant) : Bool := laterTick x.tick y.tick || (x.tick = y.tick && y.fine < x.fine)

end Sys2Proof.Machine

namespace Sys2Proof
open Machine

/-- The instant a number of fine steps after an instant (R14). -/
def Instant.plus (x : Instant) (fineSteps : Int) : Instant :=
  let f := (x.fine : Int) + fineSteps
  { tick := x.tick + w48 (f / 32), fine := (f % 32).toNat }

/-- The fine steps from instant y to instant x, signed, the ticks read modulo 2^48. -/
def Instant.minus (x y : Instant) : Int := 32 * (x.tick - y.tick).toInt + (x.fine : Int) - (y.fine : Int)

end Sys2Proof

namespace Sys2Proof.Machine

/-- Absolute value. -/
def iabs (x : Int) : Int := if x < 0 then -x else x

/-- Clamps to [lo, hi]. -/
def clampI (lo hi x : Int) : Int := max lo (min hi x)

/-- An integer as a 32-bit two's complement word. -/
def w32 (x : Int) : BitVec 32 := BitVec.ofInt 32 x

/-- The element at a place of a list, or a given value beyond its end. -/
def nth {α : Type} (d : α) (l : List α) (i : Nat) : α := l.getD i d

end Sys2Proof.Machine
end

