-- ==== Sys2Proof/Machine/Flags.lean ====
section
/-! DEFINITION. Reading and writing registers and their fields (R6 to R8), 48-bit slots (R7), sticky flags (R9) and counters
(R68, R69). -/
namespace Sys2Proof.Machine

/-- A register of a stake's window. -/
def Stake.rd (k : Stake) (off : Nat) : BitVec 32 := k.regs.get (winReset k.id) off

/-- Writes a register of a stake's window. -/
def Stake.wr (k : Stake) (off : Nat) (v : BitVec 32) : Stake := { k with regs := k.regs.set (winReset k.id) off v }

/-- A field of a register. -/
def Stake.fld (k : Stake) (f : Fld) : Nat := f.of (k.rd f.off)

/-- A one-bit field as a truth value. -/
def Stake.flag (k : Stake) (f : Fld) : Bool := k.fld f ≠ 0

/-- A field read as signed. -/
def Stake.sfld (k : Stake) (f : Fld) : Int := signOf f.w (k.fld f)

/-- Sets a field of a register. -/
def Stake.put (k : Stake) (f : Fld) (v : Nat) : Stake := k.wr f.off (f.put (k.rd f.off) v)

/-- Sets a one-bit field. -/
def Stake.putB (k : Stake) (f : Fld) (b : Bool) : Stake := k.put f (if b then 1 else 0)

/-- Sets a field to a signed value, modulo its width. -/
def Stake.putI (k : Stake) (f : Fld) (v : Int) : Stake := k.put f (v % (2 ^ f.w : Nat)).toNat

/-- The value in force of a field of a staged register (R94, R207, R271, R310, R376). -/
def Stake.inForce (k : Stake) (f : Fld) : Nat := f.of (k.act.get (winReset k.id) f.off)

/-- A one-bit field in force. -/
def Stake.inForceB (k : Stake) (f : Fld) : Bool := k.inForce f ≠ 0

/-- The word in force of a staged register. -/
def Stake.rdAct (k : Stake) (off : Nat) : BitVec 32 := k.act.get (winReset k.id) off

/-- Writes the word in force of a staged register. -/
def Stake.wrAct (k : Stake) (off : Nat) (v : BitVec 32) : Stake := { k with act := k.act.set (winReset k.id) off v }

/-- The staged values of the registers at offsets in [lo, hi) take effect. -/
def Stake.applyRange (k : Stake) (lo hi : Nat) : Stake := { k with act := Store.copyRange lo hi k.regs k.act }

/-- The 48 bits of a slot (R7). -/
def Stake.get48 (k : Stake) (off : Nat) : Word48 :=
  BitVec.ofNat 48 ((k.rd (off + 4)).toNat % 65536 * 4294967296 + (k.rd off).toNat)

/-- A signed 48-bit slot. -/
def Stake.int48 (k : Stake) (off : Nat) : Int := (k.get48 off).toInt

/-- The 48 bits of a slot among the values in force. -/
def Stake.act48 (k : Stake) (off : Nat) : Word48 :=
  BitVec.ofNat 48 ((k.rdAct (off + 4)).toNat % 65536 * 4294967296 + (k.rdAct off).toNat)

/-- Sets the 48 bits of a slot. -/
def Stake.put48 (k : Stake) (off : Nat) (v : Word48) : Stake :=
  (k.wr off (BitVec.ofNat 32 v.toNat)).wr (off + 4) (BitVec.ofNat 32 (v.toNat / 4294967296))

/-- Sets the 48 bits of a slot among the values in force. -/
def Stake.putAct48 (k : Stake) (off : Nat) (v : Word48) : Stake :=
  (k.wrAct off (BitVec.ofNat 32 v.toNat)).wrAct (off + 4) (BitVec.ofNat 32 (v.toNat / 4294967296))

/-- A saturating counter word with its count in bits w-1:0 and `SAT` in bit 31 (R68): `n` counted events later. -/
def satAdd (w : Nat) (x : BitVec 32) (n : Nat) : BitVec 32 :=
  let c := x.toNat % 2 ^ w + n
  if c < 2 ^ w - 1 then (x &&& 0x80000000) ||| BitVec.ofNat 32 c
  else BitVec.ofNat 32 (2 ^ w - 1) ||| 0x80000000

/-- Steps a saturating counter of 16 bits with the layout of `ANG_DEFER_CNT`. -/
def Stake.bump (k : Stake) (off : Nat) (n : Nat := 1) : Stake := if n = 0 then k else k.wr off (satAdd 16 (k.rd off) n)

/-- Steps a saturating counter of 31 bits with the layout of `WAL_CRC_ERR`. -/
def Stake.bump31 (k : Stake) (off : Nat) (n : Nat := 1) : Stake := if n = 0 then k else k.wr off (satAdd 31 (k.rd off) n)

/-- Steps a count held in a field that sticks at all-ones. -/
def Stake.bumpF (k : Stake) (f : Fld) : Stake := if k.fld f + 1 < 2 ^ f.w then k.put f (k.fld f + 1) else k

/-- A register of the package region. -/
def Pkg.rd (p : Pkg) (off : Nat) : BitVec 32 := p.regs.get (winReset 0) off

/-- Writes a register of the package region. -/
def Pkg.wr (p : Pkg) (off : Nat) (v : BitVec 32) : Pkg := { p with regs := p.regs.set (winReset 0) off v }

/-- A field of a package register. -/
def Pkg.fld (p : Pkg) (f : Fld) : Nat := f.of (p.rd f.off)

/-- A one-bit field of a package register. -/
def Pkg.flag (p : Pkg) (f : Fld) : Bool := p.fld f ≠ 0

/-- Sets a field of a package register. -/
def Pkg.put (p : Pkg) (f : Fld) (v : Nat) : Pkg := p.wr f.off (f.put (p.rd f.off) v)

/-- Sets a one-bit field of a package register. -/
def Pkg.putB (p : Pkg) (f : Fld) (b : Bool) : Pkg := p.put f (if b then 1 else 0)

/-- Steps a saturating counter of the package region. -/
def Pkg.bump (p : Pkg) (off : Nat) (n : Nat := 1) : Pkg := if n = 0 then p else p.wr off (satAdd 16 (p.rd off) n)

/-- The 48 bits of a slot of the package region. -/
def Pkg.get48 (p : Pkg) (off : Nat) : Word48 :=
  BitVec.ofNat 48 ((p.rd (off + 4)).toNat % 65536 * 4294967296 + (p.rd off).toNat)

/-- Sets the 48 bits of a slot of the package region. -/
def Pkg.put48 (p : Pkg) (off : Nat) (v : Word48) : Pkg :=
  (p.wr off (BitVec.ofNat 32 v.toNat)).wr (off + 4) (BitVec.ofNat 32 (v.toNat / 4294967296))

/-- Whether a word register is a counter with `SAT` in bit 31, and the width of its count (R68). -/
def counterWidth (r : RegD) : Option Nat :=
  match r.fields with
  | [⟨31, 31, .w1c, _, _, _⟩, ⟨hi, 0, .ro, _, _, _⟩] => if hi = 15 then some 16 else if hi = 30 then some 31 else none
  | _ => none

end Sys2Proof.Machine
end

