-- ==== Sys2Proof/Machine/Ops.lean ====
section
/-! DEFINITION. The named operations over the state that every family shares: reaching a stake, free values, posting an event
(R274 to R276, R369), the axis state (R287, R288). -/
namespace Sys2Proof.Machine

/-- The axis states of R287 by their codes. -/
def axOff : Nat := 0
def axArmed : Nat := 1
def axRun : Nat := 2
def axDerate : Nat := 3
def axCatch : Nat := 4
def axDischarge : Nat := 5
def axTest : Nat := 6
def axSafe : Nat := 7
def axNotReady : Nat := 15

/-- The axis state of a stake. -/
def Stake.axis (k : Stake) : Nat := k.fld Reg.PLT_AXIS_STATE_STATE

/-- Whether the axis is one of those listed. -/
def Stake.axisIn (k : Stake) (l : List Nat) : Bool := l.contains k.axis

/-- A free value of a stake, and the counter advanced. -/
def Stake.freeNat (k : Stake) : Nat × Stake := (Config.freeNat (8 * k.fresh + k.id), { k with fresh := k.fresh + 1 })

/-- A signed free value of a stake, and the counter advanced. -/
def Stake.freeInt (k : Stake) : Int × Stake := (Config.freeInt (8 * k.fresh + k.id), { k with fresh := k.fresh + 1 })

/-- A stake of the package by number; a number that names no stake reads as a stake after reset. -/
def State.stake (s : State) (n : Nat) : Stake := s.stakes.getD n (Stake.reset n)

/-- Whether the package holds stake n (R1, R16). -/
def State.present (s : State) (n : Nat) : Bool := n < s.part.stakes && n < s.stakes.length

/-- Whether stake n is present, has passed upsett and is reachable (`HIF_PKG_ALIVE`, R39). -/
def State.alive (s : State) (n : Nat) : Bool := s.present n && (s.pkg.fld Reg.HIF_PKG_ALIVE_ALIVE).testBit n

/-- Whether stake n itself runs, reached by the anchor or not (R30, R31): it has passed upsett and is not lost, on a start that did not end
with the anchor's failure (R426). -/
def State.inService (s : State) (n : Nat) : Bool :=
  s.pkg.boot.phase ≠ .dead && (s.alive n || (s.present n && s.pkg.boot.passed.testBit n && !s.pkg.boot.lost.testBit n))

/-- An effect on one stake; a stake that is not present is never touched. -/
def State.onStake (s : State) (n : Nat) (f : Stake → Stake) : State :=
  if s.present n then { s with stakes := updAt s.stakes n f } else s

/-- An effect on every present stake. -/
def State.onAll (s : State) (f : Stake → Stake) : State :=
  { s with stakes := s.stakes.mapIdx fun i k => if i < s.part.stakes then f k else k }

/-- An effect on the package. -/
def State.onPkg (s : State) (f : Pkg → Pkg) : State := { s with pkg := f s.pkg }

/-- The field of `PLT_ACTIVE` that counts a class. -/
def activeField (cls : Nat) : Fld :=
  match cls with
  | 1 => Reg.PLT_ACTIVE_F1
  | 2 => Reg.PLT_ACTIVE_F2
  | 3 => Reg.PLT_ACTIVE_F3
  | _ => Reg.PLT_ACTIVE_F4

/-- Whether an event is in the active fault set. -/
def Stake.hasFault (k : Stake) (e : Ev) : Bool := k.prt.active.any fun a => a.post.ev = e

/-- Whether a fault of a class is active. -/
def Stake.hasClass (k : Stake) (cls : Nat) : Bool := k.prt.active.any fun a => a.cls = cls

/-- Writes the counts of `PLT_ACTIVE` and the flags of `PLT_AXIS_STATE` that the active set decides (R275, R277): the F1
factor, and link 5 while an F2 fault is active or a STOP is pending (R288). -/
def Stake.syncActive (k : Stake) : Stake :=
  let n := fun c => min 255 (k.prt.active.filter fun a => a.cls = c).length
  let k := [1, 2, 3, 4].foldl (fun q c => q.put (activeField c) (n c)) k
  ((k.putB Reg.PLT_AXIS_STATE_DERATE_F1 (k.hasClass 1)).putB Reg.PLT_AXIS_STATE_CHOP_FAULT (k.hasFault .chopperFault)).putB Reg.PLT_AXIS_STATE_F2_RAMP
    (k.hasClass 2 || k.flag Reg.PLT_AXIS_STATE_STOP_PENDING)

/-- An event record of a stake, put at the end of those that leave for the anchor (R369). -/
def Stake.emit (k : Stake) (e : Ev) (cls : Nat) (vals : List Nat) (eflags : Nat) : Stake :=
  { k with out := k.out ++ [{ ev := e, cls := cls, stake := k.id, tick := k.ang.tick, vals := vals, eflags := eflags }] }

/-- Changes the field engine's state. -/
def Stake.onFe (k : Stake) (f : FldState → FldState) : Stake := { k with fe := f k.fe }

/-- R138: the states in which losses are not counted: OFF, ARMED, SAFE, and NOT_READY before them. -/
def axIdle (a : Nat) : Bool := a = axOff || a = axArmed || a = axSafe || a = axNotReady

/-- Moves the axis to a state and sub-state; a change of state posts `AXIS_STATE` (R288, R312). A STOP is pending only in RUN and DERATE
(R288); the freshness stages are those of RUN, DERATE and CATCH (R301), stage 2 where they are entered with fallback in force (R302,
log 191). -/
def Stake.setAxis (k : Stake) (st sub : Nat) : Stake :=
  let k' := (k.put Reg.PLT_AXIS_STATE_STATE st).put Reg.PLT_AXIS_STATE_SUB sub
  let k' := if st = axRun || st = axDerate then k' else (k'.putB Reg.PLT_AXIS_STATE_STOP_PENDING false).syncActive
  let k' := if st = axRun || st = axDerate || st = axCatch then
      (if k.flag Reg.PLT_AXIS_STATE_FALLBACK && k.fld Reg.PLT_AXIS_STATE_FRESH = 0 then k'.put Reg.PLT_AXIS_STATE_FRESH 2 else k')
    else k'.put Reg.PLT_AXIS_STATE_FRESH 0
  let k' := if axIdle k.axis && !axIdle st then k'.onFe fun x => { x with history := false, predRun := 0, udcRun := 0 } else k'
  if k.axis = st then k' else k'.emit .axisState 0 [st, sub] 0

/-- Whether something of R288 holds the axis in DERATE: an active F1 or F2 fault, a thermal limit, or the half-unit limit. -/
def Stake.derateCause (k : Stake) : Bool :=
  k.hasClass 1 || k.hasClass 2 || k.fld Reg.THM_STATUS_ENFORCED ≠ 0 ||
    (k.pair.therm.isSome && k.fld Reg.FLD_PAIR_STATUS_STATE = 2) || k.fld Reg.FLD_PAIR_STATUS_STATE = 4

/-- RUN to DERATE and back, as the causes of R288 come and go; a paired follower's axis only mirrors the leader's (R211). -/
def Stake.updDerate (k : Stake) : Stake :=
  if k.fld Reg.FLD_PAIR_STATUS_STATE = 2 && k.id % 2 = 1 then k
  else if k.axis = axRun && k.derateCause then k.setAxis axDerate 0
  else if k.axis = axDerate && !k.derateCause then k.setAxis axRun 0
  else k

/-- The events that each channel, port, clock, sensor or clock output posts for itself: the first snapshot value names the source. -/
def Ev.perSource (e : Ev) : Bool :=
  match e with
  | .angExtrapLimit | .snsFastTrip | .snsStuck | .legCfgMismatch | .legLinkLoss | .legDesat | .legSupplyUv | .legBootFault | .legHeadOt
  | .legGateMismatch | .legWlLost | .legLaneLow | .legSelftest | .legSeqReject | .legIlTimeout | .thmShutdown | .clkMclkFault => true
  | _ => false

/-- DEDUCED (log 31): two postings are of one fault: the same event, of the same source where each source posts its own. -/
def EvRec.sameFault (a r : EvRec) : Bool := a.ev = r.ev && (!r.ev.perSource || a.vals.head? = r.vals.head?)

/-- R275: a fault enters the active set, or replaces its snapshot there. It acts in the highest class it was posted in (log 31). -/
def enterActive (l : List ActiveFault) (r : EvRec) (pkg : Bool) : List ActiveFault :=
  if l.any fun a => a.post.sameFault r then l.map fun a => if a.post.sameFault r then ⟨r, pkg, max a.cls r.cls⟩ else a
  else l ++ [⟨r, pkg, r.cls⟩]

/-- The part of a posting that acts on an axis: the active set, its counts, DERATE (R275 to R277), and for F3 the request the
plait is to make (R282). `fixed` is the state the cause names (R285 item 6), 0 for none. -/
def Stake.react (k : Stake) (r : EvRec) (pkg : Bool) (fixed : Nat) : Stake :=
  if r.cls = 0 then k
  else
    let k := ({ k with prt := { k.prt with active := enterActive k.prt.active r pkg } }).syncActive.updDerate
    if r.cls = 3 then { k with prt := { k.prt with f3 := k.prt.f3 ++ [⟨r.ev, fixed, k.now, 2 ≤ k.fld Reg.PLT_VOTE_STATUS_MODE⟩] } } else k

/-- Posts an event of a stake with its class and snapshot values (R274, R275, R369). -/
def Stake.postF (k : Stake) (e : Ev) (cls : Nat) (vals : List Nat) (fixed : Nat) : Stake :=
  let r : EvRec := { ev := e, cls := cls, stake := k.id, tick := k.ang.tick, vals := vals, eflags := 0 }
  let again := k.prt.active.any fun a => a.post.sameFault r
  let fl := (if cls = 0 then 0 else if again then 2 else 1) + (if e = .hostStale then 4 else 0)
  (k.emit e cls vals fl).react { r with eflags := fl } false fixed

/-- Posts an event of a stake; an F3 reaction follows the speed rule. -/
def Stake.post (k : Stake) (e : Ev) (cls : Nat) (vals : List Nat := []) : Stake := k.postF e cls vals 0

/-- The trip signals of R279 are kept in order until the sequencer takes them. -/
def Stake.trip (k : Stake) (cause : Nat) (port : Option Nat := none) : Stake :=
  { k with prt := { k.prt with trips := k.prt.trips ++ [⟨cause, port, k.now⟩] } }

/-- A leg port fitted to the stake (R246): `LEG_PORTp_CFG.PRESENT` in force. -/
def Stake.portPresent (k : Stake) (p : Nat) : Bool := k.inForceB (Reg.LEG_PORT_CFG_PRESENT p)

/-- The present phase ports U, V and W (R2). -/
def Stake.phasePorts (k : Stake) : List Nat := [0, 1, 2].filter k.portPresent

/-- Keeps a value within a list: appends unless already there. -/
def addNew (l : List Nat) (x : Nat) : List Nat := if l.contains x then l else l ++ [x]

/-- Changes the wale direction of a stake. -/
def Stake.onDir (k : Stake) (d : Dir) (f : WalDir → WalDir) : Stake :=
  match d with
  | .asc => { k with wal := { k.wal with asc := f k.wal.asc } }
  | .dsc => { k with wal := { k.wal with dsc := f k.wal.dsc } }

/-- The wale direction of a stake. -/
def Stake.dir (k : Stake) (d : Dir) : WalDir :=
  match d with
  | .asc => k.wal.asc
  | .dsc => k.wal.dsc

/-- Whether a link direction is up. -/
def Stake.dirUp (k : Stake) (d : Dir) : Bool :=
  match d with
  | .asc => k.flag Reg.WAL_STATUS_ASC_UP
  | .dsc => k.flag Reg.WAL_STATUS_DSC_UP

/-- The other port. -/
def opp (d : Dir) : Dir := match d with | .asc => .dsc | .dsc => .asc

/-- The neighbour a port faces. -/
def State.nbr (s : State) (n : Nat) (d : Dir) : Nat :=
  let l := s.part.stakes
  match d with | .asc => (n + 1) % l | .dsc => (n + l - 1) % l

/-- The links from stake a on, in one direction, are up for a number of hops. -/
def State.pathUp (s : State) (d : Dir) : Nat → Nat → Bool
  | _, 0 => true
  | a, h + 1 => (s.stake a).dirUp d && (s.stake (s.nbr a d)).dirUp (opp d) && State.pathUp s d (s.nbr a d) h

/-- R40: stake a reaches a stake b over the links of the ring, either way. -/
def State.linked (s : State) (a b : Nat) : Bool :=
  let l := s.part.stakes
  s.pathUp .asc a ((b + l - a) % l) || s.pathUp .dsc a ((a + l - b) % l)

/-- R31: stake a reaches stake b over the wale, either way: b is in service. -/
def State.reaches (s : State) (a b : Nat) : Bool := a = b || (s.inService b && s.linked a b)

/-- R19: whether a way from this stake to stake `b` of `n` holds no link that is down. -/
def Stake.wayClear (k : Stake) (d : Dir) (n b : Nat) : Bool :=
  k.dirUp d && match d with
    | .asc => (List.range ((b + n - k.id) % n)).all fun i => !k.wal.down.contains ((k.id + i) % n)
    | .dsc => (List.range ((k.id + n - b) % n)).all fun i => !k.wal.down.contains ((k.id + 2 * n - 1 - i) % n)

/-- R19: the way a cell takes from this stake to stake `b` of `n`: the shorter, the ascending on a tie; the other if that one contains
a link that is down. -/
def Stake.way (k : Stake) (n b : Nat) : Dir :=
  let up := (b + n - k.id) % n
  let d : Dir := if 2 * up ≤ n then .asc else .dsc
  if k.wayClear d n b then d else opp d

/-- `FAILED` and `SPARES_LEFT` of a lane map. -/
def laneFailed (r : Nat) : Fld := ⟨r, 0, 18⟩
def laneSpares (r : Nat) : Fld := ⟨r, 28, 2⟩

/-- R20: the healthy lanes of a map; the sixteen lowest carry data, the rest are spares. -/
def healthy (failed : Nat) : List Nat := (List.range 18).filter fun i => !failed.testBit i

/-- R27: the cells a direction's queues hold. -/
def WalDir.queued (w : WalDir) : Nat := (w.queues.map List.length).foldl (· + ·) 0

/-- R27: a cell is put at the end of its class queue; a STREAM cell that finds the 256 places taken waits at its FIFO. -/
def WalDir.put (w : WalDir) (c : Cell) : WalDir :=
  if c.cls = 2 && (256 ≤ w.queued || !w.held.isEmpty) then { w with held := w.held ++ [c] }
  else { w with queues := updAt w.queues c.cls fun q => q ++ [c] }

/-- R27: STREAM cells that waited go into their queue as far as there is room. -/
def WalDir.refill (w : WalDir) : WalDir :=
  if w.held.isEmpty then w
  else
    let n := 256 - w.queued
    { w with queues := updAt w.queues 2 fun q => q ++ w.held.take n, held := w.held.drop n }

/-- A cell takes the direction R19 gives (R23, R27). -/
def Stake.sendCell (k : Stake) (c : Cell) : Stake := k.onDir (k.way k.ringN c.dest) fun w => w.put c

/-- A cell of this stake, stamped with the low bits of its tick counter (R21). -/
def Stake.cell (k : Stake) (dest cls kind tag : Nat) (payload : List Nat) : Cell :=
  { dest := dest, src := k.id, cls := cls, kind := kind, tag := tag, tickLo := k.ang.tick.toNat % 16777216, payload := payload }

/-- R196: cell of a fine step. -/
def cellOf (fine nc : Nat) : Nat := (2 * fine * nc + 32) / 64

/-- R196: the map of fine steps to cells that the last measurement gives: its N_c, or 0 under a fault, which puts every edge at fine
step 0. -/
def Stake.cellsNow (k : Stake) : Nat := if k.flag Reg.MOD_DL_STATUS_FAULT then 0 else k.fld Reg.MOD_DL_STATUS_N_C

end Sys2Proof.Machine
end

