-- ==== Sys2Proof/Machine/AngOps.lean ====
section
/-! DEFINITION. Shared operations of the angle clocks and the scheduler (R45 to R67). -/
namespace Sys2Proof.Machine

/-- An angle clock of the stake: 0 main, 1 auxiliary. -/
def Stake.clock (k : Stake) (c : Nat) : Clock := nth {} k.ang.clk c

/-- Changes an angle clock. -/
def Stake.onClock (k : Stake) (c : Nat) (f : Clock → Clock) : Stake :=
  { k with ang := { k.ang with clk := updAt k.ang.clk c f } }

/-- Changes the scheduler's state. -/
def Stake.onAng (k : Stake) (f : AngState → AngState) : Stake := { k with ang := f k.ang }

/-- R317: work of the plait waits for the end of a resynchronisation. -/
def Stake.hold (k : Stake) (t : PlaitTask) : Stake := { k with vote := { k.vote with tasks := k.vote.tasks ++ [t] } }

/-- R67, R313, R317: an interrupt of PLAIT_IRQ reaches the plait, or is held by a resynchronisation. -/
def Stake.plaitIrq (k : Stake) (v : Nat) : Stake :=
  if k.vote.resync then k.hold (.irq v) else k.onAng fun a => { a with irqs := a.irqs ++ [v] }

/-- R106, R120, R317: the same of a source's direction-change interrupt. -/
def Stake.directionIrq (k : Stake) (s : Nat) : Stake :=
  if k.vote.resync then k.hold (.direction s) else k.onAng fun a => { a with dirIrqs := a.dirIrqs ++ [s] }

/-- An entry of the scheduler. -/
def Stake.entry (k : Stake) (e : Nat) : Entry := nth {} k.ang.ent e

/-- Changes an entry. -/
def Stake.onEntry (k : Stake) (e : Nat) (f : Entry → Entry) : Stake :=
  k.onAng fun a => { a with ent := updAt a.ent e f }

/-- Fields of an entry's control word (R54, R67, R72). -/
def Entry.en (e : Entry) : Bool := e.ctrl.getLsbD 31
def Entry.oneshot (e : Entry) : Bool := e.ctrl.getLsbD 29
def Entry.src (e : Entry) : Nat := (Fld.mk 0 28 1).of e.ctrl
def Entry.dir (e : Entry) : Nat := (Fld.mk 0 26 2).of e.ctrl
def Entry.trig (e : Entry) : Nat := (Fld.mk 0 23 3).of e.ctrl
def Entry.fine (e : Entry) : Nat := (Fld.mk 0 16 5).of e.ctrl
def Entry.action (e : Entry) : Nat := (Fld.mk 0 12 4).of e.ctrl
def Entry.arg (e : Entry) : Nat := (Fld.mk 0 0 8).of e.ctrl

/-- `EN` of an entry, in the control word in force and in the register that reads it back. -/
def Stake.entEn (k : Stake) (e : Nat) (b : Bool) : Stake :=
  (k.onEntry e fun x => { x with ctrl := (Reg.ANG_ENT_CTRL_EN e).put x.ctrl (if b then 1 else 0) }).putB
    (Reg.ANG_ENT_CTRL_EN e) b

/-- The look-ahead angle θL = θ + 4ω (R53). -/
def Clock.look (c : Clock) : Word48 := c.theta + w48 (4 * c.omega)

/-- The look-ahead step s of this tick, signed. -/
def Clock.stepL (c : Clock) : Int := (c.look - c.prevL).toInt

/-- R49: the slew increment of one tick: the error shifted right, and in the last tick the remainder too. -/
def slewInc (e : Int) (log left : Nat) : Int :=
  let q := e / (2 ^ log : Nat)
  if left = 1 then q + (e - q * (2 ^ log : Nat)) else q

/-- R45: a speed is signed 48 bits; the spec states no value for an estimate beyond them. -/
def speed48 (x : Int) : Int := if wrap48 x = x then x else wrap48 (Config.speedOver x)

/-- R45: θ advances by ω and the slew step. A rewrite of `SLEW_LOG2` while a slew runs takes each further step with the new length and
leaves the count of ticks as it was; the spec does not say which length holds (DESIGN CHOICE, log 109). -/
def Clock.advance (log : Nat) (c : Clock) : Clock :=
  let x := if c.slewLeft = 0 then 0 else slewInc c.slewE log c.slewLeft
  { c with theta := c.theta + w48 (c.omega + x), slewLeft := c.slewLeft - 1 }

/-- One tick of an angle clock (R45, R48, R52, step 2 of R62). While the clock is INVALID its values are frozen. -/
def Clock.tick (log : Nat) (c : Clock) : Clock :=
  let c := { c with prevL := c.look, toggledPrev := c.toggled, toggled := false, stepNow := false }
  match c.next with
  | none => if c.valid then c.advance log else c
  | some x =>
    let c := { c with omega := x.omega, toggled := x.rev != c.rev, rev := x.rev, next := none, slewE := 0, slewLeft := 0 }
    match x.load with
    | some m => let c := { c with theta := m, valid := true }; { c with prevL := c.look }
    | none =>
      match x.step, x.slew with
      | some e, _ => { c with theta := c.theta + w48 (c.omega + e), stepNow := true }
      | none, some e => ({ c with slewE := e, slewLeft := 2 ^ log }).advance log
      | none, none => c.advance log

/-- R46: source of a clock. -/
def Stake.clkSrc (k : Stake) (c : Nat) : Nat := k.fld (Reg.ANG_CLK_CTRL_SRC c)

/-- A source hands a measurement to the enabled clocks that take it (R46, R47). -/
def Stake.deliver (k : Stake) (src : Nat) (m : Meas) : Stake :=
  let m := { m with speed := speed48 m.speed }
  [0, 1].foldl (fun q c =>
    if q.clkSrc c = src && q.flag (Reg.ANG_CLK_CTRL_EN c) then q.onClock c fun x => { x with mail := x.mail ++ [m] } else q) k

/-- A source reports its position not valid: its clocks go INVALID (R51). -/
def Stake.srcLost (k : Stake) (src : Nat) : Stake :=
  [0, 1].foldl (fun q c =>
    if q.clkSrc c = src then q.onClock c fun x => { x with valid := false, mail := [], next := none } else q) k

/-- A scheduled source (R46). -/
def scheduledSrc (s : Nat) : Bool := s = 0 || s = 3 || s = 4 || s = 5

/-- R72: a commit whose fields lie in their ranges (R54, R67). -/
def commitInRange (w : Reg32) (ivl : Nat) : Bool :=
  let e : Entry := { ctrl := w }
  e.dir ≤ 2 && e.trig ≤ 3 && e.action ≤ 8 && (e.trig ≠ 2 || 8 ≤ ivl) &&
  (match e.action with
   | 0 | 2 => e.arg = 0
   | 1 | 3 | 5 | 6 => e.arg ≤ 15
   | 4 => e.arg ≤ 7
   | _ => e.arg ≤ 126)

/-- A write waits for the next tick (R62 step 1, R66). -/
def Stake.pendEntry (k : Stake) (p : PendEntry) : Stake := k.onAng fun a => { a with pend := a.pend ++ [p] }

/-- A pending write takes effect (R62 step 1, R67). -/
def Stake.applyPend (k : Stake) (p : PendEntry) : Stake :=
  match p with
  | .commit e tgt ivl ctrl =>
    (k.onEntry e fun _ => { tgt := tgt, ivl := ivl, ctrl := ctrl, since := k.ang.tick, next := tgt }).putB
      (Reg.ANG_ENT_CTRL_EN e) (ctrl.getLsbD 31)
  | .arm e =>
    let was := (k.entry e).en
    ((k.entEn e true).onEntry e fun x =>
      { x with spent := false, since := if was then x.since else k.ang.tick, begun := was && x.begun })
  | .disarm e => k.entEn e false

/-- A firing is dispatched, or carried to the next tick for want of a slot (R63). -/
def Stake.dispatch (k : Stake) (a : Act) : Stake :=
  if k.ang.dispatched + k.ang.carriedPrev.length < 8 then
    k.onAng fun g => { g with dispatched := g.dispatched + 1, acts := g.acts ++ [a] }
  else
    (k.onAng fun g => { g with carried := g.carried ++ [({ a with at_ := ⟨a.at_.tick + 1, a.at_.fine⟩ }, false)] }).bump
      Reg.ANG_DEFER_CNT

/-- An entry falls due with an effect instant (R54, R59, R63): it is spent, a one-shot or TICK entry clears its `EN`, and the
firing is dispatched. -/
def Stake.fire (k : Stake) (e : Nat) (at_ : Instant) (rev : Bool) : Stake :=
  let x := k.entry e
  let k := k.onEntry e fun y => { y with spent := true, sigmaRev := rev }
  let k := if x.oneshot || x.trig = 1 then k.entEn e false else k
  (k.onAng fun g => { g with firedNow := g.firedNow ++ [e] }).dispatch
    { entry := e, action := x.action, arg := x.arg, at_ := at_, src := x.src }

/-- The scheduler and the entry are enabled, and the entry has the trigger. -/
def Stake.entryLive (k : Stake) (e trig : Nat) : Bool :=
  k.flag Reg.ANG_SCHED_CTRL_EN && e < 127 && (k.entry e).en && (k.entry e).trig = trig

/-- R57: the qualifying crossing of an entry's angle in this tick: its distance u and its sense. -/
def crossing (c : Clock) (a : Word48) (dir : Nat) : Option (Nat × Bool) :=
  let s := c.stepL
  let uf := (a - c.prevL).toNat
  let ur := (c.prevL - a).toNat
  if 0 < s && 1 ≤ uf && (uf : Int) ≤ s && !c.rev && (dir = 0 || dir = 2) then some (uf, false)
  else if s < 0 && 1 ≤ ur && (ur : Int) ≤ -s && c.rev && (dir = 1 || dir = 2) then some (ur, true)
  else none

/-- R58: the effect instant of a crossing at distance u of a step s in tick t. -/
def crossInstant (t : Word48) (stepNow : Bool) (u : Nat) (s : Int) : Instant :=
  let f := 32 * u / s.natAbs
  if stepNow || f = 32 then ⟨t + 4, 0⟩ else ⟨t + 3, f⟩

/-- R55: in tick t a firing of an entry at a tick is late: less than 8 ticks after the entry took effect, which only a first firing can
be, or passed (R44). An instant whose dispatch tick has gone by but which is not late is waited for, and is late at the instant itself
(DESIGN CHOICE, log 174). -/
def lateFiring (t : Word48) (x : Entry) (target : Word48) : Bool :=
  (!x.begun && (target - x.since).toInt < 8) || !laterTick target t

/-- R55: the first T + j·IVL that is not late. -/
def nextNotLate (t : Word48) (x : Entry) (target : Word48) (ivl : Nat) : Word48 :=
  let lim := if x.begun || 0 ≤ (t + 1 - (x.since + 8)).toInt then t + 1 else x.since + 8
  let d := (lim - target).toInt
  if d ≤ 0 then target else target + w48 ((d + ivl - 1) / ivl * ivl)

/-- A late firing (R55): counted, posted, dispatched with effect four ticks on. -/
def Stake.fireLate (k : Stake) (e : Nat) : Stake :=
  ((k.bump Reg.ANG_LATE_CNT).post .angTargetPast 0 [e]).fire e ⟨k.ang.tick + 4, (k.entry e).fine⟩ false

/-- Takes the oldest dispatched action of an entry with a code out of the list, once its instant is reached; ARM and DISARM
do not wait for it (R67). -/
def Stake.takeAct (k : Stake) (e code : Nat) : Option (Act × Stake) :=
  let ok : Act → Bool := fun a => a.entry = e && a.action = code && (code = 7 || code = 8 || reached k.ang.tick a.at_.tick)
  match k.ang.acts.find? ok with
  | none => none
  | some a => some (a, k.onAng fun g => { g with acts := g.acts.erase a })

/-- R49: the step of a clock that is applied in this tick is counted, judged against the flag it brings, and, above `JUMP_LIMIT`, posted. -/
def Stake.stepApplied (k : Stake) (c : Nat) (e : Int) (rev : Bool) : Stake :=
  let k := k.bump (Reg.ANG_CLK_STEP_CNT c)
  let k := if (e < 0 && !rev) || (0 < e && rev) then k.putB (Reg.ANG_CLK_STATUS_BACK_STEP c) true else k
  if k.fld (Reg.ANG_CLK_LIMITS_JUMP_LIMIT c) * 4294967296 < e.natAbs then
    (k.putB (Reg.ANG_CLK_STATUS_JUMP c) true).post .angJump (k.fld (Reg.ANG_CLK_CTRL_JUMP_CLASS c)) [c, (w48 e).toNat]
  else k

/-- One tick of a clock of the stake, with what it shows of a step (R45, R48, R49). -/
def Stake.tickClock (k : Stake) (c : Nat) : Stake :=
  let x := (k.clock c).next
  let k := k.onClock c (Clock.tick (k.fld (Reg.ANG_CLK_CTRL_SLEW_LOG2 c)))
  match x with
  | some { load := none, step := some e, rev := rev, .. } => k.stepApplied c e rev
  | _ => k

/-- One tick of the ticks, clocks and scheduler (R41, R62 steps 1 and 2). -/
def Stake.tickAng (k : Stake) : Stake :=
  let w : Bool := k.ang.tick == BitVec.allOnes 48
  let k := k.onAng fun a =>
    { a with
      tick := a.tick + 1
      wrapPend := a.wrapPend || w
      dispatched := 0
      firedNow := []
      carriedPrev := a.carriedPrev ++ a.carried
      carried := [] }
  let p := k.ang.pend
  let k := p.foldl Stake.applyPend (k.onAng fun a => { a with pend := [] })
  [0, 1].foldl Stake.tickClock k

end Sys2Proof.Machine
end

