-- ==== Sys2Proof/Machine/WriteOps.lean ====
section
/-! DEFINITION. Events of the package and the event queue of the anchor (R369, R370), and the checks every register write passes:
presence (R16), the set-up lock (R377 and each block's lock rule), the range (R15). -/
namespace Sys2Proof.Machine

/-- R370: the slot of a fault in an active set is kept; the oldest other slot is the one reused. -/
def State.snapHeld (s : State) (q : QEvent) : Bool := s.stakes.any fun k => k.prt.active.any fun a => a.post = q.post

/-- Removes the first element that satisfies a test. -/
def dropFirst {α : Type} (f : α → Bool) : List α → List α
  | [] => []
  | a :: t => if f a then t else a :: dropFirst f t

/-- R370: a snapshot slot for an event: its index, or 0xFFFF where every slot is held. -/
def State.takeSnap (s : State) (r : EvRec) (eseq : Nat) : Nat × State :=
  let q : QEvent := ⟨r, eseq, s.pkg.snapNext⟩
  let nx := (s.pkg.snapNext + 1) % 65535
  if s.pkg.snaps.length < 256 then
    (q.snap, s.onPkg fun p => { p with snaps := p.snaps ++ [q], snapNext := nx })
  else
    let l := dropFirst (fun x => !s.snapHeld x) s.pkg.snaps
    if l.length < 256 then (q.snap, s.onPkg fun p => { p with snaps := l ++ [q], snapNext := nx }) else (65535, s)

/-- R370: an event is lost. -/
def State.loseEvent (s : State) (eseq : Nat) : State :=
  s.onPkg fun p => { (p.bump Reg.HIF_EVT_LOST_CNT) with
    lost := if p.lost.1 = 0 then (1, eseq) else (min 65535 (p.lost.1 + 1), p.lost.2) }

/-- R370: an event reaches the anchor's queue of 512. Every event takes an `ESEQ`. A full queue loses a new F0 event; a new event
of another class displaces the oldest queued F0 event, and is lost only if none remains. -/
def State.enqueue (s : State) (r : EvRec) : State :=
  let e := s.pkg.eseq
  let s := s.onPkg fun p => { p with eseq := (e + 1) % 65536 }
  let put := fun (s : State) =>
    let (i, s) := s.takeSnap r e
    s.onPkg fun p => { p with evq := p.evq ++ [⟨r, e, i⟩] }
  if s.pkg.evq.length < 512 then put s
  else if r.cls = 0 then s.loseEvent e
  else match s.pkg.evq.find? (fun q => q.post.cls = 0) with
    | none => s.loseEvent e
    | some q => put ((s.onPkg fun p => { p with evq := dropFirst (fun x => x.post.cls = 0) p.evq }).loseEvent q.eseq)

/-- Posts an event for the package (R276, R369): `STAKE` is 0xFF, the tick is stake 0's; classes F1 to F4 act on every present
axis. -/
def State.postPkg (s : State) (e : Ev) (cls : Nat) (vals : List Nat := []) : State :=
  let r : EvRec := { ev := e, cls := cls, stake := 255, tick := (s.stake 0).ang.tick, vals := vals, eflags := if cls = 0 then 0 else 1 }
  (s.onAll fun k => k.react r true 0).enqueue r

/-- R37: the stake a set-up access by BAR0 address goes to: that of the window, stake 1 for the CAN window, else the anchor. -/
def targetOf (addr : Nat) : Nat :=
  if addr < 0x800000 then addr / 0x100000 else if 0x810000 ≤ addr && addr < 0x820000 then 1 else 0

/-- R22, R37: an access of the host to a stake other than 0 leaves the anchor as a TUNE cell, `KIND` 0 a read, 1 a write. -/
def State.crossed (s : State) (src : Src) (n kind tag : Nat) (ws : List Nat) : State :=
  if src = .host && n ≠ 0 && s.alive n then s.onStake 0 fun k => k.sendCell (k.cell n 1 kind tag ws) else s

/-- The same by BAR0 address. -/
def State.crossedAt (s : State) (src : Src) (addr kind : Nat) (ws : List Nat) : State :=
  s.crossed src (targetOf addr) kind 0 (addr % 0x1000000 :: ws)

/-- An access the host may not make is counted and posts `HIF_BAD_ACCESS` (R6, R36, R38). -/
def State.badAccess (s : State) (addr : Nat) : State :=
  (s.onPkg fun p => p.bump Reg.HIF_BAD_ACCESS_CNT).postPkg .hifBadAccess 0 [addr]

/-- A host read has been answered. -/
def State.answer (s : State) (addr : Nat) (v : BitVec 32) : State :=
  s.onPkg fun p => { p with hostReads := p.hostReads ++ [(addr, v)] }

/-- Whether the set-up lock is set (R377). -/
def State.locked (s : State) : Bool := s.pkg.flag Reg.HIF_SETUP_LOCK_LOCK

/-- An offset lies in an array of words: base, elements, stride. -/
def inArr (off base count stride : Nat) : Bool := base ≤ off && (off - base) % stride = 0 && (off - base) / stride < count

/-- What the stake manager and TUNE descriptors may still write under the lock: R71 entries; R95 corrections and thresholds (DESIGN
CHOICE: `FAST_OFS` is neither and stays closed); R99;
R168; R208; R229; R253, R272; R311; R376; R421 in a stake's window; R394, R401 in the package region. -/
def tuneOpen (off : Nat) : Bool :=
  (0x30400 ≤ off && off < 0x313E0) ||
  inArr off 0x10108 16 64 || inArr off 0x1010C 16 64 || inArr off 0x10110 16 64 || inArr off 0x10114 16 64 ||
  inArr off 0x10118 16 64 || inArr off 0x1011C 16 64 || off = Reg.SNS_PLAUS_THR || off = Reg.SNS_UDC_THR ||
  off = Reg.POS_CTRL || off = Reg.POS_ENC_ALIGN || inArr off 0x20120 8 4 ||
  (0x40100 ≤ off && off < 0x40250) || off = Reg.FLD_CTRL || off = Reg.FLD_TBL_CTRL || off = Reg.FLD_MAG_TEMP ||
  (0x40300 ≤ off && off < 0x40328) || (0xA0000 ≤ off && off < 0xC0400) ||
  off = Reg.MOD_SET_CTRL || (0x50208 ≤ off && off < 0x50280) || off = Reg.MOD_CUT_CLR || off = Reg.MOD_PAT_CTRL ||
  off = Reg.FLD_PAIR_CTRL || off = Reg.FLD_PAIR_LIMITS ||
  (0x60100 ≤ off && off < 0x60300 && (let o := (off - 0x60100) % 0x80; (8 ≤ o && o < 0x28) || o = 0x2C)) ||
  off = Reg.PLT_F1_FACTOR ||
  inArr off 0x90100 16 32 || inArr off 0x9010C 16 32 ||
  inArr off 0x210 6 32 || inArr off 0x214 6 32 || inArr off 0x218 6 32 ||
  (0x810400 ≤ off && off < 0x811600 && (let o := (off - 0x810400) % 96; o = 8 || o = 0x10 || 0x20 ≤ o)) ||
  (0x814400 ≤ off && off < 0x815600 && (let o := (off - 0x814400) % 96; o = 8 || o = 0x10 || 0x20 ≤ o)) ||
  inArr off 0x810208 4 96 || inArr off 0x814208 4 96 || off = Reg.CAN_HP_PENDING || off = Reg.ETH_EPOCH_OFFSET

/-- What a lock rule covers for the host: in a stake's window every block but WAL, of which only `WAL_CTRL` and `WAL_BUDGET` lock
(R40, R71, R95, R99, R168, R208, R229, R272, R311, R337, R376, R421); in the package region the CAN, ETH and SEC windows (R394, R401,
R443) and the HIF registers marked as locked. -/
def lockCovers (off : Nat) : Bool :=
  off < 0x80000 || off = Reg.WAL_CTRL || off = Reg.WAL_BUDGET || (0x90000 ≤ off && off < 0xC0400) ||
  (0x810000 ≤ off && off < 0x840000) || (0x800010 ≤ off && off ≤ 0x800020) || off = Reg.HIF_BUDGET || off = Reg.HIF_TUNE_CFG

/-- What the host may still write under the lock besides W1C bits: R253 and R272 in the leg block, the stream FLUSH (R376),
`SEC_RESET` and the unlock (R443), and what no lock rule covers (R377). -/
def hostOpen (off : Nat) : Bool :=
  (0x60100 ≤ off && off < 0x60300 && (let o := (off - 0x60100) % 0x80; (8 ≤ o && o < 0x28) || o = 0x2C)) ||
  (0xC0000 ≤ off && off < 0xC0400) || inArr off 0x9010C 16 32 ||
  off = Reg.SEC_RESET || off = Reg.SEC_UNLOCK_CTRL || inArr off 0x830800 320 4 || !lockCovers off

/-- The blocks whose lock rule says what the stake manager may still write (R71, R95, R99, R168, R208, R229, R272, R311, R421); every
other lock rule discards writes of the host alone. -/
def lockNamesManager (off : Nat) : Bool := off < 0x70000 || (0x70800 ≤ off && off < 0x80000) || (0xA0000 ≤ off && off < 0xC0400)

/-- Whether the lock closes a register to a writer; the offset is that of the window, or the BAR0 offset of the package region. A TUNE
descriptor reaches only what the lock rules leave open to it (R356). -/
def closedTo (src : Src) (off : Nat) : Bool :=
  match src with
  | .host => !hostOpen off
  | .manager => lockNamesManager off && !tuneOpen off
  | .tune => !tuneOpen off

/-- R377: a host write discarded by a lock rule counts; the first since the counter was last zero posts `HIF_LOCKED_WRITE`. -/
def State.lockDrop (s : State) (addr : Nat) : State :=
  let first := s.pkg.fld Reg.HIF_LOCK_DROP_CNT_COUNT = 0
  let s := s.onPkg fun p => p.bump Reg.HIF_LOCK_DROP_CNT
  if first then s.postPkg .hifLockedWrite 0 [addr] else s

/-- BAR0 address of a word of a stake's window. -/
def bar0 (n off : Nat) : Nat := n * 0x100000 + off

/-- R15: a set-up write out of range is discarded and posts `HIF_RANGE` with the offset and the value. -/
def State.rangeDrop (s : State) (addr : Nat) (w : Reg32) : State := s.postPkg .hifRange 0 [addr, w.toNat]

/-- The same of a 48-bit slot: its offset, and the value that its two words make. -/
def State.slotDrop (s : State) (addr : Nat) (v : Word48) : State := s.postPkg .hifRange 0 [addr, v.toNat]

/-- W1C bits written with 1 clear (R8); clearing a counter's `SAT` clears its count with it (R68), and `WRAP_SAT` the wrap count of
`ANG_TICK_STATUS`. -/
def RegD.clear (r : RegD) (old w : BitVec 32) : BitVec 32 :=
  if (counterWidth r).isSome && w.getLsbD 31 then 0
  else
    let v := old &&& ~~~ (w &&& r.mask .w1c)
    if r.base = Reg.ANG_TICK_STATUS && w.getLsbD 16 then v &&& 0xFFFFFF00 else v

/-- The word a register holds after a plain write (R8): RW fields take the written bits, W1C bits written with 1 clear. -/
def RegD.merge (r : RegD) (old w : BitVec 32) : BitVec 32 := r.clear ((old &&& ~~~ r.mask .rw) ||| (w &&& r.mask .rw)) w

/-- The W1C bits of a write of a stake's register, and of a package register. -/
def Stake.clearBits (k : Stake) (off : Nat) (w : BitVec 32) : Stake :=
  match regAt off with
  | some r => k.wr off (r.clear (k.rd off) w)
  | none => k
def Pkg.clearBits (p : Pkg) (off : Nat) (w : BitVec 32) : Pkg :=
  match regAt off with
  | some r => p.wr off (r.clear (p.rd off) w)
  | none => p

/-- Whether a write carries a W1C bit of a register: the lock leaves those clearable (R40, R71 and the other lock rules). -/
def clears (off : Nat) (w : BitVec 32) : Bool :=
  match regAt off with
  | some r => w &&& r.mask .w1c ≠ 0
  | none => false

/-- What the lock leaves of a write it closes: a host write clears W1C bits, or is dropped and counted. -/
def State.lockedStake (s : State) (src : Src) (n off : Nat) (w : Reg32) : State :=
  if clears off w then s.onStake n fun k => k.clearBits off w
  else if src = .host then s.lockDrop (bar0 n off) else s
def State.lockedPkg (s : State) (src : Src) (off : Nat) (w : Reg32) : State :=
  if clears off w then s.onPkg fun p => p.clearBits off w
  else if src = .host then s.lockDrop off else s

/-- R16, R316: a write of a source reaches a stake: it is in service, and the stake manager's plait is not halted. -/
def State.takesFrom (s : State) (src : Src) (n : Nat) : Bool := s.alive n && !(src = .manager && (s.stake n).vote.halted)

/-- The checks of a write that has an effect of its own, in a stake's window: R16, R316, the lock, R15; then the effect. -/
def State.stakeWrite (s : State) (src : Src) (n off : Nat) (w : Reg32) (f : Stake → Stake) : State :=
  if !s.takesFrom src n then s
  else if s.locked && closedTo src off then s.lockedStake src n off w
  else match regAt off with
    | some r => if r.inRange w then s.onStake n f else s.rangeDrop (bar0 n off) w
    | none => s.onStake n f

/-- The same checks for a register of the package region; the package manager is stake 0's plait. -/
def State.pkgWrite (s : State) (src : Src) (off : Nat) (w : Reg32) (f : State → State) : State :=
  if src = .manager && (s.stake 0).vote.halted then s
  else if s.locked && closedTo src off then s.lockedPkg src off w
  else match regAt off with
    | some r => if r.inRange w then f s else s.rangeDrop off w
    | none => f s

/-- A plain write of a register of a stake. -/
def Stake.store (k : Stake) (off : Nat) (w : BitVec 32) : Stake :=
  match regAt off with
  | some r => k.wr off (r.merge (k.rd off) w)
  | none => k

/-- A plain write of a package register. -/
def Pkg.store (p : Pkg) (off : Nat) (w : BitVec 32) : Pkg :=
  match regAt off with
  | some r => p.wr off (r.merge (p.rd off) w)
  | none => p

end Sys2Proof.Machine
end

