-- ==== Sys2Proof/Machine/LegOps.lean ====
section
/-! DEFINITION. Shared operations of the leg link: frames and their check sequences (R239 to R242, R247), the start of a port (R246),
its loss (R245), profiles (R250), the report flags (R261). -/
namespace Sys2Proof.Machine

/-- A leg port. -/
def Stake.lport (k : Stake) (p : Nat) : LegPort := nth {} k.leg.ports p

/-- Changes a leg port. -/
def Stake.onLeg (k : Stake) (p : Nat) (f : LegPort → LegPort) : Stake :=
  { k with leg := { k.leg with ports := updAt k.leg.ports p f } }

/-- The link state of a port (R246): 0 off, 1 waiting for HELLO, 2 configuring, 3 READY, 4 FAILED, 5 LOST. -/
def Stake.link (k : Stake) (p : Nat) : Nat := k.fld (Reg.LEG_PORT_STATUS_LINK p)

/-- A READY port. -/
def Stake.portReady (k : Stake) (p : Nat) : Bool := k.link p = 3

/-- Sets the link state of a port and its bit of `LEG_STATUS.READY`. -/
def Stake.setLink (k : Stake) (p st : Nat) : Stake :=
  let r := k.fld Reg.LEG_STATUS_READY
  (k.put (Reg.LEG_PORT_STATUS_LINK p) st).put Reg.LEG_STATUS_READY
    (if st = 3 then r ||| 2 ^ p else r &&& (15 - 2 ^ p))

/-- One step of a cyclic redundancy check of width w, most significant bit first. -/
def crcBit (w poly reg : Nat) (b : Bool) : Nat :=
  let top := reg.testBit (w - 1) != b
  let r := reg * 2 % 2 ^ w
  if top then r ^^^ poly else r

/-- The low n bits of a number, most significant first. -/
def bitsOf (n v : Nat) : List Bool := (List.range n).map fun i => v.testBit (n - 1 - i)

/-- A cyclic redundancy check over bits. -/
def crc (w poly init : Nat) (l : List Bool) : Nat := l.foldl (crcBit w poly) init

/-- Bits 31:8 of a frame (R241). -/
def LegFrame.body : LegFrame → Nat
  | .next t o n => 1 * 1048576 + t % 16 * 65536 + o % 16 * 4096 + n % 16 * 256
  | .mode f l t i => 2 * 1048576 + (if f then 524288 else 0) + (if l then 262144 else 0) + t % 1024 * 256 + i % 128 * 2
  | .defaults o n => 3 * 1048576 + o % 16 * 65536 + n % 16 * 4096
  | .psel p s => 4 * 1048576 + p % 16 * 65536 + s % 4 * 16384
  | .pstep c d => 5 * 1048576 + c % 64 * 16384 + d % 1024 * 16
  | .test c => 6 * 1048576 + c % 16 * 65536
  | .clear => 7 * 1048576
  | .sumReq => 8 * 1048576
  | .arm => 9 * 1048576
  | .heartbeat s => 10 * 1048576 + s % 256 * 4096

/-- The CRC-8 of R240 over bits 31:8: x^8 + x^5 + x^3 + x^2 + x + 1, from 0xFF, inverted. -/
def crc8 (body : Nat) : Nat := 255 - crc 8 0x2F 0xFF (bitsOf 24 body)

/-- A whole frame (R239, R240). -/
def LegFrame.word (f : LegFrame) : BitVec 32 := BitVec.ofNat 32 (f.body * 256 + crc8 f.body)

/-- The profile step of a port in the profile table (R253). -/
def Stake.profile (k : Stake) (p q st : Nat) : BitVec 32 := k.rd (0xC0000 + 0x100 * p + 0x10 * q + 4 * st)

/-- The MODE frame of a port with its settings in force (R241). -/
def Stake.modeFrame (k : Stake) (p : Nat) (fdt : Bool) : LegFrame :=
  .mode fdt (k.flag (Reg.LEG_PORT_STATUS_SPARE p)) (k.inForce (Reg.LEG_PORT_CFG_T_BLANK p)) (k.inForce (Reg.LEG_PORT_CFG_IL_MAX p))

/-- The DEFAULTS frame of a port. -/
def Stake.defFrame (k : Stake) (p : Nat) : LegFrame :=
  .defaults (k.inForce (Reg.LEG_PORT_DEF_DEF_OFF p)) (k.inForce (Reg.LEG_PORT_DEF_DEF_ON p))

/-- The 64 PSTEP frames of a port, profile 0 step 0 first. -/
def Stake.pstepFrames (k : Stake) (p : Nat) : List LegFrame :=
  (List.range 64).map fun i =>
    let w := (k.profile p (i / 4) (i % 4)).toNat
    .pstep (w / 1024 % 64) (w % 1024)

/-- Frames are put at the end of those waiting for a port. -/
def Stake.sendFrames (k : Stake) (p : Nat) (l : List LegFrame) : Stake := k.onLeg p fun q => { q with out := q.out ++ l }

/-- Whether a frame is a MODE. -/
def LegFrame.isMode : LegFrame → Bool
  | .mode .. => true
  | _ => false

/-- A MODE frame of the given dead-time mode. -/
def LegFrame.isModeOf (fdt : Bool) : LegFrame → Bool
  | .mode f .. => f = fdt
  | _ => false

/-- A MODE frame waits for a port, in place of one of the same dead-time mode that waited (R244, R257). -/
def Stake.modeTo (k : Stake) (p : Nat) (fdt : Bool) : Stake :=
  k.onLeg p fun q => { q with out := (q.out.filter fun f => !f.isModeOf fdt) ++ [k.modeFrame p fdt] }

/-- MODE to every READY phase port (R197, R257). -/
def Stake.sendMode (k : Stake) (fdt : Bool) : Stake :=
  [0, 1, 2].foldl (fun q p => if q.portReady p then q.modeTo p fdt else q) k

/-- R246 step 3: the configuration of a port. -/
def Stake.configure (k : Stake) (p : Nat) (fdt : Bool) : Stake :=
  k.sendFrames p ([k.modeFrame p fdt, k.defFrame p, .psel 0 0] ++ k.pstepFrames p ++ [.sumReq])

/-- R247: the configuration sum of what a port has been sent: the 64 steps, the defaults, the payload of the last MODE frame. -/
def LegPort.cfgSum (l : LegPort) : Nat :=
  crc 16 0x1021 0xFFFF ((l.steps.flatMap (bitsOf 16)) ++ bitsOf 16 (l.defs.1 * 16 + l.defs.2) ++ bitsOf 20 (l.mode.body % 1048576))

/-- The sum expected of a port's leg head: that for the oldest SUM_REQ not yet answered, else that of what has been sent by now. -/
def Stake.cfgSum (k : Stake) (p : Nat) : Nat := ((k.lport p).sums.head?).getD (k.lport p).cfgSum

/-- R241, R247: what a frame changes of the configuration a leg head holds; a SUM_REQ asks for the sum at this point. -/
def LegPort.tell (l : LegPort) : LegFrame → LegPort
  | .mode f s t i => { l with mode := .mode f s t i }
  | .defaults o n => { l with defs := (o % 16, n % 16) }
  | .psel q s => { l with ptr := 4 * (q % 16) + s % 4 }
  | .pstep c d => { l with steps := updAt l.steps l.ptr fun _ => c % 64 * 1024 + d % 1024, ptr := (l.ptr + 1) % 64 }
  | .sumReq => { l with sums := l.sums ++ [l.cfgSum] }
  | _ => l

/-- The 5b/6b code of a data character for negative running disparity (R239; PRESUMED, log 148). -/
def code6 : List Nat :=
  [0x27, 0x1D, 0x2D, 0x31, 0x35, 0x29, 0x19, 0x38, 0x39, 0x25, 0x15, 0x34, 0x0D, 0x2C, 0x1C, 0x17] ++
  [0x1B, 0x23, 0x13, 0x32, 0x0B, 0x2A, 0x1A, 0x3A, 0x33, 0x26, 0x16, 0x36, 0x0E, 0x2E, 0x1E, 0x2B]

/-- The number of ones in the low six bits of a number. -/
def weight6 (c : Nat) : Nat := ((bitsOf 6 c).filter id).length

/-- R239: the six bits of a character's low five and the running disparity after them. -/
def enc6 (ctrl : Bool) (x : Nat) (rd : Bool) : Nat × Bool :=
  let c := if ctrl then 0x0F else nth 0 code6 x
  if weight6 c = 3 then (if x = 7 && !ctrl && rd then 63 - c else c, rd) else (if rd then 63 - c else c, !rd)

/-- R239: the four bits of a character's high three, with the alternate code of D.x.7. -/
def enc4 (ctrl : Bool) (x y : Nat) (rd : Bool) : Nat × Bool :=
  let alt := (!rd && [17, 18, 20].contains x) || (rd && [11, 13, 14].contains x)
  let c := nth 0 [0xB, 0x9, 0x5, 0xC, 0xD, 0xA, 0x6, if alt then 0x7 else 0xE] y
  if ctrl then (if rd then c else 15 - c, rd)
  else if weight6 c = 2 then (if y = 3 && rd then 15 - c else c, rd) else (if rd then 15 - c else c, !rd)

/-- R239: the ten bits of a character, first bit most significant; the control characters are K28.y. -/
def enc10 (ctrl : Bool) (b : Nat) (rd : Bool) : Nat × Bool :=
  let s := enc6 ctrl (b % 32) rd
  let f := enc4 ctrl (b % 32) (b / 32 % 8) s.2
  (s.1 * 16 + f.1, f.2)

/-- R239: the five characters of a frame: K28.1, then its four bytes. -/
def frameChars (w : BitVec 32) : List (Bool × Nat) :=
  [(true, 0x3C)] ++ [24, 16, 8, 0].map fun i => (false, (Fld.mk 0 i 8).of w)

/-- R239: the ten-bit codes of characters from a running disparity, and the disparity after them. -/
def encAll : List (Bool × Nat) → Bool → List Nat × Bool
  | [], rd => ([], rd)
  | c :: t, rd =>
    let x := enc10 c.1 c.2 rd
    let r := encAll t x.2
    (x.1 :: r.1, r.2)

/-- R239: whole commas sent after a frame by a time. -/
def LegPort.commas (l : LegPort) (now : Nat) : Nat := (now - (l.lastOut + 80)) / 16

/-- R239: the running disparity after the last frame and a number of commas, each of which turns it. -/
def LegPort.rdAfter (l : LegPort) (n : Nat) : Bool := (encAll (frameChars l.word) l.rd).2 != (n % 2 = 1)

/-- R337: a port runs on its main or its spare edge lane, which `SPL_SUMMARY.EDGE` shows. -/
def Stake.edgeLane (k : Stake) (p : Nat) (spare : Bool) : Stake :=
  let e := k.fld Reg.SPL_SUMMARY_EDGE
  (k.putB (Reg.LEG_PORT_STATUS_SPARE p) spare).put Reg.SPL_SUMMARY_EDGE (if spare then e ||| 2 ^ p else e &&& (15 - 2 ^ p))

/-- R246: a port fails with a cause. -/
def Stake.legFail (k : Stake) (p cause : Nat) (vals : List Nat := []) : Stake :=
  let k := ((k.setLink p 4).put (Reg.LEG_PORT_STATUS_CAUSE p) cause).onLeg p fun q => { q with out := [], expect := [], test := none, sums := [] }
  if cause = 4 then k.post .legCfgMismatch 1 (p :: vals) else k.post .legLinkFail 0 [p, cause]

/-- R245: the link of a port is LOST. -/
def Stake.legLost (k : Stake) (p : Nat) : Stake :=
  (((k.setLink p 5).put (Reg.LEG_PORT_STATUS_CAUSE p) 5).onLeg p fun q =>
    { q with out := [], expect := [], miss := 0, test := none, tempSeen := false, sums := [] }).post .legLinkLoss
      (k.inForce (Reg.LEG_PORT_CFG_LOSS_CLASS p)) [p]

/-- R246, R269: a port starts: keep-alive on both edge lanes, comma on word lane out, the main lane if its driver passed upsett; with
neither driver it fails. -/
def Stake.legStart (k : Stake) (p : Nat) : Stake :=
  let k := k.onLeg p fun q =>
    { mainBad := q.mainBad, noDriver := q.noDriver, lastPulse := k.now, started := k.now, lastIn := k.now, offSince := q.offSince,
      refEnd := q.refEnd, tempEver := q.tempEver, rd := q.rd, word := q.word, lastOut := q.lastOut }
  let k := ((k.edgeLane p (k.lport p).mainBad).put (Reg.LEG_PORT_STATUS_CAUSE p) 0).putB
    (Reg.LEG_PORT_STATUS_TEST_FAIL p) false
  if (k.lport p).noDriver then k.legFail p 6 else k.setLink p 1

/-- R246 step 3: a HELLO starts the configuration, or fails the port. -/
def Stake.helloStart (k : Stake) (p : Nat) (f : BitVec 32) : Stake :=
  let v := (Fld.mk 0 24 4).of f
  let b := f.getLsbD 15
  let k := ((k.put (Reg.LEG_PORT_HEAD_VERSION p) v).putB (Reg.LEG_PORT_HEAD_BOOT p) b).put (Reg.LEG_PORT_HEAD_LATENCY p) ((Fld.mk 0 16 8).of f)
  let k := k.onLeg p fun q => { q with hello := none, lastIn := k.now, attempts := 1, out := [], expect := [], miss := 0, gateRun := 0, sums := [] }
  if v ≠ 1 then k.legFail p 2
  else if b != k.inForceB (Reg.LEG_PORT_CFG_SUPPLY p) then k.legFail p 3
  else ((k.setLink p 2).put (Reg.LEG_PORT_STATUS_CAUSE p) 0).configure p true

/-- R250: current band of a switched current. -/
def Stake.iBand (k : Stake) (p : Nat) (i : Int) : Nat :=
  if i < k.inForce (Reg.LEG_PORT_IBAND0_I_B1 p) then 0 else if i < k.inForce (Reg.LEG_PORT_IBAND0_I_B2 p) then 1
  else if i < k.inForce (Reg.LEG_PORT_IBAND1_I_B3 p) then 2 else 3

/-- R250: temperature band of the module; 3 before the first report since reset and for an open sensor. -/
def Stake.tBand (k : Stake) (p : Nat) : Nat :=
  let raw := k.fld (Reg.LEG_PORT_TEMP_MODULE p)
  let t := signOf 16 raw
  if !(k.lport p).tempEver || raw = 0x7FFF then 3
  else if t < signOf 16 (k.inForce (Reg.LEG_PORT_TBAND0_T_B1 p)) then 0
  else if t < signOf 16 (k.inForce (Reg.LEG_PORT_TBAND0_T_B2 p)) then 1
  else if t < signOf 16 (k.inForce (Reg.LEG_PORT_TBAND1_T_B3 p)) then 2 else 3

/-- R250: an entry of a selection table in force; `lo` is the offset of its low word. -/
def Stake.selEntry (k : Stake) (lo e : Nat) : Nat :=
  (Fld.mk 0 (4 * (e % 8)) 4).of (k.rdAct (if e < 8 then lo else lo + 4))

/-- A report of a leg head refused by a rule: `CFG_REFUSED` and its event (R246, R253, R262, R268, R271). -/
def Stake.legRefuse (k : Stake) (vals : List Nat := []) : Stake := (k.putB Reg.LEG_STATUS_CFG_REFUSED true).post .legCfgRefused 0 vals

/-- The flag bits of `PLT_PS_STATUS.IDENT` for a port (R258, R285). -/
def Stake.setIdent (k : Stake) (p : Nat) (hs ls : Bool) : Stake :=
  if 3 ≤ p then k
  else k.put Reg.PLT_PS_STATUS_IDENT (k.fld Reg.PLT_PS_STATUS_IDENT ||| (if hs then 2 ^ (2 * p) else 0) ||| (if ls then 2 ^ (2 * p + 1) else 0))

end Sys2Proof.Machine
end

