-- ==== Sys2Proof/Machine/Trig.lean ====
section
/-! DEFINITION. Division, square root, sine, cosine and arctangent of the datapath (R131): the value rounded down, and an
error no proof can see, confined to the bound the spec states. -/
namespace Sys2Proof.Machine

/-- The error of a result that R131 holds to 2^-42, above its value rounded down: every Q4.44 number within 2^-42 of the exact
value is possible. -/
def near42 (tag : Nat) (a b : Int) : Int := clampI (-3) 4 (Config.roundOff tag a b)

/-- Quotient of two Q4.44 numbers (R131), before saturation; division by zero leaves a free value. -/
def div44 (a b : Int) : Int :=
  if b = 0 then Config.roundOff 5 a b
  else (if 0 < b then a * one44 / b else -a * one44 / -b) + near42 0 a b

/-- The integer square root, by bits from the highest. -/
def isqrtAux : Nat → Nat → Nat → Nat
  | 0, _, r => r
  | i + 1, n, r => let c := r + 2 ^ i; isqrtAux i n (if c * c ≤ n then c else r)

/-- The integer square root of numbers below 2^160. -/
def isqrt (n : Nat) : Nat := isqrtAux 80 n 0

/-- Square root of a Q4.44 number (R131). -/
def sqrt44 (a : Int) : Int := if a ≤ 0 then 0 else (isqrt (a.toNat * one44.toNat) : Int) + near42 1 a 0

/-- 2π in units of 2^-80. -/
def twoPi80 : Int := 7595904947272677161575987

/-- An angle of the first quadrant in radians, in units of 2^-80. -/
def rad80 (a : Nat) : Int := a * twoPi80 / rev48

/-- The sum of the alternating power series in x² with the given next factors, in units of 2^-80. -/
def series80 (x2 : Int) : List Nat → Int → Int → Int
  | [], _, s => s
  | f :: t, term, s => let q := -(term * x2 / 2 ^ 80) / f; series80 x2 t q (s + q)

/-- Sine of an angle of the first quadrant, in units of 2^-80. -/
def sin80 (a : Nat) : Int :=
  let x := rad80 a
  series80 (x * x / 2 ^ 80) [6, 20, 42, 72, 110, 156, 210, 272, 342, 420, 506, 600, 702, 812] x x

/-- Cosine of an angle of the first quadrant, in units of 2^-80. -/
def cos80 (a : Nat) : Int :=
  let x := rad80 a
  series80 (x * x / 2 ^ 80) [2, 12, 30, 56, 90, 132, 182, 240, 306, 380, 462, 552, 650, 756] (2 ^ 80) (2 ^ 80)

/-- Sine of a 48-bit angle, in units of 2^-80. -/
def sinFull (a : Word48) : Int :=
  let q := a.toNat / 70368744177664
  let r := a.toNat % 70368744177664
  if q = 0 then sin80 r else if q = 1 then cos80 r else if q = 2 then -sin80 r else -cos80 r

/-- Sine of a 48-bit angle (R131). -/
def sin44 (a : Word48) : Int := sat48 (sinFull a / 2 ^ 36 + near42 2 a.toNat 0)

/-- Cosine of a 48-bit angle (R131). -/
def cos44 (a : Word48) : Int := sat48 (sinFull (a + 70368744177664) / 2 ^ 36 + near42 3 a.toNat 0)

/-- The largest first-quadrant angle whose tangent is at most y/x, by bits from the highest. -/
def atanAux : Nat → Int → Int → Nat → Nat
  | 0, _, _, r => r
  | i + 1, y, x, r => let c := r + 2 ^ i; atanAux i y x (if sin80 c * x ≤ cos80 c * y then c else r)

/-- The two-argument arctangent as a 48-bit angle, correct to 2^20 counts (R131); of (0, 0) a free value. -/
def atan2 (y x : Int) : Word48 :=
  if y = 0 ∧ x = 0 then w48 (Config.roundOff 6 0 0)
  else
    let e := clampI (-1048575) 1048575 (Config.roundOff 4 y x)
    let a : Int := atanAux 46 (iabs y) (iabs x) 0
    let f := if 0 ≤ x then (if 0 ≤ y then a else -a) else (if 0 ≤ y then rev48 / 2 - a else rev48 / 2 + a)
    w48 (f + e)

/-- A vector turned by an angle: (a + jb)·e^(jθ). -/
def turn (a b : Int) (th : Word48) : Int × Int :=
  let c := cos44 th
  let s := sin44 th
  (divNear (a * c - b * s) 17592186044416, divNear (a * s + b * c) 17592186044416)

/-- √3/2 in Q4.44. -/
def sqrt3half : Int := 15235280022566

/-- The projections of αβ on the phases U, V, W: Re(v·e^(-jx2π/3)), in units of 2^-44. -/
def phases (a b : Int) : List Int :=
  [a, divNear (sqrt3half * b * 2 - a * one44) 35184372088832, divNear (-(sqrt3half * b * 2) - a * one44) 35184372088832]

/-- Length of a vector. -/
def hyp44 (a b : Int) : Int := (isqrt (a * a + b * b).toNat : Int) + near42 7 a b

/-- e^(-n/tau) in Q4.44, rounded to nearest, for n and tau in ticks (R157): the power series of e^(-n/(1024·tau)), squared ten times. -/
def expNeg (n tau : Nat) : Int :=
  if 64 * tau ≤ n then 0
  else
    let x : Int := (n * 2 ^ 80 / (tau * 1024) : Nat)
    divNear ((List.range 10).foldl (fun y _ => y * y / 2 ^ 80) (series80 x [1, 2, 3, 4, 5, 6, 7, 8, 9, 10, 11, 12, 13, 14] (2 ^ 80) (2 ^ 80))) 68719476736

/-- Ticks of 2.5 ns in one revolution per second: ω counts per tick to electrical speed in Hz is ω × 4·10^8 / 2^48. -/
def tickHz : Int := 400000000

end Sys2Proof.Machine
end

