-- ==== Sys2Proof/Machine/ModOps.lean ====
section
/-! DEFINITION. Shared operations of the modulation unit: port records, the spacing rule, cuts, update sets, the mapping of a set
to duties and of duties to commutations (R170 to R207, R464, R465). -/
namespace Sys2Proof.Machine

/-- A port of the modulation unit. -/
def Stake.mport (k : Stake) (p : Nat) : ModPort := nth {} k.modu.ports p

/-- Changes the modulation unit's state. -/
def Stake.onMod (k : Stake) (f : ModState → ModState) : Stake := { k with modu := f k.modu }

/-- Changes a port of the modulation unit. -/
def Stake.onPort (k : Stake) (p : Nat) (f : ModPort → ModPort) : Stake :=
  k.onMod fun m => { m with ports := updAt m.ports p f }

/-- The present instant. -/
def Stake.nowI (k : Stake) : Instant := ⟨k.ang.tick, 0⟩

/-- Slot in force (R190) and its kind (R185): 0 carrier, 1 pattern, 2 six-step. -/
def Stake.slotNow (k : Stake) : Nat := k.fld Reg.MOD_STATUS_SLOT
def Stake.slotKind (k : Stake) (s : Nat) : Nat := k.inForce (Reg.MOD_SLOT_KIND s)
def Stake.kindNow (k : Stake) : Nat := k.fld Reg.MOD_STATUS_KIND

/-- A carrier mode is in force. -/
def Stake.carrierMode (k : Stake) : Bool := k.kindNow = 0

/-- R195: a symbol less than 48 ticks after the previous one on the lane is moved to exactly 48 ticks after it. -/
def spaced (last : Option Instant) (x : Instant) : Instant × Bool :=
  match last with
  | none => (x, false)
  | some l => if x.minus l < 48 * 32 then (l.plus (48 * 32), true) else (x, false)

/-- The instant of the last symbol of a port, sent or pending. -/
def ModPort.lastAt (q : ModPort) : Option Instant :=
  match q.recs.getLast? with
  | some r => some r.at_
  | none => q.lastSym

/-- R195: the edge current of a port in 2^-12 per-unit, from the current reference of the set in force at an angle. A value beyond the
signed 16 bits of the field is held at its end (DESIGN CHOICE, log 138). -/
def edgeCurrent (s : USet) (th : Word48) (p : Nat) : Int :=
  let c := turn s.id s.iq th
  clampI (-32768) 32767 (divNear (nth 0 (phases c.1 c.2) p) 4294967296)

/-- The main-clock angle expected at an instant (R195). -/
def Stake.thetaAt (k : Stake) (x : Instant) : Word48 :=
  (k.clock 0).theta + w48 (((k.clock 0).omega * x.minus k.nowI) / 32)

/-- R195: a record of a port at an instant, with the edge current there. -/
def Stake.recAt (k : Stake) (p : Nat) (sym : Symb) (x : Instant) (ins : Bool) : Record :=
  ⟨sym, x, edgeCurrent k.modu.set (k.thetaAt x) p, ins⟩

/-- A record is handed to a port (R195): spaced, counted, kept in order. A seized port takes none, an insertion of the LEG block as little
as a record of the modulation unit (R238). -/
def Stake.hand (k : Stake) (p : Nat) (sym : Symb) (x : Instant) (ins : Bool := false) : Stake :=
  let q := k.mport p
  if q.seized then k
  else
  let (y, moved) := spaced q.lastAt x
  (k.onPort p fun r => { r with recs := r.recs ++ [k.recAt p sym y ins] }).bump Reg.MOD_SPACING_CNT (if moved then 1 else 0)

/-- Whether a symbol turns a switch on. -/
def Symb.on : Symb → Bool
  | .hsOn | .lsOn => true
  | _ => false

/-- R204: whether a scheduled turn-on at an instant may leave the off state of a port. -/
def ModPort.mayTurnOn (q : ModPort) (x : Instant) : Bool :=
  q.cut.isNone && !q.seized && (match q.resume with | none => true | some r => !laterInstant r x)

/-- A switch of the port that is on, or will be by a pending record. -/
def ModPort.onLater (q : ModPort) (hs : Bool) : Bool :=
  q.recs.foldl (fun b r => match r.sym with
    | .hsOn => if hs then true else b
    | .hsOff => if hs then false else b
    | .lsOn => if hs then b else true
    | .lsOff => if hs then b else false
    | .softOff => false) (if hs then q.hs else q.ls)

/-- R204: a discarded turn-on takes its matching turn-off with it. -/
def ModPort.lost (q : ModPort) (sym : Symb) : ModPort :=
  match sym with
  | .hsOn => { q with dropHs := true }
  | .lsOn => { q with dropLs := true }
  | .hsOff => { q with dropHs := false }
  | .lsOff => { q with dropLs := false }
  | .softOff => q

/-- Every pending record of a port is discarded (R203, R204, R464, R465). -/
def ModPort.discard (q : ModPort) : ModPort := { (q.recs.foldl (fun r x => r.lost x.sym) q) with recs := [] }

/-- R265, R266: a record that falls into a refresh's window is replaced: only the leg's state after the window counts. A turn-off takes
the symbol of return away; a turn-on to the high side, or with `back` to the low side, becomes it. -/
def Stake.intoWindow (k : Stake) (p : Nat) (sym : Symb) (e : Instant) (back : Bool) : Stake :=
  let k := k.onPort p fun q =>
    { q with
      recs := q.recs.filter fun r => !(r.ins && r.sym.on && !laterInstant e r.at_)
      dropHs := q.dropHs && sym ≠ .hsOff
      dropLs := q.dropLs && sym ≠ .lsOff }
  if sym = .hsOn || (sym = .lsOn && back) then k.hand p sym e true else k

/-- The refresh window of a port that an instant falls into: when the leg returns, and whether a low side does. Once the return is due
the window is over. -/
def ModPort.inWindow (q : ModPort) (now : Word48) (x : Instant) : Option (Instant × Bool) :=
  match q.skip with
  | some (a, b, e, back) => if laterInstant a x || laterInstant x b || reached now e.tick then none else some (e, back)
  | none => none

/-- A scheduled symbol of a port (R195, R204, R238, R265): a seized or cut port takes none; a turn-on that the resumption rule does not
admit is discarded with its matching turn-off. -/
def Stake.schedule (k : Stake) (p : Nat) (sym : Symb) (x : Instant) : Stake :=
  let q := k.mport p
  if q.seized || q.cut.isSome then k.onPort p fun r => r.lost sym
  else if let some (e, back) := q.inWindow k.ang.tick x then k.intoWindow p sym e back
  else match sym with
    | .hsOn =>
      if q.mayTurnOn x then (k.onPort p fun r => { r with resume := none, dropHs := false }).hand p sym x
      else k.onPort p fun r => r.lost sym
    | .lsOn =>
      if q.mayTurnOn x then (k.onPort p fun r => { r with resume := none, dropLs := false }).hand p sym x
      else k.onPort p fun r => r.lost sym
    | .hsOff => if q.dropHs then k.onPort p fun r => { r with dropHs := false } else k.hand p sym x
    | .lsOff => if q.dropLs then k.onPort p fun r => { r with dropLs := false } else k.hand p sym x
    | .softOff => k.hand p sym x

/-- Off symbols for every switch of a port that is on, at the earliest instant R195 allows, the pending records discarded
(R203, R464, R465). -/
def Stake.portOff (k : Stake) (p : Nat) (soft : Bool) : Stake :=
  let q := k.mport p
  let k := k.onPort p ModPort.discard
  if soft then (if q.hs || q.ls then k.hand p .softOff k.nowI else k)
  else
    let k := if q.hs then k.hand p .hsOff k.nowI else k
    if q.ls then k.hand p .lsOff k.nowI else k

/-- The resumption rule of R204 begins at an end tick, with `MIN_PULSE` after the cut instant. -/
def Stake.resumeFrom (k : Stake) (p : Nat) (cutAt : Instant) (e : Word48) : Stake :=
  let m : Instant := cutAt.plus (32 * k.inForce Reg.MOD_MINPULSE_MIN_PULSE)
  let r : Instant := ⟨e, 0⟩
  k.onPort p fun q => { q with cut := none, resume := some (if laterInstant m r then m else r) }

/-- R203: a fault cut of a port; `cause` is 1 for a current trip, 2 for a request of the leg link. -/
def Stake.cutPort (k : Stake) (p cause : Nat) : Stake :=
  if !k.inForceB (Reg.MOD_PORT_CFG_CUT_EN p) || (k.mport p).seized then k
  else
    let q := k.mport p
    let wasLatched := match q.cut with | some c => c.latched | none => false
    let at_ : Instant := if q.hs || q.ls then (spaced q.lastSym k.nowI).1 else k.nowI
    let aux := p = 3 && (k.inForce (Reg.MOD_PORT_CFG_AUX_MODE 3) = 2 || k.inForce (Reg.MOD_PORT_CFG_AUX_MODE 3) = 3)
    let endAt : Option Word48 := if aux then some (at_.tick + w48 k.modu.set.toff) else none
    let k := k.portOff p (cause = 1)
    let k := k.onPort p fun r =>
      { r with cut := some ⟨at_, wasLatched || k.inForce (Reg.MOD_PORT_CFG_CUT_MODE p) = 2, endAt⟩, resume := none }
    let k := if p = 3 then k.onMod fun m => { m with auxEnd := none, auxOffAt := some at_.tick } else k
    ((k.put Reg.MOD_STATUS_CUT (k.fld Reg.MOD_STATUS_CUT ||| 2 ^ p)).bump Reg.MOD_CUT_CNT).post .modCut 0 [p, cause]

/-- R204: a cut ends and the resumption rule applies. -/
def Stake.endCut (k : Stake) (p : Nat) (e : Word48) : Stake :=
  match (k.mport p).cut with
  | none => k
  | some c =>
    -- Symbols of a seizure within the cut are later than the cut symbol.
    let at_ := match (k.mport p).lastSym with | some l => if laterInstant l c.at_ then l else c.at_ | none => c.at_
    (k.resumeFrom p at_ e).put Reg.MOD_STATUS_CUT (k.fld Reg.MOD_STATUS_CUT &&& (15 - 2 ^ p))

/-- R465: the axis states in which the unit produces records for the phase ports; CATCH switches only for its pulses, and
DISCHARGE only by injection. A survivor in HOLD keeps its legs off (R225). -/
def Stake.switching (k : Stake) : Bool :=
  k.fld Reg.FLD_PAIR_STATUS_STATE ≠ 3 &&
  (k.axisIn [axRun, axDerate, axTest] || (k.axis = axDischarge && k.inForce Reg.PLT_DIS_CFG_DIS_MODE = 2))

/-- R465: the switches of a port go off, nothing is carried over, and the next turn-on follows the resumption rule of R204: from the off
symbol, or from this tick where no switch is on. -/
def Stake.portQuiet (k : Stake) (p : Nat) : Stake :=
  let q0 := k.mport p
  if q0.seized then k
  else
    let k := k.portOff p false
    let mp := 32 * k.inForce Reg.MOD_MINPULSE_MIN_PULSE
    let a := ((if q0.hs || q0.ls then (k.mport p).lastAt.getD k.nowI else k.nowI)).plus mp
    let later := fun (x : Option Instant) => match x with | some r => if laterInstant r a then r else a | none => a
    k.onPort p fun r =>
      { r with
        known := false, dropHs := false, dropLs := false, skip := none
        resume := some (later r.resume) }

/-- R465: leaving the switching states: pending records of the phase ports are discarded and every switch that is on goes off. -/
def Stake.leaveSwitching (k : Stake) : Stake := [0, 1, 2].foldl Stake.portQuiet k

/-- R197: the axis enters a switching state: `FDT_PERIODS` boundaries in fixed-dead-time mode follow. -/
def Stake.enterSwitching (k : Stake) : Stake := k.onMod fun m => { m with fdtEnter := true, lossRun := 0 }

/-- R464: a carrier runs, or a pattern is in force. -/
def Stake.carrierRuns (k : Stake) : Bool := k.modu.run

/-- R170, R206: whether a carrier period may be written: even, in range, and a divisor of 400,000 under epoch lock. -/
def Stake.periodField (k : Stake) (c : Nat) : Bool :=
  c % 2 = 0 && 4000 ≤ c && c ≤ 2000000 && (!k.inForceB Reg.MOD_EPOCH_CTRL_EN || 400000 % c = 0)

/-- R171: a set may carry a period: P is at least 4,000 ticks. -/
def Stake.periodOk (k : Stake) (c : Nat) : Bool := k.periodField c && (!k.inForceB Reg.MOD_CTRL_DOUBLE || 8000 ≤ c)

/-- R176, R464: a set is handed over at the set interface with its close tick. A set carrying a period out of range is
discarded whole with `HIF_RANGE`. The first set carrying a period while the unit is enabled starts the carrier. -/
def Stake.closeSet (k : Stake) (s : USet) (at_ : Word48) : Stake :=
  let s := { s with closeAt := at_ }
  if s.mask.testBit 0 && !k.periodOk s.period then k.post .hifRange 0 [Reg.MOD_SH_PERIOD, s.period]
  else if s.mask.testBit 3 && s.dutyFmt = 0 && s.duty.any (fun d => 65536 < d) then k.post .hifRange 0 [Reg.MOD_SH_DUTY_U]
  else
    let late : Bool := k.modu.run && s.target.isNone && k.ang.period.2 ≠ 0 && k.ang.period.1 = s.closeAt
    let k := k.onMod fun m => { m with waiting := m.waiting ++ [(s, late)] }
    let k := k.bump Reg.MOD_LATE_SETS (if late then 1 else 0)
    if s.mask.testBit 0 && k.flag Reg.MOD_CTRL_EN && !k.modu.run && k.modu.start.isNone then
      let t0 := (s.closeAt + 9).toNat
      let first := (t0 + s.period - 1) / s.period * s.period
      k.onMod fun m => { m with start := some (BitVec.ofNat 48 first, s.period) }
    else k

/-- A taken set's written fields replace those in force (R175). -/
def USet.over (s f : USet) : USet :=
  let w := fun i => s.mask.testBit i
  { f with
    mask := s.mask, closeAt := s.closeAt, pass := if w 1 || w 2 then s.pass else f.pass,
    thOut := if w 1 || w 2 then s.theta else f.thOut,
    period := if w 0 then s.period else f.period,
    va := if w 1 then s.va else f.va, vb := if w 1 then s.vb else f.vb, udc := if w 1 then s.udc else f.udc,
    mainA := if w 1 then (if s.pass then s.mainA else s.va) else f.mainA,
    mainB := if w 1 then (if s.pass then s.mainB else s.vb) else f.mainB,
    psiA := if w 2 then s.psiA else f.psiA, psiB := if w 2 then s.psiB else f.psiB,
    hatA := if w 2 then s.hatA else f.hatA, hatB := if w 2 then s.hatB else f.hatB,
    omegaC := if w 2 then s.omegaC else f.omegaC, m := if w 2 then s.m else f.m, tc := if w 2 then s.tc else f.tc,
    duty := if w 3 then s.duty else f.duty, dutyFmt := if w 3 then s.dutyFmt else f.dutyFmt,
    id := if w 4 then s.id else f.id, iq := if w 4 then s.iq else f.iq, theta := if w 4 then s.theta else f.theta,
    auxDuty := if w 5 then s.auxDuty else f.auxDuty, auxFmt := if w 5 then s.auxFmt else f.auxFmt, ton := if w 5 then s.ton else f.ton, toff := if w 5 then s.toff else f.toff,
    slot := if w 6 then s.slot else f.slot,
    form := if w 3 then 1 else if w 2 then 2 else if w 1 then 0 else f.form }

/-- R179, R187: the output angle that belongs to the voltage or flux of the set in force: a pass's own, whatever the register path has
written since. -/
def USet.angleOut (s : USet) : Word48 := if s.pass then s.thOut else s.theta

/-- R185, R194: an entry of the active bank of the pattern table. -/
def Stake.patAngle (k : Stake) (n : Nat) : Nat :=
  let off := (if k.flag Reg.MOD_PAT_CTRL_ACTIVE then 0x1000000 else 0) + 0xB0000 + 8 * n
  (Store.get (fun _ => 0) k.tbl (off + 4)).toNat % 65536 * 4294967296 + (Store.get (fun _ => 0) k.tbl off).toNat

/-- Pulses per quarter-wave of a slot; six-step is a pattern with none (R185). -/
def Stake.slotN (k : Stake) (s : Nat) : Nat := if k.slotKind s = 2 then 0 else k.inForce (Reg.MOD_SLOT_N s)

/-- The angles of a slot at one index point. -/
def Stake.slotRow (k : Stake) (s j : Nat) : List Nat :=
  (List.range (k.slotN s)).map fun i => k.patAngle (k.inForce (Reg.MOD_SLOT_BASE s) + j * k.slotN s + i)

/-- Strictly ascending angles between 0 and 90° (R185). -/
def ascends : Nat → List Nat → Bool
  | lo, [] => lo < 70368744177664
  | lo, a :: t => lo < a && ascends a t

/-- R185: the slot's entries lie in the table and its angles ascend. -/
def Stake.slotSound (k : Stake) (s : Nat) : Bool :=
  k.slotKind s ≠ 1 ||
  (let pts := k.inForce (Reg.MOD_SLOT_M_M1 s) + 1
   1 ≤ k.slotN s && k.inForce (Reg.MOD_SLOT_BASE s) + pts * k.slotN s ≤ 512 &&
   (List.range pts).all fun j => ascends 0 (k.slotRow s j))

/-- The electrical speed of the main clock in 1/16 Hz, exact: |ω| × 16 × 4·10^8 against a limit × 2^48. -/
def Stake.speedBelow (k : Stake) (num den : Nat) : Bool :=
  iabs (k.clock 0).omega * 16 * tickHz * den < (num : Int) * rev48

/-- A slot request (R190): a new one replaces the pending one; one for the slot in force with none pending has no effect.
Entry into a pattern is dropped while the main clock is INVALID or slow (R191), a slot whose entries break R185 is refused, and so is a
passage between a carrier and six-step. -/
def Stake.requestSlot (k : Stake) (s : Nat) (abort : Bool) : Stake :=
  let drop := fun (c : Nat) => (k.post .modSeamFail 1 [c, s]).onMod fun m => { m with req := none }
  let fin := fun (q : Stake) => q.putB Reg.MOD_STATUS_SEAM_PENDING q.modu.req.isSome
  let kd := k.slotKind s
  if s = k.slotNow && k.modu.req.isNone then k
  else if !k.slotSound s then fin (drop 5)
  else if (k.kindNow = 0 && kd = 2) || (k.kindNow = 2 && kd = 0 && !abort) then fin (drop 2)
  else if kd ≠ 0 && !(k.clock 0).valid then fin (drop 4)
  else if kd ≠ 0 && k.speedBelow (k.inForce Reg.MOD_SYNC_SYNC_MIN) 1 then fin (drop 3)
  else fin (k.onMod fun m => { m with req := some (s, k.now, abort) })

/-- R181: the three variants' offset z, and the duties before clipping, from the projections a_x, in units of 2^-44. -/
def variantZ (v : Nat) (a : List Int) (lo hi : Int) : Int :=
  let mx := a.foldl max (nth 0 a 0)
  let mn := a.foldl min (nth 0 a 0)
  if v = 0 then (lo + hi) / 2 - (mx + mn) / 2
  else if v = 1 then -mn
  else if v = 2 then one44 - mx
  else if -mn ≤ mx then one44 - mx else -mn

/-- R181: the legs a variant holds without edges, and at which duty. Legs of equal a are held together, as the zero voltage of a set with
no DC link asks (DEDUCED, log 139). -/
def variantHeld (v : Nat) (a : List Int) (x : Nat) : Option Int :=
  let mx := a.foldl max (nth 0 a 0)
  let mn := a.foldl min (nth 0 a 0)
  if v = 0 then none
  else if v = 1 then (if nth 0 a x = mn then some 0 else none)
  else if v = 2 then (if nth 0 a x = mx then some one44 else none)
  else if -mn ≤ mx then (if nth 0 a x = mx then some one44 else none)
  else if nth 0 a x = mn then some 0 else none

/-- R182: the duty limits of the keep-out zones for a carrier of C ticks; K shrinks so that half the span is left. -/
def Stake.dutyLimits (k : Stake) (c : Nat) : Int × Int :=
  let v := k.inForceB Reg.MOD_KEEPOUT_KO_VALLEY
  let p := k.inForceB Reg.MOD_KEEPOUT_KO_PEAK
  let n : Nat := (if v then 1 else 0) + (if p then 1 else 0)
  let kk := k.inForce Reg.MOD_KEEPOUT_KO_HALF
  let kk := if n = 0 || c = 0 then 0 else if 4 * n * kk ≤ c then kk else c / (4 * n)
  let w : Int := if c = 0 then 0 else 2 * (kk : Int) * one44 / c
  (if p then w else 0, if v then one44 - w else one44)

/-- Place of a value on an axis of n steps from lo to hi: the step and the fraction in 2^-44, clamped to the grid. -/
def gridAt (x lo hi : Int) (n : Nat) : Nat × Int :=
  if hi ≤ lo then (0, 0)
  else
    let c := clampI lo hi x
    let u := (c - lo) * n * one44 / (hi - lo)
    let j := (u / one44).toNat
    if n ≤ j then (n - 1, one44) else (j, u - j * one44)

/-- A line through 17 points evenly spaced over an index from lo to hi, times 2^44. -/
def between (l : List Int) (lo hi m : Int) : Int :=
  let (j, f) := gridAt m lo hi 16
  nth 0 l j * (one44 - f) + nth 0 l (j + 1) * f

/-- R183: between these factors, in units of 2^-20 at m = 1 + i × 0.0494/16, the fundamental of the clamped reference is within 0.5 %:
with r = g·m and cos ψ = 1/r it is 6/π × (ln tan(π/4 + ψ/2) + r (π/6 − ψ)) times the hexagon's inner radius. -/
def ovmGainLo : List Int :=
  [1048576, 1048576, 1048576, 1048576, 1048576, 1048576, 1048576, 1050274, 1052630, 1055425, 1058724, 1062619, 1067242, 1072794, 1079595,
   1088231, 1099993]
def ovmGainHi : List Int :=
  [1054125, 1055088, 1056389, 1058035, 1060048, 1062463, 1065330, 1068720, 1072730, 1077500, 1083243, 1090310, 1099347, 1111832, 1133658,
   1157199, 1153794]

/-- R183: between these hold angles, in units of 2^-20 revolution at m = 1.0494 + i × 0.053258/16, the fundamental is within 0.5 %: it is
6/π × (ln tan(π/3 − α/2) + 2/√3 sin α) times the hexagon's inner radius. -/
def ovmHoldLo : List Int :=
  [0, 0, 10057, 16680, 21733, 26128, 30162, 33979, 37670, 41296, 44911, 48564, 52309, 56214, 60379, 64967, 70328]
def ovmHoldHi : List Int :=
  [16195, 21373, 25844, 29933, 33795, 37524, 41185, 44833, 48519, 52297, 56240, 60446, 65088, 70532, 78039, 87381, 87381]

/-- R183: g(m), the gain of overmodulation: a value of the unit's table, of which the spec states only the fundamental it leads to. Above
1.0494 the whole hexagon is reached. -/
def ovmGain (m : Int) : Int :=
  if m ≤ one44 then one44
  else if 18461240035010 < m then max 19360000000000 (Config.ovmCurve (min m 19398164679364))
  else clampI (between ovmGainLo one44 18461240035010 m / 1048576) (between ovmGainHi one44 18461240035010 m / 1048576) (Config.ovmCurve m)

/-- R183: the clamp to the voltage hexagon with the angle kept: the three projections never span more than 1. -/
def hexClamp (a : List Int) : List Int :=
  let sp := a.foldl max (nth 0 a 0) - a.foldl min (nth 0 a 0)
  if sp ≤ one44 then a else a.map fun x => (x * one44).tdiv sp

/-- R183: the projections of the hexagon's vertex n, at n × 60°, with a span of exactly 1. -/
def hexVertex (n : Nat) : List Int :=
  let b : Int := 11728124029611
  let s : Int := 5864062014805
  nth [] [[b, -s, -s], [s, s, -b], [-s, b, -s], [-b, s, s], [-s, -s, b], [s, -b, s]] (n % 6)

/-- R183: α_h(m), a value of the same table: at 1.102658 and above every angle is held, which is six-step. -/
def ovmHoldAngle (m : Int) : Nat :=
  if 19398164679364 ≤ m then 23456248059222
  else min 23456248059222 (clampI (between ovmHoldLo 18461240035010 19398164679364 m / 65536)
    (between ovmHoldHi 18461240035010 19398164679364 m / 65536) (Config.ovmHold m)).toNat

/-- R183: the projections under overmodulation of a voltage at an angle: stretched, clamped to the hexagon, and above 1.0494 held at the
nearest vertex while the angle lies within α_h of it. -/
def overmodulate (m : Int) (th : Word48) (a : List Int) : List Int :=
  let n := (6 * th.toNat + 140737488355328) / 281474976710656
  let off := (6 * (th.toNat : Int) - n * rev48).natAbs
  if 18461240035010 < m && off ≤ 6 * ovmHoldAngle m then hexVertex n
  else hexClamp (a.map fun x => mul44 x (ovmGain m))

/-- Clips to the limits and says whether it did. -/
def clip (lo hi x : Int) : Int × Bool := (clampI lo hi x, x < lo || hi < x)

/-- R179, R181 to R183: the duties of the three legs, in units of 2^-44, of the set in force at boundary B with period P and
carrier C, and the number of clips. -/
def Stake.duties (k : Stake) (s : USet) (p c : Nat) : List Int × Nat :=
  let (lo, hi) := k.dutyLimits c
  let sl := k.slotNow
  let var := k.inForce (Reg.MOD_SLOT_VARIANT sl)
  if s.form ≠ 1 && s.udc ≤ 0 then (List.replicate 3 (variantZ var [0, 0, 0] lo hi), 0)
  else if s.form = 1 then
    let d := s.duty.map fun (x : Nat) => clip lo hi ((x : Int) * 268435456)
    (d.map (·.1), (d.filter (·.2)).length)
  else
    let mid := (k.clock 0).theta + w48 ((k.clock 0).omega * (p / 2 : Nat))
    let v := if s.pass then turn s.va s.vb (mid - s.angleOut) else (s.va, s.vb)
    let m := div44 (mul44 (hyp44 v.1 v.2) 30470560045132) s.udc
    let a := (phases v.1 v.2).map fun x => div44 x s.udc
    let a := if k.inForceB (Reg.MOD_SLOT_OVM sl) && one44 < m then overmodulate m (atan2 v.2 v.1) a else a
    let z := variantZ var a lo hi
    let d := (List.range 3).map fun x => match variantHeld var a x with
      | some h => (h, false)
      | none => clip lo hi (nth 0 a x + z)
    (d.map (·.1), (d.filter (·.2)).length)

/-- R184: a high-side portion of a half of H fine steps, rounded by `MIN_PULSE` on either side; with the number of roundings. -/
def roundPortion (mp h p : Int) : Int × Nat :=
  let r := fun (x : Int) => if 0 < x && 2 * x < mp then (0, 1) else if 0 < x && x < mp then (mp, 1) else (x, 0)
  let (p, n) := r p
  let (q, n') := r (h - p)
  (h - q, n + n')

/-- R184: an on-time in the absolute form, for a carrier of C, both in fine steps. -/
def roundOnTime (mp c t : Int) : Int × Nat :=
  if 0 < t && 2 * t < mp then (0, 1)
  else if 0 < t && t < mp then (mp, 1)
  else if c - t < mp then (c - mp, 1)
  else (t, 0)

/-- R198: the advance Δ of a commutation's first symbol in fine steps, exact, as numerator and denominator: λ is a number of parts of
twice the band. -/
def Stake.advanceQ (k : Stake) (p : Nat) (rising : Bool) (ie : Int) (d : Int) : Int × Int :=
  if !k.inForceB (Reg.MOD_PORT_CFG_COMP_EN p) then (0, 1)
  else
    let fdt := k.flag Reg.MOD_STATUS_FDT
    let on : Int := k.inForce (Reg.MOD_PORT_TD_TD_ON p)
    let off : Int := k.inForce (Reg.MOD_PORT_TD_TD_OFF p)
    let w : Int := if fdt then 0 else k.fld (if rising then Reg.MOD_PORT_WAIT_W_HS p else Reg.MOD_PORT_WAIT_W_LS p)
    let n : Int := max 1 (2 * k.inForce (Reg.MOD_PORT_CFG_I_BAND p))
    let l := clampI 0 n (ie + k.inForce (Reg.MOD_PORT_CFG_I_BAND p))
    (if rising then l * (d + on + w) + (n - l) * off else l * off + (n - l) * (d + on + w), n)

/-- The dead time in force of a port, in ticks (R197). -/
def Stake.deadTime (k : Stake) (p : Nat) : Nat :=
  if k.flag Reg.MOD_STATUS_FDT then k.inForce (Reg.MOD_PORT_DT_DT_FIXED p) else k.inForce (Reg.MOD_PORT_DT_DT_IL p)

/-- R195: the earliest instant of a record that the present tick computes: 32 ticks ahead. -/
def Stake.soonest (k : Stake) : Instant := k.nowI.plus 1024

/-- R189: a commutation of a phase is noted for the flux the unit applies: the 64 latest stand. -/
def Stake.noteVolt (k : Stake) (p : Nat) (rising : Bool) (t : Instant) : Stake :=
  if (k.mport p).seized || (k.mport p).cut.isSome then k
  else k.onMod fun m => { m with pat := { m.pat with edges := (m.pat.edges ++ [(t, p, rising)]).reverse.take 64 |>.reverse } }

/-- R195, R197: the two symbols of a commutation of ideal instant `t`, the first at `ta`, but never less than 32 ticks ahead. -/
def Stake.place (k : Stake) (p : Nat) (rising : Bool) (t ta : Instant) : Stake :=
  let d : Int := 32 * k.deadTime p
  let ta := if laterInstant k.soonest ta then k.soonest else ta
  let tb := ta.plus d
  let k := if rising then (k.schedule p .lsOff ta).schedule p .hsOn tb
    else (k.schedule p .hsOff ta).schedule p .lsOn tb
  (k.noteVolt p rising t).onPort p fun q => { q with level := rising, known := true }

/-- R198: a commutation at its ideal instant: its first symbol comes Δ earlier, rounded to the nearest fine step. -/
def Stake.commutate (k : Stake) (p : Nat) (rising : Bool) (t : Instant) : Stake :=
  let a := k.advanceQ p rising (edgeCurrent k.modu.set (k.thetaAt t) p) (32 * k.deadTime p)
  k.place p rising t (t.plus (-(divNear a.1 a.2.toNat)))

/-- The leg goes to a state at an instant, if its schedule does not hold it there. -/
def Stake.legTo (k : Stake) (p : Nat) (high : Bool) (t : Instant) : Stake :=
  if (k.mport p).known && (k.mport p).level = high then k else k.commutate p high t

/-- R172: one half of the carrier for a leg: from its start instant, of H fine steps, with a high-side portion. A rising half
ends high, a falling half ends low. -/
def Stake.legHalf (k : Stake) (p : Nat) (b : Instant) (h portion : Int) (rising : Bool) : Stake :=
  if rising then
    let k := if portion < h then k.legTo p false b else k
    if 0 < portion then k.legTo p true (b.plus (h - portion)) else k
  else
    let k := if 0 < portion then k.legTo p true b else k
    if portion < h then k.legTo p false (b.plus portion) else k

/-- R173, R191: the slot in force at the next boundary, as far as it is fixed: between carrier slots a pending request is. -/
def Stake.slotNext (k : Stake) : Nat :=
  match k.modu.req with
  | some (s, _, _) => if k.kindNow = 0 && k.slotKind s = 0 then s else k.slotNow
  | none => k.slotNow

/-- R173, R182: the depth limit published for the mode in force at the next boundary, in 2^-14. -/
def Stake.depthLimit (k : Stake) (c : Nat) : Nat :=
  let (lo, hi) := k.dutyLimits c
  if k.kindNow ≠ 0 then 18066
  else if k.inForceB (Reg.MOD_SLOT_OVM k.slotNext) && !k.inForceB Reg.MOD_KEEPOUT_KO_VALLEY && !k.inForceB Reg.MOD_KEEPOUT_KO_PEAK then 18066
  else ((hi - lo) / 1073741824).toNat

/-- R205: the firings of the trigger units at a carrier point R; instants before `from_` do not fire. -/
def Stake.addTriggers (k : Stake) (r from_ : Word48) (valley : Bool) (h : Int) : Stake :=
  [0, 1, 2, 3].foldl (fun q u =>
    let ref := q.inForce (Reg.MOD_TRIG_REF u)
    let ofs := (q.rdAct (Reg.MOD_TRIG_OFS u)).toInt
    if !q.inForceB (Reg.MOD_TRIG_EN u) || !(ref = 2 || ref = (if valley then 0 else 1)) then q
    else if h - 8 < iabs ofs then q.bump Reg.MOD_TRIG_SKIP_CNT
    else
      let t := r + w48 ofs
      if laterTick from_ t then q
      else q.onMod fun m => { m with trig := m.trig ++ [(u, ⟨t, q.inForce (Reg.MOD_TRIG_FINE u)⟩)] }) k

/-- R206: the epoch lock state changes: 0 off, 1 ACQUIRE, 2 LOCKED, 3 HOLDOVER. -/
def Stake.setEpoch (k : Stake) (st : Nat) : Stake :=
  let old := k.fld Reg.MOD_STATUS_EPOCH_STATE
  let k := k.put Reg.MOD_STATUS_EPOCH_STATE st
  if old ≠ 2 && st = 2 then k.post .modEpochLock 0
  else if old = 2 && st ≠ 2 then k.post .modEpochUnlock 0 [(k.rd Reg.MOD_EPOCH_ERR).toNat]
  else k

/-- R191, R206: the carrier starts again at a valley or a peak: no trim is carried over, the lock reacquires, and the point itself has
its triggers. -/
def Stake.restartCarrier (k : Stake) (at_ : Word48) (valley : Bool) : Stake :=
  let k := k.onMod fun m =>
    { m with run := true, start := none, peakAt := none, nextB := at_, nextValley := valley, trim := 0, trimNext := 0, err := 0, lockRun := 0 }
  let k := if k.inForceB Reg.MOD_EPOCH_CTRL_EN then k.setEpoch 1 else k
  k.addTriggers at_ at_ valley (k.modu.set.period / 2 : Nat)

/-- R187, R191, R192: the commutations of a phase that have not begun are taken back, since the pattern that committed them is not in
force any more (DESIGN CHOICE, log 187). -/
def Stake.dropCommitted (k : Stake) (x : Nat) : Stake :=
  let q := k.mport x
  let keep := q.recs.takeWhile fun r => r.ins || r.sym.on
  let gone := q.recs.drop keep.length
  let n := (gone.filter fun r => !r.ins && !r.sym.on).length
  let k := k.onPort x fun q => { q with recs := keep ++ gone.filter (·.ins), level := q.level != (n % 2 = 1) }
  (List.range n).foldl (fun k _ => k.onMod fun m =>
    { m with pat := { m.pat with edges := (m.pat.edges.reverse.eraseP fun e => e.2.1 = x).reverse } }) k

/-- R192: the forced exit from a pattern: the carrier of the fallback slot starts with a valley at the next tick, all duties one
half until a set is taken, in the format in force, which the AUX duty keeps. -/
def Stake.forceCarrier (k : Stake) (cls cause : Nat) : Stake :=
  let fb := k.inForce Reg.MOD_CTRL_FALLBACK_SLOT
  let f := k.modu.set
  let d := if f.dutyFmt = 1 then 16 * f.period else 32768
  let k := [0, 1, 2].foldl Stake.dropCommitted k
  let k := k.onMod fun m => { m with req := none, set := { m.set with form := 1, duty := [d, d, d] } }
  let k := (k.put Reg.MOD_STATUS_SLOT fb).put Reg.MOD_STATUS_KIND 0
  let k := k.restartCarrier (k.ang.tick + 1) true
  (((k.put Reg.MOD_STATUS_SLOT fb).put Reg.MOD_STATUS_KIND 0).putB Reg.MOD_STATUS_SEAM_PENDING false).post .modSyncAbort cls [cause]

/-- R192: the main clock went INVALID or its direction flag toggles while a pattern is in force. -/
def Stake.syncAbort (k : Stake) : Stake :=
  if k.carrierMode || !k.modu.run then k else k.forceCarrier 2 3

/-- R51, R192: a source reports its position not valid; a clock 0 that goes INVALID ends a pattern. -/
def Stake.loseSource (k : Stake) (src : Nat) : Stake :=
  let was := (k.clock 0).valid
  let k := k.srcLost src
  if was && !(k.clock 0).valid then k.syncAbort else k

/-- R464: the carrier stops at once: records of every port are discarded and every switch that is on goes off. -/
def Stake.stopCarrier (k : Stake) : Stake :=
  let k := [0, 1, 2, 3].foldl Stake.portQuiet k
  let k := k.onMod fun m => { m with run := false, start := none, peakAt := none, trig := [], auxEnd := none, auxOffAt := some k.ang.tick }
  (k.put Reg.MOD_NEXT_P_NEXT 0).put Reg.MOD_DEPTH_M_LIM 0

end Sys2Proof.Machine
end

