-- ==== Sys2Proof/Machine/PrtOps.lean ====
section
/-! DEFINITION. Shared operations of protection: the speed band, the resolver, the seizure of the leg ports and its release, the
DC-link ladder, the freshness timer (R277 to R305). -/
namespace Sys2Proof.Machine

/-- Changes the protection state. -/
def Stake.onPrt (k : Stake) (f : PrtState → PrtState) : Stake := { k with prt := f k.prt }

/-- Removes an event from the active set (R275, R307). -/
def Stake.endFault (k : Stake) (e : Ev) : Stake :=
  ((k.onPrt fun p => { p with active := p.active.filter fun a => a.post.ev ≠ e }).syncActive).updDerate

/-- |f_e| of a clock against a threshold in 1/16 Hz: at or above it. -/
def Clock.atLeast (c : Clock) (n : Nat) : Bool := (n : Int) * rev48 ≤ iabs c.omega * 16 * tickHz

/-- R283: the clock the band is taken from: main, else auxiliary, if VALID. -/
def Stake.bandClock (k : Stake) : Option Clock :=
  if (k.clock 0).valid then some (k.clock 0) else if (k.clock 1).valid then some (k.clock 1) else none

/-- R283: the band from a band and the present speed. -/
def Stake.bandFrom (k : Stake) (old : Nat) : Nat :=
  let na := k.inForce Reg.PLT_SPEED_BAND_N_ASC
  let lo := na - k.inForce Reg.PLT_SPEED_BAND_N_HYST
  match k.bandClock with
  | none => 2
  | some c =>
    if c.atLeast na then 1 else if !c.atLeast lo then 0 else if old = 2 then 1 else old

/-- R283: the plait brings its live band up to date. -/
def Stake.refreshBand (k : Stake) : Stake := k.onPrt fun p => { p with band := k.bandFrom p.band }

/-- R283: the plait writes the band into the sequencer's latch, unless it is halted; a resynchronisation holds the write (R317). -/
def Stake.writeLatch (k : Stake) : Stake :=
  if k.vote.halted then k
  else if k.vote.resync then k.hold .latch
  else
  let k := k.refreshBand
  ((k.put Reg.PLT_PS_STATUS_BAND k.prt.band).putB Reg.PLT_PS_STATUS_STALE false).onPrt fun p =>
    { p with latchAt := k.now, bandAt := k.now }

/-- The band the sequencer uses: its latch, UNKNOWN while stale (R285). -/
def Stake.latchBand (k : Stake) : Nat := if k.flag Reg.PLT_PS_STATUS_STALE then 2 else k.fld Reg.PLT_PS_STATUS_BAND

/-- R284: a safe-state side is available; `hs` for the high side. -/
def Stake.sideAvail (k : Stake) (hs : Bool) : Bool :=
  k.phasePorts.all fun p =>
    k.portReady p && !k.flag (if hs then Reg.LEG_PORT_STATUS_UV_HS p else Reg.LEG_PORT_STATUS_UV_LS p) &&
    !(k.flag (Reg.LEG_PORT_STATUS_LATCH p) && (k.flag (Reg.LEG_PORT_STATUS_OT p) || k.flag (Reg.LEG_PORT_STATUS_KA_LOST p))) &&
    !(if hs then (k.lport p).desat.1 else (k.lport p).desat.2) &&
    !(hs && k.inForceB (Reg.LEG_PORT_CFG_SUPPLY p))

/-- The side of a sub-state: 2 ASC_LOW, 3 ASC_HIGH. -/
def Stake.subAvail (k : Stake) (sub : Nat) : Bool := if sub = 2 then k.sideAvail false else if sub = 3 then k.sideAvail true else true

/-- R285 item 7: a wanted ASC with an unavailable side replaced. -/
def Stake.ascOr (k : Stake) (sub : Nat) : Nat :=
  if sub ≤ 1 then 1 else if k.subAvail sub then sub else if k.subAvail (5 - sub) then 5 - sub else 1

/-- R285: a switch of a side is identified on a present phase port. -/
def Stake.identSide (k : Stake) (hs : Bool) : Bool :=
  k.phasePorts.any fun p => (k.fld Reg.PLT_PS_STATUS_IDENT).testBit (if hs then 2 * p else 2 * p + 1)

/-- Why the resolver runs (R285). -/
structure Why where
  die : Bool := false
  short : Bool := false
  udcAbs : Bool := false
  fixed : Nat := 0

/-- The resolver of R285: the sub-state for a cause and a band. A stake that has yielded a PARALLEL pairing always takes SAFE_OFF
(R223). -/
def Stake.resolve (k : Stake) (w : Why) (band : Nat) : Nat :=
  let h := k.identSide true
  let l := k.identSide false
  let dflt := k.inForce Reg.PLT_PR_CTRL_STALE_DEFAULT
  let cur := k.fld Reg.PLT_PS_STATUS_SUBSTATE
  if w.die || (k.fld Reg.FLD_PAIR_STATUS_STATE = 5 && k.fld Reg.FLD_PAIR_CTRL_MODE = 1) then 1
  else if (h && l) || (w.short && !h && !l) then 1
  else if h || l then
    let sub := if h then 3 else 2
    if band = 1 && k.subAvail sub then sub
    else if band = 2 && 2 ≤ dflt && k.subAvail sub then sub
    else 1
  else if 2 ≤ cur && k.subAvail cur then cur
  else if w.udcAbs then 1
  else if w.fixed ≠ 0 then (if k.subAvail w.fixed then w.fixed else 1)
  else if band = 1 then k.ascOr (if k.inForceB Reg.PLT_PR_CTRL_ASC_SIDE then 3 else 2)
  else if band = 0 then 1
  else k.ascOr dflt

/-- Symbols of the sequencer's generator are put behind those waiting (R238). -/
def Stake.generate (k : Stake) (l : List GenSym) : Stake := k.onPrt fun p => { p with gen := p.gen ++ l }

/-- R238, R267: the earliest time of a pulse of the generator on a port: 60 ticks, 150 ns, after the leading edge of the last pulse on its
lanes, which is beyond the 48 of R195 too. -/
def Stake.genFrom (k : Stake) (p : Nat) : Nat :=
  match (k.lport p).pulse with
  | none => 0
  | some x => (k.lport p).lastPulse + 60 + (if x.2.1.fine = 0 then 0 else 1)

/-- The off symbols of a seized port that goes to a sub-state (R280): SOFT_OFF for a port whose own leg faulted; HS_OFF alone for ASC_LOW,
LS_OFF alone for ASC_HIGH; else HS_OFF and, 60 ticks on, LS_OFF. They start as early as the last pulse on the port allows. -/
def Stake.offSyms (k : Stake) (sub p : Nat) (soft : Bool) : List GenSym :=
  let t := max k.now (k.genFrom p)
  if soft then [⟨p, .softOff, t⟩]
  else if sub = 2 then [⟨p, .hsOff, t⟩]
  else if sub = 3 then [⟨p, .lsOff, t⟩]
  else [⟨p, .hsOff, t⟩, ⟨p, .lsOff, t + 60⟩]

/-- The time of the last of a list of symbols, from a time on. -/
def lastOf (t : Nat) (l : List GenSym) : Nat := l.foldl (fun b g => max b g.at_) t

/-- The modulation unit loses a port to the sequencer (R180, R238): its records go. A cut in force stays in force (R204). -/
def Stake.takePort (k : Stake) (p : Nat) : Stake :=
  (k.onPort p fun q => { q.discard with seized := true, resume := none }).put Reg.LEG_STATUS_SEIZED
    (k.fld Reg.LEG_STATUS_SEIZED ||| 2 ^ p)

/-- R281: the AUX port is seized too, unless it is kept; with SOFT_OFF where its own leg faulted (R280). -/
def Stake.takeAux (k : Stake) (soft : Bool := false) : Stake :=
  if !k.portPresent 3 || (k.mport 3).seized || (k.inForceB Reg.PLT_PR_CTRL_AUX_KEEP && !k.hasFault .chopperFault) then k
  else ((k.takePort 3).generate (k.offSyms 1 3 soft)).onMod fun m => { m with auxEnd := none, auxOffAt := some k.ang.tick }

/-- R280: ticks of `ASC_DELAY`. -/
def Stake.ascDelay (k : Stake) : Nat := 40 * k.inForce Reg.PLT_PS_TIMING_ASC_DELAY

/-- The event of a seizure or sub-state change (R286, R312), with the resolver's inputs: `band` is the band it took, the sequencer's
latch where none is given. -/
def Stake.postSafe (k : Stake) (band : Option Nat := none) : Stake :=
  (k.post .psSafeState 0 [k.fld Reg.PLT_PS_STATUS_SUBSTATE, k.fld Reg.PLT_PS_STATUS_CAUSE, band.getD k.latchBand,
    k.fld Reg.PLT_PS_STATUS_IDENT, k.prt.udc.toNat]).bump Reg.PLT_SEIZE_CNT

/-- R280, R286: the sequencer drives the phase ports into a sub-state. A first seizure sends off symbols to every present
phase port and, for an ASC, turn-on symbols `ASC_DELAY` after the last off symbol; a change from SAFE_OFF to an ASC sends the turn-on symbols
without waiting for more off symbols. The soft ports, and those whose own leg has faulted, receive SOFT_OFF. `aux` says that the AUX port is seized with them (R281): not by a
discharge outside SAFE, whose resistor it drives (R304, log 193). -/
def Stake.seizePorts (k : Stake) (sub cause : Nat) (soft : List Nat) (band : Option Nat := none) (aux : Bool := true) : Stake :=
  let first := !k.flag Reg.PLT_PS_STATUS_SEIZED
  let cur := k.fld Reg.PLT_PS_STATUS_SUBSTATE
  let ps := k.phasePorts
  let k := k.onPrt fun p => { p with releasing := false }
  let k := if !aux || (!k.hasFault .chopperFault && k.inForceB Reg.PLT_PR_CTRL_AUX_KEEP) then k else k.takeAux
  if !first && cur = sub then k
  else
    let k := (((ps.foldl Stake.takePort k).put Reg.PLT_PS_STATUS_CAUSE cause).put Reg.PLT_PS_STATUS_SUBSTATE sub).putB
      Reg.PLT_PS_STATUS_SEIZED true
    let offs := first || 2 ≤ cur
    let l := ps.flatMap fun p => k.offSyms sub p (soft.contains p || (k.fld Reg.PLT_PS_STATUS_LEG_FAULT).testBit p)
    let k := if offs then
        (k.onPrt fun p => { p with gen := p.gen.filter fun g => 3 ≤ g.port, lastOff := lastOf k.now l, ascDue := none }).generate l
      else k
    let k := k.onPrt fun p => { p with ascDue := if 2 ≤ sub then some (max k.now (p.lastOff + k.ascDelay)) else none }
    k.postSafe band

/-- The AUX pulse symbol of `AUX_SW` (R200). -/
def Stake.auxSym (k : Stake) (on : Bool) : Symb :=
  if k.inForceB (Reg.MOD_PORT_CFG_AUX_SW 3) then (if on then .lsOn else .lsOff) else (if on then .hsOn else .hsOff)

/-- Whether the AUX switch is on, or will be. -/
def Stake.auxOn (k : Stake) : Bool := (k.mport 3).onLater (!k.inForceB (Reg.MOD_PORT_CFG_AUX_SW 3))

/-- R200, R202, R291, R304: the AUX request of protection: chopper or discharge, masked by `CHOPPER_FAULT`. In CONST_OFF the switch
follows it. -/
def Stake.auxRequest (k : Stake) : Stake :=
  let r := (k.prt.chopReq || k.prt.disAux) && !k.hasFault .chopperFault
  let k := k.onMod fun m => { m with auxReq := r }
  if k.inForce (Reg.MOD_PORT_CFG_AUX_MODE 3) = 3 && (k.mport 3).cut.isNone then
    if r && !k.auxOn then k.schedule 3 (k.auxSym true) k.nowI
    else if !r && k.auxOn then k.schedule 3 (k.auxSym false) k.nowI else k
  else if k.hasFault .chopperFault && k.auxOn && !(k.mport 3).seized then
    (k.portOff 3 false).onMod fun m => { m with auxEnd := none, auxOffAt := some k.ang.tick }
  else k

/-- What ends when an axis goes to SAFE: a STOP, an injection (R288, R305). A discharge still in its ramp runs on inside SAFE (R290,
R304): its ramp is over, and with a resistor its AUX request stands. -/
def Stake.endDrive (k : Stake) : Stake :=
  let resist : Bool := match k.prt.discharge with | some d => d.ramping && d.mode = 1 | none => false
  let k := (k.putB Reg.PLT_AXIS_STATE_STOP_PENDING false).onPrt fun p =>
    { p with
      discharge := p.discharge.map fun d => { d with injecting := false, ramping := false }
      disAux := p.disAux || resist }
  if resist then k.auxRequest else k

/-- A seizure that takes the axis to SAFE (R288); NOT_READY stays. -/
def Stake.seizeSafe (k : Stake) (sub cause : Nat) (soft : List Nat := []) (band : Option Nat := none) : Stake :=
  let k := k.seizePorts sub cause soft band
  if k.axis = axNotReady then k else (k.endDrive.setAxis axSafe sub).syncActive

/-- R297: the resolver runs for a short circuit with the `SHORT` flags reported. -/
def Stake.scResolve (k : Stake) : Stake :=
  match k.prt.episode with
  | none => k
  | some e => k.seizeSafe (k.resolve { short := true, die := e.die } k.latchBand) e.cause

/-- R297: `SHORT` flags that arrive after the decision make the resolver run again. -/
def Stake.lateShort (k : Stake) : Stake :=
  match k.prt.episode with
  | some e => if e.decided && k.axis = axSafe then k.scResolve else k
  | none => k

/-- R282: the seizure is to be released at the next transfer boundary. -/
def Stake.release (k : Stake) : Stake := k.onPrt fun p => { p with releasing := true, ascDue := none }

/-- R282: the release takes effect at a boundary, and the resumption rule of R204 applies from there. -/
def Stake.releaseNow (k : Stake) (b : Word48) : Stake :=
  if !k.prt.releasing then k
  else
    let k := k.onPrt fun p => { p with releasing := false, gen := p.gen.filter fun g => !(k.mport g.port).seized }
    let k := [0, 1, 2, 3].foldl (fun q p =>
      if (q.mport p).seized then
        let at_ := ((q.mport p).lastSym).getD ⟨b, 0⟩
        let q := q.onPort p fun r => { r with seized := false }
        if (q.mport p).cut.isSome then q else q.resumeFrom p at_ b
      else q) k
    ((k.put Reg.LEG_STATUS_SEIZED 0).putB Reg.PLT_PS_STATUS_SEIZED false).put Reg.PLT_PS_STATUS_SUBSTATE 0

/-- R291 step 3, R293: the regeneration clamp for its causes; `REGEN_CLAMP` is posted once per cause. -/
def Stake.clampUpd (k : Stake) (u : Int) : Stake :=
  let fault := k.hasFault .chopperFault
  let lim := (k.inForce Reg.PLT_UDC_REGEN_REGEN_LIMIT : Int) ≤ u
  let c0 := k.prt.clamp
  let post := fun (q : Stake) (bit cause : Nat) =>
    (q.onPrt fun p => { p with clamp := p.clamp ||| bit }).post .regenClamp 0 [cause]
  let k := if fault && !c0.testBit 0 then post k 1 1 else k
  let k := if lim && !c0.testBit 1 then post k 2 2 else k
  let k := if !fault && u < k.inForce Reg.PLT_UDC_REGEN_REGEN_REL then k.onPrt fun p => { p with clamp := 0 } else k
  k.putB Reg.PLT_AXIS_STATE_REGEN_CLAMP (k.prt.clamp ≠ 0)

/-- R291 to R293: one evaluation of the ladder. `us` are the usable DC-link values in 1/16 V; with none the last value holds. -/
def Stake.ladder (k : Stake) (us : List Int) : Stake :=
  let u := match us with | [] => k.prt.udc | a :: t => t.foldl max a
  let k := k.onPrt fun p => { p with udcPrev := p.udc, udc := u }
  let en := k.inForceB Reg.PLT_CHOP_CFG_CHOP_EN
  let on := en && (k.prt.chopReq && (k.inForce Reg.PLT_UDC_CHOP_CHOP_OFF : Int) ≤ u || (k.inForce Reg.PLT_UDC_CHOP_CHOP_ON : Int) ≤ u)
  let rise := on && !k.prt.chopReq
  let quiet := match k.prt.chopLast with | none => true | some t => t + 40000000 < k.now
  let k := if rise && quiet then k.post .udcChopOn 0 [u.toNat] else k
  let k := k.onPrt fun p =>
    { p with
      chopReq := on
      chopLast := if on || p.chopReq then some k.now else p.chopLast
      check := if rise then some (none, 0) else if !on then none else p.check }
  -- R292: two successive values that each fall pass the check once its time runs.
  let k := match k.prt.check with
    | some (some t0, n) =>
      let n' := if u < k.prt.udcPrev then n + 1 else 0
      k.onPrt fun p => { p with check := if 2 ≤ n' then none else some (some t0, n') }
    | _ => k
  let k := (k.auxRequest).clampUpd u
  let asc := (k.inForce Reg.PLT_UDC_TRIP_UDC_ASC : Int) ≤ u
  let k := if asc && !k.prt.ascLatched then k.post .udcAscTrip 3 [u.toNat, k.prt.band] else k
  k.onPrt fun p => { p with ascLatched := asc }

/-- R292: an output of the chopper current channel above `I_CHK` passes the check. -/
def Stake.chopCurrent (k : Stake) (i : Int) : Stake :=
  match k.prt.check with
  | some (some _, _) => if (k.inForce Reg.PLT_CHOP_CFG_I_CHK : Int) * 4294967296 < i then k.onPrt fun p => { p with check := none } else k
  | _ => k

/-- R305: a discharge ends: the AUX request is released, the axis enters OFF or stays SAFE, a hold of the discharge ends at the next
boundary. -/
def Stake.endDischarge (k : Stake) : Stake :=
  match k.prt.discharge with
  | none => k
  | some d =>
    let k := (k.onPrt fun p => { p with discharge := none, disAux := false }).auxRequest
    let k := if d.injecting then k.leaveSwitching else k
    if k.axis = axDischarge then
      let k := k.setAxis axOff 0
      if d.holding then k.release else k
    else k

/-- R305: a complete discharge ends and is reported. -/
def Stake.finishDischarge (k : Stake) : Stake :=
  match k.prt.discharge with
  | none => k
  | some d => k.endDischarge.post .dischargeDone 0 [k.prt.udc.toNat, k.now - d.start]

/-- R305: before a pass: an injection whose zero-current pass has run ends; one that is complete marks this pass as that pass. -/
def Stake.dischargePass (k : Stake) : Stake :=
  match k.prt.discharge with
  | none => k
  | some d =>
    if !d.injecting || d.ending = 0 then k
    else if d.ending = 1 then k.onPrt fun p => { p with discharge := some { d with ending := 2 } }
    else k.finishDischarge

/-- R305: a new u_dc counts toward completion; an injection first runs one pass with zero current. Outside DISCHARGE, where injection
does not run, the discharge only counts its time (R304). -/
def Stake.dischargeCount (k : Stake) : Stake :=
  match k.prt.discharge with
  | none => k
  | some d =>
    let n := if k.prt.udc < k.inForce Reg.PLT_DIS_CFG_DIS_TARGET then d.below + 1 else 0
    let k := k.onPrt fun p => { p with discharge := some { d with below := n } }
    if n < 2 || d.ramping || d.unserved || (d.mode = 2 && k.axis ≠ axDischarge) then k
    else if d.injecting then k.onPrt fun p => { p with discharge := some { d with below := n, ending := max 1 d.ending } }
    else k.finishDischarge

/-- R303, R304: the discharge acts, its ramp to zero being over. -/
def Stake.dischargeAct (k : Stake) : Stake :=
  match k.prt.discharge with
  | none => k
  | some d =>
    let k := k.onPrt fun p => { p with discharge := some { d with ramping := false } }
    let k := if d.mode = 1 then (k.onPrt fun p => { p with disAux := true }).auxRequest else k
    if k.axis = axSafe then k
    else
      let k := (k.setAxis axDischarge 0).putB Reg.PLT_AXIS_STATE_STOP_PENDING false
      let k := k.leaveSwitching.seizePorts (k.resolve {} k.latchBand) 10 [] none false
      k.onPrt fun p => { p with discharge := p.discharge.map fun x => { x with holding := true } }

/-- R304: injection releases its hold once the main clock is VALID and slow. -/
def Stake.injectionRelease (k : Stake) : Stake :=
  match k.prt.discharge with
  | none => k
  | some d =>
    if d.mode = 2 && !d.injecting && !d.ramping && k.axis = axDischarge && (k.clock 0).valid &&
        !(k.clock 0).atLeast (k.inForce Reg.PLT_DIS_TIME_DIS_SPEED) then
      let k := (k.onPrt fun p => { p with discharge := some { d with injecting := true, holding := false } }).release
      { k with fe := { k.fe with flying := true, tStar := 0 } }.enterSwitching
    else k

/-- R303: the ramp before a discharge by command is over once T* is zero. -/
def Stake.rampEnd (k : Stake) : Stake :=
  match k.prt.discharge with
  | some d => if d.ramping && k.fe.tStar = 0 then k.dischargeAct.injectionRelease else k
  | none => k

/-- R303: a discharge starts, from a command or from the ball; from RUN or DERATE a command ramps T* to zero first. One that runs already
is the one that was started. -/
def Stake.dischargeStart (k : Stake) (byReq : Bool) : Stake :=
  if k.prt.discharge.isSome then k
  else
    let ramp := !byReq && k.axisIn [axRun, axDerate]
    let d : Discharge := { mode := k.inForce Reg.PLT_DIS_CFG_DIS_MODE, start := k.now, byReq := byReq, ramping := ramp }
    let k := k.onPrt fun p => { p with discharge := some d }
    if ramp then (k.putB Reg.PLT_AXIS_STATE_STOP_PENDING true).syncActive else k.dischargeAct

/-- R301: the freshness timer restarts. -/
def Stake.refreshHost (k : Stake) : Stake := k.onPrt fun p => { p with freshAt := k.now }

/-- R301: a DRIVE descriptor has been applied: the stages end, and `HOST_STALE` leaves the set. -/
def Stake.driveApplied (k : Stake) : Stake :=
  let k := (k.refreshHost).put Reg.PLT_AXIS_STATE_FRESH 0
  if k.hasFault .hostStale then k.endFault .hostStale else k

end Sys2Proof.Machine
end

