-- ==== Sys2Proof/Machine/PairOps.lean ====
section
/-! DEFINITION. Shared operations of pairing: the roles, the break and its outcomes, the survivor, the confirmation (R210 to R226). -/
namespace Sys2Proof.Machine

/-- Changes the pairing state. -/
def Stake.onPair (k : Stake) (f : PairState → PairState) : Stake := { k with pair := f k.pair }

/-- `STATE` of `FLD_PAIR_STATUS`: 0 UNPAIRED, 1 STARTING, 2 PAIRED, 3 HOLD, 4 HALF, 5 YIELDED. -/
def Stake.pairSt (k : Stake) : Nat := k.fld Reg.FLD_PAIR_STATUS_STATE

/-- R210: the even-numbered stake leads. -/
def Stake.leads (k : Stake) : Bool := k.id % 2 = 0

/-- R1, R210: the partner's number. -/
def partnerOf (n : Nat) : Nat := if n % 2 = 0 then n + 1 else n - 1

/-- A PAIRED leader or follower. -/
def Stake.pairedLeader (k : Stake) : Bool := k.pairSt = 2 && k.leads
def Stake.pairedFollower (k : Stake) : Bool := k.pairSt = 2 && !k.leads

/-- `MODE`: 1 PARALLEL, 2 DUAL3. -/
def Stake.pairMode (k : Stake) : Nat := k.fld Reg.FLD_PAIR_CTRL_MODE

/-- R213: ⌊2^46/3⌋, the 30° by which a DUAL3 follower's angle lags. -/
def shift30 : Word48 := 0x155555555555

/-- R218: the shift of the follower's angles. -/
def Stake.pairShift (k : Stake) : Word48 := if k.pairMode = 2 then shift30 else 0

/-- R25: a direct link to the partner is up; on a TRN2 either of the two links is direct. -/
def Stake.directUp (k : Stake) : Bool :=
  if k.ringN = 2 then k.dirUp .asc || k.dirUp .dsc else k.dirUp (if k.leads then .asc else .dsc)

/-- An event record to the partner (R223, R225): a `KIND` 9 cell. -/
def Stake.toPartner (k : Stake) (tag : Nat) (w : List Nat) : Stake := k.sendCell (k.cell (partnerOf k.id) 0 9 tag w)

/-- R46, R51: whether a source reports a valid position: 0 to 3 are those of POS, 4 is the observer, 5 the leader's clock. -/
def Stake.srcValid (k : Stake) (src : Nat) : Bool :=
  if src ≤ 3 then k.flag (Reg.POS_SRC_STATUS_VALID src)
  else if src = 4 then k.fe.obsValid else src = 5 && k.pair.clockValid

/-- R224: a surviving follower's main clock goes over to `ALT_SRC`; it is loaded from the next measurement under R52. -/
def Stake.takeAltSrc (k : Stake) : Stake :=
  let was := (k.clock 0).valid
  let k := (k.put (Reg.ANG_CLK_CTRL_SRC 0) (k.fld Reg.FLD_PAIR_CTRL_ALT_SRC)).onClock 0 fun c => { c with valid := false, mail := [], next := none }
  if was then k.syncAbort else k

/-- R223 to R225: a survivor: HALF in DUAL3; in PARALLEL first HOLD, with off symbols to all its legs. -/
def Stake.survive (k : Stake) : Stake :=
  let k := if k.leads then k else k.takeAltSrc
  if k.pairMode = 1 then
    ((k.put Reg.FLD_PAIR_STATUS_STATE 3).leaveSwitching).onPair fun p => { p with holdAt := some k.now }
  else (k.put Reg.FLD_PAIR_STATUS_STATE 4).updDerate

/-- R223: a yielding stake takes its own fault's safe state, or `HALF_SAFE`; in PARALLEL always SAFE_OFF. -/
def Stake.yieldPair (k : Stake) (own : Bool) : Stake :=
  let k := (k.put Reg.FLD_PAIR_STATUS_STATE 5).onPair fun p => { p with confirmed := false, offSeen := 0 }
  let h := k.fld Reg.FLD_PAIR_CTRL_HALF_SAFE
  let fixed := if k.pairMode = 1 then 1 else if h = 3 then 0 else h + 1
  if own then k else k.onPrt fun p => { p with f3 := p.f3 ++ [⟨.pairBreak, fixed, k.now, 2 ≤ k.fld Reg.PLT_VOTE_STATUS_MODE⟩] }

/-- R223: a follower that could survive a leader fault: `TAKEOVER`, and a valid `ALT_SRC`. -/
def Stake.canTakeOver (k : Stake) : Bool := k.flag Reg.FLD_PAIR_CTRL_TAKEOVER && k.srcValid (k.fld Reg.FLD_PAIR_CTRL_ALT_SRC)

/-- R223: the stake's own row for a break of a cause. The event carries the cause, both consecutive counts, and the pairing states that
this stake and its partner take. -/
def Stake.breakRow (k : Stake) (cause : Nat) : Stake :=
  if k.pairSt ≠ 2 && k.pairSt ≠ 1 then k
  else
    let consec := k.fld Reg.FLD_PAIR_STATUS_CONSEC
    let other := if cause = 5 then k.leads && k.pair.seen.2 else !k.leads
    let otherSt := if !other then 5 else if k.pairMode = 1 then 3 else 4
    let survivor := if cause = 5 then !k.leads && k.canTakeOver else k.leads
    let k := ((k.putB Reg.FLD_PAIR_STATUS_BROKEN true).put Reg.FLD_PAIR_STATUS_BREAK_CAUSE cause).onPair fun p =>
      { p with lastBreak := cause, returned := none, frames := [], held := false }
    let k := if survivor then k.survive else k.yieldPair (cause = 5 && k.leads)
    k.post .pairBreak (if survivor then 1 else 0) [cause, consec, k.pair.seen.1, k.pairSt, otherSt]

/-- R223: the stake that detects a break takes its own row and tells its partner. -/
def Stake.detectBreak (k : Stake) (cause : Nat) : Stake :=
  if k.pairSt ≠ 2 && k.pairSt ≠ 1 then k else (k.breakRow cause).toPartner 1 [cause]

/-- R222 item 3, R223: a fault local to this stake breaks the pairing: cause 5 on the leader, 4 on the follower. -/
def Stake.localBreak (k : Stake) : Stake := k.detectBreak (if k.leads then 5 else 4)

/-- R222 item 2: the F3 reactions that are the unit's, not one stake's. -/
def unitFault (e : Ev) : Bool :=
  match e with
  | .torqueMon | .tmonTable | .udcAscTrip | .hostLoss | .fldPassLoss | .fldSampleLoss | .motorMismatch | .walTickSkew => true
  | _ => false

end Sys2Proof.Machine
end

