-- ==== Sys2Proof/Machine/FldOps.lean ====
section
/-! DEFINITION. The stages of a field pass as functions of their inputs (R131 to R164). Each stage answers its results with the
truth of "something saturated in this stage" (R132). -/
namespace Sys2Proof.Machine

/-- A parameter in force, Q4.44 (R165). -/
def Stake.par (k : Stake) (i : Nat) : Int := (k.act48 (fldParamOff i)).toInt

/-- Exact sum rounded from units of 2^-88 to Q4.44, not yet saturated (R131). -/
def rnd88 (x : Int) : Int := divNear x 17592186044416

/-- R131: the exact sum of exact products of up to four Q4.44 factors, rounded once; the caller saturates. -/
def acc (l : List (List Int)) : Int :=
  divNear ((l.map fun t => t.foldl (· * ·) 1 * one44 ^ (4 - t.length)).foldl (· + ·) 0) (17592186044416 ^ 3)

/-- R131: a pair of results saturated. -/
def sat2 (v : Int × Int) : Int × Int := (sat48 v.1, sat48 v.2)

/-- Some of the results leave the range (R132). -/
def sats (l : List Int) : Bool := l.any over48

/-- ω_pu of a speed in counts per tick (R133). -/
def Stake.perUnit (k : Stake) (w : Int) : Int := divNear (w * 6400000000) (k.inForce Reg.FLD_BASE_F_F_BASE)

/-- Counts per tick of a per-unit speed (R133). -/
def Stake.countsOf (k : Stake) (w : Int) : Int := divNear (w * k.inForce Reg.FLD_BASE_F_F_BASE) 6400000000

/-- Δ: an interval in ticks as per-unit time (R133): n × 2.5 ns × 2π × F_BASE/256. -/
def Stake.perUnitTime (k : Stake) (n : Nat) : Int :=
  divNear (n * k.inForce Reg.FLD_BASE_F_F_BASE * twoPi80) (68719476736 * 256 * 400000000)

/-- A rate per millisecond times an interval in ticks. -/
def perMs (rate : Int) (n : Nat) : Int := divNear (rate * n) 400000

/-- A word of a table in a bank: 48 bits, signed (R166). -/
def Stake.tblWord (k : Stake) (bank off : Nat) : Int :=
  let o := bank * 0x1000000 + off
  (BitVec.ofNat 48 ((Store.get (fun _ => 0) k.tbl (o + 4)).toNat % 65536 * 4294967296 + (Store.get (fun _ => 0) k.tbl o).toNat)).toInt

/-- The active bank of a table of the field engine (R166). -/
def Stake.fldBank (k : Stake) (t : Nat) : Nat := if (k.fld Reg.FLD_TBL_CTRL_ACTIVE).testBit t then 1 else 0

/-- Bilinear interpolation of a pair of words of a table: base offset, rows of `w` entries. -/
def Stake.bilinear (k : Stake) (bank base w : Nat) (a b : Nat × Int) : Int × Int :=
  let at_ := fun (c j i : Nat) => k.tblWord bank (base + 16 * (w * j + i) + 8 * c)
  let mix := fun (c : Nat) =>
    let lo := at_ c a.1 b.1 * (one44 - b.2) + at_ c a.1 (b.1 + 1) * b.2
    let hi := at_ c (a.1 + 1) b.1 * (one44 - b.2) + at_ c (a.1 + 1) (b.1 + 1) * b.2
    divNear (lo * (one44 - a.2) + hi * a.2) (17592186044416 * 17592186044416)
  (mix 0, mix 1)

/-- R146: the current table at a torque and a flux limit. -/
def Stake.curTable (k : Stake) (t psi : Int) : Int × Int :=
  k.bilinear (k.fldBank 0) 0xA0000 17 (gridAt t (-(k.par 17)) (k.par 17) 32) (gridAt psi (k.par 15) (k.par 16) 16)

/-- R153: the flux table at a current, from a bank. -/
def Stake.fluxAt (k : Stake) (bank : Nat) (id iq : Int) : Int × Int :=
  k.bilinear bank 0xA4000 17 (gridAt iq (-(k.par 37)) (k.par 37) 16) (gridAt id (-(k.par 37)) 0 16)

/-- ψ_d,map and ψ_q,map (R153). -/
def Stake.fluxMap (k : Stake) (id iq : Int) : Int × Int := k.fluxAt (k.fldBank 1) id iq

/-- T_mag in 1/16 °C (R157). -/
def Stake.magTemp (k : Stake) : Int :=
  let s := k.inForce Reg.FLD_MM_CFG_MAG_TEMP_SRC
  if s = 0 then signOf 16 (k.fld Reg.FLD_MAG_TEMP_MAG_TEMP)
  else signOf 16 (k.fld (Reg.THM_SENS_READ_TEMP (s - 1)))

/-- ψ_PM(T) (R157). -/
def Stake.psiPM (k : Stake) : Int :=
  divNear (k.par 9 * (16 * one44 + k.par 10 * (k.magTemp - 320))) 281474976710656

/-- R140: αβ of three phase currents. -/
def clarke (u v w : Int) : Int × Int := (divNear (2 * u - v - w) 3, divNear ((v - w) * 10156853348378) 17592186044416)

/-- A pair times a real number in Q4.44. -/
def scale2 (g : Int) (v : Int × Int) : Int × Int := (mul44 g v.1, mul44 g v.2)

/-- Sum and difference of pairs. -/
def add2 (a b : Int × Int) : Int × Int := (a.1 + b.1, a.2 + b.2)
def sub2 (a b : Int × Int) : Int × Int := (a.1 - b.1, a.2 - b.2)
def conj2 (a : Int × Int) : Int × Int := (a.1, -a.2)

/-- R213: the main plane and the harmonic plane of six currents, U, V, W of the leader's set and of the follower's: the exact sums
(1/3) Σ i_k e^(jγ_k) and (1/3) Σ i_k e^(j5γ_k). -/
def sixPhase (a b : List Int) : (Int × Int) × (Int × Int) :=
  let u := nth 0 a 0; let v := nth 0 a 1; let w := nth 0 a 2
  let x := nth 0 b 0; let y := nth 0 b 1; let z := nth 0 b 2
  let s3 : Int := 30470560045132
  let sixth := fun (n : Int) => divNear n 105553116266496
  let p := (2 * u - v - w) * one44
  let q := (x + y - 2 * z) * one44
  ((sixth (p + s3 * (x - y)), sixth (q + s3 * (v - w))), (sixth (p - s3 * (x - y)), sixth (q - s3 * (v - w))))

/-- A pair turned by 30°, by −30°, and by 150° (R213). -/
def rot30 (v : Int × Int) : Int × Int := (rnd88 (v.1 * sqrt3half - v.2 * 8796093022208), rnd88 (v.1 * 8796093022208 + v.2 * sqrt3half))
def rotM30 (v : Int × Int) : Int × Int := (rnd88 (v.1 * sqrt3half + v.2 * 8796093022208), rnd88 (v.2 * sqrt3half - v.1 * 8796093022208))
def rot150 (v : Int × Int) : Int × Int :=
  (rnd88 (-(v.1 * sqrt3half) - v.2 * 8796093022208), rnd88 (v.1 * 8796093022208 - v.2 * sqrt3half))

/-- What the sample assembly finds on a set of channels (R137): the row, 1 to 7. -/
def Stake.sampleRow (k : Stake) (chans : List Nat) (qual : List Nat) (stale : Bool) : Nat :=
  let q := fun c => nth 0 qual c
  if chans.any fun c => k.flag (Reg.SNS_CH_STATUS_UNAVAIL c) || (q c).testBit 0 then 1
  else if chans.any fun c => (q c).testBit 3 then 2
  else if stale then 3
  else if chans.any fun c => (q c).testBit 1 then 4
  else if chans.any fun c => (q c).testBit 2 then (if k.inForceB Reg.FLD_CTRL_TAINT_USE then 5 else 6)
  else 7

/-- R84: volts in 1/16 V. -/
def Stake.volts (k : Stake) (c : Nat) (y : Int) : Int :=
  clampI (-32768) 32767 (divNear (y * k.fld (Reg.SNS_CH_VOLT_SCALE_VOLT_SCALE c) * 16) 17592186044416)

/-- R139: a DC-link sample with these qualifiers is unusable: its set would fall in rows 1, 2 or 4 of R137, or it has no volts; row 3 is
`Stake.udcStale`. -/
def Stake.dcBad (k : Stake) (c qual : Nat) : Bool :=
  k.flag (Reg.SNS_CH_STATUS_UNAVAIL c) || (qual % 16) &&& 11 ≠ 0 || k.fld (Reg.SNS_CH_VOLT_SCALE_VOLT_SCALE c) = 0

/-- R291: the last decimator output of a DC-link channel is unusable. -/
def Stake.udcBad (k : Stake) (c : Nat) : Bool := k.dcBad c (nth {} k.sns.chans c).qual

/-- R79: the latest complete set of a channel's group. -/
def Stake.chanSet (k : Stake) (c : Nat) : Option SampleSet := (nth {} k.sns.groups (k.inForce (Reg.SNS_CH_CFG_GROUP c))).latest

/-- R79, R139: a channel's sample in that set, and its qualifiers; none where the set holds no sample of it. -/
def Stake.setSample (k : Stake) (c : Nat) : Option (Int × Nat) :=
  match k.chanSet c with
  | some s => if s.chans.contains c then some (nth 0 s.y c, nth 0 s.qual c) else none
  | none => none

/-- R139: the sample of a DC-link channel in the latest set is unusable, its age apart. -/
def Stake.udcSetBad (k : Stake) (c : Nat) : Bool := match k.setSample c with | some (_, q) => k.dcBad c q | none => true

/-- The sequence number of that set. -/
def Stake.chanSeq (k : Stake) (c : Nat) : Option Nat := (k.chanSet c).map (·.seq)

/-- R137 row 3, R139: there is no set with the ith DC-link channel's sample since the previous pass. -/
def Stake.udcStale (k : Stake) (c i : Nat) : Bool :=
  (k.chanSeq c).isNone || (k.fe.prev.isSome && k.chanSeq c = nth none k.fe.udcSeq i)

/-- R79, R84, R133: the per-unit DC-link voltage of a channel: the volts of its sample in the latest set, in 1/16 V, against U_BASE in
1/16 V. -/
def Stake.udcPu (k : Stake) (c : Nat) : Int :=
  divNear (k.volts c ((k.setSample c).getD (0, 0)).1 * one44) (k.inForce Reg.FLD_BASE_U_U_BASE)

/-- R138: currents predicted from the previous pass. -/
def Stake.predict (k : Stake) (p : PrevPass) (dt : Int) : Int × Int :=
  let rs := k.par 6; let ld := k.par 7; let lq := k.par 8
  let ed := acc [[dt, p.vd], [-dt, rs, p.id], [dt, p.omega, lq, p.iq]]
  let eq := acc [[dt, p.vq], [-dt, rs, p.iq], [-dt, p.omega, ld, p.id], [-dt, p.omega, k.psiPM]]
  (p.id + div44 ed ld, p.iq + div44 eq lq)

/-- R141: the first boundary at which a set closed at a tick is taken, given the next boundary and the period. -/
def nextTaken (close nb : Word48) (per guard : Nat) : Word48 :=
  let need := close + BitVec.ofNat 48 guard
  if !laterTick need nb then nb
  else
    let d := (need - nb).toNat
    nb + BitVec.ofNat 48 ((d + per - 1) / max per 1 * per)

/-- R151, R215: the voltage limit u_max, before saturation. -/
def Stake.uMaxRaw (k : Stake) (udc : Int) : Int :=
  let m := min (k.par 11) ((k.fld Reg.MOD_DEPTH_M_LIM : Int) * 1073741824)
  acc [[m, udc, 10156853348378], [if k.pairedLeader then -(k.par 41) else 0]]
def Stake.uMax (k : Stake) (udc : Int) : Int := sat48 (k.uMaxRaw udc)

/-- R131: the square root of an exact difference of squares. -/
def sqrtDiff (a b : Int) : Int := if a * a ≤ b * b then 0 else (isqrt (a * a - b * b).toNat : Int) + near42 1 (a * a) (b * b)

/-- R151: a voltage vector limited. -/
def Stake.vLimit (k : Stake) (v : Int × Int) (um : Int) : (Int × Int) × Bool :=
  let n := hyp44 v.1 v.2
  if n ≤ um then (v, false)
  else if !k.inForceB Reg.FLD_CTRL_VLIM_MODE then
    (scale2 (div44 um n) v, true)
  else if iabs v.1 ≤ um then
    let r := sqrtDiff um v.1
    ((v.1, if v.2 < 0 then -r else r), true)
  else ((if v.1 < 0 then -um else um, 0), true)

/-- R148: the current limit in force: `I_LIMIT`, a thermal limit of this stake or the follower, half of a broken PARALLEL pair. -/
def Stake.iLim (k : Stake) : Int :=
  let l := k.par 18
  let l := if k.fld Reg.THM_STATUS_ENFORCED ≠ 0 then min l ((k.fld Reg.THM_STATUS_I_THERM : Int) * 4294967296) else l
  let l := match k.pair.therm with | some t => if k.pairSt = 2 then min l ((t : Int) * 4294967296) else l | none => l
  if k.pairSt = 4 && k.pairMode = 1 then min l (divNear (k.par 18 * k.inForce Reg.FLD_PAIR_LIMITS_HALF_I) 256) else l

/-- R148: current references limited. -/
def iLimit (l : Int) (i : Int × Int) : (Int × Int) × Bool :=
  if hyp44 i.1 i.2 ≤ l then (i, false)
  else if iabs i.1 ≤ l then
    let r := sqrtDiff l i.1
    ((i.1, if i.2 < 0 then -r else r), true)
  else ((if i.1 < 0 then -l else l, 0), true)

/-- R143: some link of a chain of torques reduces the magnitude of the torque it takes. -/
def reduces : List Int → Bool
  | a :: b :: t => iabs b < iabs a || reduces (b :: t)
  | _ => false

/-- R144: the torque chain's links 2 to 6 after the slew: the torque, the code of the last link that acted, and whether one of links
1 to 6 reduced the torque's magnitude. -/
def Stake.torqueChain (k : Stake) (cmd slewed : Int) (ms : Nat) : Int × Nat × Bool × Stake :=
  let c1 : Nat := if slewed ≠ cmd then 1 else 0
  let tmax := k.par 19; let tmin := k.par 20
  let t2 := clampI tmin tmax slewed
  let c2 := if t2 ≠ slewed then 2 else c1
  let fac : Int := if k.hasClass 1 then k.fld Reg.PLT_F1_FACTOR_F1_FACTOR else 256
  let t3 := clampI (divNear (tmin * fac) 256) (divNear (tmax * fac) 256) t2
  let c3 := if t3 ≠ t2 then 3 else c2
  let hf : Int := k.inForce Reg.FLD_PAIR_LIMITS_HALF_T
  let t4 := if k.pairSt = 4 && k.pairMode = 2 then clampI (divNear (tmin * hf) 256) (divNear (tmax * hf) 256) t3 else t3
  let c4 := if t4 ≠ t3 then 4 else c3
  let ramping := k.flag Reg.PLT_AXIS_STATE_F2_RAMP
  let start := match k.prt.ramp with | some r => r | none => (iabs k.fe.tStar, k.now)
  let k := k.onPrt fun p => { p with ramp := if ramping then some start else none }
  let bound := max 0 (start.1 - perMs (k.par 22) (k.now - start.2 + ms))
  let t5 := if ramping then clampI (-bound) bound t4 else t4
  let c5 := if t5 ≠ t4 then 5 else c4
  let t6 := if k.flag Reg.PLT_AXIS_STATE_REGEN_CLAMP then (if (k.clock 0).rev then min t5 0 else max t5 0) else t5
  let c6 := if t6 ≠ t5 then 6 else c5
  (t6, c6, reduces [cmd, slewed, t2, t3, t4, t5, t6], k)

/-- R153, R154: the stator-flux observer, one step: old flux, applied voltage, current, current-model flux. -/
def Stake.obsStep (k : Stake) (dt : Int) (psi v i cm : Int × Int) : Int × Int :=
  let rs := k.par 6; let xo := k.par 26
  let one := fun (p v i c : Int) => acc [[p], [dt, v], [-dt, rs, i], [dt, xo, c], [-dt, xo, p]]
  (one psi.1 v.1 i.1 cm.1, one psi.2 v.2 i.2 cm.2)

/-- One step of a phase-locked loop of a bandwidth on a target angle (R155, R162). -/
def pllStep (bw : Int) (n : Nat) (th : Word48) (w : Int) (target : Word48) : Word48 × Int :=
  (w48 (Config.pllTheta bw n th.toNat w target.toNat), Config.pllOmega bw n th.toNat w target.toNat)

/-- R165, R167: some staged value of the field engine awaits its commit or `APPLY`. -/
def Stake.fldStaged (k : Stake) : Bool :=
  let ne := fun (o : Nat) => k.rd o != k.rdAct o
  ((k.rd Reg.FLD_CTRL ^^^ k.rdAct Reg.FLD_CTRL) &&& 0x7F8F00) != 0 ||
  ((List.range 10).any fun i => 0x40010 + 4 * i ≠ Reg.FLD_MAG_TEMP && ne (0x40010 + 4 * i)) ||
  ((List.range 84).any fun i => ne (0x40100 + 4 * i))

/-- `FLD_STATUS.STAGED` follows the staged values. -/
def Stake.fldSync (k : Stake) : Stake := k.putB Reg.FLD_STATUS_STAGED k.fldStaged

/-- A stream item is offered to the packer (R371). -/
def Stake.offer (k : Stake) (o : Offer) : Stake := { k with offers := k.offers ++ [o] }

/-- A completion leaves for the anchor (R363). -/
def Stake.complete (k : Stake) (c : Completion) : Stake := { k with done := k.done ++ [c] }

/-- The value of a channel in the latest sample set of its group (R79). -/
def Stake.chanY (k : Stake) (c : Nat) : Int :=
  match (nth {} k.sns.groups (k.inForce (Reg.SNS_CH_CFG_GROUP c))).latest with
  | some s => nth 0 s.y c
  | none => 0

/-- Two bytes, low first. -/
def bytes2 (n : Nat) : List Nat := [n % 256, n / 256 % 256]

/-- Six bytes, low first. -/
def bytes6 (n : Nat) : List Nat := (List.range 6).map fun i => n / 256 ^ i % 256

/-- A 48-bit word as a natural number. -/
def word (x : Int) : Nat := (w48 x).toNat

end Sys2Proof.Machine
end

