-- ==== Sys2Proof/Machine/PassOps.lean ====
section
/-! DEFINITION. A field pass (R130 to R164) put together from its stages, with what happens within it: the SETPOINTs applied (R353), the
latch written (R283), the set closed (R176), the cells of a pairing (R215 to R218), the period frame. -/
namespace Sys2Proof.Machine

/-- R142: whether a command kind is allowed in the present axis state. -/
def Stake.kindAllowed (k : Stake) (kind : Nat) : Bool :=
  match kind with
  | 0 | 1 => k.axisIn [axRun, axDerate]
  | 2 => k.axisIn [axRun, axDerate, axTest]
  | 3 => k.axis = axTest
  | _ => false

/-- R353: why a SETPOINT is refused: status and `INFO`, or none. -/
def Stake.setpointRefusal (k : Stake) (p : Setpoint) : Option (Nat × Nat) :=
  if !k.axisIn [axRun, axDerate, axTest] then some (5, 1)
  else if k.pairedFollower then some (5, 5)
  else if !k.kindAllowed p.kind then some (5, 1)
  else if k.flag Reg.PLT_AXIS_STATE_FALLBACK && !p.takeback then some (9, 0)
  else none

/-- R299: the torque window is replaced, and its timer restarts. -/
def Stake.setWindow (k : Stake) (lo hi : Int) : Stake :=
  let t16 := fun (x : Int) => if 0 ≤ x then x / 4294967296 else -(-x / 4294967296)
  ((k.onPrt fun p => { p with tLo := lo, tHi := hi, winAt := some k.now, winStale := false }).putI Reg.PLT_TMON_WIN_T_LO (t16 lo)).putI
    Reg.PLT_TMON_WIN_T_HI (t16 hi)

/-- R34, R301, R302, R353: a SETPOINT is applied. -/
def Stake.applySetpoint (k : Stake) (p : Setpoint) : Stake :=
  let k := k.driveApplied
  let k := if p.takeback && k.flag Reg.PLT_AXIS_STATE_FALLBACK then
      (k.putB Reg.PLT_AXIS_STATE_FALLBACK false).onFe fun f => { f with fb := none } else k
  let k := k.onFe fun f =>
    { f with
      host := { kind := p.kind, a := p.a, b := p.b, angSrc := p.angSrc, cid := p.cid % 256 }
      newPeriod := match p.period with | some c => some c | none => f.newPeriod }
  let k := match p.win with | some w => k.setWindow w.1 w.2 | none => k
  k.complete { ring := p.ring, cid := p.cid, op := 1, status := 0 }

/-- R34, R353: the waiting SETPOINTs at a pass start, but for one that reached its stake in this tick, which is the next pass's: refused,
superseded or applied. -/
def Stake.takeSetpoints (k : Stake) : Stake :=
  let l := k.fe.waiting.filter fun p => p.fetched < k.now
  let k := k.onFe fun f => { f with waiting := f.waiting.filter fun p => !(p.fetched < k.now), newPeriod := none }
  let bad := l.filter fun p => (k.setpointRefusal p).isSome
  let ok := l.filter fun p => (k.setpointRefusal p).isNone
  let k := bad.foldl (fun q p => match k.setpointRefusal p with
    | some (st, i) => q.complete { ring := p.ring, cid := p.cid, op := 1, status := st, info := i }
    | none => q) k
  if 3 ≤ ok.length then
    match ok.getLast? with
    | none => k
    | some n =>
      (ok.dropLast.foldl (fun q p => q.complete
        { ring := p.ring, cid := p.cid, op := 1, status := 2, result := bytes2 n.cid ++ List.replicate 14 0 }) k).applySetpoint n
  else ok.foldl Stake.applySetpoint k

/-- R165: the committed copy takes effect, and `STAGED` follows. -/
def Stake.takeCopy (k : Stake) : Stake :=
  match k.fe.copy with
  | none => k
  | some c =>
    if k.now ≤ k.fe.copyAt then k
    else
    let ctl := Reg.FLD_CTRL
    let m : BitVec 32 := 0x4F8F00
    let v := (k.rdAct ctl &&& ~~~ m) ||| (c.get (winReset k.id) ctl &&& m)
    let a := Store.copyRange 0x40100 0x40250 c (Store.copyRange 0x40030 0x40038 c (Store.copyRange 0x40020 0x4002C c k.act))
    ((({ k with act := a }).wrAct ctl v).onFe fun f => { f with copy := none }).fldSync

/-- R166: swaps requested since the last pass start make the inactive banks active; a swap of table 1 makes the plait copy it (R298),
and a copy that differs posts `TMON_TABLE` with both digests, the table's and that of the copy, a free value (R312, log 195). -/
def Stake.takeSwaps (k : Stake) : Stake :=
  let p := k.fld Reg.FLD_TBL_CTRL_PENDING
  let k := (k.put Reg.FLD_TBL_CTRL_ACTIVE (k.fld Reg.FLD_TBL_CTRL_ACTIVE ^^^ p)).put Reg.FLD_TBL_CTRL_PENDING 0
  if p.testBit 1 then
    let b := k.fldBank 1 * 0x1000000
    let bad := k.prt.copyBad
    let t := (k.tbl.filter fun e => b + 0xA4000 ≤ e.1 && e.1 < b + 0xA5210).map fun e => (e.1 - b, e.2)
    let k := k.onPrt fun q => { q with tmonTable := t, copyBad := false, tableBad := bad }
    if bad then
      let (d, k) := k.freeNat
      k.post .tmonTable 3 [Config.tableDigest t % 2 ^ 64, d % 2 ^ 64]
    else k
  else k

/-- R217, R228: at a pass start the leader takes the follower's frame of an equal centre tick, if it is usable. Frames of later centres
wait; the others are discarded. -/
def Stake.takeFrame (k : Stake) (centre : Option Word48) : Option PairFrame × Stake :=
  let f := (k.pair.frames.find? fun x => some x.tc = centre).filter fun x => !x.unavail && x.qual &&& 11 = 0
  let later := fun (x : PairFrame) => match centre with | some c => laterTick x.tc c | none => true
  (f, k.onPair fun p =>
    { p with frames := p.frames.filter later, judged := centre, matched := if f.isSome then min 3 (p.matched + 1) else 0 })

/-- R217, R222: a miss is counted; the third in succession breaks the pairing with cause 2, unless `FLD_SAMPLE_LOSS` of the same pass
acts first. -/
def Stake.pairMiss (k : Stake) (lost : Bool) : Stake :=
  let c := k.fld Reg.FLD_PAIR_STATUS_CONSEC
  let k := (k.bump Reg.FLD_PAIR_MISS_CNT).put Reg.FLD_PAIR_STATUS_CONSEC (min (c + 1) 3)
  if c = 2 && !lost then k.detectBreak 2 else k

/-- R136 to R140, R213, R214, R217, R222: sample assembly and transforms. `act` says whether the axis is in a state in which losses
count (R138). -/
def Stake.assemble (k : Stake) : PassIn × Stake :=
  let ts := k.ang.tick
  let act := !axIdle k.axis
  let prev := k.fe.prev
  let n := match prev with | some p => (ts - p.start).toNat | none => 0
  let dt0 := k.perUnitTime n
  let dt := sat48 dt0
  let la : CapLatch := if k.fe.latchNew then k.fe.latch.getD ⟨0, 0, 0, 0, 0⟩ else
    { theta := (k.clock 0).theta, omega := (k.clock 0).omega, tick := ts, auxTheta := (k.clock 1).theta, auxOmega := (k.clock 1).omega }
  let g := (nth {} k.sns.groups (k.inForce Reg.FLD_MAP_GROUP_A)).latest
  let sa := k.inForce Reg.FLD_MAP_SET_A
  let stale := !k.fe.latchNew || (match g, prev with
    | none, _ => true
    | some s, some p => p.seq = some s.seq
    | some _, none => false)
  let qual := match g with | some s => s.qual | none => List.replicate 16 0
  let absent := match g with | some s => [sa, sa + 1, sa + 2].any fun c => !s.chans.contains c | none => false
  let row := if absent then 1 else k.sampleRow [sa, sa + 1, sa + 2] qual stale
  let y := match g with | some s => s.y | none => List.replicate 16 0
  let set3 := [nth 0 y sa, nth 0 y (sa + 1), nth 0 y (sa + 2)]
  let own := clarke (nth 0 y sa) (nth 0 y (sa + 1)) (nth 0 y (sa + 2))
  let lead := k.pairedLeader
  let (fr, k) := if k.leads && (k.pairSt = 1 || k.pairSt = 2) then k.takeFrame (g.map (·.centre)) else (none, k)
  let fr := if lead then fr else none
  let miss := lead && fr.isNone
  let pred := row ≤ 5 || miss
  let thE := if k.inForceB Reg.FLD_CTRL_MACHINE && k.inForceB Reg.FLD_CTRL_SLIP_ADD then la.theta + k.fe.thetaSl else la.theta
  let dual := k.pairMode = 2
  let (iab0, lp) : (Int × Int) × (Int × Int) := match fr with
    | none => (own, (0, 0))
    | some f =>
      if dual then sixPhase set3 f.i
      else
        let fi := clarke (nth 0 f.i 0) (nth 0 f.i 1) (nth 0 f.i 2)
        let d := sub2 own fi
        (add2 own fi, (divNear d.1 2, divNear d.2 2))
  let lv := match fr with | some f => if f.hlValid then f.loop else (0, 0) | none => (0, 0)
  let meas := turn (sat48 iab0.1) (sat48 iab0.2) (-thE)
  -- R138: predicted currents; before the first pass of all there is nothing to predict from.
  let pr := match prev with | some p => k.predict p dt | none => (Config.noPass 0, Config.noPass 1)
  let i0 := if pred then pr else meas
  let i := sat2 i0
  let iab1 := if pred then turn i.1 i.2 thE else iab0
  let iab := sat2 iab1
  let k := k.bump Reg.FLD_PRED_CNT (if pred then 1 else 0)
  let run := if pred then k.fe.predRun + 1 else 0
  let lost := act && pred && (!k.fe.history || run = k.inForce Reg.FLD_CTRL_PRED_MAX + 1)
  let k := k.onFe fun f => { f with predRun := if act then run else 0 }
  let k := if lost then k.post .fldSampleLoss 3 [nth 0 qual sa, nth 0 qual (sa + 1), nth 0 qual (sa + 2)] else k
  let k := if miss then k.pairMiss lost else if lead then k.put Reg.FLD_PAIR_STATUS_CONSEC 0 else k
  -- R139: the DC-link voltage.
  let ua := k.inForce Reg.FLD_MAP_UDC_A
  let ub := k.inForce Reg.FLD_MAP_UDC_B
  let badA := k.udcSetBad ua || k.udcStale ua 0
  let held := badA && (k.udcSetBad ub || k.udcStale ub 1)
  let u := if !badA then k.udcPu ua else if !held then k.udcPu ub else k.fe.udc
  let urun := if held then k.fe.udcRun + 1 else 0
  let seqs := [k.chanSeq ua, k.chanSeq ub]
  let k := k.onFe fun f => { f with udc := sat48 u, udcRun := if act then urun else 0, udcSeq := seqs }
  let k := if act && urun = k.inForce Reg.FLD_CTRL_PRED_MAX + 1 then
    k.post .fldUdcLoss 3 [((k.setSample ua).getD (0, 0)).2, ((k.setSample ub).getD (0, 0)).2] else k
  let w := k.perUnit la.omega
  ({ ts := ts, n := n, dt := dt, theta := thE, thClk := la.theta, omega := la.omega, tc := la.tick, auxTheta := la.auxTheta,
     auxOmega := la.auxOmega, wpu := sat48 w, i := i, iab := iab, loopI := sat2 lp, loopV := lv, row := row, pred := pred,
     seq := g.map (·.seq), udc := sat48 u, udcB := badA && !held, sat0 := sats [u, dt0, w], sat1 := sats [i0.1, i0.2, iab0.1, iab0.2, iab1.1, iab1.2, lp.1, lp.2] },
   k.onFe fun f => { f with latchNew := false })

/-- R142: the command in force and its source: 2 internal, 1 fallback, 0 host. -/
def Stake.command (k : Stake) : DriveCmd × Nat :=
  match k.fe.internal, k.fe.fb with
  | some c, _ => (c, 2)
  | none, some c => if k.flag Reg.PLT_AXIS_STATE_FALLBACK then (c, 1) else (k.fe.host, 0)
  | none, none => (k.fe.host, 0)

/-- R143, R144: the torque that enters the chain, for TORQUE and SPEED commands; the speed loop is entered with the torque in force,
which is 0 after a command of another kind. -/
def Stake.torqueCmd (k : Stake) (c : DriveCmd) (x : PassIn) : Int × Stake :=
  if c.kind = 1 then
    let r0 := match k.fe.spdRef with | some r => r | none => x.wpu
    let enter := k.fe.spdRef.isNone
    let st := perMs (k.par 25) x.n
    let r := r0 + clampI (-st) st (c.a - r0)
    let xw := if enter then k.fe.tStar else k.fe.xw
    (acc [[k.par 23, r - x.wpu], [xw]], k.onFe fun f => { f with spdRef := some r, xw := xw })
  else (c.a, k.onFe fun f => { f with spdRef := none })

/-- R154: for an induction machine the torque waits for the rotor flux. -/
def Stake.magnetising (k : Stake) : Bool :=
  k.inForceB Reg.FLD_CTRL_MACHINE && 8 * k.fe.psiR < 7 * mul44 (k.par 36) (k.par 29)

/-- R143 to R148: command chain and current references: i*, T*, the limit code, and whether the two stages saturated. The speed
integrator stands in a pass in which one of links 1 to 7 reduces the torque. DESIGN CHOICE: Δψ_fw is formed with the field-weakening
integrator after its update of this pass; a CURRENT or VOLTAGE command leaves no torque in force, T* 0. -/
def Stake.references (k : Stake) (c : DriveCmd) (x : PassIn) : (Int × Int) × Int × Nat × Bool × Bool × Stake :=
  let k := if c.kind ≠ 1 then k.onFe fun f => { f with spdRef := none } else k
  if c.kind ≥ 2 then
    let (i, lim) := iLimit k.iLim (c.a, c.b)
    (i, 0, if lim then 7 else 0, false, sats [i.1, i.2], k.onFe fun f => { f with tStar := 0 })
  else
    let (cmd0, k) := k.torqueCmd c x
    let mag := k.magnetising
    let cmd := if mag then 0 else sat48 cmd0
    let st := perMs (k.par 21) x.n
    let sl := k.fe.tStar + clampI (-st) st (cmd - k.fe.tStar)
    let (t, code, less, k) := k.torqueChain cmd (if mag then 0 else sl) x.n
    let um := k.uMax x.udc
    let aw := iabs x.wpu
    let pmax := k.par 16
    -- R147: the field-weakening loop works on the previous pass's error.
    let xfw := clampI (-pmax) 0 (acc [[k.fe.xfw], [k.par 14, k.fe.efw, x.dt]])
    let dpsi := clampI (-pmax) 0 (acc [[k.par 13, k.fe.efw], [xfw]])
    let psiv := if mul44 aw pmax < um then pmax else div44 um aw
    let look := if k.pairSt = 4 && k.pairMode = 2 then 2 * t else t
    let psim := sat48 psiv + dpsi
    let i0 := k.curTable look (sat48 psim)
    let i0 := if mag then (k.par 36, 0) else i0
    let (i, lim) := iLimit k.iLim i0
    let xw := match k.fe.spdRef with
      | some r => if c.kind = 1 && !less && !lim then acc [[k.fe.xw], [k.par 24, r - x.wpu, x.dt]] else k.fe.xw
      | none => k.fe.xw
    let k := k.onFe fun f => { f with xw := sat48 xw }
    let code := if lim then 7 else if code = 0 && k.par 17 < iabs t then 8 else code
    let k := k.onFe fun f => { f with xfw := xfw, dpsi := dpsi, tStar := sat48 t }
    ((sat48 i.1, sat48 i.2), sat48 t, code, sats [t, cmd0, xw], sats [i0.1, i0.2, psiv, psim], k)

/-- R149: the regulators: unlimited voltage and the integrators' updates. -/
def Stake.regulate (k : Stake) (x : PassIn) (iref : Int × Int) : (Int × Int) × Bool × Stake :=
  let ed := iref.1 - x.i.1
  let eq := iref.2 - x.i.2
  let m := k.inForce Reg.FLD_CTRL_DEC_MODE
  let kd := k.par 0; let kq := k.par 1; let lm := k.par 4
  let one := fun (b : Bool) => if b then one44 else 0
  let ff := one (k.inForceB Reg.FLD_CTRL_FF_EN)
  let v : Int × Int := (acc [[kd, ed], [k.fe.xd], [-(one (m = 1)), x.wpu, k.par 8, x.i.2]],
    acc [[kq, eq], [k.fe.xq], [one (m = 1), x.wpu, k.par 7, x.i.1], [ff, x.wpu, k.psiPM]])
  let w := if m = 2 then x.wpu else 0
  let xd := acc [[k.fe.xd], [x.dt, k.par 2, ed], [-(x.dt), w, kq, eq]]
  let xq := acc [[k.fe.xq], [x.dt, k.par 3, eq], [x.dt, w, kd, ed]]
  ((sat48 v.1, sat48 v.2), sats [v.1, v.2, xd, xq], k.onFe fun f => { f with xd := clampI (-lm) lm xd, xq := clampI (-lm) lm xq })

/-- R150: anti-windup, and whether it saturated. -/
def Stake.antiWindup (k : Stake) (vl v : Int × Int) : Bool × Stake :=
  let lm := k.par 4; let g := k.par 5
  let xd := acc [[k.fe.xd], [g, vl.1], [-g, v.1]]
  let xq := acc [[k.fe.xq], [g, vl.2], [-g, v.2]]
  (sats [xd, xq], k.onFe fun f => { f with xd := clampI (-lm) lm xd, xq := clampI (-lm) lm xq })

/-- R161: the preset of the integrators in the first pass of RUN, and whether it saturated: with zero current error R149 gives
(0, ω·ψ_PM), or (0, 0). -/
def Stake.preset (k : Stake) (x : PassIn) : Bool × Stake :=
  let off := k.inForceB Reg.FLD_CTRL_MACHINE || k.inForceB Reg.FLD_CTRL_FF_EN
  let m : Int := if k.inForce Reg.FLD_CTRL_DEC_MODE = 1 then one44 else 0
  let xd := acc [[m, x.wpu, k.par 8, x.i.2]]
  let xq := acc [[if off then 0 else one44, x.wpu, k.psiPM], [-m, x.wpu, k.par 7, x.i.1]]
  (sats [xd, xq], k.onFe fun f => { f with xd := sat48 xd, xq := sat48 xq, tStar := 0, spdRef := none, xw := 0 })

/-- R152, R164: the equivalent voltage of the flux form, RS·i + jω·ψ*, before saturation. -/
def Stake.fluxVolt (k : Stake) (x : PassIn) (psi : Int × Int) : Int × Int :=
  (acc [[k.par 6, x.i.1], [-(x.wpu), psi.2]], acc [[k.par 6, x.i.2], [x.wpu, psi.1]])

/-- R152: in flux form the integrators are set so that R149 outputs the equivalent voltage; whether it saturated. -/
def Stake.trackFlux (k : Stake) (x : PassIn) (iref v : Int × Int) : Bool × Stake :=
  let (u, _, _) := k.regulate x iref
  let xd := k.fe.xd + v.1 - u.1
  let xq := k.fe.xq + v.2 - u.2
  (sats [xd, xq], k.onFe fun f => { f with xd := sat48 xd, xq := sat48 xq })

/-- R141: x / sin x for x = π·ω·P / 2^48, as a factor in Q4.44. -/
def sincFactor (w : Int) (p : Nat) : Int :=
  let a := divNear (w * p) 2
  if a = 0 then one44
  else div44 (divNear (a * twoPi80) (68719476736 * 281474976710656)) (sin44 (w48 a))

/-- R153 to R156, R213, R224: the observers and the torque estimate; source 4's measurement, with its angle that of the flux and its
speed that of the loop, delivered in each pass with the mark of its validity: the clocks take it while the source reports valid
position. In half-unit mode of a DUAL3 pairing one set's torque counts half of T_b,joint. -/
def Stake.observe (k : Stake) (x : PassIn) : Bool × Stake :=
  let cm0 := k.fluxMap x.i.1 x.i.2
  let im := k.inForceB Reg.FLD_CTRL_MACHINE
  let lm := k.par 29; let lr := k.par 30; let rr := k.par 31; let ls := k.par 32
  let a0 := div44 rr lr
  let lrm0 := div44 lr lm
  let (a, lrm) := (sat48 a0, sat48 lrm0)
  let pr := if im then acc [[k.fe.psiR], [x.dt, a, lm, x.i.1], [-(x.dt), a, k.fe.psiR]] else k.fe.psiR
  let low := 64 * sat48 pr < mul44 (k.par 36) lm
  let ws0 := if !im || low then 0 else div44 (acc [[a, lm, x.i.2]]) (sat48 pr)
  let ws := sat48 ws0
  let ths := k.fe.thetaSl + (if im then w48 (k.countsOf ws * x.n) else 0)
  let cmI : Int × Int := (mul44 ls x.i.1 + div44 (sat48 pr) lrm, mul44 ls x.i.2)
  let cmdq := sat2 (if im then cmI else cm0)
  let cmT := turn cmdq.1 cmdq.2 x.theta
  let cm := sat2 cmT
  let p := k.obsStep x.dt k.fe.psi k.modu.voltWas x.iab cm
  let psi := sat2 p
  let act0 : Int × Int := if im then (acc [[lrm, psi.1], [-lrm, ls, x.iab.1]], acc [[lrm, psi.2], [-lrm, ls, x.iab.2]])
    else (acc [[psi.1], [-(k.par 8), x.iab.1]], acc [[psi.2], [-(k.par 8), x.iab.2]])
  let act := sat2 act0
  let ang := atan2 act.2 act.1
  let (oth, ow) := pllStep (k.par 27) x.n k.fe.obsPll k.fe.obsOmega ang
  let half : Int := if k.pairSt = 4 && k.pairMode = 2 then one44 / 2 else one44
  let tq := acc [[half, psi.1, x.iab.2], [-half, psi.2, x.iab.1]]
  let slow := iabs x.wpu < k.par 28
  let veryLow := 8 * iabs x.wpu < 7 * k.par 28
  let run := if veryLow then k.fe.obsLow + 1 else 0
  let valid := if !slow then true else if 16 ≤ run then false else k.fe.obsValid
  let h : Int := k.fld Reg.POS_DIR_HYST_DIR_HYST
  let rev : Bool := if ow < -h then true else if h < ow then false else k.fe.obsRev
  let k' := k.onFe fun f =>
    { f with obsRev := rev, psi := psi, psiR := sat48 pr, thetaSl := ths, obsPll := oth, obsTheta := ang, obsTm := x.tc, obsOmega := ow,
             obsLow := min run 16, obsValid := valid, tHat := sat48 tq }
  let k' := if valid then k'.deliver 4 { m := ang, tm := x.tc, speed := ow, rev := rev }
    else if k.fe.obsValid then k'.loseSource 4 else k'
  (sats ([p.1, p.2, tq, act0.1, act0.2] ++ (if im then [a0, lrm0, pr, ws0, cmI.1, cmI.2] else []) ++ [cmT.1, cmT.2]), k')

/-- R157, R158: the mismatch check; for an induction machine it is not evaluated and ρ reads 1.0. -/
def Stake.mismatch (k : Stake) (x : PassIn) : Bool × Stake :=
  let ok := !k.inForceB Reg.FLD_CTRL_MACHINE && k.inForceB Reg.FLD_MM_CFG_MM_EN && k.par 35 ≤ iabs x.wpu && (k.clock 0).valid && !x.pred
  let im := k.inForceB Reg.FLD_CTRL_MACHINE
  if !ok then (false, k.onFe fun f => { f with mmY := none, mmOut := none, mmIn := none, rho := if im then one44 else f.rho })
  else
    let pd := (turn k.fe.psi.1 k.fe.psi.2 (-x.theta)).1
    let est0 := pd - (k.fluxMap x.i.1 x.i.2).1 + k.par 9
    let est := sat48 est0
    let pm := k.psiPM
    let y0 := k.fe.mmY.getD pm
    let yx := acc [[y0], [est - y0, one44 - expNeg x.n 4000000]]
    let y := sat48 yx
    let ratio := if pm = 0 then Config.roundOff 10 y pm else div44 y pm
    let rho := sat48 ratio
    let out := rho * 1000 < (k.inForce Reg.FLD_MM_RATIO_MM_LO : Int) * one44 || (k.inForce Reg.FLD_MM_RATIO_MM_HI : Int) * one44 < rho * 1000
    let since := fun (o : Option Nat) => some (o.getD k.now)
    let mo := if out then since k.fe.mmOut else none
    let mi := if out then none else since k.fe.mmIn
    let lim := k.inForce Reg.FLD_MM_CFG_MM_TIME * 400000
    let hit : Bool := match mo with | some t => t + lim ≤ k.now | none => false
    let clr : Bool := match mi with | some t => t + lim ≤ k.now | none => false
    let act := k.flag Reg.FLD_STATUS_MM_ACTIVE
    let k := k.onFe fun f => { f with mmY := some y, rho := rho, mmOut := mo, mmIn := mi }
    let k := if hit && !act then
        (k.putB Reg.FLD_STATUS_MM_ACTIVE true).post .motorMismatch (k.inForce Reg.FLD_MM_CFG_MM_CLASS) [word rho, word est, word k.magTemp]
      else if clr then k.putB Reg.FLD_STATUS_MM_ACTIVE false else k
    (sats [yx, ratio, est0], k)

/-- R215: the follower's loop, one pass: integrator, output, whether it is fit to send. -/
def Stake.followerLoop (k : Stake) (x : PassIn) : Stake :=
  match k.pair.returned with
  | none => k.onPair fun p => { p with hlValid := false }
  | some r =>
    if k.kindNow ≠ 0 then k.onPair fun p => { p with returned := none, y := (0, 0), hlValid := true }
    else
      let s : Word48 := if k.pairMode = 2 then 1 else 0
      let fwd := fun (v : Int × Int) (th : Word48) => if s = 1 then turn v.1 v.2 th else turn v.1 v.2 (-th)
      let e := sat2 (fwd r.cur r.thetaC)
      let im := k.par 40; let vm := k.par 41
      let xn : Int × Int := (clampI (-im) im (acc [[k.pair.x.1], [k.par 39, e.1, x.dt]]),
        clampI (-im) im (acc [[k.pair.x.2], [k.par 39, e.2, x.dt]]))
      let y := sat2 (acc [[-(k.par 38), e.1], [-(xn.1)]], acc [[-(k.par 38), e.2], [-(xn.2)]])
      let n := hyp44 y.1 y.2
      let y := if n ≤ vm then y else scale2 (div44 vm n) y
      let out := sat2 (fwd y (-r.thetaOut))
      k.onPair fun p => { p with x := xn, y := out, returned := none, hlValid := true }

/-- R218: word 5 of cell 0: the leader's axis state, and in SAFE the sub-state it requests. -/
def Stake.axisWord (k : Stake) : Nat :=
  k.axis % 16 + 16 * (if k.axis = axSafe then k.fld Reg.PLT_PS_STATUS_SUBSTATE % 4 else 0)

/-- R218: the leader's cell 0. -/
def Stake.cell0 (k : Stake) (tm : Word48) (th : Word48) (w : Int) (seq : Nat) (follows flux : Bool) (mask : Nat) (target : Word48) : List Nat :=
  let b := fun (x : Bool) (n : Nat) => if x then 2 ^ n else 0
  let w3 := seq % 65536 * 4294967296 + b follows 31 + b flux 30 + b (k.clock 0).valid 29 + b (k.clock 0).rev 28 + mask % 128
  [tm.toNat, (th - k.pairShift).toNat, word w, w3, target.toNat, k.axisWord, 0, 0]

/-- R21, R218: a set cell at its injection: the tick, and in cell 0 the axis state and the clock's validity of that tick. -/
def Stake.atInjection (k : Stake) (c : Cell) (first : Bool) : Cell :=
  let bit := 2 ^ 29
  let c := { c with tickLo := k.ang.tick.toNat % 16777216 }
  if !first then c
  else { c with payload := updAt (updAt c.payload 5 fun _ => k.axisWord) 3 fun w =>
    w / (2 * bit) * (2 * bit) + w % bit + (if (k.clock 0).valid then bit else 0) }

/-- R218: the three set cells to the follower. -/
def Stake.setCells (k : Stake) (x : PassIn) (s : USet) (vf : Int × Int) (hats : List Int) (target : Word48) : List Cell :=
  let seq := x.seq.getD 0
  let c0 := k.cell0 x.tc x.thClk x.omega seq true (s.mask.testBit 2) s.mask target
  let c1 := [word vf.1, word vf.2, word s.udc, word s.id, word s.iq, (s.theta - k.pairShift).toNat, s.period, s.slot % 16]
  let c2 := hats.map word ++ [word s.m, word x.loopI.1, word x.loopI.2, 0]
  [c0, c1, c2].map fun w => k.cell (partnerOf k.id) 0 4 seq w

/-- R164: the period frame that the pass writes at its end. -/
def Stake.formFrame (k : Stake) (x : PassIn) (src kind cid : Nat) (code : Nat) (fl : List (Bool × Nat)) (v : Int × Int) (iref : Int × Int)
    (thO : Word48) : Stake :=
  let flags := fl.foldl (fun a b => if b.1 then a + 2 ^ b.2 else a) 0
  let w1 := x.seq.getD 0 % 65536 * 4294967296 + flags + code % 16 * 4096 + src % 4 * 1024 + kind % 4 * 256 + (if src = 0 then cid % 256 else 0)
  let f := [x.ts.toNat, w1, x.theta.toNat, word x.wpu, word x.i.1, word x.i.2, word v.1, word v.2, word x.udc, word k.fe.tStar,
    word k.fe.tHat, word iref.1, word iref.2, word (hyp44 k.fe.psi.1 k.fe.psi.2), word k.fe.rho, thO.toNat]
  k.onFe fun s => { s with framing := some f }

/-- R164: the end of the pass: its frame is written, for the plait and, with `FRAME_EN`, for its stream. -/
def Stake.writeFrame (k : Stake) : Stake :=
  match k.fe.framing with
  | none => k
  | some f =>
    let k := k.onFe fun s => { s with frame := f, framing := none }
    if k.flag Reg.FLD_CTRL_FRAME_EN then k.offer { stream := k.fld Reg.FLD_CTRL_FRAME_STREAM, source := 16, content := 4, words := f } else k

/-- R134, R176, R218: tick t_s + 336 of the pass: its set is closed, and the follower's cells are sent, while the pairing stands. -/
def Stake.closePass (k : Stake) : Stake :=
  match k.fe.closing with
  | none => k
  | some (s, l) =>
    let k := (k.onFe fun f => { f with closing := none }).closeSet s k.ang.tick
    if !k.pairedLeader then k
    else match l with
      | c0 :: t => (k.atInjection c0 true :: t.map fun c => k.atInjection c false).foldl Stake.sendCell k
      | [] => k

/-- R162: a pass during CATCH reads the terminal channels. -/
def Stake.catchPass (k : Stake) (x : PassIn) : Stake :=
  match k.fe.catching with
  | none => k
  | some c =>
    let t := k.inForce Reg.FLD_MAP_TERM
    let e := clarke (k.chanY t) (k.chanY (t + 1)) (k.chanY (t + 2))
    let n := hyp44 e.1 e.2
    let c := if c.step = 1 then { c with emfSum := c.emfSum + n, emfN := c.emfN + 1 } else c
    let arg := atan2 e.2 e.1
    let (th, w) := pllStep (k.par 27) x.n c.pllTheta c.pllOmega arg
    let small := iabs (arg - th).toInt < 1099511627776
    let c := if c.step = 2 then
        { c with pllTheta := th, pllOmega := w, argE := arg, lastTick := ((k.chanSet t).map (·.centre)).getD x.ts, smallSince := if small then some (c.smallSince.getD k.now) else none }
      else c
    k.onFe fun f => { f with catching := some c }

/-- R134: a pass at its start tick t_s: its stages up to the voltage limit, and those of its observers and checks, with what was published
at t_s. -/
def Stake.passBody (k : Stake) : Stake :=
  let k := (k.writeLatch.dischargePass.applyRange 0x40384 0x40388).takeCopy.takeSwaps.takeSetpoints
  let k := k.onPrt fun p =>
    let z := (k.inForce Reg.PLT_TMON_MARGIN_ZERO_BAND : Int) * 4294967296
    let m := (k.inForce Reg.PLT_TMON_MARGIN_MARGIN : Int) * 4294967296
    { p with wide := ((min p.tLo (-z) - m, max p.tHi z + m) :: p.wide).take 16 }
  let (x, k) := k.assemble
  let inj : Bool := k.axis = axDischarge && (match k.prt.discharge with | some d => d.injecting | none => false) && !k.prt.releasing
  let run := (k.axisIn [axRun, axDerate, axTest] || inj) && k.pairSt ≠ 3
  let follower := k.pairedFollower
  let withSet := run && !follower
  let ending : Bool := match k.prt.discharge with | some d => d.ending ≠ 0 | none => false
  let ic : DriveCmd := { kind := 2, a := if ending then 0 else (signOf 16 (k.inForce Reg.PLT_DIS_ID_DIS_ID)) * 4294967296 }
  let k := k.onFe fun f => { f with internal := if inj then some ic else none }
  let (c, src) := k.command
  let first := k.fe.flying && withSet
  let (s0, k) := if first then k.preset x else (false, k)
  let volt := c.kind = 3 && !first
  let (iref, _, code, s2, s3, k) :=
    if !withSet || first then ((0, 0), 0, 0, false, false, k)
    else if volt then ((0, 0), 0, 0, false, false, k.onFe fun f => { f with tStar := 0, spdRef := none })
    else k.references c x
  let (v, s4, k) := if !withSet then ((0, 0), false, k) else if volt then ((c.a, c.b), false, k) else k.regulate x iref
  let um := k.uMax x.udc
  let (vl, lim) := k.vLimit v um
  let (s5, k) := if withSet && !volt then k.antiWindup vl v else (false, k)
  let efw := if withSet && !volt then hyp44 v.1 v.2 - mul44 (k.par 12) um else 0
  let k := k.onFe fun f => { f with efw := sat48 efw }
  let s5 := s5 || sats [vl.1, vl.2, k.uMaxRaw x.udc, efw]
  let (s7, k) := if follower then (false, k) else k.observe x
  let k := if follower then k.followerLoop x else k
  let k := k.catchPass x
  let (s8, k) := if follower then (false, k) else k.mismatch x
  let k := k.bump Reg.FLD_VLIM_CNT (if withSet && lim then 1 else 0)
  let k := (k.putB Reg.FLD_STATUS_VLIM (withSet && lim)).putB Reg.FLD_STATUS_PRED x.pred
  let mid : PassMid :=
    { x := x, withSet := withSet, follower := follower, first := first, volt := volt, aux := volt && c.angSrc = 1, src := src, kind := c.kind,
      cid := c.cid, code := code, iref := iref, v := vl, lim := withSet && lim, sat := [x.sat0, x.sat1, s2, s3, s0 || s4, s5, false, s7, s8] }
  (k.onFe fun f =>
    { f with
      midway := some mid
      prev := some { id := x.i.1, iq := x.i.2, vd := vl.1, vq := vl.2, omega := x.wpu, start := x.ts, seq := x.seq }
      history := !axIdle k.axis
      flying := f.flying && !withSet
      lastStart := x.ts }).rampEnd

/-- R134, R141, R152, R164, R218: the output transform, in tick t_s + 304, for the boundary B_next, the period and the mode published then;
the set and the cells of a pairing, to be closed at t_s + 336, and the pass's frame are formed. -/
def Stake.passOut (k : Stake) (q : PassMid) : Stake :=
  let x := q.x
  let guard := if k.pairedLeader then 55 else 9
  let close := x.ts + 336
  let p := k.fld Reg.MOD_NEXT_P_NEXT
  let bn := nextTaken close k.modu.nextB p guard
  let trim := signOf 16 (k.inForce Reg.FLD_TIMING_DELAY_TRIM)
  let (th0, w0) := if q.aux then (x.auxTheta, x.auxOmega) else (x.theta, x.omega)
  let thO := th0 + w48 (w0 * ((bn - x.tc).toInt + (p / 2 : Nat) + trim))
  let flux := q.withSet && k.kindNow ≠ 0
  let psi := k.fluxMap q.iref.1 q.iref.2
  let eqv := k.fluxVolt x psi
  let vOut := if flux && !q.volt then (sat48 eqv.1, sat48 eqv.2) else q.v
  let ab0 := turn vOut.1 vOut.2 thO
  let g := if k.inForceB Reg.FLD_CTRL_SINC_COMP then sincFactor w0 p else one44
  let ab1 := scale2 g ab0
  let ab : Int × Int := (sat48 ab1.1, sat48 ab1.2)
  let psT := turn psi.1 psi.2 thO
  let psA := sat2 psT
  let mIdx := div44 (mul44 (mul44 (iabs x.wpu) (hyp44 psi.1 psi.2)) 30470560045132) x.udc
  let (s4, k) := if flux && !q.volt then k.trackFlux x q.iref vOut else (false, k)
  let dual := k.pairMode = 2
  let half := fun (q : Int × Int) => (divNear q.1 2, divNear q.2 2)
  let lead := k.pairedLeader
  let vL := if lead then (if dual then add2 ab (conj2 x.loopV) else add2 ab (half x.loopV)) else ab
  let vF := if dual then add2 (rotM30 ab) (rot150 (conj2 x.loopV)) else sub2 ab (half x.loopV)
  let mask := 2 + 16 + (if flux then 4 else 0) + (if k.fe.newPeriod.isSome then 1 else 0)
  -- R152: the stator flux that the set carries is that of this pass's t_c.
  let set : USet :=
    { mask := mask, closeAt := close, pass := true, guard := guard, period := k.fe.newPeriod.getD k.modu.set.period,
      va := sat48 vL.1, vb := sat48 vL.2, mainA := ab.1, mainB := ab.2, udc := x.udc, psiA := psA.1, psiB := psA.2, hatA := k.fe.psi.1, hatB := k.fe.psi.2,
      omegaC := x.omega, m := sat48 mIdx, tc := x.tc, id := q.iref.1, iq := q.iref.2, theta := thO, slot := k.slotNow }
  let hs := if flux then [turn psA.1 psA.2 (-k.pairShift), turn k.fe.psi.1 k.fe.psi.2 (-k.pairShift)].flatMap fun q => [sat48 q.1, sat48 q.2]
    else [0, 0, 0, 0]
  let cells := if q.withSet && lead then k.setCells x set vF hs bn else []
  let k := k.onFe fun f =>
    { f with midway := none, closing := if q.withSet then some (set, cells) else none, prev := f.prev.map fun y => { y with vd := vOut.1, vq := vOut.2 } }
  let s6 := sats ([ab1.1, ab1.2, vL.1, vL.2] ++ (if flux then [mIdx, psT.1, psT.2, eqv.1, eqv.2] else []))
  let bits := updAt (updAt q.sat 6 fun _ => s6) 4 fun b => b || s4
  let anySat := bits.any fun b => b
  let sf := (List.range 9).foldl (fun a i => if nth false bits i then a ||| 2 ^ i else a) (k.fld Reg.FLD_SAT_FLAGS_STAGE)
  let k := ((k.put Reg.FLD_SAT_FLAGS_STAGE sf).bump Reg.FLD_SAT_CNT (if anySat then 1 else 0)).putB Reg.FLD_STATUS_FORM flux
  k.formFrame x q.src q.kind q.cid q.code
    [(x.pred, 31), (x.row = 3, 30), (x.row = 5 || x.row = 6, 29), (x.udcB, 28), (q.lim, 27), (q.code = 7, 26),
     (k.fe.dpsi < 0, 25), (k.flag Reg.PLT_AXIS_STATE_REGEN_CLAMP, 24), (k.hasClass 1, 23), (k.flag Reg.PLT_AXIS_STATE_F2_RAMP, 22),
     (anySat, 21), (flux, 20), (q.first, 19), (!q.withSet, 18)] vOut q.iref thO

/-- R130, R134, R135: a PASS action takes effect: a pass starts, or is skipped while one runs. -/
def Stake.runPass (k : Stake) : Stake :=
  if !k.flag Reg.FLD_CTRL_EN then k
  else
    let busy : Bool := match k.fe.busyFrom with | some t => k.now < t + 480 | none => false
    if busy then (k.bump Reg.FLD_PASS_SKIP_CNT).post .fldPassOverrun 1 [k.ang.tick.toNat]
    else ((k.passBody).putB Reg.FLD_STATUS_BUSY true).onFe fun f => { f with busyFrom := some k.now }

/-- R134: the running pass's output transform. -/
def Stake.passMid (k : Stake) : Stake :=
  match k.fe.midway with
  | some q => k.passOut q
  | none => k

/-- R134: the running pass transforms its output 304 ticks after its start, closes its set 336 ticks after its start, and ends with its frame after 480. -/
def Stake.tickPass (k : Stake) : Stake :=
  match k.fe.busyFrom with
  | some t =>
    let k := if t + 304 ≤ k.now then k.passMid else k
    let k := if t + 336 ≤ k.now then k.closePass else k
    if t + 480 ≤ k.now then ((k.putB Reg.FLD_STATUS_BUSY false).onFe fun f => { f with busyFrom := none }).writeFrame else k
  | none => k

end Sys2Proof.Machine
end

