-- ==== Sys2Proof/Machine/CatchOps.lean ====
section
/-! DEFINITION. The CATCH sequence: its steps and its outcomes (R161 to R163). -/
namespace Sys2Proof.Machine

/-- R161: the axis enters RUN: the next pass is the first, and the modulation unit begins in fixed-dead-time mode (R197). -/
def Stake.enterRun (k : Stake) : Stake :=
  let k := k.refreshHost
  (((k.onFe fun f => { f with flying := true, tStar := 0 }).setAxis axRun 0).enterSwitching).updDerate

/-- R162: CATCH begins with all legs off. -/
def Stake.catchStart (k : Stake) (run : Bool) (desc : Option (Nat × Nat)) : Stake :=
  let k := (k.leaveSwitching).refreshHost
  ((k.setAxis axCatch 0).put Reg.FLD_STATUS_CATCH_STEP 1).onFe fun f => { f with catching := some { start := k.now, run := run, desc := desc } }

/-- R162, R163, R354: a CATCH ends with an outcome; `ang` is the result's angle, tick and speed, and whether the angle is valid. Every
result is loaded into source 4, which reports valid position from it on, and the clocks that follow it take it as after a loss (R52,
`RELOAD`). The axis goes to RUN, or to ARMED, or stays where a fault has put it. DESIGN CHOICE (log 63): a CATCH that a command ends
has no outcome, and its descriptor completes ABORTED. -/
def Stake.catchEnd (k : Stake) (outcome : Nat) (ang : Word48) (tick : Word48) (w : Int) (angOk : Bool) : Stake :=
  match k.fe.catching with
  | none => k
  | some c =>
    let k := (k.put Reg.FLD_STATUS_CATCH_STEP 0).onFe fun f => { f with catching := none }
    let k := k.leaveSwitching
    let k := k.put Reg.FLD_CATCH_STATUS_OUTCOME outcome
    let ok := outcome = 1
    let k := if ok then
        ((((k.put48 Reg.FLD_CATCH_ANGLE ang).put48 Reg.FLD_CATCH_SPEED (w48 w)).put48 Reg.FLD_CATCH_TICK tick).putB
          Reg.FLD_CATCH_STATUS_DIR (w < 0)).putB Reg.FLD_CATCH_STATUS_ANGLE_VALID angOk
      else k.putB Reg.FLD_CATCH_STATUS_ANGLE_VALID false
    let k := if ok then
        let k := k.onFe fun f =>
          { f with obsRev := w < 0, obsPll := ang, obsTheta := ang, obsTm := tick, obsOmega := w, obsValid := true, obsLow := 0 }
        (k.loseSource 4).deliver 4 { m := ang, tm := tick, speed := w, rev := w < 0 }
      else k
    let k := match c.desc with
      | none => k
      | some (r, i) =>
        let st := if ok then 12 else if outcome = 0 then 14 else 13
        let res := if ok then bytes6 ang.toNat ++ [0, 0] ++ bytes6 (word w) ++
            [(if w < 0 then 1 else 0) + (if angOk then 2 else 0), outcome]
          else List.replicate 15 0 ++ [outcome]
        k.complete { ring := r, cid := i, op := 2, status := st, result := res }
    let k := if ok then k.post .catchDone 0 [] else if outcome = 0 then k else k.post .catchFailed 1 [outcome]
    if k.axis = axCatch then (if ok && angOk && c.run then k.enterRun else k.setAxis axArmed 0) else k

/-- R163: a fault of class F3 or F4 aborts a CATCH. -/
def Stake.catchAbort (k : Stake) : Stake := k.catchEnd 4 0 0 0 false

/-- R162: θ = arg e − sign(ω)·90°. -/
def quarter (w : Int) : Word48 := if w < 0 then -70368744177664 else 70368744177664

/-- R162 step 3: the pulses are judged once every one has given its capture. -/
def Stake.catchJudge (k : Stake) (c : Catch) : Stake :=
  if c.allSmall then
    -- R162: a motor at standstill has no valid angle, and the spec states none: a free value.
    let (a, k) := k.freeNat
    k.catchEnd 1 (BitVec.ofNat 48 a) c.lastCentre 0 false
  else
    let phi := c.phi.reverse
    let d : List Int := (phi.zip phi.tail).map fun (a, b) => (b - a).toInt
    let n : Int := max 1 d.length
    let sum := d.foldl (· + ·) 0
    let gap : Int := 400 * (k.inForce Reg.FLD_CATCH_GAP_ZV_GAP)
    -- A difference departs from the mean by more than 1/16 revolution.
    if d.any fun x => rev48 * n < 16 * iabs (x * n - sum) then k.catchEnd 5 0 0 0 false
    else
      let w := divNear sum (n * gap).toNat
      k.catchEnd 1 (nth 0 c.phi 0 + quarter w) c.lastCentre w true

/-- R162 step 3: the capture at the end of a pulse has completed: φ is the angle of the current. -/
def Stake.catchSample (k : Stake) (g : Nat) (s : SampleSet) : Stake :=
  match k.fe.catching with
  | none => k
  | some c =>
    if c.step ≠ 3 || g ≠ k.inForce Reg.FLD_MAP_GROUP_A || s.centre ≠ c.lastCentre || c.pulses ≤ c.phi.length then k
    else
      let a := k.inForce Reg.FLD_MAP_SET_A
      let i := clarke (nth 0 s.y a) (nth 0 s.y (a + 1)) (nth 0 s.y (a + 2))
      let c := { c with phi := atan2 i.2 i.1 :: c.phi, allSmall := c.allSmall && hyp44 i.1 i.2 < k.par 34 }
      let k := k.onFe fun f => { f with catching := some c }
      if k.inForce Reg.FLD_CATCH_CFG_ZV_N ≤ c.phi.length then k.catchJudge c else k

end Sys2Proof.Machine
end

