-- ==== Sys2Proof/Machine/SnsOps.lean ====
section
/-! DEFINITION. Shared operations of sensing: the decimators (R76, R86), the correction (R82, R84), captures (R77 to R80, R85), the
plausibility checker (R91, R92), the torque monitor (R298 to R300), the follower's sample frame (R216). -/
namespace Sys2Proof.Machine

/-- Changes the sensing state. -/
def Stake.onSns (k : Stake) (f : SnsState → SnsState) : Stake := { k with sns := f k.sns }

/-- Changes a channel, and a group. -/
def Stake.onChan (k : Stake) (c : Nat) (f : SnsChan → SnsChan) : Stake := k.onSns fun s => { s with chans := updAt s.chans c f }
def Stake.onGroup (k : Stake) (g : Nat) (f : SnsGroup → SnsGroup) : Stake := k.onSns fun s => { s with groups := updAt s.groups g f }

/-- A channel and a group. -/
def Stake.chan (k : Stake) (c : Nat) : SnsChan := nth {} k.sns.chans c
def Stake.group (k : Stake) (g : Nat) : SnsGroup := nth {} k.sns.groups g

/-- The weights of n boxcars of length r convolved, one more boxcar at a time: the sums of r neighbours. -/
def boxcar (r : Nat) (l : List Nat) : List Nat :=
  (List.range (l.length + r - 1)).map fun i => ((List.range r).map fun j => if i < j then 0 else nth 0 l (i - j)).foldl (· + ·) 0

/-- The sinc3 weights of ratio r: three boxcars (R76); they sum to r³. -/
def sinc3w (r : Nat) : List Nat := boxcar r (boxcar r (List.replicate r 1))

/-- The sinc2 weights of ratio r (R86). -/
def sinc2w (r : Nat) : List Nat := boxcar r (List.replicate r 1)

/-- The weighted sum of the newest bits; bits are given oldest first. A sinc3 filter has 3·OSR − 2 weights, of which R76 does not say where they
lie in the window of 3·OSR bits: on the newest (DESIGN CHOICE, log 175). -/
def wsum (w : List Nat) (bits : List Bool) : Nat :=
  (w.zip bits.reverse).foldl (fun a x => if x.2 then a + x.1 else a) 0

/-- R76: r = 2S/OSR³ − 1, rounded to the nearest 2^-44. -/
def sinc3 (r : Nat) (bits : List Bool) : Int := divNear ((2 * wsum (sinc3w r) bits : Nat) * one44) (r ^ 3) - one44

/-- R86: r_f truncated toward zero to Q1.15, +1 saturated. -/
def sinc2 (r : Nat) (bits : List Bool) : Int :=
  let n : Int := 2 * (wsum (sinc2w r) bits : Nat) - (r : Int) ^ 2
  let q := if 0 ≤ n then n * 32768 / (r : Int) ^ 2 else -(-n * 32768 / (r : Int) ^ 2)
  min 32767 q

/-- The decimation ratio of a channel: that of its group in force. -/
def Stake.osr (k : Stake) (c : Nat) : Nat := k.inForce (Reg.SNS_GRP_OSR (k.inForce (Reg.SNS_CH_CFG_GROUP c)))

/-- The clock output of a channel, its divider and phase in force (R74). -/
def Stake.mclkOf (k : Stake) (c : Nat) : Nat := k.inForce (Reg.SNS_CH_CFG_MCLK c)
def Stake.mdiv (k : Stake) (m : Nat) : Nat := max 1 (k.inForce (Reg.SNS_MCLK_DIV m))

/-- R82: the corrected value and whether it saturated. -/
def Stake.correct (k : Stake) (c : Nat) (r : Int) : Int × Bool :=
  let y := divNear ((k.act48 (Reg.SNS_CH_GAIN c)).toInt * r) 17592186044416 - (k.act48 (Reg.SNS_CH_OFFSET c)).toInt
  (sat48 y, over48 y)

/-- The time of a tick that is not past by 2^48 ticks. -/
def Stake.timeOf (k : Stake) (t : Word48) : Nat := k.now - (k.ang.tick - t).toNat

/-- R77: the latest rising edge at or before a tick, of a divider and phase. -/
def centreOf (t : Word48) (div phase : Nat) : Word48 := t - BitVec.ofNat 48 ((t - BitVec.ofNat 48 phase).toNat % max 1 div)

/-- R74: the latest rising edge of clock output m at or before a tick. -/
def Stake.edgeOf (k : Stake) (m : Nat) (t : Word48) : Word48 := centreOf t (k.mdiv m) (k.inForce (Reg.SNS_MCLK_PHASE m))

/-- R74, R94: clock output m has its latest edge at or before a tick: it runs, and had started by that edge. -/
def Stake.hasEdge (k : Stake) (m : Nat) (t : Word48) : Bool :=
  k.inForceB (Reg.SNS_MCLK_EN m) && nth 0 k.sns.mclkFrom m ≤ k.timeOf (k.edgeOf m t)

/-- R74: the level of clock output m in this tick. -/
def Stake.mclkLevel (k : Stake) (m : Nat) : Bool :=
  k.hasEdge m k.ang.tick && (k.ang.tick - k.edgeOf m k.ang.tick).toNat < k.mdiv m / 2 && !k.stopped

/-- The level of a ball in a tick. -/
def level (w : Wave) (t : Word48) : Bool := w.foldl (fun b x => if laterTick x.1 t then b else x.2) false

/-- R75: the sampling delay of a channel in force. -/
def Stake.sampleDly (k : Stake) (c : Nat) : Nat := k.inForce (Reg.SNS_MCLK_SAMPLE_DLY (k.mclkOf c))

/-- R75: the bits of a channel attributed to the n edges up to and including an edge, oldest first. -/
def Stake.bitsTo (k : Stake) (c n : Nat) (e : Word48) (w : Wave) : List Bool :=
  (List.range n).map fun i =>
    level w (e + BitVec.ofNat 48 (k.sampleDly c) - BitVec.ofNat 48 ((n - 1 - i) * k.mdiv (k.mclkOf c)))

/-- R75: the edge to which the bit of a channel sampled last is attributed. -/
def Stake.lastEdge (k : Stake) (c : Nat) : Word48 := k.edgeOf (k.mclkOf c) (k.ang.tick - BitVec.ofNat 48 (k.sampleDly c))

/-- R80, R94: the time from which a channel's filter takes bits: it has restarted, and its clock output has edges. -/
def Stake.bitsFrom (k : Stake) (c : Nat) : Nat := max (k.chan c).fillFrom (nth 0 k.sns.mclkFrom (k.mclkOf c))

/-- R80: a channel's filter has taken the bit of an edge at a time, if that is past. -/
def Stake.tookBit (k : Stake) (c t : Nat) : Bool := k.inForceB (Reg.SNS_MCLK_EN (k.mclkOf c)) && k.bitsFrom c ≤ t

/-- R80: the bits a channel's filter has received since it began to take them. -/
def Stake.bitsIn (k : Stake) (c : Nat) : Nat :=
  let e := k.timeOf (k.lastEdge c)
  if k.tookBit c e then (e - k.bitsFrom c) / k.mdiv (k.mclkOf c) + 1 else 0

/-- R94: a fast threshold or offset that is about to be written keeps its word in force until the tick ends. -/
def Stake.keepFast (k : Stake) (off : Nat) : Stake :=
  if (0x1011C ≤ off && off < 0x1011C + 64 * 16 && ((off - 0x1011C) % 64 = 0 || (off - 0x1011C) % 64 = 4)) &&
      (k.sns.fastOld.find? fun e => e.1 = off).isNone then
    k.onSns fun x => { x with fastOld := x.fastOld ++ [(off, k.rd off)] }
  else k

/-- A signed field of a fast threshold or offset in force (R94). -/
def Stake.fastNow (k : Stake) (f : Fld) : Int :=
  signOf f.w (f.of (((k.sns.fastOld.find? fun e => e.1 = f.off).map (·.2)).getD (k.rd f.off)))

/-- R81: a channel was stuck within a window of times. -/
def Stake.stuckWithin (k : Stake) (c first last : Nat) : Bool :=
  match (k.chan c).stuckAt with
  | none => false
  | some a => a ≤ last && (match (k.chan c).stuckEnd with | none => true | some b => first < b)

/-- R81: the qualifiers of a sample whose window reaches from one edge's time to another's: the filter had not taken all its bits by
the window's end; the set is tainted; over range; stuck within the window. -/
def Stake.qualify (k : Stake) (c : Nat) (r : Int) (ovf tainted : Bool) (first last : Nat) : Nat :=
  (if !k.tookBit c first || (k.chan c).clkFault then 8 else 0) + (if tainted then 4 else 0) +
  (if ovf || 16492674416640 < iabs r then 2 else 0) + (if k.stuckWithin c first last then 1 else 0)

/-- A sample of a channel at a centre: corrected, qualified, shown in its registers (R77, R79 to R84). DESIGN CHOICE: with `VOLT_SCALE` 0 the
sample leaves 0 in `SNS_CHn_VOLTS` (log 177). -/
def Stake.newSample (k : Stake) (c : Nat) (wave : Wave) (tainted : Bool) (centre : Word48) : Int × Nat × Stake :=
  let n := k.osr c
  let d := k.mdiv (k.mclkOf c)
  let last := centre + BitVec.ofNat 48 (((3 * n + 1) / 2 - 1) * d)
  let r := sinc3 n (k.bitsTo c (3 * n) last wave)
  let (y, o) := k.correct c r
  let q := k.qualify c r o tainted (k.timeOf (centre - BitVec.ofNat 48 (3 * n / 2 * d))) (k.timeOf last)
  let k := (k.onChan c fun x => { x with y := y, qual := q }).putB (Reg.SNS_CH_STATUS_OVERRANGE c) (q.testBit 1)
  let k := ((k.putI (Reg.SNS_CH_VOLTS_VOLTS c) (k.volts c y)).put48 (Reg.SNS_CH_SAMPLE c) (w48 y)).wr (Reg.SNS_CH_CENTRE c)
    (BitVec.ofNat 32 centre.toNat)
  (y, q, k)

/-- The enabled channels of a group in force. -/
def Stake.groupChans (k : Stake) (g : Nat) : List Nat :=
  (List.range 16).filter fun c => k.inForceB (Reg.SNS_CH_CFG_EN c) && k.inForce (Reg.SNS_CH_CFG_GROUP c) = g

/-- R85: whether an edge of the ports a group names falls in a zone. -/
def Stake.taintIn (k : Stake) (g : Nat) (z : Word48 × Word48) : Bool :=
  k.sns.edges.any fun e =>
    (k.inForce (Reg.SNS_GRP_TAINT_PORTS g)).testBit e.1 && !laterTick z.1 e.2 && !laterTick e.2 z.2

/-- R77, R80: a capture of a group at an effect tick, centred by an output that runs (R78: all of the group's have one `DIV` and `PHASE`). At
most two captures are in flight, centred and not yet complete. DESIGN CHOICE: a group with no enabled channel, or whose clock outputs
have had no edge since they started, makes no capture and takes no sequence number. -/
def Stake.captureGroup (k : Stake) (g : Nat) (t : Word48) : Stake :=
  match (k.groupChans g).filter fun c => k.hasEdge (k.mclkOf c) t with
  | [] => k
  | c :: _ =>
    let m := k.mclkOf c
    let d := k.mdiv m
    let ct := centreOf t d (k.inForce (Reg.SNS_MCLK_PHASE m))
    let r := k.inForce (Reg.SNS_GRP_OSR g)
    let gr := k.group g
    if gr.inFlight.any fun x => x.centre = ct then k
    else if 2 ≤ (gr.inFlight.filter fun x => !reached k.ang.tick x.zone.2).length then (k.bump Reg.SNS_CAP_OVR_CNT).post .snsCaptureOverrun 1 [g]
    else
      let before := BitVec.ofNat 48 (r * 3 / 2 * d + k.inForce (Reg.SNS_GRP_SETTLE g))
      let after := BitVec.ofNat 48 ((3 * r + 1) / 2 * d)
      k.onGroup g fun x =>
        { x with
          inFlight := x.inFlight ++ [{ centre := ct, seq := x.nextSeq, zone := (ct - before, ct + after), tainted := false,
                                       aux := (k.clock 1).theta }]
          nextSeq := (x.nextSeq + 1) % 65536 }

/-- R77, R136: a CAPTURE takes effect for the groups of a mask; with the field engine's group in it the angle clocks are latched. -/
def Stake.capture (k : Stake) (mask : Nat) (t : Word48) : Stake :=
  let k := if k.flag Reg.SNS_CTRL_EN then
      [0, 1, 2, 3].foldl (fun q g => if mask.testBit g then q.captureGroup g t else q) k else k
  if mask.testBit (k.inForce Reg.FLD_MAP_GROUP_A) then
    k.onFe fun f =>
      { f with
        latchNew := true
        latch := some { theta := (k.clock 0).theta, omega := (k.clock 0).omega, tick := k.ang.tick,
                        auxTheta := (k.clock 1).theta, auxOmega := (k.clock 1).omega } }
  else k

/-- R92: the rows that match: number, events and classes, and the values each carries (R96): those of set A, those of set B, the
differences per phase, the two voltages. -/
def Stake.verdict (k : Stake) (pa pb pab pdc : Bool) (va vb vd vu : List Nat) : Nat × List (Ev × Nat × List Nat) :=
  if pa && pb then (1, [(Ev.snsSetAFault, 3, va), (Ev.snsSetBFault, 3, vb)])
  else if pa then (2, [(Ev.snsSetAFault, k.inForce Reg.SNS_PLAUS_CTRL_SET_A_CLASS, va)])
  else if pb then (3, [(Ev.snsSetBFault, k.inForce Reg.SNS_PLAUS_CTRL_SET_B_CLASS, vb)])
  else if pab then (4, [(Ev.snsAbMismatch, k.inForce Reg.SNS_PLAUS_CTRL_AB_CLASS, vd)])
  else if pdc then (5, [(Ev.snsUdcMismatch, k.inForce Reg.SNS_PLAUS_CTRL_UDC_CLASS, vu)])
  else (0, [])

/-- R91: the five checks on samples of the two sets: sum A, sum B, A–B, DC link, sample; none for one that is not evaluated. -/
def Stake.plausChecks (k : Stake) (ia ib : List Int) (qa qb : List Nat) (ua ub : Nat) : List (Option Bool) :=
  let has := fun (c : Nat) => k.inForceB (Reg.SNS_CH_CFG_EN c) && !k.flag (Reg.SNS_CH_STATUS_UNAVAIL c)
  let dc := has ua && has ub
  let qu := if dc then [(k.chan ua).qual, (k.chan ub).qual] else []
  let thr := fun (n : Nat) => (n : Int) * 4294967296
  let sum := fun (l : List Int) => iabs (l.foldl (· + ·) 0)
  let sumT := thr (k.fld Reg.SNS_PLAUS_THR_SUM_THR)
  let abT := thr (k.fld Reg.SNS_PLAUS_THR_AB_THR)
  let ud := iabs (signOf 16 (k.fld (Reg.SNS_CH_VOLTS_VOLTS ua)) - signOf 16 (k.fld (Reg.SNS_CH_VOLTS_VOLTS ub)))
  if (qa ++ qb ++ qu).any fun (q : Nat) => (q &&& 11) ≠ 0 then [none, none, none, none, some true]
  else [some (sumT < sum ia), some (sumT < sum ib), some ((ia.zip ib).any fun (x, y) => abT < iabs (x - y)),
    if dc then some ((k.fld Reg.SNS_UDC_THR_UDC_THR : Int) < ud) else none, some false]

/-- R91, R92: one evaluation of the checker. DESIGN CHOICE: a DC-link check that is left out (log 118) is not a check that has passed, so no
verdict ends meanwhile (log 179). A verdict's row is posted as it becomes the first that matches; row 1 stands for rows 2
and 3 as well; the verdict ends, and with it what was posted, once every check has passed at `PLAUS_N` evaluations. -/
def Stake.plausEval (k : Stake) (sa sb : SampleSet) : Stake :=
  let a := k.inForce Reg.SNS_PLAUS_MAP_SET_A
  let b := k.inForce Reg.SNS_PLAUS_MAP_SET_B
  let ia := [0, 1, 2].map fun i => nth 0 sa.y (a + i)
  let ib := [0, 1, 2].map fun i => nth 0 sb.y (b + i)
  let qa := [0, 1, 2].map fun i => nth 0 sa.qual (a + i)
  let qb := [0, 1, 2].map fun i => nth 0 sb.qual (b + i)
  let ua := k.inForce Reg.SNS_PLAUS_MAP_UDC_A
  let ub := k.inForce Reg.SNS_PLAUS_MAP_UDC_B
  let fails := k.plausChecks ia ib qa qb ua ub
  let n := k.inForce Reg.SNS_PLAUS_CTRL_PLAUS_N
  let had := (nth (0, 0, false) k.sns.verdicts 0).2.2
  let v := (k.sns.verdicts.zip fails).map fun ((f, p, w), r) => match r with
    | none => (f, p, w)
    | some true => (min (f + 1) 15, 0, w)
    | some false => (0, min (p + 1) 15, w)
  let pers := fun i => n ≤ (nth (0, 0, false) v i).1
  let volt := fun (c : Nat) => k.fld (Reg.SNS_CH_VOLTS_VOLTS c)
  let (row, evs) := k.verdict (pers 0) (pers 1) (pers 2) (pers 3) (ia.map word ++ [word (ia.foldl (· + ·) 0)])
    (ib.map word ++ [word (ib.foldl (· + ·) 0)]) ((ia.zip ib).map fun x => word (x.1 - x.2)) [volt ua, volt ub]
  let allPass := v.all fun x => n ≤ x.2.1
  let now : Bool := if row ≠ 0 then true else if allPass then false else had
  let posted := if now then k.sns.rowsPosted else []
  let k := k.onSns fun q => { q with
    verdicts := v.mapIdx fun i x => if i = 0 then (x.1, x.2.1, now) else x
    rowsPosted := if row = 0 || posted.contains row then posted else if row = 1 then [1, 2, 3] ++ posted else row :: posted }
  if row = 0 || posted.contains row then k else evs.foldl (fun q (e, c, l) => q.post e c l) k

/-- R91: the capture of a group is complete: the checker takes set A's sample with set B's of the same centre, whichever completes
first, and skips one that has none. -/
def Stake.plausibility (k : Stake) (g : Nat) (s : SampleSet) : Stake :=
  let a := k.inForce Reg.SNS_PLAUS_MAP_SET_A
  let b := k.inForce Reg.SNS_PLAUS_MAP_SET_B
  let ga := k.inForce (Reg.SNS_CH_CFG_GROUP a)
  let gb := k.inForce (Reg.SNS_CH_CFG_GROUP b)
  let has := fun (x : SampleSet) (f : Nat) => [0, 1, 2].all fun i => x.chans.contains (f + i)
  let flying := fun (h : Nat) => (k.group h).inFlight.any fun x => x.centre = s.centre
  let skip := k.bump Reg.SNS_PLAUS_SKIP_CNT
  let eval := fun (k : Stake) (x y : SampleSet) => if has x a && has y b then k.plausEval x y else k.bump Reg.SNS_PLAUS_SKIP_CNT
  if !k.inForceB Reg.SNS_PLAUS_CTRL_EN || (g ≠ ga && g ≠ gb) then k
  else if ga = gb then eval k s s
  else if g = ga then
    match k.sns.waitB.find? fun x => x.centre = s.centre with
    | some y => eval (k.onSns fun q => { q with waitB := q.waitB.filter fun x => x.centre ≠ s.centre }) s y
    | none => if flying gb then k.onSns fun q => { q with waitA := q.waitA ++ [s] } else skip
  else
    match k.sns.waitA.find? fun x => x.centre = s.centre with
    | some x => eval (k.onSns fun q => { q with waitA := q.waitA.filter fun x => x.centre ≠ s.centre }) x s
    | none => if flying ga then k.onSns fun q => { q with waitB := q.waitB ++ [s] } else k

/-- R298 to R300, R317: the torque monitor at a capture of set B, which a resynchronisation of the plait holds; `th` is the auxiliary clock's angle latched at its capture tick. -/
def Stake.torqueMonitor (k : Stake) (g : Nat) (th : Word48) (s : SampleSet) : Stake :=
  let b := k.inForce Reg.SNS_PLAUS_MAP_SET_B
  if !k.inForceB Reg.PLT_TMON_CTRL_EN || k.vote.halted || k.inForce (Reg.SNS_CH_CFG_GROUP b) ≠ g then k
  else if k.vote.resync then k.hold (.monitor g th s)
  else
    let qs := [0, 1, 2].map fun i => nth 0 s.qual (b + i)
    let bad := (qs.any fun (q : Nat) => (q &&& 11) ≠ 0) || [0, 1, 2].any fun i => k.flag (Reg.SNS_CH_STATUS_UNAVAIL (b + i))
    let reason := if !(k.clock 1).valid then 1 else if bad then 2 else if k.hasFault .snsSetBFault then 3 else 0
    let n := k.inForce Reg.PLT_TMON_CTRL_MON_N
    if reason ≠ 0 then
      let c := k.prt.monUnavail + 1
      let k := k.onPrt fun p => { p with monUnavail := min c 255 }
      if c = n then k.post .tmonUnavail (if k.inForceB Reg.PLT_TMON_CTRL_UNAVAIL_CLASS then 2 else 1) [reason] else k
    else
      let d : Int := if k.pairSt = 2 && k.pairMode = 1 then 2 else 1
      let half : Int := if k.pairSt = 4 && k.pairMode = 2 then one44 / 2 else one44
      let i := clarke (d * nth 0 s.y b) (d * nth 0 s.y (b + 1)) (d * nth 0 s.y (b + 2))
      let dq := turn i.1 i.2 (-th)
      let tbl : Stake := { k with tbl := k.prt.tmonTable }
      let ps := tbl.fluxAt 0 dq.1 dq.2
      let t := sat48 (acc [[half, ps.1, dq.2], [-half, ps.2, dq.1]])
      let k := (k.put48 Reg.PLT_TMON_EST (w48 t)).onPrt fun p => { p with monUnavail := 0 }
      let m := (k.inForce Reg.PLT_TMON_MARGIN_MARGIN : Int) * 4294967296
      let z := (k.inForce Reg.PLT_TMON_MARGIN_ZERO_BAND : Int) * 4294967296
      let cur := (min k.prt.tLo (-z) - m, max k.prt.tHi z + m)
      let fail := k.axisIn [axRun, axDerate] && (cur :: k.prt.wide).all fun w => t < w.1 || w.2 < t
      if !fail then k.onPrt fun p => { p with monFails := 0 }
      else
        let c := k.prt.monFails + 1
        let k := (k.bump Reg.PLT_TMON_FAIL_CNT).onPrt fun p => { p with monFails := min c 255 }
        if c = n then k.post .torqueMon (if k.inForceB Reg.PLT_TMON_CTRL_CLASS then 3 else 2) [word t, word cur.1, word cur.2] else k

/-- R216: the follower's sample frame, sent in the handover tick of its set A. -/
def Stake.sampleFrame (k : Stake) (g : Nat) (s : SampleSet) : Stake :=
  if (k.pairSt ≠ 1 && k.pairSt ≠ 2) || k.leads || g ≠ k.inForce Reg.FLD_MAP_GROUP_A then k
  else
    let a := k.inForce Reg.FLD_MAP_SET_A
    let q := [0, 1, 2].foldl (fun x i => x ||| nth 0 s.qual (a + i)) 0
    let un := [0, 1, 2].any fun i => k.flag (Reg.SNS_CH_STATUS_UNAVAIL (a + i))
    let bt := fun (b : Bool) (n : Nat) => if b then 2 ^ n else 0
    let w1 := s.seq * 4294967296 + q % 16 * 268435456 + bt un 27 + bt k.pair.hlValid 26 + bt k.pair.held 25
    let ws := [s.centre.toNat, w1, word (nth 0 s.y a), word (nth 0 s.y (a + 1)), word (nth 0 s.y (a + 2)), word k.pair.y.1, word k.pair.y.2, 0]
    let k := (k.sendCell (k.cell (partnerOf k.id) 0 3 s.seq ws)).onPair fun p => { p with held := false }
    k.onDir (k.way k.ringN (partnerOf k.id)) fun w => { w with pairGap := false }

/-- R77: a group's oldest capture completes, 4 ticks after its completion edge: the set, and everything that is done with it. -/
def Stake.captureDone (k : Stake) (g : Nat) (waves : List Wave) : Stake :=
  match (k.group g).inFlight with
  | [] => k
  | c :: rest =>
    if !reached k.ang.tick (c.zone.2 + 4) then k
    else
      let t := c.tainted || k.taintIn g c.zone
      let start : Stake × List (Nat × Int × Nat) := (k, [])
      let (k, l) := (k.groupChans g).foldl (fun (q, l) ch =>
        if q.flag (Reg.SNS_CH_STATUS_UNAVAIL ch) then (q, l)
        else
          let (y, ql, q) := q.newSample ch (nth [] waves ch) t c.centre
          let q := if q.inForce (Reg.SNS_CH_CFG_STREAM_MODE ch) = 1 then
              q.offer { stream := q.inForce (Reg.SNS_CH_CFG_STREAM ch), source := ch, content := 1,
                        words := [word y, c.centre.toNat % 2 ^ 40 * 256 + ql] } else q
          (q, l ++ [(ch, y, ql)])) start
      let find := fun (i : Nat) => l.find? fun x => x.1 = i
      let s : SampleSet :=
        { seq := c.seq, centre := c.centre,
          y := (List.range 16).map fun i => match find i with | some x => x.2.1 | none => 0
          qual := (List.range 16).map fun i => match find i with | some x => x.2.2 | none => 0
          chans := l.map (·.1) }
      let k := (k.onGroup g fun x => { x with inFlight := rest, latest := some s }).bump Reg.SNS_TAINT_CNT (if t then 1 else 0)
      (((k.plausibility g s).torqueMonitor g c.aux s).sampleFrame g s).catchSample g s

/-- A symbol's leading edge, kept while a taint zone can still name it (R85). -/
def Stake.noteEdge (k : Stake) (p : Nat) (t : Word48) : Stake :=
  k.onSns fun s => { s with edges := (s.edges ++ [(p, t)]).filter fun e => (t - e.2).toNat < 100000 }

end Sys2Proof.Machine
end

