-- ==== Sys2Proof/Machine/Sensing.lean ====
section
/-! DEFINITION. Commands of sensing (chapter 03). -/
namespace Sys2Proof.Machine

/-- Whether any staged sensing register differs from its value in force (R94). DESIGN CHOICE: `GAIN` and `OFFSET`, which R83 calls staged too and
`APPLY` does not serve, are left out (log 180). -/
def Stake.snsStaged (k : Stake) : Bool :=
  let ne := fun (o : Nat) => k.rd o != k.rdAct o
  ((List.range 9).any fun i => ne (0x10010 + 4 * i)) || ne Reg.SNS_PLAUS_MAP || ((List.range 16).any fun c => ne (Reg.SNS_CH_CFG c))

/-- `SNS_STATUS.STAGED` follows the staged values. -/
def Stake.snsSync (k : Stake) : Stake := k.putB Reg.SNS_STATUS_STAGED k.snsStaged

/-- R78: the staged settings leave a group mixed: two of all its channels have clock outputs of different `DIV` or `PHASE`. -/
def Stake.snsMixed (k : Stake) : Bool :=
  let on := List.range 16
  let key := fun c =>
    let m := k.fld (Reg.SNS_CH_CFG_MCLK c)
    (k.fld (Reg.SNS_MCLK_DIV m), k.fld (Reg.SNS_MCLK_PHASE m))
  on.any fun c => on.any fun d => k.fld (Reg.SNS_CH_CFG_GROUP c) = k.fld (Reg.SNS_CH_CFG_GROUP d) && key c ≠ key d

/-- R80: a channel restarts its fill: its filter takes bits from a time on. -/
def Stake.refill (k : Stake) (c t : Nat) : Stake :=
  ((k.putB (Reg.SNS_CH_STATUS_FILLING c) true).put Reg.SNS_STATUS_FILLED (k.fld Reg.SNS_STATUS_FILLED &&& (65535 - 2 ^ c))).onChan c
    fun x => { x with fillFrom := t }

/-- R94: an accepted or refused `APPLY`. It takes effect in the tick after; an output whose `DIV` or `PHASE` changes has no edge for one
full period of its new divider; the channels of an output that is enabled or changed, and a channel that moves to another output,
restart their fill (R80); a channel is as faulty as its output (R412). -/
def Stake.snsApply (k : Stake) : Stake :=
  if !k.axisIn [axOff, axSafe, axTest] || k.snsMixed then (k.putB Reg.SNS_STATUS_CFG_REFUSED true).post .snsCfgRefused 0
  else
    let was := k
    let k := (k.applyRange 0x10010 0x10034).applyRange 0x1003C 0x10040
    let k := (List.range 16).foldl (fun q c => q.applyRange (Reg.SNS_CH_CFG c) (Reg.SNS_CH_CFG c + 4)) k
    let moved := fun m => was.inForce (Reg.SNS_MCLK_DIV m) ≠ k.inForce (Reg.SNS_MCLK_DIV m) ||
      was.inForce (Reg.SNS_MCLK_PHASE m) ≠ k.inForce (Reg.SNS_MCLK_PHASE m)
    let started := fun m => k.inForceB (Reg.SNS_MCLK_EN m) && !was.inForceB (Reg.SNS_MCLK_EN m)
    let from_ := [0, 1, 2, 3].map fun m =>
      if moved m then k.now + 1 + k.mdiv m else if started m then max (k.now + 1) (nth 0 k.sns.mclkFrom m) else nth 0 k.sns.mclkFrom m
    let k := k.onSns fun x => { x with mclkFrom := from_ }
    ((List.range 16).foldl (fun q c =>
      let m := q.mclkOf c
      let bad := (q.fld Reg.CLK_STATUS_MCLK_FAULT).testBit m
      let again := moved m || started m || was.mclkOf c ≠ m || bad ≠ (q.chan c).clkFault
      (if again then q.refill c (max (q.now + 1) (nth 0 from_ m)) else q).onChan c fun x => { x with clkFault := bad }) k).snsSync

/-- A write of `SNS_CTRL`: `EN`, and `APPLY` (R94). -/
def Stake.wSnsCtrl (k : Stake) (w : Reg32) : Stake :=
  let k := k.store Reg.SNS_CTRL w
  if w.getLsbD 0 then k.snsApply else k

/-- CAPTURE_COMPLETE (R77, R79, R91, R92, R216, R298 to R300, R162). `waves` are what comes in at the channels' data balls, by channel. -/
def execCaptureComplete (n g : Nat) (waves : List Wave) (s : State) : Host.Outcome State Fault Refusal :=
  .next (s.onStake n fun k => k.captureDone g waves)

/-- ACTION_CAPTURE (R67, R77, R80, R136). -/
def execActionCapture (n e : Nat) (s : State) : Host.Outcome State Fault Refusal :=
  .next (s.onStake n fun k => match k.takeAct e 1 with
    | none => k
    | some (a, k) => k.capture (a.arg % 16) a.at_.tick)

/-- CHANNEL_STUCK (R89, R90): the bits of the last 64 clocks show no transition. DESIGN CHOICE: a channel that is not enabled is
declared stuck like any other. -/
def execChannelStuck (n c : Nat) (s : State) (wave : Wave := []) : Host.Outcome State Fault Refusal :=
  .next (s.onStake n fun k =>
    let bits := k.bitsTo c 64 (k.lastEdge c) wave
    if k.flag (Reg.SNS_CH_STATUS_UNAVAIL c) || k.flag (Reg.SNS_CH_STATUS_STUCK c) || 16 ≤ c || (k.chan c).clkFault ||
        k.bitsIn c < 64 || (bits.contains true && bits.contains false) then k
    else (((k.putB (Reg.SNS_CH_STATUS_STUCK c) true).putB (Reg.SNS_CH_STATUS_STUCK_SEEN c) true).onChan c
      fun x => { x with stuckAt := some k.now, stuckEnd := none }).post .snsStuck
      (k.inForce (Reg.SNS_CH_CFG_STUCK_CLASS c))
      [c, if k.flag (Reg.SNS_CH_STATUS_FAST_HI c) || k.flag (Reg.SNS_CH_STATUS_FAST_LO c) then 1 else 0])

/-- CHANNEL_UNSTUCK (R89): the last two bits differ. -/
def execChannelUnstuck (n c : Nat) (s : State) (wave : Wave := []) : Host.Outcome State Fault Refusal :=
  .next (s.onStake n fun k =>
    let bits := k.bitsTo c 2 (k.lastEdge c) wave
    if c < 16 && k.flag (Reg.SNS_CH_STATUS_STUCK c) && 2 ≤ k.bitsIn c && bits.contains true && bits.contains false then
      (k.putB (Reg.SNS_CH_STATUS_STUCK c) false).onChan c fun x => { x with stuckEnd := some k.now }
    else k)

/-- FILTER_FILLED (R80): the channel's filter has received 3 × OSR bits. -/
def execFilterFilled (n c : Nat) (s : State) : Host.Outcome State Fault Refusal :=
  .next (s.onStake n fun k =>
    if c < 16 && !(k.chan c).clkFault && 3 * k.osr c ≤ k.bitsIn c then
      (k.putB (Reg.SNS_CH_STATUS_FILLING c) false).put Reg.SNS_STATUS_FILLED (k.fld Reg.SNS_STATUS_FILLED ||| 2 ^ c)
    else k)

/-- CORR_COMMIT (R83): a write of `SNS_CHn_CORR_COMMIT`. -/
def execCorrCommit (n : Nat) (src : Src) (c : Nat) (w : Reg32) (s : State) : Host.Outcome State Fault Refusal :=
  .next (s.stakeWrite src n (Reg.SNS_CH_CORR_COMMIT c) w fun k =>
    if w.getLsbD 0 && c < 16 then
      k.onSns fun x => { x with corrNext := x.corrNext ++ [(c, k.get48 (Reg.SNS_CH_GAIN c), k.get48 (Reg.SNS_CH_OFFSET c))] }
    else k)

/-- R83: committed corrections take effect in the tick after. -/
def Stake.tickSns (k : Stake) : Stake :=
  let l := k.sns.corrNext
  let k := k.onSns fun x => { x with corrNext := [], fastOld := [] }
  l.foldl (fun q (c, g, o) => (q.putAct48 (Reg.SNS_CH_GAIN c) g).putAct48 (Reg.SNS_CH_OFFSET c) o) k

/-- SNS_APPLY (R94): a write of `SNS_CTRL` with `APPLY`. -/
def execSnsApply (n : Nat) (src : Src) (w : Reg32) (s : State) : Host.Outcome State Fault Refusal :=
  .next (s.stakeWrite src n Reg.SNS_CTRL w fun k => if w.getLsbD 0 then k.wSnsCtrl w else k)

/-- R279: the cause of a `FAST_CLASS` 2 trip of a channel, and the phase port it faults. -/
def Stake.fastCause (k : Stake) (c : Nat) (hi : Bool) : Nat × Option Nat :=
  let a := k.inForce Reg.SNS_PLAUS_MAP_SET_A
  let b := k.inForce Reg.SNS_PLAUS_MAP_SET_B
  let dc := c = k.inForce Reg.FLD_MAP_UDC_A || c = k.inForce Reg.FLD_MAP_UDC_B
  if a ≤ c && c ≤ a + 2 then (1, some (c - a))
  else if b ≤ c && c ≤ b + 2 then (1, some (c - b))
  else if dc then (if hi then 3 else 4, none)
  else (11, none)

/-- R86, R87: the values of the fast path at the last `FAST_N` clocks up to and including an edge, newest first. -/
def Stake.fastVals (k : Stake) (c : Nat) (e : Word48) (wave : Wave) : List Int :=
  let r := k.inForce (Reg.SNS_CH_CFG_FAST_OSR c)
  let fn := max 1 (k.inForce (Reg.SNS_CH_CFG_FAST_N c))
  let bits := k.bitsTo c (2 * r + fn - 1) e wave
  (List.range fn).map fun i => sinc2 r (bits.take (bits.length - i))

/-- R86: the comparator's condition holds for every one of the values. -/
def Stake.fastHolds (k : Stake) (c : Nat) (hi : Bool) (vals : List Int) : Bool :=
  let ofs := k.fastNow (Reg.SNS_CH_FAST_OFS_FAST_OFS c)
  let thr := if hi then k.fastNow (Reg.SNS_CH_FAST_THR_HI c) else k.fastNow (Reg.SNS_CH_FAST_THR_LO c)
  vals.all fun v => if hi then thr < v - ofs else v - ofs < thr

/-- R87: the edges whose bit is in and whose trip is not yet later than one clock and 8 ticks, of those by which the path has taken all the
bits its last `FAST_N` values need. DESIGN CHOICE: the path forms no value from fewer bits (log 176). -/
def Stake.fastEdges (k : Stake) (c : Nat) : List Word48 :=
  let e := k.lastEdge c
  let d := k.mdiv (k.mclkOf c)
  let back := (2 * k.inForce (Reg.SNS_CH_CFG_FAST_OSR c) + max 1 (k.inForce (Reg.SNS_CH_CFG_FAST_N c)) - 2) * d
  [e, e - BitVec.ofNat 48 d].filter fun x => (k.ang.tick - x).toNat ≤ d + 8 && k.tookBit c (k.timeOf (x - BitVec.ofNat 48 back))

/-- FAST_PATH_TRIP (R86 to R90, R203, R279, R291, R412). The trip comes about only where the comparator's condition holds at each of the last
`FAST_N` clocks. -/
def execFastPathTrip (n c : Nat) (hi : Bool) (wave : Wave) (s : State) : Host.Outcome State Fault Refusal :=
  .next (s.onStake n fun k =>
    let tries := ((k.fastEdges c).map fun e => k.fastVals c e wave).filter fun l => k.fastHolds c hi l
    if 16 ≤ c || !k.flag Reg.SNS_CTRL_EN || !k.inForceB (Reg.SNS_CH_CFG_FAST_EN c) || !k.inForceB (Reg.SNS_CH_CFG_EN c) ||
        k.flag (Reg.SNS_CH_STATUS_UNAVAIL c) || (k.chan c).clkFault || tries.isEmpty then k
    else
      let cl := k.inForce (Reg.SNS_CH_CFG_FAST_CLASS c)
      let cls := if cl = 0 then 0 else if cl = 1 then 3 else 4
      let k := (k.onChan c fun x => { x with rf := nth 0 (nth [] tries 0) 0 }).putB
        (if hi then Reg.SNS_CH_STATUS_FAST_HI c else Reg.SNS_CH_STATUS_FAST_LO c) true
      let k := k.post .snsFastTrip cls [c, if hi then 1 else 0, if k.flag (Reg.SNS_CH_STATUS_STUCK c) then 1 else 0]
      let (cause, port) := k.fastCause c hi
      let k := if cl = 2 then k.trip cause port else k
      let k := if cl = 2 && cause = 3 then k.post .udcAbsTrip 4 [k.prt.udc.toNat] else k
      if hi then [0, 1, 2, 3].foldl (fun q p => if q.inForce (Reg.MOD_PORT_CFG_CUT_CH p) = c then q.cutPort p 1 else q) k else k)

end Sys2Proof.Machine
end

