-- ==== Sys2Proof/Machine/Field.lean ====
section
/-! DEFINITION. Commands of the field engine (chapter 05). -/
namespace Sys2Proof.Machine

/-- R165: the first staged parameter out of its range: its slot offset. -/
def Stake.badParam (k : Stake) : Option Nat :=
  let v := fun (i : Nat) => k.int48 (fldParamOff i)
  let bad := fun (i : Nat) =>
    let r := nth (0, 0) fldParamRange i
    v i < r.1 || r.2 < v i || ((i = 15 || i = 16) && v 16 ≤ v 15)
  ((List.range 42).find? bad).map fldParamOff

/-- R133, R165: the committed registers outside the parameter slots break a range or a condition between their fields: those of
`FLD_CTRL`, as the write that carries the commit gives them, and `FLD_MM_RATIO`. -/
def Stake.badCommitted (k : Stake) (w : Reg32) : Option Nat :=
  if Reg.FLD_CTRL_DEC_MODE.of w = 3 || Reg.FLD_CTRL_PRED_MAX.of w = 0 then some Reg.FLD_CTRL
  else if k.fld Reg.FLD_MM_RATIO_MM_HI ≤ k.fld Reg.FLD_MM_RATIO_MM_LO then some Reg.FLD_MM_RATIO else none

/-- R167: `FLD_CTRL.APPLY`. -/
def Stake.fldApply (k : Stake) : Stake :=
  if !k.axisIn [axOff, axSafe, axTest] then (k.putB Reg.FLD_STATUS_CFG_REFUSED true).post .fldCfgRefused 0
  else
    let m : BitVec 32 := 0x300000
    let k := k.applyRange 0x40010 0x40020
    (k.wrAct Reg.FLD_CTRL ((k.rdAct Reg.FLD_CTRL &&& ~~~ m) ||| (k.rd Reg.FLD_CTRL &&& m))).fldSync

/-- A write of `FLD_CTRL` (R165, R167): with `PARAM_COMMIT`, the copy is checked first and a failing write is discarded whole, with the
offset of the first offending slot for `HIF_RANGE`. -/
def Stake.wFldCtrl (k : Stake) (w : Reg32) : Stake × Option Nat :=
  let bad := if w.getLsbD 1 then (match k.badParam with | some o => some o | none => k.badCommitted w) else none
  match bad with
  | some o => (k, some o)
  | none =>
    let k := k.store Reg.FLD_CTRL w
    let k := if w.getLsbD 1 then k.onFe fun f => { f with copy := some k.regs, copyAt := k.now } else k
    let k := if w.getLsbD 0 then k.fldApply else k
    (k.fldSync, none)

/-- R168: what a write of `FLD_CTRL` may change under the lock: it may set `PARAM_COMMIT` and nothing else. -/
def Stake.lockedCtrl (k : Stake) (locked : Bool) (w : Reg32) : Reg32 := if locked then (k.rd Reg.FLD_CTRL &&& 0xFFFFFFFC) ||| (w &&& 2) else w

/-- The write of `FLD_CTRL` at the level of the block. -/
def State.fldCtrlWrite (s : State) (src : Src) (n : Nat) (w : Reg32) : State :=
  let v := (s.stake n).lockedCtrl s.locked w
  let (_, bad) := (s.stake n).wFldCtrl v
  let s' := s.stakeWrite src n Reg.FLD_CTRL v fun k => (k.wFldCtrl v).1
  match bad with
  | none => s'
  | some o =>
    if !s.takesFrom src n || (s.locked && closedTo src Reg.FLD_CTRL) || !((regAt Reg.FLD_CTRL).map fun r => r.inRange w).getD true then s'
    else s.postPkg .hifRange 0 [bar0 n o, w.toNat]

/-- R159: the points of the curve in a bank: x and n. -/
def Stake.curve (k : Stake) (bank : Nat) : List (Int × Int) :=
  (List.range 32).map fun i => (k.tblWord bank (0xA6000 + 16 * i), k.tblWord bank (0xA6008 + 16 * i))

/-- R159: the x values strictly ascend. -/
def curveOk : List (Int × Int) → Bool
  | a :: b :: t => a.1 < b.1 && curveOk (b :: t)
  | _ => true

/-- R159: the curve at an input: linear between points, flat outside. -/
def curveAt (x : Int) : List (Int × Int) → Int
  | [] => 0
  | [a] => a.2
  | a :: b :: t =>
    if x ≤ a.1 then a.2
    else if x < b.1 then divNear (a.2 * (b.1 - a.1) + (b.2 - a.2) * (x - a.1)) (b.1 - a.1).toNat
    else curveAt x (b :: t)

/-- A write of `FLD_TBL_CTRL` (R166); `copyOk` says whether the copy the plait makes at a swap of table 1 compares equal (R298). Table 2 is on stake 1 only (R17); its bank is refused where its x values do not ascend (R159). -/
def Stake.wTblCtrl (k : Stake) (w : Reg32) (copyOk : Bool := true) : Stake × Bool :=
  let sw := (Reg.FLD_TBL_CTRL_SWAP).of w
  let sw := if k.id = 1 then sw else sw % 4
  if sw.testBit 2 && !curveOk (k.curve (1 - k.fldBank 2)) then (k, true)
  else
    let k := if sw.testBit 1 then k.onPrt fun p => { p with copyBad := !copyOk } else k
    (k.put Reg.FLD_TBL_CTRL_PENDING (k.fld Reg.FLD_TBL_CTRL_PENDING ||| sw), false)

/-- The write of `FLD_TBL_CTRL` at the level of the block. -/
def State.tblCtrlWrite (s : State) (src : Src) (n : Nat) (w : Reg32) (copyOk : Bool := true) : State :=
  let s' := s.stakeWrite src n Reg.FLD_TBL_CTRL w fun k => (k.wTblCtrl w copyOk).1
  if s.takesFrom src n && !(s.locked && closedTo src Reg.FLD_TBL_CTRL) && ((s.stake n).wTblCtrl w).2 then
    s'.rangeDrop (bar0 n Reg.FLD_TBL_CTRL) w
  else s'

/-- PASS (R130, R134 to R164): the action of entry e of the scheduler takes effect. -/
def execPass (n e : Nat) (s : State) : Host.Outcome State Fault Refusal :=
  .next (s.onStake n fun k => match k.takeAct e 2 with
    | none => k
    | some (_, k) => k.runPass)

/-- PARAM_COMMIT (R165). -/
def execParamCommit (n : Nat) (src : Src) (w : Reg32) (s : State) : Host.Outcome State Fault Refusal :=
  .next (if w.getLsbD 1 then s.fldCtrlWrite src n w else s)

/-- FLD_TABLE_SWAP (R166, R298). `copyOk` says whether the plait's copy of the flux table, made at the swap, compares equal. -/
def execFldTableSwap (n : Nat) (src : Src) (w : Reg32) (copyOk : Bool) (s : State) : Host.Outcome State Fault Refusal :=
  .next (s.tblCtrlWrite src n w copyOk)

/-- FLD_APPLY (R167). -/
def execFldApply (n : Nat) (src : Src) (w : Reg32) (s : State) : Host.Outcome State Fault Refusal :=
  .next (if w.getLsbD 0 then s.fldCtrlWrite src n w else s)

/-- R160: the fallback input is lost: the event is posted once for the loss, an input that has never come included. -/
def Stake.fbLose (k : Stake) : Stake :=
  let k := k.putB Reg.FLD_FB_STATUS_INPUT_OK false
  if k.fe.fbLost then k
  else ((k.onFe fun f => { f with fbLost := true }).putB Reg.FLD_FB_STATUS_INPUT_LOSS true).post .fldFbInputLoss 1

/-- R160, R302: a fallback command reaches a stake: ACTIVE with a speed in 1/16 rpm, or STOPPED. -/
def Stake.takeFallback (k : Stake) (act : Bool) (rpm16 : Int) : Stake :=
  if !k.flag Reg.PLT_AXIS_STATE_FALLBACK || k.stopped then k
  else
    let w := sat48 (divNear (rpm16 * k.fld Reg.POS_CTRL_POLE_PAIRS * 256 * 17592186044416) (960 * k.inForce Reg.FLD_BASE_F_F_BASE))
    k.refreshHost.onFe fun f => { f with fb := some (if act then { kind := 1, a := w } else { kind := 0 }) }

/-- R160: the CAN input has not been refreshed for `FB_TIMEOUT`. -/
def Stake.fbStale (k : Stake) : Bool :=
  match k.fe.canAt with
  | none => true
  | some t => t + 400000 * k.fld Reg.FLD_FB_CTRL_FB_TIMEOUT ≤ k.now

/-- FB_INPUT_TIMEOUT (R160): stake 1's CAN input. -/
def execFbInputTimeout (s : State) : Host.Outcome State Fault Refusal :=
  .next (s.onStake 1 fun k => if k.fld Reg.FLD_FB_CTRL_FB_SRC = 0 && k.fbStale then k.fbLose else k)

/-- R160: one evaluation of the curve and the commands it sends. -/
def Stake.fallbackTick (k : Stake) : Stake :=
  if !k.flag Reg.FLD_FB_CTRL_EN || k.fld Reg.PLT_VOTE_STATUS_MODE = 2 then k
  else
    let src := k.fld Reg.FLD_FB_CTRL_FB_SRC
    let c := 13 + src
    let centre := k.rd (Reg.SNS_CH_CENTRE c)
    let lost := if src = 0 then k.fbStale
      else k.flag (Reg.SNS_CH_STATUS_UNAVAIL c) || (k.chan c).qual &&& 11 ≠ 0 || k.fe.fbCentre = some centre
    let k := if lost then k.fbLose else (k.putB Reg.FLD_FB_STATUS_INPUT_OK true).onFe fun f => { f with fbLost := false }
    let k := k.onFe fun f => { f with fbCentre := if src = 0 then none else some centre }
    let x := if lost then 0 else if src = 0 then k.fe.canX else (k.chan c).y
    let act := if k.int48 Reg.FLD_FB_XON < x then true else if x < k.int48 Reg.FLD_FB_XOFF then false else k.flag Reg.FLD_FB_STATUS_ACTIVE
    let k := (k.put48 Reg.FLD_FB_X (w48 x)).putB Reg.FLD_FB_STATUS_ACTIVE act
    let rpm := curveAt x (k.curve (k.fldBank 2))
    let tgt := k.fld Reg.FLD_FB_CTRL_TARGETS
    (List.range 8).foldl (fun q n =>
      if !tgt.testBit n then q
      else if n = q.id then q.takeFallback act (if act then rpm else 0)
      else q.sendCell (q.cell n 0 6 0xFFFF [if act then 1 else 0, if act then word rpm else 0])) k

/-- FALLBACK_TICK (R31, R159, R160): every 1 ms on stake 1, until it is lost. -/
def execFallbackTick (s : State) : Host.Outcome State Fault Refusal :=
  .next (s.onStake 1 fun k => if s.pkg.boot.lost.testBit 1 || k.stopped then k else k.fallbackTick)

/-- CATCH_LEGS_OFF_END (R162, R163). -/
def execCatchLegsOffEnd (n : Nat) (s : State) : Host.Outcome State Fault Refusal :=
  .next (s.onStake n fun k => match k.fe.catching with
    | none => k
    | some c =>
      if c.step ≠ 1 || k.now < c.start + 800000 then k
      else
        let k := k.leaveSwitching
        if 0 < c.emfN && k.par 33 * c.emfN ≤ c.emfSum then
          (k.put Reg.FLD_STATUS_CATCH_STEP 2).onFe fun f => { f with catching := some { c with step := 2, smallSince := none } }
        else if k.inForceB Reg.FLD_CTRL_MACHINE then k.catchEnd 3 0 0 0 false
        else (k.put Reg.FLD_STATUS_CATCH_STEP 3).onFe fun f => { f with catching := some { c with step := 3, nextPulse := k.now } })

/-- CATCH_PLL_LOCK (R162, R163): the loop's error has been small for one full electrical period at its own frequency. -/
def execCatchPllLock (n : Nat) (s : State) : Host.Outcome State Fault Refusal :=
  .next (s.onStake n fun k => match k.fe.catching with
    | none => k
    | some c => match c.smallSince with
      | none => k
      | some t =>
        let w := c.pllOmega
        if c.step = 2 && w ≠ 0 && rev48 ≤ ((k.now - t : Nat) : Int) * iabs w then
          k.catchEnd 1 (c.argE - quarter w) c.lastTick w true
        else k)

/-- CATCH_TIMEOUT (R162, R163). -/
def execCatchTimeout (n : Nat) (s : State) : Host.Outcome State Fault Refusal :=
  .next (s.onStake n fun k => match k.fe.catching with
    | none => k
    | some c =>
      if c.step = 2 && c.start + 400000 * k.inForce Reg.FLD_CATCH_CFG_T_CATCH ≤ k.now then k.catchEnd 2 0 0 0 false else k)

/-- CATCH_ZV_PULSE (R162, R465): all three low sides on for `ZV_TIME`, a capture of the field engine's group centred at the end. -/
def execCatchZvPulse (n : Nat) (s : State) : Host.Outcome State Fault Refusal :=
  .next (s.onStake n fun k => match k.fe.catching with
    | none => k
    | some c =>
      if c.step ≠ 3 || k.inForce Reg.FLD_CATCH_CFG_ZV_N ≤ c.pulses || k.now < c.nextPulse then k
      else
        let on := k.nowI
        let len := k.inForce Reg.FLD_CATCH_CFG_ZV_TIME
        let off := on.plus (32 * len)
        let k := [0, 1, 2].foldl (fun q p => (q.schedule p .lsOn on).schedule p .lsOff off) k
        let g := k.inForce Reg.FLD_MAP_GROUP_A
        let k := k.captureGroup g off.tick
        let ct := match (k.group g).inFlight.getLast? with | some x => x.centre | none => off.tick
        let c' := { c with pulses := c.pulses + 1, nextPulse := c.nextPulse + 400 * k.inForce Reg.FLD_CATCH_GAP_ZV_GAP, lastCentre := ct }
        k.onFe fun f => { f with catching := some c' })

end Sys2Proof.Machine
end

