-- ==== Sys2Proof/Machine/PatOps.lean ====
section
/-! DEFINITION. The pattern engine (R185 to R189), seams (R191), the boundary of the modulation unit (R170 to R184, R193, R194, R197, R221,
R266). -/
namespace Sys2Proof.Machine

/-- R186: the index of a set against a slot's bounds, in 2^-14: low, high. -/
def Stake.slotBounds (k : Stake) (s : Nat) : Int × Int :=
  ((k.inForce (Reg.MOD_SLOT_M_M_LO s) : Int) * 1073741824, (k.inForce (Reg.MOD_SLOT_M_M_HI s) : Int) * 1073741824)

/-- R186: the angles of a slot interpolated at an index. -/
def Stake.alphas (k : Stake) (s : Nat) (m : Int) : List Nat :=
  let pts := k.inForce (Reg.MOD_SLOT_M_M1 s) + 1
  let (lo, hi) := k.slotBounds s
  if k.slotN s = 0 then []
  else if pts = 1 then k.slotRow s 0
  else
    let (j, f) := gridAt m lo hi (pts - 1)
    ((k.slotRow s j).zip (k.slotRow s (j + 1))).map fun (a, b) => (((a : Int) * (one44 - f) + b * f) / one44).toNat

/-- R186: the angles at which S toggles over a revolution, ascending, from 0. -/
def patEdges (al : List Nat) : List Nat :=
  let h := [0] ++ al ++ al.reverse.map fun a => 140737488355328 - a
  h ++ h.map fun a => a + 140737488355328

/-- R186: S at an angle. -/
def patS (al : List Nat) (a : Word48) : Bool :=
  let n := ((patEdges al).filter fun e => 0 < e && e ≤ a.toNat).length
  (al.length % 2 = 0) != (n % 2 = 1)

/-- R186: x × 120° − 90°. -/
def phaseShift (x : Nat) : Word48 := BitVec.ofNat 48 (x * 281474976710656 / 3) - 70368744177664

/-- R186: the state of phase x of a pattern at the pattern angle φ. -/
def patPhase (al : List Nat) (x : Nat) (phi : Word48) : Bool := patS al (phi - phaseShift x)

/-- The edges of phase x as pattern angles. -/
def phaseEdges (al : List Nat) (x : Nat) : List Word48 := (patEdges al).map fun e => BitVec.ofNat 48 e + phaseShift x

/-- Distance from an angle to another in the direction of rotation. -/
def ahead (rev : Bool) (from_ dst : Word48) : Nat := if rev then (from_ - dst).toNat else (dst - from_).toNat

/-- The edge of a list nearest ahead of an angle, not at it, with its distance. -/
def nextEdge (rev : Bool) (l : List Word48) (p : Word48) : Option (Word48 × Nat) :=
  l.foldl (fun b e =>
    let d := ahead rev p e
    if d = 0 then b else match b with
      | none => some (e, d)
      | some (_, d0) => if d < d0 then some (e, d) else b) none

/-- R193: the flux reference of a set: its own, or ψ* = v/(jω_pu). -/
def Stake.psiRef (k : Stake) (s : USet) : Int × Int :=
  if s.form = 2 then (s.psiA, s.psiB)
  else
    let w := k.perUnit (k.clock 0).omega
    if w = 0 then (0, 0) else (div44 s.vb w, -(div44 s.va w))

/-- R187: δ = arg ψ* + 2^46 − θ_out. -/
def Stake.loadAngle (k : Stake) (s : USet) : Word48 :=
  let p := k.psiRef s
  atan2 p.2 p.1 + 70368744177664 - s.angleOut

/-- R187: the pattern angle at the present tick. -/
def Stake.phiNow (k : Stake) : Word48 := (k.clock 0).theta + k.loadAngle k.modu.set

/-- The modulation index of the set in force: that of a flux-form set, or |v| / (u_dc/√3). -/
def modIndexOf (s : USet) : Int :=
  if s.form = 2 then s.m
  else if s.udc ≤ 0 then 0 else div44 (mul44 (hyp44 s.va s.vb) 30470560045132) s.udc

/-- The angles in force of a slot for the set in force. -/
def Stake.slotAngles (k : Stake) (s : Nat) : List Nat := k.alphas s (modIndexOf k.modu.set)

/-- The interval around an angle in which a list of edge lists has no edge: behind and ahead of it. -/
def gapAround (rev : Bool) (edges : List Word48) (p : Word48) : Nat × Nat :=
  let f := match nextEdge rev edges p with | some (_, d) => d | none => 281474976710656
  let b := match nextEdge (!rev) edges p with | some (_, d) => d | none => 281474976710656
  (b, f)

/-- R191: a seam in the middle of an interval of at least `SEAM_MIN` ticks at the present speed. -/
def Stake.atMidpoint (k : Stake) (edges : List Word48) (p : Word48) : Bool :=
  let w := (k.clock 0).omega.natAbs
  let (b, f) := gapAround (k.clock 0).rev edges p
  k.inForce Reg.MOD_SYNC_SEAM_MIN * w ≤ b + f && (b : Int) - f ≤ w && (f : Int) - b ≤ w

/-- The three phases' states of a pattern. -/
def patState (al : List Nat) (phi : Word48) : List Bool := [0, 1, 2].map fun x => patPhase al x phi

/-- All edges of a pattern's three phases. -/
def allEdges (al : List Nat) : List Word48 := [0, 1, 2].flatMap (phaseEdges al)

/-- R189: the stator flux estimate carried from where it holds to the present tick by the voltage the unit has applied. -/
def Stake.fluxNow (k : Stake) : Int × Int :=
  let p := k.modu.pat
  let u := k.modu.set.udc
  let t0 : Instant := ⟨p.psiAt, 0⟩
  let span := k.nowI.minus t0
  -- Twice the signed on-time of each phase in fine steps: +1 while high, −1 while low.
  let ph := fun (x : Nat) =>
    let es := p.edges.filter fun e => e.2.1 = x
    let init := match es.find? fun e => laterInstant e.1 t0 with
      | some e => !e.2.2
      | none => (match es.getLast? with | some e => e.2.2 | none => (k.mport x).level)
    let l := es.filter fun e => laterInstant e.1 t0 && !laterInstant e.1 k.nowI
    let r := l.foldl (fun (a : Int × Int × Bool) e =>
      let at_ := e.1.minus t0
      (a.1 + (if a.2.2 then at_ - a.2.1 else a.2.1 - at_), at_, e.2.2)) (0, 0, init)
    r.1 + (if r.2.2 then span - r.2.1 else r.2.1 - span)
  -- Volt-seconds per phase: u_dc/2 times that time as per-unit time.
  let vs := fun (x : Nat) => divNear (mul44 u (k.perUnitTime 1) * ph x) 64
  let ab := clarke (vs 0) (vs 1) (vs 2)
  (p.psi.1 + ab.1, p.psi.2 + ab.2)

/-- R189: ∫S dφ from 0 to an angle, in counts. -/
def intS (al : List Nat) (a : Nat) : Int :=
  let es := (patEdges al).filter fun e => 0 < e && e ≤ a
  let s0 : Bool := al.length % 2 = 0
  let r := es.foldl (fun (x : Int × Nat × Bool) e =>
    (x.1 + (if x.2.2 then ((e - x.2.1 : Nat) : Int) else -((e - x.2.1 : Nat) : Int)), e, !x.2.2)) (0, 0, s0)
  r.1 + (if r.2.2 then ((a - r.2.1 : Nat) : Int) else -((a - r.2.1 : Nat) : Int))

/-- R189: π/4 times the fundamental amplitude of S: s₀ + 2Σ∓cos α_k, in Q4.44. -/
def fundS (al : List Nat) : Int :=
  let s0 : Int := if al.length % 2 = 0 then 1 else -1
  (al.foldl (fun (x : Int × Int) a => (x.1 - 2 * x.2 * cos44 (BitVec.ofNat 48 a), -x.2)) (s0 * one44, s0)).1

/-- R189: the reference flux of phase x at a pattern angle, of the sign of ω_pu. -/
def psiRefPhase (al : List Nat) (mag : Int) (rev : Bool) (x : Nat) (phi : Word48) : Int :=
  let mag := if rev then -mag else mag
  let i := 2 * intS al (phi - phaseShift x).toNat - intS al 140737488355328
  let f := fundS al
  if f = 0 then 0
  else
    -- I in radians over 4/π × f: i/2 × 2π/2^48 × π/(4f).
    let num := mag * i * (twoPi80 * twoPi80 / 2 ^ 80) / 2 ^ 52
    if 0 < f then num * one44 / (f * 2 ^ 80) else -(num * one44 / (-f * 2 ^ 80))

/-- R189: the reference flux of a pattern at an angle, for the magnitude of the set in force. -/
def Stake.psiRefAt (k : Stake) (al : List Nat) (phi : Word48) : Int × Int :=
  let ps := k.psiRef k.modu.set
  let f := fun (x : Nat) => psiRefPhase al (hyp44 ps.1 ps.2) ((k.clock 0).omega < 0) x phi
  clarke (f 0) (f 1) (f 2)

/-- R189: the estimate is carried to the present tick. -/
def Stake.carryFlux (k : Stake) : Stake :=
  let f := k.fluxNow
  k.onMod fun m => { m with pat := { m.pat with psi := f, psiAt := k.ang.tick } }

/-- R188, R191: the pointer of a phase at a seam: the incoming pattern's edges stand for the commutations the outgoing one has committed
beyond it, so that none is sent twice and none is moved. -/
def Stake.seamPtr (k : Stake) (al : List Nat) (phi : Word48) (x : Nat) : Word48 :=
  let sent := (k.modu.pat.edges.filter fun e => e.2.1 = x && laterInstant e.1 k.nowI).length
  (List.range sent).foldl (fun p _ => match nextEdge (k.clock 0).rev (phaseEdges al x) p with | some (e, _) => e | none => p) phi

/-- R190, R191: the mode changes to a slot; the pattern engine starts at the seam. The estimate of R189 starts from the set's ψ̂ at t_c
where the set in force has the flux form; where it has not, the spec names no start, and it starts on the reference (DESIGN CHOICE, log 142). -/
def Stake.intoSlot (k : Stake) (s : Nat) : Stake :=
  let kd := k.slotKind s
  let k := ((k.put Reg.MOD_STATUS_SLOT s).put Reg.MOD_STATUS_KIND kd).putB Reg.MOD_STATUS_SEAM_PENDING false
  let k := k.onMod fun m => { m with req := none, trig := if kd = 0 then m.trig else [] }
  if kd = 0 then k
  else
    let phi := k.phiNow
    let c := k.modu.set.period
    let p := if k.inForceB Reg.MOD_CTRL_DOUBLE then c / 2 else c
    let nb := if k.modu.nextB = k.ang.tick then k.modu.nextB else k.ang.tick + w48 p
    let own := k.modu.set.form = 2
    let al := k.slotAngles s
    let psi := if own then (k.modu.set.hatA, k.modu.set.hatB) else k.psiRefAt al phi
    let ptr := [0, 1, 2].map (k.seamPtr al phi)
    let k := k.onMod fun m =>
      { m with
        start := none, peakAt := none, nextB := nb
        pat := { tSeam := k.ang.tick, ptr := ptr, psi := psi, psiAt := if own then m.set.tc else k.ang.tick, edges := m.pat.edges } }
    if k.inForceB Reg.MOD_EPOCH_CTRL_EN then k.setEpoch 3 else k

/-- R191: a seam of the pending request at the present tick, if there is one. -/
def Stake.trySeam (k : Stake) : Stake :=
  match k.modu.req with
  | none => k
  | some (s, _, _) =>
    let from_ := k.kindNow
    let dst := k.slotKind s
    let atB := k.modu.run && k.ang.tick = k.modu.nextB
    let phi := k.phiNow
    if !k.modu.run then k
    else if from_ = 0 && dst = 0 then (if atB then k.intoSlot s else k)
    else if from_ = 0 then
      if !atB then k
      else
        let al := k.slotAngles s
        let lv := [0, 1, 2].map fun p => (k.mport p).level
        let (_, f) := gapAround (k.clock 0).rev (allEdges al) phi
        if patState al phi = lv && k.inForce Reg.MOD_SYNC_SEAM_MIN * (k.clock 0).omega.natAbs ≤ f then k.intoSlot s else k
    else
      let al := k.slotAngles k.slotNow
      let st := patState al phi
      if dst = 0 then
        let zero := st = [false, false, false]
        if (zero || st = [true, true, true]) && k.atMidpoint (allEdges al) phi then
          (([0, 1, 2].foldl Stake.dropCommitted k).intoSlot s).restartCarrier k.ang.tick zero
        else k
      else
        let al2 := k.slotAngles s
        if st = patState al2 phi && k.atMidpoint (allEdges al ++ allEdges al2) phi then
          let p0 := k.modu.pat.psi
          let pa := k.modu.pat.psiAt
          (k.intoSlot s).onMod fun m => { m with pat := { m.pat with psi := p0, psiAt := pa } }
        else k

/-- R189: the shift of the next edge of phase x, in fine steps, earlier positive. -/
def Stake.trackShift (k : Stake) (al : List Nat) (x : Nat) (rising : Bool) (gap : Nat) : Int :=
  let phi := k.phiNow
  let u := k.modu.set.udc
  let w := (k.clock 0).omega.natAbs
  if u ≤ 0 || w = 0 then 0
  else
    let e := sub2 (k.psiRefAt al phi) k.fluxNow
    let ex := nth 0 (phases e.1 e.2) x
    let t := div44 ex (divNear (2 * u) 3)
    let t := divNear (t * k.inForce Reg.MOD_TRACK_TRACK_GAIN) 256
    let one := k.perUnitTime 1
    let fineSteps := if one = 0 then 0 else divNear (32 * t) one.toNat
    let lim : Int := 32 * (gap * k.inForce Reg.MOD_TRACK_SHIFT_MAX / 256 / w : Nat)
    clampI (-lim) lim (if rising then fineSteps else -fineSteps)

/-- Edges of a phase between the pointer and the present angle, when that angle has run past it by less than half a turn. -/
def passedEdges (rev : Bool) (l : List Word48) (p phi : Word48) : List Word48 :=
  let d := ahead rev p phi
  if 140737488355328 ≤ d then [] else l.filter fun e => 0 < ahead rev p e && ahead rev p e ≤ d

/-- R187 to R189: commitment of the edges of one phase at a recompute; `n` bounds the edges committed at once. -/
def Stake.commitPhase (k : Stake) (al : List Nat) (x : Nat) : Nat → Stake
  | 0 => k
  | n + 1 =>
    let c := k.clock 0
    let w := c.omega.natAbs
    let phi := k.phiNow
    let p := nth 0 k.modu.pat.ptr x
    let es := phaseEdges al x
    let past := passedEdges c.rev es p phi
    if 2 ≤ past.length then
      -- R188: only the net change of the state is sent.
      let want := patPhase al x phi
      let far := past.foldl (fun b e => if ahead c.rev p b < ahead c.rev p e then e else b) p
      let k := k.onMod fun m => { m with pat := { m.pat with ptr := updAt m.pat.ptr x fun _ => far, shift := updAt m.pat.shift x fun _ => 0 } }
      if (k.mport x).level = want then (k.bump Reg.MOD_SYNC_SKIP_CNT past.length).commitPhase al x n
      else
        ((k.place x want k.soonest k.soonest).bump Reg.MOD_SYNC_SKIP_CNT (past.length - 1)).commitPhase al x n
    else match nextEdge c.rev es p with
      | none => k
      | some (e, _) =>
        if w = 0 then k
        else
          let after := if c.rev then e - 1 else e
          let rising := patPhase al x after
          let d := if past.isEmpty then ahead c.rev phi e else 0
          let gapF := match nextEdge c.rev es e with | some (_, g) => g | none => 0
          let gapB := match nextEdge (!c.rev) es e with | some (_, g) => g | none => 0
          let sh := nth 0 k.modu.pat.shift x + k.trackShift al x rising (min gapF gapB)
          let ideal : Int := 32 * d / w
          let sh := min sh (max 0 (ideal - 512))
          let tstar := k.nowI.plus (ideal - sh)
          let ie := edgeCurrent k.modu.set (k.thetaAt tstar) x
          let a := k.advanceQ x rising ie (32 * k.deadTime x)
          -- R187: 32·D/ω less the shift and Δ, rounded once.
          let ta := k.nowI.plus (divNear ((32 * (d : Int) - sh * w) * a.2 - a.1 * w) (w * a.2.toNat))
          if ta.minus k.nowI < 464 * 32 then
            let late := ta.minus k.nowI < 32 * 32
            let k := (k.place x rising tstar ta).bump Reg.MOD_SYNC_LATE_CNT (if late then 1 else 0)
            let k := k.onMod fun m =>
              { m with pat := { m.pat with
                  ptr := updAt m.pat.ptr x fun _ => e
                  shift := updAt m.pat.shift x fun _ => 0 } }
            k.commitPhase al x n
          else k.onMod fun m => { m with pat := { m.pat with shift := updAt m.pat.shift x fun _ => sh } }

/-- R192: low speed in a pattern: the fallback slot is requested. -/
def Stake.slowAbort (k : Stake) : Stake :=
  let already := match k.modu.req with | some (_, _, a) => a | none => false
  if already || !k.speedBelow (7 * k.inForce Reg.MOD_SYNC_SYNC_MIN) 8 then k
  else
    let fb := k.inForce Reg.MOD_CTRL_FALLBACK_SLOT
    ((k.onMod fun m => { m with req := some (fb, k.now, true) }).putB Reg.MOD_STATUS_SEAM_PENDING true).post .modSyncAbort 0 [1]

/-- R265: an insertion is counted; the first since the counter was zero posts `REFRESH_INSERTED`. -/
def Stake.countRefresh (k : Stake) (p : Nat) : Stake :=
  let z := k.fld (Reg.LEG_PORT_REFRESH_CNT_COUNT p) = 0
  let k := k.bump (Reg.LEG_PORT_REFRESH_CNT p)
  if z then k.post .refreshInserted 0 [p] else k

/-- R265: the refresh length with the minimum high-side off time. -/
def Stake.refreshLen (k : Stake) (p : Nat) : Nat :=
  max (k.inForce (Reg.LEG_PORT_BOOT_T_REFRESH p)) (k.inForce Reg.MOD_MINPULSE_MIN_PULSE - 2 * k.deadTime p)

/-- R265: D_r, a time. -/
def Stake.refreshBy (k : Stake) (p : Nat) : Nat := (k.lport p).refEnd + 400 * k.inForce (Reg.LEG_PORT_BOOT_T_HOLD p)

/-- R265: t_L, a time. -/
def Stake.refreshLatest (k : Stake) (p : Nat) : Nat := k.refreshBy p - (k.refreshLen p + k.deadTime p + 48)

/-- R264, R265: the port is bootstrap-fed, READY and at work: a phase port that switches, or AUX in a mode that uses its switch. -/
def Stake.refreshes (k : Stake) (p : Nat) : Bool :=
  k.inForceB (Reg.LEG_PORT_CFG_SUPPLY p) && k.portReady p && (if p = 3 then k.inForce (Reg.MOD_PORT_CFG_AUX_MODE 3) ≠ 0 else k.switching)

/-- R265: the due window of a port is open at a time. -/
def Stake.refreshOpen (k : Stake) (p t : Nat) : Bool :=
  k.refreshes p && k.refreshBy p ≤ t + 100 * k.inForce (Reg.LEG_PORT_BOOT_T_HOLD p)

/-- The turn-on symbol, if any, of the state a port's records give (R265, R266). -/
def Stake.recordsState (k : Stake) (p : Nat) : List Symb :=
  let q := k.mport p
  if p = 3 then (if q.level then [k.auxSym true] else [])
  else if q.known then [if q.level then .hsOn else .lsOn] else []

/-- R266, R267: the refresh that follows a `BOOT_UV`, or one that has fallen due during a cut, at the end of the cut: LS_ON at the later
of the end and the cut plus `MIN_PULSE`, LS_OFF `T_REFRESH` later, and the records' state again. -/
def Stake.bootAfterCut (k : Stake) (p : Nat) (cutAt e : Instant) : Stake :=
  if (k.mport p).seized || (!(k.lport p).bootRefresh && !k.refreshOpen p k.now) then k
  else
    let m := cutAt.plus (32 * k.inForce Reg.MOD_MINPULSE_MIN_PULSE)
    let on := if laterInstant m e then m else e
    let off := on.plus (32 * k.inForce (Reg.LEG_PORT_BOOT_T_REFRESH p))
    let k := k.onLeg p fun q => { q with bootRefresh := false, refEnd := k.now + (off.minus k.nowI / 32).toNat }
    let back := k.recordsState p
    let k := ((k.hand p .lsOn on true).hand p .lsOff off true).countRefresh p
    let ret := (spaced (some off) (off.plus (32 * k.deadTime p))).1
    let k := back.foldl (fun q y => q.hand p y ret true) k
    -- A record up to 48 ticks behind the return only changes the state returned to.
    (k.onPort p fun q => { q with resume := some off, skip := some (e, ret.plus (48 * 32), ret, true) }).putB (Reg.LEG_PORT_STATUS_REFRESH_DUE p) false

/-- R204, R266: a cut of a port ends at a tick. -/
def Stake.finishCut (k : Stake) (p : Nat) (e : Word48) : Stake :=
  match (k.mport p).cut with
  | none => k
  | some c =>
    let k := (k.endCut p e).bootAfterCut p c.at_ ⟨e, 0⟩
    if p = 3 && k.inForce (Reg.MOD_PORT_CFG_AUX_MODE 3) = 3 then k.auxRequest else k

end Sys2Proof.Machine
end

