-- ==== Sys2Proof/Machine/ModBound.lean ====
section
/-! DEFINITION. The transfer boundary (R170 to R184, R193, R194, R197, R205, R206, R221, R257, R266) and the carrier's start (R464). -/
namespace Sys2Proof.Machine

/-- R171: length in ticks of the boundary period for a carrier of C, without trim. -/
def Stake.periodP (k : Stake) (c : Nat) : Nat := if k.inForceB Reg.MOD_CTRL_DOUBLE then c / 2 else c

/-- R176, R219, R220: a waiting set may be taken at boundary B. -/
def USet.due (s : USet) (b : Word48) : Bool :=
  match s.target with
  | none => s.guard ≤ (b - s.closeAt).toInt
  | some t => if b = t then 9 ≤ (t - s.closeAt).toInt else reached b t && 9 ≤ (b - s.closeAt).toInt

/-- R176, R219, R220: a waiting set is late at boundary B. -/
def USet.lateAt (s : USet) (b : Word48) : Bool :=
  match s.target with
  | none => (let d := (b - s.closeAt).toInt; 0 ≤ d && d < s.guard)
  | some t => reached b t && (t - s.closeAt).toInt < 9

/-- R177: the later of two sets; in one tick the pass's. -/
def laterSet (a b : USet) : USet :=
  if laterTick b.closeAt a.closeAt then b else if a.closeAt = b.closeAt && b.pass then b else a

/-- R176, R177: the set taken at boundary B, if any; the late and superseded counts. -/
def Stake.dueSet (k : Stake) (b : Word48) : Option USet × Stake :=
  let l := k.modu.waiting
  let newLate := (l.filter fun x => x.1.lateAt b && !x.2).length
  let due := l.filter fun x => x.1.due b
  let rest := (l.filter fun x => !x.1.due b).map fun x => (x.1, x.2 || x.1.lateAt b)
  let k := (k.onMod fun m => { m with waiting := rest }).bump Reg.MOD_LATE_SETS newLate
  match due with
  | [] => (none, k)
  | x :: t => (some (t.foldl (fun a y => laterSet a y.1) x.1), k.bump Reg.MOD_SUPERSEDED_CNT t.length)

/-- R178, R184: an absolute on-time, in fine steps, under a changed period. -/
def Stake.clampOn (k : Stake) (c d : Nat) : Nat × Bool :=
  let mp := k.inForce Reg.MOD_MINPULSE_MIN_PULSE
  if 0 < d && 32 * c < d + 32 * mp then (32 * (c - mp), true) else (d, false)

/-- R178: the clamps counted and posted. -/
def Stake.countClamps (k : Stake) : List Bool → Stake
  | [] => k
  | b :: t =>
    let k := if b then ((k.bump Reg.MOD_DUTY_CLAMP_CNT).bump Reg.MOD_MINPULSE_CNT).post .dutyClamp 0 else k
    k.countClamps t

/-- R178: the effects of a period change on the duties in force. -/
def Stake.periodChange (k : Stake) (old : Nat) (s : USet) : Stake :=
  let c := k.modu.set.period
  if !s.mask.testBit 0 || old = c || old = 0 then k
  else
    let bare := !s.mask.testBit 1 && !s.mask.testBit 3
    let diff := if c < old then old - c else c - old
    let k := if bare && k.inForce Reg.MOD_SKEW_SKEW_LIM * old < diff * 256 then k.post .updateSkew 0 [old, c] else k
    let f := k.modu.set
    let ph := if bare && f.form = 1 && f.dutyFmt = 1 then f.duty.map (k.clampOn c) else f.duty.map fun d => (d, false)
    let aux := if !s.mask.testBit 5 && f.auxFmt = 1 && k.inForce (Reg.MOD_PORT_CFG_AUX_MODE 3) = 1 then k.clampOn c f.auxDuty
      else (f.auxDuty, false)
    (k.onMod fun m => { m with set := { m.set with duty := ph.map (·.1), auxDuty := aux.1 } }).countClamps
      (ph.map (·.2) ++ [aux.2])

/-- R175 to R178, R186, R190, R193: a set is taken. -/
def Stake.takeSet (k : Stake) (s : USet) : Stake :=
  let old := k.modu.set.period
  let pat := k.kindNow ≠ 0
  let k := k.onMod fun m => { m with set := s.over m.set }
  let k := k.periodChange old s
  let k := if (pat && s.mask.testBit 1 && !s.mask.testBit 2) || (!pat && s.mask.testBit 2) then k.bump Reg.MOD_FORM_MISMATCH_CNT else k
  let k := if s.mask.testBit 2 then
      k.onMod fun m => { m with pat := { m.pat with psi := (s.hatA, s.hatB), psiAt := s.tc } } else k
  if s.mask.testBit 6 then k.requestSlot s.slot false else k

/-- R197, R257: the fixed-dead-time mode at a boundary. -/
def Stake.fdtStep (k : Stake) : Stake :=
  let n := k.inForce Reg.MOD_CTRL_FDT_PERIODS
  let ready := [0, 1, 2].filter k.portReady
  let wait := ready.filter fun p => k.flag (Reg.LEG_PORT_STATUS_FDT p)
  let enter := k.modu.fdtEnter
  let left := if enter then n else k.modu.fdtLeft
  let k := k.onMod fun m => { m with fdtEnter := false, fdtLeft := left - 1, fdtAsked := if enter then false else m.fdtAsked }
  let k := if enter && !(n = 0 && wait.isEmpty) then (k.putB Reg.MOD_STATUS_FDT true) else k
  let k := if enter && 0 < n then k.sendMode true else k
  if !k.flag Reg.MOD_STATUS_FDT then k
  else if 0 < left then
    if left = 1 then (k.sendMode false).onMod fun m => { m with fdtAsked := true } else k
  else if wait.isEmpty then
    [0, 1, 2, 3].foldl (fun q p => q.wr (Reg.MOD_PORT_WAIT p) 0) (k.putB Reg.MOD_STATUS_FDT false)
  else
    let k := if k.modu.fdtAsked then k else (k.sendMode false).onMod fun m => { m with fdtAsked := true }
    wait.foldl (fun q p => q.bump (Reg.LEG_PORT_MODE_WAIT_CNT p)) k

/-- R221, R222: the follower's late rule at boundary B, before the set is taken. The third late breaks the pairing, unless an F3 reaction
of the unit's axis (`unit`) acts at the same boundary. -/
def Stake.pairLate (k : Stake) (b : Word48) (unit : Bool) : Stake :=
  if !k.pairedFollower then k
  else
    let has := k.modu.waiting.any fun x => x.1.target = some b && 9 ≤ (b - x.1.closeAt).toInt
    if has then (k.put Reg.FLD_PAIR_STATUS_CONSEC 0).onPair fun p => { p with held := false }
    else if !([axRun, axDerate, axTest].contains k.pair.mirror.1) then k
    else
      let n := min 3 (k.fld Reg.FLD_PAIR_STATUS_CONSEC + 1)
      let k := ((k.bump Reg.FLD_PAIR_LATE_CNT).put Reg.FLD_PAIR_STATUS_CONSEC n).onPair fun p => { p with held := true }
      if 3 ≤ n && !unit then k.detectBreak 1 else k

/-- R135, R222: the boundary of this tick is the third in succession without a set of this field engine. -/
def Stake.passLossDue (k : Stake) : Bool :=
  k.modu.run && k.modu.nextB = k.ang.tick && k.axisIn [axRun, axDerate] && k.modu.lossRun = 2 &&
  !(match (k.dueSet k.ang.tick).1 with | some s => s.pass | none => false)

/-- R222 item 2: an F3 reaction of the unit's axis acts on this leader at the boundary of this tick. -/
def Stake.unitActs (k : Stake) : Bool :=
  k.pairedLeader && (k.axis = axSafe || (k.prt.f3.any fun r => unitFault r.ev) || k.passLossDue)

/-- R135: boundaries without a set of this field engine. -/
def Stake.passLoss (k : Stake) (took : Option USet) : Stake :=
  let own := match took with | some s => s.pass | none => false
  if own || !k.axisIn [axRun, axDerate] || k.pairedFollower || k.pairSt = 3 then k.onMod fun m => { m with lossRun := 0 }
  else
    let n := k.modu.lossRun + 1
    let k := k.onMod fun m => { m with lossRun := if 3 ≤ n then 0 else n }
    if 3 ≤ n then k.post .fldPassLoss 3 [k.fe.lastStart.toNat] else k

/-- R266: `BOOT_CONSEC` of a port at a boundary. -/
def Stake.bootBoundary (k : Stake) (p : Nat) : Stake :=
  if !(k.lport p).bootUv then k.put (Reg.LEG_PORT_STATUS_BOOT_CONSEC p) 0
  else
    let n := k.fld (Reg.LEG_PORT_STATUS_BOOT_CONSEC p)
    let k := (k.put (Reg.LEG_PORT_STATUS_BOOT_CONSEC p) (min 3 (n + 1))).onLeg p fun q => { q with bootUv := false }
    if n = 2 then k.post .legBootFault (k.inForce (Reg.LEG_PORT_CFG_BOOT_CLASS p)) [p, 3] else k

/-- R253: bands and selection tables written take effect. -/
def Stake.bandsTake (k : Stake) (p : Nat) : Stake := k.applyRange (0x60108 + 0x80 * p) (0x60128 + 0x80 * p)

/-- R206: the trims at the valley that begins a carrier: the one fixed a carrier ago takes effect, the next is fixed. -/
def Stake.trimStep (k : Stake) : Stake :=
  let lockable := k.fld Reg.MOD_STATUS_EPOCH_STATE = 1 || k.fld Reg.MOD_STATUS_EPOCH_STATE = 2
  let step : Int := k.inForce Reg.MOD_EPOCH_CTRL_EPOCH_STEP
  let e := k.modu.err
  let t := if lockable then clampI (-step) step (e.tdiv 64) else 0
  k.onMod fun m => { m with trim := m.trimNext, trimNext := t, err := e - 64 * t }

/-- The portion of a half of h fine steps from a duty in units of 2^-44, with the count of roundings (R172, R184). -/
def Stake.portionOf (k : Stake) (h d : Int) : Int × Nat :=
  roundPortion (32 * (k.inForce Reg.MOD_MINPULSE_MIN_PULSE : Int)) h (divNear (d * h) 17592186044416)

/-- R174, R182, R184: the on-time of an absolute duty for a carrier of C, with clip and rounding counts. -/
def Stake.absOn (k : Stake) (c : Nat) (clipped : Bool) (d : Nat) : Int × Nat × Nat :=
  let (lo, hi) := k.dutyLimits c
  let cc : Int := 32 * (c : Int)
  let (t, cl) := if clipped then clip (lo * cc / one44) (hi * cc / one44) d else (min cc d, false)
  let (t, n) := roundOnTime (32 * (k.inForce Reg.MOD_MINPULSE_MIN_PULSE : Int)) cc t
  (t, if cl then 1 else 0, n)

/-- R200: the AUX switch follows the schedule of the duty mode: only the switch `AUX_SW` names pulses. -/
def Stake.auxTo (k : Stake) (on : Bool) (t : Instant) : Stake :=
  if (k.mport 3).level = on then k
  else (k.schedule 3 (k.auxSym on) (if laterInstant k.soonest t then k.soonest else t)).onPort 3 fun q => { q with level := on }

/-- R172, R200: one half of the AUX on-interval. -/
def Stake.auxHalf (k : Stake) (b : Instant) (h portion : Int) (rising : Bool) : Stake :=
  if rising then
    let k := if portion < h then k.auxTo false b else k
    if 0 < portion then k.auxTo true (b.plus (h - portion)) else k
  else
    let k := if 0 < portion then k.auxTo true b else k
    if portion < h then k.auxTo false (b.plus portion) else k

/-- The two halves' portions of a leg: with the absolute form the on-time is one interval over the peak (R174, R184). -/
def halves (t h1 h2 : Int) : Int × Int := (min h1 (t / 2), min h2 (t - t / 2))

/-- R184: the rounding of an absolute on-time counts with the rising half, and with a falling half of another on-time or carrier. -/
def ModPort.newOn (q : ModPort) (rising : Bool) (d c : Nat) : Bool := rising || q.judged ≠ some (d, c)

/-- R172, R181 to R184: the records of the halves that begin at a boundary, of a carrier of C: one or two halves of given lengths in fine
steps, the first of which is rising or not. -/
def Stake.scheduleHalves (k : Stake) (b : Word48) (h : Int) (rising two : Bool) (c : Nat) : Stake :=
  let s := k.modu.set
  let b0 : Instant := ⟨b, 0⟩
  let b1 := b0.plus h
  let absolute := s.form = 1 && s.dutyFmt = 1
  let dcl := if absolute then (([] : List Int), 0) else k.duties s (h / 32 * (if two then 2 else 1)).toNat c
  let phase := fun (q : Stake) (p : Nat) =>
    if absolute then
      let d := nth 0 s.duty p
      let (t, cl, n) := q.absOn c true d
      let (pr, pf) := halves t h h
      let q := (q.bump Reg.MOD_DEPTH_CLIP_CNT cl).bump Reg.MOD_MINPULSE_CNT (if (q.mport p).newOn rising d c then n else 0)
      let q := q.onPort p fun r => { r with judged := some (d, c) }
      let q := q.legHalf p b0 h (if rising then pr else pf) rising
      if two then q.legHalf p b1 h pf false else q
    else
      let d := nth 0 dcl.1 p
      let (po, n) := q.portionOf h d
      let q := (q.bump Reg.MOD_MINPULSE_CNT (if two then 2 * n else n)).legHalf p b0 h po rising
      if two then q.legHalf p b1 h po false else q
  let k := if k.switching then
      [0, 1, 2].foldl phase (k.bump Reg.MOD_DEPTH_CLIP_CNT dcl.2)
    else [0, 1, 2].foldl (fun q p => q.onPort p fun r => { r with known := false }) k
  if k.inForce (Reg.MOD_PORT_CFG_AUX_MODE 3) ≠ 1 then k
  else
    let (pr, pf, n) :=
      if s.auxFmt = 1 then
        let (t, _, n) := k.absOn c false s.auxDuty
        let (a, b) := halves t h h
        (a, b, if (k.mport 3).newOn rising s.auxDuty c then n else 0)
      else
        let (po, n) := k.portionOf h (min (s.auxDuty : Int) 65536 * 268435456)
        (po, po, if two then 2 * n else n)
    let k := k.onPort 3 fun r => { r with judged := if s.auxFmt = 1 then some (s.auxDuty, c) else none }
    let k := (k.bump Reg.MOD_MINPULSE_CNT n).auxHalf b0 h (if rising then pr else pf) rising
    if two then k.auxHalf b1 h pf false else k

/-- The carrier or pattern goes on from boundary B: lengths, records, triggers, and the values of R173. -/
def Stake.nextPeriod (k : Stake) (b : Word48) : Stake :=
  let dbl := k.inForceB Reg.MOD_CTRL_DOUBLE
  if k.kindNow ≠ 0 then
    let p := k.periodP k.modu.set.period
    let k := k.onMod fun m => { m with nextB := b + w48 p }
    let k := k.onAng fun a => { a with period := (b, p), bndDone := [] }
    let k := if k.inForce (Reg.MOD_PORT_CFG_AUX_MODE 3) = 1 then k.auxTo false ⟨b, 0⟩ else k
    (k.put Reg.MOD_NEXT_P_NEXT p).put Reg.MOD_DEPTH_M_LIM (k.depthLimit k.modu.set.period)
  else
    let valley := k.modu.nextValley
    let first := match k.modu.start with | some (t, _) => t = b || !valley | none => false
    let c0 := if first then (match k.modu.start with | some (_, c) => c | none => 0) else k.modu.set.period
    let k := if first then k else k.onMod fun m => { m with start := none }
    let k := if valley then k.trimStep else k
    let h : Int := (c0 / 2 : Nat) + k.modu.trim
    -- R171: a single-update carrier that starts again at a peak has its first boundary at the valley one half on.
    let two := !dbl && valley
    let p := if two then 2 * h else h
    let k := k.onMod fun m => { m with nextB := b + w48 p, nextValley := if dbl then !valley else true, half := h.toNat }
    let k := k.onAng fun a => { a with period := (b, p.toNat), bndDone := [] }
    let k := k.scheduleHalves b (32 * h) valley two c0
    let k := (k.addTriggers (b + w48 h) b (!valley) h).onMod fun m => { m with peakAt := if two then some (b + w48 h) else none }
    let nc : Int := if dbl && valley then c0 else k.modu.set.period
    let pn : Int := if dbl then nc / 2 + (if valley then k.modu.trim else k.modu.trimNext) else nc + 2 * k.modu.trimNext
    (k.put Reg.MOD_NEXT_P_NEXT pn.toNat).put Reg.MOD_DEPTH_M_LIM (k.depthLimit nc.toNat)

/-- R205: at the peak of a single-update carrier the next valley is one half ahead, and its triggers are computed. -/
def Stake.tickPeak (k : Stake) : Stake :=
  match k.modu.peakAt with
  | none => k
  | some t =>
    if k.ang.tick ≠ t then k
    else
      let h := k.modu.half
      (k.onMod fun m => { m with peakAt := none }).addTriggers (t + BitVec.ofNat 48 h) t true h

/-- R186: the index of the set in force lies outside the bounds of the pattern slot in force: counted once per boundary. -/
def Stake.patRange (k : Stake) : Stake :=
  if k.kindNow ≠ 1 then k
  else
    let (lo, hi) := k.slotBounds k.slotNow
    let m := modIndexOf k.modu.set
    if m < lo || hi < m then k.bump Reg.MOD_PAT_RANGE_CNT else k

/-- R194: a pending bank swap takes effect where a carrier slot is in force. -/
def Stake.patSwap (k : Stake) : Stake :=
  if k.kindNow = 0 && k.flag Reg.MOD_PAT_CTRL_PENDING then
    (k.putB Reg.MOD_PAT_CTRL_PENDING false).putB Reg.MOD_PAT_CTRL_ACTIVE (!k.flag Reg.MOD_PAT_CTRL_ACTIVE)
  else k

/-- R204: the cuts that end at boundary B. -/
def Stake.cutsEnd (k : Stake) (b : Word48) : Stake :=
  [0, 1, 2, 3].foldl (fun q p => match (q.mport p).cut with
    | some c => if !c.latched && c.endAt.isNone && laterInstant ⟨b, 0⟩ c.at_ then q.finishCut p b else q
    | none => q) k

/-- R196: a port stands between the two symbols of a commutation: both switches are off and the turn-on is next. -/
def ModPort.between (q : ModPort) : Bool :=
  !q.hs && !q.ls && (match q.recs with | r :: _ => r.sym.on && !r.ins | [] => false)

/-- R196: at a boundary the cell map of every lane follows the last measurement, but not between the two symbols of a commutation: such
a lane follows at the next one. -/
def Stake.cellMap (k : Stake) : Stake :=
  [0, 1, 2, 3].foldl (fun q p =>
    if (q.mport p).between then q else q.onMod fun m => { m with ncMap := updAt m.ncMap p fun _ => k.cellsNow }) k

/-- R153, R179: the main-plane voltage of the set in force, as it is applied from a boundary on: none while the unit does not switch. -/
def Stake.appliedVolt (k : Stake) : Int × Int :=
  let s := k.modu.set
  if !k.switching then (0, 0)
  else if s.form = 1 && s.dutyFmt = 0 then
    let d := clarke (nth 0 s.duty 0 * 268435456 : Nat) (nth 0 s.duty 1 * 268435456 : Nat) (nth 0 s.duty 2 * 268435456 : Nat)
    (mul44 d.1 k.fe.udc, mul44 d.2 k.fe.udc)
  else if s.form = 1 then
    let c := max 1 s.period
    let d := clarke (nth 0 s.duty 0 * one44 / (32 * c)) (nth 0 s.duty 1 * one44 / (32 * c)) (nth 0 s.duty 2 * one44 / (32 * c))
    (mul44 d.1 k.fe.udc, mul44 d.2 k.fe.udc)
  else if s.pass then turn s.mainA s.mainB ((k.clock 0).theta + w48 ((k.clock 0).omega * (k.periodP s.period / 2 : Nat)) - s.angleOut)
  else (s.mainA, s.mainB)

/-- R153: the voltage applied in the period that ends, and in the one that begins. -/
def Stake.shiftVolt (k : Stake) : Stake :=
  let v := k.appliedVolt
  k.onMod fun m => { m with voltWas := m.volt, volt := v }

/-- TRANSFER_BOUNDARY at the present tick, in the order of R180; `unit` says that R222's item 2 acts on this follower's leader. -/
def Stake.boundary (k : Stake) (unit : Bool) : Stake :=
  if !k.modu.run || k.ang.tick ≠ k.modu.nextB then k
  else
    let b := k.ang.tick
    let k := { k with bounds := k.bounds + 1, tuneUsed := 0 }
    let k := ((k.releaseNow b).cutsEnd b).trySeam
    let k := k.cellMap.fdtStep
    let k := k.pairLate b unit
    let (s, k) := k.dueSet b
    let k := match s with
      | some s =>
        let k := k.takeSet s
        if s.mask.testBit 0 && !(match k.modu.start with | some (t, _) => t = b | none => true) then
          k.onMod fun m => { m with start := none } else k
      | none => k
    let k := ((k.passLoss s).patSwap).patRange
    let k := [0, 1, 2, 3].foldl (fun q p => (q.bootBoundary p).bandsTake p) k
    k.shiftVolt.nextPeriod b

/-- R464: the carrier starts at its first valley, which is a boundary. -/
def Stake.startCarrier (k : Stake) : Stake :=
  match k.modu.start with
  | none => k
  | some (t, c) =>
    if k.modu.run || k.ang.tick ≠ t || !k.flag Reg.MOD_CTRL_EN then k
    else
      let k := if k.kindNow = 0 then k
        else (k.put Reg.MOD_STATUS_SLOT (k.inForce Reg.MOD_CTRL_FALLBACK_SLOT)).put Reg.MOD_STATUS_KIND 0
      let k := k.onMod fun m =>
        { m with run := true, nextB := t, nextValley := true, trim := 0, trimNext := 0, set := { m.set with period := c } }
      k.addTriggers t t true (c / 2 : Nat)

end Sys2Proof.Machine
end

