-- ==== Sys2Proof/Machine/Modulation.lean ====
section
/-! DEFINITION. Commands of modulation and edge placement (chapter 06, R233, R265). -/
namespace Sys2Proof.Machine

/-- ACTION_PATTERN (R67, R190): a slot request at the action's tick. -/
def execActionPattern (n e : Nat) (s : State) : Host.Outcome State Fault Refusal :=
  .next (s.onStake n fun k => match k.takeAct e 3 with
    | none => k
    | some (a, k) => k.requestSlot (a.arg % 16) false)

/-- TRANSFER_BOUNDARY (R135, R170 to R184, R221, R266, R282, R358): at a boundary of stake 0 the package region's TUNE slots are free
again. -/
def execTransferBoundary (n : Nat) (s : State) : Host.Outcome State Fault Refusal :=
  let b := (s.stake 0).bounds
  let unit := (s.stake (partnerOf n)).unitActs
  let s := s.onStake n fun k => k.boundary unit
  .next (if (s.stake 0).bounds = b then s else s.onPkg fun p => { p with host := { p.host with tuneUsed := 0 } })

/-- CARRIER_START (R464). -/
def execCarrierStart (n : Nat) (s : State) : Host.Outcome State Fault Refusal := .next (s.onStake n Stake.startCarrier)

/-- R207: the staged settings may be applied. -/
def Stake.modApplyOk (k : Stake) : Bool :=
  let mp := k.fld Reg.MOD_MINPULSE_MIN_PULSE
  k.axisIn [axOff, axSafe, axTest] &&
  [0, 1, 2, 3].all fun p => k.fld (Reg.MOD_PORT_DT_DT_FIXED p) + 96 ≤ mp && k.fld (Reg.MOD_PORT_DT_DT_IL p) + 96 ≤ mp

/-- R206: the epoch lock follows its enable. -/
def Stake.epochEnable (k : Stake) (was : Bool) : Stake :=
  let en := k.inForceB Reg.MOD_EPOCH_CTRL_EN
  if en && !was then
    (k.setEpoch (if k.kindNow = 0 then 1 else 3)).onMod fun m => { m with lockRun := 0, epochAt := k.now, err := 0 }
  else if !en && was then (k.setEpoch 0).onMod fun m => { m with err := 0, trimNext := 0 }
  else k

/-- R207: `MOD_CTRL.APPLY`. -/
def Stake.modApply (k : Stake) : Stake :=
  if !k.modApplyOk then (k.putB Reg.MOD_STATUS_CFG_REFUSED true).post .modCfgRefused 0
  else
    let was := k.inForceB Reg.MOD_EPOCH_CTRL_EN
    let aux := (k.inForce (Reg.MOD_PORT_CFG_AUX_MODE 3), k.inForceB (Reg.MOD_PORT_CFG_AUX_SW 3))
    let m : BitVec 32 := 0x4FFF0000
    let k := k.wrAct Reg.MOD_CTRL ((k.rdAct Reg.MOD_CTRL &&& ~~~ m) ||| (k.rd Reg.MOD_CTRL &&& m))
    let k := k.applyRange 0x50010 0x5001C
    let k := [0, 1, 2, 3].foldl (fun q p => q.applyRange (0x50040 + 32 * p) (0x5004C + 32 * p)) k
    let k := (k.applyRange 0x500C0 0x500E4).applyRange 0x50100 0x50188
    let k := k.epochEnable was
    if aux ≠ (k.inForce (Reg.MOD_PORT_CFG_AUX_MODE 3), k.inForceB (Reg.MOD_PORT_CFG_AUX_SW 3)) && !(k.mport 3).seized then
      ((k.portQuiet 3).onMod fun m => { m with auxEnd := none, auxOffAt := some k.ang.tick }).auxRequest
    else k

/-- A write of `MOD_CTRL`: `EN` (R464) and `APPLY` (R207). -/
def Stake.wModCtrl (k : Stake) (w : Reg32) : Stake :=
  let was := k.flag Reg.MOD_CTRL_EN
  let k := k.store Reg.MOD_CTRL w
  let k := if was && !k.flag Reg.MOD_CTRL_EN then k.stopCarrier else k
  if w.getLsbD 0 then k.modApply else k

/-- CARRIER_STOP (R464): a write of `MOD_CTRL` that clears `EN`. -/
def execCarrierStop (n : Nat) (src : Src) (w : Reg32) (s : State) : Host.Outcome State Fault Refusal :=
  .next (s.stakeWrite src n Reg.MOD_CTRL w fun k => if w.getLsbD 31 then k else k.wModCtrl w)

/-- MOD_APPLY (R207). -/
def execModApply (n : Nat) (src : Src) (w : Reg32) (s : State) : Host.Outcome State Fault Refusal :=
  .next (s.stakeWrite src n Reg.MOD_CTRL w fun k => if w.getLsbD 0 then k.wModCtrl w else k)

/-- R175: the bank is opened: a copy of the set in force, nothing written. A paired follower's cannot be (R212). -/
def Stake.setOpen (k : Stake) : Stake :=
  if k.pairedFollower then k.putB Reg.MOD_STATUS_SET_ERR true
  else
    let f := k.modu.set
    let d := fun (i : Nat) => BitVec.ofNat 48 (nth 0 f.duty i)
    let l : List (Nat × Word48) :=
      [(Reg.MOD_SH_PERIOD, BitVec.ofNat 48 f.period), (Reg.MOD_SH_VA, w48 f.va), (Reg.MOD_SH_VB, w48 f.vb), (Reg.MOD_SH_UDC, w48 f.udc),
       (Reg.MOD_SH_DUTY_U, d 0), (Reg.MOD_SH_DUTY_V, d 1), (Reg.MOD_SH_DUTY_W, d 2), (Reg.MOD_SH_DUTY_FMT, BitVec.ofNat 48 f.dutyFmt),
       (Reg.MOD_SH_ID, w48 f.id), (Reg.MOD_SH_IQ, w48 f.iq), (Reg.MOD_SH_THETA, f.theta), (Reg.MOD_SH_AUX_DUTY, BitVec.ofNat 48 f.auxDuty),
       (Reg.MOD_SH_AUX_TON, BitVec.ofNat 48 f.ton), (Reg.MOD_SH_AUX_TOFF, BitVec.ofNat 48 f.toff), (Reg.MOD_SH_SLOT, BitVec.ofNat 48 f.slot)]
    (l.foldl (fun q x => q.put48 x.1 x.2) k).put Reg.MOD_SET_CTRL_WRITTEN 0 |>.putB Reg.MOD_SET_CTRL_IS_OPEN true

/-- The set the register-path bank holds (R174). -/
def Stake.bankSet (k : Stake) : USet :=
  let g := fun (o : Nat) => (k.get48 o).toNat
  { mask := k.fld Reg.MOD_SET_CTRL_WRITTEN, period := g Reg.MOD_SH_PERIOD
    va := k.int48 Reg.MOD_SH_VA, vb := k.int48 Reg.MOD_SH_VB, udc := k.int48 Reg.MOD_SH_UDC
    duty := [g Reg.MOD_SH_DUTY_U, g Reg.MOD_SH_DUTY_V, g Reg.MOD_SH_DUTY_W], dutyFmt := g Reg.MOD_SH_DUTY_FMT % 2
    id := k.int48 Reg.MOD_SH_ID, iq := k.int48 Reg.MOD_SH_IQ, theta := k.get48 Reg.MOD_SH_THETA
    auxDuty := g Reg.MOD_SH_AUX_DUTY, auxFmt := g Reg.MOD_SH_DUTY_FMT % 2, ton := g Reg.MOD_SH_AUX_TON, toff := g Reg.MOD_SH_AUX_TOFF, slot := g Reg.MOD_SH_SLOT % 16 }

/-- R175: the bank is handed over as one set, or discarded. -/
def Stake.setClose (k : Stake) : Stake :=
  if !k.flag Reg.MOD_SET_CTRL_IS_OPEN then k
  else
    let s := k.bankSet
    let k := (k.put Reg.MOD_SET_CTRL_WRITTEN 0).putB Reg.MOD_SET_CTRL_IS_OPEN false
    if s.mask.testBit 1 && s.mask.testBit 3 then k.putB Reg.MOD_STATUS_SET_ERR true else k.closeSet s k.ang.tick

/-- R175: the bank is discarded. -/
def Stake.setAbort (k : Stake) : Stake := (k.put Reg.MOD_SET_CTRL_WRITTEN 0).putB Reg.MOD_SET_CTRL_IS_OPEN false

/-- A write of `MOD_SET_CTRL`: its command bits in the order of their numbers. -/
def Stake.wSetCtrl (k : Stake) (w : Reg32) : Stake :=
  let k := if w.getLsbD 0 then k.setOpen else k
  let k := if w.getLsbD 1 then k.setClose else k
  if w.getLsbD 2 then k.setAbort else k

/-- The group of a shadow slot (R174). -/
def shGroup (off : Nat) : Nat :=
  if off < 0x50210 then 0 else if off < 0x50228 then 1 else if off < 0x50248 then 3 else if off < 0x50260 then 4
  else if off < 0x50278 then 5 else 6

/-- R7, R175: a shadow slot is written whole; its group is marked. -/
def Stake.wShadow (k : Stake) (off : Nat) (v : Word48) : Stake :=
  if !k.flag Reg.MOD_SET_CTRL_IS_OPEN then k.putB Reg.MOD_STATUS_SET_ERR true
  else (k.put48 off v).put Reg.MOD_SET_CTRL_WRITTEN (k.fld Reg.MOD_SET_CTRL_WRITTEN ||| 2 ^ shGroup off)

/-- MOD_SET_OPEN (R175, R212). -/
def execModSetOpen (n : Nat) (src : Src) (w : Reg32) (s : State) : Host.Outcome State Fault Refusal :=
  .next (s.stakeWrite src n Reg.MOD_SET_CTRL w fun k => if w.getLsbD 0 then k.wSetCtrl w else k)

/-- MOD_SET_CLOSE (R171, R174 to R176, R464). -/
def execModSetClose (n : Nat) (src : Src) (w : Reg32) (s : State) : Host.Outcome State Fault Refusal :=
  .next (s.stakeWrite src n Reg.MOD_SET_CTRL w fun k => if w.getLsbD 1 then k.wSetCtrl w else k)

/-- MOD_SET_ABORT (R175). -/
def execModSetAbort (n : Nat) (src : Src) (w : Reg32) (s : State) : Host.Outcome State Fault Refusal :=
  .next (s.stakeWrite src n Reg.MOD_SET_CTRL w fun k => if w.getLsbD 2 then k.wSetCtrl w else k)

/-- R187 to R189, R192: a recompute. -/
def Stake.recompute (k : Stake) : Stake :=
  if !k.modu.run || k.kindNow = 0 || (k.ang.tick - k.modu.pat.tSeam).toNat % 400 ≠ 0 then k
  else
    let k := k.carryFlux.slowAbort
    if !k.switching then
      let phi := k.phiNow
      k.onMod fun m => { m with pat := { m.pat with ptr := [phi, phi, phi] } }
    else
      let al := k.slotAngles k.slotNow
      [0, 1, 2].foldl (fun q x => q.commitPhase al x 16) k

/-- PATTERN_RECOMPUTE (R187 to R189, R192, R195). -/
def execPatternRecompute (n : Nat) (s : State) : Host.Outcome State Fault Refusal := .next (s.onStake n Stake.recompute)

/-- MODE_SEAM (R190, R191). -/
def execModeSeam (n : Nat) (s : State) : Host.Outcome State Fault Refusal := .next (s.onStake n Stake.trySeam)

/-- SEAM_SEARCH_FAIL (R191, R192): one electrical revolution has passed since the request. Between two carrier slots there is no search:
the seam is at the next boundary. -/
def execSeamSearchFail (n : Nat) (s : State) : Host.Outcome State Fault Refusal :=
  .next (s.onStake n fun k => match k.modu.req with
    | none => k
    | some (sl, t, abort) =>
      if k.kindNow = 0 && k.slotKind sl = 0 then k
      else if ((k.now - t : Nat) : Int) * iabs (k.clock 0).omega < rev48 then k
      else
        let k := (k.onMod fun m => { m with req := none }).putB Reg.MOD_STATUS_SEAM_PENDING false
        let k := k.post .modSeamFail 1 [1, sl]
        if abort then k.forceCarrier 1 2 else k)

/-- A write of `MOD_PAT_CTRL` (R194). -/
def Stake.wPatCtrl (k : Stake) (w : Reg32) : Stake := if w.getLsbD 0 then k.putB Reg.MOD_PAT_CTRL_PENDING true else k

/-- MOD_PAT_SWAP (R194). -/
def execModPatSwap (n : Nat) (src : Src) (w : Reg32) (s : State) : Host.Outcome State Fault Refusal :=
  .next (s.stakeWrite src n Reg.MOD_PAT_CTRL w fun k => k.wPatCtrl w)

/-- R265: both switches of a port have been off for longer than `T_HOLD`. -/
def Stake.longOff (k : Stake) (p : Nat) : Bool :=
  match (k.lport p).offSince with
  | some t => t + 400 * k.inForce (Reg.LEG_PORT_BOOT_T_HOLD p) < k.now
  | none => false

/-- R233, R234, R248, R263, R265: a symbol leaves on both edge lanes of a port; R85 is told its tick
only (DESIGN CHOICE, log 178). -/
def Stake.edgeOut (k : Stake) (p : Nat) (sym : Symb) (x : Instant) : Stake :=
  let q := k.mport p
  let hs : Bool := match sym with | .hsOn => true | .hsOff | .softOff => false | _ => q.hs
  let ls : Bool := match sym with | .lsOn => true | .lsOff | .softOff => false | _ => q.ls
  let l := k.lport p
  let fill := k.inForce (Reg.LEG_PORT_BOOT_T_REFRESH p)
  let t32 := (32 * (k.now : Int) + x.minus k.nowI).toNat
  let refreshed : Bool := q.ls && !ls && (match l.lsSince with | some t => 32 * fill ≤ t32 - t | none => false)
  let k := k.onPort p fun r => { r with hs := hs, ls := ls, lastSym := some x }
  let k := (k.putB (Reg.LEG_PORT_STATUS_C_HS p) hs).putB (Reg.LEG_PORT_STATUS_C_LS p) ls
  let k := if refreshed then k.putB (Reg.LEG_PORT_STATUS_REFRESH_DUE p) false else k
  let ready := k.portReady p
  let long := k.longOff p
  let k := k.onLeg p fun r =>
    { r with
      pulse := some (some sym, x, cellOf x.fine (nth 0 k.modu.ncMap p))
      offEnd := if sym.on then r.offEnd else k.now + pulseWidth (some sym) + (if x.fine = 0 then 0 else 1)
      lastPulse := k.now
      lastSymAt := k.now
      kOff := if sym.on then r.kOff else (r.kOff + 1) % 16
      expect := if ready then r.expect ++ [(sym, k.now)] else r.expect
      refEnd := if refreshed then k.now else r.refEnd
      lsSince := if ls then some (r.lsSince.getD t32) else none
      offSince := if hs || ls then none else some (r.offSince.getD k.now)
      cold := !hs && (r.cold || (ls && long)) }
  k.noteEdge p x.tick

/-- R265: the records of a port held behind an instant, each with its edge current where it comes to lie (R195). -/
def Stake.holdBehind (k : Stake) (p : Nat) (last : Instant) : List Record → List Record
  | [] => []
  | r :: t => let x := (spaced (some last) r.at_).1; k.recAt p r.sym x r.ins :: k.holdBehind p x t

/-- R265: the first high-side turn-on after a long off time is preceded by a precharge. -/
def Stake.needsPrecharge (k : Stake) (p : Nat) (sym : Symb) : Bool :=
  sym = .hsOn && k.inForceB (Reg.LEG_PORT_CFG_SUPPLY p) && ((k.lport p).cold || k.longOff p)

/-- R265: the precharge: LS_ON now and LS_OFF eight refreshes later, the records behind. -/
def Stake.prechargeNow (k : Stake) (p : Nat) : Stake :=
  let off := k.nowI.plus (32 * 8 * k.inForce (Reg.LEG_PORT_BOOT_T_REFRESH p))
  let k := k.onPort p fun q =>
    { q with recs := [k.recAt p .lsOn k.nowI true, k.recAt p .lsOff off true] ++ k.holdBehind p off q.recs }
  (k.onLeg p fun l => { l with cold := false, offSince := some k.now }).countRefresh p

/-- R233, R238: the next symbol of a port whose instant has come; the generator's leading edges keep 150 ns from the last pulse. -/
def Stake.sendSymbol (k : Stake) (p : Nat) : Stake :=
  if (k.mport p).seized then
    match k.prt.gen.find? fun g => g.port = p && g.at_ ≤ k.now && k.genFrom p ≤ k.now with
    | none => k
    | some g =>
      let k := k.onPrt fun r => { r with gen := r.gen.erase g }
      if k.link p = 0 then k else k.edgeOut p g.sym k.nowI
  else match (k.mport p).recs with
    | [] => k
    | r :: t =>
      if !reached k.ang.tick r.at_.tick then k
      else if k.link p = 0 then k.onPort p fun q => { q with recs := t }
      else
        let k := if k.needsPrecharge p r.sym then k.prechargeNow p else k
        match (k.mport p).recs with
        | [] => k
        | r :: t => (k.onPort p fun q => { q with recs := t }).edgeOut p r.sym r.at_

/-- EDGE_SYMBOL_SEND (R195, R196, R233, R238, R265, R267). -/
def execEdgeSymbolSend (n p : Nat) (s : State) : Host.Outcome State Fault Refusal := .next (s.onStake n fun k => k.sendSymbol p)

/-- R196: a measurement of the replica line. -/
def Stake.calibrate (k : Stake) (nc : Nat) : Stake :=
  let bad : Bool := nc < 36 || 64 < nc
  let k := (k.put Reg.MOD_DL_STATUS_N_C nc).putB Reg.MOD_DL_STATUS_FAULT bad
  let k := if bad then k.post .modDlFault 1 [nc] else k
  if k.modu.run then k else k.cellMap

/-- DELAY_LINE_CALIBRATE (R196): `nc` is the number of cells measured against one tick. -/
def execDelayLineCalibrate (n nc : Nat) (s : State) : Host.Outcome State Fault Refusal := .next (s.onStake n fun k => k.calibrate nc)

/-- R201, R292: the AUX switch turns on when it may. -/
def Stake.auxStart (k : Stake) : Stake :=
  let q := k.mport 3
  let rested := match k.modu.auxOffAt with
    | none => true
    | some t => k.modu.set.toff ≤ (k.ang.tick - t).toNat
  if k.inForce (Reg.MOD_PORT_CFG_AUX_MODE 3) ≠ 2 || !k.modu.auxReq || k.modu.auxEnd.isSome || !rested || q.seized || q.cut.isSome then k
  else if !q.mayTurnOn k.nowI then k
  else
    let k := (k.schedule 3 (k.auxSym true) k.nowI).onMod fun m => { m with auxEnd := some (k.ang.tick + w48 m.set.ton) }
    match k.prt.check with
    | some (none, c) => k.onPrt fun r => { r with check := some (some k.now, c) }
    | _ => k

/-- AUX_PULSE_START (R200, R201, R292, R464). -/
def execAuxPulseStart (n : Nat) (s : State) : Host.Outcome State Fault Refusal := .next (s.onStake n Stake.auxStart)

/-- R201: the AUX switch turns off `T_ON` after its turn-on. -/
def Stake.auxStop (k : Stake) : Stake :=
  match k.modu.auxEnd with
  | none => k
  | some t =>
    if !reached k.ang.tick t then k
    else (k.schedule 3 (k.auxSym false) ⟨t, 0⟩).onMod fun m => { m with auxEnd := none, auxOffAt := some t }

/-- AUX_PULSE_END (R201). -/
def execAuxPulseEnd (n : Nat) (s : State) : Host.Outcome State Fault Refusal := .next (s.onStake n Stake.auxStop)

/-- CUT_END (R202, R204, R266): the end of a port's period cut: a time on AUX, else a transfer boundary. -/
def execCutEnd (n p : Nat) (s : State) : Host.Outcome State Fault Refusal :=
  .next (s.onStake n fun k => match (k.mport p).cut with
    | none => k
    | some c =>
      if c.latched then k
      else match c.endAt with
        | some e => if reached k.ang.tick e then k.finishCut p e else k
        | none =>
          let t := k.ang.tick
          if k.modu.run && laterInstant ⟨t, 0⟩ c.at_ && (t = k.modu.nextB || (t = k.ang.period.1 && k.ang.period.2 ≠ 0)) then k.finishCut p t
          else k)

/-- A write of `MOD_CUT_CLR` (R204): bits of ports whose latched cut ends. -/
def Stake.wCutClr (k : Stake) (w : Reg32) : Stake :=
  [0, 1, 2, 3].foldl (fun q p => match (q.mport p).cut with
    | some c => if w.getLsbD p && c.latched then q.finishCut p q.ang.tick else q
    | none => q) k

/-- CUT_CLEAR (R204). -/
def execCutClear (n : Nat) (src : Src) (w : Reg32) (s : State) : Host.Outcome State Fault Refusal :=
  .next (s.stakeWrite src n Reg.MOD_CUT_CLR w fun k => k.wCutClr w)

/-- R67, R205: the action of a trigger unit. -/
def Stake.trigger (k : Stake) (u : Nat) : Stake :=
  match k.modu.trig.find? fun x => x.1 = u && reached k.ang.tick x.2.tick with
  | none => k
  | some x =>
    let k := k.onMod fun m => { m with trig := m.trig.erase x }
    let arg := k.inForce (Reg.MOD_TRIG_ARG u)
    match k.inForce (Reg.MOD_TRIG_ACTION u) with
    | 1 => k.capture (arg % 16) x.2.tick
    | 2 => k.runPass
    | 5 => k.plaitIrq (arg % 16)
    | _ => k

/-- TRIGGER_FIRE (R77, R80, R134, R205). -/
def execTriggerFire (n u : Nat) (s : State) : Host.Outcome State Fault Refusal := .next (s.onStake n fun k => k.trigger u)

/-- EPOCH_TIMEOUT (R206): no epoch for 3 ms. -/
def execEpochTimeout (n : Nat) (s : State) : Host.Outcome State Fault Refusal :=
  .next (s.onStake n fun k =>
    let st := k.fld Reg.MOD_STATUS_EPOCH_STATE
    if (st = 1 || st = 2) && k.modu.epochAt + 1200000 ≤ k.now then
      (k.setEpoch 3).onMod fun m => { m with err := 0, trimNext := 0, lockRun := 0 }
    else k)

/-- R206: an epoch E arrives in an alignment cell. The valley compared with is that of the carrier whose trim is not yet fixed; the
error is taken in fine steps, folded into (-C/2, C/2], and shown in ticks, rounded to nearest (DEDUCED, log 143). -/
def Stake.epochArrives (k : Stake) (e : Instant) : Stake :=
  let c := k.modu.set.period
  let st := k.fld Reg.MOD_STATUS_EPOCH_STATE
  if !k.inForceB Reg.MOD_EPOCH_CTRL_EN || st = 0 then k
  else
    let k := k.onMod fun m => { m with epochAt := k.now }
    if c = 0 || !k.modu.run || k.kindNow ≠ 0 then k
    else
      let m := k.modu
      -- The first valley at or after the next boundary, and one carrier on, whose trims are both fixed.
      let v := if m.nextValley then m.nextB else m.nextB + w48 m.half
      let v2 := v + w48 ((c : Int) + 2 * m.trimNext)
      let cc : Int := 32 * (c : Int)
      let d := e.minus ⟨v2, 0⟩ % cc
      let err := if cc / 2 < d then d - cc else d
      let k := (k.wr Reg.MOD_EPOCH_ERR (w32 (divNear err 32))).onMod fun m => { m with err := err }
      let run := if iabs err ≤ 32 then k.modu.lockRun + 1 else 0
      let k := k.onMod fun m => { m with lockRun := run }
      if 32 * (k.inForce Reg.MOD_EPOCH_CTRL_EPOCH_TOL : Int) < iabs err then k.setEpoch 1
      else if st = 3 then k.setEpoch 1
      else if 3 ≤ run then k.setEpoch 2
      else k

end Sys2Proof.Machine
end

