-- ==== Sys2Proof/Machine/Angle.lean ====
section
/-! DEFINITION. Ticks, angle clocks and the angle scheduler: ANG_TICK_WRAP to ACTION_SNAPSHOT, ACTION_ARM, ACTION_DISARM (chapter 02). -/
namespace Sys2Proof.Machine

/-- ANG_TICK_WRAP (R42): the wrap of this tick is recorded and posted. -/
def execAngTickWrap (n : Nat) (s : State) : Host.Outcome State Fault Refusal :=
  .next (s.onStake n fun k =>
    if !k.ang.wrapPend then k
    else
      let c := k.fld Reg.ANG_TICK_STATUS_WRAP_COUNT
      let k := (k.onAng fun a => { a with wrapPend := false }).putB Reg.ANG_TICK_STATUS_WRAP true
      let k := (k.put Reg.ANG_TICK_STATUS_WRAP_COUNT (min 255 (c + 1))).putB Reg.ANG_TICK_STATUS_WRAP_SAT
        (254 ≤ c || k.flag Reg.ANG_TICK_STATUS_WRAP_SAT)
      k.post .angTickWrap 0)

/-- R48, R49: a clock that is VALID treats a measurement, with effect from the next tick. -/
def Stake.clkTrack (k : Stake) (c : Nat) (m : Meas) : Stake :=
  let x := k.clock c
  let age : Int := (k.ang.tick - m.tm).toInt
  let e : Int := wrap48 (m.m.toNat - ((x.theta.toNat : Int) - x.omega * age))
  if e.natAbs < k.fld (Reg.ANG_CLK_LIMITS_SLEW_LIMIT c) * 4294967296 then
    k.onClock c fun y => { y with next := some { omega := m.speed, rev := m.rev, load := none, step := none, slew := some e } }
  else k.onClock c fun y => { y with next := some { omega := m.speed, rev := m.rev, load := none, step := some e, slew := none } }

/-- R48 to R52: a measurement is processed. One discarded as stale (R50) does not restart `EXTRAP_MAX`, since it leaves the clock as it was;
the spec does not say whether it counts as processed there (DESIGN CHOICE, log 110). -/
def Stake.clkMeasure (k : Stake) (c : Nat) (m : Meas) : Stake :=
  let x := k.clock c
  if 4096 < (k.ang.tick - m.tm).toInt then k.bump (Reg.ANG_CLK_STALE_CNT c)
  else
    let toggles : Bool := x.valid && m.rev != x.rev
    let k := if x.valid then k.clkTrack c m
      else (k.onClock c fun y => { y with next := some { omega := m.speed, rev := m.rev, load := some m.m, step := none, slew := none } }).putB
        (Reg.ANG_CLK_STATUS_RELOAD c) true
    let k := k.onClock c fun y => { y with lastMeas := k.now }
    let k := if c = 0 && toggles then k.syncAbort else k
    if c = 0 then k.injectionRelease else k

/-- MEASUREMENT_PROCESS (R45 to R52, R192, R304): clock c takes the oldest measurement delivered to it. -/
def execMeasurementProcess (n : Nat) (c : Nat) (s : State) : Host.Outcome State Fault Refusal :=
  .next (s.onStake n fun k => match (k.clock c).mail with
    | [] => k
    | m :: t =>
      let k := k.onClock c fun y => { y with mail := t }
      if k.flag (Reg.ANG_CLK_CTRL_EN c) then k.clkMeasure c m else k)

/-- ANG_EXTRAP_LIMIT (R51). -/
def execAngExtrapLimit (n : Nat) (c : Nat) (s : State) : Host.Outcome State Fault Refusal :=
  .next (s.onStake n fun k =>
    let x := k.clock c
    if !x.valid || !k.flag (Reg.ANG_CLK_CTRL_EN c) || !scheduledSrc (k.clkSrc c) ||
        k.now < x.lastMeas + 400 * k.fld (Reg.ANG_CLK_EXTRAP_EXTRAP_MAX c) then k
    else
      let k := (k.onClock c fun y => { y with valid := false, next := none }).post .angExtrapLimit (k.fld (Reg.ANG_CLK_CTRL_EXTRAP_CLASS c)) [c]
      if c = 0 then k.syncAbort else k)

/-- ANGLE_ENTRY_DUE (R53, R57, R58, R61, R63). -/
def execAngleEntryDue (n : Nat) (k : Nat) (s : State) : Host.Outcome State Fault Refusal :=
  .next (s.onStake n fun q =>
    let e := q.entry k
    let c := q.clock e.src
    if !q.entryLive k 0 || e.spent || !c.valid then q
    else match crossing c e.tgt e.dir with
      | none => q
      | some (u, rev) => q.fire k (crossInstant q.ang.tick c.stepNow u c.stepL) rev)

/-- R59: a spent entry whose angle lies in the re-arm band re-arms. -/
def Stake.bandRearm (q : Stake) (k : Nat) : Stake :=
  let e := q.entry k
  let c := q.clock e.src
  let d := if e.sigmaRev then (c.look - e.tgt).toNat else (e.tgt - c.look).toNat
  if 127 ≤ k || e.trig ≠ 0 || !e.spent || !c.valid || q.ang.firedNow.contains k || d < q.fld Reg.ANG_SCHED_CTRL_REARM_BAND * 4294967296 ||
      140737488355328 < d then q
  else
    let back := (c.stepL < 0 && !c.rev) || (0 < c.stepL && c.rev)
    let q := q.onEntry k fun x => { x with spent := false }
    if back then q.bump Reg.ANG_BACK_REARM_CNT else q

/-- ENTRY_REARM (R59, R61). -/
def execEntryRearm (n : Nat) (k : Nat) (s : State) : Host.Outcome State Fault Refusal := .next (s.onStake n fun q => q.bandRearm k)

/-- DIRECTION_REARM (R60, R61): the flag of clock c toggled in the tick before. -/
def execDirectionRearm (n : Nat) (c : Nat) (s : State) : Host.Outcome State Fault Refusal :=
  .next (s.onStake n fun k =>
    let x := k.clock c
    if !x.toggledPrev || !x.valid then k
    else k.onAng fun a =>
      { a with ent := a.ent.map fun e =>
          if e.trig = 0 && e.src = c && e.spent && e.sigmaRev != x.rev then { e with spent := false } else e })

/-- TICK_ENTRY_DUE (R54, R55): four ticks before its tick, or late. -/
def execTickEntryDue (n : Nat) (k : Nat) (s : State) : Host.Outcome State Fault Refusal :=
  .next (s.onStake n fun q =>
    let e := q.entry k
    let t := q.ang.tick
    if !q.entryLive k 1 || q.ang.firedNow.contains k then q
    else if lateFiring t e e.tgt then q.fireLate k
    else if t + 4 = e.tgt then q.fire k ⟨e.tgt, e.fine⟩ false
    else q)

/-- PERIODIC_ENTRY_DUE (R54, R55): four ticks before its next instant, or late. -/
def execPeriodicEntryDue (n : Nat) (k : Nat) (s : State) : Host.Outcome State Fault Refusal :=
  .next (s.onStake n fun q =>
    let e := q.entry k
    let t := q.ang.tick
    if !q.entryLive k 2 || q.ang.firedNow.contains k then q
    else if lateFiring t e e.next then
      (q.fireLate k).onEntry k fun x => { x with next := nextNotLate t x (x.next + w48 x.ivl) x.ivl, begun := true }
    else if t + 4 = e.next then (q.fire k ⟨e.next, e.fine⟩ false).onEntry k fun x => { x with next := x.next + w48 x.ivl, begun := true }
    else q)

/-- The next transfer boundary: that of the carrier that runs, or the first valley of one about to start (R171, R464). -/
def Stake.boundaryAhead (k : Stake) : Option Word48 := if k.modu.run then some k.modu.nextB else k.modu.start.map (·.1)

/-- BOUNDARY_ENTRY_DUE (R54, R56, R464): the entry's offset from the boundary of the present period, or, within four ticks of it, of the
next. One whose boundary is not known four ticks ahead does not fire in that period (log 47). -/
def execBoundaryEntryDue (n : Nat) (k : Nat) (s : State) : Host.Outcome State Fault Refusal :=
  .next (s.onStake n fun q =>
    let e := q.entry k
    let t := q.ang.tick
    let o := e.tgt.toNat % 4294967296
    let (b, len) := q.ang.period
    if !q.entryLive k 3 || q.ang.firedNow.contains k then q
    else if q.boundaryAhead.any fun b => laterTick b t && t + 4 = b + w48 o then q.fire k ⟨t + 4, e.fine⟩ false
    else if !q.modu.run || len = 0 || q.ang.bndDone.contains (k, b) then q
    else if len ≤ o then (q.onAng fun a => { a with bndDone := (k, b) :: a.bndDone }).bump Reg.ANG_SKIP_CNT
    else if t + 4 = b + w48 o then
      (q.onAng fun a => { a with bndDone := (k, b) :: a.bndDone }).fire k ⟨b + w48 o, e.fine⟩ false
    else q)

/-- DEFERRED_DISPATCH (R63, R65): entries carried over take the slots of this tick first; one that finds none is carried on, and the
first time that happens to it a tick after it fell due it is an overrun. -/
def execDeferredDispatch (n : Nat) (s : State) : Host.Outcome State Fault Refusal :=
  .next (s.onStake n fun k =>
    let l := k.ang.carriedPrev
    let room := 8 - k.ang.dispatched
    let go := (l.take room).map (·.1)
    let k := k.onAng fun a => { a with carriedPrev := [], dispatched := a.dispatched + go.length, acts := a.acts ++ go }
    (l.drop room).foldl (fun q x =>
      let a : Act := { x.1 with at_ := ⟨x.1.at_.tick + 1, x.1.at_.fine⟩ }
      let q := (q.onAng fun g => { g with carried := g.carried ++ [(a, true)] }).bump Reg.ANG_DEFER_CNT
      if x.2 then q else (q.bump Reg.ANG_OVERRUN_CNT).post .angBurstOverrun 1 [a.entry]) k)

/-- R72: a write of an entry's control word; out of range, the commit is discarded whole. -/
def State.entryCommit (s : State) (n k : Nat) (w : Reg32) : State :=
  let q := s.stake n
  if 127 ≤ k then s
  else if !commitInRange w (q.rd (Reg.ANG_ENT_IVL k)).toNat then s.rangeDrop (bar0 n (Reg.ANG_ENT_CTRL k)) w
  else s.onStake n fun q =>
    let tgt := BitVec.ofNat 48 ((q.rd (Reg.ANG_ENT_TGT_LO k)).toNat + (q.rd (Reg.ANG_ENT_TGT_HI k)).toNat % 65536 * 4294967296)
    (q.store (Reg.ANG_ENT_CTRL k) w).pendEntry (.commit k tgt (q.rd (Reg.ANG_ENT_IVL k)).toNat w)

/-- ENTRY_COMMIT (R15, R66, R71, R72): a write of `ANG_ENT_k_CTRL`. -/
def execEntryCommit (n : Nat) (src : Src) (k : Nat) (w : Reg32) (s : State) : Host.Outcome State Fault Refusal :=
  .next (if !s.takesFrom src n then s
  else if s.locked && closedTo src (Reg.ANG_ENT_CTRL k) then (if src = .host then s.lockDrop (bar0 n (Reg.ANG_ENT_CTRL k)) else s)
  else s.entryCommit n k w)

/-- R62, `ANG_SCHED_CTRL`: on the tick `EN` is set every entry is armed. -/
def Stake.wSchedCtrl (k : Stake) (w : Reg32) : Stake :=
  let was := k.flag Reg.ANG_SCHED_CTRL_EN
  let k := k.store Reg.ANG_SCHED_CTRL w
  if k.flag Reg.ANG_SCHED_CTRL_EN && !was then
    k.onAng fun a => { a with ent := a.ent.map fun e => { e with spent := false } }
  else k

/-- SCHED_ENABLE (R62, R66): a write of `ANG_SCHED_CTRL`. -/
def execSchedEnable (n : Nat) (src : Src) (w : Reg32) (s : State) : Host.Outcome State Fault Refusal :=
  .next (s.stakeWrite src n Reg.ANG_SCHED_CTRL w fun k => k.wSchedCtrl w)

/-- ACTION_NONE (R67). -/
def execActionNone (n : Nat) (k : Nat) (s : State) : Host.Outcome State Fault Refusal :=
  .next (s.onStake n fun q => match q.takeAct k 0 with
    | none => q
    | some (_, q) => q)

/-- ACTION_PLAIT_IRQ (R67). -/
def execActionPlaitIrq (n : Nat) (k : Nat) (s : State) : Host.Outcome State Fault Refusal :=
  .next (s.onStake n fun q => match q.takeAct k 5 with
    | none => q
    | some (a, q) => q.plaitIrq (a.arg % 16))

/-- ACTION_SNAPSHOT (R67, R375). -/
def execActionSnapshot (n : Nat) (k : Nat) (s : State) : Host.Outcome State Fault Refusal :=
  .next (s.onStake n fun q => match q.takeAct k 6 with
    | none => q
    | some (a, q) =>
      let c := q.clock a.src
      q.offer { stream := a.arg % 16, source := 17, content := 5,
                words := [a.at_.tick.toNat, c.theta.toNat, (w48 c.omega).toNat, a.at_.fine % 32 + (if c.rev then 256 else 0)] })

/-- ACTION_ARM (R62, R66, R67). -/
def execActionArm (n : Nat) (k : Nat) (s : State) : Host.Outcome State Fault Refusal :=
  .next (s.onStake n fun q => match q.takeAct k 7 with
    | none => q
    | some (a, q) => q.pendEntry (.arm a.arg))

/-- ACTION_DISARM (R62, R66, R67). -/
def execActionDisarm (n : Nat) (k : Nat) (s : State) : Host.Outcome State Fault Refusal :=
  .next (s.onStake n fun q => match q.takeAct k 8 with
    | none => q
    | some (a, q) => q.pendEntry (.disarm a.arg))

end Sys2Proof.Machine
end

