-- ==== Sys2Proof/Machine/HostOps.lean ====
section
/-! DEFINITION. Shared operations of the host interface: rings, completions, events, interrupts (R339 to R370). -/
namespace Sys2Proof.Machine

/-- Changes the host interface's state. -/
def State.onHost (s : State) (f : HostSt → HostSt) : State := s.onPkg fun p => { p with host := f p.host }

/-- A ring pair, and a change of it. -/
def State.ring (s : State) (r : Nat) : RingSt := nth {} s.pkg.host.rings r
def State.onRing (s : State) (r : Nat) (f : RingSt → RingSt) : State := s.onHost fun h => { h with rings := updAt h.rings r f }

/-- The model's clock of the package, that of stake 0. -/
def State.time (s : State) : Nat := (s.stake 0).now

/-- R342: boot is complete. -/
def State.ready (s : State) : Bool := s.pkg.flag Reg.HIF_STATUS_READY

/-- R343: whether a pair is enabled, its ring sizes, its class and its target stake (15 for the package). -/
def State.ringEn (s : State) (r : Nat) : Bool := r < 256 && s.pkg.flag (Reg.HIF_RING_EN r)
def State.sqSize (s : State) (r : Nat) : Nat := 2 ^ s.pkg.fld (Reg.HIF_RING_SQ_LOG2 r)
def State.cqSize (s : State) (r : Nat) : Nat := 2 ^ s.pkg.fld (Reg.HIF_RING_CQ_LOG2 r)
def State.ringClass (s : State) (r : Nat) : Nat := s.pkg.fld (Reg.HIF_RING_CLASS r)
def State.ringStake (s : State) (r : Nat) : Nat := s.pkg.fld (Reg.HIF_RING_STAKE r)

/-- A number's n bytes, low first. -/
def bytesN (n x : Nat) : List Nat := (List.range n).map fun i => x / 256 ^ i % 256

/-- The number n bytes spell from an offset, low first. -/
def leOf (b : List Nat) (off n : Nat) : Nat := (List.range n).foldl (fun a i => a + nth 0 b (off + i) * 256 ^ i) 0

/-- A signed 48-bit value of a body (R349). -/
def le48 (b : List Nat) (off : Nat) : Int := (BitVec.ofNat 48 (leOf b off 6)).toInt

/-- The device writes host memory. -/
def State.hostWrite (s : State) (addr : Nat) (bytes : List Nat) : State :=
  s.onHost fun h => { h with writes := h.writes ++ [(addr, bytes)] }

/-- R339, R341: the endpoint may issue requests: Bus Master Enable is set and it is not in D3hot. -/
def State.masters (s : State) : Bool := s.pkg.host.pcie.busMaster && !s.pkg.host.pcie.d3

/-- R368, the MSI-X rules of PCI Express: a vector fires, with MSI-X enabled: its message goes out, or it is pending while its entry or the
function is masked. -/
def State.msixFire (s : State) (v : Nat) : State :=
  let t := fun (i : Nat) => (s.pkg.rd (Reg.HIF_MSIX_TABLE (4 * v + i))).toNat
  let s := s.onHost fun h => { h with msix := updAt h.msix v fun _ => (0, none) }
  if !s.pkg.host.pcie.msixEn then s
  else if t 3 % 2 = 1 || s.pkg.host.pcie.msixMask || !s.masters then
    let o := Reg.HIF_MSIX_PBA (v / 32)
    s.onPkg fun p => p.wr o (p.rd o ||| (1#32 <<< (v % 32)))
  else s.hostWrite (t 0 + t 1 * 4294967296) (bytesN 4 (t 2))

/-- R368, the MSI-X rules of PCI Express: a pending vector that nothing masks any longer sends its message. -/
def State.msixPending (s : State) (v : Nat) : State :=
  let o := Reg.HIF_MSIX_PBA (v / 32)
  if (s.pkg.rd o).getLsbD (v % 32) && !(s.pkg.rd (Reg.HIF_MSIX_TABLE (4 * v + 3))).getLsbD 0 && s.pkg.host.pcie.msixEn &&
      !s.pkg.host.pcie.msixMask && s.masters then
    (s.onPkg fun p => p.wr o (p.rd o &&& ~~~ (1#32 <<< (v % 32)))).msixFire v
  else s

/-- R368: an entry has been written on a vector. -/
def State.msixEntry (s : State) (v : Nat) (now : Bool) : State :=
  let (c, t) := nth (0, none) s.pkg.host.msix v
  let first := t.getD s.time
  if now || s.pkg.fld (Reg.HIF_MSIX_MOD_TIME v) = 0 || s.pkg.fld (Reg.HIF_MSIX_MOD_COUNT v) ≤ c + 1 then s.msixFire v
  else s.onHost fun h => { h with msix := updAt h.msix v fun _ => (c + 1, some first) }

/-- R339: the Device ID of a part. -/
def Part.deviceId : Part → Nat
  | .trn2 => 0x7102
  | .trn4 => 0x7104
  | .trn8 => 0x7108

/-- R365: a class uses units of 64 bytes of its budget in the present 10 µs window; class 4, the admin pair, has none. -/
def State.charge (s : State) (cls units : Nat) : State :=
  let w := s.time / 4000
  s.onHost fun h =>
    let u := if h.window = w then h.used else [0, 0, 0, 0]
    { h with window := w, used := updAt u cls (· + units) }

/-- R365: the budget of a class, and whether it has any left. -/
def State.budget (s : State) (cls : Nat) : Nat :=
  match cls with
  | 0 => s.pkg.fld Reg.HIF_BUDGET_DRIVE
  | 1 => s.pkg.fld Reg.HIF_BUDGET_TUNE
  | 2 => s.pkg.fld Reg.HIF_BUDGET_STREAM
  | _ => s.pkg.fld Reg.HIF_BUDGET_BULK
def State.within (s : State) (cls : Nat) : Bool :=
  s.pkg.host.window ≠ s.time / 4000 || nth 0 s.pkg.host.used cls < s.budget cls

/-- The budget class of a pair: that of its binding, 4 for the admin pair. -/
def State.budgetClass (s : State) (r : Nat) : Nat := if r = 0 then 4 else s.ringClass r

/-- R346: an entry of 32 bytes is written whole to a pair's CQ, with its `PHASE`; the pair's vector is told. -/
def State.cqWrite (s : State) (r : Nat) (e : List Nat) (now : Bool) : State :=
  let tail := s.pkg.fld (Reg.HIF_RING_PTR_CQ_TAIL r)
  let q := s.ring r
  let e := e.mapIdx fun i b => if i = 3 then b % 128 + (if q.phase then 128 else 0) else b
  let wrap := tail + 1 = s.cqSize r
  let s := s.hostWrite (q.cqBase + 32 * tail) e
  let s := s.onPkg fun p => p.put (Reg.HIF_RING_PTR_CQ_TAIL r) (if wrap then 0 else tail + 1)
  let s := s.onRing r fun q => if wrap then { q with phase := !q.phase } else q
  (s.charge (s.budgetClass r) 1).msixEntry (s.pkg.fld (Reg.HIF_RING_VECTOR r)) now

/-- R363: the bytes of a completion. -/
def Completion.bytes (c : Completion) (sqHead : Nat) (tick : Word48) : List Nat :=
  bytesN 2 c.cid ++ [c.status, 0] ++ bytesN 2 sqHead ++ [c.op, 0] ++ bytesN 6 tick.toNat ++ bytesN 2 c.info ++
    (c.result ++ List.replicate 16 0).take 16

/-- R357, R360: the opcodes whose descriptors need data of host memory. -/
def readsData (op : Nat) : Bool := op = 0x11 || op = 0x30 || op = 0x31

/-- R340, R365: `len` bytes of host data of a descriptor are to be read. -/
def State.askRead (s : State) (r cid cls len : Nat) : State :=
  s.onHost fun h => { h with reads := h.reads ++ [{ ring := r, cid := cid, cls := cls, left := (len + 63) / 64 }] }

/-- The host data of a descriptor has all been asked for. -/
def State.readDone (s : State) (r cid : Nat) : Bool := s.pkg.host.reads.all fun x => x.ring ≠ r || x.cid ≠ cid || x.left = 0

/-- A completion is written, or discarded where its pair is gone (R344, R362). -/
def State.finishOne (s : State) (c : Completion) : State :=
  let fl := s.pkg.host.flying.find? fun f => f.ring = c.ring && f.cid = c.cid
  let s := s.onHost fun h =>
    { h with
      flying := dropFirst (fun f => f.ring = c.ring && f.cid = c.cid) h.flying
      reads := if readsData c.op then dropFirst (fun x => x.ring = c.ring && x.cid = c.cid) h.reads else h.reads }
  let s := s.onPkg fun p =>
    (p.bump Reg.HIF_SUPERSEDED_CNT (if c.status = 2 then 1 else 0)).bump Reg.HIF_DELAYED_CNT (if c.status = 1 then 1 else 0)
  match fl with
  | none => s
  | some f => if s.ringEn c.ring then s.cqWrite c.ring (c.bytes f.sqHead (s.stake 0).ang.tick) f.urgent else s

/-- R362: a pair being deleted of which every fetched descriptor has completed is gone, and its RING_DELETE completes. -/
def State.deleted (s : State) (r : Nat) : State :=
  let q := s.ring r
  if q.deleting.isEmpty || q.fetching ≠ 0 || s.pkg.host.flying.any fun f => f.ring = r then s
  else
    let s := (s.onPkg fun p => (p.wr (Reg.HIF_RING r) 0).wr (Reg.HIF_RING_PTR r) 0).onRing r fun _ => {}
    q.deleting.foldl (fun s c => s.finishOne { ring := 0, cid := c, op := 0x41, status := 0 }) s

/-- R363, R364: a descriptor completes. -/
def State.finish (s : State) (c : Completion) : State := (s.finishOne c).deleted c.ring

/-- R350: the oldest checked descriptor of a pair with an opcode that has reached its stake, taken. -/
def State.takeDesc (s : State) (r op : Nat) : Option (Desc × State) :=
  (s.pkg.host.descs.find? fun d => d.ring = r && d.op = op && d.there).map fun d =>
    (d, s.onHost fun h => { h with descs := dropFirst (fun x => x.ring = r && x.op = op && x.there) h.descs })

/-- R354: an AXIS descriptor with `CID` c of pair r reaches its stake n and carries a command code; a lost stake completes
`STAKE_LOST` (R350). -/
def State.axisDesc (s : State) (n r c code : Nat) (f : Stake → Stake) : State :=
  if s.ringStake r ≠ n then s
  else match s.takeDesc r 2 with
    | none => s
    | some (d, s') =>
      if d.cid ≠ c || nth 0 d.body 8 ≠ code then s
      else if !s.alive n then s'.finish { ring := r, cid := c, op := 2, status := 10 }
      else s'.onStake n f

/-- R370: the 128 bytes of a snapshot. -/
def QEvent.bytes (q : QEvent) : List Nat :=
  bytesN 2 q.post.ev.code ++ [q.post.stake, q.post.cls, 0, 0, 0, 0] ++ bytesN 6 q.post.tick.toNat ++ bytesN 2 q.eseq ++
    ((q.post.vals.take 14).flatMap (bytesN 8) ++ List.replicate 112 0).take 112

/-- R369: the entry of an event. -/
def QEvent.entry (q : QEvent) : List Nat :=
  bytesN 2 q.post.ev.code ++ [q.post.cls, 16, q.post.stake, q.post.eflags] ++ bytesN 2 q.snap ++ bytesN 6 q.post.tick.toNat ++
    bytesN 2 q.eseq ++ (q.bytes.drop 16).take 16

/-- Takes a free CQ entry of a pair. -/
def State.takeFree (s : State) (r : Nat) : State := s.onRing r fun q => { q with cqFree := q.cqFree - 1 }

/-- R342, R370, R425: events wait until boot is complete, and while the admin CQ has no room. -/
def State.drainable (s : State) : Bool := s.ready && s.masters && s.ringEn 0 && 0 < (s.ring 0).cqFree

/-- R370: with room in the admin CQ, first the entry of the lost events. -/
def State.drainLost (s : State) : State :=
  if s.pkg.lost.1 = 0 || !s.drainable then s
  else
    let e := bytesN 2 s.pkg.lost.1 ++ [0, 32, 0, 0, 0, 0] ++ bytesN 6 (s.stake 0).ang.tick.toNat ++ bytesN 2 s.pkg.lost.2 ++
      List.replicate 16 0
    ((s.takeFree 0).onPkg fun p => { p with lost := (0, 0) }).cqWrite 0 e false

/-- R369, R370: the oldest queued event is written. -/
def State.drainOne (s : State) : State :=
  if !s.drainable then s
  else match s.pkg.evq with
    | [] => s
    | q :: t => ((s.takeFree 0).onPkg fun p => { p with evq := t }).cqWrite 0 q.entry (3 ≤ q.post.cls)

/-- R370: as many queued events as the admin CQ has room for. -/
def State.drain (s : State) : State := (List.range s.pkg.evq.length).foldl (fun s _ => s.drainOne) s.drainLost

/-- R347: descriptors available to fetch in a pair. -/
def State.sqAvail (s : State) (r : Nat) : Nat :=
  let n := s.sqSize r
  ((s.ring r).sqTail + n - s.pkg.fld (Reg.HIF_RING_PTR_SQ_HEAD r)) % n - (s.ring r).fetching

/-- R340: a read tag is free: 32 for DRIVE pairs, 224 for all other reads, of descriptors and of their data. -/
def State.tagFree (s : State) (drive : Bool) : Bool :=
  let n := (List.range 256).foldl (fun a r => if (0 < r && s.ringClass r = 0) = drive then a + (s.ring r).fetching else a) 0
  if drive then n < 32 else n + s.pkg.host.reads.countP (·.out) < 224

/-- R347, R348, R362: a descriptor of the pair may be fetched. -/
def State.fetchable (s : State) (r : Nat) : Bool :=
  s.ready && s.masters && s.ringEn r && !s.pkg.flag (Reg.HIF_RING_ERROR r) && (s.ring r).deleting.isEmpty && 0 < s.sqAvail r &&
    0 < (s.ring r).cqFree && s.tagFree (0 < r && s.ringClass r = 0)

/-- R340, R365: the read of host data a pair asks for next, of its oldest descriptor with data left to ask for; one read of a descriptor is
under way at a time, with one tag. -/
def State.dataRead (s : State) (r : Nat) : Option DataRead :=
  if !s.masters then none
  else match s.pkg.host.reads.find? fun x => x.ring = r && 0 < x.left with
    | some x => if x.out || s.tagFree false then some x else none
    | none => none

/-- R26, R359, R373: a pair has a whole packet to ask for and a posted buffer. -/
def State.packetWaits (s : State) (r : Nat) : Bool :=
  let x := nth {} (s.stake (s.ringStake r)).str (s.pkg.fld (Reg.HIF_RING_STREAM r))
  s.masters && 0 < r && s.ringEn r && s.ringClass r = 2 && s.alive (s.ringStake r) && !s.pkg.host.inbound.contains r &&
    !(s.ring r).bufs.isEmpty && !x.whole.isEmpty && x.moving.isNone

/-- R365: the rank of a pair at a request slot: its class within budget, then its class over budget, the admin pair last. -/
def State.rank (s : State) (r : Nat) : Nat :=
  let c := s.budgetClass r
  if c = 4 then 8 else if s.within c then c else 4 + c

/-- R365: a pair asks for a request slot: for a descriptor, for host data, or for a packet. -/
def State.asks (s : State) (r : Nat) : Bool := s.fetchable r || (s.dataRead r).isSome || s.packetWaits r

/-- R365: the pair the DMA engine serves next: the least rank, within a class round-robin. -/
def State.nextSlot (s : State) : Option Nat :=
  let l := (List.range 256).filter s.asks
  let best := l.foldl (fun a r => min a (s.rank r)) 9
  let c := l.filter fun r => s.rank r = best
  let last := nth 0 s.pkg.host.served (best % 4)
  match c.find? fun r => last < r with
  | some r => some r
  | none => c.head?

/-- R365: a pair has been served. -/
def State.servedNow (s : State) (r : Nat) : State :=
  if r = 0 then s else s.onHost fun h => { h with served := updAt h.served (s.budgetClass r) fun _ => r }

/-- R340, R365: a read request of up to 512 bytes, or less if Device Control says so, for the host data of a descriptor. -/
def State.readData (s : State) (x : DataRead) : State :=
  let n := min x.left (2 * 2 ^ min 2 s.pkg.host.pcie.readReq)
  (s.charge x.cls n).onHost fun h =>
    match h.reads.findIdx? (· = x) with
    | some i => { h with reads := updAt h.reads i fun y => { y with left := y.left - n, out := true } }
    | none => h

end Sys2Proof.Machine
end

