-- ==== Sys2Proof/Machine/NetOps.lean ====
section
/-! DEFINITION. Shared operations of the CAN controllers (R380 to R394) and of network time (R395 to R400). -/
namespace Sys2Proof.Machine

/-- Changes the networks' state, and a controller's. -/
def State.onNet (s : State) (f : NetSt → NetSt) : State := s.onPkg fun p => { p with net := f p.net }
def State.onCan (s : State) (c : Nat) (f : CanSt → CanSt) : State := s.onNet fun x => { x with can := updAt x.can c f }

/-- A controller. -/
def State.canSt (s : State) (c : Nat) : CanSt := nth {} s.pkg.net.can c

/-- BAR0 offset of a buffer of a controller: 0 to 3 the HP buffers, 4 + b general buffer b. -/
def canBuf (c i : Nat) : Nat := 0x810000 + 0x4000 * c + (if i < 4 then 0x200 + 0x60 * i else 0x400 + 0x60 * (i - 4))

/-- Fields of a buffer. -/
def cbEn (c i : Nat) : Fld := ⟨canBuf c i, 31, 1⟩
def cbDir (c i : Nat) : Fld := ⟨canBuf c i, 30, 1⟩
def cbIde (c i : Nat) : Fld := ⟨canBuf c i, 29, 1⟩
def cbId (c i : Nat) : Fld := ⟨canBuf c i, 0, 29⟩
def cbMask (c i : Nat) : Fld := ⟨canBuf c i + 4, 0, 29⟩
def cbCtrl (c i lo w : Nat) : Fld := ⟨canBuf c i + 8, lo, w⟩
def cbFull (c i : Nat) : Fld := cbCtrl c i 31 1
def cbOverrun (c i : Nat) : Fld := cbCtrl c i 30 1
def cbWrErr (c i : Nat) : Fld := cbCtrl c i 29 1
def cbTxReq (c i : Nat) : Fld := cbCtrl c i 28 1
def cbTxDone (c i : Nat) : Fld := cbCtrl c i 25 1
def cbTxFail (c i : Nat) : Fld := cbCtrl c i 24 1
def cbRxSeq (c i : Nat) : Fld := cbCtrl c i 20 4
def cbVector (c i : Nat) : Fld := cbCtrl c i 0 6

/-- R382: a received frame matches an enabled filter or receive buffer. -/
def State.canMatch (s : State) (c i : Nat) (f : CanFrame) : Bool :=
  let m := s.pkg.fld (cbMask c i)
  s.pkg.flag (cbEn c i) && (i < 4 || !s.pkg.flag (cbDir c i)) && s.pkg.flag (cbIde c i) = f.ide &&
    (f.id &&& m) = (s.pkg.fld (cbId c i) &&& m)

/-- Data bytes a length code stands for (R380). -/
def dlcBytes (fdf : Bool) (dlc : Nat) : Nat :=
  if dlc ≤ 8 then dlc else if !fdf then 8 else nth 64 [12, 16, 20, 24, 32, 48, 64] (dlc - 9)

/-- The `FRAME` word of a frame. -/
def canWord (f : CanFrame) : BitVec 32 :=
  let b := fun (x : Bool) (n : Nat) => if x then 2 ^ n else 0
  BitVec.ofNat 32 (b f.fdf 28 + b f.brs 27 + b f.esi 26 + b f.rtr 25 + b f.ide 24 + f.dlc % 16 * 1048576)

/-- One byte of a buffer's data, written. -/
def Pkg.putByte (p : Pkg) (base i v : Nat) : Pkg := p.put ⟨base + 0x20 + i / 4 * 4, i % 4 * 8, 8⟩ v

/-- R68, R383: an overrun counts, and the first since the counter was last zero is posted. -/
def State.canOverrun (s : State) (c : Nat) : State :=
  let first := s.pkg.fld (Reg.CAN_OVERRUN_CNT_COUNT c) = 0
  let s := s.onPkg fun p => p.bump (Reg.CAN_OVERRUN_CNT c)
  if first then s.onStake 1 fun k => k.post .canRxOverrun 0 [c] else s

/-- R387: ticks divisible by 400 after tick `a − ago` up to tick `a`, on the 48-bit counter. -/
def usSteps (a ago : Nat) : Nat :=
  if ago ≤ a then a / 400 - (a - ago) / 400
  else a / 400 + 1 + 281474976710655 / 400 - (281474976710656 + a - ago) / 400

/-- R387: `CAN_US` in the tick of an edge that lies `ago` ticks back. -/
def State.canStamp (s : State) (ago : Nat) : BitVec 32 :=
  s.pkg.rd Reg.CAN_US - BitVec.ofNat 32 (usSteps (s.stake 1).ang.tick.toNat ago)

/-- R383: a frame is stored in a buffer. -/
def State.canStore (s : State) (c i : Nat) (f : CanFrame) : State :=
  let was := s.pkg.flag (cbFull c i)
  let n := if f.rtr then 0 else min f.data.length (dlcBytes f.fdf f.dlc)
  let base := canBuf c i
  let stamp := s.canStamp f.ago
  let s := s.onPkg fun p =>
    let p := ((p.put (cbRxSeq c i) ((p.fld (cbRxSeq c i) + 1) % 16)).putB (cbFull c i) true)
    let p := if was then p.putB (cbOverrun c i) true else p
    let p := ((p.wr (base + 0x0C) stamp).wr (base + 0x10) (canWord f)).wr (base + 0x14) (BitVec.ofNat 32 (f.id % 2 ^ 29))
    (List.range n).foldl (fun p j => p.putByte base j (nth 0 f.data j)) p
  if was then s.canOverrun c else s

/-- Bit k of a frame's data (R391). -/
def canBit (f : CanFrame) (i : Nat) : Bool := (nth 0 f.data (i / 8)).testBit (i % 8)

/-- The number w data bits from bit i spell (R391). -/
def canField (f : CanFrame) (i w : Nat) : Nat :=
  (List.range w).foldl (fun a j => if canBit f (i + j) then a + 2 ^ j else a) 0

/-- R160, R391: the fallback signal of a frame refreshes the input, or the frame is stale. -/
def State.canFallback (s : State) (f : CanFrame) : State :=
  let start := s.pkg.fld Reg.CAN_FB_SIG_FB_START
  let w := s.pkg.fld Reg.CAN_FB_SIG_FB_LEN_M1 + 1
  let v := canField f start w
  let al := canField f (s.pkg.fld Reg.CAN_FB_SIG_FB_ALIVE_START) 4
  let bits := 8 * (if f.rtr then 0 else f.data.length)
  let bad := bits < start + w || (s.pkg.flag Reg.CAN_FB_SIG_FB_INV_ALL1 && v = 2 ^ w - 1) ||
    (s.pkg.flag Reg.CAN_FB_SIG_FB_ALIVE_EN && (bits < s.pkg.fld Reg.CAN_FB_SIG_FB_ALIVE_START + 4 || s.pkg.net.alive = some al))
  if bad then s.onPkg fun p => p.bump Reg.CAN_FB_STALE_CNT
  else
    let s := s.onNet fun x => { x with alive := some al }
    s.onStake 1 fun k =>
      let k : Stake := { k with fe := { k.fe with canX := ((v * 2 ^ 44 / 2 ^ w : Nat) : Int), canAt := some k.now } }
      if k.fld Reg.FLD_FB_CTRL_FB_SRC = 0 then k.putB Reg.FLD_FB_STATUS_INPUT_OK true else k

/-- R393: the error counts move, and the state follows them. -/
def State.canErr (s : State) (c tec rec : Nat) : State :=
  let st := s.pkg.fld (Reg.CAN_STATUS_STATE c)
  let new := if 255 < tec then 2 else if 127 < tec || 127 < rec then 1 else 0
  let s := s.onPkg fun p =>
    ((p.put (Reg.CAN_STATUS_TEC c) (min tec 511)).put (Reg.CAN_STATUS_REC c) (min rec 255)).put (Reg.CAN_STATUS_STATE c) (if st = 2 then 2 else new)
  if st = 2 || new = st then s
  else if new = 2 then (s.onPkg fun p => p.bump (Reg.CAN_BUSOFF_CNT c)).onStake 1 fun k => k.post .canBusOff 0 [c]
  else if new = 1 then s.onStake 1 fun k => k.post .canErrPassive 0 [tec, rec]
  else s

/-- The error counts of a controller. -/
def State.canTec (s : State) (c : Nat) : Nat := s.pkg.fld (Reg.CAN_STATUS_TEC c)
def State.canRec (s : State) (c : Nat) : Nat := s.pkg.fld (Reg.CAN_STATUS_REC c)

/-- ISO 11898-1: a successful reception lowers the receive count; from above 127 it goes to a value of 119 to 127 the standard leaves open. -/
def State.canRxGood (s : State) (c : Nat) : State :=
  if 127 < s.canRec c then
    let v := 119 + Config.freePkg s.pkg.fresh % 9
    (s.onPkg fun p => { p with fresh := p.fresh + 1 }).canErr c (s.canTec c) v
  else s.canErr c (s.canTec c) (s.canRec c - 1)

/-- Whether a controller is on the bus. -/
def State.canOn (s : State) (c : Nat) : Bool :=
  c < 2 && s.inService 1 && s.pkg.flag (Reg.CAN_CTRL_EN c) && s.pkg.fld (Reg.CAN_STATUS_STATE c) ≠ 2

/-- R388: a basic cycle starts at a reference frame. -/
def State.canCycle (s : State) (c : Nat) (stamp : BitVec 32) (b0 : Nat) : State :=
  let s := s.onPkg fun p => (p.putB (Reg.CAN_STATUS_TT_RUN c) true).put (Reg.CAN_STATUS_CYCLE c) (b0 % 64)
  let now := (s.stake 1).now
  s.onCan c fun x => { x with cycleAt := stamp, refAt := now }

/-- R380, R383, R385, R389, R391: a frame has been received. An FD frame whose res bit is recessive, or that is not allowed, is a form
error, which raises the receive count by 1 (R393); remote frames are of the classical format. -/
def State.canReceive (s : State) (c : Nat) (f : CanFrame) : State :=
  let mode := s.pkg.fld (Reg.CAN_CTRL_MODE c)
  let f := { f with rtr := f.rtr && !f.fdf }
  if !s.canOn c || f.own ≠ (mode = 2 : Bool) then s
  else if f.fdf && (f.res || !s.pkg.flag (Reg.CAN_CTRL_FD_EN c)) then s.canErr c (s.canTec c) (s.canRec c + 1)
  else
    let s := s.canRxGood c
    let isRef := s.pkg.flag (Reg.CAN_CTRL_TT_EN c) && s.pkg.flag (Reg.CAN_CTRL_TT_ROLE c) &&
      s.pkg.flag (Reg.CAN_TT_REF_IDE c) = f.ide && s.pkg.fld (Reg.CAN_TT_REF_REF_ID c) = f.id
    let s := if isRef then s.canCycle c (s.canStamp f.ago) (nth 0 f.data 0) else s
    match [0, 1, 2, 3].find? fun i => s.canMatch c i f with
    | some i =>
      let s := s.canStore c i f
      let s := s.onPkg fun p => p.put Reg.CAN_HP_PENDING_PEND (p.fld Reg.CAN_HP_PENDING_PEND ||| 2 ^ (4 * c + i))
      let s := s.msixFire (s.pkg.fld (cbVector c i))
      if s.pkg.fld Reg.CAN_FB_SIG_FB_CTRL = c && s.pkg.fld Reg.CAN_FB_SIG_FB_HP = i then s.canFallback f else s
    | none =>
      let l := ((List.range 64).map (· + 4)).filter fun i => s.canMatch c i f
      match l.find? fun i => !s.pkg.flag (cbFull c i) with
      | some i => s.canStore c i f
      | none => match l with
        | i :: _ => s.canStore c i f
        | [] => s.onPkg fun p => p.bump (Reg.CAN_RX_DROP_CNT c)

/-- R384: the words of a buffer that a read of `CTRL` latches: all of its 24 words. -/
def State.canLatch (s : State) (c i : Nat) : State :=
  let ws := (List.range 24).map fun j => s.pkg.rd (canBuf c i + 4 * j)
  s.onCan c fun x => { x with shadow := (x.shadow.filter fun e => e.1 ≠ i) ++ [(i, ws)] }

/-- The buffer and word an offset of the CAN window names. -/
def canSlot (off : Nat) : Option (Nat × Nat × Nat) :=
  let c := (off - 0x810000) / 0x4000
  let o := (off - 0x810000) % 0x4000
  if off < 0x810000 || 2 ≤ c then none
  else if 0x200 ≤ o && o < 0x380 then some (c, (o - 0x200) / 0x60, (o - 0x200) % 0x60)
  else if 0x400 ≤ o && o < 0x1C00 then some (c, 4 + (o - 0x400) / 0x60, (o - 0x400) % 0x60)
  else none

/-- R394: a buffer of the package manager. -/
def State.canOwned (s : State) (c i : Nat) : Bool :=
  52 ≤ i || (i < 4 && s.pkg.fld Reg.CAN_FB_SIG_FB_CTRL = c && s.pkg.fld Reg.CAN_FB_SIG_FB_HP = i)

/-- R386: a transmission is asked for. -/
def State.canRequest (s : State) (c i : Nat) : State :=
  let now := (s.stake 1).now
  (s.onPkg fun p => p.putB (cbTxReq c i) true).onCan c fun x => { x with reqAt := (i, now) :: x.reqAt.filter (·.1 ≠ i) }

/-- R384, R386: a write of a buffer's `CTRL` word. -/
def State.wCanCtrlWord (s : State) (c i : Nat) (w : Reg32) (begun : Bool) : State :=
  let req := s.pkg.flag (cbTxReq c i)
  if req && !w.getLsbD 27 then s.onPkg fun p => p.putB (cbWrErr c i) true
  else
    let w1c := w &&& 0x63000000
    let s := s.onPkg fun p => p.wr (canBuf c i + 8) (p.rd (canBuf c i + 8) &&& ~~~ w1c)
    let s := if i < 4 then s.onPkg fun p => p.put (cbVector c i) (w.toNat % 64) else s
    let s := if w.getLsbD 26 && (Fld.mk 0 16 4).of w = s.pkg.fld (cbRxSeq c i) then s.onPkg fun p => p.putB (cbFull c i) false else s
    if i < 4 || !s.pkg.flag (cbDir c i) then s
    else if w.getLsbD 27 then
      if !req then s
      else if begun then s.onCan c fun x => { x with cancelled := addNew x.cancelled i }
      else s.onPkg fun p => (p.putB (cbTxReq c i) false).putB (cbTxFail c i) true
    else if w.getLsbD 28 && s.pkg.flag (cbEn c i) then s.canRequest c i
    else s

/-- R381: a setting is written while its controller is enabled. -/
def State.canRefuse (s : State) (c : Nat) : State :=
  (s.onPkg fun p => p.putB (Reg.CAN_STATUS_CFG_REFUSED c) true).onStake 1 fun k => k.post .canCfgRefused 0

/-- R381, R386, R394: a write of a word of a buffer. Of a buffer that is not a transmit buffer a TUNE descriptor may under the lock write
`RELEASE` alone. -/
def State.wCanBuf (s : State) (src : Src) (c i o : Nat) (w : Reg32) (begun : Bool) : State :=
  let off := canBuf c i + o
  s.pkgWrite src off w fun s =>
    if src ≠ .manager && s.canOwned c i then (if src = .host then s.rangeDrop off w else s)
    else if src = .tune && s.locked && (i < 4 || !s.pkg.flag (cbDir c i)) then
      if o = 8 then s.wCanCtrlWord c i ((w &&& 0x040F0000) ||| BitVec.ofNat 32 (s.pkg.fld (cbVector c i))) begun else s
    else if o = 8 then s.wCanCtrlWord c i w begun
    else
      let refused := o < 8 && s.pkg.flag (Reg.CAN_CTRL_EN c)
      let s := if refused then s.canRefuse c else s
      if s.pkg.flag (cbTxReq c i) then s.onPkg fun p => p.putB (cbWrErr c i) true
      else if refused then s
      else if o < 8 then s.onPkg fun p => p.store off w
      else if (0x10 ≤ o && !s.pkg.flag (cbDir c i)) then s
      else s.onPkg fun p => p.store off w

/-- R388: the column in force at an offset from the cycle's start in µs: the last whose start is not later. -/
def State.ttColumn (s : State) (c us : Nat) : Option Nat :=
  ((List.range (s.pkg.fld (Reg.CAN_TT_CFG_COLS c) + 1)).filter fun i => s.pkg.fld ⟨0x811C00 + 0x4000 * c + 4 * i, 0, 16⟩ ≤ us).getLast?

/-- R388: the cell of the matrix: kind and buffer. -/
def State.ttCell (s : State) (c col : Nat) : Nat × Nat :=
  let b := 32 * (s.pkg.fld (Reg.CAN_STATUS_CYCLE c) % 2 ^ s.pkg.fld (Reg.CAN_TT_CFG_CYC_LOG2 c)) + col
  let v := s.pkg.fld ⟨0x812000 + 0x4000 * c + b / 4 * 4, b % 4 * 8, 8⟩
  (v / 64, v % 64)

/-- R390: an event-triggered frame may start at a stamp: in a FREE column, `GUARD_US` before the next column that is not FREE. -/
def State.ttFree (s : State) (c : Nat) (stamp : BitVec 32) : Bool :=
  if !s.pkg.flag (Reg.CAN_STATUS_TT_RUN c) then true
  else
    let us := (stamp - (s.canSt c).cycleAt).toNat
    match s.ttColumn c us with
    | none => false
    | some col =>
      let later := ((List.range (s.pkg.fld (Reg.CAN_TT_CFG_COLS c) + 1)).filter fun i => col < i && (s.ttCell c i).1 ≠ 0).head?
      (s.ttCell c col).1 = 0 && match later with
        | none => true
        | some i => us + s.pkg.fld (Reg.CAN_TT_GUARD_GUARD_US c) ≤ s.pkg.fld ⟨0x811C00 + 0x4000 * c + 4 * i, 0, 16⟩

/-- R390: an exclusive frame is missed. -/
def State.ttMiss (s : State) (c b : Nat) : State :=
  (s.onPkg fun p => (p.bump (Reg.CAN_TT_MISS_CNT c)).putB (cbTxFail c (b + 4)) true).onCan c fun x => { x with excl := none }

/-! Network time. -/

/-- R398: the map in force. -/
def State.netMap (s : State) : NetMap :=
  ⟨s.pkg.get48 Reg.ETH_MAP_TICK, s.pkg.get48 Reg.ETH_MAP_NT, s.pkg.get48 Reg.ETH_MAP_MS, (s.pkg.rd Reg.ETH_MAP_RATE).toInt⟩

/-- R398: fine steps since `TICK_BASE`, and nanoseconds × 2^46 that they span: 5 × (2^40 + RATE) / 64 per step, in 2^-40. -/
def NetMap.steps (m : NetMap) (x : Instant) : Int := 32 * (x.tick - m.tick).toInt + x.fine
def NetMap.span46 (m : NetMap) (d : Int) : Int := d * 5 * (1099511627776 + m.rate)

/-- R398: network time at an instant, in 2^-46 ns. -/
def NetMap.nt46 (m : NetMap) (x : Instant) : Int := m.nt.toNat * 1073741824 + m.span46 (m.steps x)

/-- R398: `ETH_NT_NS`: the integer part for the present tick, modulo 2^32. -/
def State.ntNs (s : State) : BitVec 32 := BitVec.ofInt 32 (s.netMap.nt46 ⟨(s.stake 0).ang.tick, 0⟩ / 70368744177664)

/-- R399: the time state. -/
def State.timeState (s : State) : Nat := s.pkg.fld Reg.ETH_STATUS_TIME_STATE
def State.setTime (s : State) (t : Nat) : State :=
  (s.onPkg fun p => p.put Reg.ETH_STATUS_TIME_STATE t).onNet fun x => { x with syncOk := 0, stepped := false, holdAt := s.time }

/-- R399: time is not maintained any more. -/
def State.timeNone (s : State) : State :=
  if s.timeState = 0 then s
  else
    let lost := s.timeState = 3
    let s := s.setTime 0
    if lost then s.postPkg .ethTimeLost 0 else s

/-- R399: LOCKED enters HOLDOVER. -/
def State.timeHold (s : State) : State := (s.setTime 3).postPkg .ethTimeHoldover 0

/-- R395: the package manager runs on stake 0's plait (R316). -/
def State.managerRuns (s : State) : Bool := !(s.stake 0).vote.halted

/-- R396: a stamp falls on an edge of `ETH_REFCLK`, 8 ticks apart: received, less `INGRESS`; sent, plus `EGRESS` fine steps. -/
def refEdge (t : Word48) : Word48 := t - BitVec.ofNat 48 (t.toNat % 8)
def State.ingress (s : State) (edge : Word48) : Instant := (Instant.mk (refEdge edge) 0).plus (-(s.pkg.fld Reg.ETH_CORR_INGRESS : Int))
def State.egress (s : State) (edge : Word48) : Instant := (Instant.mk (refEdge edge) 0).plus (s.pkg.fld Reg.ETH_CORR_EGRESS : Nat)

/-- R397: the fields of a frame that the MAC sends, over which its FCS is formed. -/
def EthOut.fields : EthOut → List Int
  | .pdelayReq seq _ => [2, (seq : Int)]
  | .pdelayResp seq receipt corr twoStep =>
    let r : List Int := match receipt with | some x => [x.tick.toNat, x.fine] | none => []
    [3, (seq : Int), corr, if twoStep then 1 else 0] ++ r
  | .pdelayFollowUp seq e => [10, (seq : Int), e.tick.toNat, e.fine]

/-- R395, R397: the MAC sends a frame, with its FCS. -/
def State.ethSend (s : State) (o : EthOut) : State := s.onNet fun x => { x with ethTx := x.ethTx ++ [(o, Config.ethFcs o.fields)] }

/-- R399: the offset in nanoseconds of a Sync: network time at its ingress stamp, less the time it carries and the mean link delay, on the
32-bit circle of nanoseconds. -/
def State.syncOffset (s : State) (stamp : Instant) (origin : Int) : Int :=
  let x := s.netMap.nt46 stamp - origin * 1073741824 - (s.pkg.rd Reg.ETH_LINK_DELAY).toNat * 70368744177664
  (BitVec.ofInt 78 x).toInt / 70368744177664

/-- R395: meanLinkDelay in nanoseconds of an exchange: half of the time from request to answer, in 2^-46 ns, less what its sender took. -/
def linkDelay (span turn : Int) : Nat := ((span - turn * 1073741824) / 2 / 70368744177664).toNat

/-- R395: a peer-delay exchange ends; the port is asCapable while meanLinkDelay is at most `NPD_THR`. -/
def State.ethDelay (s : State) (d : Nat) : State :=
  let ok := d ≤ s.pkg.fld Reg.ETH_NPD_NPD_THR
  let s := s.onPkg fun p => (p.wr Reg.ETH_LINK_DELAY (BitVec.ofNat 32 d)).putB Reg.ETH_STATUS_AS_CAPABLE ok
  if ok then s else s.timeNone

/-- R399: ticks of an interval of 2^l seconds, l the signed byte of a message. -/
def logTicks (l : Int) : Nat :=
  let l := (BitVec.ofInt 8 l).toInt
  if 0 ≤ l then 400000000 * 2 ^ l.toNat else 400000000 / 2 ^ (-l).toNat

/-- R399: a Sync with its offset in nanoseconds. -/
def State.ethSync (s : State) (off : Int) : State :=
  let tol : Int := s.pkg.fld Reg.ETH_SERVO_LOCK_TOL
  let ok := iabs off ≤ tol
  let s := s.onPkg fun p => p.wr Reg.ETH_OFFSET_EST (w32 off)
  if !s.pkg.flag Reg.ETH_STATUS_AS_CAPABLE then s
  else match s.timeState with
    | 0 => (s.setTime 1).onNet fun x => { x with syncOk := if ok then 1 else 0 }
    | 1 =>
      let n := if ok then s.pkg.net.syncOk + 1 else 0
      if 4 ≤ n then (s.setTime 2).postPkg .ethTimeLock 0 else s.onNet fun x => { x with syncOk := n }
    | 2 => if ok then s else (s.setTime 1).postPkg .ethTimeUnlock 0 [word off]
    | _ => if ok then (s.setTime 2).postPkg .ethTimeLock 0 else s.setTime 1

/-- R400: the epoch instant nearest to an instant, or one `j` milliseconds after it. -/
def State.epochAt (s : State) (x : Instant) (j : Int) : Instant :=
  let m := s.netMap
  let off : Int := (s.pkg.fld Reg.ETH_EPOCH_OFFSET_NS : Nat)
  let ms : Int := 1000000
  let u : Int := 70368744177664
  -- Network time less the offset, in 2^-46 ns, on the scale of `MS_PHASE`.
  let at_ := (m.ms.toNat : Int) * 1073741824 - off * u + m.span46 (m.steps x)
  let n := (at_ + ms * u / 2) / (ms * u) + j
  let need := n * ms * u + off * u - (m.ms.toNat : Int) * 1073741824
  let d := divNear need (5 * (1099511627776 + m.rate)).toNat
  (Instant.mk m.tick 0).plus d

/-- R400: the epoch instant after the one nearest to an instant. -/
def State.nextEpoch (s : State) (x : Instant) : Instant := s.epochAt x 1

/-- R400: in LOCKED and HOLDOVER alone epochs are computed. -/
def State.epochsOn (s : State) : Bool := s.timeState = 2 || s.timeState = 3

/-- R400: the anchor's alignment cells are due: at an epoch, or, without time, 400,000 ticks after the last ones. -/
def State.alignDue (s : State) : Bool :=
  let k := s.stake 0
  if s.epochsOn then (s.epochAt k.nowI 0).tick = k.ang.tick
  else match s.pkg.net.alignAt with | some t => t + 400000 ≤ s.time | none => true

end Sys2Proof.Machine
end

