-- ==== Sys2Proof/Machine/Networks.lean ====
section
/-! DEFINITION. Commands of the CAN controllers and of network time (chapter 12). -/
namespace Sys2Proof.Machine

/-- CAN_FRAME_RECEIVED (R382, R383, R385, R389, R391, R393). -/
def execCanFrameReceived (c : Nat) (f : CanFrame) (s : State) : Host.Outcome State Fault Refusal := .next (s.canReceive c f)

/-- CAN_CTRL_READ_LATCH (R384): the host reads a buffer's `CTRL`. -/
def execCanCtrlReadLatch (c i : Nat) (s : State) : Host.Outcome State Fault Refusal :=
  .next (if 2 ≤ c || 68 ≤ i || !s.alive 1 then s
    else ((s.crossedAt .host (canBuf c i + 8) 0 []).canLatch c i).answer (canBuf c i + 8) (s.pkg.rd (canBuf c i + 8)))

/-- CAN_RELEASE (R384, R394): a write of a buffer's `CTRL` with `RELEASE`. -/
def execCanRelease (src : Src) (c i : Nat) (w : Reg32) (s : State) : Host.Outcome State Fault Refusal :=
  .next (if 2 ≤ c || 68 ≤ i || !s.alive 1 || !w.getLsbD 26 then s
    else (s.crossedAt src (canBuf c i + 8) 1 [w.toNat]).wCanBuf src c i 8 w false)

/-- CAN_TX_REQUEST (R386, R394): a write of a buffer's `CTRL` with `TX_REQ`. -/
def execCanTxRequest (src : Src) (c i : Nat) (w : Reg32) (s : State) : Host.Outcome State Fault Refusal :=
  .next (if 2 ≤ c || 68 ≤ i || !s.alive 1 || !w.getLsbD 28 then s
    else (s.crossedAt src (canBuf c i + 8) 1 [w.toNat]).wCanBuf src c i 8 w false)

/-- CAN_CANCEL (R386, R394): a write of a buffer's `CTRL` with `CANCEL`; `begun` where the bus already carries the frame. -/
def execCanCancel (src : Src) (c i : Nat) (w : Reg32) (begun : Bool) (s : State) : Host.Outcome State Fault Refusal :=
  .next (if 2 ≤ c || 68 ≤ i || !s.alive 1 || !w.getLsbD 27 then s
    else (s.crossedAt src (canBuf c i + 8) 1 [w.toNat]).wCanBuf src c i 8 w begun)

/-- R380: the frame of a buffer is one the controller may send. -/
def State.fdAllowed (s : State) (c i : Nat) : Bool := s.pkg.flag (Reg.CAN_CTRL_FD_EN c) || !s.pkg.flag ⟨canBuf c i + 0x10, 28, 1⟩

/-- R386: of the buffers that were pending before a time, none goes before buffer i: order of identifier, then of index. -/
def State.canFirst (s : State) (c i sof : Nat) : Bool :=
  let id := fun j => s.pkg.fld (cbId c j)
  ((List.range 64).map (· + 4)).all fun j =>
    !(s.pkg.flag (cbTxReq c j) && s.fdAllowed c j && (s.canSt c).reqAt.any fun r => r.1 = j && r.2 < sof) || id i < id j || (id i = id j && i ≤ j)

/-- R389: buffer b is the reference frame of a time master. -/
def State.isRefBuf (s : State) (c b : Nat) : Bool :=
  s.pkg.flag (Reg.CAN_CTRL_TT_EN c) && !s.pkg.flag (Reg.CAN_CTRL_TT_ROLE c) && b = 62

/-- R386, R390: general buffer b may have started `ago` ticks back: as the exclusive frame, within `TX_EN_US` of its column's start; or
asked for, first of those that wait, in a place the schedule leaves it, and with no exclusive frame that could start. -/
def State.canSending (s : State) (c b ago : Nat) : Bool :=
  let now := (s.stake 1).now
  let sof := now - ago
  let wait := 400 * s.pkg.fld (Reg.CAN_TT_CFG_TX_EN_US c)
  let open_ := fun (t : Nat) => t ≤ sof && sof ≤ t + wait
  let ex : Bool := match (s.canSt c).excl with | some (x, t) => x = b && open_ t | none => false
  let held : Bool := match (s.canSt c).excl with | some (x, t) => x ≠ b && open_ t && s.fdAllowed c (x + 4) | none => false
  let event := s.pkg.flag (cbTxReq c (b + 4)) && !held && s.canFirst c (b + 4) sof && (s.isRefBuf c b || s.ttFree c (s.canStamp ago))
  s.canOn c && s.pkg.fld (Reg.CAN_CTRL_MODE c) ≠ 1 && b < 64 && ago ≤ now && s.fdAllowed c (b + 4) && (ex || event)

/-- CAN_TX_DONE (R386 to R389, R393): general buffer b has been sent; its start-of-frame edge lies `ago` ticks back. -/
def execCanTxDone (c b ago : Nat) (s : State) : Host.Outcome State Fault Refusal :=
  .next (if !s.canSending c b ago then s
    else
      let i := b + 4
      let stamp := s.canStamp ago
      let s := s.onPkg fun p =>
        ((((p.putB (cbTxReq c i) false).putB (cbTxDone c i) true).wr (canBuf c i + 0x0C) stamp).wr (canBuf c i + 0x14)
          (BitVec.ofNat 32 (p.fld (cbId c i))))
      let s := s.onCan c fun x =>
        { x with
          cancelled := x.cancelled.filter (· ≠ i)
          excl := match x.excl with | some (y, t) => if y = b then none else some (y, t) | none => none }
      let s := s.canErr c (s.canTec c - 1) (s.canRec c)
      if s.isRefBuf c b then s.canCycle c stamp (s.pkg.fld ⟨canBuf c i + 0x20, 0, 8⟩) else s)

/-- R393, ISO 11898-1: how far an error of a transmitter raises its count: by 8; not at all for a missing acknowledge met error-passive with
no dominant bit in the error flag (kind 1), or for a stuff error in arbitration whose recessive bit reads dominant (kind 2). Every fourth
part of `kind` is a further 8: an error in the flag itself, or eight more dominant bits after it. -/
def State.txRise (s : State) (c kind : Nat) : Nat :=
  let passive : Bool := s.pkg.fld (Reg.CAN_STATUS_STATE c) = 1
  (if (kind % 4 = 1 && passive) || kind % 4 = 2 then 0 else 8) + kind / 4 * 8

/-- R393, ISO 11898-1: the same of a receiver: by 1, or by 0 where an overload flag was sent (kind 1); every fourth part of `kind` is a
further 8: an error in the flag itself, or a dominant bit or eight of them after it. -/
def rxRise (kind : Nat) : Nat := (if kind % 4 = 1 then 0 else 1) + kind / 4 * 8

/-- CAN_TX_ERROR (R386, R390, R393): general buffer b, which started `ago` ticks back, loses arbitration or meets an error. -/
def execCanTxError (c b ago : Nat) (arbitration : Bool) (kind : Nat) (s : State) : Host.Outcome State Fault Refusal :=
  .next (if !s.canSending c b ago then s
    else
      let i := b + 4
      let s := if arbitration then s else s.canErr c (s.canTec c + s.txRise c kind) (s.canRec c)
      let ex : Bool := match (s.canSt c).excl with | some (x, _) => x = b | none => false
      if ex then s.ttMiss c b
      else if (s.canSt c).cancelled.contains i then
        (s.onPkg fun p => (p.putB (cbTxReq c i) false).putB (cbTxFail c i) true).onCan c fun x =>
          { x with cancelled := x.cancelled.filter (· ≠ i) }
      else s)

/-- CAN_RX_ERROR (R393): a frame being received meets an error. -/
def execCanRxError (c kind : Nat) (s : State) : Host.Outcome State Fault Refusal :=
  .next (if s.canOn c then s.canErr c (s.canTec c) (s.canRec c + rxRise kind) else s)

/-- R393: a controller rejoins the bus with its counts at zero. -/
def State.canJoin (s : State) (c : Nat) : State :=
  s.onPkg fun p => ((p.put (Reg.CAN_STATUS_TEC c) 0).put (Reg.CAN_STATUS_REC c) 0).put (Reg.CAN_STATUS_STATE c) 0

/-- CAN_BUS_OFF_RECOVERY (R393). -/
def execCanBusOffRecovery (c : Nat) (s : State) : Host.Outcome State Fault Refusal :=
  .next (if c < 2 && s.pkg.flag (Reg.CAN_CTRL_EN c) && s.pkg.fld (Reg.CAN_STATUS_STATE c) = 2 && s.pkg.flag (Reg.CAN_CTRL_AUTO_RECOVER c) then
      s.canJoin c else s)

/-- R381, R388, R393: a write of `CANn_CTRL`. -/
def State.wCanCtrl (s : State) (c : Nat) (w : Reg32) : State :=
  let was := s.pkg.flag (Reg.CAN_CTRL_EN c)
  let s := s.onPkg fun p => p.store (Reg.CAN_CTRL c) w
  let on := w.getLsbD 31
  let s := if on && !was then s.canJoin c else s
  if !on || !w.getLsbD 25 then
    (s.onPkg fun p => (p.putB (Reg.CAN_STATUS_TT_RUN c) false).put (Reg.CAN_STATUS_CYCLE c) 0).onCan c fun x =>
      { x with excl := none, sentAt := none, nextCycle := 0, cancelled := if on then x.cancelled else [] }
  else s

/-- CAN_CONTROLLER_ENABLE (R381, R393): a write of `CANn_CTRL` that changes `EN`. -/
def execCanControllerEnable (src : Src) (c : Nat) (w : Reg32) (s : State) : Host.Outcome State Fault Refusal :=
  .next (if 2 ≤ c || !s.alive 1 || w.getLsbD 31 = s.pkg.flag (Reg.CAN_CTRL_EN c) then s
    else (s.crossedAt src (Reg.CAN_CTRL c) 1 [w.toNat]).pkgWrite src (Reg.CAN_CTRL c) w fun s => s.wCanCtrl c w)

/-- CAN_US_WRAP (R387): the counter has passed zero. -/
def execCanUsWrap (s : State) : Host.Outcome State Fault Refusal :=
  .next (if s.pkg.net.usWrap then (s.onNet fun x => { x with usWrap := false }).onPkg fun p => p.putB Reg.CAN_US_STATUS_WRAP true else s)

/-- CAN_REF_SEND (R389): every `CYCLE_US` a time master puts the cycle count into buffer 62 and sends it. -/
def execCanRefSend (c : Nat) (s : State) : Host.Outcome State Fault Refusal :=
  .next (
    let x := s.canSt c
    let now := (s.stake 1).now
    let due : Bool := match x.sentAt with
      | none => true
      | some t => t + 400 * s.pkg.fld (Reg.CAN_TT_CFG_CYCLE_US c) ≤ now
    if !s.canOn c || !s.pkg.flag (Reg.CAN_CTRL_TT_EN c) || s.pkg.flag (Reg.CAN_CTRL_TT_ROLE c) || !due then s
    else
      let s := (s.onPkg fun p => p.putByte (canBuf c 66) 0 x.nextCycle).canRequest c 66
      s.onCan c fun y =>
        { y with sentAt := some now, nextCycle := (x.nextCycle + 1) % 2 ^ s.pkg.fld (Reg.CAN_TT_CFG_CYC_LOG2 c) })

/-- CAN_TT_REF_TIMEOUT (R389). -/
def execCanTtRefTimeout (c : Nat) (s : State) : Host.Outcome State Fault Refusal :=
  .next (
    let lim := 400 * (s.pkg.fld (Reg.CAN_TT_CFG_CYCLE_US c) + s.pkg.fld (Reg.CAN_TT_GUARD_REF_TOL c))
    if 2 ≤ c || !s.pkg.flag (Reg.CAN_STATUS_TT_RUN c) || !s.pkg.flag (Reg.CAN_CTRL_TT_ROLE c) || (s.stake 1).now < (s.canSt c).refAt + lim then s
    else
      ((s.onPkg fun p => p.putB (Reg.CAN_STATUS_TT_RUN c) false).onCan c fun x => { x with excl := none }).onStake 1 fun k =>
        k.post .canTtLoss 0 [c])

/-- CAN_TT_COLUMN_START (R388, R390): column `col` of the running cycle begins. -/
def execCanTtColumnStart (c col : Nat) (s : State) : Host.Outcome State Fault Refusal :=
  .next (
    let us := (s.pkg.rd Reg.CAN_US - (s.canSt c).cycleAt).toNat
    if !s.canOn c || !s.pkg.flag (Reg.CAN_STATUS_TT_RUN c) || s.pkg.fld (Reg.CAN_TT_CFG_COLS c) < col ||
        us ≠ s.pkg.fld ⟨0x811C00 + 0x4000 * c + 4 * col, 0, 16⟩ then s
    else
      let (kind, b) := s.ttCell c col
      if kind = 1 && s.pkg.flag (cbEn c (b + 4)) && s.pkg.flag (cbDir c (b + 4)) then
        s.onCan c fun x => { x with excl := some (b, (s.stake 1).now) }
      else s)

/-- CAN_TT_EXCLUSIVE_MISS (R390): the exclusive frame has not started within `TX_EN_US`. -/
def execCanTtExclusiveMiss (c : Nat) (s : State) : Host.Outcome State Fault Refusal :=
  .next (match (s.canSt c).excl with
    | some (b, t) => if t + 400 * s.pkg.fld (Reg.CAN_TT_CFG_TX_EN_US c) ≤ (s.stake 1).now then s.ttMiss c b else s
    | none => s)

/-- R392: bytes 0 and 1 of the status frame. -/
def State.statusBytes (s : State) : Nat × Nat :=
  let k := s.stake 1
  let b := fun (x : Bool) (n : Nat) => if x then 2 ^ n else 0
  let b0 := (List.range 8).foldl (fun a n => a + b (s.reaches 1 n && !k.wal.lostMask.testBit n) n) 0
  (b0, b k.wal.anchorLost 0 + b (k.wal.master = 1) 1 + b (k.flag Reg.FLD_FB_STATUS_ACTIVE) 2 + b (!k.flag Reg.FLD_FB_STATUS_INPUT_OK) 3)

/-- CAN_STATUS_FRAME_SEND (R392): every `STAT_PERIOD`, or where byte 0 or 1 has changed. -/
def execCanStatusFrameSend (s : State) : Host.Outcome State Fault Refusal :=
  .next (
    let now := (s.stake 1).now
    let c := s.pkg.fld Reg.CAN_STAT_CFG_STAT_CTRL
    let (b0, b1) := s.statusBytes
    let due : Bool := (b0, b1) ≠ s.pkg.net.statLast || match s.pkg.net.statAt with
      | none => true
      | some t => t + 400000 * s.pkg.fld Reg.CAN_STAT_PERIOD_MS ≤ now
    if !s.inService 1 || !s.pkg.flag Reg.CAN_STAT_CFG_STAT_EN || !due then s
    else
      let st := fun (n : Nat) => if b0.testBit n then (s.stake n).axis else 14
      let bytes := [b0, b1] ++ ([0, 1, 2, 3].map fun i => st (2 * i) + 16 * st (2 * i + 1)) ++ [s.pkg.net.statCnt]
      let chk := 255 - crc 8 0x2F 0xFF (bytes.flatMap (bitsOf 8))
      let base := canBuf c 67
      let id := s.pkg.rd Reg.CAN_STAT_CFG &&& 0x3FFFFFFF
      let s := s.onPkg fun p =>
        let p := (p.wr base (0xC0000000 ||| id)).wr (base + 0x10) (0x800000 ||| ((id &&& 0x20000000) >>> 5))
        (List.range 8).foldl (fun p i => p.putByte base i (nth 0 (bytes ++ [chk]) i)) p
      (s.canRequest c 67).onNet fun x => { x with statAt := some now, statLast := (b0, b1), statCnt := (x.statCnt + 1) % 256 })

/-- R395: the MAC is enabled and the anchor answers. -/
def State.ethOn (s : State) : Bool := s.pkg.flag Reg.ETH_CTRL_EN && s.alive 0

/-- R395 to R399: what the package manager makes of a message. -/
def State.ethMessage (s : State) (m : EthMsg) : State :=
  match m with
  | .other => s
  | .sync edge seq interval origin =>
    let s := s.onNet fun x => { x with syncAt := s.time, syncEvery := logTicks interval, syncWait := some (seq, s.ingress edge) }
    match origin with
    | some o => (s.onNet fun x => { x with syncWait := none }).ethSync (s.syncOffset (s.ingress edge) o)
    | none => s
  | .followUp seq o =>
    match s.pkg.net.syncWait with
    | some (q, stamp) => if q = seq then (s.onNet fun x => { x with syncWait := none }).ethSync (s.syncOffset stamp o) else s
    | none => s
  | .announce none => (s.onPkg fun p => (p.wr Reg.ETH_GM_ID_LO 0).wr Reg.ETH_GM_ID_HI 0).timeNone
  | .announce (some g) =>
    s.onPkg fun p => (p.wr Reg.ETH_GM_ID_LO (BitVec.ofNat 32 g.toNat)).wr Reg.ETH_GM_ID_HI (BitVec.ofNat 32 (g.toNat / 4294967296))
  | .pdelayResp edge seq turn =>
    match s.pkg.net.pdReq with
    | (q, some t1) =>
      let span := s.netMap.span46 ((s.ingress edge).minus t1)
      if q ≠ seq then s
      else match turn with
        | some d => (s.onNet fun x => { x with pdReq := (q, none) }).ethDelay (linkDelay span d)
        | none => s.onNet fun x => { x with pdReq := (q, none), pdWait := some (seq, span) }
    | _ => s
  | .pdelayFollowUp seq turn =>
    match s.pkg.net.pdWait with
    | some (q, span) => if q = seq then (s.onNet fun x => { x with pdWait := none }).ethDelay (linkDelay span turn) else s
    | none => s
  | .pdelayReq edge egress seq corr =>
    let ins := s.ingress edge
    let out := s.egress egress
    if s.pkg.flag Reg.ETH_CTRL_ONE_STEP then s.ethSend (.pdelayResp seq none (corr + 5120 * out.minus ins) false)
    else (s.ethSend (.pdelayResp seq (some ins) corr true)).ethSend (.pdelayFollowUp seq out)

/-- ETH_FRAME_RECEIVED (R316, R395 to R397, R399): the MAC takes a frame of EtherType 0x88F7 to 01-80-C2-00-00-0E whose FCS fits, and drops
and counts every other. -/
def execEthFrameReceived (f : EthFrame) (s : State) : Host.Outcome State Fault Refusal :=
  .next (if !s.ethOn then s
    else if f.etherType ≠ 0x88F7 || f.dest ≠ 0x0180C200000E || !f.fcsOk then s.onPkg fun p => p.bump Reg.ETH_DROP_CNT
    else if s.managerRuns then s.ethMessage f.msg else s)

/-- PDELAY_REQ_SEND (R395, R396): every 2^(PDELAY_LOG − 3) s; the first dibit after its SFD is driven at the last edge of `ETH_REFCLK`. -/
def execPdelayReqSend (s : State) : Host.Outcome State Fault Refusal :=
  .next (
    let due : Bool := match s.pkg.net.pdelayAt with
      | none => true
      | some t => t + 50000000 * 2 ^ s.pkg.fld Reg.ETH_CTRL_PDELAY_LOG ≤ s.time
    if !s.ethOn || !s.managerRuns || !due then s
    else
      let q := (s.pkg.net.pdReq.1 + 1) % 65536
      let out := s.egress (s.stake 0).ang.tick
      (s.onNet fun x => { x with pdelayAt := some s.time, pdReq := (q, some out), pdWait := none }).ethSend (.pdelayReq q out))

/-- PHY_LINK_POLL (R395, R399): every 10 ms; a link that drops while LOCKED enters HOLDOVER. -/
def execPhyLinkPoll (up : Bool) (s : State) : Host.Outcome State Fault Refusal :=
  .next (
    let due : Bool := match s.pkg.net.pollAt with | none => true | some t => t + 4000000 ≤ s.time
    if !s.ethOn || !s.managerRuns || !due then s
    else
      let s := (s.onPkg fun p => p.putB Reg.ETH_STATUS_LINK up).onNet fun x => { x with pollAt := some s.time }
      if !up && s.timeState = 2 then s.timeHold else s)

/-- MAP_COMMIT (R398, R399): the package manager commits a map, 64 ticks or more before its `TICK_BASE`; a step is counted and
posted. In NONE the map is not maintained, and in HOLDOVER it runs on; while LOCKED no map steps, and in ACQUIRE one does once, where the
offset exceeds 100 µs. -/
def execMapCommit (tick nt ms : Word48) (rate : Int) (s : State) : Host.Outcome State Fault Refusal :=
  .next (
    let t := (s.stake 0).ang.tick
    let m : NetMap := ⟨tick, nt, ms, rate⟩
    let d := (BitVec.ofInt 78 (m.nt46 ⟨tick, 0⟩ - s.netMap.nt46 ⟨tick, 0⟩)).toInt
    let step := 70368744177664 < iabs d
    let lead := (tick - t).toInt
    let far := 100000 < iabs (s.pkg.rd Reg.ETH_OFFSET_EST).toInt
    if !s.ethOn || !s.managerRuns || s.timeState = 0 || s.timeState = 3 || lead < 64 || 219902326 < iabs rate || 65536000000 ≤ ms.toNat then s
    else if step && (s.timeState = 2 || s.pkg.net.stepped || !far) then s
    else
      let s := s.onNet fun x => { x with mapNext := some m, stepped := x.stepped || step }
      if step then (s.onPkg fun p => p.bump Reg.ETH_STEP_CNT).postPkg .ethTimeStep 0 [word (d / 70368744177664)] else s)

/-- R398: a committed map takes effect at its `TICK_BASE`; R387: the microsecond counter steps. One tick of the networks. -/
def State.tickNet (s : State) : State :=
  let s := match s.pkg.net.mapNext with
    | some m =>
      if m.tick = (s.stake 0).ang.tick then
        (s.onPkg fun p => (((p.put48 Reg.ETH_MAP_TICK m.tick).put48 Reg.ETH_MAP_NT m.nt).put48 Reg.ETH_MAP_MS m.ms).wr Reg.ETH_MAP_RATE
          (w32 m.rate)).onNet fun x => { x with mapNext := none }
      else s
    | none => s
  if s.present 1 && !(s.stake 1).stopped && (s.stake 1).ang.tick.toNat % 400 = 0 then
    let v := s.pkg.rd Reg.CAN_US
    let s := s.onPkg fun p => p.wr Reg.CAN_US (v + 1)
    if v = 0xFFFFFFFF then s.onNet fun x => { x with usWrap := true } else s
  else s

/-- ETH_SYNC_TIMEOUT (R395, R399): syncReceiptTimeout, three intervals without a Sync, runs out while LOCKED. -/
def execEthSyncTimeout (s : State) : Host.Outcome State Fault Refusal :=
  .next (if s.ethOn && s.managerRuns && s.timeState = 2 && s.pkg.net.syncAt + 3 * s.pkg.net.syncEvery ≤ s.time then (s.onPkg fun p => p.bump Reg.ETH_SYNC_TO_CNT).timeHold else s)

/-- HOLDOVER_TIMEOUT (R399). -/
def execHoldoverTimeout (s : State) : Host.Outcome State Fault Refusal :=
  .next (if s.managerRuns && s.timeState = 3 && s.pkg.net.holdAt + 400000000 * s.pkg.fld Reg.ETH_SERVO_HOLD_MAX < s.time then s.timeNone else s)

end Sys2Proof.Machine
end

