-- ==== Sys2Proof/Machine/Pairing.lean ====
section
/-! DEFINITION. Commands of pairing (chapter 07). -/
namespace Sys2Proof.Machine

/-- A word of a cell read as a signed 48-bit number. -/
def wordInt (ws : List Nat) (i : Nat) : Int := wrap48 ((nth 0 ws i : Nat) : Int)

/-- A word of a cell as 48 bits. -/
def wordAt (ws : List Nat) (i : Nat) : Word48 := BitVec.ofNat 48 (nth 0 ws i)

/-- R211: the follower's axis takes the leader's state and the sub-state it requests (R218, R222 item 2). -/
def Stake.mirrorAxis (k : Stake) (st sub : Nat) : Stake :=
  let k := k.onPair fun p => { p with mirror := (st, sub) }
  if !k.pairedFollower || k.axis = axNotReady then k
  else if st = axSafe || sub ≠ 0 then
    let sub := if sub = 0 then 1 else sub
    if k.axis = axSafe && k.fld Reg.PLT_PS_STATUS_SUBSTATE = sub then k else k.seizeSafe sub 10
  else if k.axis = st then k
  else
    let sw := fun (a : Nat) => [axRun, axDerate, axTest].contains a
    let k := if k.axis = axSafe then k.release else k
    let k := if sw k.axis && !sw st then k.leaveSwitching else k
    let enter := !sw k.axis && sw st
    let k := k.setAxis st 0
    if enter then k.enterSwitching else k

/-- R46, R48, R218: cell 0 at the follower: a measurement of source 5, and the leader's state. -/
def Stake.clockCell (k : Stake) (ws : List Nat) : Stake :=
  let w3 := nth 0 ws 3
  let w5 := nth 0 ws 5
  let valid := w3.testBit 29
  let k := k.onPair fun p => { p with clockValid := valid }
  let k := if valid then k.deliver 5 { m := wordAt ws 1, tm := wordAt ws 0, speed := wordInt ws 2, rev := w3.testBit 28 }
    else k.loseSource 5
  k.mirrorAxis (w5 % 16) (w5 / 16 % 4)

/-- R228: the pairing becomes PAIRED: three frames matched in succession, and the follower's main clock VALID. -/
def State.pairUp (s : State) (n : Nat) : State :=
  let f := partnerOf n
  if (s.stake n).pairSt = 1 && 3 ≤ (s.stake n).pair.matched && ((s.stake f).clock 0).valid then
    let s := s.onStake f fun k =>
      let k := k.put Reg.FLD_PAIR_STATUS_STATE 2
      let v := k.fld Reg.THM_STATUS_I_THERM
      if v = 0 then k else k.toPartner 0xFFFF [v]
    s.onStake n fun k => (k.put Reg.FLD_PAIR_STATUS_STATE 2).post .pairUp 0
  else s

/-- R217: a sample frame reaches the leader; one that comes after the pass start at which it was due is discarded. -/
def Stake.takeSampleFrame (k : Stake) (ws : List Nat) : Stake :=
  if !k.leads || (k.pairSt ≠ 1 && k.pairSt ≠ 2) then k
  else
    let w1 := nth 0 ws 1
    let f : PairFrame :=
      { tc := wordAt ws 0, seq := w1 / 4294967296 % 65536, qual := w1 / 268435456 % 16, unavail := w1.testBit 27
        hlValid := w1.testBit 26, late := w1.testBit 25
        i := [wordInt ws 2, wordInt ws 3, wordInt ws 4], loop := (wordInt ws 5, wordInt ws 6) }
    let k := k.onDir (k.way k.ringN (partnerOf k.id)) fun w => { w with pairGap := false }
    if k.pair.judged = some f.tc then k else k.onPair fun p => { p with frames := p.frames ++ [f] }

/-- PAIR_SAMPLE_FRAME (R25, R217): a `KIND` 3 cell is ejected at the leader. -/
def execPairSampleFrame (n : Nat) (ws : List Nat) (s : State) : Host.Outcome State Fault Refusal :=
  .next (s.onStake n fun k => k.takeSampleFrame ws)

/-- R215, R220: the leader's set at the follower: what its loop needs, and the set, closed in this tick. -/
def Stake.takeReturned (k : Stake) (c0 c1 c2 : List Nat) : Stake :=
  let w3 := nth 0 c0 3
  let k := k.clockCell c0
  if !k.pairedFollower || !w3.testBit 31 then k
  else
    let flux := w3.testBit 30
    let s : USet :=
      { mask := w3 % 128, pass := true, target := some (wordAt c0 4), period := nth 0 c1 6 % 4294967296
        va := wordInt c1 0, vb := wordInt c1 1, udc := wordInt c1 2, id := wordInt c1 3, iq := wordInt c1 4, theta := wordAt c1 5
        slot := nth 0 c1 7 % 16
        psiA := if flux then wordInt c2 0 else 0, psiB := if flux then wordInt c2 1 else 0
        hatA := if flux then wordInt c2 2 else 0, hatB := if flux then wordInt c2 3 else 0
        omegaC := wordInt c0 2, m := wordInt c2 4, tc := wordAt c0 0 }
    let r : Returned :=
      { thetaC := wordAt c0 1, thetaOut := wordAt c1 5, cur := (wordInt c2 5, wordInt c2 6), tag := w3 / 4294967296 % 65536 }
    (k.onPair fun p => { p with returned := some r }).closeSet s k.ang.tick

/-- PAIR_UPDATE_SET (R176, R218, R220): the last of the three set cells is ejected at the follower. -/
def execPairUpdateSet (n : Nat) (c0 c1 c2 : List Nat) (s : State) : Host.Outcome State Fault Refusal :=
  let s := s.onStake n fun k =>
    (k.takeReturned c0 c1 c2).onDir (k.way k.ringN (partnerOf k.id)) fun w => { w with pairGap := true, gapAt := some k.now }
  .next (s.onStake (partnerOf n) fun k => k.onDir (k.way k.ringN n) fun w => { w with pairGap := true, gapAt := some k.now })

/-- PAIR_CLOCK_MEASUREMENT (R46, R218): cell 0 alone is ejected at the follower. -/
def execPairClockMeasurement (n : Nat) (c0 : List Nat) (s : State) : Host.Outcome State Fault Refusal :=
  .next (s.onStake n fun k => if k.leads then k else k.clockCell c0)

/-- R218, R228: the leader sends cell 0 alone every 4,000 ticks, in every state from START on. -/
def Stake.sendClockCell (k : Stake) : Stake :=
  if !k.leads || k.pairSt = 0 || k.now < k.pair.nextCell then k
  else
    let c := k.clock 0
    let w := k.cell0 k.ang.tick c.theta c.omega 0 false false 0 0
    (k.sendCell (k.cell (partnerOf k.id) 0 4 0xFFFF w)).onPair fun p => { p with nextCell := k.now + 4000 }

/-- PAIR_CLOCK_CELL_SEND (R218). -/
def execPairClockCellSend (n : Nat) (s : State) : Host.Outcome State Fault Refusal := .next (s.onStake n Stake.sendClockCell)

/-- R227: the first condition that fails, or 0. -/
def startCause (a b : Stake) : Nat :=
  let eq := fun (o : Nat) => a.rdAct o = b.rdAct o
  let slots := (List.range 32).all fun i => eq (Reg.MOD_SLOT 0 + 4 * i)
  let carriers := (List.range 16).all fun i => a.slotKind i = 0 && b.slotKind i = 0
  if a.pairMode = 0 || a.pairMode ≠ b.pairMode then 1
  else if a.axis ≠ axOff || b.axis ≠ axOff then 2
  else if !a.directUp || !b.directUp then 3
  else if a.flag Reg.WAL_STATUS_TICK_SKEW || b.flag Reg.WAL_STATUS_TICK_SKEW then 4
  else if a.inForceB Reg.MOD_CTRL_DOUBLE != b.inForceB Reg.MOD_CTRL_DOUBLE || !slots || !eq Reg.MOD_MINPULSE || !eq Reg.MOD_KEEPOUT ||
      !eq Reg.MOD_EPOCH_CTRL || (a.pairMode = 1 && !carriers) then 5
  else if b.clkSrc 0 ≠ 5 then 6
  else if a.pairSt ≠ 0 || b.pairSt ≠ 0 then 7
  else 0

/-- R228: a stake enters STARTING. -/
def Stake.starting (k : Stake) : Stake :=
  { (k.put Reg.FLD_PAIR_STATUS_STATE 1).put Reg.FLD_PAIR_STATUS_CONSEC 0 with pair := { nextCell := k.now } }

/-- R226: a stake becomes UNPAIRED. -/
def Stake.unpair (k : Stake) : Stake :=
  let k := (k.put Reg.FLD_PAIR_STATUS_STATE 0).put Reg.FLD_PAIR_STATUS_CONSEC 0
  { k with pair := {} }.updDerate

/-- R226 to R229: a write of `FLD_PAIR_CTRL` that has passed the access checks; under the lock only `START` and `STOP` count. Outside
UNPAIRED the fields take no write: one that carries neither `START` nor `STOP`, or other values, sets `CFG_REFUSED`, and `START` and
`STOP` act by their own rules. -/
def State.wPairCtrl (s : State) (n : Nat) (w : Reg32) : State :=
  let k := s.stake n
  let p := partnerOf n
  let r := Reg.FLD_PAIR_CTRL
  let new := (regAt r).map (fun d => d.merge (k.rd r) w) |>.getD w
  let fields := !s.locked && (new &&& 0x3FFFFFFC ≠ k.rd r &&& 0x3FFFFFFC || w &&& 3 = 0)
  let refuse := fun (s : State) => s.onStake n fun k => k.putB Reg.FLD_PAIR_STATUS_CFG_REFUSED true
  let s := if !fields then s else if k.pairSt ≠ 0 then refuse s else s.onStake n fun k => k.wr r (new &&& 0xFFFFFFFC)
  let s := if w.getLsbD 0 then
      if !k.leads then refuse s
      else
        let c := startCause (s.stake n) (s.stake p)
        if c ≠ 0 then s.onStake n fun k =>
          ((k.putB Reg.FLD_PAIR_STATUS_START_REFUSED true).put Reg.FLD_PAIR_STATUS_REFUSE_CAUSE c).post .pairStartRefused 0 [c]
        else (s.onStake n Stake.starting).onStake p Stake.starting
    else s
  if w.getLsbD 1 then
    let quiet := fun (k : Stake) => k.axisIn [axOff, axSafe]
    if !k.leads || !quiet (s.stake n) || !quiet (s.stake p) then refuse s
    else (s.onStake n Stake.unpair).onStake p Stake.unpair
  else s

/-- The write with its access checks (R15, R16, R229). -/
def State.pairCtrlWrite (s : State) (src : Src) (n : Nat) (w : Reg32) : State :=
  let r := Reg.FLD_PAIR_CTRL
  if !s.takesFrom src n then s
  else if s.locked && closedTo src r then (if src = .host then s.lockDrop (bar0 n r) else s)
  else if ((regAt r).map fun d => d.inRange w).getD true then s.wPairCtrl n w
  else s.rangeDrop (bar0 n r) w

/-- PAIR_START (R227 to R229): a write of `FLD_PAIR_CTRL` with `START`. -/
def execPairStart (n : Nat) (src : Src) (w : Reg32) (s : State) : Host.Outcome State Fault Refusal :=
  .next (if w.getLsbD 0 then s.pairCtrlWrite src n w else s)

/-- PAIR_STOP (R226, R227, R229): a write of `FLD_PAIR_CTRL` with `STOP`. -/
def execPairStop (n : Nat) (src : Src) (w : Reg32) (s : State) : Host.Outcome State Fault Refusal :=
  .next (if w.getLsbD 1 then s.pairCtrlWrite src n w else s)

/-- PAIR_BREAK_RECORD (R223, R224): the partner's record of a break. -/
def execPairBreakRecord (n cause : Nat) (s : State) : Host.Outcome State Fault Refusal :=
  .next (s.onStake n fun k => if 1 ≤ cause ∧ cause ≤ 5 then k.breakRow cause else k)

/-- R225: the yielding stake's confirmation at a PARALLEL survivor in HOLD. -/
def Stake.confirmArrives (k : Stake) : Stake :=
  match k.pair.holdAt with
  | none => k
  | some t =>
    if k.pairSt ≠ 3 || t + 400 * k.inForce Reg.FLD_PAIR_LIMITS_T_CONFIRM < k.now then k
    else
      let k := (k.put Reg.FLD_PAIR_STATUS_STATE 4).onPair fun p => { p with holdAt := none }
      ((k.onFe fun f => { f with flying := true }).enterSwitching).updDerate

/-- PAIR_CONFIRM_RECORD (R224, R225). -/
def execPairConfirmRecord (n : Nat) (s : State) : Host.Outcome State Fault Refusal := .next (s.onStake n Stake.confirmArrives)

/-- PAIR_CONFIRM_TIMEOUT (R225): no confirmation within `T_CONFIRM` of entering HOLD. -/
def execPairConfirmTimeout (n : Nat) (s : State) : Host.Outcome State Fault Refusal :=
  .next (s.onStake n fun k => match k.pair.holdAt with
    | none => k
    | some t =>
      if k.pairSt = 3 && t + 400 * k.inForce Reg.FLD_PAIR_LIMITS_T_CONFIRM ≤ k.now then
        (k.post .pairConfirmTimeout 3 [k.now - t]).onPair fun p => { p with holdAt := none }
      else k)

end Sys2Proof.Machine
end

