-- ==== Sys2Proof/Machine/Leg.lean ====
section
/-! DEFINITION. Commands of the leg link (chapter 08). -/
namespace Sys2Proof.Machine

/-- R234: a keep-alive pulse. On a seized port it is the generator's (R238). -/
def Stake.keepAlive (k : Stake) (p : Nat) : Stake :=
  let q := k.mport p
  let soon := if q.seized then k.prt.gen.any fun g => g.port = p && g.at_ < k.now + 60
    else q.recs.any fun r => !reached r.at_.tick (k.ang.tick + 16)
  let l := k.lport p
  let part := match l.pulse with | some x => if x.2.1.fine = 0 then 0 else 1 | none => 0
  if k.link p = 0 || k.now < l.lastPulse + 800 + part || soon || 4 ≤ p then k
  else k.onLeg p fun l => { l with lastPulse := k.now, pulse := some (none, k.nowI, 0) }

/-- KEEP_ALIVE_SEND (R234, R238). -/
def execKeepAliveSend (n p : Nat) (s : State) : Host.Outcome State Fault Refusal := .next (s.onStake n fun k => k.keepAlive p)

/-- R250: the selection-table entry's band for a switched current of one switch. -/
def Stake.profOf (k : Stake) (p : Nat) (table : Nat) (high : Bool) (ie : Int) : Nat :=
  k.selEntry table (4 * k.iBand p (if high then ie else -ie) + k.tBand p)

/-- R250, R251: the NEXT frame due for the first commutation pending on a port, with the instant of its off symbol. -/
def Stake.nextFrame (k : Stake) (p : Nat) : Option (LegFrame × Instant) :=
  let l := k.lport p
  if !k.portReady p || (k.mport p).seized || k.now < l.offEnd then none
  else match (k.mport p).recs.dropWhile fun r => r.sym.on with
    | [] => none
    | r :: t =>
      let high : Bool := r.sym = .hsOff
      let lead := 32 * (80 + 40 + (k.inForce Reg.LEG_CTRL_WL_SKEW : Int))
      if r.ins || r.sym = .softOff || l.nextFor = some r.at_ || r.at_.minus k.nowI < lead then none
      else
        let on := match t with | x :: _ => if x.sym.on then x.ie else r.ie | [] => r.ie
        some (.next l.kOff (k.profOf p (Reg.LEG_PORT_SEL_OFF_LO p) high r.ie) (k.profOf p (Reg.LEG_PORT_SEL_ON_LO p) (!high) on), r.at_)

/-- R244: the priority of a frame, 0 first. -/
def LegFrame.prio : LegFrame → Nat
  | .mode .. => 0
  | .next .. => 1
  | .test .. | .clear => 2
  | .heartbeat .. => 4
  | _ => 3

/-- R244: the frame of lowest number among those waiting, the oldest of equals. -/
def pickFrame : List LegFrame → Option LegFrame
  | [] => none
  | a :: t => match pickFrame t with
    | none => some a
    | some b => if a.prio ≤ b.prio then some a else some b

/-- R241, R246, R248: a frame goes out. -/
def Stake.putFrame (k : Stake) (p : Nat) (f : LegFrame) : Stake :=
  let k := k.onLeg p fun l =>
    { l.tell f with
      rd := if l.word = 0 then l.rd else l.rdAfter (l.commas k.now), lastOut := k.now, word := f.word
      test := l.test.map fun t => if f = .test t.step then { t with since := some k.now } else t }
  match f with
  | .arm =>
    if k.link p ≠ 2 then k
    else
      (((k.setLink p 3).onLeg p fun l =>
        { l with kOff := 0, attempts := 0, miss := 0, expect := [], gateRun := 0, lastIn := k.now, nextFor := none, tempSeen := false }).post .legLinkUp 0 [p])
  | _ => k

/-- R244: word lane out is free: the next frame by priority. -/
def Stake.wordOut (k : Stake) (p : Nat) : Stake :=
  let l := k.lport p
  if k.link p < 2 || k.now < l.lastOut + 80 then k
  else match pickFrame l.out, k.nextFrame p with
    | some f, some (n, x) =>
      if f.prio = 0 then (k.onLeg p fun q => { q with out := q.out.erase f }).putFrame p f
      else (k.onLeg p fun q => { q with nextFor := some x }).putFrame p n
    | some f, none => (k.onLeg p fun q => { q with out := q.out.erase f }).putFrame p f
    | none, some (n, x) => (k.onLeg p fun q => { q with nextFor := some x }).putFrame p n
    | none, none =>
      if k.now < l.lastOut + 1600 then k
      else (k.onLeg p fun q => { q with hb := (q.hb + 1) % 256 }).putFrame p (.heartbeat l.hb)

/-- WORD_LANE_FRAME_SEND (R241, R244, R246, R250, R251). -/
def execWordLaneFrameSend (n p : Nat) (s : State) : Host.Outcome State Fault Refusal := .next (s.onStake n fun k => k.wordOut p)

/-- R239, R240: whether a received frame is good and of a type. -/
def frameOk (f : Reg32) (type : Nat) : Bool := (Fld.mk 0 28 4).of f = type && (Fld.mk 0 0 8).of f = crc8 (f.toNat / 256)

/-- R240: a bad frame is counted and discarded. -/
def Stake.badFrame (k : Stake) (p : Nat) : Stake := if k.link p = 0 || 4 ≤ p then k else k.bump (Reg.LEG_PORT_CRC_CNT p)

/-- R240: a frame no receiver acts on: one with a bad CRC or of a reserved type. -/
def frameBad (f : Reg32) : Bool :=
  let type := (Fld.mk 0 28 4).of f
  type = 0 || 8 ≤ type || (Fld.mk 0 0 8).of f ≠ crc8 (f.toNat / 256)

/-- A frame of a type received on a port (R240, R245): good ones restart the loss timer and are acted on, bad ones are counted. Good
frames of another type come by their own commands (log 172). -/
def Stake.frameIn (k : Stake) (p type : Nat) (f : Reg32) (act : Stake → Stake) : Stake :=
  if k.link p = 0 || 4 ≤ p then k
  else if frameOk f type then act (k.onLeg p fun l => { l with lastIn := k.now })
  else if frameBad f then k.badFrame p else k

/-- R246: a HELLO that may restart a port at once, or waits. -/
def Stake.helloOrWait (k : Stake) (p : Nat) (f : Reg32) : Stake :=
  if k.axisIn [axOff, axSafe] then k.helloStart p f else k.onLeg p fun l => { l with hello := some f }

/-- R245, R246: a HELLO. -/
def Stake.helloIn (k : Stake) (p : Nat) (f : Reg32) : Stake :=
  match k.link p with
  | 1 => k.helloStart p f
  | 3 => (k.legLost p).helloOrWait p f
  | 4 | 5 => k.helloOrWait p f
  | _ => k

/-- LEG_HELLO (R242, R245, R246). -/
def execLegHello (n p : Nat) (f : Reg32) (s : State) : Host.Outcome State Fault Refusal :=
  .next (s.onStake n fun k => k.frameIn p 1 f fun k => k.helloIn p f)

/-- LEG_DEFERRED_HELLO (R246). -/
def execLegDeferredHello (n p : Nat) (s : State) : Host.Outcome State Fault Refusal :=
  .next (s.onStake n fun k => match (k.lport p).hello with
    | none => k
    | some f => if k.axisIn [axOff, axSafe] && (k.link p = 4 || k.link p = 5) then k.helloStart p f else k)

/-- The fixed-dead-time bit of the last MODE frame sent or waiting (R257, R269). -/
def Stake.portFdt (k : Stake) (p : Nat) : Bool :=
  let l := k.lport p
  match (l.out.reverse.find? LegFrame.isMode).getD l.mode with
  | .mode f _ _ _ => f
  | _ => true

/-- R269, R270: the port goes to its spare lane; `cause` is 0 by margin, 1 by command, 2 by the leg head. -/
def Stake.splice (k : Stake) (p cause : Nat) : Stake :=
  let fdt := k.portFdt p
  let k := (k.edgeLane p true).modeTo p fdt
  let k := if cause = 2 then k else k.bump (Reg.LEG_PORT_SPLICE_CNT p)
  k.post .legLaneSplice 0 [p, cause]

/-- R259, R261, R264, R266: the supply and temperature flags of a report, acted on as they rise. `date` is the tick a FAULT frame dates
them at, which closes the snapshot. -/
def Stake.supplyFlags (k : Stake) (p : Nat) (uvHs uvLs ot : Bool) (date : List Nat := []) : Stake :=
  let riseH := uvHs && !k.flag (Reg.LEG_PORT_STATUS_UV_HS p)
  let riseL := uvLs && !k.flag (Reg.LEG_PORT_STATUS_UV_LS p)
  let riseT := ot && !k.flag (Reg.LEG_PORT_STATUS_OT p)
  let k := ((k.putB (Reg.LEG_PORT_STATUS_UV_HS p) uvHs).putB (Reg.LEG_PORT_STATUS_UV_LS p) uvLs).putB (Reg.LEG_PORT_STATUS_OT p) ot
  let boot := k.inForceB (Reg.LEG_PORT_CFG_SUPPLY p)
  let sup := [p, (k.rd (Reg.LEG_PORT_SUPPLY p)).toNat / 65536, (k.rd (Reg.LEG_PORT_SUPPLY p)).toNat % 65536] ++ date
  let k := if riseH && boot then
      let k := ((k.bump (Reg.LEG_PORT_BOOT_UV_CNT p)).post .bootUv 0 (p :: date)).onLeg p fun l => { l with bootUv := true, bootRefresh := true }
      if !k.inForceB (Reg.MOD_PORT_CFG_CUT_EN p) then
        (k.onLeg p fun l => { l with bootRefresh := false }).post .legBootFault (k.inForce (Reg.LEG_PORT_CFG_BOOT_CLASS p)) ([p, 0] ++ date)
      else k.cutPort p 2
    else k
  let k := if riseL || (riseH && !boot) then k.post .legSupplyUv (k.inForce (Reg.LEG_PORT_CFG_UV_CLASS p)) sup else k
  if riseT then k.post .legHeadOt 3 ([p, k.fld (Reg.LEG_PORT_TEMP_HEAD p)] ++ date) else k

/-- R225: the yielding stake confirms once every phase port's leg head reports both gates off. -/
def Stake.confirmOff (k : Stake) (p : Nat) (off : Bool) : Stake :=
  if k.pairSt ≠ 5 || k.pairMode ≠ 1 || k.pair.confirmed || 3 ≤ p then k
  else
    let seen := if off then k.pair.offSeen ||| 2 ^ p else k.pair.offSeen &&& (7 - 2 ^ p)
    let k := k.onPair fun x => { x with offSeen := seen }
    if k.phasePorts.all fun q => seen.testBit q then (k.toPartner 2 []).onPair fun x => { x with confirmed := true } else k

/-- R263: the gates sensed are compared with the switches commanded. -/
def Stake.gateCheck (k : Stake) (p : Nat) (gh gl : Bool) : Stake :=
  let l := k.lport p
  if k.now ≤ l.lastSymAt + 10000 then k
  else
    let q := k.mport p
    let n := if gh != q.hs || gl != q.ls then l.gateRun + 1 else 0
    let k := k.onLeg p fun x => { x with gateRun := min n 3 }
    let b := fun (x : Bool) => if x then 1 else 0
    if n = 2 then k.post .legGateMismatch 3 [p, b q.hs, b q.ls, b gh, b gl] else k

/-- R268: what a STATUS shows of the gates during a self-test's switching steps. -/
def LegTest.gates (t : LegTest) (gh gl : Bool) : LegTest :=
  let g := if t.step = 5 then gl else gh
  { t with
    gateOn := t.gateOn || (if t.step = 7 then g else t.on.isSome && t.off.isNone && g)
    gateOff := t.gateOff || (t.off.isSome && !g) }

/-- R268: what an EVENT frame says of a self-test's switching steps. -/
def LegTest.event (t : LegTest) (sym : Symb) (rej : Bool) : LegTest :=
  if t.step ≤ 4 then t
  else if sym = (if t.step = 5 then .lsOn else .hsOn) && t.on.isNone then { t with on := some rej }
  else if sym = (if t.step = 5 then .lsOff else .hsOff) && t.on.isSome && t.off.isNone then { t with off := some rej }
  else t

/-- R268: whether a switching step of the self-test has passed. -/
def LegTest.passed (t : LegTest) : Bool :=
  if t.step = 7 then t.on = some true && !t.gateOn else t.on = some false && t.off = some false && t.gateOn && t.gateOff

/-- R242, R258, R263, R270: a STATUS frame. -/
def Stake.statusIn (k : Stake) (p : Nat) (f : Reg32) : Stake :=
  let b := fun (i : Nat) => f.getLsbD i
  let kaRise := b 22 && !k.flag (Reg.LEG_PORT_STATUS_KA_LOST p)
  let wlRise := b 18 && !k.flag (Reg.LEG_PORT_STATUS_WL_LOST p)
  let k := (((k.putB (Reg.LEG_PORT_STATUS_G_HS p) (b 27)).putB (Reg.LEG_PORT_STATUS_G_LS p) (b 26)).putB
    (Reg.LEG_PORT_STATUS_LATCH p) (b 23)).putB (Reg.LEG_PORT_STATUS_KA_LOST p) (b 22)
  let k := (k.putB (Reg.LEG_PORT_STATUS_WL_LOST p) (b 18)).putB (Reg.LEG_PORT_STATUS_FDT p) (b 16)
  let il := k.fld Reg.LEG_STATUS_IL_CONF
  let k := k.put Reg.LEG_STATUS_IL_CONF (if b 16 then il &&& (15 - 2 ^ p) else il ||| 2 ^ p)
  let k := if b 23 then k
    else
      let id := k.fld Reg.PLT_PS_STATUS_IDENT
      let k := if p < 3 then k.put Reg.PLT_PS_STATUS_IDENT (id &&& (63 - 3 * 4 ^ p)) else k
      k.onLeg p fun l => { l with desat := (false, false) }
  let k := k.supplyFlags p (b 21) (b 20) (b 19)
  let k := if wlRise then k.post .legWlLost 1 [p] else k
  let k := (k.gateCheck p (b 27) (b 26)).confirmOff p (!b 27 && !b 26)
  let k := k.onLeg p fun l => { l with test := l.test.map fun t => t.gates (b 27) (b 26) }
  let k := if b 17 && !k.flag (Reg.LEG_PORT_STATUS_SPARE p) then k.splice p 2 else k
  if kaRise && k.portReady p then k.legLost p else k

/-- LEG_STATUS (R225, R242, R245, R257, R261, R263, R270). -/
def execLegStatus (n p : Nat) (f : Reg32) (s : State) : Host.Outcome State Fault Refusal :=
  .next (s.onStake n fun k => k.frameIn p 2 f fun k => k.statusIn p f)

/-- Symbol of an EVENT frame's code (R242). -/
def symOf (c : Nat) : Option Symb :=
  match c with
  | 0 => some .hsOn
  | 1 => some .hsOff
  | 2 => some .lsOn
  | 3 => some .lsOff
  | 4 => some .softOff
  | _ => none

/-- R199: the wait filter of a switch takes a report. -/
def waitStep (w r : Nat) : Nat := ((w : Int) + ((r : Int) - w) / 8).toNat

/-- R199, R242, R252, R254, R256, R263, R268: an EVENT frame. -/
def Stake.eventIn (k : Stake) (p : Nat) (f : Reg32) : Stake :=
  match symOf ((Fld.mk 0 25 3).of f) with
  | none => k
  | some sym =>
    let rej := f.getLsbD 22
    let tmo := f.getLsbD 23
    let wait := (Fld.mk 0 8 13).of f
    let l := k.lport p
    let hit := l.expect.any fun x => x.1 = sym
    let k := k.onLeg p fun q =>
      { q with expect := dropFirst (fun x => x.1 = sym) q.expect, miss := if hit then 0 else q.miss
               test := q.test.map fun t => t.event sym rej }
    let k := k.bump (Reg.LEG_PORT_DEF_CNT p) (if f.getLsbD 24 then 1 else 0)
    let k := if rej then
        let k := k.bump (Reg.LEG_PORT_REJ_CNT p)
        if l.test.isSome then k else k.post .legSeqReject 1 [p, (Fld.mk 0 25 3).of f]
      else k
    let k := if tmo then
        (k.bump (Reg.LEG_PORT_IL_TMO_CNT p)).post .legIlTimeout (k.inForce (Reg.LEG_PORT_CFG_IL_CLASS p)) [p, (Fld.mk 0 25 3).of f]
      else k
    if sym.on && !rej && !k.flag Reg.MOD_STATUS_FDT then
      let w := if sym = .hsOn then Reg.MOD_PORT_WAIT_W_HS p else Reg.MOD_PORT_WAIT_W_LS p
      k.put w (waitStep (k.fld w) wait)
    else k

/-- LEG_EVENT (R199, R242, R252, R254, R256, R263, R268). -/
def execLegEvent (n p : Nat) (f : Reg32) (s : State) : Host.Outcome State Fault Refusal :=
  .next (s.onStake n fun k => k.frameIn p 3 f fun k => k.eventIn p f)

/-- R258, R261, R266, R279: a FAULT frame, dated by its age. The first that reports a switch posts and trips; a later one of the same
switch brings its `SHORT` flags. -/
def Stake.faultIn (k : Stake) (p : Nat) (f : Reg32) : Stake :=
  let b := fun (i : Nat) => f.getLsbD i
  let date := k.ang.tick - w48 (80 + 2 * ((Fld.mk 0 8 8).of f : Int))
  let at_ := date.toNat
  let k := k.onLeg p fun l => { l with faultAt := some date }
  let set := fun (q : Stake) (on : Bool) (x : Fld) => if on then q.putB x true else q
  let k := set (set k (b 27) (Reg.LEG_PORT_STATUS_DESAT_HS p)) (b 26) (Reg.LEG_PORT_STATUS_DESAT_LS p)
  let k := set (set k (b 25) (Reg.LEG_PORT_STATUS_SHORT_HS p)) (b 24) (Reg.LEG_PORT_STATUS_SHORT_LS p)
  let k := if b 27 || b 26 then
      let k := k.setIdent p (b 25) (b 24)
      let d := (k.lport p).desat
      if !((b 27 && !d.1) || (b 26 && !d.2)) then (if b 25 || b 24 then k.lateShort else k)
      else
        let k := (k.putB (Reg.LEG_PORT_STATUS_LATCH p) true).onLeg p fun l => { l with desat := (d.1 || b 27, d.2 || b 26) }
        let flags := (f.toNat / 16777216) % 16
        (k.trip 2 (some p)).post .legDesat 4 [p, flags, at_]
    else k
  k.supplyFlags p (b 23 || k.flag (Reg.LEG_PORT_STATUS_UV_HS p)) (b 22 || k.flag (Reg.LEG_PORT_STATUS_UV_LS p))
    (b 21 || k.flag (Reg.LEG_PORT_STATUS_OT p)) [at_]

/-- LEG_FAULT (R203, R258, R261, R264, R266, R279, R297). -/
def execLegFault (n p : Nat) (f : Reg32) (s : State) : Host.Outcome State Fault Refusal :=
  .next (s.onStake n fun k => k.frameIn p 4 f fun k => k.faultIn p f)

/-- R242, R269, R270: a TELEMETRY frame. -/
def Stake.telemetryIn (k : Stake) (p : Nat) (f : Reg32) : Stake :=
  let v := (Fld.mk 0 8 16).of f
  let thr := k.fld (Reg.LEG_PORT_LANE_EMARGIN_THR p)
  match (Fld.mk 0 24 4).of f with
  | 0 => k.put (Reg.LEG_PORT_SUPPLY_HS p) v
  | 1 => k.put (Reg.LEG_PORT_SUPPLY_LS p) v
  | 2 => (k.put (Reg.LEG_PORT_TEMP_MODULE p) v).onLeg p fun l => { l with tempSeen := true, tempEver := true }
  | 3 => k.put (Reg.LEG_PORT_TEMP_HEAD p) v
  | 4 =>
    let k := k.put (Reg.LEG_PORT_MARGIN_MAIN_M p) v
    let n := if v % 256 < thr then min 2 ((k.lport p).marginRun + 1) else 0
    let k := k.onLeg p fun l => { l with marginRun := n }
    if 2 ≤ n && k.flag (Reg.LEG_PORT_LANE_SPLICE_EN p) && !k.flag (Reg.LEG_PORT_STATUS_SPARE p) && thr ≤ k.fld (Reg.LEG_PORT_MARGIN_SPARE_M p) then
      k.splice p 0
    else k
  | 5 =>
    let k := k.put (Reg.LEG_PORT_MARGIN_SPARE_M p) v
    if k.flag (Reg.LEG_PORT_STATUS_SPARE p) && v % 256 < thr && !(k.lport p).lowPosted then
      (k.post .legLaneLow 1 [p, k.fld (Reg.LEG_PORT_MARGIN_MAIN_M p), v % 256]).onLeg p fun l => { l with lowPosted := true }
    else k
  | 6 => k.put (Reg.LEG_PORT_MARGIN_HEAD_ERR p) v
  | _ => k

/-- LEG_TELEMETRY (R242, R269, R270). -/
def execLegTelemetry (n p : Nat) (f : Reg32) (s : State) : Host.Outcome State Fault Refusal :=
  .next (s.onStake n fun k => k.frameIn p 5 f fun k => k.telemetryIn p f)

/-- R246, R247, R253: a SUM frame. It answers the oldest SUM_REQ whose sum it equals, and those before it; else the oldest. ARM waits
until the last SUM_REQ is answered. -/
def Stake.sumIn (k : Stake) (p : Nat) (f : Reg32) : Stake :=
  let got := (Fld.mk 0 8 16).of f
  let l := k.lport p
  let own := if l.sums.contains got then got else k.cfgSum p
  let rest := if l.sums.contains got then (l.sums.dropWhile fun x => x ≠ got).tail else l.sums.tail
  let k := k.onLeg p fun q => { q with sums := rest }
  match k.link p with
  | 2 =>
    if got = own then (if rest.isEmpty && !l.out.contains .sumReq then k.sendFrames p [.arm] else k)
    else if 3 ≤ l.attempts then k.legFail p 4 [got, own]
    else (k.onLeg p fun q => { q with attempts := q.attempts + 1 }).configure p true
  | 3 =>
    if got = own then k.onLeg p fun q => { q with attempts := 0 }
    else if 2 ≤ l.attempts then k.legFail p 4 [got, own]
    else (k.onLeg p fun q => { q with attempts := q.attempts + 1 }).configure p (k.portFdt p)
  | _ => k

/-- LEG_SUM (R246, R247, R253). -/
def execLegSum (n p : Nat) (f : Reg32) (s : State) : Host.Outcome State Fault Refusal :=
  .next (s.onStake n fun k => k.frameIn p 6 f fun k => k.sumIn p f)

/-- R268: the device's sending of a self-test step. -/
def Stake.testStep (k : Stake) (p step : Nat) : Stake :=
  let k := k.put (Reg.LEG_PORT_TEST_STEP p) step
  let arm := fun (q : Stake) (since : Option Nat) => q.onLeg p fun l => { l with test := some { step := step, since := since } }
  let ins := fun (q : Stake) (y : Symb) (d : Nat) => q.hand p y (q.nowI.plus (32 * (d : Int))) true
  if step ≤ 4 then arm (k.sendFrames p [.test step]) none
  else if step = 5 then arm (ins (ins k .lsOn 0) .lsOff 800) (some (k.now + 800))
  else if step = 6 then
    let pre := k.inForceB (Reg.LEG_PORT_CFG_SUPPLY p)
    let d := if pre then 8 * k.inForce (Reg.LEG_PORT_BOOT_T_REFRESH p) else 0
    let k := if pre then ((ins (ins k .lsOn 0) .lsOff d).onLeg p fun l => { l with cold := false, offSince := some k.now }).countRefresh p else k
    let d := if pre then d + 48 else 0
    arm (ins (ins k .hsOn d) .hsOff (d + 800)) (some (k.now + d + 800))
  else arm (ins (ins (ins k .lsOn 0) .hsOn 800) .lsOff 1600) (some (k.now + 1600))

/-- R268: a step of the self-test is judged. -/
def Stake.testJudge (k : Stake) (p : Nat) (t : LegTest) (ok : Bool) : Stake :=
  let k := if t.step ≤ 4 then k.sendFrames p [.test 0] else k
  let k := if ok then k.put (Reg.LEG_PORT_TEST_PASS p) (k.fld (Reg.LEG_PORT_TEST_PASS p) ||| 2 ^ (t.step - 1)) else k
  if ok && t.step < 7 then k.testStep p (t.step + 1)
  else
    let k := (k.putB (Reg.LEG_PORT_STATUS_TEST_FAIL p) (!ok)).onLeg p fun l => { l with test := none }
    k.post .legSelftest (if ok then 0 else 1) [p, t.step, k.fld (Reg.LEG_PORT_TEST_PASS p)]

/-- R268: a TEST_RESULT frame. -/
def Stake.testResultIn (k : Stake) (p : Nat) (f : Reg32) : Stake :=
  match (k.lport p).test with
  | none => k
  | some t =>
    if t.step ≤ 4 && t.since.isSome && (Fld.mk 0 24 4).of f = t.step then k.testJudge p t (f.getLsbD 23) else k

/-- LEG_TEST_RESULT (R268). -/
def execLegTestResult (n p : Nat) (f : Reg32) (s : State) : Host.Outcome State Fault Refusal :=
  .next (s.onStake n fun k => k.frameIn p 7 f fun k => k.testResultIn p f)

/-- LEG_BAD_FRAME (R240). -/
def execLegBadFrame (n p : Nat) (s : State) : Host.Outcome State Fault Refusal := .next (s.onStake n fun k => k.badFrame p)

/-- WORD_LANE_TIMEOUT (R245): 20 µs without a good frame. -/
def execWordLaneTimeout (n p : Nat) (s : State) : Host.Outcome State Fault Refusal :=
  .next (s.onStake n fun k =>
    if (k.link p = 2 || k.link p = 3) && (k.lport p).lastIn + 8000 ≤ k.now then k.legLost p else k)

/-- LEG_HELLO_TIMEOUT (R246). -/
def execLegHelloTimeout (n p : Nat) (s : State) : Host.Outcome State Fault Refusal :=
  .next (s.onStake n fun k =>
    if k.link p = 1 && (k.lport p).started + 400000 * k.fld Reg.LEG_CTRL_T_LINK ≤ k.now then k.legFail p 1 else k)

/-- R263: the EVENT of the oldest symbol has not come within 4 µs. -/
def Stake.missEvent (k : Stake) (p : Nat) : Stake :=
  match (k.lport p).expect with
  | [] => k
  | (_, t) :: rest =>
    if !k.portReady p || k.now < t + 1600 then k
    else
      let n := (k.lport p).miss + 1
      let k := (k.bump (Reg.LEG_PORT_EVT_MISS_CNT p)).onLeg p fun l => { l with expect := rest, miss := n }
      if 3 ≤ n then k.legLost p else k

/-- EVENT_MISS (R245, R263). -/
def execEventMiss (n p : Nat) (s : State) : Host.Outcome State Fault Refusal := .next (s.onStake n fun k => k.missEvent p)

/-- R246: a port stops: its lanes go to their reset state. -/
def Stake.legStop (k : Stake) (p : Nat) : Stake :=
  let k := (k.setLink p 0).onPort p fun q => { q.discard with hs := false, ls := false, known := false, skip := none }
  let k := (k.putB (Reg.LEG_PORT_STATUS_C_HS p) false).putB (Reg.LEG_PORT_STATUS_C_LS p) false
  k.onLeg p fun q => { mainBad := q.mainBad, noDriver := q.noDriver, refEnd := q.refEnd, tempEver := q.tempEver, cold := q.cold, offSince := some (q.offSince.getD k.now) }

/-- R264: the staged settings of a bootstrap-fed port agree with the modulation unit's. -/
def Stake.bootOk (k : Stake) (p : Nat) : Bool :=
  !k.flag (Reg.LEG_PORT_CFG_SUPPLY p) ||
  (k.inForceB (Reg.MOD_PORT_CFG_CUT_EN p) && k.inForce (Reg.MOD_PORT_CFG_CUT_MODE p) = 1 &&
   (p ≠ 3 || k.inForceB (Reg.MOD_PORT_CFG_AUX_SW 3)))

/-- R271: `LEG_CTRL.APPLY`. -/
def Stake.legApply (k : Stake) : Stake :=
  if !k.axisIn [axOff, axSafe, axTest] || !([0, 1, 2, 3].all k.bootOk) then k.legRefuse
  else
    let one := fun (q : Stake) (p : Nat) =>
      let old := q.rdAct (Reg.LEG_PORT_CFG p)
      let oldDef := q.rdAct (Reg.LEG_PORT_DEF p)
      let was := q.portPresent p
      let q := (q.applyRange (0x60100 + 0x80 * p) (0x60108 + 0x80 * p)).applyRange (0x60128 + 0x80 * p) (0x6012C + 0x80 * p)
      let now := q.portPresent p
      let pr := q.fld Reg.LEG_STATUS_PRESENT
      let q := q.put Reg.LEG_STATUS_PRESENT (if now then pr ||| 2 ^ p else pr &&& (15 - 2 ^ p))
      let q := if q.flag Reg.LEG_CTRL_EN && now && !was then q.legStart p else if was && !now then q.legStop p else q
      if q.link p ≠ 2 && !q.portReady p then q
      else
        let m := (old ^^^ q.rdAct (Reg.LEG_PORT_CFG p)) &&& 0x1FFFF ≠ 0
        let d := oldDef ≠ q.rdAct (Reg.LEG_PORT_DEF p)
        let q := if m then q.modeTo p (q.portFdt p) else q
        let q := if d then q.sendFrames p [q.defFrame p] else q
        if m || d then q.sendFrames p [.sumReq] else q
    let sk := Reg.LEG_CTRL_WL_SKEW
    let k := k.wrAct Reg.LEG_CTRL (sk.put (k.rdAct Reg.LEG_CTRL) (k.fld sk))
    [0, 1, 2, 3].foldl one k

/-- A write of `LEG_CTRL` (R246, R271): one that clears `EN` outside OFF and SAFE is refused whole. -/
def Stake.wLegCtrl (k : Stake) (w : Reg32) : Stake :=
  let was := k.flag Reg.LEG_CTRL_EN
  let now := w.getLsbD 31
  if was && !now && !k.axisIn [axOff, axSafe] then k.legRefuse
  else
    let k := k.store Reg.LEG_CTRL w
    let k := if was && !now then [0, 1, 2, 3].foldl Stake.legStop k
      else if !was && now then [0, 1, 2, 3].foldl (fun q p => if q.portPresent p then q.legStart p else q) k
      else k
    if w.getLsbD 0 then k.legApply else k

/-- LEG_ENABLE (R246): a write of `LEG_CTRL` with `EN`. -/
def execLegEnable (n : Nat) (src : Src) (w : Reg32) (s : State) : Host.Outcome State Fault Refusal :=
  .next (s.stakeWrite src n Reg.LEG_CTRL w fun k => if w.getLsbD 31 then k.wLegCtrl w else k)

/-- LEG_DISABLE (R246): a write of `LEG_CTRL` that clears `EN`. -/
def execLegDisable (n : Nat) (src : Src) (w : Reg32) (s : State) : Host.Outcome State Fault Refusal :=
  .next (s.stakeWrite src n Reg.LEG_CTRL w fun k => if w.getLsbD 31 then k else k.wLegCtrl w)

/-- LEG_APPLY (R264, R271): a write of `LEG_CTRL` with `APPLY`. -/
def execLegApply (n : Nat) (src : Src) (w : Reg32) (s : State) : Host.Outcome State Fault Refusal :=
  .next (s.stakeWrite src n Reg.LEG_CTRL w fun k => if w.getLsbD 0 then k.wLegCtrl w else k)

/-- A write of `LEG_PORTp_CMD` (R246, R253, R262, R268, R269): its commands in the order of their bits. -/
def Stake.wLegCmd (k : Stake) (p : Nat) (w : Reg32) : Stake :=
  let quiet := k.axisIn [axOff, axSafe]
  let k := if !w.getLsbD 0 then k
    else if !quiet then k.legRefuse [p]
    else if k.flag Reg.LEG_CTRL_EN && k.portPresent p then k.legStart p else k
  let k := if !w.getLsbD 1 then k
    else if !quiet then k.legRefuse [p]
    else if 2 ≤ k.link p then k.sendFrames p [.clear] else k
  let k := if w.getLsbD 2 && 2 ≤ k.link p then k.sendFrames p [.sumReq] else k
  let k := if !w.getLsbD 3 then k
    else if !k.portReady p || k.axis ≠ axTest then k.legRefuse [p]
    else ((k.modeTo p true).put (Reg.LEG_PORT_TEST_PASS p) 0).testStep p 1
  if w.getLsbD 4 && 2 ≤ k.link p && !k.flag (Reg.LEG_PORT_STATUS_SPARE p) then k.splice p 1 else k

/-- One command of `LEG_PORTp_CMD`, by its bit. -/
def State.legCmd (s : State) (src : Src) (n p : Nat) (w : Reg32) (bit : Nat) : State :=
  if 4 ≤ p then s else s.stakeWrite src n (Reg.LEG_PORT_CMD p) w fun k => if w.getLsbD bit then k.wLegCmd p w else k

/-- LEG_RESTART (R246). -/
def execLegRestart (n : Nat) (src : Src) (p : Nat) (w : Reg32) (s : State) : Host.Outcome State Fault Refusal := .next (s.legCmd src n p w 0)

/-- LEG_CLEAR (R262). -/
def execLegClear (n : Nat) (src : Src) (p : Nat) (w : Reg32) (s : State) : Host.Outcome State Fault Refusal := .next (s.legCmd src n p w 1)

/-- LEG_SELFTEST (R268). -/
def execLegSelftest (n : Nat) (src : Src) (p : Nat) (w : Reg32) (s : State) : Host.Outcome State Fault Refusal := .next (s.legCmd src n p w 3)

/-- SELFTEST_STEP_TIMEOUT (R268): 20 µs after a step's last frame or symbol. -/
def execSelftestStepTimeout (n p : Nat) (s : State) : Host.Outcome State Fault Refusal :=
  .next (s.onStake n fun k => match (k.lport p).test with
    | none => k
    | some t => match t.since with
      | none => k
      | some x => if k.now < x + 8000 then k else k.testJudge p t (4 < t.step && t.passed))

/-- LEG_SUM_REQUEST (R253). -/
def execLegSumRequest (n : Nat) (src : Src) (p : Nat) (w : Reg32) (s : State) : Host.Outcome State Fault Refusal := .next (s.legCmd src n p w 2)

/-- LEG_SPLICE (R269). -/
def execLegSplice (n : Nat) (src : Src) (p : Nat) (w : Reg32) (s : State) : Host.Outcome State Fault Refusal := .next (s.legCmd src n p w 4)

/-- R253: whether a profile is in use: the soft turn-off profile, a default, or an entry of a selection table in force. -/
def Stake.profileUsed (k : Stake) (p q : Nat) : Bool :=
  q = 15 || q = k.inForce (Reg.LEG_PORT_DEF_DEF_ON p) || q = k.inForce (Reg.LEG_PORT_DEF_DEF_OFF p) ||
  (List.range 16).any fun e => q = k.selEntry (Reg.LEG_PORT_SEL_ON_LO p) e || q = k.selEntry (Reg.LEG_PORT_SEL_OFF_LO p) e

/-- R253: a step of a profile is written. A SUM_REQ that still waits goes behind the step. A step written while the port is being
configured follows its configuration (R246). -/
def Stake.wProfile (k : Stake) (p q st : Nat) (w : Reg32) : Stake :=
  let off := 0xC0000 + 0x100 * p + 0x10 * q + 4 * st
  let k' := k.wr off (w &&& 0xFFFF)
  if k.link p ≠ 2 && !k.portReady p then k'
  else if k.portReady p && !k.axisIn [axOff, axSafe] && k.profileUsed p q then k.legRefuse [p]
  else (k'.onLeg p fun l => { l with out := l.out.filter fun f => f ≠ .sumReq }).sendFrames p
    [.psel q st, .pstep ((Fld.mk 0 10 6).of w) ((Fld.mk 0 0 10).of w), .sumReq]

/-- LEG_PROFILE_WRITE (R253). -/
def execLegProfileWrite (n : Nat) (src : Src) (p q st : Nat) (w : Reg32) (s : State) : Host.Outcome State Fault Refusal :=
  .next (if 4 ≤ p ∨ 16 ≤ q ∨ 4 ≤ st then s
    else s.stakeWrite src n (0xC0000 + 0x100 * p + 0x10 * q + 4 * st) w fun k => k.wProfile p q st w)

/-- R265: a refresh of the port is due at a time and none is under way: its low side is not on for as long as a refresh. -/
def Stake.refreshNeeded (k : Stake) (p t : Nat) : Bool :=
  let l := k.lport p
  k.refreshOpen p t && !(k.mport p).seized && (k.mport p).cut.isNone &&
  !((k.mport p).recs.any fun r => r.ins) &&
  (match l.lsSince with | some x => 32 * k.now < x + 32 * k.inForce (Reg.LEG_PORT_BOOT_T_REFRESH p) | none => true)

/-- A switch's commanded state after a list of records. -/
def sideAfter (high : Bool) (now : Bool) (l : List Record) : Bool :=
  l.foldl (fun b r => match r.sym with
    | .hsOn => if high then true else b
    | .hsOff => if high then false else b
    | .lsOn => if high then b else true
    | .lsOff => if high then b else false
    | .softOff => false) now

/-- R265: the four symbols of a refresh take the place of the records in a window; `back` brings a low leg back too. Records that are
computed later and fall into the window only change the state returned to. -/
def Stake.insertRefresh (k : Stake) (p : Nat) (on off : Instant) (back : Bool) : Stake :=
  let d : Int := 32 * k.deadTime p
  let ret := (spaced (some off) (off.plus d)).1
  let a := on.plus (-d - 48 * 32)
  let b := ret.plus (48 * 32)
  let q := k.mport p
  let before := q.recs.filter fun r => laterInstant a r.at_
  let inside := q.recs.filter fun r => !laterInstant a r.at_ && !laterInstant r.at_ b
  let after := q.recs.filter fun r => laterInstant r.at_ b
  let hs0 := sideAfter true q.hs before
  let hs1 := sideAfter true hs0 inside
  let ls1 := sideAfter false (sideAfter false q.ls before) inside
  let r := fun (y : Symb) (x : Instant) => k.recAt p y x true
  let tail := if hs1 then [r .hsOn ret] else if back && ls1 then [r .lsOn ret] else []
  let mid := (if hs0 then [r .hsOff (on.plus (-d))] else []) ++ [r .lsOn on, r .lsOff off] ++ tail
  let first := match before.getLast? with | some x => some x.at_ | none => q.lastSym
  let mid := match first with | some x => k.holdBehind p x mid | none => mid
  let last := match mid.getLast? with | some x => x.at_ | none => off
  let k := k.onPort p fun q => { q with recs := before ++ mid ++ k.holdBehind p last after, skip := some (a, b, ret, back) }
  k.countRefresh p

/-- R265: the valley the carrier meets next, as ticks from now. -/
def Stake.valleyIn (k : Stake) : Int :=
  let v := if k.modu.nextValley then k.modu.nextB else k.modu.nextB + w48 k.modu.half
  (v - k.ang.tick).toInt

/-- R265: the ticks before a valley at which the records about it are replaced at the latest. -/
def Stake.refreshLead (k : Stake) (p : Nat) : Int := (k.refreshLen p / 2 + k.deadTime p + 48 : Nat)

/-- R265: a refresh falls due; in a carrier slot it is inserted about the next valley, where that lies in the due window and is not too
late. A valley at the very start of the window has its first symbol before it, so that the insertion may come before the window opens. -/
def Stake.refreshDue (k : Stake) (p : Nat) : Stake :=
  let due := k.refreshNeeded p k.now
  let lead := k.valleyIn
  let slot := k.carrierMode && k.modu.run && k.refreshLead p ≤ lead && k.refreshNeeded p (k.now + lead.toNat) &&
    k.now + lead ≤ (k.refreshLatest p : Int)
  let k := if due then k.putB (Reg.LEG_PORT_STATUS_REFRESH_DUE p) true else k
  if !slot then k
  else
    let vi : Instant := ⟨k.ang.tick + w48 lead, 0⟩
    let half : Int := 16 * (k.refreshLen p : Int)
    k.insertRefresh p (vi.plus (-half)) (vi.plus half) false

/-- R265: in the tick in which the records about the next valley have to be replaced, 32 ticks before the first symbol may stand, a refresh
that the valley's due window asks for is inserted. -/
def Stake.tickRefresh (k : Stake) : Stake :=
  [0, 1, 2, 3].foldl (fun q p =>
    if q.inForceB (Reg.LEG_PORT_CFG_SUPPLY p) && q.modu.run && q.valleyIn = q.refreshLead p + 32 then q.refreshDue p else q) k

/-- REFRESH_DUE (R265). -/
def execRefreshDue (n p : Nat) (s : State) : Host.Outcome State Fault Refusal := .next (s.onStake n fun k => k.refreshDue p)

/-- REFRESH_LATEST_START (R265): no refresh by t_L: the symbols are sent from now. -/
def execRefreshLatestStart (n p : Nat) (s : State) : Host.Outcome State Fault Refusal :=
  .next (s.onStake n fun k =>
    if !k.refreshNeeded p k.now || k.now < k.refreshLatest p then k
    else
      let on := k.nowI.plus (32 * k.deadTime p)
      (k.putB (Reg.LEG_PORT_STATUS_REFRESH_DUE p) true).insertRefresh p on (on.plus (32 * k.refreshLen p)) true)

end Sys2Proof.Machine
end

