-- ==== Sys2Proof/Machine/PrtCmd.lean ====
section
/-! DEFINITION. Protection: taking a trip, the short-circuit episode, the clear of the active set and the refusals of the axis
commands (R279 to R309). -/
namespace Sys2Proof.Machine

/-- An episode whose resolver has not run yet (R295 to R297). -/
def Stake.openEpisode (k : Stake) : Bool := match k.prt.episode with | some e => !e.decided | none => false

/-- Changes the episode. -/
def Stake.onEpisode (k : Stake) (f : Episode → Episode) : Stake := k.onPrt fun p => { p with episode := p.episode.map f }

/-- R312: `LEG_FAULT` gains a port. -/
def Stake.legFault (k : Stake) (p : Nat) : Stake := k.put Reg.PLT_PS_STATUS_LEG_FAULT (k.fld Reg.PLT_PS_STATUS_LEG_FAULT ||| 2 ^ p)

/-- The axis is in SAFE, without the symbols of a sub-state; NOT_READY stays (R288). -/
def Stake.toSafe (k : Stake) (sub : Nat) : Stake := if k.axis = axNotReady then k else (k.endDrive.setAxis axSafe sub).syncActive

/-- R295: a short-circuit episode begins: SOFT_OFF to the port, the others held, the window open. Turn-on symbols that still wait are
withdrawn. -/
def Stake.startEpisode (k : Stake) (cause p : Nat) : Stake :=
  let e : Episode := { start := k.now, cause := cause, faulted := [p], soft := [(p, max k.now (k.genFrom p))] }
  let k := k.onPrt fun r =>
    { r with
      episode := some e, releasing := false, ascDue := none
      gen := r.gen.filter fun g => g.port ≠ p && !(g.port < 3 && g.sym.on) }
  let k := (k.phasePorts.foldl Stake.takePort k).takeAux
  let k := ((k.put Reg.PLT_PS_STATUS_LEG_FAULT 0).legFault p).putB Reg.PLT_PS_STATUS_WINDOW true
  let k := ((k.putB Reg.PLT_PS_STATUS_SEIZED true).put Reg.PLT_PS_STATUS_CAUSE cause).put Reg.PLT_PS_STATUS_SUBSTATE 1
  let l := k.offSyms 1 p true
  let k := (k.generate l).onPrt fun r => { r with lastOff := lastOf k.now l }
  k.toSafe 1

/-- R295, R296: a trip of cause 1 or 2 on a phase port. -/
def Stake.shortTrip (k : Stake) (cause p : Nat) : Stake :=
  if !k.openEpisode then k.startEpisode cause p
  else
    let inWindow : Bool := match k.prt.episode with | some e => e.closed.isNone | none => false
    let k := k.legFault p
    if inWindow then k.onEpisode fun e => { e with faulted := addNew e.faulted p } else k

/-- R279, R285: the resolver's inputs for a cause code. -/
def Stake.causeWhy (k : Stake) (cause : Nat) : Why :=
  match cause with
  | 1 | 2 => { short := true }
  | 3 => { udcAbs := true }
  | 5 => { fixed := k.inForce Reg.PLT_PS_SRC_FI_STATE }
  | 6 => { fixed := k.inForce Reg.PLT_PS_SRC_SF_STATE }
  | 7 => { fixed := k.inForce Reg.PLT_PS_SRC_CLK_STATE }
  | 8 => { die := true }
  | _ => {}

/-- R286: a new F3 or F4 cause while an episode is open. R295 holds the ports until the window closes; from there to the decision the
resolver runs for it with the episode's cause standing, so that one of its items 1 to 3 matches (log 194). -/
def Stake.episodeCause (k : Stake) (cause : Nat) (die : Bool) (band : Option Nat) : Stake :=
  let k := if die then k.onEpisode fun e => { e with die := true } else k
  match k.prt.episode with
  | some e => if e.closed.isSome then k.seizeSafe (k.resolve { short := true, die := e.die } (band.getD k.latchBand)) cause [] band else k
  | none => k

/-- The sequencer takes a trip (R278 to R280, R285, R286, R295). An F4 reaction also ends a CATCH (R163) and breaks a pairing (R222
item 1). -/
def Stake.takeTrip (k : Stake) (cause : Nat) (port : Option Nat) : Stake :=
  let k := match port with
    | some p =>
      if p < 3 && k.portPresent p then k.shortTrip cause p
      else if k.openEpisode then (if p = 3 then k.takeAux true else k).episodeCause cause (cause = 8) none
      else
        let k := if p = 3 then k.takeAux true else k
        k.localBreak.seizeSafe (k.localBreak.resolve (k.causeWhy cause) k.latchBand) cause
    | none =>
      if k.openEpisode then k.episodeCause cause (cause = 8) none
      else let k := k.localBreak; k.seizeSafe (k.resolve (k.causeWhy cause) k.latchBand) cause
  k.localBreak.catchAbort

/-- Puts a port into a list of ports in descending order of their values, behind its equals. -/
def putDesc (rf : List Nat) : List Nat → Nat → List Nat
  | [], p => [p]
  | q :: t, p => if nth 0 rf q < nth 0 rf p then p :: q :: t else q :: putDesc rf t p

/-- R296: the phase ports not yet turned off, in the order in which they are. -/
def Stake.closeOrder (k : Stake) (e : Episode) (rf : List Nat) : List Nat :=
  let left := k.phasePorts.filter fun p => !(e.soft.any fun x => x.1 = p)
  let desc := fun (l : List Nat) => l.foldl (putDesc rf) []
  desc (left.filter e.faulted.contains) ++ desc (left.filter fun p => !e.faulted.contains p)

/-- R296: the window closes. `rf` is the latched |r_f| of each phase port. -/
def Stake.closeWindow (k : Stake) (e : Episode) (rf : List Nat) : Stake :=
  let order := k.closeOrder e rf
  let k := (k.putB Reg.PLT_PS_STATUS_WINDOW false).onEpisode fun x => { x with rf := rf, closed := some k.now }
  if 2 ≤ e.faulted.length then
    let st := 40 * k.inForce Reg.PLT_PS_TIMING_T_STAGGER
    let go := order.foldl (fun (acc : List (Nat × Nat) × Nat) p =>
      let t := max (max k.now (k.genFrom p)) (acc.2 + st)
      (acc.1 ++ [(p, t)], t)) ([], (e.soft.getLast?.map (·.2)).getD k.now)
    let k := k.generate (go.1.map fun x => ⟨x.1, .softOff, x.2⟩)
    let k := k.onPrt fun p => { p with lastOff := go.2 }
    (k.onEpisode fun x => { x with soft := x.soft ++ go.1 }).post .bridgeShort 4 (k.fld Reg.PLT_PS_STATUS_LEG_FAULT :: rf)
  else
    let l := order.flatMap fun p => k.offSyms 1 p false
    (k.generate l).onPrt fun p => { p with lastOff := lastOf k.now l }

/-- R297: the resolver of an episode runs; the seizure is reported here. -/
def Stake.decide (k : Stake) (e : Episode) : Stake :=
  let k := k.onEpisode fun x => { x with decided := true }
  let sub := k.resolve { short := true, die := e.die } k.latchBand
  let same : Bool := k.fld Reg.PLT_PS_STATUS_SUBSTATE = sub
  let k := k.seizeSafe sub e.cause
  if same then k.postSafe else k

/-- The episode is over: the seizure it made is being released (R282, R307, R308). -/
def Stake.endEpisode (k : Stake) : Stake := (k.put Reg.PLT_PS_STATUS_LEG_FAULT 0).onPrt fun p => { p with episode := none }

/-- Some present leg port satisfies a test. -/
def Stake.anyPort (k : Stake) (f : Nat → Bool) : Bool := [0, 1, 2, 3].any fun p => k.portPresent p && f p

/-- What holds outside the stake when faults are cleared: a configuration is in force, the `FAULTIN` ball is asserted (R279). -/
structure Held where
  cfg : Bool
  faultin : Bool
deriving DecidableEq, Repr

/-- R307: the cause of a fault still holds: the flag, verdict or condition of its source, which `v0`, the first snapshot value, names
where each channel, port or sensor posts for itself. A source whose condition is an event that is past has none that holds. -/
def Stake.persists (k : Stake) (h : Held) (e : Ev) (v0 : Nat) : Bool :=
  let port := v0 < 4 && k.portPresent v0
  let driving := k.axisIn [axRun, axDerate, axCatch]
  let verdict := (nth (0, 0, false) k.sns.verdicts 0).2.2
  match e with
  | .walTickSkew => k.flag Reg.WAL_STATUS_TICK_SKEW
  | .angExtrapLimit => k.flag (Reg.ANG_CLK_CTRL_EN v0) && !(k.clock v0).valid
  | .snsFastTrip => k.flag (Reg.SNS_CH_STATUS_FAST_HI v0) || k.flag (Reg.SNS_CH_STATUS_FAST_LO v0)
  | .snsStuck => k.flag (Reg.SNS_CH_STATUS_STUCK v0)
  | .snsSetAFault | .snsSetBFault | .snsAbMismatch | .snsUdcMismatch => verdict
  | .posResFault => k.flag (Reg.POS_SRC_STATUS_FAULTED 0)
  | .posEncFault => k.flag (Reg.POS_SRC_STATUS_FAULTED 1)
  | .posHallFault => k.flag (Reg.POS_SRC_STATUS_FAULTED 2)
  | .posSspFault => k.flag (Reg.POS_SRC_STATUS_FAULTED 3)
  | .fldUdcLoss => k.udcSetBad (k.inForce Reg.FLD_MAP_UDC_A) && k.udcSetBad (k.inForce Reg.FLD_MAP_UDC_B)
  | .motorMismatch => k.flag Reg.FLD_STATUS_MM_ACTIVE
  | .fldFbInputLoss => k.flag Reg.FLD_FB_STATUS_INPUT_LOSS
  | .modDlFault => k.flag Reg.MOD_DL_STATUS_FAULT
  | .pairBreak => k.flag Reg.FLD_PAIR_STATUS_BROKEN
  | .pairConfirmTimeout => k.pairSt = 3
  | .legCfgMismatch => port && k.link v0 = 4 && k.fld (Reg.LEG_PORT_STATUS_CAUSE v0) = 4
  | .legLinkLoss => port && k.link v0 = 5
  | .legDesat => port && k.flag (Reg.LEG_PORT_STATUS_LATCH v0) &&
      (k.flag (Reg.LEG_PORT_STATUS_DESAT_HS v0) || k.flag (Reg.LEG_PORT_STATUS_DESAT_LS v0))
  | .legSupplyUv | .legBootFault => port && (k.flag (Reg.LEG_PORT_STATUS_UV_HS v0) || k.flag (Reg.LEG_PORT_STATUS_UV_LS v0))
  | .legHeadOt => port && k.flag (Reg.LEG_PORT_STATUS_OT v0)
  | .legGateMismatch => port && 2 ≤ (k.lport v0).gateRun
  | .legWlLost => port && k.flag (Reg.LEG_PORT_STATUS_WL_LOST v0)
  | .legLaneLow => port && (k.lport v0).lowPosted
  | .legSelftest => port && k.flag (Reg.LEG_PORT_STATUS_TEST_FAIL v0)
  | .psPlaitSilent => k.flag Reg.PLT_PS_STATUS_STALE
  | .udcAscTrip => k.prt.ascLatched
  | .udcAbsTrip => k.flag (Reg.SNS_CH_STATUS_FAST_HI (k.inForce Reg.FLD_MAP_UDC_A)) || k.flag (Reg.SNS_CH_STATUS_FAST_HI (k.inForce Reg.FLD_MAP_UDC_B))
  | .torqueMon => k.inForce Reg.PLT_TMON_CTRL_MON_N ≤ k.prt.monFails
  | .tmonUnavail => k.inForce Reg.PLT_TMON_CTRL_MON_N ≤ k.prt.monUnavail
  | .tmonWinStale => k.prt.winStale
  | .tmonTable => k.prt.tableBad
  | .hostStale => driving && 1 ≤ k.fld Reg.PLT_AXIS_STATE_FRESH
  | .hostLoss => driving && k.fld Reg.PLT_AXIS_STATE_FRESH = 3
  | .dischargeIncomplete => k.prt.discharge.isSome
  | .pltStakeFault => k.vote.halted
  | .faultinAssert => h.faultin
  | .supVana => let v := k.fld Reg.SUP_RAILS_VANA_MV; v ≠ 0 && (v < 1104 || 1296 < v)
  | .cfgSplit => !h.cfg
  | .supOvervolt => k.flag Reg.SUP_STATUS_OV
  | .clkLost => true
  | .clkRefLoss => !k.flag Reg.CLK_STATUS_REF_OK
  | .clkMclkFault => (k.fld Reg.CLK_STATUS_MCLK_FAULT).testBit v0
  | .thmShutdown => k.flag (Reg.THM_SENS_CFG_EN v0) && k.fld (Reg.THM_SENS_READ_LEVEL v0) = 3
  | .thmDie175 => k.flag Reg.THM_STATUS_DIE175
  | _ => false

/-- R306: the second case in which a CLEAR removes `MOTOR_MISMATCH`: in OFF with a class below F3, or in SAFE with the band LOW. -/
def Stake.mmStopped (k : Stake) : Bool :=
  (k.axis = axOff && !(k.prt.active.any fun a => a.post.ev = .motorMismatch && 3 ≤ a.cls)) || (k.axis = axSafe && k.prt.band = 0)

/-- R307: a CLEAR of the active set; F3 and F4 faults only in SAFE. R306: a stopped motor's mismatch goes with its timer. -/
def Stake.clearFaults (k : Stake) (h : Held) : Stake :=
  let k := k.refreshBand
  let mm := k.hasFault .motorMismatch && k.mmStopped
  let k := if mm then
      (k.putB Reg.FLD_STATUS_MM_ACTIVE false).onFe fun f => { f with mmOut := none, mmIn := none }
    else k
  let stays := fun (a : ActiveFault) => (3 ≤ a.cls && k.axis ≠ axSafe) || k.persists h a.post.ev (nth 0 a.post.vals 0)
  ((k.onPrt fun p => { p with active := p.active.filter stays }).syncActive).updDerate

/-- R262, R307: CLEAR frames to every present port. -/
def Stake.clearPorts (k : Stake) : Stake :=
  [0, 1, 2, 3].foldl (fun q p => if q.portPresent p && 2 ≤ q.link p then q.sendFrames p [.clear] else q) k

/-- R307: CLEAR on an axis. -/
def Stake.clearAxis (k : Stake) (h : Held) : Stake :=
  let k := k.clearFaults h
  if k.axis ≠ axSafe then k
  else
    let k := k.clearPorts
    if k.hasClass 3 || k.hasClass 4 || !(k.fld Reg.PLT_PS_STATUS_SUBSTATE = 1 || k.prt.band = 0) then k
    else
      let k := k.endEpisode
      let running : Bool := match k.prt.discharge with | some d => d.mode = 1 && !d.unserved | none => false
      if running then
        (k.setAxis axDischarge 0).onPrt fun p => { p with discharge := p.discharge.map fun d => { d with holding := true } }
      else (k.setAxis axOff 0).release

/-- An accepted AXIS descriptor completes at once (R354). -/
def Stake.axisDone (k : Stake) (r c : Nat) : Stake :=
  k.complete { ring := r, cid := c, op := 2, status := 0, result := [k.axis, k.fld Reg.PLT_AXIS_STATE_SUB] ++ List.replicate 14 0 }

/-- A refused one changes nothing but `REFUSE` (R289, R354). -/
def Stake.axisRefuse (k : Stake) (r c cause : Nat) : Stake :=
  (k.put Reg.PLT_AXIS_STATE_REFUSE cause).complete { ring := r, cid := c, op := 2, status := 5, info := cause }

/-- The first condition of a list that holds, by its `REFUSE` code. -/
def firstCause : List (Bool × Nat) → Nat
  | [] => 0
  | (b, c) :: t => if b then c else firstCause t

/-- R289, R323: the plait is split or handing over. -/
def Stake.splitOrHand (k : Stake) : Bool := 2 ≤ k.fld Reg.PLT_VOTE_STATUS_MODE

/-- R289 cause 5: the pairing is not PAIRED, or the command was sent to a follower (R212). -/
def Stake.pairRefuses (k : Stake) : Bool := k.pairSt ≠ 0 && !k.pairedLeader

/-- R289 cause 3. -/
def Stake.portsBad (k : Stake) (ps : List Nat) : Bool :=
  ps.any fun p => k.portPresent p && (!k.portReady p || k.flag (Reg.LEG_PORT_STATUS_LATCH p))

/-- R289 cause 2. -/
def Stake.stopActive (k : Stake) : Bool := k.hasClass 3 || k.hasClass 4

/-- R289 cause 6, R309. -/
def Stake.testFailed (k : Stake) : Bool := k.anyPort fun p => k.flag (Reg.LEG_PORT_STATUS_TEST_FAIL p)

/-- The refusals common to ARM, RUN, TEST and CATCH (R289, R323, R464), in the order of their codes. -/
def Stake.driveRefusal (k : Stake) (cfg : Bool) (from_ : Nat) (clock test : Bool) : Nat :=
  firstCause
    [(k.axis ≠ from_ || k.splitOrHand, 1), (k.stopActive, 2), (k.portsBad [0, 1, 2, 3], 3), (clock, 4), (k.pairRefuses, 5),
     (test && k.testFailed, 6), (!cfg, 8), (!k.carrierRuns, 9)]

/-- A command that a refusal code stops, or that takes effect and completes. -/
def Stake.axisCmd (k : Stake) (r c cause : Nat) (f : Stake → Stake) : Stake :=
  if cause ≠ 0 then k.axisRefuse r c cause else (f k).axisDone r c

/-- R310: the staged protection settings, or the first condition that fails. -/
def Stake.pltCfgCause (k : Stake) : Nat :=
  let v := k.fld
  let aux := k.inForce (Reg.MOD_PORT_CFG_AUX_MODE 3)
  let high := k.flag Reg.PLT_PR_CTRL_ASC_SIDE || v Reg.PLT_PR_CTRL_STALE_DEFAULT = 3 || v Reg.PLT_PS_SRC_FI_STATE = 3 ||
    v Reg.PLT_PS_SRC_SF_STATE = 3 || v Reg.PLT_PS_SRC_CLK_STATE = 3
  let boot := k.phasePorts.any fun p => k.inForceB (Reg.LEG_PORT_CFG_SUPPLY p)
  let fastOk := fun (c : Nat) =>
    let g := (k.act48 (Reg.SNS_CH_GAIN c)).toInt
    let o := (k.act48 (Reg.SNS_CH_OFFSET c)).toInt
    let vs : Int := k.fld (Reg.SNS_CH_VOLT_SCALE_VOLT_SCALE c)
    let num := 32768 * ((v Reg.PLT_UDC_TRIP_UDC_ABS : Int) * one44 + 16 * vs * o)
    let den := 16 * vs * g
    k.inForce (Reg.SNS_CH_CFG_FAST_CLASS c) = 2 && 0 < den &&
      k.sfld (Reg.SNS_CH_FAST_THR_HI c) ≤ -(-num / den) - 1 - k.sfld (Reg.SNS_CH_FAST_OFS_FAST_OFS c)
  firstCause
    [(!k.axisIn [axOff, axSafe, axTest], 1),
     (!(v Reg.PLT_UDC_CHOP_CHOP_OFF < v Reg.PLT_UDC_CHOP_CHOP_ON && v Reg.PLT_UDC_CHOP_CHOP_ON < v Reg.PLT_UDC_REGEN_REGEN_LIMIT &&
        v Reg.PLT_UDC_REGEN_REGEN_LIMIT < v Reg.PLT_UDC_TRIP_UDC_ASC && v Reg.PLT_UDC_TRIP_UDC_ASC < v Reg.PLT_UDC_TRIP_UDC_ABS &&
        v Reg.PLT_UDC_REGEN_REGEN_REL < v Reg.PLT_UDC_REGEN_REGEN_LIMIT), 2),
     (k.flag Reg.PLT_CHOP_CFG_CHOP_EN && aux ≠ 2, 3),
     (high && boot, 4),
     (!(fastOk (k.inForce Reg.FLD_MAP_UDC_A) && fastOk (k.inForce Reg.FLD_MAP_UDC_B)), 5),
     (v Reg.PLT_FRESH_T_LOSS ≤ v Reg.PLT_FRESH_T_FRESH, 6),
     ((v Reg.PLT_DIS_CFG_DIS_MODE = 2 && v Reg.PLT_DIS_ID_DIS_ID = 0) || (v Reg.PLT_DIS_CFG_DIS_MODE = 1 && aux ≠ 2 && aux ≠ 3), 7)]

/-- A write of `PLT_PR_CTRL`; with `APPLY` the staged settings take effect, or are refused with a cause (R310). -/
def Stake.wPrCtrl (k : Stake) (w : Reg32) : Stake :=
  let k := k.store Reg.PLT_PR_CTRL w
  if !w.getLsbD 0 then k
  else
    let c := k.pltCfgCause
    if c ≠ 0 then
      ((k.put Reg.PLT_PR_STATUS_CFG_CAUSE c).putB Reg.PLT_PR_STATUS_CFG_REFUSED true).post .pltCfgRefused 0 [c]
    else k.applyRange 0x70800 0x70880

end Sys2Proof.Machine
end

