-- ==== Sys2Proof/Machine/VoteOps.lean ====
section
/-! DEFINITION. Shared operations of the voter: fencing, the stake fault, resynchronisation, hand-overs (R313 to R323). -/
namespace Sys2Proof.Machine

/-- Changes the plait's state. -/
def Stake.onVote (k : Stake) (f : VoteState → VoteState) : Stake := { k with vote := f k.vote }

/-- `MODE` of `PLT_VOTE_STATUS`: 0 three-of-three, 1 two-of-two, 2 split, 3 hand-over. -/
def Stake.voteMode (k : Stake) : Nat := k.fld Reg.PLT_VOTE_STATUS_MODE

/-- The cores in a mask of three, counted. -/
def coreCount (m : Nat) : Nat := (if m.testBit 0 then 1 else 0) + (if m.testBit 1 then 1 else 0) + (if m.testBit 2 then 1 else 0)

/-- The core a one-bit mask names. -/
def coreOf (m : Nat) : Nat := if m.testBit 0 then 0 else if m.testBit 1 then 1 else 2

/-- R313: the cores, as a mask, that dissent on one output: that unlike the two others that agree; all three where no two do. -/
def oddOut {α : Type} [DecidableEq α] (a b c : α) : Nat := if a = b then (if b = c then 0 else 4) else if a = c then 2 else if b = c then 1 else 7

/-- R313: the cores that dissent on any output of a kind. -/
def oddAny {α : Type} [DecidableEq α] : List α → List α → List α → Nat
  | a :: x, b :: y, c :: z => oddOut a b c ||| oddAny x y z
  | _, _, _ => 0

/-- R313, R314: the cores that dissent on one kind of output; `out` are those that do not vote. Of two voting cores that differ, both are
taken to dissent (log 161). -/
def dissenters {α : Type} [DecidableEq α] (out : Nat) (a b c : List α) : Nat :=
  if out = 0 then oddAny a b c
  else if out.testBit 0 then (if b = c then 0 else 6)
  else if out.testBit 1 then (if a = c then 0 else 5)
  else if a = b then 0 else 3

/-- R337: `PLT_LAST_DIV` records a divergence: its kind, the dissenting cores, the tick. -/
def Stake.recordDiv (k : Stake) (kind cores : Nat) : Stake :=
  ((k.put Reg.PLT_LAST_DIV_KIND kind).put Reg.PLT_LAST_DIV_DISSENT cores).put Reg.PLT_LAST_DIV_TICK k.ang.tick.toNat

/-- R316: a stake fault: the plait halts and the sequencer is signalled; the record goes to the anchor. A hand-over ends with it, its
PLAIT_MODE descriptor refused (R364, log 196). -/
def Stake.stakeFault (k : Stake) : Stake :=
  if k.vote.halted then k
  else
    let k := match k.vote.handover with
      | some ⟨_, some (r, i)⟩ => k.complete { ring := r, cid := i, op := 0x44, status := 5 }
      | _ => k
    let k := k.onVote fun v => { v with halted := true, resync := false, handover := none, tasks := [] }
    (k.trip 6).post .pltStakeFault 4 [(k.rd Reg.PLT_LAST_DIV).toNat]

/-- R318: a core is left out until reset. -/
def Stake.leaveOut (k : Stake) (core : Nat) : Stake :=
  let k := (k.put Reg.PLT_VOTE_STATUS_FENCED 0).put Reg.PLT_VOTE_STATUS_LEFT_OUT (k.fld Reg.PLT_VOTE_STATUS_LEFT_OUT ||| 2 ^ core)
  (k.put Reg.SPL_SUMMARY_CORES_OUT (k.fld Reg.SPL_SUMMARY_CORES_OUT ||| 2 ^ core)).post .pltCoreLeftOut 0 [core]

/-- R318: a failed resynchronisation of a core. -/
def Stake.resyncFails (k : Stake) (core : Nat) : Stake :=
  let t := min 15 (k.fld Reg.PLT_VOTE_STATUS_TRIES + 1)
  let k := ((k.bump Reg.PLT_RESYNC_FAIL_CNT).put Reg.PLT_VOTE_STATUS_TRIES t).onVote fun v => { v with failedAt := some k.now }
  if k.inForce Reg.PLT_VOTE_CFG_RESYNC_TRIES ≤ t then k.leaveOut core else k

/-- R337: `PLT_VOTE_CFG` takes effect at a resynchronisation attempt. -/
def Stake.takeVoteCfg (k : Stake) : Stake := k.applyRange Reg.PLT_VOTE_CFG (Reg.PLT_VOTE_CFG + 4)

/-- R315, R318: a core is fenced. A core that dissents again within `RESYNC_HOLD` of a resynchronisation that passed makes that one
failed; with `RESYNC_EN` 0 in force (R337) a fenced core is left out at once. -/
def Stake.fence (k : Stake) (kind core : Nat) : Stake :=
  let again : Bool := match nth none k.vote.passed core with
    | some t => k.now ≤ t + 400000 * k.inForce Reg.PLT_VOTE_CFG_RESYNC_HOLD
    | none => false
  let k := ((k.recordDiv kind (2 ^ core)).put Reg.PLT_VOTE_STATUS_FENCED (2 ^ core)).put Reg.PLT_VOTE_STATUS_MODE 1
  let k := (k.bump Reg.PLT_DIVERGE_CNT).post .pltCoreFenced 0 [core, kind]
  let k := if again then k else (k.put Reg.PLT_VOTE_STATUS_TRIES 0).onVote fun v => { v with failedAt := none }
  let k := if again then k.resyncFails core else k
  if !k.inForceB Reg.PLT_VOTE_CFG_RESYNC_EN && k.fld Reg.PLT_VOTE_STATUS_FENCED ≠ 0 then k.leaveOut core else k

/-- R321: the first condition a mode request fails, or 0. A halted plait hands over to nothing. -/
def Stake.modeCause (k : Stake) (toSplit : Bool) : Nat :=
  let m := k.voteMode
  firstCause
    [(k.ringN ≠ 8, 1), (!(k.axis = axOff || (k.axis = axSafe && k.fld Reg.PLT_PS_STATUS_SUBSTATE = 1)), 2), (k.pairSt ≠ 0, 3),
     (toSplit && (k.fld Reg.PLT_VOTE_STATUS_FENCED ≠ 0 || k.fld Reg.PLT_VOTE_STATUS_LEFT_OUT ≠ 0), 4),
     (m = 3 || (m = 2) = toSplit || k.vote.halted, 5)]

/-- R321: a refusal. -/
def Stake.modeRefuse (k : Stake) (c : Nat) : Stake :=
  ((k.put Reg.PLT_MODE_MODE_REFUSE c).putB Reg.PLT_MODE_MODE_REFUSED true).post .pltModeRefused 0 [c]

/-- R322: a hand-over begins. -/
def Stake.handOver (k : Stake) (toSplit : Bool) (desc : Option (Nat × Nat)) : Stake :=
  (k.put Reg.PLT_VOTE_STATUS_MODE 3).onVote fun v => { v with handover := some ⟨toSplit, desc⟩, resync := false }

/-- R321: a mode request. -/
def Stake.modeRequest (k : Stake) (toSplit : Bool) (desc : Option (Nat × Nat)) : Stake :=
  let c := k.modeCause toSplit
  if c = 0 then k.handOver toSplit desc
  else match desc with
    | none => k.modeRefuse c
    | some (r, i) => (k.modeRefuse c).complete { ring := r, cid := i, op := 0x44, status := 5, info := c }

/-- A write of `PLT_MODE` (R321). -/
def Stake.wPltMode (k : Stake) (w : Reg32) : Stake :=
  let k := k.store Reg.PLT_MODE w
  let k := if w.getLsbD 0 then k.modeRequest true none else k
  if w.getLsbD 1 then k.modeRequest false none else k

/-- R323: the discharge that waited for the return to voting. -/
def Stake.lateDischarge (k : Stake) : Stake :=
  if k.vote.dischDue && !k.splitOrHand then
    ((k.onVote fun v => { v with dischDue := false }).dischargeStart true).injectionRelease
  else k

/-- R322: a hand-over ends. `differ` marks the cores whose register-file digest is unlike the other two's; all three where no two agree. -/
def Stake.handOverEnd (k : Stake) (differ : Nat) : Stake :=
  match k.vote.handover with
  | none => k
  | some h =>
    let k := k.onVote fun v => { v with handover := none }
    let fin := fun (q : Stake) (st : Nat) => match h.desc with
      | none => q
      | some (r, i) => q.complete { ring := r, cid := i, op := 0x44, status := st, info := 0 }
    if h.toSplit then
      let k := fin ((k.put Reg.PLT_VOTE_STATUS_MODE 2).post .pltModeChange 0 [2]) 0
      if k.vote.dischDue then k.handOver false none else k
    else if 2 ≤ coreCount differ then fin k.stakeFault 5
    else
      let k := (k.put Reg.PLT_VOTE_STATUS_MODE 0).put Reg.PLT_VOTE_STATUS_FENCED 0
      let k := if differ = 0 then k else k.fence 2 (coreOf differ)
      (fin (k.post .pltModeChange 0 [k.voteMode]) 0).lateDischarge

end Sys2Proof.Machine
end

