-- ==== Sys2Proof/Machine/Plait.lean ====
section
/-! DEFINITION. Commands of the plait, the scrubber and the wear monitors (chapter 10). -/
namespace Sys2Proof.Machine

/-- R313 to R316: core outputs differ in a cycle. -/
def Stake.dissent (k : Stake) (a b c : CoreOut) : Stake :=
  let out := k.fld Reg.PLT_VOTE_STATUS_FENCED ||| k.fld Reg.PLT_VOTE_STATUS_LEFT_OUT
  let bus := dissenters out a.bus b.bus c.bus
  let reg := dissenters out a.regs b.regs c.regs
  let cores := bus ||| reg
  let kind := (if bus = 0 then 0 else 1) + (if reg = 0 then 0 else 2)
  if cores = 0 || k.vote.halted || k.splitOrHand then k
  else if k.voteMode = 1 || 2 ≤ coreCount cores then (k.recordDiv kind cores).stakeFault
  else k.fence kind (coreOf cores)

/-- VOTER_DISSENT (R313 to R316, R318, R338): the voter compares what the cores put out in a cycle. -/
def execVoterDissent (n : Nat) (a b : CoreOut) (s : State) (c : CoreOut := a) : Host.Outcome State Fault Refusal :=
  .next (s.onStake n fun k => k.dissent a b c)

/-- PLAIT_READ_UE (R316, R335): the plait has read an uncorrectable line. -/
def execPlaitReadUe (n : Nat) (s : State) : Host.Outcome State Fault Refusal := .next (s.onStake n Stake.stakeFault)

/-- RESYNC_START (R317, R318, R337): a quiet point. An attempt takes `PLT_VOTE_CFG`; with `RESYNC_EN` 0 the fenced core is left out. From
here to the restart the plait's work waits. -/
def execResyncStart (n : Nat) (s : State) : Host.Outcome State Fault Refusal :=
  .next (s.onStake n fun k =>
    let rested : Bool := match k.vote.failedAt with | some t => t + 400000 ≤ k.now | none => true
    if k.voteMode = 1 && k.fld Reg.PLT_VOTE_STATUS_FENCED ≠ 0 && !k.vote.halted && !k.vote.resync && rested then
      let k := k.takeVoteCfg
      if k.inForceB Reg.PLT_VOTE_CFG_RESYNC_EN then k.onVote fun v => { v with resync := true }
      else k.leaveOut (coreOf (k.fld Reg.PLT_VOTE_STATUS_FENCED))
    else k)

/-- R317 step 4: one piece of the work that waited is done. -/
def Stake.runTask (k : Stake) (t : PlaitTask) : Stake :=
  match t with
  | .irq v => k.plaitIrq v
  | .direction s => k.directionIrq s
  | .latch => k.writeLatch
  | .monitor g th s => k.torqueMonitor g th s

/-- R317 step 4: the cores restart, and what was held is taken in order of arrival. -/
def Stake.restart (k : Stake) : Stake :=
  let l := k.vote.tasks
  l.foldl Stake.runTask (k.onVote fun v => { v with resync := false, tasks := [] })

/-- R318: the digests of step 3 have been compared. -/
def Stake.resyncEnd (k : Stake) (equal : Bool) : Stake :=
  if !k.vote.resync then k
  else
    let core := coreOf (k.fld Reg.PLT_VOTE_STATUS_FENCED)
    let k := if equal then
        let k := (k.put Reg.PLT_VOTE_STATUS_FENCED 0).put Reg.PLT_VOTE_STATUS_MODE 0
        ((k.bump Reg.PLT_RESYNC_CNT).onVote fun v => { v with passed := updAt v.passed core fun _ => some k.now }).post .pltResync 0 [core]
      else k.resyncFails core
    k.restart

/-- RESYNC_DONE (R318, R338). -/
def execResyncDone (n a : Nat) (s : State) (b : Nat := a) (c : Nat := a) : Host.Outcome State Fault Refusal :=
  .next (s.onStake n fun k => k.resyncEnd (a = b && b = c))

/-- PLAIT_TO_SPLIT (R321, R338): a write of `PLT_MODE` with `TO_SPLIT`. -/
def execPlaitToSplit (n : Nat) (src : Src) (w : Reg32) (s : State) : Host.Outcome State Fault Refusal :=
  .next (s.stakeWrite src n Reg.PLT_MODE w fun k => if w.getLsbD 0 then k.wPltMode w else k)

/-- PLAIT_TO_VOTED (R321, R338): a write of `PLT_MODE` with `TO_VOTED`. -/
def execPlaitToVoted (n : Nat) (src : Src) (w : Reg32) (s : State) : Host.Outcome State Fault Refusal :=
  .next (s.stakeWrite src n Reg.PLT_MODE w fun k => if w.getLsbD 1 then k.wPltMode w else k)

/-- HANDOVER_DONE (R319, R322, R323, R338). -/
def execHandoverDone (n a : Nat) (s : State) (b : Nat := a) (c : Nat := a) : Host.Outcome State Fault Refusal :=
  .next (s.onStake n fun k => k.handOverEnd (oddOut a b c))

/-- R335, R336: the scrubber reads a line: 0 sound, 1 corrected, 2 uncorrectable; the last line of a round publishes its corrections. -/
def Stake.scrub (k : Stake) (addr result : Nat) (last : Bool) : Stake :=
  let k := if result = 1 then (k.bump Reg.SPL_SCRUB_CORR).onVote fun v => { v with roundCorr := v.roundCorr + 1 }
    else if result = 2 then (k.bump Reg.SPL_SCRUB_UE_CNT).post .splSramUe 3 [addr] else k
  if last then (k.put Reg.SPL_SCRUB_RATE_RATE (min 65535 k.vote.roundCorr)).onVote fun v => { v with roundCorr := 0 } else k

/-- SCRUB_LINE (R335, R336, R338). -/
def execScrubLine (n addr result : Nat) (last : Bool) (s : State) : Host.Outcome State Fault Refusal :=
  .next (s.onStake n fun k => k.scrub addr result last)

/-- R336: the worst of the ring oscillators' shifts, the lowest-numbered among equals. -/
def worstOf (l : List Nat) : Nat × Nat :=
  (l.mapIdx fun i x => (i, x)).foldl (fun (b : Nat × Nat) p => if b.2 < p.2 then p else b) (0, 0)

/-- WEAR_MEASURE (R336): the shifts of the four ring oscillators, in ppm. -/
def execWearMeasure (n : Nat) (ppm : List Nat) (s : State) : Host.Outcome State Fault Refusal :=
  .next (s.onStake n fun k =>
    let w := worstOf (ppm.take 4)
    (k.put Reg.SPL_WEAR_AGE_MONITOR w.1).put Reg.SPL_WEAR_AGE_AGE_PPM (min 65535 w.2))

end Sys2Proof.Machine
end

