-- ==== Sys2Proof/Machine/PosOps.lean ====
section
/-! DEFINITION. Shared operations of the position interface: measurements and faults (R100, R101), edge speeds (R120 to R123), the
turn counter (R124), the resolver's tracking loop (R103 to R105), the compare and encoder outputs (R125 to R128). -/
namespace Sys2Proof.Machine

/-- Changes the position state. -/
def Stake.onPos (k : Stake) (f : PosState → PosState) : Stake := { k with pos := f k.pos }

/-- R98: whether a source is enabled: bit s of `POS_CTRL`. -/
def Stake.posEn (k : Stake) (s : Nat) : Bool := (k.rd Reg.POS_CTRL).getLsbD s

/-- A source that is enabled and not faulted. -/
def Stake.posLive (k : Stake) (s : Nat) : Bool := k.posEn s && !k.flag (Reg.POS_SRC_STATUS_FAULTED s)

/-- The edge times of source 1 or 2. -/
def Stake.edges (k : Stake) (s : Nat) : EdgeState := if s = 1 then k.pos.enc else k.pos.hal
def Stake.onEdges (k : Stake) (s : Nat) (f : EdgeState → EdgeState) : Stake :=
  k.onPos fun p => if s = 1 then { p with enc := f p.enc } else { p with hal := f p.hal }

/-- R109: counts of the encoder in a revolution, 4L. -/
def Stake.encCounts (k : Stake) : Nat := 4 * (k.fld Reg.POS_ENC_CFG_LINES_M1 + 1)

/-- R109, R114: the count step of a source as a fraction. -/
def Stake.step (k : Stake) (s : Nat) : Nat × Nat :=
  if s = 1 then (k.fld Reg.POS_CTRL_POLE_PAIRS * 281474976710656, k.encCounts) else (46912496118442, 1)

/-- R109: the electrical angle of a count. -/
def Stake.encAngle (k : Stake) (c : Nat) : Word48 := BitVec.ofNat 48 (c * (k.step 1).1 / (k.step 1).2)

/-- R114: the boundary at which sector k begins, and the centre of a sector (R115). -/
def hallBound (i : Nat) : Word48 := BitVec.ofNat 48 (i % 6 * 281474976710656 / 6)
def hallCentre (i : Nat) : Word48 := BitVec.ofNat 48 ((2 * (i % 6) + 1) * 281474976710656 / 12)

/-- R114: the sector of a state (U, V, W) after inversion. -/
def hallSector (l : Nat) : Option Nat :=
  match l with | 4 => some 0 | 6 => some 1 | 2 => some 2 | 3 => some 3 | 1 => some 4 | 5 => some 5 | _ => none

/-- R106, R120: the direction flag of a source toggles to the given sense: `DIR_CHG`, the plait's direction-change interrupt, the event. -/
def Stake.posToggle (k : Stake) (s : Nat) (rev : Bool) : Stake :=
  if k.flag (Reg.POS_SRC_STATUS_DIR s) = rev then k
  else (((k.putB (Reg.POS_SRC_STATUS_DIR s) rev).putB (Reg.POS_SRC_STATUS_DIR_CHG s) true).directionIrq s).post .posDirChange 0 [s]

/-- R106: the flag of the resolver and the serial port follows the sign of the speed with hysteresis. -/
def Stake.dirHyst (k : Stake) (s : Nat) (speed : Int) : Stake :=
  let h : Int := k.fld Reg.POS_DIR_HYST_DIR_HYST
  if speed < -h then k.posToggle s true else if h < speed then k.posToggle s false else k

/-- R124: a measurement of the turn source steps the turn counter at a revolution's end. -/
def Stake.countTurn (k : Stake) (s : Nat) (m : Word48) : Stake :=
  if k.fld Reg.POS_CTRL_TURN_SRC ≠ s then k
  else
    let q := m.toNat / 70368744177664
    let was := k.pos.turnLast.map fun x => x.toNat / 70368744177664
    let v := k.rd Reg.POS_TURNS
    let k := if was = some 3 && q = 0 then
        (if v = 0x7FFFFFFF then k.putB Reg.POS_TURN_STATUS_WRAP true else k).wr Reg.POS_TURNS (v + 1)
      else if was = some 0 && q = 3 then
        (if v = 0x80000000 then k.putB Reg.POS_TURN_STATUS_WRAP true else k).wr Reg.POS_TURNS (v - 1)
      else k
    k.onPos fun p => { p with turnLast := some m }

/-- R123, R124: the turn counter as it stood before the measurement that another of the same tick replaces. -/
def Stake.turnBack (k : Stake) : Stake :=
  ((k.wr Reg.POS_TURNS k.pos.turnWas.2.1).putB Reg.POS_TURN_STATUS_WRAP k.pos.turnWas.2.2).onPos fun p => { p with turnLast := p.turnWas.1 }

/-- R100: a source forms a measurement: angle before `OFFSET`, tick, speed. It is handed on while the source is VALID; a second one of
the same tick takes the place of the first (R123 step 6). -/
def Stake.measure (k : Stake) (s : Nat) (angle tm : Word48) (speed : Int) : Stake :=
  let m := angle + BitVec.ofNat 48 (k.fld (Reg.POS_SRC_OFFSET_OFFSET s) * 4294967296)
  let k := (k.put48 (Reg.POS_SRC_ANGLE s) m).put48 (Reg.POS_SRC_SPEED s) (w48 speed)
  if !k.flag (Reg.POS_SRC_STATUS_VALID s) then k
  else
    let again := nth none k.pos.sentAt s = some k.now
    let k := if again then [0, 1].foldl (fun q c =>
        if q.clkSrc c = s then q.onClock c fun x => { x with mail := x.mail.dropLast } else q) k else k
    let k := if k.fld Reg.POS_CTRL_TURN_SRC ≠ s then k
      else if again then k.turnBack
      else k.onPos fun p => { p with turnWas := (p.turnLast, k.rd Reg.POS_TURNS, k.flag Reg.POS_TURN_STATUS_WRAP) }
    let k := k.onPos fun p => { p with sentAt := updAt p.sentAt s fun _ => some k.now }
    (k.deliver s { m := m, tm := tm, speed := speed, rev := k.flag (Reg.POS_SRC_STATUS_DIR s) }).countTurn s m

/-- A source's position is not valid any more: its clocks go INVALID (R51, R101). -/
def Stake.posLost (k : Stake) (s : Nat) : Stake :=
  let k := ((k.putB (Reg.POS_SRC_STATUS_VALID s) false).put (Reg.POS_SRC_STATUS_QUAL s) 0).loseSource s
  if k.fld Reg.POS_CTRL_TURN_SRC = s then k.onPos fun p => { p with turnLast := none } else k

/-- The event of a faulted source and the field of its class (R101, R129). -/
def posEvent (s : Nat) : Ev × Fld :=
  match s with
  | 0 => (.posResFault, Reg.POS_FAULT_RES_CLASS)
  | 1 => (.posEncFault, Reg.POS_FAULT_ENC_CLASS)
  | 2 => (.posHallFault, Reg.POS_FAULT_HALL_CLASS)
  | _ => (.posSspFault, Reg.POS_FAULT_SSP_CLASS)

/-- R101: a source becomes faulted. -/
def Stake.posFault (k : Stake) (s kind : Nat) (vals : List Nat) : Stake :=
  if !k.posLive s then k
  else
    let k := ((k.putB (Reg.POS_SRC_STATUS_FAULTED s) true).put (Reg.POS_SRC_STATUS_KIND s) kind).posLost s
    k.post (posEvent s).1 (k.fld (posEvent s).2) ([kind] ++ vals)

/-- R111, R115: a fault of an edge source counts within 1 ms. -/
def Stake.edgeFault (k : Stake) (s : Nat) : Stake :=
  if !k.posLive s then k
  else
    let l := ((k.edges s).faults.filter fun t => k.now < t + 400000) ++ [k.now]
    let k := k.onEdges s fun e => { e with faults := l }
    if k.fld Reg.POS_FAULT_FAULT_N ≤ l.length then
      k.posFault s 4 (if s = 1 then [k.fld Reg.POS_EDGE_FAULT_CNT_COUNT, k.fld Reg.POS_QUAD_ERR_CNT_COUNT] else [k.fld Reg.POS_HALL_ERR_CNT_COUNT])
    else k

/-- n count steps over a span of ticks, rounded toward zero (R100, R121). -/
def Stake.stepSpeed (k : Stake) (s n span : Nat) : Nat :=
  if span = 0 then 0 else n * (k.step s).1 / ((k.step s).2 * span)

/-- R121: the speed's magnitude from the edge stamps, newest first: the smallest n whose span reaches `SPD_WIN`, else the largest
there is. -/
def Stake.windowSpeed (k : Stake) (s : Nat) (stamps : List Word48) : Nat :=
  match stamps with
  | [] => 0
  | t :: older =>
    let l := older.take 64
    let spans := l.map fun x => (t - x).toNat
    match spans.findIdx? fun d => k.fld Reg.POS_TIMING_SPD_WIN ≤ d with
    | some i => k.stepSpeed s (i + 1) (nth 0 spans i)
    | none => k.stepSpeed s spans.length (nth 0 spans (spans.length - 1))

/-- R120, R121: an accepted edge of source 1 or 2 with its sense and stamp: qualifier, direction flag, speed. -/
def Stake.edgeIn (k : Stake) (s : Nat) (rev : Bool) (stamp : Word48) (at_ : Nat) (angle : Word48) : Stake :=
  let q := k.fld (Reg.POS_SRC_STATUS_QUAL s)
  let same := k.flag (Reg.POS_SRC_STATUS_DIR s) = rev
  let e := k.edges s
  let qual : Nat := if q ≤ 1 then 2 else if same then 4 else 3
  let stamps := if qual = 4 then (stamp :: e.stamps).take 65 else [stamp]
  let mag : Nat := if qual ≠ 4 then 0 else if q = 3 then k.stepSpeed s 1 (stamp - nth stamp e.stamps 0).toNat else k.windowSpeed s stamps
  let k := (k.put (Reg.POS_SRC_STATUS_QUAL s) qual).posToggle s rev
  k.onEdges s fun e =>
    { e with
      stamps := stamps
      lastAt := at_
      edgeAt := some k.now
      angle := angle
      speed := if rev then -(mag : Int) else mag
      decaying := false }

/-- R107: the stamp of an edge decoded in this tick, and its time. -/
def Stake.edgeStamp (k : Stake) : Word48 × Nat :=
  let d := k.fld Reg.POS_ENC_CFG_EDGE_MIN + 3
  (k.ang.tick - BitVec.ofNat 48 d, k.now - d)

/-- R109: the encoder's count. -/
def Stake.encCount (k : Stake) : Nat := k.fld Reg.POS_ENC_ALIGN_COUNT

/-- R108: whether a new level of A or B steps the count forward. -/
def encForward (swap onA a b : Bool) : Bool :=
  let lead := if swap then b else a
  let lag := if swap then a else b
  if onA != swap then lead != lag else lead == lag

/-- R112, R113: the encoder's count is set by an alignment load of this tick, and the measurement is made from it. -/
def Stake.loadCount (k : Stake) (c : Nat) : Stake :=
  let k := (k.put Reg.POS_ENC_ALIGN_COUNT c).putB (Reg.POS_SRC_STATUS_ALIGNED 1) true
  if !k.posLive 1 then k
  else
    let k := (k.putB (Reg.POS_SRC_STATUS_VALID 1) true).onEdges 1 fun e => { e with angle := k.encAngle c }
    k.measure 1 (k.encAngle c) k.ang.tick k.pos.enc.speed

/-- R112, R123: a load of this tick takes effect after every edge of the tick: it overrides what an edge or an index did to the count. -/
def Stake.reload (k : Stake) : Stake :=
  match k.pos.loadAt with
  | some (t, c) => if t = k.now then k.loadCount c else k
  | none => k

/-- R107: a level that has held for `EDGE_MIN` ticks is accepted; a shorter pulse is rejected. -/
def Stake.edgeHeld (k : Stake) (held : Nat) : Bool := k.fld Reg.POS_ENC_CFG_EDGE_MIN ≤ held

/-- R108 to R111, R120, R121: an accepted edge of A or of B, or of both in one tick. -/
def Stake.encoderStep (k : Stake) (onA onB : Bool) : Stake :=
  let (stamp, at_) := k.edgeStamp
  let k := k.onPos fun p => { p with a := p.a != onA, b := p.b != onB }
  if !k.posLive 1 || (!onA && !onB) then k
  else if onA && onB then ((k.onEdges 1 fun e => { e with lastAt := at_, edgeAt := some k.now }).bump Reg.POS_QUAD_ERR_CNT).edgeFault 1
  else
    let fwd := encForward (k.flag Reg.POS_ENC_CFG_SWAP) onA k.pos.a k.pos.b
    let n := k.encCounts
    let c := (k.encCount + (if fwd then 1 else n - 1)) % n
    let k := (k.put Reg.POS_ENC_ALIGN_COUNT c).edgeIn 1 (!fwd) stamp at_ (k.encAngle c)
    k.measure 1 (k.encAngle c) stamp k.pos.enc.speed

/-- R107, R108, R112: an edge that the filter accepts, and a load of the same tick after it. -/
def Stake.encoderEdge (k : Stake) (onA onB : Bool) (held : Nat) : Stake :=
  if k.edgeHeld held then (k.encoderStep onA onB).reload else k

/-- R110: an accepted rising edge of Z. DESIGN CHOICE (log 182): `Z_GATE` is held against A and B as they come in, whatever `SWAP`. -/
def Stake.indexStep (k : Stake) : Stake :=
  let gate := (if k.pos.b then 2 else 0) + (if k.pos.a then 1 else 0)
  if !k.posLive 1 || !k.flag Reg.POS_ENC_CFG_Z_EN || gate ≠ k.fld Reg.POS_ENC_CFG_Z_GATE then k
  else
    let n := k.encCounts
    let z := k.fld Reg.POS_ENC_INDEX_Z_COUNT % n
    let d := (k.encCount + n - z) % n
    let err : Int := if 2 * d < n then d else (d : Int) - n
    let first := !k.pos.indexed
    let k := (k.put Reg.POS_ENC_ALIGN_COUNT z).onPos fun p => { p with indexed := true, enc := { p.enc with angle := k.encAngle z } }
    let k := if first then (k.putB (Reg.POS_SRC_STATUS_ALIGNED 1) true).putB (Reg.POS_SRC_STATUS_VALID 1) true else k
    let k := if !first && (k.fld Reg.POS_ENC_INDEX_Z_TOL : Int) < iabs err then
        (k.bump Reg.POS_INDEX_ERR_CNT).post .posIndexErr (k.fld Reg.POS_FAULT_INDEX_CLASS) [word err] else k
    if first || err ≠ 0 then k.measure 1 (k.encAngle z) k.edgeStamp.1 k.pos.enc.speed else k

/-- R112: a `LOAD` whose `COUNT` the encoder does not have. -/
def Stake.alignBad (k : Stake) (w : Reg32) : Bool := w.getLsbD 31 && k.encCounts ≤ Reg.POS_ENC_ALIGN_COUNT.of w

/-- R107, R110, R112: a rising edge of Z that the filter accepts, and a load of the same tick after it. -/
def Stake.encoderIndex (k : Stake) (held : Nat) : Stake := if k.edgeHeld held then k.indexStep.reload else k

/-- R112, R113: the alignment load. -/
def Stake.alignLoad (k : Stake) (w : Reg32) : Stake :=
  if !w.getLsbD 31 then k
  else
    let c := Reg.POS_ENC_ALIGN_COUNT.of w
    (k.onPos fun p => { p with loadAt := some (k.now, c) }).loadCount c

/-- R115: the Hall source's first legal state after enable. -/
def Stake.hallFirst (k : Stake) (i : Nat) : Stake :=
  let k := k.onPos fun p => { p with sector := some i, illegal := none, hal := { p.hal with angle := hallCentre i } }
  let k := (k.putB (Reg.POS_SRC_STATUS_VALID 2) true).putB (Reg.POS_SRC_STATUS_COARSE 2) true
  k.measure 2 (hallCentre i) k.ang.tick 0

/-- R114, R115: the accepted Hall state. -/
def Stake.hallState (k : Stake) : Option Nat := hallSector (k.pos.hall ^^^ k.fld Reg.POS_HALL_CFG_INV)

/-- R115: a Hall fault is counted. -/
def Stake.hallFault (k : Stake) : Stake := (k.bump Reg.POS_HALL_ERR_CNT).edgeFault 2

/-- R107, R114, R115, R120: a Hall state change to new levels that have held for a number of ticks. DESIGN CHOICE: the boundary that R115
takes after a skip is that at which the flag's sense of rotation enters the new sector, and its measurement is made at the skip's own
edge. -/
def Stake.hallMove (k : Stake) (levels held : Nat) : Stake :=
  let (stamp, at_) := k.edgeStamp
  if !k.edgeHeld held then k else
  let same := k.pos.hall = levels % 8
  let k := k.onPos fun p => { p with hall := levels % 8 }
  if !k.posLive 2 || same then k
  else match k.hallState with
    | none =>
      (k.onPos fun p => { p with
        illegal := some (p.illegal.getD k.now)
        hal := { p.hal with lastAt := at_, edgeAt := some k.now } }).hallFault
    | some i =>
      match k.pos.sector with
      | none => k.hallFirst i
      | some j =>
        let k := k.onPos fun p => { p with sector := some i, illegal := none }
        if i = j then k
        else
          let k := k.putB (Reg.POS_SRC_STATUS_COARSE 2) false
          if i = (j + 1) % 6 then
            let k := k.edgeIn 2 false stamp at_ (hallBound i)
            k.measure 2 (hallBound i) stamp k.pos.hal.speed
          else if j = (i + 1) % 6 then
            let k := k.edgeIn 2 true stamp at_ (hallBound j)
            k.measure 2 (hallBound j) stamp k.pos.hal.speed
          else
            let b := if k.flag (Reg.POS_SRC_STATUS_DIR 2) then hallBound (i + 1) else hallBound i
            let k := (k.onEdges 2 fun e => { e with lastAt := at_, edgeAt := some k.now, angle := b }).hallFault
            if k.posLive 2 then k.measure 2 b stamp k.pos.hal.speed else k

/-- R120, R123: the standstill time of an edge source has run, and no edge was accepted in this tick. DESIGN
CHOICE (log 183): its measurement has the angle of the last edge. -/
def Stake.standstill (k : Stake) (s : Nat) : Stake :=
  let t := k.fld Reg.POS_TIMING_T_STAND * 400000
  let el := k.now - (k.edges s).lastAt
  if (s ≠ 1 && s ≠ 2) || !k.posLive s || (k.edges s).edgeAt = some k.now || el < t || (k.fld (Reg.POS_SRC_STATUS_QUAL s) = 1 && el ≠ t) then k
  else
    let k := (k.put (Reg.POS_SRC_STATUS_QUAL s) 1).onEdges s fun e => { e with stamps := [], speed := 0, decaying := false }
    k.measure s (k.edges s).angle k.ang.tick 0

/-- R122, R123: a decay measurement, in a tick without an accepted edge at which t − t_e is a multiple of 256 and the bound is below the speed in force. -/
def Stake.decay (k : Stake) (s : Nat) : Stake :=
  let e := k.edges s
  let el := k.now - e.lastAt
  let bound := k.stepSpeed s 1 el
  if (s ≠ 1 && s ≠ 2) || !k.posLive s || e.edgeAt = some k.now || k.fld (Reg.POS_SRC_STATUS_QUAL s) ≠ 4 || el = 0 || el % 256 ≠ 0 ||
      (!e.decaying && e.speed.natAbs ≤ bound) then k
  else
    let rev := k.flag (Reg.POS_SRC_STATUS_DIR s)
    let half := BitVec.ofNat 48 ((k.step s).1 / (2 * (k.step s).2))
    let v : Int := if rev then -(bound : Int) else bound
    let k := k.onEdges s fun x => { x with speed := v, decaying := true }
    k.measure s (if rev then e.angle - half else e.angle + half) k.ang.tick v

/-- R117: the check over the payload and the error bit: width, polynomial, register. -/
def sspCrc (w poly : Nat) : List Bool → Nat → Nat
  | [], r => r
  | b :: t, r =>
    let fb := r.testBit (w - 1) != b
    let r' := r * 2 % 2 ^ w
    sspCrc w poly t (if fb then r' ^^^ (poly % 2 ^ w) else r')

/-- The number bits spell, MSB first. -/
def bitsNat (l : List Bool) : Nat := l.foldl (fun a b => 2 * a + (if b then 1 else 0)) 0

/-- R116: the bit sampled at the jth rising edge of the clock of a frame requested at a tick, and that tick of sampling. -/
def Stake.sspTick (k : Stake) (req : Word48) (j : Nat) : Word48 :=
  req + BitVec.ofNat 48 ((2 * j + 1) * k.fld Reg.POS_SSP_CFG_HALF_DIV + k.fld Reg.POS_SSP_TIMING_SDLY)

/-- R116: the number of samples up to and including the start bit: the first high sample after the line was sampled low, within
`START_TO` bit times of the request; none where it has not come. -/
def Stake.sspStart (k : Stake) (req : Word48) (wave : Wave) : Option Nat :=
  let l := (List.range (k.fld Reg.POS_SSP_TIMING_START_TO)).map fun j => level wave (k.sspTick req j)
  match l.findIdx? not with
  | none => none
  | some i => ((l.drop i).findIdx? fun b => b).map fun j => i + j + 1

/-- R116: the bits of a frame after its start bit. -/
def Stake.sspFrameBits (k : Stake) : Nat := k.fld Reg.POS_SSP_CFG_PAY_BITS + 1 + (if k.flag Reg.POS_SSP_CFG_CRC8 then 8 else 6)

/-- R116: the bits that follow the start bit, once the last of them has been sampled. -/
def Stake.sspBits (k : Stake) (req : Word48) (wave : Wave) : Option (List Bool) :=
  let n := k.sspFrameBits
  match k.sspStart req wave with
  | none => none
  | some j =>
    if reached k.ang.tick (k.sspTick req (j + n - 1)) then some ((List.range n).map fun i => level wave (k.sspTick req (j + i))) else none

/-- R116: a frame is over and the recovery runs. -/
def Stake.sspEnd (k : Stake) : Stake :=
  k.onPos fun p => { p with sspFrame := none, sspFree := k.now + k.fld Reg.POS_SSP_TIMING_RECOV * 400 }

/-- R117: a bad frame. -/
def Stake.sspBadFrame (k : Stake) : Stake :=
  let n := k.pos.sspBad + 1
  let k := (k.bump Reg.POS_SSP_ERR_CNT).onPos fun p => { p with sspBad := min n 255, sspGood := 0 }
  if k.fld Reg.POS_FAULT_FAULT_N ≤ n then k.posFault 3 6 [k.fld Reg.POS_SSP_ERR_CNT_COUNT] else k

/-- R117, R118: the bits after the start bit of a frame whose request was at a tick. -/
def Stake.sspFrameIn (k : Stake) (req : Word48) (bits : List Bool) : Stake :=
  let pay := k.fld Reg.POS_SSP_CFG_PAY_BITS
  let cw := if k.flag Reg.POS_SSP_CFG_CRC8 then 8 else 6
  let k := k.sspEnd
  let crc := sspCrc cw (k.fld Reg.POS_SSP_CRC_POLY) (bits.take (pay + 1)) (k.fld Reg.POS_SSP_CRC_INIT % 2 ^ cw)
  let want := if k.flag Reg.POS_SSP_CRC_INV then 2 ^ cw - 1 - crc else crc
  let errOk := nth false bits pay != k.flag Reg.POS_SSP_CFG_ERR_POL
  if !errOk || bitsNat (bits.drop (pay + 1)) ≠ want then k.sspBadFrame
  else
    let v := bitsNat (bits.take pay)
    let st := k.fld Reg.POS_SSP_CFG_ST_BITS
    let angle := BitVec.ofNat 48 (v % 2 ^ st * k.fld Reg.POS_CTRL_POLE_PAIRS * 2 ^ (48 - st))
    let tm := req + BitVec.ofNat 48 (k.fld Reg.POS_SSP_TIMING_LAT)
    let last := k.pos.sspLast
    let speed : Int := match last with
      | some (m, t) => (angle - m).toInt.tdiv ((tm - t).toNat : Nat)
      | none => 0
    let k := (k.put48 Reg.POS_SSP_RAW (BitVec.ofNat 48 v)).onPos fun p =>
      { p with sspBad := 0, sspGood := min 2 (p.sspGood + 1), sspLast := some (angle, tm) }
    if !k.posLive 3 then k
    else
      let k := if 2 ≤ k.pos.sspGood then (k.putB (Reg.POS_SRC_STATUS_VALID 3) true).put (Reg.POS_SRC_STATUS_QUAL 3) 4 else k
      let k := if last.isSome then k.dirHyst 3 speed else k
      k.measure 3 angle tm speed

/-- R103: the reference's angle at a tick. -/
def Stake.resRef (k : Stake) (t : Word48) : Word48 :=
  let n := max 1 (k.fld Reg.POS_RES_EXC_EXC_DIV)
  BitVec.ofNat 48 ((t.toNat + n * 2 - k.fld Reg.POS_RES_PHASE_EXC_PHASE) % n * 281474976710656 / n)

/-- R104 step 4: the PI law of natural frequency `LOOP_BW` and damping 0.707 over an interval in ticks: angle and speed after it. The
gains are 2 · 0.707 · ω_n · T and ω_n² · T of a second-order loop, with ω_n = 2π · `LOOP_BW`; the error is in Q4.44 radians, the
angle in 2^-48 revolutions, the speed in those per tick. DESIGN CHOICE (log 181): a speed beyond 48 bits is held at the end of the
range. -/
def resolverLoop (bw dt : Nat) (phi : Word48) (w eps : Int) : Word48 × Int :=
  (phi + w48 (w * (dt : Int) + divNear (eps * (22624 * bw * dt : Nat)) 400000000000),
   sat48 (w + divNear (eps * (bw * bw * dt : Nat) * twoPi80) (2 ^ 80 * 10000000000000000)))

/-- R105: a quantity has held for one update more, or starts again. -/
def holdCount (n : Nat) (b : Bool) : Nat := if b then min (n + 1) 255 else 0

/-- R103 to R106: both envelopes have an output in this tick: the tracking loop's update. DESIGN CHOICE: the direction flag follows the
speed, and posts, before lock as well. -/
def Stake.resolverUpdate (k : Stake) (s c : Int) : Stake :=
  let t := k.ang.tick
  let div := k.fld Reg.POS_RES_EXC_EXC_DIV
  let ref := sin44 (k.resRef t)
  let h := ((t, mul44 s ref, mul44 c ref) :: k.pos.resHist).filter fun x => (t - x.1).toNat < div
  let mean := fun (f : Word48 × Int × Int → Int) => divNear (2 * (h.map f).foldl (· + ·) 0) h.length
  let vs := mean fun x => x.2.1
  let vc := mean fun x => x.2.2
  let ch := k.fld Reg.POS_RES_LOOP_SIN_CH
  let every := k.osr ch * k.mdiv (k.mclkOf ch)
  let w := k.pos.resOmega
  let phid := k.pos.resPhi - w48 (w * ((div + 3 * every : Nat) : Int) / 2)
  let amp := hyp44 vs vc
  let eps := div44 (mul44 vs (cos44 phid) - mul44 vc (sin44 phid)) amp
  let dt := match k.pos.resAt with | some a => (t - a).toNat | none => every
  let bw := k.fld Reg.POS_RES_LOOP_LOOP_BW
  let (phi, om) := resolverLoop bw dt k.pos.resPhi w eps
  let within := fun (thr : Nat) => iabs eps * 281474976710656 < (thr : Int) * twoPi80
  let beyond := fun (thr : Nat) => (thr : Int) * twoPi80 < iabs eps * 281474976710656
  let lock := holdCount k.pos.resLock (within (k.fld Reg.POS_RES_LIMITS_LOCK_THR))
  let locked := k.flag (Reg.POS_SRC_STATUS_VALID 0)
  let conds : List Bool :=
    [amp * 256 < k.fld Reg.POS_RES_LIMITS_AMP_LO * one44, k.fld Reg.POS_RES_LIMITS_AMP_HI * one44 < amp * 256,
     locked && beyond (k.fld Reg.POS_RES_LIMITS_LOT_THR)]
  let hold := (k.pos.resHold.zip conds).map fun x => holdCount x.1 x.2
  let k := k.onPos fun p =>
    { p with resHist := h, resPhi := phi, resOmega := om, resAt := some t, resLock := lock, resHold := hold }
  match hold.findIdx? fun n => 4 ≤ n with
  | some i => k.posFault 0 (i + 1) [word amp, word eps]
  | none =>
    let k := if locked || k.fld Reg.POS_RES_LOOP_LOCK_N ≤ lock then
        (k.putB (Reg.POS_SRC_STATUS_VALID 0) true).put (Reg.POS_SRC_STATUS_QUAL 0) 4 else k
    let r : Int := k.fld Reg.POS_RES_LOOP_PP_RATIO
    let k := k.dirHyst 0 (r * om)
    if k.flag (Reg.POS_SRC_STATUS_VALID 0) then k.measure 0 (w48 (r * phi.toNat)) (t - 8) (sat48 (r * om)) else k

/-- R103: an output r of the sine or the cosine channel. -/
def Stake.resolverOutput (k : Stake) (c : Nat) (r : Int) : Stake :=
  let t := k.ang.tick
  let isS := c = k.fld Reg.POS_RES_LOOP_SIN_CH
  let isC := c = k.fld Reg.POS_RES_LOOP_COS_CH
  if !k.posLive 0 || (!isS && !isC) then k
  else
    let k := k.onPos fun p => { p with
      resSin := if isS then some (t, r) else p.resSin
      resCos := if isC then some (t, r) else p.resCos }
    match k.pos.resSin, k.pos.resCos with
    | some (ts, s), some (tc, x) => if ts = t && tc = t then k.resolverUpdate s x else k
    | _, _ => k

/-- R76, R94: `STREAM_MODE` 3: r in Q1.15 at each of the last `OSR` clocks, offered three to an item. -/
def Stake.rawStream (k : Stake) (c : Nat) (e : Word48) (wave : Wave) : Stake :=
  let n := k.osr c
  let bits := k.bitsTo c (4 * n - 1) e wave
  let vals := (List.range n).map fun i =>
    let r := sinc3 n (bits.take (bits.length - (n - 1 - i)))
    ((min 32767 (r.tdiv 536870912)) % 65536).toNat
  vals.foldl (fun q v =>
    let l := (q.chan c).raw ++ [v]
    if l.length < 3 then q.onChan c fun x => { x with raw := l }
    else (q.onChan c fun x => { x with raw := [] }).offer
      { stream := q.inForce (Reg.SNS_CH_CFG_STREAM c), source := c, content := 3,
        words := [nth 0 l 0 + nth 0 l 1 * 65536 + nth 0 l 2 * 4294967296] }) k

/-- R76, R77, R94: a channel's main decimator can put out in this tick: an edge of its running clock falls on it. -/
def Stake.mayOutput (k : Stake) (c : Nat) : Bool :=
  c < 16 && k.flag Reg.SNS_CTRL_EN && k.inForceB (Reg.SNS_CH_CFG_EN c) && !k.flag (Reg.SNS_CH_STATUS_UNAVAIL c) && !(k.chan c).clkFault &&
    k.hasEdge (k.mclkOf c) k.ang.tick && k.edgeOf (k.mclkOf c) k.ang.tick = k.ang.tick

/-- R291, R305: u_dc is formed from the DC-link channels' values and acts. -/
def Stake.udcEval (k : Stake) : Stake :=
  let us := ([k.inForce Reg.FLD_MAP_UDC_A, k.inForce Reg.FLD_MAP_UDC_B].filter fun x => !k.udcBad x).map fun x =>
    signOf 16 (k.fld (Reg.SNS_CH_VOLTS_VOLTS x))
  ((k.onPrt fun p => { p with udcWait := none }).ladder us).dischargeCount

/-- R291: the outputs of both DC-link channels in one tick give one u_dc: the first waits for the other, at most to the tick's end. -/
def Stake.udcOutput (k : Stake) (c : Nat) : Stake :=
  let a := k.inForce Reg.FLD_MAP_UDC_A
  let b := k.inForce Reg.FLD_MAP_UDC_B
  if c ≠ a && c ≠ b then k
  else if a ≠ b && k.prt.udcWait.isNone && k.mayOutput (if c = a then b else a) then k.onPrt fun p => { p with udcWait := some c }
  else k.udcEval

/-- R291: at the tick's end an output that still waits is evaluated. -/
def Stake.tickUdc (k : Stake) : Stake := if k.prt.udcWait.isSome then k.udcEval else k

/-- R76, R82, R84, R94, R103, R291, R292, R305: a main decimator's output in this tick, the edge at which it is complete (R77).
DESIGN CHOICE: its `TAINTED` is 0, since it belongs to no capture and has no taint zone. -/
def Stake.decimatorOutput (k : Stake) (c : Nat) (wave : Wave) : Stake :=
  if !k.mayOutput c then k
  else
    let n := k.osr c
    let d := k.mdiv (k.mclkOf c)
    let e := k.ang.tick - BitVec.ofNat 48 d
    let centre := k.ang.tick - BitVec.ofNat 48 ((3 * n + 1) / 2 * d)
    let r := sinc3 n (k.bitsTo c (3 * n) e wave)
    let (y, ql, k) := k.newSample c wave false centre
    let mode := k.inForce (Reg.SNS_CH_CFG_STREAM_MODE c)
    let k := if mode = 2 then
        k.offer { stream := k.inForce (Reg.SNS_CH_CFG_STREAM c), source := c, content := 2,
                  words := [word y, centre.toNat % 2 ^ 40 * 256 + ql] }
      else if mode = 3 then k.rawStream c e wave else k
    let k := k.resolverOutput c r
    let k := k.udcOutput c
    if c = k.inForce Reg.PLT_CHOP_CFG_CHOP_CH then k.chopCurrent y else k

/-- R102, R115, R120: a source is enabled and starts from its reset state. DESIGN CHOICE (log 184): an illegal Hall state that is
there at enable starts R115's timer and counts no Hall fault. -/
def Stake.posStart (k : Stake) (s : Nat) : Stake :=
  let k := ((k.wr (Reg.POS_SRC_STATUS s) (k.rd (Reg.POS_SRC_STATUS s) &&& 0x800)).put48 (Reg.POS_SRC_ANGLE s) 0).put48 (Reg.POS_SRC_SPEED s) 0
  let k := k.onPos fun p => { p with sentAt := updAt p.sentAt s fun _ => none }
  match s with
  | 0 => k.onPos fun p => { p with
      resSin := none, resCos := none, resHist := [], resPhi := 0, resOmega := 0, resAt := none, resLock := 0, resHold := [0, 0, 0] }
  | 1 => ((k.put Reg.POS_ENC_ALIGN_COUNT 0).put (Reg.POS_SRC_STATUS_QUAL 1) 1).onPos fun p =>
      { p with indexed := false, loadAt := none, enc := { lastAt := k.now } }
  | 2 =>
    let k := (k.put (Reg.POS_SRC_STATUS_QUAL 2) 1).onPos fun p =>
      { p with sector := none, illegal := none, hal := { lastAt := k.now } }
    (match k.hallState with
     | some i => k.hallFirst i
     | none => k.onPos fun p => { p with illegal := some k.now })
  | _ => k.onPos fun p => { p with sspFrame := none, sspFree := 0, sspBad := 0, sspGood := 0, sspLast := none }

/-- R101: a source is disabled, and its faulted state ends. -/
def Stake.posStop (k : Stake) (s : Nat) : Stake :=
  let k := (k.posLost s).wr (Reg.POS_SRC_STATUS s) (k.rd (Reg.POS_SRC_STATUS s) &&& 0x900)
  if s = 3 then k.onPos fun p => { p with sspFrame := none } else k

/-- R98: a refused write. -/
def Stake.posRefuse (k : Stake) : Stake := (k.putB Reg.POS_STATUS_CFG_REFUSED true).post .posCfgRefused 0

/-- R127, R128: levels of A and B for an output count. -/
def emuLevels (c : Nat) : Bool × Bool := (c % 4 = 1 || c % 4 = 2, c % 4 = 2 || c % 4 = 3)

/-- R128: counts per electrical revolution, and the target count. -/
def Stake.emuCounts (k : Stake) : Nat := 4 * (k.fld Reg.POS_EMU_CFG_LINES_E_M1 + 1)
def Stake.emuTarget (k : Stake) : Nat := (k.clock (k.fld Reg.POS_EMU_CFG_SRC)).theta.toNat * k.emuCounts / 281474976710656

/-- R127, R128: `EMU_MODE` changes. -/
def Stake.emuMode (k : Stake) (m : Nat) : Stake :=
  k.onPos fun p => { p with emu :=
    if m = 1 then { p.emu with a := p.inA, b := p.inB, z := p.inZ }
    else if m = 2 then
      let c := k.emuTarget
      { a := (emuLevels c).1, b := (emuLevels c).2, z := false, count := c, lastStep := k.now, lag := false, zSeen := false }
    else {} }

/-- R98, R99, R101, R124, R127, R128: a write of `POS_CTRL`. -/
def Stake.wPosCtrl (k : Stake) (locked : Bool) (w : Reg32) : Stake :=
  let old := k.rd Reg.POS_CTRL
  let w := if locked then (old &&& 0xFFFFFFF0) ||| (w &&& 0xF) else w
  let pp := Reg.POS_CTRL_POLE_PAIRS
  if pp.of old ≠ pp.of w && (old ||| w) &&& 0xF ≠ 0 then k.posRefuse
  else
    let k := k.store Reg.POS_CTRL w
    let k := if Reg.POS_CTRL_TURN_SRC.of old ≠ Reg.POS_CTRL_TURN_SRC.of w then
        (k.wr Reg.POS_TURNS 0).onPos fun p => { p with turnLast := none, turnWas := (none, 0, k.flag Reg.POS_TURN_STATUS_WRAP) } else k
    let k := if Reg.POS_CTRL_EMU_MODE.of old ≠ Reg.POS_CTRL_EMU_MODE.of w then k.emuMode (Reg.POS_CTRL_EMU_MODE.of w) else k
    [0, 1, 2, 3].foldl (fun q s =>
      if w.getLsbD s && !old.getLsbD s then q.posStart s
      else if !w.getLsbD s && old.getLsbD s then q.posStop s else q) k

/-- R98: the source whose enable guards a configuration register: 4 for the encoder output, none for a register R98 does not guard. -/
def posGuard (off : Nat) : Option Nat :=
  if off = Reg.POS_SRC_OFFSET 0 || (Reg.POS_RES_EXC ≤ off && off ≤ Reg.POS_RES_LIMITS) then some 0
  else if off = Reg.POS_SRC_OFFSET 1 || off = Reg.POS_ENC_CFG || off = Reg.POS_ENC_INDEX then some 1
  else if off = Reg.POS_SRC_OFFSET 2 || off = Reg.POS_HALL_CFG then some 2
  else if off = Reg.POS_SRC_OFFSET 3 || (Reg.POS_SSP_CFG ≤ off && off ≤ Reg.POS_SSP_PERIOD) then some 3
  else if off = Reg.POS_EMU_CFG then some 4
  else none

/-- R98: a guarded register may be written now. -/
def Stake.posGuardOk (k : Stake) (off : Nat) : Bool :=
  match posGuard off with
  | none => true
  | some 4 => k.fld Reg.POS_CTRL_EMU_MODE = 0
  | some s => !k.posEn s

/-- R128: whether the emulated output follows its clock, and the counts by which the target leads, the shorter way. -/
def Stake.emuRuns (k : Stake) : Bool := k.fld Reg.POS_CTRL_EMU_MODE = 2 && (k.clock (k.fld Reg.POS_EMU_CFG_SRC)).valid
def Stake.emuLead (k : Stake) : Nat :=
  let up := (k.emuTarget + k.emuCounts - k.pos.emu.count) % k.emuCounts
  min up (k.emuCounts - up)

/-- R128: an episode of a lead above 4 counts begins, and counts once, or ends. -/
def Stake.emuLag (k : Stake) : Stake :=
  if !k.emuRuns then k
  else
    let lag := 4 < k.emuLead
    let k := if lag && !k.pos.emu.lag then k.bump Reg.POS_EMU_LAG_CNT else k
    if k.pos.emu.lag = lag then k else k.onPos fun p => { p with emu := { p.emu with lag := lag } }

/-- R128: one step of the emulated encoder output toward its target. -/
def Stake.emuStep (k : Stake) : Stake :=
  let n := k.emuCounts
  let e := k.pos.emu
  let up := (k.emuTarget + n - e.count) % n
  if !k.emuRuns || up = 0 || k.now < e.lastStep + k.fld Reg.POS_EMU_CFG_MIN_SP then k
  else
    let k := k.emuLag
    let c := (e.count + (if 2 * up ≤ n then 1 else n - 1)) % n
    let seen := e.zSeen || c = 0
    (k.onPos fun p =>
      { p with emu :=
        { p.emu with
          a := (emuLevels c).1
          b := (emuLevels c).2
          z := k.flag Reg.POS_EMU_CFG_Z_EN && c = 0 && seen
          count := c
          lastStep := k.now
          zSeen := seen } }).emuLag

/-- R41, R128: what a tick does to the position interface. -/
def Stake.tickPos (k : Stake) : Stake := k.emuLag

/-- R125, R126: a compare pulse's leading edge at an instant; one that comes while a pulse is active, or less than 4 ticks after its
trailing edge, extends it. -/
def Stake.comparePulse (k : Stake) (entry : Nat) (at_ : Instant) : Stake :=
  if !k.flag Reg.POS_CTRL_CMP_EN || 8 ≤ entry || !k.flag (Reg.POS_CMP_EN entry) then k
  else
    let o := k.fld (Reg.POS_CMP_OUT entry)
    let stop : Instant := ⟨at_.tick + BitVec.ofNat 48 (k.fld (Reg.POS_CMP_WIDTH entry)), at_.fine⟩
    let c := nth {} k.pos.cmp o
    let on := c.active || (c.ran && !laterInstant c.endAt at_ && at_.minus c.endAt < 128)
    let k := if on then k.bump Reg.POS_CMP_OVERLAP_CNT else k
    let stop := if on && laterInstant c.endAt stop then c.endAt else stop
    let start := if on then c.startAt else at_
    let cells := (if on then c.cells.1 else cellOf at_.fine k.cellsNow, cellOf stop.fine k.cellsNow)
    k.onPos fun p => { p with cmp := updAt p.cmp o fun _ => { active := true, startAt := start, endAt := stop, ran := true, cells := cells } }

/-- R126: a dispatched COMPARE whose leading edge lies less than 4 ticks after an instant on the output. -/
def Stake.compareSoon (k : Stake) (o : Nat) (x : Instant) : Bool :=
  k.flag Reg.POS_CTRL_CMP_EN && k.ang.acts.any fun a =>
    a.action = 4 && k.flag (Reg.POS_CMP_EN (a.arg % 8)) && k.fld (Reg.POS_CMP_OUT (a.arg % 8)) = o && a.at_.minus x < 128

end Sys2Proof.Machine
end

