-- ==== Sys2Proof/Machine/Position.lean ====
section
/-! DEFINITION. Commands of position and speed (chapter 04), and the decimator outputs that feed the resolver and the DC-link ladder. -/
namespace Sys2Proof.Machine

/-- ACTION_COMPARE (R67, R125, R126). -/
def execActionCompare (n e : Nat) (s : State) : Host.Outcome State Fault Refusal :=
  .next (s.onStake n fun k => match k.takeAct e 4 with
    | none => k
    | some (a, k) => k.comparePulse a.arg a.at_)

/-- DECIMATOR_OUTPUT (R76, R82, R84, R94, R103 to R106, R291 to R293, R305). `wave` is what comes in at the channel's data ball. -/
def execDecimatorOutput (n c : Nat) (wave : Wave) (s : State) : Host.Outcome State Fault Refusal :=
  .next (s.onStake n fun k => k.decimatorOutput c wave)

/-- Accepted levels of A, B, U, V, W given as bits 0, 1, 4, 3, 2 with a source's enable. -/
def Stake.posLevels (k : Stake) (levels : Nat) : Stake :=
  k.onPos fun p => { p with a := levels.testBit 0, b := levels.testBit 1, hall := levels / 4 % 8 }

/-- POS_SOURCE_ENABLE (R98, R101, R102, R115, R120): a write of `POS_CTRL` that sets an enable bit; `levels` are the accepted levels
of the inputs then. -/
def execPosSourceEnable (n : Nat) (src : Src) (w : Reg32) (levels : Nat) (s : State) : Host.Outcome State Fault Refusal :=
  .next (s.stakeWrite src n Reg.POS_CTRL w fun k =>
    if w &&& ~~~ k.rd Reg.POS_CTRL &&& 0xF = 0 then k
    else (if k.rd Reg.POS_CTRL &&& 6 = 0 then k.posLevels levels else k).wPosCtrl s.locked w)

/-- POS_SOURCE_DISABLE (R98, R101): a write of `POS_CTRL` that clears an enable bit. -/
def execPosSourceDisable (n : Nat) (src : Src) (w : Reg32) (s : State) : Host.Outcome State Fault Refusal :=
  .next (s.stakeWrite src n Reg.POS_CTRL w fun k =>
    if k.rd Reg.POS_CTRL &&& ~~~ w &&& 0xF = 0 then k else k.wPosCtrl s.locked w)

/-- ENCODER_EDGE (R107 to R109, R111, R120, R121, R123, R124): the edges of A and of B decoded in this tick, stamped alike; `held` is for how many ticks the new level has held. -/
def execEncoderEdge (n : Nat) (a b : Bool) (s : State) (held : Nat := 4000) : Host.Outcome State Fault Refusal :=
  .next (s.onStake n fun k => k.encoderEdge a b held)

/-- ENCODER_PULSE_REJECTED (R107, R111): a pulse of a width below `EDGE_MIN`; a Hall input's pulse is counted and is no encoder
fault. DESIGN CHOICE: the pulse is counted while its source is disabled, too. -/
def execEncoderPulseRejected (n : Nat) (hall : Bool) (s : State) (width : Nat := 1) : Host.Outcome State Fault Refusal :=
  .next (s.onStake n fun k =>
    if k.edgeHeld width then k else
    let k := k.bump Reg.POS_EDGE_FAULT_CNT
    if hall then k else k.edgeFault 1)

/-- ENCODER_INDEX (R107, R110, R113, R123): a rising edge of Z; `held` is for how many ticks it has held. -/
def execEncoderIndex (n : Nat) (s : State) (held : Nat := 4000) : Host.Outcome State Fault Refusal :=
  .next (s.onStake n fun k => k.encoderIndex held)

/-- ENC_ALIGN_LOAD (R99, R112, R113): a write of `POS_ENC_ALIGN`. -/
def execEncAlignLoad (n : Nat) (src : Src) (w : Reg32) (s : State) : Host.Outcome State Fault Refusal :=
  .next (if (s.stake n).alignBad w && s.takesFrom src n && !(s.locked && src = .host) then
      (if src = .tune then s else s.rangeDrop (bar0 n Reg.POS_ENC_ALIGN) w)
    else s.stakeWrite src n Reg.POS_ENC_ALIGN w fun k => k.alignLoad w)

/-- HALL_TRANSITION (R107, R114, R115, R120, R121): the levels of U, V, W change; `held` is for how many ticks they have held. -/
def execHallTransition (n levels : Nat) (s : State) (held : Nat := 4000) : Host.Outcome State Fault Refusal :=
  .next (s.onStake n fun k => k.hallMove levels held)

/-- HALL_ILLEGAL_TIMEOUT (R115). -/
def execHallIllegalTimeout (n : Nat) (s : State) : Host.Outcome State Fault Refusal :=
  .next (s.onStake n fun k => match k.pos.illegal with
    | some t => if t + 40000 ≤ k.now then k.posFault 2 5 [k.fld Reg.POS_HALL_ERR_CNT_COUNT] else k
    | none => k)

/-- SSP_REQUEST (R116). -/
def execSspRequest (n : Nat) (s : State) : Host.Outcome State Fault Refusal :=
  .next (s.onStake n fun k =>
    if !k.posEn 3 || k.ang.tick.toNat % max 1 (k.fld Reg.POS_SSP_PERIOD_PERIOD) ≠ 0 then k
    else if k.pos.sspFrame.isSome || k.now < k.pos.sspFree then k.bump Reg.POS_SSP_ERR_CNT
    else k.onPos fun p => { p with sspFrame := some k.ang.tick })

/-- SSP_START_TIMEOUT (R116, R117): `START_TO` bit times are over without a start bit; `wave` is what comes in at `Sn_SSP_DAT`. -/
def execSspStartTimeout (n : Nat) (s : State) (wave : Wave := []) : Host.Outcome State Fault Refusal :=
  .next (s.onStake n fun k => match k.pos.sspFrame with
    | some r =>
      if k.fld Reg.POS_SSP_TIMING_START_TO * (2 * k.fld Reg.POS_SSP_CFG_HALF_DIV) ≤ (k.ang.tick - r).toNat && (k.sspStart r wave).isNone then
        k.sspEnd.sspBadFrame else k
    | none => k)

/-- SSP_FRAME_RECEIVED (R106, R116 to R118, R124): the payload, the error bit and the CRC have been sampled from `wave`, what comes in
at `Sn_SSP_DAT`. -/
def execSspFrameReceived (n : Nat) (wave : Wave) (s : State) : Host.Outcome State Fault Refusal :=
  .next (s.onStake n fun k => match k.pos.sspFrame with
    | some r => (match k.sspBits r wave with
      | some bits => k.sspFrameIn r bits
      | none => k)
    | none => k)

/-- STANDSTILL_TIMEOUT (R120, R123): of source 1 or 2. -/
def execStandstillTimeout (n src : Nat) (s : State) : Host.Outcome State Fault Refusal :=
  .next (s.onStake n fun k => k.standstill src)

/-- DECAY_MEASUREMENT (R122, R123, R124): of source 1 or 2. -/
def execDecayMeasurement (n src : Nat) (s : State) : Host.Outcome State Fault Refusal :=
  .next (s.onStake n fun k => k.decay src)

/-- COMPARE_PULSE_END (R125, R126): the trailing edge of a pulse that nothing extends; one with a fine step lies within its tick, and
the pulse is over in the next. -/
def execComparePulseEnd (n o : Nat) (s : State) : Host.Outcome State Fault Refusal :=
  .next (s.onStake n fun k =>
    let c := nth {} k.pos.cmp o
    if !c.active || !reached k.ang.tick (if c.endAt.fine = 0 then c.endAt.tick else c.endAt.tick + 1) || k.compareSoon o c.endAt then k
    else k.onPos fun p => { p with cmp := updAt p.cmp o fun x => { x with active := false } })

/-- EMU_PASS_THROUGH_EDGE (R127): the levels of the encoder's balls change; under `EMU_MODE` 1 the outputs follow. -/
def execEmuPassThroughEdge (n : Nat) (a b z : Bool) (s : State) : Host.Outcome State Fault Refusal :=
  .next (s.onStake n fun k =>
    let k := k.onPos fun p => { p with inA := a, inB := b, inZ := z }
    if k.fld Reg.POS_CTRL_EMU_MODE = 1 then k.onPos fun p => { p with emu := { p.emu with a := a, b := b, z := z } } else k)

/-- EMU_STEP (R128). -/
def execEmuStep (n : Nat) (s : State) : Host.Outcome State Fault Refusal :=
  .next (s.onStake n fun k => k.emuStep)

end Sys2Proof.Machine
end

