-- ==== Sys2Proof/Machine/Protection.lean ====
section
/-! DEFINITION. Commands of protection (chapter 09). -/
namespace Sys2Proof.Machine

/-- SEQUENCER_TRIP (R163, R222, R274, R278 to R281, R284 to R290, R295, R305, R312): the oldest trip signal reaches the sequencer. -/
def execSequencerTrip (n : Nat) (s : State) : Host.Outcome State Fault Refusal :=
  .next (s.onStake n fun k => match k.prt.trips with
    | [] => k
    | t :: rest => (k.onPrt fun p => { p with trips := rest }).takeTrip t.cause t.port)

/-- R280: the turn-on symbols of an ASC, `ASC_DELAY` after the last off symbol. -/
def Stake.ascOn (k : Stake) : Stake :=
  match k.prt.ascDue with
  | none => k
  | some t =>
    if k.now < t then k
    else
      let sym : Symb := if k.fld Reg.PLT_PS_STATUS_SUBSTATE = 3 then .hsOn else .lsOn
      (k.onPrt fun p => { p with ascDue := none }).generate (k.phasePorts.map fun p => ⟨p, sym, max k.now (k.genFrom p)⟩)

/-- ASC_DELAY_EXPIRE (R280). -/
def execAscDelayExpire (n : Nat) (s : State) : Host.Outcome State Fault Refusal := .next (s.onStake n Stake.ascOn)

/-- R222 items 2 and 3, R282, R323: the sub-state the plait requests for an F3 cause, and the request applied. A follower that yields for
a fault of its own takes `HALF_SAFE` (R223). -/
def Stake.applyF3 (k : Stake) (q : F3Req) : Stake :=
  let unit := (k.leads && unitFault q.ev) || q.ev = .walTickSkew || q.ev = .pairBreak || q.ev = .pairConfirmTimeout
  let k := if unit then k else k.localBreak
  let half := k.prt.f3.find? fun x => x.ev = .pairBreak
  let k := if unit then k else k.onPrt fun p => { p with f3 := p.f3.filter fun x => x.ev ≠ .pairBreak }
  let fixed := match half with | some h => if unit then q.fixed else h.fixed | none => q.fixed
  let k := k.refreshBand
  let sub := if k.fld Reg.PLT_VOTE_STATUS_MODE = 2 || q.off then 1 else k.resolve { fixed := fixed } k.prt.band
  let k := if k.openEpisode then k.episodeCause 10 false (some k.prt.band) else k.seizeSafe sub 10 [] (some k.prt.band)
  k.catchAbort

/-- SAFE_STATE_REQUEST (R163, R222, R223, R274, R279, R280, R282, R284 to R290, R305, R323): the plait's oldest F3 request reaches the
sequencer. A halted plait sends none (R316); one that resynchronises or hands over sends it after (R317, R323); NOT_READY keeps it (R288). -/
def execSafeStateRequest (n : Nat) (s : State) : Host.Outcome State Fault Refusal :=
  let k := s.stake n
  match k.prt.f3 with
  | [] => .next s
  | q :: rest =>
    if k.axis = axNotReady || k.vote.halted || k.vote.resync || k.fld Reg.PLT_VOTE_STATUS_MODE = 3 then .next s
    else
      -- R222 item 2: a tick skew on the follower is the unit's fault too.
      let skew := q.ev = .walTickSkew && k.pairedFollower
      let s := s.onStake n fun k => (k.onPrt fun p => { p with f3 := rest }).applyF3 q
      .next (if skew then s.onStake (partnerOf n) fun k => k.onPrt fun p => { p with f3 := p.f3 ++ [{ q with at_ := k.now, off := 2 ≤ k.fld Reg.PLT_VOTE_STATUS_MODE }] } else s)

/-- BAND_LATCH_REFRESH (R283): 100 µs since the plait last wrote the latch. -/
def execBandLatchRefresh (n : Nat) (s : State) : Host.Outcome State Fault Refusal :=
  .next (s.onStake n fun k => if k.prt.bandAt + 40000 ≤ k.now && !k.vote.resync then k.writeLatch else k)

/-- R283: the latch has gone `LATCH_MAX` without a write, times a factor. -/
def Stake.latchAged (k : Stake) (f : Nat) : Bool := k.prt.latchAt + f * 400 * k.inForce Reg.PLT_PS_LATCH_CFG_LATCH_MAX ≤ k.now

/-- LATCH_STALE (R283, R312). -/
def execLatchStale (n : Nat) (s : State) : Host.Outcome State Fault Refusal :=
  .next (s.onStake n fun k =>
    if k.latchAged 1 && !k.flag Reg.PLT_PS_STATUS_STALE then
      ((k.putB Reg.PLT_PS_STATUS_STALE true).bump Reg.PLT_LATCH_STALE_CNT).post .psLatchStale 0
    else k)

/-- PLAIT_SILENT (R279, R283, R312): cause 9. -/
def execPlaitSilent (n : Nat) (s : State) : Host.Outcome State Fault Refusal :=
  .next (s.onStake n fun k =>
    if k.latchAged 4 && k.axisIn [axRun, axDerate, axCatch, axDischarge, axTest] then (k.post .psPlaitSilent 4).takeTrip 9 none else k)

/-- WINDOW_CLOSE (R296): 1 µs after the episode began. `bits` are the last bits of the channels by number, oldest first, from which the
fast path forms |r_f| (R86); a port takes the larger of its two channels. -/
def execWindowClose (n : Nat) (bits : List (List Bool)) (s : State) : Host.Outcome State Fault Refusal :=
  .next (s.onStake n fun k => match k.prt.episode with
    | none => k
    | some e =>
      if e.closed.isSome || k.now < e.start + 400 then k
      else
        let r := fun (c : Nat) => (sinc2 (k.inForce (Reg.SNS_CH_CFG_FAST_OSR c)) (nth [] bits c)).natAbs
        let a := k.inForce Reg.SNS_PLAUS_MAP_SET_A
        let b := k.inForce Reg.SNS_PLAUS_MAP_SET_B
        k.closeWindow e ([0, 1, 2].map fun p => max (r (a + p)) (r (b + p))))

/-- SC_DECIDE (R284 to R286, R297): `T_SC_DECIDE` after the window closed. -/
def execScDecide (n : Nat) (s : State) : Host.Outcome State Fault Refusal :=
  .next (s.onStake n fun k => match k.prt.episode with
    | none => k
    | some e => match e.closed with
      | none => k
      | some t => if e.decided || k.now < t + 400 * k.inForce Reg.PLT_PS_TIMING_T_SC_DECIDE then k else k.decide e)

/-- Whether a configuration is in force (R289 cause 8). -/
def State.cfgInForce (s : State) : Bool := s.pkg.flag Reg.NVM_CFG_STATUS_IN_FORCE

/-- AXIS_ARM (R288, R289, R309, R354, R464). -/
def execAxisArm (n r c : Nat) (s : State) : Host.Outcome State Fault Refusal :=
  .next (s.axisDesc n r c 1 fun k => k.axisCmd r c (k.driveRefusal s.cfgInForce axOff false true) fun k => k.setAxis axArmed 0)

/-- AXIS_DISARM (R288, R289, R354). -/
def execAxisDisarm (n r c : Nat) (s : State) : Host.Outcome State Fault Refusal :=
  .next (s.axisDesc n r c 2 fun k => k.axisCmd r c (firstCause [(k.axis ≠ axArmed, 1), (k.pairedFollower, 5)]) fun k => k.setAxis axOff 0)

/-- AXIS_RUN (R161, R162, R197, R288, R289, R309, R354, R464): with the main clock INVALID and `CATCH_AUTO`, CATCH; its descriptor completes
at the outcome. -/
def execAxisRun (n r c : Nat) (s : State) : Host.Outcome State Fault Refusal :=
  .next (s.axisDesc n r c 3 fun k =>
    let valid := (k.clock 0).valid
    let cause := k.driveRefusal s.cfgInForce axArmed (!valid && !k.inForceB Reg.FLD_CATCH_GAP_CATCH_AUTO) true
    if cause = 0 && !valid then k.catchStart true (some (r, c)) else k.axisCmd r c cause Stake.enterRun)

/-- R303: a discharge that a STOP ends: one started by command, while `DISCH_REQ` is not asserted. -/
def Stake.stoppable (k : Stake) (ball : Bool) : Bool := match k.prt.discharge with | some d => !d.byReq && !ball | none => false

/-- R288, R303: STOP, in the states that take it. -/
def Stake.stop (k : Stake) (ball : Bool) : Stake :=
  if k.axisIn [axRun, axDerate] then
    let k := (k.putB Reg.PLT_AXIS_STATE_STOP_PENDING true).syncActive
    if k.stoppable ball then k.endDischarge else k
  else if k.axis = axTest then (k.leaveSwitching).setAxis axOff 0
  else if k.axis = axCatch then k.catchEnd 0 0 0 0 false
  else k.endDischarge

/-- AXIS_STOP (R288, R303, R309, R354, R465). `ball` is the level of `DISCH_REQ`: a discharge by command ends at a STOP only while it is
not asserted. -/
def execAxisStop (n r c : Nat) (s : State) (ball : Bool := false) : Host.Outcome State Fault Refusal :=
  .next (s.axisDesc n r c 4 fun k =>
    let ok := k.axisIn [axRun, axDerate, axTest, axCatch] || (k.axisIn [axDischarge, axSafe] && k.stoppable ball)
    k.axisCmd r c (firstCause [(!ok, 1), (k.pairedFollower, 5)]) fun k => k.stop ball)

/-- AXIS_TEST (R197, R288, R289, R354, R464). -/
def execAxisTest (n r c : Nat) (s : State) : Host.Outcome State Fault Refusal :=
  .next (s.axisDesc n r c 5 fun k => k.axisCmd r c (k.driveRefusal s.cfgInForce axOff false false) fun k =>
    (k.setAxis axTest 0).enterSwitching)

/-- AXIS_CATCH (R162, R288, R289, R354, R464): the descriptor completes at the outcome. -/
def execAxisCatch (n r c : Nat) (s : State) : Host.Outcome State Fault Refusal :=
  .next (s.axisDesc n r c 6 fun k =>
    let cause := k.driveRefusal s.cfgInForce axArmed false false
    if cause = 0 then k.catchStart false (some (r, c)) else k.axisRefuse r c cause)

/-- R288, R303: a discharge from a state that may start one; a CATCH ends first. A record of one that only counts is replaced. -/
def Stake.dischargeFrom (k : Stake) (byReq : Bool) : Stake :=
  let k := if k.axis = axCatch then k.catchEnd 0 0 0 0 false else k
  let ramping : Bool := match k.prt.discharge with | some d => d.ramping | none => false
  (if k.axisIn [axDischarge, axSafe] || ramping then k else k.endDischarge).dischargeStart byReq

/-- AXIS_DISCHARGE (R288 to R290, R303, R304, R354, R464). -/
def execAxisDischarge (n r c : Nat) (s : State) : Host.Outcome State Fault Refusal :=
  .next (s.axisDesc n r c 7 fun k =>
    let m := k.inForce Reg.PLT_DIS_CFG_DIS_MODE
    let ok := k.axisIn [axOff, axArmed, axRun, axDerate, axCatch, axTest, axSafe] && !k.splitOrHand && !(k.axis = axTest && k.testFailed) &&
      !(k.axis = axSafe && k.prt.discharge.isSome) && !(match k.prt.discharge with | some d => d.ramping | none => false)
    k.axisCmd r c (firstCause [(!ok, 1), (k.pairedFollower || (k.axisIn [axOff] && k.pairRefuses), 5), (m = 0, 7), (!s.cfgInForce, 8), (m = 2 && !k.carrierRuns, 9)]) fun k =>
      (k.dischargeFrom false).injectionRelease)

/-- R307: the conditions of the package and of the stake's `FAULTIN` ball that may keep a fault from being cleared. -/
def State.held (s : State) (faultin : Bool) : Held := ⟨s.cfgInForce, faultin⟩

/-- AXIS_CLEAR (R262, R275, R276, R282, R288, R293, R306, R307, R354). `faultin` is the level of the stake's `FAULTIN` ball. -/
def execAxisClear (n r c : Nat) (s : State) (faultin : Bool := false) : Host.Outcome State Fault Refusal :=
  .next (s.axisDesc n r c 8 fun k => k.axisCmd r c (firstCause [(k.pairedFollower, 5)]) fun k => k.clearAxis (s.held faultin))

/-- AXIS_RECOVER (R161, R197, R262, R282, R288, R289, R303, R307, R308, R354): the clear stands even where the command is then refused. A
discharge runs on to its end, without a hold of its own. -/
def execAxisRecover (n r c : Nat) (s : State) (faultin : Bool := false) : Host.Outcome State Fault Refusal :=
  .next (s.axisDesc n r c 9 fun k =>
    if k.axis ≠ axSafe then k.axisRefuse r c 1
    else if k.pairedFollower then k.axisRefuse r c 5
    else
      let k := (k.clearFaults (s.held faultin)).clearPorts
      let cause := firstCause [(k.stopActive, 2), (!(k.clock 0).valid, 4), (k.portsBad [0, 1, 2], 3), (k.pairRefuses, 5)]
      k.axisCmd r c cause fun k =>
        ((k.onPrt fun p => { p with discharge := p.discharge.map fun d => { d with holding := false } }).endEpisode.release).enterRun)

/-- STOP_COMPLETE (R288, R465): |T*| = 0 and the band LOW. -/
def execStopComplete (n : Nat) (s : State) : Host.Outcome State Fault Refusal :=
  .next (s.onStake n fun k =>
    let k' := k.refreshBand
    let ramping : Bool := match k.prt.discharge with | some d => d.ramping | none => false
    if k.flag Reg.PLT_AXIS_STATE_STOP_PENDING && k.axisIn [axRun, axDerate] && !ramping && k.fe.tStar = 0 && k'.prt.band = 0 then
      (k'.leaveSwitching).setAxis axArmed 0
    else k)

/-- CHOPPER_CHECK_TIMEOUT (R202, R292, R293): `T_CHK` after the episode's first HS_ON. -/
def execChopperCheckTimeout (n : Nat) (s : State) : Host.Outcome State Fault Refusal :=
  .next (s.onStake n fun k => match k.prt.check with
    | some (some t, _) =>
      if k.now < t + 400 * k.inForce Reg.PLT_CHOP_CFG_T_CHK then k
      else
        let k := (k.onPrt fun p => { p with check := none }).post .chopperFault 1
          [word (k.chan (k.inForce Reg.PLT_CHOP_CFG_CHOP_CH)).y, k.prt.udc.toNat]
        k.auxRequest.clampUpd k.prt.udc
    | _ => k)

/-- TMON_WINDOW_TIMEOUT (R299, R300): the torque window has gone `T_WIN` without an update, in any state of the axis (log 192). -/
def execTmonWindowTimeout (n : Nat) (s : State) : Host.Outcome State Fault Refusal :=
  .next (s.onStake n fun k =>
    let t := k.prt.winAt.getD 0
    if k.inForceB Reg.PLT_TMON_CTRL_EN && !k.prt.winStale && !k.vote.halted && !k.vote.resync &&
        t + 400000 * k.inForce Reg.PLT_TMON_CTRL_T_WIN ≤ k.now then
      (k.onPrt fun p => { p with winStale := true }).post .tmonWinStale 2 [k.now - t]
    else k)

/-- R301: the freshness timer has run for a number of milliseconds, in a state in which it counts; a paired follower has none of its
own (R212, R222 item 2). -/
def Stake.freshOver (k : Stake) (ms : Nat) : Bool :=
  k.axisIn [axRun, axDerate, axCatch] && !k.pairedFollower && k.prt.freshAt + 400000 * ms ≤ k.now

/-- HOST_FRESH_TIMEOUT (R301, R312). -/
def execHostFreshTimeout (n : Nat) (s : State) : Host.Outcome State Fault Refusal :=
  .next (s.onStake n fun k =>
    if k.freshOver (k.inForce Reg.PLT_FRESH_T_FRESH) && k.fld Reg.PLT_AXIS_STATE_FRESH = 0 then
      ((k.put Reg.PLT_AXIS_STATE_FRESH 1).bump Reg.PLT_FRESH_CNT).post .hostStale 2 [k.inForce Reg.PLT_FRESH_T_FRESH]
    else k)

/-- R301, R319: stake 1 can serve a stake with fallback commands. -/
def State.fallbackServed (s : State) (n : Nat) : Bool :=
  let k := s.stake 1
  s.inService 1 && k.flag Reg.FLD_FB_CTRL_EN && k.fld Reg.PLT_VOTE_STATUS_MODE ≠ 2 && (k.fld Reg.FLD_FB_CTRL_TARGETS).testBit n

/-- HOST_LOSS_TIMEOUT (R301, R302, R312): stage 2 where fallback is possible, else stage 3. -/
def execHostLossTimeout (n : Nat) (s : State) : Host.Outcome State Fault Refusal :=
  .next (s.onStake n fun k =>
    let st := k.fld Reg.PLT_AXIS_STATE_FRESH
    if !k.freshOver (k.inForce Reg.PLT_FRESH_T_LOSS) || st = 3 then k
    else if !k.flag Reg.PLT_AXIS_STATE_FALLBACK && k.inForceB Reg.PLT_FRESH_FB_PERMIT && s.fallbackServed n then
      let k := ((k.put Reg.PLT_AXIS_STATE_FRESH 2).putB Reg.PLT_AXIS_STATE_FALLBACK true).refreshHost
      (k.onFe fun f => { f with fb := none }).post .hostLoss 0 [1]
    else (k.put Reg.PLT_AXIS_STATE_FRESH 3).post .hostLoss 3 [0])

/-- R303, R323: `DISCH_REQ` on one stake. A split plait of a TRN8 first returns to voting; a split stake of another part only counts the
time. -/
def Stake.dischReq (k : Stake) : Stake :=
  if !k.inForceB Reg.PLT_DIS_CFG_REQ_EN || k.inForce Reg.PLT_DIS_CFG_DIS_MODE = 0 || k.axis = axNotReady then k
  else if k.splitOrHand then
    if k.ringN = 8 then
      let k := { k with vote := { k.vote with dischDue := true } }
      if k.fld Reg.PLT_VOTE_STATUS_MODE = 2 then
        { k.put Reg.PLT_VOTE_STATUS_MODE 3 with vote := { k.vote with handover := some ⟨false, none⟩ } }
      else k
    else if k.prt.discharge.isSome then k
    else k.onPrt fun p =>
      { p with discharge := some { mode := k.inForce Reg.PLT_DIS_CFG_DIS_MODE, start := k.now, byReq := true, unserved := true } }
  else
    let ramping : Bool := match k.prt.discharge with | some d => d.ramping | none => false
    let k := k.dischargeFrom true
    (if ramping then k.dischargeAct else k).injectionRelease

/-- DISCH_REQ_ASSERT (R288, R290, R303, R304, R323): the ball has been asserted for a number of ticks; from 10 µs on it reaches every
stake. -/
def execDischReqAssert (s : State) (held : Nat := 4000) : Host.Outcome State Fault Refusal :=
  .next (if held < 4000 then s else s.onAll Stake.dischReq)

/-- DISCHARGE_TIME_LIMIT (R304, R305, R323): an injection that SAFE keeps from running ends as incomplete. -/
def execDischargeTimeLimit (n : Nat) (s : State) : Host.Outcome State Fault Refusal :=
  .next (s.onStake n fun k => match k.prt.discharge with
    | none => k
    | some d =>
      if d.late || k.now < d.start + 400000 * k.inForce Reg.PLT_DIS_TIME_T_DIS_MAX then k
      else
        let idle := d.unserved || (d.mode = 2 && k.axis ≠ axDischarge && !d.ramping)
        let k := k.onPrt fun p => { p with discharge := if idle then none else some { d with late := true } }
        k.post .dischargeIncomplete 1 [k.prt.udc.toNat, d.mode])

/-- FAULTIN_ASSERT (R279, R312): the ball has been asserted for a number of ticks; `FI_FILT` counts RC cycles of 25 ns, 10 ticks. -/
def execFaultinAssert (n : Nat) (s : State) (held : Nat := 2550) : Host.Outcome State Fault Refusal :=
  .next (s.onStake n fun k =>
    if !k.inForceB Reg.PLT_PS_SRC_FI_EN || held < 10 * k.inForce Reg.PLT_PS_SRC_FI_FILT then k
    else if k.inForceB Reg.PLT_PS_SRC_FI_CLASS then (k.post .faultinAssert 4).trip 5
    else k.postF .faultinAssert 3 [] (k.inForce Reg.PLT_PS_SRC_FI_STATE))

/-- PLT_APPLY (R294, R310, R312): a write of `PLT_PR_CTRL` with `APPLY`. -/
def execPltApply (n : Nat) (src : Src) (w : Reg32) (s : State) : Host.Outcome State Fault Refusal :=
  .next (s.stakeWrite src n Reg.PLT_PR_CTRL w fun k => if w.getLsbD 0 then k.wPrCtrl w else k)

end Sys2Proof.Machine
end

