-- ==== Sys2Proof/Machine/Streams.lean ====
section
/-! DEFINITION. The stream packer, its registers, and the buffers the host posts (R359, R371 to R376). -/
namespace Sys2Proof.Machine

/-- A stream, and a change of it. -/
def Stake.strm (k : Stake) (i : Nat) : Strm := nth {} k.str i
def Stake.onStrm (k : Stake) (i : Nat) (f : Strm → Strm) : Stake := { k with str := updAt k.str i f }

/-- The whole packets of a stream's FIFO, the one being moved included. -/
def Strm.packets (s : Strm) : List Packet := s.moving.toList ++ s.whole

/-- Words stored in a stream's FIFO. -/
def Strm.stored (s : Strm) : Nat :=
  (s.packets.map fun p => p.words.length).foldl (· + ·) 0 + (match s.packing with | some (p, _) => p.words.length | none => 0)

/-- R373: `WORDS` and `PACKETS` of a stream's status. -/
def Stake.strSync (k : Stake) (i : Nat) : Stake :=
  (k.put (Reg.STR_STREAM_STATUS_WORDS i) (k.strm i).stored).put (Reg.STR_STREAM_STATUS_PACKETS i) (k.strm i).packets.length

/-- R372: the packet being built closes. -/
def Strm.close (s : Strm) : Strm :=
  match s.packing with
  | some (p, _) => { s with packing := none, whole := s.whole ++ [p] }
  | none => s

/-- R371: an item is dropped whole; the packet being built closes. -/
def Stake.strDrop (k : Stake) (i : Nat) : Stake :=
  (((k.onStrm i fun s => { s.close with drops := s.drops + 1 }).bump31 (Reg.STR_STREAM_DROP_CNT i)).putB (Reg.STR_STREAM_STATUS_FULL i) true).strSync i

/-- R371, R372, R375: an item reaches the packer of its stream. -/
def Stake.strItem (k : Stake) (o : Offer) : Stake :=
  let i := o.stream
  if 16 ≤ i || !k.inForceB (Reg.STR_STREAM_CFG_EN i) then k
  else
    let n := o.words.length
    let room := k.inForce (Reg.STR_STREAM_CFG_FIFO_KIB i) * 128
    let lim := k.inForce (Reg.STR_STREAM_CFG_PKT_WORDS i)
    let s := k.strm i
    let fits := fun (p : Packet) => p.source = o.source && p.content = o.content && p.words.length + n ≤ lim
    if room < s.stored + n then k.strDrop i
    else
      let joined : Option Packet := match s.packing with
        | some (p, _) => if fits p then some { p with words := p.words ++ o.words } else none
        | none => none
      match joined with
      | some p =>
        let k := (k.onStrm i fun s => { s with packing := s.packing.map fun x => (p, x.2) }).putB (Reg.STR_STREAM_STATUS_FULL i) false
        (if lim ≤ p.words.length then k.onStrm i Strm.close else k).strSync i
      | none =>
        let s' := s.close
        if 256 ≤ s'.packets.length then k.strDrop i
        else
          let seq := k.fld (Reg.STR_STREAM_SEQ_SEQ i)
          let p : Packet :=
            { seq := seq, drop := min s'.drops 65535, dropSat := 65535 < s'.drops, flushed := s'.flushNext, first := s'.firstNext,
              source := o.source, content := o.content, tick := k.ang.tick, words := o.words }
          let k := k.onStrm i fun _ => { s' with packing := some (p, k.now), drops := 0, flushNext := false, firstNext := false }
          let k := (k.put (Reg.STR_STREAM_SEQ_SEQ i) ((seq + 1) % 65536)).putB (Reg.STR_STREAM_STATUS_FULL i) false
          (if lim ≤ n then k.onStrm i Strm.close else k).strSync i

/-- R374: the stored words are discarded; the next packet carries `FLUSHED`. -/
def Stake.strFlush (k : Stake) (i : Nat) : Stake :=
  ((k.onStrm i fun s => { s with packing := none, whole := [], flushNext := true }).putB (Reg.STR_STREAM_STATUS_FULL i) false).strSync i

/-- R372, R376: a stream's `EN` in force changes. -/
def Stake.strEnable (k : Stake) (i : Nat) (on : Bool) : Stake :=
  let was := k.inForceB (Reg.STR_STREAM_CFG_EN i)
  let f := Reg.STR_STREAM_CFG_EN i
  let k := k.wrAct f.off (f.put (k.rdAct f.off) (if on then 1 else 0))
  if on && !was then ((k.onStrm i fun x => { moving := x.moving }).put (Reg.STR_STREAM_SEQ_SEQ i) 0).strSync i
  else if was && !on then (k.onStrm i Strm.close).strSync i
  else k

/-- R376: the FIFO sum of the streams that a choice of words would enable. -/
def fifoSum (w : Nat → BitVec 32) : Nat :=
  (List.range 16).foldl (fun a i =>
    if (Reg.STR_STREAM_CFG_EN i).of (w i) = 1 then a + (Reg.STR_STREAM_CFG_FIFO_KIB i).of (w i) else a) 0

/-- R376: a refused `APPLY`, or one a TUNE write stands for. -/
def Stake.strRefuse (k : Stake) (sum : Nat) : Stake := (k.putB Reg.STR_CTRL_CFG_REFUSED true).post .strCfgRefused 0 [sum]

/-- R376: `APPLY`. -/
def Stake.strApply (k : Stake) : Stake :=
  let sum := fifoSum fun i => k.rd (Reg.STR_STREAM_CFG i)
  if 256 < sum then k.strRefuse sum
  else (List.range 16).foldl (fun q i =>
    let w := q.rd (Reg.STR_STREAM_CFG i)
    if w = q.rdAct (Reg.STR_STREAM_CFG i) then q
    else
      let on := (Reg.STR_STREAM_CFG_EN i).of w = 1
      let was := q.inForceB (Reg.STR_STREAM_CFG_EN i)
      let q := (q.strFlush i).strEnable i on
      let q := if on && !was then q.onStrm i fun s => { s with flushNext := false } else q
      q.wrAct (Reg.STR_STREAM_CFG i) w) k

/-- A write of `STR_CTRL`. -/
def Stake.wStrCtrl (k : Stake) (w : Reg32) : Stake :=
  let k := k.store Reg.STR_CTRL w
  if w.getLsbD 0 then k.strApply else k

/-- STREAM_ITEM (R371, R372, R375): the oldest item offered on a stake enters the packer. -/
def execStreamItem (n : Nat) (s : State) : Host.Outcome State Fault Refusal :=
  .next (s.onStake n fun k => match k.offers with
    | [] => k
    | o :: t => ({ k with offers := t } : Stake).strItem o)

/-- PKT_TIMEOUT (R372). -/
def execPktTimeout (n i : Nat) (s : State) : Host.Outcome State Fault Refusal :=
  .next (s.onStake n fun k => match (k.strm i).packing with
    | some (_, t) => if t + 400 * k.inForce (Reg.STR_STREAM_CFG_PKT_TIMEOUT i) ≤ k.now then (k.onStrm i Strm.close).strSync i else k
    | none => k)

/-- STREAM_FLUSH (R374): a write of `STR_STREAMn_CMD` with `FLUSH`. -/
def execStreamFlush (n : Nat) (src : Src) (i : Nat) (w : Reg32) (s : State) : Host.Outcome State Fault Refusal :=
  .next (s.stakeWrite src n (Reg.STR_STREAM_CMD i) w fun k => if w.getLsbD 0 && i < 16 then k.strFlush i else k)

/-- STR_APPLY (R376): a write of `STR_CTRL` with `APPLY`. -/
def execStrApply (n : Nat) (src : Src) (w : Reg32) (s : State) : Host.Outcome State Fault Refusal :=
  .next (s.stakeWrite src n Reg.STR_CTRL w fun k => if w.getLsbD 0 then k.wStrCtrl w else k)

/-- R359: the oldest posted buffer of a pair closes. -/
def State.bufClose (s : State) (r status : Nat) (timeout : Bool) : State :=
  match (s.ring r).bufs with
  | [] => s
  | b :: t =>
    let info := (if timeout then 1 else 0) + (if b.flushed then 2 else 0) + (if b.drops ≠ 0 then 4 else 0)
    (s.onRing r fun q => { q with bufs := t }).finish
      { ring := r, cid := b.cid, op := 0x20, status := status, info := info,
        result := bytesN 4 b.used ++ bytesN 2 b.packets ++ bytesN 2 b.firstSeq ++ bytesN 2 b.drops ++ List.replicate 6 0 }

/-- R359, R362: every posted buffer of a pair closes. -/
def State.bufCloseAll (s : State) (r status : Nat) : State :=
  (List.range (s.ring r).bufs.length).foldl (fun s _ => s.bufClose r status false) s

/-- R375: a packet as it lies in host memory. -/
def Packet.bytes (p : Packet) (stake stream : Nat) : List Nat :=
  let body := p.words.flatMap (bytesN 6)
  bytesN 2 p.seq ++ bytesN 2 p.drop ++
    [stream * 16 + stake, (if p.flushed then 1 else 0) + (if p.dropSat then 2 else 0) + (if p.first then 4 else 0), p.source, p.content] ++
    bytesN 6 p.tick.toNat ++ bytesN 2 p.words.length ++ body ++ List.replicate ((8 - body.length % 8) % 8) 0

/-- STREAM_BUF (R350, R359): a checked STREAM_BUF of pair r posts its buffer. -/
def execStreamBuf (r : Nat) (s : State) : Host.Outcome State Fault Refusal :=
  .next (match s.takeDesc r 0x20 with
    | none => s
    | some (d, s) =>
      if !s.alive (s.ringStake r) then s.finish { ring := r, cid := d.cid, op := 0x20, status := 10 }
      else s.onRing r fun q =>
        { q with bufs := q.bufs ++ [{ cid := d.cid, addr := leOf d.body 8 8, len := leOf d.body 16 4, timeout := leOf d.body 20 2 }] })

/-- STREAM_BUF_TIMEOUT (R359). -/
def execStreamBufTimeout (r : Nat) (s : State) : Host.Outcome State Fault Refusal :=
  .next (match (s.ring r).bufs with
    | b :: _ => (match b.firstAt with
      | some t => if b.timeout ≠ 0 && t + 4000 * b.timeout ≤ s.time then s.bufClose r 0 true else s
      | none => s)
    | [] => s)

/-- The words of a packet in payloads of eight. -/
def packetCells : Nat → List Nat → List (List Nat)
  | 0, _ => []
  | f + 1, l => if l.isEmpty then [] else l.take 8 :: packetCells f (l.drop 8)

/-- R359, R373: buffers of a pair that the next packet does not fit in close, until one has room for its bytes. -/
def State.findRoom : Nat → Nat → Nat → State → State
  | 0, _, _, s => s
  | f + 1, r, len, s =>
    match (s.ring r).bufs with
    | [] => s
    | b :: _ => if b.len < b.used + len then State.findRoom f r len (s.bufClose r 0 false) else s

/-- STREAM_PACKET_REQUEST (R26, R359, R373): the DMA engine asks for the oldest whole packet of a pair's stream, one at a time, once a
posted buffer has room for it and the request slot is the pair's; the packet starts on its way in `KIND` 5 cells. -/
def execStreamPacketRequest (r : Nat) (s : State) : Host.Outcome State Fault Refusal :=
  .next (
    let n := s.ringStake r
    let i := s.pkg.fld (Reg.HIF_RING_STREAM r)
    if s.nextSlot ≠ some r || !s.packetWaits r then s
    else match ((s.stake n).strm i).whole with
      | [] => s
      | p :: rest =>
        let s := s.findRoom ((s.ring r).bufs.length + 1) r (p.bytes n i).length
        if (s.ring r).bufs.isEmpty || ((s.stake n).strm i).moving.isSome then s
        else
          let s := (s.onHost fun h => { h with inbound := h.inbound ++ [r] }).servedNow r
          s.onStake n fun k =>
            let k := k.onStrm i fun x => { x with whole := rest, moving := some p }
            if n = 0 then k else (packetCells 30 p.words).foldl (fun k w => k.sendCell (k.cell 0 2 5 (16 * i + n) w)) k)

/-- A packet lies in the FIFO of a pair's stream until it has been moved; a pair that is gone leaves it there. -/
def State.returnPacket (s : State) (r : Nat) : State :=
  if !s.pkg.host.inbound.contains r then s
  else (s.onHost fun h => { h with inbound := h.inbound.filter fun x => x ≠ r }).onStake (s.ringStake r) fun k =>
    k.onStrm (s.pkg.fld (Reg.HIF_RING_STREAM r)) fun x => { x with whole := x.packets, moving := none }

/-- R359, R373, R375: the packet asked for is placed in the pair's buffer and its words are released. -/
def State.placePacket (s : State) (r : Nat) : State :=
  let n := s.ringStake r
  let i := s.pkg.fld (Reg.HIF_RING_STREAM r)
  match ((s.stake n).strm i).moving with
  | none => s.returnPacket r
  | some p =>
    let bytes := p.bytes n i
    let s := s.findRoom ((s.ring r).bufs.length + 1) r bytes.length
    match (s.ring r).bufs with
    | [] => s.returnPacket r
    | b :: t =>
      let b' : Buf :=
        { b with
          used := b.used + bytes.length
          packets := b.packets + 1
          firstSeq := if b.packets = 0 then p.seq else b.firstSeq
          drops := min 65535 (b.drops + p.drop)
          flushed := b.flushed || p.flushed
          firstAt := some (b.firstAt.getD s.time) }
      let s := (s.hostWrite (b.addr + b.used) bytes).charge 2 ((bytes.length + 63) / 64)
      let s := s.onRing r fun q => { q with bufs := b' :: t }
      let s := s.onHost fun h => { h with inbound := h.inbound.filter fun x => x ≠ r }
      s.onStake n fun k => ((k.onStrm i fun x => { x with moving := none }).putB (Reg.STR_STREAM_STATUS_FULL i) false).strSync i

/-- STREAM_PACKET_CELL (R26, R359, R373): the packet asked of stake n first has reached the DMA engine whole. -/
def execStreamPacketCell (n : Nat) (s : State) : Host.Outcome State Fault Refusal :=
  .next (match s.pkg.host.inbound.find? fun r => s.ringStake r = n with
    | some r => s.placePacket r
    | none => s)

end Sys2Proof.Machine
end

