-- ==== Sys2Proof/Machine/NvOps.lean ====
section
/-! DEFINITION. What persists across a reset: the flash slots, the rows of the eNVM with the configuration copies and the boot record, and
the OTP (R324, R325, R428, R431, R436 to R438, R441). -/
namespace Sys2Proof.Machine

/-- Changes what persists, and the start-up's state. -/
def State.onNv (s : State) (f : NvState → NvState) : State := s.onPkg fun p => { p with nv := f p.nv }
def State.onBoot (s : State) (f : BootSt → BootSt) : State := s.onPkg fun p => { p with boot := f p.boot }

/-- Four bytes of a list as a word, low first; bytes beyond its end are zero. -/
def lineWord (l : List Nat) (i : Nat) : BitVec 32 := BitVec.ofNat 32 (leOf l (4 * i) 4)

/-- The words of a list of bytes. -/
def wordsOf (l : List Nat) : List (BitVec 32) := (List.range ((l.length + 3) / 4)).map (lineWord l)

/-- Bytes of a store from an offset. -/
def Store.bytes (d : Nat → BitVec 32) (st : Store) (a len : Nat) : List Nat :=
  (List.range len).map fun i => (st.get d ((a + i) / 4 * 4)).toNat / 256 ^ ((a + i) % 4) % 256

/-- The words of a range read as erased. -/
def Store.erase (st : Store) (a len : Nat) : Store := st.filter fun e => e.1 < a || a + len ≤ e.1

/-- Consecutive words from an offset. -/
def Store.setWords (d : Nat → BitVec 32) (st : Store) (a : Nat) (ws : List (BitVec 32)) : Store :=
  (ws.mapIdx fun i w => (a + 4 * i, w)).foldl (fun st x => Store.set d st x.1 x.2) st

/-- SHAKE256 with an output of 256 bits: 32 bytes. -/
def digest32 (l : List Nat) : List Nat := ((Config.shake256 l).map (· % 256) ++ List.replicate 32 0).take 32

/-! The flash. -/

/-- R428, R441: what an erased word of the flash and of the eNVM reads as. -/
def flashErased (_ : Nat) : BitVec 32 := 0xFFFFFFFF

/-- Bytes of the flash from an address. -/
def NvState.flashRead (n : NvState) (a len : Nat) : List Nat := n.flash.bytes flashErased a len

/-- R428: where a slot begins. -/
def slotBase (slot : Nat) : Nat := if slot = 0 then 0 else 0x400000

/-- R428: a slot's header. -/
def NvState.header (n : NvState) (slot : Nat) : List Nat := n.flashRead (slotBase slot) 8192

/-! The eNVM of stake 0. -/

/-- R441: the eNVM of stake 0, the only one the spec gives contents. -/
def NvState.envm0 (n : NvState) : Store := nth [] n.envm 0

/-- R441: bytes of it from an offset. -/
def NvState.envmRead (n : NvState) (a len : Nat) : List Nat := n.envm0.bytes flashErased a len

/-- R441: rows are 1,536 bytes. -/
def rowLen : Nat := 1536

/-- R441: the row that begins at an offset is erased as a unit; its lines are free of errors again. -/
def NvState.eraseRow (n : NvState) (a : Nat) : NvState :=
  { n with
    envm := updAt n.envm 0 fun st => st.erase a rowLen
    badLines := n.badLines.filter fun l => l < a || a + rowLen ≤ l }

/-- R441: the row that begins at an offset is programmed as a unit; what is not given stays erased. -/
def NvState.programRow (n : NvState) (a : Nat) (l : List Nat) : NvState :=
  { n with envm := updAt (n.eraseRow a).envm 0 fun st => st.setWords flashErased a (wordsOf (l.take rowLen)) }

/-- R324: where a configuration copy begins, and the header line in the erased state. -/
def copyBase (i : Nat) : Nat := 0x18000 * i
def lineErased : List Nat := List.replicate 48 255

/-- R324, R325: what a copy reads as; the body where its `LENGTH` is in range, with the lines read. -/
def NvState.copyAt (n : NvState) (i : Nat) : CfgCopy :=
  let h := n.envmRead (copyBase i) 48
  let len := leOf h 8 4
  let body := if 1 ≤ len && len ≤ 98256 then len else 0
  { header := h
    body := n.envmRead (copyBase i + 48) body
    bad := n.badLines.any fun a => copyBase i ≤ a && a < copyBase i + 48 + body }

/-- R324: the three copies. -/
def NvState.cfg (n : NvState) : List CfgCopy := [n.copyAt 0, n.copyAt 1, n.copyAt 2]

/-- R327, R441: the row operations of one copy: the row of the header line erased (step 1) and the body's part of it programmed, each other
row of the copy erased and programmed (step 2), and the header line programmed (step 4). -/
def copyOps : Nat := 129

/-- R327: operation j of the writing of copy i. -/
def NvState.copyOp (n : NvState) (i : Nat) (c : CfgCopy) (j : Nat) : NvState :=
  let row := fun r => copyBase i + rowLen * r
  let part := fun (r : Nat) => (c.body.drop (rowLen * r - 48)).take rowLen
  if j = 0 then n.eraseRow (row 0)
  else if j = 1 then n.programRow (row 0) (lineErased ++ c.body.take (rowLen - 48))
  else if j = 128 then n.programRow (row 0) (c.header ++ c.body.take (rowLen - 48))
  else if j % 2 = 0 then n.eraseRow (row (j / 2))
  else n.programRow (row (j / 2)) (part (j / 2))

/-- R327: the first `k` operations of the writing of the copies listed, one copy after the other. -/
def NvState.copySteps (n : NvState) (l : List Nat) (c : CfgCopy) (k : Nat) : NvState :=
  (List.range (min k (copyOps * l.length))).foldl (fun n j => n.copyOp (nth 0 l (j / copyOps)) c (j % copyOps)) n

/-! The boot record. -/

/-- R441: where a copy of the boot record lies. -/
def recBase (i : Nat) : Nat := 0x48000 + 0x600 * i

/-- R431: a copy of the boot record. -/
def NvState.recAt (n : NvState) (i : Nat) : BootRec :=
  { bytes := n.envmRead (recBase i) 48, bad := n.badLines.any fun a => recBase i ≤ a && a < recBase i + 48 }

/-- R431: a copy that may be used, and its generation. -/
def BootRec.ok (r : BootRec) : Bool := !r.bad && leOf r.bytes 0 2 = 1
def BootRec.rgen (r : BootRec) : Nat := leOf r.bytes 4 8 % 281474976710656

/-- R431: the number of the copy in use. -/
def NvState.recUse (n : NvState) : Option Nat :=
  match (n.recAt 0).ok, (n.recAt 1).ok with
  | true, true => some (if (n.recAt 0).rgen < (n.recAt 1).rgen then 1 else 0)
  | true, false => some 0
  | false, true => some 1
  | false, false => none

/-- R431: the preferred slot. -/
def NvState.prefer (n : NvState) : Nat :=
  match n.recUse with
  | some i => nth 0 (n.recAt i).bytes 2 % 2
  | none => 0

/-- R433, R441: a commit erases and programs the row of the copy with the lower generation. -/
def NvState.commitSlot (n : NvState) (slot : Nat) : NvState :=
  let i := match n.recUse with | some i => 1 - i | none => 0
  let g := match n.recUse with | some i => (n.recAt i).rgen | none => 0
  let h := n.header slot
  (n.eraseRow (recBase i)).programRow (recBase i)
    (bytesN 2 1 ++ [slot, 0] ++ bytesN 8 (g + 1) ++ digest32 (h.take 3200) ++ [0, 0, 0, 0])

/-! The OTP of stake 0 (R438). -/

/-- What a word of OTP with no bit blown reads as. -/
def otpBlank (_ : Nat) : BitVec 32 := 0

/-- R438: the OTP of stake 0, its bytes and its bits; the OTP of every other stake holds its die trim alone. -/
def NvState.otp0 (n : NvState) : Store := nth [] n.otp 0
def NvState.otpRead (n : NvState) (a len : Nat) : List Nat := n.otp0.bytes otpBlank a len
def NvState.otpBit (n : NvState) (a b : Nat) : Bool := (n.otp0.get otpBlank (a + b / 32 * 4)).getLsbD (b % 32)

/-- R436: blown bits from the first one of a list on. -/
def leadingOn : List Bool → Nat
  | true :: t => leadingOn t + 1
  | _ => 0

/-- R436, R438: the anti-rollback counter, counted upward from bit 0. -/
def NvState.counter (n : NvState) : Nat := leadingOn ((List.range 64).map (n.otpBit 0x100))

/-- R437, R438: a customer key is enrolled; its digest. -/
def NvState.enrolled (n : NvState) : Bool := n.otpBit 0x108 0
def NvState.custDigest (n : NvState) : List Nat := n.otpRead 0x110 32

/-- R437: some of a digest is blown and the enrolled bit is not. -/
def NvState.partEnrolled (n : NvState) : Bool := !n.enrolled && n.custDigest.any (· ≠ 0)

/-- R438: serial number, sealed private key, public key, certificate. -/
def NvState.serial (n : NvState) : List Nat := n.otpRead 0 16
def NvState.sealedKey (n : NvState) : List Nat := n.otpRead 0x200 2560

/-- R436: one bit of stake 0's OTP, counted from bit 0 of its first byte, is blown. -/
def NvState.blow (n : NvState) (b : Nat) : NvState :=
  { n with otp := updAt n.otp 0 fun st => Store.set otpBlank st (b / 32 * 4) (st.get otpBlank (b / 32 * 4) ||| BitVec.ofNat 32 (2 ^ (b % 32))) }

/-- R437: the bits an enrolment blows: those set in the digest, then the enrolled bit. -/
def enrolBits (d : List Nat) : List Nat :=
  (((List.range 256).filter fun b => (nth 0 d (b / 8)).testBit (b % 8)).map (0x880 + ·)) ++ [0x840]

end Sys2Proof.Machine
end

