-- ==== Sys2Proof/Machine/SupOps.lean ====
section
/-! DEFINITION. Shared operations of supply, clocks and temperature (R403 to R420), the package reset (R333, R423) and what persists
across it. -/
namespace Sys2Proof.Machine

/-! The supply. -/

/-- R405: no new operation of the eNVM starts. -/
def State.inhibited (s : State) : Bool := (s.stake 0).flag Reg.SUP_STATUS_INHIBIT

/-- What the supply of a stake is known to be, and a change of it. -/
def State.supOf (s : State) (n : Nat) : SupSt := nth {} s.pkg.sup n
def State.onSup (s : State) (n : Nat) (f : SupSt → SupSt) : State := s.onPkg fun p => { p with sup := updAt p.sup n f }

/-- A free voltage in a window. -/
def freeMv (n rail time lo hi : Nat) : Nat := lo + Config.supplyMv n rail time % (hi - lo + 1)

/-- R403, R404: a stake's supply registers are refreshed: what a supply command has said, or a voltage in the window. -/
def State.supRefresh (s : State) (n : Nat) : State :=
  let x := s.supOf n
  let free := fun rail lo hi => freeMv n rail s.time lo hi
  s.onStake n fun k =>
    (((k.put Reg.SUP_STATUS_VSUP_MV (x.vsup.getD (free 0 3051 3700))).put Reg.SUP_RAILS_VCORE_MV (free 1 690 810)).put
      Reg.SUP_RAILS_VAUX_MV (free 2 1656 1944)).put Reg.SUP_RAILS_VANA_MV (x.vana.getD (free 3 1104 1296))

/-- R403: a supply command gives a stake's VSUP. -/
def State.supLevel (s : State) (n mv : Nat) : State :=
  (s.onSup n fun x => { x with vsup := some mv }).onStake n fun k => k.put Reg.SUP_STATUS_VSUP_MV mv

/-- R403: the readings of the supply are refreshed every 100 µs; the model counts them from the release of reset. -/
def State.tickSupply (s : State) : State :=
  if (s.time - s.pkg.boot.releasedAt) % 40000 ≠ 0 then s else (List.range s.part.stakes).foldl State.supRefresh s

/-- R407: the package is held in reset: supply conditions act on nothing but the levels. -/
def State.inReset (s : State) : Bool := s.pkg.boot.phase = .held

/-- R39, R436 to R438: registers whose reset value is the part's or the OTP's. -/
def Pkg.fromOtp (p : Pkg) (part : Part) : Pkg :=
  let view := fun (p : Pkg) (reg a words : Nat) =>
    (List.range words).foldl (fun p i => p.wr (reg + 4 * i) (p.nv.otp0.get otpBlank (a + 4 * i))) p
  let p := (p.put Reg.HIF_PKG_ID_STAKES part.stakes).put Reg.SEC_ROLLBACK_COUNTER p.nv.counter
  let p := view (p.putB Reg.SEC_BOOT_STATUS_ENROLLED p.nv.enrolled) (Reg.SEC_SERIAL 0) 0 4
  view (view p (Reg.SEC_PUBKEY 0) 0xC00 512) (Reg.SEC_CERT 0) 0x1400 320

/-- R327, R328: the eNVM after `ops` row operations of the configuration write or the rewrite in progress; a copy's header line waits for
its digest. -/
def State.cfgPartial (s : State) (ops : Nat) : NvState :=
  match s.pkg.boot.cfgOp, s.pkg.boot.rwOp with
  | some op, _ => s.pkg.nv.copySteps [0, 1, 2] op.copy (min ops (copyOps * op.digests + (copyOps - 1)))
  | none, some i => s.pkg.nv.copySteps [i] s.pkg.boot.chosen (min ops (copyOps - 1))
  | none, none => s.pkg.nv

/-- R436: the bit of the OTP that is being blown. -/
def BootSt.otpUnderWay (b : BootSt) : Option Nat :=
  match b.otpJobs with
  | j :: _ => if j.due.isSome then j.bits.head? else none
  | [] => none

/-- R333, R423: a package reset: what persists stays, and everything else is as after reset; the package is held in reset. `ops` is how
many row operations of a configuration write or rewrite have been started (R406: the last one completes, and so does a bit of the OTP). What
the host has been sent stays sent, and a free value is never the same one again; the supply is what it was, and with it the inhibit. -/
def State.packageReset (s : State) (ops : Nat) : State :=
  let nv := s.cfgPartial ops
  let nv := match s.pkg.boot.otpUnderWay with | some b => nv.blow b | none => nv
  let pkg : Pkg :=
    { nv := nv
      boot := { vsupUp := s.pkg.boot.vsupUp, perstLow := s.pkg.boot.perstLow }
      sup := s.pkg.sup
      host := { writes := s.pkg.host.writes }
      hostReads := s.pkg.hostReads
      fresh := s.pkg.fresh }
  { pending := s.pending
    part := s.part
    stakes := (List.range 8).map fun i =>
      { (Stake.reset i).putB Reg.SUP_STATUS_INHIBIT ((s.stake i).flag Reg.SUP_STATUS_INHIBIT) with
        ringN := s.part.stakes, fresh := (s.stake i).fresh }
    pkg := pkg.fromOtp s.part }

/-! Blowing bits of the OTP (R436, R437). -/

/-- R436: one program of a bit takes at most 10 µs; the model takes all of it (log 197). -/
def otpTime : Nat := 4000

/-- R436: an advance waits for supply, and says so once. -/
def State.otpDefer (s : State) : State :=
  let s := s.onPkg fun p => p.putB Reg.SEC_ROLLBACK_DEFERRED true
  if s.pkg.boot.deferSaid then s else (s.onBoot fun b => { b with deferSaid := true }).postPkg .secRollbackDefer 0 []

/-- R436, R437: the next bit of the job at the front is begun, or waits. -/
def State.otpBegin (s : State) : State :=
  match s.pkg.boot.otpJobs with
  | [] => s
  | j :: t =>
    let set := fun (s : State) d => s.onBoot fun b => { b with otpJobs := { j with due := d } :: t }
    if s.inhibited then (if j.enrol then id else State.otpDefer) (set s none)
    else (if j.enrol then id else fun (s : State) => s.onPkg fun p => p.putB Reg.SEC_ROLLBACK_DEFERRED false) (set s (some (s.time + otpTime)))

/-- R436, R437: bits are to be blown. -/
def State.otpAsk (s : State) (j : OtpJob) : State :=
  let s := s.onBoot fun b => { b with otpJobs := b.otpJobs ++ [j] }
  if s.pkg.boot.otpJobs.length = 1 then s.otpBegin else s

/-- R436, R437: the last bit of a job is blown. -/
def State.otpDone (s : State) (j : OtpJob) : State :=
  if j.enrol then s.postPkg .secEnrolled 0 else s.postPkg .secRollbackAdvance 0 [j.old, s.pkg.nv.counter]

/-- R436, R437: one tick of the blowing of bits; the registers follow the OTP. -/
def State.tickOtp (s : State) : State :=
  match s.pkg.boot.otpJobs with
  | [] => s
  | j :: t =>
    match j.due, j.bits with
    | none, _ => if s.inhibited then s else s.otpBegin
    | some _, [] => s.onBoot fun b => { b with otpJobs := t }
    | some at_, b :: bs =>
      if s.time < at_ then s
      else
        let s := (s.onNv fun n => n.blow b).onPkg fun p =>
          (p.put Reg.SEC_ROLLBACK_COUNTER p.nv.counter).putB Reg.SEC_BOOT_STATUS_ENROLLED p.nv.enrolled
        match bs with
        | [] => ((s.onBoot fun x => { x with otpJobs := t }).otpDone j).otpBegin
        | _ => (s.onBoot fun x => { x with otpJobs := { j with bits := bs } :: t }).otpBegin

/-- R436: at READY, the advance of the anti-rollback counter by an image with `ADVANCE` and a higher `SVN`: the bits from the counter up to
`SVN`. -/
def State.rollbackAdvance (s : State) : State :=
  let h := s.pkg.boot.running
  let svn := leOf h 6 2
  let old := s.pkg.nv.counter
  if !(nth 0 h 12).testBit 0 || svn ≤ old then s
  else s.otpAsk { bits := (List.range (min 64 svn - old)).map (0x800 + old + ·), due := none, enrol := false, old := old }

/-! The end of an eNVM operation in progress. -/

/-- R440: what asked for a configuration digest has ended: those that wait go, and one in progress is of no use. -/
def State.cfgDrop (s : State) (w : CfgWork) : State :=
  s.onBoot fun b =>
    { b with
      sealQ := b.sealQ.filter (· ≠ .cfg w)
      sealOp := b.sealOp.map fun x => if x.1 = .cfg w then (.cfg .ended, x.2) else x }

/-- R328: a rewrite in progress stops after `ops` row operations. -/
def State.rewriteStop (s : State) (ops : Nat) : State :=
  if s.pkg.boot.rwOp.isNone then s
  else
    let nv := s.cfgPartial ops
    ((s.onNv fun _ => nv).cfgDrop .rewrite).onBoot fun b => { b with rwOp := none }

/-- R327, R328, R405: the inhibit ends a configuration write in progress after `ops` row operations, and a rewrite, which waits. -/
def State.cfgInhibited (s : State) (ops : Nat) : State :=
  match s.pkg.boot.cfgOp with
  | none => s.rewriteStop ops
  | some op =>
    let nv := s.cfgPartial ops
    let s := ((s.onNv fun _ => nv).cfgDrop .write).onBoot fun b => { b with cfgOp := none }
    s.finish { ring := op.ring, cid := op.cid, op := 0x30, status := 4, info := 2 }

/-! Temperature. -/

/-- ln 2 in units of 2^-80. -/
def ln2_80 : Int := 837963523372001241319907

/-- 2·artanh(z) by its odd series, in units of 2^-80: term z^(2i+1), next odd divisors. -/
def artanhSum : List Nat → Int → Int → Int → Int
  | [], _, _, s => 2 * s
  | d :: t, z2, term, s => let q := term * z2 / 2 ^ 80; artanhSum t z2 q (s + q / d)

/-- Natural logarithm of a/b in units of 2^-80, for positive a and b: the power of two apart, then the series. -/
def lnRatio (a b : Nat) : Int :=
  let e : Int := (Nat.log2 a : Int) - Nat.log2 b
  let (n, d) := if 0 ≤ e then (a, b * 2 ^ e.toNat) else (a * 2 ^ (-e).toNat, b)
  let z : Int := ((n : Int) - d) * 2 ^ 80 / ((n : Int) + d)
  e * ln2_80 + artanhSum ((List.range 30).map fun i => 2 * i + 3) (z * z / 2 ^ 80) z z

/-- R413: a diode's reading in 1/16 °C: ΔV × q / (ETA × k_B × ln 10) − 273.15 °C; q/(k_B ln 10) is 5039.7781853 K/V. -/
def diodeTemp (dv eta : Nat) : Int :=
  divNear (16 * ((dv : Int) * 50397781853 * 16384) - 437040 * (eta : Int) * 10000000000000000 / 100) (max 1 (eta * 10000000000000000))

/-- R413: a thermistor's reading in 1/16 °C, from V(TSk), VSUP, `RBIAS`, `R25` and `B`. -/
def ntcTemp (v vsup rbias r25 b : Nat) : Int :=
  let l := lnRatio (rbias * v) (r25 * (vsup - v))
  let one : Int := 2 ^ 80
  let den : Int := 100 * one * b + 29815 * l
  let num : Int := 29815 * one * b
  divNear (100 * 16 * num - 437040 * den) (100 * den).toNat

/-- R413: an open or short remote input. -/
def thmOpen (raw : ThmRaw) : Bool :=
  match raw with
  | .diode _ v10 v100 => 2800 < v10 || v100 < 150
  | .ntc v vsup => 995 * vsup < 1000 * v || 1000 * v < 2 * vsup
  | _ => false

/-- R415: the ports whose telemetry sensor 5 takes, and their greatest report. -/
def Stake.moduleTemp (k : Stake) : Option Int :=
  let l := ([0, 1, 2, 3].filter fun p => k.link p = 3 && (k.lport p).tempSeen).map fun p => k.sfld (Reg.LEG_PORT_TEMP_MODULE p)
  match l with | [] => none | a :: t => some (t.foldl max a)

/-- R413, R414: the reading of a sensor in 1/16 °C; none where sensor 5 has no port to take it from. -/
def Stake.thmReading (k : Stake) (i : Nat) (raw : ThmRaw) : Option Int :=
  let t : Option Int := match raw with
    | .module => k.moduleTemp
    | .die t => some t
    | .diode dv _ _ => some (if thmOpen raw then 32767 else diodeTemp dv (k.fld (Reg.THM_SENS_BIAS_ETA i)))
    | .ntc v vsup => some (if thmOpen raw || v = 0 || vsup ≤ v then 32767 else
        ntcTemp v vsup (k.fld (Reg.THM_SENS_BIAS_RBIAS i)) (max 1 (k.fld (Reg.THM_SENS_NTC_R25 i))) (k.fld (Reg.THM_SENS_NTC_B i)))
  t.map (clampI (-32768) 32767)

/-- A sensor's state, and a change of it. -/
def Stake.thmSt (k : Stake) (i : Nat) : ThmSt := nth {} k.thm i
def Stake.onThm (k : Stake) (i : Nat) (f : ThmSt → ThmSt) : Stake := { k with thm := updAt k.thm i f }

/-- Whether a sensor's limit is enforced. -/
def Stake.enforced (k : Stake) (i : Nat) : Bool := (k.fld Reg.THM_STATUS_ENFORCED).testBit i

/-- R418: the limit in force follows the enforced sensors, and a paired follower tells its leader. -/
def Stake.thmSync (k : Stake) (mask : Nat) : Stake :=
  let l := ((List.range 6).filter fun i => mask.testBit i).map fun i => (k.thmSt i).limit
  let v := match l with | [] => 0 | a :: t => t.foldl min a
  let was := k.fld Reg.THM_STATUS_I_THERM
  let k := ((k.put Reg.THM_STATUS_ENFORCED mask).put Reg.THM_STATUS_I_THERM v).updDerate
  if v ≠ was && k.pairedFollower then k.toPartner 0xFFFF [v] else k

/-- R418: a sensor's limit is enforced. -/
def Stake.thmEnforce (k : Stake) (i : Nat) : Stake :=
  ((k.onThm i fun x => { x with grace := none }).thmSync (k.fld Reg.THM_STATUS_ENFORCED ||| 2 ^ i)).post .thmLimit 0
    [i, (k.thmSt i).limit]

/-- R418: the throttle level is left. -/
def Stake.thmRelease (k : Stake) (i : Nat) : Stake :=
  let on := k.enforced i || (k.thmSt i).grace.isSome
  let k := (k.onThm i fun x => { x with grace := none }).thmSync (k.fld Reg.THM_STATUS_ENFORCED &&& (63 - 2 ^ i))
  if on then k.post .thmRelease 0 [i] else k

/-- R417: a level is entered at or above its threshold and left below the threshold less the hysteresis. -/
def thmLevel (was : Bool) (t thr hyst : Int) : Bool := if was then thr - hyst ≤ t else thr ≤ t

/-- R414 to R419: a reading of a sensor is evaluated. -/
def Stake.thmEval (k : Stake) (i : Nat) (t : Int) : Stake :=
  let broken := t = 32767
  let wasBroken := k.flag (Reg.THM_SENS_READ_BROKEN i)
  let x := k.thmSt i
  let hyst : Int := k.fld (Reg.THM_SENS_SHUT_HYST i)
  let throttle := k.sfld (Reg.THM_SENS_THR_THROTTLE i)
  let shut := thmLevel x.shut t (k.sfld (Reg.THM_SENS_SHUT_SHUTDOWN i)) hyst
  let thr := thmLevel x.throttle t throttle hyst
  let warn := thmLevel x.warn t (k.sfld (Reg.THM_SENS_THR_WARN i)) hyst
  let k := ((k.putI (Reg.THM_SENS_READ_TEMP i) t).putB (Reg.THM_SENS_READ_BROKEN i) broken).putB (Reg.THM_SENS_READ_FAST i) (throttle - 160 ≤ t)
  let k := k.put (Reg.THM_SENS_READ_LEVEL i) (if shut then 3 else if thr then 2 else if warn then 1 else 0)
  let k := k.onThm i fun x => { x with warn := warn, throttle := thr, shut := shut, limit := k.fld (Reg.THM_SENS_CFG_I_THR i), seen := true }
  let k := if k.enforced i then k.thmSync (k.fld Reg.THM_STATUS_ENFORCED) else k
  let k := if broken && !wasBroken then k.post .thmSensorBroken 0 [i] else k
  let k := if shut && !x.shut then k.post .thmShutdown 3 [i, (t % 65536).toNat] else k
  let k := if thr && !x.throttle then
      let g := k.fld (Reg.THM_SENS_CFG_GRACE i)
      let k := (k.onThm i fun x => { x with grace := some (k.now + 4000000 * g) }).post .thermalRequest 0 [i, k.fld (Reg.THM_SENS_CFG_I_THR i), g]
      if g = 0 then k.thmEnforce i else k
    else if !thr && x.throttle then k.thmRelease i
    else k
  if warn ≠ x.warn then k.post .thmWarn 0 [i, (t % 65536).toNat] else k

/-- R415, R416: a sample of a sensor on the tick grid. -/
def Stake.thmSample (k : Stake) (i : Nat) (raw : ThmRaw) : Stake :=
  let every := if k.flag (Reg.THM_SENS_READ_FAST i) then 400000 else 4000000
  let fits : Bool := match raw with
    | .diode .. => i < 4 && k.fld (Reg.THM_SENS_CFG_TYPE i) = 0
    | .ntc .. => i < 4 && k.fld (Reg.THM_SENS_CFG_TYPE i) = 1
    | .die _ => i = 4
    | .module => i = 5
  if !fits || !k.flag Reg.THM_CTRL_EN || !k.flag (Reg.THM_SENS_CFG_EN i) || k.ang.tick.toNat % every ≠ 0 then k
  else match k.thmReading i raw with
    | some t => k.thmEval i t
    | none => if (k.thmSt i).seen then k else k.putI (Reg.THM_SENS_READ_TEMP i) (-32768)

/-- R416, R418: the grace timer of a sensor ends; with `THM_CTRL.EN` = 0 no limit comes into force. -/
def Stake.thmGrace (k : Stake) (i : Nat) : Stake :=
  match (k.thmSt i).grace with
  | some t => if t ≤ k.now && k.flag Reg.THM_CTRL_EN then k.thmEnforce i else k
  | none => k

/-! Clocks. -/

/-- The channels on a modulator clock output. -/
def Stake.chansOn (k : Stake) (m : Nat) : List Nat := (List.range 16).filter fun c => k.mclkOf c = m

/-- R412: a modulator clock output becomes faulty. -/
def Stake.mclkFault (k : Stake) (m : Nat) : Stake :=
  let f := Reg.CLK_STATUS_MCLK_FAULT
  if 4 ≤ m || !k.inForceB (Reg.SNS_MCLK_EN m) || (k.fld f).testBit m then k
  else
    let k := k.put f (k.fld f ||| 2 ^ m)
    let k := (k.chansOn m).foldl (fun q c =>
      ((q.putB (Reg.SNS_CH_STATUS_FILLING c) true).put Reg.SNS_STATUS_FILLED (q.fld Reg.SNS_STATUS_FILLED &&& (65535 - 2 ^ c))).onChan c
        fun x => { x with clkFault := true }) k
    (k.bump Reg.CLK_MCLK_FAULT_CNT).post .clkMclkFault (k.fld Reg.CLK_CFG_MCLK_CLASS) [m]

/-- R412: the first readback edge ends the fault; fill runs under R80. -/
def Stake.mclkEnd (k : Stake) (m : Nat) : Stake :=
  let f := Reg.CLK_STATUS_MCLK_FAULT
  if !(k.fld f).testBit m then k
  else
    let k := k.put f (k.fld f &&& (15 - 2 ^ m))
    (k.chansOn m).foldl (fun q c => q.onChan c fun x => { x with clkFault := false, fillFrom := q.now }) k

/-- R410: a window of the core-clock monitor ends with its count. Outside 340 to 460 the core clock is lost: the sequencer takes cause 7,
and the plait, the field engine and the wale port stop. -/
def Stake.clockLost (k : Stake) (count : Nat) : Stake :=
  let k := k.put Reg.CLK_STATUS_CORE_COUNT count
  if k.stopped || (340 ≤ count && count ≤ 460) then k
  else
    let k := k.trip 7
    let k := if k.id = 0 then k.react { ev := .clkLost, cls := 4, stake := 0, tick := k.ang.tick, vals := [count], eflags := 1 } false 0
      else k.post .clkLost 4 [count]
    { k with stopped := true, vote := { k.vote with halted := true } }

end Sys2Proof.Machine
end

