-- ==== Sys2Proof/Machine/WaleOps.lean ====
section
/-! DEFINITION. Shared operations of the wale: the ring, lanes and their maps, cell slots, retraining, losses (R17 to R32, R334). -/
namespace Sys2Proof.Machine

/-- Fields of a port: up, retraining, lane maps of what it sends and receives. -/
def upField (d : Dir) : Fld := match d with | .asc => Reg.WAL_STATUS_ASC_UP | .dsc => Reg.WAL_STATUS_DSC_UP
def retrainField (d : Dir) : Fld := match d with | .asc => Reg.WAL_STATUS_ASC_RETRAIN | .dsc => Reg.WAL_STATUS_DSC_RETRAIN
def txReg (d : Dir) : Nat := match d with | .asc => Reg.WAL_LANE_ASC_TX | .dsc => Reg.WAL_LANE_DSC_TX
def rxReg (d : Dir) : Nat := match d with | .asc => Reg.WAL_LANE_ASC_RX | .dsc => Reg.WAL_LANE_DSC_RX

/-- Number of bits set among the low 18. -/
def count18 (m : Nat) : Nat := ((List.range 18).filter m.testBit).length

/-- R337, `SPL_SUMMARY.WALE`: two bits per direction, spares used. -/
def Stake.walSummary (k : Stake) : Stake :=
  let used := fun (r : Nat) => min 2 (count18 (k.fld (laneFailed r)))
  k.put Reg.SPL_SUMMARY_WALE (used (txReg .asc) + 4 * used (rxReg .asc) + 16 * used (txReg .dsc) + 64 * used (rxReg .dsc))

/-- R20, R334: a lane map with its lanes out of service. -/
def Stake.laneMap (k : Stake) (r failed : Nat) : Stake :=
  ((k.put (laneFailed r) failed).put (laneSpares r) (2 - count18 failed)).walSummary

/-- Lanes mapped out of a map. -/
def Stake.lanesOut (k : Stake) (r : Nat) (l : List Nat) : Stake :=
  k.laneMap r (l.foldl (fun m i => m ||| 2 ^ (i % 18)) (k.fld (laneFailed r)))

/-- R23: a window of 1 µs. -/
def WalDir.window (w : WalDir) (now : Nat) : WalDir :=
  if w.winStart + 400 ≤ now then { w with winStart := now / 400 * 400, used := [0, 0, 0, 0] } else w

/-- R21, R23: what a cell received intact brings: its `SEQ` is acknowledged, `ACK` frees the replay buffer, credits return; the
buffer its content took is free again once the content has gone on. -/
def WalDir.link (w : WalDir) (x : LinkIn) : WalDir :=
  let freed := fun (e : Nat × Cell) => (x.ack % 1024 + 1024 - e.1) % 1024 < 512
  let w := { w with
    replay := w.replay.filter fun e => !freed e
    toReplay := w.toReplay.filter fun e => !freed e
    credits := updAt w.credits x.crClass fun c => min 32 (c + x.crCount) }
  match x.cell with
  | none => w
  | some c => { w with ack := x.seq % 1024, owed := updAt w.owed c.cls (· + 1) }

/-- R23: the class to send from: one with a cell and a credit, first within its budget, then over it. -/
def WalDir.choose (w : WalDir) (budget : Nat → Nat) : Option Nat :=
  let able := [0, 1, 2, 3].filter fun c => !(nth [] w.queues c).isEmpty && 0 < nth 0 w.credits c
  match able.find? fun c => nth 0 w.used c < budget c with
  | some c => some c
  | none => able.head?

/-- R21: the credits to return with the next cell: the first class that owes any, at most 63. -/
def WalDir.giveBack (w : WalDir) : Nat × Nat × WalDir :=
  match [0, 1, 2, 3].find? fun c => 0 < nth 0 w.owed c with
  | some c => let n := min 63 (nth 0 w.owed c); (c, n, { w with owed := updAt w.owed c (· - n) })
  | none => (0, 0, w)

/-- R23: one cell slot of a direction in service. -/
def WalDir.slot (w : WalDir) (budget : Nat → Nat) (now : Nat) : WalDir :=
  let w := w.window now
  let (cc, cn, w) := w.giveBack
  match w.toReplay with
  | (q, c) :: t => { w with toReplay := t, wire := some ⟨q, w.ack, cc, cn, some c⟩ }
  | [] =>
    match w.choose budget with
    | none => { w with wire := some ⟨w.seq, w.ack, cc, cn, none⟩ }
    | some cls =>
      match nth [] w.queues cls with
      | [] => w
      | c :: t =>
        { w with
          queues := updAt w.queues cls fun _ => t
          credits := updAt w.credits cls (· - 1)
          used := updAt w.used cls (· + 1)
          replay := w.replay ++ [(w.seq, c)]
          seq := (w.seq + 1) % 1024
          wire := some ⟨w.seq, w.ack, cc, cn, some c⟩ }

/-! The 512 bits of a cell (R21). -/

/-- Bits 511:32 of a cell, the highest first: the link fields, the header, eight payload words of 48 bits, unused ones zero. An idle cell
carries only link fields. -/
def WireCell.bits (x : WireCell) : List Bool :=
  let link := bitsOf 10 x.seq ++ bitsOf 10 x.ack ++ bitsOf 2 x.crClass ++ bitsOf 6 x.crCount ++ bitsOf 4 0
  match x.cell with
  | none => link ++ List.replicate 440 false
  | some c =>
    link ++ bitsOf 3 c.dest ++ bitsOf 3 c.src ++ bitsOf 2 c.cls ++ bitsOf 4 c.kind ++ bitsOf 4 (min 8 c.payload.length) ++ bitsOf 3 c.hops ++
      bitsOf 5 0 ++ bitsOf 16 c.tag ++ bitsOf 24 c.tickLo ++ (List.range 8).flatMap fun i => bitsOf 48 (nth 0 c.payload i)

/-- The number that bits spell, the highest first. -/
def numOf (l : List Bool) : Nat := l.foldl (fun a b => 2 * a + (if b then 1 else 0)) 0

/-- The CRC-32 of R21 over bits 511:32; its initial and final values are open. -/
def cellCrc (l : List Bool) : Nat := crc 32 0x04C11DB7 0 l ^^^ (Config.cellCrc % 4294967296)

/-- The 512 bits of a cell on the wire. -/
def WireCell.word (x : WireCell) : BitVec 512 := BitVec.ofNat 512 (numOf x.bits * 4294967296 + cellCrc x.bits)

/-- R21, R22: a cell as it arrives: none where its CRC fails; its content is the words that are valid. -/
def linkOfWord (w : BitVec 512) : Option LinkIn :=
  let f := fun (hi lo : Nat) => w.toNat / 2 ^ lo % 2 ^ (hi - lo + 1)
  if cellCrc ((List.range 480).map fun i => w.toNat.testBit (511 - i)) ≠ f 31 0 then none
  else
    let idle := f 479 32 = 0
    some { seq := f 511 502, ack := f 501 492, crClass := f 491 490, crCount := f 489 484
           cell := if idle then none else some
             { dest := f 479 477, src := f 476 474, cls := f 473 472, kind := f 471 468, tag := f 455 440, tickLo := f 439 416
               payload := (List.range (min 8 (f 467 464))).map fun i => f (415 - 48 * i) (368 - 48 * i), hops := f 463 461 } }

/-- What stands on a port's data lanes in a cell slot (R21). -/
def Stake.wireWord (k : Stake) (d : Dir) : Option (BitVec 512) := (k.dir d).wire.map WireCell.word

/-- R22, R369: the event records and completions that have come to wait on a stake go into their class queues: `KIND` 9 in class DRIVE,
`KIND` 7 in the class of the descriptor's ring. What a record's words are is the model's (log 104). -/
def Stake.inject (k : Stake) (cls : Nat → Nat) : Stake :=
  let k := if k.stopped then k else (k.onDir .asc WalDir.refill).onDir .dsc WalDir.refill
  if k.id = 0 || k.stopped then k
  else
    let evs := (k.out.drop k.wal.evSent).map fun r => k.cell 0 0 9 r.ev.code ([r.ev.code, r.cls, r.tick.toNat, r.eflags] ++ r.vals.take 4)
    let cmp := (k.done.drop k.wal.cmpSent).map fun c => k.cell 0 (cls c.ring) 7 c.cid [c.ring, c.cid, c.op, c.status, c.info]
    let k := (evs ++ cmp).foldl Stake.sendCell k
    { k with wal := { k.wal with evSent := k.out.length, cmpSent := k.done.length } }

/-- R27: a retrain holds its direction up, for at most 800 ticks. -/
def WalDir.retraining (w : WalDir) (now : Nat) : Bool := match w.retrainFrom with | some t => now < t + 800 | none => false

/-- R23: the budget of a class. -/
def Stake.walBudget (k : Stake) (c : Nat) : Nat :=
  match c with
  | 0 => k.fld Reg.WAL_BUDGET_DRIVE
  | 1 => k.fld Reg.WAL_BUDGET_TUNE
  | 2 => k.fld Reg.WAL_BUDGET_STREAM
  | _ => k.fld Reg.WAL_BUDGET_BULK

/-- R22: a reserved kind, which a receiver discards and counts. -/
def cellReserved (c : Cell) : Bool := 12 ≤ c.kind

/-- R19, R21, R22, R27: a cell for another stake is passed on, away from where it came, or back if a link on the rest of that way is down; a
STREAM cell waits while the queues are full. -/
def Stake.passOn (k : Stake) (d : Dir) (c : Cell) : Stake :=
  if cellReserved c then k.bump31 Reg.WAL_CRC_ERR
  else if c.dest = k.id then k
  else
    let out := if k.wayClear (opp d) k.ringN c.dest then opp d else d
    k.onDir out fun w => w.put { c with hops := c.hops + 1 }

/-- R29: a direction carries a pairing's frames. -/
def Stake.carriesPair (k : Stake) (d : Dir) : Bool := (k.pairSt = 1 || k.pairSt = 2) && k.way k.ringN (partnerOf k.id) = d

/-- R29: a direction that carries a pairing's frames may start a retrain on the first tick after the leader's set has been received, and
between a sample frame and that set neither direction of the link may. -/
def State.pairLets (s : State) (n : Nat) (d : Dir) : Bool :=
  let k := s.stake n
  let w := k.dir d
  !k.carriesPair d || (w.pairGap && ((s.stake (partnerOf n)).dir (opp d)).pairGap && w.gapAt.any fun t => k.now = t + 1)

/-- R27: a retrain of a direction is called for. -/
def Stake.wantRetrain (k : Stake) (d : Dir) (lanes : List Nat) : Stake :=
  k.onDir d fun w => { w with retrainWant := true, mapOut := lanes.foldl addNew w.mapOut }

/-- R28: on a link whose two directions both need a retrain the ascending one goes first; only one retrains at a time. -/
def State.retrainFree (s : State) (n : Nat) (d : Dir) : Bool :=
  let other := (s.stake (s.nbr n d)).dir (opp d)
  other.retrainFrom.isNone && !(other.retrainWant && d = .dsc)

/-- A mask of the stakes that satisfy a test. -/
def State.maskOf (s : State) (f : Nat → Bool) : Nat :=
  (List.range s.part.stakes).foldl (fun m i => if f i then m ||| 2 ^ i else m) 0

/-- What the links say on every stake: `RING_OPEN`, the links that are down (R19), `STAKES_UP` (R40); and of the package `ALIVE`: the
stakes that have passed upsett, are not lost and are reachable from the anchor while it is there itself (R39). -/
def State.ringOpen (s : State) : State :=
  let down := (List.range s.part.stakes).filter fun i => !(s.stake i).dirUp .asc
  let open_ := (List.range s.part.stakes).any fun i => !(s.stake i).dirUp .asc || !(s.stake i).dirUp .dsc
  let gone := s.pkg.boot.lost
  let up := fun (i : Nat) => s.maskOf fun m => s.pkg.boot.passed.testBit m && !gone.testBit m && s.linked i m
  let alive := s.pkg.fld Reg.HIF_PKG_ALIVE_ALIVE &&& (if s.alive 0 then s.maskOf fun m => m = 0 || s.linked 0 m else 255)
  let s := { s with stakes := s.stakes.mapIdx fun i (k : Stake) =>
    if i < s.part.stakes then
      let k := k.putB Reg.WAL_STATUS_RING_OPEN open_
      let k := if k.stopped then k else k.put Reg.WAL_STATUS_STAKES_UP (up i - (up i &&& k.wal.lostMask))
      { k with wal := { k.wal with down := down } }
    else k }
  s.onPkg fun p => p.put Reg.HIF_PKG_ALIVE_ALIVE alive

/-- R25: a cell of a pairing, which travels over a direct link alone; on a TRN2 both links are direct. -/
def Stake.directOnly (k : Stake) (c : Cell) : Bool := (c.kind = 3 || c.kind = 4) && k.ringN ≠ 2

/-- R19, R31: traffic of a direction that is down takes the other way. The rules do not say what becomes of cells already sent and not
acknowledged: all of the replay buffer is sent again by the other way, so that a cell may arrive twice; with neither way up the cells are
dropped (DESIGN CHOICE, log 102). -/
def Stake.reroute (k : Stake) (d : Dir) : Stake :=
  let w := k.dir d
  let all := ((w.replay.map (·.2)) ++ w.queues.flatten ++ w.held).filter fun c => !k.directOnly c
  let k := k.onDir d fun w =>
    { w with queues := [[], [], [], []], held := [], replay := [], toReplay := [], wire := none, retrainFrom := none, retrainWant := false, mapOut := [] }
  let k := k.putB (retrainField d) false
  if k.dirUp (opp d) then
    all.foldl (fun q c => q.onDir (opp d) fun w => w.put c) k
  else k

/-- R25: a pairing without a direct link breaks with cause 3. -/
def Stake.pairCut (k : Stake) : Stake := if k.directUp then k else k.detectBreak 3

/-- R19, R25: the link at a port goes out of service at both ends. -/
def State.linkOff (s : State) (n : Nat) (d : Dir) : State :=
  let m := s.nbr n d
  let s := s.onStake n fun k => ((k.putB (upField d) false).reroute d).pairCut
  (s.onStake m fun k => ((k.putB (upField (opp d)) false).reroute (opp d)).pairCut).ringOpen

/-- R31: a direction goes down. -/
def State.linkDown (s : State) (n : Nat) (d : Dir) : State :=
  if !(s.stake n).dirUp d then s
  else (s.linkOff n d).onStake n fun k => k.post .walLinkDown 0 [match d with | .asc => 0 | .dsc => 1]

/-- R31: stake n is marked as unreachable on every other stake. -/
def State.markLost (s : State) (n : Nat) : State :=
  s.onAll fun k =>
    if k.id = n then k
    else { k.put Reg.WAL_STATUS_STAKES_UP (k.fld Reg.WAL_STATUS_STAKES_UP &&& (255 - 2 ^ (n % 8))) with
           wal := { k.wal with lostMask := k.wal.lostMask ||| 2 ^ (n % 8) } }

/-- R350, R359: the outstanding descriptors of a lost stake complete `STAKE_LOST`. -/
def State.dropOutstanding (s : State) (n : Nat) : State :=
  let mine := fun (r : Nat) => r ≠ 0 && r < 256 && s.ringStake r = n
  let s := ((List.range 256).filter fun r => mine r && s.ringClass r = 2).foldl (fun s r => s.bufCloseAll r 10) s
  let hand : List (Nat × Nat) := match (s.stake n).vote.handover with | some h => h.desc.toList | none => []
  let out := s.pkg.host.flying.filter fun f => (mine f.ring && s.ringClass f.ring ≤ 2) || hand.contains (f.ring, f.cid)
  let s := s.onHost fun h =>
    { h with
      descs := h.descs.filter fun d => !mine d.ring
      tune := h.tune.filter fun t => !(mine t.ring && t.target = n)
      tuneRun := h.tuneRun.filter fun t => !(mine t.ring && t.target = n)
      inbound := h.inbound.filter fun r => !mine r }
  out.foldl (fun s f => s.finish { ring := f.ring, cid := f.cid, op := f.op, status := 10 }) s

/-- R31: a stake is lost to the package. -/
def State.loseStake (s : State) (n : Nat) : State :=
  let known := s.present n && s.pkg.boot.passed.testBit n && !s.pkg.boot.lost.testBit n
  if !s.alive n && !known then s
  else
    let s := s.dropOutstanding n
    let s := s.onBoot fun b => { b with lost := b.lost ||| 2 ^ (n % 8) }
    let s := s.onPkg fun p => p.put Reg.HIF_PKG_ALIVE_ALIVE (p.fld Reg.HIF_PKG_ALIVE_ALIVE &&& (255 - 2 ^ (n % 8)))
    let s := ((s.linkOff n .asc).linkOff n .dsc).markLost n
    if n = 0 then s
    else
      let s := s.onStake 0 fun k => k.post .walStakeLost 0 [n]
      if n = 1 then s.enqueue { ev := .canLost, cls := 0, stake := 1, tick := (s.stake 0).ang.tick, vals := [], eflags := 0 } else s

/-- R334: a receiver's measurement of its lanes. -/
def Stake.measureLanes (k : Stake) (d : Dir) (margins : List Nat) : Stake :=
  let failed := k.fld (laneFailed (rxReg d))
  let live := healthy failed
  let data := live.take 16
  let thr := k.fld Reg.WAL_CTRL_MARGIN_THR
  let m := fun (i : Nat) => min 255 (nth 0 margins i)
  let k := k.onDir d fun w =>
    { w with margins := (List.range 18).map m, lowRun := w.lowRun.mapIdx fun i r => if live.contains i && m i < thr then min 2 (r + 1) else 0 }
  if !k.flag Reg.WAL_CTRL_SPLICE_EN || !k.dirUp d then k
  else
    let w := k.dir d
    let low := data.filter fun i => 2 ≤ nth 0 w.lowRun i && !w.asked.contains i
    let spares := ((live.drop 16).filter fun i => thr ≤ m i).length - w.asked.length
    let order := low.foldr (fun i l => (l.takeWhile fun j => m j < m i) ++ [i] ++ (l.dropWhile fun j => m j < m i)) []
    let ask := order.take spares
    let k := if ask.isEmpty then k
      else
        let dst := match d with | .asc => (k.id + 1) % k.ringN | .dsc => (k.id + k.ringN - 1) % k.ringN
        let c := k.cell dst 1 1 0 (1 :: ask)
        (k.onDir d fun w => { w with asked := w.asked ++ ask, queues := updAt w.queues 1 fun q => q ++ [c] })
    if order.length ≤ spares || w.lowPosted then k
    else (k.onDir d fun w => { w with lowPosted := true }).post .walMarginLow 0
      [match d with | .asc => 0 | .dsc => 1, (order.drop spares).headD 0, m ((order.drop spares).headD 0)]

end Sys2Proof.Machine
end

