-- ==== Sys2Proof/Machine/Supply.lean ====
section
/-! DEFINITION. Supply, clocks and temperature: SUP_OVERVOLT to DIE175_RELEASE (chapter 13). Voltages are given in millivolts. A
command whose stated level is not reached changes nothing. -/
namespace Sys2Proof.Machine

/-- SUP_OVERVOLT (R403): VSUP above 3.70 V for 10 µs. -/
def execSupOvervolt (n mv : Nat) (s : State) : Host.Outcome State Fault Refusal :=
  .next ((s.supLevel n mv).onStake n fun k =>
    if mv ≤ 3700 || s.inReset || k.flag Reg.SUP_STATUS_OV then k
    else ((k.putB Reg.SUP_STATUS_OV true).putB Reg.SUP_STATUS_OV_SEEN true).post .supOvervolt 1 [mv])

/-- SUP_OVERVOLT_END (R403). -/
def execSupOvervoltEnd (n mv : Nat) (s : State) : Host.Outcome State Fault Refusal :=
  .next ((s.supLevel n mv).onStake n fun k => if 3700 < mv then k else k.putB Reg.SUP_STATUS_OV false)

/-- SUP_INHIBIT_ENTER (R327, R328, R405): VSUP falls below 3.05 V. `progress` counts the row operations that a configuration write or
rewrite in progress has started. In reset the level alone is taken (R407). -/
def execSupInhibitEnter (n mv progress : Nat) (s : State) : Host.Outcome State Fault Refusal :=
  .next (if !s.present n then s
  else
    let s := s.supLevel n mv
    if 3050 ≤ mv || (s.stake n).flag Reg.SUP_STATUS_INHIBIT then s
    else if s.inReset then s.onStake n fun k => k.putB Reg.SUP_STATUS_INHIBIT true
    else
      let s := s.onStake n fun k =>
        (((k.putB Reg.SUP_STATUS_INHIBIT true).putB Reg.SUP_STATUS_INHIBIT_SEEN true).bump Reg.SUP_INHIBIT_CNT).post .supInhibit 0 [mv]
      if n = 0 then s.cfgInhibited progress else s)

/-- SUP_INHIBIT_EXIT (R405, R436): VSUP rises above 3.10 V. A rewrite that waits (R328), an erase that waits (R442) and bits of the OTP
that wait may go on from now. -/
def execSupInhibitExit (n mv : Nat) (s : State) : Host.Outcome State Fault Refusal :=
  .next (if !s.present n then s
  else
    let s := s.supLevel n mv
    if mv ≤ 3100 then s else s.onStake n fun k => k.putB Reg.SUP_STATUS_INHIBIT false)

/-- BROWN_OUT (R403, R406, R407): a stake's comparator sees VSUP below 2.85 V, and every stake resets at once. -/
def execBrownOut (n mv progress : Nat) (s : State) : Host.Outcome State Fault Refusal :=
  .next (if !s.present n then s
  else
    let s := s.onSup n fun x => { x with vsup := some mv }
    if 2850 ≤ mv then s else (s.onBoot fun b => { b with vsupUp := false }).packageReset progress)

/-- R423: a VSUP that is known to be at or below the power-on level has to rise again. -/
def State.vsupHolds (s : State) : Bool :=
  s.pkg.boot.vsupUp && (List.range s.part.stakes).all fun n => 2900 < (s.supOf n).vsup.getD 3300

/-- RAIL_FAULT (R404, R423): VAUX or VCORE outside ±8 % for 10 µs; the package resets as at brown-out. -/
def execRailFault (n vaux vcore progress : Nat) (s : State) : Host.Outcome State Fault Refusal :=
  let bad := vaux < 1656 || 1944 < vaux || vcore < 690 || 810 < vcore
  .next (if !s.present n || !bad then s
  else (s.onBoot fun b => { b with vsupUp := s.vsupHolds }).packageReset progress)

/-- SUP_VANA (R404): VANA outside ±8 % for 10 µs. -/
def execSupVana (n vana : Nat) (s : State) : Host.Outcome State Fault Refusal :=
  .next ((s.onSup n fun x => { x with vana := some vana }).supRefresh n |>.onStake n fun k =>
    if (1104 ≤ vana && vana ≤ 1296) || s.inReset then k
    else k.post .supVana 3 [k.fld Reg.SUP_RAILS_VCORE_MV, k.fld Reg.SUP_RAILS_VAUX_MV, vana])

/-- CORE_CLOCK_LOST (R410): a window of 40 RC cycles counted `count` core clocks. -/
def execCoreClockLost (n count : Nat) (s : State) : Host.Outcome State Fault Refusal :=
  .next (
    let t := s.onStake n fun k => k.clockLost count
    if (t.stake n).stopped && !(s.stake n).stopped then (t.linkOff n .asc).linkOff n .dsc else t)

/-- R411: a window of 160 RC cycles counts the reference's edges inside its limits. -/
def refInside (count : Nat) : Bool := 85 ≤ count && count ≤ 115

/-- CLK_REF_LOSS (R411): a window of the reference monitor counted `count` edges outside its limits, or the PLL's lock detector drops
(`lock`). -/
def execClkRefLoss (n : Nat) (s : State) (count : Nat := 0) (lock : Bool := false) : Host.Outcome State Fault Refusal :=
  .next (s.onStake n fun k =>
    if (refInside count && !lock) || !k.flag Reg.CLK_STATUS_PLL_LOCK && !k.flag Reg.CLK_STATUS_REF_OK then k
    else (((k.putB Reg.CLK_STATUS_REF_OK (refInside count)).putB Reg.CLK_STATUS_PLL_LOCK false).putB Reg.CLK_STATUS_REF_LOST true).post .clkRefLoss 3 [])

/-- CLK_MCLK_FAULT (R412): two expected edges in succession are missing from the readback of output m. -/
def execClkMclkFault (n m : Nat) (s : State) : Host.Outcome State Fault Refusal := .next (s.onStake n fun k => k.mclkFault m)

/-- MCLK_FAULT_END (R412). -/
def execMclkFaultEnd (n m : Nat) (s : State) : Host.Outcome State Fault Refusal := .next (s.onStake n fun k => k.mclkEnd m)

/-- THM_SAMPLE (R413 to R419). -/
def execThmSample (n k : Nat) (raw : ThmRaw) (s : State) : Host.Outcome State Fault Refusal :=
  .next (s.onStake n fun q => if q.stopped then q else q.thmSample k raw)

/-- THM_GRACE_EXPIRE (R418). -/
def execThmGraceExpire (n k : Nat) (s : State) : Host.Outcome State Fault Refusal :=
  .next (s.onStake n fun q => if q.stopped then q else q.thmGrace k)

/-- THM_DIE_175 (R420). -/
def execThmDie175 (n : Nat) (s : State) : Host.Outcome State Fault Refusal :=
  .next (s.onStake n fun k =>
    if k.flag Reg.THM_STATUS_DIE175 then k else ((k.putB Reg.THM_STATUS_DIE175 true).trip 8).post .thmDie175 4 [])

/-- DIE175_RELEASE (R420): the comparator releases at 165 °C. -/
def execDie175Release (n : Nat) (s : State) : Host.Outcome State Fault Refusal :=
  .next (s.onStake n fun k => k.putB Reg.THM_STATUS_DIE175 false)

/-- REFERENCE_RETURN (R411): a window of the reference monitor counted `count` edges; inside its limits the reference is present again. The
PLL stays as it is. -/
def execReferenceReturn (n : Nat) (s : State) (count : Nat := 100) : Host.Outcome State Fault Refusal :=
  .next (s.onStake n fun k => if refInside count then k.putB Reg.CLK_STATUS_REF_OK true else k)

end Sys2Proof.Machine
end

