-- ==== Sys2Proof/Machine/SecOps.lean ====
section
/-! DEFINITION. Shared operations of start-up and security: the flash and the boot record, verification, the seal unit, enrolment, resets
(R423 to R444). -/
namespace Sys2Proof.Machine

/-- R430 step 1: `MAGIC`, `FORMAT`, reserved bytes, `BODY_LEN`. -/
def headerOk (h : List Nat) : Bool :=
  let z := fun (a b : Nat) => ((h.drop a).take (b - a)).all (· = 0)
  let len := leOf h 8 4
  leOf h 0 4 = 0x5E1F0A01 && leOf h 4 2 = 1 && nth 0 h 15 = 0 && z 24 32 && z 4480 8192 &&
    64 ≤ len && len ≤ 786432 && len % 64 = 0

/-- R428: the part's bit of `PARTS`. -/
def Part.bit : Part → Nat
  | .trn2 => 0
  | .trn4 => 1
  | .trn8 => 2

/-- R430, R437: a slot is verified; the cause, 15 for a pass. A key enrolled since the start does not count yet. -/
def State.verifySlot (s : State) (slot : Nat) (answers : Bool) : Nat :=
  let n := s.pkg.nv
  let h := n.header slot
  let svn := leOf h 6 2
  let key := (h.drop 1344).take 1793
  if !answers then 7
  else if !headerOk h then 1
  else if !(nth 0 h 13).testBit s.part.bit || 0xB1 < nth 0 h 14 then 2
  else if 64 < svn || svn < n.counter then 3
  else if !Config.falconVerify Config.damhoreKey (h.take 64) ((h.drop 64).take 1280) then 4
  else if s.pkg.boot.coSign && !((nth 0 h 12).testBit 1 && digest32 key = n.custDigest &&
      Config.falconVerify key (h.take 3200) ((h.drop 3200).take 1280)) then 5
  else if digest32 (n.flashRead (slotBase slot + 8192) (leOf h 8 4)) ≠ (h.drop 32).take 32 then 6
  else 15

/-! The body in SRAM. -/

/-- What a word of SRAM that nothing has loaded reads as (log 163). -/
def sramBlank (_ : Nat) : BitVec 32 := 0

/-- R429: bytes go into the SRAM from an offset, four to a word, the last word filled with zeros. -/
def Stake.sramLoad (k : Stake) (a : Nat) (l : List Nat) : Stake :=
  { k with sram := k.sram.setWords sramBlank a (wordsOf l) }

/-- Bytes of the SRAM from an offset. -/
def Stake.sramRead (k : Stake) (a len : Nat) : List Nat := k.sram.bytes sramBlank a len

/-- R429, R430 step 6: the body of a slot is read into stake 0's SRAM. -/
def State.bodyLoad (s : State) (slot : Nat) : State :=
  let n := s.pkg.nv
  s.onStake 0 fun k => k.sramLoad 0 (n.flashRead (slotBase slot + 8192) (leOf (n.header slot) 8 4))

/-! Configuration copies. -/

/-- R325: 1 VALID, 2 INVALID, 3 EMPTY. -/
def CfgCopy.state (c : CfgCopy) : Nat :=
  let len := leOf c.header 8 4
  if c.header = lineErased then 3
  else if !c.bad && leOf c.header 12 2 = 1 && 1 ≤ len && len ≤ 98256 &&
      digest32 (c.header.take 16 ++ c.body.take len) = (c.header.drop 16).take 32 then 1
  else 2

/-- R324: `GEN` and `DIGEST` of a copy. -/
def CfgCopy.gen (c : CfgCopy) : Nat := leOf c.header 0 8 % 281474976710656
def CfgCopy.digest (c : CfgCopy) : List Nat := (c.header.drop 16).take 32
def CfgCopy.same (a b : CfgCopy) : Bool := a.gen = b.gen && a.digest = b.digest

/-- R326: the row that fits three copies, the copy it applies, and the copies to rewrite. -/
def cfgJudge (l : List CfgCopy) : Nat × Option Nat × List Nat :=
  let c := fun i => nth {} l i
  let v := fun i => (c i).state = 1
  let valid := [0, 1, 2].filter v
  let eq := fun i j => v i && v j && (c i).same (c j)
  if eq 0 1 && eq 1 2 then (1, some 0, [])
  else if eq 0 1 then (2, some 0, [2])
  else if eq 0 2 then (2, some 0, [1])
  else if eq 1 2 then (2, some 1, [0])
  else match valid with
    | [i, j] => if (c i).gen = (c j).gen + 1 then (3, some i, [0, 1, 2].filter (· ≠ i)) else (5, none, [])
    | [i] => (4, some i, [0, 1, 2].filter (· ≠ i))
    | [] => if [0, 1, 2].all fun i => (c i).state = 3 then (7, none, []) else (6, none, [])
    | _ => (5, none, [])

/-- R326: the values of a configuration event: state, `GEN` and `DIGEST` of the copies; a digest by its first eight bytes. -/
def cfgVals (l : List CfgCopy) : List Nat :=
  [0, 1, 2].flatMap fun i => let c := nth {} l i; [c.state, c.gen, leOf c.digest 0 8]

/-- R327: the generation in force, or what stands for it. -/
def State.cfgGen (s : State) : Nat := (s.pkg.rd Reg.NVM_CFG_GEN).toNat + (s.pkg.rd (Reg.NVM_CFG_GEN + 4)).toNat % 65536 * 4294967296

/-! The seal unit. -/

/-- R440: precedence of an operation. -/
def SealOp.rank : SealOp → Nat
  | .boot => 0
  | .cfg _ => 1
  | .commit .. => 2
  | .attest .. => 3

/-- The axes of the package that are not lost, all in the states listed. -/
def State.axesIn (s : State) (l : List Nat) : Bool :=
  (List.range s.part.stakes).all fun n => !s.alive n || (s.stake n).axisIn l

/-- R439: bytes 0 to 255 of an attestation report. -/
def State.report (s : State) (nonce : List Nat) : List Nat :=
  let b := s.pkg.boot
  let run := b.running
  let none32 := List.replicate 32 0
  let st := s.pkg.fld Reg.SEC_BOOT_STATUS_STATE
  let slot := s.pkg.fld Reg.SEC_BOOT_STATUS_SLOT
  let (svn, dig, hd) := if run.isEmpty then (0, none32, none32)
    else (leOf run 6 2, (run.drop 32).take 32, (digest32 (run.take 3200)).take 32)
  let cd := match b.inForce with | some c => c.digest | none => none32
  let spl := (List.range 8).flatMap fun n => if s.alive n then bytesN 4 ((s.stake n).rd Reg.SPL_SUMMARY).toNat else [255, 255, 255, 255]
  bytesN 4 1 ++ bytesN 4 1536 ++ nonce ++ s.pkg.nv.serial ++ [s.part.stakes, 0xB1, if slot = 3 then 255 else slot, st] ++
    bytesN 2 svn ++ bytesN 2 s.pkg.nv.counter ++ dig ++ hd ++ cd ++ bytesN 8 s.cfgGen ++ spl ++ bytesN 8 (s.stake 0).ang.tick.toNat ++
    [(if s.pkg.nv.enrolled then 1 else 0) + (if b.testen then 2 else 0)] ++ List.replicate 47 0

/-- R440: an operation starts; a report holds what is in force now. -/
def State.sealStart (s : State) (op : SealOp) : State :=
  let msg := match op with | .attest _ _ _ nonce => s.report nonce | _ => []
  s.onBoot fun b => { b with sealOp := some (op, msg) }

/-- R440: an operation is asked for. -/
def State.sealAsk (s : State) (op : SealOp) : State :=
  if s.pkg.boot.sealOp.isNone then s.sealStart op else s.onBoot fun b => { b with sealQ := b.sealQ ++ [op] }

/-- R440: the next operation: the first precedence that waits, in arrival order. -/
def State.sealNext (s : State) : State :=
  let q := if s.pkg.boot.sealOp.isSome then [] else s.pkg.boot.sealQ
  let best := q.foldl (fun a o => min a o.rank) 9
  match q.find? fun o => o.rank = best with
  | none => s
  | some o => (s.onBoot fun b => { b with sealQ := dropFirst (fun x => x.rank = best) b.sealQ }).sealStart o

/-- R326, R337: `COPYi` of a copy. -/
def copyCode (inForce : Option CfgCopy) (c : CfgCopy) : Nat :=
  if c.state ≠ 1 then c.state
  else match inForce with
    | some x => if c.same x then 0 else 1
    | none => 1

/-- Writes `COPY0` to `COPY2` for what the copies hold now. -/
def State.copySync (s : State) : State :=
  let c := fun i => copyCode s.pkg.boot.inForce (nth {} s.pkg.nv.cfg i)
  s.onPkg fun p => ((p.put Reg.NVM_CFG_STATUS_COPY0 (c 0)).put Reg.NVM_CFG_STATUS_COPY1 (c 1)).put Reg.NVM_CFG_STATUS_COPY2 (c 2)

/-- R327, R440: a copy's digest is formed; the next copy's is asked for. -/
def State.cfgDigest (s : State) : State :=
  match s.pkg.boot.cfgOp with
  | none => s
  | some c =>
    let s := s.onBoot fun b => { b with cfgOp := some { c with digests := c.digests + 1 } }
    if c.digests + 1 < 3 then s.sealAsk (.cfg .write) else s

/-- R328: a copy's digest is formed: its header line is programmed, and the copy is rewritten. -/
def State.rewriteDigest (s : State) : State :=
  match s.pkg.boot.rwOp with
  | none => s
  | some i =>
    let c := s.pkg.boot.chosen
    ((s.onNv fun n => n.copySteps [i] c copyOps).onBoot fun b => { b with rwOp := none, rewrite := b.rewrite.filter (· ≠ i) }).copySync

/-- R440: what an operation that is done leaves; `answers` says whether the flash answers a verification, and a record is not written
below the inhibit level (R405). -/
def State.sealFinish (s : State) (op : SealOp) (msg : List Nat) (answers : Bool) : State :=
  match op with
  | .boot | .cfg .load | .cfg .ended => s
  | .cfg .write => s.cfgDigest
  | .cfg .rewrite => s.rewriteDigest
  | .commit ring cid slot =>
    let c := s.verifySlot slot answers
    let s := s.onBoot fun b => { b with staged := [] }
    if c = 15 && s.inhibited then s.finish { ring := ring, cid := cid, op := 0x32, status := 4, info := 2 }
    else if c = 15 then
      let s := s.onNv fun n => n.commitSlot slot
      let s := s.onPkg fun p => p.put Reg.SEC_PREFER_PREFER slot
      s.finish { ring := ring, cid := cid, op := 0x32, status := 0 }
    else s.finish { ring := ring, cid := cid, op := 0x32, status := 5, info := 4, result := c :: List.replicate 15 0 }
  | .attest ring cid addr _ =>
    let sig := ((Config.falconSign s.pkg.nv.sealedKey msg) ++ List.replicate 1280 0).take 1280
    (s.hostWrite addr (msg ++ sig)).finish { ring := ring, cid := cid, op := 0x45, status := 0 }

/-! Register commands of the SEC window. -/

/-- R423, R437: a refused enrolment or reset. -/
def State.secRefuse (s : State) (cause : Nat) : State :=
  (s.onPkg fun p => (p.putB Reg.SEC_CMD_STATUS_CFG_REFUSED true).put Reg.SEC_CMD_STATUS_CAUSE cause).postPkg .secCfgRefused 0 [cause]

/-- R437: the staged digest. -/
def State.enrolDigest (s : State) : List Nat := (List.range 8).flatMap fun i => bytesN 4 (s.pkg.rd (Reg.SEC_ENROLL_DIGEST i)).toNat

/-- R437: the first condition an enrolment fails, or 0. -/
def State.enrolCause (s : State) : Nat :=
  let n := s.pkg.nv
  let h := s.pkg.boot.running
  let key := (h.drop 1344).take 1793
  if n.enrolled then 1
  else if s.pkg.fld Reg.SEC_BOOT_STATUS_STATE ≠ 1 then 2
  else if !s.axesIn [axOff] then 3
  else if (s.stake 0).flag Reg.SUP_STATUS_INHIBIT then 4
  else if !((nth 0 h 12).testBit 1 && digest32 key = s.enrolDigest && Config.falconVerify key (h.take 3200) ((h.drop 3200).take 1280)) then 5
  else if n.partEnrolled || s.pkg.boot.otpJobs.any OtpJob.enrol then 7
  else 0

/-- R437: a write of `SEC_ENROLL`. -/
def State.wEnroll (s : State) (w : Reg32) : State :=
  if w.toNat % 65536 ≠ 0x3C5A then s
  else
    let c := s.enrolCause
    if c ≠ 0 then s.secRefuse c
    else s.otpAsk { bits := enrolBits s.enrolDigest, due := none, enrol := true, old := 0 }

/-- R423: a write of `SEC_RESET`: the package resets 10 µs later, unless an axis is outside OFF and SAFE; a
reset that is due already stays due. -/
def State.wSecReset (s : State) (w : Reg32) : State :=
  if w.toNat % 65536 ≠ 0xA5C3 then s
  else if !s.axesIn [axOff, axSafe] then s.secRefuse 3
  else s.onBoot fun b => { b with resetDue := b.resetDue.or (some (s.time + 4000)) }

/-- R442: a challenge drawn afresh. -/
def State.drawChallenge (s : State) : State :=
  s.onPkg fun p =>
    { (List.range 8).foldl (fun q i => q.wr (Reg.SEC_CHALLENGE i) (BitVec.ofNat 32 (Config.freePkg (p.fresh + i)))) p with fresh := p.fresh + 8 }

/-- R442: a write of `SEC_UNLOCK_CTRL`; `SUBMIT` counts in TEST_WAIT only. -/
def State.wUnlock (s : State) (w : Reg32) : State :=
  if !w.getLsbD 0 || s.pkg.boot.phase ≠ .testWait || s.pkg.boot.erasing then s
  else
    let msg := ((List.range 8).flatMap fun i => bytesN 4 (s.pkg.rd (Reg.SEC_CHALLENGE i)).toNat) ++ s.pkg.nv.serial
    let sig := (List.range 320).flatMap fun i => bytesN 4 (s.pkg.rd (Reg.SEC_UNLOCK_SIG i)).toNat
    if Config.falconVerify Config.testKey msg sig then
      (s.onPkg fun p => p.put Reg.SEC_UNLOCK_CTRL_RESULT 1).onBoot fun b => { b with erasing := true }
    else (s.onPkg fun p => p.put Reg.SEC_UNLOCK_CTRL_RESULT 2).drawChallenge

/-! Distribution. -/

/-- R425, R434, R440: distribution is over once every stake that is left has answered; the digests of the load are asked for. -/
def State.distOver (s : State) : State :=
  if s.pkg.boot.phase = .distribution && (List.range s.part.stakes).all fun n => !s.alive n || s.pkg.boot.distDone.contains n then
    (s.onBoot fun b => { b with phase := .configuration }).sealAsk (.cfg .load)
  else s

/-- R434: a stake's completion of the distribution comes to the anchor. -/
def State.distArrives (s : State) (n : Nat) : State :=
  if s.pkg.boot.phase = .distribution && s.alive n && (s.stake n).wal.started && !s.pkg.boot.distDone.contains n then
    (s.onBoot fun b => { b with distDone := n :: b.distDone }).distOver
  else s

end Sys2Proof.Machine
end

