-- ==== Sys2Proof/Machine/RegWrite.lean ====
section
/-! DEFINITION. A write of any register or table word (R7, R8, R15 to R17, R377 and the lock rule of each block): its checks, then the
effect the register has. Every path that writes a register ends here. -/
namespace Sys2Proof.Machine

/-! Slots of two words (R7). -/

/-- A table memory word: the table's number, 3 for the pattern table (R166, R194); none where the window is reserved. -/
def tableAt (off : Nat) : Option Nat :=
  if 0xA0000 ≤ off && off < 0xA2310 then some 0
  else if 0xA4000 ≤ off && off < 0xA5210 then some 1
  else if 0xA6000 ≤ off && off < 0xA6200 then some 2
  else if 0xB0000 ≤ off && off < 0xB1000 then some 3
  else none

/-- The low word's offset of the writable 48-bit slot an offset lies in. -/
def slotAt (off : Nat) : Option Nat :=
  let lo := off / 8 * 8
  if inArr lo 0x30400 127 32 || inArr lo 0x10108 16 64 || inArr lo 0x10110 16 64 || (0x40100 ≤ lo && lo < 0x40250) ||
      lo = Reg.FLD_FB_XON || lo = Reg.FLD_FB_XOFF || (0x50208 ≤ lo && lo < 0x50280) || (tableAt lo).isSome then some lo
  else none

/-- R166, R194: the store offset of a table word in the bank its window addresses, the inactive one. -/
def Stake.tblPlace (k : Stake) (t off : Nat) : Nat :=
  let active := if t = 3 then k.flag Reg.MOD_PAT_CTRL_ACTIVE else k.fldBank t = 1
  (if active then 0 else 0x1000000) + off

/-- A slot of a table in the inactive bank; n_k of the fallback curve is sign-extended from 32 bits. -/
def Stake.wTable (k : Stake) (t off : Nat) (v : Word48) : Stake :=
  let v := if t = 2 && off % 16 = 8 then (v.setWidth 32).signExtend 48 else v
  let o := k.tblPlace t off
  let z := fun (_ : Nat) => (0 : BitVec 32)
  { k with tbl := Store.set z (Store.set z k.tbl o (BitVec.ofNat 32 v.toNat)) (o + 4) (BitVec.ofNat 32 (v.toNat / 4294967296)) }

/-- R7: the low word of a slot is written and waits. -/
def setStage (l : List (Nat × BitVec 32)) (off : Nat) (w : BitVec 32) : List (Nat × BitVec 32) :=
  (l.filter fun e => e.1 ≠ off) ++ [(off, w)]
def Stake.stageLow (k : Stake) (off : Nat) (w : BitVec 32) : Stake := { k with lowStage := setStage k.lowStage off w }

/-- R7: the low word last written of a slot; the one that stands where none has been. -/
def Stake.lowOf (k : Stake) (off : Nat) : BitVec 32 :=
  match k.lowStage.find? fun e => e.1 = off with
  | some e => e.2
  | none => match tableAt off with
    | some t => Store.get (fun _ => 0) k.tbl (k.tblPlace t off)
    | none => k.rd off

/-- R7: the value a write of a high word commits: bits 63:48 are ignored. -/
def Stake.slotValue (k : Stake) (lo : Nat) (hi : BitVec 32) : Word48 :=
  BitVec.ofNat 48 ((k.lowOf lo).toNat + hi.toNat % 65536 * 4294967296)

/-- R170, R171, R174, R206: a value a shadow slot may not take. -/
def Stake.shadowBad (k : Stake) (lo : Nat) (v : Word48) : Bool :=
  let x := v.toNat
  let frac := k.rd Reg.MOD_SH_DUTY_FMT &&& 1 = 0
  let duty := lo = Reg.MOD_SH_DUTY_U || lo = Reg.MOD_SH_DUTY_V || lo = Reg.MOD_SH_DUTY_W || lo = Reg.MOD_SH_AUX_DUTY
  if lo = Reg.MOD_SH_PERIOD then
    !k.periodField x
  else if duty then frac && 65536 < x
  else if lo = Reg.MOD_SH_DUTY_FMT then
    x % 2 = 0 && [Reg.MOD_SH_DUTY_U, Reg.MOD_SH_DUTY_V, Reg.MOD_SH_DUTY_W, Reg.MOD_SH_AUX_DUTY].any fun o => 65536 < (k.get48 o).toNat
  else false

/-- R159: `X_OFF` is below `X_ON`. -/
def Stake.fbPairBad (k : Stake) (lo : Nat) (v : Word48) : Bool :=
  if lo = Reg.FLD_FB_XON then v.toInt ≤ k.int48 Reg.FLD_FB_XOFF
  else if lo = Reg.FLD_FB_XOFF then k.int48 Reg.FLD_FB_XON ≤ v.toInt
  else false

/-- R7: the high word of a slot is written: the slot takes its value. -/
def Stake.slotStore (k : Stake) (lo : Nat) (v : Word48) : Stake :=
  match tableAt lo with
  | some t => k.wTable t lo v
  | none => if 0x50200 ≤ lo && lo < 0x50280 then k.wShadow lo v else (k.put48 lo v).fldSync

/-! Range conditions between fields (R15 and the field maps). -/

/-- The signed halves of a word. -/
def hiHalf (w : BitVec 32) : Int := (Fld.mk 0 16 16).of w
def loHalf (w : BitVec 32) : Int := (Fld.mk 0 0 16).of w
def hiSigned (w : BitVec 32) : Int := signOf 16 ((Fld.mk 0 16 16).of w)
def loSigned (w : BitVec 32) : Int := signOf 16 ((Fld.mk 0 0 16).of w)

/-- R67, R205: an `ARG` outside the range of a trigger's action, or an action a trigger does not have. -/
def trigBad (w : BitVec 32) : Bool :=
  let a := (Reg.MOD_TRIG_ACTION 0).of w
  let g := (Reg.MOD_TRIG_ARG 0).of w
  !(a = 0 && g = 0 || a = 1 && g ≤ 15 || a = 2 && g = 0 || a = 5 && g ≤ 15)

/-- Conditions between the fields of a stake's registers, on the word about to be written. -/
def Stake.crossBad (k : Stake) (off : Nat) (w : BitVec 32) : Bool :=
  let of := fun (f : Fld) => f.of w
  let p := (off - 0x60100) / 0x80
  if inArr off 0x10010 4 4 then
    of (Reg.SNS_MCLK_DIV 0) ≤ of (Reg.SNS_MCLK_SAMPLE_DLY 0) || of (Reg.SNS_MCLK_DIV 0) ≤ of (Reg.SNS_MCLK_PHASE 0)
  else if inArr off (Reg.ANG_CLK_LIMITS 0) 2 64 then of (Reg.ANG_CLK_LIMITS_JUMP_LIMIT 0) < of (Reg.ANG_CLK_LIMITS_SLEW_LIMIT 0)
  else if off = Reg.POS_RES_EXC then of Reg.POS_RES_EXC_EXC_DIV ≤ k.fld Reg.POS_RES_PHASE_EXC_PHASE
  else if off = Reg.POS_RES_PHASE then k.fld Reg.POS_RES_EXC_EXC_DIV ≤ of Reg.POS_RES_PHASE_EXC_PHASE
  else if off = Reg.POS_ENC_CFG then 4 * (of Reg.POS_ENC_CFG_LINES_M1 + 1) ≤ k.fld Reg.POS_ENC_INDEX_Z_COUNT
  else if off = Reg.POS_ENC_INDEX then 4 * (k.fld Reg.POS_ENC_CFG_LINES_M1 + 1) ≤ of Reg.POS_ENC_INDEX_Z_COUNT
  else if off = Reg.POS_SSP_CFG then
    of Reg.POS_SSP_CFG_PAY_BITS < of Reg.POS_SSP_CFG_ST_BITS || 2 * of Reg.POS_SSP_CFG_HALF_DIV ≤ k.fld Reg.POS_SSP_TIMING_SDLY
  else if off = Reg.POS_SSP_TIMING then 2 * k.fld Reg.POS_SSP_CFG_HALF_DIV ≤ of Reg.POS_SSP_TIMING_SDLY
  else if inArr off (Reg.MOD_TRIG 0) 4 8 then trigBad w
  else if inArr off (Reg.MOD_SLOT 0) 16 8 then of (Reg.MOD_SLOT_KIND 0) = 1 && of (Reg.MOD_SLOT_N 0) = 0
  else if 0x60100 ≤ off && off < 0x60300 && (off - 0x60100) % 0x80 = 0x08 then
    !(1 ≤ loHalf w && loHalf w < hiHalf w && hiHalf w < loHalf (k.rd (Reg.LEG_PORT_IBAND1 p)))
  else if 0x60100 ≤ off && off < 0x60300 && (off - 0x60100) % 0x80 = 0x0C then
    !(hiHalf (k.rd (Reg.LEG_PORT_IBAND0 p)) < loHalf w && loHalf w ≤ 32767)
  else if 0x60100 ≤ off && off < 0x60300 && (off - 0x60100) % 0x80 = 0x10 then
    !(loSigned w < hiSigned w && hiSigned w < loSigned (k.rd (Reg.LEG_PORT_TBAND1 p)))
  else if 0x60100 ≤ off && off < 0x60300 && (off - 0x60100) % 0x80 = 0x14 then
    !(hiSigned (k.rd (Reg.LEG_PORT_TBAND0 p)) < loSigned w)
  else if off = Reg.PLT_SPEED_BAND then of Reg.PLT_SPEED_BAND_N_ASC ≤ of Reg.PLT_SPEED_BAND_N_HYST
  else if inArr off (Reg.STR_STREAM_CFG 0) 16 32 then of (Reg.STR_STREAM_CFG_FIFO_KIB 0) % 4 ≠ 0
  else if inArr off (Reg.THM_SENS_THR 0) 6 32 then
    let i := (off - Reg.THM_SENS_THR 0) / 32
    let t := signOf 16 (of (Reg.THM_SENS_THR_THROTTLE 0))
    !(signOf 16 (of (Reg.THM_SENS_THR_WARN 0)) < t && t < k.sfld (Reg.THM_SENS_SHUT_SHUTDOWN i))
  else if inArr off (Reg.THM_SENS_SHUT 0) 6 32 then
    let i := (off - Reg.THM_SENS_SHUT 0) / 32
    !(k.sfld (Reg.THM_SENS_THR_THROTTLE i) < signOf 16 (of (Reg.THM_SENS_SHUT_SHUTDOWN 0)))
  else false

/-- The same for a register of the package region: ring sizes and base addresses, CAN bit rates (R343, R381). -/
def pkgCrossBad (off : Nat) (w : BitVec 32) : Bool :=
  let of := fun (f : Fld) => f.of w
  if off = Reg.HIF_ADMIN_CFG then of Reg.HIF_ADMIN_CFG_CQ_LOG2 < of Reg.HIF_ADMIN_CFG_SQ_LOG2
  else if off = Reg.HIF_ADMIN_SQ_LO || off = Reg.HIF_ADMIN_CQ_LO then w.toNat % 4096 ≠ 0
  else if inArr off (Reg.CAN_NBT 0) 2 0x4000 then
    (of (Reg.CAN_NBT_NBRP_M1 0) + 1) * (3 + of (Reg.CAN_NBT_NTSEG1_M1 0) + of (Reg.CAN_NBT_NTSEG2_M1 0)) < 80
  else if inArr off (Reg.CAN_DBT 0) 2 0x4000 then
    (of (Reg.CAN_DBT_DBRP_M1 0) + 1) * (3 + of (Reg.CAN_DBT_DTSEG1_M1 0) + of (Reg.CAN_DBT_DTSEG2_M1 0)) < 10
  else false

/-! Registers with an effect of their own. -/

/-- R83: `CORR_COMMIT` of a channel. -/
def Stake.wCorrCommit (k : Stake) (c : Nat) (w : Reg32) : Stake :=
  if w.getLsbD 0 && c < 16 then
    k.onSns fun x => { x with corrNext := x.corrNext ++ [(c, k.get48 (Reg.SNS_CH_GAIN c), k.get48 (Reg.SNS_CH_OFFSET c))] }
  else k

/-- R46, R51: a write of `ANG_CLKn_CTRL`: a clock that is disabled, or takes a source whose position is not valid, is INVALID. Where the new
source is valid, measurements of the old one that still wait are kept and processed; the spec does not say what becomes of them (DESIGN
CHOICE, log 111). -/
def Stake.wClkCtrl (k : Stake) (c : Nat) (w : Reg32) : Stake :=
  let old := k.clkSrc c
  let k := k.store (Reg.ANG_CLK_CTRL c) w
  let src := k.clkSrc c
  let live := k.flag (Reg.ANG_CLK_CTRL_EN c) && (src = old || k.srcValid src)
  if live then k
  else
    let was := (k.clock 0).valid
    let k := k.onClock c fun x => { x with valid := false, mail := [], next := none }
    if was && !(k.clock 0).valid then k.syncAbort else k

/-- R376: a write of `STR_STREAMn_CFG` that the lock leaves to a TUNE descriptor: its `EN` alone, at once. -/
def Stake.wStreamEn (k : Stake) (i : Nat) (on : Bool) : Stake :=
  let f := Reg.STR_STREAM_CFG_EN i
  let sum := fifoSum fun j => if j = i then f.put (k.rdAct f.off) (if on then 1 else 0) else k.rdAct (Reg.STR_STREAM_CFG j)
  if on && 256 < sum then k.strRefuse sum else (k.putB f on).strEnable i on

/-- The bits of a written word that are not reserved in this element of an array (R8): `TYPE` of `THM_SENSk_CFG` is reserved in sensors 4
and 5 (R413), `AUX_MODE` and `AUX_SW` of `MOD_PORTp_CFG` on ports 0 to 2. -/
def liveBits (off : Nat) (w : Reg32) : Reg32 :=
  if off = Reg.THM_SENS_CFG 4 || off = Reg.THM_SENS_CFG 5 then w &&& 0x9FFFFFFF
  else if inArr off (Reg.MOD_PORT_CFG 0) 3 32 then w &&& 0xFF87FFFF
  else w

/-- What of a written word the lock leaves to the manager and to TUNE descriptors in a word that is open in part: `GRACE` and `I_THR` of
`THM_SENSk_CFG` (R421). -/
def openBits (locked : Bool) (src : Src) (off : Nat) (old w : Reg32) : Reg32 :=
  if locked && src ≠ .host && inArr off (Reg.THM_SENS_CFG 0) 6 32 then (w &&& 0x03FFFFFF) ||| (old &&& 0xFC000000) else w

/-- The effect of a write of a register of a stake that has passed its checks. -/
def Stake.regStore (k : Stake) (locked : Bool) (src : Src) (off : Nat) (w : Reg32) : Stake :=
  let p := (off - 0x60100) / 0x80
  if off = Reg.SNS_CTRL then k.wSnsCtrl w
  else if inArr off (Reg.SNS_CH_CORR_COMMIT 0) 16 64 then k.wCorrCommit ((off - Reg.SNS_CH_CORR_COMMIT 0) / 64) w
  else if off = Reg.ANG_SCHED_CTRL then k.wSchedCtrl w
  else if inArr off (Reg.ANG_CLK_CTRL 0) 2 64 then k.wClkCtrl ((off - Reg.ANG_CLK_CTRL 0) / 64) w
  else if off = Reg.POS_CTRL then k.wPosCtrl locked w
  else if off = Reg.POS_ENC_ALIGN then k.alignLoad w
  else if !k.posGuardOk off then k.posRefuse
  else if off = Reg.MOD_CTRL then k.wModCtrl w
  else if off = Reg.MOD_SET_CTRL then k.wSetCtrl w
  else if off = Reg.MOD_CUT_CLR then k.wCutClr w
  else if off = Reg.MOD_PAT_CTRL then k.wPatCtrl w
  else if off = Reg.LEG_CTRL then k.wLegCtrl w
  else if inArr off (Reg.LEG_PORT_CMD 0) 4 0x80 then k.wLegCmd p w
  else if 0xC0000 ≤ off && off < 0xC0400 then k.wProfile ((off - 0xC0000) / 0x100) ((off - 0xC0000) / 0x10 % 16) (off / 4 % 4) w
  else if off = Reg.PLT_PR_CTRL then k.wPrCtrl w
  else if off = Reg.PLT_MODE then k.wPltMode w
  else if off = Reg.STR_CTRL then k.wStrCtrl w
  else if inArr off (Reg.STR_STREAM_CMD 0) 16 32 then if w.getLsbD 0 then k.strFlush ((off - Reg.STR_STREAM_CMD 0) / 32) else k
  else if locked && src ≠ .host && inArr off (Reg.STR_STREAM_CFG 0) 16 32 then k.wStreamEn ((off - Reg.STR_STREAM_CFG 0) / 32) (w.getLsbD 31)
  else (((k.keepFast off).store off (openBits locked src off (k.rd off) (liveBits off w))).snsSync).fldSync

/-- R17: registers and table of the fallback curve, which stake 1 alone has. -/
def fbOnly (off : Nat) : Bool := (0x40300 ≤ off && off < 0x40328) || (0xA6000 ≤ off && off < 0xA6200)

/-- A write of a word of a stake's window. DESIGN CHOICE (log 185): the range (R379) is judged before a source's own guard (R98). -/
def State.stakeReg (s : State) (src : Src) (n off : Nat) (w : Reg32) : State :=
  let k := s.stake n
  if !s.takesFrom src n || (fbOnly off && n ≠ 1) then s
  else if off = Reg.FLD_CTRL then s.fldCtrlWrite src n w
  else if off = Reg.FLD_TBL_CTRL then s.tblCtrlWrite src n w
  else if off = Reg.FLD_PAIR_CTRL then s.pairCtrlWrite src n w
  else if s.locked && closedTo src off then s.lockedStake src n off w
  else if inArr off (Reg.ANG_ENT_CTRL 0) 127 32 then s.entryCommit n ((off - Reg.ANG_ENT_CTRL 0) / 32) w
  else match slotAt off with
    | some lo =>
      if off = lo then s.onStake n fun k => k.stageLow lo w
      else
        let v := k.slotValue lo w
        if k.shadowBad lo v && k.flag Reg.MOD_SET_CTRL_IS_OPEN || k.fbPairBad lo v then (if src = .tune then s else s.slotDrop (bar0 n lo) v)
        else s.onStake n fun k => k.slotStore lo v
    | none => match regAt off with
      | none => s
      | some r =>
        if !r.inRange (liveBits off w) || k.crossBad off w || (off = Reg.POS_ENC_ALIGN && k.alignBad w) then
          (if src = .tune then s else s.rangeDrop (bar0 n off) w)
        else s.onStake n fun k => k.regStore s.locked src off w

/-! The package region. -/

/-- R377: `HIF_SETUP_LOCK`. -/
def State.wSetupLock (s : State) (w : Reg32) : State :=
  if w.getLsbD 0 then s.onPkg fun p => (p.putB Reg.HIF_SETUP_LOCK_LOCK true).putB Reg.HIF_STATUS_LOCKED true else s

/-- R341, R344, R346: the admin pair is enabled and starts afresh. -/
def State.adminStart (s : State) : State :=
  let a := fun (o : Nat) => (s.pkg.rd o).toNat
  let sq := s.pkg.fld Reg.HIF_ADMIN_CFG_SQ_LOG2
  let cq := s.pkg.fld Reg.HIF_ADMIN_CFG_CQ_LOG2
  let s := s.onPkg fun p =>
    let p := (p.wr (Reg.HIF_RING 0) 0).wr (Reg.HIF_RING_PTR 0) 0
    let p := ((p.putB (Reg.HIF_RING_EN 0) true).put (Reg.HIF_RING_STAKE 0) 15).put (Reg.HIF_RING_VECTOR 0) (p.fld Reg.HIF_ADMIN_CFG_VECTOR)
    (p.put (Reg.HIF_RING_CQ_LOG2 0) cq).put (Reg.HIF_RING_SQ_LOG2 0) sq
  let s := s.onRing 0 fun _ =>
    { sqBase := a Reg.HIF_ADMIN_SQ_LO + a Reg.HIF_ADMIN_SQ_HI * 4294967296
      cqBase := a Reg.HIF_ADMIN_CQ_LO + a Reg.HIF_ADMIN_CQ_HI * 4294967296
      cqFree := 2 ^ cq }
  s.onHost fun h => { h with adminOpen := false }

/-- R344: the admin pair is removed at once; descriptors already fetched run on, and their completions are discarded. -/
def State.adminStop (s : State) : State :=
  let s := s.onPkg fun p => (p.wr (Reg.HIF_RING 0) 0).wr (Reg.HIF_RING_PTR 0) 0
  (s.onRing 0 fun _ => {}).onHost fun h => { h with flying := h.flying.filter fun f => f.ring ≠ 0 }

/-- A write of `HIF_ADMIN_CFG`. -/
def State.wAdminCfg (s : State) (w : Reg32) : State :=
  let was := s.pkg.flag Reg.HIF_ADMIN_CFG_EN
  let s := s.onPkg fun p => p.store Reg.HIF_ADMIN_CFG w
  if w.getLsbD 31 && !was then s.adminStart else if !w.getLsbD 31 && was then s.adminStop else s

/-- R344: an admin register is closed by the lock, but not after a link reset until the pair is enabled again. -/
def adminReg (off : Nat) : Bool := 0x800010 ≤ off && off ≤ 0x800020
def State.adminClosed (s : State) : Bool := s.locked && !s.pkg.host.adminOpen

/-- R368, the MSI-X rules of PCI Express: unmasking a vector with a pending message sends it. -/
def State.wMsix (s : State) (i : Nat) (w : Reg32) : State :=
  let s := s.onPkg fun p => p.wr (Reg.HIF_MSIX_TABLE i) (if i % 4 = 3 then w &&& 1 else if i % 4 = 0 then w &&& 0xFFFFFFFC else w)
  if i % 4 = 3 then s.msixPending (i / 4) else s

/-- R395, R399: a write of `ETH_CTRL`; with the MAC and time disabled, time is not maintained. -/
def State.wEthCtrl (s : State) (w : Reg32) : State :=
  let s := s.onPkg fun p => p.store Reg.ETH_CTRL w
  if w.getLsbD 31 then s else s.timeNone

/-- The effect of a write of a package register that has passed its checks. -/
def State.pkgStore (s : State) (off : Nat) (w : Reg32) : State :=
  let c := (off - 0x810000) / 0x4000
  if off = Reg.HIF_SETUP_LOCK then s.wSetupLock w
  else if off = Reg.HIF_ADMIN_CFG then s.wAdminCfg w
  else if inArr off (Reg.HIF_MSIX_TABLE 0) 256 4 then s.wMsix ((off - Reg.HIF_MSIX_TABLE 0) / 4) w
  else if off = Reg.CAN_CTRL c && c < 2 then s.wCanCtrl c w
  else if (off = Reg.CAN_NBT c || off = Reg.CAN_DBT c) && c < 2 && s.pkg.flag (Reg.CAN_CTRL_EN c) then s.canRefuse c
  else if off = Reg.ETH_CTRL then s.wEthCtrl w
  else if off = Reg.SEC_ENROLL then s.wEnroll w
  else if off = Reg.SEC_RESET then s.wSecReset w
  else if off = Reg.SEC_UNLOCK_CTRL then s.wUnlock w
  else s.onPkg fun p => p.store off w

/-- A write of a word of the package region, by its BAR0 offset. -/
def State.pkgReg (s : State) (src : Src) (off : Nat) (w : Reg32) : State :=
  let range := fun (s : State) => if src = .tune then s else s.rangeDrop off w
  if 0x860000 ≤ off then (if src = .host then s.badAccess off else s)
  else if src = .manager && (s.stake 0).vote.halted then s
  else if 0x810000 ≤ off && off < 0x820000 && !s.alive 1 then s
  else match canSlot off with
    | some (c, i, o) => s.wCanBuf src c i o w false
    | none =>
      if if adminReg off then s.adminClosed else s.locked && closedTo src off then s.lockedPkg src off w
      else match regAt off with
        | none => s
        | some r => if !r.inRange w || pkgCrossBad off w then range s else s.pkgStore off w

/-- A write of a register by its BAR0 address. -/
def State.regWrite (s : State) (src : Src) (addr : Nat) (w : Reg32) : State :=
  if addr % 4 ≠ 0 || 0x1000000 ≤ addr then s
  else if addr < 0x800000 then s.stakeReg src (addr / 0x100000) (addr % 0x100000) w
  else s.pkgReg src addr w

end Sys2Proof.Machine
end

