-- ==== Sys2Proof/Machine/ReadOps.lean ====
section
/-! DEFINITION. Reading a word of a stake's window or of the package region (R6 to R9, R16, R17, R35 to R39, R384), and the snapshot of R7. -/
namespace Sys2Proof.Machine

/-- All-ones. -/
def ones : BitVec 32 := BitVec.allOnes 32

/-- R7: the low and the high word of a 48-bit value in its slot, a signed one sign-extended. -/
def lowWord (v : Word48) : BitVec 32 := v.setWidth 32
def highWord (signed : Bool) (v : Word48) : BitVec 32 :=
  if signed then (v.signExtend 64 >>> 32).setWidth 32 else (v.setWidth 64 >>> 32).setWidth 32

/-- The slots of signed 48-bit values, by the offset of the low word (R7, R11, R13). -/
def signedSlot (lo : Nat) : Bool :=
  inArr lo (Reg.ANG_CLK_SPEED 0) 2 64 || inArr lo (Reg.SNS_CH_GAIN 0) 16 64 || inArr lo (Reg.SNS_CH_OFFSET 0) 16 64 ||
  inArr lo (Reg.SNS_CH_SAMPLE 0) 16 64 || inArr lo (Reg.POS_SRC_SPEED 0) 4 32 || lo = Reg.FLD_CATCH_SPEED ||
  (0x40100 ≤ lo && lo < 0x40250) || lo = Reg.FLD_FB_XON || lo = Reg.FLD_FB_XOFF || lo = Reg.FLD_FB_X ||
  (0x50210 ≤ lo && lo < 0x50228) || lo = Reg.MOD_SH_ID || lo = Reg.MOD_SH_IQ || lo = Reg.PLT_TMON_EST ||
  (match tableAt lo with | some t => t < 3 | none => false)

/-- R59, R63: `SPENT` of 32 entries. -/
def Stake.spentWord (k : Stake) (i : Nat) : BitVec 32 :=
  BitVec.ofNat 32 ((List.range 32).foldl (fun a j => if (k.entry (32 * i + j)).spent then a + 2 ^ j else a) 0)

/-- A word of an angle clock's block, by its place in it: `ANGLE`, `SPEED`, `STATUS`; the other words are stored. -/
def Stake.clockWord (k : Stake) (c o off : Nat) : BitVec 32 :=
  let x := k.clock c
  match o with
  | 0x10 => lowWord x.theta
  | 0x14 => highWord false x.theta
  | 0x18 => lowWord (w48 x.omega)
  | 0x1C => highWord true (w48 x.omega)
  | 0x20 => (Reg.ANG_CLK_STATUS_VALID c).put ((Reg.ANG_CLK_STATUS_DIR c).put (k.rd off) (if x.rev then 1 else 0)) (if x.valid then 1 else 0)
  | _ => k.rd off

/-- R40: `WORST_LANE` and `WORST_MARGIN` of a port at the moment of reading, over the healthy lanes it receives; never stored. -/
def Stake.worstMargin (k : Stake) (d : Dir) : BitVec 32 :=
  let live := healthy (k.fld (laneFailed (match d with | .asc => Reg.WAL_LANE_ASC_RX | .dsc => Reg.WAL_LANE_DSC_RX)))
  let m := fun (i : Nat) => nth 0 (k.dir d).margins i
  let least := live.foldl (fun a i => if m i < m a then i else a) (live.headD 0)
  BitVec.ofNat 32 (least * 256 + m least % 256)

/-- The word a stake's window holds at an offset. -/
def Stake.word (k : Stake) (off : Nat) : BitVec 32 :=
  if fbOnly off && k.id ≠ 1 then ones
  else if off = Reg.WAL_MARGIN_ASC then k.worstMargin .asc
  else if off = Reg.WAL_MARGIN_DSC then k.worstMargin .dsc
  else if off = Reg.FLD_FB_CTRL && k.fld Reg.PLT_VOTE_STATUS_MODE = 2 then Reg.FLD_FB_CTRL_EN.put (k.rd off) 0
  else if off = Reg.ANG_TICK_LO then lowWord k.ang.tick
  else if off = Reg.ANG_TICK_HI then highWord false k.ang.tick
  else if inArr off (Reg.ANG_SPENT 0) 4 4 then k.spentWord ((off - Reg.ANG_SPENT 0) / 4)
  else if 0x30040 ≤ off && off < 0x300C0 then k.clockWord ((off - 0x30040) / 64) ((off - 0x30040) % 64) off
  else if inArr off (Reg.ANG_ENT_CTRL 0) 127 32 then
    (Reg.ANG_ENT_CTRL_SPENT 0).put (k.rd off) (if (k.entry ((off - Reg.ANG_ENT_CTRL 0) / 32)).spent then 1 else 0)
  else
    let lo := off / 8 * 8
    match tableAt off with
    | some t =>
      let g := fun (o : Nat) => Store.get (fun _ => 0) k.tbl (k.tblPlace t o)
      if off = lo then g off else highWord (signedSlot lo) (BitVec.ofNat 48 ((g off).toNat % 65536 * 4294967296))
    | none => if off ≠ lo && signedSlot lo then highWord true (k.get48 lo) else k.rd off

/-- R7 and the register descriptions: the words that a read of a low word latches. -/
def lowGroup (off : Nat) : List Nat :=
  if off = Reg.ANG_TICK_LO then [Reg.ANG_TICK_HI, Reg.ANG_TICK_STATUS]
  else if inArr off (Reg.ANG_CLK_ANGLE 0) 2 64 then [off + 4, off + 8, off + 12, off + 16]
  else if inArr off (Reg.SNS_CH_SAMPLE 0) 16 64 then
    let c := (off - Reg.SNS_CH_SAMPLE 0) / 64
    [off + 4, Reg.SNS_CH_STATUS c, Reg.SNS_CH_VOLTS c, Reg.SNS_CH_CENTRE c]
  else if inArr off (Reg.POS_SRC_ANGLE 0) 4 32 then
    [off + 4, off + 8, off + 12, Reg.POS_SRC_STATUS ((off - Reg.POS_SRC_ANGLE 0) / 32)]
  else if off = Reg.FLD_CATCH_ANGLE then [off + 4, off + 8, off + 12, off + 16, off + 20, Reg.FLD_CATCH_STATUS]
  else if inArr off (Reg.ANG_CLK_SPEED 0) 2 64 || inArr off (Reg.POS_SRC_SPEED 0) 4 32 || off = Reg.POS_SSP_RAW ||
      off = Reg.FLD_CATCH_SPEED || off = Reg.FLD_CATCH_TICK || off = Reg.FLD_FB_X || off = Reg.PLT_TMON_EST || slotAt off = some off then
    [off + 4]
  else []

/-- The same for the package region. -/
def lowGroupPkg (off : Nat) : List Nat :=
  if off = Reg.ETH_MAP_TICK then [off + 4, off + 8, off + 12, off + 16, off + 20, Reg.ETH_MAP_RATE]
  else if off = Reg.ETH_MAP_NT || off = Reg.ETH_MAP_MS || off = Reg.NVM_CFG_GEN then [off + 4]
  else []

/-- R7: a read of a word: a word that waits in the snapshot is taken from it; the read of a low word latches its group. -/
def readThrough (snap : List (Nat × BitVec 32)) (now : Nat → BitVec 32) (group : List Nat) (off : Nat) :
    BitVec 32 × List (Nat × BitVec 32) :=
  match snap.find? fun e => e.1 = off with
  | some e => (e.2, snap.filter fun x => x.1 ≠ off)
  | none => (now off, (snap.filter fun x => !group.contains x.1) ++ group.map fun o => (o, now o))

/-- A read of a word of a stake's window by whoever reads it. -/
def State.readStake (s : State) (n off : Nat) : BitVec 32 × State :=
  let k := s.stake n
  if !s.alive n then (ones, s)
  else
    let (v, l) := readThrough k.snap k.word (if fbOnly off && n ≠ 1 then [] else lowGroup off) off
    (v, s.onStake n fun k => { k with snap := l })

/-- The word the package region holds at a BAR0 offset (R17, R36, R384, R398). -/
def State.pkgWord (s : State) (off : Nat) : BitVec 32 :=
  if 0x860000 ≤ off || (0x810000 ≤ off && off < 0x820000 && !s.alive 1) then ones
  else if off = Reg.ETH_NT_NS then s.ntNs
  else match canSlot off with
    | some (c, i, o) =>
      (match (s.canSt c).shadow.find? fun e => e.1 = i with
      | some e => if 0xC ≤ o then nth 0 e.2 (o / 4) else s.pkg.rd off
      | none => s.pkg.rd off)
    | none => s.pkg.rd off

/-- A read of a word of the package region; that of a buffer's `CTRL` word latches the buffer (R384). -/
def State.readPkg (s : State) (off : Nat) : BitVec 32 × State :=
  let (v, l) := readThrough s.pkg.snap s.pkgWord (lowGroupPkg off) off
  let s := s.onPkg fun p => { p with snap := l }
  match canSlot off with
  | some (c, i, o) => (v, if o = 8 && s.alive 1 then s.canLatch c i else s)
  | none => (v, s)

/-- R38: every read of BAR2, by its offset there, returns zero. -/
def bar2Read (_ : Nat) : BitVec 32 := 0

/-- A read of a word by its BAR0 address; before READY the host sees the HIF window alone (R342). -/
def State.readAddr (s : State) (addr : Nat) : BitVec 32 × State :=
  if !s.ready && !(0x800000 ≤ addr && addr < 0x810000) then (ones, s)
  else if addr < 0x800000 then s.readStake (addr / 0x100000) (addr % 0x100000)
  else s.readPkg addr

end Sys2Proof.Machine
end

