-- ==== Sys2Proof/Machine/Access.lean ====
section
/-! DEFINITION. Commands that read and write registers: SETUP_REGISTER_WRITE to BAR2_RESERVED_WRITE and the register cells of the wale
(R6 to R9, R15, R16, R36 to R38, R69). -/
namespace Sys2Proof.Machine

/-- SETUP_REGISTER_WRITE (R8, R15, R17, R37, R377, and each block's rules): a write of a register by its BAR0 address. -/
def execSetupRegisterWrite (src : Src) (addr : Nat) (w : Reg32) (s : State) : Host.Outcome State Fault Refusal :=
  .next ((s.crossedAt src addr 1 [w.toNat]).regWrite src addr w)

/-- BAD_WIDTH_ACCESS (R6): an access of a number of bytes. -/
def execBadWidthAccess (write : Bool) (addr bytes : Nat) (s : State) : Host.Outcome State Fault Refusal :=
  .next (if (bytes = 4 && addr % 4 = 0) || 0x1000000 ≤ addr then s
  else
    let s := s.badAccess addr
    if write then s else s.answer addr ones)

/-- LOW_WORD_READ_LATCH (R7). -/
def execLowWordReadLatch (addr : Nat) (s : State) : Host.Outcome State Fault Refusal :=
  let low := if addr < 0x800000 then !(lowGroup (addr % 0x100000)).isEmpty else !(lowGroupPkg addr).isEmpty
  .next (if low then let (v, s) := (s.crossedAt .host addr 0 []).readAddr addr; s.answer addr v else s)

/-- HIGH_WORD_WRITE_COMMIT (R7): a write of the high word of a slot that can be written. -/
def execHighWordWriteCommit (src : Src) (addr : Nat) (w : Reg32) (s : State) : Host.Outcome State Fault Refusal :=
  .next (if addr < 0x800000 && addr % 8 = 4 && (slotAt (addr % 0x100000)).isSome then
    (s.crossedAt src addr 1 [w.toNat]).regWrite src addr w else s)

/-- W1C bits of a register that the device sets, by BAR0 address. -/
def State.setFlags (s : State) (addr : Nat) (set : BitVec 32) : State :=
  let off := if addr < 0x800000 then addr % 0x100000 else addr
  match regAt off with
  | none => s
  | some r =>
    let m := set &&& r.mask .w1c
    if addr < 0x800000 then
      (if s.alive (addr / 0x100000) then s.onStake (addr / 0x100000) fun k => k.wr off (k.rd off ||| m) else s)
    else s.onPkg fun p => p.wr off (p.rd off ||| m)

/-- W1C_CLEAR (R8, R9): a write that carries W1C bits; the device sets the bits of `setNow` in the same tick. -/
def execW1cClear (addr : Nat) (w setNow : Reg32) (s : State) : Host.Outcome State Fault Refusal :=
  .next (if clears (if addr < 0x800000 then addr % 0x100000 else addr) w then
    ((s.crossedAt .host addr 1 [w.toNat]).regWrite .host addr w).setFlags addr setNow else s)

/-- SAT_CLEAR (R68, R69): `SAT` of a counter is written with 1; `incs` events are counted in the same tick. -/
def execSatClear (addr incs : Nat) (s : State) : Host.Outcome State Fault Refusal :=
  let off := if addr < 0x800000 then addr % 0x100000 else addr
  .next (if addr < 0x800000 && off = Reg.ANG_TICK_STATUS then
    ((s.crossedAt .host addr 1 [0x10000]).regWrite .host addr 0x10000).onStake (addr / 0x100000) fun k =>
      (k.put Reg.ANG_TICK_STATUS_WRAP_COUNT (min 255 (k.fld Reg.ANG_TICK_STATUS_WRAP_COUNT + incs))).putB Reg.ANG_TICK_STATUS_WRAP_SAT
        (255 ≤ k.fld Reg.ANG_TICK_STATUS_WRAP_COUNT + incs || k.flag Reg.ANG_TICK_STATUS_WRAP_SAT)
  else match (regAt off).bind counterWidth with
    | none => s
    | some c =>
      let s := (s.crossedAt .host addr 1 [0x80000000]).regWrite .host addr 0x80000000
      if incs = 0 then s
      else if addr < 0x800000 then
        (if s.alive (addr / 0x100000) then s.onStake (addr / 0x100000) fun k => k.wr off (satAdd c (k.rd off) incs) else s)
      else s.onPkg fun p => p.wr off (satAdd c (p.rd off) incs))

/-- ABSENT_STAKE_ACCESS (R16, R31, R332): an access to the window of a stake that is absent or lost. -/
def execAbsentStakeAccess (write : Bool) (addr : Nat) (s : State) : Host.Outcome State Fault Refusal :=
  .next (if 0x800000 ≤ addr || s.alive (addr / 0x100000) || write then s else s.answer addr ones)

/-- RESERVED_PACKAGE_ACCESS (R36). -/
def execReservedPackageAccess (write : Bool) (addr : Nat) (s : State) : Host.Outcome State Fault Refusal :=
  .next (if addr < 0x860000 || 0x1000000 ≤ addr then s
  else
    let s := s.badAccess addr
    if write then s else s.answer addr ones)

/-- BAR2_RESERVED_WRITE (R38): a write in the upper half of BAR2, by its offset there. -/
def execBar2ReservedWrite (addr : Nat) (w : Reg32) (s : State) : Host.Outcome State Fault Refusal :=
  let _ := w
  .next (if 0x800 ≤ addr && addr < 0x1000 then s.badAccess addr else s)

/-- Where a register cell at stake n acts: its own window, or for an offset of the package region the region as that stake serves it
(R17, R35). -/
def State.serves (s : State) (n off : Nat) : Bool :=
  s.alive n && (off < 0x100000 || (if 0x810000 ≤ off && off < 0x820000 then n = 1 else n = 0 && 0x800000 ≤ off && off < 0x860000))

/-- REG_READ_REQUEST_CELL (R7, R17, R37): a read arrives at stake n and is answered by a `KIND` 2 cell. -/
def execRegReadRequestCell (n tag off : Nat) (s : State) : Host.Outcome State Fault Refusal :=
  .next (if !s.serves n off then s
  else
    let addr := if off < 0x100000 then bar0 n off else off
    let s := s.crossed .host n 0 tag [addr]
    let (v, s) := s.readAddr addr
    let s := s.onPkg fun p => { p with reads := p.reads ++ [(tag, addr, v)] }
    if n = 0 then s else s.onStake n fun k => k.sendCell (k.cell 0 1 2 tag [v.toNat]))

/-- REG_WRITE_CELL (R27, R37, R334): a register write arrives at stake n, or a request of its neighbour that the direction at a port be
retrained with lanes mapped out. -/
def execRegWriteCell (n : Nat) (src : Src) (off : Nat) (w : Reg32) (retrain : Option (Dir × List Nat)) (s : State) :
    Host.Outcome State Fault Refusal :=
  .next (match retrain with
    | some (d, lanes) => if s.alive n then s.onStake n fun k => k.wantRetrain d (lanes.filter fun i => i < 18) else s
    | none =>
      if !s.serves n off then s
      else
        let s := s.crossed src n 1 0 [if off < 0x100000 then bar0 n off else off, w.toNat]
        if off < 0x100000 then s.stakeReg src n off w else s.pkgReg src off w)

/-- REG_READ_RETURN_CELL (R37): the answer with a tag reaches the anchor, and the host's read completes. -/
def execRegReadReturnCell (tag : Nat) (s : State) : Host.Outcome State Fault Refusal :=
  .next (match s.pkg.reads.find? fun e => e.1 = tag with
    | none => s
    | some e => (s.onPkg fun p => { p with reads := dropFirst (fun x => x.1 = tag) p.reads }).answer e.2.1 e.2.2)

end Sys2Proof.Machine
end

