-- ==== Sys2Proof/Machine/StartOps.lean ====
section
/-! DEFINITION. Shared operations of the start-up: what upsett finds, the ring, the configuration, BOOT_READY, the flash (R323 to R338,
R423 to R436). -/
namespace Sys2Proof.Machine

/-! Upsett (R330, R331). -/

/-- The bits of a mask of n, in ascending order, that are set, and those that are clear. -/
def bitsSet (n m : Nat) : List Nat := (List.range n).filter m.testBit
def bitsClear (n m : Nat) : List Nat := (List.range n).filter fun i => !m.testBit i

/-- R331, R332: the stake fails upsett: no PLL, two or more cores, or a bank without spare rows left. -/
def upFails (r : UpsettRes) : Bool :=
  (r.pllMain && r.pllSpare) || 2 ≤ coreCount r.cores || (r.sramRows.take 8).any fun x => 32 < x

/-- R93, R331: failed decimators: their channels take the spares that pass in ascending order; channels for which none is left, the
highest-numbered ones, have no decimator. -/
def Stake.upDec (k : Stake) (m : Nat) : Stake :=
  let bad := bitsSet 16 m
  let spare := (bitsClear 2 (m / 65536))
  let served := (bad.zip spare)
  let out := bad.drop spare.length
  let k := served.foldl (fun q (x : Nat × Nat) =>
    (q.put (if x.2 = 0 then Reg.SNS_SPLICE_SPARE0_CH else Reg.SNS_SPLICE_SPARE1_CH) x.1).putB (Reg.SNS_CH_STATUS_SPLICED x.1) true) k
  let k := out.foldl (fun q c => q.putB (Reg.SNS_CH_STATUS_UNAVAIL c) true) k
  (k.put Reg.SNS_SPLICE_UNAVAIL (out.foldl (fun a c => a ||| 2 ^ c) 0)).put Reg.SPL_SUMMARY_DEC served.length

/-- R331, R337: multiplier slices. -/
def Stake.upMul (k : Stake) (m : Nat) : Stake :=
  let bad := (bitsSet 14 m).length
  ((k.put Reg.SPL_MUL_FAILED m).put Reg.SPL_MUL_SPARES_USED (min 2 bad)).put Reg.SPL_SUMMARY_MUL (min 2 bad)

/-- R331: the field engine has lost more slices than there are spares: its axis stays NOT_READY. -/
def Stake.mulOut (k : Stake) : Bool := 2 < (bitsSet 14 (k.fld Reg.SPL_MUL_FAILED)).length

/-- R269, R331: the edge-lane drivers of the four ports. -/
def Stake.upEdge (k : Stake) (main spare : Nat) : Stake :=
  [0, 1, 2, 3].foldl (fun q p =>
    let m := main.testBit p
    (q.onLeg p fun l => { l with mainBad := m, noDriver := m && spare.testBit p }).edgeLane p m) k

/-- R331: SRAM rows, in spares used of each bank. -/
def Stake.upSram (k : Stake) (rows : List Nat) : Stake :=
  let k := (List.range 8).foldl (fun q b => q.put (Reg.SPL_SRAM_BANK_SPARES_USED b) (nth 0 rows b)) k
  k.put Reg.SPL_SUMMARY_SRAM_ROWS (min 255 ((rows.take 8).foldl (· + ·) 0))

/-- R331, R409: the PLL in use and the reference it locks to. -/
def Stake.upPll (k : Stake) (main : Bool) : Stake :=
  let k := ((k.putB Reg.SPL_CORE_PLL_MAIN_PLL_FAIL main).putB Reg.SPL_CORE_PLL_SPARE_PLL main).putB Reg.SPL_SUMMARY_PLL main
  ((k.putB Reg.CLK_STATUS_PLL_LOCK true).putB Reg.CLK_STATUS_SPARE main).putB Reg.CLK_STATUS_REF_OK true

/-- R331: the cores; with one out the plait is two-of-two from the start. -/
def Stake.upCores (k : Stake) (m : Nat) : Stake :=
  let k := (k.put Reg.SPL_CORE_PLL_CORE_FAIL m).put Reg.SPL_SUMMARY_CORES_OUT m
  if m % 8 = 0 then k else (k.put Reg.PLT_VOTE_STATUS_LEFT_OUT m).put Reg.PLT_VOTE_STATUS_MODE 1

/-- R330, R331: what the upsett phase leaves on a stake. -/
def Stake.upsett (k : Stake) (r : UpsettRes) : Stake :=
  let k := (k.putB Reg.SPL_UPSETT_DONE true).put Reg.SPL_UPSETT_DURATION (min 65535 r.duration)
  if upFails r then { k with stopped := true }
  else
    let k := ((k.upPll r.pllMain).upCores r.cores).upSram r.sramRows
    let k := ((k.upDec r.decimators).upMul r.slices).upEdge r.edgeMain r.edgeSpare
    { k.calibrate r.cells with wal := { k.wal with hbLast := k.now } }

/-- R20, R331: the lanes of the directions of the link at a port, found by either end. -/
def upLanes (l : List UpsettRes) (n m : Nat) (d : Dir) : Nat × Nat :=
  let a : UpsettRes := nth ⟨false, false, 0, [], 0, 0, 0, 0, 0, 0, 0, 0, 0, 0⟩ l n
  let b : UpsettRes := nth ⟨false, false, 0, [], 0, 0, 0, 0, 0, 0, 0, 0, 0, 0⟩ l m
  match d with
  | .asc => (a.ascTx ||| b.dscRx, a.ascRx ||| b.dscTx)
  | .dsc => (a.dscTx ||| b.ascRx, a.dscRx ||| b.ascTx)

/-- R19, R20, R331: the lane maps of a port and its link; a direction that keeps fewer than 16 lanes is down, and with it the link. -/
def State.upLink (s : State) (l : List UpsettRes) (n : Nat) (d : Dir) : State :=
  let m := s.nbr n d
  let (tx, rx) := upLanes l n m d
  let ok := s.alive n && s.alive m && count18 tx ≤ 2 && count18 rx ≤ 2
  if !s.alive n then s
  else s.onStake n fun k => ((k.laneMap (txReg d) (tx % 262144)).laneMap (rxReg d) (rx % 262144)).putB (upField d) ok

/-- R30, R330 to R332: the package after upsett. -/
def State.upsettAll (s : State) (l : List UpsettRes) : State :=
  let d : UpsettRes := ⟨false, false, 0, [], 0, 0, 0, 0, 0, 0, 0, 0, 0, 0⟩
  let ns := List.range s.part.stakes
  let s := ns.foldl (fun s n => s.onStake n fun k => k.upsett (nth d l n)) s
  let mask := ns.foldl (fun a n => if upFails (nth d l n) then a else a ||| 2 ^ n) 0
  let s := (s.onPkg fun p => p.put Reg.HIF_PKG_ALIVE_ALIVE mask).onBoot fun b => { b with passed := mask }
  let s := ns.foldl (fun s n => (s.upLink l n .asc).upLink l n .dsc) s
  (s.onStake 0 fun k => (k.putB Reg.WAL_STATUS_MASTER (!k.stopped)).onAng fun a => { a with loaded := true }).ringOpen

/-! The choice of the image (R431 to R435). -/

/-- R440: boot verification is the seal unit's while it runs. -/
def State.verifyStart (s : State) (p : Phase) : State := s.onBoot fun b => { b with phase := p, sealOp := some (.boot, []) }

/-- R430: the cause of a slot. -/
def causeField (slot : Nat) : Fld := if slot = 0 then Reg.SEC_BOOT_STATUS_CAUSE_A else Reg.SEC_BOOT_STATUS_CAUSE_B

/-- R431, R434: a slot passes: its image is the one that runs, and it is distributed. -/
def State.imageTaken (s : State) (slot : Nat) (other : Bool) : State :=
  let h := s.pkg.nv.header slot
  let s := s.onPkg fun p =>
    ((p.put Reg.SEC_BOOT_STATUS_SLOT slot).put Reg.SEC_BOOT_STATUS_SVN (leOf h 6 2)).putB Reg.SEC_BOOT_STATUS_FALLBACK other
  let s := s.onBoot fun b => { b with running := h, phase := .distribution, distDone := [0], sealOp := none }
  let s := s.onStake 0 fun k => { k with wal := { k.wal with started := true } }
  let s := if other then
      s.postPkg .secSlotFallback 1 [s.pkg.fld Reg.SEC_BOOT_STATUS_CAUSE_A, s.pkg.fld Reg.SEC_BOOT_STATUS_CAUSE_B]
    else s
  s.distOver

/-- R425, R435, R442: what `READY` says, and the queued events leave. -/
def State.makeReady (s : State) (p : Phase) (state : Nat) : State :=
  let s := (s.onBoot fun b => { b with phase := p, sealOp := none }).onPkg fun q =>
    (q.put Reg.SEC_BOOT_STATUS_STATE state).putB Reg.HIF_STATUS_READY true
  s.drain

/-- R435: neither slot passes. -/
def State.recovery (s : State) : State :=
  let v := [s.pkg.fld Reg.SEC_BOOT_STATUS_CAUSE_A, s.pkg.fld Reg.SEC_BOOT_STATUS_CAUSE_B]
  (s.postPkg .secBootFail 0 v).makeReady .recovery 2

/-! The configuration (R320, R326 to R329). -/

/-- R320: a stake with its split bit set starts in split mode, unless a core is fenced or left out. -/
def Stake.splitBoot (k : Stake) : Stake :=
  if k.fld Reg.PLT_VOTE_STATUS_FENCED ≠ 0 || k.fld Reg.PLT_VOTE_STATUS_LEFT_OUT ≠ 0 then k.modeRefuse 4
  else (k.put Reg.PLT_VOTE_STATUS_MODE 2).putB Reg.PLT_MODE_SPLIT_BOOT true

/-- R326: no configuration is in force: every axis enters SAFE with SAFE_OFF, and the resolver is not run. -/
def Stake.cfgSafe (k : Stake) : Stake :=
  let k := (k.onPrt fun p => { p with f3 := p.f3.filter fun r => r.ev ≠ .cfgSplit }).seizePorts 1 10 []
  if k.mulOut then k else (k.endDrive.setAxis axSafe 1).syncActive

/-- R326, R327: the copies are judged; the configuration that results is applied: its register writes, and its split mask. -/
def State.cfgApply (s : State) (splitMask : Nat) (writes : List (Nat × Reg32)) : State :=
  let l := s.pkg.nv.cfg
  let (row, pick, rw) := cfgJudge l
  let c := pick.map fun i => nth {} l i
  let best := l.foldl (fun a x => if x.state = 1 then max a x.gen else a) 0
  let gen := match c with | some x => x.gen | none => best
  let s := s.onBoot fun b => { b with inForce := c, rewrite := rw, chosen := c.getD {} }
  let s := s.onPkg fun p =>
    (((p.put Reg.NVM_CFG_STATUS_OUTCOME row).putB Reg.NVM_CFG_STATUS_IN_FORCE c.isSome).putB Reg.NVM_CFG_STATUS_REWRITE_PENDING
      (!rw.isEmpty)).put48 Reg.NVM_CFG_GEN (BitVec.ofNat 48 gen)
  let s := s.copySync
  let v := row :: cfgVals l
  match c with
  | none => (s.postPkg .cfgSplit 3 v).onAll fun k => if k.stopped then k else k.cfgSafe
  | some _ =>
    let s := if row = 1 then s else if row = 4 then s.postPkg .cfgDegraded 0 v else s.postPkg .cfgMinority 0 v
    let s := writes.foldl (fun s x => s.regWrite .manager x.1 x.2) s
    ((List.range s.part.stakes).filter fun n => s.alive n && splitMask.testBit n).foldl (fun s n => s.onStake n Stake.splitBoot) s

/-- BOOT_READY (R342, R425, R436): axes are OFF, or SAFE under `CFG_SPLIT`. -/
def State.bootReady (s : State) : State :=
  let s := s.onAll fun k => if k.stopped || k.mulOut || k.axis ≠ axNotReady then k else k.setAxis axOff 0
  let s := (s.onBoot fun b => { b with phase := .ready }).onPkg fun p =>
    (p.put Reg.SEC_BOOT_STATUS_STATE 1).putB Reg.HIF_STATUS_READY true
  s.rollbackAdvance.drain

/-! BULK operations (R327, R360, R361, R432, R433). -/

/-- A completion of a descriptor. -/
def Desc.done (d : Desc) (status info : Nat) : Completion := { ring := d.ring, cid := d.cid, op := d.op, status := status, info := info }

/-- R361: the first check a BULK descriptor fails: status and `INFO`. `busy` says that its target is in use, `slot` which flash slot it
names. -/
def State.bulkRefusal (s : State) (d : Desc) (busy : Bool) (slot : Option Nat) : Option (Nat × Nat) :=
  let more := (s.pkg.host.descs.any fun x => x.ring = d.ring) || 0 < s.sqAvail d.ring
  if (s.stake 0).flag Reg.SUP_STATUS_INHIBIT then some (4, 1)
  else if busy then some (3, 1)
  else if !s.within 3 && more then some (3, 2)
  else if (List.range s.part.stakes).any fun n => s.alive n && (s.stake n).axis = axDischarge then some (5, 1)
  else if d.op = 0x30 && s.cfgGen + 1 = 281474976710656 then some (5, 2)
  else if slot = some (s.pkg.fld Reg.SEC_BOOT_STATUS_SLOT) then some (5, 3)
  else none

/-- R432: the flash is in use by a staging or a commit. -/
def State.flashBusy (s : State) : Bool :=
  let commit : SealOp → Bool := fun o => match o with | .commit .. => true | _ => false
  s.pkg.boot.fwOp.isSome || s.pkg.boot.sealQ.any commit ||
    (match s.pkg.boot.sealOp with | some (o, _) => commit o | none => false)

/-- R432: a 64 KiB sector is erased. -/
def NvState.eraseSector (n : NvState) (a : Nat) : NvState :=
  { n with flash := n.flash.erase a 65536 }

/-- R432: the sectors of a staging: those whose first byte lies in its range, and the slot's first sector where it is the first staging. -/
def NvState.stageErase (n : NvState) (slot off len : Nat) (first : Bool) : NvState :=
  let l := (List.range 64).filter fun i => (off ≤ 65536 * i && 65536 * i < off + len) || (first && i = 0)
  l.foldl (fun n i => n.eraseSector (slotBase slot + 65536 * i)) n

/-- R432: words are programmed: a bit that is 0 stays 0 until its sector is erased. -/
def NvState.program (n : NvState) (a : Nat) (words : List (BitVec 32)) : NvState :=
  { n with flash := (words.mapIdx fun i w => (a + 4 * i, w)).foldl (fun st (x : Nat × BitVec 32) =>
      Store.set flashErased st x.1 (Store.get flashErased st x.1 &&& x.2)) n.flash }

/-- R324, R360: the copy a CFG_WRITE forms. -/
def cfgForm (gen : Nat) (body : List Nat) : CfgCopy :=
  let h := bytesN 8 gen ++ bytesN 4 body.length ++ bytesN 2 1 ++ [0, 0]
  { header := h ++ digest32 (h ++ body), body := body }

/-- The bytes a data read returned, to a length. -/
def dataOf (len : Nat) (l : List Nat) : List Nat := (l.map (· % 256) ++ List.replicate (len - l.length) 0).take len

/-- R327, R329: a CFG_WRITE whose digest is formed ends: three copies read back VALID and equal. -/
def State.cfgWritten (s : State) (op : CfgOp) (splitMask : Nat) (writes : List (Nat × Reg32)) : State :=
  let s := (s.onNv fun n => n.copySteps [0, 1, 2] op.copy (3 * copyOps)).onBoot fun b => { b with cfgOp := none }
  let s := s.copySync
  let s := s.finish { ring := op.ring, cid := op.cid, op := 0x30, status := 0,
                      result := bytesN 6 op.copy.gen ++ [0, 0] ++ op.copy.digest.take 8 }
  if s.pkg.boot.inForce.isNone && s.pkg.boot.phase = .ready then s.cfgApply splitMask writes else s

end Sys2Proof.Machine
end

