-- ==== Sys2Proof/Machine/DescOps.lean ====
section
/-! DEFINITION. Descriptors: their checks (R349 to R362), the writes of TUNE descriptors (R356 to R358), and shared operations of the admin
commands (R341, R362). -/
namespace Sys2Proof.Machine

/-! The checks of R350 that need the descriptor alone. -/

/-- A check: the offset of a byte, and whether it is at fault. -/
abbrev Check := Nat × Bool

/-- Reserved bytes from a to before b are zero. -/
def zeroBytes (d : List Nat) (a b : Nat) : List Check := (List.range (b - a)).map fun i => (a + i, nth 0 d (a + i) ≠ 0)

/-- The offset of the first byte at fault. -/
def firstBad (l : List Check) : Option Nat := (l.find? fun c => c.2).map (·.1)

/-- R349: the header. -/
def headerChecks (d : List Nat) : List Check := (1, 1 < nth 0 d 1) :: zeroBytes d 4 8

/-- R352: SETPOINT; `period` judges a carrier period. -/
def setpointChecks (d : List Nat) (period : Nat → Bool) : List Check :=
  let kind := nth 0 d 8
  let fl := nth 0 d 9
  ([(8, 3 < kind), (9, 7 < fl), (10, if kind = 3 then 1 < nth 0 d 10 else nth 0 d 10 ≠ 0), (11, nth 0 d 11 ≠ 0),
   (12, fl.testBit 1 && !period (leOf d 12 4))] : List Check) ++
  (if kind ≤ 1 then zeroBytes d 24 30 else []) ++ ([(32, fl.testBit 0 && le48 d 40 < le48 d 32)] : List Check) ++ zeroBytes d 48 64

/-- R354: AXIS. -/
def axisChecks (d : List Nat) : List Check := (8, nth 0 d 8 = 0 || 9 < nth 0 d 8) :: zeroBytes d 9 64

/-- R355: SET. -/
def setChecks (d : List Nat) (period : Nat → Bool) : List Check :=
  let m := nth 0 d 8
  let duty := fun (o : Nat) => (o, m.testBit 3 && nth 0 d 9 = 0 && 65536 < leOf d o 4)
  ([(8, m &&& 0x96 ≠ 0), (9, 1 < nth 0 d 9), (10, 15 < nth 0 d 10), (11, nth 0 d 11 ≠ 0), (12, m.testBit 0 && !period (leOf d 12 4)),
   duty 16, duty 20, duty 24, (28, m.testBit 5 && nth 0 d 9 = 0 && 65536 < leOf d 28 4)] : List Check) ++ zeroBytes d 40 64

/-- R356: REG_WRITE, but for its entries. -/
def regWriteChecks (d : List Nat) : List Check := (8, nth 0 d 8 = 0 || 6 < nth 0 d 8) :: zeroBytes d 9 16

/-- R357: TABLE_WRITE, but for its post-write. -/
def tableWriteChecks (d : List Nat) : List Check :=
  let t := leOf d 16 4
  let len := leOf d 20 4
  ([(8, leOf d 8 8 % 8 ≠ 0), (16, t % 8 ≠ 0 || t < 0xA0000 || 0xFFFF8 < t),
   (20, len % 8 ≠ 0 || len < 8 || 65536 < len || 0x100000 < t + len), (24, 1 < nth 0 d 24)] : List Check) ++ zeroBytes d 25 28 ++ zeroBytes d 36 64

/-- R359: STREAM_BUF. -/
def streamBufChecks (d : List Nat) : List Check :=
  let len := leOf d 16 4
  ([(8, leOf d 8 8 % 64 ≠ 0), (16, len % 64 ≠ 0 || len < 4096 || 1048576 < len)] : List Check) ++ zeroBytes d 22 64

/-- R360: the BULK descriptors. -/
def cfgWriteChecks (d : List Nat) : List Check :=
  let len := leOf d 16 4
  ([(16, len = 0 || 98256 < len), (28, leOf d 28 2 ≠ 1)] : List Check) ++ zeroBytes d 30 64
def fwStageChecks (d : List Nat) : List Check :=
  let len := leOf d 16 4
  let off := leOf d 20 4
  ([(8, leOf d 8 8 % 64 ≠ 0), (16, len % 64 ≠ 0 || len < 64 || 65536 < len), (20, off % 64 ≠ 0 || 0x400000 < off + len), (24, 1 < nth 0 d 24)] : List Check) ++
    zeroBytes d 25 64
def fwCommitChecks (d : List Nat) : List Check := (8, 1 < nth 0 d 8) :: zeroBytes d 9 64

/-- R362: the admin descriptors. -/
def ringCreateChecks (d : List Nat) : List Check :=
  let b := fun (i : Nat) => nth 0 d i
  let ring := leOf d 8 2
  ([(8, ring = 0 || 255 < ring), (10, 3 < b 10), (11, 7 < b 11 && b 11 ≠ 255), (12, if b 10 = 2 then 15 < b 12 else b 12 ≠ 0),
   (13, b 13 < 4 || 12 < b 13), (14, b 14 < 4 || 12 < b 14 || b 14 < b 13), (15, 63 < b 15),
   (16, leOf d 16 8 % 4096 ≠ 0), (24, leOf d 24 8 % 4096 ≠ 0)] : List Check) ++ zeroBytes d 32 64
def ringDeleteChecks (d : List Nat) : List Check := (8, leOf d 8 2 = 0 || 255 < leOf d 8 2) :: zeroBytes d 10 64
def getFaultsChecks (d : List Nat) : List Check :=
  ([(16, leOf d 16 4 % 128 ≠ 0), (20, 7 < nth 0 d 20 && nth 0 d 20 ≠ 255)] : List Check) ++ zeroBytes d 21 64
def getSnapshotChecks (d : List Nat) : List Check := zeroBytes d 18 64
def plaitModeChecks (d : List Nat) : List Check :=
  (8, 7 < nth 0 d 8) :: (9, 1 < nth 0 d 9) :: zeroBytes d 10 64
def attestChecks (d : List Nat) : List Check := zeroBytes d 52 64

/-- R350 check 2, R351: the checks of an opcode. -/
def opChecks (op : Nat) (d : List Nat) (period : Nat → Bool) : List Check :=
  headerChecks d ++
  match op with
  | 0x01 => setpointChecks d period
  | 0x02 => axisChecks d
  | 0x03 => setChecks d period
  | 0x10 => regWriteChecks d
  | 0x11 => tableWriteChecks d
  | 0x20 => streamBufChecks d
  | 0x30 => cfgWriteChecks d
  | 0x31 => fwStageChecks d
  | 0x32 => fwCommitChecks d
  | 0x40 => ringCreateChecks d
  | 0x41 => ringDeleteChecks d
  | 0x42 => getFaultsChecks d
  | 0x43 => getSnapshotChecks d
  | 0x44 => plaitModeChecks d
  | 0x45 => attestChecks d
  | _ => []

/-- R351: the opcodes, and the class of pair each is valid for; 4 is the admin pair. -/
def opClass (op : Nat) : Option Nat :=
  match op with
  | 0x01 | 0x02 | 0x03 => some 0
  | 0x10 | 0x11 => some 1
  | 0x20 => some 2
  | 0x30 | 0x31 | 0x32 => some 3
  | 0x40 | 0x41 | 0x42 | 0x43 | 0x44 | 0x45 => some 4
  | _ => none

/-! Arrival (R350). -/

/-- The target of a pair: its stake, or the package. -/
def State.target (s : State) (r : Nat) : Option Nat := if s.ringStake r < 8 then some (s.ringStake r) else none

/-- R358: transfer boundaries of the target of a pair, stake 0's for the package. -/
def State.boundsOf (s : State) (r : Nat) : Nat := (s.stake ((s.target r).getD 0)).bounds

/-- R347: the fetch of a descriptor of a pair ends. -/
def State.fetchEnds (s : State) (r : Nat) : State :=
  s.onRing r fun q => { q with fetching := q.fetching - 1, fetchAt := q.fetchAt.drop 1 }

/-- R345, R363: the SQ head passes a descriptor, which is from now on in flight. -/
def State.inFlight (s : State) (r : Nat) (b : List Nat) : State :=
  let f := Reg.HIF_RING_PTR_SQ_HEAD r
  let h := (s.pkg.fld f + 1) % s.sqSize r
  (s.onPkg fun p => p.put f h).onHost fun x =>
    { x with flying := x.flying ++ [{ ring := r, cid := leOf b 2 2, op := nth 0 b 0, sqHead := h, urgent := (nth 0 b 1).testBit 0 }] }

/-- R350, R353, R362: a descriptor of pair r has passed checks 1 and 2. One of class DRIVE or TUNE for a stake other than 0 is sent on to it
in a `KIND` 6 cell; a lost stake is found out at once. -/
def State.accept (s : State) (r : Nat) (b : List Nat) : State :=
  let cls := s.budgetClass r
  let d : Desc := { ring := r, cid := leOf b 2 2, op := nth 0 b 0, body := b, at_ := s.boundsOf r, fetched := s.time }
  match s.target r with
  | none => s.onHost fun h => { h with descs := h.descs ++ [d] }
  | some n =>
    if !s.alive n && cls ≠ 1 then s.finish (d.done 10 0)
    else
      let away := cls ≤ 1 && n ≠ 0 && s.alive n
      let s := s.onHost fun h => { h with descs := h.descs ++ [{ d with there := !away }] }
      if away then s.onStake 0 fun k => k.sendCell (k.cell n cls 6 r [r, d.cid, d.op]) else s

/-- R350, R351: a fetched descriptor of pair r; one that is fetched while its pair is being deleted is a fetched one not yet started
(R362). -/
def State.arrives (s : State) (r : Nat) (bytes : List Nat) : State :=
  let b := dataOf 64 bytes
  let op := nth 0 b 0
  let cls := s.budgetClass r
  let s := (s.fetchEnds r).inFlight r b
  let c : Completion := { ring := r, cid := leOf b 2 2, op := op, status := 6 }
  let k := s.stake ((s.target r).getD 0)
  match opClass op with
  | none => s.onHost fun h => { h with descs := h.descs ++ [{ ring := r, cid := c.cid, op := op, body := b }] }
  | some v =>
    if v ≠ cls then s.finish c
    else match firstBad (opChecks op b k.periodOk) with
      | some o => s.finish { c with status := 7, info := o }
      | none => if !(s.ring r).deleting.isEmpty && cls ≠ 0 then s.finish { c with status := 14 } else s.accept r b

/-- The oldest descriptor of pair r with a reserved opcode, taken (R351). -/
def State.takeReserved (s : State) (r : Nat) : Option (Desc × State) :=
  (s.pkg.host.descs.find? fun d => d.ring = r && (opClass d.op).isNone).map fun d =>
    (d, s.onHost fun h => { h with descs := dropFirst (fun x => x.ring = r && (opClass x.op).isNone) h.descs })

/-! DRIVE descriptors. -/

/-- R352: the SETPOINT of a descriptor. -/
def Desc.setpoint (d : Desc) : Setpoint :=
  let b := d.body
  let fl := nth 0 b 9
  { ring := d.ring, cid := d.cid, kind := nth 0 b 8, a := le48 b 16, b := le48 b 24, angSrc := nth 0 b 10,
    win := if fl.testBit 0 then some (le48 b 32, le48 b 40) else none,
    period := if fl.testBit 1 then some (leOf b 12 4) else none, takeback := fl.testBit 2, fetched := d.fetched }

/-- R355: a SET that is allowed: the bank of the register path is opened, written and closed. Its `DUTY_FMT` is that of `AUX_DUTY` too, and
marks no group where `DUTY` is not written. -/
def Stake.applySet (k : Stake) (b : List Nat) : Stake :=
  let m := nth 0 b 8
  let v := fun (o : Nat) => BitVec.ofNat 48 (leOf b o 4)
  let fmt := (Reg.MOD_SH_DUTY_FMT, BitVec.ofNat 48 (nth 0 b 9))
  let open_ := if m.testBit 5 && !k.pairedFollower then k.setOpen.put48 fmt.1 fmt.2 else k.setOpen
  let l : List (Nat × Word48) :=
    (if m.testBit 0 then [(Reg.MOD_SH_PERIOD, v 12)] else []) ++
    (if m.testBit 3 then [fmt, (Reg.MOD_SH_DUTY_U, v 16), (Reg.MOD_SH_DUTY_V, v 20), (Reg.MOD_SH_DUTY_W, v 24)] else []) ++
    (if m.testBit 5 then [(Reg.MOD_SH_AUX_DUTY, v 28), (Reg.MOD_SH_AUX_TON, v 32), (Reg.MOD_SH_AUX_TOFF, v 36)] else []) ++
    (if m.testBit 6 then [(Reg.MOD_SH_SLOT, BitVec.ofNat 48 (nth 0 b 10))] else [])
  (l.foldl (fun q x => q.wShadow x.1 x.2) open_).setClose

/-- R355: why a SET is refused: `INFO` of `REFUSED_STATE`, or none. -/
def Stake.setRefusal (k : Stake) (b : List Nat) : Option Nat :=
  let m := nth 0 b 8
  if k.pairedFollower then some 5
  else if (m.testBit 0 || m.testBit 3) && k.axis ≠ axTest then some 1
  else if k.axis = axSafe then some 1
  else none

/-! TUNE descriptors. -/

/-- R356: the entries of a REG_WRITE: place in the descriptor, offset, value. -/
def entriesOf (b : List Nat) : List (Nat × Nat × Nat) :=
  (List.range (min 6 (nth 0 b 8))).map fun k => (16 + 8 * k, leOf b (16 + 8 * k) 4, leOf b (20 + 8 * k) 4)

/-- R356: an offset a pair's target does not have: a stake's window, or the package region from 0x0080_0000. -/
def offsetBad (t : Option Nat) (o : Nat) : Bool := o % 4 ≠ 0 || (match t with | some _ => 0xFFFFC < o | none => 0x5FFFC < o)

/-- The write of an entry. -/
def State.tuneWrite (s : State) (t : Option Nat) (o v : Nat) : State :=
  match t with
  | some n => s.stakeReg .tune n o (BitVec.ofNat 32 v)
  | none => s.pkgReg .tune (0x800000 + o) (BitVec.ofNat 32 v)

/-- R15, R350: a value a register of the target does not take, as the target stands. -/
def State.tuneBad (s : State) (t : Option Nat) (o v : Nat) : Bool :=
  let w := BitVec.ofNat 32 v
  let range := fun (off : Nat) => match regAt off with | some r => !r.inRange w | none => false
  match t with
  | none => range (0x800000 + o) || pkgCrossBad (0x800000 + o) w
  | some n =>
    let k := s.stake n
    if fbOnly o && n ≠ 1 then false
    else if o = Reg.FLD_CTRL then range o || (k.wFldCtrl (k.lockedCtrl s.locked w)).2.isSome
    else if o = Reg.FLD_TBL_CTRL then range o || (k.wTblCtrl w).2
    else if inArr o (Reg.ANG_ENT_CTRL 0) 127 32 then !commitInRange w (k.rd (Reg.ANG_ENT_IVL ((o - Reg.ANG_ENT_CTRL 0) / 32))).toNat
    else match slotAt o with
      | some lo => o ≠ lo && (let x := k.slotValue lo w; (k.shadowBad lo x && k.flag Reg.MOD_SET_CTRL_IS_OPEN) || k.fbPairBad lo x)
      | none => range o || k.crossBad o w || (o = Reg.POS_ENC_ALIGN && k.alignBad w)

/-- R356: every entry is checked as the target stands after the entries before it; the offset of the first byte at fault. -/
def State.entriesBad (s : State) (t : Option Nat) : List (Nat × Nat × Nat) → Option Nat
  | [] => none
  | (p, o, v) :: l =>
    if offsetBad t o then some p
    else if s.tuneBad t o v then some (p + 4)
    else State.entriesBad (s.tuneWrite t o v) t l

/-- R356: `INFO` of a check that fails at a byte of an entry. -/
def entryInfo (off : Nat) : Nat := ((off - 16) / 8 + 1) * 256 + off

/-- R356: unused entries are zero. -/
def unusedBad (b : List Nat) : Option Nat := firstBad (zeroBytes b (16 + 8 * nth 0 b 8) 64)

/-- R272: under the lock a TUNE descriptor may write W1C bits of the LEG block. -/
def legClears (off v : Nat) : Bool := 0x60000 ≤ off && off < 0x70000 && clears off (BitVec.ofNat 32 v)

/-- R350 check 3, R272, R356: the first entry the lock closes to a TUNE descriptor. -/
def State.entriesClosed (s : State) (t : Option Nat) (l : List (Nat × Nat × Nat)) : Option Nat :=
  if !s.locked then none
  else (l.find? fun e => match t with
    | some _ => closedTo .tune e.2.1 && !legClears e.2.1 e.2.2
    | none => closedTo .tune (0x800000 + e.2.1)).map (·.1)

/-- R376: under the lock, the entry number whose write of `EN` would bring the enabled streams above 256 KiB. -/
def Stake.fifoRefusal (w : Nat → BitVec 32) : Nat → List (Nat × Nat × Nat) → Option (Nat × Nat)
  | _, [] => none
  | i, (_, o, v) :: l =>
    if inArr o (Reg.STR_STREAM_CFG 0) 16 32 then
      let j := (o - Reg.STR_STREAM_CFG 0) / 32
      let on := (BitVec.ofNat 32 v).getLsbD 31
      let f := Reg.STR_STREAM_CFG_EN j
      let w' := fun x => if x = j then f.put (w j) (if on then 1 else 0) else w x
      if on && 256 < fifoSum w' then some (i, fifoSum w') else Stake.fifoRefusal w' (i + 1) l
    else Stake.fifoRefusal w (i + 1) l

/-- R376: the same of a descriptor's entries. -/
def State.fifoRefused (s : State) (t : Option Nat) (l : List (Nat × Nat × Nat)) : Option (Nat × Nat) :=
  match t with
  | some n => if s.locked then Stake.fifoRefusal (fun i => (s.stake n).rdAct (Reg.STR_STREAM_CFG i)) 1 l else none
  | none => none

/-- A free value, for an `INFO` the spec does not give. -/
def State.freeInfo (s : State) : Nat × State := (Config.freePkg s.pkg.fresh % 65536, s.onPkg fun p => { p with fresh := p.fresh + 1 })

/-- A TUNE descriptor waits for its slot (R358). -/
def State.tuneQueue (s : State) (d : Desc) (t : Option Nat) (table writes : List (Nat × Nat)) : State :=
  s.onHost fun h =>
    { h with tune := h.tune ++ [{ ring := d.ring, cid := d.cid, op := d.op, target := t.getD 8, writes := writes, at_ := d.at_, table := table }] }

/-- R253, R357: a TABLE_WRITE touches a profile that may not be written now. -/
def Stake.profileClosed (k : Stake) (o len : Nat) : Bool :=
  !k.axisIn [axOff, axSafe] && [0, 1, 2, 3].any fun p => k.portReady p && (List.range 16).any fun q =>
    let a := 0xC0000 + 0x100 * p + 0x10 * q
    o < a + 16 && a < o + len && k.profileUsed p q

/-- R357, R358: a TUNE descriptor that has made its last write completes. -/
def State.tuneDone (s : State) (x : Tune) : State :=
  let n := if x.target < 8 then x.target else 0
  let c : Completion :=
    { ring := x.ring, cid := x.cid, op := x.op, status := if x.delay = 0 then 0 else 1, info := min 65535 x.delay,
      result := bytesN 6 (s.stake n).ang.tick.toNat ++ List.replicate 10 0 }
  if x.target < 8 then s.onStake n fun k => k.complete c else s.finish c

/-- R356: the next write of a TUNE descriptor that runs. -/
def State.tuneNext (s : State) (x : Tune) : State :=
  let t := if x.target < 8 then some x.target else none
  let same := fun (y : Tune) => y.ring = x.ring && y.cid = x.cid
  match x.writes with
  | [] => (s.onHost fun h => { h with tuneRun := dropFirst same h.tuneRun }).tuneDone x
  | [w] => ((s.tuneWrite t w.1 w.2).onHost fun h => { h with tuneRun := dropFirst same h.tuneRun }).tuneDone x
  | w :: l =>
    (s.tuneWrite t w.1 w.2).onHost fun h => { h with tuneRun := h.tuneRun.map fun y => if same y then { y with writes := l } else y }

/-- R356: one tick of the descriptors whose writes run: one write of each. -/
def State.tuneTick (s : State) : State := s.pkg.host.tuneRun.foldl State.tuneNext s

/-- R358: the TUNE descriptors a target has taken in the present period; none count while no carrier runs and there are no periods. -/
def State.slotsUsed (s : State) (n : Nat) : Nat :=
  if !(s.stake (if n < 8 then n else 0)).carrierRuns then 0 else if n < 8 then (s.stake n).tuneUsed else s.pkg.host.tuneUsed

/-- R357, R358: the oldest waiting TUNE descriptor of a target takes effect: its data, or its first write. -/
def State.tuneStart (s : State) (x : Tune) : State :=
  let n := if x.target < 8 then x.target else 0
  let x := { x with delay := (s.stake n).bounds - x.at_ }
  let s := if x.target < 8 then s.onStake n fun k => { k with tuneUsed := k.tuneUsed + 1 }
    else s.onHost fun h => { h with tuneUsed := h.tuneUsed + 1 }
  let s := s.onHost fun h => { h with tune := dropFirst (fun y => y.target = x.target) h.tune, tuneRun := h.tuneRun ++ [x] }
  if x.table.isEmpty then s.tuneNext x
  else
    let s := x.table.foldl (fun s w => s.tuneWrite (some n) w.1 w.2) s
    if x.writes.isEmpty then s.tuneNext x else s

/-! Admin descriptors. -/

/-- R343, R362: the first byte of a binding that breaks R343 or names a stake that is not present. -/
def State.bindingBad (s : State) (b : List Nat) : Option Nat :=
  let cls := nth 0 b 10
  let n := nth 0 b 11
  let absent := n ≠ 255 && !s.present n
  if cls = 3 then (if n ≠ 255 then some 11 else none)
  else if absent || (n = 255 && cls ≠ 1) || (cls = 0 && (s.stake n).pairedFollower) then some 11
  else if cls = 2 && (List.range 256).any fun r =>
      0 < r && s.ringEn r && s.ringClass r = 2 && s.ringStake r = n && s.pkg.fld (Reg.HIF_RING_STREAM r) = nth 0 b 12 then some 12
  else none

/-- R343, R346: a pair is bound and enabled. -/
def State.bindRing (s : State) (b : List Nat) : State :=
  let r := leOf b 8 2
  let v := fun (i : Nat) => nth 0 b i
  let s := s.onPkg fun p =>
    let p := (((p.wr (Reg.HIF_RING r) 0).wr (Reg.HIF_RING_PTR r) 0).putB (Reg.HIF_RING_EN r) true).put (Reg.HIF_RING_CLASS r) (v 10)
    let p := (p.put (Reg.HIF_RING_STAKE r) (if v 11 = 255 then 15 else v 11)).put (Reg.HIF_RING_STREAM r) (v 12)
    ((p.put (Reg.HIF_RING_VECTOR r) (v 15)).put (Reg.HIF_RING_CQ_LOG2 r) (v 14)).put (Reg.HIF_RING_SQ_LOG2 r) (v 13)
  s.onRing r fun _ => { sqBase := leOf b 16 8, cqBase := leOf b 24 8, cqFree := 2 ^ v 14 }

/-- R362: what a deletion aborts: TUNE and BULK descriptors not started, buffers. -/
def State.abortPair (s : State) (r : Nat) : State :=
  let cls := s.budgetClass r
  if cls = 0 then s
  else
    let s := (s.returnPacket r).bufCloseAll r 14
    let l := s.pkg.host.descs.filter fun d => d.ring = r
    let t := s.pkg.host.tune.filter fun x => x.ring = r
    let s := s.onHost fun h => { h with descs := h.descs.filter fun d => d.ring ≠ r, tune := h.tune.filter fun x => x.ring ≠ r }
    let s := l.foldl (fun s d => s.finish (d.done 14 0)) s
    t.foldl (fun s x => s.finish { ring := r, cid := x.cid, op := x.op, status := 14 }) s

/-- R276, R362: the records of a stake: those of its own faults; stake 0's list the package's too, each once, as long as some present
axis still holds it. -/
def State.faultsOf (s : State) (n : Nat) : List EvRec :=
  let own := fun (i : Nat) (pkg : Bool) => if s.alive i then ((s.stake i).prt.active.filter fun a => a.pkg = pkg).map (·.post) else []
  own n false ++ if n = 0 then ((List.range s.part.stakes).flatMap fun i => own i true).foldl (fun l r => if l.contains r then l else l ++ [r]) [] else []

/-- R362: the records of GET_FAULTS: of one stake, or of all in order. -/
def State.faultList (s : State) (only : Option Nat) : List EvRec :=
  match only with
  | some n => s.faultsOf n
  | none => (List.range s.part.stakes).flatMap s.faultsOf

/-- R370: the snapshot of a fault: its slot's; where no slot holds it, its `ESEQ` is open. -/
def State.faultBytes (s : State) (i : Nat) (r : EvRec) : List Nat :=
  match s.pkg.snaps.find? fun q => q.post = r with
  | some q => q.bytes
  | none => QEvent.bytes ⟨r, Config.freePkg (s.pkg.fresh + i) % 65536, 65535⟩

/-- R341: what a reset of the host interface keeps of its registers. -/
def hifKept (off : Nat) : Bool :=
  off < 0x800000 || 0x810000 ≤ off || off = Reg.HIF_SETUP_LOCK || off = Reg.HIF_BUDGET || off = Reg.HIF_TUNE_CFG

/-- R341: reads in flight are abandoned: a CFG_WRITE or FW_STAGE whose host data has not all come ends. -/
def State.abandonReads (s : State) : State :=
  let s := match s.pkg.boot.cfgOp with
    | some o => if s.readDone o.ring o.cid then s else (s.cfgDrop .write).onBoot fun b => { b with cfgOp := none }
    | none => s
  match s.pkg.boot.fwOp with
  | some o => if s.readDone o.ring o.cid then s else s.onBoot fun b => { b with fwOp := none }
  | none => s

/-- R341: the host interface is reset: every ring is deleted, the stakes run on. -/
def State.linkReset (s : State) (d3 : Bool := false) : State :=
  let s := s.abandonReads
  let s := s.pkg.host.inbound.foldl (fun s r => s.returnPacket r) s
  let ready := s.pkg.flag Reg.HIF_STATUS_READY
  let s := s.onPkg fun p =>
    let p := { p with regs := p.regs.filter fun e => hifKept e.1 }
    (p.putB Reg.HIF_STATUS_READY ready).putB Reg.HIF_STATUS_LOCKED (p.flag Reg.HIF_SETUP_LOCK_LOCK)
  s.onHost fun h =>
    { tuneRun := h.tuneRun, tuneUsed := h.tuneUsed, adminOpen := true, window := h.window, used := h.used, pcie := { d3 := d3 },
      aer := h.aer, writes := h.writes }

end Sys2Proof.Machine
end

