-- ==== Sys2Proof/Machine/Host.lean ====
section
/-! DEFINITION. Commands of the host interface: doorbells, descriptors, admin commands, interrupts, events, resets (chapter 11). -/
namespace Sys2Proof.Machine

/-- R345: a doorbell that is turned away. -/
def State.badDoorbell (s : State) (r v : Nat) : State :=
  (s.onPkg fun p => p.bump Reg.HIF_DOORBELL_ERR_CNT).postPkg .hifBadDoorbell 0 [r, v]

/-- DOORBELL_SQ_TAIL (R38, R342, R345): a write of `w` to doorbell r at +0. -/
def execDoorbellSqTail (r : Nat) (w : Reg32) (s : State) : Host.Outcome State Fault Refusal :=
  let v := w.toNat % 4096
  .next (if 256 ≤ r || !s.ready then s
  else if !s.ringEn r || s.sqSize r ≤ v then s.badDoorbell r v
  else s.onRing r fun q => { q with sqTail := v })

/-- DOORBELL_CQ_HEAD (R38, R342, R345, R347): a write of `w` to doorbell r at +4. -/
def execDoorbellCqHead (r : Nat) (w : Reg32) (s : State) : Host.Outcome State Fault Refusal :=
  let v := w.toNat % 4096
  .next (if 256 ≤ r || !s.ready then s
  else if !s.ringEn r || s.cqSize r ≤ v then s.badDoorbell r v
  else
    let n := s.cqSize r
    s.onRing r fun q => { q with cqHead := v, cqFree := min n (q.cqFree + (v + n - q.cqHead % n) % n) })

/-- DESCRIPTOR_FETCH (R340, R347, R365, R367): the next request slot is one of the DMA engine's reads: of host data a descriptor of the pair
served needs, else of its next descriptor; while a packet goes first, none is issued. -/
def execDescriptorFetch (s : State) : Host.Outcome State Fault Refusal :=
  .next (match s.nextSlot with
    | none => s
    | some r => match s.dataRead r with
      | some x => (s.readData x).servedNow r
      | none =>
        if s.fetchable r then
          (((s.takeFree r).onRing r fun q => { q with fetching := q.fetching + 1, fetchAt := q.fetchAt ++ [s.time] }).charge
            (s.budgetClass r) 1).servedNow r
        else s)

/-- DESCRIPTOR_ARRIVAL (R349 to R351, R353, R361): the data of the oldest fetch of pair r. -/
def execDescriptorArrival (r : Nat) (bytes : List Nat) (s : State) : Host.Outcome State Fault Refusal :=
  .next (if 256 ≤ r || (s.ring r).fetching = 0 then s else s.arrives r bytes)

/-- R339, R348: a fetch ends in poisoned data (status 8) or in a completion timeout (status 16), which Advanced Error Reporting records; every
other status is a completion status of PCI Express. -/
def aerOf (status : Nat) : BitVec 32 := if status = 8 then 0x1000 else if status = 16 then 0x4000 else 0

/-- RING_FETCH_ERROR (R339, R348): the oldest fetch of pair r ends in an error; a completion timeout once its time has passed. -/
def execRingFetchError (r status : Nat) (s : State) : Host.Outcome State Fault Refusal :=
  .next (if 256 ≤ r || (s.ring r).fetching = 0 ||
      (status = 16 && s.time < nth 0 (s.ring r).fetchAt 0 + s.pkg.host.pcie.timeout) then s
  else
    let s := ((s.fetchEnds r).onRing r fun q => { q with cqFree := q.cqFree + 1 }).onHost fun h => { h with aer := h.aer ||| aerOf status }
    let s := s.onPkg fun p => (p.putB (Reg.HIF_RING_ERROR r) true).bump Reg.HIF_DMA_ERR_CNT
    (s.postPkg .hifRingError 0 [r, status]).deleted r)

/-- R348: a read of the host data of a TABLE_WRITE, CFG_WRITE or FW_STAGE that waits for it fails: nothing has been written with it. -/
def State.dataFails (s : State) (r cid : Nat) : State :=
  let fin : Nat → Completion := fun op => { ring := r, cid := cid, op := op, status := 11 }
  let mine : Tune → Bool := fun x => x.ring = r && x.cid = cid
  if s.pkg.host.tune.any mine then (s.onHost fun h => { h with tune := dropFirst mine h.tune }).finish (fin 0x11)
  else if (match s.pkg.boot.cfgOp with | some o => o.ring = r && o.cid = cid | none => false) then
    ((s.cfgDrop .write).onBoot fun b => { b with cfgOp := none }).finish (fin 0x30)
  else (s.onBoot fun b => { b with fwOp := none }).finish (fin 0x31)

/-- HOST_DATA_ERROR (R348): a read or write of host memory for descriptor `cid` of pair r fails. -/
def execHostDataError (r cid : Nat) (s : State) : Host.Outcome State Fault Refusal :=
  let mine : Desc → Bool := fun d => d.ring = r && d.cid = cid && [0x11, 0x30, 0x31, 0x42, 0x43, 0x45].contains d.op
  let err := fun (s : State) => s.onPkg fun p => p.bump Reg.HIF_DMA_ERR_CNT
  .next (match s.pkg.host.descs.find? mine with
    | some d => ((err s).onHost fun h => { h with descs := dropFirst mine h.descs }).finish (d.done 11 0)
    | none =>
      if s.pkg.host.reads.any fun x => x.ring = r && x.cid = cid then (err s).dataFails r cid
      else if (s.ring r).bufs.any fun b => b.cid = cid then
        ((err s).onRing r fun q => { q with bufs := dropFirst (fun b => b.cid = cid) q.bufs }).finish
          { ring := r, cid := cid, op := 0x20, status := 11 }
      else match s.pkg.boot.sealOp with
        | some (.attest r' c' _ _, _) =>
          if r' = r && c' = cid then
            (((err s).onBoot fun b => { b with sealOp := none }).finish { ring := r, cid := cid, op := 0x45, status := 11 }).sealNext
          else s
        | _ => s)

/-- FORWARDED_DESCRIPTOR_CELL (R353, R354): the oldest descriptor on its way to stake n is ejected there. -/
def execForwardedDescriptorCell (n : Nat) (s : State) : Host.Outcome State Fault Refusal :=
  let mine := fun (s : State) (d : Desc) => !d.there && s.ringStake d.ring = n
  .next (if !s.alive n then s
  else match s.pkg.host.descs.findIdx? (mine s) with
    | none => s
    | some i => s.onHost fun h => { h with descs := updAt h.descs i fun d => { d with there := true, at_ := (s.stake n).bounds, fetched := (s.stake n).now } })

/-- SETPOINT (R142, R212, R302, R352, R353): a SETPOINT of pair r that has reached its stake. -/
def execSetpoint (r : Nat) (s : State) : Host.Outcome State Fault Refusal :=
  .next (match s.takeDesc r 1 with
    | none => s
    | some (d, s) =>
      let n := s.ringStake r
      if !s.alive n then s.finish (d.done 10 0)
      else s.onStake n fun k => match k.setpointRefusal d.setpoint with
        | some (st, i) => k.complete (d.done st i)
        | none => k.onFe fun f => { f with waiting := f.waiting ++ [d.setpoint] })

/-- SET (R355): a SET of pair r that has reached its stake. -/
def execSetDescriptor (r : Nat) (s : State) : Host.Outcome State Fault Refusal :=
  .next (match s.takeDesc r 3 with
    | none => s
    | some (d, s) =>
      let n := s.ringStake r
      if !s.alive n then s.finish (d.done 10 0)
      else s.onStake n fun k => match k.setRefusal d.body with
        | some i => k.complete (d.done 5 i)
        | none => (k.applySet d.body).complete (d.done 0 0))

/-- REG_WRITE (R350, R356, R376): a REG_WRITE of pair r that has reached its target. -/
def execRegWrite (r : Nat) (s : State) : Host.Outcome State Fault Refusal :=
  .next (match s.takeDesc r 0x10 with
    | none => s
    | some (d, s) =>
      let t := s.target r
      let l := entriesOf d.body
      let lost : Bool := match t with | some n => !s.alive n | none => false
      match s.entriesBad t l, unusedBad d.body, s.entriesClosed t l, s.fifoRefused t l with
      | some o, _, _, _ => s.finish (d.done 7 (entryInfo o))
      | none, some o, _, _ => s.finish (d.done 7 (entryInfo o))
      | none, none, some o, _ => s.finish (d.done 8 (entryInfo o))
      | none, none, none, f =>
        if lost then s.finish (d.done 10 0)
        else match t, f with
          | some n, some (i, sum) => (s.onStake n fun k => k.strRefuse sum).finish (d.done 5 (256 * i))
          | _, _ => s.tuneQueue d t [] (l.map fun e => (e.2.1, e.2.2)))

/-- TABLE_WRITE (R253, R340, R350, R357): a TABLE_WRITE of pair r: its checks; then its host data, `data`, is read. -/
def execTableWrite (r : Nat) (data : List Nat) (s : State) : Host.Outcome State Fault Refusal :=
  .next (match s.takeDesc r 0x11 with
    | none => s
    | some (d, s) =>
      let b := d.body
      let off := leOf b 16 4
      let len := leOf b 20 4
      let words := (wordsOf (dataOf len data)).mapIdx fun i w => (off + 4 * i, w.toNat)
      let post := if (nth 0 b 24).testBit 0 then [(28, leOf b 28 4, leOf b 32 4)] else []
      match s.target r with
      | none => s.finish (d.done 7 16)
      | some n =>
        let after := words.foldl (fun s w => s.tuneWrite (some n) w.1 w.2) s
        match after.entriesBad (some n) post, s.entriesClosed (some n) post, s.fifoRefused (some n) post with
        | some o, _, _ => s.finish (d.done 7 o)
        | none, some o, _ => s.finish (d.done 8 o)
        | none, none, f =>
          if !s.alive n then s.finish (d.done 10 0)
          else if (s.stake n).profileClosed off len then
            let (i, s) := (s.onStake n fun k => k.legRefuse).freeInfo
            s.finish (d.done 5 i)
          else match f with
            | some (_, sum) => (s.onStake n fun k => k.strRefuse sum).finish (d.done 5 256)
            | none => (s.askRead r d.cid 1 len).tuneQueue d (some n) words (post.map fun e => (e.2.1, e.2.2)))

/-- TUNE_APPLY (R316, R317, R356 to R358): a free slot of target n, 8 for the package region, takes its oldest waiting TUNE descriptor,
once its host data has come. Its writes are a stake manager's (R356): while the plait is halted or resynchronises they wait. -/
def execTuneApply (n : Nat) (s : State) : Host.Outcome State Fault Refusal :=
  .next (
    let v := (s.stake (if n < 8 then n else 0)).vote
    if s.pkg.fld Reg.HIF_TUNE_CFG_SLOTS ≤ s.slotsUsed n || (s.pkg.host.tuneRun.any fun x => x.target = n) || (n < 8 && !s.alive n) ||
        v.halted || v.resync then s
    else match s.pkg.host.tune.find? fun x => x.target = n with
      | none => s
      | some x => if s.readDone x.ring x.cid then s.tuneStart x else s)

/-- RING_CREATE (R343, R344, R362, R435, R442) of the admin pair, ring 0. -/
def execRingCreate (r : Nat) (s : State) : Host.Outcome State Fault Refusal :=
  .next (match s.takeDesc r 0x40 with
    | none => s
    | some (d, s) =>
      let p := s.pkg.boot.phase
      if (p = .recovery && nth 0 d.body 10 ≠ 3) || p = .testWait || p = .test then s.finish (d.done 5 6)
      else match s.bindingBad d.body with
        | some o => s.finish (d.done 7 o)
        | none =>
          if s.ringEn (leOf d.body 8 2) then
            let (i, s) := s.freeInfo
            s.finish (d.done 5 i)
          else (s.bindRing d.body).finish (d.done 0 0))

/-- RING_DELETE (R359, R362). -/
def execRingDelete (r : Nat) (s : State) : Host.Outcome State Fault Refusal :=
  .next (match s.takeDesc r 0x41 with
    | none => s
    | some (d, s) =>
      let q := leOf d.body 8 2
      if !s.ringEn q then s.finish (d.done 0 0)
      else ((s.onRing q fun x => { x with deleting := x.deleting ++ [d.cid] }).abortPair q).deleted q)

/-- GET_FAULTS (R362). -/
def execGetFaults (r : Nat) (s : State) : Host.Outcome State Fault Refusal :=
  .next (match s.takeDesc r 0x42 with
    | none => s
    | some (d, s) =>
      let n := nth 0 d.body 20
      let l := s.faultList (if n = 255 then none else some n)
      let w := l.take (leOf d.body 16 4 / 128)
      let bytes := (w.mapIdx fun i e => s.faultBytes i e).flatten
      let s := s.onPkg fun p => { p with fresh := p.fresh + w.length }
      let s := if w.isEmpty then s else s.hostWrite (leOf d.body 8 8) bytes
      s.finish { d.done 0 0 with result := bytesN 2 w.length ++ bytesN 2 l.length ++ List.replicate 12 0 })

/-- GET_SNAPSHOT (R362, R370). -/
def execGetSnapshot (r : Nat) (s : State) : Host.Outcome State Fault Refusal :=
  .next (match s.takeDesc r 0x43 with
    | none => s
    | some (d, s) =>
      match s.pkg.snaps.find? fun q => q.snap = leOf d.body 16 2 with
      | none => s.finish (d.done 15 0)
      | some q => (s.hostWrite (leOf d.body 8 8) q.bytes).finish (d.done 0 0))

/-- PLAIT_MODE (R321, R322, R362). -/
def execPlaitMode (r : Nat) (s : State) : Host.Outcome State Fault Refusal :=
  .next (match s.takeDesc r 0x44 with
    | none => s
    | some (d, s) =>
      let n := nth 0 d.body 8
      if !s.present n then s.finish (d.done 7 8)
      else if !s.alive n then s.finish (d.done 10 0)
      else s.onStake n fun k => k.modeRequest (nth 0 d.body 9 = 1) (some (r, d.cid)))

/-- RESERVED_OPCODE (R351): a descriptor of pair r with a reserved opcode. -/
def execReservedOpcode (r : Nat) (s : State) : Host.Outcome State Fault Refusal :=
  .next (match s.takeReserved r with
    | none => s
    | some (d, s) => s.finish (d.done 6 0))

/-- MSIX_MODERATION_TIMEOUT (R368): `TIME` has passed since the first entry on vector v. -/
def execMsixModerationTimeout (v : Nat) (s : State) : Host.Outcome State Fault Refusal :=
  .next (match nth (0, none) s.pkg.host.msix v with
    | (c, some t) => if c ≠ 0 && t + 400 * s.pkg.fld (Reg.HIF_MSIX_MOD_TIME v) ≤ s.time then s.msixFire v else s
    | (_, none) => s)

/-- EVENT_QUEUE_DRAIN (R346, R369, R370). -/
def execEventQueueDrain (s : State) : Host.Outcome State Fault Refusal := .next s.drain

/-- HIF_LINK_RESET (R341, R423): link down, hot reset, or D3hot (`d3`). -/
def execHifLinkReset (s : State) (d3 : Bool := false) : Host.Outcome State Fault Refusal :=
  .next ((s.linkReset d3).postPkg .hifLinkReset 0)

/-- ADMIN_ENABLE (R341, R344, R346): a write of `HIF_ADMIN_CFG` with `EN`. -/
def execAdminEnable (src : Src) (w : Reg32) (s : State) : Host.Outcome State Fault Refusal :=
  .next (if w.getLsbD 31 then s.pkgReg src Reg.HIF_ADMIN_CFG w else s)

/-- ADMIN_DISABLE (R344): a write of `HIF_ADMIN_CFG` without `EN`. -/
def execAdminDisable (src : Src) (w : Reg32) (s : State) : Host.Outcome State Fault Refusal :=
  .next (if w.getLsbD 31 then s else s.pkgReg src Reg.HIF_ADMIN_CFG w)

/-- SETUP_LOCK (R377): a write of `HIF_SETUP_LOCK`. -/
def execSetupLock (src : Src) (w : Reg32) (s : State) : Host.Outcome State Fault Refusal :=
  .next (s.pkgReg src Reg.HIF_SETUP_LOCK w)

/-- PCIE_LINK_UP (R339, R342, R425): the link has trained: 1, 2 or 3 for its speed, and its lanes; the configuration space answers, and `cfg`
is what the host has it hold. Messages that were pending go out where nothing masks them now. -/
def execPcieLinkUp (speed width : Nat) (s : State) (cfg : PcieCfg := PcieCfg.enumerated) : Host.Outcome State Fault Refusal :=
  .next (if s.pkg.boot.phase = .held || speed = 0 || 3 < speed || (width ≠ 1 && width ≠ 2) then s
  else
    let s := s.onPkg fun p => ((p.putB Reg.HIF_STATUS_LINK_UP true).put Reg.HIF_STATUS_SPEED speed).put Reg.HIF_STATUS_WIDTH width
    let s := s.onHost fun h => { h with pcie := cfg, aer := h.aer &&& ~~~ cfg.aerClear }
    (List.range 64).foldl State.msixPending s)

/-- R339, R342: a word of the function's header in the configuration space, from the time the link is up; nothing answers before. The class
code, the revision and the places of the capabilities are the implementation's. -/
def State.configWord (s : State) (off : Nat) : Option (BitVec 32) :=
  let c := s.pkg.host.pcie
  if !s.pkg.flag Reg.HIF_STATUS_LINK_UP && !c.d3 then none
  else some (match off with
    | 0x00 => BitVec.ofNat 32 (Config.pcieVendor % 65536 + 65536 * s.part.deviceId)
    | 0x04 => BitVec.ofNat 32 ((if c.memEn then 2 else 0) + (if c.busMaster then 4 else 0) + 0x100000)
    | 0x10 => c.bar0 &&& 0xFF000000
    | 0x18 => c.bar2 &&& 0xFFFFF000
    | 0x0C | 0x14 | 0x1C | 0x20 | 0x24 | 0x3C => 0
    | _ => BitVec.ofNat 32 (Config.pcieHeader off))

end Sys2Proof.Machine
end

