-- ==== Sys2Proof/Machine/Wale.lean ====
section
/-! DEFINITION. Commands of the wale: WALE_CELL_SLOT to ALIGNMENT_CELL_SEND, but for register accesses, descriptors and firmware
(chapter 01, R334, R400). -/
namespace Sys2Proof.Machine

/-- WALE_CELL_SLOT (R19, R21, R23): what the port has received since its last slot, then what it sends. -/
def execWaleCellSlot (n : Nat) (d : Dir) (link : Option LinkIn) (s : State) : Host.Outcome State Fault Refusal :=
  .next (s.onStake n fun k =>
    if !k.dirUp d || k.stopped then k.onDir d fun w => { w with wire := none }
    else
      let k := match link with
        | none => k
        | some x =>
          let k := k.onDir d fun w => w.link x
          match x.cell with | some c => k.passOn d c | none => k
      if (k.dir d).retraining k.now then k.onDir d fun w => { w with wire := none }
      else k.onDir d fun w => w.slot k.walBudget k.now)

/-- WALE_CELL_CRC_FAIL (R22, R23): the cell is discarded and counted; its sender goes back to its last `ACK`. -/
def execWaleCellCrcFail (n : Nat) (d : Dir) (s : State) : Host.Outcome State Fault Refusal :=
  .next (if !s.present n then s
  else
    let s := s.onStake n fun k =>
      (k.onDir d fun w => { w with crcAt := (w.crcAt.filter fun t => k.now < t + 40000) ++ [k.now] }).bump31 Reg.WAL_CRC_ERR
    s.onStake (s.nbr n d) fun k => k.onDir (opp d) fun w => { w with toReplay := w.replay })

/-- WALE_RESERVED_KIND (R22). -/
def execWaleReservedKind (n : Nat) (kind : Nat) (s : State) : Host.Outcome State Fault Refusal :=
  .next (s.onStake n fun k => if 12 ≤ kind && kind ≤ 15 then k.bump31 Reg.WAL_CRC_ERR else k)

/-- WALE_CRC_BURST (R27): the errors a port has counted call for a retrain of the direction it receives. -/
def execWaleCrcBurst (n : Nat) (d : Dir) (s : State) : Host.Outcome State Fault Refusal :=
  .next (
    let k := s.stake n
    let lim := k.fld Reg.WAL_CTRL_CRC_BURST
    let errs := ((k.dir d).crcAt.filter fun t => k.now < t + 40000).length
    if !s.present n || !k.flag Reg.WAL_CTRL_CRC_RETRAIN_EN || lim = 0 || errs < lim then s
    else
      let s := s.onStake n fun k => k.onDir d fun w => { w with crcAt := [] }
      s.onStake (s.nbr n d) fun k => k.wantRetrain (opp d) [])

/-- RETRAIN_START (R27 to R29): the sending direction d of stake n. -/
def execRetrainStart (n : Nat) (d : Dir) (s : State) : Host.Outcome State Fault Refusal :=
  .next (
    let k := s.stake n
    let w := k.dir d
    if !s.present n || !w.retrainWant || w.retrainFrom.isSome || !k.dirUp d || !s.retrainFree n d || !s.pairLets n d then s
    else
      let s := s.onStake n fun k =>
        ((k.onDir d fun w => { w with retrainWant := false, retrainFrom := some k.now }).putB (retrainField d) true).bump Reg.WAL_RETRAIN_CNT
      s.onStake (s.nbr n d) fun k => (k.putB (retrainField (opp d)) true).bump Reg.WAL_RETRAIN_CNT)

/-- RETRAIN_DONE (R27, R334): the direction goes on with its queued cells; the lanes of a splice are mapped out at both ends. -/
def execRetrainDone (n : Nat) (d : Dir) (s : State) : Host.Outcome State Fault Refusal :=
  .next (
    let w := (s.stake n).dir d
    if !s.present n || w.retrainFrom.isNone then s
    else
      let lanes := w.mapOut
      let s := s.onStake n fun k =>
        let k := (k.onDir d fun w => { w with retrainFrom := none, mapOut := [] }).putB (retrainField d) false
        if lanes.isEmpty then k else k.lanesOut (txReg d) lanes
      s.onStake (s.nbr n d) fun k =>
        let k := (k.onDir (opp d) fun w => { w with asked := [] }).putB (retrainField (opp d)) false
        if lanes.isEmpty then k
        else (k.lanesOut (rxReg (opp d)) lanes).post .walSplice 0 ((match d with | .asc => 1 | .dsc => 0) :: lanes))

/-- WALE_LANE_FAIL (R25, R31, R40): a lane of the sending direction d of stake n fails. It is spliced if a spare is left and the receiver's
`SPLICE_EN` lets it; else the direction goes down. The rules do not say whose `SPLICE_EN` counts here, nor what a failed lane that is not
spliced brings (DESIGN CHOICE, log 173). -/
def execWaleLaneFail (n : Nat) (d : Dir) (lane : Nat) (s : State) : Host.Outcome State Fault Refusal :=
  .next (
    let k := s.stake n
    let failed := k.fld (laneFailed (txReg d))
    let out := ((k.dir d).mapOut.foldl (fun m i => m ||| 2 ^ (i % 18)) failed)
    if !s.present n || 18 ≤ lane || out.testBit lane || !k.dirUp d then s
    else if count18 out < 2 && (s.stake (s.nbr n d)).flag Reg.WAL_CTRL_SPLICE_EN then s.onStake n fun k => k.wantRetrain d [lane]
    else
      let lanes := (k.dir d).mapOut ++ [lane]
      let s := s.onStake n fun k => k.lanesOut (txReg d) lanes
      (s.onStake (s.nbr n d) fun k => k.lanesOut (rxReg (opp d)) lanes).linkDown n d)

/-- WALE_MARGIN_MEASURE (R334): the margins of the 18 lanes that port d of stake n receives, in 1/256 UI. -/
def execWaleMarginMeasure (n : Nat) (d : Dir) (margins : List Nat) (s : State) : Host.Outcome State Fault Refusal :=
  .next (s.onStake n fun k => if k.stopped then k else k.measureLanes d margins)

/-- FALLBACK_COMMAND_RECEIVED (R160, R302): ACTIVE with a speed in 1/16 rpm, or STOPPED. -/
def execFallbackCommandReceived (n : Nat) (act : Bool) (rpm16 : Int) (s : State) : Host.Outcome State Fault Refusal :=
  .next (s.onStake n fun k => k.takeFallback act rpm16)

/-- COMPLETION_CELL (R363, R434): the oldest completion of stake n reaches the anchor; during distribution, that of the image. -/
def execCompletionCell (n : Nat) (s : State) : Host.Outcome State Fault Refusal :=
  .next (if !s.alive n then s
  else if s.pkg.boot.phase = .distribution then s.distArrives n
  else match (s.stake n).done with
    | [] => s
    | c :: t => (s.onStake n fun k => { k with done := t, wal := { k.wal with cmpSent := k.wal.cmpSent - 1 } }).finish c)

/-- STAKE_EVENT_RECORD (R316, R369, R418): the oldest event of stake n reaches the anchor; or, with a limit, its partner's thermal current
limit reaches stake n. -/
def execStakeEventRecord (n : Nat) (limit : Option Nat) (s : State) : Host.Outcome State Fault Refusal :=
  .next (if !s.alive n then s
  else match limit with
    | some l => s.onStake n fun k =>
        if k.pairedLeader then (k.onPair fun p => { p with therm := if l = 0 then none else some l }).updDerate else k
    | none => match (s.stake n).out with
      | [] => s
      | r :: t => (s.onStake n fun k => { k with out := t, wal := { k.wal with evSent := k.wal.evSent - 1 } }).enqueue r)

/-- HEARTBEAT_SEND (R30, R316): the ring master, stake 0 or 1, sends a heartbeat to every other stake, unless its plait is halted. -/
def execHeartbeatSend (n : Nat) (s : State) : Host.Outcome State Fault Refusal :=
  .next (
    let k := s.stake n
    let master := (n = 0 && k.wal.master = 0) || (n = 1 && k.wal.master = 1)
    if !s.inService n || !master || k.stopped || k.vote.halted then s
    else s.onStake n fun k =>
      ((List.range s.part.stakes).filter fun m => m ≠ n && s.inService m).foldl (fun q m => q.sendCell (q.cell m 0 10 0 [])) k)

/-- HEARTBEAT_RECEIVED (R30). -/
def execHeartbeatReceived (n : Nat) (s : State) : Host.Outcome State Fault Refusal :=
  .next (s.onStake n fun k => { k with wal := { k.wal with hbLast := k.now } })

/-- R30: a stake has gone 200 µs without a heartbeat. -/
def Stake.heartbeatGone (k : Stake) : Bool := k.wal.hbLast + 80000 ≤ k.now

/-- ANCHOR_LOST (R30, R31): a stake declares the anchor lost; stake 1 becomes ring master. -/
def execAnchorLost (n : Nat) (s : State) : Host.Outcome State Fault Refusal :=
  .next (s.onStake n fun k =>
    if n = 0 || !k.heartbeatGone || k.wal.anchorLost || k.stopped then k
    else
      let k := { k with wal := { k.wal with anchorLost := true, lostMask := k.wal.lostMask ||| 1, hbLast := k.now } }
      let k := k.put Reg.WAL_STATUS_STAKES_UP (k.fld Reg.WAL_STATUS_STAKES_UP &&& 254)
      if n = 1 then { k.putB Reg.WAL_STATUS_MASTER true with wal := { k.wal with master := 1 } } else k)

/-- RING_MASTER_HEARTBEAT_LOSS (R30): four heartbeats missed; the stake follows stake 1 if it reaches it. -/
def execRingMasterHeartbeatLoss (n : Nat) (s : State) : Host.Outcome State Fault Refusal :=
  .next (s.onStake n fun k =>
    if n = 0 || k.wal.master = 1 || !(k.heartbeatGone || k.wal.anchorLost) || !s.reaches n 1 || k.stopped then k
    else
      let k := { k with wal := { k.wal with master := 1, hbLast := k.now } }
      if n = 1 then k.putB Reg.WAL_STATUS_MASTER true else k)

/-- ANCHORS_UNREACHABLE (R31): an F3 reaction by the speed rule; the spec names no event for it. -/
def execAnchorsUnreachable (n : Nat) (s : State) : Host.Outcome State Fault Refusal :=
  .next (if n ≤ 1 || !s.present n || s.reaches n 0 || s.reaches n 1 then s
  else s.onStake n fun k =>
    if k.wal.cutOff || k.stopped then k
    else { k with
           regs := (k.put Reg.WAL_STATUS_STAKES_UP (k.fld Reg.WAL_STATUS_STAKES_UP &&& 252)).regs
           wal := { k.wal with cutOff := true, lostMask := k.wal.lostMask ||| 3 }
           prt := { k.prt with f3 := k.prt.f3 ++ [⟨.walStakeLost, 0, k.now, 2 ≤ k.fld Reg.PLT_VOTE_STATUS_MODE⟩] } })

/-- STAKE_LOST (R31). -/
def execStakeLost (n : Nat) (s : State) : Host.Outcome State Fault Refusal := .next (s.loseStake n)

/-- TICK_ALIGNMENT_CELL (R32, R41, R206, R400): the anchor's tick at injection and the calibrated latency; the next epoch if the cell
carries one. -/
def execTickAlignmentCell (n : Nat) (sent : Word48) (latency : Nat) (epoch : Word48) (valid : Bool) (s : State) (fine : Nat := 0) :
    Host.Outcome State Fault Refusal :=
  .next (s.onStake n fun k =>
    if n = 0 || k.stopped then k
    else
      let t := sent + w48 latency
      if !k.ang.loaded then k.onAng fun a => { a with tick := t, loaded := true }
      else
        let k := if k.ang.tick = t then k
          else (k.putB Reg.WAL_STATUS_TICK_SKEW true).post .walTickSkew (if k.pairSt = 0 then 0 else 3) [t.toNat, k.ang.tick.toNat]
        if valid then k.epochArrives ⟨epoch, fine⟩ else k)

/-- ALIGNMENT_CELL_SEND (R32, R400): the anchor sends each stake its tick and, in LOCKED and HOLDOVER, the next epoch. -/
def execAlignmentCellSend (s : State) : Host.Outcome State Fault Refusal :=
  .next (
    let k := s.stake 0
    if !s.present 0 || k.stopped || !s.alignDue then s
    else
      let on := s.epochsOn
      let e := s.nextEpoch k.nowI
      let w := [k.ang.tick.toNat, if on then e.tick.toNat else 0, if on then e.fine % 32 + 256 else 0]
      let s := (s.onNet fun x => { x with alignAt := some s.time }).onStake 0 fun k =>
        ((List.range s.part.stakes).filter fun m => m ≠ 0 && s.alive m).foldl (fun q m => q.sendCell (q.cell m 0 11 0 w)) k
      if on then s.onStake 0 fun k => k.epochArrives ⟨e.tick, e.fine % 32⟩ else s)

end Sys2Proof.Machine
end

