-- ==== Sys2Proof/Machine/Startup.lean ====
section
/-! DEFINITION. Commands of the start-up, of firmware and configuration, and of the seal unit: POWER_ON to UNLOCK_ERASE_DONE, CONFIG_LOAD to
CFG_WRITE_DONE, CFG_WRITE, FW_STAGE, FW_COMMIT, ATTEST, FIRMWARE_BLOCK_CELL (chapters 10 and 14). -/
namespace Sys2Proof.Machine

/-- POWER_ON (R403, R405, R423): VSUP rises past 2.90 V. The release of reset follows by RESET_RELEASE; the eNVM is inhibited until VSUP
has risen above 3.10 V. -/
def execPowerOn (n mv : Nat) (s : State) : Host.Outcome State Fault Refusal :=
  .next (if !s.present n then s
  else
    let s := s.supLevel n mv
    if mv ≤ 2900 then s
    else (s.onBoot fun b => { b with vsupUp := true }).onStake n fun k => k.putB Reg.SUP_STATUS_INHIBIT (mv ≤ 3100))

/-- PERST_ASSERT (R423): `PERST#` has been low for a number of ticks; below 1 µs, 400 ticks, it is ignored. `progress` is the number of row
operations a configuration write or rewrite had started. -/
def execPerstAssert (low : Nat) (s : State) (progress : Nat := 0) : Host.Outcome State Fault Refusal :=
  .next (if low < 400 then s else (s.onBoot fun b => { b with perstLow := true }).packageReset progress)

/-- RESET_RELEASE (R424, R451): the rails are in their windows and `PERST#` is high; `TESTEN` and the straps are sampled, and the upsett
phase starts. `locks` gives, by stake, the ticks from here to the lock of its PLL, from which its `ANG_TICK` counts (R41). -/
def execResetRelease (testen : Bool) (straps : Nat) (s : State) (locks : List Nat := []) : Host.Outcome State Fault Refusal :=
  .next (if s.pkg.boot.phase ≠ .held || !s.pkg.boot.vsupUp then s
  else s.onBoot fun b =>
    { b with perstLow := false, testen := testen, straps := straps, phase := .upsett, releasedAt := s.time, locks := locks })

/-- UPSETT_COMPLETE (R330 to R332, R426, R442): what the phase has found on each stake, stake 0 first. -/
def execUpsettComplete (results : List UpsettRes) (s : State) : Host.Outcome State Fault Refusal :=
  .next (if s.pkg.boot.phase ≠ .upsett then s
  else
    let s := s.upsettAll results
    if !s.alive 0 then (s.onPkg fun p => p.put Reg.HIF_PKG_ALIVE_ALIVE 0).onBoot fun b => { b with phase := .dead }
    else
      let s := if s.present 1 && !s.alive 1 then
          s.enqueue { ev := .canLost, cls := 0, stake := 1, tick := (s.stake 0).ang.tick, vals := [], eflags := 0 }
        else s
      let s := (s.onPkg fun p => (p.fromOtp s.part).put Reg.SEC_PREFER_PREFER p.nv.prefer).onBoot fun b =>
        { b with coSign := s.pkg.nv.enrolled }
      if s.pkg.boot.testen then s.drawChallenge.makeReady .testWait 3 else s.verifyStart .imagePreferred)

/-- SLOT_VERIFY_DONE (R425, R430, R431, R434, R435): the slot under verification passes or fails; `answers` says whether the flash
does. -/
def execSlotVerifyDone (answers : Bool) (s : State) : Host.Outcome State Fault Refusal :=
  .next (
    let first := s.pkg.boot.phase = .imagePreferred
    if !first && s.pkg.boot.phase ≠ .imageOther then s
    else
      let slot := if first then s.pkg.nv.prefer else 1 - s.pkg.nv.prefer
      let c := s.verifySlot slot answers
      let s := s.onPkg fun p => p.put (causeField slot) c
      let s := if c = 15 || c = 6 then s.bodyLoad slot else s
      if c = 15 then s.imageTaken slot (!first)
      else if first then s.verifyStart .imageOther
      else s.recovery)

/-- FIRMWARE_BLOCK_CELL (R22, R429, R434): 48 body bytes leave the anchor as a `KIND` 8 cell, six to a word, and reach stake n's SRAM;
with the last, its completion leaves and its plait starts. -/
def execFirmwareBlockCell (n : Nat) (s : State) : Host.Outcome State Fault Refusal :=
  .next (
    let len := leOf s.pkg.boot.running 8 4
    if n = 0 || s.pkg.boot.phase ≠ .distribution || !s.alive n || (s.stake n).wal.started then s
    else
      let at_ := (s.stake n).wal.fwBytes
      let body := (s.stake 0).sramRead at_ (min 48 (len - at_))
      let ws := (List.range 8).map fun i => leOf (body ++ List.replicate 48 0) (6 * i) 6
      (s.onStake 0 fun k => k.sendCell (k.cell n 3 8 (at_ / 48) ws)).onStake n fun k =>
      let b := at_ + 48
      let k := k.sramLoad at_ body
      let k := { k with wal := { k.wal with fwBytes := min b len, fwAt := k.now } }
      if b < len then k else ({ k with wal := { k.wal with started := true } }).sendCell (k.cell 0 3 7 0 []))

/-- DISTRIBUTION_TIMEOUT (R434): 10 ms after its last cell, stake n has not returned its completion. -/
def execDistributionTimeout (n : Nat) (s : State) : Host.Outcome State Fault Refusal :=
  let w := (s.stake n).wal
  let due := leOf s.pkg.boot.running 8 4 ≤ w.fwBytes && w.fwAt + 4000000 ≤ (s.stake n).now
  .next (if n = 0 || s.pkg.boot.phase ≠ .distribution || !s.alive n || s.pkg.boot.distDone.contains n || !due then s
  else ((s.loseStake n).postPkg .secDistFail 0 [n]).distOver)

/-- CONFIG_LOAD (R319, R320, R324 to R326), with BOOT_READY. `splitMask` and `writes` are what the body of the configuration that results
asks for: its split mask and its register writes, by BAR0 address. -/
def execConfigLoad (splitMask : Nat) (writes : List (Nat × Reg32)) (s : State) : Host.Outcome State Fault Refusal :=
  .next (if s.pkg.boot.phase ≠ .configuration then s
  else ((s.onBoot fun b => { b with sealOp := none }).cfgApply splitMask writes).bootReady)

/-- CONFIG_REWRITE (R316, R328, R440): the rewrite of the next copy begins: its first two steps need no digest, and the seal unit is asked
for the one of its read-back; the copy is rewritten when SEAL_OPERATION_DONE gives it. -/
def execConfigRewrite (s : State) : Host.Outcome State Fault Refusal :=
  .next (match s.pkg.boot.rewrite with
    | [] => s
    | i :: _ =>
      if s.pkg.boot.phase ≠ .ready || s.inhibited || s.pkg.boot.cfgOp.isSome || s.pkg.boot.rwOp.isSome || (s.stake 0).vote.halted then s
      else (s.onBoot fun b => { b with rwOp := some i }).sealAsk (.cfg .rewrite))

/-- CONFIG_REWRITE_DONE (R328). -/
def execConfigRewriteDone (s : State) : Host.Outcome State Fault Refusal :=
  .next (if s.pkg.boot.rewrite.isEmpty then s.onPkg fun p => p.putB Reg.NVM_CFG_STATUS_REWRITE_PENDING false else s)

/-- CFG_WRITE (R324, R327, R328, R360, R361) of pair r: its checks; then the digest is formed and the copies are written. `data` is the
body, as its reads of host memory give it; `progress` the row operations that a rewrite in progress had started, which it cancels. -/
def execCfgWrite (r : Nat) (data : List Nat) (s : State) (progress : Nat := 0) : Host.Outcome State Fault Refusal :=
  .next (match s.takeDesc r 0x30 with
    | none => s
    | some (d, s) =>
      match s.bulkRefusal d s.pkg.boot.cfgOp.isSome none with
      | some (st, i) => s.finish (d.done st i)
      | none =>
        if leOf d.body 20 6 ≠ s.cfgGen + 1 then s.finish (d.done 7 20)
        else
          let c := cfgForm (s.cfgGen + 1) (dataOf (leOf d.body 16 4) data)
          let s := ((s.askRead r d.cid 3 (leOf d.body 16 4)).rewriteStop progress).onBoot fun b => { b with rewrite := [], cfgOp := some { ring := r, cid := d.cid, copy := c } }
          (s.onPkg fun p => p.putB Reg.NVM_CFG_STATUS_REWRITE_PENDING false).sealAsk (.cfg .write))

/-- CFG_WRITE_DONE (R326, R327, R329): the three copies read back VALID and equal. `splitMask` and `writes` as for CONFIG_LOAD, where
R329 applies it at once. -/
def execCfgWriteDone (splitMask : Nat) (writes : List (Nat × Reg32)) (s : State) : Host.Outcome State Fault Refusal :=
  .next (match s.pkg.boot.cfgOp with
    | none => s
    | some op => if op.digests = 3 && !(s.stake 0).vote.halted then s.cfgWritten op splitMask writes else s)

/-- FW_STAGE (R361, R432) of pair r: its checks, then the erasures; the programming and the read-back end with FW_STAGE_DONE. -/
def execFwStage (r : Nat) (data : List Nat) (s : State) : Host.Outcome State Fault Refusal :=
  .next (match s.takeDesc r 0x31 with
    | none => s
    | some (d, s) =>
      let slot := nth 0 d.body 24
      match s.bulkRefusal d s.flashBusy (some slot) with
      | some (st, i) => s.finish (d.done st i)
      | none =>
        let off := leOf d.body 20 4
        let len := leOf d.body 16 4
        let first := !s.pkg.boot.staged.contains slot
        ((s.askRead r d.cid 3 len).onNv fun n => n.stageErase slot off len first).onBoot fun b =>
          { b with
            staged := addNew b.staged slot
            fwOp := some { ring := r, cid := d.cid, slot := slot, off := off, data := dataOf len data } })

/-- FW_STAGE_DONE (R432): the data is programmed; `ok` says that it read back as written. Where it did not, what the range holds is
open. -/
def execFwStageDone (ok : Bool) (s : State) : Host.Outcome State Fault Refusal :=
  .next (match s.pkg.boot.fwOp with
    | none => s
    | some op =>
      if !s.readDone op.ring op.cid then s else
      let w := wordsOf op.data
      let a := slotBase op.slot + op.off
      let s := s.onBoot fun b => { b with fwOp := none }
      let fin : Completion := { ring := op.ring, cid := op.cid, op := 0x31, status := if ok then 0 else 11, info := if ok then 0 else 1 }
      if ok then (s.onNv fun n => n.program a w).finish fin
      else
        let f := s.pkg.fresh
        let s := s.onPkg fun p => { p with fresh := f + w.length }
        (s.onNv fun n => n.program a (w.mapIdx fun i _ => BitVec.ofNat 32 (Config.freePkg (f + i)))).finish fin)

/-- FW_COMMIT (R361, R433, R440) of pair r: its checks, then its verification is asked of the seal unit. -/
def execFwCommit (r : Nat) (s : State) : Host.Outcome State Fault Refusal :=
  .next (match s.takeDesc r 0x32 with
    | none => s
    | some (d, s) =>
      let slot := nth 0 d.body 8
      match s.bulkRefusal d s.flashBusy (some slot) with
      | some (st, i) => s.finish (d.done st i)
      | none => s.sealAsk (.commit r d.cid slot))

/-- ATTEST (R439, R440) of the admin pair, ring r. -/
def execAttest (r : Nat) (s : State) : Host.Outcome State Fault Refusal :=
  .next (match s.takeDesc r 0x45 with
    | none => s
    | some (d, s) =>
      if leOf d.body 16 4 < 1536 then s.finish (d.done 7 16)
      else s.sealAsk (.attest r d.cid (leOf d.body 8 8) ((d.body.drop 20).take 32)))

/-- SEAL_OPERATION_DONE (R430, R433, R439, R440): the operation in progress ends and the next begins; `answers` says whether the flash
answers a verification. The digest of a CFG_WRITE waits for its host data. Boot verification ends with SLOT_VERIFY_DONE, the digests of the load with CONFIG_LOAD. -/
def execSealOperationDone (s : State) (answers : Bool := true) : Host.Outcome State Fault Refusal :=
  .next (match s.pkg.boot.sealOp with
    | none => s
    | some (.boot, _) | some (.cfg .load, _) => s
    | some (op, msg) =>
      let waits : Bool := op = .cfg .write && match s.pkg.boot.cfgOp with | some c => !s.readDone c.ring c.cid | none => false
      if waits then s else ((s.onBoot fun b => { b with sealOp := none }).sealFinish op msg answers).sealNext)

/-- SEC_RESET (R423): a write of `SEC_RESET`. -/
def execSecReset (src : Src) (w : Reg32) (s : State) : Host.Outcome State Fault Refusal :=
  .next (s.pkgWrite src Reg.SEC_RESET w fun s => s.wSecReset w)

/-- SEC_ENROLL (R437): a write of `SEC_ENROLL`. -/
def execSecEnroll (src : Src) (w : Reg32) (s : State) : Host.Outcome State Fault Refusal :=
  .next (s.pkgWrite src Reg.SEC_ENROLL w fun s => s.wEnroll w)

/-- UNLOCK_SUBMIT (R442): a write of `SEC_UNLOCK_CTRL`. -/
def execUnlockSubmit (src : Src) (w : Reg32) (s : State) : Host.Outcome State Fault Refusal :=
  .next (s.pkgWrite src Reg.SEC_UNLOCK_CTRL w fun s => s.wUnlock w)

/-- UNLOCK_ERASE_DONE (R442): every row of stake 0's eNVM is erased, with VSUP above the inhibit level; the test modes are entered. -/
def execUnlockEraseDone (s : State) : Host.Outcome State Fault Refusal :=
  .next (if !s.pkg.boot.erasing || s.inhibited then s
  else
    let s := s.onNv fun n => { n with envm := updAt n.envm 0 fun _ => [], badLines := [] }
    (s.onBoot fun b => { b with erasing := false, phase := .test }).onPkg fun p => p.put Reg.SEC_BOOT_STATUS_STATE 4)

end Sys2Proof.Machine
end

