-- ==== Sys2Proof/Machine/Dispatch.lean ====
section
/-! DEFINITION. What a command does to everything but the queue: one arm per row of opcode_table.json. -/
namespace Sys2Proof.Machine

def exec (i : Instr) (s : State) : Host.Outcome State Fault Refusal :=
  match i with
  | .setupRegisterWrite src addr w => Sys2Proof.Machine.execSetupRegisterWrite src addr w s
  | .badWidthAccess write addr bytes => Sys2Proof.Machine.execBadWidthAccess write addr bytes s
  | .lowWordReadLatch addr => Sys2Proof.Machine.execLowWordReadLatch addr s
  | .highWordWriteCommit src addr w => Sys2Proof.Machine.execHighWordWriteCommit src addr w s
  | .w1cClear addr w setNow => Sys2Proof.Machine.execW1cClear addr w setNow s
  | .satClear addr incs => Sys2Proof.Machine.execSatClear addr incs s
  | .absentStakeAccess write addr => Sys2Proof.Machine.execAbsentStakeAccess write addr s
  | .reservedPackageAccess write addr => Sys2Proof.Machine.execReservedPackageAccess write addr s
  | .bar2ReservedWrite addr w => Sys2Proof.Machine.execBar2ReservedWrite addr w s
  | .waleCellSlot n d link => Sys2Proof.Machine.execWaleCellSlot n d link s
  | .waleCellCrcFail n d => Sys2Proof.Machine.execWaleCellCrcFail n d s
  | .waleReservedKind n kind => Sys2Proof.Machine.execWaleReservedKind n kind s
  | .regReadRequestCell n tag off => Sys2Proof.Machine.execRegReadRequestCell n tag off s
  | .regWriteCell n src off w retrain => Sys2Proof.Machine.execRegWriteCell n src off w retrain s
  | .regReadReturnCell tag => Sys2Proof.Machine.execRegReadReturnCell tag s
  | .streamPacketCell n => Sys2Proof.Machine.execStreamPacketCell n s
  | .forwardedDescriptorCell n => Sys2Proof.Machine.execForwardedDescriptorCell n s
  | .fallbackCommandReceived n act rpm16 => Sys2Proof.Machine.execFallbackCommandReceived n act rpm16 s
  | .completionCell n => Sys2Proof.Machine.execCompletionCell n s
  | .firmwareBlockCell n => Sys2Proof.Machine.execFirmwareBlockCell n s
  | .stakeEventRecord n limit => Sys2Proof.Machine.execStakeEventRecord n limit s
  | .heartbeatSend n => Sys2Proof.Machine.execHeartbeatSend n s
  | .heartbeatReceived n => Sys2Proof.Machine.execHeartbeatReceived n s
  | .anchorLost n => Sys2Proof.Machine.execAnchorLost n s
  | .ringMasterHeartbeatLoss n => Sys2Proof.Machine.execRingMasterHeartbeatLoss n s
  | .anchorsUnreachable n => Sys2Proof.Machine.execAnchorsUnreachable n s
  | .stakeLost n => Sys2Proof.Machine.execStakeLost n s
  | .waleLaneFail n d lane => Sys2Proof.Machine.execWaleLaneFail n d lane s
  | .waleCrcBurst n d => Sys2Proof.Machine.execWaleCrcBurst n d s
  | .retrainStart n d => Sys2Proof.Machine.execRetrainStart n d s
  | .retrainDone n d => Sys2Proof.Machine.execRetrainDone n d s
  | .waleMarginMeasure n d margins => Sys2Proof.Machine.execWaleMarginMeasure n d margins s
  | .tickAlignmentCell n sent latency epoch valid fine => Sys2Proof.Machine.execTickAlignmentCell n sent latency epoch valid s fine
  | .alignmentCellSend => Sys2Proof.Machine.execAlignmentCellSend s
  | .angTickWrap n => Sys2Proof.Machine.execAngTickWrap n s
  | .measurementProcess n c => Sys2Proof.Machine.execMeasurementProcess n c s
  | .angExtrapLimit n c => Sys2Proof.Machine.execAngExtrapLimit n c s
  | .angleEntryDue n k => Sys2Proof.Machine.execAngleEntryDue n k s
  | .entryRearm n k => Sys2Proof.Machine.execEntryRearm n k s
  | .directionRearm n c => Sys2Proof.Machine.execDirectionRearm n c s
  | .tickEntryDue n k => Sys2Proof.Machine.execTickEntryDue n k s
  | .periodicEntryDue n k => Sys2Proof.Machine.execPeriodicEntryDue n k s
  | .boundaryEntryDue n k => Sys2Proof.Machine.execBoundaryEntryDue n k s
  | .deferredDispatch n => Sys2Proof.Machine.execDeferredDispatch n s
  | .entryCommit n src k w => Sys2Proof.Machine.execEntryCommit n src k w s
  | .schedEnable n src w => Sys2Proof.Machine.execSchedEnable n src w s
  | .actionNone n k => Sys2Proof.Machine.execActionNone n k s
  | .actionCapture n k => Sys2Proof.Machine.execActionCapture n k s
  | .actionPattern n k => Sys2Proof.Machine.execActionPattern n k s
  | .actionCompare n k => Sys2Proof.Machine.execActionCompare n k s
  | .actionPlaitIrq n k => Sys2Proof.Machine.execActionPlaitIrq n k s
  | .actionSnapshot n k => Sys2Proof.Machine.execActionSnapshot n k s
  | .actionArm n k => Sys2Proof.Machine.execActionArm n k s
  | .actionDisarm n k => Sys2Proof.Machine.execActionDisarm n k s
  | .captureComplete n g waves => Sys2Proof.Machine.execCaptureComplete n g waves s
  | .decimatorOutput n c wave => Sys2Proof.Machine.execDecimatorOutput n c wave s
  | .fastPathTrip n c hi wave => Sys2Proof.Machine.execFastPathTrip n c hi wave s
  | .channelStuck n c wave => Sys2Proof.Machine.execChannelStuck n c s wave
  | .channelUnstuck n c wave => Sys2Proof.Machine.execChannelUnstuck n c s wave
  | .filterFilled n c => Sys2Proof.Machine.execFilterFilled n c s
  | .corrCommit n src c w => Sys2Proof.Machine.execCorrCommit n src c w s
  | .snsApply n src w => Sys2Proof.Machine.execSnsApply n src w s
  | .posSourceEnable n src w levels => Sys2Proof.Machine.execPosSourceEnable n src w levels s
  | .posSourceDisable n src w => Sys2Proof.Machine.execPosSourceDisable n src w s
  | .encoderEdge n a b held => Sys2Proof.Machine.execEncoderEdge n a b s held
  | .encoderPulseRejected n hall width => Sys2Proof.Machine.execEncoderPulseRejected n hall s width
  | .encoderIndex n held => Sys2Proof.Machine.execEncoderIndex n s held
  | .encAlignLoad n src w => Sys2Proof.Machine.execEncAlignLoad n src w s
  | .hallTransition n levels held => Sys2Proof.Machine.execHallTransition n levels s held
  | .hallIllegalTimeout n => Sys2Proof.Machine.execHallIllegalTimeout n s
  | .sspRequest n => Sys2Proof.Machine.execSspRequest n s
  | .sspStartTimeout n wave => Sys2Proof.Machine.execSspStartTimeout n s wave
  | .sspFrameReceived n wave => Sys2Proof.Machine.execSspFrameReceived n wave s
  | .standstillTimeout n src => Sys2Proof.Machine.execStandstillTimeout n src s
  | .decayMeasurement n src => Sys2Proof.Machine.execDecayMeasurement n src s
  | .comparePulseEnd n o => Sys2Proof.Machine.execComparePulseEnd n o s
  | .emuPassThroughEdge n a b z => Sys2Proof.Machine.execEmuPassThroughEdge n a b z s
  | .emuStep n => Sys2Proof.Machine.execEmuStep n s
  | .pass n k => Sys2Proof.Machine.execPass n k s
  | .paramCommit n src w => Sys2Proof.Machine.execParamCommit n src w s
  | .fldTableSwap n src w copyOk => Sys2Proof.Machine.execFldTableSwap n src w copyOk s
  | .fldApply n src w => Sys2Proof.Machine.execFldApply n src w s
  | .fallbackTick => Sys2Proof.Machine.execFallbackTick s
  | .fbInputTimeout => Sys2Proof.Machine.execFbInputTimeout s
  | .catchLegsOffEnd n => Sys2Proof.Machine.execCatchLegsOffEnd n s
  | .catchPllLock n => Sys2Proof.Machine.execCatchPllLock n s
  | .catchTimeout n => Sys2Proof.Machine.execCatchTimeout n s
  | .catchZvPulse n => Sys2Proof.Machine.execCatchZvPulse n s
  | .transferBoundary n => Sys2Proof.Machine.execTransferBoundary n s
  | .carrierStart n => Sys2Proof.Machine.execCarrierStart n s
  | .carrierStop n src w => Sys2Proof.Machine.execCarrierStop n src w s
  | .modSetOpen n src w => Sys2Proof.Machine.execModSetOpen n src w s
  | .modSetClose n src w => Sys2Proof.Machine.execModSetClose n src w s
  | .modSetAbort n src w => Sys2Proof.Machine.execModSetAbort n src w s
  | .patternRecompute n => Sys2Proof.Machine.execPatternRecompute n s
  | .modeSeam n => Sys2Proof.Machine.execModeSeam n s
  | .seamSearchFail n => Sys2Proof.Machine.execSeamSearchFail n s
  | .modPatSwap n src w => Sys2Proof.Machine.execModPatSwap n src w s
  | .edgeSymbolSend n p => Sys2Proof.Machine.execEdgeSymbolSend n p s
  | .delayLineCalibrate n nc => Sys2Proof.Machine.execDelayLineCalibrate n nc s
  | .auxPulseStart n => Sys2Proof.Machine.execAuxPulseStart n s
  | .auxPulseEnd n => Sys2Proof.Machine.execAuxPulseEnd n s
  | .cutEnd n p => Sys2Proof.Machine.execCutEnd n p s
  | .cutClear n src w => Sys2Proof.Machine.execCutClear n src w s
  | .triggerFire n u => Sys2Proof.Machine.execTriggerFire n u s
  | .epochTimeout n => Sys2Proof.Machine.execEpochTimeout n s
  | .modApply n src w => Sys2Proof.Machine.execModApply n src w s
  | .pairSampleFrame n ws => Sys2Proof.Machine.execPairSampleFrame n ws s
  | .pairUpdateSet n c0 c1 c2 => Sys2Proof.Machine.execPairUpdateSet n c0 c1 c2 s
  | .pairClockMeasurement n c0 => Sys2Proof.Machine.execPairClockMeasurement n c0 s
  | .pairClockCellSend n => Sys2Proof.Machine.execPairClockCellSend n s
  | .pairStart n src w => Sys2Proof.Machine.execPairStart n src w s
  | .pairStop n src w => Sys2Proof.Machine.execPairStop n src w s
  | .pairBreakRecord n cause => Sys2Proof.Machine.execPairBreakRecord n cause s
  | .pairConfirmRecord n => Sys2Proof.Machine.execPairConfirmRecord n s
  | .pairConfirmTimeout n => Sys2Proof.Machine.execPairConfirmTimeout n s
  | .keepAliveSend n p => Sys2Proof.Machine.execKeepAliveSend n p s
  | .wordLaneFrameSend n p => Sys2Proof.Machine.execWordLaneFrameSend n p s
  | .legHello n p f => Sys2Proof.Machine.execLegHello n p f s
  | .legDeferredHello n p => Sys2Proof.Machine.execLegDeferredHello n p s
  | .legStatus n p f => Sys2Proof.Machine.execLegStatus n p f s
  | .legEvent n p f => Sys2Proof.Machine.execLegEvent n p f s
  | .legFault n p f => Sys2Proof.Machine.execLegFault n p f s
  | .legTelemetry n p f => Sys2Proof.Machine.execLegTelemetry n p f s
  | .legSum n p f => Sys2Proof.Machine.execLegSum n p f s
  | .legTestResult n p f => Sys2Proof.Machine.execLegTestResult n p f s
  | .legBadFrame n p => Sys2Proof.Machine.execLegBadFrame n p s
  | .wordLaneTimeout n p => Sys2Proof.Machine.execWordLaneTimeout n p s
  | .legHelloTimeout n p => Sys2Proof.Machine.execLegHelloTimeout n p s
  | .eventMiss n p => Sys2Proof.Machine.execEventMiss n p s
  | .legEnable n src w => Sys2Proof.Machine.execLegEnable n src w s
  | .legDisable n src w => Sys2Proof.Machine.execLegDisable n src w s
  | .legRestart n src p w => Sys2Proof.Machine.execLegRestart n src p w s
  | .legClear n src p w => Sys2Proof.Machine.execLegClear n src p w s
  | .legSelftest n src p w => Sys2Proof.Machine.execLegSelftest n src p w s
  | .selftestStepTimeout n p => Sys2Proof.Machine.execSelftestStepTimeout n p s
  | .legSumRequest n src p w => Sys2Proof.Machine.execLegSumRequest n src p w s
  | .legSplice n src p w => Sys2Proof.Machine.execLegSplice n src p w s
  | .legProfileWrite n src p q st w => Sys2Proof.Machine.execLegProfileWrite n src p q st w s
  | .legApply n src w => Sys2Proof.Machine.execLegApply n src w s
  | .refreshDue n p => Sys2Proof.Machine.execRefreshDue n p s
  | .refreshLatestStart n p => Sys2Proof.Machine.execRefreshLatestStart n p s
  | .sequencerTrip n => Sys2Proof.Machine.execSequencerTrip n s
  | .ascDelayExpire n => Sys2Proof.Machine.execAscDelayExpire n s
  | .safeStateRequest n => Sys2Proof.Machine.execSafeStateRequest n s
  | .bandLatchRefresh n => Sys2Proof.Machine.execBandLatchRefresh n s
  | .latchStale n => Sys2Proof.Machine.execLatchStale n s
  | .plaitSilent n => Sys2Proof.Machine.execPlaitSilent n s
  | .windowClose n bits => Sys2Proof.Machine.execWindowClose n bits s
  | .scDecide n => Sys2Proof.Machine.execScDecide n s
  | .axisArm n r c => Sys2Proof.Machine.execAxisArm n r c s
  | .axisDisarm n r c => Sys2Proof.Machine.execAxisDisarm n r c s
  | .axisRun n r c => Sys2Proof.Machine.execAxisRun n r c s
  | .axisStop n r c ball => Sys2Proof.Machine.execAxisStop n r c s ball
  | .axisTest n r c => Sys2Proof.Machine.execAxisTest n r c s
  | .axisCatch n r c => Sys2Proof.Machine.execAxisCatch n r c s
  | .axisDischarge n r c => Sys2Proof.Machine.execAxisDischarge n r c s
  | .axisClear n r c faultin => Sys2Proof.Machine.execAxisClear n r c s faultin
  | .axisRecover n r c faultin => Sys2Proof.Machine.execAxisRecover n r c s faultin
  | .stopComplete n => Sys2Proof.Machine.execStopComplete n s
  | .chopperCheckTimeout n => Sys2Proof.Machine.execChopperCheckTimeout n s
  | .tmonWindowTimeout n => Sys2Proof.Machine.execTmonWindowTimeout n s
  | .hostFreshTimeout n => Sys2Proof.Machine.execHostFreshTimeout n s
  | .hostLossTimeout n => Sys2Proof.Machine.execHostLossTimeout n s
  | .dischReqAssert held => Sys2Proof.Machine.execDischReqAssert s held
  | .dischargeTimeLimit n => Sys2Proof.Machine.execDischargeTimeLimit n s
  | .faultinAssert n held => Sys2Proof.Machine.execFaultinAssert n s held
  | .pltApply n src w => Sys2Proof.Machine.execPltApply n src w s
  | .voterDissent n a b c => Sys2Proof.Machine.execVoterDissent n a b s c
  | .plaitReadUe n => Sys2Proof.Machine.execPlaitReadUe n s
  | .resyncStart n => Sys2Proof.Machine.execResyncStart n s
  | .resyncDone n a b c => Sys2Proof.Machine.execResyncDone n a s b c
  | .plaitToSplit n src w => Sys2Proof.Machine.execPlaitToSplit n src w s
  | .plaitToVoted n src w => Sys2Proof.Machine.execPlaitToVoted n src w s
  | .handoverDone n a b c => Sys2Proof.Machine.execHandoverDone n a s b c
  | .scrubLine n addr result last => Sys2Proof.Machine.execScrubLine n addr result last s
  | .wearMeasure n ppm => Sys2Proof.Machine.execWearMeasure n ppm s
  | .configLoad splitMask writes => Sys2Proof.Machine.execConfigLoad splitMask writes s
  | .configRewrite => Sys2Proof.Machine.execConfigRewrite s
  | .cfgWriteDone splitMask writes => Sys2Proof.Machine.execCfgWriteDone splitMask writes s
  | .doorbellSqTail r w => Sys2Proof.Machine.execDoorbellSqTail r w s
  | .doorbellCqHead r w => Sys2Proof.Machine.execDoorbellCqHead r w s
  | .descriptorFetch => Sys2Proof.Machine.execDescriptorFetch s
  | .descriptorArrival r bytes => Sys2Proof.Machine.execDescriptorArrival r bytes s
  | .ringFetchError r status => Sys2Proof.Machine.execRingFetchError r status s
  | .hostDataError r cid => Sys2Proof.Machine.execHostDataError r cid s
  | .setpoint r => Sys2Proof.Machine.execSetpoint r s
  | .setDescriptor r => Sys2Proof.Machine.execSetDescriptor r s
  | .regWrite r => Sys2Proof.Machine.execRegWrite r s
  | .tableWrite r data => Sys2Proof.Machine.execTableWrite r data s
  | .tuneApply n => Sys2Proof.Machine.execTuneApply n s
  | .streamBuf r => Sys2Proof.Machine.execStreamBuf r s
  | .streamBufTimeout r => Sys2Proof.Machine.execStreamBufTimeout r s
  | .cfgWrite r data progress => Sys2Proof.Machine.execCfgWrite r data s progress
  | .fwStage r data => Sys2Proof.Machine.execFwStage r data s
  | .fwCommit r => Sys2Proof.Machine.execFwCommit r s
  | .ringCreate r => Sys2Proof.Machine.execRingCreate r s
  | .ringDelete r => Sys2Proof.Machine.execRingDelete r s
  | .getFaults r => Sys2Proof.Machine.execGetFaults r s
  | .getSnapshot r => Sys2Proof.Machine.execGetSnapshot r s
  | .plaitMode r => Sys2Proof.Machine.execPlaitMode r s
  | .attest r => Sys2Proof.Machine.execAttest r s
  | .reservedOpcode r => Sys2Proof.Machine.execReservedOpcode r s
  | .msixModerationTimeout v => Sys2Proof.Machine.execMsixModerationTimeout v s
  | .eventQueueDrain => Sys2Proof.Machine.execEventQueueDrain s
  | .streamItem n => Sys2Proof.Machine.execStreamItem n s
  | .pktTimeout n st => Sys2Proof.Machine.execPktTimeout n st s
  | .streamFlush n src b w => Sys2Proof.Machine.execStreamFlush n src b w s
  | .strApply n src w => Sys2Proof.Machine.execStrApply n src w s
  | .streamPacketRequest r => Sys2Proof.Machine.execStreamPacketRequest r s
  | .hifLinkReset d3 => Sys2Proof.Machine.execHifLinkReset s d3
  | .adminEnable src w => Sys2Proof.Machine.execAdminEnable src w s
  | .adminDisable src w => Sys2Proof.Machine.execAdminDisable src w s
  | .setupLock src w => Sys2Proof.Machine.execSetupLock src w s
  | .canFrameReceived c f => Sys2Proof.Machine.execCanFrameReceived c f s
  | .canCtrlReadLatch c b => Sys2Proof.Machine.execCanCtrlReadLatch c b s
  | .canRelease src c b w => Sys2Proof.Machine.execCanRelease src c b w s
  | .canTxRequest src c b w => Sys2Proof.Machine.execCanTxRequest src c b w s
  | .canCancel src c b w begun => Sys2Proof.Machine.execCanCancel src c b w begun s
  | .canTxDone c b ago => Sys2Proof.Machine.execCanTxDone c b ago s
  | .canTxError c b stamp arbitration up => Sys2Proof.Machine.execCanTxError c b stamp arbitration up s
  | .canBusOffRecovery c => Sys2Proof.Machine.execCanBusOffRecovery c s
  | .canUsWrap => Sys2Proof.Machine.execCanUsWrap s
  | .canRefSend c => Sys2Proof.Machine.execCanRefSend c s
  | .canTtRefTimeout c => Sys2Proof.Machine.execCanTtRefTimeout c s
  | .canTtColumnStart c col => Sys2Proof.Machine.execCanTtColumnStart c col s
  | .canStatusFrameSend => Sys2Proof.Machine.execCanStatusFrameSend s
  | .ethFrameReceived f => Sys2Proof.Machine.execEthFrameReceived f s
  | .pdelayReqSend => Sys2Proof.Machine.execPdelayReqSend s
  | .phyLinkPoll up => Sys2Proof.Machine.execPhyLinkPoll up s
  | .mapCommit tick nt ms rate => Sys2Proof.Machine.execMapCommit tick nt ms rate s
  | .ethSyncTimeout => Sys2Proof.Machine.execEthSyncTimeout s
  | .holdoverTimeout => Sys2Proof.Machine.execHoldoverTimeout s
  | .supOvervolt n mv => Sys2Proof.Machine.execSupOvervolt n mv s
  | .supInhibitEnter n mv progress => Sys2Proof.Machine.execSupInhibitEnter n mv progress s
  | .supInhibitExit n mv => Sys2Proof.Machine.execSupInhibitExit n mv s
  | .brownOut n mv progress => Sys2Proof.Machine.execBrownOut n mv progress s
  | .railFault n vaux vcore progress => Sys2Proof.Machine.execRailFault n vaux vcore progress s
  | .supVana n vana => Sys2Proof.Machine.execSupVana n vana s
  | .coreClockLost n count => Sys2Proof.Machine.execCoreClockLost n count s
  | .clkRefLoss n count lock => Sys2Proof.Machine.execClkRefLoss n s count lock
  | .clkMclkFault n m => Sys2Proof.Machine.execClkMclkFault n m s
  | .mclkFaultEnd n m => Sys2Proof.Machine.execMclkFaultEnd n m s
  | .thmSample n k raw => Sys2Proof.Machine.execThmSample n k raw s
  | .thmGraceExpire n k => Sys2Proof.Machine.execThmGraceExpire n k s
  | .thmDie175 n => Sys2Proof.Machine.execThmDie175 n s
  | .die175Release n => Sys2Proof.Machine.execDie175Release n s
  | .powerOn n mv => Sys2Proof.Machine.execPowerOn n mv s
  | .perstAssert low progress => Sys2Proof.Machine.execPerstAssert low s progress
  | .secReset src w => Sys2Proof.Machine.execSecReset src w s
  | .resetRelease testen straps locks => Sys2Proof.Machine.execResetRelease testen straps s locks
  | .upsettComplete results => Sys2Proof.Machine.execUpsettComplete results s
  | .slotVerifyDone answers => Sys2Proof.Machine.execSlotVerifyDone answers s
  | .distributionTimeout n => Sys2Proof.Machine.execDistributionTimeout n s
  | .secEnroll src w => Sys2Proof.Machine.execSecEnroll src w s
  | .sealOperationDone answers => Sys2Proof.Machine.execSealOperationDone s answers
  | .unlockSubmit src w => Sys2Proof.Machine.execUnlockSubmit src w s
  | .unlockEraseDone => Sys2Proof.Machine.execUnlockEraseDone s
  | .pcieLinkUp speed width cfg => Sys2Proof.Machine.execPcieLinkUp speed width s cfg
  | .canRxError c up => Sys2Proof.Machine.execCanRxError c up s
  | .canControllerEnable src c w => Sys2Proof.Machine.execCanControllerEnable src c w s
  | .fwStageDone ok => Sys2Proof.Machine.execFwStageDone ok s
  | .configRewriteDone => Sys2Proof.Machine.execConfigRewriteDone s
  | .supOvervoltEnd n mv => Sys2Proof.Machine.execSupOvervoltEnd n mv s
  | .referenceReturn n count => Sys2Proof.Machine.execReferenceReturn n s count
  | .canTtExclusiveMiss c => Sys2Proof.Machine.execCanTtExclusiveMiss c s

end Sys2Proof.Machine
end

