-- ==== Sys2Proof/Machine/Tick.lean ====
section
/-! DEFINITION. What one tick of the 400 MHz core clock does by itself (R41): counters count, committed values take effect, a write of a
running TUNE descriptor is made, a delayed reset acts. -/
namespace Sys2Proof.Machine

/-- One tick of a stake: its own time, and, once the upsett phase is over and while it runs, its ticks, clocks, corrections and running
pass. -/
def Stake.tickStake (runs : Bool) (k : Stake) : Stake :=
  let k := { (if runs && !k.stopped then k.tickUdc else k) with now := k.now + 1 }
  if runs && !k.stopped then
    let k := k.tickAng.tickSns.tickPos.tickPass.tickPeak.tickRefresh
    if k.vote.halted || k.vote.resync then k else k.refreshBand
  else k

/-- Whether the blocks of the package run: from the end of the upsett phase (R330, R425). -/
def State.clocked (s : State) : Bool := s.pkg.boot.phase ≠ .held && s.pkg.boot.phase ≠ .upsett

/-- R41: during the upsett phase a stake's tick counter alone counts, from the first tick after its PLL has locked. -/
def State.tickUpsett (s : State) : State :=
  let b := s.pkg.boot
  if b.phase ≠ .upsett then s
  else s.onAll fun k => if b.releasedAt + nth 0 b.locks k.id + 1 < s.time then k.onAng fun a => { a with tick := a.tick + 1 } else k

/-- R223, R228: what the stakes of each pairing see of each other at the start of a tick, and the pairings that become PAIRED. -/
def State.tickPairs (s : State) : State :=
  [0, 2, 4, 6].foldl (fun s n =>
    if (s.stake n).pairSt = 0 then s
    else
      let a := s.stake n
      let b := s.stake (n + 1)
      let s := s.onStake n fun k => k.onPair fun p => { p with seen := (b.fld Reg.FLD_PAIR_STATUS_CONSEC, b.canTakeOver) }
      let s := s.onStake (n + 1) fun k => k.onPair fun p => { p with seen := (a.fld Reg.FLD_PAIR_STATUS_CONSEC, false) }
      s.pairUp n) s

/-- One tick of the block. A `SEC_RESET` write that is due acts (R423). -/
def State.tick (s : State) : State :=
  let s := (s.onAll (Stake.tickStake s.clocked)).tickUpsett
  let s := if s.clocked then ((s.onAll fun k => k.inject fun r => min 3 (s.ringClass r)).tickPairs.tickSupply).tickOtp else s
  match s.pkg.boot.resetDue with
  | some t =>
    if t ≤ s.time then (s.onPkg fun p => { p with fresh := p.fresh + 1 }).packageReset (Config.freePkg s.pkg.fresh % 388)
    else if s.clocked then s.tickNet.tuneTick else s
  | none => if s.clocked then s.tickNet.tuneTick else s

end Sys2Proof.Machine
end

