-- ==== Sys2Proof/Safety.lean ====
section
/-! DEFINITION. What the claims about the block speak of: what a command leaves alone, the shape of the state that every step keeps, and
the anti-rollback promise. -/
namespace Sys2Proof.Machine

/-- All but stake n is as before: the package, the other stakes, the part, the queue. -/
def State.elsewhere (s t : State) (n : Nat) : Prop :=
  t.pkg = s.pkg ∧ t.part = s.part ∧ t.pending = s.pending ∧ ∀ m, m ≠ n → t.stake m = s.stake m

/-- All but the package is as before. -/
def State.stakesKept (s t : State) : Prop := t.stakes = s.stakes ∧ t.part = s.part ∧ t.pending = s.pending

/-- The registers of a stake's window but for those listed read as before. -/
def Stake.regsKept (k j : Stake) (l : List Nat) : Prop := ∀ off, off ∉ l → j.rd off = k.rd off

/-- The registers of the package region but for those listed read as before. -/
def Pkg.regsKept (p q : Pkg) (l : List Nat) : Prop := ∀ off, off ∉ l → q.rd off = p.rd off

/-- An event of the package is posted: while the event queue has room, its record is the new last one (R369, R370). -/
def State.posted (s t : State) (e : Ev) (cls : Nat) (vals : List Nat) : Prop :=
  s.pkg.evq.length < 512 → ∃ q : QEvent, t.pkg.evq = s.pkg.evq ++ [q] ∧ q.eseq = s.pkg.eseq ∧
    q.post.ev = e ∧ q.post.cls = cls ∧ q.post.stake = 255 ∧ q.post.vals = vals

/-- An event of a stake is posted: its record is among those that join the ones that leave for the anchor (R369). -/
def Stake.posted (k j : Stake) (e : Ev) (cls : Nat) (vals : List Nat) : Prop :=
  ∃ l fl, j.out = k.out ++ l ∧ (⟨e, cls, k.id, k.ang.tick, vals, fl⟩ : EvRec) ∈ l

/-- What the package holds beside its registers, its event queue and its answers to reads is as before. -/
def Pkg.restKept (p q : Pkg) : Prop :=
  q.host = p.host ∧ q.net = p.net ∧ q.nv = p.nv ∧ q.boot = p.boot ∧ q.sup = p.sup ∧ q.reads = p.reads

/-- A write of a register of stake n passes its checks: the stake takes it (R16, R316), the lock does not close the register to the writer
(R377), and the value lies in the range of its fields (R15). -/
def State.admits (s : State) (src : Src) (n off : Nat) (w : Reg32) : Prop :=
  s.takesFrom src n = true ∧ (s.locked && closedTo src off) = false ∧ ∀ r, regAt off = some r → r.inRange w = true

/-- The same of a register of the package region: the package manager's plait is not halted where it writes (R316), the lock does not close
the register to the writer (R377), and the value is in range (R15). -/
def State.pkgAdmits (s : State) (src : Src) (off : Nat) (w : Reg32) : Prop :=
  (src = .manager && (s.stake 0).vote.halted) = false ∧ (s.locked && closedTo src off) = false ∧
    ∀ r, regAt off = some r → r.inRange w = true

/-- The action an entry has dispatched and whose instant is reached (R67); ARM and DISARM do not wait for theirs. -/
def Stake.due (k : Stake) (e code : Nat) (a : Act) : Prop :=
  k.ang.acts.find? (fun a => a.entry = e && a.action = code && (code = 7 || code = 8 || reached k.ang.tick a.at_.tick)) = some a

/-- An entry has fired with an effect instant (R54, R63): it is spent, a one-shot or TICK entry is no longer enabled, and its action is
dispatched, or carried to the next tick for want of a slot. Of the stake, nothing but the scheduler, its counters and the entry's `CTRL`
has changed, and what an event has. -/
def Stake.fired (k j : Stake) (e : Nat) (at_ : Instant) (regs : List Nat) : Prop :=
  let x := k.entry e
  let a : Act := { entry := e, action := x.action, arg := x.arg, at_ := at_, src := x.src }
  (j.entry e).spent = true ∧ (j.entry e).en = !(x.oneshot || x.trig = 1) ∧
  (if k.ang.dispatched + k.ang.carriedPrev.length < 8 then j.ang.acts = k.ang.acts ++ [a] ∧ j.ang.carried = k.ang.carried
   else j.ang.acts = k.ang.acts ∧ j.ang.carried = k.ang.carried ++ [({ a with at_ := ⟨at_.tick + 1, at_.fine⟩ }, false)] ∧
    j.rd Reg.ANG_DEFER_CNT = satAdd 16 (k.rd Reg.ANG_DEFER_CNT) 1) ∧
  (∀ m, m ≠ e → j.entry m = k.entry m) ∧ j.ang.clk = k.ang.clk ∧ j.ang.tick = k.ang.tick ∧
  k.regsKept j (Reg.ANG_DEFER_CNT :: Reg.ANG_ENT_CTRL e :: regs) ∧ j = { k with ang := j.ang, regs := j.regs, out := j.out }

/-- A completion entry with a descriptor's `CID`, a status and an opcode has been written to host memory since (R346, R363). -/
def State.completes (s t : State) (cid op status : Nat) : Prop :=
  ∃ addr e, (addr, e) ∈ t.pkg.host.writes.drop s.pkg.host.writes.length ∧ e.length = 32 ∧ leOf e 0 2 = cid ∧ nth 0 e 2 = status ∧
    nth 0 e 6 = op

/-- A descriptor of a pair is under way and its completion can be written: the pair is enabled and remembers it (R346, R350). -/
def State.underWay (s : State) (r cid : Nat) : Prop :=
  s.ringEn r = true ∧ cid < 65536 ∧ ∃ f ∈ s.pkg.host.flying, f.ring = r ∧ f.cid = cid

/-- An AXIS descriptor with a `CID` and a command code has reached its live stake on a pair (R350, R354). -/
def State.axisAt (s : State) (n r c code : Nat) : Prop :=
  s.ringStake r = n ∧ s.alive n = true ∧
    ∃ d, (s.pkg.host.descs.find? fun d => d.ring = r && d.op = 2 && d.there) = some d ∧ d.cid = c ∧ nth 0 d.body 8 = code

/-- What an AXIS command leaves alone: the other stakes, the registers of the package, all of the host interface but the descriptor. -/
def State.axisElsewhere (s t : State) (n : Nat) : Prop :=
  t.pkg = { s.pkg with host := { s.pkg.host with descs := t.pkg.host.descs } } ∧ t.part = s.part ∧ t.pending = s.pending ∧
    ∀ m, m ≠ n → t.stake m = s.stake m

/-- A completion of an AXIS descriptor has joined those that leave a stake (R354). -/
def Stake.axisCompleted (k j : Stake) (r c status info : Nat) : Prop :=
  ∃ x ∈ j.done.drop k.done.length, x.ring = r ∧ x.cid = c ∧ x.op = 2 ∧ x.status = status ∧ x.info = info

/-- A completion of a descriptor has joined those that leave a stake (R350, R363). -/
def Stake.answered (k j : Stake) (r c op status info : Nat) : Prop :=
  ∃ x ∈ j.done.drop k.done.length, x.ring = r ∧ x.cid = c ∧ x.op = op ∧ x.status = status ∧ x.info = info

/-- A buffer of a CAN controller holds a received frame (R383): its stamp, its FRAME word, its identifier, its data, the next `RXSEQ`; an FD
frame is no remote frame (R380). -/
def State.canHolds (s t : State) (c i : Nat) (f : CanFrame) : Prop :=
  let f := { f with rtr := f.rtr && !f.fdf }
  t.pkg.flag (cbFull c i) = true ∧ t.pkg.fld (cbRxSeq c i) = (s.pkg.fld (cbRxSeq c i) + 1) % 16 ∧
  t.pkg.rd (canBuf c i + 0x0C) = s.canStamp f.ago ∧ t.pkg.rd (canBuf c i + 0x10) = canWord f ∧
  t.pkg.rd (canBuf c i + 0x14) = BitVec.ofNat 32 (f.id % 2 ^ 29) ∧
  ∀ j, j < f.data.length → j < dlcBytes f.fdf f.dlc → f.rtr = false →
    t.pkg.fld ⟨canBuf c i + 0x20 + j / 4 * 4, j % 4 * 8, 8⟩ = nth 0 f.data j % 256

/-- A frame reaches a controller that listens to it (R381, R383). -/
def State.canHears (s : State) (c : Nat) (f : CanFrame) : Prop :=
  s.canOn c = true ∧ f.own = (s.pkg.fld (Reg.CAN_CTRL_MODE c) = 2 : Bool)

/-- An FD frame with a recessive res bit, or one that is not allowed, is a form error (R380). -/
def State.canFormError (s : State) (c : Nat) (f : CanFrame) : Bool := f.fdf && (f.res || !s.pkg.flag (Reg.CAN_CTRL_FD_EN c))

/-- A frame that the MAC takes (R395): to 01-80-C2-00-00-0E, of EtherType 0x88F7, with its FCS. -/
def ptpFrame (m : EthMsg) : EthFrame := { dest := 0x0180C200000E, etherType := 0x88F7, fcsOk := true, msg := m }

/-- The shape of the state: eight places (R1), a part of 2, 4 or 8 stakes, at most 512 queued events and 256 snapshot slots (R370), an
`ESEQ` of 16 bits (R369), an anti-rollback counter of at most 64 (R436); and no bit is being blown below the counter's first (R438). -/
def State.Shape (s : State) : Prop :=
  s.stakes.length = 8 ∧ s.pkg.evq.length ≤ 512 ∧ s.pkg.snaps.length ≤ 256 ∧ s.pkg.eseq < 65536 ∧ s.pkg.nv.counter ≤ 64 ∧
    ∀ j ∈ s.pkg.boot.otpJobs, ∀ b ∈ j.bits, 0x800 ≤ b

/-- What is once fixed in one-time memory stays: a blown bit of stake 0's OTP is blown for good (R438), so the counter never steps back
(R436) and an enrolment is never undone (R437); and the serial number stays. -/
def State.NvKept (s t : State) : Prop :=
  (∀ a b, s.pkg.nv.otpBit a b = true → t.pkg.nv.otpBit a b = true) ∧ s.pkg.nv.counter ≤ t.pkg.nv.counter ∧
    (s.pkg.nv.enrolled = true → t.pkg.nv.enrolled = true) ∧ t.pkg.nv.serial = s.pkg.nv.serial

end Sys2Proof.Machine
end

