-- ==== Sys2Proof/Certificates/Slice0/Obligations.lean ====
section
/-! DEFINITION. The statements about the block that are to be proved, by family of commands. -/
open Sys2Proof Sys2Proof.Machine

/-! Steps and whole-machine rules. -/

/-- A step runs the command at the front of the queue, with the rest of the queue left waiting; and every command, in every state, answers
a next state: none of them stops. -/
def Obligations.StepRunsFront : Prop :=
  (∀ (s : State) (c : Instr) (rest : List Instr), s.pending = c :: rest → step s = exec c { s with pending := rest }) ∧
  ∀ (s : State) (c : Instr), ∃ t, exec c s = .next t

/-- The state after reset has the shape every step keeps and no command waits. What reset leaves: every register of a stake's window
reads as the reset column of its field map; the words of `WAL_CTRL` (R40), `ANG_CLKn_CTRL` and its limits, `FLD_CTRL`,
`MOD_PORTp_DT` and `LEG_PORTp_CFG` written out; every axis NOT_READY (R288) and every angle clock INVALID with angle and speed 0 (R51). -/
def Obligations.ResetShape : Prop :=
  State.reset.Shape ∧ State.reset.pending = [] ∧ ∀ n, n < 8 →
    let k := State.reset.stake n
    (∀ off, k.rd off = winReset n off) ∧
    k.rd Reg.WAL_CTRL = 0x00102003 ∧ (∀ c, c < 2 → k.rd (Reg.ANG_CLK_CTRL c) = 0x00060B00 ∧
      k.rd (Reg.ANG_CLK_LIMITS c) = 0x1555002E ∧ (k.clock c).valid = false ∧ (k.clock c).theta = 0 ∧ (k.clock c).omega = 0) ∧
    k.rd Reg.FLD_CTRL = 0x004B8300 ∧
    (∀ p, p < 3 → k.rd (Reg.MOD_PORT_DT p) = 0x00C80030 ∧ k.rd (Reg.LEG_PORT_CFG p) = 0x0FF09628) ∧ k.axis = axNotReady

/-- Every step keeps the shape of the state: eight places, at most 512 queued events and 256 snapshot slots (R370), an `ESEQ` of 16 bits
(R369), an anti-rollback counter of at most 64 (R436); and no bit of one-time memory below the counter's is being blown (R438). -/
def Obligations.ShapeKept : Prop := ∀ s t : State, s.Shape → step s = .next t → t.Shape

/-- No step undoes a blown bit of stake 0's one-time memory, turns the anti-rollback counter back (R436), undoes an enrolment (R437) or
changes the serial number (R438). -/
def Obligations.OneTimeKept : Prop := ∀ s t : State, s.Shape → step s = .next t → s.NvKept t

/-! Register accesses. -/

/-- R6: a host access of another width or alignment: a read gives all-ones, a write is discarded, and both post `HIF_BAD_ACCESS`. -/
def Obligations.BadWidthAccess : Prop :=
  ∀ (s : State) (write : Bool) (addr bytes : Nat), addr < 0x1000000 → ¬ (bytes = 4 ∧ addr % 4 = 0) →
    ∃ t, exec (.badWidthAccess write addr bytes) s = .next t ∧
      t.pkg.hostReads = (if write then s.pkg.hostReads else s.pkg.hostReads ++ [(addr, BitVec.allOnes 32)]) ∧
      s.posted t .hifBadAccess 0 [addr] ∧ s.stakesKept t ∧
      s.pkg.regsKept t.pkg [Reg.HIF_BAD_ACCESS_CNT, Reg.HIF_EVT_LOST_CNT] ∧ s.pkg.restKept t.pkg

/-! Ticks, angle clocks and the scheduler. -/

/-- R41, R45: on the tick that passes when no command waits, the tick counter of a running stake steps by one, and a VALID clock with
nothing to take over applies θ ← θ + ω + c, c being the tick's slew step. (That a tick is what an empty queue gives is the model's choice,
log 1.) -/
def Obligations.ClockAdvances : Prop :=
  ∀ (s : State) (n c : Nat), s.pending = [] → s.clocked = true → s.pkg.boot.resetDue = none → s.present n = true →
    (s.stake n).stopped = false → c < 2 → ((s.stake n).clock c).valid = true → ((s.stake n).clock c).next = none →
    ∃ t, step s = .next t ∧ (t.stake n).ang.tick = (s.stake n).ang.tick + 1 ∧ (t.stake n).now = (s.stake n).now + 1 ∧
      let x := (s.stake n).clock c
      let y := (t.stake n).clock c
      y.omega = x.omega ∧ y.rev = x.rev ∧ y.valid = true ∧ y.slewLeft = x.slewLeft - 1 ∧ y.prevL = x.look ∧
      y.theta = x.theta + w48 (x.omega + (if x.slewLeft = 0 then 0
        else slewInc x.slewE ((s.stake n).fld (Reg.ANG_CLK_CTRL_SLEW_LOG2 c)) x.slewLeft))

/-- R42, R51: a wrap of `ANG_TICK` is recorded, counted and posted; a scheduled source silent for `EXTRAP_MAX` makes its clock INVALID. -/
def Obligations.TickWrapAndExtrapolation : Prop :=
  (∀ (s : State) (n : Nat), s.present n = true → (s.stake n).ang.wrapPend = true →
    ∃ t, exec (.angTickWrap n) s = .next t ∧ s.elsewhere t n ∧ (t.stake n).ang.wrapPend = false ∧
      (t.stake n).flag Reg.ANG_TICK_STATUS_WRAP = true ∧
      (t.stake n).fld Reg.ANG_TICK_STATUS_WRAP_COUNT = min 255 ((s.stake n).fld Reg.ANG_TICK_STATUS_WRAP_COUNT + 1) ∧
      (s.stake n).posted (t.stake n) .angTickWrap 0 [] ∧ (s.stake n).regsKept (t.stake n) [Reg.ANG_TICK_STATUS]) ∧
  (∀ (s : State) (n c : Nat), s.present n = true → c < 2 → ((s.stake n).clock c).valid = true →
    (s.stake n).flag (Reg.ANG_CLK_CTRL_EN c) = true → scheduledSrc ((s.stake n).clkSrc c) = true →
    ((s.stake n).clock c).lastMeas + 400 * (s.stake n).fld (Reg.ANG_CLK_EXTRAP_EXTRAP_MAX c) ≤ (s.stake n).now →
    ∃ t, exec (.angExtrapLimit n c) s = .next t ∧ s.elsewhere t n ∧ ((t.stake n).clock c).valid = false ∧
      ((t.stake n).clock c).theta = ((s.stake n).clock c).theta ∧ ((t.stake n).clock c).omega = ((s.stake n).clock c).omega ∧
      (s.stake n).posted (t.stake n) .angExtrapLimit ((s.stake n).fld (Reg.ANG_CLK_CTRL_EXTRAP_CLASS c)) [c])

/-- R48, R49, R52: an enabled clock takes the oldest measurement delivered to it: an INVALID clock loads it in the next tick; a VALID one
slews an error within `SLEW_LIMIT` and steps a greater one; a measurement older than 4,096 ticks only counts. -/
def Obligations.MeasurementTaken : Prop :=
  ∀ (s : State) (n c : Nat) (m : Meas) (rest : List Meas), s.present n = true → c < 2 → ((s.stake n).clock c).mail = m :: rest →
    (s.stake n).flag (Reg.ANG_CLK_CTRL_EN c) = true →
    ∃ t, exec (.measurementProcess n c) s = .next t ∧ s.elsewhere t n ∧ ((t.stake n).clock c).mail = rest ∧
      let k := s.stake n
      let x := k.clock c
      let y := (t.stake n).clock c
      let e := wrap48 (m.m.toNat - ((x.theta.toNat : Int) - x.omega * (k.ang.tick - m.tm).toInt))
      if 4096 < (k.ang.tick - m.tm).toInt then
        y.next = x.next ∧ (t.stake n).rd (Reg.ANG_CLK_STALE_CNT c) = satAdd 16 (k.rd (Reg.ANG_CLK_STALE_CNT c)) 1
      else if x.valid = false then y.next = some ⟨m.speed, m.rev, some m.m, none, none⟩ ∧ y.lastMeas = k.now
      else if e.natAbs < k.fld (Reg.ANG_CLK_LIMITS_SLEW_LIMIT c) * 4294967296 then
        y.next = some ⟨m.speed, m.rev, none, none, some e⟩ ∧ y.lastMeas = k.now
      else y.next = some ⟨m.speed, m.rev, none, some e, none⟩ ∧ y.lastMeas = k.now

/-- R54, R55, R57, R58, R63: an ANGLE entry fires at the qualifying crossing, a TICK and a PERIODIC entry four ticks ahead of their
instant or, too late for it, at once with effect four ticks on, and a BOUNDARY entry four ticks ahead of its offset from the boundary
of the present period, or from the next one, which is known before it comes. -/
def Obligations.EntriesFallDue : Prop :=
  (∀ (s : State) (n e u : Nat) (rev : Bool), s.present n = true → (s.stake n).entryLive e 0 = true →
    ((s.stake n).entry e).spent = false → ((s.stake n).clock ((s.stake n).entry e).src).valid = true →
    crossing ((s.stake n).clock ((s.stake n).entry e).src) ((s.stake n).entry e).tgt ((s.stake n).entry e).dir = some (u, rev) →
    ∃ t, exec (.angleEntryDue n e) s = .next t ∧ s.elsewhere t n ∧ ((t.stake n).entry e).sigmaRev = rev ∧
      let c := (s.stake n).clock ((s.stake n).entry e).src
      (s.stake n).fired (t.stake n) e (crossInstant (s.stake n).ang.tick c.stepNow u c.stepL) []) ∧
  (∀ (s : State) (n e : Nat), s.present n = true → (s.stake n).entryLive e 1 = true → (s.stake n).ang.firedNow.contains e = false →
    let k := s.stake n
    let x := k.entry e
    (lateFiring k.ang.tick x x.tgt = true →
      ∃ t, exec (.tickEntryDue n e) s = .next t ∧ s.elsewhere t n ∧ k.fired (t.stake n) e ⟨k.ang.tick + 4, x.fine⟩ [Reg.ANG_LATE_CNT] ∧
        (t.stake n).rd Reg.ANG_LATE_CNT = satAdd 16 (k.rd Reg.ANG_LATE_CNT) 1 ∧ k.posted (t.stake n) .angTargetPast 0 [e]) ∧
    (lateFiring k.ang.tick x x.tgt = false → k.ang.tick + 4 = x.tgt →
      ∃ t, exec (.tickEntryDue n e) s = .next t ∧ s.elsewhere t n ∧ k.fired (t.stake n) e ⟨x.tgt, x.fine⟩ [])) ∧
  (∀ (s : State) (n e : Nat), s.present n = true → (s.stake n).entryLive e 2 = true → (s.stake n).ang.firedNow.contains e = false →
    let k := s.stake n
    let x := k.entry e
    (lateFiring k.ang.tick x x.next = true →
      ∃ t, exec (.periodicEntryDue n e) s = .next t ∧ s.elsewhere t n ∧ k.fired (t.stake n) e ⟨k.ang.tick + 4, x.fine⟩ [Reg.ANG_LATE_CNT] ∧
        (t.stake n).rd Reg.ANG_LATE_CNT = satAdd 16 (k.rd Reg.ANG_LATE_CNT) 1 ∧ k.posted (t.stake n) .angTargetPast 0 [e]) ∧
    (lateFiring k.ang.tick x x.next = false → k.ang.tick + 4 = x.next →
      ∃ t, exec (.periodicEntryDue n e) s = .next t ∧ s.elsewhere t n ∧ k.fired (t.stake n) e ⟨x.next, x.fine⟩ [] ∧
        ((t.stake n).entry e).next = x.next + w48 x.ivl)) ∧
  (∀ (s : State) (n e : Nat), s.present n = true → (s.stake n).entryLive e 3 = true → (s.stake n).ang.firedNow.contains e = false →
    let k := s.stake n
    let o := (k.entry e).tgt.toNat % 4294967296
    k.modu.run = true → ¬ (laterTick k.modu.nextB k.ang.tick = true ∧ k.ang.tick + 4 = k.modu.nextB + w48 o) →
    k.ang.bndDone.contains (e, k.ang.period.1) = false → o < k.ang.period.2 → k.ang.tick + 4 = k.ang.period.1 + w48 o →
    ∃ t, exec (.boundaryEntryDue n e) s = .next t ∧ s.elsewhere t n ∧
      k.fired (t.stake n) e ⟨k.ang.period.1 + w48 o, (k.entry e).fine⟩ [] ∧ (e, k.ang.period.1) ∈ (t.stake n).ang.bndDone) ∧
  (∀ (s : State) (n e : Nat) (b : Word48), s.present n = true → (s.stake n).entryLive e 3 = true →
    (s.stake n).ang.firedNow.contains e = false → (s.stake n).boundaryAhead = some b → laterTick b (s.stake n).ang.tick = true →
    let k := s.stake n
    let o := (k.entry e).tgt.toNat % 4294967296
    k.ang.tick + 4 = b + w48 o →
    ∃ t, exec (.boundaryEntryDue n e) s = .next t ∧ s.elsewhere t n ∧ k.fired (t.stake n) e ⟨b + w48 o, (k.entry e).fine⟩ [])

/-- R56: a BOUNDARY entry whose offset is not less than the length in ticks of the period that begins at B does not fire in that period,
and counts in `ANG_SKIP_CNT`; it is not looked at again until the following boundary. -/
def Obligations.BoundarySkipped : Prop :=
  ∀ (s : State) (n e : Nat), s.present n = true → (s.stake n).entryLive e 3 = true → (s.stake n).ang.firedNow.contains e = false →
    (s.stake n).modu.run = true →
    let k := s.stake n
    ¬ (laterTick k.modu.nextB k.ang.tick = true ∧ k.ang.tick + 4 = k.modu.nextB + w48 ((k.entry e).tgt.toNat % 4294967296)) →
    k.ang.bndDone.contains (e, k.ang.period.1) = false → 0 < k.ang.period.2 → k.ang.period.2 ≤ (k.entry e).tgt.toNat % 4294967296 →
    ∃ t, exec (.boundaryEntryDue n e) s = .next t ∧ s.elsewhere t n ∧
      (t.stake n).rd Reg.ANG_SKIP_CNT = satAdd 16 (k.rd Reg.ANG_SKIP_CNT) 1 ∧ (t.stake n).entry e = k.entry e ∧
      (t.stake n).ang.acts = k.ang.acts ∧ (t.stake n).ang.carried = k.ang.carried ∧ k.regsKept (t.stake n) [Reg.ANG_SKIP_CNT] ∧
      (∃ t', exec (.boundaryEntryDue n e) t = .next t' ∧ (t'.stake n).ang = (t.stake n).ang)

/-- R61: while an entry's clock is INVALID, that ANGLE entry neither falls due nor re-arms. -/
def Obligations.InvalidClockHolds : Prop :=
  ∀ (s : State) (n e : Nat), s.present n = true → ((s.stake n).entry e).trig = 0 →
    ((s.stake n).clock ((s.stake n).entry e).src).valid = false →
    ∀ c ∈ [Instr.angleEntryDue n e, .entryRearm n e, .directionRearm n 0, .directionRearm n 1],
      ∃ t, exec c s = .next t ∧ (t.stake n).entry e = (s.stake n).entry e ∧ (t.stake n).ang.acts = (s.stake n).ang.acts ∧
        (t.stake n).ang.carried = (s.stake n).ang.carried

/-- R59, R60: a spent ANGLE entry re-arms when its angle lies in the re-arm band, and in the tick after the direction flag toggles if its
sense is the opposite one. R63, R65: entries carried over take the dispatch slots of the tick first, in order; those that find none are
carried on. R62, R72: a commit of an entry waits for the next tick, and setting `ANG_SCHED_CTRL.EN` arms every entry. -/
def Obligations.EntriesRearmAndQueue : Prop :=
  (∀ (s : State) (n e : Nat), s.present n = true → e < 127 → ((s.stake n).entry e).trig = 0 → ((s.stake n).entry e).spent = true →
    ((s.stake n).clock ((s.stake n).entry e).src).valid = true → (s.stake n).ang.firedNow.contains e = false →
    let k := s.stake n
    let x := k.entry e
    let c := k.clock x.src
    let d := if x.sigmaRev then (c.look - x.tgt).toNat else (x.tgt - c.look).toNat
    k.fld Reg.ANG_SCHED_CTRL_REARM_BAND * 4294967296 ≤ d → d ≤ 140737488355328 →
    ∃ t, exec (.entryRearm n e) s = .next t ∧ s.elsewhere t n ∧ ((t.stake n).entry e) = { x with spent := false } ∧
      (∀ m, m ≠ e → (t.stake n).entry m = k.entry m) ∧ k.regsKept (t.stake n) [Reg.ANG_BACK_REARM_CNT] ∧
      t.stake n = { k with ang := (t.stake n).ang, regs := (t.stake n).regs }) ∧
  (∀ (s : State) (n c : Nat), s.present n = true → ((s.stake n).clock c).toggledPrev = true → ((s.stake n).clock c).valid = true →
    ∃ t, exec (.directionRearm n c) s = .next t ∧ s.elsewhere t n ∧ t.stake n = { s.stake n with ang := (t.stake n).ang } ∧
      ∀ e, (t.stake n).entry e =
        if ((s.stake n).entry e).trig = 0 ∧ ((s.stake n).entry e).src = c ∧
          ((s.stake n).entry e).sigmaRev ≠ ((s.stake n).clock c).rev then { (s.stake n).entry e with spent := false } else (s.stake n).entry e) ∧
  (∀ (s : State) (n : Nat), s.present n = true →
    let k := s.stake n
    let room := 8 - k.ang.dispatched
    ∃ t, exec (.deferredDispatch n) s = .next t ∧ s.elsewhere t n ∧ (t.stake n).ang.carriedPrev = [] ∧
      (t.stake n).ang.acts = k.ang.acts ++ (k.ang.carriedPrev.take room).map (·.1) ∧
      (t.stake n).ang.carried = k.ang.carried ++
        (k.ang.carriedPrev.drop room).map fun x => ({ x.1 with at_ := ⟨x.1.at_.tick + 1, x.1.at_.fine⟩ }, true)) ∧
  (∀ (s : State) (n e : Nat) (src : Src) (w : Reg32), s.alive n = true → (s.locked && closedTo src (Reg.ANG_ENT_CTRL e)) = false →
    e < 127 → commitInRange w ((s.stake n).rd (Reg.ANG_ENT_IVL e)).toNat = true →
    let k := s.stake n
    ∃ t, exec (.entryCommit n src e w) s = .next t ∧ s.elsewhere t n ∧
      (t.stake n).ang = { k.ang with pend := k.ang.pend ++ [.commit e (BitVec.ofNat 48 ((k.rd (Reg.ANG_ENT_TGT_LO e)).toNat +
        (k.rd (Reg.ANG_ENT_TGT_HI e)).toNat % 65536 * 4294967296)) (k.rd (Reg.ANG_ENT_IVL e)).toNat w] } ∧
      k.regsKept (t.stake n) [Reg.ANG_ENT_CTRL e] ∧ t.stake n = { k with ang := (t.stake n).ang, regs := (t.stake n).regs }) ∧
  (∀ (s : State) (n : Nat) (src : Src) (w : Reg32), s.admits src n Reg.ANG_SCHED_CTRL w → w.getLsbD 31 = true →
    (s.stake n).flag Reg.ANG_SCHED_CTRL_EN = false →
    let k := s.stake n
    ∃ t, exec (.schedEnable n src w) s = .next t ∧ s.elsewhere t n ∧ (t.stake n).flag Reg.ANG_SCHED_CTRL_EN = true ∧
      (∀ e, (t.stake n).entry e = if e < k.ang.ent.length then { k.entry e with spent := false } else {}) ∧
      k.regsKept (t.stake n) [Reg.ANG_SCHED_CTRL] ∧ t.stake n = { k with ang := (t.stake n).ang, regs := (t.stake n).regs })

/-- R67: the actions NONE, PLAIT_IRQ, SNAPSHOT, ARM and DISARM take effect: the action leaves the list of those dispatched, and does what
its code says. -/
def Obligations.SchedulerActions : Prop :=
  ∀ (s : State) (n e : Nat) (a : Act), s.present n = true →
    let k := s.stake n
    let done := { k.ang with acts := k.ang.acts.erase a }
    (k.due e 0 a → ∃ t, exec (.actionNone n e) s = .next t ∧ s.elsewhere t n ∧ t.stake n = { k with ang := done }) ∧
    (k.due e 5 a → ∃ t, exec (.actionPlaitIrq n e) s = .next t ∧ s.elsewhere t n ∧
      t.stake n = if k.vote.resync then ({ k with ang := done }).hold (.irq (a.arg % 16))
        else { k with ang := { done with irqs := k.ang.irqs ++ [a.arg % 16] } }) ∧
    (k.due e 6 a → ∃ t, exec (.actionSnapshot n e) s = .next t ∧ s.elsewhere t n ∧ ∃ o : Offer,
      t.stake n = { k with ang := done, offers := k.offers ++ [o] } ∧ o.stream = a.arg % 16 ∧
      o.words = [a.at_.tick.toNat, (k.clock a.src).theta.toNat, (w48 (k.clock a.src).omega).toNat,
        a.at_.fine % 32 + (if (k.clock a.src).rev then 256 else 0)]) ∧
    (k.due e 7 a → ∃ t, exec (.actionArm n e) s = .next t ∧ s.elsewhere t n ∧
      t.stake n = { k with ang := { done with pend := k.ang.pend ++ [.arm a.arg] } }) ∧
    (k.due e 8 a → ∃ t, exec (.actionDisarm n e) s = .next t ∧ s.elsewhere t n ∧
      t.stake n = { k with ang := { done with pend := k.ang.pend ++ [.disarm a.arg] } })

/-! Sensing. -/

/-- R77, R80: a CAPTURE action centres a window for every group of its mask that has an enabled channel, a running clock output (R74) and
no capture in flight: on the latest edge of that output at or before the effect tick, with the group's next sequence number; the other groups are as
before. -/
def Obligations.CaptureStarts : Prop :=
  ∀ (s : State) (n e : Nat) (a : Act), s.present n = true → (s.stake n).due e 1 a → (s.stake n).flag Reg.SNS_CTRL_EN = true →
    ∃ t, exec (.actionCapture n e) s = .next t ∧ s.elsewhere t n ∧ (t.stake n).ang.acts = (s.stake n).ang.acts.erase a ∧
      (∀ g gr c l, g < 4 → (s.stake n).sns.groups[g]? = some gr → gr.inFlight = [] → (s.stake n).groupChans g = c :: l →
        (a.arg % 16).testBit g = true → (s.stake n).hasEdge ((s.stake n).mclkOf c) a.at_.tick = true →
        let k := s.stake n
        let d := k.mdiv (k.mclkOf c)
        let ct := centreOf a.at_.tick d (k.inForce (Reg.SNS_MCLK_PHASE (k.mclkOf c)))
        let r := k.inForce (Reg.SNS_GRP_OSR g)
        (t.stake n).sns.groups[g]? = some { gr with
          inFlight := [⟨ct, gr.nextSeq, (ct - BitVec.ofNat 48 (r * 3 / 2 * d + k.inForce (Reg.SNS_GRP_SETTLE g)),
            ct + BitVec.ofNat 48 ((3 * r + 1) / 2 * d)), false, (k.clock 1).theta⟩]
          nextSeq := (gr.nextSeq + 1) % 65536 }) ∧
      (∀ g, (a.arg % 16).testBit g = false ∨ 4 ≤ g → (t.stake n).sns.groups[g]? = (s.stake n).sns.groups[g]?)

/-- R76, R77, R79, R82: a group's oldest capture completes once its taint zone is over: the group's latest set is that capture's, and the
value of each enabled channel with a decimator is `GAIN` × r − `OFFSET` of the sinc3 sum over the bits of the channel's window, the last
of 3 × `OSR` sampled `SAMPLE_DLY` ticks after the last edge before the completion edge (R75). -/
def Obligations.CaptureCompletes : Prop :=
  ∀ (s : State) (n g : Nat) (waves : List Wave) (gr : SnsGroup) (c : Capture) (rest : List Capture), s.present n = true →
    (s.stake n).sns.groups[g]? = some gr → gr.inFlight = c :: rest → reached (s.stake n).ang.tick (c.zone.2 + 4) = true →
    ∃ t, exec (.captureComplete n g waves) s = .next t ∧ s.elsewhere t n ∧ ∃ x : SampleSet,
      (t.stake n).sns.groups[g]? = some { gr with inFlight := rest, latest := some x } ∧ x.seq = c.seq ∧ x.centre = c.centre ∧
      ∀ ch ∈ (s.stake n).groupChans g, (s.stake n).flag (Reg.SNS_CH_STATUS_UNAVAIL ch) = false →
        let k := s.stake n
        let o := k.osr ch
        nth 0 x.y ch = (k.correct ch (sinc3 o (k.bitsTo ch (3 * o)
          (c.centre + BitVec.ofNat 48 (((3 * o + 1) / 2 - 1) * k.mdiv (k.mclkOf ch))) (nth [] waves ch)))).1

/-- R76, R82, R84: the output a main decimator has at an edge of its clock is shown, corrected, in the channel's registers; nothing but sensing, its registers and the
stream items changes where the channel serves neither the resolver nor the DC link nor the chopper. R84: `VOLTS` follows it. -/
def Obligations.DecimatorShown : Prop :=
  ∀ (s : State) (n c : Nat) (wave : Wave), s.present n = true → c < 16 → (s.stake n).flag Reg.SNS_CTRL_EN = true →
    (s.stake n).hasEdge ((s.stake n).mclkOf c) (s.stake n).ang.tick = true →
    (s.stake n).edgeOf ((s.stake n).mclkOf c) (s.stake n).ang.tick = (s.stake n).ang.tick →
    (s.stake n).inForceB (Reg.SNS_CH_CFG_EN c) = true → (s.stake n).flag (Reg.SNS_CH_STATUS_UNAVAIL c) = false →
    ((s.stake n).chan c).clkFault = false → c ≠ (s.stake n).inForce Reg.FLD_MAP_UDC_A → c ≠ (s.stake n).inForce Reg.FLD_MAP_UDC_B →
    c ≠ (s.stake n).inForce Reg.PLT_CHOP_CFG_CHOP_CH → (s.stake n).posLive 0 = false →
    let k := s.stake n
    let y := (k.correct c (sinc3 (k.osr c) (k.bitsTo c (3 * k.osr c) (k.ang.tick - BitVec.ofNat 48 (k.mdiv (k.mclkOf c))) wave))).1
    ∃ t, exec (.decimatorOutput n c wave) s = .next t ∧ s.elsewhere t n ∧
      (t.stake n).get48 (Reg.SNS_CH_SAMPLE c) = w48 y ∧ (t.stake n).sfld (Reg.SNS_CH_VOLTS_VOLTS c) = k.volts c y ∧
      k.regsKept (t.stake n) [Reg.SNS_CH_STATUS c, Reg.SNS_CH_VOLTS c, Reg.SNS_CH_SAMPLE c, Reg.SNS_CH_SAMPLE c + 4, Reg.SNS_CH_CENTRE c] ∧
      t.stake n = { k with sns := (t.stake n).sns, regs := (t.stake n).regs, offers := (t.stake n).offers }

/-- R86, R88: a fast comparator of an enabled channel whose condition has held at `FAST_N` consecutive clocks sets its status bit, posts
`SNS_FAST_TRIP`, and with `FAST_CLASS` 2 signals the sequencer. R89, R90: a channel whose last 64 bits are alike becomes stuck, and its
`STUCK` clears at the next transition. R80: a channel's filter holds valid history after 3 × `OSR` bits. -/
def Obligations.ChannelConditions : Prop :=
  (∀ (s : State) (n c : Nat) (hi : Bool) (wave : Wave), s.present n = true → c < 16 → (s.stake n).flag Reg.SNS_CTRL_EN = true →
    (s.stake n).inForceB (Reg.SNS_CH_CFG_FAST_EN c) = true → (s.stake n).inForceB (Reg.SNS_CH_CFG_EN c) = true →
    (s.stake n).flag (Reg.SNS_CH_STATUS_UNAVAIL c) = false → ((s.stake n).chan c).clkFault = false →
    (s.stake n).inForceB (Reg.SNS_MCLK_EN ((s.stake n).mclkOf c)) = true →
    let k := s.stake n
    (k.ang.tick - k.lastEdge c).toNat ≤ k.mdiv (k.mclkOf c) + 8 →
    let r := k.inForce (Reg.SNS_CH_CFG_FAST_OSR c)
    let fn := max 1 (k.inForce (Reg.SNS_CH_CFG_FAST_N c))
    let bits := k.bitsTo c (2 * r + fn - 1) (k.lastEdge c) wave
    (∀ i, i < fn →
      let v := sinc2 r (bits.take (bits.length - i)) - k.fastNow (Reg.SNS_CH_FAST_OFS_FAST_OFS c)
      if hi then k.fastNow (Reg.SNS_CH_FAST_THR_HI c) < v else v < k.fastNow (Reg.SNS_CH_FAST_THR_LO c)) →
    let cl := k.inForce (Reg.SNS_CH_CFG_FAST_CLASS c)
    ∃ t, exec (.fastPathTrip n c hi wave) s = .next t ∧ s.elsewhere t n ∧
      (t.stake n).flag (if hi then Reg.SNS_CH_STATUS_FAST_HI c else Reg.SNS_CH_STATUS_FAST_LO c) = true ∧
      k.posted (t.stake n) .snsFastTrip (if cl = 0 then 0 else if cl = 1 then 3 else 4)
        [c, if hi then 1 else 0, if k.flag (Reg.SNS_CH_STATUS_STUCK c) then 1 else 0] ∧
      (t.stake n).prt.trips = k.prt.trips ++ (if cl = 2 then [⟨(k.fastCause c hi).1, (k.fastCause c hi).2, k.now⟩] else [])) ∧
  (∀ (s : State) (n c : Nat) (wave : Wave) (v : Bool), s.present n = true → c < 16 →
    (s.stake n).flag (Reg.SNS_CH_STATUS_UNAVAIL c) = false →
    (s.stake n).flag (Reg.SNS_CH_STATUS_STUCK c) = false → ((s.stake n).chan c).clkFault = false → 64 ≤ (s.stake n).bitsIn c →
    (s.stake n).bitsTo c 64 ((s.stake n).lastEdge c) wave = List.replicate 64 v →
    let k := s.stake n
    ∃ t, exec (.channelStuck n c wave) s = .next t ∧ s.elsewhere t n ∧ (t.stake n).flag (Reg.SNS_CH_STATUS_STUCK c) = true ∧
      (t.stake n).flag (Reg.SNS_CH_STATUS_STUCK_SEEN c) = true ∧
      k.posted (t.stake n) .snsStuck (k.inForce (Reg.SNS_CH_CFG_STUCK_CLASS c))
        [c, if k.flag (Reg.SNS_CH_STATUS_FAST_HI c) || k.flag (Reg.SNS_CH_STATUS_FAST_LO c) then 1 else 0] ∧
      k.regsKept (t.stake n) [Reg.SNS_CH_STATUS c, Reg.PLT_ACTIVE, Reg.PLT_AXIS_STATE]) ∧
  (∀ (s : State) (n c : Nat) (wave : Wave) (v : Bool), s.present n = true → c < 16 → 2 ≤ (s.stake n).bitsIn c →
    (s.stake n).bitsTo c 2 ((s.stake n).lastEdge c) wave = [!v, v] →
    ∃ t, exec (.channelUnstuck n c wave) s = .next t ∧ s.elsewhere t n ∧ (t.stake n).flag (Reg.SNS_CH_STATUS_STUCK c) = false ∧
      (t.stake n).flag (Reg.SNS_CH_STATUS_STUCK_SEEN c) = (s.stake n).flag (Reg.SNS_CH_STATUS_STUCK_SEEN c) ∧
      (s.stake n).regsKept (t.stake n) [Reg.SNS_CH_STATUS c] ∧
      t.stake n = { s.stake n with regs := (t.stake n).regs, sns := (t.stake n).sns }) ∧
  (∀ (s : State) (n c : Nat), s.present n = true → c < 16 →
    let k := s.stake n
    (k.chan c).clkFault = false → 3 * k.osr c ≤ k.bitsIn c →
    ∃ t, exec (.filterFilled n c) s = .next t ∧ s.elsewhere t n ∧ (t.stake n).flag (Reg.SNS_CH_STATUS_FILLING c) = false ∧
      ((t.stake n).fld Reg.SNS_STATUS_FILLED).testBit c = true ∧
      k.regsKept (t.stake n) [Reg.SNS_CH_STATUS c, Reg.SNS_STATUS] ∧ t.stake n = { k with regs := (t.stake n).regs })

/-- R83: `CORR_COMMIT` takes gain and offset together, for the tick after. R94: an `APPLY` in OFF, SAFE or TEST that leaves no group mixed
puts every staged value of the block in force; a refused one leaves them staged, sets `CFG_REFUSED` and posts `SNS_CFG_REFUSED`. -/
def Obligations.SensingCommits : Prop :=
  (∀ (s : State) (n c : Nat) (src : Src) (w : Reg32), s.admits src n (Reg.SNS_CH_CORR_COMMIT c) w → c < 16 → w.getLsbD 0 = true →
    let k := s.stake n
    ∃ t, exec (.corrCommit n src c w) s = .next t ∧ s.elsewhere t n ∧
      t.stake n = { k with sns := { k.sns with corrNext := k.sns.corrNext ++
        [(c, k.get48 (Reg.SNS_CH_GAIN c), k.get48 (Reg.SNS_CH_OFFSET c))] } }) ∧
  (∀ (s : State) (n : Nat) (src : Src) (w : Reg32), s.admits src n Reg.SNS_CTRL w → w.getLsbD 0 = true →
    let k := s.stake n
    (k.axisIn [axOff, axSafe, axTest] = true → k.snsMixed = false →
      ∃ t, exec (.snsApply n src w) s = .next t ∧ s.elsewhere t n ∧
        ∀ off, ((0x10010 ≤ off ∧ off < 0x10034) ∨ off = Reg.SNS_PLAUS_MAP ∨ ∃ c, c < 16 ∧ off = Reg.SNS_CH_CFG c) →
          (t.stake n).rdAct off = k.rd off) ∧
    (k.axisIn [axOff, axSafe, axTest] = false ∨ k.snsMixed = true →
      ∃ t, exec (.snsApply n src w) s = .next t ∧ s.elsewhere t n ∧ (t.stake n).act = k.act ∧
        (t.stake n).flag Reg.SNS_STATUS_CFG_REFUSED = true ∧ k.posted (t.stake n) .snsCfgRefused 0 [] ∧
        k.regsKept (t.stake n) [Reg.SNS_CTRL, Reg.SNS_STATUS]))

/-! Position and speed. -/

/-- R107 to R113: an edge of A or of B whose level has held for `EDGE_MIN` ticks, in a tick without an alignment load, steps the
encoder's count by one in its sense, modulo 4L, and the measured angle follows it; edges of both in one tick count as a quadrature error
and leave the count; a shorter pulse is rejected and counts; the first index since enable
loads `Z_COUNT` and aligns the encoder; an alignment load sets the count. -/
def Obligations.EncoderCounts : Prop :=
  (∀ (s : State) (n held : Nat) (onA : Bool), s.present n = true → (s.stake n).posLive 1 = true →
    (s.stake n).fld Reg.POS_ENC_CFG_EDGE_MIN ≤ held → (s.stake n).pos.loadAt.map (·.1) ≠ some (s.stake n).now →
    let k := s.stake n
    let a := k.pos.a != onA
    let b := k.pos.b != !onA
    let c := (k.encCount + (if encForward (k.flag Reg.POS_ENC_CFG_SWAP) onA a b then 1 else k.encCounts - 1)) % k.encCounts
    ∃ t, exec (.encoderEdge n onA (!onA) held) s = .next t ∧ s.elsewhere t n ∧ (t.stake n).pos.a = a ∧ (t.stake n).pos.b = b ∧
      (t.stake n).encCount = c ∧ (t.stake n).get48 (Reg.POS_SRC_ANGLE 1) =
        k.encAngle c + BitVec.ofNat 48 (k.fld (Reg.POS_SRC_OFFSET_OFFSET 1) * 4294967296)) ∧
  (∀ (s : State) (n held : Nat), s.present n = true → (s.stake n).posLive 1 = true →
    (s.stake n).fld Reg.POS_ENC_CFG_EDGE_MIN ≤ held → (s.stake n).pos.loadAt.map (·.1) ≠ some (s.stake n).now →
    ∃ t, exec (.encoderEdge n true true held) s = .next t ∧ s.elsewhere t n ∧ (t.stake n).encCount = (s.stake n).encCount ∧
      (t.stake n).rd Reg.POS_QUAD_ERR_CNT = satAdd 16 ((s.stake n).rd Reg.POS_QUAD_ERR_CNT) 1) ∧
  (∀ (s : State) (n width : Nat) (hall : Bool), s.present n = true → width < (s.stake n).fld Reg.POS_ENC_CFG_EDGE_MIN →
    ∃ t, exec (.encoderPulseRejected n hall width) s = .next t ∧ s.elsewhere t n ∧ (t.stake n).encCount = (s.stake n).encCount ∧
      (t.stake n).rd Reg.POS_EDGE_FAULT_CNT = satAdd 16 ((s.stake n).rd Reg.POS_EDGE_FAULT_CNT) 1) ∧
  (∀ (s : State) (n held : Nat), s.present n = true → (s.stake n).posLive 1 = true → (s.stake n).flag Reg.POS_ENC_CFG_Z_EN = true →
    (s.stake n).fld Reg.POS_ENC_CFG_EDGE_MIN ≤ held → (s.stake n).pos.loadAt.map (·.1) ≠ some (s.stake n).now →
    (if (s.stake n).pos.b then 2 else 0) + (if (s.stake n).pos.a then 1 else 0) = (s.stake n).fld Reg.POS_ENC_CFG_Z_GATE →
    (s.stake n).pos.indexed = false →
    ∃ t, exec (.encoderIndex n held) s = .next t ∧ s.elsewhere t n ∧
      (t.stake n).encCount = (s.stake n).fld Reg.POS_ENC_INDEX_Z_COUNT % (s.stake n).encCounts ∧ (t.stake n).pos.indexed = true ∧
      (t.stake n).flag (Reg.POS_SRC_STATUS_ALIGNED 1) = true ∧ (t.stake n).flag (Reg.POS_SRC_STATUS_VALID 1) = true) ∧
  (∀ (s : State) (n : Nat) (src : Src) (w : Reg32), s.admits src n Reg.POS_ENC_ALIGN w → (s.stake n).alignBad w = false →
    w.getLsbD 31 = true →
    ∃ t, exec (.encAlignLoad n src w) s = .next t ∧ s.elsewhere t n ∧ (t.stake n).encCount = Reg.POS_ENC_ALIGN_COUNT.of w ∧
      (t.stake n).flag (Reg.POS_SRC_STATUS_ALIGNED 1) = true)

/-- R114, R115, R120: a Hall transition to the next sector measures the boundary crossed, either way; 100 µs of an illegal state fault the
source; a source without an edge for its standstill time reports speed 0. -/
def Obligations.HallAndStandstill : Prop :=
  (∀ (s : State) (n levels held i j : Nat), s.present n = true → (s.stake n).posLive 2 = true →
    (s.stake n).fld Reg.POS_ENC_CFG_EDGE_MIN ≤ held → (s.stake n).pos.hall ≠ levels % 8 →
    hallSector (levels % 8 ^^^ (s.stake n).fld Reg.POS_HALL_CFG_INV) = some i → (s.stake n).pos.sector = some j →
    (i = (j + 1) % 6 ∨ j = (i + 1) % 6) → i ≠ j →
    ∃ t, exec (.hallTransition n levels held) s = .next t ∧ s.elsewhere t n ∧ (t.stake n).pos.hall = levels % 8 ∧
      (t.stake n).pos.sector = some i ∧ (t.stake n).flag (Reg.POS_SRC_STATUS_COARSE 2) = false ∧
      (t.stake n).get48 (Reg.POS_SRC_ANGLE 2) = hallBound (if i = (j + 1) % 6 then i else j) +
        BitVec.ofNat 48 ((s.stake n).fld (Reg.POS_SRC_OFFSET_OFFSET 2) * 4294967296)) ∧
  (∀ (s : State) (n since : Nat), s.present n = true → (s.stake n).posLive 2 = true → (s.stake n).pos.illegal = some since →
    since + 40000 ≤ (s.stake n).now →
    ∃ t, exec (.hallIllegalTimeout n) s = .next t ∧ s.elsewhere t n ∧ (t.stake n).flag (Reg.POS_SRC_STATUS_FAULTED 2) = true ∧
      (t.stake n).fld (Reg.POS_SRC_STATUS_KIND 2) = 5 ∧ (t.stake n).flag (Reg.POS_SRC_STATUS_VALID 2) = false ∧
      (s.stake n).posted (t.stake n) .posHallFault ((s.stake n).fld Reg.POS_FAULT_HALL_CLASS)
        [5, (s.stake n).fld Reg.POS_HALL_ERR_CNT_COUNT]) ∧
  (∀ (s : State) (n src : Nat), s.present n = true → src = 1 ∨ src = 2 → (s.stake n).posLive src = true →
    (s.stake n).fld Reg.POS_TIMING_T_STAND * 400000 ≤ (s.stake n).now - ((s.stake n).edges src).lastAt →
    (s.stake n).fld (Reg.POS_SRC_STATUS_QUAL src) ≠ 1 → ((s.stake n).edges src).edgeAt ≠ some (s.stake n).now →
    ∃ t, exec (.standstillTimeout n src) s = .next t ∧ s.elsewhere t n ∧ (t.stake n).fld (Reg.POS_SRC_STATUS_QUAL src) = 1 ∧
      (t.stake n).get48 (Reg.POS_SRC_SPEED src) = 0 ∧ ((t.stake n).edges src).speed = 0 ∧ ((t.stake n).edges src).stamps = []) ∧
  (∀ (s : State) (n src : Nat), s.present n = true → src = 1 ∨ src = 2 → (s.stake n).posLive src = true →
    (s.stake n).fld (Reg.POS_SRC_STATUS_QUAL src) = 4 → ((s.stake n).edges src).edgeAt ≠ some (s.stake n).now →
    let k := s.stake n
    let el := k.now - (k.edges src).lastAt
    el ≠ 0 → el % 256 = 0 → (k.edges src).decaying = true ∨ k.stepSpeed src 1 el < (k.edges src).speed.natAbs →
    let v : Int := if k.flag (Reg.POS_SRC_STATUS_DIR src) then -(k.stepSpeed src 1 el : Int) else k.stepSpeed src 1 el
    ∃ t, exec (.decayMeasurement n src) s = .next t ∧ s.elsewhere t n ∧ ((t.stake n).edges src).speed = v ∧
      ((t.stake n).edges src).decaying = true ∧ (t.stake n).get48 (Reg.POS_SRC_SPEED src) = w48 v)

/-- R116 to R118: a serial frame is requested at its grid tick, or counted as skipped while one runs; a missing start bit is a bad frame;
a frame with a good check shows its payload and is measured. -/
def Obligations.SerialFrames : Prop :=
  (∀ (s : State) (n : Nat), s.present n = true → (s.stake n).posEn 3 = true →
    (s.stake n).ang.tick.toNat % max 1 ((s.stake n).fld Reg.POS_SSP_PERIOD_PERIOD) = 0 →
    let k := s.stake n
    ∃ t, exec (.sspRequest n) s = .next t ∧ s.elsewhere t n ∧
      if k.pos.sspFrame.isSome || k.now < k.pos.sspFree then
        (t.stake n).rd Reg.POS_SSP_ERR_CNT = satAdd 16 (k.rd Reg.POS_SSP_ERR_CNT) 1 ∧ (t.stake n).pos = k.pos ∧
          k.regsKept (t.stake n) [Reg.POS_SSP_ERR_CNT]
      else t.stake n = { k with pos := { k.pos with sspFrame := some k.ang.tick } }) ∧
  (∀ (s : State) (n : Nat) (r : Word48) (wave : Wave), s.present n = true → (s.stake n).pos.sspFrame = some r →
    (s.stake n).sspStart r wave = none → (s.stake n).fld Reg.POS_SSP_TIMING_START_TO * (2 * (s.stake n).fld Reg.POS_SSP_CFG_HALF_DIV) ≤ ((s.stake n).ang.tick - r).toNat →
    ∃ t, exec (.sspStartTimeout n wave) s = .next t ∧ s.elsewhere t n ∧ (t.stake n).pos.sspFrame = none ∧
      (t.stake n).pos.sspBad = min ((s.stake n).pos.sspBad + 1) 255 ∧
      (t.stake n).rd Reg.POS_SSP_ERR_CNT = satAdd 16 ((s.stake n).rd Reg.POS_SSP_ERR_CNT) 1) ∧
  (∀ (s : State) (n : Nat) (r : Word48) (pay crc : List Bool) (err : Bool) (wave : Wave), s.present n = true →
    (s.stake n).pos.sspFrame = some r →
    let k := s.stake n
    let cw := if k.flag Reg.POS_SSP_CFG_CRC8 then 8 else 6
    let sum := sspCrc cw (k.fld Reg.POS_SSP_CRC_POLY) (pay ++ [err]) (k.fld Reg.POS_SSP_CRC_INIT % 2 ^ cw)
    pay.length = k.fld Reg.POS_SSP_CFG_PAY_BITS → crc.length = cw → (err != k.flag Reg.POS_SSP_CFG_ERR_POL) = true →
    bitsNat crc = (if k.flag Reg.POS_SSP_CRC_INV then 2 ^ cw - 1 - sum else sum) →
    k.sspBits r wave = some (pay ++ [err] ++ crc) →
    ∃ t, exec (.sspFrameReceived n wave) s = .next t ∧ s.elsewhere t n ∧ (t.stake n).pos.sspFrame = none ∧
      (t.stake n).get48 Reg.POS_SSP_RAW = BitVec.ofNat 48 (bitsNat pay) ∧ (t.stake n).pos.sspBad = 0 ∧
      (t.stake n).rd Reg.POS_SSP_ERR_CNT = k.rd Reg.POS_SSP_ERR_CNT)

/-- R125 to R128: a COMPARE action starts a pulse on its output for `WIDTH` ticks, four ticks or more after the last one there, both edges
on the delay-line cell of their fine step (R196), and the pulse ends at its trailing edge unless a
dispatched COMPARE follows within four ticks; the emulated encoder copies the input balls under `EMU_MODE` 1, and under `EMU_MODE` 2
steps by one count toward the clock's angle. -/
def Obligations.PositionOutputs : Prop :=
  (∀ (s : State) (n e : Nat) (a : Act), s.present n = true → (s.stake n).due e 4 a → (s.stake n).flag Reg.POS_CTRL_CMP_EN = true →
    a.arg < 8 → (s.stake n).flag (Reg.POS_CMP_EN a.arg) = true →
    let k := s.stake n
    let o := k.fld (Reg.POS_CMP_OUT a.arg)
    ∀ c, k.pos.cmp[o]? = some c → c.active = false →
    (c.ran = true → laterInstant c.endAt a.at_ = true ∨ 128 ≤ a.at_.minus c.endAt) →
    ∃ t, exec (.actionCompare n e) s = .next t ∧ s.elsewhere t n ∧ (t.stake n).pos.cmp[o]? =
        some ⟨true, a.at_, ⟨a.at_.tick + BitVec.ofNat 48 (k.fld (Reg.POS_CMP_WIDTH a.arg)), a.at_.fine⟩, true,
          (cellOf a.at_.fine k.cellsNow, cellOf a.at_.fine k.cellsNow)⟩ ∧
      (∀ p, p ≠ o → (t.stake n).pos.cmp[p]? = k.pos.cmp[p]?) ∧
      t.stake n = { k with pos := (t.stake n).pos, ang := { k.ang with acts := k.ang.acts.erase a } }) ∧
  (∀ (s : State) (n o : Nat) (c : CmpOut), s.present n = true → (s.stake n).pos.cmp[o]? = some c → c.active = true →
    reached (s.stake n).ang.tick (if c.endAt.fine = 0 then c.endAt.tick else c.endAt.tick + 1) = true →
    (s.stake n).compareSoon o c.endAt = false →
    ∃ t, exec (.comparePulseEnd n o) s = .next t ∧ s.elsewhere t n ∧ (t.stake n).pos.cmp[o]? = some { c with active := false } ∧
      (∀ p, p ≠ o → (t.stake n).pos.cmp[p]? = (s.stake n).pos.cmp[p]?) ∧ t.stake n = { s.stake n with pos := (t.stake n).pos }) ∧
  (∀ (s : State) (n : Nat) (a b z : Bool), s.present n = true → (s.stake n).fld Reg.POS_CTRL_EMU_MODE = 1 →
    ∃ t, exec (.emuPassThroughEdge n a b z) s = .next t ∧ s.elsewhere t n ∧ t.stake n = { s.stake n with pos := { (s.stake n).pos with
      inA := a, inB := b, inZ := z, emu := { (s.stake n).pos.emu with a := a, b := b, z := z } } }) ∧
  (∀ (s : State) (n : Nat), s.present n = true → (s.stake n).fld Reg.POS_CTRL_EMU_MODE = 2 →
    ((s.stake n).clock ((s.stake n).fld Reg.POS_EMU_CFG_SRC)).valid = true →
    let k := s.stake n
    let up := (k.emuTarget + k.emuCounts - k.pos.emu.count) % k.emuCounts
    up ≠ 0 → k.pos.emu.lastStep + k.fld Reg.POS_EMU_CFG_MIN_SP ≤ k.now →
    let c := (k.pos.emu.count + (if 2 * up ≤ k.emuCounts then 1 else k.emuCounts - 1)) % k.emuCounts
    ∃ t, exec (.emuStep n) s = .next t ∧ s.elsewhere t n ∧ (t.stake n).pos.emu.count = c ∧ (t.stake n).pos.emu.lastStep = k.now ∧
      ((t.stake n).pos.emu.a, (t.stake n).pos.emu.b) = emuLevels c ∧ k.regsKept (t.stake n) [Reg.POS_EMU_LAG_CNT] ∧
      t.stake n = { k with pos := (t.stake n).pos, regs := (t.stake n).regs })

/-- R98, R101: a write of `POS_CTRL` that the pole pairs admit enables and disables the sources it names; a source just enabled is not
faulted, and one just disabled is neither faulted nor valid. -/
def Obligations.SourcesEnabled : Prop :=
  ∀ (s : State) (n : Nat) (src : Src) (w : Reg32) (levels : Nat), s.admits src n Reg.POS_CTRL w → s.locked = false →
    let k := s.stake n
    let old := k.rd Reg.POS_CTRL
    (Reg.POS_CTRL_POLE_PAIRS.of old = Reg.POS_CTRL_POLE_PAIRS.of w ∨ (old ||| w) &&& 0xF = 0) →
    (w &&& ~~~ old &&& 0xF ≠ 0 →
      ∃ t, exec (.posSourceEnable n src w levels) s = .next t ∧ s.elsewhere t n ∧ ∀ i, i < 4 → (t.stake n).posEn i = w.getLsbD i ∧
        (w.getLsbD i = true → old.getLsbD i = false → (t.stake n).flag (Reg.POS_SRC_STATUS_FAULTED i) = false)) ∧
    (old &&& ~~~ w &&& 0xF ≠ 0 →
      ∃ t, exec (.posSourceDisable n src w) s = .next t ∧ s.elsewhere t n ∧ ∀ i, i < 4 → (t.stake n).posEn i = w.getLsbD i ∧
        (w.getLsbD i = false → old.getLsbD i = true →
          (t.stake n).flag (Reg.POS_SRC_STATUS_FAULTED i) = false ∧ (t.stake n).flag (Reg.POS_SRC_STATUS_VALID i) = false))

/-! Register accesses, continued. -/

/-- R16: a read from the window of a stake that is not present, or is lost, returns all-ones; a write to it is discarded, whichever
command carries it. -/
def Obligations.AbsentStakeAccess : Prop :=
  ∀ (s : State) (addr : Nat), addr < 0x800000 → s.alive (addr / 0x100000) = false →
    exec (.absentStakeAccess false addr) s = .next { s with pkg := { s.pkg with
      hostReads := s.pkg.hostReads ++ [(addr, BitVec.allOnes 32)] } } ∧
    exec (.absentStakeAccess true addr) s = .next s ∧
    (s.readAddr addr).1 = BitVec.allOnes 32 ∧ ∀ src w, exec (.setupRegisterWrite src addr w) s = .next s

/-- R36: a read from the reserved package range returns all-ones, a write to it is discarded, and both post `HIF_BAD_ACCESS`. The last
clause is the one sentence of R38 on the upper half of BAR2: a write there is discarded and posts `HIF_BAD_ACCESS`. -/
def Obligations.ReservedAccess : Prop :=
  (∀ (s : State) (write : Bool) (addr : Nat), 0x860000 ≤ addr → addr < 0x1000000 →
    ∃ t, exec (.reservedPackageAccess write addr) s = .next t ∧
      t.pkg.hostReads = (if write then s.pkg.hostReads else s.pkg.hostReads ++ [(addr, BitVec.allOnes 32)]) ∧
      s.posted t .hifBadAccess 0 [addr] ∧ s.stakesKept t ∧
      s.pkg.regsKept t.pkg [Reg.HIF_BAD_ACCESS_CNT, Reg.HIF_EVT_LOST_CNT] ∧ s.pkg.restKept t.pkg) ∧
  (∀ (s : State) (addr : Nat) (w : Reg32), 0x800 ≤ addr → addr < 0x1000 →
    ∃ t, exec (.bar2ReservedWrite addr w) s = .next t ∧ t.pkg.hostReads = s.pkg.hostReads ∧
      s.posted t .hifBadAccess 0 [addr] ∧ s.stakesKept t ∧
      s.pkg.regsKept t.pkg [Reg.HIF_BAD_ACCESS_CNT, Reg.HIF_EVT_LOST_CNT] ∧ s.pkg.restKept t.pkg)

/-- R69: a saturating counter whose `SAT` is cleared in a tick in which it is incremented once reads 1 afterwards, whatever it held: the
clear acts first. R8, R9: a bit written with 1 by a W1C write is 0 afterwards, and stays set where the device sets it in the same tick. -/
def Obligations.ClearsLoseNothing : Prop :=
  (∀ (s : State) (n off c : Nat) (r : RegD), s.alive n = true → off < 0x100000 → regAt off = some r → counterWidth r = some c →
    s.locked = false →
    ∃ t, exec (.satClear (n * 0x100000 + off) 1) s = .next t ∧
      (s.crossedAt .host (n * 0x100000 + off) 1 [0x80000000]).elsewhere t n ∧ (t.stake n).rd off = 1) ∧
  (∀ (s : State) (off c : Nat) (r : RegD), s.alive 1 = true → 0x800000 ≤ off → off < 0x860000 → regAt off = some r →
    counterWidth r = some c → s.locked = false →
    ∃ t, exec (.satClear off 1) s = .next t ∧ (s.crossedAt .host off 1 [0x80000000]).stakesKept t ∧ t.pkg.rd off = 1 ∧
      s.pkg.regsKept t.pkg [off] ∧ s.pkg.restKept t.pkg) ∧
  (∀ (s : State) (n off : Nat) (r : RegD) (w set : Reg32), s.alive n = true → off < 0x100000 → off % 4 = 0 → regAt off = some r →
    (fbOnly off && n ≠ 1) = false → clears off w = true → (off = Reg.PLT_MODE → w.getLsbD 0 = false ∧ w.getLsbD 1 = false) →
    ∃ t, exec (.w1cClear (n * 0x100000 + off) w set) s = .next t ∧
      (s.crossedAt .host (n * 0x100000 + off) 1 [w.toNat]).elsewhere t n ∧ t.stake n = { s.stake n with regs := (t.stake n).regs } ∧
      (s.stake n).regsKept (t.stake n) [off, Reg.SNS_STATUS, Reg.FLD_STATUS] ∧
      (off ≠ Reg.SNS_STATUS → off ≠ Reg.FLD_STATUS →
        (t.stake n).rd off = r.clear ((s.stake n).rd off) w ||| (set &&& r.mask .w1c)) ∧
      ∀ i, (r.mask .w1c).getLsbD i = true → w.getLsbD i = true → ((t.stake n).rd off).getLsbD i = set.getLsbD i) ∧
  (∀ (s : State) (off : Nat) (r : RegD) (w set : Reg32), 0x800000 ≤ off → off < 0x860000 → off % 4 = 0 → regAt off = some r →
    canSlot off = none → s.alive 1 = true → clears off w = true →
    ∃ t, exec (.w1cClear off w set) s = .next t ∧ (s.crossedAt .host off 1 [w.toNat]).stakesKept t ∧
      s.pkg.regsKept t.pkg [off] ∧ s.pkg.restKept t.pkg ∧ t.pkg.rd off = r.clear (s.pkg.rd off) w ||| (set &&& r.mask .w1c) ∧
      ∀ i, (r.mask .w1c).getLsbD i = true → w.getLsbD i = true → (t.pkg.rd off).getLsbD i = set.getLsbD i)

/-- R7: reading a low word answers with it and latches its group: a later read of a word of the group gives what it was at the first
read, whatever the registers hold by then; writing a high word commits the slot with the low word last written. -/
def Obligations.SlotsAreWhole : Prop :=
  (∀ (s : State) (n off : Nat), s.ready = true → s.alive n = true → n < 8 → off < 0x100000 → lowGroup off ≠ [] →
    (fbOnly off && n ≠ 1) = false → (s.stake n).snap.find? (fun e => e.1 = off) = none →
    ∃ t, exec (.lowWordReadLatch (n * 0x100000 + off)) s = .next t ∧ t.part = s.part ∧ t.pending = s.pending ∧
      (∀ m, m ≠ n → t.stake m = (s.crossedAt .host (n * 0x100000 + off) 0 []).stake m) ∧ t.stake n = { s.stake n with snap := (t.stake n).snap } ∧
      t.pkg = { s.pkg with hostReads := s.pkg.hostReads ++ [(n * 0x100000 + off, (s.stake n).word off)] } ∧
      ∀ (u : State) (o : Nat), u.alive n = true → (u.stake n).snap = (t.stake n).snap → o ∈ lowGroup off →
        (u.readStake n o).1 = (s.stake n).word o) ∧
  (∀ (s : State) (off : Nat), s.ready = true → 0x800000 ≤ off → lowGroupPkg off ≠ [] →
    s.pkg.snap.find? (fun e => e.1 = off) = none →
    ∃ t, exec (.lowWordReadLatch off) s = .next t ∧ s.stakesKept t ∧
      t.pkg.hostReads = s.pkg.hostReads ++ [(off, s.pkgWord off)] ∧ t.pkg.regs = s.pkg.regs ∧
      ∀ (u : State) (o : Nat), u.pkg.snap = t.pkg.snap → o ∈ lowGroupPkg off → (u.readPkg o).1 = s.pkgWord o) ∧
  (∀ (s : State) (src : Src) (n off lo : Nat) (w : Reg32), s.takesFrom src n = true → n < 8 → off < 0x100000 → off % 8 = 4 →
    slotAt off = some lo → (s.locked && closedTo src off) = false → (fbOnly off && n ≠ 1) = false →
    let k := s.stake n
    let v := k.slotValue lo w
    (k.shadowBad lo v && k.flag Reg.MOD_SET_CTRL_IS_OPEN) = false → k.fbPairBad lo v = false →
    ∃ t, exec (.highWordWriteCommit src (n * 0x100000 + off) w) s = .next t ∧
      (s.crossedAt src (n * 0x100000 + off) 1 [w.toNat]).elsewhere t n ∧ t.stake n = k.slotStore lo v ∧
      ∀ c, c < 16 → lo = Reg.SNS_CH_GAIN c ∨ lo = Reg.SNS_CH_OFFSET c → (t.stake n).get48 lo = v)

/-- R8, R15, R377, R37: a set-up write within range is stored (here of a supply, clock or thermal register); one out of range is
discarded and posts `HIF_RANGE`; one the set-up lock closes is discarded and counted; a host's access to a stake
other than 0 leaves the anchor as a TUNE cell; a register cell writes as the write it carries does, and a read cell is answered through the
cell that returns. -/
def Obligations.RegisterWrites : Prop :=
  (∀ (s : State) (src : Src) (n off : Nat) (r : RegD) (w : Reg32), n < 8 → off < 0x1000 → off % 4 = 0 → s.admits src n off w →
    regAt off = some r → (s.stake n).crossBad off w = false →
    (∃ t, exec (.setupRegisterWrite src (n * 0x100000 + off) w) s = .next t ∧
      (s.crossed src n 1 0 [n * 0x100000 + off, w.toNat]).elsewhere t n ∧
      (t.stake n).rd off = r.merge ((s.stake n).rd off) (liveBits off w) ∧
      (s.stake n).regsKept (t.stake n) [off, Reg.SNS_STATUS, Reg.FLD_STATUS] ∧ t.stake n = { s.stake n with regs := (t.stake n).regs }) ∧
    exec (.regWriteCell n src off w none) s = exec (.setupRegisterWrite src (n * 0x100000 + off) w) s) ∧
  (∀ (s : State) (n off : Nat) (r : RegD) (w : Reg32), n < 8 → off < 0x1000 → off % 4 = 0 → s.alive n = true →
    (s.locked && closedTo .host off) = false → regAt off = some r → r.inRange (liveBits off w) = false →
    ∃ t, exec (.setupRegisterWrite .host (n * 0x100000 + off) w) s = .next t ∧
      (s.crossed .host n 1 0 [n * 0x100000 + off, w.toNat]).stakesKept t ∧
      s.posted t .hifRange 0 [n * 0x100000 + off, w.toNat] ∧ s.pkg.regsKept t.pkg [Reg.HIF_EVT_LOST_CNT] ∧ s.pkg.restKept t.pkg) ∧
  (∀ (s : State) (n off : Nat) (r : RegD) (w : Reg32), n < 8 → off < 0x1000 → off % 4 = 0 → s.alive n = true → s.locked = true →
    closedTo .host off = true → regAt off = some r → clears off w = false →
    ∃ t, exec (.setupRegisterWrite .host (n * 0x100000 + off) w) s = .next t ∧
      (s.crossed .host n 1 0 [n * 0x100000 + off, w.toNat]).stakesKept t ∧
      t.pkg.rd Reg.HIF_LOCK_DROP_CNT = satAdd 16 (s.pkg.rd Reg.HIF_LOCK_DROP_CNT) 1 ∧
      s.pkg.regsKept t.pkg [Reg.HIF_LOCK_DROP_CNT, Reg.HIF_EVT_LOST_CNT] ∧ s.pkg.restKept t.pkg) ∧
  (∀ (s : State) (n tag off : Nat), n < 8 → off < 0x100000 → s.alive n = true → s.ready = true →
    ∃ t, exec (.regReadRequestCell n tag off) s = .next t ∧
      (∀ m, m ≠ n → t.stake m = (s.crossed .host n 0 tag [n * 0x100000 + off]).stake m) ∧
      t.pkg = { s.pkg with reads := s.pkg.reads ++ [(tag, n * 0x100000 + off, (s.readStake n off).1)] }) ∧
  (∀ (s : State) (tag addr : Nat) (v : Reg32) (rest : List (Nat × Nat × BitVec 32)), s.pkg.reads = (tag, addr, v) :: rest →
    exec (.regReadReturnCell tag) s = .next { s with pkg := { s.pkg with reads := rest, hostReads := s.pkg.hostReads ++ [(addr, v)] } })

/-! The wale. -/

/-- R21 to R23: a cell slot of a direction in service sends the oldest cell of the class chosen, spends a credit of it and keeps it for
replay under the next `SEQ`; what has been received is acknowledged; a cell that fails its check is counted and sets its sender back to its
last `ACK`; a reserved `KIND` counts as a CRC error. -/
def Obligations.CellSlots : Prop :=
  (∀ (s : State) (n cls : Nat) (d : Dir) (c : Cell) (rest : List Cell), s.present n = true → (s.stake n).dirUp d = true →
    (s.stake n).stopped = false → ((s.stake n).dir d).retrainFrom = none →
    let w := ((s.stake n).dir d).window (s.stake n).now
    w.toReplay = [] → w.choose (s.stake n).walBudget = some cls → nth [] w.queues cls = c :: rest →
    ∃ t, exec (.waleCellSlot n d none) s = .next t ∧ s.elsewhere t n ∧ t.stake n = { s.stake n with wal := (t.stake n).wal } ∧
      (t.stake n).dir (opp d) = (s.stake n).dir (opp d) ∧
      let v := (t.stake n).dir d
      v.queues = updAt w.queues cls (fun _ => rest) ∧ v.credits = updAt w.credits cls (· - 1) ∧ v.replay = w.replay ++ [(w.seq, c)] ∧
      v.seq = (w.seq + 1) % 1024 ∧ ∃ cc cn, v.wire = some ⟨w.seq, w.ack, cc, cn, some c⟩) ∧
  (∀ (s : State) (n : Nat) (d : Dir) (x : Option LinkIn), s.present n = true →
    (s.stake n).dirUp d = false ∨ (s.stake n).stopped = true →
    ∃ t, exec (.waleCellSlot n d x) s = .next t ∧ s.elsewhere t n ∧ ((t.stake n).dir d).wire = none ∧
      ((t.stake n).dir d).queues = ((s.stake n).dir d).queues) ∧
  (∀ (s : State) (n : Nat) (d : Dir) (x : LinkIn) (c : Cell), s.present n = true → (s.stake n).dirUp d = true →
    (s.stake n).stopped = false → x.cell = some c → c.dest = (s.stake n).id →
    ∃ t, exec (.waleCellSlot n d (some x)) s = .next t ∧ s.elsewhere t n ∧ ((t.stake n).dir d).ack = x.seq % 1024) ∧
  (∀ (s : State) (n : Nat) (d : Dir), s.present n = true → s.present (s.nbr n d) = true → s.nbr n d ≠ n →
    ∃ t, exec (.waleCellCrcFail n d) s = .next t ∧ t.pkg = s.pkg ∧
      (t.stake n).rd Reg.WAL_CRC_ERR = satAdd 31 ((s.stake n).rd Reg.WAL_CRC_ERR) 1 ∧
      (s.stake n).regsKept (t.stake n) [Reg.WAL_CRC_ERR] ∧
      ((t.stake (s.nbr n d)).dir (opp d)).toReplay = ((s.stake (s.nbr n d)).dir (opp d)).replay ∧
      ∀ m, m ≠ n → m ≠ s.nbr n d → t.stake m = s.stake m) ∧
  (∀ (s : State) (n : Nat) (d : Dir) (x : LinkIn) (c : Cell), s.present n = true → (s.stake n).dirUp d = true →
    (s.stake n).stopped = false → x.cell = some c → 12 ≤ c.kind →
    ∃ t, exec (.waleCellSlot n d (some x)) s = .next t ∧ s.elsewhere t n ∧
      (t.stake n).rd Reg.WAL_CRC_ERR = satAdd 31 ((s.stake n).rd Reg.WAL_CRC_ERR) 1 ∧
      ((t.stake n).dir (opp d)) = ((s.stake n).dir (opp d))) ∧
  (∀ (s : State) (n kind : Nat), s.present n = true → 12 ≤ kind → kind ≤ 15 →
    ∃ t, exec (.waleReservedKind n kind) s = .next t ∧ s.elsewhere t n ∧
      (t.stake n).rd Reg.WAL_CRC_ERR = satAdd 31 ((s.stake n).rd Reg.WAL_CRC_ERR) 1 ∧
      t.stake n = { s.stake n with regs := (t.stake n).regs } ∧ (s.stake n).regsKept (t.stake n) [Reg.WAL_CRC_ERR])

/-- R25, R27, R28, R334: a burst of CRC errors, or a failing lane with spares left, calls for a retrain of the direction; the retrain
starts, is counted and flagged at both ends, and ends; a lane beyond the spares takes the link down at both ends; a measurement shows the
lane of the least margin. -/
def Obligations.RetrainsAndLanes : Prop :=
  (∀ (s : State) (n : Nat) (d : Dir), s.present n = true → s.present (s.nbr n d) = true → s.nbr n d ≠ n →
    (s.stake n).flag Reg.WAL_CTRL_CRC_RETRAIN_EN = true → (s.stake n).fld Reg.WAL_CTRL_CRC_BURST ≠ 0 →
    (s.stake n).fld Reg.WAL_CTRL_CRC_BURST ≤ (((s.stake n).dir d).crcAt.filter fun t => (s.stake n).now < t + 40000).length →
    ∃ t, exec (.waleCrcBurst n d) s = .next t ∧ t.pkg = s.pkg ∧ ((t.stake (s.nbr n d)).dir (opp d)).retrainWant = true ∧
      ((t.stake n).dir d).crcAt = [] ∧ ∀ m, m ≠ n → m ≠ s.nbr n d → t.stake m = s.stake m) ∧
  (∀ (s : State) (n : Nat) (d : Dir), s.present n = true → s.present (s.nbr n d) = true → s.nbr n d ≠ n →
    ((s.stake n).dir d).retrainWant = true → ((s.stake n).dir d).retrainFrom = none → (s.stake n).dirUp d = true →
    s.retrainFree n d = true → s.pairLets n d = true →
    ∃ t, exec (.retrainStart n d) s = .next t ∧ t.pkg = s.pkg ∧ ((t.stake n).dir d).retrainFrom = some (s.stake n).now ∧
      (t.stake n).flag (retrainField d) = true ∧ (t.stake (s.nbr n d)).flag (retrainField (opp d)) = true ∧
      (∀ m ∈ [n, s.nbr n d], (t.stake m).rd Reg.WAL_RETRAIN_CNT = satAdd 16 ((s.stake m).rd Reg.WAL_RETRAIN_CNT) 1 ∧
        (s.stake m).regsKept (t.stake m) [Reg.WAL_STATUS, Reg.WAL_RETRAIN_CNT])) ∧
  (∀ (s : State) (n : Nat) (d : Dir), s.present n = true → s.present (s.nbr n d) = true → s.nbr n d ≠ n →
    ((s.stake n).dir d).retrainFrom ≠ none →
    ∃ t, exec (.retrainDone n d) s = .next t ∧ t.pkg = s.pkg ∧ ((t.stake n).dir d).retrainFrom = none ∧
      ((t.stake n).dir d).queues = ((s.stake n).dir d).queues ∧
      (t.stake n).flag (retrainField d) = false ∧ (t.stake (s.nbr n d)).flag (retrainField (opp d)) = false ∧
      let lanes := ((s.stake n).dir d).mapOut
      (lanes ≠ [] → (s.stake (s.nbr n d)).posted (t.stake (s.nbr n d)) .walSplice 0 ((match d with | .asc => 1 | .dsc => 0) :: lanes)) ∧
      ∀ i ∈ lanes, i < 18 → ((t.stake n).fld (laneFailed (txReg d))).testBit i = true ∧
        ((t.stake (s.nbr n d)).fld (laneFailed (rxReg (opp d)))).testBit i = true) ∧
  (∀ (s : State) (n lane : Nat) (d : Dir), s.present n = true → s.present (s.nbr n d) = true → s.nbr n d ≠ n → lane < 18 →
    (s.stake n).dirUp d = true →
    let out := ((s.stake n).dir d).mapOut.foldl (fun m i => m ||| 2 ^ (i % 18)) ((s.stake n).fld (laneFailed (txReg d)))
    out.testBit lane = false →
    ∃ t, exec (.waleLaneFail n d lane) s = .next t ∧ s.pkg.regsKept t.pkg [Reg.HIF_PKG_ALIVE] ∧ s.pkg.restKept t.pkg ∧
      if count18 out < 2 then s.elsewhere t n ∧ ((t.stake n).dir d).retrainWant = true ∧ lane ∈ ((t.stake n).dir d).mapOut ∧
        (t.stake n).regs = (s.stake n).regs
      else (t.stake n).dirUp d = false ∧ (t.stake (s.nbr n d)).dirUp (opp d) = false ∧
        ((t.stake n).fld (laneFailed (txReg d))).testBit lane = true ∧
        ((t.stake (s.nbr n d)).fld (laneFailed (rxReg (opp d)))).testBit lane = true ∧
        (s.stake n).posted (t.stake n) .walLinkDown 0 [match d with | .asc => 0 | .dsc => 1]) ∧
  (∀ (s : State) (n : Nat) (d : Dir) (margins : List Nat), s.present n = true → (s.stake n).stopped = false →
    let live := healthy ((s.stake n).fld (laneFailed (rxReg d)))
    live ≠ [] →
    ∃ t, exec (.waleMarginMeasure n d margins) s = .next t ∧ s.elsewhere t n ∧ ∃ i ∈ live,
      (t.stake n).worstMargin d = BitVec.ofNat 32 (i * 256 + min 255 (nth 0 margins i)) ∧
      ∀ j ∈ live, min 255 (nth 0 margins i) ≤ min 255 (nth 0 margins j))

/-- R26, R30 to R32, R41, R302, R363, R369: heartbeats and alignment cells leave the ring master for every other stake, each arrival is
noted; a stake without heartbeats follows stake 1; a stake that reaches no anchor asks for an F3 reaction; a lost stake is out of
`HIF_PKG_ALIVE`; completions, events and fallback commands arrive. -/
def Obligations.RingMasterAndLosses : Prop :=
  (∀ (s : State) (n m : Nat), s.alive n = true → (n = 0 ∧ (s.stake n).wal.master = 0) ∨ (n = 1 ∧ (s.stake n).wal.master = 1) →
    (s.stake n).stopped = false → (s.stake n).vote.halted = false → (∀ d, ((s.stake n).dir d).queues.length = 4) →
    m < s.part.stakes → m ≠ n → s.alive m = true →
    ∃ t, exec (.heartbeatSend n) s = .next t ∧ s.elsewhere t n ∧ t.stake n = { s.stake n with wal := (t.stake n).wal } ∧
      ∃ d, ∃ c ∈ nth [] ((t.stake n).dir d).queues 0, c.kind = 10 ∧ c.dest = m ∧ c.src = (s.stake n).id) ∧
  (∀ (s : State) (m : Nat), s.present 0 = true → (s.stake 0).stopped = false → (∀ d, ((s.stake 0).dir d).queues.length = 4) →
    m < s.part.stakes → m ≠ 0 → s.alive m = true → s.alignDue = true →
    let on := s.timeState = 2 ∨ s.timeState = 3
    let e := s.nextEpoch ⟨(s.stake 0).ang.tick, 0⟩
    ∃ t, exec .alignmentCellSend s = .next t ∧ (∀ i, i ≠ 0 → t.stake i = s.stake i) ∧
      t.pkg = { s.pkg with net := { s.pkg.net with alignAt := some s.time } } ∧ (¬ on → t.stake 0 = { s.stake 0 with wal := (t.stake 0).wal }) ∧
      ∃ d, ∃ c ∈ nth [] ((t.stake 0).dir d).queues 0, c.kind = 11 ∧ c.dest = m ∧
        c.payload = (s.stake 0).ang.tick.toNat :: (if on then [e.tick.toNat, e.fine % 32 + 256] else [0, 0])) ∧
  (∀ (s : State) (n : Nat), s.present n = true →
    ∃ t, exec (.heartbeatReceived n) s = .next t ∧ s.elsewhere t n ∧
      t.stake n = { s.stake n with wal := { (s.stake n).wal with hbLast := (s.stake n).now } }) ∧
  (∀ (s : State) (n : Nat), s.present n = true → n ≠ 0 → (s.stake n).wal.hbLast + 80000 ≤ (s.stake n).now →
    (s.stake n).wal.anchorLost = false → (s.stake n).stopped = false →
    ∃ t, exec (.anchorLost n) s = .next t ∧ s.elsewhere t n ∧ (t.stake n).wal.anchorLost = true ∧
      (t.stake n).fld Reg.WAL_STATUS_STAKES_UP = (s.stake n).fld Reg.WAL_STATUS_STAKES_UP &&& 254 ∧
      (n = 1 → (t.stake n).wal.master = 1 ∧ (t.stake n).flag Reg.WAL_STATUS_MASTER = true) ∧
      (s.stake n).regsKept (t.stake n) [Reg.WAL_STATUS]) ∧
  (∀ (s : State) (n : Nat), s.present n = true → n ≠ 0 → (s.stake n).wal.master ≠ 1 →
    (s.stake n).heartbeatGone = true ∨ (s.stake n).wal.anchorLost = true → s.reaches n 1 = true → (s.stake n).stopped = false →
    ∃ t, exec (.ringMasterHeartbeatLoss n) s = .next t ∧ s.elsewhere t n ∧ (t.stake n).wal.master = 1 ∧
      (t.stake n).wal.hbLast = (s.stake n).now ∧ (s.stake n).regsKept (t.stake n) [Reg.WAL_STATUS]) ∧
  (∀ (s : State) (n : Nat), 1 < n → s.present n = true → s.reaches n 0 = false → s.reaches n 1 = false →
    (s.stake n).wal.cutOff = false → (s.stake n).stopped = false →
    ∃ t, exec (.anchorsUnreachable n) s = .next t ∧ s.elsewhere t n ∧ (t.stake n).wal.cutOff = true ∧
      (∃ q, (t.stake n).prt.f3 = (s.stake n).prt.f3 ++ [q]) ∧ (s.stake n).regsKept (t.stake n) [Reg.WAL_STATUS] ∧
      (t.stake n).fld Reg.WAL_STATUS_STAKES_UP = (s.stake n).fld Reg.WAL_STATUS_STAKES_UP &&& 252) ∧
  (∀ (s : State) (n : Nat), s.alive n = true → s.present 0 = true →
    ∃ t, exec (.stakeLost n) s = .next t ∧ t.alive n = false ∧
      (n ≠ 0 → ∃ r ∈ (t.stake 0).out, r.ev = .walStakeLost ∧ r.cls = 0 ∧ r.vals = [n])) ∧
  (∀ (s : State) (n : Nat) (c : Completion) (rest : List Completion), s.alive n = true → s.pkg.boot.phase ≠ .distribution →
    (s.stake n).done = c :: rest → s.underWay c.ring c.cid →
    ∃ t, exec (.completionCell n) s = .next t ∧ (t.stake n).done = rest ∧ s.completes t c.cid c.op c.status) ∧
  (∀ (s : State) (n : Nat) (r : EvRec) (rest : List EvRec), s.alive n = true → (s.stake n).out = r :: rest → s.pkg.evq.length < 512 →
    ∃ t, exec (.stakeEventRecord n none) s = .next t ∧ (t.stake n).out = rest ∧ (∀ m, m ≠ n → t.stake m = s.stake m) ∧
      t.pkg.eseq = (s.pkg.eseq + 1) % 65536 ∧ s.pkg.regsKept t.pkg [] ∧
      ∃ i, t.pkg.evq = s.pkg.evq ++ [(⟨r, s.pkg.eseq, i⟩ : QEvent)]) ∧
  (∀ (s : State) (n : Nat) (sent epoch : Word48) (lat fine : Nat), s.present n = true → n ≠ 0 → (s.stake n).stopped = false →
    ∃ t, exec (.tickAlignmentCell n sent lat epoch false fine) s = .next t ∧ s.elsewhere t n ∧
      if (s.stake n).ang.loaded = false then (t.stake n).ang.tick = sent + w48 lat ∧ (t.stake n).ang.loaded = true
      else (t.stake n).ang.tick = (s.stake n).ang.tick ∧ ((s.stake n).ang.tick ≠ sent + w48 lat →
        (t.stake n).flag Reg.WAL_STATUS_TICK_SKEW = true ∧ (s.stake n).posted (t.stake n) .walTickSkew
          (if (s.stake n).pairSt = 0 then 0 else 3) [(sent + w48 lat).toNat, (s.stake n).ang.tick.toNat])) ∧
  (∀ (s : State) (n : Nat) (sent epoch : Word48) (lat fine : Nat), s.present n = true → n ≠ 0 → (s.stake n).stopped = false →
    (s.stake n).ang.loaded = true → (s.stake n).ang.tick = sent + w48 lat → (s.stake n).inForceB Reg.MOD_EPOCH_CTRL_EN = true →
    (s.stake n).fld Reg.MOD_STATUS_EPOCH_STATE ≠ 0 →
    ∃ t, exec (.tickAlignmentCell n sent lat epoch true fine) s = .next t ∧ s.elsewhere t n ∧ (t.stake n).modu.epochAt = (s.stake n).now) ∧
  (∀ (s : State) (n : Nat) (rpm16 : Int), s.present n = true → (s.stake n).flag Reg.PLT_AXIS_STATE_FALLBACK = true →
    (s.stake n).stopped = false →
    (∃ t, exec (.fallbackCommandReceived n false rpm16) s = .next t ∧ s.elsewhere t n ∧
      (t.stake n).fe.fb = some { kind := 0 } ∧ (t.stake n).prt.freshAt = (s.stake n).now ∧
      (t.stake n).prt.active = (s.stake n).prt.active ∧ (t.stake n).regs = (s.stake n).regs) ∧
    ∃ t, exec (.fallbackCommandReceived n true rpm16) s = .next t ∧ s.elsewhere t n ∧
      let w := sat48 (divNear (rpm16 * (s.stake n).fld Reg.POS_CTRL_POLE_PAIRS * 256 * 17592186044416)
        (960 * (s.stake n).inForce Reg.FLD_BASE_F_F_BASE))
      (t.stake n).fe.fb = some { kind := 1, a := w })

/-! Streams. -/

/-- R371 to R376: an item that has no room is dropped and counted, one that starts a packet waits in it with the stream's next sequence
number; a packet closes at its timeout; a flush discards all stored words; `APPLY` is refused as a whole where the FIFOs exceed 256 KiB. -/
def Obligations.StreamPacker : Prop :=
  (∀ (s : State) (n : Nat) (o : Offer) (rest : List Offer), s.present n = true → (s.stake n).offers = o :: rest → o.stream < 16 →
    (s.stake n).inForceB (Reg.STR_STREAM_CFG_EN o.stream) = true → o.stream < (s.stake n).str.length →
    let k := s.stake n
    let i := o.stream
    ∃ t, exec (.streamItem n) s = .next t ∧ s.elsewhere t n ∧ (t.stake n).offers = rest ∧
      (k.inForce (Reg.STR_STREAM_CFG_FIFO_KIB i) * 128 < (k.strm i).stored + o.words.length →
        (t.stake n).rd (Reg.STR_STREAM_DROP_CNT i) = satAdd 31 (k.rd (Reg.STR_STREAM_DROP_CNT i)) 1 ∧
        ((t.stake n).strm i).drops = (k.strm i).drops + 1 ∧ (t.stake n).flag (Reg.STR_STREAM_STATUS_FULL i) = true) ∧
      ((k.strm i).stored + o.words.length ≤ k.inForce (Reg.STR_STREAM_CFG_FIFO_KIB i) * 128 → (k.strm i).packing = none →
        (k.strm i).packets.length < 256 → o.words.length < k.inForce (Reg.STR_STREAM_CFG_PKT_WORDS i) →
        (∃ p, ((t.stake n).strm i).packing = some (p, k.now) ∧ p.words = o.words ∧ p.seq = k.fld (Reg.STR_STREAM_SEQ_SEQ i) ∧
          p.source = o.source ∧ p.content = o.content ∧ p.tick = k.ang.tick) ∧
        (t.stake n).fld (Reg.STR_STREAM_SEQ_SEQ i) = (k.fld (Reg.STR_STREAM_SEQ_SEQ i) + 1) % 65536 ∧
        (t.stake n).rd (Reg.STR_STREAM_DROP_CNT i) = k.rd (Reg.STR_STREAM_DROP_CNT i)) ∧
      (∀ p at_, (k.strm i).stored + o.words.length ≤ k.inForce (Reg.STR_STREAM_CFG_FIFO_KIB i) * 128 → (k.strm i).packing = some (p, at_) →
        p.source = o.source → p.content = o.content → p.words.length + o.words.length < k.inForce (Reg.STR_STREAM_CFG_PKT_WORDS i) →
        ((t.stake n).strm i).packing = some ({ p with words := p.words ++ o.words }, at_) ∧
        k.regsKept (t.stake n) [Reg.STR_STREAM_STATUS i])) ∧
  (∀ (s : State) (n : Nat) (o : Offer) (rest : List Offer), s.present n = true → (s.stake n).offers = o :: rest →
    16 ≤ o.stream ∨ (s.stake n).inForceB (Reg.STR_STREAM_CFG_EN o.stream) = false →
    ∃ t, exec (.streamItem n) s = .next t ∧ s.elsewhere t n ∧ t.stake n = { s.stake n with offers := rest }) ∧
  (∀ (s : State) (n i at_ : Nat) (p : Packet), s.present n = true → i < 16 → ((s.stake n).strm i).packing = some (p, at_) →
    i < (s.stake n).str.length → at_ + 400 * (s.stake n).inForce (Reg.STR_STREAM_CFG_PKT_TIMEOUT i) ≤ (s.stake n).now →
    ∃ t, exec (.pktTimeout n i) s = .next t ∧ s.elsewhere t n ∧ ((t.stake n).strm i).packing = none ∧
      ((t.stake n).strm i).whole = ((s.stake n).strm i).whole ++ [p] ∧ (s.stake n).regsKept (t.stake n) [Reg.STR_STREAM_STATUS i]) ∧
  (∀ (s : State) (n i : Nat) (src : Src) (w : Reg32), s.admits src n (Reg.STR_STREAM_CMD i) w → i < 16 → w.getLsbD 0 = true →
    i < (s.stake n).str.length →
    ∃ t, exec (.streamFlush n src i w) s = .next t ∧ s.elsewhere t n ∧ ((t.stake n).strm i).packing = none ∧
      ((t.stake n).strm i).whole = [] ∧ ((t.stake n).strm i).flushNext = true ∧ ((t.stake n).strm i).moving = ((s.stake n).strm i).moving ∧
      (s.stake n).regsKept (t.stake n) [Reg.STR_STREAM_STATUS i]) ∧
  (∀ (s : State) (n : Nat) (src : Src) (w : Reg32), s.admits src n Reg.STR_CTRL w → w.getLsbD 0 = true →
    ∃ t, exec (.strApply n src w) s = .next t ∧ s.elsewhere t n ∧
      let sum := fifoSum fun i => (s.stake n).rd (Reg.STR_STREAM_CFG i)
      if 256 < sum then (t.stake n).flag Reg.STR_CTRL_CFG_REFUSED = true ∧ (t.stake n).act = (s.stake n).act ∧ (t.stake n).str = (s.stake n).str ∧
        (s.stake n).posted (t.stake n) .strCfgRefused 0 [sum]
      else ∀ i, i < 16 → (t.stake n).rdAct (Reg.STR_STREAM_CFG i) = (t.stake n).rd (Reg.STR_STREAM_CFG i))

/-- R350, R359, R373, R375: a STREAM_BUF posts its buffer; a whole packet is asked for while a posted buffer has room for it, arrives, is
written to the buffer and leaves the FIFO; a buffer that times out is returned. -/
def Obligations.StreamBuffers : Prop :=
  (∀ (s : State) (r : Nat) (d : Desc), (s.pkg.host.descs.find? fun d => d.ring = r && d.op = 0x20 && d.there) = some d →
    s.alive (s.ringStake r) = true → r < s.pkg.host.rings.length →
    ∃ t, exec (.streamBuf r) s = .next t ∧ s.stakesKept t ∧ t.pkg.regs = s.pkg.regs ∧ (t.ring r).bufs = (s.ring r).bufs ++
      [({ cid := d.cid, addr := leOf d.body 8 8, len := leOf d.body 16 4, timeout := leOf d.body 20 2 } : Buf)]) ∧
  (∀ (s : State) (r at_ : Nat) (b : Buf) (rest : List Buf), (s.ring r).bufs = b :: rest → b.firstAt = some at_ → b.timeout ≠ 0 →
    at_ + 4000 * b.timeout ≤ s.time → s.underWay r b.cid → r < s.pkg.host.rings.length → (s.ring r).deleting = [] →
    ∃ t, exec (.streamBufTimeout r) s = .next t ∧ (t.ring r).bufs = rest ∧ s.completes t b.cid 0x20 0) ∧
  (∀ (s : State) (r : Nat) (p : Packet) (b : Buf) (rest : List Packet) (bs : List Buf), s.ringEn r = true → r ≠ 0 →
    s.ringClass r = 2 → s.alive (s.ringStake r) = true → r ∉ s.pkg.host.inbound →
    let n := s.ringStake r
    let i := s.pkg.fld (Reg.HIF_RING_STREAM r)
    ((s.stake n).strm i).whole = p :: rest → ((s.stake n).strm i).moving = none → i < (s.stake n).str.length →
    (s.ring r).bufs = b :: bs → b.used + (p.bytes n i).length ≤ b.len → s.masters = true → s.nextSlot = some r →
    ∃ t, exec (.streamPacketRequest r) s = .next t ∧ ((t.stake n).strm i).moving = some p ∧ ((t.stake n).strm i).whole = rest ∧
      t.pkg.host.inbound = s.pkg.host.inbound ++ [r] ∧ t.pkg.regs = s.pkg.regs ∧ (t.stake n).regs = (s.stake n).regs) ∧
  (∀ (s : State) (n r : Nat) (p : Packet) (b : Buf) (bs : List Buf), (s.pkg.host.inbound.find? fun r => s.ringStake r = n) = some r →
    s.present n = true →
    let i := s.pkg.fld (Reg.HIF_RING_STREAM r)
    ((s.stake n).strm i).moving = some p → i < (s.stake n).str.length → r < s.pkg.host.rings.length →
    (s.ring r).bufs = b :: bs → b.used + (p.bytes n i).length ≤ b.len →
    ∃ t, exec (.streamPacketCell n) s = .next t ∧ ((t.stake n).strm i).moving = none ∧
      t.pkg.host.writes = s.pkg.host.writes ++ [(b.addr + b.used, p.bytes n i)] ∧ r ∉ t.pkg.host.inbound ∧
      (∃ b', (t.ring r).bufs = b' :: bs ∧ b'.used = b.used + (p.bytes n i).length ∧ b'.packets = b.packets + 1 ∧ b'.addr = b.addr) ∧
      t.pkg.regs = s.pkg.regs)


/-! The field engine. -/

/-- R130, R134, R135, R150: a PASS action starts a pass, or counts as skipped while one runs (F1), or does nothing while the engine is
disabled; whatever the limits, the integrators stay within `INT_MAX`. -/
def Obligations.PassStarts : Prop :=
  (∀ (s : State) (n e : Nat) (a : Act), s.present n = true → (s.stake n).due e 2 a →
    let k := s.stake n
    let acts := k.ang.acts.erase a
    ∃ t, exec (.pass n e) s = .next t ∧ s.elsewhere t n ∧
      (k.flag Reg.FLD_CTRL_EN = false → t.stake n = { k with ang := { k.ang with acts := acts } }) ∧
      (∀ b, k.flag Reg.FLD_CTRL_EN = true → k.fe.busyFrom = some b → k.now < b + 480 →
        (t.stake n).rd Reg.FLD_PASS_SKIP_CNT = satAdd 16 (k.rd Reg.FLD_PASS_SKIP_CNT) 1 ∧
        k.posted (t.stake n) .fldPassOverrun 1 [k.ang.tick.toNat] ∧ (t.stake n).fe = k.fe ∧ (t.stake n).ang.acts = acts) ∧
      (k.flag Reg.FLD_CTRL_EN = true → k.fe.busyFrom = none →
        (t.stake n).fe.busyFrom = some (t.stake n).now ∧ (t.stake n).flag Reg.FLD_STATUS_BUSY = true)) ∧
  (∀ (k : Stake) (vl v : Int × Int), 0 ≤ k.par 4 →
    iabs (k.antiWindup vl v).2.fe.xd ≤ k.par 4 ∧ iabs (k.antiWindup vl v).2.fe.xq ≤ k.par 4)

/-- R159, R160, R165 to R167: a commit copies the parameters as a whole, or is discarded with `HIF_RANGE` where one is out of range;
`APPLY` puts the staged settings in force in OFF, SAFE and TEST and is refused elsewhere, and does nothing under the set-up lock (R168); a table swap is noted as pending, but for a
curve that does not ascend; the fallback curve's input is read each millisecond, and its loss is posted. -/
def Obligations.FieldSettings : Prop :=
  (∀ (s : State) (n : Nat) (src : Src) (w : Reg32), s.admits src n Reg.FLD_CTRL w → w.getLsbD 1 = true → w.getLsbD 0 = false →
    let k := s.stake n
    let v := k.lockedCtrl s.locked w
    (k.badParam = none → k.badCommitted v = none →
      ∃ t, exec (.paramCommit n src w) s = .next t ∧ s.elsewhere t n ∧ (t.stake n).fe.copy = some (k.store Reg.FLD_CTRL v).regs ∧
        (t.stake n).fe.copyAt = k.now ∧ k.regsKept (t.stake n) [Reg.FLD_CTRL, Reg.FLD_STATUS]) ∧
    (∀ o, k.badParam = some o →
      ∃ t, exec (.paramCommit n src w) s = .next t ∧ s.stakesKept t ∧ s.posted t .hifRange 0 [bar0 n o, w.toNat] ∧
        s.pkg.regsKept t.pkg [Reg.HIF_EVT_LOST_CNT] ∧ s.pkg.restKept t.pkg)) ∧
  (∀ (s : State) (n : Nat) (src : Src) (w : Reg32), s.admits src n Reg.FLD_CTRL w → w.getLsbD 0 = true → w.getLsbD 1 = false →
    ∃ t, exec (.fldApply n src w) s = .next t ∧ s.elsewhere t n ∧
      if s.locked = true then (t.stake n).act = (s.stake n).act ∧ (s.stake n).regsKept (t.stake n) [Reg.FLD_STATUS]
      else if (s.stake n).axisIn [axOff, axSafe, axTest] then
        ∀ off, 0x40010 ≤ off → off < 0x40020 → (t.stake n).rdAct off = (s.stake n).rd off
      else (t.stake n).flag Reg.FLD_STATUS_CFG_REFUSED = true ∧ (t.stake n).act = (s.stake n).act ∧
        (s.stake n).posted (t.stake n) .fldCfgRefused 0 []) ∧
  (∀ (s : State) (n : Nat) (src : Src) (w : Reg32) (copyOk : Bool), s.admits src n Reg.FLD_TBL_CTRL w →
    let k := s.stake n
    let sw := if k.id = 1 then Reg.FLD_TBL_CTRL_SWAP.of w else Reg.FLD_TBL_CTRL_SWAP.of w % 4
    (sw.testBit 2 = false ∨ curveOk (k.curve (1 - k.fldBank 2)) = true →
      ∃ t, exec (.fldTableSwap n src w copyOk) s = .next t ∧ s.elsewhere t n ∧
        (t.stake n).fld Reg.FLD_TBL_CTRL_PENDING = k.fld Reg.FLD_TBL_CTRL_PENDING ||| sw ∧
        k.regsKept (t.stake n) [Reg.FLD_TBL_CTRL] ∧ (t.stake n).prt.copyBad = if sw.testBit 1 then !copyOk else k.prt.copyBad) ∧
    (sw.testBit 2 = true → curveOk (k.curve (1 - k.fldBank 2)) = false →
      ∃ t, exec (.fldTableSwap n src w true) s = .next t ∧ s.stakesKept t ∧
        s.posted t .hifRange 0 [bar0 n Reg.FLD_TBL_CTRL, w.toNat])) ∧
  (∀ (s : State), s.present 1 = true → (s.stake 1).flag Reg.FLD_FB_CTRL_EN = true → (s.stake 1).fld Reg.PLT_VOTE_STATUS_MODE ≠ 2 →
    (s.stake 1).fld Reg.FLD_FB_CTRL_FB_SRC = 0 → (s.stake 1).fbStale = false → s.pkg.boot.lost.testBit 1 = false →
    (s.stake 1).stopped = false →
    let k := s.stake 1
    ∃ t, exec .fallbackTick s = .next t ∧ s.elsewhere t 1 ∧ (t.stake 1).get48 Reg.FLD_FB_X = w48 k.fe.canX ∧
      (t.stake 1).flag Reg.FLD_FB_STATUS_INPUT_OK = true ∧
      (t.stake 1).flag Reg.FLD_FB_STATUS_ACTIVE = (if k.int48 Reg.FLD_FB_XON < k.fe.canX then true
        else if k.fe.canX < k.int48 Reg.FLD_FB_XOFF then false else k.flag Reg.FLD_FB_STATUS_ACTIVE)) ∧
  (∀ (s : State), s.present 1 = true → (s.stake 1).fld Reg.FLD_FB_CTRL_FB_SRC = 0 → (s.stake 1).fbStale = true →
    (s.stake 1).fe.fbLost = false →
    ∃ t, exec .fbInputTimeout s = .next t ∧ s.elsewhere t 1 ∧ (t.stake 1).flag Reg.FLD_FB_STATUS_INPUT_OK = false ∧
      (t.stake 1).flag Reg.FLD_FB_STATUS_INPUT_LOSS = true ∧ (s.stake 1).posted (t.stake 1) .fldFbInputLoss 1 [])

/-- R162, R163: CATCH goes from its legs-off step to the loop on the terminal voltages where the average of their magnitude is at least
`FLD_P_CATCH_MIN`, and to pulses or an end where it is less; the loop's lock gives the angle and speed, a timeout fails; a pulse is counted
and the next one spaced by `ZV_GAP`. -/
def Obligations.CatchSteps : Prop :=
  ∀ (s : State) (n : Nat) (c : Catch), s.present n = true → (s.stake n).fe.catching = some c →
    let k := s.stake n
    (c.step = 1 → c.start + 800000 ≤ k.now →
      ∃ t, exec (.catchLegsOffEnd n) s = .next t ∧ s.elsewhere t n ∧
        if 0 < c.emfN ∧ k.par 33 * c.emfN ≤ c.emfSum then
          (t.stake n).fe.catching = some { c with step := 2, smallSince := none } ∧ (t.stake n).fld Reg.FLD_STATUS_CATCH_STEP = 2
        else if k.inForceB Reg.FLD_CTRL_MACHINE = true then
          (t.stake n).fe.catching = none ∧ (t.stake n).fld Reg.FLD_CATCH_STATUS_OUTCOME = 3 ∧
            k.posted (t.stake n) .catchFailed 1 [3]
        else (t.stake n).fe.catching = some { c with step := 3, nextPulse := k.now } ∧ (t.stake n).fld Reg.FLD_STATUS_CATCH_STEP = 3) ∧
    (∀ since, c.step = 2 → c.smallSince = some since → c.pllOmega ≠ 0 → rev48 ≤ ((k.now - since : Nat) : Int) * iabs c.pllOmega →
      ∃ t, exec (.catchPllLock n) s = .next t ∧ s.elsewhere t n ∧ (t.stake n).fe.catching = none ∧
        (t.stake n).fld Reg.FLD_CATCH_STATUS_OUTCOME = 1 ∧ (t.stake n).flag Reg.FLD_CATCH_STATUS_ANGLE_VALID = true ∧
        (t.stake n).get48 Reg.FLD_CATCH_ANGLE = c.argE - quarter c.pllOmega ∧
        (t.stake n).get48 Reg.FLD_CATCH_SPEED = w48 c.pllOmega ∧ (t.stake n).get48 Reg.FLD_CATCH_TICK = c.lastTick ∧
        k.posted (t.stake n) .catchDone 0 []) ∧
    (c.step = 2 → c.start + 400000 * k.inForce Reg.FLD_CATCH_CFG_T_CATCH ≤ k.now →
      ∃ t, exec (.catchTimeout n) s = .next t ∧ s.elsewhere t n ∧ (t.stake n).fe.catching = none ∧
        (t.stake n).fld Reg.FLD_CATCH_STATUS_OUTCOME = 2 ∧ (t.stake n).flag Reg.FLD_CATCH_STATUS_ANGLE_VALID = false ∧
        k.posted (t.stake n) .catchFailed 1 [2]) ∧
    (c.step = 3 → c.pulses < k.inForce Reg.FLD_CATCH_CFG_ZV_N → c.nextPulse ≤ k.now →
      ∃ t c', exec (.catchZvPulse n) s = .next t ∧ s.elsewhere t n ∧ (t.stake n).fe.catching = some c' ∧ c'.pulses = c.pulses + 1 ∧
        c'.nextPulse = c.nextPulse + 400 * k.inForce Reg.FLD_CATCH_GAP_ZV_GAP ∧ c'.step = 3 ∧ c'.phi = c.phi)


/-! Modulation. -/

/-- R185, R187, R189 to R192: a request of a sound slot that may be entered waits for its seam, one of an unsound slot posts `MOD_SEAM_FAIL`
with cause 5; a carrier slot, or a pattern whose state the legs have, is entered at the boundary; a request without a seam for one
electrical revolution fails, save between two carrier slots, whose seam is the next boundary; a recompute
of a pattern whose legs are off carries the flux estimate to the present tick, sets the pointers to the present angle, and at low speed asks for
the fallback slot. -/
def Obligations.SlotsAndSeams : Prop :=
  (∀ (s : State) (n e : Nat) (a : Act), s.present n = true → (s.stake n).due e 3 a →
    let k := s.stake n
    let sl := a.arg % 16
    (sl ≠ k.slotNow ∨ k.modu.req ≠ none) →
    ∃ t, exec (.actionPattern n e) s = .next t ∧ s.elsewhere t n ∧ (t.stake n).ang = { k.ang with acts := k.ang.acts.erase a } ∧
      (k.slotSound sl = true → ¬ (k.kindNow = 0 ∧ k.slotKind sl = 2) → ¬ (k.kindNow = 2 ∧ k.slotKind sl = 0) →
        (k.slotKind sl ≠ 0 → (k.clock 0).valid = true ∧ k.speedBelow (k.inForce Reg.MOD_SYNC_SYNC_MIN) 1 = false) →
        (t.stake n).modu = { k.modu with req := some (sl, k.now, false) } ∧ (t.stake n).flag Reg.MOD_STATUS_SEAM_PENDING = true ∧
          k.regsKept (t.stake n) [Reg.MOD_STATUS]) ∧
      (k.slotSound sl = false → (t.stake n).modu.req = none ∧ k.posted (t.stake n) .modSeamFail 1 [5, sl])) ∧
  (∀ (s : State) (n sl at_ : Nat) (abort : Bool), s.present n = true → (s.stake n).modu.req = some (sl, at_, abort) → sl < 16 →
    (s.stake n).modu.run = true → (s.stake n).kindNow = 0 → (s.stake n).ang.tick = (s.stake n).modu.nextB →
    let k := s.stake n
    k.slotKind sl = 0 ∨ (patState (k.slotAngles sl) k.phiNow = [0, 1, 2].map (fun p => (k.mport p).level) ∧
      k.inForce Reg.MOD_SYNC_SEAM_MIN * (k.clock 0).omega.natAbs ≤
        (gapAround (k.clock 0).rev (allEdges (k.slotAngles sl)) k.phiNow).2) →
    ∃ t, exec (.modeSeam n) s = .next t ∧ s.elsewhere t n ∧ (t.stake n).modu.req = none ∧ (t.stake n).slotNow = sl ∧
      (t.stake n).kindNow = k.slotKind sl % 4 ∧ (t.stake n).flag Reg.MOD_STATUS_SEAM_PENDING = false) ∧
  (∀ (s : State) (n sl at_ : Nat) (abort : Bool), s.present n = true → (s.stake n).modu.req = some (sl, at_, abort) →
    ¬ ((s.stake n).kindNow = 0 ∧ (s.stake n).slotKind sl = 0) →
    rev48 ≤ (((s.stake n).now - at_ : Nat) : Int) * iabs ((s.stake n).clock 0).omega →
    ∃ t, exec (.seamSearchFail n) s = .next t ∧ s.elsewhere t n ∧ (t.stake n).modu.req = none ∧
      (t.stake n).flag Reg.MOD_STATUS_SEAM_PENDING = false ∧ (s.stake n).posted (t.stake n) .modSeamFail 1 [1, sl]) ∧
  (∀ (s : State) (n : Nat), s.present n = true → (s.stake n).modu.run = true → (s.stake n).kindNow ≠ 0 →
    ((s.stake n).ang.tick - (s.stake n).modu.pat.tSeam).toNat % 400 = 0 → (s.stake n).switching = false →
    let k := s.stake n
    let phi := k.phiNow
    ∃ t, exec (.patternRecompute n) s = .next t ∧ s.elsewhere t n ∧
      (t.stake n).modu.pat = { k.modu.pat with psi := k.fluxNow, psiAt := k.ang.tick, ptr := [phi, phi, phi] } ∧
      if k.speedBelow (7 * k.inForce Reg.MOD_SYNC_SYNC_MIN) 8 = true ∧ k.modu.req.all (fun r => !r.2.2) = true then
        (t.stake n).modu.req = some (k.inForce Reg.MOD_CTRL_FALLBACK_SLOT, k.now, true) ∧ k.posted (t.stake n) .modSyncAbort 0 [1]
      else (t.stake n).modu.req = k.modu.req ∧ t.stake n = { k with modu := (t.stake n).modu }) ∧
  (∀ (s : State) (n : Nat) (src : Src) (w : Reg32), s.admits src n Reg.MOD_PAT_CTRL w → w.getLsbD 0 = true →
    ∃ t, exec (.modPatSwap n src w) s = .next t ∧ s.elsewhere t n ∧ (t.stake n).flag Reg.MOD_PAT_CTRL_PENDING = true ∧
      (t.stake n).flag Reg.MOD_PAT_CTRL_ACTIVE = (s.stake n).flag Reg.MOD_PAT_CTRL_ACTIVE ∧
      t.stake n = { s.stake n with regs := (t.stake n).regs } ∧ (s.stake n).regsKept (t.stake n) [Reg.MOD_PAT_CTRL])

/-- R170, R176, R464: a boundary begins a period at its tick, and no other tick does; of the waiting sets one that closed early enough is
due and one that closed too late is counted and waits; the carrier starts at its first valley and stops at once. -/
def Obligations.BoundariesAndCarrier : Prop :=
  (∀ (s : State) (n : Nat), s.present n = true → (s.stake n).modu.run = true → (s.stake n).ang.tick = (s.stake n).modu.nextB →
    ∃ t, exec (.transferBoundary n) s = .next t ∧ (∀ m, m ≠ n → t.stake m = s.stake m) ∧ t.pkg.regs = s.pkg.regs ∧
      (t.stake n).ang.period.1 = (s.stake n).ang.tick ∧ (t.stake n).ang.bndDone = []) ∧
  (∀ (s : State) (n : Nat), (s.stake n).modu.run = false ∨ (s.stake n).ang.tick ≠ (s.stake n).modu.nextB →
    exec (.transferBoundary n) s = .next s) ∧
  (∀ (k : Stake) (b : Word48) (x : USet) (l : Bool), k.modu.waiting = [(x, l)] → x.target = none →
    (x.guard ≤ (b - x.closeAt).toInt → (k.dueSet b).1 = some x ∧ (k.dueSet b).2.modu.waiting = []) ∧
    (0 ≤ (b - x.closeAt).toInt → (b - x.closeAt).toInt < x.guard → l = false → (k.dueSet b).1 = none ∧
      (k.dueSet b).2.modu.waiting = [(x, true)] ∧
      (k.dueSet b).2.rd Reg.MOD_LATE_SETS = satAdd 16 (k.rd Reg.MOD_LATE_SETS) 1)) ∧
  (∀ (s : State) (n c : Nat), s.present n = true → (s.stake n).modu.start = some ((s.stake n).ang.tick, c) →
    (s.stake n).modu.run = false → (s.stake n).flag Reg.MOD_CTRL_EN = true →
    ∃ t, exec (.carrierStart n) s = .next t ∧ s.elsewhere t n ∧ (t.stake n).modu.run = true ∧ (t.stake n).modu.nextValley = true ∧
      (t.stake n).modu.nextB = (s.stake n).ang.tick ∧ (t.stake n).modu.set.period = c ∧
      (s.stake n).regsKept (t.stake n) [Reg.MOD_STATUS, Reg.MOD_TRIG_SKIP_CNT]) ∧
  (∀ (s : State) (n : Nat) (src : Src) (w : Reg32), s.admits src n Reg.MOD_CTRL w → w.getLsbD 31 = false → w.getLsbD 0 = false →
    (s.stake n).flag Reg.MOD_CTRL_EN = true →
    ∃ t, exec (.carrierStop n src w) s = .next t ∧ s.elsewhere t n ∧ (t.stake n).modu.run = false ∧ (t.stake n).modu.start = none ∧
      (t.stake n).modu.trig = [] ∧ (t.stake n).flag Reg.MOD_CTRL_EN = false ∧ (t.stake n).fld Reg.MOD_NEXT_P_NEXT = 0) ∧
  (∀ (s : State) (n : Nat), s.present n = true → (s.stake n).fld Reg.MOD_STATUS_EPOCH_STATE = 1 ∨
    (s.stake n).fld Reg.MOD_STATUS_EPOCH_STATE = 2 → (s.stake n).modu.epochAt + 1200000 ≤ (s.stake n).now →
    ∃ t, exec (.epochTimeout n) s = .next t ∧ s.elsewhere t n ∧ (t.stake n).fld Reg.MOD_STATUS_EPOCH_STATE = 3 ∧
      (t.stake n).modu.trimNext = 0 ∧ (s.stake n).regsKept (t.stake n) [Reg.MOD_STATUS] ∧
      ((s.stake n).fld Reg.MOD_STATUS_EPOCH_STATE = 2 →
        ∃ v, (s.stake n).posted (t.stake n) .modEpochUnlock 0 [v]))

/-- R174, R175, R207, R212: the register-path bank opens with a copy of the set in force, is handed over whole with its close tick, and is
discarded; settings take effect by `APPLY` in OFF, SAFE and TEST with room for the shortest pulse, and are refused elsewhere. -/
def Obligations.UpdateSets : Prop :=
  (∀ (s : State) (n : Nat) (src : Src) (w : Reg32), s.admits src n Reg.MOD_SET_CTRL w → w.getLsbD 0 = true → w.getLsbD 1 = false →
    w.getLsbD 2 = false →
    let k := s.stake n
    ∃ t, exec (.modSetOpen n src w) s = .next t ∧ s.elsewhere t n ∧ t.stake n = { k with regs := (t.stake n).regs } ∧
      if k.pairedFollower then (t.stake n).flag Reg.MOD_STATUS_SET_ERR = true ∧ k.regsKept (t.stake n) [Reg.MOD_STATUS]
      else (t.stake n).flag Reg.MOD_SET_CTRL_IS_OPEN = true ∧ (t.stake n).fld Reg.MOD_SET_CTRL_WRITTEN = 0 ∧
        (t.stake n).get48 Reg.MOD_SH_PERIOD = BitVec.ofNat 48 k.modu.set.period ∧
        (t.stake n).get48 Reg.MOD_SH_VA = w48 k.modu.set.va ∧ (t.stake n).get48 Reg.MOD_SH_THETA = k.modu.set.theta) ∧
  (∀ (s : State) (n : Nat) (src : Src) (w : Reg32), s.admits src n Reg.MOD_SET_CTRL w → w.getLsbD 0 = false → w.getLsbD 1 = true →
    w.getLsbD 2 = false → (s.stake n).flag Reg.MOD_SET_CTRL_IS_OPEN = true →
    let k := s.stake n
    let b := k.bankSet
    ∃ t, exec (.modSetClose n src w) s = .next t ∧ s.elsewhere t n ∧ (t.stake n).flag Reg.MOD_SET_CTRL_IS_OPEN = false ∧
      (t.stake n).fld Reg.MOD_SET_CTRL_WRITTEN = 0 ∧
      if b.mask.testBit 1 && b.mask.testBit 3 then (t.stake n).flag Reg.MOD_STATUS_SET_ERR = true ∧ (t.stake n).modu = k.modu
      else if b.mask.testBit 0 && !k.periodOk b.period then
        (t.stake n).modu = k.modu ∧ k.posted (t.stake n) .hifRange 0 [Reg.MOD_SH_PERIOD, b.period]
      else if b.mask.testBit 3 && b.dutyFmt = 0 && b.duty.any (fun d => 65536 < d) then (t.stake n).modu = k.modu
      else ∃ late, (t.stake n).modu.waiting = k.modu.waiting ++ [({ b with closeAt := k.ang.tick }, late)]) ∧
  (∀ (s : State) (n : Nat) (src : Src) (w : Reg32), s.admits src n Reg.MOD_SET_CTRL w → w.getLsbD 0 = false → w.getLsbD 1 = false →
    w.getLsbD 2 = true →
    ∃ t, exec (.modSetAbort n src w) s = .next t ∧ s.elsewhere t n ∧ (t.stake n).flag Reg.MOD_SET_CTRL_IS_OPEN = false ∧
      (t.stake n).fld Reg.MOD_SET_CTRL_WRITTEN = 0 ∧ t.stake n = { s.stake n with regs := (t.stake n).regs } ∧
      (s.stake n).regsKept (t.stake n) [Reg.MOD_SET_CTRL]) ∧
  (∀ (s : State) (n : Nat) (src : Src) (w : Reg32), s.admits src n Reg.MOD_CTRL w → w.getLsbD 0 = true →
    ∃ t, exec (.modApply n src w) s = .next t ∧ s.elsewhere t n ∧
      if (s.stake n).modApplyOk then
        ∀ off, (0x50010 ≤ off ∧ off < 0x5001C) ∨ (0x500C0 ≤ off ∧ off < 0x500E4) ∨ (0x50100 ≤ off ∧ off < 0x50188) →
          (t.stake n).rdAct off = (s.stake n).rd off
      else (t.stake n).flag Reg.MOD_STATUS_CFG_REFUSED = true ∧ (t.stake n).act = (s.stake n).act ∧
        (s.stake n).posted (t.stake n) .modCfgRefused 0 [])

/-- R195, R196, R200, R201, R204, R205, R233: a record's symbol leaves on its port when its instant has come, or is dropped while the link
is off; a calibration shows its count and is posted when out of range; the AUX switch's pulses start and end; cuts end; a trigger with the
plait's action interrupts it. -/
def Obligations.EdgesAndCuts : Prop :=
  (∀ (s : State) (n p : Nat) (r : Record) (rest : List Record), s.present n = true → p < 4 → p < (s.stake n).modu.ports.length →
    p < (s.stake n).leg.ports.length → ((s.stake n).mport p).seized = false → ((s.stake n).mport p).recs = r :: rest →
    reached (s.stake n).ang.tick r.at_.tick = true →
    let k := s.stake n
    let q := k.mport p
    ∃ t, exec (.edgeSymbolSend n p) s = .next t ∧ s.elsewhere t n ∧
      (k.link p = 0 → t.stake n = { k with modu := (t.stake n).modu } ∧ (t.stake n).mport p = { q with recs := rest }) ∧
      (k.link p ≠ 0 → k.needsPrecharge p r.sym = false →
        (t.stake n).mport p = { q with
          recs := rest, lastSym := some r.at_
          hs := match r.sym with | .hsOn => true | .hsOff => false | .softOff => false | _ => q.hs
          ls := match r.sym with | .lsOn => true | .lsOff => false | .softOff => false | _ => q.ls } ∧
        ((t.stake n).lport p).pulse = some (some r.sym, r.at_, cellOf r.at_.fine (nth 0 k.modu.ncMap p)) ∧
        ((t.stake n).lport p).lastSymAt = k.now ∧ k.regsKept (t.stake n) [Reg.LEG_PORT_STATUS p])) ∧
  (∀ (s : State) (n nc : Nat), s.present n = true → nc < 128 →
    ∃ t, exec (.delayLineCalibrate n nc) s = .next t ∧ s.elsewhere t n ∧ (t.stake n).fld Reg.MOD_DL_STATUS_N_C = nc ∧
      (36 ≤ nc → nc ≤ 64 → (t.stake n).flag Reg.MOD_DL_STATUS_FAULT = false ∧ (s.stake n).regsKept (t.stake n) [Reg.MOD_DL_STATUS]) ∧
      (nc < 36 ∨ 64 < nc → (t.stake n).flag Reg.MOD_DL_STATUS_FAULT = true ∧ (s.stake n).posted (t.stake n) .modDlFault 1 [nc])) ∧
  (∀ (s : State) (n : Nat), s.present n = true → (s.stake n).inForce (Reg.MOD_PORT_CFG_AUX_MODE 3) = 2 → (s.stake n).modu.auxReq = true →
    (s.stake n).modu.auxEnd = none → (s.stake n).modu.auxOffAt = none → ((s.stake n).mport 3).mayTurnOn (s.stake n).nowI = true →
    ∃ t, exec (.auxPulseStart n) s = .next t ∧ s.elsewhere t n ∧
      (t.stake n).modu.auxEnd = some ((s.stake n).ang.tick + w48 (s.stake n).modu.set.ton)) ∧
  (∀ (s : State) (n : Nat) (at_ : Word48), s.present n = true → (s.stake n).modu.auxEnd = some at_ →
    reached (s.stake n).ang.tick at_ = true →
    ∃ t, exec (.auxPulseEnd n) s = .next t ∧ s.elsewhere t n ∧ (t.stake n).modu.auxEnd = none ∧ (t.stake n).modu.auxOffAt = some at_) ∧
  (∀ (s : State) (n p : Nat) (c : Cut) (e : Word48), s.present n = true → ((s.stake n).mport p).cut = some c → c.latched = false →
    c.endAt = some e → reached (s.stake n).ang.tick e = true → p < (s.stake n).modu.ports.length →
    ∃ t, exec (.cutEnd n p) s = .next t ∧ s.elsewhere t n ∧ ((t.stake n).mport p).cut = none) ∧
  (∀ (s : State) (n p : Nat) (src : Src) (w : Reg32) (c : Cut), s.admits src n Reg.MOD_CUT_CLR w → p < 4 →
    p < (s.stake n).modu.ports.length → ((s.stake n).mport p).cut = some c → c.latched = true → w.getLsbD p = true →
    ∃ t, exec (.cutClear n src w) s = .next t ∧ s.elsewhere t n ∧ ((t.stake n).mport p).cut = none) ∧
  (∀ (s : State) (n u : Nat) (x : Nat × Instant), s.present n = true →
    ((s.stake n).modu.trig.find? fun x => x.1 = u && reached (s.stake n).ang.tick x.2.tick) = some x →
    (s.stake n).inForce (Reg.MOD_TRIG_ACTION u) = 5 →
    ∃ t, exec (.triggerFire n u) s = .next t ∧ s.elsewhere t n ∧ (t.stake n).modu.trig = (s.stake n).modu.trig.erase x ∧
      let v := (s.stake n).inForce (Reg.MOD_TRIG_ARG u) % 16
      if (s.stake n).vote.resync then (t.stake n).vote.tasks = (s.stake n).vote.tasks ++ [.irq v] ∧ (t.stake n).ang.irqs = (s.stake n).ang.irqs
      else (t.stake n).ang.irqs = (s.stake n).ang.irqs ++ [v])


/-! Pairing. -/

/-- R210, R226 to R229: a pairing starts where no condition of R227 fails and is refused with the cause otherwise; a stop unpairs both;
a sample frame waits for the pass it belongs to, one that comes after that pass is discarded; three matched in succession in STARTING,
the follower's main clock being VALID, make both PAIRED. -/
def Obligations.PairingStarts : Prop :=
  (∀ (s : State) (n : Nat) (src : Src) (w : Reg32), s.admits src n Reg.FLD_PAIR_CTRL w → s.present (partnerOf n) = true →
    (s.stake n).leads = true → w.getLsbD 0 = true → w.getLsbD 1 = false →
    (∀ r, regAt Reg.FLD_PAIR_CTRL = some r →
      r.merge ((s.stake n).rd Reg.FLD_PAIR_CTRL) w &&& 0x3FFFFFFC = (s.stake n).rd Reg.FLD_PAIR_CTRL &&& 0x3FFFFFFC) →
    let c := startCause (s.stake n) (s.stake (partnerOf n))
    ∃ t, exec (.pairStart n src w) s = .next t ∧ t.pkg = s.pkg ∧ (∀ m, m ≠ n → m ≠ partnerOf n → t.stake m = s.stake m) ∧
      (c = 0 → (t.stake n).pairSt = 1 ∧ (t.stake (partnerOf n)).pairSt = 1 ∧
        (s.stake n).regsKept (t.stake n) [Reg.FLD_PAIR_STATUS]) ∧
      (c ≠ 0 → (t.stake n).flag Reg.FLD_PAIR_STATUS_START_REFUSED = true ∧ (t.stake n).fld Reg.FLD_PAIR_STATUS_REFUSE_CAUSE = c ∧
        (t.stake n).pairSt = (s.stake n).pairSt ∧ (s.stake n).posted (t.stake n) .pairStartRefused 0 [c])) ∧
  (∀ (s : State) (n : Nat) (src : Src) (w : Reg32), s.admits src n Reg.FLD_PAIR_CTRL w → s.present (partnerOf n) = true →
    (s.stake n).leads = true → w.getLsbD 0 = false → w.getLsbD 1 = true →
    (∀ r, regAt Reg.FLD_PAIR_CTRL = some r →
      r.merge ((s.stake n).rd Reg.FLD_PAIR_CTRL) w &&& 0x3FFFFFFC = (s.stake n).rd Reg.FLD_PAIR_CTRL &&& 0x3FFFFFFC) →
    (s.stake n).axisIn [axOff, axSafe] = true → (s.stake (partnerOf n)).axisIn [axOff, axSafe] = true →
    ∃ t, exec (.pairStop n src w) s = .next t ∧ t.pkg = s.pkg ∧ (t.stake n).pairSt = 0 ∧ (t.stake (partnerOf n)).pairSt = 0) ∧
  (∀ (s : State) (n : Nat) (ws : List Nat), s.present n = true → s.present (partnerOf n) = true → (s.stake n).leads = true →
    (s.stake n).pairSt = 1 ∨ (s.stake n).pairSt = 2 →
    ∃ t, exec (.pairSampleFrame n ws) s = .next t ∧ s.elsewhere t n ∧ (t.stake n).regs = (s.stake n).regs ∧
      ((s.stake n).pair.judged = some (wordAt ws 0) → (t.stake n).pair = (s.stake n).pair) ∧
      ((s.stake n).pair.judged ≠ some (wordAt ws 0) → ∃ f, (t.stake n).pair.frames = (s.stake n).pair.frames ++ [f] ∧
        f.tc = wordAt ws 0 ∧ f.i = [wordInt ws 2, wordInt ws 3, wordInt ws 4] ∧ f.loop = (wordInt ws 5, wordInt ws 6))) ∧
  (∀ (s : State) (n : Nat), s.present n = true → s.present (partnerOf n) = true → (s.stake n).pairSt = 1 →
    3 ≤ (s.stake n).pair.matched → ((s.stake (partnerOf n)).clock 0).valid = true →
    let t := s.pairUp n
    (t.stake n).pairSt = 2 ∧ (t.stake (partnerOf n)).pairSt = 2 ∧ (s.stake n).posted (t.stake n) .pairUp 0 [] ∧
      (s.stake (partnerOf n)).regsKept (t.stake (partnerOf n)) [Reg.FLD_PAIR_STATUS] ∧
      ∀ m, m ≠ n → m ≠ partnerOf n → t.stake m = s.stake m)

/-- R215, R218, R220: the leader's clock cell is noted by the follower and sent every 4,000 ticks; its update set waits at the follower
for the boundary it names. -/
def Obligations.PairingTraffic : Prop :=
  (∀ (s : State) (n : Nat) (c0 : List Nat), s.present n = true → (s.stake n).leads = false → (nth 0 c0 3).testBit 29 = true →
    (s.stake n).pairSt ≠ 2 ∨ ((s.stake n).axis = nth 0 c0 5 % 16 ∧ nth 0 c0 5 / 16 % 4 = 0 ∧ (s.stake n).axis ≠ axSafe) →
    ∃ t, exec (.pairClockMeasurement n c0) s = .next t ∧ s.elsewhere t n ∧ (t.stake n).pair.clockValid = true ∧
      (t.stake n).pair.mirror = (nth 0 c0 5 % 16, nth 0 c0 5 / 16 % 4) ∧ (t.stake n).axis = (s.stake n).axis) ∧
  (∀ (s : State) (n : Nat), s.present n = true → (s.stake n).leads = true → (s.stake n).pairSt ≠ 0 →
    (s.stake n).pair.nextCell ≤ (s.stake n).now → (∀ d, ((s.stake n).dir d).queues.length = 4) →
    ∃ t, exec (.pairClockCellSend n) s = .next t ∧ s.elsewhere t n ∧ (t.stake n).pair.nextCell = (s.stake n).now + 4000 ∧
      (t.stake n).regs = (s.stake n).regs ∧
      ∃ d, ∃ c ∈ nth [] ((t.stake n).dir d).queues 0, c.kind = 4 ∧ c.dest = partnerOf (s.stake n).id ∧ c.tag = 0xFFFF ∧
        c.payload.head? = some (s.stake n).ang.tick.toNat) ∧
  (∀ (s : State) (n : Nat) (c0 c1 c2 : List Nat), s.present n = true → (nth 0 c0 3).testBit 31 = true →
    (nth 0 c0 3).testBit 0 = false → (nth 0 c0 3).testBit 3 = false →
    let k := (s.stake n).clockCell c0
    k.pairedFollower = true →
    ∃ t x l r, exec (.pairUpdateSet n c0 c1 c2) s = .next t ∧ t.pkg = s.pkg ∧ (t.stake n).modu.waiting = k.modu.waiting ++ [(x, l)] ∧
      x.target = some (wordAt c0 4) ∧ x.va = wordInt c1 0 ∧ x.vb = wordInt c1 1 ∧ x.theta = wordAt c1 5 ∧ x.closeAt = k.ang.tick ∧
      (t.stake n).pair.returned = some r ∧ r.thetaC = wordAt c0 1)

/-- R222 to R225: a break is recorded with its cause and ends the pairing; a survivor in HOLD goes on once its partner's confirmation
arrives in time, and takes an F3 reaction when it does not. -/
def Obligations.PairingBreaks : Prop :=
  (∀ (s : State) (n cause : Nat), s.present n = true → 1 ≤ cause → cause ≤ 5 → (s.stake n).pairSt = 1 ∨ (s.stake n).pairSt = 2 →
    ∃ t cls, exec (.pairBreakRecord n cause) s = .next t ∧ s.elsewhere t n ∧ (t.stake n).flag Reg.FLD_PAIR_STATUS_BROKEN = true ∧
      (t.stake n).fld Reg.FLD_PAIR_STATUS_BREAK_CAUSE = cause ∧ (t.stake n).pairSt ∈ [3, 4, 5] ∧
      ∃ other, (s.stake n).posted (t.stake n) .pairBreak cls
        [cause, (s.stake n).fld Reg.FLD_PAIR_STATUS_CONSEC, (s.stake n).pair.seen.1, (t.stake n).pairSt, other]) ∧
  (∀ (s : State) (n at_ : Nat), s.present n = true → (s.stake n).pair.holdAt = some at_ → (s.stake n).pairSt = 3 →
    (s.stake n).now ≤ at_ + 400 * (s.stake n).inForce Reg.FLD_PAIR_LIMITS_T_CONFIRM →
    ∃ t, exec (.pairConfirmRecord n) s = .next t ∧ s.elsewhere t n ∧ (t.stake n).pairSt = 4 ∧ (t.stake n).pair.holdAt = none ∧
      (t.stake n).modu.fdtEnter = true) ∧
  (∀ (s : State) (n at_ : Nat), s.present n = true → (s.stake n).pair.holdAt = some at_ → (s.stake n).pairSt = 3 →
    at_ + 400 * (s.stake n).inForce Reg.FLD_PAIR_LIMITS_T_CONFIRM ≤ (s.stake n).now →
    ∃ t, exec (.pairConfirmTimeout n) s = .next t ∧ s.elsewhere t n ∧ (t.stake n).pair.holdAt = none ∧
      (s.stake n).posted (t.stake n) .pairConfirmTimeout 3 [(s.stake n).now - at_])


/-! The leg link. -/

/-- R240, R242, R245 to R247, R253: a HELLO takes a waiting port to its configuration, or fails it with the cause; the SUM that answers
the last SUM_REQ arms it, an unequal one repeats the configuration or fails the port; a STATUS shows the gates and latches of the leg head;
a frame with a bad CRC or of a reserved type is only counted. -/
def Obligations.LegHeadAnswers : Prop :=
  (∀ (s : State) (n p : Nat) (f : Reg32), s.present n = true → p < 4 → p < (s.stake n).leg.ports.length → (s.stake n).link p = 1 →
    frameOk f 1 = true →
    let k := s.stake n
    let v := (Fld.mk 0 24 4).of f
    ∃ t, exec (.legHello n p f) s = .next t ∧ s.elsewhere t n ∧ (t.stake n).fld (Reg.LEG_PORT_HEAD_VERSION p) = v ∧
      (t.stake n).fld (Reg.LEG_PORT_HEAD_LATENCY p) = (Fld.mk 0 16 8).of f ∧
      if v ≠ 1 then (t.stake n).link p = 4 ∧ (t.stake n).fld (Reg.LEG_PORT_STATUS_CAUSE p) = 2 ∧
        k.posted (t.stake n) .legLinkFail 0 [p, 2]
      else if f.getLsbD 15 ≠ k.inForceB (Reg.LEG_PORT_CFG_SUPPLY p) then (t.stake n).link p = 4 ∧
        (t.stake n).fld (Reg.LEG_PORT_STATUS_CAUSE p) = 3 ∧ k.posted (t.stake n) .legLinkFail 0 [p, 3]
      else (t.stake n).link p = 2 ∧ ((t.stake n).lport p).out =
        [(t.stake n).modeFrame p true, (t.stake n).defFrame p, .psel 0 0] ++ (t.stake n).pstepFrames p ++ [.sumReq]) ∧
  (∀ (s : State) (n p : Nat) (f : Reg32), s.present n = true → p < 4 → p < (s.stake n).leg.ports.length →
    ((s.stake n).lport p).hello = some f → (s.stake n).axisIn [axOff, axSafe] = true →
    (s.stake n).link p = 4 ∨ (s.stake n).link p = 5 → (Fld.mk 0 24 4).of f = 1 →
    f.getLsbD 15 = (s.stake n).inForceB (Reg.LEG_PORT_CFG_SUPPLY p) →
    ∃ t, exec (.legDeferredHello n p) s = .next t ∧ s.elsewhere t n ∧ (t.stake n).link p = 2 ∧ ((t.stake n).lport p).hello = none) ∧
  (∀ (s : State) (n p : Nat) (f : Reg32), s.present n = true → p < 4 → p < (s.stake n).leg.ports.length → frameOk f 6 = true →
    let k := s.stake n
    let l := k.lport p
    let got := (Fld.mk 0 8 16).of f
    let own := if l.sums.contains got then got else k.cfgSum p
    let rest := if l.sums.contains got then (l.sums.dropWhile fun x => x ≠ got).tail else l.sums.tail
    let tries := if k.link p = 2 then 3 else 2
    (k.link p = 2 ∨ k.link p = 3) →
    ∃ t, exec (.legSum n p f) s = .next t ∧ s.elsewhere t n ∧
      (got = own → (t.stake n).regs = k.regs ∧ ((t.stake n).lport p).sums = rest ∧
        (k.link p = 2 → ((t.stake n).lport p).out = l.out ++ (if rest = [] ∧ LegFrame.sumReq ∉ l.out then [.arm] else [])) ∧
        (k.link p = 3 → ((t.stake n).lport p).attempts = 0 ∧ ((t.stake n).lport p).out = l.out)) ∧
      (got ≠ own → l.attempts < tries → (t.stake n).regs = k.regs ∧ ((t.stake n).lport p).attempts = l.attempts + 1 ∧
        ((t.stake n).lport p).out = l.out ++ [k.modeFrame p (k.link p = 2 || k.portFdt p), k.defFrame p, .psel 0 0] ++ k.pstepFrames p ++
          [.sumReq]) ∧
      (got ≠ own → tries ≤ l.attempts → (t.stake n).link p = 4 ∧ (t.stake n).fld (Reg.LEG_PORT_STATUS_CAUSE p) = 4 ∧
        k.posted (t.stake n) .legCfgMismatch 1 [p, got, own])) ∧
  (∀ (s : State) (n p : Nat) (f : Reg32), s.present n = true → p < 4 → (s.stake n).link p ≠ 0 → frameOk f 2 = true →
    ∃ t, exec (.legStatus n p f) s = .next t ∧ s.elsewhere t n ∧ (t.stake n).flag (Reg.LEG_PORT_STATUS_G_HS p) = f.getLsbD 27 ∧
      (t.stake n).flag (Reg.LEG_PORT_STATUS_G_LS p) = f.getLsbD 26 ∧ (t.stake n).flag (Reg.LEG_PORT_STATUS_LATCH p) = f.getLsbD 23 ∧
      (t.stake n).flag (Reg.LEG_PORT_STATUS_KA_LOST p) = f.getLsbD 22 ∧ (t.stake n).flag (Reg.LEG_PORT_STATUS_WL_LOST p) = f.getLsbD 18 ∧
      (t.stake n).flag (Reg.LEG_PORT_STATUS_FDT p) = f.getLsbD 16) ∧
  (∀ (s : State) (n p : Nat), s.present n = true → p < 4 → (s.stake n).link p ≠ 0 →
    let counted := fun (c : Instr) => ∃ t, exec c s = .next t ∧ s.elsewhere t n ∧
      (t.stake n).rd (Reg.LEG_PORT_CRC_CNT p) = satAdd 16 ((s.stake n).rd (Reg.LEG_PORT_CRC_CNT p)) 1 ∧
      t.stake n = { s.stake n with regs := (t.stake n).regs } ∧ (s.stake n).regsKept (t.stake n) [Reg.LEG_PORT_CRC_CNT p]
    counted (.legBadFrame n p) ∧ ∀ f : Reg32, frameBad f = true →
      counted (.legHello n p f) ∧ counted (.legStatus n p f) ∧ counted (.legEvent n p f) ∧ counted (.legFault n p f) ∧
      counted (.legTelemetry n p f) ∧ counted (.legSum n p f) ∧ counted (.legTestResult n p f))

/-- R199, R242, R252 to R254, R258, R268, R269: an EVENT takes its symbol off those expected and counts what it reports; a FAULT with a
desaturation sets the port's flags and trips; telemetry is shown; a self-test step that passes is followed by the next, and one that
fails ends the test. -/
def Obligations.LegHeadReports : Prop :=
  (∀ (s : State) (n p : Nat) (f : Reg32) (sym : Symb), s.present n = true → p < 4 → p < (s.stake n).leg.ports.length →
    (s.stake n).link p ≠ 0 → frameOk f 3 = true → symOf ((Fld.mk 0 25 3).of f) = some sym →
    let k := s.stake n
    ∃ t, exec (.legEvent n p f) s = .next t ∧ s.elsewhere t n ∧
      ((t.stake n).lport p).expect = dropFirst (fun x => x.1 = sym) (k.lport p).expect ∧
      (t.stake n).rd (Reg.LEG_PORT_DEF_CNT p) =
        (if f.getLsbD 24 then satAdd 16 (k.rd (Reg.LEG_PORT_DEF_CNT p)) 1 else k.rd (Reg.LEG_PORT_DEF_CNT p)) ∧
      (f.getLsbD 22 = true → (t.stake n).rd (Reg.LEG_PORT_REJ_CNT p) = satAdd 16 (k.rd (Reg.LEG_PORT_REJ_CNT p)) 1 ∧
        ((k.lport p).test = none → k.posted (t.stake n) .legSeqReject 1 [p, (Fld.mk 0 25 3).of f])) ∧
      (f.getLsbD 23 = true → (t.stake n).rd (Reg.LEG_PORT_IL_TMO_CNT p) = satAdd 16 (k.rd (Reg.LEG_PORT_IL_TMO_CNT p)) 1)) ∧
  (∀ (s : State) (n p : Nat) (f : Reg32), s.present n = true → p < 4 → p < (s.stake n).leg.ports.length →
    (s.stake n).link p ≠ 0 → frameOk f 4 = true →
    let k := s.stake n
    let d := (k.lport p).desat
    (f.getLsbD 27 = true ∧ d.1 = false) ∨ (f.getLsbD 26 = true ∧ d.2 = false) →
    ∃ t, exec (.legFault n p f) s = .next t ∧ s.elsewhere t n ∧ (t.stake n).prt.trips = k.prt.trips ++ [⟨2, some p, k.now⟩] ∧
      ((t.stake n).lport p).desat = (d.1 || f.getLsbD 27, d.2 || f.getLsbD 26) ∧ (t.stake n).flag (Reg.LEG_PORT_STATUS_LATCH p) = true ∧
      (f.getLsbD 27 = true → (t.stake n).flag (Reg.LEG_PORT_STATUS_DESAT_HS p) = true) ∧
      (f.getLsbD 26 = true → (t.stake n).flag (Reg.LEG_PORT_STATUS_DESAT_LS p) = true) ∧
      k.posted (t.stake n) .legDesat 4 [p, f.toNat / 16777216 % 16, (k.ang.tick - w48 (80 + 2 * ((Fld.mk 0 8 8).of f : Int))).toNat]) ∧
  (∀ (s : State) (n p : Nat) (f : Reg32), s.present n = true → p < 4 → (s.stake n).link p ≠ 0 → frameOk f 5 = true →
    (Fld.mk 0 24 4).of f < 4 →
    let x := match (Fld.mk 0 24 4).of f with
      | 0 => Reg.LEG_PORT_SUPPLY_HS p | 1 => Reg.LEG_PORT_SUPPLY_LS p | 2 => Reg.LEG_PORT_TEMP_MODULE p | _ => Reg.LEG_PORT_TEMP_HEAD p
    ∃ t, exec (.legTelemetry n p f) s = .next t ∧ s.elsewhere t n ∧ (t.stake n).fld x = (Fld.mk 0 8 16).of f ∧
      (s.stake n).regsKept (t.stake n) [x.off]) ∧
  (∀ (s : State) (n p : Nat) (f : Reg32) (x : LegTest), s.present n = true → p < 4 → p < (s.stake n).leg.ports.length →
    (s.stake n).link p ≠ 0 → frameOk f 7 = true → ((s.stake n).lport p).test = some x → 1 ≤ x.step → x.step ≤ 4 →
    x.since ≠ none → (Fld.mk 0 24 4).of f = x.step →
    ∃ t, exec (.legTestResult n p f) s = .next t ∧ s.elsewhere t n ∧
      if f.getLsbD 23 then (t.stake n).fld (Reg.LEG_PORT_TEST_PASS p) = (s.stake n).fld (Reg.LEG_PORT_TEST_PASS p) ||| 2 ^ (x.step - 1) ∧
        (t.stake n).fld (Reg.LEG_PORT_TEST_STEP p) = x.step + 1 ∧ .test 0 ∈ ((t.stake n).lport p).out
      else (t.stake n).flag (Reg.LEG_PORT_STATUS_TEST_FAIL p) = true ∧ ((t.stake n).lport p).test = none ∧
        (s.stake n).posted (t.stake n) .legSelftest 1 [p, x.step, (s.stake n).fld (Reg.LEG_PORT_TEST_PASS p)]) ∧
  (∀ (s : State) (n p t0 : Nat) (x : LegTest), s.present n = true → p < 4 → p < (s.stake n).leg.ports.length →
    ((s.stake n).lport p).test = some x → 1 ≤ x.step → x.step ≤ 7 → x.since = some t0 → t0 + 8000 ≤ (s.stake n).now →
    let pass := (s.stake n).fld (Reg.LEG_PORT_TEST_PASS p)
    ∃ t, exec (.selftestStepTimeout n p) s = .next t ∧ s.elsewhere t n ∧
      if x.step ≤ 4 ∨ x.passed = false then (t.stake n).flag (Reg.LEG_PORT_STATUS_TEST_FAIL p) = true ∧
        ((t.stake n).lport p).test = none ∧ (s.stake n).posted (t.stake n) .legSelftest 1 [p, x.step, pass]
      else (t.stake n).fld (Reg.LEG_PORT_TEST_PASS p) = pass ||| 2 ^ (x.step - 1) ∧
        if x.step < 7 then (t.stake n).fld (Reg.LEG_PORT_TEST_STEP p) = x.step + 1
        else (t.stake n).flag (Reg.LEG_PORT_STATUS_TEST_FAIL p) = false ∧ ((t.stake n).lport p).test = none ∧
          (s.stake n).posted (t.stake n) .legSelftest 0 [p, 7, pass ||| 64])

/-- R234, R241, R244 to R246, R263: keep-alive pulses and frames leave a port, the frame of lowest priority number first and a heartbeat
when none waits; silence on the word lane, no HELLO in time and a third missing EVENT take the link down; `EN` starts every fitted port
and stops all of them in OFF and SAFE. -/
def Obligations.LegLinks : Prop :=
  (∀ (s : State) (n p : Nat), s.present n = true → p < 4 → p < (s.stake n).leg.ports.length → (s.stake n).link p ≠ 0 →
    let k := s.stake n
    let part := match (k.lport p).pulse with | some x => if x.2.1.fine = 0 then 0 else 1 | none => 0
    (k.lport p).lastPulse + 800 + part ≤ k.now →
    ((k.mport p).seized = false → ∀ r ∈ (k.mport p).recs, reached r.at_.tick (k.ang.tick + 16) = true) →
    ((k.mport p).seized = true → ∀ g ∈ k.prt.gen, g.port = p → k.now + 60 ≤ g.at_) →
    ∃ t, exec (.keepAliveSend n p) s = .next t ∧ s.elsewhere t n ∧ ((t.stake n).lport p).pulse = some (none, ⟨k.ang.tick, 0⟩, 0) ∧
      ((t.stake n).lport p).lastPulse = (s.stake n).now ∧ t.stake n = { s.stake n with leg := (t.stake n).leg }) ∧
  (∀ (s : State) (n p : Nat), s.present n = true → p < 4 → p < (s.stake n).leg.ports.length → 2 ≤ (s.stake n).link p →
    ((s.stake n).lport p).lastOut + 80 ≤ (s.stake n).now → (s.stake n).nextFrame p = none →
    ∃ t, exec (.wordLaneFrameSend n p) s = .next t ∧ s.elsewhere t n ∧
      (∀ f, pickFrame ((s.stake n).lport p).out = some f → ((t.stake n).lport p).word = f.word ∧
        ((t.stake n).lport p).out = ((s.stake n).lport p).out.erase f ∧
        (f = .arm → (s.stake n).link p = 2 → (t.stake n).link p = 3 ∧ (s.stake n).posted (t.stake n) .legLinkUp 0 [p])) ∧
      (((s.stake n).lport p).out = [] → ((s.stake n).lport p).lastOut + 1600 ≤ (s.stake n).now →
        ((t.stake n).lport p).word = (LegFrame.heartbeat ((s.stake n).lport p).hb).word)) ∧
  (∀ (s : State) (n p : Nat) (f : LegFrame) (x : Instant), s.present n = true → p < 4 → p < (s.stake n).leg.ports.length →
    2 ≤ (s.stake n).link p → ((s.stake n).lport p).lastOut + 80 ≤ (s.stake n).now → (s.stake n).nextFrame p = some (f, x) →
    (∀ g ∈ ((s.stake n).lport p).out, g.isMode = false) →
    ∃ t, exec (.wordLaneFrameSend n p) s = .next t ∧ s.elsewhere t n ∧ ((t.stake n).lport p).word = f.word ∧
      ((t.stake n).lport p).nextFor = some x ∧ ((t.stake n).lport p).out = ((s.stake n).lport p).out) ∧
  (∀ (s : State) (n p : Nat), s.present n = true → p < 4 → (s.stake n).link p = 2 ∨ (s.stake n).link p = 3 →
    ((s.stake n).lport p).lastIn + 8000 ≤ (s.stake n).now →
    ∃ t, exec (.wordLaneTimeout n p) s = .next t ∧ s.elsewhere t n ∧ (t.stake n).link p = 5 ∧
      (s.stake n).posted (t.stake n) .legLinkLoss ((s.stake n).inForce (Reg.LEG_PORT_CFG_LOSS_CLASS p)) [p]) ∧
  (∀ (s : State) (n p : Nat), s.present n = true → p < 4 → (s.stake n).link p = 1 →
    ((s.stake n).lport p).started + 400000 * (s.stake n).fld Reg.LEG_CTRL_T_LINK ≤ (s.stake n).now →
    ∃ t, exec (.legHelloTimeout n p) s = .next t ∧ s.elsewhere t n ∧ (t.stake n).link p = 4 ∧
      (t.stake n).fld (Reg.LEG_PORT_STATUS_CAUSE p) = 1 ∧ (s.stake n).posted (t.stake n) .legLinkFail 0 [p, 1]) ∧
  (∀ (s : State) (n p at_ : Nat) (sym : Symb) (rest : List (Symb × Nat)), s.present n = true → p < 4 →
    p < (s.stake n).leg.ports.length → ((s.stake n).lport p).expect = (sym, at_) :: rest → (s.stake n).link p = 3 →
    at_ + 1600 ≤ (s.stake n).now →
    ∃ t, exec (.eventMiss n p) s = .next t ∧ s.elsewhere t n ∧
      (t.stake n).rd (Reg.LEG_PORT_EVT_MISS_CNT p) = satAdd 16 ((s.stake n).rd (Reg.LEG_PORT_EVT_MISS_CNT p)) 1 ∧
      if 2 ≤ ((s.stake n).lport p).miss then (t.stake n).link p = 5
      else (t.stake n).link p = 3 ∧ ((t.stake n).lport p).expect = rest) ∧
  (∀ (s : State) (n : Nat) (src : Src) (w : Reg32), s.admits src n Reg.LEG_CTRL w → w.getLsbD 31 = true → w.getLsbD 0 = false →
    (s.stake n).flag Reg.LEG_CTRL_EN = false →
    ∃ t, exec (.legEnable n src w) s = .next t ∧ s.elsewhere t n ∧ (t.stake n).flag Reg.LEG_CTRL_EN = true ∧
      ∀ p, p < 4 → p < (s.stake n).leg.ports.length → (t.stake n).link p = (if (s.stake n).portPresent p then
        (if ((s.stake n).lport p).noDriver then 4 else 1) else (s.stake n).link p)) ∧
  (∀ (s : State) (n : Nat) (src : Src) (w : Reg32), s.admits src n Reg.LEG_CTRL w → w.getLsbD 31 = false → w.getLsbD 0 = false →
    (s.stake n).flag Reg.LEG_CTRL_EN = true →
    ∃ t, exec (.legDisable n src w) s = .next t ∧ s.elsewhere t n ∧
      if (s.stake n).axisIn [axOff, axSafe] then (t.stake n).flag Reg.LEG_CTRL_EN = false ∧ ∀ p, p < 4 → (t.stake n).link p = 0
      else (t.stake n).flag Reg.LEG_CTRL_EN = true ∧ (t.stake n).flag Reg.LEG_STATUS_CFG_REFUSED = true ∧
        (t.stake n).leg = (s.stake n).leg ∧ (s.stake n).posted (t.stake n) .legCfgRefused 0 [])

/-- R246, R253, R262, R264, R265, R268, R269, R271: the commands of a port: restart, clear, sum request, self-test, splice, each refused
outside the states it needs; a profile step is written and sent on; settings take effect by `APPLY`; a refresh falls due and starts at the
latest at its limit. -/
def Obligations.LegCommands : Prop :=
  (∀ (s : State) (n p : Nat) (src : Src) (w : Reg32), p < 4 → s.admits src n (Reg.LEG_PORT_CMD p) w →
    p < (s.stake n).leg.ports.length →
    let k := s.stake n
    let quiet := k.axisIn [axOff, axSafe]
    let refused := fun (t : State) => (t.stake n).flag Reg.LEG_STATUS_CFG_REFUSED = true ∧ (t.stake n).leg = k.leg ∧
      k.posted (t.stake n) .legCfgRefused 0 [p]
    (w &&& 0x1F = 1 → ∃ t, exec (.legRestart n src p w) s = .next t ∧ s.elsewhere t n ∧ (quiet = false → refused t) ∧
      (quiet = true → k.flag Reg.LEG_CTRL_EN = true → k.portPresent p = true → (k.lport p).noDriver = false →
        (t.stake n).link p = 1 ∧ (t.stake n).flag (Reg.LEG_PORT_STATUS_SPARE p) = (k.lport p).mainBad ∧
        ((t.stake n).lport p).started = k.now)) ∧
    (w &&& 0x1F = 2 → ∃ t, exec (.legClear n src p w) s = .next t ∧ s.elsewhere t n ∧ (quiet = false → refused t) ∧
      (quiet = true → 2 ≤ k.link p → ((t.stake n).lport p).out = (k.lport p).out ++ [.clear] ∧ (t.stake n).regs = k.regs)) ∧
    (w &&& 0x1F = 4 → 2 ≤ k.link p → ∃ t, exec (.legSumRequest n src p w) s = .next t ∧ s.elsewhere t n ∧
      ((t.stake n).lport p).out = (k.lport p).out ++ [.sumReq] ∧ (t.stake n).regs = k.regs) ∧
    (w &&& 0x1F = 8 → ∃ t, exec (.legSelftest n src p w) s = .next t ∧ s.elsewhere t n ∧
      (k.link p ≠ 3 ∨ k.axis ≠ axTest → refused t) ∧
      (k.link p = 3 → k.axis = axTest → (t.stake n).fld (Reg.LEG_PORT_TEST_STEP p) = 1 ∧ (t.stake n).fld (Reg.LEG_PORT_TEST_PASS p) = 0 ∧
        ((t.stake n).lport p).test = some { step := 1, since := none } ∧ .test 1 ∈ ((t.stake n).lport p).out ∧
        k.modeFrame p true ∈ ((t.stake n).lport p).out)) ∧
    (w &&& 0x1F = 16 → 2 ≤ k.link p → k.flag (Reg.LEG_PORT_STATUS_SPARE p) = false →
      ∃ t, exec (.legSplice n src p w) s = .next t ∧ s.elsewhere t n ∧ (t.stake n).flag (Reg.LEG_PORT_STATUS_SPARE p) = true ∧
        (t.stake n).rd (Reg.LEG_PORT_SPLICE_CNT p) = satAdd 16 (k.rd (Reg.LEG_PORT_SPLICE_CNT p)) 1 ∧
        (t.stake n).modeFrame p (k.portFdt p) ∈ ((t.stake n).lport p).out ∧
        k.posted (t.stake n) .legLaneSplice 0 [p, 1])) ∧
  (∀ (s : State) (n p q st : Nat) (src : Src) (w : Reg32), p < 4 → q < 16 → st < 4 → p < (s.stake n).leg.ports.length →
    let off := 0xC0000 + 0x100 * p + 0x10 * q + 4 * st
    let k := s.stake n
    s.admits src n off w →
    ∃ t, exec (.legProfileWrite n src p q st w) s = .next t ∧ s.elsewhere t n ∧
      if k.link p = 3 ∧ k.axisIn [axOff, axSafe] = false ∧ k.profileUsed p q = true then
        (t.stake n).rd off = k.rd off ∧ (t.stake n).leg = k.leg ∧ k.posted (t.stake n) .legCfgRefused 0 [p]
      else (t.stake n).rd off = w &&& 0xFFFF ∧ k.regsKept (t.stake n) [off] ∧ ((t.stake n).lport p).out =
        (if k.link p = 2 ∨ k.link p = 3 then ((k.lport p).out.filter fun f => f ≠ .sumReq) ++
          [.psel q st, .pstep ((Fld.mk 0 10 6).of w) ((Fld.mk 0 0 10).of w), .sumReq] else (k.lport p).out)) ∧
  (∀ (s : State) (n : Nat) (src : Src) (w : Reg32), s.admits src n Reg.LEG_CTRL w → w.getLsbD 0 = true →
    w.getLsbD 31 = (s.stake n).flag Reg.LEG_CTRL_EN →
    ∃ t, exec (.legApply n src w) s = .next t ∧ s.elsewhere t n ∧
      if (s.stake n).axisIn [axOff, axSafe, axTest] && [0, 1, 2, 3].all (s.stake n).bootOk then
        ∀ p, p < 4 → (t.stake n).rdAct (Reg.LEG_PORT_CFG p) = (s.stake n).rd (Reg.LEG_PORT_CFG p) ∧
          (t.stake n).rdAct (Reg.LEG_PORT_DEF p) = (s.stake n).rd (Reg.LEG_PORT_DEF p)
      else (t.stake n).flag Reg.LEG_STATUS_CFG_REFUSED = true ∧ (t.stake n).act = (s.stake n).act ∧
        (s.stake n).posted (t.stake n) .legCfgRefused 0 []) ∧
  (∀ (s : State) (n p : Nat), s.present n = true → (s.stake n).refreshNeeded p (s.stake n).now = true →
    (∃ t, exec (.refreshDue n p) s = .next t ∧ s.elsewhere t n ∧ (t.stake n).flag (Reg.LEG_PORT_STATUS_REFRESH_DUE p) = true) ∧
    ((s.stake n).refreshLatest p ≤ (s.stake n).now → p < (s.stake n).modu.ports.length →
      ∃ t, exec (.refreshLatestStart n p) s = .next t ∧ s.elsewhere t n ∧ (t.stake n).flag (Reg.LEG_PORT_STATUS_REFRESH_DUE p) = true ∧
        (t.stake n).rd (Reg.LEG_PORT_REFRESH_CNT p) = satAdd 16 ((s.stake n).rd (Reg.LEG_PORT_REFRESH_CNT p)) 1))


/-! Protection. -/

/-- R277 to R286, R295 to R297: a trip that reaches the sequencer takes the axis to SAFE in the sub-state the resolver gives, all phase ports
seized and the seizure reported; one of a phase port opens the short-circuit window, which closes and is decided; an F3 request does
what a trip of cause 10 does; the turn-on symbols of an ASC follow its delay. -/
def Obligations.SequencerSeizes : Prop :=
  (∀ (s : State) (n cause at_ : Nat) (rest : List Trip), s.present n = true → (s.stake n).prt.trips = ⟨cause, none, at_⟩ :: rest →
    cause < 16 → (s.stake n).openEpisode = false → (s.stake n).pairSt = 0 → (s.stake n).fe.catching = none →
    (s.stake n).axis ≠ axNotReady → (s.stake n).flag Reg.PLT_PS_STATUS_SEIZED = false →
    ∃ t, exec (.sequencerTrip n) s = .next t ∧ s.elsewhere t n ∧
      let k := s.stake n
      let j := t.stake n
      j.prt.trips = rest ∧ j.axis = axSafe ∧ j.flag Reg.PLT_PS_STATUS_SEIZED = true ∧ j.fld Reg.PLT_PS_STATUS_CAUSE = cause ∧
      j.fld Reg.PLT_PS_STATUS_SUBSTATE = k.resolve (k.causeWhy cause) k.latchBand ∧
      (∀ p ∈ k.phasePorts, p < k.modu.ports.length → (j.mport p).seized = true) ∧
      ∃ vals, k.posted j .psSafeState 0 (j.fld Reg.PLT_PS_STATUS_SUBSTATE :: cause :: vals)) ∧
  (∀ (s : State) (n cause p at_ : Nat) (rest : List Trip), s.present n = true →
    (s.stake n).prt.trips = ⟨cause, some p, at_⟩ :: rest → cause < 16 → p < 3 → (s.stake n).portPresent p = true →
    (s.stake n).openEpisode = false → (s.stake n).pairSt = 0 → (s.stake n).fe.catching = none → (s.stake n).axis ≠ axNotReady →
    ∃ t e, exec (.sequencerTrip n) s = .next t ∧ s.elsewhere t n ∧ (t.stake n).prt.trips = rest ∧ (t.stake n).prt.episode = some e ∧
      e.start = (s.stake n).now ∧ e.faulted = [p] ∧ e.closed = none ∧ (t.stake n).axis = axSafe ∧
      (t.stake n).flag Reg.PLT_PS_STATUS_WINDOW = true ∧ (t.stake n).fld Reg.PLT_PS_STATUS_LEG_FAULT = 2 ^ p ∧
      (t.stake n).fld Reg.PLT_PS_STATUS_SUBSTATE = 1) ∧
  (∀ (s : State) (n : Nat) (e : Episode) (bits : List (List Bool)), s.present n = true → (s.stake n).prt.episode = some e →
    e.closed = none → e.start + 400 ≤ (s.stake n).now →
    ∃ t e', exec (.windowClose n bits) s = .next t ∧ s.elsewhere t n ∧ (t.stake n).flag Reg.PLT_PS_STATUS_WINDOW = false ∧
      (t.stake n).prt.episode = some e' ∧ e'.closed = some (s.stake n).now ∧ e'.start = e.start) ∧
  (∀ (s : State) (n at_ : Nat) (e : Episode), s.present n = true → (s.stake n).prt.episode = some e → e.closed = some at_ →
    e.decided = false → at_ + 400 * (s.stake n).inForce Reg.PLT_PS_TIMING_T_SC_DECIDE ≤ (s.stake n).now →
    ∃ t e', exec (.scDecide n) s = .next t ∧ s.elsewhere t n ∧ (t.stake n).prt.episode = some e' ∧ e'.decided = true ∧
      (t.stake n).fld Reg.PLT_PS_STATUS_SUBSTATE = (s.stake n).resolve { short := true } (s.stake n).latchBand) ∧
  (∀ (s : State) (n : Nat) (q : F3Req) (rest : List F3Req), s.present n = true → (s.stake n).prt.f3 = q :: rest →
    (s.stake n).axis ≠ axNotReady → (s.stake n).vote.halted = false → (s.stake n).vote.resync = false → (s.stake n).fld Reg.PLT_VOTE_STATUS_MODE < 3 →
    (s.stake n).pairSt = 0 → q.fixed < 4 → q.ev ≠ .walTickSkew → (∀ x ∈ q :: rest, x.ev ≠ .pairBreak) → (s.stake n).openEpisode = false →
    (s.stake n).flag Reg.PLT_PS_STATUS_SEIZED = false → (s.stake n).fe.catching = none →
    ∃ t, exec (.safeStateRequest n) s = .next t ∧ s.elsewhere t n ∧ (t.stake n).axis = axSafe ∧
      (t.stake n).fld Reg.PLT_PS_STATUS_CAUSE = 10 ∧ (t.stake n).fld Reg.PLT_PS_STATUS_SUBSTATE =
        if (s.stake n).fld Reg.PLT_VOTE_STATUS_MODE = 2 ∨ q.off = true then 1
        else (s.stake n).resolve { fixed := q.fixed } ((s.stake n).bandFrom (s.stake n).prt.band)) ∧
  (∀ (s : State) (n at_ : Nat), s.present n = true → (s.stake n).prt.ascDue = some at_ → at_ ≤ (s.stake n).now →
    let sym : Symb := if (s.stake n).fld Reg.PLT_PS_STATUS_SUBSTATE = 3 then .hsOn else .lsOn
    ∃ t, exec (.ascDelayExpire n) s = .next t ∧ s.elsewhere t n ∧ t.stake n = { s.stake n with prt := { (s.stake n).prt with
      ascDue := none, gen := (s.stake n).prt.gen ++ (s.stake n).phasePorts.map fun p =>
        ⟨p, sym, max (s.stake n).now ((s.stake n).genFrom p)⟩ } })

/-- R161, R288, R289, R309, R354: ARM, DISARM, RUN, TEST and CATCH take the axis where R288 says and complete; with a refusal code they
change nothing but `REFUSE` and complete `REFUSED_STATE` with it. -/
def Obligations.AxisStarts : Prop :=
  (∀ (s : State) (n r c : Nat), s.axisAt n r c 1 →
    let k := s.stake n
    let x := k.driveRefusal s.cfgInForce axOff false true
    ∃ t, exec (.axisArm n r c) s = .next t ∧ s.axisElsewhere t n ∧
      (x = 0 → (t.stake n).axis = axArmed ∧ k.axisCompleted (t.stake n) r c 0 0) ∧
      (x ≠ 0 → k.axisCompleted (t.stake n) r c 5 x ∧ (t.stake n).fld Reg.PLT_AXIS_STATE_REFUSE = x ∧
        k.regsKept (t.stake n) [Reg.PLT_AXIS_STATE] ∧ (t.stake n).axis = k.axis)) ∧
  (∀ (s : State) (n r c : Nat), s.axisAt n r c 2 →
    let k := s.stake n
    ∃ t, exec (.axisDisarm n r c) s = .next t ∧ s.axisElsewhere t n ∧
      if k.axis ≠ axArmed then k.axisCompleted (t.stake n) r c 5 1 ∧ (t.stake n).axis = k.axis
      else if k.pairedFollower then k.axisCompleted (t.stake n) r c 5 5 ∧ (t.stake n).axis = k.axis
      else (t.stake n).axis = axOff ∧ k.axisCompleted (t.stake n) r c 0 0) ∧
  (∀ (s : State) (n r c : Nat), s.axisAt n r c 3 →
    let k := s.stake n
    let valid := (k.clock 0).valid
    let x := k.driveRefusal s.cfgInForce axArmed (!valid && !k.inForceB Reg.FLD_CATCH_GAP_CATCH_AUTO) true
    ∃ t, exec (.axisRun n r c) s = .next t ∧ s.axisElsewhere t n ∧
      (x = 0 → valid = true → (t.stake n).axis ∈ [axRun, axDerate] ∧ (t.stake n).modu.fdtEnter = true ∧
        (t.stake n).prt.freshAt = k.now ∧ k.axisCompleted (t.stake n) r c 0 0) ∧
      (x = 0 → valid = false → (t.stake n).axis = axCatch ∧ (t.stake n).fld Reg.FLD_STATUS_CATCH_STEP = 1 ∧
        (t.stake n).fe.catching = some { start := k.now, run := true, desc := some (r, c) }) ∧
      (x ≠ 0 → k.axisCompleted (t.stake n) r c 5 x ∧ (t.stake n).axis = k.axis)) ∧
  (∀ (s : State) (n r c : Nat), s.axisAt n r c 5 →
    let k := s.stake n
    let x := k.driveRefusal s.cfgInForce axOff false false
    ∃ t, exec (.axisTest n r c) s = .next t ∧ s.axisElsewhere t n ∧
      (x = 0 → (t.stake n).axis = axTest ∧ (t.stake n).modu.fdtEnter = true ∧ k.axisCompleted (t.stake n) r c 0 0) ∧
      (x ≠ 0 → k.axisCompleted (t.stake n) r c 5 x ∧ (t.stake n).axis = k.axis)) ∧
  (∀ (s : State) (n r c : Nat), s.axisAt n r c 6 →
    let k := s.stake n
    let x := k.driveRefusal s.cfgInForce axArmed false false
    ∃ t, exec (.axisCatch n r c) s = .next t ∧ s.axisElsewhere t n ∧
      (x = 0 → (t.stake n).axis = axCatch ∧ (t.stake n).fe.catching = some { start := k.now, run := false, desc := some (r, c) }) ∧
      (x ≠ 0 → k.axisCompleted (t.stake n) r c 5 x ∧ (t.stake n).axis = k.axis))

/-- R288, R290, R303 to R308, R354: STOP makes RUN and DERATE ramp down, ends TEST and CATCH, and ends a discharge by command while
`DISCH_REQ` is not asserted; DISCHARGE starts a discharge, which ramps T* down first from RUN and DERATE; CLEAR takes out of the active set
what no longer holds, but keeps F3 and F4 faults outside SAFE, and ends SAFE once none is left; RECOVER goes from SAFE to RUN or says why
not. In every other state of the axis the command is refused with its cause. `ball` and `faultin` are the levels of the stake's balls. -/
def Obligations.AxisEnds : Prop :=
  (∀ (s : State) (n r c : Nat) (ball : Bool), s.axisAt n r c 4 →
    let k := s.stake n
    let ok := k.axisIn [axRun, axDerate, axTest, axCatch] || (k.axisIn [axDischarge, axSafe] && k.stoppable ball)
    let x := firstCause [(!ok, 1), (k.pairedFollower, 5)]
    ∃ t, exec (.axisStop n r c ball) s = .next t ∧ s.axisElsewhere t n ∧
      (x ≠ 0 → k.axisCompleted (t.stake n) r c 5 x ∧ (t.stake n).axis = k.axis ∧ (t.stake n).fld Reg.PLT_AXIS_STATE_REFUSE = x) ∧
      (x = 0 → k.axisCompleted (t.stake n) r c 0 0 ∧
        (k.axis = axRun ∨ k.axis = axDerate → (t.stake n).flag Reg.PLT_AXIS_STATE_STOP_PENDING = true ∧ (t.stake n).axis = k.axis ∧
          (t.stake n).flag Reg.PLT_AXIS_STATE_F2_RAMP = true) ∧
        (k.axis = axTest → (t.stake n).axis = axOff) ∧
        (k.axis = axCatch → k.fe.catching ≠ none → (t.stake n).axis = axArmed ∧ (t.stake n).fe.catching = none) ∧
        (k.axis = axDischarge ∨ k.axis = axSafe → (t.stake n).prt.discharge = none ∧
          (t.stake n).axis = if k.axis = axSafe then axSafe else axOff))) ∧
  (∀ (s : State) (n r c : Nat), s.axisAt n r c 7 →
    let k := s.stake n
    let m := k.inForce Reg.PLT_DIS_CFG_DIS_MODE
    let running := ∃ d, k.prt.discharge = some d ∧ (k.axis = axSafe ∨ d.ramping = true)
    ∃ t, exec (.axisDischarge n r c) s = .next t ∧ s.axisElsewhere t n ∧
      (k.axisIn [axOff, axArmed, axRun, axDerate, axCatch, axTest, axSafe] = false ∨ k.splitOrHand = true ∨ running →
        k.axisCompleted (t.stake n) r c 5 1 ∧ (t.stake n).axis = k.axis ∧ (t.stake n).prt.discharge = k.prt.discharge) ∧
      (k.axisIn [axOff, axArmed, axRun, axDerate, axCatch, axTest, axSafe] = true → k.splitOrHand = false → ¬ running →
        (k.axis = axTest → k.testFailed = false) → k.pairSt = 0 ∨ k.pairedLeader = true → m ≠ 0 → s.cfgInForce = true →
        (m = 2 → k.carrierRuns = true) →
        k.axisCompleted (t.stake n) r c 0 0 ∧
        ∃ d, (t.stake n).prt.discharge = some d ∧ d.mode = m ∧ d.start = k.now ∧ d.byReq = false ∧
          (k.axis = axSafe → (t.stake n).axis = axSafe) ∧
          (k.axis = axRun ∨ k.axis = axDerate → d.ramping = true ∧ (t.stake n).axis = k.axis ∧
            (t.stake n).flag Reg.PLT_AXIS_STATE_STOP_PENDING = true) ∧
          (k.axisIn [axOff, axArmed, axTest] = true → d.ramping = false ∧ (t.stake n).axis = axDischarge ∧
            (m = 1 → (t.stake n).prt.disAux = true)) ∧
          (k.axis = axCatch → k.fe.catching ≠ none → (t.stake n).fe.catching = none ∧ (t.stake n).axis = axDischarge))) ∧
  (∀ (s : State) (n r c : Nat) (faultin : Bool), s.axisAt n r c 8 →
    let k := s.stake n
    ∃ t, exec (.axisClear n r c faultin) s = .next t ∧ s.axisElsewhere t n ∧
      (k.pairedFollower = true → k.axisCompleted (t.stake n) r c 5 5 ∧ (t.stake n).axis = k.axis ∧ (t.stake n).prt.active = k.prt.active) ∧
      (k.pairedFollower = false → k.axisCompleted (t.stake n) r c 0 0 ∧
        (∀ a ∈ (t.stake n).prt.active, a ∈ k.prt.active) ∧
        (k.hasFault .motorMismatch = false → ∀ a ∈ k.prt.active, a ∈ (t.stake n).prt.active ↔
          (3 ≤ a.cls ∧ k.axis ≠ axSafe) ∨ k.refreshBand.persists (s.held faultin) a.post.ev (nth 0 a.post.vals 0) = true) ∧
        (k.axis = axSafe → k.prt.discharge = none → k.fld Reg.PLT_PS_STATUS_SUBSTATE = 1 → (t.stake n).hasClass 3 = false →
          (t.stake n).hasClass 4 = false → (t.stake n).axis = axOff ∧ (t.stake n).prt.releasing = true ∧ (t.stake n).prt.episode = none))) ∧
  (∀ (s : State) (n r c : Nat) (faultin : Bool), s.axisAt n r c 9 →
    let k := s.stake n
    let q := (k.clearFaults (s.held faultin)).clearPorts
    let x := firstCause [(q.stopActive, 2), (!(q.clock 0).valid, 4), (q.portsBad [0, 1, 2], 3), (q.pairRefuses, 5)]
    ∃ t, exec (.axisRecover n r c faultin) s = .next t ∧ s.axisElsewhere t n ∧
      if k.axis ≠ axSafe then k.axisCompleted (t.stake n) r c 5 1 ∧ (t.stake n).axis = k.axis
      else if k.pairedFollower then k.axisCompleted (t.stake n) r c 5 5 ∧ (t.stake n).axis = axSafe
      else if x ≠ 0 then k.axisCompleted (t.stake n) r c 5 x ∧ (t.stake n).axis = axSafe
      else k.axisCompleted (t.stake n) r c 0 0 ∧ (t.stake n).axis ∈ [axRun, axDerate] ∧ (t.stake n).prt.releasing = true ∧
        (t.stake n).prt.episode = none)

/-- R283, R292, R288, R300 to R302, R305: what protection does when a time is over: the band latch is written and goes stale, a silent
plait trips, a stop completes, the chopper check and the torque window fail, the host's freshness has its stages, a discharge is late. -/
def Obligations.ProtectionTimes : Prop :=
  (∀ (s : State) (n : Nat), s.present n = true → (s.stake n).vote.halted = false → (s.stake n).vote.resync = false →
    (s.stake n).prt.bandAt + 40000 ≤ (s.stake n).now →
    ∃ t, exec (.bandLatchRefresh n) s = .next t ∧ s.elsewhere t n ∧ (t.stake n).prt.latchAt = (s.stake n).now ∧
      (t.stake n).flag Reg.PLT_PS_STATUS_STALE = false ∧
      (t.stake n).fld Reg.PLT_PS_STATUS_BAND = (s.stake n).bandFrom (s.stake n).prt.band % 4 ∧
      (s.stake n).regsKept (t.stake n) [Reg.PLT_PS_STATUS]) ∧
  (∀ (s : State) (n : Nat), s.present n = true → (s.stake n).latchAged 1 = true → (s.stake n).flag Reg.PLT_PS_STATUS_STALE = false →
    ∃ t, exec (.latchStale n) s = .next t ∧ s.elsewhere t n ∧ (t.stake n).flag Reg.PLT_PS_STATUS_STALE = true ∧
      (t.stake n).rd Reg.PLT_LATCH_STALE_CNT = satAdd 16 ((s.stake n).rd Reg.PLT_LATCH_STALE_CNT) 1 ∧
      (s.stake n).posted (t.stake n) .psLatchStale 0 [] ∧
      (s.stake n).regsKept (t.stake n) [Reg.PLT_PS_STATUS, Reg.PLT_LATCH_STALE_CNT]) ∧
  (∀ (s : State) (n : Nat), s.present n = true → (s.stake n).latchAged 4 = true → (s.stake n).openEpisode = false →
    (s.stake n).axisIn [axRun, axDerate, axCatch, axDischarge, axTest] = true →
    ∃ t, exec (.plaitSilent n) s = .next t ∧ s.elsewhere t n ∧ (t.stake n).axis = axSafe ∧
      (t.stake n).flag Reg.PLT_PS_STATUS_SEIZED = true ∧ (s.stake n).posted (t.stake n) .psPlaitSilent 4 []) ∧
  (∀ (s : State) (n : Nat), s.present n = true → (s.stake n).flag Reg.PLT_AXIS_STATE_STOP_PENDING = true →
    (s.stake n).axis = axRun ∨ (s.stake n).axis = axDerate → (∀ d, (s.stake n).prt.discharge = some d → d.ramping = false) →
    (s.stake n).fe.tStar = 0 →
    (s.stake n).bandFrom (s.stake n).prt.band = 0 →
    ∃ t, exec (.stopComplete n) s = .next t ∧ s.elsewhere t n ∧ (t.stake n).axis = axArmed ∧
      (t.stake n).flag Reg.PLT_AXIS_STATE_STOP_PENDING = false) ∧
  (∀ (s : State) (n at_ i : Nat), s.present n = true → (s.stake n).prt.check = some (some at_, i) →
    at_ + 400 * (s.stake n).inForce Reg.PLT_CHOP_CFG_T_CHK ≤ (s.stake n).now →
    ∃ t, exec (.chopperCheckTimeout n) s = .next t ∧ s.elsewhere t n ∧ (t.stake n).prt.check = none ∧
      (s.stake n).posted (t.stake n) .chopperFault 1
        [word ((s.stake n).chan ((s.stake n).inForce Reg.PLT_CHOP_CFG_CHOP_CH)).y, (s.stake n).prt.udc.toNat]) ∧
  (∀ (s : State) (n : Nat), s.present n = true → (s.stake n).inForceB Reg.PLT_TMON_CTRL_EN = true →
    (s.stake n).prt.winStale = false → (s.stake n).vote.halted = false → (s.stake n).vote.resync = false →
    let since := (s.stake n).prt.winAt.getD 0
    since + 400000 * (s.stake n).inForce Reg.PLT_TMON_CTRL_T_WIN ≤ (s.stake n).now →
    ∃ t, exec (.tmonWindowTimeout n) s = .next t ∧ s.elsewhere t n ∧ (t.stake n).prt.winStale = true ∧
      (s.stake n).posted (t.stake n) .tmonWinStale 2 [(s.stake n).now - since]) ∧
  (∀ (s : State) (n : Nat), s.present n = true → (s.stake n).freshOver ((s.stake n).inForce Reg.PLT_FRESH_T_FRESH) = true →
    (s.stake n).fld Reg.PLT_AXIS_STATE_FRESH = 0 →
    ∃ t, exec (.hostFreshTimeout n) s = .next t ∧ s.elsewhere t n ∧ (t.stake n).fld Reg.PLT_AXIS_STATE_FRESH = 1 ∧
      (t.stake n).rd Reg.PLT_FRESH_CNT = satAdd 16 ((s.stake n).rd Reg.PLT_FRESH_CNT) 1 ∧
      (s.stake n).posted (t.stake n) .hostStale 2 [(s.stake n).inForce Reg.PLT_FRESH_T_FRESH]) ∧
  (∀ (s : State) (n : Nat), s.present n = true → (s.stake n).freshOver ((s.stake n).inForce Reg.PLT_FRESH_T_LOSS) = true →
    (s.stake n).fld Reg.PLT_AXIS_STATE_FRESH ≠ 3 →
    ∃ t, exec (.hostLossTimeout n) s = .next t ∧ s.elsewhere t n ∧
      if (s.stake n).flag Reg.PLT_AXIS_STATE_FALLBACK = false ∧ (s.stake n).inForceB Reg.PLT_FRESH_FB_PERMIT = true ∧ s.fallbackServed n = true then
        (t.stake n).fld Reg.PLT_AXIS_STATE_FRESH = 2 ∧ (t.stake n).flag Reg.PLT_AXIS_STATE_FALLBACK = true ∧
        (s.stake n).posted (t.stake n) .hostLoss 0 [1]
      else (t.stake n).fld Reg.PLT_AXIS_STATE_FRESH = 3 ∧ (s.stake n).posted (t.stake n) .hostLoss 3 [0]) ∧
  (∀ (s : State) (n : Nat) (d : Discharge), s.present n = true → (s.stake n).prt.discharge = some d → d.late = false →
    d.start + 400000 * (s.stake n).inForce Reg.PLT_DIS_TIME_T_DIS_MAX ≤ (s.stake n).now →
    ∃ t, exec (.dischargeTimeLimit n) s = .next t ∧ s.elsewhere t n ∧
      (t.stake n).prt.discharge = (if d.unserved ∨ (d.mode = 2 ∧ (s.stake n).axis ≠ axDischarge ∧ d.ramping = false) then none
        else some { d with late := true }) ∧
      (s.stake n).posted (t.stake n) .dischargeIncomplete 1 [(s.stake n).prt.udc.toNat, d.mode])

/-- R279, R303, R310: the protection balls and the settings: `DISCH_REQ` starts a discharge on every stake that enables it, `FAULTIN` trips or
asks for a safe state by its class, `APPLY` takes settings that meet R310 and refuses others with the cause. -/
def Obligations.ProtectionInputs : Prop :=
  (∀ (s : State) (held : Nat), held < 4000 → exec (.dischReqAssert held) s = .next s) ∧
  (∀ (s : State) (held : Nat), 4000 ≤ held →
    ∃ t, exec (.dischReqAssert held) s = .next t ∧ t.pkg = s.pkg ∧ t.part = s.part ∧ ∀ n, s.present n = true →
    let k := s.stake n
    (k.inForceB Reg.PLT_DIS_CFG_REQ_EN = false → t.stake n = k) ∧
    (k.inForceB Reg.PLT_DIS_CFG_REQ_EN = true → k.inForce Reg.PLT_DIS_CFG_DIS_MODE = 1 → k.axis = axOff ∨ k.axis = axArmed →
      k.splitOrHand = false → k.prt.discharge = none →
      ∃ d, (t.stake n).axis = axDischarge ∧ (t.stake n).prt.discharge = some d ∧ d.byReq = true ∧ d.start = k.now ∧
        (t.stake n).prt.disAux = true)) ∧
  (∀ (s : State) (n held : Nat), s.present n = true → (s.stake n).inForceB Reg.PLT_PS_SRC_FI_EN = true →
    10 * (s.stake n).inForce Reg.PLT_PS_SRC_FI_FILT ≤ held →
    ∃ t, exec (.faultinAssert n held) s = .next t ∧ s.elsewhere t n ∧
      if (s.stake n).inForceB Reg.PLT_PS_SRC_FI_CLASS then (s.stake n).posted (t.stake n) .faultinAssert 4 [] ∧
        (t.stake n).prt.trips = (s.stake n).prt.trips ++ [⟨5, none, (s.stake n).now⟩]
      else (s.stake n).posted (t.stake n) .faultinAssert 3 [] ∧ (t.stake n).prt.f3 = (s.stake n).prt.f3 ++
        [⟨.faultinAssert, (s.stake n).inForce Reg.PLT_PS_SRC_FI_STATE, (s.stake n).now, 2 ≤ (s.stake n).fld Reg.PLT_VOTE_STATUS_MODE⟩]) ∧
  (∀ (s : State) (n : Nat) (src : Src) (w : Reg32), s.admits src n Reg.PLT_PR_CTRL w → w.getLsbD 0 = true →
    let q := (s.stake n).store Reg.PLT_PR_CTRL w
    let c := q.pltCfgCause
    ∃ t, exec (.pltApply n src w) s = .next t ∧ s.elsewhere t n ∧
      if c = 0 then (∀ off, 0x70800 ≤ off → off < 0x70880 → (t.stake n).rdAct off = q.rd off) ∧ (t.stake n).regs = q.regs
      else (t.stake n).fld Reg.PLT_PR_STATUS_CFG_CAUSE = c ∧ (t.stake n).flag Reg.PLT_PR_STATUS_CFG_REFUSED = true ∧
        (t.stake n).act = (s.stake n).act ∧ (s.stake n).posted (t.stake n) .pltCfgRefused 0 [c])


/-! The plait. -/

/-- R313 to R322, R335, R336: a core that dissents is fenced, or left out where no resynchronisation is enabled; with no majority the
plait halts and signals the sequencer; a resynchronisation runs and ends; mode requests are taken or refused with a cause; hand-overs end;
scrubbing and wear are counted. -/
def Obligations.PlaitVotes : Prop :=
  (∀ (s : State) (n : Nat) (a b c : CoreOut), s.present n = true → (s.stake n).vote.halted = false →
    let k := s.stake n
    let out := k.fld Reg.PLT_VOTE_STATUS_FENCED ||| k.fld Reg.PLT_VOTE_STATUS_LEFT_OUT
    let bus := dissenters out a.bus b.bus c.bus
    let reg := dissenters out a.regs b.regs c.regs
    let cores := bus ||| reg
    let kind := (if bus = 0 then 0 else 1) + (if reg = 0 then 0 else 2)
    ∃ t, exec (.voterDissent n a b c) s = .next t ∧ s.elsewhere t n ∧
      (k.voteMode = 0 → coreCount cores = 1 → nth none k.vote.passed (coreOf cores) = none →
        (t.stake n).voteMode = 1 ∧ k.posted (t.stake n) .pltCoreFenced 0 [coreOf cores, kind] ∧
        (t.stake n).rd Reg.PLT_DIVERGE_CNT = satAdd 16 (k.rd Reg.PLT_DIVERGE_CNT) 1 ∧
        if k.inForceB Reg.PLT_VOTE_CFG_RESYNC_EN then (t.stake n).fld Reg.PLT_VOTE_STATUS_FENCED = cores
        else (t.stake n).fld Reg.PLT_VOTE_STATUS_FENCED = 0 ∧
          (t.stake n).fld Reg.PLT_VOTE_STATUS_LEFT_OUT = k.fld Reg.PLT_VOTE_STATUS_LEFT_OUT ||| cores) ∧
      (k.voteMode < 2 → 2 ≤ coreCount cores ∨ (k.voteMode = 1 ∧ cores ≠ 0) → (t.stake n).vote.halted = true ∧
        (t.stake n).prt.trips = k.prt.trips ++ [⟨6, none, k.now⟩] ∧
        ∃ v, k.posted (t.stake n) .pltStakeFault 4 [v])) ∧
  (∀ (s : State) (n : Nat), s.present n = true → (s.stake n).vote.halted = false →
    ∃ t, exec (.plaitReadUe n) s = .next t ∧ s.elsewhere t n ∧ (t.stake n).vote.halted = true ∧
      (t.stake n).prt.trips = (s.stake n).prt.trips ++ [⟨6, none, (s.stake n).now⟩] ∧
      (s.stake n).posted (t.stake n) .pltStakeFault 4 [((s.stake n).rd Reg.PLT_LAST_DIV).toNat]) ∧
  (∀ (s : State) (n : Nat), s.present n = true → (s.stake n).voteMode = 1 → (s.stake n).fld Reg.PLT_VOTE_STATUS_FENCED ≠ 0 →
    (s.stake n).vote.halted = false → (s.stake n).vote.resync = false →
    (∀ at_, (s.stake n).vote.failedAt = some at_ → at_ + 400000 ≤ (s.stake n).now) →
    ∃ t, exec (.resyncStart n) s = .next t ∧ s.elsewhere t n ∧
      (t.stake n).rdAct Reg.PLT_VOTE_CFG = (s.stake n).rd Reg.PLT_VOTE_CFG ∧
      if (s.stake n).flag Reg.PLT_VOTE_CFG_RESYNC_EN then
        t.stake n = { s.stake n with act := (t.stake n).act, vote := { (s.stake n).vote with resync := true } }
      else (t.stake n).vote.resync = false ∧ (t.stake n).fld Reg.PLT_VOTE_STATUS_FENCED = 0 ∧
        (s.stake n).posted (t.stake n) .pltCoreLeftOut 0 [coreOf ((s.stake n).fld Reg.PLT_VOTE_STATUS_FENCED)]) ∧
  (∀ (s : State) (n a b c : Nat), s.present n = true → (s.stake n).vote.resync = true → (s.stake n).vote.tasks = [] →
    let core := coreOf ((s.stake n).fld Reg.PLT_VOTE_STATUS_FENCED)
    ∃ t, exec (.resyncDone n a b c) s = .next t ∧ s.elsewhere t n ∧ (t.stake n).vote.resync = false ∧
      if a = b ∧ b = c then (t.stake n).voteMode = 0 ∧ (t.stake n).fld Reg.PLT_VOTE_STATUS_FENCED = 0 ∧
        (t.stake n).rd Reg.PLT_RESYNC_CNT = satAdd 16 ((s.stake n).rd Reg.PLT_RESYNC_CNT) 1 ∧
        (s.stake n).posted (t.stake n) .pltResync 0 [core]
      else (t.stake n).rd Reg.PLT_RESYNC_FAIL_CNT = satAdd 16 ((s.stake n).rd Reg.PLT_RESYNC_FAIL_CNT) 1 ∧
        (t.stake n).voteMode = (s.stake n).voteMode ∧
        ((s.stake n).inForce Reg.PLT_VOTE_CFG_RESYNC_TRIES ≤ min 15 ((s.stake n).fld Reg.PLT_VOTE_STATUS_TRIES + 1) →
          (s.stake n).posted (t.stake n) .pltCoreLeftOut 0 [core])) ∧
  (∀ (s : State) (n : Nat) (src : Src) (w : Reg32) (split : Bool), s.admits src n Reg.PLT_MODE w → w.getLsbD 0 = split →
    w.getLsbD 1 = !split →
    let x := (s.stake n).modeCause split
    ∃ t, exec (if split then .plaitToSplit n src w else .plaitToVoted n src w) s = .next t ∧ s.elsewhere t n ∧
      (x = 0 → (t.stake n).voteMode = 3 ∧ (t.stake n).vote.handover = some ⟨split, none⟩) ∧
      (x ≠ 0 → (t.stake n).voteMode = (s.stake n).voteMode ∧ (t.stake n).fld Reg.PLT_MODE_MODE_REFUSE = x ∧
        (t.stake n).flag Reg.PLT_MODE_MODE_REFUSED = true ∧ (s.stake n).posted (t.stake n) .pltModeRefused 0 [x])) ∧
  (∀ (s : State) (n : Nat) (split : Bool), s.present n = true → (s.stake n).vote.handover = some ⟨split, none⟩ →
    (s.stake n).vote.dischDue = false →
    let m := if split then 2 else 0
    ∀ digest, ∃ t, exec (.handoverDone n digest digest digest) s = .next t ∧ s.elsewhere t n ∧ (t.stake n).voteMode = m ∧ (t.stake n).vote.handover = none ∧
      (s.stake n).posted (t.stake n) .pltModeChange 0 [m] ∧ (s.stake n).regsKept (t.stake n) [Reg.PLT_VOTE_STATUS]) ∧
  (∀ (s : State) (n addr : Nat), s.present n = true →
    (∃ t, exec (.scrubLine n addr 1 false) s = .next t ∧ s.elsewhere t n ∧
      (t.stake n).rd Reg.SPL_SCRUB_CORR = satAdd 16 ((s.stake n).rd Reg.SPL_SCRUB_CORR) 1 ∧
      (s.stake n).regsKept (t.stake n) [Reg.SPL_SCRUB_CORR]) ∧
    ∃ t, exec (.scrubLine n addr 2 false) s = .next t ∧ s.elsewhere t n ∧
      (t.stake n).rd Reg.SPL_SCRUB_UE_CNT = satAdd 16 ((s.stake n).rd Reg.SPL_SCRUB_UE_CNT) 1 ∧
      (s.stake n).posted (t.stake n) .splSramUe 3 [addr]) ∧
  (∀ (s : State) (n : Nat) (ppm : List Nat), s.present n = true →
    ∃ t, exec (.wearMeasure n ppm) s = .next t ∧ s.elsewhere t n ∧
      (t.stake n).fld Reg.SPL_WEAR_AGE_MONITOR = (worstOf (ppm.take 4)).1 ∧
      (t.stake n).fld Reg.SPL_WEAR_AGE_AGE_PPM = min 65535 (worstOf (ppm.take 4)).2 ∧
      (s.stake n).regsKept (t.stake n) [Reg.SPL_WEAR_AGE])

/-! Supply, clocks and temperature. -/

/-- R403 to R407, R410 to R420: levels of the supply and clocks set their flags and post, though in reset a level alone is taken; brown-out
and a rail fault reset the package but keep what persists, with the row operation and the bit under way completed; a die above 175 °C and a
lost core clock trip the sequencer, the latter with the stake's links; a temperature is shown and a limit enforced. -/
def Obligations.SupplyClocksThermal : Prop :=
  (∀ (s : State) (n mv : Nat), s.present n = true →
    let s' := s.onSup n fun x => { x with vsup := some mv }
    let shown := fun (t : State) => (t.stake n).fld Reg.SUP_STATUS_VSUP_MV = mv % 65536
    (3700 < mv → s.inReset = false → (s.stake n).flag Reg.SUP_STATUS_OV = false →
      ∃ t, exec (.supOvervolt n mv) s = .next t ∧ s'.elsewhere t n ∧ shown t ∧ (t.stake n).flag Reg.SUP_STATUS_OV = true ∧
        (t.stake n).flag Reg.SUP_STATUS_OV_SEEN = true ∧ (s.stake n).posted (t.stake n) .supOvervolt 1 [mv]) ∧
    (mv ≤ 3700 → ∃ t, exec (.supOvervoltEnd n mv) s = .next t ∧ s'.elsewhere t n ∧ shown t ∧ (t.stake n).flag Reg.SUP_STATUS_OV = false ∧
      (t.stake n).flag Reg.SUP_STATUS_OV_SEEN = (s.stake n).flag Reg.SUP_STATUS_OV_SEEN ∧
      (s.stake n).regsKept (t.stake n) [Reg.SUP_STATUS]) ∧
    (∀ progress, (s.pkg.boot.cfgOp = none ∧ s.pkg.boot.rwOp = none) ∨ n ≠ 0 → mv < 3050 → s.inReset = false →
      (s.stake n).flag Reg.SUP_STATUS_INHIBIT = false →
      ∃ t, exec (.supInhibitEnter n mv progress) s = .next t ∧ s'.elsewhere t n ∧ shown t ∧ (t.stake n).flag Reg.SUP_STATUS_INHIBIT = true ∧
        (t.stake n).flag Reg.SUP_STATUS_INHIBIT_SEEN = true ∧
        (t.stake n).rd Reg.SUP_INHIBIT_CNT = satAdd 16 ((s.stake n).rd Reg.SUP_INHIBIT_CNT) 1 ∧
        (s.stake n).posted (t.stake n) .supInhibit 0 [mv] ∧ (s.stake n).regsKept (t.stake n) [Reg.SUP_STATUS, Reg.SUP_INHIBIT_CNT]) ∧
    (∀ progress, mv < 3050 → s.inReset = true →
      ∃ t, exec (.supInhibitEnter n mv progress) s = .next t ∧ s'.elsewhere t n ∧ (t.stake n).flag Reg.SUP_STATUS_INHIBIT = true ∧
        (t.stake n).out = (s.stake n).out ∧ (s.stake n).regsKept (t.stake n) [Reg.SUP_STATUS]) ∧
    (3100 < mv → ∃ t, exec (.supInhibitExit n mv) s = .next t ∧ s'.elsewhere t n ∧ shown t ∧
      (t.stake n).flag Reg.SUP_STATUS_INHIBIT = false ∧ (s.stake n).regsKept (t.stake n) [Reg.SUP_STATUS])) ∧
  (∀ (s : State) (n progress : Nat), s.present n = true →
    ∀ c, (∃ mv, mv < 2850 ∧ c = Instr.brownOut n mv progress) ∨ (∃ va vc, (va < 1656 ∨ 1944 < va ∨ vc < 690 ∨ 810 < vc) ∧
        c = Instr.railFault n va vc progress) →
      let nv := s.cfgPartial progress
      ∃ t, exec c s = .next t ∧ t.part = s.part ∧ t.pending = s.pending ∧ t.pkg.host.writes = s.pkg.host.writes ∧
        t.pkg.nv = (match s.pkg.boot.otpUnderWay with | some b => nv.blow b | none => nv) ∧ t.pkg.evq = [] ∧ t.pkg.boot.phase = .held ∧
        ∀ m, m < 8 → t.stake m = { (Stake.reset m).putB Reg.SUP_STATUS_INHIBIT ((s.stake m).flag Reg.SUP_STATUS_INHIBIT) with
          ringN := s.part.stakes, fresh := (s.stake m).fresh }) ∧
  (∀ (s : State) (n vana : Nat), s.present n = true → n < s.pkg.sup.length → s.inReset = false → vana < 1104 ∨ 1296 < vana →
    ∃ t, exec (.supVana n vana) s = .next t ∧ (s.onSup n fun x => { x with vana := some vana }).elsewhere t n ∧
      (t.stake n).fld Reg.SUP_RAILS_VANA_MV = vana % 2048 ∧ ∃ a b, (s.stake n).posted (t.stake n) .supVana 3 [a, b, vana]) ∧
  (∀ (s : State) (n count : Nat), s.present n = true →
    (340 ≤ count → count ≤ 460 → ∃ t, exec (.coreClockLost n count) s = .next t ∧ s.elsewhere t n ∧
      t.stake n = (s.stake n).put Reg.CLK_STATUS_CORE_COUNT count) ∧
    ((s.stake n).stopped = false → s.nbr n .asc ≠ n → s.nbr n .dsc ≠ n → count < 340 ∨ 460 < count →
      ∃ t, exec (.coreClockLost n count) s = .next t ∧ s.pkg.regsKept t.pkg [Reg.HIF_PKG_ALIVE] ∧ s.pkg.restKept t.pkg ∧
        (t.stake n).stopped = true ∧ (t.stake n).vote.halted = true ∧
        (t.stake n).prt.trips = (s.stake n).prt.trips ++ [⟨7, none, (s.stake n).now⟩] ∧ (t.stake n).dirUp .asc = false ∧
        (t.stake n).dirUp .dsc = false ∧ (t.stake (s.nbr n .asc)).dirUp .dsc = false ∧ (t.stake (s.nbr n .dsc)).dirUp .asc = false ∧
        (t.stake n).flag Reg.WAL_STATUS_RING_OPEN = true ∧ ((s.stake n).id ≠ 0 → (s.stake n).posted (t.stake n) .clkLost 4 [count]))) ∧
  (∀ (s : State) (n count : Nat), s.present n = true →
    (∀ lock, (s.stake n).flag Reg.CLK_STATUS_PLL_LOCK = true → refInside count = false ∨ lock = true →
      ∃ t, exec (.clkRefLoss n count lock) s = .next t ∧ s.elsewhere t n ∧
      (t.stake n).flag Reg.CLK_STATUS_REF_OK = refInside count ∧ (t.stake n).flag Reg.CLK_STATUS_PLL_LOCK = false ∧
      (t.stake n).flag Reg.CLK_STATUS_REF_LOST = true ∧ (s.stake n).posted (t.stake n) .clkRefLoss 3 []) ∧
    (refInside count = true → ∃ t, exec (.referenceReturn n count) s = .next t ∧ s.elsewhere t n ∧
      (t.stake n).flag Reg.CLK_STATUS_REF_OK = true ∧
      (t.stake n).flag Reg.CLK_STATUS_PLL_LOCK = (s.stake n).flag Reg.CLK_STATUS_PLL_LOCK ∧
      (s.stake n).regsKept (t.stake n) [Reg.CLK_STATUS])) ∧
  (∀ (s : State) (n m : Nat), s.present n = true → m < 4 →
    let f := Reg.CLK_STATUS_MCLK_FAULT
    ((s.stake n).inForceB (Reg.SNS_MCLK_EN m) = true → ((s.stake n).fld f).testBit m = false →
      ∃ t, exec (.clkMclkFault n m) s = .next t ∧ s.elsewhere t n ∧ (t.stake n).fld f = (s.stake n).fld f ||| 2 ^ m ∧
        (t.stake n).rd Reg.CLK_MCLK_FAULT_CNT = satAdd 16 ((s.stake n).rd Reg.CLK_MCLK_FAULT_CNT) 1 ∧
        (s.stake n).posted (t.stake n) .clkMclkFault ((s.stake n).fld Reg.CLK_CFG_MCLK_CLASS) [m]) ∧
    (((s.stake n).fld f).testBit m = true → ∃ t, exec (.mclkFaultEnd n m) s = .next t ∧ s.elsewhere t n ∧
      (t.stake n).fld f = (s.stake n).fld f &&& (15 - 2 ^ m) ∧ (s.stake n).regsKept (t.stake n) [Reg.CLK_STATUS])) ∧
  (∀ (s : State) (n : Nat) (x : Int), s.present n = true → (s.stake n).stopped = false → (s.stake n).flag Reg.THM_CTRL_EN = true →
    (s.stake n).flag (Reg.THM_SENS_CFG_EN 4) = true → (s.stake n).ang.tick.toNat % 4000000 = 0 → -32768 ≤ x → x ≤ 32767 →
    ∃ t, exec (.thmSample n 4 (.die x)) s = .next t ∧ s.elsewhere t n ∧ (t.stake n).sfld (Reg.THM_SENS_READ_TEMP 4) = x ∧
      (t.stake n).flag (Reg.THM_SENS_READ_BROKEN 4) = (x = 32767 : Bool)) ∧
  (∀ (s : State) (n i at_ : Nat), s.present n = true → (s.stake n).stopped = false → i < 6 → i < (s.stake n).thm.length →
    ((s.stake n).thmSt i).grace = some at_ → at_ ≤ (s.stake n).now → (s.stake n).flag Reg.THM_CTRL_EN = true →
    ∃ t, exec (.thmGraceExpire n i) s = .next t ∧ s.elsewhere t n ∧ (t.stake n).enforced i = true ∧
      ((t.stake n).thmSt i).grace = none ∧
      (s.stake n).posted (t.stake n) .thmLimit 0 [i, ((s.stake n).thmSt i).limit]) ∧
  (∀ (s : State) (n : Nat), s.present n = true →
    ((s.stake n).flag Reg.THM_STATUS_DIE175 = false → ∃ t, exec (.thmDie175 n) s = .next t ∧ s.elsewhere t n ∧
      (t.stake n).flag Reg.THM_STATUS_DIE175 = true ∧ (t.stake n).prt.trips = (s.stake n).prt.trips ++ [⟨8, none, (s.stake n).now⟩] ∧
      (s.stake n).posted (t.stake n) .thmDie175 4 []) ∧
    ∃ t, exec (.die175Release n) s = .next t ∧ s.elsewhere t n ∧ (t.stake n).flag Reg.THM_STATUS_DIE175 = false ∧
      (s.stake n).regsKept (t.stake n) [Reg.THM_STATUS])



/-! The host interface. -/

/-- R38, R340, R342, R345, R347 to R351, R353, R365, R368 to R370: a doorbell of an enabled pair in range moves its queue, another is counted
and reported; the pair served next has the least rank of those that may be served, takes a CQ entry and a fetch; a fetched descriptor moves
the SQ head and is refused, or waits for its target; errors of fetches and of data are counted and reported; queued events and moderated
vectors are written out. -/
def Obligations.HostRings : Prop :=
  (∀ (s : State) (r : Nat) (w : Reg32), r < 256 → r < s.pkg.host.rings.length → s.ready = true →
    let v := w.toNat % 4096
    let bad := fun (t : State) => t.pkg.rd Reg.HIF_DOORBELL_ERR_CNT = satAdd 16 (s.pkg.rd Reg.HIF_DOORBELL_ERR_CNT) 1 ∧
      t.pkg.host = s.pkg.host ∧ s.posted t .hifBadDoorbell 0 [r, v]
    (∃ t, exec (.doorbellSqTail r w) s = .next t ∧
      if s.ringEn r = true ∧ v < s.sqSize r then s.stakesKept t ∧ t.pkg.regs = s.pkg.regs ∧ (t.ring r).sqTail = v ∧
        ∀ q, q ≠ r → t.ring q = s.ring q
      else bad t) ∧
    ∃ t, exec (.doorbellCqHead r w) s = .next t ∧
      if s.ringEn r = true ∧ v < s.cqSize r then s.stakesKept t ∧ t.pkg.regs = s.pkg.regs ∧ (t.ring r).cqHead = v ∧
        (t.ring r).sqTail = (s.ring r).sqTail ∧ (∀ q, q ≠ r → t.ring q = s.ring q) ∧
        (t.ring r).cqFree = min (s.cqSize r) ((s.ring r).cqFree + (v + s.cqSize r - (s.ring r).cqHead % s.cqSize r) % s.cqSize r)
      else bad t) ∧
  (∀ (s : State), ∃ t, exec .descriptorFetch s = .next t ∧ s.stakesKept t ∧ t.pkg.regs = s.pkg.regs ∧
    ((∀ r, r < 256 → s.asks r = false) → t = s) ∧
    ((∃ r, r < 256 ∧ s.asks r = true) →
      ∃ r, r < 256 ∧ s.asks r = true ∧ (∀ q, q < 256 → s.asks q = true → s.rank r ≤ s.rank q) ∧ (∀ q, q ≠ r → t.ring q = s.ring q) ∧
        (∀ x, s.dataRead r = some x → t.ring r = s.ring r ∧ ∃ y ∈ t.pkg.host.reads, y.ring = r ∧ y.cid = x.cid ∧ y.out = true ∧
          y.left + min x.left (2 * 2 ^ min 2 s.pkg.host.pcie.readReq) = x.left) ∧
        (s.dataRead r = none → s.fetchable r = true →
          (t.ring r).fetching = (s.ring r).fetching + 1 ∧ (t.ring r).cqFree + 1 = (s.ring r).cqFree) ∧
        (s.dataRead r = none → s.fetchable r = false → t = s))) ∧
  (∀ (s : State) (r : Nat) (bytes : List Nat), r < 256 → 0 < (s.ring r).fetching → (s.ring r).deleting = [] → s.ringEn r = true →
    s.sqSize r ≤ 4096 →
    let b := dataOf 64 bytes
    let op := nth 0 b 0
    let k := s.stake ((s.target r).getD 0)
    ∃ t, exec (.descriptorArrival r bytes) s = .next t ∧ (t.ring r).fetching + 1 = (s.ring r).fetching ∧
      t.pkg.fld (Reg.HIF_RING_PTR_SQ_HEAD r) = (s.pkg.fld (Reg.HIF_RING_PTR_SQ_HEAD r) + 1) % s.sqSize r ∧
      (opClass op = none → ∃ d, t.pkg.host.descs = s.pkg.host.descs ++ [d] ∧ d.ring = r ∧ d.op = op ∧ d.cid = leOf b 2 2) ∧
      (∀ v, opClass op = some v →
        (v ≠ s.budgetClass r → s.completes t (leOf b 2 2) op 6) ∧
        (v = s.budgetClass r → firstBad (opChecks op b k.periodOk) ≠ none → s.completes t (leOf b 2 2) op 7) ∧
        (v = s.budgetClass r → firstBad (opChecks op b k.periodOk) = none →
          (∀ n, s.target r = some n → s.alive n = false → v ≠ 1 → s.completes t (leOf b 2 2) op 10) ∧
          (s.target r = none ∨ (∃ n, s.target r = some n ∧ (s.alive n = true ∨ v = 1)) →
            ∃ d, t.pkg.host.descs = s.pkg.host.descs ++ [d] ∧ d.ring = r ∧ d.cid = leOf b 2 2 ∧ d.op = op ∧ d.body = b ∧
              d.there = !(v ≤ 1 && (match s.target r with | some n => n ≠ 0 && s.alive n | none => false)))))) ∧
  (∀ (s : State) (r status : Nat), r < 256 → 0 < (s.ring r).fetching → (s.ring r).deleting = [] →
    (status = 16 → nth 0 (s.ring r).fetchAt 0 + s.pkg.host.pcie.timeout ≤ s.time) →
    ∃ t, exec (.ringFetchError r status) s = .next t ∧ t.pkg.flag (Reg.HIF_RING_ERROR r) = true ∧
      t.pkg.rd Reg.HIF_DMA_ERR_CNT = satAdd 16 (s.pkg.rd Reg.HIF_DMA_ERR_CNT) 1 ∧ (t.ring r).fetching + 1 = (s.ring r).fetching ∧
      s.posted t .hifRingError 0 [r, status]) ∧
  (∀ (s : State) (r cid : Nat) (d : Desc), s.underWay r cid → (s.pkg.host.descs.find? fun d =>
      d.ring = r && d.cid = cid && [0x11, 0x30, 0x31, 0x42, 0x43, 0x45].contains d.op) = some d →
    ∃ t, exec (.hostDataError r cid) s = .next t ∧ s.stakesKept t ∧ s.completes t cid d.op 11 ∧
      t.pkg.rd Reg.HIF_DMA_ERR_CNT = satAdd 16 (s.pkg.rd Reg.HIF_DMA_ERR_CNT) 1) ∧
  (∀ (s : State) (n i : Nat), s.alive n = true → (s.pkg.host.descs.findIdx? fun d => !d.there && s.ringStake d.ring = n) = some i →
    ∃ t, exec (.forwardedDescriptorCell n) s = .next t ∧ s.stakesKept t ∧
      t.pkg.host.descs.map (·.there) = (s.pkg.host.descs.map (·.there)).set i true ∧
      t.pkg.host.descs.map (·.body) = s.pkg.host.descs.map (·.body) ∧ t.pkg.regs = s.pkg.regs) ∧
  (∀ (s : State) (r : Nat) (d : Desc), s.underWay r d.cid →
    (s.pkg.host.descs.find? fun d => d.ring = r && (opClass d.op).isNone) = some d →
    ∃ t, exec (.reservedOpcode r) s = .next t ∧ s.stakesKept t ∧ s.completes t d.cid d.op 6) ∧
  (∀ (s : State) (v c t0 : Nat), v < 64 → s.pkg.host.msix[v]? = some (c, some t0) → c ≠ 0 →
    t0 + 400 * s.pkg.fld (Reg.HIF_MSIX_MOD_TIME v) ≤ s.time →
    s.pkg.host.pcie.msixEn = true →
    let w := fun (i : Nat) => s.pkg.rd (Reg.HIF_MSIX_TABLE (4 * v + i))
    ∃ t, exec (.msixModerationTimeout v) s = .next t ∧ s.stakesKept t ∧ t.pkg.host.msix[v]? = some (0, none) ∧
      if (w 3).getLsbD 0 || s.pkg.host.pcie.msixMask || !s.masters then t.pkg.host.writes = s.pkg.host.writes ∧ (t.pkg.rd (Reg.HIF_MSIX_PBA (v / 32))).getLsbD (v % 32) = true
      else t.pkg.host.writes = s.pkg.host.writes ++ [((w 0).toNat + (w 1).toNat * 4294967296, bytesN 4 (w 2).toNat)] ∧
        t.pkg.regs = s.pkg.regs) ∧
  (∀ (s : State), ∃ t, exec .eventQueueDrain s = .next t ∧ s.stakesKept t ∧ (s.drainable = false → t = s) ∧
    (s.drainable = true → s.pkg.lost.1 = 0 →
      t.pkg.evq = s.pkg.evq.drop (min s.pkg.evq.length (s.ring 0).cqFree) ∧
      (t.ring 0).cqFree = (s.ring 0).cqFree - s.pkg.evq.length ∧
      ∀ q, s.pkg.evq.head? = some q → ∃ addr e, (addr, e) ∈ t.pkg.host.writes.drop s.pkg.host.writes.length ∧
        addr = (s.ring 0).cqBase + 32 * s.pkg.fld (Reg.HIF_RING_PTR_CQ_TAIL 0) ∧ e.length = 32 ∧ leOf e 0 2 = q.post.ev.code ∧
        nth 0 e 2 = q.post.cls))

/-- R142, R253, R321, R339, R341, R343, R344, R350 to R358, R362, R368, R377: a descriptor that has passed its checks takes effect at its
target, or is refused with its status; pairs are created and deleted; faults and snapshots are written to host memory; a link reset deletes
every pair; the admin pair, the lock and the link. -/
def Obligations.HostCommands : Prop :=
  (∀ (s s' : State) (r op : Nat) (d : Desc), s.takeDesc r op = some (d, s') → d ∈ s.pkg.host.descs ∧ d.ring = r ∧ d.op = op ∧
    d.there = true ∧ s' = { s with pkg := { s.pkg with host := { s.pkg.host with descs := s'.pkg.host.descs } } } ∧
    s'.pkg.host.descs.length + 1 = s.pkg.host.descs.length) ∧
  (∀ (s s' : State) (r : Nat) (d : Desc), s.takeDesc r 1 = some (d, s') → s.alive (s.ringStake r) = true →
    let n := s.ringStake r
    ∃ t, exec (.setpoint r) s = .next t ∧ s'.elsewhere t n ∧
      (∀ st i, (s.stake n).setpointRefusal d.setpoint = some (st, i) → (s.stake n).answered (t.stake n) r d.cid 1 st i ∧
        (t.stake n).fe = (s.stake n).fe) ∧
      ((s.stake n).setpointRefusal d.setpoint = none → (t.stake n).fe.waiting = (s.stake n).fe.waiting ++ [d.setpoint] ∧
        t.stake n = { s.stake n with fe := (t.stake n).fe })) ∧
  (∀ (s s' : State) (r : Nat) (d : Desc), s.takeDesc r 3 = some (d, s') → s.alive (s.ringStake r) = true →
    let n := s.ringStake r
    let duty := [leOf d.body 16 4, leOf d.body 20 4, leOf d.body 24 4]
    ∃ t, exec (.setDescriptor r) s = .next t ∧ s'.elsewhere t n ∧
      (∀ i, (s.stake n).setRefusal d.body = some i → (s.stake n).answered (t.stake n) r d.cid 3 5 i ∧
        (t.stake n).modu = (s.stake n).modu) ∧
      ((s.stake n).setRefusal d.body = none → (s.stake n).answered (t.stake n) r d.cid 3 0 0 ∧
        (nth 0 d.body 8 = 8 → nth 0 d.body 9 = 0 → (∀ x ∈ duty, x ≤ 65536) →
          ∃ x late, (t.stake n).modu.waiting = (s.stake n).modu.waiting ++ [(x, late)] ∧ x.mask = 8 ∧ x.duty = duty ∧ x.dutyFmt = 0))) ∧
  (∀ (s s' : State) (r : Nat) (d : Desc), s.takeDesc r 0x10 = some (d, s') → s.underWay r d.cid →
    let v := s'.target r
    let l := entriesOf d.body
    ∃ t, exec (.regWrite r) s = .next t ∧ s'.stakesKept t ∧
      (s'.entriesBad v l ≠ none ∨ unusedBad d.body ≠ none → s'.completes t d.cid 0x10 7) ∧
      (s'.entriesBad v l = none → unusedBad d.body = none → s'.entriesClosed v l ≠ none → s'.completes t d.cid 0x10 8) ∧
      (s'.entriesBad v l = none → unusedBad d.body = none → s.locked = false → (∀ n, v = some n → s.alive n = true) →
        ∃ x, t.pkg.host.tune = s.pkg.host.tune ++ [x] ∧ x.ring = r ∧ x.cid = d.cid ∧ x.target = v.getD 8 ∧ x.table = [] ∧
          x.writes = l.map fun e => (e.2.1, e.2.2))) ∧
  (∀ (s s' : State) (r : Nat) (data : List Nat) (d : Desc), s.takeDesc r 0x11 = some (d, s') → (nth 0 d.body 24).testBit 0 = false →
    ∃ t, exec (.tableWrite r data) s = .next t ∧ s'.stakesKept t ∧
      (s.target r = none → s.underWay r d.cid → s'.completes t d.cid 0x11 7) ∧
      (∀ n, s.target r = some n → s.alive n = true →
        if (s.stake n).profileClosed (leOf d.body 16 4) (leOf d.body 20 4) then s.underWay r d.cid → s'.completes t d.cid 0x11 5
        else t.pkg.host.reads = s.pkg.host.reads ++ [{ ring := r, cid := d.cid, cls := 1, left := (leOf d.body 20 4 + 63) / 64 }] ∧
          ∃ x, t.pkg.host.tune = s.pkg.host.tune ++ [x] ∧ x.ring = r ∧ x.cid = d.cid ∧ x.target = n ∧ x.writes = [] ∧
          x.table.map (·.1) = (List.range ((leOf d.body 20 4 + 3) / 4)).map fun i => leOf d.body 16 4 + 4 * i)) ∧
  (∀ (s : State) (n off v : Nat) (x : Tune) (q : RegD), n < 8 → off < 0x1000 → off % 4 = 0 → (s.pkg.host.tune.find? fun x => x.target = n) = some x →
    s.slotsUsed n < s.pkg.fld Reg.HIF_TUNE_CFG_SLOTS → (s.pkg.host.tuneRun.any fun x => x.target = n) = false →
    (s.stake n).vote.halted = false → (s.stake n).vote.resync = false → s.readDone x.ring x.cid = true → x.table = [] → x.writes = [(off, v)] → s.admits .tune n off (BitVec.ofNat 32 v) → regAt off = some q →
    (s.stake n).crossBad off (BitVec.ofNat 32 v) = false →
    ∃ t, exec (.tuneApply n) s = .next t ∧ (∀ m, m ≠ n → t.stake m = s.stake m) ∧ (t.stake n).tuneUsed = (s.stake n).tuneUsed + 1 ∧
      (t.stake n).rd off = q.merge ((s.stake n).rd off) (liveBits off (BitVec.ofNat 32 v)) ∧
      t.pkg.host.tune.length + 1 = s.pkg.host.tune.length ∧ (s.stake n).answered (t.stake n) x.ring x.cid x.op
        (if (s.stake n).bounds ≤ x.at_ then 0 else 1) (min 65535 ((s.stake n).bounds - x.at_))) ∧
  (∀ (s s' : State) (r : Nat) (d : Desc), s.takeDesc r 0x40 = some (d, s') → s.underWay r d.cid →
    let b := d.body
    let q := leOf b 8 2
    s.pkg.boot.phase ≠ .recovery → s.pkg.boot.phase ≠ .testWait → s.pkg.boot.phase ≠ .test → q ≠ r → q < s.pkg.host.rings.length →
    firstBad (ringCreateChecks b) = none → s.ringEn q = false →
    ∃ t, exec (.ringCreate r) s = .next t ∧ s'.stakesKept t ∧ (s'.bindingBad b ≠ none → s'.completes t d.cid 0x40 7) ∧
      (s'.bindingBad b = none → s'.completes t d.cid 0x40 0 ∧ t.ringEn q = true ∧ t.ringClass q = nth 0 b 10 ∧
        t.ringStake q = (if nth 0 b 11 = 255 then 15 else nth 0 b 11) ∧ t.sqSize q = 2 ^ nth 0 b 13 ∧ t.cqSize q = 2 ^ nth 0 b 14 ∧
        (t.ring q).sqBase = leOf b 16 8 ∧ (t.ring q).cqBase = leOf b 24 8 ∧ (t.ring q).cqFree = 2 ^ nth 0 b 14)) ∧
  (∀ (s s' : State) (d : Desc), s.takeDesc 0 0x41 = some (d, s') → s.underWay 0 d.cid → (s.ring 0).deleting = [] →
    let q := leOf d.body 8 2
    q ≠ 0 → q < s.pkg.host.rings.length →
    ∃ t, exec (.ringDelete 0) s = .next t ∧
      (s.ringEn q = false → s'.completes t d.cid 0x41 0) ∧
      (s.ringEn q = true → (s.ring q).fetching = 0 → (∀ f ∈ s.pkg.host.flying, f.ring ≠ q) → s.ringClass q = 0 →
        t.ringEn q = false ∧ s'.completes t d.cid 0x41 0) ∧
      (s.ringEn q = true → (∃ f ∈ s.pkg.host.flying, f.ring = q) → s.ringClass q = 0 → t.ringEn q = true ∧
        (t.ring q).deleting = (s.ring q).deleting ++ [d.cid]) ∧
      (s.ringEn q = true → s.ringClass q ≠ 0 → (∀ x ∈ t.pkg.host.descs, x.ring ≠ q) ∧ ∀ x ∈ t.pkg.host.tune, x.ring ≠ q)) ∧
  (∀ (s s' : State) (r : Nat) (d : Desc), s.takeDesc r 0x42 = some (d, s') → s.underWay r d.cid →
    let n := nth 0 d.body 20
    let l := (s.faultList (if n = 255 then none else some n)).take (leOf d.body 16 4 / 128)
    ∃ t, exec (.getFaults r) s = .next t ∧ s'.stakesKept t ∧ s'.completes t d.cid 0x42 0 ∧
      (l ≠ [] → ∃ bytes, (leOf d.body 8 8, bytes) ∈ t.pkg.host.writes.drop s.pkg.host.writes.length ∧ bytes.length = 128 * l.length)) ∧
  (∀ (s s' : State) (r : Nat) (d : Desc), s.takeDesc r 0x43 = some (d, s') → s.underWay r d.cid →
    ∃ t, exec (.getSnapshot r) s = .next t ∧ s'.stakesKept t ∧
      match s.pkg.snaps.find? fun q => q.snap = leOf d.body 16 2 with
      | none => s'.completes t d.cid 0x43 15
      | some q => s'.completes t d.cid 0x43 0 ∧ (leOf d.body 8 8, q.bytes) ∈ t.pkg.host.writes.drop s.pkg.host.writes.length) ∧
  (∀ (s s' : State) (r : Nat) (d : Desc), s.takeDesc r 0x44 = some (d, s') →
    let n := nth 0 d.body 8
    let split : Bool := nth 0 d.body 9 = 1
    let x := (s.stake n).modeCause split
    ∃ t, exec (.plaitMode r) s = .next t ∧
      (s.present n = false → s.underWay r d.cid → s'.completes t d.cid 0x44 7) ∧
      (s.alive n = true → s'.elsewhere t n ∧
        (x = 0 → (t.stake n).voteMode = 3 ∧ (t.stake n).vote.handover = some ⟨split, some (r, d.cid)⟩) ∧
        (x ≠ 0 → (t.stake n).voteMode = (s.stake n).voteMode ∧ (s.stake n).answered (t.stake n) r d.cid 0x44 5 x))) ∧
  (∀ (s : State) (d3 : Bool), ∃ t, exec (.hifLinkReset d3) s = .next t ∧ (∀ r, t.ringEn r = false) ∧ t.pkg.host.descs = [] ∧
    t.pkg.host.flying = [] ∧ t.pkg.host.tune = [] ∧ t.pkg.host.reads = [] ∧ t.pkg.host.pcie = { d3 := d3 } ∧
    t.pkg.host.aer = s.pkg.host.aer ∧ t.pkg.host.writes = s.pkg.host.writes ∧ t.ready = s.ready ∧ t.locked = s.locked ∧
    t.pkg.rd Reg.HIF_BUDGET = s.pkg.rd Reg.HIF_BUDGET ∧ t.pkg.rd Reg.HIF_TUNE_CFG = s.pkg.rd Reg.HIF_TUNE_CFG ∧
    (∀ off, 0x810000 ≤ off → t.pkg.rd off = s.pkg.rd off) ∧ s.posted t .hifLinkReset 0 []) ∧
  (∀ (s : State) (src : Src) (w : Reg32) (q : RegD), s.adminClosed = false → (src = .manager && (s.stake 0).vote.halted) = false → regAt Reg.HIF_ADMIN_CFG = some q → q.inRange w = true →
    pkgCrossBad Reg.HIF_ADMIN_CFG w = false →
    (w.getLsbD 31 = true → s.pkg.flag Reg.HIF_ADMIN_CFG_EN = false → 0 < s.pkg.host.rings.length →
      ∃ t, exec (.adminEnable src w) s = .next t ∧ s.stakesKept t ∧ t.ringEn 0 = true ∧ t.sqSize 0 = 2 ^ (Reg.HIF_ADMIN_CFG_SQ_LOG2).of w ∧
        t.cqSize 0 = 2 ^ (Reg.HIF_ADMIN_CFG_CQ_LOG2).of w ∧ t.ring 0 = {
          sqBase := (s.pkg.rd Reg.HIF_ADMIN_SQ_LO).toNat + (s.pkg.rd Reg.HIF_ADMIN_SQ_HI).toNat * 4294967296
          cqBase := (s.pkg.rd Reg.HIF_ADMIN_CQ_LO).toNat + (s.pkg.rd Reg.HIF_ADMIN_CQ_HI).toNat * 4294967296
          cqFree := t.cqSize 0 } ∧ ∀ r, r ≠ 0 → t.ring r = s.ring r) ∧
    (w.getLsbD 31 = false → s.pkg.flag Reg.HIF_ADMIN_CFG_EN = true →
      ∃ t, exec (.adminDisable src w) s = .next t ∧ s.stakesKept t ∧ t.ringEn 0 = false ∧ (∀ f ∈ t.pkg.host.flying, f.ring ≠ 0) ∧
        t.pkg.host.descs = s.pkg.host.descs ∧ ∀ r, r ≠ 0 → t.ring r = s.ring r)) ∧
  (∀ (s : State) (src : Src) (w : Reg32), ∃ t, exec (.setupLock src w) s = .next t ∧ (s.locked = true → t.locked = true) ∧
    (s.locked = false → w = 1 → (src = .manager && (s.stake 0).vote.halted) = false → s.stakesKept t ∧ t.locked = true ∧ t.pkg.flag Reg.HIF_STATUS_LOCKED = true ∧
      s.pkg.regsKept t.pkg [Reg.HIF_SETUP_LOCK, Reg.HIF_STATUS] ∧ s.pkg.restKept t.pkg) ∧
    (s.locked = false → w = 0 → t = s)) ∧
  (∀ (s : State) (speed width : Nat) (cfg : PcieCfg), s.pkg.boot.phase ≠ .held → 1 ≤ speed → speed ≤ 3 → width = 1 ∨ width = 2 →
    ∃ t, exec (.pcieLinkUp speed width cfg) s = .next t ∧ s.stakesKept t ∧ t.pkg.flag Reg.HIF_STATUS_LINK_UP = true ∧
      t.pkg.fld Reg.HIF_STATUS_SPEED = speed ∧ t.pkg.fld Reg.HIF_STATUS_WIDTH = width ∧
      s.pkg.regsKept t.pkg [Reg.HIF_STATUS, Reg.HIF_MSIX_PBA 0, Reg.HIF_MSIX_PBA 1] ∧ t.pkg.nv = s.pkg.nv ∧ t.pkg.boot = s.pkg.boot ∧
      t.pkg.host = { s.pkg.host with
        pcie := cfg, aer := s.pkg.host.aer &&& ~~~ cfg.aerClear, msix := t.pkg.host.msix, writes := t.pkg.host.writes } ∧
      (cfg.msixEn = false → t.pkg.host.writes = s.pkg.host.writes))


/-! The networks. -/

/-- R380 to R386, R391, R393, R394: a form error raises the receive count; a received frame goes to the first HP buffer that matches, else to a general buffer that does and is not
full, else it is dropped and counted; a read of `CTRL` latches a buffer; release, request and cancel act on a buffer; transmissions end;
error counts move the controller between its states. -/
def Obligations.CanBuffers : Prop :=
  (∀ (s : State) (c : Nat) (f : CanFrame), ∃ t, exec (.canFrameReceived c f) s = .next t ∧ (∀ m, m ≠ 1 → t.stake m = s.stake m) ∧
    (¬ s.canHears c f → t = s) ∧
    (s.canHears c f → s.canFormError c f = true → t.canRec c = min (s.canRec c + 1) 255 ∧ t.canTec c = s.canTec c ∧
      s.pkg.regsKept t.pkg [Reg.CAN_STATUS c, Reg.CAN_BUSOFF_CNT c]) ∧
    (s.canHears c f → s.canFormError c f = false →
      (∀ i, [0, 1, 2, 3].find? (fun i => s.canMatch c i f) = some i → s.canHolds t c i f ∧
        (t.pkg.fld Reg.CAN_HP_PENDING_PEND).testBit (4 * c + i) = true ∧
        (s.pkg.flag (cbFull c i) = true → t.pkg.flag (cbOverrun c i) = true)) ∧
      ((∀ i, i < 4 → s.canMatch c i f = false) →
        (∀ i, (((List.range 64).map (· + 4)).find? fun i => s.canMatch c i f && !s.pkg.flag (cbFull c i)) = some i → s.canHolds t c i f) ∧
        ((∀ i, 4 ≤ i → i < 68 → s.canMatch c i f = false) →
          t.pkg.rd (Reg.CAN_RX_DROP_CNT c) = satAdd 16 (s.pkg.rd (Reg.CAN_RX_DROP_CNT c)) 1)))) ∧
  (∀ (s : State) (c i : Nat), c < 2 → c < s.pkg.net.can.length → i < 68 → s.alive 1 = true →
    ∃ t, exec (.canCtrlReadLatch c i) s = .next t ∧ (s.crossedAt .host (canBuf c i + 8) 0 []).stakesKept t ∧ t.pkg.regs = s.pkg.regs ∧
      t.pkg.hostReads = s.pkg.hostReads ++ [(canBuf c i + 8, s.pkg.rd (canBuf c i + 8))] ∧
      ∃ ws, (i, ws) ∈ (t.canSt c).shadow ∧ ws.length = 24 ∧ ∀ j, j < 24 → ws[j]? = some (s.pkg.rd (canBuf c i + 4 * j))) ∧
  (∀ (s : State) (src : Src) (c i : Nat) (w : Reg32), c < 2 → c < s.pkg.net.can.length → i < 68 → s.alive 1 = true →
    s.pkgAdmits src (canBuf c i + 8) w → (src ≠ .manager → s.canOwned c i = false) →
    let busy := s.pkg.flag (cbTxReq c i)
    let sent := s.crossedAt src (canBuf c i + 8) 1 [w.toNat]
    (w.getLsbD 26 = true → w.getLsbD 27 = false → w.getLsbD 28 = false →
      ∃ t, exec (.canRelease src c i w) s = .next t ∧ sent.stakesKept t ∧
        if busy then t.pkg.flag (cbWrErr c i) = true ∧ s.pkg.regsKept t.pkg [canBuf c i + 8]
        else s.pkg.regsKept t.pkg [canBuf c i + 8] ∧ t.pkg.flag (cbFull c i) = (s.pkg.flag (cbFull c i) &&
          !((Fld.mk 0 16 4).of w = s.pkg.fld (cbRxSeq c i) : Bool))) ∧
    (4 ≤ i → s.pkg.flag (cbDir c i) = true → s.pkg.flag (cbEn c i) = true → busy = false → w.getLsbD 28 = true → w.getLsbD 27 = false →
      ∃ t, exec (.canTxRequest src c i w) s = .next t ∧ sent.stakesKept t ∧ t.pkg.flag (cbTxReq c i) = true ∧
        s.pkg.regsKept t.pkg [canBuf c i + 8]) ∧
    (4 ≤ i → s.pkg.flag (cbDir c i) = true → busy = true → w.getLsbD 27 = true →
      (∃ t, exec (.canCancel src c i w false) s = .next t ∧ sent.stakesKept t ∧ t.pkg.flag (cbTxReq c i) = false ∧
        t.pkg.flag (cbTxFail c i) = true ∧ s.pkg.regsKept t.pkg [canBuf c i + 8]) ∧
      ∃ t, exec (.canCancel src c i w true) s = .next t ∧ sent.stakesKept t ∧ t.pkg.flag (cbTxReq c i) = true ∧ i ∈ (t.canSt c).cancelled)) ∧
  (∀ (s : State) (c b ago : Nat), c < s.pkg.net.can.length → s.canSending c b ago = true →
    let i := b + 4
    ∃ t, exec (.canTxDone c b ago) s = .next t ∧ (∀ m, m ≠ 1 → t.stake m = s.stake m) ∧ t.pkg.flag (cbTxReq c i) = false ∧
      t.pkg.flag (cbTxDone c i) = true ∧ t.pkg.rd (canBuf c i + 0x0C) = s.canStamp ago ∧ t.canTec c = s.canTec c - 1 ∧
      i ∉ (t.canSt c).cancelled) ∧
  (∀ (s : State) (c b ago kind : Nat) (arb : Bool), c < s.pkg.net.can.length → s.canSending c b ago = true →
    (∀ x t0, (s.canSt c).excl = some (x, t0) → x ≠ b) →
    let i := b + 4
    let up := s.txRise c kind
    (kind = 0 → up = 8) ∧ ∃ t, exec (.canTxError c b ago arb kind) s = .next t ∧ (∀ m, m ≠ 1 → t.stake m = s.stake m) ∧
      t.canTec c = (if arb then s.canTec c else min (s.canTec c + up) 511) ∧
      (t.pkg.flag (cbTxReq c i) = !((s.canSt c).cancelled.contains i)) ∧
      ((s.canSt c).cancelled.contains i = true → t.pkg.flag (cbTxFail c i) = true) ∧
      (arb = false → 255 < s.canTec c + up → t.pkg.fld (Reg.CAN_STATUS_STATE c) = 2 ∧ (s.stake 1).posted (t.stake 1) .canBusOff 0 [c])) ∧
  (∀ (s : State) (c kind : Nat), s.canOn c = true →
    let up := rxRise kind
    ∃ t, exec (.canRxError c kind) s = .next t ∧ (∀ m, m ≠ 1 → t.stake m = s.stake m) ∧ t.canRec c = min (s.canRec c + up) 255 ∧
      t.canTec c = s.canTec c ∧ (s.canTec c ≤ 127 → t.pkg.fld (Reg.CAN_STATUS_STATE c) = (if 127 < s.canRec c + up then 1 else 0)) ∧
      (s.canTec c ≤ 127 → 127 < s.canRec c + up → s.pkg.fld (Reg.CAN_STATUS_STATE c) = 0 →
        (s.stake 1).posted (t.stake 1) .canErrPassive 0 [s.canTec c, s.canRec c + up])) ∧
  (∀ (s : State) (c : Nat), c < 2 → s.pkg.flag (Reg.CAN_CTRL_EN c) = true → s.pkg.flag (Reg.CAN_CTRL_AUTO_RECOVER c) = true →
    s.pkg.fld (Reg.CAN_STATUS_STATE c) = 2 →
    ∃ t, exec (.canBusOffRecovery c) s = .next t ∧ s.stakesKept t ∧ t.canTec c = 0 ∧ t.canRec c = 0 ∧
      t.pkg.fld (Reg.CAN_STATUS_STATE c) = 0 ∧ s.pkg.regsKept t.pkg [Reg.CAN_STATUS c] ∧ s.pkg.restKept t.pkg) ∧
  (∀ (s : State) (src : Src) (c : Nat) (w : Reg32), c < 2 → s.alive 1 = true → s.pkgAdmits src (Reg.CAN_CTRL c) w →
    w.getLsbD 31 ≠ s.pkg.flag (Reg.CAN_CTRL_EN c) →
    ∃ t, exec (.canControllerEnable src c w) s = .next t ∧ (s.crossedAt src (Reg.CAN_CTRL c) 1 [w.toNat]).stakesKept t ∧ t.pkg.flag (Reg.CAN_CTRL_EN c) = w.getLsbD 31 ∧
      s.pkg.regsKept t.pkg [Reg.CAN_CTRL c, Reg.CAN_STATUS c] ∧
      if w.getLsbD 31 then t.canTec c = 0 ∧ t.canRec c = 0 ∧ t.pkg.fld (Reg.CAN_STATUS_STATE c) = 0
      else t.pkg.flag (Reg.CAN_STATUS_TT_RUN c) = false)

/-- R387 to R390, R392, R395 to R399: the microsecond counter's wrap, reference frames, the columns of the matrix and their exclusive frames,
the status frame; what the MAC receives and sends; a map is taken for its tick, and steps only where its state allows one; LOCKED falls back
to HOLDOVER and then to no time. -/
def Obligations.NetworkTime : Prop :=
  (∀ (s : State), s.pkg.net.usWrap = true → ∃ t, exec .canUsWrap s = .next t ∧ s.stakesKept t ∧ t.pkg.net.usWrap = false ∧
    t.pkg.flag Reg.CAN_US_STATUS_WRAP = true ∧ s.pkg.regsKept t.pkg [Reg.CAN_US_STATUS]) ∧
  (∀ (s : State) (c : Nat), c < s.pkg.net.can.length → s.canOn c = true → s.pkg.flag (Reg.CAN_CTRL_TT_EN c) = true →
    s.pkg.flag (Reg.CAN_CTRL_TT_ROLE c) = false → (∀ t0, (s.canSt c).sentAt = some t0 →
      t0 + 400 * s.pkg.fld (Reg.CAN_TT_CFG_CYCLE_US c) ≤ (s.stake 1).now) →
    ∃ t, exec (.canRefSend c) s = .next t ∧ s.stakesKept t ∧ t.pkg.flag (cbTxReq c 66) = true ∧
      t.pkg.fld ⟨canBuf c 66 + 0x20, 0, 8⟩ = (s.canSt c).nextCycle % 256 ∧ (t.canSt c).sentAt = some (s.stake 1).now ∧
      (t.canSt c).nextCycle = ((s.canSt c).nextCycle + 1) % 2 ^ s.pkg.fld (Reg.CAN_TT_CFG_CYC_LOG2 c) ∧
      s.pkg.regsKept t.pkg [canBuf c 66 + 0x20, canBuf c 66 + 8]) ∧
  (∀ (s : State) (c : Nat), c < 2 → s.present 1 = true → s.pkg.flag (Reg.CAN_STATUS_TT_RUN c) = true →
    s.pkg.flag (Reg.CAN_CTRL_TT_ROLE c) = true →
    (s.canSt c).refAt + 400 * (s.pkg.fld (Reg.CAN_TT_CFG_CYCLE_US c) + s.pkg.fld (Reg.CAN_TT_GUARD_REF_TOL c)) ≤ (s.stake 1).now →
    ∃ t, exec (.canTtRefTimeout c) s = .next t ∧ (∀ m, m ≠ 1 → t.stake m = s.stake m) ∧ (s.stake 1).posted (t.stake 1) .canTtLoss 0 [c] ∧
      t.pkg.flag (Reg.CAN_STATUS_TT_RUN c) = false ∧ s.pkg.regsKept t.pkg [Reg.CAN_STATUS c]) ∧
  (∀ (s : State) (c col b : Nat), c < s.pkg.net.can.length → s.canOn c = true → s.pkg.flag (Reg.CAN_STATUS_TT_RUN c) = true →
    col ≤ s.pkg.fld (Reg.CAN_TT_CFG_COLS c) →
    (s.pkg.rd Reg.CAN_US - (s.canSt c).cycleAt).toNat = s.pkg.fld ⟨0x811C00 + 0x4000 * c + 4 * col, 0, 16⟩ →
    s.ttCell c col = (1, b) → s.pkg.flag (cbEn c (b + 4)) = true → s.pkg.flag (cbDir c (b + 4)) = true →
    ∃ t, exec (.canTtColumnStart c col) s = .next t ∧ s.stakesKept t ∧ t.pkg.regs = s.pkg.regs ∧
      (t.canSt c).excl = some (b, (s.stake 1).now)) ∧
  (∀ (s : State) (c b t0 : Nat), c < 2 → (s.canSt c).excl = some (b, t0) → t0 + 400 * s.pkg.fld (Reg.CAN_TT_CFG_TX_EN_US c) ≤ (s.stake 1).now →
    b < 64 →
    ∃ t, exec (.canTtExclusiveMiss c) s = .next t ∧ s.stakesKept t ∧ (t.canSt c).excl = none ∧ t.pkg.flag (cbTxFail c (b + 4)) = true ∧
      t.pkg.rd (Reg.CAN_TT_MISS_CNT c) = satAdd 16 (s.pkg.rd (Reg.CAN_TT_MISS_CNT c)) 1) ∧
  (∀ (s : State), s.inService 1 = true → s.pkg.flag Reg.CAN_STAT_CFG_STAT_EN = true →
    s.pkg.net.statAt = none ∨ s.statusBytes ≠ s.pkg.net.statLast →
    let c := s.pkg.fld Reg.CAN_STAT_CFG_STAT_CTRL
    ∃ t, exec .canStatusFrameSend s = .next t ∧ s.stakesKept t ∧ t.pkg.flag (cbTxReq c 67) = true ∧
      t.pkg.fld ⟨canBuf c 67 + 0x20, 0, 8⟩ = s.statusBytes.1 ∧ t.pkg.fld ⟨canBuf c 67 + 0x20, 8, 8⟩ = s.statusBytes.2 ∧
      t.pkg.net.statAt = some (s.stake 1).now ∧ t.pkg.net.statLast = s.statusBytes ∧ t.pkg.net.statCnt = (s.pkg.net.statCnt + 1) % 256) ∧
  (∀ (s : State), s.ethOn = true →
    (∀ f : EthFrame, f.etherType ≠ 0x88F7 ∨ f.dest ≠ 0x0180C200000E ∨ f.fcsOk = false →
      ∃ t, exec (.ethFrameReceived f) s = .next t ∧ s.stakesKept t ∧
      t.pkg.rd Reg.ETH_DROP_CNT = satAdd 16 (s.pkg.rd Reg.ETH_DROP_CNT) 1 ∧ s.pkg.regsKept t.pkg [Reg.ETH_DROP_CNT]) ∧
    (∀ (edge : Word48) (q : Nat) (x : Instant) (turn : Int), s.managerRuns = true → s.pkg.net.pdReq = (q, some x) →
      let d := linkDelay (s.netMap.span46 ((s.ingress edge).minus x)) turn
      ∃ t, exec (.ethFrameReceived (ptpFrame (.pdelayResp edge q (some turn)))) s = .next t ∧
      t.pkg.rd Reg.ETH_LINK_DELAY = BitVec.ofNat 32 d ∧ t.pkg.net.pdReq = (q, none) ∧
      t.pkg.flag Reg.ETH_STATUS_AS_CAPABLE = (d ≤ s.pkg.fld Reg.ETH_NPD_NPD_THR : Bool) ∧
      t.timeState = (if d ≤ s.pkg.fld Reg.ETH_NPD_NPD_THR then s.timeState else 0)) ∧
    (∀ (edge : Word48) (q : Nat) (x : Instant), s.managerRuns = true → s.pkg.net.pdReq = (q, some x) →
      ∃ t, exec (.ethFrameReceived (ptpFrame (.pdelayResp edge q none))) s = .next t ∧ t.pkg.regs = s.pkg.regs ∧
      t.pkg.net.pdWait = some (q, s.netMap.span46 ((s.ingress edge).minus x))) ∧
    (∀ (q : Nat) (span turn : Int), s.managerRuns = true → s.pkg.net.pdWait = some (q, span) →
      ∃ t, exec (.ethFrameReceived (ptpFrame (.pdelayFollowUp q turn))) s = .next t ∧ t.pkg.net.pdWait = none ∧
      t.pkg.rd Reg.ETH_LINK_DELAY = BitVec.ofNat 32 (linkDelay span turn)) ∧
    (∀ g : BitVec 64, s.managerRuns = true → ∃ t, exec (.ethFrameReceived (ptpFrame (.announce (some g)))) s = .next t ∧ s.stakesKept t ∧
      (t.pkg.rd Reg.ETH_GM_ID_LO).toNat + (t.pkg.rd Reg.ETH_GM_ID_HI).toNat * 4294967296 = g.toNat) ∧
    (s.managerRuns = true → ∃ t, exec (.ethFrameReceived (ptpFrame (.announce none))) s = .next t ∧ t.pkg.rd Reg.ETH_GM_ID_LO = 0 ∧
      t.pkg.rd Reg.ETH_GM_ID_HI = 0 ∧ t.timeState = 0 ∧ (s.timeState = 3 → s.posted t .ethTimeLost 0 [])) ∧
    (∀ (edge : Word48) (seq : Nat) (interval origin : Int), s.managerRuns = true → s.pkg.flag Reg.ETH_STATUS_AS_CAPABLE = true →
      let off := s.syncOffset (s.ingress edge) origin
      ∃ t, exec (.ethFrameReceived (ptpFrame (.sync edge seq interval (some origin)))) s = .next t ∧
      t.pkg.rd Reg.ETH_OFFSET_EST = w32 off ∧ t.pkg.net.syncAt = s.time ∧ t.pkg.net.syncEvery = logTicks interval ∧
      let ok : Bool := iabs off ≤ s.pkg.fld Reg.ETH_SERVO_LOCK_TOL
      (s.timeState = 0 → t.timeState = 1) ∧
      (s.timeState = 1 → ok = true → s.pkg.net.syncOk = 3 → t.timeState = 2 ∧ s.posted t .ethTimeLock 0 []) ∧
      (s.timeState = 1 → ok = false → t.timeState = 1 ∧ t.pkg.net.syncOk = 0) ∧
      (s.timeState = 2 → ok = true → t.timeState = 2 ∧ t.pkg.evq = s.pkg.evq) ∧
      (s.timeState = 2 → ok = false → t.timeState = 1 ∧ ∃ v, s.posted t .ethTimeUnlock 0 [v]) ∧
      (s.timeState = 3 → ok = true → t.timeState = 2 ∧ s.posted t .ethTimeLock 0 [])) ∧
    (∀ (edge : Word48) (seq : Nat) (interval : Int), s.managerRuns = true →
      ∃ t, exec (.ethFrameReceived (ptpFrame (.sync edge seq interval none))) s = .next t ∧ t.pkg.regs = s.pkg.regs ∧
      t.pkg.net.syncWait = some (seq, s.ingress edge) ∧ t.pkg.net.syncAt = s.time) ∧
    (∀ (seq : Nat) (x : Instant) (origin : Int), s.managerRuns = true → s.pkg.net.syncWait = some (seq, x) →
      ∃ t, exec (.ethFrameReceived (ptpFrame (.followUp seq origin))) s = .next t ∧
      t.pkg.rd Reg.ETH_OFFSET_EST = w32 (s.syncOffset x origin) ∧ t.pkg.net.syncWait = none) ∧
    (∀ (i e : Word48) (q : Nat) (corr : Int), s.managerRuns = true →
      ∃ t, exec (.ethFrameReceived (ptpFrame (.pdelayReq i e q corr))) s = .next t ∧ s.stakesKept t ∧ t.pkg.regs = s.pkg.regs ∧
      t.pkg.net.ethTx.map Prod.fst = s.pkg.net.ethTx.map Prod.fst ++
        if s.pkg.flag Reg.ETH_CTRL_ONE_STEP then [.pdelayResp q none (corr + 5120 * (s.egress e).minus (s.ingress i)) false]
        else [.pdelayResp q (some (s.ingress i)) corr true, .pdelayFollowUp q (s.egress e)]) ∧
    (s.managerRuns = true → s.pkg.net.pdelayAt = none →
      let q := (s.pkg.net.pdReq.1 + 1) % 65536
      ∃ t, exec .pdelayReqSend s = .next t ∧ s.stakesKept t ∧ t.pkg.regs = s.pkg.regs ∧
      t.pkg.net.ethTx.map Prod.fst = s.pkg.net.ethTx.map Prod.fst ++ [.pdelayReq q (s.egress (s.stake 0).ang.tick)] ∧
      t.pkg.net.pdelayAt = some s.time ∧ t.pkg.net.pdReq = (q, some (s.egress (s.stake 0).ang.tick))) ∧
    (∀ up : Bool, s.managerRuns = true → s.pkg.net.pollAt = none → ∃ t, exec (.phyLinkPoll up) s = .next t ∧ t.pkg.flag Reg.ETH_STATUS_LINK = up ∧
      t.pkg.net.pollAt = some s.time ∧ t.timeState = (if !up && s.timeState = 2 then 3 else s.timeState) ∧
      (up = false → s.timeState = 2 → s.posted t .ethTimeHoldover 0 [])) ∧
    (s.managerRuns = true → s.timeState = 2 → s.pkg.net.syncAt + 3 * s.pkg.net.syncEvery ≤ s.time → ∃ t, exec .ethSyncTimeout s = .next t ∧ t.timeState = 3 ∧
      t.pkg.rd Reg.ETH_SYNC_TO_CNT = satAdd 16 (s.pkg.rd Reg.ETH_SYNC_TO_CNT) 1 ∧ s.posted t .ethTimeHoldover 0 [])) ∧
  (∀ (s : State) (tick nt ms : Word48) (rate : Int), s.ethOn = true → s.managerRuns = true → 64 ≤ (tick - (s.stake 0).ang.tick).toInt →
    iabs rate ≤ 219902326 → ms.toNat < 65536000000 →
    let m : NetMap := ⟨tick, nt, ms, rate⟩
    let step : Bool := 70368744177664 < iabs (BitVec.ofInt 78 (m.nt46 ⟨tick, 0⟩ - s.netMap.nt46 ⟨tick, 0⟩)).toInt
    let far : Bool := 100000 < iabs (s.pkg.rd Reg.ETH_OFFSET_EST).toInt
    ∃ t, exec (.mapCommit tick nt ms rate) s = .next t ∧
      (s.timeState = 0 ∨ s.timeState = 3 → t = s) ∧
      (step = false → s.timeState = 1 ∨ s.timeState = 2 → s.stakesKept t ∧ t.pkg.regs = s.pkg.regs ∧ t.pkg.net.mapNext = some m ∧
        t.pkg.evq = s.pkg.evq) ∧
      (step = true → s.timeState = 2 ∨ (s.timeState = 1 ∧ (s.pkg.net.stepped = true ∨ far = false)) → t = s) ∧
      (step = true → s.timeState = 1 → s.pkg.net.stepped = false → far = true → t.pkg.net.mapNext = some m ∧
        t.pkg.net.stepped = true ∧ t.pkg.rd Reg.ETH_STEP_CNT = satAdd 16 (s.pkg.rd Reg.ETH_STEP_CNT) 1 ∧
        ∃ v, s.posted t .ethTimeStep 0 [v])) ∧
  (∀ (s : State), s.managerRuns = true → s.timeState = 3 → s.pkg.net.holdAt + 400000000 * s.pkg.fld Reg.ETH_SERVO_HOLD_MAX < s.time →
    ∃ t, exec .holdoverTimeout s = .next t ∧ t.timeState = 0 ∧ s.posted t .ethTimeLost 0 [])


/-! Start-up and security. -/

/-- R325, R326, R328, R330 to R332, R403, R423 to R426, R430, R431, R434, R435, R442: the phases of a start. Power, `PERST#` and `SEC_RESET`;
the upsett phase finds the stakes that are alive; a slot that passes is taken, the other one tried, and RECOVERY entered with neither; the
image reaches every stake or the stake is lost; the configuration is judged and the axes leave NOT_READY; damaged copies are rewritten. -/
def Obligations.StartPhases : Prop :=
  (∀ (s : State) (n mv : Nat), s.present n = true → mv < 65536 →
    ∃ t, exec (.powerOn n mv) s = .next t ∧ (∀ m, m ≠ n → t.stake m = s.stake m) ∧ (t.stake n).fld Reg.SUP_STATUS_VSUP_MV = mv ∧
      (s.stake n).regsKept (t.stake n) [Reg.SUP_STATUS] ∧ t.pkg.regs = s.pkg.regs ∧
      (2900 < mv → t.pkg.boot.vsupUp = true ∧ (t.stake n).flag Reg.SUP_STATUS_INHIBIT = (mv ≤ 3100 : Bool)) ∧
      (mv ≤ 2900 → t.pkg.boot = s.pkg.boot)) ∧
  (∀ (s : State) (low progress : Nat), low < 400 → exec (.perstAssert low progress) s = .next s) ∧
  (∀ (s : State) (low progress : Nat), 400 ≤ low → s.pkg.boot.cfgOp = none → s.pkg.boot.rwOp = none → s.pkg.boot.otpJobs = [] →
    ∃ t, exec (.perstAssert low progress) s = .next t ∧ t.pkg.nv = s.pkg.nv ∧ t.part = s.part ∧ t.pkg.boot.phase = .held ∧
      t.pkg.boot.perstLow = true ∧ t.pkg.evq = [] ∧ t.pkg.host.writes = s.pkg.host.writes ∧ t.ready = false ∧
      ∀ m, m < 8 → (Stake.reset m).regsKept (t.stake m) [Reg.SUP_STATUS] ∧ (t.stake m).axis = axNotReady) ∧
  (∀ (s : State) (testen : Bool) (straps : Nat) (locks : List Nat), ∃ t, exec (.resetRelease testen straps locks) s = .next t ∧
    if s.pkg.boot.phase = .held ∧ s.pkg.boot.vsupUp = true then t = { s with pkg := { s.pkg with boot := { s.pkg.boot with
      perstLow := false, testen := testen, straps := straps, phase := .upsett, releasedAt := s.time, locks := locks } } }
    else t = s) ∧
  (∀ (s : State) (results : List UpsettRes), s.pkg.boot.phase = .upsett → s.stakes.length = 8 → results.length = s.part.stakes →
    ∃ t, exec (.upsettComplete results) s = .next t ∧
      (∀ n r, results[n]? = some r → t.alive n = (!upFails r && !(results.take 1).any upFails) ∧ (t.stake n).flag Reg.SPL_UPSETT_DONE = true ∧
        (upFails r = true → (t.stake n).stopped = true) ∧
        (upFails r = false → (t.stake n).fld Reg.SPL_CORE_PLL_CORE_FAIL = r.cores % 8 ∧
          (t.stake n).flag Reg.CLK_STATUS_PLL_LOCK = true)) ∧
      ∀ r0, results[0]? = some r0 →
        t.pkg.boot.phase = (if upFails r0 then .dead else if s.pkg.boot.testen then .testWait else .imagePreferred)) ∧
  (∀ (s : State) (answers : Bool), s.pkg.boot.phase = .imagePreferred ∨ s.pkg.boot.phase = .imageOther →
    let first : Bool := s.pkg.boot.phase = .imagePreferred
    let slot := if first then s.pkg.nv.prefer else 1 - s.pkg.nv.prefer
    let c := s.verifySlot slot answers
    ∃ t, exec (.slotVerifyDone answers) s = .next t ∧ t.pkg.fld (causeField slot) = c ∧
      (t.stake 0).sram = (if c = 15 ∨ c = 6 then (s.bodyLoad slot).stake 0 else s.stake 0).sram ∧
      (c = 15 → (t.pkg.boot.phase = .distribution ∨ t.pkg.boot.phase = .configuration) ∧ t.pkg.boot.running = s.pkg.nv.header slot ∧
        t.pkg.fld Reg.SEC_BOOT_STATUS_SLOT = slot ∧ t.pkg.flag Reg.SEC_BOOT_STATUS_FALLBACK = !first ∧
        (first = false → ∃ v, s.posted t .secSlotFallback 1 v)) ∧
      (c ≠ 15 → first = true → t.pkg.boot.phase = .imageOther ∧ (if c = 6 then s.bodyLoad slot else s).stakesKept t) ∧
      (c ≠ 15 → first = false → t.pkg.boot.phase = .recovery ∧ t.pkg.fld Reg.SEC_BOOT_STATUS_STATE = 2 ∧ t.ready = true ∧
        (s.ringEn 0 = false → ∃ v, s.posted t .secBootFail 0 v))) ∧
  (∀ (s : State) (n : Nat), n ≠ 0 → s.pkg.boot.phase = .distribution → s.alive n = true → (s.stake n).wal.started = false →
    let len := leOf s.pkg.boot.running 8 4
    let at_ := (s.stake n).wal.fwBytes
    let body := (s.stake 0).sramRead at_ (min 48 (len - at_))
    let ws := (List.range 8).map fun i => leOf (body ++ List.replicate 48 0) (6 * i) 6
    ∃ t, exec (.firmwareBlockCell n) s = .next t ∧ (s.onStake 0 fun k => k.sendCell (k.cell n 3 8 (at_ / 48) ws)).elsewhere t n ∧
      t.stake n = { (s.stake n).sramLoad at_ body with wal := (t.stake n).wal, regs := (t.stake n).regs } ∧
      if (s.stake n).wal.fwBytes + 48 < len then (t.stake n).wal.fwBytes = (s.stake n).wal.fwBytes + 48 ∧ (t.stake n).wal.started = false
      else (t.stake n).wal.fwBytes = len ∧ (t.stake n).wal.started = true) ∧
  (∀ (s : State) (n : Nat), n ≠ 0 → s.pkg.boot.phase = .distribution → s.alive n = true → n ∉ s.pkg.boot.distDone →
    leOf s.pkg.boot.running 8 4 ≤ (s.stake n).wal.fwBytes → (s.stake n).wal.fwAt + 4000000 ≤ (s.stake n).now → s.pkg.evq.length < 510 →
    ∃ t, exec (.distributionTimeout n) s = .next t ∧ t.alive n = false ∧ (∃ q ∈ t.pkg.evq, q.post.ev = .secDistFail ∧ q.post.vals = [n]) ∧
      (t.pkg.boot.phase = .configuration ↔ ∀ m, m < s.part.stakes → t.alive m = true → m ∈ s.pkg.boot.distDone)) ∧
  (∀ (s : State) (mask : Nat) (writes : List (Nat × Reg32)), s.pkg.boot.phase = .configuration →
    ∃ t, exec (.configLoad mask writes) s = .next t ∧ t.pkg.boot.phase = .ready ∧ t.pkg.fld Reg.SEC_BOOT_STATUS_STATE = 1 ∧ t.ready = true ∧
      (writes = [] →
        let (row, pick, rw) := cfgJudge s.pkg.nv.cfg
        t.pkg.fld Reg.NVM_CFG_STATUS_OUTCOME = row ∧ t.pkg.flag Reg.NVM_CFG_STATUS_IN_FORCE = pick.isSome ∧ t.pkg.boot.rewrite = rw ∧
        t.pkg.boot.inForce = pick.map (fun i => nth {} s.pkg.nv.cfg i) ∧
        ∀ n, s.present n = true → (s.stake n).stopped = false → (s.stake n).mulOut = false → (s.stake n).axis = axNotReady →
          (t.stake n).axis = if pick.isSome then axOff else axSafe)) ∧
  (∀ (s : State) (i : Nat) (rest : List Nat), s.pkg.boot.rewrite = i :: rest → i < s.pkg.nv.cfg.length → s.pkg.boot.phase = .ready →
    (s.stake 0).flag Reg.SUP_STATUS_INHIBIT = false → s.pkg.boot.cfgOp = none → s.pkg.boot.rwOp = none → (s.stake 0).vote.halted = false →
    ∃ t, exec .configRewrite s = .next t ∧ s.stakesKept t ∧ t.pkg.nv = s.pkg.nv ∧ t.pkg.regs = s.pkg.regs ∧
      t.pkg.boot = { s.pkg.boot with rwOp := some i, sealOp := t.pkg.boot.sealOp, sealQ := t.pkg.boot.sealQ } ∧
      if s.pkg.boot.sealOp = none then t.pkg.boot.sealOp = some (.cfg .rewrite, [])
      else t.pkg.boot.sealOp = s.pkg.boot.sealOp ∧ t.pkg.boot.sealQ = s.pkg.boot.sealQ ++ [.cfg .rewrite]) ∧
  (∀ (s : State), s.pkg.boot.rewrite = [] → ∃ t, exec .configRewriteDone s = .next t ∧ s.stakesKept t ∧
    t.pkg.flag Reg.NVM_CFG_STATUS_REWRITE_PENDING = false ∧ s.pkg.regsKept t.pkg [Reg.NVM_CFG_STATUS] ∧ s.pkg.restKept t.pkg) ∧
  (∀ (s : State) (src : Src) (w : Reg32), s.pkgAdmits src Reg.SEC_RESET w →
    ∃ t, exec (.secReset src w) s = .next t ∧
      if w.toNat % 65536 ≠ 0xA5C3 then t = s
      else if s.axesIn [axOff, axSafe] then t = { s with pkg := { s.pkg with boot := { s.pkg.boot with
        resetDue := s.pkg.boot.resetDue.or (some (s.time + 4000)) } } }
      else t.pkg.flag Reg.SEC_CMD_STATUS_CFG_REFUSED = true ∧ t.pkg.fld Reg.SEC_CMD_STATUS_CAUSE = 3 ∧ t.pkg.boot = s.pkg.boot ∧
        s.posted t .secCfgRefused 0 [3])

/-- R324, R327, R360, R361, R432, R433, R437, R439, R440, R442: configuration writes, flash staging and commits are checked and refused or
begin, and their ends complete them; the seal unit's operations; enrolment and unlocking. -/
def Obligations.SealAndStore : Prop :=
  (∀ (s s' : State) (r : Nat) (data : List Nat) (progress : Nat) (d : Desc), s.takeDesc r 0x30 = some (d, s') → s.underWay r d.cid →
    ∃ t, exec (.cfgWrite r data progress) s = .next t ∧ s'.stakesKept t ∧ (s.pkg.boot.rwOp = none → t.pkg.nv = s.pkg.nv) ∧
      match s'.bulkRefusal d s.pkg.boot.cfgOp.isSome none with
      | some (st, _) => s'.completes t d.cid 0x30 st
      | none => if leOf d.body 20 6 ≠ s.cfgGen + 1 then s'.completes t d.cid 0x30 7
        else ∃ x, t.pkg.boot.cfgOp = some x ∧ x.ring = r ∧ x.cid = d.cid ∧ x.copy.body = dataOf (leOf d.body 16 4) data ∧
          t.pkg.boot.rewrite = [] ∧ t.pkg.boot.rwOp = none ∧ t.pkg.flag Reg.NVM_CFG_STATUS_REWRITE_PENDING = false ∧
          t.pkg.host.reads = s.pkg.host.reads ++ [{ ring := r, cid := d.cid, cls := 3, left := (leOf d.body 16 4 + 63) / 64 }] ∧
          (s.pkg.boot.sealOp = none → t.pkg.boot.sealOp = some (.cfg .write, []))) ∧
  (∀ (s : State) (mask : Nat) (writes : List (Nat × Reg32)) (op : CfgOp), s.pkg.boot.cfgOp = some op → op.digests = 3 →
    (s.stake 0).vote.halted = false → s.underWay op.ring op.cid →
    s.pkg.boot.inForce ≠ none ∨ s.pkg.boot.phase ≠ .ready ∨ writes = [] →
    ∃ t, exec (.cfgWriteDone mask writes) s = .next t ∧ t.pkg.nv = s.pkg.nv.copySteps [0, 1, 2] op.copy (3 * copyOps) ∧
      t.pkg.boot.cfgOp = none ∧ s.completes t op.cid 0x30 0) ∧
  (∀ (s s' : State) (r : Nat) (data : List Nat) (d : Desc), s.takeDesc r 0x31 = some (d, s') → s.underWay r d.cid →
    let slot := nth 0 d.body 24
    let off := leOf d.body 20 4
    let len := leOf d.body 16 4
    ∃ t, exec (.fwStage r data) s = .next t ∧ s'.stakesKept t ∧ t.pkg.nv = { s.pkg.nv with flash := t.pkg.nv.flash } ∧
      match s'.bulkRefusal d s'.flashBusy (some slot) with
      | some (st, _) => s'.completes t d.cid 0x31 st ∧ t.pkg.nv = s.pkg.nv
      | none => slot ∈ t.pkg.boot.staged ∧
        t.pkg.host.reads = s.pkg.host.reads ++ [{ ring := r, cid := d.cid, cls := 3, left := (len + 63) / 64 }] ∧
        t.pkg.boot.fwOp = some { ring := r, cid := d.cid, slot := slot, off := off, data := dataOf len data } ∧
        ∀ i a, i < 64 → off ≤ 65536 * i → 65536 * i < off + len → slotBase slot + 65536 * i ≤ a → a < slotBase slot + 65536 * (i + 1) →
          t.pkg.nv.flash.get flashErased a = 0xFFFFFFFF) ∧
  (∀ (s : State) (ok : Bool) (op : FwOp), s.pkg.boot.fwOp = some op → s.readDone op.ring op.cid = true → s.underWay op.ring op.cid →
    ∃ t, exec (.fwStageDone ok) s = .next t ∧ s.stakesKept t ∧ t.pkg.boot.fwOp = none ∧ s.completes t op.cid 0x31 (if ok then 0 else 11) ∧
      (ok = true → ∀ j w, (wordsOf op.data)[j]? = some w → t.pkg.nv.flash.get flashErased (slotBase op.slot + op.off + 4 * j) =
        s.pkg.nv.flash.get flashErased (slotBase op.slot + op.off + 4 * j) &&& w)) ∧
  (∀ (s s' : State) (r : Nat) (d : Desc), s.takeDesc r 0x32 = some (d, s') → s.underWay r d.cid →
    let slot := nth 0 d.body 8
    ∃ t, exec (.fwCommit r) s = .next t ∧ s'.stakesKept t ∧ t.pkg.nv = s.pkg.nv ∧
      match s'.bulkRefusal d s'.flashBusy (some slot) with
      | some (st, _) => s'.completes t d.cid 0x32 st
      | none => if s.pkg.boot.sealOp = none then t.pkg.boot.sealOp = some (.commit r d.cid slot, [])
        else t.pkg.boot.sealQ = s.pkg.boot.sealQ ++ [.commit r d.cid slot]) ∧
  (∀ (s s' : State) (r : Nat) (d : Desc), s.takeDesc r 0x45 = some (d, s') → s.underWay r d.cid →
    let op : SealOp := .attest r d.cid (leOf d.body 8 8) ((d.body.drop 20).take 32)
    ∃ t, exec (.attest r) s = .next t ∧ s'.stakesKept t ∧ t.pkg.nv = s.pkg.nv ∧
      (leOf d.body 16 4 < 1536 → s'.completes t d.cid 0x45 7) ∧
      (1536 ≤ leOf d.body 16 4 → if s.pkg.boot.sealOp = none then ∃ m, t.pkg.boot.sealOp = some (op, m) ∧ m.take 4 = [1, 0, 0, 0]
        else t.pkg.boot.sealQ = s.pkg.boot.sealQ ++ [op])) ∧
  (∀ (s : State) (m : List Nat) (answers : Bool), s.pkg.boot.sealQ = [] →
    (∀ c, s.pkg.boot.sealOp = some (.cfg .write, m) → s.pkg.boot.cfgOp = some c → s.readDone c.ring c.cid = true →
      ∃ t, exec (.sealOperationDone answers) s = .next t ∧ s.stakesKept t ∧ t.pkg.nv = s.pkg.nv ∧
      t.pkg.boot.cfgOp = some { c with digests := c.digests + 1 } ∧
      t.pkg.boot.sealOp = if c.digests + 1 < 3 then some (.cfg .write, []) else none) ∧
    (∀ i, s.pkg.boot.sealOp = some (.cfg .rewrite, m) → s.pkg.boot.rwOp = some i →
      ∃ t, exec (.sealOperationDone answers) s = .next t ∧ s.stakesKept t ∧ t.pkg.boot.sealOp = none ∧ t.pkg.boot.rwOp = none ∧
      t.pkg.nv = s.pkg.nv.copySteps [i] s.pkg.boot.chosen copyOps ∧ i ∉ t.pkg.boot.rewrite) ∧
    (∀ r cid slot, s.pkg.boot.sealOp = some (.commit r cid slot, m) → slot < 2 → s.underWay r cid →
      ∃ t, exec (.sealOperationDone answers) s = .next t ∧ s.stakesKept t ∧ t.pkg.boot.sealOp = none ∧ t.pkg.boot.staged = [] ∧
        if s.verifySlot slot answers ≠ 15 then s.completes t cid 0x32 5 ∧ t.pkg.nv = s.pkg.nv
        else if s.inhibited then s.completes t cid 0x32 4 ∧ t.pkg.nv = s.pkg.nv
        else s.completes t cid 0x32 0 ∧ t.pkg.fld Reg.SEC_PREFER_PREFER = slot ∧ t.pkg.nv = s.pkg.nv.commitSlot slot) ∧
    (∀ r cid addr nonce, s.pkg.boot.sealOp = some (.attest r cid addr nonce, m) → s.underWay r cid →
      ∃ t, exec (.sealOperationDone answers) s = .next t ∧ s.stakesKept t ∧ t.pkg.boot.sealOp = none ∧ t.pkg.nv = s.pkg.nv ∧
        s.completes t cid 0x45 0 ∧ ∃ sig, sig.length = 1280 ∧ (addr, m ++ sig) ∈ t.pkg.host.writes.drop s.pkg.host.writes.length)) ∧
  (∀ (s : State) (src : Src) (w : Reg32), s.pkgAdmits src Reg.SEC_ENROLL w →
    let c := s.enrolCause
    ∃ t, exec (.secEnroll src w) s = .next t ∧
      if w.toNat % 65536 ≠ 0x3C5A then t = s
      else if c = 0 then t.pkg.nv = s.pkg.nv ∧ s.stakesKept t ∧
        ∃ j, t.pkg.boot.otpJobs = s.pkg.boot.otpJobs ++ [j] ∧ j.bits = enrolBits s.enrolDigest ∧ j.enrol = true
      else t.pkg.nv = s.pkg.nv ∧ t.pkg.fld Reg.SEC_CMD_STATUS_CAUSE = c ∧ t.pkg.flag Reg.SEC_CMD_STATUS_CFG_REFUSED = true ∧
        s.posted t .secCfgRefused 0 [c]) ∧
  (∀ (s : State) (j : OtpJob) (at_ b : Nat) (bs : List Nat), s.pkg.boot.otpJobs = [j] → j.due = some at_ → j.bits = b :: bs →
    at_ ≤ s.time → s.tickOtp.pkg.nv = s.pkg.nv.blow b ∧ s.stakesKept s.tickOtp ∧
      (bs ≠ [] → ∃ j', s.tickOtp.pkg.boot.otpJobs = [j'] ∧ j'.bits = bs) ∧
      (bs = [] → s.tickOtp.pkg.boot.otpJobs = [] ∧ (j.enrol = true → s.posted s.tickOtp .secEnrolled 0 []))) ∧
  (∀ (s : State) (src : Src) (w : Reg32), s.pkgAdmits src Reg.SEC_UNLOCK_CTRL w →
    ∃ t, exec (.unlockSubmit src w) s = .next t ∧ s.stakesKept t ∧
      (w.getLsbD 0 = false ∨ s.pkg.boot.phase ≠ .testWait → t = s) ∧
      (w.getLsbD 0 = true → s.pkg.boot.phase = .testWait → s.pkg.boot.erasing = false →
        (t.pkg.fld Reg.SEC_UNLOCK_CTRL_RESULT = 1 ∧ t.pkg.boot.erasing = true) ∨
        (t.pkg.fld Reg.SEC_UNLOCK_CTRL_RESULT = 2 ∧ t.pkg.boot.erasing = false))) ∧
  (∀ (s : State), s.pkg.boot.erasing = true → (s.stake 0).flag Reg.SUP_STATUS_INHIBIT = false →
    ∃ t, exec .unlockEraseDone s = .next t ∧ s.stakesKept t ∧ t.pkg.nv = { s.pkg.nv with envm := updAt s.pkg.nv.envm 0 fun _ => [], badLines := [] } ∧
      t.pkg.boot.phase = .test ∧ t.pkg.boot.erasing = false ∧ t.pkg.fld Reg.SEC_BOOT_STATUS_STATE = 4)
end

