-- ==== Sys2Proof/Laws/Store.lean ====
section
/-! SUPPORT. What a store of words says: read after write, the canonical form and that every operation keeps it, and the fields of a
word. -/
namespace Sys2Proof.Machine

variable {d : Nat → BitVec 32}

@[simp] theorem Store.get_nil (k : Nat) : Store.get d [] k = d k := rfl

theorem Store.get_cons (a : Nat) (v : BitVec 32) (t : Store) (k : Nat) :
    Store.get d ((a, v) :: t) k = if k = a then v else Store.get d t k := rfl

theorem Store.above_iff {b : Nat} {s : Store} : Store.above b s = true ↔ ∀ p ∈ s, b < p.1 := by
  simp [Store.above]

theorem Store.wf_cons {a : Nat} {v : BitVec 32} {t : Store} :
    Store.wf d ((a, v) :: t) = true ↔ v ≠ d a ∧ (∀ p ∈ t, a < p.1) ∧ Store.wf d t = true := by
  simp [Store.wf, Store.above_iff, and_assoc]

/-- An offset below every listed one reads as what an unlisted offset reads as. -/
theorem Store.get_below {s : Store} {k : Nat} (h : ∀ p ∈ s, k < p.1) : Store.get d s k = d k := by
  induction s with
  | nil => rfl
  | cons p t ih =>
    obtain ⟨a, v⟩ := p
    have hk : k < a := h (a, v) (by simp)
    rw [Store.get_cons, if_neg (by omega)]
    exact ih fun q hq => h q (by simp [hq])

theorem Store.get_ins_same {s : Store} {k : Nat} (v : BitVec 32) (h : ∀ p ∈ s, p.1 ≠ k) : (s.ins k v).get d k = v := by
  induction s with
  | nil => simp [Store.ins, Store.get_cons]
  | cons p t ih =>
    obtain ⟨a, w⟩ := p
    have ha : a ≠ k := h (a, w) (by simp)
    by_cases hk : k < a
    · simp [Store.ins, hk, Store.get_cons]
    · simp only [Store.ins, if_neg hk, Store.get_cons, if_neg ha.symm]
      exact ih fun q hq => h q (by simp [hq])

theorem Store.get_ins_ne {s : Store} {k j : Nat} (v : BitVec 32) (h : j ≠ k) : (s.ins k v).get d j = s.get d j := by
  induction s with
  | nil => simp [Store.ins, Store.get_cons, h]
  | cons p t ih =>
    obtain ⟨a, w⟩ := p
    by_cases hk : k < a
    · simp [Store.ins, hk, Store.get_cons, h]
    · simp only [Store.ins, if_neg hk, Store.get_cons, ih]

theorem Store.get_filter {s : Store} {q : Nat → Bool} (j : Nat) :
    Store.get d (s.filter fun p => q p.1) j = if q j then s.get d j else d j := by
  induction s with
  | nil => simp
  | cons p t ih =>
    obtain ⟨a, w⟩ := p
    by_cases ha : q a = true
    · rw [List.filter_cons_of_pos (by simpa using ha), Store.get_cons, Store.get_cons, ih]
      by_cases hj : j = a
      · subst hj; simp [ha]
      · simp [hj]
    · rw [List.filter_cons_of_neg (by simpa using ha), Store.get_cons, ih]
      by_cases hj : j = a
      · subst hj; simp [ha]
      · simp [hj]

/-- A read after a write to the same offset gives the word written. -/
theorem Store.get_set_same (s : Store) (k : Nat) (v : BitVec 32) : (s.set d k v).get d k = v := by
  have hf := Store.get_filter (d := d) (s := s) (q := fun a => decide (a ≠ k)) k
  simp only [Store.set]
  by_cases hv : v = d k
  · rw [if_pos hv, hv]
    simpa using hf
  · rw [if_neg hv]
    exact Store.get_ins_same v fun p hp => by simpa using (List.mem_filter.1 hp).2

/-- A write leaves every other offset alone. -/
theorem Store.get_set_ne {s : Store} {k j : Nat} (h : j ≠ k) (v : BitVec 32) : (s.set d k v).get d j = s.get d j := by
  have hf := Store.get_filter (d := d) (s := s) (q := fun a => decide (a ≠ k)) j
  simp only [Store.set]
  by_cases hv : v = d k
  · rw [if_pos hv]
    simpa [h] using hf
  · rw [if_neg hv, Store.get_ins_ne v h]
    simpa [h] using hf

theorem Store.mem_ins {s : Store} {k : Nat} {v : BitVec 32} {p : Nat × BitVec 32} : p ∈ s.ins k v ↔ p = (k, v) ∨ p ∈ s := by
  induction s with
  | nil => simp [Store.ins]
  | cons q t ih =>
    obtain ⟨a, w⟩ := q
    by_cases hk : k < a
    · simp [Store.ins, hk]
    · simp only [Store.ins, if_neg hk, List.mem_cons, ih]
      tauto

theorem Store.mem_ne {s : Store} (h : Store.wf d s = true) : ∀ p ∈ s, p.2 ≠ d p.1 := by
  induction s with
  | nil => simp
  | cons p t ih =>
    obtain ⟨a, v⟩ := p
    obtain ⟨hv, _, ht⟩ := Store.wf_cons.1 h
    intro q hq
    rcases List.mem_cons.1 hq with rfl | hq
    · exact hv
    · exact ih ht q hq

/-- The canonical form in the library's words. -/
theorem Store.wf_iff {s : Store} :
    Store.wf d s = true ↔ s.Pairwise (fun p q => p.1 < q.1) ∧ ∀ p ∈ s, p.2 ≠ d p.1 := by
  induction s with
  | nil => simp [Store.wf]
  | cons p t ih =>
    obtain ⟨a, v⟩ := p
    rw [Store.wf_cons, ih, List.pairwise_cons]
    simp only [List.forall_mem_cons]
    tauto

theorem Store.ins_wf {s : Store} {k : Nat} {v : BitVec 32} (hv : v ≠ d k) (hk : ∀ p ∈ s, p.1 ≠ k) (h : Store.wf d s = true) :
    Store.wf d (s.ins k v) = true := by
  induction s with
  | nil => simpa [Store.ins, Store.wf, Store.above] using hv
  | cons q t ih =>
    obtain ⟨a, w⟩ := q
    obtain ⟨hw, hab, ht⟩ := Store.wf_cons.1 h
    have ha : a ≠ k := hk (a, w) (by simp)
    by_cases hlt : k < a
    · simp only [Store.ins, if_pos hlt]
      refine Store.wf_cons.2 ⟨hv, ?_, h⟩
      intro q hq
      rcases List.mem_cons.1 hq with rfl | hq
      · exact hlt
      · exact lt_trans hlt (hab q hq)
    · simp only [Store.ins, if_neg hlt]
      refine Store.wf_cons.2 ⟨hw, ?_, ih (fun p hp => hk p (by simp [hp])) ht⟩
      intro p hp
      rcases Store.mem_ins.1 hp with rfl | hp
      · show a < k
        omega
      · exact hab p hp

/-- A write keeps the canonical form. -/
theorem Store.set_wf {s : Store} (h : Store.wf d s = true) (k : Nat) (v : BitVec 32) : Store.wf d (s.set d k v) = true := by
  have hf : Store.wf d (s.filter fun p => p.1 ≠ k) = true := by
    rw [Store.wf_iff] at h ⊢
    exact ⟨h.1.filter _, fun p hp => h.2 p (List.mem_filter.1 hp).1⟩
  simp only [Store.set]
  by_cases hv : v = d k
  · rw [if_pos hv]; exact hf
  · rw [if_neg hv]
    exact Store.ins_wf hv (fun p hp => by simpa using (List.mem_filter.1 hp).2) hf

theorem Store.get_append (l t : Store) (j : Nat) :
    Store.get d (l ++ t) j = if l.any (fun p => p.1 = j) then Store.get d l j else Store.get d t j := by
  induction l with
  | nil => simp
  | cons p l ih =>
    obtain ⟨a, w⟩ := p
    rw [List.cons_append, Store.get_cons, Store.get_cons, ih]
    by_cases hj : j = a
    · simp [hj]
    · simp [hj, Ne.symm hj]

/-- An offset that is not listed reads as what an unlisted offset reads as. -/
theorem Store.get_unlisted {s : Store} {j : Nat} (h : ∀ p ∈ s, p.1 ≠ j) : Store.get d s j = d j := by
  induction s with
  | nil => rfl
  | cons p t ih =>
    obtain ⟨a, w⟩ := p
    rw [Store.get_cons, if_neg (h (a, w) (by simp)).symm]
    exact ih fun q hq => h q (by simp [hq])

/-- The first of two parts answers where the second lists nothing, or where the first lists the offset. -/
theorem Store.get_append_left {l t : Store} {j : Nat} (h : ∀ p ∈ t, p.1 ≠ j) : Store.get d (l ++ t) j = Store.get d l j := by
  rw [Store.get_append]
  split
  · rfl
  · rename_i hl
    rw [Store.get_unlisted h, Store.get_unlisted]
    intro p hp he
    exact hl (List.any_eq_true.2 ⟨p, hp, by simpa using he⟩)

/-- The second of two parts answers where the first does not list the offset. -/
theorem Store.get_append_right {l t : Store} {j : Nat} (h : ∀ p ∈ l, p.1 ≠ j) : Store.get d (l ++ t) j = Store.get d t j := by
  rw [Store.get_append, if_neg]
  intro hl
  obtain ⟨p, hp, he⟩ := List.any_eq_true.1 hl
  exact h p hp (by simpa using he)

/-- What a range copied from another store reads as. -/
theorem Store.get_copyRange {src dst : Store} (lo hi j : Nat) :
    Store.get d (Store.copyRange lo hi src dst) j = if lo ≤ j ∧ j < hi then src.get d j else dst.get d j := by
  have f1 := Store.get_filter (d := d) (s := dst) (q := fun a => decide (a < lo)) j
  have f2 := Store.get_filter (d := d) (s := src) (q := fun a => decide (lo ≤ a) && decide (a < hi)) j
  have f3 := Store.get_filter (d := d) (s := dst) (q := fun a => decide (hi ≤ a)) j
  have m1 : ∀ p ∈ dst.filter (fun p => p.1 < lo), p.1 < lo := fun p hp => by simpa using (List.mem_filter.1 hp).2
  have m2 : ∀ p ∈ src.filter (fun p => lo ≤ p.1 && p.1 < hi), lo ≤ p.1 ∧ p.1 < hi := fun p hp => by
    simpa using (List.mem_filter.1 hp).2
  have m3 : ∀ p ∈ dst.filter (fun p => hi ≤ p.1), hi ≤ p.1 := fun p hp => by simpa using (List.mem_filter.1 hp).2
  simp only [Store.copyRange]
  by_cases h1 : j < lo
  · rw [if_neg (by omega)]
    by_cases h3 : hi ≤ j
    · rw [Store.get_append]
      split
      · rw [Store.get_append_left fun p hp => by have := m2 p hp; omega]
        simpa [h1] using f1
      · simpa [h3] using f3
    · rw [Store.get_append_left fun p hp => by have := m3 p hp; omega,
        Store.get_append_left fun p hp => by have := m2 p hp; omega]
      simpa [h1] using f1
  · by_cases h3 : hi ≤ j
    · rw [if_neg (by omega), Store.get_append_right]
      · simpa [h3] using f3
      · intro p hp
        rcases List.mem_append.1 hp with hp | hp
        · have := m1 p hp; omega
        · have := m2 p hp; omega
    · rw [if_pos (by omega), Store.get_append_left fun p hp => by have := m3 p hp; omega,
        Store.get_append_right fun p hp => by have := m1 p hp; omega]
      have h1' : lo ≤ j := by omega
      have h3' : j < hi := by omega
      simpa [h1', h3'] using f2

/-- A copied range keeps the canonical form. -/
theorem Store.copyRange_wf {src dst : Store} (lo hi : Nat) (hl : lo ≤ hi) (hs : Store.wf d src = true) (ht : Store.wf d dst = true) :
    Store.wf d (Store.copyRange lo hi src dst) = true := by
  rw [Store.wf_iff] at hs ht ⊢
  obtain ⟨hs1, hs2⟩ := hs
  obtain ⟨ht1, ht2⟩ := ht
  constructor
  · simp only [Store.copyRange, List.pairwise_append, List.mem_append, List.mem_filter, Bool.and_eq_true, decide_eq_true_eq]
    refine ⟨⟨ht1.filter _, hs1.filter _, ?_⟩, ht1.filter _, ?_⟩
    · intro p hp q hq; omega
    · rintro p (hp | hp) q hq <;> omega
  · intro p hp
    simp only [Store.copyRange, List.mem_append, List.mem_filter] at hp
    rcases hp with (⟨h, _⟩ | ⟨h, _⟩) | ⟨h, _⟩
    · exact ht2 p h
    · exact hs2 p h
    · exact ht2 p h

/-- Two stores in canonical form that read alike are equal data. -/
theorem Store.ext_get {s t : Store} (hs : Store.wf d s = true) (ht : Store.wf d t = true) (h : ∀ k, s.get d k = t.get d k) : s = t := by
  induction s generalizing t with
  | nil =>
    cases t with
    | nil => rfl
    | cons p t =>
      obtain ⟨b, w⟩ := p
      have := h b
      simp [Store.get_cons] at this
      exact absurd this.symm (Store.wf_cons.1 ht).1
  | cons p s ih =>
    obtain ⟨a, v⟩ := p
    obtain ⟨hv, ha, hs'⟩ := Store.wf_cons.1 hs
    cases t with
    | nil =>
      have := h a
      simp [Store.get_cons] at this
      exact absurd this hv
    | cons q t =>
      obtain ⟨b, w⟩ := q
      obtain ⟨hw, hb, ht'⟩ := Store.wf_cons.1 ht
      rcases Nat.lt_trichotomy a b with hab | hab | hab
      · have h1 := h a
        rw [Store.get_cons, if_pos rfl, Store.get_below (s := (b, w) :: t)] at h1
        · exact absurd h1 hv
        · intro p hp
          rcases List.mem_cons.1 hp with rfl | hp
          · exact hab
          · exact lt_trans hab (hb p hp)
      · subst hab
        have h1 := h a
        simp only [Store.get_cons, if_true] at h1
        subst h1
        have : s = t := ih hs' ht' fun k => by
          have hk := h k
          simp only [Store.get_cons] at hk
          by_cases hka : k = a
          · subst hka
            rw [Store.get_below ha, Store.get_below hb]
          · simpa [hka] using hk
        rw [this]
      · have h1 := h b
        rw [Store.get_below (s := (a, v) :: s), Store.get_cons, if_pos rfl] at h1
        · exact absurd h1.symm hw
        · intro p hp
          rcases List.mem_cons.1 hp with rfl | hp
          · exact hab
          · exact lt_trans hab (ha p hp)

/-! Fields. -/

theorem Fld.of_testBit (f : Fld) (x : BitVec 32) (i : Nat) : (f.of x).testBit i = (decide (i < f.w) && x.getLsbD (f.lo + i)) := by
  simp [Fld.of, Nat.testBit_mod_two_pow, BitVec.getLsbD]

theorem ofNat_getElem (n j : Nat) (h : j < 32) : (BitVec.ofNat 32 n)[j] = n.testBit j := by
  rw [← BitVec.getLsbD_eq_getElem h, BitVec.getLsbD_ofNat]
  simp [h]

theorem Fld.put_getLsbD (f : Fld) (x : BitVec 32) (v i : Nat) :
    (f.put x v).getLsbD i =
      if f.lo ≤ i ∧ i < f.lo + f.w ∧ i < 32 then v.testBit (i - f.lo) else x.getLsbD i := by
  by_cases h32 : i < 32
  · by_cases h1 : f.lo ≤ i
    · have hb : i - f.lo < 32 := by omega
      have hn : ¬ i < f.lo := by omega
      by_cases h2 : i < f.lo + f.w
      · have h3 : i - f.lo < f.w := by omega
        rw [BitVec.getLsbD_eq_getElem h32, if_pos ⟨h1, h2, h32⟩]
        simp only [Fld.put, Fld.mask, BitVec.getElem_or, BitVec.getElem_and, BitVec.getElem_not, BitVec.getElem_shiftLeft]
        simp [hn, h3, ofNat_getElem, Nat.testBit_two_pow_sub_one, Nat.testBit_mod_two_pow]
      · have h3 : ¬ i - f.lo < f.w := by omega
        rw [BitVec.getLsbD_eq_getElem h32, if_neg (by omega), BitVec.getLsbD_eq_getElem h32]
        simp only [Fld.put, Fld.mask, BitVec.getElem_or, BitVec.getElem_and, BitVec.getElem_not, BitVec.getElem_shiftLeft]
        simp [hn, h3, ofNat_getElem, Nat.testBit_two_pow_sub_one, Nat.testBit_mod_two_pow]
    · simp [Fld.put, Fld.mask, h32, h1, show i < f.lo by omega]
  · have : 32 ≤ i := by omega
    simp [BitVec.getLsbD_of_ge _ _ this, h32]

/-- A field reads as the value put into it, modulo its width. -/
theorem Fld.of_put_same (f : Fld) (x : BitVec 32) (v : Nat) (h : f.lo + f.w ≤ 32) : f.of (f.put x v) = v % 2 ^ f.w := by
  apply Nat.eq_of_testBit_eq
  intro i
  rw [Fld.of_testBit, Nat.testBit_mod_two_pow]
  by_cases hi : i < f.w
  · rw [Fld.put_getLsbD, if_pos (by omega), Nat.add_sub_cancel_left]
  · simp [hi]

/-- A field is not changed by one that shares no bit with it. -/
theorem Fld.of_put_disj (f g : Fld) (x : BitVec 32) (v : Nat) (h : f.lo + f.w ≤ g.lo ∨ g.lo + g.w ≤ f.lo) :
    g.of (f.put x v) = g.of x := by
  apply Nat.eq_of_testBit_eq
  intro i
  simp only [Fld.of_testBit]
  by_cases hi : i < g.w
  · rw [Fld.put_getLsbD, if_neg (by omega)]
  · simp [hi]

/-- A field's value is below two to its width. -/
theorem Fld.of_lt (f : Fld) (x : BitVec 32) : f.of x < 2 ^ f.w := Nat.mod_lt _ (Nat.two_pow_pos _)

end Sys2Proof.Machine
end

