-- ==== Sys2Proof/Laws/State.lean ====
section
/-! SUPPORT. What each update of the state leaves alone, field by field, and what a register reads as after a write. -/
namespace Sys2Proof.Machine

/-! Updates of a stake: every field but the one named. -/
section
variable (k : Stake)

@[simp] theorem Stake.wr_id (off : Nat) (v : BitVec 32) : (k.wr off v).id = k.id := rfl
@[simp] theorem Stake.wr_ringN (off : Nat) (v : BitVec 32) : (k.wr off v).ringN = k.ringN := rfl
@[simp] theorem Stake.wr_act (off : Nat) (v : BitVec 32) : (k.wr off v).act = k.act := rfl
@[simp] theorem Stake.wr_tbl (off : Nat) (v : BitVec 32) : (k.wr off v).tbl = k.tbl := rfl
@[simp] theorem Stake.wr_sram (off : Nat) (v : BitVec 32) : (k.wr off v).sram = k.sram := rfl
@[simp] theorem Stake.wr_lowStage (off : Nat) (v : BitVec 32) : (k.wr off v).lowStage = k.lowStage := rfl
@[simp] theorem Stake.wr_snap (off : Nat) (v : BitVec 32) : (k.wr off v).snap = k.snap := rfl
@[simp] theorem Stake.wr_now (off : Nat) (v : BitVec 32) : (k.wr off v).now = k.now := rfl
@[simp] theorem Stake.wr_fresh (off : Nat) (v : BitVec 32) : (k.wr off v).fresh = k.fresh := rfl
@[simp] theorem Stake.wr_out (off : Nat) (v : BitVec 32) : (k.wr off v).out = k.out := rfl
@[simp] theorem Stake.wr_done (off : Nat) (v : BitVec 32) : (k.wr off v).done = k.done := rfl
@[simp] theorem Stake.wr_offers (off : Nat) (v : BitVec 32) : (k.wr off v).offers = k.offers := rfl
@[simp] theorem Stake.wr_str (off : Nat) (v : BitVec 32) : (k.wr off v).str = k.str := rfl
@[simp] theorem Stake.wr_bounds (off : Nat) (v : BitVec 32) : (k.wr off v).bounds = k.bounds := rfl
@[simp] theorem Stake.wr_tuneUsed (off : Nat) (v : BitVec 32) : (k.wr off v).tuneUsed = k.tuneUsed := rfl
@[simp] theorem Stake.wr_wal (off : Nat) (v : BitVec 32) : (k.wr off v).wal = k.wal := rfl
@[simp] theorem Stake.wr_ang (off : Nat) (v : BitVec 32) : (k.wr off v).ang = k.ang := rfl
@[simp] theorem Stake.wr_sns (off : Nat) (v : BitVec 32) : (k.wr off v).sns = k.sns := rfl
@[simp] theorem Stake.wr_pos (off : Nat) (v : BitVec 32) : (k.wr off v).pos = k.pos := rfl
@[simp] theorem Stake.wr_fe (off : Nat) (v : BitVec 32) : (k.wr off v).fe = k.fe := rfl
@[simp] theorem Stake.wr_modu (off : Nat) (v : BitVec 32) : (k.wr off v).modu = k.modu := rfl
@[simp] theorem Stake.wr_leg (off : Nat) (v : BitVec 32) : (k.wr off v).leg = k.leg := rfl
@[simp] theorem Stake.wr_prt (off : Nat) (v : BitVec 32) : (k.wr off v).prt = k.prt := rfl
@[simp] theorem Stake.wr_pair (off : Nat) (v : BitVec 32) : (k.wr off v).pair = k.pair := rfl
@[simp] theorem Stake.wr_vote (off : Nat) (v : BitVec 32) : (k.wr off v).vote = k.vote := rfl
@[simp] theorem Stake.wr_thm (off : Nat) (v : BitVec 32) : (k.wr off v).thm = k.thm := rfl
@[simp] theorem Stake.wr_stopped (off : Nat) (v : BitVec 32) : (k.wr off v).stopped = k.stopped := rfl

@[simp] theorem Stake.put_id (f : Fld) (v : Nat) : (k.put f v).id = k.id := rfl
@[simp] theorem Stake.put_ringN (f : Fld) (v : Nat) : (k.put f v).ringN = k.ringN := rfl
@[simp] theorem Stake.put_act (f : Fld) (v : Nat) : (k.put f v).act = k.act := rfl
@[simp] theorem Stake.put_tbl (f : Fld) (v : Nat) : (k.put f v).tbl = k.tbl := rfl
@[simp] theorem Stake.put_sram (f : Fld) (v : Nat) : (k.put f v).sram = k.sram := rfl
@[simp] theorem Stake.put_lowStage (f : Fld) (v : Nat) : (k.put f v).lowStage = k.lowStage := rfl
@[simp] theorem Stake.put_snap (f : Fld) (v : Nat) : (k.put f v).snap = k.snap := rfl
@[simp] theorem Stake.put_now (f : Fld) (v : Nat) : (k.put f v).now = k.now := rfl
@[simp] theorem Stake.put_fresh (f : Fld) (v : Nat) : (k.put f v).fresh = k.fresh := rfl
@[simp] theorem Stake.put_out (f : Fld) (v : Nat) : (k.put f v).out = k.out := rfl
@[simp] theorem Stake.put_done (f : Fld) (v : Nat) : (k.put f v).done = k.done := rfl
@[simp] theorem Stake.put_offers (f : Fld) (v : Nat) : (k.put f v).offers = k.offers := rfl
@[simp] theorem Stake.put_str (f : Fld) (v : Nat) : (k.put f v).str = k.str := rfl
@[simp] theorem Stake.put_bounds (f : Fld) (v : Nat) : (k.put f v).bounds = k.bounds := rfl
@[simp] theorem Stake.put_tuneUsed (f : Fld) (v : Nat) : (k.put f v).tuneUsed = k.tuneUsed := rfl
@[simp] theorem Stake.put_wal (f : Fld) (v : Nat) : (k.put f v).wal = k.wal := rfl
@[simp] theorem Stake.put_ang (f : Fld) (v : Nat) : (k.put f v).ang = k.ang := rfl
@[simp] theorem Stake.put_sns (f : Fld) (v : Nat) : (k.put f v).sns = k.sns := rfl
@[simp] theorem Stake.put_pos (f : Fld) (v : Nat) : (k.put f v).pos = k.pos := rfl
@[simp] theorem Stake.put_fe (f : Fld) (v : Nat) : (k.put f v).fe = k.fe := rfl
@[simp] theorem Stake.put_modu (f : Fld) (v : Nat) : (k.put f v).modu = k.modu := rfl
@[simp] theorem Stake.put_leg (f : Fld) (v : Nat) : (k.put f v).leg = k.leg := rfl
@[simp] theorem Stake.put_prt (f : Fld) (v : Nat) : (k.put f v).prt = k.prt := rfl
@[simp] theorem Stake.put_pair (f : Fld) (v : Nat) : (k.put f v).pair = k.pair := rfl
@[simp] theorem Stake.put_vote (f : Fld) (v : Nat) : (k.put f v).vote = k.vote := rfl
@[simp] theorem Stake.put_thm (f : Fld) (v : Nat) : (k.put f v).thm = k.thm := rfl
@[simp] theorem Stake.put_stopped (f : Fld) (v : Nat) : (k.put f v).stopped = k.stopped := rfl

@[simp] theorem Stake.putB_id (f : Fld) (b : Bool) : (k.putB f b).id = k.id := rfl
@[simp] theorem Stake.putB_ringN (f : Fld) (b : Bool) : (k.putB f b).ringN = k.ringN := rfl
@[simp] theorem Stake.putB_act (f : Fld) (b : Bool) : (k.putB f b).act = k.act := rfl
@[simp] theorem Stake.putB_tbl (f : Fld) (b : Bool) : (k.putB f b).tbl = k.tbl := rfl
@[simp] theorem Stake.putB_sram (f : Fld) (b : Bool) : (k.putB f b).sram = k.sram := rfl
@[simp] theorem Stake.putB_lowStage (f : Fld) (b : Bool) : (k.putB f b).lowStage = k.lowStage := rfl
@[simp] theorem Stake.putB_snap (f : Fld) (b : Bool) : (k.putB f b).snap = k.snap := rfl
@[simp] theorem Stake.putB_now (f : Fld) (b : Bool) : (k.putB f b).now = k.now := rfl
@[simp] theorem Stake.putB_fresh (f : Fld) (b : Bool) : (k.putB f b).fresh = k.fresh := rfl
@[simp] theorem Stake.putB_out (f : Fld) (b : Bool) : (k.putB f b).out = k.out := rfl
@[simp] theorem Stake.putB_done (f : Fld) (b : Bool) : (k.putB f b).done = k.done := rfl
@[simp] theorem Stake.putB_offers (f : Fld) (b : Bool) : (k.putB f b).offers = k.offers := rfl
@[simp] theorem Stake.putB_str (f : Fld) (b : Bool) : (k.putB f b).str = k.str := rfl
@[simp] theorem Stake.putB_bounds (f : Fld) (b : Bool) : (k.putB f b).bounds = k.bounds := rfl
@[simp] theorem Stake.putB_tuneUsed (f : Fld) (b : Bool) : (k.putB f b).tuneUsed = k.tuneUsed := rfl
@[simp] theorem Stake.putB_wal (f : Fld) (b : Bool) : (k.putB f b).wal = k.wal := rfl
@[simp] theorem Stake.putB_ang (f : Fld) (b : Bool) : (k.putB f b).ang = k.ang := rfl
@[simp] theorem Stake.putB_sns (f : Fld) (b : Bool) : (k.putB f b).sns = k.sns := rfl
@[simp] theorem Stake.putB_pos (f : Fld) (b : Bool) : (k.putB f b).pos = k.pos := rfl
@[simp] theorem Stake.putB_fe (f : Fld) (b : Bool) : (k.putB f b).fe = k.fe := rfl
@[simp] theorem Stake.putB_modu (f : Fld) (b : Bool) : (k.putB f b).modu = k.modu := rfl
@[simp] theorem Stake.putB_leg (f : Fld) (b : Bool) : (k.putB f b).leg = k.leg := rfl
@[simp] theorem Stake.putB_prt (f : Fld) (b : Bool) : (k.putB f b).prt = k.prt := rfl
@[simp] theorem Stake.putB_pair (f : Fld) (b : Bool) : (k.putB f b).pair = k.pair := rfl
@[simp] theorem Stake.putB_vote (f : Fld) (b : Bool) : (k.putB f b).vote = k.vote := rfl
@[simp] theorem Stake.putB_thm (f : Fld) (b : Bool) : (k.putB f b).thm = k.thm := rfl
@[simp] theorem Stake.putB_stopped (f : Fld) (b : Bool) : (k.putB f b).stopped = k.stopped := rfl

@[simp] theorem Stake.putI_id (f : Fld) (v : Int) : (k.putI f v).id = k.id := rfl
@[simp] theorem Stake.putI_ringN (f : Fld) (v : Int) : (k.putI f v).ringN = k.ringN := rfl
@[simp] theorem Stake.putI_act (f : Fld) (v : Int) : (k.putI f v).act = k.act := rfl
@[simp] theorem Stake.putI_tbl (f : Fld) (v : Int) : (k.putI f v).tbl = k.tbl := rfl
@[simp] theorem Stake.putI_sram (f : Fld) (v : Int) : (k.putI f v).sram = k.sram := rfl
@[simp] theorem Stake.putI_lowStage (f : Fld) (v : Int) : (k.putI f v).lowStage = k.lowStage := rfl
@[simp] theorem Stake.putI_snap (f : Fld) (v : Int) : (k.putI f v).snap = k.snap := rfl
@[simp] theorem Stake.putI_now (f : Fld) (v : Int) : (k.putI f v).now = k.now := rfl
@[simp] theorem Stake.putI_fresh (f : Fld) (v : Int) : (k.putI f v).fresh = k.fresh := rfl
@[simp] theorem Stake.putI_out (f : Fld) (v : Int) : (k.putI f v).out = k.out := rfl
@[simp] theorem Stake.putI_done (f : Fld) (v : Int) : (k.putI f v).done = k.done := rfl
@[simp] theorem Stake.putI_offers (f : Fld) (v : Int) : (k.putI f v).offers = k.offers := rfl
@[simp] theorem Stake.putI_str (f : Fld) (v : Int) : (k.putI f v).str = k.str := rfl
@[simp] theorem Stake.putI_bounds (f : Fld) (v : Int) : (k.putI f v).bounds = k.bounds := rfl
@[simp] theorem Stake.putI_tuneUsed (f : Fld) (v : Int) : (k.putI f v).tuneUsed = k.tuneUsed := rfl
@[simp] theorem Stake.putI_wal (f : Fld) (v : Int) : (k.putI f v).wal = k.wal := rfl
@[simp] theorem Stake.putI_ang (f : Fld) (v : Int) : (k.putI f v).ang = k.ang := rfl
@[simp] theorem Stake.putI_sns (f : Fld) (v : Int) : (k.putI f v).sns = k.sns := rfl
@[simp] theorem Stake.putI_pos (f : Fld) (v : Int) : (k.putI f v).pos = k.pos := rfl
@[simp] theorem Stake.putI_fe (f : Fld) (v : Int) : (k.putI f v).fe = k.fe := rfl
@[simp] theorem Stake.putI_modu (f : Fld) (v : Int) : (k.putI f v).modu = k.modu := rfl
@[simp] theorem Stake.putI_leg (f : Fld) (v : Int) : (k.putI f v).leg = k.leg := rfl
@[simp] theorem Stake.putI_prt (f : Fld) (v : Int) : (k.putI f v).prt = k.prt := rfl
@[simp] theorem Stake.putI_pair (f : Fld) (v : Int) : (k.putI f v).pair = k.pair := rfl
@[simp] theorem Stake.putI_vote (f : Fld) (v : Int) : (k.putI f v).vote = k.vote := rfl
@[simp] theorem Stake.putI_thm (f : Fld) (v : Int) : (k.putI f v).thm = k.thm := rfl
@[simp] theorem Stake.putI_stopped (f : Fld) (v : Int) : (k.putI f v).stopped = k.stopped := rfl

@[simp] theorem Stake.put48_id (off : Nat) (v : Word48) : (k.put48 off v).id = k.id := rfl
@[simp] theorem Stake.put48_ringN (off : Nat) (v : Word48) : (k.put48 off v).ringN = k.ringN := rfl
@[simp] theorem Stake.put48_act (off : Nat) (v : Word48) : (k.put48 off v).act = k.act := rfl
@[simp] theorem Stake.put48_tbl (off : Nat) (v : Word48) : (k.put48 off v).tbl = k.tbl := rfl
@[simp] theorem Stake.put48_sram (off : Nat) (v : Word48) : (k.put48 off v).sram = k.sram := rfl
@[simp] theorem Stake.put48_lowStage (off : Nat) (v : Word48) : (k.put48 off v).lowStage = k.lowStage := rfl
@[simp] theorem Stake.put48_snap (off : Nat) (v : Word48) : (k.put48 off v).snap = k.snap := rfl
@[simp] theorem Stake.put48_now (off : Nat) (v : Word48) : (k.put48 off v).now = k.now := rfl
@[simp] theorem Stake.put48_fresh (off : Nat) (v : Word48) : (k.put48 off v).fresh = k.fresh := rfl
@[simp] theorem Stake.put48_out (off : Nat) (v : Word48) : (k.put48 off v).out = k.out := rfl
@[simp] theorem Stake.put48_done (off : Nat) (v : Word48) : (k.put48 off v).done = k.done := rfl
@[simp] theorem Stake.put48_offers (off : Nat) (v : Word48) : (k.put48 off v).offers = k.offers := rfl
@[simp] theorem Stake.put48_str (off : Nat) (v : Word48) : (k.put48 off v).str = k.str := rfl
@[simp] theorem Stake.put48_bounds (off : Nat) (v : Word48) : (k.put48 off v).bounds = k.bounds := rfl
@[simp] theorem Stake.put48_tuneUsed (off : Nat) (v : Word48) : (k.put48 off v).tuneUsed = k.tuneUsed := rfl
@[simp] theorem Stake.put48_wal (off : Nat) (v : Word48) : (k.put48 off v).wal = k.wal := rfl
@[simp] theorem Stake.put48_ang (off : Nat) (v : Word48) : (k.put48 off v).ang = k.ang := rfl
@[simp] theorem Stake.put48_sns (off : Nat) (v : Word48) : (k.put48 off v).sns = k.sns := rfl
@[simp] theorem Stake.put48_pos (off : Nat) (v : Word48) : (k.put48 off v).pos = k.pos := rfl
@[simp] theorem Stake.put48_fe (off : Nat) (v : Word48) : (k.put48 off v).fe = k.fe := rfl
@[simp] theorem Stake.put48_modu (off : Nat) (v : Word48) : (k.put48 off v).modu = k.modu := rfl
@[simp] theorem Stake.put48_leg (off : Nat) (v : Word48) : (k.put48 off v).leg = k.leg := rfl
@[simp] theorem Stake.put48_prt (off : Nat) (v : Word48) : (k.put48 off v).prt = k.prt := rfl
@[simp] theorem Stake.put48_pair (off : Nat) (v : Word48) : (k.put48 off v).pair = k.pair := rfl
@[simp] theorem Stake.put48_vote (off : Nat) (v : Word48) : (k.put48 off v).vote = k.vote := rfl
@[simp] theorem Stake.put48_thm (off : Nat) (v : Word48) : (k.put48 off v).thm = k.thm := rfl
@[simp] theorem Stake.put48_stopped (off : Nat) (v : Word48) : (k.put48 off v).stopped = k.stopped := rfl

@[simp] theorem Stake.wrAct_id (off : Nat) (v : BitVec 32) : (k.wrAct off v).id = k.id := rfl
@[simp] theorem Stake.wrAct_ringN (off : Nat) (v : BitVec 32) : (k.wrAct off v).ringN = k.ringN := rfl
@[simp] theorem Stake.wrAct_regs (off : Nat) (v : BitVec 32) : (k.wrAct off v).regs = k.regs := rfl
@[simp] theorem Stake.wrAct_tbl (off : Nat) (v : BitVec 32) : (k.wrAct off v).tbl = k.tbl := rfl
@[simp] theorem Stake.wrAct_sram (off : Nat) (v : BitVec 32) : (k.wrAct off v).sram = k.sram := rfl
@[simp] theorem Stake.wrAct_lowStage (off : Nat) (v : BitVec 32) : (k.wrAct off v).lowStage = k.lowStage := rfl
@[simp] theorem Stake.wrAct_snap (off : Nat) (v : BitVec 32) : (k.wrAct off v).snap = k.snap := rfl
@[simp] theorem Stake.wrAct_now (off : Nat) (v : BitVec 32) : (k.wrAct off v).now = k.now := rfl
@[simp] theorem Stake.wrAct_fresh (off : Nat) (v : BitVec 32) : (k.wrAct off v).fresh = k.fresh := rfl
@[simp] theorem Stake.wrAct_out (off : Nat) (v : BitVec 32) : (k.wrAct off v).out = k.out := rfl
@[simp] theorem Stake.wrAct_done (off : Nat) (v : BitVec 32) : (k.wrAct off v).done = k.done := rfl
@[simp] theorem Stake.wrAct_offers (off : Nat) (v : BitVec 32) : (k.wrAct off v).offers = k.offers := rfl
@[simp] theorem Stake.wrAct_str (off : Nat) (v : BitVec 32) : (k.wrAct off v).str = k.str := rfl
@[simp] theorem Stake.wrAct_bounds (off : Nat) (v : BitVec 32) : (k.wrAct off v).bounds = k.bounds := rfl
@[simp] theorem Stake.wrAct_tuneUsed (off : Nat) (v : BitVec 32) : (k.wrAct off v).tuneUsed = k.tuneUsed := rfl
@[simp] theorem Stake.wrAct_wal (off : Nat) (v : BitVec 32) : (k.wrAct off v).wal = k.wal := rfl
@[simp] theorem Stake.wrAct_ang (off : Nat) (v : BitVec 32) : (k.wrAct off v).ang = k.ang := rfl
@[simp] theorem Stake.wrAct_sns (off : Nat) (v : BitVec 32) : (k.wrAct off v).sns = k.sns := rfl
@[simp] theorem Stake.wrAct_pos (off : Nat) (v : BitVec 32) : (k.wrAct off v).pos = k.pos := rfl
@[simp] theorem Stake.wrAct_fe (off : Nat) (v : BitVec 32) : (k.wrAct off v).fe = k.fe := rfl
@[simp] theorem Stake.wrAct_modu (off : Nat) (v : BitVec 32) : (k.wrAct off v).modu = k.modu := rfl
@[simp] theorem Stake.wrAct_leg (off : Nat) (v : BitVec 32) : (k.wrAct off v).leg = k.leg := rfl
@[simp] theorem Stake.wrAct_prt (off : Nat) (v : BitVec 32) : (k.wrAct off v).prt = k.prt := rfl
@[simp] theorem Stake.wrAct_pair (off : Nat) (v : BitVec 32) : (k.wrAct off v).pair = k.pair := rfl
@[simp] theorem Stake.wrAct_vote (off : Nat) (v : BitVec 32) : (k.wrAct off v).vote = k.vote := rfl
@[simp] theorem Stake.wrAct_thm (off : Nat) (v : BitVec 32) : (k.wrAct off v).thm = k.thm := rfl
@[simp] theorem Stake.wrAct_stopped (off : Nat) (v : BitVec 32) : (k.wrAct off v).stopped = k.stopped := rfl

@[simp] theorem Stake.putAct48_id (off : Nat) (v : Word48) : (k.putAct48 off v).id = k.id := rfl
@[simp] theorem Stake.putAct48_ringN (off : Nat) (v : Word48) : (k.putAct48 off v).ringN = k.ringN := rfl
@[simp] theorem Stake.putAct48_regs (off : Nat) (v : Word48) : (k.putAct48 off v).regs = k.regs := rfl
@[simp] theorem Stake.putAct48_tbl (off : Nat) (v : Word48) : (k.putAct48 off v).tbl = k.tbl := rfl
@[simp] theorem Stake.putAct48_sram (off : Nat) (v : Word48) : (k.putAct48 off v).sram = k.sram := rfl
@[simp] theorem Stake.putAct48_lowStage (off : Nat) (v : Word48) : (k.putAct48 off v).lowStage = k.lowStage := rfl
@[simp] theorem Stake.putAct48_snap (off : Nat) (v : Word48) : (k.putAct48 off v).snap = k.snap := rfl
@[simp] theorem Stake.putAct48_now (off : Nat) (v : Word48) : (k.putAct48 off v).now = k.now := rfl
@[simp] theorem Stake.putAct48_fresh (off : Nat) (v : Word48) : (k.putAct48 off v).fresh = k.fresh := rfl
@[simp] theorem Stake.putAct48_out (off : Nat) (v : Word48) : (k.putAct48 off v).out = k.out := rfl
@[simp] theorem Stake.putAct48_done (off : Nat) (v : Word48) : (k.putAct48 off v).done = k.done := rfl
@[simp] theorem Stake.putAct48_offers (off : Nat) (v : Word48) : (k.putAct48 off v).offers = k.offers := rfl
@[simp] theorem Stake.putAct48_str (off : Nat) (v : Word48) : (k.putAct48 off v).str = k.str := rfl
@[simp] theorem Stake.putAct48_bounds (off : Nat) (v : Word48) : (k.putAct48 off v).bounds = k.bounds := rfl
@[simp] theorem Stake.putAct48_tuneUsed (off : Nat) (v : Word48) : (k.putAct48 off v).tuneUsed = k.tuneUsed := rfl
@[simp] theorem Stake.putAct48_wal (off : Nat) (v : Word48) : (k.putAct48 off v).wal = k.wal := rfl
@[simp] theorem Stake.putAct48_ang (off : Nat) (v : Word48) : (k.putAct48 off v).ang = k.ang := rfl
@[simp] theorem Stake.putAct48_sns (off : Nat) (v : Word48) : (k.putAct48 off v).sns = k.sns := rfl
@[simp] theorem Stake.putAct48_pos (off : Nat) (v : Word48) : (k.putAct48 off v).pos = k.pos := rfl
@[simp] theorem Stake.putAct48_fe (off : Nat) (v : Word48) : (k.putAct48 off v).fe = k.fe := rfl
@[simp] theorem Stake.putAct48_modu (off : Nat) (v : Word48) : (k.putAct48 off v).modu = k.modu := rfl
@[simp] theorem Stake.putAct48_leg (off : Nat) (v : Word48) : (k.putAct48 off v).leg = k.leg := rfl
@[simp] theorem Stake.putAct48_prt (off : Nat) (v : Word48) : (k.putAct48 off v).prt = k.prt := rfl
@[simp] theorem Stake.putAct48_pair (off : Nat) (v : Word48) : (k.putAct48 off v).pair = k.pair := rfl
@[simp] theorem Stake.putAct48_vote (off : Nat) (v : Word48) : (k.putAct48 off v).vote = k.vote := rfl
@[simp] theorem Stake.putAct48_thm (off : Nat) (v : Word48) : (k.putAct48 off v).thm = k.thm := rfl
@[simp] theorem Stake.putAct48_stopped (off : Nat) (v : Word48) : (k.putAct48 off v).stopped = k.stopped := rfl

@[simp] theorem Stake.applyRange_id (lo hi : Nat) : (k.applyRange lo hi).id = k.id := rfl
@[simp] theorem Stake.applyRange_ringN (lo hi : Nat) : (k.applyRange lo hi).ringN = k.ringN := rfl
@[simp] theorem Stake.applyRange_regs (lo hi : Nat) : (k.applyRange lo hi).regs = k.regs := rfl
@[simp] theorem Stake.applyRange_tbl (lo hi : Nat) : (k.applyRange lo hi).tbl = k.tbl := rfl
@[simp] theorem Stake.applyRange_sram (lo hi : Nat) : (k.applyRange lo hi).sram = k.sram := rfl
@[simp] theorem Stake.applyRange_lowStage (lo hi : Nat) : (k.applyRange lo hi).lowStage = k.lowStage := rfl
@[simp] theorem Stake.applyRange_snap (lo hi : Nat) : (k.applyRange lo hi).snap = k.snap := rfl
@[simp] theorem Stake.applyRange_now (lo hi : Nat) : (k.applyRange lo hi).now = k.now := rfl
@[simp] theorem Stake.applyRange_fresh (lo hi : Nat) : (k.applyRange lo hi).fresh = k.fresh := rfl
@[simp] theorem Stake.applyRange_out (lo hi : Nat) : (k.applyRange lo hi).out = k.out := rfl
@[simp] theorem Stake.applyRange_done (lo hi : Nat) : (k.applyRange lo hi).done = k.done := rfl
@[simp] theorem Stake.applyRange_offers (lo hi : Nat) : (k.applyRange lo hi).offers = k.offers := rfl
@[simp] theorem Stake.applyRange_str (lo hi : Nat) : (k.applyRange lo hi).str = k.str := rfl
@[simp] theorem Stake.applyRange_bounds (lo hi : Nat) : (k.applyRange lo hi).bounds = k.bounds := rfl
@[simp] theorem Stake.applyRange_tuneUsed (lo hi : Nat) : (k.applyRange lo hi).tuneUsed = k.tuneUsed := rfl
@[simp] theorem Stake.applyRange_wal (lo hi : Nat) : (k.applyRange lo hi).wal = k.wal := rfl
@[simp] theorem Stake.applyRange_ang (lo hi : Nat) : (k.applyRange lo hi).ang = k.ang := rfl
@[simp] theorem Stake.applyRange_sns (lo hi : Nat) : (k.applyRange lo hi).sns = k.sns := rfl
@[simp] theorem Stake.applyRange_pos (lo hi : Nat) : (k.applyRange lo hi).pos = k.pos := rfl
@[simp] theorem Stake.applyRange_fe (lo hi : Nat) : (k.applyRange lo hi).fe = k.fe := rfl
@[simp] theorem Stake.applyRange_modu (lo hi : Nat) : (k.applyRange lo hi).modu = k.modu := rfl
@[simp] theorem Stake.applyRange_leg (lo hi : Nat) : (k.applyRange lo hi).leg = k.leg := rfl
@[simp] theorem Stake.applyRange_prt (lo hi : Nat) : (k.applyRange lo hi).prt = k.prt := rfl
@[simp] theorem Stake.applyRange_pair (lo hi : Nat) : (k.applyRange lo hi).pair = k.pair := rfl
@[simp] theorem Stake.applyRange_vote (lo hi : Nat) : (k.applyRange lo hi).vote = k.vote := rfl
@[simp] theorem Stake.applyRange_thm (lo hi : Nat) : (k.applyRange lo hi).thm = k.thm := rfl
@[simp] theorem Stake.applyRange_stopped (lo hi : Nat) : (k.applyRange lo hi).stopped = k.stopped := rfl

@[simp] theorem Stake.emit_id (e : Ev) (c : Nat) (l : List Nat) (fl : Nat) : (k.emit e c l fl).id = k.id := rfl
@[simp] theorem Stake.emit_ringN (e : Ev) (c : Nat) (l : List Nat) (fl : Nat) : (k.emit e c l fl).ringN = k.ringN := rfl
@[simp] theorem Stake.emit_regs (e : Ev) (c : Nat) (l : List Nat) (fl : Nat) : (k.emit e c l fl).regs = k.regs := rfl
@[simp] theorem Stake.emit_act (e : Ev) (c : Nat) (l : List Nat) (fl : Nat) : (k.emit e c l fl).act = k.act := rfl
@[simp] theorem Stake.emit_tbl (e : Ev) (c : Nat) (l : List Nat) (fl : Nat) : (k.emit e c l fl).tbl = k.tbl := rfl
@[simp] theorem Stake.emit_sram (e : Ev) (c : Nat) (l : List Nat) (fl : Nat) : (k.emit e c l fl).sram = k.sram := rfl
@[simp] theorem Stake.emit_lowStage (e : Ev) (c : Nat) (l : List Nat) (fl : Nat) : (k.emit e c l fl).lowStage = k.lowStage := rfl
@[simp] theorem Stake.emit_snap (e : Ev) (c : Nat) (l : List Nat) (fl : Nat) : (k.emit e c l fl).snap = k.snap := rfl
@[simp] theorem Stake.emit_now (e : Ev) (c : Nat) (l : List Nat) (fl : Nat) : (k.emit e c l fl).now = k.now := rfl
@[simp] theorem Stake.emit_fresh (e : Ev) (c : Nat) (l : List Nat) (fl : Nat) : (k.emit e c l fl).fresh = k.fresh := rfl
@[simp] theorem Stake.emit_done (e : Ev) (c : Nat) (l : List Nat) (fl : Nat) : (k.emit e c l fl).done = k.done := rfl
@[simp] theorem Stake.emit_offers (e : Ev) (c : Nat) (l : List Nat) (fl : Nat) : (k.emit e c l fl).offers = k.offers := rfl
@[simp] theorem Stake.emit_str (e : Ev) (c : Nat) (l : List Nat) (fl : Nat) : (k.emit e c l fl).str = k.str := rfl
@[simp] theorem Stake.emit_bounds (e : Ev) (c : Nat) (l : List Nat) (fl : Nat) : (k.emit e c l fl).bounds = k.bounds := rfl
@[simp] theorem Stake.emit_tuneUsed (e : Ev) (c : Nat) (l : List Nat) (fl : Nat) : (k.emit e c l fl).tuneUsed = k.tuneUsed := rfl
@[simp] theorem Stake.emit_wal (e : Ev) (c : Nat) (l : List Nat) (fl : Nat) : (k.emit e c l fl).wal = k.wal := rfl
@[simp] theorem Stake.emit_ang (e : Ev) (c : Nat) (l : List Nat) (fl : Nat) : (k.emit e c l fl).ang = k.ang := rfl
@[simp] theorem Stake.emit_sns (e : Ev) (c : Nat) (l : List Nat) (fl : Nat) : (k.emit e c l fl).sns = k.sns := rfl
@[simp] theorem Stake.emit_pos (e : Ev) (c : Nat) (l : List Nat) (fl : Nat) : (k.emit e c l fl).pos = k.pos := rfl
@[simp] theorem Stake.emit_fe (e : Ev) (c : Nat) (l : List Nat) (fl : Nat) : (k.emit e c l fl).fe = k.fe := rfl
@[simp] theorem Stake.emit_modu (e : Ev) (c : Nat) (l : List Nat) (fl : Nat) : (k.emit e c l fl).modu = k.modu := rfl
@[simp] theorem Stake.emit_leg (e : Ev) (c : Nat) (l : List Nat) (fl : Nat) : (k.emit e c l fl).leg = k.leg := rfl
@[simp] theorem Stake.emit_prt (e : Ev) (c : Nat) (l : List Nat) (fl : Nat) : (k.emit e c l fl).prt = k.prt := rfl
@[simp] theorem Stake.emit_pair (e : Ev) (c : Nat) (l : List Nat) (fl : Nat) : (k.emit e c l fl).pair = k.pair := rfl
@[simp] theorem Stake.emit_vote (e : Ev) (c : Nat) (l : List Nat) (fl : Nat) : (k.emit e c l fl).vote = k.vote := rfl
@[simp] theorem Stake.emit_thm (e : Ev) (c : Nat) (l : List Nat) (fl : Nat) : (k.emit e c l fl).thm = k.thm := rfl
@[simp] theorem Stake.emit_stopped (e : Ev) (c : Nat) (l : List Nat) (fl : Nat) : (k.emit e c l fl).stopped = k.stopped := rfl

@[simp] theorem Stake.trip_id (c : Nat) (p : Option Nat) : (k.trip c p).id = k.id := rfl
@[simp] theorem Stake.trip_ringN (c : Nat) (p : Option Nat) : (k.trip c p).ringN = k.ringN := rfl
@[simp] theorem Stake.trip_regs (c : Nat) (p : Option Nat) : (k.trip c p).regs = k.regs := rfl
@[simp] theorem Stake.trip_act (c : Nat) (p : Option Nat) : (k.trip c p).act = k.act := rfl
@[simp] theorem Stake.trip_tbl (c : Nat) (p : Option Nat) : (k.trip c p).tbl = k.tbl := rfl
@[simp] theorem Stake.trip_sram (c : Nat) (p : Option Nat) : (k.trip c p).sram = k.sram := rfl
@[simp] theorem Stake.trip_lowStage (c : Nat) (p : Option Nat) : (k.trip c p).lowStage = k.lowStage := rfl
@[simp] theorem Stake.trip_snap (c : Nat) (p : Option Nat) : (k.trip c p).snap = k.snap := rfl
@[simp] theorem Stake.trip_now (c : Nat) (p : Option Nat) : (k.trip c p).now = k.now := rfl
@[simp] theorem Stake.trip_fresh (c : Nat) (p : Option Nat) : (k.trip c p).fresh = k.fresh := rfl
@[simp] theorem Stake.trip_out (c : Nat) (p : Option Nat) : (k.trip c p).out = k.out := rfl
@[simp] theorem Stake.trip_done (c : Nat) (p : Option Nat) : (k.trip c p).done = k.done := rfl
@[simp] theorem Stake.trip_offers (c : Nat) (p : Option Nat) : (k.trip c p).offers = k.offers := rfl
@[simp] theorem Stake.trip_str (c : Nat) (p : Option Nat) : (k.trip c p).str = k.str := rfl
@[simp] theorem Stake.trip_bounds (c : Nat) (p : Option Nat) : (k.trip c p).bounds = k.bounds := rfl
@[simp] theorem Stake.trip_tuneUsed (c : Nat) (p : Option Nat) : (k.trip c p).tuneUsed = k.tuneUsed := rfl
@[simp] theorem Stake.trip_wal (c : Nat) (p : Option Nat) : (k.trip c p).wal = k.wal := rfl
@[simp] theorem Stake.trip_ang (c : Nat) (p : Option Nat) : (k.trip c p).ang = k.ang := rfl
@[simp] theorem Stake.trip_sns (c : Nat) (p : Option Nat) : (k.trip c p).sns = k.sns := rfl
@[simp] theorem Stake.trip_pos (c : Nat) (p : Option Nat) : (k.trip c p).pos = k.pos := rfl
@[simp] theorem Stake.trip_fe (c : Nat) (p : Option Nat) : (k.trip c p).fe = k.fe := rfl
@[simp] theorem Stake.trip_modu (c : Nat) (p : Option Nat) : (k.trip c p).modu = k.modu := rfl
@[simp] theorem Stake.trip_leg (c : Nat) (p : Option Nat) : (k.trip c p).leg = k.leg := rfl
@[simp] theorem Stake.trip_pair (c : Nat) (p : Option Nat) : (k.trip c p).pair = k.pair := rfl
@[simp] theorem Stake.trip_vote (c : Nat) (p : Option Nat) : (k.trip c p).vote = k.vote := rfl
@[simp] theorem Stake.trip_thm (c : Nat) (p : Option Nat) : (k.trip c p).thm = k.thm := rfl
@[simp] theorem Stake.trip_stopped (c : Nat) (p : Option Nat) : (k.trip c p).stopped = k.stopped := rfl

@[simp] theorem Stake.onAng_id (f : AngState → AngState) : (k.onAng f).id = k.id := rfl
@[simp] theorem Stake.onAng_ringN (f : AngState → AngState) : (k.onAng f).ringN = k.ringN := rfl
@[simp] theorem Stake.onAng_regs (f : AngState → AngState) : (k.onAng f).regs = k.regs := rfl
@[simp] theorem Stake.onAng_act (f : AngState → AngState) : (k.onAng f).act = k.act := rfl
@[simp] theorem Stake.onAng_tbl (f : AngState → AngState) : (k.onAng f).tbl = k.tbl := rfl
@[simp] theorem Stake.onAng_sram (f : AngState → AngState) : (k.onAng f).sram = k.sram := rfl
@[simp] theorem Stake.onAng_lowStage (f : AngState → AngState) : (k.onAng f).lowStage = k.lowStage := rfl
@[simp] theorem Stake.onAng_snap (f : AngState → AngState) : (k.onAng f).snap = k.snap := rfl
@[simp] theorem Stake.onAng_now (f : AngState → AngState) : (k.onAng f).now = k.now := rfl
@[simp] theorem Stake.onAng_fresh (f : AngState → AngState) : (k.onAng f).fresh = k.fresh := rfl
@[simp] theorem Stake.onAng_out (f : AngState → AngState) : (k.onAng f).out = k.out := rfl
@[simp] theorem Stake.onAng_done (f : AngState → AngState) : (k.onAng f).done = k.done := rfl
@[simp] theorem Stake.onAng_offers (f : AngState → AngState) : (k.onAng f).offers = k.offers := rfl
@[simp] theorem Stake.onAng_str (f : AngState → AngState) : (k.onAng f).str = k.str := rfl
@[simp] theorem Stake.onAng_bounds (f : AngState → AngState) : (k.onAng f).bounds = k.bounds := rfl
@[simp] theorem Stake.onAng_tuneUsed (f : AngState → AngState) : (k.onAng f).tuneUsed = k.tuneUsed := rfl
@[simp] theorem Stake.onAng_wal (f : AngState → AngState) : (k.onAng f).wal = k.wal := rfl
@[simp] theorem Stake.onAng_sns (f : AngState → AngState) : (k.onAng f).sns = k.sns := rfl
@[simp] theorem Stake.onAng_pos (f : AngState → AngState) : (k.onAng f).pos = k.pos := rfl
@[simp] theorem Stake.onAng_fe (f : AngState → AngState) : (k.onAng f).fe = k.fe := rfl
@[simp] theorem Stake.onAng_modu (f : AngState → AngState) : (k.onAng f).modu = k.modu := rfl
@[simp] theorem Stake.onAng_leg (f : AngState → AngState) : (k.onAng f).leg = k.leg := rfl
@[simp] theorem Stake.onAng_prt (f : AngState → AngState) : (k.onAng f).prt = k.prt := rfl
@[simp] theorem Stake.onAng_pair (f : AngState → AngState) : (k.onAng f).pair = k.pair := rfl
@[simp] theorem Stake.onAng_vote (f : AngState → AngState) : (k.onAng f).vote = k.vote := rfl
@[simp] theorem Stake.onAng_thm (f : AngState → AngState) : (k.onAng f).thm = k.thm := rfl
@[simp] theorem Stake.onAng_stopped (f : AngState → AngState) : (k.onAng f).stopped = k.stopped := rfl

@[simp] theorem Stake.onClock_id (c : Nat) (f : Clock → Clock) : (k.onClock c f).id = k.id := rfl
@[simp] theorem Stake.onClock_ringN (c : Nat) (f : Clock → Clock) : (k.onClock c f).ringN = k.ringN := rfl
@[simp] theorem Stake.onClock_regs (c : Nat) (f : Clock → Clock) : (k.onClock c f).regs = k.regs := rfl
@[simp] theorem Stake.onClock_act (c : Nat) (f : Clock → Clock) : (k.onClock c f).act = k.act := rfl
@[simp] theorem Stake.onClock_tbl (c : Nat) (f : Clock → Clock) : (k.onClock c f).tbl = k.tbl := rfl
@[simp] theorem Stake.onClock_sram (c : Nat) (f : Clock → Clock) : (k.onClock c f).sram = k.sram := rfl
@[simp] theorem Stake.onClock_lowStage (c : Nat) (f : Clock → Clock) : (k.onClock c f).lowStage = k.lowStage := rfl
@[simp] theorem Stake.onClock_snap (c : Nat) (f : Clock → Clock) : (k.onClock c f).snap = k.snap := rfl
@[simp] theorem Stake.onClock_now (c : Nat) (f : Clock → Clock) : (k.onClock c f).now = k.now := rfl
@[simp] theorem Stake.onClock_fresh (c : Nat) (f : Clock → Clock) : (k.onClock c f).fresh = k.fresh := rfl
@[simp] theorem Stake.onClock_out (c : Nat) (f : Clock → Clock) : (k.onClock c f).out = k.out := rfl
@[simp] theorem Stake.onClock_done (c : Nat) (f : Clock → Clock) : (k.onClock c f).done = k.done := rfl
@[simp] theorem Stake.onClock_offers (c : Nat) (f : Clock → Clock) : (k.onClock c f).offers = k.offers := rfl
@[simp] theorem Stake.onClock_str (c : Nat) (f : Clock → Clock) : (k.onClock c f).str = k.str := rfl
@[simp] theorem Stake.onClock_bounds (c : Nat) (f : Clock → Clock) : (k.onClock c f).bounds = k.bounds := rfl
@[simp] theorem Stake.onClock_tuneUsed (c : Nat) (f : Clock → Clock) : (k.onClock c f).tuneUsed = k.tuneUsed := rfl
@[simp] theorem Stake.onClock_wal (c : Nat) (f : Clock → Clock) : (k.onClock c f).wal = k.wal := rfl
@[simp] theorem Stake.onClock_sns (c : Nat) (f : Clock → Clock) : (k.onClock c f).sns = k.sns := rfl
@[simp] theorem Stake.onClock_pos (c : Nat) (f : Clock → Clock) : (k.onClock c f).pos = k.pos := rfl
@[simp] theorem Stake.onClock_fe (c : Nat) (f : Clock → Clock) : (k.onClock c f).fe = k.fe := rfl
@[simp] theorem Stake.onClock_modu (c : Nat) (f : Clock → Clock) : (k.onClock c f).modu = k.modu := rfl
@[simp] theorem Stake.onClock_leg (c : Nat) (f : Clock → Clock) : (k.onClock c f).leg = k.leg := rfl
@[simp] theorem Stake.onClock_prt (c : Nat) (f : Clock → Clock) : (k.onClock c f).prt = k.prt := rfl
@[simp] theorem Stake.onClock_pair (c : Nat) (f : Clock → Clock) : (k.onClock c f).pair = k.pair := rfl
@[simp] theorem Stake.onClock_vote (c : Nat) (f : Clock → Clock) : (k.onClock c f).vote = k.vote := rfl
@[simp] theorem Stake.onClock_thm (c : Nat) (f : Clock → Clock) : (k.onClock c f).thm = k.thm := rfl
@[simp] theorem Stake.onClock_stopped (c : Nat) (f : Clock → Clock) : (k.onClock c f).stopped = k.stopped := rfl

@[simp] theorem Stake.onEntry_id (e : Nat) (f : Entry → Entry) : (k.onEntry e f).id = k.id := rfl
@[simp] theorem Stake.onEntry_ringN (e : Nat) (f : Entry → Entry) : (k.onEntry e f).ringN = k.ringN := rfl
@[simp] theorem Stake.onEntry_regs (e : Nat) (f : Entry → Entry) : (k.onEntry e f).regs = k.regs := rfl
@[simp] theorem Stake.onEntry_act (e : Nat) (f : Entry → Entry) : (k.onEntry e f).act = k.act := rfl
@[simp] theorem Stake.onEntry_tbl (e : Nat) (f : Entry → Entry) : (k.onEntry e f).tbl = k.tbl := rfl
@[simp] theorem Stake.onEntry_sram (e : Nat) (f : Entry → Entry) : (k.onEntry e f).sram = k.sram := rfl
@[simp] theorem Stake.onEntry_lowStage (e : Nat) (f : Entry → Entry) : (k.onEntry e f).lowStage = k.lowStage := rfl
@[simp] theorem Stake.onEntry_snap (e : Nat) (f : Entry → Entry) : (k.onEntry e f).snap = k.snap := rfl
@[simp] theorem Stake.onEntry_now (e : Nat) (f : Entry → Entry) : (k.onEntry e f).now = k.now := rfl
@[simp] theorem Stake.onEntry_fresh (e : Nat) (f : Entry → Entry) : (k.onEntry e f).fresh = k.fresh := rfl
@[simp] theorem Stake.onEntry_out (e : Nat) (f : Entry → Entry) : (k.onEntry e f).out = k.out := rfl
@[simp] theorem Stake.onEntry_done (e : Nat) (f : Entry → Entry) : (k.onEntry e f).done = k.done := rfl
@[simp] theorem Stake.onEntry_offers (e : Nat) (f : Entry → Entry) : (k.onEntry e f).offers = k.offers := rfl
@[simp] theorem Stake.onEntry_str (e : Nat) (f : Entry → Entry) : (k.onEntry e f).str = k.str := rfl
@[simp] theorem Stake.onEntry_bounds (e : Nat) (f : Entry → Entry) : (k.onEntry e f).bounds = k.bounds := rfl
@[simp] theorem Stake.onEntry_tuneUsed (e : Nat) (f : Entry → Entry) : (k.onEntry e f).tuneUsed = k.tuneUsed := rfl
@[simp] theorem Stake.onEntry_wal (e : Nat) (f : Entry → Entry) : (k.onEntry e f).wal = k.wal := rfl
@[simp] theorem Stake.onEntry_sns (e : Nat) (f : Entry → Entry) : (k.onEntry e f).sns = k.sns := rfl
@[simp] theorem Stake.onEntry_pos (e : Nat) (f : Entry → Entry) : (k.onEntry e f).pos = k.pos := rfl
@[simp] theorem Stake.onEntry_fe (e : Nat) (f : Entry → Entry) : (k.onEntry e f).fe = k.fe := rfl
@[simp] theorem Stake.onEntry_modu (e : Nat) (f : Entry → Entry) : (k.onEntry e f).modu = k.modu := rfl
@[simp] theorem Stake.onEntry_leg (e : Nat) (f : Entry → Entry) : (k.onEntry e f).leg = k.leg := rfl
@[simp] theorem Stake.onEntry_prt (e : Nat) (f : Entry → Entry) : (k.onEntry e f).prt = k.prt := rfl
@[simp] theorem Stake.onEntry_pair (e : Nat) (f : Entry → Entry) : (k.onEntry e f).pair = k.pair := rfl
@[simp] theorem Stake.onEntry_vote (e : Nat) (f : Entry → Entry) : (k.onEntry e f).vote = k.vote := rfl
@[simp] theorem Stake.onEntry_thm (e : Nat) (f : Entry → Entry) : (k.onEntry e f).thm = k.thm := rfl
@[simp] theorem Stake.onEntry_stopped (e : Nat) (f : Entry → Entry) : (k.onEntry e f).stopped = k.stopped := rfl

@[simp] theorem Stake.onSns_id (f : SnsState → SnsState) : (k.onSns f).id = k.id := rfl
@[simp] theorem Stake.onSns_ringN (f : SnsState → SnsState) : (k.onSns f).ringN = k.ringN := rfl
@[simp] theorem Stake.onSns_regs (f : SnsState → SnsState) : (k.onSns f).regs = k.regs := rfl
@[simp] theorem Stake.onSns_act (f : SnsState → SnsState) : (k.onSns f).act = k.act := rfl
@[simp] theorem Stake.onSns_tbl (f : SnsState → SnsState) : (k.onSns f).tbl = k.tbl := rfl
@[simp] theorem Stake.onSns_sram (f : SnsState → SnsState) : (k.onSns f).sram = k.sram := rfl
@[simp] theorem Stake.onSns_lowStage (f : SnsState → SnsState) : (k.onSns f).lowStage = k.lowStage := rfl
@[simp] theorem Stake.onSns_snap (f : SnsState → SnsState) : (k.onSns f).snap = k.snap := rfl
@[simp] theorem Stake.onSns_now (f : SnsState → SnsState) : (k.onSns f).now = k.now := rfl
@[simp] theorem Stake.onSns_fresh (f : SnsState → SnsState) : (k.onSns f).fresh = k.fresh := rfl
@[simp] theorem Stake.onSns_out (f : SnsState → SnsState) : (k.onSns f).out = k.out := rfl
@[simp] theorem Stake.onSns_done (f : SnsState → SnsState) : (k.onSns f).done = k.done := rfl
@[simp] theorem Stake.onSns_offers (f : SnsState → SnsState) : (k.onSns f).offers = k.offers := rfl
@[simp] theorem Stake.onSns_str (f : SnsState → SnsState) : (k.onSns f).str = k.str := rfl
@[simp] theorem Stake.onSns_bounds (f : SnsState → SnsState) : (k.onSns f).bounds = k.bounds := rfl
@[simp] theorem Stake.onSns_tuneUsed (f : SnsState → SnsState) : (k.onSns f).tuneUsed = k.tuneUsed := rfl
@[simp] theorem Stake.onSns_wal (f : SnsState → SnsState) : (k.onSns f).wal = k.wal := rfl
@[simp] theorem Stake.onSns_ang (f : SnsState → SnsState) : (k.onSns f).ang = k.ang := rfl
@[simp] theorem Stake.onSns_pos (f : SnsState → SnsState) : (k.onSns f).pos = k.pos := rfl
@[simp] theorem Stake.onSns_fe (f : SnsState → SnsState) : (k.onSns f).fe = k.fe := rfl
@[simp] theorem Stake.onSns_modu (f : SnsState → SnsState) : (k.onSns f).modu = k.modu := rfl
@[simp] theorem Stake.onSns_leg (f : SnsState → SnsState) : (k.onSns f).leg = k.leg := rfl
@[simp] theorem Stake.onSns_prt (f : SnsState → SnsState) : (k.onSns f).prt = k.prt := rfl
@[simp] theorem Stake.onSns_pair (f : SnsState → SnsState) : (k.onSns f).pair = k.pair := rfl
@[simp] theorem Stake.onSns_vote (f : SnsState → SnsState) : (k.onSns f).vote = k.vote := rfl
@[simp] theorem Stake.onSns_thm (f : SnsState → SnsState) : (k.onSns f).thm = k.thm := rfl
@[simp] theorem Stake.onSns_stopped (f : SnsState → SnsState) : (k.onSns f).stopped = k.stopped := rfl

@[simp] theorem Stake.onChan_id (c : Nat) (f : SnsChan → SnsChan) : (k.onChan c f).id = k.id := rfl
@[simp] theorem Stake.onChan_ringN (c : Nat) (f : SnsChan → SnsChan) : (k.onChan c f).ringN = k.ringN := rfl
@[simp] theorem Stake.onChan_regs (c : Nat) (f : SnsChan → SnsChan) : (k.onChan c f).regs = k.regs := rfl
@[simp] theorem Stake.onChan_act (c : Nat) (f : SnsChan → SnsChan) : (k.onChan c f).act = k.act := rfl
@[simp] theorem Stake.onChan_tbl (c : Nat) (f : SnsChan → SnsChan) : (k.onChan c f).tbl = k.tbl := rfl
@[simp] theorem Stake.onChan_sram (c : Nat) (f : SnsChan → SnsChan) : (k.onChan c f).sram = k.sram := rfl
@[simp] theorem Stake.onChan_lowStage (c : Nat) (f : SnsChan → SnsChan) : (k.onChan c f).lowStage = k.lowStage := rfl
@[simp] theorem Stake.onChan_snap (c : Nat) (f : SnsChan → SnsChan) : (k.onChan c f).snap = k.snap := rfl
@[simp] theorem Stake.onChan_now (c : Nat) (f : SnsChan → SnsChan) : (k.onChan c f).now = k.now := rfl
@[simp] theorem Stake.onChan_fresh (c : Nat) (f : SnsChan → SnsChan) : (k.onChan c f).fresh = k.fresh := rfl
@[simp] theorem Stake.onChan_out (c : Nat) (f : SnsChan → SnsChan) : (k.onChan c f).out = k.out := rfl
@[simp] theorem Stake.onChan_done (c : Nat) (f : SnsChan → SnsChan) : (k.onChan c f).done = k.done := rfl
@[simp] theorem Stake.onChan_offers (c : Nat) (f : SnsChan → SnsChan) : (k.onChan c f).offers = k.offers := rfl
@[simp] theorem Stake.onChan_str (c : Nat) (f : SnsChan → SnsChan) : (k.onChan c f).str = k.str := rfl
@[simp] theorem Stake.onChan_bounds (c : Nat) (f : SnsChan → SnsChan) : (k.onChan c f).bounds = k.bounds := rfl
@[simp] theorem Stake.onChan_tuneUsed (c : Nat) (f : SnsChan → SnsChan) : (k.onChan c f).tuneUsed = k.tuneUsed := rfl
@[simp] theorem Stake.onChan_wal (c : Nat) (f : SnsChan → SnsChan) : (k.onChan c f).wal = k.wal := rfl
@[simp] theorem Stake.onChan_ang (c : Nat) (f : SnsChan → SnsChan) : (k.onChan c f).ang = k.ang := rfl
@[simp] theorem Stake.onChan_pos (c : Nat) (f : SnsChan → SnsChan) : (k.onChan c f).pos = k.pos := rfl
@[simp] theorem Stake.onChan_fe (c : Nat) (f : SnsChan → SnsChan) : (k.onChan c f).fe = k.fe := rfl
@[simp] theorem Stake.onChan_modu (c : Nat) (f : SnsChan → SnsChan) : (k.onChan c f).modu = k.modu := rfl
@[simp] theorem Stake.onChan_leg (c : Nat) (f : SnsChan → SnsChan) : (k.onChan c f).leg = k.leg := rfl
@[simp] theorem Stake.onChan_prt (c : Nat) (f : SnsChan → SnsChan) : (k.onChan c f).prt = k.prt := rfl
@[simp] theorem Stake.onChan_pair (c : Nat) (f : SnsChan → SnsChan) : (k.onChan c f).pair = k.pair := rfl
@[simp] theorem Stake.onChan_vote (c : Nat) (f : SnsChan → SnsChan) : (k.onChan c f).vote = k.vote := rfl
@[simp] theorem Stake.onChan_thm (c : Nat) (f : SnsChan → SnsChan) : (k.onChan c f).thm = k.thm := rfl
@[simp] theorem Stake.onChan_stopped (c : Nat) (f : SnsChan → SnsChan) : (k.onChan c f).stopped = k.stopped := rfl

@[simp] theorem Stake.onGroup_id (g : Nat) (f : SnsGroup → SnsGroup) : (k.onGroup g f).id = k.id := rfl
@[simp] theorem Stake.onGroup_ringN (g : Nat) (f : SnsGroup → SnsGroup) : (k.onGroup g f).ringN = k.ringN := rfl
@[simp] theorem Stake.onGroup_regs (g : Nat) (f : SnsGroup → SnsGroup) : (k.onGroup g f).regs = k.regs := rfl
@[simp] theorem Stake.onGroup_act (g : Nat) (f : SnsGroup → SnsGroup) : (k.onGroup g f).act = k.act := rfl
@[simp] theorem Stake.onGroup_tbl (g : Nat) (f : SnsGroup → SnsGroup) : (k.onGroup g f).tbl = k.tbl := rfl
@[simp] theorem Stake.onGroup_sram (g : Nat) (f : SnsGroup → SnsGroup) : (k.onGroup g f).sram = k.sram := rfl
@[simp] theorem Stake.onGroup_lowStage (g : Nat) (f : SnsGroup → SnsGroup) : (k.onGroup g f).lowStage = k.lowStage := rfl
@[simp] theorem Stake.onGroup_snap (g : Nat) (f : SnsGroup → SnsGroup) : (k.onGroup g f).snap = k.snap := rfl
@[simp] theorem Stake.onGroup_now (g : Nat) (f : SnsGroup → SnsGroup) : (k.onGroup g f).now = k.now := rfl
@[simp] theorem Stake.onGroup_fresh (g : Nat) (f : SnsGroup → SnsGroup) : (k.onGroup g f).fresh = k.fresh := rfl
@[simp] theorem Stake.onGroup_out (g : Nat) (f : SnsGroup → SnsGroup) : (k.onGroup g f).out = k.out := rfl
@[simp] theorem Stake.onGroup_done (g : Nat) (f : SnsGroup → SnsGroup) : (k.onGroup g f).done = k.done := rfl
@[simp] theorem Stake.onGroup_offers (g : Nat) (f : SnsGroup → SnsGroup) : (k.onGroup g f).offers = k.offers := rfl
@[simp] theorem Stake.onGroup_str (g : Nat) (f : SnsGroup → SnsGroup) : (k.onGroup g f).str = k.str := rfl
@[simp] theorem Stake.onGroup_bounds (g : Nat) (f : SnsGroup → SnsGroup) : (k.onGroup g f).bounds = k.bounds := rfl
@[simp] theorem Stake.onGroup_tuneUsed (g : Nat) (f : SnsGroup → SnsGroup) : (k.onGroup g f).tuneUsed = k.tuneUsed := rfl
@[simp] theorem Stake.onGroup_wal (g : Nat) (f : SnsGroup → SnsGroup) : (k.onGroup g f).wal = k.wal := rfl
@[simp] theorem Stake.onGroup_ang (g : Nat) (f : SnsGroup → SnsGroup) : (k.onGroup g f).ang = k.ang := rfl
@[simp] theorem Stake.onGroup_pos (g : Nat) (f : SnsGroup → SnsGroup) : (k.onGroup g f).pos = k.pos := rfl
@[simp] theorem Stake.onGroup_fe (g : Nat) (f : SnsGroup → SnsGroup) : (k.onGroup g f).fe = k.fe := rfl
@[simp] theorem Stake.onGroup_modu (g : Nat) (f : SnsGroup → SnsGroup) : (k.onGroup g f).modu = k.modu := rfl
@[simp] theorem Stake.onGroup_leg (g : Nat) (f : SnsGroup → SnsGroup) : (k.onGroup g f).leg = k.leg := rfl
@[simp] theorem Stake.onGroup_prt (g : Nat) (f : SnsGroup → SnsGroup) : (k.onGroup g f).prt = k.prt := rfl
@[simp] theorem Stake.onGroup_pair (g : Nat) (f : SnsGroup → SnsGroup) : (k.onGroup g f).pair = k.pair := rfl
@[simp] theorem Stake.onGroup_vote (g : Nat) (f : SnsGroup → SnsGroup) : (k.onGroup g f).vote = k.vote := rfl
@[simp] theorem Stake.onGroup_thm (g : Nat) (f : SnsGroup → SnsGroup) : (k.onGroup g f).thm = k.thm := rfl
@[simp] theorem Stake.onGroup_stopped (g : Nat) (f : SnsGroup → SnsGroup) : (k.onGroup g f).stopped = k.stopped := rfl

@[simp] theorem Stake.onPos_id (f : PosState → PosState) : (k.onPos f).id = k.id := rfl
@[simp] theorem Stake.onPos_ringN (f : PosState → PosState) : (k.onPos f).ringN = k.ringN := rfl
@[simp] theorem Stake.onPos_regs (f : PosState → PosState) : (k.onPos f).regs = k.regs := rfl
@[simp] theorem Stake.onPos_act (f : PosState → PosState) : (k.onPos f).act = k.act := rfl
@[simp] theorem Stake.onPos_tbl (f : PosState → PosState) : (k.onPos f).tbl = k.tbl := rfl
@[simp] theorem Stake.onPos_sram (f : PosState → PosState) : (k.onPos f).sram = k.sram := rfl
@[simp] theorem Stake.onPos_lowStage (f : PosState → PosState) : (k.onPos f).lowStage = k.lowStage := rfl
@[simp] theorem Stake.onPos_snap (f : PosState → PosState) : (k.onPos f).snap = k.snap := rfl
@[simp] theorem Stake.onPos_now (f : PosState → PosState) : (k.onPos f).now = k.now := rfl
@[simp] theorem Stake.onPos_fresh (f : PosState → PosState) : (k.onPos f).fresh = k.fresh := rfl
@[simp] theorem Stake.onPos_out (f : PosState → PosState) : (k.onPos f).out = k.out := rfl
@[simp] theorem Stake.onPos_done (f : PosState → PosState) : (k.onPos f).done = k.done := rfl
@[simp] theorem Stake.onPos_offers (f : PosState → PosState) : (k.onPos f).offers = k.offers := rfl
@[simp] theorem Stake.onPos_str (f : PosState → PosState) : (k.onPos f).str = k.str := rfl
@[simp] theorem Stake.onPos_bounds (f : PosState → PosState) : (k.onPos f).bounds = k.bounds := rfl
@[simp] theorem Stake.onPos_tuneUsed (f : PosState → PosState) : (k.onPos f).tuneUsed = k.tuneUsed := rfl
@[simp] theorem Stake.onPos_wal (f : PosState → PosState) : (k.onPos f).wal = k.wal := rfl
@[simp] theorem Stake.onPos_ang (f : PosState → PosState) : (k.onPos f).ang = k.ang := rfl
@[simp] theorem Stake.onPos_sns (f : PosState → PosState) : (k.onPos f).sns = k.sns := rfl
@[simp] theorem Stake.onPos_fe (f : PosState → PosState) : (k.onPos f).fe = k.fe := rfl
@[simp] theorem Stake.onPos_modu (f : PosState → PosState) : (k.onPos f).modu = k.modu := rfl
@[simp] theorem Stake.onPos_leg (f : PosState → PosState) : (k.onPos f).leg = k.leg := rfl
@[simp] theorem Stake.onPos_prt (f : PosState → PosState) : (k.onPos f).prt = k.prt := rfl
@[simp] theorem Stake.onPos_pair (f : PosState → PosState) : (k.onPos f).pair = k.pair := rfl
@[simp] theorem Stake.onPos_vote (f : PosState → PosState) : (k.onPos f).vote = k.vote := rfl
@[simp] theorem Stake.onPos_thm (f : PosState → PosState) : (k.onPos f).thm = k.thm := rfl
@[simp] theorem Stake.onPos_stopped (f : PosState → PosState) : (k.onPos f).stopped = k.stopped := rfl

@[simp] theorem Stake.onFe_id (f : FldState → FldState) : (k.onFe f).id = k.id := rfl
@[simp] theorem Stake.onFe_ringN (f : FldState → FldState) : (k.onFe f).ringN = k.ringN := rfl
@[simp] theorem Stake.onFe_regs (f : FldState → FldState) : (k.onFe f).regs = k.regs := rfl
@[simp] theorem Stake.onFe_act (f : FldState → FldState) : (k.onFe f).act = k.act := rfl
@[simp] theorem Stake.onFe_tbl (f : FldState → FldState) : (k.onFe f).tbl = k.tbl := rfl
@[simp] theorem Stake.onFe_sram (f : FldState → FldState) : (k.onFe f).sram = k.sram := rfl
@[simp] theorem Stake.onFe_lowStage (f : FldState → FldState) : (k.onFe f).lowStage = k.lowStage := rfl
@[simp] theorem Stake.onFe_snap (f : FldState → FldState) : (k.onFe f).snap = k.snap := rfl
@[simp] theorem Stake.onFe_now (f : FldState → FldState) : (k.onFe f).now = k.now := rfl
@[simp] theorem Stake.onFe_fresh (f : FldState → FldState) : (k.onFe f).fresh = k.fresh := rfl
@[simp] theorem Stake.onFe_out (f : FldState → FldState) : (k.onFe f).out = k.out := rfl
@[simp] theorem Stake.onFe_done (f : FldState → FldState) : (k.onFe f).done = k.done := rfl
@[simp] theorem Stake.onFe_offers (f : FldState → FldState) : (k.onFe f).offers = k.offers := rfl
@[simp] theorem Stake.onFe_str (f : FldState → FldState) : (k.onFe f).str = k.str := rfl
@[simp] theorem Stake.onFe_bounds (f : FldState → FldState) : (k.onFe f).bounds = k.bounds := rfl
@[simp] theorem Stake.onFe_tuneUsed (f : FldState → FldState) : (k.onFe f).tuneUsed = k.tuneUsed := rfl
@[simp] theorem Stake.onFe_wal (f : FldState → FldState) : (k.onFe f).wal = k.wal := rfl
@[simp] theorem Stake.onFe_ang (f : FldState → FldState) : (k.onFe f).ang = k.ang := rfl
@[simp] theorem Stake.onFe_sns (f : FldState → FldState) : (k.onFe f).sns = k.sns := rfl
@[simp] theorem Stake.onFe_pos (f : FldState → FldState) : (k.onFe f).pos = k.pos := rfl
@[simp] theorem Stake.onFe_modu (f : FldState → FldState) : (k.onFe f).modu = k.modu := rfl
@[simp] theorem Stake.onFe_leg (f : FldState → FldState) : (k.onFe f).leg = k.leg := rfl
@[simp] theorem Stake.onFe_prt (f : FldState → FldState) : (k.onFe f).prt = k.prt := rfl
@[simp] theorem Stake.onFe_pair (f : FldState → FldState) : (k.onFe f).pair = k.pair := rfl
@[simp] theorem Stake.onFe_vote (f : FldState → FldState) : (k.onFe f).vote = k.vote := rfl
@[simp] theorem Stake.onFe_thm (f : FldState → FldState) : (k.onFe f).thm = k.thm := rfl
@[simp] theorem Stake.onFe_stopped (f : FldState → FldState) : (k.onFe f).stopped = k.stopped := rfl

@[simp] theorem Stake.onMod_id (f : ModState → ModState) : (k.onMod f).id = k.id := rfl
@[simp] theorem Stake.onMod_ringN (f : ModState → ModState) : (k.onMod f).ringN = k.ringN := rfl
@[simp] theorem Stake.onMod_regs (f : ModState → ModState) : (k.onMod f).regs = k.regs := rfl
@[simp] theorem Stake.onMod_act (f : ModState → ModState) : (k.onMod f).act = k.act := rfl
@[simp] theorem Stake.onMod_tbl (f : ModState → ModState) : (k.onMod f).tbl = k.tbl := rfl
@[simp] theorem Stake.onMod_sram (f : ModState → ModState) : (k.onMod f).sram = k.sram := rfl
@[simp] theorem Stake.onMod_lowStage (f : ModState → ModState) : (k.onMod f).lowStage = k.lowStage := rfl
@[simp] theorem Stake.onMod_snap (f : ModState → ModState) : (k.onMod f).snap = k.snap := rfl
@[simp] theorem Stake.onMod_now (f : ModState → ModState) : (k.onMod f).now = k.now := rfl
@[simp] theorem Stake.onMod_fresh (f : ModState → ModState) : (k.onMod f).fresh = k.fresh := rfl
@[simp] theorem Stake.onMod_out (f : ModState → ModState) : (k.onMod f).out = k.out := rfl
@[simp] theorem Stake.onMod_done (f : ModState → ModState) : (k.onMod f).done = k.done := rfl
@[simp] theorem Stake.onMod_offers (f : ModState → ModState) : (k.onMod f).offers = k.offers := rfl
@[simp] theorem Stake.onMod_str (f : ModState → ModState) : (k.onMod f).str = k.str := rfl
@[simp] theorem Stake.onMod_bounds (f : ModState → ModState) : (k.onMod f).bounds = k.bounds := rfl
@[simp] theorem Stake.onMod_tuneUsed (f : ModState → ModState) : (k.onMod f).tuneUsed = k.tuneUsed := rfl
@[simp] theorem Stake.onMod_wal (f : ModState → ModState) : (k.onMod f).wal = k.wal := rfl
@[simp] theorem Stake.onMod_ang (f : ModState → ModState) : (k.onMod f).ang = k.ang := rfl
@[simp] theorem Stake.onMod_sns (f : ModState → ModState) : (k.onMod f).sns = k.sns := rfl
@[simp] theorem Stake.onMod_pos (f : ModState → ModState) : (k.onMod f).pos = k.pos := rfl
@[simp] theorem Stake.onMod_fe (f : ModState → ModState) : (k.onMod f).fe = k.fe := rfl
@[simp] theorem Stake.onMod_leg (f : ModState → ModState) : (k.onMod f).leg = k.leg := rfl
@[simp] theorem Stake.onMod_prt (f : ModState → ModState) : (k.onMod f).prt = k.prt := rfl
@[simp] theorem Stake.onMod_pair (f : ModState → ModState) : (k.onMod f).pair = k.pair := rfl
@[simp] theorem Stake.onMod_vote (f : ModState → ModState) : (k.onMod f).vote = k.vote := rfl
@[simp] theorem Stake.onMod_thm (f : ModState → ModState) : (k.onMod f).thm = k.thm := rfl
@[simp] theorem Stake.onMod_stopped (f : ModState → ModState) : (k.onMod f).stopped = k.stopped := rfl

@[simp] theorem Stake.onPort_id (p : Nat) (f : ModPort → ModPort) : (k.onPort p f).id = k.id := rfl
@[simp] theorem Stake.onPort_ringN (p : Nat) (f : ModPort → ModPort) : (k.onPort p f).ringN = k.ringN := rfl
@[simp] theorem Stake.onPort_regs (p : Nat) (f : ModPort → ModPort) : (k.onPort p f).regs = k.regs := rfl
@[simp] theorem Stake.onPort_act (p : Nat) (f : ModPort → ModPort) : (k.onPort p f).act = k.act := rfl
@[simp] theorem Stake.onPort_tbl (p : Nat) (f : ModPort → ModPort) : (k.onPort p f).tbl = k.tbl := rfl
@[simp] theorem Stake.onPort_sram (p : Nat) (f : ModPort → ModPort) : (k.onPort p f).sram = k.sram := rfl
@[simp] theorem Stake.onPort_lowStage (p : Nat) (f : ModPort → ModPort) : (k.onPort p f).lowStage = k.lowStage := rfl
@[simp] theorem Stake.onPort_snap (p : Nat) (f : ModPort → ModPort) : (k.onPort p f).snap = k.snap := rfl
@[simp] theorem Stake.onPort_now (p : Nat) (f : ModPort → ModPort) : (k.onPort p f).now = k.now := rfl
@[simp] theorem Stake.onPort_fresh (p : Nat) (f : ModPort → ModPort) : (k.onPort p f).fresh = k.fresh := rfl
@[simp] theorem Stake.onPort_out (p : Nat) (f : ModPort → ModPort) : (k.onPort p f).out = k.out := rfl
@[simp] theorem Stake.onPort_done (p : Nat) (f : ModPort → ModPort) : (k.onPort p f).done = k.done := rfl
@[simp] theorem Stake.onPort_offers (p : Nat) (f : ModPort → ModPort) : (k.onPort p f).offers = k.offers := rfl
@[simp] theorem Stake.onPort_str (p : Nat) (f : ModPort → ModPort) : (k.onPort p f).str = k.str := rfl
@[simp] theorem Stake.onPort_bounds (p : Nat) (f : ModPort → ModPort) : (k.onPort p f).bounds = k.bounds := rfl
@[simp] theorem Stake.onPort_tuneUsed (p : Nat) (f : ModPort → ModPort) : (k.onPort p f).tuneUsed = k.tuneUsed := rfl
@[simp] theorem Stake.onPort_wal (p : Nat) (f : ModPort → ModPort) : (k.onPort p f).wal = k.wal := rfl
@[simp] theorem Stake.onPort_ang (p : Nat) (f : ModPort → ModPort) : (k.onPort p f).ang = k.ang := rfl
@[simp] theorem Stake.onPort_sns (p : Nat) (f : ModPort → ModPort) : (k.onPort p f).sns = k.sns := rfl
@[simp] theorem Stake.onPort_pos (p : Nat) (f : ModPort → ModPort) : (k.onPort p f).pos = k.pos := rfl
@[simp] theorem Stake.onPort_fe (p : Nat) (f : ModPort → ModPort) : (k.onPort p f).fe = k.fe := rfl
@[simp] theorem Stake.onPort_leg (p : Nat) (f : ModPort → ModPort) : (k.onPort p f).leg = k.leg := rfl
@[simp] theorem Stake.onPort_prt (p : Nat) (f : ModPort → ModPort) : (k.onPort p f).prt = k.prt := rfl
@[simp] theorem Stake.onPort_pair (p : Nat) (f : ModPort → ModPort) : (k.onPort p f).pair = k.pair := rfl
@[simp] theorem Stake.onPort_vote (p : Nat) (f : ModPort → ModPort) : (k.onPort p f).vote = k.vote := rfl
@[simp] theorem Stake.onPort_thm (p : Nat) (f : ModPort → ModPort) : (k.onPort p f).thm = k.thm := rfl
@[simp] theorem Stake.onPort_stopped (p : Nat) (f : ModPort → ModPort) : (k.onPort p f).stopped = k.stopped := rfl

@[simp] theorem Stake.onLeg_id (p : Nat) (f : LegPort → LegPort) : (k.onLeg p f).id = k.id := rfl
@[simp] theorem Stake.onLeg_ringN (p : Nat) (f : LegPort → LegPort) : (k.onLeg p f).ringN = k.ringN := rfl
@[simp] theorem Stake.onLeg_regs (p : Nat) (f : LegPort → LegPort) : (k.onLeg p f).regs = k.regs := rfl
@[simp] theorem Stake.onLeg_act (p : Nat) (f : LegPort → LegPort) : (k.onLeg p f).act = k.act := rfl
@[simp] theorem Stake.onLeg_tbl (p : Nat) (f : LegPort → LegPort) : (k.onLeg p f).tbl = k.tbl := rfl
@[simp] theorem Stake.onLeg_sram (p : Nat) (f : LegPort → LegPort) : (k.onLeg p f).sram = k.sram := rfl
@[simp] theorem Stake.onLeg_lowStage (p : Nat) (f : LegPort → LegPort) : (k.onLeg p f).lowStage = k.lowStage := rfl
@[simp] theorem Stake.onLeg_snap (p : Nat) (f : LegPort → LegPort) : (k.onLeg p f).snap = k.snap := rfl
@[simp] theorem Stake.onLeg_now (p : Nat) (f : LegPort → LegPort) : (k.onLeg p f).now = k.now := rfl
@[simp] theorem Stake.onLeg_fresh (p : Nat) (f : LegPort → LegPort) : (k.onLeg p f).fresh = k.fresh := rfl
@[simp] theorem Stake.onLeg_out (p : Nat) (f : LegPort → LegPort) : (k.onLeg p f).out = k.out := rfl
@[simp] theorem Stake.onLeg_done (p : Nat) (f : LegPort → LegPort) : (k.onLeg p f).done = k.done := rfl
@[simp] theorem Stake.onLeg_offers (p : Nat) (f : LegPort → LegPort) : (k.onLeg p f).offers = k.offers := rfl
@[simp] theorem Stake.onLeg_str (p : Nat) (f : LegPort → LegPort) : (k.onLeg p f).str = k.str := rfl
@[simp] theorem Stake.onLeg_bounds (p : Nat) (f : LegPort → LegPort) : (k.onLeg p f).bounds = k.bounds := rfl
@[simp] theorem Stake.onLeg_tuneUsed (p : Nat) (f : LegPort → LegPort) : (k.onLeg p f).tuneUsed = k.tuneUsed := rfl
@[simp] theorem Stake.onLeg_wal (p : Nat) (f : LegPort → LegPort) : (k.onLeg p f).wal = k.wal := rfl
@[simp] theorem Stake.onLeg_ang (p : Nat) (f : LegPort → LegPort) : (k.onLeg p f).ang = k.ang := rfl
@[simp] theorem Stake.onLeg_sns (p : Nat) (f : LegPort → LegPort) : (k.onLeg p f).sns = k.sns := rfl
@[simp] theorem Stake.onLeg_pos (p : Nat) (f : LegPort → LegPort) : (k.onLeg p f).pos = k.pos := rfl
@[simp] theorem Stake.onLeg_fe (p : Nat) (f : LegPort → LegPort) : (k.onLeg p f).fe = k.fe := rfl
@[simp] theorem Stake.onLeg_modu (p : Nat) (f : LegPort → LegPort) : (k.onLeg p f).modu = k.modu := rfl
@[simp] theorem Stake.onLeg_prt (p : Nat) (f : LegPort → LegPort) : (k.onLeg p f).prt = k.prt := rfl
@[simp] theorem Stake.onLeg_pair (p : Nat) (f : LegPort → LegPort) : (k.onLeg p f).pair = k.pair := rfl
@[simp] theorem Stake.onLeg_vote (p : Nat) (f : LegPort → LegPort) : (k.onLeg p f).vote = k.vote := rfl
@[simp] theorem Stake.onLeg_thm (p : Nat) (f : LegPort → LegPort) : (k.onLeg p f).thm = k.thm := rfl
@[simp] theorem Stake.onLeg_stopped (p : Nat) (f : LegPort → LegPort) : (k.onLeg p f).stopped = k.stopped := rfl

@[simp] theorem Stake.onPair_id (f : PairState → PairState) : (k.onPair f).id = k.id := rfl
@[simp] theorem Stake.onPair_ringN (f : PairState → PairState) : (k.onPair f).ringN = k.ringN := rfl
@[simp] theorem Stake.onPair_regs (f : PairState → PairState) : (k.onPair f).regs = k.regs := rfl
@[simp] theorem Stake.onPair_act (f : PairState → PairState) : (k.onPair f).act = k.act := rfl
@[simp] theorem Stake.onPair_tbl (f : PairState → PairState) : (k.onPair f).tbl = k.tbl := rfl
@[simp] theorem Stake.onPair_sram (f : PairState → PairState) : (k.onPair f).sram = k.sram := rfl
@[simp] theorem Stake.onPair_lowStage (f : PairState → PairState) : (k.onPair f).lowStage = k.lowStage := rfl
@[simp] theorem Stake.onPair_snap (f : PairState → PairState) : (k.onPair f).snap = k.snap := rfl
@[simp] theorem Stake.onPair_now (f : PairState → PairState) : (k.onPair f).now = k.now := rfl
@[simp] theorem Stake.onPair_fresh (f : PairState → PairState) : (k.onPair f).fresh = k.fresh := rfl
@[simp] theorem Stake.onPair_out (f : PairState → PairState) : (k.onPair f).out = k.out := rfl
@[simp] theorem Stake.onPair_done (f : PairState → PairState) : (k.onPair f).done = k.done := rfl
@[simp] theorem Stake.onPair_offers (f : PairState → PairState) : (k.onPair f).offers = k.offers := rfl
@[simp] theorem Stake.onPair_str (f : PairState → PairState) : (k.onPair f).str = k.str := rfl
@[simp] theorem Stake.onPair_bounds (f : PairState → PairState) : (k.onPair f).bounds = k.bounds := rfl
@[simp] theorem Stake.onPair_tuneUsed (f : PairState → PairState) : (k.onPair f).tuneUsed = k.tuneUsed := rfl
@[simp] theorem Stake.onPair_wal (f : PairState → PairState) : (k.onPair f).wal = k.wal := rfl
@[simp] theorem Stake.onPair_ang (f : PairState → PairState) : (k.onPair f).ang = k.ang := rfl
@[simp] theorem Stake.onPair_sns (f : PairState → PairState) : (k.onPair f).sns = k.sns := rfl
@[simp] theorem Stake.onPair_pos (f : PairState → PairState) : (k.onPair f).pos = k.pos := rfl
@[simp] theorem Stake.onPair_fe (f : PairState → PairState) : (k.onPair f).fe = k.fe := rfl
@[simp] theorem Stake.onPair_modu (f : PairState → PairState) : (k.onPair f).modu = k.modu := rfl
@[simp] theorem Stake.onPair_leg (f : PairState → PairState) : (k.onPair f).leg = k.leg := rfl
@[simp] theorem Stake.onPair_prt (f : PairState → PairState) : (k.onPair f).prt = k.prt := rfl
@[simp] theorem Stake.onPair_vote (f : PairState → PairState) : (k.onPair f).vote = k.vote := rfl
@[simp] theorem Stake.onPair_thm (f : PairState → PairState) : (k.onPair f).thm = k.thm := rfl
@[simp] theorem Stake.onPair_stopped (f : PairState → PairState) : (k.onPair f).stopped = k.stopped := rfl

@[simp] theorem Stake.onPrt_id (f : PrtState → PrtState) : (k.onPrt f).id = k.id := rfl
@[simp] theorem Stake.onPrt_ringN (f : PrtState → PrtState) : (k.onPrt f).ringN = k.ringN := rfl
@[simp] theorem Stake.onPrt_regs (f : PrtState → PrtState) : (k.onPrt f).regs = k.regs := rfl
@[simp] theorem Stake.onPrt_act (f : PrtState → PrtState) : (k.onPrt f).act = k.act := rfl
@[simp] theorem Stake.onPrt_tbl (f : PrtState → PrtState) : (k.onPrt f).tbl = k.tbl := rfl
@[simp] theorem Stake.onPrt_sram (f : PrtState → PrtState) : (k.onPrt f).sram = k.sram := rfl
@[simp] theorem Stake.onPrt_lowStage (f : PrtState → PrtState) : (k.onPrt f).lowStage = k.lowStage := rfl
@[simp] theorem Stake.onPrt_snap (f : PrtState → PrtState) : (k.onPrt f).snap = k.snap := rfl
@[simp] theorem Stake.onPrt_now (f : PrtState → PrtState) : (k.onPrt f).now = k.now := rfl
@[simp] theorem Stake.onPrt_fresh (f : PrtState → PrtState) : (k.onPrt f).fresh = k.fresh := rfl
@[simp] theorem Stake.onPrt_out (f : PrtState → PrtState) : (k.onPrt f).out = k.out := rfl
@[simp] theorem Stake.onPrt_done (f : PrtState → PrtState) : (k.onPrt f).done = k.done := rfl
@[simp] theorem Stake.onPrt_offers (f : PrtState → PrtState) : (k.onPrt f).offers = k.offers := rfl
@[simp] theorem Stake.onPrt_str (f : PrtState → PrtState) : (k.onPrt f).str = k.str := rfl
@[simp] theorem Stake.onPrt_bounds (f : PrtState → PrtState) : (k.onPrt f).bounds = k.bounds := rfl
@[simp] theorem Stake.onPrt_tuneUsed (f : PrtState → PrtState) : (k.onPrt f).tuneUsed = k.tuneUsed := rfl
@[simp] theorem Stake.onPrt_wal (f : PrtState → PrtState) : (k.onPrt f).wal = k.wal := rfl
@[simp] theorem Stake.onPrt_ang (f : PrtState → PrtState) : (k.onPrt f).ang = k.ang := rfl
@[simp] theorem Stake.onPrt_sns (f : PrtState → PrtState) : (k.onPrt f).sns = k.sns := rfl
@[simp] theorem Stake.onPrt_pos (f : PrtState → PrtState) : (k.onPrt f).pos = k.pos := rfl
@[simp] theorem Stake.onPrt_fe (f : PrtState → PrtState) : (k.onPrt f).fe = k.fe := rfl
@[simp] theorem Stake.onPrt_modu (f : PrtState → PrtState) : (k.onPrt f).modu = k.modu := rfl
@[simp] theorem Stake.onPrt_leg (f : PrtState → PrtState) : (k.onPrt f).leg = k.leg := rfl
@[simp] theorem Stake.onPrt_pair (f : PrtState → PrtState) : (k.onPrt f).pair = k.pair := rfl
@[simp] theorem Stake.onPrt_vote (f : PrtState → PrtState) : (k.onPrt f).vote = k.vote := rfl
@[simp] theorem Stake.onPrt_thm (f : PrtState → PrtState) : (k.onPrt f).thm = k.thm := rfl
@[simp] theorem Stake.onPrt_stopped (f : PrtState → PrtState) : (k.onPrt f).stopped = k.stopped := rfl

@[simp] theorem Stake.onVote_id (f : VoteState → VoteState) : (k.onVote f).id = k.id := rfl
@[simp] theorem Stake.onVote_ringN (f : VoteState → VoteState) : (k.onVote f).ringN = k.ringN := rfl
@[simp] theorem Stake.onVote_regs (f : VoteState → VoteState) : (k.onVote f).regs = k.regs := rfl
@[simp] theorem Stake.onVote_act (f : VoteState → VoteState) : (k.onVote f).act = k.act := rfl
@[simp] theorem Stake.onVote_tbl (f : VoteState → VoteState) : (k.onVote f).tbl = k.tbl := rfl
@[simp] theorem Stake.onVote_sram (f : VoteState → VoteState) : (k.onVote f).sram = k.sram := rfl
@[simp] theorem Stake.onVote_lowStage (f : VoteState → VoteState) : (k.onVote f).lowStage = k.lowStage := rfl
@[simp] theorem Stake.onVote_snap (f : VoteState → VoteState) : (k.onVote f).snap = k.snap := rfl
@[simp] theorem Stake.onVote_now (f : VoteState → VoteState) : (k.onVote f).now = k.now := rfl
@[simp] theorem Stake.onVote_fresh (f : VoteState → VoteState) : (k.onVote f).fresh = k.fresh := rfl
@[simp] theorem Stake.onVote_out (f : VoteState → VoteState) : (k.onVote f).out = k.out := rfl
@[simp] theorem Stake.onVote_done (f : VoteState → VoteState) : (k.onVote f).done = k.done := rfl
@[simp] theorem Stake.onVote_offers (f : VoteState → VoteState) : (k.onVote f).offers = k.offers := rfl
@[simp] theorem Stake.onVote_str (f : VoteState → VoteState) : (k.onVote f).str = k.str := rfl
@[simp] theorem Stake.onVote_bounds (f : VoteState → VoteState) : (k.onVote f).bounds = k.bounds := rfl
@[simp] theorem Stake.onVote_tuneUsed (f : VoteState → VoteState) : (k.onVote f).tuneUsed = k.tuneUsed := rfl
@[simp] theorem Stake.onVote_wal (f : VoteState → VoteState) : (k.onVote f).wal = k.wal := rfl
@[simp] theorem Stake.onVote_ang (f : VoteState → VoteState) : (k.onVote f).ang = k.ang := rfl
@[simp] theorem Stake.onVote_sns (f : VoteState → VoteState) : (k.onVote f).sns = k.sns := rfl
@[simp] theorem Stake.onVote_pos (f : VoteState → VoteState) : (k.onVote f).pos = k.pos := rfl
@[simp] theorem Stake.onVote_fe (f : VoteState → VoteState) : (k.onVote f).fe = k.fe := rfl
@[simp] theorem Stake.onVote_modu (f : VoteState → VoteState) : (k.onVote f).modu = k.modu := rfl
@[simp] theorem Stake.onVote_leg (f : VoteState → VoteState) : (k.onVote f).leg = k.leg := rfl
@[simp] theorem Stake.onVote_prt (f : VoteState → VoteState) : (k.onVote f).prt = k.prt := rfl
@[simp] theorem Stake.onVote_pair (f : VoteState → VoteState) : (k.onVote f).pair = k.pair := rfl
@[simp] theorem Stake.onVote_thm (f : VoteState → VoteState) : (k.onVote f).thm = k.thm := rfl
@[simp] theorem Stake.onVote_stopped (f : VoteState → VoteState) : (k.onVote f).stopped = k.stopped := rfl

@[simp] theorem Stake.onStrm_id (i : Nat) (f : Strm → Strm) : (k.onStrm i f).id = k.id := rfl
@[simp] theorem Stake.onStrm_ringN (i : Nat) (f : Strm → Strm) : (k.onStrm i f).ringN = k.ringN := rfl
@[simp] theorem Stake.onStrm_regs (i : Nat) (f : Strm → Strm) : (k.onStrm i f).regs = k.regs := rfl
@[simp] theorem Stake.onStrm_act (i : Nat) (f : Strm → Strm) : (k.onStrm i f).act = k.act := rfl
@[simp] theorem Stake.onStrm_tbl (i : Nat) (f : Strm → Strm) : (k.onStrm i f).tbl = k.tbl := rfl
@[simp] theorem Stake.onStrm_sram (i : Nat) (f : Strm → Strm) : (k.onStrm i f).sram = k.sram := rfl
@[simp] theorem Stake.onStrm_lowStage (i : Nat) (f : Strm → Strm) : (k.onStrm i f).lowStage = k.lowStage := rfl
@[simp] theorem Stake.onStrm_snap (i : Nat) (f : Strm → Strm) : (k.onStrm i f).snap = k.snap := rfl
@[simp] theorem Stake.onStrm_now (i : Nat) (f : Strm → Strm) : (k.onStrm i f).now = k.now := rfl
@[simp] theorem Stake.onStrm_fresh (i : Nat) (f : Strm → Strm) : (k.onStrm i f).fresh = k.fresh := rfl
@[simp] theorem Stake.onStrm_out (i : Nat) (f : Strm → Strm) : (k.onStrm i f).out = k.out := rfl
@[simp] theorem Stake.onStrm_done (i : Nat) (f : Strm → Strm) : (k.onStrm i f).done = k.done := rfl
@[simp] theorem Stake.onStrm_offers (i : Nat) (f : Strm → Strm) : (k.onStrm i f).offers = k.offers := rfl
@[simp] theorem Stake.onStrm_bounds (i : Nat) (f : Strm → Strm) : (k.onStrm i f).bounds = k.bounds := rfl
@[simp] theorem Stake.onStrm_tuneUsed (i : Nat) (f : Strm → Strm) : (k.onStrm i f).tuneUsed = k.tuneUsed := rfl
@[simp] theorem Stake.onStrm_wal (i : Nat) (f : Strm → Strm) : (k.onStrm i f).wal = k.wal := rfl
@[simp] theorem Stake.onStrm_ang (i : Nat) (f : Strm → Strm) : (k.onStrm i f).ang = k.ang := rfl
@[simp] theorem Stake.onStrm_sns (i : Nat) (f : Strm → Strm) : (k.onStrm i f).sns = k.sns := rfl
@[simp] theorem Stake.onStrm_pos (i : Nat) (f : Strm → Strm) : (k.onStrm i f).pos = k.pos := rfl
@[simp] theorem Stake.onStrm_fe (i : Nat) (f : Strm → Strm) : (k.onStrm i f).fe = k.fe := rfl
@[simp] theorem Stake.onStrm_modu (i : Nat) (f : Strm → Strm) : (k.onStrm i f).modu = k.modu := rfl
@[simp] theorem Stake.onStrm_leg (i : Nat) (f : Strm → Strm) : (k.onStrm i f).leg = k.leg := rfl
@[simp] theorem Stake.onStrm_prt (i : Nat) (f : Strm → Strm) : (k.onStrm i f).prt = k.prt := rfl
@[simp] theorem Stake.onStrm_pair (i : Nat) (f : Strm → Strm) : (k.onStrm i f).pair = k.pair := rfl
@[simp] theorem Stake.onStrm_vote (i : Nat) (f : Strm → Strm) : (k.onStrm i f).vote = k.vote := rfl
@[simp] theorem Stake.onStrm_thm (i : Nat) (f : Strm → Strm) : (k.onStrm i f).thm = k.thm := rfl
@[simp] theorem Stake.onStrm_stopped (i : Nat) (f : Strm → Strm) : (k.onStrm i f).stopped = k.stopped := rfl

@[simp] theorem Stake.onThm_id (i : Nat) (f : ThmSt → ThmSt) : (k.onThm i f).id = k.id := rfl
@[simp] theorem Stake.onThm_ringN (i : Nat) (f : ThmSt → ThmSt) : (k.onThm i f).ringN = k.ringN := rfl
@[simp] theorem Stake.onThm_regs (i : Nat) (f : ThmSt → ThmSt) : (k.onThm i f).regs = k.regs := rfl
@[simp] theorem Stake.onThm_act (i : Nat) (f : ThmSt → ThmSt) : (k.onThm i f).act = k.act := rfl
@[simp] theorem Stake.onThm_tbl (i : Nat) (f : ThmSt → ThmSt) : (k.onThm i f).tbl = k.tbl := rfl
@[simp] theorem Stake.onThm_sram (i : Nat) (f : ThmSt → ThmSt) : (k.onThm i f).sram = k.sram := rfl
@[simp] theorem Stake.onThm_lowStage (i : Nat) (f : ThmSt → ThmSt) : (k.onThm i f).lowStage = k.lowStage := rfl
@[simp] theorem Stake.onThm_snap (i : Nat) (f : ThmSt → ThmSt) : (k.onThm i f).snap = k.snap := rfl
@[simp] theorem Stake.onThm_now (i : Nat) (f : ThmSt → ThmSt) : (k.onThm i f).now = k.now := rfl
@[simp] theorem Stake.onThm_fresh (i : Nat) (f : ThmSt → ThmSt) : (k.onThm i f).fresh = k.fresh := rfl
@[simp] theorem Stake.onThm_out (i : Nat) (f : ThmSt → ThmSt) : (k.onThm i f).out = k.out := rfl
@[simp] theorem Stake.onThm_done (i : Nat) (f : ThmSt → ThmSt) : (k.onThm i f).done = k.done := rfl
@[simp] theorem Stake.onThm_offers (i : Nat) (f : ThmSt → ThmSt) : (k.onThm i f).offers = k.offers := rfl
@[simp] theorem Stake.onThm_str (i : Nat) (f : ThmSt → ThmSt) : (k.onThm i f).str = k.str := rfl
@[simp] theorem Stake.onThm_bounds (i : Nat) (f : ThmSt → ThmSt) : (k.onThm i f).bounds = k.bounds := rfl
@[simp] theorem Stake.onThm_tuneUsed (i : Nat) (f : ThmSt → ThmSt) : (k.onThm i f).tuneUsed = k.tuneUsed := rfl
@[simp] theorem Stake.onThm_wal (i : Nat) (f : ThmSt → ThmSt) : (k.onThm i f).wal = k.wal := rfl
@[simp] theorem Stake.onThm_ang (i : Nat) (f : ThmSt → ThmSt) : (k.onThm i f).ang = k.ang := rfl
@[simp] theorem Stake.onThm_sns (i : Nat) (f : ThmSt → ThmSt) : (k.onThm i f).sns = k.sns := rfl
@[simp] theorem Stake.onThm_pos (i : Nat) (f : ThmSt → ThmSt) : (k.onThm i f).pos = k.pos := rfl
@[simp] theorem Stake.onThm_fe (i : Nat) (f : ThmSt → ThmSt) : (k.onThm i f).fe = k.fe := rfl
@[simp] theorem Stake.onThm_modu (i : Nat) (f : ThmSt → ThmSt) : (k.onThm i f).modu = k.modu := rfl
@[simp] theorem Stake.onThm_leg (i : Nat) (f : ThmSt → ThmSt) : (k.onThm i f).leg = k.leg := rfl
@[simp] theorem Stake.onThm_prt (i : Nat) (f : ThmSt → ThmSt) : (k.onThm i f).prt = k.prt := rfl
@[simp] theorem Stake.onThm_pair (i : Nat) (f : ThmSt → ThmSt) : (k.onThm i f).pair = k.pair := rfl
@[simp] theorem Stake.onThm_vote (i : Nat) (f : ThmSt → ThmSt) : (k.onThm i f).vote = k.vote := rfl
@[simp] theorem Stake.onThm_stopped (i : Nat) (f : ThmSt → ThmSt) : (k.onThm i f).stopped = k.stopped := rfl

@[simp] theorem Stake.bump_id (off n : Nat) : (k.bump off n).id = k.id := by unfold Stake.bump; split <;> rfl
@[simp] theorem Stake.bump31_id (off n : Nat) : (k.bump31 off n).id = k.id := by unfold Stake.bump31; split <;> rfl
@[simp] theorem Stake.bump_ringN (off n : Nat) : (k.bump off n).ringN = k.ringN := by unfold Stake.bump; split <;> rfl
@[simp] theorem Stake.bump31_ringN (off n : Nat) : (k.bump31 off n).ringN = k.ringN := by unfold Stake.bump31; split <;> rfl
@[simp] theorem Stake.bump_act (off n : Nat) : (k.bump off n).act = k.act := by unfold Stake.bump; split <;> rfl
@[simp] theorem Stake.bump31_act (off n : Nat) : (k.bump31 off n).act = k.act := by unfold Stake.bump31; split <;> rfl
@[simp] theorem Stake.bump_tbl (off n : Nat) : (k.bump off n).tbl = k.tbl := by unfold Stake.bump; split <;> rfl
@[simp] theorem Stake.bump31_tbl (off n : Nat) : (k.bump31 off n).tbl = k.tbl := by unfold Stake.bump31; split <;> rfl
@[simp] theorem Stake.bump_sram (off n : Nat) : (k.bump off n).sram = k.sram := by unfold Stake.bump; split <;> rfl
@[simp] theorem Stake.bump_lowStage (off n : Nat) : (k.bump off n).lowStage = k.lowStage := by unfold Stake.bump; split <;> rfl
@[simp] theorem Stake.bump31_sram (off n : Nat) : (k.bump31 off n).sram = k.sram := by unfold Stake.bump31; split <;> rfl
@[simp] theorem Stake.bump31_lowStage (off n : Nat) : (k.bump31 off n).lowStage = k.lowStage := by unfold Stake.bump31; split <;> rfl
@[simp] theorem Stake.bump_snap (off n : Nat) : (k.bump off n).snap = k.snap := by unfold Stake.bump; split <;> rfl
@[simp] theorem Stake.bump31_snap (off n : Nat) : (k.bump31 off n).snap = k.snap := by unfold Stake.bump31; split <;> rfl
@[simp] theorem Stake.bump_now (off n : Nat) : (k.bump off n).now = k.now := by unfold Stake.bump; split <;> rfl
@[simp] theorem Stake.bump31_now (off n : Nat) : (k.bump31 off n).now = k.now := by unfold Stake.bump31; split <;> rfl
@[simp] theorem Stake.bump_fresh (off n : Nat) : (k.bump off n).fresh = k.fresh := by unfold Stake.bump; split <;> rfl
@[simp] theorem Stake.bump31_fresh (off n : Nat) : (k.bump31 off n).fresh = k.fresh := by unfold Stake.bump31; split <;> rfl
@[simp] theorem Stake.bump_out (off n : Nat) : (k.bump off n).out = k.out := by unfold Stake.bump; split <;> rfl
@[simp] theorem Stake.bump31_out (off n : Nat) : (k.bump31 off n).out = k.out := by unfold Stake.bump31; split <;> rfl
@[simp] theorem Stake.bump_done (off n : Nat) : (k.bump off n).done = k.done := by unfold Stake.bump; split <;> rfl
@[simp] theorem Stake.bump31_done (off n : Nat) : (k.bump31 off n).done = k.done := by unfold Stake.bump31; split <;> rfl
@[simp] theorem Stake.bump_offers (off n : Nat) : (k.bump off n).offers = k.offers := by unfold Stake.bump; split <;> rfl
@[simp] theorem Stake.bump31_offers (off n : Nat) : (k.bump31 off n).offers = k.offers := by unfold Stake.bump31; split <;> rfl
@[simp] theorem Stake.bump_str (off n : Nat) : (k.bump off n).str = k.str := by unfold Stake.bump; split <;> rfl
@[simp] theorem Stake.bump31_str (off n : Nat) : (k.bump31 off n).str = k.str := by unfold Stake.bump31; split <;> rfl
@[simp] theorem Stake.bump_bounds (off n : Nat) : (k.bump off n).bounds = k.bounds := by unfold Stake.bump; split <;> rfl
@[simp] theorem Stake.bump31_bounds (off n : Nat) : (k.bump31 off n).bounds = k.bounds := by unfold Stake.bump31; split <;> rfl
@[simp] theorem Stake.bump_tuneUsed (off n : Nat) : (k.bump off n).tuneUsed = k.tuneUsed := by unfold Stake.bump; split <;> rfl
@[simp] theorem Stake.bump31_tuneUsed (off n : Nat) : (k.bump31 off n).tuneUsed = k.tuneUsed := by unfold Stake.bump31; split <;> rfl
@[simp] theorem Stake.bump_wal (off n : Nat) : (k.bump off n).wal = k.wal := by unfold Stake.bump; split <;> rfl
@[simp] theorem Stake.bump31_wal (off n : Nat) : (k.bump31 off n).wal = k.wal := by unfold Stake.bump31; split <;> rfl
@[simp] theorem Stake.bump_ang (off n : Nat) : (k.bump off n).ang = k.ang := by unfold Stake.bump; split <;> rfl
@[simp] theorem Stake.bump31_ang (off n : Nat) : (k.bump31 off n).ang = k.ang := by unfold Stake.bump31; split <;> rfl
@[simp] theorem Stake.bump_sns (off n : Nat) : (k.bump off n).sns = k.sns := by unfold Stake.bump; split <;> rfl
@[simp] theorem Stake.bump31_sns (off n : Nat) : (k.bump31 off n).sns = k.sns := by unfold Stake.bump31; split <;> rfl
@[simp] theorem Stake.bump_pos (off n : Nat) : (k.bump off n).pos = k.pos := by unfold Stake.bump; split <;> rfl
@[simp] theorem Stake.bump31_pos (off n : Nat) : (k.bump31 off n).pos = k.pos := by unfold Stake.bump31; split <;> rfl
@[simp] theorem Stake.bump_fe (off n : Nat) : (k.bump off n).fe = k.fe := by unfold Stake.bump; split <;> rfl
@[simp] theorem Stake.bump31_fe (off n : Nat) : (k.bump31 off n).fe = k.fe := by unfold Stake.bump31; split <;> rfl
@[simp] theorem Stake.bump_modu (off n : Nat) : (k.bump off n).modu = k.modu := by unfold Stake.bump; split <;> rfl
@[simp] theorem Stake.bump31_modu (off n : Nat) : (k.bump31 off n).modu = k.modu := by unfold Stake.bump31; split <;> rfl
@[simp] theorem Stake.bump_leg (off n : Nat) : (k.bump off n).leg = k.leg := by unfold Stake.bump; split <;> rfl
@[simp] theorem Stake.bump31_leg (off n : Nat) : (k.bump31 off n).leg = k.leg := by unfold Stake.bump31; split <;> rfl
@[simp] theorem Stake.bump_prt (off n : Nat) : (k.bump off n).prt = k.prt := by unfold Stake.bump; split <;> rfl
@[simp] theorem Stake.bump31_prt (off n : Nat) : (k.bump31 off n).prt = k.prt := by unfold Stake.bump31; split <;> rfl
@[simp] theorem Stake.bump_pair (off n : Nat) : (k.bump off n).pair = k.pair := by unfold Stake.bump; split <;> rfl
@[simp] theorem Stake.bump31_pair (off n : Nat) : (k.bump31 off n).pair = k.pair := by unfold Stake.bump31; split <;> rfl
@[simp] theorem Stake.bump_vote (off n : Nat) : (k.bump off n).vote = k.vote := by unfold Stake.bump; split <;> rfl
@[simp] theorem Stake.bump31_vote (off n : Nat) : (k.bump31 off n).vote = k.vote := by unfold Stake.bump31; split <;> rfl
@[simp] theorem Stake.bump_thm (off n : Nat) : (k.bump off n).thm = k.thm := by unfold Stake.bump; split <;> rfl
@[simp] theorem Stake.bump31_thm (off n : Nat) : (k.bump31 off n).thm = k.thm := by unfold Stake.bump31; split <;> rfl
@[simp] theorem Stake.bump_stopped (off n : Nat) : (k.bump off n).stopped = k.stopped := by unfold Stake.bump; split <;> rfl
@[simp] theorem Stake.bump31_stopped (off n : Nat) : (k.bump31 off n).stopped = k.stopped := by unfold Stake.bump31; split <;> rfl
@[simp] theorem Stake.onDir_id (d : Dir) (f : WalDir → WalDir) : (k.onDir d f).id = k.id := by cases d <;> rfl
@[simp] theorem Stake.onDir_ringN (d : Dir) (f : WalDir → WalDir) : (k.onDir d f).ringN = k.ringN := by cases d <;> rfl
@[simp] theorem Stake.onDir_regs (d : Dir) (f : WalDir → WalDir) : (k.onDir d f).regs = k.regs := by cases d <;> rfl
@[simp] theorem Stake.onDir_act (d : Dir) (f : WalDir → WalDir) : (k.onDir d f).act = k.act := by cases d <;> rfl
@[simp] theorem Stake.onDir_tbl (d : Dir) (f : WalDir → WalDir) : (k.onDir d f).tbl = k.tbl := by cases d <;> rfl
@[simp] theorem Stake.onDir_sram (d : Dir) (f : WalDir → WalDir) : (k.onDir d f).sram = k.sram := by cases d <;> rfl
@[simp] theorem Stake.onDir_lowStage (d : Dir) (f : WalDir → WalDir) : (k.onDir d f).lowStage = k.lowStage := by cases d <;> rfl
@[simp] theorem Stake.onDir_snap (d : Dir) (f : WalDir → WalDir) : (k.onDir d f).snap = k.snap := by cases d <;> rfl
@[simp] theorem Stake.onDir_now (d : Dir) (f : WalDir → WalDir) : (k.onDir d f).now = k.now := by cases d <;> rfl
@[simp] theorem Stake.onDir_fresh (d : Dir) (f : WalDir → WalDir) : (k.onDir d f).fresh = k.fresh := by cases d <;> rfl
@[simp] theorem Stake.onDir_out (d : Dir) (f : WalDir → WalDir) : (k.onDir d f).out = k.out := by cases d <;> rfl
@[simp] theorem Stake.onDir_done (d : Dir) (f : WalDir → WalDir) : (k.onDir d f).done = k.done := by cases d <;> rfl
@[simp] theorem Stake.onDir_offers (d : Dir) (f : WalDir → WalDir) : (k.onDir d f).offers = k.offers := by cases d <;> rfl
@[simp] theorem Stake.onDir_str (d : Dir) (f : WalDir → WalDir) : (k.onDir d f).str = k.str := by cases d <;> rfl
@[simp] theorem Stake.onDir_bounds (d : Dir) (f : WalDir → WalDir) : (k.onDir d f).bounds = k.bounds := by cases d <;> rfl
@[simp] theorem Stake.onDir_tuneUsed (d : Dir) (f : WalDir → WalDir) : (k.onDir d f).tuneUsed = k.tuneUsed := by cases d <;> rfl
@[simp] theorem Stake.onDir_ang (d : Dir) (f : WalDir → WalDir) : (k.onDir d f).ang = k.ang := by cases d <;> rfl
@[simp] theorem Stake.onDir_sns (d : Dir) (f : WalDir → WalDir) : (k.onDir d f).sns = k.sns := by cases d <;> rfl
@[simp] theorem Stake.onDir_pos (d : Dir) (f : WalDir → WalDir) : (k.onDir d f).pos = k.pos := by cases d <;> rfl
@[simp] theorem Stake.onDir_fe (d : Dir) (f : WalDir → WalDir) : (k.onDir d f).fe = k.fe := by cases d <;> rfl
@[simp] theorem Stake.onDir_modu (d : Dir) (f : WalDir → WalDir) : (k.onDir d f).modu = k.modu := by cases d <;> rfl
@[simp] theorem Stake.onDir_leg (d : Dir) (f : WalDir → WalDir) : (k.onDir d f).leg = k.leg := by cases d <;> rfl
@[simp] theorem Stake.onDir_prt (d : Dir) (f : WalDir → WalDir) : (k.onDir d f).prt = k.prt := by cases d <;> rfl
@[simp] theorem Stake.onDir_pair (d : Dir) (f : WalDir → WalDir) : (k.onDir d f).pair = k.pair := by cases d <;> rfl
@[simp] theorem Stake.onDir_vote (d : Dir) (f : WalDir → WalDir) : (k.onDir d f).vote = k.vote := by cases d <;> rfl
@[simp] theorem Stake.onDir_thm (d : Dir) (f : WalDir → WalDir) : (k.onDir d f).thm = k.thm := by cases d <;> rfl
@[simp] theorem Stake.onDir_stopped (d : Dir) (f : WalDir → WalDir) : (k.onDir d f).stopped = k.stopped := by cases d <;> rfl
@[simp] theorem Stake.sendCell_id (c : Cell) : (k.sendCell c).id = k.id := by simp [Stake.sendCell]
@[simp] theorem Stake.sendCell_ringN (c : Cell) : (k.sendCell c).ringN = k.ringN := by simp [Stake.sendCell]
@[simp] theorem Stake.sendCell_regs (c : Cell) : (k.sendCell c).regs = k.regs := by simp [Stake.sendCell]
@[simp] theorem Stake.sendCell_act (c : Cell) : (k.sendCell c).act = k.act := by simp [Stake.sendCell]
@[simp] theorem Stake.sendCell_tbl (c : Cell) : (k.sendCell c).tbl = k.tbl := by simp [Stake.sendCell]
@[simp] theorem Stake.sendCell_sram (c : Cell) : (k.sendCell c).sram = k.sram := by simp [Stake.sendCell]
@[simp] theorem Stake.sendCell_lowStage (c : Cell) : (k.sendCell c).lowStage = k.lowStage := by simp [Stake.sendCell]
@[simp] theorem Stake.sendCell_snap (c : Cell) : (k.sendCell c).snap = k.snap := by simp [Stake.sendCell]
@[simp] theorem Stake.sendCell_now (c : Cell) : (k.sendCell c).now = k.now := by simp [Stake.sendCell]
@[simp] theorem Stake.sendCell_fresh (c : Cell) : (k.sendCell c).fresh = k.fresh := by simp [Stake.sendCell]
@[simp] theorem Stake.sendCell_out (c : Cell) : (k.sendCell c).out = k.out := by simp [Stake.sendCell]
@[simp] theorem Stake.sendCell_done (c : Cell) : (k.sendCell c).done = k.done := by simp [Stake.sendCell]
@[simp] theorem Stake.sendCell_offers (c : Cell) : (k.sendCell c).offers = k.offers := by simp [Stake.sendCell]
@[simp] theorem Stake.sendCell_str (c : Cell) : (k.sendCell c).str = k.str := by simp [Stake.sendCell]
@[simp] theorem Stake.sendCell_bounds (c : Cell) : (k.sendCell c).bounds = k.bounds := by simp [Stake.sendCell]
@[simp] theorem Stake.sendCell_tuneUsed (c : Cell) : (k.sendCell c).tuneUsed = k.tuneUsed := by simp [Stake.sendCell]
@[simp] theorem Stake.sendCell_ang (c : Cell) : (k.sendCell c).ang = k.ang := by simp [Stake.sendCell]
@[simp] theorem Stake.sendCell_sns (c : Cell) : (k.sendCell c).sns = k.sns := by simp [Stake.sendCell]
@[simp] theorem Stake.sendCell_pos (c : Cell) : (k.sendCell c).pos = k.pos := by simp [Stake.sendCell]
@[simp] theorem Stake.sendCell_fe (c : Cell) : (k.sendCell c).fe = k.fe := by simp [Stake.sendCell]
@[simp] theorem Stake.sendCell_modu (c : Cell) : (k.sendCell c).modu = k.modu := by simp [Stake.sendCell]
@[simp] theorem Stake.sendCell_leg (c : Cell) : (k.sendCell c).leg = k.leg := by simp [Stake.sendCell]
@[simp] theorem Stake.sendCell_prt (c : Cell) : (k.sendCell c).prt = k.prt := by simp [Stake.sendCell]
@[simp] theorem Stake.sendCell_pair (c : Cell) : (k.sendCell c).pair = k.pair := by simp [Stake.sendCell]
@[simp] theorem Stake.sendCell_vote (c : Cell) : (k.sendCell c).vote = k.vote := by simp [Stake.sendCell]
@[simp] theorem Stake.sendCell_thm (c : Cell) : (k.sendCell c).thm = k.thm := by simp [Stake.sendCell]
@[simp] theorem Stake.sendCell_stopped (c : Cell) : (k.sendCell c).stopped = k.stopped := by simp [Stake.sendCell]
end
/-! What the registers of a stake read as after an update. -/
section
variable (k : Stake)

@[simp] theorem Stake.rd_wr_same (off : Nat) (v : BitVec 32) : (k.wr off v).rd off = v := Store.get_set_same ..

theorem Stake.rd_wr_ne {off o : Nat} (v : BitVec 32) (h : o ≠ off) : (k.wr off v).rd o = k.rd o := Store.get_set_ne h v

theorem Stake.rd_put_ne {f : Fld} {o : Nat} (v : Nat) (h : o ≠ f.off) : (k.put f v).rd o = k.rd o := k.rd_wr_ne _ h

theorem Stake.rd_putB_ne {f : Fld} {o : Nat} (b : Bool) (h : o ≠ f.off) : (k.putB f b).rd o = k.rd o := k.rd_wr_ne _ h

theorem Stake.rd_putI_ne {f : Fld} {o : Nat} (v : Int) (h : o ≠ f.off) : (k.putI f v).rd o = k.rd o := k.rd_wr_ne _ h

theorem Stake.rd_put48_ne {off o : Nat} (v : Word48) (h : o ≠ off) (h' : o ≠ off + 4) : (k.put48 off v).rd o = k.rd o := by
  rw [Stake.put48, Stake.rd_wr_ne _ _ h', Stake.rd_wr_ne _ _ h]

theorem Stake.rd_bump_ne {off o : Nat} (n : Nat) (h : o ≠ off) : (k.bump off n).rd o = k.rd o := by
  unfold Stake.bump
  split
  · rfl
  · exact k.rd_wr_ne _ h

theorem Stake.rd_bump31_ne {off o : Nat} (n : Nat) (h : o ≠ off) : (k.bump31 off n).rd o = k.rd o := by
  unfold Stake.bump31
  split
  · rfl
  · exact k.rd_wr_ne _ h

/-- One event on a counter. -/
theorem Stake.rd_bump_same (off : Nat) : (k.bump off).rd off = satAdd 16 (k.rd off) 1 := by simp [Stake.bump]

theorem Stake.rd_bump31_same (off : Nat) : (k.bump31 off).rd off = satAdd 31 (k.rd off) 1 := by simp [Stake.bump31]

/-- A field reads as what was put into it. -/
theorem Stake.fld_put_same (f : Fld) (v : Nat) (h : f.lo + f.w ≤ 32) : (k.put f v).fld f = v % 2 ^ f.w := by
  rw [Stake.fld, Stake.put, Stake.rd_wr_same, Fld.of_put_same f _ v h]

/-- A field is not changed by one in another register or in other bits of its own. -/
theorem Stake.fld_put_ne (f g : Fld) (v : Nat) (h : f.off ≠ g.off ∨ f.lo + f.w ≤ g.lo ∨ g.lo + g.w ≤ f.lo) :
    (k.put f v).fld g = k.fld g := by
  by_cases he : g.off = f.off
  · rw [Stake.fld, Stake.fld, he, Stake.put, Stake.rd_wr_same, Fld.of_put_disj f g _ v (by rcases h with h | h; exact absurd he.symm h; exact h)]
  · rw [Stake.fld, Stake.rd_put_ne k v he]; rfl

theorem Stake.fld_putB_same (f : Fld) (b : Bool) (h : f.lo + f.w ≤ 32) (hw : f.w = 1) :
    (k.putB f b).fld f = if b then 1 else 0 := by
  rw [Stake.putB, Stake.fld_put_same k f _ h, hw]
  cases b <;> rfl

theorem Stake.flag_putB_same (f : Fld) (b : Bool) (h : f.lo + f.w ≤ 32) (hw : f.w = 1) : (k.putB f b).flag f = b := by
  rw [Stake.flag, Stake.fld_putB_same k f b h hw]
  cases b <;> rfl

theorem Stake.fld_putB_ne (f g : Fld) (b : Bool) (h : f.off ≠ g.off ∨ f.lo + f.w ≤ g.lo ∨ g.lo + g.w ≤ f.lo) :
    (k.putB f b).fld g = k.fld g := k.fld_put_ne f g _ h

theorem Stake.flag_putB_ne (f g : Fld) (b : Bool) (h : f.off ≠ g.off ∨ f.lo + f.w ≤ g.lo ∨ g.lo + g.w ≤ f.lo) :
    (k.putB f b).flag g = k.flag g := by rw [Stake.flag, k.fld_putB_ne f g b h]; rfl

theorem Stake.flag_put_ne (f g : Fld) (v : Nat) (h : f.off ≠ g.off ∨ f.lo + f.w ≤ g.lo ∨ g.lo + g.w ≤ f.lo) :
    (k.put f v).flag g = k.flag g := by rw [Stake.flag, k.fld_put_ne f g v h]; rfl

/-- A field of another register than the one written. -/
theorem Stake.fld_wr_ne {off : Nat} (v : BitVec 32) (g : Fld) (h : g.off ≠ off) : (k.wr off v).fld g = k.fld g := by
  rw [Stake.fld, k.rd_wr_ne v h]; rfl

theorem Stake.fld_bump_ne {off : Nat} (n : Nat) (g : Fld) (h : g.off ≠ off) : (k.bump off n).fld g = k.fld g := by
  rw [Stake.fld, k.rd_bump_ne n h]; rfl

theorem Stake.fld_bump31_ne {off : Nat} (n : Nat) (g : Fld) (h : g.off ≠ off) : (k.bump31 off n).fld g = k.fld g := by
  rw [Stake.fld, k.rd_bump31_ne n h]; rfl

/-- What takes effect of a range of staged registers. -/
theorem Stake.rdAct_applyRange (lo hi o : Nat) : (k.applyRange lo hi).rdAct o = if lo ≤ o ∧ o < hi then k.rd o else k.rdAct o :=
  Store.get_copyRange lo hi o

@[simp] theorem Stake.rdAct_wrAct_same (off : Nat) (v : BitVec 32) : (k.wrAct off v).rdAct off = v := Store.get_set_same ..

theorem Stake.rdAct_wrAct_ne {off o : Nat} (v : BitVec 32) (h : o ≠ off) : (k.wrAct off v).rdAct o = k.rdAct o := Store.get_set_ne h v

/-- The registers are those of the store alone: an update that leaves the store and the number of the stake leaves them. -/
theorem Stake.rd_congr {k j : Stake} (hr : j.regs = k.regs) (hi : j.id = k.id) (o : Nat) : j.rd o = k.rd o := by
  rw [Stake.rd, Stake.rd, hr, hi]

theorem Stake.fld_congr {k j : Stake} (hr : j.regs = k.regs) (hi : j.id = k.id) (f : Fld) : j.fld f = k.fld f := by
  rw [Stake.fld, Stake.fld, Stake.rd_congr hr hi]

theorem Stake.flag_congr {k j : Stake} (hr : j.regs = k.regs) (hi : j.id = k.id) (f : Fld) : j.flag f = k.flag f := by
  rw [Stake.flag, Stake.flag, Stake.fld_congr hr hi]

theorem Stake.inForce_congr {k j : Stake} (hr : j.act = k.act) (hi : j.id = k.id) (f : Fld) : j.inForce f = k.inForce f := by
  rw [Stake.inForce, Stake.inForce, hr, hi]

theorem Stake.inForceB_congr {k j : Stake} (hr : j.act = k.act) (hi : j.id = k.id) (f : Fld) : j.inForceB f = k.inForceB f := by
  rw [Stake.inForceB, Stake.inForceB, Stake.inForce_congr hr hi]
end

/-! Registers of the package region. -/
section
variable (p : Pkg)

@[simp] theorem Pkg.rd_wr_same (off : Nat) (v : BitVec 32) : (p.wr off v).rd off = v := Store.get_set_same ..

theorem Pkg.rd_wr_ne {off o : Nat} (v : BitVec 32) (h : o ≠ off) : (p.wr off v).rd o = p.rd o := Store.get_set_ne h v

theorem Pkg.rd_put_ne {f : Fld} {o : Nat} (v : Nat) (h : o ≠ f.off) : (p.put f v).rd o = p.rd o := p.rd_wr_ne _ h

theorem Pkg.rd_bump_ne {off o : Nat} (n : Nat) (h : o ≠ off) : (p.bump off n).rd o = p.rd o := by
  unfold Pkg.bump
  split
  · rfl
  · exact p.rd_wr_ne _ h

theorem Pkg.rd_bump_same (off : Nat) : (p.bump off).rd off = satAdd 16 (p.rd off) 1 := by simp [Pkg.bump]

theorem Pkg.fld_put_same (f : Fld) (v : Nat) (h : f.lo + f.w ≤ 32) : (p.put f v).fld f = v % 2 ^ f.w := by
  rw [Pkg.fld, Pkg.put, Pkg.rd_wr_same, Fld.of_put_same f _ v h]

theorem Pkg.fld_put_ne (f g : Fld) (v : Nat) (h : f.off ≠ g.off ∨ f.lo + f.w ≤ g.lo ∨ g.lo + g.w ≤ f.lo) :
    (p.put f v).fld g = p.fld g := by
  by_cases he : g.off = f.off
  · rw [Pkg.fld, Pkg.fld, he, Pkg.put, Pkg.rd_wr_same, Fld.of_put_disj f g _ v (by rcases h with h | h; exact absurd he.symm h; exact h)]
  · rw [Pkg.fld, Pkg.rd_put_ne p v he]; rfl

theorem Pkg.flag_putB_same (f : Fld) (b : Bool) (h : f.lo + f.w ≤ 32) (hw : f.w = 1) : (p.putB f b).flag f = b := by
  rw [Pkg.flag, Pkg.putB, Pkg.fld_put_same p f _ h, hw]
  cases b <;> rfl

theorem Pkg.fld_bump_ne {off : Nat} (n : Nat) (g : Fld) (h : g.off ≠ off) : (p.bump off n).fld g = p.fld g := by
  rw [Pkg.fld, p.rd_bump_ne n h]; rfl

theorem Pkg.fld_wr_ne {off : Nat} (v : BitVec 32) (g : Fld) (h : g.off ≠ off) : (p.wr off v).fld g = p.fld g := by
  rw [Pkg.fld, p.rd_wr_ne v h]; rfl
end

/-! Reaching the stakes and the package. -/
section
variable (s : State)

theorem updAt_length {α : Type} (l : List α) (i : Nat) (f : α → α) : (updAt l i f).length = l.length := by simp [updAt]

@[simp] theorem State.onStake_pkg (n : Nat) (f : Stake → Stake) : (s.onStake n f).pkg = s.pkg := by unfold State.onStake; split <;> rfl
@[simp] theorem State.onStake_part (n : Nat) (f : Stake → Stake) : (s.onStake n f).part = s.part := by unfold State.onStake; split <;> rfl
@[simp] theorem State.onStake_pending (n : Nat) (f : Stake → Stake) : (s.onStake n f).pending = s.pending := by
  unfold State.onStake; split <;> rfl
@[simp] theorem State.onStake_length (n : Nat) (f : Stake → Stake) : (s.onStake n f).stakes.length = s.stakes.length := by
  unfold State.onStake; split <;> simp [updAt]

@[simp] theorem State.onAll_pkg (f : Stake → Stake) : (s.onAll f).pkg = s.pkg := rfl
@[simp] theorem State.onAll_part (f : Stake → Stake) : (s.onAll f).part = s.part := rfl
@[simp] theorem State.onAll_pending (f : Stake → Stake) : (s.onAll f).pending = s.pending := rfl
@[simp] theorem State.onAll_length (f : Stake → Stake) : (s.onAll f).stakes.length = s.stakes.length := by simp [State.onAll]

@[simp] theorem State.onPkg_stakes (f : Pkg → Pkg) : (s.onPkg f).stakes = s.stakes := rfl
@[simp] theorem State.onPkg_part (f : Pkg → Pkg) : (s.onPkg f).part = s.part := rfl
@[simp] theorem State.onPkg_pending (f : Pkg → Pkg) : (s.onPkg f).pending = s.pending := rfl
@[simp] theorem State.onPkg_pkg (f : Pkg → Pkg) : (s.onPkg f).pkg = f s.pkg := rfl
@[simp] theorem State.onPkg_stake (f : Pkg → Pkg) (n : Nat) : (s.onPkg f).stake n = s.stake n := rfl
@[simp] theorem State.onPkg_present (f : Pkg → Pkg) (n : Nat) : (s.onPkg f).present n = s.present n := rfl

@[simp] theorem State.onStake_present (n m : Nat) (f : Stake → Stake) : (s.onStake n f).present m = s.present m := by
  simp [State.present]
@[simp] theorem State.onAll_present (m : Nat) (f : Stake → Stake) : (s.onAll f).present m = s.present m := by
  unfold State.present
  rw [State.onAll_length]
  rfl

@[simp] theorem State.onStake_alive (n m : Nat) (f : Stake → Stake) : (s.onStake n f).alive m = s.alive m := by simp [State.alive]
@[simp] theorem State.onAll_alive (m : Nat) (f : Stake → Stake) : (s.onAll f).alive m = s.alive m := by simp [State.alive]

/-- A stake that is alive is present. -/
theorem State.present_of_alive {s : State} {n : Nat} (h : s.alive n = true) : s.present n = true := by
  simp only [State.alive, Bool.and_eq_true] at h
  exact h.1

/-- The stake a command acts on. -/
theorem State.onStake_stake_same {s : State} {n : Nat} (h : s.present n = true) (f : Stake → Stake) : (s.onStake n f).stake n = f (s.stake n) := by
  have hl : n < s.stakes.length := by simp only [State.present, Bool.and_eq_true, decide_eq_true_eq] at h; exact h.2
  simp [State.onStake, h, State.stake, updAt, List.getD_eq_getElem?_getD, List.getElem?_eq_getElem hl]

/-- The other stakes. -/
theorem State.onStake_stake_ne {n m : Nat} (h : m ≠ n) (f : Stake → Stake) : (s.onStake n f).stake m = s.stake m := by
  unfold State.onStake
  split
  · simp [State.stake, updAt, List.getD_eq_getElem?_getD, h.symm]
  · rfl

/-- A stake under an effect on every one. -/
theorem State.onAll_stake {s : State} {n : Nat} (h : s.present n = true) (f : Stake → Stake) : (s.onAll f).stake n = f (s.stake n) := by
  have hp := h
  simp only [State.present, Bool.and_eq_true, decide_eq_true_eq] at hp
  simp [State.onAll, State.stake, List.getD_eq_getElem?_getD, List.getElem?_mapIdx, List.getElem?_eq_getElem hp.2, hp.1]

/-- An effect on one stake leaves everything elsewhere. -/
theorem State.onStake_elsewhere (n : Nat) (f : Stake → Stake) : s.elsewhere (s.onStake n f) n :=
  ⟨by simp, by simp, by simp, fun _ h => s.onStake_stake_ne h f⟩

theorem State.elsewhere_refl (n : Nat) : s.elsewhere s n := ⟨rfl, rfl, rfl, fun _ _ => rfl⟩
end

end Sys2Proof.Machine
end

