-- ==== Sys2Proof/Laws/Ops.lean ====
section
/-! SUPPORT. What the shared operations of Machine/Ops.lean and Machine/WriteOps.lean can do: the axis state, posting an event, the event
queue of the package, the checks of a register write. -/
namespace Sys2Proof.Machine

section
variable (k : Stake)

@[simp] theorem Stake.syncActive_prt : (k.syncActive).prt = k.prt := by simp only [Stake.syncActive, List.foldl, Stake.put_prt, Stake.putB_prt]
@[simp] theorem Stake.syncActive_out : (k.syncActive).out = k.out := by simp only [Stake.syncActive, List.foldl, Stake.put_out, Stake.putB_out]
@[simp] theorem Stake.syncActive_id : (k.syncActive).id = k.id := by simp only [Stake.syncActive, List.foldl, Stake.put_id, Stake.putB_id]
@[simp] theorem Stake.syncActive_ringN : (k.syncActive).ringN = k.ringN := by simp only [Stake.syncActive, List.foldl, Stake.put_ringN, Stake.putB_ringN]
@[simp] theorem Stake.syncActive_act : (k.syncActive).act = k.act := by simp only [Stake.syncActive, List.foldl, Stake.put_act, Stake.putB_act]
@[simp] theorem Stake.syncActive_tbl : (k.syncActive).tbl = k.tbl := by simp only [Stake.syncActive, List.foldl, Stake.put_tbl, Stake.putB_tbl]
@[simp] theorem Stake.syncActive_sram : (k.syncActive).sram = k.sram := by simp only [Stake.syncActive, List.foldl, Stake.put_sram, Stake.putB_sram]
@[simp] theorem Stake.syncActive_lowStage : (k.syncActive).lowStage = k.lowStage := by simp only [Stake.syncActive, List.foldl, Stake.put_lowStage, Stake.putB_lowStage]
@[simp] theorem Stake.syncActive_snap : (k.syncActive).snap = k.snap := by simp only [Stake.syncActive, List.foldl, Stake.put_snap, Stake.putB_snap]
@[simp] theorem Stake.syncActive_now : (k.syncActive).now = k.now := by simp only [Stake.syncActive, List.foldl, Stake.put_now, Stake.putB_now]
@[simp] theorem Stake.syncActive_fresh : (k.syncActive).fresh = k.fresh := by simp only [Stake.syncActive, List.foldl, Stake.put_fresh, Stake.putB_fresh]
@[simp] theorem Stake.syncActive_done : (k.syncActive).done = k.done := by simp only [Stake.syncActive, List.foldl, Stake.put_done, Stake.putB_done]
@[simp] theorem Stake.syncActive_offers : (k.syncActive).offers = k.offers := by simp only [Stake.syncActive, List.foldl, Stake.put_offers, Stake.putB_offers]
@[simp] theorem Stake.syncActive_str : (k.syncActive).str = k.str := by simp only [Stake.syncActive, List.foldl, Stake.put_str, Stake.putB_str]
@[simp] theorem Stake.syncActive_bounds : (k.syncActive).bounds = k.bounds := by simp only [Stake.syncActive, List.foldl, Stake.put_bounds, Stake.putB_bounds]
@[simp] theorem Stake.syncActive_tuneUsed : (k.syncActive).tuneUsed = k.tuneUsed := by simp only [Stake.syncActive, List.foldl, Stake.put_tuneUsed, Stake.putB_tuneUsed]
@[simp] theorem Stake.syncActive_wal : (k.syncActive).wal = k.wal := by simp only [Stake.syncActive, List.foldl, Stake.put_wal, Stake.putB_wal]
@[simp] theorem Stake.syncActive_ang : (k.syncActive).ang = k.ang := by simp only [Stake.syncActive, List.foldl, Stake.put_ang, Stake.putB_ang]
@[simp] theorem Stake.syncActive_sns : (k.syncActive).sns = k.sns := by simp only [Stake.syncActive, List.foldl, Stake.put_sns, Stake.putB_sns]
@[simp] theorem Stake.syncActive_pos : (k.syncActive).pos = k.pos := by simp only [Stake.syncActive, List.foldl, Stake.put_pos, Stake.putB_pos]
@[simp] theorem Stake.syncActive_fe : (k.syncActive).fe = k.fe := by simp only [Stake.syncActive, List.foldl, Stake.put_fe, Stake.putB_fe]
@[simp] theorem Stake.syncActive_modu : (k.syncActive).modu = k.modu := by simp only [Stake.syncActive, List.foldl, Stake.put_modu, Stake.putB_modu]
@[simp] theorem Stake.syncActive_leg : (k.syncActive).leg = k.leg := by simp only [Stake.syncActive, List.foldl, Stake.put_leg, Stake.putB_leg]
@[simp] theorem Stake.syncActive_pair : (k.syncActive).pair = k.pair := by simp only [Stake.syncActive, List.foldl, Stake.put_pair, Stake.putB_pair]
@[simp] theorem Stake.syncActive_vote : (k.syncActive).vote = k.vote := by simp only [Stake.syncActive, List.foldl, Stake.put_vote, Stake.putB_vote]
@[simp] theorem Stake.syncActive_thm : (k.syncActive).thm = k.thm := by simp only [Stake.syncActive, List.foldl, Stake.put_thm, Stake.putB_thm]
@[simp] theorem Stake.syncActive_stopped : (k.syncActive).stopped = k.stopped := by simp only [Stake.syncActive, List.foldl, Stake.put_stopped, Stake.putB_stopped]

@[simp] theorem Stake.setAxis_prt (st sub : Nat) : (k.setAxis st sub).prt = k.prt := by simp only [Stake.setAxis, apply_ite Stake.prt, Stake.put_prt, Stake.putB_prt, Stake.onFe_prt, Stake.emit_prt, Stake.syncActive_prt, ite_self]
@[simp] theorem Stake.setAxis_id (st sub : Nat) : (k.setAxis st sub).id = k.id := by simp only [Stake.setAxis, apply_ite Stake.id, Stake.put_id, Stake.putB_id, Stake.onFe_id, Stake.emit_id, Stake.syncActive_id, ite_self]
@[simp] theorem Stake.setAxis_ringN (st sub : Nat) : (k.setAxis st sub).ringN = k.ringN := by simp only [Stake.setAxis, apply_ite Stake.ringN, Stake.put_ringN, Stake.putB_ringN, Stake.onFe_ringN, Stake.emit_ringN, Stake.syncActive_ringN, ite_self]
@[simp] theorem Stake.setAxis_act (st sub : Nat) : (k.setAxis st sub).act = k.act := by simp only [Stake.setAxis, apply_ite Stake.act, Stake.put_act, Stake.putB_act, Stake.onFe_act, Stake.emit_act, Stake.syncActive_act, ite_self]
@[simp] theorem Stake.setAxis_tbl (st sub : Nat) : (k.setAxis st sub).tbl = k.tbl := by simp only [Stake.setAxis, apply_ite Stake.tbl, Stake.put_tbl, Stake.putB_tbl, Stake.onFe_tbl, Stake.emit_tbl, Stake.syncActive_tbl, ite_self]
@[simp] theorem Stake.setAxis_sram (st sub : Nat) : (k.setAxis st sub).sram = k.sram := by simp only [Stake.setAxis, apply_ite Stake.sram, Stake.put_sram, Stake.putB_sram, Stake.onFe_sram, Stake.emit_sram, Stake.syncActive_sram, ite_self]
@[simp] theorem Stake.setAxis_lowStage (st sub : Nat) : (k.setAxis st sub).lowStage = k.lowStage := by simp only [Stake.setAxis, apply_ite Stake.lowStage, Stake.put_lowStage, Stake.putB_lowStage, Stake.onFe_lowStage, Stake.emit_lowStage, Stake.syncActive_lowStage, ite_self]
@[simp] theorem Stake.setAxis_snap (st sub : Nat) : (k.setAxis st sub).snap = k.snap := by simp only [Stake.setAxis, apply_ite Stake.snap, Stake.put_snap, Stake.putB_snap, Stake.onFe_snap, Stake.emit_snap, Stake.syncActive_snap, ite_self]
@[simp] theorem Stake.setAxis_now (st sub : Nat) : (k.setAxis st sub).now = k.now := by simp only [Stake.setAxis, apply_ite Stake.now, Stake.put_now, Stake.putB_now, Stake.onFe_now, Stake.emit_now, Stake.syncActive_now, ite_self]
@[simp] theorem Stake.setAxis_fresh (st sub : Nat) : (k.setAxis st sub).fresh = k.fresh := by simp only [Stake.setAxis, apply_ite Stake.fresh, Stake.put_fresh, Stake.putB_fresh, Stake.onFe_fresh, Stake.emit_fresh, Stake.syncActive_fresh, ite_self]
@[simp] theorem Stake.setAxis_done (st sub : Nat) : (k.setAxis st sub).done = k.done := by simp only [Stake.setAxis, apply_ite Stake.done, Stake.put_done, Stake.putB_done, Stake.onFe_done, Stake.emit_done, Stake.syncActive_done, ite_self]
@[simp] theorem Stake.setAxis_offers (st sub : Nat) : (k.setAxis st sub).offers = k.offers := by simp only [Stake.setAxis, apply_ite Stake.offers, Stake.put_offers, Stake.putB_offers, Stake.onFe_offers, Stake.emit_offers, Stake.syncActive_offers, ite_self]
@[simp] theorem Stake.setAxis_str (st sub : Nat) : (k.setAxis st sub).str = k.str := by simp only [Stake.setAxis, apply_ite Stake.str, Stake.put_str, Stake.putB_str, Stake.onFe_str, Stake.emit_str, Stake.syncActive_str, ite_self]
@[simp] theorem Stake.setAxis_bounds (st sub : Nat) : (k.setAxis st sub).bounds = k.bounds := by simp only [Stake.setAxis, apply_ite Stake.bounds, Stake.put_bounds, Stake.putB_bounds, Stake.onFe_bounds, Stake.emit_bounds, Stake.syncActive_bounds, ite_self]
@[simp] theorem Stake.setAxis_tuneUsed (st sub : Nat) : (k.setAxis st sub).tuneUsed = k.tuneUsed := by simp only [Stake.setAxis, apply_ite Stake.tuneUsed, Stake.put_tuneUsed, Stake.putB_tuneUsed, Stake.onFe_tuneUsed, Stake.emit_tuneUsed, Stake.syncActive_tuneUsed, ite_self]
@[simp] theorem Stake.setAxis_wal (st sub : Nat) : (k.setAxis st sub).wal = k.wal := by simp only [Stake.setAxis, apply_ite Stake.wal, Stake.put_wal, Stake.putB_wal, Stake.onFe_wal, Stake.emit_wal, Stake.syncActive_wal, ite_self]
@[simp] theorem Stake.setAxis_ang (st sub : Nat) : (k.setAxis st sub).ang = k.ang := by simp only [Stake.setAxis, apply_ite Stake.ang, Stake.put_ang, Stake.putB_ang, Stake.onFe_ang, Stake.emit_ang, Stake.syncActive_ang, ite_self]
@[simp] theorem Stake.setAxis_sns (st sub : Nat) : (k.setAxis st sub).sns = k.sns := by simp only [Stake.setAxis, apply_ite Stake.sns, Stake.put_sns, Stake.putB_sns, Stake.onFe_sns, Stake.emit_sns, Stake.syncActive_sns, ite_self]
@[simp] theorem Stake.setAxis_pos (st sub : Nat) : (k.setAxis st sub).pos = k.pos := by simp only [Stake.setAxis, apply_ite Stake.pos, Stake.put_pos, Stake.putB_pos, Stake.onFe_pos, Stake.emit_pos, Stake.syncActive_pos, ite_self]
/-- The field engine's history goes only as the axis leaves OFF, ARMED and SAFE (R137). -/
theorem Stake.setAxis_fe (st sub : Nat) (h : axIdle k.axis = false ∨ axIdle st = true) : (k.setAxis st sub).fe = k.fe := by
  have h' : (axIdle k.axis && !axIdle st) = false := by
    rcases h with h | h
    · rw [h]; rfl
    · rw [h]; simp
  simp only [Stake.setAxis, h', Bool.false_eq_true, if_false, apply_ite Stake.fe, Stake.put_fe, Stake.putB_fe, Stake.emit_fe,
    Stake.syncActive_fe, ite_self]
@[simp] theorem Stake.setAxis_modu (st sub : Nat) : (k.setAxis st sub).modu = k.modu := by simp only [Stake.setAxis, apply_ite Stake.modu, Stake.put_modu, Stake.putB_modu, Stake.onFe_modu, Stake.emit_modu, Stake.syncActive_modu, ite_self]
@[simp] theorem Stake.setAxis_leg (st sub : Nat) : (k.setAxis st sub).leg = k.leg := by simp only [Stake.setAxis, apply_ite Stake.leg, Stake.put_leg, Stake.putB_leg, Stake.onFe_leg, Stake.emit_leg, Stake.syncActive_leg, ite_self]
@[simp] theorem Stake.setAxis_pair (st sub : Nat) : (k.setAxis st sub).pair = k.pair := by simp only [Stake.setAxis, apply_ite Stake.pair, Stake.put_pair, Stake.putB_pair, Stake.onFe_pair, Stake.emit_pair, Stake.syncActive_pair, ite_self]
@[simp] theorem Stake.setAxis_vote (st sub : Nat) : (k.setAxis st sub).vote = k.vote := by simp only [Stake.setAxis, apply_ite Stake.vote, Stake.put_vote, Stake.putB_vote, Stake.onFe_vote, Stake.emit_vote, Stake.syncActive_vote, ite_self]
@[simp] theorem Stake.setAxis_thm (st sub : Nat) : (k.setAxis st sub).thm = k.thm := by simp only [Stake.setAxis, apply_ite Stake.thm, Stake.put_thm, Stake.putB_thm, Stake.onFe_thm, Stake.emit_thm, Stake.syncActive_thm, ite_self]
@[simp] theorem Stake.setAxis_stopped (st sub : Nat) : (k.setAxis st sub).stopped = k.stopped := by simp only [Stake.setAxis, apply_ite Stake.stopped, Stake.put_stopped, Stake.putB_stopped, Stake.onFe_stopped, Stake.emit_stopped, Stake.syncActive_stopped, ite_self]

@[simp] theorem Stake.updDerate_prt : (k.updDerate).prt = k.prt := by simp only [Stake.updDerate, apply_ite Stake.prt, Stake.setAxis_prt, ite_self]
@[simp] theorem Stake.updDerate_id : (k.updDerate).id = k.id := by simp only [Stake.updDerate, apply_ite Stake.id, Stake.setAxis_id, ite_self]
@[simp] theorem Stake.updDerate_ringN : (k.updDerate).ringN = k.ringN := by simp only [Stake.updDerate, apply_ite Stake.ringN, Stake.setAxis_ringN, ite_self]
@[simp] theorem Stake.updDerate_act : (k.updDerate).act = k.act := by simp only [Stake.updDerate, apply_ite Stake.act, Stake.setAxis_act, ite_self]
@[simp] theorem Stake.updDerate_tbl : (k.updDerate).tbl = k.tbl := by simp only [Stake.updDerate, apply_ite Stake.tbl, Stake.setAxis_tbl, ite_self]
@[simp] theorem Stake.updDerate_sram : (k.updDerate).sram = k.sram := by simp only [Stake.updDerate, apply_ite Stake.sram, Stake.setAxis_sram, ite_self]
@[simp] theorem Stake.updDerate_lowStage : (k.updDerate).lowStage = k.lowStage := by simp only [Stake.updDerate, apply_ite Stake.lowStage, Stake.setAxis_lowStage, ite_self]
@[simp] theorem Stake.updDerate_snap : (k.updDerate).snap = k.snap := by simp only [Stake.updDerate, apply_ite Stake.snap, Stake.setAxis_snap, ite_self]
@[simp] theorem Stake.updDerate_now : (k.updDerate).now = k.now := by simp only [Stake.updDerate, apply_ite Stake.now, Stake.setAxis_now, ite_self]
@[simp] theorem Stake.updDerate_fresh : (k.updDerate).fresh = k.fresh := by simp only [Stake.updDerate, apply_ite Stake.fresh, Stake.setAxis_fresh, ite_self]
@[simp] theorem Stake.updDerate_done : (k.updDerate).done = k.done := by simp only [Stake.updDerate, apply_ite Stake.done, Stake.setAxis_done, ite_self]
@[simp] theorem Stake.updDerate_offers : (k.updDerate).offers = k.offers := by simp only [Stake.updDerate, apply_ite Stake.offers, Stake.setAxis_offers, ite_self]
@[simp] theorem Stake.updDerate_str : (k.updDerate).str = k.str := by simp only [Stake.updDerate, apply_ite Stake.str, Stake.setAxis_str, ite_self]
@[simp] theorem Stake.updDerate_bounds : (k.updDerate).bounds = k.bounds := by simp only [Stake.updDerate, apply_ite Stake.bounds, Stake.setAxis_bounds, ite_self]
@[simp] theorem Stake.updDerate_tuneUsed : (k.updDerate).tuneUsed = k.tuneUsed := by simp only [Stake.updDerate, apply_ite Stake.tuneUsed, Stake.setAxis_tuneUsed, ite_self]
@[simp] theorem Stake.updDerate_wal : (k.updDerate).wal = k.wal := by simp only [Stake.updDerate, apply_ite Stake.wal, Stake.setAxis_wal, ite_self]
@[simp] theorem Stake.updDerate_ang : (k.updDerate).ang = k.ang := by simp only [Stake.updDerate, apply_ite Stake.ang, Stake.setAxis_ang, ite_self]
@[simp] theorem Stake.updDerate_sns : (k.updDerate).sns = k.sns := by simp only [Stake.updDerate, apply_ite Stake.sns, Stake.setAxis_sns, ite_self]
@[simp] theorem Stake.updDerate_pos : (k.updDerate).pos = k.pos := by simp only [Stake.updDerate, apply_ite Stake.pos, Stake.setAxis_pos, ite_self]
@[simp] theorem Stake.updDerate_fe : (k.updDerate).fe = k.fe := by
  unfold Stake.updDerate
  split
  · rfl
  · split
    · rename_i h
      exact k.setAxis_fe _ _ (Or.inl (by simp only [Bool.and_eq_true, decide_eq_true_eq] at h; rw [h.1]; decide))
    · split
      · rename_i h
        exact k.setAxis_fe _ _ (Or.inl (by simp only [Bool.and_eq_true, decide_eq_true_eq] at h; rw [h.1]; decide))
      · rfl
@[simp] theorem Stake.updDerate_modu : (k.updDerate).modu = k.modu := by simp only [Stake.updDerate, apply_ite Stake.modu, Stake.setAxis_modu, ite_self]
@[simp] theorem Stake.updDerate_leg : (k.updDerate).leg = k.leg := by simp only [Stake.updDerate, apply_ite Stake.leg, Stake.setAxis_leg, ite_self]
@[simp] theorem Stake.updDerate_pair : (k.updDerate).pair = k.pair := by simp only [Stake.updDerate, apply_ite Stake.pair, Stake.setAxis_pair, ite_self]
@[simp] theorem Stake.updDerate_vote : (k.updDerate).vote = k.vote := by simp only [Stake.updDerate, apply_ite Stake.vote, Stake.setAxis_vote, ite_self]
@[simp] theorem Stake.updDerate_thm : (k.updDerate).thm = k.thm := by simp only [Stake.updDerate, apply_ite Stake.thm, Stake.setAxis_thm, ite_self]
@[simp] theorem Stake.updDerate_stopped : (k.updDerate).stopped = k.stopped := by simp only [Stake.updDerate, apply_ite Stake.stopped, Stake.setAxis_stopped, ite_self]

@[simp] theorem Stake.react_id (r : EvRec) (b : Bool) (x : Nat) : (k.react r b x).id = k.id := by simp only [Stake.react, apply_ite Stake.id, Stake.syncActive_id, Stake.updDerate_id, ite_self]
@[simp] theorem Stake.react_ringN (r : EvRec) (b : Bool) (x : Nat) : (k.react r b x).ringN = k.ringN := by simp only [Stake.react, apply_ite Stake.ringN, Stake.syncActive_ringN, Stake.updDerate_ringN, ite_self]
@[simp] theorem Stake.react_act (r : EvRec) (b : Bool) (x : Nat) : (k.react r b x).act = k.act := by simp only [Stake.react, apply_ite Stake.act, Stake.syncActive_act, Stake.updDerate_act, ite_self]
@[simp] theorem Stake.react_tbl (r : EvRec) (b : Bool) (x : Nat) : (k.react r b x).tbl = k.tbl := by simp only [Stake.react, apply_ite Stake.tbl, Stake.syncActive_tbl, Stake.updDerate_tbl, ite_self]
@[simp] theorem Stake.react_sram (r : EvRec) (b : Bool) (x : Nat) : (k.react r b x).sram = k.sram := by simp only [Stake.react, apply_ite Stake.sram, Stake.syncActive_sram, Stake.updDerate_sram, ite_self]
@[simp] theorem Stake.react_lowStage (r : EvRec) (b : Bool) (x : Nat) : (k.react r b x).lowStage = k.lowStage := by simp only [Stake.react, apply_ite Stake.lowStage, Stake.syncActive_lowStage, Stake.updDerate_lowStage, ite_self]
@[simp] theorem Stake.react_snap (r : EvRec) (b : Bool) (x : Nat) : (k.react r b x).snap = k.snap := by simp only [Stake.react, apply_ite Stake.snap, Stake.syncActive_snap, Stake.updDerate_snap, ite_self]
@[simp] theorem Stake.react_now (r : EvRec) (b : Bool) (x : Nat) : (k.react r b x).now = k.now := by simp only [Stake.react, apply_ite Stake.now, Stake.syncActive_now, Stake.updDerate_now, ite_self]
@[simp] theorem Stake.react_fresh (r : EvRec) (b : Bool) (x : Nat) : (k.react r b x).fresh = k.fresh := by simp only [Stake.react, apply_ite Stake.fresh, Stake.syncActive_fresh, Stake.updDerate_fresh, ite_self]
@[simp] theorem Stake.react_done (r : EvRec) (b : Bool) (x : Nat) : (k.react r b x).done = k.done := by simp only [Stake.react, apply_ite Stake.done, Stake.syncActive_done, Stake.updDerate_done, ite_self]
@[simp] theorem Stake.react_offers (r : EvRec) (b : Bool) (x : Nat) : (k.react r b x).offers = k.offers := by simp only [Stake.react, apply_ite Stake.offers, Stake.syncActive_offers, Stake.updDerate_offers, ite_self]
@[simp] theorem Stake.react_str (r : EvRec) (b : Bool) (x : Nat) : (k.react r b x).str = k.str := by simp only [Stake.react, apply_ite Stake.str, Stake.syncActive_str, Stake.updDerate_str, ite_self]
@[simp] theorem Stake.react_bounds (r : EvRec) (b : Bool) (x : Nat) : (k.react r b x).bounds = k.bounds := by simp only [Stake.react, apply_ite Stake.bounds, Stake.syncActive_bounds, Stake.updDerate_bounds, ite_self]
@[simp] theorem Stake.react_tuneUsed (r : EvRec) (b : Bool) (x : Nat) : (k.react r b x).tuneUsed = k.tuneUsed := by simp only [Stake.react, apply_ite Stake.tuneUsed, Stake.syncActive_tuneUsed, Stake.updDerate_tuneUsed, ite_self]
@[simp] theorem Stake.react_wal (r : EvRec) (b : Bool) (x : Nat) : (k.react r b x).wal = k.wal := by simp only [Stake.react, apply_ite Stake.wal, Stake.syncActive_wal, Stake.updDerate_wal, ite_self]
@[simp] theorem Stake.react_ang (r : EvRec) (b : Bool) (x : Nat) : (k.react r b x).ang = k.ang := by simp only [Stake.react, apply_ite Stake.ang, Stake.syncActive_ang, Stake.updDerate_ang, ite_self]
@[simp] theorem Stake.react_sns (r : EvRec) (b : Bool) (x : Nat) : (k.react r b x).sns = k.sns := by simp only [Stake.react, apply_ite Stake.sns, Stake.syncActive_sns, Stake.updDerate_sns, ite_self]
@[simp] theorem Stake.react_pos (r : EvRec) (b : Bool) (x : Nat) : (k.react r b x).pos = k.pos := by simp only [Stake.react, apply_ite Stake.pos, Stake.syncActive_pos, Stake.updDerate_pos, ite_self]
@[simp] theorem Stake.react_fe (r : EvRec) (b : Bool) (x : Nat) : (k.react r b x).fe = k.fe := by simp only [Stake.react, apply_ite Stake.fe, Stake.syncActive_fe, Stake.updDerate_fe, ite_self]
@[simp] theorem Stake.react_modu (r : EvRec) (b : Bool) (x : Nat) : (k.react r b x).modu = k.modu := by simp only [Stake.react, apply_ite Stake.modu, Stake.syncActive_modu, Stake.updDerate_modu, ite_self]
@[simp] theorem Stake.react_leg (r : EvRec) (b : Bool) (x : Nat) : (k.react r b x).leg = k.leg := by simp only [Stake.react, apply_ite Stake.leg, Stake.syncActive_leg, Stake.updDerate_leg, ite_self]
@[simp] theorem Stake.react_pair (r : EvRec) (b : Bool) (x : Nat) : (k.react r b x).pair = k.pair := by simp only [Stake.react, apply_ite Stake.pair, Stake.syncActive_pair, Stake.updDerate_pair, ite_self]
@[simp] theorem Stake.react_vote (r : EvRec) (b : Bool) (x : Nat) : (k.react r b x).vote = k.vote := by simp only [Stake.react, apply_ite Stake.vote, Stake.syncActive_vote, Stake.updDerate_vote, ite_self]
@[simp] theorem Stake.react_thm (r : EvRec) (b : Bool) (x : Nat) : (k.react r b x).thm = k.thm := by simp only [Stake.react, apply_ite Stake.thm, Stake.syncActive_thm, Stake.updDerate_thm, ite_self]
@[simp] theorem Stake.react_stopped (r : EvRec) (b : Bool) (x : Nat) : (k.react r b x).stopped = k.stopped := by simp only [Stake.react, apply_ite Stake.stopped, Stake.syncActive_stopped, Stake.updDerate_stopped, ite_self]

@[simp] theorem Stake.postF_id (e : Ev) (c : Nat) (v : List Nat) (x : Nat) : (k.postF e c v x).id = k.id := by simp only [Stake.postF, Stake.react_id, Stake.emit_id]
@[simp] theorem Stake.postF_ringN (e : Ev) (c : Nat) (v : List Nat) (x : Nat) : (k.postF e c v x).ringN = k.ringN := by simp only [Stake.postF, Stake.react_ringN, Stake.emit_ringN]
@[simp] theorem Stake.postF_act (e : Ev) (c : Nat) (v : List Nat) (x : Nat) : (k.postF e c v x).act = k.act := by simp only [Stake.postF, Stake.react_act, Stake.emit_act]
@[simp] theorem Stake.postF_tbl (e : Ev) (c : Nat) (v : List Nat) (x : Nat) : (k.postF e c v x).tbl = k.tbl := by simp only [Stake.postF, Stake.react_tbl, Stake.emit_tbl]
@[simp] theorem Stake.postF_sram (e : Ev) (c : Nat) (v : List Nat) (x : Nat) : (k.postF e c v x).sram = k.sram := by simp only [Stake.postF, Stake.react_sram, Stake.emit_sram]
@[simp] theorem Stake.postF_lowStage (e : Ev) (c : Nat) (v : List Nat) (x : Nat) : (k.postF e c v x).lowStage = k.lowStage := by simp only [Stake.postF, Stake.react_lowStage, Stake.emit_lowStage]
@[simp] theorem Stake.postF_snap (e : Ev) (c : Nat) (v : List Nat) (x : Nat) : (k.postF e c v x).snap = k.snap := by simp only [Stake.postF, Stake.react_snap, Stake.emit_snap]
@[simp] theorem Stake.postF_now (e : Ev) (c : Nat) (v : List Nat) (x : Nat) : (k.postF e c v x).now = k.now := by simp only [Stake.postF, Stake.react_now, Stake.emit_now]
@[simp] theorem Stake.postF_fresh (e : Ev) (c : Nat) (v : List Nat) (x : Nat) : (k.postF e c v x).fresh = k.fresh := by simp only [Stake.postF, Stake.react_fresh, Stake.emit_fresh]
@[simp] theorem Stake.postF_done (e : Ev) (c : Nat) (v : List Nat) (x : Nat) : (k.postF e c v x).done = k.done := by simp only [Stake.postF, Stake.react_done, Stake.emit_done]
@[simp] theorem Stake.postF_offers (e : Ev) (c : Nat) (v : List Nat) (x : Nat) : (k.postF e c v x).offers = k.offers := by simp only [Stake.postF, Stake.react_offers, Stake.emit_offers]
@[simp] theorem Stake.postF_str (e : Ev) (c : Nat) (v : List Nat) (x : Nat) : (k.postF e c v x).str = k.str := by simp only [Stake.postF, Stake.react_str, Stake.emit_str]
@[simp] theorem Stake.postF_bounds (e : Ev) (c : Nat) (v : List Nat) (x : Nat) : (k.postF e c v x).bounds = k.bounds := by simp only [Stake.postF, Stake.react_bounds, Stake.emit_bounds]
@[simp] theorem Stake.postF_tuneUsed (e : Ev) (c : Nat) (v : List Nat) (x : Nat) : (k.postF e c v x).tuneUsed = k.tuneUsed := by simp only [Stake.postF, Stake.react_tuneUsed, Stake.emit_tuneUsed]
@[simp] theorem Stake.postF_wal (e : Ev) (c : Nat) (v : List Nat) (x : Nat) : (k.postF e c v x).wal = k.wal := by simp only [Stake.postF, Stake.react_wal, Stake.emit_wal]
@[simp] theorem Stake.postF_ang (e : Ev) (c : Nat) (v : List Nat) (x : Nat) : (k.postF e c v x).ang = k.ang := by simp only [Stake.postF, Stake.react_ang, Stake.emit_ang]
@[simp] theorem Stake.postF_sns (e : Ev) (c : Nat) (v : List Nat) (x : Nat) : (k.postF e c v x).sns = k.sns := by simp only [Stake.postF, Stake.react_sns, Stake.emit_sns]
@[simp] theorem Stake.postF_pos (e : Ev) (c : Nat) (v : List Nat) (x : Nat) : (k.postF e c v x).pos = k.pos := by simp only [Stake.postF, Stake.react_pos, Stake.emit_pos]
@[simp] theorem Stake.postF_fe (e : Ev) (c : Nat) (v : List Nat) (x : Nat) : (k.postF e c v x).fe = k.fe := by simp only [Stake.postF, Stake.react_fe, Stake.emit_fe]
@[simp] theorem Stake.postF_modu (e : Ev) (c : Nat) (v : List Nat) (x : Nat) : (k.postF e c v x).modu = k.modu := by simp only [Stake.postF, Stake.react_modu, Stake.emit_modu]
@[simp] theorem Stake.postF_leg (e : Ev) (c : Nat) (v : List Nat) (x : Nat) : (k.postF e c v x).leg = k.leg := by simp only [Stake.postF, Stake.react_leg, Stake.emit_leg]
@[simp] theorem Stake.postF_pair (e : Ev) (c : Nat) (v : List Nat) (x : Nat) : (k.postF e c v x).pair = k.pair := by simp only [Stake.postF, Stake.react_pair, Stake.emit_pair]
@[simp] theorem Stake.postF_vote (e : Ev) (c : Nat) (v : List Nat) (x : Nat) : (k.postF e c v x).vote = k.vote := by simp only [Stake.postF, Stake.react_vote, Stake.emit_vote]
@[simp] theorem Stake.postF_thm (e : Ev) (c : Nat) (v : List Nat) (x : Nat) : (k.postF e c v x).thm = k.thm := by simp only [Stake.postF, Stake.react_thm, Stake.emit_thm]
@[simp] theorem Stake.postF_stopped (e : Ev) (c : Nat) (v : List Nat) (x : Nat) : (k.postF e c v x).stopped = k.stopped := by simp only [Stake.postF, Stake.react_stopped, Stake.emit_stopped]

@[simp] theorem Stake.post_id (e : Ev) (c : Nat) (v : List Nat) : (k.post e c v).id = k.id := by simp only [Stake.post, Stake.postF_id]
@[simp] theorem Stake.post_ringN (e : Ev) (c : Nat) (v : List Nat) : (k.post e c v).ringN = k.ringN := by simp only [Stake.post, Stake.postF_ringN]
@[simp] theorem Stake.post_act (e : Ev) (c : Nat) (v : List Nat) : (k.post e c v).act = k.act := by simp only [Stake.post, Stake.postF_act]
@[simp] theorem Stake.post_tbl (e : Ev) (c : Nat) (v : List Nat) : (k.post e c v).tbl = k.tbl := by simp only [Stake.post, Stake.postF_tbl]
@[simp] theorem Stake.post_sram (e : Ev) (c : Nat) (v : List Nat) : (k.post e c v).sram = k.sram := by simp only [Stake.post, Stake.postF_sram]
@[simp] theorem Stake.post_lowStage (e : Ev) (c : Nat) (v : List Nat) : (k.post e c v).lowStage = k.lowStage := by simp only [Stake.post, Stake.postF_lowStage]
@[simp] theorem Stake.post_snap (e : Ev) (c : Nat) (v : List Nat) : (k.post e c v).snap = k.snap := by simp only [Stake.post, Stake.postF_snap]
@[simp] theorem Stake.post_now (e : Ev) (c : Nat) (v : List Nat) : (k.post e c v).now = k.now := by simp only [Stake.post, Stake.postF_now]
@[simp] theorem Stake.post_fresh (e : Ev) (c : Nat) (v : List Nat) : (k.post e c v).fresh = k.fresh := by simp only [Stake.post, Stake.postF_fresh]
@[simp] theorem Stake.post_done (e : Ev) (c : Nat) (v : List Nat) : (k.post e c v).done = k.done := by simp only [Stake.post, Stake.postF_done]
@[simp] theorem Stake.post_offers (e : Ev) (c : Nat) (v : List Nat) : (k.post e c v).offers = k.offers := by simp only [Stake.post, Stake.postF_offers]
@[simp] theorem Stake.post_str (e : Ev) (c : Nat) (v : List Nat) : (k.post e c v).str = k.str := by simp only [Stake.post, Stake.postF_str]
@[simp] theorem Stake.post_bounds (e : Ev) (c : Nat) (v : List Nat) : (k.post e c v).bounds = k.bounds := by simp only [Stake.post, Stake.postF_bounds]
@[simp] theorem Stake.post_tuneUsed (e : Ev) (c : Nat) (v : List Nat) : (k.post e c v).tuneUsed = k.tuneUsed := by simp only [Stake.post, Stake.postF_tuneUsed]
@[simp] theorem Stake.post_wal (e : Ev) (c : Nat) (v : List Nat) : (k.post e c v).wal = k.wal := by simp only [Stake.post, Stake.postF_wal]
@[simp] theorem Stake.post_ang (e : Ev) (c : Nat) (v : List Nat) : (k.post e c v).ang = k.ang := by simp only [Stake.post, Stake.postF_ang]
@[simp] theorem Stake.post_sns (e : Ev) (c : Nat) (v : List Nat) : (k.post e c v).sns = k.sns := by simp only [Stake.post, Stake.postF_sns]
@[simp] theorem Stake.post_pos (e : Ev) (c : Nat) (v : List Nat) : (k.post e c v).pos = k.pos := by simp only [Stake.post, Stake.postF_pos]
@[simp] theorem Stake.post_fe (e : Ev) (c : Nat) (v : List Nat) : (k.post e c v).fe = k.fe := by simp only [Stake.post, Stake.postF_fe]
@[simp] theorem Stake.post_modu (e : Ev) (c : Nat) (v : List Nat) : (k.post e c v).modu = k.modu := by simp only [Stake.post, Stake.postF_modu]
@[simp] theorem Stake.post_leg (e : Ev) (c : Nat) (v : List Nat) : (k.post e c v).leg = k.leg := by simp only [Stake.post, Stake.postF_leg]
@[simp] theorem Stake.post_pair (e : Ev) (c : Nat) (v : List Nat) : (k.post e c v).pair = k.pair := by simp only [Stake.post, Stake.postF_pair]
@[simp] theorem Stake.post_vote (e : Ev) (c : Nat) (v : List Nat) : (k.post e c v).vote = k.vote := by simp only [Stake.post, Stake.postF_vote]
@[simp] theorem Stake.post_thm (e : Ev) (c : Nat) (v : List Nat) : (k.post e c v).thm = k.thm := by simp only [Stake.post, Stake.postF_thm]
@[simp] theorem Stake.post_stopped (e : Ev) (c : Nat) (v : List Nat) : (k.post e c v).stopped = k.stopped := by simp only [Stake.post, Stake.postF_stopped]

end

/-! The registers that the axis state and the active set write. -/
section
variable (k : Stake)

/-- `PLT_ACTIVE` and `PLT_AXIS_STATE`: the registers that posting an event can change. -/
def axisRegs : List Nat := [Reg.PLT_ACTIVE, Reg.PLT_AXIS_STATE]

theorem Stake.regsKept_refl (l : List Nat) : k.regsKept k l := fun _ _ => rfl

theorem Stake.regsKept_trans {k j i : Stake} {l : List Nat} (h : k.regsKept j l) (h' : j.regsKept i l) : k.regsKept i l :=
  fun o ho => (h' o ho).trans (h o ho)

theorem Stake.regsKept_put {f : Fld} (v : Nat) {l : List Nat} (h : f.off ∈ l) : k.regsKept (k.put f v) l :=
  fun _ ho => k.rd_put_ne v fun he => ho (he ▸ h)

theorem Stake.regsKept_putB {f : Fld} (b : Bool) {l : List Nat} (h : f.off ∈ l) : k.regsKept (k.putB f b) l := k.regsKept_put _ h

theorem Stake.regsKept_wr {off : Nat} (v : BitVec 32) {l : List Nat} (h : off ∈ l) : k.regsKept (k.wr off v) l :=
  fun _ ho => k.rd_wr_ne v fun he => ho (he ▸ h)

theorem Stake.regsKept_bump {off : Nat} (n : Nat) {l : List Nat} (h : off ∈ l) : k.regsKept (k.bump off n) l :=
  fun _ ho => k.rd_bump_ne n fun he => ho (he ▸ h)

theorem Stake.regsKept_bump31 {off : Nat} (n : Nat) {l : List Nat} (h : off ∈ l) : k.regsKept (k.bump31 off n) l :=
  fun _ ho => k.rd_bump31_ne n fun he => ho (he ▸ h)

theorem Stake.regsKept_of_eq {k j : Stake} {l : List Nat} (hr : j.regs = k.regs) (hi : j.id = k.id) : k.regsKept j l :=
  fun o _ => Stake.rd_congr hr hi o

theorem Stake.syncActive_regsKept : k.regsKept k.syncActive axisRegs := by
  simp only [Stake.syncActive, List.foldl]
  have h1 : ∀ (q : Stake) (c v : Nat), q.regsKept (q.put (activeField c) v) axisRegs := fun q c v =>
    q.regsKept_put v (by unfold activeField; (repeat' split) <;> decide)
  refine Stake.regsKept_trans ?_ (Stake.regsKept_putB _ _ (by decide))
  refine Stake.regsKept_trans ?_ (Stake.regsKept_putB _ _ (by decide))
  refine Stake.regsKept_trans ?_ (Stake.regsKept_putB _ _ (by decide))
  refine Stake.regsKept_trans ?_ (h1 _ 4 _)
  refine Stake.regsKept_trans ?_ (h1 _ 3 _)
  refine Stake.regsKept_trans ?_ (h1 _ 2 _)
  exact h1 _ 1 _

theorem Stake.regsKept_ite {k a b : Stake} {l : List Nat} {p : Prop} [Decidable p] (ha : k.regsKept a l) (hb : k.regsKept b l) :
    k.regsKept (if p then a else b) l := by
  by_cases h : p
  · rw [if_pos h]; exact ha
  · rw [if_neg h]; exact hb

theorem Stake.setAxis_regsKept (st sub : Nat) : k.regsKept (k.setAxis st sub) axisRegs := by
  have h1 : k.regsKept ((k.put Reg.PLT_AXIS_STATE_STATE st).put Reg.PLT_AXIS_STATE_SUB sub) axisRegs :=
    Stake.regsKept_trans (Stake.regsKept_put _ _ (by decide)) (Stake.regsKept_put _ _ (by decide))
  have s2 : ∀ q : Stake, q.regsKept (q.putB Reg.PLT_AXIS_STATE_STOP_PENDING false).syncActive axisRegs := fun q =>
    Stake.regsKept_trans (q.regsKept_putB _ (by decide)) (Stake.syncActive_regsKept _)
  have s3 : ∀ q : Stake, q.regsKept (q.put Reg.PLT_AXIS_STATE_FRESH 0) axisRegs := fun q => q.regsKept_put _ (by decide)
  have s6 : ∀ q : Stake, q.regsKept (q.put Reg.PLT_AXIS_STATE_FRESH 2) axisRegs := fun q => q.regsKept_put _ (by decide)
  have s4 : ∀ (q : Stake) (l : List Nat), q.regsKept (q.emit .axisState 0 l 0) axisRegs := fun _ _ => Stake.regsKept_of_eq rfl rfl
  have s5 : ∀ q : Stake, q.regsKept (q.onFe fun x => { x with history := false, predRun := 0, udcRun := 0 }) axisRegs := fun _ =>
    Stake.regsKept_of_eq rfl rfl
  unfold Stake.setAxis
  have h2 := Stake.regsKept_ite (p := st = axRun ∨ st = axDerate) h1 (Stake.regsKept_trans h1 (s2 _))
  have h2' := Stake.regsKept_ite (p := (k.flag Reg.PLT_AXIS_STATE_FALLBACK && k.fld Reg.PLT_AXIS_STATE_FRESH = 0) = true)
    (Stake.regsKept_trans h2 (s6 _)) h2
  have h3 := Stake.regsKept_ite (p := st = axRun ∨ st = axDerate ∨ st = axCatch) h2' (Stake.regsKept_trans h2 (s3 _))
  have h3' := Stake.regsKept_ite (p := (axIdle k.axis && !axIdle st) = true) (Stake.regsKept_trans h3 (s5 _)) h3
  have h4 := Stake.regsKept_ite (p := k.axis = st) h3' (Stake.regsKept_trans h3' (s4 _ [st, sub]))
  simpa only [Bool.or_eq_true, decide_eq_true_eq, or_assoc] using h4

theorem Stake.updDerate_regsKept : k.regsKept k.updDerate axisRegs :=
  Stake.regsKept_ite (k.regsKept_refl _)
    (Stake.regsKept_ite (k.setAxis_regsKept _ _) (Stake.regsKept_ite (k.setAxis_regsKept _ _) (k.regsKept_refl _)))

theorem Stake.react_regsKept (r : EvRec) (b : Bool) (x : Nat) : k.regsKept (k.react r b x) axisRegs := by
  have h0 : ∀ j : Stake, j.regs = k.regs → j.id = k.id → k.regsKept j.syncActive.updDerate axisRegs := fun j hr hi =>
    Stake.regsKept_trans (Stake.regsKept_trans (Stake.regsKept_of_eq hr hi) j.syncActive_regsKept) j.syncActive.updDerate_regsKept
  have h : k.regsKept (({ k with prt := { k.prt with active := enterActive k.prt.active r b } } : Stake).syncActive.updDerate) axisRegs :=
    h0 _ rfl rfl
  exact Stake.regsKept_ite (k.regsKept_refl _) (Stake.regsKept_ite (Stake.regsKept_trans h (Stake.regsKept_of_eq rfl rfl)) h)

/-- Posting an event changes no register but `PLT_ACTIVE` and `PLT_AXIS_STATE`. -/
theorem Stake.post_regsKept (e : Ev) (c : Nat) (v : List Nat) : k.regsKept (k.post e c v) axisRegs := by
  unfold Stake.post Stake.postF
  intro o ho
  exact ((k.emit e c v _).react_regsKept _ _ _ o ho).trans (Stake.rd_congr rfl rfl o)

/-- An event of class F0 changes nothing but the records that leave for the anchor. -/
theorem Stake.post_zero (e : Ev) (v : List Nat) : k.post e 0 v = k.emit e 0 v (if e = .hostStale then 4 else 0) := by
  simp only [Stake.post, Stake.postF, Stake.react, if_true, Nat.zero_add]

theorem Stake.prefix_ite {l : List EvRec} {a b : Stake} {p : Prop} [Decidable p] (ha : l <+: a.out) (hb : l <+: b.out) :
    l <+: (if p then a else b).out := by
  by_cases h : p
  · rw [if_pos h]; exact ha
  · rw [if_neg h]; exact hb

/-- What leaves for the anchor only grows. -/
theorem Stake.setAxis_out (st sub : Nat) : k.out <+: (k.setAxis st sub).out := by
  unfold Stake.setAxis
  refine Stake.prefix_ite ?_ (List.IsPrefix.trans ?_ (List.prefix_append _ _))
  all_goals
    simp only [apply_ite Stake.out, Stake.put_out, Stake.putB_out, Stake.onFe_out, Stake.syncActive_out, ite_self]
    exact List.prefix_refl _

theorem Stake.updDerate_out : k.out <+: k.updDerate.out :=
  Stake.prefix_ite (List.prefix_refl _) (Stake.prefix_ite (k.setAxis_out _ _) (Stake.prefix_ite (k.setAxis_out _ _) (List.prefix_refl _)))

theorem Stake.react_out (r : EvRec) (b : Bool) (x : Nat) : k.out <+: (k.react r b x).out := by
  have h := Stake.updDerate_out ({ k with prt := { k.prt with active := enterActive k.prt.active r b } } : Stake).syncActive
  rw [Stake.syncActive_out] at h
  exact Stake.prefix_ite (List.prefix_refl _) (Stake.prefix_ite h h)

/-- The record of a posted event is the next that leaves for the anchor (R369). -/
theorem Stake.post_out (e : Ev) (c : Nat) (v : List Nat) :
    ∃ fl, k.out ++ [⟨e, c, k.id, k.ang.tick, v, fl⟩] <+: (k.post e c v).out := by
  unfold Stake.post Stake.postF
  exact ⟨_, Stake.react_out (k.emit e c v _) _ _ _⟩
end

end Sys2Proof.Machine
end

