-- ==== Sys2Proof/Laws/Pkg.lean ====
section
/-! SUPPORT. The package: its registers, its event queue (R369, R370), the drops of a register write (R6, R15, R377). -/
namespace Sys2Proof.Machine

section
variable (p : Pkg)

@[simp] theorem Pkg.wr_lowStage (off : Nat) (v : BitVec 32) : (p.wr off v).lowStage = p.lowStage := rfl
@[simp] theorem Pkg.wr_snap (off : Nat) (v : BitVec 32) : (p.wr off v).snap = p.snap := rfl
@[simp] theorem Pkg.wr_hostReads (off : Nat) (v : BitVec 32) : (p.wr off v).hostReads = p.hostReads := rfl
@[simp] theorem Pkg.wr_evq (off : Nat) (v : BitVec 32) : (p.wr off v).evq = p.evq := rfl
@[simp] theorem Pkg.wr_snaps (off : Nat) (v : BitVec 32) : (p.wr off v).snaps = p.snaps := rfl
@[simp] theorem Pkg.wr_eseq (off : Nat) (v : BitVec 32) : (p.wr off v).eseq = p.eseq := rfl
@[simp] theorem Pkg.wr_snapNext (off : Nat) (v : BitVec 32) : (p.wr off v).snapNext = p.snapNext := rfl
@[simp] theorem Pkg.wr_lost (off : Nat) (v : BitVec 32) : (p.wr off v).lost = p.lost := rfl
@[simp] theorem Pkg.wr_host (off : Nat) (v : BitVec 32) : (p.wr off v).host = p.host := rfl
@[simp] theorem Pkg.wr_net (off : Nat) (v : BitVec 32) : (p.wr off v).net = p.net := rfl
@[simp] theorem Pkg.wr_nv (off : Nat) (v : BitVec 32) : (p.wr off v).nv = p.nv := rfl
@[simp] theorem Pkg.wr_boot (off : Nat) (v : BitVec 32) : (p.wr off v).boot = p.boot := rfl
@[simp] theorem Pkg.wr_reads (off : Nat) (v : BitVec 32) : (p.wr off v).reads = p.reads := rfl
@[simp] theorem Pkg.wr_fresh (off : Nat) (v : BitVec 32) : (p.wr off v).fresh = p.fresh := rfl
@[simp] theorem Pkg.wr_sup (off : Nat) (v : BitVec 32) : (p.wr off v).sup = p.sup := rfl
@[simp] theorem Pkg.put_lowStage (f : Fld) (v : Nat) : (p.put f v).lowStage = p.lowStage := rfl
@[simp] theorem Pkg.put_snap (f : Fld) (v : Nat) : (p.put f v).snap = p.snap := rfl
@[simp] theorem Pkg.put_hostReads (f : Fld) (v : Nat) : (p.put f v).hostReads = p.hostReads := rfl
@[simp] theorem Pkg.put_evq (f : Fld) (v : Nat) : (p.put f v).evq = p.evq := rfl
@[simp] theorem Pkg.put_snaps (f : Fld) (v : Nat) : (p.put f v).snaps = p.snaps := rfl
@[simp] theorem Pkg.put_eseq (f : Fld) (v : Nat) : (p.put f v).eseq = p.eseq := rfl
@[simp] theorem Pkg.put_snapNext (f : Fld) (v : Nat) : (p.put f v).snapNext = p.snapNext := rfl
@[simp] theorem Pkg.put_lost (f : Fld) (v : Nat) : (p.put f v).lost = p.lost := rfl
@[simp] theorem Pkg.put_host (f : Fld) (v : Nat) : (p.put f v).host = p.host := rfl
@[simp] theorem Pkg.put_net (f : Fld) (v : Nat) : (p.put f v).net = p.net := rfl
@[simp] theorem Pkg.put_nv (f : Fld) (v : Nat) : (p.put f v).nv = p.nv := rfl
@[simp] theorem Pkg.put_boot (f : Fld) (v : Nat) : (p.put f v).boot = p.boot := rfl
@[simp] theorem Pkg.put_reads (f : Fld) (v : Nat) : (p.put f v).reads = p.reads := rfl
@[simp] theorem Pkg.put_fresh (f : Fld) (v : Nat) : (p.put f v).fresh = p.fresh := rfl
@[simp] theorem Pkg.put_sup (f : Fld) (v : Nat) : (p.put f v).sup = p.sup := rfl
@[simp] theorem Pkg.putB_lowStage (f : Fld) (b : Bool) : (p.putB f b).lowStage = p.lowStage := rfl
@[simp] theorem Pkg.putB_snap (f : Fld) (b : Bool) : (p.putB f b).snap = p.snap := rfl
@[simp] theorem Pkg.putB_hostReads (f : Fld) (b : Bool) : (p.putB f b).hostReads = p.hostReads := rfl
@[simp] theorem Pkg.putB_evq (f : Fld) (b : Bool) : (p.putB f b).evq = p.evq := rfl
@[simp] theorem Pkg.putB_snaps (f : Fld) (b : Bool) : (p.putB f b).snaps = p.snaps := rfl
@[simp] theorem Pkg.putB_eseq (f : Fld) (b : Bool) : (p.putB f b).eseq = p.eseq := rfl
@[simp] theorem Pkg.putB_snapNext (f : Fld) (b : Bool) : (p.putB f b).snapNext = p.snapNext := rfl
@[simp] theorem Pkg.putB_lost (f : Fld) (b : Bool) : (p.putB f b).lost = p.lost := rfl
@[simp] theorem Pkg.putB_host (f : Fld) (b : Bool) : (p.putB f b).host = p.host := rfl
@[simp] theorem Pkg.putB_net (f : Fld) (b : Bool) : (p.putB f b).net = p.net := rfl
@[simp] theorem Pkg.putB_nv (f : Fld) (b : Bool) : (p.putB f b).nv = p.nv := rfl
@[simp] theorem Pkg.putB_boot (f : Fld) (b : Bool) : (p.putB f b).boot = p.boot := rfl
@[simp] theorem Pkg.putB_reads (f : Fld) (b : Bool) : (p.putB f b).reads = p.reads := rfl
@[simp] theorem Pkg.putB_fresh (f : Fld) (b : Bool) : (p.putB f b).fresh = p.fresh := rfl
@[simp] theorem Pkg.putB_sup (f : Fld) (b : Bool) : (p.putB f b).sup = p.sup := rfl
@[simp] theorem Pkg.put48_lowStage (off : Nat) (v : Word48) : (p.put48 off v).lowStage = p.lowStage := rfl
@[simp] theorem Pkg.put48_snap (off : Nat) (v : Word48) : (p.put48 off v).snap = p.snap := rfl
@[simp] theorem Pkg.put48_hostReads (off : Nat) (v : Word48) : (p.put48 off v).hostReads = p.hostReads := rfl
@[simp] theorem Pkg.put48_evq (off : Nat) (v : Word48) : (p.put48 off v).evq = p.evq := rfl
@[simp] theorem Pkg.put48_snaps (off : Nat) (v : Word48) : (p.put48 off v).snaps = p.snaps := rfl
@[simp] theorem Pkg.put48_eseq (off : Nat) (v : Word48) : (p.put48 off v).eseq = p.eseq := rfl
@[simp] theorem Pkg.put48_snapNext (off : Nat) (v : Word48) : (p.put48 off v).snapNext = p.snapNext := rfl
@[simp] theorem Pkg.put48_lost (off : Nat) (v : Word48) : (p.put48 off v).lost = p.lost := rfl
@[simp] theorem Pkg.put48_host (off : Nat) (v : Word48) : (p.put48 off v).host = p.host := rfl
@[simp] theorem Pkg.put48_net (off : Nat) (v : Word48) : (p.put48 off v).net = p.net := rfl
@[simp] theorem Pkg.put48_nv (off : Nat) (v : Word48) : (p.put48 off v).nv = p.nv := rfl
@[simp] theorem Pkg.put48_boot (off : Nat) (v : Word48) : (p.put48 off v).boot = p.boot := rfl
@[simp] theorem Pkg.put48_reads (off : Nat) (v : Word48) : (p.put48 off v).reads = p.reads := rfl
@[simp] theorem Pkg.put48_fresh (off : Nat) (v : Word48) : (p.put48 off v).fresh = p.fresh := rfl
@[simp] theorem Pkg.put48_sup (off : Nat) (v : Word48) : (p.put48 off v).sup = p.sup := rfl
@[simp] theorem Pkg.bump_lowStage (off n : Nat) : (p.bump off n).lowStage = p.lowStage := by simp only [Pkg.bump, apply_ite Pkg.lowStage, Pkg.wr_lowStage, ite_self]
@[simp] theorem Pkg.bump_snap (off n : Nat) : (p.bump off n).snap = p.snap := by simp only [Pkg.bump, apply_ite Pkg.snap, Pkg.wr_snap, ite_self]
@[simp] theorem Pkg.bump_hostReads (off n : Nat) : (p.bump off n).hostReads = p.hostReads := by simp only [Pkg.bump, apply_ite Pkg.hostReads, Pkg.wr_hostReads, ite_self]
@[simp] theorem Pkg.bump_evq (off n : Nat) : (p.bump off n).evq = p.evq := by simp only [Pkg.bump, apply_ite Pkg.evq, Pkg.wr_evq, ite_self]
@[simp] theorem Pkg.bump_snaps (off n : Nat) : (p.bump off n).snaps = p.snaps := by simp only [Pkg.bump, apply_ite Pkg.snaps, Pkg.wr_snaps, ite_self]
@[simp] theorem Pkg.bump_eseq (off n : Nat) : (p.bump off n).eseq = p.eseq := by simp only [Pkg.bump, apply_ite Pkg.eseq, Pkg.wr_eseq, ite_self]
@[simp] theorem Pkg.bump_snapNext (off n : Nat) : (p.bump off n).snapNext = p.snapNext := by simp only [Pkg.bump, apply_ite Pkg.snapNext, Pkg.wr_snapNext, ite_self]
@[simp] theorem Pkg.bump_lost (off n : Nat) : (p.bump off n).lost = p.lost := by simp only [Pkg.bump, apply_ite Pkg.lost, Pkg.wr_lost, ite_self]
@[simp] theorem Pkg.bump_host (off n : Nat) : (p.bump off n).host = p.host := by simp only [Pkg.bump, apply_ite Pkg.host, Pkg.wr_host, ite_self]
@[simp] theorem Pkg.bump_net (off n : Nat) : (p.bump off n).net = p.net := by simp only [Pkg.bump, apply_ite Pkg.net, Pkg.wr_net, ite_self]
@[simp] theorem Pkg.bump_nv (off n : Nat) : (p.bump off n).nv = p.nv := by simp only [Pkg.bump, apply_ite Pkg.nv, Pkg.wr_nv, ite_self]
@[simp] theorem Pkg.bump_boot (off n : Nat) : (p.bump off n).boot = p.boot := by simp only [Pkg.bump, apply_ite Pkg.boot, Pkg.wr_boot, ite_self]
@[simp] theorem Pkg.bump_reads (off n : Nat) : (p.bump off n).reads = p.reads := by simp only [Pkg.bump, apply_ite Pkg.reads, Pkg.wr_reads, ite_self]
@[simp] theorem Pkg.bump_fresh (off n : Nat) : (p.bump off n).fresh = p.fresh := by simp only [Pkg.bump, apply_ite Pkg.fresh, Pkg.wr_fresh, ite_self]
@[simp] theorem Pkg.bump_sup (off n : Nat) : (p.bump off n).sup = p.sup := by simp only [Pkg.bump, apply_ite Pkg.sup, Pkg.wr_sup, ite_self]
end

section
variable (s : State)

@[simp] theorem State.onHost_stakes (f : HostSt → HostSt) : (s.onHost f).stakes = s.stakes := rfl
@[simp] theorem State.onHost_part (f : HostSt → HostSt) : (s.onHost f).part = s.part := rfl
@[simp] theorem State.onHost_pending (f : HostSt → HostSt) : (s.onHost f).pending = s.pending := rfl
@[simp] theorem State.onHost_pkg_regs (f : HostSt → HostSt) : (s.onHost f).pkg.regs = s.pkg.regs := rfl
@[simp] theorem State.onHost_pkg_lowStage (f : HostSt → HostSt) : (s.onHost f).pkg.lowStage = s.pkg.lowStage := rfl
@[simp] theorem State.onHost_pkg_snap (f : HostSt → HostSt) : (s.onHost f).pkg.snap = s.pkg.snap := rfl
@[simp] theorem State.onHost_pkg_hostReads (f : HostSt → HostSt) : (s.onHost f).pkg.hostReads = s.pkg.hostReads := rfl
@[simp] theorem State.onHost_pkg_evq (f : HostSt → HostSt) : (s.onHost f).pkg.evq = s.pkg.evq := rfl
@[simp] theorem State.onHost_pkg_snaps (f : HostSt → HostSt) : (s.onHost f).pkg.snaps = s.pkg.snaps := rfl
@[simp] theorem State.onHost_pkg_eseq (f : HostSt → HostSt) : (s.onHost f).pkg.eseq = s.pkg.eseq := rfl
@[simp] theorem State.onHost_pkg_snapNext (f : HostSt → HostSt) : (s.onHost f).pkg.snapNext = s.pkg.snapNext := rfl
@[simp] theorem State.onHost_pkg_lost (f : HostSt → HostSt) : (s.onHost f).pkg.lost = s.pkg.lost := rfl
@[simp] theorem State.onHost_pkg_net (f : HostSt → HostSt) : (s.onHost f).pkg.net = s.pkg.net := rfl
@[simp] theorem State.onHost_pkg_nv (f : HostSt → HostSt) : (s.onHost f).pkg.nv = s.pkg.nv := rfl
@[simp] theorem State.onHost_pkg_boot (f : HostSt → HostSt) : (s.onHost f).pkg.boot = s.pkg.boot := rfl
@[simp] theorem State.onHost_pkg_reads (f : HostSt → HostSt) : (s.onHost f).pkg.reads = s.pkg.reads := rfl
@[simp] theorem State.onHost_pkg_fresh (f : HostSt → HostSt) : (s.onHost f).pkg.fresh = s.pkg.fresh := rfl
@[simp] theorem State.onHost_pkg_sup (f : HostSt → HostSt) : (s.onHost f).pkg.sup = s.pkg.sup := rfl
@[simp] theorem State.onNet_stakes (f : NetSt → NetSt) : (s.onNet f).stakes = s.stakes := rfl
@[simp] theorem State.onNet_part (f : NetSt → NetSt) : (s.onNet f).part = s.part := rfl
@[simp] theorem State.onNet_pending (f : NetSt → NetSt) : (s.onNet f).pending = s.pending := rfl
@[simp] theorem State.onNet_pkg_regs (f : NetSt → NetSt) : (s.onNet f).pkg.regs = s.pkg.regs := rfl
@[simp] theorem State.onNet_pkg_lowStage (f : NetSt → NetSt) : (s.onNet f).pkg.lowStage = s.pkg.lowStage := rfl
@[simp] theorem State.onNet_pkg_snap (f : NetSt → NetSt) : (s.onNet f).pkg.snap = s.pkg.snap := rfl
@[simp] theorem State.onNet_pkg_hostReads (f : NetSt → NetSt) : (s.onNet f).pkg.hostReads = s.pkg.hostReads := rfl
@[simp] theorem State.onNet_pkg_evq (f : NetSt → NetSt) : (s.onNet f).pkg.evq = s.pkg.evq := rfl
@[simp] theorem State.onNet_pkg_snaps (f : NetSt → NetSt) : (s.onNet f).pkg.snaps = s.pkg.snaps := rfl
@[simp] theorem State.onNet_pkg_eseq (f : NetSt → NetSt) : (s.onNet f).pkg.eseq = s.pkg.eseq := rfl
@[simp] theorem State.onNet_pkg_snapNext (f : NetSt → NetSt) : (s.onNet f).pkg.snapNext = s.pkg.snapNext := rfl
@[simp] theorem State.onNet_pkg_lost (f : NetSt → NetSt) : (s.onNet f).pkg.lost = s.pkg.lost := rfl
@[simp] theorem State.onNet_pkg_host (f : NetSt → NetSt) : (s.onNet f).pkg.host = s.pkg.host := rfl
@[simp] theorem State.onNet_pkg_nv (f : NetSt → NetSt) : (s.onNet f).pkg.nv = s.pkg.nv := rfl
@[simp] theorem State.onNet_pkg_boot (f : NetSt → NetSt) : (s.onNet f).pkg.boot = s.pkg.boot := rfl
@[simp] theorem State.onNet_pkg_reads (f : NetSt → NetSt) : (s.onNet f).pkg.reads = s.pkg.reads := rfl
@[simp] theorem State.onNet_pkg_fresh (f : NetSt → NetSt) : (s.onNet f).pkg.fresh = s.pkg.fresh := rfl
@[simp] theorem State.onNet_pkg_sup (f : NetSt → NetSt) : (s.onNet f).pkg.sup = s.pkg.sup := rfl
@[simp] theorem State.onNv_stakes (f : NvState → NvState) : (s.onNv f).stakes = s.stakes := rfl
@[simp] theorem State.onNv_part (f : NvState → NvState) : (s.onNv f).part = s.part := rfl
@[simp] theorem State.onNv_pending (f : NvState → NvState) : (s.onNv f).pending = s.pending := rfl
@[simp] theorem State.onNv_pkg_regs (f : NvState → NvState) : (s.onNv f).pkg.regs = s.pkg.regs := rfl
@[simp] theorem State.onNv_pkg_lowStage (f : NvState → NvState) : (s.onNv f).pkg.lowStage = s.pkg.lowStage := rfl
@[simp] theorem State.onNv_pkg_snap (f : NvState → NvState) : (s.onNv f).pkg.snap = s.pkg.snap := rfl
@[simp] theorem State.onNv_pkg_hostReads (f : NvState → NvState) : (s.onNv f).pkg.hostReads = s.pkg.hostReads := rfl
@[simp] theorem State.onNv_pkg_evq (f : NvState → NvState) : (s.onNv f).pkg.evq = s.pkg.evq := rfl
@[simp] theorem State.onNv_pkg_snaps (f : NvState → NvState) : (s.onNv f).pkg.snaps = s.pkg.snaps := rfl
@[simp] theorem State.onNv_pkg_eseq (f : NvState → NvState) : (s.onNv f).pkg.eseq = s.pkg.eseq := rfl
@[simp] theorem State.onNv_pkg_snapNext (f : NvState → NvState) : (s.onNv f).pkg.snapNext = s.pkg.snapNext := rfl
@[simp] theorem State.onNv_pkg_lost (f : NvState → NvState) : (s.onNv f).pkg.lost = s.pkg.lost := rfl
@[simp] theorem State.onNv_pkg_host (f : NvState → NvState) : (s.onNv f).pkg.host = s.pkg.host := rfl
@[simp] theorem State.onNv_pkg_net (f : NvState → NvState) : (s.onNv f).pkg.net = s.pkg.net := rfl
@[simp] theorem State.onNv_pkg_boot (f : NvState → NvState) : (s.onNv f).pkg.boot = s.pkg.boot := rfl
@[simp] theorem State.onNv_pkg_reads (f : NvState → NvState) : (s.onNv f).pkg.reads = s.pkg.reads := rfl
@[simp] theorem State.onNv_pkg_fresh (f : NvState → NvState) : (s.onNv f).pkg.fresh = s.pkg.fresh := rfl
@[simp] theorem State.onNv_pkg_sup (f : NvState → NvState) : (s.onNv f).pkg.sup = s.pkg.sup := rfl
@[simp] theorem State.onBoot_stakes (f : BootSt → BootSt) : (s.onBoot f).stakes = s.stakes := rfl
@[simp] theorem State.onBoot_part (f : BootSt → BootSt) : (s.onBoot f).part = s.part := rfl
@[simp] theorem State.onBoot_pending (f : BootSt → BootSt) : (s.onBoot f).pending = s.pending := rfl
@[simp] theorem State.onBoot_pkg_regs (f : BootSt → BootSt) : (s.onBoot f).pkg.regs = s.pkg.regs := rfl
@[simp] theorem State.onBoot_pkg_lowStage (f : BootSt → BootSt) : (s.onBoot f).pkg.lowStage = s.pkg.lowStage := rfl
@[simp] theorem State.onBoot_pkg_snap (f : BootSt → BootSt) : (s.onBoot f).pkg.snap = s.pkg.snap := rfl
@[simp] theorem State.onBoot_pkg_hostReads (f : BootSt → BootSt) : (s.onBoot f).pkg.hostReads = s.pkg.hostReads := rfl
@[simp] theorem State.onBoot_pkg_evq (f : BootSt → BootSt) : (s.onBoot f).pkg.evq = s.pkg.evq := rfl
@[simp] theorem State.onBoot_pkg_snaps (f : BootSt → BootSt) : (s.onBoot f).pkg.snaps = s.pkg.snaps := rfl
@[simp] theorem State.onBoot_pkg_eseq (f : BootSt → BootSt) : (s.onBoot f).pkg.eseq = s.pkg.eseq := rfl
@[simp] theorem State.onBoot_pkg_snapNext (f : BootSt → BootSt) : (s.onBoot f).pkg.snapNext = s.pkg.snapNext := rfl
@[simp] theorem State.onBoot_pkg_lost (f : BootSt → BootSt) : (s.onBoot f).pkg.lost = s.pkg.lost := rfl
@[simp] theorem State.onBoot_pkg_host (f : BootSt → BootSt) : (s.onBoot f).pkg.host = s.pkg.host := rfl
@[simp] theorem State.onBoot_pkg_net (f : BootSt → BootSt) : (s.onBoot f).pkg.net = s.pkg.net := rfl
@[simp] theorem State.onBoot_pkg_nv (f : BootSt → BootSt) : (s.onBoot f).pkg.nv = s.pkg.nv := rfl
@[simp] theorem State.onBoot_pkg_reads (f : BootSt → BootSt) : (s.onBoot f).pkg.reads = s.pkg.reads := rfl
@[simp] theorem State.onBoot_pkg_fresh (f : BootSt → BootSt) : (s.onBoot f).pkg.fresh = s.pkg.fresh := rfl
@[simp] theorem State.onBoot_pkg_sup (f : BootSt → BootSt) : (s.onBoot f).pkg.sup = s.pkg.sup := rfl

@[simp] theorem State.takeSnap_stakes (r : EvRec) (e : Nat) : (s.takeSnap r e).2.stakes = s.stakes := by
  unfold State.takeSnap; dsimp only; split <;> [rfl; split <;> rfl]
@[simp] theorem State.loseEvent_stakes (e : Nat) : (s.loseEvent e).stakes = s.stakes := rfl
@[simp] theorem State.takeSnap_part (r : EvRec) (e : Nat) : (s.takeSnap r e).2.part = s.part := by
  unfold State.takeSnap; dsimp only; split <;> [rfl; split <;> rfl]
@[simp] theorem State.loseEvent_part (e : Nat) : (s.loseEvent e).part = s.part := rfl
@[simp] theorem State.takeSnap_pending (r : EvRec) (e : Nat) : (s.takeSnap r e).2.pending = s.pending := by
  unfold State.takeSnap; dsimp only; split <;> [rfl; split <;> rfl]
@[simp] theorem State.loseEvent_pending (e : Nat) : (s.loseEvent e).pending = s.pending := rfl
@[simp] theorem State.takeSnap_pkg_regs (r : EvRec) (e : Nat) : (s.takeSnap r e).2.pkg.regs = s.pkg.regs := by
  unfold State.takeSnap; dsimp only; split <;> [rfl; split <;> rfl]
@[simp] theorem State.takeSnap_pkg_lowStage (r : EvRec) (e : Nat) : (s.takeSnap r e).2.pkg.lowStage = s.pkg.lowStage := by
  unfold State.takeSnap; dsimp only; split <;> [rfl; split <;> rfl]
@[simp] theorem State.takeSnap_pkg_snap (r : EvRec) (e : Nat) : (s.takeSnap r e).2.pkg.snap = s.pkg.snap := by
  unfold State.takeSnap; dsimp only; split <;> [rfl; split <;> rfl]
@[simp] theorem State.takeSnap_pkg_hostReads (r : EvRec) (e : Nat) : (s.takeSnap r e).2.pkg.hostReads = s.pkg.hostReads := by
  unfold State.takeSnap; dsimp only; split <;> [rfl; split <;> rfl]
@[simp] theorem State.takeSnap_pkg_evq (r : EvRec) (e : Nat) : (s.takeSnap r e).2.pkg.evq = s.pkg.evq := by
  unfold State.takeSnap; dsimp only; split <;> [rfl; split <;> rfl]
@[simp] theorem State.takeSnap_pkg_eseq (r : EvRec) (e : Nat) : (s.takeSnap r e).2.pkg.eseq = s.pkg.eseq := by
  unfold State.takeSnap; dsimp only; split <;> [rfl; split <;> rfl]
@[simp] theorem State.takeSnap_pkg_lost (r : EvRec) (e : Nat) : (s.takeSnap r e).2.pkg.lost = s.pkg.lost := by
  unfold State.takeSnap; dsimp only; split <;> [rfl; split <;> rfl]
@[simp] theorem State.takeSnap_pkg_host (r : EvRec) (e : Nat) : (s.takeSnap r e).2.pkg.host = s.pkg.host := by
  unfold State.takeSnap; dsimp only; split <;> [rfl; split <;> rfl]
@[simp] theorem State.takeSnap_pkg_net (r : EvRec) (e : Nat) : (s.takeSnap r e).2.pkg.net = s.pkg.net := by
  unfold State.takeSnap; dsimp only; split <;> [rfl; split <;> rfl]
@[simp] theorem State.takeSnap_pkg_nv (r : EvRec) (e : Nat) : (s.takeSnap r e).2.pkg.nv = s.pkg.nv := by
  unfold State.takeSnap; dsimp only; split <;> [rfl; split <;> rfl]
@[simp] theorem State.takeSnap_pkg_boot (r : EvRec) (e : Nat) : (s.takeSnap r e).2.pkg.boot = s.pkg.boot := by
  unfold State.takeSnap; dsimp only; split <;> [rfl; split <;> rfl]
@[simp] theorem State.takeSnap_pkg_reads (r : EvRec) (e : Nat) : (s.takeSnap r e).2.pkg.reads = s.pkg.reads := by
  unfold State.takeSnap; dsimp only; split <;> [rfl; split <;> rfl]
@[simp] theorem State.takeSnap_pkg_fresh (r : EvRec) (e : Nat) : (s.takeSnap r e).2.pkg.fresh = s.pkg.fresh := by
  unfold State.takeSnap; dsimp only; split <;> [rfl; split <;> rfl]
@[simp] theorem State.takeSnap_pkg_sup (r : EvRec) (e : Nat) : (s.takeSnap r e).2.pkg.sup = s.pkg.sup := by
  unfold State.takeSnap; dsimp only; split <;> [rfl; split <;> rfl]
@[simp] theorem State.loseEvent_pkg_lowStage (e : Nat) : (s.loseEvent e).pkg.lowStage = s.pkg.lowStage := by
  simp [State.loseEvent]
@[simp] theorem State.loseEvent_pkg_snap (e : Nat) : (s.loseEvent e).pkg.snap = s.pkg.snap := by
  simp [State.loseEvent]
@[simp] theorem State.loseEvent_pkg_hostReads (e : Nat) : (s.loseEvent e).pkg.hostReads = s.pkg.hostReads := by
  simp [State.loseEvent]
@[simp] theorem State.loseEvent_pkg_evq (e : Nat) : (s.loseEvent e).pkg.evq = s.pkg.evq := by
  simp [State.loseEvent]
@[simp] theorem State.loseEvent_pkg_snaps (e : Nat) : (s.loseEvent e).pkg.snaps = s.pkg.snaps := by
  simp [State.loseEvent]
@[simp] theorem State.loseEvent_pkg_eseq (e : Nat) : (s.loseEvent e).pkg.eseq = s.pkg.eseq := by
  simp [State.loseEvent]
@[simp] theorem State.loseEvent_pkg_snapNext (e : Nat) : (s.loseEvent e).pkg.snapNext = s.pkg.snapNext := by
  simp [State.loseEvent]
@[simp] theorem State.loseEvent_pkg_host (e : Nat) : (s.loseEvent e).pkg.host = s.pkg.host := by
  simp [State.loseEvent]
@[simp] theorem State.loseEvent_pkg_net (e : Nat) : (s.loseEvent e).pkg.net = s.pkg.net := by
  simp [State.loseEvent]
@[simp] theorem State.loseEvent_pkg_nv (e : Nat) : (s.loseEvent e).pkg.nv = s.pkg.nv := by
  simp [State.loseEvent]
@[simp] theorem State.loseEvent_pkg_boot (e : Nat) : (s.loseEvent e).pkg.boot = s.pkg.boot := by
  simp [State.loseEvent]
@[simp] theorem State.loseEvent_pkg_reads (e : Nat) : (s.loseEvent e).pkg.reads = s.pkg.reads := by
  simp [State.loseEvent]
@[simp] theorem State.loseEvent_pkg_fresh (e : Nat) : (s.loseEvent e).pkg.fresh = s.pkg.fresh := by
  simp [State.loseEvent]
@[simp] theorem State.loseEvent_pkg_sup (e : Nat) : (s.loseEvent e).pkg.sup = s.pkg.sup := by
  simp [State.loseEvent]
@[simp] theorem State.enqueue_stakes (r : EvRec) : (s.enqueue r).stakes = s.stakes := by
  unfold State.enqueue; dsimp only; split <;> [skip; split <;> [skip; split]] <;> simp
@[simp] theorem State.enqueue_part (r : EvRec) : (s.enqueue r).part = s.part := by
  unfold State.enqueue; dsimp only; split <;> [skip; split <;> [skip; split]] <;> simp
@[simp] theorem State.enqueue_pending (r : EvRec) : (s.enqueue r).pending = s.pending := by
  unfold State.enqueue; dsimp only; split <;> [skip; split <;> [skip; split]] <;> simp
@[simp] theorem State.enqueue_pkg_lowStage (r : EvRec) : (s.enqueue r).pkg.lowStage = s.pkg.lowStage := by
  unfold State.enqueue; dsimp only; split <;> [skip; split <;> [skip; split]] <;> simp
@[simp] theorem State.enqueue_pkg_snap (r : EvRec) : (s.enqueue r).pkg.snap = s.pkg.snap := by
  unfold State.enqueue; dsimp only; split <;> [skip; split <;> [skip; split]] <;> simp
@[simp] theorem State.enqueue_pkg_hostReads (r : EvRec) : (s.enqueue r).pkg.hostReads = s.pkg.hostReads := by
  unfold State.enqueue; dsimp only; split <;> [skip; split <;> [skip; split]] <;> simp
@[simp] theorem State.enqueue_pkg_host (r : EvRec) : (s.enqueue r).pkg.host = s.pkg.host := by
  unfold State.enqueue; dsimp only; split <;> [skip; split <;> [skip; split]] <;> simp
@[simp] theorem State.enqueue_pkg_net (r : EvRec) : (s.enqueue r).pkg.net = s.pkg.net := by
  unfold State.enqueue; dsimp only; split <;> [skip; split <;> [skip; split]] <;> simp
@[simp] theorem State.enqueue_pkg_nv (r : EvRec) : (s.enqueue r).pkg.nv = s.pkg.nv := by
  unfold State.enqueue; dsimp only; split <;> [skip; split <;> [skip; split]] <;> simp
@[simp] theorem State.enqueue_pkg_boot (r : EvRec) : (s.enqueue r).pkg.boot = s.pkg.boot := by
  unfold State.enqueue; dsimp only; split <;> [skip; split <;> [skip; split]] <;> simp
@[simp] theorem State.enqueue_pkg_reads (r : EvRec) : (s.enqueue r).pkg.reads = s.pkg.reads := by
  unfold State.enqueue; dsimp only; split <;> [skip; split <;> [skip; split]] <;> simp
@[simp] theorem State.enqueue_pkg_fresh (r : EvRec) : (s.enqueue r).pkg.fresh = s.pkg.fresh := by
  unfold State.enqueue; dsimp only; split <;> [skip; split <;> [skip; split]] <;> simp
@[simp] theorem State.enqueue_pkg_sup (r : EvRec) : (s.enqueue r).pkg.sup = s.pkg.sup := by
  unfold State.enqueue; dsimp only; split <;> [skip; split <;> [skip; split]] <;> simp

theorem State.loseEvent_regsKept (e : Nat) : s.pkg.regsKept (s.loseEvent e).pkg [Reg.HIF_EVT_LOST_CNT] := fun _ ho =>
  Pkg.rd_bump_ne _ _ fun he => ho (by simp [he])

/-- An event that reaches the anchor changes no register of the package but `HIF_EVT_LOST_CNT`. -/
theorem State.enqueue_regsKept (r : EvRec) : s.pkg.regsKept (s.enqueue r).pkg [Reg.HIF_EVT_LOST_CNT] := by
  intro o ho
  have hl : ∀ (q : State) (e : Nat), (q.loseEvent e).pkg.rd o = q.pkg.rd o := fun q e => q.loseEvent_regsKept e o ho
  have ht : ∀ (q : State) (e : Nat), (q.takeSnap r e).2.pkg.rd o = q.pkg.rd o := fun q e => by
    rw [Pkg.rd, Pkg.rd, State.takeSnap_pkg_regs]
  unfold State.enqueue
  dsimp only
  split <;> [skip; split <;> [skip; split]]
  · exact ht _ _
  · exact hl _ _
  · exact hl _ _
  · exact (ht _ _).trans (hl _ _)

/-- While the queue has room, an event that reaches the anchor is the new last one (R370). -/
theorem State.enqueue_evq (r : EvRec) (h : s.pkg.evq.length < 512) :
    ∃ i, (s.enqueue r).pkg.evq = s.pkg.evq ++ [⟨r, s.pkg.eseq, i⟩] := by
  unfold State.enqueue
  dsimp only
  exact ⟨_, (congrArg (fun q : State => q.pkg.evq) (if_pos h)).trans (by simp; rfl)⟩

/-- An event of the package of class F0 acts on no stake. -/
theorem State.onAll_id (f : Stake → Stake) (h : ∀ k, f k = k) : (s.onAll f).stakes = s.stakes := by
  simp only [State.onAll, h, ite_self]
  exact List.ext_getElem (by simp) (by simp)

theorem State.postPkg_zero_stakes (e : Ev) (v : List Nat) : (s.postPkg e 0 v).stakes = s.stakes := by
  simp only [State.postPkg, State.enqueue_stakes]
  exact s.onAll_id _ fun k => by simp [Stake.react]

@[simp] theorem State.postPkg_part (e : Ev) (c : Nat) (v : List Nat) : (s.postPkg e c v).part = s.part := by simp [State.postPkg]
@[simp] theorem State.postPkg_pending (e : Ev) (c : Nat) (v : List Nat) : (s.postPkg e c v).pending = s.pending := by simp [State.postPkg]

@[simp] theorem State.postPkg_pkg_lowStage (e : Ev) (c : Nat) (v : List Nat) : (s.postPkg e c v).pkg.lowStage = s.pkg.lowStage := by simp [State.postPkg]
@[simp] theorem State.postPkg_pkg_snap (e : Ev) (c : Nat) (v : List Nat) : (s.postPkg e c v).pkg.snap = s.pkg.snap := by simp [State.postPkg]
@[simp] theorem State.postPkg_pkg_hostReads (e : Ev) (c : Nat) (v : List Nat) : (s.postPkg e c v).pkg.hostReads = s.pkg.hostReads := by simp [State.postPkg]
@[simp] theorem State.postPkg_pkg_host (e : Ev) (c : Nat) (v : List Nat) : (s.postPkg e c v).pkg.host = s.pkg.host := by simp [State.postPkg]
@[simp] theorem State.postPkg_pkg_net (e : Ev) (c : Nat) (v : List Nat) : (s.postPkg e c v).pkg.net = s.pkg.net := by simp [State.postPkg]
@[simp] theorem State.postPkg_pkg_nv (e : Ev) (c : Nat) (v : List Nat) : (s.postPkg e c v).pkg.nv = s.pkg.nv := by simp [State.postPkg]
@[simp] theorem State.postPkg_pkg_boot (e : Ev) (c : Nat) (v : List Nat) : (s.postPkg e c v).pkg.boot = s.pkg.boot := by simp [State.postPkg]
@[simp] theorem State.postPkg_pkg_reads (e : Ev) (c : Nat) (v : List Nat) : (s.postPkg e c v).pkg.reads = s.pkg.reads := by simp [State.postPkg]
@[simp] theorem State.postPkg_pkg_fresh (e : Ev) (c : Nat) (v : List Nat) : (s.postPkg e c v).pkg.fresh = s.pkg.fresh := by simp [State.postPkg]
@[simp] theorem State.postPkg_pkg_sup (e : Ev) (c : Nat) (v : List Nat) : (s.postPkg e c v).pkg.sup = s.pkg.sup := by simp [State.postPkg]

theorem State.postPkg_regsKept (e : Ev) (c : Nat) (v : List Nat) : s.pkg.regsKept (s.postPkg e c v).pkg [Reg.HIF_EVT_LOST_CNT] :=
  State.enqueue_regsKept _ _

/-- An event of the package is posted. -/
theorem State.postPkg_posted (e : Ev) (c : Nat) (v : List Nat) : s.posted (s.postPkg e c v) e c v := by
  intro h
  obtain ⟨i, hi⟩ := State.enqueue_evq (s.onAll fun k =>
    k.react ⟨e, c, 255, (s.stake 0).ang.tick, v, if c = 0 then 0 else 1⟩ true 0) ⟨e, c, 255, (s.stake 0).ang.tick, v, if c = 0 then 0 else 1⟩ h
  exact ⟨_, hi, rfl, rfl, rfl, rfl, rfl⟩
/-- Posting is a matter of the queue alone. -/
theorem State.posted_of {s q t : State} {e : Ev} {c : Nat} {v : List Nat} (he : q.pkg.evq = s.pkg.evq) (hs : q.pkg.eseq = s.pkg.eseq)
    (h : q.posted t e c v) : s.posted t e c v := by
  unfold State.posted at h ⊢
  rw [he, hs] at h
  exact h

/-- An access the host may not make: what it posts, and what it leaves alone (R6, R36, R38). -/
theorem State.badAccess_posted (a : Nat) : s.posted (s.badAccess a) .hifBadAccess 0 [a] := by
  unfold State.badAccess
  exact State.posted_of (by simp) (by simp) (State.postPkg_posted _ _ _ _)

theorem State.badAccess_stakesKept (a : Nat) : s.stakesKept (s.badAccess a) := by
  unfold State.badAccess
  exact ⟨(State.postPkg_zero_stakes _ _ _).trans (by simp), by simp, by simp⟩

theorem State.badAccess_regsKept (a : Nat) : s.pkg.regsKept (s.badAccess a).pkg [Reg.HIF_BAD_ACCESS_CNT, Reg.HIF_EVT_LOST_CNT] := by
  intro o ho
  simp only [List.mem_cons, List.not_mem_nil, or_false, not_or] at ho
  unfold State.badAccess
  rw [State.postPkg_regsKept _ _ _ _ o (by simpa using ho.2), State.onPkg_pkg, Pkg.rd_bump_ne _ _ ho.1]

theorem State.badAccess_restKept (a : Nat) : s.pkg.restKept (s.badAccess a).pkg := by simp [Pkg.restKept, State.badAccess]

@[simp] theorem State.badAccess_hostReads (a : Nat) : (s.badAccess a).pkg.hostReads = s.pkg.hostReads := by simp [State.badAccess]
end

/-- Posting an event posts it (R369). -/
theorem Stake.post_posted (k : Stake) (e : Ev) (c : Nat) (v : List Nat) : k.posted (k.post e c v) e c v := by
  obtain ⟨fl, l, h⟩ := k.post_out e c v
  exact ⟨_ :: l, fl, by rw [← h, List.append_assoc]; rfl, List.mem_cons_self⟩

/-! A crossing access leaves the anchor as a cell of stake 0 (R22, R37) and changes nothing else; the supply readings (R403, R404). -/

section
variable (s : State)

theorem State.crossed_eq (src : Src) (n k tag : Nat) (ws : List Nat) :
    s.crossed src n k tag ws = s ∨ s.crossed src n k tag ws = s.onStake 0 fun q => q.sendCell (q.cell n 1 k tag ws) := by
  unfold State.crossed; split <;> [exact .inr rfl; exact .inl rfl]
@[simp] theorem State.crossed_pkg (src : Src) (n k tag : Nat) (ws : List Nat) : (s.crossed src n k tag ws).pkg = s.pkg := by
  rcases s.crossed_eq src n k tag ws with h | h <;> simp [h]
@[simp] theorem State.crossed_part (src : Src) (n k tag : Nat) (ws : List Nat) : (s.crossed src n k tag ws).part = s.part := by
  rcases s.crossed_eq src n k tag ws with h | h <;> simp [h]
@[simp] theorem State.crossedAt_pkg (src : Src) (a k : Nat) (ws : List Nat) : (s.crossedAt src a k ws).pkg = s.pkg := s.crossed_pkg ..
@[simp] theorem State.crossedAt_part (src : Src) (a k : Nat) (ws : List Nat) : (s.crossedAt src a k ws).part = s.part := s.crossed_part ..
@[simp] theorem State.onSup_stakes (n : Nat) (f : SupSt → SupSt) : (s.onSup n f).stakes = s.stakes := rfl
@[simp] theorem State.onSup_part (n : Nat) (f : SupSt → SupSt) : (s.onSup n f).part = s.part := rfl
@[simp] theorem State.onSup_pending (n : Nat) (f : SupSt → SupSt) : (s.onSup n f).pending = s.pending := rfl
@[simp] theorem State.onSup_pkg (n : Nat) (f : SupSt → SupSt) :
    (s.onSup n f).pkg = { s.pkg with sup := updAt s.pkg.sup n f } := rfl
end

end Sys2Proof.Machine
end

