-- ==== Sys2Proof/Laws/Angle.lean ====
section
/-! SUPPORT. The angle scheduler: its entries, and what firing one does. -/
namespace Sys2Proof.Machine

/-- A changed element of a list, and the others. -/
theorem nth_updAt_same {α} (d : α) (l : List α) (i : Nat) (f : α → α) (h : i < l.length) : nth d (updAt l i f) i = f (nth d l i) := by
  simp [nth, updAt, List.getD_eq_getElem?_getD, List.getElem?_eq_getElem h]
theorem nth_updAt_ne {α} (d : α) (l : List α) (i j : Nat) (f : α → α) (h : j ≠ i) : nth d (updAt l i f) j = nth d l j := by
  simp [nth, updAt, List.getD_eq_getElem?_getD, h.symm]
theorem nth_oob {α} (d : α) (l : List α) (i : Nat) (h : l.length ≤ i) : nth d l i = d := by
  simp [nth, List.getD_eq_getElem?_getD, List.getElem?_eq_none h]
/-- A live entry is one of the list. -/
theorem entry_lt {k : Stake} {e t : Nat} (h : k.entryLive e t = true) : e < k.ang.ent.length := by
  by_contra hc
  simp only [Stake.entryLive, Stake.entry, nth_oob _ _ _ (Nat.le_of_not_lt hc)] at h
  simp [Entry.en] at h

theorem entry_onEntry_same (k : Stake) (e : Nat) (f : Entry → Entry) (h : e < k.ang.ent.length) : (k.onEntry e f).entry e = f (k.entry e) :=
  nth_updAt_same _ _ _ _ h
theorem entry_onEntry_ne (k : Stake) (e m : Nat) (f : Entry → Entry) (h : m ≠ e) : (k.onEntry e f).entry m = k.entry m :=
  nth_updAt_ne _ _ _ _ _ h

/-- What firing an entry does (R54, R63). -/
theorem fire_fired (k : Stake) (e : Nat) (at_ : Instant) (rev : Bool) (he : e < k.ang.ent.length) (hen : (k.entry e).en = true) :
   k.fired (k.fire e at_ rev) e at_ [] ∧ ((k.fire e at_ rev).entry e).sigmaRev = rev := by
  set x := k.entry e with hx
  set k1 := k.onEntry e fun y => { y with spent := true, sigmaRev := rev } with hk1
  have e1 : k1.entry e = { x with spent := true, sigmaRev := rev } := entry_onEntry_same k e _ he
  have n1 : ∀ m, m ≠ e → k1.entry m = k.entry m := fun m hm => entry_onEntry_ne k e m _ hm
  have l1 : e < k1.ang.ent.length := by simpa [hk1, Stake.onEntry, Stake.onAng, updAt] using he
  set k2 := if x.oneshot || x.trig = 1 then k1.entEn e false else k1 with hk2
  have e2 : (k2.entry e).spent = true ∧ (k2.entry e).sigmaRev = rev ∧ (k2.entry e).en = !(x.oneshot || x.trig = 1) := by
    rw [hk2]
    by_cases hc : (x.oneshot || decide (x.trig = 1)) = true
    · rw [if_pos hc]
      have : (k1.entEn e false).entry e = { k1.entry e with ctrl := (Reg.ANG_ENT_CTRL_EN e).put (k1.entry e).ctrl 0 } := by
        show (k1.onEntry e _).entry e = _
        rw [entry_onEntry_same _ _ _ l1]; rfl
      rw [this, e1]
      refine ⟨rfl, rfl, ?_⟩
      rw [hc]
      simp only [Entry.en, Fld.put_getLsbD]
      simp [Reg.ANG_ENT_CTRL_EN]
    · rw [if_neg hc, e1]
      refine ⟨rfl, rfl, ?_⟩
      simp only [Bool.not_eq_true] at hc
      rw [hc]
      exact hen
  have n2 : ∀ m, m ≠ e → k2.entry m = k.entry m := by
    intro m hm
    rw [hk2]
    split
    · show (k1.onEntry e _).entry m = _
      rw [entry_onEntry_ne _ _ _ _ hm, n1 m hm]
    · exact n1 m hm
  have a2 : k2.ang = { k.ang with ent := k2.ang.ent } ∧ k2 = { k with ang := k2.ang, regs := k2.regs } := by
    rw [hk2]; split <;> exact ⟨rfl, rfl⟩
  have r2 : ∀ o, o ≠ Reg.ANG_ENT_CTRL e → k2.rd o = k.rd o := by
    intro o ho
    rw [hk2]; split
    · exact Stake.rd_putB_ne _ _ ho
    · rfl
  have hf : k.fire e at_ rev = (k2.onAng fun g => { g with firedNow := g.firedNow ++ [e] }).dispatch
    { entry := e, action := x.action, arg := x.arg, at_ := at_, src := x.src } := rfl
  rw [hf]
  have d2 : k2.ang.dispatched = k.ang.dispatched := by rw [a2.1]
  have c2 : k2.ang.carriedPrev = k.ang.carriedPrev := by rw [a2.1]
  have ac2 : k2.ang.acts = k.ang.acts := by rw [a2.1]
  have ca2 : k2.ang.carried = k.ang.carried := by rw [a2.1]
  have ti2 : k2.ang.tick = k.ang.tick := by rw [a2.1]
  have cl2 : k2.ang.clk = k.ang.clk := by rw [a2.1]
  unfold Stake.dispatch
  simp only [Stake.onAng, d2, c2]
  unfold Stake.fired
  by_cases hroom : k.ang.dispatched + k.ang.carriedPrev.length < 8
  · rw [if_pos hroom]
    refine ⟨⟨e2.1, e2.2.2, by rw [if_pos hroom]; exact ⟨by simp [ac2, hx], ca2⟩, n2, cl2, ti2, ?_, ?_⟩, e2.2.1⟩
    · intro o ho
      simp only [List.mem_cons, List.not_mem_nil, or_false, not_or] at ho
      exact (Stake.rd_congr rfl rfl o).trans (r2 o ho.2)
    · rw [a2.2]
  · rw [if_neg hroom]
    refine ⟨⟨e2.1, e2.2.2, ?_, n2, cl2, ti2, ?_, ?_⟩, e2.2.1⟩
    · rw [if_neg hroom]
      refine ⟨ac2, by simp [Stake.bump, Stake.wr, ca2, hx], ?_⟩
      rw [Stake.rd_bump_same]
      congr 1
      exact (Stake.rd_congr rfl rfl _).trans (r2 _ (by simp [Reg.ANG_ENT_CTRL, Reg.ANG_DEFER_CNT]; omega))
    · intro o ho
      simp only [List.mem_cons, List.not_mem_nil, or_false, not_or] at ho
      rw [Stake.rd_bump_ne _ _ ho.1]
      exact (Stake.rd_congr rfl rfl o).trans (r2 o ho.2)
    · rw [a2.2]; rfl

end Sys2Proof.Machine
end

