-- ==== Sys2Proof/Machine/Pins.lean ====
section
/-! DEFINITION. The levels of the output balls of a stake in its present tick, as functions of its state. -/
namespace Sys2Proof.Machine

/-- R74, R97: the level of `Sn_SDCLKm`. -/
def Stake.sdclkPin (k : Stake) (m : Nat) : Bool := k.mclkLevel m

/-- R102: the excitation's value at a tick: a sine of period `EXC_DIV` with phase zero at the ticks that are multiples of it, of amplitude
`AMP`/256 of full swing, in Q4.44. -/
def Stake.excValue (k : Stake) (t : Word48) : Int :=
  let n := max 1 (k.fld Reg.POS_RES_EXC_EXC_DIV)
  divNear (sin44 (BitVec.ofNat 48 (t.toNat % n * 281474976710656 / n)) * k.fld Reg.POS_RES_EXC_AMP) 256

/-- R102: the levels of `Sn_EXC_P` and `Sn_EXC_N`: the value at the start of a pulse period of 160 ticks as the mean of the
difference of the two, one high where the other is low; both low while the source is disabled. -/
def Stake.excPins (k : Stake) : Bool × Bool :=
  let i := k.ang.tick.toNat % max 1 (k.fld Reg.POS_RES_EXC_EXC_DIV) % 160
  let w := 80 + divNear (80 * k.excValue (k.ang.tick - BitVec.ofNat 48 i)) 17592186044416
  if k.posEn 0 && !k.stopped then ((i : Int) < w, w ≤ (i : Int)) else (false, false)

/-- R97, R116: the level of `Sn_SSP_CLK`: high while idle; it falls at the request, toggles every `HALF_DIV` ticks, and stays high
from the rising edge that the last CRC bit is sampled after. `wave` is what comes in at `Sn_SSP_DAT`, which says where the start bit
lies. -/
def Stake.sspClkPin (k : Stake) (wave : Wave := []) : Bool :=
  match k.pos.sspFrame with
  | none => true
  | some r =>
    let halves := (k.ang.tick - r).toNat / max 1 (k.fld Reg.POS_SSP_CFG_HALF_DIV)
    halves % 2 = 1 || (match k.sspStart r wave with
      | some j => 2 * (j + k.sspFrameBits - 1) + 1 ≤ halves
      | none => false)

/-- R413, R414, R450: the current sources of `Sn_TSi` may be on: off from reset until the sensor on it is sampled. -/
def Stake.tsSource (k : Stake) (i : Nat) : Bool := i < 4 && k.flag Reg.THM_CTRL_EN && k.flag (Reg.THM_SENS_CFG_EN i)

/-- R125, R126: whether the pulse of a compare output is on at an instant. -/
def Stake.cmpOn (k : Stake) (o : Nat) (x : Instant) : Bool :=
  let c := nth {} k.pos.cmp o
  c.active && !laterInstant c.startAt x && (laterInstant c.endAt x || k.compareSoon o c.endAt)

/-- R97, R125: the level of `Sn_PCMPo` at an instant: active high, or low with `CMPo_POL`. -/
def Stake.pcmpPin (k : Stake) (o : Nat) (x : Instant) : Bool :=
  k.cmpOn o x != (if o = 0 then k.flag Reg.POS_CTRL_CMP0_POL else k.flag Reg.POS_CTRL_CMP1_POL)

/-- R97, R127, R128: the levels of `Sn_EMU_A`, `Sn_EMU_B` and `Sn_EMU_Z`. -/
def Stake.emuPins (k : Stake) : Bool × Bool × Bool := (k.pos.emu.a, k.pos.emu.b, k.pos.emu.z)

/-- R231, R233, R246: the level of the edge lanes of a port, main and spare alike, at an instant: high for the width of its pulse. -/
def Stake.edgePin (k : Stake) (p : Nat) (x : Instant) : Bool :=
  match (k.lport p).pulse with
  | none => false
  | some (sym, a, _) => k.link p ≠ 0 && !laterInstant a x && laterInstant (a.plus (32 * pulseWidth sym)) x

/-- R239, R246: the ten-bit code on word lane out in the present tick: a character of the frame being sent, or the comma K28.5; none on a
port that is off. -/
def Stake.wordCode (k : Stake) (p : Nat) : Option Nat :=
  let l := k.lport p
  if k.link p = 0 then none
  else if k.now < l.lastOut + 80 then (encAll (frameChars l.word) l.rd).1[(k.now - l.lastOut) / 16]?
  else some (enc10 true 0xBC (l.rdAfter (l.commas k.now))).1

end Sys2Proof.Machine
end

