-- ==== Sys2Proof/Machine/Balls.lean ====
section
/-! DEFINITION. The balls of the package (R445 to R449), and the levels of the package-level output balls (R380, R395, R450, R451). -/
namespace Sys2Proof.Machine

/-- R445: the single letters of the rows, and the name of the row of an index from 1. -/
def rowLetters : List String := ["A", "B", "C", "D", "E", "F", "G", "H", "J", "K", "L", "M", "N", "P", "T", "U", "V", "W", "Y"]
def rowName (i : Nat) : String := if i ≤ 19 then nth "" rowLetters (i - 1) else "A" ++ nth "" rowLetters (i - 20)

/-- R445: rows and columns of the array of a part of so many stakes. -/
def arraySize (stakes : Nat) : Nat := if stakes = 2 then 22 else if stakes = 4 then 26 else 34

/-- R447: `C0`, `I0` and whether the field of a stake goes up. -/
def fieldOrigin (stakes n : Nat) : Nat × Nat × Bool :=
  if stakes = 8 then (if n < 4 then (2 + 8 * n, 10, true) else (26 - 8 * (n - 4), 25, false))
  else if n < 2 then (2 + 8 * n, 10, true)
  else (10 - 8 * (n - 2), 17, false)

/-- R447: row index and column of the ball of field row f, field column c. -/
def fieldBall (stakes n f c : Nat) : Nat × Nat :=
  let (c0, i0, up) := fieldOrigin stakes n
  (if up then i0 - f else i0 + f, c0 + c)

/-- R446: the stake field, without the stake's prefix. -/
def fieldRows : List (List String) :=
  [["SDD0", "SDD1", "SDD2", "SDD3", "SDD4", "SDD5", "SDD6", "SDD7"],
   ["SDD8", "SDD9", "SDD10", "SDD11", "SDD12", "SDD13", "SDD14", "SDD15"],
   ["SDCLK0", "SDCLK1", "SDCLK2", "SDCLK3", "GND", "AGND", "TS0", "TS1"],
   ["EXC_P", "EXC_N", "AGND", "TS2", "TS3", "GND", "HALL_U", "HALL_V"],
   ["HALL_W", "ENC_A", "ENC_B", "ENC_Z", "SSP_CLK", "SSP_DAT", "FAULTIN", "GND"],
   ["EMU_A", "EMU_B", "EMU_Z", "PCMP0", "PCMP1", "GND", "GND", "GND"]]
def legBalls : List String := ["EDGE_P", "EDGE_N", "EDGS_P", "EDGS_N", "WO_P", "WO_N", "WI_P", "WI_N"]
def fieldName (f c : Nat) : String :=
  if f < 6 then nth "" (nth [] fieldRows f) c else "LEG" ++ toString (f - 6) ++ "_" ++ nth "" legBalls c
def ballOfField (n f c : Nat) : String :=
  let s := fieldName f c
  if s = "GND" then s else "S" ++ toString n ++ "_" ++ s

/-- R448: the package run: row index and first column of its two rows, and their signals in column order. -/
def runStart (stakes : Nat) : (Nat × Nat) × (Nat × Nat) :=
  if stakes = 2 then ((13, 2), (14, 1)) else if stakes = 4 then ((12, 3), (13, 3)) else ((14, 7), (15, 7))
def run1 : List String :=
  ["PCIE_RX0_P", "PCIE_RX0_N", "PCIE_RX1_P", "PCIE_RX1_N", "PCIE_TX0_P", "PCIE_TX0_N", "PCIE_TX1_P", "PCIE_TX1_N", "PCIE_REFCLK_P",
   "PCIE_REFCLK_N", "PERST#", "XTAL_IN", "XTAL_OUT", "DISCH_REQ", "TESTEN", "STRAP_CLKSEL", "STRAP_SPI1S", "CAN0_TX", "CAN0_RX",
   "CAN1_TX", "CAN1_RX"]
def run2 : List String :=
  ["ETH_REFCLK", "ETH_TXD0", "ETH_TXD1", "ETH_TX_EN", "ETH_RXD0", "ETH_RXD1", "ETH_CRS_DV", "ETH_RX_ER", "ETH_MDC", "ETH_MDIO",
   "XSPI_CLK", "XSPI_CS#", "XSPI_DQS", "XSPI_DQ0", "XSPI_DQ1", "XSPI_DQ2", "XSPI_DQ3", "XSPI_DQ4", "XSPI_DQ5", "XSPI_DQ6", "XSPI_DQ7",
   "XSPI_RESET#"]

/-- R449: whether a place lies in the VSUP block. -/
def inVsup (stakes row col : Nat) : Bool :=
  if stakes = 2 then 16 ≤ row && row ≤ 18 && 3 ≤ col && col ≤ 20
  else if stakes = 4 then 14 ≤ row && row ≤ 16 && 3 ≤ col && col ≤ 24
  else 18 ≤ row && row ≤ 22 && 3 ≤ col && col ≤ 32

/-- R447: the stake in whose field a place lies, with its field row and column. -/
def fieldOf (stakes row col : Nat) : Option (Nat × Nat × Nat) :=
  ((List.range stakes).filterMap fun n =>
    let (c0, i0, up) := fieldOrigin stakes n
    let f : Nat := if up then i0 - row else row - i0
    if (if up then row ≤ i0 else i0 ≤ row) && f < 10 && c0 ≤ col && col < c0 + 8 then some (n, f, col - c0) else none).head?

/-- R445 to R449: the ball at a place; none outside the array. -/
def ballAt (stakes row col : Nat) : Option String :=
  let (r1, r2) := runStart stakes
  if row = 0 || col = 0 || arraySize stakes < row || arraySize stakes < col then none
  else match fieldOf stakes row col with
    | some (n, f, c) => some (ballOfField n f c)
    | none =>
      if row = r1.1 && r1.2 ≤ col && col < r1.2 + run1.length then run1[col - r1.2]?
      else if row = r2.1 && r2.2 ≤ col && col < r2.2 + run2.length then run2[col - r2.2]?
      else some (if inVsup stakes row col then "VSUP" else "GND")

/-! Levels of package-level output balls. -/

/-- The package is out of reset (R423, R424). -/
def State.released (s : State) : Bool := s.pkg.boot.phase ≠ .held

/-- R380, R406: `CANn_TX` is recessive, high, in reset and while `EN` is 0, bus-off or listening only; otherwise the bus protocol drives
it. -/
def State.canTxPin (s : State) (c : Nat) : Option Bool :=
  if s.canOn c && s.pkg.fld (Reg.CAN_CTRL_MODE c) = 0 then none else some true

/-- R395, R450: `ETH_REFCLK`: low in reset; from its release an eighth of the core clock, rising where `ANG_TICK` mod 8 = 0. -/
def State.ethRefclkPin (s : State) : Bool := s.released && (s.stake 0).ang.tick.toNat % 8 < 4

/-- R395, R450: `ETH_TXDi`, `ETH_TX_EN` and `ETH_MDC` are low until the MAC, enabled, drives them as RMII and IEEE 802.3 say. -/
def State.ethMacPin (s : State) : Option Bool := if s.released && s.pkg.flag Reg.ETH_CTRL_EN then none else some false

/-- R450: `XSPI_RESET#`. -/
def State.xspiResetPin (s : State) : Bool := s.released

/-- R425, R427, R450: the boot ROM on stake 0 has the flash's port, from the end of a passed upsett. -/
def State.xspiOwned (s : State) : Bool := s.released && s.pkg.boot.phase ≠ .upsett && s.pkg.boot.phase ≠ .dead

/-- R450: `XSPI_CLK`, low, and `XSPI_CS#`, high, until the boot ROM drives them as the flash's mode says. -/
def State.xspiClkPin (s : State) : Option Bool := if s.xspiOwned then none else some false
def State.xspiCsPin (s : State) : Option Bool := if s.xspiOwned then none else some true

/-- R427, R451: the flash is read in 8D-8D-8D; in 1S-1S-1S where the strap holds the boot ROM there, or the flash has no entry sequence. -/
def State.xspiOctal (s : State) : Bool := !s.pkg.boot.straps.testBit 1 && Config.flashEntry

/-- R427, R451: the least time in ticks in which the port reads so many bytes: at 200 MB/s, or a bit a clock at 25 MHz. -/
def State.xspiTicks (s : State) (bytes : Nat) : Nat := bytes * if s.xspiOctal then 2 else 128

/-- R451: `XTAL_OUT` is driven low where the strap takes a clock on `XTAL_IN`. -/
def State.xtalOutPin (s : State) : Option Bool := if s.released && s.pkg.boot.straps.testBit 0 then some false else none

end Sys2Proof.Machine
end

