-- ==== Sys2Proof/WellFormed.lean ====
section
/-! DEFINITION. Which commands are well formed: their numbers lie in the ranges the spec gives them. A command outside its range names
nothing the block has; its meaning changes nothing. -/
namespace Sys2Proof.WellFormed

/-- R1: stakes 0 to 7. -/
def stakeNo (n : Nat) : Bool := n < 8

/-- R231: edge ports 0 to 3. -/
def portNo (p : Nat) : Bool := p < 4

/-- R46: angle clocks 0 and 1. -/
def clockNo (c : Nat) : Bool := c < 2

/-- R54 and the text before it: scheduler entries 0 to 126. -/
def entryNo (e : Nat) : Bool := e < 127

/-- R77, R93: sensing channels 0 to 15. -/
def chanNo (c : Nat) : Bool := c < 16

/-- R77: capture groups 0 to 3. -/
def groupNo (g : Nat) : Bool := g < 4

/-- R38: ring pairs and their doorbells 0 to 255. -/
def ringNo (r : Nat) : Bool := r < 256

/-- R339: a payload of up to 256 bytes, a completion timeout of 50 µs to 10 ms. -/
def pcieSettings (c : PcieCfg) : Bool := c.payload ≤ 1 && c.readReq ≤ 5 && 20000 ≤ c.timeout && c.timeout ≤ 4000000

/-- R343: streams 0 to 15 of a stake. -/
def streamNo (i : Nat) : Bool := i < 16

/-- R415: temperature sensors 0 to 5. -/
def sensorNo (k : Nat) : Bool := k < 6

/-- R380: the two CAN controllers; R383: their buffers, the four high-priority ones first. -/
def canNo (c : Nat) : Bool := c < 2
def canBufNo (i : Nat) : Bool := i < 68

/-- R35: BAR0 is 16 MiB. -/
def bar0Addr (a : Nat) : Bool := a < 0x1000000

/-- R120: measurement sources 1 (quadrature) and 2 (Hall) time their edges. -/
def edgeSource (n : Nat) : Bool := n = 1 || n = 2

/-- Bytes, bits of which count, and words of a width. -/
def bytes (l : List Nat) : Bool := l.all (· < 256)
def below (w n : Nat) : Bool := n < 2 ^ w

/-- R21: at most eight words of 48 bits. -/
def cellWords (l : List Nat) : Bool := l.length ≤ 8 && l.all (below 48 ·)

/-- R21: the fields of a wale cell. -/
def cell (c : Cell) : Bool :=
  c.dest < 8 && c.src < 8 && c.cls < 4 && c.kind < 16 && below 16 c.tag && below 24 c.tickLo && c.hops < 8 && cellWords c.payload

/-- R21: what is received with a cell. -/
def linkIn (l : LinkIn) : Bool :=
  below 10 l.seq && below 10 l.ack && l.crClass < 4 && below 6 l.crCount && (match l.cell with | some c => cell c | none => true)

/-- R382, R386: a CAN frame: identifier of 11 or 29 bits, length code, at most 64 bytes. -/
def canFrame (f : CanFrame) : Bool :=
  (if f.ide then below 29 f.id else below 11 f.id) && f.dlc < 16 && f.data.length ≤ 64 && bytes f.data

/-- R330: one result of the upsett phase: masks of the elements it names. -/
def upsett (r : UpsettRes) : Bool :=
  below 3 r.cores && r.sramRows.length = 8 && below 18 r.decimators && below 14 r.slices && below 4 r.edgeMain && below 4 r.edgeSpare &&
    below 18 r.ascTx && below 18 r.ascRx && below 18 r.dscTx && below 18 r.dscRx

end Sys2Proof.WellFormed

namespace Sys2Proof
open WellFormed

/-- Whether a command's numbers lie in the ranges the spec gives them. -/
def Instr.wellFormed : Instr → Bool
  | .setupRegisterWrite _ addr _ | .lowWordReadLatch addr | .highWordWriteCommit _ addr _ | .w1cClear addr _ _
  | .absentStakeAccess _ addr | .reservedPackageAccess _ addr => bar0Addr addr
  | .badWidthAccess _ addr len => bar0Addr addr && below 12 len
  | .satClear addr incs => bar0Addr addr && below 16 incs
  | .bar2ReservedWrite addr _ => below 12 addr
  | .waleCellSlot n _ link => stakeNo n && (match link with | some l => linkIn l | none => true)
  | .waleCellCrcFail n _ | .streamPacketCell n | .forwardedDescriptorCell n | .fallbackCommandReceived n _ _ | .completionCell n
  | .firmwareBlockCell n | .heartbeatSend n | .heartbeatReceived n | .anchorLost n | .ringMasterHeartbeatLoss n
  | .anchorsUnreachable n | .stakeLost n | .waleCrcBurst n _ | .retrainStart n _ | .retrainDone n _ | .angTickWrap n
  | .deferredDispatch n | .schedEnable n _ _ | .snsApply n _ _ | .posSourceDisable n _ _ | .encoderEdge n _ _ _
  | .encoderPulseRejected n _ _ | .encoderIndex n _ | .encAlignLoad n _ _ | .hallIllegalTimeout n | .sspRequest n
  | .sspStartTimeout n _ | .sspFrameReceived n _ | .emuPassThroughEdge n _ _ _ | .emuStep n | .paramCommit n _ _
  | .fldTableSwap n _ _ _ | .fldApply n _ _ | .catchLegsOffEnd n | .catchPllLock n | .catchTimeout n | .catchZvPulse n
  | .transferBoundary n | .carrierStart n | .carrierStop n _ _ | .modSetOpen n _ _ | .modSetClose n _ _ | .modSetAbort n _ _
  | .patternRecompute n | .modeSeam n | .seamSearchFail n | .modPatSwap n _ _ | .auxPulseStart n | .auxPulseEnd n
  | .cutClear n _ _ | .epochTimeout n | .modApply n _ _ | .pairClockCellSend n | .pairStart n _ _ | .pairStop n _ _
  | .pairConfirmRecord n | .pairConfirmTimeout n | .legEnable n _ _ | .legDisable n _ _ | .legApply n _ _ | .sequencerTrip n
  | .ascDelayExpire n | .safeStateRequest n | .bandLatchRefresh n | .latchStale n | .plaitSilent n | .windowClose n _
  | .scDecide n | .stopComplete n | .chopperCheckTimeout n | .tmonWindowTimeout n | .hostFreshTimeout n | .hostLossTimeout n
  | .dischargeTimeLimit n | .faultinAssert n _ | .pltApply n _ _ | .plaitReadUe n | .resyncStart n | .resyncDone n _ _ _ | .handoverDone n _ _ _
  | .plaitToSplit n _ _ | .plaitToVoted n _ _ | .streamItem n | .strApply n _ _ | .clkRefLoss n _ _ | .thmDie175 n
  | .die175Release n | .distributionTimeout n | .referenceReturn n _ => stakeNo n
  | .waleReservedKind n kind => stakeNo n && below 4 kind
  | .regReadRequestCell n tag off => stakeNo n && below 8 tag && bar0Addr off
  | .regWriteCell n _ off _ retrain => stakeNo n && bar0Addr off && (match retrain with | some l => l.2.all (· < 18) | none => true)
  | .regReadReturnCell tag => below 8 tag
  | .stakeEventRecord n limit => stakeNo n && (match limit with | some l => below 16 l | none => true)
  | .waleLaneFail n _ lane => stakeNo n && lane < 18
  | .waleMarginMeasure n _ margins => stakeNo n && (margins.length = 18 && margins.all (· < 256))
  | .tickAlignmentCell n _ latency _ _ fine => stakeNo n && below 16 latency && below 5 fine
  | .alignmentCellSend | .fallbackTick | .fbInputTimeout | .dischReqAssert _ | .configRewrite | .descriptorFetch | .eventQueueDrain
  | .hifLinkReset _ | .adminEnable _ _ | .adminDisable _ _ | .setupLock _ _ | .canUsWrap | .canStatusFrameSend
  | .ethFrameReceived _ | .pdelayReqSend | .phyLinkPoll _ | .mapCommit _ _ _ _ | .ethSyncTimeout | .holdoverTimeout
  | .secReset _ _ | .slotVerifyDone _ | .secEnroll _ _ | .sealOperationDone _ | .unlockSubmit _ _ | .unlockEraseDone
  | .fwStageDone _ | .configRewriteDone => true
  | .measurementProcess n c | .angExtrapLimit n c | .directionRearm n c => stakeNo n && clockNo c
  | .angleEntryDue n k | .entryRearm n k | .tickEntryDue n k | .periodicEntryDue n k | .boundaryEntryDue n k
  | .entryCommit n _ k _ | .actionNone n k | .actionCapture n k | .actionPattern n k | .actionCompare n k | .actionPlaitIrq n k
  | .actionSnapshot n k | .actionArm n k | .actionDisarm n k | .pass n k => stakeNo n && entryNo k
  | .captureComplete n g _ => stakeNo n && groupNo g
  | .decimatorOutput n c _ | .fastPathTrip n c _ _ | .channelStuck n c _ | .channelUnstuck n c _ | .filterFilled n c
  | .corrCommit n _ c _ => stakeNo n && chanNo c
  | .posSourceEnable n _ _ levels => stakeNo n && below 5 levels
  | .hallTransition n levels _ => stakeNo n && below 3 levels
  | .standstillTimeout n src | .decayMeasurement n src => stakeNo n && edgeSource src
  | .comparePulseEnd n o => stakeNo n && below 2 o
  | .edgeSymbolSend n p | .cutEnd n p | .keepAliveSend n p | .wordLaneFrameSend n p | .legHello n p _ | .legDeferredHello n p
  | .legStatus n p _ | .legEvent n p _ | .legFault n p _ | .legTelemetry n p _ | .legSum n p _ | .legTestResult n p _
  | .legBadFrame n p | .wordLaneTimeout n p | .legHelloTimeout n p | .eventMiss n p | .legRestart n _ p _ | .legClear n _ p _
  | .legSelftest n _ p _ | .selftestStepTimeout n p | .legSumRequest n _ p _ | .legSplice n _ p _ | .refreshDue n p
  | .refreshLatestStart n p => stakeNo n && portNo p
  | .delayLineCalibrate n nc => stakeNo n && below 16 nc
  | .triggerFire n u => stakeNo n && below 2 u
  | .pairSampleFrame n ws => stakeNo n && cellWords ws
  | .pairUpdateSet n c0 c1 c2 => stakeNo n && cellWords c0 && cellWords c1 && cellWords c2
  | .pairClockMeasurement n c0 => stakeNo n && cellWords c0
  | .pairBreakRecord n cause => stakeNo n && below 4 cause
  | .legProfileWrite n _ p q st _ => stakeNo n && portNo p && below 4 q && below 4 st
  | .axisArm n r c | .axisDisarm n r c | .axisRun n r c | .axisStop n r c _ | .axisTest n r c | .axisCatch n r c
  | .axisDischarge n r c | .axisClear n r c _ | .axisRecover n r c _ => stakeNo n && ringNo r && below 16 c
  | .voterDissent n a b c => stakeNo n && (a.bus.length = b.bus.length && b.bus.length = c.bus.length) &&
      (a.regs.length = b.regs.length && b.regs.length = c.regs.length)
  | .scrubLine n addr result _ => stakeNo n && below 20 addr && result < 3
  | .wearMeasure n ppm => stakeNo n && (ppm.length = 4)
  | .configLoad splitMask writes | .cfgWriteDone splitMask writes => below 8 splitMask && (writes.all fun y => bar0Addr y.1)
  | .doorbellSqTail r _ | .doorbellCqHead r _ | .setpoint r | .setDescriptor r | .regWrite r | .streamBuf r | .streamBufTimeout r
  | .fwCommit r | .ringCreate r | .ringDelete r | .getFaults r | .getSnapshot r | .plaitMode r | .attest r | .reservedOpcode r
  | .streamPacketRequest r => ringNo r
  | .descriptorArrival r bs => ringNo r && bytes bs
  | .ringFetchError r status => ringNo r && below 16 status
  | .hostDataError r cid => ringNo r && below 16 cid
  | .tableWrite r data | .fwStage r data => ringNo r && bytes data
  | .cfgWrite r data progress => ringNo r && bytes data && progress ≤ 387
  | .tuneApply n => below 4 n
  | .msixModerationTimeout v => below 6 v
  | .pktTimeout n i | .streamFlush n _ i _ => stakeNo n && streamNo i
  | .canFrameReceived c f => canNo c && canFrame f
  | .canCtrlReadLatch c i | .canRelease _ c i _ | .canTxRequest _ c i _ | .canCancel _ c i _ _ => canNo c && canBufNo i
  | .canTxDone c b _ => canNo c && below 6 b
  | .canTxError c b _ _ kind => canNo c && below 6 b && below 8 kind && kind % 4 < 3
  | .canBusOffRecovery c | .canRefSend c | .canTtRefTimeout c | .canControllerEnable _ c _ | .canTtExclusiveMiss c => canNo c
  | .canTtColumnStart c col => canNo c && below 5 col
  | .supOvervolt n mv | .supInhibitExit n mv | .powerOn n mv | .supOvervoltEnd n mv => stakeNo n && below 16 mv
  | .supInhibitEnter n mv progress | .brownOut n mv progress => stakeNo n && below 16 mv && progress ≤ 387
  | .railFault n vaux vcore progress => stakeNo n && below 16 vaux && below 16 vcore && progress ≤ 387
  | .supVana n vana => stakeNo n && below 16 vana
  | .coreClockLost n count => stakeNo n && below 16 count
  | .clkMclkFault n m | .mclkFaultEnd n m => stakeNo n && below 2 m
  | .thmSample n k _ | .thmGraceExpire n k => stakeNo n && sensorNo k
  | .perstAssert _ progress => progress ≤ 387
  | .resetRelease _ straps _ => below 8 straps
  | .upsettComplete results => (results.all upsett)
  | .pcieLinkUp speed width cfg => (1 ≤ speed && speed ≤ 3) && (width = 1 || width = 2) && pcieSettings cfg
  | .canRxError c kind => canNo c && below 8 kind && kind % 4 < 2

end Sys2Proof
end

