-- ==== Sys2Proof/Tests/Slice0.lean ====
section
/-! SUPPORT. Tests of the model: a worked example of the spec or a rule each, an ill-formed command for every check of WellFormed, and for
every statement with hypotheses a state and operands that meet them. -/
namespace Sys2Proof.Tests
set_option Elab.async false
open Sys2Proof.Machine

/-! Builders of small states. -/

/-- The block after reset with every stake reachable. -/
def base : State := State.reset.onPkg fun p => p.put Reg.HIF_PKG_ALIVE_ALIVE 255

/-- `base` with a change to stake 0. -/
def k0 (f : Stake → Stake) : State := base.onStake 0 f

/-- `base` with a change to the package. -/
def p0 (f : Pkg → Pkg) : State := base.onPkg f

/-- Sets fields of a stake. -/
def sets (l : List (Fld × Nat)) (k : Stake) : Stake := l.foldl (fun q x => q.put x.1 x.2) k

/-- Sets fields of a stake, in force too. -/
def setsIn (l : List (Fld × Nat)) (k : Stake) : Stake :=
  l.foldl (fun q x => (q.put x.1 x.2).wrAct x.1.off ((q.put x.1 x.2).rd x.1.off)) k

/-- Sets fields of the package. -/
def psets (l : List (Fld × Nat)) (p : Pkg) : Pkg := l.foldl (fun q x => q.put x.1 x.2) p

/-- A write that passes its checks, decided. -/
def admitsB (s : State) (src : Src) (n off : Nat) (w : Reg32) : Bool :=
  s.takesFrom src n && !(s.locked && closedTo src off) && (regAt off).all fun r => r.inRange w

theorem admits_of {s : State} {src : Src} {n off : Nat} {w : Reg32} (h : admitsB s src n off w = true) : s.admits src n off w := by
  simp only [admitsB, Bool.and_eq_true, Bool.not_eq_true'] at h
  exact ⟨h.1.1, h.1.2, fun r hr => by simpa [hr] using h.2⟩

theorem pkgAdmits_of {s : State} {src : Src} {off : Nat} {w : Reg32}
    (h : (!(src = .manager && (s.stake 0).vote.halted) && !(s.locked && closedTo src off) && (regAt off).all fun r => r.inRange w) = true) : s.pkgAdmits src off w := by
  simp only [Bool.and_eq_true, Bool.not_eq_true'] at h
  exact ⟨h.1.1, h.1.2, fun r hr => by simpa [hr] using h.2⟩

theorem underWay_of {s : State} {r cid : Nat}
    (h : (s.ringEn r && cid < 65536 && s.pkg.host.flying.any fun f => f.ring = r && f.cid = cid) = true) : s.underWay r cid := by
  simp only [Bool.and_eq_true, decide_eq_true_eq, List.any_eq_true] at h
  obtain ⟨⟨h1, h2⟩, f, hf, h3, h4⟩ := h
  exact ⟨h1, h2, f, hf, h3, h4⟩

theorem axisAt_of {s : State} {n r c code : Nat} (h : (s.ringStake r = n && s.alive n &&
    (s.pkg.host.descs.find? fun d => d.ring = r && d.op = 2 && d.there).any fun d => d.cid = c && nth 0 d.body 8 = code) = true) :
    s.axisAt n r c code := by
  simp only [Bool.and_eq_true, decide_eq_true_eq, Option.any_eq_true] at h
  obtain ⟨⟨h1, h2⟩, d, hd, h3, h4⟩ := h
  exact ⟨h1, h2, d, hd, h3, h4⟩


/-! Ticks, angle clocks, the scheduler. -/

/-- The control word of a scheduler entry (R54). -/
def entCtl (oneshot dir trig fine act arg : Nat) : Reg32 :=
  BitVec.ofNat 32 (2 ^ 31 + oneshot * 2 ^ 29 + dir * 2 ^ 26 + trig * 2 ^ 23 + fine * 2 ^ 16 + act * 2 ^ 12 + arg)

/-- Stake 0 with entry 5, the scheduler enabled, its tick at 1000. -/
def kEnt (tick : Nat) (x : Entry) : State := k0 fun k =>
  ((k.putB Reg.ANG_SCHED_CTRL_EN true).onEntry 5 fun _ => x).onAng fun a => { a with tick := BitVec.ofNat 48 tick, period := (996, 400) }

def xMain : State := (k0 fun k => k.onClock 0 fun c => { c with valid := true, omega := 1000, slewLeft := 5, slewE := 77 }).onBoot fun b => { b with phase := .ready }
def xWrap : State := k0 fun k => k.onAng fun a => { a with wrapPend := true }
def xSilent : State := k0 fun k => { ((k.onClock 0 fun c => { c with valid := true }).putB (Reg.ANG_CLK_CTRL_EN 0) true) with now := 400000000 }
def xMeas (e t : Word48) (v : Bool) : State := k0 fun k =>
  (k.onClock 0 fun c => { c with valid := v, mail := [⟨e, t, 5, false⟩] }).putB (Reg.ANG_CLK_CTRL_EN 0) true

def xCross : State := (kEnt 1000 { tgt := 500, ctrl := entCtl 0 0 0 0 0 0 }).onStake 0 fun k =>
  k.onClock 0 fun c => { c with valid := true, prevL := 400, omega := 200, theta := 0 }
def xTick (tgt : Word48) : State := kEnt 1000 { tgt := tgt, ctrl := entCtl 0 0 1 7 0 0, since := 5 }
def xPer (nx : Word48) : State := kEnt 1000 { next := nx, ivl := 50, ctrl := entCtl 0 0 2 7 0 0, since := 5 }
def xBnd (o : Word48) : State := (kEnt 1000 { tgt := o, ctrl := entCtl 0 0 3 7 0 0, since := 5 }).onStake 0 fun k =>
  { k with modu := { k.modu with run := true } }
def xBndAhead : State := (xBnd 1).onStake 0 fun k => { k with modu := { k.modu with run := false, start := some (1003, 20000) } }
def xDefer : State := (xTick 1004).onStake 0 fun k => k.onAng fun a => { a with dispatched := 8 }

/-- Entry 5 an ANGLE entry that has fired, on a clock at rest at the target's other side. -/
def xSpent : State := (kEnt 1000 { tgt := 0x800000000000, ctrl := entCtl 0 0 0 0 0 0, spent := true }).onStake 0 fun k =>
  k.onClock 0 fun c => { c with valid := true, theta := 0x100000000000, toggledPrev := true, rev := true }
def xCarried : State := xDefer.onStake 0 fun k => k.onAng fun a => { a with
  dispatched := 7, carried := [(⟨7, 0, 0, ⟨1001, 3⟩, 0⟩, false)],
  carriedPrev := [(⟨5, 0, 0, ⟨1000, 3⟩, 0⟩, false), (⟨6, 0, 0, ⟨1000, 4⟩, 0⟩, true)] }
/-- The action with a code of entry 5 is due. -/
def anAct (code arg : Nat) : Act := ⟨5, code, arg, ⟨1000, 3⟩, 0⟩
def xAct (code arg : Nat) : State := k0 fun k => k.onAng fun a => { a with tick := 1000, acts := [⟨4, code, arg, ⟨1000, 0⟩, 0⟩, anAct code arg] }
def xOff : State := (kEnt 1000 {}).onStake 0 fun k => k.putB Reg.ANG_SCHED_CTRL_EN false
def xDead : State := kEnt 1000 { tgt := 500, ctrl := entCtl 0 0 0 0 0 0 }

/-! Sensing. -/

/-- Stake 0 with channels 0 to 3 of group 0 enabled in force. -/
def kSns (f : Stake → Stake) : State := k0 fun k => f ((setsIn ((List.range 4).map (fun c => (Reg.SNS_CH_CFG_EN c, 1)) ++
  [(Reg.SNS_CTRL_EN, 1), (Reg.SNS_GRP_OSR 0, 32), (Reg.SNS_MCLK_EN 0, 1), (Reg.SNS_MCLK_DIV 0, 20)]) { k with now := 1000000 }).onAng fun a => { a with tick := 1000000 })

def xCapture : State := kSns fun k => k.onAng fun a => { a with acts := [anAct 1 1] }
def aCap : Capture := ⟨999000, 7, (900000, 999900), false, 0⟩
def gCap : SnsGroup := { inFlight := [aCap], nextSeq := 8 }
def xTaken : State := kSns fun k => k.onGroup 0 fun _ => gCap
def xPlain : State := kSns fun k => sets [(Reg.SNS_CH_VOLT_SCALE_VOLT_SCALE 3, 500)]
  (setsIn [(Reg.FLD_MAP_UDC_A, 12), (Reg.FLD_MAP_UDC_B, 13), (Reg.PLT_CHOP_CFG_CHOP_CH, 14)] k)
def someBits (n : Nat) : List Bool := (List.range n).map fun i => i % 3 ≠ 0
def xFast (cl : Nat) : State := kSns (setsIn [(Reg.SNS_CH_CFG_FAST_EN 2, 1), (Reg.SNS_CH_CFG_FAST_OSR 2, 8), (Reg.SNS_CH_CFG_FAST_N 2, 2),
  (Reg.SNS_CH_CFG_FAST_CLASS 2, cl), (Reg.SNS_CH_FAST_THR_HI 2, 100)])
def xStuck : State := kSns (sets [(Reg.SNS_CH_STATUS_FAST_HI 2, 1)])
def xUnstuck : State := kSns (sets [(Reg.SNS_CH_STATUS_STUCK 2, 1), (Reg.SNS_CH_STATUS_STUCK_SEEN 2, 1)])
/-- A rise between the last two bits of channel 2. -/
def oneRise : Wave := [((xUnstuck.stake 0).lastEdge 2, true)]
def xFill : State := kSns id
def xGain : State := kSns fun k => (k.put48 (Reg.SNS_CH_GAIN 3) 7).put48 (Reg.SNS_CH_OFFSET 3) 9
def xApply (st : Nat) : State := kSns (sets [(Reg.PLT_AXIS_STATE_STATE, st), (Reg.SNS_GRP_OSR 0, 64)])

/-! Position and speed. -/

/-- Stake 0 with every source enabled, not faulted, with an encoder of 1000 lines. -/
def kPos (f : Stake → Stake) : State := k0 fun k => f (sets [(⟨Reg.POS_CTRL, 0, 4⟩, 15), (Reg.POS_CTRL_POLE_PAIRS, 4)] k)

def xEdge (a b : Bool) : State := kPos fun k => { k with pos := { k.pos with a := a, b := b } }
def xIndex : State := kPos fun k => { sets [(Reg.POS_ENC_CFG_Z_EN, 1), (Reg.POS_ENC_CFG_Z_GATE, 3), (Reg.POS_ENC_INDEX_Z_COUNT, 17)] k with
  pos := { k.pos with a := true, b := true } }
def xHall (h i : Nat) : State := kPos fun k => { k with pos := { k.pos with hall := h, sector := some i } }
def xIllegal : State := kPos fun k => { k with pos := { k.pos with illegal := some 100 }, now := 40100 }
def xStill : State := kPos fun k => { k with now := 400000000 }
def xDecay : State := kPos fun k =>
  { sets [(Reg.POS_SRC_STATUS_QUAL 1, 4)] k with now := 25600, pos := { k.pos with enc := { speed := 100000000000, stamps := [1, 2] } } }
def xSsp (busy : Bool) : State := kPos fun k => { k with pos := { k.pos with sspFrame := if busy then some 3 else none } }
def xFrame (tick : Word48) : State := kPos fun k =>
  { k with pos := { k.pos with sspFrame := some 3 }, ang := { k.ang with tick := tick } }
/-- The payload of a frame, and its check bits. -/
def somePay : List Bool := someBits ((xFrame 0).stake 0 |>.fld Reg.POS_SSP_CFG_PAY_BITS)
def someErr : Bool := !((xFrame 0).stake 0).flag Reg.POS_SSP_CFG_ERR_POL
def someCrc : List Bool :=
  let k := (xFrame 0).stake 0
  let cw := if k.flag Reg.POS_SSP_CFG_CRC8 then 8 else 6
  let sum := sspCrc cw (k.fld Reg.POS_SSP_CRC_POLY) (somePay ++ [someErr]) (k.fld Reg.POS_SSP_CRC_INIT % 2 ^ cw)
  let v := if k.flag Reg.POS_SSP_CRC_INV then 2 ^ cw - 1 - sum else sum
  (List.range cw).map fun i => v.testBit (cw - 1 - i)
/-- The input of a whole frame: low, the start bit, the payload, the error bit, the check. -/
def someWave : Wave := ([false, true] ++ somePay ++ [someErr] ++ someCrc).mapIdx fun i b => (((xFrame 0).stake 0).sspTick 3 i, b)
def xCmp : State := (xAct 4 3).onStake 0 (sets [(Reg.POS_CTRL_CMP_EN, 1), (Reg.POS_CMP_EN 3, 1), (Reg.POS_CMP_OUT 3, 1), (Reg.POS_CMP_WIDTH 3, 50)])
def aPulse : CmpOut := ⟨true, ⟨900, 4⟩, ⟨999, 4⟩, true, (4, 4)⟩
def xPulse : State := k0 fun k => { k with ang := { k.ang with tick := 1000 }, pos := { k.pos with cmp := [{}, aPulse] } }
def xEmu (m : Nat) : State := k0 fun k =>
  { (sets [(Reg.POS_CTRL_EMU_MODE, m)] k).onClock 0 fun c => { c with valid := true, theta := 0x400000000000 } with now := 1000000 }
def xPos0 : State := kPos id

/-! Register accesses. -/

/-- Part of a register by its offset. -/
def rg (off : Nat) : RegD := match regAt off with | some r => r | none => ⟨0, 0, 0, false, []⟩

def xReady : State := p0 (psets [(Reg.HIF_STATUS_READY, 1)])
def xLocked : State := p0 (psets [(Reg.HIF_STATUS_READY, 1), (Reg.HIF_SETUP_LOCK_LOCK, 1)])
def xLost : State := p0 (psets [(Reg.HIF_PKG_ALIVE_ALIVE, 251)])
def xRead : State := p0 fun p => { p with reads := [(7, 0x300, 5)] }

/-! The wale. -/

/-- `base` with both directions of every stake up. -/
def wBase : State := base.onAll (sets [(Reg.WAL_STATUS_ASC_UP, 1), (Reg.WAL_STATUS_DSC_UP, 1), (Reg.WAL_STATUS_STAKES_UP, 255)])
def aCell : Cell := ⟨3, 2, 1, 2, 0, 0, [1, 2], 0⟩
def wDir (f : WalDir → WalDir) : State := wBase.onStake 2 fun k => k.onDir .asc f
def xQueued : State := wDir fun w => { w with queues := [[], [aCell], [], []] }
def xDown : State := xQueued.onStake 2 fun k => { k with stopped := true }
def xBurst : State := (wDir fun w => { w with crcAt := List.replicate 9 0 }).onStake 2
  (sets [(Reg.WAL_CTRL_CRC_RETRAIN_EN, 1), (Reg.WAL_CTRL_CRC_BURST, 8)])
def xWant : State := wDir fun w => { w with retrainWant := true }
def xTrain : State := wDir fun w => { w with retrainFrom := some 0, mapOut := [3, 17] }
def xLanes : State := wDir fun w => { w with mapOut := [3, 17] }
def xBeat (f : Stake → Stake) : State := wBase.onStake 2 fun k => f { k with now := 100000 }
def xMaster1 : State := (wBase.onStake 1 fun k => { k with now := 100000 })
def xCut : State := wBase.onAll fun k => if k.id = 2 then sets [(Reg.WAL_STATUS_ASC_UP, 0), (Reg.WAL_STATUS_DSC_UP, 0)] k else k
/-- Pairs 0 (admin), 1 DRIVE and 2 TUNE of stake 0, 3 TUNE of the package, 4 STREAM of stake 0, 5 BULK, 6 DRIVE of stake 2. -/
def ringUp (r cls st : Nat) : Pkg → Pkg := psets [(Reg.HIF_RING_EN r, 1), (Reg.HIF_RING_CLASS r, cls), (Reg.HIF_RING_STAKE r, st),
  (Reg.HIF_RING_SQ_LOG2 r, 4), (Reg.HIF_RING_CQ_LOG2 r, 5)]
def hb : State := p0 fun p =>
  let p := p.putB Reg.HIF_STATUS_READY true
  let p := ringUp 6 0 2 (ringUp 5 3 15 (ringUp 4 2 0 (ringUp 3 1 15 (ringUp 2 1 0 (ringUp 1 0 0 (ringUp 0 0 15 p))))))
  { p with host := { p.host with rings := List.replicate 256 { cqFree := 8 }, pcie := PcieCfg.enumerated } }
def dsc (r cid op : Nat) (body : List Nat) : Desc :=
  { ring := r, cid := cid, op := op, body := [op, 0] ++ bytesN 2 cid ++ [0, 0, 0, 0] ++ body ++ List.replicate (56 - body.length) 0 }
/-- A descriptor fetched and arrived. -/
def withDesc (s : State) (r cid op : Nat) (body : List Nat) : State := s.onHost fun h =>
  { h with descs := h.descs ++ [dsc r cid op body], flying := h.flying ++ [{ ring := r, cid := cid, op := op, sqHead := 1, urgent := false }] }
def taken (s : State) (r op : Nat) : State := ((s.takeDesc r op).map (·.2)).getD s
def aDone : Completion := { ring := 6, cid := 77, op := 1, status := 0 }
def xDone : State := (withDesc hb 6 77 1 [2, 0]).onStake 2 fun k => { k with done := [aDone] }
def anEv : EvRec := ⟨.posHallFault, 1, 2, 55, [5, 1], 0⟩
def xEv : State := wBase.onStake 2 fun k => { k with out := [anEv] }
def xTimed : State := wBase.onPkg (psets [(Reg.ETH_STATUS_TIME_STATE, 2)])
def xSync (ld : Bool) (t : Word48) : State := wBase.onStake 2 fun k => { k with ang := { k.ang with loaded := ld, tick := t } }
def xEpoch : State := (xSync true 1010).onStake 2 (setsIn [(Reg.MOD_EPOCH_CTRL_EN, 1), (Reg.MOD_STATUS_EPOCH_STATE, 1)])
def xFallback : State := wBase.onStake 2 (setsIn [(Reg.PLT_AXIS_STATE_FALLBACK, 1), (Reg.PLT_AXIS_STATE_FRESH, 2), (Reg.POS_CTRL_POLE_PAIRS, 4)])
def xMaster2 : State := xMaster1.onStake 1 fun k => { k with wal := { k.wal with master := 1 } }
def aCell2 : Cell := { aCell with dest := 2 }
def xBeat0 : State := xBeat id

/-! Streams. -/

def anOffer : Offer := { stream := 2, source := 9, content := 1, words := [5, 6] }
def kStr (f : Strm → Strm) : State := k0 fun k =>
  { (setsIn [(Reg.STR_STREAM_CFG_EN 2, 1), (Reg.STR_STREAM_CFG_FIFO_KIB 2, 1), (Reg.STR_STREAM_CFG_PKT_WORDS 2, 16), (Reg.STR_STREAM_CFG_PKT_TIMEOUT 2, 50)] k) with
    offers := [anOffer], str := updAt k.str 2 f, now := 100000 }
def aPkt (n : Nat) : Packet := ⟨4, 0, false, false, false, 9, 1, 77, List.replicate n 3⟩
def xStrFull : State := kStr fun x => { x with whole := [aPkt 127] }
def xStrNew : State := kStr id
def xStrAdd : State := kStr fun x => { x with packing := some (aPkt 3, 70000) }
def xStrOff : State := xStrNew.onStake 0 (setsIn [(Reg.STR_STREAM_CFG_EN 2, 0)])
def xFifo (n : Nat) : State := k0 (sets ((List.range 16).map fun i => (Reg.STR_STREAM_CFG_FIFO_KIB i, n)))
def aBuf : Buf := { cid := 77, addr := 0x5000, len := 4096, timeout := 2, firstAt := some 100 }
def xBufD : State := withDesc hb 4 77 0x20 (bytesN 8 0x5000 ++ bytesN 4 4096 ++ bytesN 2 100)
def xBufT : State := ((withDesc hb 4 77 0x20 []).onRing 4 fun q => { q with bufs := [aBuf] }).onAll fun k => { k with now := 10000 }
/-- Stream 2 of stake 0 has a whole packet and pair 4 a buffer for it. -/
def xPkt (f : Strm → Strm) : State := ((hb.onPkg (psets [(Reg.HIF_RING_STREAM 4, 2)])).onRing 4 fun q => { q with bufs := [aBuf] }).onStake 0 fun k =>
  { k with str := updAt k.str 2 f }
def xPktReq : State := xPkt fun x => { x with whole := [aPkt 3] }
def xPktCell : State := (xPkt fun x => { x with moving := some (aPkt 3) }).onHost fun h => { h with inbound := [4] }

/-! The field engine. -/

def xPass (en : Nat) (busy : Option Nat) : State := (xAct 2 0).onStake 0 fun k =>
  { sets [(Reg.FLD_CTRL_EN, en)] k with now := 5000, fe := { k.fe with busyFrom := busy } }
def xAxis (st : Nat) : State := k0 (sets [(Reg.PLT_AXIS_STATE_STATE, st)])
def xBadPar : State := k0 fun k => k.put48 (fldParamOff 15) 0x7FFFFFFFFFFF
def xBadRatio : State := k0 (sets [(Reg.FLD_MM_RATIO_MM_LO, 5), (Reg.FLD_MM_RATIO_MM_HI, 5)])
/-- Stake 1 with a fallback curve that ascends, its CAN input fresh. -/
def xCurve (now : Nat) : State := base.onStake 1 fun k =>
  let k := sets [(Reg.FLD_FB_CTRL_EN, 1), (Reg.FLD_FB_CTRL_FB_TIMEOUT, 100), (Reg.FLD_FB_STATUS_INPUT_OK, 1)] k
  { k with now := now, fe := { k.fe with canAt := some 0, canX := 12345 } }
def aCatch (st : Nat) : Catch :=
  { step := st, start := 0, emfSum := 17592186044416, emfN := 4, smallSince := some 0, pllOmega := 1000000000, pllTheta := 0x123456789ABC, run := false }
def xCatch (c : Catch) (l : List (Fld × Nat)) : State := k0 fun k => { setsIn l k with now := 100000000, fe := { k.fe with catching := some c } }
def noEmf : Catch := { aCatch 1 with emfSum := 0 }

/-! Modulation. -/

def xSlot (kind n : Nat) : State := (xAct 3 4).onStake 0 (setsIn [(Reg.MOD_SLOT_KIND 4, kind), (Reg.MOD_SLOT_N 4, n)])
/-- Stake 0 with the carrier running, at a transfer boundary. -/
def kRun (f : ModState → ModState) : State := k0 fun k => { k with
  ang := { k.ang with tick := 1000 }, now := 400000000, modu := f { k.modu with run := true, nextB := 1000, half := 10000, set := { k.modu.set with period := 20000 } } }
def xSeam : State := kRun fun m => { m with req := some (4, 0, false) }
def xNoSeam : State := xSeam.onStake 0 fun k => setsIn [(Reg.MOD_STATUS_KIND, 2)] (k.onClock 0 fun c => { c with omega := 2000000 })
def xPat (ts : Word48) : State := (kRun fun m => { m with pat := { m.pat with tSeam := ts } }).onStake 0 fun k =>
  (setsIn [(Reg.MOD_STATUS_KIND, 2)] k).onClock 0 fun c => { c with valid := true, omega := 2000000000, theta := 0x123456789ABC }
def xPatSlow : State := (xPat 600).onStake 0 fun k => (k.onClock 0 fun c => { c with omega := 20000 }).wrAct 0x50180 0xFFFF0000
def aSet (c : Word48) : USet := { mask := 3, closeAt := c, period := 20000 }
def kSet (c : Word48) : Stake := (kRun fun m => { m with waiting := [(aSet c, false)] }).stake 0
def xStart : State := (kRun fun m => { m with run := false, start := some (1000, 20000) }).onStake 0 (sets [(Reg.MOD_CTRL_EN, 1)])
def xStop : State := (kRun id).onStake 0 (sets [(Reg.MOD_CTRL_EN, 1)])
def xEpo (st : Nat) : State := (kRun id).onStake 0 (sets [(Reg.MOD_STATUS_EPOCH_STATE, st)])
def xOpen (mask period : Nat) : State := (kRun id).onStake 0 fun k =>
  (sets [(Reg.MOD_SET_CTRL_IS_OPEN, 1), (Reg.MOD_SET_CTRL_WRITTEN, mask)] k).put48 Reg.MOD_SH_PERIOD (BitVec.ofNat 48 period)
def xFollower : State := base.onStake 3 (sets [(Reg.FLD_PAIR_STATUS_STATE, 2)])
def aRec : Record := ⟨.hsOn, ⟨1000, 5⟩, 0, false⟩
def xRec (link : Nat) : State := (kRun fun m => { m with ports := updAt m.ports 1 fun q => { q with recs := [aRec] } }).onStake 0
  (sets [(Reg.LEG_PORT_STATUS_LINK 1, link)])
def xAux : State := (kRun fun m => { m with auxReq := true }).onStake 0 (setsIn [(Reg.MOD_PORT_CFG_AUX_MODE 3, 2)])
def xAuxEnd : State := kRun fun m => { m with auxEnd := some 1000 }
def aCut (l : Bool) : Cut := ⟨⟨900, 0⟩, l, some 950⟩
def xCutM (l : Bool) : State := kRun fun m => { m with ports := updAt m.ports 3 fun q => { q with cut := some (aCut l) } }
def xTrig : State := (kRun fun m => { m with trig := [(2, ⟨1000, 3⟩)] }).onStake 0 (setsIn [(Reg.MOD_TRIG_ACTION 2, 5), (Reg.MOD_TRIG_ARG 2, 9)])
def xRun0 : State := kRun id

/-! Pairing. -/

/-- Stakes 0 and 1 with pairing states, both links up, the mode PARALLEL, the follower's clock on the leader's. -/
def xPair (l f : Nat) : State := (wBase.onStake 0 (setsIn [(Reg.FLD_PAIR_CTRL_MODE, 1), (Reg.FLD_PAIR_STATUS_STATE, l), (Reg.PLT_AXIS_STATE_STATE, 0)])).onStake 1
  (setsIn [(Reg.FLD_PAIR_CTRL_MODE, 1), (Reg.FLD_PAIR_STATUS_STATE, f), (Reg.PLT_AXIS_STATE_STATE, 0), (Reg.ANG_CLK_CTRL_SRC 0, 5)])
/-- The leader has set A's latest capture, and two frames have matched. -/
def xMatch : State := ((xPair 1 1).onStake 0 fun k => { k with
  sns := { k.sns with groups := [{ latest := some ⟨4, 5000, [], [], []⟩ }, {}, {}, {}] }, pair := { k.pair with matched := 2 } }).onStake 1 fun k =>
  k.onClock 0 fun c => { c with valid := true }
def xJudged : State := xMatch.onStake 0 fun k => { k with pair := { k.pair with judged := some 5000 } }
def xThree : State := xMatch.onStake 0 fun k => { k with pair := { k.pair with matched := 3 } }
def someWords : List Nat := [5000, 4 * 4294967296 + 67108864, 11, 12, 13, 14, 15, 0]
def clockWords : List Nat := [1000, 5, 6, 0x20000000, 2000, 2]
def setWords : List Nat := [1000, 5, 6, 0xA0000082, 2000, 2]
def xRunning : State := (xPair 2 2).onStake 1 (sets [(Reg.PLT_AXIS_STATE_STATE, 2)])
def xHold (now : Nat) : State := (xPair 3 5).onStake 0 fun k => { k with now := now, pair := { k.pair with holdAt := some 0 } }

/-! The leg link. -/

/-- A frame of a type with the bits of its body (R239, R240). -/
def frm (body : Nat) : Reg32 := BitVec.ofNat 32 (body * 256 + crc8 body)
/-- Stake 0 with port 1's link in a state, and all its ports fitted. -/
def xLeg (link : Nat) (f : LegPort → LegPort) : State := k0 fun k =>
  (setsIn [(Reg.LEG_PORT_CFG_PRESENT 0, 1), (Reg.LEG_PORT_CFG_PRESENT 1, 1), (Reg.LEG_PORT_CFG_PRESENT 2, 1), (Reg.LEG_PORT_STATUS_LINK 1, link),
    (Reg.PLT_AXIS_STATE_STATE, 0)] { k with now := 100000000 }).onLeg 1 f
def xLegEn (link st : Nat) : State := (xLeg link id).onStake 0 (sets [(Reg.LEG_CTRL_EN, 1), (Reg.PLT_AXIS_STATE_STATE, st)])
def xBoot (st : Nat) : State := (xLegEn 3 st).onStake 0 fun k => setsIn [(Reg.LEG_PORT_CFG_SUPPLY 1, 1), (Reg.LEG_PORT_BOOT_T_HOLD 1, 100)] k
def aTest : LegTest := { step := 2, since := some 0 }
def aTest5 : LegTest := { step := 5, since := some 0, on := some false, off := some false, gateOn := true, gateOff := true }
def aTest6 : LegTest := { step := 6, since := some 0, on := some true, off := some false, gateOn := true, gateOff := true }
def aTest7 : LegTest := { step := 7, since := some 0, on := some true, off := some false }
def xTestS (x : LegTest) : State := xLeg 3 fun q => { q with test := some x }
def xTest : State := xLeg 3 fun q => { q with test := some aTest }
def xExp (m : Nat) : State := xLeg 3 fun q => { q with expect := [(.hsOff, 5), (.hsOn, 9)], miss := m }
def xOut (l : List LegFrame) : State := xLeg 2 fun q => { q with out := l }
def xSums (link a : Nat) : State := xLeg link fun q => { q with sums := [0x123, 0x456], attempts := a }
def xSumTwice : State := xLeg 2 fun q => { q with sums := [0x123, 0x456], out := [.sumReq] }
def xNextF : State := (xLeg 3 fun q => { q with out := [.clear], kOff := 5 }).onStake 0 fun k => { k with modu := { k.modu with
  ports := updAt k.modu.ports 1 fun q => { q with recs := [⟨.lsOn, ⟨900, 0⟩, 0, false⟩, ⟨.hsOff, ⟨1000, 3⟩, 77, false⟩, ⟨.lsOn, ⟨1200, 3⟩, 78, false⟩] } } }
def aNext : LegFrame := ((xNextF.stake 0).nextFrame 1).map (·.1) |>.getD .clear
def xHb : State := xLeg 3 fun q => { q with hb := 7 }
def xHello : State := xLeg 5 fun q => { q with hello := some (frm 0x110000) }
def xLeg0 : State := xLeg 0 id
def xLeg1 : State := xLeg 1 id
def xLeg3 : State := xLeg 3 id

/-! Protection. -/

/-- Stake 0 in an axis state, with time passed, and more. -/
def kPrt (st : Nat) (l : List (Fld × Nat)) (f : Stake → Stake) : State :=
  k0 fun k => f { (setsIn ((Reg.PLT_AXIS_STATE_STATE, st) :: l) k) with now := 1000000000 }
def aTrip (p : Option Nat) : Trip := ⟨3, p, 5⟩
def ports3 : List (Fld × Nat) := [(Reg.LEG_PORT_CFG_PRESENT 0, 1), (Reg.LEG_PORT_CFG_PRESENT 1, 1), (Reg.LEG_PORT_CFG_PRESENT 2, 1)]
def xTrip (st : Nat) (p : Option Nat) : State := kPrt st ports3 fun k => { k with prt := { k.prt with trips := [aTrip p] } }
def anEp : Episode := ⟨0, 3, [1], [], [], none, false, false⟩
def anEp2 : Episode := { anEp with closed := some 400 }
def xEpisode (e : Episode) : State := kPrt 7 ports3 fun k => { k with prt := { k.prt with episode := some e } }
def aReq : F3Req := ⟨.faultinAssert, 2, 5, false⟩
def xF3 : State := kPrt 2 ports3 fun k => { k with prt := { k.prt with f3 := [aReq] } }
def xAsc : State := kPrt 7 (ports3 ++ [(Reg.PLT_PS_STATUS_SUBSTATE, 3)]) fun k => { k with prt := { k.prt with ascDue := some 9 } }
/-- An AXIS descriptor with a command code has arrived at stake 0 by pair 1; the configuration is in force and a carrier runs. -/
def xCmd (code st : Nat) (l : List (Fld × Nat)) (f : Stake → Stake) : State :=
  ((withDesc hb 1 77 2 [code]).onPkg (psets [(Reg.NVM_CFG_STATUS_IN_FORCE, 1)])).onStake 0 fun k =>
    f { setsIn ((Reg.PLT_AXIS_STATE_STATE, st) :: l) k with modu := { k.modu with run := true } }
def liveClock (k : Stake) : Stake := k.onClock 0 fun c => { c with valid := true }
def aFault (cls : Nat) : ActiveFault := ⟨⟨.posHallFault, cls, 0, 5, [5, 1], 0⟩, false, cls⟩
def withFault (cls : Nat) (k : Stake) : Stake := { k with prt := { k.prt with active := [aFault cls] } }
def xArm (st : Nat) : State := xCmd 1 st [] id
def xDisarm (st : Nat) : State := xCmd 2 st [] id
def xDisarmF : State := (xDisarm 1).onStake 0 fun k => { k with id := 1 }.put Reg.FLD_PAIR_STATUS_STATE 2
def xRun (v : Bool) : State := xCmd 3 1 [(Reg.FLD_CATCH_GAP_CATCH_AUTO, 1)] fun k => if v then liveClock k else k
def xRunNo : State := xCmd 3 0 [] id
def xTestC (st : Nat) : State := xCmd 5 st [] id
def xCatchC (st : Nat) : State := xCmd 6 st [] id
def xStopC (st : Nat) : State := xCmd 4 st [] id
def xDisch : State := xCmd 7 1 [(Reg.PLT_DIS_CFG_DIS_MODE, 1)] id
def aDisch : Discharge := ⟨1, 3, false, false, 0, false, false, false, 0, false⟩
def xStopCatch : State := (xStopC axCatch).onStake 0 fun k => { k with fe := { k.fe with catching := some (aCatch 1) } }
def xStopDis (st : Nat) : State := (xStopC st).onStake 0 fun k => { k with prt := { k.prt with discharge := some aDisch } }
def xDischIn (st : Nat) : State := xCmd 7 st [(Reg.PLT_DIS_CFG_DIS_MODE, 1)] id
def xDischCatch : State := (xDischIn axCatch).onStake 0 fun k => { k with fe := { k.fe with catching := some (aCatch 1) } }
def xDischTwice : State := (xDischIn 7).onStake 0 fun k => { k with prt := { k.prt with discharge := some aDisch } }
def xClear (st cls : Nat) : State := xCmd 8 st [(Reg.PLT_PS_STATUS_SUBSTATE, 1)] (withFault cls)
def xRecover (st : Nat) (v : Bool) : State := xCmd 9 st [] fun k => if v then liveClock k else k
def xRecoverF : State := (xRecover 7 true).onStake 0 fun k => { k with id := 1 }.put Reg.FLD_PAIR_STATUS_STATE 2
def xClearF : State := (xClear 7 3).onStake 0 fun k => { k with id := 1 }.put Reg.FLD_PAIR_STATUS_STATE 2
def xTime (st : Nat) (l : List (Fld × Nat)) : State := kPrt st l id
def xStopping : State := kPrt 2 [(Reg.PLT_AXIS_STATE_STOP_PENDING, 1)] fun k => (liveClock k).onClock 1 fun c => { c with valid := true }
def xCheck : State := kPrt 2 [] fun k => { k with prt := { k.prt with check := some (some 7, 1) } }
def xLate : State := kPrt 5 [] fun k => { k with prt := { k.prt with discharge := some ⟨1, 3, false, false, 0, false, false, false, 0, false⟩ } }
def xFall : State := (kPrt 2 [(Reg.PLT_FRESH_FB_PERMIT, 1), (Reg.PLT_AXIS_STATE_FRESH, 1)] id).onStake 1
  (sets [(Reg.FLD_FB_CTRL_EN, 1), (Reg.FLD_FB_CTRL_TARGETS, 1)])

/-! The plait. -/

def xVote (l : List (Fld × Nat)) (f : VoteState → VoteState) : State := kPrt 0 l fun k => { k with vote := f k.vote }
def oA : CoreOut := { bus := [(0x2000, 7, 15, 1)], regs := [(3, 77)] }
def oB : CoreOut := { oA with regs := [(3, 78)] }
def oC : CoreOut := { oA with bus := [(0x2004, 7, 15, 1)] }
def xVoted (m : Nat) : State := xVote [(Reg.PLT_VOTE_STATUS_MODE, m), (Reg.PLT_VOTE_CFG_RESYNC_EN, 1), (Reg.PLT_VOTE_CFG_RESYNC_TRIES, 1)] id
def xVotedNo : State := xVote [(Reg.PLT_VOTE_STATUS_MODE, 0), (Reg.PLT_VOTE_CFG_RESYNC_EN, 0)] id
def xFenced (r : Bool) : State := xVote [(Reg.PLT_VOTE_STATUS_MODE, 1), (Reg.PLT_VOTE_STATUS_FENCED, 2), (Reg.PLT_VOTE_CFG_RESYNC_EN, 1),
  (Reg.PLT_VOTE_CFG_RESYNC_TRIES, 1)] fun v => { v with resync := r }
def xHand (b : Bool) : State := xVote [(Reg.PLT_VOTE_STATUS_MODE, 3)] fun v => { v with handover := some ⟨b, none⟩ }

/-! Supply, clocks, temperature. -/

def xHeldNo : State := (base.onBoot fun b => { b with phase := .ready }).onStake 0 (sets [(Reg.SUP_STATUS_INHIBIT, 0)])
def xBlow : State := base.onBoot fun b => { b with otpJobs := [⟨[0x800, 0x801], some 5, false, 0⟩] }
def xOv : State := k0 (sets [(Reg.SUP_STATUS_OV, 1), (Reg.SUP_STATUS_OV_SEEN, 1)])
def xUp (f : Stake → Stake) : State := k0 fun k => f (setsIn [(Reg.SUP_STATUS_INHIBIT, 0), (Reg.CLK_STATUS_PLL_LOCK, 1), (Reg.CLK_STATUS_REF_OK, 1)] k)
def xMclk (m : Nat) : State := xUp (setsIn [(Reg.SNS_MCLK_EN 2, 1), (Reg.CLK_STATUS_MCLK_FAULT, m)])
def xDie : State := xUp (sets [(Reg.THM_CTRL_EN, 1), (Reg.THM_SENS_CFG_EN 4, 1)])
def xGrace : State := xUp fun k => { k with now := 1000000000, thm := updAt k.thm 2 fun t => { t with grace := some 3 } }
/-- Stake 0 with settings that R310 takes. -/
def xGood : State := kPrt 0 ([12, 13].flatMap (fun c => [(Reg.SNS_CH_CFG_FAST_CLASS c, 2), (Reg.SNS_CH_VOLT_SCALE_VOLT_SCALE c, 500),
    (Reg.SNS_CH_FAST_THR_HI c, 10), (⟨Reg.SNS_CH_GAIN c + 4, 0, 16⟩, 4096)]) ++
  [(Reg.FLD_MAP_UDC_A, 12), (Reg.FLD_MAP_UDC_B, 13), (Reg.PLT_UDC_CHOP_CHOP_OFF, 100), (Reg.PLT_UDC_CHOP_CHOP_ON, 110),
    (Reg.PLT_UDC_REGEN_REGEN_REL, 111), (Reg.PLT_UDC_REGEN_REGEN_LIMIT, 120), (Reg.PLT_UDC_TRIP_UDC_ASC, 130), (Reg.PLT_UDC_TRIP_UDC_ABS, 14000),
    (Reg.PLT_FRESH_T_FRESH, 5), (Reg.PLT_FRESH_T_LOSS, 9), (Reg.PLT_DIS_CFG_DIS_MODE, 0), (Reg.PLT_CHOP_CFG_CHOP_EN, 0)]) id

/-! The host interface. -/

/-- `hb` with a fetch under way on every pair. -/
def hf : State := hb.onHost fun h => { h with rings := h.rings.map fun q => { q with fetching := 1 } }
def hTails : State := (hb.onRing 1 fun q => { q with sqTail := 2 }).onRing 2 fun q => { q with sqTail := 3 }
def desc64 (op cid prio : Nat) (body : List Nat) : List Nat := [op, 0] ++ bytesN 2 cid ++ [prio, 0, 0, 0] ++ body
def hfLost : State := hf.onPkg (psets [(Reg.HIF_PKG_ALIVE_ALIVE, 3)])
def hData : State := withDesc hb 2 77 0x11 []
def hSent : State := hb.onHost fun h => { h with descs := [dsc 1 1 1 [], { dsc 6 77 1 [] with there := false }] }
def hUnknown : State := withDesc hb 2 77 0x66 []
def hMsix (l : List (Nat × Nat)) : State := (hb.onHost fun h => { h with msix := updAt h.msix 3 fun _ => (2, some 0) }).onPkg fun p =>
  l.foldl (fun q x => q.wr x.1 (BitVec.ofNat 32 x.2)) p
def hEvents (free : Nat) : State := ((hb.postPkg .hifBadAccess 0 [3]).postPkg .hifBadAccess 0 [4]).onRing 0 fun q => { q with cqFree := free }
def hSet (st : Nat) : State := (withDesc hb 1 77 1 [2, 0]).onStake 0 (sets [(Reg.PLT_AXIS_STATE_STATE, st)])
def setBody : List Nat := [8, 0, 0, 0, 0, 0, 0, 0] ++ [1, 1, 0, 0, 2, 0, 0, 0, 3, 0, 0, 0]
def hMod (st : Nat) : State := (withDesc hb 1 78 3 setBody).onStake 0 (sets [(Reg.PLT_AXIS_STATE_STATE, st)])
def regBody (addr : Nat) : List Nat := [1, 0, 0, 0, 0, 0, 0, 0] ++ bytesN 4 addr ++ bytesN 4 0x80000000
def hReg (addr lock : Nat) : State := withDesc (hb.onPkg (psets [(Reg.HIF_SETUP_LOCK_LOCK, lock)])) 2 79 0x10 (regBody addr)
def tblBody : List Nat := [0, 0, 0, 0, 0, 0, 0, 0] ++ bytesN 4 0xA0000 ++ bytesN 4 16
def hTbl (r : Nat) : State := withDesc hb r 80 0x11 tblBody
def aTune : Tune := { ring := 2, cid := 5, op := 0x10, target := 0, writes := [(Reg.THM_CTRL, 0x80000000)], at_ := 0 }
def hTune (b : Nat) : State := (hb.onHost fun h => { h with tune := [aTune] }).onStake 0 fun k => { k with bounds := b }
def ringBody (cls : Nat) : List Nat := [9, 0, cls, 3, 0, 4, 5, 7] ++ bytesN 8 0x10000 ++ bytesN 8 0x20000
def hNew (cls : Nat) : State := withDesc hb 0 81 0x40 (ringBody cls)
def hDel (q : Nat) : State := withDesc hb 0 82 0x41 [q, 0]
def hDelRun : State := withDesc (hSet 0) 0 82 0x41 [1, 0]
def hDelTune : State := withDesc (hReg Reg.THM_CTRL 0) 0 82 0x41 [2, 0]
def getBody (w : Nat) : List Nat := bytesN 8 0x5000 ++ bytesN w (if w = 4 then 1280 else 0) ++ [255]
def hGet (op : Nat) (f : State → State) : State := withDesc (f hb) 0 83 op (getBody (if op = 0x42 then 4 else 2))
def hFaulty (s : State) : State := s.onStake 2 (withFault 4)
def hOneEvent (s : State) : State := s.postPkg .hifBadAccess 0 [3]
def hMode (p : Part) (st : Nat) : State := { (withDesc hb 0 85 0x44 [2, 1]).onStake 2 (sets [(Reg.PLT_AXIS_STATE_STATE, st)]) with part := p }
def hAdmin : State := hb.onPkg fun p => p.putB Reg.HIF_ADMIN_CFG_EN true
def hLocked : State := hb.onPkg fun p => p.putB Reg.HIF_SETUP_LOCK_LOCK true
def hPend : State := (hb.onPkg fun p => p.wr (Reg.HIF_MSIX_PBA 0) 8).onBoot fun b => { b with phase := .ready }
def phased (p : Phase) (s : State) : State := s.onBoot fun b => { b with phase := p }

/-! The networks. -/

/-- Both CAN controllers enabled. -/
def kCan (l : List (Fld × Nat)) : State := p0 (psets ([(Reg.CAN_CTRL_EN 0, 1), (Reg.CAN_CTRL_EN 1, 1)] ++ l))
def aFrame : CanFrame :=
  { ide := false, id := 5, fdf := false, brs := false, esi := false, rtr := false, dlc := 3, data := [1, 2, 3], ago := 77, own := false }
def cBuf (i full rec : Nat) : State :=
  kCan [(cbEn 0 i, 1), (cbId 0 i, 5), (cbMask 0 i, 0x7FF), (cbFull 0 i, full), (Reg.CAN_STATUS_REC 0, rec)]
def cFull : State := kCan [(cbFull 1 5, 1), (cbRxSeq 1 5, 3)]
def cTx (req : Nat) (gone : List Nat) : State := ((kCan [(cbDir 1 5, 1), (cbEn 1 5, 1), (cbTxReq 1 5, req)]).onCan 1 fun x => { x with cancelled := gone }).onStake 1
  fun k => { k with now := 1000 }
def cOff : State := kCan [(Reg.CAN_STATUS_STATE 1, 2)]
def nWrap : State := base.onNet fun x => { x with usWrap := true }
def nSlave : State := kCan [(Reg.CAN_CTRL_TT_EN 1, 1), (Reg.CAN_CTRL_TT_ROLE 1, 0)]
def nMaster : State := (kCan [(Reg.CAN_STATUS_TT_RUN 1, 1), (Reg.CAN_CTRL_TT_ROLE 1, 1)]).onStake 1 fun k => { k with now := 400 * 20000 }
def nEntry : State := nMaster.onPkg fun p => psets [(cbEn 1 6, 1), (cbDir 1 6, 1)] (p.wr 0x816000 0x42)
def nExcl : State := nMaster.onCan 1 fun x => { x with excl := some (3, 0) }
def nStats : State := p0 (psets [(Reg.CAN_STAT_CFG_STAT_EN, 1)])
def nEth (st one : Nat) (f : NetSt → NetSt) : State :=
  (p0 (psets [(Reg.ETH_CTRL_EN, 1), (Reg.ETH_STATUS_TIME_STATE, st), (Reg.ETH_STATUS_AS_CAPABLE, 1), (Reg.ETH_CTRL_ONE_STEP, one)])).onNet f
def nSync (st : Nat) : State := nEth st 0 id
def nPd (wait : Bool) : State := nEth 2 0 fun x => if wait then { x with pdWait := some (3, 800) } else { x with pdReq := (3, some ⟨8, 1⟩) }
def nThree : State := nEth 1 0 fun x => { x with syncOk := 3 }
def nFollow : State := nEth 2 0 fun x => { x with syncWait := some (3, ⟨8, 1⟩) }
def nLate : State := (nSync 2).onStake 0 fun k => { k with now := 150000000 }
def nFar : State := (nSync 1).onPkg fun p => p.wr Reg.ETH_OFFSET_EST 100001
def nTimeout : State := (nSync 3).onStake 0 fun k => { k with now := 24400000000 }

/-! Starting and storing. -/

def okRes : UpsettRes := ⟨false, false, 0, [], 0, 0, 0, 0, 0, 0, 0, 0, 0, 0⟩
def okAll : List UpsettRes := List.replicate 8 okRes
def firstBad0 : List UpsettRes := { okRes with cores := 3 } :: List.replicate 7 { okRes with cores := 4 }
def inPhase (p : Phase) : State := phased p base
def resetUpsett : State := phased .upsett State.reset
def dist (fw : Nat) (l : List Nat) : State :=
  ((inPhase .distribution).onBoot fun b => { b with running := List.replicate 8 0 ++ bytesN 4 64, distDone := l }).onStake 3 fun k =>
    { k with wal := { k.wal with fwBytes := fw }, now := 5000000 }
def cfgCopy : CfgCopy := cfgForm 5 [1, 2, 3]
def withCfg : State := (inPhase .configuration).onNv fun n => n.copySteps [0, 1] cfgCopy (2 * copyOps)
def rewriting : State := (inPhase .ready).onBoot fun b => { b with rewrite := [2], chosen := cfgCopy }
def calm : State := (inPhase .ready).onAll (sets [(Reg.PLT_AXIS_STATE_STATE, 0)])
def cwBody (g : Nat) : List Nat := bytesN 8 0x9000 ++ bytesN 4 5 ++ bytesN 6 g ++ [0, 0] ++ [1, 0]
def hCfg (g inh : Nat) : State := (withDesc hb 5 90 0x30 (cwBody g)).onStake 0 (sets [(Reg.SUP_STATUS_INHIBIT, inh)])
def cfgJob : CfgOp := { ring := 5, cid := 90, copy := cfgForm 1 [1, 2, 3], digests := 3 }
def hCfgOp : State := ((hCfg 1 0).onBoot fun b => { b with cfgOp := some cfgJob, phase := .ready })
def fsBody : List Nat := bytesN 8 0x9000 ++ bytesN 4 64 ++ bytesN 4 0x10000 ++ [1]
def hFw : State := (withDesc hb 5 91 0x31 fsBody).onNv fun n => { n with flash := [(0x400000, 5), (0x410000, 6), (0x420000, 7)] }
def fwJob : FwOp := { ring := 5, cid := 91, slot := 1, off := 0x10000, data := [1, 2, 3, 4, 5, 6, 7, 8] }
def hFwOp : State := hFw.onBoot fun b => { b with fwOp := some fwJob }
def hCommit (busy : Bool) : State := (withDesc hb 5 92 0x32 [1]).onBoot fun b => { b with sealOp := if busy then some (.boot, []) else none }
def atBody (n : Nat) : List Nat := bytesN 8 0x9000 ++ bytesN 4 n ++ List.replicate 32 7
def hAtt (n : Nat) : State := withDesc hb 0 93 0x45 (atBody n)
def hSeal (n : Nat) : State := hb.onBoot fun b => { b with sealOp := some (.cfg .write, []), cfgOp := some { cfgJob with digests := n } }
def hSealRw : State := rewriting.onBoot fun b => { b with sealOp := some (.cfg .rewrite, []), rwOp := some 2 }
def hSealCommit (inh : Nat) : State := ((withDesc hb 5 92 0x32 [1]).onBoot fun b => { b with sealOp := some (.commit 5 92 1, []) }).onStake 0
  (sets [(Reg.SUP_STATUS_INHIBIT, inh)])
def hSealAtt : State := (hAtt 1536).onBoot fun b => { b with sealOp := some (.attest 0 93 0x9000 [7], [1, 2]) }
def hOtp (l : List Nat) : State := hb.onBoot fun b => { b with otpJobs := [⟨l, some 0, true, 0⟩] }
def hErase : State := hb.onBoot fun b => { b with erasing := true }

/-! One step or one computation each; the numbers are those of the spec's worked examples or follow from the rule named. -/

/-- The outcome is a next state with a property. -/
def after (o : Host.Outcome State Fault Refusal) (f : State → Bool) : Bool := match o with | .next t => f t | _ => false

/-- 00_scope.md, worked example: half a unit, minus one unit, a quarter turn. -/
theorem test_values : w48 (one44 / 2) = 0x080000000000 ∧ w48 (-one44) = 0xF00000000000 ∧ w48 (rev48 / 4) = 0x400000000000 := by decide

/-- R6: an access of two bytes reads all-ones. -/
theorem test_bad_access : after (exec (.badWidthAccess false 4 2) base) fun t => t.pkg.hostReads = [(4, 0xFFFFFFFF)] ∧ t.pkg.evq.length = 1 := by decide +kernel

/-- R16, R39: a stake that is not alive reads as all-ones. -/
theorem test_absent : (xLost.readAddr 0x200000).1 = 0xFFFFFFFF := by decide +kernel

/-- R19 and the worked example of 01_architecture.md: on a ring of eight, stakes 1 to 3 reach stake 0 descending, stakes 4 to 7 ascending. -/
theorem test_ways : ([1, 2, 3, 4, 5, 6, 7].map fun n => (wBase.stake n).way 8 0) = [.dsc, .dsc, .dsc, .asc, .asc, .asc, .asc] := by decide +kernel

/-- 02_time_and_angle.md, worked example: entry 9 falls due with effect at (50,003, 13), and the step back fires nothing. -/
def cExample (look step : Int) : Clock := { valid := true, prevL := w48 (look - step), theta := w48 (look - 4 * 703687442), omega := 703687442 }
theorem test_crossing : crossing (cExample 403687442 703687442) 0 0 = some (300000000, false) ∧
    crossInstant 50000 false 300000000 703687442 = ⟨50003, 13⟩ ∧
    crossing (cExample (-266733657640) (-274174219502)) 0 0 = none := by decide +kernel

/-- 02_time_and_angle.md, worked example: of twelve firings in a tick eight are dispatched and four carried. -/
theorem test_burst : let k := (List.range 12).foldl (fun (q : Stake) i => q.dispatch ⟨i + 3, 0, 0, ⟨1000, 0⟩, 0⟩) (base.stake 0)
    (k.ang.acts.map (·.entry), k.ang.carried.map (·.1.entry), k.rd Reg.ANG_DEFER_CNT) =
      ([3, 4, 5, 6, 7, 8, 9, 10], [11, 12, 13, 14], 4) := by decide +kernel

/-- R69: a counter cleared in the tick of an increment reads 1. -/
theorem test_sat_clear : after (exec (.satClear 0x230018 1) (base.onStake 2 fun k => k.wr 0x30018 0x80000007))
    fun t => (t.stake 2).rd 0x30018 = 1 := by decide +kernel

/-- 03_sensing.md, worked example: `GAIN` 8/3 of r = 0.375 is 1.0 per-unit; the fast value at S₂ = 57 is 25,600, at S₂ = 56 24,576. -/
theorem test_gain : divNear (46912496118443 * (one44 * 3 / 8)) 17592186044416 = one44 := by decide +kernel
theorem test_fast_value : sinc2 8 ((List.range 15).map fun i => i ≠ 6) = 25600 ∧ sinc2 8 ((List.range 15).map fun i => i ≠ 7) = 24576 := by
  decide +kernel

/-- 04_position_and_speed.md, worked example: the speeds of an encoder of 2,048 lines with four pole pairs. -/
def kEnc : Stake := sets [(Reg.POS_ENC_CFG_LINES_M1, 2047), (Reg.POS_CTRL_POLE_PAIRS, 4)] (base.stake 0)
theorem test_speeds : kEnc.encAngle 1 = 0x002000000000 ∧ [40000, 40192, 80128].map (kEnc.stepSpeed 1 1) = [3435973, 3419559, 1715242] := by
  decide +kernel

/-- 06_modulation.md, worked example: a set closed at 99,992 is late for 100,000 and taken at 120,000; the on-time of 7,200 ticks becomes
6,600 under C = 7,000 with `MIN_PULSE` 400. -/
theorem test_late_set : ((kSet 99992).dueSet 100000).1 = none ∧ ((kSet 99992).dueSet 100000).2.rd Reg.MOD_LATE_SETS = 1 ∧
    (((kSet 99992).dueSet 100000).2.dueSet 120000).1 = some (aSet 99992) := by decide +kernel
theorem test_on_clamp : (setsIn [(Reg.MOD_MINPULSE_MIN_PULSE, 400)] (base.stake 0)).clampOn 7000 (32 * 7200) = (32 * 6600, true) := by decide +kernel

/-- 08_leg_link.md, worked example: the NEXT frame of the commutation carries `TAG` 4, `OFF_PROF` 1, `ON_PROF` 6, bits 31:8 `0x14_1600`. -/
def kNext : Stake :=
  let k := setsIn [(Reg.LEG_PORT_STATUS_LINK 0, 3), (Reg.LEG_PORT_IBAND0_I_B1 0, 205), (Reg.LEG_PORT_IBAND0_I_B2 0, 819),
    (Reg.LEG_PORT_IBAND1_I_B3 0, 2048), (Reg.LEG_PORT_TBAND0_T_B1 0, 960), (Reg.LEG_PORT_TBAND0_T_B2 0, 1440),
    (Reg.LEG_PORT_TBAND1_T_B3 0, 1760), (Reg.LEG_PORT_SEL_OFF_LO_E1 0, 1), (Reg.LEG_PORT_SEL_ON_HI_E9 0, 6),
    (Reg.LEG_CTRL_WL_SKEW, 8), (Reg.LEG_PORT_TEMP_MODULE 0, 1384)] (base.stake 0)
  let k := k.onLeg 0 fun q => { q with tempEver := true, kOff := 36 % 16 }
  { k with now := 100000, ang := { k.ang with tick := 100000 }, modu := { k.modu with ports := updAt k.modu.ports 0 fun q =>
    { q with recs := [⟨.lsOff, ⟨102460, 12⟩, 1638, false⟩, ⟨.hsOn, ⟨102508, 12⟩, 1638, false⟩] } } }
theorem test_next_frame : kNext.nextFrame 0 = some (.next 4 1 6, ⟨102460, 12⟩) ∧ LegFrame.body (.next 4 1 6) = 0x141600 := by decide +kernel

/-- 08_leg_link.md, worked example: the latest start of a refresh, t_L = 799,504. -/
theorem test_refresh_latest : ((setsIn [(Reg.LEG_PORT_BOOT_T_HOLD 1, 2000), (Reg.LEG_PORT_BOOT_T_REFRESH 1, 400), (Reg.MOD_PORT_DT_DT_IL 1, 48),
    (Reg.MOD_STATUS_FDT, 0)] (base.stake 0)).refreshLatest 1) = 799504 := by decide +kernel

/-- 12_vehicle_networks.md, worked example: the fallback signal 614/1,024, 10,548,439,678,976 in Q4.44. -/
def fbFrame : CanFrame := { aFrame with dlc := 8, data := [0, 0x35, 0x66, 0x02, 0, 0, 0, 0] }
theorem test_fallback_signal : canField fbFrame 8 4 = 5 ∧ (((p0 (psets [(Reg.CAN_FB_SIG_FB_START, 16), (Reg.CAN_FB_SIG_FB_LEN_M1, 9),
    (Reg.CAN_FB_SIG_FB_ALIVE_EN, 1), (Reg.CAN_FB_SIG_FB_ALIVE_START, 8)])).onNet fun x => { x with alive := some 4 }).canFallback fbFrame
    |>.stake 1).fe.canX = 10548439678976 := by decide +kernel

/-- The queue: the oldest command acts and the rest waits. -/
theorem test_queue : after (step { base with pending := [.dischReqAssert 4000, .canUsWrap] }) fun t => t.pending = [.canUsWrap] := by decide +kernel

/-- No word spells a command. -/
theorem test_no_word : decodeTableWord 32 0 = none ∧ State.reset.withFetchWord 32 0 = State.reset := by decide +kernel

/-- 15_pins_and_electrical.md, worked example: two balls of TRN8. -/
theorem test_balls : ballAt 8 3 26 = some "S3_LEG1_EDGE_P" ∧ ballAt 8 26 19 = some "S5_SDD9" := by decide +kernel

/-! Ill-formed commands, refused check by check. -/

theorem test_wf_stake : Instr.wellFormed (.anchorLost 8) = false ∧ Instr.wellFormed (.anchorLost 7) = true := by decide
theorem test_wf_port : Instr.wellFormed (.cutEnd 0 4) = false ∧ Instr.wellFormed (.cutEnd 0 3) = true := by decide
theorem test_wf_clock : Instr.wellFormed (.measurementProcess 0 2) = false := by decide
theorem test_wf_entry : Instr.wellFormed (.tickEntryDue 0 127) = false ∧ Instr.wellFormed (.tickEntryDue 0 126) = true := by decide
theorem test_wf_channel : Instr.wellFormed (.channelStuck 0 16 []) = false := by decide
theorem test_wf_group : Instr.wellFormed (.captureComplete 0 4 []) = false := by decide
theorem test_wf_ring : Instr.wellFormed (.ringCreate 256) = false ∧ Instr.wellFormed (.ringCreate 255) = true := by decide
theorem test_wf_stream : Instr.wellFormed (.pktTimeout 0 16) = false := by decide
theorem test_wf_sensor : Instr.wellFormed (.thmGraceExpire 0 6) = false := by decide
theorem test_wf_can : Instr.wellFormed (.canRefSend 2) = false := by decide
theorem test_wf_can_buffer : Instr.wellFormed (.canCtrlReadLatch 0 68) = false := by decide
theorem test_wf_address : Instr.wellFormed (.lowWordReadLatch 0x1000000) = false := by decide
theorem test_wf_edge_source : Instr.wellFormed (.standstillTimeout 0 3) = false := by decide
theorem test_wf_bytes : Instr.wellFormed (.descriptorArrival 0 [256]) = false := by decide
theorem test_wf_width : Instr.wellFormed (.waleReservedKind 0 16) = false := by decide
theorem test_wf_cell_words : Instr.wellFormed (.pairClockMeasurement 0 [0, 0, 0, 0, 0, 0, 0, 0, 0]) = false := by decide
theorem test_wf_cell : Instr.wellFormed (.waleCellSlot 0 .asc (some ⟨0, 0, 0, 0, some { aCell with cls := 4 }⟩)) = false := by decide
theorem test_wf_link : Instr.wellFormed (.waleCellSlot 0 .asc (some ⟨1024, 0, 0, 0, none⟩)) = false := by decide
theorem test_wf_can_frame : Instr.wellFormed (.canFrameReceived 0 { aFrame with id := 2048 }) = false ∧
    Instr.wellFormed (.canFrameReceived 0 aFrame) = true := by decide
theorem test_wf_upsett : Instr.wellFormed (.upsettComplete [{ okRes with cores := 8 }]) = false := by decide
theorem test_wf_cores : Instr.wellFormed (.voterDissent 0 oA oB {}) = false ∧ Instr.wellFormed (.voterDissent 0 oA oB oA) = true := by decide
theorem test_wf_margins : Instr.wellFormed (.waleMarginMeasure 0 .asc [300]) = false := by decide
theorem test_wf_epoch : Instr.wellFormed (.tickAlignmentCell 1 0 10 0 true 32) = false := by decide
/-! Each statement that has hypotheses: a state and operands that meet them, clause by clause. -/

theorem witness_StepRunsFront : { base with pending := [Instr.anchorLost 2] }.pending = Instr.anchorLost 2 :: [] := rfl

/-- A state with the shape every step keeps, and its step. -/
theorem witness_ShapeKept : xMain.Shape ∧ step xMain = .next xMain.tick :=
  ⟨⟨by decide +kernel, by decide +kernel, by decide +kernel, by decide +kernel, by decide +kernel, by decide +kernel⟩, rfl⟩

theorem witness_OneTimeKept : xMain.Shape ∧ step xMain = .next xMain.tick := witness_ShapeKept

/-- The frames of NetworkTime's seventh clause: one that is dropped, and the states that answer each of the manager's own. -/
theorem witness_NetworkTime_frames :
    (EthFrame.mk 0x0180C200000E 0x0800 true (.announce none)).etherType ≠ 0x88F7 ∧ (nPd false).managerRuns = true ∧
    (nPd false).pkg.net.pdReq = (3, some ⟨8, 1⟩) ∧ (nPd true).managerRuns = true ∧ (nPd true).pkg.net.pdWait = some (3, 800) ∧
    nFollow.managerRuns = true ∧ nFollow.pkg.net.syncWait = some (3, ⟨8, 1⟩) ∧ (nSync 1).managerRuns = true ∧
    (nSync 1).pkg.flag Reg.ETH_STATUS_AS_CAPABLE = true := by
  and_intros <;> decide +kernel

/-- The seal unit's operations of SealAndStore's seventh clause, each with what it needs. -/
theorem witness_SealAndStore_ops :
    ((hSeal 0).pkg.boot.sealOp = some (.cfg .write, []) ∧ (hSeal 0).pkg.boot.cfgOp = some { cfgJob with digests := 0 } ∧
      (hSeal 0).readDone cfgJob.ring cfgJob.cid = true) ∧
    (hSealRw.pkg.boot.sealOp = some (.cfg .rewrite, []) ∧ hSealRw.pkg.boot.rwOp = some 2) ∧
    ((hSealCommit 0).pkg.boot.sealOp = some (.commit 5 92 1, []) ∧ (hSealCommit 0).underWay 5 92) ∧
    (hSealAtt.pkg.boot.sealOp = some (.attest 0 93 0x9000 [7], [1, 2]) ∧ hSealAtt.underWay 0 93) := by
  and_intros <;> first | decide +kernel | rfl | exact underWay_of (by decide +kernel)

theorem witness_BadWidthAccess :
    3 < 16777216 ∧ (¬(2 = 4 ∧ 3 % 4 = 0)) ∧ 16777215 < 16777216 ∧ (¬(4 = 4 ∧ 16777215 % 4 = 0)) := by
  decide +kernel

theorem witness_ClockAdvances :
    xMain.pending = [] ∧ xMain.clocked = true ∧ xMain.pkg.boot.resetDue = none ∧ xMain.present 0 = true ∧ (xMain.stake 0).stopped = false ∧
    0 < 2 ∧ ((xMain.stake 0).clock 0).valid = true ∧ ((xMain.stake 0).clock 0).next = none := by
  decide +kernel

theorem witness_TickWrapAndExtrapolation :
    xWrap.present 0 = true ∧ (xWrap.stake 0).ang.wrapPend = true ∧ xSilent.present 0 = true ∧ 0 < 2 ∧ ((xSilent.stake 0).clock 0).valid = true ∧
    (xSilent.stake 0).flag (Reg.ANG_CLK_CTRL_EN 0) = true ∧ scheduledSrc ((xSilent.stake 0).clkSrc 0) = true ∧
    ((xSilent.stake 0).clock 0).lastMeas + 400 * (xSilent.stake 0).fld (Reg.ANG_CLK_EXTRAP_EXTRAP_MAX 0) ≤ (xSilent.stake 0).now := by
  decide +kernel

theorem witness_MeasurementTaken :
    (xMeas 5 0 false).present 0 = true ∧ 0 < 2 ∧
    (((xMeas 5 0 false).stake 0).clock 0).mail = [{ m := 5, tm := 0, speed := 5, rev := false : Meas }] ∧
    ((xMeas 5 0 false).stake 0).flag (Reg.ANG_CLK_CTRL_EN 0) = true ∧ (xMeas 5 0 true).present 0 = true ∧
    (((xMeas 5 0 true).stake 0).clock 0).mail = [{ m := 5, tm := 0, speed := 5, rev := false : Meas }] ∧
    ((xMeas 5 0 true).stake 0).flag (Reg.ANG_CLK_CTRL_EN 0) = true ∧ (xMeas 123145302310912 0 true).present 0 = true ∧
    (((xMeas 123145302310912 0 true).stake 0).clock 0).mail = [{ m := 123145302310912, tm := 0, speed := 5, rev := false : Meas }] ∧
    ((xMeas 123145302310912 0 true).stake 0).flag (Reg.ANG_CLK_CTRL_EN 0) = true ∧ (xMeas 5 (-5000) true).present 0 = true ∧
    (((xMeas 5 (-5000) true).stake 0).clock 0).mail = [{ m := 5, tm := -5000, speed := 5, rev := false : Meas }] ∧
    ((xMeas 5 (-5000) true).stake 0).flag (Reg.ANG_CLK_CTRL_EN 0) = true := by
  decide +kernel

theorem witness_EntriesFallDue :
    xCross.present 0 = true ∧ (xCross.stake 0).entryLive 5 0 = true ∧ ((xCross.stake 0).entry 5).spent = false ∧
    ((xCross.stake 0).clock ((xCross.stake 0).entry 5).src).valid = true ∧
    crossing ((xCross.stake 0).clock ((xCross.stake 0).entry 5).src) ((xCross.stake 0).entry 5).tgt ((xCross.stake 0).entry 5).dir = some (100, false) ∧
    (xTick 1004).present 0 = true ∧ ((xTick 1004).stake 0).entryLive 5 1 = true ∧ ((xTick 1004).stake 0).ang.firedNow.contains 5 = false ∧
    lateFiring ((xTick 1004).stake 0).ang.tick (((xTick 1004).stake 0).entry 5) (((xTick 1004).stake 0).entry 5).tgt = false ∧
    ((xTick 1004).stake 0).ang.tick + 4 = (((xTick 1004).stake 0).entry 5).tgt ∧ (xTick 7).present 0 = true ∧
    ((xTick 7).stake 0).entryLive 5 1 = true ∧ ((xTick 7).stake 0).ang.firedNow.contains 5 = false ∧
    lateFiring ((xTick 7).stake 0).ang.tick (((xTick 7).stake 0).entry 5) (((xTick 7).stake 0).entry 5).tgt = true ∧ xDefer.present 0 = true ∧
    (xDefer.stake 0).entryLive 5 1 = true ∧ (xDefer.stake 0).ang.firedNow.contains 5 = false ∧
    lateFiring (xDefer.stake 0).ang.tick ((xDefer.stake 0).entry 5) ((xDefer.stake 0).entry 5).tgt = false ∧
    (xDefer.stake 0).ang.tick + 4 = ((xDefer.stake 0).entry 5).tgt ∧ (xPer 1004).present 0 = true ∧ ((xPer 1004).stake 0).entryLive 5 2 = true ∧
    ((xPer 1004).stake 0).ang.firedNow.contains 5 = false ∧
    lateFiring ((xPer 1004).stake 0).ang.tick (((xPer 1004).stake 0).entry 5) (((xPer 1004).stake 0).entry 5).next = false ∧
    ((xPer 1004).stake 0).ang.tick + 4 = (((xPer 1004).stake 0).entry 5).next ∧ (xPer 900).present 0 = true ∧
    ((xPer 900).stake 0).entryLive 5 2 = true ∧ ((xPer 900).stake 0).ang.firedNow.contains 5 = false ∧
    lateFiring ((xPer 900).stake 0).ang.tick (((xPer 900).stake 0).entry 5) (((xPer 900).stake 0).entry 5).next = true ∧
    (xBnd 8).present 0 = true ∧ ((xBnd 8).stake 0).entryLive 5 3 = true ∧ ((xBnd 8).stake 0).ang.firedNow.contains 5 = false ∧
    ((xBnd 8).stake 0).modu.run = true ∧
    (¬(laterTick ((xBnd 8).stake 0).modu.nextB ((xBnd 8).stake 0).ang.tick = true ∧ ((xBnd 8).stake 0).ang.tick + 4 = ((xBnd 8).stake 0).modu.nextB + w48 ↑(BitVec.toNat (((xBnd 8).stake 0).entry 5).tgt % 4294967296))) ∧
    ((xBnd 8).stake 0).ang.bndDone.contains (5, ((xBnd 8).stake 0).ang.period.fst) = false ∧
    BitVec.toNat (((xBnd 8).stake 0).entry 5).tgt % 4294967296 < ((xBnd 8).stake 0).ang.period.snd ∧
    ((xBnd 8).stake 0).ang.tick + 4 = ((xBnd 8).stake 0).ang.period.fst + w48 ↑(BitVec.toNat (((xBnd 8).stake 0).entry 5).tgt % 4294967296) ∧
    xBndAhead.present 0 = true ∧ (xBndAhead.stake 0).entryLive 5 3 = true ∧ (xBndAhead.stake 0).ang.firedNow.contains 5 = false ∧
    (xBndAhead.stake 0).boundaryAhead = some 1003 ∧ laterTick 1003 (xBndAhead.stake 0).ang.tick = true ∧
    (xBndAhead.stake 0).ang.tick + 4 = 1003 + w48 ↑(BitVec.toNat ((xBndAhead.stake 0).entry 5).tgt % 4294967296) := by
  decide +kernel

theorem witness_BoundarySkipped :
    (xBnd 400).present 0 = true ∧ ((xBnd 400).stake 0).entryLive 5 3 = true ∧ ((xBnd 400).stake 0).ang.firedNow.contains 5 = false ∧
    ((xBnd 400).stake 0).modu.run = true ∧
    (¬(laterTick ((xBnd 400).stake 0).modu.nextB ((xBnd 400).stake 0).ang.tick = true ∧ ((xBnd 400).stake 0).ang.tick + 4 = ((xBnd 400).stake 0).modu.nextB + w48 (↑(BitVec.toNat (((xBnd 400).stake 0).entry 5).tgt) % 4294967296))) ∧
    ((xBnd 400).stake 0).ang.bndDone.contains (5, ((xBnd 400).stake 0).ang.period.fst) = false ∧ 0 < ((xBnd 400).stake 0).ang.period.snd ∧
    ((xBnd 400).stake 0).ang.period.snd ≤ BitVec.toNat (((xBnd 400).stake 0).entry 5).tgt % 4294967296 := by
  decide +kernel

theorem witness_InvalidClockHolds :
    xDead.present 0 = true ∧ ((xDead.stake 0).entry 5).trig = 0 ∧ ((xDead.stake 0).clock ((xDead.stake 0).entry 5).src).valid = false ∧
    Instr.angleEntryDue 0 5 ∈ [Instr.angleEntryDue 0 5, Instr.entryRearm 0 5, Instr.directionRearm 0 0, Instr.directionRearm 0 1] := by
  decide +kernel

theorem witness_EntriesRearmAndQueue :
    xSpent.present 0 = true ∧ 5 < 127 ∧ ((xSpent.stake 0).entry 5).trig = 0 ∧ ((xSpent.stake 0).entry 5).spent = true ∧
    ((xSpent.stake 0).clock ((xSpent.stake 0).entry 5).src).valid = true ∧ (xSpent.stake 0).ang.firedNow.contains 5 = false ∧
    ((xSpent.stake 0).fld Reg.ANG_SCHED_CTRL_REARM_BAND * 4294967296 ≤ if ((xSpent.stake 0).entry 5).sigmaRev = true then BitVec.toNat (((xSpent.stake 0).clock ((xSpent.stake 0).entry 5).src).look - ((xSpent.stake 0).entry 5).tgt) else BitVec.toNat (((xSpent.stake 0).entry 5).tgt - ((xSpent.stake 0).clock ((xSpent.stake 0).entry 5).src).look)) ∧
    (if ((xSpent.stake 0).entry 5).sigmaRev = true then BitVec.toNat (((xSpent.stake 0).clock ((xSpent.stake 0).entry 5).src).look - ((xSpent.stake 0).entry 5).tgt) else BitVec.toNat (((xSpent.stake 0).entry 5).tgt - ((xSpent.stake 0).clock ((xSpent.stake 0).entry 5).src).look)) ≤ 140737488355328 ∧
    ((xSpent.stake 0).clock 0).toggledPrev = true ∧ ((xSpent.stake 0).clock 0).valid = true ∧ xCarried.present 0 = true ∧ base.alive 0 = true ∧
    (base.locked && closedTo Src.host (Reg.ANG_ENT_CTRL 5)) = false ∧
    commitInRange (entCtl 0 0 1 7 0 0) ((base.stake 0).rd (Reg.ANG_ENT_IVL 5)).toNat = true ∧
    xOff.admits Src.host 0 Reg.ANG_SCHED_CTRL 2147488308 ∧ BitVec.getLsbD (2147488308 : BitVec 32) 31 = true ∧
    (xOff.stake 0).flag Reg.ANG_SCHED_CTRL_EN = false := by
  and_intros <;> first | decide +kernel | exact admits_of (by decide +kernel)

theorem witness_SchedulerActions :
    (xAct 0 0).present 0 = true ∧ ((xAct 0 0).stake 0).due 5 0 (anAct 0 0) ∧ (xAct 5 3).present 0 = true ∧
    ((xAct 5 3).stake 0).due 5 5 (anAct 5 3) ∧ (xAct 6 3).present 0 = true ∧ ((xAct 6 3).stake 0).due 5 6 (anAct 6 3) ∧
    (xAct 7 3).present 0 = true ∧ ((xAct 7 3).stake 0).due 5 7 (anAct 7 3) ∧ (xAct 8 3).present 0 = true ∧
    ((xAct 8 3).stake 0).due 5 8 (anAct 8 3) := by
  and_intros <;> first | decide +kernel | (unfold Stake.due; decide +kernel)

theorem witness_CaptureStarts :
    xCapture.present 0 = true ∧ (xCapture.stake 0).due 5 1 (anAct 1 1) ∧ (xCapture.stake 0).flag Reg.SNS_CTRL_EN = true := by
  and_intros <;> first | decide +kernel | (unfold Stake.due; decide +kernel)

theorem witness_CaptureCompletes :
    xTaken.present 0 = true ∧ (xTaken.stake 0).sns.groups[0]? = some gCap ∧ gCap.inFlight = [aCap] ∧
    reached (xTaken.stake 0).ang.tick (aCap.zone.snd + 4) = true := by
  decide +kernel

theorem witness_DecimatorShown :
    xPlain.present 0 = true ∧ 3 < 16 ∧ (xPlain.stake 0).flag Reg.SNS_CTRL_EN = true ∧
    (xPlain.stake 0).hasEdge ((xPlain.stake 0).mclkOf 3) (xPlain.stake 0).ang.tick = true ∧
    (xPlain.stake 0).edgeOf ((xPlain.stake 0).mclkOf 3) (xPlain.stake 0).ang.tick = (xPlain.stake 0).ang.tick ∧
    (xPlain.stake 0).inForceB (Reg.SNS_CH_CFG_EN 3) = true ∧ (xPlain.stake 0).flag (Reg.SNS_CH_STATUS_UNAVAIL 3) = false ∧
    ((xPlain.stake 0).chan 3).clkFault = false ∧ 3 ≠ (xPlain.stake 0).inForce Reg.FLD_MAP_UDC_A ∧
    3 ≠ (xPlain.stake 0).inForce Reg.FLD_MAP_UDC_B ∧ 3 ≠ (xPlain.stake 0).inForce Reg.PLT_CHOP_CFG_CHOP_CH ∧
    (xPlain.stake 0).posLive 0 = false := by
  decide +kernel

theorem witness_ChannelConditions :
    (xFast 2).present 0 = true ∧ 2 < 16 ∧ ((xFast 2).stake 0).flag Reg.SNS_CTRL_EN = true ∧
    ((xFast 2).stake 0).inForceB (Reg.SNS_CH_CFG_FAST_EN 2) = true ∧ ((xFast 2).stake 0).inForceB (Reg.SNS_CH_CFG_EN 2) = true ∧
    ((xFast 2).stake 0).flag (Reg.SNS_CH_STATUS_UNAVAIL 2) = false ∧ (((xFast 2).stake 0).chan 2).clkFault = false ∧
    ((xFast 2).stake 0).inForceB (Reg.SNS_MCLK_EN (((xFast 2).stake 0).mclkOf 2)) = true ∧
    BitVec.toNat (((xFast 2).stake 0).ang.tick - ((xFast 2).stake 0).lastEdge 2) ≤ ((xFast 2).stake 0).mdiv (((xFast 2).stake 0).mclkOf 2) + 8 ∧
    (∀ (i : Nat), i < max 1 (((xFast 2).stake 0).inForce (Reg.SNS_CH_CFG_FAST_N 2)) → if true = true then ((xFast 2).stake 0).fastNow (Reg.SNS_CH_FAST_THR_HI 2) < sinc2 (((xFast 2).stake 0).inForce (Reg.SNS_CH_CFG_FAST_OSR 2)) (List.take ((((xFast 2).stake 0).bitsTo 2 (2 * ((xFast 2).stake 0).inForce (Reg.SNS_CH_CFG_FAST_OSR 2) + max 1 (((xFast 2).stake 0).inForce (Reg.SNS_CH_CFG_FAST_N 2)) - 1) (((xFast 2).stake 0).lastEdge 2) [(0, true)]).length - i) (((xFast 2).stake 0).bitsTo 2 (2 * ((xFast 2).stake 0).inForce (Reg.SNS_CH_CFG_FAST_OSR 2) + max 1 (((xFast 2).stake 0).inForce (Reg.SNS_CH_CFG_FAST_N 2)) - 1) (((xFast 2).stake 0).lastEdge 2) [(0, true)])) - ((xFast 2).stake 0).fastNow (Reg.SNS_CH_FAST_OFS_FAST_OFS 2) else sinc2 (((xFast 2).stake 0).inForce (Reg.SNS_CH_CFG_FAST_OSR 2)) (List.take ((((xFast 2).stake 0).bitsTo 2 (2 * ((xFast 2).stake 0).inForce (Reg.SNS_CH_CFG_FAST_OSR 2) + max 1 (((xFast 2).stake 0).inForce (Reg.SNS_CH_CFG_FAST_N 2)) - 1) (((xFast 2).stake 0).lastEdge 2) [(0, true)]).length - i) (((xFast 2).stake 0).bitsTo 2 (2 * ((xFast 2).stake 0).inForce (Reg.SNS_CH_CFG_FAST_OSR 2) + max 1 (((xFast 2).stake 0).inForce (Reg.SNS_CH_CFG_FAST_N 2)) - 1) (((xFast 2).stake 0).lastEdge 2) [(0, true)])) - ((xFast 2).stake 0).fastNow (Reg.SNS_CH_FAST_OFS_FAST_OFS 2) < ((xFast 2).stake 0).fastNow (Reg.SNS_CH_FAST_THR_LO 2)) ∧
    (xFast 1).present 0 = true ∧ ((xFast 1).stake 0).flag Reg.SNS_CTRL_EN = true ∧
    ((xFast 1).stake 0).inForceB (Reg.SNS_CH_CFG_FAST_EN 2) = true ∧ ((xFast 1).stake 0).inForceB (Reg.SNS_CH_CFG_EN 2) = true ∧
    ((xFast 1).stake 0).flag (Reg.SNS_CH_STATUS_UNAVAIL 2) = false ∧ (((xFast 1).stake 0).chan 2).clkFault = false ∧
    ((xFast 1).stake 0).inForceB (Reg.SNS_MCLK_EN (((xFast 1).stake 0).mclkOf 2)) = true ∧
    BitVec.toNat (((xFast 1).stake 0).ang.tick - ((xFast 1).stake 0).lastEdge 2) ≤ ((xFast 1).stake 0).mdiv (((xFast 1).stake 0).mclkOf 2) + 8 ∧
    (∀ (i : Nat), i < max 1 (((xFast 1).stake 0).inForce (Reg.SNS_CH_CFG_FAST_N 2)) → if true = true then ((xFast 1).stake 0).fastNow (Reg.SNS_CH_FAST_THR_HI 2) < sinc2 (((xFast 1).stake 0).inForce (Reg.SNS_CH_CFG_FAST_OSR 2)) (List.take ((((xFast 1).stake 0).bitsTo 2 (2 * ((xFast 1).stake 0).inForce (Reg.SNS_CH_CFG_FAST_OSR 2) + max 1 (((xFast 1).stake 0).inForce (Reg.SNS_CH_CFG_FAST_N 2)) - 1) (((xFast 1).stake 0).lastEdge 2) [(0, true)]).length - i) (((xFast 1).stake 0).bitsTo 2 (2 * ((xFast 1).stake 0).inForce (Reg.SNS_CH_CFG_FAST_OSR 2) + max 1 (((xFast 1).stake 0).inForce (Reg.SNS_CH_CFG_FAST_N 2)) - 1) (((xFast 1).stake 0).lastEdge 2) [(0, true)])) - ((xFast 1).stake 0).fastNow (Reg.SNS_CH_FAST_OFS_FAST_OFS 2) else sinc2 (((xFast 1).stake 0).inForce (Reg.SNS_CH_CFG_FAST_OSR 2)) (List.take ((((xFast 1).stake 0).bitsTo 2 (2 * ((xFast 1).stake 0).inForce (Reg.SNS_CH_CFG_FAST_OSR 2) + max 1 (((xFast 1).stake 0).inForce (Reg.SNS_CH_CFG_FAST_N 2)) - 1) (((xFast 1).stake 0).lastEdge 2) [(0, true)]).length - i) (((xFast 1).stake 0).bitsTo 2 (2 * ((xFast 1).stake 0).inForce (Reg.SNS_CH_CFG_FAST_OSR 2) + max 1 (((xFast 1).stake 0).inForce (Reg.SNS_CH_CFG_FAST_N 2)) - 1) (((xFast 1).stake 0).lastEdge 2) [(0, true)])) - ((xFast 1).stake 0).fastNow (Reg.SNS_CH_FAST_OFS_FAST_OFS 2) < ((xFast 1).stake 0).fastNow (Reg.SNS_CH_FAST_THR_LO 2)) ∧
    xStuck.present 0 = true ∧ (xStuck.stake 0).flag (Reg.SNS_CH_STATUS_UNAVAIL 2) = false ∧
    (xStuck.stake 0).flag (Reg.SNS_CH_STATUS_STUCK 2) = false ∧ ((xStuck.stake 0).chan 2).clkFault = false ∧ 64 ≤ (xStuck.stake 0).bitsIn 2 ∧
    (xStuck.stake 0).bitsTo 2 64 ((xStuck.stake 0).lastEdge 2) [(0, true)] = List.replicate 64 true ∧ xUnstuck.present 0 = true ∧
    2 ≤ (xUnstuck.stake 0).bitsIn 2 ∧ (xUnstuck.stake 0).bitsTo 2 2 ((xUnstuck.stake 0).lastEdge 2) oneRise = [!true, true] ∧
    xFill.present 0 = true ∧ ((xFill.stake 0).chan 2).clkFault = false ∧ 3 * (xFill.stake 0).osr 2 ≤ (xFill.stake 0).bitsIn 2 := by
  decide +kernel

theorem witness_SensingCommits :
    xGain.admits Src.host 0 (Reg.SNS_CH_CORR_COMMIT 3) 1 ∧ 3 < 16 ∧ BitVec.getLsbD (1 : BitVec 32) 0 = true ∧
    (xApply 0).admits Src.host 0 Reg.SNS_CTRL 2147483649 ∧ BitVec.getLsbD (2147483649 : BitVec 32) 0 = true ∧
    ((xApply 0).stake 0).axisIn [axOff, axSafe, axTest] = true ∧ ((xApply 0).stake 0).snsMixed = false ∧
    (xApply 2).admits Src.host 0 Reg.SNS_CTRL 2147483649 ∧
    (((xApply 2).stake 0).axisIn [axOff, axSafe, axTest] = false ∨ ((xApply 2).stake 0).snsMixed = true) := by
  and_intros <;> first | decide +kernel | exact admits_of (by decide +kernel)

theorem witness_EncoderCounts :
    (xEdge false true).present 0 = true ∧ ((xEdge false true).stake 0).posLive 1 = true ∧
    ((xEdge false true).stake 0).fld Reg.POS_ENC_CFG_EDGE_MIN ≤ 100 ∧
    Option.map (fun x => x.fst) ((xEdge false true).stake 0).pos.loadAt ≠ some ((xEdge false true).stake 0).now ∧
    (xEdge true true).present 0 = true ∧ ((xEdge true true).stake 0).posLive 1 = true ∧
    ((xEdge true true).stake 0).fld Reg.POS_ENC_CFG_EDGE_MIN ≤ 100 ∧
    Option.map (fun x => x.fst) ((xEdge true true).stake 0).pos.loadAt ≠ some ((xEdge true true).stake 0).now ∧
    1 < ((xEdge false true).stake 0).fld Reg.POS_ENC_CFG_EDGE_MIN ∧ xIndex.present 0 = true ∧ (xIndex.stake 0).posLive 1 = true ∧
    (xIndex.stake 0).flag Reg.POS_ENC_CFG_Z_EN = true ∧ (xIndex.stake 0).fld Reg.POS_ENC_CFG_EDGE_MIN ≤ 100 ∧
    Option.map (fun x => x.fst) (xIndex.stake 0).pos.loadAt ≠ some (xIndex.stake 0).now ∧
    (((if (xIndex.stake 0).pos.b = true then 2 else 0) + if (xIndex.stake 0).pos.a = true then 1 else 0) = (xIndex.stake 0).fld Reg.POS_ENC_CFG_Z_GATE) ∧
    (xIndex.stake 0).pos.indexed = false ∧ xPos0.admits Src.host 0 Reg.POS_ENC_ALIGN 2147483653 ∧ (xPos0.stake 0).alignBad 2147483653 = false ∧
    BitVec.getLsbD (2147483653 : BitVec 32) 31 = true := by
  and_intros <;> first | decide +kernel | exact admits_of (by decide +kernel)

theorem witness_HallAndStandstill :
    (xHall 4 0).present 0 = true ∧ ((xHall 4 0).stake 0).posLive 2 = true ∧ ((xHall 4 0).stake 0).fld Reg.POS_ENC_CFG_EDGE_MIN ≤ 100 ∧
    ((xHall 4 0).stake 0).pos.hall ≠ 6 % 8 ∧ hallSector (6 % 8 ^^^ ((xHall 4 0).stake 0).fld Reg.POS_HALL_CFG_INV) = some 1 ∧
    ((xHall 4 0).stake 0).pos.sector = some 0 ∧ (1 = (0 + 1) % 6 ∨ 0 = (1 + 1) % 6) ∧ 1 ≠ 0 ∧ (xHall 6 1).present 0 = true ∧
    ((xHall 6 1).stake 0).posLive 2 = true ∧ ((xHall 6 1).stake 0).fld Reg.POS_ENC_CFG_EDGE_MIN ≤ 100 ∧ ((xHall 6 1).stake 0).pos.hall ≠ 4 % 8 ∧
    hallSector (4 % 8 ^^^ ((xHall 6 1).stake 0).fld Reg.POS_HALL_CFG_INV) = some 0 ∧ ((xHall 6 1).stake 0).pos.sector = some 1 ∧
    (0 = (1 + 1) % 6 ∨ 1 = (0 + 1) % 6) ∧ 0 ≠ 1 ∧ xIllegal.present 0 = true ∧ (xIllegal.stake 0).posLive 2 = true ∧
    (xIllegal.stake 0).pos.illegal = some 100 ∧ 100 + 40000 ≤ (xIllegal.stake 0).now ∧ xStill.present 0 = true ∧ (1 = 1 ∨ 1 = 2) ∧
    (xStill.stake 0).posLive 1 = true ∧
    (xStill.stake 0).fld Reg.POS_TIMING_T_STAND * 400000 ≤ (xStill.stake 0).now - ((xStill.stake 0).edges 1).lastAt ∧
    (xStill.stake 0).fld (Reg.POS_SRC_STATUS_QUAL 1) ≠ 1 ∧ ((xStill.stake 0).edges 1).edgeAt ≠ some (xStill.stake 0).now ∧ (2 = 1 ∨ 2 = 2) ∧
    (xStill.stake 0).posLive 2 = true ∧
    (xStill.stake 0).fld Reg.POS_TIMING_T_STAND * 400000 ≤ (xStill.stake 0).now - ((xStill.stake 0).edges 2).lastAt ∧
    (xStill.stake 0).fld (Reg.POS_SRC_STATUS_QUAL 2) ≠ 1 ∧ ((xStill.stake 0).edges 2).edgeAt ≠ some (xStill.stake 0).now ∧
    xDecay.present 0 = true ∧ (xDecay.stake 0).posLive 1 = true ∧ (xDecay.stake 0).fld (Reg.POS_SRC_STATUS_QUAL 1) = 4 ∧
    ((xDecay.stake 0).edges 1).edgeAt ≠ some (xDecay.stake 0).now ∧ (xDecay.stake 0).now - ((xDecay.stake 0).edges 1).lastAt ≠ 0 ∧
    ((xDecay.stake 0).now - ((xDecay.stake 0).edges 1).lastAt) % 256 = 0 ∧
    (((xDecay.stake 0).edges 1).decaying = true ∨ (xDecay.stake 0).stepSpeed 1 1 ((xDecay.stake 0).now - ((xDecay.stake 0).edges 1).lastAt) < ((xDecay.stake 0).edges 1).speed.natAbs) := by
  decide +kernel

theorem witness_SerialFrames :
    (xSsp false).present 0 = true ∧ ((xSsp false).stake 0).posEn 3 = true ∧
    BitVec.toNat ((xSsp false).stake 0).ang.tick % max 1 (((xSsp false).stake 0).fld Reg.POS_SSP_PERIOD_PERIOD) = 0 ∧
    (xSsp true).present 0 = true ∧ ((xSsp true).stake 0).posEn 3 = true ∧
    BitVec.toNat ((xSsp true).stake 0).ang.tick % max 1 (((xSsp true).stake 0).fld Reg.POS_SSP_PERIOD_PERIOD) = 0 ∧
    (xFrame 1000000).present 0 = true ∧ ((xFrame 1000000).stake 0).pos.sspFrame = some 3 ∧ ((xFrame 1000000).stake 0).sspStart 3 [] = none ∧
    ((xFrame 1000000).stake 0).fld Reg.POS_SSP_TIMING_START_TO * (2 * ((xFrame 1000000).stake 0).fld Reg.POS_SSP_CFG_HALF_DIV) ≤ BitVec.toNat (((xFrame 1000000).stake 0).ang.tick - 3) ∧
    somePay.length = ((xFrame 1000000).stake 0).fld Reg.POS_SSP_CFG_PAY_BITS ∧
    (someCrc.length = if ((xFrame 1000000).stake 0).flag Reg.POS_SSP_CFG_CRC8 = true then 8 else 6) ∧
    (someErr != ((xFrame 1000000).stake 0).flag Reg.POS_SSP_CFG_ERR_POL) = true ∧
    (bitsNat someCrc = if ((xFrame 1000000).stake 0).flag Reg.POS_SSP_CRC_INV = true then (2 ^ if ((xFrame 1000000).stake 0).flag Reg.POS_SSP_CFG_CRC8 = true then 8 else 6) - 1 - sspCrc (if ((xFrame 1000000).stake 0).flag Reg.POS_SSP_CFG_CRC8 = true then 8 else 6) (((xFrame 1000000).stake 0).fld Reg.POS_SSP_CRC_POLY) (somePay ++ [someErr]) (((xFrame 1000000).stake 0).fld Reg.POS_SSP_CRC_INIT % 2 ^ if ((xFrame 1000000).stake 0).flag Reg.POS_SSP_CFG_CRC8 = true then 8 else 6) else sspCrc (if ((xFrame 1000000).stake 0).flag Reg.POS_SSP_CFG_CRC8 = true then 8 else 6) (((xFrame 1000000).stake 0).fld Reg.POS_SSP_CRC_POLY) (somePay ++ [someErr]) (((xFrame 1000000).stake 0).fld Reg.POS_SSP_CRC_INIT % 2 ^ if ((xFrame 1000000).stake 0).flag Reg.POS_SSP_CFG_CRC8 = true then 8 else 6)) ∧
    ((xFrame 1000000).stake 0).sspBits 3 someWave = some (somePay ++ [someErr] ++ someCrc) := by
  decide +kernel

theorem witness_PositionOutputs :
    xCmp.present 0 = true ∧ (xCmp.stake 0).due 5 4 (anAct 4 3) ∧ (xCmp.stake 0).flag Reg.POS_CTRL_CMP_EN = true ∧ (anAct 4 3).arg < 8 ∧
    (xCmp.stake 0).flag (Reg.POS_CMP_EN (anAct 4 3).arg) = true ∧
    (xCmp.stake 0).pos.cmp[(xCmp.stake 0).fld (Reg.POS_CMP_OUT (anAct 4 3).arg)]? = some { : CmpOut } ∧ { : CmpOut }.active = false ∧
    ({ : CmpOut }.ran = true → laterInstant { : CmpOut }.endAt (anAct 4 3).at_ = true ∨ 128 ≤ (anAct 4 3).at_.minus { : CmpOut }.endAt) ∧
    xPulse.present 0 = true ∧ (xPulse.stake 0).pos.cmp[1]? = some aPulse ∧ aPulse.active = true ∧
    reached (xPulse.stake 0).ang.tick (if aPulse.endAt.fine = 0 then aPulse.endAt.tick else aPulse.endAt.tick + 1) = true ∧
    (xPulse.stake 0).compareSoon 1 aPulse.endAt = false ∧ (xEmu 1).present 0 = true ∧ ((xEmu 1).stake 0).fld Reg.POS_CTRL_EMU_MODE = 1 ∧
    (xEmu 2).present 0 = true ∧ ((xEmu 2).stake 0).fld Reg.POS_CTRL_EMU_MODE = 2 ∧
    (((xEmu 2).stake 0).clock (((xEmu 2).stake 0).fld Reg.POS_EMU_CFG_SRC)).valid = true ∧
    (((xEmu 2).stake 0).emuTarget + ((xEmu 2).stake 0).emuCounts - ((xEmu 2).stake 0).pos.emu.count) % ((xEmu 2).stake 0).emuCounts ≠ 0 ∧
    ((xEmu 2).stake 0).pos.emu.lastStep + ((xEmu 2).stake 0).fld Reg.POS_EMU_CFG_MIN_SP ≤ ((xEmu 2).stake 0).now := by
  and_intros <;> first | decide +kernel | (unfold Stake.due; decide +kernel)

theorem witness_SourcesEnabled :
    base.admits Src.host 0 Reg.POS_CTRL 67108879 ∧ base.locked = false ∧
    (Reg.POS_CTRL_POLE_PAIRS.of ((base.stake 0).rd Reg.POS_CTRL) = Reg.POS_CTRL_POLE_PAIRS.of 67108879 ∨ ((base.stake 0).rd Reg.POS_CTRL ||| 67108879) &&& 15 = 0) ∧
    67108879 &&& ~~~(base.stake 0).rd Reg.POS_CTRL &&& 15 ≠ 0 ∧ xPos0.admits Src.host 0 Reg.POS_CTRL 67108867 ∧ xPos0.locked = false ∧
    (Reg.POS_CTRL_POLE_PAIRS.of ((xPos0.stake 0).rd Reg.POS_CTRL) = Reg.POS_CTRL_POLE_PAIRS.of 67108867 ∨ ((xPos0.stake 0).rd Reg.POS_CTRL ||| 67108867) &&& 15 = 0) ∧
    (xPos0.stake 0).rd Reg.POS_CTRL &&& ~~~67108867 &&& 15 ≠ 0 := by
  and_intros <;> first | decide +kernel | exact admits_of (by decide +kernel)

theorem witness_AbsentStakeAccess :
    2097168 < 8388608 ∧ xLost.alive (2097168 / 1048576) = false := by
  decide +kernel

theorem witness_ReservedAccess :
    8781824 ≤ 8781824 ∧ 8781824 < 16777216 ∧ 8781824 ≤ 16777212 ∧ 16777212 < 16777216 ∧ 2048 ≤ 2048 ∧ 2048 < 4096 := by
  decide +kernel

theorem witness_ClearsLoseNothing :
    base.alive 2 = true ∧ Reg.ANG_LATE_CNT < 1048576 ∧ regAt Reg.ANG_LATE_CNT = some (rg Reg.ANG_LATE_CNT) ∧
    counterWidth (rg Reg.ANG_LATE_CNT) = some 16 ∧ base.locked = false ∧ base.alive 1 = true ∧ 8388608 ≤ Reg.HIF_BAD_ACCESS_CNT ∧
    Reg.HIF_BAD_ACCESS_CNT < 8781824 ∧ regAt Reg.HIF_BAD_ACCESS_CNT = some (rg Reg.HIF_BAD_ACCESS_CNT) ∧
    counterWidth (rg Reg.HIF_BAD_ACCESS_CNT) = some 16 ∧ Reg.ANG_TICK_STATUS < 1048576 ∧ Reg.ANG_TICK_STATUS % 4 = 0 ∧
    regAt Reg.ANG_TICK_STATUS = some (rg Reg.ANG_TICK_STATUS) ∧ (fbOnly Reg.ANG_TICK_STATUS && decide (2 ≠ 1)) = false ∧
    clears Reg.ANG_TICK_STATUS 65536 = true ∧
    (Reg.ANG_TICK_STATUS = Reg.PLT_MODE → BitVec.getLsbD (65536 : BitVec 32) 0 = false ∧ BitVec.getLsbD (65536 : BitVec 32) 1 = false) ∧
    8388608 ≤ Reg.CAN_US_STATUS ∧ Reg.CAN_US_STATUS < 8781824 ∧ Reg.CAN_US_STATUS % 4 = 0 ∧
    regAt Reg.CAN_US_STATUS = some (rg Reg.CAN_US_STATUS) ∧ canSlot Reg.CAN_US_STATUS = none ∧ clears Reg.CAN_US_STATUS 1 = true := by
  decide +kernel

theorem witness_SlotsAreWhole :
    xReady.ready = true ∧ xReady.alive 0 = true ∧ 0 < 8 ∧ Reg.SNS_CH_GAIN 3 < 1048576 ∧ lowGroup (Reg.SNS_CH_GAIN 3) ≠ [] ∧
    (fbOnly (Reg.SNS_CH_GAIN 3) && decide (0 ≠ 1)) = false ∧
    List.find? (fun e => decide (e.fst = Reg.SNS_CH_GAIN 3)) (xReady.stake 0).snap = none ∧ 8388608 ≤ Reg.ETH_MAP_TICK ∧
    lowGroupPkg Reg.ETH_MAP_TICK ≠ [] ∧ List.find? (fun e => decide (e.fst = Reg.ETH_MAP_TICK)) xReady.pkg.snap = none ∧
    xReady.takesFrom Src.host 0 = true ∧ Reg.SNS_CH_GAIN 3 + 4 < 1048576 ∧ (Reg.SNS_CH_GAIN 3 + 4) % 8 = 4 ∧
    slotAt (Reg.SNS_CH_GAIN 3 + 4) = some (Reg.SNS_CH_GAIN 3) ∧ (xReady.locked && closedTo Src.host (Reg.SNS_CH_GAIN 3 + 4)) = false ∧
    (fbOnly (Reg.SNS_CH_GAIN 3 + 4) && decide (0 ≠ 1)) = false ∧
    ((xReady.stake 0).shadowBad (Reg.SNS_CH_GAIN 3) ((xReady.stake 0).slotValue (Reg.SNS_CH_GAIN 3) 4096) && (xReady.stake 0).flag Reg.MOD_SET_CTRL_IS_OPEN) = false ∧
    (xReady.stake 0).fbPairBad (Reg.SNS_CH_GAIN 3) ((xReady.stake 0).slotValue (Reg.SNS_CH_GAIN 3) 4096) = false := by
  decide +kernel

theorem witness_RegisterWrites :
    2 < 8 ∧ Reg.THM_CTRL < 4096 ∧ Reg.THM_CTRL % 4 = 0 ∧ xReady.admits Src.host 2 Reg.THM_CTRL 2147483648 ∧
    regAt Reg.THM_CTRL = some (rg Reg.THM_CTRL) ∧ (xReady.stake 2).crossBad Reg.THM_CTRL 2147483648 = false ∧ Reg.THM_SENS_CFG 1 < 4096 ∧
    Reg.THM_SENS_CFG 1 % 4 = 0 ∧ xReady.alive 2 = true ∧ (xReady.locked && closedTo Src.host (Reg.THM_SENS_CFG 1)) = false ∧
    regAt (Reg.THM_SENS_CFG 1) = some (rg (Reg.THM_SENS_CFG 1)) ∧
    (rg (Reg.THM_SENS_CFG 1)).inRange (liveBits (Reg.THM_SENS_CFG 1) 4294967295) = false ∧ xLocked.alive 2 = true ∧ xLocked.locked = true ∧
    closedTo Src.host Reg.THM_CTRL = true ∧ clears Reg.THM_CTRL 2147483648 = false ∧ Reg.THM_CTRL < 1048576 ∧ xReady.ready = true ∧
    xRead.pkg.reads = [(7, 768, 5)] := by
  and_intros <;> first | decide +kernel | exact admits_of (by decide +kernel)

theorem witness_CellSlots :
    xQueued.present 2 = true ∧ (xQueued.stake 2).dirUp Dir.asc = true ∧ (xQueued.stake 2).stopped = false ∧
    ((xQueued.stake 2).dir Dir.asc).retrainFrom = none ∧ (((xQueued.stake 2).dir Dir.asc).window (xQueued.stake 2).now).toReplay = [] ∧
    (((xQueued.stake 2).dir Dir.asc).window (xQueued.stake 2).now).choose (xQueued.stake 2).walBudget = some 1 ∧
    nth [] (((xQueued.stake 2).dir Dir.asc).window (xQueued.stake 2).now).queues 1 = [aCell] ∧ xDown.present 2 = true ∧
    ((xDown.stake 2).dirUp Dir.asc = false ∨ (xDown.stake 2).stopped = true) ∧ wBase.present 2 = true ∧ (wBase.stake 2).dirUp Dir.asc = true ∧
    (wBase.stake 2).stopped = false ∧ { seq := 5, ack := 7, crClass := 1, crCount := 2, cell := some aCell2 : LinkIn }.cell = some aCell2 ∧
    aCell2.dest = (wBase.stake 2).id ∧ xTrain.present 2 = true ∧ xTrain.present (xTrain.nbr 2 Dir.dsc) = true ∧ xTrain.nbr 2 Dir.dsc ≠ 2 ∧
    wBase.present 0 = true ∧ wBase.present (wBase.nbr 0 Dir.asc) = true ∧ wBase.nbr 0 Dir.asc ≠ 0 ∧
    { seq := 5, ack := 7, crClass := 1, crCount := 2, cell := some { dest := aCell.dest, src := aCell.src, cls := aCell.cls, kind := 12, tag := aCell.tag, tickLo := aCell.tickLo, payload := aCell.payload, hops := aCell.hops : Cell } : LinkIn }.cell = some { dest := aCell.dest, src := aCell.src, cls := aCell.cls, kind := 12, tag := aCell.tag, tickLo := aCell.tickLo, payload := aCell.payload, hops := aCell.hops : Cell } ∧
    12 ≤ { dest := aCell.dest, src := aCell.src, cls := aCell.cls, kind := 12, tag := aCell.tag, tickLo := aCell.tickLo, payload := aCell.payload, hops := aCell.hops : Cell }.kind ∧
    12 ≤ 12 ∧ 12 ≤ 15 ∧ 15 ≤ 15 := by
  decide +kernel

theorem witness_RetrainsAndLanes :
    xBurst.present 2 = true ∧ xBurst.present (xBurst.nbr 2 Dir.asc) = true ∧ xBurst.nbr 2 Dir.asc ≠ 2 ∧
    (xBurst.stake 2).flag Reg.WAL_CTRL_CRC_RETRAIN_EN = true ∧ (xBurst.stake 2).fld Reg.WAL_CTRL_CRC_BURST ≠ 0 ∧
    (xBurst.stake 2).fld Reg.WAL_CTRL_CRC_BURST ≤ (List.filter (fun t => decide ((xBurst.stake 2).now < t + 40000)) ((xBurst.stake 2).dir Dir.asc).crcAt).length ∧
    xWant.present 2 = true ∧ xWant.present (xWant.nbr 2 Dir.asc) = true ∧ xWant.nbr 2 Dir.asc ≠ 2 ∧
    ((xWant.stake 2).dir Dir.asc).retrainWant = true ∧ ((xWant.stake 2).dir Dir.asc).retrainFrom = none ∧ (xWant.stake 2).dirUp Dir.asc = true ∧
    xWant.retrainFree 2 Dir.asc = true ∧ xWant.pairLets 2 Dir.asc = true ∧ xTrain.present 2 = true ∧
    xTrain.present (xTrain.nbr 2 Dir.asc) = true ∧ xTrain.nbr 2 Dir.asc ≠ 2 ∧ ((xTrain.stake 2).dir Dir.asc).retrainFrom ≠ none ∧ 17 < 18 ∧
    (List.foldl (fun m i => m ||| 2 ^ (i % 18)) ((xWant.stake 2).fld (laneFailed (txReg Dir.asc))) ((xWant.stake 2).dir Dir.asc).mapOut).testBit 17 = false ∧
    xLanes.present 2 = true ∧ xLanes.present (xLanes.nbr 2 Dir.asc) = true ∧ xLanes.nbr 2 Dir.asc ≠ 2 ∧ 16 < 18 ∧
    (xLanes.stake 2).dirUp Dir.asc = true ∧
    (List.foldl (fun m i => m ||| 2 ^ (i % 18)) ((xLanes.stake 2).fld (laneFailed (txReg Dir.asc))) ((xLanes.stake 2).dir Dir.asc).mapOut).testBit 16 = false ∧
    wBase.present 2 = true ∧ (wBase.stake 2).stopped = false ∧ healthy ((wBase.stake 2).fld (laneFailed (rxReg Dir.asc))) ≠ [] := by
  decide +kernel

theorem witness_RingMasterAndLosses :
    wBase.alive 0 = true ∧ (0 = 0 ∧ (wBase.stake 0).wal.master = 0 ∨ 0 = 1 ∧ (wBase.stake 0).wal.master = 1) ∧ (wBase.stake 0).stopped = false ∧
    (wBase.stake 0).vote.halted = false ∧ (∀ (d : Dir), ((wBase.stake 0).dir d).queues.length = 4) ∧ 3 < wBase.part.stakes ∧ 3 ≠ 0 ∧
    wBase.alive 3 = true ∧ xMaster2.alive 1 = true ∧ (1 = 0 ∧ (xMaster2.stake 1).wal.master = 0 ∨ 1 = 1 ∧ (xMaster2.stake 1).wal.master = 1) ∧
    (xMaster2.stake 1).stopped = false ∧ (xMaster2.stake 1).vote.halted = false ∧ (∀ (d : Dir), ((xMaster2.stake 1).dir d).queues.length = 4) ∧
    0 < xMaster2.part.stakes ∧ 0 ≠ 1 ∧ xMaster2.alive 0 = true ∧ wBase.present 0 = true ∧ wBase.alignDue = true ∧ xTimed.present 0 = true ∧
    (xTimed.stake 0).stopped = false ∧ (∀ (d : Dir), ((xTimed.stake 0).dir d).queues.length = 4) ∧ 3 < xTimed.part.stakes ∧
    xTimed.alive 3 = true ∧ xTimed.alignDue = true ∧ wBase.present 2 = true ∧ xBeat0.present 2 = true ∧ 2 ≠ 0 ∧
    (xBeat0.stake 2).wal.hbLast + 80000 ≤ (xBeat0.stake 2).now ∧ (xBeat0.stake 2).wal.anchorLost = false ∧ (xBeat0.stake 2).stopped = false ∧
    xMaster1.present 1 = true ∧ 1 ≠ 0 ∧ (xMaster1.stake 1).wal.hbLast + 80000 ≤ (xMaster1.stake 1).now ∧
    (xMaster1.stake 1).wal.anchorLost = false ∧ (xMaster1.stake 1).stopped = false ∧ (xBeat0.stake 2).wal.master ≠ 1 ∧
    ((xBeat0.stake 2).heartbeatGone = true ∨ (xBeat0.stake 2).wal.anchorLost = true) ∧ xBeat0.reaches 2 1 = true ∧ 1 < 2 ∧
    xCut.present 2 = true ∧ xCut.reaches 2 0 = false ∧ xCut.reaches 2 1 = false ∧ (xCut.stake 2).wal.cutOff = false ∧
    (xCut.stake 2).stopped = false ∧ wBase.alive 2 = true ∧ xDone.alive 2 = true ∧ xDone.pkg.boot.phase ≠ Phase.distribution ∧
    (xDone.stake 2).done = [aDone] ∧ xDone.underWay aDone.ring aDone.cid ∧ xEv.alive 2 = true ∧ (xEv.stake 2).out = [anEv] ∧
    xEv.pkg.evq.length < 512 ∧ (xSync true 1010).present 2 = true ∧ ((xSync true 1010).stake 2).stopped = false ∧
    (xSync false 3).present 2 = true ∧ ((xSync false 3).stake 2).stopped = false ∧ xEpoch.present 2 = true ∧ (xEpoch.stake 2).stopped = false ∧
    (xEpoch.stake 2).ang.loaded = true ∧ (xEpoch.stake 2).ang.tick = 1000 + w48 ↑10 ∧ (xEpoch.stake 2).inForceB Reg.MOD_EPOCH_CTRL_EN = true ∧
    (xEpoch.stake 2).fld Reg.MOD_STATUS_EPOCH_STATE ≠ 0 ∧ xFallback.present 2 = true ∧
    (xFallback.stake 2).flag Reg.PLT_AXIS_STATE_FALLBACK = true ∧ (xFallback.stake 2).stopped = false := by
  and_intros <;> first | decide +kernel | exact underWay_of (by decide +kernel) | (intro d; cases d <;> decide +kernel)

theorem witness_StreamPacker :
    xStrFull.present 0 = true ∧ (xStrFull.stake 0).offers = [anOffer] ∧ anOffer.stream < 16 ∧
    (xStrFull.stake 0).inForceB (Reg.STR_STREAM_CFG_EN anOffer.stream) = true ∧ anOffer.stream < (xStrFull.stake 0).str.length ∧
    xStrNew.present 0 = true ∧ (xStrNew.stake 0).offers = [anOffer] ∧ (xStrNew.stake 0).inForceB (Reg.STR_STREAM_CFG_EN anOffer.stream) = true ∧
    anOffer.stream < (xStrNew.stake 0).str.length ∧ xStrAdd.present 0 = true ∧ (xStrAdd.stake 0).offers = [anOffer] ∧
    (xStrAdd.stake 0).inForceB (Reg.STR_STREAM_CFG_EN anOffer.stream) = true ∧ anOffer.stream < (xStrAdd.stake 0).str.length ∧
    xStrOff.present 0 = true ∧ (xStrOff.stake 0).offers = [anOffer] ∧
    (16 ≤ anOffer.stream ∨ (xStrOff.stake 0).inForceB (Reg.STR_STREAM_CFG_EN anOffer.stream) = false) ∧ 2 < 16 ∧
    ((xStrAdd.stake 0).strm 2).packing = some (aPkt 3, 70000) ∧ 2 < (xStrAdd.stake 0).str.length ∧
    70000 + 400 * (xStrAdd.stake 0).inForce (Reg.STR_STREAM_CFG_PKT_TIMEOUT 2) ≤ (xStrAdd.stake 0).now ∧
    xStrAdd.admits Src.host 0 (Reg.STR_STREAM_CMD 2) 1 ∧ BitVec.getLsbD (1 : BitVec 32) 0 = true ∧ (xFifo 16).admits Src.host 0 Reg.STR_CTRL 1 ∧
    (xFifo 17).admits Src.host 0 Reg.STR_CTRL 1 := by
  and_intros <;> first | decide +kernel | exact admits_of (by decide +kernel)

theorem witness_StreamBuffers :
    List.find? (fun d => decide (d.ring = 4) && decide (d.op = 32) && d.there) xBufD.pkg.host.descs = some (dsc 4 77 32 (bytesN 8 20480 ++ bytesN 4 4096 ++ bytesN 2 100)) ∧
    xBufD.alive (xBufD.ringStake 4) = true ∧ 4 < xBufD.pkg.host.rings.length ∧ (xBufT.ring 4).bufs = [aBuf] ∧ aBuf.firstAt = some 100 ∧
    aBuf.timeout ≠ 0 ∧ 100 + 4000 * aBuf.timeout ≤ xBufT.time ∧ xBufT.underWay 4 aBuf.cid ∧ 4 < xBufT.pkg.host.rings.length ∧
    (xBufT.ring 4).deleting = [] ∧ xPktReq.ringEn 4 = true ∧ 4 ≠ 0 ∧ xPktReq.ringClass 4 = 2 ∧ xPktReq.alive (xPktReq.ringStake 4) = true ∧
    (¬4 ∈ xPktReq.pkg.host.inbound) ∧ ((xPktReq.stake (xPktReq.ringStake 4)).strm (xPktReq.pkg.fld (Reg.HIF_RING_STREAM 4))).whole = [aPkt 3] ∧
    ((xPktReq.stake (xPktReq.ringStake 4)).strm (xPktReq.pkg.fld (Reg.HIF_RING_STREAM 4))).moving = none ∧
    xPktReq.pkg.fld (Reg.HIF_RING_STREAM 4) < (xPktReq.stake (xPktReq.ringStake 4)).str.length ∧ (xPktReq.ring 4).bufs = [aBuf] ∧
    aBuf.used + ((aPkt 3).bytes (xPktReq.ringStake 4) (xPktReq.pkg.fld (Reg.HIF_RING_STREAM 4))).length ≤ aBuf.len ∧ xPktReq.masters = true ∧
    xPktReq.nextSlot = some 4 ∧ List.find? (fun r => decide (xPktCell.ringStake r = 0)) xPktCell.pkg.host.inbound = some 4 ∧
    xPktCell.present 0 = true ∧ ((xPktCell.stake 0).strm (xPktCell.pkg.fld (Reg.HIF_RING_STREAM 4))).moving = some (aPkt 3) ∧
    xPktCell.pkg.fld (Reg.HIF_RING_STREAM 4) < (xPktCell.stake 0).str.length ∧ 4 < xPktCell.pkg.host.rings.length ∧
    (xPktCell.ring 4).bufs = [aBuf] ∧ aBuf.used + ((aPkt 3).bytes 0 (xPktCell.pkg.fld (Reg.HIF_RING_STREAM 4))).length ≤ aBuf.len := by
  and_intros <;> first | decide +kernel | exact underWay_of (by decide +kernel)

theorem witness_PassStarts :
    (xPass 0 none).present 0 = true ∧ ((xPass 0 none).stake 0).due 5 2 (anAct 2 0) ∧ (xPass 1 none).present 0 = true ∧
    ((xPass 1 none).stake 0).due 5 2 (anAct 2 0) ∧ (xPass 1 (some 4999)).present 0 = true ∧ ((xPass 1 (some 4999)).stake 0).due 5 2 (anAct 2 0) ∧
    0 ≤ (base.stake 0).par 4 := by
  and_intros <;> first | decide +kernel | (unfold Stake.due; decide +kernel)

theorem witness_FieldSettings :
    base.admits Src.host 0 Reg.FLD_CTRL 4948738 ∧ BitVec.getLsbD (4948738 : BitVec 32) 1 = true ∧
    BitVec.getLsbD (4948738 : BitVec 32) 0 = false ∧ (base.stake 0).badParam = none ∧
    (base.stake 0).badCommitted ((base.stake 0).lockedCtrl base.locked 4948738) = none ∧ xBadPar.admits Src.host 0 Reg.FLD_CTRL 4948738 ∧
    xBadRatio.admits Src.host 0 Reg.FLD_CTRL 4948738 ∧ (xBadRatio.stake 0).badParam = none ∧ (xAxis 0).admits Src.host 0 Reg.FLD_CTRL 4948737 ∧
    BitVec.getLsbD (4948737 : BitVec 32) 0 = true ∧ BitVec.getLsbD (4948737 : BitVec 32) 1 = false ∧
    (xAxis 2).admits Src.host 0 Reg.FLD_CTRL 4948737 ∧ base.admits Src.host 0 Reg.FLD_TBL_CTRL 3 ∧
    ((if (base.stake 0).id = 1 then Reg.FLD_TBL_CTRL_SWAP.of 3 else Reg.FLD_TBL_CTRL_SWAP.of 3 % 4).testBit 2 = false ∨ curveOk ((base.stake 0).curve (1 - (base.stake 0).fldBank 2)) = true) ∧
    base.admits Src.host 1 Reg.FLD_TBL_CTRL 4 ∧
    (if (base.stake 1).id = 1 then Reg.FLD_TBL_CTRL_SWAP.of 4 else Reg.FLD_TBL_CTRL_SWAP.of 4 % 4).testBit 2 = true ∧
    curveOk ((base.stake 1).curve (1 - (base.stake 1).fldBank 2)) = false ∧ (xCurve 100).present 1 = true ∧
    ((xCurve 100).stake 1).flag Reg.FLD_FB_CTRL_EN = true ∧ ((xCurve 100).stake 1).fld Reg.PLT_VOTE_STATUS_MODE ≠ 2 ∧
    ((xCurve 100).stake 1).fld Reg.FLD_FB_CTRL_FB_SRC = 0 ∧ ((xCurve 100).stake 1).fbStale = false ∧
    (xCurve 100).pkg.boot.lost.testBit 1 = false ∧ ((xCurve 100).stake 1).stopped = false ∧ (xCurve 100000000).present 1 = true ∧
    ((xCurve 100000000).stake 1).fld Reg.FLD_FB_CTRL_FB_SRC = 0 ∧ ((xCurve 100000000).stake 1).fbStale = true ∧
    ((xCurve 100000000).stake 1).fe.fbLost = false := by
  and_intros <;> first | decide +kernel | exact admits_of (by decide +kernel)

theorem witness_CatchSteps :
    (xCatch (aCatch 1) []).present 0 = true ∧ ((xCatch (aCatch 1) []).stake 0).fe.catching = some (aCatch 1) ∧ (aCatch 1).step = 1 ∧
    (aCatch 1).start + 800000 ≤ ((xCatch (aCatch 1) []).stake 0).now ∧ (xCatch noEmf []).present 0 = true ∧
    ((xCatch noEmf []).stake 0).fe.catching = some noEmf ∧ noEmf.step = 1 ∧ noEmf.start + 800000 ≤ ((xCatch noEmf []).stake 0).now ∧
    (xCatch noEmf [(Reg.FLD_CTRL_MACHINE, 1)]).present 0 = true ∧ ((xCatch noEmf [(Reg.FLD_CTRL_MACHINE, 1)]).stake 0).fe.catching = some noEmf ∧
    noEmf.start + 800000 ≤ ((xCatch noEmf [(Reg.FLD_CTRL_MACHINE, 1)]).stake 0).now ∧ (xCatch (aCatch 2) []).present 0 = true ∧
    ((xCatch (aCatch 2) []).stake 0).fe.catching = some (aCatch 2) ∧ (aCatch 2).step = 2 ∧
    (aCatch 2).start + 400000 * ((xCatch (aCatch 2) []).stake 0).inForce Reg.FLD_CATCH_CFG_T_CATCH ≤ ((xCatch (aCatch 2) []).stake 0).now ∧
    (xCatch (aCatch 3) [(Reg.FLD_CATCH_CFG_ZV_N, 3)]).present 0 = true ∧
    ((xCatch (aCatch 3) [(Reg.FLD_CATCH_CFG_ZV_N, 3)]).stake 0).fe.catching = some (aCatch 3) ∧ (aCatch 3).step = 3 ∧
    (aCatch 3).pulses < ((xCatch (aCatch 3) [(Reg.FLD_CATCH_CFG_ZV_N, 3)]).stake 0).inForce Reg.FLD_CATCH_CFG_ZV_N ∧
    (aCatch 3).nextPulse ≤ ((xCatch (aCatch 3) [(Reg.FLD_CATCH_CFG_ZV_N, 3)]).stake 0).now := by
  decide +kernel

theorem witness_SlotsAndSeams :
    (xSlot 0 0).present 0 = true ∧ ((xSlot 0 0).stake 0).due 5 3 (anAct 3 4) ∧
    ((anAct 3 4).arg % 16 ≠ ((xSlot 0 0).stake 0).slotNow ∨ ((xSlot 0 0).stake 0).modu.req ≠ none) ∧ (xSlot 1 0).present 0 = true ∧
    ((xSlot 1 0).stake 0).due 5 3 (anAct 3 4) ∧ ((anAct 3 4).arg % 16 ≠ ((xSlot 1 0).stake 0).slotNow ∨ ((xSlot 1 0).stake 0).modu.req ≠ none) ∧
    xSeam.present 0 = true ∧ (xSeam.stake 0).modu.req = some (4, 0, false) ∧ 4 < 16 ∧ (xSeam.stake 0).modu.run = true ∧
    (xSeam.stake 0).kindNow = 0 ∧ (xSeam.stake 0).ang.tick = (xSeam.stake 0).modu.nextB ∧
    ((xSeam.stake 0).slotKind 4 = 0 ∨ patState ((xSeam.stake 0).slotAngles 4) (xSeam.stake 0).phiNow = List.map (fun p => ((xSeam.stake 0).mport p).level) [0, 1, 2] ∧ (xSeam.stake 0).inForce Reg.MOD_SYNC_SEAM_MIN * ((xSeam.stake 0).clock 0).omega.natAbs ≤ (gapAround ((xSeam.stake 0).clock 0).rev (allEdges ((xSeam.stake 0).slotAngles 4)) (xSeam.stake 0).phiNow).snd) ∧
    xNoSeam.present 0 = true ∧ (xNoSeam.stake 0).modu.req = some (4, 0, false) ∧
    (¬((xNoSeam.stake 0).kindNow = 0 ∧ (xNoSeam.stake 0).slotKind 4 = 0)) ∧
    rev48 ≤ ↑((xNoSeam.stake 0).now - 0) * iabs ((xNoSeam.stake 0).clock 0).omega ∧ (xPat 600).present 0 = true ∧
    ((xPat 600).stake 0).modu.run = true ∧ ((xPat 600).stake 0).kindNow ≠ 0 ∧
    BitVec.toNat (((xPat 600).stake 0).ang.tick - ((xPat 600).stake 0).modu.pat.tSeam) % 400 = 0 ∧ ((xPat 600).stake 0).switching = false ∧
    xPatSlow.present 0 = true ∧ (xPatSlow.stake 0).modu.run = true ∧ (xPatSlow.stake 0).kindNow ≠ 0 ∧
    BitVec.toNat ((xPatSlow.stake 0).ang.tick - (xPatSlow.stake 0).modu.pat.tSeam) % 400 = 0 ∧ (xPatSlow.stake 0).switching = false ∧
    base.admits Src.host 0 Reg.MOD_PAT_CTRL 1 ∧ BitVec.getLsbD (1 : BitVec 32) 0 = true := by
  and_intros <;> first | decide +kernel | exact admits_of (by decide +kernel) | (unfold Stake.due; decide +kernel)

theorem witness_BoundariesAndCarrier :
    xRun0.present 0 = true ∧ (xRun0.stake 0).modu.run = true ∧ (xRun0.stake 0).ang.tick = (xRun0.stake 0).modu.nextB ∧
    ((base.stake 0).modu.run = false ∨ (base.stake 0).ang.tick ≠ (base.stake 0).modu.nextB) ∧ (kSet 991).modu.waiting = [(aSet 991, false)] ∧
    (aSet 991).target = none ∧ ↑(aSet 991).guard ≤ BitVec.toInt (1000 - (aSet 991).closeAt) ∧ 0 ≤ BitVec.toInt (1000 - (aSet 991).closeAt) ∧
    (kSet 992).modu.waiting = [(aSet 992, false)] ∧ (aSet 992).target = none ∧ 0 ≤ BitVec.toInt (1000 - (aSet 992).closeAt) ∧
    BitVec.toInt (1000 - (aSet 992).closeAt) < ↑(aSet 992).guard ∧ false = false ∧ xStart.present 0 = true ∧
    (xStart.stake 0).modu.start = some ((xStart.stake 0).ang.tick, 20000) ∧ (xStart.stake 0).modu.run = false ∧
    (xStart.stake 0).flag Reg.MOD_CTRL_EN = true ∧ xStop.admits Src.host 0 Reg.MOD_CTRL 1074790400 ∧
    BitVec.getLsbD (1074790400 : BitVec 32) 31 = false ∧ BitVec.getLsbD (1074790400 : BitVec 32) 0 = false ∧
    (xStop.stake 0).flag Reg.MOD_CTRL_EN = true ∧ (xEpo 1).present 0 = true ∧
    (((xEpo 1).stake 0).fld Reg.MOD_STATUS_EPOCH_STATE = 1 ∨ ((xEpo 1).stake 0).fld Reg.MOD_STATUS_EPOCH_STATE = 2) ∧
    ((xEpo 1).stake 0).modu.epochAt + 1200000 ≤ ((xEpo 1).stake 0).now ∧ (xEpo 2).present 0 = true ∧
    (((xEpo 2).stake 0).fld Reg.MOD_STATUS_EPOCH_STATE = 1 ∨ ((xEpo 2).stake 0).fld Reg.MOD_STATUS_EPOCH_STATE = 2) ∧
    ((xEpo 2).stake 0).modu.epochAt + 1200000 ≤ ((xEpo 2).stake 0).now := by
  and_intros <;> first | decide +kernel | exact admits_of (by decide +kernel)

theorem witness_UpdateSets :
    xRun0.admits Src.host 0 Reg.MOD_SET_CTRL 1 ∧ BitVec.getLsbD (1 : BitVec 32) 0 = true ∧ BitVec.getLsbD (1 : BitVec 32) 1 = false ∧
    BitVec.getLsbD (1 : BitVec 32) 2 = false ∧ xFollower.admits Src.host 3 Reg.MOD_SET_CTRL 1 ∧
    (xOpen 10 20000).admits Src.host 0 Reg.MOD_SET_CTRL 2 ∧ BitVec.getLsbD (2 : BitVec 32) 0 = false ∧ BitVec.getLsbD (2 : BitVec 32) 1 = true ∧
    BitVec.getLsbD (2 : BitVec 32) 2 = false ∧ ((xOpen 10 20000).stake 0).flag Reg.MOD_SET_CTRL_IS_OPEN = true ∧
    (xOpen 1 3998).admits Src.host 0 Reg.MOD_SET_CTRL 2 ∧ ((xOpen 1 3998).stake 0).flag Reg.MOD_SET_CTRL_IS_OPEN = true ∧
    (xOpen 1 4000).admits Src.host 0 Reg.MOD_SET_CTRL 2 ∧ ((xOpen 1 4000).stake 0).flag Reg.MOD_SET_CTRL_IS_OPEN = true ∧
    (xOpen 1 4000).admits Src.host 0 Reg.MOD_SET_CTRL 4 ∧ BitVec.getLsbD (4 : BitVec 32) 0 = false ∧ BitVec.getLsbD (4 : BitVec 32) 1 = false ∧
    BitVec.getLsbD (4 : BitVec 32) 2 = true ∧ (xAxis 0).admits Src.host 0 Reg.MOD_CTRL 1074790401 ∧
    BitVec.getLsbD (1074790401 : BitVec 32) 0 = true ∧ (xAxis 2).admits Src.host 0 Reg.MOD_CTRL 1074790401 := by
  and_intros <;> first | decide +kernel | exact admits_of (by decide +kernel)

theorem witness_EdgesAndCuts :
    (xRec 0).present 0 = true ∧ 1 < 4 ∧ 1 < ((xRec 0).stake 0).modu.ports.length ∧ 1 < ((xRec 0).stake 0).leg.ports.length ∧
    (((xRec 0).stake 0).mport 1).seized = false ∧ (((xRec 0).stake 0).mport 1).recs = [aRec] ∧
    reached ((xRec 0).stake 0).ang.tick aRec.at_.tick = true ∧ (xRec 3).present 0 = true ∧ 1 < ((xRec 3).stake 0).modu.ports.length ∧
    1 < ((xRec 3).stake 0).leg.ports.length ∧ (((xRec 3).stake 0).mport 1).seized = false ∧ (((xRec 3).stake 0).mport 1).recs = [aRec] ∧
    reached ((xRec 3).stake 0).ang.tick aRec.at_.tick = true ∧ base.present 0 = true ∧ 64 < 128 ∧ 35 < 128 ∧ xAux.present 0 = true ∧
    (xAux.stake 0).inForce (Reg.MOD_PORT_CFG_AUX_MODE 3) = 2 ∧ (xAux.stake 0).modu.auxReq = true ∧ (xAux.stake 0).modu.auxEnd = none ∧
    (xAux.stake 0).modu.auxOffAt = none ∧ ((xAux.stake 0).mport 3).mayTurnOn (xAux.stake 0).nowI = true ∧ xAuxEnd.present 0 = true ∧
    (xAuxEnd.stake 0).modu.auxEnd = some 1000 ∧ reached (xAuxEnd.stake 0).ang.tick 1000 = true ∧ (xCutM false).present 0 = true ∧
    (((xCutM false).stake 0).mport 3).cut = some (aCut false) ∧ (aCut false).latched = false ∧ (aCut false).endAt = some 950 ∧
    reached ((xCutM false).stake 0).ang.tick 950 = true ∧ 3 < ((xCutM false).stake 0).modu.ports.length ∧
    (xCutM true).admits Src.host 0 Reg.MOD_CUT_CLR 8 ∧ 3 < 4 ∧ 3 < ((xCutM true).stake 0).modu.ports.length ∧
    (((xCutM true).stake 0).mport 3).cut = some (aCut true) ∧ (aCut true).latched = true ∧ BitVec.getLsbD (8 : BitVec 32) 3 = true ∧
    xTrig.present 0 = true ∧
    List.find? (fun x => decide (x.fst = 2) && reached (xTrig.stake 0).ang.tick x.snd.tick) (xTrig.stake 0).modu.trig = some (2, { tick := 1000, fine := 3 : Instant }) ∧
    (xTrig.stake 0).inForce (Reg.MOD_TRIG_ACTION 2) = 5 := by
  and_intros <;> first | decide +kernel | exact admits_of (by decide +kernel)

theorem witness_PairingStarts :
    (xPair 0 0).admits Src.host 0 Reg.FLD_PAIR_CTRL 270008321 ∧ (xPair 0 0).present (partnerOf 0) = true ∧ ((xPair 0 0).stake 0).leads = true ∧
    BitVec.getLsbD (270008321 : BitVec 32) 0 = true ∧ BitVec.getLsbD (270008321 : BitVec 32) 1 = false ∧
    (∀ (r : RegD), regAt Reg.FLD_PAIR_CTRL = some r → r.merge (((xPair 0 0).stake 0).rd Reg.FLD_PAIR_CTRL) 270008321 &&& 1073741820 = ((xPair 0 0).stake 0).rd Reg.FLD_PAIR_CTRL &&& 1073741820) ∧
    (xPair 0 1).admits Src.host 0 Reg.FLD_PAIR_CTRL 270008321 ∧ (xPair 0 1).present (partnerOf 0) = true ∧ ((xPair 0 1).stake 0).leads = true ∧
    (∀ (r : RegD), regAt Reg.FLD_PAIR_CTRL = some r → r.merge (((xPair 0 1).stake 0).rd Reg.FLD_PAIR_CTRL) 270008321 &&& 1073741820 = ((xPair 0 1).stake 0).rd Reg.FLD_PAIR_CTRL &&& 1073741820) ∧
    (xPair 2 2).admits Src.host 0 Reg.FLD_PAIR_CTRL 270008322 ∧ (xPair 2 2).present (partnerOf 0) = true ∧ ((xPair 2 2).stake 0).leads = true ∧
    BitVec.getLsbD (270008322 : BitVec 32) 0 = false ∧ BitVec.getLsbD (270008322 : BitVec 32) 1 = true ∧
    (∀ (r : RegD), regAt Reg.FLD_PAIR_CTRL = some r → r.merge (((xPair 2 2).stake 0).rd Reg.FLD_PAIR_CTRL) 270008322 &&& 1073741820 = ((xPair 2 2).stake 0).rd Reg.FLD_PAIR_CTRL &&& 1073741820) ∧
    ((xPair 2 2).stake 0).axisIn [axOff, axSafe] = true ∧ ((xPair 2 2).stake (partnerOf 0)).axisIn [axOff, axSafe] = true ∧
    xMatch.present 0 = true ∧ xMatch.present (partnerOf 0) = true ∧ (xMatch.stake 0).leads = true ∧
    ((xMatch.stake 0).pairSt = 1 ∨ (xMatch.stake 0).pairSt = 2) ∧ xJudged.present 0 = true ∧ xJudged.present (partnerOf 0) = true ∧
    (xJudged.stake 0).leads = true ∧ ((xJudged.stake 0).pairSt = 1 ∨ (xJudged.stake 0).pairSt = 2) ∧ xThree.present 0 = true ∧
    xThree.present (partnerOf 0) = true ∧ (xThree.stake 0).pairSt = 1 ∧ 3 ≤ (xThree.stake 0).pair.matched ∧
    ((xThree.stake (partnerOf 0)).clock 0).valid = true := by
  and_intros <;> first | decide +kernel | exact admits_of (by decide +kernel)

theorem witness_PairingTraffic :
    (xPair 2 2).present 1 = true ∧ ((xPair 2 2).stake 1).leads = false ∧ (nth 0 [1000, 5, 6, 536870912, 2000, 0] 3).testBit 29 = true ∧
    (((xPair 2 2).stake 1).pairSt ≠ 2 ∨ ((xPair 2 2).stake 1).axis = nth 0 [1000, 5, 6, 536870912, 2000, 0] 5 % 16 ∧ nth 0 [1000, 5, 6, 536870912, 2000, 0] 5 / 16 % 4 = 0 ∧ ((xPair 2 2).stake 1).axis ≠ axSafe) ∧
    (xPair 1 1).present 1 = true ∧ ((xPair 1 1).stake 1).leads = false ∧ (nth 0 clockWords 3).testBit 29 = true ∧
    (((xPair 1 1).stake 1).pairSt ≠ 2 ∨ ((xPair 1 1).stake 1).axis = nth 0 clockWords 5 % 16 ∧ nth 0 clockWords 5 / 16 % 4 = 0 ∧ ((xPair 1 1).stake 1).axis ≠ axSafe) ∧
    (xPair 2 2).present 0 = true ∧ ((xPair 2 2).stake 0).leads = true ∧ ((xPair 2 2).stake 0).pairSt ≠ 0 ∧
    ((xPair 2 2).stake 0).pair.nextCell ≤ ((xPair 2 2).stake 0).now ∧ (∀ (d : Dir), (((xPair 2 2).stake 0).dir d).queues.length = 4) ∧
    xRunning.present 1 = true ∧ (nth 0 setWords 3).testBit 31 = true ∧ (nth 0 setWords 3).testBit 0 = false ∧
    (nth 0 setWords 3).testBit 3 = false ∧ ((xRunning.stake 1).clockCell setWords).pairedFollower = true := by
  and_intros <;> first | decide +kernel | (intro d; cases d <;> decide +kernel)

theorem witness_PairingBreaks :
    (xPair 2 2).present 0 = true ∧ 1 ≤ 3 ∧ 3 ≤ 5 ∧ (((xPair 2 2).stake 0).pairSt = 1 ∨ ((xPair 2 2).stake 0).pairSt = 2) ∧
    (xPair 1 1).present 1 = true ∧ 1 ≤ 5 ∧ 5 ≤ 5 ∧ (((xPair 1 1).stake 1).pairSt = 1 ∨ ((xPair 1 1).stake 1).pairSt = 2) ∧
    (xHold 100).present 0 = true ∧ ((xHold 100).stake 0).pair.holdAt = some 0 ∧ ((xHold 100).stake 0).pairSt = 3 ∧
    ((xHold 100).stake 0).now ≤ 0 + 400 * ((xHold 100).stake 0).inForce Reg.FLD_PAIR_LIMITS_T_CONFIRM ∧ (xHold 100000000).present 0 = true ∧
    ((xHold 100000000).stake 0).pair.holdAt = some 0 ∧ ((xHold 100000000).stake 0).pairSt = 3 ∧
    0 + 400 * ((xHold 100000000).stake 0).inForce Reg.FLD_PAIR_LIMITS_T_CONFIRM ≤ ((xHold 100000000).stake 0).now := by
  decide +kernel

theorem witness_LegHeadAnswers :
    xLeg1.present 0 = true ∧ 1 < 4 ∧ 1 < (xLeg1.stake 0).leg.ports.length ∧ (xLeg1.stake 0).link 1 = 1 ∧ frameOk (frm 1114112) 1 = true ∧
    frameOk (frm 1179648) 1 = true ∧ frameOk (frm 1114240) 1 = true ∧ xHello.present 0 = true ∧ 1 < (xHello.stake 0).leg.ports.length ∧
    ((xHello.stake 0).lport 1).hello = some (frm 1114112) ∧ (xHello.stake 0).axisIn [axOff, axSafe] = true ∧
    ((xHello.stake 0).link 1 = 4 ∨ (xHello.stake 0).link 1 = 5) ∧ { off := 0, lo := 24, w := 4 : Fld }.of (frm 1114112) = 1 ∧
    BitVec.getLsbD (frm 1114112) 15 = (xHello.stake 0).inForceB (Reg.LEG_PORT_CFG_SUPPLY 1) ∧ (xSums 3 0).present 0 = true ∧
    1 < ((xSums 3 0).stake 0).leg.ports.length ∧ frameOk (frm 6291747) 6 = true ∧
    (((xSums 3 0).stake 0).link 1 = 2 ∨ ((xSums 3 0).stake 0).link 1 = 3) ∧ (xSums 2 3).present 0 = true ∧
    1 < ((xSums 2 3).stake 0).leg.ports.length ∧ frameOk (frm 6293385) 6 = true ∧
    (((xSums 2 3).stake 0).link 1 = 2 ∨ ((xSums 2 3).stake 0).link 1 = 3) ∧ (xSums 2 2).present 0 = true ∧
    1 < ((xSums 2 2).stake 0).leg.ports.length ∧ (((xSums 2 2).stake 0).link 1 = 2 ∨ ((xSums 2 2).stake 0).link 1 = 3) ∧
    xSumTwice.present 0 = true ∧ 1 < (xSumTwice.stake 0).leg.ports.length ∧ ((xSumTwice.stake 0).link 1 = 2 ∨ (xSumTwice.stake 0).link 1 = 3) ∧
    frameOk (frm 6292566) 6 = true ∧ xLeg3.present 0 = true ∧ (xLeg3.stake 0).link 1 ≠ 0 ∧ frameOk (frm 2917632) 2 = true := by
  decide +kernel

theorem witness_LegHeadReports :
    (xExp 0).present 0 = true ∧ 1 < 4 ∧ 1 < ((xExp 0).stake 0).leg.ports.length ∧ ((xExp 0).stake 0).link 1 ≠ 0 ∧
    frameOk (frm 3260416) 3 = true ∧ symOf ({ off := 0, lo := 25, w := 3 : Fld }.of (frm 3260416)) = some Symb.hsOn ∧
    frameOk (frm 3178496) 3 = true ∧ symOf ({ off := 0, lo := 25, w := 3 : Fld }.of (frm 3178496)) = some Symb.hsOn ∧ xLeg3.present 0 = true ∧
    1 < (xLeg3.stake 0).leg.ports.length ∧ (xLeg3.stake 0).link 1 ≠ 0 ∧ frameOk (frm 4981504) 4 = true ∧
    (BitVec.getLsbD (frm 4981504) 27 = true ∧ ((xLeg3.stake 0).lport 1).desat.fst = false ∨ BitVec.getLsbD (frm 4981504) 26 = true ∧ ((xLeg3.stake 0).lport 1).desat.snd = false) ∧
    frameOk (frm 5387350) 5 = true ∧ { off := 0, lo := 24, w := 4 : Fld }.of (frm 5387350) < 4 ∧ xTest.present 0 = true ∧
    1 < (xTest.stake 0).leg.ports.length ∧ (xTest.stake 0).link 1 ≠ 0 ∧ frameOk (frm 7503872) 7 = true ∧
    ((xTest.stake 0).lport 1).test = some aTest ∧ 1 ≤ aTest.step ∧ aTest.step ≤ 4 ∧ aTest.since ≠ none ∧
    { off := 0, lo := 24, w := 4 : Fld }.of (frm 7503872) = aTest.step ∧ frameOk (frm 7471104) 7 = true ∧
    { off := 0, lo := 24, w := 4 : Fld }.of (frm 7471104) = aTest.step ∧ aTest.step ≤ 7 ∧ aTest.since = some 0 ∧ 0 + 8000 ≤ (xTest.stake 0).now ∧
    (xTestS aTest6).present 0 = true ∧ 1 < ((xTestS aTest6).stake 0).leg.ports.length ∧ (((xTestS aTest6).stake 0).lport 1).test = some aTest6 ∧
    1 ≤ aTest6.step ∧ aTest6.step ≤ 7 ∧ aTest6.since = some 0 ∧ 0 + 8000 ≤ ((xTestS aTest6).stake 0).now ∧ (xTestS aTest7).present 0 = true ∧
    1 < ((xTestS aTest7).stake 0).leg.ports.length ∧ (((xTestS aTest7).stake 0).lport 1).test = some aTest7 ∧ 1 ≤ aTest7.step ∧ aTest7.step ≤ 7 ∧
    aTest7.since = some 0 ∧ 0 + 8000 ≤ ((xTestS aTest7).stake 0).now ∧ (xTestS aTest5).present 0 = true ∧
    1 < ((xTestS aTest5).stake 0).leg.ports.length ∧ (((xTestS aTest5).stake 0).lport 1).test = some aTest5 ∧ 1 ≤ aTest5.step ∧ aTest5.step ≤ 7 ∧
    aTest5.since = some 0 ∧ 0 + 8000 ≤ ((xTestS aTest5).stake 0).now := by
  decide +kernel

theorem witness_LegLinks :
    xLeg3.present 0 = true ∧ 1 < 4 ∧ 1 < (xLeg3.stake 0).leg.ports.length ∧ (xLeg3.stake 0).link 1 ≠ 0 ∧
    ((((xLeg3.stake 0).lport 1).lastPulse + 800 +     match ((xLeg3.stake 0).lport 1).pulse with     | some x => if x.snd.fst.fine = 0 then 0 else 1     | none => 0) ≤   (xLeg3.stake 0).now) ∧
    (((xLeg3.stake 0).mport 1).seized = false → ∀ (r : Record), r ∈ ((xLeg3.stake 0).mport 1).recs → reached r.at_.tick ((xLeg3.stake 0).ang.tick + 16) = true) ∧
    (((xLeg3.stake 0).mport 1).seized = true → ∀ (g : GenSym), g ∈ (xLeg3.stake 0).prt.gen → g.port = 1 → (xLeg3.stake 0).now + 60 ≤ g.at_) ∧
    (xOut [LegFrame.clear, LegFrame.arm]).present 0 = true ∧ 1 < ((xOut [LegFrame.clear, LegFrame.arm]).stake 0).leg.ports.length ∧
    2 ≤ ((xOut [LegFrame.clear, LegFrame.arm]).stake 0).link 1 ∧
    (((xOut [LegFrame.clear, LegFrame.arm]).stake 0).lport 1).lastOut + 80 ≤ ((xOut [LegFrame.clear, LegFrame.arm]).stake 0).now ∧
    ((xOut [LegFrame.clear, LegFrame.arm]).stake 0).nextFrame 1 = none ∧ (xOut [LegFrame.arm]).present 0 = true ∧
    1 < ((xOut [LegFrame.arm]).stake 0).leg.ports.length ∧ 2 ≤ ((xOut [LegFrame.arm]).stake 0).link 1 ∧
    (((xOut [LegFrame.arm]).stake 0).lport 1).lastOut + 80 ≤ ((xOut [LegFrame.arm]).stake 0).now ∧
    ((xOut [LegFrame.arm]).stake 0).nextFrame 1 = none ∧ xHb.present 0 = true ∧ 1 < (xHb.stake 0).leg.ports.length ∧ 2 ≤ (xHb.stake 0).link 1 ∧
    ((xHb.stake 0).lport 1).lastOut + 80 ≤ (xHb.stake 0).now ∧ (xHb.stake 0).nextFrame 1 = none ∧ xNextF.present 0 = true ∧
    1 < (xNextF.stake 0).leg.ports.length ∧ 2 ≤ (xNextF.stake 0).link 1 ∧ ((xNextF.stake 0).lport 1).lastOut + 80 ≤ (xNextF.stake 0).now ∧
    (xNextF.stake 0).nextFrame 1 = some (aNext, { tick := 1000, fine := 3 : Instant }) ∧
    (∀ (g : LegFrame), g ∈ ((xNextF.stake 0).lport 1).out → g.isMode = false) ∧ ((xLeg3.stake 0).link 1 = 2 ∨ (xLeg3.stake 0).link 1 = 3) ∧
    ((xLeg3.stake 0).lport 1).lastIn + 8000 ≤ (xLeg3.stake 0).now ∧ xLeg1.present 0 = true ∧ (xLeg1.stake 0).link 1 = 1 ∧
    ((xLeg1.stake 0).lport 1).started + 400000 * (xLeg1.stake 0).fld Reg.LEG_CTRL_T_LINK ≤ (xLeg1.stake 0).now ∧ (xExp 0).present 0 = true ∧
    1 < ((xExp 0).stake 0).leg.ports.length ∧ (((xExp 0).stake 0).lport 1).expect = [(Symb.hsOff, 5), (Symb.hsOn, 9)] ∧
    ((xExp 0).stake 0).link 1 = 3 ∧ 5 + 1600 ≤ ((xExp 0).stake 0).now ∧ (xExp 2).present 0 = true ∧ 1 < ((xExp 2).stake 0).leg.ports.length ∧
    (((xExp 2).stake 0).lport 1).expect = [(Symb.hsOff, 5), (Symb.hsOn, 9)] ∧ ((xExp 2).stake 0).link 1 = 3 ∧ 5 + 1600 ≤ ((xExp 2).stake 0).now ∧
    xLeg0.admits Src.host 0 Reg.LEG_CTRL 2147813376 ∧ BitVec.getLsbD (2147813376 : BitVec 32) 31 = true ∧
    BitVec.getLsbD (2147813376 : BitVec 32) 0 = false ∧ (xLeg0.stake 0).flag Reg.LEG_CTRL_EN = false ∧
    (xLegEn 3 0).admits Src.host 0 Reg.LEG_CTRL 329728 ∧ BitVec.getLsbD (329728 : BitVec 32) 31 = false ∧
    BitVec.getLsbD (329728 : BitVec 32) 0 = false ∧ ((xLegEn 3 0).stake 0).flag Reg.LEG_CTRL_EN = true ∧
    (xLegEn 3 2).admits Src.host 0 Reg.LEG_CTRL 329728 ∧ ((xLegEn 3 2).stake 0).flag Reg.LEG_CTRL_EN = true := by
  and_intros <;> first | decide +kernel | exact admits_of (by decide +kernel)

theorem witness_LegCommands :
    1 < 4 ∧ (xLegEn 3 0).admits Src.host 0 (Reg.LEG_PORT_CMD 1) 1 ∧ 1 < ((xLegEn 3 0).stake 0).leg.ports.length ∧ 1 &&& 31 = 1 ∧
    (xLegEn 3 2).admits Src.host 0 (Reg.LEG_PORT_CMD 1) 1 ∧ 1 < ((xLegEn 3 2).stake 0).leg.ports.length ∧
    (xLegEn 3 0).admits Src.host 0 (Reg.LEG_PORT_CMD 1) 2 ∧ 2 &&& 31 = 2 ∧ (xLegEn 3 2).admits Src.host 0 (Reg.LEG_PORT_CMD 1) 2 ∧
    (xLegEn 3 0).admits Src.host 0 (Reg.LEG_PORT_CMD 1) 4 ∧ 4 &&& 31 = 4 ∧ 2 ≤ ((xLegEn 3 0).stake 0).link 1 ∧
    (xLegEn 3 6).admits Src.host 0 (Reg.LEG_PORT_CMD 1) 8 ∧ 1 < ((xLegEn 3 6).stake 0).leg.ports.length ∧ 8 &&& 31 = 8 ∧
    (xLegEn 3 0).admits Src.host 0 (Reg.LEG_PORT_CMD 1) 8 ∧ (xLegEn 3 0).admits Src.host 0 (Reg.LEG_PORT_CMD 1) 16 ∧ 16 &&& 31 = 16 ∧
    ((xLegEn 3 0).stake 0).flag (Reg.LEG_PORT_STATUS_SPARE 1) = false ∧ 15 < 16 ∧ 3 < 4 ∧
    (xLegEn 3 2).admits Src.host 0 (786432 + 256 * 1 + 16 * 15 + 4 * 3) 4660 ∧
    (xLegEn 3 0).admits Src.host 0 (786432 + 256 * 1 + 16 * 15 + 4 * 3) 4660 ∧ 1 < ((xLegEn 2 0).stake 0).leg.ports.length ∧
    (xLegEn 2 0).admits Src.host 0 (786432 + 256 * 1 + 16 * 15 + 4 * 3) 4660 ∧ (xLegEn 3 0).admits Src.host 0 Reg.LEG_CTRL 2147813377 ∧
    BitVec.getLsbD (2147813377 : BitVec 32) 0 = true ∧ BitVec.getLsbD (2147813377 : BitVec 32) 31 = ((xLegEn 3 0).stake 0).flag Reg.LEG_CTRL_EN ∧
    (xLegEn 3 2).admits Src.host 0 Reg.LEG_CTRL 2147813377 ∧
    BitVec.getLsbD (2147813377 : BitVec 32) 31 = ((xLegEn 3 2).stake 0).flag Reg.LEG_CTRL_EN ∧ (xBoot 2).present 0 = true ∧
    ((xBoot 2).stake 0).refreshNeeded 1 ((xBoot 2).stake 0).now = true ∧ ((xBoot 2).stake 0).refreshLatest 1 ≤ ((xBoot 2).stake 0).now ∧
    1 < ((xBoot 2).stake 0).modu.ports.length := by
  and_intros <;> first | decide +kernel | exact admits_of (by decide +kernel)

theorem witness_SequencerSeizes :
    (xTrip 2 none).present 0 = true ∧ ((xTrip 2 none).stake 0).prt.trips = [{ cause := 3, port := none, at_ := 5 : Trip }] ∧ 3 < 16 ∧
    ((xTrip 2 none).stake 0).openEpisode = false ∧ ((xTrip 2 none).stake 0).pairSt = 0 ∧ ((xTrip 2 none).stake 0).fe.catching = none ∧
    ((xTrip 2 none).stake 0).axis ≠ axNotReady ∧ ((xTrip 2 none).stake 0).flag Reg.PLT_PS_STATUS_SEIZED = false ∧
    (xTrip 2 (some 1)).present 0 = true ∧ ((xTrip 2 (some 1)).stake 0).prt.trips = [{ cause := 3, port := some 1, at_ := 5 : Trip }] ∧ 1 < 3 ∧
    ((xTrip 2 (some 1)).stake 0).portPresent 1 = true ∧ ((xTrip 2 (some 1)).stake 0).openEpisode = false ∧
    ((xTrip 2 (some 1)).stake 0).pairSt = 0 ∧ ((xTrip 2 (some 1)).stake 0).fe.catching = none ∧ ((xTrip 2 (some 1)).stake 0).axis ≠ axNotReady ∧
    (xEpisode anEp).present 0 = true ∧ ((xEpisode anEp).stake 0).prt.episode = some anEp ∧ anEp.closed = none ∧
    anEp.start + 400 ≤ ((xEpisode anEp).stake 0).now ∧ (xEpisode anEp2).present 0 = true ∧ ((xEpisode anEp2).stake 0).prt.episode = some anEp2 ∧
    anEp2.closed = some 400 ∧ anEp2.decided = false ∧
    400 + 400 * ((xEpisode anEp2).stake 0).inForce Reg.PLT_PS_TIMING_T_SC_DECIDE ≤ ((xEpisode anEp2).stake 0).now ∧ xF3.present 0 = true ∧
    (xF3.stake 0).prt.f3 = [aReq] ∧ (xF3.stake 0).axis ≠ axNotReady ∧ (xF3.stake 0).vote.halted = false ∧ (xF3.stake 0).vote.resync = false ∧
    (xF3.stake 0).fld Reg.PLT_VOTE_STATUS_MODE < 3 ∧ (xF3.stake 0).pairSt = 0 ∧ aReq.fixed < 4 ∧ aReq.ev ≠ Ev.walTickSkew ∧
    (∀ (x : F3Req), x ∈ [aReq] → x.ev ≠ Ev.pairBreak) ∧ (xF3.stake 0).openEpisode = false ∧ (xF3.stake 0).flag Reg.PLT_PS_STATUS_SEIZED = false ∧
    (xF3.stake 0).fe.catching = none ∧ xAsc.present 0 = true ∧ (xAsc.stake 0).prt.ascDue = some 9 ∧ 9 ≤ (xAsc.stake 0).now := by
  decide +kernel

theorem witness_AxisStarts :
    (xArm 0).axisAt 0 1 77 1 ∧ (xArm 2).axisAt 0 1 77 1 ∧ (xDisarm 1).axisAt 0 1 77 2 ∧ (xDisarm 0).axisAt 0 1 77 2 ∧ xDisarmF.axisAt 0 1 77 2 ∧
    (xRun true).axisAt 0 1 77 3 ∧ (xRun false).axisAt 0 1 77 3 ∧ xRunNo.axisAt 0 1 77 3 ∧ (xTestC 0).axisAt 0 1 77 5 ∧
    (xTestC 1).axisAt 0 1 77 5 ∧ (xCatchC 1).axisAt 0 1 77 6 ∧ (xCatchC 0).axisAt 0 1 77 6 := by
  and_intros <;> first | decide +kernel | exact axisAt_of (by decide +kernel)

theorem witness_AxisEnds :
    (xStopC 2).axisAt 0 1 77 4 ∧ (xStopC 3).axisAt 0 1 77 4 ∧ (xStopC 6).axisAt 0 1 77 4 ∧ (xStopC 0).axisAt 0 1 77 4 ∧
    xStopCatch.axisAt 0 1 77 4 ∧ (xStopDis 5).axisAt 0 1 77 4 ∧ (xStopDis 7).axisAt 0 1 77 4 ∧ xDisch.axisAt 0 1 77 7 ∧
    (xDischIn 0).axisAt 0 1 77 7 ∧ (xDischIn 2).axisAt 0 1 77 7 ∧ (xDischIn 7).axisAt 0 1 77 7 ∧ (xDischIn 6).axisAt 0 1 77 7 ∧
    xDischCatch.axisAt 0 1 77 7 ∧ xDischTwice.axisAt 0 1 77 7 ∧ (xClear 7 2).axisAt 0 1 77 8 ∧ (xClear 7 4).axisAt 0 1 77 8 ∧
    (xClear 2 3).axisAt 0 1 77 8 ∧ xClearF.axisAt 0 1 77 8 ∧ (xRecover 7 true).axisAt 0 1 77 9 ∧ (xRecover 7 false).axisAt 0 1 77 9 ∧
    (xRecover 2 true).axisAt 0 1 77 9 ∧ xRecoverF.axisAt 0 1 77 9 := by
  and_intros <;> first | decide +kernel | exact axisAt_of (by decide +kernel)

theorem witness_ProtectionTimes :
    (xTime 2 []).present 0 = true ∧ ((xTime 2 []).stake 0).vote.halted = false ∧ ((xTime 2 []).stake 0).vote.resync = false ∧
    ((xTime 2 []).stake 0).prt.bandAt + 40000 ≤ ((xTime 2 []).stake 0).now ∧ (xTime 2 [(Reg.PLT_PS_STATUS_STALE, 0)]).present 0 = true ∧
    ((xTime 2 [(Reg.PLT_PS_STATUS_STALE, 0)]).stake 0).latchAged 1 = true ∧
    ((xTime 2 [(Reg.PLT_PS_STATUS_STALE, 0)]).stake 0).flag Reg.PLT_PS_STATUS_STALE = false ∧ ((xTime 2 []).stake 0).latchAged 4 = true ∧
    ((xTime 2 []).stake 0).openEpisode = false ∧ ((xTime 2 []).stake 0).axisIn [axRun, axDerate, axCatch, axDischarge, axTest] = true ∧
    xStopping.present 0 = true ∧ (xStopping.stake 0).flag Reg.PLT_AXIS_STATE_STOP_PENDING = true ∧
    ((xStopping.stake 0).axis = axRun ∨ (xStopping.stake 0).axis = axDerate) ∧
    (∀ (d : Discharge), (xStopping.stake 0).prt.discharge = some d → d.ramping = false) ∧ (xStopping.stake 0).fe.tStar = 0 ∧
    (xStopping.stake 0).bandFrom (xStopping.stake 0).prt.band = 0 ∧ xCheck.present 0 = true ∧ (xCheck.stake 0).prt.check = some (some 7, 1) ∧
    7 + 400 * (xCheck.stake 0).inForce Reg.PLT_CHOP_CFG_T_CHK ≤ (xCheck.stake 0).now ∧ (xTime 2 [(Reg.PLT_TMON_CTRL_EN, 1)]).present 0 = true ∧
    ((xTime 2 [(Reg.PLT_TMON_CTRL_EN, 1)]).stake 0).inForceB Reg.PLT_TMON_CTRL_EN = true ∧
    ((xTime 2 [(Reg.PLT_TMON_CTRL_EN, 1)]).stake 0).prt.winStale = false ∧ ((xTime 2 [(Reg.PLT_TMON_CTRL_EN, 1)]).stake 0).vote.halted = false ∧
    ((xTime 2 [(Reg.PLT_TMON_CTRL_EN, 1)]).stake 0).vote.resync = false ∧
    ((xTime 2 [(Reg.PLT_TMON_CTRL_EN, 1)]).stake 0).prt.winAt.getD 0 + 400000 * ((xTime 2 [(Reg.PLT_TMON_CTRL_EN, 1)]).stake 0).inForce Reg.PLT_TMON_CTRL_T_WIN ≤ ((xTime 2 [(Reg.PLT_TMON_CTRL_EN, 1)]).stake 0).now ∧
    ((xTime 2 []).stake 0).freshOver (((xTime 2 []).stake 0).inForce Reg.PLT_FRESH_T_FRESH) = true ∧
    ((xTime 2 []).stake 0).fld Reg.PLT_AXIS_STATE_FRESH = 0 ∧
    ((xTime 2 []).stake 0).freshOver (((xTime 2 []).stake 0).inForce Reg.PLT_FRESH_T_LOSS) = true ∧
    ((xTime 2 []).stake 0).fld Reg.PLT_AXIS_STATE_FRESH ≠ 3 ∧ xFall.present 0 = true ∧
    (xFall.stake 0).freshOver ((xFall.stake 0).inForce Reg.PLT_FRESH_T_LOSS) = true ∧ (xFall.stake 0).fld Reg.PLT_AXIS_STATE_FRESH ≠ 3 ∧
    xLate.present 0 = true ∧ (xLate.stake 0).prt.discharge = some aDisch ∧ aDisch.late = false ∧
    aDisch.start + 400000 * (xLate.stake 0).inForce Reg.PLT_DIS_TIME_T_DIS_MAX ≤ (xLate.stake 0).now := by
  decide +kernel

theorem witness_ProtectionInputs :
    3999 < 4000 ∧ 4000 ≤ 4000 ∧ (xTime 2 [(Reg.PLT_PS_SRC_FI_EN, 1), (Reg.PLT_PS_SRC_FI_CLASS, 0)]).present 0 = true ∧
    ((xTime 2 [(Reg.PLT_PS_SRC_FI_EN, 1), (Reg.PLT_PS_SRC_FI_CLASS, 0)]).stake 0).inForceB Reg.PLT_PS_SRC_FI_EN = true ∧
    10 * ((xTime 2 [(Reg.PLT_PS_SRC_FI_EN, 1), (Reg.PLT_PS_SRC_FI_CLASS, 0)]).stake 0).inForce Reg.PLT_PS_SRC_FI_FILT ≤ 4000 ∧
    (xTime 2 [(Reg.PLT_PS_SRC_FI_EN, 1), (Reg.PLT_PS_SRC_FI_CLASS, 1)]).present 0 = true ∧
    ((xTime 2 [(Reg.PLT_PS_SRC_FI_EN, 1), (Reg.PLT_PS_SRC_FI_CLASS, 1)]).stake 0).inForceB Reg.PLT_PS_SRC_FI_EN = true ∧
    10 * ((xTime 2 [(Reg.PLT_PS_SRC_FI_EN, 1), (Reg.PLT_PS_SRC_FI_CLASS, 1)]).stake 0).inForce Reg.PLT_PS_SRC_FI_FILT ≤ 4000 ∧
    (xTime 0 []).admits Src.host 0 Reg.PLT_PR_CTRL 257 ∧ BitVec.getLsbD (257 : BitVec 32) 0 = true ∧
    xGood.admits Src.host 0 Reg.PLT_PR_CTRL 257 ∧ (xTime 2 []).admits Src.host 0 Reg.PLT_PR_CTRL 257 := by
  and_intros <;> first | decide +kernel | exact admits_of (by decide +kernel)

theorem witness_PlaitVotes :
    (xVoted 0).present 0 = true ∧ ((xVoted 0).stake 0).vote.halted = false ∧ xVotedNo.present 0 = true ∧ (xVotedNo.stake 0).vote.halted = false ∧
    (xVoted 1).present 0 = true ∧ ((xVoted 1).stake 0).vote.halted = false ∧ (xFenced false).present 0 = true ∧
    ((xFenced false).stake 0).voteMode = 1 ∧ ((xFenced false).stake 0).fld Reg.PLT_VOTE_STATUS_FENCED ≠ 0 ∧
    ((xFenced false).stake 0).vote.halted = false ∧ ((xFenced false).stake 0).vote.resync = false ∧
    (∀ (at_ : Nat), ((xFenced false).stake 0).vote.failedAt = some at_ → at_ + 400000 ≤ ((xFenced false).stake 0).now) ∧
    (xFenced true).present 0 = true ∧ ((xFenced true).stake 0).vote.resync = true ∧ ((xFenced true).stake 0).vote.tasks = [] ∧
    (xVoted 0).admits Src.host 0 Reg.PLT_MODE 1 ∧ BitVec.getLsbD (1 : BitVec 32) 0 = true ∧ BitVec.getLsbD (1 : BitVec 32) 1 = !true ∧
    (xVoted 2).admits Src.host 0 Reg.PLT_MODE 2 ∧ BitVec.getLsbD (2 : BitVec 32) 0 = false ∧ BitVec.getLsbD (2 : BitVec 32) 1 = !false ∧
    (xVoted 0).admits Src.host 0 Reg.PLT_MODE 2 ∧ (xHand true).present 0 = true ∧
    ((xHand true).stake 0).vote.handover = some { toSplit := true, desc := none : Handover } ∧ ((xHand true).stake 0).vote.dischDue = false ∧
    (xHand false).present 0 = true ∧ ((xHand false).stake 0).vote.handover = some { toSplit := false, desc := none : Handover } ∧
    ((xHand false).stake 0).vote.dischDue = false := by
  and_intros <;> first | decide +kernel | exact admits_of (by decide +kernel)

theorem witness_SupplyClocksThermal :
    xHeldNo.present 0 = true ∧ 3700 < 3701 ∧ xHeldNo.inReset = false ∧ (xHeldNo.stake 0).flag Reg.SUP_STATUS_OV = false ∧ 3100 < 3701 ∧
    xOv.present 0 = true ∧ 3700 ≤ 3700 ∧ 3100 < 3700 ∧ 3049 ≤ 3700 ∧ base.present 0 = true ∧
    ((∃ mv, mv < 2850 ∧ Instr.brownOut 0 2849 5 = Instr.brownOut 0 mv 5) ∨ ∃ va vc, (va < 1656 ∨ 1944 < va ∨ vc < 690 ∨ 810 < vc) ∧ Instr.brownOut 0 2849 5 = Instr.railFault 0 va vc 5) ∧
    xBlow.present 0 = true ∧
    ((∃ mv, mv < 2850 ∧ Instr.railFault 0 1655 750 5 = Instr.brownOut 0 mv 5) ∨ ∃ va vc, (va < 1656 ∨ 1944 < va ∨ vc < 690 ∨ 810 < vc) ∧ Instr.railFault 0 1655 750 5 = Instr.railFault 0 va vc 5) ∧
    0 < xHeldNo.pkg.sup.length ∧ (1103 < 1104 ∨ 1296 < 1103) ∧ (xUp id).present 2 = true ∧ ((xUp id).stake 2).stopped = false ∧
    (xUp id).nbr 2 Dir.asc ≠ 2 ∧ (xUp id).nbr 2 Dir.dsc ≠ 2 ∧ (339 < 340 ∨ 460 < 339) ∧ 340 ≤ 400 ∧ 400 ≤ 460 ∧ (xUp id).present 0 = true ∧
    refInside 100 = true ∧ (xMclk 0).present 0 = true ∧ 2 < 4 ∧ ((xMclk 0).stake 0).inForceB (Reg.SNS_MCLK_EN 2) = true ∧
    (((xMclk 0).stake 0).fld Reg.CLK_STATUS_MCLK_FAULT).testBit 2 = false ∧ (xMclk 4).present 0 = true ∧
    ((xMclk 4).stake 0).inForceB (Reg.SNS_MCLK_EN 2) = true ∧ (((xMclk 4).stake 0).fld Reg.CLK_STATUS_MCLK_FAULT).testBit 2 = true ∧
    xDie.present 0 = true ∧ (xDie.stake 0).stopped = false ∧ (xDie.stake 0).flag Reg.THM_CTRL_EN = true ∧
    (xDie.stake 0).flag (Reg.THM_SENS_CFG_EN 4) = true ∧ BitVec.toNat (xDie.stake 0).ang.tick % 4000000 = 0 ∧ -32768 ≤ 100 ∧ 100 ≤ 32767 ∧
    -32768 ≤ 32767 ∧ 32767 ≤ 32767 ∧ xGrace.present 0 = true ∧ (xGrace.stake 0).stopped = false ∧ 2 < 6 ∧ 2 < (xGrace.stake 0).thm.length ∧
    ((xGrace.stake 0).thmSt 2).grace = some 3 ∧ 3 ≤ (xGrace.stake 0).now ∧ (xGrace.stake 0).flag Reg.THM_CTRL_EN = true ∧
    (base.stake 0).flag Reg.THM_STATUS_DIE175 = false := by
  and_intros <;> first | decide +kernel | exact .inl ⟨2849, by decide, rfl⟩ | exact .inr ⟨1655, 750, by decide, rfl⟩

theorem witness_HostRings :
    1 < 256 ∧ 1 < hb.pkg.host.rings.length ∧ hb.ready = true ∧ 9 < 256 ∧ 9 < hb.pkg.host.rings.length ∧ 0 < (hf.ring 1).fetching ∧
    (hf.ring 1).deleting = [] ∧ hf.ringEn 1 = true ∧ hf.sqSize 1 ≤ 4096 ∧ 6 < 256 ∧ 0 < (hfLost.ring 6).fetching ∧
    (hfLost.ring 6).deleting = [] ∧ hfLost.ringEn 6 = true ∧ hfLost.sqSize 6 ≤ 4096 ∧ 2 < 256 ∧ 0 < (hf.ring 2).fetching ∧
    (hf.ring 2).deleting = [] ∧ (9 = 16 → nth 0 (hf.ring 2).fetchAt 0 + hf.pkg.host.pcie.timeout ≤ hf.time) ∧ hData.underWay 2 77 ∧
    List.find? (fun d => decide (d.ring = 2) && decide (d.cid = 77) && [17, 48, 49, 66, 67, 69].contains d.op) hData.pkg.host.descs = some (dsc 2 77 17 []) ∧
    hSent.alive 2 = true ∧ List.findIdx? (fun d => !d.there && decide (hSent.ringStake d.ring = 2)) hSent.pkg.host.descs = some 1 ∧
    hUnknown.underWay 2 (dsc 2 77 102 []).cid ∧
    List.find? (fun d => decide (d.ring = 2) && (opClass d.op).isNone) hUnknown.pkg.host.descs = some (dsc 2 77 102 []) ∧ 3 < 64 ∧
    (hMsix [(Reg.HIF_MSIX_TABLE 15, 1)]).pkg.host.msix[3]? = some (2, some 0) ∧ 2 ≠ 0 ∧
    0 + 400 * (hMsix [(Reg.HIF_MSIX_TABLE 15, 1)]).pkg.fld (Reg.HIF_MSIX_MOD_TIME 3) ≤ (hMsix [(Reg.HIF_MSIX_TABLE 15, 1)]).time ∧
    (hMsix [(Reg.HIF_MSIX_TABLE 15, 1)]).pkg.host.pcie.msixEn = true ∧
    (hMsix [(Reg.HIF_MSIX_TABLE 12, 4096)]).pkg.host.msix[3]? = some (2, some 0) ∧
    0 + 400 * (hMsix [(Reg.HIF_MSIX_TABLE 12, 4096)]).pkg.fld (Reg.HIF_MSIX_MOD_TIME 3) ≤ (hMsix [(Reg.HIF_MSIX_TABLE 12, 4096)]).time ∧
    (hMsix [(Reg.HIF_MSIX_TABLE 12, 4096)]).pkg.host.pcie.msixEn = true := by
  and_intros <;> first | decide +kernel | exact underWay_of (by decide +kernel)

theorem witness_HostCommands :
    (hSet 0).takeDesc 1 1 = some (dsc 1 77 1 [2, 0], taken (hSet 0) 1 1) ∧ (hSet 0).alive ((hSet 0).ringStake 1) = true ∧
    (hSet 3).takeDesc 1 1 = some (dsc 1 77 1 [2, 0], taken (hSet 3) 1 1) ∧ (hSet 3).alive ((hSet 3).ringStake 1) = true ∧
    (hMod 0).takeDesc 1 3 = some (dsc 1 78 3 setBody, taken (hMod 0) 1 3) ∧ (hMod 0).alive ((hMod 0).ringStake 1) = true ∧
    (hMod 6).takeDesc 1 3 = some (dsc 1 78 3 setBody, taken (hMod 6) 1 3) ∧ (hMod 6).alive ((hMod 6).ringStake 1) = true ∧
    (hReg Reg.THM_CTRL 0).takeDesc 2 16 = some (dsc 2 79 16 (regBody Reg.THM_CTRL), taken (hReg Reg.THM_CTRL 0) 2 16) ∧
    (hReg Reg.THM_CTRL 0).underWay 2 (dsc 2 79 16 (regBody Reg.THM_CTRL)).cid ∧
    (hReg Reg.THM_CTRL 1).takeDesc 2 16 = some (dsc 2 79 16 (regBody Reg.THM_CTRL), taken (hReg Reg.THM_CTRL 1) 2 16) ∧
    (hReg Reg.THM_CTRL 1).underWay 2 (dsc 2 79 16 (regBody Reg.THM_CTRL)).cid ∧
    (hReg 1048576 0).takeDesc 2 16 = some (dsc 2 79 16 (regBody 1048576), taken (hReg 1048576 0) 2 16) ∧
    (hReg 1048576 0).underWay 2 (dsc 2 79 16 (regBody 1048576)).cid ∧ (hTbl 2).takeDesc 2 17 = some (dsc 2 80 17 tblBody, taken (hTbl 2) 2 17) ∧
    (nth 0 (dsc 2 80 17 tblBody).body 24).testBit 0 = false ∧ (hTbl 3).takeDesc 3 17 = some (dsc 3 80 17 tblBody, taken (hTbl 3) 3 17) ∧
    (nth 0 (dsc 3 80 17 tblBody).body 24).testBit 0 = false ∧ 0 < 8 ∧ Reg.THM_CTRL < 4096 ∧ Reg.THM_CTRL % 4 = 0 ∧
    List.find? (fun x => decide (x.target = 0)) (hTune 0).pkg.host.tune = some aTune ∧
    (hTune 0).slotsUsed 0 < (hTune 0).pkg.fld Reg.HIF_TUNE_CFG_SLOTS ∧ ((hTune 0).pkg.host.tuneRun.any fun x => decide (x.target = 0)) = false ∧
    ((hTune 0).stake 0).vote.halted = false ∧ ((hTune 0).stake 0).vote.resync = false ∧ (hTune 0).readDone aTune.ring aTune.cid = true ∧
    aTune.table = [] ∧ aTune.writes = [(Reg.THM_CTRL, 2147483648)] ∧ (hTune 0).admits Src.tune 0 Reg.THM_CTRL 2147483648#32 ∧
    regAt Reg.THM_CTRL = some (rg Reg.THM_CTRL) ∧ ((hTune 0).stake 0).crossBad Reg.THM_CTRL 2147483648#32 = false ∧
    List.find? (fun x => decide (x.target = 0)) (hTune 3).pkg.host.tune = some aTune ∧
    (hTune 3).slotsUsed 0 < (hTune 3).pkg.fld Reg.HIF_TUNE_CFG_SLOTS ∧ ((hTune 3).pkg.host.tuneRun.any fun x => decide (x.target = 0)) = false ∧
    ((hTune 3).stake 0).vote.halted = false ∧ ((hTune 3).stake 0).vote.resync = false ∧ (hTune 3).readDone aTune.ring aTune.cid = true ∧
    (hTune 3).admits Src.tune 0 Reg.THM_CTRL 2147483648#32 ∧ ((hTune 3).stake 0).crossBad Reg.THM_CTRL 2147483648#32 = false ∧
    (hNew 1).takeDesc 0 64 = some (dsc 0 81 64 (ringBody 1), taken (hNew 1) 0 64) ∧ (hNew 1).underWay 0 (dsc 0 81 64 (ringBody 1)).cid ∧
    (hNew 1).pkg.boot.phase ≠ Phase.recovery ∧ (hNew 1).pkg.boot.phase ≠ Phase.testWait ∧ (hNew 1).pkg.boot.phase ≠ Phase.test ∧
    leOf (dsc 0 81 64 (ringBody 1)).body 8 2 ≠ 0 ∧ leOf (dsc 0 81 64 (ringBody 1)).body 8 2 < (hNew 1).pkg.host.rings.length ∧
    firstBad (ringCreateChecks (dsc 0 81 64 (ringBody 1)).body) = none ∧ (hNew 1).ringEn (leOf (dsc 0 81 64 (ringBody 1)).body 8 2) = false ∧
    (hNew 3).takeDesc 0 64 = some (dsc 0 81 64 (ringBody 3), taken (hNew 3) 0 64) ∧ (hNew 3).underWay 0 (dsc 0 81 64 (ringBody 3)).cid ∧
    (hNew 3).pkg.boot.phase ≠ Phase.recovery ∧ (hNew 3).pkg.boot.phase ≠ Phase.testWait ∧ (hNew 3).pkg.boot.phase ≠ Phase.test ∧
    leOf (dsc 0 81 64 (ringBody 3)).body 8 2 ≠ 0 ∧ leOf (dsc 0 81 64 (ringBody 3)).body 8 2 < (hNew 3).pkg.host.rings.length ∧
    firstBad (ringCreateChecks (dsc 0 81 64 (ringBody 3)).body) = none ∧ (hNew 3).ringEn (leOf (dsc 0 81 64 (ringBody 3)).body 8 2) = false ∧
    (hDel 9).takeDesc 0 65 = some (dsc 0 82 65 [9, 0], taken (hDel 9) 0 65) ∧ (hDel 9).underWay 0 (dsc 0 82 65 [9, 0]).cid ∧
    ((hDel 9).ring 0).deleting = [] ∧ leOf (dsc 0 82 65 [9, 0]).body 8 2 ≠ 0 ∧
    leOf (dsc 0 82 65 [9, 0]).body 8 2 < (hDel 9).pkg.host.rings.length ∧
    (hDel 1).takeDesc 0 65 = some (dsc 0 82 65 [1, 0], taken (hDel 1) 0 65) ∧ (hDel 1).underWay 0 (dsc 0 82 65 [1, 0]).cid ∧
    ((hDel 1).ring 0).deleting = [] ∧ leOf (dsc 0 82 65 [1, 0]).body 8 2 ≠ 0 ∧
    leOf (dsc 0 82 65 [1, 0]).body 8 2 < (hDel 1).pkg.host.rings.length ∧ hDelRun.takeDesc 0 65 = some (dsc 0 82 65 [1, 0], taken hDelRun 0 65) ∧
    hDelRun.underWay 0 (dsc 0 82 65 [1, 0]).cid ∧ (hDelRun.ring 0).deleting = [] ∧
    leOf (dsc 0 82 65 [1, 0]).body 8 2 < hDelRun.pkg.host.rings.length ∧
    hDelTune.takeDesc 0 65 = some (dsc 0 82 65 [2, 0], taken hDelTune 0 65) ∧ hDelTune.underWay 0 (dsc 0 82 65 [2, 0]).cid ∧
    (hDelTune.ring 0).deleting = [] ∧ leOf (dsc 0 82 65 [2, 0]).body 8 2 ≠ 0 ∧
    leOf (dsc 0 82 65 [2, 0]).body 8 2 < hDelTune.pkg.host.rings.length ∧
    (hGet 66 id).takeDesc 0 66 = some (dsc 0 83 66 (getBody 4), taken (hGet 66 id) 0 66) ∧
    (hGet 66 id).underWay 0 (dsc 0 83 66 (getBody 4)).cid ∧
    (hGet 66 hFaulty).takeDesc 0 66 = some (dsc 0 83 66 (getBody 4), taken (hGet 66 hFaulty) 0 66) ∧
    (hGet 66 hFaulty).underWay 0 (dsc 0 83 66 (getBody 4)).cid ∧
    (hGet 67 id).takeDesc 0 67 = some (dsc 0 83 67 (getBody 2), taken (hGet 67 id) 0 67) ∧
    (hGet 67 id).underWay 0 (dsc 0 83 67 (getBody 2)).cid ∧
    (hGet 67 hOneEvent).takeDesc 0 67 = some (dsc 0 83 67 (getBody 2), taken (hGet 67 hOneEvent) 0 67) ∧
    (hGet 67 hOneEvent).underWay 0 (dsc 0 83 67 (getBody 2)).cid ∧
    (hMode Part.trn8 15).takeDesc 0 68 = some (dsc 0 85 68 [2, 1], taken (hMode Part.trn8 15) 0 68) ∧
    (hMode Part.trn8 0).takeDesc 0 68 = some (dsc 0 85 68 [2, 1], taken (hMode Part.trn8 0) 0 68) ∧
    (hMode Part.trn2 0).takeDesc 0 68 = some (dsc 0 85 68 [2, 1], taken (hMode Part.trn2 0) 0 68) ∧ base.adminClosed = false ∧
    (decide (Src.host = Src.manager) && (base.stake 0).vote.halted) = false ∧ regAt Reg.HIF_ADMIN_CFG = some (rg Reg.HIF_ADMIN_CFG) ∧
    (rg Reg.HIF_ADMIN_CFG).inRange 2147485252 = true ∧ pkgCrossBad Reg.HIF_ADMIN_CFG 2147485252 = false ∧
    BitVec.getLsbD (2147485252 : BitVec 32) 31 = true ∧ base.pkg.flag Reg.HIF_ADMIN_CFG_EN = false ∧ 0 < base.pkg.host.rings.length ∧
    hAdmin.adminClosed = false ∧ (decide (Src.manager = Src.manager) && (hAdmin.stake 0).vote.halted) = false ∧
    (rg Reg.HIF_ADMIN_CFG).inRange 1604 = true ∧ pkgCrossBad Reg.HIF_ADMIN_CFG 1604 = false ∧ BitVec.getLsbD (1604 : BitVec 32) 31 = false ∧
    hAdmin.pkg.flag Reg.HIF_ADMIN_CFG_EN = true ∧ (phased Phase.ready hb).pkg.boot.phase ≠ Phase.held ∧ 1 ≤ 3 ∧ 3 ≤ 3 ∧ (2 = 1 ∨ 2 = 2) ∧
    hPend.pkg.boot.phase ≠ Phase.held ∧ 1 ≤ 1 ∧ (1 = 1 ∨ 1 = 2) := by
  and_intros <;> first | decide +kernel | exact admits_of (by decide +kernel) | exact underWay_of (by decide +kernel)

theorem witness_CanBuffers :
    1 < 2 ∧ 1 < (kCan []).pkg.net.can.length ∧ 5 < 68 ∧ (kCan []).alive 1 = true ∧ 1 < cFull.pkg.net.can.length ∧ cFull.alive 1 = true ∧
    cFull.pkgAdmits Src.host (canBuf 1 5 + 8) 67305472 ∧ (Src.host ≠ Src.manager → cFull.canOwned 1 5 = false) ∧
    BitVec.getLsbD (67305472 : BitVec 32) 26 = true ∧ BitVec.getLsbD (67305472 : BitVec 32) 27 = false ∧
    BitVec.getLsbD (67305472 : BitVec 32) 28 = false ∧ 4 ≤ 5 ∧ 1 < (cTx 0 []).pkg.net.can.length ∧ (cTx 0 []).alive 1 = true ∧
    (cTx 0 []).pkgAdmits Src.host (canBuf 1 5 + 8) 268435456 ∧ (Src.host ≠ Src.manager → (cTx 0 []).canOwned 1 5 = false) ∧
    (cTx 0 []).pkg.flag (cbDir 1 5) = true ∧ (cTx 0 []).pkg.flag (cbEn 1 5) = true ∧ (cTx 0 []).pkg.flag (cbTxReq 1 5) = false ∧
    BitVec.getLsbD (268435456 : BitVec 32) 28 = true ∧ BitVec.getLsbD (268435456 : BitVec 32) 27 = false ∧ 1 < (cTx 1 []).pkg.net.can.length ∧
    (cTx 1 []).alive 1 = true ∧ (cTx 1 []).pkgAdmits Src.host (canBuf 1 5 + 8) 134217728 ∧
    (Src.host ≠ Src.manager → (cTx 1 []).canOwned 1 5 = false) ∧ (cTx 1 []).pkg.flag (cbDir 1 5) = true ∧ (cTx 1 []).pkg.flag (cbEn 1 5) = true ∧
    (cTx 1 []).pkg.flag (cbTxReq 1 5) = true ∧ BitVec.getLsbD (134217728 : BitVec 32) 27 = true ∧ 1 < (cTx 1 [5]).pkg.net.can.length ∧
    (cTx 1 [5]).canSending 1 1 99 = true ∧ (∀ (x t0 : Nat), ((cTx 1 [5]).canSt 1).excl = some (x, t0) → x ≠ 1) ∧ 0 = 0 ∧
    (cTx 1 []).canSending 1 1 99 = true ∧ (∀ (x t0 : Nat), ((cTx 1 []).canSt 1).excl = some (x, t0) → x ≠ 1) ∧ (kCan []).canOn 1 = true ∧
    cOff.pkg.flag (Reg.CAN_CTRL_EN 1) = true ∧ cOff.pkg.flag (Reg.CAN_CTRL_AUTO_RECOVER 1) = true ∧ cOff.pkg.fld (Reg.CAN_STATUS_STATE 1) = 2 ∧
    (kCan []).pkgAdmits Src.host (Reg.CAN_CTRL 1) 0 ∧ BitVec.getLsbD (0 : BitVec 32) 31 ≠ (kCan []).pkg.flag (Reg.CAN_CTRL_EN 1) ∧
    base.alive 1 = true ∧ base.pkgAdmits Src.host (Reg.CAN_CTRL 1) 2415919112 ∧
    BitVec.getLsbD (2415919112 : BitVec 32) 31 ≠ base.pkg.flag (Reg.CAN_CTRL_EN 1) := by
  and_intros <;> first | decide +kernel | exact pkgAdmits_of (by decide +kernel) | (intro x t0 h; exact absurd (Option.isSome_iff_exists.2 ⟨_, h⟩) (by decide +kernel))

theorem witness_NetworkTime :
    nWrap.pkg.net.usWrap = true ∧ 1 < nSlave.pkg.net.can.length ∧ nSlave.canOn 1 = true ∧ nSlave.pkg.flag (Reg.CAN_CTRL_TT_EN 1) = true ∧
    nSlave.pkg.flag (Reg.CAN_CTRL_TT_ROLE 1) = false ∧
    (∀ (t0 : Nat), (nSlave.canSt 1).sentAt = some t0 → t0 + 400 * nSlave.pkg.fld (Reg.CAN_TT_CFG_CYCLE_US 1) ≤ (nSlave.stake 1).now) ∧ 1 < 2 ∧
    nMaster.present 1 = true ∧ nMaster.pkg.flag (Reg.CAN_STATUS_TT_RUN 1) = true ∧ nMaster.pkg.flag (Reg.CAN_CTRL_TT_ROLE 1) = true ∧
    (nMaster.canSt 1).refAt + 400 * (nMaster.pkg.fld (Reg.CAN_TT_CFG_CYCLE_US 1) + nMaster.pkg.fld (Reg.CAN_TT_GUARD_REF_TOL 1)) ≤ (nMaster.stake 1).now ∧
    1 < nEntry.pkg.net.can.length ∧ nEntry.canOn 1 = true ∧ nEntry.pkg.flag (Reg.CAN_STATUS_TT_RUN 1) = true ∧
    0 ≤ nEntry.pkg.fld (Reg.CAN_TT_CFG_COLS 1) ∧
    (nEntry.pkg.rd Reg.CAN_US - (nEntry.canSt 1).cycleAt).toNat = nEntry.pkg.fld { off := 8461312 + 16384 * 1 + 4 * 0, lo := 0, w := 16 : Fld } ∧
    nEntry.ttCell 1 0 = (1, 2) ∧ nEntry.pkg.flag (cbEn 1 (2 + 4)) = true ∧ nEntry.pkg.flag (cbDir 1 (2 + 4)) = true ∧
    (nExcl.canSt 1).excl = some (3, 0) ∧ 0 + 400 * nExcl.pkg.fld (Reg.CAN_TT_CFG_TX_EN_US 1) ≤ (nExcl.stake 1).now ∧ 3 < 64 ∧
    nStats.inService 1 = true ∧ nStats.pkg.flag Reg.CAN_STAT_CFG_STAT_EN = true ∧
    (nStats.pkg.net.statAt = none ∨ nStats.statusBytes ≠ nStats.pkg.net.statLast) ∧ (nSync 0).ethOn = true ∧ (nSync 0).managerRuns = true ∧
    (nSync 0).pkg.net.pdelayAt = none ∧ (nSync 1).ethOn = true ∧ (nSync 1).managerRuns = true ∧ (nSync 1).pkg.net.pdelayAt = none ∧
    nThree.ethOn = true ∧ nThree.managerRuns = true ∧ nThree.pkg.net.pdelayAt = none ∧ (nSync 2).ethOn = true ∧ (nSync 2).managerRuns = true ∧
    (nSync 2).pkg.net.pdelayAt = none ∧ (nSync 2).timeState = 2 ∧ (nSync 3).ethOn = true ∧ (nSync 3).managerRuns = true ∧
    (nSync 3).pkg.net.pdelayAt = none ∧ (nEth 3 1 id).ethOn = true ∧ (nEth 3 1 id).managerRuns = true ∧ (nEth 3 1 id).pkg.net.pdelayAt = none ∧
    (nPd false).ethOn = true ∧ (nPd false).managerRuns = true ∧ (nPd false).pkg.net.pdelayAt = none ∧ (nPd false).timeState = 2 ∧
    (nPd true).ethOn = true ∧ (nPd true).managerRuns = true ∧ (nPd true).pkg.net.pdelayAt = none ∧ (nPd true).timeState = 2 ∧
    nFollow.ethOn = true ∧ nFollow.managerRuns = true ∧ nFollow.pkg.net.pdelayAt = none ∧ nFollow.timeState = 2 ∧ nLate.ethOn = true ∧
    nLate.managerRuns = true ∧ nLate.pkg.net.pdelayAt = none ∧ nLate.timeState = 2 ∧
    nLate.pkg.net.syncAt + 3 * nLate.pkg.net.syncEvery ≤ nLate.time ∧ 64 ≤ BitVec.toInt (100 - ((nSync 0).stake 0).ang.tick) ∧
    iabs 3 ≤ 219902326 ∧ BitVec.toNat (7 : BitVec 48) < 65536000000 ∧ 64 ≤ BitVec.toInt (100 - ((nSync 1).stake 0).ang.tick) ∧
    nFar.ethOn = true ∧ nFar.managerRuns = true ∧ 64 ≤ BitVec.toInt (100 - (nFar.stake 0).ang.tick) ∧
    64 ≤ BitVec.toInt (100 - ((nSync 2).stake 0).ang.tick) ∧ nTimeout.managerRuns = true ∧ nTimeout.timeState = 3 ∧
    nTimeout.pkg.net.holdAt + 400000000 * nTimeout.pkg.fld Reg.ETH_SERVO_HOLD_MAX < nTimeout.time := by
  and_intros <;> first | decide +kernel | (intro t0 h; exact absurd (Option.isSome_iff_exists.2 ⟨_, h⟩) (by decide +kernel))

theorem witness_StartPhases :
    base.present 2 = true ∧ 3101 < 65536 ∧ 3000 < 65536 ∧ 2900 < 65536 ∧ 399 < 400 ∧ 400 ≤ 400 ∧ (inPhase Phase.upsett).pkg.boot.cfgOp = none ∧
    (inPhase Phase.upsett).pkg.boot.rwOp = none ∧ (inPhase Phase.upsett).pkg.boot.otpJobs = [] ∧ resetUpsett.pkg.boot.phase = Phase.upsett ∧
    resetUpsett.stakes.length = 8 ∧ okAll.length = resetUpsett.part.stakes ∧ firstBad0.length = resetUpsett.part.stakes ∧
    ((inPhase Phase.imagePreferred).pkg.boot.phase = Phase.imagePreferred ∨ (inPhase Phase.imagePreferred).pkg.boot.phase = Phase.imageOther) ∧
    ((inPhase Phase.imageOther).pkg.boot.phase = Phase.imagePreferred ∨ (inPhase Phase.imageOther).pkg.boot.phase = Phase.imageOther) ∧ 3 ≠ 0 ∧
    (dist 0 [0]).pkg.boot.phase = Phase.distribution ∧ (dist 0 [0]).alive 3 = true ∧ ((dist 0 [0]).stake 3).wal.started = false ∧
    (dist 48 [0]).pkg.boot.phase = Phase.distribution ∧ (dist 48 [0]).alive 3 = true ∧ ((dist 48 [0]).stake 3).wal.started = false ∧
    (dist 64 [0]).pkg.boot.phase = Phase.distribution ∧ (dist 64 [0]).alive 3 = true ∧ (¬3 ∈ (dist 64 [0]).pkg.boot.distDone) ∧
    leOf (dist 64 [0]).pkg.boot.running 8 4 ≤ ((dist 64 [0]).stake 3).wal.fwBytes ∧
    ((dist 64 [0]).stake 3).wal.fwAt + 4000000 ≤ ((dist 64 [0]).stake 3).now ∧ (dist 64 [0]).pkg.evq.length < 510 ∧
    (dist 64 [0, 1, 2, 4, 5, 6, 7]).pkg.boot.phase = Phase.distribution ∧ (dist 64 [0, 1, 2, 4, 5, 6, 7]).alive 3 = true ∧
    (¬3 ∈ (dist 64 [0, 1, 2, 4, 5, 6, 7]).pkg.boot.distDone) ∧
    leOf (dist 64 [0, 1, 2, 4, 5, 6, 7]).pkg.boot.running 8 4 ≤ ((dist 64 [0, 1, 2, 4, 5, 6, 7]).stake 3).wal.fwBytes ∧
    ((dist 64 [0, 1, 2, 4, 5, 6, 7]).stake 3).wal.fwAt + 4000000 ≤ ((dist 64 [0, 1, 2, 4, 5, 6, 7]).stake 3).now ∧
    (dist 64 [0, 1, 2, 4, 5, 6, 7]).pkg.evq.length < 510 ∧ (inPhase Phase.configuration).pkg.boot.phase = Phase.configuration ∧
    withCfg.pkg.boot.phase = Phase.configuration ∧ rewriting.pkg.boot.rewrite = [2] ∧ 2 < rewriting.pkg.nv.cfg.length ∧
    rewriting.pkg.boot.phase = Phase.ready ∧ (rewriting.stake 0).flag Reg.SUP_STATUS_INHIBIT = false ∧ rewriting.pkg.boot.cfgOp = none ∧
    rewriting.pkg.boot.rwOp = none ∧ (rewriting.stake 0).vote.halted = false ∧ (inPhase Phase.ready).pkg.boot.rewrite = [] ∧
    (inPhase Phase.ready).pkgAdmits Src.host Reg.SEC_RESET 42435 ∧ (inPhase Phase.ready).pkgAdmits Src.host Reg.SEC_RESET 42436 ∧
    calm.pkgAdmits Src.host Reg.SEC_RESET 42435 := by
  and_intros <;> first | decide +kernel | exact pkgAdmits_of (by decide +kernel)

theorem witness_SealAndStore :
    (hCfg 1 0).takeDesc 5 48 = some (dsc 5 90 48 (cwBody 1), taken (hCfg 1 0) 5 48) ∧ (hCfg 1 0).underWay 5 (dsc 5 90 48 (cwBody 1)).cid ∧
    (hCfg 2 0).takeDesc 5 48 = some (dsc 5 90 48 (cwBody 2), taken (hCfg 2 0) 5 48) ∧ (hCfg 2 0).underWay 5 (dsc 5 90 48 (cwBody 2)).cid ∧
    (hCfg 1 1).takeDesc 5 48 = some (dsc 5 90 48 (cwBody 1), taken (hCfg 1 1) 5 48) ∧ (hCfg 1 1).underWay 5 (dsc 5 90 48 (cwBody 1)).cid ∧
    hCfgOp.pkg.boot.cfgOp = some cfgJob ∧ cfgJob.digests = 3 ∧ (hCfgOp.stake 0).vote.halted = false ∧ hCfgOp.underWay cfgJob.ring cfgJob.cid ∧
    (hCfgOp.pkg.boot.inForce ≠ none ∨ hCfgOp.pkg.boot.phase ≠ Phase.ready ∨ ([] : List (Nat × Reg32)) = []) ∧
    hFw.takeDesc 5 49 = some (dsc 5 91 49 fsBody, taken hFw 5 49) ∧ hFw.underWay 5 (dsc 5 91 49 fsBody).cid ∧ hFwOp.pkg.boot.fwOp = some fwJob ∧
    hFwOp.readDone fwJob.ring fwJob.cid = true ∧ hFwOp.underWay fwJob.ring fwJob.cid ∧
    (hCommit false).takeDesc 5 50 = some (dsc 5 92 50 [1], taken (hCommit false) 5 50) ∧ (hCommit false).underWay 5 (dsc 5 92 50 [1]).cid ∧
    (hCommit true).takeDesc 5 50 = some (dsc 5 92 50 [1], taken (hCommit true) 5 50) ∧ (hCommit true).underWay 5 (dsc 5 92 50 [1]).cid ∧
    (hAtt 1536).takeDesc 0 69 = some (dsc 0 93 69 (atBody 1536), taken (hAtt 1536) 0 69) ∧
    (hAtt 1536).underWay 0 (dsc 0 93 69 (atBody 1536)).cid ∧
    (hAtt 1535).takeDesc 0 69 = some (dsc 0 93 69 (atBody 1535), taken (hAtt 1535) 0 69) ∧
    (hAtt 1535).underWay 0 (dsc 0 93 69 (atBody 1535)).cid ∧ (hSeal 0).pkg.boot.sealQ = [] ∧ (hSeal 2).pkg.boot.sealQ = [] ∧
    hSealRw.pkg.boot.sealQ = [] ∧ (hSealCommit 0).pkg.boot.sealQ = [] ∧ hSealAtt.pkg.boot.sealQ = [] ∧
    hb.pkgAdmits Src.host Reg.SEC_ENROLL 15450 ∧ hb.pkgAdmits Src.host Reg.SEC_ENROLL 15451 ∧
    (hOtp [2176]).pkg.boot.otpJobs = [{ bits := [2176], due := some 0, enrol := true, old := 0 : OtpJob }] ∧
    { bits := [2176], due := some 0, enrol := true, old := 0 : OtpJob }.due = some 0 ∧
    { bits := [2176], due := some 0, enrol := true, old := 0 : OtpJob }.bits = [2176] ∧ 0 ≤ (hOtp [2176]).time ∧ ([] : List (Nat × Reg32)) = [] ∧
    { bits := [2176], due := some 0, enrol := true, old := 0 : OtpJob }.enrol = true ∧
    (hOtp [2176, 2112]).pkg.boot.otpJobs = [{ bits := [2176, 2112], due := some 0, enrol := true, old := 0 : OtpJob }] ∧
    { bits := [2176, 2112], due := some 0, enrol := true, old := 0 : OtpJob }.due = some 0 ∧
    { bits := [2176, 2112], due := some 0, enrol := true, old := 0 : OtpJob }.bits = [2176, 2112] ∧ 0 ≤ (hOtp [2176, 2112]).time ∧ [2112] ≠ [] ∧
    (phased Phase.testWait hb).pkgAdmits Src.host Reg.SEC_UNLOCK_CTRL 1 ∧ (phased Phase.ready hb).pkgAdmits Src.host Reg.SEC_UNLOCK_CTRL 1 ∧
    hErase.pkg.boot.erasing = true ∧ (hErase.stake 0).flag Reg.SUP_STATUS_INHIBIT = false := by
  and_intros <;> first | decide +kernel | exact pkgAdmits_of (by decide +kernel) | exact underWay_of (by decide +kernel) | (unfold Stake.due; decide +kernel) | rfl | exact .inr (.inr rfl)

end Sys2Proof.Tests
end

/-! Proofs of the scope family (R6, R16): host accesses of another width or alignment, and accesses to the window of a stake that is absent
or lost. -/
namespace Sys2Proof.Machine

section
variable (s : State)

/-! The answer to a host read joins `hostReads` and touches nothing else. -/

@[simp] theorem State.answer_hostReads (a : Nat) (v : BitVec 32) : (s.answer a v).pkg.hostReads = s.pkg.hostReads ++ [(a, v)] := rfl

theorem State.posted_answer {t : State} {e : Ev} {c : Nat} {l : List Nat} (a : Nat) (v : BitVec 32) (h : s.posted t e c l) :
    s.posted (t.answer a v) e c l := h

theorem State.stakesKept_answer {t : State} (a : Nat) (v : BitVec 32) (h : s.stakesKept t) : s.stakesKept (t.answer a v) := h

theorem Pkg.regsKept_answer {p : Pkg} {l : List Nat} (a : Nat) (v : BitVec 32) (h : p.regsKept s.pkg l) :
    p.regsKept (s.answer a v).pkg l := h

theorem Pkg.restKept_answer {p : Pkg} (a : Nat) (v : BitVec 32) (h : p.restKept s.pkg) : p.restKept (s.answer a v).pkg := h

/-! An access the host may not make is posted, and answered with all-ones if it is a read (R6, R36). -/

/-- What such an access leaves behind; `exec_badWidthAccess` is the command that gives it. -/
def State.refuseAccess (s : State) (write : Bool) (addr : Nat) : State :=
  if write then s.badAccess addr else (s.badAccess addr).answer addr ones

theorem State.refuseAccess_hostReads (write : Bool) (addr : Nat) : (s.refuseAccess write addr).pkg.hostReads =
    if write then s.pkg.hostReads else s.pkg.hostReads ++ [(addr, BitVec.allOnes 32)] := by
  cases write with
  | true => exact s.badAccess_hostReads addr
  | false => simp [State.refuseAccess, ones]

theorem State.refuseAccess_posted (write : Bool) (addr : Nat) : s.posted (s.refuseAccess write addr) .hifBadAccess 0 [addr] := by
  cases write with
  | true => exact s.badAccess_posted addr
  | false => exact s.posted_answer addr ones (s.badAccess_posted addr)

theorem State.refuseAccess_stakesKept (write : Bool) (addr : Nat) : s.stakesKept (s.refuseAccess write addr) := by
  cases write with
  | true => exact s.badAccess_stakesKept addr
  | false => exact s.stakesKept_answer addr ones (s.badAccess_stakesKept addr)

theorem State.refuseAccess_regsKept (write : Bool) (addr : Nat) :
    s.pkg.regsKept (s.refuseAccess write addr).pkg [Reg.HIF_BAD_ACCESS_CNT, Reg.HIF_EVT_LOST_CNT] := by
  cases write with
  | true => exact s.badAccess_regsKept addr
  | false => exact Pkg.regsKept_answer _ addr ones (s.badAccess_regsKept addr)

theorem State.refuseAccess_restKept (write : Bool) (addr : Nat) : s.pkg.restKept (s.refuseAccess write addr).pkg := by
  cases write with
  | true => exact s.badAccess_restKept addr
  | false => exact Pkg.restKept_answer _ addr ones (s.badAccess_restKept addr)

/-- An access inside BAR0 that is not an aligned word is refused (R6). -/
theorem exec_badWidthAccess (write : Bool) {addr bytes : Nat} (ha : addr < 0x1000000) (hb : ¬ (bytes = 4 ∧ addr % 4 = 0)) :
    exec (.badWidthAccess write addr bytes) s = .next (s.refuseAccess write addr) := by
  have hw : ((bytes = 4 && addr % 4 = 0) || decide (0x1000000 ≤ addr)) = false := by simpa [Nat.not_le.2 ha] using hb
  change execBadWidthAccess write addr bytes s = _
  rw [execBadWidthAccess, hw]
  rfl

/-! A stake that is not alive takes no write, and its window reads all-ones (R16, R31). -/

variable {s} {n : Nat} (h : s.alive n = false)
include h

theorem State.takesFrom_of_not_alive (src : Src) : s.takesFrom src n = false := by simp [State.takesFrom, h]

theorem State.crossed_of_not_alive (src : Src) (kind tag : Nat) (ws : List Nat) : s.crossed src n kind tag ws = s := by
  simp [State.crossed, h]

theorem State.stakeReg_of_not_alive (src : Src) (off : Nat) (w : Reg32) : s.stakeReg src n off w = s := by
  simp [State.stakeReg, State.takesFrom_of_not_alive h]

theorem State.readStake_of_not_alive (off : Nat) : s.readStake n off = (ones, s) := by simp [State.readStake, h]

end

section
variable {s : State} {addr : Nat} (hw : addr < 0x800000) (h : s.alive (addr / 0x100000) = false)
include hw h

/-- A host access to the window of such a stake sends no cell through the ring. -/
theorem State.crossedAt_of_not_alive (src : Src) (kind : Nat) (ws : List Nat) : s.crossedAt src addr kind ws = s := by
  rw [State.crossedAt, targetOf, if_pos hw, State.crossed_of_not_alive h]

/-- Aligned or not, a write to the window of such a stake is discarded. -/
theorem State.regWrite_of_not_alive (src : Src) (w : Reg32) : s.regWrite src addr w = s := by
  rw [State.regWrite, if_pos hw, State.stakeReg_of_not_alive h, ite_self]

/-- Before READY or after, a read from the window of such a stake gives all-ones (R16, R342). -/
theorem State.readAddr_of_not_alive : s.readAddr addr = (ones, s) := by
  rw [State.readAddr, if_pos hw, State.readStake_of_not_alive h, ite_self]

theorem exec_absentStakeAccess_read : exec (.absentStakeAccess false addr) s = .next (s.answer addr ones) := by
  change execAbsentStakeAccess false addr s = _
  simp [execAbsentStakeAccess, h, Nat.not_le.2 hw]

theorem exec_setupRegisterWrite_of_not_alive (src : Src) (w : Reg32) : exec (.setupRegisterWrite src addr w) s = .next s := by
  change execSetupRegisterWrite src addr w s = _
  rw [execSetupRegisterWrite, State.crossedAt_of_not_alive hw h, State.regWrite_of_not_alive hw h]

end

theorem exec_absentStakeAccess_write (s : State) (addr : Nat) : exec (.absentStakeAccess true addr) s = .next s := by
  change execAbsentStakeAccess true addr s = _
  simp [execAbsentStakeAccess]

/-- Settles O5: the access is refused, and each part is what `refuseAccess` is known to do. -/
theorem badWidthAccess : Obligations.BadWidthAccess := fun s write addr _ ha hb =>
  ⟨_, exec_badWidthAccess s write ha hb, s.refuseAccess_hostReads write addr, s.refuseAccess_posted write addr,
    s.refuseAccess_stakesKept write addr, s.refuseAccess_regsKept write addr, s.refuseAccess_restKept write addr⟩

/-- Settles O24: the command of R16 itself, the read of the address, and the write by `SETUP_REGISTER_WRITE`. -/
theorem absentStakeAccess : Obligations.AbsentStakeAccess := fun s addr hw h =>
  ⟨exec_absentStakeAccess_read hw h, exec_absentStakeAccess_write s addr, congrArg Prod.fst (State.readAddr_of_not_alive hw h),
    fun src w => exec_setupRegisterWrite_of_not_alive hw h src w⟩

end Sys2Proof.Machine

/-! Proofs of the architecture family (R36, R38): host accesses to the reserved package range and to the upper half of BAR2. -/
namespace Sys2Proof.Machine

/-- An access in the reserved package range is refused (R36). -/
theorem exec_reservedPackageAccess (s : State) (write : Bool) {addr : Nat} (hlo : 0x860000 ≤ addr) (hhi : addr < 0x1000000) :
    exec (.reservedPackageAccess write addr) s = .next (s.refuseAccess write addr) := by
  have hr : ¬ ((addr < 0x860000 || 0x1000000 ≤ addr) = true) := by simpa using ⟨hlo, hhi⟩
  change execReservedPackageAccess write addr s = _
  rw [execReservedPackageAccess, if_neg hr]
  rfl

/-- A write in the upper half of BAR2 is refused, whatever its data (R38). -/
theorem exec_bar2ReservedWrite (s : State) {addr : Nat} (w : Reg32) (hlo : 0x800 ≤ addr) (hhi : addr < 0x1000) :
    exec (.bar2ReservedWrite addr w) s = .next (s.badAccess addr) := by
  have hr : (0x800 ≤ addr && addr < 0x1000) = true := by simpa using ⟨hlo, hhi⟩
  change execBar2ReservedWrite addr w s = _
  rw [execBar2ReservedWrite, if_pos hr]

/-- Settles O25: both commands refuse the access, and each part is what `refuseAccess`, or `badAccess` for BAR2, is known to do. -/
theorem reservedAccess : Obligations.ReservedAccess :=
  ⟨fun s write addr hlo hhi => ⟨_, exec_reservedPackageAccess s write hlo hhi, s.refuseAccess_hostReads write addr,
      s.refuseAccess_posted write addr, s.refuseAccess_stakesKept write addr, s.refuseAccess_regsKept write addr,
      s.refuseAccess_restKept write addr⟩,
    fun s addr w hlo hhi => ⟨_, exec_bar2ReservedWrite s w hlo hhi, s.badAccess_hostReads addr, s.badAccess_posted addr,
      s.badAccess_stakesKept addr, s.badAccess_regsKept addr, s.badAccess_restKept addr⟩⟩

end Sys2Proof.Machine

/-! Proofs of the time and angle family (R56, R61): the scheduler's entries. What a command does is told on the stake it reaches. -/
namespace Sys2Proof.Machine

/-- A command depends only on what it makes of the stake it reaches. -/
theorem State.onStake_congr {s : State} {n : Nat} {f g : Stake → Stake} (h : f (s.stake n) = g (s.stake n)) :
    s.onStake n f = s.onStake n g := by
  have hl : updAt s.stakes n f = updAt s.stakes n g := by
    refine List.ext_getElem (by simp [updAt]) fun i hi _ => ?_
    by_cases hn : n = i
    · subst hn
      have hlt : n < s.stakes.length := by simpa [updAt] using hi
      simpa [updAt, State.stake, List.getD_eq_getElem?_getD, List.getElem?_eq_getElem hlt] using h
    · simp [updAt, hn]
  rw [State.onStake, State.onStake, hl]

/-- A command that leaves the stake it reaches as it was changes nothing. -/
theorem State.onStake_self {s : State} {n : Nat} {f : Stake → Stake} (h : f (s.stake n) = s.stake n) : s.onStake n f = s := by
  rw [State.onStake_congr (g := id) h]
  have hid : updAt s.stakes n id = s.stakes := by simp [updAt]
  rw [State.onStake, hid, ite_self]

/-! A BOUNDARY entry whose offset lies beyond the period (R56). -/

/-- Four ticks before the entry's instant in the period of the boundary that lies ahead (R464). -/
def Stake.aheadDue (k : Stake) (e : Nat) : Bool :=
  k.boundaryAhead.any fun b => laterTick b k.ang.tick && k.ang.tick + 4 = b + w48 ((k.entry e).tgt.toNat % 4294967296 : Nat)

/-- While the carrier runs, the boundary ahead is the next one. -/
theorem Stake.aheadDue_of_run {k : Stake} {e : Nat} (hrun : k.modu.run = true)
    (h : ¬ (laterTick k.modu.nextB k.ang.tick = true ∧ k.ang.tick + 4 = k.modu.nextB + w48 ((k.entry e).tgt.toNat % 4294967296))) :
    k.aheadDue e = false := by
  simpa [Stake.aheadDue, Stake.boundaryAhead, hrun] using h

/-- The entry is skipped in the present period, and the skip is counted. -/
def Stake.skipBoundary (k : Stake) (e : Nat) : Stake :=
  (k.onAng fun a => { a with bndDone := (e, k.ang.period.1) :: a.bndDone }).bump Reg.ANG_SKIP_CNT

theorem Stake.skipBoundary_ang (k : Stake) (e : Nat) :
    (k.skipBoundary e).ang = { k.ang with bndDone := (e, k.ang.period.1) :: k.ang.bndDone } := rfl

theorem Stake.skipBoundary_counts (k : Stake) (e : Nat) :
    (k.skipBoundary e).rd Reg.ANG_SKIP_CNT = satAdd 16 (k.rd Reg.ANG_SKIP_CNT) 1 := Stake.rd_bump_same _ _

theorem Stake.skipBoundary_regsKept (k : Stake) (e : Nat) : k.regsKept (k.skipBoundary e) [Reg.ANG_SKIP_CNT] :=
  Stake.regsKept_trans (Stake.regsKept_of_eq rfl rfl) (Stake.regsKept_bump _ 1 List.mem_cons_self)

theorem Stake.skipBoundary_aheadDue (k : Stake) (e : Nat) : (k.skipBoundary e).aheadDue e = k.aheadDue e := rfl

theorem Stake.skipBoundary_done (k : Stake) (e : Nat) :
    (k.skipBoundary e).ang.bndDone.contains (e, (k.skipBoundary e).ang.period.1) = true := by
  simp [Stake.skipBoundary_ang]

section
variable {s : State} {n e : Nat} (hahead : (s.stake n).aheadDue e = false)
include hahead

theorem exec_boundaryEntryDue_of_offset_beyond (hlive : (s.stake n).entryLive e 3 = true)
    (hnow : (s.stake n).ang.firedNow.contains e = false) (hrun : (s.stake n).modu.run = true)
    (hdone : (s.stake n).ang.bndDone.contains (e, (s.stake n).ang.period.1) = false) (hlen : 0 < (s.stake n).ang.period.2)
    (hoff : (s.stake n).ang.period.2 ≤ ((s.stake n).entry e).tgt.toNat % 4294967296) :
    exec (.boundaryEntryDue n e) s = .next (s.onStake n fun k => k.skipBoundary e) := by
  rw [Stake.aheadDue] at hahead
  refine congrArg Host.Outcome.next (State.onStake_congr ?_)
  simp only [hlive, hnow, hahead, hrun, hdone, hlen.ne', hoff, if_true, if_false, Bool.not_true, Bool.or_false, decide_false,
    Bool.false_eq_true]
  rfl

/-- An entry that has had its turn in the present period is not looked at again until the following boundary. -/
theorem exec_boundaryEntryDue_of_done (hdone : (s.stake n).ang.bndDone.contains (e, (s.stake n).ang.period.1) = true) :
    exec (.boundaryEntryDue n e) s = .next s := by
  rw [Stake.aheadDue] at hahead
  refine congrArg Host.Outcome.next (State.onStake_self ?_)
  simp only [hahead, hdone, Bool.or_true, if_true, Bool.false_eq_true, if_false, ite_self]

end

/-- Settles O10: the entry is skipped and counted, and the list of entries done with holds off a second look. -/
theorem boundarySkipped : Obligations.BoundarySkipped := by
  intro s n e hp hlive hnow hrun k hnext hdone hlen hoff
  have hahead : k.aheadDue e = false := Stake.aheadDue_of_run hrun hnext
  have ht : (s.onStake n fun k => k.skipBoundary e).stake n = k.skipBoundary e := State.onStake_stake_same hp _
  refine ⟨_, exec_boundaryEntryDue_of_offset_beyond hahead hlive hnow hrun hdone hlen hoff, s.onStake_elsewhere n _, ?_⟩
  have hagain := exec_boundaryEntryDue_of_done (s := s.onStake n fun k => k.skipBoundary e) (n := n) (e := e)
    (by rw [ht, Stake.skipBoundary_aheadDue, hahead]) (by rw [ht]; exact k.skipBoundary_done e)
  rw [ht]
  exact ⟨k.skipBoundary_counts e, rfl, rfl, rfl, k.skipBoundary_regsKept e, _, hagain, congrArg Stake.ang ht⟩

/-! An ANGLE entry whose clock is INVALID (R61). -/

/-- An element that a map leaves as it was. -/
theorem nth_map_of_fixed {α} {d : α} {l : List α} {i : Nat} {f : α → α} (h : f (nth d l i) = nth d l i) :
    nth d (l.map f) i = nth d l i := by
  simp only [nth, List.getD_eq_getElem?_getD, List.getElem?_map] at h ⊢
  cases hi : l[i]? with
  | none => rfl
  | some x => simpa [hi] using h

section
variable {s : State} {n e : Nat} (hinv : ((s.stake n).clock ((s.stake n).entry e).src).valid = false)
include hinv

theorem exec_angleEntryDue_of_invalid : exec (.angleEntryDue n e) s = .next s := by
  refine congrArg Host.Outcome.next (State.onStake_self ?_)
  simp only [hinv, Bool.not_false, Bool.or_true, if_true]

theorem exec_entryRearm_of_invalid : exec (.entryRearm n e) s = .next s := by
  refine congrArg Host.Outcome.next (State.onStake_self ?_)
  simp only [Stake.bandRearm, hinv, Bool.not_false, Bool.or_true, Bool.true_or, if_true]

/-- A toggle of either clock's direction flag re-arms no entry of an INVALID clock: that clock's own does nothing, and the other's passes
by the entries it does not drive. -/
theorem exec_directionRearm_of_invalid (hp : s.present n = true) (c : Nat) :
    ∃ t, exec (.directionRearm n c) s = .next t ∧ (t.stake n).entry e = (s.stake n).entry e ∧
      (t.stake n).ang.acts = (s.stake n).ang.acts ∧ (t.stake n).ang.carried = (s.stake n).ang.carried := by
  refine ⟨_, rfl, ?_⟩
  rw [State.onStake_stake_same hp]
  by_cases hc : ((s.stake n).entry e).src = c
  · rw [hc] at hinv
    simp [hinv]
  · dsimp only
    split
    · exact ⟨rfl, rfl, rfl⟩
    · refine ⟨nth_map_of_fixed (if_neg fun hd => hc ?_), rfl, rfl⟩
      simp only [Bool.and_eq_true, decide_eq_true_eq] at hd
      obtain ⟨⟨⟨-, hsrc⟩, -⟩, -⟩ := hd
      exact hsrc

end

/-- Settles O11: neither the command that fires the entry nor any of the three that re-arm it touches it. -/
theorem invalidClockHolds : Obligations.InvalidClockHolds := by
  intro s n e hp _ hinv c hc
  simp only [List.mem_cons, List.not_mem_nil, or_false] at hc
  rcases hc with rfl | rfl | rfl | rfl
  · exact ⟨s, exec_angleEntryDue_of_invalid hinv, rfl, rfl, rfl⟩
  · exact ⟨s, exec_entryRearm_of_invalid hinv, rfl, rfl, rfl⟩
  · exact exec_directionRearm_of_invalid hinv hp 0
  · exact exec_directionRearm_of_invalid hinv hp 1

end Sys2Proof.Machine

/-! The time and angle family, continued (R9, R69, R376): a write that clears `STR_CTRL.CFG_REFUSED` and asks for an `APPLY` besides. -/
namespace Sys2Proof.Machine

/-- A write that carries a W1C bit of a stake's register is made as it is, and then the device sets what it sets in the same tick. -/
theorem exec_w1cClear_of_clears (s : State) {n off : Nat} {w : Reg32} (set : Reg32) (hn : n < 8) (hoff : off < 0x100000)
    (h : clears off w = true) : exec (.w1cClear (n * 0x100000 + off) w set) s =
      .next (((s.crossedAt .host (n * 0x100000 + off) 1 [w.toNat]).regWrite .host (n * 0x100000 + off) w).setFlags
        (n * 0x100000 + off) set) := by
  have ha : n * 0x100000 + off < 0x800000 := by omega
  have hm : (n * 0x100000 + off) % 0x100000 = off := by omega
  change execW1cClear _ _ _ _ = _
  rw [execW1cClear, if_pos ha, hm, if_pos h]

/-- An unlocked package whose stakes are all alive and whose stake 0 has five streams of 64 KiB staged and enabled, more than the 256 KiB
an `APPLY` accepts (R376). -/
def overfullStreams : State :=
  (State.reset.onPkg fun p => p.put Reg.HIF_PKG_ALIVE_ALIVE 255).onStake 0 fun k =>
    (List.range 5).foldl (fun q i => (q.putB (Reg.STR_STREAM_CFG_EN i) true).put (Reg.STR_STREAM_CFG_FIFO_KIB i) 64) k

/-- The write clears `CFG_REFUSED`; its own `APPLY`, refused, sets the bit again. -/
theorem overfullStreams_refuses_again :
    ((((overfullStreams.crossedAt .host (0 * 0x100000 + Reg.STR_CTRL) 1 [(3 : Reg32).toNat]).regWrite .host
      (0 * 0x100000 + Reg.STR_CTRL) 3).setFlags (0 * 0x100000 + Reg.STR_CTRL) 0).stake 0).rd Reg.STR_CTRL = 2 := by
  decide +kernel

/-- Refutes O26: its third clause excludes writes of `PLT_MODE` that ask for a mode change, but not writes of `STR_CTRL` with `APPLY`.
Writing 3 there, `CFG_REFUSED` and `APPLY` at once, with an overfull set of streams staged, leaves `CFG_REFUSED` set by the refusal (R376,
R9), where the clause has it read 0. -/
theorem not_clearsLoseNothing : ¬ Obligations.ClearsLoseNothing := by
  rintro ⟨-, -, hclear, -⟩
  have hw : clears Reg.STR_CTRL 3 = true := by decide +kernel
  obtain ⟨t, ht, -, -, -, -, hbit⟩ := hclear overfullStreams 0 Reg.STR_CTRL
    ⟨0x90000, 1, 0, true, [⟨1, 1, .w1c, 0, 0, 1⟩, ⟨0, 0, .wo, 0, 0, 1⟩]⟩ 3 0 (by decide +kernel) (by decide) (by decide)
    (by decide +kernel) (by decide) hw (by decide)
  rw [exec_w1cClear_of_clears _ _ (by decide) (by decide) hw] at ht
  obtain rfl := Host.Outcome.next.inj ht
  have h1 := hbit 1 (by decide +kernel) (by decide)
  rw [overfullStreams_refuses_again] at h1
  exact absurd h1 (by decide)

end Sys2Proof.Machine

/-! Every step keeps the shape of the state and what one-time memory holds (R369, R370, R436 to R438): the operations.
From here on the namespaces turn asynchronous elaboration off: the many short theorems below would otherwise wait, each on a thread
with a stack of its own, for the tests above to pass the kernel, beyond the check's limit on memory. -/
namespace Sys2Proof.Machine
set_option Elab.async false

/-- What the shape of the state and the promises about one-time memory speak of, of the package. -/
def Pkg.kept (p : Pkg) : List QEvent × List QEvent × Nat × NvState × List OtpJob :=
  (p.evq, p.snaps, p.eseq, p.nv, p.boot.otpJobs)

/-- From a state of the shape that every step keeps, the other one has it too, and one-time memory holds what it held. -/
def State.Keeps (s t : State) : Prop := s.Shape → t.Shape ∧ s.NvKept t

theorem State.NvKept.refl (s : State) : s.NvKept s := ⟨fun _ _ h => h, le_rfl, id, rfl⟩

theorem State.NvKept.trans {s t u : State} (h : s.NvKept t) (h' : t.NvKept u) : s.NvKept u := by
  obtain ⟨hbit, hctr, henr, hser⟩ := h
  obtain ⟨hbit', hctr', henr', hser'⟩ := h'
  exact ⟨fun a b x => hbit' a b (hbit a b x), hctr.trans hctr', henr' ∘ henr, hser'.trans hser⟩

namespace State.Keeps
variable {s t u : State}

theorem refl (s : State) : s.Keeps s := fun hs => ⟨hs, .refl s⟩

theorem trans (h : s.Keeps t) (h' : t.Keeps u) : s.Keeps u := fun hs =>
  ⟨(h' (h hs).1).1, (h hs).2.trans (h' (h hs).1).2⟩

/-- A change that leaves the places, the event queue and one-time memory as they were. -/
theorem of_eq (hl : t.stakes.length = s.stakes.length) (hk : t.pkg.kept = s.pkg.kept) : s.Keeps t := by
  simp only [Pkg.kept, Prod.mk.injEq] at hk
  obtain ⟨hq, hn, he, hv, hj⟩ := hk
  rintro ⟨h8, hq', hn', he', hc', hj'⟩
  exact ⟨⟨hl.trans h8, hq ▸ hq', hn ▸ hn', he ▸ he', hv ▸ hc', hj ▸ hj'⟩, fun _ _ h => hv ▸ h, hv ▸ le_rfl, fun h => hv ▸ h, hv ▸ rfl⟩

theorem onStake (h : s.Keeps t) {n : Nat} {f : Stake → Stake} : s.Keeps (t.onStake n f) :=
  h.trans (of_eq (by simp) (by simp))

theorem onAll (h : s.Keeps t) {f : Stake → Stake} : s.Keeps (t.onAll f) := h.trans (of_eq (by simp) rfl)

theorem onPkg (h : s.Keeps t) {f : Pkg → Pkg} (hf : ∀ p, (f p).kept = p.kept := by exact fun _ => rfl) : s.Keeps (t.onPkg f) :=
  h.trans (of_eq rfl (hf _))

theorem onHost (h : s.Keeps t) {f : HostSt → HostSt} : s.Keeps (t.onHost f) := .onPkg h
theorem onRing (h : s.Keeps t) {r : Nat} {f : RingSt → RingSt} : s.Keeps (t.onRing r f) := .onHost h
theorem onNet (h : s.Keeps t) {f : NetSt → NetSt} : s.Keeps (t.onNet f) := .onPkg h
theorem onCan (h : s.Keeps t) {c : Nat} {f : CanSt → CanSt} : s.Keeps (t.onCan c f) := .onNet h
theorem onSup (h : s.Keeps t) {n : Nat} {f : SupSt → SupSt} : s.Keeps (t.onSup n f) := .onPkg h

theorem onBoot (h : s.Keeps t) {f : BootSt → BootSt} (hf : ∀ b, (f b).otpJobs = b.otpJobs := by exact fun _ => rfl) :
    s.Keeps (t.onBoot f) :=
  h.onPkg fun p => by simp only [Pkg.kept, hf]

theorem ite {c : Prop} [Decidable c] (h : s.Keeps t) (h' : s.Keeps u) : s.Keeps (if c then t else u) := by split <;> assumption

theorem foldl {α : Type} {l : List α} {f : State → α → State} (hf : ∀ t x, s.Keeps t → s.Keeps (f t x)) (h : s.Keeps t) :
    s.Keeps (l.foldl f t) := by
  induction l generalizing t with
  | nil => exact h
  | cons x l ih => exact ih (hf t x h)

/-! The event queue (R369, R370). -/

theorem dropFirst_length {α : Type} (f : α → Bool) (l : List α) : (dropFirst f l).length ≤ l.length := by
  induction l with
  | nil => exact le_rfl
  | cons a l ih =>
    rw [dropFirst]
    split
    · exact Nat.le_succ _
    · exact Nat.succ_le_succ ih

theorem dropFirst_length_lt {α : Type} {f : α → Bool} {l : List α} {a : α} (ha : a ∈ l) (hf : f a = true) :
    (dropFirst f l).length < l.length := by
  induction l with
  | nil => cases ha
  | cons b l ih =>
    rw [dropFirst]
    split
    · exact Nat.lt_succ_self _
    · rename_i hb
      rcases List.mem_cons.1 ha with rfl | ha
      · exact absurd hf hb
      · exact Nat.succ_lt_succ (ih ha)

/-- A change of the event queue alone. -/
theorem onPkg_evq {f : Pkg → Pkg} (hn : (f t.pkg).nv = t.pkg.nv) (hj : (f t.pkg).boot.otpJobs = t.pkg.boot.otpJobs)
    (hq : t.Shape → (f t.pkg).evq.length ≤ 512 ∧ (f t.pkg).snaps.length ≤ 256 ∧ (f t.pkg).eseq < 65536) : t.Keeps (t.onPkg f) := by
  intro hs
  obtain ⟨h1, h2, h3⟩ := hq hs
  obtain ⟨h8, -, -, -, hc, hjobs⟩ := hs
  refine ⟨⟨h8, h1, h2, h3, ?_, ?_⟩, ?_⟩
  · rw [State.onPkg_pkg, hn]; exact hc
  · rw [State.onPkg_pkg, hj]; exact hjobs
  · refine ⟨fun a b h => ?_, ?_, fun h => ?_, ?_⟩ <;> rw [State.onPkg_pkg, hn]
    exacts [h, h]

theorem takeSnap (r : EvRec) (e : Nat) : t.Keeps (t.takeSnap r e).2 := by
  unfold State.takeSnap
  dsimp only
  split
  · rename_i hlt
    exact onPkg_evq rfl rfl fun ⟨_, hq, _, he, _⟩ => ⟨hq, by simpa using hlt, he⟩
  · split
    · rename_i hlt
      exact onPkg_evq rfl rfl fun ⟨_, hq, _, he, _⟩ => ⟨hq, by simpa using hlt, he⟩
    · exact refl t

theorem loseEvent (h : s.Keeps t) (e : Nat) : s.Keeps (t.loseEvent e) := h.onPkg

/-- An event joins a queue with room. -/
theorem joinQueue (r : EvRec) (e : Nat) (hq : t.pkg.evq.length < 512) :
    t.Keeps ((t.takeSnap r e).2.onPkg fun p => { p with evq := p.evq ++ [⟨r, e, (t.takeSnap r e).1⟩] }) := by
  refine (takeSnap r e).trans (onPkg_evq rfl rfl fun ⟨_, _, hn, he, _⟩ => ⟨?_, hn, he⟩)
  have : (t.takeSnap r e).2.pkg.evq = t.pkg.evq := by simp
  simp only [this, List.length_append, List.length_singleton]
  omega

theorem enqueue (h : s.Keeps t) (r : EvRec) : s.Keeps (t.enqueue r) := by
  refine h.trans ?_
  have h1 : t.Keeps (t.onPkg fun p => { p with eseq := (t.pkg.eseq + 1) % 65536 }) :=
    onPkg_evq rfl rfl fun ⟨_, hq, hn, _, _⟩ => ⟨hq, hn, Nat.mod_lt _ (by decide)⟩
  unfold State.enqueue
  dsimp only
  split
  · rename_i hq
    exact h1.trans (joinQueue r _ hq)
  · split
    · exact h1.loseEvent _
    · split
      · exact h1.loseEvent _
      · rename_i q hfind
        intro hs
        have hmem := List.mem_of_find?_eq_some hfind
        have hlt := dropFirst_length_lt (f := fun x : QEvent => decide (x.post.cls = 0)) hmem (by simpa using List.find?_some hfind)
        have h512 : t.pkg.evq.length ≤ 512 := hs.2.1
        refine ((h1.trans (onPkg_evq (f := fun p => { p with evq := dropFirst (fun x => decide (x.post.cls = 0)) p.evq }) rfl rfl
          fun ⟨_, hq, hn, he, _⟩ => ⟨(dropFirst_length _ _).trans hq, hn, he⟩)).loseEvent q.eseq).trans (joinQueue r _ ?_) hs
        exact hlt.trans_le h512

theorem postPkg (h : s.Keeps t) {e : Ev} {c : Nat} {v : List Nat} : s.Keeps (t.postPkg e c v) := .enqueue (.onAll h) _

/-! One-time memory (R436 to R438). -/

end State.Keeps

/-- The words of stake 0's OTP after a bit is blown. -/
theorem NvState.otp0_blow (n : NvState) (b : Nat) :
    (n.blow b).otp0 = n.otp0 ∨
      (n.blow b).otp0 = Store.set otpBlank n.otp0 (b / 32 * 4) (n.otp0.get otpBlank (b / 32 * 4) ||| BitVec.ofNat 32 (2 ^ (b % 32))) := by
  by_cases h : 0 < n.otp.length
  · exact .inr (nth_updAt_same _ _ _ _ h)
  · have h0 : n.otp = [] := List.eq_nil_of_length_eq_zero (by omega)
    exact .inl (by simp [NvState.otp0, NvState.blow, h0, updAt])

/-- A bit once blown stays so (R438). -/
theorem NvState.otpBit_blow {n : NvState} {a i : Nat} (b : Nat) (h : n.otpBit a i = true) : (n.blow b).otpBit a i = true := by
  unfold NvState.otpBit at h ⊢
  rcases n.otp0_blow b with he | he
  · rw [he]; exact h
  · rw [he]
    by_cases ha : a + i / 32 * 4 = b / 32 * 4
    · rw [ha, Store.get_set_same, BitVec.getLsbD_or, ← ha, h, Bool.true_or]
    · rw [Store.get_set_ne ha]; exact h

theorem leadingOn_mono {l m : List Bool} (h : List.Forall₂ (fun x y => x = true → y = true) l m) : leadingOn l ≤ leadingOn m := by
  induction h with
  | nil => exact le_rfl
  | @cons x y l m hxy _ ih =>
    cases x with
    | false => exact Nat.zero_le _
    | true => rw [hxy rfl]; exact Nat.succ_le_succ ih

theorem leadingOn_le_length (l : List Bool) : leadingOn l ≤ l.length := by
  induction l with
  | nil => exact le_rfl
  | cons x l ih =>
    cases x with
    | false => exact Nat.zero_le _
    | true => exact Nat.succ_le_succ ih

/-- The anti-rollback counter has 64 bits (R436). -/
theorem NvState.counter_le (n : NvState) : n.counter ≤ 64 :=
  (leadingOn_le_length _).trans_eq (by simp)

theorem NvState.counter_mono {n m : NvState} (h : ∀ a i, n.otpBit a i = true → m.otpBit a i = true) : n.counter ≤ m.counter :=
  leadingOn_mono (by simpa [List.forall₂_map_left_iff, List.forall₂_map_right_iff, List.forall₂_same] using fun i _ => h 0x100 i)

/-- The serial number lies below the bits that are blown (R438). -/
theorem NvState.serial_blow {n : NvState} {b : Nat} (hb : 0x800 ≤ b) : (n.blow b).serial = n.serial := by
  unfold NvState.serial NvState.otpRead Store.bytes
  refine List.map_congr_left fun i hi => ?_
  have hi : i < 16 := by simpa using hi
  have hne : (0 + i) / 4 * 4 ≠ b / 32 * 4 := by omega
  rcases n.otp0_blow b with he | he <;> rw [he]
  rw [Store.get_set_ne hne]

namespace State.Keeps
variable {s t u : State}

/-- One-time memory as it was, or with one bit of its counter or beyond it blown. -/
def nvStep (n m : NvState) : Prop := m.otp = n.otp ∨ ∃ b, 0x800 ≤ b ∧ m.otp = (n.blow b).otp

theorem otpBit_congr {n m : NvState} (h : m.otp = n.otp) (a i : Nat) : m.otpBit a i = n.otpBit a i := by
  unfold NvState.otpBit NvState.otp0; rw [h]

theorem nvKept_of_bits {n m : NvState} (hbit : ∀ a i, n.otpBit a i = true → m.otpBit a i = true) (hser : m.serial = n.serial)
    (hn : s.pkg.nv = n) (hm : t.pkg.nv = m) : s.NvKept t := by
  subst hn hm
  exact ⟨hbit, NvState.counter_mono hbit, hbit _ _, hser⟩

/-- A step of one-time memory keeps what it holds. -/
theorem nvKept_of_nvStep (h : nvStep s.pkg.nv t.pkg.nv) : s.NvKept t := by
  rcases h with h | ⟨b, hb, h⟩
  · exact nvKept_of_bits (fun a i hi => (otpBit_congr h a i).trans hi) (by simp only [NvState.serial, NvState.otpRead, NvState.otp0, h])
      rfl rfl
  · refine nvKept_of_bits (fun a i hi => (otpBit_congr h a i).trans (NvState.otpBit_blow b hi)) ?_ rfl rfl
    rw [← NvState.serial_blow (n := s.pkg.nv) hb]
    simp only [NvState.serial, NvState.otpRead, NvState.otp0, h]

/-- What persists changes, one-time memory by a step at most. -/
theorem onNv_step {f : NvState → NvState} (hf : t.Shape → nvStep t.pkg.nv (f t.pkg.nv)) : t.Keeps (t.onNv f) := fun hs =>
  ⟨⟨hs.1, hs.2.1, hs.2.2.1, hs.2.2.2.1, NvState.counter_le _, hs.2.2.2.2.2⟩, nvKept_of_nvStep (hf hs)⟩

theorem onNv (h : s.Keeps t) {f : NvState → NvState} (hf : ∀ n, (f n).otp = n.otp := by exact fun _ => rfl) : s.Keeps (t.onNv f) :=
  h.trans (onNv_step fun _ => .inl (hf _))

theorem setNv (h : s.Keeps t) {n : NvState} (hn : n.otp = t.pkg.nv.otp) : s.Keeps (t.onNv fun _ => n) :=
  h.trans (onNv_step fun _ => .inl hn)

/-- The bits that are to be blown change. -/
theorem onBoot_jobs {f : BootSt → BootSt} (hf : t.Shape → ∀ j ∈ (f t.pkg.boot).otpJobs, ∀ b ∈ j.bits, 0x800 ≤ b) :
    t.Keeps (t.onBoot f) := fun hs =>
  ⟨⟨hs.1, hs.2.1, hs.2.2.1, hs.2.2.2.1, hs.2.2.2.2.1, hf hs⟩, nvKept_of_nvStep (.inl rfl)⟩

end State.Keeps
end Sys2Proof.Machine

namespace Sys2Proof.Machine
set_option Elab.async false

namespace State.Keeps
variable {s t u : State}

/-! The checks of a register write. -/

theorem answer (h : s.Keeps t) {a : Nat} {v : BitVec 32} : s.Keeps (t.answer a v) := .onPkg h
theorem crossed (h : s.Keeps t) {src : Src} {n k tag : Nat} {ws : List Nat} : s.Keeps (t.crossed src n k tag ws) := .ite (.onStake h) h
theorem crossedAt (h : s.Keeps t) {src : Src} {a k : Nat} {ws : List Nat} : s.Keeps (t.crossedAt src a k ws) := .crossed h
theorem badAccess (h : s.Keeps t) {a : Nat} : s.Keeps (t.badAccess a) := .postPkg (.onPkg h)
theorem lockDrop (h : s.Keeps t) {a : Nat} : s.Keeps (t.lockDrop a) := .ite (.postPkg (.onPkg h)) (.onPkg h)
theorem rangeDrop (h : s.Keeps t) {a : Nat} {w : Reg32} : s.Keeps (t.rangeDrop a w) := .postPkg h
theorem slotDrop (h : s.Keeps t) {a : Nat} {v : Word48} : s.Keeps (t.slotDrop a v) := .postPkg h

theorem kept_clearBits (p : Pkg) (off : Nat) (w : Reg32) : (p.clearBits off w).kept = p.kept := by
  unfold Pkg.clearBits; split <;> rfl

theorem kept_store (p : Pkg) (off : Nat) (w : Reg32) : (p.store off w).kept = p.kept := by
  unfold Pkg.store; split <;> rfl

theorem lockedStake (h : s.Keeps t) {src : Src} {n off : Nat} {w : Reg32} : s.Keeps (t.lockedStake src n off w) :=
  .ite (.onStake h) (.ite (.lockDrop h) h)
theorem lockedPkg (h : s.Keeps t) {src : Src} {off : Nat} {w : Reg32} : s.Keeps (t.lockedPkg src off w) :=
  .ite (.onPkg h fun _ => kept_clearBits _ _ _) (.ite (.lockDrop h) h)

theorem stakeWrite (h : s.Keeps t) {src : Src} {n off : Nat} {w : Reg32} {f : Stake → Stake} : s.Keeps (t.stakeWrite src n off w f) := by
  unfold State.stakeWrite
  refine .ite h (.ite (.lockedStake h) ?_)
  split
  · exact .ite (.onStake h) (.rangeDrop h)
  · exact .onStake h

theorem pkgWrite (h : s.Keeps t) {src : Src} {off : Nat} {w : Reg32} {f : State → State} (hf : ∀ {u}, s.Keeps u → s.Keeps (f u)) :
    s.Keeps (t.pkgWrite src off w f) := by
  unfold State.pkgWrite
  refine .ite h (.ite (.lockedPkg h) ?_)
  split
  · exact .ite (hf h) (.rangeDrop h)
  · exact hf h

theorem fldCtrlWrite (h : s.Keeps t) {src : Src} {n : Nat} {w : Reg32} : s.Keeps (t.fldCtrlWrite src n w) := by
  unfold State.fldCtrlWrite
  dsimp only
  split
  · exact .stakeWrite h
  · exact .ite (.stakeWrite h) (.postPkg h)

theorem tblCtrlWrite (h : s.Keeps t) {src : Src} {n : Nat} {w : Reg32} {b : Bool} : s.Keeps (t.tblCtrlWrite src n w b) :=
  .ite (.rangeDrop (.stakeWrite h)) (.stakeWrite h)

theorem entryCommit (h : s.Keeps t) {n k : Nat} {w : Reg32} : s.Keeps (t.entryCommit n k w) :=
  .ite h (.ite (.rangeDrop h) (.onStake h))

/-! The rings and interrupts. -/

theorem hostWrite (h : s.Keeps t) {a : Nat} {l : List Nat} : s.Keeps (t.hostWrite a l) := .onHost h
theorem msixFire (h : s.Keeps t) {v : Nat} : s.Keeps (t.msixFire v) :=
  .ite (.onHost h) (.ite (.onPkg (.onHost h)) (.hostWrite (.onHost h)))
theorem msixPending (h : s.Keeps t) {v : Nat} : s.Keeps (t.msixPending v) := .ite (.msixFire (.onPkg h)) h
theorem msixEntry (h : s.Keeps t) {v : Nat} {now : Bool} : s.Keeps (t.msixEntry v now) := .ite (.msixFire h) (.onHost h)
theorem charge (h : s.Keeps t) {c u : Nat} : s.Keeps (t.charge c u) := .onHost h
theorem cqWrite (h : s.Keeps t) {r : Nat} {e : List Nat} {now : Bool} : s.Keeps (t.cqWrite r e now) :=
  .msixEntry (.charge (.onRing (.onPkg (.hostWrite h))))
theorem askRead (h : s.Keeps t) {r cid cls len : Nat} : s.Keeps (t.askRead r cid cls len) := .onHost h

theorem kept_bump (p : Pkg) (off n : Nat) : (p.bump off n).kept = p.kept := by simp [Pkg.kept]
theorem kept_wr (p : Pkg) (off : Nat) (v : Reg32) : (p.wr off v).kept = p.kept := (rfl)
theorem kept_put (p : Pkg) (f : Fld) (v : Nat) : (p.put f v).kept = p.kept := (rfl)
theorem kept_putB (p : Pkg) (f : Fld) (b : Bool) : (p.putB f b).kept = p.kept := (rfl)

theorem finishOne (h : s.Keeps t) {c : Completion} : s.Keeps (t.finishOne c) := by
  have h1 : s.Keeps (State.onPkg (t.onHost fun h =>
    { h with
      flying := dropFirst (fun f => f.ring = c.ring && f.cid = c.cid) h.flying
      reads := if readsData c.op then dropFirst (fun x => x.ring = c.ring && x.cid = c.cid) h.reads else h.reads }) fun p =>
    (p.bump Reg.HIF_SUPERSEDED_CNT (if c.status = 2 then 1 else 0)).bump Reg.HIF_DELAYED_CNT (if c.status = 1 then 1 else 0)) :=
    .onPkg (.onHost h) fun _ => (kept_bump _ _ _).trans (kept_bump _ _ _)
  unfold State.finishOne
  dsimp only
  split
  · exact h1
  · exact .ite (.cqWrite h1) h1

theorem deleted (h : s.Keeps t) {r : Nat} : s.Keeps (t.deleted r) :=
  .ite h (.foldl (fun _ _ h => .finishOne h) (.onRing (.onPkg h)))
theorem finish (h : s.Keeps t) {c : Completion} : s.Keeps (t.finish c) := .deleted (.finishOne h)

theorem takeDesc (h : s.Keeps t) {r op : Nat} {d : Desc} (e : t.takeDesc r op = some (d, u)) : s.Keeps u := by
  simp only [State.takeDesc, Option.map_eq_some_iff, Prod.mk.injEq] at e
  obtain ⟨_, _, _, rfl⟩ := e
  exact .onHost h

theorem takeReserved (h : s.Keeps t) {r : Nat} {d : Desc} (e : t.takeReserved r = some (d, u)) : s.Keeps u := by
  simp only [State.takeReserved, Option.map_eq_some_iff, Prod.mk.injEq] at e
  obtain ⟨_, _, _, rfl⟩ := e
  exact .onHost h

theorem axisDesc (h : s.Keeps t) {n r c code : Nat} {f : Stake → Stake} : s.Keeps (t.axisDesc n r c code f) := by
  unfold State.axisDesc
  refine .ite h ?_
  split
  · exact h
  · rename_i e
    exact .ite h (.ite (.finish (.takeDesc h e)) (.onStake (.takeDesc h e)))

theorem takeFree (h : s.Keeps t) {r : Nat} : s.Keeps (t.takeFree r) := .onRing h
theorem drainLost (h : s.Keeps t) : s.Keeps t.drainLost := .ite h (.cqWrite (.onPkg (.takeFree h)))

theorem drainOne (h : s.Keeps t) : s.Keeps t.drainOne := by
  unfold State.drainOne
  refine .ite h ?_
  split
  · exact h
  · rename_i q l hq
    refine .cqWrite ((Keeps.takeFree h).trans (onPkg_evq rfl rfl fun ⟨_, h1, h2, h3, _⟩ => ⟨?_, h2, h3⟩))
    have h1 : t.pkg.evq.length ≤ 512 := h1
    rw [hq] at h1
    exact (Nat.le_succ _).trans h1

theorem drain (h : s.Keeps t) : s.Keeps t.drain := .foldl (fun _ _ h => .drainOne h) (.drainLost h)
theorem servedNow (h : s.Keeps t) {r : Nat} : s.Keeps (t.servedNow r) := .ite h (.onHost h)
theorem readData (h : s.Keeps t) {x : DataRead} : s.Keeps (t.readData x) := .onHost (.charge h)

/-! The networks. -/

theorem canOverrun (h : s.Keeps t) {c : Nat} : s.Keeps (t.canOverrun c) := .ite (.onStake (.onPkg h)) (.onPkg h)

theorem kept_putByte (p : Pkg) (base j v : Nat) : (p.putByte base j v).kept = p.kept := rfl

theorem kept_foldl {α : Type} (l : List α) (f : Pkg → α → Pkg) (hf : ∀ p x, (f p x).kept = p.kept) (p : Pkg) :
    (l.foldl f p).kept = p.kept := by
  induction l generalizing p with
  | nil => rfl
  | cons x l ih => exact (ih _).trans (hf p x)

theorem kept_ite {c : Prop} [Decidable c] {p q r : Pkg} (h : q.kept = p.kept) (h' : r.kept = p.kept) :
    (if c then q else r).kept = p.kept := by split <;> assumption

theorem canStore (h : s.Keeps t) {c i : Nat} {f : CanFrame} : s.Keeps (t.canStore c i f) := by
  unfold State.canStore
  dsimp only
  refine .ite (.canOverrun (.onPkg h fun _ => ?_)) (.onPkg h fun _ => ?_)
  all_goals
    refine (kept_foldl _ _ ?_ _).trans ?_
    · exact fun _ _ => kept_putByte _ _ _ _
    · simp only [kept_wr, apply_ite Pkg.kept, kept_putB, kept_put, ite_self]

theorem canFallback (h : s.Keeps t) {f : CanFrame} : s.Keeps (t.canFallback f) := .ite (.onPkg h) (.onStake (.onNet h))
theorem canErr (h : s.Keeps t) {c tec rec : Nat} : s.Keeps (t.canErr c tec rec) :=
  have h1 := Keeps.onPkg h
  .ite h1 (.ite (.onStake (.onPkg h1)) (.ite (.onStake h1) h1))

theorem canRxGood (h : s.Keeps t) {c : Nat} : s.Keeps (t.canRxGood c) := .ite (.canErr (.onPkg h)) (.canErr h)
theorem canCycle (h : s.Keeps t) {c b : Nat} {x : BitVec 32} : s.Keeps (t.canCycle c x b) := .onCan (.onPkg h)

/-- A frame that was received is kept in the buffer that matches, or dropped (R383). -/
theorem canTaken (h : s.Keeps t) {c : Nat} {f : CanFrame} : s.Keeps (match [0, 1, 2, 3].find? fun i => t.canMatch c i f with
    | some i =>
      let s := t.canStore c i f
      let s := s.onPkg fun p => p.put Reg.CAN_HP_PENDING_PEND (p.fld Reg.CAN_HP_PENDING_PEND ||| 2 ^ (4 * c + i))
      let s := s.msixFire (s.pkg.fld (cbVector c i))
      if s.pkg.fld Reg.CAN_FB_SIG_FB_CTRL = c && s.pkg.fld Reg.CAN_FB_SIG_FB_HP = i then s.canFallback f else s
    | none =>
      let l := ((List.range 64).map (· + 4)).filter fun i => t.canMatch c i f
      match l.find? fun i => !t.pkg.flag (cbFull c i) with
      | some i => t.canStore c i f
      | none => match l with
        | i :: _ => t.canStore c i f
        | [] => t.onPkg fun p => p.bump (Reg.CAN_RX_DROP_CNT c)) := by
  split
  · exact .ite (.canFallback (.msixFire (.onPkg (.canStore h)))) (.msixFire (.onPkg (.canStore h)))
  · dsimp only
    split
    · exact .canStore h
    · split
      · exact .canStore h
      · exact .onPkg h

theorem canReceive (h : s.Keeps t) {c : Nat} {f : CanFrame} : s.Keeps (t.canReceive c f) :=
  .ite h (.ite (.canErr h) (.canTaken (.ite (.canCycle (.canRxGood h)) (.canRxGood h))))

theorem canLatch (h : s.Keeps t) {c i : Nat} : s.Keeps (t.canLatch c i) := .onCan h
theorem canRequest (h : s.Keeps t) {c i : Nat} : s.Keeps (t.canRequest c i) := .onCan (.onPkg h)

theorem wCanCtrlWord (h : s.Keeps t) {c i : Nat} {w : Reg32} {b : Bool} : s.Keeps (t.wCanCtrlWord c i w b) :=
  have h1 : s.Keeps _ := .onPkg h
  have h2 := Keeps.ite (.onPkg h1) h1
  have h3 := Keeps.ite (.onPkg h2) h2
  .ite (.onPkg h) (.ite h3 (.ite (.ite h3 (.ite (.onCan h3) (.onPkg h3))) (.ite (.canRequest h3) h3)))

theorem canRefuse (h : s.Keeps t) {c : Nat} : s.Keeps (t.canRefuse c) := .onStake (.onPkg h)

theorem wCanBuf (h : s.Keeps t) {src : Src} {c i o : Nat} {w : Reg32} {b : Bool} : s.Keeps (t.wCanBuf src c i o w b) :=
  .pkgWrite h fun {u} h =>
    have h1 : s.Keeps (if o < 8 && u.pkg.flag (Reg.CAN_CTRL_EN c) then u.canRefuse c else u) := .ite (.canRefuse h) h
    .ite (.ite (.rangeDrop h) h) (.ite (.ite (.wCanCtrlWord h) h) (.ite (.wCanCtrlWord h)
      (.ite (.onPkg h1) (.ite h1 (.ite (.onPkg h1 fun _ => kept_store _ _ _) (.ite h1 (.onPkg h1 fun _ => kept_store _ _ _)))))))

theorem ttMiss (h : s.Keeps t) {c b : Nat} : s.Keeps (t.ttMiss c b) := .onCan (.onPkg h)
theorem setTime (h : s.Keeps t) {x : Nat} : s.Keeps (t.setTime x) := .onNet (.onPkg h)
theorem timeNone (h : s.Keeps t) : s.Keeps t.timeNone := .ite h (.ite (.postPkg (.setTime h)) (.setTime h))
theorem timeHold (h : s.Keeps t) : s.Keeps t.timeHold := .postPkg (.setTime h)
theorem ethSend (h : s.Keeps t) {o : EthOut} : s.Keeps (t.ethSend o) := .onNet h
theorem ethDelay (h : s.Keeps t) {d : Nat} : s.Keeps (t.ethDelay d) := .ite (.onPkg h) (.timeNone (.onPkg h))

theorem ethSync (h : s.Keeps t) {x : Int} : s.Keeps (t.ethSync x) := by
  unfold State.ethSync
  dsimp only
  have h1 : s.Keeps (t.onPkg fun p => p.wr Reg.ETH_OFFSET_EST (w32 x)) := .onPkg h
  refine .ite h1 ?_
  split
  · exact .onNet (.setTime h1)
  · exact .ite (.postPkg (.setTime h1)) (.onNet h1)
  · exact .ite h1 (.postPkg (.setTime h1))
  · exact .ite (.postPkg (.setTime h1)) (.setTime h1)

theorem canJoin (h : s.Keeps t) {c : Nat} : s.Keeps (t.canJoin c) := .onPkg h
theorem wCanCtrl (h : s.Keeps t) {c : Nat} {w : Reg32} : s.Keeps (t.wCanCtrl c w) :=
  have h1 := Keeps.onPkg h fun _ => kept_store _ _ _
  have h2 := Keeps.ite (.canJoin h1) h1
  .ite (.onCan (.onPkg h2)) h2

theorem ethMessage (h : s.Keeps t) {m : EthMsg} : s.Keeps (t.ethMessage m) := by
  unfold State.ethMessage
  split
  · exact h
  · dsimp only
    split
    · exact .ethSync (.onNet (.onNet h))
    · exact .onNet h
  · split
    · exact .ite (.ethSync (.onNet h)) h
    · exact h
  · exact .timeNone (.onPkg h)
  · exact .onPkg h
  · split
    · dsimp only
      refine .ite h ?_
      split
      · exact .ethDelay (.onNet h)
      · exact .onNet h
    · exact h
  · split
    · exact .ite (.ethDelay (.onNet h)) h
    · exact h
  · exact .ite (.ethSend h) (.ethSend (.ethSend h))

theorem mapTaken (h : s.Keeps t) : s.Keeps (match t.pkg.net.mapNext with
    | some m =>
      if m.tick = (t.stake 0).ang.tick then
        (t.onPkg fun p => (((p.put48 Reg.ETH_MAP_TICK m.tick).put48 Reg.ETH_MAP_NT m.nt).put48 Reg.ETH_MAP_MS m.ms).wr Reg.ETH_MAP_RATE
          (w32 m.rate)).onNet fun x => { x with mapNext := none }
      else t
    | none => t) := by
  split
  · exact .ite (.onNet (.onPkg h)) h
  · exact h

theorem tickNet (h : s.Keeps t) : s.Keeps t.tickNet :=
  .ite (.ite (.onNet (.onPkg (mapTaken h))) (.onPkg (mapTaken h))) (mapTaken h)

/-! Pairing, the leg link, streams. -/

theorem pairUp (h : s.Keeps t) {n : Nat} : s.Keeps (t.pairUp n) := .ite (.onStake (.onStake h)) h
theorem wPairCtrl (h : s.Keeps t) {n : Nat} {w : Reg32} : s.Keeps (t.wPairCtrl n w) :=
  have h1 := Keeps.ite h (.ite (.onStake h) (.onStake h))
  have h2 := Keeps.ite (.ite (.onStake h1) (.ite (.onStake h1) (.onStake (.onStake h1)))) h1
  .ite (.ite (.onStake h2) (.onStake (.onStake h2))) h2
theorem pairCtrlWrite (h : s.Keeps t) {src : Src} {n : Nat} {w : Reg32} : s.Keeps (t.pairCtrlWrite src n w) :=
  .ite h (.ite (.ite (.lockDrop h) h) (.ite (.wPairCtrl h) (.rangeDrop h)))
theorem legCmd (h : s.Keeps t) {src : Src} {n p bit : Nat} {w : Reg32} : s.Keeps (t.legCmd src n p w bit) := .ite h (.stakeWrite h)

theorem bufClose (h : s.Keeps t) {r x : Nat} {b : Bool} : s.Keeps (t.bufClose r x b) := by
  unfold State.bufClose
  split
  · exact h
  · exact .finish (.onRing h)
theorem bufCloseAll (h : s.Keeps t) {r x : Nat} : s.Keeps (t.bufCloseAll r x) := .foldl (fun _ _ h => .bufClose h) h
theorem findRoom (h : s.Keeps t) {f r len : Nat} : s.Keeps (State.findRoom f r len t) := by
  induction f generalizing t with
  | zero => exact h
  | succ f ih =>
    rw [State.findRoom]
    split
    · exact h
    · exact .ite (ih (.bufClose h)) h
theorem returnPacket (h : s.Keeps t) {r : Nat} : s.Keeps (t.returnPacket r) := .ite h (.onStake (.onHost h))
theorem placePacket (h : s.Keeps t) {r : Nat} : s.Keeps (t.placePacket r) := by
  unfold State.placePacket
  dsimp only
  split
  · exact .returnPacket h
  · split
    · exact .returnPacket (.findRoom h)
    · exact .onStake (.onHost (.onRing (.charge (.hostWrite (.findRoom h)))))

end State.Keeps
end Sys2Proof.Machine

namespace Sys2Proof.Machine
set_option Elab.async false

/-! What is written to the flash and the eNVM leaves the OTP alone. -/

theorem NvState.programRow_otp (n : NvState) (a : Nat) (l : List Nat) : (n.programRow a l).otp = n.otp := rfl

theorem NvState.copyOp_otp (n : NvState) (i : Nat) (c : CfgCopy) (j : Nat) : (n.copyOp i c j).otp = n.otp := by
  unfold NvState.copyOp
  dsimp only
  split_ifs <;> rfl

theorem NvState.foldl_otp {α : Type} (l : List α) (f : NvState → α → NvState) (hf : ∀ n x, (f n x).otp = n.otp) (n : NvState) :
    (l.foldl f n).otp = n.otp := by
  induction l generalizing n with
  | nil => rfl
  | cons x l ih => exact (ih _).trans (hf n x)

theorem NvState.copySteps_otp (n : NvState) (l : List Nat) (c : CfgCopy) (k : Nat) : (n.copySteps l c k).otp = n.otp :=
  NvState.foldl_otp _ _ (fun _ _ => NvState.copyOp_otp _ _ _ _) _

theorem NvState.stageErase_otp (n : NvState) (slot off len : Nat) (first : Bool) : (n.stageErase slot off len first).otp = n.otp := by
  refine NvState.foldl_otp _ _ (fun _ _ => ?_) _
  rfl

theorem State.cfgPartial_otp (s : State) (k : Nat) : (s.cfgPartial k).otp = s.pkg.nv.otp := by
  unfold State.cfgPartial
  split
  · exact NvState.copySteps_otp _ _ _ _
  · exact NvState.copySteps_otp _ _ _ _
  · rfl

namespace State.Keeps
variable {s t u : State}

theorem kept_put48 (p : Pkg) (off : Nat) (v : Word48) : (p.put48 off v).kept = p.kept := (rfl)

/-! The package reset, supply, and the blowing of bits (R423, R436). -/

theorem kept_view (p : Pkg) (l : List Nat) (reg a : Nat) :
    (l.foldl (fun p i => p.wr (reg + 4 * i) (p.nv.otp0.get otpBlank (a + 4 * i))) p).kept = p.kept := by
  refine kept_foldl _ _ (fun _ _ => ?_) _
  exact kept_wr _ _ _

theorem kept_fromOtp (p : Pkg) (part : Part) : (p.fromOtp part).kept = p.kept := by
  unfold Pkg.fromOtp
  simp only [kept_view, kept_putB, kept_put]

/-- The bit that is being blown is one of the counter or beyond (R438). -/
theorem otpUnderWay_ge (h : t.Shape) {b : Nat} (hb : t.pkg.boot.otpUnderWay = some b) : 0x800 ≤ b := by
  obtain ⟨-, -, -, -, -, hj⟩ := h
  unfold BootSt.otpUnderWay at hb
  split at hb
  · rename_i j l he
    split at hb
    · exact hj j (he ▸ List.mem_cons_self) b (List.mem_of_head? hb)
    · cases hb
  · cases hb

/-- What persists across a package reset: what is being blown is blown (R406, R423). -/
def resetNv (t : State) (ops : Nat) : NvState :=
  match t.pkg.boot.otpUnderWay with
  | some b => (t.cfgPartial ops).blow b
  | none => t.cfgPartial ops

theorem nvStep_resetNv (h : t.Shape) (ops : Nat) : nvStep t.pkg.nv (resetNv t ops) := by
  unfold resetNv
  split
  · rename_i b hb
    refine .inr ⟨b, otpUnderWay_ge h hb, ?_⟩
    simp only [NvState.blow, State.cfgPartial_otp]
  · exact .inl (t.cfgPartial_otp ops)

/-- The event queue is emptied, nothing is being blown any more, and one-time memory has made a step at most. -/
theorem of_reset {n : NvState} (hl : t.stakes.length = 8) (hk : t.pkg.kept = ([], [], 0, n, []))
    (hn : s.Shape → nvStep s.pkg.nv n) : s.Keeps t := by
  simp only [Pkg.kept, Prod.mk.injEq] at hk
  obtain ⟨hq, hs, he, hv, hj⟩ := hk
  intro hshape
  refine ⟨⟨hl, ?_, ?_, ?_, NvState.counter_le _, ?_⟩, nvKept_of_nvStep (hv ▸ hn hshape)⟩
  · rw [hq]; exact Nat.zero_le _
  · rw [hs]; exact Nat.zero_le _
  · rw [he]; decide
  · rw [hj]; exact fun _ hm => absurd hm List.not_mem_nil

theorem packageReset_kept (t : State) (ops : Nat) : (t.packageReset ops).pkg.kept = ([], [], 0, resetNv t ops, []) := by
  unfold State.packageReset resetNv
  cases t.pkg.boot.otpUnderWay <;> exact (by simp only [kept_fromOtp]; simp only [Pkg.kept])

theorem packageReset_length (t : State) (ops : Nat) : (t.packageReset ops).stakes.length = 8 := by
  unfold State.packageReset
  exact (List.length_map _).trans List.length_range

theorem packageReset (h : s.Keeps t) {ops : Nat} : s.Keeps (t.packageReset ops) :=
  h.trans (of_reset (packageReset_length t ops) (packageReset_kept t ops) fun hs => nvStep_resetNv hs ops)

theorem supRefresh (h : s.Keeps t) {n : Nat} : s.Keeps (t.supRefresh n) := .onStake h
theorem supLevel (h : s.Keeps t) {n mv : Nat} : s.Keeps (t.supLevel n mv) := .onStake (.onSup h)
theorem tickSupply (h : s.Keeps t) : s.Keeps t.tickSupply := .ite h (.foldl (fun _ _ h => .supRefresh h) h)

theorem otpDefer (h : s.Keeps t) : s.Keeps t.otpDefer := .ite (.onPkg h) (.postPkg (.onBoot (.onPkg h)))

/-- The job at the front takes a new instant. -/
theorem setDue {j : OtpJob} {l : List OtpJob} (e : t.pkg.boot.otpJobs = j :: l) (d : Option Nat) :
    t.Keeps (t.onBoot fun b => { b with otpJobs := { j with due := d } :: l }) :=
  onBoot_jobs fun ⟨_, _, _, _, _, hj⟩ => by
    rw [e] at hj
    simpa using hj

theorem otpBegin (h : s.Keeps t) : s.Keeps t.otpBegin := by
  unfold State.otpBegin
  split
  · exact h
  · rename_i j l e
    dsimp only
    have h1 := fun d => h.trans (setDue e d)
    split_ifs
    · exact h1 _
    · exact .otpDefer (h1 _)
    · exact h1 _
    · exact .onPkg (h1 _)

theorem otpAsk (h : s.Keeps t) {j : OtpJob} (hj : ∀ b ∈ j.bits, 0x800 ≤ b) : s.Keeps (t.otpAsk j) := by
  have h1 : s.Keeps (t.onBoot fun b => { b with otpJobs := b.otpJobs ++ [j] }) :=
    h.trans (onBoot_jobs fun ⟨_, _, _, _, _, hs⟩ i hi => by
      rcases List.mem_append.1 hi with hi | hi
      · exact hs i hi
      · rw [List.mem_singleton.1 hi]; exact hj)
  exact .ite (.otpBegin h1) h1

theorem otpDone (h : s.Keeps t) {j : OtpJob} : s.Keeps (t.otpDone j) := .ite (.postPkg h) (.postPkg h)

/-- A bit of the job at the front is blown. -/
theorem blowFront {j : OtpJob} {l : List OtpJob} (e : t.pkg.boot.otpJobs = j :: l) {b : Nat} (hb : b ∈ j.bits) :
    t.Keeps (t.onNv fun n => n.blow b) :=
  onNv_step fun ⟨_, _, _, _, _, hj⟩ => .inr ⟨b, hj j (e ▸ List.mem_cons_self) b hb, rfl⟩

theorem tickOtp (h : s.Keeps t) : s.Keeps t.tickOtp := by
  unfold State.tickOtp
  split
  · exact h
  · rename_i j l e
    have hrest : ∀ {u : State} {bs : List Nat}, u.pkg.boot.otpJobs = j :: l → (∀ b ∈ bs, b ∈ j.bits) →
        u.Keeps (u.onBoot fun x => { x with otpJobs := { j with bits := bs } :: l }) ∧ u.Keeps (u.onBoot fun x => { x with otpJobs := l }) := by
      intro u bs hu hbs
      refine ⟨onBoot_jobs fun ⟨_, _, _, _, _, hj⟩ => ?_, onBoot_jobs fun ⟨_, _, _, _, _, hj⟩ => ?_⟩ <;> rw [hu] at hj
      · intro i hi b hb
        rcases List.mem_cons.1 hi with rfl | hi
        · exact hj j List.mem_cons_self b (hbs b hb)
        · exact hj i (List.mem_cons_of_mem _ hi) b hb
      · exact fun i hi => hj i (List.mem_cons_of_mem _ hi)
    split
    · exact .ite h (.otpBegin h)
    · exact h.trans (hrest (bs := []) e (fun _ hb => absurd hb List.not_mem_nil)).2
    · rename_i due b bs _ hbits
      refine .ite h ?_
      have h1 : s.Keeps ((t.onNv fun n => n.blow b).onPkg fun p =>
          (p.put Reg.SEC_ROLLBACK_COUNTER p.nv.counter).putB Reg.SEC_BOOT_STATUS_ENROLLED p.nv.enrolled) :=
        (h.trans (blowFront e (hbits ▸ List.mem_cons_self))).onPkg
      obtain ⟨hmore, hlast⟩ := hrest (bs := bs) (u := (t.onNv fun n => n.blow b).onPkg fun p =>
          (p.put Reg.SEC_ROLLBACK_COUNTER p.nv.counter).putB Reg.SEC_BOOT_STATUS_ENROLLED p.nv.enrolled) e
        fun x hx => hbits ▸ List.mem_cons_of_mem _ hx
      dsimp only
      split
      · exact .otpBegin (.otpDone (h1.trans hlast))
      · exact .otpBegin (h1.trans hmore)

theorem rollbackAdvance (h : s.Keeps t) : s.Keeps t.rollbackAdvance :=
  .ite h (.otpAsk h fun b hb => by
    obtain ⟨i, -, rfl⟩ := List.mem_map.1 hb
    exact (Nat.le_add_right _ _).trans (Nat.le_add_right _ _))

/-! The eNVM, the seal unit and the wale. -/

theorem cfgDrop (h : s.Keeps t) {w : CfgWork} : s.Keeps (t.cfgDrop w) := .onBoot h
theorem rewriteStop (h : s.Keeps t) {k : Nat} : s.Keeps (t.rewriteStop k) :=
  .ite h (.onBoot (.cfgDrop (.setNv h (t.cfgPartial_otp k))))
theorem cfgInhibited (h : s.Keeps t) {k : Nat} : s.Keeps (t.cfgInhibited k) := by
  unfold State.cfgInhibited
  split
  · exact .rewriteStop h
  · exact .finish (.onBoot (.cfgDrop (.setNv h (t.cfgPartial_otp k))))

theorem ringOpen (h : s.Keeps t) : s.Keeps t.ringOpen :=
  h.trans (of_eq (by simp [State.ringOpen]) (kept_put _ _ _))
theorem linkOff (h : s.Keeps t) {n : Nat} {d : Dir} : s.Keeps (t.linkOff n d) := .ringOpen (.onStake (.onStake h))
theorem linkDown (h : s.Keeps t) {n : Nat} {d : Dir} : s.Keeps (t.linkDown n d) := .ite h (.onStake (.linkOff h))
theorem markLost (h : s.Keeps t) {n : Nat} : s.Keeps (t.markLost n) := .onAll h
theorem dropOutstanding (h : s.Keeps t) {n : Nat} : s.Keeps (t.dropOutstanding n) :=
  .foldl (fun _ _ h => .finish h) (.onHost (.foldl (fun _ _ h => .bufCloseAll h) h))
theorem loseStake (h : s.Keeps t) {n : Nat} : s.Keeps (t.loseStake n) :=
  have h1 := Keeps.markLost (.linkOff (.linkOff (.onPkg (.onBoot (.dropOutstanding h)))))
  .ite h (.ite h1 (.ite (.enqueue (.onStake h1) _) (.onStake h1)))

theorem bodyLoad (h : s.Keeps t) {n : Nat} : s.Keeps (t.bodyLoad n) := .onStake h
theorem sealStart (h : s.Keeps t) {o : SealOp} : s.Keeps (t.sealStart o) := .onBoot h
theorem sealAsk (h : s.Keeps t) {o : SealOp} : s.Keeps (t.sealAsk o) := .ite (.sealStart h) (.onBoot h)
theorem sealNext (h : s.Keeps t) : s.Keeps t.sealNext := by
  unfold State.sealNext
  dsimp only
  split
  · exact h
  · exact .sealStart (.onBoot h)
theorem copySync (h : s.Keeps t) : s.Keeps t.copySync := .onPkg h
theorem cfgDigest (h : s.Keeps t) : s.Keeps t.cfgDigest := by
  unfold State.cfgDigest
  split
  · exact h
  · exact .ite (.sealAsk (.onBoot h)) (.onBoot h)
theorem rewriteDigest (h : s.Keeps t) : s.Keeps t.rewriteDigest := by
  unfold State.rewriteDigest
  split
  · exact h
  · exact .copySync (.onBoot (.onNv h fun _ => NvState.copySteps_otp _ _ _ _))
theorem sealFinish (h : s.Keeps t) {o : SealOp} {m : List Nat} {b : Bool} : s.Keeps (t.sealFinish o m b) := by
  unfold State.sealFinish
  split
  · exact h
  · exact h
  · exact h
  · exact .cfgDigest h
  · exact .rewriteDigest h
  · exact .ite (.finish (.onBoot h)) (.ite (.finish (.onPkg (.onNv (.onBoot h)))) (.finish (.onBoot h)))
  · exact .finish (.hostWrite h)

theorem secRefuse (h : s.Keeps t) {c : Nat} : s.Keeps (t.secRefuse c) := .postPkg (.onPkg h)
theorem wEnroll (h : s.Keeps t) {w : Reg32} : s.Keeps (t.wEnroll w) :=
  .ite h (.ite (.secRefuse h) (.otpAsk h fun b hb => by
    rcases List.mem_append.1 hb with hb | hb
    · obtain ⟨i, -, rfl⟩ := List.mem_map.1 hb
      omega
    · rw [List.mem_singleton.1 hb]; decide))
theorem wSecReset (h : s.Keeps t) {w : Reg32} : s.Keeps (t.wSecReset w) := .ite h (.ite (.secRefuse h) (.onBoot h))

theorem drawChallenge (h : s.Keeps t) : s.Keeps t.drawChallenge :=
  .onPkg h fun p => (kept_foldl (List.range 8) (fun q i => q.wr (Reg.SEC_CHALLENGE i) (BitVec.ofNat 32 (Config.freePkg (p.fresh + i))))
    (fun _ _ => kept_wr _ _ _) p :)
theorem wUnlock (h : s.Keeps t) {w : Reg32} : s.Keeps (t.wUnlock w) := .ite h (.ite (.onBoot (.onPkg h)) (.drawChallenge (.onPkg h)))
theorem distOver (h : s.Keeps t) : s.Keeps t.distOver := .ite (.sealAsk (.onBoot h)) h
theorem distArrives (h : s.Keeps t) {n : Nat} : s.Keeps (t.distArrives n) := .ite (.distOver (.onBoot h)) h

/-! Writes and reads of any register. -/

theorem stakeReg (h : s.Keeps t) {src : Src} {n off : Nat} {w : Reg32} : s.Keeps (t.stakeReg src n off w) := by
  unfold State.stakeReg
  refine .ite h (.ite (.fldCtrlWrite h) (.ite (.tblCtrlWrite h) (.ite (.pairCtrlWrite h) (.ite (.lockedStake h) (.ite (.entryCommit h) ?_)))))
  split
  · exact .ite (.onStake h) (.ite (.ite h (.slotDrop h)) (.onStake h))
  · split
    · exact h
    · exact .ite (.ite h (.rangeDrop h)) (.onStake h)

theorem wSetupLock (h : s.Keeps t) {w : Reg32} : s.Keeps (t.wSetupLock w) := .ite (.onPkg h) h
theorem adminStart (h : s.Keeps t) : s.Keeps t.adminStart :=
  .onHost (.onRing (.onPkg h))
theorem adminStop (h : s.Keeps t) : s.Keeps t.adminStop := .onHost (.onRing (.onPkg h))
theorem wAdminCfg (h : s.Keeps t) {w : Reg32} : s.Keeps (t.wAdminCfg w) :=
  have h1 := .onPkg h fun _ => kept_store _ _ _
  .ite (.adminStart h1) (.ite (.adminStop h1) h1)
theorem wMsix (h : s.Keeps t) {i : Nat} {w : Reg32} : s.Keeps (t.wMsix i w) := .ite (.msixPending (.onPkg h)) (.onPkg h)
theorem wEthCtrl (h : s.Keeps t) {w : Reg32} : s.Keeps (t.wEthCtrl w) :=
  have h1 := .onPkg h fun _ => kept_store _ _ _
  .ite h1 (.timeNone h1)

theorem pkgStore (h : s.Keeps t) {off : Nat} {w : Reg32} : s.Keeps (t.pkgStore off w) :=
  .ite (.wSetupLock h) (.ite (.wAdminCfg h) (.ite (.wMsix h) (.ite (.wCanCtrl h) (.ite (.canRefuse h) (.ite (.wEthCtrl h)
    (.ite (.wEnroll h) (.ite (.wSecReset h) (.ite (.wUnlock h) (.onPkg h fun _ => kept_store _ _ _)))))))))

theorem pkgReg (h : s.Keeps t) {src : Src} {off : Nat} {w : Reg32} : s.Keeps (t.pkgReg src off w) := by
  unfold State.pkgReg
  refine .ite (.ite (.badAccess h) h) (.ite h (.ite h ?_))
  split
  · exact .wCanBuf h
  · refine .ite (.lockedPkg h) ?_
    split
    · exact h
    · exact .ite (.ite h (.rangeDrop h)) (.pkgStore h)

theorem regWrite (h : s.Keeps t) {src : Src} {a : Nat} {w : Reg32} : s.Keeps (t.regWrite src a w) :=
  .ite h (.ite (.stakeReg h) (.pkgReg h))

theorem readStake (h : s.Keeps t) {n off : Nat} : s.Keeps (t.readStake n off).2 := by
  unfold State.readStake
  dsimp only
  split
  · exact h
  · exact .onStake h

theorem readPkg (h : s.Keeps t) {off : Nat} : s.Keeps (t.readPkg off).2 := by
  unfold State.readPkg
  dsimp only
  split
  · exact .ite (.canLatch (.onPkg h)) (.onPkg h)
  · exact .onPkg h

theorem readAddr (h : s.Keeps t) {a : Nat} : s.Keeps (t.readAddr a).2 := by
  unfold State.readAddr
  split_ifs
  exacts [h, .readStake h, .readPkg h]

theorem setFlags (h : s.Keeps t) {a : Nat} {w : BitVec 32} : s.Keeps (t.setFlags a w) := by
  unfold State.setFlags
  dsimp only
  split
  · exact h
  · exact .ite (.ite (.onStake h) h) (.onPkg h)

/-! The start. -/

theorem upLink (h : s.Keeps t) {l : List UpsettRes} {n : Nat} {d : Dir} : s.Keeps (t.upLink l n d) := .ite h (.onStake h)
theorem upsettAll (h : s.Keeps t) {l : List UpsettRes} : s.Keeps (t.upsettAll l) :=
  .ringOpen (.onStake (.foldl (fun _ _ h => .upLink (.upLink h)) (.onBoot (.onPkg (.foldl (fun _ _ h => .onStake h) h)))))
theorem verifyStart (h : s.Keeps t) {p : Phase} : s.Keeps (t.verifyStart p) := .onBoot h
theorem imageTaken (h : s.Keeps t) {n : Nat} {b : Bool} : s.Keeps (t.imageTaken n b) :=
  have h1 := Keeps.onStake (.onBoot (.onPkg h))
  .distOver (.ite (.postPkg h1) h1)
theorem makeReady (h : s.Keeps t) {p : Phase} {n : Nat} : s.Keeps (t.makeReady p n) := .drain (.onPkg (.onBoot h))
theorem recovery (h : s.Keeps t) : s.Keeps t.recovery := .makeReady (.postPkg h)

theorem cfgApply (h : s.Keeps t) {m : Nat} {l : List (Nat × Reg32)} : s.Keeps (t.cfgApply m l) := by
  have hbase : ∀ {f : BootSt → BootSt} {r g : Nat} {a b : Bool}, (∀ b, (f b).otpJobs = b.otpJobs) →
      s.Keeps ((t.onBoot f).onPkg fun p => (((p.put Reg.NVM_CFG_STATUS_OUTCOME r).putB Reg.NVM_CFG_STATUS_IN_FORCE a).putB
        Reg.NVM_CFG_STATUS_REWRITE_PENDING b).put48 Reg.NVM_CFG_GEN (BitVec.ofNat 48 g)).copySync := fun hf =>
    .copySync (.onPkg (.onBoot h hf))
  unfold State.cfgApply
  dsimp only
  split
  · exact .onAll (.postPkg (hbase (by exact fun _ => rfl)))
  · exact .foldl (fun _ _ h => .onStake h) (.foldl (fun _ _ h => .regWrite h)
      (.ite (hbase (by exact fun _ => rfl)) (.ite (.postPkg (hbase (by exact fun _ => rfl))) (.postPkg (hbase (by exact fun _ => rfl))))))

theorem bootReady (h : s.Keeps t) : s.Keeps t.bootReady := .drain (.rollbackAdvance (.onPkg (.onBoot (.onAll h))))

theorem cfgWritten (h : s.Keeps t) {o : CfgOp} {m : Nat} {l : List (Nat × Reg32)} : s.Keeps (t.cfgWritten o m l) :=
  have h1 := Keeps.finish (.copySync (.onBoot (.onNv h fun _ => NvState.copySteps_otp _ _ _ _)))
  .ite (.cfgApply h1) h1

/-! Descriptors. -/

theorem fetchEnds (h : s.Keeps t) {r : Nat} : s.Keeps (t.fetchEnds r) := .onRing h
theorem inFlight (h : s.Keeps t) {r : Nat} {b : List Nat} : s.Keeps (t.inFlight r b) := .onHost (.onPkg h)
theorem accept (h : s.Keeps t) {r : Nat} {b : List Nat} : s.Keeps (t.accept r b) := by
  unfold State.accept
  dsimp only
  split
  · exact .onHost h
  · exact .ite (.finish h) (.ite (.onStake (.onHost h)) (.onHost h))
theorem arrives (h : s.Keeps t) {r : Nat} {b : List Nat} : s.Keeps (t.arrives r b) := by
  unfold State.arrives
  dsimp only
  have h1 : s.Keeps ((t.fetchEnds r).inFlight r (dataOf 64 b)) := .inFlight (.fetchEnds h)
  split
  · exact .onHost h1
  · refine .ite (.finish h1) ?_
    split
    · exact .finish h1
    · exact .ite (.finish h1) (.accept h1)

theorem tuneWrite (h : s.Keeps t) {n : Option Nat} {o v : Nat} : s.Keeps (t.tuneWrite n o v) := by
  unfold State.tuneWrite
  split
  · exact .stakeReg h
  · exact .pkgReg h
theorem freeInfo (h : s.Keeps t) : s.Keeps t.freeInfo.2 := .onPkg h
theorem tuneQueue (h : s.Keeps t) {d : Desc} {n : Option Nat} {a b : List (Nat × Nat)} : s.Keeps (t.tuneQueue d n a b) := .onHost h
theorem tuneDone (h : s.Keeps t) {x : Tune} : s.Keeps (t.tuneDone x) := .ite (.onStake h) (.finish h)
theorem tuneNext (h : s.Keeps t) {x : Tune} : s.Keeps (t.tuneNext x) := by
  unfold State.tuneNext
  dsimp only
  split
  · exact .tuneDone (.onHost h)
  · exact .tuneDone (.onHost (.tuneWrite h))
  · exact .onHost (.tuneWrite h)
theorem tuneTick (h : s.Keeps t) : s.Keeps t.tuneTick := .foldl (fun _ _ h => .tuneNext h) h
theorem tuneStart (h : s.Keeps t) {x : Tune} : s.Keeps (t.tuneStart x) :=
  have h1 : s.Keeps _ := .onHost (.ite (.onStake h) (.onHost h))
  have h2 : s.Keeps _ := .foldl (fun _ _ h => .tuneWrite h) h1
  .ite (.tuneNext h1) (.ite (.tuneNext h2) h2)

theorem bindRing (h : s.Keeps t) {b : List Nat} : s.Keeps (t.bindRing b) :=
  .onRing (.onPkg h)
theorem abortPair (h : s.Keeps t) {r : Nat} : s.Keeps (t.abortPair r) :=
  .ite h (.foldl (fun _ _ h => .finish h) (.foldl (fun _ _ h => .finish h) (.onHost (.bufCloseAll (.returnPacket h)))))

theorem abandonReads (h : s.Keeps t) : s.Keeps t.abandonReads := by
  have hcfg : s.Keeps (match t.pkg.boot.cfgOp with
    | some o => if t.readDone o.ring o.cid then t else (t.cfgDrop .write).onBoot fun b => { b with cfgOp := none }
    | none => t) := by
    split
    · exact .ite h (.onBoot (.cfgDrop h))
    · exact h
  have hfw : ∀ {u : State}, s.Keeps u → s.Keeps (match u.pkg.boot.fwOp with
    | some o => if u.readDone o.ring o.cid then u else u.onBoot fun b => { b with fwOp := none }
    | none => u) := by
    intro u hu
    split
    · exact .ite hu (.onBoot hu)
    · exact hu
  exact hfw hcfg

theorem linkReset (h : s.Keeps t) {b : Bool} : s.Keeps (t.linkReset b) :=
  .onHost (.onPkg (.foldl (fun _ _ h => .returnPacket h) (.abandonReads h)))
theorem badDoorbell (h : s.Keeps t) {r v : Nat} : s.Keeps (t.badDoorbell r v) := .postPkg (.onPkg h)
theorem dataFails (h : s.Keeps t) {r c : Nat} : s.Keeps (t.dataFails r c) :=
  .ite (.finish (.onHost h)) (.ite (.finish (.onBoot (.cfgDrop h))) (.finish (.onBoot h)))

/-! The tick. -/

theorem tickUpsett (h : s.Keeps t) : s.Keeps t.tickUpsett := .ite h (.onAll h)
theorem tickPairs (h : s.Keeps t) : s.Keeps t.tickPairs :=
  .foldl (fun _ _ h => .ite h (.pairUp (.onStake (.onStake h)))) h

theorem tick (h : s.Keeps t) : s.Keeps t.tick := by
  have hreset : ∀ {u : State}, s.Keeps u → s.Keeps (match u.pkg.boot.resetDue with
    | some due =>
      if due ≤ u.time then (u.onPkg fun p => { p with fresh := p.fresh + 1 }).packageReset (Config.freePkg u.pkg.fresh % 388)
      else if u.clocked then u.tickNet.tuneTick else u
    | none => if u.clocked then u.tickNet.tuneTick else u) := by
    intro u hu
    split
    · exact .ite (.packageReset (.onPkg hu)) (.ite (.tuneTick (.tickNet hu)) hu)
    · exact .ite (.tuneTick (.tickNet hu)) hu
  have hu : s.Keeps (t.onAll (Stake.tickStake t.clocked)).tickUpsett := .tickUpsett (.onAll h)
  exact hreset (.ite (.tickOtp (.tickSupply (.tickPairs (.onAll hu)))) hu)

end State.Keeps
end Sys2Proof.Machine

namespace Sys2Proof.Machine
set_option Elab.async false

/-- A command answers a next state, and keeps the shape and one-time memory. -/
def State.Answers (s : State) (o : Host.Outcome State Fault Refusal) : Prop := ∃ t, o = .next t ∧ s.Keeps t

namespace State.Answers
open State (Keeps)
variable {s t : State}

theorem next (h : s.Keeps t) : s.Answers (.next t) := ⟨t, rfl, h⟩

/-- A command of a stake alone. -/
theorem onStake {n : Nat} {f : Stake → Stake} : s.Answers (.next (s.onStake n f)) := next (.onStake (.refl s))

/-- A write of a register of a stake with an effect of its own. -/
theorem stakeWrite {src : Src} {n off : Nat} {w : Reg32} {f : Stake → Stake} : s.Answers (.next (s.stakeWrite src n off w f)) :=
  next (.stakeWrite (.refl s))

/-- A command of a descriptor that has reached its target. -/
theorem ofDesc {r op : Nat} {f : Desc → State → State} (hf : ∀ {d u}, s.Keeps u → s.Keeps (f d u)) :
    s.Keeps (match s.takeDesc r op with | none => s | some (d, u) => f d u) := by
  split
  · exact .refl s
  · rename_i e
    exact hf (.takeDesc (.refl s) e)

/-! Ticks, sensing, position, the field engine, modulation. -/

theorem paramCommit {n : Nat} {src : Src} {w : Reg32} : s.Answers (execParamCommit n src w s) := next (.ite (.fldCtrlWrite (.refl s)) (.refl s))
theorem fldTableSwap {n : Nat} {src : Src} {w : Reg32} {b : Bool} : s.Answers (execFldTableSwap n src w b s) :=
  next (.tblCtrlWrite (.refl s))
theorem fldApply {n : Nat} {src : Src} {w : Reg32} : s.Answers (execFldApply n src w s) := next (.ite (.fldCtrlWrite (.refl s)) (.refl s))
theorem transferBoundary {n : Nat} : s.Answers (execTransferBoundary n s) :=
  next (.ite (.onStake (.refl s)) (.onPkg (.onStake (.refl s))))
theorem entryCommit {n k : Nat} {src : Src} {w : Reg32} : s.Answers (execEntryCommit n src k w s) :=
  next (.ite (.refl s) (.ite (.ite (.lockDrop (.refl s)) (.refl s)) (.entryCommit (.refl s))))
theorem encAlignLoad {n : Nat} {src : Src} {w : Reg32} : s.Answers (execEncAlignLoad n src w s) :=
  next (.ite (.ite (.refl s) (.rangeDrop (.refl s))) (.stakeWrite (.refl s)))

/-! The networks. -/

theorem canCtrlReadLatch {c i : Nat} : s.Answers (execCanCtrlReadLatch c i s) :=
  next (.ite (.refl s) (.answer (.canLatch (.crossedAt (.refl s)))))
theorem canBufWrite {src : Src} {c i : Nat} {w : Reg32} {b : Bool} {p : Prop} [Decidable p] :
    s.Answers (.next (if p then s else (s.crossedAt src (canBuf c i + 8) 1 [w.toNat]).wCanBuf src c i 8 w b)) :=
  next (.ite (.refl s) (.wCanBuf (.crossedAt (.refl s))))

theorem canTxDone {c b ago : Nat} : s.Answers (execCanTxDone c b ago s) :=
  have h1 := Keeps.canErr (.onCan (.onPkg (.refl s)))
  next (.ite (.refl s) (.ite (.canCycle h1) h1))
theorem canTxError {c b ago kind : Nat} {arb : Bool} : s.Answers (execCanTxError c b ago arb kind s) :=
  have h1 := Keeps.ite (.refl s) (.canErr (.refl s))
  next (.ite (.refl s) (.ite (.ttMiss h1) (.ite (.onCan (.onPkg h1)) h1)))
theorem canRxError {c kind : Nat} : s.Answers (execCanRxError c kind s) := next (.ite (.canErr (.refl s)) (.refl s))
theorem canBusOffRecovery {c : Nat} : s.Answers (execCanBusOffRecovery c s) := next (.ite (.canJoin (.refl s)) (.refl s))
theorem canControllerEnable {src : Src} {c : Nat} {w : Reg32} : s.Answers (execCanControllerEnable src c w s) :=
  next (.ite (.refl s) (.pkgWrite (.crossedAt (.refl s)) fun h => .wCanCtrl h))
theorem canUsWrap : s.Answers (execCanUsWrap s) := next (.ite (.onPkg (.onNet (.refl s))) (.refl s))
theorem canRefSend {c : Nat} : s.Answers (execCanRefSend c s) := next (.ite (.refl s) (.onCan (.canRequest (.onPkg (.refl s)))))
theorem canTtRefTimeout {c : Nat} : s.Answers (execCanTtRefTimeout c s) := next (.ite (.refl s) (.onStake (.onCan (.onPkg (.refl s)))))
theorem canTtColumnStart {c col : Nat} : s.Answers (execCanTtColumnStart c col s) :=
  next (.ite (.refl s) (.ite (.onCan (.refl s)) (.refl s)))
theorem canTtExclusiveMiss {c : Nat} : s.Answers (execCanTtExclusiveMiss c s) := by
  refine next ?_
  split
  · exact .ite (.ttMiss (.refl s)) (.refl s)
  · exact .refl s

theorem kept_statusFrame (p : Pkg) (base : Nat) (x y : Reg32) (l : List Nat) (g : Nat → Nat) :
    (l.foldl (fun p i => p.putByte base i (g i)) ((p.wr base x).wr (base + 0x10) y)).kept = p.kept := by
  refine (Keeps.kept_foldl _ _ (fun _ _ => ?_) _).trans ?_
  · exact Keeps.kept_putByte _ _ _ _
  · rw [Keeps.kept_wr, Keeps.kept_wr]

theorem canStatusFrameSend : s.Answers (execCanStatusFrameSend s) :=
  next (.ite (.refl s) (.onNet (.canRequest (.onPkg (.refl s) fun _ => kept_statusFrame _ _ _ _ _ _))))
theorem ethFrameReceived {f : EthFrame} : s.Answers (execEthFrameReceived f s) :=
  next (.ite (.refl s) (.ite (.onPkg (.refl s)) (.ite (.ethMessage (.refl s)) (.refl s))))
theorem pdelayReqSend : s.Answers (execPdelayReqSend s) := next (.ite (.refl s) (.ethSend (.onNet (.refl s))))
theorem phyLinkPoll {up : Bool} : s.Answers (execPhyLinkPoll up s) :=
  have h1 := Keeps.onNet (.onPkg (.refl s))
  next (.ite (.refl s) (.ite (.timeHold h1) h1))
theorem mapCommit {a b c : Word48} {r : Int} : s.Answers (execMapCommit a b c r s) :=
  next (.ite (.refl s) (.ite (.refl s) (.ite (.postPkg (.onPkg (.onNet (.refl s)))) (.onNet (.refl s)))))
theorem ethSyncTimeout : s.Answers (execEthSyncTimeout s) := next (.ite (.timeHold (.onPkg (.refl s))) (.refl s))
theorem holdoverTimeout : s.Answers (execHoldoverTimeout s) := next (.ite (.timeNone (.refl s)) (.refl s))

/-! Pairing, the leg link, protection. -/

theorem pairUpdateSet {n : Nat} {a b c : List Nat} : s.Answers (execPairUpdateSet n a b c s) := next (.onStake (.onStake (.refl s)))
theorem pairCtrl {n : Nat} {src : Src} {w : Reg32} {p : Prop} [Decidable p] : s.Answers (.next (if p then s.pairCtrlWrite src n w else s)) :=
  next (.ite (.pairCtrlWrite (.refl s)) (.refl s))
theorem legCmd {src : Src} {n p bit : Nat} {w : Reg32} : s.Answers (.next (s.legCmd src n p w bit)) := next (.legCmd (.refl s))
theorem legProfileWrite {n p q st : Nat} {src : Src} {w : Reg32} : s.Answers (execLegProfileWrite n src p q st w s) :=
  next (.ite (.refl s) (.stakeWrite (.refl s)))

theorem safeStateRequest {n : Nat} : s.Answers (execSafeStateRequest n s) := by
  unfold execSafeStateRequest
  dsimp only
  split
  · exact next (.refl s)
  · split
    · exact next (.refl s)
    · exact next (.ite (.onStake (.onStake (.refl s))) (.onStake (.refl s)))

theorem axisDesc {n r c code : Nat} {f : Stake → Stake} : s.Answers (.next (s.axisDesc n r c code f)) := next (.axisDesc (.refl s))
theorem dischReqAssert {held : Nat} : s.Answers (execDischReqAssert s held) := next (.ite (.refl s) (.onAll (.refl s)))

/-! Streams, supply and clocks. -/

theorem streamBuf {r : Nat} : s.Answers (execStreamBuf r s) := next (ofDesc fun h => .ite (.finish h) (.onRing h))
theorem streamBufTimeout {r : Nat} : s.Answers (execStreamBufTimeout r s) := by
  refine next ?_
  split
  · split
    · exact .ite (.bufClose (.refl s)) (.refl s)
    · exact .refl s
  · exact .refl s
theorem streamPacketRequest {r : Nat} : s.Answers (execStreamPacketRequest r s) := by
  refine next (.ite (.refl s) ?_)
  split
  · exact .refl s
  · exact .ite (.findRoom (.refl s)) (.onStake (.servedNow (.onHost (.findRoom (.refl s)))))
theorem streamPacketCell {n : Nat} : s.Answers (execStreamPacketCell n s) := by
  refine next ?_
  split
  · exact .placePacket (.refl s)
  · exact .refl s

theorem supOvervolt {n mv : Nat} : s.Answers (execSupOvervolt n mv s) := next (.onStake (.supLevel (.refl s)))
theorem supOvervoltEnd {n mv : Nat} : s.Answers (execSupOvervoltEnd n mv s) := next (.onStake (.supLevel (.refl s)))
theorem supInhibitEnter {n mv k : Nat} : s.Answers (execSupInhibitEnter n mv k s) :=
  have h1 := Keeps.supLevel (.refl s)
  next (.ite (.refl s) (.ite h1 (.ite (.onStake h1) (.ite (.cfgInhibited (.onStake h1)) (.onStake h1)))))
theorem supInhibitExit {n mv : Nat} : s.Answers (execSupInhibitExit n mv s) :=
  next (.ite (.refl s) (.ite (.supLevel (.refl s)) (.onStake (.supLevel (.refl s)))))
theorem brownOut {n mv k : Nat} : s.Answers (execBrownOut n mv k s) :=
  next (.ite (.refl s) (.ite (.onSup (.refl s)) (.packageReset (.onBoot (.onSup (.refl s))))))
theorem railFault {n a b k : Nat} : s.Answers (execRailFault n a b k s) := next (.ite (.refl s) (.packageReset (.onBoot (.refl s))))
theorem supVana {n v : Nat} : s.Answers (execSupVana n v s) := next (.onStake (.supRefresh (.onSup (.refl s))))
theorem coreClockLost {n c : Nat} : s.Answers (execCoreClockLost n c s) :=
  next (.ite (.linkOff (.linkOff (.onStake (.refl s)))) (.onStake (.refl s)))

/-! Register accesses. -/

theorem setupRegisterWrite {src : Src} {a : Nat} {w : Reg32} : s.Answers (execSetupRegisterWrite src a w s) :=
  next (.regWrite (.crossedAt (.refl s)))
theorem badWidthAccess {b : Bool} {a n : Nat} : s.Answers (execBadWidthAccess b a n s) :=
  next (.ite (.refl s) (.ite (.badAccess (.refl s)) (.answer (.badAccess (.refl s)))))
theorem lowWordReadLatch {a : Nat} : s.Answers (execLowWordReadLatch a s) := next (.ite (.answer (.readAddr (.crossedAt (.refl s)))) (.refl s))
theorem highWordWriteCommit {src : Src} {a : Nat} {w : Reg32} : s.Answers (execHighWordWriteCommit src a w s) :=
  next (.ite (.regWrite (.crossedAt (.refl s))) (.refl s))
theorem w1cClear {a : Nat} {w v : Reg32} : s.Answers (execW1cClear a w v s) :=
  next (.ite (.setFlags (.regWrite (.crossedAt (.refl s)))) (.refl s))
theorem satClear {a n : Nat} : s.Answers (execSatClear a n s) := by
  refine next (.ite (.onStake (.regWrite (.crossedAt (.refl s)))) ?_)
  have h1 : s.Keeps ((s.crossedAt .host a 1 [0x80000000]).regWrite .host a 0x80000000) := .regWrite (.crossedAt (.refl s))
  split
  · exact .refl s
  · exact .ite h1 (.ite (.ite (.onStake h1) h1) (.onPkg h1))
theorem absentStakeAccess {b : Bool} {a : Nat} : s.Answers (execAbsentStakeAccess b a s) := next (.ite (.refl s) (.answer (.refl s)))
theorem reservedPackageAccess {b : Bool} {a : Nat} : s.Answers (execReservedPackageAccess b a s) :=
  next (.ite (.refl s) (.ite (.badAccess (.refl s)) (.answer (.badAccess (.refl s)))))
theorem bar2ReservedWrite {a : Nat} {w : Reg32} : s.Answers (execBar2ReservedWrite a w s) := next (.ite (.badAccess (.refl s)) (.refl s))
theorem regReadRequestCell {n tag off : Nat} : s.Answers (execRegReadRequestCell n tag off s) :=
  have h1 := Keeps.onPkg (.readAddr (.crossed (.refl s)))
  next (.ite (.refl s) (.ite h1 (.onStake h1)))
theorem regWriteCell {n off : Nat} {src : Src} {w : Reg32} {x : Option (Dir × List Nat)} : s.Answers (execRegWriteCell n src off w x s) := by
  refine next ?_
  split
  · exact .ite (.onStake (.refl s)) (.refl s)
  · exact .ite (.refl s) (.ite (.stakeReg (.crossed (.refl s))) (.pkgReg (.crossed (.refl s))))
theorem regReadReturnCell {tag : Nat} : s.Answers (execRegReadReturnCell tag s) := by
  refine next ?_
  split
  · exact .refl s
  · exact .answer (.onPkg (.refl s))

/-! The host interface. -/

theorem doorbellSqTail {r : Nat} {w : Reg32} : s.Answers (execDoorbellSqTail r w s) :=
  next (.ite (.refl s) (.ite (.badDoorbell (.refl s)) (.onRing (.refl s))))
theorem doorbellCqHead {r : Nat} {w : Reg32} : s.Answers (execDoorbellCqHead r w s) :=
  next (.ite (.refl s) (.ite (.badDoorbell (.refl s)) (.onRing (.refl s))))
theorem descriptorFetch : s.Answers (execDescriptorFetch s) := by
  refine next ?_
  split
  · exact .refl s
  · split
    · exact .servedNow (.readData (.refl s))
    · exact .ite (.servedNow (.charge (.onRing (.takeFree (.refl s))))) (.refl s)
theorem descriptorArrival {r : Nat} {b : List Nat} : s.Answers (execDescriptorArrival r b s) := next (.ite (.refl s) (.arrives (.refl s)))
theorem ringFetchError {r x : Nat} : s.Answers (execRingFetchError r x s) :=
  next (.ite (.refl s) (.deleted (.postPkg (.onPkg (.onHost (.onRing (.fetchEnds (.refl s))))))))
theorem hostDataError {r cid : Nat} : s.Answers (execHostDataError r cid s) := by
  have h1 : s.Keeps (s.onPkg fun p => p.bump Reg.HIF_DMA_ERR_CNT) := .onPkg (.refl s)
  refine next ?_
  split
  · exact .finish (.onHost h1)
  · refine .ite (.dataFails h1) (.ite (.finish (.onRing h1)) ?_)
    split
    · exact .ite (.sealNext (.finish (.onBoot h1))) (.refl s)
    · exact .refl s
theorem forwardedDescriptorCell {n : Nat} : s.Answers (execForwardedDescriptorCell n s) := by
  refine next (.ite (.refl s) ?_)
  split
  · exact .refl s
  · exact .onHost (.refl s)
theorem setpoint {r : Nat} : s.Answers (execSetpoint r s) := next (ofDesc fun h => .ite (.finish h) (.onStake h))
theorem setDescriptor {r : Nat} : s.Answers (execSetDescriptor r s) := next (ofDesc fun h => .ite (.finish h) (.onStake h))

theorem regWrite {r : Nat} : s.Answers (execRegWrite r s) := by
  refine next ?_
  split
  · exact .refl s
  · rename_i e
    have h1 := Keeps.takeDesc (.refl s) e
    dsimp only
    split
    · exact .finish h1
    · exact .finish h1
    · exact .finish h1
    · refine .ite (.finish h1) ?_
      split
      · exact .finish (.onStake h1)
      · exact .tuneQueue h1

theorem tableWrite {r : Nat} {data : List Nat} : s.Answers (execTableWrite r data s) := by
  refine next ?_
  split
  · exact .refl s
  · rename_i e
    have h1 := Keeps.takeDesc (.refl s) e
    dsimp only
    split
    · exact .finish h1
    · split
      · exact .finish h1
      · exact .finish h1
      · refine .ite (.finish h1) (.ite (.finish (.freeInfo (.onStake h1))) ?_)
        split
        · exact .finish (.onStake h1)
        · exact .tuneQueue (.askRead h1)

theorem tuneApply {n : Nat} : s.Answers (execTuneApply n s) := by
  refine next (.ite (.refl s) ?_)
  split
  · exact .refl s
  · exact .ite (.tuneStart (.refl s)) (.refl s)

theorem ringCreate {r : Nat} : s.Answers (execRingCreate r s) := by
  refine next (ofDesc fun h => .ite (.finish h) ?_)
  split
  · exact .finish h
  · exact .ite (.finish (.freeInfo h)) (.finish (.bindRing h))

theorem ringDelete {r : Nat} : s.Answers (execRingDelete r s) :=
  next (ofDesc fun h => .ite (.finish h) (.deleted (.abortPair (.onRing h))))
theorem faultsSent {c : Completion} {a k : Nat} {bytes : List Nat} {b : Bool} (h : s.Keeps t) :
    s.Keeps ((if b then t.onPkg fun p => { p with fresh := p.fresh + k }
      else (t.onPkg fun p => { p with fresh := p.fresh + k }).hostWrite a bytes).finish c) :=
  .finish (.ite (.onPkg h) (.hostWrite (.onPkg h)))
theorem getFaults {r : Nat} : s.Answers (execGetFaults r s) := by
  refine next (ofDesc fun h => ?_)
  exact faultsSent h
theorem getSnapshot {r : Nat} : s.Answers (execGetSnapshot r s) := by
  refine next (ofDesc fun h => ?_)
  split
  · exact .finish h
  · exact .finish (.hostWrite h)
theorem plaitMode {r : Nat} : s.Answers (execPlaitMode r s) :=
  next (ofDesc fun h => .ite (.finish h) (.ite (.finish h) (.onStake h)))
theorem reservedOpcode {r : Nat} : s.Answers (execReservedOpcode r s) := by
  refine next ?_
  split
  · exact .refl s
  · rename_i e
    exact .finish (.takeReserved (.refl s) e)
theorem msixModerationTimeout {v : Nat} : s.Answers (execMsixModerationTimeout v s) := by
  refine next ?_
  split
  · exact .ite (.msixFire (.refl s)) (.refl s)
  · exact .refl s
theorem hifLinkReset {b : Bool} : s.Answers (execHifLinkReset s b) := next (.postPkg (.linkReset (.refl s)))
theorem adminEnable {src : Src} {w : Reg32} : s.Answers (execAdminEnable src w s) := next (.ite (.pkgReg (.refl s)) (.refl s))
theorem adminDisable {src : Src} {w : Reg32} : s.Answers (execAdminDisable src w s) := next (.ite (.refl s) (.pkgReg (.refl s)))
theorem pcieLinkUp {a b : Nat} {c : PcieCfg} : s.Answers (execPcieLinkUp a b s c) :=
  next (.ite (.refl s) (.foldl (fun _ _ h => .msixPending h) (.onHost (.onPkg (.refl s)))))

/-! The wale. -/

theorem waleCellCrcFail {n : Nat} {d : Dir} : s.Answers (execWaleCellCrcFail n d s) := next (.ite (.refl s) (.onStake (.onStake (.refl s))))
theorem waleCrcBurst {n : Nat} {d : Dir} : s.Answers (execWaleCrcBurst n d s) := next (.ite (.refl s) (.onStake (.onStake (.refl s))))
theorem retrainStart {n : Nat} {d : Dir} : s.Answers (execRetrainStart n d s) := next (.ite (.refl s) (.onStake (.onStake (.refl s))))
theorem retrainDone {n : Nat} {d : Dir} : s.Answers (execRetrainDone n d s) := next (.ite (.refl s) (.onStake (.onStake (.refl s))))
theorem waleLaneFail {n l : Nat} {d : Dir} : s.Answers (execWaleLaneFail n d l s) :=
  next (.ite (.refl s) (.ite (.onStake (.refl s)) (.linkDown (.onStake (.onStake (.refl s))))))
theorem completionCell {n : Nat} : s.Answers (execCompletionCell n s) := by
  refine next (.ite (.refl s) (.ite (.distArrives (.refl s)) ?_))
  split
  · exact .refl s
  · exact .finish (.onStake (.refl s))
theorem stakeEventRecord {n : Nat} {l : Option Nat} : s.Answers (execStakeEventRecord n l s) := by
  refine next (.ite (.refl s) ?_)
  split
  · exact .onStake (.refl s)
  · split
    · exact .refl s
    · exact .enqueue (.onStake (.refl s)) _
theorem heartbeatSend {n : Nat} : s.Answers (execHeartbeatSend n s) := next (.ite (.refl s) (.onStake (.refl s)))
theorem anchorsUnreachable {n : Nat} : s.Answers (execAnchorsUnreachable n s) := next (.ite (.refl s) (.onStake (.refl s)))
theorem alignmentCellSend : s.Answers (execAlignmentCellSend s) :=
  have h1 := Keeps.onStake (.onNet (.refl s))
  next (.ite (.refl s) (.ite (.onStake h1) h1))

/-! The start and what is stored. -/

theorem powerOn {n mv : Nat} : s.Answers (execPowerOn n mv s) :=
  next (.ite (.refl s) (.ite (.supLevel (.refl s)) (.onStake (.onBoot (.supLevel (.refl s))))))
theorem perstAssert {n k : Nat} : s.Answers (execPerstAssert n s k) := next (.ite (.refl s) (.packageReset (.onBoot (.refl s))))
theorem resetRelease {b : Bool} {n : Nat} {l : List Nat} : s.Answers (execResetRelease b n s l) := next (.ite (.refl s) (.onBoot (.refl s)))
theorem upsettComplete {l : List UpsettRes} : s.Answers (execUpsettComplete l s) := by
  have h1 : s.Keeps (s.upsettAll l) := .upsettAll (.refl s)
  have h2 : ∀ {p : Prop} [Decidable p] {r : EvRec}, s.Keeps (if p then (s.upsettAll l).enqueue r else s.upsettAll l) := .ite (.enqueue h1 _) h1
  refine next (.ite (.refl s) (.ite (.onBoot (.onPkg h1)) ?_))
  have h3 : ∀ {u : State}, s.Keeps u → s.Keeps ((u.onPkg fun p => (p.fromOtp u.part).put Reg.SEC_PREFER_PREFER p.nv.prefer).onBoot fun b =>
      { b with coSign := u.pkg.nv.enrolled }) := fun h =>
    .onBoot (.onPkg h fun _ => (Keeps.kept_put _ _ _).trans (Keeps.kept_fromOtp _ _))
  exact .ite (.makeReady (.drawChallenge (h3 h2))) (.verifyStart (h3 h2))
theorem slotVerifyDone {b : Bool} : s.Answers (execSlotVerifyDone b s) :=
  have h1 : ∀ {p : Prop} [Decidable p] {f : Fld} {v n : Nat}, s.Keeps (if p then (s.onPkg fun p => p.put f v).bodyLoad n else
      s.onPkg fun p => p.put f v) := .ite (.bodyLoad (.onPkg (.refl s))) (.onPkg (.refl s))
  next (.ite (.refl s) (.ite (.imageTaken h1) (.ite (.verifyStart h1) (.recovery h1))))
theorem firmwareBlockCell {n : Nat} : s.Answers (execFirmwareBlockCell n s) := next (.ite (.refl s) (.onStake (.onStake (.refl s))))
theorem distributionTimeout {n : Nat} : s.Answers (execDistributionTimeout n s) :=
  next (.ite (.refl s) (.distOver (.postPkg (.loseStake (.refl s)))))
theorem configLoad {m : Nat} {l : List (Nat × Reg32)} : s.Answers (execConfigLoad m l s) :=
  next (.ite (.refl s) (.bootReady (.cfgApply (.onBoot (.refl s)))))
theorem configRewrite : s.Answers (execConfigRewrite s) := by
  refine next ?_
  split
  · exact .refl s
  · exact .ite (.refl s) (.sealAsk (.onBoot (.refl s)))
theorem configRewriteDone : s.Answers (execConfigRewriteDone s) := next (.ite (.onPkg (.refl s)) (.refl s))
theorem cfgWrite {r k : Nat} {data : List Nat} : s.Answers (execCfgWrite r data s k) := by
  refine next (ofDesc fun h => ?_)
  split
  · exact .finish h
  · exact .ite (.finish h) (.sealAsk (.onPkg (.onBoot (.rewriteStop (.askRead h)))))
theorem cfgWriteDone {m : Nat} {l : List (Nat × Reg32)} : s.Answers (execCfgWriteDone m l s) := by
  refine next ?_
  split
  · exact .refl s
  · exact .ite (.cfgWritten (.refl s)) (.refl s)
theorem fwStaged {r cid len slot off : Nat} {first : Bool} {op : Option FwOp} (h : s.Keeps t) :
    s.Keeps (((t.askRead r cid 3 len).onNv fun n => n.stageErase slot off len first).onBoot fun b =>
      { b with staged := addNew b.staged slot, fwOp := op }) :=
  .onBoot (.onNv (.askRead h) fun _ => NvState.stageErase_otp _ _ _ _ _)
theorem fwStage {r : Nat} {data : List Nat} : s.Answers (execFwStage r data s) := by
  refine next (ofDesc fun h => ?_)
  dsimp only
  split
  · exact .finish h
  · exact fwStaged h
theorem fwStageDone {ok : Bool} : s.Answers (execFwStageDone ok s) := by
  refine next ?_
  split
  · exact .refl s
  · exact .ite (.refl s) (.ite (.finish (.onNv (.onBoot (.refl s)))) (.finish (.onNv (.onPkg (.onBoot (.refl s))))))
theorem fwCommit {r : Nat} : s.Answers (execFwCommit r s) := by
  refine next (ofDesc fun h => ?_)
  dsimp only
  split
  · exact .finish h
  · exact .sealAsk h
theorem attest {r : Nat} : s.Answers (execAttest r s) := next (ofDesc fun h => .ite (.finish h) (.sealAsk h))
theorem sealOperationDone {b : Bool} : s.Answers (execSealOperationDone s b) := by
  refine next ?_
  split
  · exact .refl s
  · exact .refl s
  · exact .refl s
  · exact .ite (.refl s) (.sealNext (.sealFinish (.onBoot (.refl s))))
theorem secReset {src : Src} {w : Reg32} : s.Answers (execSecReset src w s) := next (.pkgWrite (.refl s) fun h => .wSecReset h)
theorem secEnroll {src : Src} {w : Reg32} : s.Answers (execSecEnroll src w s) := next (.pkgWrite (.refl s) fun h => .wEnroll h)
theorem unlockSubmit {src : Src} {w : Reg32} : s.Answers (execUnlockSubmit src w s) := next (.pkgWrite (.refl s) fun h => .wUnlock h)
theorem unlockEraseDone : s.Answers (execUnlockEraseDone s) := next (.ite (.refl s) (.onPkg (.onBoot (.onNv (.refl s)))))

end State.Answers
end Sys2Proof.Machine

namespace Sys2Proof.Machine
set_option Elab.async false
open State (Keeps)

/-- Every command answers a next state, and keeps the shape and one-time memory: the commands that
reach further than one stake are cited by name, all others change one stake alone. -/
theorem exec_answers (c : Instr) (s : State) : s.Answers (exec c s) := by
  cases c
  case setupRegisterWrite => exact .setupRegisterWrite
  case badWidthAccess => exact .badWidthAccess
  case lowWordReadLatch => exact .lowWordReadLatch
  case highWordWriteCommit => exact .highWordWriteCommit
  case w1cClear => exact .w1cClear
  case satClear => exact .satClear
  case absentStakeAccess => exact .absentStakeAccess
  case reservedPackageAccess => exact .reservedPackageAccess
  case bar2ReservedWrite _ w => exact .bar2ReservedWrite (w := w)
  case waleCellCrcFail => exact .waleCellCrcFail
  case regReadRequestCell => exact .regReadRequestCell
  case regWriteCell => exact .regWriteCell
  case regReadReturnCell => exact .regReadReturnCell
  case streamPacketCell => exact .streamPacketCell
  case forwardedDescriptorCell => exact .forwardedDescriptorCell
  case completionCell => exact .completionCell
  case firmwareBlockCell => exact .firmwareBlockCell
  case stakeEventRecord => exact .stakeEventRecord
  case heartbeatSend => exact .heartbeatSend
  case anchorsUnreachable => exact .anchorsUnreachable
  case waleLaneFail => exact .waleLaneFail
  case waleCrcBurst => exact .waleCrcBurst
  case retrainStart => exact .retrainStart
  case retrainDone => exact .retrainDone
  case alignmentCellSend => exact .alignmentCellSend
  case entryCommit => exact .entryCommit
  case encAlignLoad => exact .encAlignLoad
  case paramCommit => exact .paramCommit
  case fldTableSwap => exact .fldTableSwap
  case fldApply => exact .fldApply
  case transferBoundary => exact .transferBoundary
  case pairUpdateSet => exact .pairUpdateSet
  case legProfileWrite => exact .legProfileWrite
  case safeStateRequest => exact .safeStateRequest
  case dischReqAssert => exact .dischReqAssert
  case configLoad => exact .configLoad
  case configRewrite => exact .configRewrite
  case cfgWriteDone => exact .cfgWriteDone
  case doorbellSqTail => exact .doorbellSqTail
  case doorbellCqHead => exact .doorbellCqHead
  case descriptorFetch => exact .descriptorFetch
  case descriptorArrival => exact .descriptorArrival
  case ringFetchError => exact .ringFetchError
  case hostDataError => exact .hostDataError
  case setpoint => exact .setpoint
  case setDescriptor => exact .setDescriptor
  case regWrite => exact .regWrite
  case tableWrite => exact .tableWrite
  case tuneApply => exact .tuneApply
  case streamBuf => exact .streamBuf
  case streamBufTimeout => exact .streamBufTimeout
  case cfgWrite => exact .cfgWrite
  case fwStage => exact .fwStage
  case fwCommit => exact .fwCommit
  case ringCreate => exact .ringCreate
  case ringDelete => exact .ringDelete
  case getFaults => exact .getFaults
  case getSnapshot => exact .getSnapshot
  case plaitMode => exact .plaitMode
  case attest => exact .attest
  case reservedOpcode => exact .reservedOpcode
  case msixModerationTimeout => exact .msixModerationTimeout
  case streamPacketRequest => exact .streamPacketRequest
  case hifLinkReset => exact .hifLinkReset
  case adminEnable => exact .adminEnable
  case adminDisable => exact .adminDisable
  case canCtrlReadLatch => exact .canCtrlReadLatch
  case canTxDone => exact .canTxDone
  case canTxError => exact .canTxError
  case canBusOffRecovery => exact .canBusOffRecovery
  case canUsWrap => exact .canUsWrap
  case canRefSend => exact .canRefSend
  case canTtRefTimeout => exact .canTtRefTimeout
  case canTtColumnStart => exact .canTtColumnStart
  case canStatusFrameSend => exact .canStatusFrameSend
  case ethFrameReceived => exact .ethFrameReceived
  case pdelayReqSend => exact .pdelayReqSend
  case phyLinkPoll => exact .phyLinkPoll
  case mapCommit => exact .mapCommit
  case ethSyncTimeout => exact .ethSyncTimeout
  case holdoverTimeout => exact .holdoverTimeout
  case supOvervolt => exact .supOvervolt
  case supInhibitEnter => exact .supInhibitEnter
  case supInhibitExit => exact .supInhibitExit
  case brownOut => exact .brownOut
  case railFault => exact .railFault
  case supVana => exact .supVana
  case coreClockLost => exact .coreClockLost
  case powerOn => exact .powerOn
  case perstAssert => exact .perstAssert
  case secReset => exact .secReset
  case resetRelease => exact .resetRelease
  case upsettComplete => exact .upsettComplete
  case slotVerifyDone => exact .slotVerifyDone
  case distributionTimeout => exact .distributionTimeout
  case secEnroll => exact .secEnroll
  case sealOperationDone => exact .sealOperationDone
  case unlockSubmit => exact .unlockSubmit
  case unlockEraseDone => exact .unlockEraseDone
  case pcieLinkUp => exact .pcieLinkUp
  case canRxError => exact .canRxError
  case canControllerEnable => exact .canControllerEnable
  case fwStageDone => exact .fwStageDone
  case configRewriteDone => exact .configRewriteDone
  case supOvervoltEnd => exact .supOvervoltEnd
  case canTtExclusiveMiss => exact .canTtExclusiveMiss
  case stakeLost => exact .next (.loseStake (.refl s))
  case pairStart => exact .pairCtrl
  case pairStop => exact .pairCtrl
  case eventQueueDrain => exact .next (.drain (.refl s))
  case setupLock => exact .next (.pkgReg (.refl s))
  case canFrameReceived => exact .next (.canReceive (.refl s))
  case legRestart | legClear | legSelftest | legSumRequest | legSplice => exact .legCmd
  case axisArm | axisDisarm | axisRun | axisStop | axisTest | axisCatch | axisDischarge | axisClear | axisRecover => exact .axisDesc
  case canRelease | canTxRequest | canCancel => exact .canBufWrite
  case schedEnable | corrCommit | snsApply | posSourceEnable | posSourceDisable | carrierStop | modSetOpen | modSetClose | modSetAbort | modPatSwap | cutClear | modApply | legEnable | legDisable | legApply | pltApply | plaitToSplit | plaitToVoted | streamFlush | strApply => exact .stakeWrite
  all_goals exact .onStake

theorem step_keeps {s t : State} (h : step s = .next t) : s.Keeps t := by
  unfold step at h
  split at h
  · cases h
    exact .tick (.refl s)
  · next c rest _ =>
    obtain ⟨u, hu, hk⟩ := exec_answers c { s with pending := rest }
    rw [hu] at h
    cases h
    exact hk

/-- Settles O1: a step is `exec` on the front command, and `exec_answers` gives each command's next state. -/
theorem stepRunsFront : Obligations.StepRunsFront := by
  refine ⟨fun s c rest h => by simp [step, h], fun s c => ?_⟩
  obtain ⟨t, ht, _⟩ := exec_answers c s
  exact ⟨t, ht⟩

/-- Settles O3: every command and the tick keep the shape (`step_keeps`). -/
theorem shapeKept : Obligations.ShapeKept := fun _ _ hs h => (step_keeps h hs).1

/-- Settles O4: every command and the tick keep one-time memory (`step_keeps`). -/
theorem oneTimeKept : Obligations.OneTimeKept := fun _ _ hs h => (step_keeps h hs).2

end Sys2Proof.Machine

namespace Sys2Proof.Machine
set_option Elab.async false

theorem reset_shape : State.reset.Shape :=
  ⟨by decide +kernel, by decide +kernel, by decide +kernel, by decide +kernel, by decide +kernel, by decide +kernel⟩

theorem reset_stake {n : Nat} (hn : n < 8) : State.reset.stake n = Stake.reset n := by
  have h : ((List.range 8).map Stake.reset)[n]? = some (Stake.reset n) := by
    rw [List.getElem?_map, List.getElem?_range hn, Option.map_some]
  exact congrArg (·.getD (Stake.reset n)) h

theorem reset_rd (n off : Nat) : (Stake.reset n).rd off = winReset n off := rfl

/-- Settles O2: the stakes of the reset state are `Stake.reset`, whose registers are their reset column; the eight
register tables are evaluated. -/
theorem resetShape : Obligations.ResetShape := by
  refine ⟨reset_shape, rfl, fun n hn => ?_⟩
  rw [reset_stake hn]
  refine ⟨reset_rd n, ?_⟩
  revert n
  decide +kernel

end Sys2Proof.Machine

/-! What a stake's outgoing records and other parts show after the shared operations: general rules. -/
namespace Sys2Proof.Machine
set_option Elab.async false

/-- The command changes one stake: what holds of that stake under the effect holds after the command. -/
theorem State.exists_onStake {s : State} {n : Nat} (h : s.present n = true) (f : Stake → Stake) {P : Stake → Prop} (hp : P (f (s.stake n))) :
    ∃ t, Host.Outcome.next (s.onStake n f) = (.next t : Host.Outcome State Fault Refusal) ∧ s.elsewhere t n ∧ P (t.stake n) :=
  ⟨_, rfl, s.onStake_elsewhere n f, by rw [State.onStake_stake_same h]; exact hp⟩

/-- What is posted depends on the state before only by its records, its number and its tick. -/
theorem Stake.posted_of_eq {k q j : Stake} {e : Ev} {c : Nat} {v : List Nat} (ho : q.out = k.out) (hi : q.id = k.id)
    (ht : q.ang.tick = k.ang.tick) (h : q.posted j e c v) : k.posted j e c v := by
  unfold Stake.posted at h ⊢
  rwa [ho, hi, ht] at h

/-- Of the records that leave a stake for the anchor none is lost. -/
def Stake.outKept (k j : Stake) : Prop := k.out <+: j.out

namespace Stake.outKept
variable {k j i : Stake}

theorem refl : k.outKept k := List.prefix_refl _
theorem trans (h : k.outKept j) (h' : j.outKept i) : k.outKept i := List.IsPrefix.trans h h'
theorem of_eq (h : k.outKept j) (ho : i.out = j.out) : k.outKept i := by rwa [Stake.outKept, ho]
theorem put {f : Fld} {v : Nat} (h : k.outKept j) : k.outKept (j.put f v) := h
theorem putB {f : Fld} {b : Bool} (h : k.outKept j) : k.outKept (j.putB f b) := h
theorem bump {o n : Nat} (h : k.outKept j) : k.outKept (j.bump o n) := h.of_eq (j.bump_out o n)
theorem onMod {f : ModState → ModState} (h : k.outKept j) : k.outKept (j.onMod f) := h
theorem post {e : Ev} {c : Nat} {v : List Nat} (h : k.outKept j) : k.outKept (j.post e c v) := by
  obtain ⟨_, hp⟩ := j.post_out e c v
  exact h.trans ((List.prefix_append _ _).trans hp)
theorem ite {p : Prop} [Decidable p] (h : k.outKept j) (h' : k.outKept i) : k.outKept (if p then j else i) := Stake.prefix_ite h h'
theorem foldl {α : Type} {f : Stake → α → Stake} (hf : ∀ j a, k.outKept j → k.outKept (f j a)) (l : List α) (h : k.outKept j) :
    k.outKept (l.foldl f j) := by
  induction l generalizing j with
  | nil => exact h
  | cons a l ih => exact ih (hf j a h)
end Stake.outKept

/-- A posted record stays posted while the records that leave only grow. -/
theorem Stake.posted.of_prefix {k j i : Stake} {e : Ev} {c : Nat} {v : List Nat} (h : k.posted j e c v) (hp : j.outKept i) :
    k.posted i e c v := by
  obtain ⟨l, fl, ho, hm⟩ := h
  obtain ⟨l', hl⟩ := hp
  exact ⟨l ++ l', fl, by rw [← hl, ho, List.append_assoc], List.mem_append_left _ hm⟩

namespace Stake.regsKept
variable {k j i : Stake} {l l' : List Nat}

theorem trans (h : k.regsKept j l) (h' : j.regsKept i l) : k.regsKept i l := Stake.regsKept_trans h h'
theorem mono (h : k.regsKept j l) (hl : l ⊆ l') : k.regsKept j l' := fun o ho => h o fun hm => ho (hl hm)
theorem refl : k.regsKept k l := k.regsKept_refl l
theorem of_eq (h : k.regsKept j l) (hr : i.regs = j.regs) (hi : i.id = j.id) : k.regsKept i l := h.trans (Stake.regsKept_of_eq hr hi)
theorem put {f : Fld} {v : Nat} (h : k.regsKept j l) (hf : f.off ∈ l) : k.regsKept (j.put f v) l := h.trans (j.regsKept_put v hf)
theorem putB {f : Fld} {b : Bool} (h : k.regsKept j l) (hf : f.off ∈ l) : k.regsKept (j.putB f b) l := h.trans (j.regsKept_putB b hf)
theorem wr {off : Nat} {v : BitVec 32} (h : k.regsKept j l) (hf : off ∈ l) : k.regsKept (j.wr off v) l := h.trans (j.regsKept_wr v hf)
theorem bump {off n : Nat} (h : k.regsKept j l) (hf : off ∈ l) : k.regsKept (j.bump off n) l := h.trans (j.regsKept_bump n hf)
theorem put48 {off : Nat} {v : Word48} (h : k.regsKept j l) (hf : off ∈ l) (hf' : off + 4 ∈ l) : k.regsKept (j.put48 off v) l :=
  h.trans fun _ ho => j.rd_put48_ne v (fun e => ho (e ▸ hf)) fun e => ho (e ▸ hf')
theorem post {e : Ev} {c : Nat} {v : List Nat} (h : k.regsKept j l) (hl : axisRegs ⊆ l) : k.regsKept (j.post e c v) l :=
  h.trans ((j.post_regsKept e c v).mono hl)
/-- An event of class 0 changes no register. -/
theorem post_zero {e : Ev} {v : List Nat} (h : k.regsKept j l) : k.regsKept (j.post e 0 v) l := by
  rw [Stake.post_zero]
  exact h.of_eq rfl rfl
theorem ite {p : Prop} [Decidable p] (h : k.regsKept j l) (h' : k.regsKept i l) : k.regsKept (if p then j else i) l :=
  Stake.regsKept_ite h h'
end Stake.regsKept

/-! The tick counter's wrap (R42) and the actions NONE, PLAIT_IRQ, SNAPSHOT, ARM, DISARM (R67). -/

theorem Stake.fld_post_zero (k : Stake) (e : Ev) (v : List Nat) (f : Fld) : (k.post e 0 v).fld f = k.fld f := by
  rw [Stake.post_zero]
  rfl

/-- The registers and the record of a wrap that is reported (R42). -/
theorem wrapReported_of (k : Stake) (b : Bool) :
    let c := k.fld Reg.ANG_TICK_STATUS_WRAP_COUNT
    let q := (((k.onAng fun a => { a with wrapPend := false }).putB Reg.ANG_TICK_STATUS_WRAP true).put Reg.ANG_TICK_STATUS_WRAP_COUNT
      (min 255 (c + 1))).putB Reg.ANG_TICK_STATUS_WRAP_SAT b
    let j := q.post .angTickWrap 0
    j.ang.wrapPend = false ∧ j.flag Reg.ANG_TICK_STATUS_WRAP = true ∧ j.fld Reg.ANG_TICK_STATUS_WRAP_COUNT = min 255 (c + 1) ∧
      k.posted j .angTickWrap 0 [] ∧ k.regsKept j [Reg.ANG_TICK_STATUS] := by
  intro c q j
  refine ⟨by simp [j, q, Stake.onAng], ?_, ?_, Stake.posted_of_eq rfl rfl rfl (q.post_posted _ _ _), ?_⟩
  · rw [Stake.flag, Stake.fld_post_zero, Stake.fld_putB_ne _ _ _ _ (by decide), Stake.fld_put_ne _ _ _ _ (by decide)]
    exact Stake.flag_putB_same _ _ _ (by decide) rfl
  · rw [Stake.fld_post_zero, Stake.fld_putB_ne _ _ _ _ (by decide), Stake.fld_put_same _ _ _ (by decide)]
    exact Nat.mod_eq_of_lt (Nat.lt_succ_of_le (Nat.min_le_left ..))
  · have hm : Reg.ANG_TICK_STATUS ∈ [Reg.ANG_TICK_STATUS] := List.mem_singleton_self _
    exact .post_zero (.putB (.put (.putB (.of_eq .refl rfl rfl) hm) hm) hm)

/-! The carrier that a clock's failure brings back (R189): the angle clocks and what has left stay. -/

/-- A part of the stake that no step of a fold changes. -/
theorem foldl_frame {α β γ : Type} {g : β → γ} {f : β → α → β} (h : ∀ b a, g (f b a) = g b) (l : List α) (b : β) :
    g (l.foldl f b) = g b := by
  induction l generalizing b with
  | nil => rfl
  | cons a l ih => exact (ih _).trans (h b a)

theorem ite_frame {β γ : Type} {g : β → γ} {a b : β} {c : γ} {p : Prop} [Decidable p] (ha : g a = c) (hb : g b = c) :
    g (if p then a else b) = c := by
  split <;> assumption

section
variable (k : Stake)

theorem Stake.dropCommitted_frame {γ : Type} {g : Stake → γ} (h : ∀ k f, g (Stake.onMod k f) = g k) (x : Nat) :
    g (k.dropCommitted x) = g k :=
  (foldl_frame (fun _ _ => h _ _) _ _).trans (h _ _)

theorem Stake.addTriggers_frame {γ : Type} {g : Stake → γ} (h : ∀ k f, g (Stake.onMod k f) = g k) (hb : ∀ k o n, g (Stake.bump k o n) = g k)
    (r a : Word48) (v : Bool) (x : Int) : g (k.addTriggers r a v x) = g k :=
  foldl_frame (fun _ _ => ite_frame rfl (ite_frame (hb ..) (ite_frame rfl (h ..)))) _ _

@[simp] theorem Stake.setEpoch_ang (st : Nat) : (k.setEpoch st).ang = k.ang := by simp [Stake.setEpoch, apply_ite Stake.ang]

theorem Stake.outKept.setEpoch {k j : Stake} {st : Nat} (h : k.outKept j) : k.outKept (j.setEpoch st) := .ite (.post h) (.ite (.post h) h)

@[simp] theorem Stake.restartCarrier_ang (a : Word48) (v : Bool) : (k.restartCarrier a v).ang = k.ang := by
  unfold Stake.restartCarrier
  rw [Stake.addTriggers_frame (g := Stake.ang) _ (fun _ _ => rfl) (fun _ _ _ => Stake.bump_ang ..), apply_ite Stake.ang, Stake.setEpoch_ang, ite_self]
  rfl

theorem Stake.outKept.addTriggers {k j : Stake} {r a : Word48} {v : Bool} {x : Int} (h : k.outKept j) : k.outKept (j.addTriggers r a v x) :=
  h.of_eq (Stake.addTriggers_frame (g := Stake.out) _ (fun _ _ => rfl) (fun _ _ _ => Stake.bump_out ..) ..)

theorem Stake.outKept.restartCarrier {k j : Stake} {a : Word48} {v : Bool} (h : k.outKept j) : k.outKept (j.restartCarrier a v) :=
  .addTriggers (.ite (.setEpoch (.onMod h)) (.onMod h))

theorem Stake.outKept.dropCommitted {k j : Stake} {x : Nat} (h : k.outKept j) : k.outKept (j.dropCommitted x) :=
  h.of_eq (Stake.dropCommitted_frame (g := Stake.out) _ (fun _ _ => rfl) _)

@[simp] theorem Stake.forceCarrier_ang (cls cause : Nat) : (k.forceCarrier cls cause).ang = k.ang := by
  simp [Stake.forceCarrier, Stake.dropCommitted_frame (g := Stake.ang) _ fun _ _ => rfl, Stake.onMod]

theorem Stake.outKept.forceCarrier {k j : Stake} {cls cause : Nat} (h : k.outKept j) : k.outKept (j.forceCarrier cls cause) :=
  .post (.putB (.put (.put (.restartCarrier (.put (.put (.onMod (.foldl (fun _ _ h => .dropCommitted h) _ h))))))))

@[simp] theorem Stake.syncAbort_ang : k.syncAbort.ang = k.ang := by simp [Stake.syncAbort, apply_ite Stake.ang]

theorem Stake.outKept.syncAbort {k j : Stake} (h : k.outKept j) : k.outKept j.syncAbort := .ite h (.forceCarrier h)
end

/-! The clocks. -/

theorem Stake.clock_onClock_same {k : Stake} {c : Nat} (h : c < k.ang.clk.length) (f : Clock → Clock) :
    (k.onClock c f).clock c = f (k.clock c) := nth_updAt_same _ _ _ _ h

/-- A clock that shows anything but its reset is one of the stake's. -/
theorem Stake.clock_lt {k : Stake} {c : Nat} (h : k.clock c ≠ {}) : c < k.ang.clk.length := by
  by_contra hc
  exact h (nth_oob _ _ _ (Nat.le_of_not_lt hc))

theorem Stake.clock_congr {k j : Stake} (h : j.ang = k.ang) (c : Nat) : j.clock c = k.clock c := by rw [Stake.clock, h]; rfl

/-- A silent source's clock is INVALID, with its angle and speed, and the limit is posted (R51). -/
theorem extrapLimit_of {k : Stake} {c cls : Nat} (hv : (k.clock c).valid = true) :
    let q := (k.onClock c fun y => { y with valid := false, next := none }).post .angExtrapLimit cls [c]
    let j := if c = 0 then q.syncAbort else q
    (j.clock c).valid = false ∧ (j.clock c).theta = (k.clock c).theta ∧ (j.clock c).omega = (k.clock c).omega ∧
      k.posted j .angExtrapLimit cls [c] := by
  intro q j
  have hl : c < k.ang.clk.length := Stake.clock_lt fun h => by simp [h] at hv
  have hj : j.clock c = { k.clock c with valid := false, next := none } := by
    rw [Stake.clock_congr (show j.ang = (k.onClock c fun y => { y with valid := false, next := none }).ang by
      simp [j, q, apply_ite Stake.ang]), Stake.clock_onClock_same hl]
  have hq : k.posted q .angExtrapLimit cls [c] := Stake.posted_of_eq rfl rfl rfl (Stake.post_posted _ _ _ _)
  refine ⟨by rw [hj], by rw [hj], by rw [hj], hq.of_prefix (.ite (.syncAbort .refl) .refl)⟩

/-- Settles O7: what reporting a wrap leaves (`wrapReported_of`), and what a silent source does (`extrapLimit_of`). -/
theorem tickWrapAndExtrapolation : Obligations.TickWrapAndExtrapolation := by
  refine ⟨fun s n hp hw => ⟨_, rfl, s.onStake_elsewhere n _, ?_⟩, fun s n c hp _ hv hen hs hm => ⟨_, rfl, s.onStake_elsewhere n _, ?_⟩⟩
  · rw [State.onStake_stake_same hp]
    simp only [hw, Bool.not_true, Bool.false_eq_true, if_false]
    exact wrapReported_of _ _
  · rw [State.onStake_stake_same hp]
    simp only [hv, hen, hs, Nat.not_lt.2 hm, Bool.not_true, Bool.false_or, decide_false, Bool.false_eq_true, if_false]
    exact extrapLimit_of hv

end Sys2Proof.Machine

/-! The scheduler's actions (R67): an action that is due leaves the list of those dispatched and does what its code says. -/
namespace Sys2Proof.Machine
set_option Elab.async false

theorem Stake.takeAct_of_due {k : Stake} {e code : Nat} {a : Act} (h : k.due e code a) :
    k.takeAct e code = some (a, { k with ang := { k.ang with acts := k.ang.acts.erase a } }) := by
  unfold Stake.due at h
  simp only [Stake.takeAct, h]
  rfl

/-- A command that takes the action of an entry with a code, on a stake where one is due. -/
theorem exec_takeAct {s : State} {n e code : Nat} {a : Act} (hp : s.present n = true) (h : (s.stake n).due e code a)
    (f : Act → Stake → Stake) :
    ∃ t, Host.Outcome.next (s.onStake n fun q => match q.takeAct e code with
        | none => q
        | some (a, q) => f a q) = (.next t : Host.Outcome State Fault Refusal) ∧ s.elsewhere t n ∧
      t.stake n = f a { s.stake n with ang := { (s.stake n).ang with acts := (s.stake n).ang.acts.erase a } } := by
  refine ⟨_, rfl, s.onStake_elsewhere n _, ?_⟩
  rw [State.onStake_stake_same hp, Stake.takeAct_of_due h]

/-- Settles O13: the five actions, each by what `exec_takeAct` gives. -/
theorem schedulerActions : Obligations.SchedulerActions := by
  intro s n e a hp
  refine ⟨fun h => exec_takeAct hp h fun _ q => q, fun h => ?_, fun h => ?_,
    fun h => exec_takeAct hp h fun a q => q.pendEntry (.arm a.arg), fun h => exec_takeAct hp h fun a q => q.pendEntry (.disarm a.arg)⟩
  · obtain ⟨t, ht, he, hs⟩ := exec_takeAct hp h fun a q => q.plaitIrq (a.arg % 16)
    exact ⟨t, ht, he, hs⟩
  · obtain ⟨t, ht, he, hs⟩ := exec_takeAct hp h fun a q =>
      let c := q.clock a.src
      q.offer { stream := a.arg % 16, source := 17, content := 5,
                words := [a.at_.tick.toNat, c.theta.toNat, (w48 c.omega).toNat, a.at_.fine % 32 + (if c.rev then 256 else 0)] }
    exact ⟨t, ht, he, _, hs, rfl, rfl⟩

end Sys2Proof.Machine

/-! What an angle clock does with a measurement (R48, R49, R52). -/
namespace Sys2Proof.Machine
set_option Elab.async false

section
variable (k : Stake) (c : Nat) (m : Meas)

@[simp] theorem Stake.injectionRelease_ang : k.injectionRelease.ang = k.ang := by
  unfold Stake.injectionRelease
  split
  · rfl
  · exact ite_frame rfl rfl

/-- The error of a measurement against the clock's angle at the instant it speaks of (R49). -/
def Stake.measErr : Int := wrap48 (m.m.toNat - (((k.clock c).theta.toNat : Int) - (k.clock c).omega * (k.ang.tick - m.tm).toInt))

/-- What a VALID clock takes over for a measurement: a slew, or a step where the error is greater than `SLEW_LIMIT` (R49). -/
def Stake.trackNext : ClkNext :=
  if (k.measErr c m).natAbs < k.fld (Reg.ANG_CLK_LIMITS_SLEW_LIMIT c) * 4294967296 then ⟨m.speed, m.rev, none, none, some (k.measErr c m)⟩
  else ⟨m.speed, m.rev, none, some (k.measErr c m), none⟩

theorem Stake.clkMeasure_ang (h : (k.ang.tick - m.tm).toInt ≤ 4096) :
    (k.clkMeasure c m).ang = ((if (k.clock c).valid then k.clkTrack c m else k.onClock c fun y =>
      { y with next := some ⟨m.speed, m.rev, some m.m, none, none⟩ }).onClock c fun y => { y with lastMeas := k.now }).ang := by
  have hnow : (k.clkTrack c m).now = k.now := ite_frame rfl rfl
  simp only [Stake.clkMeasure, Int.not_lt.2 h, if_false, apply_ite Stake.ang, Stake.injectionRelease_ang, Stake.syncAbort_ang, ite_self]
  split
  · rw [hnow]
  · rfl

theorem Stake.clkTrack_eq : k.clkTrack c m = k.onClock c fun y => { y with next := some (k.trackNext c m) } := by
  unfold Stake.clkTrack Stake.trackNext
  split
  · next h => rw [if_pos (by exact h)]; rfl
  · next h => rw [if_neg (by exact h)]; rfl

variable {k c}

/-- What is ready for the next tick, and when, after a measurement that is not stale. -/
theorem Stake.clkMeasure_clock (hl : c < k.ang.clk.length) (h : (k.ang.tick - m.tm).toInt ≤ 4096) :
    (k.clkMeasure c m).clock c = { k.clock c with
      lastMeas := k.now
      next := some (if (k.clock c).valid then k.trackNext c m else ⟨m.speed, m.rev, some m.m, none, none⟩) } := by
  have hl' : ∀ f, c < (k.onClock c f).ang.clk.length := fun f => by simpa [Stake.onClock, updAt] using hl
  rw [Stake.clock_congr (k.clkMeasure_ang c m h)]
  by_cases hv : (k.clock c).valid = true
  · rw [if_pos hv, if_pos hv, Stake.clkTrack_eq, Stake.clock_onClock_same (hl' _), Stake.clock_onClock_same hl]
  · rw [if_neg hv, if_neg hv, Stake.clock_onClock_same (hl' _), Stake.clock_onClock_same hl]

end

/-- Settles O8: the oldest measurement leaves the mail, and `clkMeasure_clock` says what becomes of it. -/
theorem measurementTaken : Obligations.MeasurementTaken := by
  intro s n c m rest hp _ hm hen
  refine ⟨_, rfl, s.onStake_elsewhere n _, ?_⟩
  rw [State.onStake_stake_same hp]
  generalize s.stake n = k at hm hen
  have hl : c < k.ang.clk.length := Stake.clock_lt fun h => by simp [h] at hm
  let q := k.onClock c fun y => { y with mail := rest }
  have hq : q.clock c = { k.clock c with mail := rest } := Stake.clock_onClock_same hl _
  have hlq : c < q.ang.clk.length := by simpa [q, Stake.onClock, updAt] using hl
  have hf : q.flag (Reg.ANG_CLK_CTRL_EN c) = true := hen
  have he : q.measErr c m = k.measErr c m := by rw [Stake.measErr, hq]; rfl
  have ht : q.trackNext c m = k.trackNext c m := by rw [Stake.trackNext, he]; rfl
  simp only [hm]
  rw [if_pos hf]
  by_cases hs : 4096 < (k.ang.tick - m.tm).toInt
  · have hb : q.clkMeasure c m = q.bump (Reg.ANG_CLK_STALE_CNT c) := if_pos hs
    have hc : (q.bump (Reg.ANG_CLK_STALE_CNT c)).clock c = q.clock c := Stake.clock_congr (Stake.bump_ang ..) _
    rw [hb, hc, hq, if_pos hs]
    exact ⟨rfl, rfl, Stake.rd_bump_same ..⟩
  · rw [q.clkMeasure_clock m hlq (Int.not_lt.1 hs), hq, ht, if_neg hs]
    refine ⟨rfl, ?_⟩
    by_cases hv : (k.clock c).valid = true
    · rw [if_neg (by simp [hv])]
      simp only [hv, if_true]
      change if (k.measErr c m).natAbs < _ then _ else _
      unfold Stake.trackNext
      split <;> exact ⟨rfl, rfl⟩
    · rw [Bool.not_eq_true] at hv
      rw [if_pos hv]
      simp [hv]
      rfl

end Sys2Proof.Machine

/-! Scheduler entries that fall due (R54 to R58, R63). -/
namespace Sys2Proof.Machine
set_option Elab.async false

/-- A stake that differs from `k` in what firing does not look at fires as `k` does. -/
theorem Stake.fired.of_base {k q j : Stake} {e : Nat} {i : Instant} {l : List Nat} (h : q.fired j e i [])
    (hang : q.ang = { k.ang with bndDone := q.ang.bndDone }) (hr : k.regsKept q l) (hd : Reg.ANG_DEFER_CNT ∉ l)
    (hq : q = { k with ang := q.ang, regs := q.regs, out := q.out }) : k.fired j e i l := by
  have he : ∀ m, q.entry m = k.entry m := fun m => by rw [Stake.entry, hang]; rfl
  have h1 : q.ang.dispatched = k.ang.dispatched := by rw [hang]
  have h2 : q.ang.carriedPrev = k.ang.carriedPrev := by rw [hang]
  have h3 : q.ang.acts = k.ang.acts := by rw [hang]
  have h4 : q.ang.carried = k.ang.carried := by rw [hang]
  have h5 : q.ang.clk = k.ang.clk := by rw [hang]
  have h6 : q.ang.tick = k.ang.tick := by rw [hang]
  unfold Stake.fired at h ⊢
  rw [he e, h1, h2, h3, h4, h5, h6, hr _ hd] at h
  obtain ⟨hs, hen, hact, hothers, hclk, htick, hregs, hj⟩ := h
  refine ⟨hs, hen, hact, fun m hm => (hothers m hm).trans (he m), hclk, htick, fun o ho => ?_, ?_⟩
  · simp only [List.mem_cons, not_or] at ho
    rw [hregs o (by simp [ho.1, ho.2.1]), hr o ho.2.2]
  · rw [hj, hq]

/-- Moving a fired entry's next instant on leaves what firing says. -/
theorem Stake.fired.onEntry {k j : Stake} {e : Nat} {i : Instant} {l : List Nat} (h : k.fired j e i l) (f : Entry → Entry)
    (hf : ∀ x, (f x).spent = x.spent ∧ (f x).ctrl = x.ctrl) : k.fired (j.onEntry e f) e i l := by
  obtain ⟨hs, hen, hact, hothers, hclk, htick, hregs, hj⟩ := h
  have he : ((j.onEntry e f).entry e).spent = (j.entry e).spent ∧ ((j.onEntry e f).entry e).en = (j.entry e).en := by
    by_cases hl : e < j.ang.ent.length
    · rw [entry_onEntry_same j e f hl]
      exact ⟨(hf _).1, by rw [Entry.en, (hf _).2]; rfl⟩
    · have h1 : (j.onEntry e f).entry e = j.entry e := by
        rw [Stake.entry, nth_oob _ _ _ (by simpa [Stake.onEntry, Stake.onAng, updAt] using hl), Stake.entry,
          nth_oob _ _ _ (Nat.le_of_not_lt hl)]
      rw [h1]
      exact ⟨rfl, rfl⟩
  exact ⟨he.1.trans hs, he.2.trans hen, hact, fun m hm => (entry_onEntry_ne j e m f hm).trans (hothers m hm), hclk, htick, hregs, by
    rw [hj]; rfl⟩

theorem entryLive_en {k : Stake} {e t : Nat} (h : k.entryLive e t = true) : (k.entry e).en = true := by
  simp only [Stake.entryLive, Bool.and_eq_true] at h
  exact h.1.2

/-- An entry that is live fires with its effect instant. -/
theorem fire_fired_of_live {k : Stake} {e t : Nat} (h : k.entryLive e t = true) (i : Instant) (rev : Bool) :
    k.fired (k.fire e i rev) e i [] := (fire_fired k e i rev (entry_lt h) (entryLive_en h)).1

theorem dispatch_ent (k : Stake) (a : Act) : (k.dispatch a).ang.ent = k.ang.ent := by
  unfold Stake.dispatch
  split
  · rfl
  · rw [Stake.bump_ang]; rfl

theorem entry_congr {k j : Stake} (h : j.ang.ent = k.ang.ent) (e : Nat) : j.entry e = k.entry e := by rw [Stake.entry, h]; rfl

/-- Firing keeps an entry's next instant and interval. -/
theorem fire_entry {k : Stake} {e : Nat} (he : e < k.ang.ent.length) (i : Instant) (rev : Bool) :
    e < (k.fire e i rev).ang.ent.length ∧ ((k.fire e i rev).entry e).next = (k.entry e).next ∧
      ((k.fire e i rev).entry e).ivl = (k.entry e).ivl := by
  have hl : ∀ f, e < (k.onEntry e f).ang.ent.length := fun f => by simpa [Stake.onEntry, Stake.onAng, updAt] using he
  have hd : ∀ q a, (Stake.dispatch (Stake.onAng q fun g => { g with firedNow := g.firedNow ++ [e] }) a).ang.ent = q.ang.ent :=
    fun _ _ => dispatch_ent _ _
  unfold Stake.fire
  rw [entry_congr (hd _ _), hd]
  split
  · refine ⟨?_, ?_⟩
    · simpa [Stake.entEn, Stake.onEntry, Stake.onAng, updAt] using he
    · change ((Stake.onEntry _ e _).entry e).next = _ ∧ ((Stake.onEntry _ e _).entry e).ivl = _
      rw [entry_onEntry_same _ _ _ (hl _), entry_onEntry_same _ _ _ he]
      exact ⟨rfl, rfl⟩
  · rw [entry_onEntry_same _ _ _ he]
    exact ⟨hl _, rfl, rfl⟩

/-- A late firing (R55): at once, with effect four ticks on, counted and posted. -/
theorem fireLate_fired {k : Stake} {e t : Nat} (h : k.entryLive e t = true) :
    k.fired (k.fireLate e) e ⟨k.ang.tick + 4, (k.entry e).fine⟩ [Reg.ANG_LATE_CNT] ∧
      (k.fireLate e).rd Reg.ANG_LATE_CNT = satAdd 16 (k.rd Reg.ANG_LATE_CNT) 1 ∧ k.posted (k.fireLate e) .angTargetPast 0 [e] := by
  let q := (k.bump Reg.ANG_LATE_CNT).post .angTargetPast 0 [e]
  have hang : q.ang = k.ang := by simp [q]
  have hr : k.regsKept q [Reg.ANG_LATE_CNT] := .post_zero (.bump .refl (List.mem_singleton_self _))
  have hq : q = { k with ang := q.ang, regs := q.regs, out := q.out } := by
    simp only [q, Stake.post_zero]
    rfl
  have hf : q.fired (q.fire e ⟨k.ang.tick + 4, (k.entry e).fine⟩ false) e ⟨k.ang.tick + 4, (k.entry e).fine⟩ [] := by
    refine (fire_fired q e _ _ ?_ ?_).1
    · rw [hang]; exact entry_lt h
    · rw [Stake.entry, hang]; exact entryLive_en h
  have hout : (q.fire e ⟨k.ang.tick + 4, (k.entry e).fine⟩ false).out = q.out := by
    unfold Stake.fire Stake.dispatch
    refine ite_frame (g := Stake.out) ?_ ((Stake.bump_out ..).trans ?_)
    all_goals exact ite_frame (g := Stake.out) rfl rfl
  refine ⟨hf.of_base (by rw [hang]) hr (by decide) hq, ?_, ?_⟩
  · obtain ⟨_, _, _, _, _, _, hregs, _⟩ := hf
    have h1 : Reg.ANG_LATE_CNT ∉ [Reg.ANG_DEFER_CNT, Reg.ANG_ENT_CTRL e] := by
      simp [Reg.ANG_LATE_CNT, Reg.ANG_DEFER_CNT, Reg.ANG_ENT_CTRL]; omega
    have h2 : q.rd Reg.ANG_LATE_CNT = (k.bump Reg.ANG_LATE_CNT).rd Reg.ANG_LATE_CNT := by
      simp only [q, Stake.post_zero]
      rfl
    exact (hregs _ h1).trans (h2.trans (Stake.rd_bump_same ..))
  · have hp : k.posted q .angTargetPast 0 [e] :=
      Stake.posted_of_eq (Stake.bump_out ..) (Stake.bump_id ..) (by rw [Stake.bump_ang]) (Stake.post_posted _ _ _ _)
    exact hp.of_prefix (.of_eq .refl hout)

end Sys2Proof.Machine

namespace Sys2Proof.Machine
set_option Elab.async false

/-- The boundary an entry has fallen due at is noted before it fires. -/
theorem boundaryFire_fired {k : Stake} {e : Nat} (b : Word48) (h : k.entryLive e 3 = true) (i : Instant) :
    let j := (k.onAng fun a => { a with bndDone := (e, b) :: a.bndDone }).fire e i false
    k.fired j e i [] ∧ (e, b) ∈ j.ang.bndDone := by
  intro j
  let q := k.onAng fun a => { a with bndDone := (e, b) :: a.bndDone }
  have hf : q.fired j e i [] := fire_fired_of_live (t := 3) (k := q) h _ _
  have hb : j.ang.bndDone = q.ang.bndDone := by
    refine ite_frame (g := fun k : Stake => k.ang.bndDone) ?_ ?_
    · exact ite_frame (g := fun k : Stake => k.ang.bndDone) rfl rfl
    · rw [Stake.bump_ang]
      exact ite_frame (g := fun k : Stake => k.ang.bndDone) rfl rfl
  exact ⟨hf.of_base rfl (.of_eq .refl rfl rfl) (by simp) rfl, by rw [hb]; exact List.mem_cons_self⟩

/-- Settles O9: each kind of entry, from what `fire` and `fireLate` are known to do. -/
theorem entriesFallDue : Obligations.EntriesFallDue := by
  refine ⟨fun s n e u rev hp hlive hsp hv hc => ?_, fun s n e hp hlive hnow => ⟨fun hlate => ?_, fun hlate ht => ?_⟩,
    fun s n e hp hlive hnow => ⟨fun hlate => ?_, fun hlate ht => ?_⟩, fun s n e hp hlive hnow hrun hno hdone hlt ht => ?_,
    fun s n e b hp hlive hnow hb hlater ht => ?_⟩
  all_goals
    refine ⟨_, rfl, s.onStake_elsewhere n _, ?_⟩
    rw [State.onStake_stake_same hp]
  · simp only [hlive, hsp, hv, hc, Bool.not_true, Bool.or_false, Bool.false_eq_true, if_false]
    obtain ⟨hf, hs⟩ := fire_fired (s.stake n) e (crossInstant (s.stake n).ang.tick ((s.stake n).clock ((s.stake n).entry e).src).stepNow u
      ((s.stake n).clock ((s.stake n).entry e).src).stepL) rev (entry_lt hlive) (entryLive_en hlive)
    exact ⟨hs, hf⟩
  · simp only [hlive, hnow, hlate, Bool.not_true, Bool.or_false, Bool.false_eq_true, if_false, if_true]
    exact fireLate_fired hlive
  · simp only [hlive, hnow, hlate, ht, Bool.not_true, Bool.or_false, Bool.false_eq_true, if_false, if_true]
    exact fire_fired_of_live hlive _ _
  · simp only [hlive, hnow, hlate, Bool.not_true, Bool.or_false, Bool.false_eq_true, if_false, if_true]
    obtain ⟨hf, hr, hp⟩ := fireLate_fired hlive
    exact ⟨hf.onEntry _ fun _ => ⟨rfl, rfl⟩, (Stake.rd_congr rfl rfl _).trans hr, hp⟩
  · simp only [hlive, hnow, hlate, ht, Bool.not_true, Bool.or_false, Bool.false_eq_true, if_false, if_true]
    obtain ⟨hl, hx, hi⟩ := fire_entry (entry_lt hlive) ⟨((s.stake n).entry e).next, ((s.stake n).entry e).fine⟩ false
    refine ⟨(fire_fired_of_live hlive _ _).onEntry _ fun _ => ⟨rfl, rfl⟩, ?_⟩
    rw [entry_onEntry_same _ _ _ hl, hx, hi]
  · have hahead : (s.stake n).boundaryAhead = some (s.stake n).modu.nextB := if_pos hrun
    have hany : ((s.stake n).boundaryAhead.any fun b => laterTick b (s.stake n).ang.tick &&
        (s.stake n).ang.tick + 4 = b + w48 (((s.stake n).entry e).tgt.toNat % 4294967296 : Nat)) = false := by
      rw [hahead, Option.any_some, Bool.and_eq_false_iff, decide_eq_false_iff_not, ← Bool.not_eq_true]
      exact Decidable.not_and_iff_or_not.1 hno
    have hgo : (!(s.stake n).modu.run || decide ((s.stake n).ang.period.2 = 0) ||
        (s.stake n).ang.bndDone.contains (e, (s.stake n).ang.period.1)) = false := by
      rw [hrun, hdone, decide_eq_false (Nat.zero_lt_of_lt hlt).ne']
      rfl
    simp only [hlive, hnow, Bool.not_true, Bool.or_false, Bool.false_eq_true, if_false]
    rw [if_neg (ne_true_of_eq_false hany), if_neg (ne_true_of_eq_false hgo), if_neg (Nat.not_le.2 hlt), if_pos ht]
    exact boundaryFire_fired _ hlive _
  · have hany : ((s.stake n).boundaryAhead.any fun b => laterTick b (s.stake n).ang.tick &&
        (s.stake n).ang.tick + 4 = b + w48 (((s.stake n).entry e).tgt.toNat % 4294967296 : Nat)) = true := by
      rw [hb, Option.any_some, hlater, Bool.true_and, decide_eq_true_iff]
      exact ht
    simp only [hlive, hnow, Bool.not_true, Bool.or_false, Bool.false_eq_true, if_false]
    rw [if_pos (by exact hany), ← ht]
    exact fire_fired_of_live hlive _ _

end Sys2Proof.Machine

/-! The tick that also carries out a TUNE write: the clock it disables is INVALID when the tick has passed. -/
namespace Sys2Proof.Machine
set_option Elab.async false

/-- READY, the main clock of stake 0 VALID, and a TUNE descriptor under way whose next write clears `ANG_CLK0_CTRL.EN` of stake 0. -/
def tunedClock : State :=
  (((State.reset.onPkg fun p => p.put Reg.HIF_PKG_ALIVE_ALIVE 255).onStake 0 fun k => k.onClock 0 fun c => { c with valid := true }).onBoot
    fun b => { b with phase := .ready }).onHost fun h =>
      { h with tuneRun := [{ ring := 1, cid := 7, op := 0x10, target := 0, writes := [(Reg.ANG_CLK_CTRL 0, 0x00060B00)], at_ := 0 }] }

theorem tunedClock_invalid : ((tunedClock.tick.stake 0).clock 0).valid = false := by decide +kernel

theorem step_of_pending_nil {s : State} (h : s.pending = []) : step s = .next s.tick := by rw [step, h]

/-- Refutes O6: a tick also carries out the writes of TUNE descriptors (R357), and one that disables the clock makes it INVALID (R51). -/
theorem not_clockAdvances : ¬ Obligations.ClockAdvances := by
  intro h
  obtain ⟨t, ht, _, _, _, _, hv, _⟩ := h tunedClock 0 0 rfl (by decide +kernel) (by decide +kernel) (by decide +kernel) (by decide +kernel)
    (by decide) (by decide +kernel) (by decide +kernel)
  rw [step_of_pending_nil rfl] at ht
  injection ht with ht
  rw [← ht, tunedClock_invalid] at hv
  exact absurd hv (by decide)

end Sys2Proof.Machine

/-! A CAPTURE action (R77, R80): the groups of its mask, each by itself. -/
namespace Sys2Proof.Machine
set_option Elab.async false

/-- The stake differs only in what a capture of one group does not look at for another: all that counts is here, beside the groups. -/
def Stake.sameClocking (k j : Stake) : Prop :=
  j.act = k.act ∧ j.id = k.id ∧ j.ang = k.ang ∧ j.now = k.now ∧ j.sns = { k.sns with groups := j.sns.groups }

section
variable {k j : Stake}

theorem Stake.sameClocking.refl : k.sameClocking k := ⟨rfl, rfl, rfl, rfl, rfl⟩

theorem Stake.sameClocking.trans {i : Stake} (h : k.sameClocking j) (h' : j.sameClocking i) : k.sameClocking i := by
  obtain ⟨ha, hi, hg, hn, hs⟩ := h
  obtain ⟨ha', hi', hg', hn', hs'⟩ := h'
  exact ⟨ha'.trans ha, hi'.trans hi, hg'.trans hg, hn'.trans hn, by rw [hs', hs]⟩

/-- One group's capture leaves the clocking and the other groups. -/
theorem Stake.captureGroup_others (k : Stake) (g : Nat) (t : Word48) :
    k.sameClocking (k.captureGroup g t) ∧ ∀ h, h ≠ g → (k.captureGroup g t).sns.groups[h]? = k.sns.groups[h]? := by
  unfold Stake.captureGroup
  split
  · exact ⟨.refl, fun _ _ => rfl⟩
  · dsimp only
    split
    · exact ⟨.refl, fun _ _ => rfl⟩
    · split
      · exact ⟨⟨by simp, by simp, by simp, by simp, by simp⟩, fun _ _ => by simp⟩
      · exact ⟨⟨rfl, rfl, rfl, rfl, rfl⟩, fun h hh => by simp [Stake.onGroup, Stake.onSns, updAt, Ne.symm hh]⟩

/-- The capture that a group without one in flight starts on the clock of a channel (R77). -/
def Stake.firstCapture (k : Stake) (g c seq : Nat) (t : Word48) : Capture :=
  let d := k.mdiv (k.mclkOf c)
  let ct := centreOf t d (k.inForce (Reg.SNS_MCLK_PHASE (k.mclkOf c)))
  let r := k.inForce (Reg.SNS_GRP_OSR g)
  ⟨ct, seq, (ct - BitVec.ofNat 48 (r * 3 / 2 * d + k.inForce (Reg.SNS_GRP_SETTLE g)), ct + BitVec.ofNat 48 ((3 * r + 1) / 2 * d)), false,
    (k.clock 1).theta⟩

theorem Stake.captureGroup_same {g c : Nat} {l : List Nat} {gr : SnsGroup} {t : Word48} (hg : k.sns.groups[g]? = some gr)
    (hf : gr.inFlight = []) (hc : k.groupChans g = c :: l) (he : k.hasEdge (k.mclkOf c) t = true) :
    (k.captureGroup g t).sns.groups[g]? =
      some { gr with inFlight := [k.firstCapture g c gr.nextSeq t], nextSeq := (gr.nextSeq + 1) % 65536 } := by
  have hgr : k.group g = gr := by simp [Stake.group, nth, List.getD, hg]
  simp only [Stake.captureGroup, hc, List.filter_cons, he, if_true, hgr, hf, List.any_nil, List.filter_nil, List.length_nil]
  simp [Stake.onGroup, Stake.onSns, updAt, hg, hf, Stake.firstCapture]

/-- The captures of a mask's groups, one after another. -/
def Stake.captureAll (k : Stake) (l : List Nat) (mask : Nat) (t : Word48) : Stake :=
  l.foldl (fun q g => if mask.testBit g then q.captureGroup g t else q) k

theorem Stake.captureAll_others (l : List Nat) (mask : Nat) (t : Word48) (k : Stake) :
    k.sameClocking (k.captureAll l mask t) ∧
      ∀ g, mask.testBit g = false ∨ g ∉ l → (k.captureAll l mask t).sns.groups[g]? = k.sns.groups[g]? := by
  induction l generalizing k with
  | nil => exact ⟨.refl, fun _ _ => rfl⟩
  | cons h l ih =>
    obtain ⟨hs, hg⟩ := ih (if mask.testBit h then k.captureGroup h t else k)
    obtain ⟨hs', hg'⟩ := k.captureGroup_others h t
    refine ⟨Stake.sameClocking.trans ?_ hs, fun g hm => (hg g ?_).trans ?_⟩
    · split
      · exact hs'
      · exact .refl
    · exact hm.imp_right fun hm hl => hm (List.mem_cons_of_mem _ hl)
    · split
      · next hb =>
        refine hg' g fun e => ?_
        rcases hm with hm | hm
        · rw [e, hb] at hm
          exact absurd hm (by decide)
        · exact hm (e ▸ List.mem_cons_self)
      · rfl

theorem Stake.sameClocking.firstCapture (h : k.sameClocking j) (g c seq : Nat) (t : Word48) :
    j.firstCapture g c seq t = k.firstCapture g c seq t := by
  obtain ⟨ha, hi, hg, _, _⟩ := h
  have hf : ∀ f, j.inForce f = k.inForce f := Stake.inForce_congr ha hi
  simp only [Stake.firstCapture, Stake.mdiv, Stake.mclkOf, hf, Stake.clock, hg]

theorem Stake.sameClocking.groupChans (h : k.sameClocking j) (g : Nat) : j.groupChans g = k.groupChans g := by
  obtain ⟨ha, hi, _⟩ := h
  simp only [Stake.groupChans, Stake.inForce_congr ha hi, Stake.inForceB_congr ha hi]

theorem Stake.sameClocking.hasEdge (h : k.sameClocking j) (m : Nat) (t : Word48) : j.hasEdge m t = k.hasEdge m t := by
  obtain ⟨ha, hi, hg, hn, hs⟩ := h
  have hm : j.sns.mclkFrom = k.sns.mclkFrom := by rw [hs]
  simp only [Stake.hasEdge, Stake.edgeOf, Stake.timeOf, Stake.mdiv, Stake.inForce_congr ha hi, Stake.inForceB_congr ha hi, hg, hn, hm]
  rfl

theorem Stake.sameClocking.mclkOf (h : k.sameClocking j) (c : Nat) : j.mclkOf c = k.mclkOf c := by
  obtain ⟨ha, hi, _⟩ := h
  exact Stake.inForce_congr ha hi _

/-- A group of the mask that may start does, whatever the groups before and after it do. -/
theorem Stake.captureAll_same {l : List Nat} (hn : l.Nodup) {mask : Nat} {t : Word48} {g c : Nat} {r : List Nat} {gr : SnsGroup} (hl : g ∈ l)
    (hb : mask.testBit g = true) (hg : k.sns.groups[g]? = some gr) (hf : gr.inFlight = []) (hc : k.groupChans g = c :: r)
    (he : k.hasEdge (k.mclkOf c) t = true) :
    (k.captureAll l mask t).sns.groups[g]? =
      some { gr with inFlight := [k.firstCapture g c gr.nextSeq t], nextSeq := (gr.nextSeq + 1) % 65536 } := by
  obtain ⟨l1, l2, rfl⟩ := List.append_of_mem hl
  obtain ⟨_, hn2, hd⟩ := List.nodup_append.1 hn
  have h1 : g ∉ l1 := fun h => hd g h g List.mem_cons_self rfl
  have h2 : g ∉ l2 := (List.nodup_cons.1 hn2).1
  have hsplit : k.captureAll (l1 ++ g :: l2) mask t = ((k.captureAll l1 mask t).captureGroup g t).captureAll l2 mask t := by
    simp only [Stake.captureAll, List.foldl_append, List.foldl_cons, hb, if_true]
  obtain ⟨hs, ho⟩ := Stake.captureAll_others l1 mask t k
  rw [hsplit, (Stake.captureAll_others l2 mask t _).2 g (.inr h2),
    Stake.captureGroup_same ((ho g (.inr h1)).trans hg) hf ((hs.groupChans g).trans hc) (by rw [hs.hasEdge, hs.mclkOf]; exact he),
    hs.firstCapture]

end

/-- Settles O14: the action leaves, `captureAll` starts the groups that may start, and the latch of the pass touches no group. -/
theorem captureStarts : Obligations.CaptureStarts := by
  intro s n e a hp hd hen
  obtain ⟨t, ht, he, hs⟩ := exec_takeAct hp hd fun a q => q.capture (a.arg % 16) a.at_.tick
  refine ⟨t, ht, he, ?_⟩
  rw [hs]
  set k : Stake := { s.stake n with ang := { (s.stake n).ang with acts := (s.stake n).ang.acts.erase a } } with hk
  have hcap : (k.capture (a.arg % 16) a.at_.tick).sns = (k.captureAll [0, 1, 2, 3] (a.arg % 16) a.at_.tick).sns ∧
      (k.capture (a.arg % 16) a.at_.tick).ang = (k.captureAll [0, 1, 2, 3] (a.arg % 16) a.at_.tick).ang := by
    have hf : k.flag Reg.SNS_CTRL_EN = true := hen
    simp only [Stake.capture, hf, if_true]
    exact ⟨ite_frame (g := Stake.sns) rfl rfl, ite_frame (g := Stake.ang) rfl rfl⟩
  obtain ⟨⟨_, _, hang, _⟩, hothers⟩ := Stake.captureAll_others [0, 1, 2, 3] (a.arg % 16) a.at_.tick k
  rw [hcap.1, hcap.2]
  refine ⟨by rw [hang], fun g gr c l hg hgr hf hc hb hedge => ?_, fun g hg => hothers g (hg.imp_right fun h hm => ?_)⟩
  · exact Stake.captureAll_same (k := k) (by decide) (by simp; omega) hb hgr hf hc hedge
  · simp at hm
    omega

end Sys2Proof.Machine

/-! Which parts of a stake an operation changes: one statement per operation, from which that of each part follows. -/
namespace Sys2Proof.Machine
set_option Elab.async false

/-- The parts of a stake. -/
inductive StakePart where
  | id | ringN | regs | act | tbl | sram | lowStage | snap | now | fresh | out | done | offers | str | bounds | tuneUsed | wal | ang | sns | pos | fe | modu | leg | prt | pair | vote | thm | stopped
deriving DecidableEq

/-- What a part holds. -/
def StakePart.type : StakePart → Type
  | .id => Nat
  | .ringN => Nat
  | .regs => Store
  | .act => Store
  | .tbl => Store
  | .sram => Store
  | .lowStage => List (Nat × BitVec 32)
  | .snap => List (Nat × BitVec 32)
  | .now => Nat
  | .fresh => Nat
  | .out => List EvRec
  | .done => List Completion
  | .offers => List Offer
  | .str => List Strm
  | .bounds => Nat
  | .tuneUsed => Nat
  | .wal => WalState
  | .ang => AngState
  | .sns => SnsState
  | .pos => PosState
  | .fe => FldState
  | .modu => ModState
  | .leg => LegState
  | .prt => PrtState
  | .pair => PairState
  | .vote => VoteState
  | .thm => List ThmSt
  | .stopped => Bool

def Stake.get (k : Stake) : (f : StakePart) → f.type
  | .id => k.id
  | .ringN => k.ringN
  | .regs => k.regs
  | .act => k.act
  | .tbl => k.tbl
  | .sram => k.sram
  | .lowStage => k.lowStage
  | .snap => k.snap
  | .now => k.now
  | .fresh => k.fresh
  | .out => k.out
  | .done => k.done
  | .offers => k.offers
  | .str => k.str
  | .bounds => k.bounds
  | .tuneUsed => k.tuneUsed
  | .wal => k.wal
  | .ang => k.ang
  | .sns => k.sns
  | .pos => k.pos
  | .fe => k.fe
  | .modu => k.modu
  | .leg => k.leg
  | .prt => k.prt
  | .pair => k.pair
  | .vote => k.vote
  | .thm => k.thm
  | .stopped => k.stopped

def Stake.set (k : Stake) : (f : StakePart) → f.type → Stake
  | .id, x => { k with id := x }
  | .ringN, x => { k with ringN := x }
  | .regs, x => { k with regs := x }
  | .act, x => { k with act := x }
  | .tbl, x => { k with tbl := x }
  | .sram, x => { k with sram := x }
  | .lowStage, x => { k with lowStage := x }
  | .snap, x => { k with snap := x }
  | .now, x => { k with now := x }
  | .fresh, x => { k with fresh := x }
  | .out, x => { k with out := x }
  | .done, x => { k with done := x }
  | .offers, x => { k with offers := x }
  | .str, x => { k with str := x }
  | .bounds, x => { k with bounds := x }
  | .tuneUsed, x => { k with tuneUsed := x }
  | .wal, x => { k with wal := x }
  | .ang, x => { k with ang := x }
  | .sns, x => { k with sns := x }
  | .pos, x => { k with pos := x }
  | .fe, x => { k with fe := x }
  | .modu, x => { k with modu := x }
  | .leg, x => { k with leg := x }
  | .prt, x => { k with prt := x }
  | .pair, x => { k with pair := x }
  | .vote, x => { k with vote := x }
  | .thm, x => { k with thm := x }
  | .stopped, x => { k with stopped := x }

theorem Stake.get_set_ne (k : Stake) {f g : StakePart} (x : f.type) (h : g ≠ f) : (k.set f x).get g = k.get g := by
  cases f <;> cases g <;> first | rfl | contradiction

theorem Stake.get_set_same (k : Stake) (f : StakePart) (x : f.type) : (k.set f x).get f = x := by cases f <;> rfl

/-- The stake with the listed parts of another. -/
def Stake.copy (k j : Stake) (l : List StakePart) : Stake := l.foldl (fun q f => q.set f (j.get f)) k

theorem Stake.get_copy (k j : Stake) (l : List StakePart) (f : StakePart) :
    (k.copy j l).get f = if f ∈ l then j.get f else k.get f := by
  induction l generalizing k with
  | nil => rfl
  | cons g l ih =>
    refine (ih _).trans ?_
    by_cases hl : f ∈ l
    · simp [hl]
    · by_cases he : f = g
      · subst he
        simp [hl, Stake.get_set_same]
      · simp [hl, he, Stake.get_set_ne _ _ he]

/-- Of the stake, only the parts listed have changed. -/
def Stake.Only (l : List StakePart) (k j : Stake) : Prop := ∀ f, f ∉ l → j.get f = k.get f

namespace Stake.Only
variable {l l' : List StakePart} {k j i : Stake}

theorem refl : Only l k k := fun _ _ => rfl
theorem trans (h : Only l k j) (h' : Only l j i) : Only l k i := fun f hf => (h' f hf).trans (h f hf)
theorem mono (h : Only l' k j) (hl : l' ⊆ l) : Only l k j := fun f hf => h f fun hm => hf (hl hm)
theorem step (h : Only l k j) (h' : Only l' j i) (hl : l' ⊆ l := by decide) : Only l k i := h.trans (h'.mono hl)
theorem set {f : StakePart} {x : f.type} (h : Only l k j) (hf : f ∈ l) : Only l k (j.set f x) :=
  h.trans fun _ hg => j.get_set_ne x fun e => hg (e ▸ hf)
theorem ite {p : Prop} [Decidable p] (h : Only l k j) (h' : Only l k i) : Only l k (if p then j else i) := by split <;> assumption
theorem foldl {α : Type} {f : Stake → α → Stake} (hf : ∀ j a, Only l k j → Only l k (f j a)) (m : List α) (h : Only l k j) :
    Only l k (m.foldl f j) := by
  induction m generalizing j with
  | nil => exact h
  | cons a m ih => exact ih (hf j a h)

theorem id (h : Only l k j) (hf : StakePart.id ∉ l := by decide) : j.id = k.id := h .id hf
theorem ringN (h : Only l k j) (hf : StakePart.ringN ∉ l := by decide) : j.ringN = k.ringN := h .ringN hf
theorem regs (h : Only l k j) (hf : StakePart.regs ∉ l := by decide) : j.regs = k.regs := h .regs hf
theorem act (h : Only l k j) (hf : StakePart.act ∉ l := by decide) : j.act = k.act := h .act hf
theorem tbl (h : Only l k j) (hf : StakePart.tbl ∉ l := by decide) : j.tbl = k.tbl := h .tbl hf
theorem sram (h : Only l k j) (hf : StakePart.sram ∉ l := by decide) : j.sram = k.sram := h .sram hf
theorem lowStage (h : Only l k j) (hf : StakePart.lowStage ∉ l := by decide) : j.lowStage = k.lowStage := h .lowStage hf
theorem snap (h : Only l k j) (hf : StakePart.snap ∉ l := by decide) : j.snap = k.snap := h .snap hf
theorem now (h : Only l k j) (hf : StakePart.now ∉ l := by decide) : j.now = k.now := h .now hf
theorem fresh (h : Only l k j) (hf : StakePart.fresh ∉ l := by decide) : j.fresh = k.fresh := h .fresh hf
theorem out (h : Only l k j) (hf : StakePart.out ∉ l := by decide) : j.out = k.out := h .out hf
theorem done (h : Only l k j) (hf : StakePart.done ∉ l := by decide) : j.done = k.done := h .done hf
theorem offers (h : Only l k j) (hf : StakePart.offers ∉ l := by decide) : j.offers = k.offers := h .offers hf
theorem str (h : Only l k j) (hf : StakePart.str ∉ l := by decide) : j.str = k.str := h .str hf
theorem bounds (h : Only l k j) (hf : StakePart.bounds ∉ l := by decide) : j.bounds = k.bounds := h .bounds hf
theorem tuneUsed (h : Only l k j) (hf : StakePart.tuneUsed ∉ l := by decide) : j.tuneUsed = k.tuneUsed := h .tuneUsed hf
theorem wal (h : Only l k j) (hf : StakePart.wal ∉ l := by decide) : j.wal = k.wal := h .wal hf
theorem ang (h : Only l k j) (hf : StakePart.ang ∉ l := by decide) : j.ang = k.ang := h .ang hf
theorem sns (h : Only l k j) (hf : StakePart.sns ∉ l := by decide) : j.sns = k.sns := h .sns hf
theorem pos (h : Only l k j) (hf : StakePart.pos ∉ l := by decide) : j.pos = k.pos := h .pos hf
theorem fe (h : Only l k j) (hf : StakePart.fe ∉ l := by decide) : j.fe = k.fe := h .fe hf
theorem modu (h : Only l k j) (hf : StakePart.modu ∉ l := by decide) : j.modu = k.modu := h .modu hf
theorem leg (h : Only l k j) (hf : StakePart.leg ∉ l := by decide) : j.leg = k.leg := h .leg hf
theorem prt (h : Only l k j) (hf : StakePart.prt ∉ l := by decide) : j.prt = k.prt := h .prt hf
theorem pair (h : Only l k j) (hf : StakePart.pair ∉ l := by decide) : j.pair = k.pair := h .pair hf
theorem vote (h : Only l k j) (hf : StakePart.vote ∉ l := by decide) : j.vote = k.vote := h .vote hf
theorem thm (h : Only l k j) (hf : StakePart.thm ∉ l := by decide) : j.thm = k.thm := h .thm hf
theorem stopped (h : Only l k j) (hf : StakePart.stopped ∉ l := by decide) : j.stopped = k.stopped := h .stopped hf

/-- Two stakes that differ from one in the same parts, and agree in those, are the same. -/
theorem eq (h : Only l k j) (h' : Only l k i) (he : ∀ f, f ∈ l → j.get f = i.get f) : j = i := by
  have hg : ∀ f, j.get f = i.get f := fun f => by
    by_cases hf : f ∈ l
    · exact he f hf
    · rw [h f hf, h' f hf]
  cases j
  cases i
  congr
  · exact hg .id
  · exact hg .ringN
  · exact hg .regs
  · exact hg .act
  · exact hg .tbl
  · exact hg .sram
  · exact hg .lowStage
  · exact hg .snap
  · exact hg .now
  · exact hg .fresh
  · exact hg .out
  · exact hg .done
  · exact hg .offers
  · exact hg .str
  · exact hg .bounds
  · exact hg .tuneUsed
  · exact hg .wal
  · exact hg .ang
  · exact hg .sns
  · exact hg .pos
  · exact hg .fe
  · exact hg .modu
  · exact hg .leg
  · exact hg .prt
  · exact hg .pair
  · exact hg .vote
  · exact hg .thm
  · exact hg .stopped

/-- The stake is the one before with the parts that changed. -/
theorem eq_copy (h : Only l k j) : j = k.copy j l :=
  h.eq (fun f hf => by rw [Stake.get_copy, if_neg hf]) fun f hf => by rw [Stake.get_copy, if_pos hf]

/-! The operations of a stake. -/

section
variable (h : Only l k j)
include h

theorem wr {o : Nat} {v : BitVec 32} (hf : StakePart.regs ∈ l := by decide) : Only l k (j.wr o v) := h.set (f := .regs) hf
theorem put {f : Fld} {v : Nat} (hf : StakePart.regs ∈ l := by decide) : Only l k (j.put f v) := h.set (f := .regs) hf
theorem putB {f : Fld} {b : Bool} (hf : StakePart.regs ∈ l := by decide) : Only l k (j.putB f b) := h.set (f := .regs) hf
theorem putI {f : Fld} {v : Int} (hf : StakePart.regs ∈ l := by decide) : Only l k (j.putI f v) := h.set (f := .regs) hf
theorem put48 {o : Nat} {v : Word48} (hf : StakePart.regs ∈ l := by decide) : Only l k (j.put48 o v) := h.set (f := .regs) hf
theorem applyRange {a b : Nat} (hf : StakePart.act ∈ l := by decide) : Only l k (j.applyRange a b) := h.set (f := .act) hf
theorem wrAct {o : Nat} {v : BitVec 32} (hf : StakePart.act ∈ l := by decide) : Only l k (j.wrAct o v) := h.set (f := .act) hf
theorem emit {e : Ev} {c : Nat} {v : List Nat} {fl : Nat} (hf : StakePart.out ∈ l := by decide) : Only l k (j.emit e c v fl) := h.set (f := .out) hf
theorem trip {c : Nat} {p : Option Nat} (hf : StakePart.prt ∈ l := by decide) : Only l k (j.trip c p) := h.set (f := .prt) hf
theorem onAng {f : AngState → AngState} (hf : StakePart.ang ∈ l := by decide) : Only l k (j.onAng f) := h.set (f := .ang) hf
theorem onClock {c : Nat} {f : Clock → Clock} (hf : StakePart.ang ∈ l := by decide) : Only l k (j.onClock c f) := h.set (f := .ang) hf
theorem onEntry {e : Nat} {f : Entry → Entry} (hf : StakePart.ang ∈ l := by decide) : Only l k (j.onEntry e f) := h.set (f := .ang) hf
theorem onSns {f : SnsState → SnsState} (hf : StakePart.sns ∈ l := by decide) : Only l k (j.onSns f) := h.set (f := .sns) hf
theorem onChan {c : Nat} {f : SnsChan → SnsChan} (hf : StakePart.sns ∈ l := by decide) : Only l k (j.onChan c f) := h.set (f := .sns) hf
theorem onGroup {c : Nat} {f : SnsGroup → SnsGroup} (hf : StakePart.sns ∈ l := by decide) : Only l k (j.onGroup c f) := h.set (f := .sns) hf
theorem onPos {f : PosState → PosState} (hf : StakePart.pos ∈ l := by decide) : Only l k (j.onPos f) := h.set (f := .pos) hf
theorem onFe {f : FldState → FldState} (hf : StakePart.fe ∈ l := by decide) : Only l k (j.onFe f) := h.set (f := .fe) hf
theorem onMod {f : ModState → ModState} (hf : StakePart.modu ∈ l := by decide) : Only l k (j.onMod f) := h.set (f := .modu) hf
theorem onPort {p : Nat} {f : ModPort → ModPort} (hf : StakePart.modu ∈ l := by decide) : Only l k (j.onPort p f) := h.set (f := .modu) hf
theorem onLeg {p : Nat} {f : LegPort → LegPort} (hf : StakePart.leg ∈ l := by decide) : Only l k (j.onLeg p f) := h.set (f := .leg) hf
theorem onPair {f : PairState → PairState} (hf : StakePart.pair ∈ l := by decide) : Only l k (j.onPair f) := h.set (f := .pair) hf
theorem onPrt {f : PrtState → PrtState} (hf : StakePart.prt ∈ l := by decide) : Only l k (j.onPrt f) := h.set (f := .prt) hf
theorem onVote {f : VoteState → VoteState} (hf : StakePart.vote ∈ l := by decide) : Only l k (j.onVote f) := h.set (f := .vote) hf
theorem onStrm {i : Nat} {f : Strm → Strm} (hf : StakePart.str ∈ l := by decide) : Only l k (j.onStrm i f) := h.set (f := .str) hf
theorem onThm {i : Nat} {f : ThmSt → ThmSt} (hf : StakePart.thm ∈ l := by decide) : Only l k (j.onThm i f) := h.set (f := .thm) hf
theorem offer {o : Offer} (hf : StakePart.offers ∈ l := by decide) : Only l k (j.offer o) := h.set (f := .offers) hf
theorem complete {c : Completion} (hf : StakePart.done ∈ l := by decide) : Only l k (j.complete c) := h.set (f := .done) hf
theorem hold {t : PlaitTask} (hf : StakePart.vote ∈ l := by decide) : Only l k (j.hold t) := h.set (f := .vote) hf
theorem pendEntry {p : PendEntry} (hf : StakePart.ang ∈ l := by decide) : Only l k (j.pendEntry p) := h.set (f := .ang) hf
theorem bump {o n : Nat} (hf : StakePart.regs ∈ l := by decide) : Only l k (j.bump o n) := .ite h (h.wr hf)
theorem bump31 {o n : Nat} (hf : StakePart.regs ∈ l := by decide) : Only l k (j.bump31 o n) := .ite h (h.wr hf)
theorem onDir {d : Dir} {f : WalDir → WalDir} (hf : StakePart.wal ∈ l := by decide) : Only l k (j.onDir d f) := by
  cases d
  · exact h.set (f := .wal) hf
  · exact h.set (f := .wal) hf
theorem sendCell {c : Cell} (hf : StakePart.wal ∈ l := by decide) : Only l k (j.sendCell c) := h.onDir hf
end
end Stake.Only
end Sys2Proof.Machine

/-! What the shared operations change of a stake. -/
namespace Sys2Proof.Machine
set_option Elab.async false
namespace Stake.Only

theorem syncActive_only (k : Stake) : Only [.regs] k (k.syncActive) :=
  .putB (.putB (.putB (.foldl (fun _ _ h => .put h) _ .refl)))
theorem syncActive {l : List StakePart} {k j : Stake}  (h : Only l k j) (hl : [.regs] ⊆ l := by decide) :
    Only l k (j.syncActive) := h.step (syncActive_only j) hl

theorem setAxis_only (k : Stake) (st sub : Nat) : Only [.regs, .out, .fe] k (k.setAxis st sub) := by
  unfold Stake.setAxis
  extract_lets k1 k2 k3 k4
  have h1 : Only [.regs, .out, .fe] k k1 := .put (.put .refl)
  have h2 : Only [.regs, .out, .fe] k k2 := .ite h1 (.syncActive (.putB h1))
  have h3 : Only [.regs, .out, .fe] k k3 := .ite (.ite (.put h2) h2) (.put h2)
  have h4 : Only [.regs, .out, .fe] k k4 := .ite (.onFe h3) h3
  exact .ite h4 (.emit h4)
theorem setAxis {l : List StakePart} {k j : Stake} {st sub : Nat} (h : Only l k j) (hl : [.regs, .out, .fe] ⊆ l := by decide) :
    Only l k (j.setAxis st sub) := h.step (setAxis_only j st sub) hl

theorem updDerate_only (k : Stake) : Only [.regs, .out, .fe] k (k.updDerate) :=
  .ite .refl (.ite (.setAxis .refl) (.ite (.setAxis .refl) .refl))
theorem updDerate {l : List StakePart} {k j : Stake}  (h : Only l k j) (hl : [.regs, .out, .fe] ⊆ l := by decide) :
    Only l k (j.updDerate) := h.step (updDerate_only j) hl

theorem react_only (k : Stake) (r : EvRec) (b : Bool) (x : Nat) : Only [.regs, .out, .prt] k (k.react r b x) := fun f hf => by
  by_cases hfe : f = .fe
  · exact hfe ▸ k.react_fe r b x
  have h1 : Only [.regs, .out, .prt, .fe] k (k.react r b x) :=
    .ite .refl (.ite (.set (f := .prt) (.updDerate (.syncActive (.set (f := .prt) .refl (by decide)))) (by decide))
      (.updDerate (.syncActive (.set (f := .prt) .refl (by decide)))))
  exact h1 f (by simpa [hfe] using hf)
theorem react {l : List StakePart} {k j : Stake} {r : EvRec} {b : Bool} {x : Nat} (h : Only l k j) (hl : [.regs, .out, .prt] ⊆ l := by decide) :
    Only l k (j.react r b x) := h.step (react_only j r b x) hl

theorem post_only (k : Stake) (e : Ev) (c : Nat) (v : List Nat) : Only [.regs, .out, .prt] k (k.post e c v) :=
  .react (.emit .refl)
theorem post {l : List StakePart} {k j : Stake} {e : Ev} {c : Nat} {v : List Nat} (h : Only l k j) (hl : [.regs, .out, .prt] ⊆ l := by decide) :
    Only l k (j.post e c v) := h.step (post_only j e c v) hl

theorem enterSwitching_only (k : Stake) : Only [.modu] k (k.enterSwitching) :=
  .onMod .refl
theorem enterSwitching {l : List StakePart} {k j : Stake}  (h : Only l k j) (hl : [.modu] ⊆ l := by decide) :
    Only l k (j.enterSwitching) := h.step (enterSwitching_only j) hl

theorem release_only (k : Stake) : Only [.prt] k (k.release) :=
  .onPrt .refl
theorem release {l : List StakePart} {k j : Stake}  (h : Only l k j) (hl : [.prt] ⊆ l := by decide) :
    Only l k (j.release) := h.step (release_only j) hl

theorem refreshHost_only (k : Stake) : Only [.prt] k (k.refreshHost) :=
  .onPrt .refl
theorem refreshHost {l : List StakePart} {k j : Stake}  (h : Only l k j) (hl : [.prt] ⊆ l := by decide) :
    Only l k (j.refreshHost) := h.step (refreshHost_only j) hl

theorem hand_only (k : Stake) (p : Nat) (y : Symb) (x : Instant) (b : Bool) : Only [.modu, .regs] k (k.hand p y x b) :=
  .ite .refl (.bump (.onPort .refl))
theorem hand {l : List StakePart} {k j : Stake} {p : Nat} {y : Symb} {x : Instant} {b : Bool} (h : Only l k j) (hl : [.modu, .regs] ⊆ l := by decide) :
    Only l k (j.hand p y x b) := h.step (hand_only j p y x b) hl

theorem portOff_only (k : Stake) (p : Nat) (b : Bool) : Only [.modu, .regs] k (k.portOff p b) := by
  have h1 : Only [.modu, .regs] k (k.onPort p ModPort.discard) := .onPort .refl
  have h2 := Only.ite (p := (k.mport p).hs) (.hand (p := p) (y := .hsOff) (x := (k.onPort p ModPort.discard).nowI) (b := false) h1) h1
  exact .ite (.ite (.hand h1) h1) (.ite (.hand h2) h2)
theorem portOff {l : List StakePart} {k j : Stake} {p : Nat} {b : Bool} (h : Only l k j) (hl : [.modu, .regs] ⊆ l := by decide) :
    Only l k (j.portOff p b) := h.step (portOff_only j p b) hl

theorem portQuiet_only (k : Stake) (p : Nat) : Only [.modu, .regs] k (k.portQuiet p) :=
  .ite .refl (.onPort (.portOff .refl))
theorem portQuiet {l : List StakePart} {k j : Stake} {p : Nat} (h : Only l k j) (hl : [.modu, .regs] ⊆ l := by decide) :
    Only l k (j.portQuiet p) := h.step (portQuiet_only j p) hl

theorem leaveSwitching_only (k : Stake) : Only [.modu, .regs] k (k.leaveSwitching) :=
  .foldl (fun _ _ h => .portQuiet h) _ .refl
theorem leaveSwitching {l : List StakePart} {k j : Stake}  (h : Only l k j) (hl : [.modu, .regs] ⊆ l := by decide) :
    Only l k (j.leaveSwitching) := h.step (leaveSwitching_only j) hl

theorem setEpoch_only (k : Stake) (st : Nat) : Only [.regs, .out, .prt] k (k.setEpoch st) :=
  .ite (.post (.put .refl)) (.ite (.post (.put .refl)) (.put .refl))
theorem setEpoch {l : List StakePart} {k j : Stake} {st : Nat} (h : Only l k j) (hl : [.regs, .out, .prt] ⊆ l := by decide) :
    Only l k (j.setEpoch st) := h.step (setEpoch_only j st) hl

theorem addTriggers_only (k : Stake) (a b : Word48) (v : Bool) (x : Int) : Only [.regs, .modu] k (k.addTriggers a b v x) :=
  .foldl (fun _ _ h => .ite h (.ite (.bump h) (.ite h (.onMod h)))) _ .refl
theorem addTriggers {l : List StakePart} {k j : Stake} {a b : Word48} {v : Bool} {x : Int} (h : Only l k j) (hl : [.regs, .modu] ⊆ l := by decide) :
    Only l k (j.addTriggers a b v x) := h.step (addTriggers_only j a b v x) hl

theorem restartCarrier_only (k : Stake) (a : Word48) (v : Bool) : Only [.regs, .out, .prt, .modu] k (k.restartCarrier a v) :=
  .addTriggers (.ite (.setEpoch (.onMod .refl)) (.onMod .refl))
theorem restartCarrier {l : List StakePart} {k j : Stake} {a : Word48} {v : Bool} (h : Only l k j) (hl : [.regs, .out, .prt, .modu] ⊆ l := by decide) :
    Only l k (j.restartCarrier a v) := h.step (restartCarrier_only j a v) hl

theorem dropCommitted_only (k : Stake) (x : Nat) : Only [.modu] k (k.dropCommitted x) :=
  .foldl (fun _ _ h => .onMod h) _ (.onPort .refl)
theorem dropCommitted {l : List StakePart} {k j : Stake} {x : Nat} (h : Only l k j) (hl : [.modu] ⊆ l := by decide) :
    Only l k (j.dropCommitted x) := h.step (dropCommitted_only j x) hl

theorem forceCarrier_only (k : Stake) (cls cause : Nat) : Only [.regs, .out, .prt, .modu] k (k.forceCarrier cls cause) :=
  .post (.putB (.put (.put (.restartCarrier (.put (.put (.onMod (.foldl (fun _ _ h => .dropCommitted h) _ .refl))))))))
theorem forceCarrier {l : List StakePart} {k j : Stake} {cls cause : Nat} (h : Only l k j) (hl : [.regs, .out, .prt, .modu] ⊆ l := by decide) :
    Only l k (j.forceCarrier cls cause) := h.step (forceCarrier_only j cls cause) hl

theorem syncAbort_only (k : Stake) : Only [.regs, .out, .prt, .modu] k (k.syncAbort) :=
  .ite .refl (.forceCarrier .refl)
theorem syncAbort {l : List StakePart} {k j : Stake}  (h : Only l k j) (hl : [.regs, .out, .prt, .modu] ⊆ l := by decide) :
    Only l k (j.syncAbort) := h.step (syncAbort_only j) hl

theorem deliver_only (k : Stake) (src : Nat) (m : Meas) : Only [.ang] k (k.deliver src m) :=
  .foldl (fun _ _ h => .ite (.onClock h) h) _ .refl
theorem deliver {l : List StakePart} {k j : Stake} {src : Nat} {m : Meas} (h : Only l k j) (hl : [.ang] ⊆ l := by decide) :
    Only l k (j.deliver src m) := h.step (deliver_only j src m) hl

theorem srcLost_only (k : Stake) (src : Nat) : Only [.ang] k (k.srcLost src) :=
  .foldl (fun _ _ h => .ite (.onClock h) h) _ .refl
theorem srcLost {l : List StakePart} {k j : Stake} {src : Nat} (h : Only l k j) (hl : [.ang] ⊆ l := by decide) :
    Only l k (j.srcLost src) := h.step (srcLost_only j src) hl

theorem loseSource_only (k : Stake) (src : Nat) : Only [.ang, .regs, .out, .prt, .modu] k (k.loseSource src) :=
  .ite (.syncAbort (.srcLost .refl)) (.srcLost .refl)
theorem loseSource {l : List StakePart} {k j : Stake} {src : Nat} (h : Only l k j) (hl : [.ang, .regs, .out, .prt, .modu] ⊆ l := by decide) :
    Only l k (j.loseSource src) := h.step (loseSource_only j src) hl

theorem enterRun_only (k : Stake) : Only [.prt, .fe, .regs, .out, .modu] k (k.enterRun) :=
  .updDerate (.enterSwitching (.setAxis (.onFe (.refreshHost .refl))))
theorem enterRun {l : List StakePart} {k j : Stake}  (h : Only l k j) (hl : [.prt, .fe, .regs, .out, .modu] ⊆ l := by decide) :
    Only l k (j.enterRun) := h.step (enterRun_only j) hl

end Stake.Only
end Sys2Proof.Machine

/-! A capture completes (R76, R77, R79, R82). -/
namespace Sys2Proof.Machine
set_option Elab.async false
namespace Stake.Only

theorem catchEnd_only (k : Stake) (o : Nat) (a t : Word48) (w : Int) (b : Bool) :
    Only [.regs, .out, .fe, .modu, .prt, .ang, .done] k (k.catchEnd o a t w b) := by
  unfold Stake.catchEnd
  split
  · exact .refl
  · next c _ =>
    extract_lets k1 k2 k3 ok k4 q5 k5 st res k6 k7
    have h3 : Only [.regs, .out, .fe, .modu, .prt, .ang, .done] k k3 := .put (.leaveSwitching (.onFe (.put .refl)))
    have h4 : Only [.regs, .out, .fe, .modu, .prt, .ang, .done] k k4 := .ite (.putB (.putB (.put48 (.put48 (.put48 h3))))) (.putB h3)
    have h5 : Only [.regs, .out, .fe, .modu, .prt, .ang, .done] k k5 := .ite (.deliver (.loseSource (.onFe h4))) h4
    have h6 : Only [.regs, .out, .fe, .modu, .prt, .ang, .done] k k6 := by
      simp only [k6]
      split
      · exact h5
      · exact .complete h5
    have h7 : Only [.regs, .out, .fe, .modu, .prt, .ang, .done] k k7 := .ite (.post h6) (.ite h6 (.post h6))
    exact .ite (.ite (.enterRun h7) (.setAxis h7)) h7
theorem catchEnd {l : List StakePart} {k j : Stake} {o : Nat} {a t : Word48} {w : Int} {b : Bool} (h : Only l k j)
    (hl : [.regs, .out, .fe, .modu, .prt, .ang, .done] ⊆ l := by decide) : Only l k (j.catchEnd o a t w b) :=
  h.step (catchEnd_only j o a t w b) hl

theorem catchJudge_only (k : Stake) (c : Catch) : Only [.regs, .out, .fe, .modu, .prt, .ang, .done, .fresh] k (k.catchJudge c) :=
  .ite (.catchEnd (.set (f := .fresh) .refl (by decide))) (.ite (.catchEnd .refl) (.catchEnd .refl))

theorem catchSample_only (k : Stake) (g : Nat) (x : SampleSet) :
    Only [.regs, .out, .fe, .modu, .prt, .ang, .done, .fresh] k (k.catchSample g x) := by
  unfold Stake.catchSample
  split
  · exact .refl
  · exact .ite .refl (.ite (.step (.onFe .refl) (catchJudge_only _ _)) (.onFe .refl))

theorem sampleFrame_only (k : Stake) (g : Nat) (x : SampleSet) : Only [.wal, .pair] k (k.sampleFrame g x) :=
  .ite .refl (.onDir (.onPair (.sendCell .refl)))

theorem torqueMonitor_only (k : Stake) (g : Nat) (th : Word48) (x : SampleSet) :
    Only [.regs, .out, .prt, .vote] k (k.torqueMonitor g th x) := by
  unfold Stake.torqueMonitor
  extract_lets _ _ _ _ _ c k1 _ _ _ _ _ _ _ k2 _ _ _ _ _ k3
  have h1 : Only [.regs, .out, .prt, .vote] k k1 := .onPrt .refl
  have h2 : Only [.regs, .out, .prt, .vote] k k2 := .onPrt (.put48 .refl)
  have h3 : Only [.regs, .out, .prt, .vote] k k3 := .onPrt (.bump h2)
  exact .ite .refl (.ite (.hold .refl) (.ite (.ite (.post h1) h1) (.ite (.onPrt h2) (.ite (.post h3) h3))))

theorem plausEval_only (k : Stake) (a b : SampleSet) : Only [.sns, .regs, .out, .prt] k (k.plausEval a b) := by
  unfold Stake.plausEval
  extract_lets
  exact .ite (.onSns .refl) (.foldl (fun _ _ h => .post h) _ (.onSns .refl))

end Stake.Only

/-! The checks that follow a set of samples leave the groups. -/
section
variable (k : Stake)

theorem Stake.plausEval_groups (a b : SampleSet) : (k.plausEval a b).sns.groups = k.sns.groups := by
  unfold Stake.plausEval
  extract_lets
  refine ite_frame (g := fun k : Stake => k.sns.groups) rfl ?_
  rw [foldl_frame (g := fun k : Stake => k.sns.groups) fun _ _ => by simp]
  rfl

theorem Stake.plausibility_groups (g : Nat) (x : SampleSet) : (k.plausibility g x).sns.groups = k.sns.groups := by
  have hb : ∀ (q : Stake) (o n : Nat), (q.bump o n).sns.groups = q.sns.groups := fun _ _ _ => by simp
  have he : ∀ (q : Stake) (p : Bool) (x y : SampleSet) (o : Nat), (if p then q.plausEval x y else q.bump o).sns.groups = q.sns.groups :=
    fun _ _ _ _ _ => ite_frame (g := fun k : Stake => k.sns.groups) (Stake.plausEval_groups ..) (hb _ _ _)
  unfold Stake.plausibility
  extract_lets
  refine ite_frame (g := fun k : Stake => k.sns.groups) rfl (ite_frame (g := fun k : Stake => k.sns.groups) (he _ _ _ _ _)
    (ite_frame (g := fun k : Stake => k.sns.groups) ?_ ?_))
  · split
    · exact he _ _ _ _ _
    · exact ite_frame (g := fun k : Stake => k.sns.groups) rfl (hb _ _ _)
  · split
    · exact he _ _ _ _ _
    · exact ite_frame (g := fun k : Stake => k.sns.groups) rfl rfl
end

end Sys2Proof.Machine

namespace Sys2Proof.Machine
set_option Elab.async false

/-- The corrected value of a channel of a capture, from the bits of its window (R75, R76, R82). -/
def Stake.sampleOf (k : Stake) (c : Nat) (centre : Word48) (wave : Wave) : Int :=
  (k.correct c (sinc3 (k.osr c) (k.bitsTo c (3 * k.osr c)
    (centre + BitVec.ofNat 48 (((3 * k.osr c + 1) / 2 - 1) * k.mdiv (k.mclkOf c))) wave))).1

/-- It rests on the settings in force alone. -/
theorem Stake.sampleOf_congr {k j : Stake} (ha : j.act = k.act) (hi : j.id = k.id) (c : Nat) (ct : Word48) (w : Wave) :
    j.sampleOf c ct w = k.sampleOf c ct w := by
  have h48 : ∀ o, j.act48 o = k.act48 o := fun o => by simp only [Stake.act48, Stake.rdAct, ha, hi]
  simp only [Stake.sampleOf, Stake.correct, Stake.osr, Stake.bitsTo, Stake.sampleDly, Stake.mdiv, Stake.mclkOf, Stake.inForce_congr ha hi, h48]

theorem Stake.newSample_value (k : Stake) (c : Nat) (w : Wave) (t : Bool) (ct : Word48) : (k.newSample c w t ct).1 = k.sampleOf c ct w := rfl

/-- A sample shows in its channel's registers and in the channel's state. -/
theorem Stake.newSample_state (k : Stake) (c : Nat) (w : Wave) (t : Bool) (ct : Word48) : ∃ f b v y z,
    (k.newSample c w t ct).2.2 = ((((k.onChan c f).putB (Reg.SNS_CH_STATUS_OVERRANGE c) b).putI (Reg.SNS_CH_VOLTS_VOLTS c) v).put48
      (Reg.SNS_CH_SAMPLE c) y).wr (Reg.SNS_CH_CENTRE c) z := ⟨_, _, _, _, _, rfl⟩

theorem Stake.newSample_only (k : Stake) (c : Nat) (w : Wave) (t : Bool) (ct : Word48) :
    Only [.sns, .regs] k (k.newSample c w t ct).2.2 := by
  obtain ⟨_, _, _, _, _, h⟩ := k.newSample_state c w t ct
  rw [h]
  exact .wr (.put48 (.putI (.putB (.onChan .refl))))

theorem Stake.newSample_groups (k : Stake) (c : Nat) (w : Wave) (t : Bool) (ct : Word48) :
    (k.newSample c w t ct).2.2.sns.groups = k.sns.groups := by
  obtain ⟨_, _, _, _, _, h⟩ := k.newSample_state c w t ct
  rw [h, Stake.wr_sns, Stake.put48_sns, Stake.putI_sns, Stake.putB_sns]
  rfl

/-- A sample leaves every channel's `UNAVAIL`. -/
theorem Stake.newSample_unavail (k : Stake) (c : Nat) (w : Wave) (t : Bool) (ct : Word48) (d : Nat) :
    (k.newSample c w t ct).2.2.flag (Reg.SNS_CH_STATUS_UNAVAIL d) = k.flag (Reg.SNS_CH_STATUS_UNAVAIL d) := by
  obtain ⟨f, b, v, y, z, h⟩ := k.newSample_state c w t ct
  have hb : ((k.onChan c f).putB (Reg.SNS_CH_STATUS_OVERRANGE c) b).flag (Reg.SNS_CH_STATUS_UNAVAIL d) =
      (k.onChan c f).flag (Reg.SNS_CH_STATUS_UNAVAIL d) :=
    Stake.flag_putB_ne _ _ _ _ (.inr (.inl (by simp [Reg.SNS_CH_STATUS_OVERRANGE, Reg.SNS_CH_STATUS_UNAVAIL])))
  have hr : (k.newSample c w t ct).2.2.rd (Reg.SNS_CH_STATUS_UNAVAIL d).off =
      ((k.onChan c f).putB (Reg.SNS_CH_STATUS_OVERRANGE c) b).rd (Reg.SNS_CH_STATUS_UNAVAIL d).off := by
    rw [h, Stake.rd_wr_ne, Stake.rd_put48_ne, Stake.rd_putI_ne] <;>
      simp only [Reg.SNS_CH_STATUS_UNAVAIL, Reg.SNS_CH_VOLTS_VOLTS, Reg.SNS_CH_SAMPLE, Reg.SNS_CH_CENTRE] <;> omega
  rw [Stake.flag, Stake.fld, hr]
  exact hb

/-! The channels of the group, one after another. -/

/-- A sample joins those taken, and the stream's items where the channel streams. -/
def Stake.joinSample (l : List (Nat × Int × Nat)) (ct : Word48) (c : Nat) (r : Int × Nat × Stake) : Stake × List (Nat × Int × Nat) :=
  (if r.2.2.inForce (Reg.SNS_CH_CFG_STREAM_MODE c) = 1 then
    r.2.2.offer { stream := r.2.2.inForce (Reg.SNS_CH_CFG_STREAM c), source := c, content := 1,
                  words := [Machine.word r.1, ct.toNat % 2 ^ 40 * 256 + r.2.1] } else r.2.2, l ++ [(c, r.1, r.2.1)])

/-- One channel of a capture: its sample is taken, unless it is unavailable. -/
def Stake.takeSample (waves : List Wave) (t : Bool) (ct : Word48) (x : Stake × List (Nat × Int × Nat)) (c : Nat) :
    Stake × List (Nat × Int × Nat) :=
  if x.1.flag (Reg.SNS_CH_STATUS_UNAVAIL c) then x else Stake.joinSample x.2 ct c (x.1.newSample c (nth [] waves c) t ct)

/-- Between the channels: the settings in force, the groups and each `UNAVAIL` stand, and what is taken of a channel is its value. -/
def Stake.takenSound (k : Stake) (waves : List Wave) (ct : Word48) (x : Stake × List (Nat × Int × Nat)) : Prop :=
  Only [.sns, .regs, .offers] k x.1 ∧ x.1.sns.groups = k.sns.groups ∧
    (∀ c, x.1.flag (Reg.SNS_CH_STATUS_UNAVAIL c) = k.flag (Reg.SNS_CH_STATUS_UNAVAIL c)) ∧
    ∀ e ∈ x.2, e.2.1 = k.sampleOf e.1 ct (nth [] waves e.1)

theorem Stake.takenSound.join {k : Stake} {waves : List Wave} {ct : Word48} {l : List (Nat × Int × Nat)} {c : Nat} {r : Int × Nat × Stake}
    (ho : Only [.sns, .regs, .offers] k r.2.2) (hg : r.2.2.sns.groups = k.sns.groups)
    (hu : ∀ d, r.2.2.flag (Reg.SNS_CH_STATUS_UNAVAIL d) = k.flag (Reg.SNS_CH_STATUS_UNAVAIL d))
    (hr : r.1 = k.sampleOf c ct (nth [] waves c)) (hv : ∀ e ∈ l, e.2.1 = k.sampleOf e.1 ct (nth [] waves e.1)) :
    k.takenSound waves ct (Stake.joinSample l ct c r) := by
  refine ⟨.ite (.offer ho) ho, ite_frame (g := fun k : Stake => k.sns.groups) hg hg, fun d => ?_, fun e he => ?_⟩
  · exact ite_frame (g := fun k : Stake => k.flag (Reg.SNS_CH_STATUS_UNAVAIL d)) (hu d) (hu d)
  · rcases List.mem_append.1 he with he | he
    · exact hv e he
    · rw [List.mem_singleton.1 he]
      exact hr

theorem Stake.takenSound.next {k : Stake} {waves : List Wave} {t : Bool} {ct : Word48} {x : Stake × List (Nat × Int × Nat)}
    (h : k.takenSound waves ct x) (c : Nat) : k.takenSound waves ct (Stake.takeSample waves t ct x c) ∧
      (k.flag (Reg.SNS_CH_STATUS_UNAVAIL c) = false → ∃ e ∈ (Stake.takeSample waves t ct x c).2, e.1 = c) ∧
      x.2 ⊆ (Stake.takeSample waves t ct x c).2 := by
  obtain ⟨ho, hg, hu, hv⟩ := h
  unfold Stake.takeSample
  rw [hu c]
  split
  · next hc => exact ⟨⟨ho, hg, hu, hv⟩, fun hf => by rw [hc] at hf; exact absurd hf (by decide), fun _ h => h⟩
  · refine ⟨.join (ho.step (x.1.newSample_only _ _ _ _)) ((x.1.newSample_groups ..).trans hg) (fun d => (x.1.newSample_unavail ..).trans (hu d))
      ((x.1.newSample_value ..).trans (Stake.sampleOf_congr ho.act ho.id _ _ _)) hv, fun _ => ⟨_, List.mem_append_right _ List.mem_cons_self, rfl⟩,
      fun _ h => List.mem_append_left _ h⟩

theorem Stake.takenSound.all {k : Stake} {waves : List Wave} {t : Bool} {ct : Word48} (l : List Nat) {x : Stake × List (Nat × Int × Nat)}
    (h : k.takenSound waves ct x) : k.takenSound waves ct (l.foldl (Stake.takeSample waves t ct) x) ∧
      x.2 ⊆ (l.foldl (Stake.takeSample waves t ct) x).2 ∧
      ∀ c ∈ l, k.flag (Reg.SNS_CH_STATUS_UNAVAIL c) = false → ∃ e ∈ (l.foldl (Stake.takeSample waves t ct) x).2, e.1 = c := by
  induction l generalizing x with
  | nil => exact ⟨h, fun _ h => h, fun _ h => absurd h List.not_mem_nil⟩
  | cons c l ih =>
    obtain ⟨h1, hc, hsub⟩ := h.next (t := t) c
    obtain ⟨h2, hsub', hl⟩ := ih h1
    refine ⟨h2, fun _ h => hsub' (hsub h), fun d hd hf => ?_⟩
    rcases List.mem_cons.1 hd with rfl | hd
    · obtain ⟨e, he, h⟩ := hc hf
      exact ⟨e, hsub' he, h⟩
    · exact hl d hd hf

/-- The value of a channel in a set is the one taken. -/
theorem nth_sampleSet {l : List (Nat × Int × Nat)} {c : Nat} {v : Int} (hc : c < 16) (he : ∃ e ∈ l, e.1 = c) (hv : ∀ e ∈ l, e.1 = c → e.2.1 = v) :
    nth 0 ((List.range 16).map fun i => match l.find? fun x => x.1 = i with | some x => x.2.1 | none => 0) c = v := by
  obtain ⟨e, he, hec⟩ := he
  rw [nth, List.getD, List.getElem?_map, List.getElem?_range hc, Option.map_some, Option.getD_some]
  cases hf : l.find? fun x => x.1 = c with
  | none => exact absurd (List.find?_eq_none.1 hf e he) (by simp [hec])
  | some x => exact hv x (List.mem_of_find?_eq_some hf) (by simpa using List.find?_some hf)

/-- What a completed capture leaves: the set, then the checks that follow it. -/
theorem captureDone_of {k : Stake} {g : Nat} {waves : List Wave} {c : Capture} {rest : List Capture} (hf : (k.group g).inFlight = c :: rest)
    (hr : reached k.ang.tick (c.zone.2 + 4) = true) : ∃ (t : Bool) (y : SampleSet),
      let x := (k.groupChans g).foldl (Stake.takeSample waves t c.centre) (k, [])
      (k.captureDone g waves).sns.groups = (x.1.onGroup g fun q => { q with inFlight := rest, latest := some y }).sns.groups ∧
        y.seq = c.seq ∧ y.centre = c.centre ∧
        y.y = (List.range 16).map fun i => match x.2.find? fun e => e.1 = i with | some e => e.2.1 | none => 0 := by
  unfold Stake.captureDone
  rw [hf]
  simp only [hr, Bool.not_true, Bool.false_eq_true, if_false]
  refine ⟨c.tainted || k.taintIn g c.zone, ?y, ?groups, ?seq, ?centre, ?values⟩
  case groups =>
    rw [(Stake.Only.catchSample_only _ _ _).sns, (Stake.Only.sampleFrame_only _ _ _).sns, (Stake.Only.torqueMonitor_only _ _ _ _).sns,
      Stake.plausibility_groups, Stake.bump_sns]
    rfl
  all_goals rfl

/-- Settles O15: the samples are those of `takenSound`, and the checks after them leave the groups. -/
theorem captureCompletes : Obligations.CaptureCompletes := by
  intro s n g waves gr c rest hp hg hf hr
  refine ⟨_, rfl, s.onStake_elsewhere n _, ?_⟩
  rw [State.onStake_stake_same hp]
  generalize s.stake n = k at hg hr
  have hgr : k.group g = gr := by simp [Stake.group, nth, List.getD, hg]
  obtain ⟨t, y, hgs, hseq, hct, hy⟩ := captureDone_of (k := k) (waves := waves) (by rw [hgr]; exact hf) hr
  have hs0 : k.takenSound waves c.centre (k, []) := ⟨.refl, rfl, fun _ => rfl, fun _ h => absurd h List.not_mem_nil⟩
  obtain ⟨⟨_, hgk, _, hv⟩, _, hall⟩ := hs0.all (t := t) (k.groupChans g)
  refine ⟨y, ?_, hseq, hct, fun ch hch hu => ?_⟩
  · rw [hgs]
    change (updAt _ g _)[g]? = _
    rw [hgk]
    simp [updAt, hg]
  · have h16 : ch < 16 := List.mem_range.1 (List.mem_of_mem_filter hch)
    rw [hy]
    exact nth_sampleSet h16 (hall ch hch hu) fun e he hec => hec ▸ hv e he

end Sys2Proof.Machine

/-! A decimator output is shown (R76, R82, R84). -/
namespace Sys2Proof.Machine
set_option Elab.async false

theorem Stake.regsKept.fld {k j : Stake} {l : List Nat} (h : k.regsKept j l) {f : Fld} (hf : f.off ∉ l) : j.fld f = k.fld f :=
  congrArg f.of (h f.off hf)

theorem Stake.regsKept.flag {k j : Stake} {l : List Nat} (h : k.regsKept j l) {f : Fld} (hf : f.off ∉ l) : j.flag f = k.flag f := by
  rw [Stake.flag, h.fld hf]
  rfl

theorem Stake.get48_put48_same (k : Stake) (off : Nat) (v : Word48) : (k.put48 off v).get48 off = v := by
  have h1 : (k.put48 off v).rd (off + 4) = BitVec.ofNat 32 (v.toNat / 4294967296) := Stake.rd_wr_same ..
  have h2 : (k.put48 off v).rd off = BitVec.ofNat 32 v.toNat := by
    rw [Stake.put48, Stake.rd_wr_ne _ _ (by omega), Stake.rd_wr_same]
  rw [Stake.get48, h1, h2]
  refine BitVec.eq_of_toNat_eq ?_
  have := v.isLt
  simp only [BitVec.toNat_ofNat]
  omega

theorem Stake.get48_congr {k j : Stake} {off : Nat} (h : j.rd off = k.rd off) (h' : j.rd (off + 4) = k.rd (off + 4)) :
    j.get48 off = k.get48 off := by rw [Stake.get48, h, h']; rfl

/-- A signed field shows a value in its range. -/
theorem Stake.sfld_putI_same (k : Stake) (f : Fld) (v : Int) (h : f.lo + f.w ≤ 32) (hw : 0 < f.w) (hlo : -(2 ^ (f.w - 1) : Nat) ≤ v)
    (hhi : v < (2 ^ (f.w - 1) : Nat)) : (k.putI f v).sfld f = v := by
  obtain ⟨o, lo, w⟩ := f
  obtain ⟨w, rfl⟩ : ∃ m, w = m + 1 := ⟨w - 1, by simp at hw; omega⟩
  have hp : (2 ^ (w + 1) : Nat) = 2 * 2 ^ w := by rw [pow_succ]; omega
  rw [Stake.sfld, Stake.putI, Stake.fld_put_same _ _ _ h]
  simp only [Nat.add_sub_cancel] at hlo hhi
  have hm : (v % (2 ^ (w + 1) : Nat)).toNat % 2 ^ (w + 1) = if 0 ≤ v then v.toNat else (v + (2 ^ (w + 1) : Nat)).toNat := by
    split
    · rw [Int.emod_eq_of_lt ‹_› (by omega), Nat.mod_eq_of_lt (by omega)]
    · rw [← Int.add_emod_right, Int.emod_eq_of_lt (by omega) (by omega), Nat.mod_eq_of_lt (by omega)]
  simp only [hm, signOf, Nat.add_sub_cancel]
  have hpz : (2 : Int) ^ w = (2 ^ w : Nat) ∧ (2 : Int) ^ (w + 1) = (2 ^ (w + 1) : Nat) := by constructor <;> push_cast <;> rfl
  rw [hpz.2]
  by_cases hv : 0 ≤ v
  · rw [if_pos hv, if_pos (by omega)]
    omega
  · rw [if_neg hv, if_neg (by omega)]
    omega

theorem clampI_bounds {a b : Int} (h : a ≤ b) (x : Int) : a ≤ clampI a b x ∧ clampI a b x ≤ b := by
  unfold clampI
  omega

/-- The parts of a channel's registers that a new output writes. -/
def chanRegs (c : Nat) : List Nat := [Reg.SNS_CH_STATUS c, Reg.SNS_CH_VOLTS c, Reg.SNS_CH_SAMPLE c, Reg.SNS_CH_SAMPLE c + 4, Reg.SNS_CH_CENTRE c]

/-- What a sample shows in its channel's registers (R82, R84). -/
theorem Stake.newSample_shown (k : Stake) (c : Nat) (w : Wave) (t : Bool) (ct : Word48) :
    let j := (k.newSample c w t ct).2.2
    j.get48 (Reg.SNS_CH_SAMPLE c) = w48 (k.sampleOf c ct w) ∧
      j.sfld (Reg.SNS_CH_VOLTS_VOLTS c) = k.volts c (k.sampleOf c ct w) ∧ k.regsKept j (chanRegs c) := by
  intro j
  let q := (k.onChan c fun x => { x with y := k.sampleOf c ct w, qual := (k.newSample c w t ct).2.1 }).putB (Reg.SNS_CH_STATUS_OVERRANGE c)
    ((k.newSample c w t ct).2.1.testBit 1)
  have hj : j = ((q.putI (Reg.SNS_CH_VOLTS_VOLTS c) (q.volts c (k.sampleOf c ct w))).put48 (Reg.SNS_CH_SAMPLE c) (w48 (k.sampleOf c ct w))).wr
      (Reg.SNS_CH_CENTRE c) (BitVec.ofNat 32 ct.toNat) := rfl
  have hscale : q.volts c (k.sampleOf c ct w) = k.volts c (k.sampleOf c ct w) := by
    have : q.fld (Reg.SNS_CH_VOLT_SCALE_VOLT_SCALE c) = k.fld (Reg.SNS_CH_VOLT_SCALE_VOLT_SCALE c) :=
      Stake.fld_putB_ne _ _ _ _ (.inl (by simp [Reg.SNS_CH_STATUS_OVERRANGE, Reg.SNS_CH_VOLT_SCALE_VOLT_SCALE]))
    rw [Stake.volts, this]
    rfl
  have hb := clampI_bounds (a := -32768) (b := 32767) (by decide)
    (divNear (k.sampleOf c ct w * k.fld (Reg.SNS_CH_VOLT_SCALE_VOLT_SCALE c) * 16) 17592186044416)
  refine ⟨?_, ?_, ?_⟩
  · rw [hj, Stake.get48_congr (Stake.rd_wr_ne _ _ ?_) (Stake.rd_wr_ne _ _ ?_), Stake.get48_put48_same]
    all_goals simp only [Reg.SNS_CH_SAMPLE, Reg.SNS_CH_CENTRE]; omega
  · have hv : j.sfld (Reg.SNS_CH_VOLTS_VOLTS c) = (q.putI (Reg.SNS_CH_VOLTS_VOLTS c) (q.volts c (k.sampleOf c ct w))).sfld (Reg.SNS_CH_VOLTS_VOLTS c) := by
      refine congrArg (fun x => signOf 16 ((Reg.SNS_CH_VOLTS_VOLTS c).of x)) ?_
      rw [hj, Stake.rd_wr_ne, Stake.rd_put48_ne] <;>
        simp only [Reg.SNS_CH_VOLTS_VOLTS, Reg.SNS_CH_SAMPLE, Reg.SNS_CH_CENTRE] <;> omega
    rw [hv, hscale]
    exact Stake.sfld_putI_same _ _ _ (by simp [Reg.SNS_CH_VOLTS_VOLTS]) (by simp [Reg.SNS_CH_VOLTS_VOLTS]) hb.1 (Int.lt_add_one_of_le hb.2)
  · rw [hj]
    exact .wr (.put48 (.trans (.putB (.of_eq .refl rfl rfl) (by simp [chanRegs, Reg.SNS_CH_STATUS, Reg.SNS_CH_STATUS_OVERRANGE]))
      (Stake.regsKept_put _ _ (by simp [chanRegs, Reg.SNS_CH_VOLTS, Reg.SNS_CH_VOLTS_VOLTS]))) (by simp [chanRegs]) (by simp [chanRegs])) (by simp [chanRegs])

end Sys2Proof.Machine

namespace Sys2Proof.Machine
set_option Elab.async false

namespace Stake.Only
theorem rawStream_only (k : Stake) (c : Nat) (e : Word48) (w : Wave) : Only [.sns, .offers] k (k.rawStream c e w) :=
  .foldl (fun _ _ h => .ite (.onChan h) (.offer (.onChan h))) _ .refl
end Stake.Only

/-- The last edge before the output's is the one the sum of its window ends on. -/
theorem lastBefore (t : Word48) (n d : Nat) (hn : 0 < n) :
    t - BitVec.ofNat 48 ((3 * n + 1) / 2 * d) + BitVec.ofNat 48 (((3 * n + 1) / 2 - 1) * d) = t - BitVec.ofNat 48 d := by
  obtain ⟨m, hm⟩ : ∃ m, (3 * n + 1) / 2 = m + 1 := ⟨(3 * n + 1) / 2 - 1, by omega⟩
  rw [hm, Nat.add_sub_cancel, Nat.add_mul, Nat.one_mul, BitVec.ofNat_add]
  ring

/-- The instant an output speaks of, the centre of its window. -/
def Stake.outputCentre (k : Stake) (c : Nat) : Word48 := k.ang.tick - BitVec.ofNat 48 ((3 * k.osr c + 1) / 2 * k.mdiv (k.mclkOf c))

theorem sampleOf_output (k : Stake) (c : Nat) (w : Wave) : k.sampleOf c (k.outputCentre c) w =
    (k.correct c (sinc3 (k.osr c) (k.bitsTo c (3 * k.osr c) (k.ang.tick - BitVec.ofNat 48 (k.mdiv (k.mclkOf c))) w))).1 := by
  unfold Stake.sampleOf Stake.outputCentre
  rcases Nat.eq_zero_or_pos (k.osr c) with h | h
  · rw [h]; rfl
  · rw [lastBefore _ _ _ h]

/-- What follows the sample where the channel serves neither the resolver nor the DC link nor the chopper: its stream items alone. -/
def Stake.outputStream (k : Stake) (c : Nat) (e : Word48) (w : Wave) (o : Offer) : Stake :=
  if k.inForce (Reg.SNS_CH_CFG_STREAM_MODE c) = 2 then k.offer o
  else if k.inForce (Reg.SNS_CH_CFG_STREAM_MODE c) = 3 then k.rawStream c e w else k

theorem Stake.outputStream_only (k : Stake) (c : Nat) (e : Word48) (w : Wave) (o : Offer) :
    Only [.sns, .offers] k (k.outputStream c e w o) :=
  .ite (.offer .refl) (.ite (Stake.Only.rawStream_only _ _ _ _) .refl)

/-- A channel that serves no other unit: what reads its output then does nothing. -/
theorem Stake.output_noUnit {j : Stake} {c : Nat} (r y : Int) (ha : c ≠ j.inForce Reg.FLD_MAP_UDC_A) (hb : c ≠ j.inForce Reg.FLD_MAP_UDC_B)
    (hch : c ≠ j.inForce Reg.PLT_CHOP_CFG_CHOP_CH) (hr : j.posLive 0 = false) :
    (let k := (j.resolverOutput c r).udcOutput c
     if c = k.inForce Reg.PLT_CHOP_CFG_CHOP_CH then k.chopCurrent y else k) = j := by
  have h1 : j.resolverOutput c r = j := if_pos (by simp [hr])
  have h2 : j.udcOutput c = j := if_pos (by simp [ha, hb])
  rw [h1, h2]
  exact if_neg hch

theorem not_mem_chanRegs {c o : Nat} (hc : c < 16) (ho : o < 0x10100 ∨ 0x10500 ≤ o) : o ∉ chanRegs c := by
  simp only [chanRegs, Reg.SNS_CH_STATUS, Reg.SNS_CH_VOLTS, Reg.SNS_CH_SAMPLE, Reg.SNS_CH_CENTRE, List.mem_cons, List.not_mem_nil, or_false]
  omega

/-- The registers of a channel are none of the position unit's. -/
theorem Stake.regsKept.posLive {k j : Stake} {c : Nat} (h : k.regsKept j (chanRegs c)) (hc : c < 16) : j.posLive 0 = k.posLive 0 := by
  rw [Stake.posLive, Stake.posEn, h _ (not_mem_chanRegs hc (.inr (by decide))), h.flag (not_mem_chanRegs hc (.inr (by decide)))]
  rfl

theorem Stake.decimatorOutput_eq {k : Stake} {c : Nat} {w : Wave} (hm : k.mayOutput c = true)
    (ha : c ≠ k.inForce Reg.FLD_MAP_UDC_A) (hb : c ≠ k.inForce Reg.FLD_MAP_UDC_B) (hch : c ≠ k.inForce Reg.PLT_CHOP_CFG_CHOP_CH)
    (hr : k.posLive 0 = false) :
    ∃ e o, k.decimatorOutput c w = (k.newSample c w false (k.outputCentre c)).2.2.outputStream c e w o := by
  have hc : c < 16 := by
    simp only [Stake.mayOutput, Bool.and_eq_true, decide_eq_true_eq] at hm
    omega
  have hn := k.newSample_only c w false (k.outputCentre c)
  obtain ⟨_, _, hk⟩ := k.newSample_shown c w false (k.outputCentre c)
  refine ⟨k.ang.tick - BitVec.ofNat 48 (k.mdiv (k.mclkOf c)), {
    stream := (k.newSample c w false (k.outputCentre c)).2.2.inForce (Reg.SNS_CH_CFG_STREAM c), source := c, content := 2,
    words := [Machine.word (k.newSample c w false (k.outputCentre c)).1,
      (k.outputCentre c).toNat % 2 ^ 40 * 256 + (k.newSample c w false (k.outputCentre c)).2.1] }, ?_⟩
  unfold Stake.decimatorOutput
  rw [hm]
  generalize hs : (k.newSample c w false (k.outputCentre c)).2.2 = j at hn hk
  have hq : ∀ e o, Stake.Only [.sns, .regs, .offers] k (j.outputStream c e w o) :=
    fun e o => (hn.mono (by decide)).step (j.outputStream_only c e w o)
  have hf : ∀ e o f, (j.outputStream c e w o).inForce f = k.inForce f := fun e o f => Stake.inForce_congr (hq e o).act (hq e o).id f
  have hp : ∀ e o, (j.outputStream c e w o).posLive 0 = false := fun e o =>
    (hk.of_eq (j.outputStream_only c e w o).regs (j.outputStream_only c e w o).id).posLive hc |>.trans hr
  have h := fun e o => Stake.output_noUnit (j := j.outputStream c e w o) (c := c) (sinc3 (k.osr c) (k.bitsTo c (3 * k.osr c)
    (k.ang.tick - BitVec.ofNat 48 (k.mdiv (k.mclkOf c))) w)) (k.sampleOf c (k.outputCentre c) w) (by rw [hf]; exact ha) (by rw [hf]; exact hb)
    (by rw [hf]; exact hch) (hp e o)
  rw [← hs] at h ⊢
  exact h _ _

/-- Settles O16: the sample is shown (`newSample_shown`), and what follows it changes sensing and the stream items alone. -/
theorem decimatorShown : Obligations.DecimatorShown := by
  intro s n c wave hp hc hen hedge hnow hcen hun hfault ha hb hch hr
  refine ⟨_, rfl, s.onStake_elsewhere n _, ?_⟩
  rw [State.onStake_stake_same hp]
  generalize s.stake n = k at *
  obtain ⟨e, o, he⟩ := Stake.decimatorOutput_eq (k := k) (c := c) (w := wave)
    (by simp [Stake.mayOutput, hc, hen, hcen, hun, hfault, hedge, hnow]) ha hb hch hr
  obtain ⟨hs, hv, hk⟩ := k.newSample_shown c wave false (k.outputCentre c)
  have hn := k.newSample_only c wave false (k.outputCentre c)
  rw [sampleOf_output] at hs hv
  rw [he]
  generalize (k.newSample c wave false (k.outputCentre c)).2.2 = j at hs hv hk hn
  have hj := j.outputStream_only c e wave o
  have hrd : ∀ a, (j.outputStream c e wave o).rd a = j.rd a := Stake.rd_congr hj.regs hj.id
  refine ⟨?_, ?_, fun a ha => (hrd a).trans (hk a ha), ?_⟩
  · rw [Stake.get48_congr (hrd _) (hrd _)]; exact hs
  · rw [Stake.sfld, Stake.fld, hrd]; exact hv
  · have h3 : Stake.Only [.sns, .regs, .offers] k (j.outputStream c e wave o) := (hn.mono (by decide)).step hj
    exact h3.eq_copy

end Sys2Proof.Machine

/-! The fast path looks only at clocks for which the channel has taken bits (log 176): a channel that starts later does not trip. -/
namespace Sys2Proof.Machine
set_option Elab.async false

/-- A field of a stake set, and in force. -/
def Stake.putInForce (k : Stake) (f : Fld) (v : Nat) : Stake := (k.put f v).wrAct f.off ((k.put f v).rd f.off)

/-- Channel 2 of stake 0 with its fast path on and its clock running, but its first bit (`fillFrom`) still to come. -/
def unfilledFast : State := State.reset.onStake 0 fun k =>
  ((([(Reg.SNS_CTRL_EN, 1), (Reg.SNS_MCLK_EN 0, 1), (Reg.SNS_MCLK_DIV 0, 20), (Reg.SNS_CH_CFG_EN 2, 1), (Reg.SNS_CH_CFG_FAST_EN 2, 1),
    (Reg.SNS_CH_CFG_FAST_OSR 2, 8), (Reg.SNS_CH_CFG_FAST_N 2, 2), (Reg.SNS_CH_FAST_THR_HI 2, 100)].foldl (fun (q : Stake) x => q.putInForce x.1 x.2)
      { k with now := 1000000 }).onAng fun a => { a with tick := 1000000 })).onChan 2 fun x => { x with fillFrom := 2000000 }

theorem unfilledFast_holds : ∀ i, i < max 1 ((unfilledFast.stake 0).inForce (Reg.SNS_CH_CFG_FAST_N 2)) →
    let k := unfilledFast.stake 0
    let bits := k.bitsTo 2 (2 * k.inForce (Reg.SNS_CH_CFG_FAST_OSR 2) + max 1 (k.inForce (Reg.SNS_CH_CFG_FAST_N 2)) - 1) (k.lastEdge 2) [(0, true)]
    k.fastNow (Reg.SNS_CH_FAST_THR_HI 2) <
      sinc2 (k.inForce (Reg.SNS_CH_CFG_FAST_OSR 2)) (bits.take (bits.length - i)) - k.fastNow (Reg.SNS_CH_FAST_OFS_FAST_OFS 2) := by
  decide +kernel

/-- It does not trip. -/
theorem unfilledFast_flag :
    ∀ t, exec (.fastPathTrip 0 2 true [(0, true)]) unfilledFast = .next t → (t.stake 0).flag (Reg.SNS_CH_STATUS_FAST_HI 2) = false := by
  intro t ht
  have h : (match exec (.fastPathTrip 0 2 true [(0, true)]) unfilledFast with
    | .next t => (t.stake 0).flag (Reg.SNS_CH_STATUS_FAST_HI 2)
    | _ => true) = false := by decide +kernel
  rw [ht] at h
  exact h

/-- Refutes O17: with all that its first clause asks for, a channel whose filter has not begun to take bits does not trip. -/
theorem not_channelConditions : ¬ Obligations.ChannelConditions := by
  intro h
  obtain ⟨t, ht, _, hflag, _⟩ := h.1 unfilledFast 0 2 true [(0, true)] (by decide +kernel) (by decide) (by decide +kernel) (by decide +kernel)
    (by decide +kernel) (by decide +kernel) (by decide +kernel) (by decide +kernel) (by decide +kernel) unfilledFast_holds
  rw [if_pos rfl, unfilledFast_flag t ht] at hflag
  exact absurd hflag (by decide)

end Sys2Proof.Machine

/-! The commit of corrections (R83) and the sensing APPLY (R94); a write of a stake's register that passes its checks. -/
namespace Sys2Proof.Machine
set_option Elab.async false

theorem State.present_of_takesFrom {s : State} {src : Src} {n : Nat} (h : s.takesFrom src n = true) : s.present n = true := by
  simp only [State.takesFrom, Bool.and_eq_true] at h
  exact State.present_of_alive h.1

/-- A write that passes its checks takes effect on the stake. -/
theorem State.stakeWrite_of_admits {s : State} {src : Src} {n off : Nat} {w : Reg32} (h : s.admits src n off w) (f : Stake → Stake) :
    s.stakeWrite src n off w f = s.onStake n f := by
  obtain ⟨ht, hl, hr⟩ := h
  unfold State.stakeWrite
  rw [ht, hl]
  simp only [Bool.not_true, Bool.false_eq_true, if_false]
  split
  · next r hreg => rw [if_pos (hr r hreg)]
  · rfl

theorem State.admits.present {s : State} {src : Src} {n off : Nat} {w : Reg32} (h : s.admits src n off w) : s.present n = true :=
  State.present_of_takesFrom h.1

/-- The command of such a write: what holds of the stake under its effect. -/
theorem exec_stakeWrite {s : State} {src : Src} {n off : Nat} {w : Reg32} (h : s.admits src n off w) (f : Stake → Stake) :
    ∃ t, Host.Outcome.next (s.stakeWrite src n off w f) = (.next t : Host.Outcome State Fault Refusal) ∧ s.elsewhere t n ∧
      t.stake n = f (s.stake n) := by
  rw [State.stakeWrite_of_admits h]
  exact ⟨_, rfl, s.onStake_elsewhere n f, State.onStake_stake_same h.present f⟩

theorem Stake.store_regsKept (k : Stake) (off : Nat) (w : BitVec 32) : k.regsKept (k.store off w) [off] := by
  unfold Stake.store
  split
  · exact k.regsKept_wr _ (List.mem_singleton_self _)
  · exact .refl

namespace Stake.Only
variable {l : List StakePart} {k j : Stake}

theorem store_only (k : Stake) (off : Nat) (w : BitVec 32) : Only [.regs] k (k.store off w) := by
  unfold Stake.store
  split
  · exact .wr .refl
  · exact .refl
theorem store {off : Nat} {w : BitVec 32} (h : Only l k j) (hl : [.regs] ⊆ l := by decide) : Only l k (j.store off w) :=
  h.step (store_only j off w) hl

theorem refill_only (k : Stake) (c t : Nat) : Only [.sns, .regs] k (k.refill c t) := .onChan (.put (.putB .refl))

end Stake.Only

/-! Registers put in force. -/

/-- A register is in force as staged. -/
def Stake.applied (k j : Stake) (off : Nat) : Prop := j.rdAct off = k.rd off

theorem Stake.applied.of_only {k j i : Stake} {off : Nat} (h : k.applied j off) (ho : Stake.Only [.sns, .regs] j i) : k.applied i off := by
  have h1 : i.rdAct off = j.rdAct off := by rw [Stake.rdAct, ho.act, ho.id]; rfl
  exact h1.trans h

/-- A range put in force covers its own registers and keeps those put in force before. -/
theorem Stake.applied.applyRange {k : Stake} {j : Stake} {lo hi off : Nat} (hr : ∀ o, j.rd o = k.rd o)
    (h : (lo ≤ off ∧ off < hi) ∨ k.applied j off) : k.applied (j.applyRange lo hi) off := by
  rw [Stake.applied, Stake.rdAct_applyRange]
  split
  · exact hr off
  · next hn => exact h.resolve_left hn

theorem applied_foldl {k : Stake} {off : Nat} (l : List Nat) (j : Stake) (hr : ∀ o, j.rd o = k.rd o)
    (h : k.applied j off ∨ ∃ c ∈ l, off = Reg.SNS_CH_CFG c) :
    k.applied (l.foldl (fun q c => q.applyRange (Reg.SNS_CH_CFG c) (Reg.SNS_CH_CFG c + 4)) j) off := by
  induction l generalizing j with
  | nil => exact h.resolve_right fun ⟨_, hc, _⟩ => List.not_mem_nil hc
  | cons c l ih =>
    refine ih _ (fun o => (Stake.rd_congr rfl rfl o).trans (hr o)) ?_
    rcases h with h | ⟨d, hd, he⟩
    · exact .inl (.applyRange hr (.inr h))
    · rcases List.mem_cons.1 hd with rfl | hd
      · exact .inl (.applyRange hr (.inl ⟨he.ge, by omega⟩))
      · exact .inr ⟨d, hd, he⟩

/-- The registers the sensing APPLY puts in force (R94). -/
def snsApplied (off : Nat) : Prop := (0x10010 ≤ off ∧ off < 0x10034) ∨ off = Reg.SNS_PLAUS_MAP ∨ ∃ c, c < 16 ∧ off = Reg.SNS_CH_CFG c

theorem Stake.snsApply_applied {k : Stake} (ha : k.axisIn [axOff, axSafe, axTest] = true) (hm : k.snsMixed = false) {off : Nat}
    (ho : snsApplied off) : k.applied k.snsApply off := by
  unfold Stake.snsApply
  rw [ha, hm]
  simp only [Bool.not_true, Bool.or_self, Bool.false_eq_true, if_false]
  have h1 : k.applied (k.applyRange 0x10010 0x10034) off ∨ ¬ (0x10010 ≤ off ∧ off < 0x10034) := by
    by_cases hc : 0x10010 ≤ off ∧ off < 0x10034
    · exact .inl (.applyRange (fun _ => rfl) (.inl hc))
    · exact .inr hc
  have h2 : k.applied ((k.applyRange 0x10010 0x10034).applyRange 0x1003C 0x10040) off ∨ ∃ c ∈ List.range 16, off = Reg.SNS_CH_CFG c := by
    rcases ho with ho | ho | ⟨c, hc, he⟩
    · exact .inl (.applyRange (fun _ => rfl) (.inr (h1.resolve_right fun h => h ho)))
    · exact .inl (.applyRange (fun _ => rfl) (.inl ⟨by rw [ho]; decide, by rw [ho]; decide⟩))
    · exact .inr ⟨c, List.mem_range.2 hc, he⟩
  refine (applied_foldl (List.range 16) _ (fun _ => rfl) h2).of_only (.putB (.foldl (fun j a h => .onChan (.ite ?_ h)) _ (.onSns .refl)))
  exact h.step (Stake.Only.refill_only _ _ _)

theorem Stake.snsApply_refused {k : Stake} (h : k.axisIn [axOff, axSafe, axTest] = false ∨ k.snsMixed = true) :
    k.snsApply = (k.putB Reg.SNS_STATUS_CFG_REFUSED true).post .snsCfgRefused 0 :=
  if_pos (by simpa using h)

/-- What the guard of the sensing APPLY looks at lies outside `SNS_CTRL`. -/
theorem snsGuard_store (k : Stake) (w : Reg32) :
    (k.store Reg.SNS_CTRL w).axisIn [axOff, axSafe, axTest] = k.axisIn [axOff, axSafe, axTest] ∧
      (k.store Reg.SNS_CTRL w).snsMixed = k.snsMixed := by
  have hk := k.store_regsKept Reg.SNS_CTRL w
  have hf : ∀ f : Fld, f.off ≠ Reg.SNS_CTRL → (k.store Reg.SNS_CTRL w).fld f = k.fld f := fun f h => hk.fld (by simpa using h)
  refine ⟨?_, ?_⟩
  · rw [Stake.axisIn, Stake.axis, hf _ (by decide)]
    rfl
  · have h1 : ∀ c, (k.store Reg.SNS_CTRL w).fld (Reg.SNS_CH_CFG_MCLK c) = k.fld (Reg.SNS_CH_CFG_MCLK c) := fun c =>
      hf _ (by simp [Reg.SNS_CH_CFG_MCLK, Reg.SNS_CTRL]; omega)
    have h2 : ∀ c, (k.store Reg.SNS_CTRL w).fld (Reg.SNS_CH_CFG_GROUP c) = k.fld (Reg.SNS_CH_CFG_GROUP c) := fun c =>
      hf _ (by simp [Reg.SNS_CH_CFG_GROUP, Reg.SNS_CTRL]; omega)
    have h3 : ∀ m, (k.store Reg.SNS_CTRL w).fld (Reg.SNS_MCLK_DIV m) = k.fld (Reg.SNS_MCLK_DIV m) := fun m =>
      hf _ (by simp [Reg.SNS_MCLK_DIV, Reg.SNS_CTRL]; omega)
    have h4 : ∀ m, (k.store Reg.SNS_CTRL w).fld (Reg.SNS_MCLK_PHASE m) = k.fld (Reg.SNS_MCLK_PHASE m) := fun m =>
      hf _ (by simp [Reg.SNS_MCLK_PHASE, Reg.SNS_CTRL]; omega)
    simp only [Stake.snsMixed, h1, h2, h3, h4]

/-- Settles O18: the commit waits for the next tick; APPLY puts the ranges in force (`snsApply_applied`) or is refused. -/
theorem sensingCommits : Obligations.SensingCommits := by
  refine ⟨fun s n c src w h hc hw => ?_, fun s n src w h hw => ⟨fun ha hm => ?_, fun hr => ?_⟩⟩
  · obtain ⟨t, ht, he, hs⟩ := exec_stakeWrite h fun k => if w.getLsbD 0 && c < 16 then
        k.onSns fun x => { x with corrNext := x.corrNext ++ [(c, k.get48 (Reg.SNS_CH_GAIN c), k.get48 (Reg.SNS_CH_OFFSET c))] } else k
    exact ⟨t, ht, he, by rw [hs, if_pos (by simp [hw, hc])]; rfl⟩
  all_goals
    obtain ⟨t, ht, he, hs⟩ := exec_stakeWrite h fun k => if w.getLsbD 0 then k.wSnsCtrl w else k
    refine ⟨t, ht, he, ?_⟩
    rw [hs, if_pos hw, Stake.wSnsCtrl, if_pos hw]
    obtain ⟨hga, hgm⟩ := snsGuard_store (s.stake n) w
  · intro off ho
    refine (Stake.snsApply_applied (hga.trans ha) (hgm.trans hm) ho).trans ((s.stake n).store_regsKept Reg.SNS_CTRL w off ?_)
    simp only [List.mem_singleton, Reg.SNS_PLAUS_MAP, Reg.SNS_CH_CFG, Reg.SNS_CTRL] at ho ⊢
    omega
  · rw [Stake.snsApply_refused (by rwa [hga, hgm])]
    have hq : Stake.Only [.regs] (s.stake n) (((s.stake n).store Reg.SNS_CTRL w).putB Reg.SNS_STATUS_CFG_REFUSED true) := .putB (.store .refl)
    refine ⟨?_, ?_, Stake.posted_of_eq hq.out hq.id (by rw [hq.ang]) (Stake.post_posted _ _ _ _), ?_⟩
    · exact (Stake.post_act ..).trans hq.act
    · rw [Stake.flag, Stake.fld_post_zero]
      exact Stake.flag_putB_same _ _ _ (by decide) rfl
    · exact .post_zero (.putB (((s.stake n).store_regsKept _ _).mono (by simp)) (by decide))

end Sys2Proof.Machine

/-! Which registers the shared operations write. -/
namespace Sys2Proof.Machine
set_option Elab.async false
namespace Stake.regsKept
variable {k j : Stake} {l : List Nat}

theorem putI {f : Fld} {v : Int} (h : k.regsKept j l) (hf : f.off ∈ l) : k.regsKept (j.putI f v) l := h.put hf
theorem emit {e : Ev} {c : Nat} {v : List Nat} {fl : Nat} (h : k.regsKept j l) : k.regsKept (j.emit e c v fl) l := h
theorem trip {c : Nat} {p : Option Nat} (h : k.regsKept j l) : k.regsKept (j.trip c p) l := h
theorem onAng {f : AngState → AngState} (h : k.regsKept j l) : k.regsKept (j.onAng f) l := h
theorem onClock {c : Nat} {f : Clock → Clock} (h : k.regsKept j l) : k.regsKept (j.onClock c f) l := h
theorem onEntry {e : Nat} {f : Entry → Entry} (h : k.regsKept j l) : k.regsKept (j.onEntry e f) l := h
theorem onSns {f : SnsState → SnsState} (h : k.regsKept j l) : k.regsKept (j.onSns f) l := h
theorem onChan {c : Nat} {f : SnsChan → SnsChan} (h : k.regsKept j l) : k.regsKept (j.onChan c f) l := h
theorem onGroup {c : Nat} {f : SnsGroup → SnsGroup} (h : k.regsKept j l) : k.regsKept (j.onGroup c f) l := h
theorem onPos {f : PosState → PosState} (h : k.regsKept j l) : k.regsKept (j.onPos f) l := h
theorem onEdges {s : Nat} {f : EdgeState → EdgeState} (h : k.regsKept j l) : k.regsKept (j.onEdges s f) l := h
theorem onFe {f : FldState → FldState} (h : k.regsKept j l) : k.regsKept (j.onFe f) l := h
theorem onMod {f : ModState → ModState} (h : k.regsKept j l) : k.regsKept (j.onMod f) l := h
theorem onPort {p : Nat} {f : ModPort → ModPort} (h : k.regsKept j l) : k.regsKept (j.onPort p f) l := h
theorem onLeg {p : Nat} {f : LegPort → LegPort} (h : k.regsKept j l) : k.regsKept (j.onLeg p f) l := h
theorem onPair {f : PairState → PairState} (h : k.regsKept j l) : k.regsKept (j.onPair f) l := h
theorem onPrt {f : PrtState → PrtState} (h : k.regsKept j l) : k.regsKept (j.onPrt f) l := h
theorem onVote {f : VoteState → VoteState} (h : k.regsKept j l) : k.regsKept (j.onVote f) l := h
theorem onStrm {i : Nat} {f : Strm → Strm} (h : k.regsKept j l) : k.regsKept (j.onStrm i f) l := h
theorem onThm {i : Nat} {f : ThmSt → ThmSt} (h : k.regsKept j l) : k.regsKept (j.onThm i f) l := h
theorem offer {o : Offer} (h : k.regsKept j l) : k.regsKept (j.offer o) l := h
theorem complete {c : Completion} (h : k.regsKept j l) : k.regsKept (j.complete c) l := h
theorem hold {t : PlaitTask} (h : k.regsKept j l) : k.regsKept (j.hold t) l := h
theorem pendEntry {p : PendEntry} (h : k.regsKept j l) : k.regsKept (j.pendEntry p) l := h
theorem applyRange {a b : Nat} (h : k.regsKept j l) : k.regsKept (j.applyRange a b) l := h
theorem wrAct {o : Nat} {v : BitVec 32} (h : k.regsKept j l) : k.regsKept (j.wrAct o v) l := h
theorem onDir {d : Dir} {f : WalDir → WalDir} (h : k.regsKept j l) : k.regsKept (j.onDir d f) l := by cases d <;> exact h
theorem sendCell {c : Cell} (h : k.regsKept j l) : k.regsKept (j.sendCell c) l := h.onDir
theorem store {off : Nat} {w : BitVec 32} (h : k.regsKept j l) (hf : off ∈ l) : k.regsKept (j.store off w) l :=
  h.trans ((j.store_regsKept off w).mono (fun _ h => by rw [List.mem_singleton.1 h]; exact hf))
theorem foldl {α : Type} {f : Stake → α → Stake} (hf : ∀ j a, k.regsKept j l → k.regsKept (f j a) l) (m : List α) (h : k.regsKept j l) :
    k.regsKept (m.foldl f j) l := by
  induction m generalizing j with
  | nil => exact h
  | cons a m ih => exact ih (hf j a h)
theorem flag_eq {f : Fld} (h : k.regsKept j l) (hf : f.off ∉ l) : j.flag f = k.flag f := h.flag hf
theorem get48 {off : Nat} (h : k.regsKept j l) (ho : off ∉ l) (ho' : off + 4 ∉ l) : j.get48 off = k.get48 off :=
  Stake.get48_congr (h off ho) (h _ ho')

end Stake.regsKept

/-- The registers that bringing the carrier back writes (R189). -/
def syncRegs : List Nat := [Reg.MOD_STATUS, Reg.MOD_TRIG_SKIP_CNT, Reg.PLT_ACTIVE, Reg.PLT_AXIS_STATE]

namespace Stake.regsKept
variable {k j : Stake} {l : List Nat}

theorem setAxis {st sub : Nat} (h : k.regsKept j l) (hl : axisRegs ⊆ l) : k.regsKept (j.setAxis st sub) l :=
  h.trans ((j.setAxis_regsKept st sub).mono hl)
theorem updDerate (h : k.regsKept j l) (hl : axisRegs ⊆ l) : k.regsKept j.updDerate l := h.trans (j.updDerate_regsKept.mono hl)

theorem setEpoch {st : Nat} (h : k.regsKept j l) (hl : Reg.MOD_STATUS ∈ l) : k.regsKept (j.setEpoch st) l :=
  .ite (.post_zero (.put h hl)) (.ite (.post_zero (.put h hl)) (.put h hl))
theorem addTriggers {a b : Word48} {v : Bool} {x : Int} (h : k.regsKept j l) (hl : Reg.MOD_TRIG_SKIP_CNT ∈ l) :
    k.regsKept (j.addTriggers a b v x) l :=
  .foldl (fun _ _ h => .ite h (.ite (.bump h hl) (.ite h (.onMod h)))) _ h
theorem restartCarrier {a : Word48} {v : Bool} (h : k.regsKept j l) (hs : Reg.MOD_STATUS ∈ l) (ht : Reg.MOD_TRIG_SKIP_CNT ∈ l) :
    k.regsKept (j.restartCarrier a v) l := .addTriggers (.ite (.setEpoch (.onMod h) hs) (.onMod h)) ht
theorem dropCommitted {x : Nat} (h : k.regsKept j l) : k.regsKept (j.dropCommitted x) l := .foldl (fun _ _ h => .onMod h) _ (.onPort h)
theorem forceCarrier {cls cause : Nat} (h : k.regsKept j l) (hl : syncRegs ⊆ l) : k.regsKept (j.forceCarrier cls cause) l := by
  have hs : Reg.MOD_STATUS ∈ l := hl (by decide)
  exact .post (.putB (.put (.put (.restartCarrier (.put (.put (.onMod (.foldl (fun _ _ h => .dropCommitted h) _ h)) hs) hs) hs
    (hl (by decide))) hs) hs) hs) fun _ h => hl (List.mem_of_mem_drop (i := 2) h)
theorem syncAbort (h : k.regsKept j l) (hl : syncRegs ⊆ l) : k.regsKept j.syncAbort l := .ite h (.forceCarrier h hl)
theorem srcLost {s : Nat} (h : k.regsKept j l) : k.regsKept (j.srcLost s) l := .foldl (fun _ _ h => .ite (.onClock h) h) _ h
theorem deliver {s : Nat} {m : Meas} (h : k.regsKept j l) : k.regsKept (j.deliver s m) l := .foldl (fun _ _ h => .ite (.onClock h) h) _ h
theorem loseSource {s : Nat} (h : k.regsKept j l) (hl : syncRegs ⊆ l) : k.regsKept (j.loseSource s) l :=
  .ite (.syncAbort (.srcLost h) hl) (.srcLost h)

end Stake.regsKept
end Sys2Proof.Machine

/-! The shared operations of the position interface: what they write and what they leave (R100, R101, R120, R124). -/
namespace Sys2Proof.Machine
set_option Elab.async false

/-- The registers that a measurement of a source shows itself in. -/
def measRegs (s : Nat) : List Nat :=
  [Reg.POS_SRC_ANGLE s, Reg.POS_SRC_ANGLE s + 4, Reg.POS_SRC_SPEED s, Reg.POS_SRC_SPEED s + 4, Reg.POS_TURNS, Reg.POS_TURN_STATUS]

namespace Stake.regsKept
variable {k j : Stake} {l : List Nat}

theorem directionIrq {s : Nat} (h : k.regsKept j l) : k.regsKept (j.directionIrq s) l := .ite (.hold h) (.onAng h)
theorem posToggle {s : Nat} {r : Bool} (h : k.regsKept j l) (hl : Reg.POS_SRC_STATUS s ∈ l) : k.regsKept (j.posToggle s r) l :=
  .ite h (.post_zero (.directionIrq (.putB (.putB h hl) hl)))
theorem dirHyst {s : Nat} {v : Int} (h : k.regsKept j l) (hl : Reg.POS_SRC_STATUS s ∈ l) : k.regsKept (j.dirHyst s v) l :=
  .ite (.posToggle h hl) (.ite (.posToggle h hl) h)
theorem countTurn {s : Nat} {m : Word48} (h : k.regsKept j l) (ht : Reg.POS_TURNS ∈ l) (hs : Reg.POS_TURN_STATUS ∈ l) :
    k.regsKept (j.countTurn s m) l :=
  .ite h (.onPos (.ite (.wr (.ite (.putB h hs) h) ht) (.ite (.wr (.ite (.putB h hs) h) ht) h)))
theorem turnBack (h : k.regsKept j l) (ht : Reg.POS_TURNS ∈ l) (hs : Reg.POS_TURN_STATUS ∈ l) : k.regsKept j.turnBack l :=
  .onPos (.putB (.wr h ht) hs)
theorem edgeIn {s : Nat} {r : Bool} {st : Word48} {t : Nat} {a : Word48} (h : k.regsKept j l) (hl : Reg.POS_SRC_STATUS s ∈ l) :
    k.regsKept (j.edgeIn s r st t a) l := .onEdges (.posToggle (.put h hl) hl)
theorem posLost {s : Nat} (h : k.regsKept j l) (hl : Reg.POS_SRC_STATUS s :: syncRegs ⊆ l) : k.regsKept (j.posLost s) l := by
  have h' := Stake.regsKept.loseSource (s := s) (.put (f := Reg.POS_SRC_STATUS_QUAL s) (v := 0)
    (.putB (f := Reg.POS_SRC_STATUS_VALID s) (b := false) h (hl List.mem_cons_self)) (hl List.mem_cons_self))
    fun _ hm => hl (List.mem_cons_of_mem _ hm)
  exact .ite (.onPos h') h'
theorem posFault {s kind : Nat} {v : List Nat} (h : k.regsKept j l) (hl : Reg.POS_SRC_STATUS s :: syncRegs ⊆ l) :
    k.regsKept (j.posFault s kind v) l :=
  .ite h (.post (.posLost (.put (.putB h (hl List.mem_cons_self)) (hl List.mem_cons_self)) hl)
    fun _ hm => hl (List.mem_cons_of_mem _ (List.mem_of_mem_drop (i := 2) hm)))
theorem edgeFault {s : Nat} (h : k.regsKept j l) (hl : Reg.POS_SRC_STATUS s :: syncRegs ⊆ l) : k.regsKept (j.edgeFault s) l :=
  .ite h (.ite (.posFault (.onEdges h) hl) (.onEdges h))


end Stake.regsKept

section
variable (k : Stake)

/-- A measurement is shown; afterwards only the turn counter is written. -/
theorem Stake.measure_shown (s : Nat) (a t : Word48) (v : Int) :
    ((k.put48 (Reg.POS_SRC_ANGLE s) (a + BitVec.ofNat 48 (k.fld (Reg.POS_SRC_OFFSET_OFFSET s) * 4294967296))).put48
      (Reg.POS_SRC_SPEED s) (w48 v)).regsKept (k.measure s a t v) [Reg.POS_TURNS, Reg.POS_TURN_STATUS] := by
  unfold Stake.measure
  extract_lets m q again q1 q2 q3
  have ht : Reg.POS_TURNS ∈ [Reg.POS_TURNS, Reg.POS_TURN_STATUS] := by decide
  have hw : Reg.POS_TURN_STATUS ∈ [Reg.POS_TURNS, Reg.POS_TURN_STATUS] := by decide
  have h1 : q.regsKept q1 [Reg.POS_TURNS, Reg.POS_TURN_STATUS] := .ite (.foldl (fun _ _ h => .ite (.onClock h) h) _ .refl) .refl
  have h2 : q.regsKept q2 [Reg.POS_TURNS, Reg.POS_TURN_STATUS] := .ite h1 (.ite (.turnBack h1 ht hw) (.onPos h1))
  exact .ite .refl (.countTurn (.deliver (.onPos h2)) ht hw)

theorem Stake.measure_regsKept (s : Nat) (a t : Word48) (v : Int) : k.regsKept (k.measure s a t v) (measRegs s) := by
  refine .trans (.put48 (.put48 .refl ?_ ?_) ?_ ?_) ((k.measure_shown s a t v).mono ?_) <;> simp [measRegs]

/-- R100: the angle shown of a source is its measurement's, behind `OFFSET`. -/
theorem Stake.measure_angle {s : Nat} (hs : s < 4) (a t : Word48) (v : Int) : (k.measure s a t v).get48 (Reg.POS_SRC_ANGLE s) =
    a + BitVec.ofNat 48 (k.fld (Reg.POS_SRC_OFFSET_OFFSET s) * 4294967296) := by
  have h := k.measure_shown s a t v
  have h' : ∀ (q : Stake) (w : Word48), (q.put48 (Reg.POS_SRC_SPEED s) w).get48 (Reg.POS_SRC_ANGLE s) = q.get48 (Reg.POS_SRC_ANGLE s) := by
    intro q w
    refine (Stake.regsKept.put48 (k := q) .refl (l := [Reg.POS_SRC_SPEED s, Reg.POS_SRC_SPEED s + 4]) ?_ ?_).get48 ?_ ?_ <;>
      simp [Reg.POS_SRC_SPEED, Reg.POS_SRC_ANGLE] <;> omega
  rw [h.get48, h', Stake.get48_put48_same] <;> simp [Reg.POS_SRC_ANGLE, Reg.POS_TURNS, Reg.POS_TURN_STATUS] <;> omega

/-- R100: the speed shown of a source is its measurement's. -/
theorem Stake.measure_speed {s : Nat} (hs : s < 4) (a t : Word48) (v : Int) : (k.measure s a t v).get48 (Reg.POS_SRC_SPEED s) = w48 v := by
  rw [(k.measure_shown s a t v).get48, Stake.get48_put48_same] <;>
    simp [Reg.POS_SRC_SPEED, Reg.POS_TURNS, Reg.POS_TURN_STATUS] <;> omega

end

theorem Stake.regsKept.measure {k j : Stake} {l : List Nat} {s : Nat} {a t : Word48} {v : Int} (h : k.regsKept j l) (hl : measRegs s ⊆ l) :
    k.regsKept (j.measure s a t v) l := h.trans ((j.measure_regsKept s a t v).mono hl)

/-- What the position state holds beside the measurements handed on and the turn counter's (R123, R124). -/
def PosState.noTurns (p : PosState) : PosState := { p with sentAt := [], turnLast := none, turnWas := (none, 0, false) }

/-- Of the position state, at most what handing on and counting turns change has changed. -/
def Stake.sourcesKept (k j : Stake) : Prop := j.pos.noTurns = k.pos.noTurns

namespace Stake.sourcesKept
variable {k j i : Stake}

theorem refl : k.sourcesKept k := rfl
theorem trans (h : k.sourcesKept j) (h' : j.sourcesKept i) : k.sourcesKept i := Eq.trans h' h
theorem ite {p : Prop} [Decidable p] (h : k.sourcesKept j) (h' : k.sourcesKept i) : k.sourcesKept (if p then j else i) := by
  split <;> assumption
theorem only {l : List StakePart} (h : k.sourcesKept j) (ho : Stake.Only l j i) (hl : StakePart.pos ∉ l := by decide) : k.sourcesKept i :=
  (congrArg PosState.noTurns (ho.pos hl)).trans h
theorem onPos {f : PosState → PosState} (h : k.sourcesKept j) (hf : ∀ p, (f p).noTurns = p.noTurns) : k.sourcesKept (j.onPos f) :=
  Eq.trans (hf j.pos) h

/-- What does not look at handing on and turns is as before. -/
theorem get {β : Type} (h : k.sourcesKept j) (g : PosState → β) (hg : ∀ p, g p.noTurns = g p) : g j.pos = g k.pos := by
  rw [← hg j.pos, ← hg k.pos, h]

theorem turnBack (h : k.sourcesKept j) : k.sourcesKept j.turnBack := by
  have ho : Stake.Only [.regs] j ((j.wr Reg.POS_TURNS j.pos.turnWas.2.1).putB Reg.POS_TURN_STATUS_WRAP j.pos.turnWas.2.2) := .putB (.wr .refl)
  exact .onPos (h.only ho) fun _ => rfl

theorem countTurn {s : Nat} {m : Word48} (h : k.sourcesKept j) : k.sourcesKept (j.countTurn s m) := by
  unfold Stake.countTurn
  extract_lets q was v j'
  have ho : Stake.Only [.regs] j j' := .ite (.wr (.ite (.putB .refl) .refl)) (.ite (.wr (.ite (.putB .refl) .refl)) .refl)
  exact .ite h (.onPos (h.only ho) fun _ => rfl)

theorem measure {s : Nat} {a t : Word48} {v : Int} (h : k.sourcesKept j) : k.sourcesKept (j.measure s a t v) := by
  unfold Stake.measure
  extract_lets m q again q1 q2 q3
  have hq : k.sourcesKept q := h.only (l := [.regs]) (.put48 (.put48 .refl))
  have ho : Stake.Only [.ang] q q1 := .ite (.foldl (fun _ _ h => .ite (.onClock h) h) _ .refl) .refl
  have h1 : k.sourcesKept q1 := hq.only ho
  have h2 : k.sourcesKept q2 := .ite h1 (.ite h1.turnBack (.onPos h1 fun _ => rfl))
  have h3 : k.sourcesKept q3 := .onPos h2 fun _ => rfl
  exact .ite hq (.countTurn (.only h3 (Stake.Only.deliver_only _ _ _)))

theorem posLost {s : Nat} (h : k.sourcesKept j) : k.sourcesKept (j.posLost s) := by
  unfold Stake.posLost
  extract_lets q
  have hq : k.sourcesKept q := (show k.sourcesKept ((j.putB (Reg.POS_SRC_STATUS_VALID s) false).put (Reg.POS_SRC_STATUS_QUAL s) 0) from h).only
    (Stake.Only.loseSource_only _ s)
  exact .ite (.onPos hq fun _ => rfl) hq

theorem posFault {s kind : Nat} {v : List Nat} (h : k.sourcesKept j) : k.sourcesKept (j.posFault s kind v) := by
  have h' : k.sourcesKept ((j.putB (Reg.POS_SRC_STATUS_FAULTED s) true).put (Reg.POS_SRC_STATUS_KIND s) kind) := h
  exact .ite h (.only (.posLost h') (Stake.Only.post_only _ _ _ _))

end Stake.sourcesKept

/-- R111, R115: a fault of an edge source changes of the sources' state the edge times of that source. -/
theorem Stake.edgeFault_sources (k : Stake) (s : Nat) : ∃ f, (k.onEdges s f).sourcesKept (k.edgeFault s) := by
  unfold Stake.edgeFault
  split
  · refine ⟨fun e => e, ?_⟩
    unfold Stake.onEdges Stake.sourcesKept Stake.onPos
    split <;> rfl
  · exact ⟨_, .ite (.posFault .refl) .refl⟩


namespace Stake.Only
variable {l : List StakePart} {k j : Stake}

theorem posToggle {s : Nat} {r : Bool} (h : Only l k j) (hl : [.regs, .out, .prt, .ang, .vote] ⊆ l := by decide) :
    Only l k (j.posToggle s r) := by
  have h' : Only [.regs, .out, .prt, .ang, .vote] j (j.posToggle s r) :=
    .ite .refl (.post (.ite (.hold (.putB (.putB .refl))) (.onAng (.putB (.putB .refl)))))
  exact h.step h' hl

theorem dirHyst {s : Nat} {v : Int} (h : Only l k j) (hl : [.regs, .out, .prt, .ang, .vote] ⊆ l := by decide) : Only l k (j.dirHyst s v) :=
  .ite (.posToggle h hl) (.ite (.posToggle h hl) h)

theorem onEdges {s : Nat} {f : EdgeState → EdgeState} (h : Only l k j) (hf : StakePart.pos ∈ l := by decide) : Only l k (j.onEdges s f) :=
  .onPos h hf

theorem edgeIn {s : Nat} {r : Bool} {st : Word48} {t : Nat} {a : Word48} (h : Only l k j)
    (hl : [.regs, .out, .prt, .ang, .vote, .pos] ⊆ l := by decide) : Only l k (j.edgeIn s r st t a) := by
  have h' : Only [.regs, .out, .prt, .ang, .vote, .pos] j (j.edgeIn s r st t a) := .onEdges (.posToggle (.put .refl))
  exact h.step h' hl

theorem countTurn {s : Nat} {m : Word48} (h : Only l k j) (hl : [.regs, .pos] ⊆ l := by decide) : Only l k (j.countTurn s m) := by
  have h' : Only [.regs, .pos] j (j.countTurn s m) :=
    .ite .refl (.onPos (.ite (.wr (.ite (.putB .refl) .refl)) (.ite (.wr (.ite (.putB .refl) .refl)) .refl)))
  exact h.step h' hl

theorem measure {s : Nat} {a t : Word48} {v : Int} (h : Only l k j) (hl : [.regs, .ang, .pos] ⊆ l := by decide) :
    Only l k (j.measure s a t v) := by
  refine h.step (l' := [.regs, .ang, .pos]) ?_ hl
  unfold Stake.measure
  extract_lets m q again q1 q2 q3
  have hq : Only [.regs, .ang, .pos] j q := .put48 (.put48 .refl)
  have h1 : Only [.regs, .ang, .pos] j q1 := .ite (.foldl (fun _ _ h => .ite (.onClock h) h) _ hq) hq
  have ht : Only [.regs, .ang, .pos] j q1.turnBack := .onPos (.putB (.wr h1))
  have h2 : Only [.regs, .ang, .pos] j q2 := .ite h1 (.ite ht (.onPos h1))
  exact .ite hq (.countTurn (.deliver (.onPos h2)))

theorem posLost {s : Nat} (h : Only l k j) (hl : [.ang, .regs, .out, .prt, .modu, .pos] ⊆ l := by decide) : Only l k (j.posLost s) := by
  refine h.step (l' := [.ang, .regs, .out, .prt, .modu, .pos]) ?_ hl
  unfold Stake.posLost
  extract_lets q
  have hq : Only [.ang, .regs, .out, .prt, .modu, .pos] j q := .loseSource (.put (.putB .refl))
  exact .ite (.onPos hq) hq

theorem posFault {s kind : Nat} {v : List Nat} (h : Only l k j) (hl : [.ang, .regs, .out, .prt, .modu, .pos] ⊆ l := by decide) :
    Only l k (j.posFault s kind v) := by
  have h' : Only [.ang, .regs, .out, .prt, .modu, .pos] j (j.posFault s kind v) := .ite .refl (.post (.posLost (.put (.putB .refl))))
  exact h.step h' hl

theorem edgeFault {s : Nat} (h : Only l k j) (hl : [.ang, .regs, .out, .prt, .modu, .pos] ⊆ l := by decide) : Only l k (j.edgeFault s) := by
  have h' : Only [.ang, .regs, .out, .prt, .modu, .pos] j (j.edgeFault s) := .ite .refl (.ite (.posFault (.onEdges .refl)) (.onEdges .refl))
  exact h.step h' hl

end Stake.Only

theorem Stake.posToggle_only (k : Stake) (s : Nat) (r : Bool) : Stake.Only [.regs, .out, .prt, .ang, .vote] k (k.posToggle s r) :=
  .posToggle .refl

end Sys2Proof.Machine

/-! The encoder's count (R107 to R113). -/
namespace Sys2Proof.Machine
set_option Elab.async false

section
variable (k : Stake)

theorem Stake.fld_lt (f : Fld) : k.fld f < 2 ^ f.w := Nat.mod_lt _ (Nat.two_pow_pos _)

theorem Stake.encCounts_pos : 0 < k.encCounts := Nat.mul_pos (by decide) (Nat.succ_pos _)

/-- R109: the field of the count holds every count of a revolution. -/
theorem Stake.encCounts_le : k.encCounts ≤ 2 ^ 18 := by
  have := k.fld_lt Reg.POS_ENC_CFG_LINES_M1
  simp only [Reg.POS_ENC_CFG_LINES_M1] at this
  unfold Stake.encCounts
  simp only [Reg.POS_ENC_CFG_LINES_M1]
  omega

theorem Stake.encCount_put {c : Nat} (h : c < k.encCounts) : (k.put Reg.POS_ENC_ALIGN_COUNT c).encCount = c := by
  refine (k.fld_put_same Reg.POS_ENC_ALIGN_COUNT c (by decide)).trans (Nat.mod_eq_of_lt ?_)
  exact h.trans_le k.encCounts_le

/-- R112: without a load in this tick nothing is loaded again. -/
theorem Stake.reload_of_ne (h : k.pos.loadAt.map (·.1) ≠ some k.now) : k.reload = k := by
  unfold Stake.reload
  split
  · next t c he =>
    refine if_neg fun ht => h ?_
    rw [he, ← ht]
    rfl
  · rfl

end

/-- The count and what it is measured by are not among the registers that change. -/
def encSafe (l : List Nat) : Prop := Reg.POS_ENC_ALIGN ∉ l ∧ Reg.POS_ENC_CFG ∉ l ∧ Reg.POS_CTRL ∉ l

section
variable {k j : Stake} {l : List Nat}

theorem Stake.regsKept.encCount (h : k.regsKept j l) (hl : Reg.POS_ENC_ALIGN ∉ l) : j.encCount = k.encCount := h.fld hl
theorem Stake.regsKept.encCounts (h : k.regsKept j l) (hl : Reg.POS_ENC_CFG ∉ l) : j.encCounts = k.encCounts := by
  unfold Stake.encCounts
  rw [h.fld hl]
theorem Stake.regsKept.encAngle (h : k.regsKept j l) (hl : Reg.POS_ENC_CFG ∉ l) (hc : Reg.POS_CTRL ∉ l) (c : Nat) :
    j.encAngle c = k.encAngle c := by
  unfold Stake.encAngle Stake.step
  rw [h.encCounts hl, h.fld hc]
theorem Stake.regsKept.posEn (h : k.regsKept j l) (hl : Reg.POS_CTRL ∉ l) (s : Nat) : j.posEn s = k.posEn s := by
  unfold Stake.posEn
  rw [h _ hl]
theorem Stake.regsKept.posLive_of {s : Nat} (h : k.regsKept j l) (hl : Reg.POS_CTRL ∉ l) (hs : Reg.POS_SRC_STATUS s ∉ l) :
    j.posLive s = k.posLive s := by
  unfold Stake.posLive
  rw [h.posEn hl, h.flag hs]

end

theorem Stake.posLive_flag {k : Stake} {s : Nat} (h : k.posLive s = true) : k.flag (Reg.POS_SRC_STATUS_FAULTED s) = false := by
  have := (Bool.and_eq_true_iff.1 h).2
  simpa using this

section
variable (k : Stake)

/-- The registers that an edge of the encoder writes beside its count. -/
def encRegs : List Nat := Reg.POS_SRC_STATUS 1 :: measRegs 1

/-- R108, R109: an edge of one signal steps the count and is measured. -/
theorem Stake.encoderStep_eq {onA : Bool} (hl : k.posLive 1 = true) :
    let q := k.onPos fun p => { p with a := p.a != onA, b := p.b != !onA }
    let fwd := encForward (k.flag Reg.POS_ENC_CFG_SWAP) onA q.pos.a q.pos.b
    let c := (k.encCount + (if fwd then 1 else k.encCounts - 1)) % k.encCounts
    let i := (q.put Reg.POS_ENC_ALIGN_COUNT c).edgeIn 1 (!fwd) k.edgeStamp.1 k.edgeStamp.2 (k.encAngle c)
    k.encoderStep onA (!onA) = i.measure 1 (i.encAngle c) k.edgeStamp.1 i.pos.enc.speed := by
  intro q fwd c i
  unfold Stake.encoderStep
  have h1 : ¬(!q.posLive 1 || (!onA && !!onA)) = true := by
    have : q.posLive 1 = true := hl
    cases onA <;> simp [this]
  have h2 : ¬(onA && !onA) = true := by cases onA <;> simp
  exact (if_neg h1).trans (if_neg h2)

/-- R111: edges of both signals in one tick. -/
theorem Stake.encoderStep_both (hl : k.posLive 1 = true) :
    let q := k.onPos fun p => { p with a := p.a != true, b := p.b != true }
    k.encoderStep true true =
      ((q.onEdges 1 fun e => { e with lastAt := k.edgeStamp.2, edgeAt := some k.now }).bump Reg.POS_QUAD_ERR_CNT).edgeFault 1 := by
  intro q
  unfold Stake.encoderStep
  have h1 : ¬(!q.posLive 1 || (!true && !true)) = true := by
    have : q.posLive 1 = true := hl
    simp [this]
  exact (if_neg h1).trans (if_pos rfl)

theorem Stake.edgeIn_pos (s : Nat) (rev : Bool) (st : Word48) (t : Nat) (a : Word48) :
    ∃ f, (k.edgeIn s rev st t a).pos = (k.onEdges s f).pos := by
  unfold Stake.edgeIn
  extract_lets q same e qual stamps mag j
  have h : Stake.Only [.regs, .out, .prt, .ang, .vote] k j := .step (.put .refl) (Stake.posToggle_only _ _ _)
  refine ⟨fun e => { e with
    stamps := stamps, lastAt := t, edgeAt := some j.now, angle := a, speed := if rev then -(mag : Int) else mag, decaying := false }, ?_⟩
  simp only [Stake.onEdges, Stake.onPos, h.pos]

end

/-- A command whose effect is on one stake. -/
theorem exec_onStake {s : State} {n : Nat} (h : s.present n = true) (f : Stake → Stake) :
    ∃ t, Host.Outcome.next (s.onStake n f) = (.next t : Host.Outcome State Fault Refusal) ∧ s.elsewhere t n ∧ t.stake n = f (s.stake n) :=
  ⟨_, rfl, s.onStake_elsewhere n f, State.onStake_stake_same h f⟩

theorem Stake.encoderEdge_eq {k : Stake} {a b : Bool} {held : Nat} (hh : k.fld Reg.POS_ENC_CFG_EDGE_MIN ≤ held)
    (hl : (k.encoderStep a b).pos.loadAt.map (·.1) ≠ some (k.encoderStep a b).now) :
    k.encoderEdge a b held = k.encoderStep a b := by
  unfold Stake.encoderEdge
  exact (if_pos (decide_eq_true hh)).trans (Stake.reload_of_ne _ hl)

theorem Stake.regsKept.encodes {k j : Stake} (h : k.regsKept j encRegs) (c : Nat) : j.encCount = k.encCount ∧ j.encCounts = k.encCounts ∧ 
    j.encAngle c = k.encAngle c := 
  ⟨h.encCount (by decide), h.encCounts (by decide), h.encAngle (by decide) (by decide) c⟩

/-- R108, R109: after an edge of one signal. -/
theorem Stake.encoderEdge_one {k : Stake} {onA : Bool} {held : Nat} (hl : k.posLive 1 = true)
    (hh : k.fld Reg.POS_ENC_CFG_EDGE_MIN ≤ held) (hload : k.pos.loadAt.map (·.1) ≠ some k.now) :
    let a := k.pos.a != onA
    let b := k.pos.b != !onA
    let c := (k.encCount + (if encForward (k.flag Reg.POS_ENC_CFG_SWAP) onA a b then 1 else k.encCounts - 1)) % k.encCounts
    let j := k.encoderEdge onA (!onA) held
    j.pos.a = a ∧ j.pos.b = b ∧ j.encCount = c ∧
      j.get48 (Reg.POS_SRC_ANGLE 1) = k.encAngle c + BitVec.ofNat 48 (k.fld (Reg.POS_SRC_OFFSET_OFFSET 1) * 4294967296) := by
  intro a b c j
  have he := k.encoderStep_eq (onA := onA) hl
  extract_lets q fwd c' i at he
  have hq : (q.put Reg.POS_ENC_ALIGN_COUNT c').regsKept i encRegs := .edgeIn .refl (by decide)
  obtain ⟨f, hf⟩ := (q.put Reg.POS_ENC_ALIGN_COUNT c').edgeIn_pos 1 (!fwd) k.edgeStamp.1 k.edgeStamp.2 (k.encAngle c')
  have hc : (q.put Reg.POS_ENC_ALIGN_COUNT c').encCount = c' := Stake.encCount_put q (Nat.mod_lt _ k.encCounts_pos)
  have hm : i.sourcesKept (k.encoderStep onA (!onA)) := by
    rw [he]
    exact .measure .refl
  have hp : ∀ {β : Type} (g : PosState → β), (∀ p, g p.noTurns = g p) → (∀ p e, g { p with enc := e } = g p) →
      g (k.encoderStep onA (!onA)).pos = g q.pos := by
    intro β g hg hg'
    rw [← hg, hm, hg, hf]
    exact hg' _ _
  have hnow : (k.encoderStep onA (!onA)).now = k.now := by
    have h : Stake.Only [.regs, .out, .prt, .ang, .vote, .pos] k (i.measure 1 (i.encAngle c') k.edgeStamp.1 i.pos.enc.speed) :=
      .measure (.edgeIn (.put (.onPos .refl)))
    rw [he]
    exact h.now
  have hj : j = k.encoderStep onA (!onA) := by
    refine Stake.encoderEdge_eq hh ?_
    rw [hnow, hp PosState.loadAt (fun _ => rfl) fun _ _ => rfl]
    exact hload
  rw [hj]
  refine ⟨hp PosState.a (fun _ => rfl) fun _ _ => rfl, hp PosState.b (fun _ => rfl) fun _ _ => rfl, ?_, ?_⟩
  · rw [he, (i.measure_regsKept 1 _ _ _).encCount (by decide), hq.encCount (by decide)]
    exact hc
  · rw [he, Stake.measure_angle _ (by decide), hq.encAngle (by decide) (by decide), hq.fld (by decide)]
    have h : k.regsKept (q.put Reg.POS_ENC_ALIGN_COUNT c') [Reg.POS_ENC_ALIGN] := .put (.onPos .refl) (by decide)
    rw [h.encAngle (by decide) (by decide), h.fld (by decide)]
    rfl

/-- R111: after edges of both signals in one tick. -/
theorem Stake.encoderEdge_both {k : Stake} {held : Nat} (hl : k.posLive 1 = true)
    (hh : k.fld Reg.POS_ENC_CFG_EDGE_MIN ≤ held) (hload : k.pos.loadAt.map (·.1) ≠ some k.now) :
    (k.encoderEdge true true held).encCount = k.encCount ∧
      (k.encoderEdge true true held).rd Reg.POS_QUAD_ERR_CNT = satAdd 16 (k.rd Reg.POS_QUAD_ERR_CNT) 1 := by
  have he := k.encoderStep_both hl
  extract_lets q at he
  generalize hi : (q.onEdges 1 fun e => { e with lastAt := k.edgeStamp.2, edgeAt := some k.now }) = i at he
  have hik : Stake.Only [.pos] k i := hi ▸ .onEdges (.onPos .refl)
  have hir : k.regsKept i [] := hi ▸ .onEdges (.onPos .refl)
  have hload' : i.pos.loadAt = k.pos.loadAt := by rw [← hi]; rfl
  obtain ⟨f, hf⟩ := (i.bump Reg.POS_QUAD_ERR_CNT).edgeFault_sources 1
  have hbi : Stake.Only [.regs] i (i.bump Reg.POS_QUAD_ERR_CNT) := .bump .refl
  have hnow : (k.encoderStep true true).now = k.now := by
    have h : Stake.Only [.ang, .regs, .out, .prt, .modu, .pos] i ((i.bump Reg.POS_QUAD_ERR_CNT).edgeFault 1) := .edgeFault (.bump .refl)
    rw [he, h.now, hik.now]
  have hj : k.encoderEdge true true held = k.encoderStep true true := by
    refine Stake.encoderEdge_eq hh ?_
    have h : (k.encoderStep true true).pos.loadAt = k.pos.loadAt := by
      rw [he, ← hload', ← hbi.pos]
      exact hf.get PosState.loadAt fun _ => rfl
    rw [hnow, h]
    exact hload
  have hr : (i.bump Reg.POS_QUAD_ERR_CNT).regsKept ((i.bump Reg.POS_QUAD_ERR_CNT).edgeFault 1) (Reg.POS_SRC_STATUS 1 :: syncRegs) :=
    .edgeFault .refl (List.Subset.refl _)
  have hb : i.regsKept (i.bump Reg.POS_QUAD_ERR_CNT) [Reg.POS_QUAD_ERR_CNT] := .bump .refl (by decide)
  rw [hj, he]
  refine ⟨?_, ?_⟩
  · rw [hr.encCount (by decide), hb.encCount (by decide), hir.encCount (by decide)]
  · rw [hr _ (by decide), Stake.rd_bump_same, hir _ (by decide)]

/-- R107, R111: after a pulse that the filter rejects. -/
theorem Stake.pulseRejected (k : Stake) (hall : Bool) :
    let q := k.bump Reg.POS_EDGE_FAULT_CNT
    let j := if hall then q else q.edgeFault 1
    j.encCount = k.encCount ∧ j.rd Reg.POS_EDGE_FAULT_CNT = satAdd 16 (k.rd Reg.POS_EDGE_FAULT_CNT) 1 := by
  intro q j
  have hr : q.regsKept j (Reg.POS_SRC_STATUS 1 :: syncRegs) := .ite .refl (.edgeFault .refl (List.Subset.refl _))
  have hb : k.regsKept q [Reg.POS_EDGE_FAULT_CNT] := .bump .refl (by decide)
  exact ⟨by rw [hr.encCount (by decide), hb.encCount (by decide)], by rw [hr _ (by decide), Stake.rd_bump_same]⟩

/-- R110: the first index since enable. -/
theorem Stake.indexStep_first {k : Stake} (hl : k.posLive 1 = true) (hz : k.flag Reg.POS_ENC_CFG_Z_EN = true)
    (hg : (if k.pos.b then 2 else 0) + (if k.pos.a then 1 else 0) = k.fld Reg.POS_ENC_CFG_Z_GATE) (hi : k.pos.indexed = false) :
    let z := k.fld Reg.POS_ENC_INDEX_Z_COUNT % k.encCounts
    let q := (((k.put Reg.POS_ENC_ALIGN_COUNT z).onPos fun p => { p with
      indexed := true, enc := { p.enc with angle := k.encAngle z } }).putB (Reg.POS_SRC_STATUS_ALIGNED 1) true).putB
        (Reg.POS_SRC_STATUS_VALID 1) true
    k.indexStep = q.measure 1 (q.encAngle z) q.edgeStamp.1 q.pos.enc.speed := by
  intro z q
  unfold Stake.indexStep
  extract_lets gate n z' d err first q1 q2 q3
  have hf : first = true := by simp [first, hi]
  have hn : ¬(!k.posLive 1 || !k.flag Reg.POS_ENC_CFG_Z_EN || Decidable.decide (gate ≠ k.fld Reg.POS_ENC_CFG_Z_GATE)) = true := by
    simp [hl, hz, gate, hg]
  have h2 : q2 = q := if_pos hf
  have h3 : q3 = q := (if_neg (by simp [hf])).trans h2
  rw [if_neg hn, if_pos (by simp [hf]), h3]

/-- R110, R113: after the first index since enable. -/
theorem Stake.encoderIndex_first {k : Stake} {held : Nat} (hl : k.posLive 1 = true) (hz : k.flag Reg.POS_ENC_CFG_Z_EN = true)
    (hh : k.fld Reg.POS_ENC_CFG_EDGE_MIN ≤ held) (hload : k.pos.loadAt.map (·.1) ≠ some k.now)
    (hg : (if k.pos.b then 2 else 0) + (if k.pos.a then 1 else 0) = k.fld Reg.POS_ENC_CFG_Z_GATE) (hi : k.pos.indexed = false) :
    let j := k.encoderIndex held
    j.encCount = k.fld Reg.POS_ENC_INDEX_Z_COUNT % k.encCounts ∧ j.pos.indexed = true ∧
      j.flag (Reg.POS_SRC_STATUS_ALIGNED 1) = true ∧ j.flag (Reg.POS_SRC_STATUS_VALID 1) = true := by
  intro j
  have he := Stake.indexStep_first hl hz hg hi
  extract_lets z q at he
  have ho : Stake.Only [.regs, .pos, .ang] k (q.measure 1 (q.encAngle z) q.edgeStamp.1 q.pos.enc.speed) :=
    .measure (.putB (.putB (.onPos (.put .refl))))
  have hs : q.sourcesKept (q.measure 1 (q.encAngle z) q.edgeStamp.1 q.pos.enc.speed) := .measure .refl
  have hr := q.measure_regsKept 1 (q.encAngle z) q.edgeStamp.1 q.pos.enc.speed
  have hj : j = k.indexStep := by
    refine (if_pos (decide_eq_true hh)).trans (Stake.reload_of_ne _ ?_)
    have h : k.indexStep.pos.loadAt = k.pos.loadAt := by
      rw [he]
      exact hs.get PosState.loadAt fun _ => rfl
    rw [he, ho.now, ← he, h]
    exact hload
  rw [hj, he]
  refine ⟨?_, hs.get PosState.indexed fun _ => rfl, ?_, ?_⟩
  · rw [hr.encCount (by decide)]
    have h : (k.put Reg.POS_ENC_ALIGN_COUNT z).regsKept q [Reg.POS_SRC_STATUS 1] := .putB (.putB (.onPos .refl) (by decide)) (by decide)
    rw [h.encCount (by decide)]
    exact k.encCount_put (Nat.mod_lt _ k.encCounts_pos)
  · rw [hr.flag (by decide)]
    exact (Stake.flag_putB_ne _ _ _ _ (by decide)).trans (Stake.flag_putB_same _ _ _ (by decide) rfl)
  · rw [hr.flag (by decide)]
    exact Stake.flag_putB_same _ _ _ (by decide) rfl

/-- R112, R113: after a load of a count that the encoder has. -/
theorem Stake.loadCount_loaded {k : Stake} {c : Nat} (hc : c < k.encCounts) :
    (k.loadCount c).encCount = c ∧ (k.loadCount c).flag (Reg.POS_SRC_STATUS_ALIGNED 1) = true := by
  unfold Stake.loadCount
  extract_lets q m
  have hq : (k.put Reg.POS_ENC_ALIGN_COUNT c).regsKept q [Reg.POS_SRC_STATUS 1] := .putB .refl (by decide)
  have hc : q.encCount = c := (hq.encCount (by decide)).trans (k.encCount_put hc)
  have ha : q.flag (Reg.POS_SRC_STATUS_ALIGNED 1) = true := Stake.flag_putB_same _ _ _ (by decide) rfl
  have hr := m.measure_regsKept 1 (m.encAngle c) m.ang.tick m.pos.enc.speed
  have hm : q.regsKept m [Reg.POS_SRC_STATUS 1] := .onEdges (.putB .refl (by decide))
  have hm' : (q.putB (Reg.POS_SRC_STATUS_VALID 1) true).regsKept m [] := .onEdges .refl
  have hma : m.flag (Reg.POS_SRC_STATUS_ALIGNED 1) = true :=
    (hm'.flag List.not_mem_nil).trans ((Stake.flag_putB_ne q _ _ _ (by decide)).trans ha)
  split
  · exact ⟨hc, ha⟩
  · exact ⟨by rw [hr.encCount (by decide), hm.encCount (by decide), hc], by rw [hr.flag (by decide), hma]⟩

/-- R112, R113: after an alignment load. -/
theorem Stake.alignLoad_loaded {k : Stake} {w : Reg32} (hb : k.alignBad w = false) (hw : w.getLsbD 31 = true) :
    (k.alignLoad w).encCount = Reg.POS_ENC_ALIGN_COUNT.of w ∧ (k.alignLoad w).flag (Reg.POS_SRC_STATUS_ALIGNED 1) = true := by
  have hlt : Reg.POS_ENC_ALIGN_COUNT.of w < k.encCounts := by simpa [Stake.alignBad, hw] using hb
  unfold Stake.alignLoad
  rw [if_neg (by simp [hw])]
  exact Stake.loadCount_loaded hlt

/-- Settles O19, by what each command does to the encoder's stake. -/
theorem encoderCounts : Obligations.EncoderCounts := by
  refine ⟨fun s n held onA hp hl hh hload => ?_, fun s n held hp hl hh hload => ?_, fun s n width hall hp hw => ?_,
    fun s n held hp hl hz hh hload hg hi => ?_, fun s n src w ha hb hw => ?_⟩
  · intro k a b c
    obtain ⟨t, ht, he, hs⟩ := exec_onStake hp fun q => q.encoderEdge onA (!onA) held
    refine ⟨t, ht, he, ?_⟩
    rw [hs]
    exact Stake.encoderEdge_one hl hh hload
  · obtain ⟨t, ht, he, hs⟩ := exec_onStake hp fun q => q.encoderEdge true true held
    refine ⟨t, ht, he, ?_⟩
    rw [hs]
    exact Stake.encoderEdge_both hl hh hload
  · obtain ⟨t, ht, he, hs⟩ := exec_onStake hp fun q => if q.edgeHeld width then q else
      let q := q.bump Reg.POS_EDGE_FAULT_CNT
      if hall then q else q.edgeFault 1
    refine ⟨t, ht, he, ?_⟩
    rw [hs]
    have hn : ¬(s.stake n).edgeHeld width = true := by simp [Stake.edgeHeld, hw]
    rw [if_neg hn]
    exact (s.stake n).pulseRejected hall
  · obtain ⟨t, ht, he, hs⟩ := exec_onStake hp fun q => q.encoderIndex held
    refine ⟨t, ht, he, ?_⟩
    rw [hs]
    exact Stake.encoderIndex_first hl hz hh hload hg hi
  · obtain ⟨t, ht, he, hs⟩ := exec_stakeWrite ha fun q => q.alignLoad w
    refine ⟨t, ?_, he, ?_⟩
    · refine Eq.trans ?_ ht
      change Host.Outcome.next (if _ then _ else _) = _
      rw [if_neg (by simp [hb])]
    · rw [hs]
      exact Stake.alignLoad_loaded hb hw
end Sys2Proof.Machine

/-! Hall transitions, standstill and decay (R114, R115, R120, R122). -/
namespace Sys2Proof.Machine
set_option Elab.async false

section
variable (k : Stake)

theorem Stake.posToggle_flag (s : Nat) (r : Bool) (f : Fld)
    (h : ∀ g ∈ [Reg.POS_SRC_STATUS_DIR s, Reg.POS_SRC_STATUS_DIR_CHG s], g.off ≠ f.off ∨ g.lo + g.w ≤ f.lo ∨ f.lo + f.w ≤ g.lo) :
    (k.posToggle s r).flag f = k.flag f := by
  refine ite_frame (g := fun q : Stake => q.flag f) rfl ?_
  have hr : ((k.putB (Reg.POS_SRC_STATUS_DIR s) r).putB (Reg.POS_SRC_STATUS_DIR_CHG s) true).regsKept
    ((((k.putB (Reg.POS_SRC_STATUS_DIR s) r).putB (Reg.POS_SRC_STATUS_DIR_CHG s) true).directionIrq s).post .posDirChange 0 [s]) [] :=
    .post_zero (.directionIrq .refl)
  rw [hr.flag List.not_mem_nil, Stake.flag_putB_ne _ _ _ _ (h _ (by simp)), Stake.flag_putB_ne _ _ _ _ (h _ (by simp))]

theorem Stake.edgeIn_flag (s : Nat) (r : Bool) (st : Word48) (t : Nat) (a : Word48) (f : Fld)
    (h : ∀ g ∈ [Reg.POS_SRC_STATUS_QUAL s, Reg.POS_SRC_STATUS_DIR s, Reg.POS_SRC_STATUS_DIR_CHG s],
      g.off ≠ f.off ∨ g.lo + g.w ≤ f.lo ∨ f.lo + f.w ≤ g.lo) :
    (k.edgeIn s r st t a).flag f = k.flag f := by
  unfold Stake.edgeIn
  extract_lets q same e qual stamps mag j
  have hj : ∀ e, j.regsKept (j.onEdges s e) [] := fun _ => .onEdges .refl
  rw [(hj _).flag List.not_mem_nil, Stake.posToggle_flag _ _ _ _ fun g hg => h g (List.mem_cons_of_mem _ hg)]
  exact Stake.flag_put_ne _ _ _ _ (h _ List.mem_cons_self)

end

section
variable {k : Stake}

/-- R114: the stake when a transition to sector `i` is decoded. -/
def Stake.inSector (k : Stake) (levels i : Nat) : Stake :=
  ((k.onPos fun p => { p with hall := levels % 8 }).onPos fun p => { p with sector := some i, illegal := none }).putB
    (Reg.POS_SRC_STATUS_COARSE 2) false

/-- R114, R120: a transition to a sector next to the last one is an edge and a measurement at the boundary between them. -/
theorem Stake.hallMove_next {levels held i j : Nat} (hl : k.posLive 2 = true) (hh : k.fld Reg.POS_ENC_CFG_EDGE_MIN ≤ held)
    (hv : k.pos.hall ≠ levels % 8) (hi : hallSector (levels % 8 ^^^ k.fld Reg.POS_HALL_CFG_INV) = some i) (hj : k.pos.sector = some j)
    (hn : i = (j + 1) % 6 ∨ j = (i + 1) % 6) (hne : i ≠ j) :
    let b := hallBound (if i = (j + 1) % 6 then i else j)
    let q := (k.inSector levels i).edgeIn 2 (!Decidable.decide (i = (j + 1) % 6)) k.edgeStamp.1 k.edgeStamp.2 b
    k.hallMove levels held = q.measure 2 b k.edgeStamp.1 q.pos.hal.speed := by
  have hlive : ¬(!(k.onPos fun p => { p with hall := levels % 8 }).posLive 2 || Decidable.decide (k.pos.hall = levels % 8)) = true := by
    rw [show (k.onPos fun p => { p with hall := levels % 8 }).posLive 2 = true from hl]
    simp [hv]
  have hstate : (k.onPos fun p => { p with hall := levels % 8 }).hallState = some i := hi
  have hheld : ¬(!k.edgeHeld held) = true := by simp [Stake.edgeHeld, hh]
  have hsec : (k.onPos fun p => { p with hall := levels % 8 }).pos.sector = some j := hj
  unfold Stake.hallMove
  simp only [if_neg hheld, if_neg hlive, hstate, hsec, if_neg hne]
  by_cases hup : i = (j + 1) % 6
  · simp only [if_pos hup, decide_eq_true hup, Bool.not_true]
    rfl
  · simp only [if_neg hup, if_pos (hn.resolve_left hup), decide_eq_false hup, Bool.not_false]
    rfl

/-- R114: what such a transition leaves behind. -/
theorem Stake.hallMove_shown {levels held i j : Nat} (hl : k.posLive 2 = true) (hh : k.fld Reg.POS_ENC_CFG_EDGE_MIN ≤ held)
    (hv : k.pos.hall ≠ levels % 8) (hi : hallSector (levels % 8 ^^^ k.fld Reg.POS_HALL_CFG_INV) = some i) (hj : k.pos.sector = some j)
    (hn : i = (j + 1) % 6 ∨ j = (i + 1) % 6) (hne : i ≠ j) :
    let t := k.hallMove levels held
    t.pos.hall = levels % 8 ∧ t.pos.sector = some i ∧ t.flag (Reg.POS_SRC_STATUS_COARSE 2) = false ∧
      t.get48 (Reg.POS_SRC_ANGLE 2) = hallBound (if i = (j + 1) % 6 then i else j) +
        BitVec.ofNat 48 (k.fld (Reg.POS_SRC_OFFSET_OFFSET 2) * 4294967296) := by
  intro t
  have ht := Stake.hallMove_next hl hh hv hi hj hn hne
  extract_lets b q at ht
  obtain ⟨f, hf⟩ := (k.inSector levels i).edgeIn_pos 2 (!Decidable.decide (i = (j + 1) % 6)) k.edgeStamp.1 k.edgeStamp.2 b
  have hm : q.sourcesKept (q.measure 2 b k.edgeStamp.1 q.pos.hal.speed) := .measure .refl
  have hr := q.measure_regsKept 2 b k.edgeStamp.1 q.pos.hal.speed
  have hq : k.regsKept q [Reg.POS_SRC_STATUS 2] := .edgeIn (.putB (.onPos (.onPos .refl)) (by decide)) (by decide)
  have hc : q.flag (Reg.POS_SRC_STATUS_COARSE 2) = false :=
    (Stake.edgeIn_flag _ _ _ _ _ _ _ (by decide)).trans (Stake.flag_putB_same _ _ _ (by decide) rfl)
  rw [show t = _ from ht]
  refine ⟨(hm.get PosState.hall fun _ => rfl).trans (congrArg PosState.hall hf),
    (hm.get PosState.sector fun _ => rfl).trans (congrArg PosState.sector hf), ?_, ?_⟩
  · rw [hr.flag (by decide), hc]
  · rw [Stake.measure_angle _ (by decide), hq.fld (by decide)]

/-- A record posted after others is among those posted since. -/
theorem Stake.posted.after {q j : Stake} {e : Ev} {c : Nat} {v : List Nat} (h : q.posted j e c v) (ho : k.outKept q) (hi : q.id = k.id)
    (ht : q.ang.tick = k.ang.tick) : k.posted j e c v := by
  obtain ⟨l, fl, hl, hm⟩ := h
  obtain ⟨l', hl'⟩ := ho
  refine ⟨l' ++ l, fl, ?_, ?_⟩
  · rw [hl, ← hl', List.append_assoc]
  · rw [← hi, ← ht]
    exact List.mem_append_right _ hm

theorem Stake.outKept.srcLost {j : Stake} {s : Nat} (h : k.outKept j) : k.outKept (j.srcLost s) :=
  h.of_eq (Stake.Only.srcLost .refl : Stake.Only [.ang] j _).out

theorem Stake.outKept.loseSource {j : Stake} {s : Nat} (h : k.outKept j) : k.outKept (j.loseSource s) :=
  .ite (.syncAbort (.srcLost h)) (.srcLost h)

theorem Stake.outKept.posLost {j : Stake} {s : Nat} (h : k.outKept j) : k.outKept (j.posLost s) := by
  have h' : k.outKept (((j.putB (Reg.POS_SRC_STATUS_VALID s) false).put (Reg.POS_SRC_STATUS_QUAL s) 0).loseSource s) := .loseSource (.put (.putB h))
  exact .ite (h'.of_eq rfl) h'

theorem Stake.posLost_shown (k : Stake) (s : Nat) :
    ((k.putB (Reg.POS_SRC_STATUS_VALID s) false).put (Reg.POS_SRC_STATUS_QUAL s) 0).regsKept (k.posLost s) syncRegs := by
  have h : ((k.putB (Reg.POS_SRC_STATUS_VALID s) false).put (Reg.POS_SRC_STATUS_QUAL s) 0).regsKept
    (((k.putB (Reg.POS_SRC_STATUS_VALID s) false).put (Reg.POS_SRC_STATUS_QUAL s) 0).loseSource s) syncRegs :=
    .loseSource .refl (List.Subset.refl _)
  exact .ite (.onPos h) h

theorem Stake.srcLost_tick (k : Stake) (s : Nat) : (k.srcLost s).ang.tick = k.ang.tick := by
  unfold Stake.srcLost
  exact foldl_frame (g := fun q : Stake => q.ang.tick) (fun q c => by split <;> rfl) _ _

theorem Stake.loseSource_tick (k : Stake) (s : Nat) : (k.loseSource s).ang.tick = k.ang.tick :=
  ite_frame (g := fun q : Stake => q.ang.tick) ((congrArg AngState.tick (Stake.syncAbort_ang _)).trans (k.srcLost_tick s)) (k.srcLost_tick s)

theorem Stake.posLost_tick (k : Stake) (s : Nat) : (k.posLost s).ang.tick = k.ang.tick := by
  have h := Stake.loseSource_tick ((k.putB (Reg.POS_SRC_STATUS_VALID s) false).put (Reg.POS_SRC_STATUS_QUAL s) 0) s
  exact ite_frame (g := fun q : Stake => q.ang.tick) h h

/-- R101: a fault of a live source with no room for its sense. -/
theorem Stake.posFault_hall {kind : Nat} {v : List Nat} (hl : k.posLive 2 = true) (hk : kind < 8) :
    let j := k.posFault 2 kind v
    j.flag (Reg.POS_SRC_STATUS_FAULTED 2) = true ∧ j.fld (Reg.POS_SRC_STATUS_KIND 2) = kind ∧
      j.flag (Reg.POS_SRC_STATUS_VALID 2) = false ∧
      k.posted j .posHallFault (k.fld Reg.POS_FAULT_HALL_CLASS) (kind :: v) := by
  intro j
  have hj : j = Stake.post (((k.putB (Reg.POS_SRC_STATUS_FAULTED 2) true).put (Reg.POS_SRC_STATUS_KIND 2) kind).posLost 2) .posHallFault
      ((((k.putB (Reg.POS_SRC_STATUS_FAULTED 2) true).put (Reg.POS_SRC_STATUS_KIND 2) kind).posLost 2).fld Reg.POS_FAULT_HALL_CLASS)
      (kind :: v) := if_neg (by simp [hl])
  generalize hq : (k.putB (Reg.POS_SRC_STATUS_FAULTED 2) true).put (Reg.POS_SRC_STATUS_KIND 2) kind = q at hj
  have hs := q.posLost_shown 2
  have hr : ((q.putB (Reg.POS_SRC_STATUS_VALID 2) false).put (Reg.POS_SRC_STATUS_QUAL 2) 0).regsKept j syncRegs := by
    rw [hj]
    exact .post hs (by decide)
  have hf : (q.posLost 2).fld Reg.POS_FAULT_HALL_CLASS = k.fld Reg.POS_FAULT_HALL_CLASS := by
    rw [hs.fld (by decide), Stake.fld_put_ne _ _ _ _ (by decide), Stake.fld_putB_ne _ _ _ _ (by decide), ← hq,
      Stake.fld_put_ne _ _ _ _ (by decide), Stake.fld_putB_ne _ _ _ _ (by decide)]
  refine ⟨?_, ?_, ?_, ?_⟩
  · rw [hr.flag (by decide), Stake.flag_put_ne _ _ _ _ (by decide), Stake.flag_putB_ne _ _ _ _ (by decide), ← hq,
      Stake.flag_put_ne _ _ _ _ (by decide), Stake.flag_putB_same _ _ _ (by decide) rfl]
  · rw [hr.fld (by decide), Stake.fld_put_ne _ _ _ _ (by decide), Stake.fld_putB_ne _ _ _ _ (by decide), ← hq,
      Stake.fld_put_same _ _ _ (by decide)]
    exact Nat.mod_eq_of_lt hk
  · rw [hr.flag (by decide), Stake.flag_put_ne _ _ _ _ (by decide), Stake.flag_putB_same _ _ _ (by decide) rfl]
  · have hp := (q.posLost 2).post_posted .posHallFault ((q.posLost 2).fld Reg.POS_FAULT_HALL_CLASS) (kind :: v)
    have hk : Stake.Only [.regs] k q := hq ▸ .put (.putB .refl)
    have ho : Stake.Only [.ang, .regs, .out, .prt, .modu, .pos] k (q.posLost 2) := .posLost (.mono hk (by decide))
    rw [hj, ← hf]
    refine hp.after (.posLost (.of_eq .refl hk.out)) ho.id ?_
    rw [q.posLost_tick, hk.ang]

theorem Stake.edges_onEdges (k : Stake) (s : Nat) (f : EdgeState → EdgeState) : (k.onEdges s f).edges s = f (k.edges s) := by
  unfold Stake.edges Stake.onEdges Stake.onPos
  split <;> rfl

theorem Stake.sourcesKept.edges {j : Stake} (h : k.sourcesKept j) (s : Nat) : j.edges s = k.edges s :=
  h.get (fun p => if s = 1 then p.enc else p.hal) fun _ => rfl

/-- R120: a source at standstill. -/
theorem Stake.standstill_shown {s : Nat} (hs : s = 1 ∨ s = 2) (hl : k.posLive s = true)
    (ht : k.fld Reg.POS_TIMING_T_STAND * 400000 ≤ k.now - (k.edges s).lastAt) (hq : k.fld (Reg.POS_SRC_STATUS_QUAL s) ≠ 1)
    (he : (k.edges s).edgeAt ≠ some k.now) :
    let j := k.standstill s
    j.fld (Reg.POS_SRC_STATUS_QUAL s) = 1 ∧ j.get48 (Reg.POS_SRC_SPEED s) = 0 ∧ (j.edges s).speed = 0 ∧ (j.edges s).stamps = [] := by
  intro j
  let q := (k.put (Reg.POS_SRC_STATUS_QUAL s) 1).onEdges s fun e => { e with stamps := [], speed := 0, decaying := false }
  have hj : j = q.measure s (q.edges s).angle q.ang.tick 0 := by
    refine if_neg ?_
    rcases hs with rfl | rfl <;> simp [hl, hq, he, ht]
  have hr := q.measure_regsKept s (q.edges s).angle q.ang.tick 0
  have hq' : (k.put (Reg.POS_SRC_STATUS_QUAL s) 1).regsKept q [] := .onEdges .refl
  have hm : q.sourcesKept (q.measure s (q.edges s).angle q.ang.tick 0) := .measure .refl
  rw [hj]
  refine ⟨?_, Stake.measure_speed _ (by omega) _ _ _, ?_, ?_⟩
  · rw [hr.fld (by rcases hs with rfl | rfl <;> decide), hq'.fld List.not_mem_nil, Stake.fld_put_same _ _ _ (by rcases hs with rfl | rfl <;> decide)]
    rfl
  · rw [hm.edges, Stake.edges_onEdges]
  · rw [hm.edges, Stake.edges_onEdges]

/-- R122: a decay measurement. -/
theorem Stake.decay_shown {s : Nat} (hs : s = 1 ∨ s = 2) (hl : k.posLive s = true) (hq : k.fld (Reg.POS_SRC_STATUS_QUAL s) = 4)
    (he : (k.edges s).edgeAt ≠ some k.now) (h0 : k.now - (k.edges s).lastAt ≠ 0) (h2 : (k.now - (k.edges s).lastAt) % 256 = 0)
    (hd : (k.edges s).decaying = true ∨ k.stepSpeed s 1 (k.now - (k.edges s).lastAt) < (k.edges s).speed.natAbs) :
    let b := k.stepSpeed s 1 (k.now - (k.edges s).lastAt)
    let v : Int := if k.flag (Reg.POS_SRC_STATUS_DIR s) then -(b : Int) else b
    let j := k.decay s
    (j.edges s).speed = v ∧ (j.edges s).decaying = true ∧ j.get48 (Reg.POS_SRC_SPEED s) = w48 v := by
  intro b v j
  let e := k.edges s
  let q := k.onEdges s fun x => { x with speed := v, decaying := true }
  let half := BitVec.ofNat 48 ((k.step s).1 / (2 * (k.step s).2))
  let a := if k.flag (Reg.POS_SRC_STATUS_DIR s) then e.angle - half else e.angle + half
  have hj : j = q.measure s a q.ang.tick v := by
    refine if_neg ?_
    have hd' : (k.edges s).decaying = false → k.stepSpeed s 1 (k.now - (k.edges s).lastAt) < (k.edges s).speed.natAbs := fun h =>
      hd.resolve_left (by simp [h])
    rcases hs with rfl | rfl <;> simpa [hl, hq, he, h0, h2] using hd'
  have hm : q.sourcesKept (q.measure s a q.ang.tick v) := .measure .refl
  rw [hj]
  refine ⟨?_, ?_, Stake.measure_speed _ (by omega) _ _ _⟩
  · rw [hm.edges, Stake.edges_onEdges]
  · rw [hm.edges, Stake.edges_onEdges]

end

/-- Settles O20. -/
theorem hallAndStandstill : Obligations.HallAndStandstill := by
  refine ⟨fun s n levels held i j hp hl hh hv hi hj hn hne => ?_, fun s n since hp hl hi ht => ?_, fun s n src hp hs hl ht hq he => ?_,
    fun s n src hp hs hl hq he => ?_⟩
  · obtain ⟨t, ht, hels, hst⟩ := exec_onStake hp fun q => q.hallMove levels held
    refine ⟨t, ht, hels, ?_⟩
    rw [hst]
    exact Stake.hallMove_shown hl hh hv hi hj hn hne
  · obtain ⟨t, hx, hels, hst⟩ := exec_onStake hp fun k => match k.pos.illegal with
      | some t => if t + 40000 ≤ k.now then k.posFault 2 5 [k.fld Reg.POS_HALL_ERR_CNT_COUNT] else k
      | none => k
    refine ⟨t, hx, hels, ?_⟩
    rw [hst]
    simp only [hi, if_pos ht]
    exact Stake.posFault_hall hl (by decide)
  · obtain ⟨t, hx, hels, hst⟩ := exec_onStake hp fun q => q.standstill src
    refine ⟨t, hx, hels, ?_⟩
    rw [hst]
    exact Stake.standstill_shown hs hl ht hq he
  · intro k el h0 h2 hd v
    obtain ⟨t, hx, hels, hst⟩ := exec_onStake hp fun q => q.decay src
    refine ⟨t, hx, hels, ?_⟩
    rw [hst]
    exact Stake.decay_shown hs hl hq he h0 h2 hd
end Sys2Proof.Machine

/-! Serial frames (R116 to R118). -/
namespace Sys2Proof.Machine
set_option Elab.async false

section
variable {k : Stake}

theorem Stake.sspEnd_only (k : Stake) : Stake.Only [.pos] k k.sspEnd := .onPos .refl
theorem Stake.sspEnd_regsKept (k : Stake) : k.regsKept k.sspEnd [] := .onPos .refl

/-- R117: a bad frame counts, and may fault the source. -/
theorem Stake.sspBadFrame_shown (k : Stake) :
    let j := k.sspBadFrame
    j.pos.sspFrame = k.pos.sspFrame ∧ j.pos.sspBad = min (k.pos.sspBad + 1) 255 ∧
      j.rd Reg.POS_SSP_ERR_CNT = satAdd 16 (k.rd Reg.POS_SSP_ERR_CNT) 1 := by
  unfold Stake.sspBadFrame
  extract_lets n q j
  have hb : (k.bump Reg.POS_SSP_ERR_CNT).pos = k.pos := (Stake.Only.bump .refl : Stake.Only [.regs] k _).pos
  have hq : (k.bump Reg.POS_SSP_ERR_CNT).regsKept q [] := .onPos .refl
  have hs : q.sourcesKept j := .ite (.posFault .refl) .refl
  have hr : q.regsKept j (Reg.POS_SRC_STATUS 3 :: syncRegs) := .ite (.posFault .refl (List.Subset.refl _)) .refl
  refine ⟨(hs.get PosState.sspFrame fun _ => rfl).trans (congrArg PosState.sspFrame (a₁ := (k.bump Reg.POS_SSP_ERR_CNT).pos) hb), hs.get PosState.sspBad fun _ => rfl, ?_⟩
  rw [hr _ (by decide), hq _ List.not_mem_nil, Stake.rd_bump_same]

/-- R117, R118: a frame with a good check. -/
theorem Stake.sspFrameIn_good {r : Word48} {pay crc : List Bool} {err : Bool} (hpay : pay.length = k.fld Reg.POS_SSP_CFG_PAY_BITS)
    (herr : (err != k.flag Reg.POS_SSP_CFG_ERR_POL) = true) :
    let cw := if k.flag Reg.POS_SSP_CFG_CRC8 then 8 else 6
    let sum := sspCrc cw (k.fld Reg.POS_SSP_CRC_POLY) (pay ++ [err]) (k.fld Reg.POS_SSP_CRC_INIT % 2 ^ cw)
    bitsNat crc = (if k.flag Reg.POS_SSP_CRC_INV then 2 ^ cw - 1 - sum else sum) →
    let j := k.sspFrameIn r (pay ++ [err] ++ crc)
    j.pos.sspFrame = none ∧ j.get48 Reg.POS_SSP_RAW = BitVec.ofNat 48 (bitsNat pay) ∧ j.pos.sspBad = 0 ∧
      j.rd Reg.POS_SSP_ERR_CNT = k.rd Reg.POS_SSP_ERR_CNT := by
  intro cw sum hcrc
  have htake : (pay ++ [err] ++ crc).take (pay.length + 1) = pay ++ [err] := List.take_left' (by simp)
  have hdrop : (pay ++ [err] ++ crc).drop (pay.length + 1) = crc := List.drop_left' (by simp)
  have htake' : (pay ++ [err] ++ crc).take pay.length = pay := by rw [List.append_assoc]; exact List.take_left' rfl
  have hnth : nth false (pay ++ [err] ++ crc) pay.length = err := by simp [nth]
  unfold Stake.sspFrameIn
  rw [← hpay]
  extract_lets pay' q crc' want errOk v st angle tm last speed m m1 m2 j
  have hq : k.regsKept q [] := k.sspEnd_regsKept
  have hc : crc' = sum := by
    simp only [crc', pay', htake, hq.fld List.not_mem_nil]
    rfl
  have hwant : bitsNat ((pay ++ [err] ++ crc).drop (pay' + 1)) = want := by
    simp only [pay', hdrop, want, hc, hq.flag List.not_mem_nil]
    exact hcrc
  have hok : errOk = true := by
    simp only [errOk, pay', hnth, hq.flag List.not_mem_nil]
    exact herr
  have hv : v = bitsNat pay := congrArg bitsNat htake'
  have hj : j = if !m.posLive 3 then m else m2.measure 3 angle tm speed :=
    if_neg (by rw [hok, decide_eq_false (not_not.2 hwant)]; decide)
  have hm2 : Stake.Only [.regs, .out, .prt, .ang, .vote] m m2 := .ite (.dirHyst (.ite (.put (.putB .refl)) .refl)) (.ite (.put (.putB .refl)) .refl)
  have hs : m.sourcesKept j := by
    rw [hj]
    exact .ite .refl (.measure (.only .refl hm2))
  have hm1 : m.regsKept m1 [Reg.POS_SRC_STATUS 3] := .ite (.put (.putB .refl (by decide)) (by decide)) .refl
  have hr : m.regsKept j (Reg.POS_SRC_STATUS 3 :: measRegs 3) := by
    rw [hj]
    exact .ite .refl (.measure (.mono (.ite (.dirHyst hm1 (by decide)) hm1) (by decide)) (by decide))
  have hput : (q.put48 Reg.POS_SSP_RAW (BitVec.ofNat 48 v)).regsKept m [] := .onPos .refl
  have hk : k.regsKept m [Reg.POS_SSP_RAW, Reg.POS_SSP_RAW + 4] := .onPos (.put48 (.mono hq (by decide)) (by decide) (by decide))
  refine ⟨hs.get PosState.sspFrame fun _ => rfl, ?_, hs.get PosState.sspBad fun _ => rfl, ?_⟩
  · rw [hr.get48 (by decide) (by decide), hput.get48 List.not_mem_nil List.not_mem_nil, Stake.get48_put48_same, hv]
  · rw [hr _ (by decide), hk _ (by decide)]

end

/-- Settles O21. -/
theorem serialFrames : Obligations.SerialFrames := by
  refine ⟨fun s n hp hen hgrid => ?_, fun s n r wave hp hr hst hto => ?_, fun s n r pay crc err wave hp hr => ?_⟩
  · intro k
    obtain ⟨t, hx, he, hs⟩ := exec_onStake hp fun k =>
      if !k.posEn 3 || k.ang.tick.toNat % max 1 (k.fld Reg.POS_SSP_PERIOD_PERIOD) ≠ 0 then k
      else if k.pos.sspFrame.isSome || k.now < k.pos.sspFree then k.bump Reg.POS_SSP_ERR_CNT
      else k.onPos fun p => { p with sspFrame := some k.ang.tick }
    refine ⟨t, hx, he, ?_⟩
    have hs' := hs.trans (if_neg (by simp [hen, hgrid]))
    split
    · next hbusy =>
      have hb : Stake.Only [.regs] k (k.bump Reg.POS_SSP_ERR_CNT) := .bump .refl
      rw [hs'.trans (if_pos hbusy)]
      exact ⟨k.rd_bump_same _, hb.pos, .bump .refl (by decide)⟩
    · next hfree => exact hs'.trans (if_neg hfree)
  · obtain ⟨t, hx, he, hs⟩ := exec_onStake hp fun k => match k.pos.sspFrame with
      | some r =>
        if k.fld Reg.POS_SSP_TIMING_START_TO * (2 * k.fld Reg.POS_SSP_CFG_HALF_DIV) ≤ (k.ang.tick - r).toNat && (k.sspStart r wave).isNone then
          k.sspEnd.sspBadFrame else k
      | none => k
    refine ⟨t, hx, he, ?_⟩
    rw [hs]
    simp only [hr, hst, Option.isNone_none, Bool.and_true, decide_eq_true hto, if_true]
    obtain ⟨hf, hb, hc⟩ := Stake.sspBadFrame_shown (s.stake n).sspEnd
    exact ⟨hf, hb, hc⟩
  · intro k cw sum hpay hcrc herr hsum hbits
    obtain ⟨t, hx, he, hs⟩ := exec_onStake hp fun k => match k.pos.sspFrame with
      | some r => (match k.sspBits r wave with
        | some bits => k.sspFrameIn r bits
        | none => k)
      | none => k
    refine ⟨t, hx, he, ?_⟩
    have hbits' : (s.stake n).sspBits r wave = some (pay ++ [err] ++ crc) := hbits
    rw [hs]
    simp only [hr, hbits']
    exact Stake.sspFrameIn_good hpay herr hsum
end Sys2Proof.Machine

/-! Position-compare and encoder outputs (R125 to R128). -/
namespace Sys2Proof.Machine
set_option Elab.async false

section
variable {k : Stake}

/-- R125: a pulse on an output that is at rest, or whose last pulse lies four ticks back or more. -/
theorem Stake.comparePulse_free {i : Nat} {x : Instant} (hen : k.flag Reg.POS_CTRL_CMP_EN = true) (hi : i < 8)
    (hc : k.flag (Reg.POS_CMP_EN i) = true) {c : CmpOut} (hn : nth {} k.pos.cmp (k.fld (Reg.POS_CMP_OUT i)) = c) (ha : c.active = false)
    (hran : c.ran = true → laterInstant c.endAt x = true ∨ 128 ≤ x.minus c.endAt) :
    k.comparePulse i x = k.onPos fun p => { p with cmp := updAt p.cmp (k.fld (Reg.POS_CMP_OUT i)) fun _ =>
      ⟨true, x, ⟨x.tick + BitVec.ofNat 48 (k.fld (Reg.POS_CMP_WIDTH i)), x.fine⟩, true,
        (cellOf x.fine k.cellsNow, cellOf x.fine k.cellsNow)⟩ } := by
  have hon : (c.active || (c.ran && !laterInstant c.endAt x && Decidable.decide (x.minus c.endAt < 128))) = false := by
    cases hr : c.ran with
    | false => simp [ha]
    | true =>
      rcases hran hr with h | h
      · simp [ha, h]
      · simp [ha, Int.not_lt.2 h]
  unfold Stake.comparePulse
  rw [if_neg (by simp [hen, hi, hc])]
  simp only [hn, hon, Bool.false_and, Bool.false_eq_true, if_false]

end

/-- What COMPARE leaves of the outputs. -/
theorem getElem?_updAt_same {α : Type} {l : List α} {o : Nat} {c : α} (h : l[o]? = some c) (f : α → α) :
    (updAt l o f)[o]? = some (f c) := by
  simp [updAt, h]

theorem getElem?_updAt_ne {α : Type} (l : List α) {o p : Nat} (h : p ≠ o) (f : α → α) : (updAt l o f)[p]? = l[p]? := by
  simp [updAt, h.symm]

theorem nth_of_getElem? {α : Type} {l : List α} {o : Nat} {c d : α} (h : l[o]? = some c) : nth d l o = c := by simp [nth, h]

section
variable (k : Stake)

/-- R128: an episode of lag changes the emulated output's flag of it alone. -/
theorem Stake.emuLag_pos : ∃ b, k.emuLag.pos = { k.pos with emu := { k.pos.emu with lag := b } } := by
  unfold Stake.emuLag
  split
  · exact ⟨_, rfl⟩
  · extract_lets lag q
    have hq : Stake.Only [.regs] k q := .ite (.bump .refl) .refl
    split
    · exact ⟨k.pos.emu.lag, hq.pos⟩
    · refine ⟨lag, ?_⟩
      change { q.pos with emu := { q.pos.emu with lag := lag } } = _
      rw [hq.pos]

theorem Stake.emuLag_only : Stake.Only [.regs, .pos] k k.emuLag :=
  .ite .refl (.ite (.ite (.bump .refl) .refl) (.onPos (.ite (.bump .refl) .refl)))

theorem Stake.emuLag_regsKept : k.regsKept k.emuLag [Reg.POS_EMU_LAG_CNT] := by
  have hm : Reg.POS_EMU_LAG_CNT ∈ [Reg.POS_EMU_LAG_CNT] := by decide
  exact .ite .refl (.ite (.ite (.bump .refl hm) .refl) (.onPos (.ite (.bump .refl hm) .refl)))

end

/-- Settles O22. -/
theorem positionOutputs : Obligations.PositionOutputs := by
  refine ⟨fun s n e a hp hdue hen harg hc => ?_, fun s n o c hp hc ha hr hsoon => ?_, fun s n a b z hp hm => ?_, fun s n hp hm hv => ?_⟩
  · intro k o c hcmp hact hran
    obtain ⟨t, hx, he, hs⟩ := exec_takeAct hp hdue fun a q => q.comparePulse a.arg a.at_
    refine ⟨t, hx, he, ?_⟩
    rw [hs.trans (Stake.comparePulse_free (k := { k with ang := { k.ang with acts := k.ang.acts.erase a } }) hen harg hc
      (nth_of_getElem? hcmp) hact hran)]
    exact ⟨getElem?_updAt_same hcmp _, fun p hp => getElem?_updAt_ne _ hp _, rfl⟩
  · obtain ⟨t, hx, he, hs⟩ := exec_onStake hp fun k =>
      let c := nth {} k.pos.cmp o
      if !c.active || !reached k.ang.tick (if c.endAt.fine = 0 then c.endAt.tick else c.endAt.tick + 1) || k.compareSoon o c.endAt then k
      else k.onPos fun p => { p with cmp := updAt p.cmp o fun x => { x with active := false } }
    refine ⟨t, hx, he, ?_⟩
    have hn : nth {} (s.stake n).pos.cmp o = c := nth_of_getElem? hc
    rw [hs.trans (if_neg (by simp only [hn, ha, hr, hsoon]; decide))]
    exact ⟨getElem?_updAt_same hc _, fun p hp => getElem?_updAt_ne _ hp _, rfl⟩
  · obtain ⟨t, hx, he, hs⟩ := exec_onStake hp fun k =>
      let k := k.onPos fun p => { p with inA := a, inB := b, inZ := z }
      if k.fld Reg.POS_CTRL_EMU_MODE = 1 then k.onPos fun p => { p with emu := { p.emu with a := a, b := b, z := z } } else k
    exact ⟨t, hx, he, hs.trans (if_pos hm)⟩
  · intro k up hup hsp c
    obtain ⟨t, hx, he, hs⟩ := exec_onStake hp fun k => k.emuStep
    refine ⟨t, hx, he, ?_⟩
    have hruns : k.emuRuns = true := by simp [Stake.emuRuns, k, hm, hv]
    have hgo : ¬(!k.emuRuns || decide (up = 0) || decide (k.now < k.pos.emu.lastStep + k.fld Reg.POS_EMU_CFG_MIN_SP)) = true := by
      simp [hruns, hup, hsp]
    obtain ⟨f, hf⟩ : ∃ f : PosState → PosState, (k.emuLag.onPos f).emuLag = t.stake n ∧ ∀ p, ((f p).emu.a, (f p).emu.b) = emuLevels c ∧
        (f p).emu.count = c ∧ (f p).emu.lastStep = k.emuLag.now :=
      ⟨_, (hs.trans (if_neg hgo)).symm, fun p => ⟨rfl, rfl, rfl⟩⟩
    obtain ⟨heq, hf⟩ := hf
    obtain ⟨hlev, hcnt, hlast⟩ := hf k.emuLag.pos
    obtain ⟨b, hb⟩ := (k.emuLag.onPos f).emuLag_pos
    have ho : Stake.Only [.regs, .pos] k (t.stake n) := by
      rw [← heq]
      exact .step (.onPos k.emuLag_only) (Stake.emuLag_only _)
    have hr : k.regsKept (t.stake n) [Reg.POS_EMU_LAG_CNT] := by
      rw [← heq]
      exact .trans (.onPos k.emuLag_regsKept) (Stake.emuLag_regsKept _)
    have hemu : (t.stake n).pos.emu = { (f k.emuLag.pos).emu with lag := b } := by
      rw [← heq, hb]
      rfl
    rw [hemu]
    exact ⟨hcnt, hlast.trans (k.emuLag_only.now), hlev, hr, ho.eq_copy⟩
end Sys2Proof.Machine

/-! Enabling and disabling position sources (R98, R101). -/
namespace Sys2Proof.Machine
set_option Elab.async false

theorem Fld.of_flag (f : Fld) (hw : f.w = 1) (x : Reg32) : Decidable.decide (f.of x ≠ 0) = x.getLsbD f.lo := by
  have h : f.of x = (x.toNat >>> f.lo) % 2 := by simp [Fld.of, hw]
  rw [h, ← BitVec.testBit_toNat, Nat.testBit_eq_decide_div_mod_eq, Nat.shiftRight_eq_div_pow]
  have := Nat.mod_two_eq_zero_or_one (x.toNat / 2 ^ f.lo)
  rcases this with h | h <;> simp [h]

section
variable (k : Stake)

/-- What a flag of a register reads as once the register has been written. -/
theorem Stake.flag_wr (f : Fld) (hw : f.w = 1) (v : Reg32) : (k.wr f.off v).flag f = v.getLsbD f.lo := by
  rw [← Fld.of_flag f hw]
  have h : (k.wr f.off v).fld f = f.of v := by simp [Stake.fld]
  rw [Stake.flag, h]

/-- The registers that enabling or disabling a source writes. -/
def sourceRegs (s : Nat) : List Nat := Reg.POS_SRC_STATUS s :: Reg.POS_ENC_ALIGN :: (measRegs s ++ syncRegs)

theorem Stake.hallFirst_regsKept (i : Nat) : k.regsKept (k.hallFirst i) (sourceRegs 2) :=
  .measure (.putB (.putB (.onPos .refl) (by decide)) (by decide)) (by decide)

theorem Stake.posStop_regsKept (s : Nat) : k.regsKept (k.posStop s) (sourceRegs s) := by
  have hm : Reg.POS_SRC_STATUS s ∈ sourceRegs s := List.mem_cons_self
  have h : k.regsKept ((k.posLost s).wr (Reg.POS_SRC_STATUS s) (k.rd (Reg.POS_SRC_STATUS s) &&& 0x900)) (sourceRegs s) :=
    .wr (.posLost .refl (List.cons_subset_cons _ fun _ h => List.mem_cons_of_mem _ (List.mem_append_right _ h))) hm
  exact .ite (.onPos h) h

theorem Stake.hallFirst_faulted (i : Nat) :
    (k.hallFirst i).flag (Reg.POS_SRC_STATUS_FAULTED 2) = k.flag (Reg.POS_SRC_STATUS_FAULTED 2) := by
  let q := k.onPos fun p => { p with sector := some i, illegal := none, hal := { p.hal with angle := hallCentre i } }
  have hq : k.regsKept q [] := .onPos .refl
  let m := (q.putB (Reg.POS_SRC_STATUS_VALID 2) true).putB (Reg.POS_SRC_STATUS_COARSE 2) true
  have hm := m.measure_regsKept 2 (hallCentre i) m.ang.tick 0
  refine (hm.flag (by decide)).trans ?_
  rw [Stake.flag_putB_ne _ _ _ _ (by decide), Stake.flag_putB_ne _ _ _ _ (by decide), hq.flag List.not_mem_nil]

/-- What every source starts from. -/
def Stake.posClear (k : Stake) (s : Nat) : Stake :=
  (((k.wr (Reg.POS_SRC_STATUS s) (k.rd (Reg.POS_SRC_STATUS s) &&& 0x800)).put48 (Reg.POS_SRC_ANGLE s) 0).put48 (Reg.POS_SRC_SPEED s) 0).onPos
    fun p => { p with sentAt := updAt p.sentAt s fun _ => none }

theorem Stake.posClear_regsKept (s : Nat) : k.regsKept (k.posClear s) (sourceRegs s) := by
  refine .onPos (.put48 (.put48 (.wr .refl ?_) ?_ ?_) ?_ ?_) <;> simp [sourceRegs, measRegs]

/-- R102: a source starts with its state cleared, and with nothing else of its status but what a Hall state gives it. -/
theorem Stake.posStart_cases {s : Nat} (hs : s < 4) : (k.posClear s).regsKept (k.posStart s) (sourceRegs s) ∧
    (k.posStart s).flag (Reg.POS_SRC_STATUS_FAULTED s) = (k.posClear s).flag (Reg.POS_SRC_STATUS_FAULTED s) := by
  have hn : ∀ {q j : Stake} (f : Fld), q.regsKept j [] → j.flag f = q.flag f := fun f h => h.flag List.not_mem_nil
  match s, hs with
  | 0, _ => exact ⟨.onPos .refl, hn _ (.onPos .refl)⟩
  | 3, _ => exact ⟨.onPos .refl, hn _ (.onPos .refl)⟩
  | 1, _ =>
    refine ⟨.onPos (.put (.put .refl (by decide)) (by decide)), (hn _ (.onPos .refl)).trans ?_⟩
    rw [Stake.flag_put_ne _ _ _ _ (by decide), Stake.flag_put_ne _ _ _ _ (by decide)]
    rfl
  | 2, _ =>
    let q := ((k.posClear 2).put (Reg.POS_SRC_STATUS_QUAL 2) 1).onPos fun p =>
      { p with sector := none, illegal := none, hal := { lastAt := (k.posClear 2).now } }
    have hq : (k.posClear 2).regsKept q (sourceRegs 2) := .onPos (.put .refl (by decide))
    have hqf : q.flag (Reg.POS_SRC_STATUS_FAULTED 2) = (k.posClear 2).flag (Reg.POS_SRC_STATUS_FAULTED 2) :=
      (hn (q := (k.posClear 2).put (Reg.POS_SRC_STATUS_QUAL 2) 1) _ (.onPos .refl)).trans (Stake.flag_put_ne _ _ _ _ (by decide))
    have hst : k.posStart 2 = match q.hallState with
      | some i => q.hallFirst i
      | none => q.onPos fun p => { p with illegal := some q.now } := rfl
    rw [hst]
    split
    · exact ⟨hq.trans (q.hallFirst_regsKept _), (q.hallFirst_faulted _).trans hqf⟩
    · exact ⟨.onPos hq, (hn (q := q) _ (.onPos .refl)).trans hqf⟩

theorem Stake.posStart_regsKept {s : Nat} (hs : s < 4) : k.regsKept (k.posStart s) (sourceRegs s) :=
  (k.posClear_regsKept s).trans (k.posStart_cases hs).1

/-- R101: a source just enabled is not faulted. -/
theorem Stake.posStart_faulted {s : Nat} (hs : s < 4) : (k.posStart s).flag (Reg.POS_SRC_STATUS_FAULTED s) = false := by
  rw [(k.posStart_cases hs).2]
  have h : (k.wr (Reg.POS_SRC_STATUS s) (k.rd (Reg.POS_SRC_STATUS s) &&& 0x800)).regsKept (k.posClear s)
      [Reg.POS_SRC_ANGLE s, Reg.POS_SRC_ANGLE s + 4, Reg.POS_SRC_SPEED s, Reg.POS_SRC_SPEED s + 4] :=
    .onPos (.put48 (.put48 .refl (by simp) (by simp)) (by simp) (by simp))
  rw [h.flag (by simp [Reg.POS_SRC_STATUS_FAULTED, Reg.POS_SRC_ANGLE, Reg.POS_SRC_SPEED]; omega)]
  refine (k.flag_wr (Reg.POS_SRC_STATUS_FAULTED s) rfl _).trans ?_
  simp [Reg.POS_SRC_STATUS_FAULTED]

/-- R101: a source just disabled is neither faulted nor valid. -/
theorem Stake.posStop_flags (s : Nat) :
    (k.posStop s).flag (Reg.POS_SRC_STATUS_FAULTED s) = false ∧ (k.posStop s).flag (Reg.POS_SRC_STATUS_VALID s) = false := by
  have h : ((k.posLost s).wr (Reg.POS_SRC_STATUS s) (k.rd (Reg.POS_SRC_STATUS s) &&& 0x900)).regsKept (k.posStop s) [] :=
    .ite (.onPos .refl) .refl
  rw [h.flag List.not_mem_nil, h.flag List.not_mem_nil]
  refine ⟨((k.posLost s).flag_wr (Reg.POS_SRC_STATUS_FAULTED s) rfl _).trans ?_,
    ((k.posLost s).flag_wr (Reg.POS_SRC_STATUS_VALID s) rfl _).trans ?_⟩ <;>
    simp [Reg.POS_SRC_STATUS_FAULTED, Reg.POS_SRC_STATUS_VALID]

end

/-- A write of `POS_CTRL` starts or stops one source, or leaves it. -/
def Stake.posSwitch (w old : Reg32) (q : Stake) (s : Nat) : Stake :=
  if w.getLsbD s && !old.getLsbD s then q.posStart s else if !w.getLsbD s && old.getLsbD s then q.posStop s else q

theorem Stake.posSwitch_regsKept (w old : Reg32) (q : Stake) {s : Nat} (hs : s < 4) : q.regsKept (q.posSwitch w old s) (sourceRegs s) :=
  .ite (q.posStart_regsKept hs) (.ite (q.posStop_regsKept s) .refl)

theorem sourceRegs_disjoint {s i : Nat} (hs : s < 4) (hi : i < 4) (h : s ≠ i) : Reg.POS_SRC_STATUS i ∉ sourceRegs s := by
  have h' : ∀ s < 4, ∀ i < 4, s ≠ i → Reg.POS_SRC_STATUS i ∉ sourceRegs s := by decide
  exact h' s hs i hi h

theorem posCtrl_not_mem {s : Nat} (hs : s < 4) : Reg.POS_CTRL ∉ sourceRegs s := by
  have h' : ∀ s < 4, Reg.POS_CTRL ∉ sourceRegs s := by decide
  exact h' s hs

theorem foldl_kept {α β : Type} {f : β → α → β} {P : β → Prop} (l : List α) {b : β} (hb : P b) (h : ∀ b, ∀ a ∈ l, P b → P (f b a)) :
    P (l.foldl f b) := by
  induction l generalizing b with
  | nil => exact hb
  | cons a l ih => exact ih (h b a List.mem_cons_self hb) fun b x hx => h b x (List.mem_cons_of_mem a hx)

/-- What one step of a fold settles and the others leave holds at its end. -/
theorem foldl_settles {α β : Type} {f : β → α → β} {P : β → Prop} {i : α} (hi : ∀ b, P (f b i)) (l : List α) {b : β} (hl : i ∈ l)
    (h : ∀ b, ∀ a ∈ l, a ≠ i → P b → P (f b a)) : P (l.foldl f b) := by
  induction l generalizing b with
  | nil => cases hl
  | cons a l ih =>
    have h' : ∀ b, ∀ x ∈ l, x ≠ i → P b → P (f b x) := fun b x hx => h b x (List.mem_cons_of_mem a hx)
    rcases List.mem_cons.1 hl with rfl | hm
    · refine foldl_kept l (hi b) fun b x hx hb => ?_
      by_cases hxi : x = i
      · exact hxi ▸ hi b
      · exact h' b x hx hxi hb
    · exact ih hm h'

/-- The four enable bits are stored as written. -/
theorem Stake.store_posCtrl (k : Stake) (w : Reg32) {i : Nat} (hi : i < 4) :
    ((k.store Reg.POS_CTRL w).rd Reg.POS_CTRL).getLsbD i = w.getLsbD i := by
  obtain ⟨r, hr, hc, hb, hm, hw⟩ : ∃ r, regAt Reg.POS_CTRL = some r ∧ counterWidth r = none ∧ r.base ≠ Reg.ANG_TICK_STATUS ∧
      (∀ i < 4, (r.mask .rw).getLsbD i = true) ∧ r.mask .w1c = 0 :=
    ⟨_, rfl, by decide +kernel, by decide +kernel, by decide +kernel, by decide +kernel⟩
  have hst : (k.store Reg.POS_CTRL w).rd Reg.POS_CTRL = r.merge (k.rd Reg.POS_CTRL) w := by
    unfold Stake.store
    rw [hr]
    exact Stake.rd_wr_same ..
  have hones : ∀ i < 4, (4294967295#32).getLsbD i = true := by decide
  rw [hst]
  simpa [RegD.merge, RegD.clear, hc, hb, hw, hm i hi] using fun _ => hones i hi

section
variable {k : Stake} {w : Reg32}

/-- R98, R101: what a write of `POS_CTRL` does to the sources: its enable bits are stored, and each source is switched. -/
theorem Stake.wPosCtrl_eq (h : Reg.POS_CTRL_POLE_PAIRS.of (k.rd Reg.POS_CTRL) = Reg.POS_CTRL_POLE_PAIRS.of w ∨ (k.rd Reg.POS_CTRL ||| w) &&& 0xF = 0) :
    ∃ q : Stake, (q.rd Reg.POS_CTRL = (k.store Reg.POS_CTRL w).rd Reg.POS_CTRL) ∧
      k.wPosCtrl false w = [0, 1, 2, 3].foldl (fun q s => q.posSwitch w (k.rd Reg.POS_CTRL) s) q := by
  unfold Stake.wPosCtrl
  extract_lets old w' pp q q1 q2
  have hw : w' = w := if_neg Bool.false_ne_true
  refine ⟨q2, ?_, if_neg ?_⟩
  · have h1 : q.regsKept q1 [Reg.POS_TURNS] := .ite (.onPos (.wr .refl (by decide))) .refl
    have h2 : q.regsKept q2 [Reg.POS_TURNS] := .ite (.onPos h1) h1
    exact h2 _ (by decide)
  · rcases h with h | h
    · simp [old, pp, hw, h]
    · rw [hw, show (old ||| w) &&& 0xF = 0 from h]
      simp

theorem Stake.wPosCtrl_sources (h : Reg.POS_CTRL_POLE_PAIRS.of (k.rd Reg.POS_CTRL) = Reg.POS_CTRL_POLE_PAIRS.of w ∨
      (k.rd Reg.POS_CTRL ||| w) &&& 0xF = 0) {i : Nat} (hi : i < 4) :
    (k.wPosCtrl false w).posEn i = w.getLsbD i ∧
      (w.getLsbD i = true → (k.rd Reg.POS_CTRL).getLsbD i = false → (k.wPosCtrl false w).flag (Reg.POS_SRC_STATUS_FAULTED i) = false) ∧
      (w.getLsbD i = false → (k.rd Reg.POS_CTRL).getLsbD i = true → (k.wPosCtrl false w).flag (Reg.POS_SRC_STATUS_FAULTED i) = false ∧
        (k.wPosCtrl false w).flag (Reg.POS_SRC_STATUS_VALID i) = false) := by
  obtain ⟨q, hq, he⟩ := Stake.wPosCtrl_eq h
  have hm : i ∈ [0, 1, 2, 3] := by simp; omega
  have hlt : ∀ s ∈ [0, 1, 2, 3], s < 4 := by decide
  have hflag : ∀ (b : Stake) (f : Fld), f.off = Reg.POS_SRC_STATUS i → ∀ s ∈ [0, 1, 2, 3], s ≠ i →
      (b.posSwitch w (k.rd Reg.POS_CTRL) s).flag f = b.flag f := fun b f hf s hs hne =>
    (b.posSwitch_regsKept _ _ (hlt s hs)).flag (by rw [hf]; exact sourceRegs_disjoint (hlt s hs) hi hne)
  rw [he]
  refine ⟨?_, fun hw ho => ?_, fun hw ho => ?_⟩
  · have hk : (List.foldl (fun q s => q.posSwitch w (k.rd Reg.POS_CTRL) s) q [0, 1, 2, 3]).rd Reg.POS_CTRL = q.rd Reg.POS_CTRL :=
      foldl_kept (P := fun b : Stake => b.rd Reg.POS_CTRL = q.rd Reg.POS_CTRL) _ rfl fun b s hs hb =>
        ((b.posSwitch_regsKept _ _ (hlt s hs)) _ (posCtrl_not_mem (hlt s hs))).trans hb
    rw [Stake.posEn, hk, hq, Stake.store_posCtrl _ _ hi]
  · refine foldl_settles (P := fun b : Stake => b.flag (Reg.POS_SRC_STATUS_FAULTED i) = false) (fun b => ?_) _ hm
      fun b s hs hne hb => (hflag b _ rfl s hs hne).trans hb
    rw [Stake.posSwitch, if_pos (by simp [hw, ho])]
    exact b.posStart_faulted hi
  · refine foldl_settles (P := fun b : Stake => b.flag (Reg.POS_SRC_STATUS_FAULTED i) = false ∧ b.flag (Reg.POS_SRC_STATUS_VALID i) = false)
      (fun b => ?_) _ hm fun b s hs hne hb => ⟨(hflag b _ rfl s hs hne).trans hb.1, (hflag b _ rfl s hs hne).trans hb.2⟩
    rw [Stake.posSwitch, if_neg (by simp [hw]), if_pos (by simp [hw, ho])]
    exact b.posStop_flags i

end

/-- Settles O23: both writes end in `wPosCtrl`. -/
theorem sourcesEnabled : Obligations.SourcesEnabled := by
  intro s n src w levels ha hlock k old hpp
  refine ⟨fun hw => ?_, fun hw => ?_⟩
  · obtain ⟨t, hx, he, hs⟩ := exec_stakeWrite ha fun k =>
      if w &&& ~~~ k.rd Reg.POS_CTRL &&& 0xF = 0 then k
      else (if k.rd Reg.POS_CTRL &&& 6 = 0 then k.posLevels levels else k).wPosCtrl s.locked w
    refine ⟨t, hx, he, fun i hi => ?_⟩
    have hl : k.regsKept (if k.rd Reg.POS_CTRL &&& 6 = 0 then k.posLevels levels else k) [] := .ite (.onPos .refl) .refl
    have hr := hl Reg.POS_CTRL List.not_mem_nil
    obtain ⟨h1, h2, -⟩ := Stake.wPosCtrl_sources (by rw [hr]; exact hpp) hi
    rw [hr] at h2
    rw [hs.trans (if_neg hw), hlock]
    exact ⟨h1, h2⟩
  · obtain ⟨t, hx, he, hs⟩ := exec_stakeWrite ha fun k =>
      if k.rd Reg.POS_CTRL &&& ~~~ w &&& 0xF = 0 then k else k.wPosCtrl s.locked w
    refine ⟨t, hx, he, fun i hi => ?_⟩
    obtain ⟨h1, -, h3⟩ := Stake.wPosCtrl_sources hpp hi
    rw [hs.trans (if_neg hw), hlock]
    exact ⟨h1, h3⟩
end Sys2Proof.Machine

/-! Set-up writes under the lock (R377, R421). -/
namespace Sys2Proof.Machine
set_option Elab.async false

/-- A locked package whose stakes are alive. -/
def lockedAlive : State :=
  { State.reset with pkg := (State.reset.pkg.putB Reg.HIF_SETUP_LOCK_LOCK true).put Reg.HIF_PKG_ALIVE_ALIVE 255 }

/-- A TUNE descriptor enables sensor 0 with its other fields as they are: under the lock the register keeps `EN` (R421). -/
theorem lockedAlive_sensor :
    ∀ t, exec (.setupRegisterWrite .tune (Reg.THM_SENS_CFG 0) 0x80640800) lockedAlive = .next t →
      ((t.stake 0).rd (Reg.THM_SENS_CFG 0)).getLsbD 31 = false := by
  intro t ht
  have h : (match exec (.setupRegisterWrite .tune (Reg.THM_SENS_CFG 0) 0x80640800) lockedAlive with
    | .next t => ((t.stake 0).rd (Reg.THM_SENS_CFG 0)).getLsbD 31
    | _ => true) = false := by decide +kernel
  rw [ht] at h
  exact h

/-- Refutes O28: a write its first clause admits may be stored in part only: the lock leaves to a TUNE descriptor `GRACE` and `I_THR` of
`THM_SENSk_CFG`, and the other bits stay as they were. -/
theorem not_registerWrites : ¬ Obligations.RegisterWrites := by
  intro h
  obtain ⟨r, hr, hm⟩ : ∃ r, regAt (Reg.THM_SENS_CFG 0) = some r ∧
      (r.merge ((lockedAlive.stake 0).rd (Reg.THM_SENS_CFG 0)) (liveBits (Reg.THM_SENS_CFG 0) 0x80640800)).getLsbD 31 = true :=
    ⟨_, rfl, by decide +kernel⟩
  have ha : lockedAlive.admits .tune 0 (Reg.THM_SENS_CFG 0) 0x80640800 := by
    refine ⟨by decide +kernel, by decide +kernel, fun r' hr' => ?_⟩
    have h' : ((regAt (Reg.THM_SENS_CFG 0)).all fun r => r.inRange 0x80640800) = true := by decide +kernel
    rw [hr'] at h'
    exact h'
  obtain ⟨⟨t, ht, _, hrd, _⟩, _⟩ := h.1 lockedAlive .tune 0 (Reg.THM_SENS_CFG 0) r 0x80640800 (by decide) (by decide) (by decide) ha hr
    (by decide +kernel)
  have hb := lockedAlive_sensor t ht
  rw [hrd, hm] at hb
  exact absurd hb (by decide)

end Sys2Proof.Machine

/-! The ring's master (R30). -/
namespace Sys2Proof.Machine
set_option Elab.async false

/-- A package that has failed its start for good, with its stakes still shown as alive. -/
def deadAlive : State := (lockedAlive.onBoot fun b => { b with phase := .dead })

/-- No heartbeat leaves its stake 0. -/
theorem deadAlive_quiet : ∀ t, exec (.heartbeatSend 0) deadAlive = .next t → ∀ d, nth [] ((t.stake 0).dir d).queues 0 = [] := by
  intro t ht
  have h : (match exec (.heartbeatSend 0) deadAlive with
    | .next t => [Dir.asc, .dsc].all fun d => (nth [] ((t.stake 0).dir d).queues 0).isEmpty
    | _ => false) = true := by decide +kernel
  rw [ht] at h
  intro d
  have hd := List.all_eq_true.1 h d (by cases d <;> decide)
  exact List.isEmpty_iff.1 hd

/-- Refutes O31: its first clause asks that the ring master be alive, but a package in the phase of a failed start is out of service. -/
theorem not_ringMasterAndLosses : ¬ Obligations.RingMasterAndLosses := by
  intro h
  obtain ⟨t, ht, _, _, d, c, hc, _⟩ := h.1 deadAlive 0 1 (by decide +kernel) (.inl ⟨rfl, by decide +kernel⟩) (by decide +kernel) (by decide +kernel)
    (fun d => by cases d <;> decide +kernel) (by decide +kernel) (by decide) (by decide +kernel)
  rw [deadAlive_quiet t ht d] at hc
  cases hc

end Sys2Proof.Machine

/-! The decision on a short circuit (R297). -/
namespace Sys2Proof.Machine
set_option Elab.async false

/-- A stake whose one phase port, ready, has reported its high side as shorted, at high speed, in an episode that a die above 175 °C
joined. -/
def dieEpisode : Stake :=
  let k := ((Stake.reset 0).wrAct (Reg.LEG_PORT_CFG 0) ((Reg.LEG_PORT_CFG_PRESENT 0).put ((Stake.reset 0).rdAct (Reg.LEG_PORT_CFG 0)) 1)).put
    (Reg.LEG_PORT_STATUS_LINK 0) 3
  let k := ((k.put Reg.PLT_PS_STATUS_IDENT 1).put Reg.PLT_PS_STATUS_BAND 1).putB Reg.PLT_PS_STATUS_STALE false
  { k with now := 1000000, prt := { k.prt with episode := some { start := 0, cause := 2, faulted := [0], soft := [], closed := some 0, die := true } } }

/-- The same as stake 0 of a package. -/
def dieEpisodeState : State := State.reset.onStake 0 fun _ => dieEpisode

/-- The resolver turns its legs off: the die comes before the side that shorted. -/
theorem dieEpisode_legsOff : ∀ t, exec (.scDecide 0) dieEpisodeState = .next t → (t.stake 0).fld Reg.PLT_PS_STATUS_SUBSTATE = 1 := by
  intro t ht
  have h : (match exec (.scDecide 0) dieEpisodeState with
    | .next t => (t.stake 0).fld Reg.PLT_PS_STATUS_SUBSTATE == 1
    | _ => false) = true := by decide +kernel
  rw [ht] at h
  exact eq_of_beq h

/-- Refutes O48: its fourth clause leaves out the die that came during the episode (R285 item 1, R297). -/
theorem not_sequencerSeizes : ¬ Obligations.SequencerSeizes := by
  intro h
  obtain ⟨_, _, _, hdecide, _, _⟩ := h
  obtain ⟨t, _, ht, _, _, _, hsub⟩ := hdecide dieEpisodeState 0 0
    { start := 0, cause := 2, faulted := [0], soft := [], closed := some 0, die := true }
    (by decide +kernel) (by decide +kernel) rfl rfl (by decide +kernel)
  rw [dieEpisode_legsOff t ht] at hsub
  exact absurd hsub (by decide +kernel)

end Sys2Proof.Machine

/-! TABLE_WRITE (R253, R357). -/
namespace Sys2Proof.Machine
set_option Elab.async false

/-- A TABLE_WRITE of pair 0 for one word of the soft turn-off profile of port 0. -/
def softOffWrite : Desc :=
  { ring := 0, cid := 0, op := 0x11, body := List.replicate 16 0 ++ [0xF0, 0, 0x0C, 0, 4, 0, 0, 0] ++ List.replicate 40 0 }

/-- A package whose stake 0, not yet ready, has the link of its port 0 up, and the descriptor at stake 0. -/
def profileInUse : State :=
  let s := ((State.reset.onPkg fun p => p.put Reg.HIF_PKG_ALIVE_ALIVE 255).onHost fun h => { h with descs := [softOffWrite] })
  s.onStake 0 fun k => k.put (Reg.LEG_PORT_STATUS_LINK 0) 3

/-- The package once the descriptor has been taken. -/
def profileTaken : State :=
  profileInUse.onHost fun h => { h with descs := dropFirst (fun x => x.ring = 0 && x.op = 0x11 && x.there) h.descs }

theorem profileInUse_takeDesc : profileInUse.takeDesc 0 0x11 = some (softOffWrite, profileTaken) := by
  have h : profileInUse.pkg.host.descs = [softOffWrite] := by decide +kernel
  rw [State.takeDesc, h]
  rfl

/-- The refusal marks stake 0 and posts. -/
theorem profileInUse_posts : ∀ t, exec (.tableWrite 0 []) profileInUse = .next t → (t.stake 0).out ≠ (profileInUse.stake 0).out := by
  intro t ht
  have h : (match exec (.tableWrite 0 []) profileInUse with
    | .next t => (t.stake 0).out != (profileInUse.stake 0).out
    | _ => false) = true := by decide +kernel
  rw [ht] at h
  exact bne_iff_ne.1 h

/-- Refutes O56: its clause on TABLE_WRITE keeps every stake as before, but one refused for a profile in use sets `CFG_REFUSED` there and
posts `LEG_CFG_REFUSED` (R253). -/
theorem not_hostCommands : ¬ Obligations.HostCommands := by
  intro h
  obtain ⟨_, _, _, _, htable, _⟩ := h
  obtain ⟨t, ht, hkept, _⟩ := htable profileInUse profileTaken 0 [] softOffWrite profileInUse_takeDesc (by decide +kernel)
  apply profileInUse_posts t ht
  obtain ⟨hs, _, _⟩ := hkept
  rw [State.stake, State.stake, hs]
  rfl

end Sys2Proof.Machine

/-! The upsett phase (R331). -/
namespace Sys2Proof.Machine
set_option Elab.async false

/-- A stake that passes but for three lanes that each of its ports sends on, one more than a link has spares. -/
def lanesFail : UpsettRes :=
  { pllMain := false, pllSpare := false, cores := 0, sramRows := [], decimators := 0, slices := 0, edgeMain := 0, edgeSpare := 0,
    ascTx := 7, ascRx := 0, dscTx := 7, dscRx := 0, cells := 0, duration := 0 }

/-- A part of two stakes in its upsett phase. -/
def inUpsett : State := { State.reset.onBoot fun b => { b with phase := .upsett } with part := .trn2 }

/-- With both its links down stake 1 is not reached from the anchor. -/
theorem inUpsett_unreached : ∀ t, exec (.upsettComplete [lanesFail, lanesFail]) inUpsett = .next t → t.alive 1 = false := by
  intro t ht
  have h : (match exec (.upsettComplete [lanesFail, lanesFail]) inUpsett with
    | .next t => !t.alive 1
    | _ => false) = true := by decide +kernel
  rw [ht] at h
  exact Bool.not_eq_true' _ ▸ h

/-- Refutes O59: a stake that passes is alive only where a link of its own reaches the anchor (R39, R331). -/
theorem not_startPhases : ¬ Obligations.StartPhases := by
  intro h
  obtain ⟨_, _, _, _, hupsett, _⟩ := h
  obtain ⟨t, ht, halive, _⟩ := hupsett inUpsett [lanesFail, lanesFail] (by decide +kernel) (by decide +kernel) (by decide +kernel)
  obtain ⟨hal, _⟩ := halive 1 lanesFail rfl
  rw [inUpsett_unreached t ht] at hal
  exact absurd hal (by decide)

end Sys2Proof.Machine

/-! The cell slots of the wale (R21 to R23). -/
namespace Sys2Proof.Machine
set_option Elab.async false

theorem Stake.dir_onDir_same (k : Stake) (d : Dir) (f : WalDir → WalDir) : (k.onDir d f).dir d = f (k.dir d) := by cases d <;> rfl

theorem Stake.dir_onDir_opp (k : Stake) (d : Dir) (f : WalDir → WalDir) : (k.onDir d f).dir (opp d) = k.dir (opp d) := by cases d <;> rfl

theorem Stake.dir_onDir_opp' (k : Stake) (d : Dir) (f : WalDir → WalDir) : (k.onDir (opp d) f).dir d = k.dir d := by cases d <;> rfl

theorem Stake.dir_congr {k j : Stake} (h : j.wal = k.wal) (d : Dir) : j.dir d = k.dir d := by cases d <;> simp [Stake.dir, h]

/-- What gives credits back leaves all but the credits owed. -/
theorem WalDir.giveBack_keeps (w : WalDir) : ∃ l, w.giveBack.2.2 = { w with owed := l } := by
  unfold WalDir.giveBack
  split
  · exact ⟨_, rfl⟩
  · exact ⟨w.owed, rfl⟩

/-- R21: a slot sends `ACK`, it does not change it. -/
theorem WalDir.slot_ack (w : WalDir) (b : Nat → Nat) (now : Nat) : (w.slot b now).ack = w.ack := by
  have hw : (w.window now).ack = w.ack := by unfold WalDir.window; split <;> rfl
  obtain ⟨l, hl⟩ := (w.window now).giveBack_keeps
  rw [← hw]
  simp only [WalDir.slot, hl]
  split
  · rfl
  · split
    · rfl
    · split <;> rfl

/-- R23: with nothing to replay a slot sends the oldest cell of the class chosen. -/
theorem WalDir.slot_sends {w : WalDir} {b : Nat → Nat} {now cls : Nat} {c : Cell} {rest : List Cell}
    (hr : (w.window now).toReplay = []) (hc : (w.window now).choose b = some cls) (hq : nth [] (w.window now).queues cls = c :: rest) :
    (w.slot b now).queues = updAt (w.window now).queues cls (fun _ => rest) ∧
    (w.slot b now).credits = updAt (w.window now).credits cls (· - 1) ∧
    (w.slot b now).replay = (w.window now).replay ++ [((w.window now).seq, c)] ∧
    (w.slot b now).seq = ((w.window now).seq + 1) % 1024 ∧
    ∃ cc cn, (w.slot b now).wire = some ⟨(w.window now).seq, (w.window now).ack, cc, cn, some c⟩ := by
  obtain ⟨l, hl⟩ := (w.window now).giveBack_keeps
  have hc' : WalDir.choose { w.window now with owed := l } b = some cls := hc
  simp only [hr] at hc'
  simp [WalDir.slot, hl, hr, hc', hq]

theorem WalDir.link_ack {w : WalDir} {x : LinkIn} {c : Cell} (h : x.cell = some c) : (w.link x).ack = x.seq % 1024 := by
  simp only [WalDir.link, h]

/-- A port's slot: what it has received since the last one, then what it sends (R21, R27). -/
def Stake.slotStep (k : Stake) (d : Dir) : Stake :=
  if (k.dir d).retraining k.now then k.onDir d fun w => { w with wire := none } else k.onDir d fun w => w.slot k.walBudget k.now

theorem Stake.slotStep_only (k : Stake) (d : Dir) : Stake.Only [.wal] k (k.slotStep d) := .ite (.onDir .refl) (.onDir .refl)

theorem Stake.slotStep_opp (k : Stake) (d : Dir) : (k.slotStep d).dir (opp d) = k.dir (opp d) := by
  unfold Stake.slotStep; split <;> exact k.dir_onDir_opp d _

theorem Stake.slotStep_ack (k : Stake) (d : Dir) : ((k.slotStep d).dir d).ack = (k.dir d).ack := by
  unfold Stake.slotStep
  split
  · rw [k.dir_onDir_same]
  · rw [k.dir_onDir_same, WalDir.slot_ack]

/-- What a slot takes in before it sends (R21). -/
def Stake.slotIn (k : Stake) (d : Dir) : Option LinkIn → Stake
  | none => k
  | some x => match x.cell with
    | some c => (k.onDir d fun w => w.link x).passOn d c
    | none => k.onDir d fun w => w.link x

theorem Stake.slotIn_cell (k : Stake) (d : Dir) {x : LinkIn} {c : Cell} (h : x.cell = some c) :
    k.slotIn d (some x) = (k.onDir d fun w => w.link x).passOn d c := by simp only [Stake.slotIn, h]

/-- The slot of a direction in service. -/
theorem exec_cellSlot {s : State} {n : Nat} {d : Dir} (hp : s.present n = true) (hu : (s.stake n).dirUp d = true)
    (hs : (s.stake n).stopped = false) (x : Option LinkIn) : ∃ t, exec (.waleCellSlot n d x) s = .next t ∧ s.elsewhere t n ∧
      t.stake n = ((s.stake n).slotIn d x).slotStep d := by
  refine ⟨_, rfl, s.onStake_elsewhere n _, ?_⟩
  rw [State.onStake_stake_same hp]
  simp only [hu, hs]
  cases x <;> rfl

/-- A stake that is out of service or stopped sends nothing in its slot. -/
theorem exec_cellSlot_silent {s : State} {n : Nat} {d : Dir} (hp : s.present n = true)
    (h : (s.stake n).dirUp d = false ∨ (s.stake n).stopped = true) (x : Option LinkIn) :
    ∃ t, exec (.waleCellSlot n d x) s = .next t ∧ s.elsewhere t n ∧
      t.stake n = (s.stake n).onDir d fun w => { w with wire := none } := by
  refine ⟨_, rfl, s.onStake_elsewhere n _, ?_⟩
  rw [State.onStake_stake_same hp]
  exact if_pos (by rcases h with h | h <;> simp [h])

/-- A reserved `KIND` counts as a CRC error and goes nowhere (R36). -/
theorem Stake.passOn_reserved (k : Stake) (d : Dir) {c : Cell} (h : 12 ≤ c.kind) : k.passOn d c = k.bump31 Reg.WAL_CRC_ERR :=
  if_pos (by simp [cellReserved, h])

theorem Stake.passOn_here_dir (k : Stake) (d e : Dir) {c : Cell} (h : c.dest = k.id) : (k.passOn d c).dir e = k.dir e := by
  unfold Stake.passOn
  rw [if_pos h]
  split
  · exact Stake.dir_congr rfl e
  · rfl

/-- A cell that fails its check counts as a CRC error of its direction (R23, R25). -/
def Stake.crcCounted (k : Stake) (d : Dir) : Stake :=
  (k.onDir d fun w => { w with crcAt := (w.crcAt.filter fun t => k.now < t + 40000) ++ [k.now] }).bump31 Reg.WAL_CRC_ERR

theorem exec_cellCrcFail {s : State} {n : Nat} (d : Dir) (hp : s.present n = true) : exec (.waleCellCrcFail n d) s =
    .next ((s.onStake n (Stake.crcCounted · d)).onStake (s.nbr n d) fun k => k.onDir (opp d) fun w => { w with toReplay := w.replay }) := by
  have hn : (s.onStake n (Stake.crcCounted · d)).nbr n d = s.nbr n d := by
    simp only [State.nbr, s.onStake_part]
  rw [← hn]
  exact congrArg Host.Outcome.next (if_neg (by simp [hp]))

/-- Settles O29. -/
theorem cellSlots : Obligations.CellSlots := by
  unfold Obligations.CellSlots
  refine ⟨fun s n cls d c rest hp hu hs hrf hr hc hq => ?_, fun s n d x hp h => ?_, fun s n d x c hp hu hs hc hd => ?_,
    fun s n d hp hm hne => ?_, fun s n d x c hp hu hs hc hk12 => ?_, fun s n kind hp h12 h15 => ?_⟩
  · obtain ⟨t, ht, he, hk⟩ := exec_cellSlot hp hu hs none
    have hst : (s.stake n).slotStep d = (s.stake n).onDir d fun w => w.slot (s.stake n).walBudget (s.stake n).now := by
      unfold Stake.slotStep
      exact if_neg (by simp [WalDir.retraining, hrf])
    have hd : (t.stake n).dir d = ((s.stake n).dir d).slot (s.stake n).walBudget (s.stake n).now := by
      rw [hk, Stake.slotIn, hst, Stake.dir_onDir_same]
    refine ⟨t, ht, he, ?_, ?_, ?_⟩
    · rw [hk]; exact ((s.stake n).slotStep_only d).eq_copy
    · rw [hk]; exact (s.stake n).slotStep_opp d
    · rw [hd]; exact WalDir.slot_sends hr hc hq
  · obtain ⟨t, ht, he, hk⟩ := exec_cellSlot_silent hp h x
    exact ⟨t, ht, he, by rw [hk, Stake.dir_onDir_same], by rw [hk, Stake.dir_onDir_same]⟩
  · obtain ⟨t, ht, he, hk⟩ := exec_cellSlot hp hu hs (some x)
    refine ⟨t, ht, he, ?_⟩
    have hid : ((s.stake n).onDir d fun w => w.link x).id = (s.stake n).id := by cases d <;> rfl
    rw [hk, Stake.slotStep_ack, Stake.slotIn_cell _ _ hc, Stake.passOn_here_dir _ _ _ (hd.trans hid.symm), Stake.dir_onDir_same,
      WalDir.link_ack hc]
  · have hp' : (s.onStake n (Stake.crcCounted · d)).present (s.nbr n d) = true := by rw [State.onStake_present]; exact hm
    refine ⟨_, exec_cellCrcFail d hp, by rw [State.onStake_pkg, State.onStake_pkg], ?_, ?_, ?_, fun m hmn hmb => ?_⟩
    · rw [State.onStake_stake_ne _ hne.symm, State.onStake_stake_same hp]
      exact (Stake.rd_bump31_same ..).trans (congrArg (satAdd 31 · 1) (by cases d <;> rfl))
    · rw [State.onStake_stake_ne _ hne.symm, State.onStake_stake_same hp]
      exact (Stake.regsKept.onDir .refl).trans (Stake.regsKept_bump31 _ 1 (by simp))
    · rw [State.onStake_stake_same hp', State.onStake_stake_ne _ hne, Stake.dir_onDir_same]
    · rw [State.onStake_stake_ne _ hmb, State.onStake_stake_ne _ hmn]
  · obtain ⟨t, ht, he, hk⟩ := exec_cellSlot hp hu hs (some x)
    rw [Stake.slotIn_cell _ _ hc, Stake.passOn_reserved _ _ hk12] at hk
    refine ⟨t, ht, he, ?_, ?_⟩
    · rw [hk, Stake.rd_congr (Stake.slotStep_only _ d).regs (Stake.slotStep_only _ d).id, Stake.rd_bump31_same]
      exact congrArg (satAdd 31 · 1) (by cases d <;> rfl)
    · rw [hk, Stake.slotStep_opp]
      exact Stake.dir_onDir_opp ..
  · refine ⟨_, rfl, s.onStake_elsewhere n _, ?_⟩
    rw [State.onStake_stake_same hp, if_pos (by simp [h12, h15])]
    exact ⟨Stake.rd_bump31_same .., rfl, Stake.regsKept_bump31 _ 1 (by simp)⟩

end Sys2Proof.Machine

/-! Reading a stake after an operation that touches other parts of it. -/
namespace Sys2Proof.Machine
set_option Elab.async false
variable {k j q : Stake} {l : List StakePart} {m : List Nat}

/-! Where only other parts have changed. -/

theorem Stake.Only.rd (h : Stake.Only l k j) (o : Nat) (hl : StakePart.regs ∉ l ∧ StakePart.id ∉ l := by decide) : j.rd o = k.rd o :=
  Stake.rd_congr (h.regs hl.1) (h.id hl.2) o
theorem Stake.Only.fld (h : Stake.Only l k j) (f : Fld) (hl : StakePart.regs ∉ l ∧ StakePart.id ∉ l := by decide) : j.fld f = k.fld f :=
  Stake.fld_congr (h.regs hl.1) (h.id hl.2) f
theorem Stake.Only.flag (h : Stake.Only l k j) (f : Fld) (hl : StakePart.regs ∉ l ∧ StakePart.id ∉ l := by decide) : j.flag f = k.flag f :=
  Stake.flag_congr (h.regs hl.1) (h.id hl.2) f
theorem Stake.Only.inForce (h : Stake.Only l k j) (f : Fld) (hl : StakePart.act ∉ l ∧ StakePart.id ∉ l := by decide) :
    j.inForce f = k.inForce f := Stake.inForce_congr (h.act hl.1) (h.id hl.2) f
theorem Stake.Only.inForceB (h : Stake.Only l k j) (f : Fld) (hl : StakePart.act ∉ l ∧ StakePart.id ∉ l := by decide) :
    j.inForceB f = k.inForceB f := Stake.inForceB_congr (h.act hl.1) (h.id hl.2) f

/-- An event posted after changes of parts that no event holds. -/
theorem Stake.Only.posted (h : Stake.Only l k q) {e : Ev} {c : Nat} {v : List Nat} (hp : q.posted j e c v)
    (hl : StakePart.out ∉ l ∧ StakePart.id ∉ l ∧ StakePart.ang ∉ l := by decide) : k.posted j e c v :=
  Stake.posted_of_eq (h.out hl.1) (h.id hl.2.1) (by rw [h.ang hl.2.2]) hp

theorem Stake.Only.post_posted (h : Stake.Only l k q) (e : Ev) (c : Nat) (v : List Nat)
    (hl : StakePart.out ∉ l ∧ StakePart.id ∉ l ∧ StakePart.ang ∉ l := by decide) : k.posted (q.post e c v) e c v :=
  h.posted (q.post_posted e c v) hl

/-! Where only other registers have changed. -/

theorem Stake.rd_post (k : Stake) (e : Ev) (c : Nat) (v : List Nat) (o : Nat) (ho : o ∉ axisRegs := by decide) :
    (k.post e c v).rd o = k.rd o := k.post_regsKept e c v o ho
theorem Stake.fld_post (k : Stake) (e : Ev) (c : Nat) (v : List Nat) (f : Fld) (hf : f.off ∉ axisRegs := by decide) :
    (k.post e c v).fld f = k.fld f := (k.post_regsKept e c v).fld hf
theorem Stake.flag_post (k : Stake) (e : Ev) (c : Nat) (v : List Nat) (f : Fld) (hf : f.off ∉ axisRegs := by decide) :
    (k.post e c v).flag f = k.flag f := (k.post_regsKept e c v).flag hf

/-- An event joins the active set and asks for its reaction; it trips nothing. -/
theorem Stake.post_prt (k : Stake) (e : Ev) (c : Nat) (v : List Nat) :
    ∃ a f, (k.post e c v).prt = { k.prt with active := a, f3 := f } := by
  unfold Stake.post Stake.postF Stake.react
  extract_lets r again fl p q
  have hq : q.prt = { k.prt with active := enterActive k.prt.active { r with eflags := fl } false } :=
    (Stake.Only.updDerate (l := [.regs, .out, .fe]) (.syncActive (.refl (k := { k.emit e c v fl with prt :=
      { k.prt with active := enterActive k.prt.active { r with eflags := fl } false } })))).prt
  split
  · exact ⟨_, _, rfl⟩
  · split
    · exact ⟨_, _, congrArg (fun p : PrtState => { p with f3 := q.prt.f3 ++ [(⟨e, 0, q.now, 2 ≤ q.fld Reg.PLT_VOTE_STATUS_MODE⟩ : F3Req)] }) hq⟩
    · exact ⟨_, _, hq⟩

theorem Stake.post_trips (k : Stake) (e : Ev) (c : Nat) (v : List Nat) : (k.post e c v).prt.trips = k.prt.trips := by
  obtain ⟨_, _, h⟩ := k.post_prt e c v
  rw [h]

end Sys2Proof.Machine

/-! The plait: voting, resynchronisation, hand-overs, scrubbing (R313 to R322, R335, R336). -/
namespace Sys2Proof.Machine
set_option Elab.async false

/-! Dissent (R313 to R316). -/

theorem oddOut_lt {α : Type} [DecidableEq α] (a b c : α) : oddOut a b c < 8 := by
  unfold oddOut
  split_ifs <;> decide

theorem oddAny_lt {α : Type} [DecidableEq α] : ∀ a b c : List α, oddAny a b c < 8
  | x :: a, y :: b, z :: c => Nat.or_lt_two_pow (n := 3) (oddOut_lt x y z) (oddAny_lt a b c)
  | [], _, _ | _ :: _, [], _ | _ :: _, _ :: _, [] => by simp [oddAny]

theorem dissenters_lt {α : Type} [DecidableEq α] (out : Nat) (a b c : List α) : dissenters out a b c < 8 := by
  unfold dissenters
  split_ifs
  case pos => exact oddAny_lt a b c
  all_goals decide

theorem two_pow_coreOf {m : Nat} (h : m < 8) (hc : coreCount m = 1) : 2 ^ coreOf m = m := by
  interval_cases m <;> revert hc <;> decide

theorem Stake.voteMode_eq (k : Stake) : k.voteMode = k.fld Reg.PLT_VOTE_STATUS_MODE := rfl

theorem Stake.recordDiv_only (k : Stake) (kind cores : Nat) : Stake.Only [.regs] k (k.recordDiv kind cores) := .put (.put (.put .refl))

theorem Stake.recordDiv_regsKept (k : Stake) (kind cores : Nat) : k.regsKept (k.recordDiv kind cores) [Reg.PLT_LAST_DIV] :=
  .put (.put (.put .refl (by decide)) (by decide)) (by decide)

/-- R316, R364: what a stake fault ends: the hand-over's descriptor is answered, and the plait halts. -/
def Stake.halt (k : Stake) : Stake :=
  (match k.vote.handover with
    | some ⟨_, some (r, i)⟩ => k.complete { ring := r, cid := i, op := 0x44, status := 5 }
    | _ => k).onVote fun v => { v with halted := true, resync := false, handover := none, tasks := [] }

theorem Stake.halt_only (k : Stake) : Stake.Only [.done, .vote] k k.halt := by
  unfold Stake.halt
  split
  · exact .onVote (.complete .refl)
  · exact .onVote .refl

theorem Stake.halt_halted (k : Stake) : k.halt.vote.halted = true := by
  unfold Stake.halt
  split <;> rfl

theorem Stake.stakeFault_eq {k : Stake} (h : k.vote.halted = false) :
    k.stakeFault = (k.halt.trip 6).post .pltStakeFault 4 [(k.halt.rd Reg.PLT_LAST_DIV).toNat] := if_neg (by simp [h])

/-- R316: a stake fault halts the plait and signals the sequencer. -/
theorem Stake.stakeFault_of {k : Stake} (h : k.vote.halted = false) : k.stakeFault.vote.halted = true ∧
    k.stakeFault.prt.trips = k.prt.trips ++ [⟨6, none, k.now⟩] ∧
    k.posted k.stakeFault .pltStakeFault 4 [(k.rd Reg.PLT_LAST_DIV).toNat] := by
  have hk := k.halt_only
  have ht : Stake.Only [.done, .vote, .prt] k (k.halt.trip 6) := .trip (hk.mono (by decide))
  rw [Stake.stakeFault_eq h, hk.rd]
  refine ⟨?_, ?_, ht.post_posted _ _ _⟩
  · rw [(Stake.Only.post_only _ _ _ _).vote]
    exact k.halt_halted
  · rw [Stake.post_trips]
    change k.halt.prt.trips ++ [⟨6, none, k.halt.now⟩] = _
    rw [hk.prt, hk.now]

/-- R318: a core that is left out. -/
theorem Stake.leaveOut_of (k : Stake) (core : Nat) (hc : core < 3) :
    Stake.Only [.regs, .out, .prt] k (k.leaveOut core) ∧
    k.regsKept (k.leaveOut core) [Reg.PLT_VOTE_STATUS, Reg.SPL_SUMMARY] ∧
    (k.leaveOut core).fld Reg.PLT_VOTE_STATUS_FENCED = 0 ∧
    (k.leaveOut core).fld Reg.PLT_VOTE_STATUS_LEFT_OUT = k.fld Reg.PLT_VOTE_STATUS_LEFT_OUT ||| 2 ^ core ∧
    (k.leaveOut core).voteMode = k.voteMode ∧ k.posted (k.leaveOut core) .pltCoreLeftOut 0 [core] := by
  unfold Stake.leaveOut
  extract_lets j
  have hj : Stake.Only [.regs] k j := .put (.put .refl)
  refine ⟨.post (.put (hj.mono (by decide))), .post_zero (.put (.put (.put .refl (by decide)) (by decide)) (by decide)), ?_, ?_, ?_,
    (Stake.Only.put hj).post_posted _ _ _⟩
  · simp (disch := decide) only [j, Stake.fld_post, Stake.fld_put_ne, Stake.fld_put_same, Nat.zero_mod]
  · simp (disch := decide) only [j, Stake.fld_post, Stake.fld_put_ne, Stake.fld_put_same]
    exact Nat.mod_eq_of_lt (Nat.or_lt_two_pow (Stake.fld_lt _ _) (Nat.pow_lt_pow_right (by decide) hc))
  · simp (disch := decide) only [j, Stake.voteMode, Stake.fld_post, Stake.fld_put_ne]

theorem Stake.leaveOut_outKept (k : Stake) (core : Nat) : k.outKept (k.leaveOut core) := .post (.put (.put (.put .refl)))

theorem Stake.fld_onVote (k : Stake) (f : VoteState → VoteState) (g : Fld) : (k.onVote f).fld g = k.fld g :=
  Stake.fld_congr rfl rfl g

theorem Stake.vote_onVote (k : Stake) (f : VoteState → VoteState) : (k.onVote f).vote = f k.vote := rfl

theorem Stake.outKept.onVote {k j : Stake} {f : VoteState → VoteState} (h : k.outKept j) : k.outKept (j.onVote f) := h

/-- R318: a resynchronisation that fails is counted; the core is left out at the last try. -/
theorem Stake.resyncFails_of (k : Stake) (core : Nat) (hc : core < 3) :
    Stake.Only [.regs, .out, .prt, .vote] k (k.resyncFails core) ∧
    (∃ f, (k.resyncFails core).vote = { k.vote with failedAt := f }) ∧
    (k.resyncFails core).rd Reg.PLT_RESYNC_FAIL_CNT = satAdd 16 (k.rd Reg.PLT_RESYNC_FAIL_CNT) 1 ∧
    (k.resyncFails core).voteMode = k.voteMode ∧
    (k.inForce Reg.PLT_VOTE_CFG_RESYNC_TRIES ≤ min 15 (k.fld Reg.PLT_VOTE_STATUS_TRIES + 1) →
      k.posted (k.resyncFails core) .pltCoreLeftOut 0 [core]) := by
  unfold Stake.resyncFails
  extract_lets t j
  have hj : Stake.Only [.regs, .vote] k j := .onVote (.put (.bump .refl))
  have hv : j.vote = { k.vote with failedAt := some k.now } := by
    have hb : Stake.Only [.regs] k ((k.bump Reg.PLT_RESYNC_FAIL_CNT).put Reg.PLT_VOTE_STATUS_TRIES t) := .put (.bump .refl)
    rw [Stake.vote_onVote, hb.vote]
  have hc' : j.rd Reg.PLT_RESYNC_FAIL_CNT = satAdd 16 (k.rd Reg.PLT_RESYNC_FAIL_CNT) 1 :=
    (Stake.Only.rd (.onVote (l := [.vote]) .refl) _).trans ((Stake.rd_put_ne _ _ (by decide)).trans (Stake.rd_bump_same _ _))
  have hm : j.voteMode = k.voteMode := by
    simp (disch := decide) only [j, Stake.voteMode, Stake.fld_onVote, Stake.fld_put_ne, Stake.fld_bump_ne]
  obtain ⟨ho, hr, -, -, hmo, hp⟩ := j.leaveOut_of core hc
  rw [← hj.inForce]
  split
  · refine ⟨(hj.mono (by decide)).step ho, ⟨_, ho.vote.trans hv⟩, (hr _ (by decide)).trans hc', hmo.trans hm, fun _ => hj.posted hp⟩
  · next h => exact ⟨hj.mono (by decide), ⟨_, hv⟩, hc', hm, fun h' => absurd h' h⟩

/-- R315, R318: a core that is fenced for the first time. -/
theorem Stake.fence_of {k : Stake} {kind core : Nat} (hc : core < 3) (hp : nth none k.vote.passed core = none) :
    (k.fence kind core).voteMode = 1 ∧ k.posted (k.fence kind core) .pltCoreFenced 0 [core, kind] ∧
    (k.fence kind core).rd Reg.PLT_DIVERGE_CNT = satAdd 16 (k.rd Reg.PLT_DIVERGE_CNT) 1 ∧
    if k.inForceB Reg.PLT_VOTE_CFG_RESYNC_EN then (k.fence kind core).fld Reg.PLT_VOTE_STATUS_FENCED = 2 ^ core
    else (k.fence kind core).fld Reg.PLT_VOTE_STATUS_FENCED = 0 ∧
      (k.fence kind core).fld Reg.PLT_VOTE_STATUS_LEFT_OUT = k.fld Reg.PLT_VOTE_STATUS_LEFT_OUT ||| 2 ^ core := by
  unfold Stake.fence
  extract_lets again q1 q2 q3 q4
  have ha : again = false := by simp only [again, hp]
  have h1 : Stake.Only [.regs] k q1 := .put (.put ((k.recordDiv_only kind _).mono (by decide)))
  have h4 : q4 = (q2.put Reg.PLT_VOTE_STATUS_TRIES 0).onVote fun v => { v with failedAt := none } := by simp [q4, q3, ha]
  have hp2 : k.posted q2 .pltCoreFenced 0 [core, kind] := (Stake.Only.bump h1).post_posted _ _ _
  have ho : k.posted q4 .pltCoreFenced 0 [core, kind] := hp2.of_prefix (h4 ▸ .onVote (.put .refl))
  have h2 : Stake.Only [.regs, .out, .prt, .vote] k q4 := h4 ▸ .onVote (.put (.post (.bump (h1.mono (by decide)))))
  have hl : 2 ^ core < 8 := Nat.pow_lt_pow_right (by decide) hc
  have hm : q4.voteMode = 1 := by
    simp (disch := decide) only [h4, Stake.voteMode, Stake.fld_onVote, Stake.fld_put_ne, q2, Stake.fld_post, Stake.fld_bump_ne, q1, Stake.fld_put_same]
    rfl
  have hf : q4.fld Reg.PLT_VOTE_STATUS_FENCED = 2 ^ core := by
    simp (disch := decide) only [h4, Stake.fld_onVote, Stake.fld_put_ne, q2, Stake.fld_post, Stake.fld_bump_ne, q1, Stake.fld_put_same]
    exact Nat.mod_eq_of_lt hl
  have hlo : q4.fld Reg.PLT_VOTE_STATUS_LEFT_OUT = k.fld Reg.PLT_VOTE_STATUS_LEFT_OUT := by
    simp (disch := decide) only [h4, Stake.fld_onVote, Stake.fld_put_ne, q2, Stake.fld_post, Stake.fld_bump_ne, q1,
      (k.recordDiv_regsKept _ _).fld]
  have hd : q4.rd Reg.PLT_DIVERGE_CNT = satAdd 16 (k.rd Reg.PLT_DIVERGE_CNT) 1 := by
    rw [h4, (Stake.Only.onVote (l := [.vote]) .refl).rd, Stake.rd_put_ne _ _ (by decide)]
    refine (Stake.rd_post _ _ _ _ _).trans ((Stake.rd_bump_same _ _).trans ?_)
    rw [Stake.rd_put_ne _ _ (by decide), Stake.rd_put_ne _ _ (by decide), k.recordDiv_regsKept _ _ _ (by decide)]
  obtain ⟨-, hrk, h0, hlo', hmo, -⟩ := q4.leaveOut_of core hc
  have hne : q4.fld Reg.PLT_VOTE_STATUS_FENCED ≠ 0 := by rw [hf]; exact (Nat.two_pow_pos _).ne'
  rw [← h2.inForceB]
  cases hi : q4.inForceB Reg.PLT_VOTE_CFG_RESYNC_EN
  · rw [if_pos (by simp [hne])]
    exact ⟨hmo.trans hm, ho.of_prefix (Stake.leaveOut_outKept _ _), (hrk _ (by decide)).trans hd, by simpa [h0] using hlo'.trans (by rw [hlo])⟩
  · rw [if_neg (by simp)]
    exact ⟨hm, ho, hd, by simpa using hf⟩

/-- R313 to R316: what the voter does when one core dissents, and when no majority is left. -/
theorem Stake.dissent_of (k : Stake) (a b c : CoreOut) (hh : k.vote.halted = false) :
    let out := k.fld Reg.PLT_VOTE_STATUS_FENCED ||| k.fld Reg.PLT_VOTE_STATUS_LEFT_OUT
    let bus := dissenters out a.bus b.bus c.bus
    let reg := dissenters out a.regs b.regs c.regs
    let cores := bus ||| reg
    let kind := (if bus = 0 then 0 else 1) + (if reg = 0 then 0 else 2)
    (k.voteMode = 0 → coreCount cores = 1 → nth none k.vote.passed (coreOf cores) = none →
      (k.dissent a b c).voteMode = 1 ∧ k.posted (k.dissent a b c) .pltCoreFenced 0 [coreOf cores, kind] ∧
      (k.dissent a b c).rd Reg.PLT_DIVERGE_CNT = satAdd 16 (k.rd Reg.PLT_DIVERGE_CNT) 1 ∧
      if k.inForceB Reg.PLT_VOTE_CFG_RESYNC_EN then (k.dissent a b c).fld Reg.PLT_VOTE_STATUS_FENCED = cores
      else (k.dissent a b c).fld Reg.PLT_VOTE_STATUS_FENCED = 0 ∧
        (k.dissent a b c).fld Reg.PLT_VOTE_STATUS_LEFT_OUT = k.fld Reg.PLT_VOTE_STATUS_LEFT_OUT ||| cores) ∧
    (k.voteMode < 2 → 2 ≤ coreCount cores ∨ (k.voteMode = 1 ∧ cores ≠ 0) → (k.dissent a b c).vote.halted = true ∧
      (k.dissent a b c).prt.trips = k.prt.trips ++ [⟨6, none, k.now⟩] ∧
      ∃ v, k.posted (k.dissent a b c) .pltStakeFault 4 [v]) := by
  intro out bus reg cores kind
  have hlt : cores < 8 := Nat.or_lt_two_pow (n := 3) (dissenters_lt ..) (dissenters_lt ..)
  have hd : k.dissent a b c = if cores = 0 || k.vote.halted || k.splitOrHand then k
    else if k.voteMode = 1 || 2 ≤ coreCount cores then (k.recordDiv kind cores).stakeFault else k.fence kind (coreOf cores) := rfl
  have hs : k.splitOrHand = Decidable.decide (2 ≤ k.voteMode) := rfl
  clear_value kind cores
  rw [hd]
  refine ⟨fun hm hc hp => ?_, fun hm hc => ?_⟩
  · have h0 : cores ≠ 0 := by rintro rfl; exact absurd hc (by decide)
    rw [if_neg (by simp [h0, hh, hs, hm]), if_neg (by simp [hm, hc])]
    have hco : coreOf cores < 3 := by unfold coreOf; split_ifs <;> decide
    have hf := Stake.fence_of (kind := kind) hco hp
    rwa [two_pow_coreOf hlt hc] at hf
  · have h0 : cores ≠ 0 := by
      rcases hc with hc | hc
      · rintro rfl; exact absurd hc (by decide)
      · exact hc.2
    rw [if_neg (by simp [h0, hh, hs, hm]), if_pos (by rcases hc with hc | hc <;> simp [hc])]
    have hr := k.recordDiv_only kind cores
    obtain ⟨h1, h2, h3⟩ := Stake.stakeFault_of (k := k.recordDiv kind cores) (by rw [hr.vote]; exact hh)
    exact ⟨h1, by rw [h2, hr.prt, hr.now], _, hr.posted h3⟩

/-! Resynchronisation (R317, R318). -/

theorem Stake.restart_idle {k : Stake} (h : k.vote.tasks = []) : k.restart = k.onVote fun v => { v with resync := false, tasks := [] } := by
  unfold Stake.restart
  rw [h]
  rfl

theorem coreOf_lt (m : Nat) : coreOf m < 3 := by
  unfold coreOf
  split_ifs <;> decide

/-- R318: the digests agree, and the fenced core votes again. -/
theorem Stake.resyncEnd_equal {k : Stake} (hr : k.vote.resync = true) (ht : k.vote.tasks = []) :
    (k.resyncEnd true).vote.resync = false ∧ (k.resyncEnd true).voteMode = 0 ∧ (k.resyncEnd true).fld Reg.PLT_VOTE_STATUS_FENCED = 0 ∧
    (k.resyncEnd true).rd Reg.PLT_RESYNC_CNT = satAdd 16 (k.rd Reg.PLT_RESYNC_CNT) 1 ∧
    k.posted (k.resyncEnd true) .pltResync 0 [coreOf (k.fld Reg.PLT_VOTE_STATUS_FENCED)] := by
  unfold Stake.resyncEnd
  rw [if_neg (by simp [hr])]
  extract_lets core q1 q2
  have e2 : q2 = ((q1.bump Reg.PLT_RESYNC_CNT).onVote fun v => { v with passed := updAt v.passed core fun _ => some q1.now }).post
    .pltResync 0 [core] := if_pos rfl
  have h1 : Stake.Only [.regs] k q1 := .put (.put .refl)
  have h2 : Stake.Only [.regs, .vote] k ((q1.bump Reg.PLT_RESYNC_CNT).onVote fun v => { v with passed := updAt v.passed core fun _ => some q1.now }) :=
    .onVote (.bump (h1.mono (by decide)))
  have hq : q2.vote.tasks = [] := by
    simp only [e2, (Stake.Only.post_only _ _ _ _).vote, Stake.vote_onVote, (Stake.Only.bump h1).vote, ht]
  rw [Stake.restart_idle hq]
  refine ⟨rfl, ?_, ?_, ?_, (e2 ▸ h2.post_posted _ _ _ : k.posted q2 _ _ _).of_prefix (.onVote .refl)⟩
  · simp (disch := decide) only [Stake.voteMode, Stake.fld_onVote, e2, Stake.fld_post, Stake.fld_bump_ne, q1, Stake.fld_put_same,
      Nat.zero_mod]
  · simp (disch := decide) only [Stake.fld_onVote, e2, Stake.fld_post, Stake.fld_bump_ne, q1, Stake.fld_put_ne, Stake.fld_put_same,
      Nat.zero_mod]
  · rw [(Stake.Only.onVote (l := [.vote]) .refl).rd, e2, Stake.rd_post _ _ _ _ Reg.PLT_RESYNC_CNT, (Stake.Only.onVote (l := [.vote]) .refl).rd, Stake.rd_bump_same,
      Stake.rd_put_ne _ _ (by decide), Stake.rd_put_ne _ _ (by decide)]

/-- R318: the digests differ. -/
theorem Stake.resyncEnd_differ {k : Stake} (hr : k.vote.resync = true) (ht : k.vote.tasks = []) :
    (k.resyncEnd false).vote.resync = false ∧
    (k.resyncEnd false).rd Reg.PLT_RESYNC_FAIL_CNT = satAdd 16 (k.rd Reg.PLT_RESYNC_FAIL_CNT) 1 ∧
    (k.resyncEnd false).voteMode = k.voteMode ∧
    (k.inForce Reg.PLT_VOTE_CFG_RESYNC_TRIES ≤ min 15 (k.fld Reg.PLT_VOTE_STATUS_TRIES + 1) →
      k.posted (k.resyncEnd false) .pltCoreLeftOut 0 [coreOf (k.fld Reg.PLT_VOTE_STATUS_FENCED)]) := by
  obtain ⟨ho, ⟨f, hv⟩, hc, hm, hp⟩ := k.resyncFails_of (coreOf (k.fld Reg.PLT_VOTE_STATUS_FENCED)) (coreOf_lt _)
  have he : k.resyncEnd false = (k.resyncFails (coreOf (k.fld Reg.PLT_VOTE_STATUS_FENCED))).restart := by
    unfold Stake.resyncEnd
    rw [if_neg (by simp [hr])]
    rfl
  rw [he, Stake.restart_idle (by rw [hv]; exact ht)]
  exact ⟨rfl, ((Stake.Only.onVote (l := [.vote]) .refl).rd _).trans hc, (Stake.fld_onVote ..).trans hm,
    fun h => (hp h).of_prefix (.onVote .refl)⟩

/-! Mode requests and hand-overs (R319, R321, R322). -/

theorem firstCause_le {m : Nat} : ∀ l : List (Bool × Nat), (∀ x ∈ l, x.2 ≤ m) → firstCause l ≤ m
  | [], _ => Nat.zero_le m
  | (b, c) :: l, h => by
    unfold firstCause
    split
    · exact h (b, c) (by simp)
    · exact firstCause_le l fun x hx => h x (by simp [hx])

theorem Stake.modeCause_le (k : Stake) (b : Bool) : k.modeCause b ≤ 5 := firstCause_le _ (by simp)

theorem Stake.modeCause_congr {k j : Stake} (b : Bool) (hf : ∀ f : Fld, f.off ≠ Reg.PLT_MODE → j.fld f = k.fld f)
    (hv : j.vote = k.vote) (hn : j.ringN = k.ringN) : j.modeCause b = k.modeCause b := by
  simp (disch := decide) only [Stake.modeCause, Stake.voteMode, Stake.axis, Stake.pairSt, hf, hv, hn]
  rfl

/-- R321: a mode request. -/
theorem Stake.modeRequest_of (k : Stake) (b : Bool) :
    (k.modeCause b = 0 → (k.modeRequest b none).voteMode = 3 ∧ (k.modeRequest b none).vote.handover = some ⟨b, none⟩) ∧
    (k.modeCause b ≠ 0 → (k.modeRequest b none).voteMode = k.voteMode ∧
      (k.modeRequest b none).fld Reg.PLT_MODE_MODE_REFUSE = k.modeCause b ∧
      (k.modeRequest b none).flag Reg.PLT_MODE_MODE_REFUSED = true ∧
      k.posted (k.modeRequest b none) .pltModeRefused 0 [k.modeCause b]) := by
  unfold Stake.modeRequest
  extract_lets c
  have hc : c ≤ 5 := k.modeCause_le b
  refine ⟨fun h => ?_, fun h => ?_⟩
  · rw [if_pos h]
    exact ⟨(Stake.fld_onVote ..).trans (Stake.fld_put_same _ _ _ (by decide)), rfl⟩
  · rw [if_neg h]
    have hq : Stake.Only [.regs] k ((k.put Reg.PLT_MODE_MODE_REFUSE c).putB Reg.PLT_MODE_MODE_REFUSED true) := .putB (.put .refl)
    refine ⟨?_, ?_, ?_, hq.post_posted _ _ _⟩
    · simp (disch := decide) only [Stake.voteMode, Stake.modeRefuse, Stake.fld_post, Stake.fld_putB_ne, Stake.fld_put_ne]
    · simp (disch := decide) only [Stake.modeRefuse, Stake.fld_post, Stake.fld_putB_ne, Stake.fld_put_same]
      exact Nat.mod_eq_of_lt (Nat.lt_of_le_of_lt hc (by decide))
    · exact (Stake.flag_post _ _ _ _ _).trans (Stake.flag_putB_same _ _ _ (by decide) rfl)

theorem Stake.wPltMode_eq {k : Stake} {w : Reg32} {b : Bool} (h0 : w.getLsbD 0 = b) (h1 : w.getLsbD 1 = !b) :
    k.wPltMode w = (k.store Reg.PLT_MODE w).modeRequest b none := by
  unfold Stake.wPltMode
  rw [h0, h1]
  cases b <;> rfl

/-- R321: a write of `PLT_MODE` that asks for one of the modes. -/
theorem Stake.wPltMode_of {k : Stake} {w : Reg32} {b : Bool} (h0 : w.getLsbD 0 = b) (h1 : w.getLsbD 1 = !b) :
    (k.modeCause b = 0 → (k.wPltMode w).voteMode = 3 ∧ (k.wPltMode w).vote.handover = some ⟨b, none⟩) ∧
    (k.modeCause b ≠ 0 → (k.wPltMode w).voteMode = k.voteMode ∧ (k.wPltMode w).fld Reg.PLT_MODE_MODE_REFUSE = k.modeCause b ∧
      (k.wPltMode w).flag Reg.PLT_MODE_MODE_REFUSED = true ∧ k.posted (k.wPltMode w) .pltModeRefused 0 [k.modeCause b]) := by
  have ho : Stake.Only [.regs] k (k.store Reg.PLT_MODE w) := .store .refl
  have hf : ∀ f : Fld, f.off ≠ Reg.PLT_MODE → (k.store Reg.PLT_MODE w).fld f = k.fld f :=
    fun f hf => (k.store_regsKept Reg.PLT_MODE w).fld (by simpa using hf)
  rw [Stake.wPltMode_eq h0 h1, ← Stake.modeCause_congr b hf ho.vote ho.ringN]
  obtain ⟨h2, h3⟩ := (k.store Reg.PLT_MODE w).modeRequest_of b
  refine ⟨h2, fun h => ?_⟩
  obtain ⟨h4, h5, h6, h7⟩ := h3 h
  exact ⟨h4.trans (hf _ (by decide)), h5, h6, ho.posted h7⟩

/-- R322: a hand-over that nothing disturbs ends in the mode asked for. -/
theorem Stake.handOverEnd_of {k : Stake} {b : Bool} (h : k.vote.handover = some ⟨b, none⟩) (hd : k.vote.dischDue = false) :
    let m := if b then 2 else 0
    (k.handOverEnd 0).voteMode = m ∧ (k.handOverEnd 0).vote.handover = none ∧ k.posted (k.handOverEnd 0) .pltModeChange 0 [m] ∧
      k.regsKept (k.handOverEnd 0) [Reg.PLT_VOTE_STATUS] := by
  intro m
  unfold Stake.handOverEnd
  rw [h]
  have hq : Stake.Only [.vote] k (k.onVote fun v => { v with handover := none }) := .onVote .refl
  have hh : (k.onVote fun v => { v with handover := none }).vote.handover = none := rfl
  have hd' : (k.onVote fun v => { v with handover := none }).vote.dischDue = false := hd
  dsimp only
  generalize (k.onVote fun v => { v with handover := none }) = q at hq hh hd'
  cases b
  · rw [if_neg (by decide), if_neg (by decide), if_pos rfl]
    set q1 := (q.put Reg.PLT_VOTE_STATUS_MODE 0).put Reg.PLT_VOTE_STATUS_FENCED 0 with e1
    have hp : Stake.Only [.regs] q q1 := .put (.put .refl)
    have hm : q1.voteMode = 0 := by
      simp (disch := decide) only [e1, Stake.voteMode, Stake.fld_put_ne, Stake.fld_put_same, Nat.zero_mod]
    have hr : q.regsKept q1 [Reg.PLT_VOTE_STATUS] := .put (.put .refl (by decide)) (by decide)
    have hv : (q1.post .pltModeChange 0 [0]).vote = q.vote := (Stake.Only.post_only _ _ _ _).vote.trans hp.vote
    rw [hm, Stake.lateDischarge, if_neg (by rw [hv, hd']; simp)]
    exact ⟨(Stake.fld_post _ _ _ _ _).trans hm, by rw [hv, hh], hq.posted (hp.post_posted _ _ _),
      (Stake.regsKept.of_eq .refl hq.regs hq.id).trans (.post_zero hr)⟩
  · have hp : Stake.Only [.regs] q (q.put Reg.PLT_VOTE_STATUS_MODE 2) := .put .refl
    have hv : ((q.put Reg.PLT_VOTE_STATUS_MODE 2).post .pltModeChange 0 [2]).vote = q.vote := (Stake.Only.post_only _ _ _ _).vote
    rw [if_pos rfl, if_neg (by rw [hv, hd']; decide)]
    refine ⟨?_, by rw [hv, hh], hq.posted (hp.post_posted _ _ _), (Stake.regsKept.of_eq .refl hq.regs hq.id).trans (.post_zero (.put .refl (by decide)))⟩
    rw [Stake.voteMode, Stake.fld_post _ _ _ _ Reg.PLT_VOTE_STATUS_MODE, Stake.fld_put_same _ _ _ (by decide)]
    rfl

/-! Scrubbing and wear (R335, R336). -/

theorem Stake.scrub_corrected (k : Stake) (addr : Nat) :
    (k.scrub addr 1 false).rd Reg.SPL_SCRUB_CORR = satAdd 16 (k.rd Reg.SPL_SCRUB_CORR) 1 ∧
    k.regsKept (k.scrub addr 1 false) [Reg.SPL_SCRUB_CORR] :=
  ⟨((Stake.Only.onVote (l := [.vote]) .refl).rd _).trans (Stake.rd_bump_same ..), .of_eq (.bump .refl (by decide)) rfl rfl⟩

theorem Stake.scrub_uncorrectable (k : Stake) (addr : Nat) :
    (k.scrub addr 2 false).rd Reg.SPL_SCRUB_UE_CNT = satAdd 16 (k.rd Reg.SPL_SCRUB_UE_CNT) 1 ∧
    k.posted (k.scrub addr 2 false) .splSramUe 3 [addr] := by
  have he : k.scrub addr 2 false = (k.bump Reg.SPL_SCRUB_UE_CNT).post .splSramUe 3 [addr] := by simp [Stake.scrub]
  rw [he]
  exact ⟨(Stake.rd_post _ _ _ _ _).trans (Stake.rd_bump_same ..), (Stake.Only.bump (l := [.regs]) .refl).post_posted _ _ _⟩

theorem worstOf_fst_lt (l : List Nat) (h : l.length ≤ 4) : (worstOf l).1 < 4 := by
  have hf : ∀ (m : List (Nat × Nat)) (b : Nat × Nat), b.1 < 4 → (∀ p ∈ m, p.1 < 4) →
      (m.foldl (fun (b : Nat × Nat) p => if b.2 < p.2 then p else b) b).1 < 4 := by
    intro m
    induction m with
    | nil => exact fun b hb _ => hb
    | cons p m ih =>
      refine fun b hb hm => ih _ ?_ fun q hq => hm q (List.mem_cons_of_mem _ hq)
      dsimp only
      split
      · exact hm p (List.mem_cons_self ..)
      · exact hb
  refine hf _ _ (by decide) fun p hp => ?_
  obtain ⟨i, hi, rfl⟩ := List.mem_mapIdx.1 hp
  exact Nat.lt_of_lt_of_le hi h

theorem Stake.wear_of (k : Stake) (l : List Nat) (h : l.length ≤ 4) :
    let j := (k.put Reg.SPL_WEAR_AGE_MONITOR (worstOf l).1).put Reg.SPL_WEAR_AGE_AGE_PPM (min 65535 (worstOf l).2)
    j.fld Reg.SPL_WEAR_AGE_MONITOR = (worstOf l).1 ∧ j.fld Reg.SPL_WEAR_AGE_AGE_PPM = min 65535 (worstOf l).2 ∧
      k.regsKept j [Reg.SPL_WEAR_AGE] := by
  refine ⟨?_, ?_, .put (.put .refl (by decide)) (by decide)⟩
  · rw [Stake.fld_put_ne _ _ _ _ (by decide), Stake.fld_put_same _ _ _ (by decide)]
    exact Nat.mod_eq_of_lt (Nat.lt_of_lt_of_le (worstOf_fst_lt l h) (by decide))
  · rw [Stake.fld_put_same _ _ _ (by decide)]
    exact Nat.mod_eq_of_lt (Nat.lt_of_le_of_lt (Nat.min_le_left _ _) (by decide))

/-- R317, R318, R337: a resynchronisation starts, or the core is left out where none is enabled. -/
theorem Stake.resyncStart_of (k : Stake) :
    let q := k.takeVoteCfg
    let j := if q.inForceB Reg.PLT_VOTE_CFG_RESYNC_EN then q.onVote fun v => { v with resync := true }
      else q.leaveOut (coreOf (q.fld Reg.PLT_VOTE_STATUS_FENCED))
    j.rdAct Reg.PLT_VOTE_CFG = k.rd Reg.PLT_VOTE_CFG ∧
    if k.flag Reg.PLT_VOTE_CFG_RESYNC_EN then j = { k with act := j.act, vote := { k.vote with resync := true } }
    else j.vote = k.vote ∧ j.fld Reg.PLT_VOTE_STATUS_FENCED = 0 ∧
      k.posted j .pltCoreLeftOut 0 [coreOf (k.fld Reg.PLT_VOTE_STATUS_FENCED)] := by
  intro q j
  have hq : Stake.Only [.act] k q := .applyRange .refl
  have ha : q.rdAct Reg.PLT_VOTE_CFG = k.rd Reg.PLT_VOTE_CFG := (k.rdAct_applyRange _ _ _).trans (if_pos (by decide))
  have he : q.inForceB Reg.PLT_VOTE_CFG_RESYNC_EN = k.flag Reg.PLT_VOTE_CFG_RESYNC_EN := by
    change Decidable.decide (Fld.of _ (q.rdAct Reg.PLT_VOTE_CFG) ≠ 0) = Decidable.decide (Fld.of _ (k.rd Reg.PLT_VOTE_CFG) ≠ 0)
    rw [ha]
  have hj : j = if k.flag Reg.PLT_VOTE_CFG_RESYNC_EN then q.onVote fun v => { v with resync := true }
    else q.leaveOut (coreOf (k.fld Reg.PLT_VOTE_STATUS_FENCED)) := by rw [← he, ← hq.fld]
  obtain ⟨ho, -, h0, -, -, hp⟩ := q.leaveOut_of (coreOf (k.fld Reg.PLT_VOTE_STATUS_FENCED)) (coreOf_lt _)
  clear_value j
  subst hj
  split
  · exact ⟨ha, rfl⟩
  · refine ⟨?_, ho.vote.trans hq.vote, h0, hq.posted hp⟩
    unfold Stake.rdAct at ha ⊢
    rw [ho.act, ho.id]
    exact ha

/-- Settles O53. -/
theorem plaitVotes : Obligations.PlaitVotes := by
  unfold Obligations.PlaitVotes
  refine ⟨fun s n a b c hp hh => ?_, fun s n hp hh => ?_, fun s n hp hm hf hh hr hw => ?_, fun s n a b c hp hr ht => ?_,
    fun s n src w split ha h0 h1 => ?_, fun s n split hp hh hd digest => ?_, fun s n addr hp => ⟨?_, ?_⟩, fun s n ppm hp => ?_⟩
  · obtain ⟨t, ht, he, hk⟩ := exec_onStake hp fun k => k.dissent a b c
    obtain ⟨h1, h2⟩ := (s.stake n).dissent_of a b c hh
    rw [← hk] at h1 h2
    exact ⟨t, ht, he, h1, fun hm hc => have ⟨h3, h4, h5⟩ := h2 hm hc; ⟨h3, h4, h5⟩⟩
  · obtain ⟨t, ht, he, hk⟩ := exec_onStake hp Stake.stakeFault
    exact ⟨t, ht, he, hk ▸ Stake.stakeFault_of hh⟩
  · refine ⟨_, rfl, s.onStake_elsewhere n _, ?_⟩
    rw [State.onStake_stake_same hp]
    dsimp only
    rw [if_pos (by
      rw [hm, hh, hr]
      cases hfa : (s.stake n).vote.failedAt with
      | none => simp [hf]
      | some x => simp [hf, hw x hfa])]
    obtain ⟨h1, h2⟩ := (s.stake n).resyncStart_of
    refine ⟨h1, ?_⟩
    cases he : (s.stake n).flag Reg.PLT_VOTE_CFG_RESYNC_EN
    · rw [he] at h2
      obtain ⟨hv, h0, hpost⟩ := h2
      exact ⟨by rw [hv]; exact hr, h0, hpost⟩
    · rw [he] at h2
      exact h2
  · intro core
    obtain ⟨t, ht', he, hk⟩ := exec_onStake hp fun k => k.resyncEnd (a = b && b = c)
    refine ⟨t, ht', he, ?_⟩
    rw [hk]
    by_cases h : a = b ∧ b = c
    · rw [if_pos h, show (Decidable.decide (a = b) && Decidable.decide (b = c)) = true by simp [h]]
      exact Stake.resyncEnd_equal hr ht
    · rw [if_neg h, show (Decidable.decide (a = b) && Decidable.decide (b = c)) = false by simpa using h]
      exact Stake.resyncEnd_differ hr ht
  · intro x
    obtain ⟨t, ht, he, hk⟩ := exec_stakeWrite ha fun k => k.wPltMode w
    refine ⟨t, ?_, he, hk ▸ Stake.wPltMode_of h0 h1⟩
    rw [← ht]
    cases split
    · simp only [Bool.not_false] at h1
      change Host.Outcome.next (s.stakeWrite src n Reg.PLT_MODE w fun k => if w.getLsbD 1 then k.wPltMode w else k) = _
      rw [h1]
      rfl
    · change Host.Outcome.next (s.stakeWrite src n Reg.PLT_MODE w fun k => if w.getLsbD 0 then k.wPltMode w else k) = _
      rw [h0]
      rfl
  · obtain ⟨t, ht, he, hk⟩ := exec_onStake hp fun k => k.handOverEnd (oddOut digest digest digest)
    have h0 : oddOut digest digest digest = 0 := by simp [oddOut]
    exact ⟨t, ht, he, by rw [hk, h0]; exact Stake.handOverEnd_of hh hd⟩
  · obtain ⟨t, ht, he, hk⟩ := exec_onStake hp fun k => k.scrub addr 1 false
    exact ⟨t, ht, he, hk ▸ Stake.scrub_corrected _ _⟩
  · obtain ⟨t, ht, he, hk⟩ := exec_onStake hp fun k => k.scrub addr 2 false
    exact ⟨t, ht, he, hk ▸ Stake.scrub_uncorrectable _ _⟩
  · obtain ⟨t, ht, he, hk⟩ := exec_onStake hp fun k =>
      (k.put Reg.SPL_WEAR_AGE_MONITOR (worstOf (ppm.take 4)).1).put Reg.SPL_WEAR_AGE_AGE_PPM (min 65535 (worstOf (ppm.take 4)).2)
    exact ⟨t, ht, he, hk ▸ Stake.wear_of _ _ (List.length_take_le 4 ppm)⟩

end Sys2Proof.Machine

/-! Which fields of a stake's registers an operation writes, and what it does to the axis. -/
namespace Sys2Proof.Machine
set_option Elab.async false

/-- Two fields share no bit. -/
@[reducible] def Fld.apart (f g : Fld) : Prop := f.off ≠ g.off ∨ f.lo + f.w ≤ g.lo ∨ g.lo + g.w ≤ f.lo

/-- The fields of a stake's registers that share no bit with those listed read as before. -/
def Stake.fldsKept (k j : Stake) (l : List Fld) : Prop := ∀ f : Fld, (∀ g ∈ l, g.apart f) → j.fld f = k.fld f

/-- A field with no bit in its register reads 0. -/
theorem Fld.of_outside {off : Nat} {f : Fld} (h : (⟨off, 0, 32⟩ : Fld).apart f) (ho : f.off = off) (x : BitVec 32) : f.of x = 0 := by
  rcases h with h | h | h
  · exact absurd ho.symm h
  · have hx : x.toNat < 2 ^ f.lo := Nat.lt_of_lt_of_le x.isLt (Nat.pow_le_pow_right (by decide) (by simpa using h))
    rw [Fld.of, BitVec.toNat_ushiftRight, Nat.shiftRight_eq_div_pow, Nat.div_eq_of_lt hx, Nat.zero_mod]
  · have hw : f.w = 0 := by simp only at h; omega
    rw [Fld.of, hw, pow_zero, Nat.mod_one]

namespace Stake.fldsKept
variable {k j i : Stake} {l l' : List Fld}

theorem refl : k.fldsKept k l := fun _ _ => rfl
theorem trans (h : k.fldsKept j l) (h' : j.fldsKept i l) : k.fldsKept i l := fun f hf => (h' f hf).trans (h f hf)
theorem mono (h : k.fldsKept j l) (hl : l ⊆ l') : k.fldsKept j l' := fun f hf => h f fun g hg => hf g (hl hg)
theorem of_eq (h : k.fldsKept j l) (hr : i.regs = j.regs) (hi : i.id = j.id) : k.fldsKept i l :=
  fun f hf => (Stake.fld_congr hr hi f).trans (h f hf)
theorem put {f : Fld} {v : Nat} (h : k.fldsKept j l) (hf : f ∈ l) : k.fldsKept (j.put f v) l :=
  fun g hg => (j.fld_put_ne f g v (hg f hf)).trans (h g hg)
theorem putB {f : Fld} {b : Bool} (h : k.fldsKept j l) (hf : f ∈ l) : k.fldsKept (j.putB f b) l :=
  fun g hg => (j.fld_putB_ne f g b (hg f hf)).trans (h g hg)
theorem wr {off : Nat} {v : BitVec 32} (h : k.fldsKept j l) (hf : ⟨off, 0, 32⟩ ∈ l) : k.fldsKept (j.wr off v) l := fun g hg => by
  rw [← h g hg]
  by_cases ho : g.off = off
  · rw [Stake.fld, Stake.fld, Fld.of_outside (hg _ hf) ho, Fld.of_outside (hg _ hf) ho]
  · exact j.fld_wr_ne v g ho
theorem bump {off n : Nat} (h : k.fldsKept j l) (hf : ⟨off, 0, 32⟩ ∈ l) : k.fldsKept (j.bump off n) l := by
  unfold Stake.bump
  split
  · exact h
  · exact h.wr hf
theorem ite {p : Prop} [Decidable p] (h : k.fldsKept j l) (h' : k.fldsKept i l) : k.fldsKept (if p then j else i) l := by
  split <;> assumption
theorem foldl {α : Type} {f : Stake → α → Stake} (hf : ∀ j a, k.fldsKept j l → k.fldsKept (f j a) l) (m : List α) (h : k.fldsKept j l) :
    k.fldsKept (m.foldl f j) l := by
  induction m generalizing j with
  | nil => exact h
  | cons a m ih => exact ih (hf j a h)
theorem emit {e : Ev} {c : Nat} {v : List Nat} {fl : Nat} (h : k.fldsKept j l) : k.fldsKept (j.emit e c v fl) l := h
theorem trip {c : Nat} {p : Option Nat} (h : k.fldsKept j l) : k.fldsKept (j.trip c p) l := h
theorem onAng {f : AngState → AngState} (h : k.fldsKept j l) : k.fldsKept (j.onAng f) l := h
theorem onSns {f : SnsState → SnsState} (h : k.fldsKept j l) : k.fldsKept (j.onSns f) l := h
theorem onPos {f : PosState → PosState} (h : k.fldsKept j l) : k.fldsKept (j.onPos f) l := h
theorem onFe {f : FldState → FldState} (h : k.fldsKept j l) : k.fldsKept (j.onFe f) l := h
theorem onMod {f : ModState → ModState} (h : k.fldsKept j l) : k.fldsKept (j.onMod f) l := h
theorem onPort {p : Nat} {f : ModPort → ModPort} (h : k.fldsKept j l) : k.fldsKept (j.onPort p f) l := h
theorem onLeg {p : Nat} {f : LegPort → LegPort} (h : k.fldsKept j l) : k.fldsKept (j.onLeg p f) l := h
theorem onPair {f : PairState → PairState} (h : k.fldsKept j l) : k.fldsKept (j.onPair f) l := h
theorem onPrt {f : PrtState → PrtState} (h : k.fldsKept j l) : k.fldsKept (j.onPrt f) l := h
theorem onVote {f : VoteState → VoteState} (h : k.fldsKept j l) : k.fldsKept (j.onVote f) l := h
theorem complete {c : Completion} (h : k.fldsKept j l) : k.fldsKept (j.complete c) l := h
theorem onDir {d : Dir} {f : WalDir → WalDir} (h : k.fldsKept j l) : k.fldsKept (j.onDir d f) l := by cases d <;> exact h
theorem sendCell {c : Cell} (h : k.fldsKept j l) : k.fldsKept (j.sendCell c) l := h.onDir
theorem onThm {t : Nat} {f : ThmSt → ThmSt} (h : k.fldsKept j l) : k.fldsKept (j.onThm t f) l := h
theorem flag (h : k.fldsKept j l) {f : Fld} (hf : ∀ g ∈ l, g.apart f) : j.flag f = k.flag f := by
  rw [Stake.flag, Stake.flag, h f hf]
end Stake.fldsKept

theorem Stake.regsKept.flds {k j : Stake} {l : List Nat} (h : k.regsKept j l) : k.fldsKept j (l.map fun o => ⟨o, 0, 32⟩) := fun f hf => by
  by_cases ho : f.off ∈ l
  · have ha := hf ⟨f.off, 0, 32⟩ (List.mem_map.2 ⟨_, ho, rfl⟩)
    rw [Stake.fld, Stake.fld, Fld.of_outside ha rfl, Fld.of_outside ha rfl]
  · exact h.fld ho

/-- The fields in which the active set and the axis's state are shown. -/
def activeFlds : List Fld :=
  [Reg.PLT_ACTIVE_F1, Reg.PLT_ACTIVE_F2, Reg.PLT_ACTIVE_F3, Reg.PLT_ACTIVE_F4, Reg.PLT_AXIS_STATE_DERATE_F1,
    Reg.PLT_AXIS_STATE_CHOP_FAULT, Reg.PLT_AXIS_STATE_F2_RAMP]

/-- Those that a change of the axis's state writes as well, without `STOP_PENDING` and `FRESH`. -/
def axisFlds : List Fld := [Reg.PLT_AXIS_STATE_STATE, Reg.PLT_AXIS_STATE_SUB, Reg.PLT_AXIS_STATE_FRESH] ++ activeFlds

theorem Stake.syncActive_fldsKept (k : Stake) : k.fldsKept k.syncActive activeFlds := by
  unfold Stake.syncActive
  extract_lets n q
  have hq : k.fldsKept q activeFlds := .put (.put (.put (.put .refl (by decide)) (by decide)) (by decide)) (by decide)
  exact .putB (.putB (.putB hq (by decide)) (by decide)) (by decide)

theorem Stake.fldsKept.syncActive {k j : Stake} {l : List Fld} (h : k.fldsKept j l) (hl : activeFlds ⊆ l := by decide) : k.fldsKept j.syncActive l :=
  h.trans (j.syncActive_fldsKept.mono hl)

/-- A change of state into or between RUN and DERATE. -/
theorem Stake.setAxis_run_fldsKept (k : Stake) {st : Nat} (h : st = axRun ∨ st = axDerate) (sub : Nat) :
    k.fldsKept (k.setAxis st sub) axisFlds := by
  unfold Stake.setAxis
  extract_lets k1 k2 k3 k4
  have h1 : k.fldsKept k1 axisFlds := .put (.put .refl (by decide)) (by decide)
  have e2 : k2 = k1 := if_pos (by simpa using h)
  have h2 : k.fldsKept k2 axisFlds := e2 ▸ h1
  have h3 : k.fldsKept k3 axisFlds := .ite (.ite (.put h2 (by decide)) h2) (.put h2 (by decide))
  have h4 : k.fldsKept k4 axisFlds := .ite (.onFe h3) h3
  exact .ite h4 (.emit h4)

/-- A change of state writes `STOP_PENDING` as well. -/
theorem Stake.setAxis_fldsKept (k : Stake) (st sub : Nat) : k.fldsKept (k.setAxis st sub) (Reg.PLT_AXIS_STATE_STOP_PENDING :: axisFlds) := by
  unfold Stake.setAxis
  extract_lets k1 k2 k3 k4
  have h1 : k.fldsKept k1 (Reg.PLT_AXIS_STATE_STOP_PENDING :: axisFlds) := .put (.put .refl (by decide)) (by decide)
  have h2 : k.fldsKept k2 (Reg.PLT_AXIS_STATE_STOP_PENDING :: axisFlds) := .ite h1 (.syncActive (.putB h1 (by decide)))
  have h3 : k.fldsKept k3 (Reg.PLT_AXIS_STATE_STOP_PENDING :: axisFlds) := .ite (.ite (.put h2 (by decide)) h2) (.put h2 (by decide))
  have h4 : k.fldsKept k4 (Reg.PLT_AXIS_STATE_STOP_PENDING :: axisFlds) := .ite (.onFe h3) h3
  exact .ite h4 (.emit h4)

theorem Stake.updDerate_fldsKept (k : Stake) : k.fldsKept k.updDerate axisFlds :=
  .ite .refl (.ite (k.setAxis_run_fldsKept (.inr rfl) 0) (.ite (k.setAxis_run_fldsKept (.inl rfl) 0) .refl))

theorem Stake.fldsKept.updDerate {k j : Stake} {l : List Fld} (h : k.fldsKept j l) (hl : axisFlds ⊆ l := by decide) : k.fldsKept j.updDerate l :=
  h.trans (j.updDerate_fldsKept.mono hl)

theorem Stake.react_fldsKept (k : Stake) (r : EvRec) (b : Bool) (x : Nat) : k.fldsKept (k.react r b x) axisFlds := by
  unfold Stake.react
  extract_lets p q
  have hq : k.fldsKept q axisFlds := .updDerate (.syncActive (.of_eq .refl rfl rfl))
  exact .ite .refl (.ite (.of_eq hq rfl rfl) hq)

theorem Stake.post_fldsKept (k : Stake) (e : Ev) (c : Nat) (v : List Nat) : k.fldsKept (k.post e c v) axisFlds :=
  Stake.fldsKept.trans (.emit .refl) (Stake.react_fldsKept _ _ _ _)

theorem Stake.fldsKept.post {k j : Stake} {l : List Fld} {e : Ev} {c : Nat} {v : List Nat} (h : k.fldsKept j l) (hl : axisFlds ⊆ l := by decide) :
    k.fldsKept (j.post e c v) l := h.trans ((j.post_fldsKept e c v).mono hl)
theorem Stake.fldsKept.setAxis {k j : Stake} {l : List Fld} {st sub : Nat} (h : k.fldsKept j l)
    (hl : Reg.PLT_AXIS_STATE_STOP_PENDING :: axisFlds ⊆ l := by decide) : k.fldsKept (j.setAxis st sub) l := h.trans ((j.setAxis_fldsKept st sub).mono hl)

/-! The state an axis is put into. -/

theorem Stake.syncActive_axis (k : Stake) : k.syncActive.axis = k.axis := k.syncActive_fldsKept _ (by decide)

theorem Stake.setAxis_axis (k : Stake) {st : Nat} (h : st < 16) (sub : Nat) : (k.setAxis st sub).axis = st := by
  unfold Stake.setAxis
  extract_lets k1 k2 k3 k4
  have h1 : k1.axis = st := (Stake.fld_put_ne _ _ _ _ (by decide)).trans ((Stake.fld_put_same _ _ _ (by decide)).trans (Nat.mod_eq_of_lt h))
  have h2 : k1.fldsKept k2 (Reg.PLT_AXIS_STATE_STOP_PENDING :: Reg.PLT_AXIS_STATE_FRESH :: activeFlds) := .ite .refl (.syncActive (.putB .refl (by decide)))
  have h3 : k1.fldsKept k3 (Reg.PLT_AXIS_STATE_STOP_PENDING :: Reg.PLT_AXIS_STATE_FRESH :: activeFlds) :=
    .ite (.ite (.put h2 (by decide)) h2) (.put h2 (by decide))
  have h4 : k1.fldsKept k4 (Reg.PLT_AXIS_STATE_STOP_PENDING :: Reg.PLT_AXIS_STATE_FRESH :: activeFlds) := .ite (.onFe h3) h3
  have h5 : k1.fldsKept (if k.axis = st then k4 else k4.emit .axisState 0 [st, sub] 0) (Reg.PLT_AXIS_STATE_STOP_PENDING :: Reg.PLT_AXIS_STATE_FRESH :: activeFlds) :=
    .ite h4 (.emit h4)
  exact (h5 _ (by decide)).trans h1

/-- A state other than RUN and DERATE takes `STOP_PENDING` away (R303). -/
theorem Stake.setAxis_stopPending (k : Stake) {st : Nat} (h : ¬(st = axRun ∨ st = axDerate)) (sub : Nat) :
    (k.setAxis st sub).flag Reg.PLT_AXIS_STATE_STOP_PENDING = false := by
  unfold Stake.setAxis
  extract_lets k1 k2 k3 k4
  have e2 : k2 = (k1.putB Reg.PLT_AXIS_STATE_STOP_PENDING false).syncActive := if_neg (by simpa using h)
  have h2 : k2.flag Reg.PLT_AXIS_STATE_STOP_PENDING = false := by
    rw [e2, (Stake.syncActive_fldsKept _).flag (by decide)]
    exact Stake.flag_putB_same _ _ _ (by decide) rfl
  have h3 : k2.fldsKept k3 [Reg.PLT_AXIS_STATE_FRESH] := .ite (.ite (.put .refl (by decide)) .refl) (.put .refl (by decide))
  have h4 : k2.fldsKept k4 [Reg.PLT_AXIS_STATE_FRESH] := .ite (.onFe h3) h3
  have h5 : k2.fldsKept (if k.axis = st then k4 else k4.emit .axisState 0 [st, sub] 0) [Reg.PLT_AXIS_STATE_FRESH] := .ite h4 (.emit h4)
  exact (h5.flag (by decide)).trans h2

/-- The axis stays where it is, save that RUN and DERATE replace each other (R292). -/
def Stake.axisKept (k j : Stake) : Prop :=
  j.axis = k.axis ∨ ((k.axis = axRun ∨ k.axis = axDerate) ∧ (j.axis = axRun ∨ j.axis = axDerate))

namespace Stake.axisKept
variable {k j i : Stake}

theorem refl : k.axisKept k := .inl rfl
theorem trans (h : k.axisKept j) (h' : j.axisKept i) : k.axisKept i := by
  rcases h with h | ⟨h, h1⟩ <;> rcases h' with h' | ⟨h', h2⟩
  · exact .inl (h'.trans h)
  · exact .inr ⟨h ▸ h', h2⟩
  · exact .inr ⟨h, h'.symm ▸ h1⟩
  · exact .inr ⟨h, h2⟩
theorem of_flds {l : List Fld} (h : k.axisKept j) (hf : j.fldsKept i l) (hl : ∀ g ∈ l, g.apart Reg.PLT_AXIS_STATE_STATE := by decide) :
    k.axisKept i := h.trans (.inl (hf _ hl))
theorem of_regs {l : List Nat} (h : k.axisKept j) (hf : j.regsKept i l) (hl : Reg.PLT_AXIS_STATE ∉ l := by decide) :
    k.axisKept i := h.trans (.inl (hf.fld hl))
theorem of_only {l : List StakePart} (h : k.axisKept j) (ho : Stake.Only l j i) (hl : StakePart.regs ∉ l ∧ StakePart.id ∉ l := by decide) :
    k.axisKept i := h.trans (.inl (ho.fld _ hl))
theorem updDerate (h : k.axisKept j) : k.axisKept j.updDerate := by
  refine h.trans ?_
  unfold Stake.updDerate
  split_ifs with h1 h2 h3
  · exact .refl
  · exact .inr ⟨.inl (by simp at h2; exact h2.1), .inr (Stake.setAxis_axis _ (by decide) _)⟩
  · exact .inr ⟨.inr (by simp at h3; exact h3.1), .inl (Stake.setAxis_axis _ (by decide) _)⟩
  · exact .refl
theorem post {e : Ev} {c : Nat} {v : List Nat} (h : k.axisKept j) : k.axisKept (j.post e c v) := by
  refine h.trans ?_
  unfold Stake.post Stake.postF Stake.react
  extract_lets r again fl p q
  have hs : k.axisKept k := .refl
  have hq : j.axisKept q := .updDerate (.inl ((Stake.syncActive_axis _).trans (Stake.fld_congr rfl rfl _)))
  split
  · exact .refl
  · split
    · exact hq.trans (.inl (Stake.fld_congr rfl rfl _))
    · exact hq
/-- Where the axis is in neither, it stays. -/
theorem eq (h : k.axisKept j) (hk : ¬(k.axis = axRun ∨ k.axis = axDerate)) : j.axis = k.axis := h.resolve_right fun h => hk h.1
theorem into (h : k.axisKept j) {st : Nat} (hk : k.axis = st) (hs : ¬(st = axRun ∨ st = axDerate) := by decide) : j.axis = st :=
  (h.eq (hk.symm ▸ hs)).trans hk
end Stake.axisKept

end Sys2Proof.Machine

/-! The effect of an operation on a stake: the parts and registers it may change; that it loses no record, moves no tick, and leaves the
axis where it is but for RUN and DERATE (R292). -/
namespace Sys2Proof.Machine
set_option Elab.async false

structure Stake.Eff (l : List StakePart) (m : List Nat) (k j : Stake) : Prop where
  only : Stake.Only l k j
  regs : k.regsKept j m
  out : k.outKept j
  tick : j.ang.tick = k.ang.tick
  axis : k.axisKept j

namespace Stake.Eff
variable {l l' : List StakePart} {m m' : List Nat} {k j i : Stake}

theorem refl : Eff l m k k := ⟨.refl, .refl, .refl, rfl, .refl⟩
theorem trans (h : Eff l m k j) (h' : Eff l m j i) : Eff l m k i :=
  ⟨h.only.trans h'.only, h.regs.trans h'.regs, h.out.trans h'.out, h'.tick.trans h.tick, h.axis.trans h'.axis⟩
theorem mono (h : Eff l' m' k j) (hl : l' ⊆ l := by decide) (hm : m' ⊆ m := by decide) : Eff l m k j :=
  ⟨h.only.mono hl, h.regs.mono hm, h.out, h.tick, h.axis⟩
theorem step (h : Eff l m k j) (h' : Eff l' m' j i) (hl : l' ⊆ l := by decide) (hm : m' ⊆ m := by decide) : Eff l m k i :=
  h.trans (h'.mono hl hm)
theorem ite {p : Prop} [Decidable p] (h : Eff l m k j) (h' : Eff l m k i) : Eff l m k (if p then j else i) := by split <;> assumption
theorem foldl {α : Type} {f : Stake → α → Stake} (hf : ∀ j a, Eff l m k j → Eff l m k (f j a)) (x : List α) (h : Eff l m k j) :
    Eff l m k (x.foldl f j) := by
  induction x generalizing j with
  | nil => exact h
  | cons a x ih => exact ih (hf j a h)

section
variable (h : Eff l m k j)
include h

theorem id (hf : StakePart.id ∉ l := by decide) : j.id = k.id := h.only.id hf

/-- What is posted before stays posted, and what is posted after is posted from the start. -/
theorem posted {e : Ev} {c : Nat} {v : List Nat} (hp : j.posted i e c v) (hf : StakePart.id ∉ l := by decide) : k.posted i e c v :=
  hp.after h.out (h.id hf) h.tick
theorem post_posted (e : Ev) (c : Nat) (v : List Nat) (hf : StakePart.id ∉ l := by decide) : k.posted (j.post e c v) e c v :=
  h.posted (j.post_posted e c v) hf

/-- A change of parts that hold neither registers, records nor the clocks. -/
theorem of_only (h' : Only l' j i) (hl : l' ⊆ l := by decide)
    (hn : StakePart.regs ∉ l' ∧ StakePart.id ∉ l' ∧ StakePart.out ∉ l' ∧ StakePart.ang ∉ l' := by decide) : Eff l m k i :=
  ⟨h.only.trans (h'.mono hl), h.regs.of_eq (h'.regs hn.1) (h'.id hn.2.1), h.out.of_eq (h'.out hn.2.2.1), (by rw [h'.ang hn.2.2.2, h.tick]),
    h.axis.of_only h' ⟨hn.1, hn.2.1⟩⟩

theorem wr {o : Nat} {v : BitVec 32} (hl : StakePart.regs ∈ l := by decide) (hm : o ∈ m := by decide) (ha : o ≠ Reg.PLT_AXIS_STATE := by decide) :
    Eff l m k (j.wr o v) := ⟨h.only.wr hl, h.regs.wr hm, h.out, h.tick, h.axis.of_regs (.wr (l := [o]) .refl (by simp)) (by simpa using ha.symm)⟩
theorem put {f : Fld} {v : Nat} (hl : StakePart.regs ∈ l := by decide) (hm : f.off ∈ m := by decide)
    (ha : f.apart Reg.PLT_AXIS_STATE_STATE := by decide) : Eff l m k (j.put f v) :=
  ⟨h.only.put hl, h.regs.put hm, h.out, h.tick, h.axis.of_flds (.put (l := [f]) .refl (by simp)) (by simpa using ha)⟩
theorem putB {f : Fld} {b : Bool} (hl : StakePart.regs ∈ l := by decide) (hm : f.off ∈ m := by decide)
    (ha : f.apart Reg.PLT_AXIS_STATE_STATE := by decide) : Eff l m k (j.putB f b) := h.put hl hm ha
theorem put48 {o : Nat} {v : Word48} (hl : StakePart.regs ∈ l := by decide) (hm : o ∈ m ∧ o + 4 ∈ m := by decide)
    (ha : o ≠ Reg.PLT_AXIS_STATE ∧ o + 4 ≠ Reg.PLT_AXIS_STATE := by decide) : Eff l m k (j.put48 o v) :=
  (h.wr hl hm.1 ha.1).wr hl hm.2 ha.2
theorem bump {o n : Nat} (hl : StakePart.regs ∈ l := by decide) (hm : o ∈ m := by decide) (ha : o ≠ Reg.PLT_AXIS_STATE := by decide) :
    Eff l m k (j.bump o n) := .ite h (h.wr hl hm ha)
theorem emit {e : Ev} {c : Nat} {v : List Nat} {fl : Nat} (hl : StakePart.out ∈ l := by decide) : Eff l m k (j.emit e c v fl) :=
  ⟨h.only.emit hl, h.regs.emit, h.out.trans (List.prefix_append _ _), h.tick, h.axis.trans (.inl (Stake.fld_congr rfl rfl _))⟩
theorem trip {c : Nat} {p : Option Nat} (hl : StakePart.prt ∈ l := by decide) : Eff l m k (j.trip c p) :=
  h.of_only (.trip (l := [.prt]) .refl) (by simpa using hl)
theorem onSns {f : SnsState → SnsState} (hl : StakePart.sns ∈ l := by decide) : Eff l m k (j.onSns f) :=
  h.of_only (.onSns (l := [.sns]) .refl) (by simpa using hl)
theorem onPos {f : PosState → PosState} (hl : StakePart.pos ∈ l := by decide) : Eff l m k (j.onPos f) :=
  h.of_only (.onPos (l := [.pos]) .refl) (by simpa using hl)
theorem onFe {f : FldState → FldState} (hl : StakePart.fe ∈ l := by decide) : Eff l m k (j.onFe f) :=
  h.of_only (.onFe (l := [.fe]) .refl) (by simpa using hl)
theorem onMod {f : ModState → ModState} (hl : StakePart.modu ∈ l := by decide) : Eff l m k (j.onMod f) :=
  h.of_only (.onMod (l := [.modu]) .refl) (by simpa using hl)
theorem onPort {p : Nat} {f : ModPort → ModPort} (hl : StakePart.modu ∈ l := by decide) : Eff l m k (j.onPort p f) :=
  h.of_only (.onPort (l := [.modu]) .refl) (by simpa using hl)
theorem onLeg {p : Nat} {f : LegPort → LegPort} (hl : StakePart.leg ∈ l := by decide) : Eff l m k (j.onLeg p f) :=
  h.of_only (.onLeg (l := [.leg]) .refl) (by simpa using hl)
theorem onPair {f : PairState → PairState} (hl : StakePart.pair ∈ l := by decide) : Eff l m k (j.onPair f) :=
  h.of_only (.onPair (l := [.pair]) .refl) (by simpa using hl)
theorem onPrt {f : PrtState → PrtState} (hl : StakePart.prt ∈ l := by decide) : Eff l m k (j.onPrt f) :=
  h.of_only (.onPrt (l := [.prt]) .refl) (by simpa using hl)
theorem onVote {f : VoteState → VoteState} (hl : StakePart.vote ∈ l := by decide) : Eff l m k (j.onVote f) :=
  h.of_only (.onVote (l := [.vote]) .refl) (by simpa using hl)
theorem onThm {i : Nat} {f : ThmSt → ThmSt} (hl : StakePart.thm ∈ l := by decide) : Eff l m k (j.onThm i f) :=
  h.of_only (.onThm (l := [.thm]) .refl) (by simpa using hl)
theorem complete {c : Completion} (hl : StakePart.done ∈ l := by decide) : Eff l m k (j.complete c) :=
  h.of_only (.complete (l := [.done]) .refl) (by simpa using hl)
theorem onDir {d : Dir} {f : WalDir → WalDir} (hl : StakePart.wal ∈ l := by decide) : Eff l m k (j.onDir d f) :=
  h.of_only (.onDir (l := [.wal]) .refl) (by simpa using hl)
theorem sendCell {c : Cell} (hl : StakePart.wal ∈ l := by decide) : Eff l m k (j.sendCell c) := h.onDir hl
theorem toPartner {t : Nat} {w : List Nat} (hl : StakePart.wal ∈ l := by decide) : Eff l m k (j.toPartner t w) := h.sendCell hl
/-- A change of the clocks that moves no tick. -/
theorem onAng {f : AngState → AngState} (hf : (f j.ang).tick = j.ang.tick) (hl : StakePart.ang ∈ l := by decide) : Eff l m k (j.onAng f) :=
  ⟨h.only.onAng hl, h.regs.onAng, h.out, hf.trans h.tick, h.axis.trans (.inl (Stake.fld_congr rfl rfl _))⟩
theorem onClock {c : Nat} {f : Clock → Clock} (hl : StakePart.ang ∈ l := by decide) : Eff l m k (j.onClock c f) :=
  h.onAng (f := fun a => { a with clk := updAt a.clk c f }) rfl hl
theorem post {e : Ev} {c : Nat} {v : List Nat} (hl : [.regs, .out, .prt] ⊆ l := by decide) (hm : axisRegs ⊆ m := by decide) :
    Eff l m k (j.post e c v) :=
  ⟨h.only.post hl, h.regs.post hm, h.out.post, (by rw [(Stake.Only.post_only j e c v).ang, h.tick]), h.axis.post⟩
/-- An event of class 0 enters no register. -/
theorem post_zero {e : Ev} {v : List Nat} (hl : [.regs, .out, .prt] ⊆ l := by decide) : Eff l m k (j.post e 0 v) :=
  ⟨h.only.post hl, h.regs.post_zero, h.out.post, (by rw [(Stake.Only.post_only j e 0 v).ang, h.tick]), h.axis.post⟩
theorem syncActive (hl : StakePart.regs ∈ l := by decide) (hm : axisRegs ⊆ m := by decide) : Eff l m k j.syncActive :=
  ⟨h.only.syncActive (by simpa using hl), h.regs.trans (j.syncActive_regsKept.mono hm), h.out.of_eq ((Stake.Only.syncActive_only j).out),
    (by rw [(Stake.Only.syncActive_only j).ang, h.tick]), h.axis.of_flds j.syncActive_fldsKept⟩
theorem updDerate (hl : [.regs, .out, .fe] ⊆ l := by decide) (hm : axisRegs ⊆ m := by decide) : Eff l m k j.updDerate := by
  have ho : j.outKept j.updDerate := .ite .refl (.ite (j.setAxis_out _ _) (.ite (j.setAxis_out _ _) .refl))
  exact ⟨h.only.updDerate hl, h.regs.updDerate hm, h.out.trans ho, (by rw [(Stake.Only.updDerate_only j).ang, h.tick]), h.axis.updDerate⟩
end

/-! The shared operations of modulation. -/

section
variable (h : Eff l m k j)
include h

theorem hand {p : Nat} {y : Symb} {x : Instant} {b : Bool} (hl : [.modu, .regs] ⊆ l := by decide) (hm : Reg.MOD_SPACING_CNT ∈ m := by decide) :
    Eff l m k (j.hand p y x b) :=
  .ite h (.bump (.onPort h (hl (by simp))) (hl (by simp)) hm (by decide))
theorem portOff {p : Nat} {b : Bool} (hl : [.modu, .regs] ⊆ l := by decide) (hm : Reg.MOD_SPACING_CNT ∈ m := by decide) :
    Eff l m k (j.portOff p b) := by
  have h1 : Eff l m k (j.onPort p ModPort.discard) := .onPort h (hl (by simp))
  have h2 := Eff.ite (p := (j.mport p).hs) (.hand (p := p) (y := .hsOff) (x := (j.onPort p ModPort.discard).nowI) (b := false) h1 hl hm) h1
  exact .ite (.ite (.hand h1 hl hm) h1) (.ite (.hand h2 hl hm) h2)
theorem portQuiet {p : Nat} (hl : [.modu, .regs] ⊆ l := by decide) (hm : Reg.MOD_SPACING_CNT ∈ m := by decide) :
    Eff l m k (j.portQuiet p) := .ite h (.onPort (.portOff h hl hm) (hl (by simp)))
theorem leaveSwitching (hl : [.modu, .regs] ⊆ l := by decide) (hm : Reg.MOD_SPACING_CNT ∈ m := by decide) : Eff l m k j.leaveSwitching :=
  .foldl (fun _ _ h => .portQuiet h hl hm) _ h
theorem setEpoch {st : Nat} (hl : [.regs, .out, .prt] ⊆ l := by decide) (hm : Reg.MOD_STATUS ∈ m := by decide) :
    Eff l m k (j.setEpoch st) :=
  .ite (.post_zero (.put h (hl (by simp)) hm) hl) (.ite (.post_zero (.put h (hl (by simp)) hm) hl) (.put h (hl (by simp)) hm))
theorem addTriggers {a b : Word48} {v : Bool} {x : Int} (hl : [.regs, .modu] ⊆ l := by decide) (hm : Reg.MOD_TRIG_SKIP_CNT ∈ m := by decide) :
    Eff l m k (j.addTriggers a b v x) :=
  .foldl (fun _ _ h => .ite h (.ite (.bump h (hl (by simp)) hm) (.ite h (.onMod h (hl (by simp)))))) _ h
theorem restartCarrier {a : Word48} {v : Bool} (hl : [.regs, .out, .prt, .modu] ⊆ l := by decide)
    (hm : [Reg.MOD_STATUS, Reg.MOD_TRIG_SKIP_CNT] ⊆ m := by decide) : Eff l m k (j.restartCarrier a v) :=
  .addTriggers (.ite (.setEpoch (.onMod h (hl (by simp))) (fun _ hx => hl (by simp at hx ⊢; tauto)) (hm (by simp))) (.onMod h (hl (by simp))))
    (fun _ hx => hl (by simp at hx ⊢; tauto)) (hm (by simp))
theorem dropCommitted {x : Nat} (hl : StakePart.modu ∈ l := by decide) : Eff l m k (j.dropCommitted x) :=
  .foldl (fun _ _ h => .onMod h hl) _ (.onPort h hl)
theorem forceCarrier {cls cause : Nat} (hl : [.regs, .out, .prt, .modu] ⊆ l := by decide) (hm : syncRegs ⊆ m := by decide) :
    Eff l m k (j.forceCarrier cls cause) := by
  have hr : StakePart.regs ∈ l := hl (by simp)
  have hs : Reg.MOD_STATUS ∈ m := hm (by decide)
  exact .post (.putB (.put (.put (.restartCarrier (.put (.put (.onMod (.foldl (fun _ _ h => .dropCommitted h (hl (by simp))) _ h) (hl (by simp)))
    hr hs) hr hs) hl fun _ hx => hm (List.mem_of_mem_take (i := 2) hx)) hr hs) hr hs) hr hs) (fun _ hx => hl (by simp at hx ⊢; tauto))
    fun _ hx => hm (List.mem_of_mem_drop (i := 2) hx)
theorem syncAbort (hl : [.regs, .out, .prt, .modu] ⊆ l := by decide) (hm : syncRegs ⊆ m := by decide) : Eff l m k j.syncAbort :=
  .ite h (.forceCarrier h hl hm)
theorem srcLost {s : Nat} (hl : StakePart.ang ∈ l := by decide) : Eff l m k (j.srcLost s) := .foldl (fun _ _ h => .ite (.onClock h hl) h) _ h
theorem deliver {s : Nat} {x : Meas} (hl : StakePart.ang ∈ l := by decide) : Eff l m k (j.deliver s x) :=
  .foldl (fun _ _ h => .ite (.onClock h hl) h) _ h
theorem loseSource {s : Nat} (hl : [.ang, .regs, .out, .prt, .modu] ⊆ l := by decide) (hm : syncRegs ⊆ m := by decide) :
    Eff l m k (j.loseSource s) := by
  have h1 : Eff l m k (j.srcLost s) := .srcLost h (hl (by simp))
  exact .ite (.syncAbort h1 (fun _ hx => hl (List.mem_cons_of_mem _ hx)) hm) h1
end

end Stake.Eff
end Sys2Proof.Machine

/-! The shared operations of pairing, of the safe states and of CATCH. -/
namespace Sys2Proof.Machine
set_option Elab.async false

/-- The parts and registers that a break of a pairing changes. -/
def breakParts : List StakePart := [.regs, .out, .prt, .modu, .ang, .pair, .fe, .wal]
def breakRegs : List Nat := syncRegs ++ [Reg.ANG_CLK_CTRL 0, Reg.FLD_PAIR_STATUS, Reg.MOD_SPACING_CNT]

theorem Stake.takeAltSrc_eff (k : Stake) : Stake.Eff breakParts breakRegs k k.takeAltSrc := by
  unfold Stake.takeAltSrc
  extract_lets was j
  have hj : Stake.Eff breakParts breakRegs k j := .onClock (.put .refl)
  exact .ite (.syncAbort hj) hj

theorem Stake.survive_eff (k : Stake) : Stake.Eff breakParts breakRegs k k.survive := by
  unfold Stake.survive
  extract_lets j
  have hj : Stake.Eff breakParts breakRegs k j := .ite .refl k.takeAltSrc_eff
  exact .ite (.onPair (.leaveSwitching (.put hj))) (.updDerate (.put hj))

theorem Stake.yieldPair_eff (k : Stake) (own : Bool) : Stake.Eff breakParts breakRegs k (k.yieldPair own) := by
  unfold Stake.yieldPair
  extract_lets j h fixed
  have hj : Stake.Eff breakParts breakRegs k j := .onPair (.put .refl)
  exact .ite hj (.onPrt hj)

theorem Stake.breakRow_eff (k : Stake) (cause : Nat) : Stake.Eff breakParts breakRegs k (k.breakRow cause) := by
  unfold Stake.breakRow
  extract_lets consec other otherSt survivor q j
  have hq : Stake.Eff breakParts breakRegs k q := .onPair (.put (.putB .refl))
  have hj : Stake.Eff breakParts breakRegs k j := hq.trans (.ite q.survive_eff (q.yieldPair_eff _))
  exact .ite .refl (.post hj)

theorem Stake.detectBreak_eff (k : Stake) (cause : Nat) : Stake.Eff breakParts breakRegs k (k.detectBreak cause) :=
  .ite .refl (.toPartner (k.breakRow_eff cause))

theorem Stake.localBreak_eff (k : Stake) : Stake.Eff breakParts breakRegs k k.localBreak := k.detectBreak_eff _

/-! Scheduling a symbol on a port, and the AUX switch. -/

theorem Stake.intoWindow_eff (k : Stake) (p : Nat) (y : Symb) (e : Instant) (b : Bool) :
    Stake.Eff [.modu, .regs] [Reg.MOD_SPACING_CNT] k (k.intoWindow p y e b) := .ite (.hand (.onPort .refl)) (.onPort .refl)

theorem Stake.schedule_eff (k : Stake) (p : Nat) (y : Symb) (x : Instant) :
    Stake.Eff [.modu, .regs] [Reg.MOD_SPACING_CNT] k (k.schedule p y x) := by
  unfold Stake.schedule
  extract_lets q
  refine .ite (.onPort .refl) ?_
  cases q.inWindow k.ang.tick x with
  | some w => exact k.intoWindow_eff ..
  | none =>
    dsimp only
    split
    · exact .ite (.hand (.onPort .refl)) (.onPort .refl)
    · exact .ite (.hand (.onPort .refl)) (.onPort .refl)
    · exact .ite (.onPort .refl) (.hand .refl)
    · exact .ite (.onPort .refl) (.hand .refl)
    · exact .hand .refl

theorem Stake.auxRequest_eff (k : Stake) : Stake.Eff [.modu, .regs] [Reg.MOD_SPACING_CNT] k k.auxRequest := by
  unfold Stake.auxRequest
  extract_lets r j
  have hj : Stake.Eff [.modu, .regs] [Reg.MOD_SPACING_CNT] k j := .onMod .refl
  exact .ite (.ite (hj.trans (Stake.schedule_eff ..)) (.ite (hj.trans (Stake.schedule_eff ..)) hj)) (.ite (.onMod (.portOff hj)) hj)

/-! Seizing the ports (R280 to R286). -/

theorem Stake.takePort_eff (k : Stake) (p : Nat) : Stake.Eff [.modu, .regs] [Reg.LEG_STATUS] k (k.takePort p) := .put (.onPort .refl)

theorem Stake.takeAux_eff (k : Stake) (soft : Bool) : Stake.Eff [.modu, .regs, .prt] [Reg.LEG_STATUS] k (k.takeAux soft) :=
  .ite .refl (.onMod (.onPrt ((k.takePort_eff 3).mono)))

theorem Stake.postSafe_eff (k : Stake) (b : Option Nat) : Stake.Eff [.regs, .out, .prt] [Reg.PLT_SEIZE_CNT] k (k.postSafe b) :=
  .bump (.post_zero .refl)

def seizeRegs : List Nat := [Reg.LEG_STATUS, Reg.PLT_PS_STATUS, Reg.PLT_SEIZE_CNT]

/-- R280, R285: the phase ports are seized in the sub-state given. -/
theorem Stake.seizePorts_of (k : Stake) (sub cause : Nat) (soft : List Nat) (b : Option Nat) (a : Bool) :
    Stake.Eff [.modu, .regs, .prt, .out] seizeRegs k (k.seizePorts sub cause soft b a) ∧
    (k.seizePorts sub cause soft b a).flag Reg.PLT_PS_STATUS_SEIZED = true := by
  unfold Stake.seizePorts
  extract_lets first cur ps q j x offs l y z
  have hq : Stake.Eff [.modu, .regs, .prt, .out] [Reg.LEG_STATUS] k q := .onPrt .refl
  have hj : Stake.Eff [.modu, .regs, .prt, .out] [Reg.LEG_STATUS] k j := .ite hq (hq.step (q.takeAux_eff false))
  have hx : Stake.Eff [.modu, .regs, .prt, .out] seizeRegs k x :=
    .putB (.put (.put (hj.mono.trans (.foldl (fun _ _ h => h.step (Stake.takePort_eff ..)) _ .refl))))
  have hy : Stake.Eff [.prt] [] x y := .ite (.onPrt (.onPrt .refl)) .refl
  have hz : Stake.Eff [.prt] [] x z := .onPrt hy
  have hp : Stake.Eff [.regs, .out, .prt] [Reg.PLT_SEIZE_CNT] x (z.postSafe b) := hz.mono.trans (z.postSafe_eff b)
  split
  · next h =>
    refine ⟨hj.mono, ?_⟩
    have hf : k.flag Reg.PLT_PS_STATUS_SEIZED = true := by simp [first] at h; exact h.1
    exact (hj.regs.flag (by decide)).trans hf
  · refine ⟨hx.step hp, (hp.regs.flag (by decide)).trans ?_⟩
    exact Stake.flag_putB_same _ _ _ (by decide) rfl

theorem Stake.endDrive_eff (k : Stake) : Stake.Eff [.modu, .regs, .prt] [Reg.PLT_AXIS_STATE, Reg.MOD_SPACING_CNT] k k.endDrive := by
  unfold Stake.endDrive
  extract_lets resist j
  have hj : Stake.Eff [.modu, .regs, .prt] [Reg.PLT_AXIS_STATE, Reg.MOD_SPACING_CNT] k j := .onPrt (.putB .refl)
  exact .ite (hj.step j.auxRequest_eff) hj

def safeRegs : List Nat := [Reg.LEG_STATUS, Reg.PLT_PS_STATUS, Reg.PLT_SEIZE_CNT, Reg.PLT_AXIS_STATE, Reg.PLT_ACTIVE, Reg.MOD_SPACING_CNT]

/-- What a change of the axis's state changes of a stake. -/
theorem Stake.setAxis_posted {k j : Stake} {e : Ev} {c : Nat} {v : List Nat} (h : k.posted j e c v) (st sub : Nat) : k.posted (j.setAxis st sub) e c v :=
  h.of_prefix (j.setAxis_out st sub)

/-- R281, R288: the axis in SAFE with its ports seized. -/
theorem Stake.seizeSafe_of {k : Stake} (h : k.axis ≠ axNotReady) (sub cause : Nat) (soft : List Nat) (b : Option Nat) :
    (k.seizeSafe sub cause soft b).axis = axSafe ∧ (k.seizeSafe sub cause soft b).flag Reg.PLT_PS_STATUS_SEIZED = true ∧
    Stake.Only [.modu, .regs, .prt, .out, .fe] k (k.seizeSafe sub cause soft b) ∧ k.outKept (k.seizeSafe sub cause soft b) ∧
    k.regsKept (k.seizeSafe sub cause soft b) safeRegs := by
  unfold Stake.seizeSafe
  extract_lets q
  obtain ⟨hq, hs⟩ := k.seizePorts_of sub cause soft b true
  have hqa : q.axis = k.axis := hq.regs.fld (by decide)
  rw [if_neg (hqa ▸ h)]
  have hd := q.endDrive_eff
  refine ⟨(Stake.syncActive_axis _).trans (Stake.setAxis_axis _ (by decide) _), ?_, ?_, ?_, ?_⟩
  · rw [(Stake.syncActive_regsKept _).flag (by decide), (Stake.setAxis_regsKept _ _ _).flag (by decide), hd.regs.flag (by decide)]
    exact hs
  · exact .syncActive (.setAxis ((hq.only.mono (by decide)).step hd.only))
  · exact (hq.out.trans (hd.out.trans (q.endDrive.setAxis_out _ _))).of_eq (Stake.Only.syncActive_only _).out
  · exact ((hq.regs.mono (by decide)).trans ((hd.regs.mono (by decide)).trans (.setAxis .refl (by decide)))).trans
      ((Stake.syncActive_regsKept _).mono (by decide))

/-! The end of a CATCH (R163). -/

def catchParts : List StakePart := [.regs, .out, .fe, .modu, .prt, .ang, .done]
def catchRegs : List Nat := syncRegs ++ [Reg.MOD_SPACING_CNT, Reg.FLD_STATUS_CATCH_STEP.off, Reg.FLD_CATCH_STATUS, Reg.FLD_CATCH_ANGLE,
  Reg.FLD_CATCH_ANGLE + 4, Reg.FLD_CATCH_SPEED, Reg.FLD_CATCH_SPEED + 4, Reg.FLD_CATCH_TICK, Reg.FLD_CATCH_TICK + 4]

/-- An axis that starts to run: what else changes. -/
theorem Stake.enterRun_of (k : Stake) : k.outKept k.enterRun ∧ k.regsKept k.enterRun axisRegs := by
  unfold Stake.enterRun
  extract_lets q
  have hq : Stake.Eff [.prt, .fe] [] k (q.onFe fun f => { f with flying := true, tStar := 0 }) := .onFe (.onPrt .refl)
  generalize (q.onFe fun f => { f with flying := true, tStar := 0 }) = j at hq
  have hs := Stake.Only.enterSwitching_only (j.setAxis axRun 0)
  have hd : Stake.Eff [.regs, .out, .fe] axisRegs (j.setAxis axRun 0).enterSwitching (j.setAxis axRun 0).enterSwitching.updDerate := .updDerate .refl
  have ha : j.outKept (j.setAxis axRun 0) := j.setAxis_out _ _
  exact ⟨(hq.out.trans (ha.of_eq hs.out)).trans hd.out,
    ((hq.regs.mono (by simp)).trans ((j.setAxis_regsKept _ _).trans (.of_eq .refl hs.regs hs.id))).trans hd.regs⟩

/-- R163: what the end of a CATCH changes; an axis that is in no CATCH stays where it is. -/
theorem Stake.catchEnd_of (k : Stake) (o : Nat) (a t : Word48) (w : Int) (b : Bool) :
    k.regsKept (k.catchEnd o a t w b) catchRegs ∧ k.outKept (k.catchEnd o a t w b) ∧
    (k.catchEnd o a t w b).ang.tick = k.ang.tick ∧
    (∀ st, k.axis = st → st ∉ [axRun, axDerate, axCatch] → (k.catchEnd o a t w b).axis = st) := by
  unfold Stake.catchEnd
  split
  · exact ⟨.refl, .refl, rfl, fun _ h _ => h⟩
  · next c _ =>
    extract_lets k1 k2 k3 ok k4 q5 k5 st res k6 k7
    have h3 : Stake.Eff catchParts catchRegs k k3 := .put (.leaveSwitching (.onFe (.put .refl)))
    have h4 : Stake.Eff catchParts catchRegs k k4 := .ite (.putB (.putB (.put48 (.put48 (.put48 h3))))) (.putB h3)
    have h5 : Stake.Eff catchParts catchRegs k k5 := .ite (.deliver (.loseSource (.onFe h4))) h4
    have h6 : Stake.Eff catchParts catchRegs k k6 := by
      simp only [k6]
      cases c.desc with
      | none => exact h5
      | some d => exact .complete h5
    have h7 : Stake.Eff catchParts catchRegs k k7 := .ite (.post h6) (.ite h6 (.post h6))
    obtain ⟨ho, hr⟩ := k7.enterRun_of
    refine ⟨h7.regs.trans (.ite (.ite (hr.mono (by decide)) (.setAxis .refl (by decide))) .refl),
      h7.out.trans (.ite (.ite ho (k7.setAxis_out _ _)) .refl), ?_, fun st hk hs => ?_⟩
    · rw [← h7.tick]
      exact congrArg AngState.tick (Stake.Only.ang (l := [.prt, .fe, .regs, .out, .modu])
        (.ite (.ite (.enterRun .refl) (.setAxis .refl)) .refl))
    · have h8 : k7.axis = st := h7.axis.into hk (by simp at hs; tauto)
      rw [if_neg (by rw [h8]; simp at hs; tauto)]
      exact h8

/-! Taking a trip (R279 to R286). -/

theorem Stake.openEpisode_congr {k j : Stake} (h : j.prt.episode = k.prt.episode) : j.openEpisode = k.openEpisode := by
  simp only [Stake.openEpisode, h]

/-- R279, R281: a trip of no port, while no short circuit is being handled, takes the axis to SAFE and seizes its ports. -/
theorem Stake.takeTrip_safe {k : Stake} (h : k.axis ≠ axNotReady) (ho : k.openEpisode = false) (cause : Nat) :
    (k.takeTrip cause none).axis = axSafe ∧ (k.takeTrip cause none).flag Reg.PLT_PS_STATUS_SEIZED = true ∧
    k.outKept (k.takeTrip cause none) := by
  have hb := k.localBreak_eff
  have hn : k.localBreak.axis ≠ axNotReady := by
    rcases hb.axis with h' | ⟨-, h' | h'⟩
    · rwa [h']
    · rw [h']; decide
    · rw [h']; decide
  obtain ⟨h1, h2, h3, h4, h5⟩ := Stake.seizeSafe_of hn (k.localBreak.resolve (k.localBreak.causeWhy cause) k.localBreak.latchBand) cause [] none
  have he : k.takeTrip cause none = (k.localBreak.seizeSafe (k.localBreak.resolve (k.localBreak.causeWhy cause) k.localBreak.latchBand)
      cause).localBreak.catchAbort := by
    unfold Stake.takeTrip
    simp only [ho]
    rfl
  rw [he]
  generalize k.localBreak.seizeSafe (k.localBreak.resolve (k.localBreak.causeWhy cause) k.localBreak.latchBand) cause = q at h1 h2 h3 h4 h5
  have hq := q.localBreak_eff
  obtain ⟨c1, c2, -, c4⟩ := q.localBreak.catchEnd_of 4 0 0 0 false
  exact ⟨c4 _ (hq.axis.into h1) (by decide), (c1.flag (by decide)).trans ((hq.regs.flag (by decide)).trans h2),
    hb.out.trans (h4.trans (hq.out.trans c2))⟩

end Sys2Proof.Machine

/-! What protection does when a time is over (R283, R288, R292, R300 to R302, R305). -/
namespace Sys2Proof.Machine
set_option Elab.async false

/-! `FRESH` of the axis's state: only a change of state writes it, and a stage once reached stays. -/

theorem Stake.setAxis_run_freshStage {k : Stake} {st : Nat} (h : st = axRun ∨ st = axDerate) (hf : k.fld Reg.PLT_AXIS_STATE_FRESH ≠ 0) (sub : Nat) :
    (k.setAxis st sub).fld Reg.PLT_AXIS_STATE_FRESH = k.fld Reg.PLT_AXIS_STATE_FRESH := by
  unfold Stake.setAxis
  extract_lets k1 k2 k3 k4
  have e2 : k2 = k1 := if_pos (by simpa using h)
  have e3 : k3 = k2 := (if_pos (by rcases h with h | h <;> simp [h])).trans (if_neg (by simp [hf]))
  have h1 : k.fldsKept k1 [Reg.PLT_AXIS_STATE_STATE, Reg.PLT_AXIS_STATE_SUB] := .put (.put .refl (by decide)) (by decide)
  have h3 : k.fldsKept k3 [Reg.PLT_AXIS_STATE_STATE, Reg.PLT_AXIS_STATE_SUB] := e3 ▸ e2 ▸ h1
  have h4 : k.fldsKept k4 [Reg.PLT_AXIS_STATE_STATE, Reg.PLT_AXIS_STATE_SUB] := .ite (.onFe h3) h3
  exact (Stake.fldsKept.ite h4 (.emit h4)) _ (by decide)

theorem Stake.updDerate_freshStage {k : Stake} (hf : k.fld Reg.PLT_AXIS_STATE_FRESH ≠ 0) :
    k.updDerate.fld Reg.PLT_AXIS_STATE_FRESH = k.fld Reg.PLT_AXIS_STATE_FRESH :=
  ite_frame (g := fun q : Stake => q.fld Reg.PLT_AXIS_STATE_FRESH) rfl
    (ite_frame (g := fun q : Stake => q.fld Reg.PLT_AXIS_STATE_FRESH) (Stake.setAxis_run_freshStage (.inr rfl) hf 0)
      (ite_frame (g := fun q : Stake => q.fld Reg.PLT_AXIS_STATE_FRESH) (Stake.setAxis_run_freshStage (.inl rfl) hf 0) rfl))

theorem Stake.post_freshStage {k : Stake} (hf : k.fld Reg.PLT_AXIS_STATE_FRESH ≠ 0) (e : Ev) (c : Nat) (v : List Nat) :
    (k.post e c v).fld Reg.PLT_AXIS_STATE_FRESH = k.fld Reg.PLT_AXIS_STATE_FRESH := by
  unfold Stake.post Stake.postF Stake.react
  extract_lets r again fl p q
  have hs : ∀ j : Stake, j.regs = k.regs → j.id = k.id → j.syncActive.updDerate.fld Reg.PLT_AXIS_STATE_FRESH = k.fld Reg.PLT_AXIS_STATE_FRESH :=
    fun j hr hi => by
      have hj : j.syncActive.fld Reg.PLT_AXIS_STATE_FRESH = k.fld Reg.PLT_AXIS_STATE_FRESH :=
        (j.syncActive_fldsKept _ (by decide)).trans (Stake.fld_congr hr hi _)
      exact (Stake.updDerate_freshStage (hj ▸ hf)).trans hj
  have hq : q.fld Reg.PLT_AXIS_STATE_FRESH = k.fld Reg.PLT_AXIS_STATE_FRESH := hs _ rfl rfl
  split
  · exact Stake.fld_congr rfl rfl _
  · split
    · exact (Stake.fld_congr rfl rfl _).trans hq
    · exact hq

/-! The band latch (R283). -/

theorem Stake.writeLatch_of {k : Stake} (hh : k.vote.halted = false) (hr : k.vote.resync = false) :
    k.writeLatch.prt.latchAt = k.now ∧ k.writeLatch.flag Reg.PLT_PS_STATUS_STALE = false ∧
    k.writeLatch.fld Reg.PLT_PS_STATUS_BAND = k.bandFrom k.prt.band % 4 ∧ k.regsKept k.writeLatch [Reg.PLT_PS_STATUS] := by
  unfold Stake.writeLatch
  rw [if_neg (by simp [hh]), if_neg (by simp [hr])]
  have hb : Stake.Only [.prt] k k.refreshBand := .onPrt .refl
  have hn : k.refreshBand.prt.band = k.bandFrom k.prt.band := rfl
  have hk : k.regsKept k.refreshBand [Reg.PLT_PS_STATUS] := .onPrt .refl
  generalize k.refreshBand = q at hb hn hk
  have ho : ∀ i : Stake, ∀ f, Stake.Only [.prt] i (i.onPrt f) := fun _ _ => .onPrt .refl
  refine ⟨hb.now, ?_, ?_, .onPrt (.putB (.put hk (by decide)) (by decide))⟩
  · exact ((ho _ _).flag _).trans (Stake.flag_putB_same _ _ _ (by decide) rfl)
  · exact ((ho _ _).fld _).trans ((Stake.fld_putB_ne _ _ _ _ (by decide)).trans ((Stake.fld_put_same _ _ _ (by decide)).trans (by rw [hn]; rfl)))

theorem Stake.latchStale_of (k : Stake) :
    let j := ((k.putB Reg.PLT_PS_STATUS_STALE true).bump Reg.PLT_LATCH_STALE_CNT).post .psLatchStale 0
    j.flag Reg.PLT_PS_STATUS_STALE = true ∧ j.rd Reg.PLT_LATCH_STALE_CNT = satAdd 16 (k.rd Reg.PLT_LATCH_STALE_CNT) 1 ∧
    k.posted j .psLatchStale 0 [] ∧ k.regsKept j [Reg.PLT_PS_STATUS, Reg.PLT_LATCH_STALE_CNT] := by
  intro j
  have hq : Stake.Eff [.regs] [Reg.PLT_PS_STATUS, Reg.PLT_LATCH_STALE_CNT] k ((k.putB Reg.PLT_PS_STATUS_STALE true).bump Reg.PLT_LATCH_STALE_CNT) :=
    .bump (.putB .refl)
  refine ⟨?_, ?_, hq.post_posted _ _ _, .post_zero hq.regs⟩
  · rw [Stake.flag_post _ _ _ _ Reg.PLT_PS_STATUS_STALE]
    exact ((Stake.regsKept_bump _ _ (l := [Reg.PLT_LATCH_STALE_CNT]) (by simp)).flag (by decide)).trans
      (Stake.flag_putB_same _ _ _ (by decide) rfl)
  · rw [Stake.rd_post _ _ _ _ Reg.PLT_LATCH_STALE_CNT, Stake.rd_bump_same, Stake.rd_putB_ne _ _ (by decide)]

/-! The chopper check (R292). -/

theorem Stake.clampUpd_of (k : Stake) (u : Int) : k.outKept (k.clampUpd u) ∧ (k.clampUpd u).prt.check = k.prt.check := by
  unfold Stake.clampUpd
  extract_lets fault lim c0 post k1 k2 k3
  have hp : ∀ (q : Stake) (b c : Nat), q.outKept (post q b c) ∧ (post q b c).prt.check = q.prt.check := fun q b c => by
    obtain ⟨x, y, h⟩ := (q.onPrt fun p => { p with clamp := p.clamp ||| b }).post_prt .regenClamp 0 [c]
    exact ⟨(Stake.Eff.post_zero (l := [.regs, .out, .prt]) (m := []) (.onPrt .refl)).out, by rw [show (post q b c).prt = _ from h]; rfl⟩
  have h1 : k.outKept k1 ∧ k1.prt.check = k.prt.check := by
    simp only [k1]
    split
    · exact hp k 1 1
    · exact ⟨.refl, rfl⟩
  have h2 : k.outKept k2 ∧ k2.prt.check = k.prt.check := by
    simp only [k2]
    split
    · exact ⟨h1.1.trans (hp k1 2 2).1, (hp k1 2 2).2.trans h1.2⟩
    · exact h1
  have h3 : k3.prt.check = k2.prt.check := by
    simp only [k3]
    split <;> rfl
  exact ⟨h2.1.trans (.putB (.ite (Stake.Eff.onPrt (l := [.prt]) (m := []) .refl).out .refl)),
    h3.trans h2.2⟩

theorem Stake.chopperFault_of (k : Stake) (ch : Nat) :
    let q := (k.onPrt fun p => { p with check := none }).post .chopperFault 1 [Machine.word (k.chan ch).y, k.prt.udc.toNat]
    let j := q.auxRequest.clampUpd q.prt.udc
    j.prt.check = none ∧ k.posted j .chopperFault 1 [Machine.word (k.chan ch).y, k.prt.udc.toNat] := by
  intro q j
  obtain ⟨x, y, h⟩ := (k.onPrt fun p => { p with check := none }).post_prt .chopperFault 1 [Machine.word (k.chan ch).y, k.prt.udc.toNat]
  have hc : q.prt.check = none := by rw [show q.prt = _ from h]; rfl
  have hp : k.posted q .chopperFault 1 [Machine.word (k.chan ch).y, k.prt.udc.toNat] :=
    (Stake.Only.onPrt (l := [.prt]) .refl).post_posted _ _ _
  have ha := q.auxRequest_eff
  obtain ⟨h1, h2⟩ := Stake.clampUpd_of q.auxRequest q.prt.udc
  exact ⟨h2.trans (by rw [ha.only.prt]; exact hc), hp.of_prefix (ha.out.trans h1)⟩

/-! A silent plait and the end of a STOP (R283, R288). -/

theorem Stake.axisIn_iff (k : Stake) (l : List Nat) : k.axisIn l = true ↔ k.axis ∈ l := by simp [Stake.axisIn]

/-- R283: a plait silent for four latch times is a trip. -/
theorem Stake.plaitSilent_of {k : Stake} (ha : k.axisIn [axRun, axDerate, axCatch, axDischarge, axTest] = true) (ho : k.openEpisode = false) :
    let j := (k.post .psPlaitSilent 4).takeTrip 9 none
    j.axis = axSafe ∧ j.flag Reg.PLT_PS_STATUS_SEIZED = true ∧ k.posted j .psPlaitSilent 4 [] := by
  intro j
  have hp : Stake.Eff [.regs, .out, .prt] axisRegs k (k.post .psPlaitSilent 4) := .post .refl
  have hn : (k.post .psPlaitSilent 4).axis ≠ axNotReady := by
    rcases hp.axis with h | ⟨-, h | h⟩
    · rw [h]
      rintro h'
      rw [Stake.axisIn_iff, h'] at ha
      exact absurd ha (by decide)
    · rw [h]; decide
    · rw [h]; decide
  obtain ⟨x, y, hx⟩ := k.post_prt .psPlaitSilent 4 []
  have he : (k.post .psPlaitSilent 4).openEpisode = false := (Stake.openEpisode_congr (by rw [hx])).trans ho
  obtain ⟨h1, h2, h3⟩ := Stake.takeTrip_safe hn he 9
  exact ⟨h1, h2, (k.post_posted _ _ _).of_prefix h3⟩

/-! The freshness of the host (R300 to R302). -/

theorem Stake.hostStale_of (k : Stake) (v : Nat) :
    let j := ((k.put Reg.PLT_AXIS_STATE_FRESH 1).bump Reg.PLT_FRESH_CNT).post .hostStale 2 [v]
    j.fld Reg.PLT_AXIS_STATE_FRESH = 1 ∧ j.rd Reg.PLT_FRESH_CNT = satAdd 16 (k.rd Reg.PLT_FRESH_CNT) 1 ∧ k.posted j .hostStale 2 [v] := by
  intro j
  have hq : Stake.Only [.regs] k ((k.put Reg.PLT_AXIS_STATE_FRESH 1).bump Reg.PLT_FRESH_CNT) := .bump (.put .refl)
  have h1 : ((k.put Reg.PLT_AXIS_STATE_FRESH 1).bump Reg.PLT_FRESH_CNT).fld Reg.PLT_AXIS_STATE_FRESH = 1 :=
    (Stake.fld_bump_ne _ _ _ (by decide)).trans (Stake.fld_put_same _ _ _ (by decide))
  refine ⟨(Stake.post_freshStage (by rw [h1]; decide) _ _ _).trans h1, ?_, hq.post_posted _ _ _⟩
  rw [Stake.rd_post _ _ _ _ Reg.PLT_FRESH_CNT, Stake.rd_bump_same, Stake.rd_put_ne _ _ (by decide)]

theorem Stake.hostFallback_of (k : Stake) :
    let j := ((((k.put Reg.PLT_AXIS_STATE_FRESH 2).putB Reg.PLT_AXIS_STATE_FALLBACK true).refreshHost).onFe fun f => { f with fb := none }).post
      .hostLoss 0 [1]
    j.fld Reg.PLT_AXIS_STATE_FRESH = 2 ∧ j.flag Reg.PLT_AXIS_STATE_FALLBACK = true ∧ k.posted j .hostLoss 0 [1] := by
  intro j
  have hq : Stake.Only [.prt, .fe] ((k.put Reg.PLT_AXIS_STATE_FRESH 2).putB Reg.PLT_AXIS_STATE_FALLBACK true)
    ((((k.put Reg.PLT_AXIS_STATE_FRESH 2).putB Reg.PLT_AXIS_STATE_FALLBACK true).refreshHost).onFe fun f => { f with fb := none }) :=
    .onFe (.refreshHost .refl)
  have hp : Stake.Only [.regs, .prt, .fe] k
    ((((k.put Reg.PLT_AXIS_STATE_FRESH 2).putB Reg.PLT_AXIS_STATE_FALLBACK true).refreshHost).onFe fun f => { f with fb := none }) :=
    .onFe (.refreshHost (.putB (.put .refl)))
  refine ⟨?_, ?_, hp.post_posted _ _ _⟩
  · rw [Stake.fld_post_zero, hq.fld, Stake.fld_putB_ne _ _ _ _ (by decide)]
    exact Stake.fld_put_same _ _ _ (by decide)
  · rw [Stake.flag, Stake.fld_post_zero, hq.fld]
    exact Stake.flag_putB_same _ _ _ (by decide) rfl

theorem Stake.hostLost_of (k : Stake) :
    let j := (k.put Reg.PLT_AXIS_STATE_FRESH 3).post .hostLoss 3 [0]
    j.fld Reg.PLT_AXIS_STATE_FRESH = 3 ∧ k.posted j .hostLoss 3 [0] := by
  intro j
  have h1 : (k.put Reg.PLT_AXIS_STATE_FRESH 3).fld Reg.PLT_AXIS_STATE_FRESH = 3 := Stake.fld_put_same _ _ _ (by decide)
  exact ⟨(Stake.post_freshStage (by rw [h1]; decide) _ _ _).trans h1, (Stake.Only.put (l := [.regs]) .refl).post_posted _ _ _⟩

/-- R301, R302: the host is lost: the fallback command takes over where it is permitted and served, otherwise the loss is an F3 fault. -/
def Stake.hostLoss (k : Stake) (served : Bool) : Stake :=
  if !k.freshOver (k.inForce Reg.PLT_FRESH_T_LOSS) || k.fld Reg.PLT_AXIS_STATE_FRESH = 3 then k
  else if !k.flag Reg.PLT_AXIS_STATE_FALLBACK && k.inForceB Reg.PLT_FRESH_FB_PERMIT && served then
    ((((k.put Reg.PLT_AXIS_STATE_FRESH 2).putB Reg.PLT_AXIS_STATE_FALLBACK true).refreshHost).onFe fun f => { f with fb := none }).post
      .hostLoss 0 [1]
  else (k.put Reg.PLT_AXIS_STATE_FRESH 3).post .hostLoss 3 [0]

theorem exec_hostLossTimeout (s : State) (n : Nat) :
    exec (.hostLossTimeout n) s = .next (s.onStake n (Stake.hostLoss · (s.fallbackServed n))) := rfl

theorem Stake.hostLoss_served {k : Stake} {b : Bool} (ho : k.freshOver (k.inForce Reg.PLT_FRESH_T_LOSS) = true)
    (hf : k.fld Reg.PLT_AXIS_STATE_FRESH ≠ 3)
    (h : k.flag Reg.PLT_AXIS_STATE_FALLBACK = false ∧ k.inForceB Reg.PLT_FRESH_FB_PERMIT = true ∧ b = true) :
    (k.hostLoss b).fld Reg.PLT_AXIS_STATE_FRESH = 2 ∧ (k.hostLoss b).flag Reg.PLT_AXIS_STATE_FALLBACK = true ∧
    k.posted (k.hostLoss b) .hostLoss 0 [1] := by
  obtain ⟨h1, h2, h3⟩ := h
  unfold Stake.hostLoss
  rw [if_neg (by simp [ho, hf]), if_pos (by simp [h1, h2, h3])]
  exact Stake.hostFallback_of _

theorem Stake.hostLoss_unserved {k : Stake} {b : Bool} (ho : k.freshOver (k.inForce Reg.PLT_FRESH_T_LOSS) = true)
    (hf : k.fld Reg.PLT_AXIS_STATE_FRESH ≠ 3)
    (h : ¬(k.flag Reg.PLT_AXIS_STATE_FALLBACK = false ∧ k.inForceB Reg.PLT_FRESH_FB_PERMIT = true ∧ b = true)) :
    (k.hostLoss b).fld Reg.PLT_AXIS_STATE_FRESH = 3 ∧ k.posted (k.hostLoss b) .hostLoss 3 [0] := by
  unfold Stake.hostLoss
  rw [if_neg (by simp [ho, hf]), if_neg (by simpa [and_assoc] using h)]
  exact Stake.hostLost_of _

/-- R305: a discharge that is late. -/
theorem Stake.dischargeLate_of (k : Stake) (d : Discharge) :
    let idle := d.unserved || (d.mode = 2 && k.axis ≠ axDischarge && !d.ramping)
    let j := (k.onPrt fun p => { p with discharge := if idle then none else some { d with late := true } }).post
      .dischargeIncomplete 1 [k.prt.udc.toNat, d.mode]
    j.prt.discharge = (if d.unserved ∨ (d.mode = 2 ∧ k.axis ≠ axDischarge ∧ d.ramping = false) then none else some { d with late := true }) ∧
      k.posted j .dischargeIncomplete 1 [k.prt.udc.toNat, d.mode] := by
  intro idle j
  obtain ⟨x, y, hx⟩ := (k.onPrt fun p => { p with discharge := if idle then none else some { d with late := true } }).post_prt
    .dischargeIncomplete 1 [k.prt.udc.toNat, d.mode]
  refine ⟨?_, (Stake.Only.onPrt (l := [.prt]) .refl).post_posted _ _ _⟩
  rw [show j.prt = _ from hx]
  exact if_congr (by simp [idle, and_assoc]) rfl rfl

/-- Settles O51. -/
theorem protectionTimes : Obligations.ProtectionTimes := by
  unfold Obligations.ProtectionTimes
  refine ⟨fun s n hp hh hr hb => ?_, fun s n hp ha hs => ?_, fun s n hp ha ho hx => ?_, fun s n hp hs ha hd ht hb => ?_,
    fun s n at_ i hp hc ht => ?_, fun s n hp he hs hh hr ht => ?_, fun s n hp ho hf => ?_, fun s n hp ho hf => ?_, fun s n d hp hd hl ht => ?_⟩
  · refine ⟨_, rfl, s.onStake_elsewhere n _, ?_⟩
    rw [State.onStake_stake_same hp]
    rw [if_pos (by simp [hb, hr])]
    exact Stake.writeLatch_of hh hr
  · refine ⟨_, rfl, s.onStake_elsewhere n _, ?_⟩
    rw [State.onStake_stake_same hp]
    rw [if_pos (by simp [ha, hs])]
    exact Stake.latchStale_of _
  · refine ⟨_, rfl, s.onStake_elsewhere n _, ?_⟩
    rw [State.onStake_stake_same hp]
    rw [if_pos (by simp [ha, hx])]
    exact Stake.plaitSilent_of hx ho
  · refine ⟨_, rfl, s.onStake_elsewhere n _, ?_⟩
    rw [State.onStake_stake_same hp]
    dsimp only
    rw [if_pos]
    · exact ⟨Stake.setAxis_axis _ (by decide) _, Stake.setAxis_stopPending _ (by decide) _⟩
    · have hx : (s.stake n).axisIn [axRun, axDerate] = true := by
        rw [Stake.axisIn_iff]
        simpa using ha
      have hband : (s.stake n).refreshBand.prt.band = 0 := hb
      cases hdd : (s.stake n).prt.discharge with
      | none => simp [hs, hx, ht, hband]
      | some d => simp [hs, hx, ht, hband, hd d hdd]
  · refine ⟨_, rfl, s.onStake_elsewhere n _, ?_⟩
    rw [State.onStake_stake_same hp]
    simp only [hc]
    rw [if_neg (by omega)]
    exact Stake.chopperFault_of _ _
  · refine ⟨_, rfl, s.onStake_elsewhere n _, ?_⟩
    rw [State.onStake_stake_same hp]
    dsimp only
    rw [if_pos (by simp [he, hs, hh, hr, ht])]
    obtain ⟨x, y, hx⟩ := ((s.stake n).onPrt fun p => { p with winStale := true }).post_prt .tmonWinStale 2
      [(s.stake n).now - (s.stake n).prt.winAt.getD 0]
    exact ⟨by rw [hx]; rfl, (Stake.Only.onPrt (l := [.prt]) .refl).post_posted _ _ _⟩
  · refine ⟨_, rfl, s.onStake_elsewhere n _, ?_⟩
    rw [State.onStake_stake_same hp]
    rw [if_pos (by simp [ho, hf])]
    exact Stake.hostStale_of _ _
  · refine ⟨_, exec_hostLossTimeout s n, s.onStake_elsewhere n _, ?_⟩
    rw [State.onStake_stake_same hp]
    split_ifs with h
    · exact Stake.hostLoss_served ho hf h
    · exact Stake.hostLoss_unserved ho hf h
  · refine ⟨_, rfl, s.onStake_elsewhere n _, ?_⟩
    rw [State.onStake_stake_same hp]
    simp only [hd]
    rw [if_neg (by simp [hl, ht])]
    exact Stake.dischargeLate_of _ d

end Sys2Proof.Machine

/-! Discharges, `DISCH_REQ`, `FAULTIN` and the protection APPLY (R279, R303, R304, R310). -/
namespace Sys2Proof.Machine
set_option Elab.async false

/-- Of protection's state only what seizing the ports and posting change: the active set, the F3 requests, the generated symbols. -/
def Stake.seizedOnly (k j : Stake) : Prop :=
  ∃ a f r g l d, j.prt = { k.prt with active := a, f3 := f, releasing := r, gen := g, lastOff := l, ascDue := d }

namespace Stake.seizedOnly
variable {k j i : Stake}

theorem refl : k.seizedOnly k := ⟨_, _, _, _, _, _, rfl⟩
theorem trans (h : k.seizedOnly j) (h' : j.seizedOnly i) : k.seizedOnly i := by
  obtain ⟨_, _, _, _, _, _, h⟩ := h
  obtain ⟨_, _, _, _, _, _, h'⟩ := h'
  exact ⟨_, _, _, _, _, _, by rw [h', h]⟩
theorem of_only {l : List StakePart} (h : k.seizedOnly j) (ho : Stake.Only l j i) (hl : StakePart.prt ∉ l := by decide) : k.seizedOnly i :=
  h.trans ⟨_, _, _, _, _, _, ho.prt hl⟩
theorem post {e : Ev} {c : Nat} {v : List Nat} (h : k.seizedOnly j) : k.seizedOnly (j.post e c v) := by
  obtain ⟨_, _, hp⟩ := j.post_prt e c v
  exact h.trans ⟨_, _, _, _, _, _, hp⟩
theorem ite {p : Prop} [Decidable p] (h : k.seizedOnly j) (h' : k.seizedOnly i) : k.seizedOnly (if p then j else i) := by
  split <;> assumption
theorem generate {l : List GenSym} (h : k.seizedOnly j) : k.seizedOnly (j.generate l) := h.trans ⟨_, _, _, _, _, _, rfl⟩
theorem takeAux {b : Bool} (h : k.seizedOnly j) : k.seizedOnly (j.takeAux b) := by
  refine h.trans ?_
  unfold Stake.takeAux
  refine .ite .refl (.of_only (.generate (.of_only .refl (j.takePort_eff 3).only)) (.onMod (l := [.modu]) .refl))
theorem seizePorts {sub cause : Nat} {soft : List Nat} {b : Option Nat} {a : Bool} (h : k.seizedOnly j) :
    k.seizedOnly (j.seizePorts sub cause soft b a) := by
  refine h.trans ?_
  unfold Stake.seizePorts
  extract_lets first cur ps q x y offs l z w
  have hq : j.seizedOnly q := ⟨_, _, _, _, _, _, rfl⟩
  have hx : j.seizedOnly x := .ite hq (.takeAux hq)
  have hf : Stake.Only [.modu, .regs] x y :=
    .putB (.put (.put (.foldl (fun _ _ h => h.step (Stake.takePort_eff _ _).only) _ .refl)))
  have hz : y.seizedOnly z := .ite (.generate ⟨_, _, _, _, _, _, rfl⟩) .refl
  have hw : z.seizedOnly w := ⟨_, _, _, _, _, _, rfl⟩
  exact .ite hx (((hx.of_only hf).trans (hz.trans hw)).post.of_only (.bump (l := [.regs]) .refl))

theorem discharge (h : k.seizedOnly j) : j.prt.discharge = k.prt.discharge := by obtain ⟨_, _, _, _, _, _, h⟩ := h; rw [h]
theorem disAux (h : k.seizedOnly j) : j.prt.disAux = k.prt.disAux := by obtain ⟨_, _, _, _, _, _, h⟩ := h; rw [h]
theorem episode (h : k.seizedOnly j) : j.prt.episode = k.prt.episode := by obtain ⟨_, _, _, _, _, _, h⟩ := h; rw [h]
theorem trips (h : k.seizedOnly j) : j.prt.trips = k.prt.trips := by obtain ⟨_, _, _, _, _, _, h⟩ := h; rw [h]
end Stake.seizedOnly

theorem Stake.onPrt_prt (k : Stake) (f : PrtState → PrtState) : (k.onPrt f).prt = f k.prt := rfl

/-- A change of state leaves a CATCH under way as it is. -/
theorem Stake.setAxis_catching (k : Stake) (st sub : Nat) : (k.setAxis st sub).fe.catching = k.fe.catching := by
  unfold Stake.setAxis
  extract_lets k1 k2 k3 k4
  have h1 : Stake.Only [.regs] k k1 := .put (.put .refl)
  have h2 : Stake.Only [.regs] k k2 := .ite h1 (.syncActive (.putB h1))
  have h3 : Stake.Only [.regs] k k3 := .ite (.ite (.put h2) h2) (.put h2)
  have h4 : k4.fe.catching = k.fe.catching := by
    simp only [k4]
    split
    · change k3.fe.catching = k.fe.catching
      rw [h3.fe]
    · rw [h3.fe]
  split
  · exact h4
  · exact h4

/-- R303: the AUX request of a discharge in mode 1 (R304). -/
def Stake.disAuxOn (k : Stake) (d : Discharge) : Stake :=
  if d.mode = 1 then (k.onPrt fun p => { p with disAux := true }).auxRequest else k

theorem Stake.disAuxOn_eff (k : Stake) (d : Discharge) : Stake.Eff [.prt, .modu, .regs] [Reg.MOD_SPACING_CNT] k (k.disAuxOn d) :=
  .ite ((Stake.Eff.onPrt .refl).step (Stake.auxRequest_eff _)) .refl

theorem Stake.disAuxOn_prt (k : Stake) (d : Discharge) : (k.disAuxOn d).prt = { k.prt with disAux := d.mode = 1 || k.prt.disAux } := by
  unfold Stake.disAuxOn
  split
  · next h =>
    rw [(Stake.auxRequest_eff _).only.prt, Stake.onPrt_prt]
    simp [h]
  · next h => simp [h]

/-- R303, R304: what a discharge that acts does to an axis that is not in SAFE. -/
theorem Stake.dischargeAct_of {k : Stake} {d : Discharge} (hd : k.prt.discharge = some d) (ha : k.axis ≠ axSafe) :
    k.dischargeAct.axis = axDischarge ∧ k.dischargeAct.prt.discharge = some { d with ramping := false, holding := true } ∧
    k.dischargeAct.prt.disAux = (d.mode = 1 || k.prt.disAux) ∧
    Stake.Only [.prt, .modu, .regs, .out, .fe] k k.dischargeAct ∧ k.dischargeAct.fe.catching = k.fe.catching := by
  have hs : Stake.Only [.prt] k (k.onPrt fun p => { p with discharge := some { d with ramping := false } }) := .onPrt .refl
  have hp : (k.onPrt fun p => { p with discharge := some { d with ramping := false } }).prt = { k.prt with discharge := some { d with ramping := false } } := rfl
  have he : k.dischargeAct = (
      if ((k.onPrt fun p => { p with discharge := some { d with ramping := false } }).disAuxOn d).axis = axSafe then
        (k.onPrt fun p => { p with discharge := some { d with ramping := false } }).disAuxOn d
      else
        let q := (((k.onPrt fun p => { p with discharge := some { d with ramping := false } }).disAuxOn d).setAxis axDischarge 0).putB
          Reg.PLT_AXIS_STATE_STOP_PENDING false
        (q.leaveSwitching.seizePorts (q.resolve {} q.latchBand) 10 [] none false).onPrt fun p =>
          { p with discharge := p.discharge.map fun x => { x with holding := true } }) := by
    unfold Stake.dischargeAct
    rw [hd]
    rfl
  rw [he]
  generalize (k.onPrt fun p => { p with discharge := some { d with ramping := false } }) = k1 at hs hp
  have h2 := k1.disAuxOn_eff d
  have hp2 := k1.disAuxOn_prt d
  generalize k1.disAuxOn d = k2 at h2 hp2
  have ha2 : k2.axis = k.axis := (h2.regs.fld (by decide)).trans (hs.fld _)
  rw [if_neg (by rw [ha2]; exact ha)]
  extract_lets q
  have hq : Stake.Only [.regs, .out, .fe] k2 q := .putB (.setAxis .refl)
  have hqa : q.axis = axDischarge := (Stake.fld_putB_ne _ _ _ _ (by decide)).trans (Stake.setAxis_axis _ (by decide) _)
  have hl : Stake.Eff [.modu, .regs] [Reg.MOD_SPACING_CNT] q q.leaveSwitching := .leaveSwitching .refl
  obtain ⟨hz, -⟩ := q.leaveSwitching.seizePorts_of (q.resolve {} q.latchBand) 10 [] none false
  have hzo : q.leaveSwitching.seizedOnly (q.leaveSwitching.seizePorts (q.resolve {} q.latchBand) 10 [] none false) := .seizePorts .refl
  generalize q.leaveSwitching.seizePorts (q.resolve {} q.latchBand) 10 [] none false = z at hz hzo
  have hpz : q.leaveSwitching.prt = { k1.prt with disAux := d.mode = 1 || k1.prt.disAux } := by rw [hl.only.prt, hq.prt, hp2]
  have ho : ∀ f, Stake.Only [.prt] z (z.onPrt f) := fun f => .onPrt .refl
  refine ⟨?_, ?_, ?_, ?_, ?_⟩
  · exact ((ho _).fld _).trans ((hz.regs.fld (by decide)).trans ((hl.regs.fld (by decide)).trans hqa))
  · rw [Stake.onPrt_prt, hzo.discharge, hpz, hp]
    rfl
  · rw [Stake.onPrt_prt]
    exact hzo.disAux.trans (by rw [hpz, hp])
  · exact .onPrt (((((hs.mono (by decide)).step h2.only).step hq).step hl.only).step hz.only)
  · rw [(ho _).fe, hz.only.fe, hl.only.fe]
    exact (Stake.setAxis_catching ..).trans (by rw [h2.only.fe, hs.fe])

/-- R303: the discharge that `DISCH_REQ` starts in mode 1. -/
def Stake.reqDischarge (k : Stake) : Discharge := { mode := 1, start := k.now, byReq := true, ramping := false }

/-- R303: `DISCH_REQ` on a stake in OFF or ARMED that discharges through its AUX port. -/
theorem Stake.dischReq_starts {k : Stake} (he : k.inForceB Reg.PLT_DIS_CFG_REQ_EN = true) (hm : k.inForce Reg.PLT_DIS_CFG_DIS_MODE = 1)
    (ha : k.axis = axOff ∨ k.axis = axArmed) (hs : k.splitOrHand = false) (hd : k.prt.discharge = none) :
    ∃ d, k.dischReq.axis = axDischarge ∧ k.dischReq.prt.discharge = some d ∧ d.byReq = true ∧ d.start = k.now ∧
      k.dischReq.prt.disAux = true := by
  have hne : k.axis ≠ axNotReady ∧ k.axis ≠ axCatch ∧ k.axis ≠ axSafe ∧ k.axisIn [axDischarge, axSafe] = false := by
    rcases ha with h | h <;> (unfold Stake.axisIn; rw [h]; decide)
  obtain ⟨h1, h2, h3, h4⟩ := hne
  have hend : k.endDischarge = k := by simp [Stake.endDischarge, hd]
  have hq : k.dischReq = ((k.onPrt fun p => { p with discharge := some k.reqDischarge }).dischargeAct).injectionRelease := by
    unfold Stake.dischReq
    rw [if_neg (by simp [he, hm, h1]), if_neg (by simp [hs])]
    unfold Stake.dischargeFrom
    rw [if_neg h2]
    simp [hd, h4, hend, Stake.dischargeStart, hm, Stake.reqDischarge]
  obtain ⟨c1, c2, c3, -, -⟩ := Stake.dischargeAct_of (k := k.onPrt fun p => { p with discharge := some k.reqDischarge }) rfl (ne_of_eq_of_ne (Stake.fld_congr rfl rfl _) h3)
  rw [hq]
  generalize (k.onPrt fun p => { p with discharge := some k.reqDischarge }).dischargeAct = q at c1 c2 c3
  have hr : q.injectionRelease = q := by simp [Stake.injectionRelease, c2, Stake.reqDischarge]
  rw [hr]
  exact ⟨_, c1, c2, rfl, rfl, c3⟩

/-! `FAULTIN` (R279). -/

theorem Stake.postF_posted (k : Stake) (e : Ev) (c : Nat) (v : List Nat) (x : Nat) : k.posted (k.postF e c v x) e c v := by
  unfold Stake.postF
  extract_lets r again fl
  obtain ⟨l, h⟩ := Stake.react_out (k.emit e c v fl) { r with eflags := fl } false x
  exact ⟨_ :: l, fl, by rw [← h, Stake.emit, List.append_assoc]; rfl, List.mem_cons_self⟩

/-- R279: an F3 event with a sub-state of its own asks for its reaction. -/
theorem Stake.postF_f3 (k : Stake) (e : Ev) (v : List Nat) (x : Nat) :
    (k.postF e 3 v x).prt.f3 = k.prt.f3 ++ [⟨e, x, k.now, 2 ≤ k.fld Reg.PLT_VOTE_STATUS_MODE⟩] := by
  unfold Stake.postF Stake.react
  extract_lets r again fl p q
  have hq : Stake.Only [.regs, .out, .fe] ({ k.emit e 3 v fl with prt :=
      { k.prt with active := enterActive k.prt.active { r with eflags := fl } false } }) q := .updDerate (.syncActive .refl)
  have hm : q.fld Reg.PLT_VOTE_STATUS_MODE = k.fld Reg.PLT_VOTE_STATUS_MODE :=
    (Stake.updDerate_fldsKept _ _ (by decide)).trans ((Stake.syncActive_fldsKept _ _ (by decide)).trans (Stake.fld_congr rfl rfl _))
  have hp := hq.prt
  have hn := hq.now
  clear_value q
  rw [if_neg (show ¬(3 = 0) by decide), if_pos (show 3 = 3 from rfl)]
  change q.prt.f3 ++ [⟨e, x, q.now, 2 ≤ q.fld Reg.PLT_VOTE_STATUS_MODE⟩] = _
  rw [hp, hn, hm]
  rfl

/-- R279: the `FAULTIN` ball, asserted for its filter time. -/
def Stake.faultinTaken (k : Stake) : Stake :=
  if k.inForceB Reg.PLT_PS_SRC_FI_CLASS then (k.post .faultinAssert 4).trip 5
  else k.postF .faultinAssert 3 [] (k.inForce Reg.PLT_PS_SRC_FI_STATE)

theorem exec_faultinAssert {s : State} {n held : Nat} (hp : s.present n = true) (he : (s.stake n).inForceB Reg.PLT_PS_SRC_FI_EN = true)
    (hh : 10 * (s.stake n).inForce Reg.PLT_PS_SRC_FI_FILT ≤ held) :
    ∃ t, exec (.faultinAssert n held) s = .next t ∧ s.elsewhere t n ∧ t.stake n = (s.stake n).faultinTaken := by
  refine ⟨_, rfl, s.onStake_elsewhere n _, ?_⟩
  rw [State.onStake_stake_same hp]
  exact if_neg (by simp [he, hh])

theorem Stake.faultinTaken_of (k : Stake) :
    if k.inForceB Reg.PLT_PS_SRC_FI_CLASS then k.posted k.faultinTaken .faultinAssert 4 [] ∧ k.faultinTaken.prt.trips = k.prt.trips ++ [⟨5, none, k.now⟩]
    else k.posted k.faultinTaken .faultinAssert 3 [] ∧ k.faultinTaken.prt.f3 = k.prt.f3 ++
      [⟨.faultinAssert, k.inForce Reg.PLT_PS_SRC_FI_STATE, k.now, 2 ≤ k.fld Reg.PLT_VOTE_STATUS_MODE⟩] := by
  unfold Stake.faultinTaken
  split
  · have ho : Stake.Only [.prt] (k.post .faultinAssert 4) ((k.post .faultinAssert 4).trip 5) := .trip .refl
    refine ⟨(k.post_posted _ _ _).of_prefix (.of_eq .refl ho.out), ?_⟩
    change (k.post .faultinAssert 4).prt.trips ++ [⟨5, none, (k.post .faultinAssert 4).now⟩] = _
    rw [Stake.post_trips, Stake.post_now]
  · exact ⟨k.postF_posted .., k.postF_f3 ..⟩

/-! The protection APPLY (R310). -/

theorem Stake.pltCfgCause_le (k : Stake) : k.pltCfgCause ≤ 7 := firstCause_le _ (by simp)

theorem Stake.wPrCtrl_of {k : Stake} {w : Reg32} (hw : w.getLsbD 0 = true) :
    let q := k.store Reg.PLT_PR_CTRL w
    let c := q.pltCfgCause
    if c = 0 then (∀ off, 0x70800 ≤ off → off < 0x70880 → (k.wPrCtrl w).rdAct off = q.rd off) ∧ (k.wPrCtrl w).regs = q.regs
    else (k.wPrCtrl w).fld Reg.PLT_PR_STATUS_CFG_CAUSE = c ∧ (k.wPrCtrl w).flag Reg.PLT_PR_STATUS_CFG_REFUSED = true ∧
      (k.wPrCtrl w).act = k.act ∧ k.posted (k.wPrCtrl w) .pltCfgRefused 0 [c] := by
  intro q c
  have hq : Stake.Only [.regs] k q := .store .refl
  have hc : c ≤ 7 := q.pltCfgCause_le
  have he : k.wPrCtrl w = if c ≠ 0 then
      ((q.put Reg.PLT_PR_STATUS_CFG_CAUSE c).putB Reg.PLT_PR_STATUS_CFG_REFUSED true).post .pltCfgRefused 0 [c]
    else q.applyRange 0x70800 0x70880 := if_neg (by simp [hw])
  clear_value c q
  rw [he]
  by_cases h : c = 0
  · rw [if_pos h, if_neg (by simp [h])]
    exact ⟨fun off h1 h2 => (q.rdAct_applyRange _ _ _).trans (if_pos ⟨h1, h2⟩), rfl⟩
  · rw [if_neg h, if_pos h]
    have ho : Stake.Only [.regs] k ((q.put Reg.PLT_PR_STATUS_CFG_CAUSE c).putB Reg.PLT_PR_STATUS_CFG_REFUSED true) := .putB (.put hq)
    refine ⟨?_, ?_, ?_, ho.post_posted _ _ _⟩
    · rw [Stake.fld_post_zero, Stake.fld_putB_ne _ _ _ _ (by decide), Stake.fld_put_same _ _ _ (by decide)]
      exact Nat.mod_eq_of_lt (Nat.lt_of_le_of_lt hc (by decide))
    · rw [Stake.flag, Stake.fld_post_zero]
      exact Stake.flag_putB_same _ _ _ (by decide) rfl
    · rw [Stake.post_act, ho.act]

/-- Settles O52. -/
theorem protectionInputs : Obligations.ProtectionInputs := by
  unfold Obligations.ProtectionInputs
  refine ⟨fun s held h => ?_, fun s held h => ?_, fun s n held hp he hh => ?_, fun s n src w ha hb => ?_⟩
  · exact congrArg Host.Outcome.next (if_pos h)
  · refine ⟨_, congrArg Host.Outcome.next (if_neg (by omega)), s.onAll_pkg _, s.onAll_part _, fun n hn => ?_⟩
    rw [State.onAll_stake hn]
    exact ⟨fun h => if_pos (by simp [h]), Stake.dischReq_starts⟩
  · obtain ⟨t, ht, he, hk⟩ := exec_faultinAssert hp he hh
    exact ⟨t, ht, he, hk ▸ (s.stake n).faultinTaken_of⟩
  · obtain ⟨t, ht, he, hk⟩ := exec_stakeWrite ha fun k => k.wPrCtrl w
    refine ⟨t, ?_, he, hk ▸ Stake.wPrCtrl_of hb⟩
    rw [← ht]
    change Host.Outcome.next (s.stakeWrite src n Reg.PLT_PR_CTRL w fun k => if w.getLsbD 0 then k.wPrCtrl w else k) = _
    rw [hb]
    rfl

end Sys2Proof.Machine

/-! The commands that start an axis (R161, R288, R289, R309, R354). -/
namespace Sys2Proof.Machine
set_option Elab.async false

/-! AXIS descriptors (R350, R354). -/

theorem State.axisDesc_of {s : State} {n r c code : Nat} (h : s.axisAt n r c code) (f : Stake → Stake) :
    ∃ t, (.next (s.axisDesc n r c code f) : Host.Outcome State Fault Refusal) = .next t ∧ s.axisElsewhere t n ∧ t.stake n = f (s.stake n) := by
  obtain ⟨hr, ha, d, hd, hc, hb⟩ := h
  have he : s.axisDesc n r c code f = (s.onHost fun h =>
      { h with descs := dropFirst (fun x => x.ring = r && x.op = 2 && x.there) h.descs }).onStake n f := by
    unfold State.axisDesc State.takeDesc
    rw [if_neg (by simp [hr]), hd]
    simp [hc, hb, ha]
  refine ⟨_, rfl, ?_, ?_⟩
  · rw [he]
    refine ⟨by rw [State.onStake_pkg]; rfl, by rw [State.onStake_part]; rfl, by rw [State.onStake_pending]; rfl, fun m hm => ?_⟩
    rw [State.onStake_stake_ne _ hm]
    rfl
  · rw [he]
    exact State.onStake_stake_same (s := s.onHost _) (State.present_of_alive (s := s.onHost _) ha) f

theorem Stake.answered_of_done {k q : Stake} (h : k.done <+: q.done) (c : Completion) : c ∈ (q.complete c).done.drop k.done.length := by
  obtain ⟨l, hl⟩ := h
  change c ∈ (q.done ++ [c]).drop k.done.length
  rw [← hl, List.append_assoc, List.drop_left]
  exact List.mem_append_right _ (List.mem_singleton.2 rfl)

/-- R354: an AXIS command that passes its guards completes. -/
theorem Stake.axisDone_completed {k q : Stake} (h : k.done <+: q.done) (r c : Nat) : k.axisCompleted (q.axisDone r c) r c 0 0 :=
  ⟨_, Stake.answered_of_done h _, rfl, rfl, rfl, rfl, rfl⟩

theorem Stake.axisDone_only (k : Stake) (r c : Nat) : Stake.Only [.done] k (k.axisDone r c) := .complete .refl

theorem Stake.axisRefuse_only (k : Stake) (r c x : Nat) : Stake.Only [.regs, .done] k (k.axisRefuse r c x) := .complete (.put .refl)

/-- R289, R354: a refused AXIS command shows the cause and completes with it. -/
theorem Stake.axisRefuse_of (k : Stake) (r c x : Nat) : k.axisCompleted (k.axisRefuse r c x) r c 5 x ∧ (k.axisRefuse r c x).axis = k.axis ∧
    (k.axisRefuse r c x).fld Reg.PLT_AXIS_STATE_REFUSE = x % 16 := by
  have ho : Stake.Only [.done] (k.put Reg.PLT_AXIS_STATE_REFUSE x) (k.axisRefuse r c x) := .complete .refl
  exact ⟨⟨_, Stake.answered_of_done (q := k.put Reg.PLT_AXIS_STATE_REFUSE x) (List.prefix_refl _) _, rfl, rfl, rfl, rfl, rfl⟩,
    (ho.fld _).trans (Stake.fld_put_ne _ _ _ _ (by decide)), (ho.fld _).trans (Stake.fld_put_same _ _ _ (by decide))⟩

theorem Stake.axisCmd_refused {k : Stake} {r c x : Nat} (h : x ≠ 0) (f : Stake → Stake) : k.axisCmd r c x f = k.axisRefuse r c x := if_pos h

theorem Stake.axisCmd_done {k : Stake} {r c x : Nat} (h : x = 0) (f : Stake → Stake) : k.axisCmd r c x f = (f k).axisDone r c := if_neg (by simp [h])

/-! The changes of state. -/

theorem Stake.enterRun_axis (k : Stake) : k.enterRun.axis ∈ [axRun, axDerate] := by
  unfold Stake.enterRun
  extract_lets q
  generalize q.onFe (fun f => { f with flying := true, tStar := 0 }) = j
  have h1 : (j.setAxis axRun 0).enterSwitching.axis = axRun :=
    ((Stake.Only.enterSwitching_only _).fld _).trans (Stake.setAxis_axis _ (by decide) _)
  rcases (Stake.axisKept.refl (k := (j.setAxis axRun 0).enterSwitching)).updDerate with h | ⟨-, h | h⟩ <;> simp [h, h1]

theorem Stake.enterRun_shown (k : Stake) : k.enterRun.modu.fdtEnter = true ∧ k.enterRun.prt = { k.prt with freshAt := k.now } ∧
    k.enterRun.done = k.done := by
  have ho := Stake.Only.enterRun_only k
  refine ⟨?_, ?_, ho.done⟩
  · unfold Stake.enterRun
    extract_lets q
    rw [(Stake.Only.updDerate_only _).modu]
    rfl
  · unfold Stake.enterRun
    extract_lets q
    rw [(Stake.Only.updDerate_only _).prt, (Stake.Only.enterSwitching_only _).prt, (Stake.Only.setAxis_only _ _ _).prt]
    rfl

/-- R162: what the start of a CATCH shows. -/
theorem Stake.catchStart_of (k : Stake) (run : Bool) (d : Option (Nat × Nat)) :
    (k.catchStart run d).axis = axCatch ∧ (k.catchStart run d).fld Reg.FLD_STATUS_CATCH_STEP = 1 ∧
    (k.catchStart run d).fe.catching = some { start := k.now, run := run, desc := d } := by
  unfold Stake.catchStart
  extract_lets q
  have hn : q.now = k.now := (Stake.Only.leaveSwitching_only k).now
  have hs : (q.setAxis axCatch 0).now = k.now := ((Stake.Only.setAxis_only _ _ _).now).trans hn
  have ha : (q.setAxis axCatch 0).axis = axCatch := Stake.setAxis_axis _ (by decide) _
  generalize q.setAxis axCatch 0 = j at hs ha
  have ho : ∀ f, Stake.Only [.fe] (j.put Reg.FLD_STATUS_CATCH_STEP 1) ((j.put Reg.FLD_STATUS_CATCH_STEP 1).onFe f) := fun f => .onFe .refl
  refine ⟨((ho _).fld _).trans ((Stake.fld_put_ne _ _ _ _ (by decide)).trans ha), ((ho _).fld _).trans (Stake.fld_put_same _ _ _ (by decide)), ?_⟩
  rw [← hn]
  rfl

theorem Stake.driveRefusal_le (k : Stake) (cfg : Bool) (from_ : Nat) (clock test : Bool) : k.driveRefusal cfg from_ clock test ≤ 9 :=
  firstCause_le _ (by simp)

theorem Stake.axisDone_axis (k : Stake) (r c : Nat) : (k.axisDone r c).axis = k.axis := (k.axisDone_only r c).fld _

/-- Settles O49. -/
theorem axisStarts : Obligations.AxisStarts := by
  unfold Obligations.AxisStarts
  refine ⟨fun s n r c h => ?_, fun s n r c h => ?_, fun s n r c h => ?_, fun s n r c h => ?_, fun s n r c h => ?_⟩
  · intro k x
    obtain ⟨t, ht, he, hk⟩ := State.axisDesc_of h fun k => k.axisCmd r c (k.driveRefusal s.cfgInForce axOff false true) fun k => k.setAxis axArmed 0
    refine ⟨t, ht, he, fun hx => ?_, fun hx => ?_⟩
    · rw [hk, Stake.axisCmd_done hx]
      exact ⟨(Stake.axisDone_axis ..).trans (Stake.setAxis_axis _ (by decide) _),
        Stake.axisDone_completed (by rw [(Stake.Only.setAxis_only _ _ _).done]) r c⟩
    · rw [hk, Stake.axisCmd_refused hx]
      obtain ⟨h1, h2, h3⟩ := k.axisRefuse_of r c x
      exact ⟨h1, h3.trans (Nat.mod_eq_of_lt (Nat.lt_of_le_of_lt (k.driveRefusal_le ..) (by decide))), .complete (.put .refl (by decide)), h2⟩
  · intro k
    obtain ⟨t, ht, he, hk⟩ := State.axisDesc_of h fun k =>
      k.axisCmd r c (firstCause [(k.axis ≠ axArmed, 1), (k.pairedFollower, 5)]) fun k => k.setAxis axOff 0
    refine ⟨t, ht, he, ?_⟩
    rw [hk]
    split_ifs with h1 h2
    · rw [show firstCause [(decide (k.axis ≠ axArmed), 1), (k.pairedFollower, 5)] = 1 by simp [firstCause, h1],
        Stake.axisCmd_refused (by decide)]
      obtain ⟨h3, h4, -⟩ := k.axisRefuse_of r c 1
      exact ⟨h3, h4⟩
    · rw [show firstCause [(decide (k.axis ≠ axArmed), 1), (k.pairedFollower, 5)] = 5 by simp [firstCause, h1, h2],
        Stake.axisCmd_refused (by decide)]
      obtain ⟨h3, h4, -⟩ := k.axisRefuse_of r c 5
      exact ⟨h3, h4⟩
    · rw [show firstCause [(decide (k.axis ≠ axArmed), 1), (k.pairedFollower, 5)] = 0 by simp [firstCause, h1, h2],
        Stake.axisCmd_done rfl]
      exact ⟨(Stake.axisDone_axis ..).trans (Stake.setAxis_axis _ (by decide) _),
        Stake.axisDone_completed (by rw [(Stake.Only.setAxis_only _ _ _).done]) r c⟩
  · intro k valid x
    obtain ⟨t, ht, he, hk⟩ := State.axisDesc_of h fun k =>
      let valid := (k.clock 0).valid
      let cause := k.driveRefusal s.cfgInForce axArmed (!valid && !k.inForceB Reg.FLD_CATCH_GAP_CATCH_AUTO) true
      if cause = 0 && !valid then k.catchStart true (some (r, c)) else k.axisCmd r c cause Stake.enterRun
    have hk' : t.stake n = if x = 0 && !valid then k.catchStart true (some (r, c)) else k.axisCmd r c x Stake.enterRun := hk
    refine ⟨t, ht, he, fun hx hv => ?_, fun hx hv => ?_, fun hx => ?_⟩
    · obtain ⟨h1, h2, h3⟩ := k.enterRun_shown
      rw [hk', if_neg (by simp [hv]), Stake.axisCmd_done hx]
      have ho := k.enterRun.axisDone_only r c
      exact ⟨by rw [Stake.axisDone_axis]; exact k.enterRun_axis, by rw [ho.modu, h1], by rw [ho.prt, h2],
        Stake.axisDone_completed (by rw [h3]) r c⟩
    · rw [hk', if_pos (by simp [hx, hv])]
      exact k.catchStart_of true _
    · rw [hk', if_neg (by simp [hx]), Stake.axisCmd_refused hx]
      obtain ⟨h1, h2, -⟩ := k.axisRefuse_of r c x
      exact ⟨h1, h2⟩
  · intro k x
    obtain ⟨t, ht, he, hk⟩ := State.axisDesc_of h fun k => k.axisCmd r c (k.driveRefusal s.cfgInForce axOff false false) fun k =>
      (k.setAxis axTest 0).enterSwitching
    refine ⟨t, ht, he, fun hx => ?_, fun hx => ?_⟩
    · rw [hk, Stake.axisCmd_done hx]
      have hs := Stake.Only.enterSwitching_only (k.setAxis axTest 0)
      exact ⟨(Stake.axisDone_axis ..).trans ((hs.fld _).trans (Stake.setAxis_axis _ (by decide) _)), by rw [(Stake.axisDone_only _ r c).modu]; rfl,
        Stake.axisDone_completed (by rw [hs.done, (Stake.Only.setAxis_only _ _ _).done]) r c⟩
    · rw [hk, Stake.axisCmd_refused hx]
      obtain ⟨h1, h2, -⟩ := k.axisRefuse_of r c x
      exact ⟨h1, h2⟩
  · intro k x
    obtain ⟨t, ht, he, hk⟩ := State.axisDesc_of h fun k =>
      let cause := k.driveRefusal s.cfgInForce axArmed false false
      if cause = 0 then k.catchStart false (some (r, c)) else k.axisRefuse r c cause
    have hk' : t.stake n = if x = 0 then k.catchStart false (some (r, c)) else k.axisRefuse r c x := hk
    refine ⟨t, ht, he, fun hx => ?_, fun hx => ?_⟩
    · rw [hk', if_pos hx]
      obtain ⟨h1, -, h3⟩ := k.catchStart_of false (some (r, c))
      exact ⟨h1, h3⟩
    · rw [hk', if_neg hx]
      obtain ⟨h1, h2, -⟩ := k.axisRefuse_of r c x
      exact ⟨h1, h2⟩

end Sys2Proof.Machine

/-! The commands that end what an axis does (R288, R290, R303 to R308, R354). -/
namespace Sys2Proof.Machine
set_option Elab.async false

/-! STOP (R288, R303, R305). -/

/-- R305: the AUX request and the injection of a discharge that ends. -/
def Stake.dropDischarge (k : Stake) (d : Discharge) : Stake :=
  if d.injecting then ((k.onPrt fun p => { p with discharge := none, disAux := false }).auxRequest).leaveSwitching
  else (k.onPrt fun p => { p with discharge := none, disAux := false }).auxRequest

theorem Stake.dropDischarge_eff (k : Stake) (d : Discharge) : Stake.Eff [.prt, .modu, .regs] [Reg.MOD_SPACING_CNT] k (k.dropDischarge d) := by
  have h : Stake.Eff [.prt, .modu, .regs] [Reg.MOD_SPACING_CNT] k (k.onPrt fun p => { p with discharge := none, disAux := false }).auxRequest :=
    (Stake.Eff.onPrt .refl).step (Stake.auxRequest_eff _)
  exact .ite (.leaveSwitching h) h

theorem Stake.dropDischarge_prt (k : Stake) (d : Discharge) : (k.dropDischarge d).prt = { k.prt with discharge := none, disAux := false } := by
  unfold Stake.dropDischarge
  split
  · rw [(Stake.Only.leaveSwitching_only _).prt, (Stake.auxRequest_eff _).only.prt, Stake.onPrt_prt]
  · rw [(Stake.auxRequest_eff _).only.prt, Stake.onPrt_prt]

theorem Stake.endDischarge_some {k : Stake} {d : Discharge} (h : k.prt.discharge = some d) :
    k.endDischarge = if (k.dropDischarge d).axis = axDischarge then
        (if d.holding then ((k.dropDischarge d).setAxis axOff 0).release else (k.dropDischarge d).setAxis axOff 0)
      else k.dropDischarge d := by
  unfold Stake.endDischarge Stake.dropDischarge
  rw [h]

theorem Stake.endDischarge_none {k : Stake} (h : k.prt.discharge = none) : k.endDischarge = k := by simp [Stake.endDischarge, h]

/-- R305: the end of a discharge outside DISCHARGE leaves the axis alone. -/
theorem Stake.endDischarge_elsewhere {k : Stake} (h : k.axis ≠ axDischarge) :
    Stake.Eff [.prt, .modu, .regs] [Reg.MOD_SPACING_CNT] k k.endDischarge ∧ k.endDischarge.axis = k.axis ∧ k.endDischarge.prt.discharge = none := by
  cases hd : k.prt.discharge with
  | none =>
    rw [Stake.endDischarge_none hd]
    exact ⟨.refl, rfl, hd⟩
  | some d =>
    have he := k.dropDischarge_eff d
    have ha : (k.dropDischarge d).axis = k.axis := he.regs.fld (by decide)
    rw [Stake.endDischarge_some hd, if_neg (by rw [ha]; exact h)]
    exact ⟨he, ha, by rw [Stake.dropDischarge_prt]⟩

/-- R305: the end of a discharge in DISCHARGE takes the axis to OFF. -/
theorem Stake.endDischarge_off {k : Stake} (h : k.axis = axDischarge) {d : Discharge} (hd : k.prt.discharge = some d) :
    k.endDischarge.axis = axOff ∧ k.endDischarge.prt.discharge = none ∧ k.endDischarge.done = k.done := by
  have he := k.dropDischarge_eff d
  have hp := k.dropDischarge_prt d
  have ha : (k.dropDischarge d).axis = k.axis := he.regs.fld (by decide)
  rw [Stake.endDischarge_some hd, if_pos (ha.trans h)]
  generalize k.dropDischarge d = q at he hp
  have hs := Stake.Only.setAxis_only q axOff 0
  have h1 : (q.setAxis axOff 0).axis = axOff := Stake.setAxis_axis _ (by decide) _
  have h2 : (q.setAxis axOff 0).prt.discharge = none := by rw [hs.prt, hp]
  have h3 : (q.setAxis axOff 0).done = k.done := by rw [hs.done, he.only.done]
  have hr := Stake.Only.release_only (q.setAxis axOff 0)
  split
  · exact ⟨(hr.fld _).trans h1, h2, hr.done.trans h3⟩
  · exact ⟨h1, h2, h3⟩

/-- A STOP that is pending shows as the ramp of an F2 reaction. -/
theorem Stake.syncActive_ramp {k : Stake} (h : k.flag Reg.PLT_AXIS_STATE_STOP_PENDING = true) :
    k.syncActive.flag Reg.PLT_AXIS_STATE_F2_RAMP = true := by
  unfold Stake.syncActive
  extract_lets n q
  have hq : k.fldsKept q [Reg.PLT_ACTIVE_F1, Reg.PLT_ACTIVE_F2, Reg.PLT_ACTIVE_F3, Reg.PLT_ACTIVE_F4] :=
    .put (.put (.put (.put .refl (by decide)) (by decide)) (by decide)) (by decide)
  rw [Stake.flag_putB_same _ _ _ (by decide) rfl, hq.flag (by decide), h, Bool.or_true]

/-- R288, R303: STOP in RUN or DERATE makes the axis ramp down. -/
theorem Stake.stop_run {k : Stake} (h : k.axis = axRun ∨ k.axis = axDerate) (ball : Bool) :
    (k.stop ball).flag Reg.PLT_AXIS_STATE_STOP_PENDING = true ∧ (k.stop ball).axis = k.axis ∧
    (k.stop ball).flag Reg.PLT_AXIS_STATE_F2_RAMP = true ∧ (k.stop ball).done = k.done := by
  unfold Stake.stop
  rw [if_pos ((Stake.axisIn_iff _ _).2 (by simpa using h))]
  extract_lets q
  have ho : Stake.Only [.regs] k q := .syncActive (.putB .refl)
  have hp : q.flag Reg.PLT_AXIS_STATE_STOP_PENDING = true :=
    ((Stake.syncActive_fldsKept _).flag (by decide)).trans (Stake.flag_putB_same _ _ _ (by decide) rfl)
  have ha : q.axis = k.axis := (Stake.syncActive_axis _).trans (Stake.fld_putB_ne _ _ _ _ (by decide))
  have hf : q.flag Reg.PLT_AXIS_STATE_F2_RAMP = true := Stake.syncActive_ramp (Stake.flag_putB_same _ _ _ (by decide) rfl)
  clear_value q
  have hn : q.axis ≠ axDischarge := by rw [ha]; rcases h with h | h <;> rw [h] <;> decide
  obtain ⟨he, hea, -⟩ := Stake.endDischarge_elsewhere hn
  split
  · exact ⟨(he.regs.flag (by decide)).trans hp, hea.trans ha, (he.regs.flag (by decide)).trans hf, he.only.done.trans ho.done⟩
  · exact ⟨hp, ha, hf, ho.done⟩

theorem Stake.stop_test {k : Stake} (h : k.axis = axTest) (ball : Bool) :
    (k.stop ball).axis = axOff ∧ (k.stop ball).done = k.done := by
  have hi : k.axisIn [axRun, axDerate] = false := by unfold Stake.axisIn; rw [h]; decide
  unfold Stake.stop
  rw [if_neg (by simp [hi]), if_pos h]
  exact ⟨Stake.setAxis_axis _ (by decide) _, by rw [(Stake.Only.setAxis_only _ _ _).done, (Stake.Only.leaveSwitching_only _).done]⟩

/-- R163: a CATCH that is given up: its step and outcome, and the legs off. -/
def Stake.catchDropped (k : Stake) : Stake :=
  ((((k.put Reg.FLD_STATUS_CATCH_STEP 0).onFe fun f => { f with catching := none }).leaveSwitching).put
    Reg.FLD_CATCH_STATUS_OUTCOME 0).putB Reg.FLD_CATCH_STATUS_ANGLE_VALID false

theorem Stake.catchDropped_eff (k : Stake) : Stake.Eff [.regs, .fe, .modu] catchRegs k k.catchDropped :=
  .putB (.put (.leaveSwitching (.onFe (.put .refl))))

theorem Stake.catchDropped_catching (k : Stake) : k.catchDropped.fe.catching = none := by
  have hl : Stake.Only [.modu, .regs] ((k.put Reg.FLD_STATUS_CATCH_STEP 0).onFe fun f => { f with catching := none }) k.catchDropped :=
    .putB (.put (.leaveSwitching .refl))
  rw [hl.fe]
  rfl

/-- The answer to the descriptor of a CATCH that is given up (R354). -/
def Stake.catchAnswered (k : Stake) : Option (Nat × Nat) → Stake
  | none => k
  | some (r, i) => k.complete { ring := r, cid := i, op := 2, status := 14, result := List.replicate 15 0 ++ [0] }

theorem Stake.catchAnswered_of (k : Stake) (d : Option (Nat × Nat)) : Stake.Only [.done] k (k.catchAnswered d) ∧ k.done <+: (k.catchAnswered d).done := by
  cases d with
  | none => exact ⟨.refl, List.prefix_refl _⟩
  | some d => exact ⟨.complete .refl, List.prefix_append _ _⟩

theorem Stake.catchEnd_zero {k : Stake} {c : Catch} (h : k.fe.catching = some c) : k.catchEnd 0 0 0 0 false =
    if (k.catchDropped.catchAnswered c.desc).axis = axCatch then (k.catchDropped.catchAnswered c.desc).setAxis axArmed 0
    else k.catchDropped.catchAnswered c.desc := by
  unfold Stake.catchEnd
  split
  · next hn => rw [hn] at h; contradiction
  next c' hc =>
  obtain rfl : c' = c := Option.some_inj.1 (hc.symm.trans h)
  extract_lets k1 k2 k3 ok k4 q5 k5 st res k6 k7
  have e4 : k4 = k.catchDropped := if_neg (by simp [ok])
  have e5 : k5 = k4 := if_neg (by simp [ok])
  have e6 : k6 = k5.catchAnswered c'.desc := by
    simp only [k6]
    cases c'.desc <;> rfl
  have e7 : k7 = k6 := (if_neg (by simp [ok])).trans (if_pos rfl)
  rw [e7, e6, e5, e4]
  rfl

theorem Stake.catchEnd_given_up {k : Stake} (h : k.axis = axCatch) (hc : k.fe.catching ≠ none) :
    (k.catchEnd 0 0 0 0 false).axis = axArmed ∧ (k.catchEnd 0 0 0 0 false).fe.catching = none ∧ k.done <+: (k.catchEnd 0 0 0 0 false).done ∧
    (k.catchEnd 0 0 0 0 false).prt = k.prt ∧ (k.catchEnd 0 0 0 0 false).act = k.act := by
  obtain ⟨c, hc⟩ := Option.ne_none_iff_exists'.1 hc
  have h1 := k.catchDropped_eff
  have h2 := k.catchDropped_catching
  rw [Stake.catchEnd_zero hc]
  generalize k.catchDropped = q at h1 h2
  obtain ⟨h3, h4⟩ := q.catchAnswered_of c.desc
  generalize q.catchAnswered c.desc = j at h3 h4
  have ha : j.axis = axCatch := (h3.fld _).trans (h1.axis.into h)
  have hs := Stake.Only.setAxis_only j axArmed 0
  rw [if_pos ha]
  exact ⟨Stake.setAxis_axis _ (by decide) _, by rw [Stake.setAxis_catching, h3.fe, h2], by rw [hs.done, ← h1.only.done]; exact h4,
    by rw [hs.prt, h3.prt, h1.only.prt], by rw [hs.act, h3.act, h1.only.act]⟩

theorem Stake.stop_catch {k : Stake} (h : k.axis = axCatch) (hc : k.fe.catching ≠ none) (ball : Bool) :
    (k.stop ball).axis = axArmed ∧ (k.stop ball).fe.catching = none := by
  have hi : k.axisIn [axRun, axDerate] = false := by unfold Stake.axisIn; rw [h]; decide
  unfold Stake.stop
  rw [if_neg (by simp [hi]), if_neg (by rw [h]; decide), if_pos h]
  obtain ⟨h1, h2, -⟩ := Stake.catchEnd_given_up h hc
  exact ⟨h1, h2⟩

theorem Stake.stop_discharge {k : Stake} (h : k.axis = axDischarge ∨ k.axis = axSafe) {ball : Bool} (hs : k.stoppable ball = true) :
    (k.stop ball).prt.discharge = none ∧ (k.stop ball).axis = (if k.axis = axSafe then axSafe else axOff) ∧ (k.stop ball).done = k.done := by
  have hd : ∃ d, k.prt.discharge = some d := by
    unfold Stake.stoppable at hs
    cases hd : k.prt.discharge with
    | none => simp [hd] at hs
    | some d => exact ⟨d, rfl⟩
  obtain ⟨d, hd⟩ := hd
  have he : k.stop ball = k.endDischarge := by
    unfold Stake.stop
    rw [if_neg (by unfold Stake.axisIn; rcases h with h | h <;> rw [h] <;> decide), if_neg (by rcases h with h | h <;> rw [h] <;> decide),
      if_neg (by rcases h with h | h <;> rw [h] <;> decide)]
  rw [he]
  rcases h with h | h
  · rw [if_neg (by rw [h]; decide)]
    obtain ⟨h1, h2, h3⟩ := Stake.endDischarge_off h hd
    exact ⟨h2, h1, h3⟩
  · rw [if_pos h]
    obtain ⟨h1, h2, h3⟩ := Stake.endDischarge_elsewhere (k := k) (by rw [h]; decide)
    exact ⟨h3, h2.trans h, h1.only.done⟩

/-- No CATCH that ends takes back a completion. -/
theorem Stake.catchEnd_done (k : Stake) : k.done <+: (k.catchEnd 0 0 0 0 false).done := by
  cases hc : k.fe.catching with
  | none =>
    rw [show k.catchEnd 0 0 0 0 false = k by simp [Stake.catchEnd, hc]]
  | some c =>
    rw [Stake.catchEnd_zero hc]
    have h1 := k.catchDropped_eff
    obtain ⟨h2, h3⟩ := k.catchDropped.catchAnswered_of c.desc
    rw [h1.only.done] at h3
    split
    · rw [(Stake.Only.setAxis_only _ _ _).done]
      exact h3
    · exact h3

/-! DISCHARGE (R303, R304). -/

theorem Stake.injectionRelease_of {k : Stake} {d : Discharge} (h : k.prt.discharge = some d) :
    Stake.Only [.prt, .fe, .modu] k k.injectionRelease ∧ k.injectionRelease.fe.catching = k.fe.catching ∧
    k.injectionRelease.prt.disAux = k.prt.disAux ∧
    ∃ d', k.injectionRelease.prt.discharge = some d' ∧ d'.mode = d.mode ∧ d'.start = d.start ∧ d'.byReq = d.byReq ∧ d'.ramping = d.ramping := by
  unfold Stake.injectionRelease
  rw [h]
  dsimp only
  split
  · refine ⟨.enterSwitching (.set (f := .fe) (.release (.onPrt .refl)) (by decide)), rfl, rfl, _, rfl, rfl, rfl, rfl, rfl⟩
  · exact ⟨.refl, rfl, rfl, _, h, rfl, rfl, rfl, rfl⟩

/-- The discharge that a command starts. -/
def Stake.cmdDischarge (k : Stake) : Discharge :=
  { mode := k.inForce Reg.PLT_DIS_CFG_DIS_MODE, start := k.now, byReq := false, ramping := k.axisIn [axRun, axDerate] }

/-- R303: a discharge by command from RUN or DERATE first ramps. -/
theorem Stake.dischargeStart_ramps {k : Stake} (hd : k.prt.discharge = none) (ha : k.axisIn [axRun, axDerate] = true) :
    (k.dischargeStart false).prt.discharge = some k.cmdDischarge ∧ (k.dischargeStart false).axis = k.axis ∧
    (k.dischargeStart false).flag Reg.PLT_AXIS_STATE_STOP_PENDING = true ∧ Stake.Only [.prt, .regs] k (k.dischargeStart false) := by
  have he : k.dischargeStart false =
      ((k.onPrt fun p => { p with discharge := some k.cmdDischarge }).putB Reg.PLT_AXIS_STATE_STOP_PENDING true).syncActive := by
    unfold Stake.dischargeStart Stake.cmdDischarge
    simp only [hd, ha]
    rfl
  have ho : Stake.Only [.prt] k (k.onPrt fun p => { p with discharge := some k.cmdDischarge }) := .onPrt .refl
  have hp : (k.onPrt fun p => { p with discharge := some k.cmdDischarge }).prt.discharge = some k.cmdDischarge := rfl
  rw [he]
  generalize (k.onPrt fun p => { p with discharge := some k.cmdDischarge }) = q at ho hp
  have hs : Stake.Only [.regs] q (q.putB Reg.PLT_AXIS_STATE_STOP_PENDING true).syncActive := .syncActive (.putB .refl)
  exact ⟨by rw [hs.prt, hp], (Stake.syncActive_axis _).trans ((Stake.fld_putB_ne _ _ _ _ (by decide)).trans (ho.fld _)),
    ((Stake.syncActive_fldsKept _).flag (by decide)).trans (Stake.flag_putB_same _ _ _ (by decide) rfl), (ho.mono (by decide)).step hs⟩

theorem Stake.dischargeStart_acts {k : Stake} (hd : k.prt.discharge = none) (ha : k.axisIn [axRun, axDerate] = false) :
    k.dischargeStart false = (k.onPrt fun p => { p with discharge := some k.cmdDischarge }).dischargeAct := by
  unfold Stake.dischargeStart Stake.cmdDischarge
  simp only [hd, ha]
  rfl

/-- R303, R304: a discharge by command in SAFE leaves the axis there. -/
theorem Stake.dischargeAct_safe {k : Stake} {d : Discharge} (hd : k.prt.discharge = some d) (ha : k.axis = axSafe) :
    k.dischargeAct.axis = axSafe ∧ k.dischargeAct.prt.discharge = some { d with ramping := false } ∧
    Stake.Only [.prt, .modu, .regs] k k.dischargeAct := by
  have hs : Stake.Only [.prt] k (k.onPrt fun p => { p with discharge := some { d with ramping := false } }) := .onPrt .refl
  have hp : (k.onPrt fun p => { p with discharge := some { d with ramping := false } }).prt = { k.prt with discharge := some { d with ramping := false } } := rfl
  have h2 := (k.onPrt fun p => { p with discharge := some { d with ramping := false } }).disAuxOn_eff d
  have hp2 := (k.onPrt fun p => { p with discharge := some { d with ramping := false } }).disAuxOn_prt d
  have ha2 : ((k.onPrt fun p => { p with discharge := some { d with ramping := false } }).disAuxOn d).axis = axSafe :=
    (h2.regs.fld (by decide)).trans ((hs.fld _).trans ha)
  have he : k.dischargeAct = (k.onPrt fun p => { p with discharge := some { d with ramping := false } }).disAuxOn d := by
    unfold Stake.dischargeAct
    rw [hd]
    exact if_pos ha2
  rw [he]
  exact ⟨ha2, by rw [hp2, hp], (hs.mono (by decide)).step h2.only⟩

/-- What a discharge by command leaves (R303, R304): `q` is the axis as the command finds it. -/
structure Stake.Discharged (q j : Stake) (d : Discharge) : Prop where
  is : j.prt.discharge = some d
  mode : d.mode = q.inForce Reg.PLT_DIS_CFG_DIS_MODE
  start : d.start = q.now
  byReq : d.byReq = false
  safe : q.axis = axSafe → j.axis = axSafe
  ramps : q.axis = axRun ∨ q.axis = axDerate → d.ramping = true ∧ j.axis = q.axis ∧ j.flag Reg.PLT_AXIS_STATE_STOP_PENDING = true
  acts : q.axis ≠ axSafe → q.axisIn [axRun, axDerate] = false → d.ramping = false ∧ j.axis = axDischarge ∧
    (d.mode = 1 → j.prt.disAux = true) ∧ j.fe.catching = q.fe.catching
  done : j.done = q.done

theorem Stake.dischargeStart_of {q : Stake} (hd : q.prt.discharge = none) : ∃ d, q.Discharged (q.dischargeStart false) d := by
  cases ha : q.axisIn [axRun, axDerate] with
  | true =>
    have hi : q.axis = axRun ∨ q.axis = axDerate := by simpa using (Stake.axisIn_iff _ _).1 ha
    obtain ⟨h1, h2, h3, h4⟩ := Stake.dischargeStart_ramps hd ha
    exact ⟨_, h1, rfl, rfl, rfl, fun h => h2.trans h, fun _ => ⟨ha, h2, h3⟩, fun _ h => absurd (ha.symm.trans h) (by decide), h4.done⟩
  | false =>
    have hi : ¬(q.axis = axRun ∨ q.axis = axDerate) := fun h => by
      have := (Stake.axisIn_iff q [axRun, axDerate]).2 (by simpa using h)
      simp [ha] at this
    have ho : Stake.Only [.prt] q (q.onPrt fun p => { p with discharge := some q.cmdDischarge }) := .onPrt .refl
    have hp : (q.onPrt fun p => { p with discharge := some q.cmdDischarge }).prt.discharge = some q.cmdDischarge := rfl
    rw [Stake.dischargeStart_acts hd ha]
    generalize (q.onPrt fun p => { p with discharge := some q.cmdDischarge }) = k at ho hp
    have hk : k.axis = q.axis := ho.fld _
    by_cases hs : q.axis = axSafe
    · obtain ⟨h1, h2, h3⟩ := Stake.dischargeAct_safe hp (hk.trans hs)
      exact ⟨_, h2, rfl, rfl, rfl, fun _ => h1, fun h => absurd h hi, fun h => absurd hs h, h3.done.trans ho.done⟩
    · obtain ⟨h1, h2, h3, h4, h5⟩ := Stake.dischargeAct_of hp (by rwa [hk])
      exact ⟨_, h2, rfl, rfl, rfl, fun h => absurd h hs, fun h => absurd h hi,
        fun _ _ => ⟨rfl, h1, fun hm => by rw [h3, decide_eq_true hm, Bool.true_or], by rw [h5, ho.fe]⟩, h4.done.trans ho.done⟩

theorem Stake.Discharged.after_end {k j : Stake} {d : Discharge} (ha : k.axis ≠ axDischarge) (h : k.endDischarge.Discharged j d) : k.Discharged j d := by
  obtain ⟨he, hx, -⟩ := Stake.endDischarge_elsewhere ha
  exact ⟨h.is, h.mode.trans (he.only.inForce _), h.start.trans he.only.now, h.byReq, fun hs => h.safe (hx.trans hs),
    fun hr => have ⟨h1, h2, h3⟩ := h.ramps (by rwa [hx]); ⟨h1, h2.trans hx, h3⟩,
    fun hs hr => have ⟨h1, h2, h3, h4⟩ := h.acts (by rwa [hx]) (by unfold Stake.axisIn at hr ⊢; rwa [hx]); ⟨h1, h2, h3, h4.trans (by rw [he.only.fe])⟩,
    h.done.trans he.only.done⟩

theorem Stake.Discharged.after_injection {k j : Stake} {d : Discharge} (h : k.Discharged j d) : ∃ d, k.Discharged j.injectionRelease d := by
  obtain ⟨ho, hc, hx, d', h1, h2, h3, h4, h5⟩ := Stake.injectionRelease_of h.is
  have ha : j.injectionRelease.axis = j.axis := ho.fld _
  exact ⟨d', h1, h2.trans h.mode, h3.trans h.start, h4.trans h.byReq, fun hs => ha.trans (h.safe hs),
    fun hr => have ⟨r1, r2, r3⟩ := h.ramps hr; ⟨h5.trans r1, ha.trans r2, (ho.flag _).trans r3⟩,
    fun hs hr => have ⟨r1, r2, r3, r4⟩ := h.acts hs hr; ⟨h5.trans r1, ha.trans r2, fun hm => hx.trans (r3 (h2 ▸ hm)), hc.trans r4⟩,
    ho.done.trans h.done⟩

/-- R288, R303: a command finds the axis, a CATCH given up, and starts the discharge. -/
def Stake.dischargeFinds (k : Stake) : Stake := if k.axis = axCatch then k.catchEnd 0 0 0 0 false else k

/-- R303: a discharge that still runs is replaced, save in SAFE. -/
def Stake.dischargeAnew (k : Stake) : Stake :=
  let ramping : Bool := match k.prt.discharge with | some d => d.ramping | none => false
  (if k.axisIn [axDischarge, axSafe] || ramping then k else k.endDischarge).dischargeStart false

theorem Stake.dischargeFrom_eq (k : Stake) : k.dischargeFrom false = k.dischargeFinds.dischargeAnew := rfl

theorem Stake.dischargeAnew_of {k : Stake} (ha : k.axis ≠ axDischarge)
    (hr : ∀ d, k.prt.discharge = some d → k.axis ≠ axSafe ∧ d.ramping = false) : ∃ d, k.Discharged k.dischargeAnew d := by
  unfold Stake.dischargeAnew
  extract_lets ramping
  by_cases hs : k.axis = axSafe
  · have hd : k.prt.discharge = none := by
      cases hd : k.prt.discharge with
      | none => rfl
      | some d => exact absurd hs (hr d hd).1
    rw [if_pos (by simp [(Stake.axisIn_iff k [axDischarge, axSafe]).2 (by simp [hs])])]
    exact Stake.dischargeStart_of hd
  · have hi : k.axisIn [axDischarge, axSafe] = false := by
      cases h : k.axisIn [axDischarge, axSafe] with
      | false => rfl
      | true => exact absurd ((Stake.axisIn_iff _ _).1 h) (by simp [ha, hs])
    have hm : ramping = false := by
      cases hd : k.prt.discharge with
      | none => simp [ramping, hd]
      | some d => simp [ramping, hd, (hr d hd).2]
    rw [if_neg (by simp [hi, hm])]
    obtain ⟨d, hd⟩ := Stake.dischargeStart_of (Stake.endDischarge_elsewhere ha).2.2
    exact ⟨d, hd.after_end ha⟩

/-- R303, R304: what DISCHARGE does where it is not refused. -/
theorem Stake.dischargeCmd_of {k : Stake} (ha : k.axis ≠ axDischarge)
    (hr : ∀ d, k.prt.discharge = some d → k.axis ≠ axSafe ∧ d.ramping = false) :
    let j := (k.dischargeFrom false).injectionRelease
    k.done <+: j.done ∧ ∃ d, j.prt.discharge = some d ∧ d.mode = k.inForce Reg.PLT_DIS_CFG_DIS_MODE ∧ d.start = k.now ∧ d.byReq = false ∧
      (k.axis = axSafe → j.axis = axSafe) ∧
      (k.axis = axRun ∨ k.axis = axDerate → d.ramping = true ∧ j.axis = k.axis ∧ j.flag Reg.PLT_AXIS_STATE_STOP_PENDING = true) ∧
      (k.axisIn [axOff, axArmed, axTest] = true → d.ramping = false ∧ j.axis = axDischarge ∧
        (k.inForce Reg.PLT_DIS_CFG_DIS_MODE = 1 → j.prt.disAux = true)) ∧
      (k.axis = axCatch → k.fe.catching ≠ none → j.fe.catching = none ∧ j.axis = axDischarge) := by
  rw [Stake.dischargeFrom_eq]
  by_cases hc : k.axis = axCatch ∧ k.fe.catching ≠ none
  · obtain ⟨hc, hn⟩ := hc
    have ho := Stake.Only.catchEnd_only k 0 0 0 0 false
    obtain ⟨h1, h2, h3, h4, h5⟩ := Stake.catchEnd_given_up hc hn
    have hf : k.dischargeFinds = k.catchEnd 0 0 0 0 false := if_pos hc
    rw [hf]
    generalize k.catchEnd 0 0 0 0 false = q at ho h1 h2 h3 h4 h5
    obtain ⟨d, hd⟩ := Stake.dischargeAnew_of (k := q) (by rw [h1]; decide) (by rw [h4, h1]; exact fun d hd => ⟨by decide, (hr d hd).2⟩)
    obtain ⟨d, hd⟩ := hd.after_injection
    have hact := hd.acts (by rw [h1]; decide) (by unfold Stake.axisIn; rw [h1]; decide)
    refine ⟨hd.done ▸ h3, d, hd.is, hd.mode.trans (Stake.inForce_congr h5 ho.id _), hd.start.trans ho.now, hd.byReq,
      fun h => absurd (hc.symm.trans h) (by decide), fun h => by rw [hc] at h; exact absurd h (by decide),
      fun h => by unfold Stake.axisIn at h; rw [hc] at h; exact absurd h (by decide), fun _ _ => ⟨hact.2.2.2.trans h2, hact.2.1⟩⟩
  · have hf : k.dischargeFinds = k := by
      unfold Stake.dischargeFinds
      split
      · next h =>
        have hn : k.fe.catching = none := not_not.1 fun hn => hc ⟨h, hn⟩
        simp [Stake.catchEnd, hn]
      · rfl
    rw [hf]
    obtain ⟨d, hd⟩ := Stake.dischargeAnew_of ha hr
    obtain ⟨d, hd⟩ := hd.after_injection
    refine ⟨hd.done ▸ List.prefix_refl _, d, hd.is, hd.mode, hd.start, hd.byReq, hd.safe, hd.ramps, fun h => ?_, fun h hn => absurd ⟨h, hn⟩ hc⟩
    have hi := (Stake.axisIn_iff _ _).1 h
    have hact := hd.acts (fun hs => by rw [hs] at hi; exact absurd hi (by decide))
      (by unfold Stake.axisIn; simp at hi; rcases hi with hi | hi | hi <;> rw [hi] <;> decide)
    exact ⟨hact.1, hact.2.1, fun hm => hact.2.2.1 (hd.mode.trans hm)⟩

/-! CLEAR and RECOVER (R306 to R308). -/

theorem Stake.clearPorts_only (k : Stake) : Stake.Only [.leg] k k.clearPorts := .foldl (fun _ _ h => .ite (.onLeg h) h) _ .refl

/-- What R306 adds to a clear: a stopped motor's mismatch goes with its timer. -/
def Stake.mmCleared (k : Stake) : Stake :=
  if k.hasFault .motorMismatch && k.mmStopped then (k.putB Reg.FLD_STATUS_MM_ACTIVE false).onFe fun f => { f with mmOut := none, mmIn := none }
  else k

theorem Stake.mmCleared_eff (k : Stake) : Stake.Eff [.regs, .fe] [Reg.FLD_STATUS_MM_ACTIVE.off] k k.mmCleared := .ite (.onFe (.putB .refl)) .refl

/-- R307: a fault that a clear leaves in the active set. -/
def Stake.faultStays (k : Stake) (h : Held) (a : ActiveFault) : Bool :=
  (3 ≤ a.cls && k.axis ≠ axSafe) || k.persists h a.post.ev (nth 0 a.post.vals 0)

theorem Stake.clearFaults_eq (k : Stake) (h : Held) : k.clearFaults h =
    ((k.refreshBand.mmCleared.onPrt fun p => { p with active := p.active.filter (k.refreshBand.mmCleared.faultStays h) }).syncActive).updDerate := rfl

theorem Stake.clearFaults_of (k : Stake) (h : Held) :
    Stake.Eff [.regs, .fe, .prt, .out] [Reg.FLD_STATUS_MM_ACTIVE.off, Reg.PLT_ACTIVE, Reg.PLT_AXIS_STATE] k (k.clearFaults h) ∧
    (k.clearFaults h).prt = { k.refreshBand.prt with active := k.prt.active.filter (k.refreshBand.mmCleared.faultStays h) } := by
  have hb : Stake.Eff [.prt] [] k k.refreshBand := .onPrt .refl
  have hm := k.refreshBand.mmCleared_eff
  have hp : k.refreshBand.prt.active = k.prt.active := rfl
  rw [Stake.clearFaults_eq]
  generalize k.refreshBand = q at hb hm hp
  generalize q.mmCleared = j at hm
  have ho : Stake.Only [.regs, .out, .fe] (j.onPrt fun p => { p with active := p.active.filter (j.faultStays h) })
    ((j.onPrt fun p => { p with active := p.active.filter (j.faultStays h) }).syncActive).updDerate := .updDerate (.syncActive .refl)
  refine ⟨.updDerate (.syncActive (.onPrt (hb.mono.step hm))), ?_⟩
  rw [ho.prt, Stake.onPrt_prt, hm.only.prt, hp]

theorem Stake.hasClass_congr {k j : Stake} (h : j.prt.active = k.prt.active) (c : Nat) : j.hasClass c = k.hasClass c := by
  simp only [Stake.hasClass, h]

theorem Stake.endEpisode_prt (k : Stake) : k.endEpisode.prt = { k.prt with episode := none } := rfl

/-- R307: the end of SAFE. -/
def Stake.clearEnds (k : Stake) : Stake :=
  let running : Bool := match k.prt.discharge with | some d => d.mode = 1 && !d.unserved | none => false
  if running then
    (k.endEpisode.setAxis axDischarge 0).onPrt fun p => { p with discharge := p.discharge.map fun d => { d with holding := true } }
  else (k.endEpisode.setAxis axOff 0).release

theorem Stake.clearAxis_eq (k : Stake) (h : Held) : k.clearAxis h =
    if (k.clearFaults h).axis ≠ axSafe then k.clearFaults h
    else if (k.clearFaults h).clearPorts.hasClass 3 || (k.clearFaults h).clearPorts.hasClass 4 ||
        !((k.clearFaults h).clearPorts.fld Reg.PLT_PS_STATUS_SUBSTATE = 1 || (k.clearFaults h).clearPorts.prt.band = 0) then (k.clearFaults h).clearPorts
    else (k.clearFaults h).clearPorts.clearEnds := rfl

theorem Stake.clearEnds_active (k : Stake) : k.clearEnds.prt.active = k.prt.active ∧ k.clearEnds.done = k.done := by
  have he : Stake.Only [.regs, .prt] k k.endEpisode := .onPrt (.put .refl)
  have hp := k.endEpisode_prt
  unfold Stake.clearEnds
  extract_lets running
  generalize k.endEpisode = q at he hp
  have hs := fun st => Stake.Only.setAxis_only q st 0
  split
  · exact ⟨(congrArg PrtState.active (hs axDischarge).prt).trans (by rw [hp]), (hs axDischarge).done.trans he.done⟩
  · exact ⟨(congrArg PrtState.active (hs axOff).prt).trans (by rw [hp]), (hs axOff).done.trans he.done⟩

theorem Stake.clearEnds_off {k : Stake} (hd : k.prt.discharge = none) :
    k.clearEnds.axis = axOff ∧ k.clearEnds.prt.releasing = true ∧ k.clearEnds.prt.episode = none := by
  have hp := k.endEpisode_prt
  unfold Stake.clearEnds
  extract_lets running
  rw [if_neg (by simp [running, hd])]
  generalize k.endEpisode = q at hp
  have hs := Stake.Only.setAxis_only q axOff 0
  have hr := Stake.Only.release_only (q.setAxis axOff 0)
  exact ⟨(hr.fld _).trans (Stake.setAxis_axis _ (by decide) _), rfl, (congrArg PrtState.episode hs.prt).trans (by rw [hp])⟩

/-- R307: what CLEAR leaves of the active set. -/
theorem Stake.clearAxis_active (k : Stake) (h : Held) :
    (k.clearAxis h).prt.active = k.prt.active.filter (k.refreshBand.mmCleared.faultStays h) ∧ (k.clearAxis h).done = k.done := by
  obtain ⟨he, hp⟩ := k.clearFaults_of h
  have hc := (k.clearFaults h).clearPorts_only
  rw [Stake.clearAxis_eq]
  generalize k.clearFaults h = q at he hp hc
  have hq : q.prt.active = k.prt.active.filter (k.refreshBand.mmCleared.faultStays h) := by rw [hp]
  have hx := q.clearPorts.clearEnds_active
  split
  · exact ⟨hq, he.only.done⟩
  · split
    · exact ⟨by rw [hc.prt, hq], hc.done.trans he.only.done⟩
    · exact ⟨by rw [hx.1, hc.prt, hq], hx.2.trans (hc.done.trans he.only.done)⟩

/-- R307: SAFE ends once no F3 or F4 fault is left. -/
theorem Stake.clearAxis_off {k : Stake} {h : Held} (ha : k.axis = axSafe) (hd : k.prt.discharge = none)
    (hs : k.fld Reg.PLT_PS_STATUS_SUBSTATE = 1) (h3 : (k.clearAxis h).hasClass 3 = false) (h4 : (k.clearAxis h).hasClass 4 = false) :
    (k.clearAxis h).axis = axOff ∧ (k.clearAxis h).prt.releasing = true ∧ (k.clearAxis h).prt.episode = none := by
  obtain ⟨he, hp⟩ := k.clearFaults_of h
  have hc := (k.clearFaults h).clearPorts_only
  have hact := (k.clearAxis_active h).1
  have hq : (k.clearFaults h).clearPorts.prt.active = (k.clearAxis h).prt.active := by rw [hact, hc.prt, hp]
  have ha' : (k.clearFaults h).axis = axSafe := he.axis.into ha
  have hs' : (k.clearFaults h).clearPorts.fld Reg.PLT_PS_STATUS_SUBSTATE = 1 := (hc.fld _).trans ((he.regs.fld (by decide)).trans hs)
  have hd' : (k.clearFaults h).clearPorts.prt.discharge = none := by rw [hc.prt, hp]; exact hd
  rw [Stake.hasClass_congr hq.symm] at h3 h4
  rw [Stake.clearAxis_eq, if_neg (by simp [ha']), if_neg (by simp [h3, h4, hs'])]
  exact Stake.clearEnds_off hd'

/-- R308: RECOVER, once what it asks is given. -/
theorem Stake.recover_of (k : Stake) :
    let j := ((k.onPrt fun p => { p with discharge := p.discharge.map fun d => { d with holding := false } }).endEpisode.release).enterRun
    j.axis ∈ [axRun, axDerate] ∧ j.prt.releasing = true ∧ j.prt.episode = none ∧ j.done = k.done := by
  have ho : Stake.Only [.prt, .regs] k ((k.onPrt fun p => { p with discharge := p.discharge.map fun d => { d with holding := false } }).endEpisode.release) :=
    .release (.onPrt (.put (.onPrt .refl)))
  have hr : ((k.onPrt fun p => { p with discharge := p.discharge.map fun d => { d with holding := false } }).endEpisode.release).prt.releasing = true := rfl
  have he : ((k.onPrt fun p => { p with discharge := p.discharge.map fun d => { d with holding := false } }).endEpisode.release).prt.episode = none := rfl
  generalize ((k.onPrt fun p => { p with discharge := p.discharge.map fun d => { d with holding := false } }).endEpisode.release) = q at ho hr he
  obtain ⟨-, h2, h3⟩ := q.enterRun_shown
  exact ⟨q.enterRun_axis, by rw [h2]; exact hr, by rw [h2]; exact he, h3.trans ho.done⟩

/-! The commands. -/

theorem firstCause_cons_true (c : Nat) (l : List (Bool × Nat)) : firstCause ((true, c) :: l) = c := rfl
theorem firstCause_cons_false (c : Nat) (l : List (Bool × Nat)) : firstCause ((false, c) :: l) = firstCause l := rfl

/-- R288: the states in which a STOP is taken. -/
def Stake.stopOk (k : Stake) (ball : Bool) : Bool :=
  k.axisIn [axRun, axDerate, axTest, axCatch] || (k.axisIn [axDischarge, axSafe] && k.stoppable ball)

theorem Stake.stop_done {k : Stake} {ball : Bool} (h : k.stopOk ball = true) : k.done <+: (k.stop ball).done := by
  have hi : k.axis ∈ [axRun, axDerate, axTest, axCatch] ∨ (k.axis ∈ [axDischarge, axSafe] ∧ k.stoppable ball = true) := by
    simpa [Stake.stopOk, Stake.axisIn] using h
  rcases hi with hi | ⟨hi, hs⟩
  · simp only [List.mem_cons, List.not_mem_nil, or_false] at hi
    rcases hi with hi | hi | hi | hi
    · rw [(Stake.stop_run (.inl hi) ball).2.2.2]
    · rw [(Stake.stop_run (.inr hi) ball).2.2.2]
    · rw [(Stake.stop_test hi ball).2]
    · have he : k.stop ball = k.catchEnd 0 0 0 0 false := by
        unfold Stake.stop
        rw [if_neg (by unfold Stake.axisIn; rw [hi]; decide), if_neg (by rw [hi]; decide), if_pos hi]
      rw [he]
      exact k.catchEnd_done
  · rw [(Stake.stop_discharge (by simpa using hi) hs).2.2]

theorem axisStop_of (s : State) (n r c : Nat) (ball : Bool) (h : s.axisAt n r c 4) :
    let k := s.stake n
    let x := firstCause [(!k.stopOk ball, 1), (k.pairedFollower, 5)]
    ∃ t, exec (.axisStop n r c ball) s = .next t ∧ s.axisElsewhere t n ∧
      (x ≠ 0 → k.axisCompleted (t.stake n) r c 5 x ∧ (t.stake n).axis = k.axis ∧ (t.stake n).fld Reg.PLT_AXIS_STATE_REFUSE = x) ∧
      (x = 0 → k.axisCompleted (t.stake n) r c 0 0 ∧
        (k.axis = axRun ∨ k.axis = axDerate → (t.stake n).flag Reg.PLT_AXIS_STATE_STOP_PENDING = true ∧ (t.stake n).axis = k.axis ∧
          (t.stake n).flag Reg.PLT_AXIS_STATE_F2_RAMP = true) ∧
        (k.axis = axTest → (t.stake n).axis = axOff) ∧
        (k.axis = axCatch → k.fe.catching ≠ none → (t.stake n).axis = axArmed ∧ (t.stake n).fe.catching = none) ∧
        (k.axis = axDischarge ∨ k.axis = axSafe → (t.stake n).prt.discharge = none ∧
          (t.stake n).axis = if k.axis = axSafe then axSafe else axOff)) := by
  intro k x
  obtain ⟨t, ht, he, hk⟩ := State.axisDesc_of h fun k =>
    k.axisCmd r c (firstCause [(!k.stopOk ball, 1), (k.pairedFollower, 5)]) fun k => k.stop ball
  refine ⟨t, ht, he, fun hx => ?_, fun hx => ?_⟩
  · rw [hk, Stake.axisCmd_refused hx]
    obtain ⟨h1, h2, h3⟩ := k.axisRefuse_of r c x
    have hle : x ≤ 5 := firstCause_le _ (by simp)
    exact ⟨h1, h2, h3.trans (Nat.mod_eq_of_lt (Nat.lt_of_le_of_lt hle (by decide)))⟩
  · have ho : k.stopOk ball = true := by
      cases hb : k.stopOk ball with
      | true => rfl
      | false => simp [x, firstCause, hb] at hx
    have hd := (k.stop ball).axisDone_only r c
    rw [hk, Stake.axisCmd_done hx, Stake.axisDone_axis, hd.flag, hd.flag, hd.prt, hd.fe]
    refine ⟨Stake.axisDone_completed (Stake.stop_done ho) r c, fun hr => ?_, fun hr => (Stake.stop_test hr ball).1,
      fun hr hn => Stake.stop_catch hr hn ball, fun hr => ?_⟩
    · obtain ⟨h1, h2, h3, -⟩ := Stake.stop_run hr ball
      exact ⟨h1, h2, h3⟩
    · have hs : k.stoppable ball = true := by
        have hi : k.axisIn [axRun, axDerate, axTest, axCatch] = false := by
          unfold Stake.axisIn
          rcases hr with hr | hr <;> rw [hr] <;> decide
        simp only [Stake.stopOk, hi, Bool.false_or, Bool.and_eq_true] at ho
        exact ho.2
      obtain ⟨h1, h2, -⟩ := Stake.stop_discharge hr hs
      exact ⟨h1, h2⟩

/-- R288, R303: the states in which a DISCHARGE is taken. -/
def Stake.dischargeOk (k : Stake) : Bool :=
  k.axisIn [axOff, axArmed, axRun, axDerate, axCatch, axTest, axSafe] && !k.splitOrHand && !(k.axis = axTest && k.testFailed) &&
    !(k.axis = axSafe && k.prt.discharge.isSome) && !(match k.prt.discharge with | some d => d.ramping | none => false)

/-- R290: the cause that refuses a DISCHARGE, or 0. -/
def Stake.dischargeCause (k : Stake) (cfg : Bool) : Nat :=
  firstCause [(!k.dischargeOk, 1), (k.pairedFollower || (k.axisIn [axOff] && k.pairRefuses), 5),
    (k.inForce Reg.PLT_DIS_CFG_DIS_MODE = 0, 7), (!cfg, 8), (k.inForce Reg.PLT_DIS_CFG_DIS_MODE = 2 && !k.carrierRuns, 9)]

theorem Stake.dischargeOk_false {k : Stake} (h : k.axisIn [axOff, axArmed, axRun, axDerate, axCatch, axTest, axSafe] = false ∨
    k.splitOrHand = true ∨ ∃ d, k.prt.discharge = some d ∧ (k.axis = axSafe ∨ d.ramping = true)) : k.dischargeOk = false := by
  unfold Stake.dischargeOk
  rcases h with h | h | ⟨d, hd, h | h⟩
  · simp [h]
  · simp [h]
  · simp [hd, h]
  · simp [hd, h]

theorem Stake.dischargeOk_true {k : Stake} (h : k.axisIn [axOff, axArmed, axRun, axDerate, axCatch, axTest, axSafe] = true)
    (hs : k.splitOrHand = false) (hd : ∀ d, k.prt.discharge = some d → k.axis ≠ axSafe ∧ d.ramping = false)
    (ht : k.axis = axTest → k.testFailed = false) : k.dischargeOk = true := by
  unfold Stake.dischargeOk
  cases hp : k.prt.discharge with
  | none => simp [h, hs]; exact or_iff_not_imp_left.2 fun hn => ht (not_not.1 hn)
  | some d => simp [h, hs, hd d hp]; exact or_iff_not_imp_left.2 fun hn => ht (not_not.1 hn)

theorem axisDischarge_of (s : State) (n r c : Nat) (h : s.axisAt n r c 7) :
    let k := s.stake n
    let m := k.inForce Reg.PLT_DIS_CFG_DIS_MODE
    let running := ∃ d, k.prt.discharge = some d ∧ (k.axis = axSafe ∨ d.ramping = true)
    ∃ t, exec (.axisDischarge n r c) s = .next t ∧ s.axisElsewhere t n ∧
      (k.axisIn [axOff, axArmed, axRun, axDerate, axCatch, axTest, axSafe] = false ∨ k.splitOrHand = true ∨ running →
        k.axisCompleted (t.stake n) r c 5 1 ∧ (t.stake n).axis = k.axis ∧ (t.stake n).prt.discharge = k.prt.discharge) ∧
      (k.axisIn [axOff, axArmed, axRun, axDerate, axCatch, axTest, axSafe] = true → k.splitOrHand = false → ¬ running →
        (k.axis = axTest → k.testFailed = false) → k.pairSt = 0 ∨ k.pairedLeader = true → m ≠ 0 → s.cfgInForce = true →
        (m = 2 → k.carrierRuns = true) →
        k.axisCompleted (t.stake n) r c 0 0 ∧
        ∃ d, (t.stake n).prt.discharge = some d ∧ d.mode = m ∧ d.start = k.now ∧ d.byReq = false ∧
          (k.axis = axSafe → (t.stake n).axis = axSafe) ∧
          (k.axis = axRun ∨ k.axis = axDerate → d.ramping = true ∧ (t.stake n).axis = k.axis ∧
            (t.stake n).flag Reg.PLT_AXIS_STATE_STOP_PENDING = true) ∧
          (k.axisIn [axOff, axArmed, axTest] = true → d.ramping = false ∧ (t.stake n).axis = axDischarge ∧
            (m = 1 → (t.stake n).prt.disAux = true)) ∧
          (k.axis = axCatch → k.fe.catching ≠ none → (t.stake n).fe.catching = none ∧ (t.stake n).axis = axDischarge)) := by
  intro k m running
  obtain ⟨t, ht, he, hk⟩ := State.axisDesc_of h fun k =>
    k.axisCmd r c (k.dischargeCause s.cfgInForce) fun k => (k.dischargeFrom false).injectionRelease
  refine ⟨t, ht, he, fun hx => ?_, fun hl hs hr htest hp hm hc h2 => ?_⟩
  · have hcause : k.dischargeCause s.cfgInForce = 1 := by
      unfold Stake.dischargeCause
      rw [Stake.dischargeOk_false hx]
      rfl
    rw [hk, hcause, Stake.axisCmd_refused (by decide)]
    obtain ⟨h1, h2, -⟩ := k.axisRefuse_of r c 1
    exact ⟨h1, h2, by rw [(k.axisRefuse_only r c 1).prt]⟩
  · have hrun : ∀ d, k.prt.discharge = some d → k.axis ≠ axSafe ∧ d.ramping = false := fun d hd =>
      ⟨fun hx => hr ⟨d, hd, .inl hx⟩, by cases hx : d.ramping with | false => rfl | true => exact absurd ⟨d, hd, .inr hx⟩ hr⟩
    have hpair : k.pairedFollower = false ∧ k.pairRefuses = false := by
      rcases hp with hp | hp
      · simp [Stake.pairedFollower, Stake.pairRefuses, hp]
      · simp only [Stake.pairedLeader, Bool.and_eq_true, decide_eq_true_eq] at hp
        simp [Stake.pairedFollower, Stake.pairRefuses, Stake.pairedLeader, hp]
    have hcause : k.dischargeCause s.cfgInForce = 0 := by
      unfold Stake.dischargeCause
      rw [Stake.dischargeOk_true hl hs hrun htest, hpair.1, hpair.2, hc]
      have h9 : (decide (m = 2) && !k.carrierRuns) = false := by
        by_cases hm2 : m = 2
        · simp [h2 hm2]
        · simp [hm2]
      simp [firstCause, m, hm]
      simpa [m] using h9
    have hax : k.axis ≠ axDischarge := fun hx => by
      rw [Stake.axisIn_iff, hx] at hl
      exact absurd hl (by decide)
    have hd := ((k.dischargeFrom false).injectionRelease).axisDone_only r c
    obtain ⟨h3, h4⟩ := Stake.dischargeCmd_of hax hrun
    rw [hk, Stake.axisCmd_done hcause, Stake.axisDone_axis, hd.flag, hd.prt, hd.fe]
    exact ⟨Stake.axisDone_completed h3 r c, h4⟩

theorem axisClear_of (s : State) (n r c : Nat) (faultin : Bool) (h : s.axisAt n r c 8) :
    let k := s.stake n
    ∃ t, exec (.axisClear n r c faultin) s = .next t ∧ s.axisElsewhere t n ∧
      (k.pairedFollower = true → k.axisCompleted (t.stake n) r c 5 5 ∧ (t.stake n).axis = k.axis ∧ (t.stake n).prt.active = k.prt.active) ∧
      (k.pairedFollower = false → k.axisCompleted (t.stake n) r c 0 0 ∧
        (∀ a ∈ (t.stake n).prt.active, a ∈ k.prt.active) ∧
        (k.hasFault .motorMismatch = false → ∀ a ∈ k.prt.active, a ∈ (t.stake n).prt.active ↔
          (3 ≤ a.cls ∧ k.axis ≠ axSafe) ∨ k.refreshBand.persists (s.held faultin) a.post.ev (nth 0 a.post.vals 0) = true) ∧
        (k.axis = axSafe → k.prt.discharge = none → k.fld Reg.PLT_PS_STATUS_SUBSTATE = 1 → (t.stake n).hasClass 3 = false →
          (t.stake n).hasClass 4 = false → (t.stake n).axis = axOff ∧ (t.stake n).prt.releasing = true ∧ (t.stake n).prt.episode = none)) := by
  intro k
  obtain ⟨t, ht, he, hk⟩ := State.axisDesc_of h fun k =>
    k.axisCmd r c (firstCause [(k.pairedFollower, 5)]) fun k => k.clearAxis (s.held faultin)
  refine ⟨t, ht, he, fun hp => ?_, fun hp => ?_⟩
  · rw [hk, show firstCause [((s.stake n).pairedFollower, 5)] = 5 from if_pos hp, Stake.axisCmd_refused (by decide)]
    obtain ⟨h1, h2, -⟩ := k.axisRefuse_of r c 5
    exact ⟨h1, h2, by rw [(k.axisRefuse_only r c 5).prt]⟩
  · obtain ⟨h1, h2⟩ := k.clearAxis_active (s.held faultin)
    have hd := (k.clearAxis (s.held faultin)).axisDone_only r c
    rw [hk, show firstCause [((s.stake n).pairedFollower, 5)] = 0 from if_neg (by simp [show (s.stake n).pairedFollower = false from hp]), Stake.axisCmd_done rfl,
      Stake.axisDone_axis, Stake.hasClass_congr (congrArg PrtState.active hd.prt), Stake.hasClass_congr (congrArg PrtState.active hd.prt), hd.prt, h1]
    refine ⟨Stake.axisDone_completed (by rw [h2]) r c, fun a ha => (List.mem_filter.1 ha).1, fun hm a ha => ?_, fun ha hdis hs h3 h4 => ?_⟩
    · have hmm : k.refreshBand.mmCleared = k.refreshBand := if_neg (by
        rw [show k.refreshBand.hasFault .motorMismatch = false from hm]
        simp)
      have hax : k.refreshBand.axis = k.axis := (Stake.Only.onPrt (l := [.prt]) .refl).fld _
      rw [List.mem_filter, and_iff_right ha, hmm]
      simp [Stake.faultStays, hax]
    · exact Stake.clearAxis_off ha hdis hs h3 h4

theorem axisRecover_of (s : State) (n r c : Nat) (faultin : Bool) (h : s.axisAt n r c 9) :
    let k := s.stake n
    let q := (k.clearFaults (s.held faultin)).clearPorts
    let x := firstCause [(q.stopActive, 2), (!(q.clock 0).valid, 4), (q.portsBad [0, 1, 2], 3), (q.pairRefuses, 5)]
    ∃ t, exec (.axisRecover n r c faultin) s = .next t ∧ s.axisElsewhere t n ∧
      if k.axis ≠ axSafe then k.axisCompleted (t.stake n) r c 5 1 ∧ (t.stake n).axis = k.axis
      else if k.pairedFollower then k.axisCompleted (t.stake n) r c 5 5 ∧ (t.stake n).axis = axSafe
      else if x ≠ 0 then k.axisCompleted (t.stake n) r c 5 x ∧ (t.stake n).axis = axSafe
      else k.axisCompleted (t.stake n) r c 0 0 ∧ (t.stake n).axis ∈ [axRun, axDerate] ∧ (t.stake n).prt.releasing = true ∧
        (t.stake n).prt.episode = none := by
  intro k q x
  obtain ⟨t, ht, he, hk⟩ := State.axisDesc_of h fun k =>
    if k.axis ≠ axSafe then k.axisRefuse r c 1
    else if k.pairedFollower then k.axisRefuse r c 5
    else
      let k := (k.clearFaults (s.held faultin)).clearPorts
      let cause := firstCause [(k.stopActive, 2), (!(k.clock 0).valid, 4), (k.portsBad [0, 1, 2], 3), (k.pairRefuses, 5)]
      k.axisCmd r c cause fun k =>
        ((k.onPrt fun p => { p with discharge := p.discharge.map fun d => { d with holding := false } }).endEpisode.release).enterRun
  refine ⟨t, ht, he, ?_⟩
  have hk' : t.stake n = if k.axis ≠ axSafe then k.axisRefuse r c 1
    else if k.pairedFollower then k.axisRefuse r c 5
    else q.axisCmd r c x fun k =>
      ((k.onPrt fun p => { p with discharge := p.discharge.map fun d => { d with holding := false } }).endEpisode.release).enterRun := hk
  obtain ⟨hcf, -⟩ := k.clearFaults_of (s.held faultin)
  have hcp := (k.clearFaults (s.held faultin)).clearPorts_only
  have hq : q.done = k.done := hcp.done.trans hcf.only.done
  have hqa : k.axis = axSafe → q.axis = axSafe := fun ha => (hcp.fld _).trans (hcf.axis.into ha)
  clear_value x q
  clear ht hk
  by_cases h1 : k.axis = axSafe
  · rw [if_neg (by simp [h1])] at hk' ⊢
    by_cases h2 : k.pairedFollower = true
    · rw [if_pos h2] at hk' ⊢
      obtain ⟨h3, h4, -⟩ := k.axisRefuse_of r c 5
      exact ⟨hk' ▸ h3, hk' ▸ h4.trans h1⟩
    · rw [if_neg h2] at hk' ⊢
      by_cases h3 : x = 0
      · rw [if_neg (by simp [h3]), hk', Stake.axisCmd_done h3]
        obtain ⟨r1, r2, r3, r4⟩ := q.recover_of
        generalize ((q.onPrt fun p => { p with discharge := p.discharge.map fun d => { d with holding := false } }).endEpisode.release).enterRun = j at r1 r2 r3 r4
        rw [Stake.axisDone_axis, (j.axisDone_only r c).prt]
        exact ⟨Stake.axisDone_completed (by rw [r4, hq]) r c, r1, r2, r3⟩
      · rw [if_pos h3, hk', Stake.axisCmd_refused h3]
        obtain ⟨h4, h5, -⟩ := q.axisRefuse_of r c x
        exact ⟨by unfold Stake.axisCompleted; rw [← hq]; exact h4, h5.trans (hqa h1)⟩
  · rw [if_pos h1] at hk' ⊢
    obtain ⟨h3, h4, -⟩ := k.axisRefuse_of r c 1
    exact ⟨hk' ▸ h3, hk' ▸ h4⟩

/-- Settles O50: one theorem for each of STOP, DISCHARGE, CLEAR and RECOVER. -/
theorem axisEnds : Obligations.AxisEnds := by
  unfold Obligations.AxisEnds
  exact ⟨axisStop_of, axisDischarge_of, axisClear_of, axisRecover_of⟩

end Sys2Proof.Machine

/-! Breaks of a pairing, the survivor in HOLD and its confirmation (R222 to R225). -/
namespace Sys2Proof.Machine
set_option Elab.async false

/-- The fields of a register read in one stake as in the other. -/
def Stake.sameReg (k j : Stake) (off : Nat) : Prop := j.rd off = k.rd off

theorem Stake.sameReg.fld {k j : Stake} {off : Nat} (h : k.sameReg j off) {f : Fld} (hf : f.off = off) : j.fld f = k.fld f := by
  unfold Stake.sameReg at h
  rw [Stake.fld, Stake.fld, hf, h]

theorem Stake.put_sameReg {k j : Stake} {f : Fld} (h : k.sameReg j f.off) (v : Nat) : (k.put f v).sameReg (j.put f v) f.off := by
  unfold Stake.sameReg at h ⊢
  rw [Stake.put, Stake.put, Stake.rd_wr_same, Stake.rd_wr_same, h]

theorem Stake.onPair_pair (k : Stake) (f : PairState → PairState) : (k.onPair f).pair = f k.pair := rfl

theorem Stake.onPair_seen (k : Stake) {f : PairState → PairState} (hf : ∀ p, (f p).seen = p.seen) : (k.onPair f).pair.seen = k.pair.seen :=
  (congrArg PairState.seen (k.onPair_pair f)).trans (hf _)

theorem Stake.takeAltSrc_status (k : Stake) : k.sameReg k.takeAltSrc Reg.FLD_PAIR_STATUS ∧ k.takeAltSrc.pair = k.pair := by
  unfold Stake.takeAltSrc
  extract_lets was j
  have hj : Stake.Eff [.regs, .ang] [Reg.ANG_CLK_CTRL 0] k j := .onClock (.put .refl)
  have hs : Stake.Eff [.regs, .out, .prt, .modu] syncRegs j (if was then j.syncAbort else j) := .ite (.syncAbort .refl) .refl
  exact ⟨(hs.regs _ (by decide)).trans (hj.regs _ (by decide)), hs.only.pair.trans hj.only.pair⟩

/-- R223 to R225: a survivor is in HOLD or HALF. -/
theorem Stake.survive_status (k : Stake) :
    (∃ v ∈ [3, 4, 5], (k.put Reg.FLD_PAIR_STATUS_STATE v).sameReg k.survive Reg.FLD_PAIR_STATUS) ∧ k.survive.pair.seen = k.pair.seen := by
  unfold Stake.survive
  extract_lets j
  have hj : k.sameReg j Reg.FLD_PAIR_STATUS ∧ j.pair = k.pair := by
    simp only [j]
    split
    · exact ⟨rfl, rfl⟩
    · exact k.takeAltSrc_status
  split
  · have hl : Stake.Eff [.regs, .modu] [Reg.MOD_SPACING_CNT] (j.put Reg.FLD_PAIR_STATUS_STATE 3) (j.put Reg.FLD_PAIR_STATUS_STATE 3).leaveSwitching :=
      .leaveSwitching .refl
    generalize (j.put Reg.FLD_PAIR_STATUS_STATE 3).leaveSwitching = q at hl ⊢
    have hq : Stake.Only [.pair] q (q.onPair fun p => { p with holdAt := some q.now }) := .onPair .refl
    have hs : (q.onPair fun p => { p with holdAt := some q.now }).pair.seen = q.pair.seen := q.onPair_seen fun _ => rfl
    refine ⟨⟨3, by decide, (hq.rd _).trans ((hl.regs _ (by decide)).trans (Stake.put_sameReg hj.1 3))⟩, hs.trans ?_⟩
    rw [hl.only.pair, Stake.put_pair, hj.2]
  · have hl := Stake.Only.updDerate_only (j.put Reg.FLD_PAIR_STATUS_STATE 4)
    refine ⟨⟨4, by decide, ((Stake.updDerate_regsKept _ _ (by decide)).trans (Stake.put_sameReg hj.1 4))⟩, ?_⟩
    rw [hl.pair]
    exact congrArg PairState.seen hj.2

/-- R223: a stake that yields. -/
theorem Stake.yieldPair_status (k : Stake) (own : Bool) :
    (∃ v ∈ [3, 4, 5], (k.put Reg.FLD_PAIR_STATUS_STATE v).sameReg (k.yieldPair own) Reg.FLD_PAIR_STATUS) ∧ (k.yieldPair own).pair.seen = k.pair.seen := by
  unfold Stake.yieldPair
  extract_lets j h fixed
  have hp : (k.put Reg.FLD_PAIR_STATUS_STATE 5).sameReg j Reg.FLD_PAIR_STATUS ∧ j.pair.seen = k.pair.seen :=
    ⟨(Stake.Only.onPair (l := [.pair]) .refl).rd _, Stake.onPair_seen _ fun _ => rfl⟩
  cases own with
  | true => exact ⟨⟨5, by decide, hp.1⟩, hp.2⟩
  | false =>
    rw [if_neg (by decide)]
    have ho : ∀ f, Stake.Only [.prt] j (j.onPrt f) := fun f => .onPrt .refl
    exact ⟨⟨5, by decide, ((ho _).rd _).trans hp.1⟩, (congrArg PairState.seen (ho _).pair).trans hp.2⟩

/-- R223: what the break of a pairing shows. -/
theorem Stake.breakRow_of {k : Stake} {cause : Nat} (hc : cause < 8) (hp : k.pairSt = 1 ∨ k.pairSt = 2) :
    ∃ cls, (k.breakRow cause).flag Reg.FLD_PAIR_STATUS_BROKEN = true ∧ (k.breakRow cause).fld Reg.FLD_PAIR_STATUS_BREAK_CAUSE = cause ∧
      (k.breakRow cause).pairSt ∈ [3, 4, 5] ∧ ∃ other, k.posted (k.breakRow cause) .pairBreak cls
        [cause, k.fld Reg.FLD_PAIR_STATUS_CONSEC, k.pair.seen.1, (k.breakRow cause).pairSt, other] := by
  unfold Stake.breakRow
  rw [if_neg (by rcases hp with h | h <;> simp [h])]
  extract_lets consec other otherSt survivor q j
  have hq : Stake.Eff breakParts breakRegs k q := .onPair (.put (.putB .refl))
  have hqo : Stake.Only [.pair] ((k.putB Reg.FLD_PAIR_STATUS_BROKEN true).put Reg.FLD_PAIR_STATUS_BREAK_CAUSE cause) q := .onPair .refl
  have hqs : q.pair.seen = k.pair.seen := rfl
  have hj : (∃ v ∈ [3, 4, 5], (q.put Reg.FLD_PAIR_STATUS_STATE v).sameReg j Reg.FLD_PAIR_STATUS) ∧ j.pair.seen = q.pair.seen := by
    simp only [j]
    split
    · exact q.survive_status
    · exact q.yieldPair_status _
  have hje : Stake.Eff breakParts breakRegs k j := hq.trans (.ite q.survive_eff (q.yieldPair_eff _))
  obtain ⟨⟨v, hv, hs⟩, hseen⟩ := hj
  have hpost : ∀ c w, ∀ f : Fld, f.off = Reg.FLD_PAIR_STATUS → (j.post .pairBreak c w).fld f = (q.put Reg.FLD_PAIR_STATUS_STATE v).fld f :=
    fun c w f hf => (Stake.fld_post _ _ _ _ _ (by rw [hf]; decide)).trans (hs.fld hf)
  have hst : ∀ c w, (j.post .pairBreak c w).pairSt = v := fun c w =>
    (hpost c w _ rfl).trans ((Stake.fld_put_same _ _ _ (by decide)).trans (by simp at hv; rcases hv with rfl | rfl | rfl <;> rfl))
  have hjst : j.pairSt = v :=
    (hs.fld rfl).trans ((Stake.fld_put_same _ _ _ (by decide)).trans (by simp at hv; rcases hv with rfl | rfl | rfl <;> rfl))
  refine ⟨if survivor then 1 else 0, ?_, ?_, ?_, otherSt, ?_⟩
  · rw [Stake.flag, hpost _ _ _ rfl, Stake.fld_put_ne _ _ _ _ (by decide), hqo.fld, Stake.fld_put_ne _ _ _ _ (by decide)]
    exact Stake.flag_putB_same _ _ _ (by decide) rfl
  · rw [hpost _ _ _ rfl, Stake.fld_put_ne _ _ _ _ (by decide), hqo.fld, Stake.fld_put_same _ _ _ (by decide)]
    exact Nat.mod_eq_of_lt hc
  · rw [hst]
    exact hv
  · rw [hst, hjst, hseen, hqs]
    exact hje.post_posted _ _ _

/-- R224, R225: the confirmation arrives in time. -/
theorem Stake.confirmArrives_of {k : Stake} {t : Nat} (hh : k.pair.holdAt = some t) (hp : k.pairSt = 3)
    (ht : k.now ≤ t + 400 * k.inForce Reg.FLD_PAIR_LIMITS_T_CONFIRM) :
    k.confirmArrives.pairSt = 4 ∧ k.confirmArrives.pair.holdAt = none ∧ k.confirmArrives.modu.fdtEnter = true := by
  unfold Stake.confirmArrives
  rw [hh]
  dsimp only
  rw [if_neg (by simp [hp]; omega)]
  have hs : Stake.Only [.pair, .fe, .modu] (k.put Reg.FLD_PAIR_STATUS_STATE 4) ((((k.put Reg.FLD_PAIR_STATUS_STATE 4).onPair fun p =>
    { p with holdAt := none }).onFe fun f => { f with flying := true }).enterSwitching) := .enterSwitching (.onFe (.onPair .refl))
  have h1 : ((((k.put Reg.FLD_PAIR_STATUS_STATE 4).onPair fun p => { p with holdAt := none }).onFe fun f => { f with flying := true }).enterSwitching).pair.holdAt
    = none := rfl
  have h2 : ((((k.put Reg.FLD_PAIR_STATUS_STATE 4).onPair fun p => { p with holdAt := none }).onFe fun f => { f with flying := true }).enterSwitching).modu.fdtEnter
    = true := rfl
  generalize (((k.put Reg.FLD_PAIR_STATUS_STATE 4).onPair fun p => { p with holdAt := none }).onFe fun f => { f with flying := true }).enterSwitching = q at hs h1 h2
  have hu := Stake.Only.updDerate_only q
  exact ⟨(q.updDerate_regsKept.fld (by decide)).trans ((hs.fld _).trans (Stake.fld_put_same _ _ _ (by decide))), by rw [hu.pair, h1], by rw [hu.modu, h2]⟩

/-- Settles O43. -/
theorem pairingBreaks : Obligations.PairingBreaks := by
  unfold Obligations.PairingBreaks
  refine ⟨fun s n cause hp h1 h5 hs => ?_, fun s n at_ hp hh hs ht => ?_, fun s n at_ hp hh hs ht => ?_⟩
  · obtain ⟨t, ht, he, hk⟩ := exec_onStake hp fun k => if 1 ≤ cause ∧ cause ≤ 5 then k.breakRow cause else k
    rw [if_pos ⟨h1, h5⟩] at hk
    obtain ⟨cls, h⟩ := Stake.breakRow_of (Nat.lt_of_le_of_lt h5 (by decide)) hs
    exact ⟨t, cls, ht, he, hk ▸ h⟩
  · obtain ⟨t, ht', he, hk⟩ := exec_onStake hp Stake.confirmArrives
    exact ⟨t, ht', he, hk ▸ Stake.confirmArrives_of hh hs ht⟩
  · refine ⟨_, rfl, s.onStake_elsewhere n _, ?_⟩
    rw [State.onStake_stake_same hp]
    simp only [hh]
    rw [if_pos (by simp [hs, ht])]
    exact ⟨rfl, ((s.stake n).post_posted _ _ _).of_prefix (.of_eq .refl (Stake.Only.onPair (l := [.pair]) .refl).out)⟩

end Sys2Proof.Machine

/-! Starting and stopping a pairing, its sample frames and clock cells (R210, R215, R218, R220, R226 to R229). -/
namespace Sys2Proof.Machine
set_option Elab.async false

theorem partnerOf_ne (n : Nat) : partnerOf n ≠ n := by unfold partnerOf; split <;> omega

/-- A write of both stakes of a pair. -/
theorem State.onStake_pair {s : State} {n p : Nat} (hn : s.present n = true) (hp : s.present p = true) (h : p ≠ n) (f g : Stake → Stake) :
    ((s.onStake n f).onStake p g).pkg = s.pkg ∧ ((s.onStake n f).onStake p g).stake n = f (s.stake n) ∧
      ((s.onStake n f).onStake p g).stake p = g (s.stake p) ∧
      ∀ m, m ≠ n → m ≠ p → ((s.onStake n f).onStake p g).stake m = s.stake m := by
  refine ⟨by simp, ?_, ?_, fun m hm hm' => ?_⟩
  · rw [State.onStake_stake_ne _ h.symm, State.onStake_stake_same hn]
  · rw [State.onStake_stake_same (by simpa using hp), State.onStake_stake_ne _ h]
  · rw [State.onStake_stake_ne _ hm', State.onStake_stake_ne _ hm]

/-! The write of FLD_PAIR_CTRL. -/

/-- The fields of the pairing stay as they are in a write of its commands. -/
theorem pairFields_kept {k : Stake} {w : Reg32} (hw : w.getLsbD 0 = true ∨ w.getLsbD 1 = true)
    (hm : ∀ r, regAt Reg.FLD_PAIR_CTRL = some r → r.merge (k.rd Reg.FLD_PAIR_CTRL) w &&& 0x3FFFFFFC = k.rd Reg.FLD_PAIR_CTRL &&& 0x3FFFFFFC) :
    (Decidable.decide (((regAt Reg.FLD_PAIR_CTRL).map (fun d => d.merge (k.rd Reg.FLD_PAIR_CTRL) w)).getD w &&& 0x3FFFFFFC ≠
      k.rd Reg.FLD_PAIR_CTRL &&& 0x3FFFFFFC) || Decidable.decide (w &&& 3 = 0)) = false := by
  have hs : (regAt Reg.FLD_PAIR_CTRL).isSome = true := by decide
  obtain ⟨r, hr⟩ := Option.isSome_iff_exists.mp hs
  refine Bool.or_eq_false_iff.mpr ⟨?_, ?_⟩
  · rw [hr]
    exact decide_eq_false (by simpa using hm r hr)
  · refine decide_eq_false fun h => ?_
    have h0 := congrArg (·.getLsbD 0) h
    have h1 := congrArg (·.getLsbD 1) h
    simp at h0 h1
    rcases hw with hw | hw <;> simp_all

/-- What a refused start shows. -/
def Stake.startRefused (k : Stake) (c : Nat) : Stake :=
  ((k.putB Reg.FLD_PAIR_STATUS_START_REFUSED true).put Reg.FLD_PAIR_STATUS_REFUSE_CAUSE c).post .pairStartRefused 0 [c]

theorem State.wPairCtrl_start {s : State} {n : Nat} {w : Reg32} (hl : (s.stake n).leads = true) (h0 : w.getLsbD 0 = true)
    (h1 : w.getLsbD 1 = false)
    (hm : ∀ r, regAt Reg.FLD_PAIR_CTRL = some r →
      r.merge ((s.stake n).rd Reg.FLD_PAIR_CTRL) w &&& 0x3FFFFFFC = (s.stake n).rd Reg.FLD_PAIR_CTRL &&& 0x3FFFFFFC) :
    s.wPairCtrl n w = if startCause (s.stake n) (s.stake (partnerOf n)) ≠ 0 then
        s.onStake n fun k => k.startRefused (startCause (s.stake n) (s.stake (partnerOf n)))
      else (s.onStake n Stake.starting).onStake (partnerOf n) Stake.starting := by
  have hf := pairFields_kept (Or.inl h0) hm
  unfold State.wPairCtrl
  extract_lets k p r new fields refuse s1 c s2 quiet
  have hs1 : s1 = s := if_pos (by rw [show fields = false from (congrArg (fun b => !s.locked && b) hf).trans (Bool.and_false _)]; rfl)
  rw [if_neg (ne_true_of_eq_false h1)]
  simp only [s2, c, hs1]
  rw [if_pos h0, if_neg (by rw [hl]; decide)]
  rfl

theorem State.wPairCtrl_stop {s : State} {n : Nat} {w : Reg32} (hl : (s.stake n).leads = true) (h0 : w.getLsbD 0 = false)
    (h1 : w.getLsbD 1 = true)
    (hm : ∀ r, regAt Reg.FLD_PAIR_CTRL = some r →
      r.merge ((s.stake n).rd Reg.FLD_PAIR_CTRL) w &&& 0x3FFFFFFC = (s.stake n).rd Reg.FLD_PAIR_CTRL &&& 0x3FFFFFFC)
    (hn : (s.stake n).axisIn [axOff, axSafe] = true) (hp : (s.stake (partnerOf n)).axisIn [axOff, axSafe] = true) :
    s.wPairCtrl n w = (s.onStake n Stake.unpair).onStake (partnerOf n) Stake.unpair := by
  have hf := pairFields_kept (Or.inr h1) hm
  unfold State.wPairCtrl
  extract_lets k p r new fields refuse s1 c s2 quiet
  have hs1 : s1 = s := if_pos (by rw [show fields = false from (congrArg (fun b => !s.locked && b) hf).trans (Bool.and_false _)]; rfl)
  have hs2 : s2 = s := (if_neg (ne_true_of_eq_false h0)).trans hs1
  rw [if_pos h1, hs2, if_neg (by simp only [k, p, quiet, hl, hn, hp]; decide)]

theorem State.pairCtrlWrite_of_admits {s : State} {src : Src} {n : Nat} {w : Reg32} (h : s.admits src n Reg.FLD_PAIR_CTRL w) :
    s.pairCtrlWrite src n w = s.wPairCtrl n w := by
  obtain ⟨ht, hl, hr⟩ := h
  unfold State.pairCtrlWrite
  have hi : ((regAt Reg.FLD_PAIR_CTRL).map fun d => d.inRange w).getD true = true := by
    cases hreg : regAt Reg.FLD_PAIR_CTRL with
    | none => rfl
    | some r => exact hr r hreg
  simp only [ht, hl, hi]
  rfl

theorem startCause_lt (a b : Stake) : startCause a b < 8 := by
  unfold startCause
  extract_lets
  repeat' split
  all_goals decide

theorem Stake.startRefused_of (k : Stake) {c : Nat} (hc : c < 8) :
    (k.startRefused c).flag Reg.FLD_PAIR_STATUS_START_REFUSED = true ∧ (k.startRefused c).fld Reg.FLD_PAIR_STATUS_REFUSE_CAUSE = c ∧
      (k.startRefused c).pairSt = k.pairSt ∧ k.posted (k.startRefused c) .pairStartRefused 0 [c] := by
  have he : Stake.Eff [.regs] [Reg.FLD_PAIR_STATUS] k ((k.putB Reg.FLD_PAIR_STATUS_START_REFUSED true).put Reg.FLD_PAIR_STATUS_REFUSE_CAUSE c) :=
    .put (.putB .refl)
  unfold Stake.startRefused Stake.pairSt
  refine ⟨?_, ?_, ?_, he.post_posted _ _ _⟩
  · rw [Stake.flag_post _ _ _ _ Reg.FLD_PAIR_STATUS_START_REFUSED, Stake.flag, Stake.fld_put_ne _ _ _ _ (by decide)]
    exact Stake.flag_putB_same _ _ _ (by decide) rfl
  · rw [Stake.fld_post _ _ _ _ Reg.FLD_PAIR_STATUS_REFUSE_CAUSE, Stake.fld_put_same _ _ _ (by decide)]
    exact Nat.mod_eq_of_lt (Nat.lt_of_lt_of_le hc (by decide))
  · rw [Stake.fld_post _ _ _ _ Reg.FLD_PAIR_STATUS_STATE, Stake.fld_put_ne _ _ _ _ (by decide), Stake.fld_putB_ne _ _ _ _ (by decide)]

theorem Stake.starting_of (k : Stake) : k.starting.pairSt = 1 ∧ k.regsKept k.starting [Reg.FLD_PAIR_STATUS] := by
  have hp : ∀ (j : Stake) (p : PairState), ({ j with pair := p } : Stake).pairSt = j.pairSt := fun _ _ => Stake.fld_congr rfl rfl _
  unfold Stake.starting
  have hk : k.regsKept ((k.put Reg.FLD_PAIR_STATUS_STATE 1).put Reg.FLD_PAIR_STATUS_CONSEC 0) [Reg.FLD_PAIR_STATUS] :=
    .put (.put .refl (by decide)) (by decide)
  refine ⟨?_, hk.trans fun _ _ => Stake.rd_congr rfl rfl _⟩
  rw [hp, Stake.pairSt, Stake.fld_put_ne _ _ _ _ (by decide), Stake.fld_put_same _ _ _ (by decide)]
  rfl

theorem Stake.unpair_pairSt (k : Stake) : k.unpair.pairSt = 0 := by
  have hp : ∀ (j : Stake) (p : PairState), ({ j with pair := p } : Stake).pairSt = j.pairSt := fun _ _ => Stake.fld_congr rfl rfl _
  unfold Stake.unpair
  refine ((Stake.updDerate_regsKept _).fld (by decide)).trans ((hp _ _).trans ?_)
  rw [Stake.pairSt, Stake.fld_put_ne _ _ _ _ (by decide), Stake.fld_put_same _ _ _ (by decide)]
  rfl

/-- R227 to R229: what START does. -/
theorem pairStart_of {s : State} {n : Nat} {src : Src} {w : Reg32} (ha : s.admits src n Reg.FLD_PAIR_CTRL w)
    (hp : s.present (partnerOf n) = true) (hl : (s.stake n).leads = true) (h0 : w.getLsbD 0 = true) (h1 : w.getLsbD 1 = false)
    (hm : ∀ r, regAt Reg.FLD_PAIR_CTRL = some r →
      r.merge ((s.stake n).rd Reg.FLD_PAIR_CTRL) w &&& 0x3FFFFFFC = (s.stake n).rd Reg.FLD_PAIR_CTRL &&& 0x3FFFFFFC)
    {t : State} (ht : exec (.pairStart n src w) s = .next t) :
    let c := startCause (s.stake n) (s.stake (partnerOf n))
    t.pkg = s.pkg ∧ (∀ m, m ≠ n → m ≠ partnerOf n → t.stake m = s.stake m) ∧
      (c = 0 → (t.stake n).pairSt = 1 ∧ (t.stake (partnerOf n)).pairSt = 1 ∧
        (s.stake n).regsKept (t.stake n) [Reg.FLD_PAIR_STATUS]) ∧
      (c ≠ 0 → (t.stake n).flag Reg.FLD_PAIR_STATUS_START_REFUSED = true ∧ (t.stake n).fld Reg.FLD_PAIR_STATUS_REFUSE_CAUSE = c ∧
        (t.stake n).pairSt = (s.stake n).pairSt ∧ (s.stake n).posted (t.stake n) .pairStartRefused 0 [c]) := by
  have he : exec (.pairStart n src w) s = .next (s.wPairCtrl n w) := by
    change execPairStart n src w s = _
    rw [execPairStart, if_pos h0, State.pairCtrlWrite_of_admits ha]
  obtain rfl : s.wPairCtrl n w = t := by rw [he] at ht; injection ht
  rw [State.wPairCtrl_start hl h0 h1 hm]
  intro c
  by_cases hc : c = 0
  · rw [if_neg (by simpa using hc)]
    obtain ⟨hk, hn, hq, ho⟩ := State.onStake_pair ha.present hp (partnerOf_ne n) Stake.starting Stake.starting
    rw [hn, hq]
    exact ⟨hk, ho, fun _ => ⟨(Stake.starting_of _).1, (Stake.starting_of _).1, (Stake.starting_of _).2⟩, fun h => absurd hc h⟩
  · rw [if_pos hc, State.onStake_stake_same ha.present]
    exact ⟨by simp, fun m hm _ => State.onStake_stake_ne _ hm _, fun h => absurd h hc,
      fun _ => Stake.startRefused_of _ (startCause_lt _ _)⟩

/-- R226: what STOP does. -/
theorem pairStop_of {s : State} {n : Nat} {src : Src} {w : Reg32} (ha : s.admits src n Reg.FLD_PAIR_CTRL w)
    (hp : s.present (partnerOf n) = true) (hl : (s.stake n).leads = true) (h0 : w.getLsbD 0 = false) (h1 : w.getLsbD 1 = true)
    (hm : ∀ r, regAt Reg.FLD_PAIR_CTRL = some r →
      r.merge ((s.stake n).rd Reg.FLD_PAIR_CTRL) w &&& 0x3FFFFFFC = (s.stake n).rd Reg.FLD_PAIR_CTRL &&& 0x3FFFFFFC)
    (hn : (s.stake n).axisIn [axOff, axSafe] = true) (hq : (s.stake (partnerOf n)).axisIn [axOff, axSafe] = true) :
    ∃ t, exec (.pairStop n src w) s = .next t ∧ t.pkg = s.pkg ∧ (t.stake n).pairSt = 0 ∧ (t.stake (partnerOf n)).pairSt = 0 := by
  have he : exec (.pairStop n src w) s = .next (s.wPairCtrl n w) := by
    change execPairStop n src w s = _
    rw [execPairStop, if_pos h1, State.pairCtrlWrite_of_admits ha]
  refine ⟨_, he, ?_⟩
  rw [State.wPairCtrl_stop hl h0 h1 hm hn hq]
  obtain ⟨hk, h2, h3, _⟩ := State.onStake_pair ha.present hp (partnerOf_ne n) Stake.unpair Stake.unpair
  rw [h2, h3]
  exact ⟨hk, Stake.unpair_pairSt _, Stake.unpair_pairSt _⟩

/-! Sample frames. -/

/-- R228: a sample frame waits for its pass, or is discarded after it. -/
theorem Stake.takeSampleFrame_of {k : Stake} (ws : List Nat) (hl : k.leads = true) (hs : k.pairSt = 1 ∨ k.pairSt = 2) :
    (k.takeSampleFrame ws).regs = k.regs ∧
      (k.pair.judged = some (wordAt ws 0) → (k.takeSampleFrame ws).pair = k.pair) ∧
      (k.pair.judged ≠ some (wordAt ws 0) → ∃ f, (k.takeSampleFrame ws).pair.frames = k.pair.frames ++ [f] ∧
        f.tc = wordAt ws 0 ∧ f.i = [wordInt ws 2, wordInt ws 3, wordInt ws 4] ∧ f.loop = (wordInt ws 5, wordInt ws 6)) := by
  unfold Stake.takeSampleFrame
  rw [if_neg (by rcases hs with h | h <;> simp [hl, h])]
  extract_lets w1 f j
  have hj : Stake.Only [.wal] k j := .onDir .refl
  by_cases hjd : k.pair.judged = some (wordAt ws 0)
  · rw [if_pos (by rw [hj.pair]; exact hjd)]
    exact ⟨hj.regs, fun _ => hj.pair, fun h => absurd hjd h⟩
  · rw [if_neg (by rw [hj.pair]; exact hjd)]
    have hf : Stake.Only [.pair] j (j.onPair fun p => { p with frames := p.frames ++ [f] }) := .onPair .refl
    refine ⟨hf.regs.trans hj.regs, fun h => absurd h hjd, fun _ => ⟨f, ?_, rfl, rfl, rfl⟩⟩
    rw [Stake.onPair_pair, hj.pair]

/-! Becoming PAIRED. -/

/-- R228: the follower becomes PAIRED and hands its temperature to its partner. -/
def Stake.pairedWith (k : Stake) : Stake :=
  let k := k.put Reg.FLD_PAIR_STATUS_STATE 2
  let v := k.fld Reg.THM_STATUS_I_THERM
  if v = 0 then k else k.toPartner 0xFFFF [v]

theorem Stake.pairedWith_of (k : Stake) : k.pairedWith.pairSt = 2 ∧ k.regsKept k.pairedWith [Reg.FLD_PAIR_STATUS] := by
  unfold Stake.pairedWith
  extract_lets j v
  have hj : j.pairSt = 2 := Stake.fld_put_same _ _ _ (by decide)
  have hk : k.regsKept j [Reg.FLD_PAIR_STATUS] := .put .refl (by decide)
  split
  · exact ⟨hj, hk⟩
  · have he : Stake.Eff [.wal] [] j (j.toPartner 0xFFFF [v]) := .toPartner .refl
    exact ⟨(he.only.fld _).trans hj, hk.trans (he.regs.mono (by simp))⟩

theorem State.pairUp_of {s : State} {n : Nat} (hn : s.present n = true) (hp : s.present (partnerOf n) = true) (h1 : (s.stake n).pairSt = 1)
    (hm : 3 ≤ (s.stake n).pair.matched) (hv : ((s.stake (partnerOf n)).clock 0).valid = true) :
    let t := s.pairUp n
    (t.stake n).pairSt = 2 ∧ (t.stake (partnerOf n)).pairSt = 2 ∧ (s.stake n).posted (t.stake n) .pairUp 0 [] ∧
      (s.stake (partnerOf n)).regsKept (t.stake (partnerOf n)) [Reg.FLD_PAIR_STATUS] ∧
      ∀ m, m ≠ n → m ≠ partnerOf n → t.stake m = s.stake m := by
  have he : s.pairUp n = (s.onStake (partnerOf n) Stake.pairedWith).onStake n
      fun k => (k.put Reg.FLD_PAIR_STATUS_STATE 2).post .pairUp 0 := by
    unfold State.pairUp
    rw [if_pos (by simp [h1, hm, hv])]
    rfl
  intro t
  obtain ⟨_, h2, h3, h4⟩ := State.onStake_pair hp hn (partnerOf_ne n).symm Stake.pairedWith
    fun k => (k.put Reg.FLD_PAIR_STATUS_STATE 2).post .pairUp 0
  simp only [t, he]
  rw [h2, h3]
  have hq : Stake.Eff [.regs] [Reg.FLD_PAIR_STATUS] (s.stake n) ((s.stake n).put Reg.FLD_PAIR_STATUS_STATE 2) := .put .refl
  refine ⟨?_, (Stake.pairedWith_of _).1, hq.post_posted _ _ _, (Stake.pairedWith_of _).2, fun m hm hm' => h4 m hm' hm⟩
  rw [Stake.pairSt, Stake.fld_post _ _ _ _ Reg.FLD_PAIR_STATUS_STATE, Stake.fld_put_same _ _ _ (by decide)]
  rfl

/-- Settles O41. -/
theorem pairingStarts : Obligations.PairingStarts := by
  unfold Obligations.PairingStarts
  refine ⟨fun s n src w ha hp hl h0 h1 hm => ?_, fun s n src w ha hp hl h0 h1 hm hn hq => pairStop_of ha hp hl h0 h1 hm hn hq,
    fun s n ws hn hp hl hs => ?_, fun s n hn hp h1 hm hv => State.pairUp_of hn hp h1 hm hv⟩
  · exact ⟨_, rfl, pairStart_of ha hp hl h0 h1 hm rfl⟩
  · obtain ⟨t, ht, he, hk⟩ := exec_onStake hn fun k => k.takeSampleFrame ws
    exact ⟨t, ht, he, hk ▸ Stake.takeSampleFrame_of ws hl hs⟩

end Sys2Proof.Machine

/-! What a leader and a follower of a pair send each other (R215, R218, R220). -/
namespace Sys2Proof.Machine
set_option Elab.async false

/-! The clock cell. -/

theorem Stake.pairedFollower_congr {k j : Stake} (hr : j.regs = k.regs) (hi : j.id = k.id) : j.pairedFollower = k.pairedFollower := by
  unfold Stake.pairedFollower Stake.pairSt Stake.leads
  rw [Stake.fld_congr hr hi, hi]

/-- R218: the follower notes the axis of its leader, and stays as it is where its own is the same or it is not PAIRED. -/
theorem Stake.mirrorAxis_same {k : Stake} {st sub : Nat} (h : k.pairSt ≠ 2 ∨ (k.axis = st ∧ sub = 0 ∧ k.axis ≠ axSafe)) :
    k.mirrorAxis st sub = k.onPair fun p => { p with mirror := (st, sub) } := by
  unfold Stake.mirrorAxis
  extract_lets j
  have hj : Stake.Only [.pair] k j := .onPair .refl
  have hax : j.axis = k.axis := hj.fld _
  have hpf : j.pairedFollower = k.pairedFollower := Stake.pairedFollower_congr hj.regs hj.id
  by_cases hn : (!j.pairedFollower || j.axis = axNotReady) = true
  · rw [if_pos hn]
  · rw [if_neg hn]
    rcases h with h | ⟨h1, h2, h3⟩
    · exact absurd (by rw [hpf]; simp [Stake.pairedFollower, h]) hn
    · rw [if_neg (by simp [← h1, h2, h3]), if_pos (hax.trans h1)]

/-- R218: a VALID clock cell is a measurement of the leader's clock. -/
theorem Stake.clockCell_of {k : Stake} {ws : List Nat} (hv : (nth 0 ws 3).testBit 29 = true)
    (h : k.pairSt ≠ 2 ∨ (k.axis = nth 0 ws 5 % 16 ∧ nth 0 ws 5 / 16 % 4 = 0 ∧ k.axis ≠ axSafe)) :
    (k.clockCell ws).pair.clockValid = true ∧ (k.clockCell ws).pair.mirror = (nth 0 ws 5 % 16, nth 0 ws 5 / 16 % 4) ∧
      (k.clockCell ws).axis = k.axis := by
  unfold Stake.clockCell
  extract_lets w3 w5 valid i j
  have hvalid : valid = true := hv
  have hi : Stake.Only [.pair] k i := .onPair .refl
  have hip : i.pair.clockValid = valid := congrArg PairState.clockValid (k.onPair_pair _)
  have hj : Stake.Eff [.ang] [] i j := by
    simp only [j, hvalid, if_true]
    exact .deliver .refl
  have hjf : ∀ f, j.fld f = k.fld f := fun f => ((hj.regs.fld (by simp)).trans (hi.fld f))
  rw [Stake.mirrorAxis_same (by rwa [Stake.pairSt, Stake.axis, hjf, hjf])]
  have hm : ∀ f, Stake.Only [.pair] j (j.onPair f) := fun f => .onPair .refl
  refine ⟨?_, ?_, ((hm _).fld _).trans (hjf _)⟩
  · rw [Stake.onPair_pair, hj.only.pair, hip, hvalid]
  · rw [Stake.onPair_pair]

/-! The clock cell that is sent. -/

/-- R20, R27: a cell of a class other than streams enters its queue. -/
theorem WalDir.mem_put {w : WalDir} {c : Cell} (hw : w.queues.length = 4) (hc : c.cls < 4) (h2 : c.cls ≠ 2) : c ∈ nth [] (w.put c).queues c.cls := by
  unfold WalDir.put
  rw [if_neg (by simp [h2]), nth_updAt_same _ _ _ _ (by omega)]
  exact List.mem_append_right _ (List.mem_singleton_self _)

theorem Stake.mem_sendCell {k : Stake} {c : Cell} (hw : ∀ d, (k.dir d).queues.length = 4) (hc : c.cls < 4) (h2 : c.cls ≠ 2) :
    ∃ d, c ∈ nth [] ((k.sendCell c).dir d).queues c.cls := by
  unfold Stake.sendCell
  refine ⟨k.way k.ringN c.dest, ?_⟩
  rw [Stake.dir_onDir_same]
  exact WalDir.mem_put (hw _) hc h2

/-- R218: the leader sends its clock every 4,000 ticks. -/
theorem Stake.sendClockCell_of {k : Stake} (hl : k.leads = true) (hs : k.pairSt ≠ 0) (hn : k.pair.nextCell ≤ k.now)
    (hw : ∀ d, (k.dir d).queues.length = 4) :
    k.sendClockCell.pair.nextCell = k.now + 4000 ∧ k.sendClockCell.regs = k.regs ∧
      ∃ d, ∃ c ∈ nth [] (k.sendClockCell.dir d).queues 0, c.kind = 4 ∧ c.dest = partnerOf k.id ∧ c.tag = 0xFFFF ∧
        c.payload.head? = some k.ang.tick.toNat := by
  unfold Stake.sendClockCell
  rw [if_neg (by simp [hl, hs]; omega)]
  extract_lets cl ws
  have hs : Stake.Only [.wal] k (k.sendCell (k.cell (partnerOf k.id) 0 4 0xFFFF ws)) := .sendCell .refl
  obtain ⟨d, hd⟩ := Stake.mem_sendCell (c := k.cell (partnerOf k.id) 0 4 0xFFFF ws) hw (by decide : 0 < 4) (by decide : 0 ≠ 2)
  generalize k.sendCell (k.cell (partnerOf k.id) 0 4 0xFFFF ws) = j at hs hd ⊢
  have hp : ∀ f, Stake.Only [.pair] j (j.onPair f) := fun f => .onPair .refl
  refine ⟨?_, (hp _).regs.trans hs.regs, d, k.cell (partnerOf k.id) 0 4 0xFFFF ws, ?_, rfl, rfl, rfl, rfl⟩
  · rw [Stake.onPair_pair]
  · rw [Stake.dir_congr (hp _).wal]
    exact hd

/-! The update set. -/

theorem Stake.onMod_modu (k : Stake) (f : ModState → ModState) : (k.onMod f).modu = f k.modu := rfl

/-- R176: a set of a pass for a boundary it names waits for it. -/
theorem Stake.closeSet_of {k : Stake} {x : USet} {at_ : Word48} (h0 : x.mask.testBit 0 = false) (h3 : x.mask.testBit 3 = false) :
    Stake.Only [.modu, .regs] k (k.closeSet x at_) ∧
      ∃ l, (k.closeSet x at_).modu.waiting = k.modu.waiting ++ [({ x with closeAt := at_ }, l)] := by
  unfold Stake.closeSet
  extract_lets y late j i t0 first
  rw [if_neg (by simp [y, h0]), if_neg (by simp [y, h3]), if_neg (by simp [y, h0])]
  have hj : j.modu.waiting = k.modu.waiting ++ [(y, late)] := congrArg ModState.waiting (k.onMod_modu _)
  have hi : Stake.Only [.regs] j i := .bump .refl
  exact ⟨.step (.onMod .refl) hi, late, by rw [hi.modu, hj]⟩

/-- R215, R220: what the follower takes of its leader's set. -/
theorem Stake.takeReturned_of {k : Stake} {c0 c1 c2 : List Nat} (h31 : (nth 0 c0 3).testBit 31 = true)
    (h0 : (nth 0 c0 3).testBit 0 = false) (h3 : (nth 0 c0 3).testBit 3 = false) (hp : (k.clockCell c0).pairedFollower = true) :
    ∃ x l r, (k.takeReturned c0 c1 c2).modu.waiting = (k.clockCell c0).modu.waiting ++ [(x, l)] ∧
      x.target = some (wordAt c0 4) ∧ x.va = wordInt c1 0 ∧ x.vb = wordInt c1 1 ∧ x.theta = wordAt c1 5 ∧
      x.closeAt = (k.clockCell c0).ang.tick ∧ (k.takeReturned c0 c1 c2).pair.returned = some r ∧ r.thetaC = wordAt c0 1 := by
  unfold Stake.takeReturned
  extract_lets w3 q flux x r
  have hq : k.clockCell c0 = q := rfl
  rw [hq] at hp ⊢
  clear_value q
  rw [if_neg (by simp [hp, w3, h31])]
  have hq : Stake.Only [.pair] q (q.onPair fun p => { p with returned := some r }) := .onPair .refl
  have hr : (q.onPair fun p => { p with returned := some r }).pair.returned = some r := congrArg PairState.returned (q.onPair_pair _)
  generalize (q.onPair fun p => { p with returned := some r }) = j at hq hr ⊢
  have hmask : ∀ b, b < 7 → x.mask.testBit b = (nth 0 c0 3).testBit b := fun b hb =>
    (Nat.testBit_mod_two_pow (nth 0 c0 3) 7 b).trans (by simp [hb])
  obtain ⟨ho, l, hl⟩ := Stake.closeSet_of (k := j) (at_ := q.ang.tick) ((hmask 0 (by decide)).trans h0) ((hmask 3 (by decide)).trans h3)
  refine ⟨_, l, r, hl.trans (by rw [hq.modu]), rfl, rfl, rfl, rfl, rfl, ?_, rfl⟩
  rw [ho.pair, hr]

/-- Settles O42. -/
theorem pairingTraffic : Obligations.PairingTraffic := by
  unfold Obligations.PairingTraffic
  refine ⟨fun s n c0 hp hl hv h => ?_, fun s n hp hl hs hn hw => ?_, fun s n c0 c1 c2 hp h31 h0 h3 => ?_⟩
  · obtain ⟨t, ht, he, hk⟩ := exec_onStake hp fun k => if k.leads then k else k.clockCell c0
    rw [if_neg (by simp [hl])] at hk
    exact ⟨t, ht, he, hk ▸ Stake.clockCell_of hv h⟩
  · obtain ⟨t, ht, he, hk⟩ := exec_onStake hp Stake.sendClockCell
    exact ⟨t, ht, he, hk ▸ Stake.sendClockCell_of hl hs hn hw⟩
  · intro k hpf
    obtain ⟨x, l, r, hw, h⟩ := Stake.takeReturned_of (c1 := c1) (c2 := c2) h31 h0 h3 hpf
    refine ⟨_, x, l, r, rfl, by simp, ?_⟩
    rw [State.onStake_stake_ne _ (partnerOf_ne n).symm, State.onStake_stake_same hp]
    have ho : ∀ j d f, Stake.Only [.wal] j (j.onDir d f) := fun _ _ _ => .onDir .refl
    rw [(ho _ _ _).modu, (ho _ _ _).pair]
    exact ⟨hw, h⟩

end Sys2Proof.Machine

/-! The operations of the leg link: what a change of a port reads back, and what the start, the failure and the loss of a port do
(R245, R246). -/
namespace Sys2Proof.Machine
set_option Elab.async false

section
variable {k j : Stake} {p : Nat}

theorem Stake.lport_congr (h : j.leg = k.leg) (p : Nat) : j.lport p = k.lport p := by rw [Stake.lport, h, Stake.lport]

theorem Stake.onLeg_leg (k : Stake) (p : Nat) (f : LegPort → LegPort) : (k.onLeg p f).leg = { k.leg with ports := updAt k.leg.ports p f } := rfl

theorem Stake.lport_onLeg (h : p < k.leg.ports.length) (f : LegPort → LegPort) : (k.onLeg p f).lport p = f (k.lport p) := by
  rw [Stake.lport, Stake.onLeg_leg, nth_updAt_same _ _ _ _ h, Stake.lport]

theorem Stake.lport_onLeg_ne {r : Nat} (h : r ≠ p) (f : LegPort → LegPort) : (k.onLeg p f).lport r = k.lport r := by
  rw [Stake.lport, Stake.onLeg_leg, nth_updAt_ne _ _ _ _ _ h, Stake.lport]

theorem Stake.onLeg_ports (k : Stake) (p : Nat) (f : LegPort → LegPort) : (k.onLeg p f).leg.ports.length = k.leg.ports.length := by
  rw [Stake.onLeg_leg]
  exact updAt_length _ _ _

/-- What a change of a port leaves of every port. -/
theorem Stake.lport_onLeg_keep {α : Type} {g : LegPort → α} {f : LegPort → LegPort} (hf : ∀ l, g (f l) = g l) (r : Nat) :
    g ((k.onLeg p f).lport r) = g (k.lport r) := by
  by_cases h : r = p
  · subst h
    by_cases hl : r < k.leg.ports.length
    · rw [Stake.lport_onLeg hl, hf]
    · have hn : ∀ l : List LegPort, ¬r < l.length → nth {} l r = ({} : LegPort) := fun l h => by
        rw [nth, List.getD_eq_default _ _ (Nat.le_of_not_lt h)]
      rw [Stake.lport, Stake.lport, hn _ (by rwa [Stake.onLeg_ports]), hn _ hl]
  · rw [Stake.lport_onLeg_ne h]

/-- The registers that a change of a port's link may write. -/
def legRegs (p : Nat) : List Nat := [Reg.LEG_PORT_STATUS p, Reg.LEG_STATUS] ++ axisRegs

/-- R246: the link of a port. -/
theorem Stake.setLink_eff (hp : p < 4) (st : Nat) : Stake.Eff [.regs] [Reg.LEG_PORT_STATUS p, Reg.LEG_STATUS] k (k.setLink p st) :=
  .put (.put .refl (hm := by clear * - hp; revert p; decide) (ha := by clear * - hp; revert p; decide)) (hm := by clear * - hp; revert p; decide)

theorem Stake.setLink_link (hp : p < 4) {st : Nat} (hst : st < 8) : (k.setLink p st).link p = st := by
  unfold Stake.setLink Stake.link
  extract_lets r
  rw [Stake.fld_put_ne _ _ _ _ (by clear * - hp; revert p; decide), Stake.fld_put_same _ _ _ (by clear * - hp; revert p; decide)]
  exact Nat.mod_eq_of_lt hst

/-- R246: a port fails. -/
theorem Stake.legFail_of (hp : p < 4) {c : Nat} (hc : c < 8) (v : List Nat) :
    Stake.Eff [.regs, .leg, .out, .prt] (legRegs p) k (k.legFail p c v) ∧ (k.legFail p c v).link p = 4 ∧
      (k.legFail p c v).fld (Reg.LEG_PORT_STATUS_CAUSE p) = c ∧
      (if c = 4 then k.posted (k.legFail p c v) .legCfgMismatch 1 (p :: v) else k.posted (k.legFail p c v) .legLinkFail 0 [p, c]) := by
  unfold Stake.legFail
  extract_lets q
  have hq : Stake.Eff [.regs, .leg, .out, .prt] (legRegs p) k q :=
    .onLeg (.put ((k.setLink_eff hp 4).mono (hm := by clear * - hp; revert p; decide)) (hm := by clear * - hp; revert p; decide)
      (ha := by clear * - hp; revert p; decide))
  have hl : q.link p = 4 := ((Stake.Only.onLeg (l := [.leg]) .refl).fld _).trans
    ((Stake.fld_put_ne _ _ _ _ (by clear * - hp; revert p; decide)).trans (Stake.setLink_link hp (by decide)))
  have hcause : q.fld (Reg.LEG_PORT_STATUS_CAUSE p) = c := ((Stake.Only.onLeg (l := [.leg]) .refl).fld _).trans
    ((Stake.fld_put_same _ _ _ (by clear * - hp; revert p; decide)).trans (Nat.mod_eq_of_lt hc))
  have hf : ∀ e x w (f : Fld), f.off = Reg.LEG_PORT_STATUS p → (q.post e x w).fld f = q.fld f := fun e x w f h =>
    Stake.fld_post _ _ _ _ _ (by rw [h]; clear * - hp; revert p; decide)
  have he : ∀ e x w, Stake.Eff [.regs, .leg, .out, .prt] (legRegs p) k (q.post e x w) := fun e x w => .post hq (hm := List.subset_append_right _ _)
  split
  · exact ⟨he _ _ _, (hf _ _ _ _ rfl).trans hl, (hf _ _ _ _ rfl).trans hcause, hq.post_posted _ _ _⟩
  · exact ⟨he _ _ _, (hf _ _ _ _ rfl).trans hl, (hf _ _ _ _ rfl).trans hcause, hq.post_posted _ _ _⟩

/-- R245: a port's link is LOST. -/
theorem Stake.legLost_of (hp : p < 4) : Stake.Eff [.regs, .leg, .out, .prt] (legRegs p) k (k.legLost p) ∧ (k.legLost p).link p = 5 ∧
    k.posted (k.legLost p) .legLinkLoss (k.inForce (Reg.LEG_PORT_CFG_LOSS_CLASS p)) [p] := by
  have hf : ∀ f, Stake.Eff [.regs, .leg, .out, .prt] (legRegs p) k (((k.setLink p 5).put (Reg.LEG_PORT_STATUS_CAUSE p) 5).onLeg p f) := fun f =>
    .onLeg (.put ((k.setLink_eff hp 5).mono (hm := by clear * - hp; revert p; decide)) (hm := by clear * - hp; revert p; decide)
      (ha := by clear * - hp; revert p; decide))
  have hl : ∀ f, (((k.setLink p 5).put (Reg.LEG_PORT_STATUS_CAUSE p) 5).onLeg p f).link p = 5 := fun f =>
    ((Stake.Only.onLeg (l := [.leg]) .refl).fld _).trans
      ((Stake.fld_put_ne _ _ _ _ (by clear * - hp; revert p; decide)).trans (Stake.setLink_link hp (by decide)))
  unfold Stake.legLost
  exact ⟨.post (hf _) (hm := List.subset_append_right _ _),
    (Stake.fld_post _ _ _ _ (Reg.LEG_PORT_STATUS_LINK p) (by clear * - hp; revert p; decide)).trans (hl _), (hf _).post_posted _ _ _⟩

/-- R246, R337: the edge lane of a port. -/
theorem Stake.edgeLane_eff (hp : p < 4) (b : Bool) :
    Stake.Eff [.regs] [Reg.LEG_PORT_STATUS p, Reg.SPL_SUMMARY] k (k.edgeLane p b) :=
  .put (.putB .refl (hm := by clear * - hp; revert p; decide) (ha := by clear * - hp; revert p; decide)) (hm := by clear * - hp; revert p; decide)

theorem Stake.edgeLane_spare (hp : p < 4) (b : Bool) : (k.edgeLane p b).flag (Reg.LEG_PORT_STATUS_SPARE p) = b := by
  unfold Stake.edgeLane
  extract_lets e
  rw [Stake.flag, Stake.fld_put_ne _ _ _ _ (by clear * - hp; revert p; decide)]
  exact Stake.flag_putB_same _ _ _ (by clear * - hp; revert p; decide) rfl

/-- R246: what the start of a port keeps of it, and the times it sets. -/
def LegPort.restart (q : LegPort) (now : Nat) : LegPort :=
  { mainBad := q.mainBad, noDriver := q.noDriver, lastPulse := now, started := now, lastIn := now, offSince := q.offSince,
    refEnd := q.refEnd, tempEver := q.tempEver, rd := q.rd, word := q.word, lastOut := q.lastOut }

/-- The registers a start of a port may write. -/
def startRegs (p : Nat) : List Nat := Reg.SPL_SUMMARY :: legRegs p

/-- R246, R269: a port's registers as it starts. -/
def Stake.startLane (k : Stake) (p : Nat) : Stake :=
  ((k.edgeLane p (k.lport p).mainBad).put (Reg.LEG_PORT_STATUS_CAUSE p) 0).putB (Reg.LEG_PORT_STATUS_TEST_FAIL p) false

/-- R246: a port starts, or fails with neither driver. -/
def Stake.startLink (k : Stake) (p : Nat) : Stake := if (k.lport p).noDriver then k.legFail p 6 else k.setLink p 1

theorem Stake.legStart_eq (k : Stake) (p : Nat) : k.legStart p = ((k.onLeg p (·.restart k.now)).startLane p).startLink p := rfl

theorem Stake.startLane_of (hp : p < 4) : Stake.Eff [.regs] (startRegs p) k (k.startLane p) ∧
    (k.startLane p).flag (Reg.LEG_PORT_STATUS_SPARE p) = (k.lport p).mainBad := by
  unfold Stake.startLane
  refine ⟨.putB (.put ((k.edgeLane_eff hp _).mono (hm := by revert p; decide)) (hm := by revert p; decide)
      (ha := by revert p; decide)) (hm := by revert p; decide) (ha := by revert p; decide), ?_⟩
  rw [Stake.flag, Stake.fld_putB_ne _ _ _ _ (by revert p; decide), Stake.fld_put_ne _ _ _ _ (by revert p; decide)]
  exact Stake.edgeLane_spare hp _

theorem Stake.startLink_of (hp : p < 4) : Stake.Eff [.regs, .leg, .out, .prt] (legRegs p) k (k.startLink p) ∧
    (k.startLink p).link p = (if (k.lport p).noDriver then 4 else 1) ∧
    ((k.lport p).noDriver = false → (k.startLink p).flag (Reg.LEG_PORT_STATUS_SPARE p) = k.flag (Reg.LEG_PORT_STATUS_SPARE p) ∧
      (k.startLink p).leg = k.leg) := by
  unfold Stake.startLink
  cases hn : (k.lport p).noDriver with
  | true =>
    obtain ⟨he, hl, _⟩ := k.legFail_of hp (by decide : 6 < 8) []
    simp only [if_true]
    exact ⟨he, hl, nofun⟩
  | false =>
    have he := k.setLink_eff hp 1
    simp only [Bool.false_eq_true, if_false]
    refine ⟨he.mono (hm := by clear * - hp; revert p; decide), Stake.setLink_link hp (by decide), fun _ => ⟨?_, he.only.leg⟩⟩
    unfold Stake.setLink
    extract_lets r
    rw [Stake.flag, Stake.flag, Stake.fld_put_ne _ _ _ _ (by clear * - hp; revert p; decide), Stake.fld_put_ne _ _ _ _ (by clear * - hp; revert p; decide)]

/-- R246, R269: a port starts. -/
theorem Stake.legStart_of (hp : p < 4) : Stake.Eff [.regs, .leg, .out, .prt] (startRegs p) k (k.legStart p) ∧
    (k.legStart p).link p = (if (k.lport p).noDriver then 4 else 1) ∧
    ((k.lport p).noDriver = false → (k.legStart p).flag (Reg.LEG_PORT_STATUS_SPARE p) = (k.lport p).mainBad ∧
      (k.legStart p).leg = (k.onLeg p (·.restart k.now)).leg) := by
  have hr : ((k.onLeg p (·.restart k.now)).lport p).noDriver = (k.lport p).noDriver :=
    Stake.lport_onLeg_keep (g := LegPort.noDriver) (f := (·.restart k.now)) (fun _ => rfl) p
  have hb : ((k.onLeg p (·.restart k.now)).lport p).mainBad = (k.lport p).mainBad :=
    Stake.lport_onLeg_keep (g := LegPort.mainBad) (f := (·.restart k.now)) (fun _ => rfl) p
  have h0 : Stake.Eff [.regs, .leg, .out, .prt] (startRegs p) k (k.onLeg p (·.restart k.now)) := .onLeg .refl
  rw [Stake.legStart_eq]
  generalize k.onLeg p (·.restart k.now) = q at hr hb h0 ⊢
  obtain ⟨h1, hs⟩ := q.startLane_of hp
  obtain ⟨h2, hl, hn⟩ := (q.startLane p).startLink_of hp
  rw [Stake.lport_congr h1.only.leg, hr] at hl hn
  exact ⟨h0.trans ((h1.mono (hm := List.Subset.refl _)).trans (h2.mono (hm := List.subset_cons_self _ _))), hl,
    fun h => ⟨(hn h).1.trans (hs.trans hb), (hn h).2.trans h1.only.leg⟩⟩

/-- R246: a port stops. -/
theorem Stake.legStop_of (hp : p < 4) : Stake.Eff [.regs, .leg, .modu] (legRegs p) k (k.legStop p) ∧ (k.legStop p).link p = 0 := by
  unfold Stake.legStop
  extract_lets q i
  have hq : Stake.Eff [.regs, .leg, .modu] (legRegs p) k q :=
    .onPort ((k.setLink_eff hp 0).mono (hm := by clear * - hp; revert p; decide))
  have hql : q.link p = 0 := ((Stake.Only.onPort (l := [.modu]) .refl).fld _).trans (Stake.setLink_link hp (by decide))
  have hi : Stake.Eff [.regs, .leg, .modu] (legRegs p) k i :=
    .putB (.putB hq (hm := by clear * - hp; revert p; decide) (ha := by clear * - hp; revert p; decide))
      (hm := by clear * - hp; revert p; decide) (ha := by clear * - hp; revert p; decide)
  have hil : i.link p = 0 := (Stake.fld_putB_ne _ _ _ _ (by clear * - hp; revert p; decide)).trans
    ((Stake.fld_putB_ne _ _ _ _ (by clear * - hp; revert p; decide)).trans hql)
  exact ⟨.onLeg hi, ((Stake.Only.onLeg (l := [.leg]) .refl).fld _).trans hil⟩

end

end Sys2Proof.Machine

/-! Keep-alive, frames, NEXT frames, loss, start and stop of a leg link (R234, R241, R244 to R246, R263). -/
namespace Sys2Proof.Machine
set_option Elab.async false

section
variable {k j : Stake} {p : Nat}

/-- R234: a keep-alive pulse. -/
theorem Stake.keepAlive_of (hp : p < 4) (hl : p < k.leg.ports.length) (hk : k.link p ≠ 0)
    (hn : (k.lport p).lastPulse + 800 + (match (k.lport p).pulse with | some x => if x.2.1.fine = 0 then 0 else 1 | none => 0) ≤ k.now)
    (hr : (k.mport p).seized = false → ∀ r ∈ (k.mport p).recs, reached r.at_.tick (k.ang.tick + 16) = true)
    (hg : (k.mport p).seized = true → ∀ g ∈ k.prt.gen, g.port = p → k.now + 60 ≤ g.at_) :
    ((k.keepAlive p).lport p).pulse = some (none, ⟨k.ang.tick, 0⟩, 0) ∧ ((k.keepAlive p).lport p).lastPulse = k.now ∧
      k.keepAlive p = { k with leg := (k.keepAlive p).leg } := by
  have hs : (if (k.mport p).seized then k.prt.gen.any fun g => g.port = p && g.at_ < k.now + 60
      else (k.mport p).recs.any fun r => !reached r.at_.tick (k.ang.tick + 16)) = false := by
    cases hz : (k.mport p).seized with
    | true => simpa using fun g h hp => hg hz g h hp
    | false => simpa using hr hz
  have he : k.keepAlive p = k.onLeg p fun l => { l with lastPulse := k.now, pulse := some (none, k.nowI, 0) } := by
    unfold Stake.keepAlive
    extract_lets q soon l part
    have hsoon : soon = false := hs
    rw [if_neg]
    simp only [hsoon, Bool.or_eq_true, decide_eq_true_eq, Bool.false_eq_true, not_or, or_false]
    exact ⟨⟨hk, Nat.not_lt.mpr hn⟩, Nat.not_le.mpr hp⟩
  rw [he, Stake.lport_onLeg hl]
  exact ⟨rfl, rfl, rfl⟩

/-! Frames. -/

theorem pickFrame_mem {l : List LegFrame} {f : LegFrame} (h : pickFrame l = some f) : f ∈ l := by
  induction l with
  | nil => cases h
  | cons a t ih =>
    unfold pickFrame at h
    split at h
    · cases h
      exact List.mem_cons_self
    · next b hb =>
      split at h
      · cases h
        exact List.mem_cons_self
      · cases h
        exact List.mem_cons_of_mem _ (ih hb)

theorem LegFrame.prio_of_not_mode {f : LegFrame} (h : f.isMode = false) : f.prio ≠ 0 := by
  cases f with
  | mode => cases h
  | _ => simp [LegFrame.prio]

theorem LegPort.tell_out (l : LegPort) (f : LegFrame) : (l.tell f).out = l.out := by cases f <;> rfl

theorem LegPort.tell_nextFor (l : LegPort) (f : LegFrame) : (l.tell f).nextFor = l.nextFor := by cases f <;> rfl

/-- R246: a port becomes READY as its ARM leaves. -/
def Stake.armed (k : Stake) (p : Nat) : Stake :=
  ((k.setLink p 3).onLeg p fun l =>
    { l with kOff := 0, attempts := 0, miss := 0, expect := [], gateRun := 0, lastIn := k.now, nextFor := none, tempSeen := false }).post .legLinkUp 0 [p]

theorem Stake.armed_of (hp : p < 4) : (k.armed p).link p = 3 ∧ k.posted (k.armed p) .legLinkUp 0 [p] ∧
    ∀ (α : Type) (g : LegPort → α), (∀ l n, g { l with kOff := 0, attempts := 0, miss := 0, expect := [], gateRun := 0, lastIn := n, nextFor := none, tempSeen := false } = g l) →
      g ((k.armed p).lport p) = g (k.lport p) := by
  have he : ∀ f, Stake.Eff [.regs, .leg] [Reg.LEG_PORT_STATUS p, Reg.LEG_STATUS] k ((k.setLink p 3).onLeg p f) :=
    fun f => .onLeg (.mono (k.setLink_eff hp 3) (hm := List.Subset.refl _))
  have hl : ∀ f, ((k.setLink p 3).onLeg p f).link p = 3 := fun f =>
    ((Stake.Only.onLeg (l := [.leg]) .refl).fld _).trans (Stake.setLink_link hp (by decide))
  unfold Stake.armed
  refine ⟨(Stake.fld_post _ _ _ _ (Reg.LEG_PORT_STATUS_LINK p) (by clear * - hp; revert p; decide)).trans (hl _), (he _).post_posted _ _ _,
    fun α g hg => ?_⟩
  have h1 := Stake.lport_onLeg_keep (k := k.setLink p 3) (p := p) (g := g) (hg · k.now) p
  rw [Stake.lport_congr (k.setLink_eff hp 3).only.leg] at h1
  rw [← h1, Stake.lport_congr (Stake.Only.post_only _ _ _ _).leg]

/-- R241, R246: a frame that leaves. -/
theorem Stake.putFrame_of (hp : p < 4) (hl : p < k.leg.ports.length) (f : LegFrame) :
    ((k.putFrame p f).lport p).word = f.word ∧ ((k.putFrame p f).lport p).out = (k.lport p).out ∧
      (f ≠ .arm → ((k.putFrame p f).lport p).nextFor = (k.lport p).nextFor) ∧
      (f = .arm → k.link p = 2 → (k.putFrame p f).link p = 3 ∧ k.posted (k.putFrame p f) .legLinkUp 0 [p]) := by
  unfold Stake.putFrame
  extract_lets q
  have hq : Stake.Eff [.leg] [] k q := .onLeg .refl
  have hql : (q.lport p).word = f.word ∧ (q.lport p).out = (k.lport p).out ∧ (q.lport p).nextFor = (k.lport p).nextFor := by
    simp only [q, Stake.lport_onLeg hl]
    exact ⟨trivial, LegPort.tell_out _ _, LegPort.tell_nextFor _ _⟩
  have hqk : q.link p = k.link p := hq.only.fld _
  clear_value q
  obtain ⟨hw, ho, hn⟩ := hql
  by_cases hf : f = .arm
  · subst hf
    dsimp only
    by_cases h2 : q.link p = 2
    · rw [if_neg (by simpa using h2)]
      obtain ⟨h3, hpost, hg⟩ := q.armed_of hp
      exact ⟨(hg _ LegPort.word fun _ _ => rfl).trans hw, (hg _ LegPort.out fun _ _ => rfl).trans ho, fun h => absurd rfl h,
        fun _ _ => ⟨h3, hq.posted hpost⟩⟩
    · rw [if_pos h2]
      exact ⟨hw, ho, fun _ => hn, fun _ h => absurd (hqk.trans h) h2⟩
  · cases f with
    | arm => exact absurd rfl hf
    | _ => exact ⟨hw, ho, fun _ => hn, fun h => absurd h hf⟩

/-- R244: with no NEXT due the frame of lowest number leaves, and a heartbeat when none waits. -/
theorem Stake.wordOut_of (hp : p < 4) (hl : p < k.leg.ports.length) (hk : 2 ≤ k.link p) (ht : (k.lport p).lastOut + 80 ≤ k.now)
    (hn : k.nextFrame p = none) :
    (∀ f, pickFrame (k.lport p).out = some f → ((k.wordOut p).lport p).word = f.word ∧
        ((k.wordOut p).lport p).out = (k.lport p).out.erase f ∧
        (f = .arm → k.link p = 2 → (k.wordOut p).link p = 3 ∧ k.posted (k.wordOut p) .legLinkUp 0 [p])) ∧
      ((k.lport p).out = [] → (k.lport p).lastOut + 1600 ≤ k.now →
        ((k.wordOut p).lport p).word = (LegFrame.heartbeat (k.lport p).hb).word) := by
  have hc : ¬(Decidable.decide (k.link p < 2) || Decidable.decide (k.now < (k.lport p).lastOut + 80)) = true := by simp; omega
  unfold Stake.wordOut
  extract_lets l
  rw [if_neg hc, hn]
  refine ⟨fun f hf => ?_, fun ho hh => ?_⟩
  · rw [hf]
    dsimp only
    have hq : Stake.Eff [.leg] [] k (k.onLeg p fun q => { q with out := q.out.erase f }) := .onLeg .refl
    have hqo : ((k.onLeg p fun q => { q with out := q.out.erase f }).lport p).out = (k.lport p).out.erase f :=
      congrArg LegPort.out (Stake.lport_onLeg hl _)
    have hqn : p < (k.onLeg p fun q => { q with out := q.out.erase f }).leg.ports.length := by rwa [Stake.onLeg_ports]
    generalize (k.onLeg p fun q => { q with out := q.out.erase f }) = q at hq hqo hqn ⊢
    obtain ⟨h1, h2, _, h4⟩ := q.putFrame_of hp hqn f
    exact ⟨h1, h2.trans hqo, fun ha h => ⟨(h4 ha ((hq.only.fld _).trans h)).1, hq.posted (h4 ha ((hq.only.fld _).trans h)).2⟩⟩
  · rw [show pickFrame l.out = none by rw [show l.out = [] from ho, pickFrame]]
    dsimp only
    rw [if_neg (Nat.not_lt.mpr hh)]
    exact (Stake.putFrame_of hp (by rwa [Stake.onLeg_ports]) _).1

theorem Stake.nextFrame_ne_arm {x : Instant} {f : LegFrame} (h : k.nextFrame p = some (f, x)) : f ≠ .arm := by
  unfold Stake.nextFrame at h
  extract_lets l at h
  split at h
  · cases h
  · split at h
    · cases h
    · extract_lets high lead at h
      split at h
      · cases h
      · cases h
        nofun

/-- R244, R250: a NEXT goes before all but a MODE. -/
theorem Stake.wordOut_next {f : LegFrame} {x : Instant} (hp : p < 4) (hl : p < k.leg.ports.length) (hk : 2 ≤ k.link p)
    (ht : (k.lport p).lastOut + 80 ≤ k.now) (hn : k.nextFrame p = some (f, x)) (hm : ∀ g ∈ (k.lport p).out, g.isMode = false) :
    ((k.wordOut p).lport p).word = f.word ∧ ((k.wordOut p).lport p).nextFor = some x ∧ ((k.wordOut p).lport p).out = (k.lport p).out := by
  have hc : ¬(Decidable.decide (k.link p < 2) || Decidable.decide (k.now < (k.lport p).lastOut + 80)) = true := by simp; omega
  have he : k.wordOut p = (k.onLeg p fun q => { q with nextFor := some x }).putFrame p f := by
    unfold Stake.wordOut
    extract_lets l
    rw [if_neg hc, hn]
    cases hf : pickFrame l.out with
    | none => rfl
    | some g => exact if_neg (LegFrame.prio_of_not_mode (hm g (pickFrame_mem hf)))
  have hx : ((k.onLeg p fun q => { q with nextFor := some x }).lport p).nextFor = some x := congrArg LegPort.nextFor (Stake.lport_onLeg hl _)
  have ho : ((k.onLeg p fun q => { q with nextFor := some x }).lport p).out = (k.lport p).out :=
    Stake.lport_onLeg_keep (g := LegPort.out) (f := fun q => { q with nextFor := some x }) (fun _ => rfl) p
  obtain ⟨h1, h2, h3, -⟩ := (k.onLeg p fun q => { q with nextFor := some x }).putFrame_of hp (by rwa [Stake.onLeg_ports]) f
  rw [he]
  exact ⟨h1, (h3 (Stake.nextFrame_ne_arm hn)).trans hx, h2.trans ho⟩

/-! Silence. -/

/-- R263: a missing EVENT, the third in succession losing the link. -/
theorem Stake.missEvent_of {at_ : Nat} {sym : Symb} {rest : List (Symb × Nat)} (hp : p < 4) (hl : p < k.leg.ports.length)
    (he : (k.lport p).expect = (sym, at_) :: rest) (hr : k.link p = 3) (ht : at_ + 1600 ≤ k.now) :
    (k.missEvent p).rd (Reg.LEG_PORT_EVT_MISS_CNT p) = satAdd 16 (k.rd (Reg.LEG_PORT_EVT_MISS_CNT p)) 1 ∧
      if 2 ≤ (k.lport p).miss then (k.missEvent p).link p = 5
      else (k.missEvent p).link p = 3 ∧ ((k.missEvent p).lport p).expect = rest := by
  unfold Stake.missEvent
  rw [he]
  dsimp only
  rw [if_neg (by simp [Stake.portReady, hr]; omega)]
  have hb : (k.bump (Reg.LEG_PORT_EVT_MISS_CNT p)).rd (Reg.LEG_PORT_EVT_MISS_CNT p) = satAdd 16 (k.rd (Reg.LEG_PORT_EVT_MISS_CNT p)) 1 :=
    Stake.rd_bump_same _ _
  have hbl : (k.bump (Reg.LEG_PORT_EVT_MISS_CNT p)).link p = 3 := (Stake.fld_bump_ne _ _ _ (by clear * - hp; revert p; decide)).trans hr
  have hbg : (k.bump (Reg.LEG_PORT_EVT_MISS_CNT p)).leg = k.leg := (Stake.Only.bump (l := [.regs]) .refl).leg
  generalize k.bump (Reg.LEG_PORT_EVT_MISS_CNT p) = q at hb hbl hbg ⊢
  have hm : ∀ f, Stake.Only [.leg] q (q.onLeg p f) := fun _ => .onLeg .refl
  by_cases h2 : 2 ≤ (k.lport p).miss
  · rw [if_pos h2, if_pos (by omega)]
    obtain ⟨hL, hl5, _⟩ := (q.onLeg p fun l => { l with expect := rest, miss := (k.lport p).miss + 1 }).legLost_of hp
    exact ⟨(hL.regs _ (by clear * - hp; revert p; decide)).trans (((hm _).rd _).trans hb), hl5⟩
  · rw [if_neg h2, if_neg (by omega)]
    refine ⟨((hm _).rd _).trans hb, ((hm _).fld _).trans hbl, ?_⟩
    rw [Stake.lport_onLeg (by rwa [hbg])]

/-! The enable bit. -/

/-- The bit a register's row lets be written is stored as written. -/
theorem Stake.flag_store {r : RegD} {f : Fld} (hr : regAt f.off = some r) (hc : (counterWidth r).isSome = false) (hb : r.base ≠ Reg.ANG_TICK_STATUS)
    (hm : (r.mask .rw).getLsbD f.lo = true) (h1 : (r.mask .w1c).getLsbD f.lo = false) (hw : f.w = 1) (hlo : f.lo < 32) (w : Reg32) :
    (k.store f.off w).flag f = w.getLsbD f.lo := by
  unfold Stake.store
  rw [hr]
  dsimp only
  rw [Stake.flag_wr _ f hw]
  simp [RegD.merge, RegD.clear, hc, hb, (BitVec.getLsbD_eq_getElem hlo).symm.trans hm, (BitVec.getLsbD_eq_getElem hlo).symm.trans h1, hlo]

/-- What one step of a fold over ports settles of a port, where the others leave what it depends on. -/
theorem foldl_at {α β : Type} {g : β → Nat → β} {v : β → α} {F : α → α} {i : Nat} (hne : ∀ b x, x ∈ [0, 1, 2, 3] → x ≠ i → v (g b x) = v b)
    (hi : ∀ b, v (g b i) = F (v b)) (h4 : i < 4) (b : β) : v ([0, 1, 2, 3].foldl g b) = F (v b) := by
  obtain rfl | rfl | rfl | rfl : i = 0 ∨ i = 1 ∨ i = 2 ∨ i = 3 := by omega
  all_goals simp [hi, hne]

/-- R246: a failing port keeps what its start keeps. -/
theorem Stake.legFail_keep {α : Type} {g : LegPort → α} (hg : ∀ l : LegPort, g { l with out := [], expect := [], test := none, sums := [] } = g l)
    (p c : Nat) (v : List Nat) (r : Nat) : g ((k.legFail p c v).lport r) = g (k.lport r) := by
  have hs : ((k.setLink p 4).put (Reg.LEG_PORT_STATUS_CAUSE p) c).leg = k.leg := rfl
  have h1 := Stake.lport_onLeg_keep (k := (k.setLink p 4).put (Reg.LEG_PORT_STATUS_CAUSE p) c) (p := p) hg r
  rw [Stake.lport_congr hs] at h1
  unfold Stake.legFail
  extract_lets q
  split
  · rw [Stake.lport_congr (Stake.Only.post_only q _ _ _).leg, h1]
  · rw [Stake.lport_congr (Stake.Only.post_only q _ _ _).leg, h1]

theorem Stake.legStart_noDriver (hp : p < 4) (r : Nat) : ((k.legStart p).lport r).noDriver = (k.lport r).noDriver := by
  have hr : ((k.onLeg p (·.restart k.now)).lport r).noDriver = (k.lport r).noDriver :=
    Stake.lport_onLeg_keep (g := LegPort.noDriver) (f := (·.restart k.now)) (fun _ => rfl) r
  rw [Stake.legStart_eq]
  generalize k.onLeg p (·.restart k.now) = q at hr ⊢
  have hl : (q.startLane p).lport r = q.lport r := Stake.lport_congr (q.startLane_of hp).1.only.leg r
  rw [← hr, ← hl]
  unfold Stake.startLink
  split
  · exact Stake.legFail_keep (g := LegPort.noDriver) (fun _ => rfl) p 6 [] r
  · rw [Stake.lport_congr ((q.startLane p).setLink_eff hp 1).only.leg]

/-- R271: what a refused write shows. -/
theorem Stake.legRefuse_of (v : List Nat) : Stake.Eff [.regs, .out, .prt] [Reg.LEG_STATUS] k (k.legRefuse v) ∧
    (k.legRefuse v).flag Reg.LEG_STATUS_CFG_REFUSED = true ∧ k.posted (k.legRefuse v) .legCfgRefused 0 v := by
  have h : Stake.Eff [.regs, .out, .prt] [Reg.LEG_STATUS] k (k.putB Reg.LEG_STATUS_CFG_REFUSED true) := .putB .refl
  unfold Stake.legRefuse
  refine ⟨.post_zero h, ?_, h.post_posted _ _ _⟩
  rw [Stake.flag_post _ _ _ _ Reg.LEG_STATUS_CFG_REFUSED]
  exact Stake.flag_putB_same _ _ _ (by decide) rfl

/-- R246: every fitted port starts. -/
def Stake.startPorts (k : Stake) : Stake := [0, 1, 2, 3].foldl (fun q p => if q.portPresent p then q.legStart p else q) k

theorem link_not_start : ∀ r < 4, ∀ p < 4, r ≠ p → Reg.LEG_PORT_STATUS p ∉ startRegs r := by decide

/-- What a port's start depends on. -/
def Stake.startView (k : Stake) (p : Nat) : Nat × Bool × Bool := (k.link p, (k.lport p).noDriver, k.portPresent p)

theorem Stake.startPorts_link (hp : p < 4) :
    k.startPorts.link p = (if k.portPresent p then (if (k.lport p).noDriver then 4 else 1) else k.link p) := by
  have hv : k.startPorts.startView p =
      (fun x : Nat × Bool × Bool => (if x.2.2 then (if x.2.1 then 4 else 1) else x.1, x.2)) (k.startView p) := by
    refine foldl_at (g := fun q p => if q.portPresent p then q.legStart p else q) (v := fun q => q.startView p)
      (F := fun x => (if x.2.2 then (if x.2.1 then 4 else 1) else x.1, x.2)) (fun q r hr hne => ?_) (fun q => ?_) hp k
    · split
      · have h4 : r < 4 := by simp at hr; omega
        have he := (q.legStart_of h4).1
        unfold Stake.startView
        rw [Stake.legStart_noDriver h4, Stake.portPresent, he.only.inForceB, Stake.portPresent, Stake.link,
          he.regs.fld (f := Reg.LEG_PORT_STATUS_LINK p) (link_not_start _ h4 _ hp hne), Stake.link]
      · rfl
    · by_cases hpr : q.portPresent p = true
      · obtain ⟨he, hl, _⟩ := q.legStart_of hp
        rw [if_pos hpr]
        unfold Stake.startView
        rw [Stake.legStart_noDriver hp, Stake.portPresent, he.only.inForceB, ← Stake.portPresent, hl]
        simp [hpr]
      · rw [if_neg hpr]
        simp [Stake.startView, hpr]
  exact congrArg Prod.fst hv

theorem Stake.startPorts_en (k : Stake) : k.startPorts.flag Reg.LEG_CTRL_EN = k.flag Reg.LEG_CTRL_EN := by
  refine foldl_kept (P := fun q : Stake => q.flag Reg.LEG_CTRL_EN = k.flag Reg.LEG_CTRL_EN) _ rfl fun q r hr hq => ?_
  split
  · have h4 : r < 4 := by simp at hr; omega
    exact ((q.legStart_of h4).1.regs.flag (by clear * - h4; revert r; decide)).trans hq
  · exact hq

theorem Stake.stopPorts_of (k : Stake) : ([0, 1, 2, 3].foldl Stake.legStop k).flag Reg.LEG_CTRL_EN = k.flag Reg.LEG_CTRL_EN ∧
    ∀ p < 4, ([0, 1, 2, 3].foldl Stake.legStop k).link p = 0 := by
  refine ⟨?_, fun p hp => ?_⟩
  · refine foldl_kept (P := fun q : Stake => q.flag Reg.LEG_CTRL_EN = k.flag Reg.LEG_CTRL_EN) _ rfl fun q r hr hq => ?_
    have h4 : r < 4 := by simp at hr; omega
    exact ((q.legStop_of h4).1.regs.flag (by clear * - h4; revert r; decide)).trans hq
  · refine foldl_at (v := fun q : Stake => q.link p) (F := fun _ => 0) (fun q r hr hne => ?_) (fun q => (q.legStop_of hp).2) hp k
    have h4 : r < 4 := by simp at hr; omega
    exact (q.legStop_of h4).1.regs.fld (f := Reg.LEG_PORT_STATUS_LINK p)
      fun h => link_not_start _ h4 _ hp hne (List.mem_cons_of_mem _ h)

theorem Stake.store_legCtrl (k : Stake) (w : Reg32) : Stake.Only [.regs] k (k.store Reg.LEG_CTRL w) ∧
    (k.store Reg.LEG_CTRL w).flag Reg.LEG_CTRL_EN = w.getLsbD 31 ∧
    ∀ p < 4, (k.store Reg.LEG_CTRL w).link p = k.link p := by
  obtain ⟨r, hr, hc, hb, hm, h1⟩ : ∃ r, regAt Reg.LEG_CTRL = some r ∧ (counterWidth r).isSome = false ∧ r.base ≠ Reg.ANG_TICK_STATUS ∧
      (r.mask .rw).getLsbD 31 = true ∧ (r.mask .w1c).getLsbD 31 = false :=
    ⟨_, rfl, by decide +kernel, by decide +kernel, by decide +kernel, by decide +kernel⟩
  exact ⟨.store_only k _ w, Stake.flag_store (f := Reg.LEG_CTRL_EN) hr hc hb hm h1 rfl (by decide) w,
    fun p hp => (k.store_regsKept _ w).fld (f := Reg.LEG_PORT_STATUS_LINK p) (by clear * - hp; revert p; decide)⟩

theorem Stake.wLegCtrl_enable {w : Reg32} (h31 : w.getLsbD 31 = true) (h0 : w.getLsbD 0 = false) (he : k.flag Reg.LEG_CTRL_EN = false) :
    k.wLegCtrl w = (k.store Reg.LEG_CTRL w).startPorts := by
  unfold Stake.wLegCtrl
  simp only [h31, h0, he]
  rfl

theorem Stake.wLegCtrl_disable {w : Reg32} (h31 : w.getLsbD 31 = false) (h0 : w.getLsbD 0 = false) (he : k.flag Reg.LEG_CTRL_EN = true) :
    k.wLegCtrl w = if k.axisIn [axOff, axSafe] then [0, 1, 2, 3].foldl Stake.legStop (k.store Reg.LEG_CTRL w) else k.legRefuse := by
  unfold Stake.wLegCtrl
  simp only [h31, h0, he]
  cases k.axisIn [axOff, axSafe] <;> rfl

end

/-- Settles O46. -/
theorem legLinks : Obligations.LegLinks := by
  unfold Obligations.LegLinks
  refine ⟨fun s n p hs hp hl hk => ?_, fun s n p hs hp hl hk ht hn => ?_, fun s n p f x hs hp hl hk ht hn hm => ?_,
    fun s n p hs hp hk ht => ?_, fun s n p hs hp hk ht => ?_, fun s n p at_ sym rest hs hp hl he hk ht => ?_,
    fun s n src w ha h31 h0 he => ?_, fun s n src w ha h31 h0 he => ?_⟩
  · intro k part hn hr hg
    obtain ⟨t, ht, he, hj⟩ := exec_onStake hs fun k => k.keepAlive p
    obtain ⟨h1, h2, h3⟩ := Stake.keepAlive_of hp hl hk hn hr hg
    exact ⟨t, ht, he, hj ▸ h1, hj ▸ h2, hj ▸ h3⟩
  · obtain ⟨t, ht', he, hj⟩ := exec_onStake hs fun k => k.wordOut p
    exact ⟨t, ht', he, hj ▸ Stake.wordOut_of hp hl hk ht hn⟩
  · obtain ⟨t, ht', he, hj⟩ := exec_onStake hs fun k => k.wordOut p
    exact ⟨t, ht', he, hj ▸ Stake.wordOut_next hp hl hk ht hn hm⟩
  · obtain ⟨t, ht', he, hj⟩ := exec_onStake hs fun k =>
      if (k.link p = 2 || k.link p = 3) && (k.lport p).lastIn + 8000 ≤ k.now then k.legLost p else k
    rw [if_pos (by simp [hk, ht])] at hj
    exact ⟨t, ht', he, hj ▸ (Stake.legLost_of hp).2⟩
  · obtain ⟨t, ht', he, hj⟩ := exec_onStake hs fun k =>
      if k.link p = 1 && (k.lport p).started + 400000 * k.fld Reg.LEG_CTRL_T_LINK ≤ k.now then k.legFail p 1 else k
    rw [if_pos (by simp [hk, ht])] at hj
    exact ⟨t, ht', he, hj ▸ (Stake.legFail_of hp (by decide) []).2⟩
  · obtain ⟨t, ht', he', hj⟩ := exec_onStake hs fun k => k.missEvent p
    exact ⟨t, ht', he', hj ▸ Stake.missEvent_of hp hl he hk ht⟩
  · obtain ⟨t, ht, he', hj⟩ := exec_stakeWrite ha fun k => if w.getLsbD 31 then k.wLegCtrl w else k
    rw [if_pos h31, Stake.wLegCtrl_enable h31 h0 he] at hj
    obtain ⟨ho, hen, hlk⟩ := (s.stake n).store_legCtrl w
    refine ⟨t, ht, he', ?_, fun p hp _ => ?_⟩
    · rw [hj, Stake.startPorts_en, hen, h31]
    · rw [hj, Stake.startPorts_link hp, hlk p hp, Stake.portPresent, ho.inForceB, ← Stake.portPresent, Stake.lport_congr ho.leg]
  · obtain ⟨t, ht, he', hj⟩ := exec_stakeWrite ha fun k => if w.getLsbD 31 then k else k.wLegCtrl w
    rw [if_neg (ne_true_of_eq_false h31), Stake.wLegCtrl_disable h31 h0 he] at hj
    refine ⟨t, ht, he', ?_⟩
    by_cases hq : (s.stake n).axisIn [axOff, axSafe] = true
    · rw [if_pos hq] at hj ⊢
      obtain ⟨h1, h2⟩ := Stake.stopPorts_of ((s.stake n).store Reg.LEG_CTRL w)
      rw [hj]
      exact ⟨h1.trans (((s.stake n).store_legCtrl w).2.1.trans h31), h2⟩
    · rw [if_neg hq] at hj ⊢
      obtain ⟨h1, h2, h3⟩ := Stake.legRefuse_of (k := s.stake n) []
      rw [hj]
      exact ⟨(h1.regs.flag (by decide)).trans he, h2, h1.only.leg, h3⟩

end Sys2Proof.Machine

/-! Commands, profile writes, APPLY and refresh of a leg port (R246, R253, R262, R264, R265, R268, R269, R271). -/
namespace Sys2Proof.Machine
set_option Elab.async false

section
variable {k j : Stake} {p : Nat} {w : Reg32}

/-! The commands of a port. -/

theorem cmdBits {v : Reg32} (h : w &&& 0x1F = v) : w.getLsbD 0 = v.getLsbD 0 ∧ w.getLsbD 1 = v.getLsbD 1 ∧ w.getLsbD 2 = v.getLsbD 2 ∧
    w.getLsbD 3 = v.getLsbD 3 ∧ w.getLsbD 4 = v.getLsbD 4 := by
  have h5 : ∀ i < 5, w.getLsbD i = v.getLsbD i := fun i hi => by
    have hm : ∀ i < 5, (0x1F : Reg32).getLsbD i = true := by decide
    rw [← h, BitVec.getLsbD_and, hm i hi, Bool.and_true]
  exact ⟨h5 0 (by decide), h5 1 (by decide), h5 2 (by decide), h5 3 (by decide), h5 4 (by decide)⟩

/-- What a write of one command does. -/
theorem Stake.wLegCmd_restart (h : w &&& 0x1F = 1) : k.wLegCmd p w =
    if !k.axisIn [axOff, axSafe] then k.legRefuse [p] else if k.flag Reg.LEG_CTRL_EN && k.portPresent p then k.legStart p else k := by
  unfold Stake.wLegCmd
  obtain ⟨h0, h1, h2, h3, h4⟩ : w.getLsbD 0 = true ∧ w.getLsbD 1 = false ∧ w.getLsbD 2 = false ∧ w.getLsbD 3 = false ∧ w.getLsbD 4 = false := cmdBits h
  simp only [h0, h1, h2, h3, h4, Bool.not_true, Bool.not_false, if_true, Bool.false_eq_true, if_false, Bool.false_and]

theorem Stake.wLegCmd_clear (h : w &&& 0x1F = 2) : k.wLegCmd p w =
    if !k.axisIn [axOff, axSafe] then k.legRefuse [p] else if 2 ≤ k.link p then k.sendFrames p [.clear] else k := by
  unfold Stake.wLegCmd
  obtain ⟨h0, h1, h2, h3, h4⟩ : w.getLsbD 0 = false ∧ w.getLsbD 1 = true ∧ w.getLsbD 2 = false ∧ w.getLsbD 3 = false ∧ w.getLsbD 4 = false := cmdBits h
  simp only [h0, h1, h2, h3, h4, Bool.not_true, Bool.not_false, if_true, Bool.false_eq_true, if_false, Bool.false_and]

theorem Stake.wLegCmd_sum (h : w &&& 0x1F = 4) (hk : 2 ≤ k.link p) : k.wLegCmd p w = k.sendFrames p [.sumReq] := by
  unfold Stake.wLegCmd
  obtain ⟨h0, h1, h2, h3, h4⟩ : w.getLsbD 0 = false ∧ w.getLsbD 1 = false ∧ w.getLsbD 2 = true ∧ w.getLsbD 3 = false ∧ w.getLsbD 4 = false := cmdBits h
  simp only [h0, h1, h2, h3, h4, Bool.not_false, if_true, Bool.false_eq_true, if_false, Bool.false_and, Bool.true_and, hk, decide_true]

theorem Stake.wLegCmd_selftest (h : w &&& 0x1F = 8) : k.wLegCmd p w =
    if !k.portReady p || k.axis ≠ axTest then k.legRefuse [p] else ((k.modeTo p true).put (Reg.LEG_PORT_TEST_PASS p) 0).testStep p 1 := by
  unfold Stake.wLegCmd
  obtain ⟨h0, h1, h2, h3, h4⟩ : w.getLsbD 0 = false ∧ w.getLsbD 1 = false ∧ w.getLsbD 2 = false ∧ w.getLsbD 3 = true ∧ w.getLsbD 4 = false := cmdBits h
  simp only [h0, h1, h2, h3, h4, Bool.not_true, Bool.not_false, if_true, Bool.false_eq_true, if_false, Bool.false_and]

theorem Stake.wLegCmd_splice (h : w &&& 0x1F = 16) (hk : 2 ≤ k.link p) (hs : k.flag (Reg.LEG_PORT_STATUS_SPARE p) = false) :
    k.wLegCmd p w = k.splice p 1 := by
  unfold Stake.wLegCmd
  obtain ⟨h0, h1, h2, h3, h4⟩ : w.getLsbD 0 = false ∧ w.getLsbD 1 = false ∧ w.getLsbD 2 = false ∧ w.getLsbD 3 = false ∧ w.getLsbD 4 = true := cmdBits h
  simp only [h0, h1, h2, h3, h4, Bool.not_false, if_true, Bool.false_eq_true, if_false, Bool.false_and, Bool.true_and, hk, hs, decide_true]

/-! Frames that are put in the queue of a port. -/

theorem Stake.sendFrames_out (hl : p < k.leg.ports.length) (l : List LegFrame) : ((k.sendFrames p l).lport p).out = (k.lport p).out ++ l :=
  (congrArg LegPort.out (Stake.lport_onLeg hl _)).trans rfl

theorem Stake.sendFrames_only (l : List LegFrame) : Stake.Only [.leg] k (k.sendFrames p l) := .onLeg .refl

theorem Stake.modeTo_only (b : Bool) : Stake.Only [.leg] k (k.modeTo p b) := .onLeg .refl

theorem Stake.modeTo_out (hl : p < k.leg.ports.length) (b : Bool) :
    ((k.modeTo p b).lport p).out = ((k.lport p).out.filter fun f => !f.isModeOf b) ++ [k.modeFrame p b] :=
  (congrArg LegPort.out (Stake.lport_onLeg hl _)).trans rfl

theorem Stake.modeFrame_congr (hs : j.flag (Reg.LEG_PORT_STATUS_SPARE p) = k.flag (Reg.LEG_PORT_STATUS_SPARE p)) (ha : j.act = k.act)
    (hi : j.id = k.id) (b : Bool) : j.modeFrame p b = k.modeFrame p b := by
  unfold Stake.modeFrame
  rw [hs, Stake.inForce_congr ha hi, Stake.inForce_congr ha hi]

/-- R268: a self-test starts. -/
theorem Stake.testStart_of (hp : p < 4) (hl : p < k.leg.ports.length) :
    let j := ((k.modeTo p true).put (Reg.LEG_PORT_TEST_PASS p) 0).testStep p 1
    j.fld (Reg.LEG_PORT_TEST_STEP p) = 1 ∧ j.fld (Reg.LEG_PORT_TEST_PASS p) = 0 ∧
      (j.lport p).test = some { step := 1, since := none } ∧ .test 1 ∈ (j.lport p).out ∧ k.modeFrame p true ∈ (j.lport p).out := by
  have ho := Stake.modeTo_out hl true
  have hln : p < (k.modeTo p true).leg.ports.length := by
    unfold Stake.modeTo
    rwa [Stake.onLeg_ports]
  generalize k.modeTo p true = q at ho hln ⊢
  have hi : Stake.Only [.regs] q ((q.put (Reg.LEG_PORT_TEST_PASS p) 0).put (Reg.LEG_PORT_TEST_STEP p) 1) := .put (.put .refl)
  have h1 : ((q.put (Reg.LEG_PORT_TEST_PASS p) 0).put (Reg.LEG_PORT_TEST_STEP p) 1).fld (Reg.LEG_PORT_TEST_STEP p) = 1 :=
    Stake.fld_put_same _ _ _ (by clear * - hp; revert p; decide)
  have h2 : ((q.put (Reg.LEG_PORT_TEST_PASS p) 0).put (Reg.LEG_PORT_TEST_STEP p) 1).fld (Reg.LEG_PORT_TEST_PASS p) = 0 :=
    (Stake.fld_put_ne _ _ _ _ (by clear * - hp; revert p; decide)).trans
      ((Stake.fld_put_same _ _ _ (by clear * - hp; revert p; decide)).trans (Nat.zero_mod _))
  have he : (q.put (Reg.LEG_PORT_TEST_PASS p) 0).testStep p 1 = (((q.put (Reg.LEG_PORT_TEST_PASS p) 0).put (Reg.LEG_PORT_TEST_STEP p) 1).sendFrames p
      [.test 1]).onLeg p fun l => { l with test := some { step := 1, since := none } } := rfl
  rw [he]
  generalize (q.put (Reg.LEG_PORT_TEST_PASS p) 0).put (Reg.LEG_PORT_TEST_STEP p) 1 = i at hi h1 h2 ⊢
  have hin : p < i.leg.ports.length := by rwa [hi.leg]
  have hs : Stake.Only [.leg] i ((i.sendFrames p [.test 1]).onLeg p fun l => { l with test := some { step := 1, since := none } }) :=
    .onLeg (i.sendFrames_only _)
  have hsn : p < (i.sendFrames p [.test 1]).leg.ports.length := by
    unfold Stake.sendFrames
    rwa [Stake.onLeg_ports]
  have hso : ((i.sendFrames p [.test 1]).lport p).out = (q.lport p).out ++ [.test 1] := by
    rw [Stake.sendFrames_out hin, Stake.lport_congr hi.leg]
  refine ⟨(hs.fld _).trans h1, (hs.fld _).trans h2, ?_, ?_, ?_⟩
  · rw [Stake.lport_onLeg hsn]
  · rw [Stake.lport_onLeg hsn, hso]
    simp
  · rw [Stake.lport_onLeg hsn, hso, ho]
    simp

/-- R269: a port goes to its spare lane. -/
theorem Stake.splice_of (hp : p < 4) (hl : p < k.leg.ports.length) :
    (k.splice p 1).flag (Reg.LEG_PORT_STATUS_SPARE p) = true ∧
      (k.splice p 1).rd (Reg.LEG_PORT_SPLICE_CNT p) = satAdd 16 (k.rd (Reg.LEG_PORT_SPLICE_CNT p)) 1 ∧
      (k.splice p 1).modeFrame p (k.portFdt p) ∈ ((k.splice p 1).lport p).out ∧ k.posted (k.splice p 1) .legLaneSplice 0 [p, 1] := by
  unfold Stake.splice
  extract_lets b q i
  rw [show k.portFdt p = b from rfl]
  clear_value b
  have he := k.edgeLane_eff hp true
  have hs := k.edgeLane_spare hp true
  have hq : Stake.Eff [.regs, .leg] [Reg.LEG_PORT_STATUS p, Reg.SPL_SUMMARY] k q := .onLeg (he.mono (hm := List.Subset.refl _))
  have hqm := Stake.modeTo_only (k := k.edgeLane p true) (p := p) b
  have hqo : (q.lport p).out = (((k.edgeLane p true).lport p).out.filter fun f => !f.isModeOf b) ++ [(k.edgeLane p true).modeFrame p b] :=
    Stake.modeTo_out (by rwa [he.only.leg]) b
  have hqs : q.flag (Reg.LEG_PORT_STATUS_SPARE p) = true := (hqm.flag _).trans hs
  have hqf : q.modeFrame p b = (k.edgeLane p true).modeFrame p b := Stake.modeFrame_congr (hqm.flag _) hqm.act hqm.id b
  have hi : i = q.bump (Reg.LEG_PORT_SPLICE_CNT p) := if_neg (by decide)
  clear_value q
  have hie : Stake.Eff [.regs, .leg] [Reg.LEG_PORT_STATUS p, Reg.SPL_SUMMARY, Reg.LEG_PORT_SPLICE_CNT p] k i := by
    rw [hi]
    exact .bump (hq.mono (hm := by simp)) (hm := by simp) (ha := by clear * - hp; revert p; decide)
  have hir : i.rd (Reg.LEG_PORT_SPLICE_CNT p) = satAdd 16 (k.rd (Reg.LEG_PORT_SPLICE_CNT p)) 1 := by
    rw [hi, Stake.rd_bump_same, hq.regs _ (by clear * - hp; revert p; decide)]
  have hiq : Stake.Only [.regs] q i := by
    rw [hi]
    exact .bump .refl
  have his : i.flag (Reg.LEG_PORT_STATUS_SPARE p) = true := by
    rw [hi, Stake.flag, Stake.fld_bump_ne _ _ _ (by clear * - hp; revert p; decide)]
    exact hqs
  clear_value i
  have hpost := Stake.Only.post_only i .legLaneSplice 0 [p, 1]
  have hps : (i.post .legLaneSplice 0 [p, 1]).flag (Reg.LEG_PORT_STATUS_SPARE p) = true :=
    (Stake.flag_post _ _ _ _ (Reg.LEG_PORT_STATUS_SPARE p) (by clear * - hp; revert p; decide)).trans his
  refine ⟨hps, ?_, ?_, hie.post_posted _ _ _⟩
  · exact (Stake.rd_post _ _ _ _ _ (by clear * - hp; revert p; decide)).trans hir
  · rw [Stake.modeFrame_congr (hps.trans hqs.symm) (hpost.act.trans hiq.act) (hpost.id.trans hiq.id), hqf, Stake.lport_congr hpost.leg,
      Stake.lport_congr hiq.leg, hqo]
    simp

/-- R253: a profile step is written and sent on, or refused while it is in use. -/
theorem Stake.wProfile_of {q st : Nat} (hl : p < k.leg.ports.length) :
    let off := 0xC0000 + 0x100 * p + 0x10 * q + 4 * st
    let j := k.wProfile p q st w
    if k.link p = 3 ∧ k.axisIn [axOff, axSafe] = false ∧ k.profileUsed p q = true then
      j.rd off = k.rd off ∧ j.leg = k.leg ∧ k.posted j .legCfgRefused 0 [p]
    else j.rd off = w &&& 0xFFFF ∧ k.regsKept j [off] ∧ (j.lport p).out =
      (if k.link p = 2 ∨ k.link p = 3 then ((k.lport p).out.filter fun f => f ≠ .sumReq) ++
        [.psel q st, .pstep ((Fld.mk 0 10 6).of w) ((Fld.mk 0 0 10).of w), .sumReq] else (k.lport p).out) := by
  intro off j
  have hj : j = k.wProfile p q st w := rfl
  unfold Stake.wProfile at hj
  extract_lets i at hj
  have hi : i.rd off = w &&& 0xFFFF := Stake.rd_wr_same _ _ _
  have hik : k.regsKept i [off] := k.regsKept_wr _ (List.mem_singleton_self _)
  have hil : i.leg = k.leg := (Stake.Only.wr (l := [.regs]) .refl).leg
  clear_value i j
  by_cases hc : k.link p = 3 ∧ k.axisIn [axOff, axSafe] = false ∧ k.profileUsed p q = true
  · rw [if_pos hc]
    obtain ⟨h3, hq, hu⟩ := hc
    rw [if_neg (by simp [h3, Stake.portReady]), if_pos (by simp [h3, Stake.portReady, hq, hu])] at hj
    obtain ⟨he, _, hp⟩ := k.legRefuse_of [p]
    exact hj ▸ ⟨he.regs off (by simp [off, Reg.LEG_STATUS]; omega), he.only.leg, hp⟩
  · rw [if_neg hc]
    by_cases h23 : k.link p = 2 ∨ k.link p = 3
    · rw [if_neg (by simp [Stake.portReady]; tauto), if_neg (by simpa [Stake.portReady] using hc)] at hj
      rw [if_pos h23]
      have ho : Stake.Only [.leg] i j := hj ▸ .trans (.onLeg .refl) (Stake.sendFrames_only _)
      refine ⟨(ho.rd _).trans hi, hik.of_eq ho.regs ho.id, ?_⟩
      rw [hj, Stake.sendFrames_out (by rwa [Stake.onLeg_ports, hil]), Stake.lport_onLeg (by rwa [hil]), Stake.lport_congr hil]
    · rw [if_pos (by simp [Stake.portReady]; tauto)] at hj
      rw [if_neg h23, hj]
      exact ⟨hi, hik, by rw [Stake.lport_congr hil]⟩

/-! APPLY. -/

/-- R271: the settings of a port are put in force. -/
def Stake.portSettings (k : Stake) (p : Nat) : Stake :=
  (k.applyRange (0x60100 + 0x80 * p) (0x60108 + 0x80 * p)).applyRange (0x60128 + 0x80 * p) (0x6012C + 0x80 * p)

/-- R271: a port's part of `APPLY`. -/
def Stake.applyPort (q : Stake) (p : Nat) : Stake :=
  let old := q.rdAct (Reg.LEG_PORT_CFG p)
  let oldDef := q.rdAct (Reg.LEG_PORT_DEF p)
  let was := q.portPresent p
  let q := q.portSettings p
  let now := q.portPresent p
  let pr := q.fld Reg.LEG_STATUS_PRESENT
  let q := q.put Reg.LEG_STATUS_PRESENT (if now then pr ||| 2 ^ p else pr &&& (15 - 2 ^ p))
  let q := if q.flag Reg.LEG_CTRL_EN && now && !was then q.legStart p else if was && !now then q.legStop p else q
  if q.link p ≠ 2 && !q.portReady p then q
  else
    let m := (old ^^^ q.rdAct (Reg.LEG_PORT_CFG p)) &&& 0x1FFFF ≠ 0
    let d := oldDef ≠ q.rdAct (Reg.LEG_PORT_DEF p)
    let q := if m then q.modeTo p (q.portFdt p) else q
    let q := if d then q.sendFrames p [q.defFrame p] else q
    if m || d then q.sendFrames p [.sumReq] else q

theorem Stake.legApply_eq (k : Stake) : k.legApply =
    if !k.axisIn [axOff, axSafe, axTest] || !([0, 1, 2, 3].all k.bootOk) then k.legRefuse
    else [0, 1, 2, 3].foldl Stake.applyPort
      (k.wrAct Reg.LEG_CTRL (Reg.LEG_CTRL_WL_SKEW.put (k.rdAct Reg.LEG_CTRL) (k.fld Reg.LEG_CTRL_WL_SKEW))) := rfl

/-- Past the settings put in force, a port's part of `APPLY` changes but its link. -/
theorem Stake.applyPort_of (hp : p < 4) : Stake.Only [.regs, .leg, .out, .prt, .modu] (k.portSettings p) (k.applyPort p) ∧
    (k.portSettings p).regsKept (k.applyPort p) (startRegs p) := by
  unfold Stake.applyPort
  extract_lets old oldDef was q now pr q1 q2 m d q3 q4
  have h1 : Stake.Eff [.regs, .leg, .out, .prt, .modu] (startRegs p) q q1 := .put .refl (hm := by clear * - hp; revert p; decide)
  have hs := (q1.legStart_of hp).1
  have ht := (q1.legStop_of hp).1
  have h2 : Stake.Eff [.regs, .leg, .out, .prt, .modu] (startRegs p) q q2 :=
    .ite (h1.trans (hs.mono (hm := List.Subset.refl _))) (.ite (h1.trans (ht.mono (hm := List.subset_cons_self _ _))) h1)
  have h4 : Stake.Eff [.regs, .leg, .out, .prt, .modu] (startRegs p) q q4 := .ite (.onLeg (.ite (.onLeg h2) h2)) (.ite (.onLeg h2) h2)
  have hend : Stake.Eff [.regs, .leg, .out, .prt, .modu] (startRegs p) q
      (if q2.link p ≠ 2 && !q2.portReady p then q2 else if m || d then q4.sendFrames p [.sumReq] else q4) :=
    .ite h2 (.ite (.onLeg h4) h4)
  exact ⟨hend.only, hend.regs⟩

/-- What `APPLY` settles of a port. -/
def Stake.applyView (k : Stake) (p : Nat) : (Reg32 × Reg32) × (Reg32 × Reg32) :=
  ((k.rdAct (Reg.LEG_PORT_CFG p), k.rdAct (Reg.LEG_PORT_DEF p)), (k.rd (Reg.LEG_PORT_CFG p), k.rd (Reg.LEG_PORT_DEF p)))

theorem settings_not_start : ∀ r < 4, ∀ p < 4, Reg.LEG_PORT_CFG p ∉ startRegs r ∧ Reg.LEG_PORT_DEF p ∉ startRegs r := by decide

theorem Stake.portSettings_rd (k : Stake) (r off : Nat) : (k.portSettings r).rd off = k.rd off := Stake.rd_congr rfl rfl _

theorem Stake.portSettings_rdAct (k : Stake) (r off : Nat) : (k.portSettings r).rdAct off =
    if (0x60128 + 0x80 * r ≤ off ∧ off < 0x6012C + 0x80 * r) ∨ (0x60100 + 0x80 * r ≤ off ∧ off < 0x60108 + 0x80 * r) then k.rd off
    else k.rdAct off := by
  have h1 : (k.applyRange (0x60100 + 0x80 * r) (0x60108 + 0x80 * r)).rd off = k.rd off := Stake.rd_congr rfl rfl _
  rw [Stake.portSettings, Stake.rdAct_applyRange, Stake.rdAct_applyRange, h1]
  by_cases ha : 0x60128 + 0x80 * r ≤ off ∧ off < 0x6012C + 0x80 * r <;> simp [ha]

theorem Stake.portSettings_cfg (k : Stake) (r p : Nat) :
    (k.portSettings r).rdAct (Reg.LEG_PORT_CFG p) = if r = p then k.rd (Reg.LEG_PORT_CFG p) else k.rdAct (Reg.LEG_PORT_CFG p) :=
  (k.portSettings_rdAct r _).trans (if_congr (by unfold Reg.LEG_PORT_CFG; omega) rfl rfl)

theorem Stake.portSettings_def (k : Stake) (r p : Nat) :
    (k.portSettings r).rdAct (Reg.LEG_PORT_DEF p) = if r = p then k.rd (Reg.LEG_PORT_DEF p) else k.rdAct (Reg.LEG_PORT_DEF p) :=
  (k.portSettings_rdAct r _).trans (if_congr (by unfold Reg.LEG_PORT_DEF; omega) rfl rfl)

theorem Stake.applyPort_view {r : Nat} (hr : r < 4) (hp : p < 4) :
    (k.applyPort r).applyView p = if r = p then ((k.applyView p).2, (k.applyView p).2) else k.applyView p := by
  have hn := settings_not_start r hr p hp
  obtain ⟨ho, hk⟩ := k.applyPort_of hr
  have hact : ∀ off, (k.applyPort r).rdAct off = (k.portSettings r).rdAct off := fun off => by rw [Stake.rdAct, ho.act, ho.id, ← Stake.rdAct]
  unfold Stake.applyView
  rw [hact, hact, hk _ hn.1, hk _ hn.2, Stake.portSettings_rd, Stake.portSettings_rd, Stake.portSettings_cfg, Stake.portSettings_def]
  split <;> rfl

/-- R271: settings take effect by `APPLY`. -/
theorem Stake.legApply_of (hq : (k.axisIn [axOff, axSafe, axTest] && [0, 1, 2, 3].all k.bootOk) = true) (hp : p < 4) :
    k.legApply.rdAct (Reg.LEG_PORT_CFG p) = k.rd (Reg.LEG_PORT_CFG p) ∧ k.legApply.rdAct (Reg.LEG_PORT_DEF p) = k.rd (Reg.LEG_PORT_DEF p) := by
  rw [Bool.and_eq_true] at hq
  rw [Stake.legApply_eq, if_neg (by simp only [hq.1, hq.2]; decide)]
  have hv := foldl_at (g := Stake.applyPort) (v := fun q : Stake => q.applyView p) (F := fun x => (x.2, x.2)) (i := p)
    (fun q r hr hne => (Stake.applyPort_view (by simp at hr; omega) hp).trans (if_neg hne)) (fun q => (Stake.applyPort_view hp hp).trans (if_pos rfl)) hp
    (k.wrAct Reg.LEG_CTRL (Reg.LEG_CTRL_WL_SKEW.put (k.rdAct Reg.LEG_CTRL) (k.fld Reg.LEG_CTRL_WL_SKEW)))
  exact Prod.mk.inj (congrArg Prod.fst hv)

theorem Stake.bootOk_store (w : Reg32) {r : Nat} (hr : r < 4) : (k.store Reg.LEG_CTRL w).bootOk r = k.bootOk r := by
  have ho := Stake.Only.store_only k Reg.LEG_CTRL w
  unfold Stake.bootOk
  rw [ho.inForceB, ho.inForceB, ho.inForce, (k.store_regsKept Reg.LEG_CTRL w).flag (f := Reg.LEG_PORT_CFG_SUPPLY r) (by revert r; decide)]

theorem Stake.wLegCtrl_apply (h0 : w.getLsbD 0 = true) (he : w.getLsbD 31 = k.flag Reg.LEG_CTRL_EN) :
    k.wLegCtrl w = (k.store Reg.LEG_CTRL w).legApply := by
  unfold Stake.wLegCtrl
  extract_lets was now q q1
  have hn : now = was := he
  have hq1 : q1 = q := by
    simp only [q1, hn]
    cases was <;> rfl
  rw [if_neg (by rw [hn]; cases was <;> simp), if_pos h0, hq1]

/-- R271: `APPLY` of the settings, or its refusal. -/
theorem Stake.wLegCtrl_apply_of (h0 : w.getLsbD 0 = true) (he : w.getLsbD 31 = k.flag Reg.LEG_CTRL_EN) :
    if k.axisIn [axOff, axSafe, axTest] && [0, 1, 2, 3].all k.bootOk then
      ∀ p, p < 4 → (k.wLegCtrl w).rdAct (Reg.LEG_PORT_CFG p) = k.rd (Reg.LEG_PORT_CFG p) ∧
        (k.wLegCtrl w).rdAct (Reg.LEG_PORT_DEF p) = k.rd (Reg.LEG_PORT_DEF p)
    else (k.wLegCtrl w).flag Reg.LEG_STATUS_CFG_REFUSED = true ∧ (k.wLegCtrl w).act = k.act ∧ k.posted (k.wLegCtrl w) .legCfgRefused 0 [] := by
  rw [Stake.wLegCtrl_apply h0 he]
  have ho := Stake.Only.store_only k Reg.LEG_CTRL w
  have hr := k.store_regsKept Reg.LEG_CTRL w
  have hax : (k.store Reg.LEG_CTRL w).axisIn [axOff, axSafe, axTest] = k.axisIn [axOff, axSafe, axTest] := by
    unfold Stake.axisIn Stake.axis
    rw [hr.fld (by decide)]
  have hb : [0, 1, 2, 3].all (k.store Reg.LEG_CTRL w).bootOk = [0, 1, 2, 3].all k.bootOk := by
    simp only [List.all_cons, Stake.bootOk_store w (r := 0) (by decide), Stake.bootOk_store w (r := 1) (by decide),
      Stake.bootOk_store w (r := 2) (by decide), Stake.bootOk_store w (r := 3) (by decide), List.all_nil]
  split
  · next hc =>
    intro p hp
    rw [← hr (Reg.LEG_PORT_CFG p) (by clear * - hp; revert p; decide), ← hr (Reg.LEG_PORT_DEF p) (by clear * - hp; revert p; decide)]
    exact Stake.legApply_of (by rw [hax, hb]; exact hc) hp
  · next hc =>
    rw [Stake.legApply_eq, hax, hb, if_pos (by rw [← Bool.not_and, Bool.not_eq_true', ← Bool.not_eq_true]; exact hc)]
    obtain ⟨h1, h2, h3⟩ := (k.store Reg.LEG_CTRL w).legRefuse_of []
    exact ⟨h2, h1.only.act.trans ho.act, h3.after (Stake.outKept.refl.of_eq ho.out) ho.id (by rw [ho.ang])⟩

/-! Refresh. -/

theorem Stake.insertRefresh_eq (k : Stake) (p : Nat) (x y : Instant) (b : Bool) : ∃ f, k.insertRefresh p x y b = (k.onPort p f).countRefresh p :=
  ⟨_, rfl⟩

/-- R265: a refresh is inserted. -/
theorem Stake.insertRefresh_of (x y : Instant) (b : Bool) :
    (k.insertRefresh p x y b).rd (Reg.LEG_PORT_REFRESH_CNT p) = satAdd 16 (k.rd (Reg.LEG_PORT_REFRESH_CNT p)) 1 ∧
      k.regsKept (k.insertRefresh p x y b) [Reg.LEG_PORT_REFRESH_CNT p] := by
  obtain ⟨f, hf⟩ := k.insertRefresh_eq p x y b
  rw [hf]
  have ho : Stake.Only [.modu] k (k.onPort p f) := .onPort .refl
  generalize k.onPort p f = q at ho ⊢
  have hb : (q.bump (Reg.LEG_PORT_REFRESH_CNT p)).rd (Reg.LEG_PORT_REFRESH_CNT p) = satAdd 16 (k.rd (Reg.LEG_PORT_REFRESH_CNT p)) 1 := by
    rw [Stake.rd_bump_same, ho.rd]
  have hk : k.regsKept (q.bump (Reg.LEG_PORT_REFRESH_CNT p)) [Reg.LEG_PORT_REFRESH_CNT p] :=
    .bump (.of_eq .refl ho.regs ho.id) (List.mem_singleton_self _)
  unfold Stake.countRefresh
  extract_lets z i
  split
  · have hz : i.regsKept (i.post .refreshInserted 0 [p]) [] := .post_zero .refl
    exact ⟨(hz _ (by simp)).trans hb, hk.trans (hz.mono (by simp))⟩
  · exact ⟨hb, hk⟩

theorem Stake.refreshDue_flag (hn : k.refreshNeeded p k.now = true) : (k.refreshDue p).flag (Reg.LEG_PORT_STATUS_REFRESH_DUE p) = true := by
  unfold Stake.refreshDue
  extract_lets due lead slot q vi half
  have hq : q.flag (Reg.LEG_PORT_STATUS_REFRESH_DUE p) = true := by
    simp only [q]
    rw [if_pos hn]
    exact Stake.flag_putB_same _ _ _ (by simp [Reg.LEG_PORT_STATUS_REFRESH_DUE]) rfl
  split
  · exact hq
  · exact ((Stake.insertRefresh_of _ _ _).2.flag (by simp [Reg.LEG_PORT_STATUS_REFRESH_DUE, Reg.LEG_PORT_REFRESH_CNT])).trans hq

/-- R265: a refresh starts at the latest at its limit. -/
theorem Stake.refreshLatest_of (x y : Instant) (b : Bool) :
    let j := (k.putB (Reg.LEG_PORT_STATUS_REFRESH_DUE p) true).insertRefresh p x y b
    j.flag (Reg.LEG_PORT_STATUS_REFRESH_DUE p) = true ∧
      j.rd (Reg.LEG_PORT_REFRESH_CNT p) = satAdd 16 (k.rd (Reg.LEG_PORT_REFRESH_CNT p)) 1 := by
  intro j
  obtain ⟨h1, h2⟩ := Stake.insertRefresh_of (k := k.putB (Reg.LEG_PORT_STATUS_REFRESH_DUE p) true) (p := p) x y b
  have hk : k.regsKept (k.putB (Reg.LEG_PORT_STATUS_REFRESH_DUE p) true) [Reg.LEG_PORT_STATUS p] := .putB .refl (List.mem_singleton_self _)
  refine ⟨(h2.flag (by simp [Reg.LEG_PORT_STATUS_REFRESH_DUE, Reg.LEG_PORT_REFRESH_CNT])).trans
    (Stake.flag_putB_same _ _ _ (by simp [Reg.LEG_PORT_STATUS_REFRESH_DUE]) rfl), h1.trans ?_⟩
  rw [hk _ (by simp [Reg.LEG_PORT_STATUS, Reg.LEG_PORT_REFRESH_CNT])]

end

/-- The effect of a command of a port. -/
theorem exec_legCmd {s : State} {n p bit : Nat} {src : Src} {w : Reg32} (hp : p < 4) (ha : s.admits src n (Reg.LEG_PORT_CMD p) w)
    (hb : w.getLsbD bit = true) : s.elsewhere (s.legCmd src n p w bit) n ∧ (s.legCmd src n p w bit).stake n = (s.stake n).wLegCmd p w := by
  unfold State.legCmd
  rw [if_neg (by omega), State.stakeWrite_of_admits ha]
  refine ⟨s.onStake_elsewhere n _, ?_⟩
  rw [State.onStake_stake_same ha.present, if_pos hb]

/-- R246, R253, R262, R268, R269: the commands of a port. -/
theorem legCommand_of {s : State} {n p : Nat} {src : Src} {w : Reg32} (hp : p < 4) (ha : s.admits src n (Reg.LEG_PORT_CMD p) w)
    (hl : p < (s.stake n).leg.ports.length) :
    let k := s.stake n
    let quiet := k.axisIn [axOff, axSafe]
    let refused := fun (t : State) => (t.stake n).flag Reg.LEG_STATUS_CFG_REFUSED = true ∧ (t.stake n).leg = k.leg ∧
      k.posted (t.stake n) .legCfgRefused 0 [p]
    (w &&& 0x1F = 1 → ∃ t, exec (.legRestart n src p w) s = .next t ∧ s.elsewhere t n ∧ (quiet = false → refused t) ∧
      (quiet = true → k.flag Reg.LEG_CTRL_EN = true → k.portPresent p = true → (k.lport p).noDriver = false →
        (t.stake n).link p = 1 ∧ (t.stake n).flag (Reg.LEG_PORT_STATUS_SPARE p) = (k.lport p).mainBad ∧
        ((t.stake n).lport p).started = k.now)) ∧
    (w &&& 0x1F = 2 → ∃ t, exec (.legClear n src p w) s = .next t ∧ s.elsewhere t n ∧ (quiet = false → refused t) ∧
      (quiet = true → 2 ≤ k.link p → ((t.stake n).lport p).out = (k.lport p).out ++ [.clear] ∧ (t.stake n).regs = k.regs)) ∧
    (w &&& 0x1F = 4 → 2 ≤ k.link p → ∃ t, exec (.legSumRequest n src p w) s = .next t ∧ s.elsewhere t n ∧
      ((t.stake n).lport p).out = (k.lport p).out ++ [.sumReq] ∧ (t.stake n).regs = k.regs) ∧
    (w &&& 0x1F = 8 → ∃ t, exec (.legSelftest n src p w) s = .next t ∧ s.elsewhere t n ∧
      (k.link p ≠ 3 ∨ k.axis ≠ axTest → refused t) ∧
      (k.link p = 3 → k.axis = axTest → (t.stake n).fld (Reg.LEG_PORT_TEST_STEP p) = 1 ∧ (t.stake n).fld (Reg.LEG_PORT_TEST_PASS p) = 0 ∧
        ((t.stake n).lport p).test = some { step := 1, since := none } ∧ .test 1 ∈ ((t.stake n).lport p).out ∧
        k.modeFrame p true ∈ ((t.stake n).lport p).out)) ∧
    (w &&& 0x1F = 16 → 2 ≤ k.link p → k.flag (Reg.LEG_PORT_STATUS_SPARE p) = false →
      ∃ t, exec (.legSplice n src p w) s = .next t ∧ s.elsewhere t n ∧ (t.stake n).flag (Reg.LEG_PORT_STATUS_SPARE p) = true ∧
        (t.stake n).rd (Reg.LEG_PORT_SPLICE_CNT p) = satAdd 16 (k.rd (Reg.LEG_PORT_SPLICE_CNT p)) 1 ∧
        (t.stake n).modeFrame p (k.portFdt p) ∈ ((t.stake n).lport p).out ∧
        k.posted (t.stake n) .legLaneSplice 0 [p, 1]) := by
  intro k quiet refused
  have href : ∀ t : State, t.stake n = k.legRefuse [p] → refused t := fun t ht => by
    obtain ⟨h1, h2, h3⟩ := k.legRefuse_of [p]
    exact ⟨ht ▸ h2, ht ▸ h1.only.leg, ht ▸ h3⟩
  refine ⟨fun hw => ?_, fun hw => ?_, fun hw hk => ?_, fun hw => ?_, fun hw hk hs => ?_⟩
  · obtain ⟨he, hj⟩ := exec_legCmd hp ha (cmdBits hw).1
    rw [Stake.wLegCmd_restart hw] at hj
    refine ⟨_, rfl, he, fun hq => href _ (hj.trans (if_pos (by rw [Bool.not_eq_true']; exact hq))), fun hq hen hpr hnd => ?_⟩
    rw [if_neg (by rw [Bool.not_eq_true', ← Bool.not_eq_true]; exact not_not.mpr hq), if_pos (by rw [hen, hpr]; rfl)] at hj
    obtain ⟨_, h1, h2⟩ := Stake.legStart_of (k := k) hp
    rw [hnd] at h1
    rw [hj, Stake.lport_congr (h2 hnd).2, Stake.lport_onLeg hl]
    exact ⟨h1, (h2 hnd).1, rfl⟩
  · obtain ⟨he, hj⟩ := exec_legCmd hp ha (cmdBits hw).2.1
    rw [Stake.wLegCmd_clear hw] at hj
    refine ⟨_, rfl, he, fun hq => href _ (hj.trans (if_pos (by rw [Bool.not_eq_true']; exact hq))), fun hq hk => ?_⟩
    rw [if_neg (by rw [Bool.not_eq_true', ← Bool.not_eq_true]; exact not_not.mpr hq), if_pos hk] at hj
    rw [hj]
    exact ⟨Stake.sendFrames_out hl _, (Stake.sendFrames_only _).regs⟩
  · obtain ⟨he, hj⟩ := exec_legCmd hp ha (cmdBits hw).2.2.1
    rw [Stake.wLegCmd_sum hw hk] at hj
    exact ⟨_, rfl, he, hj ▸ Stake.sendFrames_out hl _, hj ▸ (Stake.sendFrames_only _).regs⟩
  · obtain ⟨he, hj⟩ := exec_legCmd hp ha (cmdBits hw).2.2.2.1
    rw [Stake.wLegCmd_selftest hw] at hj
    refine ⟨_, rfl, he, fun h => href _ (hj.trans (if_pos (by simp [Stake.portReady, k] at h ⊢; tauto))), fun h3 hx => ?_⟩
    rw [if_neg (by simp [Stake.portReady, k] at h3 hx ⊢; exact ⟨h3, hx⟩)] at hj
    exact hj ▸ Stake.testStart_of hp hl
  · obtain ⟨he, hj⟩ := exec_legCmd hp ha (cmdBits hw).2.2.2.2
    rw [Stake.wLegCmd_splice hw hk hs] at hj
    exact ⟨_, rfl, he, hj ▸ Stake.splice_of hp hl⟩

/-- Settles O47. -/
theorem legCommands : Obligations.LegCommands := by
  unfold Obligations.LegCommands
  refine ⟨fun s n p src w hp ha hl => legCommand_of hp ha hl, fun s n p q st src w hp hq hst hl => ?_, fun s n src w ha h0 he => ?_,
    fun s n p hs hn => ⟨?_, fun hlate _ => ?_⟩⟩
  · intro off k ha
    obtain ⟨t, ht, he, hj⟩ := exec_stakeWrite ha fun k => k.wProfile p q st w
    have hx : exec (.legProfileWrite n src p q st w) s = .next t := by
      change execLegProfileWrite n src p q st w s = _
      rw [execLegProfileWrite, if_neg (by omega)]
      exact ht
    refine ⟨t, hx, he, ?_⟩
    rw [hj]
    exact Stake.wProfile_of hl
  · obtain ⟨t, ht, he', hj⟩ := exec_stakeWrite ha fun k => if w.getLsbD 0 then k.wLegCtrl w else k
    rw [if_pos h0] at hj
    exact ⟨t, ht, he', hj ▸ Stake.wLegCtrl_apply_of h0 he⟩
  · obtain ⟨t, ht, he, hj⟩ := exec_onStake hs fun k => k.refreshDue p
    exact ⟨t, ht, he, hj ▸ Stake.refreshDue_flag hn⟩
  · refine ⟨_, rfl, s.onStake_elsewhere n _, ?_⟩
    rw [State.onStake_stake_same hs, if_neg (by simp [hn]; omega)]
    exact Stake.refreshLatest_of _ _ _

end Sys2Proof.Machine

/-! HELLO, SUM and STATUS frames of a leg head (R240, R242, R245 to R247, R253). -/
namespace Sys2Proof.Machine
set_option Elab.async false

section
variable {k j : Stake} {p : Nat} {f : Reg32}

theorem frameOk_of_bad {t : Nat} (h : frameBad f = true) (ht : t ≠ 0 ∧ t < 8) : frameOk f t = false := by
  unfold frameBad at h
  unfold frameOk
  simp only [Bool.or_eq_true, decide_eq_true_eq] at h
  rcases h with (h | h) | h
  · simp [h, ht.1.symm]
  · have : ¬(Fld.mk 0 28 4).of f = t := by omega
    simp [this]
  · simp only [h]
    simp

/-- A good frame is acted on. -/
theorem Stake.frameIn_ok {t : Nat} (hp : p < 4) (hk : k.link p ≠ 0) (hf : frameOk f t = true) (act : Stake → Stake) :
    k.frameIn p t f act = act (k.onLeg p fun l => { l with lastIn := k.now }) := by
  unfold Stake.frameIn
  rw [if_neg (by simp [hk, hp]), if_pos hf]

/-- A bad one is counted. -/
theorem Stake.frameIn_bad {t : Nat} (hp : p < 4) (hk : k.link p ≠ 0) (hf : frameBad f = true) (ht : t ≠ 0 ∧ t < 8) (act : Stake → Stake) :
    k.frameIn p t f act = k.bump (Reg.LEG_PORT_CRC_CNT p) := by
  unfold Stake.frameIn
  rw [if_neg (by simp [hk, hp]), if_neg (by rw [frameOk_of_bad hf ht]; decide), if_pos hf, Stake.badFrame, if_neg (by simp [hk, hp])]

/-- R240: a counted frame changes its count alone. -/
theorem Stake.badCount (k : Stake) (p : Nat) :
    (k.bump (Reg.LEG_PORT_CRC_CNT p)).rd (Reg.LEG_PORT_CRC_CNT p) = satAdd 16 (k.rd (Reg.LEG_PORT_CRC_CNT p)) 1 ∧
      k.bump (Reg.LEG_PORT_CRC_CNT p) = { k with regs := (k.bump (Reg.LEG_PORT_CRC_CNT p)).regs } ∧
      k.regsKept (k.bump (Reg.LEG_PORT_CRC_CNT p)) [Reg.LEG_PORT_CRC_CNT p] :=
  ⟨Stake.rd_bump_same _ _, rfl, .bump .refl (List.mem_singleton_self _)⟩

/-! HELLO. -/

/-- R246: what a HELLO shows, and the port it clears. -/
def Stake.helloHead (k : Stake) (p : Nat) (f : Reg32) : Stake :=
  (((k.put (Reg.LEG_PORT_HEAD_VERSION p) ((Fld.mk 0 24 4).of f)).putB (Reg.LEG_PORT_HEAD_BOOT p) (f.getLsbD 15)).put
    (Reg.LEG_PORT_HEAD_LATENCY p) ((Fld.mk 0 16 8).of f)).onLeg p fun q =>
      { q with hello := none, lastIn := k.now, attempts := 1, out := [], expect := [], miss := 0, gateRun := 0, sums := [] }

/-- R246: the port goes to its configuration. -/
def Stake.helloGood (k : Stake) (p : Nat) : Stake := ((k.setLink p 2).put (Reg.LEG_PORT_STATUS_CAUSE p) 0).configure p true

theorem Stake.helloStart_eq (k : Stake) (p : Nat) (f : Reg32) : k.helloStart p f =
    if (Fld.mk 0 24 4).of f ≠ 1 then (k.helloHead p f).legFail p 2
    else if f.getLsbD 15 != (k.helloHead p f).inForceB (Reg.LEG_PORT_CFG_SUPPLY p) then (k.helloHead p f).legFail p 3
    else (k.helloHead p f).helloGood p := rfl

theorem Stake.helloHead_of (hp : p < 4) (hl : p < k.leg.ports.length) : Stake.Eff [.regs, .leg] [Reg.LEG_PORT_HEAD p] k (k.helloHead p f) ∧
    (k.helloHead p f).fld (Reg.LEG_PORT_HEAD_VERSION p) = (Fld.mk 0 24 4).of f ∧
    (k.helloHead p f).fld (Reg.LEG_PORT_HEAD_LATENCY p) = (Fld.mk 0 16 8).of f ∧
    ((k.helloHead p f).lport p).out = [] ∧ ((k.helloHead p f).lport p).hello = none := by
  unfold Stake.helloHead
  have h1 : Stake.Eff [.regs, .leg] [Reg.LEG_PORT_HEAD p] k
      (((k.put (Reg.LEG_PORT_HEAD_VERSION p) ((Fld.mk 0 24 4).of f)).putB (Reg.LEG_PORT_HEAD_BOOT p) (f.getLsbD 15)).put
        (Reg.LEG_PORT_HEAD_LATENCY p) ((Fld.mk 0 16 8).of f)) :=
    .put (.putB (.put .refl (hm := by clear * - hp; revert p; decide) (ha := by clear * - hp; revert p; decide)) (hm := by clear * - hp; revert p; decide)
      (ha := by clear * - hp; revert p; decide)) (hm := by clear * - hp; revert p; decide) (ha := by clear * - hp; revert p; decide)
  have hv : (((k.put (Reg.LEG_PORT_HEAD_VERSION p) ((Fld.mk 0 24 4).of f)).putB (Reg.LEG_PORT_HEAD_BOOT p) (f.getLsbD 15)).put
        (Reg.LEG_PORT_HEAD_LATENCY p) ((Fld.mk 0 16 8).of f)).fld (Reg.LEG_PORT_HEAD_VERSION p) = (Fld.mk 0 24 4).of f :=
    (Stake.fld_put_ne _ _ _ _ (by clear * - hp; revert p; decide)).trans ((Stake.fld_putB_ne _ _ _ _ (by clear * - hp; revert p; decide)).trans
      ((Stake.fld_put_same _ _ _ (by clear * - hp; revert p; decide)).trans (Nat.mod_eq_of_lt (Fld.of_lt _ _))))
  have ht : (((k.put (Reg.LEG_PORT_HEAD_VERSION p) ((Fld.mk 0 24 4).of f)).putB (Reg.LEG_PORT_HEAD_BOOT p) (f.getLsbD 15)).put
        (Reg.LEG_PORT_HEAD_LATENCY p) ((Fld.mk 0 16 8).of f)).fld (Reg.LEG_PORT_HEAD_LATENCY p) = (Fld.mk 0 16 8).of f :=
    (Stake.fld_put_same _ _ _ (by clear * - hp; revert p; decide)).trans (Nat.mod_eq_of_lt (Fld.of_lt _ _))
  have hn : p < (((k.put (Reg.LEG_PORT_HEAD_VERSION p) ((Fld.mk 0 24 4).of f)).putB (Reg.LEG_PORT_HEAD_BOOT p) (f.getLsbD 15)).put
        (Reg.LEG_PORT_HEAD_LATENCY p) ((Fld.mk 0 16 8).of f)).leg.ports.length := by
    have ho : Stake.Only [.regs] k (((k.put (Reg.LEG_PORT_HEAD_VERSION p) ((Fld.mk 0 24 4).of f)).putB (Reg.LEG_PORT_HEAD_BOOT p) (f.getLsbD 15)).put
        (Reg.LEG_PORT_HEAD_LATENCY p) ((Fld.mk 0 16 8).of f)) := .put (.putB (.put .refl))
    rwa [ho.leg]
  generalize ((k.put (Reg.LEG_PORT_HEAD_VERSION p) ((Fld.mk 0 24 4).of f)).putB (Reg.LEG_PORT_HEAD_BOOT p) (f.getLsbD 15)).put
        (Reg.LEG_PORT_HEAD_LATENCY p) ((Fld.mk 0 16 8).of f) = q at h1 hv ht hn ⊢
  have ho : ∀ g, Stake.Only [.leg] q (q.onLeg p g) := fun _ => .onLeg .refl
  refine ⟨.onLeg h1, ((ho _).fld _).trans hv, ((ho _).fld _).trans ht, ?_, ?_⟩ <;> rw [Stake.lport_onLeg hn]

theorem Stake.pstepFrames_congr (hr : ∀ o, 0xC0000 ≤ o → j.rd o = k.rd o) (p : Nat) : j.pstepFrames p = k.pstepFrames p := by
  unfold Stake.pstepFrames
  refine List.map_congr_left fun i _ => ?_
  unfold Stake.profile
  rw [hr _ (by omega)]

theorem Stake.defFrame_congr (ha : j.act = k.act) (hi : j.id = k.id) (p : Nat) : j.defFrame p = k.defFrame p := by
  unfold Stake.defFrame
  rw [Stake.inForce_congr ha hi, Stake.inForce_congr ha hi]

theorem Stake.configure_out (hl : p < k.leg.ports.length) (b : Bool) : ((k.configure p b).lport p).out =
    (k.lport p).out ++ [k.modeFrame p b, k.defFrame p, .psel 0 0] ++ k.pstepFrames p ++ [.sumReq] := by
  unfold Stake.configure
  rw [Stake.sendFrames_out hl]
  simp

theorem Stake.helloGood_of (hp : p < 4) (hl : p < k.leg.ports.length) (ho : (k.lport p).out = []) :
    (k.helloGood p).link p = 2 ∧ k.regsKept (k.helloGood p) [Reg.LEG_PORT_STATUS p, Reg.LEG_STATUS] ∧
    ((k.helloGood p).lport p).hello = (k.lport p).hello ∧
    ((k.helloGood p).lport p).out = [(k.helloGood p).modeFrame p true, (k.helloGood p).defFrame p, .psel 0 0] ++
      (k.helloGood p).pstepFrames p ++ [.sumReq] := by
  have h1 : Stake.Eff [.regs] [Reg.LEG_PORT_STATUS p, Reg.LEG_STATUS] k ((k.setLink p 2).put (Reg.LEG_PORT_STATUS_CAUSE p) 0) :=
    .put (k.setLink_eff hp 2) (hm := by clear * - hp; revert p; decide) (ha := by clear * - hp; revert p; decide)
  have h2 : ((k.setLink p 2).put (Reg.LEG_PORT_STATUS_CAUSE p) 0).link p = 2 :=
    (Stake.fld_put_ne _ _ _ _ (by clear * - hp; revert p; decide)).trans (Stake.setLink_link hp (by decide))
  unfold Stake.helloGood
  generalize (k.setLink p 2).put (Reg.LEG_PORT_STATUS_CAUSE p) 0 = q at h1 h2 ⊢
  have hc : Stake.Only [.leg] q (q.configure p true) := Stake.sendFrames_only _
  have hn : p < q.leg.ports.length := by rwa [h1.only.leg]
  refine ⟨(hc.fld _).trans h2, h1.regs.of_eq hc.regs hc.id, ?_, ?_⟩
  · refine (Stake.lport_onLeg_keep (g := LegPort.hello) ?_ p).trans (by rw [Stake.lport_congr h1.only.leg])
    exact fun _ => rfl
  · rw [Stake.configure_out hn, Stake.modeFrame_congr (hc.flag _) hc.act hc.id, Stake.defFrame_congr hc.act hc.id,
      Stake.pstepFrames_congr fun o _ => hc.rd o, Stake.lport_congr h1.only.leg, ho]
    rfl

/-- R246: a HELLO starts the configuration, or fails the port. -/
theorem Stake.helloStart_of (hp : p < 4) (hl : p < k.leg.ports.length) :
    let v := (Fld.mk 0 24 4).of f
    let j := k.helloStart p f
    j.fld (Reg.LEG_PORT_HEAD_VERSION p) = v ∧ j.fld (Reg.LEG_PORT_HEAD_LATENCY p) = (Fld.mk 0 16 8).of f ∧
      if v ≠ 1 then j.link p = 4 ∧ j.fld (Reg.LEG_PORT_STATUS_CAUSE p) = 2 ∧ k.posted j .legLinkFail 0 [p, 2]
      else if f.getLsbD 15 ≠ k.inForceB (Reg.LEG_PORT_CFG_SUPPLY p) then j.link p = 4 ∧
        j.fld (Reg.LEG_PORT_STATUS_CAUSE p) = 3 ∧ k.posted j .legLinkFail 0 [p, 3]
      else j.link p = 2 ∧ (j.lport p).hello = none ∧
        (j.lport p).out = [j.modeFrame p true, j.defFrame p, .psel 0 0] ++ j.pstepFrames p ++ [.sumReq] := by
  intro v j
  obtain ⟨he, hv, ht, ho, hh⟩ := Stake.helloHead_of (f := f) hp hl
  have hj : j = _ := k.helloStart_eq p f
  clear_value j
  have hb : (k.helloHead p f).inForceB (Reg.LEG_PORT_CFG_SUPPLY p) = k.inForceB (Reg.LEG_PORT_CFG_SUPPLY p) := he.only.inForceB _
  have hn : p < (k.helloHead p f).leg.ports.length := by
    unfold Stake.helloHead
    rwa [Stake.onLeg_ports]
  rw [hb] at hj
  generalize k.helloHead p f = q at he hv ht ho hh hj hn
  have hfail : ∀ c, c < 8 → c ≠ 4 → (q.legFail p c).fld (Reg.LEG_PORT_HEAD_VERSION p) = v ∧
      (q.legFail p c).fld (Reg.LEG_PORT_HEAD_LATENCY p) = (Fld.mk 0 16 8).of f ∧ (q.legFail p c).link p = 4 ∧
      (q.legFail p c).fld (Reg.LEG_PORT_STATUS_CAUSE p) = c ∧ k.posted (q.legFail p c) .legLinkFail 0 [p, c] := fun c hc h4 => by
    obtain ⟨h1, h2, h3, h5⟩ := q.legFail_of hp hc []
    rw [if_neg h4] at h5
    exact ⟨(h1.regs.fld (by clear * - hp; revert p; decide)).trans hv, (h1.regs.fld (by clear * - hp; revert p; decide)).trans ht, h2, h3, he.posted h5⟩
  by_cases h1 : v ≠ 1
  · rw [if_pos h1] at hj ⊢
    obtain ⟨a, b, c⟩ := hfail 2 (by decide) (by decide)
    exact hj ▸ ⟨a, b, c⟩
  · rw [if_neg h1] at hj ⊢
    by_cases h2 : f.getLsbD 15 ≠ k.inForceB (Reg.LEG_PORT_CFG_SUPPLY p)
    · rw [if_pos h2]
      rw [if_pos (by simpa using h2)] at hj
      obtain ⟨a, b, c⟩ := hfail 3 (by decide) (by decide)
      exact hj ▸ ⟨a, b, c⟩
    · rw [if_neg h2]
      rw [if_neg (by simpa using h2)] at hj
      obtain ⟨a, b, c, d⟩ := Stake.helloGood_of hp hn ho
      exact hj ▸ ⟨(b.fld (by clear * - hp; revert p; decide)).trans hv, (b.fld (by clear * - hp; revert p; decide)).trans ht, a, c.trans hh, d⟩

/-! SUM. -/

/-- The frames of a configuration. -/
def Stake.cfgFrames (k : Stake) (p : Nat) (b : Bool) : List LegFrame :=
  [k.modeFrame p b, k.defFrame p, .psel 0 0] ++ k.pstepFrames p ++ [.sumReq]

theorem Stake.cfgFrames_congr (h : Stake.Only [.leg] k j) (b : Bool) : j.cfgFrames p b = k.cfgFrames p b := by
  unfold Stake.cfgFrames
  rw [Stake.modeFrame_congr (h.flag _) h.act h.id, Stake.defFrame_congr h.act h.id, Stake.pstepFrames_congr fun o _ => h.rd o]

/-- R246, R253: the configuration is repeated. -/
theorem Stake.configureAgain_of (hl : p < k.leg.ports.length) (b : Bool) :
    let j := (k.onLeg p fun q => { q with attempts := q.attempts + 1 }).configure p b
    j.regs = k.regs ∧ (j.lport p).attempts = (k.lport p).attempts + 1 ∧ (j.lport p).out = (k.lport p).out ++ k.cfgFrames p b := by
  have hi : Stake.Only [.leg] k (k.onLeg p fun q => { q with attempts := q.attempts + 1 }) := .onLeg .refl
  have ha : ((k.onLeg p fun q => { q with attempts := q.attempts + 1 }).lport p).attempts = (k.lport p).attempts + 1 :=
    congrArg LegPort.attempts (Stake.lport_onLeg hl fun q => { q with attempts := q.attempts + 1 })
  have ho : ((k.onLeg p fun q => { q with attempts := q.attempts + 1 }).lport p).out = (k.lport p).out :=
    Stake.lport_onLeg_keep (g := LegPort.out) (f := fun q => { q with attempts := q.attempts + 1 }) (fun _ => rfl) p
  have hn : p < (k.onLeg p fun q => { q with attempts := q.attempts + 1 }).leg.ports.length := by rwa [Stake.onLeg_ports]
  intro j
  have hj : j = (k.onLeg p fun q => { q with attempts := q.attempts + 1 }).sendFrames p
    ((k.onLeg p fun q => { q with attempts := q.attempts + 1 }).cfgFrames p b) := rfl
  clear_value j
  rw [Stake.cfgFrames_congr hi] at hj
  generalize (k.onLeg p fun q => { q with attempts := q.attempts + 1 }) = i at hi ha ho hn hj
  subst hj
  refine ⟨(Stake.sendFrames_only _).regs.trans hi.regs, ?_, (Stake.sendFrames_out hn _).trans (by rw [ho])⟩
  exact (Stake.lport_onLeg_keep (g := LegPort.attempts) (f := fun q => { q with out := q.out ++ k.cfgFrames p b }) (fun _ => rfl) p).trans ha

/-- R246, R247, R253: what a SUM does. -/
theorem Stake.sumIn_of (hp : p < 4) (hl : p < k.leg.ports.length) :
    let l := k.lport p
    let j := k.sumIn p f
    let got := (Fld.mk 0 8 16).of f
    let own := if l.sums.contains got then got else k.cfgSum p
    let rest := if l.sums.contains got then (l.sums.dropWhile fun x => x ≠ got).tail else l.sums.tail
    let tries := if k.link p = 2 then 3 else 2
    (k.link p = 2 ∨ k.link p = 3) →
      (got = own → j.regs = k.regs ∧ (j.lport p).sums = rest ∧
        (k.link p = 2 → (j.lport p).out = l.out ++ (if rest = [] ∧ LegFrame.sumReq ∉ l.out then [.arm] else [])) ∧
        (k.link p = 3 → (j.lport p).attempts = 0 ∧ (j.lport p).out = l.out)) ∧
      (got ≠ own → l.attempts < tries → j.regs = k.regs ∧ (j.lport p).attempts = l.attempts + 1 ∧
        (j.lport p).out = l.out ++ k.cfgFrames p (k.link p = 2 || k.portFdt p)) ∧
      (got ≠ own → tries ≤ l.attempts → j.link p = 4 ∧ j.fld (Reg.LEG_PORT_STATUS_CAUSE p) = 4 ∧
        k.posted j .legCfgMismatch 1 [p, got, own]) := by
  intro l j got own rest tries hk
  have hj : j = k.sumIn p f := rfl
  unfold Stake.sumIn at hj
  extract_lets i at hj
  have hi : Stake.Eff [.leg] [] k i := .onLeg .refl
  have hil : i.lport p = { l with sums := rest } := Stake.lport_onLeg hl fun q => { q with sums := rest }
  have hin : p < i.leg.ports.length := by rwa [Stake.onLeg_ports]
  have hik : i.link p = k.link p := hi.only.fld _
  have hfdt : i.portFdt p = k.portFdt p := by
    unfold Stake.portFdt
    rw [hil]
  have hfail := i.legFail_of hp (by decide : 4 < 8) [got, own]
  have hagain : ∀ b, _ := fun b => Stake.configureAgain_of hin b
  have hfr : ∀ b, i.cfgFrames p b = k.cfgFrames p b := fun b => Stake.cfgFrames_congr hi.only b
  have hio : (i.lport p).out = l.out := by rw [hil]
  have hia : (i.lport p).attempts = l.attempts := by rw [hil]
  have his : (i.lport p).sums = rest := by rw [hil]
  have hm : (k.link p = 2 ∧ j = if got = own then (if rest.isEmpty && !l.out.contains .sumReq then i.sendFrames p [.arm] else i)
        else if 3 ≤ l.attempts then i.legFail p 4 [got, own]
        else (i.onLeg p fun q => { q with attempts := q.attempts + 1 }).configure p true) ∨
      (k.link p = 3 ∧ j = if got = own then i.onLeg p fun q => { q with attempts := 0 }
        else if 2 ≤ l.attempts then i.legFail p 4 [got, own]
        else (i.onLeg p fun q => { q with attempts := q.attempts + 1 }).configure p (k.portFdt p)) := by
    rcases hk with h2 | h3
    · rw [hik.trans h2] at hj
      exact .inl ⟨h2, hj⟩
    · rw [hik.trans h3, hfdt] at hj
      exact .inr ⟨h3, hj⟩
  clear_value i j
  simp only [hfr, hio, hia] at hagain
  by_cases hg : got = own
  · refine ⟨fun _ => ?_, fun h => absurd hg h, fun h => absurd hg h⟩
    rcases hm with ⟨h2, hj⟩ | ⟨h3, hj⟩
    · rw [if_pos hg] at hj
      by_cases hr : rest = [] ∧ LegFrame.sumReq ∉ l.out
      · rw [if_pos (by simpa using hr)] at hj
        rw [if_pos hr, hj]
        refine ⟨(Stake.sendFrames_only _).regs.trans hi.only.regs, ?_, fun _ => (Stake.sendFrames_out hin _).trans (by rw [hio]), fun h => ?_⟩
        · exact (Stake.lport_onLeg_keep (g := LegPort.sums) (f := fun q => { q with out := q.out ++ [.arm] }) (fun _ => rfl) p).trans his
        · omega
      · rw [if_neg (by simpa using hr)] at hj
        rw [if_neg hr, hj]
        exact ⟨hi.only.regs, his, fun _ => by rw [hio, List.append_nil], fun h => by omega⟩
    · rw [if_pos hg] at hj
      have ho : Stake.Only [.leg] i (i.onLeg p fun q => { q with attempts := 0 }) := .onLeg .refl
      rw [hj]
      refine ⟨ho.regs.trans hi.only.regs, ?_, fun h => by omega, fun _ => ⟨?_, ?_⟩⟩ <;> rw [Stake.lport_onLeg hin]
      · exact his
      · exact hio
  · refine ⟨fun h => absurd h hg, fun _ ht => ?_, fun _ ht => ?_⟩
    · rcases hm with ⟨h2, hj⟩ | ⟨h3, hj⟩
      · rw [if_neg hg, if_neg (by simp only [tries, h2] at ht; simpa using ht)] at hj
        rw [hj, h2]
        obtain ⟨a, b, c⟩ := hagain true
        exact ⟨a.trans hi.only.regs, b, c⟩
      · rw [if_neg hg, if_neg (by simp only [tries, h3] at ht; simpa using ht)] at hj
        rw [hj, h3]
        obtain ⟨a, b, c⟩ := hagain (k.portFdt p)
        exact ⟨a.trans hi.only.regs, b, c⟩
    · have hjf : j = i.legFail p 4 [got, own] := by
        rcases hm with ⟨h2, hj⟩ | ⟨h3, hj⟩
        · rwa [if_neg hg, if_pos (by simp only [tries, h2] at ht; simpa using ht)] at hj
        · rwa [if_neg hg, if_pos (by simp only [tries, h3] at ht; simpa using ht)] at hj
      obtain ⟨h1, h2, h3, h4⟩ := hfail
      rw [if_pos rfl] at h4
      exact hjf ▸ ⟨h2, h3, hi.posted h4⟩

/-! STATUS. -/

/-- The fields of the registers that a STATUS writes past the six it shows directly. -/
def statusFlds (p : Nat) : List Fld :=
  [Reg.LEG_STATUS_IL_CONF, Reg.PLT_PS_STATUS_IDENT, Reg.LEG_PORT_STATUS_UV_HS p, Reg.LEG_PORT_STATUS_UV_LS p, Reg.LEG_PORT_STATUS_OT p,
    Reg.LEG_PORT_STATUS_SPARE p, Reg.LEG_PORT_STATUS_LINK p, Reg.LEG_PORT_STATUS_CAUSE p, Reg.LEG_STATUS_READY, Reg.SPL_SUMMARY_EDGE,
    Reg.MOD_STATUS_CUT, ⟨Reg.LEG_PORT_BOOT_UV_CNT p, 0, 32⟩, ⟨Reg.LEG_PORT_SPLICE_CNT p, 0, 32⟩, ⟨Reg.MOD_CUT_CNT, 0, 32⟩,
    ⟨Reg.MOD_SPACING_CNT, 0, 32⟩] ++ axisFlds

theorem axisFlds_statusFlds (p : Nat) : axisFlds ⊆ statusFlds p := List.subset_append_right _ _

theorem Stake.portOff_fldsKept (b : Bool) : k.fldsKept (k.portOff p b) [⟨Reg.MOD_SPACING_CNT, 0, 32⟩] :=
  (Stake.Eff.portOff (l := [.modu, .regs]) (m := [Reg.MOD_SPACING_CNT]) .refl).regs.flds

theorem Stake.cutPort_fldsKept (hp : p < 4) (c : Nat) : k.fldsKept (k.cutPort p c) (statusFlds p) := by
  unfold Stake.cutPort
  extract_lets q was at_ aux endAt i i2 i3
  have h1 : k.fldsKept i (statusFlds p) := (k.portOff_fldsKept _).mono (by clear * - hp; revert p; decide)
  have h3 : k.fldsKept i3 (statusFlds p) := .ite (.onMod (.onPort h1)) (.onPort h1)
  exact .ite .refl (.post (.bump (.put h3 (by clear * - hp; revert p; decide)) (by clear * - hp; revert p; decide)) (axisFlds_statusFlds p))

theorem Stake.supplyFlags_fldsKept (hp : p < 4) (a b c : Bool) (d : List Nat) : k.fldsKept (k.supplyFlags p a b c d) (statusFlds p) := by
  unfold Stake.supplyFlags
  extract_lets riseH riseL riseT q boot sup q1 q2 q3
  have hs := axisFlds_statusFlds p
  have h0 : k.fldsKept q (statusFlds p) := .putB (.putB (.putB .refl (by clear * - hp; revert p; decide)) (by clear * - hp; revert p; decide)) (by clear * - hp; revert p; decide)
  have h1 : k.fldsKept q1 (statusFlds p) := .onLeg (.post (.bump h0 (by clear * - hp; revert p; decide)) hs)
  have h2 : k.fldsKept q2 (statusFlds p) := .ite (.ite (.post (.onLeg h1) hs) (h1.trans (q1.cutPort_fldsKept hp 2))) h0
  have h3 : k.fldsKept q3 (statusFlds p) := .ite (.post h2 hs) h2
  exact .ite (.post h3 hs) h3

theorem Stake.gateCheck_fldsKept (a b : Bool) : k.fldsKept (k.gateCheck p a b) (statusFlds p) := by
  unfold Stake.gateCheck
  extract_lets l q n i x
  have h1 : k.fldsKept i (statusFlds p) := .onLeg .refl
  exact .ite .refl (.ite (.post h1 (axisFlds_statusFlds p)) h1)

theorem Stake.confirmOff_fldsKept (b : Bool) : k.fldsKept (k.confirmOff p b) (statusFlds p) := by
  unfold Stake.confirmOff
  extract_lets seen i
  have h1 : k.fldsKept i (statusFlds p) := .onPair .refl
  exact .ite .refl (.ite (.onPair (.sendCell h1)) h1)

theorem Stake.splice_fldsKept (hp : p < 4) (c : Nat) : k.fldsKept (k.splice p c) (statusFlds p) := by
  unfold Stake.splice
  extract_lets b q i
  have h1 : k.fldsKept q (statusFlds p) := .onLeg (.put (.putB .refl (by clear * - hp; revert p; decide)) (by clear * - hp; revert p; decide))
  exact .post (.ite h1 (.bump h1 (by clear * - hp; revert p; decide))) (axisFlds_statusFlds p)

theorem Stake.legLost_fldsKept (hp : p < 4) : k.fldsKept (k.legLost p) (statusFlds p) :=
  .post (.onLeg (.put (.put (.put .refl (by revert p; decide)) (by revert p; decide)) (by revert p; decide))) (axisFlds_statusFlds p)

/-- What a STATUS shows before it is acted on. -/
def Stake.statusShown (k : Stake) (p : Nat) (f : Reg32) : Stake :=
  (((((k.putB (Reg.LEG_PORT_STATUS_G_HS p) (f.getLsbD 27)).putB (Reg.LEG_PORT_STATUS_G_LS p) (f.getLsbD 26)).putB
    (Reg.LEG_PORT_STATUS_LATCH p) (f.getLsbD 23)).putB (Reg.LEG_PORT_STATUS_KA_LOST p) (f.getLsbD 22)).putB
    (Reg.LEG_PORT_STATUS_WL_LOST p) (f.getLsbD 18)).putB (Reg.LEG_PORT_STATUS_FDT p) (f.getLsbD 16)

theorem Stake.statusIn_fldsKept (hp : p < 4) : (k.statusShown p f).fldsKept (k.statusIn p f) (statusFlds p) := by
  unfold Stake.statusIn
  extract_lets b ka wl k1 k2 il k3 id k4 k5 k6 k7 k8 k9 k10
  have e2 : k2 = k.statusShown p f := rfl
  rw [← e2]
  clear_value k2
  have h3 : k2.fldsKept k3 (statusFlds p) := .put .refl (by clear * - hp; revert p; decide)
  have h4 : k2.fldsKept k4 (statusFlds p) := .ite (.put h3 (by clear * - hp; revert p; decide)) h3
  have h5 : k2.fldsKept k5 (statusFlds p) := .ite h3 (.onLeg h4)
  have h6 : k2.fldsKept k6 (statusFlds p) := h5.trans (k5.supplyFlags_fldsKept hp _ _ _ _)
  have h7 : k2.fldsKept k7 (statusFlds p) := .ite (.post h6 (axisFlds_statusFlds p)) h6
  have h8 : k2.fldsKept k8 (statusFlds p) := (h7.trans (k7.gateCheck_fldsKept _ _)).trans (Stake.confirmOff_fldsKept _)
  have h9 : k2.fldsKept k9 (statusFlds p) := .onLeg h8
  have h10 : k2.fldsKept k10 (statusFlds p) := .ite (h9.trans (k9.splice_fldsKept hp 2)) h9
  exact .ite (h10.trans (k10.legLost_fldsKept hp)) h10

theorem statusFlds_apart : ∀ p < 4, ∀ g ∈ statusFlds p, g.apart (Reg.LEG_PORT_STATUS_G_HS p) ∧ g.apart (Reg.LEG_PORT_STATUS_G_LS p) ∧
    g.apart (Reg.LEG_PORT_STATUS_LATCH p) ∧ g.apart (Reg.LEG_PORT_STATUS_KA_LOST p) ∧ g.apart (Reg.LEG_PORT_STATUS_WL_LOST p) ∧
    g.apart (Reg.LEG_PORT_STATUS_FDT p) := by decide

/-- R242: what a STATUS shows of the leg head. -/
theorem Stake.statusIn_of (hp : p < 4) : let j := k.statusIn p f
    j.flag (Reg.LEG_PORT_STATUS_G_HS p) = f.getLsbD 27 ∧
      j.flag (Reg.LEG_PORT_STATUS_G_LS p) = f.getLsbD 26 ∧ j.flag (Reg.LEG_PORT_STATUS_LATCH p) = f.getLsbD 23 ∧
      j.flag (Reg.LEG_PORT_STATUS_KA_LOST p) = f.getLsbD 22 ∧ j.flag (Reg.LEG_PORT_STATUS_WL_LOST p) = f.getLsbD 18 ∧
      j.flag (Reg.LEG_PORT_STATUS_FDT p) = f.getLsbD 16 := by
  have h := k.statusIn_fldsKept (f := f) hp
  have ha := statusFlds_apart p hp
  intro j
  have hw : ∀ g, (∀ x ∈ statusFlds p, x.apart g) → j.flag g = (k.statusShown p f).flag g := fun g hg => h.flag hg
  rw [hw _ fun x hx => (ha x hx).1, hw _ fun x hx => (ha x hx).2.1, hw _ fun x hx => (ha x hx).2.2.1, hw _ fun x hx => (ha x hx).2.2.2.1,
    hw _ fun x hx => (ha x hx).2.2.2.2.1, hw _ fun x hx => (ha x hx).2.2.2.2.2]
  unfold Stake.statusShown
  refine ⟨?_, ?_, ?_, ?_, ?_, ?_⟩
  · iterate 5 rw [Stake.flag_putB_ne _ _ _ _ (by clear * - hp; revert p; decide)]
    exact Stake.flag_putB_same _ _ _ (by clear * - hp; revert p; decide) rfl
  · iterate 4 rw [Stake.flag_putB_ne _ _ _ _ (by clear * - hp; revert p; decide)]
    exact Stake.flag_putB_same _ _ _ (by clear * - hp; revert p; decide) rfl
  · iterate 3 rw [Stake.flag_putB_ne _ _ _ _ (by clear * - hp; revert p; decide)]
    exact Stake.flag_putB_same _ _ _ (by clear * - hp; revert p; decide) rfl
  · iterate 2 rw [Stake.flag_putB_ne _ _ _ _ (by clear * - hp; revert p; decide)]
    exact Stake.flag_putB_same _ _ _ (by clear * - hp; revert p; decide) rfl
  · rw [Stake.flag_putB_ne _ _ _ _ (by clear * - hp; revert p; decide)]
    exact Stake.flag_putB_same _ _ _ (by clear * - hp; revert p; decide) rfl
  · exact Stake.flag_putB_same _ _ _ (by clear * - hp; revert p; decide) rfl

end

/-- R246, R247, R253: what a SUM frame does. -/
theorem legSum_of {s : State} {n p : Nat} {f : Reg32} (hs : s.present n = true) (hp : p < 4) (hl : p < (s.stake n).leg.ports.length)
    (hf : frameOk f 6 = true) :
    let k := s.stake n
    let l := k.lport p
    let got := (Fld.mk 0 8 16).of f
    let own := if l.sums.contains got then got else k.cfgSum p
    let rest := if l.sums.contains got then (l.sums.dropWhile fun x => x ≠ got).tail else l.sums.tail
    let tries := if k.link p = 2 then 3 else 2
    (k.link p = 2 ∨ k.link p = 3) →
    ∃ t, exec (.legSum n p f) s = .next t ∧ s.elsewhere t n ∧
      (got = own → (t.stake n).regs = k.regs ∧ ((t.stake n).lport p).sums = rest ∧
        (k.link p = 2 → ((t.stake n).lport p).out = l.out ++ (if rest = [] ∧ LegFrame.sumReq ∉ l.out then [.arm] else [])) ∧
        (k.link p = 3 → ((t.stake n).lport p).attempts = 0 ∧ ((t.stake n).lport p).out = l.out)) ∧
      (got ≠ own → l.attempts < tries → (t.stake n).regs = k.regs ∧ ((t.stake n).lport p).attempts = l.attempts + 1 ∧
        ((t.stake n).lport p).out = l.out ++ [k.modeFrame p (k.link p = 2 || k.portFdt p), k.defFrame p, .psel 0 0] ++ k.pstepFrames p ++
          [.sumReq]) ∧
      (got ≠ own → tries ≤ l.attempts → (t.stake n).link p = 4 ∧ (t.stake n).fld (Reg.LEG_PORT_STATUS_CAUSE p) = 4 ∧
        k.posted (t.stake n) .legCfgMismatch 1 [p, got, own]) := by
  intro k l got own rest tries hk
  obtain ⟨t, ht, he, hj⟩ := exec_onStake hs fun k => k.frameIn p 6 f fun k => k.sumIn p f
  have hk0 : k.link p ≠ 0 := by omega
  rw [Stake.frameIn_ok hp hk0 hf] at hj
  have hq : Stake.Eff [.leg] [] k (k.onLeg p fun l => { l with lastIn := k.now }) := .onLeg .refl
  have hql : (k.onLeg p fun l => { l with lastIn := k.now }).lport p = { l with lastIn := k.now } := Stake.lport_onLeg hl _
  have hqn : p < (k.onLeg p fun l => { l with lastIn := k.now }).leg.ports.length := by rwa [Stake.onLeg_ports]
  generalize (k.onLeg p fun l => { l with lastIn := k.now }) = q at hq hql hqn hj
  have hlink : q.link p = k.link p := hq.only.fld _
  have hfdt : q.portFdt p = k.portFdt p := by
    unfold Stake.portFdt
    rw [hql]
  have hsum : q.cfgSum p = k.cfgSum p := by
    unfold Stake.cfgSum
    rw [hql]
    rfl
  have hall := Stake.sumIn_of (f := f) hp hqn
  simp only [hql, hlink, hfdt, hsum, hq.only.regs, Stake.cfgFrames_congr hq.only] at hall
  obtain ⟨h1, h2, h3⟩ := hall hk
  refine ⟨t, ht, he, ?_⟩
  rw [hj]
  refine ⟨h1, fun hg ha => ?_, fun hg ha => ?_⟩
  · obtain ⟨a, b, c⟩ := h2 hg ha
    exact ⟨a, b, c.trans (by simp only [Stake.cfgFrames, List.append_assoc, l])⟩
  · obtain ⟨a, b, c⟩ := h3 hg ha
    exact ⟨a, b, hq.posted c⟩

/-- Settles O44. -/
theorem legHeadAnswers : Obligations.LegHeadAnswers := by
  unfold Obligations.LegHeadAnswers
  refine ⟨fun s n p f hs hp hl hk hf => ?_, fun s n p f hs hp hl hh hq hk hv hb => ?_, fun s n p f hs hp hl hf => legSum_of hs hp hl hf,
    fun s n p f hs hp hk hf => ?_, fun s n p hs hp hk => ?_⟩
  · intro k v
    obtain ⟨t, ht, he, hj⟩ := exec_onStake hs fun k => k.frameIn p 1 f fun k => k.helloIn p f
    rw [Stake.frameIn_ok hp (by rw [hk]; decide) hf] at hj
    have hq : Stake.Eff [.leg] [] k (k.onLeg p fun l => { l with lastIn := k.now }) := .onLeg .refl
    have hqn : p < (k.onLeg p fun l => { l with lastIn := k.now }).leg.ports.length := by rwa [Stake.onLeg_ports]
    generalize (k.onLeg p fun l => { l with lastIn := k.now }) = q at hq hqn hj
    have hlink : q.link p = 1 := (hq.only.fld _).trans hk
    have hin : q.helloIn p f = q.helloStart p f := by
      unfold Stake.helloIn
      rw [hlink]
      rfl
    rw [hin] at hj
    obtain ⟨h1, h2, h3⟩ := Stake.helloStart_of (f := f) hp hqn
    rw [hq.only.inForceB] at h3
    refine ⟨t, ht, he, ?_⟩
    rw [hj]
    refine ⟨h1, h2, ?_⟩
    split
    · next hv =>
      rw [if_pos hv] at h3
      exact ⟨h3.1, h3.2.1, hq.posted h3.2.2⟩
    · next hv =>
      rw [if_neg hv] at h3
      split
      · next hb =>
        rw [if_pos hb] at h3
        exact ⟨h3.1, h3.2.1, hq.posted h3.2.2⟩
      · next hb =>
        rw [if_neg hb] at h3
        exact ⟨h3.1, h3.2.2⟩
  · refine ⟨_, rfl, s.onStake_elsewhere n _, ?_⟩
    rw [State.onStake_stake_same hs]
    simp only [hh]
    rw [if_pos (by simp [hq, hk])]
    obtain ⟨_, _, h3⟩ := Stake.helloStart_of (f := f) hp hl
    rw [if_neg (by simp [hv]), if_neg (not_not.mpr hb)] at h3
    exact ⟨h3.1, h3.2.1⟩
  · obtain ⟨t, ht, he, hj⟩ := exec_onStake hs fun k => k.frameIn p 2 f fun k => k.statusIn p f
    rw [Stake.frameIn_ok hp hk hf] at hj
    exact ⟨t, ht, he, hj ▸ Stake.statusIn_of hp⟩
  · intro counted
    have hbad : ∀ (c : Instr) (act : Stake → Stake), exec c s = .next (s.onStake n act) →
        act (s.stake n) = (s.stake n).bump (Reg.LEG_PORT_CRC_CNT p) → counted c := fun c act hc ha => by
      obtain ⟨h1, h2, h3⟩ := (s.stake n).badCount p
      refine ⟨_, hc, s.onStake_elsewhere n _, ?_⟩
      rw [State.onStake_stake_same hs, ha]
      exact ⟨h1, h2, h3⟩
    refine ⟨hbad _ _ rfl (if_neg (by simp [hk, hp])), fun f hf => ⟨?_, ?_, ?_, ?_, ?_, ?_, ?_⟩⟩
    · exact hbad _ _ rfl (Stake.frameIn_bad hp hk hf (by decide) _)
    · exact hbad _ _ rfl (Stake.frameIn_bad hp hk hf (by decide) _)
    · exact hbad _ _ rfl (Stake.frameIn_bad hp hk hf (by decide) _)
    · exact hbad _ _ rfl (Stake.frameIn_bad hp hk hf (by decide) _)
    · exact hbad _ _ rfl (Stake.frameIn_bad hp hk hf (by decide) _)
    · exact hbad _ _ rfl (Stake.frameIn_bad hp hk hf (by decide) _)
    · exact hbad _ _ rfl (Stake.frameIn_bad hp hk hf (by decide) _)

end Sys2Proof.Machine

/-! EVENT, FAULT and telemetry of a leg head, and the steps of a self-test (R199, R242, R252 to R254, R258, R268, R269). -/
namespace Sys2Proof.Machine
set_option Elab.async false

section
variable {k j i : Stake} {p : Nat} {f : Reg32}

/-! EVENT. -/

/-- The registers an EVENT may write past its count of deferrals. -/
def eventRegs (p : Nat) : List Nat := [Reg.LEG_PORT_REJ_CNT p, Reg.LEG_PORT_IL_TMO_CNT p, Reg.MOD_PORT_WAIT p] ++ axisRegs

/-- R254: a rejection is counted, and posted outside a self-test. -/
def Stake.eventReject (k : Stake) (p : Nat) (f : Reg32) (testing : Bool) : Stake :=
  if f.getLsbD 22 then
    (if testing then k.bump (Reg.LEG_PORT_REJ_CNT p) else (k.bump (Reg.LEG_PORT_REJ_CNT p)).post .legSeqReject 1 [p, (Fld.mk 0 25 3).of f])
  else k

/-- R256: an interlock timeout is counted and posted. -/
def Stake.eventTimeout (k : Stake) (p : Nat) (f : Reg32) : Stake :=
  if f.getLsbD 23 then
    (k.bump (Reg.LEG_PORT_IL_TMO_CNT p)).post .legIlTimeout ((k.bump (Reg.LEG_PORT_IL_TMO_CNT p)).inForce (Reg.LEG_PORT_CFG_IL_CLASS p)) [p, (Fld.mk 0 25 3).of f]
  else k

/-- R199: the wait filter of a switch takes a report. -/
def Stake.eventWait (k : Stake) (p : Nat) (f : Reg32) (sym : Symb) : Stake :=
  if sym.on && !f.getLsbD 22 && !k.flag Reg.MOD_STATUS_FDT then
    k.put (if sym = .hsOn then Reg.MOD_PORT_WAIT_W_HS p else Reg.MOD_PORT_WAIT_W_LS p)
      (waitStep (k.fld (if sym = .hsOn then Reg.MOD_PORT_WAIT_W_HS p else Reg.MOD_PORT_WAIT_W_LS p)) ((Fld.mk 0 8 13).of f))
  else k

theorem Stake.eventIn_eq {sym : Symb} (h : symOf ((Fld.mk 0 25 3).of f) = some sym) (k : Stake) : ∃ g : LegPort → LegPort,
    (∀ l, (g l).expect = dropFirst (fun x => x.1 = sym) l.expect) ∧
    k.eventIn p f = ((((k.onLeg p g).bump (Reg.LEG_PORT_DEF_CNT p) (if f.getLsbD 24 then 1 else 0)).eventReject p f (k.lport p).test.isSome).eventTimeout
      p f).eventWait p f sym := by
  unfold Stake.eventIn
  rw [h]
  exact ⟨_, fun _ => rfl, rfl⟩

theorem Stake.eventReject_eff (hp : p < 4) (b : Bool) : Stake.Eff [.regs, .out, .prt] (eventRegs p) k (k.eventReject p f b) := by
  have h : Stake.Eff [.regs, .out, .prt] (eventRegs p) k (k.bump (Reg.LEG_PORT_REJ_CNT p)) :=
    .bump .refl (hm := by clear * - hp; revert p; decide) (ha := by clear * - hp; revert p; decide)
  exact .ite (.ite h (.post h (hm := List.subset_append_right _ _))) .refl

theorem Stake.eventTimeout_eff (hp : p < 4) : Stake.Eff [.regs, .out, .prt] (eventRegs p) k (k.eventTimeout p f) := by
  have h : Stake.Eff [.regs, .out, .prt] (eventRegs p) k (k.bump (Reg.LEG_PORT_IL_TMO_CNT p)) :=
    .bump .refl (hm := by revert p; decide) (ha := by revert p; decide)
  exact .ite (.post h (hm := List.subset_append_right _ _)) .refl

theorem Stake.eventWait_eff (hp : p < 4) (sym : Symb) : Stake.Eff [.regs, .out, .prt] [Reg.MOD_PORT_WAIT p] k (k.eventWait p f sym) := by
  unfold Stake.eventWait
  by_cases hs : sym = .hsOn
  · simp only [hs, if_true]
    exact .ite (.put .refl (hm := by clear * - hp; revert p; decide) (ha := by clear * - hp; revert p; decide)) .refl
  · simp only [hs, if_false]
    exact .ite (.put .refl (hm := by clear * - hp; revert p; decide) (ha := by clear * - hp; revert p; decide)) .refl

theorem Stake.eventReject_of (hp : p < 4) (h22 : f.getLsbD 22 = true) (b : Bool) :
    (k.eventReject p f b).rd (Reg.LEG_PORT_REJ_CNT p) = satAdd 16 (k.rd (Reg.LEG_PORT_REJ_CNT p)) 1 ∧
      (b = false → k.posted (k.eventReject p f b) .legSeqReject 1 [p, (Fld.mk 0 25 3).of f]) := by
  have h : Stake.Eff [.regs, .out, .prt] (eventRegs p) k (k.bump (Reg.LEG_PORT_REJ_CNT p)) :=
    .bump .refl (hm := by clear * - hp; revert p; decide) (ha := by clear * - hp; revert p; decide)
  unfold Stake.eventReject
  rw [if_pos h22]
  cases b with
  | true => exact ⟨Stake.rd_bump_same _ _, nofun⟩
  | false => exact ⟨(Stake.rd_post _ _ _ _ _ (by clear * - hp; revert p; decide)).trans (Stake.rd_bump_same _ _), fun _ => h.post_posted _ _ _⟩

/-- R199, R252, R254, R256: what an EVENT reports. -/
theorem Stake.eventIn_of {sym : Symb} (hp : p < 4) (hl : p < k.leg.ports.length) (hs : symOf ((Fld.mk 0 25 3).of f) = some sym) :
    let j := k.eventIn p f
    (j.lport p).expect = dropFirst (fun x => x.1 = sym) (k.lport p).expect ∧
      j.rd (Reg.LEG_PORT_DEF_CNT p) = (if f.getLsbD 24 then satAdd 16 (k.rd (Reg.LEG_PORT_DEF_CNT p)) 1 else k.rd (Reg.LEG_PORT_DEF_CNT p)) ∧
      (f.getLsbD 22 = true → j.rd (Reg.LEG_PORT_REJ_CNT p) = satAdd 16 (k.rd (Reg.LEG_PORT_REJ_CNT p)) 1 ∧
        ((k.lport p).test = none → k.posted j .legSeqReject 1 [p, (Fld.mk 0 25 3).of f])) ∧
      (f.getLsbD 23 = true → j.rd (Reg.LEG_PORT_IL_TMO_CNT p) = satAdd 16 (k.rd (Reg.LEG_PORT_IL_TMO_CNT p)) 1) := by
  obtain ⟨g, hg, hj⟩ := k.eventIn_eq (p := p) hs
  intro j
  have hj' : j = _ := hj
  clear_value j
  have h1 : Stake.Only [.leg] k (k.onLeg p g) := .onLeg .refl
  have h1e : ((k.onLeg p g).lport p).expect = dropFirst (fun x => x.1 = sym) (k.lport p).expect := by rw [Stake.lport_onLeg hl, hg]
  have h1E : Stake.Eff [.leg, .regs] [Reg.LEG_PORT_DEF_CNT p] k ((k.onLeg p g).bump (Reg.LEG_PORT_DEF_CNT p) (if f.getLsbD 24 then 1 else 0)) :=
    .bump (.onLeg .refl) (hm := by clear * - hp; revert p; decide) (ha := by clear * - hp; revert p; decide)
  have h2 : ((k.onLeg p g).bump (Reg.LEG_PORT_DEF_CNT p) (if f.getLsbD 24 then 1 else 0)).rd (Reg.LEG_PORT_DEF_CNT p) =
      if f.getLsbD 24 then satAdd 16 (k.rd (Reg.LEG_PORT_DEF_CNT p)) 1 else k.rd (Reg.LEG_PORT_DEF_CNT p) := by
    cases f.getLsbD 24 with
    | true => exact (Stake.rd_bump_same _ _).trans (by rw [h1.rd]; rfl)
    | false => exact h1.rd _
  have h2l : ((k.onLeg p g).bump (Reg.LEG_PORT_DEF_CNT p) (if f.getLsbD 24 then 1 else 0)).leg = (k.onLeg p g).leg :=
    (Stake.Only.bump (l := [.regs]) .refl).leg
  generalize (k.onLeg p g).bump (Reg.LEG_PORT_DEF_CNT p) (if f.getLsbD 24 then 1 else 0) = q at hj' h1E h2 h2l
  have e3 := q.eventReject_eff (f := f) hp (k.lport p).test.isSome
  have e4 := (q.eventReject p f (k.lport p).test.isSome).eventTimeout_eff (f := f) hp
  have e5 := ((q.eventReject p f (k.lport p).test.isSome).eventTimeout p f).eventWait_eff (f := f) hp sym
  rw [← hj'] at e5
  have e5' : Stake.Eff [.regs, .out, .prt] (eventRegs p) _ j := e5.mono (hm := by clear * - hp; revert p; decide)
  refine ⟨?_, ?_, fun h22 => ⟨?_, fun ht => ?_⟩, fun h23 => ?_⟩
  · rw [Stake.lport_congr (((e3.trans e4).trans e5').only.leg.trans h2l), h1e]
  · rw [((e3.trans e4).trans e5').regs _ (by clear * - hp; revert p; decide), h2]
  · have hr := (q.eventReject_of hp h22 (k.lport p).test.isSome).1
    rw [e5.regs _ (by clear * - hp; revert p; decide)]
    have e4' : ((q.eventReject p f (k.lport p).test.isSome).eventTimeout p f).rd (Reg.LEG_PORT_REJ_CNT p) =
        (q.eventReject p f (k.lport p).test.isSome).rd (Reg.LEG_PORT_REJ_CNT p) := by
      unfold Stake.eventTimeout
      split
      · exact (Stake.rd_post _ _ _ _ _ (by clear * - hp; revert p; decide)).trans (Stake.rd_bump_ne _ _ (by clear * - hp; revert p; decide))
      · rfl
    rw [e4', hr, h1E.regs _ (by clear * - hp; revert p; decide)]
  · have hr := (q.eventReject_of hp h22 (k.lport p).test.isSome).2 (by rw [ht]; rfl)
    exact (h1E.posted hr).of_prefix (e4.out.trans e5.out)
  · rw [e5.regs _ (by clear * - hp; revert p; decide)]
    have e3' : (q.eventReject p f (k.lport p).test.isSome).rd (Reg.LEG_PORT_IL_TMO_CNT p) = k.rd (Reg.LEG_PORT_IL_TMO_CNT p) := by
      rw [← h1E.regs _ (by clear * - hp; revert p; decide)]
      have hb : (q.bump (Reg.LEG_PORT_REJ_CNT p)).rd (Reg.LEG_PORT_IL_TMO_CNT p) = q.rd (Reg.LEG_PORT_IL_TMO_CNT p) :=
        Stake.rd_bump_ne _ _ (by clear * - hp; revert p; decide)
      unfold Stake.eventReject
      split
      · split
        · exact hb
        · exact (Stake.rd_post _ _ _ _ _ (by clear * - hp; revert p; decide)).trans hb
      · rfl
    unfold Stake.eventTimeout
    rw [if_pos h23, Stake.rd_post _ _ _ _ _ (by clear * - hp; revert p; decide), Stake.rd_bump_same, e3']

/-! FAULT. -/

/-- What follows a FAULT's trip: no record is lost, no trip comes, and no desaturation is taken back. -/
structure Stake.Calm (k j : Stake) : Prop where
  out : k.outKept j
  trips : j.prt.trips = k.prt.trips
  desat : ∀ r, (j.lport r).desat = (k.lport r).desat

namespace Stake.Calm

theorem refl : Calm k k := ⟨.refl, rfl, fun _ => rfl⟩
theorem trans (h : Calm k j) (h' : Calm j i) : Calm k i :=
  ⟨h.out.trans h'.out, h'.trips.trans h.trips, fun r => (h'.desat r).trans (h.desat r)⟩
theorem ite {c : Prop} [Decidable c] (h : Calm k j) (h' : Calm k i) : Calm k (if c then j else i) := by split <;> assumption
theorem post (h : Calm k j) {e : Ev} {c : Nat} {v : List Nat} : Calm k (j.post e c v) :=
  ⟨h.out.post, (j.post_trips e c v).trans h.trips, fun r => by
    rw [Stake.lport_congr (Stake.Only.post_only j e c v).leg, h.desat]⟩
/-- A change of parts that hold no record, trip or port. -/
theorem of_only {l : List StakePart} (h : Calm k j) (h' : Stake.Only l j i)
    (hl : StakePart.out ∉ l ∧ StakePart.prt ∉ l ∧ StakePart.leg ∉ l := by decide) : Calm k i :=
  ⟨h.out.of_eq (h'.out hl.1), (by rw [h'.prt hl.2.1, h.trips]), fun r => by rw [Stake.lport_congr (h'.leg hl.2.2), h.desat]⟩
theorem onLeg (h : Calm k j) {g : LegPort → LegPort} (hg : ∀ l, (g l).desat = l.desat) : Calm k (j.onLeg p g) :=
  ⟨h.out.of_eq rfl, h.trips, fun r => (Stake.lport_onLeg_keep (g := LegPort.desat) hg r).trans (h.desat r)⟩
theorem cutPort (h : Calm k j) {c : Nat} : Calm k (j.cutPort p c) := by
  unfold Stake.cutPort
  extract_lets q was at_ aux endAt i1 i2 i3
  have h1 : Stake.Only [.modu, .regs] j i1 := (Stake.Eff.portOff (l := [.modu, .regs]) (m := [Reg.MOD_SPACING_CNT]) .refl).only
  have h3 : Stake.Only [.modu, .regs] j i3 := .ite (.onMod (.onPort h1)) (.onPort h1)
  exact .ite h (.post (h.of_only (.bump (.put h3))))

end Stake.Calm

theorem Stake.supplyFlags_calm (a b c : Bool) (d : List Nat) : Stake.Calm k (k.supplyFlags p a b c d) := by
  unfold Stake.supplyFlags
  extract_lets riseH riseL riseT q boot sup q1 q2 q3
  have h0 : Stake.Calm k q := .of_only .refl (.putB (.putB (.putB (l := [.regs]) .refl)))
  have h1 : Stake.Calm k q1 := .onLeg (.post (h0.of_only (.bump (l := [.regs]) .refl))) fun _ => rfl
  have hb : Stake.Calm k (q1.onLeg p fun l => { l with bootRefresh := false }) := h1.onLeg fun _ => rfl
  have h2 : Stake.Calm k q2 := .ite (.ite (.post hb) (.cutPort h1)) h0
  have h3 : Stake.Calm k q3 := .ite (.post h2) h2
  exact .ite (.post h3) h3

/-- R258: the flags of a FAULT. -/
def Stake.faultFlags (k : Stake) (p : Nat) (f : Reg32) (date : Word48) : Stake :=
  let k := k.onLeg p fun l => { l with faultAt := some date }
  let set := fun (q : Stake) (on : Bool) (x : Fld) => if on then q.putB x true else q
  let k := set (set k (f.getLsbD 27) (Reg.LEG_PORT_STATUS_DESAT_HS p)) (f.getLsbD 26) (Reg.LEG_PORT_STATUS_DESAT_LS p)
  let k := set (set k (f.getLsbD 25) (Reg.LEG_PORT_STATUS_SHORT_HS p)) (f.getLsbD 24) (Reg.LEG_PORT_STATUS_SHORT_LS p)
  k.setIdent p (f.getLsbD 25) (f.getLsbD 24)

/-- R258, R279: the first FAULT that reports a switch posts and trips. -/
def Stake.faultTrip (k : Stake) (p : Nat) (f : Reg32) (date : Word48) : Stake :=
  let d := (k.lport p).desat
  let k := (k.putB (Reg.LEG_PORT_STATUS_LATCH p) true).onLeg p fun l => { l with desat := (d.1 || f.getLsbD 27, d.2 || f.getLsbD 26) }
  (k.trip 2 (some p)).post .legDesat 4 [p, (f.toNat / 16777216) % 16, date.toNat]

theorem Stake.faultIn_eq (h : (f.getLsbD 27 = true ∧ (k.lport p).desat.1 = false) ∨ (f.getLsbD 26 = true ∧ (k.lport p).desat.2 = false))
    (hd : ∀ x, ((k.faultFlags p f x).lport p).desat = (k.lport p).desat) :
    let date := k.ang.tick - w48 (80 + 2 * ((Fld.mk 0 8 8).of f : Int))
    ∃ a b c l, k.faultIn p f = ((k.faultFlags p f date).faultTrip p f date).supplyFlags p a b c l := by
  intro date
  have h1 : (f.getLsbD 27 || f.getLsbD 26) = true := by
    rcases h with h | h <;> simp only [h.1, Bool.true_or, Bool.or_true]
  unfold Stake.faultIn
  extract_lets b at_ q1 set q2 q3 q4 d q5 flags q6
  have e4 : q4 = k.faultFlags p f date := rfl
  have e6 : q6 = q4.faultTrip p f date := by
    have hdd : d = (k.lport p).desat := hd date
    simp only [q6]
    rw [if_pos h1, if_neg (by rw [hdd]; rcases h with h | h <;> simp only [b, h.1, h.2] <;> simp)]
    rfl
  exact ⟨_, _, _, _, by rw [← e4, ← e6]⟩

theorem Stake.faultFlags_eff (hp : p < 4) (x : Word48) :
    Stake.Eff [.leg, .regs] [Reg.LEG_PORT_STATUS p, Reg.PLT_PS_STATUS] k (k.faultFlags p f x) := by
  unfold Stake.faultFlags
  extract_lets q set q1 q2
  have hset : ∀ j b g, g.off ∈ [Reg.LEG_PORT_STATUS p, Reg.PLT_PS_STATUS] → g.apart Reg.PLT_AXIS_STATE_STATE →
      Stake.Eff [.leg, .regs] [Reg.LEG_PORT_STATUS p, Reg.PLT_PS_STATUS] k j →
      Stake.Eff [.leg, .regs] [Reg.LEG_PORT_STATUS p, Reg.PLT_PS_STATUS] k (set j b g) := fun j b g hm ha h =>
    .ite (.putB h (hm := hm) (ha := ha)) h
  have h0 : Stake.Eff [.leg, .regs] [Reg.LEG_PORT_STATUS p, Reg.PLT_PS_STATUS] k q := .onLeg .refl
  have h1 := hset _ (f.getLsbD 26) (Reg.LEG_PORT_STATUS_DESAT_LS p) (by clear * - hp; revert p; decide) (by clear * - hp; revert p; decide)
    (hset _ (f.getLsbD 27) (Reg.LEG_PORT_STATUS_DESAT_HS p) (by clear * - hp; revert p; decide) (by clear * - hp; revert p; decide) h0)
  have h2 := hset _ (f.getLsbD 24) (Reg.LEG_PORT_STATUS_SHORT_LS p) (by clear * - hp; revert p; decide) (by clear * - hp; revert p; decide)
    (hset _ (f.getLsbD 25) (Reg.LEG_PORT_STATUS_SHORT_HS p) (by clear * - hp; revert p; decide) (by clear * - hp; revert p; decide) h1)
  exact .ite h2 (.put h2 (hm := (by clear * - hp; revert p; decide)))

theorem Stake.faultFlags_flags (hp : p < 4) (x : Word48) :
    (f.getLsbD 27 = true → (k.faultFlags p f x).flag (Reg.LEG_PORT_STATUS_DESAT_HS p) = true) ∧
      (f.getLsbD 26 = true → (k.faultFlags p f x).flag (Reg.LEG_PORT_STATUS_DESAT_LS p) = true) := by
  unfold Stake.faultFlags
  extract_lets q set q1 q2
  have hset : ∀ j b g g', g.apart g' → (set j b g).flag g' = j.flag g' := fun j b g g' ha =>
    ite_frame (g := fun q : Stake => q.flag g') (Stake.flag_putB_ne _ _ _ _ ha) rfl
  have hid : ∀ g, Reg.PLT_PS_STATUS_IDENT.apart g → (q2.setIdent p (f.getLsbD 25) (f.getLsbD 24)).flag g = q2.flag g := fun g ha =>
    ite_frame (g := fun q : Stake => q.flag g) rfl (by rw [Stake.flag, Stake.fld_put_ne _ _ _ _ ha, Stake.flag])
  refine ⟨fun h => ?_, fun h => ?_⟩
  · rw [hid _ (by clear * - hp; revert p; decide), hset _ _ _ _ (by clear * - hp; revert p; decide), hset _ _ _ _ (by clear * - hp; revert p; decide), hset _ _ _ _ (by clear * - hp; revert p; decide)]
    simp only [set, h, if_true]
    exact Stake.flag_putB_same _ _ _ (by clear * - hp; revert p; decide) rfl
  · rw [hid _ (by clear * - hp; revert p; decide), hset _ _ _ _ (by clear * - hp; revert p; decide), hset _ _ _ _ (by clear * - hp; revert p; decide)]
    simp only [q1, set, h, if_true]
    exact Stake.flag_putB_same _ _ _ (by clear * - hp; revert p; decide) rfl

theorem Stake.faultFlags_desat (x : Word48) : ((k.faultFlags p f x).lport p).desat = (k.lport p).desat := by
  unfold Stake.faultFlags
  extract_lets q set q1 q2
  have hset : ∀ j b g, (set j b g).leg = j.leg := fun j b g => ite_frame (g := Stake.leg) rfl rfl
  have hid : (q2.setIdent p (f.getLsbD 25) (f.getLsbD 24)).leg = q2.leg := ite_frame (g := Stake.leg) rfl rfl
  have h2 : q2.leg = q.leg := by rw [hset, hset, hset, hset]
  rw [Stake.lport_congr (hid.trans h2)]
  exact Stake.lport_onLeg_keep (g := LegPort.desat) (f := fun l => { l with faultAt := some x }) (fun _ => rfl) p

/-- R258: the trip of a FAULT. -/
theorem Stake.faultTrip_of (hp : p < 4) (hl : p < k.leg.ports.length) (x : Word48) : let j := k.faultTrip p f x
    j.prt.trips = k.prt.trips ++ [⟨2, some p, k.now⟩] ∧
      (j.lport p).desat = ((k.lport p).desat.1 || f.getLsbD 27, (k.lport p).desat.2 || f.getLsbD 26) ∧
      j.flag (Reg.LEG_PORT_STATUS_LATCH p) = true ∧ (∀ g, g.off = Reg.LEG_PORT_STATUS p → (Reg.LEG_PORT_STATUS_LATCH p).apart g → j.flag g = k.flag g) ∧
      k.posted j .legDesat 4 [p, f.toNat / 16777216 % 16, x.toNat] := by
  intro j
  have hj : j = k.faultTrip p f x := rfl
  clear_value j
  unfold Stake.faultTrip at hj
  extract_lets d q at hj
  have hq : Stake.Eff [.leg, .regs, .prt] [Reg.LEG_PORT_STATUS p] k q := .onLeg (.putB .refl (hm := (by clear * - hp; revert p; decide)) (ha := (by clear * - hp; revert p; decide)))
  have hqo : Stake.Only [.leg, .regs] k q := .onLeg (.putB .refl)
  have hqf : ∀ g, q.flag g = (k.putB (Reg.LEG_PORT_STATUS_LATCH p) true).flag g := (Stake.Only.onLeg (l := [.leg]) .refl).flag
  have hqd : (q.lport p).desat = (d.1 || f.getLsbD 27, d.2 || f.getLsbD 26) := by
    simp only [q]
    rw [Stake.lport_onLeg (by exact hl)]
  have ht : Stake.Only [.prt] q (q.trip 2 (some p)) := .trip .refl
  have htr : (q.trip 2 (some p)).prt.trips = k.prt.trips ++ [⟨2, some p, k.now⟩] := by
    rw [← hqo.prt, ← hqo.now]
    rfl
  have hte : Stake.Eff [.leg, .regs, .prt] [Reg.LEG_PORT_STATUS p] k (q.trip 2 (some p)) := .trip hq
  clear_value q
  generalize q.trip 2 (some p) = i at ht htr hte hj
  have hf : ∀ g, g.off = Reg.LEG_PORT_STATUS p → j.flag g = (k.putB (Reg.LEG_PORT_STATUS_LATCH p) true).flag g := fun g hg => by
    rw [hj, Stake.flag_post _ _ _ _ g (by rw [hg]; clear * - hp; revert p; decide), ht.flag, hqf]
  refine ⟨?_, ?_, (hf _ rfl).trans (Stake.flag_putB_same _ _ _ (by clear * - hp; revert p; decide) rfl), fun g hg ha => (hf g hg).trans (Stake.flag_putB_ne _ _ _ _ ha), ?_⟩
  · rw [hj, Stake.post_trips, htr]
  · rw [hj, Stake.lport_congr (Stake.Only.post_only _ _ _ _).leg, Stake.lport_congr ht.leg, hqd]
  · rw [hj]
    exact hte.post_posted _ _ _

/-- R258, R266, R279: a FAULT that reports a switch first. -/
theorem Stake.faultIn_of (hp : p < 4) (hl : p < k.leg.ports.length)
    (h : (f.getLsbD 27 = true ∧ (k.lport p).desat.1 = false) ∨ (f.getLsbD 26 = true ∧ (k.lport p).desat.2 = false)) :
    let j := k.faultIn p f
    j.prt.trips = k.prt.trips ++ [⟨2, some p, k.now⟩] ∧
      (j.lport p).desat = ((k.lport p).desat.1 || f.getLsbD 27, (k.lport p).desat.2 || f.getLsbD 26) ∧
      j.flag (Reg.LEG_PORT_STATUS_LATCH p) = true ∧
      (f.getLsbD 27 = true → j.flag (Reg.LEG_PORT_STATUS_DESAT_HS p) = true) ∧
      (f.getLsbD 26 = true → j.flag (Reg.LEG_PORT_STATUS_DESAT_LS p) = true) ∧
      k.posted j .legDesat 4 [p, f.toNat / 16777216 % 16, (k.ang.tick - w48 (80 + 2 * ((Fld.mk 0 8 8).of f : Int))).toNat] := by
  intro j
  obtain ⟨a, b, c, l, hj⟩ := Stake.faultIn_eq h fun _ => Stake.faultFlags_desat _
  have hj' : j = _ := hj
  clear_value j
  have he := k.faultFlags_eff (f := f) hp (k.ang.tick - w48 (80 + 2 * ((Fld.mk 0 8 8).of f : Int)))
  have hfl := k.faultFlags_flags (f := f) hp (k.ang.tick - w48 (80 + 2 * ((Fld.mk 0 8 8).of f : Int)))
  have hd := k.faultFlags_desat (f := f) (p := p) (k.ang.tick - w48 (80 + 2 * ((Fld.mk 0 8 8).of f : Int)))
  have hn : p < (k.faultFlags p f (k.ang.tick - w48 (80 + 2 * ((Fld.mk 0 8 8).of f : Int)))).leg.ports.length := by
    have h1 : (k.faultFlags p f (k.ang.tick - w48 (80 + 2 * ((Fld.mk 0 8 8).of f : Int)))).leg.ports.length = k.leg.ports.length := by
      unfold Stake.faultFlags
      extract_lets q set q1 q2
      have hset : ∀ j b g, (set j b g).leg = j.leg := fun j b g => ite_frame (g := Stake.leg) rfl rfl
      have hid : (q2.setIdent p (f.getLsbD 25) (f.getLsbD 24)).leg = q2.leg := ite_frame (g := Stake.leg) rfl rfl
      have h2 : q2.leg = q.leg := by rw [hset, hset, hset, hset]
      rw [hid, h2, Stake.onLeg_ports]
    rwa [h1]
  generalize k.faultFlags p f (k.ang.tick - w48 (80 + 2 * ((Fld.mk 0 8 8).of f : Int))) = q at he hfl hd hn hj'
  obtain ⟨h1, h2, h3, h4, h5⟩ := q.faultTrip_of (f := f) hp hn (k.ang.tick - w48 (80 + 2 * ((Fld.mk 0 8 8).of f : Int)))
  generalize q.faultTrip p f (k.ang.tick - w48 (80 + 2 * ((Fld.mk 0 8 8).of f : Int))) = i at h1 h2 h3 h4 h5 hj'
  have hc := i.supplyFlags_calm (p := p) a b c l
  have hs := i.supplyFlags_fldsKept hp a b c l
  rw [← hj'] at hc hs
  have hsa : ∀ g, (∀ x ∈ statusFlds p, x.apart g) → j.flag g = i.flag g := fun g hg => hs.flag hg
  refine ⟨?_, ?_, (hsa _ (by clear * - hp; revert p; decide)).trans h3, fun hf => ?_, fun hf => ?_, (he.posted h5).of_prefix hc.out⟩
  · rw [hc.trips, h1, he.only.prt, he.only.now]
  · rw [hc.desat, h2, hd]
  · rw [hsa _ (by clear * - hp; revert p; decide), h4 _ rfl (by clear * - hp; revert p; decide)]
    exact hfl.1 hf
  · rw [hsa _ (by clear * - hp; revert p; decide), h4 _ rfl (by clear * - hp; revert p; decide)]
    exact hfl.2 hf

/-! Telemetry. -/

/-- R242: telemetry is shown. -/
theorem Stake.telemetryIn_of (hp : p < 4) (h4 : (Fld.mk 0 24 4).of f < 4) :
    let x := match (Fld.mk 0 24 4).of f with
      | 0 => Reg.LEG_PORT_SUPPLY_HS p | 1 => Reg.LEG_PORT_SUPPLY_LS p | 2 => Reg.LEG_PORT_TEMP_MODULE p | _ => Reg.LEG_PORT_TEMP_HEAD p
    (k.telemetryIn p f).fld x = (Fld.mk 0 8 16).of f ∧ k.regsKept (k.telemetryIn p f) [x.off] := by
  have hx : ∀ x : Fld, x.lo + x.w ≤ 32 → x.w = 16 → (k.put x ((Fld.mk 0 8 16).of f)).fld x = (Fld.mk 0 8 16).of f ∧
      k.regsKept (k.put x ((Fld.mk 0 8 16).of f)) [x.off] := fun x h32 hw =>
    ⟨(Stake.fld_put_same _ _ _ h32).trans (Nat.mod_eq_of_lt (by rw [hw]; exact Fld.of_lt _ _)), .put .refl (List.mem_singleton_self _)⟩
  have hv : k.telemetryIn p f = match (Fld.mk 0 24 4).of f with
      | 0 => k.put (Reg.LEG_PORT_SUPPLY_HS p) ((Fld.mk 0 8 16).of f)
      | 1 => k.put (Reg.LEG_PORT_SUPPLY_LS p) ((Fld.mk 0 8 16).of f)
      | 2 => (k.put (Reg.LEG_PORT_TEMP_MODULE p) ((Fld.mk 0 8 16).of f)).onLeg p fun l => { l with tempSeen := true, tempEver := true }
      | 3 => k.put (Reg.LEG_PORT_TEMP_HEAD p) ((Fld.mk 0 8 16).of f)
      | _ => k.telemetryIn p f := by
    unfold Stake.telemetryIn
    generalize (Fld.mk 0 24 4).of f = c at h4 ⊢
    match c, h4 with
    | 0, _ => rfl
    | 1, _ => rfl
    | 2, _ => rfl
    | 3, _ => rfl
  rw [hv]
  generalize (Fld.mk 0 24 4).of f = c at h4 ⊢
  match c, h4 with
  | 0, _ => exact hx (Reg.LEG_PORT_SUPPLY_HS p) (by clear * - hp; revert p; decide) rfl
  | 1, _ => exact hx (Reg.LEG_PORT_SUPPLY_LS p) (by clear * - hp; revert p; decide) rfl
  | 2, _ =>
    have ho : ∀ q g, Stake.Only [.leg] q (Stake.onLeg q p g) := fun _ _ => .onLeg .refl
    obtain ⟨h1, h2⟩ := hx (Reg.LEG_PORT_TEMP_MODULE p) (by clear * - hp; revert p; decide) rfl
    exact ⟨((ho _ _).fld _).trans h1, h2.of_eq (ho _ _).regs (ho _ _).id⟩
  | 3, _ => exact hx (Reg.LEG_PORT_TEMP_HEAD p) (by clear * - hp; revert p; decide) rfl

/-! Self-test. -/

/-- What the symbols of a self-test step leave: but two counts no register changes, and no waiting frame is lost. -/
structure Stake.Sent (p : Nat) (k j : Stake) : Prop where
  regs : k.regsKept j [Reg.MOD_SPACING_CNT, Reg.LEG_PORT_REFRESH_CNT p]
  out : ∀ g ∈ (k.lport p).out, g ∈ (j.lport p).out

namespace Stake.Sent

theorem refl : Sent p k k := ⟨.refl, fun _ h => h⟩
theorem trans (h : Sent p k j) (h' : Sent p j i) : Sent p k i := ⟨h.regs.trans h'.regs, fun g hg => h'.out g (h.out g hg)⟩
theorem onLeg (h : Sent p k j) {g : LegPort → LegPort} (hg : ∀ l, ∀ x ∈ l.out, x ∈ (g l).out) : Sent p k (j.onLeg p g) := by
  refine ⟨h.regs.onLeg, fun x hx => ?_⟩
  by_cases hl : p < j.leg.ports.length
  · rw [Stake.lport_onLeg hl]
    exact hg _ _ (h.out x hx)
  · have hn : (j.onLeg p g).lport p = j.lport p := by
      have h0 : ∀ l : List LegPort, ¬p < l.length → nth {} l p = ({} : LegPort) := fun l h => by
        rw [nth, List.getD_eq_default _ _ (Nat.le_of_not_lt h)]
      rw [Stake.lport, Stake.lport, h0 _ (by rwa [Stake.onLeg_ports]), h0 _ hl]
    rw [hn]
    exact h.out x hx
theorem hand (h : Sent p k j) {y : Symb} {x : Instant} {b : Bool} : Sent p k (j.hand p y x b) := by
  have he : Stake.Eff [.modu, .regs] [Reg.MOD_SPACING_CNT] j (j.hand p y x b) := .hand .refl
  exact ⟨h.regs.trans (he.regs.mono (by simp)), fun g hg => by
    rw [Stake.lport_congr he.only.leg]
    exact h.out g hg⟩
theorem countRefresh (h : Sent p k j) : Sent p k (j.countRefresh p) := by
  have h1 : Stake.Only [.regs] j (j.bump (Reg.LEG_PORT_REFRESH_CNT p)) := .bump .refl
  have hr : k.regsKept (j.bump (Reg.LEG_PORT_REFRESH_CNT p)) [Reg.MOD_SPACING_CNT, Reg.LEG_PORT_REFRESH_CNT p] := .bump h.regs (by simp)
  unfold Stake.countRefresh
  extract_lets z q
  have hq : Sent p k q := ⟨hr, fun g hg => by
    rw [Stake.lport_congr h1.leg]
    exact h.out g hg⟩
  split
  · exact ⟨.post_zero hq.regs, fun g hg => by
      rw [Stake.lport_congr (Stake.Only.post_only _ _ _ _).leg]
      exact hq.out g hg⟩
  · exact hq
theorem ite {c : Prop} [Decidable c] (h : Sent p k j) (h' : Sent p k i) : Sent p k (if c then j else i) := by split <;> assumption

end Stake.Sent

theorem Stake.testStep_sent (k : Stake) (p st : Nat) : Stake.Sent p (k.put (Reg.LEG_PORT_TEST_STEP p) st) (k.testStep p st) := by
  unfold Stake.testStep
  extract_lets q arm ins pre d q1 d1
  have harm : ∀ j x, Stake.Sent p q j → Stake.Sent p q (arm j x) := fun j x h => .onLeg h fun _ _ hx => hx
  have hins : ∀ j y n, Stake.Sent p q j → Stake.Sent p q (ins j y n) := fun j y n h => .hand h
  have hq1 : Stake.Sent p q q1 := by
    refine .ite (.countRefresh (.onLeg (hins _ _ _ (hins _ _ _ .refl)) fun _ _ hx => hx)) .refl
  have hsend : Stake.Sent p q (q.sendFrames p [.test st]) := .onLeg .refl fun _ _ hx => List.mem_append_left _ hx
  exact .ite (harm _ _ hsend) (.ite (harm _ _ (hins _ _ _ (hins _ _ _ .refl))) (.ite (harm _ _ (hins _ _ _ (hins _ _ _ hq1)))
    (harm _ _ (hins _ _ _ (hins _ _ _ (hins _ _ _ .refl))))))

/-- R268: what a judged step leaves. -/
theorem Stake.testJudge_of {x : LegTest} {ok : Bool} (hp : p < 4) (hl : p < k.leg.ports.length) (h1 : 1 ≤ x.step) (h7 : x.step ≤ 7) :
    let pass := k.fld (Reg.LEG_PORT_TEST_PASS p)
    let j := k.testJudge p x ok
    (ok = true → j.fld (Reg.LEG_PORT_TEST_PASS p) = pass ||| 2 ^ (x.step - 1)) ∧
      (x.step ≤ 4 → ok = true → .test 0 ∈ (j.lport p).out) ∧
      (ok = true → x.step < 7 → j.fld (Reg.LEG_PORT_TEST_STEP p) = x.step + 1) ∧
      (ok = true → x.step = 7 → j.flag (Reg.LEG_PORT_STATUS_TEST_FAIL p) = false ∧ (j.lport p).test = none ∧
        k.posted j .legSelftest 0 [p, 7, pass ||| 64]) ∧
      (ok = false → j.flag (Reg.LEG_PORT_STATUS_TEST_FAIL p) = true ∧ (j.lport p).test = none ∧
        k.posted j .legSelftest 1 [p, x.step, pass]) := by
  intro pass j
  have hj : j = k.testJudge p x ok := rfl
  clear_value j
  unfold Stake.testJudge at hj
  extract_lets q1 q2 q3 at hj
  have e1 : Stake.Eff [.leg, .regs] [Reg.LEG_PORT_TEST p] k q1 := .ite (.onLeg .refl) .refl
  have o1 : Stake.Only [.leg] k q1 := .ite (.onLeg .refl) .refl
  have m1 : x.step ≤ 4 → .test 0 ∈ (q1.lport p).out := fun h => by
    simp only [q1]
    rw [if_pos h, Stake.sendFrames_out hl]
    exact List.mem_append_right _ (List.mem_singleton_self _)
  have n1 : p < q1.leg.ports.length := by
    simp only [q1]
    split
    · unfold Stake.sendFrames
      rwa [Stake.onLeg_ports]
    · exact hl
  have hpass : q1.fld (Reg.LEG_PORT_TEST_PASS p) = pass := o1.fld _
  clear_value q1
  have e2 : Stake.Eff [.leg, .regs] [Reg.LEG_PORT_TEST p] k q2 := .ite (.put e1 (hm := (by clear * - hp; revert p; decide)) (ha := (by clear * - hp; revert p; decide))) e1
  have o2 : Stake.Only [.regs] q1 q2 := .ite (.put .refl) .refl
  have p2 : q2.fld (Reg.LEG_PORT_TEST_PASS p) = if ok then pass ||| 2 ^ (x.step - 1) else pass := by
    simp only [q2]
    cases ok with
    | true =>
      simp only [if_true]
      rw [Stake.fld_put_same _ _ _ (by clear * - hp; revert p; decide), hpass]
      refine Nat.mod_eq_of_lt (Nat.or_lt_two_pow ?_ ?_)
      · exact Stake.fld_lt _ _
      · exact Nat.pow_lt_pow_right (by decide) (by have : (Reg.LEG_PORT_TEST_PASS p).w = 7 := rfl; omega)
    | false => exact hpass
  clear_value q2
  by_cases hs : (ok && Decidable.decide (x.step < 7)) = true
  · rw [if_pos hs] at hj
    simp only [Bool.and_eq_true, decide_eq_true_eq] at hs
    obtain ⟨hok, hlt⟩ := hs
    have ht := q2.testStep_sent p (x.step + 1)
    rw [← hj] at ht
    have hstep : j.fld (Reg.LEG_PORT_TEST_STEP p) = x.step + 1 := by
      rw [ht.regs.fld (by clear * - hp; revert p; decide), Stake.fld_put_same _ _ _ (by clear * - hp; revert p; decide)]
      exact Nat.mod_eq_of_lt (show x.step + 1 < 2 ^ 4 by omega)
    have hps : j.fld (Reg.LEG_PORT_TEST_PASS p) = pass ||| 2 ^ (x.step - 1) := by
      rw [ht.regs.fld (by clear * - hp; revert p; decide), Stake.fld_put_ne _ _ _ _ (by clear * - hp; revert p; decide), p2, if_pos hok]
    refine ⟨fun _ => hps, fun h4 _ => ht.out _ ?_, fun _ _ => hstep, fun _ h => by omega, fun h => by simp [hok] at h⟩
    rw [Stake.lport_congr (Stake.Only.put (l := [.regs]) .refl).leg, Stake.lport_congr o2.leg]
    exact m1 h4
  · rw [if_neg hs] at hj
    have hq3 : q3 = (q2.putB (Reg.LEG_PORT_STATUS_TEST_FAIL p) (!ok)).onLeg p fun l => { l with test := none } := rfl
    have ob : Stake.Only [.regs] q2 (q2.putB (Reg.LEG_PORT_STATUS_TEST_FAIL p) (!ok)) := .putB .refl
    have fb : (q2.putB (Reg.LEG_PORT_STATUS_TEST_FAIL p) (!ok)).flag (Reg.LEG_PORT_STATUS_TEST_FAIL p) = !ok := Stake.flag_putB_same _ _ _ (by clear * - hp; revert p; decide) rfl
    have pb : (q2.putB (Reg.LEG_PORT_STATUS_TEST_FAIL p) (!ok)).fld (Reg.LEG_PORT_TEST_PASS p) = q2.fld (Reg.LEG_PORT_TEST_PASS p) :=
      Stake.fld_putB_ne _ _ _ _ (by clear * - hp; revert p; decide)
    have e3 : Stake.Eff [.leg, .regs] [Reg.LEG_PORT_TEST p, Reg.LEG_PORT_STATUS p] k (q2.putB (Reg.LEG_PORT_STATUS_TEST_FAIL p) (!ok)) :=
      .putB (e2.mono (hm := by simp)) (hm := (by clear * - hp; revert p; decide)) (ha := (by clear * - hp; revert p; decide))
    clear_value q3
    generalize q2.putB (Reg.LEG_PORT_STATUS_TEST_FAIL p) (!ok) = b at ob fb pb e3 hq3
    have h3 : Stake.Only [.leg] b q3 := hq3 ▸ .onLeg .refl
    have e3' : Stake.Eff [.leg, .regs] [Reg.LEG_PORT_TEST p, Reg.LEG_PORT_STATUS p] k q3 := hq3 ▸ .onLeg e3
    have htest : (q3.lport p).test = none := by rw [hq3, Stake.lport_onLeg (by rwa [ob.leg, o2.leg])]
    have hpassj : q3.fld (Reg.LEG_PORT_TEST_PASS p) = if ok then pass ||| 2 ^ (x.step - 1) else pass := ((h3.fld _).trans pb).trans p2
    have hflag : j.flag (Reg.LEG_PORT_STATUS_TEST_FAIL p) = !ok := by
      rw [hj, Stake.flag_post _ _ _ _ (Reg.LEG_PORT_STATUS_TEST_FAIL p) (by clear * - hp; revert p; decide), h3.flag, fb]
    have hjt : (j.lport p).test = none := by rw [hj, Stake.lport_congr (Stake.Only.post_only _ _ _ _).leg, htest]
    have hpost : k.posted j .legSelftest (if ok then 0 else 1) [p, x.step, if ok then pass ||| 2 ^ (x.step - 1) else pass] := by
      rw [hj, hpassj]
      exact e3'.post_posted _ _ _
    cases ok with
    | true =>
      have h7' : x.step = 7 := by simp at hs; omega
      refine ⟨fun _ => ?_, fun h => by omega, fun _ h => by omega, fun _ _ => ⟨hflag, hjt, ?_⟩, nofun⟩
      · rw [hj, Stake.fld_post _ _ _ _ (Reg.LEG_PORT_TEST_PASS p) (by clear * - hp; revert p; decide), hpassj, if_pos rfl]
      · simpa [h7'] using hpost
    | false => exact ⟨nofun, nofun, nofun, nofun, fun _ => ⟨hflag, hjt, hpost⟩⟩

end

/-- R268: the result of a step of a self-test. -/
theorem legTestResult_of {s : State} {n p : Nat} {f : Reg32} {x : LegTest} (hs : s.present n = true) (hp : p < 4)
    (hl : p < (s.stake n).leg.ports.length) (hk : (s.stake n).link p ≠ 0) (hf : frameOk f 7 = true) (hx : ((s.stake n).lport p).test = some x)
    (h1 : 1 ≤ x.step) (h4 : x.step ≤ 4) (hsince : x.since ≠ none) (hstep : (Fld.mk 0 24 4).of f = x.step) :
    ∃ t, exec (.legTestResult n p f) s = .next t ∧ s.elsewhere t n ∧
      if f.getLsbD 23 then (t.stake n).fld (Reg.LEG_PORT_TEST_PASS p) = (s.stake n).fld (Reg.LEG_PORT_TEST_PASS p) ||| 2 ^ (x.step - 1) ∧
        (t.stake n).fld (Reg.LEG_PORT_TEST_STEP p) = x.step + 1 ∧ .test 0 ∈ ((t.stake n).lport p).out
      else (t.stake n).flag (Reg.LEG_PORT_STATUS_TEST_FAIL p) = true ∧ ((t.stake n).lport p).test = none ∧
        (s.stake n).posted (t.stake n) .legSelftest 1 [p, x.step, (s.stake n).fld (Reg.LEG_PORT_TEST_PASS p)] := by
  obtain ⟨t, ht, he, hj⟩ := exec_onStake hs fun k => k.frameIn p 7 f fun k => k.testResultIn p f
  rw [Stake.frameIn_ok hp hk hf] at hj
  have hq : Stake.Eff [.leg] [] (s.stake n) ((s.stake n).onLeg p fun l => { l with lastIn := (s.stake n).now }) := .onLeg .refl
  have hqt : (((s.stake n).onLeg p fun l => { l with lastIn := (s.stake n).now }).lport p).test = some x :=
    (Stake.lport_onLeg_keep (g := LegPort.test) (f := fun l => { l with lastIn := (s.stake n).now }) (fun _ => rfl) p).trans hx
  have hqn : p < ((s.stake n).onLeg p fun l => { l with lastIn := (s.stake n).now }).leg.ports.length := by rwa [Stake.onLeg_ports]
  generalize ((s.stake n).onLeg p fun l => { l with lastIn := (s.stake n).now }) = q at hq hqt hqn hj
  have hr : q.testResultIn p f = q.testJudge p x (f.getLsbD 23) := by
    unfold Stake.testResultIn
    rw [hqt]
    exact if_pos (by simp [h4, hstep, Option.isSome_iff_ne_none, hsince])
  obtain ⟨a, b, c, _, d⟩ := Stake.testJudge_of (ok := f.getLsbD 23) hp hqn h1 (by omega)
  rw [hr] at hj
  rw [← hj, hq.only.fld] at a d
  rw [← hj] at b c
  refine ⟨t, ht, he, ?_⟩
  split
  · next h => exact ⟨a h, c h (by omega), b h4 h⟩
  · next h =>
    obtain ⟨d1, d2, d3⟩ := d (by simpa using h)
    exact ⟨d1, d2, hq.posted d3⟩

/-- R268: the time of a step of a self-test is over. -/
theorem selftestTimeout_of {s : State} {n p t0 : Nat} {x : LegTest} (hs : s.present n = true) (hp : p < 4)
    (hl : p < (s.stake n).leg.ports.length) (hx : ((s.stake n).lport p).test = some x) (h1 : 1 ≤ x.step) (h7 : x.step ≤ 7)
    (hsince : x.since = some t0) (ht0 : t0 + 8000 ≤ (s.stake n).now) :
    let pass := (s.stake n).fld (Reg.LEG_PORT_TEST_PASS p)
    ∃ t, exec (.selftestStepTimeout n p) s = .next t ∧ s.elsewhere t n ∧
      if x.step ≤ 4 ∨ x.passed = false then (t.stake n).flag (Reg.LEG_PORT_STATUS_TEST_FAIL p) = true ∧
        ((t.stake n).lport p).test = none ∧ (s.stake n).posted (t.stake n) .legSelftest 1 [p, x.step, pass]
      else (t.stake n).fld (Reg.LEG_PORT_TEST_PASS p) = pass ||| 2 ^ (x.step - 1) ∧
        if x.step < 7 then (t.stake n).fld (Reg.LEG_PORT_TEST_STEP p) = x.step + 1
        else (t.stake n).flag (Reg.LEG_PORT_STATUS_TEST_FAIL p) = false ∧ ((t.stake n).lport p).test = none ∧
          (s.stake n).posted (t.stake n) .legSelftest 0 [p, 7, pass ||| 64] := by
  intro pass
  obtain ⟨a, _, c, d, e⟩ := Stake.testJudge_of (k := s.stake n) (x := x) (ok := Decidable.decide (4 < x.step) && x.passed) hp hl h1 h7
  refine ⟨_, rfl, s.onStake_elsewhere n _, ?_⟩
  rw [State.onStake_stake_same hs]
  simp only [hx, hsince]
  rw [if_neg (Nat.not_lt.mpr ht0)]
  split
  · next h => exact e (by rcases h with h | h <;> simp [h])
  · next h =>
    rw [not_or, Bool.not_eq_false] at h
    have hok : (Decidable.decide (4 < x.step) && x.passed) = true := by
      rw [h.2, Bool.and_true]
      exact decide_eq_true (by omega)
    refine ⟨a hok, ?_⟩
    split
    · next h' => exact c hok h'
    · next h' => exact d hok (by omega)

/-- Settles O45. -/
theorem legHeadReports : Obligations.LegHeadReports := by
  unfold Obligations.LegHeadReports
  refine ⟨fun s n p f sym hs hp hl hk hf hsym => ?_, fun s n p f hs hp hl hk hf => ?_, fun s n p f hs hp hk hf h4 => ?_,
    fun s n p f x hs hp hl hk hf hx h1 h4 hsince hstep => legTestResult_of hs hp hl hk hf hx h1 h4 hsince hstep,
    fun s n p t0 x hs hp hl hx h1 h7 hsince ht0 => selftestTimeout_of hs hp hl hx h1 h7 hsince ht0⟩
  · intro k
    obtain ⟨t, ht, he, hj⟩ := exec_onStake hs fun k => k.frameIn p 3 f fun k => k.eventIn p f
    rw [Stake.frameIn_ok hp hk hf] at hj
    have hq : Stake.Eff [.leg] [] k (k.onLeg p fun l => { l with lastIn := k.now }) := .onLeg .refl
    have hqt : ((k.onLeg p fun l => { l with lastIn := k.now }).lport p).test = (k.lport p).test :=
      Stake.lport_onLeg_keep (g := LegPort.test) (f := fun l => { l with lastIn := k.now }) (fun _ => rfl) p
    have hqe : ((k.onLeg p fun l => { l with lastIn := k.now }).lport p).expect = (k.lport p).expect :=
      Stake.lport_onLeg_keep (g := LegPort.expect) (f := fun l => { l with lastIn := k.now }) (fun _ => rfl) p
    have hqn : p < (k.onLeg p fun l => { l with lastIn := k.now }).leg.ports.length := by rwa [Stake.onLeg_ports]
    generalize (k.onLeg p fun l => { l with lastIn := k.now }) = q at hq hqt hqe hqn hj
    obtain ⟨a, b, c, d⟩ := Stake.eventIn_of (f := f) hp hqn hsym
    rw [hqe] at a
    rw [hq.only.rd] at b c d
    rw [hqt] at c
    refine ⟨t, ht, he, ?_⟩
    rw [hj]
    exact ⟨a, b, fun h => ⟨(c h).1, fun h' => hq.posted ((c h).2 h')⟩, d⟩
  · intro k d hd
    obtain ⟨t, ht, he, hj⟩ := exec_onStake hs fun k => k.frameIn p 4 f fun k => k.faultIn p f
    rw [Stake.frameIn_ok hp hk hf] at hj
    have hq : Stake.Eff [.leg] [] k (k.onLeg p fun l => { l with lastIn := k.now }) := .onLeg .refl
    have hqd : ((k.onLeg p fun l => { l with lastIn := k.now }).lport p).desat = d :=
      Stake.lport_onLeg_keep (g := LegPort.desat) (f := fun l => { l with lastIn := k.now }) (fun _ => rfl) p
    have hqn : p < (k.onLeg p fun l => { l with lastIn := k.now }).leg.ports.length := by rwa [Stake.onLeg_ports]
    generalize (k.onLeg p fun l => { l with lastIn := k.now }) = q at hq hqd hqn hj
    obtain ⟨h1, h2, h3, h4, h5, h6⟩ := Stake.faultIn_of (f := f) hp hqn (by rw [hqd]; exact hd)
    rw [hq.only.prt, hq.only.now] at h1
    rw [hqd] at h2
    rw [hq.tick] at h6
    refine ⟨t, ht, he, ?_⟩
    rw [hj]
    exact ⟨h1, h2, h3, h4, h5, hq.posted h6⟩
  · intro x
    obtain ⟨t, ht, he, hj⟩ := exec_onStake hs fun k => k.frameIn p 5 f fun k => k.telemetryIn p f
    rw [Stake.frameIn_ok hp hk hf] at hj
    obtain ⟨h1, h2⟩ := Stake.telemetryIn_of (k := (s.stake n).onLeg p fun l => { l with lastIn := (s.stake n).now }) hp h4
    have hq : (s.stake n).regsKept ((s.stake n).onLeg p fun l => { l with lastIn := (s.stake n).now }) [] := .onLeg .refl
    refine ⟨t, ht, he, ?_⟩
    rw [hj]
    exact ⟨h1, (hq.mono (by simp)).trans h2⟩

end Sys2Proof.Machine

/-! The stream packer: items, packets, timeout, flush and APPLY (R371 to R376). -/
namespace Sys2Proof.Machine
set_option Elab.async false

section
variable {k j : Stake} {i : Nat}

theorem Stake.strm_congr (h : j.str = k.str) (i : Nat) : j.strm i = k.strm i := by rw [Stake.strm, h, Stake.strm]

theorem Stake.onStrm_str (k : Stake) (i : Nat) (f : Strm → Strm) : (k.onStrm i f).str = updAt k.str i f := rfl

theorem Stake.strm_onStrm (h : i < k.str.length) (f : Strm → Strm) : (k.onStrm i f).strm i = f (k.strm i) := by
  rw [Stake.strm, Stake.onStrm_str, nth_updAt_same _ _ _ _ h, Stake.strm]

theorem Stake.onStrm_only (f : Strm → Strm) : Stake.Only [.str] k (k.onStrm i f) := .onStrm .refl

/-- R373: what is shown of a stream. -/
theorem Stake.strSync_of (hi : i < 16) : Stake.Only [.regs] k (k.strSync i) ∧ k.regsKept (k.strSync i) [Reg.STR_STREAM_STATUS i] ∧
    (k.strSync i).flag (Reg.STR_STREAM_STATUS_FULL i) = k.flag (Reg.STR_STREAM_STATUS_FULL i) := by
  unfold Stake.strSync
  refine ⟨.put (.put .refl), .put (.put .refl (List.mem_singleton_self _)) (List.mem_singleton_self _), ?_⟩
  rw [Stake.flag, Stake.fld_put_ne _ _ _ _ (by revert i; decide), Stake.fld_put_ne _ _ _ _ (by revert i; decide), Stake.flag]

theorem Strm.close_drops (s : Strm) : s.close.drops = s.drops := by
  unfold Strm.close
  split <;> rfl

/-- R371: a dropped item is counted. -/
theorem Stake.strDrop_of (hi : i < 16) (hl : i < k.str.length) :
    (k.strDrop i).rd (Reg.STR_STREAM_DROP_CNT i) = satAdd 31 (k.rd (Reg.STR_STREAM_DROP_CNT i)) 1 ∧
      ((k.strDrop i).strm i).drops = (k.strm i).drops + 1 ∧ (k.strDrop i).flag (Reg.STR_STREAM_STATUS_FULL i) = true ∧
      Stake.Only [.str, .regs] k (k.strDrop i) := by
  have h1 : Stake.Only [.str] k (k.onStrm i fun s => { s.close with drops := s.drops + 1 }) := Stake.onStrm_only _
  have hs : ((k.onStrm i fun s => { s.close with drops := s.drops + 1 }).strm i).drops = (k.strm i).drops + 1 :=
    congrArg Strm.drops (Stake.strm_onStrm hl fun s => { s.close with drops := s.drops + 1 })
  unfold Stake.strDrop
  generalize (k.onStrm i fun s => { s.close with drops := s.drops + 1 }) = q at h1 hs ⊢
  have h2 : Stake.Only [.regs] q ((q.bump31 (Reg.STR_STREAM_DROP_CNT i)).putB (Reg.STR_STREAM_STATUS_FULL i) true) := .putB (.bump31 .refl)
  have hr : ((q.bump31 (Reg.STR_STREAM_DROP_CNT i)).putB (Reg.STR_STREAM_STATUS_FULL i) true).rd (Reg.STR_STREAM_DROP_CNT i) =
      satAdd 31 (k.rd (Reg.STR_STREAM_DROP_CNT i)) 1 := by
    have hk : (q.bump31 (Reg.STR_STREAM_DROP_CNT i)).regsKept ((q.bump31 (Reg.STR_STREAM_DROP_CNT i)).putB (Reg.STR_STREAM_STATUS_FULL i) true)
        [Reg.STR_STREAM_STATUS i] := .putB .refl (List.mem_singleton_self _)
    rw [hk _ (by clear * - hi; revert i; decide), Stake.rd_bump31_same, h1.rd]
  have hf : ((q.bump31 (Reg.STR_STREAM_DROP_CNT i)).putB (Reg.STR_STREAM_STATUS_FULL i) true).flag (Reg.STR_STREAM_STATUS_FULL i) = true :=
    Stake.flag_putB_same _ _ _ (by clear * - hi; revert i; decide) rfl
  generalize (q.bump31 (Reg.STR_STREAM_DROP_CNT i)).putB (Reg.STR_STREAM_STATUS_FULL i) true = b at h2 hr hf ⊢
  obtain ⟨h3, h4, h5⟩ := b.strSync_of hi
  refine ⟨(h4 _ (by clear * - hi; revert i; decide)).trans hr, ?_, h5.trans hf, ((Stake.Only.mono h1 (by decide)).step h2).step h3⟩
  rw [Stake.strm_congr h3.str, Stake.strm_congr h2.str, hs]

/-- R372, R375: an item that starts a packet. -/
theorem Stake.strItem_starts {o : Offer} {st : Nat} (ho : o.stream = st) (hi : st < 16) (he : k.inForceB (Reg.STR_STREAM_CFG_EN st) = true)
    (hl : st < k.str.length) (hr : (k.strm st).stored + o.words.length ≤ k.inForce (Reg.STR_STREAM_CFG_FIFO_KIB st) * 128)
    (hp : (k.strm st).packing = none) (h256 : (k.strm st).packets.length < 256)
    (hw : o.words.length < k.inForce (Reg.STR_STREAM_CFG_PKT_WORDS st)) :
    (∃ p, ((k.strItem o).strm st).packing = some (p, k.now) ∧ p.words = o.words ∧ p.seq = k.fld (Reg.STR_STREAM_SEQ_SEQ st) ∧
        p.source = o.source ∧ p.content = o.content ∧ p.tick = k.ang.tick) ∧
      (k.strItem o).fld (Reg.STR_STREAM_SEQ_SEQ st) = (k.fld (Reg.STR_STREAM_SEQ_SEQ st) + 1) % 65536 ∧
      (k.strItem o).rd (Reg.STR_STREAM_DROP_CNT st) = k.rd (Reg.STR_STREAM_DROP_CNT st) := by
  have hc : (k.strm st).close = k.strm st := by
    unfold Strm.close
    rw [hp]
  unfold Stake.strItem
  extract_lets i n room lim s fits joined s' seq p q b
  have hio : i = st := ho
  clear_value i
  subst hio
  rw [if_neg (by simp [he]; omega), if_neg (by simp only [s, n, room]; omega)]
  have hj : joined = none := by simp only [joined, s, hp]
  rw [hj]
  dsimp only
  rw [if_neg (by simp only [s', s, hc]; omega), if_neg (by simp only [n, lim]; omega)]
  have hq : Stake.Only [.str] k q := Stake.onStrm_only _
  have hqp : (q.strm i).packing = some (p, k.now) := congrArg Strm.packing (Stake.strm_onStrm hl _)
  clear_value q
  have hb : Stake.Only [.regs] q b := .putB (.put .refl)
  have hbk : q.regsKept b [Reg.STR_STREAM_SEQ i, Reg.STR_STREAM_STATUS i] := .putB (.put .refl (by clear * - hi; revert i; decide)) (by clear * - hi; revert i; decide)
  have hbs : b.fld (Reg.STR_STREAM_SEQ_SEQ i) = (seq + 1) % 65536 := by
    simp only [b]
    rw [Stake.fld_putB_ne _ _ _ _ (by clear * - hi; revert i; decide), Stake.fld_put_same _ _ _ (by clear * - hi; revert i; decide)]
    exact Nat.mod_mod _ _
  clear_value b
  obtain ⟨h3, h4, _⟩ := b.strSync_of hi
  refine ⟨⟨p, ?_, rfl, rfl, rfl, rfl, rfl⟩, (h4.fld (by clear * - hi; revert i; decide)).trans hbs, ?_⟩
  · rw [Stake.strm_congr h3.str, Stake.strm_congr hb.str, hqp]
  · rw [h4 _ (by clear * - hi; revert i; decide), hbk _ (by clear * - hi; revert i; decide), hq.rd]

/-- R372: an item that joins the packet being built. -/
theorem Stake.strItem_joins {o : Offer} {st : Nat} {p : Packet} {at_ : Nat} (ho : o.stream = st) (hi : st < 16)
    (he : k.inForceB (Reg.STR_STREAM_CFG_EN st) = true) (hl : st < k.str.length)
    (hr : (k.strm st).stored + o.words.length ≤ k.inForce (Reg.STR_STREAM_CFG_FIFO_KIB st) * 128)
    (hp : (k.strm st).packing = some (p, at_)) (hs : p.source = o.source) (hc : p.content = o.content)
    (hw : p.words.length + o.words.length < k.inForce (Reg.STR_STREAM_CFG_PKT_WORDS st)) :
    ((k.strItem o).strm st).packing = some ({ p with words := p.words ++ o.words }, at_) ∧
      k.regsKept (k.strItem o) [Reg.STR_STREAM_STATUS st] := by
  unfold Stake.strItem
  extract_lets i n room lim s fits joined
  have hio : i = st := ho
  clear_value i
  subst hio
  rw [if_neg (by simp [he]; omega), if_neg (by simp only [s, n, room]; omega)]
  have hj : joined = some { p with words := p.words ++ o.words } := by
    simp only [joined, s, hp, fits]
    rw [if_pos (by simp [hs, hc, n, lim]; omega)]
  clear_value joined
  subst hj
  dsimp only
  rw [if_neg (by simp only [lim, List.length_append]; omega)]
  have hq : ∀ f, ((k.onStrm i f).putB (Reg.STR_STREAM_STATUS_FULL i) false).strm i = f (k.strm i) := fun f =>
    (Stake.strm_congr (Stake.Only.putB (l := [.regs]) .refl).str i).trans (Stake.strm_onStrm hl f)
  have hk : ∀ f, k.regsKept ((k.onStrm i f).putB (Reg.STR_STREAM_STATUS_FULL i) false) [Reg.STR_STREAM_STATUS i] := fun f =>
    .putB (.onStrm .refl) (by clear * - hi; revert i; decide)
  refine ⟨?_, (hk _).trans (Stake.strSync_of hi).2.1⟩
  rw [Stake.strm_congr (Stake.strSync_of hi).1.str, hq, hp]
  rfl

/-- R372: a packet closes at its timeout. -/
theorem Stake.strClose_of {p : Packet} {at_ : Nat} (hi : i < 16) (hl : i < k.str.length) (hp : (k.strm i).packing = some (p, at_)) :
    let j := (k.onStrm i Strm.close).strSync i
    (j.strm i).packing = none ∧ (j.strm i).whole = (k.strm i).whole ++ [p] ∧ k.regsKept j [Reg.STR_STREAM_STATUS i] := by
  intro j
  obtain ⟨h3, h4, _⟩ := (k.onStrm i Strm.close).strSync_of hi
  have hc : (k.strm i).close = { k.strm i with packing := none, whole := (k.strm i).whole ++ [p] } := by
    unfold Strm.close
    rw [hp]
  have hj : j.strm i = { k.strm i with packing := none, whole := (k.strm i).whole ++ [p] } := by
    rw [Stake.strm_congr h3.str, Stake.strm_onStrm hl, hc]
  rw [hj]
  exact ⟨rfl, rfl, (Stake.regsKept.onStrm .refl).trans h4⟩

/-- R374: a flush discards what is stored. -/
theorem Stake.strFlush_of (hi : i < 16) : Stake.Only [.str, .regs] k (k.strFlush i) ∧ k.regsKept (k.strFlush i) [Reg.STR_STREAM_STATUS i] ∧
    (i < k.str.length → (k.strFlush i).strm i = { k.strm i with packing := none, whole := [], flushNext := true }) := by
  have hq : ∀ f, Stake.Only [.str, .regs] k ((k.onStrm i f).putB (Reg.STR_STREAM_STATUS_FULL i) false) := fun f => .putB (.onStrm .refl)
  have hs : ∀ f, ((k.onStrm i f).putB (Reg.STR_STREAM_STATUS_FULL i) false).str = (k.onStrm i f).str := fun f =>
    (Stake.Only.putB (l := [.regs]) .refl).str
  have hk : ∀ f, k.regsKept ((k.onStrm i f).putB (Reg.STR_STREAM_STATUS_FULL i) false) [Reg.STR_STREAM_STATUS i] := fun f =>
    .putB (.onStrm .refl) (by clear * - hi; revert i; decide)
  unfold Stake.strFlush
  refine ⟨(hq _).step (Stake.strSync_of hi).1, (hk _).trans (Stake.strSync_of hi).2.1, fun hl => ?_⟩
  rw [Stake.strm_congr (Stake.strSync_of hi).1.str, Stake.strm_congr (hs _), Stake.strm_onStrm hl]

/-- R372, R376: a change of a stream's `EN`. -/
theorem Stake.strEnable_of (hi : i < 16) (b : Bool) : Stake.Only [.str, .regs, .act] k (k.strEnable i b) ∧
    k.regsKept (k.strEnable i b) [Reg.STR_STREAM_STATUS i, Reg.STR_STREAM_SEQ i] ∧
    ∀ o, o ≠ Reg.STR_STREAM_CFG i → (k.strEnable i b).rdAct o = k.rdAct o := by
  unfold Stake.strEnable
  extract_lets was f q
  have hq : Stake.Only [.str, .regs, .act] k q := .wrAct .refl
  have hr : k.regsKept q [Reg.STR_STREAM_STATUS i, Reg.STR_STREAM_SEQ i] := .wrAct .refl
  have hs : ∀ j : Stake, Stake.Only [.regs] j (j.strSync i) ∧ j.regsKept (j.strSync i) [Reg.STR_STREAM_STATUS i, Reg.STR_STREAM_SEQ i] := fun j =>
    ⟨(j.strSync_of hi).1, (j.strSync_of hi).2.1.mono (by clear * - hi; revert i; decide)⟩
  have ha : ∀ o, o ≠ Reg.STR_STREAM_CFG i → q.rdAct o = k.rdAct o := fun o h => Stake.rdAct_wrAct_ne _ _ h
  clear_value q
  have h1 : ∀ g, Stake.Only [.str, .regs] q (((q.onStrm i g).put (Reg.STR_STREAM_SEQ_SEQ i) 0).strSync i) := fun g =>
    .step (.put (.onStrm .refl)) (hs _).1
  have h1r : ∀ g, q.regsKept (((q.onStrm i g).put (Reg.STR_STREAM_SEQ_SEQ i) 0).strSync i) [Reg.STR_STREAM_STATUS i, Reg.STR_STREAM_SEQ i] := fun g =>
    .trans (.put (.onStrm .refl) (by clear * - hi; revert i; decide)) (hs _).2
  have h2 : Stake.Only [.str, .regs] q ((q.onStrm i Strm.close).strSync i) := .step (.onStrm .refl) (hs _).1
  have h2r : q.regsKept ((q.onStrm i Strm.close).strSync i) [Reg.STR_STREAM_STATUS i, Reg.STR_STREAM_SEQ i] := .trans (.onStrm .refl) (hs _).2
  have hact : ∀ j : Stake, Stake.Only [.str, .regs] q j → ∀ o, j.rdAct o = q.rdAct o := fun j h o => by rw [Stake.rdAct, h.act, h.id, Stake.rdAct]
  split
  · exact ⟨hq.step (h1 _), hr.trans (h1r _), fun o h => (hact _ (h1 _) o).trans (ha o h)⟩
  · split
    · exact ⟨hq.step h2, hr.trans h2r, fun o h => (hact _ h2 o).trans (ha o h)⟩
    · exact ⟨hq, hr, ha⟩

/-- R376: a stream's part of `APPLY`. -/
def Stake.strApplyAt (q : Stake) (i : Nat) : Stake :=
  let w := q.rd (Reg.STR_STREAM_CFG i)
  if w = q.rdAct (Reg.STR_STREAM_CFG i) then q
  else
    let on := (Reg.STR_STREAM_CFG_EN i).of w = 1
    let was := q.inForceB (Reg.STR_STREAM_CFG_EN i)
    let q := (q.strFlush i).strEnable i on
    let q := if on && !was then q.onStrm i fun s => { s with flushNext := false } else q
    q.wrAct (Reg.STR_STREAM_CFG i) w

theorem Stake.strApply_eq (k : Stake) : k.strApply = if 256 < fifoSum fun i => k.rd (Reg.STR_STREAM_CFG i) then
    k.strRefuse (fifoSum fun i => k.rd (Reg.STR_STREAM_CFG i)) else (List.range 16).foldl Stake.strApplyAt k := rfl

theorem Stake.strApplyAt_of (hi : i < 16) : k.regsKept (k.strApplyAt i) [Reg.STR_STREAM_STATUS i, Reg.STR_STREAM_SEQ i] ∧
    (k.strApplyAt i).rdAct (Reg.STR_STREAM_CFG i) = k.rd (Reg.STR_STREAM_CFG i) ∧
    ∀ o, o ≠ Reg.STR_STREAM_CFG i → (k.strApplyAt i).rdAct o = k.rdAct o := by
  unfold Stake.strApplyAt
  extract_lets w on was q1 q2
  obtain ⟨hf, hfr, _⟩ := k.strFlush_of hi
  obtain ⟨he, her, hea⟩ := (k.strFlush i).strEnable_of hi on
  have h1 : k.regsKept q1 [Reg.STR_STREAM_STATUS i, Reg.STR_STREAM_SEQ i] := (hfr.mono (by clear * - hi; revert i; decide)).trans her
  have h2 : k.regsKept q2 [Reg.STR_STREAM_STATUS i, Reg.STR_STREAM_SEQ i] := .ite (.onStrm h1) h1
  have ho2 : Stake.Only [.str] q1 q2 := .ite (.onStrm .refl) .refl
  have ha2 : ∀ o, o ≠ Reg.STR_STREAM_CFG i → q2.rdAct o = k.rdAct o := fun o h => by
    have h3 : q1.rdAct o = (k.strFlush i).rdAct o := hea o h
    rw [Stake.rdAct, ho2.act, ho2.id, ← Stake.rdAct, h3, Stake.rdAct, hf.act, hf.id, ← Stake.rdAct]
  clear_value q2
  split
  · next h => exact ⟨.refl, h.symm, fun _ _ => rfl⟩
  · exact ⟨.wrAct h2, Stake.rdAct_wrAct_same _ _ _, fun o h => (Stake.rdAct_wrAct_ne _ _ h).trans (ha2 o h)⟩

theorem streamRegs_apart : ∀ i < 16, ∀ r < 16, Reg.STR_STREAM_CFG i ∉ [Reg.STR_STREAM_STATUS r, Reg.STR_STREAM_SEQ r] ∧
    (r ≠ i → Reg.STR_STREAM_CFG i ≠ Reg.STR_STREAM_CFG r) := by decide

/-- R376: `APPLY` puts every stream's settings in force. -/
theorem Stake.strApply_inForce (hs : ¬256 < fifoSum fun i => k.rd (Reg.STR_STREAM_CFG i)) (hi : i < 16) :
    k.strApply.rdAct (Reg.STR_STREAM_CFG i) = k.strApply.rd (Reg.STR_STREAM_CFG i) := by
  rw [Stake.strApply_eq, if_neg hs]
  refine foldl_settles (P := fun q : Stake => q.rdAct (Reg.STR_STREAM_CFG i) = q.rd (Reg.STR_STREAM_CFG i)) (i := i) (fun q => ?_) _
    (List.mem_range.mpr hi) fun q r hr hne hq => ?_
  · obtain ⟨h1, h2, _⟩ := q.strApplyAt_of hi
    rw [h2, h1 _ (streamRegs_apart i hi i hi).1]
  · have hr' := List.mem_range.mp hr
    obtain ⟨h1, _, h3⟩ := q.strApplyAt_of hr'
    rw [h3 _ ((streamRegs_apart i hi r hr').2 hne), h1 _ (streamRegs_apart i hi r hr').1, hq]

/-- R376: a refused `APPLY`. -/
theorem Stake.strRefuse_of (sum : Nat) : Stake.Only [.regs, .out, .prt] k (k.strRefuse sum) ∧
    (k.strRefuse sum).flag Reg.STR_CTRL_CFG_REFUSED = true ∧ k.posted (k.strRefuse sum) .strCfgRefused 0 [sum] := by
  have h : Stake.Only [.regs, .out, .prt] k (k.putB Reg.STR_CTRL_CFG_REFUSED true) := .putB .refl
  have hp : Stake.Only [.regs] k (k.putB Reg.STR_CTRL_CFG_REFUSED true) := .putB .refl
  unfold Stake.strRefuse
  refine ⟨.post h, ?_, hp.post_posted _ _ _⟩
  rw [Stake.flag_post _ _ _ _ Reg.STR_CTRL_CFG_REFUSED]
  exact Stake.flag_putB_same _ _ _ (by decide) rfl

theorem fifoSum_congr {v w : Nat → BitVec 32} (h : ∀ i < 16, v i = w i) : fifoSum v = fifoSum w := by
  have hl : ∀ l : List Nat, (∀ i ∈ l, i < 16) → ∀ a, l.foldl (fun a i =>
      if (Reg.STR_STREAM_CFG_EN i).of (v i) = 1 then a + (Reg.STR_STREAM_CFG_FIFO_KIB i).of (v i) else a) a = l.foldl (fun a i =>
      if (Reg.STR_STREAM_CFG_EN i).of (w i) = 1 then a + (Reg.STR_STREAM_CFG_FIFO_KIB i).of (w i) else a) a := fun l => by
    induction l with
    | nil => exact fun _ _ => rfl
    | cons x l ih =>
      intro hl a
      rw [List.foldl_cons, List.foldl_cons, h x (hl x List.mem_cons_self), ih fun i hi => hl i (List.mem_cons_of_mem _ hi)]
  exact hl _ (fun i hi => List.mem_range.mp hi) 0

end

/-- An item that is offered leaves those that wait, and goes to the packer. -/
def Stake.nextItem (k : Stake) : Stake := match k.offers with
  | [] => k
  | o :: t => ({ k with offers := t } : Stake).strItem o

theorem exec_streamItem_eq (n : Nat) (s : State) : exec (.streamItem n) s = .next (s.onStake n Stake.nextItem) := rfl

theorem Stake.nextItem_cons {k : Stake} {o : Offer} {rest : List Offer} (h : k.offers = o :: rest) :
    k.nextItem = ({ k with offers := rest } : Stake).strItem o := by
  unfold Stake.nextItem
  rw [h]

theorem Stake.strItem_none {k : Stake} {o : Offer} (h : 16 ≤ o.stream ∨ k.inForceB (Reg.STR_STREAM_CFG_EN o.stream) = false) :
    k.strItem o = k := by
  unfold Stake.strItem
  exact if_pos (by rcases h with h | h <;> simp [h])

theorem Stake.strItem_drops {k : Stake} {o : Offer} (hi : o.stream < 16) (he : k.inForceB (Reg.STR_STREAM_CFG_EN o.stream) = true)
    (hr : k.inForce (Reg.STR_STREAM_CFG_FIFO_KIB o.stream) * 128 < (k.strm o.stream).stored + o.words.length) :
    k.strItem o = k.strDrop o.stream := by
  unfold Stake.strItem
  extract_lets i n room lim s fits joined s' seq p q b
  rw [if_neg (by simp only [he, i]; simp; omega)]
  exact if_pos hr

theorem Stake.strItem_only (k : Stake) (o : Offer) : Stake.Only [.str, .regs] k (k.strItem o) := by
  by_cases hi : 16 ≤ o.stream ∨ k.inForceB (Reg.STR_STREAM_CFG_EN o.stream) = false
  · rw [Stake.strItem_none hi]
    exact .refl
  · have hs : ∀ j : Stake, Stake.Only [.str, .regs] k j → Stake.Only [.str, .regs] k (j.strSync o.stream) := fun j h =>
      h.step (j.strSync_of (by omega)).1
    have hd : Stake.Only [.str, .regs] k (k.strDrop o.stream) := hs _ (.putB (.bump31 (.onStrm .refl)))
    unfold Stake.strItem
    extract_lets i n room lim s fits joined s' seq p q b
    refine .ite .refl (.ite hd ?_)
    cases joined with
    | some p => exact hs _ (.ite (.onStrm (.putB (.onStrm .refl))) (.putB (.onStrm .refl)))
    | none => exact .ite hd (hs _ (.ite (.onStrm (.putB (.put (.onStrm .refl)))) (.putB (.put (.onStrm .refl)))))

/-- R371, R372, R375: an item of an enabled stream reaches its packer. -/
theorem streamItem_of {s : State} {n : Nat} {o : Offer} {rest : List Offer} (hs : s.present n = true) (hof : (s.stake n).offers = o :: rest)
    (hi : o.stream < 16) (he : (s.stake n).inForceB (Reg.STR_STREAM_CFG_EN o.stream) = true) (hl : o.stream < (s.stake n).str.length) :
    let k := s.stake n
    let i := o.stream
    ∃ t, exec (.streamItem n) s = .next t ∧ s.elsewhere t n ∧ (t.stake n).offers = rest ∧
      (k.inForce (Reg.STR_STREAM_CFG_FIFO_KIB i) * 128 < (k.strm i).stored + o.words.length →
        (t.stake n).rd (Reg.STR_STREAM_DROP_CNT i) = satAdd 31 (k.rd (Reg.STR_STREAM_DROP_CNT i)) 1 ∧
        ((t.stake n).strm i).drops = (k.strm i).drops + 1 ∧ (t.stake n).flag (Reg.STR_STREAM_STATUS_FULL i) = true) ∧
      ((k.strm i).stored + o.words.length ≤ k.inForce (Reg.STR_STREAM_CFG_FIFO_KIB i) * 128 → (k.strm i).packing = none →
        (k.strm i).packets.length < 256 → o.words.length < k.inForce (Reg.STR_STREAM_CFG_PKT_WORDS i) →
        (∃ p, ((t.stake n).strm i).packing = some (p, k.now) ∧ p.words = o.words ∧ p.seq = k.fld (Reg.STR_STREAM_SEQ_SEQ i) ∧
          p.source = o.source ∧ p.content = o.content ∧ p.tick = k.ang.tick) ∧
        (t.stake n).fld (Reg.STR_STREAM_SEQ_SEQ i) = (k.fld (Reg.STR_STREAM_SEQ_SEQ i) + 1) % 65536 ∧
        (t.stake n).rd (Reg.STR_STREAM_DROP_CNT i) = k.rd (Reg.STR_STREAM_DROP_CNT i)) ∧
      (∀ p at_, (k.strm i).stored + o.words.length ≤ k.inForce (Reg.STR_STREAM_CFG_FIFO_KIB i) * 128 → (k.strm i).packing = some (p, at_) →
        p.source = o.source → p.content = o.content → p.words.length + o.words.length < k.inForce (Reg.STR_STREAM_CFG_PKT_WORDS i) →
        ((t.stake n).strm i).packing = some ({ p with words := p.words ++ o.words }, at_) ∧
        k.regsKept (t.stake n) [Reg.STR_STREAM_STATUS i]) := by
  intro k i
  obtain ⟨t, ht, hw, hj⟩ := exec_onStake hs Stake.nextItem
  rw [Stake.nextItem_cons hof] at hj
  have hq : Stake.Only [.offers] k { k with offers := rest } := Stake.Only.refl.set (f := .offers) (List.mem_singleton_self _)
  have hqo : ({ k with offers := rest } : Stake).offers = rest := rfl
  change t.stake n = ({ k with offers := rest } : Stake).strItem o at hj
  generalize ({ k with offers := rest } : Stake) = q at hq hqo hj
  have hst := Stake.strm_congr hq.str i
  rw [← hq.inForceB] at he
  rw [← hq.str] at hl
  refine ⟨t, (exec_streamItem_eq n s).trans ht, hw, ?_, ?_⟩
  · rw [hj, (q.strItem_only o).offers, hqo]
  rw [hj, ← hq.inForce, ← hq.inForce, ← hst, ← hq.rd, ← hq.fld, ← hq.now, ← hq.ang]
  refine ⟨fun hr => ?_, fun hr hp h256 hlt => Stake.strItem_starts rfl hi he hl hr hp h256 hlt, fun p at_ hr hp hsr hc hlt => ?_⟩
  · rw [Stake.strItem_drops hi he hr]
    obtain ⟨h1, h2, h3, _⟩ := Stake.strDrop_of hi hl
    exact ⟨h1, h2, h3⟩
  · obtain ⟨h1, h2⟩ := Stake.strItem_joins rfl hi he hl hr hp hsr hc hlt
    exact ⟨h1, fun off ho => (h2 off ho).trans (hq.rd off)⟩

/-- R372: the timeout of a stream's packet. -/
def Stake.packetTimeout (k : Stake) (i : Nat) : Stake := match (k.strm i).packing with
  | some (_, t) => if t + 400 * k.inForce (Reg.STR_STREAM_CFG_PKT_TIMEOUT i) ≤ k.now then (k.onStrm i Strm.close).strSync i else k
  | none => k

theorem exec_pktTimeout_eq (n i : Nat) (s : State) : exec (.pktTimeout n i) s = .next (s.onStake n fun k => k.packetTimeout i) := rfl

theorem Stake.packetTimeout_due {k : Stake} {i at_ : Nat} {p : Packet} (hp : (k.strm i).packing = some (p, at_))
    (h : at_ + 400 * k.inForce (Reg.STR_STREAM_CFG_PKT_TIMEOUT i) ≤ k.now) : k.packetTimeout i = (k.onStrm i Strm.close).strSync i := by
  unfold Stake.packetTimeout
  rw [hp]
  exact if_pos h

/-- Settles O32: an item is dropped, starts a packet or joins one; a packet closes; a flush empties; `APPLY` goes stream by stream. -/
theorem streamPacker : Obligations.StreamPacker := by
  unfold Obligations.StreamPacker
  refine ⟨fun s n o rest hs hof hi he hl => streamItem_of hs hof hi he hl, fun s n o rest hs hof hd => ?_,
    fun s n i at_ p hs hi hp hl hd => ?_, fun s n i src w ha hi h0 hl => ?_, fun s n src w ha h0 => ?_⟩
  · obtain ⟨t, ht, hw, hj⟩ := exec_onStake hs Stake.nextItem
    refine ⟨t, (exec_streamItem_eq n s).trans ht, hw, ?_⟩
    have hq : Stake.Only [.offers] (s.stake n) { s.stake n with offers := rest } :=
      Stake.Only.refl.set (f := .offers) (List.mem_singleton_self _)
    rw [hj, Stake.nextItem_cons hof]
    exact Stake.strItem_none (hd.imp_right (hq.inForceB _).trans)
  · obtain ⟨t, ht, hw, hj⟩ := exec_onStake hs (fun k => k.packetTimeout i)
    refine ⟨t, (exec_pktTimeout_eq n i s).trans ht, hw, ?_⟩
    rw [hj, Stake.packetTimeout_due hp hd]
    exact Stake.strClose_of hi hl hp
  · obtain ⟨t, ht, hw, hj⟩ := exec_stakeWrite ha fun k => if w.getLsbD 0 && i < 16 then k.strFlush i else k
    refine ⟨t, ht, hw, ?_⟩
    rw [hj, if_pos (by simp [h0, hi])]
    obtain ⟨_, h2, h3⟩ := (s.stake n).strFlush_of hi
    rw [h3 hl]
    exact ⟨rfl, rfl, rfl, rfl, h2⟩
  · obtain ⟨t, ht, hw, hj⟩ := exec_stakeWrite ha fun k => if w.getLsbD 0 then k.wStrCtrl w else k
    refine ⟨t, ht, hw, ?_⟩
    have ho := Stake.Only.store_only (s.stake n) Reg.STR_CTRL w
    have hsum : (fifoSum fun i => ((s.stake n).store Reg.STR_CTRL w).rd (Reg.STR_STREAM_CFG i)) =
        fifoSum fun i => (s.stake n).rd (Reg.STR_STREAM_CFG i) :=
      fifoSum_congr fun i hi => (s.stake n).store_regsKept Reg.STR_CTRL w _ (by clear * - hi; revert i; decide)
    rw [hj, if_pos h0, Stake.wStrCtrl, if_pos h0]
    generalize (s.stake n).store Reg.STR_CTRL w = q at ho hsum ⊢
    intro sum
    split
    · next h =>
      have h' : 256 < fifoSum fun i => q.rd (Reg.STR_STREAM_CFG i) := hsum ▸ h
      rw [Stake.strApply_eq, if_pos h', hsum]
      obtain ⟨h1, h2, h3⟩ := q.strRefuse_of sum
      exact ⟨h2, h1.act.trans ho.act, h1.str.trans ho.str, ho.posted h3⟩
    · next h => exact fun i hi => Stake.strApply_inForce (hsum ▸ h) hi

end Sys2Proof.Machine

/-! The parts of the package and what an operation changes of them: one statement per operation, from which that of each part follows. -/
namespace Sys2Proof.Machine
set_option Elab.async false

/-- The parts of the package; those of the host interface stand for themselves. -/
inductive PkgPart where
  | regs | lowStage | snap | hostReads | evq | snaps | eseq | snapNext | lost | net | nv | boot | sup | reads | fresh | rings | flying | descs | inbound | tune | tuneRun | tuneUsed | msix | adminOpen | served | window | used | pcie | aer | asked | writes
deriving DecidableEq

/-- What a part holds. -/
def PkgPart.type : PkgPart → Type
  | .regs => Store
  | .lowStage => List (Nat × BitVec 32)
  | .snap => List (Nat × BitVec 32)
  | .hostReads => List (Nat × BitVec 32)
  | .evq => List QEvent
  | .snaps => List QEvent
  | .eseq => Nat
  | .snapNext => Nat
  | .lost => Nat × Nat
  | .net => NetSt
  | .nv => NvState
  | .boot => BootSt
  | .sup => List SupSt
  | .reads => List (Nat × Nat × BitVec 32)
  | .fresh => Nat
  | .rings => List RingSt
  | .flying => List Flight
  | .descs => List Desc
  | .inbound => List Nat
  | .tune => List Tune
  | .tuneRun => List Tune
  | .tuneUsed => Nat
  | .msix => List (Nat × Option Nat)
  | .adminOpen => Bool
  | .served => List Nat
  | .window => Nat
  | .used => List Nat
  | .pcie => PcieCfg
  | .aer => BitVec 32
  | .asked => List DataRead
  | .writes => List (Nat × List Nat)

def Pkg.get (p : Pkg) : (f : PkgPart) → f.type
  | .regs => p.regs
  | .lowStage => p.lowStage
  | .snap => p.snap
  | .hostReads => p.hostReads
  | .evq => p.evq
  | .snaps => p.snaps
  | .eseq => p.eseq
  | .snapNext => p.snapNext
  | .lost => p.lost
  | .net => p.net
  | .nv => p.nv
  | .boot => p.boot
  | .sup => p.sup
  | .reads => p.reads
  | .fresh => p.fresh
  | .rings => p.host.rings
  | .flying => p.host.flying
  | .descs => p.host.descs
  | .inbound => p.host.inbound
  | .tune => p.host.tune
  | .tuneRun => p.host.tuneRun
  | .tuneUsed => p.host.tuneUsed
  | .msix => p.host.msix
  | .adminOpen => p.host.adminOpen
  | .served => p.host.served
  | .window => p.host.window
  | .used => p.host.used
  | .pcie => p.host.pcie
  | .aer => p.host.aer
  | .asked => p.host.reads
  | .writes => p.host.writes

def Pkg.set (p : Pkg) : (f : PkgPart) → f.type → Pkg
  | .regs, x => { p with regs := x }
  | .lowStage, x => { p with lowStage := x }
  | .snap, x => { p with snap := x }
  | .hostReads, x => { p with hostReads := x }
  | .evq, x => { p with evq := x }
  | .snaps, x => { p with snaps := x }
  | .eseq, x => { p with eseq := x }
  | .snapNext, x => { p with snapNext := x }
  | .lost, x => { p with lost := x }
  | .net, x => { p with net := x }
  | .nv, x => { p with nv := x }
  | .boot, x => { p with boot := x }
  | .sup, x => { p with sup := x }
  | .reads, x => { p with reads := x }
  | .fresh, x => { p with fresh := x }
  | .rings, x => { p with host := { p.host with rings := x } }
  | .flying, x => { p with host := { p.host with flying := x } }
  | .descs, x => { p with host := { p.host with descs := x } }
  | .inbound, x => { p with host := { p.host with inbound := x } }
  | .tune, x => { p with host := { p.host with tune := x } }
  | .tuneRun, x => { p with host := { p.host with tuneRun := x } }
  | .tuneUsed, x => { p with host := { p.host with tuneUsed := x } }
  | .msix, x => { p with host := { p.host with msix := x } }
  | .adminOpen, x => { p with host := { p.host with adminOpen := x } }
  | .served, x => { p with host := { p.host with served := x } }
  | .window, x => { p with host := { p.host with window := x } }
  | .used, x => { p with host := { p.host with used := x } }
  | .pcie, x => { p with host := { p.host with pcie := x } }
  | .aer, x => { p with host := { p.host with aer := x } }
  | .asked, x => { p with host := { p.host with reads := x } }
  | .writes, x => { p with host := { p.host with writes := x } }

theorem Pkg.get_set_ne (p : Pkg) {f g : PkgPart} (x : f.type) (h : g ≠ f) : (p.set f x).get g = p.get g := by
  cases f <;> cases g <;> first | rfl | contradiction

/-- Of the package, only the parts listed have changed. -/
def Pkg.Only (l : List PkgPart) (p q : Pkg) : Prop := ∀ f, f ∉ l → q.get f = p.get f

namespace Pkg.Only
variable {l l' : List PkgPart} {p q o : Pkg}

theorem refl : Only l p p := fun _ _ => rfl
theorem trans (h : Only l p q) (h' : Only l q o) : Only l p o := fun f hf => (h' f hf).trans (h f hf)
theorem mono (h : Only l' p q) (hl : l' ⊆ l) : Only l p q := fun f hf => h f fun hm => hf (hl hm)
theorem step (h : Only l p q) (h' : Only l' q o) (hl : l' ⊆ l := by decide) : Only l p o := h.trans (h'.mono hl)
theorem set {f : PkgPart} {x : f.type} (h : Only l p q) (hf : f ∈ l := by decide) : Only l p (q.set f x) :=
  h.trans fun _ hg => q.get_set_ne x fun e => hg (e ▸ hf)
theorem ite {c : Prop} [Decidable c] (h : Only l p q) (h' : Only l p o) : Only l p (if c then q else o) := by split <;> assumption

theorem regs (h : Only l p q) (hf : PkgPart.regs ∉ l := by decide) : q.regs = p.regs := h .regs hf
theorem lowStage (h : Only l p q) (hf : PkgPart.lowStage ∉ l := by decide) : q.lowStage = p.lowStage := h .lowStage hf
theorem snap (h : Only l p q) (hf : PkgPart.snap ∉ l := by decide) : q.snap = p.snap := h .snap hf
theorem hostReads (h : Only l p q) (hf : PkgPart.hostReads ∉ l := by decide) : q.hostReads = p.hostReads := h .hostReads hf
theorem evq (h : Only l p q) (hf : PkgPart.evq ∉ l := by decide) : q.evq = p.evq := h .evq hf
theorem snaps (h : Only l p q) (hf : PkgPart.snaps ∉ l := by decide) : q.snaps = p.snaps := h .snaps hf
theorem eseq (h : Only l p q) (hf : PkgPart.eseq ∉ l := by decide) : q.eseq = p.eseq := h .eseq hf
theorem snapNext (h : Only l p q) (hf : PkgPart.snapNext ∉ l := by decide) : q.snapNext = p.snapNext := h .snapNext hf
theorem lost (h : Only l p q) (hf : PkgPart.lost ∉ l := by decide) : q.lost = p.lost := h .lost hf
theorem net (h : Only l p q) (hf : PkgPart.net ∉ l := by decide) : q.net = p.net := h .net hf
theorem nv (h : Only l p q) (hf : PkgPart.nv ∉ l := by decide) : q.nv = p.nv := h .nv hf
theorem boot (h : Only l p q) (hf : PkgPart.boot ∉ l := by decide) : q.boot = p.boot := h .boot hf
theorem sup (h : Only l p q) (hf : PkgPart.sup ∉ l := by decide) : q.sup = p.sup := h .sup hf
theorem reads (h : Only l p q) (hf : PkgPart.reads ∉ l := by decide) : q.reads = p.reads := h .reads hf
theorem fresh (h : Only l p q) (hf : PkgPart.fresh ∉ l := by decide) : q.fresh = p.fresh := h .fresh hf
theorem rings (h : Only l p q) (hf : PkgPart.rings ∉ l := by decide) : q.host.rings = p.host.rings := h .rings hf
theorem flying (h : Only l p q) (hf : PkgPart.flying ∉ l := by decide) : q.host.flying = p.host.flying := h .flying hf
theorem descs (h : Only l p q) (hf : PkgPart.descs ∉ l := by decide) : q.host.descs = p.host.descs := h .descs hf
theorem inbound (h : Only l p q) (hf : PkgPart.inbound ∉ l := by decide) : q.host.inbound = p.host.inbound := h .inbound hf
theorem tune (h : Only l p q) (hf : PkgPart.tune ∉ l := by decide) : q.host.tune = p.host.tune := h .tune hf
theorem tuneRun (h : Only l p q) (hf : PkgPart.tuneRun ∉ l := by decide) : q.host.tuneRun = p.host.tuneRun := h .tuneRun hf
theorem tuneUsed (h : Only l p q) (hf : PkgPart.tuneUsed ∉ l := by decide) : q.host.tuneUsed = p.host.tuneUsed := h .tuneUsed hf
theorem msix (h : Only l p q) (hf : PkgPart.msix ∉ l := by decide) : q.host.msix = p.host.msix := h .msix hf
theorem adminOpen (h : Only l p q) (hf : PkgPart.adminOpen ∉ l := by decide) : q.host.adminOpen = p.host.adminOpen := h .adminOpen hf
theorem served (h : Only l p q) (hf : PkgPart.served ∉ l := by decide) : q.host.served = p.host.served := h .served hf
theorem window (h : Only l p q) (hf : PkgPart.window ∉ l := by decide) : q.host.window = p.host.window := h .window hf
theorem used (h : Only l p q) (hf : PkgPart.used ∉ l := by decide) : q.host.used = p.host.used := h .used hf
theorem pcie (h : Only l p q) (hf : PkgPart.pcie ∉ l := by decide) : q.host.pcie = p.host.pcie := h .pcie hf
theorem aer (h : Only l p q) (hf : PkgPart.aer ∉ l := by decide) : q.host.aer = p.host.aer := h .aer hf
theorem asked (h : Only l p q) (hf : PkgPart.asked ∉ l := by decide) : q.host.reads = p.host.reads := h .asked hf
theorem writes (h : Only l p q) (hf : PkgPart.writes ∉ l := by decide) : q.host.writes = p.host.writes := h .writes hf

/-- The host interface, where none of its parts has changed. -/
theorem host (h : Only l p q) (hf : ∀ f ∈ [PkgPart.rings, .flying, .descs, .inbound, .tune, .tuneRun, .tuneUsed, .msix, .adminOpen, .served,
    .window, .used, .pcie, .aer, .asked, .writes], f ∉ l := by decide) : q.host = p.host := by
  have h1 : ∀ f ∈ [PkgPart.rings, .flying, .descs, .inbound, .tune, .tuneRun, .tuneUsed, .msix, .adminOpen, .served,
    .window, .used, .pcie, .aer, .asked, .writes], q.get f = p.get f := fun f hm => h f (hf f hm)
  have he : ∀ x : HostSt, x = ⟨x.rings, x.flying, x.descs, x.inbound, x.tune, x.tuneRun, x.tuneUsed, x.msix, x.adminOpen, x.served, x.window, x.used, x.pcie, x.aer, x.reads, x.writes⟩ := fun _ => rfl
  rw [he q.host, he p.host, HostSt.mk.injEq]
  exact ⟨h1 .rings (by decide), h1 .flying (by decide), h1 .descs (by decide), h1 .inbound (by decide), h1 .tune (by decide), h1 .tuneRun (by decide), h1 .tuneUsed (by decide), h1 .msix (by decide), h1 .adminOpen (by decide), h1 .served (by decide), h1 .window (by decide), h1 .used (by decide), h1 .pcie (by decide), h1 .aer (by decide), h1 .asked (by decide), h1 .writes (by decide)⟩

section
variable (h : Only l p q)
include h
theorem wr {a : Nat} {v : BitVec 32} (hf : PkgPart.regs ∈ l := by decide) : Only l p (q.wr a v) := h.set (f := .regs) hf
theorem put {f : Fld} {v : Nat} (hf : PkgPart.regs ∈ l := by decide) : Only l p (q.put f v) := h.set (f := .regs) hf
theorem putB {f : Fld} {b : Bool} (hf : PkgPart.regs ∈ l := by decide) : Only l p (q.putB f b) := h.set (f := .regs) hf
theorem bump {a n : Nat} (hf : PkgPart.regs ∈ l := by decide) : Only l p (q.bump a n) := .ite h (h.wr hf)
theorem rd (a : Nat) (hl : PkgPart.regs ∉ l := by decide) : q.rd a = p.rd a := by rw [Pkg.rd, h.regs hl, Pkg.rd]
end

end Pkg.Only

namespace Pkg.regsKept
variable {l l' : List Nat} {p q o : Pkg}

theorem refl : p.regsKept p l := fun _ _ => rfl
theorem trans (h : p.regsKept q l) (h' : q.regsKept o l) : p.regsKept o l := fun f hf => (h' f hf).trans (h f hf)
theorem mono (h : p.regsKept q l') (hl : l' ⊆ l) : p.regsKept q l := fun f hf => h f fun hm => hf (hl hm)
theorem of_only {m : List PkgPart} (h : Pkg.Only m p q) (hm : PkgPart.regs ∉ m := by decide) : p.regsKept q l := fun a _ => h.rd a hm
theorem wr (h : p.regsKept q l) {a : Nat} {v : BitVec 32} (ha : a ∈ l := by decide) : p.regsKept (q.wr a v) l :=
  h.trans fun f hf => q.rd_wr_ne v fun e => hf (e ▸ ha)
theorem put (h : p.regsKept q l) {f : Fld} {v : Nat} (ha : f.off ∈ l := by decide) : p.regsKept (q.put f v) l := h.wr ha
theorem putB (h : p.regsKept q l) {f : Fld} {b : Bool} (ha : f.off ∈ l := by decide) : p.regsKept (q.putB f b) l := h.wr ha
theorem ite {c : Prop} [Decidable c] (h : p.regsKept q l) (h' : p.regsKept o l) : p.regsKept (if c then q else o) l := by split <;> assumption
theorem bump (h : p.regsKept q l) {a n : Nat} (ha : a ∈ l := by decide) : p.regsKept (q.bump a n) l := .ite h (h.wr ha)
theorem fld (h : p.regsKept q l) {f : Fld} (ha : f.off ∉ l := by decide) : q.fld f = p.fld f := by rw [Pkg.fld, h _ ha, Pkg.fld]
theorem flag (h : p.regsKept q l) {f : Fld} (ha : f.off ∉ l := by decide) : q.flag f = p.flag f := by rw [Pkg.flag, h.fld ha, Pkg.flag]
end Pkg.regsKept

end Sys2Proof.Machine

/-! The rings of the host interface: what a completion, an interrupt and an event change. -/
namespace Sys2Proof.Machine
set_option Elab.async false

/-- A change of the package: the parts, the registers, and host memory, of which nothing already written is taken back. -/
structure Pkg.Eff (l : List PkgPart) (m : List Nat) (p q : Pkg) : Prop where
  only : Pkg.Only l p q
  regs : p.regsKept q m
  writes : p.host.writes <+: q.host.writes

/-- The same of the state, with every stake as before. -/
structure State.Eff (l : List PkgPart) (m : List Nat) (s t : State) : Prop where
  stakes : s.stakesKept t
  eff : Pkg.Eff l m s.pkg t.pkg

theorem State.stakesKept_refl (s : State) : s.stakesKept s := ⟨rfl, rfl, rfl⟩
theorem State.stakesKept.trans {s t u : State} (h : s.stakesKept t) (h' : t.stakesKept u) : s.stakesKept u :=
  ⟨h'.1.trans h.1, h'.2.1.trans h.2.1, h'.2.2.trans h.2.2⟩
theorem State.stakesKept.stake {s t : State} (h : s.stakesKept t) (n : Nat) : t.stake n = s.stake n := by rw [State.stake, h.1, State.stake]

namespace Pkg.Eff
variable {l l' : List PkgPart} {m m' : List Nat} {p q o : Pkg}

theorem refl : Eff l m p p := ⟨.refl, .refl, List.prefix_rfl⟩
theorem trans (h : Eff l m p q) (h' : Eff l m q o) : Eff l m p o := ⟨h.only.trans h'.only, h.regs.trans h'.regs, h.writes.trans h'.writes⟩
theorem mono (h : Eff l' m' p q) (hl : l' ⊆ l) (hm : m' ⊆ m) : Eff l m p q := ⟨h.only.mono hl, h.regs.mono hm, h.writes⟩
theorem ite {c : Prop} [Decidable c] (h : Eff l m p q) (h' : Eff l m p o) : Eff l m p (if c then q else o) := by split <;> assumption
theorem of_only (h : Pkg.Only l p q) (hr : PkgPart.regs ∉ l := by decide) (hw : PkgPart.writes ∉ l := by decide) : Eff l m p q :=
  ⟨h, .of_only h hr, by rw [h.writes hw]⟩

section
variable (h : Eff l m p q)
include h
theorem set {f : PkgPart} {x : f.type} (hf : f ∈ l := by decide) (hr : f ≠ .regs := by decide) (hw : f ≠ .writes := by decide) :
    Eff l m p (q.set f x) := by
  have h1 : Eff [f] m q (q.set f x) := .of_only (.set .refl (List.mem_singleton_self f)) (by simpa using hr.symm) (by simpa using hw.symm)
  exact h.trans (h1.mono (by simpa using hf) (List.Subset.refl m))
theorem wr {a : Nat} {v : BitVec 32} (ha : a ∈ m := by decide) (hf : PkgPart.regs ∈ l := by decide) : Eff l m p (q.wr a v) :=
  ⟨h.only.wr hf, h.regs.wr ha, h.writes⟩
theorem put {f : Fld} {v : Nat} (ha : f.off ∈ m := by decide) (hf : PkgPart.regs ∈ l := by decide) : Eff l m p (q.put f v) := h.wr ha hf
theorem putB {f : Fld} {b : Bool} (ha : f.off ∈ m := by decide) (hf : PkgPart.regs ∈ l := by decide) : Eff l m p (q.putB f b) := h.wr ha hf
theorem bump {a n : Nat} (ha : a ∈ m := by decide) (hf : PkgPart.regs ∈ l := by decide) : Eff l m p (q.bump a n) := .ite h (h.wr ha hf)
end
end Pkg.Eff

namespace State.Eff
variable {l l' : List PkgPart} {m m' : List Nat} {s t u : State}

theorem refl : Eff l m s s := ⟨s.stakesKept_refl, .refl⟩
theorem trans (h : Eff l m s t) (h' : Eff l m t u) : Eff l m s u := ⟨h.stakes.trans h'.stakes, h.eff.trans h'.eff⟩
theorem mono (h : Eff l' m' s t) (hl : l' ⊆ l := by decide) (hm : m' ⊆ m := by decide) : Eff l m s t := ⟨h.stakes, h.eff.mono hl hm⟩
theorem ite {c : Prop} [Decidable c] (h : Eff l m s t) (h' : Eff l m s u) : Eff l m s (if c then t else u) := by split <;> assumption
theorem foldl {α : Type} {f : State → α → State} (hf : ∀ j a, Eff l m s j → Eff l m s (f j a)) (x : List α) (h : Eff l m s t) :
    Eff l m s (x.foldl f t) := by
  induction x generalizing t with
  | nil => exact h
  | cons a x ih => exact ih (hf t a h)
theorem only (h : Eff l m s t) : Pkg.Only l s.pkg t.pkg := h.eff.only
theorem regs (h : Eff l m s t) : s.pkg.regsKept t.pkg m := h.eff.regs
theorem writes (h : Eff l m s t) : s.pkg.host.writes <+: t.pkg.host.writes := h.eff.writes
theorem onPkg (h : Eff l m s t) {f : Pkg → Pkg} (hf : Pkg.Eff l m t.pkg (f t.pkg)) : Eff l m s (t.onPkg f) :=
  ⟨h.stakes, h.eff.trans hf⟩
theorem set (h : Eff l m s t) {f : PkgPart} {x : f.type} (hf : f ∈ l := by decide) (hr : f ≠ .regs := by decide)
    (hw : f ≠ .writes := by decide) : Eff l m s { t with pkg := t.pkg.set f x } := ⟨h.stakes, h.eff.trans (.set .refl hf hr hw)⟩

section
variable (h : Eff l m s t)
include h
theorem onRing {r : Nat} {f : RingSt → RingSt} (hf : PkgPart.rings ∈ l := by decide) : Eff l m s (t.onRing r f) :=
  h.set (f := .rings) hf
theorem hostWrite {a : Nat} {b : List Nat} (hf : PkgPart.writes ∈ l := by decide) : Eff l m s (t.hostWrite a b) := by
  have h1 : Pkg.Only l t.pkg (t.hostWrite a b).pkg := Pkg.Only.refl.set (f := .writes) hf
  have h2 : Pkg.Only [.writes] t.pkg (t.hostWrite a b).pkg := Pkg.Only.refl.set (f := .writes)
  exact h.trans ⟨⟨rfl, rfl, rfl⟩, h1, .of_only h2, List.prefix_append _ _⟩
theorem charge {c u : Nat} (hf : PkgPart.window ∈ l ∧ PkgPart.used ∈ l := by decide) : Eff l m s (t.charge c u) :=
  (h.set (f := .window) (x := t.time / 4000) hf.1).set (f := .used)
    (x := updAt (if t.pkg.host.window = t.time / 4000 then t.pkg.host.used else [0, 0, 0, 0]) c (· + u)) hf.2
theorem takeFree {r : Nat} (hf : PkgPart.rings ∈ l := by decide) : Eff l m s (t.takeFree r) := h.onRing hf
end
end State.Eff

section
variable {s t : State}

theorem pba_mem : ∀ v < 64, Reg.HIF_MSIX_PBA (v / 32) ∈ [Reg.HIF_MSIX_PBA 0, Reg.HIF_MSIX_PBA 1] := by decide

/-- R368: a vector that fires. -/
theorem State.msixFire_eff {v : Nat} (hv : v < 64) (s : State) :
    State.Eff [.msix, .regs, .writes] [Reg.HIF_MSIX_PBA 0, Reg.HIF_MSIX_PBA 1] s (s.msixFire v) := by
  unfold State.msixFire
  extract_lets w q o
  have hq : State.Eff [.msix, .regs, .writes] [Reg.HIF_MSIX_PBA 0, Reg.HIF_MSIX_PBA 1] s q := .set (f := .msix) .refl
  exact .ite hq (.ite (.onPkg hq (.wr .refl (pba_mem v hv))) (.hostWrite hq))

theorem State.msixEntry_eff {v : Nat} {now : Bool} (hv : v < 64) (s : State) :
    State.Eff [.msix, .regs, .writes] [Reg.HIF_MSIX_PBA 0, Reg.HIF_MSIX_PBA 1] s (s.msixEntry v now) :=
  .ite (s.msixFire_eff hv) (.set (f := .msix) .refl)

theorem State.ring_of {s t : State} (h : t.pkg.host.rings = s.pkg.host.rings) (r : Nat) : t.ring r = s.ring r := by
  rw [State.ring, h, State.ring]

theorem State.ring_onRing_ne {r q : Nat} (h : q ≠ r) (f : RingSt → RingSt) (s : State) : (s.onRing r f).ring q = s.ring q :=
  nth_updAt_ne _ _ _ _ _ h

theorem State.ring_onRing {r : Nat} (h : r < s.pkg.host.rings.length) (f : RingSt → RingSt) : (s.onRing r f).ring r = f (s.ring r) :=
  nth_updAt_same _ _ _ _ h

/-- The registers that a completion entry of a pair may change. -/
def cqRegs (r : Nat) : List Nat := [Reg.HIF_RING_PTR r, Reg.HIF_MSIX_PBA 0, Reg.HIF_MSIX_PBA 1]

/-- The parts of the package that one may change. -/
abbrev cqParts : List PkgPart := [.rings, .regs, .writes, .window, .used, .msix]

theorem List.IsPrefix.mem_drop {α : Type} {l m : List α} {x : α} (h : l ++ [x] <+: m) : x ∈ m.drop l.length := by
  obtain ⟨r, rfl⟩ := h
  simp

/-- R346: the entry that is written. -/
def State.cqEntry (s : State) (r : Nat) (e : List Nat) : List Nat :=
  e.mapIdx fun i b => if i = 3 then b % 128 + (if (s.ring r).phase then 128 else 0) else b

theorem State.nth_cqEntry (s : State) (r : Nat) (e : List Nat) {i : Nat} (h : i ≠ 3) : nth 0 (s.cqEntry r e) i = nth 0 e i := by
  unfold State.cqEntry nth
  rw [List.getD_eq_getElem?_getD, List.getD_eq_getElem?_getD, List.getElem?_mapIdx]
  cases e[i]? <;> simp [h]

/-- R346: an entry is written. -/
theorem State.cqWrite_of (s : State) (r : Nat) (e : List Nat) (now : Bool) :
    State.Eff cqParts (cqRegs r) s (s.cqWrite r e now) ∧
      ((s.ring r).cqBase + 32 * s.pkg.fld (Reg.HIF_RING_PTR_CQ_TAIL r), s.cqEntry r e) ∈
        (s.cqWrite r e now).pkg.host.writes.drop s.pkg.host.writes.length ∧
      (∀ q, q ≠ r → (s.cqWrite r e now).ring q = s.ring q) ∧
      ∃ b, (s.cqWrite r e now).ring r = { s.ring r with phase := b } := by
  unfold State.cqWrite
  extract_lets tail q e' wrap s1 s2 s3
  have h1 : State.Eff cqParts (cqRegs r) s s1 := .hostWrite .refl
  have hw : s1.pkg.host.writes = s.pkg.host.writes ++ [((s.ring r).cqBase + 32 * s.pkg.fld (Reg.HIF_RING_PTR_CQ_TAIL r), s.cqEntry r e)] := rfl
  have hr1 : ∀ q, s1.ring q = s.ring q := fun _ => rfl
  clear_value s1
  have h2 : State.Eff cqParts (cqRegs r) s1 s2 := .onPkg .refl (.put .refl List.mem_cons_self)
  have hr2 : ∀ q, s2.ring q = s1.ring q := fun _ => rfl
  clear_value s2
  have h3 : State.Eff cqParts (cqRegs r) s2 s3 := .onRing .refl
  have hr3 : ∀ q, q ≠ r → s3.ring q = s2.ring q := fun q h => State.ring_onRing_ne h _ _
  have hr3' : ∃ b, s3.ring r = { s2.ring r with phase := b } := by
    by_cases hl : r < s2.pkg.host.rings.length
    · rw [show s3.ring r = _ from State.ring_onRing hl _]
      split
      · exact ⟨_, rfl⟩
      · exact ⟨_, rfl⟩
    · have hn : s3.pkg.host.rings = s2.pkg.host.rings := List.modify_eq_self (by omega)
      exact ⟨_, State.ring_of hn r⟩
  clear_value s3
  have h4 : State.Eff cqParts (cqRegs r) s3 (s3.charge (s3.budgetClass r) 1) := .charge .refl
  have hr4 : ∀ q, (s3.charge (s3.budgetClass r) 1).ring q = s3.ring q := fun _ => rfl
  generalize s3.charge (s3.budgetClass r) 1 = s4 at h4 hr4 ⊢
  have hv : s3.pkg.fld (Reg.HIF_RING_VECTOR r) < 64 := Fld.of_lt _ _
  have h5 : State.Eff cqParts (cqRegs r) s4 (s4.msixEntry (s3.pkg.fld (Reg.HIF_RING_VECTOR r)) now) :=
    (s4.msixEntry_eff hv).mono (by decide) (List.subset_cons_self _ _)
  have hr5 := State.ring_of ((s4.msixEntry_eff (now := now) hv).only.rings)
  generalize s4.msixEntry (s3.pkg.fld (Reg.HIF_RING_VECTOR r)) now = s5 at h5 hr5 ⊢
  refine ⟨(((h1.trans h2).trans h3).trans h4).trans h5, ?_, fun q hq => ?_, ?_⟩
  · exact List.IsPrefix.mem_drop (hw ▸ ((h2.writes.trans h3.writes).trans h4.writes).trans h5.writes)
  · rw [hr5, hr4, hr3 q hq, hr2, hr1]
  · obtain ⟨b, hb⟩ := hr3'
    exact ⟨b, by rw [hr5, hr4, hb, hr2, hr1]⟩

end

end Sys2Proof.Machine

/-! Completions of descriptors (R344, R346, R362, R363). -/
namespace Sys2Proof.Machine
set_option Elab.async false

section
variable {s t u : State}

/-- The registers that a completion of a pair may change, and those that the end of a pair being deleted may. -/
def oneRegs (r : Nat) : List Nat := [Reg.HIF_SUPERSEDED_CNT, Reg.HIF_DELAYED_CNT, Reg.HIF_RING_PTR r, Reg.HIF_MSIX_PBA 0, Reg.HIF_MSIX_PBA 1]
def finRegs (r : Nat) : List Nat := Reg.HIF_RING r :: Reg.HIF_RING_PTR 0 :: oneRegs r

/-- The parts of the package that a completion may change. -/
abbrev finParts : List PkgPart := [.rings, .flying, .asked, .regs, .writes, .window, .used, .msix]

/-- R363: what a completion takes along before its entry is written. -/
def State.landed (s : State) (c : Completion) : State :=
  (s.onHost fun h =>
    { h with
      flying := dropFirst (fun f => f.ring = c.ring && f.cid = c.cid) h.flying
      reads := if readsData c.op then dropFirst (fun x => x.ring = c.ring && x.cid = c.cid) h.reads else h.reads }).onPkg fun p =>
    (p.bump Reg.HIF_SUPERSEDED_CNT (if c.status = 2 then 1 else 0)).bump Reg.HIF_DELAYED_CNT (if c.status = 1 then 1 else 0)

theorem State.finishOne_eq (s : State) (c : Completion) : s.finishOne c =
    match s.pkg.host.flying.find? fun f => f.ring = c.ring && f.cid = c.cid with
    | none => s.landed c
    | some f => if (s.landed c).ringEn c.ring then
        (s.landed c).cqWrite c.ring (c.bytes f.sqHead ((s.landed c).stake 0).ang.tick) f.urgent else s.landed c := rfl

theorem State.landed_eff (s : State) (c : Completion) :
    State.Eff [.flying, .asked, .regs] [Reg.HIF_SUPERSEDED_CNT, Reg.HIF_DELAYED_CNT] s (s.landed c) := by
  have h1 : State.Eff [.flying, .asked, .regs] [Reg.HIF_SUPERSEDED_CNT, Reg.HIF_DELAYED_CNT] s (s.onHost fun h =>
    { h with
      flying := dropFirst (fun f => f.ring = c.ring && f.cid = c.cid) h.flying
      reads := if readsData c.op then dropFirst (fun x => x.ring = c.ring && x.cid = c.cid) h.reads else h.reads }) :=
    State.Eff.set (f := .asked) (State.Eff.set (f := .flying) (x := dropFirst (fun f => f.ring = c.ring && f.cid = c.cid) s.pkg.host.flying) .refl)
  exact .onPkg h1 (.bump (.bump .refl))

/-- R363: a completion, and the rings after it. -/
theorem State.finishOne_eff (s : State) (c : Completion) : State.Eff finParts (oneRegs c.ring) s (s.finishOne c) ∧
    (∀ q, q ≠ c.ring → (s.finishOne c).ring q = s.ring q) ∧ ∃ b, (s.finishOne c).ring c.ring = { s.ring c.ring with phase := b } := by
  have h1 : State.Eff finParts (oneRegs c.ring) s (s.landed c) :=
    (s.landed_eff c).mono (by decide) fun a ha => List.mem_append_left [Reg.HIF_RING_PTR c.ring, Reg.HIF_MSIX_PBA 0, Reg.HIF_MSIX_PBA 1] ha
  have hr := State.ring_of (s.landed_eff c).only.rings
  rw [State.finishOne_eq]
  generalize s.landed c = q at h1 hr ⊢
  have h0 : State.Eff finParts (oneRegs c.ring) s q ∧ (∀ r, r ≠ c.ring → q.ring r = s.ring r) ∧
    ∃ b, q.ring c.ring = { s.ring c.ring with phase := b } := ⟨h1, fun r _ => hr r, _, hr _⟩
  split
  · exact h0
  · split
    · next f _ _ =>
      obtain ⟨h2, _, h3, b, h4⟩ := q.cqWrite_of c.ring (c.bytes f.sqHead (q.stake 0).ang.tick) f.urgent
      exact ⟨h1.trans (h2.mono (by decide) fun a ha => List.mem_append_right [Reg.HIF_SUPERSEDED_CNT, Reg.HIF_DELAYED_CNT] ha),
        fun r hne => (h3 r hne).trans (hr r), b, by rw [h4, hr]⟩
    · exact h0

theorem leOf_two (b : List Nat) (i : Nat) : leOf b i 2 = nth 0 b i + nth 0 b (i + 1) * 256 := by
  simp [leOf, List.range_succ]

/-- R363: the bytes of a completion that say which it is. -/
theorem Completion.bytes_of (c : Completion) (h : Nat) (w : Word48) : (c.bytes h w).length = 32 ∧ nth 0 (c.bytes h w) 0 = c.cid % 256 ∧
    nth 0 (c.bytes h w) 1 = c.cid / 256 % 256 ∧ nth 0 (c.bytes h w) 2 = c.status ∧ nth 0 (c.bytes h w) 6 = c.op := by
  have hb : ∀ n, bytesN 2 n = [n % 256, n / 256 % 256] := fun n => by simp [bytesN, List.range_succ]
  have hl : ∀ n k, (bytesN n k).length = n := fun n k => by simp [bytesN]
  unfold Completion.bytes nth
  refine ⟨?_, ?_, ?_, ?_, ?_⟩
  · simp [hl]
  · simp [hb, List.getD_eq_getElem?_getD]
  · simp [hb, List.getD_eq_getElem?_getD]
  · simp [hb, List.getD_eq_getElem?_getD]
  · simp [hb, List.getD_eq_getElem?_getD]

theorem State.completes.of_prefix {cid op st : Nat} (h : s.completes t cid op st) (hw : t.pkg.host.writes <+: u.pkg.host.writes) :
    s.completes u cid op st := by
  obtain ⟨a, e, hm, h1⟩ := h
  obtain ⟨r, hr⟩ := hw
  refine ⟨a, e, ?_, h1⟩
  rw [← hr]
  by_cases hl : s.pkg.host.writes.length ≤ t.pkg.host.writes.length
  · rw [List.drop_append_of_le_length hl]
    exact List.mem_append_left _ hm
  · rw [List.drop_eq_nil_of_le (by omega)] at hm
    cases hm

theorem State.completes.of_writes {cid op st : Nat} (h : t.completes u cid op st) (hw : t.pkg.host.writes = s.pkg.host.writes) :
    s.completes u cid op st := by
  unfold State.completes at h ⊢
  rwa [hw] at h

theorem ringReg_ne (r : Nat) : (Reg.HIF_RING_EN r).off ∉ [Reg.HIF_SUPERSEDED_CNT, Reg.HIF_DELAYED_CNT] := by
  simp only [Reg.HIF_RING_EN, Reg.HIF_SUPERSEDED_CNT, Reg.HIF_DELAYED_CNT, List.mem_cons, List.not_mem_nil, or_false, not_or]
  omega

/-- R363: the completion of a descriptor under way is written. -/
theorem State.finishOne_completes {c : Completion} (h : s.underWay c.ring c.cid) : s.completes (s.finishOne c) c.cid c.op c.status := by
  obtain ⟨hen, hcid, f, hf, hfr, hfc⟩ := h
  have hsome : (s.pkg.host.flying.find? fun f => f.ring = c.ring && f.cid = c.cid).isSome = true :=
    List.find?_isSome.mpr ⟨f, hf, by simp [hfr, hfc]⟩
  obtain ⟨g, hg⟩ := Option.isSome_iff_exists.mp hsome
  have h1 := s.landed_eff c
  have hen' : (s.landed c).ringEn c.ring = true := by
    rw [← hen]
    unfold State.ringEn
    rw [h1.regs.flag (f := Reg.HIF_RING_EN c.ring) (ringReg_ne _)]
  rw [State.finishOne_eq, hg]
  dsimp only
  rw [if_pos hen']
  have hw := h1.only.writes
  generalize s.landed c = q at hw ⊢
  obtain ⟨_, hm, _⟩ := q.cqWrite_of c.ring (c.bytes g.sqHead (q.stake 0).ang.tick) g.urgent
  obtain ⟨hl, h0, h1, h2, h6⟩ := c.bytes_of g.sqHead (q.stake 0).ang.tick
  rw [hw] at hm
  refine ⟨_, _, hm, ?_, ?_, ?_, ?_⟩
  · rw [State.cqEntry, List.length_mapIdx, hl]
  · rw [leOf_two, State.nth_cqEntry _ _ _ (by decide), State.nth_cqEntry _ _ _ (by decide), h0, h1]
    omega
  · rw [State.nth_cqEntry _ _ _ (by decide), h2]
  · rw [State.nth_cqEntry _ _ _ (by decide), h6]

/-- R362: the end of a pair being deleted. -/
theorem State.deleted_eff (s : State) (r : Nat) : State.Eff finParts (finRegs r) s (s.deleted r) := by
  have h0 : ∀ a ∈ oneRegs 0, a ∈ finRegs r := fun a ha => by
    simp only [oneRegs, finRegs, List.mem_cons, List.not_mem_nil, or_false] at ha ⊢
    tauto
  unfold State.deleted
  extract_lets q s1
  have h1 : State.Eff finParts (finRegs r) s s1 :=
    .onRing (.onPkg .refl (.wr (.wr .refl List.mem_cons_self) (by simp [oneRegs])))
  exact .ite .refl (.foldl (fun j (c : Nat) h =>
    h.trans ((j.finishOne_eff { ring := 0, cid := c, op := 0x41, status := 0 }).1.mono (List.Subset.refl _) h0)) _ h1)

theorem State.deleted_none {r : Nat} (h : (s.ring r).deleting = []) : s.deleted r = s := by
  unfold State.deleted
  exact if_pos (by simp [h])

theorem State.finish_eff (s : State) (c : Completion) : State.Eff finParts (finRegs c.ring) s (s.finish c) :=
  .trans ((s.finishOne_eff c).1.mono (List.Subset.refl _) fun _ ha => List.mem_cons_of_mem _ (List.mem_cons_of_mem _ ha)) (State.deleted_eff _ _)

theorem State.finish_completes {c : Completion} (h : s.underWay c.ring c.cid) : s.completes (s.finish c) c.cid c.op c.status :=
  (s.finishOne_completes h).of_prefix (State.deleted_eff _ _).writes

/-- A pair of which nothing is being deleted: all that a completion changes of its ring is the phase. -/
theorem State.finish_ring {c : Completion} (h : (s.ring c.ring).deleting = []) :
    s.finish c = s.finishOne c ∧ ∃ b, (s.finish c).ring c.ring = { s.ring c.ring with phase := b } := by
  obtain ⟨_, _, b, hb⟩ := s.finishOne_eff c
  have he : s.finish c = s.finishOne c := State.deleted_none (by rw [hb]; exact h)
  exact ⟨he, b, he ▸ hb⟩

theorem State.underWay.of (h : s.underWay t' cid) (he : u.ringEn t' = s.ringEn t') (hf : u.pkg.host.flying = s.pkg.host.flying) :
    u.underWay t' cid := by
  unfold State.underWay at h ⊢
  rwa [he, hf]

end
end Sys2Proof.Machine

/-! Posted stream buffers and the packets that fill them (R350, R359, R373, R375). -/
namespace Sys2Proof.Machine
set_option Elab.async false

section
variable {s : State} {r n i : Nat}

theorem State.takeDesc_of {op : Nat} {d : Desc} (h : (s.pkg.host.descs.find? fun d => d.ring = r && d.op = op && d.there) = some d) :
    s.takeDesc r op = some (d, s.onHost fun h => { h with descs := dropFirst (fun x => x.ring = r && x.op = op && x.there) h.descs }) := by
  unfold State.takeDesc
  rw [h]
  rfl

theorem exec_streamBuf_of {d : Desc} (h : (s.pkg.host.descs.find? fun d => d.ring = r && d.op = 0x20 && d.there) = some d)
    (ha : s.alive (s.ringStake r) = true) : exec (.streamBuf r) s = .next
      ((s.onHost fun h => { h with descs := dropFirst (fun x => x.ring = r && x.op = 0x20 && x.there) h.descs }).onRing r fun q =>
        { q with bufs := q.bufs ++ [{ cid := d.cid, addr := leOf d.body 8 8, len := leOf d.body 16 4, timeout := leOf d.body 20 2 }] }) := by
  change execStreamBuf r s = _
  unfold execStreamBuf
  rw [State.takeDesc_of h]
  dsimp only
  refine congrArg Host.Outcome.next (if_neg ?_)
  have h1 : (s.onHost fun h => { h with descs := dropFirst (fun x => x.ring = r && x.op = 0x20 && x.there) h.descs }).alive
      ((s.onHost fun h => { h with descs := dropFirst (fun x => x.ring = r && x.op = 0x20 && x.there) h.descs }).ringStake r) =
    s.alive (s.ringStake r) := rfl
  rw [h1, ha]
  decide

/-- R359, R375: the completion of a full or timed-out buffer. -/
def State.bufCompletion (r status : Nat) (timeout : Bool) (b : Buf) : Completion :=
  let info := (if timeout then 1 else 0) + (if b.flushed then 2 else 0) + (if b.drops ≠ 0 then 4 else 0)
  { ring := r, cid := b.cid, op := 0x20, status := status, info := info,
    result := bytesN 4 b.used ++ bytesN 2 b.packets ++ bytesN 2 b.firstSeq ++ bytesN 2 b.drops ++ List.replicate 6 0 }

theorem State.bufClose_cons {b : Buf} {rest : List Buf} (h : (s.ring r).bufs = b :: rest) (status : Nat) (timeout : Bool) :
    s.bufClose r status timeout = (s.onRing r fun q => { q with bufs := rest }).finish (State.bufCompletion r status timeout b) := by
  unfold State.bufClose
  rw [h]
  rfl

/-- R359, R375: a buffer is returned. -/
theorem State.bufClose_of {b : Buf} {rest : List Buf} (h : (s.ring r).bufs = b :: rest) (hu : s.underWay r b.cid)
    (hl : r < s.pkg.host.rings.length) (hd : (s.ring r).deleting = []) (status : Nat) (timeout : Bool) :
    ((s.bufClose r status timeout).ring r).bufs = rest ∧ s.completes (s.bufClose r status timeout) b.cid 0x20 status := by
  rw [State.bufClose_cons h]
  have hr : (s.onRing r fun q => { q with bufs := rest }).ring r = { s.ring r with bufs := rest } := State.ring_onRing hl _
  have hu' : (s.onRing r fun q => { q with bufs := rest }).underWay r b.cid := hu
  have hw : (s.onRing r fun q => { q with bufs := rest }).pkg.host.writes = s.pkg.host.writes := rfl
  generalize (s.onRing r fun q => { q with bufs := rest }) = q at hr hu' hw ⊢
  obtain ⟨_, x, hx⟩ := State.finish_ring (s := q) (c := State.bufCompletion r status timeout b) (by
    rw [show (State.bufCompletion r status timeout b).ring = r from rfl, hr]
    exact hd)
  refine ⟨?_, (State.finish_completes (c := State.bufCompletion r status timeout b) hu').of_writes hw⟩
  rw [show (State.bufCompletion r status timeout b).ring = r from rfl, hr] at hx
  rw [hx]

theorem exec_streamBufTimeout_of {b : Buf} {at_ : Nat} {rest : List Buf} (h : (s.ring r).bufs = b :: rest) (ha : b.firstAt = some at_)
    (h0 : b.timeout ≠ 0) (ht : at_ + 4000 * b.timeout ≤ s.time) : exec (.streamBufTimeout r) s = .next (s.bufClose r 0 true) := by
  change execStreamBufTimeout r s = _
  unfold execStreamBufTimeout
  rw [h]
  dsimp only
  rw [ha]
  exact congrArg Host.Outcome.next (if_pos (by simp [h0, ht]))

/-- R359: a buffer with room is the one a packet goes to. -/
theorem State.findRoom_fits {b : Buf} {bs : List Buf} {len f : Nat} (h : (s.ring r).bufs = b :: bs) (hl : b.used + len ≤ b.len) :
    State.findRoom (f + 1) r len s = s := by
  unfold State.findRoom
  rw [h]
  exact if_neg (by omega)

/-- R26, R375: what leaves a stake with a packet asked for. -/
def Stake.sendPacket (k : Stake) (n i : Nat) (p : Packet) (rest : List Packet) : Stake :=
  let k := k.onStrm i fun x => { x with whole := rest, moving := some p }
  if n = 0 then k else (packetCells 30 p.words).foldl (fun k w => k.sendCell (k.cell 0 2 5 (16 * i + n) w)) k

theorem Stake.sendPacket_of {k : Stake} {p : Packet} {rest : List Packet} (hi : i < k.str.length) :
    Stake.Only [.str, .wal] k (k.sendPacket n i p rest) ∧ ((k.sendPacket n i p rest).strm i).moving = some p ∧
      ((k.sendPacket n i p rest).strm i).whole = rest := by
  have h1 : Stake.Only [.str] k (k.onStrm i fun x => { x with whole := rest, moving := some p }) := Stake.onStrm_only _
  have hs : (k.onStrm i fun x => { x with whole := rest, moving := some p }).strm i =
    { k.strm i with whole := rest, moving := some p } := Stake.strm_onStrm hi _
  unfold Stake.sendPacket
  dsimp only
  generalize (k.onStrm i fun x => { x with whole := rest, moving := some p }) = q at h1 hs ⊢
  have h2 : Stake.Only [.wal] q (if n = 0 then q else (packetCells 30 p.words).foldl (fun k w => k.sendCell (k.cell 0 2 5 (16 * i + n) w)) q) :=
    .ite .refl (.foldl (fun _ _ h => .sendCell h) _ .refl)
  refine ⟨.trans (h1.mono (by decide)) (h2.mono (by decide)), ?_, ?_⟩
  · rw [Stake.strm_congr h2.str, hs]
  · rw [Stake.strm_congr h2.str, hs]

theorem exec_streamPacketRequest_of {p : Packet} {b : Buf} {rest : List Packet} {bs : List Buf} (hn : s.nextSlot = some r)
    (hp : s.packetWaits r = true) (hw : ((s.stake (s.ringStake r)).strm (s.pkg.fld (Reg.HIF_RING_STREAM r))).whole = p :: rest)
    (hm : ((s.stake (s.ringStake r)).strm (s.pkg.fld (Reg.HIF_RING_STREAM r))).moving = none) (hb : (s.ring r).bufs = b :: bs)
    (hl : b.used + (p.bytes (s.ringStake r) (s.pkg.fld (Reg.HIF_RING_STREAM r))).length ≤ b.len) :
    exec (.streamPacketRequest r) s = .next (((s.onHost fun h => { h with inbound := h.inbound ++ [r] }).servedNow r).onStake (s.ringStake r)
      fun k => k.sendPacket (s.ringStake r) (s.pkg.fld (Reg.HIF_RING_STREAM r)) p rest) := by
  change execStreamPacketRequest r s = _
  unfold execStreamPacketRequest
  dsimp only
  rw [if_neg (by simp [hn, hp]), hw]
  dsimp only
  rw [State.findRoom_fits hb hl, if_neg (by rw [hb, hm]; simp)]
  rfl

theorem State.servedNow_only (s : State) (r : Nat) : Pkg.Only [.served] s.pkg (s.servedNow r).pkg ∧ s.stakesKept (s.servedNow r) := by
  unfold State.servedNow
  split
  · exact ⟨.refl, s.stakesKept_refl⟩
  · exact ⟨Pkg.Only.refl.set (f := .served), rfl, rfl, rfl⟩

/-- R375: the buffer that has taken a packet. -/
def State.bufAfter (s : State) (b : Buf) (p : Packet) (len : Nat) : Buf :=
  { b with
    used := b.used + len
    packets := b.packets + 1
    firstSeq := if b.packets = 0 then p.seq else b.firstSeq
    drops := min 65535 (b.drops + p.drop)
    flushed := b.flushed || p.flushed
    firstAt := some (b.firstAt.getD s.time) }

/-- R373, R375: a packet is written to a buffer, and no longer on its way. -/
def State.packetWritten (s : State) (r : Nat) (b : Buf) (bs : List Buf) (p : Packet) (bytes : List Nat) : State :=
  (((s.hostWrite (b.addr + b.used) bytes).charge 2 ((bytes.length + 63) / 64)).onRing r fun q =>
    { q with bufs := s.bufAfter b p bytes.length :: bs }).onHost fun h => { h with inbound := h.inbound.filter fun x => x ≠ r }

theorem State.packetWritten_of {b : Buf} {bs : List Buf} {p : Packet} {bytes : List Nat} (hl : r < s.pkg.host.rings.length) :
    s.stakesKept (s.packetWritten r b bs p bytes) ∧ (s.packetWritten r b bs p bytes).pkg.regs = s.pkg.regs ∧
      (s.packetWritten r b bs p bytes).pkg.host.writes = s.pkg.host.writes ++ [(b.addr + b.used, bytes)] ∧
      r ∉ (s.packetWritten r b bs p bytes).pkg.host.inbound ∧
      ((s.packetWritten r b bs p bytes).ring r).bufs = s.bufAfter b p bytes.length :: bs := by
  unfold State.packetWritten
  have h1 : State.Eff [.writes] [] s (s.hostWrite (b.addr + b.used) bytes) := .hostWrite .refl
  have hw : (s.hostWrite (b.addr + b.used) bytes).pkg.host.writes = s.pkg.host.writes ++ [(b.addr + b.used, bytes)] := rfl
  generalize s.hostWrite (b.addr + b.used) bytes = s1 at h1 hw ⊢
  have h2 : State.Eff [.window, .used] [] s1 (s1.charge 2 ((bytes.length + 63) / 64)) := .charge .refl
  generalize s1.charge 2 ((bytes.length + 63) / 64) = s2 at h2 ⊢
  have hl2 : r < s2.pkg.host.rings.length := by rwa [h2.only.rings, h1.only.rings]
  have h3 : State.Eff [.rings] [] s2 (s2.onRing r fun q => { q with bufs := s.bufAfter b p bytes.length :: bs }) := .onRing .refl
  have hr : ((s2.onRing r fun q => { q with bufs := s.bufAfter b p bytes.length :: bs }).ring r).bufs = s.bufAfter b p bytes.length :: bs :=
    congrArg RingSt.bufs (State.ring_onRing hl2 _)
  generalize (s2.onRing r fun q => { q with bufs := s.bufAfter b p bytes.length :: bs }) = s3 at h3 hr ⊢
  have h4 : State.Eff [.inbound] [] s3 (s3.onHost fun h => { h with inbound := h.inbound.filter fun x => x ≠ r }) :=
    .set (f := .inbound) .refl
  have hi : (s3.onHost fun h => { h with inbound := h.inbound.filter fun x => x ≠ r }).pkg.host.inbound =
    s3.pkg.host.inbound.filter fun x => x ≠ r := rfl
  generalize (s3.onHost fun h => { h with inbound := h.inbound.filter fun x => x ≠ r }) = s4 at h4 hi ⊢
  refine ⟨((h1.stakes.trans h2.stakes).trans h3.stakes).trans h4.stakes, ?_, ?_, ?_, ?_⟩
  · rw [h4.only.regs, h3.only.regs, h2.only.regs, h1.only.regs]
  · rw [h4.only.writes, h3.only.writes, h2.only.writes, hw]
  · rw [hi]
    simp
  · rw [State.ring_of h4.only.rings, hr]

/-- R375: the packet has left its stake. -/
def Stake.packetGone (k : Stake) (i : Nat) : Stake :=
  ((k.onStrm i fun x => { x with moving := none }).putB (Reg.STR_STREAM_STATUS_FULL i) false).strSync i

theorem Stake.packetGone_of {k : Stake} (hi : i < 16) (hl : i < k.str.length) : ((k.packetGone i).strm i).moving = none := by
  have hs : (k.onStrm i fun x => { x with moving := none }).strm i = { k.strm i with moving := none } := Stake.strm_onStrm hl _
  unfold Stake.packetGone
  rw [Stake.strm_congr (Stake.strSync_of hi).1.str, Stake.strm_congr (Stake.Only.putB (l := [.regs]) Stake.Only.refl).str, hs]

theorem State.placePacket_of {p : Packet} {b : Buf} {bs : List Buf}
    (hm : ((s.stake (s.ringStake r)).strm (s.pkg.fld (Reg.HIF_RING_STREAM r))).moving = some p) (hb : (s.ring r).bufs = b :: bs)
    (hl : b.used + (p.bytes (s.ringStake r) (s.pkg.fld (Reg.HIF_RING_STREAM r))).length ≤ b.len) :
    s.placePacket r = (s.packetWritten r b bs p (p.bytes (s.ringStake r) (s.pkg.fld (Reg.HIF_RING_STREAM r)))).onStake (s.ringStake r)
      fun k => k.packetGone (s.pkg.fld (Reg.HIF_RING_STREAM r)) := by
  unfold State.placePacket
  dsimp only
  rw [hm]
  dsimp only
  rw [State.findRoom_fits hb hl, hb]
  rfl

theorem State.ring_onStake (q : State) (n : Nat) (f : Stake → Stake) : (q.onStake n f).ring r = q.ring r :=
  State.ring_of (by rw [State.onStake_pkg]) r

end

theorem ringStream_lt (s : State) (r : Nat) : s.pkg.fld (Reg.HIF_RING_STREAM r) < 16 := Fld.of_lt _ _

/-- Settles O33: the buffer posted joins, the one timed out leaves; a packet is asked for, arrives and fills the oldest buffer. -/
theorem streamBuffers : Obligations.StreamBuffers := by
  unfold Obligations.StreamBuffers
  refine ⟨fun s r d hd ha hl => ⟨_, exec_streamBuf_of hd ha, ⟨rfl, rfl, rfl⟩, rfl, ?_⟩,
    fun s r at_ b rest hb hf h0 ht hu hl hd => ⟨_, exec_streamBufTimeout_of hb hf h0 ht, State.bufClose_of hb hu hl hd 0 true⟩,
    fun s r p b rest bs hen h0 hcl ha hin hw hm hi hb hr hmas hns => ?_, fun s n r p b bs hf hp hm hi hl hb hr => ?_⟩
  · exact congrArg RingSt.bufs (State.ring_onRing (s := s.onHost _) hl _)
  · have hpw : s.packetWaits r = true := by
      have h1 : (nth {} (s.stake (s.ringStake r)).str (s.pkg.fld (Reg.HIF_RING_STREAM r))).whole = p :: rest := hw
      have h2 : (nth {} (s.stake (s.ringStake r)).str (s.pkg.fld (Reg.HIF_RING_STREAM r))).moving = none := hm
      unfold State.packetWaits
      simp only [h1, h2, hb, hmas, hen, hcl, ha]
      simpa [Nat.pos_of_ne_zero h0] using hin
    refine ⟨_, exec_streamPacketRequest_of hns hpw hw hm hb hr, ?_⟩
    have hs1 : Pkg.Only [.inbound] s.pkg (s.onHost fun h => { h with inbound := h.inbound ++ [r] }).pkg := Pkg.Only.refl.set (f := .inbound)
    have hi1 : (s.onHost fun h => { h with inbound := h.inbound ++ [r] }).pkg.host.inbound = s.pkg.host.inbound ++ [r] := rfl
    have hk1 : s.stakesKept (s.onHost fun h => { h with inbound := h.inbound ++ [r] }) := ⟨rfl, rfl, rfl⟩
    generalize (s.onHost fun h => { h with inbound := h.inbound ++ [r] }) = q at hs1 hi1 hk1 ⊢
    obtain ⟨h2, hk2⟩ := q.servedNow_only r
    have hpr : (q.servedNow r).present (s.ringStake r) = true := by
      have := State.present_of_alive ha
      unfold State.present at this ⊢
      rwa [(hk1.trans hk2).1, (hk1.trans hk2).2.1]
    have hst : (q.servedNow r).stake (s.ringStake r) = s.stake (s.ringStake r) := (hk1.trans hk2).stake _
    obtain ⟨h3, h4, h5⟩ := Stake.sendPacket_of (n := s.ringStake r) (p := p) (rest := rest) hi
    rw [State.onStake_stake_same hpr, hst, State.onStake_pkg, h2.inbound, hi1, h2.regs, hs1.regs]
    exact ⟨h4, h5, rfl, rfl, h3.regs⟩
  · have hrn : s.ringStake r = n := by simpa using List.find?_some hf
    subst hrn
    have he : exec (.streamPacketCell (s.ringStake r)) s = .next (s.placePacket r) := by
      change execStreamPacketCell (s.ringStake r) s = _
      unfold execStreamPacketCell
      rw [hf]
    refine ⟨_, he, ?_⟩
    obtain ⟨h1, h2, h3, h4, h5⟩ := State.packetWritten_of (s := s) (b := b) (bs := bs) (p := p)
      (bytes := p.bytes (s.ringStake r) (s.pkg.fld (Reg.HIF_RING_STREAM r))) hl
    rw [State.placePacket_of hm hb hr]
    generalize s.packetWritten r b bs p (p.bytes (s.ringStake r) (s.pkg.fld (Reg.HIF_RING_STREAM r))) = q at *
    have hp' : q.present (s.ringStake r) = true := by
      unfold State.present at hp ⊢
      rwa [h1.1, h1.2.1]
    rw [State.onStake_pkg, State.onStake_stake_same hp', h1.stake, State.ring_onStake]
    exact ⟨Stake.packetGone_of (ringStream_lt s r) hi, h3, h4, ⟨_, h5, rfl, rfl, rfl⟩, h2⟩

end Sys2Proof.Machine

/-! Doorbells and the request slot of the DMA engine (R345, R347, R365). -/
namespace Sys2Proof.Machine
set_option Elab.async false

section
variable {s : State} {r : Nat}

/-- R345: what a doorbell that is turned away changes. -/
theorem State.badDoorbell_of (s : State) (r v : Nat) :
    (s.badDoorbell r v).pkg.rd Reg.HIF_DOORBELL_ERR_CNT = satAdd 16 (s.pkg.rd Reg.HIF_DOORBELL_ERR_CNT) 1 ∧
      (s.badDoorbell r v).pkg.host = s.pkg.host ∧ s.posted (s.badDoorbell r v) .hifBadDoorbell 0 [r, v] := by
  unfold State.badDoorbell
  refine ⟨?_, by simp [State.onPkg], ?_⟩
  · rw [State.postPkg_regsKept _ _ _ _ _ (by decide), State.onPkg_pkg, Pkg.rd_bump_same]
  · exact State.posted_of (by simp) (by simp) (State.postPkg_posted _ _ _ _)

theorem exec_sqTail_bad (h256 : r < 256) (hr : s.ready = true) {w : Reg32} (h : ¬(s.ringEn r = true ∧ w.toNat % 4096 < s.sqSize r)) :
    exec (.doorbellSqTail r w) s = .next (s.badDoorbell r (w.toNat % 4096)) := by
  change execDoorbellSqTail r w s = _
  unfold execDoorbellSqTail
  dsimp only
  rw [if_neg (by simp [h256, hr]), if_pos (by
    by_cases he : s.ringEn r = true
    · simpa [he] using h
    · simp [he])]

theorem exec_sqTail_good (h256 : r < 256) (hr : s.ready = true) {w : Reg32} (h : s.ringEn r = true ∧ w.toNat % 4096 < s.sqSize r) :
    exec (.doorbellSqTail r w) s = .next (s.onRing r fun q => { q with sqTail := w.toNat % 4096 }) := by
  change execDoorbellSqTail r w s = _
  unfold execDoorbellSqTail
  dsimp only
  rw [if_neg (by simp [h256, hr]), if_neg (by simp [h.1, h.2])]

theorem exec_cqHead_bad (h256 : r < 256) (hr : s.ready = true) {w : Reg32} (h : ¬(s.ringEn r = true ∧ w.toNat % 4096 < s.cqSize r)) :
    exec (.doorbellCqHead r w) s = .next (s.badDoorbell r (w.toNat % 4096)) := by
  change execDoorbellCqHead r w s = _
  unfold execDoorbellCqHead
  dsimp only
  rw [if_neg (by simp [h256, hr]), if_pos (by
    by_cases he : s.ringEn r = true
    · simpa [he] using h
    · simp [he])]

theorem exec_cqHead_good (h256 : r < 256) (hr : s.ready = true) {w : Reg32} (h : s.ringEn r = true ∧ w.toNat % 4096 < s.cqSize r) :
    exec (.doorbellCqHead r w) s = .next (s.onRing r fun q => { q with
      cqHead := w.toNat % 4096
      cqFree := min (s.cqSize r) (q.cqFree + (w.toNat % 4096 + s.cqSize r - q.cqHead % s.cqSize r) % s.cqSize r) }) := by
  change execDoorbellCqHead r w s = _
  unfold execDoorbellCqHead
  dsimp only
  rw [if_neg (by simp [h256, hr]), if_neg (by simp [h.1, h.2])]

theorem foldl_min_le {α : Type} (f : α → Nat) (l : List α) (a : Nat) :
    l.foldl (fun a r => min a (f r)) a ≤ a ∧ ∀ x ∈ l, l.foldl (fun a r => min a (f r)) a ≤ f x := by
  induction l generalizing a with
  | nil => exact ⟨le_refl _, fun _ h => by cases h⟩
  | cons y l ih =>
    obtain ⟨h1, h2⟩ := ih (min a (f y))
    refine ⟨h1.trans (min_le_left _ _), fun x hx => ?_⟩
    rcases List.mem_cons.mp hx with rfl | hx
    · exact h1.trans (min_le_right _ _)
    · exact h2 x hx

theorem foldl_min_attained {α : Type} (f : α → Nat) (l : List α) (a : Nat) :
    l.foldl (fun a r => min a (f r)) a = a ∨ ∃ x ∈ l, f x = l.foldl (fun a r => min a (f r)) a := by
  induction l generalizing a with
  | nil => exact .inl rfl
  | cons y l ih =>
    rcases ih (min a (f y)) with h | ⟨x, hx, h⟩
    · rcases min_choice a (f y) with hm | hm
      · exact .inl (by rw [List.foldl_cons, h, hm])
      · exact .inr ⟨y, List.mem_cons_self, by rw [List.foldl_cons, h, hm]⟩
    · exact .inr ⟨x, List.mem_cons_of_mem _ hx, h⟩

theorem State.rank_le (s : State) (r : Nat) : s.rank r ≤ 8 := by
  have hc : s.pkg.fld (Reg.HIF_RING_CLASS r) < 4 := Fld.of_lt _ _
  unfold State.rank State.budgetClass State.ringClass
  dsimp only
  split_ifs <;> omega

/-- R365: the pair served next is one of least rank among those that ask; none is while none asks. -/
theorem State.nextSlot_of (s : State) :
    ((∀ r, r < 256 → s.asks r = false) → s.nextSlot = none) ∧
    ((∃ r, r < 256 ∧ s.asks r = true) →
      ∃ r, s.nextSlot = some r ∧ r < 256 ∧ s.asks r = true ∧ ∀ q, q < 256 → s.asks q = true → s.rank r ≤ s.rank q) := by
  have hm : ∀ q, q ∈ (List.range 256).filter s.asks ↔ q < 256 ∧ s.asks q = true := fun q => by simp
  unfold State.nextSlot
  extract_lets l best c last
  refine ⟨fun h => ?_, fun ⟨r, hr, ha⟩ => ?_⟩
  · have hl : l = [] := List.eq_nil_iff_forall_not_mem.mpr fun q hq => by
      obtain ⟨h1, h2⟩ := (hm q).mp hq
      rw [h q h1] at h2
      cases h2
    have hc : c = [] := by simp only [c, hl, List.filter_nil]
    rw [hc]
    rfl
  · obtain ⟨_, hle⟩ := foldl_min_le s.rank l 9
    have hrl : r ∈ l := (hm r).mpr ⟨hr, ha⟩
    have hbest : best ≤ s.rank r := hle r hrl
    have hc : ∀ q ∈ c, q < 256 ∧ s.asks q = true ∧ ∀ q', q' < 256 → s.asks q' = true → s.rank q ≤ s.rank q' := fun q hq => by
      obtain ⟨h1, h2⟩ := List.mem_filter.mp hq
      obtain ⟨h3, h4⟩ := (hm q).mp h1
      refine ⟨h3, h4, fun q' h5 h6 => ?_⟩
      rw [of_decide_eq_true h2]
      exact hle q' ((hm q').mpr ⟨h5, h6⟩)
    have hne : ∃ x, c.head? = some x := by
      rcases foldl_min_attained s.rank l 9 with h | ⟨x, hx, h⟩
      · have := s.rank_le r
        have h9 : best = 9 := h
        omega
      · have hxc : x ∈ c := List.mem_filter.mpr ⟨hx, decide_eq_true h⟩
        exact Option.isSome_iff_exists.mp (by rw [List.isSome_head?]; exact List.ne_nil_of_mem hxc)
    split
    · next x hx =>
      exact ⟨x, rfl, hc x (List.mem_of_find?_eq_some hx)⟩
    · obtain ⟨x, hx⟩ := hne
      exact ⟨x, hx, hc x (List.mem_of_head? hx)⟩

/-- A pair with a free entry, or a fetch under way, is one of the rings. -/
theorem State.ring_lt (h : s.ring r ≠ {}) : r < s.pkg.host.rings.length := by
  by_contra hl
  exact h (nth_oob _ _ _ (by omega))

theorem State.onHost_congr {f g : HostSt → HostSt} (h : f s.pkg.host = g s.pkg.host) : s.onHost f = s.onHost g := by
  unfold State.onHost State.onPkg
  dsimp only
  rw [h]

theorem State.readData_eq {x : DataRead} {i : Nat} (hi : s.pkg.host.reads.findIdx? (· = x) = some i) :
    s.readData x = (s.charge x.cls (min x.left (2 * 2 ^ min 2 s.pkg.host.pcie.readReq))).onHost fun h =>
      { h with reads := updAt h.reads i fun y => { y with left := y.left - min x.left (2 * 2 ^ min 2 s.pkg.host.pcie.readReq), out := true } } := by
  unfold State.readData
  extract_lets n
  refine State.onHost_congr ?_
  have hr : (s.charge x.cls n).pkg.host.reads.findIdx? (· = x) = some i := hi
  rw [hr]

/-- R365: host data is asked for. -/
theorem State.readData_of {x : DataRead} (hx : s.dataRead r = some x) :
    State.Eff [.window, .used, .asked] [] s (s.readData x) ∧ ∃ y ∈ (s.readData x).pkg.host.reads, y.ring = r ∧ y.cid = x.cid ∧ y.out = true ∧
      y.left + min x.left (2 * 2 ^ min 2 s.pkg.host.pcie.readReq) = x.left := by
  have hf : (s.pkg.host.reads.find? fun x => x.ring = r && 0 < x.left) = some x := by
    unfold State.dataRead at hx
    split at hx
    · cases hx
    · split at hx
      · next y hy =>
        split at hx
        · rw [← hx, hy]
        · cases hx
      · cases hx
  have hxr : x.ring = r := by
    have := List.find?_some hf
    simp at this
    exact this.1
  have hmem := List.mem_of_find?_eq_some hf
  obtain ⟨i, hi⟩ := Option.isSome_iff_exists.mp (List.findIdx?_isSome (p := fun z => decide (z = x)) ▸
    (List.any_eq_true.mpr ⟨x, hmem, by simp⟩))
  rw [State.readData_eq hi]
  generalize hn : min x.left (2 * 2 ^ min 2 s.pkg.host.pcie.readReq) = n
  have h1 : State.Eff [.window, .used, .asked] [] s (s.charge x.cls n) := .charge .refl
  have hr1 : (s.charge x.cls n).pkg.host.reads = s.pkg.host.reads := (State.Eff.charge (l := [.window, .used]) (m := []) .refl).only.asked
  generalize s.charge x.cls n = q at h1 hr1 ⊢
  refine ⟨.set (f := .asked) h1, ?_⟩
  obtain ⟨hlt, hp, _⟩ := List.findIdx?_eq_some_iff_getElem.mp hi
  have hxi : s.pkg.host.reads[i] = x := of_decide_eq_true hp
  refine ⟨{ x with left := x.left - n, out := true }, ?_, hxr, rfl, rfl, ?_⟩
  · change _ ∈ updAt q.pkg.host.reads i _
    rw [hr1]
    refine List.mem_of_getElem? (i := i) ?_
    rw [updAt, List.getElem?_modify_eq, List.getElem?_eq_getElem hlt, hxi]
    rfl
  · have : n ≤ x.left := hn ▸ Nat.min_le_left _ _
    change x.left - n + n = x.left
    omega

/-- R347: a descriptor is asked for. -/
def State.fetchOne (s : State) (r : Nat) : State :=
  (((s.takeFree r).onRing r fun q => { q with fetching := q.fetching + 1, fetchAt := q.fetchAt ++ [s.time] }).charge
    (s.budgetClass r) 1).servedNow r

theorem State.servedNow_eff (s : State) (r : Nat) : State.Eff [.served] [] s (s.servedNow r) := .ite .refl (.set (f := .served) .refl)

theorem State.fetchOne_of (hf : 0 < (s.ring r).cqFree) : State.Eff [.rings, .window, .used, .served] [] s (s.fetchOne r) ∧
    (∀ q, q ≠ r → (s.fetchOne r).ring q = s.ring q) ∧ ((s.fetchOne r).ring r).fetching = (s.ring r).fetching + 1 ∧
    ((s.fetchOne r).ring r).cqFree + 1 = (s.ring r).cqFree := by
  have hl : r < s.pkg.host.rings.length := State.ring_lt fun h => by
    rw [h] at hf
    cases hf
  unfold State.fetchOne State.takeFree
  have h1 : State.Eff [.rings, .window, .used, .served] [] s (s.onRing r fun q => { q with cqFree := q.cqFree - 1 }) := .onRing .refl
  have hr1 : (s.onRing r fun q => { q with cqFree := q.cqFree - 1 }).ring r = { s.ring r with cqFree := (s.ring r).cqFree - 1 } :=
    State.ring_onRing hl _
  have hn1 : ∀ q, q ≠ r → (s.onRing r fun q => { q with cqFree := q.cqFree - 1 }).ring q = s.ring q := fun q h => State.ring_onRing_ne h _ _
  have hl1 : r < (s.onRing r fun q => { q with cqFree := q.cqFree - 1 }).pkg.host.rings.length := by
    change r < (updAt s.pkg.host.rings r _).length
    rwa [updAt_length]
  generalize (s.onRing r fun q => { q with cqFree := q.cqFree - 1 }) = a at h1 hr1 hn1 hl1 ⊢
  have h2 : State.Eff [.rings, .window, .used, .served] [] a
    (a.onRing r fun q => { q with fetching := q.fetching + 1, fetchAt := q.fetchAt ++ [s.time] }) := .onRing .refl
  have hr2 : (a.onRing r fun q => { q with fetching := q.fetching + 1, fetchAt := q.fetchAt ++ [s.time] }).ring r =
    { a.ring r with fetching := (a.ring r).fetching + 1, fetchAt := (a.ring r).fetchAt ++ [s.time] } := State.ring_onRing hl1 _
  have hn2 : ∀ q, q ≠ r → (a.onRing r fun q => { q with fetching := q.fetching + 1, fetchAt := q.fetchAt ++ [s.time] }).ring q = a.ring q :=
    fun q h => State.ring_onRing_ne h _ _
  generalize (a.onRing r fun q => { q with fetching := q.fetching + 1, fetchAt := q.fetchAt ++ [s.time] }) = b at h2 hr2 hn2 ⊢
  have h3 : State.Eff [.window, .used] [] b (b.charge (s.budgetClass r) 1) := .charge .refl
  generalize b.charge (s.budgetClass r) 1 = c at h3 ⊢
  have h4 := c.servedNow_eff r
  have hrr : ∀ q, (c.servedNow r).ring q = b.ring q := fun q => (State.ring_of h4.only.rings q).trans (State.ring_of h3.only.rings q)
  refine ⟨((h1.trans h2).trans (h3.mono)).trans (h4.mono), fun q h => by rw [hrr, hn2 q h, hn1 q h], ?_, ?_⟩
  · rw [hrr, hr2, hr1]
  · rw [hrr, hr2, hr1]
    dsimp only
    omega

end
end Sys2Proof.Machine

/-! Descriptors that arrive, errors of their fetches and data, moderated vectors and the event queue (R348, R350, R351, R368, R370). -/
namespace Sys2Proof.Machine
set_option Elab.async false

section
variable {s : State} {r : Nat}

theorem pba_ptr (q : Nat) (h : q < 256) : Reg.HIF_RING_PTR q ∉ [Reg.HIF_MSIX_PBA 0, Reg.HIF_MSIX_PBA 1] := by
  simp only [Reg.HIF_RING_PTR, Reg.HIF_MSIX_PBA, List.mem_cons, List.not_mem_nil, or_false, not_or]
  omega

/-- R346: a completion entry moves no SQ head. -/
theorem State.cqWrite_sqHead (s : State) (r : Nat) (e : List Nat) (now : Bool) {q : Nat} (hq : q < 256) :
    (s.cqWrite r e now).pkg.fld (Reg.HIF_RING_PTR_SQ_HEAD q) = s.pkg.fld (Reg.HIF_RING_PTR_SQ_HEAD q) := by
  unfold State.cqWrite
  extract_lets tail ring e' wrap s1 s2 s3
  have h1 : s1.pkg.fld (Reg.HIF_RING_PTR_SQ_HEAD q) = s.pkg.fld (Reg.HIF_RING_PTR_SQ_HEAD q) := rfl
  clear_value s1
  have h2 : s2.pkg.fld (Reg.HIF_RING_PTR_SQ_HEAD q) = s1.pkg.fld (Reg.HIF_RING_PTR_SQ_HEAD q) :=
    Pkg.fld_put_ne _ _ _ _ (.inr (.inl (by change 0 + 12 ≤ 16; decide)))
  clear_value s2
  have h3 : State.Eff [.rings, .window, .used] [] s2 (s3.charge (s3.budgetClass r) 1) := .charge (.onRing .refl)
  have hv : s3.pkg.fld (Reg.HIF_RING_VECTOR r) < 64 := Fld.of_lt _ _
  generalize s3.charge (s3.budgetClass r) 1 = s4 at h3 ⊢
  have h5 := (s4.msixEntry_eff (now := now) hv).regs.fld (f := Reg.HIF_RING_PTR_SQ_HEAD q) (pba_ptr q hq)
  rw [h5, h3.regs.fld (f := Reg.HIF_RING_PTR_SQ_HEAD q) (List.not_mem_nil), h2, h1]

theorem State.finishOne_sqHead (s : State) (c : Completion) {q : Nat} (hq : q < 256) :
    (s.finishOne c).pkg.fld (Reg.HIF_RING_PTR_SQ_HEAD q) = s.pkg.fld (Reg.HIF_RING_PTR_SQ_HEAD q) := by
  have h1 := (s.landed_eff c).regs.fld (f := Reg.HIF_RING_PTR_SQ_HEAD q) (by
    simp only [Reg.HIF_RING_PTR_SQ_HEAD, Reg.HIF_SUPERSEDED_CNT, Reg.HIF_DELAYED_CNT, List.mem_cons, List.not_mem_nil, or_false, not_or]
    omega)
  rw [State.finishOne_eq]
  generalize s.landed c = t at h1 ⊢
  split
  · exact h1
  · split
    · rw [State.cqWrite_sqHead _ _ _ _ hq, h1]
    · exact h1

theorem dataOf_lt (n : Nat) (l : List Nat) (i : Nat) : nth 0 (dataOf n l) i < 256 := by
  unfold nth dataOf
  rw [List.getD_eq_getElem?_getD]
  generalize hx : ((l.map (· % 256) ++ List.replicate (n - l.length) 0).take n)[i]? = x
  cases x with
  | none => decide
  | some v =>
    have hm := List.mem_of_mem_take (List.mem_of_getElem? hx)
    rcases List.mem_append.mp hm with h | h
    · obtain ⟨a, _, rfl⟩ := List.mem_map.mp h
      exact Nat.mod_lt _ (by decide)
    · rw [List.eq_of_mem_replicate h]
      decide

theorem dataOf_leOf_lt (n : Nat) (l : List Nat) (i : Nat) : leOf (dataOf n l) i 2 < 65536 := by
  have h1 := dataOf_lt n l i
  have h2 := dataOf_lt n l (i + 1)
  rw [leOf_two]
  omega

/-- R345, R347: a fetched descriptor is in flight. -/
theorem State.fetched_of (hf : 0 < (s.ring r).fetching) (hz : s.sqSize r ≤ 4096) (b : List Nat) (hcid : leOf b 2 2 < 65536)
    (hen : s.ringEn r = true) :
    State.Eff [.rings, .flying, .regs] [Reg.HIF_RING_PTR r] s ((s.fetchEnds r).inFlight r b) ∧
      (((s.fetchEnds r).inFlight r b).ring r).fetching + 1 = (s.ring r).fetching ∧
      (((s.fetchEnds r).inFlight r b).ring r).deleting = (s.ring r).deleting ∧
      ((s.fetchEnds r).inFlight r b).pkg.fld (Reg.HIF_RING_PTR_SQ_HEAD r) =
        (s.pkg.fld (Reg.HIF_RING_PTR_SQ_HEAD r) + 1) % s.sqSize r ∧ ((s.fetchEnds r).inFlight r b).underWay r (leOf b 2 2) := by
  have hl : r < s.pkg.host.rings.length := State.ring_lt fun h => by
    rw [h] at hf
    cases hf
  have h1 : State.Eff [.rings] [] s (s.fetchEnds r) := .onRing .refl
  have hr1 : (s.fetchEnds r).ring r = { s.ring r with fetching := (s.ring r).fetching - 1, fetchAt := (s.ring r).fetchAt.drop 1 } :=
    State.ring_onRing hl _
  have hz1 : (s.fetchEnds r).sqSize r = s.sqSize r := rfl
  have he1 : (s.fetchEnds r).ringEn r = s.ringEn r := rfl
  have hh1 : (s.fetchEnds r).pkg.fld (Reg.HIF_RING_PTR_SQ_HEAD r) = s.pkg.fld (Reg.HIF_RING_PTR_SQ_HEAD r) := rfl
  generalize s.fetchEnds r = a at h1 hr1 hz1 he1 hh1 ⊢
  unfold State.inFlight
  extract_lets f h
  have hh : h < 4096 := by
    have h0 : 0 < s.sqSize r := Nat.two_pow_pos _
    have : h < s.sqSize r := by
      simp only [h, hz1]
      exact Nat.mod_lt _ h0
    omega
  have h2 : State.Eff [.regs] [Reg.HIF_RING_PTR r] a (a.onPkg fun p => p.put f h) := .onPkg .refl (.put .refl List.mem_cons_self)
  have hr2 : (a.onPkg fun p => p.put f h).ring r = a.ring r := rfl
  have hs2 : (a.onPkg fun p => p.put f h).pkg.fld f = h := by
    rw [State.onPkg_pkg, Pkg.fld_put_same _ _ _ (by change 16 + 12 ≤ 32; decide)]
    exact Nat.mod_eq_of_lt hh
  have he2 : (a.onPkg fun p => p.put f h).ringEn r = a.ringEn r := by
    unfold State.ringEn
    rw [h2.regs.flag (f := Reg.HIF_RING_EN r) (by
      simp only [Reg.HIF_RING_EN, Reg.HIF_RING_PTR, List.mem_cons, List.not_mem_nil, or_false]
      omega)]
  have hhv : h = (s.pkg.fld (Reg.HIF_RING_PTR_SQ_HEAD r) + 1) % s.sqSize r := by simp only [h, f, hh1, hz1]
  clear_value h
  generalize (a.onPkg fun p => p.put f h) = c at h2 hr2 hs2 he2 ⊢
  refine ⟨?_, ?_, ?_, hs2.trans hhv, ?_, hcid, _, List.mem_append_right _ (List.mem_singleton_self _), rfl, rfl⟩
  · exact ((h1.mono (by decide) (List.nil_subset _)).trans (h2.mono (by decide) (List.Subset.refl _))).trans (.set (f := .flying) .refl)
  · change (c.ring r).fetching + 1 = _
    rw [hr2, hr1]
    dsimp only
    omega
  · change (c.ring r).deleting = _
    rw [hr2, hr1]
  · change c.ringEn r = true
    rw [he2, he1, hen]

/-- What a descriptor that arrives leaves, whatever becomes of it: the ring but for its phase, and the SQ head. -/
def State.sameRing (s t : State) (r : Nat) : Prop :=
  (t.ring r).fetching = (s.ring r).fetching ∧ t.pkg.fld (Reg.HIF_RING_PTR_SQ_HEAD r) = s.pkg.fld (Reg.HIF_RING_PTR_SQ_HEAD r)

theorem State.finish_sameRing {c : Completion} (hr : r < 256) (hc : c.ring = r) (hd : (s.ring r).deleting = []) :
    s.sameRing (s.finish c) r := by
  subst hc
  obtain ⟨he, b, hb⟩ := State.finish_ring hd
  refine ⟨by rw [hb], ?_⟩
  rw [he]
  exact s.finishOne_sqHead c hr

/-- R350, R353: a descriptor that passes checks 1 and 2. -/
def State.accepted (s : State) (r : Nat) (b : List Nat) (there : Bool) : State := s.onHost fun h =>
  { h with descs := h.descs ++
    [{ ring := r, cid := leOf b 2 2, op := nth 0 b 0, body := b, at_ := s.boundsOf r, fetched := s.time, there := there }] }

/-- R353: whether it is sent on. -/
def State.sentOn (s : State) (r : Nat) : Bool :=
  s.budgetClass r ≤ 1 && (match s.target r with | some n => n ≠ 0 && s.alive n | none => false)

theorem State.accept_lost {n : Nat} {b : List Nat} (ht : s.target r = some n) (ha : s.alive n = false) (hc : s.budgetClass r ≠ 1) :
    ∃ i, s.accept r b = s.finish { ring := r, cid := leOf b 2 2, op := nth 0 b 0, status := 10, info := i } := by
  refine ⟨0, ?_⟩
  unfold State.accept
  dsimp only
  rw [ht]
  exact if_pos (by simp [ha, hc])

/-- R350, R353: an accepted descriptor is noted. -/
theorem State.accept_kept {b : List Nat} (h : s.target r = none ∨ ∃ n, s.target r = some n ∧ (s.alive n = true ∨ s.budgetClass r = 1)) :
    (s.accept r b).pkg = (s.accepted r b (!s.sentOn r)).pkg := by
  unfold State.accept State.sentOn
  dsimp only
  rcases h with ht | ⟨n, ht, h⟩
  · rw [ht]
    simp only [Bool.and_false]
    rfl
  · rw [ht]
    dsimp only
    rw [if_neg (by rcases h with h | h <;> simp [h])]
    have hsnd : (decide (s.budgetClass r ≤ 1) && decide (n ≠ 0) && s.alive n) = (decide (s.budgetClass r ≤ 1) && (decide (n ≠ 0) && s.alive n)) :=
      Bool.and_assoc _ _ _
    rw [hsnd]
    split
    · rw [State.onStake_pkg]
      rfl
    · rfl

theorem State.accepted_of (s : State) (r : Nat) (b : List Nat) (th : Bool) : s.sameRing (s.accepted r b th) r ∧
    ∃ d, (s.accepted r b th).pkg.host.descs = s.pkg.host.descs ++ [d] ∧ d.ring = r ∧ d.cid = leOf b 2 2 ∧ d.op = nth 0 b 0 ∧ d.body = b ∧
      d.there = th := ⟨⟨rfl, rfl⟩, _, rfl, rfl, rfl, rfl, rfl, rfl⟩

theorem State.sameRing.of_pkg {t : State} (h : t.pkg = s.pkg) : s.sameRing t r := ⟨by rw [State.ring, h, State.ring], by rw [h]⟩

/-- R350, R351: what becomes of a fetched descriptor. -/
def State.judged (s : State) (r cls : Nat) (k : Stake) (b : List Nat) : State :=
  let c : Completion := { ring := r, cid := leOf b 2 2, op := nth 0 b 0, status := 6 }
  match opClass (nth 0 b 0) with
  | none => s.onHost fun h => { h with descs := h.descs ++ [{ ring := r, cid := c.cid, op := nth 0 b 0, body := b }] }
  | some v =>
    if v ≠ cls then s.finish c
    else match firstBad (opChecks (nth 0 b 0) b k.periodOk) with
      | some o => s.finish { c with status := 7, info := o }
      | none => if !(s.ring r).deleting.isEmpty && cls ≠ 0 then s.finish { c with status := 14 } else s.accept r b

theorem State.arrives_eq (s : State) (r : Nat) (bytes : List Nat) : s.arrives r bytes =
    ((s.fetchEnds r).inFlight r (dataOf 64 bytes)).judged r (s.budgetClass r)
      (((s.fetchEnds r).inFlight r (dataOf 64 bytes)).stake
        ((((s.fetchEnds r).inFlight r (dataOf 64 bytes)).target r).getD 0)) (dataOf 64 bytes) := rfl

theorem State.judged_reserved {cls : Nat} {k : Stake} {b : List Nat} (h : opClass (nth 0 b 0) = none) :
    s.sameRing (s.judged r cls k b) r ∧ ∃ d, (s.judged r cls k b).pkg.host.descs = s.pkg.host.descs ++ [d] ∧ d.ring = r ∧ d.op = nth 0 b 0 ∧
      d.cid = leOf b 2 2 := by
  unfold State.judged
  dsimp only
  rw [h]
  exact ⟨⟨rfl, rfl⟩, _, rfl, rfl, rfl, rfl⟩

theorem State.judged_class {cls v : Nat} {k : Stake} {b : List Nat} (h : opClass (nth 0 b 0) = some v) (hv : v ≠ cls) :
    s.judged r cls k b = s.finish { ring := r, cid := leOf b 2 2, op := nth 0 b 0, status := 6 } := by
  unfold State.judged
  dsimp only
  rw [h]
  exact if_pos hv

theorem State.judged_bad {cls : Nat} {k : Stake} {b : List Nat} {o : Nat} (h : opClass (nth 0 b 0) = some cls)
    (ho : firstBad (opChecks (nth 0 b 0) b k.periodOk) = some o) :
    s.judged r cls k b = s.finish { ring := r, cid := leOf b 2 2, op := nth 0 b 0, status := 7, info := o } := by
  unfold State.judged
  dsimp only
  rw [h]
  dsimp only
  rw [if_neg (by simp), ho]

theorem State.judged_ok {cls : Nat} {k : Stake} {b : List Nat} (h : opClass (nth 0 b 0) = some cls)
    (ho : firstBad (opChecks (nth 0 b 0) b k.periodOk) = none) (hd : (s.ring r).deleting = []) :
    s.judged r cls k b = s.accept r b := by
  unfold State.judged
  dsimp only
  rw [h]
  dsimp only
  rw [if_neg (by simp), ho]
  exact if_neg (by simp [hd])

/-- R350, R351: each outcome of a descriptor that arrives. -/
theorem State.judged_of {k : Stake} {b : List Nat} (hr : r < 256) (hd : (s.ring r).deleting = []) (hu : s.underWay r (leOf b 2 2)) :
    s.sameRing (s.judged r (s.budgetClass r) k b) r ∧
      (opClass (nth 0 b 0) = none → ∃ d, (s.judged r (s.budgetClass r) k b).pkg.host.descs = s.pkg.host.descs ++ [d] ∧ d.ring = r ∧
        d.op = nth 0 b 0 ∧ d.cid = leOf b 2 2) ∧
      (∀ v, opClass (nth 0 b 0) = some v →
        (v ≠ s.budgetClass r → s.completes (s.judged r (s.budgetClass r) k b) (leOf b 2 2) (nth 0 b 0) 6) ∧
        (v = s.budgetClass r → firstBad (opChecks (nth 0 b 0) b k.periodOk) ≠ none →
          s.completes (s.judged r (s.budgetClass r) k b) (leOf b 2 2) (nth 0 b 0) 7) ∧
        (v = s.budgetClass r → firstBad (opChecks (nth 0 b 0) b k.periodOk) = none →
          (∀ n, s.target r = some n → s.alive n = false → v ≠ 1 →
            s.completes (s.judged r (s.budgetClass r) k b) (leOf b 2 2) (nth 0 b 0) 10) ∧
          (s.target r = none ∨ (∃ n, s.target r = some n ∧ (s.alive n = true ∨ v = 1)) →
            ∃ d, (s.judged r (s.budgetClass r) k b).pkg.host.descs = s.pkg.host.descs ++ [d] ∧ d.ring = r ∧ d.cid = leOf b 2 2 ∧
              d.op = nth 0 b 0 ∧ d.body = b ∧
              d.there = !(v ≤ 1 && (match s.target r with | some n => n ≠ 0 && s.alive n | none => false))))) := by
  cases hop : opClass (nth 0 b 0) with
  | none =>
    obtain ⟨h1, h2⟩ := State.judged_reserved (s := s) (r := r) (cls := s.budgetClass r) (k := k) hop
    exact ⟨h1, fun _ => h2, fun v hv => by cases hv⟩
  | some v =>
    by_cases hv : v = s.budgetClass r
    · subst hv
      cases hb : firstBad (opChecks (nth 0 b 0) b k.periodOk) with
      | some o =>
        rw [State.judged_bad hop hb]
        refine ⟨State.finish_sameRing hr rfl hd, nofun, fun v hv => ?_⟩
        cases hv
        exact ⟨fun h => absurd rfl h, fun _ _ => State.finish_completes hu, fun _ h => by cases h⟩
      | none =>
        rw [State.judged_ok hop hb hd]
        refine ⟨?_, nofun, fun v hv => ?_⟩
        · by_cases hk : s.target r = none ∨ ∃ n, s.target r = some n ∧ (s.alive n = true ∨ s.budgetClass r = 1)
          · obtain ⟨h1, _⟩ := s.accepted_of r b (!s.sentOn r)
            unfold State.sameRing State.ring at h1 ⊢
            rwa [State.accept_kept hk]
          · obtain ⟨n, hn⟩ := Option.ne_none_iff_exists'.mp (fun h => hk (.inl h))
            have h2 : ¬(s.alive n = true ∨ s.budgetClass r = 1) := fun h => hk (.inr ⟨n, hn, h⟩)
            obtain ⟨h3, h4⟩ := not_or.mp h2
            obtain ⟨i, hi⟩ := State.accept_lost (b := b) hn (Bool.eq_false_iff.mpr h3) h4
            rw [hi]
            exact State.finish_sameRing hr rfl hd
        · cases hv
          refine ⟨fun h => absurd rfl h, fun _ h => absurd rfl h, fun _ _ => ⟨fun n hn ha h1 => ?_, fun hk => ?_⟩⟩
          · obtain ⟨i, hi⟩ := State.accept_lost (b := b) hn ha h1
            rw [hi]
            exact State.finish_completes hu
          · rw [State.accept_kept hk]
            exact (s.accepted_of r b (!s.sentOn r)).2
    · rw [State.judged_class hop hv]
      refine ⟨State.finish_sameRing hr rfl hd, nofun, fun w hw => ?_⟩
      cases hw
      exact ⟨fun _ => State.finish_completes hu, fun h => absurd h hv, fun h => absurd h hv⟩

end
end Sys2Proof.Machine

/-! The host rings: the obligation. -/
namespace Sys2Proof.Machine
set_option Elab.async false

section
variable {s : State} {r : Nat}

/-- R347: a fetch that is under way is of one of the rings. -/
theorem State.fetching_lt (h : 0 < (s.ring r).fetching) : r < s.pkg.host.rings.length := State.ring_lt fun he => by
  rw [he] at h
  cases h

theorem State.budgetClass_of {t : State} (h : t.pkg.fld (Reg.HIF_RING_CLASS r) = s.pkg.fld (Reg.HIF_RING_CLASS r)) :
    t.budgetClass r = s.budgetClass r := by
  unfold State.budgetClass State.ringClass
  rw [h]

theorem ring_ptr (q : Nat) : Reg.HIF_RING r ∉ [Reg.HIF_RING_PTR q] := by
  simp only [Reg.HIF_RING, Reg.HIF_RING_PTR, List.mem_cons, List.not_mem_nil, or_false]
  omega

theorem State.target_of {t : State} (h : t.pkg.fld (Reg.HIF_RING_STAKE r) = s.pkg.fld (Reg.HIF_RING_STAKE r)) :
    t.target r = s.target r := by
  unfold State.target State.ringStake
  rw [h]

theorem State.alive_of {t : State} (h : s.stakesKept t) (hr : t.pkg.rd Reg.HIF_PKG_ALIVE = s.pkg.rd Reg.HIF_PKG_ALIVE) (n : Nat) :
    t.alive n = s.alive n := by
  unfold State.alive State.present
  rw [h.1, h.2.1]
  unfold Pkg.fld
  rw [show Reg.HIF_PKG_ALIVE_ALIVE.off = Reg.HIF_PKG_ALIVE from rfl, hr]

theorem exec_arrival (h256 : r < 256) (hf : 0 < (s.ring r).fetching) (bytes : List Nat) :
    exec (.descriptorArrival r bytes) s = .next (s.arrives r bytes) :=
  congrArg Host.Outcome.next (if_neg (by simp; omega))

/-- R347, R365: what the pair served next gets. -/
def State.served (s : State) (r : Nat) : State := match s.dataRead r with
  | some x => (s.readData x).servedNow r
  | none => if s.fetchable r then s.fetchOne r else s

theorem exec_fetch_some (h : s.nextSlot = some r) : exec .descriptorFetch s = .next (s.served r) := by
  change execDescriptorFetch s = _
  unfold execDescriptorFetch
  rw [h]
  rfl

theorem State.served_of (s : State) (r : Nat) : State.Eff [.rings, .window, .used, .asked, .served] [] s (s.served r) ∧
    (∀ q, q ≠ r → (s.served r).ring q = s.ring q) ∧
    (∀ x, s.dataRead r = some x → (s.served r).ring r = s.ring r ∧ ∃ y ∈ (s.served r).pkg.host.reads, y.ring = r ∧ y.cid = x.cid ∧
      y.out = true ∧ y.left + min x.left (2 * 2 ^ min 2 s.pkg.host.pcie.readReq) = x.left) ∧
    (s.dataRead r = none → s.fetchable r = true →
      ((s.served r).ring r).fetching = (s.ring r).fetching + 1 ∧ ((s.served r).ring r).cqFree + 1 = (s.ring r).cqFree) ∧
    (s.dataRead r = none → s.fetchable r = false → s.served r = s) := by
  unfold State.served
  cases hx : s.dataRead r with
  | some x =>
    dsimp only
    obtain ⟨h1, y, hy, h2⟩ := State.readData_of hx
    have h3 := (s.readData x).servedNow_eff r
    have hr : ∀ q, ((s.readData x).servedNow r).ring q = s.ring q := fun q => (State.ring_of h3.only.rings q).trans (State.ring_of h1.only.rings q)
    refine ⟨(h1.mono).trans (h3.mono), fun q _ => hr q, fun x' hx' => ?_, nofun, nofun⟩
    cases hx'
    exact ⟨hr r, y, by rwa [h3.only.asked], h2⟩
  | none =>
    dsimp only
    by_cases hf : s.fetchable r = true
    · rw [if_pos hf]
      obtain ⟨h1, h2, h3, h4⟩ := State.fetchOne_of (s := s) (r := r) (by
        unfold State.fetchable at hf
        simp at hf
        exact hf.1.2)
      exact ⟨h1.mono, h2, nofun, fun _ _ => ⟨h3, h4⟩, fun _ h => absurd hf (by simp [h])⟩
    · rw [if_neg hf]
      exact ⟨.refl, fun _ _ => rfl, nofun, fun _ h => absurd h hf, fun _ _ => rfl⟩

/-- R365: the request slot. -/
theorem descriptorFetch_of (h0 : (∀ r, r < 256 → s.asks r = false) → s.nextSlot = none)
    (h1 : (∃ r, r < 256 ∧ s.asks r = true) →
      ∃ r, s.nextSlot = some r ∧ r < 256 ∧ s.asks r = true ∧ ∀ q, q < 256 → s.asks q = true → s.rank r ≤ s.rank q) :
    ∃ t, exec .descriptorFetch s = .next t ∧ s.stakesKept t ∧ t.pkg.regs = s.pkg.regs ∧
    ((∀ r, r < 256 → s.asks r = false) → t = s) ∧
    ((∃ r, r < 256 ∧ s.asks r = true) →
      ∃ r, r < 256 ∧ s.asks r = true ∧ (∀ q, q < 256 → s.asks q = true → s.rank r ≤ s.rank q) ∧ (∀ q, q ≠ r → t.ring q = s.ring q) ∧
        (∀ x, s.dataRead r = some x → t.ring r = s.ring r ∧ ∃ y ∈ t.pkg.host.reads, y.ring = r ∧ y.cid = x.cid ∧ y.out = true ∧
          y.left + min x.left (2 * 2 ^ min 2 s.pkg.host.pcie.readReq) = x.left) ∧
        (s.dataRead r = none → s.fetchable r = true →
          (t.ring r).fetching = (s.ring r).fetching + 1 ∧ (t.ring r).cqFree + 1 = (s.ring r).cqFree) ∧
        (s.dataRead r = none → s.fetchable r = false → t = s)) := by
  by_cases h : ∃ r, r < 256 ∧ s.asks r = true
  · obtain ⟨r, hn, hr, ha, hle⟩ := h1 h
    obtain ⟨h2, h3, h4, h5, h6⟩ := s.served_of r
    refine ⟨_, exec_fetch_some hn, h2.stakes, h2.only.regs, fun hno => ?_, fun _ => ⟨r, hr, ha, hle, h3, h4, h5, h6⟩⟩
    rw [hno r hr] at ha
    cases ha
  · have hno : ∀ r, r < 256 → s.asks r = false := fun r hr => Bool.eq_false_iff.mpr fun ha => h ⟨r, hr, ha⟩
    have he : exec .descriptorFetch s = .next s := by
      change execDescriptorFetch s = _
      unfold execDescriptorFetch
      rw [h0 hno]
    exact ⟨s, he, s.stakesKept_refl, rfl, fun _ => rfl, fun h' => absurd h' h⟩

/-- R348: the ring after a fetch error. -/
def State.fetchFails (s : State) (r status : Nat) : State :=
  (((s.fetchEnds r).onRing r fun q => { q with cqFree := q.cqFree + 1 }).onHost fun h => { h with aer := h.aer ||| aerOf status }).onPkg
    fun p => (p.putB (Reg.HIF_RING_ERROR r) true).bump Reg.HIF_DMA_ERR_CNT

theorem exec_fetchError (h256 : r < 256) {status : Nat} (hf : 0 < (s.ring r).fetching)
    (ht : status = 16 → nth 0 (s.ring r).fetchAt 0 + s.pkg.host.pcie.timeout ≤ s.time) :
    exec (.ringFetchError r status) s = .next (((s.fetchFails r status).postPkg .hifRingError 0 [r, status]).deleted r) := by
  refine congrArg Host.Outcome.next (if_neg ?_)
  have h1 : ¬(status = 16 ∧ s.time < nth 0 (s.ring r).fetchAt 0 + s.pkg.host.pcie.timeout) := fun ⟨h, h'⟩ => by
    have := ht h
    omega
  simp only [Bool.or_eq_true, Bool.and_eq_true, decide_eq_true_eq]
  rintro ((h | h) | h)
  · omega
  · omega
  · exact h1 h

/-- R348: a fetch that fails. -/
theorem State.fetchFails_of {status : Nat} (hf : 0 < (s.ring r).fetching) :
    State.Eff [.rings, .aer, .regs] [Reg.HIF_RING r, Reg.HIF_DMA_ERR_CNT] s (s.fetchFails r status) ∧
      (s.fetchFails r status).pkg.flag (Reg.HIF_RING_ERROR r) = true ∧
      (s.fetchFails r status).pkg.rd Reg.HIF_DMA_ERR_CNT = satAdd 16 (s.pkg.rd Reg.HIF_DMA_ERR_CNT) 1 ∧
      ((s.fetchFails r status).ring r).fetching + 1 = (s.ring r).fetching ∧
      ((s.fetchFails r status).ring r).deleting = (s.ring r).deleting := by
  have hl := State.fetching_lt hf
  unfold State.fetchFails
  have h1 : State.Eff [.rings, .aer, .regs] [Reg.HIF_RING r, Reg.HIF_DMA_ERR_CNT] s (s.fetchEnds r) := .onRing .refl
  have hr1 : (s.fetchEnds r).ring r = { s.ring r with fetching := (s.ring r).fetching - 1, fetchAt := (s.ring r).fetchAt.drop 1 } :=
    State.ring_onRing hl _
  have hl1 : r < (s.fetchEnds r).pkg.host.rings.length := by
    change r < (updAt s.pkg.host.rings r _).length
    rwa [updAt_length]
  have hd1 : (s.fetchEnds r).pkg.rd Reg.HIF_DMA_ERR_CNT = s.pkg.rd Reg.HIF_DMA_ERR_CNT := rfl
  generalize s.fetchEnds r = a at h1 hr1 hl1 hd1 ⊢
  have h2 : State.Eff [.rings, .aer, .regs] [Reg.HIF_RING r, Reg.HIF_DMA_ERR_CNT] a (a.onRing r fun q => { q with cqFree := q.cqFree + 1 }) :=
    .onRing .refl
  have hr2 : (a.onRing r fun q => { q with cqFree := q.cqFree + 1 }).ring r = { a.ring r with cqFree := (a.ring r).cqFree + 1 } :=
    State.ring_onRing hl1 _
  have hd2 : (a.onRing r fun q => { q with cqFree := q.cqFree + 1 }).pkg.rd Reg.HIF_DMA_ERR_CNT = a.pkg.rd Reg.HIF_DMA_ERR_CNT := rfl
  generalize (a.onRing r fun q => { q with cqFree := q.cqFree + 1 }) = b at h2 hr2 hd2 ⊢
  have h3 : State.Eff [.rings, .aer, .regs] [Reg.HIF_RING r, Reg.HIF_DMA_ERR_CNT] b
    (b.onHost fun h => { h with aer := h.aer ||| aerOf status }) := .set (f := .aer) .refl
  have hr3 : (b.onHost fun h => { h with aer := h.aer ||| aerOf status }).ring r = b.ring r := rfl
  have hd3 : (b.onHost fun h => { h with aer := h.aer ||| aerOf status }).pkg.rd Reg.HIF_DMA_ERR_CNT = b.pkg.rd Reg.HIF_DMA_ERR_CNT := rfl
  generalize (b.onHost fun h => { h with aer := h.aer ||| aerOf status }) = c at h3 hr3 hd3 ⊢
  have hne : Reg.HIF_DMA_ERR_CNT ≠ Reg.HIF_RING r := by
    simp only [Reg.HIF_DMA_ERR_CNT, Reg.HIF_RING]
    omega
  have hp0 : Pkg.Eff [.rings, .aer, .regs] [Reg.HIF_RING r, Reg.HIF_DMA_ERR_CNT] c.pkg (c.pkg.putB (Reg.HIF_RING_ERROR r) true) :=
    .putB .refl List.mem_cons_self
  have hp : Pkg.Eff [.rings, .aer, .regs] [Reg.HIF_RING r, Reg.HIF_DMA_ERR_CNT] c.pkg
      ((c.pkg.putB (Reg.HIF_RING_ERROR r) true).bump Reg.HIF_DMA_ERR_CNT) :=
    hp0.bump (List.mem_cons_of_mem _ (List.mem_singleton_self _))
  have h4 : State.Eff [.rings, .aer, .regs] [Reg.HIF_RING r, Reg.HIF_DMA_ERR_CNT] c
      (c.onPkg fun p => (p.putB (Reg.HIF_RING_ERROR r) true).bump Reg.HIF_DMA_ERR_CNT) := .onPkg .refl hp
  refine ⟨((h1.trans h2).trans h3).trans h4, ?_, ?_, ?_, ?_⟩
  · rw [State.onPkg_pkg, Pkg.flag, Pkg.fld_bump_ne _ _ _ hne.symm]
    exact Pkg.flag_putB_same _ _ _ (by change 30 + 1 ≤ 32; decide) rfl
  · rw [State.onPkg_pkg, Pkg.rd_bump_same, Pkg.putB, Pkg.rd_put_ne _ _ hne, hd3, hd2, hd1]
  · change (c.ring r).fetching + 1 = _
    rw [hr3, hr2, hr1]
    dsimp only
    omega
  · change (c.ring r).deleting = _
    rw [hr3, hr2, hr1]

/-- R348: what the failure of a read or write of host data does. -/
def dataOp (r cid : Nat) (d : Desc) : Bool := d.ring = r && d.cid = cid && [0x11, 0x30, 0x31, 0x42, 0x43, 0x45].contains d.op

theorem exec_dataError {cid : Nat} {d : Desc} (h : s.pkg.host.descs.find? (dataOp r cid) = some d) :
    exec (.hostDataError r cid) s = .next (((s.onPkg fun p => p.bump Reg.HIF_DMA_ERR_CNT).onHost fun h =>
      { h with descs := dropFirst (dataOp r cid) h.descs }).finish (d.done 11 0)) := by
  change execHostDataError r cid s = _
  unfold execHostDataError
  extract_lets mine err
  have hm : s.pkg.host.descs.find? mine = some d := h
  rw [hm]
  rfl

theorem exec_forwarded {n i : Nat} (ha : s.alive n = true)
    (h : (s.pkg.host.descs.findIdx? fun d => !d.there && s.ringStake d.ring = n) = some i) :
    exec (.forwardedDescriptorCell n) s = .next (s.onHost fun h => { h with descs := updAt h.descs i fun d =>
      { d with there := true, at_ := (s.stake n).bounds, fetched := (s.stake n).now } }) := by
  change execForwardedDescriptorCell n s = _
  unfold execForwardedDescriptorCell
  extract_lets mine
  have hm : s.pkg.host.descs.findIdx? (mine s) = some i := h
  rw [if_neg (by simp [ha]), hm]

theorem map_updAt_set {α β : Type} (f : α → β) (g : α → α) (b : β) (l : List α) (i : Nat) (h : ∀ a, f (g a) = b) :
    (updAt l i g).map f = (l.map f).set i b := by
  unfold updAt
  induction l generalizing i with
  | nil => simp
  | cons a l ih => cases i <;> simp [h, ih]

theorem map_updAt_same {α β : Type} (f : α → β) (g : α → α) (l : List α) (i : Nat) (h : ∀ a, f (g a) = f a) :
    (updAt l i g).map f = l.map f := by
  unfold updAt
  induction l generalizing i with
  | nil => simp
  | cons a l ih => cases i <;> simp [h, ih]

theorem exec_reserved {d : Desc} (h : (s.pkg.host.descs.find? fun d => d.ring = r && (opClass d.op).isNone) = some d) :
    exec (.reservedOpcode r) s = .next ((s.onHost fun h =>
      { h with descs := dropFirst (fun x => x.ring = r && (opClass x.op).isNone) h.descs }).finish (d.done 6 0)) := by
  change execReservedOpcode r s = _
  unfold execReservedOpcode State.takeReserved
  rw [h]
  rfl

/-- R368: a moderated vector whose time is over. -/
theorem exec_moderation {v c t0 : Nat} (h : s.pkg.host.msix[v]? = some (c, some t0)) (hc : c ≠ 0)
    (ht : t0 + 400 * s.pkg.fld (Reg.HIF_MSIX_MOD_TIME v) ≤ s.time) : exec (.msixModerationTimeout v) s = .next (s.msixFire v) := by
  change execMsixModerationTimeout v s = _
  unfold execMsixModerationTimeout
  have hn : nth (0, none) s.pkg.host.msix v = (c, some t0) := by
    rw [nth, List.getD_eq_getElem?_getD, h]
    rfl
  rw [hn]
  exact congrArg Host.Outcome.next (if_pos (by simp [hc, ht]))

/-- R368: what a vector that fires does. -/
theorem State.msixFire_of {v c t0 : Nat} (hv : v < 64) (h : s.pkg.host.msix[v]? = some (c, some t0)) (hen : s.pkg.host.pcie.msixEn = true) :
    s.stakesKept (s.msixFire v) ∧ (s.msixFire v).pkg.host.msix[v]? = some (0, none) ∧
      if (s.pkg.rd (Reg.HIF_MSIX_TABLE (4 * v + 3))).getLsbD 0 || s.pkg.host.pcie.msixMask || !s.masters then
        (s.msixFire v).pkg.host.writes = s.pkg.host.writes ∧ ((s.msixFire v).pkg.rd (Reg.HIF_MSIX_PBA (v / 32))).getLsbD (v % 32) = true
      else (s.msixFire v).pkg.host.writes = s.pkg.host.writes ++ [((s.pkg.rd (Reg.HIF_MSIX_TABLE (4 * v + 0))).toNat +
          (s.pkg.rd (Reg.HIF_MSIX_TABLE (4 * v + 1))).toNat * 4294967296, bytesN 4 (s.pkg.rd (Reg.HIF_MSIX_TABLE (4 * v + 2))).toNat)] ∧
        (s.msixFire v).pkg.regs = s.pkg.regs := by
  refine ⟨(s.msixFire_eff hv).stakes, ?_⟩
  unfold State.msixFire
  extract_lets w q o
  have hq : q.pkg.host.msix[v]? = some (0, none) := by
    change (updAt s.pkg.host.msix v fun _ => (0, none))[v]? = _
    rw [updAt, List.getElem?_modify_eq, h]
    rfl
  have hqe : State.Eff [.msix] [] s q := .set (f := .msix) .refl
  have hm : q.masters = s.masters := rfl
  have hmm : q.pkg.host.pcie = s.pkg.host.pcie := rfl
  clear_value q
  rw [hmm, hm, if_neg (by simp [hen])]
  have hb : ((s.pkg.rd (Reg.HIF_MSIX_TABLE (4 * v + 3))).getLsbD 0) = decide (w 3 % 2 = 1) := by
    rw [← BitVec.testBit_toNat, Nat.testBit_zero]
  rw [hb]
  split
  · refine ⟨hq, hqe.only.writes, ?_⟩
    rw [State.onPkg_pkg, Pkg.rd_wr_same]
    have : v % 32 < 32 := Nat.mod_lt _ (by decide)
    simp [this]
  · refine ⟨hq, ?_, hqe.only.regs⟩
    change q.pkg.host.writes ++ _ = _
    rw [hqe.only.writes]

theorem evCode_lt (e : Ev) : e.code < 65536 := by cases e <;> decide

/-- R369: the bytes of an event's entry that say which it is. -/
theorem QEvent.entry_of (q : QEvent) : q.entry.length = 32 ∧ leOf q.entry 0 2 = q.post.ev.code ∧ nth 0 q.entry 2 = q.post.cls := by
  have hb : ∀ n, bytesN 2 n = [n % 256, n / 256 % 256] := fun n => by simp [bytesN, List.range_succ]
  have hl : ∀ n k, (bytesN n k).length = n := fun n k => by simp [bytesN]
  have hc := evCode_lt q.post.ev
  rw [leOf_two]
  unfold QEvent.entry nth
  refine ⟨?_, ?_, ?_⟩
  · simp [hl, QEvent.bytes]
  · simp [hb, List.getD_eq_getElem?_getD]
    omega
  · simp [hb, List.getD_eq_getElem?_getD]

/-- What a drain of the event queue leaves, and what each of its steps needs again. -/
def State.drainView (s : State) : Bool × Bool × Bool := (s.ready, s.masters, s.ringEn 0)

/-- R370: one event is written. -/
theorem State.drainOne_of {q : QEvent} {l : List QEvent} (hd : s.drainable = true) (he : s.pkg.evq = q :: l) :
    State.Eff (.evq :: cqParts) (cqRegs 0) s s.drainOne ∧ s.drainOne.pkg.evq = l ∧ (s.drainOne.ring 0).cqFree = (s.ring 0).cqFree - 1 ∧
      s.drainOne.drainView = s.drainView ∧
      ((s.ring 0).cqBase + 32 * s.pkg.fld (Reg.HIF_RING_PTR_CQ_TAIL 0), s.cqEntry 0 q.entry) ∈
        s.drainOne.pkg.host.writes.drop s.pkg.host.writes.length := by
  have hfree : 0 < (s.ring 0).cqFree := by
    unfold State.drainable at hd
    simp at hd
    exact hd.2
  have hl : 0 < s.pkg.host.rings.length := State.ring_lt fun h => by
    rw [h] at hfree
    cases hfree
  have heq : s.drainOne = ((s.takeFree 0).onPkg fun p => { p with evq := l }).cqWrite 0 q.entry (3 ≤ q.post.cls) := by
    unfold State.drainOne
    rw [if_neg (by simp [hd]), he]
  have h1 : State.Eff (.evq :: cqParts) (cqRegs 0) s ((s.takeFree 0).onPkg fun p => { p with evq := l }) :=
    .set (f := .evq) (.takeFree .refl)
  have hr1 : ((s.takeFree 0).onPkg fun p => { p with evq := l }).ring 0 = { s.ring 0 with cqFree := (s.ring 0).cqFree - 1 } :=
    State.ring_onRing hl _
  have he1 : ((s.takeFree 0).onPkg fun p => { p with evq := l }).pkg.evq = l := rfl
  have hw1 : ((s.takeFree 0).onPkg fun p => { p with evq := l }).pkg.host.writes = s.pkg.host.writes := rfl
  have hp1 : ((s.takeFree 0).onPkg fun p => { p with evq := l }).pkg.regs = s.pkg.regs := rfl
  rw [heq]
  generalize ((s.takeFree 0).onPkg fun p => { p with evq := l }) = a at h1 hr1 he1 hw1 hp1 ⊢
  obtain ⟨h2, hm, _, b, hb⟩ := a.cqWrite_of 0 q.entry (3 ≤ q.post.cls)
  have hall : State.Eff (.evq :: cqParts) (cqRegs 0) s (a.cqWrite 0 q.entry (3 ≤ q.post.cls)) :=
    h1.trans (h2.mono (by decide) (List.Subset.refl _))
  have hrd : a.pkg.fld (Reg.HIF_RING_PTR_CQ_TAIL 0) = s.pkg.fld (Reg.HIF_RING_PTR_CQ_TAIL 0) := by
    rw [Pkg.fld, Pkg.rd, hp1, ← Pkg.rd, ← Pkg.fld]
  refine ⟨hall, h2.only.evq.trans he1, ?_, ?_, ?_⟩
  · rw [hb, hr1]
  · unfold State.drainView State.ready State.masters State.ringEn
    rw [hall.regs.flag (f := Reg.HIF_STATUS_READY), hall.regs.flag (f := Reg.HIF_RING_EN 0), hall.only.pcie]
  · rw [hw1, hr1, hrd] at hm
    rwa [State.cqEntry, hr1] at hm

theorem State.drainable_of {t : State} (h : t.drainView = s.drainView) : t.drainable = (s.ready && s.masters && s.ringEn 0 && 0 < (t.ring 0).cqFree) := by
  obtain ⟨h1, h2⟩ := Prod.mk.inj h
  obtain ⟨h2, h3⟩ := Prod.mk.inj h2
  unfold State.drainable
  rw [h1, h2, h3]

/-- R370: as many events as there is room for are written, in order. -/
theorem State.drainOne_iterate (hd : s.drainView = (true, true, true)) (n : Nat) (l : List Nat) (hn : l.length = n) :
    let t := l.foldl (fun s _ => s.drainOne) s
    State.Eff (.evq :: cqParts) (cqRegs 0) s t ∧ t.pkg.evq = s.pkg.evq.drop (min n (s.ring 0).cqFree) ∧
      (t.ring 0).cqFree = (s.ring 0).cqFree - min n s.pkg.evq.length := by
  induction l generalizing s n with
  | nil =>
    subst hn
    simp [State.Eff.refl]
  | cons x l ih =>
    subst hn
    simp only [List.foldl_cons]
    have hdr : s.drainable = decide (0 < (s.ring 0).cqFree) := by
      rw [State.drainable_of (s := s) rfl]
      obtain ⟨h1, h2⟩ := Prod.mk.inj hd
      obtain ⟨h2, h3⟩ := Prod.mk.inj h2
      simp [h1, h2, h3]
    by_cases hf : 0 < (s.ring 0).cqFree
    · cases he : s.pkg.evq with
      | nil =>
        have hsame : s.drainOne = s := by
          unfold State.drainOne
          rw [he]
          split <;> rfl
        rw [hsame]
        have := ih hd l.length rfl
        rw [he] at this
        simpa using this
      | cons q r =>
        obtain ⟨h1, h2, h3, h4, _⟩ := State.drainOne_of (hdr.trans (decide_eq_true hf)) he
        obtain ⟨h5, h6, h7⟩ := ih (s := s.drainOne) (h4.trans hd) l.length rfl
        refine ⟨h1.trans h5, ?_, ?_⟩
        · rw [h6, h2, h3]
          have : min (l.length + 1) (s.ring 0).cqFree = min l.length ((s.ring 0).cqFree - 1) + 1 := by omega
          rw [List.length_cons, this, List.drop_succ_cons]
        · rw [h7, h2, h3, List.length_cons, List.length_cons]
          omega
    · have hsame : s.drainOne = s := by
        unfold State.drainOne
        rw [hdr]
        exact if_pos (by simp [hf])
      have h0 : (s.ring 0).cqFree = 0 := by omega
      rw [hsame]
      obtain ⟨h5, h6, h7⟩ := ih hd l.length rfl
      refine ⟨h5, ?_, ?_⟩
      · rw [h6, h0, Nat.min_zero, Nat.min_zero]
      · rw [h7, h0, Nat.zero_sub, Nat.zero_sub]

theorem State.drain_of (hd : s.drainable = true) (h0 : s.pkg.lost.1 = 0) :
    State.Eff (.evq :: cqParts) (cqRegs 0) s s.drain ∧ s.drain.pkg.evq = s.pkg.evq.drop (min s.pkg.evq.length (s.ring 0).cqFree) ∧
      (s.drain.ring 0).cqFree = (s.ring 0).cqFree - s.pkg.evq.length ∧
      ∀ q, s.pkg.evq.head? = some q → ∃ addr e, (addr, e) ∈ s.drain.pkg.host.writes.drop s.pkg.host.writes.length ∧
        addr = (s.ring 0).cqBase + 32 * s.pkg.fld (Reg.HIF_RING_PTR_CQ_TAIL 0) ∧ e.length = 32 ∧ leOf e 0 2 = q.post.ev.code ∧
        nth 0 e 2 = q.post.cls := by
  have hl : s.drainLost = s := if_pos (by simp [h0])
  have hv : s.drainView = (true, true, true) := by
    unfold State.drainable at hd
    simp at hd
    simp [State.drainView, hd]
  unfold State.drain
  rw [hl]
  obtain ⟨h1, h2, h3⟩ := State.drainOne_iterate hv s.pkg.evq.length (List.range s.pkg.evq.length) List.length_range
  refine ⟨h1, h2, by rw [h3, Nat.min_self], fun q hq => ?_⟩
  obtain ⟨l, he⟩ := List.head?_eq_some_iff.mp hq
  obtain ⟨_, h5, _, h7, hm⟩ := State.drainOne_of hd he
  obtain ⟨hlen, hle, hn⟩ := q.entry_of
  rw [he, List.length_cons, List.range_succ_eq_map, List.foldl_cons]
  obtain ⟨h8, _⟩ := State.drainOne_iterate (h7.trans hv) l.length ((List.range l.length).map Nat.succ) (by simp)
  obtain ⟨r, hr⟩ := h8.writes
  refine ⟨_, s.cqEntry 0 q.entry, ?_, rfl, ?_, ?_, ?_⟩
  · rw [← hr]
    by_cases hlw : s.pkg.host.writes.length ≤ s.drainOne.pkg.host.writes.length
    · rw [List.drop_append_of_le_length hlw]
      exact List.mem_append_left _ hm
    · rw [List.drop_eq_nil_of_le (by omega)] at hm
      cases hm
  · rw [State.cqEntry, List.length_mapIdx, hlen]
  · rw [leOf_two, State.nth_cqEntry _ _ _ (by decide), State.nth_cqEntry _ _ _ (by decide), ← leOf_two, hle]
  · rw [State.nth_cqEntry _ _ _ (by decide), hn]

theorem State.drain_idle (h : s.drainable = false) : s.drain = s := by
  have h1 : s.drainLost = s := if_pos (by simp [h])
  have h2 : s.drainOne = s := if_pos (by simp [h])
  unfold State.drain
  rw [h1]
  generalize List.range s.pkg.evq.length = l
  induction l with
  | nil => rfl
  | cons x l ih => rw [List.foldl_cons, h2, ih]

theorem State.drain_stakes (s : State) : s.stakesKept s.drain := by
  have hl : State.Eff (.lost :: cqParts) (cqRegs 0) s s.drainLost :=
    .ite .refl ((State.Eff.set (f := .lost) (.takeFree .refl)).trans ((State.cqWrite_of _ _ _ _).1.mono (by decide) (List.Subset.refl _)))
  have ho : ∀ q : State, q.stakesKept q.drainOne := fun q => by
    unfold State.drainOne
    split
    · exact q.stakesKept_refl
    · split
      · exact q.stakesKept_refl
      · exact ((State.Eff.set (f := .evq) (l := .evq :: cqParts) (.takeFree .refl)).trans
          ((State.cqWrite_of _ 0 _ _).1.mono (m := cqRegs 0) (by decide) (List.Subset.refl _))).stakes
  unfold State.drain
  generalize List.range s.pkg.evq.length = l
  have : ∀ q : State, q.stakesKept (l.foldl (fun s _ => s.drainOne) q) := by
    induction l with
    | nil => exact State.stakesKept_refl
    | cons x l ih => exact fun q => (ho q).trans (ih _)
  exact hl.stakes.trans (this _)

end

/-- Settles O55: the doorbells, the slot of least rank, the arrivals case by case, the errors, and the drain one event at a time. -/
theorem hostRings : Obligations.HostRings := by
  unfold Obligations.HostRings
  refine ⟨fun s r w h256 hl hrd => ⟨?_, ?_⟩, fun s => ?_, fun s r bytes h256 hf hd hen hz => ?_, fun s r status h256 hf hd ht => ?_,
    fun s r cid d hu hd => ?_, fun s n i ha hi => ⟨_, exec_forwarded ha hi, ⟨rfl, rfl, rfl⟩, ?_, ?_, rfl⟩, fun s r d hu hd => ?_,
    fun s v c t0 hv hm hc ht hen => ?_, fun s => ⟨_, rfl, s.drain_stakes, State.drain_idle, fun hd h0 => ?_⟩⟩
  · by_cases h : s.ringEn r = true ∧ w.toNat % 4096 < s.sqSize r
    · refine ⟨_, exec_sqTail_good h256 hrd h, ?_⟩
      rw [if_pos h]
      exact ⟨⟨rfl, rfl, rfl⟩, rfl, congrArg RingSt.sqTail (State.ring_onRing hl _), fun q hq => State.ring_onRing_ne hq _ _⟩
    · refine ⟨_, exec_sqTail_bad h256 hrd h, ?_⟩
      rw [if_neg h]
      exact s.badDoorbell_of r _
  · by_cases h : s.ringEn r = true ∧ w.toNat % 4096 < s.cqSize r
    · refine ⟨_, exec_cqHead_good h256 hrd h, ?_⟩
      rw [if_pos h, State.ring_onRing hl]
      exact ⟨⟨rfl, rfl, rfl⟩, rfl, rfl, rfl, fun q hq => State.ring_onRing_ne hq _ _, rfl⟩
    · refine ⟨_, exec_cqHead_bad h256 hrd h, ?_⟩
      rw [if_neg h]
      exact s.badDoorbell_of r _
  · obtain ⟨h0, h1⟩ := s.nextSlot_of
    exact descriptorFetch_of h0 h1
  · have hcid := dataOf_leOf_lt 64 bytes 2
    refine ⟨_, exec_arrival h256 hf bytes, ?_⟩
    rw [State.arrives_eq]
    generalize dataOf 64 bytes = b at hcid ⊢
    obtain ⟨h1, h2, h3, h4, h5⟩ := State.fetched_of hf hz b hcid hen
    have hw := h1.only.writes
    have hde := h1.only.descs
    have hcl := State.budgetClass_of (h1.regs.fld (f := Reg.HIF_RING_CLASS r) (ring_ptr r))
    have htg := State.target_of (h1.regs.fld (f := Reg.HIF_RING_STAKE r) (ring_ptr r))
    have hal := State.alive_of h1.stakes (h1.regs Reg.HIF_PKG_ALIVE (by
      simp only [Reg.HIF_PKG_ALIVE, Reg.HIF_RING_PTR, List.mem_cons, List.not_mem_nil, or_false]
      omega))
    rw [h1.stakes.stake, htg]
    generalize (s.fetchEnds r).inFlight r b = q at *
    obtain ⟨⟨h6, h7⟩, h8, h9⟩ := State.judged_of (s := q) (k := s.stake ((s.target r).getD 0)) (b := b) h256 (h3.trans hd) h5
    rw [hcl] at h6 h7 h8 h9
    rw [htg] at h9
    simp only [hal, hde] at h8 h9
    refine ⟨by rw [h6, h2], h7.trans h4, h8, fun v hv => ?_⟩
    obtain ⟨ha, hb, hc⟩ := h9 v hv
    exact ⟨fun h => (ha h).of_writes hw, fun h h' => (hb h h').of_writes hw, fun h h' =>
      ⟨fun n hn hx hy => ((hc h h').1 n hn hx hy).of_writes hw, (hc h h').2⟩⟩
  · refine ⟨_, exec_fetchError h256 hf ht, ?_⟩
    obtain ⟨h1, h2, h3, h4, h5⟩ := State.fetchFails_of (status := status) hf
    have hev := h1.only.evq
    have hes := h1.only.eseq
    generalize s.fetchFails r status = q at h1 h2 h3 h4 h5 hev hes ⊢
    have hr : (q.postPkg .hifRingError 0 [r, status]).ring r = q.ring r := State.ring_of (by rw [State.postPkg_pkg_host]) r
    have hk := State.postPkg_regsKept q .hifRingError 0 [r, status]
    rw [State.deleted_none (by rw [hr, h5, hd]), hr]
    refine ⟨?_, ?_, h4, State.posted_of hev hes (State.postPkg_posted _ _ _ _)⟩
    · rw [hk.flag (f := Reg.HIF_RING_ERROR r) (by
        simp only [Reg.HIF_RING_ERROR, Reg.HIF_EVT_LOST_CNT, List.mem_cons, List.not_mem_nil, or_false]
        omega), h2]
    · rw [hk _ (by decide), h3]
  · have hdo : dataOp r cid d = true := List.find?_some hd
    obtain ⟨⟨hr, hc⟩, _⟩ : (d.ring = r ∧ d.cid = cid) ∧ _ := by
      unfold dataOp at hdo
      simpa using hdo
    refine ⟨_, exec_dataError hd, ?_⟩
    have h1 : State.Eff [.regs, .descs] [Reg.HIF_DMA_ERR_CNT] s ((s.onPkg fun p => p.bump Reg.HIF_DMA_ERR_CNT).onHost fun h =>
        { h with descs := dropFirst (dataOp r cid) h.descs }) := .set (f := .descs) (.onPkg .refl (.bump .refl))
    have h2 : ((s.onPkg fun p => p.bump Reg.HIF_DMA_ERR_CNT).onHost fun h =>
        { h with descs := dropFirst (dataOp r cid) h.descs }).pkg.rd Reg.HIF_DMA_ERR_CNT = satAdd 16 (s.pkg.rd Reg.HIF_DMA_ERR_CNT) 1 :=
      s.pkg.rd_bump_same _
    generalize ((s.onPkg fun p => p.bump Reg.HIF_DMA_ERR_CNT).onHost fun h =>
        { h with descs := dropFirst (dataOp r cid) h.descs }) = q at h1 h2 ⊢
    have hu' : q.underWay (d.done 11 0).ring (d.done 11 0).cid := by
      rw [show (d.done 11 0).ring = r from hr, show (d.done 11 0).cid = cid from hc]
      refine hu.of ?_ h1.only.flying
      unfold State.ringEn
      rw [h1.regs.flag (f := Reg.HIF_RING_EN r) (by
        simp only [Reg.HIF_RING_EN, Reg.HIF_DMA_ERR_CNT, List.mem_cons, List.not_mem_nil, or_false]
        omega)]
    have hf := q.finish_eff (d.done 11 0)
    refine ⟨h1.stakes.trans hf.stakes, ?_, ?_⟩
    · have := (State.finish_completes hu').of_writes h1.only.writes
      rwa [show (d.done 11 0).cid = cid from hc] at this
    · rw [hf.regs _ (by
        simp only [Reg.HIF_DMA_ERR_CNT, finRegs, oneRegs, Reg.HIF_RING, Reg.HIF_RING_PTR, Reg.HIF_SUPERSEDED_CNT, Reg.HIF_DELAYED_CNT,
          Reg.HIF_MSIX_PBA, List.mem_cons, List.not_mem_nil, or_false]
        omega), h2]
  · exact map_updAt_set _ _ _ _ _ fun _ => rfl
  · exact map_updAt_same _ _ _ _ fun _ => rfl
  · have hdr : d.ring = r := by
      have := List.find?_some hd
      simp at this
      exact this.1
    subst hdr
    refine ⟨_, exec_reserved hd, ?_⟩
    have h1 : State.Eff [.descs] [] s (s.onHost fun h =>
        { h with descs := dropFirst (fun x => x.ring = d.ring && (opClass x.op).isNone) h.descs }) := .set (f := .descs) .refl
    have hu' : (s.onHost fun h => { h with descs := dropFirst (fun x => x.ring = d.ring && (opClass x.op).isNone) h.descs }).underWay
      d.ring d.cid := hu
    generalize (s.onHost fun h => { h with descs := dropFirst (fun x => x.ring = d.ring && (opClass x.op).isNone) h.descs }) = q at h1 hu' ⊢
    exact ⟨h1.stakes.trans (q.finish_eff _).stakes, (State.finish_completes (c := d.done 6 0) hu').of_writes h1.only.writes⟩
  · exact ⟨_, exec_moderation hm hc ht, State.msixFire_of hv hm hen⟩
  · exact (State.drain_of hd h0).2

end Sys2Proof.Machine

/-! The BULK descriptors: configuration writes, flash staging and commits (R324, R327, R360, R361, R432, R433). -/
namespace Sys2Proof.Machine
set_option Elab.async false

section
variable {s q : State} {r : Nat} {d : Desc}

/-- A descriptor taken: what it is, and that nothing but the list of descriptors changes. -/
theorem State.takeDesc_taken {op : Nat} (h : s.takeDesc r op = some (d, q)) : d.ring = r ∧ d.op = op ∧ State.Eff [.descs] [] s q ∧
    (∀ cid, s.underWay r cid → q.underWay r cid) := by
  simp only [State.takeDesc, Option.map_eq_some_iff, Prod.mk.injEq] at h
  obtain ⟨x, hx, rfl, rfl⟩ := h
  have hp := List.find?_some hx
  simp only [Bool.and_eq_true, decide_eq_true_eq] at hp
  exact ⟨hp.1.1, hp.1.2, .set (f := .descs) .refl, fun _ hu => hu⟩

theorem State.Eff.time {l : List PkgPart} {m : List Nat} {s t : State} (h : State.Eff l m s t) : t.time = s.time := by
  rw [State.time, h.stakes.stake, State.time]

/-- R440: an operation asked of the seal unit. -/
theorem State.sealStart_of (s : State) (op : SealOp) : State.Eff [.boot] [] s (s.sealStart op) ∧
    (s.sealStart op).pkg.boot = { s.pkg.boot with
      sealOp := some (op, match op with | .attest _ _ _ nonce => s.report nonce | _ => []) } :=
  ⟨.set (f := .boot) .refl, rfl⟩

theorem State.sealAsk_of (s : State) (op : SealOp) : State.Eff [.boot] [] s (s.sealAsk op) ∧
    (s.pkg.boot.sealOp = none → (s.sealAsk op).pkg.boot = { s.pkg.boot with
      sealOp := some (op, match op with | .attest _ _ _ nonce => s.report nonce | _ => []) }) ∧
    (s.pkg.boot.sealOp ≠ none → (s.sealAsk op).pkg.boot = { s.pkg.boot with sealQ := s.pkg.boot.sealQ ++ [op] }) := by
  obtain ⟨h1, h2⟩ := s.sealStart_of op
  unfold State.sealAsk
  cases hs : s.pkg.boot.sealOp with
  | none => exact ⟨h1, fun _ => h2, fun h => absurd rfl h⟩
  | some x => exact ⟨.set (f := .boot) .refl, nofun, fun _ => rfl⟩

/-- What an operation asked of the seal unit leaves of a configuration write. -/
theorem State.sealAsk_boot (s : State) (op : SealOp) : (s.sealAsk op).pkg.boot.cfgOp = s.pkg.boot.cfgOp ∧
    (s.sealAsk op).pkg.boot.rewrite = s.pkg.boot.rewrite ∧ (s.sealAsk op).pkg.boot.rwOp = s.pkg.boot.rwOp := by
  obtain ⟨_, h1, h2⟩ := s.sealAsk_of op
  by_cases h : s.pkg.boot.sealOp = none
  · rw [h1 h]
    exact ⟨rfl, rfl, rfl⟩
  · rw [h2 h]
    exact ⟨rfl, rfl, rfl⟩

/-- R328: a rewrite that is cancelled. -/
theorem State.rewriteStop_of (s : State) (ops : Nat) : State.Eff [.boot, .nv] [] s (s.rewriteStop ops) ∧
    (s.rewriteStop ops).pkg.boot.rwOp = none ∧ (s.pkg.boot.rwOp = none → (s.rewriteStop ops).pkg.nv = s.pkg.nv) ∧
    (s.pkg.boot.sealOp = none → (s.rewriteStop ops).pkg.boot.sealOp = none) := by
  unfold State.rewriteStop
  extract_lets nv
  cases h : s.pkg.boot.rwOp with
  | none => exact ⟨.refl, h, fun _ => rfl, fun h => h⟩
  | some i =>
    refine ⟨?_, rfl, nofun, fun hs => ?_⟩
    · have h1 : State.Eff [.boot, .nv] [] s (s.onNv fun _ => nv) := .set (f := .nv) .refl
      have h2 : State.Eff [.boot, .nv] [] (s.onNv fun _ => nv) ((s.onNv fun _ => nv).cfgDrop .rewrite) := .set (f := .boot) .refl
      exact (h1.trans h2).trans (.set (f := .boot) .refl)
    · change s.pkg.boot.sealOp.map _ = none
      rw [hs]
      rfl

/-- R327, R360: a CFG_WRITE that passes its checks begins. -/
def State.cfgBegin (s : State) (r progress : Nat) (d : Desc) (data : List Nat) : State :=
  let c := cfgForm (s.cfgGen + 1) (dataOf (leOf d.body 16 4) data)
  let s := ((s.askRead r d.cid 3 (leOf d.body 16 4)).rewriteStop progress).onBoot fun b =>
    { b with rewrite := [], cfgOp := some { ring := r, cid := d.cid, copy := c } }
  (s.onPkg fun p => p.putB Reg.NVM_CFG_STATUS_REWRITE_PENDING false).sealAsk (.cfg .write)

theorem State.cfgBegin_of (s : State) (r progress : Nat) (d : Desc) (data : List Nat) :
    s.stakesKept (s.cfgBegin r progress d data) ∧ (s.pkg.boot.rwOp = none → (s.cfgBegin r progress d data).pkg.nv = s.pkg.nv) ∧
    (∃ x, (s.cfgBegin r progress d data).pkg.boot.cfgOp = some x ∧ x.ring = r ∧ x.cid = d.cid ∧
      x.copy.body = dataOf (leOf d.body 16 4) data) ∧
    (s.cfgBegin r progress d data).pkg.boot.rewrite = [] ∧ (s.cfgBegin r progress d data).pkg.boot.rwOp = none ∧
    (s.cfgBegin r progress d data).pkg.flag Reg.NVM_CFG_STATUS_REWRITE_PENDING = false ∧
    (s.cfgBegin r progress d data).pkg.host.reads =
      s.pkg.host.reads ++ [{ ring := r, cid := d.cid, cls := 3, left := (leOf d.body 16 4 + 63) / 64 }] ∧
    (s.pkg.boot.sealOp = none → (s.cfgBegin r progress d data).pkg.boot.sealOp = some (.cfg .write, [])) := by
  unfold State.cfgBegin
  extract_lets c s2
  have h1 : State.Eff [.asked] [] s (s.askRead r d.cid 3 (leOf d.body 16 4)) := .set (f := .asked) .refl
  have ha1 : (s.askRead r d.cid 3 (leOf d.body 16 4)).pkg.host.reads =
    s.pkg.host.reads ++ [{ ring := r, cid := d.cid, cls := 3, left := (leOf d.body 16 4 + 63) / 64 }] := rfl
  have hb1 : (s.askRead r d.cid 3 (leOf d.body 16 4)).pkg.boot = s.pkg.boot := rfl
  generalize hq : s.askRead r d.cid 3 (leOf d.body 16 4) = q1 at h1 ha1 hb1
  obtain ⟨h2, hrw, hnv, hso⟩ := q1.rewriteStop_of progress
  rw [hb1] at hnv hso
  have h3 : State.Eff [.boot] [] (q1.rewriteStop progress) s2 := by
    simp only [s2, hq]
    exact .set (f := .boot) .refl
  have hb3 : s2.pkg.boot = { (q1.rewriteStop progress).pkg.boot with rewrite := [], cfgOp := some { ring := r, cid := d.cid, copy := c } } := by
    simp only [s2, hq]
    rfl
  clear_value s2
  generalize q1.rewriteStop progress = q2 at *
  have h4 : State.Eff [.regs] [Reg.NVM_CFG_STATUS] s2 (s2.onPkg fun p => p.putB Reg.NVM_CFG_STATUS_REWRITE_PENDING false) :=
    .onPkg .refl (.putB .refl)
  have hf4 : (s2.onPkg fun p => p.putB Reg.NVM_CFG_STATUS_REWRITE_PENDING false).pkg.flag Reg.NVM_CFG_STATUS_REWRITE_PENDING = false :=
    Pkg.flag_putB_same _ _ _ (by decide) rfl
  generalize (s2.onPkg fun p => p.putB Reg.NVM_CFG_STATUS_REWRITE_PENDING false) = q4 at *
  obtain ⟨h5, hn5, _⟩ := q4.sealAsk_of (.cfg .write)
  obtain ⟨h6, h7, h8⟩ := q4.sealAsk_boot (.cfg .write)
  have hb4 := h4.only.boot
  refine ⟨(((h1.stakes.trans h2.stakes).trans h3.stakes).trans h4.stakes).trans h5.stakes, fun hn => ?_, ⟨{ ring := r, cid := d.cid, copy := c }, ?_, rfl, rfl, rfl⟩, ?_, ?_, ?_,
    ?_, fun hn => ?_⟩
  · rw [h5.only.nv, h4.only.nv, h3.only.nv, hnv hn, h1.only.nv]
  · rw [h6, hb4, hb3]
  · rw [h7, hb4, hb3]
  · rw [h8, hb4, hb3]
    exact hrw
  · rw [h5.regs.flag (f := Reg.NVM_CFG_STATUS_REWRITE_PENDING) List.not_mem_nil, hf4]
  · rw [h5.only.asked, h4.only.asked, h3.only.asked, h2.only.asked, ha1]
  · have hs4 : q4.pkg.boot.sealOp = none := by
      rw [hb4, hb3]
      exact hso hn
    rw [hn5 hs4]

theorem exec_cfgWrite_eq {data : List Nat} {progress : Nat} (h : s.takeDesc r 0x30 = some (d, q)) :
    exec (.cfgWrite r data progress) s = .next (match q.bulkRefusal d q.pkg.boot.cfgOp.isSome none with
      | some (st, i) => q.finish (d.done st i)
      | none => if leOf d.body 20 6 ≠ q.cfgGen + 1 then q.finish (d.done 7 20) else q.cfgBegin r progress d data) := by
  change execCfgWrite r data s progress = _
  unfold execCfgWrite
  rw [h]
  rfl

/-- A descriptor under way that completes at once. -/
theorem State.refused_of {op st i : Nat} (hd : d.ring = r ∧ d.op = op) (hu : s.underWay r d.cid) :
    s.stakesKept (s.finish (d.done st i)) ∧ Pkg.Only finParts s.pkg (s.finish (d.done st i)).pkg ∧
      s.completes (s.finish (d.done st i)) d.cid op st := by
  obtain ⟨hr, ho⟩ := hd
  have h := s.finish_eff (d.done st i)
  subst hr ho
  exact ⟨h.stakes, h.only, State.finish_completes (c := d.done st i) hu⟩

theorem State.cfgGen_of {s t : State} (h : t.pkg.regs = s.pkg.regs) : t.cfgGen = s.cfgGen := by
  unfold State.cfgGen Pkg.rd
  rw [h]

/-- R324, R327, R328, R360, R361: CFG_WRITE. -/
theorem cfgWrite_of {data : List Nat} {progress : Nat} (h : s.takeDesc r 0x30 = some (d, q)) (hu : s.underWay r d.cid) :
    ∃ t, exec (.cfgWrite r data progress) s = .next t ∧ q.stakesKept t ∧ (s.pkg.boot.rwOp = none → t.pkg.nv = s.pkg.nv) ∧
      match q.bulkRefusal d s.pkg.boot.cfgOp.isSome none with
      | some (st, _) => q.completes t d.cid 0x30 st
      | none => if leOf d.body 20 6 ≠ s.cfgGen + 1 then q.completes t d.cid 0x30 7
        else ∃ x, t.pkg.boot.cfgOp = some x ∧ x.ring = r ∧ x.cid = d.cid ∧ x.copy.body = dataOf (leOf d.body 16 4) data ∧
          t.pkg.boot.rewrite = [] ∧ t.pkg.boot.rwOp = none ∧ t.pkg.flag Reg.NVM_CFG_STATUS_REWRITE_PENDING = false ∧
          t.pkg.host.reads = s.pkg.host.reads ++ [{ ring := r, cid := d.cid, cls := 3, left := (leOf d.body 16 4 + 63) / 64 }] ∧
          (s.pkg.boot.sealOp = none → t.pkg.boot.sealOp = some (.cfg .write, [])) := by
  obtain ⟨hr, ho, he, huw⟩ := State.takeDesc_taken h
  refine ⟨_, exec_cfgWrite_eq h, ?_⟩
  have hu' := huw _ hu
  rw [← he.only.boot, ← he.only.nv, ← State.cfgGen_of he.only.regs, ← he.only.asked]
  cases hb : q.bulkRefusal d q.pkg.boot.cfgOp.isSome none with
  | some x =>
    obtain ⟨st, i⟩ := x
    obtain ⟨h1, h2, h3⟩ := State.refused_of (st := st) (i := i) ⟨hr, ho⟩ hu'
    exact ⟨h1, fun _ => h2.nv, h3⟩
  | none =>
    dsimp only
    by_cases hg : leOf d.body 20 6 ≠ q.cfgGen + 1
    · rw [if_pos hg, if_pos hg]
      obtain ⟨h1, h2, h3⟩ := State.refused_of (st := 7) (i := 20) ⟨hr, ho⟩ hu'
      exact ⟨h1, fun _ => h2.nv, h3⟩
    · rw [if_neg hg, if_neg hg]
      obtain ⟨h1, h2, ⟨x, h3, h4, h5, h6⟩, h7⟩ := q.cfgBegin_of r progress d data
      exact ⟨h1, h2, x, h3, h4, h5, h6, h7⟩

end
end Sys2Proof.Machine

/-! The ends of configuration writes and of flash stagings, and what FW_COMMIT and ATTEST ask (R327, R329, R432, R433, R439, R440). -/
namespace Sys2Proof.Machine
set_option Elab.async false

section
variable {s q : State} {r : Nat} {d : Desc}

/-- What a configuration that takes effect leaves: what persists, the configuration writes, the host interface. -/
def State.storeView (s : State) : NvState × Option CfgOp × HostSt := (s.pkg.nv, s.pkg.boot.cfgOp, s.pkg.host)

theorem State.storeView_postPkg (s : State) (e : Ev) (c : Nat) (v : List Nat) : (s.postPkg e c v).storeView = s.storeView := by
  unfold State.storeView
  rw [State.postPkg_pkg_nv, State.postPkg_pkg_boot, State.postPkg_pkg_host]

theorem State.storeView_onStakes (l : List Nat) (f : Stake → Stake) (s : State) :
    (l.foldl (fun s n => s.onStake n f) s).storeView = s.storeView := by
  induction l generalizing s with
  | nil => rfl
  | cons n l ih =>
    rw [List.foldl_cons, ih]
    unfold State.storeView
    rw [State.onStake_pkg]

/-- R326, R329: a configuration that is judged and takes effect with no write. -/
theorem State.cfgApply_view (s : State) (mask : Nat) : (s.cfgApply mask []).storeView = s.storeView := by
  unfold State.cfgApply
  extract_lets l
  generalize cfgJudge l = j
  obtain ⟨row, pick, rw⟩ := j
  dsimp -zeta only
  extract_lets c gen s1 s2 s3 v
  have h1 : s1.storeView = s.storeView := rfl
  clear_value s1
  have h2 : s2.storeView = s1.storeView := rfl
  clear_value s2
  have h3 : s3.storeView = s2.storeView := rfl
  clear_value s3
  have h4 := (h3.trans h2).trans h1
  cases c with
  | none => exact (s3.storeView_postPkg _ _ _).trans h4
  | some x =>
    dsimp only [List.foldl_nil]
    refine (State.storeView_onStakes _ _ _).trans ?_
    change (if row = 1 then s3 else if row = 4 then s3.postPkg .cfgDegraded 0 v else s3.postPkg .cfgMinority 0 v).storeView = _
    split
    · exact h4
    · split
      · exact (s3.storeView_postPkg _ _ _).trans h4
      · exact (s3.storeView_postPkg _ _ _).trans h4

/-- R327: the copies that a configuration write leaves, before its completion. -/
def State.cfgCopied (s : State) (op : CfgOp) : State :=
  ((s.onNv fun n => n.copySteps [0, 1, 2] op.copy (3 * copyOps)).onBoot fun b => { b with cfgOp := none }).copySync

theorem State.copySync_eff (s : State) : State.Eff [.regs] [Reg.NVM_CFG_STATUS] s s.copySync := by
  unfold State.copySync
  extract_lets c
  have h : Pkg.Eff [.regs] [Reg.NVM_CFG_STATUS] s.pkg
    (((s.pkg.put Reg.NVM_CFG_STATUS_COPY0 (c 0)).put Reg.NVM_CFG_STATUS_COPY1 (c 1)).put Reg.NVM_CFG_STATUS_COPY2 (c 2)) :=
    .put (.put (.put .refl))
  exact .onPkg .refl h

theorem State.onBoot_nv (f : BootSt → BootSt) (s : State) : (s.onBoot f).pkg.nv = s.pkg.nv := rfl
theorem State.onNv_nv (f : NvState → NvState) (s : State) : (s.onNv f).pkg.nv = f s.pkg.nv := rfl

theorem State.cfgCopied_of (s : State) (op : CfgOp) : State.Eff [.nv, .boot, .regs] [Reg.NVM_CFG_STATUS] s (s.cfgCopied op) ∧
    (s.cfgCopied op).pkg.nv = s.pkg.nv.copySteps [0, 1, 2] op.copy (3 * copyOps) ∧
    (s.cfgCopied op).pkg.boot = { s.pkg.boot with cfgOp := none } := by
  unfold State.cfgCopied
  have h1 : State.Eff [.nv, .boot, .regs] [Reg.NVM_CFG_STATUS] s
      ((s.onNv fun n => n.copySteps [0, 1, 2] op.copy (3 * copyOps)).onBoot fun b => { b with cfgOp := none }) :=
    .set (f := .boot) (.set (f := .nv) (x := s.pkg.nv.copySteps [0, 1, 2] op.copy (3 * copyOps)) .refl)
  have hn : ((s.onNv fun n => n.copySteps [0, 1, 2] op.copy (3 * copyOps)).onBoot fun b => { b with cfgOp := none }).pkg.nv =
    s.pkg.nv.copySteps [0, 1, 2] op.copy (3 * copyOps) := (State.onBoot_nv _ _).trans (State.onNv_nv _ _)
  have hb : ((s.onNv fun n => n.copySteps [0, 1, 2] op.copy (3 * copyOps)).onBoot fun b => { b with cfgOp := none }).pkg.boot =
    { s.pkg.boot with cfgOp := none } := rfl
  generalize ((s.onNv fun n => n.copySteps [0, 1, 2] op.copy (3 * copyOps)).onBoot fun b => { b with cfgOp := none }) = q at h1 hn hb ⊢
  have h2 := q.copySync_eff
  exact ⟨h1.trans (h2.mono (by decide) (List.Subset.refl _)), h2.only.nv.trans hn, h2.only.boot.trans hb⟩

/-- R327, R329: the completion of a configuration write. -/
def State.cfgCompletion (op : CfgOp) : Completion :=
  { ring := op.ring, cid := op.cid, op := 0x30, status := 0, result := bytesN 6 op.copy.gen ++ [0, 0] ++ op.copy.digest.take 8 }

theorem State.cfgWritten_eq (s : State) (op : CfgOp) (mask : Nat) (writes : List (Nat × Reg32)) : s.cfgWritten op mask writes =
    if ((s.cfgCopied op).finish (State.cfgCompletion op)).pkg.boot.inForce.isNone &&
        ((s.cfgCopied op).finish (State.cfgCompletion op)).pkg.boot.phase = .ready then
      ((s.cfgCopied op).finish (State.cfgCompletion op)).cfgApply mask writes
    else (s.cfgCopied op).finish (State.cfgCompletion op) := rfl

theorem State.Eff.underWay {l : List PkgPart} {m : List Nat} {s t : State} {r cid : Nat} (h : State.Eff l m s t) (hu : s.underWay r cid)
    (hm : r < 256 → Reg.HIF_RING r ∉ m) (hf : PkgPart.flying ∉ l := by decide) : t.underWay r cid := by
  refine hu.of ?_ (h.only.flying hf)
  unfold State.ringEn
  by_cases hr : r < 256
  · rw [h.regs.flag (f := Reg.HIF_RING_EN r) (hm hr)]
  · simp [hr]

theorem nvmRegs_ring (r : Nat) (_ : r < 256) : Reg.HIF_RING r ∉ [Reg.NVM_CFG_STATUS] := by
  simp only [Reg.HIF_RING, Reg.NVM_CFG_STATUS, List.mem_cons, List.not_mem_nil, or_false]
  omega

theorem exec_cfgWriteDone_eq {op : CfgOp} {mask : Nat} {writes : List (Nat × Reg32)} (h : s.pkg.boot.cfgOp = some op) (h3 : op.digests = 3)
    (hh : (s.stake 0).vote.halted = false) : exec (.cfgWriteDone mask writes) s = .next (s.cfgWritten op mask writes) := by
  change execCfgWriteDone mask writes s = _
  unfold execCfgWriteDone
  rw [h]
  exact congrArg Host.Outcome.next (if_pos (by simp [h3, hh]))

/-- R326, R327, R329: CFG_WRITE_DONE. -/
theorem State.cfgWritten_of {op : CfgOp} {mask : Nat} {writes : List (Nat × Reg32)} (hu : s.underWay op.ring op.cid)
    (hw : s.pkg.boot.inForce ≠ none ∨ s.pkg.boot.phase ≠ .ready ∨ writes = []) :
    (s.cfgWritten op mask writes).pkg.nv = s.pkg.nv.copySteps [0, 1, 2] op.copy (3 * copyOps) ∧
      (s.cfgWritten op mask writes).pkg.boot.cfgOp = none ∧ s.completes (s.cfgWritten op mask writes) op.cid 0x30 0 := by
  obtain ⟨h1, h2, h3⟩ := s.cfgCopied_of op
  have hu1 := h1.underWay hu (nvmRegs_ring _)
  rw [State.cfgWritten_eq]
  generalize s.cfgCopied op = q at h1 h2 h3 hu1 ⊢
  have h4 := q.finish_eff (State.cfgCompletion op)
  have hc : q.completes (q.finish (State.cfgCompletion op)) op.cid 0x30 0 := State.finish_completes (c := State.cfgCompletion op) hu1
  have hnv := h4.only.nv
  have hb := h4.only.boot
  have hcs := hc.of_writes h1.only.writes
  generalize q.finish (State.cfgCompletion op) = u at h4 hnv hb hcs ⊢
  rw [h2] at hnv
  rw [h3] at hb
  have hcf : u.pkg.boot.cfgOp = none := by rw [hb]
  by_cases h : (u.pkg.boot.inForce.isNone && decide (u.pkg.boot.phase = .ready)) = true
  · rw [if_pos h]
    have hwn : writes = [] := by
      simp only [Bool.and_eq_true, Option.isNone_iff_eq_none, decide_eq_true_eq, hb] at h
      rcases hw with hw | hw | hw
      · exact absurd h.1 hw
      · exact absurd h.2 hw
      · exact hw
    subst hwn
    obtain ⟨hv1, hv2⟩ := Prod.mk.inj (u.cfgApply_view mask)
    obtain ⟨hv2, hv3⟩ := Prod.mk.inj hv2
    refine ⟨hv1.trans hnv, hv2.trans hcf, hcs.of_prefix ?_⟩
    rw [hv3]
  · rw [if_neg h]
    exact ⟨hnv, hcf, hcs⟩

theorem Store.get_erase (st : Store) (a len x : Nat) :
    (st.erase a len).get flashErased x = if x < a ∨ a + len ≤ x then st.get flashErased x else 0xFFFFFFFF := by
  have h := Store.get_filter (d := flashErased) (s := st) (q := fun e => e < a || a + len ≤ e) x
  unfold Store.erase
  rw [h]
  simp [flashErased]

theorem NvState.eraseFold_kept (f : Nat → Nat) (l : List Nat) (n : NvState) :
    l.foldl (fun n i => n.eraseSector (f i)) n = { n with flash := (l.foldl (fun n i => n.eraseSector (f i)) n).flash } ∧
    (∀ x, n.flash.get flashErased x = 0xFFFFFFFF → (l.foldl (fun n i => n.eraseSector (f i)) n).flash.get flashErased x = 0xFFFFFFFF) ∧
    ∀ i ∈ l, ∀ x, f i ≤ x → x < f i + 65536 → (l.foldl (fun n i => n.eraseSector (f i)) n).flash.get flashErased x = 0xFFFFFFFF := by
  induction l generalizing n with
  | nil => exact ⟨rfl, fun _ h => h, fun _ h => by cases h⟩
  | cons j l ih =>
    obtain ⟨h1, h2, h3⟩ := ih (n.eraseSector (f j))
    have hg : ∀ x, (n.eraseSector (f j)).flash.get flashErased x =
      if x < f j ∨ f j + 65536 ≤ x then n.flash.get flashErased x else 0xFFFFFFFF := fun x => Store.get_erase _ _ _ _
    rw [List.foldl_cons]
    refine ⟨h1, fun x hx => h2 x ?_, fun i hi x hx hx' => ?_⟩
    · rw [hg, hx, ite_self]
    · rcases List.mem_cons.mp hi with rfl | hi
      · refine h2 x ?_
        rw [hg, if_neg (by omega)]
      · exact h3 i hi x hx hx'

/-- R432: the sectors of a staging are erased. -/
theorem NvState.stageErase_of (n : NvState) (slot off len : Nat) (first : Bool) :
    n.stageErase slot off len first = { n with flash := (n.stageErase slot off len first).flash } ∧
    ∀ i a, i < 64 → off ≤ 65536 * i → 65536 * i < off + len → slotBase slot + 65536 * i ≤ a → a < slotBase slot + 65536 * (i + 1) →
      (n.stageErase slot off len first).flash.get flashErased a = 0xFFFFFFFF := by
  unfold NvState.stageErase
  extract_lets l
  obtain ⟨h1, _, h3⟩ := NvState.eraseFold_kept (fun i => slotBase slot + 65536 * i) l n
  refine ⟨h1, fun i a hi ho hl ha ha' => h3 i (List.mem_filter.mpr ⟨List.mem_range.mpr hi, by simp [ho, hl]⟩) a ha (lt_of_lt_of_eq ha' (by ring))⟩

/-- R432: a staging that passes its checks. -/
def State.stageBegin (s : State) (r : Nat) (d : Desc) (data : List Nat) : State :=
  let slot := nth 0 d.body 24
  let off := leOf d.body 20 4
  let len := leOf d.body 16 4
  let first := !s.pkg.boot.staged.contains slot
  ((s.askRead r d.cid 3 len).onNv fun n => n.stageErase slot off len first).onBoot fun b =>
    { b with
      staged := addNew b.staged slot
      fwOp := some { ring := r, cid := d.cid, slot := slot, off := off, data := dataOf len data } }

theorem exec_fwStage_eq {data : List Nat} (h : s.takeDesc r 0x31 = some (d, q)) : exec (.fwStage r data) s = .next
    (match q.bulkRefusal d q.flashBusy (some (nth 0 d.body 24)) with
      | some (st, i) => q.finish (d.done st i)
      | none => q.stageBegin r d data) := by
  change execFwStage r data s = _
  unfold execFwStage
  rw [h]
  rfl

theorem mem_addNew (l : List Nat) (x : Nat) : x ∈ addNew l x := by
  unfold addNew
  split
  · next h => exact List.contains_iff_mem.mp h
  · exact List.mem_append_right _ (List.mem_singleton_self _)

theorem State.stageBegin_of (s : State) (r : Nat) (d : Desc) (data : List Nat) :
    s.stakesKept (s.stageBegin r d data) ∧ (s.stageBegin r d data).pkg.nv =
      s.pkg.nv.stageErase (nth 0 d.body 24) (leOf d.body 20 4) (leOf d.body 16 4) (!s.pkg.boot.staged.contains (nth 0 d.body 24)) ∧
    nth 0 d.body 24 ∈ (s.stageBegin r d data).pkg.boot.staged ∧ (s.stageBegin r d data).pkg.host.reads =
      s.pkg.host.reads ++ [{ ring := r, cid := d.cid, cls := 3, left := (leOf d.body 16 4 + 63) / 64 }] ∧
    (s.stageBegin r d data).pkg.boot.fwOp =
      some { ring := r, cid := d.cid, slot := nth 0 d.body 24, off := leOf d.body 20 4, data := dataOf (leOf d.body 16 4) data } := by
  unfold State.stageBegin
  extract_lets slot off len first
  exact ⟨⟨rfl, rfl, rfl⟩, rfl, mem_addNew _ _, rfl, rfl⟩

/-- R432: words that are programmed one after the other. -/
theorem programFold_get (base : Nat) (ws : List (BitVec 32)) (st : Store) :
    (∀ x, x < base → ((ws.mapIdx fun i w => (base + 4 * i, w)).foldl (fun st (x : Nat × BitVec 32) =>
      Store.set flashErased st x.1 (Store.get flashErased st x.1 &&& x.2)) st).get flashErased x = st.get flashErased x) ∧
    ∀ j w, ws[j]? = some w → ((ws.mapIdx fun i w => (base + 4 * i, w)).foldl (fun st (x : Nat × BitVec 32) =>
      Store.set flashErased st x.1 (Store.get flashErased st x.1 &&& x.2)) st).get flashErased (base + 4 * j) =
        st.get flashErased (base + 4 * j) &&& w := by
  induction ws generalizing base st with
  | nil => exact ⟨fun _ _ => rfl, nofun⟩
  | cons w ws ih =>
    have hidx : ((w :: ws).mapIdx fun i w => (base + 4 * i, w)) = (base, w) :: ws.mapIdx fun i w => (base + 4 + 4 * i, w) := by
      rw [List.mapIdx_cons]
      congr 1
      refine List.mapIdx_eq_mapIdx_iff.mpr fun i _ => ?_
      congr 1
      omega
    obtain ⟨h1, h2⟩ := ih (base + 4) (Store.set flashErased st base (Store.get flashErased st base &&& w))
    rw [hidx, List.foldl_cons]
    refine ⟨fun x hx => ?_, fun j v hj => ?_⟩
    · rw [h1 x (by omega), Store.get_set_ne (by omega)]
    · cases j with
      | zero =>
        cases hj
        exact (h1 base (by omega)).trans (Store.get_set_same _ _ _)
      | succ j =>
        have he : base + 4 * (j + 1) = base + 4 + 4 * j := by omega
        rw [he, h2 j v (by simpa using hj), Store.get_set_ne (by omega)]

/-- R432: the end of a staging. -/
def State.stageEnd (s : State) (op : FwOp) (ok : Bool) : State :=
  let w := wordsOf op.data
  let a := slotBase op.slot + op.off
  let s := s.onBoot fun b => { b with fwOp := none }
  if ok then s.onNv fun n => n.program a w
  else
    let f := s.pkg.fresh
    let s := s.onPkg fun p => { p with fresh := f + w.length }
    s.onNv fun n => n.program a (w.mapIdx fun i _ => BitVec.ofNat 32 (Config.freePkg (f + i)))

theorem exec_fwStageDone_eq {op : FwOp} {ok : Bool} (h : s.pkg.boot.fwOp = some op) (hr : s.readDone op.ring op.cid = true) :
    exec (.fwStageDone ok) s = .next ((s.stageEnd op ok).finish
      { ring := op.ring, cid := op.cid, op := 0x31, status := if ok then 0 else 11, info := if ok then 0 else 1 }) := by
  change execFwStageDone ok s = _
  unfold execFwStageDone
  rw [h]
  dsimp only
  rw [if_neg (by simp [hr])]
  cases ok <;> rfl

theorem State.stageEnd_of (s : State) (op : FwOp) (ok : Bool) : State.Eff [.boot, .nv, .fresh] [] s (s.stageEnd op ok) ∧
    (s.stageEnd op ok).pkg.boot.fwOp = none ∧
    (ok = true → (s.stageEnd op ok).pkg.nv = s.pkg.nv.program (slotBase op.slot + op.off) (wordsOf op.data)) := by
  have h1 : State.Eff [.boot, .nv, .fresh] [] s (s.onBoot fun b => { b with fwOp := none }) := .set (f := .boot) .refl
  cases ok with
  | true => exact ⟨.set (f := .nv) h1, rfl, fun _ => rfl⟩
  | false => exact ⟨.set (f := .nv) (.set (f := .fresh) h1), rfl, nofun⟩

end
end Sys2Proof.Machine

/-! The seal unit's operations, enrolment, one-time memory and unlocking (R433, R436, R437, R439, R440, R442). -/
namespace Sys2Proof.Machine
set_option Elab.async false

section
variable {s q : State} {r : Nat} {d : Desc}

theorem exec_fwCommit_eq (h : s.takeDesc r 0x32 = some (d, q)) : exec (.fwCommit r) s = .next
    (match q.bulkRefusal d q.flashBusy (some (nth 0 d.body 8)) with
      | some (st, i) => q.finish (d.done st i)
      | none => q.sealAsk (.commit r d.cid (nth 0 d.body 8))) := by
  change execFwCommit r s = _
  unfold execFwCommit
  rw [h] <;> rfl

theorem exec_attest_eq (h : s.takeDesc r 0x45 = some (d, q)) : exec (.attest r) s = .next
    (if leOf d.body 16 4 < 1536 then q.finish (d.done 7 16)
      else q.sealAsk (.attest r d.cid (leOf d.body 8 8) ((d.body.drop 20).take 32))) := by
  change execAttest r s = _
  unfold execAttest
  rw [h]

/-- R439: a report begins with the version of its layout. -/
theorem State.report_take (s : State) (nonce : List Nat) : (s.report nonce).take 4 = [1, 0, 0, 0] := by
  have hb : bytesN 4 1 = [1, 0, 0, 0] := by decide
  have hl : (bytesN 4 1).length = 4 := by decide
  unfold State.report
  extract_lets b run none32 st slot
  split
  simp only [List.append_assoc]
  rw [List.take_append_of_le_length (by rw [hl]), List.take_of_length_le (by rw [hl]), hb]

/-- R440: nothing waits for the seal unit. -/
theorem State.sealNext_idle (h : s.pkg.boot.sealQ = []) : s.sealNext = s := by
  have hq : (if s.pkg.boot.sealOp.isSome then [] else s.pkg.boot.sealQ) = [] := by rw [h, ite_self]
  unfold State.sealNext
  extract_lets l best
  have hl : l = [] := hq
  rw [hl]
  rfl

/-- R440: the seal unit is free again. -/
def State.sealDone (s : State) : State := s.onBoot fun b => { b with sealOp := none }

theorem exec_sealDone_eq {op : SealOp} {m : List Nat} {a : Bool} (h : s.pkg.boot.sealOp = some (op, m)) (hb : op ≠ .boot)
    (hl : op ≠ .cfg .load) (hw : op = .cfg .write → ∀ c, s.pkg.boot.cfgOp = some c → s.readDone c.ring c.cid = true) :
    exec (.sealOperationDone a) s = .next ((s.sealDone.sealFinish op m a).sealNext) := by
  change execSealOperationDone s a = _
  unfold execSealOperationDone
  rw [h]
  have hwaits : (decide (op = .cfg .write) && match s.pkg.boot.cfgOp with | some c => !s.readDone c.ring c.cid | none => false) = false := by
    by_cases ho : op = .cfg .write
    · cases hc : s.pkg.boot.cfgOp with
      | none => simp
      | some c => simp [hw ho c hc]
    · simp [ho]
  cases op with
  | boot => exact absurd rfl hb
  | cfg w =>
    cases w with
    | load => exact absurd rfl hl
    | write => exact congrArg Host.Outcome.next (if_neg (ne_true_of_eq_false hwaits))
    | rewrite => exact congrArg Host.Outcome.next (if_neg (ne_true_of_eq_false hwaits))
    | ended => exact congrArg Host.Outcome.next (if_neg (ne_true_of_eq_false hwaits))
  | commit r c sl => exact congrArg Host.Outcome.next (if_neg (ne_true_of_eq_false hwaits))
  | attest r c ad no => exact congrArg Host.Outcome.next (if_neg (ne_true_of_eq_false hwaits))

theorem State.sealDone_of (s : State) : State.Eff [.boot] [] s s.sealDone ∧ s.sealDone.pkg.boot = { s.pkg.boot with sealOp := none } :=
  ⟨.set (f := .boot) .refl, rfl⟩

/-- R327, R440: the digest of a copy of a configuration write. -/
theorem sealDone_cfgWrite {m : List Nat} {a : Bool} {c : CfgOp} (hq : s.pkg.boot.sealQ = []) (h : s.pkg.boot.sealOp = some (.cfg .write, m))
    (hc : s.pkg.boot.cfgOp = some c) (hr : s.readDone c.ring c.cid = true) :
    ∃ t, exec (.sealOperationDone a) s = .next t ∧ s.stakesKept t ∧ t.pkg.nv = s.pkg.nv ∧
      t.pkg.boot.cfgOp = some { c with digests := c.digests + 1 } ∧
      t.pkg.boot.sealOp = if c.digests + 1 < 3 then some (.cfg .write, []) else none := by
  refine ⟨_, exec_sealDone_eq h nofun nofun fun _ c' hc' => ?_, ?_⟩
  · rw [hc] at hc'
    cases hc'
    exact hr
  obtain ⟨h1, h2⟩ := s.sealDone_of
  generalize s.sealDone = q at h1 h2 ⊢
  have hcq : q.pkg.boot.cfgOp = some c := by rw [h2, hc]
  have hf : q.sealFinish (.cfg .write) m a = if c.digests + 1 < 3 then
      (q.onBoot fun b => { b with cfgOp := some { c with digests := c.digests + 1 } }).sealAsk (.cfg .write)
      else q.onBoot fun b => { b with cfgOp := some { c with digests := c.digests + 1 } } := by
    change q.cfgDigest = _
    unfold State.cfgDigest
    rw [hcq]
  have h3 : State.Eff [.boot] [] q (q.onBoot fun b => { b with cfgOp := some { c with digests := c.digests + 1 } }) := .set (f := .boot) .refl
  have h4 : (q.onBoot fun b => { b with cfgOp := some { c with digests := c.digests + 1 } }).pkg.boot =
    { s.pkg.boot with sealOp := none, cfgOp := some { c with digests := c.digests + 1 } } := by
    change { q.pkg.boot with cfgOp := some { c with digests := c.digests + 1 } } = _
    rw [h2]
  rw [hf]
  generalize (q.onBoot fun b => { b with cfgOp := some { c with digests := c.digests + 1 } }) = u at h3 h4 ⊢
  have hs : u.pkg.boot.sealOp = none := by rw [h4]
  have hsq : u.pkg.boot.sealQ = [] := by rw [h4, hq]
  split
  · obtain ⟨h5, h6, _⟩ := u.sealAsk_of (.cfg .write)
    have h7 := h6 hs
    rw [State.sealNext_idle (by rw [h7, hsq]), h7, h4]
    exact ⟨(h1.stakes.trans h3.stakes).trans h5.stakes, by rw [h5.only.nv, h3.only.nv, h1.only.nv], rfl, rfl⟩
  · rw [State.sealNext_idle hsq]
    exact ⟨h1.stakes.trans h3.stakes, by rw [h3.only.nv, h1.only.nv], by rw [h4], hs⟩

/-- R328, R440: the digest of a copy that is rewritten. -/
theorem sealDone_rewrite {m : List Nat} {a : Bool} {i : Nat} (hq : s.pkg.boot.sealQ = []) (h : s.pkg.boot.sealOp = some (.cfg .rewrite, m))
    (hi : s.pkg.boot.rwOp = some i) :
    ∃ t, exec (.sealOperationDone a) s = .next t ∧ s.stakesKept t ∧ t.pkg.boot.sealOp = none ∧ t.pkg.boot.rwOp = none ∧
      t.pkg.nv = s.pkg.nv.copySteps [i] s.pkg.boot.chosen copyOps ∧ i ∉ t.pkg.boot.rewrite := by
  refine ⟨_, exec_sealDone_eq h nofun nofun nofun, ?_⟩
  obtain ⟨h1, h2⟩ := s.sealDone_of
  generalize s.sealDone = q at h1 h2 ⊢
  have hf : q.sealFinish (.cfg .rewrite) m a = ((q.onNv fun n => n.copySteps [i] q.pkg.boot.chosen copyOps).onBoot fun b =>
      { b with rwOp := none, rewrite := b.rewrite.filter (· ≠ i) }).copySync := by
    change q.rewriteDigest = _
    unfold State.rewriteDigest
    rw [h2, hi]
  have h3 : State.Eff [.nv, .boot] [] q ((q.onNv fun n => n.copySteps [i] q.pkg.boot.chosen copyOps).onBoot fun b =>
      { b with rwOp := none, rewrite := b.rewrite.filter (· ≠ i) }) :=
    .set (f := .boot) (.set (f := .nv) (x := q.pkg.nv.copySteps [i] q.pkg.boot.chosen copyOps) .refl)
  have hn : ((q.onNv fun n => n.copySteps [i] q.pkg.boot.chosen copyOps).onBoot fun b =>
      { b with rwOp := none, rewrite := b.rewrite.filter (· ≠ i) }).pkg.nv = s.pkg.nv.copySteps [i] s.pkg.boot.chosen copyOps := by
    rw [State.onBoot_nv, State.onNv_nv, h1.only.nv, h2]
  have hb : ((q.onNv fun n => n.copySteps [i] q.pkg.boot.chosen copyOps).onBoot fun b =>
      { b with rwOp := none, rewrite := b.rewrite.filter (· ≠ i) }).pkg.boot =
      { s.pkg.boot with sealOp := none, rwOp := none, rewrite := s.pkg.boot.rewrite.filter (· ≠ i) } := by
    change { q.pkg.boot with rwOp := none, rewrite := q.pkg.boot.rewrite.filter (· ≠ i) } = _
    rw [h2]
  rw [hf]
  generalize ((q.onNv fun n => n.copySteps [i] q.pkg.boot.chosen copyOps).onBoot fun b =>
      { b with rwOp := none, rewrite := b.rewrite.filter (· ≠ i) }) = u at h3 hn hb ⊢
  have h4 := u.copySync_eff
  have hb4 := h4.only.boot.trans hb
  rw [State.sealNext_idle (by rw [hb4, hq]), hb4]
  refine ⟨(h1.stakes.trans h3.stakes).trans h4.stakes, rfl, rfl, h4.only.nv.trans hn, ?_⟩
  simp

theorem secRegs_fin (r : Nat) (_ : r < 256) : Reg.SEC_PREFER ∉ finRegs r := by
  simp only [Reg.SEC_PREFER, finRegs, oneRegs, Reg.HIF_RING, Reg.HIF_RING_PTR, Reg.HIF_SUPERSEDED_CNT, Reg.HIF_DELAYED_CNT,
    Reg.HIF_MSIX_PBA, List.mem_cons, List.not_mem_nil, or_false]
  omega

theorem State.ringEn_lt {r : Nat} (h : s.ringEn r = true) : r < 256 := by
  unfold State.ringEn at h
  simp at h
  exact h.1

/-- R433, R440: FW_COMMIT is verified and ends. -/
theorem sealDone_commit {m : List Nat} {a : Bool} {r cid slot : Nat} (hq : s.pkg.boot.sealQ = [])
    (h : s.pkg.boot.sealOp = some (.commit r cid slot, m)) (hsl : slot < 2) (hu : s.underWay r cid) :
    ∃ t, exec (.sealOperationDone a) s = .next t ∧ s.stakesKept t ∧ t.pkg.boot.sealOp = none ∧ t.pkg.boot.staged = [] ∧
      if s.verifySlot slot a ≠ 15 then s.completes t cid 0x32 5 ∧ t.pkg.nv = s.pkg.nv
      else if s.inhibited then s.completes t cid 0x32 4 ∧ t.pkg.nv = s.pkg.nv
      else s.completes t cid 0x32 0 ∧ t.pkg.fld Reg.SEC_PREFER_PREFER = slot ∧ t.pkg.nv = s.pkg.nv.commitSlot slot := by
  refine ⟨_, exec_sealDone_eq h nofun nofun nofun, ?_⟩
  have hv : s.sealDone.verifySlot slot a = s.verifySlot slot a := rfl
  have h1 : State.Eff [.boot] [] s (s.sealDone.onBoot fun b => { b with staged := [] }) :=
    .set (f := .boot) s.sealDone_of.1
  have h2 : (s.sealDone.onBoot fun b => { b with staged := [] }).pkg.boot = { s.pkg.boot with sealOp := none, staged := [] } := rfl
  have hih : (s.sealDone.onBoot fun b => { b with staged := [] }).inhibited = s.inhibited := rfl
  have hu1 := h1.underWay hu fun _ => List.not_mem_nil
  unfold State.sealFinish
  dsimp only
  rw [hv]
  generalize (s.sealDone.onBoot fun b => { b with staged := [] }) = q at h1 h2 hih hu1 ⊢
  rw [hih]
  have hfin : ∀ (st i : Nat) (res : List Nat), let c : Completion := { ring := r, cid := cid, op := 0x32, status := st, info := i, result := res }
      s.stakesKept (q.finish c).sealNext ∧ (q.finish c).sealNext.pkg.boot.sealOp = none ∧ (q.finish c).sealNext.pkg.boot.staged = [] ∧
      s.completes (q.finish c).sealNext cid 0x32 st ∧ (q.finish c).sealNext.pkg.nv = s.pkg.nv := fun st i res => by
    intro c
    have h3 := q.finish_eff c
    have hcp := State.finish_completes (c := c) hu1
    generalize q.finish c = u at h3 hcp ⊢
    have hb := h3.only.boot.trans h2
    rw [State.sealNext_idle (by rw [hb, hq]), hb]
    exact ⟨h1.stakes.trans h3.stakes, rfl, rfl, hcp.of_writes h1.only.writes, by rw [h3.only.nv, h1.only.nv]⟩
  by_cases hc : s.verifySlot slot a = 15
  · rw [if_neg (not_not_intro hc), hc]
    by_cases hin : s.inhibited = true
    · rw [if_pos hin, if_pos (by simp [hin])]
      obtain ⟨h4, h5, h6, h7⟩ := hfin 4 2 (List.replicate 16 0)
      exact ⟨h4, h5, h6, h7⟩
    · rw [if_neg hin, if_neg (by simp [hin]), if_pos rfl]
      have h3 : State.Eff [.nv, .regs] [Reg.SEC_PREFER] q ((q.onNv fun n => n.commitSlot slot).onPkg fun p => p.put Reg.SEC_PREFER_PREFER slot) :=
        .onPkg (.set (f := .nv) (x := q.pkg.nv.commitSlot slot) .refl) (.put .refl)
      have hn3 : ((q.onNv fun n => n.commitSlot slot).onPkg fun p => p.put Reg.SEC_PREFER_PREFER slot).pkg.nv = s.pkg.nv.commitSlot slot := by
        rw [← h1.only.nv]
        rfl
      have hp3 : ((q.onNv fun n => n.commitSlot slot).onPkg fun p => p.put Reg.SEC_PREFER_PREFER slot).pkg.fld Reg.SEC_PREFER_PREFER = slot := by
        rw [State.onPkg_pkg, Pkg.fld_put_same _ _ _ (by decide)]
        exact Nat.mod_eq_of_lt hsl
      have hu3 := h3.underWay hu1 fun hr => by
        simp only [Reg.HIF_RING, Reg.SEC_PREFER, List.mem_cons, List.not_mem_nil, or_false]
        omega
      generalize ((q.onNv fun n => n.commitSlot slot).onPkg fun p => p.put Reg.SEC_PREFER_PREFER slot) = u at h3 hn3 hp3 hu3 ⊢
      have h4 := u.finish_eff { ring := r, cid := cid, op := 0x32, status := 0 }
      have hcp := State.finish_completes (c := { ring := r, cid := cid, op := 0x32, status := 0 }) hu3
      generalize u.finish { ring := r, cid := cid, op := 0x32, status := 0 } = v at h4 hcp ⊢
      have hb := (h4.only.boot.trans h3.only.boot).trans h2
      have hr := State.ringEn_lt hu.1
      rw [State.sealNext_idle (by rw [hb, hq]), hb]
      exact ⟨(h1.stakes.trans h3.stakes).trans h4.stakes, rfl, rfl, (hcp.of_writes h3.only.writes).of_writes h1.only.writes,
        (h4.regs.fld (f := Reg.SEC_PREFER_PREFER) (secRegs_fin r hr)).trans hp3, h4.only.nv.trans hn3⟩
  · rw [if_pos hc, if_neg (by simp [hc]), if_neg hc]
    obtain ⟨h4, h5, h6, h7⟩ := hfin 5 4 (s.verifySlot slot a :: List.replicate 15 0)
    exact ⟨h4, h5, h6, h7⟩

/-- R439, R440: a report is signed and written. -/
theorem sealDone_attest {m : List Nat} {a : Bool} {r cid addr : Nat} {nonce : List Nat} (hq : s.pkg.boot.sealQ = [])
    (h : s.pkg.boot.sealOp = some (.attest r cid addr nonce, m)) (hu : s.underWay r cid) :
    ∃ t, exec (.sealOperationDone a) s = .next t ∧ s.stakesKept t ∧ t.pkg.boot.sealOp = none ∧ t.pkg.nv = s.pkg.nv ∧
        s.completes t cid 0x45 0 ∧ ∃ sig, sig.length = 1280 ∧ (addr, m ++ sig) ∈ t.pkg.host.writes.drop s.pkg.host.writes.length := by
  refine ⟨_, exec_sealDone_eq h nofun nofun nofun, ?_⟩
  obtain ⟨h1, h2⟩ := s.sealDone_of
  have hu1 := h1.underWay hu fun _ => List.not_mem_nil
  generalize s.sealDone = q at h1 h2 hu1 ⊢
  unfold State.sealFinish
  dsimp only
  have hsl : ((Config.falconSign q.pkg.nv.sealedKey m ++ List.replicate 1280 0).take 1280).length = 1280 := by
    rw [List.length_take, List.length_append, List.length_replicate]
    exact Nat.min_eq_left (Nat.le_add_left _ _)
  generalize (Config.falconSign q.pkg.nv.sealedKey m ++ List.replicate 1280 0).take 1280 = sig at hsl ⊢
  have h3 : State.Eff [.writes] [] q (q.hostWrite addr (m ++ sig)) := .hostWrite .refl
  have hw : (q.hostWrite addr (m ++ sig)).pkg.host.writes = s.pkg.host.writes ++ [(addr, m ++ sig)] := by
    rw [← h1.only.writes]
    rfl
  have hu3 := h3.underWay hu1 fun _ => List.not_mem_nil
  generalize q.hostWrite addr (m ++ sig) = u at h3 hw hu3 ⊢
  have h4 := u.finish_eff { ring := r, cid := cid, op := 0x45, status := 0 }
  obtain ⟨ad, e, hm, he⟩ := State.finish_completes (c := { ring := r, cid := cid, op := 0x45, status := 0 }) hu3
  generalize u.finish { ring := r, cid := cid, op := 0x45, status := 0 } = v at h4 hm ⊢
  have hb := (h4.only.boot.trans h3.only.boot).trans h2
  rw [State.sealNext_idle (by rw [hb, hq]), hb]
  refine ⟨(h1.stakes.trans h3.stakes).trans h4.stakes, rfl, by rw [h4.only.nv, h3.only.nv, h1.only.nv], ⟨ad, e, ?_, he⟩, sig, hsl, ?_⟩
  · rw [hw, List.length_append] at hm
    rw [← List.drop_drop] at hm
    exact List.mem_of_mem_drop hm
  · exact List.IsPrefix.mem_drop (hw ▸ h4.writes)

theorem State.pkgWrite_of_admits {src : Src} {off : Nat} {w : Reg32} (h : s.pkgAdmits src off w) (f : State → State) :
    s.pkgWrite src off w f = f s := by
  obtain ⟨h1, h2, h3⟩ := h
  unfold State.pkgWrite
  rw [if_neg (ne_true_of_eq_false h1), if_neg (ne_true_of_eq_false h2)]
  split
  · next x hx => exact if_pos (h3 x hx)
  · rfl

/-- R423, R437: a refused enrolment. -/
theorem State.secRefuse_of (s : State) {c : Nat} (hc : c < 16) : (s.secRefuse c).pkg.nv = s.pkg.nv ∧
    (s.secRefuse c).pkg.fld Reg.SEC_CMD_STATUS_CAUSE = c ∧ (s.secRefuse c).pkg.flag Reg.SEC_CMD_STATUS_CFG_REFUSED = true ∧
    s.posted (s.secRefuse c) .secCfgRefused 0 [c] := by
  unfold State.secRefuse
  have h1 : (s.onPkg fun p => (p.putB Reg.SEC_CMD_STATUS_CFG_REFUSED true).put Reg.SEC_CMD_STATUS_CAUSE c).pkg.fld
      Reg.SEC_CMD_STATUS_CAUSE = c := by
    rw [State.onPkg_pkg, Pkg.fld_put_same _ _ _ (by decide)]
    exact Nat.mod_eq_of_lt hc
  have h2 : (s.onPkg fun p => (p.putB Reg.SEC_CMD_STATUS_CFG_REFUSED true).put Reg.SEC_CMD_STATUS_CAUSE c).pkg.flag
      Reg.SEC_CMD_STATUS_CFG_REFUSED = true := by
    rw [State.onPkg_pkg, Pkg.flag, Pkg.fld_put_ne _ _ _ _ (by decide)]
    exact Pkg.flag_putB_same _ _ _ (by decide) rfl
  have hp : Pkg.Only [.regs] s.pkg ((s.pkg.putB Reg.SEC_CMD_STATUS_CFG_REFUSED true).put Reg.SEC_CMD_STATUS_CAUSE c) := .put (.putB .refl)
  have h3 : Pkg.Only [.regs] s.pkg (s.onPkg fun p => (p.putB Reg.SEC_CMD_STATUS_CFG_REFUSED true).put Reg.SEC_CMD_STATUS_CAUSE c).pkg := hp
  generalize (s.onPkg fun p => (p.putB Reg.SEC_CMD_STATUS_CFG_REFUSED true).put Reg.SEC_CMD_STATUS_CAUSE c) = q at h1 h2 h3 ⊢
  have hk := State.postPkg_regsKept q .secCfgRefused 0 [c]
  exact ⟨by rw [State.postPkg_pkg_nv, h3.nv], (hk.fld (f := Reg.SEC_CMD_STATUS_CAUSE)).trans h1,
    (hk.flag (f := Reg.SEC_CMD_STATUS_CFG_REFUSED)).trans h2, State.posted_of h3.evq h3.eseq (State.postPkg_posted _ _ _ _)⟩

theorem State.enrolCause_lt (s : State) : s.enrolCause < 16 := by
  unfold State.enrolCause
  dsimp only
  split_ifs <;> decide

/-- R436: an advance that is deferred. -/
theorem State.otpDefer_of (s : State) : s.stakesKept s.otpDefer ∧ s.otpDefer.pkg.nv = s.pkg.nv ∧
    s.otpDefer.pkg.boot.otpJobs = s.pkg.boot.otpJobs := by
  unfold State.otpDefer
  extract_lets q
  have h1 : s.stakesKept q := ⟨rfl, rfl, rfl⟩
  have h2 : q.pkg.nv = s.pkg.nv := rfl
  have h3 : q.pkg.boot.otpJobs = s.pkg.boot.otpJobs := rfl
  clear_value q
  split
  · exact ⟨h1, h2, h3⟩
  · refine ⟨h1.trans ⟨State.postPkg_zero_stakes _ _ _, State.postPkg_part _ _ _ _, State.postPkg_pending _ _ _ _⟩, ?_, ?_⟩
    · rw [State.postPkg_pkg_nv]
      exact h2
    · rw [State.postPkg_pkg_boot]
      exact h3

/-- R436, R437: the first job is begun, or waits. -/
theorem State.otpBegin_of {j : OtpJob} {l : List OtpJob} (h : s.pkg.boot.otpJobs = j :: l) : s.stakesKept s.otpBegin ∧
    s.otpBegin.pkg.nv = s.pkg.nv ∧ ∃ x, s.otpBegin.pkg.boot.otpJobs = { j with due := x } :: l := by
  unfold State.otpBegin
  rw [h]
  dsimp -zeta only
  extract_lets set
  have hset : ∀ x, s.stakesKept (set s x) ∧ (set s x).pkg.nv = s.pkg.nv ∧ (set s x).pkg.boot.otpJobs = { j with due := x } :: l :=
    fun x => ⟨⟨rfl, rfl, rfl⟩, rfl, rfl⟩
  clear_value set
  by_cases he : j.enrol = true
  · rw [if_pos he, if_pos he]
    split
    · obtain ⟨h1, h2, h3⟩ := hset none
      exact ⟨h1, h2, _, h3⟩
    · obtain ⟨h1, h2, h3⟩ := hset (some (s.time + otpTime))
      exact ⟨h1, h2, _, h3⟩
  · rw [if_neg he, if_neg he]
    split
    · obtain ⟨h1, h2, h3⟩ := hset none
      obtain ⟨h4, h5, h6⟩ := (set s none).otpDefer_of
      exact ⟨h1.trans h4, h5.trans h2, _, h6.trans h3⟩
    · obtain ⟨h1, h2, h3⟩ := hset (some (s.time + otpTime))
      exact ⟨h1, h2, _, h3⟩

theorem State.otpBegin_nil (h : s.pkg.boot.otpJobs = []) : s.otpBegin = s := by
  unfold State.otpBegin
  rw [h]

/-- R437: bits are asked for. -/
theorem State.otpAsk_of (s : State) (j : OtpJob) : s.stakesKept (s.otpAsk j) ∧ (s.otpAsk j).pkg.nv = s.pkg.nv ∧
    ∃ x, (s.otpAsk j).pkg.boot.otpJobs = s.pkg.boot.otpJobs ++ [{ j with due := x }] := by
  unfold State.otpAsk
  extract_lets q
  have h1 : s.stakesKept q := ⟨rfl, rfl, rfl⟩
  have h2 : q.pkg.nv = s.pkg.nv := rfl
  have h3 : q.pkg.boot.otpJobs = s.pkg.boot.otpJobs ++ [j] := rfl
  clear_value q
  split
  · next hl =>
    have h0 : s.pkg.boot.otpJobs = [] := by
      rw [h3, List.length_append, List.length_singleton] at hl
      exact List.length_eq_zero_iff.mp (by omega)
    rw [h0, List.nil_append] at h3
    obtain ⟨h4, h5, x, h6⟩ := State.otpBegin_of h3
    exact ⟨h1.trans h4, h5.trans h2, x, by rw [h6, h0, List.nil_append]⟩
  · exact ⟨h1, h2, j.due, h3⟩

/-- R437: SEC_ENROLL. -/
theorem secEnroll_of {src : Src} {w : Reg32} (ha : s.pkgAdmits src Reg.SEC_ENROLL w) :
    let c := s.enrolCause
    ∃ t, exec (.secEnroll src w) s = .next t ∧
      if w.toNat % 65536 ≠ 0x3C5A then t = s
      else if c = 0 then t.pkg.nv = s.pkg.nv ∧ s.stakesKept t ∧
        ∃ j, t.pkg.boot.otpJobs = s.pkg.boot.otpJobs ++ [j] ∧ j.bits = enrolBits s.enrolDigest ∧ j.enrol = true
      else t.pkg.nv = s.pkg.nv ∧ t.pkg.fld Reg.SEC_CMD_STATUS_CAUSE = c ∧ t.pkg.flag Reg.SEC_CMD_STATUS_CFG_REFUSED = true ∧
        s.posted t .secCfgRefused 0 [c] := by
  intro c
  have he : exec (.secEnroll src w) s = .next (s.wEnroll w) := congrArg Host.Outcome.next (State.pkgWrite_of_admits ha _)
  refine ⟨_, he, ?_⟩
  unfold State.wEnroll
  split
  · rfl
  · by_cases hc : c = 0
    · rw [if_pos hc, if_neg (not_not_intro hc)]
      obtain ⟨h1, h2, x, h3⟩ := s.otpAsk_of { bits := enrolBits s.enrolDigest, due := none, enrol := true, old := 0 }
      exact ⟨h2, h1, _, h3, rfl, rfl⟩
    · rw [if_neg hc, if_pos hc]
      exact s.secRefuse_of s.enrolCause_lt

/-- R436, R437: the tick at which a bit is blown. -/
theorem State.tickOtp_of {j : OtpJob} {at_ b : Nat} {bs : List Nat} (hj : s.pkg.boot.otpJobs = [j]) (hd : j.due = some at_)
    (hb : j.bits = b :: bs) (ht : at_ ≤ s.time) : s.tickOtp.pkg.nv = s.pkg.nv.blow b ∧ s.stakesKept s.tickOtp ∧
      (bs ≠ [] → ∃ j', s.tickOtp.pkg.boot.otpJobs = [j'] ∧ j'.bits = bs) ∧
      (bs = [] → s.tickOtp.pkg.boot.otpJobs = [] ∧ (j.enrol = true → s.posted s.tickOtp .secEnrolled 0 [])) := by
  unfold State.tickOtp
  rw [hj]
  dsimp only
  rw [hd, hb]
  dsimp only
  rw [if_neg (by omega)]
  have h1 : s.stakesKept ((s.onNv fun n => n.blow b).onPkg fun p =>
    (p.put Reg.SEC_ROLLBACK_COUNTER p.nv.counter).putB Reg.SEC_BOOT_STATUS_ENROLLED p.nv.enrolled) := ⟨rfl, rfl, rfl⟩
  have h2 : ((s.onNv fun n => n.blow b).onPkg fun p =>
    (p.put Reg.SEC_ROLLBACK_COUNTER p.nv.counter).putB Reg.SEC_BOOT_STATUS_ENROLLED p.nv.enrolled).pkg.nv = s.pkg.nv.blow b := rfl
  have h3 : ((s.onNv fun n => n.blow b).onPkg fun p =>
    (p.put Reg.SEC_ROLLBACK_COUNTER p.nv.counter).putB Reg.SEC_BOOT_STATUS_ENROLLED p.nv.enrolled).pkg.evq = s.pkg.evq := rfl
  have h4 : ((s.onNv fun n => n.blow b).onPkg fun p =>
    (p.put Reg.SEC_ROLLBACK_COUNTER p.nv.counter).putB Reg.SEC_BOOT_STATUS_ENROLLED p.nv.enrolled).pkg.eseq = s.pkg.eseq := rfl
  generalize ((s.onNv fun n => n.blow b).onPkg fun p =>
    (p.put Reg.SEC_ROLLBACK_COUNTER p.nv.counter).putB Reg.SEC_BOOT_STATUS_ENROLLED p.nv.enrolled) = q at h1 h2 h3 h4 ⊢
  cases bs with
  | nil =>
    dsimp only
    have hq1 : s.stakesKept (q.onBoot fun x => { x with otpJobs := [] }) := h1
    have hq2 : (q.onBoot fun x => { x with otpJobs := [] }).pkg.nv = s.pkg.nv.blow b := h2
    have hq3 : (q.onBoot fun x => { x with otpJobs := [] }).pkg.boot.otpJobs = [] := rfl
    have hq4 : (q.onBoot fun x => { x with otpJobs := [] }).pkg.evq = s.pkg.evq := h3
    have hq5 : (q.onBoot fun x => { x with otpJobs := [] }).pkg.eseq = s.pkg.eseq := h4
    generalize (q.onBoot fun x => { x with otpJobs := [] }) = u at hq1 hq2 hq3 hq4 hq5 ⊢
    have hpost : ∀ e v, s.stakesKept (u.postPkg e 0 v) ∧ (u.postPkg e 0 v).pkg.nv = s.pkg.nv.blow b ∧
        (u.postPkg e 0 v).pkg.boot.otpJobs = [] := fun e v =>
      ⟨hq1.trans ⟨State.postPkg_zero_stakes _ _ _, State.postPkg_part _ _ _ _, State.postPkg_pending _ _ _ _⟩,
        (State.postPkg_pkg_nv _ _ _ _).trans hq2, by rw [State.postPkg_pkg_boot, hq3]⟩
    cases hen : j.enrol with
    | true =>
      have hdone : u.otpDone j = u.postPkg .secEnrolled 0 := by
        unfold State.otpDone
        rw [hen]
        rfl
      obtain ⟨h5, h6, h7⟩ := hpost .secEnrolled []
      rw [hdone, State.otpBegin_nil h7]
      exact ⟨h6, h5, fun h => absurd rfl h, fun _ => ⟨h7, fun _ => State.posted_of hq4 hq5 (State.postPkg_posted _ _ _ _)⟩⟩
    | false =>
      have hdone : u.otpDone j = u.postPkg .secRollbackAdvance 0 [j.old, u.pkg.nv.counter] := by
        unfold State.otpDone
        rw [hen]
        rfl
      obtain ⟨h5, h6, h7⟩ := hpost .secRollbackAdvance [j.old, u.pkg.nv.counter]
      rw [hdone, State.otpBegin_nil h7]
      exact ⟨h6, h5, fun h => absurd rfl h, fun _ => ⟨h7, nofun⟩⟩
  | cons b' bs =>
    dsimp only
    have hq1 : s.stakesKept (q.onBoot fun x => { x with otpJobs := [⟨b' :: bs, some at_, j.enrol, j.old⟩] }) := h1
    have hq2 : (q.onBoot fun x => { x with otpJobs := [⟨b' :: bs, some at_, j.enrol, j.old⟩] }).pkg.nv = s.pkg.nv.blow b := h2
    have hq3 : (q.onBoot fun x => { x with otpJobs := [⟨b' :: bs, some at_, j.enrol, j.old⟩] }).pkg.boot.otpJobs =
      [⟨b' :: bs, some at_, j.enrol, j.old⟩] := rfl
    generalize (q.onBoot fun x => { x with otpJobs := [⟨b' :: bs, some at_, j.enrol, j.old⟩] }) = u at hq1 hq2 hq3 ⊢
    obtain ⟨h5, h6, x, h7⟩ := State.otpBegin_of hq3
    refine ⟨h6.trans hq2, ?_, ?_, ?_⟩
    · exact hq1.trans h5
    · exact fun _ => ⟨_, h7, rfl⟩
    · exact nofun

/-- R442: the words of a challenge. -/
def Pkg.drawn (p : Pkg) (l : List Nat) (fresh : Nat) : Pkg :=
  l.foldl (fun q i => q.wr (Reg.SEC_CHALLENGE i) (BitVec.ofNat 32 (Config.freePkg (fresh + i)))) p

theorem State.drawChallenge_eq (s : State) : s.drawChallenge =
    s.onPkg fun p => { p.drawn (List.range 8) p.fresh with fresh := p.fresh + 8 } := rfl

theorem Pkg.drawn_of {l : List Nat} (fresh : Nat) (p : Pkg) (hl : ∀ i ∈ l, i ∈ List.range 8) : Pkg.Only [.regs] p (p.drawn l fresh) ∧
    p.regsKept (p.drawn l fresh) ((List.range 8).map Reg.SEC_CHALLENGE) := by
  induction l generalizing p with
  | nil => exact ⟨.refl, .refl⟩
  | cons i l ih =>
    obtain ⟨h1, h2⟩ := ih (p.wr (Reg.SEC_CHALLENGE i) (BitVec.ofNat 32 (Config.freePkg (fresh + i)))) fun x hx => hl x (List.mem_cons_of_mem _ hx)
    exact ⟨(Pkg.Only.refl.wr).trans h1, (Pkg.regsKept.refl.wr (List.mem_map_of_mem (hl i List.mem_cons_self))).trans h2⟩

/-- R442: a challenge drawn. -/
theorem State.drawChallenge_of (s : State) : s.stakesKept s.drawChallenge ∧ s.drawChallenge.pkg.boot = s.pkg.boot ∧
    s.pkg.regsKept s.drawChallenge.pkg ((List.range 8).map Reg.SEC_CHALLENGE) := by
  obtain ⟨h1, h2⟩ := s.pkg.drawn_of (l := List.range 8) s.pkg.fresh fun _ h => h
  rw [State.drawChallenge_eq]
  have hk : Pkg.Only [.fresh] (s.pkg.drawn (List.range 8) s.pkg.fresh)
    (s.onPkg fun p => { p.drawn (List.range 8) p.fresh with fresh := p.fresh + 8 }).pkg := Pkg.Only.refl.set (f := .fresh)
  have hs : s.stakesKept (s.onPkg fun p => { p.drawn (List.range 8) p.fresh with fresh := p.fresh + 8 }) := ⟨rfl, rfl, rfl⟩
  generalize (s.onPkg fun p => { p.drawn (List.range 8) p.fresh with fresh := p.fresh + 8 }) = u at hk hs ⊢
  exact ⟨hs, hk.boot.trans h1.boot, h2.trans (.of_only hk)⟩

/-- R442: SUBMIT. -/
theorem State.wUnlock_of (s : State) (w : Reg32) : s.stakesKept (s.wUnlock w) ∧
    (w.getLsbD 0 = false ∨ s.pkg.boot.phase ≠ .testWait → s.wUnlock w = s) ∧
    (w.getLsbD 0 = true → s.pkg.boot.phase = .testWait → s.pkg.boot.erasing = false →
      ((s.wUnlock w).pkg.fld Reg.SEC_UNLOCK_CTRL_RESULT = 1 ∧ (s.wUnlock w).pkg.boot.erasing = true) ∨
      ((s.wUnlock w).pkg.fld Reg.SEC_UNLOCK_CTRL_RESULT = 2 ∧ (s.wUnlock w).pkg.boot.erasing = false)) := by
  have hput : ∀ v, v < 4 → (s.onPkg fun p => p.put Reg.SEC_UNLOCK_CTRL_RESULT v).pkg.fld Reg.SEC_UNLOCK_CTRL_RESULT = v := fun v hv => by
    rw [State.onPkg_pkg, Pkg.fld_put_same _ _ _ (by decide)]
    exact Nat.mod_eq_of_lt hv
  unfold State.wUnlock
  split
  · next h =>
    refine ⟨s.stakesKept_refl, fun _ => rfl, fun h0 h1 h2 => ?_⟩
    exact absurd h (by rw [h0, h1, h2]; decide)
  · next h =>
    simp only [Bool.or_eq_true, Bool.not_eq_true', decide_eq_true_eq, not_or, Bool.not_eq_false, not_not] at h
    obtain ⟨⟨h0, h1⟩, h2⟩ := h
    have hno : ¬(w.getLsbD 0 = false ∨ s.pkg.boot.phase ≠ .testWait) := by simp [h0, h1]
    extract_lets msg sig
    split
    · exact ⟨⟨rfl, rfl, rfl⟩, fun h => absurd h hno, fun _ _ _ => .inl ⟨hput 1 (by decide), rfl⟩⟩
    · obtain ⟨h3, h4, h5⟩ := (s.onPkg fun p => p.put Reg.SEC_UNLOCK_CTRL_RESULT 2).drawChallenge_of
      refine ⟨h3, fun h => absurd h hno, fun _ _ he => .inr ⟨?_, ?_⟩⟩
      · rw [h5.fld (f := Reg.SEC_UNLOCK_CTRL_RESULT)]
        exact hput 2 (by decide)
      · rw [h4]
        exact he

end

/-- Settles O60: each descriptor is refused or begins, each end completes it, and the OTP is blown bit by bit. -/
theorem sealAndStore : Obligations.SealAndStore := by
  unfold Obligations.SealAndStore
  refine ⟨fun s q r data pr d h hu => cfgWrite_of h hu, fun s mask writes op hc h3 hh hu hw =>
      ⟨_, exec_cfgWriteDone_eq hc h3 hh, State.cfgWritten_of hu hw⟩, fun s q r data d h hu => ?_, fun s ok op hf hr hu => ?_,
    fun s q r d h hu => ?_, fun s q r d h hu => ?_, fun s m a hq => ⟨fun c h hc hr => sealDone_cfgWrite hq h hc hr,
      fun i h hi => sealDone_rewrite hq h hi, fun r cid slot h hsl hu => sealDone_commit hq h hsl hu,
      fun r cid addr nonce h hu => sealDone_attest hq h hu⟩, fun s src w ha => secEnroll_of ha,
    fun s j at_ b bs hj hd hb ht => State.tickOtp_of hj hd hb ht, fun s src w ha => ?_, fun s he hi => ?_⟩
  · obtain ⟨hr, ho, he, huw⟩ := State.takeDesc_taken h
    refine ⟨_, exec_fwStage_eq h, ?_⟩
    have hu' := huw _ hu
    rw [← he.only.nv, ← he.only.asked]
    cases q.bulkRefusal d q.flashBusy (some (nth 0 d.body 24)) with
    | some x =>
      obtain ⟨st, i⟩ := x
      obtain ⟨h1, h2, h3⟩ := State.refused_of (st := st) (i := i) ⟨hr, ho⟩ hu'
      exact ⟨h1, by rw [h2.nv], h3, h2.nv⟩
    | none =>
      obtain ⟨h1, h2, h3, h4, h5⟩ := q.stageBegin_of r d data
      obtain ⟨h6, h7⟩ := q.pkg.nv.stageErase_of (nth 0 d.body 24) (leOf d.body 20 4) (leOf d.body 16 4)
        (!q.pkg.boot.staged.contains (nth 0 d.body 24))
      exact ⟨h1, by rw [h2]; exact h6, h3, h4, h5, by rw [h2]; exact h7⟩
  · refine ⟨_, exec_fwStageDone_eq hf hr, ?_⟩
    obtain ⟨h1, h2, h3⟩ := s.stageEnd_of op ok
    have hu1 := h1.underWay hu fun _ => List.not_mem_nil
    generalize s.stageEnd op ok = q at h1 h2 h3 hu1 ⊢
    have h4 := q.finish_eff
      { ring := op.ring, cid := op.cid, op := 0x31, status := if ok then 0 else 11, info := if ok then 0 else 1 }
    refine ⟨h1.stakes.trans h4.stakes, by rw [h4.only.boot, h2], (State.finish_completes hu1).of_writes h1.only.writes, fun hok j w hj => ?_⟩
    rw [h4.only.nv, h3 hok]
    exact (programFold_get _ _ _).2 j w hj
  · obtain ⟨hr, ho, he, huw⟩ := State.takeDesc_taken h
    refine ⟨_, exec_fwCommit_eq h, ?_⟩
    have hu' := huw _ hu
    rw [← he.only.nv, ← he.only.boot]
    cases q.bulkRefusal d q.flashBusy (some (nth 0 d.body 8)) with
    | some x =>
      obtain ⟨st, i⟩ := x
      obtain ⟨h1, h2, h3⟩ := State.refused_of (st := st) (i := i) ⟨hr, ho⟩ hu'
      exact ⟨h1, h2.nv, h3⟩
    | none =>
      obtain ⟨h1, h2, h3⟩ := q.sealAsk_of (.commit r d.cid (nth 0 d.body 8))
      refine ⟨h1.stakes, h1.only.nv, ?_⟩
      dsimp only
      split
      · next hn => rw [h2 hn]
      · next hn => rw [h3 hn]
  · obtain ⟨hr, ho, he, huw⟩ := State.takeDesc_taken h
    refine ⟨_, exec_attest_eq h, ?_⟩
    have hu' := huw _ hu
    rw [← he.only.nv, ← he.only.boot]
    split
    · next hl =>
      obtain ⟨h1, h2, h3⟩ := State.refused_of (st := 7) (i := 16) ⟨hr, ho⟩ hu'
      exact ⟨h1, h2.nv, fun _ => h3, fun h => absurd h (by omega)⟩
    · next hl =>
      obtain ⟨h1, h2, h3⟩ := q.sealAsk_of (.attest r d.cid (leOf d.body 8 8) ((d.body.drop 20).take 32))
      refine ⟨h1.stakes, h1.only.nv, fun h => absurd h hl, fun _ => ?_⟩
      split
      · next hn => exact ⟨_, by rw [h2 hn], q.report_take _⟩
      · next hn => rw [h3 hn]
  · have he : exec (.unlockSubmit src w) s = .next (s.wUnlock w) := congrArg Host.Outcome.next (State.pkgWrite_of_admits ha _)
    exact ⟨_, he, s.wUnlock_of w⟩
  · have hx : exec .unlockEraseDone s = .next (((s.onNv fun n => { n with envm := updAt n.envm 0 fun _ => [], badLines := [] }).onBoot
        fun b => { b with erasing := false, phase := .test }).onPkg fun p => p.put Reg.SEC_BOOT_STATUS_STATE 4) :=
      congrArg Host.Outcome.next (if_neg (by simp [he, State.inhibited, hi]))
    refine ⟨_, hx, ⟨rfl, rfl, rfl⟩, rfl, rfl, rfl, ?_⟩
    rw [State.onPkg_pkg, Pkg.fld_put_same _ _ _ (by decide)]
    rfl

end Sys2Proof.Machine

/-! What the operations of the CAN controllers change (R380 to R394). -/
namespace Sys2Proof.Machine
set_option Elab.async false

/-- A change by a CAN controller: of the stakes, no other than stake 1, of which the time and the angle state stay; of the registers of the
package, those listed. -/
structure State.Can (l : List Nat) (s t : State) : Prop where
  others : ∀ m, m ≠ 1 → t.stake m = s.stake m
  ang : (t.stake 1).ang = (s.stake 1).ang
  now : (t.stake 1).now = (s.stake 1).now
  regs : s.pkg.regsKept t.pkg l

namespace State.Can
variable {l l' : List Nat} {s t u : State}

theorem refl : Can l s s := ⟨fun _ _ => rfl, rfl, rfl, .refl⟩
theorem trans (h : Can l s t) (h' : Can l t u) : Can l s u :=
  ⟨fun m hm => (h'.others m hm).trans (h.others m hm), h'.ang.trans h.ang, h'.now.trans h.now, h.regs.trans h'.regs⟩
theorem mono (h : Can l' s t) (hl : l' ⊆ l) : Can l s t := ⟨h.others, h.ang, h.now, h.regs.mono hl⟩
theorem ite {c : Prop} [Decidable c] (h : Can l s t) (h' : Can l s u) : Can l s (if c then t else u) := by split <;> assumption
theorem onPkg (h : Can l s t) {f : Pkg → Pkg} (hf : t.pkg.regsKept (f t.pkg) l) : Can l s (t.onPkg f) :=
  ⟨h.others, h.ang, h.now, h.regs.trans hf⟩
theorem onNet (h : Can l s t) {f : NetSt → NetSt} : Can l s (t.onNet f) := ⟨h.others, h.ang, h.now, h.regs.trans fun _ _ => rfl⟩
theorem onCan (h : Can l s t) {c : Nat} {f : CanSt → CanSt} : Can l s (t.onCan c f) := h.onNet
theorem of_eff {m : List PkgPart} (h : State.Eff m l s t) : Can l s t :=
  ⟨fun n _ => h.stakes.stake n, by rw [h.stakes.stake], by rw [h.stakes.stake], h.regs⟩
theorem onStake (h : Can l s t) {f : Stake → Stake} {m : List StakePart} (hf : ∀ k, Stake.Only m k (f k))
    (hm : StakePart.ang ∉ m ∧ StakePart.now ∉ m := by decide) : Can l s (t.onStake 1 f) := by
  have h1 : ((t.onStake 1 f).stake 1).ang = (t.stake 1).ang ∧ ((t.onStake 1 f).stake 1).now = (t.stake 1).now := by
    by_cases hp : t.present 1 = true
    · rw [State.onStake_stake_same hp]
      exact ⟨(hf _).ang hm.1, (hf _).now hm.2⟩
    · unfold State.onStake
      rw [if_neg hp]
      exact ⟨rfl, rfl⟩
  refine ⟨fun n hn => (t.onStake_stake_ne hn f).trans (h.others n hn), h1.1.trans h.ang, h1.2.trans h.now, ?_⟩
  rw [State.onStake_pkg]
  exact h.regs
theorem post (h : Can l s t) {e : Ev} {v : List Nat} : Can l s (t.onStake 1 fun k => k.post e 0 v) :=
  h.onStake (m := [.regs, .out, .prt, .fe]) fun _ => .mono (.post .refl) (List.Subset.refl _)
end State.Can

section
variable {s t : State} {c i : Nat}

/-- R393: the counts and the state of a controller as they are written. -/
def Pkg.canCounts (p : Pkg) (c tec rec st : Nat) : Pkg :=
  ((p.put (Reg.CAN_STATUS_TEC c) tec).put (Reg.CAN_STATUS_REC c) rec).put (Reg.CAN_STATUS_STATE c) st

theorem Pkg.canCounts_of (p : Pkg) (c : Nat) {tec rec st : Nat} (ht : tec < 512) (hr : rec < 256) (hs : st < 4) :
    (p.canCounts c tec rec st).fld (Reg.CAN_STATUS_TEC c) = tec ∧ (p.canCounts c tec rec st).fld (Reg.CAN_STATUS_REC c) = rec ∧
      (p.canCounts c tec rec st).fld (Reg.CAN_STATUS_STATE c) = st ∧ p.regsKept (p.canCounts c tec rec st) [Reg.CAN_STATUS c] ∧
      Pkg.Only [.regs] p (p.canCounts c tec rec st) := by
  unfold Pkg.canCounts
  have ha : (Reg.CAN_STATUS_TEC c).off ∈ [Reg.CAN_STATUS c] := List.mem_singleton.mpr rfl
  have hb : (Reg.CAN_STATUS_REC c).off ∈ [Reg.CAN_STATUS c] := List.mem_singleton.mpr rfl
  have hc : (Reg.CAN_STATUS_STATE c).off ∈ [Reg.CAN_STATUS c] := List.mem_singleton.mpr rfl
  have hk := ((Pkg.regsKept.refl (p := p) |>.put (v := tec) ha).put (v := rec) hb).put (v := st) hc
  refine ⟨?_, ?_, ?_, hk, .put (.put (.put .refl))⟩
  · rw [Pkg.fld_put_ne _ _ _ _ (.inr (.inr (by change 8 + 9 ≤ 30; decide))),
      Pkg.fld_put_ne _ _ _ _ (.inr (.inl (by change 0 + 8 ≤ 8; decide))), Pkg.fld_put_same _ _ _ (by change 8 + 9 ≤ 32; decide)]
    exact Nat.mod_eq_of_lt ht
  · rw [Pkg.fld_put_ne _ _ _ _ (.inr (.inr (by change 0 + 8 ≤ 30; decide))), Pkg.fld_put_same _ _ _ (by change 0 + 8 ≤ 32; decide)]
    exact Nat.mod_eq_of_lt hr
  · rw [Pkg.fld_put_same _ _ _ (by change 30 + 2 ≤ 32; decide)]
    exact Nat.mod_eq_of_lt hs

/-- R393: the state that error counts stand for. -/
def canNew (tec rec : Nat) : Nat := if 255 < tec then 2 else if 127 < tec || 127 < rec then 1 else 0

theorem canNew_lt (tec rec : Nat) : canNew tec rec < 3 := by
  unfold canNew
  split_ifs <;> decide

def State.canSet (s : State) (c tec rec : Nat) : State := s.onPkg fun p =>
  p.canCounts c (min tec 511) (min rec 255) (if s.pkg.fld (Reg.CAN_STATUS_STATE c) = 2 then 2 else canNew tec rec)

theorem State.canErr_eq (s : State) (c tec rec : Nat) : s.canErr c tec rec =
    if s.pkg.fld (Reg.CAN_STATUS_STATE c) = 2 || canNew tec rec = s.pkg.fld (Reg.CAN_STATUS_STATE c) then s.canSet c tec rec
    else if canNew tec rec = 2 then
      ((s.canSet c tec rec).onPkg fun p => p.bump (Reg.CAN_BUSOFF_CNT c)).onStake 1 fun k => k.post .canBusOff 0 [c]
    else if canNew tec rec = 1 then (s.canSet c tec rec).onStake 1 fun k => k.post .canErrPassive 0 [tec, rec]
    else s.canSet c tec rec := rfl

/-- The registers that error counts may change. -/
def errRegs (c : Nat) : List Nat := [Reg.CAN_STATUS c, Reg.CAN_BUSOFF_CNT c]

theorem State.canSet_of (s : State) (c tec rec : Nat) : (s.canSet c tec rec).canTec c = min tec 511 ∧ (s.canSet c tec rec).canRec c = min rec 255 ∧
    (s.canSet c tec rec).pkg.fld (Reg.CAN_STATUS_STATE c) = (if s.pkg.fld (Reg.CAN_STATUS_STATE c) = 2 then 2 else canNew tec rec) ∧
    s.pkg.regsKept (s.canSet c tec rec).pkg [Reg.CAN_STATUS c] ∧ Pkg.Only [.regs] s.pkg (s.canSet c tec rec).pkg ∧
    s.stakesKept (s.canSet c tec rec) := by
  have hst : (if s.pkg.fld (Reg.CAN_STATUS_STATE c) = 2 then 2 else canNew tec rec) < 4 := by
    have := canNew_lt tec rec
    split <;> omega
  obtain ⟨h1, h2, h3, h4, h5⟩ := s.pkg.canCounts_of c (tec := min tec 511) (rec := min rec 255) (by omega) (by omega) hst
  exact ⟨h1, h2, h3, h4, h5, rfl, rfl, rfl⟩

theorem busoff_ne (c : Nat) : Reg.CAN_STATUS c ∉ [Reg.CAN_BUSOFF_CNT c] := by
  simp only [Reg.CAN_STATUS, Reg.CAN_BUSOFF_CNT, List.mem_cons, List.not_mem_nil, or_false]
  omega

/-- R393: what error counts change. -/
theorem State.canErr_of (s : State) (c tec rec : Nat) : State.Can (errRegs c) s (s.canErr c tec rec) ∧
    (s.canErr c tec rec).canTec c = min tec 511 ∧ (s.canErr c tec rec).canRec c = min rec 255 ∧
    (s.canErr c tec rec).pkg.fld (Reg.CAN_STATUS_STATE c) = (if s.pkg.fld (Reg.CAN_STATUS_STATE c) = 2 then 2 else canNew tec rec) ∧
    Pkg.Only [.regs] s.pkg (s.canErr c tec rec).pkg := by
  obtain ⟨h1, h2, h3, h4, h5, h6⟩ := s.canSet_of c tec rec
  have h7 : State.Can (errRegs c) s (s.canSet c tec rec) :=
    ⟨fun n _ => h6.stake n, by rw [h6.stake], by rw [h6.stake], h4.mono (List.cons_subset_cons _ (List.nil_subset _))⟩
  rw [State.canErr_eq]
  generalize s.canSet c tec rec = q at h1 h2 h3 h4 h5 h7 ⊢
  have hb : State.Can (errRegs c) q (q.onPkg fun p => p.bump (Reg.CAN_BUSOFF_CNT c)) :=
    .onPkg .refl (.bump .refl (List.mem_cons_of_mem _ (List.mem_singleton_self _)))
  have hbo : Pkg.Only [.regs] q.pkg (q.onPkg fun p => p.bump (Reg.CAN_BUSOFF_CNT c)).pkg := by
    rw [State.onPkg_pkg]
    exact .bump .refl
  have hbk : q.pkg.regsKept (q.onPkg fun p => p.bump (Reg.CAN_BUSOFF_CNT c)).pkg [Reg.CAN_BUSOFF_CNT c] := by
    rw [State.onPkg_pkg]
    exact .bump .refl (List.mem_singleton_self _)
  generalize (q.onPkg fun p => p.bump (Reg.CAN_BUSOFF_CNT c)) = b at hb hbo hbk ⊢
  split
  · exact ⟨h7, h1, h2, h3, h5⟩
  · split
    · refine ⟨h7.trans (.post hb), ?_, ?_, ?_, ?_⟩
      · rw [State.canTec, State.onStake_pkg, hbk.fld (f := Reg.CAN_STATUS_TEC c) (busoff_ne c)]
        exact h1
      · rw [State.canRec, State.onStake_pkg, hbk.fld (f := Reg.CAN_STATUS_REC c) (busoff_ne c)]
        exact h2
      · rw [State.onStake_pkg, hbk.fld (f := Reg.CAN_STATUS_STATE c) (busoff_ne c)]
        exact h3
      · rw [State.onStake_pkg]
        exact h5.trans hbo
    · split
      · refine ⟨h7.trans (.post .refl), ?_, ?_, ?_, ?_⟩
        · rw [State.canTec, State.onStake_pkg]
          exact h1
        · rw [State.canRec, State.onStake_pkg]
          exact h2
        · rw [State.onStake_pkg]
          exact h3
        · rw [State.onStake_pkg]
          exact h5
      · exact ⟨h7, h1, h2, h3, h5⟩

/-- R393: the events of error counts. -/
theorem State.canErr_posts (hp : s.present 1 = true) {tec rec : Nat} (h2 : s.pkg.fld (Reg.CAN_STATUS_STATE c) ≠ 2) :
    (255 < tec → (s.stake 1).posted ((s.canErr c tec rec).stake 1) .canBusOff 0 [c]) ∧
    (canNew tec rec = 1 → s.pkg.fld (Reg.CAN_STATUS_STATE c) ≠ 1 →
      (s.stake 1).posted ((s.canErr c tec rec).stake 1) .canErrPassive 0 [tec, rec]) := by
  obtain ⟨_, _, _, _, _, h6⟩ := s.canSet_of c tec rec
  have hpq : ∀ f, ((s.canSet c tec rec).onPkg f).present 1 = true := fun f => hp
  have hpq' : (s.canSet c tec rec).present 1 = true := hp
  rw [State.canErr_eq]
  refine ⟨fun h => ?_, fun h h1 => ?_⟩
  · have hn : canNew tec rec = 2 := by
      unfold canNew
      rw [if_pos h]
    rw [hn, if_neg (by simpa using ⟨h2, fun h => h2 h.symm⟩), if_pos rfl, State.onStake_stake_same (hpq _)]
    exact Stake.post_posted _ _ _ _
  · rw [h, if_neg (by simpa using ⟨h2, fun h => h1 h.symm⟩), if_neg (by decide), if_pos rfl, State.onStake_stake_same hpq', h6.stake]
    exact Stake.post_posted _ _ _ _

theorem State.canOn_of (h : s.canOn c = true) : c < 2 ∧ s.present 1 = true ∧ s.pkg.flag (Reg.CAN_CTRL_EN c) = true ∧
    s.pkg.fld (Reg.CAN_STATUS_STATE c) ≠ 2 := by
  unfold State.canOn State.inService at h
  simp only [Bool.and_eq_true, Bool.or_eq_true, decide_eq_true_eq] at h
  obtain ⟨⟨⟨h1, _, h2⟩, h3⟩, h4⟩ := h
  refine ⟨h1, ?_, h3, h4⟩
  rcases h2 with h2 | h2
  · exact State.present_of_alive h2
  · exact h2.1.1

theorem State.canTec_lt (s : State) (c : Nat) : s.canTec c < 512 := Fld.of_lt _ _
theorem State.canRec_lt (s : State) (c : Nat) : s.canRec c < 256 := Fld.of_lt _ _

end
end Sys2Proof.Machine

/-! The buffers of the CAN controllers: what is stored, and where (R380 to R383). -/
namespace Sys2Proof.Machine
set_option Elab.async false

section
variable {s t : State} {c i : Nat} {f : CanFrame}

/-- The registers that a frame received may change beside those of the buffer that takes it. -/
def frameRegs (c : Nat) : List Nat := [Reg.CAN_STATUS c, Reg.CAN_BUSOFF_CNT c, Reg.CAN_OVERRUN_CNT c, Reg.CAN_HP_PENDING,
  Reg.HIF_MSIX_PBA 0, Reg.HIF_MSIX_PBA 1, Reg.CAN_FB_STALE_CNT]

theorem canBuf_apart (hc : c < 2) (hi : i < 68) {o : Nat} (ho : o < 0x60) : canBuf c i + o ∉ frameRegs c := by
  simp only [frameRegs, canBuf, Reg.CAN_STATUS, Reg.CAN_BUSOFF_CNT, Reg.CAN_OVERRUN_CNT, Reg.CAN_HP_PENDING, Reg.HIF_MSIX_PBA,
    Reg.CAN_FB_STALE_CNT, List.mem_cons, List.not_mem_nil, or_false]
  split <;> omega

theorem canUs_apart (c : Nat) : Reg.CAN_US ∉ frameRegs c := by
  simp only [frameRegs, Reg.CAN_US, Reg.CAN_STATUS, Reg.CAN_BUSOFF_CNT, Reg.CAN_OVERRUN_CNT, Reg.CAN_HP_PENDING, Reg.HIF_MSIX_PBA,
    Reg.CAN_FB_STALE_CNT, List.mem_cons, List.not_mem_nil, or_false]
  omega

theorem errRegs_frame (c : Nat) : errRegs c ⊆ frameRegs c := fun a ha => by
  simp only [errRegs, frameRegs, List.mem_cons, List.not_mem_nil, or_false] at ha ⊢
  tauto

/-- R382: a match is a matter of the buffer's registers. -/
theorem State.Can.canMatch (h : State.Can (frameRegs c) s t) (hc : c < 2) (hi : i < 68) (f : CanFrame) : t.canMatch c i f = s.canMatch c i f := by
  unfold State.canMatch
  have h0 : canBuf c i ∉ frameRegs c := canBuf_apart (o := 0) hc hi (by decide)
  have h4 : canBuf c i + 4 ∉ frameRegs c := canBuf_apart hc hi (by decide)
  rw [h.regs.flag (f := cbEn c i) h0, h.regs.flag (f := cbDir c i) h0, h.regs.flag (f := cbIde c i) h0, h.regs.fld (f := cbId c i) h0,
    h.regs.fld (f := cbMask c i) h4]

theorem State.Can.canStamp {l : List Nat} (h : State.Can l s t) (hl : Reg.CAN_US ∉ l) (ago : Nat) : t.canStamp ago = s.canStamp ago := by
  unfold State.canStamp
  rw [h.regs _ hl, h.ang]

/-! One buffer's words. -/

/-- R383: the bytes of a frame as they are written. -/
def Pkg.putBytes (p : Pkg) (base n : Nat) (d : List Nat) : Pkg := (List.range n).foldl (fun p j => p.putByte base j (nth 0 d j)) p

theorem Pkg.putBytes_rd (p : Pkg) (base n : Nat) (d : List Nat) {o : Nat} (h : o < base + 0x20 ∨ base + 0x20 + n ≤ o) :
    (p.putBytes base n d).rd o = p.rd o := by
  unfold Pkg.putBytes
  induction n with
  | zero => rfl
  | succ n ih =>
    rw [List.range_succ, List.foldl_append, List.foldl_cons, List.foldl_nil]
    unfold Pkg.putByte at ih ⊢
    rw [Pkg.rd_put_ne _ _ (by dsimp only; omega)]
    exact ih (by omega)

theorem Pkg.putBytes_fld (p : Pkg) (base n : Nat) (d : List Nat) {j : Nat} (h : j < n) :
    (p.putBytes base n d).fld ⟨base + 0x20 + j / 4 * 4, j % 4 * 8, 8⟩ = nth 0 d j % 256 := by
  unfold Pkg.putBytes
  induction n with
  | zero => omega
  | succ n ih =>
    rw [List.range_succ, List.foldl_append, List.foldl_cons, List.foldl_nil]
    have hm : ∀ j, j % 4 * 8 + 8 ≤ 32 := fun j => by omega
    unfold Pkg.putByte at ih ⊢
    by_cases hj : j = n
    · subst hj
      rw [Pkg.fld_put_same _ _ _ (hm j)]
      rfl
    · rw [Pkg.fld_put_ne _ _ _ _ (by dsimp only; omega)]
      exact ih (by omega)

theorem Pkg.putBytes_only (p : Pkg) (base n : Nat) (d : List Nat) : Pkg.Only [.regs] p (p.putBytes base n d) := by
  unfold Pkg.putBytes
  induction n with
  | zero => exact .refl
  | succ n ih =>
    rw [List.range_succ, List.foldl_append, List.foldl_cons, List.foldl_nil]
    exact .put ih

/-- R383: the marks of a buffer that takes a frame, of which `was` says that it was full. -/
def Pkg.canMarks (p : Pkg) (a : Nat) (was : Bool) : Pkg :=
  let p := ((p.put ⟨a, 20, 4⟩ ((p.fld ⟨a, 20, 4⟩ + 1) % 16)).putB ⟨a, 31, 1⟩ true)
  if was then p.putB ⟨a, 30, 1⟩ true else p

theorem Pkg.canMarks_of (p : Pkg) (a : Nat) (was : Bool) :
    (p.canMarks a was).flag ⟨a, 31, 1⟩ = true ∧ (p.canMarks a was).fld ⟨a, 20, 4⟩ = (p.fld ⟨a, 20, 4⟩ + 1) % 16 ∧
      (was = true → (p.canMarks a was).flag ⟨a, 30, 1⟩ = true) := by
  unfold Pkg.canMarks
  extract_lets q
  have hf : q.flag ⟨a, 31, 1⟩ = true := Pkg.flag_putB_same _ _ _ (by change 31 + 1 ≤ 32; decide) rfl
  have hs : q.fld ⟨a, 20, 4⟩ = (p.fld ⟨a, 20, 4⟩ + 1) % 16 := by
    simp only [q]
    rw [Pkg.putB, Pkg.fld_put_ne _ _ _ _ (.inr (.inr (by change 20 + 4 ≤ 31; decide))),
      Pkg.fld_put_same _ _ _ (by change 20 + 4 ≤ 32; decide)]
    exact Nat.mod_mod _ _
  clear_value q
  cases was with
  | false => exact ⟨hf, hs, nofun⟩
  | true =>
    rw [if_pos rfl]
    refine ⟨?_, ?_, fun _ => Pkg.flag_putB_same _ _ _ (by change 30 + 1 ≤ 32; decide) rfl⟩
    · rw [Pkg.flag, Pkg.putB, Pkg.fld_put_ne _ _ _ _ (.inr (.inl (by change 30 + 1 ≤ 31; decide)))]
      exact hf
    · rw [Pkg.putB, Pkg.fld_put_ne _ _ _ _ (.inr (.inr (by change 20 + 4 ≤ 30; decide)))]
      exact hs

/-- R383: the words of a buffer that takes a frame. -/
def Pkg.canKept (p : Pkg) (c i : Nat) (f : CanFrame) (was : Bool) (stamp : BitVec 32) : Pkg :=
  (((p.canMarks (canBuf c i + 8) was).wr (canBuf c i + 0x0C) stamp).wr (canBuf c i + 0x10) (canWord f)).wr (canBuf c i + 0x14)
    (BitVec.ofNat 32 (f.id % 2 ^ 29))

theorem Pkg.canKept_of (p : Pkg) (c i : Nat) (f : CanFrame) (was : Bool) (stamp : BitVec 32) :
    (p.canKept c i f was stamp).flag (cbFull c i) = true ∧
      (p.canKept c i f was stamp).fld (cbRxSeq c i) = (p.fld (cbRxSeq c i) + 1) % 16 ∧
      (was = true → (p.canKept c i f was stamp).flag (cbOverrun c i) = true) ∧
      (p.canKept c i f was stamp).rd (canBuf c i + 0x0C) = stamp ∧ (p.canKept c i f was stamp).rd (canBuf c i + 0x10) = canWord f ∧
      (p.canKept c i f was stamp).rd (canBuf c i + 0x14) = BitVec.ofNat 32 (f.id % 2 ^ 29) := by
  simp only [Pkg.canKept, cbFull, cbRxSeq, cbOverrun, cbCtrl]
  generalize canBuf c i = a
  obtain ⟨h1, h2, h3⟩ := p.canMarks_of (a + 8) was
  generalize p.canMarks (a + 8) was = q at h1 h2 h3 ⊢
  have hw : ∀ (g : Fld), g.off = a + 8 → (((q.wr (a + 0x0C) stamp).wr (a + 0x10) (canWord f)).wr (a + 0x14)
      (BitVec.ofNat 32 (f.id % 2 ^ 29))).fld g = q.fld g := fun g hg => by
    rw [Pkg.fld_wr_ne _ _ _ (by omega), Pkg.fld_wr_ne _ _ _ (by omega), Pkg.fld_wr_ne _ _ _ (by omega)]
  refine ⟨?_, ?_, fun h => ?_, ?_, ?_, ?_⟩
  · rw [Pkg.flag, hw _ rfl]
    exact h1
  · rw [hw _ rfl]
    exact h2
  · rw [Pkg.flag, hw _ rfl]
    exact h3 h
  · rw [Pkg.rd_wr_ne _ _ (by omega), Pkg.rd_wr_ne _ _ (by omega), Pkg.rd_wr_same]
  · rw [Pkg.rd_wr_ne _ _ (by omega), Pkg.rd_wr_same]
  · rw [Pkg.rd_wr_same]

/-- R383: the number of bytes stored. -/
def canBytes (f : CanFrame) : Nat := if f.rtr then 0 else min f.data.length (dlcBytes f.fdf f.dlc)

theorem State.canStore_eq (s : State) (c i : Nat) (f : CanFrame) : s.canStore c i f =
    if s.pkg.flag (cbFull c i) then (s.onPkg fun p => (p.canKept c i f (s.pkg.flag (cbFull c i)) (s.canStamp f.ago)).putBytes (canBuf c i) (canBytes f)
      f.data).canOverrun c
    else s.onPkg fun p => (p.canKept c i f (s.pkg.flag (cbFull c i)) (s.canStamp f.ago)).putBytes (canBuf c i) (canBytes f) f.data := rfl

theorem State.canOverrun_of (s : State) (c : Nat) : State.Can (frameRegs c) s (s.canOverrun c) := by
  have h : State.Can (frameRegs c) s (s.onPkg fun p => p.bump (Reg.CAN_OVERRUN_CNT c)) := .onPkg .refl (.bump .refl (by simp [frameRegs]))
  unfold State.canOverrun
  extract_lets first q
  exact .ite (.post h) h

/-- What a buffer holds after a frame is stored, with a frame whose remote bit has been settled. -/
def State.canTaken (s t : State) (c i : Nat) (f : CanFrame) : Prop :=
  t.pkg.flag (cbFull c i) = true ∧ t.pkg.fld (cbRxSeq c i) = (s.pkg.fld (cbRxSeq c i) + 1) % 16 ∧
  t.pkg.rd (canBuf c i + 0x0C) = s.canStamp f.ago ∧ t.pkg.rd (canBuf c i + 0x10) = canWord f ∧
  t.pkg.rd (canBuf c i + 0x14) = BitVec.ofNat 32 (f.id % 2 ^ 29) ∧
  ∀ j, j < f.data.length → j < dlcBytes f.fdf f.dlc → f.rtr = false →
    t.pkg.fld ⟨canBuf c i + 0x20 + j / 4 * 4, j % 4 * 8, 8⟩ = nth 0 f.data j % 256

theorem dlcBytes_le (a : Bool) (n : Nat) : dlcBytes a n ≤ 64 := by
  unfold dlcBytes
  split
  · omega
  · split
    · omega
    · generalize n - 9 = m
      by_cases h : m < 7
      · revert m
        decide
      · rw [nth, List.getD_eq_getElem?_getD, List.getElem?_eq_none (by simp; omega)]
        decide

theorem canBytes_le (f : CanFrame) : canBytes f ≤ 64 := by
  have := dlcBytes_le f.fdf f.dlc
  unfold canBytes
  split <;> omega

/-- What is in a buffer stays there while its registers do. -/
theorem State.canTaken.of_regs {u : State} (h : s.canTaken t c i f) (hk : t.pkg.regsKept u.pkg (frameRegs c)) (hc : c < 2) (hi : i < 68) :
    s.canTaken u c i f := by
  obtain ⟨h1, h2, h3, h4, h5, h6⟩ := h
  have hk' : ∀ {o : Nat}, o < 0x60 → canBuf c i + o ∉ frameRegs c := fun ho => canBuf_apart hc hi ho
  refine ⟨?_, ?_, ?_, ?_, ?_, fun j hj hd hr => ?_⟩
  · rw [hk.flag (f := cbFull c i) (hk' (by decide))]
    exact h1
  · rw [hk.fld (f := cbRxSeq c i) (hk' (by decide))]
    exact h2
  · rw [hk _ (hk' (by decide))]
    exact h3
  · rw [hk _ (hk' (by decide))]
    exact h4
  · rw [hk _ (hk' (by decide))]
    exact h5
  · have hd64 := dlcBytes_le f.fdf f.dlc
    rw [hk.fld (f := ⟨canBuf c i + 0x20 + j / 4 * 4, j % 4 * 8, 8⟩) (by rw [show canBuf c i + 0x20 + j / 4 * 4 = canBuf c i + (0x20 + j / 4 * 4) by omega]; exact hk' (by omega))]
    exact h6 j hj hd hr

/-- R383: a frame is stored. -/
theorem State.canStore_of (s : State) (hc : c < 2) (hi : i < 68) (f : CanFrame) :
    s.canTaken (s.canStore c i f) c i f ∧ (s.pkg.flag (cbFull c i) = true → (s.canStore c i f).pkg.flag (cbOverrun c i) = true) ∧
      (∀ m, m ≠ 1 → (s.canStore c i f).stake m = s.stake m) := by
  obtain ⟨h1, h2, h3, h4, h5, h6⟩ := s.pkg.canKept_of c i f (s.pkg.flag (cbFull c i)) (s.canStamp f.ago)
  rw [State.canStore_eq]
  have hp : (s.onPkg fun p => (p.canKept c i f (s.pkg.flag (cbFull c i)) (s.canStamp f.ago)).putBytes (canBuf c i) (canBytes f) f.data).pkg =
    (s.pkg.canKept c i f (s.pkg.flag (cbFull c i)) (s.canStamp f.ago)).putBytes (canBuf c i) (canBytes f) f.data := rfl
  have hs : ∀ m, (s.onPkg fun p => (p.canKept c i f (s.pkg.flag (cbFull c i)) (s.canStamp f.ago)).putBytes (canBuf c i) (canBytes f)
    f.data).stake m = s.stake m := fun _ => rfl
  generalize (s.onPkg fun p => (p.canKept c i f (s.pkg.flag (cbFull c i)) (s.canStamp f.ago)).putBytes (canBuf c i) (canBytes f) f.data) = q at hp hs ⊢
  generalize s.pkg.canKept c i f (s.pkg.flag (cbFull c i)) (s.canStamp f.ago) = p at h1 h2 h3 h4 h5 h6 hp
  have hr : ∀ o, o < canBuf c i + 0x20 → q.pkg.rd o = p.rd o := fun o ho => by
    rw [hp]
    exact p.putBytes_rd _ _ _ (.inl ho)
  have hf : ∀ g : Fld, g.off < canBuf c i + 0x20 → q.pkg.fld g = p.fld g := fun g hg => by rw [Pkg.fld, hr _ hg, Pkg.fld]
  have hq : s.canTaken q c i f := by
    refine ⟨?_, ?_, ?_, ?_, ?_, fun j hj hd hrt => ?_⟩
    · rw [Pkg.flag, hf _ (by change canBuf c i + 8 < _; omega)]
      exact h1
    · rw [hf _ (by change canBuf c i + 8 < _; omega)]
      exact h2
    · rw [hr _ (by omega)]
      exact h4
    · rw [hr _ (by omega)]
      exact h5
    · rw [hr _ (by omega)]
      exact h6
    · rw [hp]
      refine p.putBytes_fld _ _ _ ?_
      unfold canBytes
      rw [hrt]
      exact Nat.lt_min.mpr ⟨hj, hd⟩
  have ho : s.pkg.flag (cbFull c i) = true → q.pkg.flag (cbOverrun c i) = true := fun h => by
    rw [Pkg.flag, hf _ (by change canBuf c i + 8 < _; omega)]
    exact h3 h
  have hov := q.canOverrun_of c
  split
  · refine ⟨hq.of_regs hov.regs hc hi, fun h => ?_, fun m hm => (hov.others m hm).trans (hs m)⟩
    rw [hov.regs.flag (f := cbOverrun c i) (canBuf_apart hc hi (by decide))]
    exact ho h
  · exact ⟨hq, ho, fun m _ => hs m⟩

end
end Sys2Proof.Machine

/-! A frame received (R380 to R385, R389, R391). -/
namespace Sys2Proof.Machine
set_option Elab.async false

section
variable {s t q : State} {c i : Nat} {f : CanFrame}

theorem State.canCycle_of (s : State) (c : Nat) (v : BitVec 32) (b : Nat) : State.Can [Reg.CAN_STATUS c] s (s.canCycle c v b) := by
  have ha : (Reg.CAN_STATUS_TT_RUN c).off ∈ [Reg.CAN_STATUS c] := List.mem_singleton.mpr rfl
  have hb : (Reg.CAN_STATUS_CYCLE c).off ∈ [Reg.CAN_STATUS c] := List.mem_singleton.mpr rfl
  have h : State.Can [Reg.CAN_STATUS c] s (s.onPkg fun p => (p.putB (Reg.CAN_STATUS_TT_RUN c) true).put (Reg.CAN_STATUS_CYCLE c) (b % 64)) :=
    .onPkg .refl (.put (.putB .refl ha) hb)
  unfold State.canCycle
  exact .onCan h

theorem State.canRxGood_of (s : State) (c : Nat) : State.Can (errRegs c) s (s.canRxGood c) := by
  unfold State.canRxGood
  have h : State.Can (errRegs c) s (s.onPkg fun p => { p with fresh := p.fresh + 1 }) := .onPkg .refl fun _ _ => rfl
  exact .ite (h.trans (State.canErr_of _ _ _ _).1) (State.canErr_of _ _ _ _).1

theorem State.canFallback_of (s : State) (f : CanFrame) : State.Can [Reg.CAN_FB_STALE_CNT] s (s.canFallback f) := by
  have h1 : State.Can [Reg.CAN_FB_STALE_CNT] s (s.onPkg fun p => p.bump Reg.CAN_FB_STALE_CNT) := .onPkg .refl (.bump .refl (by simp))
  unfold State.canFallback
  extract_lets start w v al bits bad q
  refine .ite h1 (.onStake (m := [.fe, .regs]) (.onNet .refl) fun k => ?_)
  have hk : Stake.Only [.fe, .regs] k { k with fe := { k.fe with canX := ((v * 2 ^ 44 / 2 ^ w : Nat) : Int), canAt := some k.now } } :=
      Stake.Only.onFe (l := [.fe, .regs]) (f := fun e => { e with canX := ((v * 2 ^ 44 / 2 ^ w : Nat) : Int), canAt := some k.now }) .refl
  exact .ite (hk.putB (.tail _ (.head _))) hk

/-- R381, R385, R389: what a frame without an error does before it is stored. -/
def State.canHeard (s : State) (c : Nat) (f : CanFrame) : State :=
  if (s.canRxGood c).pkg.flag (Reg.CAN_CTRL_TT_EN c) && (s.canRxGood c).pkg.flag (Reg.CAN_CTRL_TT_ROLE c) &&
      (s.canRxGood c).pkg.flag (Reg.CAN_TT_REF_IDE c) = f.ide && (s.canRxGood c).pkg.fld (Reg.CAN_TT_REF_REF_ID c) = f.id then
    (s.canRxGood c).canCycle c ((s.canRxGood c).canStamp f.ago) (nth 0 f.data 0)
  else s.canRxGood c

theorem State.canHeard_of (s : State) (c : Nat) (f : CanFrame) : State.Can (frameRegs c) s (s.canHeard c f) := by
  have h := (s.canRxGood_of c).mono (errRegs_frame c)
  unfold State.canHeard
  exact .ite (h.trans ((State.canCycle_of _ _ _ _).mono (List.cons_subset_cons _ (List.nil_subset _)))) h

/-- R382, R391: the marks of a frame stored in an HP buffer. -/
def State.canHp (s : State) (c i : Nat) (f : CanFrame) : State :=
  let s := s.onPkg fun p => p.put Reg.CAN_HP_PENDING_PEND (p.fld Reg.CAN_HP_PENDING_PEND ||| 2 ^ (4 * c + i))
  let s := s.msixFire (s.pkg.fld (cbVector c i))
  if s.pkg.fld Reg.CAN_FB_SIG_FB_CTRL = c && s.pkg.fld Reg.CAN_FB_SIG_FB_HP = i then s.canFallback f else s

theorem State.canHp_of (s : State) (hc : c < 2) (hi : i < 4) (f : CanFrame) : State.Can (frameRegs c) s (s.canHp c i f) ∧
    ((s.canHp c i f).pkg.fld Reg.CAN_HP_PENDING_PEND).testBit (4 * c + i) = true := by
  have h1 : State.Can (frameRegs c) s (s.onPkg fun p => p.put Reg.CAN_HP_PENDING_PEND (p.fld Reg.CAN_HP_PENDING_PEND ||| 2 ^ (4 * c + i))) :=
    .onPkg .refl (.put .refl (.tail _ (.tail _ (.tail _ (.head _)))))
  have hb : ((s.onPkg fun p => p.put Reg.CAN_HP_PENDING_PEND (p.fld Reg.CAN_HP_PENDING_PEND ||| 2 ^ (4 * c + i))).pkg.fld
      Reg.CAN_HP_PENDING_PEND).testBit (4 * c + i) = true := by
    rw [State.onPkg_pkg, Pkg.fld_put_same _ _ _ (by decide)]
    change (_ % 2 ^ 8).testBit _ = _
    rw [Nat.testBit_mod_two_pow, Nat.testBit_or, Nat.testBit_two_pow_self, Bool.or_true, Bool.and_true]
    exact decide_eq_true (by omega)
  unfold State.canHp
  extract_lets a b
  change State.Can (frameRegs c) s a at h1
  change (a.pkg.fld Reg.CAN_HP_PENDING_PEND).testBit (4 * c + i) = true at hb
  have h2 : State.Eff [.msix, .regs, .writes] [Reg.HIF_MSIX_PBA 0, Reg.HIF_MSIX_PBA 1] a b := State.msixFire_eff (Fld.of_lt _ _) a
  clear_value b
  clear_value a
  have h3 : State.Can [Reg.HIF_MSIX_PBA 0, Reg.HIF_MSIX_PBA 1, Reg.CAN_FB_STALE_CNT] a b :=
    (State.Can.of_eff h2).mono (by simp)
  have h4 := b.canFallback_of f
  have h5 : State.Can [Reg.HIF_MSIX_PBA 0, Reg.HIF_MSIX_PBA 1, Reg.CAN_FB_STALE_CNT] a
      (if (decide (b.pkg.fld Reg.CAN_FB_SIG_FB_CTRL = c) && decide (b.pkg.fld Reg.CAN_FB_SIG_FB_HP = i)) = true then b.canFallback f else b) :=
    .ite (h3.trans (h4.mono (by simp))) h3
  refine ⟨h1.trans (h5.mono fun x hx => ?_), ?_⟩
  · exact .tail _ (.tail _ (.tail _ (.tail _ hx)))
  · rw [h5.regs.fld (f := Reg.CAN_HP_PENDING_PEND) (by decide)]
    exact hb

theorem State.canReceive_eq (s : State) (c : Nat) (f : CanFrame) (hh : s.canHears c f) (he : s.canFormError c f = false) :
    s.canReceive c f =
    let f := { f with rtr := f.rtr && !f.fdf }
    let q := s.canHeard c f
    match [0, 1, 2, 3].find? fun i => q.canMatch c i f with
    | some i => (q.canStore c i f).canHp c i f
    | none => match (((List.range 64).map (· + 4)).filter fun i => q.canMatch c i f).find? fun i => !q.pkg.flag (cbFull c i) with
      | some i => q.canStore c i f
      | none => match ((List.range 64).map (· + 4)).filter fun i => q.canMatch c i f with
        | i :: _ => q.canStore c i f
        | [] => q.onPkg fun p => p.bump (Reg.CAN_RX_DROP_CNT c) := by
  have h1 : ¬ ((!s.canOn c || f.own ≠ (s.pkg.fld (Reg.CAN_CTRL_MODE c) = 2 : Bool)) = true) := by
    obtain ⟨h1, h2⟩ := hh
    simp [h1, h2]
  exact (if_neg h1).trans (if_neg (ne_true_of_eq_false he))


theorem State.canTaken.after (h : q.canTaken t c i f) (hq : State.Can (frameRegs c) s q) (hc : c < 2) (hi : i < 68) : s.canTaken t c i f := by
  obtain ⟨h1, h2, h3, h4⟩ := h
  refine ⟨h1, ?_, ?_, h4⟩
  · rw [h2, hq.regs.fld (f := cbRxSeq c i) (canBuf_apart hc hi (by decide))]
  · rw [h3, hq.canStamp (canUs_apart c)]

/-- R380, R383, R385: a frame without an error, once it is heard. -/
def State.canPlace (q : State) (c : Nat) (f : CanFrame) : State :=
  match [0, 1, 2, 3].find? fun i => q.canMatch c i f with
  | some i => (q.canStore c i f).canHp c i f
  | none => match (((List.range 64).map (· + 4)).filter fun i => q.canMatch c i f).find? fun i => !q.pkg.flag (cbFull c i) with
    | some i => q.canStore c i f
    | none => match ((List.range 64).map (· + 4)).filter fun i => q.canMatch c i f with
      | i :: _ => q.canStore c i f
      | [] => q.onPkg fun p => p.bump (Reg.CAN_RX_DROP_CNT c)

theorem general_lt {p : Nat → Bool} {i : Nat} (h : i ∈ ((List.range 64).map (· + 4)).filter p) : i < 68 := by
  obtain ⟨j, hj, rfl⟩ := List.mem_map.mp (List.mem_filter.mp h).1
  have := List.mem_range.mp hj
  omega

theorem hp_lt {p : Nat → Bool} {i : Nat} (h : [0, 1, 2, 3].find? p = some i) : i < 4 := by
  have := List.mem_of_find?_eq_some h
  simp only [List.mem_cons, List.not_mem_nil, or_false] at this
  omega

theorem State.canPlace_others (q : State) (hc : c < 2) (f : CanFrame) {m : Nat} (hm : m ≠ 1) : (q.canPlace c f).stake m = q.stake m := by
  unfold State.canPlace
  split
  · next i hi =>
    have h4 := hp_lt hi
    have h1 := (q.canStore_of hc (i := i) (by omega) f).2.2 m hm
    exact (((q.canStore c i f).canHp_of hc h4 f).1.others m hm).trans h1
  · split
    · next i hi => exact (q.canStore_of hc (general_lt (List.mem_of_find?_eq_some hi)) f).2.2 m hm
    · split
      · next i l hl => exact (q.canStore_of hc (general_lt (hl ▸ List.mem_cons_self)) f).2.2 m hm
      · rfl

theorem State.canPlace_hp (q : State) (hc : c < 2) (hi : [0, 1, 2, 3].find? (fun i => q.canMatch c i f) = some i) :
    q.canTaken (q.canPlace c f) c i f ∧ ((q.canPlace c f).pkg.fld Reg.CAN_HP_PENDING_PEND).testBit (4 * c + i) = true ∧
      (q.pkg.flag (cbFull c i) = true → (q.canPlace c f).pkg.flag (cbOverrun c i) = true) := by
  have h4 := hp_lt hi
  have he : q.canPlace c f = (q.canStore c i f).canHp c i f := by
    unfold State.canPlace
    rw [hi]
  obtain ⟨h1, h2, _⟩ := q.canStore_of hc (i := i) (by omega) f
  obtain ⟨h5, h6⟩ := (q.canStore c i f).canHp_of hc h4 f
  rw [he]
  refine ⟨h1.of_regs h5.regs hc (by omega), h6, fun h => ?_⟩
  rw [h5.regs.flag (f := cbOverrun c i) (canBuf_apart hc (by omega) (by decide))]
  exact h2 h

theorem State.canPlace_general (q : State) (hc : c < 2) (hn : ∀ i, i < 4 → q.canMatch c i f = false)
    (hi : (((List.range 64).map (· + 4)).find? fun i => q.canMatch c i f && !q.pkg.flag (cbFull c i)) = some i) :
    q.canTaken (q.canPlace c f) c i f := by
  have h0 : [0, 1, 2, 3].find? (fun i => q.canMatch c i f) = none := by
    refine List.find?_eq_none.mpr fun x hx => ?_
    simp only [List.mem_cons, List.not_mem_nil, or_false] at hx
    exact ne_true_of_eq_false (hn x (by omega))
  have hb : (fun i => q.canMatch c i f && !q.pkg.flag (cbFull c i)) =
      fun i => decide (q.canMatch c i f = true ∧ (!q.pkg.flag (cbFull c i)) = true) := by
    funext i
    simp
  rw [hb, ← List.find?_filter] at hi
  have he : q.canPlace c f = q.canStore c i f := by
    unfold State.canPlace
    rw [h0, hi]
  rw [he]
  exact (q.canStore_of hc (general_lt (List.mem_of_find?_eq_some hi)) f).1

theorem State.canPlace_none (q : State) (hn : ∀ i, i < 68 → q.canMatch c i f = false) :
    q.canPlace c f = q.onPkg fun p => p.bump (Reg.CAN_RX_DROP_CNT c) := by
  have h0 : [0, 1, 2, 3].find? (fun i => q.canMatch c i f) = none := by
    refine List.find?_eq_none.mpr fun x hx => ?_
    simp only [List.mem_cons, List.not_mem_nil, or_false] at hx
    exact ne_true_of_eq_false (hn x (by omega))
  have h1 : (((List.range 64).map (· + 4)).filter fun i => q.canMatch c i f) = [] := by
    refine List.filter_eq_nil_iff.mpr fun x hx => ?_
    obtain ⟨j, hj, rfl⟩ := List.mem_map.mp hx
    have := List.mem_range.mp hj
    exact ne_true_of_eq_false (hn _ (by omega))
  unfold State.canPlace
  rw [h0, h1] <;> rfl

theorem rxDrop_apart (c : Nat) : Reg.CAN_RX_DROP_CNT c ∉ frameRegs c := by
  simp only [frameRegs, Reg.CAN_RX_DROP_CNT, Reg.CAN_STATUS, Reg.CAN_BUSOFF_CNT, Reg.CAN_OVERRUN_CNT, Reg.CAN_HP_PENDING, Reg.HIF_MSIX_PBA,
    Reg.CAN_FB_STALE_CNT, List.mem_cons, List.not_mem_nil, or_false]
  omega

/-- R380 to R385: a frame that a controller receives. -/
theorem canFrameReceived_of (s : State) (c : Nat) (f : CanFrame) : ∃ t, exec (.canFrameReceived c f) s = .next t ∧
    (∀ m, m ≠ 1 → t.stake m = s.stake m) ∧
    (¬ s.canHears c f → t = s) ∧
    (s.canHears c f → s.canFormError c f = true → t.canRec c = min (s.canRec c + 1) 255 ∧ t.canTec c = s.canTec c ∧
      s.pkg.regsKept t.pkg [Reg.CAN_STATUS c, Reg.CAN_BUSOFF_CNT c]) ∧
    (s.canHears c f → s.canFormError c f = false →
      (∀ i, [0, 1, 2, 3].find? (fun i => s.canMatch c i f) = some i → s.canHolds t c i f ∧
        (t.pkg.fld Reg.CAN_HP_PENDING_PEND).testBit (4 * c + i) = true ∧
        (s.pkg.flag (cbFull c i) = true → t.pkg.flag (cbOverrun c i) = true)) ∧
      ((∀ i, i < 4 → s.canMatch c i f = false) →
        (∀ i, (((List.range 64).map (· + 4)).find? fun i => s.canMatch c i f && !s.pkg.flag (cbFull c i)) = some i → s.canHolds t c i f) ∧
        ((∀ i, 4 ≤ i → i < 68 → s.canMatch c i f = false) →
          t.pkg.rd (Reg.CAN_RX_DROP_CNT c) = satAdd 16 (s.pkg.rd (Reg.CAN_RX_DROP_CNT c)) 1))) := by
  refine ⟨s.canReceive c f, rfl, ?_⟩
  by_cases hh : s.canHears c f
  swap
  · have h1 : (!s.canOn c || f.own ≠ (s.pkg.fld (Reg.CAN_CTRL_MODE c) = 2 : Bool)) = true := by
      by_contra hx
      refine hh ?_
      unfold State.canHears
      simpa using hx
    have he : s.canReceive c f = s := if_pos h1
    rw [he]
    exact ⟨fun _ _ => rfl, fun _ => rfl, fun h => absurd h hh, fun h => absurd h hh⟩
  obtain ⟨hc, _⟩ := State.canOn_of hh.1
  by_cases hx : s.canFormError c f = true
  · have h1 : ¬ ((!s.canOn c || f.own ≠ (s.pkg.fld (Reg.CAN_CTRL_MODE c) = 2 : Bool)) = true) := by
      obtain ⟨h1, h2⟩ := hh
      simp [h1, h2]
    have he : s.canReceive c f = s.canErr c (s.canTec c) (s.canRec c + 1) := (if_neg h1).trans (if_pos hx)
    obtain ⟨h2, h3, h4, _⟩ := s.canErr_of c (s.canTec c) (s.canRec c + 1)
    rw [he]
    refine ⟨h2.others, fun h => absurd hh h, fun _ _ => ⟨h4, h3.trans ?_, h2.regs⟩, fun _ h => absurd hx (ne_true_of_eq_false h)⟩
    have := s.canTec_lt c
    omega
  · have hx' := Bool.eq_false_of_not_eq_true hx
    have he : s.canReceive c f = (s.canHeard c { f with rtr := f.rtr && !f.fdf }).canPlace c { f with rtr := f.rtr && !f.fdf } :=
      s.canReceive_eq c f hh hx'
    have hq := s.canHeard_of c { f with rtr := f.rtr && !f.fdf }
    rw [he]
    generalize s.canHeard c { f with rtr := f.rtr && !f.fdf } = q at hq ⊢
    have hm : ∀ i, i < 68 → q.canMatch c i { f with rtr := f.rtr && !f.fdf } = s.canMatch c i f := fun i hi => hq.canMatch hc hi _
    have hf : ∀ i, i < 68 → q.pkg.flag (cbFull c i) = s.pkg.flag (cbFull c i) := fun i hi =>
      hq.regs.flag (f := cbFull c i) (canBuf_apart hc hi (by decide))
    refine ⟨fun m hm => (q.canPlace_others hc _ hm).trans (hq.others m hm), fun h => absurd hh h, fun _ h => absurd h hx,
      fun _ _ => ⟨fun i hi => ?_, fun hn => ⟨fun i hi => ?_, fun hg => ?_⟩⟩⟩
    · have h4 := hp_lt hi
      have hi' : [0, 1, 2, 3].find? (fun i => q.canMatch c i { f with rtr := f.rtr && !f.fdf }) = some i := by
        rw [← hi]
        simp only [hm 0 (by decide), hm 1 (by decide), hm 2 (by decide), hm 3 (by decide), List.find?_cons, List.find?_nil]
      obtain ⟨h1, h2, h3⟩ := q.canPlace_hp hc hi'
      rw [hf i (by omega)] at h3
      exact ⟨h1.after hq hc (by omega), h2, h3⟩
    · have hi' : (((List.range 64).map (· + 4)).find? fun i => q.canMatch c i { f with rtr := f.rtr && !f.fdf } &&
          !q.pkg.flag (cbFull c i)) = some i := by
        rw [← hi]
        refine List.find?_congr fun x hx => ?_
        obtain ⟨j, hj, rfl⟩ := List.mem_map.mp hx
        have := List.mem_range.mp hj
        rw [hm _ (by omega), hf _ (by omega)]
      have hl : i < 68 := by
        obtain ⟨j, hj, rfl⟩ := List.mem_map.mp (List.mem_of_find?_eq_some hi)
        have := List.mem_range.mp hj
        omega
      exact (q.canPlace_general hc (fun x hx => (hm x (by omega)).trans (hn x hx)) hi').after hq hc hl
    · rw [q.canPlace_none fun x hx => (hm x hx).trans (if h : x < 4 then hn x h else hg x (by omega) hx), State.onPkg_pkg, Pkg.rd_bump_same,
        hq.regs _ (rxDrop_apart c)]

end
end Sys2Proof.Machine

/-! The `CTRL` word of a buffer of a CAN controller: latch, release, request, cancel (R384, R386). -/
namespace Sys2Proof.Machine
set_option Elab.async false

section
variable {s t : State} {c i : Nat} {w : Reg32} {src : Src}

/-- A field that none of the bits cleared lies in. -/
theorem Fld.of_clear (f : Fld) (x v : BitVec 32) (h : ∀ i, i < f.w → v.getLsbD (f.lo + i) = false) : f.of (x &&& ~~~v) = f.of x := by
  refine Nat.eq_of_testBit_eq fun i => ?_
  rw [Fld.of_testBit, Fld.of_testBit]
  by_cases hi : i < f.w
  · by_cases hx : f.lo + i < 32
    · rw [BitVec.getLsbD_and, BitVec.getLsbD_not, h i hi]
      simp [hx]
    · rw [BitVec.getLsbD_of_ge _ _ (by omega), BitVec.getLsbD_of_ge _ _ (by omega)]
  · simp [hi]

/-- R384, R386: what a write of `CTRL` clears of a buffer, `hp` saying that it is an HP buffer, whose vector it sets. -/
def Pkg.ctrlCleared (p : Pkg) (a : Nat) (hp : Bool) (w : Reg32) : Pkg :=
  let p := p.wr a (p.rd a &&& ~~~ (w &&& 0x63000000))
  let p := if hp then p.put ⟨a, 0, 6⟩ (w.toNat % 64) else p
  if w.getLsbD 26 && (Fld.mk 0 16 4).of w = p.fld ⟨a, 20, 4⟩ then p.putB ⟨a, 31, 1⟩ false else p

theorem Pkg.ctrlCleared_of (p : Pkg) (a : Nat) (hp : Bool) (w : Reg32) :
    (p.ctrlCleared a hp w).flag ⟨a, 31, 1⟩ = (p.flag ⟨a, 31, 1⟩ && !(w.getLsbD 26 && decide ((Fld.mk 0 16 4).of w = p.fld ⟨a, 20, 4⟩))) ∧
      (p.ctrlCleared a hp w).flag ⟨a, 28, 1⟩ = p.flag ⟨a, 28, 1⟩ ∧ p.regsKept (p.ctrlCleared a hp w) [a] ∧
      Pkg.Only [.regs] p (p.ctrlCleared a hp w) := by
  unfold Pkg.ctrlCleared
  extract_lets q r
  have hq : ∀ lo n, (∀ i, i < n → (0x63000000 : BitVec 32).getLsbD (lo + i) = false) → q.fld ⟨a, lo, n⟩ = p.fld ⟨a, lo, n⟩ := fun lo n h => by
    simp only [q]
    rw [Pkg.fld, Pkg.rd_wr_same]
    refine Fld.of_clear _ _ _ fun i hi => ?_
    rw [BitVec.getLsbD_and, h i hi, Bool.and_false]
  have hqk : p.regsKept q [a] := .wr .refl (List.mem_singleton_self _)
  have hqo : Pkg.Only [.regs] p q := .wr .refl
  clear_value q
  have hr : ∀ lo n, 6 ≤ lo → r.fld ⟨a, lo, n⟩ = q.fld ⟨a, lo, n⟩ := fun lo n h => by
    simp only [r]
    split
    · exact Pkg.fld_put_ne _ _ _ _ (.inr (.inl h))
    · rfl
  have hrk : q.regsKept r [a] := .ite (.put .refl (List.mem_singleton_self _)) .refl
  have hro : Pkg.Only [.regs] q r := .ite (.put .refl) .refl
  clear_value r
  have h31 : r.fld ⟨a, 31, 1⟩ = p.fld ⟨a, 31, 1⟩ := (hr _ _ (by decide)).trans (hq _ _ (by decide))
  have h28 : r.fld ⟨a, 28, 1⟩ = p.fld ⟨a, 28, 1⟩ := (hr _ _ (by decide)).trans (hq _ _ (by decide))
  have h20 : r.fld ⟨a, 20, 4⟩ = p.fld ⟨a, 20, 4⟩ := (hr _ _ (by decide)).trans (hq _ _ (by decide))
  rw [h20]
  by_cases hx : (w.getLsbD 26 && decide ((Fld.mk 0 16 4).of w = p.fld ⟨a, 20, 4⟩)) = true
  · rw [hx, if_pos rfl, Bool.not_true, Bool.and_false]
    refine ⟨Pkg.flag_putB_same _ _ _ (by change 31 + 1 ≤ 32; decide) rfl, ?_, (hqk.trans hrk).putB (List.mem_singleton_self _), (hqo.trans hro).putB⟩
    rw [Pkg.flag, Pkg.putB, Pkg.fld_put_ne _ _ _ _ (.inr (.inr (by change 28 + 1 ≤ 31; decide))), h28, Pkg.flag]
  · rw [Bool.eq_false_of_not_eq_true hx, if_neg Bool.false_ne_true, Bool.not_false, Bool.and_true]
    refine ⟨?_, ?_, hqk.trans hrk, hqo.trans hro⟩
    · rw [Pkg.flag, h31, Pkg.flag]
    · rw [Pkg.flag, h28, Pkg.flag]

theorem State.onPkg_ite {P : Prop} [Decidable P] (s : State) (f : Pkg → Pkg) :
    (if P then s.onPkg f else s) = s.onPkg fun p => if P then f p else p := by
  split <;> rfl

/-- The same of the state, as the model has it. -/
def State.canCleared (s : State) (c i : Nat) (w : Reg32) : State :=
  let s := s.onPkg fun p => p.wr (canBuf c i + 8) (p.rd (canBuf c i + 8) &&& ~~~ (w &&& 0x63000000))
  let s := if i < 4 then s.onPkg fun p => p.put (cbVector c i) (w.toNat % 64) else s
  if w.getLsbD 26 && (Fld.mk 0 16 4).of w = s.pkg.fld (cbRxSeq c i) then s.onPkg fun p => p.putB (cbFull c i) false else s

theorem State.canCleared_eq (s : State) (c i : Nat) (w : Reg32) :
    s.canCleared c i w = s.onPkg fun p => p.ctrlCleared (canBuf c i + 8) (decide (i < 4)) w := by
  unfold State.canCleared Pkg.ctrlCleared
  simp only [State.onPkg_ite, decide_eq_true_eq]
  rfl

theorem State.canCleared_of (s : State) (c i : Nat) (w : Reg32) : s.stakesKept (s.canCleared c i w) ∧
    (s.canCleared c i w).pkg.flag (cbFull c i) = (s.pkg.flag (cbFull c i) &&
      !(w.getLsbD 26 && decide ((Fld.mk 0 16 4).of w = s.pkg.fld (cbRxSeq c i)))) ∧
    (s.canCleared c i w).pkg.flag (cbTxReq c i) = s.pkg.flag (cbTxReq c i) ∧
    s.pkg.regsKept (s.canCleared c i w).pkg [canBuf c i + 8] ∧ Pkg.Only [.regs] s.pkg (s.canCleared c i w).pkg := by
  rw [State.canCleared_eq]
  exact ⟨⟨rfl, rfl, rfl⟩, s.pkg.ctrlCleared_of (canBuf c i + 8) (decide (i < 4)) w⟩

/-- R384, R386: what a write of `CTRL` does to a buffer that does not send, or is told to cancel. -/
theorem State.wCanCtrlWord_eq (s : State) (c i : Nat) (w : Reg32) (b : Bool) (h : (s.pkg.flag (cbTxReq c i) && !w.getLsbD 27) = false) :
    s.wCanCtrlWord c i w b =
    if i < 4 || !(s.canCleared c i w).pkg.flag (cbDir c i) then s.canCleared c i w
    else if w.getLsbD 27 then
      if !s.pkg.flag (cbTxReq c i) then s.canCleared c i w
      else if b then (s.canCleared c i w).onCan c fun x => { x with cancelled := addNew x.cancelled i }
      else (s.canCleared c i w).onPkg fun p => (p.putB (cbTxReq c i) false).putB (cbTxFail c i) true
    else if w.getLsbD 28 && (s.canCleared c i w).pkg.flag (cbEn c i) then (s.canCleared c i w).canRequest c i
    else s.canCleared c i w :=
  if_neg (ne_true_of_eq_false h)

theorem State.stake_crossedAt_vote (s : State) (src : Src) (a k : Nat) (ws : List Nat) (n : Nat) :
    ((s.crossedAt src a k ws).stake n).vote = (s.stake n).vote := by
  unfold State.crossedAt
  rcases s.crossed_eq src (targetOf a) k 0 (a % 0x1000000 :: ws) with h | h
  · rw [h]
  · rw [h]
    by_cases hn : n = 0
    · subst hn
      by_cases hp : s.present 0 = true
      · rw [State.onStake_stake_same hp]
        exact Stake.sendCell_vote _ _
      · unfold State.onStake
        rw [if_neg hp]
    · rw [State.onStake_stake_ne _ hn]

/-- What a write passes it passes still when its cells have been sent on. -/
theorem State.pkgAdmits.crossedAt {off : Nat} (h : s.pkgAdmits src off w) (a k : Nat) (ws : List Nat) :
    (s.crossedAt src a k ws).pkgAdmits src off w := by
  obtain ⟨h1, h2, h3⟩ := h
  refine ⟨?_, ?_, h3⟩
  · rw [State.stake_crossedAt_vote]
    exact h1
  · rw [State.locked, State.crossedAt_pkg]
    exact h2

/-- R394: the word a write of a buffer's `CTRL` comes to. -/
def State.ctrlWord (s : State) (src : Src) (c i : Nat) (w : Reg32) : Reg32 :=
  if src = .tune && s.locked && (i < 4 || !s.pkg.flag (cbDir c i)) then (w &&& 0x040F0000) ||| BitVec.ofNat 32 (s.pkg.fld (cbVector c i)) else w

theorem State.wCanBuf_ctrl (ha : s.pkgAdmits src (canBuf c i + 8) w) (ho : src ≠ .manager → s.canOwned c i = false) (b : Bool) :
    s.wCanBuf src c i 8 w b = s.wCanCtrlWord c i (s.ctrlWord src c i w) b := by
  have hn : ¬ ((src ≠ .manager && s.canOwned c i) = true) := by
    by_cases hm : src = .manager
    · simp [hm]
    · simp [ho hm]
  unfold State.ctrlWord
  unfold State.wCanBuf
  extract_lets off
  rw [State.pkgWrite_of_admits ha, if_neg hn]
  split
  · rfl
  · rfl

theorem State.ctrlWord_bits (s : State) (src : Src) (c i : Nat) (w : Reg32) : (s.ctrlWord src c i w).getLsbD 26 = w.getLsbD 26 ∧
    (Fld.mk 0 16 4).of (s.ctrlWord src c i w) = (Fld.mk 0 16 4).of w ∧
    (w.getLsbD 27 = false → (s.ctrlWord src c i w).getLsbD 27 = false) ∧ (w.getLsbD 28 = false → (s.ctrlWord src c i w).getLsbD 28 = false) := by
  unfold State.ctrlWord
  split
  · have hv : ∀ j, 6 ≤ j → (BitVec.ofNat 32 (s.pkg.fld (cbVector c i))).getLsbD j = false := fun j hj => by
      have h6 : s.pkg.fld (cbVector c i) < 2 ^ j := lt_of_lt_of_le (Fld.of_lt _ _) (Nat.pow_le_pow_right (by decide) (by change 6 ≤ j; exact hj))
      rw [BitVec.getLsbD_ofNat, Nat.testBit_lt_two_pow h6, Bool.and_false]
    have hb : ∀ j, 6 ≤ j → (w &&& 0x040F0000 ||| BitVec.ofNat 32 (s.pkg.fld (cbVector c i))).getLsbD j =
        (w.getLsbD j && (0x040F0000 : BitVec 32).getLsbD j) := fun j hj => by
      rw [BitVec.getLsbD_or, hv j hj, Bool.or_false, BitVec.getLsbD_and]
    refine ⟨?_, ?_, fun _ => ?_, fun _ => ?_⟩
    · rw [hb _ (by decide)]
      exact Bool.and_true _
    · refine Nat.eq_of_testBit_eq fun j => ?_
      rw [Fld.of_testBit, Fld.of_testBit]
      change (decide (j < 4) && _) = (decide (j < 4) && _)
      by_cases hj : j < 4
      · have h1 : (0x040F0000 : BitVec 32).getLsbD (16 + j) = true := by
          revert j
          decide
        change (_ && BitVec.getLsbD _ (16 + j)) = (_ && BitVec.getLsbD _ (16 + j))
        rw [hb _ (by omega), h1, Bool.and_true]
      · simp [hj]
    · rw [hb _ (by decide)]
      exact Bool.and_false _
    · rw [hb _ (by decide)]
      exact Bool.and_false _
  · exact ⟨rfl, rfl, id, id⟩

theorem State.ctrlWord_send (hi : 4 ≤ i) (hd : s.pkg.flag (cbDir c i) = true) : s.ctrlWord src c i w = w := by
  have : ¬ ((src = .tune && s.locked && (i < 4 || !s.pkg.flag (cbDir c i))) = true) := by simp [hd, hi]
  exact if_neg this

theorem State.canCleared_set (s : State) (c i : Nat) (w : Reg32) :
    (s.canCleared c i w).pkg.flag (cbDir c i) = s.pkg.flag (cbDir c i) ∧ (s.canCleared c i w).pkg.flag (cbEn c i) = s.pkg.flag (cbEn c i) := by
  obtain ⟨_, _, _, hk, _⟩ := s.canCleared_of c i w
  have hn : canBuf c i ∉ [canBuf c i + 8] := by simp
  exact ⟨hk.flag (f := cbDir c i) hn, hk.flag (f := cbEn c i) hn⟩

/-- R384: the latch of a buffer. -/
theorem canCtrlReadLatch_of (s : State) (c i : Nat) (hc : c < 2) (hl : c < s.pkg.net.can.length) (hi : i < 68) (ha : s.alive 1 = true) :
    ∃ t, exec (.canCtrlReadLatch c i) s = .next t ∧ (s.crossedAt .host (canBuf c i + 8) 0 []).stakesKept t ∧ t.pkg.regs = s.pkg.regs ∧
      t.pkg.hostReads = s.pkg.hostReads ++ [(canBuf c i + 8, s.pkg.rd (canBuf c i + 8))] ∧
      ∃ ws, (i, ws) ∈ (t.canSt c).shadow ∧ ws.length = 24 ∧ ∀ j, j < 24 → ws[j]? = some (s.pkg.rd (canBuf c i + 4 * j)) := by
  have he : exec (.canCtrlReadLatch c i) s = .next
      (((s.crossedAt .host (canBuf c i + 8) 0 []).canLatch c i).answer (canBuf c i + 8) (s.pkg.rd (canBuf c i + 8))) :=
    congrArg Host.Outcome.next (if_neg (by simp [ha]; omega))
  refine ⟨_, he, ?_⟩
  have hp := s.crossedAt_pkg .host (canBuf c i + 8) 0 []
  generalize s.crossedAt .host (canBuf c i + 8) 0 [] = q at hp ⊢
  refine ⟨⟨rfl, rfl, rfl⟩, ?_, ?_,
    (List.range 24).map fun j => s.pkg.rd (canBuf c i + 4 * j), ?_, ?_, fun j hj => ?_⟩
  · change q.pkg.regs = s.pkg.regs
    rw [hp]
  · change q.pkg.hostReads ++ _ = _
    rw [hp]
  · have hs : ((q.canLatch c i).answer (canBuf c i + 8) (s.pkg.rd (canBuf c i + 8))).canSt c = (q.canLatch c i).canSt c := rfl
    rw [hs]
    unfold State.canLatch State.onCan State.onNet State.canSt
    rw [State.onPkg_pkg, hp]
    dsimp only
    rw [nth_updAt_same _ _ _ _ hl]
    exact List.mem_append_right _ (List.mem_singleton_self _)
  · simp
  · rw [List.getElem?_map, List.getElem?_range hj]
    rfl

end
end Sys2Proof.Machine

/-! Writes of a buffer's `CTRL` (R384, R386), transmissions and errors (R386, R393), and the enable bit (R381). -/
namespace Sys2Proof.Machine
set_option Elab.async false

section
variable {s t : State} {c i : Nat} {w : Reg32} {src : Src}

theorem cbCtrl_mem (c i lo n : Nat) : (cbCtrl c i lo n).off ∈ [canBuf c i + 8] := List.mem_singleton_self _

/-- R386: a buffer that is sending notes a write that does not cancel it. -/
theorem State.wCanCtrlWord_busy (s : State) (b : Bool) (hb : s.pkg.flag (cbTxReq c i) = true) (h27 : w.getLsbD 27 = false) :
    s.stakesKept (s.wCanCtrlWord c i w b) ∧ (s.wCanCtrlWord c i w b).pkg.flag (cbWrErr c i) = true ∧
      s.pkg.regsKept (s.wCanCtrlWord c i w b).pkg [canBuf c i + 8] := by
  have he : s.wCanCtrlWord c i w b = s.onPkg fun p => p.putB (cbWrErr c i) true := by
    unfold State.wCanCtrlWord
    exact if_pos (by rw [hb, h27]; rfl)
  rw [he]
  exact ⟨⟨rfl, rfl, rfl⟩, Pkg.flag_putB_same _ _ _ (by change 29 + 1 ≤ 32; decide) rfl, .putB .refl (cbCtrl_mem c i 29 1)⟩

/-- R384: a release. -/
theorem State.wCanCtrlWord_release (s : State) (b : Bool) (hb : s.pkg.flag (cbTxReq c i) = false) (h26 : w.getLsbD 26 = true)
    (h27 : w.getLsbD 27 = false) (h28 : w.getLsbD 28 = false) :
    s.stakesKept (s.wCanCtrlWord c i w b) ∧ s.pkg.regsKept (s.wCanCtrlWord c i w b).pkg [canBuf c i + 8] ∧
      (s.wCanCtrlWord c i w b).pkg.flag (cbFull c i) =
        (s.pkg.flag (cbFull c i) && !((Fld.mk 0 16 4).of w = s.pkg.fld (cbRxSeq c i) : Bool)) := by
  obtain ⟨h1, h2, _, h4, _⟩ := s.canCleared_of c i w
  have he : s.wCanCtrlWord c i w b = s.canCleared c i w := by
    rw [s.wCanCtrlWord_eq c i w b (by simp [hb])]
    split
    · rfl
    · rw [if_neg (ne_true_of_eq_false h27), if_neg (by rw [h28]; exact Bool.false_ne_true)]
  rw [he]
  refine ⟨h1, h4, h2.trans ?_⟩
  rw [h26, Bool.true_and]

theorem State.canRelease_of (s : State) (hc : c < 2) (hi : i < 68) (ha : s.alive 1 = true) (hw : s.pkgAdmits src (canBuf c i + 8) w)
    (ho : src ≠ .manager → s.canOwned c i = false) (h26 : w.getLsbD 26 = true) (h27 : w.getLsbD 27 = false) (h28 : w.getLsbD 28 = false) :
    ∃ t, exec (.canRelease src c i w) s = .next t ∧ (s.crossedAt src (canBuf c i + 8) 1 [w.toNat]).stakesKept t ∧
        if s.pkg.flag (cbTxReq c i) then t.pkg.flag (cbWrErr c i) = true ∧ s.pkg.regsKept t.pkg [canBuf c i + 8]
        else s.pkg.regsKept t.pkg [canBuf c i + 8] ∧ t.pkg.flag (cbFull c i) = (s.pkg.flag (cbFull c i) &&
          !((Fld.mk 0 16 4).of w = s.pkg.fld (cbRxSeq c i) : Bool)) := by
  have he : exec (.canRelease src c i w) s = .next ((s.crossedAt src (canBuf c i + 8) 1 [w.toNat]).wCanBuf src c i 8 w false) :=
    congrArg Host.Outcome.next (if_neg (by simp [ha, h26]; omega))
  refine ⟨_, he, ?_⟩
  have hq := hw.crossedAt (canBuf c i + 8) 1 [w.toNat]
  have hp := s.crossedAt_pkg src (canBuf c i + 8) 1 [w.toNat]
  generalize s.crossedAt src (canBuf c i + 8) 1 [w.toNat] = q at hq hp ⊢
  rw [State.wCanBuf_ctrl hq (by rw [State.canOwned, hp]; exact ho)]
  obtain ⟨b26, bs, b27, b28⟩ := q.ctrlWord_bits src c i w
  generalize q.ctrlWord src c i w = v at b26 bs b27 b28 ⊢
  by_cases hb : s.pkg.flag (cbTxReq c i) = true
  · obtain ⟨h1, h2, h3⟩ := q.wCanCtrlWord_busy false (by rw [hp]; exact hb) (b27 h27)
    rw [if_pos hb, ← hp]
    exact ⟨h1, h2, h3⟩
  · obtain ⟨h1, h2, h3⟩ := q.wCanCtrlWord_release false (by rw [hp]; exact Bool.eq_false_of_not_eq_true hb) (b26.trans h26) (b27 h27) (b28 h28)
    rw [if_neg hb, ← hp, ← bs]
    exact ⟨h1, h2, h3⟩

theorem State.canTxRequest_of (s : State) (hc : c < 2) (hi : i < 68) (ha : s.alive 1 = true) (hw : s.pkgAdmits src (canBuf c i + 8) w)
    (ho : src ≠ .manager → s.canOwned c i = false) (h4 : 4 ≤ i) (hd : s.pkg.flag (cbDir c i) = true) (hn : s.pkg.flag (cbEn c i) = true)
    (hb : s.pkg.flag (cbTxReq c i) = false) (h28 : w.getLsbD 28 = true) (h27 : w.getLsbD 27 = false) :
    ∃ t, exec (.canTxRequest src c i w) s = .next t ∧ (s.crossedAt src (canBuf c i + 8) 1 [w.toNat]).stakesKept t ∧
      t.pkg.flag (cbTxReq c i) = true ∧ s.pkg.regsKept t.pkg [canBuf c i + 8] := by
  have he : exec (.canTxRequest src c i w) s = .next ((s.crossedAt src (canBuf c i + 8) 1 [w.toNat]).wCanBuf src c i 8 w false) :=
    congrArg Host.Outcome.next (if_neg (by simp [ha, h28]; omega))
  refine ⟨_, he, ?_⟩
  have hq := hw.crossedAt (canBuf c i + 8) 1 [w.toNat]
  have hp := s.crossedAt_pkg src (canBuf c i + 8) 1 [w.toNat]
  generalize s.crossedAt src (canBuf c i + 8) 1 [w.toNat] = q at hq hp ⊢
  rw [State.wCanBuf_ctrl hq (by rw [State.canOwned, hp]; exact ho), State.ctrlWord_send h4 (by rw [hp]; exact hd),
    q.wCanCtrlWord_eq c i w false (by rw [hp, hb]; rfl)]
  obtain ⟨h1, _, _, hk, _⟩ := q.canCleared_of c i w
  obtain ⟨g1, g2⟩ := q.canCleared_set c i w
  rw [hp] at g1 g2 hk
  rw [if_neg (by simp [g1, hd, h4]), if_neg (ne_true_of_eq_false h27), if_pos (by simp [h28, g2, hn])]
  generalize q.canCleared c i w = r at h1 hk ⊢
  exact ⟨h1.trans ⟨rfl, rfl, rfl⟩, Pkg.flag_putB_same _ _ _ (by change 28 + 1 ≤ 32; decide) rfl,
    hk.trans (.putB .refl (cbCtrl_mem c i 28 1))⟩

theorem addNew_mem (l : List Nat) (x : Nat) : x ∈ addNew l x := by
  unfold addNew
  split
  · next h => simpa using h
  · exact List.mem_append_right _ (List.mem_singleton_self _)

theorem State.canSt_onCan {c : Nat} (h : c < s.pkg.net.can.length) (f : CanSt → CanSt) : (s.onCan c f).canSt c = f (s.canSt c) :=
  nth_updAt_same _ _ _ _ h

theorem State.canCancel_of (s : State) (hc : c < 2) (hl : c < s.pkg.net.can.length) (hi : i < 68) (ha : s.alive 1 = true)
    (hw : s.pkgAdmits src (canBuf c i + 8) w) (ho : src ≠ .manager → s.canOwned c i = false) (h4 : 4 ≤ i)
    (hd : s.pkg.flag (cbDir c i) = true) (hb : s.pkg.flag (cbTxReq c i) = true) (h27 : w.getLsbD 27 = true) :
    (∃ t, exec (.canCancel src c i w false) s = .next t ∧ (s.crossedAt src (canBuf c i + 8) 1 [w.toNat]).stakesKept t ∧
      t.pkg.flag (cbTxReq c i) = false ∧ t.pkg.flag (cbTxFail c i) = true ∧ s.pkg.regsKept t.pkg [canBuf c i + 8]) ∧
    ∃ t, exec (.canCancel src c i w true) s = .next t ∧ (s.crossedAt src (canBuf c i + 8) 1 [w.toNat]).stakesKept t ∧
      t.pkg.flag (cbTxReq c i) = true ∧ i ∈ (t.canSt c).cancelled := by
  have he : ∀ b, exec (.canCancel src c i w b) s = .next ((s.crossedAt src (canBuf c i + 8) 1 [w.toNat]).wCanBuf src c i 8 w b) := fun b =>
    congrArg Host.Outcome.next (if_neg (by simp [ha, h27]; omega))
  rw [he, he]
  have hq := hw.crossedAt (canBuf c i + 8) 1 [w.toNat]
  have hp := s.crossedAt_pkg src (canBuf c i + 8) 1 [w.toNat]
  generalize s.crossedAt src (canBuf c i + 8) 1 [w.toNat] = q at hq hp ⊢
  have hx : ∀ b, q.wCanBuf src c i 8 w b =
      if b then (q.canCleared c i w).onCan c fun x => { x with cancelled := addNew x.cancelled i }
      else (q.canCleared c i w).onPkg fun p => (p.putB (cbTxReq c i) false).putB (cbTxFail c i) true := fun b => by
    obtain ⟨g1, _⟩ := q.canCleared_set c i w
    rw [hp] at g1
    rw [State.wCanBuf_ctrl hq (by rw [State.canOwned, hp]; exact ho), State.ctrlWord_send h4 (by rw [hp]; exact hd),
      q.wCanCtrlWord_eq c i w b (by simp [h27]), if_neg (by simp [g1, hd, h4]), if_pos h27, if_neg (by simp [hp, hb])]
  obtain ⟨h1, _, h3, hk, hon⟩ := q.canCleared_of c i w
  rw [hx, hx]
  generalize q.canCleared c i w = r at h1 h3 hk hon ⊢
  rw [hp] at h3 hk hon
  rw [if_neg Bool.false_ne_true, if_pos rfl]
  refine ⟨⟨_, rfl, h1.trans ⟨rfl, rfl, rfl⟩, ?_, ?_, ?_⟩, ⟨_, rfl, h1.trans ⟨rfl, rfl, rfl⟩, h3.trans hb, ?_⟩⟩
  · rw [State.onPkg_pkg, Pkg.flag, Pkg.putB, Pkg.fld_put_ne _ _ _ _ (.inr (.inl (by change 24 + 1 ≤ 28; decide)))]
    exact Pkg.flag_putB_same _ _ _ (by change 28 + 1 ≤ 32; decide) rfl
  · exact Pkg.flag_putB_same _ _ _ (by change 24 + 1 ≤ 32; decide) rfl
  · exact hk.trans (.putB (.putB .refl (cbCtrl_mem c i 28 1)) (cbCtrl_mem c i 24 1))
  · rw [State.canSt_onCan (by rw [hon.net]; exact hl)]
    exact addNew_mem _ _

/-! Transmissions and errors. -/

theorem status_apart (hc : c < 2) (hi : i < 68) {o : Nat} (ho : o < 0x60) : canBuf c i + o ∉ errRegs c := fun h =>
  canBuf_apart hc hi ho (errRegs_frame c h)

theorem State.canSending_of {b ago : Nat} (h : s.canSending c b ago = true) : s.canOn c = true ∧ b < 64 ∧
    ((∀ x t0, (s.canSt c).excl = some (x, t0) → x ≠ b) → s.pkg.flag (cbTxReq c (b + 4)) = true) := by
  unfold State.canSending at h
  extract_lets now sof wait op ex held event at h
  simp only [Bool.and_eq_true, decide_eq_true_eq] at h
  obtain ⟨⟨⟨⟨⟨h1, _⟩, h3⟩, _⟩, _⟩, h6⟩ := h
  refine ⟨h1, h3, fun hx => ?_⟩
  rcases Bool.or_eq_true_iff.mp h6 with h6 | h6
  · simp only [ex] at h6
    split at h6
    · next x t0 he =>
      simp only [Bool.and_eq_true, decide_eq_true_eq] at h6
      exact absurd h6.1 (hx x t0 he)
    · cases h6
  · simp only [event, Bool.and_eq_true] at h6
    exact h6.1.1.1

end
end Sys2Proof.Machine

/-! Transmissions and errors of a CAN controller (R386, R393), and its enable bit (R381). -/
namespace Sys2Proof.Machine
set_option Elab.async false

section
variable {s t : State} {c i : Nat} {w : Reg32} {src : Src}

/-- R386: the words of a buffer whose frame has been sent. -/
def Pkg.canSent (p : Pkg) (a : Nat) (stamp v : BitVec 32) : Pkg :=
  (((p.putB ⟨a + 8, 28, 1⟩ false).putB ⟨a + 8, 25, 1⟩ true).wr (a + 0x0C) stamp).wr (a + 0x14) v

theorem Pkg.canSent_of (p : Pkg) (a : Nat) (stamp v : BitVec 32) : (p.canSent a stamp v).flag ⟨a + 8, 28, 1⟩ = false ∧
    (p.canSent a stamp v).flag ⟨a + 8, 25, 1⟩ = true ∧ (p.canSent a stamp v).rd (a + 0x0C) = stamp ∧
    p.regsKept (p.canSent a stamp v) [a + 8, a + 0x0C, a + 0x14] ∧ Pkg.Only [.regs] p (p.canSent a stamp v) := by
  unfold Pkg.canSent
  have hk : p.regsKept ((p.putB ⟨a + 8, 28, 1⟩ false).putB ⟨a + 8, 25, 1⟩ true) [a + 8, a + 0x0C, a + 0x14] :=
    .putB (.putB .refl List.mem_cons_self) List.mem_cons_self
  have h28 : ((p.putB ⟨a + 8, 28, 1⟩ false).putB ⟨a + 8, 25, 1⟩ true).flag ⟨a + 8, 28, 1⟩ = false := by
    rw [Pkg.flag, Pkg.putB, Pkg.fld_put_ne _ _ _ _ (.inr (.inl (by change 25 + 1 ≤ 28; decide)))]
    exact Pkg.flag_putB_same _ _ _ (by change 28 + 1 ≤ 32; decide) rfl
  have h25 : ((p.putB ⟨a + 8, 28, 1⟩ false).putB ⟨a + 8, 25, 1⟩ true).flag ⟨a + 8, 25, 1⟩ = true :=
    Pkg.flag_putB_same _ _ _ (by change 25 + 1 ≤ 32; decide) rfl
  have ho : Pkg.Only [.regs] p ((p.putB ⟨a + 8, 28, 1⟩ false).putB ⟨a + 8, 25, 1⟩ true) := .putB (.putB .refl)
  generalize ((p.putB ⟨a + 8, 28, 1⟩ false).putB ⟨a + 8, 25, 1⟩ true) = q at hk h28 h25 ho ⊢
  refine ⟨?_, ?_, ?_, .wr (.wr hk (by simp)) (by simp), .wr (.wr ho)⟩
  · rw [Pkg.flag, Pkg.fld_wr_ne _ _ _ (by change a + 8 ≠ _; omega), Pkg.fld_wr_ne _ _ _ (by change a + 8 ≠ _; omega)]
    exact h28
  · rw [Pkg.flag, Pkg.fld_wr_ne _ _ _ (by change a + 8 ≠ _; omega), Pkg.fld_wr_ne _ _ _ (by change a + 8 ≠ _; omega)]
    exact h25
  · rw [Pkg.rd_wr_ne _ _ (by omega), Pkg.rd_wr_same]

theorem Pkg.fld_congr {p q : Pkg} (h : q.regs = p.regs) (f : Fld) : q.fld f = p.fld f := by rw [Pkg.fld, Pkg.rd, h, ← Pkg.rd, ← Pkg.fld]

/-- R388: the registers at the start of a basic cycle. -/
def Pkg.canCycled (p : Pkg) (c b : Nat) : Pkg := (p.putB (Reg.CAN_STATUS_TT_RUN c) true).put (Reg.CAN_STATUS_CYCLE c) (b % 64)

theorem Pkg.canCycled_low (p : Pkg) (c b : Nat) {f : Fld} (hf : f.lo + f.w ≤ 22) : (p.canCycled c b).fld f = p.fld f := by
  have h28 : f.lo + f.w ≤ 28 := by omega
  rw [Pkg.canCycled, Pkg.fld_put_ne _ _ _ _ (.inr (.inr hf)), Pkg.putB, Pkg.fld_put_ne _ _ _ _ (.inr (.inr h28))]

theorem State.canCycle_regs (s : State) (c : Nat) (v : BitVec 32) (b : Nat) : (s.canCycle c v b).pkg.regs = (s.pkg.canCycled c b).regs := rfl

theorem State.canCycle_fields (s : State) (c : Nat) (v : BitVec 32) (b : Nat) : (s.canCycle c v b).canTec c = s.canTec c ∧
    (s.canCycle c v b).canRec c = s.canRec c := by
  have h : ∀ f : Fld, f.lo + f.w ≤ 22 → (s.canCycle c v b).pkg.fld f = s.pkg.fld f := fun f hf =>
    (Pkg.fld_congr (s.canCycle_regs c v b) f).trans (s.pkg.canCycled_low c b hf)
  exact ⟨h _ (by change 8 + 9 ≤ 22; decide), h _ (by change 0 + 8 ≤ 22; decide)⟩

/-- R386: the buffer and the controller's notes once a frame has been sent. -/
def State.canSentOff (s : State) (c i b : Nat) (stamp : BitVec 32) : State :=
  let s := s.onPkg fun p =>
    ((((p.putB (cbTxReq c i) false).putB (cbTxDone c i) true).wr (canBuf c i + 0x0C) stamp).wr (canBuf c i + 0x14)
      (BitVec.ofNat 32 (p.fld (cbId c i))))
  s.onCan c fun x =>
    { x with
      cancelled := x.cancelled.filter (· ≠ i)
      excl := match x.excl with | some (y, t) => if y = b then none else some (y, t) | none => none }

theorem State.canSentOff_of (s : State) (c i b : Nat) (stamp : BitVec 32) (hl : c < s.pkg.net.can.length) :
    s.stakesKept (s.canSentOff c i b stamp) ∧ (s.canSentOff c i b stamp).pkg.regs =
      (s.pkg.canSent (canBuf c i) stamp (BitVec.ofNat 32 (s.pkg.fld (cbId c i)))).regs ∧
    i ∉ ((s.canSentOff c i b stamp).canSt c).cancelled ∧ c < (s.canSentOff c i b stamp).pkg.net.can.length := by
  refine ⟨⟨rfl, rfl, rfl⟩, rfl, ?_, ?_⟩
  · unfold State.canSentOff
    dsimp only
    rw [State.canSt_onCan (s := s.onPkg _) hl]
    simp
  · unfold State.canSentOff State.onCan
    dsimp only [State.onNet, State.onPkg]
    rw [updAt, List.length_modify]
    exact hl

/-- R386, R393: the counts and the schedule of a controller whose frame has been sent. -/
def State.canSentOn (s : State) (c i b : Nat) (stamp : BitVec 32) : State :=
  let s := s.canErr c (s.canTec c - 1) (s.canRec c)
  if s.isRefBuf c b then s.canCycle c stamp (s.pkg.fld ⟨canBuf c i + 0x20, 0, 8⟩) else s

theorem canTxDone_eq (s : State) (c b ago : Nat) (h : s.canSending c b ago = true) : exec (.canTxDone c b ago) s =
    .next ((s.canSentOff c (b + 4) b (s.canStamp ago)).canSentOn c (b + 4) b (s.canStamp ago)) :=
  congrArg Host.Outcome.next (if_neg (c := (!s.canSending c b ago) = true) (by simp [h]))

/-- R386, R393: the counts of a controller after a frame leave the buffers and what is noted of them. -/
theorem State.canSentOn_of (q : State) (i b : Nat) (stamp : BitVec 32) (hl : c < q.pkg.net.can.length) :
    State.Can (errRegs c) q (q.canSentOn c i b stamp) ∧ (q.canSentOn c i b stamp).canTec c = min (q.canTec c - 1) 511 ∧
      ((q.canSentOn c i b stamp).canSt c).cancelled = (q.canSt c).cancelled := by
  obtain ⟨e1, e2, _, _, e5⟩ := q.canErr_of c (q.canTec c - 1) (q.canRec c)
  unfold State.canSentOn
  generalize q.canErr c (q.canTec c - 1) (q.canRec c) = r at e1 e2 e5 ⊢
  have hrc : r.canSt c = q.canSt c := by rw [State.canSt, e5.net, ← State.canSt]
  dsimp only
  split
  · refine ⟨e1.trans ((r.canCycle_of ..).mono (List.cons_subset_cons _ (List.nil_subset _))), (r.canCycle_fields ..).1.trans e2, ?_⟩
    unfold State.canCycle
    dsimp only
    rw [State.canSt_onCan (by rw [State.onPkg_pkg]; change c < r.pkg.net.can.length; rw [e5.net]; exact hl)]
    exact (congrArg CanSt.cancelled hrc : (r.canSt c).cancelled = _)
  · exact ⟨e1, e2, congrArg CanSt.cancelled hrc⟩

/-- R386, R393: a frame that has been sent. -/
theorem canTxDone_of (s : State) (c b ago : Nat) (hl : c < s.pkg.net.can.length) (h : s.canSending c b ago = true) :
    ∃ t, exec (.canTxDone c b ago) s = .next t ∧ (∀ m, m ≠ 1 → t.stake m = s.stake m) ∧ t.pkg.flag (cbTxReq c (b + 4)) = false ∧
      t.pkg.flag (cbTxDone c (b + 4)) = true ∧ t.pkg.rd (canBuf c (b + 4) + 0x0C) = s.canStamp ago ∧ t.canTec c = s.canTec c - 1 ∧
      b + 4 ∉ (t.canSt c).cancelled := by
  obtain ⟨hon, hb, _⟩ := State.canSending_of h
  obtain ⟨hc, _⟩ := State.canOn_of hon
  refine ⟨_, canTxDone_eq s c b ago h, ?_⟩
  obtain ⟨h1, h2, h3, hk, _⟩ := s.pkg.canSent_of (canBuf c (b + 4)) (s.canStamp ago) (BitVec.ofNat 32 (s.pkg.fld (cbId c (b + 4))))
  obtain ⟨q1, q2, q3, q4⟩ := s.canSentOff_of c (b + 4) b (s.canStamp ago) hl
  generalize s.canSentOff c (b + 4) b (s.canStamp ago) = q at q1 q2 q3 q4 ⊢
  generalize s.pkg.canSent (canBuf c (b + 4)) (s.canStamp ago) (BitVec.ofNat 32 (s.pkg.fld (cbId c (b + 4)))) = p at h1 h2 h3 hk q2
  have hqf : ∀ f, q.pkg.fld f = p.fld f := Pkg.fld_congr q2
  have hst : (Reg.CAN_STATUS_TEC c).off ∉ [canBuf c (b + 4) + 8, canBuf c (b + 4) + 0x0C, canBuf c (b + 4) + 0x14] := by
    have h8 := canBuf_apart hc (i := b + 4) (by omega) (o := 8) (by decide)
    have hC := canBuf_apart hc (i := b + 4) (by omega) (o := 0x0C) (by decide)
    have h14 := canBuf_apart hc (i := b + 4) (by omega) (o := 0x14) (by decide)
    simp only [frameRegs, List.mem_cons, not_or, List.not_mem_nil, or_false] at h8 hC h14 ⊢
    exact ⟨fun h => h8.1 h.symm, fun h => hC.1 h.symm, fun h => h14.1 h.symm⟩
  have hqt : q.canTec c = s.canTec c := (hqf _).trans (hk.fld hst)
  obtain ⟨e1, e2, e3⟩ := q.canSentOn_of (b + 4) b (s.canStamp ago) q4
  generalize q.canSentOn c (b + 4) b (s.canStamp ago) = t at e1 e2 e3 ⊢
  have hap : ∀ {o : Nat}, o < 0x60 → canBuf c (b + 4) + o ∉ errRegs c := fun ho => status_apart hc (by omega) ho
  refine ⟨fun m hm => (e1.others m hm).trans (q1.stake m), ?_, ?_, ?_, ?_, ?_⟩
  · rw [e1.regs.flag (f := cbTxReq c (b + 4)) (hap (by decide)), Pkg.flag, hqf]
    exact h1
  · rw [e1.regs.flag (f := cbTxDone c (b + 4)) (hap (by decide)), Pkg.flag, hqf]
    exact h2
  · rw [e1.regs _ (hap (by decide)), Pkg.rd, q2]
    exact h3
  · rw [e2, hqt]
    have := s.canTec_lt c
    omega
  · rw [e3]
    exact q3

/-- R393: the counts after an error of a transmission, which a lost arbitration is not. -/
def State.canTxCounts (s : State) (c kind : Nat) (arb : Bool) : State :=
  if arb then s else s.canErr c (s.canTec c + s.txRise c kind) (s.canRec c)

/-- R386: a frame that has not been sent waits on, unless a cancel waits for it. -/
def State.canUnsent (s : State) (c b : Nat) : State :=
  let i := b + 4
  let ex : Bool := match (s.canSt c).excl with | some (x, _) => x = b | none => false
  if ex then s.ttMiss c b
  else if (s.canSt c).cancelled.contains i then
    (s.onPkg fun p => (p.putB (cbTxReq c i) false).putB (cbTxFail c i) true).onCan c fun x =>
      { x with cancelled := x.cancelled.filter (· ≠ i) }
  else s

theorem canTxError_eq (s : State) (c b ago kind : Nat) (arb : Bool) (h : s.canSending c b ago = true) :
    exec (.canTxError c b ago arb kind) s = .next ((s.canTxCounts c kind arb).canUnsent c b) :=
  congrArg Host.Outcome.next (if_neg (c := (!s.canSending c b ago) = true) (by simp [h]))

theorem State.canTxCounts_of (s : State) (c kind : Nat) (arb : Bool) : State.Can (errRegs c) s (s.canTxCounts c kind arb) ∧
    (s.canTxCounts c kind arb).canTec c = (if arb then s.canTec c else min (s.canTec c + s.txRise c kind) 511) ∧
    (s.canTxCounts c kind arb).canSt c = s.canSt c := by
  obtain ⟨e1, e2, _, _, e5⟩ := s.canErr_of c (s.canTec c + s.txRise c kind) (s.canRec c)
  unfold State.canTxCounts
  cases arb with
  | true => exact ⟨.refl, rfl, rfl⟩
  | false => exact ⟨e1, e2, by rw [if_neg Bool.false_ne_true, State.canSt, e5.net, ← State.canSt]⟩

/-- R386: the words of a buffer whose frame will not be sent. -/
def Pkg.canGaveUp (p : Pkg) (c i : Nat) : Pkg := (p.putB (cbTxReq c i) false).putB (cbTxFail c i) true

theorem Pkg.canGaveUp_of (p : Pkg) (c i : Nat) : (p.canGaveUp c i).flag (cbTxReq c i) = false ∧ (p.canGaveUp c i).flag (cbTxFail c i) = true ∧
    p.regsKept (p.canGaveUp c i) [canBuf c i + 8] := by
  unfold Pkg.canGaveUp
  refine ⟨?_, ?_, .putB (.putB .refl (cbCtrl_mem c i 28 1)) (cbCtrl_mem c i 24 1)⟩
  · rw [Pkg.flag, Pkg.putB, Pkg.fld_put_ne _ _ _ _ (.inr (.inl (by change 24 + 1 ≤ 28; decide)))]
    exact Pkg.flag_putB_same _ _ _ (by change 28 + 1 ≤ 32; decide) rfl
  · exact Pkg.flag_putB_same _ _ _ (by change 24 + 1 ≤ 32; decide) rfl

theorem State.canUnsent_of (s : State) (c b : Nat) (hx : ∀ x t0, (s.canSt c).excl = some (x, t0) → x ≠ b)
    (hq : s.pkg.flag (cbTxReq c (b + 4)) = true) : s.stakesKept (s.canUnsent c b) ∧ s.pkg.regsKept (s.canUnsent c b).pkg [canBuf c (b + 4) + 8] ∧
      ((s.canUnsent c b).pkg.flag (cbTxReq c (b + 4)) = !((s.canSt c).cancelled.contains (b + 4))) ∧
      ((s.canSt c).cancelled.contains (b + 4) = true → (s.canUnsent c b).pkg.flag (cbTxFail c (b + 4)) = true) := by
  have hex : ¬ ((match (s.canSt c).excl with | some (x, _) => decide (x = b) | none => false) = true) := by
    split
    · next x t0 he => simpa using hx x t0 he
    · exact Bool.false_ne_true
  unfold State.canUnsent
  extract_lets i ex
  rw [show ex = false from Bool.eq_false_of_not_eq_true hex, if_neg Bool.false_ne_true]
  by_cases hc : (s.canSt c).cancelled.contains (b + 4) = true
  · rw [if_pos hc, hc]
    obtain ⟨h1, h2, h3⟩ := s.pkg.canGaveUp_of c (b + 4)
    have hr : ((s.onPkg fun p => (p.putB (cbTxReq c i) false).putB (cbTxFail c i) true).onCan c fun x =>
      { x with cancelled := x.cancelled.filter (· ≠ i) }).pkg.regs = (s.pkg.canGaveUp c (b + 4)).regs := rfl
    refine ⟨⟨rfl, rfl, rfl⟩, fun o ho => ?_, ?_, fun _ => ?_⟩
    · rw [Pkg.rd, hr]
      exact h3 o ho
    · rw [Pkg.flag, Pkg.fld_congr hr]
      exact h1
    · rw [Pkg.flag, Pkg.fld_congr hr]
      exact h2
  · rw [if_neg hc, Bool.eq_false_of_not_eq_true hc]
    exact ⟨s.stakesKept_refl, .refl, hq, nofun⟩

/-- R386, R393: a frame that has not been sent. -/
theorem canTxError_of (s : State) (c b ago kind : Nat) (arb : Bool) (h : s.canSending c b ago = true)
    (hx : ∀ x t0, (s.canSt c).excl = some (x, t0) → x ≠ b) :
    ∃ t, exec (.canTxError c b ago arb kind) s = .next t ∧ (∀ m, m ≠ 1 → t.stake m = s.stake m) ∧
      t.canTec c = (if arb then s.canTec c else min (s.canTec c + s.txRise c kind) 511) ∧
      (t.pkg.flag (cbTxReq c (b + 4)) = !((s.canSt c).cancelled.contains (b + 4))) ∧
      ((s.canSt c).cancelled.contains (b + 4) = true → t.pkg.flag (cbTxFail c (b + 4)) = true) ∧
      (arb = false → 255 < s.canTec c + s.txRise c kind → t.pkg.fld (Reg.CAN_STATUS_STATE c) = 2 ∧
        (s.stake 1).posted (t.stake 1) .canBusOff 0 [c]) := by
  obtain ⟨hon, hb, htx⟩ := State.canSending_of h
  obtain ⟨hc, hp, _, h2⟩ := State.canOn_of hon
  refine ⟨_, canTxError_eq s c b ago kind arb h, ?_⟩
  obtain ⟨e1, e2, e3⟩ := s.canTxCounts_of c kind arb
  have hoff : arb = false → 255 < s.canTec c + s.txRise c kind → (s.canTxCounts c kind arb).pkg.fld (Reg.CAN_STATUS_STATE c) = 2 ∧
      (s.stake 1).posted ((s.canTxCounts c kind arb).stake 1) .canBusOff 0 [c] := fun ha hu => by
    subst ha
    obtain ⟨_, _, _, e4, _⟩ := s.canErr_of c (s.canTec c + s.txRise c kind) (s.canRec c)
    have hn : canNew (s.canTec c + s.txRise c kind) (s.canRec c) = 2 := if_pos hu
    rw [if_neg h2, hn] at e4
    exact ⟨e4, (State.canErr_posts hp h2).1 hu⟩
  generalize s.canTxCounts c kind arb = q at e1 e2 e3 hoff ⊢
  have hst : ∀ f : Fld, f.off = Reg.CAN_STATUS c → f.off ∉ [canBuf c (b + 4) + 8] := fun f hf h => by
    have := List.mem_singleton.mp h
    exact status_apart hc (i := b + 4) (by omega) (o := 8) (by decide) (this ▸ hf ▸ List.mem_cons_self)
  obtain ⟨u1, u2, u3, u4⟩ := q.canUnsent_of c b (by rw [e3]; exact hx)
    (by rw [e1.regs.flag (f := cbTxReq c (b + 4)) (status_apart hc (by omega) (by decide))]; exact htx hx)
  rw [e3] at u3 u4
  generalize q.canUnsent c b = t at u1 u2 u3 u4 ⊢
  refine ⟨fun m hm => (u1.stake m).trans (e1.others m hm), ?_, u3, u4, fun ha hu => ?_⟩
  · rw [State.canTec, u2.fld (hst _ rfl)]
    exact e2
  · rw [u2.fld (hst _ rfl), u1.stake]
    exact hoff ha hu

/-- R393: an error of a reception. -/
theorem canRxError_of (s : State) (c kind : Nat) (h : s.canOn c = true) :
    ∃ t, exec (.canRxError c kind) s = .next t ∧ (∀ m, m ≠ 1 → t.stake m = s.stake m) ∧ t.canRec c = min (s.canRec c + rxRise kind) 255 ∧
      t.canTec c = s.canTec c ∧
      (s.canTec c ≤ 127 → t.pkg.fld (Reg.CAN_STATUS_STATE c) = (if 127 < s.canRec c + rxRise kind then 1 else 0)) ∧
      (s.canTec c ≤ 127 → 127 < s.canRec c + rxRise kind → s.pkg.fld (Reg.CAN_STATUS_STATE c) = 0 →
        (s.stake 1).posted (t.stake 1) .canErrPassive 0 [s.canTec c, s.canRec c + rxRise kind]) := by
  obtain ⟨hc, hp, _, h2⟩ := State.canOn_of h
  obtain ⟨e1, e2, e3, e4, _⟩ := s.canErr_of c (s.canTec c) (s.canRec c + rxRise kind)
  have hn : s.canTec c ≤ 127 → canNew (s.canTec c) (s.canRec c + rxRise kind) = if 127 < s.canRec c + rxRise kind then 1 else 0 := fun hx => by
    unfold canNew
    have h255 : ¬ 255 < s.canTec c := by omega
    have h127 : ¬ 127 < s.canTec c := by omega
    simp only [h255, h127, if_false, decide_false, Bool.false_or, decide_eq_true_eq]
  refine ⟨_, congrArg Host.Outcome.next (if_pos h), e1.others, e3, e2.trans ?_, fun hx => ?_, fun hx hr h0 => ?_⟩
  · have := s.canTec_lt c
    omega
  · rw [e4, if_neg h2]
    exact hn hx
  · exact (State.canErr_posts hp h2).2 ((hn hx).trans (if_pos hr)) (by omega)

/-! Recovery and the enable bit. -/

theorem State.canJoin_of (s : State) (c : Nat) : s.stakesKept (s.canJoin c) ∧ (s.canJoin c).canTec c = 0 ∧ (s.canJoin c).canRec c = 0 ∧
    (s.canJoin c).pkg.fld (Reg.CAN_STATUS_STATE c) = 0 ∧ s.pkg.regsKept (s.canJoin c).pkg [Reg.CAN_STATUS c] ∧
    Pkg.Only [.regs] s.pkg (s.canJoin c).pkg := by
  obtain ⟨h1, h2, h3, h4, h5⟩ := s.pkg.canCounts_of c (tec := 0) (rec := 0) (st := 0) (by decide) (by decide) (by decide)
  exact ⟨⟨rfl, rfl, rfl⟩, h1, h2, h3, h4, h5⟩

theorem Pkg.flag_wr (p : Pkg) (f : Fld) (hw : f.w = 1) (v : Reg32) : (p.wr f.off v).flag f = v.getLsbD f.lo := by
  rw [Pkg.flag, Pkg.fld, Pkg.rd_wr_same]
  exact Fld.of_flag f hw v

/-- The bit a register's row lets be written is stored as written. -/
theorem Pkg.flag_store (p : Pkg) {r : RegD} {f : Fld} (hr : regAt f.off = some r) (hc : (counterWidth r).isSome = false)
    (hb : r.base ≠ Reg.ANG_TICK_STATUS) (hm : (r.mask .rw).getLsbD f.lo = true) (h1 : (r.mask .w1c).getLsbD f.lo = false) (hw : f.w = 1)
    (hlo : f.lo < 32) (w : Reg32) : (p.store f.off w).flag f = w.getLsbD f.lo := by
  unfold Pkg.store
  rw [hr]
  dsimp only
  rw [Pkg.flag_wr _ f hw]
  simp [RegD.merge, RegD.clear, hc, hb, (BitVec.getLsbD_eq_getElem hlo).symm.trans hm, (BitVec.getLsbD_eq_getElem hlo).symm.trans h1, hlo]

theorem Pkg.store_kept (p : Pkg) (off : Nat) (w : Reg32) : p.regsKept (p.store off w) [off] := by
  unfold Pkg.store
  split
  · exact .wr .refl (List.mem_singleton_self _)
  · exact .refl

theorem Pkg.store_canCtrl (p : Pkg) {c : Nat} (hc : c < 2) (w : Reg32) :
    (p.store (Reg.CAN_CTRL c) w).flag (Reg.CAN_CTRL_EN c) = w.getLsbD 31 := by
  obtain ⟨r, hr, hk, hb, hm, h1⟩ : ∃ r, regAt (Reg.CAN_CTRL c) = some r ∧ (counterWidth r).isSome = false ∧ r.base ≠ Reg.ANG_TICK_STATUS ∧
      (r.mask .rw).getLsbD 31 = true ∧ (r.mask .w1c).getLsbD 31 = false := by
    obtain rfl | rfl : c = 0 ∨ c = 1 := by omega
    · exact ⟨_, rfl, by decide +kernel, by decide +kernel, by decide +kernel, by decide +kernel⟩
    · exact ⟨_, rfl, by decide +kernel, by decide +kernel, by decide +kernel, by decide +kernel⟩
  exact p.flag_store (f := Reg.CAN_CTRL_EN c) hr hk hb hm h1 rfl (by change 31 < 32; decide) w

/-- R388: the schedule of a controller that leaves it. -/
def State.canTtOff (s : State) (c : Nat) (on : Bool) : State :=
  (s.onPkg fun p => (p.putB (Reg.CAN_STATUS_TT_RUN c) false).put (Reg.CAN_STATUS_CYCLE c) 0).onCan c fun x =>
    { x with excl := none, sentAt := none, nextCycle := 0, cancelled := if on then x.cancelled else [] }

/-- The registers of a controller that leaves the schedule. -/
def Pkg.canStill (p : Pkg) (c : Nat) : Pkg := (p.putB (Reg.CAN_STATUS_TT_RUN c) false).put (Reg.CAN_STATUS_CYCLE c) 0

theorem State.canTtOff_regs (s : State) (c : Nat) (on : Bool) : (s.canTtOff c on).pkg.regs = (s.pkg.canStill c).regs := rfl

theorem Pkg.canStill_of (p : Pkg) (c : Nat) : p.regsKept (p.canStill c) [Reg.CAN_STATUS c] ∧ (p.canStill c).flag (Reg.CAN_STATUS_TT_RUN c) = false ∧
    ∀ f : Fld, f.lo + f.w ≤ 22 ∨ 29 ≤ f.lo → (p.canStill c).fld f = p.fld f := by
  have ha : (Reg.CAN_STATUS_TT_RUN c).off ∈ [Reg.CAN_STATUS c] := List.mem_singleton.mpr rfl
  have hb : (Reg.CAN_STATUS_CYCLE c).off ∈ [Reg.CAN_STATUS c] := List.mem_singleton.mpr rfl
  unfold Pkg.canStill
  refine ⟨.put (.putB .refl ha) hb, ?_, fun f hf => ?_⟩
  · rw [Pkg.flag, Pkg.fld_put_ne _ _ _ _ (.inr (.inl (by change 22 + 6 ≤ 28; decide)))]
    exact Pkg.flag_putB_same _ _ _ (by change 28 + 1 ≤ 32; decide) rfl
  · have h1 : (Reg.CAN_STATUS_CYCLE c).lo + (Reg.CAN_STATUS_CYCLE c).w ≤ f.lo ∨ f.lo + f.w ≤ (Reg.CAN_STATUS_CYCLE c).lo := by
      change 22 + 6 ≤ f.lo ∨ f.lo + f.w ≤ 22
      omega
    have h2 : (Reg.CAN_STATUS_TT_RUN c).lo + (Reg.CAN_STATUS_TT_RUN c).w ≤ f.lo ∨ f.lo + f.w ≤ (Reg.CAN_STATUS_TT_RUN c).lo := by
      change 28 + 1 ≤ f.lo ∨ f.lo + f.w ≤ 28
      omega
    rw [Pkg.fld_put_ne _ _ _ _ (.inr h1), Pkg.putB, Pkg.fld_put_ne _ _ _ _ (.inr h2)]

theorem State.wCanCtrl_eq (s : State) (c : Nat) (w : Reg32) : s.wCanCtrl c w =
    let q := s.onPkg fun p => p.store (Reg.CAN_CTRL c) w
    let r := if w.getLsbD 31 && !s.pkg.flag (Reg.CAN_CTRL_EN c) then q.canJoin c else q
    if !w.getLsbD 31 || !w.getLsbD 25 then r.canTtOff c (w.getLsbD 31) else r := rfl

theorem State.wCanCtrl_of (s : State) {c : Nat} (hc : c < 2) (w : Reg32) (hw : w.getLsbD 31 ≠ s.pkg.flag (Reg.CAN_CTRL_EN c)) :
    s.stakesKept (s.wCanCtrl c w) ∧ (s.wCanCtrl c w).pkg.flag (Reg.CAN_CTRL_EN c) = w.getLsbD 31 ∧
      s.pkg.regsKept (s.wCanCtrl c w).pkg [Reg.CAN_CTRL c, Reg.CAN_STATUS c] ∧
      if w.getLsbD 31 then (s.wCanCtrl c w).canTec c = 0 ∧ (s.wCanCtrl c w).canRec c = 0 ∧ (s.wCanCtrl c w).pkg.fld (Reg.CAN_STATUS_STATE c) = 0
      else (s.wCanCtrl c w).pkg.flag (Reg.CAN_STATUS_TT_RUN c) = false := by
  have hne : (Reg.CAN_CTRL_EN c).off ∉ [Reg.CAN_STATUS c] := by
    simp only [Reg.CAN_CTRL_EN, Reg.CAN_STATUS, List.mem_singleton]
    omega
  have hl : [Reg.CAN_CTRL c] ⊆ [Reg.CAN_CTRL c, Reg.CAN_STATUS c] := List.cons_subset_cons _ (List.nil_subset _)
  have hl' : [Reg.CAN_STATUS c] ⊆ [Reg.CAN_CTRL c, Reg.CAN_STATUS c] := List.subset_cons_self _ _
  have hq1 : (s.onPkg fun p => p.store (Reg.CAN_CTRL c) w).pkg.flag (Reg.CAN_CTRL_EN c) = w.getLsbD 31 := s.pkg.store_canCtrl hc w
  have hq2 : s.pkg.regsKept (s.onPkg fun p => p.store (Reg.CAN_CTRL c) w).pkg [Reg.CAN_CTRL c] := s.pkg.store_kept _ w
  have hq3 : s.stakesKept (s.onPkg fun p => p.store (Reg.CAN_CTRL c) w) := ⟨rfl, rfl, rfl⟩
  rw [s.wCanCtrl_eq c w]
  dsimp only
  generalize (s.onPkg fun p => p.store (Reg.CAN_CTRL c) w) = q at hq1 hq2 hq3 ⊢
  have hoff : ∀ r : State, ∀ on, r.stakesKept (r.canTtOff c on) ∧ r.pkg.regsKept (r.canTtOff c on).pkg [Reg.CAN_STATUS c] ∧
      (r.canTtOff c on).pkg.flag (Reg.CAN_STATUS_TT_RUN c) = false ∧
      ∀ f : Fld, f.lo + f.w ≤ 22 ∨ 29 ≤ f.lo → (r.canTtOff c on).pkg.fld f = r.pkg.fld f := fun r on => by
    obtain ⟨h1, h2, h3⟩ := r.pkg.canStill_of c
    have hr := r.canTtOff_regs c on
    refine ⟨⟨rfl, rfl, rfl⟩, fun o ho => ?_, ?_, fun f hf => (Pkg.fld_congr hr f).trans (h3 f hf)⟩
    · rw [Pkg.rd, hr]
      exact h1 o ho
    · rw [Pkg.flag, Pkg.fld_congr hr]
      exact h2
  cases h31 : w.getLsbD 31 with
  | true =>
    rw [h31] at hq1
    have hen : s.pkg.flag (Reg.CAN_CTRL_EN c) = false := by
      rw [h31] at hw
      exact (Bool.eq_false_of_not_eq_true hw.symm)
    rw [hen]
    simp only [Bool.not_false, Bool.and_true, Bool.not_true, Bool.false_or, if_true]
    obtain ⟨j1, j2, j3, j4, j5, _⟩ := q.canJoin_of c
    generalize q.canJoin c = r at j1 j2 j3 j4 j5 ⊢
    obtain ⟨o1, o2, _, o4⟩ := hoff r true
    split
    · refine ⟨hq3.trans (j1.trans o1), ?_, (hq2.mono hl).trans ((j5.trans o2).mono hl'), (o4 _ (.inl (by change 8 + 9 ≤ 22; decide))).trans j2,
        (o4 _ (.inl (by change 0 + 8 ≤ 22; decide))).trans j3, (o4 _ (.inr (by change 29 ≤ 30; decide))).trans j4⟩
      rw [o2.flag hne, j5.flag hne]
      exact hq1
    · refine ⟨hq3.trans j1, ?_, (hq2.mono hl).trans (j5.mono hl'), j2, j3, j4⟩
      rw [j5.flag hne]
      exact hq1
  | false =>
    rw [h31] at hq1
    obtain ⟨o1, o2, o3, _⟩ := hoff q false
    simp only [Bool.false_and, Bool.not_false, Bool.true_or, if_true, Bool.false_eq_true, if_false]
    refine ⟨hq3.trans o1, ?_, (hq2.mono hl).trans (o2.mono hl'), o3⟩
    rw [o2.flag hne]
    exact hq1

/-- R381: a controller is enabled or disabled. -/
theorem canControllerEnable_of (s : State) {c : Nat} (hc : c < 2) (ha : s.alive 1 = true) (hw : s.pkgAdmits src (Reg.CAN_CTRL c) w)
    (hx : w.getLsbD 31 ≠ s.pkg.flag (Reg.CAN_CTRL_EN c)) :
    ∃ t, exec (.canControllerEnable src c w) s = .next t ∧ (s.crossedAt src (Reg.CAN_CTRL c) 1 [w.toNat]).stakesKept t ∧
      t.pkg.flag (Reg.CAN_CTRL_EN c) = w.getLsbD 31 ∧
      s.pkg.regsKept t.pkg [Reg.CAN_CTRL c, Reg.CAN_STATUS c] ∧
      if w.getLsbD 31 then t.canTec c = 0 ∧ t.canRec c = 0 ∧ t.pkg.fld (Reg.CAN_STATUS_STATE c) = 0
      else t.pkg.flag (Reg.CAN_STATUS_TT_RUN c) = false := by
  have he : exec (.canControllerEnable src c w) s = .next ((s.crossedAt src (Reg.CAN_CTRL c) 1 [w.toNat]).pkgWrite src (Reg.CAN_CTRL c) w
      fun s => s.wCanCtrl c w) := congrArg Host.Outcome.next (if_neg (by
      simp only [ha, hx, decide_false, Bool.or_false, Bool.not_true, decide_eq_true_eq]
      omega))
  refine ⟨_, he, ?_⟩
  have hq := hw.crossedAt (Reg.CAN_CTRL c) 1 [w.toNat]
  have hp := s.crossedAt_pkg src (Reg.CAN_CTRL c) 1 [w.toNat]
  generalize s.crossedAt src (Reg.CAN_CTRL c) 1 [w.toNat] = q at hq hp ⊢
  rw [State.pkgWrite_of_admits hq]
  obtain ⟨h1, h2, h3, h4⟩ := q.wCanCtrl_of hc w (by rw [hp]; exact hx)
  rw [hp] at h3
  exact ⟨h1, h2, h3, h4⟩

end

/-- Settles O57: a frame received goes through the error count, the HP buffers and the general buffers in that order; a word written to a
buffer's CTRL clears, releases, requests or cancels; error counts carry the state with them. -/
theorem canBuffers : Obligations.CanBuffers := by
  refine ⟨canFrameReceived_of, fun s c i hc hl hi ha => canCtrlReadLatch_of s c i hc hl hi ha, fun s src c i w hc hl hi ha hw ho => ?_,
    fun s c b ago hl h => canTxDone_of s c b ago hl h, fun s c b ago kind arb _ h hx => ?_, fun s c kind h => canRxError_of s c kind h,
    fun s c hc he ha h2 => ?_, fun s src c w hc ha hw hx => canControllerEnable_of s hc ha hw hx⟩
  · exact ⟨s.canRelease_of hc hi ha hw ho, s.canTxRequest_of hc hi ha hw ho, s.canCancel_of hc hl hi ha hw ho⟩
  · exact ⟨fun h0 => by subst h0; rfl, canTxError_of s c b ago kind arb h hx⟩
  · obtain ⟨h1, h2', h3, h4, h5, h6⟩ := s.canJoin_of c
    exact ⟨s.canJoin c, congrArg Host.Outcome.next (if_pos (by simp [hc, he, ha, h2])), h1, h2', h3, h4, h5, h6.host, h6.net, h6.nv, h6.boot,
      h6.sup, h6.reads⟩

end Sys2Proof.Machine

/-! What a pass of the field engine changes of a stake (R134). -/
namespace Sys2Proof.Machine
set_option Elab.async false

/-- The parts of a stake that a pass may change. -/
def passParts : List StakePart := [.regs, .act, .fresh, .out, .done, .wal, .ang, .fe, .modu, .leg, .prt, .pair, .vote]

section
variable (k : Stake)

theorem Stake.writeLatch_only : Stake.Only passParts k k.writeLatch := by
  have h : Stake.Only passParts k k.refreshBand := .onPrt .refl
  unfold Stake.writeLatch
  exact .ite .refl (.ite (.hold .refl) (.onPrt (.putB (.put h))))

theorem Stake.endDischarge_only : Stake.Only passParts k k.endDischarge := by
  unfold Stake.endDischarge
  split
  · exact .refl
  · extract_lets j i q
    have hj : Stake.Only passParts k j := (Stake.Only.onPrt .refl).step (Stake.auxRequest_eff _).only
    have hi : Stake.Only passParts k i := .ite (.leaveSwitching hj) hj
    have hq : Stake.Only passParts k q := .setAxis hi
    exact .ite (.ite (.release hq) hq) hi

theorem Stake.dischargePass_only : Stake.Only passParts k k.dischargePass := by
  unfold Stake.dischargePass
  split
  · exact .refl
  · refine .ite .refl (.ite (.onPrt .refl) ?_)
    unfold Stake.finishDischarge
    split
    · exact .refl
    · exact .post k.endDischarge_only

theorem Stake.takeCopy_only : Stake.Only passParts k k.takeCopy := by
  unfold Stake.takeCopy
  split
  · exact .refl
  · extract_lets ctl m v a
    have h : Stake.Only passParts k { k with act := a } := Stake.Only.set (f := .act) (x := a) .refl (by decide)
    exact .ite .refl (.putB (.onFe (.wrAct h)))

theorem Stake.freeNat_only : Stake.Only [.fresh] k k.freeNat.2 := Stake.Only.set (f := .fresh) .refl (by decide)

theorem Stake.takeSwaps_only : Stake.Only passParts k k.takeSwaps := by
  unfold Stake.takeSwaps
  extract_lets p j b bad t q
  have hj : Stake.Only passParts k j := .put (.put .refl)
  have hq : Stake.Only passParts k q := .onPrt hj
  exact .ite (.ite (.post (hq.step q.freeNat_only)) hq) hj

theorem Stake.applySetpoint_only (p : Setpoint) : Stake.Only passParts k (k.applySetpoint p) := by
  unfold Stake.applySetpoint
  extract_lets j i q r
  have h0 : Stake.Only passParts k (k.refreshHost.put Reg.PLT_AXIS_STATE_FRESH 0) := .put (.refreshHost .refl)
  have hj : Stake.Only passParts k j := .ite (.updDerate (.syncActive (.onPrt h0))) h0
  have hi : Stake.Only passParts k i := .ite (.onFe (.putB hj)) hj
  have hq : Stake.Only passParts k q := .onFe hi
  have hr : Stake.Only passParts k r := by
    simp only [r]
    split
    · exact .putI (.putI (.onPrt hq))
    · exact hq
  exact .complete hr

theorem Stake.takeSetpoints_only : Stake.Only passParts k k.takeSetpoints := by
  unfold Stake.takeSetpoints
  extract_lets l j bad ok q
  have hq : Stake.Only passParts k q := .foldl (fun r p hr => by
    split
    · exact .complete hr
    · exact hr) _ (.onFe .refl)
  refine .ite ?_ (.foldl (fun r p hr => hr.trans (r.applySetpoint_only p)) _ hq)
  split
  · exact hq
  · exact (Stake.Only.foldl (fun r p hr => .complete hr) _ hq).trans (Stake.applySetpoint_only _ _)

theorem Stake.takeFrame_only (c : Option Word48) : Stake.Only passParts k (k.takeFrame c).2 := .onPair .refl

theorem Stake.pairMiss_only (b : Bool) : Stake.Only passParts k (k.pairMiss b) := by
  unfold Stake.pairMiss
  extract_lets c j
  have hj : Stake.Only passParts k j := .put (.bump .refl)
  exact .ite (hj.step (j.detectBreak_eff 2).only) hj

/-- R138, R214: what the assembly of a pass counts and reports of its samples. -/
def Stake.assembleLoss (k : Stake) (act pred miss lead : Bool) (qs : List Nat) : Stake :=
  let k := k.bump Reg.FLD_PRED_CNT (if pred then 1 else 0)
  let run := if pred then k.fe.predRun + 1 else 0
  let lost := act && pred && (!k.fe.history || run = k.inForce Reg.FLD_CTRL_PRED_MAX + 1)
  let k := k.onFe fun f => { f with predRun := if act then run else 0 }
  let k := if lost then k.post .fldSampleLoss 3 qs else k
  if miss then k.pairMiss lost else if lead then k.put Reg.FLD_PAIR_STATUS_CONSEC 0 else k

/-- R139: what the assembly of a pass keeps and reports of the DC-link voltage. -/
def Stake.assembleUdc (k : Stake) (act : Bool) : Stake :=
  let ua := k.inForce Reg.FLD_MAP_UDC_A
  let ub := k.inForce Reg.FLD_MAP_UDC_B
  let badA := k.udcSetBad ua || k.udcStale ua 0
  let held := badA && (k.udcSetBad ub || k.udcStale ub 1)
  let u := if !badA then k.udcPu ua else if !held then k.udcPu ub else k.fe.udc
  let urun := if held then k.fe.udcRun + 1 else 0
  let seqs := [k.chanSeq ua, k.chanSeq ub]
  let k := k.onFe fun f => { f with udc := sat48 u, udcRun := if act then urun else 0, udcSeq := seqs }
  let k := if act && urun = k.inForce Reg.FLD_CTRL_PRED_MAX + 1 then
    k.post .fldUdcLoss 3 [((k.setSample ua).getD (0, 0)).2, ((k.setSample ub).getD (0, 0)).2] else k
  k.onFe fun f => { f with latchNew := false }

theorem Stake.assembleLoss_only (a b c d : Bool) (l : List Nat) : Stake.Only passParts k (k.assembleLoss a b c d l) := by
  unfold Stake.assembleLoss
  extract_lets j1 run lost j2 j3
  have h2 : Stake.Only passParts k j2 := .onFe (.bump .refl)
  have h3 : Stake.Only passParts k j3 := .ite (.post h2) h2
  exact .ite (h3.trans (j3.pairMiss_only _)) (.ite (.put h3) h3)

theorem Stake.assembleUdc_only (a : Bool) : Stake.Only passParts k (k.assembleUdc a) := by
  unfold Stake.assembleUdc
  extract_lets ua ub badA held u urun seqs j5 j6
  have h5 : Stake.Only passParts k j5 := .onFe .refl
  have h6 : Stake.Only passParts k j6 := .ite (.post h5) h5
  exact .onFe h6

theorem Stake.assemble_eq : ∃ c a b d e l, k.assemble.2 = (((if k.leads && (k.pairSt = 1 || k.pairSt = 2) then k.takeFrame c
    else (none, k)).2.assembleLoss a b d e l).assembleUdc a) := ⟨_, _, _, _, _, _, rfl⟩

theorem Stake.assemble_only : Stake.Only passParts k k.assemble.2 := by
  obtain ⟨c, a, b, d, e, l, h⟩ := k.assemble_eq
  have hf : Stake.Only passParts k (if k.leads && (k.pairSt = 1 || k.pairSt = 2) then k.takeFrame c else (none, k)).2 := by
    split
    · exact k.takeFrame_only _
    · exact .refl
  rw [h]
  exact hf.trans ((Stake.assembleLoss_only _ a b d e l).trans (Stake.assembleUdc_only _ a))

theorem Stake.torqueCmd_only (c : DriveCmd) (x : PassIn) : Stake.Only passParts k (k.torqueCmd c x).2 := by
  unfold Stake.torqueCmd
  split
  · exact .onFe .refl
  · exact .onFe .refl

theorem Stake.references_only (c : DriveCmd) (x : PassIn) : Stake.Only passParts k (k.references c x).2.2.2.2.2 := by
  unfold Stake.references
  extract_lets j
  have hj : Stake.Only passParts k j := .ite (.onFe .refl) .refl
  clear_value j
  split
  · change Stake.Only passParts k (j.onFe _)
    exact .onFe hj
  · change Stake.Only passParts k (((j.torqueCmd c x).2.torqueChain _ _ _).2.2.2.onFe _ |>.onFe _)
    have ht : Stake.Only passParts k (((j.torqueCmd c x).2)) := hj.trans (j.torqueCmd_only c x)
    exact .onFe (.onFe (.onPrt ht))

theorem Stake.observe_eq (x : PassIn) : ∃ (f : FldState → FldState) (v : Bool) (m : Meas), (k.observe x).2 =
    if v then (k.onFe f).deliver 4 m else if k.fe.obsValid then (k.onFe f).loseSource 4 else k.onFe f := ⟨_, _, _, rfl⟩

theorem Stake.observe_only (x : PassIn) : Stake.Only passParts k (k.observe x).2 := by
  obtain ⟨f, v, m, h⟩ := k.observe_eq x
  have hf : Stake.Only passParts k (k.onFe f) := .onFe .refl
  rw [h]
  exact .ite (.deliver hf) (.ite (.loseSource hf) hf)

theorem Stake.followerLoop_only (x : PassIn) : Stake.Only passParts k (k.followerLoop x) := by
  unfold Stake.followerLoop
  split
  · exact .onPair .refl
  · exact .ite (.onPair .refl) (.onPair .refl)

theorem Stake.catchPass_only (x : PassIn) : Stake.Only passParts k (k.catchPass x) := by
  unfold Stake.catchPass
  split
  · exact .refl
  · exact .onFe .refl

theorem Stake.mismatch_only (x : PassIn) : Stake.Only passParts k (k.mismatch x).2 := by
  unfold Stake.mismatch
  extract_lets ok im pd est0 est pm y0 yx y ratio rho out since mo mi lim hit clr act j i
  split
  · exact .onFe .refl
  · have hj : Stake.Only passParts k j := .onFe .refl
    exact .ite (.post (.putB hj)) (.ite (.putB hj) hj)

theorem Stake.dischargeAct_only : Stake.Only passParts k k.dischargeAct := by
  unfold Stake.dischargeAct
  split
  · exact .refl
  · extract_lets j i q r
    have hj : Stake.Only passParts k j := .onPrt .refl
    have hi : Stake.Only passParts k i := .ite ((Stake.Only.onPrt hj).step (Stake.auxRequest_eff _).only) hj
    have hq : Stake.Only passParts k q := .putB (.setAxis hi)
    have hr : Stake.Only passParts k r := (Stake.Only.leaveSwitching hq).step (Stake.seizePorts_of _ _ _ _ _ _).1.only
    exact .ite hi (.onPrt hr)

theorem Stake.injectionRelease_only : Stake.Only passParts k k.injectionRelease := by
  unfold Stake.injectionRelease
  split
  · exact .refl
  · split
    · extract_lets j
      have hj : Stake.Only passParts k j := .release (.onPrt .refl)
      exact .enterSwitching (.onFe (f := fun f => { f with flying := true, tStar := 0 }) hj)
    · exact .refl

theorem Stake.rampEnd_only : Stake.Only passParts k k.rampEnd := by
  unfold Stake.rampEnd
  split
  · exact .ite (k.dischargeAct_only.trans (Stake.injectionRelease_only _)) .refl
  · exact .refl

end

/-- A stage of a pass leaves the parts of a stake that are not listed. Stated of the stage as a function, so that the kernel meets its body as
it stands. -/
structure PassKeeps (F : Stake → Stake) : Prop where
  keeps : ∀ k, Stake.Only passParts k (F k)

namespace Stake.Only
variable {l : List StakePart} {k : Stake} {α β γ δ ε : Type}

/-! A stage that answers a stake beside other values, and what comes after it: `M` is the match that takes the answer apart. -/

theorem ofPair {M : α × Stake → (α → Stake → Stake) → Stake} {e : α × Stake} {F : α → Stake → Stake} (h : Only l k e.2)
    (hF : ∀ a j, Only l k j → Only l k (F a j)) (hM : ∀ a j F, M (a, j) F = F a j := by intros; rfl) : Only l k (M e F) := by
  obtain ⟨a, j⟩ := e
  rw [hM]
  exact hF a j h
theorem ofTriple {M : α × β × Stake → (α → β → Stake → Stake) → Stake} {e : α × β × Stake} {F : α → β → Stake → Stake} (h : Only l k e.2.2)
    (hF : ∀ a b j, Only l k j → Only l k (F a b j)) (hM : ∀ a b j F, M (a, b, j) F = F a b j := by intros; rfl) : Only l k (M e F) := by
  obtain ⟨a, b, j⟩ := e
  rw [hM]
  exact hF a b j h
theorem ofSix {M : α × β × γ × δ × ε × Stake → (α → β → γ → δ → ε → Stake → Stake) → Stake} {e : α × β × γ × δ × ε × Stake}
    {F : α → β → γ → δ → ε → Stake → Stake} (h : Only l k e.2.2.2.2.2) (hF : ∀ a b c d x j, Only l k j → Only l k (F a b c d x j))
    (hM : ∀ a b c d x j F, M (a, b, c, d, x, j) F = F a b c d x j := by intros; rfl) : Only l k (M e F) := by
  obtain ⟨a, b, c, d, x, j⟩ := e
  rw [hM]
  exact hF a b c d x j h
theorem ofValues {M : α × β → (α → β → Stake) → Stake} {e : α × β} {F : α → β → Stake} (hF : ∀ a b, Only l k (F a b))
    (hM : ∀ a b F, M (a, b) F = F a b := by intros; rfl) : Only l k (M e F) := by
  obtain ⟨a, b⟩ := e
  rw [hM]
  exact hF a b
theorem iteSnd {c : Prop} [Decidable c] {e e' : α × Stake} (h : Only l k e.2) (h' : Only l k e'.2) : Only l k (if c then e else e').2 := by
  split <;> assumption
theorem iteThird {c : Prop} [Decidable c] {e e' : α × β × Stake} (h : Only l k e.2.2) (h' : Only l k e'.2.2) :
    Only l k (if c then e else e').2.2 := by split <;> assumption
theorem iteSixth {c : Prop} [Decidable c] {e e' : α × β × γ × δ × ε × Stake} (h : Only l k e.2.2.2.2.2) (h' : Only l k e'.2.2.2.2.2) :
    Only l k (if c then e else e').2.2.2.2.2 := by split <;> assumption
end Stake.Only

theorem passKeeps_body : PassKeeps Stake.passBody := by
  delta Stake.passBody
  refine ⟨fun k => ?_⟩
  extract_lets -underBinder +onlyGivenNames k1 k2
  have h1 := (k.writeLatch_only.trans (Stake.dischargePass_only _)).applyRange (a := 0x40384) (b := 0x40388)
  have h1 : Stake.Only passParts k k1 := ((h1.trans (Stake.takeCopy_only _)).trans (Stake.takeSwaps_only _)).trans (Stake.takeSetpoints_only _)
  have h2 : Stake.Only passParts k k2 := .onPrt h1
  clear_value k2
  refine .ofPair (h2.trans k2.assemble_only) fun x k3 h3 => ?_
  extract_lets -underBinder +onlyGivenNames inj run follower withSet ending ic k4
  have h4 : Stake.Only passParts k k4 := .onFe h3
  refine .ofValues fun c src => ?_
  extract_lets -underBinder +onlyGivenNames first
  refine .ofPair (.iteSnd (.onFe h4) h4) fun s0 k5 h5 => ?_
  extract_lets -underBinder +onlyGivenNames volt
  refine .ofSix (.iteSixth h5 (.iteSixth (.onFe h5) (h5.trans (k5.references_only c x)))) fun iref _ code s2 s3 k6 h6 => ?_
  refine .ofTriple (.iteThird h6 (.iteThird h6 (.onFe h6))) fun v s4 k7 h7 => ?_
  extract_lets -underBinder +onlyGivenNames um
  refine .ofValues fun vl lim => ?_
  refine .ofPair (.iteSnd (.onFe h7) h7) fun s5 k8 h8 => ?_
  extract_lets -underBinder +onlyGivenNames efw k9 s5'
  have h9 : Stake.Only passParts k k9 := .onFe h8
  refine .ofPair (.iteSnd h9 (h9.trans (k9.observe_only x))) fun s7 k10 h10 => ?_
  extract_lets -underBinder +onlyGivenNames k11 k12
  have h11 : Stake.Only passParts k k11 := .ite (h10.trans (k10.followerLoop_only x)) h10
  have h12 : Stake.Only passParts k k12 := h11.trans (k11.catchPass_only x)
  refine .ofPair (.iteSnd h12 (h12.trans (k12.mismatch_only x))) fun s8 k13 h13 => ?_
  extract_lets -underBinder +onlyGivenNames k14 k15 mid
  have h15 : Stake.Only passParts k k15 := .putB (.putB (.bump h13))
  exact (Stake.Only.onFe h15).trans (Stake.rampEnd_only _)

theorem Stake.passBody_only (k : Stake) : Stake.Only passParts k k.passBody := passKeeps_body.keeps k

/-- The integrators of the current regulators stay within a bound that is not negative. -/
theorem iabs_clampI {m : Int} (h : 0 ≤ m) (x : Int) : iabs (clampI (-m) m x) ≤ m := by
  unfold iabs clampI
  split <;> omega

theorem Stake.runPass_off {k : Stake} (h : k.flag Reg.FLD_CTRL_EN = false) : k.runPass = k := by
  unfold Stake.runPass
  exact if_pos (by rw [h]; rfl)

theorem Stake.runPass_busy {k : Stake} {b : Nat} (h : k.flag Reg.FLD_CTRL_EN = true) (hb : k.fe.busyFrom = some b) (hn : k.now < b + 480) :
    k.runPass = (k.bump Reg.FLD_PASS_SKIP_CNT).post .fldPassOverrun 1 [k.ang.tick.toNat] := by
  unfold Stake.runPass
  rw [if_neg (by rw [h]; exact Bool.false_ne_true), hb]
  exact if_pos (decide_eq_true hn)

theorem Stake.runPass_starts {k : Stake} (h : k.flag Reg.FLD_CTRL_EN = true) (hb : k.fe.busyFrom = none) :
    k.runPass = ((k.passBody).putB Reg.FLD_STATUS_BUSY true).onFe fun f => { f with busyFrom := some k.now } := by
  unfold Stake.runPass
  rw [if_neg (by rw [h]; exact Bool.false_ne_true), hb]
  exact if_neg Bool.false_ne_true

/-- What a pass that is skipped leaves. -/
theorem Stake.passSkipped_of (k : Stake) {j : Stake} (h : j = (k.bump Reg.FLD_PASS_SKIP_CNT).post .fldPassOverrun 1 [k.ang.tick.toNat]) :
    j.rd Reg.FLD_PASS_SKIP_CNT = satAdd 16 (k.rd Reg.FLD_PASS_SKIP_CNT) 1 ∧ k.posted j .fldPassOverrun 1 [k.ang.tick.toNat] ∧
      j.fe = k.fe ∧ j.ang = k.ang := by
  have hb : Stake.Only [.regs] k (k.bump Reg.FLD_PASS_SKIP_CNT) := .bump .refl
  refine ⟨?_, ?_, ?_, ?_⟩
  · rw [h, Stake.post_regsKept _ _ _ _ _ (by decide), Stake.rd_bump_same]
  · rw [h]
    exact hb.post_posted _ _ _
  · rw [h, Stake.post_fe]
    exact hb.fe
  · rw [h]
    exact (hb.mono (List.cons_subset_cons _ (List.nil_subset _)) |>.post (l := [.regs, .out, .prt])).ang

/-- What a pass that starts leaves. -/
theorem Stake.passStarted_of {k q j : Stake} (hq : q.now = k.now)
    (h : j = (q.putB Reg.FLD_STATUS_BUSY true).onFe fun f => { f with busyFrom := some k.now }) :
    j.fe.busyFrom = some j.now ∧ j.flag Reg.FLD_STATUS_BUSY = true := by
  have hb : (q.putB Reg.FLD_STATUS_BUSY true).flag Reg.FLD_STATUS_BUSY = true := Stake.flag_putB_same _ _ _ (by decide) rfl
  have hn : (q.putB Reg.FLD_STATUS_BUSY true).now = q.now := rfl
  generalize q.putB Reg.FLD_STATUS_BUSY true = r at h hb hn
  subst h
  exact ⟨congrArg some (hn.trans hq).symm, hb⟩

/-- Settles O34: the engine's enable and a running pass decide; a pass leaves the stake's time, in which it is marked as running. -/
theorem passStarts : Obligations.PassStarts := by
  refine ⟨fun s n e a hp hd => ?_, fun k vl v h => ⟨iabs_clampI h _, iabs_clampI h _⟩⟩
  obtain ⟨t, ht, he, hs⟩ := exec_takeAct hp hd fun _ q => q.runPass
  refine ⟨t, ht, he, fun h => hs.trans (Stake.runPass_off h), fun b h hb hn => ?_, fun h hb => ?_⟩
  · obtain ⟨h1, h2, h3, h4⟩ := Stake.passSkipped_of _ (hs.trans (Stake.runPass_busy h hb hn))
    exact ⟨h1, h2, h3, congrArg AngState.acts h4⟩
  · exact Stake.passStarted_of (Stake.passBody_only _).now (hs.trans (Stake.runPass_starts h hb))

end Sys2Proof.Machine

/-! Parameters, settings, table swaps and the fallback curve of the field engine (R159, R160, R165 to R168). -/
namespace Sys2Proof.Machine
set_option Elab.async false

section
variable {s : State} {k : Stake} {n : Nat} {src : Src} {w : Reg32}

/-- The row of `FLD_CTRL`: what of it is written, and that no word is out of its range. -/
theorem fldCtrl_row : ∃ r, regAt Reg.FLD_CTRL = some r ∧ (counterWidth r).isSome = false ∧ r.base ≠ Reg.ANG_TICK_STATUS ∧
    r.mask .rw = 0x8FFF8F00 ∧ r.mask .w1c = 0 ∧ ∀ v, r.inRange v = true := by
  refine ⟨_, rfl, by decide +kernel, by decide +kernel, by decide +kernel, by decide +kernel, fun v => ?_⟩
  simp only [RegD.inRange, List.all_cons, List.all_nil, Bool.and_true, Bool.and_eq_true, Bool.or_eq_true, decide_eq_true_eq]
  refine ⟨?_, ?_, ?_, ?_, ?_, ?_, ?_, ?_, ?_, ?_, ?_, ?_, ?_⟩ <;> omega

theorem State.admits.fldCtrl {v : Reg32} (h : s.admits src n Reg.FLD_CTRL w) : s.admits src n Reg.FLD_CTRL v := by
  obtain ⟨h1, h2, _⟩ := h
  obtain ⟨r, hr, _, _, _, _, hv⟩ := fldCtrl_row
  refine ⟨h1, h2, fun r' hr' => ?_⟩
  rw [hr] at hr'
  obtain rfl := Option.some.inj hr'
  exact hv v

/-- R165, R167: a write of `FLD_CTRL` whose commit, if it carries one, is good. -/
def Stake.fldCtrlTaken (k : Stake) (v : Reg32) : Stake :=
  let k := k.store Reg.FLD_CTRL v
  let k := if v.getLsbD 1 then k.onFe fun f => { f with copy := some k.regs, copyAt := k.now } else k
  (if v.getLsbD 0 then k.fldApply else k).fldSync

theorem Stake.wFldCtrl_good {v : Reg32} (h : v.getLsbD 1 = true → k.badParam = none ∧ k.badCommitted v = none) :
    k.wFldCtrl v = (k.fldCtrlTaken v, none) := by
  have hb : (if v.getLsbD 1 then (match k.badParam with | some o => some o | none => k.badCommitted v) else none) = none := by
    split
    · next h1 =>
      obtain ⟨h2, h3⟩ := h h1
      rw [h2, h3]
    · rfl
  unfold Stake.wFldCtrl
  extract_lets bad
  rw [show bad = none from hb]
  rfl

theorem Stake.wFldCtrl_bad {v : Reg32} {o : Nat} (h1 : v.getLsbD 1 = true) (h : k.badParam = some o) : k.wFldCtrl v = (k, some o) := by
  unfold Stake.wFldCtrl
  rw [if_pos h1, h]

theorem State.fldCtrlWrite_good (ha : s.admits src n Reg.FLD_CTRL w)
    (h : ((s.stake n).lockedCtrl s.locked w).getLsbD 1 = true →
      (s.stake n).badParam = none ∧ (s.stake n).badCommitted ((s.stake n).lockedCtrl s.locked w) = none) :
    s.elsewhere (s.fldCtrlWrite src n w) n ∧
      (s.fldCtrlWrite src n w).stake n = (s.stake n).fldCtrlTaken ((s.stake n).lockedCtrl s.locked w) := by
  have he : s.fldCtrlWrite src n w = s.stakeWrite src n Reg.FLD_CTRL ((s.stake n).lockedCtrl s.locked w)
      fun k => (k.wFldCtrl ((s.stake n).lockedCtrl s.locked w)).1 := by
    unfold State.fldCtrlWrite
    extract_lets +onlyGivenNames v
    rw [show (s.stake n).wFldCtrl v = _ from Stake.wFldCtrl_good h]
  rw [he, State.stakeWrite_of_admits ha.fldCtrl]
  refine ⟨s.onStake_elsewhere n _, ?_⟩
  rw [State.onStake_stake_same ha.present, Stake.wFldCtrl_good h]

/-- R168: the bits of a write under the lock. -/
theorem Stake.lockedCtrl_bits (k : Stake) (b : Bool) (w : Reg32) : (k.lockedCtrl b w).getLsbD 1 = w.getLsbD 1 ∧
    (w.getLsbD 0 = false → (k.lockedCtrl b w).getLsbD 0 = false) ∧ (b = true → (k.lockedCtrl b w).getLsbD 0 = false) := by
  have hl : (k.lockedCtrl true w).getLsbD 1 = w.getLsbD 1 ∧ (k.lockedCtrl true w).getLsbD 0 = false := by
    unfold Stake.lockedCtrl
    rw [if_pos rfl, BitVec.getLsbD_or, BitVec.getLsbD_and, BitVec.getLsbD_and, BitVec.getLsbD_or, BitVec.getLsbD_and, BitVec.getLsbD_and]
    have h1 : (0xFFFFFFFC : BitVec 32).getLsbD 1 = false := by decide
    have h2 : (2 : BitVec 32).getLsbD 1 = true := by decide
    have h3 : (0xFFFFFFFC : BitVec 32).getLsbD 0 = false := by decide
    have h4 : (2 : BitVec 32).getLsbD 0 = false := by decide
    rw [h1, h2, h3, h4]
    simp only [Bool.and_false, Bool.and_true, Bool.or_false, Bool.false_or, and_self]
  cases b with
  | false => exact ⟨rfl, fun h => h, nofun⟩
  | true => exact ⟨hl.1, fun _ => hl.2, fun _ => hl.2⟩

theorem Stake.fldSync_only (k : Stake) : Stake.Only [.regs] k k.fldSync := .putB .refl

/-- Settles the commit (R165). -/
theorem paramCommit_of (ha : s.admits src n Reg.FLD_CTRL w) (h1 : w.getLsbD 1 = true) (h0 : w.getLsbD 0 = false) :
    ((s.stake n).badParam = none → (s.stake n).badCommitted ((s.stake n).lockedCtrl s.locked w) = none →
      ∃ t, exec (.paramCommit n src w) s = .next t ∧ s.elsewhere t n ∧
        (t.stake n).fe.copy = some ((s.stake n).store Reg.FLD_CTRL ((s.stake n).lockedCtrl s.locked w)).regs ∧
        (t.stake n).fe.copyAt = (s.stake n).now ∧ (s.stake n).regsKept (t.stake n) [Reg.FLD_CTRL, Reg.FLD_STATUS]) ∧
    (∀ o, (s.stake n).badParam = some o →
      ∃ t, exec (.paramCommit n src w) s = .next t ∧ s.stakesKept t ∧ s.posted t .hifRange 0 [bar0 n o, w.toNat] ∧
        s.pkg.regsKept t.pkg [Reg.HIF_EVT_LOST_CNT] ∧ s.pkg.restKept t.pkg) := by
  obtain ⟨b1, b0, _⟩ := (s.stake n).lockedCtrl_bits s.locked w
  have he : exec (.paramCommit n src w) s = .next (s.fldCtrlWrite src n w) := congrArg Host.Outcome.next (if_pos h1)
  refine ⟨fun hp hc => ⟨_, he, ?_⟩, fun o hp => ⟨_, he, ?_⟩⟩
  · obtain ⟨g1, g2⟩ := State.fldCtrlWrite_good ha fun _ => ⟨hp, hc⟩
    generalize (s.stake n).lockedCtrl s.locked w = v at b1 b0 g2 ⊢
    have hf : (s.stake n).fldCtrlTaken v = (((s.stake n).store Reg.FLD_CTRL v).onFe fun f =>
        { f with copy := some ((s.stake n).store Reg.FLD_CTRL v).regs, copyAt := ((s.stake n).store Reg.FLD_CTRL v).now }).fldSync := by
      unfold Stake.fldCtrlTaken
      rw [b1, h1, b0 h0]
      rfl
    have hs := Stake.Only.store_only (s.stake n) Reg.FLD_CTRL v
    have hk := (s.stake n).store_regsKept Reg.FLD_CTRL v
    rw [g2, hf]
    generalize (s.stake n).store Reg.FLD_CTRL v = j at hs hk ⊢
    exact ⟨g1, rfl, hs.now, (hk.mono (List.cons_subset_cons _ (List.nil_subset _))).putB (j := j.onFe _) (by decide)⟩
  · have hx : s.fldCtrlWrite src n w = s.postPkg .hifRange 0 [bar0 n o, w.toNat] := by
      obtain ⟨ht, hl, hr⟩ := ha
      obtain ⟨r, hreg, _⟩ := fldCtrl_row
      unfold State.fldCtrlWrite
      extract_lets +onlyGivenNames v
      rw [show (s.stake n).wFldCtrl v = _ from Stake.wFldCtrl_bad (b1.trans h1) hp]
      dsimp only
      rw [ht, hl, hreg, Option.map_some, Option.getD_some, hr r hreg]
      rfl
    rw [hx]
    refine ⟨⟨State.postPkg_zero_stakes .., State.postPkg_part .., State.postPkg_pending ..⟩, s.postPkg_posted _ _ _, s.postPkg_regsKept _ _ _,
      State.postPkg_pkg_host .., State.postPkg_pkg_net .., State.postPkg_pkg_nv .., State.postPkg_pkg_boot .., State.postPkg_pkg_sup ..,
      State.postPkg_pkg_reads ..⟩

/-- R168: under the lock the register keeps what it holds. -/
theorem Stake.store_lockedCtrl (k : Stake) (w : Reg32) : (k.store Reg.FLD_CTRL (k.lockedCtrl true w)).rd Reg.FLD_CTRL = k.rd Reg.FLD_CTRL := by
  obtain ⟨r, hr, hc, hb, hm, hw, _⟩ := fldCtrl_row
  unfold Stake.store
  rw [hr]
  dsimp only
  rw [Stake.rd_wr_same]
  simp only [RegD.merge, RegD.clear, hc, hb, hm, hw, Bool.false_and, if_false, Bool.false_eq_true, decide_false]
  have hbits : ∀ i < 32, (0x8FFF8F00 : BitVec 32).getLsbD i = true → (0xFFFFFFFC : BitVec 32).getLsbD i = true ∧ (2 : BitVec 32).getLsbD i = false := by
    decide
  refine BitVec.eq_of_getLsbD_eq fun i hi => ?_
  unfold Stake.lockedCtrl
  rw [if_pos rfl]
  simp only [BitVec.getLsbD_and, BitVec.getLsbD_or, BitVec.getLsbD_not]
  have hz : (0 : BitVec 32).getLsbD i = false := by simp
  cases hb : (0x8FFF8F00 : BitVec 32).getLsbD i with
  | false => simp [hi]
  | true =>
    obtain ⟨h2, h3⟩ := hbits i hi hb
    rw [h2, h3]
    simp [hi]

/-- R167: what `APPLY` puts in force. -/
theorem Stake.fldApply_takes (h : k.axisIn [axOff, axSafe, axTest] = true) {off : Nat} (hl : 0x40010 ≤ off) (hh : off < 0x40020) :
    k.applied k.fldApply off := by
  unfold Stake.fldApply
  rw [h]
  have h1 : k.applied (k.applyRange 0x40010 0x40020) off := .applyRange (fun _ => rfl) (.inl ⟨hl, hh⟩)
  generalize k.applyRange 0x40010 0x40020 = j at h1 ⊢
  have hne : off ≠ Reg.FLD_CTRL := by
    simp only [Reg.FLD_CTRL]
    omega
  have h2 : ∀ v, k.applied (j.wrAct Reg.FLD_CTRL v) off := fun v => (j.rdAct_wrAct_ne v hne).trans h1
  exact (h2 _).of_only (.mono (Stake.fldSync_only _) (by decide))

theorem Stake.fldApply_refused (h : k.axisIn [axOff, axSafe, axTest] = false) :
    k.fldApply = (k.putB Reg.FLD_STATUS_CFG_REFUSED true).post .fldCfgRefused 0 := by
  unfold Stake.fldApply
  exact if_pos (by rw [h]; rfl)

/-- R167, R168: `APPLY`. -/
theorem fldApply_of (ha : s.admits src n Reg.FLD_CTRL w) (h0 : w.getLsbD 0 = true) (h1 : w.getLsbD 1 = false) :
    ∃ t, exec (.fldApply n src w) s = .next t ∧ s.elsewhere t n ∧
      if s.locked = true then (t.stake n).act = (s.stake n).act ∧ (s.stake n).regsKept (t.stake n) [Reg.FLD_STATUS]
      else if (s.stake n).axisIn [axOff, axSafe, axTest] then
        ∀ off, 0x40010 ≤ off → off < 0x40020 → (t.stake n).rdAct off = (s.stake n).rd off
      else (t.stake n).flag Reg.FLD_STATUS_CFG_REFUSED = true ∧ (t.stake n).act = (s.stake n).act ∧
        (s.stake n).posted (t.stake n) .fldCfgRefused 0 [] := by
  have he : exec (.fldApply n src w) s = .next (s.fldCtrlWrite src n w) := congrArg Host.Outcome.next (if_pos h0)
  obtain ⟨b1, _, bl⟩ := (s.stake n).lockedCtrl_bits s.locked w
  obtain ⟨g1, g2⟩ := State.fldCtrlWrite_good ha fun h => absurd (b1.symm.trans h) (ne_true_of_eq_false h1)
  refine ⟨_, he, g1, ?_⟩
  rw [g2]
  generalize s.stake n = k at b1 bl ⊢
  by_cases hl : s.locked = true
  · rw [if_pos hl, hl]
    rw [hl] at b1 bl
    have hf : k.fldCtrlTaken (k.lockedCtrl true w) = (k.store Reg.FLD_CTRL (k.lockedCtrl true w)).fldSync := by
      unfold Stake.fldCtrlTaken
      rw [b1, h1, bl rfl]
      rfl
    have hs := Stake.Only.store_only k Reg.FLD_CTRL (k.lockedCtrl true w)
    have hk := k.store_regsKept Reg.FLD_CTRL (k.lockedCtrl true w)
    have hr := k.store_lockedCtrl w
    rw [hf]
    generalize k.store Reg.FLD_CTRL (k.lockedCtrl true w) = j at hs hk hr ⊢
    have hj : k.regsKept j [Reg.FLD_STATUS] := fun o _ => if h : o = Reg.FLD_CTRL then h ▸ hr else hk o (by simpa using h)
    exact ⟨hs.act, hj.putB (by decide)⟩
  · have hlf := Bool.eq_false_of_not_eq_true hl
    rw [if_neg hl, hlf]
    have hf : k.fldCtrlTaken (k.lockedCtrl false w) = (k.store Reg.FLD_CTRL w).fldApply.fldSync := by
      unfold Stake.fldCtrlTaken
      rw [show k.lockedCtrl false w = w from rfl, h1, h0]
      rfl
    have hs := Stake.Only.store_only k Reg.FLD_CTRL w
    have hk := k.store_regsKept Reg.FLD_CTRL w
    rw [hf]
    generalize k.store Reg.FLD_CTRL w = j at hs hk ⊢
    have hax : j.axisIn [axOff, axSafe, axTest] = k.axisIn [axOff, axSafe, axTest] := by
      rw [Stake.axisIn, Stake.axis, hk.fld (by decide)]
      rfl
    by_cases hx : k.axisIn [axOff, axSafe, axTest] = true
    · rw [if_pos hx]
      intro off h2 h3
      have h4 : off ∉ [Reg.FLD_CTRL] := by
        simp only [List.mem_singleton, Reg.FLD_CTRL]
        omega
      exact ((Stake.fldApply_takes (hax.trans hx) h2 h3).of_only (.mono (Stake.fldSync_only _) (by decide))).trans (hk off h4)
    · rw [if_neg hx, Stake.fldApply_refused (hax.trans (Bool.eq_false_of_not_eq_true hx))]
      have hq : Stake.Only [.regs] k (j.putB Reg.FLD_STATUS_CFG_REFUSED true) := .putB (hs.mono (List.Subset.refl _))
      have hb : (j.putB Reg.FLD_STATUS_CFG_REFUSED true).flag Reg.FLD_STATUS_CFG_REFUSED = true := Stake.flag_putB_same _ _ _ (by decide) rfl
      generalize j.putB Reg.FLD_STATUS_CFG_REFUSED true = q at hq hb ⊢
      have hp : k.posted (q.post .fldCfgRefused 0) .fldCfgRefused 0 [] := Stake.posted_of_eq hq.out hq.id (by rw [hq.ang]) (q.post_posted _ _ _)
      have hb' : (q.post .fldCfgRefused 0).flag Reg.FLD_STATUS_CFG_REFUSED = true := by
        rw [Stake.flag, Stake.fld_post_zero]
        exact hb
      have ha' : (q.post .fldCfgRefused 0).act = k.act := (Stake.post_act ..).trans hq.act
      have hs' := (q.post .fldCfgRefused 0).fldSync_only
      refine ⟨?_, hs'.act.trans ha', ?_⟩
      · rw [Stake.flag, Stake.fldSync, Stake.putB, Stake.fld_put_ne _ _ _ _ (.inr (by decide))]
        exact hb'
      · exact hp.of_prefix (by rw [Stake.outKept, hs'.out])

/-! Table swaps (R166, R298). -/

theorem fldTableSwap_of (copyOk : Bool) (ha : s.admits src n Reg.FLD_TBL_CTRL w) :
    let k := s.stake n
    let sw := if k.id = 1 then Reg.FLD_TBL_CTRL_SWAP.of w else Reg.FLD_TBL_CTRL_SWAP.of w % 4
    (sw.testBit 2 = false ∨ curveOk (k.curve (1 - k.fldBank 2)) = true →
      ∃ t, exec (.fldTableSwap n src w copyOk) s = .next t ∧ s.elsewhere t n ∧
        (t.stake n).fld Reg.FLD_TBL_CTRL_PENDING = k.fld Reg.FLD_TBL_CTRL_PENDING ||| sw ∧
        k.regsKept (t.stake n) [Reg.FLD_TBL_CTRL] ∧ (t.stake n).prt.copyBad = if sw.testBit 1 then !copyOk else k.prt.copyBad) ∧
    (sw.testBit 2 = true → curveOk (k.curve (1 - k.fldBank 2)) = false →
      ∃ t, exec (.fldTableSwap n src w true) s = .next t ∧ s.stakesKept t ∧
        s.posted t .hifRange 0 [bar0 n Reg.FLD_TBL_CTRL, w.toNat]) := by
  intro k sw
  have hsw : sw < 8 := by
    have h1 : Reg.FLD_TBL_CTRL_SWAP.of w < 8 := Fld.of_lt _ _
    simp only [sw]
    split <;> omega
  have hw : ∀ b, k.wTblCtrl w b = if sw.testBit 2 && !curveOk (k.curve (1 - k.fldBank 2)) then (k, true) else
      ((if sw.testBit 1 then k.onPrt fun p => { p with copyBad := !b } else k).put Reg.FLD_TBL_CTRL_PENDING
        ((if sw.testBit 1 then k.onPrt fun p => { p with copyBad := !b } else k).fld Reg.FLD_TBL_CTRL_PENDING ||| sw), false) := fun _ => rfl
  refine ⟨fun h => ⟨s.tblCtrlWrite src n w copyOk, rfl, ?_⟩, fun h2 hc => ⟨s.tblCtrlWrite src n w true, rfl, ?_⟩⟩
  · have hg : (sw.testBit 2 && !curveOk (k.curve (1 - k.fldBank 2))) = false := by
      rcases h with h | h <;> simp [h]
    have hv := hw copyOk
    rw [hg, if_neg Bool.false_ne_true] at hv
    have he : s.tblCtrlWrite src n w copyOk = s.onStake n fun k => (k.wTblCtrl w copyOk).1 := by
      unfold State.tblCtrlWrite
      rw [State.stakeWrite_of_admits ha]
      have h0 : (k.wTblCtrl w).2 = false := by rw [hw true, hg, if_neg Bool.false_ne_true]
      exact if_neg (by rw [show s.stake n = k from rfl, h0, Bool.and_false]; exact Bool.false_ne_true)
    rw [he, State.onStake_stake_same ha.present, show s.stake n = k from rfl, hv]
    refine ⟨s.onStake_elsewhere n _, ?_⟩
    dsimp only
    have hj : Stake.Only [.prt] k (if sw.testBit 1 then k.onPrt fun p => { p with copyBad := !copyOk } else k) := .ite (.onPrt .refl) .refl
    have hjb : (if sw.testBit 1 then k.onPrt fun p => { p with copyBad := !copyOk } else k).prt.copyBad =
        if sw.testBit 1 then !copyOk else k.prt.copyBad := by split <;> rfl
    generalize (if sw.testBit 1 then k.onPrt fun p => { p with copyBad := !copyOk } else k) = j at hj hjb ⊢
    have hf : j.fld Reg.FLD_TBL_CTRL_PENDING = k.fld Reg.FLD_TBL_CTRL_PENDING := hj.fld _
    refine ⟨?_, ?_, hjb⟩
    · rw [Stake.fld_put_same _ _ _ (by decide), hf]
      exact Nat.mod_eq_of_lt (Nat.or_lt_two_pow (Fld.of_lt Reg.FLD_TBL_CTRL_PENDING _) hsw)
    · exact .put (fun o _ => hj.rd o) (by decide)
  · have hg : (sw.testBit 2 && !curveOk (k.curve (1 - k.fldBank 2))) = true := by simp [h2, hc]
    have hv := hw true
    rw [hg, if_pos rfl] at hv
    have he : s.tblCtrlWrite src n w true = s.rangeDrop (bar0 n Reg.FLD_TBL_CTRL) w := by
      obtain ⟨ht, hl, _⟩ := id ha
      unfold State.tblCtrlWrite
      rw [State.stakeWrite_of_admits ha, State.onStake_self (by rw [show s.stake n = k from rfl, hv])]
      exact if_pos (by rw [ht, hl, show s.stake n = k from rfl, hv]; rfl)
    rw [he]
    exact ⟨⟨State.postPkg_zero_stakes .., State.postPkg_part .., State.postPkg_pending ..⟩, s.postPkg_posted _ _ _⟩

/-! The fallback curve (R159, R160). -/

/-- The fallback command and its cells leave the stake's registers. -/
theorem fallbackSends_regs (k : Stake) (act : Bool) (rpm : Int) (tgt : Nat) (l : List Nat) : (l.foldl (fun q n =>
      if !tgt.testBit n then q
      else if n = q.id then q.takeFallback act (if act then rpm else 0)
      else q.sendCell (q.cell n 0 6 0xFFFF [if act then 1 else 0, if act then word rpm else 0])) k).regs = k.regs ∧ (l.foldl (fun q n =>
      if !tgt.testBit n then q
      else if n = q.id then q.takeFallback act (if act then rpm else 0)
      else q.sendCell (q.cell n 0 6 0xFFFF [if act then 1 else 0, if act then word rpm else 0])) k).id = k.id := by
  have h : Stake.Only [.wal, .prt, .fe] k (l.foldl (fun q n =>
      if !tgt.testBit n then q
      else if n = q.id then q.takeFallback act (if act then rpm else 0)
      else q.sendCell (q.cell n 0 6 0xFFFF [if act then 1 else 0, if act then word rpm else 0])) k) :=
    .foldl (fun j n hj => .ite hj (.ite (.ite hj (.onFe (.refreshHost hj))) (.sendCell hj))) _ .refl
  exact ⟨h.regs, h.id⟩

theorem Stake.fbLose_first (h : k.fe.fbLost = false) : (k.fbLose).flag Reg.FLD_FB_STATUS_INPUT_OK = false ∧
    (k.fbLose).flag Reg.FLD_FB_STATUS_INPUT_LOSS = true ∧ k.posted k.fbLose .fldFbInputLoss 1 [] := by
  unfold Stake.fbLose
  extract_lets j
  have hj : Stake.Only [.regs, .fe] k j := .putB .refl
  have hb : j.flag Reg.FLD_FB_STATUS_INPUT_OK = false := Stake.flag_putB_same _ _ _ (by decide) rfl
  have hl : j.fe.fbLost = false := h
  rw [if_neg (ne_true_of_eq_false hl)]
  have hi : Stake.Only [.regs, .fe] k (j.onFe fun f => { f with fbLost := true }) := .onFe hj
  have hib : (j.onFe fun f => { f with fbLost := true }).flag Reg.FLD_FB_STATUS_INPUT_OK = false := hb
  generalize (j.onFe fun f => { f with fbLost := true }) = i at hi hib ⊢
  have hq : Stake.Only [.regs, .fe] k (i.putB Reg.FLD_FB_STATUS_INPUT_LOSS true) := .putB hi
  have h1 : (i.putB Reg.FLD_FB_STATUS_INPUT_LOSS true).flag Reg.FLD_FB_STATUS_INPUT_OK = false := by
    rw [Stake.flag, Stake.putB, Stake.fld_put_ne _ _ _ _ (.inr (by decide))]
    exact hib
  have h2 : (i.putB Reg.FLD_FB_STATUS_INPUT_LOSS true).flag Reg.FLD_FB_STATUS_INPUT_LOSS = true := Stake.flag_putB_same _ _ _ (by decide) rfl
  generalize i.putB Reg.FLD_FB_STATUS_INPUT_LOSS true = q at hq h1 h2 ⊢
  refine ⟨?_, ?_, Stake.posted_of_eq hq.out hq.id (by rw [hq.ang]) (q.post_posted _ _ _)⟩
  · rw [(q.post_regsKept _ _ _).flag (by decide)]
    exact h1
  · rw [(q.post_regsKept _ _ _).flag (by decide)]
    exact h2

/-- R160: an input that is there. -/
def Stake.fbGood (k : Stake) (centre : Option (BitVec 32)) : Stake :=
  ((k.putB Reg.FLD_FB_STATUS_INPUT_OK true).onFe fun f => { f with fbLost := false }).onFe fun f => { f with fbCentre := centre }

theorem Stake.fbGood_of (k : Stake) (centre : Option (BitVec 32)) : Stake.Only [.regs, .fe] k (k.fbGood centre) ∧
    (k.fbGood centre).flag Reg.FLD_FB_STATUS_INPUT_OK = true ∧ (k.fbGood centre).fe.canX = k.fe.canX ∧
    (k.fbGood centre).flag Reg.FLD_FB_STATUS_ACTIVE = k.flag Reg.FLD_FB_STATUS_ACTIVE ∧ k.regsKept (k.fbGood centre) [Reg.FLD_FB_STATUS] := by
  have h0 : Stake.Only [.regs, .fe] k (k.putB Reg.FLD_FB_STATUS_INPUT_OK true) := .putB .refl
  have h1 : (k.putB Reg.FLD_FB_STATUS_INPUT_OK true).flag Reg.FLD_FB_STATUS_INPUT_OK = true := Stake.flag_putB_same _ _ _ (by decide) rfl
  have h2 : (k.putB Reg.FLD_FB_STATUS_INPUT_OK true).flag Reg.FLD_FB_STATUS_ACTIVE = k.flag Reg.FLD_FB_STATUS_ACTIVE := by
    rw [Stake.flag, Stake.putB, Stake.fld_put_ne _ _ _ _ (.inr (by decide))]
    rfl
  have h3 : k.regsKept (k.putB Reg.FLD_FB_STATUS_INPUT_OK true) [Reg.FLD_FB_STATUS] := .putB .refl (by decide)
  have h4 : (k.putB Reg.FLD_FB_STATUS_INPUT_OK true).fe = k.fe := rfl
  unfold Stake.fbGood
  generalize k.putB Reg.FLD_FB_STATUS_INPUT_OK true = j at h0 h1 h2 h3 h4 ⊢
  exact ⟨.onFe (.onFe h0), h1, (congrArg FldState.canX h4 : j.fe.canX = _), h2, h3⟩

/-- R160: the input and the side of the curve's thresholds it lies on. -/
theorem Stake.fbInput_of (k : Stake) (x : Word48) (act : Bool) (h : k.flag Reg.FLD_FB_STATUS_INPUT_OK = true) :
    ((k.put48 Reg.FLD_FB_X x).putB Reg.FLD_FB_STATUS_ACTIVE act).get48 Reg.FLD_FB_X = x ∧
      ((k.put48 Reg.FLD_FB_X x).putB Reg.FLD_FB_STATUS_ACTIVE act).flag Reg.FLD_FB_STATUS_INPUT_OK = true ∧
      ((k.put48 Reg.FLD_FB_X x).putB Reg.FLD_FB_STATUS_ACTIVE act).flag Reg.FLD_FB_STATUS_ACTIVE = act := by
  have h1 : (k.put48 Reg.FLD_FB_X x).get48 Reg.FLD_FB_X = x := k.get48_put48_same _ _
  have h2 : k.regsKept (k.put48 Reg.FLD_FB_X x) [Reg.FLD_FB_X, Reg.FLD_FB_X + 4] := .put48 .refl (by decide) (by decide)
  generalize k.put48 Reg.FLD_FB_X x = j at h1 h2 ⊢
  have h3 : j.regsKept (j.putB Reg.FLD_FB_STATUS_ACTIVE act) [Reg.FLD_FB_STATUS] := .putB .refl (by decide)
  refine ⟨(h3.get48 (by decide) (by decide)).trans h1, ?_, ?_⟩
  · rw [Stake.flag, Stake.putB, Stake.fld_put_ne _ _ _ _ (.inr (by decide))]
    exact (h2.flag (by decide)).trans h
  · cases act
    · exact Stake.flag_putB_same _ _ _ (by decide) rfl
    · exact Stake.flag_putB_same _ _ _ (by decide) rfl

/-- R159, R160: the evaluation of the curve for an input from the CAN that is not stale. -/
theorem Stake.fallbackTick_can (hen : k.flag Reg.FLD_FB_CTRL_EN = true) (hm : k.fld Reg.PLT_VOTE_STATUS_MODE ≠ 2)
    (hsrc : k.fld Reg.FLD_FB_CTRL_FB_SRC = 0) (hst : k.fbStale = false) :
    k.fallbackTick.get48 Reg.FLD_FB_X = w48 k.fe.canX ∧ k.fallbackTick.flag Reg.FLD_FB_STATUS_INPUT_OK = true ∧
      k.fallbackTick.flag Reg.FLD_FB_STATUS_ACTIVE = (if k.int48 Reg.FLD_FB_XON < k.fe.canX then true
        else if k.fe.canX < k.int48 Reg.FLD_FB_XOFF then false else k.flag Reg.FLD_FB_STATUS_ACTIVE) := by
  unfold Stake.fallbackTick
  rw [if_neg (by simp [hen, hm])]
  extract_lets -underBinder +onlyGivenNames src c centre lost j i x act q rpm tgt
  have hlost : lost = false := (if_pos hsrc).trans hst
  clear_value lost
  subst hlost
  have hi : i = k.fbGood (if src = 0 then none else some centre) := rfl
  obtain ⟨g1, g2, g3, g4, g5⟩ := k.fbGood_of (if src = 0 then none else some centre)
  rw [← hi] at g1 g2 g3 g4 g5
  clear_value i
  have hx : x = k.fe.canX := (if_neg Bool.false_ne_true).trans ((if_pos hsrc).trans g3)
  clear_value x
  subst hx
  have hact : act = if k.int48 Reg.FLD_FB_XON < k.fe.canX then true else if k.fe.canX < k.int48 Reg.FLD_FB_XOFF then false
      else k.flag Reg.FLD_FB_STATUS_ACTIVE := by
    simp only [act]
    rw [Stake.int48, Stake.int48, g5.get48 (by decide) (by decide), g5.get48 (by decide) (by decide), g4]
    rfl
  obtain ⟨i1, i2, i3⟩ := i.fbInput_of (w48 k.fe.canX) act g2
  change q.get48 Reg.FLD_FB_X = _ at i1
  change q.flag Reg.FLD_FB_STATUS_INPUT_OK = true at i2
  change q.flag Reg.FLD_FB_STATUS_ACTIVE = act at i3
  clear_value q
  clear_value act
  obtain ⟨r1, r2⟩ := fallbackSends_regs q act rpm tgt (List.range 8)
  generalize List.foldl _ q (List.range 8) = r at r1 r2 ⊢
  have hr : q.regsKept r [] := fun o _ => Stake.rd_congr r1 r2 o
  have e1 : r.get48 Reg.FLD_FB_X = q.get48 Reg.FLD_FB_X := hr.get48 List.not_mem_nil List.not_mem_nil
  have e2 : r.flag Reg.FLD_FB_STATUS_INPUT_OK = q.flag Reg.FLD_FB_STATUS_INPUT_OK := hr.flag List.not_mem_nil
  have e3 : r.flag Reg.FLD_FB_STATUS_ACTIVE = q.flag Reg.FLD_FB_STATUS_ACTIVE := hr.flag List.not_mem_nil
  refine ⟨?_, ?_, ?_⟩
  · exact e1.trans i1
  · exact e2.trans i2
  · exact e3.trans (i3.trans hact)

/-- Settles O35: a good commit and a good APPLY are the one write of `FLD_CTRL`; a swap only notes what is pending; the curve's input comes
before what it sends. -/
theorem fieldSettings : Obligations.FieldSettings := by
  refine ⟨fun s n src w ha h1 h0 => paramCommit_of ha h1 h0, fun s n src w ha h0 h1 => fldApply_of ha h0 h1,
    fun s n src w copyOk ha => fldTableSwap_of copyOk ha, fun s hp hen hm hsrc hst hl hs => ?_, fun s hp hsrc hst hf => ?_⟩
  · have he : exec .fallbackTick s = .next (s.onStake 1 fun k => if s.pkg.boot.lost.testBit 1 || k.stopped then k else k.fallbackTick) := rfl
    refine ⟨_, he, s.onStake_elsewhere 1 _, ?_⟩
    rw [State.onStake_stake_same hp, if_neg (by rw [hl, hs]; exact Bool.false_ne_true)]
    exact Stake.fallbackTick_can hen hm hsrc hst
  · have he : exec .fbInputTimeout s = .next (s.onStake 1 fun k => if k.fld Reg.FLD_FB_CTRL_FB_SRC = 0 && k.fbStale then k.fbLose else k) := rfl
    refine ⟨_, he, s.onStake_elsewhere 1 _, ?_⟩
    rw [State.onStake_stake_same hp, if_pos (by rw [hsrc, hst]; rfl)]
    exact Stake.fbLose_first hf

end
end Sys2Proof.Machine

/-! The steps of a CATCH (R162, R163). -/
namespace Sys2Proof.Machine
set_option Elab.async false

/-- The CATCH is over: its step is taken back, the legs are off, and its outcome shows. -/
def Stake.catchClosed (k : Stake) (o : Nat) : Stake :=
  (((k.put Reg.FLD_STATUS_CATCH_STEP 0).onFe fun f => { f with catching := none }).leaveSwitching).put Reg.FLD_CATCH_STATUS_OUTCOME o

/-- What the end of a CATCH shows in its result registers (R163). -/
def Stake.catchShown (k : Stake) (o : Nat) (a t : Word48) (w : Int) (b : Bool) : Stake :=
  if o = 1 then
    (((((k.catchClosed o).put48 Reg.FLD_CATCH_ANGLE a).put48 Reg.FLD_CATCH_SPEED (w48 w)).put48 Reg.FLD_CATCH_TICK t).putB
      Reg.FLD_CATCH_STATUS_DIR (w < 0)).putB Reg.FLD_CATCH_STATUS_ANGLE_VALID b
  else (k.catchClosed o).putB Reg.FLD_CATCH_STATUS_ANGLE_VALID false

theorem Stake.catchClosed_catching (k : Stake) (o : Nat) : (k.catchClosed o).fe.catching = none := by
  have hl : Stake.Only [.modu, .regs] ((k.put Reg.FLD_STATUS_CATCH_STEP 0).onFe fun f => { f with catching := none }) (k.catchClosed o) :=
    .put (.leaveSwitching .refl)
  rw [hl.fe]
  rfl

theorem Stake.catchShown_only (k : Stake) (o : Nat) (a t : Word48) (w : Int) (b : Bool) :
    Stake.Only [.regs] (k.catchClosed o) (k.catchShown o a t w b) :=
  .ite (.putB (.putB (.put48 (.put48 (.put48 .refl))))) (.putB .refl)

theorem Stake.catchShown_eff (k : Stake) (o : Nat) (a t : Word48) (w : Int) (b : Bool) :
    Stake.Eff catchParts catchRegs k (k.catchShown o a t w b) := by
  have h : Stake.Eff catchParts catchRegs k (k.catchClosed o) := .put (.leaveSwitching (.onFe (.put .refl)))
  exact .ite (.putB (.putB (.put48 (.put48 (.put48 h))))) (.putB h)

/-- The registers that the end of a CATCH writes once its result shows. -/
def catchAfterRegs : List Nat := syncRegs ++ axisRegs

theorem Stake.enterRun_catching (k : Stake) : k.enterRun.fe.catching = k.fe.catching := by
  unfold Stake.enterRun
  extract_lets q
  have h : ((((q.onFe fun f => { f with flying := true, tStar := 0 }).setAxis axRun 0).enterSwitching).fe.catching) = k.fe.catching := by
    rw [(Stake.Only.enterSwitching_only _).fe, Stake.setAxis_catching]
    rfl
  generalize ((q.onFe fun f => { f with flying := true, tStar := 0 }).setAxis axRun 0).enterSwitching = j at h
  unfold Stake.updDerate
  split
  · exact h
  split
  · rw [Stake.setAxis_catching, h]
  split
  · rw [Stake.setAxis_catching, h]
  · exact h

/-- R163: the end of a CATCH: it is over, its result shows, and CATCH_DONE or CATCH_FAILED is posted. -/
theorem Stake.catchEnd_shows {k : Stake} {c : Catch} (h : k.fe.catching = some c) {o : Nat} (ho : o ≠ 0) (a t : Word48) (w : Int) (b : Bool) :
    (k.catchEnd o a t w b).fe.catching = none ∧ (k.catchShown o a t w b).regsKept (k.catchEnd o a t w b) catchAfterRegs ∧
    (if o = 1 then k.posted (k.catchEnd o a t w b) .catchDone 0 [] else k.posted (k.catchEnd o a t w b) .catchFailed 1 [o]) := by
  unfold Stake.catchEnd
  split
  · next hn => rw [hn] at h; contradiction
  next c' _ =>
  extract_lets k1 k2 k3 ok k4 q5 k5 st res k6 k7
  have e4 : k4 = k.catchShown o a t w b := rfl
  have h4 : k4.fe.catching = none := by rw [e4, (k.catchShown_only o a t w b).fe, k.catchClosed_catching]
  have f4 := k.catchShown_eff o a t w b
  rw [← e4] at f4 ⊢
  have h5 : Stake.Eff catchParts catchAfterRegs k4 k5 := .ite (.deliver (.loseSource (.onFe .refl))) .refl
  have c5 : k5.fe.catching = none := by
    simp only [k5]
    split
    · rw [(Stake.Only.deliver_only _ _ _).fe, (Stake.Only.loseSource_only _ _).fe]
      exact h4
    · exact h4
  clear_value k4 k5
  have h6 : Stake.Eff catchParts catchAfterRegs k4 k6 ∧ k6.fe.catching = none := by
    simp only [k6]
    cases c'.desc with
    | none => exact ⟨h5, c5⟩
    | some d => exact ⟨.complete h5, c5⟩
  clear_value k6
  obtain ⟨h6, c6⟩ := h6
  have h7 : Stake.Eff catchParts catchAfterRegs k4 k7 := .ite (.post h6) (.ite h6 (.post h6))
  have c7 : k7.fe.catching = none := by
    simp only [k7, ho, if_false]
    split <;> rw [Stake.post_fe, c6]
  have p7 : if o = 1 then k.posted k7 .catchDone 0 [] else k.posted k7 .catchFailed 1 [o] := by
    by_cases h1 : o = 1
    · simp only [k7, ok, h1, if_true]
      exact f4.posted (h6.post_posted _ _ _)
    · simp only [k7, ok, h1, ho, if_false]
      exact f4.posted (h6.post_posted _ _ _)
  clear_value k7
  obtain ⟨hr, hk⟩ := k7.enterRun_of
  have hout : k7.outKept (if k7.axis = axCatch then if ok && b && c'.run then k7.enterRun else k7.setAxis axArmed 0 else k7) :=
    .ite (.ite hr (k7.setAxis_out _ _)) .refl
  refine ⟨?_, h7.regs.trans (.ite (.ite (hk.mono (by decide)) (.setAxis .refl (by decide))) .refl), ?_⟩
  · split
    · split
      · rw [k7.enterRun_catching, c7]
      · rw [Stake.setAxis_catching, c7]
    · exact c7
  · by_cases h1 : o = 1
    · rw [if_pos h1] at p7 ⊢
      exact p7.of_prefix hout
    · rw [if_neg h1] at p7 ⊢
      exact p7.of_prefix hout

/-- R163: a CATCH that fails. -/
theorem Stake.catchEnd_failed {k : Stake} {c : Catch} (h : k.fe.catching = some c) {o : Nat} (ho : o ≠ 0) (h1 : o ≠ 1) (hw : o < 16) :
    (k.catchEnd o 0 0 0 false).fe.catching = none ∧ (k.catchEnd o 0 0 0 false).fld Reg.FLD_CATCH_STATUS_OUTCOME = o ∧
    (k.catchEnd o 0 0 0 false).flag Reg.FLD_CATCH_STATUS_ANGLE_VALID = false ∧ k.posted (k.catchEnd o 0 0 0 false) .catchFailed 1 [o] := by
  obtain ⟨hc, hr, hp⟩ := Stake.catchEnd_shows h ho 0 0 0 false
  rw [if_neg h1] at hp
  have he : k.catchShown o 0 0 0 false = (k.catchClosed o).putB Reg.FLD_CATCH_STATUS_ANGLE_VALID false := if_neg h1
  rw [he] at hr
  refine ⟨hc, ?_, ?_, hp⟩
  · rw [hr.fld (by decide), Stake.fld_putB_ne _ _ _ _ (by decide)]
    exact (Stake.fld_put_same _ _ _ (by decide)).trans (Nat.mod_eq_of_lt hw)
  · rw [hr.flag (by decide), Stake.flag_putB_same _ _ _ (by decide) rfl]

/-- R162, R163: a CATCH that has found the motor. -/
theorem Stake.catchEnd_found {k : Stake} {c : Catch} (h : k.fe.catching = some c) (a t : Word48) (w : Int) (b : Bool) :
    (k.catchEnd 1 a t w b).fe.catching = none ∧ (k.catchEnd 1 a t w b).fld Reg.FLD_CATCH_STATUS_OUTCOME = 1 ∧
    (k.catchEnd 1 a t w b).flag Reg.FLD_CATCH_STATUS_ANGLE_VALID = b ∧ (k.catchEnd 1 a t w b).get48 Reg.FLD_CATCH_ANGLE = a ∧
    (k.catchEnd 1 a t w b).get48 Reg.FLD_CATCH_SPEED = w48 w ∧ (k.catchEnd 1 a t w b).get48 Reg.FLD_CATCH_TICK = t ∧
    k.posted (k.catchEnd 1 a t w b) .catchDone 0 [] := by
  obtain ⟨hc, hr, hp⟩ := Stake.catchEnd_shows h (o := 1) (by decide) a t w b
  rw [if_pos rfl] at hp
  have he : k.catchShown 1 a t w b = (((((k.catchClosed 1).put48 Reg.FLD_CATCH_ANGLE a).put48 Reg.FLD_CATCH_SPEED (w48 w)).put48
      Reg.FLD_CATCH_TICK t).putB Reg.FLD_CATCH_STATUS_DIR (w < 0)).putB Reg.FLD_CATCH_STATUS_ANGLE_VALID b := if_pos rfl
  rw [he] at hr
  generalize k.catchEnd 1 a t w b = j at *
  have h1 : (k.catchClosed 1).fld Reg.FLD_CATCH_STATUS_OUTCOME = 1 := Stake.fld_put_same _ _ _ (by decide)
  generalize k.catchClosed 1 = q at *
  have ht : ((q.put48 Reg.FLD_CATCH_ANGLE a).put48 Reg.FLD_CATCH_SPEED (w48 w)).put48 Reg.FLD_CATCH_TICK t |>.regsKept j
      (Reg.FLD_CATCH_STATUS :: catchAfterRegs) :=
    .trans (.putB (.putB .refl (by decide)) (by decide)) (hr.mono (by decide))
  have hs : (q.put48 Reg.FLD_CATCH_ANGLE a).put48 Reg.FLD_CATCH_SPEED (w48 w) |>.regsKept j
      (Reg.FLD_CATCH_TICK :: (Reg.FLD_CATCH_TICK + 4) :: Reg.FLD_CATCH_STATUS :: catchAfterRegs) :=
    .trans (.put48 .refl (by decide) (by decide)) (ht.mono (by decide))
  have ha : (q.put48 Reg.FLD_CATCH_ANGLE a).regsKept j (Reg.FLD_CATCH_SPEED :: (Reg.FLD_CATCH_SPEED + 4) ::
      Reg.FLD_CATCH_TICK :: (Reg.FLD_CATCH_TICK + 4) :: Reg.FLD_CATCH_STATUS :: catchAfterRegs) :=
    .trans (.put48 .refl (by decide) (by decide)) (hs.mono (by decide))
  refine ⟨hc, ?_, ?_, ?_, ?_, ?_, hp⟩
  · rw [hr.fld (by decide), Stake.fld_putB_ne _ _ _ _ (by decide), Stake.fld_putB_ne _ _ _ _ (by decide)]
    have hq : q.regsKept (((q.put48 Reg.FLD_CATCH_ANGLE a).put48 Reg.FLD_CATCH_SPEED (w48 w)).put48 Reg.FLD_CATCH_TICK t)
        [Reg.FLD_CATCH_ANGLE, Reg.FLD_CATCH_ANGLE + 4, Reg.FLD_CATCH_SPEED, Reg.FLD_CATCH_SPEED + 4, Reg.FLD_CATCH_TICK, Reg.FLD_CATCH_TICK + 4] :=
      .put48 (.put48 (.put48 .refl (by decide) (by decide)) (by decide) (by decide)) (by decide) (by decide)
    exact (hq.fld (by decide)).trans h1
  · rw [hr.flag (by decide), Stake.flag_putB_same _ _ _ (by decide) rfl]
  · rw [ha.get48 (by decide) (by decide), Stake.get48_put48_same]
  · rw [hs.get48 (by decide) (by decide), Stake.get48_put48_same]
  · rw [ht.get48 (by decide) (by decide), Stake.get48_put48_same]

/-! The steps. -/

/-- CATCH_LEGS_OFF_END on its stake, once the time of the first step is over (R162). -/
def Stake.catchLegsOff (k : Stake) (c : Catch) : Stake :=
  if 0 < c.emfN && k.leaveSwitching.par 33 * c.emfN ≤ c.emfSum then
    (k.leaveSwitching.put Reg.FLD_STATUS_CATCH_STEP 2).onFe fun f => { f with catching := some { c with step := 2, smallSince := none } }
  else if k.leaveSwitching.inForceB Reg.FLD_CTRL_MACHINE then k.leaveSwitching.catchEnd 3 0 0 0 false
  else (k.leaveSwitching.put Reg.FLD_STATUS_CATCH_STEP 3).onFe fun f =>
    { f with catching := some { c with step := 3, nextPulse := k.leaveSwitching.now } }

theorem Stake.onFe_fe (k : Stake) (f : FldState → FldState) : (k.onFe f).fe = f k.fe := rfl

theorem Stake.fld_onFe (k : Stake) (f : FldState → FldState) (g : Fld) : (k.onFe f).fld g = k.fld g := rfl

theorem Stake.par_congr {k j : Stake} (h : j.act = k.act) (hi : j.id = k.id) (i : Nat) : j.par i = k.par i := by
  simp only [Stake.par, Stake.act48, Stake.rdAct, h, hi]

/-- A step of a CATCH, which does nothing while none is under way. -/
def Stake.onCatch (g : Stake → Catch → Stake) (k : Stake) : Stake :=
  match k.fe.catching with
  | none => k
  | some c => g k c

theorem Stake.onCatch_some {k : Stake} {c : Catch} (h : k.fe.catching = some c) (g : Stake → Catch → Stake) : k.onCatch g = g k c := by
  rw [Stake.onCatch, h]

theorem Stake.catchLegsOff_takes {k : Stake} {c : Catch} (h : k.fe.catching = some c) :
    if 0 < c.emfN ∧ k.par 33 * c.emfN ≤ c.emfSum then
      (k.catchLegsOff c).fe.catching = some { c with step := 2, smallSince := none } ∧ (k.catchLegsOff c).fld Reg.FLD_STATUS_CATCH_STEP = 2
    else if k.inForceB Reg.FLD_CTRL_MACHINE = true then
      (k.catchLegsOff c).fe.catching = none ∧ (k.catchLegsOff c).fld Reg.FLD_CATCH_STATUS_OUTCOME = 3 ∧
        k.posted (k.catchLegsOff c) .catchFailed 1 [3]
    else (k.catchLegsOff c).fe.catching = some { c with step := 3, nextPulse := k.now } ∧
      (k.catchLegsOff c).fld Reg.FLD_STATUS_CATCH_STEP = 3 := by
  have hl : Stake.Eff [.modu, .regs] [Reg.MOD_SPACING_CNT] k k.leaveSwitching := .leaveSwitching .refl
  unfold Stake.catchLegsOff
  generalize k.leaveSwitching = q at hl
  rw [Stake.par_congr hl.only.act hl.only.id, hl.only.inForceB, hl.only.now]
  simp only [Bool.and_eq_true, decide_eq_true_eq]
  by_cases he : 0 < c.emfN ∧ k.par 33 * c.emfN ≤ c.emfSum
  · rw [if_pos he, if_pos he, Stake.onFe_fe, Stake.fld_onFe]
    exact ⟨rfl, Stake.fld_put_same _ _ _ (by decide)⟩
  rw [if_neg he, if_neg he]
  by_cases hm : k.inForceB Reg.FLD_CTRL_MACHINE = true
  · rw [if_pos hm, if_pos hm]
    obtain ⟨h1, h2, -, h4⟩ := Stake.catchEnd_failed (k := q) (c := c) (by rw [hl.only.fe, h]) (o := 3) (by decide) (by decide) (by decide)
    exact ⟨h1, h2, hl.posted h4⟩
  · rw [if_neg hm, if_neg hm, Stake.onFe_fe, Stake.fld_onFe]
    exact ⟨rfl, Stake.fld_put_same _ _ _ (by decide)⟩

theorem exec_onCatch {x : Instr} {s : State} {n : Nat} {c : Catch} (hp : s.present n = true) (hc : (s.stake n).fe.catching = some c)
    {g : Stake → Catch → Stake} (he : exec x s = .next (s.onStake n (Stake.onCatch g))) {j : Stake} (hj : g (s.stake n) c = j) :
    ∃ t, exec x s = .next t ∧ s.elsewhere t n ∧ t.stake n = j :=
  ⟨_, he, s.onStake_elsewhere n _, (State.onStake_stake_same hp _).trans ((Stake.onCatch_some hc g).trans hj)⟩

/-- CATCH_LEGS_OFF_END (R162). -/
def Stake.legsOffStep (k : Stake) (c : Catch) : Stake := if c.step ≠ 1 || k.now < c.start + 800000 then k else k.catchLegsOff c

/-- CATCH_PLL_LOCK (R162). -/
def Stake.pllStep (k : Stake) (c : Catch) : Stake :=
  match c.smallSince with
  | none => k
  | some t =>
    if c.step = 2 && c.pllOmega ≠ 0 && rev48 ≤ ((k.now - t : Nat) : Int) * iabs c.pllOmega then
      k.catchEnd 1 (c.argE - quarter c.pllOmega) c.lastTick c.pllOmega true
    else k

theorem Stake.pllStep_locks {k : Stake} {c : Catch} {since : Nat} (h2 : c.step = 2) (hs : c.smallSince = some since) (hw : c.pllOmega ≠ 0)
    (ht : rev48 ≤ ((k.now - since : Nat) : Int) * iabs c.pllOmega) :
    k.pllStep c = k.catchEnd 1 (c.argE - quarter c.pllOmega) c.lastTick c.pllOmega true := by
  unfold Stake.pllStep
  rw [hs]
  exact if_pos (by simp [h2, hw, ht])

/-- CATCH_TIMEOUT (R162). -/
def Stake.catchLate (k : Stake) (c : Catch) : Stake :=
  if c.step = 2 && c.start + 400000 * k.inForce Reg.FLD_CATCH_CFG_T_CATCH ≤ k.now then k.catchEnd 2 0 0 0 false else k

/-- R162, R465: the three low sides on and off again. -/
def Stake.catchPulse (k : Stake) : Stake :=
  [0, 1, 2].foldl (fun q p => (q.schedule p .lsOn k.nowI).schedule p .lsOff (k.nowI.plus (32 * k.inForce Reg.FLD_CATCH_CFG_ZV_TIME))) k

theorem Stake.catchPulse_only (k : Stake) : Stake.Only [.modu, .regs] k k.catchPulse :=
  .foldl (fun j p h => (h.step (j.schedule_eff p _ _).only).step (Stake.schedule_eff _ p _ _).only) _ .refl

theorem Stake.captureGroup_only (k : Stake) (g : Nat) (t : Word48) : Stake.Only [.sns, .regs, .out, .prt] k (k.captureGroup g t) := by
  unfold Stake.captureGroup
  split
  · exact .refl
  · exact .ite .refl (.ite (.post (.bump .refl)) (.onSns .refl))

/-- The centre of the capture last begun, else the tick asked for. -/
def Stake.lastCentre (k : Stake) (g : Nat) (t : Word48) : Word48 :=
  match (k.group g).inFlight.getLast? with
  | some x => x.centre
  | none => t

/-- A pulse of a CATCH with its capture (R162). -/
def Stake.pulseStep (k : Stake) (c : Catch) : Stake :=
  if c.step ≠ 3 || k.inForce Reg.FLD_CATCH_CFG_ZV_N ≤ c.pulses || k.now < c.nextPulse then k
  else
    let off := k.nowI.plus (32 * k.inForce Reg.FLD_CATCH_CFG_ZV_TIME)
    let g := k.catchPulse.inForce Reg.FLD_MAP_GROUP_A
    let q := k.catchPulse.captureGroup g off.tick
    q.onFe fun f => { f with catching := some { c with pulses := c.pulses + 1, nextPulse := c.nextPulse + 400 * q.inForce Reg.FLD_CATCH_GAP_ZV_GAP,
                                                       lastCentre := q.lastCentre g off.tick } }

theorem Stake.pulseStep_gives {k : Stake} {c : Catch} (h3 : c.step = 3) (hn : c.pulses < k.inForce Reg.FLD_CATCH_CFG_ZV_N)
    (ht : c.nextPulse ≤ k.now) : ∃ c', (k.pulseStep c).fe.catching = some c' ∧ c'.pulses = c.pulses + 1 ∧
      c'.nextPulse = c.nextPulse + 400 * k.inForce Reg.FLD_CATCH_GAP_ZV_GAP ∧ c'.step = 3 ∧ c'.phi = c.phi := by
  unfold Stake.pulseStep
  rw [if_neg (by simp; omega)]
  extract_lets off g q
  have hq : Stake.Only [.modu, .regs, .sns, .out, .prt] k q := .step (k.catchPulse_only.mono (by decide)) (Stake.captureGroup_only k.catchPulse _ _)
  clear_value q
  exact ⟨_, congrArg FldState.catching (Stake.onFe_fe _ _), rfl, by rw [← hq.inForce Reg.FLD_CATCH_GAP_ZV_GAP], h3, rfl⟩

/-- Settles O36: the end of a CATCH shows its result before the axis moves on, and nothing after it writes the result registers. -/
theorem catchSteps : Obligations.CatchSteps := by
  unfold Obligations.CatchSteps
  intro s n c hp hc
  dsimp only
  refine ⟨fun h1 ht => ?_, fun since h2 hs hw ht => ?_, fun h2 ht => ?_, fun h3 hn ht => ?_⟩
  · obtain ⟨t, hx, he, hj⟩ := exec_onCatch (x := .catchLegsOffEnd n) (g := Stake.legsOffStep) hp hc rfl (if_neg (by simp [h1]; omega))
    refine ⟨t, hx, he, ?_⟩
    rw [hj]
    exact Stake.catchLegsOff_takes hc
  · obtain ⟨t, hx, he, hj⟩ := exec_onCatch (x := .catchPllLock n) (g := Stake.pllStep) hp hc rfl (Stake.pllStep_locks h2 hs hw ht)
    refine ⟨t, hx, he, ?_⟩
    rw [hj]
    exact Stake.catchEnd_found hc _ _ _ _
  · obtain ⟨t, hx, he, hj⟩ := exec_onCatch (x := .catchTimeout n) (g := Stake.catchLate) hp hc rfl (if_pos (by simp [h2, ht]))
    refine ⟨t, hx, he, ?_⟩
    rw [hj]
    exact Stake.catchEnd_failed hc (by decide) (by decide) (by decide)
  · obtain ⟨t, hx, he, hj⟩ := exec_onCatch (x := .catchZvPulse n) (g := Stake.pulseStep) hp hc rfl rfl
    obtain ⟨c', hc', hrest⟩ := Stake.pulseStep_gives h3 hn ht
    exact ⟨t, c', hx, he, by rw [hj, hc'], hrest⟩

end Sys2Proof.Machine

/-! Boundaries, the sets due at them, and the carrier (R170, R176, R206, R464). -/
namespace Sys2Proof.Machine
set_option Elab.async false

/-! What placing the records of a period changes: the modulation unit and its registers. -/
namespace Stake.Only
variable {l : List StakePart} {k j : Stake}

theorem schedule {p : Nat} {y : Symb} {x : Instant} (h : Only l k j) (hl : [.modu, .regs] ⊆ l := by decide) : Only l k (j.schedule p y x) :=
  h.step (j.schedule_eff p y x).only hl

theorem noteVolt_only (k : Stake) (p : Nat) (r : Bool) (t : Instant) : Only [.modu] k (k.noteVolt p r t) := .ite .refl (.onMod .refl)

theorem place_only (k : Stake) (p : Nat) (r : Bool) (t ta : Instant) : Only [.modu, .regs] k (k.place p r t ta) := by
  unfold Stake.place
  extract_lets d ta tb q
  have hq : Only [.modu, .regs] k q := .ite (.schedule (.schedule .refl)) (.schedule (.schedule .refl))
  exact .onPort (hq.step (noteVolt_only q p r t))

theorem legTo_only (k : Stake) (p : Nat) (high : Bool) (t : Instant) : Only [.modu, .regs] k (k.legTo p high t) := .ite .refl (place_only k _ _ _ _)
theorem legTo {p : Nat} {b : Bool} {t : Instant} (h : Only l k j) (hl : [.modu, .regs] ⊆ l := by decide) : Only l k (j.legTo p b t) :=
  h.step (legTo_only j p b t) hl

theorem legHalf_only (k : Stake) (p : Nat) (b : Instant) (h x : Int) (r : Bool) : Only [.modu, .regs] k (k.legHalf p b h x r) :=
  have h1 {c : Prop} [Decidable c] {q : Stake} {y : Bool} {t : Instant} (hq : Only [.modu, .regs] k q) :
    Only [.modu, .regs] k (if c then q.legTo p y t else q) := .ite (.legTo hq) hq
  .ite (h1 (h1 .refl)) (h1 (h1 .refl))
theorem legHalf {p : Nat} {b : Instant} {x y : Int} {r : Bool} (h : Only l k j) (hl : [.modu, .regs] ⊆ l := by decide) :
    Only l k (j.legHalf p b x y r) := h.step (legHalf_only j p b x y r) hl

theorem auxTo_only (k : Stake) (on : Bool) (t : Instant) : Only [.modu, .regs] k (k.auxTo on t) := .ite .refl (.onPort (.schedule .refl))
theorem auxTo {on : Bool} {t : Instant} (h : Only l k j) (hl : [.modu, .regs] ⊆ l := by decide) : Only l k (j.auxTo on t) :=
  h.step (auxTo_only j on t) hl

theorem auxHalf_only (k : Stake) (b : Instant) (h x : Int) (r : Bool) : Only [.modu, .regs] k (k.auxHalf b h x r) :=
  have h1 {c : Prop} [Decidable c] {q : Stake} {y : Bool} {t : Instant} (hq : Only [.modu, .regs] k q) :
    Only [.modu, .regs] k (if c then q.auxTo y t else q) := .ite (.auxTo hq) hq
  .ite (h1 (h1 .refl)) (h1 (h1 .refl))
theorem auxHalf {b : Instant} {x y : Int} {r : Bool} (h : Only l k j) (hl : [.modu, .regs] ⊆ l := by decide) :
    Only l k (j.auxHalf b x y r) := h.step (auxHalf_only j b x y r) hl

theorem scheduleHalves_only (k : Stake) (b : Word48) (h : Int) (r two : Bool) (c : Nat) :
    Only [.modu, .regs] k (k.scheduleHalves b h r two c) := by
  unfold Stake.scheduleHalves
  extract_lets -underBinder +onlyGivenNames s b0 b1 absolute dcl phase k1
  have hphase : ∀ (q : Stake) (p : Nat), Only [.modu, .regs] k q → Only [.modu, .regs] k (phase q p) := fun q p hq => by
    simp only [phase]
    refine .ite ?_ ?_
    · exact .ite (.legHalf (.legHalf (.onPort (.bump (.bump hq))))) (.legHalf (.onPort (.bump (.bump hq))))
    · exact .ite (.legHalf (.legHalf (.bump hq))) (.legHalf (.bump hq))
  have h1 : Only [.modu, .regs] k k1 := .ite (.foldl hphase _ (.bump .refl)) (.foldl (fun _ _ hq => .onPort hq) _ .refl)
  clear_value k1
  refine .ite h1 ?_
  extract_lets -underBinder +onlyGivenNames
  split
  next pr pf n _ =>
  exact .ite (.auxHalf (.auxHalf (.bump (.onPort h1)))) (.auxHalf (.bump (.onPort h1)))

end Stake.Only

/-- R170: the period that begins at a boundary. -/
theorem Stake.nextPeriod_begins (k : Stake) (b : Word48) : (k.nextPeriod b).ang.period.1 = b ∧ (k.nextPeriod b).ang.bndDone = [] := by
  have of : ∀ {q j : Stake}, Stake.Only [.modu, .regs] q j → q.ang.period.1 = b ∧ q.ang.bndDone = [] → j.ang.period.1 = b ∧ j.ang.bndDone = [] :=
    fun h hq => by rw [h.ang]; exact hq
  unfold Stake.nextPeriod
  extract_lets -underBinder +onlyGivenNames dbl
  split
  · extract_lets p k1 k2 k3
    have h2 : k2.ang.period.1 = b ∧ k2.ang.bndDone = [] := ⟨rfl, rfl⟩
    clear_value k2
    exact of (.put (.put (.ite (.auxTo .refl) .refl))) h2
  · extract_lets valley first c0 k1 k2 h two p k3 k4 k5 k6 nc pn
    have h4 : k4.ang.period.1 = b ∧ k4.ang.bndDone = [] := ⟨rfl, rfl⟩
    clear_value k4
    exact of (.put (.put (.onMod (.addTriggers (Stake.Only.scheduleHalves_only k4 _ _ _ _ _))))) h4

theorem Stake.boundary_of_none {k : Stake} {u : Bool} (h : k.modu.run = false ∨ k.ang.tick ≠ k.modu.nextB) : k.boundary u = k := by
  unfold Stake.boundary
  rw [if_pos (by simpa using h)]

theorem Stake.boundary_begins {k : Stake} {u : Bool} (hr : k.modu.run = true) (hb : k.ang.tick = k.modu.nextB) :
    (k.boundary u).ang.period.1 = k.ang.tick ∧ (k.boundary u).ang.bndDone = [] := by
  unfold Stake.boundary
  rw [if_neg (by simp [hr, hb])]
  exact Stake.nextPeriod_begins _ _

/-- R176: one waiting set that closed early enough is due. -/
theorem Stake.dueSet_due {k : Stake} {b : Word48} {x : USet} {l : Bool} (hw : k.modu.waiting = [(x, l)]) (ht : x.target = none)
    (hg : x.guard ≤ (b - x.closeAt).toInt) : (k.dueSet b).1 = some x ∧ (k.dueSet b).2.modu.waiting = [] := by
  have hd : x.due b = true := by simp only [USet.due, ht]; exact decide_eq_true hg
  unfold Stake.dueSet
  simp only [hw, List.filter_cons, hd, List.filter_nil, if_true, Bool.not_true, Bool.false_eq_true, if_false, List.map_nil]
  refine ⟨rfl, ?_⟩
  simp only [Stake.bump_modu]
  rfl

/-- R176: one that closed too late for the boundary is counted and waits. -/
theorem Stake.dueSet_late {k : Stake} {b : Word48} {x : USet} (hw : k.modu.waiting = [(x, false)]) (ht : x.target = none)
    (h0 : 0 ≤ (b - x.closeAt).toInt) (hg : (b - x.closeAt).toInt < x.guard) : (k.dueSet b).1 = none ∧
      (k.dueSet b).2.modu.waiting = [(x, true)] ∧ (k.dueSet b).2.rd Reg.MOD_LATE_SETS = satAdd 16 (k.rd Reg.MOD_LATE_SETS) 1 := by
  have hd : x.due b = false := by simp only [USet.due, ht]; exact decide_eq_false (by omega)
  have hl : x.lateAt b = true := by simp only [USet.lateAt, ht, h0, hg, decide_true, Bool.and_self]
  unfold Stake.dueSet
  simp only [hw, List.filter_cons, hd, hl, List.filter_nil, Bool.not_false, Bool.and_self, if_true, Bool.false_eq_true, if_false, List.map_cons,
    List.map_nil, Bool.false_or, List.length_singleton]
  exact ⟨trivial, by rw [Stake.bump_modu]; rfl, Stake.rd_bump_same ..⟩

/-- The unit but for its triggers. -/
def ModState.untriggered (m : ModState) : ModState := { m with trig := [] }

theorem Stake.untriggered_ite {c : Prop} [Decidable c] {q j i : Stake} (h : j.modu.untriggered = q.modu.untriggered)
    (h' : i.modu.untriggered = q.modu.untriggered) : (if c then j else i).modu.untriggered = q.modu.untriggered := by split <;> assumption

/-- Triggers that are added join the list and change nothing else of the unit. -/
theorem Stake.addTriggers_modu (k : Stake) (r a : Word48) (v : Bool) (h : Int) :
    (k.addTriggers r a v h).modu.untriggered = k.modu.untriggered := by
  refine foldl_frame (g := fun q : Stake => q.modu.untriggered) (fun q u => ?_) _ _
  exact Stake.untriggered_ite rfl (Stake.untriggered_ite (congrArg ModState.untriggered (Stake.bump_modu ..)) (Stake.untriggered_ite rfl rfl))

/-- The unit as the carrier starts at its first valley (R464). -/
def ModState.started (m : ModState) (t : Word48) (c : Nat) : ModState :=
  { m with run := true, nextB := t, nextValley := true, trim := 0, trimNext := 0, set := { m.set with period := c } }

theorem Stake.startCarrier_starts {k : Stake} {c : Nat} (hs : k.modu.start = some (k.ang.tick, c)) (hr : k.modu.run = false)
    (he : k.flag Reg.MOD_CTRL_EN = true) : k.startCarrier.modu.untriggered = (k.modu.started k.ang.tick c).untriggered ∧
      k.regsKept k.startCarrier [Reg.MOD_STATUS, Reg.MOD_TRIG_SKIP_CNT] := by
  have e : k.startCarrier = ((if k.kindNow = 0 then k
      else (k.put Reg.MOD_STATUS_SLOT (k.inForce Reg.MOD_CTRL_FALLBACK_SLOT)).put Reg.MOD_STATUS_KIND 0).onMod
        fun m => m.started k.ang.tick c).addTriggers k.ang.tick k.ang.tick true (c / 2 : Nat) := by
    unfold Stake.startCarrier
    simp only [hs]
    rw [if_neg (by simp [hr, he])]
    rfl
  rw [e]
  have h1 : Stake.Only [.regs] k (if k.kindNow = 0 then k
      else (k.put Reg.MOD_STATUS_SLOT (k.inForce Reg.MOD_CTRL_FALLBACK_SLOT)).put Reg.MOD_STATUS_KIND 0) := .ite .refl (.put (.put .refl))
  have r1 : k.regsKept (if k.kindNow = 0 then k
      else (k.put Reg.MOD_STATUS_SLOT (k.inForce Reg.MOD_CTRL_FALLBACK_SLOT)).put Reg.MOD_STATUS_KIND 0) [Reg.MOD_STATUS, Reg.MOD_TRIG_SKIP_CNT] :=
    .ite .refl (.put (.put .refl (by decide)) (by decide))
  generalize (if k.kindNow = 0 then k
      else (k.put Reg.MOD_STATUS_SLOT (k.inForce Reg.MOD_CTRL_FALLBACK_SLOT)).put Reg.MOD_STATUS_KIND 0) = q at h1 r1
  refine ⟨(Stake.addTriggers_modu ..).trans ?_, .addTriggers (.onMod r1) (by decide)⟩
  rw [← h1.modu]
  rfl

/-- What stopping the carrier leaves (R464). -/
theorem Stake.stopCarrier_stops (k : Stake) : k.stopCarrier.modu.run = false ∧ k.stopCarrier.modu.start = none ∧ k.stopCarrier.modu.trig = [] ∧
    k.stopCarrier.flag Reg.MOD_CTRL_EN = k.flag Reg.MOD_CTRL_EN ∧ k.stopCarrier.fld Reg.MOD_NEXT_P_NEXT = 0 := by
  unfold Stake.stopCarrier
  extract_lets k1 k2
  have h1 : k.regsKept k1 [Reg.MOD_SPACING_CNT] :=
    (Stake.Eff.foldl (l := [.modu, .regs]) (fun _ _ h => .portQuiet h) _ .refl).regs
  clear_value k1
  refine ⟨rfl, rfl, rfl, ?_, ?_⟩
  · have h2 : k.regsKept ((k2.put Reg.MOD_NEXT_P_NEXT 0).put Reg.MOD_DEPTH_M_LIM 0) [Reg.MOD_SPACING_CNT, Reg.MOD_NEXT, Reg.MOD_DEPTH] :=
      .put (.put (.onMod (h1.mono (by decide))) (by decide)) (by decide)
    exact h2.flag (by decide)
  · rw [Stake.fld_put_ne _ _ _ _ (by decide)]
    exact Stake.fld_put_same _ _ _ (by decide)

/-- R206: the epoch lock is lost. -/
theorem Stake.setEpoch_lost (k : Stake) : (k.setEpoch 3).fld Reg.MOD_STATUS_EPOCH_STATE = 3 ∧ k.regsKept (k.setEpoch 3) [Reg.MOD_STATUS] ∧
    (k.fld Reg.MOD_STATUS_EPOCH_STATE = 2 → ∃ v, k.posted (k.setEpoch 3) .modEpochUnlock 0 [v]) := by
  refine ⟨?_, .setEpoch .refl (by decide), fun h => ?_⟩
  · unfold Stake.setEpoch
    extract_lets old q
    have hq : q.fld Reg.MOD_STATUS_EPOCH_STATE = 3 := Stake.fld_put_same _ _ _ (by decide)
    split
    · rwa [Stake.fld_post_zero]
    split
    · rwa [Stake.fld_post_zero]
    · exact hq
  · unfold Stake.setEpoch
    extract_lets old q
    rw [if_neg (by simp), if_pos (by simp [old, h])]
    exact ⟨_, Stake.Only.post_posted (l := [.regs]) (.put .refl) ..⟩

theorem modCtrl_row : ∃ r, regAt Reg.MOD_CTRL = some r ∧ (counterWidth r).isSome = false ∧ r.base ≠ Reg.ANG_TICK_STATUS ∧
    (r.mask .rw).getLsbD 31 = true ∧ (r.mask .w1c).getLsbD 31 = false := by decide +kernel

/-- A write that clears EN stops the carrier (R464). -/
theorem Stake.wModCtrl_stops {k : Stake} {w : Reg32} (h31 : w.getLsbD 31 = false) (h0 : w.getLsbD 0 = false) (he : k.flag Reg.MOD_CTRL_EN = true) :
    ∃ q, q.flag Reg.MOD_CTRL_EN = false ∧ k.wModCtrl w = Stake.stopCarrier q := by
  obtain ⟨r, hr, hc, hb, hm, h1⟩ := modCtrl_row
  have hf : (k.store Reg.MOD_CTRL w).flag Reg.MOD_CTRL_EN = false :=
    (Stake.flag_store (f := Reg.MOD_CTRL_EN) hr hc hb hm h1 rfl (by decide) w).trans h31
  refine ⟨_, hf, ?_⟩
  unfold Stake.wModCtrl
  simp only [he, hf, h0, Bool.not_false, Bool.and_self, if_true, Bool.false_eq_true, if_false]

theorem exec_transferBoundary (s : State) (n : Nat) : exec (.transferBoundary n) s =
    .next (if ((s.onStake n fun k => k.boundary (s.stake (partnerOf n)).unitActs).stake 0).bounds = (s.stake 0).bounds
      then s.onStake n fun k => k.boundary (s.stake (partnerOf n)).unitActs
      else (s.onStake n fun k => k.boundary (s.stake (partnerOf n)).unitActs).onPkg fun p => { p with host := { p.host with tuneUsed := 0 } }) := rfl

/-- Settles O38: a boundary ends in `nextPeriod`, which is the one place a period begins. -/
theorem boundariesAndCarrier : Obligations.BoundariesAndCarrier := by
  unfold Obligations.BoundariesAndCarrier
  refine ⟨fun s n hp hr hb => ?_, fun s n h => ?_, fun k b x l hw ht => ⟨Stake.dueSet_due hw ht, ?_⟩, fun s n c hp hs hr he => ?_,
    fun s n src w ha h31 h0 he => ?_, fun s n hp he ht => ?_⟩
  · have hb' := Stake.boundary_begins (u := (s.stake (partnerOf n)).unitActs) hr hb
    rw [exec_transferBoundary]
    generalize hj : s.onStake n (fun k => k.boundary (s.stake (partnerOf n)).unitActs) = t
    have hs : t.stake n = (s.stake n).boundary (s.stake (partnerOf n)).unitActs := by rw [← hj, State.onStake_stake_same hp]
    have hm : ∀ m, m ≠ n → t.stake m = s.stake m := fun m h => by rw [← hj, s.onStake_stake_ne h]
    have hg : t.pkg.regs = s.pkg.regs := by rw [← hj, State.onStake_pkg]
    split
    · exact ⟨_, rfl, hm, hg, by rw [hs]; exact hb'.1, by rw [hs]; exact hb'.2⟩
    · exact ⟨_, rfl, hm, hg, by rw [State.onPkg_stake, hs]; exact hb'.1, by rw [State.onPkg_stake, hs]; exact hb'.2⟩
  · rw [exec_transferBoundary, State.onStake_self (Stake.boundary_of_none h), if_pos rfl]
  · rintro h0 hg rfl
    exact Stake.dueSet_late hw ht h0 hg
  · refine ⟨_, rfl, s.onStake_elsewhere n _, ?_⟩
    rw [State.onStake_stake_same hp]
    obtain ⟨h1, h2⟩ := Stake.startCarrier_starts hs hr he
    refine ⟨?_, ?_, ?_, ?_, h2⟩
    · exact congrArg ModState.run h1
    · exact congrArg ModState.nextValley h1
    · exact congrArg ModState.nextB h1
    · exact congrArg (fun m => m.set.period) h1
  · obtain ⟨q, hq, hx⟩ := Stake.wModCtrl_stops h31 h0 he
    obtain ⟨t, ht, hel, hj⟩ := exec_stakeWrite ha (fun k => if w.getLsbD 31 then k else k.wModCtrl w)
    refine ⟨t, ht, hel, ?_⟩
    rw [hj]
    rw [if_neg (by rw [h31]; decide), hx]
    obtain ⟨h1, h2, h3, h4, h5⟩ := q.stopCarrier_stops
    exact ⟨h1, h2, h3, h4.trans hq, h5⟩
  · obtain ⟨h1, h2, h3⟩ := (s.stake n).setEpoch_lost
    refine ⟨_, rfl, s.onStake_elsewhere n _, ?_⟩
    rw [State.onStake_stake_same hp]
    rw [if_pos (by simp [he, ht])]
    exact ⟨h1, rfl, h2, h3⟩

end Sys2Proof.Machine

/-! The register-path set (R174, R175, R212). -/
namespace Sys2Proof.Machine
set_option Elab.async false

/-- 48-bit slots written in order. -/
def Stake.put48s (k : Stake) (l : List (Nat × Word48)) : Stake := l.foldl (fun q x => q.put48 x.1 x.2) k

theorem Stake.put48s_only (k : Stake) (l : List (Nat × Word48)) : Stake.Only [.regs] k (k.put48s l) := .foldl (fun _ _ h => .put48 h) _ .refl

theorem Stake.get48_put48_ne (k : Stake) {o p : Nat} (v : Word48) (h : p ≠ o ∧ p ≠ o + 4 ∧ p + 4 ≠ o) : (k.put48 o v).get48 p = k.get48 p := by
  obtain ⟨h1, h2, h3⟩ := h
  have hk : k.regsKept (k.put48 o v) [o, o + 4] := .put48 .refl (by simp) (by simp)
  exact hk.get48 (by simp [h1, h2]) (by simp [h3]; omega)

/-- Slots that do not overlap. -/
def slotsApart (l : List Nat) : Prop := l.Pairwise fun a b => a ≠ b ∧ a ≠ b + 4 ∧ a + 4 ≠ b

theorem Stake.get48_put48s_ne {k : Stake} {o : Nat} {l : List (Nat × Word48)} (h : ∀ x ∈ l, o ≠ x.1 ∧ o ≠ x.1 + 4 ∧ o + 4 ≠ x.1) :
    (k.put48s l).get48 o = k.get48 o := by
  induction l generalizing k with
  | nil => rfl
  | cons x l ih =>
    refine (ih fun y hy => h y (.tail _ hy)).trans (k.get48_put48_ne x.2 (h x (.head _)))

/-- Each of the slots written holds what was written into it. -/
theorem Stake.get48_put48s {k : Stake} {x : Nat × Word48} {l : List (Nat × Word48)} (hx : x ∈ l) (hl : slotsApart (l.map Prod.fst)) :
    (k.put48s l).get48 x.1 = x.2 := by
  induction l generalizing k with
  | nil => simp at hx
  | cons y l ih =>
    obtain ⟨hy, hl'⟩ := List.pairwise_cons.1 hl
    rcases List.mem_cons.1 hx with rfl | hm
    · exact (Stake.get48_put48s_ne fun z hz => hy _ (List.mem_map_of_mem hz)).trans (k.get48_put48_same ..)
    · exact ih hm hl'

/-- The slots of the bank as it opens: the set in force (R175). -/
def Stake.setSlots (k : Stake) : List (Nat × Word48) :=
  let f := k.modu.set
  let d := fun (i : Nat) => BitVec.ofNat 48 (nth 0 f.duty i)
  [(Reg.MOD_SH_PERIOD, BitVec.ofNat 48 f.period), (Reg.MOD_SH_VA, w48 f.va), (Reg.MOD_SH_VB, w48 f.vb), (Reg.MOD_SH_UDC, w48 f.udc),
    (Reg.MOD_SH_DUTY_U, d 0), (Reg.MOD_SH_DUTY_V, d 1), (Reg.MOD_SH_DUTY_W, d 2), (Reg.MOD_SH_DUTY_FMT, BitVec.ofNat 48 f.dutyFmt),
    (Reg.MOD_SH_ID, w48 f.id), (Reg.MOD_SH_IQ, w48 f.iq), (Reg.MOD_SH_THETA, f.theta), (Reg.MOD_SH_AUX_DUTY, BitVec.ofNat 48 f.auxDuty),
    (Reg.MOD_SH_AUX_TON, BitVec.ofNat 48 f.ton), (Reg.MOD_SH_AUX_TOFF, BitVec.ofNat 48 f.toff), (Reg.MOD_SH_SLOT, BitVec.ofNat 48 f.slot)]

theorem Stake.setSlots_apart (k : Stake) : slotsApart (k.setSlots.map Prod.fst) := by
  have h : k.setSlots.map Prod.fst = [Reg.MOD_SH_PERIOD, Reg.MOD_SH_VA, Reg.MOD_SH_VB, Reg.MOD_SH_UDC, Reg.MOD_SH_DUTY_U, Reg.MOD_SH_DUTY_V,
    Reg.MOD_SH_DUTY_W, Reg.MOD_SH_DUTY_FMT, Reg.MOD_SH_ID, Reg.MOD_SH_IQ, Reg.MOD_SH_THETA, Reg.MOD_SH_AUX_DUTY, Reg.MOD_SH_AUX_TON,
    Reg.MOD_SH_AUX_TOFF, Reg.MOD_SH_SLOT] := rfl
  rw [h]
  unfold slotsApart
  decide

theorem Stake.setOpen_opens {k : Stake} (h : k.pairedFollower = false) :
    Stake.Only [.regs] k k.setOpen ∧ k.setOpen.flag Reg.MOD_SET_CTRL_IS_OPEN = true ∧ k.setOpen.fld Reg.MOD_SET_CTRL_WRITTEN = 0 ∧
    ∀ x ∈ k.setSlots, (k.put48s k.setSlots).regsKept k.setOpen [Reg.MOD_SET_CTRL] ∧ (k.put48s k.setSlots).get48 x.1 = x.2 := by
  have e : k.setOpen = ((k.put48s k.setSlots).put Reg.MOD_SET_CTRL_WRITTEN 0).putB Reg.MOD_SET_CTRL_IS_OPEN true := if_neg (by simp [h])
  have ho := k.put48s_only k.setSlots
  have hg : ∀ x ∈ k.setSlots, (k.put48s k.setSlots).get48 x.1 = x.2 := fun x hx => Stake.get48_put48s hx k.setSlots_apart
  rw [e]
  generalize k.put48s k.setSlots = q at ho hg
  refine ⟨.putB (.put ho), Stake.flag_putB_same _ _ _ (by decide) rfl, ?_, fun x hx => ⟨.putB (.put .refl (by decide)) (by decide), hg x hx⟩⟩
  rw [Stake.fld_putB_ne _ _ _ _ (by decide)]
  exact Stake.fld_put_same _ _ _ (by decide)

/-- R175: the bank opens with a copy of the set in force; a paired follower's cannot be opened (R212). -/
theorem Stake.setOpen_of (k : Stake) : Stake.Only [.regs] k k.setOpen ∧
    if k.pairedFollower then k.setOpen.flag Reg.MOD_STATUS_SET_ERR = true ∧ k.regsKept k.setOpen [Reg.MOD_STATUS]
    else k.setOpen.flag Reg.MOD_SET_CTRL_IS_OPEN = true ∧ k.setOpen.fld Reg.MOD_SET_CTRL_WRITTEN = 0 ∧
      k.setOpen.get48 Reg.MOD_SH_PERIOD = BitVec.ofNat 48 k.modu.set.period ∧
      k.setOpen.get48 Reg.MOD_SH_VA = w48 k.modu.set.va ∧ k.setOpen.get48 Reg.MOD_SH_THETA = k.modu.set.theta := by
  by_cases h : k.pairedFollower = true
  · have e : k.setOpen = k.putB Reg.MOD_STATUS_SET_ERR true := if_pos h
    rw [if_pos h, e]
    exact ⟨.putB .refl, Stake.flag_putB_same _ _ _ (by decide) rfl, .putB .refl (by decide)⟩
  · obtain ⟨h1, h2, h3, h4⟩ := Stake.setOpen_opens (Bool.eq_false_of_not_eq_true h)
    have hp := h4 (Reg.MOD_SH_PERIOD, BitVec.ofNat 48 k.modu.set.period) (by simp [Stake.setSlots])
    have hv := h4 (Reg.MOD_SH_VA, w48 k.modu.set.va) (by simp [Stake.setSlots])
    have ht := h4 (Reg.MOD_SH_THETA, k.modu.set.theta) (by simp [Stake.setSlots])
    rw [if_neg h]
    exact ⟨h1, h2, h3, (hp.1.get48 (by decide) (by decide)).trans hp.2, (hv.1.get48 (by decide) (by decide)).trans hv.2,
      (ht.1.get48 (by decide) (by decide)).trans ht.2⟩

/-! The end of the bank. -/

theorem Stake.setAbort_of (k : Stake) : Stake.Only [.regs] k k.setAbort ∧ k.regsKept k.setAbort [Reg.MOD_SET_CTRL] ∧
    k.setAbort.flag Reg.MOD_SET_CTRL_IS_OPEN = false ∧ k.setAbort.fld Reg.MOD_SET_CTRL_WRITTEN = 0 := by
  refine ⟨.putB (.put .refl), .putB (.put .refl (by decide)) (by decide), Stake.flag_putB_same _ _ _ (by decide) rfl, ?_⟩
  rw [Stake.setAbort, Stake.fld_putB_ne _ _ _ _ (by decide)]
  exact Stake.fld_put_same _ _ _ (by decide)

/-- R176: a set that is closed: refused with its range, or waiting from its close tick on. -/
theorem Stake.closeSet_cases (k : Stake) (b : USet) (a : Word48) : k.regsKept (k.closeSet b a) [Reg.MOD_LATE_SETS] ∧
    if b.mask.testBit 0 && !k.periodOk b.period then
      (k.closeSet b a).modu = k.modu ∧ k.posted (k.closeSet b a) .hifRange 0 [Reg.MOD_SH_PERIOD, b.period]
    else if b.mask.testBit 3 && b.dutyFmt = 0 && b.duty.any (fun d => 65536 < d) then (k.closeSet b a).modu = k.modu
    else ∃ late, (k.closeSet b a).modu.waiting = k.modu.waiting ++ [({ b with closeAt := a }, late)] := by
  unfold Stake.closeSet
  extract_lets -underBinder +onlyGivenNames b'
  have hb : b'.mask = b.mask ∧ b'.period = b.period ∧ b'.dutyFmt = b.dutyFmt ∧ b'.duty = b.duty := ⟨rfl, rfl, rfl, rfl⟩
  rw [hb.1, hb.2.1, hb.2.2.1, hb.2.2.2]
  split
  · exact ⟨.post_zero .refl, (Stake.Only.post_only _ _ _ _).modu, k.post_posted _ _ _⟩
  split
  · exact ⟨.post_zero .refl, (Stake.Only.post_only _ _ _ _).modu⟩
  extract_lets late k1 k2 t0 first
  have h1 : k1.modu.waiting = k.modu.waiting ++ [(b', late)] := rfl
  have h2 : k2.modu.waiting = k1.modu.waiting := congrArg ModState.waiting (k1.bump_modu _ _)
  have r2 : k.regsKept k2 [Reg.MOD_LATE_SETS] := .bump (.onMod .refl) (by decide)
  clear_value k2
  split
  · exact ⟨.onMod r2, late, h2.trans h1⟩
  · exact ⟨r2, late, h2.trans h1⟩

theorem Stake.periodOk_congr {k j : Stake} (h : Stake.Only [.regs] k j) (c : Nat) : j.periodOk c = k.periodOk c := by
  rw [Stake.periodOk, Stake.periodOk, Stake.periodField, Stake.periodField, h.inForceB, h.inForceB]

/-- R174, R175: the bank is handed over whole with its close tick. -/
theorem Stake.setClose_of {k : Stake} (h : k.flag Reg.MOD_SET_CTRL_IS_OPEN = true) :
    k.setClose.flag Reg.MOD_SET_CTRL_IS_OPEN = false ∧ k.setClose.fld Reg.MOD_SET_CTRL_WRITTEN = 0 ∧
    if k.bankSet.mask.testBit 1 && k.bankSet.mask.testBit 3 then k.setClose.flag Reg.MOD_STATUS_SET_ERR = true ∧ k.setClose.modu = k.modu
    else if k.bankSet.mask.testBit 0 && !k.periodOk k.bankSet.period then
      k.setClose.modu = k.modu ∧ k.posted k.setClose .hifRange 0 [Reg.MOD_SH_PERIOD, k.bankSet.period]
    else if k.bankSet.mask.testBit 3 && k.bankSet.dutyFmt = 0 && k.bankSet.duty.any (fun d => 65536 < d) then k.setClose.modu = k.modu
    else ∃ late, k.setClose.modu.waiting = k.modu.waiting ++ [({ k.bankSet with closeAt := k.ang.tick }, late)] := by
  have e : k.setClose = if k.bankSet.mask.testBit 1 && k.bankSet.mask.testBit 3 then k.setAbort.putB Reg.MOD_STATUS_SET_ERR true
      else k.setAbort.closeSet k.bankSet k.setAbort.ang.tick := if_neg (by simp [h])
  obtain ⟨ho, -, hi, hw⟩ := k.setAbort_of
  rw [e]
  generalize k.bankSet = b
  generalize k.setAbort = q at ho hi hw
  by_cases hm : (b.mask.testBit 1 && b.mask.testBit 3) = true
  · rw [if_pos hm, if_pos hm]
    have hk : q.regsKept (q.putB Reg.MOD_STATUS_SET_ERR true) [Reg.MOD_STATUS] := .putB .refl (by decide)
    exact ⟨(hk.flag (by decide)).trans hi, (hk.fld (by decide)).trans hw, Stake.flag_putB_same _ _ _ (by decide) rfl, ho.modu⟩
  · rw [if_neg hm, if_neg hm]
    obtain ⟨hk, hc⟩ := q.closeSet_cases b q.ang.tick
    refine ⟨(hk.flag (by decide)).trans hi, (hk.fld (by decide)).trans hw, ?_⟩
    rw [Stake.periodOk_congr ho, ho.modu] at hc
    rw [ho.ang] at hc ⊢
    generalize q.closeSet b k.ang.tick = j at hc
    by_cases hp : (b.mask.testBit 0 && !k.periodOk b.period) = true
    · rw [if_pos hp] at hc ⊢
      exact ⟨hc.1, hc.2.after (Stake.outKept.refl.of_eq ho.out) ho.id (by rw [ho.ang])⟩
    · rw [if_neg hp] at hc ⊢
      exact hc

/-! APPLY (R207). -/

/-- The registers of modulation that APPLY puts in force. -/
def modApplied (off : Nat) : Prop := (0x50010 ≤ off ∧ off < 0x5001C) ∨ (0x500C0 ≤ off ∧ off < 0x500E4) ∨ (0x50100 ≤ off ∧ off < 0x50188)

theorem Stake.Only.rdAct {l : List StakePart} {k j : Stake} (h : Stake.Only l k j) (o : Nat)
    (hl : StakePart.act ∉ l ∧ StakePart.id ∉ l := by decide) : j.rdAct o = k.rdAct o := by
  rw [Stake.rdAct, Stake.rdAct, h.act hl.1, h.id hl.2]

/-- What follows from the settings in force: the epoch lock, and the AUX switch. -/
def Stake.modFollow (k : Stake) (was : Bool) (aux : Nat × Bool) : Stake :=
  if aux ≠ ((k.epochEnable was).inForce (Reg.MOD_PORT_CFG_AUX_MODE 3), (k.epochEnable was).inForceB (Reg.MOD_PORT_CFG_AUX_SW 3)) &&
      !((k.epochEnable was).mport 3).seized then
    (((k.epochEnable was).portQuiet 3).onMod fun m => { m with auxEnd := none, auxOffAt := some (k.epochEnable was).ang.tick }).auxRequest
  else k.epochEnable was

theorem Stake.modFollow_only (k : Stake) (was : Bool) (aux : Nat × Bool) : Stake.Only [.regs, .out, .prt, .modu] k (k.modFollow was aux) := by
  have h1 : Stake.Only [.regs, .out, .prt, .modu] k (k.epochEnable was) := .ite (.onMod (.setEpoch .refl)) (.ite (.onMod (.setEpoch .refl)) .refl)
  unfold Stake.modFollow
  generalize k.epochEnable was = q at h1
  exact .ite (.step (.onMod (.portQuiet h1)) (Stake.auxRequest_eff _).only) h1

/-- The ranges that APPLY copies. -/
def Stake.modPutInForce (k : Stake) : Stake :=
  (([0, 1, 2, 3].foldl (fun q p => q.applyRange (0x50040 + 32 * p) (0x5004C + 32 * p)) (k.applyRange 0x50010 0x5001C)).applyRange
    0x500C0 0x500E4).applyRange 0x50100 0x50188

theorem Stake.applyRanges_keep {k j : Stake} (f g : Nat → Nat) (l : List Nat) (h : Stake.Only [.act] k j) :
    Stake.Only [.act] k (l.foldl (fun q p => q.applyRange (f p) (g p)) j) := .foldl (fun _ _ h => .applyRange h) l h

theorem Stake.applyRanges_applied {k j : Stake} {off : Nat} (f g : Nat → Nat) (l : List Nat) (hj : Stake.Only [.act] k j)
    (h : k.applied j off) : k.applied (l.foldl (fun q p => q.applyRange (f p) (g p)) j) off := by
  induction l generalizing j with
  | nil => exact h
  | cons p l ih => exact ih (.applyRange hj) (.applyRange (fun o => hj.rd o) (.inr h))

theorem Stake.modPutInForce_only (k : Stake) : Stake.Only [.act] k k.modPutInForce :=
  .applyRange (.applyRange (.foldl (fun _ _ h => .applyRange h) _ (.applyRange .refl)))

theorem Stake.modPutInForce_applied (k : Stake) {off : Nat} (h : modApplied off) : k.applied k.modPutInForce off := by
  unfold Stake.modPutInForce
  have h1 : Stake.Only [.act] k (k.applyRange 0x50010 0x5001C) := .applyRange .refl
  have h2 := Stake.applyRanges_keep (fun p => 0x50040 + 32 * p) (fun p => 0x5004C + 32 * p) [0, 1, 2, 3] h1
  refine .applyRange (fun o => (Stake.Only.applyRange h2).rd o) ?_
  rcases h with h | h | h
  · exact .inr (.applyRange (fun o => h2.rd o) (.inr (Stake.applyRanges_applied _ _ _ h1 (.applyRange (fun _ => rfl) (.inl h)))))
  · exact .inr (.applyRange (fun o => h2.rd o) (.inl h))
  · exact .inl h

/-- R207: what APPLY puts in force. -/
theorem Stake.modApply_takes {k : Stake} (hk : k.modApplyOk = true) {off : Nat} (h : modApplied off) : k.applied k.modApply off := by
  have e : k.modApply = ((k.wrAct Reg.MOD_CTRL ((k.rdAct Reg.MOD_CTRL &&& ~~~ (0x4FFF0000 : BitVec 32)) |||
      (k.rd Reg.MOD_CTRL &&& 0x4FFF0000))).modPutInForce).modFollow (k.inForceB Reg.MOD_EPOCH_CTRL_EN)
      (k.inForce (Reg.MOD_PORT_CFG_AUX_MODE 3), k.inForceB (Reg.MOD_PORT_CFG_AUX_SW 3)) := if_neg (by simp [hk])
  rw [e]
  have hw : ∀ v o, (k.wrAct Reg.MOD_CTRL v).rd o = k.rd o := fun _ _ => rfl
  have h1 : k.applied (k.wrAct Reg.MOD_CTRL ((k.rdAct Reg.MOD_CTRL &&& ~~~ (0x4FFF0000 : BitVec 32)) |||
      (k.rd Reg.MOD_CTRL &&& 0x4FFF0000))).modPutInForce off := (Stake.modPutInForce_applied _ h).trans (hw _ off)
  generalize (k.wrAct Reg.MOD_CTRL ((k.rdAct Reg.MOD_CTRL &&& ~~~ (0x4FFF0000 : BitVec 32)) |||
      (k.rd Reg.MOD_CTRL &&& 0x4FFF0000))).modPutInForce = q at h1
  exact (Stake.Only.rdAct (q.modFollow_only _ _) off).trans h1

theorem Stake.modApply_refused {k : Stake} (hk : k.modApplyOk = false) :
    k.modApply = (k.putB Reg.MOD_STATUS_CFG_REFUSED true).post .modCfgRefused 0 := if_pos (by simp [hk])

/-- The registers that a stop of the carrier writes. -/
def stopRegs : List Nat := [Reg.MOD_SPACING_CNT, Reg.MOD_NEXT, Reg.MOD_DEPTH]

theorem Stake.stopCarrier_eff (k : Stake) : Stake.Eff [.modu, .regs] stopRegs k k.stopCarrier :=
  .put (.put (.onMod (.foldl (fun _ _ h => .portQuiet h) _ .refl)))

theorem Stake.modApplyOk_congr {k j : Stake} (h : k.regsKept j (Reg.MOD_CTRL :: stopRegs)) : j.modApplyOk = k.modApplyOk := by
  have ha : j.axisIn [axOff, axSafe, axTest] = k.axisIn [axOff, axSafe, axTest] := by
    rw [Stake.axisIn, Stake.axisIn, show j.axis = k.axis from h.fld (by decide)]
  simp only [Stake.modApplyOk, ha, h.fld (f := Reg.MOD_MINPULSE_MIN_PULSE) (by decide), List.all_cons, List.all_nil,
    h.fld (f := Reg.MOD_PORT_DT_DT_FIXED 0) (by decide), h.fld (f := Reg.MOD_PORT_DT_DT_FIXED 1) (by decide),
    h.fld (f := Reg.MOD_PORT_DT_DT_FIXED 2) (by decide), h.fld (f := Reg.MOD_PORT_DT_DT_FIXED 3) (by decide),
    h.fld (f := Reg.MOD_PORT_DT_DT_IL 0) (by decide), h.fld (f := Reg.MOD_PORT_DT_DT_IL 1) (by decide),
    h.fld (f := Reg.MOD_PORT_DT_DT_IL 2) (by decide), h.fld (f := Reg.MOD_PORT_DT_DT_IL 3) (by decide)]

/-- R207: a write of MOD_CTRL with APPLY. -/
theorem Stake.wModCtrl_applies {k : Stake} {w : Reg32} (h0 : w.getLsbD 0 = true) :
    ∃ q, Stake.Only [.modu, .regs] k q ∧ k.regsKept q (Reg.MOD_CTRL :: stopRegs) ∧ k.wModCtrl w = Stake.modApply q := by
  have h1 : Stake.Only [.modu, .regs] k (k.store Reg.MOD_CTRL w) := .store .refl
  have r1 : k.regsKept (k.store Reg.MOD_CTRL w) (Reg.MOD_CTRL :: stopRegs) := .store .refl (by decide)
  have hs := (k.store Reg.MOD_CTRL w).stopCarrier_eff
  exact ⟨_, .ite (.step h1 hs.only) h1, .ite (r1.trans (hs.regs.mono (by decide))) r1, if_pos h0⟩

theorem modApplied_kept {off : Nat} (h : modApplied off) : off ∉ Reg.MOD_CTRL :: stopRegs := by
  intro hm
  simp only [modApplied] at h
  simp only [stopRegs, List.mem_cons, List.not_mem_nil, or_false, Reg.MOD_CTRL, Reg.MOD_SPACING_CNT, Reg.MOD_NEXT, Reg.MOD_DEPTH] at hm
  omega

theorem modApply_of {s : State} {n : Nat} {src : Src} {w : Reg32} (ha : s.admits src n Reg.MOD_CTRL w) (h0 : w.getLsbD 0 = true) :
    ∃ t, exec (.modApply n src w) s = .next t ∧ s.elsewhere t n ∧
      if (s.stake n).modApplyOk then ∀ off, modApplied off → (t.stake n).rdAct off = (s.stake n).rd off
      else (t.stake n).flag Reg.MOD_STATUS_CFG_REFUSED = true ∧ (t.stake n).act = (s.stake n).act ∧
        (s.stake n).posted (t.stake n) .modCfgRefused 0 [] := by
  obtain ⟨t, ht, hel, hj⟩ := exec_stakeWrite ha (fun k => if w.getLsbD 0 then k.wModCtrl w else k)
  obtain ⟨q, hq, hr, he⟩ := (s.stake n).wModCtrl_applies h0
  refine ⟨t, ht, hel, ?_⟩
  rw [hj, if_pos h0, he, ← Stake.modApplyOk_congr hr]
  by_cases hk : q.modApplyOk = true
  · rw [if_pos hk]
    exact fun off h => (Stake.modApply_takes hk h).trans (hr off (modApplied_kept h))
  · rw [if_neg hk, Stake.modApply_refused (Bool.eq_false_of_not_eq_true hk)]
    have hb : (q.putB Reg.MOD_STATUS_CFG_REFUSED true).flag Reg.MOD_STATUS_CFG_REFUSED = true := Stake.flag_putB_same _ _ _ (by decide) rfl
    have hp : Stake.Only [.modu, .regs] (s.stake n) (q.putB Reg.MOD_STATUS_CFG_REFUSED true) := .putB hq
    generalize q.putB Reg.MOD_STATUS_CFG_REFUSED true = j at hb hp
    refine ⟨?_, (Stake.post_act ..).trans hp.act, hp.post_posted ..⟩
    rw [Stake.flag, Stake.fld_post_zero]
    exact hb

/-- Settles O39: each write of MOD_SET_CTRL and MOD_CTRL by the operation it selects. -/
theorem updateSets : Obligations.UpdateSets := by
  unfold Obligations.UpdateSets
  refine ⟨fun s n src w ha h0 h1 h2 => ?_, fun s n src w ha h0 h1 h2 hi => ?_, fun s n src w ha h0 h1 h2 => ?_, fun s n src w ha h0 => ?_⟩
  · intro k
    obtain ⟨t, ht, hel, hj⟩ := exec_stakeWrite ha (fun k => if w.getLsbD 0 then k.wSetCtrl w else k)
    obtain ⟨ho, hs⟩ := k.setOpen_of
    refine ⟨t, ht, hel, ?_⟩
    have e : t.stake n = k.setOpen := by rw [hj, if_pos h0, Stake.wSetCtrl, h0, h1, h2]; rfl
    rw [e]
    exact ⟨ho.eq_copy, hs⟩
  · intro k b
    obtain ⟨t, ht, hel, hj⟩ := exec_stakeWrite ha (fun k => if w.getLsbD 1 then k.wSetCtrl w else k)
    refine ⟨t, ht, hel, ?_⟩
    have e : t.stake n = k.setClose := by rw [hj, if_pos h1, Stake.wSetCtrl, h0, h1, h2]; rfl
    rw [e]
    exact Stake.setClose_of hi
  · obtain ⟨t, ht, hel, hj⟩ := exec_stakeWrite ha (fun k => if w.getLsbD 2 then k.wSetCtrl w else k)
    obtain ⟨ho, hr, hf, hw⟩ := (s.stake n).setAbort_of
    refine ⟨t, ht, hel, ?_⟩
    have e : t.stake n = (s.stake n).setAbort := by rw [hj, if_pos h2, Stake.wSetCtrl, h0, h1, h2]; rfl
    rw [e]
    exact ⟨hf, hw, ho.eq_copy, hr⟩
  · exact modApply_of ha h0

end Sys2Proof.Machine

/-! Edges, calibration, AUX pulses, cuts and triggers (R195, R196, R200 to R205, R233). -/
namespace Sys2Proof.Machine
set_option Elab.async false

section
variable {k j : Stake} {p : Nat}

/-! A port of the modulation unit after a change. -/

theorem Stake.onPort_modu (k : Stake) (p : Nat) (f : ModPort → ModPort) : (k.onPort p f).modu = { k.modu with ports := updAt k.modu.ports p f } := rfl

theorem Stake.mport_congr (h : j.modu = k.modu) (p : Nat) : j.mport p = k.mport p := by rw [Stake.mport, h, Stake.mport]

theorem Stake.mport_onPort (h : p < k.modu.ports.length) (f : ModPort → ModPort) : (k.onPort p f).mport p = f (k.mport p) := by
  rw [Stake.mport, Stake.onPort_modu, nth_updAt_same _ _ _ _ h, Stake.mport]

theorem Stake.mport_onPort_ne {r : Nat} (h : r ≠ p) (f : ModPort → ModPort) : (k.onPort p f).mport r = k.mport r := by
  rw [Stake.mport, Stake.onPort_modu, nth_updAt_ne _ _ _ _ _ h, Stake.mport]

theorem Stake.onPort_length (k : Stake) (p : Nat) (f : ModPort → ModPort) : (k.onPort p f).modu.ports.length = k.modu.ports.length := by
  rw [Stake.onPort_modu]
  exact updAt_length _ _ _

/-- What a change of a port leaves of every port. -/
theorem Stake.mport_onPort_keep {α : Type} {g : ModPort → α} {f : ModPort → ModPort} (hf : ∀ q, g (f q) = g q) (r : Nat) :
    g ((k.onPort p f).mport r) = g (k.mport r) := by
  by_cases h : r = p
  · subst h
    by_cases hl : r < k.modu.ports.length
    · rw [Stake.mport_onPort hl, hf]
    · have hn : ∀ l : List ModPort, ¬r < l.length → nth {} l r = ({} : ModPort) := fun l h => by
        rw [nth, List.getD_eq_default _ _ (Nat.le_of_not_lt h)]
      rw [Stake.mport, Stake.mport, hn _ (by rwa [Stake.onPort_length]), hn _ hl]
  · rw [Stake.mport_onPort_ne h]

/-! What scheduling leaves: the set in force and every port's cut. -/

/-- The set in force, the number of ports and, but for the ports that `P` names, their cuts are as before. -/
structure Stake.cutsKept (P : Nat → Prop) (k j : Stake) : Prop where
  set : j.modu.set = k.modu.set
  length : j.modu.ports.length = k.modu.ports.length
  cut : ∀ p, ¬P p → (j.mport p).cut = (k.mport p).cut

namespace Stake.cutsKept
variable {P : Nat → Prop} {i : Stake}

theorem refl : Stake.cutsKept P k k := ⟨rfl, rfl, fun _ _ => rfl⟩
theorem trans (h : Stake.cutsKept P k j) (h' : Stake.cutsKept P j i) : Stake.cutsKept P k i :=
  ⟨h'.set.trans h.set, h'.length.trans h.length, fun p hp => (h'.cut p hp).trans (h.cut p hp)⟩
theorem of_modu (h : Stake.cutsKept P k j) (hm : i.modu = j.modu) : Stake.cutsKept P k i :=
  ⟨by rw [hm, h.set], by rw [hm, h.length], fun p hp => by rw [Stake.mport_congr hm, h.cut p hp]⟩
theorem ite {c : Prop} [Decidable c] (h : Stake.cutsKept P k j) (h' : Stake.cutsKept P k i) : Stake.cutsKept P k (if c then j else i) := by
  split <;> assumption
theorem onPort {r : Nat} {f : ModPort → ModPort} (h : Stake.cutsKept P k j) (hf : P r ∨ ∀ q, (f q).cut = q.cut) :
    Stake.cutsKept P k (j.onPort r f) := by
  refine h.trans ⟨rfl, j.onPort_length r f, fun p hp => ?_⟩
  rcases hf with hr | hf
  · rw [Stake.mport_onPort_ne (fun e : p = r => hp (e.symm ▸ hr))]
  · exact Stake.mport_onPort_keep (g := ModPort.cut) hf p
theorem onMod {f : ModState → ModState} (h : Stake.cutsKept P k j) (hs : (f j.modu).set = j.modu.set) (hp : (f j.modu).ports = j.modu.ports) :
    Stake.cutsKept P k (j.onMod f) :=
  h.trans ⟨hs, congrArg List.length hp, fun p _ => congrArg (fun l => (nth {} l p).cut) hp⟩
theorem foldl {α : Type} {f : Stake → α → Stake} (hf : ∀ j a, Stake.cutsKept P k j → Stake.cutsKept P k (f j a)) (l : List α)
    (h : Stake.cutsKept P k j) : Stake.cutsKept P k (l.foldl f j) := by
  induction l generalizing j with
  | nil => exact h
  | cons a l ih => exact ih (hf j a h)
theorem putB {g : Fld} {b : Bool} (h : Stake.cutsKept P k j) : Stake.cutsKept P k (j.putB g b) := h.of_modu rfl
theorem bump {o n : Nat} (h : Stake.cutsKept P k j) : Stake.cutsKept P k (j.bump o n) := h.of_modu (j.bump_modu o n)
theorem hand {r : Nat} {y : Symb} {x : Instant} {b : Bool} (h : Stake.cutsKept P k j) : Stake.cutsKept P k (j.hand r y x b) :=
  .ite h (.bump (.onPort h (.inr fun _ => rfl)))

theorem lost_cut (q : ModPort) (y : Symb) : (q.lost y).cut = q.cut := by cases y <;> rfl
theorem discard_cut (q : ModPort) : q.discard.cut = q.cut := by
  refine foldl_frame (g := ModPort.cut) (f := fun r (x : Record) => r.lost x.sym) (fun b a => ?_) q.recs q
  exact lost_cut b a.sym

theorem intoWindow {r : Nat} {y : Symb} {x : Instant} {b : Bool} (h : Stake.cutsKept P k j) : Stake.cutsKept P k (j.intoWindow r y x b) :=
  .ite (.hand (.onPort h (.inr fun _ => rfl))) (.onPort h (.inr fun _ => rfl))

theorem schedule {r : Nat} {y : Symb} {x : Instant} (h : Stake.cutsKept P k j) : Stake.cutsKept P k (j.schedule r y x) := by
  have hd : Stake.cutsKept P k (j.onPort r fun q => q.lost y) := .onPort h (.inr fun q => lost_cut q y)
  unfold Stake.schedule
  refine .ite hd ?_
  split
  · exact .intoWindow h
  split
  · exact .ite (.hand (.onPort h (.inr fun _ => rfl))) (.onPort h (.inr fun q => lost_cut q _))
  · exact .ite (.hand (.onPort h (.inr fun _ => rfl))) (.onPort h (.inr fun q => lost_cut q _))
  · exact .ite (.onPort h (.inr fun _ => rfl)) (.hand h)
  · exact .ite (.onPort h (.inr fun _ => rfl)) (.hand h)
  · exact .hand h

theorem portOff {r : Nat} {b : Bool} (h : Stake.cutsKept P k j) : Stake.cutsKept P k (j.portOff r b) := by
  have hd : Stake.cutsKept P k (j.onPort r ModPort.discard) := .onPort h (.inr discard_cut)
  exact .ite (.ite (.hand hd) hd) (.ite (.hand (.ite (.hand hd) hd)) (.ite (.hand hd) hd))

theorem auxRequest (h : Stake.cutsKept P k j) : Stake.cutsKept P k j.auxRequest := by
  have hr : Stake.cutsKept P k (j.onMod fun m => { m with auxReq := (j.prt.chopReq || j.prt.disAux) && !j.hasFault .chopperFault }) :=
    .onMod h rfl rfl
  exact .ite (.ite (.schedule hr) (.ite (.schedule hr) hr)) (.ite (.onMod (.portOff hr) rfl rfl) hr)

end Stake.cutsKept

/-! The end of a cut (R204). -/

theorem Stake.bootAfterCut_kept (k : Stake) (p : Nat) (a e : Instant) : Stake.cutsKept (fun _ => False) k (k.bootAfterCut p a e) := by
  unfold Stake.bootAfterCut
  split
  · exact .refl
  extract_lets m on off k1 back k2 ret k3
  have h1 : Stake.cutsKept (fun _ => False) k k1 := .of_modu .refl rfl
  have h2 : Stake.cutsKept (fun _ => False) k k2 := by
    have hc : Stake.Only [.regs, .out, .prt] ((k1.hand p .lsOn on true).hand p .lsOff off true) k2 := .ite (.post (.bump .refl)) (.bump .refl)
    exact .of_modu (.hand (.hand h1)) hc.modu
  have h3 : Stake.cutsKept (fun _ => False) k k3 := .foldl (fun _ _ h => .hand h) _ h2
  clear_value k3
  exact .putB (.onPort h3 (.inr fun _ => rfl))

theorem Stake.endCut_kept (k : Stake) (p : Nat) (e : Word48) : Stake.cutsKept (· = p) k (k.endCut p e) := by
  unfold Stake.endCut
  split
  · exact .refl
  · exact .of_modu (.onPort .refl (.inl rfl)) rfl

theorem Stake.cutsKept.weaken {P : Nat → Prop} (h : Stake.cutsKept (fun _ => False) k j) : Stake.cutsKept P k j :=
  ⟨h.set, h.length, fun r _ => h.cut r (fun h => h)⟩

/-- What follows the end of a cut (R204, R266). -/
def Stake.afterCut (k : Stake) (p : Nat) (c : Cut) (e : Word48) : Stake :=
  if p = 3 && (k.bootAfterCut p c.at_ ⟨e, 0⟩).inForce (Reg.MOD_PORT_CFG_AUX_MODE 3) = 3 then (k.bootAfterCut p c.at_ ⟨e, 0⟩).auxRequest
  else k.bootAfterCut p c.at_ ⟨e, 0⟩

theorem Stake.afterCut_kept (k : Stake) (p : Nat) (c : Cut) (e : Word48) : Stake.cutsKept (fun _ => False) k (k.afterCut p c e) :=
  .ite (.auxRequest (k.bootAfterCut_kept ..)) (k.bootAfterCut_kept ..)

theorem Stake.finishCut_some {c : Cut} (hc : (k.mport p).cut = some c) (e : Word48) : k.finishCut p e = (k.endCut p e).afterCut p c e := by
  unfold Stake.finishCut
  rw [hc]
  rfl

/-- R204: the end of a port's cut leaves every other port's as it was. -/
theorem Stake.finishCut_kept (k : Stake) (p : Nat) (e : Word48) : Stake.cutsKept (· = p) k (k.finishCut p e) := by
  cases hc : (k.mport p).cut with
  | none =>
    unfold Stake.finishCut
    rw [hc]
    exact .refl
  | some c =>
    rw [Stake.finishCut_some hc]
    exact (k.endCut_kept p e).trans (Stake.afterCut_kept ..).weaken

/-- R204: a cut that ends. -/
theorem Stake.finishCut_none {c : Cut} (hc : (k.mport p).cut = some c) (hp : p < k.modu.ports.length) (e : Word48) :
    ((k.finishCut p e).mport p).cut = none := by
  have hn : ((k.endCut p e).mport p).cut = none := by
    unfold Stake.endCut
    rw [hc]
    exact congrArg ModPort.cut (Stake.mport_onPort hp _)
  rw [Stake.finishCut_some hc]
  exact ((Stake.afterCut_kept ..).cut p (fun h => h)).trans hn

end

end Sys2Proof.Machine

/-! The commands of edges and cuts. -/
namespace Sys2Proof.Machine
set_option Elab.async false

section
variable {k : Stake} {p : Nat}

/-! A symbol that leaves (R195, R233). -/

/-- The high switch's command after a symbol, and the low switch's. -/
def Symb.hsAfter (y : Symb) (b : Bool) : Bool := match y with | .hsOn => true | .hsOff => false | .softOff => false | _ => b
def Symb.lsAfter (y : Symb) (b : Bool) : Bool := match y with | .lsOn => true | .lsOff => false | .softOff => false | _ => b

theorem Stake.edgeOut_of (hp : p < k.modu.ports.length) (hl : p < k.leg.ports.length) (y : Symb) (x : Instant) :
    (k.edgeOut p y x).mport p =
      { k.mport p with hs := y.hsAfter (k.mport p).hs, ls := y.lsAfter (k.mport p).ls, lastSym := some x } ∧
    ((k.edgeOut p y x).lport p).pulse = some (some y, x, cellOf x.fine (nth 0 k.modu.ncMap p)) ∧
    ((k.edgeOut p y x).lport p).lastSymAt = k.now ∧ k.regsKept (k.edgeOut p y x) [Reg.LEG_PORT_STATUS p] := by
  unfold Stake.edgeOut
  extract_lets -underBinder +onlyGivenNames q hs ls l fill t32 refreshed k1 k2 k3 ready long k4
  have e1 : k1.mport p = { q with hs := hs, ls := ls, lastSym := some x } := Stake.mport_onPort hp _
  have hhs : hs = y.hsAfter q.hs := by cases y <;> rfl
  have hls : ls = y.lsAfter q.ls := by cases y <;> rfl
  have o1 : Stake.Only [.modu] k k1 := .onPort .refl
  have n1 : k1.modu.ncMap = k.modu.ncMap := rfl
  have r1 : k.regsKept k1 [Reg.LEG_PORT_STATUS p] := .onPort .refl
  clear_value k1
  have o3 : Stake.Only [.regs] k1 k3 := .ite (.putB (.putB (.putB .refl))) (.putB (.putB .refl))
  have r3 : k.regsKept k3 [Reg.LEG_PORT_STATUS p] :=
    .ite (.putB (.putB (.putB r1 List.mem_cons_self) List.mem_cons_self) List.mem_cons_self)
      (.putB (.putB r1 List.mem_cons_self) List.mem_cons_self)
  have l3 : k3.leg = k.leg := (o3.leg).trans o1.leg
  have w3 : k3.now = k.now := (o3.now).trans o1.now
  have m3 : k3.modu = k1.modu := o3.modu
  clear_value k3
  have hlp : p < k3.leg.ports.length := by rw [l3]; exact hl
  have e4 := fun f => Stake.lport_onLeg hlp f
  refine ⟨?_, ?_, ?_, .onSns (.onLeg r3)⟩
  · rw [← hhs, ← hls]
    exact (Stake.mport_congr m3 p).trans e1
  · rw [← n1, ← m3]
    exact congrArg LegPort.pulse (e4 _)
  · rw [← w3]
    exact congrArg LegPort.lastSymAt (e4 _)

/-- R195: the port's next record goes, and its symbol with it where the link is up. -/
theorem Stake.sendSymbol_of {r : Record} {rest : List Record} (hs : (k.mport p).seized = false) (hr : (k.mport p).recs = r :: rest)
    (ht : reached k.ang.tick r.at_.tick = true) :
    (k.link p = 0 → k.sendSymbol p = k.onPort p fun q => { q with recs := rest }) ∧
    (k.link p ≠ 0 → k.needsPrecharge p r.sym = false → k.sendSymbol p = (k.onPort p fun q => { q with recs := rest }).edgeOut p r.sym r.at_) := by
  have e : k.sendSymbol p = if k.link p = 0 then k.onPort p fun q => { q with recs := rest }
      else match ((if k.needsPrecharge p r.sym then k.prechargeNow p else k).mport p).recs with
        | [] => if k.needsPrecharge p r.sym then k.prechargeNow p else k
        | r' :: t => ((if k.needsPrecharge p r.sym then k.prechargeNow p else k).onPort p fun q => { q with recs := t }).edgeOut p r'.sym r'.at_ := by
    unfold Stake.sendSymbol
    rw [if_neg (by rw [hs]; decide), hr]
    exact if_neg (by rw [ht]; decide)
  refine ⟨fun h => e.trans (if_pos h), fun h hn => e.trans ((if_neg h).trans ?_)⟩
  rw [hn, if_neg Bool.false_ne_true, hr]

theorem edgeSymbolSend_of {s : State} {n p : Nat} {r : Record} {rest : List Record} (hp : s.present n = true)
    (hm : p < (s.stake n).modu.ports.length) (hl : p < (s.stake n).leg.ports.length) (hs : ((s.stake n).mport p).seized = false)
    (hr : ((s.stake n).mport p).recs = r :: rest) (ht : reached (s.stake n).ang.tick r.at_.tick = true) :
    let k := s.stake n
    let q := k.mport p
    ∃ t, exec (.edgeSymbolSend n p) s = .next t ∧ s.elsewhere t n ∧
      (k.link p = 0 → t.stake n = { k with modu := (t.stake n).modu } ∧ (t.stake n).mport p = { q with recs := rest }) ∧
      (k.link p ≠ 0 → k.needsPrecharge p r.sym = false →
        (t.stake n).mport p = { q with recs := rest, lastSym := some r.at_, hs := r.sym.hsAfter q.hs, ls := r.sym.lsAfter q.ls } ∧
        ((t.stake n).lport p).pulse = some (some r.sym, r.at_, cellOf r.at_.fine (nth 0 k.modu.ncMap p)) ∧
        ((t.stake n).lport p).lastSymAt = k.now ∧ k.regsKept (t.stake n) [Reg.LEG_PORT_STATUS p]) := by
  intro k q
  obtain ⟨h0, h1⟩ := Stake.sendSymbol_of hs hr ht
  refine ⟨_, rfl, s.onStake_elsewhere n _, ?_⟩
  rw [State.onStake_stake_same hp]
  have hq : (k.onPort p fun q => { q with recs := rest }).mport p = { q with recs := rest } := Stake.mport_onPort hm _
  refine ⟨fun h => ?_, fun h hn => ?_⟩
  · rw [h0 h]
    exact ⟨rfl, hq⟩
  · rw [h1 h hn]
    have hr' : k.regsKept (k.onPort p fun q => { q with recs := rest }) [Reg.LEG_PORT_STATUS p] := .onPort .refl
    have hlen := (k.onPort_length p fun q => { q with recs := rest })
    have hnc : (k.onPort p fun q => { q with recs := rest }).modu.ncMap = k.modu.ncMap := rfl
    have hw : (k.onPort p fun q => { q with recs := rest }).now = k.now := rfl
    have hlg : (k.onPort p fun q => { q with recs := rest }).leg = k.leg := rfl
    generalize (k.onPort p fun q => { q with recs := rest }) = j at *
    obtain ⟨g1, g2, g3, g4⟩ := Stake.edgeOut_of (k := j) (hlen.symm ▸ hm) (hlg.symm ▸ hl) r.sym r.at_
    rw [hq] at g1
    exact ⟨g1, by rw [g2, hnc], by rw [g3, hw], hr'.trans g4⟩

/-! The delay line (R196). -/

theorem Stake.cellMap_only (k : Stake) : Stake.Only [.modu] k k.cellMap := .foldl (fun _ _ h => .ite h (.onMod h)) _ .refl

theorem Stake.calibrate_of (k : Stake) {nc : Nat} (hn : nc < 128) : (k.calibrate nc).fld Reg.MOD_DL_STATUS_N_C = nc ∧
    (36 ≤ nc → nc ≤ 64 → (k.calibrate nc).flag Reg.MOD_DL_STATUS_FAULT = false ∧ k.regsKept (k.calibrate nc) [Reg.MOD_DL_STATUS]) ∧
    (nc < 36 ∨ 64 < nc → (k.calibrate nc).flag Reg.MOD_DL_STATUS_FAULT = true ∧ k.posted (k.calibrate nc) .modDlFault 1 [nc]) := by
  unfold Stake.calibrate
  extract_lets bad k1 k2
  have h1 : k1.fld Reg.MOD_DL_STATUS_N_C = nc ∧ k1.flag Reg.MOD_DL_STATUS_FAULT = bad := by
    refine ⟨?_, Stake.flag_putB_same _ _ _ (by decide) rfl⟩
    rw [Stake.fld_putB_ne _ _ _ _ (by decide), Stake.fld_put_same _ _ _ (by decide)]
    exact Nat.mod_eq_of_lt hn
  have e1 : Stake.Eff [.regs] [Reg.MOD_DL_STATUS] k k1 := .putB (.put .refl)
  clear_value k1
  have hk : k1.regsKept k2 axisRegs := .ite (.post .refl (List.Subset.refl _)) .refl
  have h3 : Stake.Only [.modu] k2 (if k2.modu.run then k2 else k2.cellMap) := .ite .refl k2.cellMap_only
  have r3 : k2.regsKept (if k2.modu.run then k2 else k2.cellMap) [] := .of_eq .refl h3.regs h3.id
  have hf : (if k2.modu.run then k2 else k2.cellMap).flag Reg.MOD_DL_STATUS_FAULT = bad :=
    (r3.flag (by decide)).trans ((hk.flag (by decide)).trans h1.2)
  refine ⟨(r3.fld (by decide)).trans ((hk.fld (by decide)).trans h1.1), fun ha hb => ?_, fun hb => ?_⟩
  · have hbad : bad = false := by simp only [bad, decide_eq_false (Nat.not_lt.2 ha), decide_eq_false (Nat.not_lt.2 hb), Bool.or_self]
    have e2 : k2 = k1 := if_neg (by rw [hbad]; decide)
    refine ⟨hf.trans hbad, ?_⟩
    rw [e2] at r3 ⊢
    exact e1.regs.trans (r3.mono (by simp))
  · have hbad : bad = true := by simpa only [bad, Bool.or_eq_true, decide_eq_true_eq] using hb
    have e2 : k2 = k1.post .modDlFault 1 [nc] := if_pos hbad
    refine ⟨hf.trans hbad, Stake.posted.of_prefix (j := k2) ?_ (Stake.outKept.refl.of_eq h3.out)⟩
    rw [e2]
    exact e1.post_posted _ _ _

/-! The AUX switch (R201). -/

theorem Stake.auxStart_of (hm : k.inForce (Reg.MOD_PORT_CFG_AUX_MODE 3) = 2) (hq : k.modu.auxReq = true) (he : k.modu.auxEnd = none)
    (ho : k.modu.auxOffAt = none) (ht : (k.mport 3).mayTurnOn k.nowI = true) :
    k.auxStart.modu.auxEnd = some (k.ang.tick + w48 k.modu.set.ton) := by
  obtain ⟨⟨hc, hs⟩, -⟩ : ((k.mport 3).cut.isNone = true ∧ (k.mport 3).seized = false) ∧ _ := by
    simpa only [ModPort.mayTurnOn, Bool.and_eq_true, Bool.not_eq_true'] using ht
  have hcs : (k.mport 3).cut.isSome = false := by rw [Option.isNone_iff_eq_none.1 hc]; rfl
  have hset : (k.schedule 3 (k.auxSym true) k.nowI).modu.set = k.modu.set :=
    (Stake.cutsKept.schedule (P := fun _ => False) .refl).set
  have hang : (k.schedule 3 (k.auxSym true) k.nowI).ang = k.ang := (Stake.schedule_eff ..).only.ang
  have e : k.auxStart.modu =
      (((k.schedule 3 (k.auxSym true) k.nowI).onMod fun m => { m with auxEnd := some ((k.schedule 3 (k.auxSym true) k.nowI).ang.tick + w48 m.set.ton) })).modu := by
    unfold Stake.auxStart
    simp only [hm, hq, he, ho, hs, hcs, ht]
    rw [if_neg (by decide), if_neg (by decide), hang]
    split <;> rfl
  rw [e, ← hset, ← hang]
  rfl

theorem Stake.auxStop_of {x : Word48} (he : k.modu.auxEnd = some x) (ht : reached k.ang.tick x = true) :
    k.auxStop.modu.auxEnd = none ∧ k.auxStop.modu.auxOffAt = some x := by
  have e : k.auxStop = (k.schedule 3 (k.auxSym false) ⟨x, 0⟩).onMod fun m => { m with auxEnd := none, auxOffAt := some x } := by
    unfold Stake.auxStop
    rw [he]
    exact if_neg (by rw [ht]; decide)
  rw [e]
  exact ⟨rfl, rfl⟩

/-! Cuts (R204). -/

/-- One port of a write of MOD_CUT_CLR. -/
def Stake.cutClrPort (w : Reg32) (q : Stake) (p : Nat) : Stake :=
  match (q.mport p).cut with
  | some c => if w.getLsbD p && c.latched then q.finishCut p q.ang.tick else q
  | none => q

theorem Stake.cutClrPort_kept (w : Reg32) (k : Stake) (r : Nat) : Stake.cutsKept (· = r) k (k.cutClrPort w r) := by
  unfold Stake.cutClrPort
  split
  · exact .ite (k.finishCut_kept r _) .refl
  · exact .refl

/-- A port without a cut stays so. -/
theorem Stake.cutClr_none (w : Reg32) (l : List Nat) (h : (k.mport p).cut = none) : ((l.foldl (Stake.cutClrPort w) k).mport p).cut = none := by
  induction l generalizing k with
  | nil => exact h
  | cons r l ih =>
    refine ih ?_
    by_cases hr : p = r
    · subst hr
      unfold Stake.cutClrPort
      rw [h]
      exact h
    · exact ((k.cutClrPort_kept w r).cut p hr).trans h

/-- R204: the latched cut of each port that the write names ends. -/
theorem Stake.cutClr_clears {c : Cut} {w : Reg32} {l : List Nat} (hm : p ∈ l) (hp : p < k.modu.ports.length) (hc : (k.mport p).cut = some c)
    (hl : c.latched = true) (hw : w.getLsbD p = true) : ((l.foldl (Stake.cutClrPort w) k).mport p).cut = none := by
  induction l generalizing k with
  | nil => simp at hm
  | cons r l ih =>
    by_cases hr : p = r
    · subst hr
      refine Stake.cutClr_none w l ?_
      have e : k.cutClrPort w p = k.finishCut p k.ang.tick := by
        unfold Stake.cutClrPort
        rw [hc]
        exact if_pos (by rw [hw, hl]; rfl)
      rw [e]
      exact Stake.finishCut_none hc hp _
    · have hk := k.cutClrPort_kept w r
      exact ih ((List.mem_cons.1 hm).resolve_left hr) (by rw [hk.length]; exact hp) ((hk.cut p hr).trans hc)

/-- A cut with an end time, at that time. -/
def Stake.cutOver (k : Stake) (p : Nat) : Stake :=
  match (k.mport p).cut with
  | none => k
  | some c =>
    if c.latched then k
    else match c.endAt with
      | some e => if reached k.ang.tick e then k.finishCut p e else k
      | none =>
        let t := k.ang.tick
        if k.modu.run && laterInstant ⟨t, 0⟩ c.at_ && (t = k.modu.nextB || (t = k.ang.period.1 && k.ang.period.2 ≠ 0)) then k.finishCut p t
        else k

theorem Stake.cutOver_ends {c : Cut} {e : Word48} (hc : (k.mport p).cut = some c) (hl : c.latched = false) (he : c.endAt = some e)
    (ht : reached k.ang.tick e = true) : k.cutOver p = k.finishCut p e := by
  unfold Stake.cutOver
  simp only [hc, hl, he, ht, Bool.false_eq_true, if_false, if_true]

/-! Triggers (R205). -/

theorem Stake.trigger_irq {u : Nat} {x : Nat × Instant} (hx : (k.modu.trig.find? fun x => x.1 = u && reached k.ang.tick x.2.tick) = some x)
    (ha : k.inForce (Reg.MOD_TRIG_ACTION u) = 5) : k.trigger u =
      (k.onMod fun m => { m with trig := m.trig.erase x }).plaitIrq (k.inForce (Reg.MOD_TRIG_ARG u) % 16) := by
  have hi : ∀ f : Fld, (k.onMod fun m => { m with trig := m.trig.erase x }).inForce f = k.inForce f := fun _ => rfl
  unfold Stake.trigger
  rw [hx]
  dsimp only
  rw [hi, hi, ha]
  rfl

/-- R67, R317: an interrupt of the plait, held while it resynchronises. -/
theorem Stake.plaitIrq_of (k : Stake) (v : Nat) : (k.plaitIrq v).modu = k.modu ∧
    if k.vote.resync then (k.plaitIrq v).vote.tasks = k.vote.tasks ++ [.irq v] ∧ (k.plaitIrq v).ang.irqs = k.ang.irqs
    else (k.plaitIrq v).ang.irqs = k.ang.irqs ++ [v] := by
  unfold Stake.plaitIrq
  split
  · exact ⟨rfl, rfl, rfl⟩
  · exact ⟨rfl, rfl⟩

end

/-- Settles O40: each command by the operation of the port it runs. -/
theorem edgesAndCuts : Obligations.EdgesAndCuts := by
  unfold Obligations.EdgesAndCuts
  refine ⟨fun s n p r rest hp _ hm hl hs hr ht => edgeSymbolSend_of hp hm hl hs hr ht, fun s n nc hp hn => ?_, fun s n hp hm hq he ho ht => ?_,
    fun s n x hp he ht => ?_, fun s n p c e hp hc hl he ht hm => ?_, fun s n p src w c ha hp hm hc hl hw => ?_, fun s n u x hp hx hact => ?_⟩
  · refine ⟨_, rfl, s.onStake_elsewhere n _, ?_⟩
    rw [State.onStake_stake_same hp]
    exact (s.stake n).calibrate_of hn
  · refine ⟨_, rfl, s.onStake_elsewhere n _, ?_⟩
    rw [State.onStake_stake_same hp]
    exact Stake.auxStart_of hm hq he ho ht
  · refine ⟨_, rfl, s.onStake_elsewhere n _, ?_⟩
    rw [State.onStake_stake_same hp]
    exact Stake.auxStop_of he ht
  · have h : exec (.cutEnd n p) s = .next (s.onStake n fun k => k.cutOver p) := rfl
    refine ⟨_, h, s.onStake_elsewhere n _, ?_⟩
    rw [State.onStake_stake_same hp, Stake.cutOver_ends hc hl he ht]
    exact Stake.finishCut_none hc hm e
  · obtain ⟨t, h, hel, hj⟩ := exec_stakeWrite ha fun k => k.wCutClr w
    refine ⟨t, h, hel, ?_⟩
    rw [hj]
    exact Stake.cutClr_clears (l := [0, 1, 2, 3]) (by simp; omega) hm hc hl hw
  · refine ⟨_, rfl, s.onStake_elsewhere n _, ?_⟩
    rw [State.onStake_stake_same hp, Stake.trigger_irq hx hact]
    obtain ⟨h1, h2⟩ := ((s.stake n).onMod fun m => { m with trig := m.trig.erase x }).plaitIrq_of
      ((s.stake n).inForce (Reg.MOD_TRIG_ARG u) % 16)
    exact ⟨congrArg ModState.trig h1, h2⟩

end Sys2Proof.Machine

/-! Slot requests, seams and recomputes (R185 to R192, R194). -/
namespace Sys2Proof.Machine
set_option Elab.async false

section
variable {k j : Stake}

/-! A request (R190). -/

/-- A request that is discarded with a cause. -/
def Stake.requestDropped (k : Stake) (c s : Nat) : Stake :=
  ((k.post .modSeamFail 1 [c, s]).onMod fun m => { m with req := none }).putB Reg.MOD_STATUS_SEAM_PENDING
    ((k.post .modSeamFail 1 [c, s]).onMod fun m => { m with req := none }).modu.req.isSome

/-- A request that waits. -/
def Stake.requestTaken (k : Stake) (s : Nat) (abort : Bool) : Stake :=
  (k.onMod fun m => { m with req := some (s, k.now, abort) }).putB Reg.MOD_STATUS_SEAM_PENDING true

theorem Stake.requestSlot_eq (k : Stake) (s : Nat) (abort : Bool) : k.requestSlot s abort =
    if s = k.slotNow && k.modu.req.isNone then k
    else if !k.slotSound s then k.requestDropped 5 s
    else if (k.kindNow = 0 && k.slotKind s = 2) || (k.kindNow = 2 && k.slotKind s = 0 && !abort) then k.requestDropped 2 s
    else if k.slotKind s ≠ 0 && !(k.clock 0).valid then k.requestDropped 4 s
    else if k.slotKind s ≠ 0 && k.speedBelow (k.inForce Reg.MOD_SYNC_SYNC_MIN) 1 then k.requestDropped 3 s
    else k.requestTaken s abort := rfl

theorem Stake.requestDropped_only (k : Stake) (c s : Nat) : Stake.Only [.regs, .out, .prt, .modu] k (k.requestDropped c s) :=
  .putB (.onMod (.post .refl))
theorem Stake.requestTaken_only (k : Stake) (s : Nat) (b : Bool) : Stake.Only [.regs, .out, .prt, .modu] k (k.requestTaken s b) :=
  .putB (.onMod .refl)
theorem Stake.requestSlot_only (k : Stake) (s : Nat) (b : Bool) : Stake.Only [.regs, .out, .prt, .modu] k (k.requestSlot s b) := by
  rw [Stake.requestSlot_eq]
  exact .ite .refl (.ite (k.requestDropped_only _ _) (.ite (k.requestDropped_only _ _) (.ite (k.requestDropped_only _ _)
    (.ite (k.requestDropped_only _ _) (k.requestTaken_only _ _)))))

/-- What a request reads of the stake but for its actions. -/
theorem Stake.requestSlot_waits {s : Nat} (hn : s ≠ k.slotNow ∨ k.modu.req ≠ none) (hs : k.slotSound s = true)
    (h1 : ¬(k.kindNow = 0 ∧ k.slotKind s = 2)) (h2 : ¬(k.kindNow = 2 ∧ k.slotKind s = 0))
    (hv : k.slotKind s ≠ 0 → (k.clock 0).valid = true ∧ k.speedBelow (k.inForce Reg.MOD_SYNC_SYNC_MIN) 1 = false) :
    k.requestSlot s false = k.requestTaken s false := by
  have hreq : ¬(s = k.slotNow && k.modu.req.isNone) = true := by
    simp only [Bool.and_eq_true, decide_eq_true_eq, Option.isNone_iff_eq_none]
    tauto
  have hk : ¬((k.kindNow = 0 && k.slotKind s = 2) || (k.kindNow = 2 && k.slotKind s = 0 && !false)) = true := by
    simp only [Bool.or_eq_true, Bool.and_eq_true, decide_eq_true_eq, Bool.not_false, and_true]
    tauto
  rw [Stake.requestSlot_eq, if_neg hreq, if_neg (by simp [hs]), if_neg hk]
  by_cases h0 : k.slotKind s = 0
  · rw [if_neg (by simp [h0]), if_neg (by simp [h0])]
  · obtain ⟨hc, hb⟩ := hv h0
    rw [if_neg (by simp [hc]), if_neg (by simp [hb])]

theorem Stake.requestSlot_unsound {s : Nat} (hn : s ≠ k.slotNow ∨ k.modu.req ≠ none) (hs : k.slotSound s = false) :
    k.requestSlot s false = k.requestDropped 5 s := by
  have hreq : ¬(s = k.slotNow && k.modu.req.isNone) = true := by
    simp only [Bool.and_eq_true, decide_eq_true_eq, Option.isNone_iff_eq_none]
    tauto
  rw [Stake.requestSlot_eq, if_neg hreq, if_pos (by simp [hs])]

/-! The seam (R191). -/

theorem Stake.setEpoch_fldsKept (k : Stake) (st : Nat) : k.fldsKept (k.setEpoch st) [Reg.MOD_STATUS_EPOCH_STATE] := fun f hf => by
  unfold Stake.setEpoch
  extract_lets old q
  have hq : q.fld f = k.fld f := Stake.fld_put_ne _ _ _ _ (hf _ (.head _))
  split
  · rwa [Stake.fld_post_zero]
  split
  · rwa [Stake.fld_post_zero]
  · exact hq

/-- A mode that changes to a slot shows it. -/
theorem Stake.intoSlot_shows (k : Stake) {s : Nat} (hs : s < 16) : (k.intoSlot s).modu.req = none ∧ (k.intoSlot s).slotNow = s ∧
    (k.intoSlot s).kindNow = k.slotKind s % 4 ∧ (k.intoSlot s).flag Reg.MOD_STATUS_SEAM_PENDING = false := by
  have of : ∀ {q j : Stake}, q.fldsKept j [Reg.MOD_STATUS_EPOCH_STATE] → j.modu.req = q.modu.req →
      q.modu.req = none ∧ q.slotNow = s ∧ q.kindNow = k.slotKind s % 4 ∧ q.flag Reg.MOD_STATUS_SEAM_PENDING = false →
      j.modu.req = none ∧ j.slotNow = s ∧ j.kindNow = k.slotKind s % 4 ∧ j.flag Reg.MOD_STATUS_SEAM_PENDING = false :=
    fun h hr ⟨h1, h2, h3, h4⟩ => ⟨hr.trans h1, (h _ (by decide)).trans h2, (h _ (by decide)).trans h3,
      by rw [Stake.flag, h Reg.MOD_STATUS_SEAM_PENDING (by decide)]; exact h4⟩
  unfold Stake.intoSlot
  extract_lets -underBinder +onlyGivenNames kd k1 k2
  have h1 : k1.slotNow = s ∧ k1.kindNow = kd % 4 ∧ k1.flag Reg.MOD_STATUS_SEAM_PENDING = false := by
    refine ⟨?_, ?_, Stake.flag_putB_same _ _ _ (by decide) rfl⟩
    · exact ((Stake.fld_putB_ne _ _ _ _ (by decide)).trans (Stake.fld_put_ne _ _ _ _ (by decide))).trans
        ((Stake.fld_put_same _ _ _ (by decide)).trans (Nat.mod_eq_of_lt hs))
    · exact (Stake.fld_putB_ne _ _ _ _ (by decide)).trans (Stake.fld_put_same _ _ _ (by decide))
  clear_value k1
  have h2 : k2.modu.req = none ∧ k2.slotNow = s ∧ k2.kindNow = kd % 4 ∧ k2.flag Reg.MOD_STATUS_SEAM_PENDING = false :=
    ⟨congrArg ModState.req (k1.onMod_modu _), h1⟩
  clear_value k2
  split
  · exact h2
  extract_lets phi c p nb own al psi ptr k3
  have h3 : k2.fldsKept k3 [Reg.MOD_STATUS_EPOCH_STATE] := .of_eq .refl rfl rfl
  have m3 : k3.modu.req = k2.modu.req := rfl
  clear_value k3
  split
  · exact of (h3.trans (k3.setEpoch_fldsKept 3)) ((congrArg ModState.req (Stake.Only.setEpoch_only k3 3).modu).trans m3) h2
  · exact of h3 m3 h2

/-- R191: from a carrier slot, the seam is at the boundary: at once to another carrier slot, to a pattern where the legs have its state and
no edge of it lies too near. -/
theorem Stake.trySeam_enters {sl x : Nat} {b : Bool} (hq : k.modu.req = some (sl, x, b)) (hr : k.modu.run = true) (h0 : k.kindNow = 0)
    (ht : k.ang.tick = k.modu.nextB)
    (h : k.slotKind sl = 0 ∨ (patState (k.slotAngles sl) k.phiNow = [0, 1, 2].map (fun p => (k.mport p).level) ∧
      k.inForce Reg.MOD_SYNC_SEAM_MIN * (k.clock 0).omega.natAbs ≤ (gapAround (k.clock 0).rev (allEdges (k.slotAngles sl)) k.phiNow).2)) :
    k.trySeam = k.intoSlot sl := by
  have e : k.trySeam = if k.kindNow = 0 && k.slotKind sl = 0 then k.intoSlot sl
      else if patState (k.slotAngles sl) k.phiNow = [0, 1, 2].map (fun p => (k.mport p).level) &&
          k.inForce Reg.MOD_SYNC_SEAM_MIN * (k.clock 0).omega.natAbs ≤ (gapAround (k.clock 0).rev (allEdges (k.slotAngles sl)) k.phiNow).2
        then k.intoSlot sl else k := by
    unfold Stake.trySeam
    simp only [hq, hr, h0, ht, decide_true, Bool.true_and, Bool.not_true, Bool.false_eq_true, if_false, if_true]
  rw [e]
  by_cases hk : k.slotKind sl = 0
  · rw [if_pos (by simp [h0, hk])]
  · rw [if_neg (by simp [hk]), if_pos]
    simp only [Bool.and_eq_true, decide_eq_true_eq]
    exact h.resolve_left hk

/-! A search that fails (R192). -/

/-- SEAM_SEARCH_FAIL on its stake. -/
def Stake.seamSearch (k : Stake) : Stake :=
  match k.modu.req with
  | none => k
  | some (sl, t, abort) =>
    if k.kindNow = 0 && k.slotKind sl = 0 then k
    else if ((k.now - t : Nat) : Int) * iabs (k.clock 0).omega < rev48 then k
    else
      let k := (k.onMod fun m => { m with req := none }).putB Reg.MOD_STATUS_SEAM_PENDING false
      let k := k.post .modSeamFail 1 [1, sl]
      if abort then k.forceCarrier 1 2 else k

theorem Stake.restartCarrier_req (k : Stake) (a : Word48) (v : Bool) : (k.restartCarrier a v).modu.req = k.modu.req := by
  unfold Stake.restartCarrier
  extract_lets k1 k2
  have h1 : k1.modu.req = k.modu.req := rfl
  clear_value k1
  have h2 : k2.modu = k1.modu := Stake.Only.modu (l := [.regs, .out, .prt]) (.ite (.setEpoch .refl) .refl)
  exact (congrArg ModState.req (k2.addTriggers_modu ..)).trans ((congrArg ModState.req h2).trans h1)

/-- R192: forcing the carrier takes a waiting request away. -/
theorem Stake.forceCarrier_dropped (k : Stake) (cls cause : Nat) : (k.forceCarrier cls cause).modu.req = none ∧
    (k.forceCarrier cls cause).flag Reg.MOD_STATUS_SEAM_PENDING = false := by
  unfold Stake.forceCarrier
  extract_lets fb f d k1 k2 k3 k4
  have h2 : k2.modu.req = none := congrArg ModState.req (k1.onMod_modu _)
  clear_value k2
  have h3 : k3.modu.req = none := h2
  have h4 : k4.modu.req = none := (k3.restartCarrier_req _ _).trans h3
  clear_value k4
  have h5 : ((k4.put Reg.MOD_STATUS_SLOT fb).put Reg.MOD_STATUS_KIND 0 |>.putB Reg.MOD_STATUS_SEAM_PENDING false).flag
      Reg.MOD_STATUS_SEAM_PENDING = false := Stake.flag_putB_same _ _ _ (by decide) rfl
  have h6 : ((k4.put Reg.MOD_STATUS_SLOT fb).put Reg.MOD_STATUS_KIND 0 |>.putB Reg.MOD_STATUS_SEAM_PENDING false).modu.req = none := h4
  generalize ((k4.put Reg.MOD_STATUS_SLOT fb).put Reg.MOD_STATUS_KIND 0).putB Reg.MOD_STATUS_SEAM_PENDING false = q at h5 h6
  have hr : q.regsKept (q.post .modSyncAbort cls [cause]) axisRegs := .post .refl (List.Subset.refl _)
  exact ⟨by rw [(Stake.Only.post_only _ _ _ _).modu, h6], (hr.flag (by decide)).trans h5⟩

theorem Stake.forceCarrier_out (k : Stake) (cls cause : Nat) : k.outKept (k.forceCarrier cls cause) := .forceCarrier .refl

/-- R191, R192: a request that has found no seam for one electrical revolution. -/
theorem Stake.seamSearch_fails {sl x : Nat} {b : Bool} (hq : k.modu.req = some (sl, x, b)) (h0 : ¬(k.kindNow = 0 ∧ k.slotKind sl = 0))
    (ht : rev48 ≤ ((k.now - x : Nat) : Int) * iabs (k.clock 0).omega) : k.seamSearch.modu.req = none ∧
      k.seamSearch.flag Reg.MOD_STATUS_SEAM_PENDING = false ∧ k.posted k.seamSearch .modSeamFail 1 [1, sl] := by
  have e : k.seamSearch = if b then (((k.onMod fun m => { m with req := none }).putB Reg.MOD_STATUS_SEAM_PENDING false).post .modSeamFail 1
      [1, sl]).forceCarrier 1 2 else ((k.onMod fun m => { m with req := none }).putB Reg.MOD_STATUS_SEAM_PENDING false).post .modSeamFail 1 [1, sl] := by
    unfold Stake.seamSearch
    rw [hq]
    dsimp only
    rw [if_neg (by simpa using h0), if_neg (by omega)]
  have hr : ((k.onMod fun m => { m with req := none }).putB Reg.MOD_STATUS_SEAM_PENDING false).modu.req = none := rfl
  have hf : ((k.onMod fun m => { m with req := none }).putB Reg.MOD_STATUS_SEAM_PENDING false).flag Reg.MOD_STATUS_SEAM_PENDING = false :=
    Stake.flag_putB_same _ _ _ (by decide) rfl
  have ho : Stake.Only [.regs, .modu] k ((k.onMod fun m => { m with req := none }).putB Reg.MOD_STATUS_SEAM_PENDING false) := .putB (.onMod .refl)
  rw [e]
  generalize (k.onMod fun m => { m with req := none }).putB Reg.MOD_STATUS_SEAM_PENDING false = q at hr hf ho
  have hp := ho.post_posted .modSeamFail 1 [1, sl]
  have hk : q.regsKept (q.post .modSeamFail 1 [1, sl]) axisRegs := .post .refl (List.Subset.refl _)
  cases b with
  | true => exact ⟨(Stake.forceCarrier_dropped ..).1, (Stake.forceCarrier_dropped ..).2, hp.of_prefix (Stake.forceCarrier_out ..)⟩
  | false => exact ⟨by rw [if_neg Bool.false_ne_true, (Stake.Only.post_only _ _ _ _).modu, hr], (hk.flag (by decide)).trans hf, hp⟩

/-! A recompute while the legs are off (R189, R192). -/

/-- The pointers at the present angle. -/
def Stake.pointHere (k : Stake) : Stake := k.onMod fun m => { m with pat := { m.pat with ptr := [k.phiNow, k.phiNow, k.phiNow] } }

theorem Stake.switching_congr (h : k.regsKept j [Reg.MOD_STATUS]) (ha : j.act = k.act) (hi : j.id = k.id) : j.switching = k.switching := by
  have hax : j.axis = k.axis := h.fld (by decide)
  rw [Stake.switching, Stake.switching, h.fld (by decide), Stake.axisIn, Stake.axisIn, hax, Stake.inForce_congr ha hi]

theorem Stake.slowAbort_of (k : Stake) :
    if k.speedBelow (7 * k.inForce Reg.MOD_SYNC_SYNC_MIN) 8 = true ∧ k.modu.req.all (fun r => !r.2.2) = true then
      k.slowAbort.modu = { k.modu with req := some (k.inForce Reg.MOD_CTRL_FALLBACK_SLOT, k.now, true) } ∧
      k.posted k.slowAbort .modSyncAbort 0 [1] ∧ Stake.Only [.modu, .regs, .out, .prt] k k.slowAbort ∧ k.regsKept k.slowAbort [Reg.MOD_STATUS]
    else k.slowAbort = k := by
  have e : k.slowAbort = if (!k.modu.req.all fun r => !r.2.2) || !k.speedBelow (7 * k.inForce Reg.MOD_SYNC_SYNC_MIN) 8 then k
      else ((k.onMod fun m => { m with req := some (k.inForce Reg.MOD_CTRL_FALLBACK_SLOT, k.now, true) }).putB Reg.MOD_STATUS_SEAM_PENDING
        true).post .modSyncAbort 0 [1] := by
    unfold Stake.slowAbort
    cases k.modu.req with
    | none => rfl
    | some r =>
      obtain ⟨a, b, c⟩ := r
      simp only [Option.all_some, Bool.not_not]
  rw [e]
  by_cases h : k.speedBelow (7 * k.inForce Reg.MOD_SYNC_SYNC_MIN) 8 = true ∧ k.modu.req.all (fun r => !r.2.2) = true
  · rw [if_pos h, if_neg (by rw [h.1, h.2]; decide)]
    have ho : Stake.Only [.modu, .regs] k ((k.onMod fun m => { m with req := some (k.inForce Reg.MOD_CTRL_FALLBACK_SLOT, k.now, true) }).putB
      Reg.MOD_STATUS_SEAM_PENDING true) := .putB (.onMod .refl)
    have hm : ((k.onMod fun m => { m with req := some (k.inForce Reg.MOD_CTRL_FALLBACK_SLOT, k.now, true) }).putB
      Reg.MOD_STATUS_SEAM_PENDING true).modu = { k.modu with req := some (k.inForce Reg.MOD_CTRL_FALLBACK_SLOT, k.now, true) } := rfl
    have hr : k.regsKept ((k.onMod fun m => { m with req := some (k.inForce Reg.MOD_CTRL_FALLBACK_SLOT, k.now, true) }).putB
      Reg.MOD_STATUS_SEAM_PENDING true) [Reg.MOD_STATUS] := .putB (.onMod .refl) (by decide)
    generalize (k.onMod fun m => { m with req := some (k.inForce Reg.MOD_CTRL_FALLBACK_SLOT, k.now, true) }).putB
      Reg.MOD_STATUS_SEAM_PENDING true = q at ho hm hr
    exact ⟨by rw [(Stake.Only.post_only _ _ _ _).modu, hm], ho.post_posted .modSyncAbort 0 [1], .post (ho.mono (by decide)), .post_zero hr⟩
  · rw [if_neg h, if_pos]
    simp only [Bool.or_eq_true, Bool.not_eq_true']
    by_cases hb : k.modu.req.all (fun r => !r.2.2) = true
    · exact .inr (Bool.eq_false_of_not_eq_true fun hs => h ⟨hs, hb⟩)
    · exact .inl (Bool.eq_false_of_not_eq_true hb)

/-- R189: the estimate carried to the present tick. -/
def ModState.carried (m : ModState) (f : Int × Int) (t : Word48) : ModState := { m with pat := { m.pat with psi := f, psiAt := t } }

theorem Stake.phiNow_congr (h : j.ang = k.ang) (hs : j.modu.set = k.modu.set) (ha : j.act = k.act) (hi : j.id = k.id) : j.phiNow = k.phiNow := by
  have hc : j.clock 0 = k.clock 0 := by rw [Stake.clock, h, Stake.clock]
  have hp : j.psiRef k.modu.set = k.psiRef k.modu.set := by
    unfold Stake.psiRef Stake.perUnit
    rw [hc, Stake.inForce_congr ha hi]
  rw [Stake.phiNow, Stake.phiNow, hc, hs, Stake.loadAngle, Stake.loadAngle, hp]

theorem Stake.recompute_idle (hr : k.modu.run = true) (hk : k.kindNow ≠ 0) (ht : (k.ang.tick - k.modu.pat.tSeam).toNat % 400 = 0)
    (hs : k.carryFlux.slowAbort.switching = false) : k.recompute = k.carryFlux.slowAbort.pointHere := by
  unfold Stake.recompute
  rw [if_neg (by simp only [hr, hk, ht, ne_eq, not_true_eq_false, decide_false, Bool.not_true, Bool.or_self, Bool.false_eq_true, not_false_eq_true])]
  exact if_pos (by rw [hs]; rfl)

/-- R189, R192: a recompute while the legs are off. -/
theorem Stake.recompute_of (hr : k.modu.run = true) (hk : k.kindNow ≠ 0) (ht : (k.ang.tick - k.modu.pat.tSeam).toNat % 400 = 0)
    (hs : k.switching = false) :
    k.recompute.modu.pat = { k.modu.pat with psi := k.fluxNow, psiAt := k.ang.tick, ptr := [k.phiNow, k.phiNow, k.phiNow] } ∧
      if k.speedBelow (7 * k.inForce Reg.MOD_SYNC_SYNC_MIN) 8 = true ∧ k.modu.req.all (fun r => !r.2.2) = true then
        k.recompute.modu.req = some (k.inForce Reg.MOD_CTRL_FALLBACK_SLOT, k.now, true) ∧ k.posted k.recompute .modSyncAbort 0 [1]
      else k.recompute.modu.req = k.modu.req ∧ k.recompute = { k with modu := k.recompute.modu } := by
  have hc : k.carryFlux = k.onMod fun m => m.carried k.fluxNow k.ang.tick := rfl
  have hb := k.carryFlux.slowAbort_of
  have ho : Stake.Only [.modu] k k.carryFlux := .onMod .refl
  have hm : k.carryFlux.modu = k.modu.carried k.fluxNow k.ang.tick := rfl
  have hsp : k.carryFlux.speedBelow (7 * k.carryFlux.inForce Reg.MOD_SYNC_SYNC_MIN) 8 = k.speedBelow (7 * k.inForce Reg.MOD_SYNC_SYNC_MIN) 8 := rfl
  have he := Stake.recompute_idle hr hk ht
  have hrk : k.regsKept k.carryFlux [Reg.MOD_STATUS] := .of_eq .refl ho.regs ho.id
  generalize k.carryFlux = q at hb ho hm hsp he hrk
  rw [hsp, ho.inForce, ho.now, show q.modu.req = k.modu.req by rw [hm]; rfl] at hb
  have hpt : ∀ i : Stake, (i.pointHere).modu.pat = { i.modu.pat with ptr := [i.phiNow, i.phiNow, i.phiNow] } := fun _ => rfl
  have hpq : ∀ i : Stake, (i.pointHere).modu.req = i.modu.req := fun _ => rfl
  have hpo : ∀ i : Stake, Stake.Only [.modu] i i.pointHere := fun _ => .onMod .refl
  by_cases h : k.speedBelow (7 * k.inForce Reg.MOD_SYNC_SYNC_MIN) 8 = true ∧ k.modu.req.all (fun r => !r.2.2) = true
  · rw [if_pos h] at hb ⊢
    obtain ⟨b1, b2, b3, b4⟩ := hb
    generalize q.slowAbort = i at b1 b2 b3 b4 he
    have ki : Stake.Only [.modu, .regs, .out, .prt] k i := (ho.mono (by decide)).trans b3
    rw [he (by rw [Stake.switching_congr (hrk.trans b4) ki.act ki.id, hs])]
    refine ⟨?_, (hpq i).trans (by rw [b1]), ?_⟩
    · rw [hpt, Stake.phiNow_congr ki.ang (by rw [b1, hm]; rfl) ki.act ki.id, b1, hm]
      rfl
    · exact (b2.after (Stake.outKept.refl.of_eq ho.out) ho.id (by rw [ho.ang])).of_prefix (Stake.outKept.refl.of_eq (hpo i).out)
  · rw [if_neg h] at hb ⊢
    rw [hb] at he
    rw [he (by rw [Stake.switching_congr hrk ho.act ho.id, hs])]
    refine ⟨?_, (hpq q).trans (by rw [hm]; rfl), (ho.trans (hpo q)).eq_copy⟩
    rw [hpt, Stake.phiNow_congr ho.ang (by rw [hm]; rfl) ho.act ho.id, hm]
    rfl

/-- The stake once an action has left the list (R67). -/
def Stake.actTaken (k : Stake) (a : Act) : Stake := { k with ang := { k.ang with acts := k.ang.acts.erase a } }

/-- A request reads nothing of the actions. -/
theorem Stake.actTaken_request (k : Stake) (a : Act) (s : Nat) : (k.actTaken a).slotNow = k.slotNow ∧ (k.actTaken a).modu = k.modu ∧
    (k.actTaken a).slotSound s = k.slotSound s ∧ (k.actTaken a).kindNow = k.kindNow ∧ (k.actTaken a).slotKind s = k.slotKind s ∧
    ((k.actTaken a).clock 0).valid = (k.clock 0).valid ∧
    (k.actTaken a).speedBelow ((k.actTaken a).inForce Reg.MOD_SYNC_SYNC_MIN) 1 = k.speedBelow (k.inForce Reg.MOD_SYNC_SYNC_MIN) 1 :=
  ⟨rfl, rfl, rfl, rfl, rfl, rfl, rfl⟩

theorem Stake.actTaken_kept (k : Stake) (a : Act) : (k.actTaken a).now = k.now ∧ k.regsKept (k.actTaken a) [Reg.MOD_STATUS] ∧
    Stake.Only [.ang] k (k.actTaken a) ∧ (k.actTaken a).ang.tick = k.ang.tick :=
  ⟨rfl, .refl, .set (f := .ang) .refl (by decide), rfl⟩

end

/-- Settles O37: a request, a seam, a failed search, a recompute and a swap, each by the operation it runs. -/
theorem slotsAndSeams : Obligations.SlotsAndSeams := by
  unfold Obligations.SlotsAndSeams
  refine ⟨fun s n e a hp hd => ?_, fun s n sl x b hp hq hs hr h0 ht => ?_, fun s n sl x b hp hq h0 ht => ?_, fun s n hp hr hk ht hs => ?_,
    fun s n src w ha h0 => ?_⟩
  · intro k sl hn
    obtain ⟨t, hx, hel, hj⟩ := exec_takeAct hp hd fun a q => q.requestSlot (a.arg % 16) false
    have ho := Stake.requestSlot_only (k.actTaken a) sl false
    obtain ⟨w1, w2, w3, w4, w5, w6, w7⟩ := k.actTaken_request a sl
    obtain ⟨w8, w9, w10, w11⟩ := k.actTaken_kept a
    refine ⟨t, hx, hel, ?_⟩
    have hg : (k.actTaken a).ang = { k.ang with acts := k.ang.acts.erase a } := rfl
    rw [show t.stake n = (k.actTaken a).requestSlot sl false from hj]
    generalize k.actTaken a = q at *
    refine ⟨ho.ang.trans hg, fun h1 h2 h3 h4 => ?_, fun h1 => ?_⟩
    · rw [Stake.requestSlot_waits (w1.symm ▸ w2.symm ▸ hn) (w3.trans h1) (by rwa [w4, w5]) (by rwa [w4, w5]) (by rwa [w5, w6, w7])]
      refine ⟨?_, Stake.flag_putB_same _ _ _ (by decide) rfl, w9.trans (.putB (.onMod .refl) (by decide))⟩
      rw [← w2, ← w8]
      rfl
    · rw [Stake.requestSlot_unsound (w1.symm ▸ w2.symm ▸ hn) (w3.trans h1)]
      refine ⟨rfl, ?_⟩
      have hp5 := (q.post_posted .modSeamFail 1 [5, sl]).after (Stake.outKept.refl.of_eq w10.out) w10.id w11
      exact hp5
  · intro k h
    refine ⟨_, rfl, s.onStake_elsewhere n _, ?_⟩
    rw [State.onStake_stake_same hp, Stake.trySeam_enters hq hr h0 ht h]
    exact (s.stake n).intoSlot_shows hs
  · have h : exec (.seamSearchFail n) s = .next (s.onStake n fun k => k.seamSearch) := rfl
    refine ⟨_, h, s.onStake_elsewhere n _, ?_⟩
    rw [State.onStake_stake_same hp]
    exact Stake.seamSearch_fails hq h0 ht
  · refine ⟨_, rfl, s.onStake_elsewhere n _, ?_⟩
    rw [State.onStake_stake_same hp]
    exact Stake.recompute_of hr hk ht hs
  · obtain ⟨t, h, hel, hj⟩ := exec_stakeWrite ha fun k => k.wPatCtrl w
    refine ⟨t, h, hel, ?_⟩
    have e : t.stake n = (s.stake n).putB Reg.MOD_PAT_CTRL_PENDING true := hj.trans (if_pos h0)
    rw [e]
    refine ⟨Stake.flag_putB_same _ _ _ (by decide) rfl, ?_, (Stake.Only.eq_copy (l := [.regs]) (.putB .refl)), .putB .refl (by decide)⟩
    rw [Stake.flag, Stake.fld_putB_ne _ _ _ _ (by decide)]
    rfl

end Sys2Proof.Machine

/-! 48-bit slots: the snapshot a low word latches, and the commit by a high word (R7). -/
namespace Sys2Proof.Machine
set_option Elab.async false

/-! Reading through the snapshot. -/

section
variable {snap : List (Nat × BitVec 32)} {now : Nat → BitVec 32} {group : List Nat} {off : Nat}

/-- The snapshot once a group has been latched. -/
def latched (snap : List (Nat × BitVec 32)) (now : Nat → BitVec 32) (group : List Nat) : List (Nat × BitVec 32) :=
  (snap.filter fun x => !group.contains x.1) ++ group.map fun o => (o, now o)

theorem readThrough_of_none (h : snap.find? (fun e => e.1 = off) = none) : readThrough snap now group off = (now off, latched snap now group) := by
  unfold readThrough
  rw [h]
  rfl

/-- A word of the latched group is found as it was. -/
theorem find_latched {o : Nat} (ho : o ∈ group) : (latched snap now group).find? (fun e => e.1 = o) = some (o, now o) := by
  unfold latched
  have h1 : (snap.filter fun x => !group.contains x.1).find? (fun e => e.1 = o) = none := by
    refine List.find?_eq_none.2 fun e he => ?_
    have hm := (List.mem_filter.1 he).2
    simp only [Bool.not_eq_true', List.contains_eq_mem, decide_eq_false_iff_not] at hm
    simpa using fun heq : e.1 = o => hm (heq ▸ ho)
  rw [List.find?_append, h1, Option.none_or]
  clear h1
  induction group with
  | nil => simp at ho
  | cons g l ih =>
    rw [List.map_cons, List.find?_cons]
    by_cases hg : g = o
    · simp [hg]
    · simp only [hg, decide_false]
      exact ih ((List.mem_cons.1 ho).resolve_left fun e => hg e.symm)

theorem readThrough_latched {now' : Nat → BitVec 32} {group' : List Nat} {o : Nat} (ho : o ∈ group) :
    (readThrough (latched snap now group) now' group' o).1 = now o := by
  unfold readThrough
  rw [find_latched ho]

end

/-! An access of a stake's window crosses no other stake's. -/

theorem targetOf_stake {n off : Nat} (hn : n < 8) (ho : off < 0x100000) : targetOf (n * 0x100000 + off) = n := by
  unfold targetOf
  rw [if_pos (by omega)]
  omega

theorem State.crossedAt_stake_target (s : State) (src : Src) {n off : Nat} (hn : n < 8) (ho : off < 0x100000) (k : Nat) (ws : List Nat) :
    (s.crossedAt src (n * 0x100000 + off) k ws).stake n = s.stake n := by
  unfold State.crossedAt State.crossed
  rw [targetOf_stake hn ho]
  split
  · next h =>
    simp only [Bool.and_eq_true, decide_eq_true_eq] at h
    exact s.onStake_stake_ne h.1.2 _
  · rfl

theorem State.crossedAt_pending (s : State) (src : Src) (a k : Nat) (ws : List Nat) : (s.crossedAt src a k ws).pending = s.pending := by
  unfold State.crossedAt
  rcases s.crossed_eq src (targetOf a) k 0 (a % 0x1000000 :: ws) with h | h <;> simp [h]

theorem State.crossedAt_present (s : State) (src : Src) (a k : Nat) (ws : List Nat) (n : Nat) : (s.crossedAt src a k ws).present n = s.present n := by
  unfold State.crossedAt
  rcases s.crossed_eq src (targetOf a) k 0 (a % 0x1000000 :: ws) with h | h
  · rw [h]
  · rw [h, State.onStake_present]

theorem State.crossedAt_alive (s : State) (src : Src) (a k : Nat) (ws : List Nat) (n : Nat) : (s.crossedAt src a k ws).alive n = s.alive n := by
  rw [State.alive, State.alive, State.crossedAt_present, State.crossedAt_pkg]

/-- An access of the package region that is not stake 1's crosses no stake. -/
theorem State.crossedAt_pkg_region (s : State) (src : Src) {off : Nat} (h : 0x800000 ≤ off) (h' : off < 0x810000 ∨ 0x820000 ≤ off) (k : Nat)
    (ws : List Nat) : s.crossedAt src off k ws = s := by
  have ht : targetOf off = 0 := by
    unfold targetOf
    rw [if_neg (by omega), if_neg (by simp; omega)]
  unfold State.crossedAt State.crossed
  rw [ht]
  exact if_neg (by simp)

/-! Reading a low word. -/

theorem State.readStake_eq {s : State} {n off : Nat} (ha : s.alive n = true) : s.readStake n off =
    ((readThrough (s.stake n).snap (s.stake n).word (if fbOnly off && n ≠ 1 then [] else lowGroup off) off).1,
      s.onStake n fun k => { k with snap := (readThrough (s.stake n).snap (s.stake n).word (if fbOnly off && n ≠ 1 then [] else lowGroup off) off).2 }) := by
  unfold State.readStake
  rw [ha]
  rfl

theorem exec_lowWordReadLatch (s : State) (a : Nat) : exec (.lowWordReadLatch a) s =
    .next (if (if a < 0x800000 then !(lowGroup (a % 0x100000)).isEmpty else !(lowGroupPkg a).isEmpty) then
      ((s.crossedAt .host a 0 []).readAddr a).2.answer a ((s.crossedAt .host a 0 []).readAddr a).1 else s) := rfl

/-- The address of a word of a stake's window. -/
theorem stakeAddr {n off : Nat} (hn : n < 8) (ho : off < 0x100000) : n * 0x100000 + off < 0x800000 ∧ (n * 0x100000 + off) % 0x100000 = off ∧
    (n * 0x100000 + off) / 0x100000 = n := by omega

/-- The state once a stake's group is latched and its low word answered. -/
def State.latchStake (q : State) (n a off : Nat) (k : Stake) : State :=
  (q.onStake n fun j => { j with snap := latched k.snap k.word (lowGroup off) }).answer a (k.word off)

theorem State.latchStake_of {q : State} {n : Nat} (hp : q.present n = true) (a off : Nat) (k : Stake) :
    (q.latchStake n a off k).part = q.part ∧ (q.latchStake n a off k).pending = q.pending ∧
    (∀ m, m ≠ n → (q.latchStake n a off k).stake m = q.stake m) ∧
    (q.latchStake n a off k).stake n = { q.stake n with snap := latched k.snap k.word (lowGroup off) } ∧
    (q.latchStake n a off k).pkg = { q.pkg with hostReads := q.pkg.hostReads ++ [(a, k.word off)] } := by
  refine ⟨State.onStake_part .., State.onStake_pending .., fun m hm => q.onStake_stake_ne hm _, State.onStake_stake_same hp _, ?_⟩
  exact congrArg (fun p : Pkg => { p with hostReads := p.hostReads ++ [(a, k.word off)] }) (State.onStake_pkg ..)

theorem State.readAddr_stake {q : State} {n off a : Nat} (hr : q.ready = true) (ha : q.alive n = true) (h : a < 0x800000 ∧ a % 0x100000 = off ∧
    a / 0x100000 = n) (hf : (fbOnly off && n ≠ 1) = false) (hs : (q.stake n).snap.find? (fun e => e.1 = off) = none) :
    (q.readAddr a).2.answer a (q.readAddr a).1 = q.latchStake n a off (q.stake n) := by
  obtain ⟨h1, h2, h3⟩ := h
  have hread : q.readAddr a = ((q.stake n).word off,
      q.onStake n fun k => { k with snap := latched (q.stake n).snap (q.stake n).word (lowGroup off) }) := by
    unfold State.readAddr
    rw [if_neg (by rw [hr]; simp), if_pos h1, h2, h3, State.readStake_eq ha, hf, if_neg Bool.false_ne_true, readThrough_of_none hs]
  rw [hread]
  rfl

/-- R7: the read of a low word of a stake's window. -/
theorem lowWordReadLatch_stake {s : State} {n off a : Nat} (hr : s.ready = true) (hl : s.alive n = true) (hn : n < 8) (ho : off < 0x100000)
    (ha : a = n * 0x100000 + off) (hg : lowGroup off ≠ []) (hf : (fbOnly off && n ≠ 1) = false)
    (hs : (s.stake n).snap.find? (fun e => e.1 = off) = none) :
    ∃ t, exec (.lowWordReadLatch a) s = .next t ∧ t.part = s.part ∧ t.pending = s.pending ∧
      (∀ m, m ≠ n → t.stake m = (s.crossedAt .host a 0 []).stake m) ∧ t.stake n = { s.stake n with snap := (t.stake n).snap } ∧
      t.pkg = { s.pkg with hostReads := s.pkg.hostReads ++ [(a, (s.stake n).word off)] } ∧
      (t.stake n).snap = latched (s.stake n).snap (s.stake n).word (lowGroup off) := by
  have hq := s.crossedAt_stake_target .host hn ho 0 []
  have haddr := stakeAddr hn ho
  rw [← ha] at hq haddr
  have hqa : (s.crossedAt .host a 0 []).alive n = true := by rw [s.crossedAt_alive, hl]
  have hqr : (s.crossedAt .host a 0 []).ready = true := by rw [State.ready, s.crossedAt_pkg]; exact hr
  have he := exec_lowWordReadLatch s a
  rw [if_pos (by rw [if_pos haddr.1, haddr.2.1]; simpa using hg),
    State.readAddr_stake hqr hqa haddr hf (by rw [hq]; exact hs), hq] at he
  obtain ⟨g1, g2, g3, g4, g5⟩ := State.latchStake_of (State.present_of_alive hqa) a off (s.stake n)
  rw [s.crossedAt_part] at g1
  rw [s.crossedAt_pending] at g2
  rw [hq] at g4
  rw [s.crossedAt_pkg] at g5
  exact ⟨_, he, g1, g2, g3, by rw [g4], g5, by rw [g4]⟩

/-- R7: a word of the group, read later. -/
theorem State.readStake_latched {u : State} {n off o : Nat} {k : Stake} (ha : u.alive n = true)
    (hs : (u.stake n).snap = latched k.snap k.word (lowGroup off)) (ho : o ∈ lowGroup off) : (u.readStake n o).1 = k.word o := by
  rw [State.readStake_eq ha, hs]
  exact readThrough_latched ho

/-! The package region. -/

theorem lowGroupPkg_addr {off : Nat} (h : lowGroupPkg off ≠ []) : (0x820000 ≤ off ∧ off < 0x860000) ∧ canSlot off = none := by
  have hm : off ∈ [Reg.ETH_MAP_TICK, Reg.ETH_MAP_NT, Reg.ETH_MAP_MS, Reg.NVM_CFG_GEN] := by
    unfold lowGroupPkg at h
    simp only [List.mem_cons, List.not_mem_nil, or_false]
    split at h
    · exact .inl ‹_›
    · split at h
      · next h' => simp only [Bool.or_eq_true, decide_eq_true_eq] at h'; tauto
      · exact absurd rfl h
  clear h
  revert off
  decide

theorem State.readPkg_fst (u : State) (o : Nat) : (u.readPkg o).1 = (readThrough u.pkg.snap u.pkgWord (lowGroupPkg o) o).1 := by
  unfold State.readPkg
  dsimp only
  split <;> rfl

theorem State.readPkg_low {s : State} {off : Nat} (h : canSlot off = none) (hs : s.pkg.snap.find? (fun e => e.1 = off) = none) :
    s.readPkg off = (s.pkgWord off, s.onPkg fun p => { p with snap := latched s.pkg.snap s.pkgWord (lowGroupPkg off) }) := by
  unfold State.readPkg
  rw [readThrough_of_none hs, h]

/-- R7: the read of a low word of the package region. -/
theorem lowWordReadLatch_pkg {s : State} {off : Nat} (hr : s.ready = true) (ho : 0x800000 ≤ off) (hg : lowGroupPkg off ≠ [])
    (hs : s.pkg.snap.find? (fun e => e.1 = off) = none) :
    ∃ t, exec (.lowWordReadLatch off) s = .next t ∧ s.stakesKept t ∧
      t.pkg.hostReads = s.pkg.hostReads ++ [(off, s.pkgWord off)] ∧ t.pkg.regs = s.pkg.regs ∧
      t.pkg.snap = latched s.pkg.snap s.pkgWord (lowGroupPkg off) := by
  obtain ⟨⟨h1, -⟩, h3⟩ := lowGroupPkg_addr hg
  have he := exec_lowWordReadLatch s off
  have hread : s.readAddr off = s.readPkg off := by
    unfold State.readAddr
    rw [if_neg (by rw [hr]; simp), if_neg (by omega)]
  rw [if_pos (by rw [if_neg (by omega)]; simpa using hg), s.crossedAt_pkg_region .host ho (.inr h1), hread, State.readPkg_low h3 hs] at he
  exact ⟨_, he, ⟨rfl, rfl, rfl⟩, rfl, rfl, rfl⟩

/-! Committing a slot. -/

theorem tableAt_of_lt {o : Nat} (h : o < 0xA0000) : tableAt o = none := by
  unfold tableAt
  rw [if_neg (by simp; omega), if_neg (by simp; omega), if_neg (by simp; omega), if_neg (by simp; omega)]

/-- The high word of a slot is no register with a write of its own. -/
theorem slotAt_high {off lo : Nat} (h : slotAt off = some lo) (ho : off % 8 = 4) :
    off ≠ lo ∧ off ≠ Reg.FLD_CTRL ∧ off ≠ Reg.FLD_TBL_CTRL ∧ off ≠ Reg.FLD_PAIR_CTRL ∧ inArr off (Reg.ANG_ENT_CTRL 0) 127 32 = false := by
  have hlo : off / 8 * 8 = lo := by
    unfold slotAt at h
    dsimp only at h
    split at h
    · exact Option.some.inj h
    · contradiction
  refine ⟨by omega, ?_, ?_, ?_, Bool.eq_false_of_not_eq_true fun hi => ?_⟩
  · rintro rfl
    rw [show slotAt Reg.FLD_CTRL = none by decide] at h
    contradiction
  · rintro rfl
    rw [show slotAt Reg.FLD_TBL_CTRL = none by decide] at h
    contradiction
  · rintro rfl
    rw [show slotAt Reg.FLD_PAIR_CTRL = none by decide] at h
    contradiction
  · have hb : 0x3040C ≤ off ∧ (off - 0x3040C) % 32 = 0 ∧ (off - 0x3040C) / 32 < 127 := by
      unfold inArr at hi
      rw [Bool.and_eq_true, Bool.and_eq_true, decide_eq_true_eq, decide_eq_true_eq, decide_eq_true_eq, and_assoc] at hi
      exact hi
    unfold slotAt at h
    dsimp only at h
    rw [if_neg] at h
    · contradiction
    · rw [tableAt_of_lt (by omega)]
      simp only [inArr, Option.isSome_none, Bool.or_eq_true, Bool.and_eq_true, decide_eq_true_eq, Bool.false_eq_true, or_false]
      simp only [Reg.FLD_FB_XON, Reg.FLD_FB_XOFF]
      omega

/-- R7: a write of the high word of a slot commits it with the low word last written. -/
theorem State.stakeReg_commit {s : State} {src : Src} {n off lo : Nat} {w : Reg32} (ht : s.takesFrom src n = true) (ho : off % 8 = 4)
    (hs : slotAt off = some lo) (hl : (s.locked && closedTo src off) = false) (hf : (fbOnly off && n ≠ 1) = false)
    (hb : ((s.stake n).shadowBad lo ((s.stake n).slotValue lo w) && (s.stake n).flag Reg.MOD_SET_CTRL_IS_OPEN) = false)
    (hp : (s.stake n).fbPairBad lo ((s.stake n).slotValue lo w) = false) :
    s.stakeReg src n off w = s.onStake n fun k => k.slotStore lo ((s.stake n).slotValue lo w) := by
  obtain ⟨h1, h2, h3, h4, h5⟩ := slotAt_high hs ho
  unfold State.stakeReg
  dsimp only
  rw [if_neg (by rw [ht, hf]; decide), if_neg h2, if_neg h3, if_neg h4, if_neg (by rw [hl]; decide), if_neg (by rw [h5]; decide), hs]
  dsimp only
  rw [if_neg h1, if_neg (by rw [hb, hp]; decide)]

theorem State.crossedAt_takesFrom (s : State) (src src' : Src) (a k : Nat) (ws : List Nat) (n : Nat) :
    (s.crossedAt src a k ws).takesFrom src' n = s.takesFrom src' n := by
  rw [State.takesFrom, State.takesFrom, s.crossedAt_alive, s.stake_crossedAt_vote]

theorem exec_highWordWriteCommit (s : State) (src : Src) (a : Nat) (w : Reg32) : exec (.highWordWriteCommit src a w) s =
    .next (if a < 0x800000 && a % 8 = 4 && (slotAt (a % 0x100000)).isSome then (s.crossedAt src a 1 [w.toNat]).regWrite src a w else s) := rfl

theorem State.regWrite_stake {s : State} {src : Src} {a n off : Nat} (h : a < 0x800000 ∧ a % 0x100000 = off ∧ a / 0x100000 = n) (h4 : a % 4 = 0)
    (w : Reg32) : s.regWrite src a w = s.stakeReg src n off w := by
  obtain ⟨h1, h2, h3⟩ := h
  unfold State.regWrite
  rw [if_neg (by simp; omega), if_pos h1, h2, h3]

/-- The slots of a channel's corrections are plain ones. -/
theorem Stake.slotStore_corr {k : Stake} {lo c : Nat} (hc : c < 16) (h : lo = Reg.SNS_CH_GAIN c ∨ lo = Reg.SNS_CH_OFFSET c) (v : Word48) :
    (k.slotStore lo v).get48 lo = v := by
  have hlo : lo < 0x11000 := by
    simp only [Reg.SNS_CH_GAIN, Reg.SNS_CH_OFFSET] at h
    omega
  have e : k.slotStore lo v = (k.put48 lo v).fldSync := by
    unfold Stake.slotStore
    rw [tableAt_of_lt (by omega)]
    exact if_neg (by simp; omega)
  have hk : (k.put48 lo v).regsKept (k.put48 lo v).fldSync [Reg.FLD_STATUS] := .putB .refl (by decide)
  rw [e, hk.get48 (by simp [Reg.FLD_STATUS]; omega) (by simp [Reg.FLD_STATUS]; omega), Stake.get48_put48_same]

/-- Settles O27: the snapshot answers for its group until it is read, and a slot is stored by its high word. -/
theorem slotsAreWhole : Obligations.SlotsAreWhole := by
  unfold Obligations.SlotsAreWhole
  refine ⟨fun s n off hr ha hn ho hg hf hs => ?_, fun s off hr ho hg hs => ?_, fun s src n off lo w ht hn ho h4 hsl hl hf => ?_⟩
  · obtain ⟨t, h1, h2, h3, h4, h5, h6, h7⟩ := lowWordReadLatch_stake hr ha hn ho rfl hg hf hs
    exact ⟨t, h1, h2, h3, h4, h5, h6, fun u o hu hus hm => State.readStake_latched hu (hus.trans h7) hm⟩
  · obtain ⟨t, h1, h2, h3, h4, h5⟩ := lowWordReadLatch_pkg hr ho hg hs
    exact ⟨t, h1, h2, h3, h4, fun u o hu hm => by rw [State.readPkg_fst, hu, h5, readThrough_latched hm]⟩
  · intro k v hb hp
    have haddr := stakeAddr hn ho
    have hq := s.crossedAt_stake_target src hn ho 1 [w.toNat]
    have h8 : (n * 0x100000 + off) % 8 = 4 ∧ (n * 0x100000 + off) % 4 = 0 := by omega
    generalize n * 0x100000 + off = a at *
    have he := exec_highWordWriteCommit s src a w
    have htq : (s.crossedAt src a 1 [w.toNat]).takesFrom src n = true := by rw [s.crossedAt_takesFrom]; exact ht
    rw [if_pos (by rw [haddr.2.1, hsl]; simp [haddr.1, h8.1]), State.regWrite_stake haddr h8.2,
      State.stakeReg_commit htq h4 hsl (by rw [State.locked, s.crossedAt_pkg]; exact hl) hf (by rw [hq]; exact hb) (by rw [hq]; exact hp), hq] at he
    have hst := (State.onStake_stake_same (State.present_of_takesFrom htq) fun k => k.slotStore lo v).trans (by rw [hq])
    refine ⟨_, he, State.onStake_elsewhere _ _ _, hst, fun c hc hlo => ?_⟩
    rw [show ((s.crossedAt src a 1 [w.toNat]).onStake n fun k => k.slotStore lo v).stake n = k.slotStore lo v from hst]
    exact Stake.slotStore_corr hc hlo v

end Sys2Proof.Machine

/-! The supply and the package reset (R403 to R407). -/
namespace Sys2Proof.Machine
set_option Elab.async false

theorem State.elsewhere_trans {s t u : State} {n : Nat} (h : s.elsewhere t n) (h' : t.elsewhere u n) : s.elsewhere u n := by
  obtain ⟨h1, h2, h3, h4⟩ := h
  obtain ⟨g1, g2, g3, g4⟩ := h'
  exact ⟨g1.trans h1, g2.trans h2, g3.trans h3, fun m hm => (g4 m hm).trans (h4 m hm)⟩

/-! The levels of the supply (R403, R405, R407). -/

section
variable {s : State} {n : Nat}

/-- What a supply command tells of a stake's VSUP. -/
def State.vsupKnown (s : State) (n mv : Nat) : State := s.onSup n fun x => { x with vsup := some mv }

/-- A supply command shows its level and then acts on its stake. -/
theorem State.supLevel_onStake (hp : s.present n = true) (mv : Nat) (f : Stake → Stake) :
    (s.vsupKnown n mv).elsewhere ((s.supLevel n mv).onStake n f) n ∧
    ((s.supLevel n mv).onStake n f).stake n = f ((s.stake n).put Reg.SUP_STATUS_VSUP_MV mv) := by
  have hq : ((s.supLevel n mv)).present n = true := (State.onStake_present _ _ _ _).trans hp
  refine ⟨State.elsewhere_trans (State.onStake_elsewhere _ _ _) (State.onStake_elsewhere _ _ _), ?_⟩
  rw [State.onStake_stake_same hq]
  exact congrArg f (State.onStake_stake_same (s := s.vsupKnown n mv) hp _)

theorem State.supLevel_inReset (mv : Nat) : (s.supLevel n mv).inReset = s.inReset := by
  have h : (s.supLevel n mv).pkg = (s.vsupKnown n mv).pkg := (State.onStake_elsewhere _ _ _).1
  unfold State.inReset
  rw [h]
  rfl

theorem exec_supOvervolt (s : State) (n mv : Nat) : exec (.supOvervolt n mv) s = .next ((s.supLevel n mv).onStake n fun k =>
    if mv ≤ 3700 || s.inReset || k.flag Reg.SUP_STATUS_OV then k
    else ((k.putB Reg.SUP_STATUS_OV true).putB Reg.SUP_STATUS_OV_SEEN true).post .supOvervolt 1 [mv]) := rfl

theorem exec_supVana (s : State) (n vana : Nat) : exec (.supVana n vana) s = .next (
    ((s.onSup n fun x => { x with vana := some vana }).supRefresh n).onStake n fun k =>
      if (1104 ≤ vana && vana ≤ 1296) || s.inReset then k
      else k.post .supVana 3 [k.fld Reg.SUP_RAILS_VCORE_MV, k.fld Reg.SUP_RAILS_VAUX_MV, vana]) := rfl

theorem exec_supInhibitEnter (s : State) (n mv progress : Nat) : exec (.supInhibitEnter n mv progress) s = .next (
    if !s.present n then s
    else if 3050 ≤ mv || ((s.supLevel n mv).stake n).flag Reg.SUP_STATUS_INHIBIT then s.supLevel n mv
    else if (s.supLevel n mv).inReset then (s.supLevel n mv).onStake n fun k => k.putB Reg.SUP_STATUS_INHIBIT true
    else
      let t := (s.supLevel n mv).onStake n fun k =>
        (((k.putB Reg.SUP_STATUS_INHIBIT true).putB Reg.SUP_STATUS_INHIBIT_SEEN true).bump Reg.SUP_INHIBIT_CNT).post .supInhibit 0 [mv]
      if n = 0 then t.cfgInhibited progress else t) := rfl

theorem exec_supInhibitExit (s : State) (n mv : Nat) : exec (.supInhibitExit n mv) s = .next (
    if !s.present n then s
    else if mv ≤ 3100 then s.supLevel n mv else (s.supLevel n mv).onStake n fun k => k.putB Reg.SUP_STATUS_INHIBIT false) := rfl

/-- No write and no rewrite of the configuration copies stops where none is under way. -/
theorem State.cfgInhibited_idle {u : State} (h1 : u.pkg.boot.cfgOp = none) (h2 : u.pkg.boot.rwOp = none) (ops : Nat) : u.cfgInhibited ops = u := by
  have hr : u.rewriteStop ops = u := if_pos (by rw [h2]; rfl)
  unfold State.cfgInhibited
  rw [h1]
  exact hr

/-- R403: VSUP above 3.70 V. -/
theorem supOvervolt_of (hp : s.present n = true) {mv : Nat} (hv : 3700 < mv) (hr : s.inReset = false)
    (ho : (s.stake n).flag Reg.SUP_STATUS_OV = false) :
    ∃ t, exec (.supOvervolt n mv) s = .next t ∧ (s.vsupKnown n mv).elsewhere t n ∧
      (t.stake n).fld Reg.SUP_STATUS_VSUP_MV = mv % 65536 ∧ (t.stake n).flag Reg.SUP_STATUS_OV = true ∧
      (t.stake n).flag Reg.SUP_STATUS_OV_SEEN = true ∧ (s.stake n).posted (t.stake n) .supOvervolt 1 [mv] := by
  obtain ⟨hel, hst⟩ := State.supLevel_onStake hp mv fun k => if mv ≤ 3700 || s.inReset || k.flag Reg.SUP_STATUS_OV then k
    else ((k.putB Reg.SUP_STATUS_OV true).putB Reg.SUP_STATUS_OV_SEEN true).post .supOvervolt 1 [mv]
  rw [if_neg (by rw [hr, Stake.flag_put_ne _ _ _ _ (by decide), ho]; simpa using hv)] at hst
  refine ⟨_, exec_supOvervolt s n mv, hel, ?_⟩
  rw [hst, Stake.fld_post _ _ _ _ _, Stake.flag_post _ _ _ _ _, Stake.flag_post _ _ _ _ _, Stake.fld_putB_ne _ _ _ _ (by decide),
    Stake.fld_putB_ne _ _ _ _ (by decide), Stake.fld_put_same _ _ _ (by decide), Stake.flag_putB_ne _ _ _ _ (by decide),
    Stake.flag_putB_same _ _ _ (by decide) rfl, Stake.flag_putB_same _ _ _ (by decide) rfl]
  exact ⟨rfl, rfl, rfl, Stake.Eff.post_posted (l := [.regs]) (m := [Reg.SUP_STATUS]) (.putB (.putB (.put .refl))) _ _ _⟩

/-- R403, R405: a flag of the supply that clears. -/
theorem supFlag_clears (k : Stake) (mv : Nat) (f : Fld) (hf : f.off = Reg.SUP_STATUS ∧ f.lo < 16 ∧ f.w = 1) :
    ((k.put Reg.SUP_STATUS_VSUP_MV mv).putB f false).fld Reg.SUP_STATUS_VSUP_MV = mv % 65536 ∧
    ((k.put Reg.SUP_STATUS_VSUP_MV mv).putB f false).flag f = false ∧
    k.regsKept ((k.put Reg.SUP_STATUS_VSUP_MV mv).putB f false) [Reg.SUP_STATUS] := by
  obtain ⟨h1, h2, h3⟩ := hf
  refine ⟨?_, Stake.flag_putB_same _ _ _ (by omega) h3, .putB (.put .refl List.mem_cons_self) (by rw [h1]; exact List.mem_cons_self)⟩
  rw [Stake.fld_putB_ne _ _ _ _ (.inr (.inl (by rw [h3]; exact h2))), Stake.fld_put_same _ _ _ (by decide)]
  rfl

theorem supOvervoltEnd_of (hp : s.present n = true) {mv : Nat} (hv : mv ≤ 3700) :
    ∃ t, exec (.supOvervoltEnd n mv) s = .next t ∧ (s.vsupKnown n mv).elsewhere t n ∧
      (t.stake n).fld Reg.SUP_STATUS_VSUP_MV = mv % 65536 ∧ (t.stake n).flag Reg.SUP_STATUS_OV = false ∧
      (t.stake n).flag Reg.SUP_STATUS_OV_SEEN = (s.stake n).flag Reg.SUP_STATUS_OV_SEEN ∧
      (s.stake n).regsKept (t.stake n) [Reg.SUP_STATUS] := by
  obtain ⟨hel, hst⟩ := State.supLevel_onStake hp mv fun k => if 3700 < mv then k else k.putB Reg.SUP_STATUS_OV false
  rw [if_neg (Nat.not_lt.2 hv)] at hst
  obtain ⟨h1, h2, h3⟩ := supFlag_clears (s.stake n) mv Reg.SUP_STATUS_OV (by decide)
  refine ⟨_, rfl, hel, ?_⟩
  rw [hst]
  exact ⟨h1, h2, by rw [Stake.flag_putB_ne _ _ _ _ (by decide), Stake.flag_put_ne _ _ _ _ (by decide)], h3⟩

/-- R405: an inhibit begins outside reset, with no write of the configuration copies under way on stake 0. -/
theorem supInhibitEnter_of (hp : s.present n = true) {mv : Nat} (progress : Nat)
    (hc : (s.pkg.boot.cfgOp = none ∧ s.pkg.boot.rwOp = none) ∨ n ≠ 0) (hv : mv < 3050) (hr : s.inReset = false)
    (hi : (s.stake n).flag Reg.SUP_STATUS_INHIBIT = false) :
    ∃ t, exec (.supInhibitEnter n mv progress) s = .next t ∧ (s.vsupKnown n mv).elsewhere t n ∧
      (t.stake n).fld Reg.SUP_STATUS_VSUP_MV = mv % 65536 ∧ (t.stake n).flag Reg.SUP_STATUS_INHIBIT = true ∧
      (t.stake n).flag Reg.SUP_STATUS_INHIBIT_SEEN = true ∧
      (t.stake n).rd Reg.SUP_INHIBIT_CNT = satAdd 16 ((s.stake n).rd Reg.SUP_INHIBIT_CNT) 1 ∧
      (s.stake n).posted (t.stake n) .supInhibit 0 [mv] ∧ (s.stake n).regsKept (t.stake n) [Reg.SUP_STATUS, Reg.SUP_INHIBIT_CNT] := by
  obtain ⟨hel, hst⟩ := State.supLevel_onStake hp mv fun k =>
    (((k.putB Reg.SUP_STATUS_INHIBIT true).putB Reg.SUP_STATUS_INHIBIT_SEEN true).bump Reg.SUP_INHIBIT_CNT).post .supInhibit 0 [mv]
  have hl : ((s.supLevel n mv).stake n) = (s.stake n).put Reg.SUP_STATUS_VSUP_MV mv := State.onStake_stake_same (s := s.vsupKnown n mv) hp _
  have he := exec_supInhibitEnter s n mv progress
  rw [hp, if_neg (by decide), if_neg (by rw [hl, Stake.flag_put_ne _ _ _ _ (by decide), hi]; simpa using hv), State.supLevel_inReset, hr,
    if_neg Bool.false_ne_true] at he
  refine ⟨_, he, ?_⟩
  have e : (let t := (s.supLevel n mv).onStake n fun k =>
        (((k.putB Reg.SUP_STATUS_INHIBIT true).putB Reg.SUP_STATUS_INHIBIT_SEEN true).bump Reg.SUP_INHIBIT_CNT).post .supInhibit 0 [mv]
      if n = 0 then t.cfgInhibited progress else t) = (s.supLevel n mv).onStake n fun k =>
        (((k.putB Reg.SUP_STATUS_INHIBIT true).putB Reg.SUP_STATUS_INHIBIT_SEEN true).bump Reg.SUP_INHIBIT_CNT).post .supInhibit 0 [mv] := by
    rcases hc with ⟨h1, h2⟩ | h
    · exact (congrArg (ite (n = 0) · _) (State.cfgInhibited_idle (by rw [hel.1]; exact h1) (by rw [hel.1]; exact h2) _)).trans (ite_self _)
    · exact if_neg h
  rw [e]
  refine ⟨hel, ?_⟩
  rw [hst]
  have h0 : Stake.Eff [.regs] [Reg.SUP_STATUS] (s.stake n)
      ((((s.stake n).put Reg.SUP_STATUS_VSUP_MV mv).putB Reg.SUP_STATUS_INHIBIT true).putB Reg.SUP_STATUS_INHIBIT_SEEN true) :=
    .putB (.putB (.put .refl))
  have h1 : Stake.Eff [.regs] [Reg.SUP_STATUS, Reg.SUP_INHIBIT_CNT] (s.stake n)
      (((((s.stake n).put Reg.SUP_STATUS_VSUP_MV mv).putB Reg.SUP_STATUS_INHIBIT true).putB Reg.SUP_STATUS_INHIBIT_SEEN true).bump
        Reg.SUP_INHIBIT_CNT) := .bump (.putB (.putB (.put .refl)))
  refine ⟨?_, ?_, ?_, ?_, h1.post_posted _ _ _, .post_zero h1.regs⟩
  · rw [Stake.fld_post_zero, Stake.fld_bump_ne _ _ _ (by decide), Stake.fld_putB_ne _ _ _ _ (by decide), Stake.fld_putB_ne _ _ _ _ (by decide),
      Stake.fld_put_same _ _ _ (by decide)]
    rfl
  · rw [Stake.flag_post _ _ _ _ _, Stake.flag, Stake.fld_bump_ne _ _ _ (by decide), ← Stake.flag, Stake.flag_putB_ne _ _ _ _ (by decide),
      Stake.flag_putB_same _ _ _ (by decide) rfl]
  · rw [Stake.flag_post _ _ _ _ _, Stake.flag, Stake.fld_bump_ne _ _ _ (by decide), ← Stake.flag, Stake.flag_putB_same _ _ _ (by decide) rfl]
  · rw [Stake.rd_post _ _ _ _ _, Stake.rd_bump_same, h0.regs _ (by decide)]

/-- R407: in reset the level alone is taken. -/
theorem supInhibitEnter_inReset (hp : s.present n = true) {mv : Nat} (progress : Nat) (hv : mv < 3050) (hr : s.inReset = true) :
    ∃ t, exec (.supInhibitEnter n mv progress) s = .next t ∧ (s.vsupKnown n mv).elsewhere t n ∧ (t.stake n).flag Reg.SUP_STATUS_INHIBIT = true ∧
      (t.stake n).out = (s.stake n).out ∧ (s.stake n).regsKept (t.stake n) [Reg.SUP_STATUS] := by
  have hl : ((s.supLevel n mv).stake n) = (s.stake n).put Reg.SUP_STATUS_VSUP_MV mv := State.onStake_stake_same (s := s.vsupKnown n mv) hp _
  have he := exec_supInhibitEnter s n mv progress
  rw [hp, if_neg (by decide), State.supLevel_inReset, hr] at he
  by_cases hi : (s.stake n).flag Reg.SUP_STATUS_INHIBIT = true
  · rw [if_pos (by rw [hl, Stake.flag_put_ne _ _ _ _ (by decide), hi, Bool.or_true])] at he
    refine ⟨_, he, State.onStake_elsewhere _ _ _, ?_⟩
    rw [hl, Stake.flag_put_ne _ _ _ _ (by decide)]
    exact ⟨hi, rfl, .put .refl List.mem_cons_self⟩
  · obtain ⟨hel, hst⟩ := State.supLevel_onStake hp mv fun k => k.putB Reg.SUP_STATUS_INHIBIT true
    rw [if_neg (by rw [hl, Stake.flag_put_ne _ _ _ _ (by decide), Bool.eq_false_of_not_eq_true hi]; simpa using hv), if_pos rfl] at he
    refine ⟨_, he, hel, ?_⟩
    rw [hst]
    exact ⟨Stake.flag_putB_same _ _ _ (by decide) rfl, rfl, .putB (.put .refl List.mem_cons_self) List.mem_cons_self⟩

theorem supInhibitExit_of (hp : s.present n = true) {mv : Nat} (hv : 3100 < mv) :
    ∃ t, exec (.supInhibitExit n mv) s = .next t ∧ (s.vsupKnown n mv).elsewhere t n ∧
      (t.stake n).fld Reg.SUP_STATUS_VSUP_MV = mv % 65536 ∧ (t.stake n).flag Reg.SUP_STATUS_INHIBIT = false ∧
      (s.stake n).regsKept (t.stake n) [Reg.SUP_STATUS] := by
  obtain ⟨hel, hst⟩ := State.supLevel_onStake hp mv fun k => k.putB Reg.SUP_STATUS_INHIBIT false
  have he := exec_supInhibitExit s n mv
  rw [hp, if_neg (by decide), if_neg (Nat.not_le.2 hv)] at he
  refine ⟨_, he, hel, ?_⟩
  rw [hst]
  exact supFlag_clears (s.stake n) mv Reg.SUP_STATUS_INHIBIT (by decide)

/-- R404: VANA outside its window. -/
theorem supVana_of (hp : s.present n = true) (hl : n < s.pkg.sup.length) (hr : s.inReset = false) {vana : Nat} (hv : vana < 1104 ∨ 1296 < vana) :
    ∃ t, exec (.supVana n vana) s = .next t ∧ (s.onSup n fun x => { x with vana := some vana }).elsewhere t n ∧
      (t.stake n).fld Reg.SUP_RAILS_VANA_MV = vana % 2048 ∧ ∃ a b, (s.stake n).posted (t.stake n) .supVana 3 [a, b, vana] := by
  have hx : ((s.onSup n fun x => { x with vana := some vana }).supOf n).vana = some vana := by
    simp only [State.supOf, State.onSup_pkg, updAt, nth, List.getD_eq_getElem?_getD, List.getElem?_modify, List.getElem?_eq_getElem hl]
    rfl
  let u := s.onSup n fun x => { x with vana := some vana }
  refine ⟨_, exec_supVana s n vana, State.elsewhere_trans (State.onStake_elsewhere u n _) (State.onStake_elsewhere (u.supRefresh n) n _), ?_⟩
  rw [State.onStake_stake_same (s := u.supRefresh n) ((State.onStake_present u _ _ _).trans hp)]
  have hf : ((u.supRefresh n).stake n).fld Reg.SUP_RAILS_VANA_MV = vana % 2048 := by
    unfold State.supRefresh
    rw [State.onStake_stake_same (s := u) hp, hx]
    exact Stake.fld_put_same _ _ _ (by decide)
  have he : Stake.Eff [.regs] [Reg.SUP_STATUS, Reg.SUP_RAILS] (s.stake n) ((u.supRefresh n).stake n) := by
    unfold State.supRefresh
    rw [State.onStake_stake_same (s := u) hp]
    exact .put (.put (.put (.put .refl)))
  generalize (u.supRefresh n).stake n = k at *
  rw [if_neg (by rw [hr]; simpa using fun h => hv.resolve_left (Nat.not_lt.2 h)), Stake.fld_post _ _ _ _ _]
  exact ⟨hf, _, _, he.post_posted _ _ _⟩

end

end Sys2Proof.Machine

/-! The package reset (R333, R406, R423). -/
namespace Sys2Proof.Machine
set_option Elab.async false

section
variable {s : State} {n : Nat}

theorem Pkg.fromOtp_only (p : Pkg) (part : Part) : Pkg.Only [.regs] p (p.fromOtp part) := by
  unfold Pkg.fromOtp
  extract_lets view q r
  have hv : ∀ {p q : Pkg} (reg a words : Nat), Pkg.Only [.regs] p q → Pkg.Only [.regs] p (view q reg a words) :=
    fun reg a words h => List.foldlRecOn (motive := Pkg.Only [.regs] _) _ _ h fun _ hb _ _ => .wr hb
  exact hv _ _ _ (hv _ _ _ (hv _ _ _ (.putB (.put (.put .refl)))))

/-- What one-time memory and the eNVM hold after a package reset. -/
theorem State.packageReset_of (u : State) (ops : Nat) :
    (u.packageReset ops).part = u.part ∧ (u.packageReset ops).pending = u.pending ∧ (u.packageReset ops).pkg.host.writes = u.pkg.host.writes ∧
    (u.packageReset ops).pkg.nv = (match u.pkg.boot.otpUnderWay with | some b => (u.cfgPartial ops).blow b | none => u.cfgPartial ops) ∧
    (u.packageReset ops).pkg.evq = [] ∧ (u.packageReset ops).pkg.boot.phase = .held ∧
    ∀ m, m < 8 → (u.packageReset ops).stake m = { (Stake.reset m).putB Reg.SUP_STATUS_INHIBIT ((u.stake m).flag Reg.SUP_STATUS_INHIBIT) with
      ringN := u.part.stakes, fresh := (u.stake m).fresh } := by
  unfold State.packageReset
  extract_lets -underBinder +onlyGivenNames nv nv2 pkg
  have h : Pkg.Only [.regs] pkg (pkg.fromOtp u.part) := pkg.fromOtp_only u.part
  refine ⟨rfl, rfl, h.writes, h.nv, h.evq, (congrArg BootSt.phase h.boot).trans rfl, fun m hm => ?_⟩
  simp only [State.stake, List.getD_eq_getElem?_getD, List.getElem?_map, List.getElem?_range hm]
  rfl

/-- R404, R406: a brown-out and a rail fault both reset the package. -/
theorem packageReset_runs (hp : s.present n = true) {progress : Nat} {c : Instr} (hc : (∃ mv, mv < 2850 ∧ c = Instr.brownOut n mv progress) ∨
    (∃ va vc, (va < 1656 ∨ 1944 < va ∨ vc < 690 ∨ 810 < vc) ∧ c = Instr.railFault n va vc progress)) :
    ∃ u : State, exec c s = .next (u.packageReset progress) ∧ u.part = s.part ∧ u.pending = s.pending ∧ u.stakes = s.stakes ∧
      u.pkg.host = s.pkg.host ∧ u.pkg.boot.otpUnderWay = s.pkg.boot.otpUnderWay ∧ u.cfgPartial progress = s.cfgPartial progress := by
  obtain ⟨mv, hv, rfl⟩ | ⟨va, vc, hv, rfl⟩ := hc
  · have he : exec (.brownOut n mv progress) s = .next (if !s.present n then s else if 2850 ≤ mv then s.vsupKnown n mv
        else ((s.vsupKnown n mv).onBoot fun b => { b with vsupUp := false }).packageReset progress) := rfl
    rw [hp, if_neg (by decide), if_neg (Nat.not_le.2 hv)] at he
    exact ⟨_, he, rfl, rfl, rfl, rfl, rfl, rfl⟩
  · have he : exec (.railFault n va vc progress) s = .next (if !s.present n || !(va < 1656 || 1944 < va || vc < 690 || 810 < vc) then s
        else (s.onBoot fun b => { b with vsupUp := s.vsupHolds }).packageReset progress) := rfl
    rw [hp, if_neg (by simp; omega)] at he
    exact ⟨_, he, rfl, rfl, rfl, rfl, rfl, rfl⟩

theorem packageReset_clause (hp : s.present n = true) {progress : Nat} {c : Instr} (hc : (∃ mv, mv < 2850 ∧ c = Instr.brownOut n mv progress) ∨
    (∃ va vc, (va < 1656 ∨ 1944 < va ∨ vc < 690 ∨ 810 < vc) ∧ c = Instr.railFault n va vc progress)) :
    ∃ t, exec c s = .next t ∧ t.part = s.part ∧ t.pending = s.pending ∧ t.pkg.host.writes = s.pkg.host.writes ∧
      t.pkg.nv = (match s.pkg.boot.otpUnderWay with | some b => (s.cfgPartial progress).blow b | none => s.cfgPartial progress) ∧ t.pkg.evq = [] ∧ t.pkg.boot.phase = .held ∧
      ∀ m, m < 8 → t.stake m = { (Stake.reset m).putB Reg.SUP_STATUS_INHIBIT ((s.stake m).flag Reg.SUP_STATUS_INHIBIT) with
        ringN := s.part.stakes, fresh := (s.stake m).fresh } := by
  obtain ⟨u, he, u1, u2, u3, u4, u5, u6⟩ := packageReset_runs hp hc
  obtain ⟨h1, h2, h3, h4, h5, h6, h7⟩ := u.packageReset_of progress
  have hst : u.stake = s.stake := by unfold State.stake; rw [u3]
  rw [u1, hst] at h7
  rw [u5, u6] at h4
  exact ⟨_, he, h1.trans u1, h2.trans u2, h3.trans (by rw [u4]), h4, h5, h6, h7⟩

end

end Sys2Proof.Machine

/-! Temperatures: a sample, the grace timer, the fall-back at 175 °C (R413 to R420). -/
namespace Sys2Proof.Machine
set_option Elab.async false

section
variable {k : Stake} {i : Nat}

/-- What the evaluation of a temperature changes, and the registers it writes beside the sensor's own. -/
def thmParts : List StakePart := [.regs, .out, .prt, .fe, .wal, .thm]
def thmRegs : List Nat := Reg.THM_STATUS :: axisRegs

theorem Stake.toPartner_only (k : Stake) (tag : Nat) (w : List Nat) : Stake.Only [.wal] k (k.toPartner tag w) := .sendCell .refl

theorem Stake.thmSync_eff (k : Stake) (mask : Nat) : Stake.Eff [.regs, .out, .fe, .wal] thmRegs k (k.thmSync mask) := by
  unfold Stake.thmSync
  extract_lets l v was q
  have h : Stake.Eff [.regs, .out, .fe, .wal] thmRegs k q := .updDerate (.put (.put .refl))
  exact .ite (h.of_only (q.toPartner_only _ _)) h

/-- R418: the sensors whose limit is enforced, after a change of them. -/
theorem Stake.thmSync_enforced (k : Stake) {mask : Nat} (hm : mask < 64) : (k.thmSync mask).fld Reg.THM_STATUS_ENFORCED = mask := by
  unfold Stake.thmSync
  extract_lets l v was q
  have h : q.fld Reg.THM_STATUS_ENFORCED = mask := by
    refine ((Stake.updDerate_regsKept _).fld (by decide)).trans ?_
    rw [Stake.fld_put_ne _ _ _ _ (by decide), Stake.fld_put_same _ _ _ (by decide)]
    exact Nat.mod_eq_of_lt hm
  split
  · exact ((q.toPartner_only _ _).fld _).trans h
  · exact h

theorem Stake.thmEnforce_eff (k : Stake) (i : Nat) : Stake.Eff thmParts thmRegs k (k.thmEnforce i) :=
  .post_zero (.step (.onThm .refl) (Stake.thmSync_eff ..))

theorem Stake.thmRelease_eff (k : Stake) (i : Nat) : Stake.Eff thmParts thmRegs k (k.thmRelease i) := by
  have h : Stake.Eff thmParts thmRegs k ((k.onThm i fun x => { x with grace := none }).thmSync (k.fld Reg.THM_STATUS_ENFORCED &&& (63 - 2 ^ i))) :=
    .step (.onThm .refl) (Stake.thmSync_eff ..)
  exact .ite (.post_zero h) h

/-- R418: a limit comes into force. -/
theorem Stake.thmEnforce_of (k : Stake) (hi : i < 6) (hl : i < k.thm.length) : (k.thmEnforce i).enforced i = true ∧
    ((k.thmEnforce i).thmSt i).grace = none ∧ k.posted (k.thmEnforce i) .thmLimit 0 [i, (k.thmSt i).limit] := by
  have hm : k.fld Reg.THM_STATUS_ENFORCED ||| 2 ^ i < 2 ^ 6 := Nat.or_lt_two_pow (k.fld_lt _) (Nat.pow_lt_pow_right (by decide) hi)
  have h1 : Stake.Eff thmParts thmRegs k (k.onThm i fun x => { x with grace := none }) := .onThm .refl
  have e1 : ((k.onThm i fun x => { x with grace := none }).thmSt i).grace = none := by
    simp only [Stake.thmSt, Stake.onThm, updAt, nth, List.getD_eq_getElem?_getD, List.getElem?_modify, List.getElem?_eq_getElem hl]
    rfl
  have h2 := (k.onThm i fun x => { x with grace := none }).thmSync_eff (k.fld Reg.THM_STATUS_ENFORCED ||| 2 ^ i)
  have e2 := (k.onThm i fun x => { x with grace := none }).thmSync_enforced hm
  unfold Stake.thmEnforce
  refine ⟨?_, ?_, (h1.step h2).post_posted _ _ _⟩
  · rw [Stake.enforced, Stake.fld_post_zero, e2, Nat.testBit_or, Nat.testBit_two_pow_self, Bool.or_true]
  · rw [Stake.thmSt, (Stake.Only.post_only _ _ _ _).thm, h2.only.thm]
    exact e1

theorem Stake.thmGrace_of {at_ : Nat} (hg : (k.thmSt i).grace = some at_) (ht : at_ ≤ k.now) (he : k.flag Reg.THM_CTRL_EN = true) :
    k.thmGrace i = k.thmEnforce i := by
  unfold Stake.thmGrace
  rw [hg]
  exact if_pos (by simpa [he] using ht)

/-- R415: a sample of the die, on the slow grid. -/
theorem Stake.thmSample_die {x : Int} (he : k.flag Reg.THM_CTRL_EN = true) (hs : k.flag (Reg.THM_SENS_CFG_EN 4) = true)
    (ht : k.ang.tick.toNat % 4000000 = 0) (h1 : -32768 ≤ x) (h2 : x ≤ 32767) : k.thmSample 4 (.die x) = k.thmEval 4 x := by
  have hev : k.ang.tick.toNat % (if k.flag (Reg.THM_SENS_READ_FAST 4) then 400000 else 4000000) = 0 := by
    split <;> omega
  have hr : k.thmReading 4 (.die x) = some x := by
    simp only [Stake.thmReading, clampI, Option.map_some, min_eq_right h2, max_eq_right h1]
  unfold Stake.thmSample
  rw [hr]
  exact if_neg (by simp [he, hs, hev])

/-- R414: the reading of a sensor and its fault are shown. -/
theorem Stake.thmEval_four (k : Stake) {x : Int} (h1 : -32768 ≤ x) (h2 : x ≤ 32767) :
    (k.thmEval 4 x).sfld (Reg.THM_SENS_READ_TEMP 4) = x ∧ (k.thmEval 4 x).flag (Reg.THM_SENS_READ_BROKEN 4) = (x = 32767 : Bool) := by
  unfold Stake.thmEval
  extract_lets -underBinder +onlyGivenNames broken wasBroken y hyst throttle shut thr warn k1 k2 k3 k4 k5 k6 g q k7
  have e2 : k2.sfld (Reg.THM_SENS_READ_TEMP 4) = x ∧ k2.flag (Reg.THM_SENS_READ_BROKEN 4) = (x = 32767 : Bool) := by
    refine ⟨?_, ?_⟩
    · rw [Stake.sfld, Stake.fld_put_ne _ _ _ _ (by decide), Stake.fld_putB_ne _ _ _ _ (by decide), Stake.fld_putB_ne _ _ _ _ (by decide)]
      exact Stake.sfld_putI_same _ _ _ (by decide) (by decide) h1 (Int.lt_add_one_of_le h2)
    · rw [Stake.flag_put_ne _ _ _ _ (by decide), Stake.flag_putB_ne _ _ _ _ (by decide), Stake.flag_putB_same _ _ _ (by decide) rfl]
  clear_value k2
  have h4 : Stake.Eff thmParts thmRegs k2 k4 := .ite (.step (.onThm .refl) (Stake.thmSync_eff ..)) (.onThm .refl)
  have h5 : Stake.Eff thmParts thmRegs k2 k5 := .ite (.post_zero h4) h4
  have h6 : Stake.Eff thmParts thmRegs k2 k6 := .ite (.post h5) h5
  have hthr : Stake.Eff thmParts thmRegs k2 q := .post_zero (.onThm h6)
  have h7 : Stake.Eff thmParts thmRegs k2 k7 :=
    .ite (.ite (hthr.step (Stake.thmEnforce_eff ..)) hthr) (.ite (h6.step (Stake.thmRelease_eff ..)) h6)
  clear_value k7
  have h8 : Stake.Eff thmParts thmRegs k2 (if warn ≠ y.warn then k7.post .thmWarn 0 [4, (x % 65536).toNat] else k7) := .ite (.post_zero h7) h7
  have hd : (if warn ≠ y.warn then k7.post .thmWarn 0 [4, (x % 65536).toNat] else k7).sfld (Reg.THM_SENS_READ_TEMP 4) =
      k2.sfld (Reg.THM_SENS_READ_TEMP 4) := congrArg (signOf 16) (h8.regs.fld (by decide))
  exact ⟨hd.trans e2.1, (h8.regs.flag (by decide)).trans e2.2⟩

end

end Sys2Proof.Machine

/-! The clock monitors (R410 to R412). -/
namespace Sys2Proof.Machine
set_option Elab.async false

section
variable {k j : Stake} {m : Nat}

/-- The registers of the channels that a modulator clock's fault sets filling. -/
def fillRegs : List Nat := Reg.SNS_STATUS :: (List.range 16).map Reg.SNS_CH_STATUS

theorem Stake.mem_chansOn {c : Nat} (h : c ∈ k.chansOn m) : c < 16 := by
  simp only [Stake.chansOn, List.mem_filter, List.mem_range] at h
  exact h.1

theorem Stake.Eff.foldl_mem {α : Type} {l : List StakePart} {r : List Nat} {f : Stake → α → Stake} {x : List α} (h : Stake.Eff l r k j)
    (hf : ∀ j, ∀ a ∈ x, Stake.Eff l r k j → Stake.Eff l r k (f j a)) : Stake.Eff l r k (x.foldl f j) :=
  List.foldlRecOn (motive := Stake.Eff l r k) x f h fun j hj a ha => hf j a ha hj

/-- R412: the fault of a modulator clock output. -/
theorem Stake.mclkFault_of (hm : m < 4) (he : k.inForceB (Reg.SNS_MCLK_EN m) = true)
    (hb : (k.fld Reg.CLK_STATUS_MCLK_FAULT).testBit m = false) :
    (k.mclkFault m).fld Reg.CLK_STATUS_MCLK_FAULT = k.fld Reg.CLK_STATUS_MCLK_FAULT ||| 2 ^ m ∧
    (k.mclkFault m).rd Reg.CLK_MCLK_FAULT_CNT = satAdd 16 (k.rd Reg.CLK_MCLK_FAULT_CNT) 1 ∧
    k.posted (k.mclkFault m) .clkMclkFault (k.fld Reg.CLK_CFG_MCLK_CLASS) [m] := by
  have hlt : k.fld Reg.CLK_STATUS_MCLK_FAULT ||| 2 ^ m < 2 ^ 4 := Nat.or_lt_two_pow (k.fld_lt _) (Nat.pow_lt_pow_right (by decide) hm)
  unfold Stake.mclkFault
  extract_lets -underBinder +onlyGivenNames f q1 q2
  rw [if_neg (by rw [he, hb]; simpa using hm)]
  have e1 : q1.fld f = k.fld f ||| 2 ^ m := (Stake.fld_put_same _ _ _ (by decide)).trans (Nat.mod_eq_of_lt hlt)
  have h1 : Stake.Eff [.regs] [Reg.CLK_STATUS] k q1 := .put .refl
  clear_value q1
  have h2 : Stake.Eff [.regs, .sns] fillRegs q1 q2 := .foldl_mem .refl fun j c hc h => by
    have h3 : Stake.Eff [.regs, .sns] fillRegs q1 (j.putB (Reg.SNS_CH_STATUS_FILLING c) true) :=
      h.putB (by decide) (by have := Stake.mem_chansOn hc; clear * - this; revert c; decide) (by
        have := Stake.mem_chansOn hc; clear * - this; revert c; decide)
    exact .onSns (.put h3)
  clear_value q2
  have h4 : Stake.Eff [.regs, .sns] (Reg.CLK_STATUS :: fillRegs) k q2 := (h1.mono).trans h2.mono
  have hb4 : Stake.Eff [.regs, .sns] (Reg.CLK_MCLK_FAULT_CNT :: Reg.CLK_STATUS :: fillRegs) k (q2.bump Reg.CLK_MCLK_FAULT_CNT) :=
    .bump h4.mono
  rw [h4.regs.fld (f := Reg.CLK_CFG_MCLK_CLASS) (by decide)]
  refine ⟨?_, ?_, hb4.post_posted _ _ _⟩
  · rw [Stake.fld_post _ _ _ _ _, Stake.fld_bump_ne _ _ _ (by decide), h2.regs.fld (by decide), e1]
  · rw [Stake.rd_post _ _ _ _ _, Stake.rd_bump_same, h4.regs _ (by decide)]

/-- R412: its end. -/
theorem Stake.mclkEnd_of (hb : (k.fld Reg.CLK_STATUS_MCLK_FAULT).testBit m = true) :
    (k.mclkEnd m).fld Reg.CLK_STATUS_MCLK_FAULT = k.fld Reg.CLK_STATUS_MCLK_FAULT &&& (15 - 2 ^ m) ∧
    k.regsKept (k.mclkEnd m) [Reg.CLK_STATUS] := by
  unfold Stake.mclkEnd
  extract_lets -underBinder +onlyGivenNames f q1
  rw [if_neg (by rw [hb]; decide)]
  have e1 : q1.fld f = k.fld f &&& (15 - 2 ^ m) :=
    (Stake.fld_put_same _ _ _ (by decide)).trans (Nat.mod_eq_of_lt (Nat.lt_of_le_of_lt Nat.and_le_left (k.fld_lt _)))
  have h1 : k.regsKept q1 [Reg.CLK_STATUS] := .put .refl List.mem_cons_self
  clear_value q1
  have h2 : q1.regsKept ((q1.chansOn m).foldl (fun q c => q.onChan c fun x => { x with clkFault := false, fillFrom := q.now }) q1) [] :=
    .foldl (fun _ _ h => .onChan h) _ .refl
  exact ⟨(h2.fld (by decide)).trans e1, h1.trans (h2.mono (List.nil_subset _))⟩

/-- R411: the reference is lost, or the PLL's lock. -/
theorem Stake.refLoss_of (k : Stake) (b : Bool) :
    let j := (((k.putB Reg.CLK_STATUS_REF_OK b).putB Reg.CLK_STATUS_PLL_LOCK false).putB Reg.CLK_STATUS_REF_LOST true).post .clkRefLoss 3 []
    j.flag Reg.CLK_STATUS_REF_OK = b ∧ j.flag Reg.CLK_STATUS_PLL_LOCK = false ∧ j.flag Reg.CLK_STATUS_REF_LOST = true ∧
      k.posted j .clkRefLoss 3 [] := by
  intro j
  refine ⟨?_, ?_, ?_, Stake.Eff.post_posted (l := [.regs]) (m := [Reg.CLK_STATUS]) (.putB (.putB (.putB .refl))) _ _ _⟩
  · rw [Stake.flag_post _ _ _ _ _, Stake.flag_putB_ne _ _ _ _ (by decide), Stake.flag_putB_ne _ _ _ _ (by decide),
      Stake.flag_putB_same _ _ _ (by decide) rfl]
  · rw [Stake.flag_post _ _ _ _ _, Stake.flag_putB_ne _ _ _ _ (by decide), Stake.flag_putB_same _ _ _ (by decide) rfl]
  · rw [Stake.flag_post _ _ _ _ _, Stake.flag_putB_same _ _ _ (by decide) rfl]

/-- R420: the fall-back at 175 °C. -/
theorem Stake.die175_of (k : Stake) :
    let j := ((k.putB Reg.THM_STATUS_DIE175 true).trip 8).post .thmDie175 4 []
    j.flag Reg.THM_STATUS_DIE175 = true ∧ j.prt.trips = k.prt.trips ++ [⟨8, none, k.now⟩] ∧ k.posted j .thmDie175 4 [] := by
  intro j
  have h : Stake.Only [.regs, .prt] k ((k.putB Reg.THM_STATUS_DIE175 true).trip 8) := .trip (.putB .refl)
  have ht : ((k.putB Reg.THM_STATUS_DIE175 true).trip 8).prt.trips = k.prt.trips ++ [⟨8, none, k.now⟩] := rfl
  have hf : ((k.putB Reg.THM_STATUS_DIE175 true).trip 8).flag Reg.THM_STATUS_DIE175 = true :=
    (Stake.flag_congr rfl rfl _).trans (Stake.flag_putB_same k Reg.THM_STATUS_DIE175 true (by decide) rfl)
  exact ⟨(Stake.flag_post _ _ _ _ _).trans hf, (Stake.post_trips _ _ _ _).trans ht, h.post_posted _ _ _⟩

end

end Sys2Proof.Machine

/-! The core clock is lost: the stake's links go (R19, R25, R31, R410). -/
namespace Sys2Proof.Machine
set_option Elab.async false

/-! What trips nothing. -/

/-- The trips of the sequencer are as before. -/
def Stake.tripsKept (k j : Stake) : Prop := j.prt.trips = k.prt.trips

namespace Stake.tripsKept
variable {k j i : Stake}

theorem refl : k.tripsKept k := rfl
theorem trans (h : k.tripsKept j) (h' : j.tripsKept i) : k.tripsKept i := Eq.trans h' h
theorem of_only {l : List StakePart} (h : k.tripsKept j) (h' : Stake.Only l j i) (hl : StakePart.prt ∉ l := by decide) : k.tripsKept i :=
  h.trans (congrArg PrtState.trips (h'.prt hl))
theorem ite {c : Prop} [Decidable c] (h : k.tripsKept j) (h' : k.tripsKept i) : k.tripsKept (if c then j else i) := by split <;> assumption
theorem post (h : k.tripsKept j) {e : Ev} {c : Nat} {v : List Nat} : k.tripsKept (j.post e c v) := h.trans (j.post_trips e c v)

theorem setEpoch (h : k.tripsKept j) {st : Nat} : k.tripsKept (j.setEpoch st) := by
  have hp : k.tripsKept (j.put Reg.MOD_STATUS_EPOCH_STATE st) := h
  exact .ite hp.post (.ite hp.post hp)

theorem restartCarrier (h : k.tripsKept j) {a : Word48} {v : Bool} : k.tripsKept (j.restartCarrier a v) := by
  unfold Stake.restartCarrier
  extract_lets q1 q2
  have h1 : k.tripsKept q1 := h
  have h2 : k.tripsKept q2 := .ite h1.setEpoch h1
  exact h2.of_only (.addTriggers (l := [.regs, .modu]) .refl)

theorem forceCarrier (h : k.tripsKept j) {cls cause : Nat} : k.tripsKept (j.forceCarrier cls cause) := by
  unfold Stake.forceCarrier
  extract_lets fb f d k1 k2 k3 k4
  have h1 : Stake.Only [.modu] j k1 := .foldl (fun _ _ h => .dropCommitted h) _ .refl
  have h2 : Stake.Only [.modu, .regs] j k1 := h1.mono (by decide)
  have h3 : Stake.Only [.modu, .regs] j k3 := .put (.put (.onMod h2))
  clear_value k3
  have h4 : k.tripsKept k4 := (h.of_only h3).restartCarrier
  clear_value k4
  have h5 : Stake.Only [.regs] k4 (((k4.put Reg.MOD_STATUS_SLOT fb).put Reg.MOD_STATUS_KIND 0).putB Reg.MOD_STATUS_SEAM_PENDING false) :=
    .putB (.put (.put .refl))
  exact (h4.of_only h5).post

theorem syncAbort (h : k.tripsKept j) : k.tripsKept j.syncAbort := .ite h (.forceCarrier h)
theorem takeAltSrc (h : k.tripsKept j) : k.tripsKept j.takeAltSrc := by
  have h1 : k.tripsKept ((j.put (Reg.ANG_CLK_CTRL_SRC 0) (j.fld Reg.FLD_PAIR_CTRL_ALT_SRC)).onClock 0 fun c =>
    { c with valid := false, mail := [], next := none }) := h
  exact .ite h1.syncAbort h1
theorem survive (h : k.tripsKept j) : k.tripsKept j.survive := by
  unfold Stake.survive
  extract_lets q
  have h1 : k.tripsKept q := .ite h h.takeAltSrc
  have h2 : Stake.Only [.modu, .regs, .pair] q (((q.put Reg.FLD_PAIR_STATUS_STATE 3).leaveSwitching).onPair fun p => { p with holdAt := some q.now }) :=
    .onPair (.leaveSwitching (.put .refl))
  exact .ite (h1.of_only h2) (h1.of_only (.updDerate (l := [.regs, .out, .fe]) (.put .refl)))
theorem yieldPair (h : k.tripsKept j) {own : Bool} : k.tripsKept (j.yieldPair own) := .ite h h
theorem detectBreak (h : k.tripsKept j) {cause : Nat} : k.tripsKept (j.detectBreak cause) := by
  have hb : k.tripsKept (j.breakRow cause) := by
    unfold Stake.breakRow
    extract_lets consec other otherSt survivor q q2
    have hq : k.tripsKept q := h
    have h2 : k.tripsKept q2 := .ite hq.survive hq.yieldPair
    exact .ite h h2.post
  exact .ite h (hb.of_only ((j.breakRow cause).toPartner_only _ _))

end Stake.tripsKept

/-! A link that goes out of service. -/

/-- The registers that a link's going writes. -/
def linkRegs : List Nat := Reg.WAL_STATUS :: breakRegs

/-- What a link's going leaves of a stake: no trip comes, no record is lost, and no direction comes into service. -/
structure Stake.LinkEff (k j : Stake) : Prop where
  eff : Stake.Eff breakParts linkRegs k j
  trips : k.tripsKept j
  up : ∀ d, k.dirUp d = false → j.dirUp d = false

namespace Stake.LinkEff
variable {k j i : Stake}

theorem refl : LinkEff k k := ⟨.refl, .refl, fun _ h => h⟩
theorem trans (h : LinkEff k j) (h' : LinkEff j i) : LinkEff k i := ⟨h.eff.trans h'.eff, h.trips.trans h'.trips, fun d hd => h'.up d (h.up d hd)⟩
theorem ite {c : Prop} [Decidable c] (h : LinkEff k j) (h' : LinkEff k i) : LinkEff k (if c then j else i) := by split <;> assumption

/-- The fields of the two directions' service. -/
theorem dirUp_eq (k : Stake) (d : Dir) : k.dirUp d = k.flag (upField d) := by cases d <;> rfl

/-- A change of other fields of the wale's status. -/
theorem putOther (h : LinkEff k j) {f : Fld} {v : Nat} (hf : f.off = Reg.WAL_STATUS ∧ 2 ≤ f.lo := by decide) : LinkEff k (j.put f v) := by
  obtain ⟨ho, hlo⟩ := hf
  refine ⟨h.eff.put (by decide) (by rw [ho]; decide) (.inl (by rw [ho]; decide)), h.trips, fun d hd => ?_⟩
  rw [dirUp_eq, Stake.flag_put_ne _ _ _ _ (.inr (.inr ?_)), ← dirUp_eq]
  · exact h.up d hd
  · cases d <;> exact Nat.le_trans (by decide) hlo

/-- A direction that goes out of service. -/
theorem putDown (h : LinkEff k j) (d : Dir) : LinkEff k (j.putB (upField d) false) := by
  refine ⟨h.eff.putB (by decide) (by cases d <;> decide) (by cases d <;> decide), h.trips, fun e he => ?_⟩
  rw [dirUp_eq]
  by_cases hd : e = d
  · rw [hd, Stake.flag_putB_same _ _ _ (by cases d <;> decide) (by cases d <;> rfl)]
  · have ha : (upField d).apart (upField e) := by
      cases d <;> cases e <;> simp [upField, Fld.apart, Reg.WAL_STATUS_ASC_UP, Reg.WAL_STATUS_DSC_UP] at hd ⊢
    rw [Stake.flag_putB_ne _ _ _ _ ha, ← dirUp_eq]
    exact h.up e he

theorem of_wal (h : LinkEff k j) (h' : Stake.Only [.wal] j i) : LinkEff k i :=
  ⟨h.eff.of_only h', h.trips.of_only h', fun d hd => by rw [dirUp_eq, h'.flag, ← dirUp_eq]; exact h.up d hd⟩

theorem onDir (h : LinkEff k j) {d : Dir} {f : WalDir → WalDir} : LinkEff k (j.onDir d f) := h.of_wal (.onDir .refl)

theorem reroute (h : LinkEff k j) {d : Dir} : LinkEff k (j.reroute d) := by
  unfold Stake.reroute
  extract_lets w all q1 q2
  have h1 : LinkEff k q1 := h.onDir
  have h2 : LinkEff k q2 := by cases d <;> exact h1.putOther
  refine .ite ?_ h2
  exact List.foldlRecOn (motive := LinkEff k) _ _ h2 fun _ hb _ _ => hb.onDir

theorem pairCut (h : LinkEff k j) : LinkEff k j.pairCut := by
  refine .ite h ⟨h.eff.trans ((j.detectBreak_eff 3).mono), h.trips.detectBreak, fun d hd => ?_⟩
  rw [dirUp_eq, (j.detectBreak_eff 3).regs.flag (by cases d <;> decide), ← dirUp_eq]
  exact h.up d hd

end Stake.LinkEff

end Sys2Proof.Machine

/-! The ring after a link's going, and the commands of supply, clocks and temperature. -/
namespace Sys2Proof.Machine
set_option Elab.async false

/-- What a link's going leaves of the ring. -/
structure State.LinkEff (s t : State) : Prop where
  part : t.part = s.part
  length : t.stakes.length = s.stakes.length
  regs : s.pkg.regsKept t.pkg [Reg.HIF_PKG_ALIVE]
  rest : s.pkg.restKept t.pkg
  stake : ∀ m, (s.stake m).LinkEff (t.stake m)

namespace State.LinkEff
variable {s t u : State}

theorem refl : LinkEff s s := ⟨rfl, rfl, fun _ _ => rfl, ⟨rfl, rfl, rfl, rfl, rfl, rfl⟩, fun _ => .refl⟩

theorem trans (h : LinkEff s t) (h' : LinkEff t u) : LinkEff s u := by
  obtain ⟨p, l, r, ⟨a, b, c, d, e, f⟩, g⟩ := h
  obtain ⟨p', l', r', ⟨a', b', c', d', e', f'⟩, g'⟩ := h'
  exact ⟨p'.trans p, l'.trans l, r.trans r', ⟨a'.trans a, b'.trans b, c'.trans c, d'.trans d, e'.trans e, f'.trans f⟩,
    fun m => (g m).trans (g' m)⟩

theorem onStake (s : State) (n : Nat) {f : Stake → Stake} (hf : (s.stake n).LinkEff (f (s.stake n))) : LinkEff s (s.onStake n f) := by
  have hpkg : (s.onStake n f).pkg = s.pkg := (s.onStake_elsewhere n f).1
  refine ⟨(s.onStake_elsewhere n f).2.1, by simp, fun _ _ => by rw [hpkg], by rw [hpkg]; exact ⟨rfl, rfl, rfl, rfl, rfl, rfl⟩, fun m => ?_⟩
  by_cases hm : m = n
  · subst hm
    by_cases hp : s.present m = true
    · rw [State.onStake_stake_same hp]
      exact hf
    · rw [State.onStake, if_neg hp]
      exact .refl
  · rw [State.onStake_stake_ne _ hm]
    exact .refl

end State.LinkEff

section
variable {s : State} {n : Nat}

/-! What the links say on every stake (R19, R39, R40). -/

theorem Stake.only_wal (k : Stake) (w : WalState) : Stake.Only [.wal] k { k with wal := w } :=
  show Stake.Only [.wal] k (k.set .wal w) from
    Stake.Only.set (f := StakePart.wal) (x := w) .refl (by decide)

/-- The status of the links, shown on one stake. -/
def Stake.showRing (k : Stake) (open_ : Bool) (up : Nat) (down : List Nat) : Stake :=
  let k := k.putB Reg.WAL_STATUS_RING_OPEN open_
  let k := if k.stopped then k else k.put Reg.WAL_STATUS_STAKES_UP up
  { k with wal := { k.wal with down := down } }

theorem Stake.showRing_linkEff (k : Stake) (b : Bool) (up : Nat) (down : List Nat) : k.LinkEff (k.showRing b up down) := by
  have h1 : k.LinkEff (k.putB Reg.WAL_STATUS_RING_OPEN b) := .putOther .refl
  have h2 : k.LinkEff (if (k.putB Reg.WAL_STATUS_RING_OPEN b).stopped then k.putB Reg.WAL_STATUS_RING_OPEN b
    else (k.putB Reg.WAL_STATUS_RING_OPEN b).put Reg.WAL_STATUS_STAKES_UP up) := .ite h1 h1.putOther
  exact h2.of_wal (Stake.only_wal _ _)

theorem Stake.showRing_open (k : Stake) (b : Bool) (up : Nat) (down : List Nat) : (k.showRing b up down).flag Reg.WAL_STATUS_RING_OPEN = b := by
  have h1 : (k.putB Reg.WAL_STATUS_RING_OPEN b).flag Reg.WAL_STATUS_RING_OPEN = b := Stake.flag_putB_same _ _ _ (by decide) rfl
  refine (Stake.flag_congr (k := if (k.putB Reg.WAL_STATUS_RING_OPEN b).stopped then k.putB Reg.WAL_STATUS_RING_OPEN b
    else (k.putB Reg.WAL_STATUS_RING_OPEN b).put Reg.WAL_STATUS_STAKES_UP up) rfl rfl _).trans ?_
  split
  · exact h1
  · rw [Stake.flag_put_ne _ _ _ _ (by decide), h1]

/-- Whether some direction of some stake is out of service. -/
def State.ringBroken (s : State) : Bool := (List.range s.part.stakes).any fun i => !(s.stake i).dirUp .asc || !(s.stake i).dirUp .dsc

theorem State.ringOpen_stakes (s : State) : ∃ (up : Nat → Stake → Nat) (down : List Nat), s.ringOpen.stakes =
    s.stakes.mapIdx fun i k => if i < s.part.stakes then k.showRing s.ringBroken (up i k) down else k := ⟨_, _, rfl⟩

theorem State.ringOpen_stake (s : State) (m : Nat) : (s.present m = false ∧ s.ringOpen.stake m = s.stake m) ∨
    ∃ up down, s.ringOpen.stake m = (s.stake m).showRing s.ringBroken up down := by
  obtain ⟨up, down, h⟩ := s.ringOpen_stakes
  have he : s.ringOpen.stake m = ((s.stakes.mapIdx fun i k => if i < s.part.stakes then k.showRing s.ringBroken (up i k) down else k)[m]?).getD
      (Stake.reset m) := by rw [State.stake, h, List.getD_eq_getElem?_getD]
  rw [he, List.getElem?_mapIdx]
  by_cases hl : m < s.stakes.length
  · have hm : s.stake m = s.stakes[m] := by simp [State.stake, hl]
    rw [List.getElem?_eq_getElem hl, hm, Option.map_some, Option.getD_some]
    by_cases hp : m < s.part.stakes
    · rw [if_pos hp]
      exact .inr ⟨_, _, rfl⟩
    · exact .inl ⟨by simp [State.present, hp], if_neg hp⟩
  · rw [List.getElem?_eq_none (Nat.not_lt.1 hl)]
    refine .inl ⟨by simp [State.present, hl], ?_⟩
    simp [State.stake, hl]

theorem State.ringOpen_linkEff (s : State) : s.LinkEff s.ringOpen := by
  refine ⟨rfl, List.length_mapIdx, Pkg.regsKept.put .refl, ⟨rfl, rfl, rfl, rfl, rfl, rfl⟩, fun m => ?_⟩
  obtain ⟨-, h⟩ | ⟨up, down, h⟩ := s.ringOpen_stake m
  · rw [h]
    exact .refl
  · rw [h]
    exact Stake.showRing_linkEff _ _ _ _

theorem State.ringOpen_open {d : Dir} (hp : s.present n = true) (hd : (s.stake n).dirUp d = false) :
    (s.ringOpen.stake n).flag Reg.WAL_STATUS_RING_OPEN = true := by
  have hlt : n < s.part.stakes := by simp only [State.present, Bool.and_eq_true, decide_eq_true_eq] at hp; exact hp.1
  have hb : s.ringBroken = true := by
    refine List.any_eq_true.2 ⟨n, List.mem_range.2 hlt, ?_⟩
    cases d <;> simp [hd]
  obtain ⟨h, -⟩ | ⟨up, down, h⟩ := s.ringOpen_stake n
  · rw [hp] at h
    contradiction
  · rw [h, Stake.showRing_open, hb]

/-! A link out of service (R19, R25). -/

/-- What one end of a link does when it goes. -/
def Stake.endOff (k : Stake) (d : Dir) : Stake := ((k.putB (upField d) false).reroute d).pairCut

theorem Stake.endOff_linkEff (k : Stake) (d : Dir) : k.LinkEff (k.endOff d) := ((Stake.LinkEff.refl.putDown d).reroute).pairCut

theorem Stake.endOff_down (k : Stake) (d : Dir) : (k.endOff d).dirUp d = false := by
  have h : (k.putB (upField d) false).LinkEff (k.endOff d) := Stake.LinkEff.refl.reroute.pairCut
  refine h.up d ?_
  rw [Stake.LinkEff.dirUp_eq]
  exact Stake.flag_putB_same _ _ _ (by cases d <;> decide) (by cases d <;> rfl)

theorem State.linkOff_eq (s : State) (n : Nat) (d : Dir) : s.linkOff n d =
    ((s.onStake n fun k => k.endOff d).onStake (s.nbr n d) fun k => k.endOff (opp d)).ringOpen := rfl

theorem State.linkOff_linkEff (s : State) (n : Nat) (d : Dir) : s.LinkEff (s.linkOff n d) :=
  ((State.LinkEff.onStake s n (Stake.endOff_linkEff _ _)).trans (State.LinkEff.onStake _ _ (Stake.endOff_linkEff _ _))).trans
    (State.ringOpen_linkEff _)

/-- A stake that is not there has no direction in service. -/
theorem Stake.reset_dirUp (m : Nat) (d : Dir) : (Stake.reset m).dirUp d = false := by
  have h : (Stake.reset m).rd Reg.WAL_STATUS = 0 := by
    change winReset m Reg.WAL_STATUS = 0
    rfl
  have hz : ∀ f : Fld, f.off = Reg.WAL_STATUS → (Stake.reset m).flag f = false := fun f hf => by
    rw [Stake.flag, Stake.fld, hf, h]
    simp [Fld.of]
  cases d
  · exact hz _ rfl
  · exact hz _ rfl

theorem State.endOff_down (s : State) (m : Nat) (d : Dir) (hm : m < s.part.stakes) :
    ((s.onStake m fun k => k.endOff d).stake m).dirUp d = false := by
  by_cases hp : s.present m = true
  · rw [State.onStake_stake_same hp]
    exact Stake.endOff_down _ _
  · have hl : ¬ m < s.stakes.length := by simpa [State.present, hm] using hp
    rw [State.onStake, if_neg hp, State.stake, List.getD_eq_getElem?_getD, List.getElem?_eq_none (Nat.not_lt.1 hl)]
    exact Stake.reset_dirUp m d

/-- R19: the link at a port of a stake is out of service at both ends. -/
theorem State.linkOff_down (hp : s.present n = true) (d : Dir) :
    ((s.linkOff n d).stake n).dirUp d = false ∧ ((s.linkOff n d).stake (s.nbr n d)).dirUp (opp d) = false ∧
      ((s.linkOff n d).stake n).flag Reg.WAL_STATUS_RING_OPEN = true := by
  have hlt : s.nbr n d < s.part.stakes := by
    have : n < s.part.stakes := by simp only [State.present, Bool.and_eq_true, decide_eq_true_eq] at hp; exact hp.1
    cases d <;> exact Nat.mod_lt _ (by omega)
  rw [State.linkOff_eq]
  let u := s.onStake n fun k => k.endOff d
  let w := u.onStake (s.nbr n d) fun k => k.endOff (opp d)
  have hu : (u.stake n).dirUp d = false := by
    rw [State.onStake_stake_same hp]
    exact Stake.endOff_down _ _
  have huw : u.LinkEff w := State.LinkEff.onStake _ _ (Stake.endOff_linkEff _ _)
  have hw : (w.stake n).dirUp d = false := (huw.stake n).up d hu
  have hwn : (w.stake (s.nbr n d)).dirUp (opp d) = false := State.endOff_down u _ _ (by rw [(s.onStake_elsewhere n _).2.1]; exact hlt)
  have hpw : w.present n = true := by rw [State.onStake_present, State.onStake_present]; exact hp
  have hr := State.ringOpen_linkEff w
  exact ⟨(hr.stake _).up _ hw, (hr.stake _).up _ hwn, State.ringOpen_open hpw hw⟩

end

end Sys2Proof.Machine

/-! The commands of supply, clocks and temperature (R403 to R420). -/
namespace Sys2Proof.Machine
set_option Elab.async false

section
variable {s : State} {n : Nat} {k : Stake}

/-! The core clock (R410). -/

theorem Stake.clockLost_inside {count : Nat} (h1 : 340 ≤ count) (h2 : count ≤ 460) :
    k.clockLost count = k.put Reg.CLK_STATUS_CORE_COUNT count := by
  unfold Stake.clockLost
  exact if_pos (by simp [h1, h2])

theorem Stake.react_trips (k : Stake) (r : EvRec) (b : Bool) (x : Nat) : k.tripsKept (k.react r b x) := by
  unfold Stake.react
  extract_lets src q
  have h0 : k.tripsKept ({ k with prt := { k.prt with active := enterActive k.prt.active r b } }) := rfl
  have h1 : k.tripsKept q := h0.of_only (l := [.regs, .out, .fe]) (.updDerate (.syncActive .refl))
  clear_value q
  exact .ite .refl (.ite h1 h1)

/-- R410: outside its window the core clock is lost: the stake trips and its plait halts. -/
theorem Stake.clockLost_outside {count : Nat} (hs : k.stopped = false) (hc : count < 340 ∨ 460 < count) :
    (k.clockLost count).stopped = true ∧ (k.clockLost count).vote.halted = true ∧
    (k.clockLost count).prt.trips = k.prt.trips ++ [⟨7, none, k.now⟩] ∧
    (k.id ≠ 0 → k.posted (k.clockLost count) .clkLost 4 [count]) := by
  unfold Stake.clockLost
  extract_lets -underBinder +onlyGivenNames q q1 q2
  have ht1 : q1.prt.trips = k.prt.trips ++ [⟨7, none, k.now⟩] := rfl
  have ho : Stake.Only [.regs, .prt] k q1 := .trip (.put .refl)
  have hq : q.stopped = false := hs
  rw [if_neg (by rw [hq]; simp; omega)]
  clear_value q1
  have ht2 : q1.tripsKept q2 := .ite (q1.react_trips _ _ _) (.post .refl)
  refine ⟨rfl, rfl, Eq.trans ht2 ht1, fun hid => ?_⟩
  have e2 : q2 = q1.post .clkLost 4 [count] := if_neg (by rw [ho.id]; exact hid)
  have hp : k.posted q2 .clkLost 4 [count] := by rw [e2]; exact ho.post_posted _ _ _
  exact hp.of_prefix (List.prefix_refl _)

theorem exec_coreClockLost (s : State) (n count : Nat) : exec (.coreClockLost n count) s = .next (
    if ((s.onStake n fun k => k.clockLost count).stake n).stopped && !(s.stake n).stopped then
      ((s.onStake n fun k => k.clockLost count).linkOff n .asc).linkOff n .dsc
    else s.onStake n fun k => k.clockLost count) := rfl

theorem coreClockLost_of (hp : s.present n = true) {count : Nat} (hs : (s.stake n).stopped = false) (hc : count < 340 ∨ 460 < count) :
    ∃ t, exec (.coreClockLost n count) s = .next t ∧ s.pkg.regsKept t.pkg [Reg.HIF_PKG_ALIVE] ∧ s.pkg.restKept t.pkg ∧
      (t.stake n).stopped = true ∧ (t.stake n).vote.halted = true ∧
      (t.stake n).prt.trips = (s.stake n).prt.trips ++ [⟨7, none, (s.stake n).now⟩] ∧ (t.stake n).dirUp .asc = false ∧
      (t.stake n).dirUp .dsc = false ∧ (t.stake (s.nbr n .asc)).dirUp .dsc = false ∧ (t.stake (s.nbr n .dsc)).dirUp .asc = false ∧
      (t.stake n).flag Reg.WAL_STATUS_RING_OPEN = true ∧ ((s.stake n).id ≠ 0 → (s.stake n).posted (t.stake n) .clkLost 4 [count]) := by
  have he := exec_coreClockLost s n count
  let u := s.onStake n fun k => k.clockLost count
  let v := u.linkOff n .asc
  have hst : u.stake n = (s.stake n).clockLost count := State.onStake_stake_same hp _
  have hpu : u.present n = true := (State.onStake_present ..).trans hp
  have hpkg : u.pkg = s.pkg := (s.onStake_elsewhere n _).1
  have hpart : u.part = s.part := (s.onStake_elsewhere n _).2.1
  obtain ⟨g1, g2, g3, g4⟩ := Stake.clockLost_outside hs hc
  rw [show (s.onStake n fun k => k.clockLost count) = u from rfl, hst, g1, hs, if_pos (by decide)] at he
  have huv : u.LinkEff v := u.linkOff_linkEff n .asc
  have hvw : v.LinkEff (v.linkOff n .dsc) := v.linkOff_linkEff n .dsc
  have huw := huv.trans hvw
  have hpv : v.present n = true := by
    simpa only [State.present, huv.part, huv.length] using hpu
  obtain ⟨a1, a2, -⟩ := State.linkOff_down hpu .asc
  obtain ⟨b1, b2, b3⟩ := State.linkOff_down hpv .dsc
  have hn1 : u.nbr n .asc = s.nbr n .asc := by simp only [State.nbr, hpart]
  have hn2 : v.nbr n .dsc = s.nbr n .dsc := by simp only [State.nbr, huv.part, hpart]
  rw [hn1] at a2
  rw [hn2] at b2
  have hj := huw.stake n
  have hreg := huw.regs
  have hrest := huw.rest
  rw [hpkg] at hreg hrest
  rw [hst] at hj
  refine ⟨_, he, hreg, hrest, ?_, ?_, Eq.trans hj.trips g3, (hvw.stake _).up _ a1, b1, (hvw.stake _).up _ a2, b2, b3,
    fun hid => (g4 hid).of_prefix hj.eff.out⟩
  · rw [hj.eff.only.stopped]
    exact g1
  · rw [hj.eff.only.vote]
    exact g2

end

/-- Settles O54: each command by the operation of its stake it runs. -/
theorem supplyClocksThermal : Obligations.SupplyClocksThermal := by
  unfold Obligations.SupplyClocksThermal
  refine ⟨fun s n mv hp => ?_, fun s n progress hp c hc => packageReset_clause hp hc, fun s n vana hp hl hr hv => supVana_of hp hl hr hv,
    fun s n count hp => ⟨fun h1 h2 => ?_, fun hs _ _ hc => coreClockLost_of hp hs hc⟩, fun s n count hp => ⟨fun lock hl hc => ?_, fun hc => ?_⟩,
    fun s n m hp hm => ⟨fun he hb => ?_, fun hb => ?_⟩, fun s n x hp hs he h4 ht h1 h2 => ?_, fun s n i at_ hp hs hi hl hg ht he => ?_,
    fun s n hp => ⟨fun hd => ?_, ?_⟩⟩
  · exact ⟨fun hv hr ho => supOvervolt_of hp hv hr ho, fun hv => supOvervoltEnd_of hp hv,
      fun progress hc hv hr hi => supInhibitEnter_of hp progress hc hv hr hi,
      fun progress hv hr => supInhibitEnter_inReset hp progress hv hr, fun hv => supInhibitExit_of hp hv⟩
  · have hst := (State.onStake_stake_same hp fun k => k.clockLost count).trans (Stake.clockLost_inside h1 h2)
    have he := exec_coreClockLost s n count
    rw [if_neg (by rw [hst]; simp [Stake.put, Stake.wr])] at he
    exact ⟨_, he, s.onStake_elsewhere n _, hst⟩
  · obtain ⟨h1, h2, h3, h4⟩ := (s.stake n).refLoss_of (refInside count)
    have hi : (refInside count && !lock) = false := by
      rcases hc with h | h <;> simp [h]
    refine ⟨_, rfl, s.onStake_elsewhere n _, ?_⟩
    rw [State.onStake_stake_same hp, if_neg (by rw [hi, hl]; simp)]
    exact ⟨h1, h2, h3, h4⟩
  · refine ⟨_, rfl, s.onStake_elsewhere n _, ?_⟩
    rw [State.onStake_stake_same hp, if_pos hc]
    exact ⟨Stake.flag_putB_same _ _ _ (by decide) rfl, Stake.flag_putB_ne _ _ _ _ (by decide), .putB .refl List.mem_cons_self⟩
  · refine ⟨_, rfl, s.onStake_elsewhere n _, ?_⟩
    rw [State.onStake_stake_same hp]
    exact Stake.mclkFault_of hm he hb
  · refine ⟨_, rfl, s.onStake_elsewhere n _, ?_⟩
    rw [State.onStake_stake_same hp]
    exact Stake.mclkEnd_of hb
  · refine ⟨_, rfl, s.onStake_elsewhere n _, ?_⟩
    rw [State.onStake_stake_same hp, if_neg (by rw [hs]; decide), Stake.thmSample_die he h4 ht h1 h2]
    exact Stake.thmEval_four _ h1 h2
  · refine ⟨_, rfl, s.onStake_elsewhere n _, ?_⟩
    rw [State.onStake_stake_same hp, if_neg (by rw [hs]; decide), Stake.thmGrace_of hg ht he]
    exact Stake.thmEnforce_of _ hi hl
  · refine ⟨_, rfl, s.onStake_elsewhere n _, ?_⟩
    rw [State.onStake_stake_same hp, if_neg (by rw [hd]; decide)]
    exact Stake.die175_of _
  · refine ⟨_, rfl, s.onStake_elsewhere n _, ?_⟩
    rw [State.onStake_stake_same hp]
    exact ⟨Stake.flag_putB_same _ _ _ (by decide) rfl, .putB .refl List.mem_cons_self⟩

end Sys2Proof.Machine

/-! The CAN schedule and the status frame (R387 to R392). -/
namespace Sys2Proof.Machine
set_option Elab.async false

section
variable {s : State} {c : Nat}

/-- R386: a buffer whose transmission is asked for. -/
theorem State.canRequest_of (s : State) (c i : Nat) : s.stakesKept (s.canRequest c i) ∧ (s.canRequest c i).pkg.flag (cbTxReq c i) = true ∧
    s.pkg.regsKept (s.canRequest c i).pkg [canBuf c i + 8] ∧
    (s.canRequest c i).pkg.net = { s.pkg.net with can := updAt s.pkg.net.can c fun x =>
      { x with reqAt := (i, (s.stake 1).now) :: x.reqAt.filter (·.1 ≠ i) } } :=
  ⟨⟨rfl, rfl, rfl⟩, Pkg.flag_putB_same s.pkg (cbTxReq c i) true (by change 28 + 1 ≤ 32; decide) rfl,
    Pkg.regsKept.putB (p := s.pkg) .refl (List.mem_singleton.2 rfl), rfl⟩

/-- A change of a controller is none of the registers. -/
theorem State.onCan_frame (s : State) (c : Nat) (f : CanSt → CanSt) : s.stakesKept (s.onCan c f) ∧
    (∀ g, (s.onCan c f).pkg.fld g = s.pkg.fld g) ∧ (∀ g, (s.onCan c f).pkg.flag g = s.pkg.flag g) ∧
    ∀ l, s.pkg.regsKept (s.onCan c f).pkg l :=
  ⟨⟨rfl, rfl, rfl⟩, fun _ => rfl, fun _ => rfl, fun _ _ _ => rfl⟩

theorem exec_canUsWrap (s : State) : exec .canUsWrap s = .next (
    if s.pkg.net.usWrap then (s.onNet fun x => { x with usWrap := false }).onPkg fun p => p.putB Reg.CAN_US_STATUS_WRAP true else s) := rfl

/-- R387: the wrap of the microsecond counter. -/
theorem canUsWrap_of (h : s.pkg.net.usWrap = true) : ∃ t, exec .canUsWrap s = .next t ∧ s.stakesKept t ∧ t.pkg.net.usWrap = false ∧
    t.pkg.flag Reg.CAN_US_STATUS_WRAP = true ∧ s.pkg.regsKept t.pkg [Reg.CAN_US_STATUS] := by
  have he := exec_canUsWrap s
  rw [if_pos h] at he
  exact ⟨_, he, ⟨rfl, rfl, rfl⟩, rfl, Pkg.flag_putB_same _ _ _ (by decide) rfl,
    Pkg.regsKept.putB (p := s.pkg) (q := (s.onNet fun x => { x with usWrap := false }).pkg) (fun _ _ => rfl)⟩

/-! Reference frames (R389). -/

theorem Pkg.putByte_zero (p : Pkg) (base v : Nat) : (p.putByte base 0 v).fld ⟨base + 0x20, 0, 8⟩ = v % 256 ∧
    p.regsKept (p.putByte base 0 v) [base + 0x20] ∧ (p.putByte base 0 v).net = p.net :=
  ⟨Pkg.fld_put_same p ⟨base + 0x20, 0, 8⟩ v (by change 0 + 8 ≤ 32; decide), .put .refl (List.mem_singleton.2 rfl), rfl⟩

/-- The reference frame's buffer is apart from the schedule's settings. -/
theorem canCycLog_apart (c : Nat) : (Reg.CAN_TT_CFG_CYC_LOG2 c).off ≠ canBuf c 66 + 0x20 ∧ (Reg.CAN_TT_CFG_CYC_LOG2 c).off ≠ canBuf c 66 + 8 := by
  simp only [Reg.CAN_TT_CFG_CYC_LOG2, canBuf, if_neg (show ¬ 66 < 4 by decide)]
  omega

theorem exec_canRefSend (s : State) (c : Nat) : exec (.canRefSend c) s = .next (
    if !s.canOn c || !s.pkg.flag (Reg.CAN_CTRL_TT_EN c) || s.pkg.flag (Reg.CAN_CTRL_TT_ROLE c) ||
      !(match (s.canSt c).sentAt with | none => true | some t => t + 400 * s.pkg.fld (Reg.CAN_TT_CFG_CYCLE_US c) ≤ (s.stake 1).now : Bool) then s
    else
      let u := (s.onPkg fun p => p.putByte (canBuf c 66) 0 (s.canSt c).nextCycle).canRequest c 66
      u.onCan c fun y =>
        { y with sentAt := some (s.stake 1).now, nextCycle := ((s.canSt c).nextCycle + 1) % 2 ^ u.pkg.fld (Reg.CAN_TT_CFG_CYC_LOG2 c) }) := rfl

/-- R389: a reference frame is asked for. -/
theorem canRefSend_of (hl : c < s.pkg.net.can.length) (ho : s.canOn c = true) (ht : s.pkg.flag (Reg.CAN_CTRL_TT_EN c) = true)
    (hr : s.pkg.flag (Reg.CAN_CTRL_TT_ROLE c) = false)
    (hd : ∀ t0, (s.canSt c).sentAt = some t0 → t0 + 400 * s.pkg.fld (Reg.CAN_TT_CFG_CYCLE_US c) ≤ (s.stake 1).now) :
    ∃ t, exec (.canRefSend c) s = .next t ∧ s.stakesKept t ∧ t.pkg.flag (cbTxReq c 66) = true ∧
      t.pkg.fld ⟨canBuf c 66 + 0x20, 0, 8⟩ = (s.canSt c).nextCycle % 256 ∧ (t.canSt c).sentAt = some (s.stake 1).now ∧
      (t.canSt c).nextCycle = ((s.canSt c).nextCycle + 1) % 2 ^ s.pkg.fld (Reg.CAN_TT_CFG_CYC_LOG2 c) ∧
      s.pkg.regsKept t.pkg [canBuf c 66 + 0x20, canBuf c 66 + 8] := by
  have n1 : canBuf c 66 + 0x20 ≠ canBuf c 66 + 8 := by omega
  obtain ⟨n2, n3⟩ := canCycLog_apart c
  have hdue : (match (s.canSt c).sentAt with | none => true | some t => t + 400 * s.pkg.fld (Reg.CAN_TT_CFG_CYCLE_US c) ≤ (s.stake 1).now : Bool) = true := by
    split
    · rfl
    · exact decide_eq_true (hd _ ‹_›)
  have he := exec_canRefSend s c
  rw [hdue, ho, ht, hr, if_neg (by decide)] at he
  set q := s.onPkg fun p => p.putByte (canBuf c 66) 0 (s.canSt c).nextCycle with hqd
  obtain ⟨g1, g2, g3, g4⟩ := q.canRequest_of c 66
  obtain ⟨hqb, hq, hqn⟩ := s.pkg.putByte_zero (canBuf c 66) (s.canSt c).nextCycle
  change q.pkg.fld _ = _ at hqb
  change s.pkg.regsKept q.pkg _ at hq
  change q.pkg.net = _ at hqn
  have hqs : s.stakesKept q := ⟨rfl, rfl, rfl⟩
  clear_value q
  generalize q.canRequest c 66 = u at *
  have hlen : c < u.pkg.net.can.length := by rw [g4]; exact (List.length_modify _ _ _).symm ▸ (hqn.symm ▸ hl)
  have hst := State.canSt_onCan (s := u) hlen fun y =>
    { y with sentAt := some (s.stake 1).now, nextCycle := ((s.canSt c).nextCycle + 1) % 2 ^ u.pkg.fld (Reg.CAN_TT_CFG_CYC_LOG2 c) }
  have hlog : u.pkg.fld (Reg.CAN_TT_CFG_CYC_LOG2 c) = s.pkg.fld (Reg.CAN_TT_CFG_CYC_LOG2 c) := by
    rw [g3.fld (fun h => n3 (List.mem_singleton.1 h)), hq.fld (fun h => n2 (List.mem_singleton.1 h))]
  have hkept : s.pkg.regsKept u.pkg [canBuf c 66 + 0x20, canBuf c 66 + 8] := (hq.mono (List.cons_subset_cons _ (List.nil_subset _))).trans (g3.mono (List.subset_cons_self _ _))
  have hb := (g3.fld (f := ⟨canBuf c 66 + 0x20, 0, 8⟩) (fun h => n1 (List.mem_singleton.1 h))).trans hqb
  have hk : s.stakesKept u := hqs.trans g1
  obtain ⟨e1, e2, e3, e4⟩ := State.onCan_frame u c fun y =>
    { y with sentAt := some (s.stake 1).now, nextCycle := ((s.canSt c).nextCycle + 1) % 2 ^ u.pkg.fld (Reg.CAN_TT_CFG_CYC_LOG2 c) }
  exact ⟨_, he, hk.trans e1, (e3 _).trans g2, (e2 _).trans hb, by rw [hst], by rw [hst, hlog], hkept.trans (e4 _)⟩

theorem exec_canTtRefTimeout (s : State) (c : Nat) : exec (.canTtRefTimeout c) s = .next (
    if 2 ≤ c || !s.pkg.flag (Reg.CAN_STATUS_TT_RUN c) || !s.pkg.flag (Reg.CAN_CTRL_TT_ROLE c) || (s.stake 1).now < (s.canSt c).refAt +
      400 * (s.pkg.fld (Reg.CAN_TT_CFG_CYCLE_US c) + s.pkg.fld (Reg.CAN_TT_GUARD_REF_TOL c)) then s
    else
      ((s.onPkg fun p => p.putB (Reg.CAN_STATUS_TT_RUN c) false).onCan c fun x => { x with excl := none }).onStake 1 fun k =>
        k.post .canTtLoss 0 [c]) := rfl

/-- R389: the reference frame of another master is missing. -/
theorem canTtRefTimeout_of (hc : c < 2) (hp : s.present 1 = true) (hr : s.pkg.flag (Reg.CAN_STATUS_TT_RUN c) = true)
    (ho : s.pkg.flag (Reg.CAN_CTRL_TT_ROLE c) = true)
    (ht : (s.canSt c).refAt + 400 * (s.pkg.fld (Reg.CAN_TT_CFG_CYCLE_US c) + s.pkg.fld (Reg.CAN_TT_GUARD_REF_TOL c)) ≤ (s.stake 1).now) :
    ∃ t, exec (.canTtRefTimeout c) s = .next t ∧ (∀ m, m ≠ 1 → t.stake m = s.stake m) ∧ (s.stake 1).posted (t.stake 1) .canTtLoss 0 [c] ∧
      t.pkg.flag (Reg.CAN_STATUS_TT_RUN c) = false ∧ s.pkg.regsKept t.pkg [Reg.CAN_STATUS c] := by
  have he := exec_canTtRefTimeout s c
  rw [hr, ho, if_neg (by simp; omega)] at he
  let q := (s.onPkg fun p => p.putB (Reg.CAN_STATUS_TT_RUN c) false).onCan c fun x => { x with excl := none }
  have hq : q.present 1 = true := hp
  have hf : q.pkg.flag (Reg.CAN_STATUS_TT_RUN c) = false := Pkg.flag_putB_same s.pkg (Reg.CAN_STATUS_TT_RUN c) false (by change 28 + 1 ≤ 32; decide) rfl
  have hk : s.pkg.regsKept q.pkg [Reg.CAN_STATUS c] := Pkg.regsKept.putB (p := s.pkg) .refl (List.mem_singleton.2 rfl)
  have hel := q.onStake_elsewhere 1 fun k => k.post .canTtLoss 0 [c]
  have hst := State.onStake_stake_same hq fun k => k.post .canTtLoss 0 [c]
  refine ⟨_, he, fun m hm => hel.2.2.2 m hm, ?_, ?_, ?_⟩
  · rw [hst]
    exact Stake.post_posted _ _ _ _
  · rw [hel.1]
    exact hf
  · rw [hel.1]
    exact hk

/-! Columns (R388, R390). -/

theorem exec_canTtColumnStart (s : State) (c col : Nat) : exec (.canTtColumnStart c col) s = .next (
    if !s.canOn c || !s.pkg.flag (Reg.CAN_STATUS_TT_RUN c) || s.pkg.fld (Reg.CAN_TT_CFG_COLS c) < col ||
        (s.pkg.rd Reg.CAN_US - (s.canSt c).cycleAt).toNat ≠ s.pkg.fld ⟨0x811C00 + 0x4000 * c + 4 * col, 0, 16⟩ then s
    else if (s.ttCell c col).1 = 1 && s.pkg.flag (cbEn c ((s.ttCell c col).2 + 4)) && s.pkg.flag (cbDir c ((s.ttCell c col).2 + 4)) then
      s.onCan c fun x => { x with excl := some ((s.ttCell c col).2, (s.stake 1).now) }
    else s) := rfl

/-- R388: the column of an exclusive frame begins. -/
theorem canTtColumnStart_of {col b : Nat} (hl : c < s.pkg.net.can.length) (ho : s.canOn c = true)
    (hr : s.pkg.flag (Reg.CAN_STATUS_TT_RUN c) = true) (hcol : col ≤ s.pkg.fld (Reg.CAN_TT_CFG_COLS c))
    (hus : (s.pkg.rd Reg.CAN_US - (s.canSt c).cycleAt).toNat = s.pkg.fld ⟨0x811C00 + 0x4000 * c + 4 * col, 0, 16⟩)
    (hcell : s.ttCell c col = (1, b)) (he : s.pkg.flag (cbEn c (b + 4)) = true) (hd : s.pkg.flag (cbDir c (b + 4)) = true) :
    ∃ t, exec (.canTtColumnStart c col) s = .next t ∧ s.stakesKept t ∧ t.pkg.regs = s.pkg.regs ∧
      (t.canSt c).excl = some (b, (s.stake 1).now) := by
  have hx := exec_canTtColumnStart s c col
  rw [hcell, ho, hr, if_neg (by simp only [hus]; simpa using hcol), if_pos (by simp [he, hd])] at hx
  exact ⟨_, hx, ⟨rfl, rfl, rfl⟩, rfl, by rw [State.canSt_onCan hl]⟩

theorem exec_canTtExclusiveMiss (s : State) (c : Nat) : exec (.canTtExclusiveMiss c) s = .next (match (s.canSt c).excl with
    | some (b, t) => if t + 400 * s.pkg.fld (Reg.CAN_TT_CFG_TX_EN_US c) ≤ (s.stake 1).now then s.ttMiss c b else s
    | none => s) := rfl

/-- R390: it has not started in time. -/
theorem canTtExclusiveMiss_of {b t0 : Nat} (hx : (s.canSt c).excl = some (b, t0))
    (ht : t0 + 400 * s.pkg.fld (Reg.CAN_TT_CFG_TX_EN_US c) ≤ (s.stake 1).now) (hb : b < 64) :
    ∃ t, exec (.canTtExclusiveMiss c) s = .next t ∧ s.stakesKept t ∧ (t.canSt c).excl = none ∧ t.pkg.flag (cbTxFail c (b + 4)) = true ∧
      t.pkg.rd (Reg.CAN_TT_MISS_CNT c) = satAdd 16 (s.pkg.rd (Reg.CAN_TT_MISS_CNT c)) 1 := by
  have he := exec_canTtExclusiveMiss s c
  rw [hx] at he
  have he : exec (.canTtExclusiveMiss c) s = .next (s.ttMiss c b) := he.trans (congrArg Host.Outcome.next (if_pos ht))
  have hl : c < s.pkg.net.can.length := by
    by_contra hn
    rw [State.canSt, nth, List.getD_eq_getElem?_getD, List.getElem?_eq_none (Nat.not_lt.1 hn)] at hx
    contradiction
  have hne : Reg.CAN_TT_MISS_CNT c ≠ (cbTxFail c (b + 4)).off := by
    simp only [Reg.CAN_TT_MISS_CNT, cbTxFail, cbCtrl, canBuf, if_neg (show ¬ b + 4 < 4 by omega)]
    omega
  refine ⟨_, he, ⟨rfl, rfl, rfl⟩, ?_, ?_, ?_⟩
  · exact congrArg CanSt.excl (State.canSt_onCan (s := s.onPkg fun p => (p.bump (Reg.CAN_TT_MISS_CNT c)).putB (cbTxFail c (b + 4)) true) hl _)
  · exact Pkg.flag_putB_same (s.pkg.bump (Reg.CAN_TT_MISS_CNT c)) (cbTxFail c (b + 4)) true (by change 24 + 1 ≤ 32; decide) rfl
  · exact (Pkg.rd_put_ne (s.pkg.bump (Reg.CAN_TT_MISS_CNT c)) _ hne).trans (s.pkg.rd_bump_same _)

end

end Sys2Proof.Machine

/-! The status frame (R392). -/
namespace Sys2Proof.Machine
set_option Elab.async false

section
variable {s : State}

/-- R392: the bytes of a status frame: the axes in service, their states, the frame counter, and the check over them. -/
def State.statusData (s : State) : List Nat :=
  let st := fun (n : Nat) => if s.statusBytes.1.testBit n then (s.stake n).axis else 14
  let bytes := [s.statusBytes.1, s.statusBytes.2] ++ ([0, 1, 2, 3].map fun i => st (2 * i) + 16 * st (2 * i + 1)) ++ [s.pkg.net.statCnt]
  bytes ++ [255 - crc 8 0x2F 0xFF (bytes.flatMap (bitsOf 8))]

/-- R392: the buffer of a status frame. -/
def Pkg.statusFrame (p : Pkg) (base : Nat) (id : BitVec 32) (d : List Nat) : Pkg :=
  ((p.wr base (0xC0000000 ||| id)).wr (base + 0x10) (0x800000 ||| ((id &&& 0x20000000) >>> 5))).putBytes base 8 d

theorem Pkg.statusFrame_of (p : Pkg) (base : Nat) (id : BitVec 32) (d : List Nat) :
    (p.statusFrame base id d).fld ⟨base + 0x20, 0, 8⟩ = nth 0 d 0 % 256 ∧ (p.statusFrame base id d).fld ⟨base + 0x20, 8, 8⟩ = nth 0 d 1 % 256 ∧
    (p.statusFrame base id d).net = p.net :=
  ⟨Pkg.putBytes_fld _ base 8 d (j := 0) (by decide), Pkg.putBytes_fld _ base 8 d (j := 1) (by decide), (Pkg.putBytes_only _ base 8 d).net⟩

/-- Whether the status frame is due. -/
def State.statusDue (s : State) : Bool :=
  (s.statusBytes.1, s.statusBytes.2) ≠ s.pkg.net.statLast || match s.pkg.net.statAt with
    | none => true
    | some t => t + 400000 * s.pkg.fld Reg.CAN_STAT_PERIOD_MS ≤ (s.stake 1).now

theorem exec_canStatusFrameSend (s : State) : exec .canStatusFrameSend s = .next (
    if !s.inService 1 || !s.pkg.flag Reg.CAN_STAT_CFG_STAT_EN || !s.statusDue then s
    else
      ((s.onPkg fun p => p.statusFrame (canBuf (s.pkg.fld Reg.CAN_STAT_CFG_STAT_CTRL) 67) (s.pkg.rd Reg.CAN_STAT_CFG &&& 0x3FFFFFFF)
          s.statusData).canRequest (s.pkg.fld Reg.CAN_STAT_CFG_STAT_CTRL) 67).onNet fun x =>
        { x with statAt := some (s.stake 1).now, statLast := (s.statusBytes.1, s.statusBytes.2), statCnt := (x.statCnt + 1) % 256 }) := rfl

theorem ite_two_pow_le (b : Bool) (n : Nat) : (if b then 2 ^ n else 0) ≤ 2 ^ n := by
  split
  · exact Nat.le_refl _
  · exact Nat.zero_le _

theorem State.statusBytes_lt (s : State) : s.statusBytes.1 < 256 ∧ s.statusBytes.2 < 256 := by
  have hl : List.range 8 = [0, 1, 2, 3, 4, 5, 6, 7] := rfl
  unfold State.statusBytes
  extract_lets k b b0
  have hb : ∀ x n, b x n ≤ 2 ^ n := fun x n => ite_two_pow_le x n
  clear_value b
  have h0 : b0 < 256 := by
    simp only [b0, hl, List.foldl_cons, List.foldl_nil]
    have e := fun n => hb (s.reaches 1 n && !k.wal.lostMask.testBit n) n
    have h0 := e 0; have h1 := e 1; have h2 := e 2; have h3 := e 3; have h4 := e 4; have h5 := e 5; have h6 := e 6; have h7 := e 7
    omega
  refine ⟨h0, ?_⟩
  have h1 := hb k.wal.anchorLost 0
  have h2 := hb (k.wal.master = 1) 1
  have h3 := hb (k.flag Reg.FLD_FB_STATUS_ACTIVE) 2
  have h4 := hb (!k.flag Reg.FLD_FB_STATUS_INPUT_OK) 3
  dsimp only
  omega

theorem State.onNet_frame (s : State) (f : NetSt → NetSt) : s.stakesKept (s.onNet f) ∧ (∀ g, (s.onNet f).pkg.fld g = s.pkg.fld g) ∧
    (∀ g, (s.onNet f).pkg.flag g = s.pkg.flag g) ∧ ∀ l, s.pkg.regsKept (s.onNet f).pkg l :=
  ⟨⟨rfl, rfl, rfl⟩, fun _ => rfl, fun _ => rfl, fun _ _ _ => rfl⟩

/-- R392: the status frame is asked for. -/
theorem canStatusFrameSend_of (hi : s.inService 1 = true) (he : s.pkg.flag Reg.CAN_STAT_CFG_STAT_EN = true)
    (hd : s.pkg.net.statAt = none ∨ s.statusBytes ≠ s.pkg.net.statLast) :
    let c := s.pkg.fld Reg.CAN_STAT_CFG_STAT_CTRL
    ∃ t, exec .canStatusFrameSend s = .next t ∧ s.stakesKept t ∧ t.pkg.flag (cbTxReq c 67) = true ∧
      t.pkg.fld ⟨canBuf c 67 + 0x20, 0, 8⟩ = s.statusBytes.1 ∧ t.pkg.fld ⟨canBuf c 67 + 0x20, 8, 8⟩ = s.statusBytes.2 ∧
      t.pkg.net.statAt = some (s.stake 1).now ∧ t.pkg.net.statLast = s.statusBytes ∧ t.pkg.net.statCnt = (s.pkg.net.statCnt + 1) % 256 := by
  intro c
  have hdue : s.statusDue = true := by
    unfold State.statusDue
    rcases hd with h | h
    · rw [h, Bool.or_true]
    · rw [decide_eq_true (p := (s.statusBytes.1, s.statusBytes.2) ≠ s.pkg.net.statLast) h, Bool.true_or]
  have hx := exec_canStatusFrameSend s
  rw [hdue, hi, he, if_neg (by decide)] at hx
  obtain ⟨h0, h1⟩ := s.statusBytes_lt
  have hn0 : nth 0 s.statusData 0 = s.statusBytes.1 := rfl
  have hn1 : nth 0 s.statusData 1 = s.statusBytes.2 := rfl
  change exec .canStatusFrameSend s = .next (((s.onPkg fun p => p.statusFrame (canBuf c 67) _ _).canRequest c 67).onNet _) at hx
  obtain ⟨f0, f1, f2⟩ := s.pkg.statusFrame_of (canBuf c 67) (s.pkg.rd Reg.CAN_STAT_CFG &&& 0x3FFFFFFF) s.statusData
  rw [hn0, Nat.mod_eq_of_lt h0] at f0
  rw [hn1, Nat.mod_eq_of_lt h1] at f1
  set q := s.onPkg fun p => p.statusFrame (canBuf c 67) (s.pkg.rd Reg.CAN_STAT_CFG &&& 0x3FFFFFFF) s.statusData with hqd
  have hqp : q.pkg = s.pkg.statusFrame (canBuf c 67) (s.pkg.rd Reg.CAN_STAT_CFG &&& 0x3FFFFFFF) s.statusData := rfl
  have hqs : s.stakesKept q := ⟨rfl, rfl, rfl⟩
  rw [← hqp] at f0 f1 f2
  clear_value q
  obtain ⟨g1, g2, g3, g4⟩ := q.canRequest_of c 67
  have g5 : (q.canRequest c 67).pkg.net.statCnt = s.pkg.net.statCnt := by rw [g4, f2]
  have hne : canBuf c 67 + 0x20 ∉ [canBuf c 67 + 8] := fun h => by
    have := List.mem_singleton.1 h
    omega
  have b0 := (g3.fld (f := ⟨canBuf c 67 + 0x20, 0, 8⟩) hne).trans f0
  have b1 := (g3.fld (f := ⟨canBuf c 67 + 0x20, 8, 8⟩) hne).trans f1
  generalize q.canRequest c 67 = u at *
  obtain ⟨e1, e2, e3, -⟩ := State.onNet_frame u fun x =>
    { x with statAt := some (s.stake 1).now, statLast := (s.statusBytes.1, s.statusBytes.2), statCnt := (x.statCnt + 1) % 256 }
  exact ⟨_, hx, (hqs.trans g1).trans e1, (e3 _).trans g2, (e2 _).trans b0, (e2 _).trans b1, rfl, rfl, congrArg (fun x => (x + 1) % 256) g5⟩

end

end Sys2Proof.Machine

/-! Network time: the time state, the peer delay and the Syncs (R395 to R399). -/
namespace Sys2Proof.Machine
set_option Elab.async false

/-! A change of the time state. -/

/-- What a change of the time state leaves: all registers but its own and the count of lost events, the port's flags, and of the networks'
state all but what the servo keeps. -/
structure State.TimeEff (s t : State) : Prop where
  regs : s.pkg.regsKept t.pkg [Reg.ETH_STATUS, Reg.HIF_EVT_LOST_CNT]
  link : t.pkg.flag Reg.ETH_STATUS_LINK = s.pkg.flag Reg.ETH_STATUS_LINK
  capable : t.pkg.flag Reg.ETH_STATUS_AS_CAPABLE = s.pkg.flag Reg.ETH_STATUS_AS_CAPABLE
  net : ∃ a b c, t.pkg.net = { s.pkg.net with syncOk := a, stepped := b, holdAt := c }

namespace State.TimeEff
variable {s t u : State}

theorem refl : TimeEff s s := ⟨.refl, rfl, rfl, _, _, _, rfl⟩

theorem trans (h : TimeEff s t) (h' : TimeEff t u) : TimeEff s u := by
  obtain ⟨a, b, c, hn⟩ := h.net
  obtain ⟨a', b', c', hn'⟩ := h'.net
  exact ⟨h.regs.trans h'.regs, h'.link.trans h.link, h'.capable.trans h.capable, a', b', c', by rw [hn', hn]⟩

theorem ite {c : Prop} [Decidable c] (h : TimeEff s t) (h' : TimeEff s u) : TimeEff s (if c then t else u) := by split <;> assumption

theorem post (h : TimeEff s t) {e : Ev} {v : List Nat} : TimeEff s (t.postPkg e 0 v) := by
  have hk := t.postPkg_regsKept e 0 v
  refine h.trans ⟨hk.mono (by decide), hk.flag (by decide), hk.flag (by decide), t.pkg.net.syncOk, t.pkg.net.stepped, t.pkg.net.holdAt, ?_⟩
  rw [State.postPkg_pkg_net]

theorem syncOk (h : TimeEff s t) {n : Nat} : TimeEff s (t.onNet fun x => { x with syncOk := n }) :=
  h.trans ⟨fun _ _ => rfl, rfl, rfl, n, t.pkg.net.stepped, t.pkg.net.holdAt, rfl⟩

theorem setTime (h : TimeEff s t) {n : Nat} : TimeEff s (t.setTime n) := by
  have hl : (t.pkg.put Reg.ETH_STATUS_TIME_STATE n).flag Reg.ETH_STATUS_LINK = t.pkg.flag Reg.ETH_STATUS_LINK := by
    rw [Pkg.flag, Pkg.fld_put_ne _ _ _ _ (by decide), ← Pkg.flag]
  have hc : (t.pkg.put Reg.ETH_STATUS_TIME_STATE n).flag Reg.ETH_STATUS_AS_CAPABLE = t.pkg.flag Reg.ETH_STATUS_AS_CAPABLE := by
    rw [Pkg.flag, Pkg.fld_put_ne _ _ _ _ (by decide), ← Pkg.flag]
  have hr : t.pkg.regsKept (t.pkg.put Reg.ETH_STATUS_TIME_STATE n) [Reg.ETH_STATUS, Reg.HIF_EVT_LOST_CNT] := .put .refl
  exact h.trans ⟨hr.trans fun _ _ => rfl, hl, hc, _, _, _, rfl⟩

theorem rd (h : TimeEff s t) (o : Nat) (ho : o ∉ [Reg.ETH_STATUS, Reg.HIF_EVT_LOST_CNT] := by decide) : t.pkg.rd o = s.pkg.rd o := h.regs o ho

end State.TimeEff

section
variable {s t : State}

theorem State.setTime_state (s : State) {n : Nat} (hn : n < 4) : (s.setTime n).timeState = n :=
  (Pkg.fld_put_same s.pkg Reg.ETH_STATUS_TIME_STATE n (by decide)).trans (Nat.mod_eq_of_lt hn)

theorem State.timeState_lt (s : State) : s.timeState < 4 := Fld.of_lt _ _

theorem State.timeState_post (s : State) (e : Ev) (v : List Nat) : (s.postPkg e 0 v).timeState = s.timeState :=
  (s.postPkg_regsKept e 0 v).fld (by decide)

/-- R399: a new time state whose event is posted. -/
theorem State.setTime_post (s : State) {n : Nat} (hn : n < 4) (e : Ev) (v : List Nat) :
    s.TimeEff ((s.setTime n).postPkg e 0 v) ∧ ((s.setTime n).postPkg e 0 v).timeState = n ∧ s.posted ((s.setTime n).postPkg e 0 v) e 0 v :=
  ⟨State.TimeEff.refl.setTime.post, ((s.setTime n).timeState_post e v).trans (s.setTime_state hn),
    State.posted_of rfl rfl ((s.setTime n).postPkg_posted e 0 v)⟩

theorem State.timeHold_of (s : State) : s.TimeEff s.timeHold ∧ s.timeHold.timeState = 3 ∧ s.posted s.timeHold .ethTimeHoldover 0 [] :=
  s.setTime_post (by decide) _ _

/-- R399: time is not maintained any more. -/
theorem State.timeNone_of (s : State) : s.TimeEff s.timeNone ∧ s.timeNone.timeState = 0 ∧ (s.timeState = 3 → s.posted s.timeNone .ethTimeLost 0 []) := by
  have h0 : s.timeNone = if s.timeState = 0 then s else if s.timeState = 3 then (s.setTime 0).postPkg .ethTimeLost 0 else s.setTime 0 := by
    rfl
  obtain ⟨h1, h2, h3⟩ := s.setTime_post (n := 0) (by decide) .ethTimeLost []
  rw [h0]
  by_cases hz : s.timeState = 0
  · rw [if_pos hz]
    exact ⟨.refl, hz, fun h => absurd (hz.symm.trans h) (by decide)⟩
  · rw [if_neg hz]
    by_cases h : s.timeState = 3
    · rw [if_pos h]
      exact ⟨h1, h2, fun _ => h3⟩
    · rw [if_neg h]
      exact ⟨.setTime .refl, s.setTime_state (by decide), fun h' => absurd h' h⟩

/-! The peer delay (R395). -/

/-- What an exchange shows. -/
def State.delayShown (s : State) (d : Nat) : State :=
  s.onPkg fun p => (p.wr Reg.ETH_LINK_DELAY (BitVec.ofNat 32 d)).putB Reg.ETH_STATUS_AS_CAPABLE (d ≤ s.pkg.fld Reg.ETH_NPD_NPD_THR)

theorem State.ethDelay_eq (s : State) (d : Nat) : s.ethDelay d =
    if d ≤ s.pkg.fld Reg.ETH_NPD_NPD_THR then s.delayShown d else (s.delayShown d).timeNone := rfl

theorem State.ethDelay_of (s : State) (d : Nat) : (s.ethDelay d).pkg.rd Reg.ETH_LINK_DELAY = BitVec.ofNat 32 d ∧
    (s.ethDelay d).pkg.flag Reg.ETH_STATUS_AS_CAPABLE = (d ≤ s.pkg.fld Reg.ETH_NPD_NPD_THR : Bool) ∧
    (s.ethDelay d).timeState = (if d ≤ s.pkg.fld Reg.ETH_NPD_NPD_THR then s.timeState else 0) ∧
    ∃ a b c, (s.ethDelay d).pkg.net = { s.pkg.net with syncOk := a, stepped := b, holdAt := c } := by
  rw [State.ethDelay_eq]
  set q := s.delayShown d
  have q1 : q.pkg.rd Reg.ETH_LINK_DELAY = BitVec.ofNat 32 d :=
    (Pkg.rd_put_ne (s.pkg.wr Reg.ETH_LINK_DELAY (BitVec.ofNat 32 d)) _ (by decide)).trans (s.pkg.rd_wr_same _ _)
  have q2 : q.pkg.flag Reg.ETH_STATUS_AS_CAPABLE = (d ≤ s.pkg.fld Reg.ETH_NPD_NPD_THR : Bool) :=
    Pkg.flag_putB_same (s.pkg.wr Reg.ETH_LINK_DELAY (BitVec.ofNat 32 d)) Reg.ETH_STATUS_AS_CAPABLE _ (by decide) rfl
  have q3 : q.timeState = s.timeState :=
    (Pkg.fld_put_ne (s.pkg.wr Reg.ETH_LINK_DELAY (BitVec.ofNat 32 d)) _ _ _ (by decide)).trans (Pkg.fld_wr_ne _ _ _ (by decide))
  have q4 : q.pkg.net = s.pkg.net := rfl
  clear_value q
  obtain ⟨h1, h2, -⟩ := q.timeNone_of
  by_cases h : d ≤ s.pkg.fld Reg.ETH_NPD_NPD_THR
  · rw [if_pos h, if_pos h]
    exact ⟨q1, q2, q3, _, _, _, by rw [q4]⟩
  · rw [if_neg h, if_neg h]
    refine ⟨(h1.rd _).trans q1, h1.capable.trans q2, h2, ?_⟩
    obtain ⟨a, b, c, hn⟩ := h1.net
    exact ⟨a, b, c, by rw [hn, q4]⟩

/-! Syncs (R399). -/

/-- What a Sync makes of the time state, on the port that may be used. -/
def State.syncStep (s : State) (off : Int) (ok : Bool) : State :=
  match s.timeState with
  | 0 => (s.setTime 1).onNet fun x => { x with syncOk := if ok then 1 else 0 }
  | 1 => if 4 ≤ (if ok then s.pkg.net.syncOk + 1 else 0) then (s.setTime 2).postPkg .ethTimeLock 0
      else s.onNet fun x => { x with syncOk := if ok then s.pkg.net.syncOk + 1 else 0 }
  | 2 => if ok then s else (s.setTime 1).postPkg .ethTimeUnlock 0 [word off]
  | _ => if ok then (s.setTime 2).postPkg .ethTimeLock 0 else s.setTime 1

theorem State.ethSync_eq (s : State) (off : Int) : s.ethSync off =
    let q := s.onPkg fun p => p.wr Reg.ETH_OFFSET_EST (w32 off)
    if !q.pkg.flag Reg.ETH_STATUS_AS_CAPABLE then q else q.syncStep off (iabs off ≤ s.pkg.fld Reg.ETH_SERVO_LOCK_TOL : Bool) := by
  unfold State.ethSync State.syncStep
  simp only [decide_eq_true_eq] <;> rfl

theorem State.syncStep_eff (s : State) (off : Int) (ok : Bool) : s.TimeEff (s.syncStep off ok) := by
  unfold State.syncStep
  split
  · exact .syncOk (.setTime .refl)
  · exact .ite (.post (.setTime .refl)) (.syncOk .refl)
  · exact .ite .refl (.post (.setTime .refl))
  · exact .ite (.post (.setTime .refl)) (.setTime .refl)

/-- R399: the time state after a Sync. -/
theorem State.syncStep_of (s : State) (off : Int) (ok : Bool) :
    (s.timeState = 0 → (s.syncStep off ok).timeState = 1) ∧
    (s.timeState = 1 → ok = true → s.pkg.net.syncOk = 3 → (s.syncStep off ok).timeState = 2 ∧ s.posted (s.syncStep off ok) .ethTimeLock 0 []) ∧
    (s.timeState = 1 → ok = false → (s.syncStep off ok).timeState = 1 ∧ (s.syncStep off ok).pkg.net.syncOk = 0) ∧
    (s.timeState = 2 → ok = true → (s.syncStep off ok).timeState = 2 ∧ (s.syncStep off ok).pkg.evq = s.pkg.evq) ∧
    (s.timeState = 2 → ok = false → (s.syncStep off ok).timeState = 1 ∧ ∃ v, s.posted (s.syncStep off ok) .ethTimeUnlock 0 [v]) ∧
    (s.timeState = 3 → ok = true → (s.syncStep off ok).timeState = 2 ∧ s.posted (s.syncStep off ok) .ethTimeLock 0 []) := by
  obtain ⟨-, l1, l2⟩ := s.setTime_post (n := 2) (by decide) .ethTimeLock []
  obtain ⟨-, u1, u2⟩ := s.setTime_post (n := 1) (by decide) .ethTimeUnlock [word off]
  unfold State.syncStep
  refine ⟨fun h => ?_, fun h ho hn => ?_, fun h ho => ?_, fun h ho => ?_, fun h ho => ?_, fun h ho => ?_⟩
  · rw [h]
    exact s.setTime_state (by decide)
  · rw [h, ho, hn]
    exact ⟨l1, l2⟩
  · rw [h, ho]
    exact ⟨h, rfl⟩
  · rw [h, ho]
    exact ⟨h, rfl⟩
  · rw [h, ho]
    exact ⟨u1, _, u2⟩
  · rw [h, ho]
    exact ⟨l1, l2⟩

/-- R399: a Sync shows its offset, whatever the port. -/
theorem State.ethSync_of (s : State) (off : Int) : (s.ethSync off).pkg.rd Reg.ETH_OFFSET_EST = w32 off ∧
    ∃ a b c, (s.ethSync off).pkg.net = { s.pkg.net with syncOk := a, stepped := b, holdAt := c } := by
  rw [State.ethSync_eq]
  set q := s.onPkg fun p => p.wr Reg.ETH_OFFSET_EST (w32 off)
  have q1 : q.pkg.rd Reg.ETH_OFFSET_EST = w32 off := s.pkg.rd_wr_same _ _
  have q2 : q.pkg.net = s.pkg.net := rfl
  clear_value q
  have h := q.syncStep_eff off (iabs off ≤ s.pkg.fld Reg.ETH_SERVO_LOCK_TOL : Bool)
  have hq : q.TimeEff (if !q.pkg.flag Reg.ETH_STATUS_AS_CAPABLE then q else q.syncStep off (iabs off ≤ s.pkg.fld Reg.ETH_SERVO_LOCK_TOL : Bool)) :=
    .ite .refl h
  obtain ⟨a, b, c, hn⟩ := hq.net
  exact ⟨(hq.rd _).trans q1, a, b, c, by rw [hn, q2]⟩

end

end Sys2Proof.Machine

/-! Frames of the MAC, the PHY, the map of network time (R395 to R399). -/
namespace Sys2Proof.Machine
set_option Elab.async false

section
variable {s : State}

/-! What the MAC takes. -/

theorem exec_ethFrameReceived (s : State) (f : EthFrame) : exec (.ethFrameReceived f) s = .next (
    if !s.ethOn then s
    else if f.etherType ≠ 0x88F7 || f.dest ≠ 0x0180C200000E || !f.fcsOk then s.onPkg fun p => p.bump Reg.ETH_DROP_CNT
    else if s.managerRuns then s.ethMessage f.msg else s) := rfl

/-- R395: a frame that the MAC does not take is counted. -/
theorem ethFrame_dropped (hon : s.ethOn = true) {f : EthFrame} (hf : f.etherType ≠ 0x88F7 ∨ f.dest ≠ 0x0180C200000E ∨ f.fcsOk = false) :
    ∃ t, exec (.ethFrameReceived f) s = .next t ∧ s.stakesKept t ∧
      t.pkg.rd Reg.ETH_DROP_CNT = satAdd 16 (s.pkg.rd Reg.ETH_DROP_CNT) 1 ∧ s.pkg.regsKept t.pkg [Reg.ETH_DROP_CNT] := by
  have he := exec_ethFrameReceived s f
  rw [hon, if_neg (by decide), if_pos (by simpa [or_assoc] using hf)] at he
  exact ⟨_, he, ⟨rfl, rfl, rfl⟩, s.pkg.rd_bump_same _, .bump .refl⟩

/-- R395: one that it takes goes to the package manager. -/
theorem ethFrame_taken (hon : s.ethOn = true) (hm : s.managerRuns = true) (m : EthMsg) :
    exec (.ethFrameReceived (ptpFrame m)) s = .next (s.ethMessage m) := by
  have he := exec_ethFrameReceived s (ptpFrame m)
  rw [hon, hm, if_neg (by decide), if_neg (by simp [ptpFrame]), if_pos rfl] at he
  exact he

/-! The peer delay (R395). -/

theorem ethMessage_pdelayResp {edge : Word48} {q : Nat} {x : Instant} (hq : s.pkg.net.pdReq = (q, some x)) (turn : Option Int) :
    s.ethMessage (.pdelayResp edge q turn) = match turn with
      | some d => (s.onNet fun y => { y with pdReq := (q, none) }).ethDelay (linkDelay (s.netMap.span46 ((s.ingress edge).minus x)) d)
      | none => s.onNet fun y => { y with pdReq := (q, none), pdWait := some (q, s.netMap.span46 ((s.ingress edge).minus x)) } := by
  unfold State.ethMessage
  dsimp only
  rw [hq]
  exact if_neg (fun h => h rfl)

theorem ethMessage_pdelayFollowUp {q : Nat} {span : Int} (hq : s.pkg.net.pdWait = some (q, span)) (turn : Int) :
    s.ethMessage (.pdelayFollowUp q turn) = (s.onNet fun y => { y with pdWait := none }).ethDelay (linkDelay span turn) := by
  unfold State.ethMessage
  dsimp only
  rw [hq]
  exact if_pos rfl

/-- R395: an answer of one step. -/
theorem pdelayResp_of (hon : s.ethOn = true) (hm : s.managerRuns = true) {edge : Word48} {q : Nat} {x : Instant} {turn : Int}
    (hq : s.pkg.net.pdReq = (q, some x)) :
    let d := linkDelay (s.netMap.span46 ((s.ingress edge).minus x)) turn
    ∃ t, exec (.ethFrameReceived (ptpFrame (.pdelayResp edge q (some turn)))) s = .next t ∧
      t.pkg.rd Reg.ETH_LINK_DELAY = BitVec.ofNat 32 d ∧ t.pkg.net.pdReq = (q, none) ∧
      t.pkg.flag Reg.ETH_STATUS_AS_CAPABLE = (d ≤ s.pkg.fld Reg.ETH_NPD_NPD_THR : Bool) ∧
      t.timeState = (if d ≤ s.pkg.fld Reg.ETH_NPD_NPD_THR then s.timeState else 0) := by
  intro d
  have he := (ethFrame_taken hon hm _).trans (congrArg Host.Outcome.next (ethMessage_pdelayResp hq (edge := edge) (some turn)))
  obtain ⟨h1, h2, h3, a, b, c, h4⟩ := (s.onNet fun y => { y with pdReq := (q, none) }).ethDelay_of d
  exact ⟨_, he, h1, by rw [h4]; rfl, h2, h3⟩

theorem pdelayFollowUp_of (hon : s.ethOn = true) (hm : s.managerRuns = true) {q : Nat} {span turn : Int} (hq : s.pkg.net.pdWait = some (q, span)) :
    ∃ t, exec (.ethFrameReceived (ptpFrame (.pdelayFollowUp q turn))) s = .next t ∧ t.pkg.net.pdWait = none ∧
      t.pkg.rd Reg.ETH_LINK_DELAY = BitVec.ofNat 32 (linkDelay span turn) := by
  have he := (ethFrame_taken hon hm _).trans (congrArg Host.Outcome.next (ethMessage_pdelayFollowUp hq turn))
  obtain ⟨h1, -, -, a, b, c, h4⟩ := (s.onNet fun y => { y with pdWait := none }).ethDelay_of (linkDelay span turn)
  exact ⟨_, he, by rw [h4]; rfl, h1⟩

/-! Announces (R395). -/

theorem announce_of (hon : s.ethOn = true) (hm : s.managerRuns = true) (g : BitVec 64) :
    ∃ t, exec (.ethFrameReceived (ptpFrame (.announce (some g)))) s = .next t ∧ s.stakesKept t ∧
      (t.pkg.rd Reg.ETH_GM_ID_LO).toNat + (t.pkg.rd Reg.ETH_GM_ID_HI).toNat * 4294967296 = g.toNat := by
  refine ⟨_, ethFrame_taken hon hm _, ⟨rfl, rfl, rfl⟩, ?_⟩
  change (((s.pkg.wr Reg.ETH_GM_ID_LO (BitVec.ofNat 32 g.toNat)).wr Reg.ETH_GM_ID_HI (BitVec.ofNat 32 (g.toNat / 4294967296))).rd
    Reg.ETH_GM_ID_LO).toNat + (((s.pkg.wr Reg.ETH_GM_ID_LO (BitVec.ofNat 32 g.toNat)).wr Reg.ETH_GM_ID_HI
      (BitVec.ofNat 32 (g.toNat / 4294967296))).rd Reg.ETH_GM_ID_HI).toNat * 4294967296 = g.toNat
  have hg := g.isLt
  rw [Pkg.rd_wr_ne _ _ (by decide), Pkg.rd_wr_same, Pkg.rd_wr_same, BitVec.toNat_ofNat, BitVec.toNat_ofNat]
  omega

/-- R399: with no grandmaster time is not maintained any more. -/
theorem announceNone_of (hon : s.ethOn = true) (hm : s.managerRuns = true) :
    ∃ t, exec (.ethFrameReceived (ptpFrame (.announce none))) s = .next t ∧ t.pkg.rd Reg.ETH_GM_ID_LO = 0 ∧
      t.pkg.rd Reg.ETH_GM_ID_HI = 0 ∧ t.timeState = 0 ∧ (s.timeState = 3 → s.posted t .ethTimeLost 0 []) := by
  have he : exec (.ethFrameReceived (ptpFrame (.announce none))) s =
      .next (s.onPkg fun p => (p.wr Reg.ETH_GM_ID_LO 0).wr Reg.ETH_GM_ID_HI 0).timeNone := ethFrame_taken hon hm _
  let q := s.onPkg fun p => (p.wr Reg.ETH_GM_ID_LO 0).wr Reg.ETH_GM_ID_HI 0
  have q1 : q.pkg.rd Reg.ETH_GM_ID_LO = 0 := (Pkg.rd_wr_ne (s.pkg.wr Reg.ETH_GM_ID_LO 0) 0 (by decide)).trans (s.pkg.rd_wr_same _ _)
  have q2 : q.pkg.rd Reg.ETH_GM_ID_HI = 0 := Pkg.rd_wr_same _ _ _
  have q3 : q.timeState = s.timeState := (Pkg.fld_wr_ne (s.pkg.wr Reg.ETH_GM_ID_LO 0) _ _ (by decide)).trans (Pkg.fld_wr_ne _ _ _ (by decide))
  have q4 : q.pkg.evq = s.pkg.evq ∧ q.pkg.eseq = s.pkg.eseq := ⟨rfl, rfl⟩
  obtain ⟨h1, h2, h3⟩ := q.timeNone_of
  exact ⟨_, he, (h1.rd _).trans q1, (h1.rd _).trans q2, h2, fun h => State.posted_of q4.1 q4.2 (h3 (q3.trans h))⟩

/-! Syncs (R399). -/

theorem State.onNet_syncOffset (s : State) (f : NetSt → NetSt) (x : Instant) (o : Int) : (s.onNet f).syncOffset x o = s.syncOffset x o := rfl

theorem State.onNet_ingress (s : State) (f : NetSt → NetSt) (e : Word48) : (s.onNet f).ingress e = s.ingress e := rfl

/-- R399: the notes of a Sync that has come. -/
def State.syncHeard (s : State) (edge : Word48) (seq : Nat) (interval : Int) : State :=
  s.onNet fun x => { x with syncAt := s.time, syncEvery := logTicks interval, syncWait := some (seq, s.ingress edge) }

theorem ethMessage_sync (s : State) (edge : Word48) (seq : Nat) (interval : Int) (origin : Option Int) :
    s.ethMessage (.sync edge seq interval origin) = match origin with
      | some o => ((s.syncHeard edge seq interval).onNet fun x => { x with syncWait := none }).ethSync (s.syncOffset (s.ingress edge) o)
      | none => s.syncHeard edge seq interval := by
  cases origin <;> rfl

theorem ethMessage_followUp {seq : Nat} {x : Instant} (hq : s.pkg.net.syncWait = some (seq, x)) (o : Int) :
    s.ethMessage (.followUp seq o) = (s.onNet fun x => { x with syncWait := none }).ethSync (s.syncOffset x o) := by
  unfold State.ethMessage
  dsimp only
  rw [hq]
  exact if_pos rfl

/-- R399: what a Sync of an offset, within its tolerance or not, makes of the time state and of the Syncs counted. -/
def State.syncOutcome (s t : State) (off : Int) (ok : Bool) : Prop :=
  t.pkg.rd Reg.ETH_OFFSET_EST = w32 off ∧
  (s.timeState = 0 → t.timeState = 1) ∧
  (s.timeState = 1 → ok = true → s.pkg.net.syncOk = 3 → t.timeState = 2 ∧ s.posted t .ethTimeLock 0 []) ∧
  (s.timeState = 1 → ok = false → t.timeState = 1 ∧ t.pkg.net.syncOk = 0) ∧
  (s.timeState = 2 → ok = true → t.timeState = 2 ∧ t.pkg.evq = s.pkg.evq) ∧
  (s.timeState = 2 → ok = false → t.timeState = 1 ∧ ∃ v, s.posted t .ethTimeUnlock 0 [v]) ∧
  (s.timeState = 3 → ok = true → t.timeState = 2 ∧ s.posted t .ethTimeLock 0 [])

theorem State.ethSync_outcome {s : State} (hc : s.pkg.flag Reg.ETH_STATUS_AS_CAPABLE = true) (off : Int) :
    s.syncOutcome (s.ethSync off) off (iabs off ≤ s.pkg.fld Reg.ETH_SERVO_LOCK_TOL : Bool) := by
  rw [State.ethSync_eq]
  generalize (iabs off ≤ s.pkg.fld Reg.ETH_SERVO_LOCK_TOL : Bool) = ok
  generalize hw : w32 off = w
  set q := s.onPkg fun p => p.wr Reg.ETH_OFFSET_EST w with hqd
  have q0 : q.pkg.flag Reg.ETH_STATUS_AS_CAPABLE = true :=
    (congrArg (fun n => decide (n ≠ 0)) (Pkg.fld_wr_ne s.pkg w Reg.ETH_STATUS_AS_CAPABLE (by decide))).trans hc
  have q1 : q.pkg.rd Reg.ETH_OFFSET_EST = w := s.pkg.rd_wr_same _ _
  have q2 : q.timeState = s.timeState := Pkg.fld_wr_ne s.pkg w Reg.ETH_STATUS_TIME_STATE (by decide)
  have q3 : q.pkg.evq = s.pkg.evq ∧ q.pkg.eseq = s.pkg.eseq := ⟨rfl, rfl⟩
  have q4 : q.pkg.net = s.pkg.net := rfl
  clear_value q
  dsimp only
  rw [if_neg (by rw [q0]; decide)]
  have h := q.syncStep_eff off ok
  obtain ⟨g0, g1, g2, g3, g4, g5⟩ := q.syncStep_of off ok
  rw [q2] at g0 g1 g2 g3 g4 g5
  rw [q4] at g1
  have post : ∀ {t : State} {e : Ev} {v : List Nat}, q.posted t e 0 v → s.posted t e 0 v := fun h => State.posted_of q3.1 q3.2 h
  refine ⟨((h.rd _).trans q1).trans hw.symm, g0, fun h1 h2 h3 => ⟨(g1 h1 h2 h3).1, post (g1 h1 h2 h3).2⟩, g2,
    fun h1 h2 => ⟨(g3 h1 h2).1, (g3 h1 h2).2.trans q3.1⟩, fun h1 h2 => ?_, fun h1 h2 => ⟨(g5 h1 h2).1, post (g5 h1 h2).2⟩⟩
  obtain ⟨h3, v, hv⟩ := g4 h1 h2
  exact ⟨h3, v, post hv⟩

/-- What a Sync makes is a matter of the time state, the event queue and the Syncs counted before. -/
theorem State.syncOutcome.of_onNet {s t : State} {f : NetSt → NetSt} {off : Int} {ok : Bool} (hf : (f s.pkg.net).syncOk = s.pkg.net.syncOk)
    (h : (s.onNet f).syncOutcome t off ok) : s.syncOutcome t off ok := by
  obtain ⟨h0, h1, h2, h3, h4, h5, h6⟩ := h
  have hp : ∀ {e : Ev} {v : List Nat}, (s.onNet f).posted t e 0 v → s.posted t e 0 v := fun h => State.posted_of rfl rfl h
  refine ⟨h0, h1, fun a b c => ?_, h3, h4, fun a b => ?_, fun a b => ?_⟩
  · obtain ⟨x, y⟩ := h2 a b (hf.trans c)
    exact ⟨x, hp y⟩
  · obtain ⟨x, v, y⟩ := h5 a b
    exact ⟨x, v, hp y⟩
  · obtain ⟨x, y⟩ := h6 a b
    exact ⟨x, hp y⟩

theorem sync_of (hon : s.ethOn = true) (hm : s.managerRuns = true) {edge : Word48} {seq : Nat} {interval origin : Int}
    (hc : s.pkg.flag Reg.ETH_STATUS_AS_CAPABLE = true) :
    ∃ t, exec (.ethFrameReceived (ptpFrame (.sync edge seq interval (some origin)))) s = .next t ∧
      t.pkg.net.syncAt = s.time ∧ t.pkg.net.syncEvery = logTicks interval ∧
      s.syncOutcome t (s.syncOffset (s.ingress edge) origin)
        (iabs (s.syncOffset (s.ingress edge) origin) ≤ s.pkg.fld Reg.ETH_SERVO_LOCK_TOL : Bool) := by
  have he := (ethFrame_taken hon hm _).trans (congrArg Host.Outcome.next (ethMessage_sync s edge seq interval (some origin)))
  dsimp only at he
  generalize s.syncOffset (s.ingress edge) origin = off at he ⊢
  have hu : s.syncHeard edge seq interval = s.onNet _ := rfl
  rw [hu] at he
  obtain ⟨-, e2, e3, -⟩ := s.onNet_frame fun x => { x with syncAt := s.time, syncEvery := logTicks interval, syncWait := some (seq, s.ingress edge) }
  have ho := State.ethSync_outcome (s := (s.onNet fun x =>
    { x with syncAt := s.time, syncEvery := logTicks interval, syncWait := some (seq, s.ingress edge) }).onNet fun x => { x with syncWait := none })
    (((State.onNet_frame _ _).2.2.1 _).trans ((e3 _).trans hc)) off
  rw [(State.onNet_frame _ _).2.1, e2] at ho
  obtain ⟨-, a, b, c, hn⟩ := State.ethSync_of ((s.onNet fun x =>
    { x with syncAt := s.time, syncEvery := logTicks interval, syncWait := some (seq, s.ingress edge) }).onNet fun x => { x with syncWait := none }) off
  exact ⟨_, he, by rw [hn]; rfl, by rw [hn]; rfl, (ho.of_onNet rfl).of_onNet rfl⟩

theorem followUp_of (hon : s.ethOn = true) (hm : s.managerRuns = true) {seq : Nat} {x : Instant} {origin : Int}
    (hq : s.pkg.net.syncWait = some (seq, x)) :
    ∃ t, exec (.ethFrameReceived (ptpFrame (.followUp seq origin))) s = .next t ∧
      t.pkg.rd Reg.ETH_OFFSET_EST = w32 (s.syncOffset x origin) ∧ t.pkg.net.syncWait = none := by
  have he := (ethFrame_taken hon hm _).trans (congrArg Host.Outcome.next (ethMessage_followUp hq origin))
  obtain ⟨h1, a, b, c, h2⟩ := (s.onNet fun x => { x with syncWait := none }).ethSync_of (s.syncOffset x origin)
  exact ⟨_, he, h1, by rw [h2]; rfl⟩

end

end Sys2Proof.Machine

/-! What the package manager sends, polls and commits (R395 to R399). -/
namespace Sys2Proof.Machine
set_option Elab.async false

section
variable {s : State}

/-- A Sync of two steps waits for its Follow_Up. -/
theorem syncTwoStep_of (hon : s.ethOn = true) (hm : s.managerRuns = true) (edge : Word48) (seq : Nat) (interval : Int) :
    ∃ t, exec (.ethFrameReceived (ptpFrame (.sync edge seq interval none))) s = .next t ∧ t.pkg.regs = s.pkg.regs ∧
      t.pkg.net.syncWait = some (seq, s.ingress edge) ∧ t.pkg.net.syncAt = s.time :=
  ⟨_, ethFrame_taken hon hm _, rfl, rfl, rfl⟩

theorem pdelayRespTwoStep_of (hon : s.ethOn = true) (hm : s.managerRuns = true) (edge : Word48) {q : Nat} {x : Instant}
    (hq : s.pkg.net.pdReq = (q, some x)) :
    ∃ t, exec (.ethFrameReceived (ptpFrame (.pdelayResp edge q none))) s = .next t ∧ t.pkg.regs = s.pkg.regs ∧
      t.pkg.net.pdWait = some (q, s.netMap.span46 ((s.ingress edge).minus x)) :=
  ⟨_, (ethFrame_taken hon hm _).trans (congrArg Host.Outcome.next (ethMessage_pdelayResp hq (edge := edge) none)), rfl, rfl⟩

/-! What the MAC sends (R395, R397). -/

theorem State.ethSend_of (s : State) (o : EthOut) : s.stakesKept (s.ethSend o) ∧ (s.ethSend o).pkg.regs = s.pkg.regs ∧
    (s.ethSend o).pkg.net.ethTx.map Prod.fst = s.pkg.net.ethTx.map Prod.fst ++ [o] ∧
    (s.ethSend o).pkg.net = { s.pkg.net with ethTx := (s.ethSend o).pkg.net.ethTx } :=
  ⟨⟨rfl, rfl, rfl⟩, rfl, List.map_append, rfl⟩

theorem ethMessage_pdelayReq (s : State) (i e : Word48) (q : Nat) (corr : Int) : s.ethMessage (.pdelayReq i e q corr) =
    if s.pkg.flag Reg.ETH_CTRL_ONE_STEP then s.ethSend (.pdelayResp q none (corr + 5120 * (s.egress e).minus (s.ingress i)) false)
    else (s.ethSend (.pdelayResp q (some (s.ingress i)) corr true)).ethSend (.pdelayFollowUp q (s.egress e)) := rfl

/-- R395: the answer to a Pdelay_Req, of one step or of two. -/
theorem pdelayReq_of (hon : s.ethOn = true) (hm : s.managerRuns = true) (i e : Word48) (q : Nat) (corr : Int) :
    ∃ t, exec (.ethFrameReceived (ptpFrame (.pdelayReq i e q corr))) s = .next t ∧ s.stakesKept t ∧ t.pkg.regs = s.pkg.regs ∧
      t.pkg.net.ethTx.map Prod.fst = s.pkg.net.ethTx.map Prod.fst ++
        if s.pkg.flag Reg.ETH_CTRL_ONE_STEP then [.pdelayResp q none (corr + 5120 * (s.egress e).minus (s.ingress i)) false]
        else [.pdelayResp q (some (s.ingress i)) corr true, .pdelayFollowUp q (s.egress e)] := by
  have he := (ethFrame_taken hon hm _).trans (congrArg Host.Outcome.next (ethMessage_pdelayReq s i e q corr))
  generalize corr + 5120 * (s.egress e).minus (s.ingress i) = total at he ⊢
  generalize s.ingress i = ins at he ⊢
  generalize s.egress e = out at he ⊢
  by_cases h : s.pkg.flag Reg.ETH_CTRL_ONE_STEP = true
  · rw [if_pos h] at he ⊢
    obtain ⟨h1, h2, h3, -⟩ := s.ethSend_of (.pdelayResp q none total false)
    exact ⟨_, he, h1, h2, h3⟩
  · rw [if_neg h] at he ⊢
    obtain ⟨h1, h2, h3, -⟩ := s.ethSend_of (.pdelayResp q (some ins) corr true)
    obtain ⟨g1, g2, g3, -⟩ := (s.ethSend (.pdelayResp q (some ins) corr true)).ethSend_of (.pdelayFollowUp q out)
    exact ⟨_, he, h1.trans g1, g2.trans h2, by rw [g3, h3, List.append_assoc]; rfl⟩

theorem exec_pdelayReqSend (s : State) : exec .pdelayReqSend s = .next (
    if !s.ethOn || !s.managerRuns || !(match s.pkg.net.pdelayAt with
      | none => true
      | some t => t + 50000000 * 2 ^ s.pkg.fld Reg.ETH_CTRL_PDELAY_LOG ≤ s.time : Bool) then s
    else
      (s.onNet fun x => { x with pdelayAt := some s.time, pdReq := ((s.pkg.net.pdReq.1 + 1) % 65536, some (s.egress (s.stake 0).ang.tick)), pdWait := none }).ethSend
        (.pdelayReq ((s.pkg.net.pdReq.1 + 1) % 65536) (s.egress (s.stake 0).ang.tick))) := rfl

/-- R395: the first Pdelay_Req. -/
theorem pdelayReqSend_of (hon : s.ethOn = true) (hm : s.managerRuns = true) (ha : s.pkg.net.pdelayAt = none) :
    let q := (s.pkg.net.pdReq.1 + 1) % 65536
    ∃ t, exec .pdelayReqSend s = .next t ∧ s.stakesKept t ∧ t.pkg.regs = s.pkg.regs ∧
      t.pkg.net.ethTx.map Prod.fst = s.pkg.net.ethTx.map Prod.fst ++ [.pdelayReq q (s.egress (s.stake 0).ang.tick)] ∧
      t.pkg.net.pdelayAt = some s.time ∧ t.pkg.net.pdReq = (q, some (s.egress (s.stake 0).ang.tick)) := by
  intro q
  have he := exec_pdelayReqSend s
  rw [hon, hm, ha, if_neg (by simp)] at he
  generalize s.egress (s.stake 0).ang.tick = out at he ⊢
  obtain ⟨h1, h2, h3, -⟩ := (s.onNet fun x => { x with pdelayAt := some s.time, pdReq := (q, some out), pdWait := none }).ethSend_of (.pdelayReq q out)
  exact ⟨_, he, h1, h2, h3, rfl, rfl⟩

/-! The PHY, and the loss of Syncs (R395, R399). -/

/-- The state of the PHY's link as a poll shows it. -/
def State.linkPolled (s : State) (up : Bool) : State :=
  (s.onPkg fun p => p.putB Reg.ETH_STATUS_LINK up).onNet fun x => { x with pollAt := some s.time }

theorem State.linkPolled_of (s : State) (up : Bool) : (s.linkPolled up).pkg.flag Reg.ETH_STATUS_LINK = up ∧
    (s.linkPolled up).timeState = s.timeState ∧ (s.linkPolled up).pkg.net.pollAt = some s.time ∧ (s.linkPolled up).pkg.evq = s.pkg.evq ∧
    (s.linkPolled up).pkg.eseq = s.pkg.eseq :=
  ⟨Pkg.flag_putB_same s.pkg Reg.ETH_STATUS_LINK up (by decide) rfl, Pkg.fld_put_ne s.pkg Reg.ETH_STATUS_LINK Reg.ETH_STATUS_TIME_STATE _ (by decide),
    rfl, rfl, rfl⟩

theorem exec_phyLinkPoll (s : State) (up : Bool) : exec (.phyLinkPoll up) s = .next (
    if !s.ethOn || !s.managerRuns || !(match s.pkg.net.pollAt with | none => true | some t => t + 4000000 ≤ s.time : Bool) then s
    else if !up && (s.linkPolled up).timeState = 2 then (s.linkPolled up).timeHold else s.linkPolled up) := rfl

theorem phyLinkPoll_of (hon : s.ethOn = true) (hm : s.managerRuns = true) (ha : s.pkg.net.pollAt = none) (up : Bool) :
    ∃ t, exec (.phyLinkPoll up) s = .next t ∧ t.pkg.flag Reg.ETH_STATUS_LINK = up ∧
      t.pkg.net.pollAt = some s.time ∧ t.timeState = (if !up && s.timeState = 2 then 3 else s.timeState) ∧
      (up = false → s.timeState = 2 → s.posted t .ethTimeHoldover 0 []) := by
  have he := exec_phyLinkPoll s up
  obtain ⟨h1, h2, h3, h4, h5⟩ := s.linkPolled_of up
  rw [hon, hm, ha, if_neg (by simp), h2] at he
  generalize s.linkPolled up = u at *
  obtain ⟨g1, g2, g3⟩ := u.timeHold_of
  by_cases h : (!up && s.timeState = 2 : Bool) = true
  · rw [if_pos h] at he ⊢
    obtain ⟨a, b, c, hn⟩ := g1.net
    exact ⟨_, he, g1.link.trans h1, by rw [hn]; exact h3, g2, fun _ _ => State.posted_of h4 h5 g3⟩
  · rw [if_neg h] at he ⊢
    exact ⟨_, he, h1, h3, h2, fun hu ht => absurd (by rw [hu, ht]; rfl) h⟩

theorem exec_ethSyncTimeout (s : State) : exec .ethSyncTimeout s = .next (
    if s.ethOn && s.managerRuns && s.timeState = 2 && s.pkg.net.syncAt + 3 * s.pkg.net.syncEvery ≤ s.time then
      (s.onPkg fun p => p.bump Reg.ETH_SYNC_TO_CNT).timeHold else s) := rfl

theorem ethSyncTimeout_of (hon : s.ethOn = true) (hm : s.managerRuns = true) (hs : s.timeState = 2)
    (ht : s.pkg.net.syncAt + 3 * s.pkg.net.syncEvery ≤ s.time) :
    ∃ t, exec .ethSyncTimeout s = .next t ∧ t.timeState = 3 ∧
      t.pkg.rd Reg.ETH_SYNC_TO_CNT = satAdd 16 (s.pkg.rd Reg.ETH_SYNC_TO_CNT) 1 ∧ s.posted t .ethTimeHoldover 0 [] := by
  have he := exec_ethSyncTimeout s
  rw [hon, hm, hs, if_pos (by simpa using ht)] at he
  obtain ⟨g1, g2, g3⟩ := (s.onPkg fun p => p.bump Reg.ETH_SYNC_TO_CNT).timeHold_of
  have hb : (s.onPkg fun p => p.bump Reg.ETH_SYNC_TO_CNT).pkg.evq = s.pkg.evq ∧ (s.onPkg fun p => p.bump Reg.ETH_SYNC_TO_CNT).pkg.eseq = s.pkg.eseq := by
    have ho : Pkg.Only [.regs] s.pkg (s.pkg.bump Reg.ETH_SYNC_TO_CNT) := .bump .refl
    exact ⟨ho.evq, ho.eseq⟩
  exact ⟨_, he, g2, (g1.rd _).trans (s.pkg.rd_bump_same _), State.posted_of hb.1 hb.2 g3⟩

theorem exec_holdoverTimeout (s : State) : exec .holdoverTimeout s = .next (
    if s.managerRuns && s.timeState = 3 && s.pkg.net.holdAt + 400000000 * s.pkg.fld Reg.ETH_SERVO_HOLD_MAX < s.time then s.timeNone else s) := rfl

theorem holdoverTimeout_of (hm : s.managerRuns = true) (hs : s.timeState = 3)
    (ht : s.pkg.net.holdAt + 400000000 * s.pkg.fld Reg.ETH_SERVO_HOLD_MAX < s.time) :
    ∃ t, exec .holdoverTimeout s = .next t ∧ t.timeState = 0 ∧ s.posted t .ethTimeLost 0 [] := by
  have he := exec_holdoverTimeout s
  rw [hm, hs, if_pos (by simpa using ht)] at he
  obtain ⟨-, h2, h3⟩ := s.timeNone_of
  exact ⟨_, he, h2, h3 hs⟩

/-! The map (R398, R399). -/

/-- How far a map lies from the one in force, in 2^-46 ns. -/
def State.mapGap (s : State) (m : NetMap) : Int := (BitVec.ofInt 78 (m.nt46 ⟨m.tick, 0⟩ - s.netMap.nt46 ⟨m.tick, 0⟩)).toInt

/-- A map that is taken for its tick. -/
def State.mapTaken (s : State) (m : NetMap) (step : Bool) : State :=
  s.onNet fun x => { x with mapNext := some m, stepped := x.stepped || step }

theorem exec_mapCommit (s : State) (tick nt ms : Word48) (rate : Int) : exec (.mapCommit tick nt ms rate) s = .next (
    if !s.ethOn || !s.managerRuns || s.timeState = 0 || s.timeState = 3 || (tick - (s.stake 0).ang.tick).toInt < 64 || 219902326 < iabs rate ||
      65536000000 ≤ ms.toNat then s
    else if (70368744177664 < iabs (s.mapGap ⟨tick, nt, ms, rate⟩) : Bool) && (s.timeState = 2 || s.pkg.net.stepped ||
      !(100000 < iabs (s.pkg.rd Reg.ETH_OFFSET_EST).toInt : Bool)) then s
    else if 70368744177664 < iabs (s.mapGap ⟨tick, nt, ms, rate⟩) then
      ((s.mapTaken ⟨tick, nt, ms, rate⟩ (70368744177664 < iabs (s.mapGap ⟨tick, nt, ms, rate⟩))).onPkg fun p => p.bump Reg.ETH_STEP_CNT).postPkg
        .ethTimeStep 0 [word (s.mapGap ⟨tick, nt, ms, rate⟩ / 70368744177664)]
    else s.mapTaken ⟨tick, nt, ms, rate⟩ (70368744177664 < iabs (s.mapGap ⟨tick, nt, ms, rate⟩))) := rfl

end

end Sys2Proof.Machine

/-! The commit of a map, and the statement about network time (R387 to R399). -/
namespace Sys2Proof.Machine
set_option Elab.async false

section
variable {s : State}

/-- R398, R399: what becomes of a map that comes in time and whose values are in range, where `step` says that it steps. -/
def State.mapOutcome (s : State) (m : NetMap) (step far : Bool) : State :=
  if s.timeState = 0 || s.timeState = 3 then s
  else if step && (s.timeState = 2 || s.pkg.net.stepped || !far) then s
  else if step then ((s.mapTaken m step).onPkg fun p => p.bump Reg.ETH_STEP_CNT).postPkg .ethTimeStep 0 [word (s.mapGap m / 70368744177664)]
  else s.mapTaken m step

theorem exec_mapCommit_ready (hon : s.ethOn = true) (hm : s.managerRuns = true) {tick nt ms : Word48} {rate : Int}
    (hl : 64 ≤ (tick - (s.stake 0).ang.tick).toInt) (hr : iabs rate ≤ 219902326) (hms : ms.toNat < 65536000000) :
    exec (.mapCommit tick nt ms rate) s = .next (s.mapOutcome ⟨tick, nt, ms, rate⟩ (70368744177664 < iabs (s.mapGap ⟨tick, nt, ms, rate⟩))
      (100000 < iabs (s.pkg.rd Reg.ETH_OFFSET_EST).toInt)) := by
  rw [exec_mapCommit, State.mapOutcome]
  have h1 : ¬ (tick - (s.stake 0).ang.tick).toInt < 64 := Int.not_lt.2 hl
  have h2 : ¬ 219902326 < iabs rate := Int.not_lt.2 hr
  have h3 : ¬ 65536000000 ≤ ms.toNat := Nat.not_le.2 hms
  simp only [hon, hm, h1, h2, h3, Bool.not_true, Bool.false_or, decide_false, Bool.or_false, decide_eq_true_eq]

theorem State.mapOutcome_of (s : State) (m : NetMap) (step far : Bool) :
    (s.timeState = 0 ∨ s.timeState = 3 → s.mapOutcome m step far = s) ∧
    (step = false → s.timeState = 1 ∨ s.timeState = 2 → s.mapOutcome m step far = s.mapTaken m false) ∧
    (step = true → s.timeState = 2 ∨ (s.timeState = 1 ∧ (s.pkg.net.stepped = true ∨ far = false)) → s.mapOutcome m step far = s) ∧
    (step = true → s.timeState = 1 → s.pkg.net.stepped = false → far = true → s.mapOutcome m step far =
      ((s.mapTaken m true).onPkg fun p => p.bump Reg.ETH_STEP_CNT).postPkg .ethTimeStep 0 [word (s.mapGap m / 70368744177664)]) := by
  unfold State.mapOutcome
  refine ⟨fun h => ?_, fun hs h => ?_, fun hs h => ?_, fun hs h hn hf => ?_⟩
  · exact if_pos (by simpa using h)
  · rw [hs, if_neg (by rcases h with h | h <;> simp [h])]
    rfl
  · rw [hs]
    rcases h with h | ⟨h, hx⟩
    · simp [h]
    · rcases hx with hx | hx <;> simp [h, hx]
  · rw [hs, h, hn, hf]
    rfl

/-- R398: a step that is taken. -/
theorem State.mapTaken_step (s : State) (m : NetMap) (v : Nat) :
    let t := ((s.mapTaken m true).onPkg fun p => p.bump Reg.ETH_STEP_CNT).postPkg .ethTimeStep 0 [v]
    t.pkg.net.mapNext = some m ∧ t.pkg.net.stepped = true ∧ t.pkg.rd Reg.ETH_STEP_CNT = satAdd 16 (s.pkg.rd Reg.ETH_STEP_CNT) 1 ∧
      s.posted t .ethTimeStep 0 [v] := by
  intro t
  have hb : Pkg.Only [.regs] (s.mapTaken m true).pkg ((s.mapTaken m true).onPkg fun p => p.bump Reg.ETH_STEP_CNT).pkg := .bump .refl
  have hn : t.pkg.net = (s.mapTaken m true).pkg.net := (State.postPkg_pkg_net _ _ _ _).trans hb.net
  have hr : t.pkg.rd Reg.ETH_STEP_CNT = satAdd 16 ((s.mapTaken m true).pkg.rd Reg.ETH_STEP_CNT) 1 :=
    (State.postPkg_regsKept _ _ _ _ _ (by decide)).trans (Pkg.rd_bump_same _ _)
  have hs : s.pkg.net.stepped || true := Bool.or_true _
  exact ⟨by rw [hn]; rfl, by rw [hn]; exact hs, hr, State.posted_of hb.evq hb.eseq (State.postPkg_posted _ _ _ _)⟩

/-- R398, R399: the commit of a map. -/
theorem mapCommit_of (hon : s.ethOn = true) (hm : s.managerRuns = true) {tick nt ms : Word48} {rate : Int}
    (hl : 64 ≤ (tick - (s.stake 0).ang.tick).toInt) (hr : iabs rate ≤ 219902326) (hms : ms.toNat < 65536000000) :
    let m : NetMap := ⟨tick, nt, ms, rate⟩
    let step : Bool := 70368744177664 < iabs (s.mapGap m)
    let far : Bool := 100000 < iabs (s.pkg.rd Reg.ETH_OFFSET_EST).toInt
    ∃ t, exec (.mapCommit tick nt ms rate) s = .next t ∧
      (s.timeState = 0 ∨ s.timeState = 3 → t = s) ∧
      (step = false → s.timeState = 1 ∨ s.timeState = 2 → s.stakesKept t ∧ t.pkg.regs = s.pkg.regs ∧ t.pkg.net.mapNext = some m ∧
        t.pkg.evq = s.pkg.evq) ∧
      (step = true → s.timeState = 2 ∨ (s.timeState = 1 ∧ (s.pkg.net.stepped = true ∨ far = false)) → t = s) ∧
      (step = true → s.timeState = 1 → s.pkg.net.stepped = false → far = true → t.pkg.net.mapNext = some m ∧
        t.pkg.net.stepped = true ∧ t.pkg.rd Reg.ETH_STEP_CNT = satAdd 16 (s.pkg.rd Reg.ETH_STEP_CNT) 1 ∧
        ∃ v, s.posted t .ethTimeStep 0 [v]) := by
  intro m step far
  obtain ⟨h1, h2, h3, h4⟩ := s.mapOutcome_of m step far
  refine ⟨_, exec_mapCommit_ready hon hm hl hr hms, h1, fun hs ht => ?_, h3, fun hs ht hn hf => ?_⟩
  · rw [show s.mapOutcome _ _ _ = s.mapTaken m false from h2 hs ht]
    exact ⟨⟨rfl, rfl, rfl⟩, rfl, rfl, rfl⟩
  · rw [show s.mapOutcome _ _ _ = _ from h4 hs ht hn hf]
    obtain ⟨g1, g2, g3, g4⟩ := s.mapTaken_step m (word (s.mapGap m / 70368744177664))
    exact ⟨g1, g2, g3, _, g4⟩

end

/-- Settles O58: each command by the operation of the controller, the MAC or the time state it runs. -/
theorem networkTime : Obligations.NetworkTime := by
  unfold Obligations.NetworkTime
  refine ⟨fun s h => canUsWrap_of h, fun s c hl ho ht hr hd => canRefSend_of hl ho ht hr hd,
    fun s c hc hp hr ho ht => canTtRefTimeout_of hc hp hr ho ht,
    fun s c col b hl ho hr hcol hus hcell he hd => canTtColumnStart_of hl ho hr hcol hus hcell he hd,
    fun s c b t0 _ hx ht hb => canTtExclusiveMiss_of hx ht hb, fun s hi he hd => canStatusFrameSend_of hi he hd, fun s hon => ?_,
    fun s tick nt ms rate hon hm hl hr hms => mapCommit_of hon hm hl hr hms, fun s hm hs ht => holdoverTimeout_of hm hs ht⟩
  refine ⟨fun f hf => ethFrame_dropped hon hf, fun edge q x turn hm hq => pdelayResp_of hon hm hq,
    fun edge q x hm hq => pdelayRespTwoStep_of hon hm edge hq, fun q span turn hm hq => pdelayFollowUp_of hon hm hq,
    fun g hm => announce_of hon hm g, fun hm => announceNone_of hon hm, fun edge seq interval origin hm hc => ?_,
    fun edge seq interval hm => syncTwoStep_of hon hm edge seq interval, fun seq x origin hm hq => followUp_of hon hm hq,
    fun i e q corr hm => pdelayReq_of hon hm i e q corr, fun hm ha => pdelayReqSend_of hon hm ha, fun up hm ha => phyLinkPoll_of hon hm ha up,
    fun hm hs ht => ethSyncTimeout_of hon hm hs ht⟩
  obtain ⟨t, he, h1, h2, h3, h4⟩ := sync_of hon hm (edge := edge) (seq := seq) (interval := interval) (origin := origin) hc
  exact ⟨t, he, h3, h1, h2, h4⟩

end Sys2Proof.Machine
